-- ==== Sys2Proof/Word.lean ====
section
/-! DEFINITION. The widths of the VG-3256: bytes, 32-bit words, 64-bit values, and the plainest arithmetic on them
(saturating and signed). Nothing here is particular to one chapter. -/

namespace Sys2Proof

/-- One byte of a packet, a frame or an array. -/
abbrev Byte := BitVec 8

/-- One 32-bit word: an object word, a variable word, an instruction word (R12). -/
abbrev Word := BitVec 32

/-- The largest value of a signed 32-bit word. -/
def int32Max : Int := 2147483647

/-- The smallest value of a signed 32-bit word. -/
def int32Min : Int := -2147483648

/-- The nearest value of the range `lo` to `hi`. -/
def clampInt (lo hi x : Int) : Int := if x < lo then lo else if hi < x then hi else x

/-- The nearest signed 32-bit value (R116, R153: results saturate and never wrap). -/
def sat32 (x : Int) : Int := clampInt int32Min int32Max x

/-- A counter that stops at its largest value ("saturating"). -/
def satInc {w : Nat} (x : BitVec w) : BitVec w := if x = BitVec.allOnes w then x else x + 1

/-- A natural number held in a field of `w` bits that saturates. -/
def satNat (w n : Nat) : Nat := min n (2 ^ w - 1)

end Sys2Proof
end

