-- ==== Sys2Proof/Machine/Bits.lean ====
section
/-! DEFINITION. Bit fields of words (R12) and the byte order of packets, frames and arrays: most significant byte first. -/

namespace Sys2Proof

/-- The field NAME[hi:lo] of a word, as a number (R12). -/
def bits (w : Word) (hi lo : Nat) : Nat := w.toNat / 2 ^ lo % 2 ^ (hi + 1 - lo)

/-- The bit NAME[n] of a word. -/
def bit (w : Word) (n : Nat) : Bool := w.toNat / 2 ^ n % 2 == 1

/-- A word from its fields (hi, lo, value). -/
def mkWord (fs : List (Nat × Nat × Nat)) : Word :=
  BitVec.ofNat 32 (fs.foldl (fun a f => a + f.2.2 % 2 ^ (f.1 + 1 - f.2.1) * 2 ^ f.2.1) 0)

/-- A bit as a number. -/
def b2n (b : Bool) : Nat := if b then 1 else 0

/-- A word with one bit changed. -/
def setBit (w : Word) (n : Nat) (b : Bool) : Word :=
  if bit w n == b then w else if b then w + BitVec.ofNat 32 (2 ^ n) else w - BitVec.ofNat 32 (2 ^ n)

/-- Byte `i` of a list, 0 beyond its end. -/
def byteAt (l : List Byte) (i : Nat) : Nat := (l.getD i 0).toNat

/-- Two bytes, most significant first. -/
def be16 (l : List Byte) (i : Nat) : Nat := byteAt l i * 256 + byteAt l (i + 1)

/-- Four bytes, most significant first. -/
def be32 (l : List Byte) (i : Nat) : Nat := be16 l i * 65536 + be16 l (i + 2)

/-- Four bytes as a word. -/
def beWord (l : List Byte) (i : Nat) : Word := BitVec.ofNat 32 (be32 l i)

/-- A number as `n` bytes, most significant first. -/
def toBe : Nat → Nat → List Byte
  | 0, _ => []
  | n + 1, v => BitVec.ofNat 8 (v / 256 ^ n) :: toBe n v

/-- The signed value of a word. -/
def sInt (w : Word) : Int := w.toInt

/-- A word from a signed value. -/
def ofI (x : Int) : Word := BitVec.ofInt 32 x

/-- The words of a list of bytes, four to a word, first byte in bits 31:24 (R249, R371). -/
def packWords : Nat → List Byte → List Word
  | 0, _ => []
  | n + 1, l => beWord l 0 :: packWords n (l.drop 4)

/-- The greatest common divisor of a list (0 of the empty list). -/
def gcdList (l : List Nat) : Nat := l.foldl Nat.gcd 0

/-- round(x × 2^−s), to nearest with ties away from zero (R155, R160). -/
def roundShift (x : Int) (s : Nat) : Int :=
  if s = 0 then x
  else if 0 ≤ x then (x + 2 ^ (s - 1)) / 2 ^ s
  else -((-x + 2 ^ (s - 1)) / 2 ^ s)

end Sys2Proof
end

