-- ==== Sys2Proof/Syntax.lean ====
section
/-! DEFINITION. The commands of the module, one constructor of `Instr` per row of the opcode table, and the data they
carry. A command packet carries itself as it arrived (R40); an instruction of a logic engine carries the engine and its
operands (R107); an event carries the channel or port and what was measured or received. -/

namespace Sys2Proof

/-- The transports of command packets, in the order of R49. -/
inductive Port where
  | causeway | ringA | ringB | svc
  deriving DecidableEq, Repr, Inhabited

/-- A command packet as it arrives or leaves (R40): the header fields, the payload bytes of the frame and the
authentication tag's bytes (none when the frame carries no tag). On the ring `peer` is the MAC of the other end: of the requester in a
request, and the destination of a packet that the module sends (R381). -/
structure Packet where
  port : Port
  magic : BitVec 16
  version : BitVec 8
  flags : BitVec 8
  opcode : BitVec 16
  tag : BitVec 16
  seq : BitVec 32
  target : BitVec 16
  origin : BitVec 16
  length : BitVec 16
  cls : BitVec 8
  keyslot : BitVec 8
  cycle : BitVec 32
  payload : List Byte
  auth : List Byte
  peer : BitVec 48 := 0
  deriving DecidableEq, Repr, Inhabited

/-- The operand areas of R108. -/
inductive Area where
  | I | Q | M | D | E | T | C | K | S | Z | L | N
  deriving DecidableEq, Repr, Inhabited

/-- An operand of an instruction: area, offset and, for a bit of a word area, the bit (R107, R109). -/
structure Operand where
  area : Area
  offset : BitVec 20
  bit : BitVec 5
  deriving DecidableEq, Repr, Inhabited

/-- The operand and extension word of an edge instruction (R107). -/
structure EdgeOperand where
  op : Operand
  edge : BitVec 20
  deriving DecidableEq, Repr, Inhabited

/-- The timer number and extension word of TON, TOF and TP (R107). -/
structure TimerOperand where
  timer : BitVec 20
  res : BitVec 2
  retain : Bool
  presetWa : Bool
  preset : BitVec 16
  deriving DecidableEq, Repr, Inhabited

/-- What the byte codes of a word find at an access (R339): nothing, single-bit errors in some of its bytes, or a byte that the code cannot
correct beside `corrected` bytes that it can. `hard` says that a byte written back fails the check after it (R348). -/
inductive Verdict where
  | clean
  | corrected (bytes : Nat) (hard : Bool := false)
  | uncorrectable (corrected : Nat := 0)
  deriving DecidableEq, Repr, Inhabited

/-- A side of a crossing that the Tollgate finds at fault (R32). -/
structure CrossingFault where
  sender : Fin 21
  receiver : Fin 21
  discrepancy : Int
  senderFaulty : Bool
  receiverFaulty : Bool
  deriving DecidableEq, Repr, Inhabited

/-- What one conversion of a universal channel measures (R185, R192 to R194, R199): `raw` in µV (VIN_10, VOUT_10), nV (VIN_MV, TC,
LISTEN), nA (current modes) or mΩ (RTD and RES modes, leads included); the lead of RTD_3W in mΩ; whether the excitation cannot be
delivered, a sense lead is open or the terminal voltage passed 1 V in the burn-out test; the cold junction; whether a voltage
stage is in current limit; and the live readings. -/
structure Conversion where
  raw : Int
  lead : Int
  opened : Bool
  cjTemp : Int
  cjOpen : Bool
  inLimit : Bool
  headroomMv : Nat
  storeMv : Nat
  loadUa : Nat
  deriving DecidableEq, Repr, Inhabited

/-- A HART device that answered a scan (R203). -/
structure HartFound where
  poll : BitVec 4
  longHi : BitVec 8
  longLo : BitVec 32
  deriving DecidableEq, Repr, Inhabited

/-- The two kinds of digital group (R211). -/
inductive GroupKind where
  | di | do_
  deriving DecidableEq, Repr, Inhabited

/-- The levels of R227. -/
inductive GroupLevel where
  | sag | low | lost
  deriving DecidableEq, Repr, Inhabited

/-- A CAN frame on a bus (R238, R246). -/
structure CanFrame where
  xtd : Bool
  fdf : Bool
  brs : Bool
  esi : Bool
  rtr : Bool
  id : BitVec 29
  data : List Byte
  sof : Nat
  deriving DecidableEq, Repr, Inhabited

/-- The errors a CAN receiver can detect, with their effect on REC under ISO 11898-1 (R244). -/
inductive CanRxError where
  | plain
  | dominantAfterFlag
  deriving DecidableEq, Repr, Inhabited

/-- How a transmitted frame ends: without error, with an error, or in a way that ISO 11898-1 leaves TEC unchanged at: arbitration
lost, or one of its stated exceptions (R244, R257). -/
inductive CanTxResult where
  | ok | error | lost
  deriving DecidableEq, Repr, Inhabited

/-- The two heartbeat paths (R295). -/
inductive HbPath where
  | causeway | ring
  deriving DecidableEq, Repr, Inhabited

/-- A heartbeat of the partner (R295, R383); one on the ring names in `target` the module that takes it. -/
structure Heartbeat where
  target : BitVec 16 := 0
  address : BitVec 10
  sideB : Bool
  state : BitVec 8
  epoch : BitVec 32
  claim : Bool
  lastCycle : BitVec 32
  fwMajor : BitVec 8
  deriving DecidableEq, Repr, Inhabited

/-- The ledger's entry of one total (R302): the committed value and the mark field, each with its poison mark. -/
structure LedgerTotal where
  value : Int
  mark : BitVec 64
  poisoned : Bool
  deriving DecidableEq, Repr, Inhabited

/-- The ledger's words of one mirrored loop context (R178). -/
structure LedgerContext where
  ctx : Fin 256
  words : List Word
  deriving DecidableEq, Repr, Inhabited

/-- A force as it stands in the table or travels in the ledger (R96, R98, R302). -/
structure Force where
  hash : Word
  isBit : Bool
  area : Area
  offset : Nat
  value : Word
  deriving DecidableEq, Repr, Inhabited

/-- A mirrored word of the declared space (R302): where it stands, its value and its poison mark. -/
structure MirrorWord where
  area : Area
  offset : Nat
  value : Word
  poisoned : Bool
  deriving DecidableEq, Repr, Inhabited

/-- The mirror ledger of one cycle (R302). -/
structure Ledger where
  cycle : BitVec 32
  fingerprint : Word
  epoch : BitVec 32
  switchCycle : Option (BitVec 32)
  handoverCycle : Option (BitVec 32)
  tick : BitVec 32
  totals : List LedgerTotal
  contexts : List LedgerContext
  timers : List (Nat × List (Word × Bool))
  vars : List MirrorWord
  forces : Option (List Force)
  deriving DecidableEq, Repr, Inhabited

/-- A change that the active forwards to its standby (R305), and what the modules of a pair tell each other of a rehearsal: its terms, by the one that
accepted it, and the fault after which the outgoing one asks for the hand-back (R311, R312; log 69). -/
inductive Change where
  | object (index sub : Nat) (value : Word)
  | coeff (ctx : Fin 256) (section_ : Fin 8) (coeff : Fin 5) (value : Word) (shift : BitVec 5) (sample : BitVec 32)
  | stage (ctx : Fin 256) (sections : List (List Word))
  | commit (ctx : Fin 256) (sample : BitVec 32)
  | programBegin (bank : Bool) (words : Nat) (crc : Word)
  | programData (offset : Nat) (data : List Word)
  | programEnd
  | fireConfig (words : List Word)
  | ack (group : Fin 4) (mask : BitVec 8)
  | totalClose (total : Fin 64)
  | canEnable (port : Nat) (on : Bool)
  | forceSet (forces : List Force)
  | forceRelease (words : List (Area × Nat)) (all : Bool)
  | rehearse (dwell : Nat) (handBack : Bool)
  | handBack
  deriving DecidableEq, Repr, Inhabited

/-- A total as the active has committed it (R316, R326, R337): its residue stands for the mark of an integrator. -/
structure SnapTotal where
  value : Int := 0
  residue : Int := 0
  epoch : BitVec 32 := 0
  lastClosed : Int := 0
  uncertain : Bool := false
  saturated : Bool := false
  gapS : BitVec 16 := 0
  uncLo : Int := 0
  uncHi : Int := 0
  refused : Int := 0
  deriving DecidableEq, Repr, Inhabited

/-- The snapshot a standby receives at resynchronisation (R316). `marks` are the byte addresses of its Town Square that are poisoned; `runBank` and `run` are
the bank that the active runs and its RUN or STOP (log 162). -/
structure Snapshot where
  cycle : BitVec 32
  fwMajor : BitVec 8
  objects : List (Nat × Word)
  fireConfig : List (Nat × Word)
  forces : List Force
  tick : Nat
  samples : List (Nat × BitVec 32)
  square : List (Nat × Byte)
  totals : List SnapTotal
  banks : List (Nat × List (Nat × Word))
  runBank : Bool := false
  run : Bool := false
  marks : List Nat := []
  deriving DecidableEq, Repr, Inhabited

/-- An HSR frame as a ring port sees it (R380, R381): its addresses, the sequence number of its HSR tag, the EtherType behind the tag and what
follows it. -/
structure HsrFrame where
  source : BitVec 48
  dest : BitVec 48
  seq : BitVec 16
  etherType : BitVec 16
  payload : List Byte
  deriving DecidableEq, Repr, Inhabited

/-- A Sync as it arrives: the ring port and its PTP domain (R389). -/
structure PtpSync where
  port : Fin 2
  domain : BitVec 8
  deriving DecidableEq, Repr, Inhabited

/-- What is measured with a Sync, in ns (R389, R390): the offset of module time from the grandmaster's, and the path delay. -/
structure PtpMeasured where
  offset : Int
  delay : Int
  deriving DecidableEq, Repr, Inhabited

/-- A station trip frame (R383). -/
structure TripFrame where
  address : BitVec 16
  serial : BitVec 64
  seq : BitVec 32 := 0
  code : BitVec 8
  tripped : Bool
  tripNs : Nat
  states : BitVec 256
  deriving DecidableEq, Repr, Inhabited

/-- Who sends a station frame, and its SEQ (R383). -/
structure StationSender where
  serial : BitVec 64
  seq : BitVec 32
  deriving DecidableEq, Repr, Inhabited

/-- The three kinds of station frame the module sends (R383). -/
inductive StationBody where
  | trip (code : BitVec 8) (tripped : Bool) (tripNs : Nat) (states : BitVec 256)
  | heartbeat (target : BitVec 16) (sideB : Bool) (pairState : BitVec 8) (claim : Bool) (epoch lastCycle : BitVec 32)
  | announce (ring position : BitVec 8) (provisional : Bool)
  deriving DecidableEq, Repr, Inhabited

/-- A station frame (R383). -/
structure StationFrame where
  address : BitVec 16
  serial : BitVec 64
  seq : BitVec 32
  body : StationBody
  deriving DecidableEq, Repr, Inhabited

/-- The commands: one constructor per row of the opcode table, in the table's order. -/
inductive Instr where
  | identify (p : Packet)
  | getStatus (p : Packet)
  | readObject (p : Packet)
  | writeObject (p : Packet)
  | restart (p : Packet)
  | enumerate (p : Packet)
  | confirmAddress (p : Packet)
  | programBegin (p : Packet)
  | programData (p : Packet)
  | programEnd (p : Packet)
  | programSwitch (p : Packet)
  | runStop (p : Packet)
  | forceSet (p : Packet)
  | forceRelease (p : Packet)
  | cycleStats (p : Packet)
  | readVars (p : Packet)
  | writeVars (p : Packet)
  | subscribe (p : Packet)
  | unsubscribe (p : Packet)
  | setPending (p : Packet)
  | eventSubscribe (p : Packet)
  | loopEnable (p : Packet)
  | loopDisable (p : Packet)
  | loopWriteCoeff (p : Packet)
  | loopStage (p : Packet)
  | loopCommit (p : Packet)
  | loopRead (p : Packet)
  | channelMode (p : Packet)
  | channelStatus (p : Packet)
  | outputAck (p : Packet)
  | hartTransact (p : Packet)
  | hartBurstRead (p : Packet)
  | canEnable (p : Packet)
  | canRecover (p : Packet)
  | canSend (p : Packet)
  | canCounters (p : Packet)
  | stationStatus (p : Packet)
  | pairStatus (p : Packet)
  | rehearse (p : Packet)
  | resync (p : Packet)
  | recQuery (p : Packet)
  | recUpload (p : Packet)
  | recCounters (p : Packet)
  | recNote (p : Packet)
  | panelFrame (p : Packet)
  | panelShow (p : Packet)
  | plateUpdate (p : Packet)
  | panelPower (p : Packet)
  | memStatus (p : Packet)
  | scrubNow (p : Packet)
  | remapRead (p : Packet)
  | powerStatus (p : Packet)
  | thermalStatus (p : Packet)
  | fireStatus (p : Packet)
  | fireReset (p : Packet)
  | fireLoad (p : Packet)
  | fireArm (p : Packet)
  | fireConfirm (p : Packet)
  | totalRead (p : Packet)
  | totalClose (p : Packet)
  | keyInstall (p : Packet)
  | keyRevoke (p : Packet)
  | keyStatus (p : Packet)
  | fwBegin (p : Packet)
  | fwData (p : Packet)
  | fwActivate (p : Packet)
  | unknownOpcode (p : Packet)
  | objectWrite (roles : BitVec 4) (index : BitVec 16) (sub : BitVec 8) (value : Word)
  | totalConfigWrite (roles : BitVec 4) (t : Fin 64) (sub : BitVec 8) (value : Word)
  | rescan (ch : Fin 32)
  | multiPacketTimeout (origin tag : BitVec 16)
  | replyPacketSend (port : Port)
  | idleClose (origin : BitVec 16)
  | windowHoldExpiry (origin : BitVec 16)
  | subscriptionLeaseExpiry (sub : Fin 64)
  | subDelta (sub : Fin 64)
  | subscriberLeaseExpiry (slot : Fin 16)
  | event (port : Port)
  | crossingMessageSend (sender receiver : Fin 21) (offer : Option (Fin 4 × Fin 16))
  | auditRound (faults : List CrossingFault) (windows : List (BitVec 16))
  | islandRestartComplete (n : Fin 20)
  | refClockLost
  | refClockRestored
  | domainPowerUpComplete (d : Fin 12)
  | vbusChange (present : Bool)
  | cycleStart
  | freeze
  | commit
  | watchdogExpiry
  | retainPeriod
  | nop (e : Fin 4)
  | end_ (e : Fin 4)
  | ld (e : Fin 4) (o : Operand)
  | ldn (e : Fin 4) (o : Operand)
  | and_ (e : Fin 4) (o : Operand)
  | andn (e : Fin 4) (o : Operand)
  | or_ (e : Fin 4) (o : Operand)
  | orn (e : Fin 4) (o : Operand)
  | xor_ (e : Fin 4) (o : Operand)
  | xorn (e : Fin 4) (o : Operand)
  | out (e : Fin 4) (o : Operand)
  | setb (e : Fin 4) (o : Operand)
  | clrb (e : Fin 4) (o : Operand)
  | inv (e : Fin 4)
  | cbset (e : Fin 4)
  | cbclr (e : Fin 4)
  | andOpen (e : Fin 4)
  | andnOpen (e : Fin 4)
  | orOpen (e : Fin 4)
  | ornOpen (e : Fin 4)
  | xorOpen (e : Fin 4)
  | xornOpen (e : Fin 4)
  | closeBracket (e : Fin 4)
  | andr (e : Fin 4) (o : EdgeOperand)
  | andf (e : Fin 4) (o : EdgeOperand)
  | orr (e : Fin 4) (o : EdgeOperand)
  | orf (e : Fin 4) (o : EdgeOperand)
  | ton (e : Fin 4) (o : TimerOperand)
  | tof (e : Fin 4) (o : TimerOperand)
  | tp (e : Fin 4) (o : TimerOperand)
  | tclr (e : Fin 4) (n : BitVec 20)
  | cup (e : Fin 4) (n : BitVec 20)
  | cdn (e : Fin 4) (n : BitVec 20)
  | cld (e : Fin 4) (n : BitVec 20)
  | cclr (e : Fin 4) (n : BitVec 20)
  | lw (e : Fin 4) (o : Operand) (v : Verdict)
  | lwi (e : Fin 4) (imm : Word)
  | sw (e : Fin 4) (o : Operand) (v : Verdict)
  | move (e : Fin 4) (src dst : Operand)
  | bmove (e : Fin 4) (src dst : Operand)
  | swap (e : Fin 4)
  | add (e : Fin 4)
  | sub (e : Fin 4)
  | mul (e : Fin 4)
  | div (e : Fin 4)
  | rem (e : Fin 4)
  | neg (e : Fin 4)
  | eq_ (e : Fin 4)
  | ne_ (e : Fin 4)
  | gt_ (e : Fin 4)
  | ge_ (e : Fin 4)
  | lt_ (e : Fin 4)
  | le_ (e : Fin 4)
  | jmp (e : Fin 4) (target : BitVec 20)
  | jt (e : Fin 4) (target : BitVec 20)
  | jf (e : Fin 4) (target : BitVec 20)
  | jov (e : Fin 4) (target : BitVec 20)
  | jovs (e : Fin 4) (target : BitVec 20)
  | call (e : Fin 4) (block : BitVec 20)
  | callt (e : Fin 4) (block : BitVec 20)
  | ret (e : Fin 4)
  | tot (e : Fin 4) (n : BitVec 20)
  | sev (e : Fin 4) (n : BitVec 20)
  | eventFiring
  | groupAgeExpiry (g : Fin 64)
  | taskComplete (n : Fin 512)
  | loopBaseTick
  | ucConversionComplete (ch : Fin 32) (c : Conversion)
  | ucShutdownComplete (ch : Fin 32)
  | ucStartupComplete (ch : Fin 32)
  | ucStoreLow (ch : Fin 32) (mv : Nat)
  | ucStoreRecovered (ch : Fin 32) (mv : Nat)
  | hartTransactionComplete (ch : Fin 32) (reply : Option (BitVec 16 × List Byte))
  | hartScanComplete (ch : Fin 32) (found : List HartFound)
  | hartBurstReceived (ch : Fin 32) (longHi : BitVec 8) (longLo : BitVec 32) (frame : List Byte)
  | diChangeAccepted (n : Fin 48) (level : Bool) (firstSample : Nat)
  | pulseEdgeCounted (n : Fin 16) (rising : Bool) (at_ : Nat)
  | countStagePowerLost (g : Fin 6)
  | wireBreak (n : Fin 48)
  | wireBreakCleared (n : Fin 48)
  | groupSupplySample (k : GroupKind) (g : Fin 6) (mv : Nat)
  | groupLevelClear (k : GroupKind) (g : Fin 6) (l : GroupLevel)
  | groupUvlo (g : Fin 4) (mv : Nat)
  | doOverload (n : Fin 32)
  | doThermalShutdown (n : Fin 32)
  | doRetryDue (n : Fin 32) (cooled : Bool)
  | doFaultCleared (n : Fin 32)
  | openLoad (n : Fin 32)
  | openLoadClear (n : Fin 32)
  | shortToSupply (n : Fin 32)
  | shortToSupplyClear (n : Fin 32)
  | reverse (n : Fin 32) (above : Bool)
  | groupOvercurrent (g : Fin 4) (ma : Nat)
  | groupOvercurrentCleared (g : Fin 4) (ma : Nat)
  | holdWindowExpiry
  | sideStreetRefresh
  | canFrameReceived (p : Fin 2) (f : CanFrame)
  | canWindowStart (p : Fin 2) (column : Fin 32)
  | canTxComplete (p : Fin 2) (r : CanTxResult) (at_ : Nat) (txDelay : Nat)
  | canQueuedFrameSend (p : Fin 2)
  | basicCycleStart (p : Fin 2)
  | canRecovered (p : Fin 2)
  | canShutdownComplete (p : Fin 2)
  | canBusIntegration (p : Fin 2)
  | fireInputDelivery
  | fireTimeoutCheck
  | fireActionComplete (f : Fin 16)
  | tripOutputFailed (o : Fin 24)
  | fireFrameRepeat (o : Fin 24)
  | fireArmExpiry
  | tripCutInput (asserted : Bool)
  | heartbeatGenerate
  | claimWatchdogExpiry
  | heartbeatReceived (path : HbPath) (h : Heartbeat)
  | heartbeatSilence
  | partnerClaimFall
  | tieWithdrawn
  | claimLineFault (sideB : Bool)
  | laneLost (lane : Fin 2)
  | cablePresentChange (present : Bool)
  | ledgerReceived (l : Ledger)
  | syncHoldTimeout
  | forwardedChange (c : Change) (boundary : BitVec 32)
  | discoveryTimeout
  | resyncDone
  | handBack
  | rehearseResult
  | integratorBoundary
  | totalsSideStreetCommit
  | pageRepairComplete (array : Fin 8) (bad : List Nat) (unlocated : Nat) (hard : List Nat)
  | bucketLeak (array : Fin 8)
  | scrubPassComplete (array : Fin 8)
  | recordRaised
  | recordWrite
  | panelFrameStart
  | panelPowerUpComplete
  | panelPowerDownComplete
  | panelSupplyFault (vcol vrow : BitVec 16)
  | panelSupplyRecovered (vcol vrow : BitVec 16)
  | plateWaveformComplete
  | plateTorn (vp vn : BitVec 16)
  | thermalSample (board hottest : Int) (thermistor : Option Int)
  | ringLinkDown (p : Fin 2)
  | ringLinkUp (p : Fin 2) (gigabit : Bool)
  | hsrFrameReceived (p : Fin 2) (f : HsrFrame)
  | hsrSupervision
  | ringTripFrameReceived (p : Fin 2) (f : TripFrame)
  | announceSend
  | announceReceived (address : BitVec 16) (sender : StationSender)
  | provisionalExpiry
  | duplicateClear
  | ptpSyncReceived (f : PtpSync) (m : PtpMeasured)
  | ptpSyncTimeout
  | moduleTimeStore
  | supplyValid (lp1 lp2 : Nat) (sideB : Option Bool)
  | supplyFeedLost (feed : Fin 2) (mv : Nat)
  | supplyFeedRestored (feed : Fin 2) (mv : Nat)
  | supplyLowHold (mv : Nat)
  | fullService (supplyMv storeMv : Nat) (calFailed : List (Fin 32)) (hardFaults : List (Fin 8 × Nat))
  | powerFailWarning (mv : Nat)
  | holdupExecuteDeadline
  | holdUpComplete (supplyMv : Nat)
  | logicSupplyLost
  | canRxError (p : Fin 2) (k : CanRxError)
  | partnerClaimRise
  | cycleStartToken (cycle : BitVec 32) (instant : Nat)
  | supFirmwareVerified
  | resyncSnapshotReceived (s : Snapshot)
  | reservedOpcode (e : Fin 4)
  | scrubRead (array : Fin 8) (addr : Nat) (v : Verdict) (hard : Bool)
  deriving DecidableEq, Repr, Inhabited

end Sys2Proof
end

