-- ==== Sys2Proof/Decode.lean ====
section
/-! DEFINITION. What words spell. No row of the opcode table gives bits (a command arrives as a packet or an event), so
`decodeTableWord` spells nothing. The logic engines fetch instruction words from a program bank: here is the decoder of those
words (R107, R114), total, and after it the encoder. -/

namespace Sys2Proof

/-- The command that `nbits` bits `w` of the opcode table spell: none, since no row gives bits. -/
def decodeTableWord (_nbits _w : Nat) : Option Instr := none

/-- The areas whose bits need an extension word (R107, R109). -/
def wideArea (a : Area) : Bool :=
  match a with
  | .D | .K | .L | .N => true
  | _ => false

/-- The code of an area (R108). -/
def Area.number : Area → Nat
  | .I => 0
  | .Q => 1
  | .M => 2
  | .D => 3
  | .E => 4
  | .T => 5
  | .C => 6
  | .K => 7
  | .S => 8
  | .Z => 9
  | .L => 10
  | .N => 11

/-- The area of a code; Ch to Fh are reserved (R108). -/
def areaOf (n : Nat) : Option Area :=
  match n with
  | 0 => some .I
  | 1 => some .Q
  | 2 => some .M
  | 3 => some .D
  | 4 => some .E
  | 5 => some .T
  | 6 => some .C
  | 7 => some .K
  | 8 => some .S
  | 9 => some .Z
  | 10 => some .L
  | 11 => some .N
  | _ => none

/-- OPCODE, AREA and OFFSET of an instruction word (R107). -/
def opcodeOf (w : Word) : Nat := bits w 31 24
def areaField (w : Word) : Option Area := areaOf (bits w 23 20)
def offsetOf (w : Word) : BitVec 20 := BitVec.ofNat 20 (bits w 19 0)

/-- The operand of a bit instruction with its extension word (R107). -/
def bitOperand (w x : Word) : Option Operand :=
  (areaField w).map fun a => ⟨a, offsetOf w, if wideArea a then BitVec.ofNat 5 (bits x 4 0) else 0⟩

/-- The operand of a word instruction (R107). -/
def wordOperand (w : Word) : Option Operand := (areaField w).map fun a => ⟨a, offsetOf w, 0⟩

/-- The operand of an edge instruction with its extension word (R107). -/
def edgeOperand (w x : Word) : Option EdgeOperand :=
  (areaField w).map fun a =>
    ⟨⟨a, offsetOf w, if wideArea a then BitVec.ofNat 5 (bits x 28 24) else 0⟩, BitVec.ofNat 20 (bits x 19 0)⟩

/-- The operand of TON, TOF and TP with its extension word (R107); the area must be T. -/
def timerOperand (w x : Word) : Option TimerOperand :=
  if areaField w = some .T then
    some ⟨offsetOf w, BitVec.ofNat 2 (bits x 31 30), bit x 29, bit x 28, BitVec.ofNat 16 (bits x 15 0)⟩
  else none

/-- The number that an instruction on area `a` names. -/
def numberOperand (a : Area) (w : Word) : Option (BitVec 20) := if areaField w = some a then some (offsetOf w) else none

/-- Source and destination of MOVE and BMOVE (R107). -/
def moveOperands (w x : Word) : Option (Operand × Operand) :=
  match areaField w, areaOf (bits x 23 20) with
  | some a, some b => some (⟨a, offsetOf w, 0⟩, ⟨b, BitVec.ofNat 20 (bits x 19 0), 0⟩)
  | _, _ => none

/-- An instruction word that takes an extension word (R107, R114). -/
def needsExtension (w : Word) : Bool :=
  let op := opcodeOf w
  (0x10 ≤ op && op ≤ 0x1A && ((areaField w).map wideArea).getD false) || (0x28 ≤ op && op ≤ 0x2B) || (0x30 ≤ op && op ≤ 0x32) ||
    op == 0x41 || op == 0x43 || op == 0x44

/-- The instruction that an opcode with a defined area code spells. Reserved fields, and the area and offset of an opcode without an operand, are not looked
at when it executes (DESIGN CHOICE, log 143). -/
def decodeOpcode (e : Fin 4) (w x : Word) : Option Instr :=
  match opcodeOf w with
  | 0x00 => some (.nop e)
  | 0x01 => some (.end_ e)
  | 0x10 => (bitOperand w x).map (.ld e)
  | 0x11 => (bitOperand w x).map (.ldn e)
  | 0x12 => (bitOperand w x).map (.and_ e)
  | 0x13 => (bitOperand w x).map (.andn e)
  | 0x14 => (bitOperand w x).map (.or_ e)
  | 0x15 => (bitOperand w x).map (.orn e)
  | 0x16 => (bitOperand w x).map (.xor_ e)
  | 0x17 => (bitOperand w x).map (.xorn e)
  | 0x18 => (bitOperand w x).map (.out e)
  | 0x19 => (bitOperand w x).map (.setb e)
  | 0x1A => (bitOperand w x).map (.clrb e)
  | 0x1B => some (.inv e)
  | 0x1C => some (.cbset e)
  | 0x1D => some (.cbclr e)
  | 0x20 => some (.andOpen e)
  | 0x21 => some (.andnOpen e)
  | 0x22 => some (.orOpen e)
  | 0x23 => some (.ornOpen e)
  | 0x24 => some (.xorOpen e)
  | 0x25 => some (.xornOpen e)
  | 0x26 => some (.closeBracket e)
  | 0x28 => (edgeOperand w x).map (.andr e)
  | 0x29 => (edgeOperand w x).map (.andf e)
  | 0x2A => (edgeOperand w x).map (.orr e)
  | 0x2B => (edgeOperand w x).map (.orf e)
  | 0x30 => (timerOperand w x).map (.ton e)
  | 0x31 => (timerOperand w x).map (.tof e)
  | 0x32 => (timerOperand w x).map (.tp e)
  | 0x33 => (numberOperand .T w).map (.tclr e)
  | 0x34 => (numberOperand .C w).map (.cup e)
  | 0x35 => (numberOperand .C w).map (.cdn e)
  | 0x36 => (numberOperand .C w).map (.cld e)
  | 0x37 => (numberOperand .C w).map (.cclr e)
  | 0x40 => (wordOperand w).map fun o => .lw e o .clean
  | 0x41 => some (.lwi e x)
  | 0x42 => (wordOperand w).map fun o => .sw e o .clean
  | 0x43 => (moveOperands w x).map fun p => .move e p.1 p.2
  | 0x44 => (moveOperands w x).map fun p => .bmove e p.1 p.2
  | 0x45 => some (.swap e)
  | 0x50 => some (.add e)
  | 0x51 => some (.sub e)
  | 0x52 => some (.mul e)
  | 0x53 => some (.div e)
  | 0x54 => some (.rem e)
  | 0x55 => some (.neg e)
  | 0x58 => some (.eq_ e)
  | 0x59 => some (.ne_ e)
  | 0x5A => some (.gt_ e)
  | 0x5B => some (.ge_ e)
  | 0x5C => some (.lt_ e)
  | 0x5D => some (.le_ e)
  | 0x60 => some (.jmp e (offsetOf w))
  | 0x61 => some (.jt e (offsetOf w))
  | 0x62 => some (.jf e (offsetOf w))
  | 0x63 => some (.jov e (offsetOf w))
  | 0x64 => some (.jovs e (offsetOf w))
  | 0x68 => some (.call e (offsetOf w))
  | 0x69 => some (.callt e (offsetOf w))
  | 0x6A => some (.ret e)
  | 0x70 => (numberOperand .Z w).map (.tot e)
  | 0x71 => some (.sev e (offsetOf w))
  | _ => none

/-- The instruction that engine `e` reads from the word `w` and the word after it, `x` (R107, R114): none for a reserved
opcode, a reserved area code in any instruction (R135), or an area that the opcode does not name. A word read or write is decoded with a
clean verdict. -/
def decodeEngine (e : Fin 4) (w x : Word) : Option Instr := if (areaField w).isSome then decodeOpcode e w x else none

/-- An instruction word (R107). -/
def insnWord (op area : Nat) (off : BitVec 20) : Word := BitVec.ofNat 32 (op * 2 ^ 24 + area * 2 ^ 20 + off.toNat)

/-- The words of a bit instruction (R107). -/
def bitWords (op : Nat) (o : Operand) : List Word :=
  insnWord op o.area.number o.offset :: if wideArea o.area then [BitVec.ofNat 32 o.bit.toNat] else []

/-- The words of an edge instruction (R107). -/
def edgeWords (op : Nat) (o : EdgeOperand) : List Word :=
  [insnWord op o.op.area.number o.op.offset, BitVec.ofNat 32 (o.op.bit.toNat * 2 ^ 24 + o.edge.toNat)]

/-- The words of TON, TOF and TP (R107). -/
def timerWords (op : Nat) (o : TimerOperand) : List Word :=
  [insnWord op Area.T.number o.timer,
    BitVec.ofNat 32 (o.res.toNat * 2 ^ 30 + b2n o.retain * 2 ^ 29 + b2n o.presetWa * 2 ^ 28 + o.preset.toNat)]

/-- The words of MOVE and BMOVE (R107). -/
def moveWords (op : Nat) (src dst : Operand) : List Word :=
  [insnWord op src.area.number src.offset, BitVec.ofNat 32 (dst.area.number * 2 ^ 20 + dst.offset.toNat)]

/-- The engine of an instruction and the words that spell it (R107, R114); none for a command that is no instruction. -/
def encodeEngine : Instr → Option (Fin 4 × List Word)
  | .nop e => some (e, [insnWord 0x00 0 0])
  | .end_ e => some (e, [insnWord 0x01 0 0])
  | .ld e o => some (e, bitWords 0x10 o)
  | .ldn e o => some (e, bitWords 0x11 o)
  | .and_ e o => some (e, bitWords 0x12 o)
  | .andn e o => some (e, bitWords 0x13 o)
  | .or_ e o => some (e, bitWords 0x14 o)
  | .orn e o => some (e, bitWords 0x15 o)
  | .xor_ e o => some (e, bitWords 0x16 o)
  | .xorn e o => some (e, bitWords 0x17 o)
  | .out e o => some (e, bitWords 0x18 o)
  | .setb e o => some (e, bitWords 0x19 o)
  | .clrb e o => some (e, bitWords 0x1A o)
  | .inv e => some (e, [insnWord 0x1B 0 0])
  | .cbset e => some (e, [insnWord 0x1C 0 0])
  | .cbclr e => some (e, [insnWord 0x1D 0 0])
  | .andOpen e => some (e, [insnWord 0x20 0 0])
  | .andnOpen e => some (e, [insnWord 0x21 0 0])
  | .orOpen e => some (e, [insnWord 0x22 0 0])
  | .ornOpen e => some (e, [insnWord 0x23 0 0])
  | .xorOpen e => some (e, [insnWord 0x24 0 0])
  | .xornOpen e => some (e, [insnWord 0x25 0 0])
  | .closeBracket e => some (e, [insnWord 0x26 0 0])
  | .andr e o => some (e, edgeWords 0x28 o)
  | .andf e o => some (e, edgeWords 0x29 o)
  | .orr e o => some (e, edgeWords 0x2A o)
  | .orf e o => some (e, edgeWords 0x2B o)
  | .ton e o => some (e, timerWords 0x30 o)
  | .tof e o => some (e, timerWords 0x31 o)
  | .tp e o => some (e, timerWords 0x32 o)
  | .tclr e n => some (e, [insnWord 0x33 Area.T.number n])
  | .cup e n => some (e, [insnWord 0x34 Area.C.number n])
  | .cdn e n => some (e, [insnWord 0x35 Area.C.number n])
  | .cld e n => some (e, [insnWord 0x36 Area.C.number n])
  | .cclr e n => some (e, [insnWord 0x37 Area.C.number n])
  | .lw e o _ => some (e, [insnWord 0x40 o.area.number o.offset])
  | .lwi e imm => some (e, [insnWord 0x41 0 0, imm])
  | .sw e o _ => some (e, [insnWord 0x42 o.area.number o.offset])
  | .move e src dst => some (e, moveWords 0x43 src dst)
  | .bmove e src dst => some (e, moveWords 0x44 src dst)
  | .swap e => some (e, [insnWord 0x45 0 0])
  | .add e => some (e, [insnWord 0x50 0 0])
  | .sub e => some (e, [insnWord 0x51 0 0])
  | .mul e => some (e, [insnWord 0x52 0 0])
  | .div e => some (e, [insnWord 0x53 0 0])
  | .rem e => some (e, [insnWord 0x54 0 0])
  | .neg e => some (e, [insnWord 0x55 0 0])
  | .eq_ e => some (e, [insnWord 0x58 0 0])
  | .ne_ e => some (e, [insnWord 0x59 0 0])
  | .gt_ e => some (e, [insnWord 0x5A 0 0])
  | .ge_ e => some (e, [insnWord 0x5B 0 0])
  | .lt_ e => some (e, [insnWord 0x5C 0 0])
  | .le_ e => some (e, [insnWord 0x5D 0 0])
  | .jmp e t => some (e, [insnWord 0x60 0 t])
  | .jt e t => some (e, [insnWord 0x61 0 t])
  | .jf e t => some (e, [insnWord 0x62 0 t])
  | .jov e t => some (e, [insnWord 0x63 0 t])
  | .jovs e t => some (e, [insnWord 0x64 0 t])
  | .call e b => some (e, [insnWord 0x68 0 b])
  | .callt e b => some (e, [insnWord 0x69 0 b])
  | .ret e => some (e, [insnWord 0x6A 0 0])
  | .tot e n => some (e, [insnWord 0x70 Area.Z.number n])
  | .sev e n => some (e, [insnWord 0x71 0 n])
  | _ => none

end Sys2Proof
end

