-- ==== Sys2Proof/Machine/Tab.lean ====
section
/-! DEFINITION. Tables: a sparse array from a number to a value, as a list of pairs in ONE canonical form (keys strictly
rising, no entry equal to the value an unlisted key reads as). Every numbered array of the module (channels, contexts,
objects, memory bytes) is one of these, so equal arrays are equal data. -/

namespace Sys2Proof

/-- A table of numbered entries. -/
abbrev Tab (α : Type) := List (Nat × α)

namespace Tab

variable {α : Type}

/-- The entry numbered `k`; `d` is what an unlisted number reads as. -/
def get (d : α) : Tab α → Nat → α
  | [], _ => d
  | (j, v) :: t, k => if j = k then v else get d t k

/-- Puts an entry that is not the default in its place. -/
def put : Tab α → Nat → α → Tab α
  | [], k, v => [(k, v)]
  | (j, w) :: t, k, v => if k < j then (k, v) :: (j, w) :: t else if j = k then (k, v) :: t else (j, w) :: put t k v

/-- Takes the entry numbered `k` out. -/
def del (t : Tab α) (k : Nat) : Tab α := t.filter fun p => p.1 != k

/-- Writes entry `k`. Writing the default removes the entry. -/
def set [DecidableEq α] (d : α) (t : Tab α) (k : Nat) (v : α) : Tab α :=
  if v = d then del t k else put t k v

/-- Every key of the table lies above `b`. -/
def above (b : Nat) (t : Tab α) : Prop := ∀ p ∈ t, b < p.1

/-- The canonical form: keys strictly rising and no entry equal to the default. -/
def wf [DecidableEq α] (d : α) : Tab α → Bool
  | [] => true
  | (j, v) :: t => decide (v ≠ d) && t.all (fun p => decide (j < p.1)) && wf d t

end Tab

end Sys2Proof
end

