-- ==== Sys2Proof/Machine/State.lean ====
section
/-! DEFINITION. The state of one module: everything the manual names, as plain data. `Mram` holds what MRAM keeps
through a loss of power; the other structures hold what a start-up clears. -/

namespace Sys2Proof.Machine

open Sys2Proof

/-- The ways a step can stop the model. No rule of the manual stops the module without an effect of its own, so the one
fault guards the model's own operand bound. -/
inductive Fault where
  /-- Raised by no meaning: every command of the table has an effect in every state. Safe. -/
  | none_
  deriving DecidableEq, Repr

/-- The ways a command can be refused by the model. -/
inductive Refusal where
  /-- A command whose meaning is not written yet, by its mnemonic. Raised by the dispatcher only. Safe. -/
  | notModelled (mnemonic : String)
  deriving DecidableEq, Repr

/-! ## Commands -/

/-- What a reply needs to know of its request (R40, R43): the port, the header fields copied back, the tagging and the
roles of the key slot. `gen` numbers the start of SUP under which it was accepted (R33, R48); a broadcast is never answered (R42). -/
structure Ctx where
  port : Port
  opcode : BitVec 16
  tag : BitVec 16
  seq : BitVec 32
  origin : BitVec 16
  keyslot : BitVec 8
  tagged : Bool
  cls : BitVec 8
  roles : BitVec 4
  gen : Nat := 0
  broadcast : Bool := false
  peer : BitVec 48 := 0
  deriving DecidableEq, Repr, Inhabited

/-- A reply owed or waiting to leave (R55, R58): its bytes after STATUS and how many of its packets have left. `upload` are
the index and number of the entries that a REC_UPLOAD has still to build (R364), `marks` the words of its next packet that it has been given with a mark
while others waited (R343); `readyAt` is when SUP had it ready, `order` its place among
all that SUP has made ready (R28, R148). -/
structure Reply where
  ctx : Ctx
  status : BitVec 16
  cycle : BitVec 32
  body : List Byte
  sent : Nat
  counts : Bool
  upload : Option (BitVec 32 × Nat) := none
  readyAt : Nat := 0
  order : Nat := 0
  marks : List Nat := []
  deriving DecidableEq, Repr, Inhabited

/-- A key slot (R44): MRAM. -/
structure KeySlot where
  installed : Bool := false
  roles : BitVec 4 := 0
  key : List Byte := []
  deriving DecidableEq, Repr, Inhabited

/-- The replay memory of one pair of ORIGIN and KEYSLOT (R47): H and which of the 64 numbers up to H were accepted. -/
structure Replay where
  h : BitVec 32 := 0
  seen : BitVec 64 := 0
  deriving DecidableEq, Repr, Inhabited

/-- The command window of one origin (R48, R31). -/
structure Window where
  origin : BitVec 16
  size : Nat
  used : Nat
  idleClose : Nat
  lastAt : Nat
  heldUntil : Option Nat
  deriving DecidableEq, Repr, Inhabited

/-- A multi-packet request being collected (R55). `flags` gathers the FLAGS of its packets (R41), `short` says that one of them promises
a serial it does not hold. -/
structure Partial where
  ctx : Ctx
  packets : Nat
  payload : List Byte
  firstAt : Nat
  flags : BitVec 8 := 0
  short : Bool := false
  deriving DecidableEq, Repr, Inhabited

/-- A word of the variable space by area and word offset. -/
structure VarWord where
  area : Area
  word : Nat
  deriving DecidableEq, Repr, Inhabited

/-- One word of a write that waits for its commit (R50): the word, the bits it replaces and its value. -/
structure LandWord where
  at_ : VarWord
  mask : Word
  value : Word
  deriving DecidableEq, Repr, Inhabited

/-- What a landing answers when it is done (R50, R97, R166). -/
inductive LandKind where
  | writeVars
  | silent
  | forceSet (forces : List Force)
  | forceRelease (words : List VarWord) (all : Bool)
  deriving DecidableEq, Repr, Inhabited

/-- A write, a force or a release that SQUARE has taken and that lands at the next commit (R50, R97), or with `due` at the one before that cycle boundary
(R305); one that the active has forwarded is not answered here. -/
structure Landing where
  ctx : Ctx
  kind : LandKind
  words : List LandWord
  due : Option (BitVec 32) := none
  forwarded : Bool := false
  deriving DecidableEq, Repr, Inhabited

/-- A subscription (R57): its references, what was last delivered of each, and the values of the cycle for which a notification is
due. -/
structure Subscription where
  ctx : Ctx
  words : List (Area × Bool × Nat)
  decimate : Nat
  leaseEnd : Nat
  counted : Nat
  delivered : List (Option Word)
  full : Bool
  due : Bool
  snap : List (Word × Bool)
  snapCycle : BitVec 32
  skipped : Nat
  deriving DecidableEq, Repr, Inhabited

/-- A notification packet that has left or waits (R57, R148); `order` is its place among all that SUP has made ready. -/
structure Notice where
  port : Port
  opcode : BitVec 16
  target : BitVec 16
  keyslot : BitVec 8
  tagged : Bool
  seq : BitVec 32
  cycle : BitVec 32
  priority : Nat
  order : Nat
  source : Nat
  payload : List Byte
  peer : BitVec 48 := 0
  deriving DecidableEq, Repr, Inhabited

/-- A read that waits for a page under repair (R343): the request, and the words of the array that it has been given with a mark. -/
structure Stalled where
  ctx : Ctx
  body : List Byte
  marks : List Nat
  deriving DecidableEq, Repr, Inhabited

/-- The acceptance counters of object 0040h (R61). -/
structure CmdCounters where
  busy : BitVec 24 := 0
  authFails : BitVec 32 := 0
  formatDrops : BitVec 16 := 0
  replays : BitVec 16 := 0
  deriving DecidableEq, Repr, Inhabited

/-- The state of SUP's command handling (chapter Command Packets). `replay` holds the pairs that have sent since SUP started;
for every other pair of a slot in `bumped`, H is the stored value plus 4,096 (R47). `gen` counts in-place restarts: what was accepted
before one is never answered (R48). `stalled` are the reads that wait for a page under repair (R343). `ready` numbers the replies and notifications in the order in which they became ready (R148). -/
structure Sup where
  gen : Nat := 0
  ready : Nat := 0
  replay : Tab Replay := []
  bumped : BitVec 8 := 0
  windows : List Window := []
  partials : List Partial := []
  replies : List Reply := []
  stalled : List Stalled := []
  counters : CmdCounters := {}
  subs : Tab (Option Subscription) := []
  objPending : List (Nat × Word) := []
  wire : Tab (Option Packet) := []
  fwBytes : Option Nat := none
  fwData : Tab Byte := []
  ramPoison : Tab Bool := []
  deriving DecidableEq, Repr, Inhabited

/-! ## Islands, domains, crossings -/

/-- STATE of an island (R20). -/
inductive IslandState where
  | off | starting | run | sleep | restarting | faulted
  deriving DecidableEq, Repr, Inhabited

/-- One island (R20, R33). `left` is when it last stopped (R295); `past` are the states it had up to a time, newest first, as far as a standby's freeze may ask for them (R81). -/
structure Island where
  state : IslandState := .off
  clksrc : Bool := false
  pll : Bool := true
  restarts : List Nat := []
  stalls : BitVec 8 := 0
  left : Option Nat := none
  past : List (Nat × IslandState) := []
  deriving DecidableEq, Repr, Inhabited

/-- STATE of a power domain (R24). -/
inductive DomainState where
  | off | on | transition | fault
  deriving DecidableEq, Repr, Inhabited

/-- One power domain (R24): its state and HOLD_ON. -/
structure Domain where
  state : DomainState := .off
  holdOn : Bool := false
  deriving DecidableEq, Repr, Inhabited

/-- SERVICE of GET_STATUS (R64), with the states in which SUP answers nothing: `off` is the module without a valid logic supply, and
`halted` the one whose hold-up is done (R407). The start-up up to Side-Street mode is one step of this model. -/
inductive Service where
  | off | sideStreet | full | outOfService | halted
  deriving DecidableEq, Repr, Inhabited

/-! ## Cycle and program -/

/-- Where a cycle stands (R80): started and not frozen yet, or in execute. Commit and apply are one step with what follows them. -/
inductive Phase where
  | idle | started | execute
  deriving DecidableEq, Repr, Inhabited

/-- A block of an image (R85, R106, R120): its number, engine, whether it is an event block and its event number, its
first word and its length. -/
structure Block where
  number : Nat
  engine : Fin 4
  event : Option Nat
  first : Nat
  length : Nat
  deriving DecidableEq, Repr, Inhabited

/-- An entry of the ownership table (R85, R323): words `first` to `first + count − 1` of an area belong to an engine.
For every area the offset counts words: four to a timer, two to a counter and to a total (R85, R323). -/
structure Owner where
  area : Area
  first : Nat
  count : Nat
  engine : Fin 4
  deriving DecidableEq, Repr, Inhabited

/-- A symbol of an image (R96, R100, R103, R302). -/
structure Symbol where
  hash : Word
  isBit : Bool
  area : Area
  offset : Nat
  count : Nat
  retained : Bool
  mirrored : Bool
  initial : List Word
  deriving DecidableEq, Repr, Inhabited

/-- What the loader reads from a program image (R76, R85, R96, R99, R120). The manual gives no layout of the container;
`Config.imageOf` stands for it. -/
structure ImageDesc where
  mBytes : Nat := 0
  dWords : Nat := 0
  blocks : List Block := []
  owners : List Owner := []
  symbols : List Symbol := []
  consts : List Word := []
  counters : List (Nat × Word × Word) := []
  mirroredTimers : List Nat := []
  deriving DecidableEq, Repr, Inhabited

/-- STATE of a program bank (object 0103h). -/
inductive BankState where
  | empty | loading | verified | running
  deriving DecidableEq, Repr, Inhabited

/-- A program bank (R99): MRAM keeps it beside its SRAM copy (R395). `inSnapshot` says that it goes to a partner that resynchronises (R102, R316). -/
structure Bank where
  state : BankState := .empty
  words : Nat := 0
  crc : Word := 0
  code : Tab Word := []
  poison : Tab Bool := []
  desc : ImageDesc := {}
  partnerVerified : Bool := false
  inSnapshot : Bool := false
  deriving DecidableEq, Repr, Inhabited

/-- The mode of the program (object 0100h). -/
inductive ProgState where
  | none_ | stop | run
  deriving DecidableEq, Repr, Inhabited

/-- One copy of the retained image (R103): the words of retained variables, the retentive timers and the counters of
one committed cycle, each word with its mark, with the output values of R209 and R231. A counter that is not listed has every field 0. -/
structure Retained where
  cycle : BitVec 32
  seq : Nat
  void : Bool
  words : List MirrorWord
  timers : List (Nat × List (Word × Bool))
  counters : List (Nat × (Word × Bool) × (Word × Bool))
  ucOut : List (Nat × Int)
  doOut : List (Nat × Bool)
  deriving DecidableEq, Repr, Inhabited

/-- A program switch that is pending (R430), to the bank that was staged. -/
structure Switch where
  cycle : BitVec 32
  bank : Bool
  releaseForces : Bool
  deriving DecidableEq, Repr, Inhabited

/-- What a first cycle is the first one after (R101, R110): a cold start, a warm start or STOP to RUN, a program switch. One cycle can be
the first after more than one of them. -/
structure First where
  cold : Bool := false
  warm : Bool := false
  switch : Bool := false
  deriving DecidableEq, Repr, Inhabited

/-- The cycle and the Town Square (chapter 03). `mem` is the 6 MiB array of R431, `poison` the bytes that hold the stored-poison pattern, `scratch`
the byte ranges that nothing has written since the array was last sealed, for the `seals`-th time (R352). The fields named shown are those of the last
committed cycle (RS). `commits` counts towards the store of the cycle number (R79); `announced` is the cycle of the last switch, which the ledgers go
on naming (R102, log 96); `boundaryNo` is the last 10 µs boundary that ANSEQ has met, `metered` what the channels gave at those since the latest
freeze (R322, R335); `runStop` is a mode that waits, with the cycle it is to start with (R95); `keptTimers` and `keptCounters` are the words of the
timers and counters at the last commit, `keptUc` and `keptDo` what its apply selected for the outputs (R103, R209, R231); `loadFor` is the PROGRAM_END that waits for its boundary (R305); `commitBad` are the words
that a commit which waits has read with a mark (R343). -/
structure Square where
  mem : Tab Byte := []
  poison : Tab Bool := []
  scratch : List (Nat × Nat) := []
  seals : Nat := 0
  frozenB : Bool := false
  committedB : Bool := false
  last : BitVec 32 := 0
  current : BitVec 32 := 1
  phase : Phase := .idle
  startAt : Nat := 0
  freezeAt : Nat := 0
  phaseAt : Nat := 0
  freezeUs : Nat := 0
  executeUs : Nat := 0
  commitUs : Nat := 0
  applyUs : Nat := 0
  lastNs : Nat := 0
  minNs : Nat := 0
  maxNs : Nat := 0
  fingerprint : Word := 0
  shownProg : ProgState := .none_
  shownBank : Bool := false
  shownForced : Nat := 0
  ownershipFaults : BitVec 16 := 0
  abandoned : BitVec 16 := 0
  overruns : BitVec 16 := 0
  landings : List Landing := []
  prog : ProgState := .none_
  runStop : Option (Bool × BitVec 32) := none
  switch : Option Switch := none
  first : First := {}
  nextFirst : First := {}
  newEdges : List Nat := []
  committedOnce : Bool := false
  load : Option Bool := none
  loadFor : Option Ctx := none
  totIncr : Tab Int := []
  boundaryNo : Nat := 0
  metered : List (Nat × List (Option (Nat × Int))) := []
  retainAt : Nat := 0
  finalDone : Bool := false
  forcesChanged : Bool := false
  frozenOnce : Bool := false
  commits : Nat := 0
  announced : Option (BitVec 32) := none
  keptTimers : List (Nat × List (Word × Bool)) := []
  keptCounters : List (Nat × (Word × Bool) × (Word × Bool)) := []
  keptUc : List (Nat × Int) := []
  keptDo : List (Nat × Bool) := []
  commitBad : List Nat := []
  deriving DecidableEq, Repr, Inhabited

/-! ## Logic engines -/

/-- The pending operation of a bracket (R112). -/
inductive NestOp where
  | load | and_ | andn | or_ | orn | xor_ | xorn
  deriving DecidableEq, Repr, Inhabited

/-- An entry of the nesting stack (R105, R112). -/
structure Nest where
  cb : Bool
  cbP : Bool
  op : NestOp
  deriving DecidableEq, Repr, Inhabited

/-- A logic engine (R105) with the place of its program: the block it runs, the cyclic blocks still to run in this
execute, and the event blocks waiting and being served (R145), by their event block number. `loadAt` is the clock of this execute at which a
load under way arrives, `bitAt` that at which a bit read of D, K, L or N arrives in CB (R115); `waitFrom` is when it began to wait for a page under
repair (R343), and `moved` what a MOVE or BMOVE that waits has done: the words moved, and the word read for the next one. -/
structure Engine where
  cb : Bool := false
  cbP : Bool := false
  chs : Bool := true
  wa : Word := 0
  waP : Bool := false
  wb : Word := 0
  wbP : Bool := false
  ovf : Bool := false
  ovs : Bool := false
  nest : List Nest := []
  calls : List (BitVec 18 × Nat) := []
  pc : BitVec 18 := 0
  running : Bool := false
  block : Nat := 0
  serving : List Nat := []
  cyclicLeft : List Nat := []
  eventLeft : List (Nat × List Nat) := []
  waiting : List Nat := []
  instructions : Word := 0
  clocks : Word := 0
  loadAt : Nat := 0
  bitAt : Nat := 0
  waitFrom : Option Nat := none
  moved : Option (Nat × Option (Word × Bool)) := none
  rsInstructions : Word := 0
  rsClocks : Word := 0
  poisonConsumed : BitVec 16 := 0
  divZero : BitVec 8 := 0
  programFaults : BitVec 8 := 0
  deriving DecidableEq, Repr, Inhabited

/-- A timer (R123, R125). `poisoned` marks its word 0, `presetP` word 1, `elapsedP` word 2, `startP` word 3 (R132, R345). `lapsed` is the
freeze of the execute in which an instruction made a TON's OUTPUT rise, or a TOF's or TP's fall by elapsing (R149). -/
structure Timer where
  running : Bool := false
  output : Bool := false
  kind : BitVec 2 := 0
  res : BitVec 2 := 0
  retain : Bool := false
  lastInput : Bool := false
  preset : BitVec 16 := 0
  elapsed : BitVec 32 := 0
  start : Int := 0
  startCycle : BitVec 32 := 0
  poisoned : Bool := false
  presetP : Bool := false
  elapsedP : Bool := false
  startP : Bool := false
  lapsed : Option Nat := none
  deriving DecidableEq, Repr, Inhabited

/-- A counter (R126, R127). -/
structure Counter where
  value : Word := 0
  upMem : Bool := false
  downMem : Bool := false
  saturated : Bool := false
  preset : BitVec 29 := 0
  poisoned : Bool := false
  presetP : Bool := false
  deriving DecidableEq, Repr, Inhabited

/-! ## Roundabout -/

/-- An event source (R138 to R144). The take's configuration is kept with the task (R149). -/
structure Source where
  fc : Word := 0
  sv : Word := 0
  co : Word := 0
  p : Bool := false
  active : Bool := false
  firstTime : Nat := 0
  blockPart : Option (Nat × Nat) := none
  takePrio : Nat := 0
  deriving DecidableEq, Repr, Inhabited

/-- A coalescing group (R142). -/
structure Group where
  count : Nat := 0
  ageFrom : Option Nat := none
  deliveries : Word := 0
  deriving DecidableEq, Repr, Inhabited

/-- A subscriber slot (R147, R148). -/
structure Slot where
  inUse : Bool := false
  origin : BitVec 16 := 0
  auth : Bool := false
  keyslot : BitVec 8 := 0
  port : Port := .svc
  leaseEnd : Nat := 0
  seq : BitVec 32 := 0
  dropped : BitVec 16 := 0
  queue : List Notice := []
  peer : BitVec 48 := 0
  deriving DecidableEq, Repr, Inhabited

/-- The Roundabout (chapter 05). `firings` are hardware firings on their way to ROUND (R140); `parked` the sources whose block part waits for
a running image to name its engine (R146). -/
structure Round where
  sources : Tab Source := []
  groups : Tab Group := []
  slots : Tab Slot := []
  firings : List (Nat × Nat) := []
  newBinding : Tab Bool := []
  blockMisses : Word := 0
  parked : List Nat := []
  deriving DecidableEq, Repr, Inhabited

/-! ## Loop engine -/

/-- The history of a section (R160, R164): x and y of the last three samples. -/
structure Hist where
  x1 : Int := 0
  x2 : Int := 0
  x3 : Int := 0
  y1 : Int := 0
  y2 : Int := 0
  y3 : Int := 0
  deriving DecidableEq, Repr, Inhabited

/-- A change of coefficients in the queue of a context (R172, R173): the sample at which it lands and who waits for it. `marks` are the words of a set,
by 8 × section + word, that LOOP_COMMIT has read with a mark (R345, R346). -/
structure LoopChange where
  set_ : Option (List (List Word))
  section_ : Nat
  coeff : Nat
  value : Word
  shift : Nat
  sample : BitVec 32
  reply : Option Ctx
  marks : List Nat := []
  deriving DecidableEq, Repr, Inhabited

/-- STATE of a loop context (R158). -/
inductive LoopState where
  | off | ramp | run | windDown
  deriving DecidableEq, Repr, Inhabited

/-- A loop context (R157, R158, R177). Coefficients live in MRAM (`Mram.coeffs`); `ran` says that its first sample has run, so that the engine
drives its sink (R179). -/
structure Loop where
  state : LoopState := .off
  enablePending : Bool := false
  satHi : Bool := false
  satLo : Bool := false
  compliance : Bool := false
  tripHeld : Bool := false
  pvBad : Bool := false
  dataBad : Bool := false
  deviation : Bool := false
  intFrozen : Bool := false
  mixed : Bool := false
  staged : List (List Word) := []
  queue : List LoopChange := []
  sample : BitVec 32 := 0
  pv : Int := 0
  sp : Int := 0
  out : Int := 0
  err : Int := 0
  hist : Tab Hist := []
  devCount : Nat := 0
  enable : Bool := false
  target : Int := 0
  sink : Int := 0
  sinkNew : Bool := false
  ran : Bool := false
  late : BitVec 16 := 0
  missed : BitVec 16 := 0
  deriving DecidableEq, Repr, Inhabited

/-- The loop engine (chapter 06): the base tick and the contexts; `applied` holds the bytes of the set-point half of L as last
applied, `appliedPoison` their marks; `ramPoison` the poisoned words of loop context RAM by context × 256 + sub-index; `mirror` the contexts of
the last ledger that wait for their next sample, as they stood at tick `mirrorTick`; `frozenTick` is the tick at the latest freeze and `frozen` the
mirrored contexts as they stood there (R178, R302); `tickAt` is the instant of the last tick; `waiting` are the samples, by tick and context, that wait
in their order for a page under repair (R343). -/
structure LoopEngine where
  tick : Nat := 0
  live : Bool := false
  applied : Tab Byte := []
  appliedPoison : Tab Bool := []
  ctxs : Tab Loop := []
  ramPoison : Tab Bool := []
  mirror : List LedgerContext := []
  mirrorTick : BitVec 32 := 0
  frozenTick : Nat := 0
  frozen : List LedgerContext := []
  tickAt : Option Nat := none
  waiting : List (Nat × Nat) := []
  deriving DecidableEq, Repr, Inhabited

/-! ## Universal channels -/

/-- STATE of a universal channel (R195). -/
inductive UcState where
  | off | starting | run | settling | shuttingDown | sideStreet | failed
  deriving DecidableEq, Repr, Inhabited

/-- A condition flag with the run lengths of R194: two conversions set it, four clear it. -/
structure Flag where
  set_ : Bool := false
  seen : Nat := 0
  clean : Nat := 0
  deriving DecidableEq, Repr, Inhabited

/-- A device of a channel's HART table (R203, R204). -/
structure HartDevice where
  present : Bool := false
  poll : BitVec 4 := 0
  longHi : BitVec 8 := 0
  longLo : BitVec 32 := 0
  burst : Option (List Byte × Nat) := none
  deriving DecidableEq, Repr, Inhabited

/-- A HART transaction running or queued (R201, R202). -/
structure HartJob where
  ctx : Ctx
  longHi : BitVec 8
  longLo : BitVec 32
  command : BitVec 8
  data : List Byte
  deriving DecidableEq, Repr, Inhabited

/-- A conversion with the flags it left (R81, R185, R194). -/
structure UcSeen where
  value : Int
  at_ : Nat
  stale : Bool
  opened : Flag
  overRange : Flag
  underRange : Flag
  compliance : Flag
  readback : Flag
  cj : Flag
  deriving DecidableEq, Repr, Inhabited

/-- A universal channel (chapter 07). `settleLeft` conversions are still to pass before the first settled one (R184); `clipped` is
the side on which the last commanded value was clipped (R186); with `await_` the DAC keeps its value until the next apply, or the next tick of
the loop that drives it (R281, R163); `again` says that a mode word accepted while the channel was starting or settling waits for its boundary
(R190); `heldRead` says of a hold whether a readback has differed since it began, none where one did before (R312); with `calibrated` the
self-calibration at entry to full service has passed, so that UNCAL clears at the next apply (R209, R210); `rampAt` is when the current of an incoming module began to rise from 0, `leaving` what an outgoing one held when its current began to
fall to 0 (R208); `silences` counts the consecutive transactions that a device has not answered, by its long address (R203); `past` are the conversions before the present one that a standby's freeze may take, latest first (R81). -/
structure Uc where
  state : UcState := .off
  settleLeft : Nat := 0
  value : Int := 0
  valueAt : Option Nat := none
  past : List UcSeen := []
  opened : Flag := {}
  overRange : Flag := {}
  underRange : Flag := {}
  overload : Bool := false
  compliance : Flag := {}
  readback : Flag := {}
  poison : Bool := false
  limitHi : Bool := false
  limitLo : Bool := false
  hartFault : Bool := false
  cj : Flag := {}
  uncal : Bool := true
  tripHeld : Bool := false
  stale : Bool := false
  selected : Int := 0
  driven : Int := 0
  drives : Bool := false
  held : Option Int := none
  heldTrip : Bool := false
  heldRead : Option Bool := none
  calibrated : Bool := false
  await_ : Bool := false
  clipped : Int := 0
  again : Bool := false
  rampAt : Option Nat := none
  leaving : Option (Int × Nat) := none
  headroom : Nat := 0
  store : Option Nat := none
  load : Option Nat := none
  cjTemp : Option Int := none
  deferred : List (Nat × Word) := []
  replyTo : List Ctx := []
  devices : Tab HartDevice := []
  jobs : List HartJob := []
  silences : List ((BitVec 8 × BitVec 32) × Nat) := []
  scanning : Bool := false
  transactions : BitVec 16 := 0
  noResponse : BitVec 16 := 0
  deriving DecidableEq, Repr, Inhabited

/-! ## Digital field -/

/-- What a digital input was up to a change at a time (R81). -/
structure DiSeen where
  until_ : Nat
  level : Bool
  wireBreak : Bool
  lastEdge : Nat
  edged : Bool
  edges : Nat
  deriving DecidableEq, Repr, Inhabited

/-- A digital input (chapter 08). `mark` is RAW_COUNT at the latest freeze (R321), `trail` the times of the edges counted after it;
`past` is what it was before each change that a standby's freeze may lie before, newest first (R81); a run of the filter counts from `filterFrom` on (R214, R232), one of the counting
path from `countFrom` on, whose level is `countLevel` once it has accepted one (R218, R219). `untold` says that FIRE has not been told of its state since a
commanded restart (R216, R402; log 140). -/
structure Di where
  level : Bool := false
  wireBreak : Bool := false
  lastEdge : Nat := 0
  edged : Bool := false
  edgeCount : Word := 0
  edges : Nat := 0
  raw : BitVec 32 := 0
  mark : BitVec 32 := 0
  trail : List Nat := []
  thresholdBase : BitVec 32 := 0
  offered : Word := 0x0100FFFF
  past : List DiSeen := []
  filterFrom : Nat := 0
  countLevel : Option Bool := none
  countFrom : Nat := 0
  untold : Bool := false
  deriving DecidableEq, Repr, Inhabited

/-- A digital output (chapter 08). `selected` is the state rows 6 to 10 of R225 last selected; with `await_` the driver keeps its
state until the next apply; `heldState` is what the hold latch holds. -/
structure Do where
  driven : Bool := false
  openLoad : Bool := false
  short : Bool := false
  overload : Bool := false
  thermal : Bool := false
  latchedOff : Bool := false
  held : Bool := false
  heldState : Bool := false
  poison : Bool := false
  reverse : Bool := false
  overloads : BitVec 16 := 0
  shorts : BitVec 16 := 0
  protectedOff : Bool := false
  retryAt : Nat := 0
  hot : Bool := false
  retries : Nat := 0
  retrying : Bool := false
  lastThermal : Bool := false
  onSince : Option Nat := none
  await_ : Bool := false
  recovered : Bool := false
  selected : Bool := false
  offered : Word := 0
  deriving DecidableEq, Repr, Inhabited

/-- The levels of a digital group up to a change at a time (R81). -/
structure GroupSeen where
  until_ : Nat
  sag : Bool
  low : Bool
  lost : Bool
  deriving DecidableEq, Repr, Inhabited

/-- A digital group (R227, R236); `past` as that of a digital input. -/
structure DGroup where
  lplus : Option Nat := none
  sag : Bool := false
  low : Bool := false
  lost : Bool := false
  below : Nat := 0
  belowLow : Nat := 0
  belowLost : Nat := 0
  overcurrent : Bool := false
  lostEvents : BitVec 16 := 0
  stageReset : Bool := false
  past : List GroupSeen := []
  deriving DecidableEq, Repr, Inhabited

/-! ## CAN -/

/-- STATE of a CAN port (R240). -/
inductive CanState where
  | disabled | errorActive | errorPassive | busOff | recovering | shuttingDown | monitoring | integrating
  deriving DecidableEq, Repr, Inhabited

/-- A stored receive element (R249) and whether it was stored after the last freeze. -/
structure CanElement where
  used : Bool := false
  frame : CanFrame := default
  lost : Bool := false
  match_ : Nat := 0
  fresh : Bool := false
  deriving DecidableEq, Repr, Inhabited

/-- Message RAM with its counters, as it stood before a frame was stored (R81, R252): the time of the store, whether it went to a FIFO, the element, what
its MATCH field says, and the frame. -/
structure CanSeen where
  until_ : Nat
  mailboxes : Tab CanElement
  fifo : Tab CanElement
  put0 : Word
  put1 : Word
  lost : Word
  lost0 : Word
  lost1 : Word
  ramPoison : Tab Bool
  inFifo : Bool
  element : Nat
  match_ : Nat
  frame : CanFrame
  deriving DecidableEq, Repr, Inhabited

/-- Whose frame a port is transmitting (R257, R259, R260, R267); `until_` is the end of the slot frame's window. -/
inductive TxJob where
  | ref (kind : Nat)
  | slot (slot : Nat) (arbitrating : Bool) (retriesLeft until_ : Nat)
  | station (station : Nat) (frame : Nat)
  | queued
  | emergency
  deriving DecidableEq, Repr, Inhabited

/-- A remote station (R253, R266, R268). `arrived` are the input frames that came in their windows since the reference, latest first, with their data and the instant of their end; `due` is the
cycle of the output set that is due, `sentOk` the frames of it transmitted without error, `missedEarly` sets counted as missed before
the freeze at which MISSES changes. -/
structure Station where
  state : BitVec 2 := 1
  stale : Bool := true
  misses : BitVec 8 := 0
  inFrames : Nat := 0
  outPoison : Bool := false
  arrived : List (Nat × List Byte × Nat) := []
  words : Tab Word := []
  sampledAt : Option Nat := none
  echo : BitVec 8 := 0
  word : BitVec 24 := 0
  due : Option (BitVec 32) := none
  sentOk : List Nat := []
  missedEarly : Nat := 0
  lastSent : Tab Word := []
  deriving DecidableEq, Repr, Inhabited

/-- A CAN port (chapter 09). `tIn` and `tOut` are the latest reference instants; `served` the columns whose windows have opened since;
`refWait` is a reference frame and `winWait` the windows' frames that wait for the bus, each with the end of its window; `ramPoison` the poisoned words of message RAM, `storing` received frames whose element stands on a page under repair (R343), `past` what message RAM was before the stores that a standby's freeze may lie before, newest first (R81); with `gap`
the module has taken over and not yet begun a cycle of its own (R271); `tecRose` says that TEC has risen since the port left bus monitoring
(R312), `txOk` that a frame has left since then; `building` is the window whose frame waits for a page under repair: its column, its start and the words delivered with a mark (R273, R343). -/
structure Can where
  state : CanState := .disabled
  enablePending : Bool := false
  disablePending : Bool := false
  tec : Nat := 0
  rec_ : Nat := 0
  txDelay : Nat := 0
  rxFrames : Word := 0
  rxStored : Word := 0
  rxFiltered : Word := 0
  lost : Word := 0
  txFrames : Word := 0
  txAbandoned : Word := 0
  confirmed : Word := 0
  missed : Word := 0
  refFailed : BitVec 16 := 0
  busOffs : BitVec 16 := 0
  lateFrames : Word := 0
  mailboxes : Tab CanElement := []
  fifo : Tab CanElement := []
  put0 : Word := 0
  put1 : Word := 0
  lost0 : Word := 0
  lost1 : Word := 0
  ramPoison : Tab Bool := []
  storing : List CanFrame := []
  past : List CanSeen := []
  stations : Tab Station := []
  queue : List CanFrame := []
  emergency : List CanFrame := []
  tx : Option (TxJob × CanFrame) := none
  refWait : Option Nat := none
  refAttempts : Nat := 0
  refFirstAt : Nat := 0
  winWait : List (TxJob × CanFrame × Nat) := []
  basic : Word := 0
  row : Nat := 0
  served : List Nat := []
  building : Option (Nat × Nat × List Nat) := none
  tIn : Option Nat := none
  tOut : Option Nat := none
  inFailed : Bool := false
  outFailed : Bool := false
  sent : Option CanFrame := none
  gap : Bool := false
  tecRose : Bool := false
  txOk : Bool := false
  deriving DecidableEq, Repr, Inhabited

/-! ## Fire Lane -/

/-- A message to FIRE (Class 0): what the field, a ring frame, a CAN frame or apply delivers (R274). One of a universal channel without a value tells
of a change of its conditions alone. -/
inductive FireMsg where
  | di (n : Nat) (level : Bool) (wireBreak supply stale : Bool)
  | uc (n : Nat) (value : Option Int) (bad : Bool)
  | ring (address : BitVec 16) (states : BitVec 256)
  | can (port : Nat) (xtd : Bool) (id : BitVec 29) (byte0 : Nat)
  | request (bits : BitVec 16) (poisoned : BitVec 16)
  deriving DecidableEq, Repr, Inhabited

/-- An input slot (R274, R291). -/
structure FireSlot where
  condition : Bool := false
  unassured : Bool := true
  reason : Nat := 3
  lastAt : Option Nat := none
  deriving DecidableEq, Repr, Inhabited

/-- A trip function (R276 to R280). -/
structure FireFn where
  tripped : Bool := false
  latched : Bool := false
  done : Bool := false
  resetPending : Bool := false
  resetByInput : Bool := false
  trips : BitVec 16 := 0
  tripAt : Nat := 0
  deriving DecidableEq, Repr, Inhabited

/-- An output slot (R278, R282): whether its frame has been sent since its change, when it changed, when its frame last left. -/
structure FireOut where
  complete : Bool := false
  failed : Bool := false
  since : Nat := 0
  sentAt : Nat := 0
  deriving DecidableEq, Repr, Inhabited

/-- An open arm (R289). -/
structure Arm where
  token : BitVec 16
  crc : Word
  origin : BitVec 16
  keyslot : BitVec 8
  at_ : Nat
  deriving DecidableEq, Repr, Inhabited

/-- FIRE (chapter 10). `before` is the set that stays in force until its boundary, while MRAM holds the confirmed one (R289). -/
structure Fire where
  slots : Tab FireSlot := []
  fns : Tab FireFn := []
  outs : Tab FireOut := []
  arm : Option Arm := none
  before : Option (Tab Word) := none
  cutOut : Bool := false
  cutIn : Bool := false
  badFrames : BitVec 32 := 0
  inbox : List FireMsg := []
  resetLevel : Tab Bool := []
  deriving DecidableEq, Repr, Inhabited

/-! ## Pair -/

/-- The pair states (R297). -/
inductive PairState where
  | solo | syncing | sync | active | alone | stale | faulted
  deriving DecidableEq, Repr, Inhabited

/-- A planned handover with its checks (R311, R312): HANDOVER_CYCLE, DWELL (none for a handover without REHEARSE) and HAND_BACK, whether this module
is the incoming one, whether the handover has taken place, and the items passed and failed. -/
structure Rehearsal where
  handover : BitVec 32
  dwell : Option Nat
  handBack : Bool
  incoming : Bool
  took : Bool
  passed : List Nat
  failed : List Nat
  deriving DecidableEq, Repr, Inhabited

/-- The pair and the interlock (chapter 11). `incoming` is the takeover cycle m while this module is taking over, `planned` that it does so
by R311; `handover` the cycle at which it gives the claim away; `received` the cycles of the last ledgers that arrived, `ledgers` those that
wait for a freeze, oldest first; `tokens` the cycle-start tokens that no freeze has used; `switchSeen` the cycle up to which the standby knows
of every switch (R102). `base` is the cycle whose committed values of the pair the module holds: of the last ledger applied (`lastLedger`), of the
snapshot, or its own last commit as active; `judgeFrom` the first cycle whose ledger it waits for (R304). `adopted` says that its totals are
those of the pair (R315), `syncTokens` are the freezes of the active since a resynchronisation began, newest first (R332); `cableEnd` is the end of the cable on X6 (R292); `claimOff` the time since which the partner's heartbeats and its line
disagree, `lineTold` that this is recorded (R295); `reconciled` says that the totals of the takeover under way are (R329); `acks` are the boundaries of the forwarded changes acknowledged (R305), `forceCycle` the last
cycle at whose commit a force that was forwarded has landed (R98); `hbSeenAt` is when the partner's last heartbeat came, `ownLineBad` that the module has not seen its own claim (R295, R312). -/
structure Pair where
  state : PairState := .solo
  cable : Bool := false
  lane0 : Bool := false
  lane1 : Bool := false
  claimOwn : Bool := false
  claimPartner : Bool := false
  cwHbOk : Bool := false
  ringHbOk : Bool := false
  partner : BitVec 10 := 0
  divergences : Word := 0
  lastDivergent : BitVec 32 := 0
  lastLedger : BitVec 32 := 0
  takeovers : BitVec 16 := 0
  ledgersLate : BitVec 16 := 0
  divRun : BitVec 16 := 0
  divFirst : BitVec 32 := 0
  matched : Nat := 0
  rehearseFaults : BitVec 16 := 0
  drivers : Bool := false
  ownRoseAt : Nat := 0
  ownFellAt : Option Nat := none
  partnerEdgeAt : Nat := 0
  cableFellAt : Option Nat := none
  releaseAt : Option Nat := none
  hbGenAt : Nat := 0
  hbCwAt : Option Nat := none
  hbRingAt : Option Nat := none
  partnerHb : Option Heartbeat := none
  cwSilent : Bool := false
  ringSilent : Bool := false
  sideConflict : Bool := false
  epochConflict : Bool := false
  claimTold : Bool := false
  incoming : Option (BitVec 32) := none
  planned : Bool := false
  received : List (BitVec 32) := []
  ledgers : List Ledger := []
  ledgerSent : Option Ledger := none
  ledgerTx : List Byte := []
  base : BitVec 32 := 0
  judgeFrom : Option (BitVec 32) := none
  adopted : Bool := false
  syncTokens : List (BitVec 32 × Nat) := []
  cableEnd : Option Bool := none
  claimOff : Option Nat := none
  lineTold : Bool := false
  cwTold : Bool := false
  ringTold : Bool := false
  acks : List (BitVec 32) := []
  forceCycle : Option (BitVec 32) := none
  ownLineBad : Bool := false
  hbSeenAt : Option Nat := none
  fingerprints : List (BitVec 32 × Word) := []
  applied : Nat := 0
  lastLedgerAt : Nat := 0
  snapshot : Bool := false
  tokens : List (BitVec 32 × Nat) := []
  switchSeen : BitVec 32 := 0
  forwarded : List (Change × BitVec 32) := []
  waitingChanges : List (Change × BitVec 32) := []
  reconciled : Bool := false
  rehearsal : Option Rehearsal := none
  holdUntil : Option Nat := none
  discoveryEnd : Nat := 0
  resyncAsked : Bool := false
  switchAnnounced : Bool := false
  handover : Option (BitVec 32) := none
  hbSeq : BitVec 32 := 0
  hbSent : Option Heartbeat := none
  deriving DecidableEq, Repr, Inhabited

/-! ## Totals -/

/-- One MRAM copy of a total (R326): `mark` and `accMark` are the marks of a pulse total and of an integrator. -/
structure TotalCopy where
  value : Int := 0
  mark : BitVec 32 := 0
  residue : Int := 0
  epoch : BitVec 32 := 0
  lastClosed : Int := 0
  uncertain : Bool := false
  saturated : Bool := false
  gapS : BitVec 16 := 0
  uncLo : Int := 0
  uncHi : Int := 0
  refused : Int := 0
  seq : Nat := 0
  accMark : Int := 0
  valid : Bool := false
  deriving DecidableEq, Repr, Inhabited

/-- A close or a change of configuration that waits for its commit (R334, R335): who asked, whether it closes whatever the
configuration does, the words by sub-index, and the cycle at whose commit both modules of a pair take it (R305). -/
structure Close where
  ctx : Option Ctx
  close : Bool
  config : List (Nat × Word)
  boundary : Option (BitVec 32)
  deriving DecidableEq, Repr, Inhabited

/-- A conserved total (chapter 12) as SQUARE and ANSEQ hold it. The accumulator counts in units of 2^−RAW_SHIFT total units, the
residue in units of 2^−64 (R325). `trail` are the terms added since the latest freeze, by their boundary; `frozenAcc` is the
accumulator at that freeze, `accMark` and `mark` the raw marks from which the next increment counts; `marks` the marks of the last four
freezes; `ledger…` what the last applied ledger says, with the module's own accumulator at its freeze; `seq` numbers the commits;
`close` are the closes and configurations that wait for their commit, in their order, `closedAt` a close that a standby has landed after the last ledger
it applied. -/
structure Total where
  value : Int := 0
  epoch : BitVec 32 := 0
  lastClosed : Int := 0
  uncertain : Bool := false
  saturated : Bool := false
  gap : Bool := false
  gapNs : Nat := 0
  gapS : BitVec 16 := 0
  uncLo : Int := 0
  uncHi : Int := 0
  refused : Int := 0
  acc : Int := 0
  accMark : Int := 0
  residue : Int := 0
  mark : BitVec 32 := 0
  frozenAcc : Int := 0
  trail : List (Nat × Int) := []
  seq : Nat := 0
  ledgerAcc : Int := 0
  marks : List (BitVec 32 × BitVec 32 × Int) := []
  offset : BitVec 32 := 0
  settled : Bool := false
  candidate : BitVec 32 := 0
  candidateRun : Nat := 0
  ledgerValue : Int := 0
  ledgerMark : BitVec 64 := 0
  ledgerCycle : BitVec 32 := 0
  shadowIncr : List (BitVec 32 × Int) := []
  closedAt : Option (BitVec 32) := none
  close : List Close := []
  deriving DecidableEq, Repr, Inhabited

/-! ## Memory integrity -/

/-- What stands at a byte address of MRAM (R346, R347). The manual gives no map of MRAM; `Config.mramItem` stands for it. `copy` tells
the two copies of an item apart. -/
inductive MramItem where
  | other
  | object (index : BitVec 16) (copy : Bool)
  | key (slot : Fin 8) (copy : Bool)
  | fire (copy : Bool)
  | total (t : Fin 64) (copy : Bool)
  | retained (copy : Bool)
  | bank (b : Bool)
  | slotTable (copy : Bool)
  | record (slot : BitVec 16) (word : Fin 8)
  deriving DecidableEq, Repr, Inhabited

/-- A page locked for repair (R343). `written` are the runs of its bytes, as first and number, and `items` the items of MRAM in it, that writes which
met the lock replace: they land on the repaired page, so no repair undoes them. -/
structure PageLock where
  array : Nat
  page : Nat
  written : List (Nat × Nat) := []
  items : List MramItem := []
  deriving DecidableEq, Repr, Inhabited

/-- An error in a stored byte of a page of a protected array that no access has found yet (R339, R340): byte 0 to 511 is a data byte, 512 to 527 a
check byte. `multi` says that its byte code cannot correct it, `hard` that the byte fails the check after it is written back (R348); at instant
`rested` a repair has left it so, and no access of that instant meets it. -/
structure Upset where
  array : Nat
  page : Nat
  byte : Nat
  multi : Bool
  hard : Bool
  rested : Option Nat := none
  deriving DecidableEq, Repr, Inhabited

/-- A protected array (R342, R349, R353). The scrub pass under way began at `passFrom` and has read every stored byte before place `scrubbed`
(R349); `commanded` says that SCRUB_NOW asked for it (R350). -/
structure Arr where
  bucket : Nat := 0
  leakFrom : Nat := 0
  corrected : Word := 0
  poisoned : Word := 0
  repaired : Word := 0
  unrepairable : Word := 0
  scrubFrom : Nat := 0
  passFrom : Nat := 0
  scrubbed : Nat := 0
  commanded : Bool := false
  sealed_ : Bool := false
  deriving DecidableEq, Repr, Inhabited

/-! ## Recorder -/

/-- A record (R354) without its CRC, which is computed from the other fields. `poison` are its words that read poisoned (R346), and `slot` is
the slot of the record region that holds it (R355). -/
structure Record where
  timestamp : Nat
  source : BitVec 16
  code : BitVec 16
  value : Word
  cycle : BitVec 32
  repeats : BitVec 16
  sideStreet : Bool
  unsynced : Bool
  noMerge : Bool
  severity : BitVec 2
  deltaUs : BitVec 32
  poison : List Nat := []
  slot : Nat := 0
  deriving DecidableEq, Repr, Inhabited

/-- A record on its way to KEEP, or waiting in its queue, with what is done when it is written: a note's reply (R362),
a close's reply with the closed value and new epoch (R334). It reached KEEP at `arrived` (R356). -/
structure Raised where
  rec_ : Record
  stamped : Bool
  noteFor : Option Ctx
  closeFor : Option (Ctx × Int × BitVec 32)
  arrived : Nat := 0
  deriving DecidableEq, Repr, Inhabited

/-- The journal entry of a merge (R361): the index and the merged record, and the value that MERGED is to take. -/
structure Journal where
  index : BitVec 32
  merged : Record
  count : Word
  deriving DecidableEq, Repr, Inhabited

/-! ## Messages of the crossings -/

/-- What a message of a crossing carries (R26, R145, R356). -/
inductive Cargo where
  | other
  | blockPart (source : Nat)
  | record (q : Raised)
  deriving DecidableEq, Repr, Inhabited

/-- A message waiting at a sender or queued in a crossing (R25, R28); `held` says that it has been held for lack of credits (R29), `order`
numbers it in the order of queueing. -/
structure Message where
  cls : Nat
  slots : Nat
  since : Nat
  held : Bool := false
  order : Nat := 0
  cargo : Cargo
  deriving DecidableEq, Repr, Inhabited

/-- One crossing (R25): the messages waiting at the sender, those queued, and the credits on the return path. The sender holds the
rest of the depth. -/
structure Crossing where
  waiting : List Message := []
  queued : List Message := []
  returning : Nat := 0
  deriving DecidableEq, Repr, Inhabited

/-- The recorder's counters of one severity (R360): MRAM. -/
structure SevCount where
  written : Word := 0
  merged : Word := 0
  lost : Word := 0
  overwritten : Word := 0
  waiting : Nat := 0
  deriving DecidableEq, Repr, Inhabited

/-! ## Panel and plate -/

/-- STATE of the panel (R373). -/
inductive PanelState where
  | off | poweringUp | on | poweringDown | supplyFault
  deriving DecidableEq, Repr, Inhabited

/-- The mimic panel (R366 to R373): `since` is when its power-up or the last part of its power-down began, `scanned` says that a frame has been
scanned since, `above` are the levels of the last row of the frame before (R369), and `darkNext` that level 0 follows this frame (R372). -/
structure Panel where
  state : PanelState := .off
  onPending : Bool := false
  corrupt : Bool := false
  band : Nat := 0
  latchedBand : Nat := 0
  shownCrc : Word := 0
  crcFound : Word := 0
  lastShow : Word := 0
  vcol : Option (BitVec 16) := none
  vrow : Option (BitVec 16) := none
  wantOn : Bool := false
  shown : Tab Byte := []
  hidden : Tab Byte := []
  swapDue : Bool := false
  swapFor : List Ctx := []
  dark : Bool := true
  inverted : Bool := false
  framesDown : Nat := 0
  since : Nat := 0
  scanned : Bool := false
  darkNext : Bool := false
  above : List Nat := []
  frameAt : Option Nat := none
  deriving DecidableEq, Repr, Inhabited

/-- Where a plate update stands (R376): the step under way. -/
inductive PlateStep where
  | idle | invalidDark | data | dataOpposite | dataTarget | invalidLight
  deriving DecidableEq, Repr, Inhabited

/-- The trip plate (R374 to R377): `stepAt` is when the waveform under way began, and `invalidDark` says that the plate shows INVALID. -/
structure Plate where
  step : PlateStep := .idle
  refresh : Bool := false
  pending : Bool := false
  band : Nat := 0
  latchedBand : Nat := 0
  updates : Word := 0
  vp : Option (BitVec 16) := none
  vn : Option (BitVec 16) := none
  target : BitVec 47 := 0
  segments : BitVec 47 := 0
  reply : Option Ctx := none
  invalidDark : Bool := false
  stepAt : Nat := 0
  deriving DecidableEq, Repr, Inhabited

/-! ## Ring, address and time -/

/-- A ring port (R391). `queue` are the frames that wait to be sent, in their order; `onLink` the frame sent last, whose end is at `busyUntil`
(R384). -/
structure RingPort where
  queue : List HsrFrame := []
  onLink : Option HsrFrame := none
  busyUntil : Nat := 0
  link : Bool := false
  gigabit : Bool := false
  degraded : Bool := false
  nodes : List (BitVec 48) := []
  rxFrames : Word := 0
  duplicates : Word := 0
  badStation : BitVec 32 := 0
  deriving DecidableEq, Repr, Inhabited

/-- STATE of module time (R390). -/
inductive TimeState where
  | freeRun | acquiring | locked | holdover
  deriving DecidableEq, Repr, Inhabited

/-- The ring side of the module (chapter 16). `seen` are the frames of which a copy has come, with the time; `hsrSeq` is the number that the HSR tag
of the next sent frame bears. `supervisionAt` and `announceAt` are the instants of the last frame of their kind. `announced` says that a
grandmaster's Announce has come, `ptpReq` counts the Delay_Req messages, `ratePpb` is the frequency correction of module time and `rateAcc` the part
of a nanosecond, in 10⁻⁹ ns, that it has gained (R389, R390). `enumTag` is the last ENUMERATE frame that each port has received, with the number in its
HSR tag (R386); `stationSeen` are the station frames taken, by KIND, SERIAL and SEQ, with the time (R380, R383). -/
structure Ring where
  ports : Tab RingPort := []
  seen : List (BitVec 48 × BitVec 16 × Nat) := []
  hsrSeq : BitVec 16 := 0
  provisional : Option Nat := none
  duplicateAt : Option Nat := none
  annSeq : BitVec 32 := 0
  tripSeq : BitVec 32 := 0
  hbSeq : BitVec 32 := 0
  supervisions : Nat := 0
  supervisionAt : Option Nat := none
  enumFwd : Option Packet := none
  enumTag : Tab (List Byte × BitVec 16) := []
  stationSeen : List (Nat × BitVec 64 × BitVec 32 × Nat) := []
  time : TimeState := .freeRun
  ptpPort : Bool := false
  offsetNs : Int := 0
  pathDelay : Int := 0
  inLimit : Nat := 0
  lastSync : Option Nat := none
  stepped : Bool := false
  announceAt : Option Nat := none
  announced : Bool := false
  ptpReq : BitVec 16 := 0
  ratePpb : Int := 0
  rateAcc : Nat := 0
  deriving DecidableEq, Repr, Inhabited

/-! ## Power -/

/-- Supply, start-up and power failure (chapters 17 and 18): `charging` and `converter` are the store's charger and the hold-up converter (R422), and
`store` the store voltage last measured for full service, with its instant, and `okFrom` the time since which every row has told a supply that full service
may begin with (R394, log 156). -/
structure Power where
  lp1Mv : Nat := 0
  lp2Mv : Nat := 0
  lp1Ok : Bool := false
  lp2Ok : Bool := false
  board : Int := 0
  hottest : Int := 0
  warnSet : Bool := false
  critSet : Bool := false
  validAt : Nat := 0
  lowHoldDone : Bool := false
  charging : Bool := false
  converter : Bool := false
  store : Option (Nat × Nat) := none
  okFrom : Option Nat := none
  supOk : Bool := false
  startFrom : Nat := 0
  warning : Option Nat := none
  vbus : Bool := false
  refLost : Bool := false
  bandTemp : Option Int := none
  restart : Option Bool := none
  sampledAt : Option Nat := none
  refreshedAt : Option Nat := none
  totalsAt : Option Nat := none
  deriving DecidableEq, Repr, Inhabited

/-! ## MRAM -/

/-- What MRAM keeps. `obj` holds every RW object word of the configuration that has been written, by index × 256 + sub;
an unlisted word is at its "when new" value. `started` says that SUP has started before (R47). `bankVoid` marks a bank whose MRAM copy has failed, `fireVoid` a copy
of the Fire Lane configuration whose CRC-32C fails (R288), `voidCopies` the other copies that fail and are not rewritten yet, `seqs` the sequence number of each item that is held in two copies, by object index, and
by 10000h + n for key slot n: a write gives it to both (R347, log 59). `objRestart` are written fields that take effect at the next restart (R318) or
power-up (R409): key, field mask, value. `torn` says that the record in the slot of NEWEST
fails its CRC, and `journal` is the journal entry of a merge (R361). -/
structure Mram where
  serial : BitVec 64 := 0
  variant : BitVec 8 := 0
  mac : BitVec 48 := 0
  addressed : Bool := false
  address : BitVec 10 := 0
  candidateValid : Bool := false
  candidate : BitVec 10 := 0
  keys : Tab KeySlot := []
  hStored : Tab (BitVec 32) := []
  obj : Tab Word := []
  objRestart : List (Nat × Word × Word) := []
  canEnable : Tab Bool := []
  coeffs : Tab Word := []
  banks : Tab Bank := []
  runBank : Bool := false
  runStop : Bool := false
  forces : List Force := []
  retained : Tab (Option Retained) := []
  cycle : BitVec 32 := 1
  fresh : Bool := true
  started : Bool := false
  fire : Tab Word := []
  bankVoid : Tab Bool := []
  fireVoid : Tab Bool := []
  voidCopies : List MramItem := []
  seqs : Tab Nat := []
  sideB : Bool := false
  epoch : BitVec 32 := 0
  rehearsalAt : Nat := 0
  totals : Tab TotalCopy := []
  remap : Tab (List Nat) := []
  records : List (BitVec 32 × Record) := []
  newest : BitVec 32 := 0
  torn : Bool := false
  journal : Option Journal := none
  latest : Tab (BitVec 32) := []
  sev : Tab SevCount := []
  shown : BitVec 47 := 0
  plateTorn : Bool := false
  time : Nat := 0
  lastStart : BitVec 2 := 0
  holdupComplete : Bool := true
  startMs : BitVec 16 := 0
  holdupMs : BitVec 16 := 0
  warnings : BitVec 16 := 0
  peak : Int := 0
  fwActivated : Option (List Byte) := none
  fwRunning : Option (List Byte) := none
  deriving DecidableEq, Repr, Inhabited

/-- The whole module. `now` is module time in ns (R389); `pending` is the queue of commands; `freeCount` numbers the
free values drawn and is the model's own. -/
structure State where
  pending : List Instr := []
  now : Nat := 0
  freeCount : Nat := 0
  service : Service := .off
  mram : Mram := {}
  sup : Sup := {}
  islands : Tab Island := []
  faultyInterlock : Bool := false
  domains : Tab Domain := []
  crossings : Tab Crossing := []
  nextSend : Nat := 0
  rounds : Word := 0
  mismatches : BitVec 16 := 0
  windowMismatches : BitVec 16 := 0
  auditAt : Nat := 0
  square : Square := {}
  engines : Tab Engine := []
  timers : Tab Timer := []
  counters : Tab Counter := []
  round : Round := {}
  loop : LoopEngine := {}
  ucs : Tab Uc := []
  dis : Tab Di := []
  dos : Tab Do := []
  diGroups : Tab DGroup := []
  doGroups : Tab DGroup := []
  cans : Tab Can := []
  fire : Fire := {}
  pair : Pair := {}
  totals : Tab Total := []
  locks : List PageLock := []
  upsets : List Upset := []
  arrays : Tab Arr := []
  raised : List Raised := []
  recQueue : List Raised := []
  mramChecked : Bool := false
  panel : Panel := {}
  plate : Plate := {}
  ring : Ring := {}
  power : Power := {}
  deriving DecidableEq, Repr

/-- The module new from the factory, its logic side waiting for supply valid (R393): every field at the value of the
"After cold start" column, MRAM fields at their "when new" values. -/
def State.reset : State := {}

/-- The outcome of a command. -/
abbrev Out := Host.Outcome State Fault Refusal

end Sys2Proof.Machine
end

