-- ==== Sys2Proof/Config.lean ====
section
/-! DEFINITION. What the manual leaves open: free values, as constants without a body. Nothing can be proved of the value of any
of them. Each is named in the assumption log. -/

namespace Sys2Proof.Config

open Sys2Proof.Machine

/-- What the loader reads from the words of a program image (R76, R85, R96, R120). The manual does not give the layout of
the container, so the description is free. -/
opaque imageOf : List Word → ImageDesc

/-- Whether a firmware image passes Ed25519 verification (R338). The manual does not give the public key. -/
opaque signatureValid : List Byte → Bool

/-- FW_MINOR of the firmware image that runs (R60, "Per image"); `none` is the image fitted when new. -/
opaque fwMinor : Option (List Byte) → BitVec 8

/-- FW_BUILD of the firmware image that runs (R60, "Per image"). -/
opaque fwBuild : Option (List Byte) → BitVec 16

/-- Whether a function of the synchronised partner is tripped, latched or reset-pending at a time (R289): no command carries it. -/
opaque partnerTripped : Nat → Bool

/-- The n-th ARM_TOKEN (R289): a 16-bit value that FIRE chooses anew at each arm. -/
opaque armToken : Nat → BitVec 16

/-- What a domain draws at a time, in mW, where that lies within the table's maximum (R24: undefined after cold start, measured afterwards; R421). -/
opaque powerMw : Nat → Nat → BitVec 16

/-- A 16-bit live reading at a time that no command carries or nothing has measured yet ("undefined" in the After cold start
column): what is read, the number of its channel, group or supply, the time. -/
opaque liveReading : Nat → Nat → Nat → BitVec 16

/-- CJ_TEMP of a channel that has measured none yet (R187, undefined). -/
opaque undefinedCj : Nat → BitVec 32

/-- What the conversion and the store charger draw at a time, in mW (R421): in no domain's share, but in LOGIC_MW. -/
opaque lossMw : Nat → BitVec 16

/-- The word that the panel's row driver applies at the first row after the drivers are enabled, by the instant of that frame (R415): no row time before
it has sent one. -/
opaque rowLatch : Nat → BitVec 64

/-- Which feed stands at 4.5 V or above where the ORed supply is valid and no row says which (R392, R406): LP1, LP2 or both. -/
opaque feedsValid : Nat → Fin 3

/-- Whether a result that falls between two whole numbers is rounded up (R183, R192, R193, R205): no rule says it. The two numbers name the
quotient, or the sought value and the whole number below it. -/
opaque roundsUp : Int → Int → Bool

/-- The flag code of a CHANNEL_FAULT record whose cause is a failed self-calibration: the record table gives none (R194). -/
opaque calFaultFlag : BitVec 8

/-- LEVEL of output n: whether its terminal stands above 10 V at a time; no event of the table carries it (R235). -/
opaque terminalHigh : Nat → Nat → Bool

/-- CURRENT_MA of output n as measured at a time: no event of the table carries it (R235). -/
opaque outputCurrent : Nat → Nat → BitVec 12

/-- GROUP_CURRENT_MA of DO group g as measured at a time: no event of the table carries it while it stands (R236). -/
opaque groupCurrent : Nat → Nat → BitVec 16

/-- The clocks from the issue of a word read to its arrival: 6 typical, and what traffic makes of it (R115). -/
opaque readLatency : Nat → Nat

/-- The clocks that the stores of an instruction add while their crossing lacks credits (R29, R115); 0 where it has them. -/
opaque storeWait : Nat → Nat

/-- The byte that stands at an address of an array that nothing has written since it was sealed, and whether it holds the stored-poison pattern
(R351, R352): by the number of the seal. -/
opaque unwritten : Nat → Nat → Byte
opaque unwrittenPoison : Nat → Nat → Bool

/-- The words of an array that hold the stored-poison pattern right after its seal, where the byte code showed an uncorrectable pattern (R351): array and
instant. The array is the one of the seal; supervisor RAM counts bytes. -/
opaque sealedPoison : Nat → Nat → Tab Bool

/-- The error that arises in a stored byte of a protected array at an instant of module time, if one does (R338 to R341). -/
opaque upset : Nat → Option Upset

/-- Whether SUP reads a byte of its own RAM at an instant of module time (R346). The manual gives no map of it. -/
opaque supReads : Nat → Nat → Bool

/-- Whether the end of the cable that is plugged into X6 is end B (R292): no event of the table carries it but SUPPLY_VALID. -/
opaque cableEndB : Nat → Bool

/-- What a loss of the logic supply cuts short (R361, R408): of the record that KEEP writes (0), of the retained copy that it writes (1), and of the
copy of total t (2 + t); 0 where nothing is cut, and for a merge how far it has come. -/
opaque storeCut : Nat → Nat → Nat

/-- The length of a phase in µs, measured at each cycle (R80). -/
opaque phaseUs : Nat → BitVec 16

/-- REC after a reception without error when it stood above 127: ISO 11898-1 asks for a value from 119 to 127 (R244); this is the
excess over 119. -/
opaque recReset : Nat → Fin 9

/-- SEQ of a SUB_DELTA packet, which no rule gives (R40, R57). -/
opaque deltaSeq : Nat → BitVec 32

/-- Whether the standby verifies the image of a load (R102): no command carries its acknowledgement. -/
opaque partnerVerifies : Nat → Bool

/-- What stands at a byte address of MRAM (R346, R347). -/
opaque mramItem : Nat → MramItem

/-- VALUE of the n-th record of a code whose record table gives none (R32, R33, R35, R19, R34). -/
opaque unstatedValue : Nat → Nat → Word

/-- START_CYCLE of a timer that resumes running at the first freeze of a warm start (R124, R125): its START is the freeze of no cycle.
Its number and the instant of that freeze. -/
opaque resumedStartCycle : Nat → Nat → BitVec 32

/-- PathId of the HSR tag that a ring port puts on a frame (R380): the manual leaves the tag to IEC 62439-3. -/
opaque pathId : Nat → BitVec 4

/-- The sequence number in the HSR tag of a forwarded ENUMERATE frame (R386), by its SEQ: the command does not carry the tag. -/
opaque enumSeq : Nat → BitVec 16

/-- The time for which a Sync or a Delay_Req stayed in the module, in 2⁻¹⁶ ns (R389): by the source and the sequenceId of the PTP message. -/
opaque residence : Nat → Nat → BitVec 32

/-- The frequency correction of module time after the n-th free value, in 10⁻⁹, counted from −200 ppm (R390): the manual does not give the servo. -/
opaque slewPpb : Nat → Fin 400001

/-- FAIL_INDEX of a WRITE_OBJECT that is refused before any of its words is judged (R429): a function of ORIGIN and SEQ. -/
opaque failIndex : Nat → Nat → BitVec 16

end Sys2Proof.Config
end

