-- ==== Sys2Proof/Machine/Crypto.lean ====
section
/-! DEFINITION. The check functions the spec names: CRC-32C (R82, R99, R288, R354, R370: initial value FFFF_FFFFh, final
inversion) and HMAC-SHA-256 (R43, FIPS 198-1 and FIPS 180-4). -/

namespace Sys2Proof

/-- One bit of the CRC-32C register. -/
def crcBit (r : Nat) : Nat := if r % 2 = 1 then Nat.xor (r / 2) 0x82F63B78 else r / 2

/-- One byte into the CRC-32C register. -/
def crcByte (r : Nat) (b : Byte) : Nat :=
  crcBit (crcBit (crcBit (crcBit (crcBit (crcBit (crcBit (crcBit (Nat.xor r b.toNat))))))))

/-- CRC-32C of a list of bytes. -/
def crc32c (l : List Byte) : Word := BitVec.ofNat 32 (Nat.xor (l.foldl crcByte 0xFFFFFFFF) 0xFFFFFFFF)

/-- The bytes of words, each most significant byte first. -/
def wordBytes (l : List Word) : List Byte := l.flatMap fun w => toBe 4 w.toNat

/-- CRC-32C of words, each most significant byte first. -/
def crcWords (l : List Word) : Word := crc32c (wordBytes l)

namespace Sha

/-- The first 64 primes, from which FIPS 180-4 takes its constants. -/
def primes : List Nat :=
  [2, 3, 5, 7, 11, 13, 17, 19, 23, 29, 31, 37, 41, 43, 47, 53, 59, 61, 67, 71, 73, 79, 83, 89, 97, 101, 103, 107, 109, 113, 127, 131] ++
  [137, 139, 149, 151, 157, 163, 167, 173, 179, 181, 191, 193, 197, 199, 211, 223, 227, 229, 233, 239, 241, 251, 257, 263, 269, 271] ++
  [277, 281, 283, 293, 307, 311]

/-- The integer part of the `d`-th root of `m`, its bits found from bit `n - 1` down; `x` is what the bits above give. -/
def root (d m : Nat) : Nat → Nat → Nat
  | 0, x => x
  | n + 1, x => root d m n (if (x + 2 ^ n) ^ d ≤ m then x + 2 ^ n else x)

/-- The first 32 bits after the binary point of the `d`-th root of a prime (4.2.2, 5.3.3). -/
def fraction (d p : Nat) : Nat := root d (p * 2 ^ (32 * d)) 40 0 % 2 ^ 32

/-- Rotation of a 32-bit number to the right. -/
def turn (x n : Nat) : Nat := (x * 2 ^ 32 + x) / 2 ^ n % 2 ^ 32

/-- The exclusive-OR of three numbers, and of three rotations of one (4.1.2). -/
def xor3 (a b c : Nat) : Nat := Nat.xor a (Nat.xor b c)
def spin (i j k x : Nat) : Nat := xor3 (turn x i) (turn x j) (turn x k)

/-- The work on one block: the last four values of a and of e, newest first, and the 16 words of the schedule that come next. -/
structure Work where
  as_ : List Nat
  es : List Nat
  next : List Nat

/-- One round (6.2.2) under a round constant: new values of a and e; the schedule moves on by the word that stands 16 places later. -/
def Work.round (v : Work) (k : Nat) : Work :=
  let a := fun i => v.as_.getD i 0
  let e := fun i => v.es.getD i 0
  let w := fun i => v.next.getD i 0
  let choice := Nat.xor (e 2) (Nat.land (e 0) (Nat.xor (e 1) (e 2)))
  let majority := Nat.lor (Nat.land (a 0) (Nat.lor (a 1) (a 2))) (Nat.land (a 1) (a 2))
  let t := e 3 + spin 6 11 25 (e 0) + choice + k + w 0
  let later := w 0 + xor3 (turn (w 1) 7) (turn (w 1) 18) (w 1 / 8) + w 9 + xor3 (turn (w 14) 17) (turn (w 14) 19) (w 14 / 1024)
  { as_ := (t + spin 2 13 22 (a 0) + majority) % 2 ^ 32 :: v.as_.take 3
    es := (t + a 3) % 2 ^ 32 :: v.es.take 3
    next := v.next.drop 1 ++ [later % 2 ^ 32] }

/-- The hash value after one more block of 64 bytes. -/
def absorb (h : List Nat) (b : List Byte) : List Nat :=
  let v : Work := { as_ := h.take 4, es := h.drop 4, next := (List.range 16).map fun i => be32 b (4 * i) }
  let v := (primes.map (fraction 3)).foldl Work.round v
  (h.zip (v.as_ ++ v.es)).map fun x => (x.1 + x.2) % 2 ^ 32

/-- The message with its padding (5.1.1): a 1, zeros up to 8 bytes short of a whole block, the length in bits. -/
def padded (m : List Byte) : List Byte :=
  m ++ 0x80 :: List.replicate (63 - (m.length + 8) % 64) 0 ++ toBe 8 (8 * m.length)

end Sha

/-- SHA-256 (FIPS 180-4). -/
def sha256 (m : List Byte) : List Byte :=
  let p := Sha.padded m
  let h := (List.range (p.length / 64)).foldl (fun h i => Sha.absorb h ((p.drop (64 * i)).take 64)) ((Sha.primes.take 8).map (Sha.fraction 2))
  h.flatMap (toBe 4)

/-- HMAC-SHA-256 (FIPS 198-1) under a key of at most 64 bytes. -/
def hmac (key : List Byte) (m : List Byte) : List Byte :=
  let k := key ++ List.replicate (64 - key.length) 0
  sha256 (k.map (fun b => b ^^^ 0x5c) ++ sha256 (k.map (fun b => b ^^^ 0x36) ++ m))

end Sys2Proof
end

