-- ==== Sys2Proof/Machine/Objects.lean ====
section
/-! DEFINITION. The object dictionary (R59): for every object word its fields with their access, the range each writable
field may take, its "when new" value, the role a write needs and the time a write takes effect. Every range and default is the one
of the object's own table in its chapter. -/

namespace Sys2Proof.Machine

open Sys2Proof

/-- The role a write needs (R59). -/
inductive WRole where
  | engineer | maintain
  deriving DecidableEq, Repr

/-- When a write takes effect (R59, R318, R337, R353, R365, R391, R409, R425). -/
inductive Timing where
  | boundary | atOnce | commit | restart
  deriving DecidableEq, Repr

/-- A field of an object word: its bits, whether it is RESERVED, whether it is writable, and the values a write may
give it. -/
structure Field where
  hi : Nat
  lo : Nat
  reserved : Bool
  writable : Bool
  ok : Nat → Bool

/-- A field that is RO or RS. -/
def ro (hi lo : Nat) : Field := ⟨hi, lo, false, false, fun _ => true⟩

/-- A RESERVED field (R14). -/
def rsv (hi lo : Nat) : Field := ⟨hi, lo, true, false, fun _ => true⟩

/-- A RW or WO field that takes every value. -/
def rw (hi lo : Nat) : Field := ⟨hi, lo, false, true, fun _ => true⟩

/-- A RW field with a range. -/
def rwIn (hi lo a b : Nat) : Field := ⟨hi, lo, false, true, fun v => a ≤ v && v ≤ b⟩

/-- A RW field with a stated set of values. -/
def rwOk (hi lo : Nat) (f : Nat → Bool) : Field := ⟨hi, lo, false, true, f⟩

/-- An object word. `whole` is a rule that ties fields of the one word together. -/
structure WordSpec where
  fields : List Field
  dflt : Word := 0
  role : WRole := .engineer
  timing : Timing := .boundary
  restartMask : Word := 0
  whole : Word → Bool := fun _ => true

/-- A word with no writable field. -/
def roWord : WordSpec := { fields := [ro 31 0] }

/-- The key of an object word in the MRAM table. -/
def okey (index sub : Nat) : Nat := index * 256 + sub

/-- Sources that never fire (R137). -/
def reservedSource (s : Nat) : Bool := (404 ≤ s && s ≤ 407) || (412 ≤ s && s ≤ 415)

/-- SUBCONFIG as R188 lets it stand for the mode: fields in their range, bits of no field clear. -/
def ucSubOk (w : Word) : Bool :=
  match bits w 31 24 with
  | 3 | 4 => bits w 15 1 == 0
  | 5 => bits w 15 4 == 0 && 1 ≤ bits w 3 0 && bits w 3 0 ≤ 6
  | 6 | 7 | 8 => bits w 15 5 == 0 && bits w 3 0 ≤ 2
  | 0x0A => bits w 15 6 == 0 && bits w 3 0 ≤ 7
  | 0x0E => bits w 15 13 == 0 && (bits w 7 0 == 2 || (bits w 7 0 == 8 && bits w 11 8 ≤ 2) || bits w 7 0 == 9)
  | _ => bits w 15 0 == 0

/-- The highest RATE that a mode takes (R184): 2h with HART in use, 6h in voltage and current modes, 4h else. -/
def ucTopRate (w : Word) : Nat :=
  match bits w 31 24 with
  | 5 | 0x0D => 2
  | 3 | 4 => if bit w 0 then 2 else 6
  | 1 | 2 | 0x0B | 0x0C => 6
  | 0x0E => if bits w 7 0 == 2 then 6 else 4
  | _ => 4

/-- Object 0400h + n (R187). -/
def specUc (sub : Nat) : Option WordSpec :=
  match sub with
  | 0 => some { fields := [rwIn 31 24 0 14, rwIn 23 20 0 6, rsv 19 16, rw 15 0], dflt := 0x00200000,
                whole := fun w => ucSubOk w && bits w 23 20 ≤ ucTopRate w }
  | 1 => some { fields := [rw 31 0], dflt := 0x7FFFFFFF }
  | 2 => some { fields := [rw 31 0], dflt := 0x80000000 }
  | 3 => some { fields := [rw 31 31, rw 30 30, rsv 29 24, rw 23 0] }
  | 4 => some { fields := [rwIn 31 30 0 2, rsv 29 0] }
  | 5 => some { fields := [rw 31 0] }
  | 6 => some { fields := [rw 31 0] }
  | 7 => some { fields := [rwIn 31 0 0 100000] }
  | 8 => some { fields := [rwIn 31 29 0 5, rw 28 28, rwIn 27 23 5 20, rw 22 22, rsv 21 0], dflt := 0x52800000 }
  | 9 | 10 | 11 | 12 | 13 => some roWord
  | _ => if 16 ≤ sub && sub ≤ 27 then some roWord else none

/-- Object 0300h + n (R177). -/
def specLoop (sub : Nat) : Option WordSpec :=
  match sub with
  | 0 => some { fields := [rwIn 31 30 0 2, rwIn 29 28 0 1, rwIn 27 26 0 2, rw 25 25, rw 24 24, rw 23 19, rwIn 18 16 0 2,
      rw 15 8, rsv 7 0] }
  | 1 => some { fields := [rwOk 31 16 (fun v => v < 32 || 32768 ≤ v), rwIn 15 0 0 32767] }
  | 2 => some { fields := [rwIn 31 16 1 65535, rw 15 0], dflt := 0x00010000, whole := fun w => bits w 15 0 < bits w 31 16 }
  | 3 => some { fields := [rwIn 31 28 0 8, rwOk 27 24 (fun v => v ≤ 7 || v == 15), rw 23 23, rwIn 22 21 0 2, rw 20 20,
      rw 19 19, rsv 18 5, rw 4 0], dflt := 0x0F080000 }
  | 4 | 6 => some { fields := [rw 31 0], dflt := 0x80000000 }
  | 5 | 7 => some { fields := [rw 31 0], dflt := 0x7FFFFFFF }
  | 8 | 9 | 10 | 11 => some { fields := [rw 31 0] }
  | 12 => some { fields := [rwIn 31 16 1 65535, rsv 15 10, rw 9 5, rw 4 0], dflt := 0x00010000 }
  | 13 | 15 => some { fields := [rw 31 0], dflt := 1 }
  | 14 | 16 => some { fields := [rw 31 0] }
  | 193 | 194 | 195 | 196 | 197 | 192 => some roWord
  | _ =>
    if 32 ≤ sub && sub < 160 then (if sub % 8 ≤ 5 then some roWord else none)
    else if 160 ≤ sub && sub < 192 then some roWord
    else none

/-- Object 0420h + n (R232, R236). -/
def specDi (n sub : Nat) : Option WordSpec :=
  match sub with
  | 0 => some { fields := [rw 31 31, rw 30 30, rw 29 29, rsv 28 26, rwIn 25 16 1 1000, rwOk 15 14 (fun v => n < 16 || v == 0),
      rwIn 13 7 1 100, rsv 6 0], dflt := 0x00140100 }
  | 1 => some { fields := [rsv 31 24, rwOk 23 0 (fun v => n < 16 || v == 0)] }
  | 2 | 3 | 4 | 5 | 6 | 7 => some roWord
  | 32 | 33 => if n % 8 = 0 then some roWord else none
  | _ => none

/-- Object 0460h + n (R234, R236). -/
def specDo (n sub : Nat) : Option WordSpec :=
  match sub with
  | 0 => some { fields := [rw 31 31, rw 30 30, rw 29 29, rw 28 28, rwIn 27 26 0 2, rw 25 25, ro 24 24, rsv 23 0] }
  | 1 | 2 => some roWord
  | 32 | 33 => if n % 8 = 0 then some roWord else none
  | 34 => if n % 8 = 0 then some { fields := [rsv 31 1, rw 0 0] } else none
  | _ => none

/-- Object 0500h + p (R240). -/
def specCan (sub : Nat) : Option WordSpec :=
  match sub with
  | 0 => some { fields := [ro 31 31, rw 30 30, rw 29 29, rwIn 28 27 0 2, rwIn 26 25 0 2, rw 24 24, rw 23 23, rwIn 22 20 0 6,
      rsv 19 11, rw 10 0], dflt := 0x50800000 }
  | 1 => some { fields := [rwIn 31 24 1 255, rsv 23 23, rwIn 22 16 1 127, rsv 15 15, rw 14 8, rw 7 0], dflt := 0x7E1F1F00 }
  | 2 => some { fields := [rsv 31 29, rw 28 24, rsv 23 20, rw 19 16, rsv 15 12, rw 11 8, rw 7 0], dflt := 0x1C090900 }
  | 3 => some { fields := [rw 31 31, rsv 30 23, rw 22 16, rsv 15 0], dflt := 0x801E0000 }
  | 15 => some { fields := [rwIn 31 0 100 1000000], dflt := 10000 }
  | _ => if 4 ≤ sub && sub ≤ 14 then some roWord else none

/-- The lengths a station frame may have (R261). -/
def stationBytes (fdf : Bool) (n : Nat) : Bool :=
  n == 4 || n == 8 || (fdf && (n == 12 || n == 16 || n == 20 || n == 24 || n == 32 || n == 48 || n == 64))

/-- Objects 0510h to 0577h (R251, R254, R256, R261). -/
def specCanTables (index sub : Nat) : Option WordSpec :=
  if 0x510 ≤ index && index ≤ 0x517 then
    match sub % 4 with
    | 0 => some { fields := [rw 31 30, rsv 29 29, rw 28 0] }
    | 1 => some { fields := [rwIn 31 30 0 2, rsv 29 29, rw 28 0] }
    | 2 => some { fields := [rw 31 31, rw 30 28, rwIn 27 26 0 2, rsv 25 0] }
    | _ => none
  else if 0x520 ≤ index && index ≤ 0x52F then
    match sub % 4 with
    | 0 => some { fields := [rw 31 31, rw 30 30, rsv 29 29, rw 28 0], whole := fun w => bit w 30 || bits w 28 0 ≤ 0x7FF }
    | 1 => some { fields := [rw 31 31, rw 30 28, rsv 27 0] }
    | _ => none
  else if 0x530 ≤ index && index ≤ 0x531 then
    if sub < 32 then some { fields := [rw 31 16, rw 15 15, rw 14 0] } else none
  else if 0x540 ≤ index && index ≤ 0x54F then
    some { fields := [rw 31 30, rwIn 29 28 0 2, rw 27 24, rsv 23 14, rw 13 9, rw 8 0],
           whole := fun w => bits w 31 30 == 2 || bits w 27 24 == 0 }
  else if 0x560 ≤ index && index ≤ 0x561 then
    if sub < 128 then
      match sub % 4 with
      | 0 => some { fields := [rw 31 31, rw 30 30, rw 29 29, rw 28 28, rsv 27 16, rw 15 8, rw 7 0], dflt := 0x60001010,
                    whole := fun w => stationBytes (bit w 30) (bits w 15 8) &&
                      (bits w 7 0 == 0 || stationBytes (bit w 30) (bits w 7 0)) }
      | 1 | 2 => some { fields := [rsv 31 29, rw 28 0] }
      | _ => none
    else none
  else if 0x570 ≤ index && index ≤ 0x577 then
    if sub % 2 = 0 then some { fields := [rw 31 31, rw 30 30, rw 29 29, rw 28 0] }
    else some { fields := [rsv 31 8, rwOk 7 0 (fun n => n ≤ 8 || n == 12 || n == 16 || n == 20 || n == 24 || n == 32 ||
      n == 48 || n == 64)] }
  else none

/-- Objects 0880h to 0882h (R291). -/
def specFireStaged (index sub : Nat) : Option WordSpec :=
  if index = 0x880 then
    if sub < 128 then
      match sub % 4 with
      | 0 => some { fields := [rwIn 31 28 0 7, rw 27 0], role := .maintain }
      | 1 | 2 => some { fields := [rw 31 0], role := .maintain }
      | _ => none
    else none
  else if index = 0x881 then
    if sub < 64 then
      match sub % 4 with
      | 0 => some { fields := [rw 31 31, rwIn 30 29 0 2, rw 28 27, rsv 26 24, rwIn 23 20 0 8, rsv 19 16,
              rwOk 15 8 (fun v => v < 32 || v == 255), rsv 7 0],
                    role := .maintain, dflt := 0x0000FF00 }
      | 1 => some { fields := [rw 31 0], role := .maintain }
      | 2 => some { fields := [rsv 31 24, rw 23 0], role := .maintain }
      | _ => none
    else none
  else if sub < 48 then
    if sub % 2 = 0 then some { fields := [rwIn 31 28 0 4, rw 27 0], role := .maintain }
    else some { fields := [rw 31 0], role := .maintain }
  else none

/-- Object 0700h + t (R337). -/
def specTotal (sub : Nat) : Option WordSpec :=
  match sub with
  | 0 => some { fields := [rw 31 30, rwIn 29 28 0 2, rw 27 22, rsv 21 16, rw 15 8, rw 7 0], role := .maintain, timing := .commit,
                whole := fun w => (2 ≤ bits w 31 30 || bits w 27 22 == 0) && (bits w 31 30 == 3 || bits w 7 0 == 0) }
  | 1 => some { fields := [rw 31 0], role := .maintain, timing := .commit, dflt := 1 }
  | 2 => some { fields := [rw 31 0], role := .maintain, timing := .commit }
  | _ => if sub ≤ 15 then some roWord else none

/-- The panel and plate objects (chapter 15). -/
def specPanel (index sub : Nat) : Option WordSpec :=
  if index = 0xB00 then
    match sub with
    | 0 => some { fields := [rw 31 31, rw 30 30, rwIn 29 28 0 2, rw 27 27, rsv 26 24, rwIn 23 16 100 200, rwIn 15 8 1 128,
        rsv 7 7, rwIn 6 0 1 64], dflt := 0x00648040 }
    | 1 => some { fields := [rw 31 26, rwIn 25 21 1 20, rsv 20 0], dflt := 0x81400000 }
    | 2 => some { fields := [rw 31 0] }
    | 3 => some { fields := [rw 31 16, rw 15 0], dflt := 0x000000FA }
    | 4 => some { fields := [rw 31 16, rsv 15 0], dflt := 0x01F40000 }
    | _ => none
  else if index = 0xB01 then (if sub ≤ 3 then some roWord else none)
  else if index = 0xB08 then
    match sub with
    | 0 => some { fields := [rw 31 31, rsv 30 16, rw 15 0] }
    | 1 => some { fields := [rw 31 16, rw 15 0], dflt := 0xFF9C0064 }
    | 2 => some { fields := [rw 31 16, rw 15 0], dflt := 0x012C01F4 }
    | _ => none
  else if index = 0xB09 then (if sub ≤ 3 then some roWord else none)
  else if 0xB10 ≤ index && index ≤ 0xB13 then
    if sub < 64 then some { fields := [rw 31 24, rw 23 16, rw 15 8, rw 7 0] } else none
  else if 0xB20 ≤ index && index ≤ 0xB24 then
    if sub < 8 then some { fields := [rwIn 31 30 0 2, rsv 29 4, rw 3 0] } else none
  else none

/-- The range of a signed field of 16 bits. -/
def s16In (a b : Int) (v : Nat) : Bool := a ≤ (BitVec.ofNat 16 v).toInt && (BitVec.ofNat 16 v).toInt ≤ b

/-- The words of the other objects. -/
def specOther (index sub : Nat) : Option WordSpec :=
  if index = 0x000 then (if sub ≤ 4 then some roWord else none)
  else if index = 0x020 then (if sub ≤ 19 then some roWord else none)
  else if index = 0x030 then (if sub ≤ 1 then some roWord else none)
  else if index = 0x031 then
    if sub = 0 then some { fields := [rsv 31 16, rwIn 15 0 1 100], dflt := 10, role := .maintain } else none
  else if index = 0x040 then
    if sub = 0 then some { fields := [rsv 31 16, rwIn 15 8 1 60, rwIn 7 0 4 64], dflt := 0x0A10, role := .maintain }
    else if sub ≤ 3 then some roWord else none
  else if index = 0x100 then (if sub ≤ 5 then some roWord else none)
  else if index = 0x101 then
    match sub with
    | 0 => some { fields := [rwOk 31 0 (fun v => v == 0 || (50 ≤ v && v ≤ 1000000))] }
    | 1 => some { fields := [rwOk 31 0 (fun v => v == 0 || (100 ≤ v && v ≤ 1000000))], dflt := 10000 }
    | 2 => some { fields := [rsv 31 1, rw 0 0] }
    | _ => none
  else if index = 0x102 then
    match sub with
    | 0 => some { fields := [rwIn 31 0 100 60000], dflt := 1000 }
    | 1 => some roWord
    | _ => none
  else if index = 0x103 then (if sub ≤ 3 then some roWord else none)
  else if index = 0x104 then (if sub = 0 then some roWord else none)
  else if index = 0x110 then (if sub ≤ 15 then some roWord else none)
  else if index = 0x200 || index = 0x201 then
    let s := (index - 0x200) * 256 + sub
    some { fields := [rwOk 31 31 (fun v => v == 0 || !reservedSource s), rw 30 28,
      rwOk 27 26 (fun v => v == 0 || (64 ≤ s && s ≤ 111)), rsv 25 23, rw 22 22, rw 21 16, rw 15 15, rsv 14 6, rw 5 0] }
  else if index = 0x202 || index = 0x203 then some { fields := [rsv 31 16, rw 15 0] }
  else if 0x204 ≤ index && index ≤ 0x20B then some roWord
  else if index = 0x210 then
    if sub < 64 then some { fields := [rsv 31 26, rwIn 25 16 1 1023, rwIn 15 0 1 65535], dflt := 0x00010001 } else none
  else if index = 0x211 then (if sub < 128 then some roWord else none)
  else if index = 0x212 then (if sub < 32 then some roWord else none)
  else if index = 0x213 then
    if sub < 64 then some { fields := [rsv 31 12, rw 11 0] } else if sub = 64 then some roWord else none
  else if index = 0x600 then
    match sub with
    | 0 => some { fields := [rw 31 31, rw 30 30, rw 29 29, rsv 28 16, rwIn 15 0 10 200], dflt := 0x60000032, role := .maintain,
                  restartMask := 0xE0000000 }
    | 1 => some { fields := [rwIn 31 16 100 10000, rwIn 15 0 1 65535], dflt := 0x01F40010, role := .maintain,
                  timing := .restart, restartMask := 0xFFFFFFFF }
    | 2 => some { fields := [rwIn 31 16 100 10000, rwIn 15 0 1 65535], dflt := 0x03E80040, role := .maintain,
                  timing := .restart, restartMask := 0xFFFFFFFF }
    | _ => none
  else if index = 0x601 then (if sub ≤ 8 then some roWord else none)
  else if index = 0x800 then (if sub < 128 then some roWord else none)
  else if index = 0x801 then (if sub < 64 then some roWord else none)
  else if index = 0x802 then (if sub < 48 then some roWord else none)
  else if index = 0x803 then (if sub ≤ 3 then some roWord else none)
  else if 0x900 ≤ index && index ≤ 0x907 then
    if sub = 0 then some { fields := [rwIn 31 24 1 255, rsv 23 17, rwIn 16 0 1 65000], dflt := 0x100003E8, role := .maintain,
                           timing := .atOnce }
    else if sub ≤ 6 then some roWord else none
  else if index = 0xA00 then
    if sub = 0 then some { fields := [rsv 31 16, rw 15 0], dflt := 1000, role := .maintain, timing := .atOnce } else none
  else if index = 0xA01 then (if sub ≤ 3 || (8 ≤ sub && sub ≤ 23) then some roWord else none)
  else if index = 0xC00 then
    match sub with
    | 0 => some { fields := [rw 31 31, rsv 30 8, rwIn 7 0 0 127], dflt := 0x80000000, role := .maintain, timing := .atOnce }
    | 1 => some { fields := [rwIn 31 0 100 1000000], dflt := 10000, role := .maintain, timing := .atOnce }
    | _ => none
  else if index = 0xC01 then (if sub ≤ 7 then some roWord else none)
  else if index = 0xC02 then (if sub = 0 then some roWord else none)
  else if index = 0xC03 then (if sub ≤ 2 then some roWord else none)
  else if index = 0xD00 then
    if sub ≤ 11 then
      let gate := sub = 2 || sub = 3 || sub = 6 || sub = 7 || 9 ≤ sub
      some { fields := [ro 31 28, ro 27 26, ro 25 25, rwOk 24 24 (fun v => gate || v == 1), rsv 23 16, ro 15 0],
             role := .maintain, dflt := if gate then 0 else 0x01000000 }
    else none
  else if index = 0xD10 then
    if sub = 0 then some { fields := [rwIn 31 16 7000 32000, rw 15 15, rsv 14 0], dflt := 0x21340000, role := .maintain,
                           timing := .atOnce, restartMask := 0x00008000 }
    else if sub ≤ 2 then some roWord else none
  else if index = 0xD20 then
    if sub = 0 then some { fields := [rwOk 31 16 (s16In 500 1250), rwOk 15 0 (s16In 500 1250)], dflt := 0x03E8047E,
                           role := .maintain, timing := .atOnce }
    else if sub = 1 then some roWord else none
  else none

/-- The object dictionary: `none` for an index or sub-index that no chapter defines (BAD_OBJECT). -/
def objSpec (index sub : Nat) : Option WordSpec :=
  if 0x300 ≤ index && index ≤ 0x3FF then specLoop sub
  else if 0x400 ≤ index && index ≤ 0x41F then specUc sub
  else if 0x420 ≤ index && index ≤ 0x44F then specDi (index - 0x420) sub
  else if 0x460 ≤ index && index ≤ 0x47F then specDo (index - 0x460) sub
  else if 0x500 ≤ index && index ≤ 0x501 then specCan sub
  else if 0x510 ≤ index && index ≤ 0x577 then specCanTables index sub
  else if 0x700 ≤ index && index ≤ 0x73F then specTotal sub
  else if 0x880 ≤ index && index ≤ 0x882 then specFireStaged index sub
  else if 0xB00 ≤ index && index ≤ 0xBFF then specPanel index sub
  else specOther index sub

/-- The "when new" value of an object word. -/
def objDefault (key : Nat) : Word :=
  match objSpec (key / 256) (key % 256) with
  | some w => w.dflt
  | none => 0

/-- A configuration word as it stands. -/
def State.cfg (s : State) (index sub : Nat) : Word := s.mram.obj.get (objDefault (okey index sub)) (okey index sub)

/-- The bits of a word that its writable fields cover. -/
def WordSpec.mask (w : WordSpec) : Word :=
  w.fields.foldl (fun m f => if f.writable then m ||| mkWord [(f.hi, f.lo, 2 ^ (f.hi + 1 - f.lo) - 1)] else m) 0

/-- Check 3 of R429: the word holds at least one writable field. -/
def WordSpec.hasWritable (w : WordSpec) : Bool := w.fields.any (·.writable)

/-- Check 4 of R429: every reserved bit is 0. Only fields named RESERVED count (R14). -/
def WordSpec.reservedClear (w : WordSpec) (v : Word) : Bool :=
  w.fields.all fun f => !f.reserved || bits v f.hi f.lo == 0

/-- Check 5 of R429: every writable field lies in its range. -/
def WordSpec.inRange (w : WordSpec) (v : Word) : Bool :=
  (w.fields.all fun f => !f.writable || f.ok (bits v f.hi f.lo)) && w.whole v

end Sys2Proof.Machine
end

