-- ==== Sys2Proof/Machine/Ops.lean ====
section
/-! DEFINITION. The operations every chapter uses: the entries of the numbered parts, records on their way to the recorder
(R354, R356), hardware firings on their way to the Roundabout (R138), replies (R58), the acceptance of a command packet (R42),
the credits of a crossing (R25, R27) and the frames of the ring ports (R380 to R384). -/

namespace Sys2Proof

/-! ## The packet (R40 to R43) -/

/-- Flag bits of R41. -/
def Packet.flag (p : Packet) (n : Nat) : Bool := p.flags.toNat / 2 ^ n % 2 == 1

/-- AUTH (R41). -/
def Packet.tagged (p : Packet) : Bool := p.flag 6

/-- The header as sent (R40), which the tag covers with the payload (R43). -/
def Packet.header (p : Packet) : List Byte :=
  toBe 2 p.magic.toNat ++ [p.version, p.flags] ++ toBe 2 p.opcode.toNat ++ toBe 2 p.tag.toNat ++ toBe 4 p.seq.toNat ++
    toBe 2 p.target.toNat ++ toBe 2 p.origin.toNat ++ toBe 2 p.length.toNat ++ [p.cls, p.keyslot] ++ toBe 4 p.cycle.toNat

/-- The tag of R43: the first 16 bytes of HMAC-SHA-256 over header and payload. -/
def Packet.mac (p : Packet) (key : List Byte) : List Byte := (hmac key (p.header ++ p.payload)).take 16

/-- Check 1 of R42: MAGIC, VERSION and ORIGIN. -/
def Packet.formatOk (p : Packet) : Bool :=
  p.magic == 0x4E56 && p.version == 1 && (p.origin.toNat ≤ 0x7FF || p.origin == 0x8000)

/-- The serial identity at the head of the payload (R41). -/
def Packet.serial (p : Packet) : BitVec 64 := BitVec.ofNat 64 (be32 p.payload 0 * 2 ^ 32 + be32 p.payload 4)

/-- Check 3 of R42: LENGTH matches the frame, at most 1,400, and the frame carries a tag of 16 bytes exactly with AUTH = 1
(R40). -/
def Packet.lengthOk (p : Packet) : Bool :=
  p.length.toNat == p.payload.length && p.length.toNat ≤ 1400 && p.auth.length == (if p.tagged then 16 else 0)

/-- The key slot a request counts under: slot 0 for an untagged one (R40: KEYSLOT is 0 when AUTH = 0). -/
def Packet.slot (p : Packet) : Nat := if p.tagged then p.keyslot.toNat else 0

/-- The payload after the serial identity (R41). -/
def Packet.body (p : Packet) : List Byte := if p.flag 3 then p.payload.drop 8 else p.payload

/-- A packet that promises a serial (SERIAL = 1) and has no eight bytes of it (R41). -/
def Packet.serialShort (p : Packet) : Bool := p.flag 3 && p.payload.length < 8

/-- What a reply needs of a request. -/
def Packet.ctx (p : Packet) (cls : BitVec 8) (roles : BitVec 4) : Machine.Ctx :=
  { port := p.port, opcode := p.opcode, tag := p.tag, seq := p.seq, origin := p.origin, keyslot := p.keyslot,
    tagged := p.tagged, cls := cls, roles := roles, broadcast := p.target == 0xFFFF, peer := p.peer }

end Sys2Proof

namespace Sys2Proof.Machine

open Sys2Proof

/-! ## The numbered parts -/

/-- The entry of a logic engine. -/
def State.engine (s : State) (i : Nat) : Engine := s.engines.get {} i

/-- Replaces the entry of a logic engine. -/
def State.setEngine (s : State) (i : Nat) (x : Engine) : State := { s with engines := s.engines.set {} i x }

/-- Changes the entry of a logic engine. -/
def State.modEngine (s : State) (i : Nat) (f : Engine → Engine) : State := s.setEngine i (f (s.engine i))

/-- The entry of a timer. -/
def State.timer (s : State) (i : Nat) : Timer := s.timers.get {} i

/-- Replaces the entry of a timer. -/
def State.setTimer (s : State) (i : Nat) (x : Timer) : State := { s with timers := s.timers.set {} i x }

/-- Changes the entry of a timer. -/
def State.modTimer (s : State) (i : Nat) (f : Timer → Timer) : State := s.setTimer i (f (s.timer i))

/-- The entry of a counter. -/
def State.counter (s : State) (i : Nat) : Counter := s.counters.get {} i

/-- Replaces the entry of a counter. -/
def State.setCounter (s : State) (i : Nat) (x : Counter) : State := { s with counters := s.counters.set {} i x }

/-- Changes the entry of a counter. -/
def State.modCounter (s : State) (i : Nat) (f : Counter → Counter) : State := s.setCounter i (f (s.counter i))

/-- The entry of a universal channel. -/
def State.uc (s : State) (i : Nat) : Uc := s.ucs.get {} i

/-- Replaces the entry of a universal channel. -/
def State.setUc (s : State) (i : Nat) (x : Uc) : State := { s with ucs := s.ucs.set {} i x }

/-- Changes the entry of a universal channel. -/
def State.modUc (s : State) (i : Nat) (f : Uc → Uc) : State := s.setUc i (f (s.uc i))

/-- The entry of a digital input. -/
def State.di (s : State) (i : Nat) : Di := s.dis.get {} i

/-- Replaces the entry of a digital input. -/
def State.setDi (s : State) (i : Nat) (x : Di) : State := { s with dis := s.dis.set {} i x }

/-- Changes the entry of a digital input. -/
def State.modDi (s : State) (i : Nat) (f : Di → Di) : State := s.setDi i (f (s.di i))

/-- The entry of a digital output. -/
def State.do_ (s : State) (i : Nat) : Do := s.dos.get {} i

/-- Replaces the entry of a digital output. -/
def State.setDo (s : State) (i : Nat) (x : Do) : State := { s with dos := s.dos.set {} i x }

/-- Changes the entry of a digital output. -/
def State.modDo (s : State) (i : Nat) (f : Do → Do) : State := s.setDo i (f (s.do_ i))

/-- The entry of a digital input group. -/
def State.diGroup (s : State) (i : Nat) : DGroup := s.diGroups.get {} i

/-- Replaces the entry of a digital input group. -/
def State.setDiGroup (s : State) (i : Nat) (x : DGroup) : State := { s with diGroups := s.diGroups.set {} i x }

/-- Changes the entry of a digital input group. -/
def State.modDiGroup (s : State) (i : Nat) (f : DGroup → DGroup) : State := s.setDiGroup i (f (s.diGroup i))

/-- The entry of a digital output group. -/
def State.doGroup (s : State) (i : Nat) : DGroup := s.doGroups.get {} i

/-- Replaces the entry of a digital output group. -/
def State.setDoGroup (s : State) (i : Nat) (x : DGroup) : State := { s with doGroups := s.doGroups.set {} i x }

/-- Changes the entry of a digital output group. -/
def State.modDoGroup (s : State) (i : Nat) (f : DGroup → DGroup) : State := s.setDoGroup i (f (s.doGroup i))

/-- The entry of a CAN port. -/
def State.can (s : State) (i : Nat) : Can := s.cans.get {} i

/-- Replaces the entry of a CAN port. -/
def State.setCan (s : State) (i : Nat) (x : Can) : State := { s with cans := s.cans.set {} i x }

/-- Changes the entry of a CAN port. -/
def State.modCan (s : State) (i : Nat) (f : Can → Can) : State := s.setCan i (f (s.can i))

/-- The entry of a conserved total. -/
def State.total (s : State) (i : Nat) : Total := s.totals.get {} i

/-- Replaces the entry of a conserved total. -/
def State.setTotal (s : State) (i : Nat) (x : Total) : State := { s with totals := s.totals.set {} i x }

/-- Changes the entry of a conserved total. -/
def State.modTotal (s : State) (i : Nat) (f : Total → Total) : State := s.setTotal i (f (s.total i))

/-- The entry of a protected array. -/
def State.arr (s : State) (i : Nat) : Arr := s.arrays.get {} i

/-- Replaces the entry of a protected array. -/
def State.setArr (s : State) (i : Nat) (x : Arr) : State := { s with arrays := s.arrays.set {} i x }

/-- Changes the entry of a protected array. -/
def State.modArr (s : State) (i : Nat) (f : Arr → Arr) : State := s.setArr i (f (s.arr i))

/-- The entry of an island. -/
def State.island (s : State) (i : Nat) : Island := s.islands.get {} i

/-- Replaces the entry of an island. -/
def State.setIsland (s : State) (i : Nat) (x : Island) : State := { s with islands := s.islands.set {} i x }

/-- Changes the entry of an island. -/
def State.modIsland (s : State) (i : Nat) (f : Island → Island) : State := s.setIsland i (f (s.island i))

/-- The entry of a power domain. -/
def State.domain (s : State) (i : Nat) : Domain := s.domains.get {} i

/-- Replaces the entry of a power domain. -/
def State.setDomain (s : State) (i : Nat) (x : Domain) : State := { s with domains := s.domains.set {} i x }

/-- Changes the entry of a power domain. -/
def State.modDomain (s : State) (i : Nat) (f : Domain → Domain) : State := s.setDomain i (f (s.domain i))

/-- The entry of a crossing. -/
def State.crossing (s : State) (i : Nat) : Crossing := s.crossings.get {} i

/-- Replaces the entry of a crossing. -/
def State.setCrossing (s : State) (i : Nat) (x : Crossing) : State := { s with crossings := s.crossings.set {} i x }

/-- Changes the entry of a crossing. -/
def State.modCrossing (s : State) (i : Nat) (f : Crossing → Crossing) : State := s.setCrossing i (f (s.crossing i))

/-- The entry of a source of the Roundabout. -/
def State.source (s : State) (i : Nat) : Source := s.round.sources.get {} i

/-- Replaces the entry of a source of the Roundabout. -/
def State.setSource (s : State) (i : Nat) (x : Source) : State :=
  { s with round := { s.round with sources := s.round.sources.set {} i x } }

/-- Changes the entry of a source of the Roundabout. -/
def State.modSource (s : State) (i : Nat) (f : Source → Source) : State := s.setSource i (f (s.source i))

/-- The entry of a coalescing group. -/
def State.group (s : State) (i : Nat) : Group := s.round.groups.get {} i

/-- Replaces the entry of a coalescing group. -/
def State.setGroup (s : State) (i : Nat) (x : Group) : State :=
  { s with round := { s.round with groups := s.round.groups.set {} i x } }

/-- Changes the entry of a coalescing group. -/
def State.modGroup (s : State) (i : Nat) (f : Group → Group) : State := s.setGroup i (f (s.group i))

/-- The entry of a subscriber slot. -/
def State.slot (s : State) (i : Nat) : Slot := s.round.slots.get {} i

/-- Replaces the entry of a subscriber slot. -/
def State.setSlot (s : State) (i : Nat) (x : Slot) : State :=
  { s with round := { s.round with slots := s.round.slots.set {} i x } }

/-- Changes the entry of a subscriber slot. -/
def State.modSlot (s : State) (i : Nat) (f : Slot → Slot) : State := s.setSlot i (f (s.slot i))

/-- The entry of a loop context. -/
def State.loopCtx (s : State) (i : Nat) : Loop := s.loop.ctxs.get {} i

/-- Replaces the entry of a loop context. -/
def State.setLoopCtx (s : State) (i : Nat) (x : Loop) : State :=
  { s with loop := { s.loop with ctxs := s.loop.ctxs.set {} i x } }

/-- Changes the entry of a loop context. -/
def State.modLoopCtx (s : State) (i : Nat) (f : Loop → Loop) : State := s.setLoopCtx i (f (s.loopCtx i))

/-- The entry of an input slot of FIRE. -/
def State.fireSlot (s : State) (i : Nat) : FireSlot := s.fire.slots.get {} i

/-- Replaces the entry of an input slot of FIRE. -/
def State.setFireSlot (s : State) (i : Nat) (x : FireSlot) : State :=
  { s with fire := { s.fire with slots := s.fire.slots.set {} i x } }

/-- Changes the entry of an input slot of FIRE. -/
def State.modFireSlot (s : State) (i : Nat) (f : FireSlot → FireSlot) : State := s.setFireSlot i (f (s.fireSlot i))

/-- The entry of a trip function. -/
def State.fireFn (s : State) (i : Nat) : FireFn := s.fire.fns.get {} i

/-- Replaces the entry of a trip function. -/
def State.setFireFn (s : State) (i : Nat) (x : FireFn) : State :=
  { s with fire := { s.fire with fns := s.fire.fns.set {} i x } }

/-- Changes the entry of a trip function. -/
def State.modFireFn (s : State) (i : Nat) (f : FireFn → FireFn) : State := s.setFireFn i (f (s.fireFn i))

/-- The entry of an output slot of FIRE. -/
def State.fireOut (s : State) (i : Nat) : FireOut := s.fire.outs.get {} i

/-- Replaces the entry of an output slot of FIRE. -/
def State.setFireOut (s : State) (i : Nat) (x : FireOut) : State :=
  { s with fire := { s.fire with outs := s.fire.outs.set {} i x } }

/-- Changes the entry of an output slot of FIRE. -/
def State.modFireOut (s : State) (i : Nat) (f : FireOut → FireOut) : State := s.setFireOut i (f (s.fireOut i))

/-- The entry of a ring port. -/
def State.ringPort (s : State) (i : Nat) : RingPort := s.ring.ports.get {} i

/-- Replaces the entry of a ring port. -/
def State.setRingPort (s : State) (i : Nat) (x : RingPort) : State :=
  { s with ring := { s.ring with ports := s.ring.ports.set {} i x } }

/-- Changes the entry of a ring port. -/
def State.modRingPort (s : State) (i : Nat) (f : RingPort → RingPort) : State := s.setRingPort i (f (s.ringPort i))

/-- The entry of a key slot. -/
def State.key (s : State) (i : Nat) : KeySlot := s.mram.keys.get {} i

/-- A copy of an item is one of the key slot `i`, or of object `index`. -/
def MramItem.sameKey (i : Nat) : MramItem → Bool
  | .key k _ => k.val == i
  | _ => false
def MramItem.sameObject (index : Nat) : MramItem → Bool
  | .object k _ => k.toNat == index
  | _ => false

def MramItem.isObject : MramItem → Bool
  | .object _ _ => true
  | _ => false

/-- The sequence number that the two copies of an item share goes on (R347, log 59). -/
def Mram.nextSeq (m : Mram) (k : Nat) : Mram := { m with seqs := m.seqs.set 0 k (m.seqs.get 0 k + 1) }

/-- An object is written: both of its copies hold from then on, under a new sequence number (R347). -/
def Mram.wrote (m : Mram) (index : Nat) : Mram := { m with voidCopies := m.voidCopies.filter fun v => !v.sameObject index }.nextSeq index

/-- Replaces the entry of a key slot. -/
def State.setKey (s : State) (i : Nat) (x : KeySlot) : State :=
  { s with mram := { s.mram.nextSeq (0x10000 + i) with keys := s.mram.keys.set {} i x, voidCopies := s.mram.voidCopies.filter fun v => !v.sameKey i } }

/-- Changes the entry of a key slot. -/
def State.modKey (s : State) (i : Nat) (f : KeySlot → KeySlot) : State := s.setKey i (f (s.key i))

/-- The entry of a program bank. -/
def State.bank (s : State) (i : Nat) : Bank := s.mram.banks.get {} i

/-- Replaces the entry of a program bank. -/
def State.setBank (s : State) (i : Nat) (x : Bank) : State :=
  { s with mram := { s.mram with banks := s.mram.banks.set {} i x } }

/-- Changes the entry of a program bank. -/
def State.modBank (s : State) (i : Nat) (f : Bank → Bank) : State := s.setBank i (f (s.bank i))

/-- The entry of the counters of a severity. -/
def State.sevCount (s : State) (i : Nat) : SevCount := s.mram.sev.get {} i

/-- Replaces the entry of the counters of a severity. -/
def State.setSevCount (s : State) (i : Nat) (x : SevCount) : State :=
  { s with mram := { s.mram with sev := s.mram.sev.set {} i x } }

/-- Changes the entry of the counters of a severity. -/
def State.modSevCount (s : State) (i : Nat) (f : SevCount → SevCount) : State := s.setSevCount i (f (s.sevCount i))

/-- An island restarts in place or is at fault: what it reports is STALE (R33). -/
def State.down (s : State) (island : Nat) : Bool := (s.island island).state == .restarting || (s.island island).state == .faulted

/-- An island is in RUN or asleep, so it does its work (R20, R33). -/
def State.runs (s : State) (island : Nat) : Bool := (s.island island).state == .run || (s.island island).state == .sleep

/-- The islands whose PLL locks to the reference: all but FIRE and PWR (R19). -/
def refIslands : List Nat := (List.range 20).filter fun n => n != 9 && n != 18

/-- An island stands at an idle point (R19): a logic engine that runs no block, SQUARE with no cycle under way. The other islands do one
thing to a step, so they are idle between any two (DEDUCED, log 86). -/
def State.idlePoint (s : State) (n : Nat) : Bool :=
  if n < 4 then !(s.engine n).running else if n = 6 then s.square.phase == .idle else true

/-- The PLLs of the islands that stand at an idle point take the reference again, once it is back (R19). -/
def State.refBack (s : State) : State :=
  if s.power.refLost then s
  else (refIslands.filter fun n => (s.island n).clksrc && s.idlePoint n).foldl (fun s n => s.modIsland n fun i => { i with clksrc := false }) s

/-- CLKSRC as the island shows it (R19, R20): the local oscillator, unless the reference is back and an idle point has come. -/
def State.clockLocal (s : State) (n : Nat) : Bool :=
  (s.island n).clksrc && !(refIslands.contains n && !s.power.refLost && s.idlePoint n)

/-- Applies an operation to each item of a list in turn. -/
def State.each {α : Type} (s : State) (l : List α) (f : State → α → State) : State := l.foldl f s

/-- A free value is drawn: the state counts it. -/
def State.draw (s : State) : State := { s with freeCount := s.freeCount + 1 }

/-! ## Service, pair and cycle in brief -/

/-- Whether no cycle runs and nothing is committed: replies and records then carry cycle 0 (R36, R354). -/
def State.noCycle (s : State) : Bool := s.service == .sideStreet || s.service == .off

/-- From the start of Side-Street mode until the first apply of full service the states and status words offered to commands are those of the
islands themselves (R209, R231). -/
def State.offers (s : State) : Bool := s.noCycle || (s.service == .full && !s.square.committedOnce)

/-- CYCLE of a reply or record: the last committed cycle, 0 where no cycle runs (R36, R354). -/
def State.shownCycle (s : State) : BitVec 32 := if s.noCycle then 0 else s.square.last

/-- The last committed cycle as MRAM knows it (R79): none before the first full service. -/
def State.storedCycle (s : State) : BitVec 32 := if s.mram.fresh then 0 else s.mram.cycle

/-- The cycle number after `c`: 0 is never used (R79). -/
def nextCycle (c : BitVec 32) : BitVec 32 := if c = BitVec.allOnes 32 then 1 else c + 1

/-- The cycle number before `c`. -/
def prevCycle (c : BitVec 32) : BitVec 32 := if c = 1 then BitVec.allOnes 32 else c - 1

/-- The cycle number `n` after `c`, passing over 0 (R79). -/
def cyclePlus (c : BitVec 32) (n : Nat) : BitVec 32 :=
  let t := c.toNat + n
  BitVec.ofNat 32 (if t ≥ 2 ^ 32 then t - 2 ^ 32 + 1 else t)

/-- PAIR of object 0600h, sub-index 0 (R318). -/
def State.pairMode (s : State) : Bool := bit (s.cfg 0x600 0) 31

/-- A standby's freeze falls at an instant that the active gives, which may lie before changes of the inputs (R81, R92): what was before them is
kept. -/
def State.looksBack (s : State) : Bool := s.pairMode && (s.pair.state == .sync || s.pair.state == .syncing)

/-- A standby under R53: its pair state is STANDBY_SYNCING, STANDBY_SYNC or STALE (R297). -/
def State.standby (s : State) : Bool :=
  s.pair.state == .syncing || s.pair.state == .sync || s.pair.state == .stale

/-- A module whose outputs may be driven from the committed cycle: simplex, or active in its pair with its drivers
enabled (R294, R297). -/
def State.drives (s : State) : Bool := if s.pairMode then s.pair.drivers else true

/-! ## Records (R354) -/

/-- The kinds of record that the record tables of the chapters name; a note (R362) and a closed total (R334) carry a number
of their own. -/
inductive RecKind where
  | tollgateMismatch | islandRestart | moduleOutOfService | windowMismatch | refClockLost | cycleAbandoned
  | ownershipFault | cycleOverrun | programSwitched | forceReleased | forcesCleared | runStopChanged
  | programFault | poisonConsumed | totRefused | loopPvBad | loopDataBad | loopDeviation | loopCoeffChanged
  | channelFault | channelFaultCleared | compliance | modeChanged | hartOvercount | ucOutputPoisoned
  | calFailed | diEdge | wireBreak | wireBreakCleared | doFault | doFaultCleared | groupSag | groupLow
  | groupUvlo | groupRecovered | groupOvercurrent | doOutputPoisoned | outputAcknowledged
  | groupOvercurrentCleared | canErrorPassive | canBusOff | canRecovered | stationAbsent | stationRejoin
  | txAbandoned | refFailed | rioOutputPoisoned | fireTrip | fireCleared | fireReset | fireResetRefused
  | fireInputUnassured | fireConfigChanged | fireConfigInvalid | fireConfigRepaired | tripOutputFailed
  | tripCutAsserted | pairStateChanged | heartbeatPathLost | heartbeatPathRestored | takeover
  | pairDivergence | laneLost | cableAbsent | tieWithdrawn | claimLineFault | heartbeatsLostClaimed
  | ledgerLate | syncLost | resyncDone | epochConflict | sideConflict | loneStart | holdMargin
  | rehearseFault | rehearseResult | totalRestored | totalSaturated | totalBoundaryCorrected | totalMarkDrift
  | reconcileUncertain | memCorrectedBurst | memUncorrectable | memPageRepaired | memRepairFailed
  | memRemapped | memRemapFull | retainedCopyVoid | mramItemLost | panelSupplyFault | panelFrameCorrupt
  | panelFrameRefused | plateTorn | plateRefreshed | tempBandChanged | ringLinkDown | ringDegraded
  | ringOverfull | addressAssigned | addressMoved | addressConfirmed | addressDuplicate | ptpLocked | ptpLost
  | startUp | fullService | supplyFeedLost | supplyLowHold | bankRestoreFailed | powerFailWarning
  | holdUpComplete | holdUpIncomplete | thermalWarning | thermalCritical | thermalNormal
  | totalClosedHi (t : Nat) | totalClosedLo (t : Nat) | note (code severity : Nat)
  deriving DecidableEq, Repr

/-- CODE and SEVERITY of a record, as the record table of its chapter gives them (0 INFO to 3 CRITICAL, R354). -/
def RecKind.info : RecKind → Nat × Nat
  | .tollgateMismatch => (0x0101, 3)
  | .islandRestart => (0x0102, 2)
  | .moduleOutOfService => (0x0103, 3)
  | .windowMismatch => (0x0104, 2)
  | .refClockLost => (0x0105, 2)
  | .cycleAbandoned => (0x0106, 2)
  | .ownershipFault => (0x0201, 2)
  | .cycleOverrun => (0x0202, 3)
  | .programSwitched => (0x0203, 0)
  | .forceReleased => (0x0204, 1)
  | .forcesCleared => (0x0205, 1)
  | .runStopChanged => (0x0206, 0)
  | .programFault => (0x0301, 3)
  | .poisonConsumed => (0x0302, 2)
  | .totRefused => (0x0303, 2)
  | .loopPvBad => (0x0401, 2)
  | .loopDataBad => (0x0402, 2)
  | .loopDeviation => (0x0403, 1)
  | .loopCoeffChanged => (0x0404, 0)
  | .channelFault => (0x0501, 2)
  | .channelFaultCleared => (0x0502, 0)
  | .compliance => (0x0503, 1)
  | .modeChanged => (0x0504, 0)
  | .hartOvercount => (0x0505, 2)
  | .ucOutputPoisoned => (0x0506, 2)
  | .calFailed => (0x0507, 3)
  | .diEdge => (0x0601, 0)
  | .wireBreak => (0x0602, 2)
  | .wireBreakCleared => (0x0603, 0)
  | .doFault => (0x0604, 2)
  | .doFaultCleared => (0x0605, 0)
  | .groupSag => (0x0606, 1)
  | .groupLow => (0x0607, 2)
  | .groupUvlo => (0x0608, 2)
  | .groupRecovered => (0x0609, 0)
  | .groupOvercurrent => (0x060A, 1)
  | .doOutputPoisoned => (0x060B, 2)
  | .outputAcknowledged => (0x060C, 0)
  | .groupOvercurrentCleared => (0x060D, 0)
  | .canErrorPassive => (0x0701, 1)
  | .canBusOff => (0x0702, 2)
  | .canRecovered => (0x0703, 0)
  | .stationAbsent => (0x0704, 2)
  | .stationRejoin => (0x0705, 0)
  | .txAbandoned => (0x0706, 1)
  | .refFailed => (0x0707, 2)
  | .rioOutputPoisoned => (0x0708, 2)
  | .fireTrip => (0x0801, 3)
  | .fireCleared => (0x0802, 0)
  | .fireReset => (0x0803, 0)
  | .fireResetRefused => (0x0804, 1)
  | .fireInputUnassured => (0x0805, 1)
  | .fireConfigChanged => (0x0806, 2)
  | .fireConfigInvalid => (0x0807, 3)
  | .fireConfigRepaired => (0x0808, 1)
  | .tripOutputFailed => (0x0809, 3)
  | .tripCutAsserted => (0x080A, 2)
  | .pairStateChanged => (0x0901, 0)
  | .heartbeatPathLost => (0x0902, 2)
  | .heartbeatPathRestored => (0x0903, 0)
  | .takeover => (0x0904, 2)
  | .pairDivergence => (0x0905, 1)
  | .laneLost => (0x0906, 2)
  | .cableAbsent => (0x0907, 2)
  | .tieWithdrawn => (0x0908, 0)
  | .claimLineFault => (0x0909, 3)
  | .heartbeatsLostClaimed => (0x090A, 3)
  | .ledgerLate => (0x090B, 1)
  | .syncLost => (0x090C, 2)
  | .resyncDone => (0x090D, 0)
  | .epochConflict => (0x090E, 3)
  | .sideConflict => (0x090F, 3)
  | .loneStart => (0x0910, 2)
  | .holdMargin => (0x0911, 1)
  | .rehearseFault => (0x0912, 2)
  | .rehearseResult => (0x0913, 0)
  | .totalRestored => (0x0A01, 1)
  | .totalSaturated => (0x0A02, 2)
  | .totalBoundaryCorrected => (0x0A03, 0)
  | .totalMarkDrift => (0x0A04, 2)
  | .reconcileUncertain => (0x0A05, 2)
  | .memCorrectedBurst => (0x0B01, 1)
  | .memUncorrectable => (0x0B02, 2)
  | .memPageRepaired => (0x0B03, 0)
  | .memRepairFailed => (0x0B04, 3)
  | .memRemapped => (0x0B05, 1)
  | .memRemapFull => (0x0B06, 2)
  | .retainedCopyVoid => (0x0B07, 2)
  | .mramItemLost => (0x0B08, 3)
  | .panelSupplyFault => (0x0C01, 2)
  | .panelFrameCorrupt => (0x0C02, 2)
  | .panelFrameRefused => (0x0C03, 1)
  | .plateTorn => (0x0C04, 2)
  | .plateRefreshed => (0x0C05, 0)
  | .tempBandChanged => (0x0C06, 0)
  | .ringLinkDown => (0x0D01, 2)
  | .ringDegraded => (0x0D02, 1)
  | .ringOverfull => (0x0D03, 2)
  | .addressAssigned => (0x0D04, 0)
  | .addressMoved => (0x0D05, 1)
  | .addressConfirmed => (0x0D06, 0)
  | .addressDuplicate => (0x0D07, 3)
  | .ptpLocked => (0x0D08, 0)
  | .ptpLost => (0x0D09, 2)
  | .startUp => (0x0E01, 0)
  | .fullService => (0x0E02, 0)
  | .supplyFeedLost => (0x0E03, 1)
  | .supplyLowHold => (0x0E04, 1)
  | .bankRestoreFailed => (0x0E05, 3)
  | .powerFailWarning => (0x0E06, 2)
  | .holdUpComplete => (0x0E07, 0)
  | .holdUpIncomplete => (0x0E08, 3)
  | .thermalWarning => (0x0F01, 1)
  | .thermalCritical => (0x0F02, 2)
  | .thermalNormal => (0x0F03, 0)
  | .totalClosedHi t => (0xA40 + t, 2)
  | .totalClosedLo t => (0xA80 + t, 2)
  | .note c v => (c, v)

/-- SOURCE of a record where its chapter names one island for all its records. -/
def RecKind.source (k : RecKind) : Nat :=
  match k.info.1 / 256 with
  | 2 => 6
  | 4 => 4
  | 5 => 7
  | 6 => 8
  | 8 => 9
  | 9 => 14
  | 0xA => 6
  | 0xB => 17
  | 0xC => 19
  | 0xD => 16
  | 0xE => 16
  | 0xF => 18
  | _ => 16

/-- Whether the record is never merged (R359). -/
def RecKind.noMerge : RecKind → Bool
  | .totalClosedHi _ | .totalClosedLo _ | .note _ _ => true
  | _ => false

/-- A record as an island raises it: TIMESTAMP, where the chapter names one, and CYCLE, where it names one (R354). -/
def State.mkRecord (s : State) (src : Nat) (k : RecKind) (value : Word) (time : Option Nat) (cycle : Option (BitVec 32)) :
    Record :=
  { timestamp := time.getD 0, source := BitVec.ofNat 16 src, code := BitVec.ofNat 16 k.info.1, value := value,
    cycle := cycle.getD s.shownCycle, repeats := 0, sideStreet := s.service == .sideStreet,
    unsynced := s.ring.time != .locked, noMerge := k.noMerge, severity := BitVec.ofNat 2 k.info.2, deltaUs := 0 }

/-- The crossing of two islands: sender × 32 + receiver (R25, R145). -/
def crossingId (sender receiver : Nat) : Nat := sender * 32 + receiver

/-- A message of one slot waits at a sender (R25). -/
def State.postMessage (s : State) (sender receiver cls : Nat) (cargo : Cargo) : State :=
  let s := s.modCrossing (crossingId sender receiver) fun x =>
    { x with waiting := x.waiting ++ [{ cls := cls, slots := 1, since := s.now, order := s.nextSend, cargo := cargo }] }
  { s with nextSend := s.nextSend + 1 }

/-- A record as KEEP receives it at a time (R356): one whose chapter names no time takes that of its arrival (R354). -/
def Raised.received (q : Raised) (t : Nat) : Raised :=
  { q with arrived := t, stamped := true, rec_ := if q.stamped then q.rec_ else { q.rec_ with timestamp := t } }

/-- KEEP receives a record (R356). -/
def State.recordArrives (s : State) (q : Raised) : State := { s with raised := s.raised ++ [q.received s.now] }

/-- An island hands a record to KEEP as a Class 2 message (R356); KEEP's own need none, and a note is SUP's (R362). -/
def State.handRecord (s : State) (q : Raised) : State :=
  let src := q.rec_.source.toNat
  if src = 17 then s.recordArrives q else s.postMessage (if src < 20 then src else 16) 17 2 (.record q)

/-- A record that an island raises (R356). Without logic supply none does. -/
def State.raiseFull (s : State) (src : Nat) (k : RecKind) (value : Word) (time : Option Nat) (cycle : Option (BitVec 32)) :
    State :=
  if s.service == .off then s
  else
    let q : Raised := { rec_ := s.mkRecord src k value time cycle, stamped := time.isSome, noteFor := none, closeFor := none }
    s.handRecord q

/-- A record of an island, with the time and cycle of R354. -/
def State.raiseFrom (s : State) (src : Nat) (k : RecKind) (value : Word) : State := s.raiseFull src k value none none

/-- A record of the island its chapter names, with the time and cycle of R354. -/
def State.raise (s : State) (k : RecKind) (value : Word) : State := s.raiseFrom k.source k value

/-- A record whose table gives no VALUE: it is free. -/
def State.raiseUnstated (s : State) (src : Nat) (k : RecKind) : State :=
  (s.raiseFrom src k (Config.unstatedValue k.info.1 s.freeCount)).draw

/-- A record that waits in KEEP's queue before Side-Street mode begins (R356, R393): its CYCLE is the last committed cycle that MRAM knows. -/
def State.raiseStarting (s : State) (k : RecKind) (value : Word) : State :=
  let q : Raised := { rec_ := { s.mkRecord k.source k value none (some (s.storedCycle)) with sideStreet := false }
                      stamped := false, noteFor := none, closeFor := none }
  s.recordArrives q

/-- What is done every `ns` is due: it was last done so long ago, or never, or module time has been set back since (R390). -/
def State.dueEvery (s : State) (last : Option Nat) (ns : Nat) : Bool :=
  match last with
  | some t => decide (t + ns ≤ s.now) || decide (s.now < t)
  | none => true

/-! ## Crossings and credits (R25, R27) -/

/-- LE0 to LE3. -/
def isEngine (n : Nat) : Bool := n < 4

/-- Depth in slots and Class 0 reserve of a crossing, for either order of its endpoints (R27). The crossings between FIRE and KEEP fit two
rows of the table; FIRE's row is taken (DESIGN CHOICE, log 85). Endpoint 20 is no island (R25), so only its three named crossings have
a row of their own. -/
def crossingSize (a b : Nat) : Nat × Nat :=
  let pair (x y : Nat) : Bool := (a == x && b == y) || (a == y && b == x)
  if pair 20 14 || pair 20 10 || pair 20 11 then (8, 4)
  else if a == 20 || b == 20 then (8, 2)
  else if a == 9 || b == 9 then (8, 4)
  else if a == 17 || b == 17 then (8, 2)
  else if pair 14 6 then (64, 4)
  else if (isEngine a && b == 6) || (isEngine b && a == 6) || pair 4 6 || pair 7 6 || pair 12 6 || pair 13 6 || pair 16 6 ||
      pair 10 16 || pair 11 16 then (32, 2)
  else if (a == 5 && isEngine b) || (b == 5 && isEngine a) || pair 8 6 || pair 15 16 || pair 19 6 then (16, 2)
  else (8, 2)

/-- Slots of a list of messages. -/
def slotsOf (l : List Message) : Nat := (l.map (·.slots)).sum

/-- The credits that the sender holds (R25). -/
def Crossing.credits (x : Crossing) (depth : Nat) : Nat := depth - slotsOf x.queued - x.returning

/-- The sender may send a message (R27). -/
def Crossing.mayPay (x : Crossing) (size : Nat × Nat) (m : Message) : Bool :=
  if m.cls = 0 then m.slots ≤ x.credits size.1 else m.slots + size.2 ≤ x.credits size.1

/-! ## Firings (R138) -/

/-- A hardware firing of source `n` on its way to ROUND (R140). -/
def State.fireSourceAt (s : State) (n : Nat) (t : Nat) : State :=
  { s with round := { s.round with firings := s.round.firings ++ [(n, t)] } }

/-- A hardware firing of source `n` now. -/
def State.fireSource (s : State) (n : Nat) : State := s.fireSourceAt n s.now

/-! ## Replies (R43, R58) -/

/-- The status codes of R58. -/
inductive Status where
  | ok | acceptedDeferred | superseded | badOpcode | badLength | badObject | readOnly | outOfRange | configConflict
  | checksumMismatch | imageRejected | signatureInvalid | notAuthorised | replay | notArmed | wrongState | standby
  | forceConflict | busy | standbyNotReady | noResponse | poisoned | pairStale
  deriving DecidableEq, Repr

/-- The code of a status (R58). -/
def Status.code : Status → BitVec 16
  | .ok => 0x0000
  | .acceptedDeferred => 0x0001
  | .superseded => 0x0002
  | .badOpcode => 0x0010
  | .badLength => 0x0011
  | .badObject => 0x0012
  | .readOnly => 0x0013
  | .outOfRange => 0x0014
  | .configConflict => 0x0015
  | .checksumMismatch => 0x0016
  | .imageRejected => 0x0017
  | .signatureInvalid => 0x0018
  | .notAuthorised => 0x0020
  | .replay => 0x0021
  | .notArmed => 0x0022
  | .wrongState => 0x0030
  | .standby => 0x0031
  | .forceConflict => 0x0032
  | .busy => 0x0033
  | .standbyNotReady => 0x0034
  | .noResponse => 0x0035
  | .poisoned => 0x0040
  | .pairStale => 0x0050

/-- Gives a place back to the origin's window (R48). -/
def State.freePlace (s : State) (origin : BitVec 16) : State :=
  { s with sup := { s.sup with windows := s.sup.windows.map fun v =>
      if v.origin == origin then { v with used := v.used - 1, lastAt := s.now } else v } }

/-- Owes a reply. `counts` says whether its request holds a place in its origin's window (R48). What SUP accepted before an in-place
restart is never answered; nor is a broadcast, which then holds no place either (R42, log 87). -/
def State.owe (s : State) (c : Ctx) (st : Status) (cycle : BitVec 32) (body : List Byte) (counts : Bool) : State :=
  if c.gen != s.sup.gen then s
  else if c.broadcast then (if counts then s.freePlace c.origin else s)
  else { s with sup := { s.sup with ready := s.sup.ready + 1, replies := s.sup.replies ++
      [{ ctx := c, status := st.code, cycle := cycle, body := body, sent := 0, counts := counts, readyAt := s.now, order := s.sup.ready }] } }

/-- The reply to an accepted command: STATUS, then `body` (R58), under the cycle of R36. -/
def State.reply (s : State) (c : Ctx) (st : Status) (body : List Byte) : State := s.owe c st s.shownCycle body true

/-- What follows the STATUS of a refusal: nothing (R58), but for WRITE_OBJECT a FAIL_INDEX (R429), whose value is open where no word was
judged. -/
def Ctx.refusalBody (c : Ctx) : List Byte :=
  if c.opcode.toNat = 0x0103 then toBe 2 (Config.failIndex c.origin.toNat c.seq.toNat).toNat else []

/-- A reply that carries STATUS only (R58). -/
def State.refuse (s : State) (c : Ctx) (st : Status) : State := s.reply c st c.refusalBody

/-- A reply OK without fields. -/
def State.ok (s : State) (c : Ctx) : State := s.reply c .ok []

/-- Pad bytes (R62). -/
def pad (n : Nat) : List Byte := List.replicate n 0

/-- The bytes of a word. -/
def wordBe (w : Word) : List Byte := toBe 4 w.toNat

/-- The bytes of a list of words. -/
def wordsBe (l : List Word) : List Byte := l.flatMap wordBe

/-- OK, or POISONED with a bitmap after the data when a returned word is poisoned (R56). -/
def State.replyData (s : State) (c : Ctx) (head : List Byte) (l : List (Word × Bool)) : State :=
  let data := head ++ l.flatMap fun (x : Word × Bool) => wordBe x.1
  if l.any (·.2) then
    let marks := (List.range ((l.length + 7) / 8)).map fun j =>
      BitVec.ofNat 8 ((List.range 8).foldl (fun a b => a + b2n ((l.getD (8 * j + b) (0, false)).2) * 2 ^ b) 0)
    s.reply c .poisoned (data ++ marks)
  else s.reply c .ok data

/-! ## Ring ports (R381 to R384) -/

/-- A ring port carries traffic: its link is up and its island runs (R382). -/
def State.ringPortUp (s : State) (p : Nat) : Bool := (s.ringPort p).link && (s.island (10 + p)).state == .run

/-- Some ring port carries traffic. -/
def State.ringUp (s : State) : Bool := s.ringPortUp 0 || s.ringPortUp 1

/-- EtherTypes and group addresses of the ring (R381). -/
def etCommand : BitVec 16 := 0x9C4A
def etStation : BitVec 16 := 0x9C4B
def etPtp : BitVec 16 := 0x88F7
def etSupervision : BitVec 16 := 0x892F
def groupCommand : BitVec 48 := 0x014E56000010
def groupStation : BitVec 48 := 0x014E56000001
def groupPtp : BitVec 48 := 0x011B19000000
def groupSupervision : BitVec 48 := 0x01154E000100

/-- A station frame goes to its group address (R381). -/
def isStation (f : HsrFrame) : Bool := f.etherType == etStation && f.dest == groupStation

/-- A frame as port `p` sends it (R380), from destination address to FCS, which stands as zeros: the HSR tag, which is the EtherType 892Fh, PathId and
size of what it tags, and the sequence number, stands before the frame's own EtherType (IEC 62439-3; PRESUMED, log 27). -/
def ringBytes (f : HsrFrame) (p : Nat) : List Byte :=
  toBe 6 f.dest.toNat ++ toBe 6 f.source.toNat ++ toBe 2 etSupervision.toNat ++
    toBe 2 ((Config.pathId p).toNat * 4096 + (6 + f.payload.length) % 4096) ++ toBe 2 f.seq.toNat ++ toBe 2 f.etherType.toNat ++ f.payload ++
    pad (40 - f.payload.length) ++ pad 4

/-- The time that a frame takes on the link of a port, in ns, with preamble and gap: 11.9 µs for 1,464 bytes at 1000BASE-T (R384), ten times that at
100BASE-TX. -/
def RingPort.frameNs (x : RingPort) (p : Nat) (f : HsrFrame) : Nat := ((ringBytes f p).length + 20) * (if x.gigabit then 8 else 80)

/-- Puts a frame in its place among those that wait: station frames go ahead of every other (R384). -/
def placeFrame (f : HsrFrame) : List HsrFrame → List HsrFrame
  | [] => [f]
  | g :: l => if isStation f && !isStation g then f :: g :: l else g :: placeFrame f l

/-- What a port has sent by `now`: each waiting frame starts where the one before it ends. -/
def RingPort.sentBy (x : RingPort) (p now : Nat) : List HsrFrame → RingPort
  | [] => { x with queue := [] }
  | f :: l => if x.busyUntil ≤ now then { x with onLink := some f, busyUntil := x.busyUntil + x.frameNs p f }.sentBy p now l else { x with queue := f :: l }

/-- A port takes a frame to send (R384): at once on an idle link, else in its place among the waiting ones. -/
def RingPort.take (x : RingPort) (p now : Nat) (f : HsrFrame) : RingPort :=
  let x := x.sentBy p now x.queue
  if x.queue == [] && x.busyUntil ≤ now then { x with onLink := some f, busyUntil := now + x.frameNs p f }
  else { x with queue := placeFrame f x.queue }

/-- A frame with this payload is no longer than a port transmits: 1,464 bytes with the 24 of its addresses, HSR tag, EtherType and FCS (R380). -/
def ringFits (payload : List Byte) : Bool := payload.length + 24 ≤ 1464

/-- A frame goes to a ring port, which sends nothing while it is down (R382) and no frame longer than 1,464 bytes (R380). -/
def State.portTx (s : State) (p : Nat) (f : HsrFrame) : State :=
  if s.ringPortUp p && ringFits f.payload then s.modRingPort p fun x => x.take p s.now f else s

/-- The module sends a frame on the ring: on both ports, with the same number in the HSR tag (R380); where one of them is down, the other carries it
(R382). -/
def State.sendRing (s : State) (dest : BitVec 48) (etherType : BitVec 16) (payload : List Byte) : State :=
  let f : HsrFrame := { source := s.mram.mac, dest := dest, seq := s.ring.hsrSeq, etherType := etherType, payload := payload }
  let s := { s with ring := { s.ring with hsrSeq := s.ring.hsrSeq + 1 } }
  (s.portTx 0 f).portTx 1 f

/-- KIND of a station frame, and its body (R383). -/
def stationKind : StationBody → Nat
  | .trip .. => 1
  | .heartbeat .. => 2
  | .announce .. => 3
def stationBody : StationBody → List Byte
  | .trip code tripped t states =>
    toBe 1 code.toNat ++ toBe 1 (b2n tripped) ++ pad 2 ++ toBe 8 t ++ (List.range 32).map fun k => (states >>> (8 * k)).truncate 8
  | .heartbeat target sideB state claim epoch last =>
    toBe 2 target.toNat ++ toBe 1 (b2n sideB) ++ toBe 1 state.toNat ++ toBe 1 (b2n claim) ++ pad 3 ++ toBe 4 epoch.toNat ++ toBe 4 last.toNat
  | .announce ring position provisional =>
    toBe 1 ring.toNat ++ toBe 1 position.toNat ++ toBe 1 (b2n provisional) ++ pad 1

/-- The bytes of a station frame (R383). -/
def stationFrameBytes (f : StationFrame) : List Byte :=
  toBe 1 (stationKind f.body) ++ toBe 1 1 ++ toBe 2 f.address.toNat ++ toBe 8 f.serial.toNat ++ toBe 4 f.seq.toNat ++ stationBody f.body

/-- SEQ counts the frames of each kind that are sent (R383). -/
def Ring.nextStation (r : Ring) : StationBody → BitVec 32 × Ring
  | .trip .. => (r.tripSeq + 1, { r with tripSeq := r.tripSeq + 1 })
  | .heartbeat .. => (r.hbSeq + 1, { r with hbSeq := r.hbSeq + 1 })
  | .announce .. => (r.annSeq + 1, { r with annSeq := r.annSeq + 1 })

/-- An addressed module sends a station frame (R383), on both ports ahead of every other waiting frame (R384). -/
def State.sendStation (s : State) (body : StationBody) : State :=
  if !s.mram.addressed || !s.ringUp then s
  else
    let (seq, r) := s.ring.nextStation body
    let f : StationFrame := { address := s.mram.address.zeroExtend 16, serial := s.mram.serial, seq := seq, body := body }
    { s with ring := r }.sendRing groupStation etStation (stationFrameBytes f)

/-! ## Acceptance (R42) -/

/-- How the state of the module bears on a command (R42 check 10; R53, R54). -/
inductive CmdKind where
  /-- a read that no pair state refuses, a pair command, or a command about the module's own keys, records and start-up -/
  | local_
  /-- a read of process data or totals (R53) -/
  | data
  /-- a write, force, output or configuration command (R53) -/
  | change
  deriving DecidableEq, Repr

/-- The roles of R44. -/
inductive Role where
  | observe | operate | engineer | maintain
  deriving DecidableEq, Repr

/-- The bit of a role in a key slot's mask (R44). -/
def Role.bit : Role → Nat
  | .observe => 0
  | .operate => 1
  | .engineer => 2
  | .maintain => 3

/-- A row of the opcode catalogue (R62 to R75): the opcode, the roles of which one is needed (none: no role), the class,
the rule on the payload's length and how the state bears on it. -/
structure CmdDesc where
  code : BitVec 16
  roles : List Role
  cls : BitVec 8 := 2
  fits : List Byte → Bool
  kind : CmdKind

/-- SUP answers: its firmware is verified, it does not restart in place and the module is neither off nor halted (R33, R59,
R393, R407). -/
def State.supAnswers (s : State) : Bool :=
  s.power.supOk && (s.island 16).state != .restarting && s.service != .off &&
    s.service != .halted

/-- The island of a transport restarts in place, or the module left service for it, or the link of a ring port is down: nothing comes or goes by
it (R33, R382). -/
def State.portDown (s : State) (p : Port) : Bool :=
  match p with
  | .ringA => !s.ringPortUp 0
  | .ringB => !s.ringPortUp 1
  | .causeway => (s.island 14).state == .restarting || (s.island 14).state == .faulted
  | .svc => (s.island 15).state == .restarting || (s.island 15).state == .faulted

/-- No packet can leave for a transport: a ring packet leaves by both ports, so only with both of them down (R33, R382). -/
def State.pathDown (s : State) (p : Port) : Bool :=
  match p with
  | .ringA | .ringB => s.portDown .ringA && s.portDown .ringB
  | q => s.portDown q

/-- All eight key slots are empty (R45). -/
def State.keysEmpty (s : State) : Bool := (List.range 8).all fun i => !(s.key i).installed

/-- SERIAL = 1 with a matching serial. -/
def State.serialMatch (s : State) (p : Packet) : Bool := p.flag 3 && 8 ≤ p.payload.length && p.serial == s.mram.serial

/-- ENUMERATE, IDENTIFY and CONFIRM_ADDRESS. -/
def opEnumerate : BitVec 16 := 0x0105
def opIdentify : BitVec 16 := 0x0100
def opConfirm : BitVec 16 := 0x0106
def opKeyInstall : BitVec 16 := 0x0E00

/-- Check 2 of R42. -/
def State.selected (s : State) (p : Packet) : Bool :=
  if p.opcode == opEnumerate && p.target == 0xFFFF then true
  else if s.mram.addressed then p.target == s.mram.address.zeroExtend 16 || s.serialMatch p
  else s.serialMatch p && (p.opcode == opIdentify || p.opcode == opConfirm)

/-- Check 4 of R42: the role mask under which the request runs, or none when it is dropped (R43, R45). -/
def State.authorise (s : State) (p : Packet) : Option (BitVec 4) :=
  if p.tagged then
    if p.opcode == opEnumerate then none
    else if p.keyslot.toNat < 8 && (s.key p.keyslot.toNat).installed && p.auth == p.mac (s.key p.keyslot.toNat).key then
      some (s.key p.keyslot.toNat).roles
    else none
  else if p.port == .svc && s.keysEmpty then some 15
  else if p.opcode == opIdentify || p.opcode == opEnumerate then some 0
  else none

/-- The replay memory of a pair of ORIGIN and KEYSLOT (R47). After a restart of SUP every SEQ from H − 63 to H counts as accepted before, also one that was
never sent: what SUP had accepted is not known any more (DESIGN CHOICE, log 142). -/
def State.replayOf (s : State) (origin : BitVec 16) (slot : Nat) : Replay :=
  let k := origin.toNat * 8 + slot
  if s.sup.replay.any (fun e => e.1 == k) then s.sup.replay.get {} k
  else if s.sup.bumped.getLsbD slot then
    { h := BitVec.ofNat 32 (satNat 32 ((s.mram.hStored.get 0 k).toNat + 4096)), seen := BitVec.allOnes 64 }
  else { h := s.mram.hStored.get 0 k, seen := 0 }

/-- Check 5 of R42: SEQ inside the replay window (R47). -/
def Replay.admits (r : Replay) (seq : BitVec 32) : Bool :=
  seq != 0 && (decide (r.h < seq) || (r.h.toNat - seq.toNat ≤ 63 && !r.seen.getLsbD (r.h.toNat - seq.toNat)))

/-- The replay memory after SEQ is accepted (R47): bit i of `seen` stands for H − i. -/
def Replay.accept (r : Replay) (seq : BitVec 32) : Replay :=
  if r.h < seq then { h := seq, seen := (r.seen <<< (seq.toNat - r.h.toNat)) ||| 1 }
  else { r with seen := r.seen ||| ((1 : BitVec 64) <<< (r.h.toNat - seq.toNat)) }

/-- Records SEQ as accepted, and H in MRAM each time it has advanced by 4,096 (R47). -/
def State.acceptSeq (s : State) (p : Packet) : State :=
  let k := p.origin.toNat * 8 + p.slot
  let r := (s.replayOf p.origin p.slot).accept p.seq
  let stored := s.mram.hStored.get 0 k
  let m := if stored.toNat + 4096 ≤ r.h.toNat then { s.mram with hStored := s.mram.hStored.set 0 k r.h } else s.mram
  { s with sup := { s.sup with replay := s.sup.replay.put k r }, mram := m }

/-- One dropped packet more in FORMAT_DROPS (R61). -/
def State.countFormat (s : State) : State :=
  { s with sup := { s.sup with counters := { s.sup.counters with formatDrops := satInc s.sup.counters.formatDrops } } }

/-- One dropped packet more in AUTH_FAILS (R61). -/
def State.countAuth (s : State) : State :=
  { s with sup := { s.sup with counters := { s.sup.counters with authFails := satInc s.sup.counters.authFails } } }

/-- The reply REPLAY, with H (R47); after it the FAIL_INDEX that a WRITE_OBJECT carries whatever its status (R429, log 94). -/
def State.replyReplay (s : State) (c : Ctx) (h : BitVec 32) : State :=
  let s := { s with sup := { s.sup with counters := { s.sup.counters with replays := satInc s.sup.counters.replays } } }
  s.owe c .replay s.shownCycle (toBe 4 h.toNat ++ c.refusalBody) false

/-- The reply BUSY (R48), counted in BUSY_REPLIES (R61). -/
def State.replyBusy (s : State) (c : Ctx) (counts : Bool) : State :=
  let s := { s with sup := { s.sup with counters := { s.sup.counters with busy := satInc s.sup.counters.busy } } }
  s.owe c .busy s.shownCycle c.refusalBody counts

/-- WINDOW of object 0040h (R61). -/
def State.windowSize (s : State) : Nat := bits (s.cfg 0x40 0) 7 0

/-- IDLE_CLOSE of object 0040h, in seconds (R61). -/
def State.idleCloseS (s : State) : Nat := bits (s.cfg 0x40 0) 15 8

/-- Check 6 of R42: takes a place in the origin's window, or opens one (R48); none when the command is to be answered
BUSY, as it also is while the origin is held under R31. -/
def State.takePlace (s : State) (origin : BitVec 16) : Option State :=
  match s.sup.windows.find? (·.origin == origin) with
  | some w =>
    if w.heldUntil.isSome || w.size ≤ w.used then none
    else some { s with sup := { s.sup with windows := s.sup.windows.map fun v =>
        if v.origin == origin then { v with used := v.used + 1, lastAt := s.now } else v } }
  | none =>
    if 32 ≤ s.sup.windows.length then none
    else some { s with sup := { s.sup with windows := s.sup.windows ++
        [{ origin := origin, size := s.windowSize, used := 1, idleClose := s.idleCloseS, lastAt := s.now,
           heldUntil := none }] } }

/-- A request whose packets are all there: what a reply needs, its payload without the serials, the FLAGS of all its packets together, and
whether one of them is too short for the serial it promises (R41, R55). -/
structure Request where
  ctx : Ctx
  payload : List Byte
  flags : BitVec 8
  short : Bool := false

/-- Collects a packet of a multi-packet request (R55): a request is complete with its first packet without MORE. More than
16 packets are a wrong sequence. The place in the window is taken with the first packet. Every packet gives up its serial, and a reserved
flag of any of them counts (R41). The reply carries SEQ and KEYSLOT of the packet that came last (log 113). -/
def State.collect (s : State) (p : Packet) (c : Ctx) : State × Option Request :=
  match s.sup.partials.find? (fun q => q.ctx.origin == p.origin && q.ctx.tag == p.tag && q.ctx.opcode == p.opcode) with
  | some q =>
    let rest := s.sup.partials.filter fun r =>
      !(r.ctx.origin == p.origin && r.ctx.tag == p.tag && r.ctx.opcode == p.opcode)
    let s' := { s with sup := { s.sup with partials := rest } }
    let payload := q.payload ++ p.body
    let flags := q.flags ||| p.flags
    let short := q.short || p.serialShort
    if p.flag 5 then
      if 16 ≤ q.packets + 1 then (s'.refuse c .badLength, none)
      else ({ s' with sup := { s'.sup with partials := rest ++
          [{ q with ctx := c, packets := q.packets + 1, payload := payload, flags := flags, short := short }] } }, none)
    else (s', some { ctx := c, payload := payload, flags := flags, short := short })
  | none =>
    match s.takePlace p.origin with
    | none => (s.replyBusy c false, none)
    | some s' =>
      if p.flag 5 then
        ({ s' with sup := { s'.sup with partials := s'.sup.partials ++
            [{ ctx := c, packets := 1, payload := p.body, firstAt := s.now, flags := p.flags, short := p.serialShort }] } }, none)
      else (s', some { ctx := c, payload := p.body, flags := p.flags, short := p.serialShort })

/-- The partner's address that a STANDBY reply carries (R53). -/
def State.partnerBytes (s : State) : List Byte := toBe 2 s.pair.partner.toNat

/-- TOTAL_READ. -/
def opTotalRead : BitVec 16 := 0x0D00

/-- The totals that the module holds are its own stored ones, not those of its pair: they are not published (R315, R332). -/
def State.totalsForeign (s : State) : Bool := s.pair.state == .stale || (s.pair.state == .syncing && !s.pair.adopted)

/-- Check 10 of R42 (R53, R54, R404): what the state of the module answers instead of executing. WRITE_OBJECT, which asks
one of two roles, is judged word by word (R54, R59). -/
def State.stateRefusal (s : State) (d : CmdDesc) : Option (Status × List Byte) :=
  if s.power.warning.isSome then some (.wrongState, [])
  else if s.service != .full && (d.roles == [.operate] || d.roles == [.engineer]) then some (.wrongState, [])
  else if d.kind == .change && s.standby then some (.standby, s.partnerBytes)
  else if d.kind == .data && s.pair.state == .stale then some (.pairStale, [])
  else if d.code == opTotalRead && s.totalsForeign then some (.pairStale, [])
  else none

/-- Check 8 of R42, with R46. -/
def Ctx.holds (c : Ctx) (d : CmdDesc) : Bool :=
  (d.roles == [] || d.roles.any fun r => c.roles.getLsbD r.bit) && (d.code != opKeyInstall || c.port == .svc)

/-- The acceptance checks of R42 in their order. Answers the state after them and, when every check passes, the request. REPLY and EVENT
of a packet that arrives bear on no check (log 89). SEQ counts as accepted from check 5 on, whatever the later checks say (log 88). -/
def State.accept (s : State) (p : Packet) (d : CmdDesc) (known : Bool) : State × Option Request :=
  if !s.supAnswers || s.portDown p.port then (s, none)
  else if !p.formatOk then (s.countFormat, none)
  else if !s.selected p then (s, none)
  else if !p.lengthOk then (s.countFormat, none)
  else match s.authorise p with
  | none => (s.countAuth, none)
  | some roles =>
    let c := { p.ctx d.cls roles with gen := s.sup.gen }
    if d.code == opEnumerate then
      (s, if p.flags.toNat % 8 == 0 && d.fits p.body && (s.stateRefusal d).isNone then some { ctx := c, payload := p.body, flags := p.flags } else none)
    else
      let r := s.replayOf p.origin p.slot
      if !r.admits p.seq then (s.replyReplay c r.h, none)
      else match (s.acceptSeq p).collect p c with
      | (s, none) => (s, none)
      | (s, some q) =>
        if !known then (s.refuse c .badOpcode, none)
        else if q.flags.toNat % 8 != 0 then (s.refuse c .badLength, none)
        else if !c.holds d then (s.refuse c .notAuthorised, none)
        else if !d.fits q.payload || q.short then (s.refuse c .badLength, none)
        else match s.stateRefusal d with
        | some (st, body) => (s.reply c st (body ++ c.refusalBody), none)
        | none => (s, some q)

/-- A command packet: the acceptance checks, then the command's own effect. A packet with another opcode is not this
command's. -/
def State.command (s : State) (p : Packet) (d : CmdDesc) (run : Ctx → List Byte → State → State) : Out :=
  if p.opcode != d.code then .next s
  else match s.accept p d true with
  | (s, none) => .next s
  | (s, some q) => .next (run q.ctx q.payload s)

/-- The payload has exactly `n` bytes. -/
def exact (n : Nat) (l : List Byte) : Bool := l.length == n

end Sys2Proof.Machine
end

