-- ==== Sys2Proof/Machine/Flags.lean ====
section
/-! DEFINITION. What instructions do to the registers of an engine: the logic chain (R111), brackets (R112), poison (R131), arithmetic
with its overflow flags (R116, R117) and comparisons (R118). -/

namespace Sys2Proof.Machine

open Sys2Proof

/-- The three ways of combining bits (R111). -/
inductive BitOp where
  | and_ | or_ | xor_
  deriving DecidableEq, Repr

/-- The value of a combination. -/
def BitOp.run : BitOp → Bool → Bool → Bool
  | .and_, a, b => a && b
  | .or_, a, b => a || b
  | .xor_, a, b => Bool.xor a b

/-- Loads CB (R111): the poison flag is that of the value (R131). A bit that is still under way to CB is not waited for any more (R115). -/
def Engine.load (x : Engine) (v p : Bool) : Engine := { x with cb := v, cbP := p, chs := false, bitAt := 0 }

/-- Combines a value into CB: with CHS = 1 it loads, else it combines and no value masks poison (R111, R131). -/
def Engine.combine (x : Engine) (op : BitOp) (v p : Bool) : Engine :=
  if x.chs then x.load v p else { x with cb := op.run x.cb v, cbP := x.cbP || p, chs := false }

/-- Ends a chain: CB stays, CHS is 1 (R111). -/
def Engine.chain (x : Engine) : Engine := { x with chs := true }

/-- Pushes a bracket: the pending operation is LOAD when CHS was 1 (R112). -/
def Engine.openBracket (x : Engine) (op : NestOp) : Engine :=
  { x with nest := { cb := x.cb, cbP := x.cbP, op := if x.chs then .load else op } :: x.nest, chs := true }

/-- CB after a close (R112). -/
def NestOp.result : NestOp → Bool → Bool → Bool
  | .load, _, r => r
  | .and_, s, r => s && r
  | .andn, s, r => s && !r
  | .or_, s, r => s || r
  | .orn, s, r => s || !r
  | .xor_, s, r => Bool.xor s r
  | .xorn, s, r => Bool.xor s (!r)

/-- Pops a bracket and combines (R112). -/
def Engine.closeBracket (x : Engine) (n : Nest) (rest : List Nest) : Engine :=
  { x with cb := n.op.result n.cb x.cb, cbP := if n.op = .load then x.cbP else n.cbP || x.cbP, chs := false, nest := rest }

/-- Moves WA to WB and loads WA (R114: LW, LWI). -/
def Engine.loadWa (x : Engine) (w : Word) (p : Bool) : Engine := { x with wb := x.wa, wbP := x.waP, wa := w, waP := p }

/-- Sets OVF, and OVS with it (R105). -/
def Engine.overflow (x : Engine) : Engine := { x with ovf := true, ovs := true }

/-- An exact result into WA: within range OVF falls, else WA saturates and OVF and OVS rise (R116). `p` is the poison of
the operands used (R131). -/
def Engine.result (x : Engine) (v : Int) (p : Bool) : Engine :=
  let y := { x with wa := ofI (sat32 v), waP := p }
  if int32Min ≤ v ∧ v ≤ int32Max then { y with ovf := false } else y.overflow

/-- Arithmetic on WB and WA. -/
def Engine.binary (x : Engine) (f : Int → Int → Int) : Engine := x.result (f (sInt x.wb) (sInt x.wa)) (x.waP || x.wbP)

/-- A division by zero (R117): OVF, OVS and DIV_ZERO, and the value the rule gives. -/
def Engine.divZero_ (x : Engine) (v : Word) : Engine :=
  { x.overflow with wa := v, waP := x.waP || x.wbP, divZero := satInc x.divZero }

/-- DIV (R114, R116, R117). -/
def Engine.div_ (x : Engine) : Engine :=
  if x.wa = 0 then x.divZero_ (if sInt x.wb = 0 then 0 else if 0 < sInt x.wb then 0x7FFFFFFF else 0x80000000)
  else x.binary Int.tdiv

/-- REM: never overflows but by zero, where it returns 0 (R116, R117). -/
def Engine.rem_ (x : Engine) : Engine :=
  if x.wa = 0 then x.divZero_ 0
  else { x with wa := ofI (Int.tmod (sInt x.wb) (sInt x.wa)), waP := x.waP || x.wbP, ovf := false }

/-- A comparison of WB with WA, combined by AND (R114, R118). -/
def Engine.compare_ (x : Engine) (f : Int → Int → Bool) : Engine :=
  x.combine .and_ (f (sInt x.wb) (sInt x.wa)) (x.waP || x.wbP)

/-- The registers at the start of a block (R106). -/
def Engine.blockRegs (x : Engine) : Engine :=
  { x with cb := false, cbP := false, chs := true, wa := 0, waP := false, wb := 0, wbP := false, ovf := false, ovs := false,
           nest := [], calls := [], loadAt := 0, bitAt := 0 }

/-- The three kinds of edge-triggered firing and reporting: which change of a bit is an edge (R121). -/
inductive EdgeKind where
  | rising | falling
  deriving DecidableEq, Repr

/-- Whether value `v` against edge bit `e` is the edge (R121). -/
def EdgeKind.seen : EdgeKind → Bool → Bool → Bool
  | .rising, v, e => v && !e
  | .falling, v, e => !v && e

end Sys2Proof.Machine
end

