-- ==== Sys2Proof/Machine/Square.lean ====
section
/-! DEFINITION. The Town Square as the 6 MiB array of R431: where each word of each area stands, reading and writing one
word with its poison mark (R339, R345), copying, and who owns a word (R85). -/

namespace Sys2Proof

/-- Copies `n` entries from `src` on to `dst` on, replacing what stood there. -/
def Tab.copyRange {α : Type} [DecidableEq α] (d : α) (t : Tab α) (src dst n : Nat) : Tab α :=
  (t.filter fun e => decide (src ≤ e.1 ∧ e.1 < src + n)).foldl (fun u e => Tab.set d u (e.1 - src + dst) e.2)
    (t.filter fun e => !decide (dst ≤ e.1 ∧ e.1 < dst + n))

/-- Clears `n` entries from `a` on. -/
def Tab.clearRange {α : Type} (t : Tab α) (a n : Nat) : Tab α := t.filter fun e => !decide (a ≤ e.1 ∧ e.1 < a + n)

end Sys2Proof

namespace Sys2Proof.Machine

open Sys2Proof

/-- KiB. -/
def kib (n : Nat) : Nat := n * 1024

/-- Byte addresses of the parts of the Town Square (R77, R431). -/
def sqCommitted : Nat := kib 2048
def sqI : Nat := kib 4096
def sqNIn : Nat := kib 4224
def sqNOut : Nat := kib 4480
def sqLOut : Nat := kib 4736
def sqLSet : Nat := kib 4768
def sqT : Nat := kib 4800
def sqC : Nat := kib 4864
def sqE : Nat := kib 4896
def sqZ : Nat := kib 5024
def sqK : Nat := kib 5028
def sqS : Nat := kib 5540
def sqTables : Nat := kib 5668
def sqEnd : Nat := kib 6144

/-! ## One word (R339, R345) -/

/-- Nothing has written the byte since the array was sealed (R352). -/
def Square.fresh (q : Square) (a : Nat) : Bool := q.scratch.any fun r => r.1 ≤ a && a < r.2

/-- The byte at an address: one that nothing has written since the array was sealed is unpredictable (R352). -/
def Square.byte (q : Square) (a : Nat) : Byte := if q.fresh a then Config.unwritten q.seals a else q.mem.get 0 a

/-- The byte holds the stored-poison pattern: a write left it, or the seal where nothing has written it (R345, R351, R352). -/
def Square.marked (q : Square) (a : Nat) : Bool := if q.fresh a then Config.unwrittenPoison q.seals a else q.poison.get false a

/-- The word at byte address `a`, most significant byte first (DESIGN CHOICE, log 3). -/
def Square.word (q : Square) (a : Nat) : Word :=
  BitVec.ofNat 32 ((q.byte a).toNat * 2 ^ 24 + (q.byte (a + 1)).toNat * 2 ^ 16 + (q.byte (a + 2)).toNat * 2 ^ 8 + (q.byte (a + 3)).toNat)

/-- A word is poisoned when any of its bytes is (R345). -/
def Square.poisoned (q : Square) (a : Nat) : Bool := q.marked a || q.marked (a + 1) || q.marked (a + 2) || q.marked (a + 3)

/-- The ranges of a list without the bytes `lo` to `hi − 1`. -/
def cutRange (l : List (Nat × Nat)) (lo hi : Nat) : List (Nat × Nat) :=
  l.flatMap fun r => [(r.1, min r.2 lo), (max r.1 hi, r.2)].filter fun r => decide (r.1 < r.2)

/-- The bytes `lo` to `hi − 1` are written from now on (R352). -/
def Square.wrote (q : Square) (lo hi : Nat) : Square := { q with scratch := cutRange q.scratch lo hi }

/-- What stands in some runs of bytes stays; the rest of the array is cleared. -/
def Square.only (q : Square) (l : List (Nat × Nat)) : Square :=
  let inside := fun (a : Nat) => l.any fun r => decide (r.1 ≤ a ∧ a < r.2)
  { q with mem := q.mem.filter fun e => inside e.1, poison := q.poison.filter fun e => inside e.1
           scratch := l.flatMap fun r => (q.scratch.map fun x => (max x.1 r.1, min x.2 r.2)).filter fun x => decide (x.1 < x.2) }

/-- Before a word is written in part, the rest of it is what stands there: nothing of it is unwritten afterwards (R352, log 31). -/
def Square.settleWord (q : Square) (a : Nat) : Square :=
  if !(q.fresh a || q.fresh (a + 1) || q.fresh (a + 2) || q.fresh (a + 3)) then q
  else
    let b := [a, a + 1, a + 2, a + 3]
    let t := b.foldl (fun (t : Square) k => { t with mem := t.mem.set 0 k (q.byte k), poison := t.poison.set false k (q.marked k) }) q
    t.wrote a (a + 4)

/-- Writes one byte, leaving the poison marks. -/
def Square.putByte (q : Square) (a : Nat) (b : Byte) : Square := { q with mem := q.mem.set 0 a b }

/-- Marks or clears the mark of one byte. -/
def Square.markByte (q : Square) (a : Nat) (p : Bool) : Square := { q with poison := q.poison.set false a p }

/-- Marks or clears the mark of the four bytes of a word. -/
def Square.markWord (q : Square) (a : Nat) (p : Bool) : Square :=
  (((q.markByte a p).markByte (a + 1) p).markByte (a + 2) p).markByte (a + 3) p

/-- Writes the four bytes of a word. -/
def Square.putBytes (q : Square) (a : Nat) (w : Word) : Square :=
  (((q.putByte a (BitVec.ofNat 8 (bits w 31 24))).putByte (a + 1) (BitVec.ofNat 8 (bits w 23 16))).putByte (a + 2)
    (BitVec.ofNat 8 (bits w 15 8))).putByte (a + 3) (BitVec.ofNat 8 (bits w 7 0))

/-- Writes one word: a clean value clears the marks of its bytes, a poisoned one marks every byte (R345). -/
def Square.put (q : Square) (a : Nat) (w : Word) (p : Bool) : Square := ((q.wrote a (a + 4)).putBytes a w).markWord a p

/-- Writes bit `b` of the word at `a`. A clean bit clears the mark of its byte, a poisoned one marks the word (R345;
DEDUCED, log 5). -/
def Square.putBit (q : Square) (a b : Nat) (v p : Bool) : Square :=
  let q := q.settleWord a
  let w := setBit (q.word a) b v
  let byte := a + 3 - b / 8
  let q := q.putByte byte (BitVec.ofNat 8 (bits w (b / 8 * 8 + 7) (b / 8 * 8)))
  if p then q.markWord a true else q.markByte byte false

/-- Writes a run of words from `a` on, all clean. -/
def Square.putWords (q : Square) (a : Nat) : List Word → Square
  | [] => q
  | w :: l => (q.put a w false).putWords (a + 4) l

/-- What is unwritten of `n` bytes from `src` on, as it stands from `dst` on. -/
def Square.scratchFrom (q : Square) (src dst n : Nat) : List (Nat × Nat) :=
  (q.scratch.map fun r => (max r.1 src - src + dst, min r.2 (src + n) - src + dst)).filter fun r => decide (r.1 < r.2)

/-- Copies `n` bytes with their marks; what nothing has written is as unpredictable in the copy (R352). -/
def Square.copy (q : Square) (src dst n : Nat) : Square :=
  { q with mem := q.mem.copyRange 0 src dst n, poison := q.poison.copyRange false src dst n
           scratch := cutRange q.scratch dst (dst + n) ++ q.scratchFrom src dst n }

/-- Clears `n` bytes and their marks. -/
def Square.clear (q : Square) (a n : Nat) : Square :=
  { q with mem := q.mem.clearRange a n, poison := q.poison.clearRange a n, scratch := cutRange q.scratch a (a + n) }

/-- What a commit copies: from, to, bytes (R77, R80). -/
def commitSpans : List (Nat × Nat × Nat) :=
  [(0, sqCommitted, sqCommitted), (sqNOut, sqNOut + kib 128, kib 128), (sqLSet, sqLSet + kib 16, kib 16)]

/-- Words that are delivered with a mark (R343): whoever takes them takes the mark as well. -/
def Square.markAll (q : Square) (l : List Nat) : Square := l.foldl (fun (q : Square) b => (q.settleWord b).markWord b true) q

/-- The bytes that SQUARE copies at a commit: the declared space, the N output half and the L set-point half (R77, R80). -/
def Square.commitCopy (q : Square) : Square :=
  ((q.copy 0 sqCommitted sqCommitted).copy sqNOut (sqNOut + kib 128) (kib 128)).copy sqLSet (sqLSet + kib 16) (kib 16)

/-- An abandoned cycle's working copy gives way to the committed one (R34, R87). -/
def Square.revert (q : Square) : Square :=
  ((q.copy sqCommitted 0 sqCommitted).copy (sqNOut + kib 128) sqNOut (kib 128)).copy (sqLSet + kib 16) sqLSet (kib 16)

/-! ## The running image and where words stand (R76, R108, R431) -/

/-- The number of the running bank: 0 A, 1 B. -/
def State.runBankNo (s : State) : Nat := b2n s.mram.runBank

/-- A program runs from the running bank. -/
def State.loaded (s : State) : Bool := (s.bank s.runBankNo).state == .running

/-- What the loader read from the running image. -/
def State.image (s : State) : ImageDesc := if s.loaded then (s.bank s.runBankNo).desc else {}

/-- Words of area D: the remainder of the 2 MiB (R76). -/
def ImageDesc.dSize (d : ImageDesc) : Nat := (kib 2048 - 4096 - d.mBytes) / 4

/-- Which copy of a doubled area is meant: the working copy and the page of the latest freeze, or the committed copy and
the page of the last committed cycle (R77, R94). -/
inductive View where
  | work | done
  deriving DecidableEq, Repr

/-- The byte address of word `w` of an area, none where the area has no such word or is not held as bytes (R108, R431).
A last word of M that its declared bytes only begin is admitted whole (DESIGN CHOICE, log 164). -/
def State.wordAddr (s : State) (v : View) (a : Area) (w : Nat) : Option Nat :=
  let d := s.image
  let half := if v == .done then sqCommitted else 0
  let page := if v == .done then s.square.committedB else s.square.frozenB
  match a with
  | .I => if w < 16384 then some (sqI + b2n page * kib 64 + 4 * w) else none
  | .Q => if w < 1024 then some (half + 4 * w) else none
  | .M => if 4 * w < d.mBytes then some (half + 4096 + 4 * w) else none
  | .D => if w < d.dSize then some (half + 4096 + d.mBytes + 4 * w) else none
  | .E => if w < 32768 then some (sqE + 4 * w) else none
  | .K => if w < 65536 then some (sqK + s.runBankNo * kib 256 + 4 * w) else none
  | .S => if w < 16384 then some (sqS + b2n page * kib 64 + 4 * w) else none
  | .L =>
    if w < 4096 then some (sqLOut + b2n page * kib 16 + 4 * w)
    else if w < 8192 then some (sqLSet + (if v == .done then kib 16 else 0) + 4 * (w - 4096))
    else none
  | .N =>
    if w < 32768 then some (sqNIn + b2n page * kib 128 + 4 * w)
    else if w < 65536 then some (sqNOut + (if v == .done then kib 128 else 0) + 4 * (w - 32768))
    else none
  | .T | .C | .Z => none

/-- Areas with a working and a committed copy, by word: Q, M, D, the output half of N and the set-point half of L (R77). -/
def copied (a : Area) (w : Nat) : Bool :=
  match a with
  | .Q | .M | .D => true
  | .N => 32768 ≤ w
  | .L => 4096 ≤ w
  | _ => false

/-- Bit areas address words by 32 bits from a bit offset (R109). -/
def bitArea (a : Area) : Bool :=
  match a with
  | .I | .Q | .M | .E | .S => true
  | _ => false

/-- A word as the committed snapshot or the working copy holds it, with its mark. -/
def State.sqWord (s : State) (v : View) (a : Area) (w : Nat) : Word × Bool :=
  match s.wordAddr v a w with
  | some p => (s.square.word p, s.square.poisoned p)
  | none => (0, false)

/-- Bit `b` of an area of the page or copy. -/
def State.sqBit (s : State) (v : View) (a : Area) (b : Nat) : Bool := bit (s.sqWord v a (b / 32)).1 (b % 32)

/-- Writes a word of the working copy, or of the page of the latest freeze. -/
def State.putWork (s : State) (a : Area) (w : Nat) (x : Word) (p : Bool) : State :=
  match s.wordAddr .work a w with
  | some q => { s with square := s.square.put q x p }
  | none => s

/-- Writes a word of a copied area into both copies (R50, R92, R97). -/
def State.putBoth (s : State) (a : Area) (w : Nat) (x : Word) (p : Bool) : State :=
  let s := s.putWork a w x p
  match s.wordAddr .done a w with
  | some q => { s with square := s.square.put q x p }
  | none => s

/-! ## Owners and forces (R85, R97) -/

/-- Words of a timer, a counter or a total (R122, R126, R323): a unit is owned by the owner of its first word. -/
def unitWords (a : Area) : Nat := match a with | .T => 4 | .C | .Z => 2 | _ => 1

/-- The engine that owns a word in the running image (R85). -/
def State.owner (s : State) (a : Area) (w : Nat) : Option (Fin 4) :=
  (s.image.owners.find? fun o => o.area == a && o.first ≤ w && w < o.first + o.count).map (·.engine)

/-- The force that stands on a word, if one does (R96). A force holds a whole word; one that names a bit keeps the other bits
as they stood (DEDUCED, log 8). -/
def State.forceOn (s : State) (a : Area) (w : Nat) : Option Force :=
  s.mram.forces.find? fun f => f.area == a && f.offset == w

end Sys2Proof.Machine
end

