-- ==== Sys2Proof/Machine/Roundabout.lean ====
section
/-! DEFINITION. The Roundabout (chapter 05): firing, taking and delivering, the tasks of a source, the notifications to
subscribers, and the commands and events of the chapter. -/

namespace Sys2Proof.Machine

open Sys2Proof

/-! ## Configuration (R149) -/

/-- The configuration word of source `n`. -/
def State.sourceCfg (s : State) (n : Nat) : Word := s.cfg (0x200 + n / 256) (n % 256)

/-- ENABLE, PRIORITY, GROUPED, GROUP, TO_BLOCK and BLOCK of a source's configuration word. -/
def srcEnable (w : Word) : Bool := bit w 31
def srcPriority (w : Word) : Nat := bits w 30 28
def srcGrouped (w : Word) : Bool := bit w 22
def srcGroup (w : Word) : Nat := bits w 21 16
def srcToBlock (w : Word) : Bool := bit w 15
def srcBlock (w : Word) : Nat := bits w 5 0

/-- SUBSCRIBERS of source `n`. -/
def State.subscribers (s : State) (n : Nat) : Nat := bits (s.cfg (0x202 + n / 256) (n % 256)) 15 0

/-- N and T (in ns) of group `g` (R149). -/
def State.groupN (s : State) (g : Nat) : Nat := bits (s.cfg 0x210 g) 25 16
def State.groupTNs (s : State) (g : Nat) : Nat := bits (s.cfg 0x210 g) 15 0 * 10000

/-! ## Notifications (R148) -/

/-- The next SEQ of a slot: after FFFF_FFFFh comes 1 (R148). -/
def nextSeq (q : BitVec 32) : BitVec 32 := if q = BitVec.allOnes 32 then 1 else q + 1

/-- The payload of an EVENT packet (R66, R148). -/
def eventPayload (n : Nat) (w : Word) (x : Source) : List Byte :=
  toBe 2 n ++ toBe 1 (if srcGrouped w then srcGroup w else 255) ++ toBe 1 (srcPriority w) ++ toBe 4 x.fc.toNat ++
    toBe 4 x.co.toNat ++ toBe 8 x.firstTime

/-- Puts a notice in the queue of a slot: of 64 at most, a new one takes the place of the same source's, or else of the
oldest (R148). It stands last, and of several of its source the oldest gives way (DESIGN CHOICE, log 166). -/
def Slot.enqueue (x : Slot) (m : Notice) : Slot :=
  if x.queue.length < 64 then { x with queue := x.queue ++ [m] }
  else
    let rest := if x.queue.any (·.source == m.source) then x.queue.eraseP (·.source == m.source) else x.queue.drop 1
    { x with queue := rest ++ [m], dropped := satInc x.dropped }

/-- Hands the EVENT notification of source `n` to SUP for slot `k`; a slot that is free completes without sending (R147).
Key slot, AUTH and port of the packet are those of this moment, also where the slot is renewed before it leaves, and CYCLE where no cycle runs is 0 (DESIGN
CHOICE, log 166). -/
def State.notify (s : State) (n : Nat) (x : Source) (k : Nat) : State :=
  let sl := s.slot k
  if !sl.inUse then s
  else
    let w := s.sourceCfg n
    let q := nextSeq sl.seq
    let m : Notice := { port := sl.port, opcode := 0x0381, target := sl.origin, keyslot := sl.keyslot, tagged := sl.auth, peer := sl.peer,
                        seq := q, cycle := s.shownCycle, priority := srcPriority w, order := s.sup.ready, source := n,
                        payload := eventPayload n w x }
    let s := s.setSlot k ({ sl with seq := q }.enqueue m)
    { s with sup := { s.sup with ready := s.sup.ready + 1 } }

/-! ## Taking (R139, R142, R144) -/

/-- The event block that the running image numbers `b` (R144). -/
def ImageDesc.eventBlock (d : ImageDesc) (b : Nat) : Option Block := d.blocks.find? (·.event == some b)

/-- The block part of source `n`'s task: a Class 1 message to the engine of the event block, or a miss (R144, R145). With no program loaded
it waits for the first execute (R146). -/
def State.takeBlock (s : State) (n : Nat) (w : Word) : State :=
  if !srcToBlock w then s
  else if !s.loaded then
    let s := s.modSource n fun x => { x with blockPart := some (0, srcBlock w) }
    { s with round := { s.round with parked := s.round.parked ++ [n] } }
  else match s.image.eventBlock (srcBlock w) with
  | none => { s with round := { s.round with blockMisses := s.round.blockMisses + 1 } }
  | some b => (s.modSource n fun x => { x with blockPart := some (b.engine.val, srcBlock w) }).postMessage 5 b.engine.val 1
      (.blockPart n)

/-- Takes source `n`: P falls, ACTIVE rises and SV counts in one clock; its parts go out. A task with neither part
completes at once (R139, R144). -/
def State.take (s : State) (n : Nat) : State :=
  let w := s.sourceCfg n
  let x := s.source n
  let subs := s.subscribers n
  let s := s.setSource n { x with p := false, active := srcToBlock w || subs != 0, sv := x.sv + 1, takePrio := srcPriority w,
                                  blockPart := none }
  let s := s.takeBlock n w
  s.each ((List.range 16).filter fun k => subs.testBit k) fun s k => s.notify n x k

/-- Delivers group `g`: every enabled member with P = 1 and ACTIVE = 0 is taken, COUNT and AGE go to 0 (R142). -/
def State.deliver (s : State) (g : Nat) : State :=
  let members := (s.round.sources.filter fun e =>
    let w := s.sourceCfg e.1
    srcEnable w && srcGrouped w && srcGroup w == g && e.2.p && !e.2.active).map (·.1)
  let s := s.modGroup g fun x => { x with count := 0, ageFrom := none, deliveries := x.deliveries + 1 }
  s.each members State.take

/-- A firing of time `t` counted towards its group, whose AGE runs from the time of the first one (R140), or the take of an ungrouped
source (R141, R142). -/
def State.countFiring (s : State) (n t : Nat) : State :=
  let w := s.sourceCfg n
  if !srcEnable w then s
  else if !srcGrouped w then (if (s.source n).p && !(s.source n).active then s.take n else s)
  else
    let g := srcGroup w
    let s := s.modGroup g fun x => { x with count := x.count + 1, ageFrom := some (x.ageFrom.getD t) }
    if s.groupN g ≤ (s.group g).count then s.deliver g else s

/-- A firing of source `n` at time `t` (R138): FC counts; P rises with FIRST_TIME, or CO counts. -/
def State.fireNow (s : State) (n : Nat) (t : Nat) : State :=
  let x := s.source n
  let x := if x.p then { x with fc := x.fc + 1, co := x.co + 1 } else { x with fc := x.fc + 1, p := true, firstTime := t }
  (s.setSource n x).countFiring n t

/-- ACTIVE of source `n` returns to 0; a pending enabled source is taken again at once, for a grouped one as a delivery of
its group (R143, R144). -/
def State.completeTask (s : State) (n : Nat) : State :=
  let s := s.modSource n fun x => { x with active := false }
  let w := s.sourceCfg n
  if (s.source n).p && srcEnable w then (if srcGrouped w then s.deliver (srcGroup w) else s.take n) else s

/-! ## Events of the chapter -/

/-- The sources whose firing has a time of its own: the edges and thresholds of digital inputs (R140, R219) and the limits of universal
channels (R196). -/
def ownTime (n : Nat) : Bool := 64 ≤ n && n < 192

/-- FIRST_TIME of a hardware firing stamped `t` that ROUND registers at `now` (R140). -/
def firingTime (n t now : Nat) : Nat := if ownTime n then t else now

/-- EVENT_FIRING (R138): the first hardware firing on its way reaches ROUND, once ROUND is in RUN. -/
def execEventFiring (s : State) : Out :=
  match s.round.firings with
  | [] => .next s
  | f :: rest => if !s.runs 5 then .next s else .next ({ s with round := { s.round with firings := rest } }.fireNow f.1 (firingTime f.1 f.2 s.now))

/-- GROUP_AGE_EXPIRY (R142): AGE of the group has reached T. -/
def execGroupAgeExpiry (g : Fin 64) (s : State) : Out :=
  match (s.group g).ageFrom with
  | some t => if s.runs 5 && s.groupTNs g ≤ s.now - t then .next (s.deliver g) else .next s
  | none => .next s

/-- TASK_COMPLETE (R143, R144): a task whose block run has ended and whose notifications SUP holds completes. -/
def execTaskComplete (n : Fin 512) (s : State) : Out :=
  let x := s.source n
  if s.runs 5 && x.active && x.blockPart.isNone then .next (s.completeTask n) else .next s

/-- SET_PENDING (R66, R137, R138). It is no write, force, output or configuration command, so a standby executes it (DEDUCED, log 91). -/
def setPendingDesc : CmdDesc := { code := 0x0304, roles := [.operate], fits := exact 4, kind := .local_ }

/-- The firing of SET_PENDING: a source above 511 or a reserved one is answered BAD_OBJECT (R137). -/
def runSetPending (c : Ctx) (b : List Byte) (s : State) : State :=
  let n := be16 b 0
  if 511 < n || reservedSource n then s.refuse c .badObject
  else
    let s := s.fireNow n s.now
    s.reply c .ok (toBe 4 (s.source n).fc.toNat)

def execSetPending (p : Packet) (s : State) : Out := s.command p setPendingDesc runSetPending

/-- EVENT_SUBSCRIBE (R66, R147). -/
def eventSubscribeDesc : CmdDesc := { code := 0x0305, roles := [.observe], fits := exact 4, kind := .local_ }

/-- Binds or renews a subscriber slot (R147). -/
def runEventSubscribe (c : Ctx) (b : List Byte) (s : State) : State :=
  let k := byteAt b 0
  let lease := be16 b 2
  let sl := s.slot k
  if 15 < k then s.refuse c .badObject
  else if lease = 0 || 3600 < lease then s.refuse c .outOfRange
  else if sl.inUse && sl.origin != c.origin then s.replyBusy c true
  else
    let base : Slot := if sl.inUse then sl else {}
    (s.setSlot k { base with inUse := true, origin := c.origin, auth := c.tagged, keyslot := c.keyslot, port := c.port, peer := c.peer,
                             leaseEnd := s.now + lease * 1000000000 }).ok c

def execEventSubscribe (p : Packet) (s : State) : Out := s.command p eventSubscribeDesc runEventSubscribe

/-- SUBSCRIBER_LEASE_EXPIRY (R147): the slot becomes free and its queued packets are discarded. -/
def execSubscriberLeaseExpiry (k : Fin 16) (s : State) : Out :=
  if (s.slot k).inUse && (s.slot k).leaseEnd ≤ s.now then .next (s.setSlot k {}) else .next s

/-! ## Sending notifications -/

/-- The number of a port. -/
def portNo (p : Port) : Nat :=
  match p with
  | .causeway => 0
  | .ringA => 1
  | .ringB => 2
  | .svc => 3

/-- A packet of the module, tagged where it must be and the slot still holds a key (R40, R41, R43). Its ORIGIN is the module's stored address
(DESIGN CHOICE, log 99). -/
def State.packet (s : State) (port : Port) (flags opcode tag : Nat) (seq : BitVec 32) (target : BitVec 16) (cls : BitVec 8)
    (keyslot : BitVec 8) (tagged : Bool) (cycle : BitVec 32) (payload : List Byte) : Packet :=
  let tg := tagged && (s.key keyslot.toNat).installed
  let p : Packet := { port := port, magic := 0x4E56, version := 1, flags := BitVec.ofNat 8 (flags + (if tg then 64 else 0)),
                      opcode := BitVec.ofNat 16 opcode, tag := BitVec.ofNat 16 tag, seq := seq, target := target,
                      origin := s.mram.address.zeroExtend 16, length := BitVec.ofNat 16 payload.length, cls := cls,
                      keyslot := if tg then keyslot else 0, cycle := cycle, payload := payload, auth := [] }
  if tg then { p with auth := p.mac (s.key keyslot.toNat).key } else p

/-- A packet stands on the wire of a port. -/
def State.onWire (s : State) (port : Port) (p : Packet) : State :=
  { s with sup := { s.sup with wire := s.sup.wire.set none (portNo port) (some p) } }

/-- A packet leaves: on the ring as a frame to the requester's MAC, by both ports or by the one whose link is up (R380 to R382); else on its port. -/
def State.send (s : State) (p : Packet) : State :=
  match p.port with
  | .ringA | .ringB =>
    let s := s.sendRing p.peer etCommand (p.header ++ p.payload ++ p.auth)
    let s := if s.ringPortUp 0 then s.onWire .ringA p else s
    if s.ringPortUp 1 then s.onWire .ringB p else s
  | port => s.onWire port p

/-- Whether notice `a` leaves before notice `b`: higher PRIORITY first, then the order of queueing (R148). -/
def Notice.before (a b : Notice) : Bool := b.priority < a.priority || (a.priority == b.priority && a.order < b.order)

/-- The notice that leaves next among those of a list. -/
def firstNotice : List Notice → Option Notice
  | [] => none
  | m :: l =>
    match firstNotice l with
    | none => some m
    | some k => if Notice.before k m then some k else some m

/-- The EVENT packets queued for a port. -/
def State.eventsOn (s : State) (port : Port) : List Notice := (s.round.slots.flatMap fun e => e.2.queue).filter (·.port == port)

/-- The place of the first of the EVENT packets for a port among all that became ready. -/
def State.eventReady (s : State) (port : Port) : Option Nat := ((s.eventsOn port).map (·.order)).min?

/-- The place of a reply among the classes of R28: Class 3 gives way to Class 2 until it has waited 1 ms. -/
def Reply.rank (r : Reply) (now : Nat) : Nat := if r.ctx.cls == 3 then (if r.readyAt + 1000000 ≤ now then 0 else 2) else 1

/-- A reply goes before another: by class, then in the order of becoming ready (R28, R148). -/
def Reply.before (r x : Reply) (now : Nat) : Bool := r.rank now < x.rank now || (r.rank now == x.rank now && r.order < x.order)

/-- The reply of a port that goes next, with those around it. -/
def pickReply (now : Nat) (port : Port) : List Reply → Option (List Reply × Reply × List Reply)
  | [] => none
  | r :: l =>
    match pickReply now port l with
    | none => if r.ctx.port == port then some ([], r, l) else none
    | some (a, x, b) => if r.ctx.port == port && !x.before r now then some ([], r, l) else some (r :: a, x, b)

/-- A reply goes before the EVENT packets of its port: they are Class 2, and packets and replies leave in the order in which they became
ready (R148). The turn of the EVENT packets comes by the one that became ready first; the one of the highest PRIORITY then leaves (log 115). -/
def State.replyTurn (s : State) (r : Reply) : Bool :=
  match s.eventReady r.ctx.port with
  | none => true
  | some t => r.rank s.now = 0 || (r.rank s.now = 1 && r.order < t)

/-- It is the turn of a port's EVENT packets (R148). -/
def State.eventTurn (s : State) (port : Port) : Bool :=
  match pickReply s.now port s.sup.replies with
  | none => true
  | some x => !s.replyTurn x.2.1

/-- EVENT (R148): in its turn SUP sends the first queued EVENT packet of a port. Its TAG, which no requester chooses, is 0 (DESIGN CHOICE, log 166). -/
def execEvent (port : Port) (s : State) : Out :=
  if !s.supAnswers || s.pathDown port || !s.eventTurn port then .next s
  else match firstNotice (s.eventsOn port) with
  | none => .next s
  | some m =>
    let s := { s with round := { s.round with slots := s.round.slots.map fun (e : Nat × Slot) =>
      (e.1, { e.2 with queue := e.2.queue.filter fun x => !(x.order == m.order) }) } }
    .next (s.send { s.packet m.port 16 m.opcode.toNat 0 m.seq m.target 2 m.keyslot m.tagged m.cycle m.payload with peer := m.peer })

end Sys2Proof.Machine
end

