-- ==== Sys2Proof/Machine/Operands.lean ====
section
/-! DEFINITION. The operands of instructions (R108, R109): what a block reads (R87), what becomes of its writes (R85, R86,
R97), and the timers and counters as words and bits (R123 to R127). An access that R108 does not allow answers none. -/

namespace Sys2Proof.Machine

open Sys2Proof

/-! ## Timers (R123, R125) -/

/-- Resolution of a timer in ns (R107). -/
def resolutionNs (r : BitVec 2) : Nat :=
  match r.toNat with
  | 0 => 100000
  | 1 => 1000000
  | 2 => 10000000
  | _ => 100000000

/-- P of R123 in ns. -/
def Timer.presetNs (t : Timer) : Int := (t.preset.toNat * resolutionNs t.res : Nat)

/-- Whether a running timer has reached P at the freeze instant `f`. -/
def Timer.reached (t : Timer) (f : Nat) : Bool := decide (t.presetNs ≤ (f : Int) - t.start)

/-- OUTPUT evaluated at `f` (R123). -/
def Timer.outputAt (t : Timer) (f : Nat) : Bool :=
  if t.running then (if t.kind = 1 then t.reached f else !t.reached f) else t.output

/-- ELAPSED evaluated at `f`, saturating (R125). -/
def Timer.elapsedAt (t : Timer) (f : Nat) : BitVec 32 :=
  if t.running then BitVec.ofNat 32 (satNat 32 (((f : Int) - t.start).toNat / resolutionNs t.res)) else t.elapsed

/-- Word `k` of a timer with its mark (R125, R132). -/
def Timer.word (t : Timer) (f k : Nat) : Word × Bool :=
  match k with
  | 0 => (mkWord [(31, 31, b2n t.running), (30, 30, b2n (t.outputAt f)), (29, 28, t.kind.toNat), (27, 26, t.res.toNat),
      (25, 25, b2n t.retain), (24, 24, b2n t.lastInput)], t.poisoned)
  | 1 => (t.preset.zeroExtend 32, t.presetP)
  | 2 => (t.elapsedAt f, t.elapsedP)
  | _ => (t.startCycle, t.startP)

/-- A timer that starts at the freeze of cycle `c`. -/
def Timer.begin_ (t : Timer) (f : Nat) (c : BitVec 32) : Timer :=
  { t with running := true, output := false, start := f, startCycle := c, startP := false }

/-- A timer that goes idle with ELAPSED kept (R125). -/
def Timer.stop (t : Timer) (f : Nat) : Timer := { t with running := false, output := false, elapsed := t.elapsedAt f }

/-- The extension word as the timer keeps it; the preset is WA[15:0] with PRESET_WA (R107). -/
def Timer.configure (t : Timer) (kind : BitVec 2) (o : TimerOperand) (wa : Word) : Timer :=
  { t with kind := kind, res := o.res, retain := o.retain, preset := if o.presetWa then wa.truncate 16 else o.preset,
           poisoned := false, elapsedP := false, presetP := false }

/-- An instruction of freeze `f` has left a timer as `new`: by it a TON's OUTPUT may have risen, or a TOF's or TP's have fallen, which only
elapsing brings about (R123, R149). -/
def Timer.turned (old new : Timer) (f : Nat) : Timer :=
  if (if new.kind = 1 then !old.outputAt f && new.outputAt f else old.outputAt f && !new.outputAt f) then { new with lapsed := some f } else new

/-- TON (R123). -/
def Timer.ton (t : Timer) (x : Bool) (f : Nat) (c : BitVec 32) : Timer :=
  let u := { t with lastInput := x }
  if !x then { u with running := false, output := false, elapsed := 0 } else if t.running then u else u.begin_ f c

/-- TOF (R123). -/
def Timer.tof (t : Timer) (x : Bool) (f : Nat) (c : BitVec 32) : Timer :=
  let u := { t with lastInput := x }
  if x then { u with running := false, output := true, elapsed := 0 }
  else if t.running then (if t.reached f then u.stop f else u)
  else if t.lastInput then u.begin_ f c
  else { u with output := false }

/-- TP (R123). -/
def Timer.tp (t : Timer) (x : Bool) (f : Nat) (c : BitVec 32) : Timer :=
  let u := { t with lastInput := x }
  if t.running then (if t.reached f then u.stop f else u)
  else if x && !t.lastInput then u.begin_ f c
  else { u with output := false }

/-- TCLR with x = 1 (R123). -/
def Timer.clear (t : Timer) : Timer := { t with running := false, output := false, elapsed := 0, lastInput := false }

/-! ## Counters (R126, R127) -/

/-- Word `k` of a counter with its mark (R127, R132). -/
def Counter.word (c : Counter) (k : Nat) : Word × Bool :=
  if k = 0 then (c.value, c.poisoned)
  else (mkWord [(31, 31, b2n c.upMem), (30, 30, b2n c.downMem), (29, 29, b2n c.saturated), (28, 0, c.preset.toNat)], c.presetP)

/-- The output of a counter: VALUE ≥ PRESET (R127). -/
def Counter.output (c : Counter) : Bool := decide ((c.preset.toNat : Int) ≤ sInt c.value)

/-- A count by `d` that stops at the limits (R126). Answers whether a limit was met. -/
def Counter.count (c : Counter) (d : Int) : Counter × Bool :=
  let v := sInt c.value + d
  if v < int32Min ∨ int32Max < v then ({ c with saturated := true }, true) else ({ c with value := ofI v }, false)

/-- The word SW writes: bits 28:0 are PRESET (R127). -/
def Counter.writePreset (c : Counter) (w : Word) (p : Bool) : Counter := { c with preset := w.truncate 29, presetP := p }

/-! ## Reading (R87) -/

/-- The freeze instant of the present cycle, at which timers are evaluated. -/
def State.freezeInstant (s : State) : Nat := s.square.freezeAt

/-- Whose copy engine `e` reads: its own words as it wrote them, the others as committed (R87). -/
def State.viewOf (s : State) (e : Nat) (a : Area) (w : Nat) : View :=
  if copied a w && (s.owner a w).map (·.val) != some e then .done else .work

/-- A total as engine `e` reads it: its committed value and, where `e` owns it, the increments of this cycle (R87). -/
def State.totalSeen (s : State) (e t : Nat) : Int :=
  (s.total t).value + (if (s.owner .Z (2 * t)).map (·.val) = some e then s.square.totIncr.get 0 t else 0)

/-- The timers and counters of the committed cycle are kept as its words give them, with their marks, for the retained image (R103, R132). -/
def State.keepUnits (s : State) : State :=
  { s with square := { s.square with
      keptTimers := (s.timers.filter fun (e : Nat × Timer) => e.2.retain).map fun (e : Nat × Timer) =>
        (e.1, (List.range 4).map fun k => e.2.word s.freezeInstant k)
      keptCounters := s.counters.map fun (e : Nat × Counter) => (e.1, e.2.word 0, e.2.word 1) } }

/-- A word operand: the word and its mark, or none where R108 does not allow the access (R108, R109). An offset into a bit area that is no
multiple of 32 counts as such an access (KIND 07h, log 98). -/
def State.readWord (s : State) (e : Nat) (a : Area) (off : Nat) : Option (Word × Bool) :=
  match a with
  | .E => none
  | .T => if off < 16384 then some ((s.timer (off / 4)).word s.freezeInstant (off % 4)) else none
  | .C => if off < 8192 then some ((s.counter (off / 2)).word (off % 2)) else none
  | .Z =>
    if off < 128 then
      let v := BitVec.ofInt 64 (s.totalSeen e (off / 2))
      some (if off % 2 = 0 then (v >>> 32).truncate 32 else v.truncate 32, false)
    else none
  | .I | .Q | .M | .S =>
    if off % 32 = 0 && (s.wordAddr .work a (off / 32)).isSome then some (s.sqWord (s.viewOf e a (off / 32)) a (off / 32))
    else none
  | .D | .K | .L | .N => if (s.wordAddr .work a off).isSome then some (s.sqWord (s.viewOf e a off) a off) else none

/-- A bit operand: the bit and its mark, or none where R108 does not allow the access. -/
def State.readBit (s : State) (e : Nat) (o : Operand) : Option (Bool × Bool) :=
  let off := o.offset.toNat
  match o.area with
  | .Z => none
  | .T => if off < 4096 then some ((s.timer off).outputAt s.freezeInstant, (s.timer off).poisoned) else none
  | .C => if off < 4096 then some ((s.counter off).output, (s.counter off).poisoned || (s.counter off).presetP) else none
  | .D | .K | .L | .N =>
    if (s.wordAddr .work o.area off).isSome then
      let x := s.sqWord (s.viewOf e o.area off) o.area off
      some (bit x.1 o.bit.toNat, x.2)
    else none
  | .I | .Q | .M | .E | .S =>
    if (s.wordAddr .work o.area (off / 32)).isSome then
      let x := s.sqWord (s.viewOf e o.area (off / 32)) o.area (off / 32)
      some (bit x.1 (off % 32), x.2)
    else none

/-! ## Writing (R85, R86, R97) -/

/-- A discarded write to a word that the engine does not own: OWNERSHIP_FAULTS and its record (R86). -/
def State.ownershipFault (s : State) (e : Nat) (a : Area) (w : Nat) : State :=
  { s with square := { s.square with ownershipFaults := satInc s.square.ownershipFaults } }.raiseFrom e .ownershipFault
    (mkWord [(23, 20, a.number), (19, 0, w)])

/-- A write by engine `e` to a word: discarded when the word is forced (R97) or not its own (R86). -/
def State.guardWrite (s : State) (e : Nat) (a : Area) (w : Nat) (f : State → State) : State :=
  if (s.forceOn a w).isSome then s
  else if (s.owner a w).map (·.val) = some e then f s
  else s.ownershipFault e a w

/-- The words of an area that a program may write (R108). -/
def mayWriteWord (a : Area) (off : Nat) : Bool :=
  match a with
  | .Q | .M | .D => true
  | .C => off % 2 == 1
  | .L => 4096 ≤ off
  | .N => 32768 ≤ off
  | _ => false

/-- A word store: none where R108 does not allow it. -/
def State.writeWord (s : State) (e : Nat) (a : Area) (off : Nat) (x : Word) (p : Bool) : Option State :=
  if !mayWriteWord a off then none
  else match a with
  | .C =>
    if off < 8192 then
      some (s.guardWrite e .C off fun s => s.modCounter (off / 2) fun c => c.writePreset x p)
    else none
  | .Q | .M =>
    if off % 32 = 0 && (s.wordAddr .work a (off / 32)).isSome then
      some (s.guardWrite e a (off / 32) fun s => s.putWork a (off / 32) x p)
    else none
  | _ => if (s.wordAddr .work a off).isSome then some (s.guardWrite e a off fun s => s.putWork a off x p) else none

/-- The store of a word would be made, not discarded (R86, R97). -/
def State.storeLands (s : State) (e : Nat) (a : Area) (off : Nat) : Bool :=
  let w := if bitArea a then off / 32 else off
  (s.forceOn a w).isNone && (s.owner a w).map (·.val) == some e

/-- Writes a bit of a word of the working copy. -/
def State.putWorkBit (s : State) (a : Area) (w b : Nat) (v p : Bool) : State :=
  match s.wordAddr .work a w with
  | some q => { s with square := s.square.putBit q b v p }
  | none => s

/-- The word and bit that a bit operand names. -/
def Operand.place (o : Operand) : Nat × Nat :=
  if wideArea o.area then (o.offset.toNat, o.bit.toNat) else (o.offset.toNat / 32, o.offset.toNat % 32)

/-- The areas whose bits OUT, SETB and CLRB may write (R108). -/
def mayWriteBit (a : Area) (w : Nat) : Bool :=
  match a with
  | .Q | .M | .D => true
  | .L => 4096 ≤ w
  | .N => 32768 ≤ w
  | _ => false

/-- A bit store: none where R108 does not allow it. -/
def State.writeBit (s : State) (e : Nat) (o : Operand) (v p : Bool) : Option State :=
  let w := (Operand.place o).1
  if mayWriteBit o.area w && (s.wordAddr .work o.area w).isSome then
    some (s.guardWrite e o.area w fun s => s.putWorkBit o.area w (Operand.place o).2 v p)
  else none

/-- Writes the edge bit `n` of area E, a word of the engine's own (R121, R85). -/
def State.writeEdge (s : State) (e n : Nat) (v p : Bool) : State :=
  s.guardWrite e .E (n / 32) fun s => s.putWorkBit .E (n / 32) (n % 32) v p

/-- Bits as words: bit i of the list in bit i. -/
def bitWords (f : Nat → Bool) (n : Nat) : List Word :=
  (List.range n).map fun w => BitVec.ofNat 32 ((List.range 32).foldl (fun a i => a + b2n (f (32 * w + i)) * 2 ^ i) 0)

/-- A word as a command reads it (R94): the committed snapshot; T, C and E as they stand. -/
def State.varWord (s : State) (a : Area) (w : Nat) : Word × Bool :=
  match a with
  | .T => (s.timer (w / 4)).word s.freezeInstant (w % 4)
  | .C => (s.counter (w / 2)).word (w % 2)
  | .Z =>
    let v := BitVec.ofInt 64 (s.total (w / 2)).value
    (if w % 2 = 0 then (v >>> 32).truncate 32 else v.truncate 32, false)
  | _ => s.sqWord .done a w

/-- Words of an area that a command can name (R108). -/
def State.areaWords (s : State) (a : Area) : Nat :=
  match a with
  | .I | .S => 16384
  | .Q => 1024
  | .M => s.image.mBytes / 4
  | .D => s.image.dSize
  | .E => 32768
  | .T => 16384
  | .C => 8192
  | .K | .N => 65536
  | .Z => 128
  | .L => 8192

end Sys2Proof.Machine
end

