-- ==== Sys2Proof/Machine/MemoryOps.lean ====
section
/-! DEFINITION. What a read or write of a protected array brings about in KEEP (R339 to R348): counting corrections in the
leaky bucket, finding an uncorrectable byte, locking the page, remapping a word. -/

namespace Sys2Proof.Machine

open Sys2Proof

/-- THRESHOLD and LEAK_MS of array `a` (R353). -/
def State.bucketThreshold (s : State) (a : Nat) : Nat := bits (s.cfg (0x900 + a) 0) 31 24
def State.bucketLeakNs (s : State) (a : Nat) : Nat := bits (s.cfg (0x900 + a) 0) 16 0 * 1000000

/-- One correction in array `a`: CORRECTED counts, the bucket fills, and at THRESHOLD the source fires, the burst is recorded
and the bucket is emptied (R341, R342). -/
def State.correction (s : State) (a : Nat) : State :=
  let x := s.arr a
  let x := { x with corrected := satInc x.corrected, leakFrom := if x.bucket = 0 then s.now else x.leakFrom,
                    bucket := x.bucket + 1 }
  if s.bucketThreshold a ≤ x.bucket then
    ((s.setArr a { x with bucket := 0 }).fireSource (392 + a)).raise .memCorrectedBurst x.corrected
  else s.setArr a x

/-- `n` corrections. -/
def State.corrections (s : State) (a n : Nat) : State := s.each (List.replicate n ()) fun s _ => s.correction a

/-- VALUE of the page records: array and page (R353). -/
def pageValue (a page : Nat) : Word := mkWord [(31, 29, a), (28, 0, page)]

/-! ## Remapping (R348) -/

/-- A hard fault of the word at byte address `w`: it is served by the next free spare, or recorded when none is left. -/
def State.remapWord (s : State) (a w : Nat) : State :=
  let l := s.mram.remap.get [] a
  if l.contains w then s
  else if 16 ≤ l.length then s.raise .memRemapFull (mkWord [(31, 29, a)])
  else
    { s with mram := { s.mram.wrote (0x900 + a) with remap := s.mram.remap.set [] a (l ++ [w]) } }.raise .memRemapped (mkWord [(31, 29, a), (28, 0, w / 4)])

/-- Byte address to the address of its word. -/
def wordOf (b : Nat) : Nat := b / 4 * 4

/-! ## Pages under repair (R340, R343) -/

/-- The page of array `a` that holds byte `b` is locked (R343). -/
def State.locked (s : State) (a b : Nat) : Bool := s.locks.any fun l => l.array == a && l.page == b / 512

/-- A page that holds one of the bytes `lo` to `lo + n − 1` is locked. -/
def State.spanLocked (s : State) (a lo n : Nat) : Bool := s.locks.any fun l => l.array == a && l.page * 512 < lo + n && lo < l.page * 512 + 512

/-- An uncorrectable byte at address `b` of array `a` starts the repair of its page: the record is written and the page is
locked (R340, R343). -/
def State.startRepair (s : State) (a b : Nat) : State :=
  let s := s.raise .memUncorrectable (pageValue a (b / 512))
  if s.locked a b then s else { s with locks := s.locks ++ [{ array := a, page := b / 512 }] }

/-- A read that finds an uncorrectable byte delivers poison: POISONED counts, source 392 + a fires and the repair starts
(R343). -/
def State.poisonedRead (s : State) (a b : Nat) : State :=
  ((s.modArr a fun x => { x with poisoned := satInc x.poisoned }).fireSource (392 + a)).startRepair a b

/-! ## Errors that an access finds (R339 to R341) -/

/-- The byte address of an error in a data byte. -/
def Upset.addr (u : Upset) : Nat := u.page * 512 + u.byte

/-- The errors in the data bytes `lo` to `lo + n − 1` of an array. -/
def State.upsetsIn (s : State) (a lo n : Nat) : List Upset :=
  s.upsets.filter fun u => u.array == a && u.byte < 512 && lo ≤ u.addr && u.addr < lo + n && u.rested != some s.now

/-- Errors that are corrected, or whose byte is written, are gone. -/
def State.dropUpsets (s : State) (l : List Upset) : State := { s with upsets := s.upsets.filter fun u => !l.contains u }

/-- A spare serves the word in which an error stands (R348). -/
def State.spared (s : State) (u : Upset) : Bool := u.byte < 512 && (s.mram.remap.get [] u.array).contains (wordOf u.addr)

/-- A byte that fails the check after its write-back, and for whose word no spare is left, goes on failing: it is left to the two codes (R348). -/
def State.leaveHard (s : State) (l : List Upset) : State := { s with upsets := s.upsets ++ l.filter fun u => u.hard && !s.spared u }

/-- The bytes that an access corrects, and whether it finds one that it cannot. -/
def fixedBytes : Verdict → Nat
  | .clean => 0
  | .corrected n _ | .uncorrectable n => n
def badBytes : Verdict → Bool
  | .uncorrectable _ => true
  | _ => false

/-- What the codes find: what the access brings with it and the errors that stand in the word. -/
def foundAt (v : Verdict) (l : List Upset) : Verdict :=
  let k := (l.filter fun u => !u.multi).length
  let hard := l.any fun u => !u.multi && u.hard
  let bad := l.any (·.multi)
  match v with
  | .uncorrectable n => .uncorrectable (n + k)
  | .corrected n h => if bad then .uncorrectable (n + k) else .corrected (n + k) (h || hard)
  | .clean => if bad then .uncorrectable k else if k = 0 then .clean else .corrected k hard

/-- What the byte codes find at a read of the word at byte address `b`: the state after it, and whether the word is delivered with a mark
of its own (R339, R341, R343). A corrected byte is written back, and its word remapped where it fails the check after that (R348). -/
def State.judgeRead (s : State) (a b : Nat) (v : Verdict) : State × Bool :=
  let l := s.upsetsIn a b 4
  let fixed := l.filter fun u => !u.multi
  let s := if l == [] then s else s.dropUpsets fixed
  match foundAt v l with
  | .clean => (s, false)
  | .corrected n h => (if h then ((s.corrections a n).remapWord a (wordOf b)).leaveHard fixed else s.corrections a n, false)
  | .uncorrectable n => (((s.corrections a n).leaveHard fixed).poisonedRead a b, true)

/-- Reads of the words of a run of bytes, where an error stands in one of them and its page is not under repair. -/
def State.readSpan (s : State) (a lo n : Nat) : State :=
  s.each (((s.upsetsIn a lo n).map fun u => wordOf u.addr).dedup) fun s b => if s.locked a b then s else (s.judgeRead a b .clean).1

/-- The words of a run of bytes that a read finds uncorrectable now (R343): the first of each page, since the others wait for its repair. -/
def State.badWords (s : State) (a lo n : Nat) : List Nat :=
  ((s.upsetsIn a lo n).filter fun u => u.multi && !s.locked a u.addr).foldl
    (fun (l : List Nat) u => if l.any fun b => b / 512 == u.page then l else l ++ [wordOf u.addr]) []

/-- An uncorrectable old byte stands where a write would land (R340). -/
def State.oldBad (s : State) (a lo n : Nat) : Option Nat := ((s.upsetsIn a lo n).find? (·.multi)).map (·.addr)

/-- A write lands on old bytes with single-bit errors: each counts, none is written back, and the write replaces it (R340). A byte that a write
does not mend goes on failing; on a page under repair nothing lands yet. -/
def State.overwrite (s : State) (a lo n : Nat) : State :=
  let l := (s.upsetsIn a lo n).filter fun u => !s.locked a u.addr
  if l == [] then s else (s.corrections a (l.filter fun u => !u.multi).length).dropUpsets (l.filter fun u => !u.hard)

/-- The run of bytes `lo` to `lo + n − 1` meets the page of a lock. -/
def PageLock.meets (k : PageLock) (a lo n : Nat) : Bool := k.array == a && k.page * 512 < lo + n && lo < k.page * 512 + 512

/-- A write that meets pages under repair replaces these bytes of them once they are repaired (R343). -/
def State.noteWrite (s : State) (a lo n : Nat) : State :=
  { s with locks := s.locks.map fun k => if k.meets a lo n then { k with written := k.written ++ [(lo, n)] } else k }

/-- A write of a run of bytes that no command waits for (R340, R343): an uncorrectable old byte starts the repair of its page, the other old bytes are
decoded as any read does, and on a page under repair the write lands once that is repaired. -/
def State.writeSpan (s : State) (a lo n : Nat) : State :=
  ((((s.badWords a lo n).foldl (fun s b => s.startRepair a b) s).overwrite a lo n)).noteWrite a lo n

/-- A write of the words of a list. -/
def State.writeWords (s : State) (a : Nat) (l : List Nat) : State := s.each l fun s b => s.writeSpan a b 4

/-- A write of an item of MRAM (R340, R343), wherever its bytes stand. -/
def State.writeItem (s : State) (i : MramItem) : State :=
  let at_ := (s.upsets.filter fun u => u.array == 7 && u.byte < 512 && Config.mramItem u.addr == i).map (·.addr)
  let s := s.each at_.dedup fun s b => s.writeSpan 7 b 1
  { s with locks := s.locks.map fun k => if k.array == 7 then { k with items := k.items ++ [i] } else k }

/-- The slot table of the recorder is written: both of its copies hold from then on (R347, R355). -/
def State.writeSlots (s : State) : State :=
  let s := s.each [MramItem.slotTable false, .slotTable true] State.writeItem
  { s with mram := { s.mram with voidCopies := s.mram.voidCopies.filter fun v => v != .slotTable false && v != .slotTable true } }

/-- The eight words of a record are written into its slot (R354, R355). -/
def State.writeSlot (s : State) (slot : Nat) : State :=
  s.each [0, 1, 2, 3, 4, 5, 6, 7] fun s w => s.writeItem (.record (BitVec.ofNat 16 slot) (Fin.ofNat 8 w))

/-- A byte of a page that a write has replaced while the page was under repair (R343). -/
def PageLock.replaced (k : PageLock) (b : Nat) : Bool :=
  (k.written.any fun r => r.1 ≤ b && b < r.1 + r.2) || (k.array == 7 && k.items.contains (Config.mramItem b))

/-- The words of a list that a reader finds uncorrectable now. -/
def State.badOf (s : State) (a : Nat) (l : List Nat) : List Nat :=
  l.foldl (fun (k : List Nat) b => if k.any (fun c => c / 512 == b / 512) then k else k ++ s.badWords a b 4) []

/-- Reads of the words of a list. -/
def State.readWords (s : State) (a : Nat) (l : List Nat) : State := s.each l fun s b => s.readSpan a b 4

/-- A command reads the words `at_` of array `a` (R343). Of the words that it finds uncorrectable the first of each page is delivered with a mark;
`marks` are those that it has been given before. Where one of its words stands on a page under repair the command waits, and reads again when the
repair is done; else `k` answers it. -/
def State.gateRead (s : State) (c : Ctx) (b : List Byte) (a : Nat) (at_ marks : List Nat) (k : List Nat → State → State) : State :=
  let bad := marks ++ s.badOf a at_
  let t := s.readWords a at_
  if at_.any fun w => t.locked a w && !bad.contains w then
    { t with sup := { t.sup with stalled := t.sup.stalled ++ [{ ctx := c, body := b, marks := bad }] } }
  else k bad t

/-- A command reads words of the committed snapshot, each as area and offset, and answers by them and their marks. -/
def State.gateWords (s : State) (c : Ctx) (b : List Byte) (l : List (Area × Nat)) (marks : List Nat) (k : List (Word × Bool) → State → State) :
    State :=
  s.gateRead c b 2 (l.filterMap fun x => s.wordAddr .done x.1 x.2).dedup marks fun bad t =>
    k (l.map fun x =>
      let v := t.sqWord .done x.1 x.2
      (v.1, v.2 || match t.wordAddr .done x.1 x.2 with | some a => bad.contains a | none => false)) t

/-- A write must wait (R340, R343): a page of its bytes is under repair, or an uncorrectable old byte starts one. -/
def State.writeWaits (s : State) (a lo n : Nat) : Option State :=
  if s.spanLocked a lo n then some s
  else (s.oldBad a lo n).map fun b => s.startRepair a b

/-- Two errors stand in one byte. -/
def Upset.sameByte (u v : Upset) : Bool := u.array == v.array && u.page == v.page && u.byte == v.byte

/-- An error arises in a stored byte. A second one in a byte makes it one that its code cannot correct (R339; log 120). -/
def State.addUpset (s : State) (u : Upset) : State :=
  if s.upsets.any u.sameByte then
    { s with upsets := s.upsets.map fun v => if u.sameByte v then { v with multi := true, hard := v.hard || u.hard } else v }
  else { s with upsets := s.upsets ++ [{ u with rested := none }] }

/-- Module time goes on by one tick: an error may arise in a byte (log 120). -/
def State.upsetTick (s : State) : State :=
  match Config.upset s.now with
  | some u => s.addUpset u
  | none => s

/-- Several runs of bytes, as array, first byte and number, are written at once: the state in which the writes wait, where a page is under repair or
an uncorrectable old byte starts the repair of one (R340, R343). -/
def State.spansWait (s : State) (l : List (Nat × Nat × Nat)) : Option State :=
  if l.any fun r => s.spanLocked r.1 r.2.1 r.2.2 then some s
  else if l.any fun r => (s.oldBad r.1 r.2.1 r.2.2).isSome then
    some (s.each l fun s r => (s.badWords r.1 r.2.1 r.2.2).foldl (fun s b => s.startRepair r.1 b) s)
  else none

/-- The byte address in the Town Square of a word operand, for the page lock (R431). T, C and Z stand at their places of
R431. -/
def State.operandAddr (s : State) (e : Nat) (a : Area) (off : Nat) : Nat :=
  match a with
  | .T => sqT + 4 * off
  | .C => sqC + 4 * off
  | .Z => sqZ + 4 * off
  | .I | .Q | .M | .S | .E => (s.wordAddr (s.viewOf e a (off / 32)) a (off / 32)).getD 0
  | .D | .K | .L | .N => (s.wordAddr (s.viewOf e a off) a off).getD 0

end Sys2Proof.Machine
end

