-- ==== Sys2Proof/Machine/Execute.lean ====
section
/-! DEFINITION. How the logic engines run their blocks: block starts and boundaries (R89, R106, R145), the issue of one
instruction (R107), the abandonment of a cycle (R34) and program faults (R135). -/

namespace Sys2Proof.Machine

open Sys2Proof

/-! ## Abandoning a cycle (R34) -/

/-- The block parts that an engine has not finished wait again for the next execute (R146). -/
def Engine.giveBack (x : Engine) : Engine :=
  { x with running := false, waiting := x.serving ++ x.eventLeft.flatMap (·.2) ++ x.waiting, serving := [], eventLeft := [],
           cyclicLeft := [], moved := none }

/-- The next first cycle is the first one after whatever either of two was (R101, R110). -/
def First.or (a b : First) : First := { cold := a.cold || b.cold, warm := a.warm || b.warm, switch := a.switch || b.switch }

/-- The working copy of an abandoned execute gives way to the committed one (R34, R87), which is read, while the old bytes of the working copy are decoded
(R340, R341). A word found uncorrectable is taken with its mark (R343). -/
def State.revertWork (s : State) : State :=
  let bad := commitSpans.flatMap fun r => (s.badWords 2 r.2.1 r.2.2).map fun b => b - r.2.1 + r.1
  let s := s.each commitSpans fun s r => (s.readSpan 2 r.2.1 r.2.2).writeSpan 2 r.1 r.2.2
  { s with square := s.square.revert.markAll bad }

/-- Abandons the cycle in execute: nothing is committed, the number is used again, ABANDONED counts and a record is written
(R34). The record table gives no Value, which is free; the record is SQUARE's (log 12). Timers, counters and edge memory, of which there
is one copy, keep what the abandoned execute wrote (log 97). -/
def State.abandonCycle (s : State) : State :=
  if s.square.phase != .execute then s
  else
    let s := s.revertWork
    let q := s.square
    let s := { s with
      square := { q with phase := .idle, abandoned := satInc q.abandoned, totIncr := [],
                         nextFirst := q.nextFirst.or q.first }
      engines := s.engines.map fun (e : Nat × Engine) => (e.1, e.2.giveBack) }
    s.raiseUnstated 6 .cycleAbandoned

/-- Puts the program into RUN or STOP now, with the record of a change (R84, R95). A change to RUN makes the next first cycle
a warm one as far as edges and FIRST_WARM go (R95, R110). A RUN_STOP that still waits is dropped when something else changes the mode
(DESIGN CHOICE, log 118). -/
def State.setMode (s : State) (run : Bool) : State :=
  let s := { s with square := { s.square with runStop := none } }
  let new : ProgState := if run then .run else .stop
  if s.square.prog == .none_ || s.square.prog == new then { s with mram := { s.mram with runStop := run } }
  else
    let s := { s with mram := { s.mram with runStop := run }
                      square := { s.square with
                        prog := new, nextFirst := { s.square.nextFirst with warm := s.square.nextFirst.warm || run } } }
    s.raise .runStopChanged (if run then 1 else 2)

/-- A program fault of engine `e` at address `a` (R135): the engine stops, the record is written, the cycle is abandoned and
the program stopped. -/
def State.programFault (s : State) (e kind a : Nat) : State :=
  let s := s.modEngine e fun x => { x with programFaults := satInc x.programFaults }
  let s := s.raiseFrom e .programFault (mkWord [(31, 24, kind), (17, 0, a)])
  s.abandonCycle.setMode false

/-! ## Blocks (R89, R106, R120, R145) -/

/-- Block `n` of the running image. -/
def State.blockOf (s : State) (n : Nat) : Option Block := s.image.blocks.find? (·.number == n)

/-- Starts a block with the registers of R106. -/
def State.startBlock (s : State) (e : Nat) (b : Block) (serving : List Nat) : State :=
  s.modEngine e fun x => { x.blockRegs with pc := BitVec.ofNat 18 b.first, running := true, block := b.number, serving := serving }

/-- The block part of a source ends: its task waits only for TASK_COMPLETE (R144). -/
def State.partDone (s : State) (n : Nat) : State := s.modSource n fun x => { x with blockPart := none }

/-- The number of the event block that source `n` waits for (R144). -/
def State.waitsFor (s : State) (n : Nat) : Option Nat := (s.source n).blockPart.map (·.2)

/-- The event block that source `n` waits for, as the running image has it. -/
def State.waitingBlock (s : State) (n : Nat) : Option Block := (s.waitsFor n).bind s.image.eventBlock

/-- A block part reaches the engine to which the running image assigns its block. Without a program it goes on waiting (R146); an image
without the block is a miss (R144). -/
def State.placePart (s : State) (n : Nat) : State :=
  match s.waitingBlock n with
  | some k => s.modEngine k.engine.val fun x => { x with waiting := x.waiting ++ [n] }
  | none =>
    if !s.loaded then { s with round := { s.round with parked := s.round.parked ++ [n] } }
    else
      let s := s.partDone n
      { s with round := { s.round with blockMisses := s.round.blockMisses + 1 } }

/-- The block parts that wait when execute starts go to the engines of the image that runs now (R144 to R146). -/
def State.rehome (s : State) : State :=
  let l := (List.range 4).flatMap (fun e => (s.engine e).waiting) ++ s.round.parked
  let s := s.each (List.range 4) fun s e => s.modEngine e fun x => { x with waiting := [] }
  { s with round := { s.round with parked := [] } }.each l State.placePart

/-- The highest PRIORITY among the sources of an entry. -/
def State.topPriority (s : State) (l : List Nat) : Nat := l.foldl (fun m n => max m (s.source n).takePrio) 0

/-- Adds a source to the runs of a point: one run serves every source of the block (R145). -/
def addRun (b n : Nat) : List (Nat × List Nat) → List (Nat × List Nat)
  | [] => [(b, [n])]
  | (c, l) :: r => if c = b then (c, l ++ [n]) :: r else (c, l) :: addRun b n r

/-- Puts a run in its place: highest PRIORITY first, then the lowest event block number (R145). -/
def State.placeRun (s : State) (x : Nat × List Nat) : List (Nat × List Nat) → List (Nat × List Nat)
  | [] => [x]
  | y :: r =>
    let px := s.topPriority x.2
    let py := s.topPriority y.2
    if py < px || (px == py && x.1 < y.1) then x :: y :: r else y :: s.placeRun x r

/-- A point where R89 lets event blocks run: the engine takes every block with a source waiting when it gets there (R145). -/
def State.point (s : State) (e : Nat) : State :=
  let runs := (s.engine e).waiting.foldl (fun r n => match s.waitsFor n with | some b => addRun b n r | none => r) []
  s.modEngine e fun x => { x with waiting := [], eventLeft := runs.foldl (fun r y => s.placeRun y r) [] }

/-- The engine goes on to its next block: the event blocks of the point, then the next cyclic block, else it has done
(R23, R89). -/
def State.nextBlock (s : State) (e : Nat) : State :=
  let x := s.engine e
  match x.eventLeft with
  | (b, srcs) :: rest =>
    match s.image.eventBlock b with
    | some k => (s.setEngine e { x with eventLeft := rest }).startBlock e k srcs
    | none => s.setEngine e { x with running := false, serving := [] }
  | [] =>
    match x.cyclicLeft with
    | b :: rest =>
      match s.blockOf b with
      | some k => (s.setEngine e { x with cyclicLeft := rest }).startBlock e k []
      | none => s.setEngine e { x with running := false, serving := [] }
    | [] => s.setEngine e { x with running := false, serving := [] }

/-- Begins execute on engine `e`: events first, then the cyclic blocks in the order of the image (R89). -/
def State.beginExecute (s : State) (e : Nat) : State :=
  let cyc := (s.image.blocks.filter fun b => b.event.isNone && b.engine.val == e).map (·.number)
  let s := s.modEngine e fun x => { x with cyclicLeft := cyc, instructions := 0, clocks := 0, loadAt := 0, bitAt := 0, waitFrom := none, moved := none }
  (s.point e).nextBlock e

/-- The block of engine `e` ends (R120, R144): the sources of an event run complete their block part; after a cyclic block that
is not the last there is a point. -/
def State.endBlock (s : State) (e : Nat) : State :=
  let x := s.engine e
  let s := s.each x.serving State.partDone
  let s := s.modEngine e fun x => { x with serving := [] }
  let event := match s.blockOf x.block with | some b => b.event.isSome | none => false
  if !event && x.eventLeft == [] && x.cyclicLeft != [] then (s.point e).nextBlock e else s.nextBlock e

/-! ## Issue (R107, R135) -/

/-- The word of the running bank at an address, and whether a failed repair left it poisoned (R346). -/
def State.codeWord (s : State) (a : Nat) : Word := (s.bank s.runBankNo).code.get 0 a
def State.codePoison (s : State) (a : Nat) : Bool := (s.bank s.runBankNo).poison.get false a

/-- The command with the verdict of a clean access. -/
def plain : Instr → Instr
  | .lw e o _ => .lw e o .clean
  | .sw e o _ => .sw e o .clean
  | i => i

/-- Engine `e` runs a block and is about to issue at its PC. -/
def State.atIssue (s : State) (e : Nat) : Bool := s.square.phase == .execute && (s.engine e).running

/-- The address at which engine `e` issues next. -/
def State.pcOf (s : State) (e : Nat) : Nat := (s.engine e).pc.toNat

/-- An address lies in a block. -/
def Block.holds (b : Block) (a : Nat) : Bool := b.first ≤ a && a < b.first + b.length

/-- The address lies in the block that engine `e` runs (R135 kind 06h). -/
def State.inBlock (s : State) (e a : Nat) : Bool :=
  match s.blockOf (s.engine e).block with
  | some b => b.holds a
  | none => false

/-- The words at the PC of engine `e` spell instruction `i` (R107). -/
def State.spells (s : State) (e : Fin 4) (i : Instr) (n : Nat) : Bool :=
  let a := s.pcOf e
  !s.codePoison a && (n < 2 || !s.codePoison (a + 1)) && decodeEngine e (s.codeWord a) (s.codeWord (a + 1)) == some (plain i)

/-- Counts an instruction issued and moves PC on by its words. -/
def State.advance (s : State) (e words clocks : Nat) : State :=
  s.modEngine e fun x => { x with pc := x.pc + BitVec.ofNat 18 words, instructions := x.instructions + 1,
                                  clocks := x.clocks + BitVec.ofNat 32 clocks, waitFrom := none }

/-- Instructions that read WA or WB, and so wait for a load under way (R115). LW and LWI move WA into WB. TOT and CLD wait whatever CB holds
(DESIGN CHOICE, log 121). -/
def usesWords : Instr → Bool
  | .lw .. | .lwi .. | .sw .. | .bmove .. | .swap _ | .add _ | .sub _ | .mul _ | .div _ | .rem _ | .neg _ | .eq_ _ | .ne_ _ | .gt_ _ | .ge_ _
  | .lt_ _ | .le_ _ | .cld .. | .tot .. => true
  | .ton _ o | .tof _ o | .tp _ o => o.presetWa
  | _ => false

/-- Instructions that read CB (R111, R112, R114): those that use it or combine into it, the latter only in an open chain; SETB and its like
wait whatever it holds. -/
def usesBit (chs : Bool) : Instr → Bool
  | .and_ .. | .andn .. | .or_ .. | .orn .. | .xor_ .. | .xorn .. | .andr .. | .andf .. | .orr .. | .orf .. | .eq_ _ | .ne_ _ | .gt_ _ | .ge_ _
  | .lt_ _ | .le_ _ | .andOpen _ | .andnOpen _ | .orOpen _ | .ornOpen _ | .xorOpen _ | .xornOpen _ => !chs
  | .out .. | .setb .. | .clrb .. | .inv _ | .closeBracket _ | .ton .. | .tof .. | .tp .. | .tclr .. | .cup .. | .cdn .. | .cld .. | .cclr ..
  | .jt .. | .jf .. | .callt .. | .tot .. | .sev .. => true
  | _ => false

/-- The clocks for which an instruction that reads WA or WB waits for a load under way (R115). -/
def State.stall (s : State) (e : Nat) : Nat := (s.engine e).loadAt - (s.engine e).clocks.toNat

/-- The clocks for which an instruction that reads CB waits for a bit of D, K, L or N under way: such a bit is a word read from the Town Square
(R115, log 122). -/
def State.bitStall (s : State) (e : Nat) : Nat := (s.engine e).bitAt - (s.engine e).clocks.toNat

/-- The clocks, of 2.5 ns, for which an engine has waited for a page under repair (R343, log 84). -/
def State.pageStall (s : State) (e : Nat) : Nat :=
  match (s.engine e).waitFrom with
  | some t => (s.now - t) * 2 / 5
  | none => 0

/-- The clocks of an instruction with its stalls: `clk` are those of the opcode table (R114, R115). -/
def State.clocksOf (s : State) (i : Instr) (e clk : Nat) : Nat :=
  clk + s.pageStall e + max (if usesWords i then s.stall e else 0) (if usesBit (s.engine e).chs i then s.bitStall e else 0)

/-- A load issued in the clock just counted is under way (R115): the latency is a free value. -/
def State.load (s : State) (e : Nat) : State :=
  (s.modEngine e fun x => { x with loadAt := x.clocks.toNat - 1 + Config.readLatency s.freeCount }).draw

/-- A bit read of D, K, L or N issued in the first of the `n` clocks just counted is under way; a bit of the engine's own image is there at once
(R115). -/
def State.loadBit (s : State) (e : Nat) (a : Area) (n : Nat) : State :=
  if wideArea a then (s.modEngine e fun x => { x with bitAt := x.clocks.toNat - n + Config.readLatency s.freeCount }).draw else s

/-- Clocks for which the engine goes on being busy (R115). -/
def State.busy (s : State) (e n : Nat) : State := s.modEngine e fun x => { x with clocks := x.clocks + BitVec.ofNat 32 n }

/-- The message in which a store goes to SQUARE (R25, R26). The slots that a store takes are not given: every store, that of a BMOVE too, is taken as one slot
(DESIGN CHOICE, log 14). -/
def storeMessage : Message := { cls := 1, slots := 1, since := 0, cargo := .other }

/-- A message waits at a sender that goes before, or was queued before, a Class 1 message offered now (R28). -/
def Crossing.ahead (x : Crossing) : Bool := x.waiting.any fun m => decide (m.cls ≤ 1)

/-- A store is posted to SQUARE (R115). While the credits that the engine holds of its crossing pay for it and no message of its crossing goes before it
(R28), it adds no clocks; else it is held for lack of credits, which counts in CREDIT_STALLS, and adds as many as the credits take to come back, which
is free (R29). SQUARE takes it in the same step, so that it holds no slot afterwards (log 14). -/
def State.posted (s : State) (e : Nat) : State :=
  let x := s.crossing (crossingId e 6)
  if x.mayPay (crossingSize e 6) storeMessage && !x.ahead then s
  else ((s.busy e (Config.storeWait s.freeCount)).modIsland e fun i => { i with stalls := satInc i.stalls }).draw

/-- Bytes of the Town Square that an instruction is about to read or write. -/
structure Touch where
  addr : Nat
  bytes : Nat
  write : Bool
  deriving DecidableEq, Repr

/-- Engine `e` waits for a page under repair (R343). -/
def State.waitPage (s : State) (e : Nat) : State := s.modEngine e fun x => { x with waitFrom := x.waitFrom <|> some s.now }

/-- An instruction must wait: a page that its words or its operands lie in is under repair; its fetch finds an uncorrectable byte (R346); or an
uncorrectable old byte stands where it would write (R340). -/
def State.holdIssue (s : State) (e n : Nat) (l : List Touch) : Option State :=
  let bank := s.runBankNo
  let code := 4 * s.pcOf e
  if s.spanLocked bank code (4 * n) || l.any (fun t => s.spanLocked 2 t.addr t.bytes) then some (s.waitPage e)
  else match s.oldBad bank code (4 * n) with
  | some b => some ((s.poisonedRead bank b).waitPage e)
  | none =>
    ((l.filter (·.write)).findSome? fun t => s.oldBad 2 t.addr t.bytes).map fun b => (s.startRepair 2 b).waitPage e

/-- The words of the instruction are fetched, and its stores land on their old bytes (R340, R341). -/
def State.fetchIssue (s : State) (e n : Nat) (l : List Touch) : State :=
  (s.readSpan s.runBankNo (4 * s.pcOf e) (4 * n)).each (l.filter (·.write)) fun s t => s.overwrite 2 t.addr t.bytes

/-- After an instruction of address `a`: a PC outside the block is a program fault (R135 kind 06h). Execution that runs past the last word
names the instruction executed last (log 98). -/
def State.settle (s : State) (e a : Nat) : State :=
  if s.atIssue e && !s.inBlock e (s.pcOf e) then s.programFault e 6 a else s

/-- Issues an instruction of `n` words and `clk` clocks when it stands at the engine's PC; else nothing happens. `run` gets the
engine and the instruction's address and answers the state or the KIND of a program fault (R135); `touch` are the bytes of the Town Square that
it reads and writes. -/
def State.issue (s : State) (i : Instr) (clk : Nat) (run : Nat → Nat → State → Except Nat State)
    (touch : Nat → State → List Touch := fun _ _ => []) : Out :=
  match encodeEngine i with
  | none => .next s
  | some (e, ws) =>
    if !(s.atIssue e && s.spells e i ws.length) then .next s
    else
      let a := s.pcOf e
      if !s.inBlock e (a + ws.length - 1) then .next (s.programFault e 6 a)
      else match s.holdIssue e ws.length (touch e s) with
      | some t => .next t
      | none =>
        let s := s.fetchIssue e ws.length (touch e s)
        match run e a (s.advance e ws.length (s.clocksOf i e clk)) with
        | .ok t => .next (t.settle e a)
        | .error k => .next (s.programFault e k a)

/-- An instruction that only changes the engine's registers. -/
def State.issueRegs (s : State) (i : Instr) (clk : Nat) (f : Engine → Engine) : Out :=
  s.issue i clk fun e _ s => .ok (s.modEngine e f)

/-- An occasion marked POISON_CONSUMED: the count of the engine and the record (R133). -/
def State.consumePoison (s : State) (e a : Nat) : State :=
  (s.modEngine e fun x => { x with poisonConsumed := satInc x.poisonConsumed }).raiseFrom e .poisonConsumed (mkWord [(17, 0, a)])

/-- Turns an access that R108 does not allow into KIND 07h (R135). -/
def allowed {α : Type} (x : Option α) (f : α → Except Nat State) : Except Nat State :=
  match x with
  | some v => f v
  | none => .error 7

end Sys2Proof.Machine
end

