-- ==== Sys2Proof/Machine/BitLogic.lean ====
section
/-! DEFINITION. Control and bit logic (R111 to R114), edges, timers and counters (R121 to R126): one meaning for each instruction. -/

namespace Sys2Proof.Machine

open Sys2Proof

/-! ## Control -/

/-- NOP (R114). -/
def execNop (e : Fin 4) (s : State) : Out := s.issueRegs (.nop e) 1 id

/-- Returns to the caller with CHS = 1, or ends a block that was not called (R120). -/
def State.returnOrEnd (s : State) (e : Nat) : State :=
  match (s.engine e).calls with
  | [] => s.endBlock e
  | (pc, b) :: rest => s.modEngine e fun x => { x with pc := pc, block := b, calls := rest, chs := true }

/-- END (R120). -/
def execEnd (e : Fin 4) (s : State) : Out := s.issue (.end_ e) 1 fun n _ s => .ok (s.returnOrEnd n)

/-- RET (R120). -/
def execRet (e : Fin 4) (s : State) : Out := s.issue (.ret e) 2 fun n _ s => .ok (s.returnOrEnd n)

/-! ## Chains -/

/-- Clocks of a bit instruction: 2 where it has an extension word (R114). -/
def bitClocks (o : Operand) : Nat := if wideArea o.area then 2 else 1

/-- The bytes that a bit read takes from the Town Square: those of I, Q, M, E, S and the outputs of timers and counters come from the engine's own
image (R115). -/
def State.bitTouch (s : State) (e : Nat) (o : Operand) : List Touch :=
  if wideArea o.area then [{ addr := s.operandAddr e o.area o.offset.toNat, bytes := 4, write := false }] else []

/-- A bit operand as it is read (R341, R343): the state after the read, the bit and its mark. -/
def State.takeBit (s : State) (e : Nat) (o : Operand) : Option (State × Bool × Bool) :=
  (s.readBit e o).map fun v =>
    if wideArea o.area then
      let r := s.judgeRead 2 (s.operandAddr e o.area o.offset.toNat) .clean
      (r.1, v.1, v.2 || r.2)
    else (s, v.1, v.2)

/-- An instruction that reads a bit into the chain (R111). -/
def State.issueBit (s : State) (i : Instr) (o : Operand) (f : Engine → Bool → Bool → Engine) : Out :=
  s.issue i (bitClocks o)
    (fun e _ s => allowed (s.takeBit e o) fun v => .ok ((v.1.modEngine e fun x => f x v.2.1 v.2.2).loadBit e o.area (bitClocks o)))
    fun e s => s.bitTouch e o

/-- The byte that a bit store of engine `e` writes, where it lands (R86, R97). -/
def State.storeTouch (s : State) (e : Nat) (a : Area) (w b : Nat) : List Touch :=
  match s.wordAddr .work a w with
  | some q => if (s.forceOn a w).isNone && (s.owner a w).map (·.val) == some e then [{ addr := q + 3 - b / 8, bytes := 1, write := true }] else []
  | none => []

/-- LD: CB := v (R111). -/
def execLd (e : Fin 4) (o : Operand) (s : State) : Out := s.issueBit (.ld e o) o fun x v p => x.load v p

/-- LDN: CB := ¬v (R111). -/
def execLdn (e : Fin 4) (o : Operand) (s : State) : Out := s.issueBit (.ldn e o) o fun x v p => x.load (!v) p

/-- AND (R111). -/
def execAnd (e : Fin 4) (o : Operand) (s : State) : Out := s.issueBit (.and_ e o) o fun x v p => x.combine .and_ v p

/-- AND NOT (R111). -/
def execAndn (e : Fin 4) (o : Operand) (s : State) : Out := s.issueBit (.andn e o) o fun x v p => x.combine .and_ (!v) p

/-- OR (R111). -/
def execOr (e : Fin 4) (o : Operand) (s : State) : Out := s.issueBit (.or_ e o) o fun x v p => x.combine .or_ v p

/-- OR NOT (R111). -/
def execOrn (e : Fin 4) (o : Operand) (s : State) : Out := s.issueBit (.orn e o) o fun x v p => x.combine .or_ (!v) p

/-- Exclusive-OR (R111). -/
def execXor (e : Fin 4) (o : Operand) (s : State) : Out := s.issueBit (.xor_ e o) o fun x v p => x.combine .xor_ v p

/-- Exclusive-OR NOT (R111). -/
def execXorn (e : Fin 4) (o : Operand) (s : State) : Out := s.issueBit (.xorn e o) o fun x v p => x.combine .xor_ (!v) p

/-- OUT: operand := CB, which ends the chain; a poisoned CB marks the operand (R111, R132). -/
def execOut (e : Fin 4) (o : Operand) (s : State) : Out :=
  s.issue (.out e o) (bitClocks o)
    (fun n _ s => allowed (s.writeBit n o (s.engine n).cb (s.engine n).cbP) fun t => .ok ((t.modEngine n Engine.chain).posted n))
    fun n s => s.storeTouch n o.area (Operand.place o).1 (Operand.place o).2

/-- SETB and CLRB: with CB = 1 the operand takes `v`; a poisoned CB leaves its value and marks it (R114, R132). -/
def State.setClear (s : State) (i : Instr) (o : Operand) (v : Bool) : Out :=
  s.issue i (bitClocks o)
    (fun n _ s =>
      let x := s.engine n
      let old := match s.readBit n o with | some y => y.1 | none => false
      allowed (s.writeBit n o (if x.cbP then old else v) x.cbP) fun t =>
        .ok (if x.cbP || x.cb then (t.modEngine n Engine.chain).posted n else s.modEngine n Engine.chain))
    fun n s => if (s.engine n).cbP || (s.engine n).cb then s.storeTouch n o.area (Operand.place o).1 (Operand.place o).2 else []

/-- SETB (R114). -/
def execSetb (e : Fin 4) (o : Operand) (s : State) : Out := s.setClear (.setb e o) o true

/-- CLRB (R114). -/
def execClrb (e : Fin 4) (o : Operand) (s : State) : Out := s.setClear (.clrb e o) o false

/-- INV: CB := ¬CB (R114). -/
def execInv (e : Fin 4) (s : State) : Out := s.issueRegs (.inv e) 1 fun x => { x with cb := !x.cb }

/-- CBSET (R114). -/
def execCbset (e : Fin 4) (s : State) : Out := s.issueRegs (.cbset e) 1 fun x => x.load true false

/-- CBCLR (R114). -/
def execCbclr (e : Fin 4) (s : State) : Out := s.issueRegs (.cbclr e) 1 fun x => x.load false false

/-- A bracket open; with 16 entries on the stack it is a nesting overflow (R112, R113, R135 kind 03h). -/
def State.issueOpen (s : State) (i : Instr) (op : NestOp) : Out :=
  s.issue i 1 fun n _ s =>
    if 16 ≤ (s.engine n).nest.length then .error 3 else .ok (s.modEngine n fun x => x.openBracket op)

/-- AND[ (R112). -/
def execAndOpen (e : Fin 4) (s : State) : Out := s.issueOpen (.andOpen e) .and_

/-- ANDN[ (R112). -/
def execAndnOpen (e : Fin 4) (s : State) : Out := s.issueOpen (.andnOpen e) .andn

/-- OR[ (R112). -/
def execOrOpen (e : Fin 4) (s : State) : Out := s.issueOpen (.orOpen e) .or_

/-- ORN[ (R112). -/
def execOrnOpen (e : Fin 4) (s : State) : Out := s.issueOpen (.ornOpen e) .orn

/-- XOR[ (R112). -/
def execXorOpen (e : Fin 4) (s : State) : Out := s.issueOpen (.xorOpen e) .xor_

/-- XORN[ (R112). -/
def execXornOpen (e : Fin 4) (s : State) : Out := s.issueOpen (.xornOpen e) .xorn

/-- ]: with the stack empty it is a nesting underflow (R112, R113, R135 kind 04h). -/
def execCloseBracket (e : Fin 4) (s : State) : Out :=
  s.issue (.closeBracket e) 1 fun n _ s =>
    match (s.engine n).nest with
    | [] => .error 4
    | y :: rest => .ok (s.modEngine n fun x => x.closeBracket y rest)

/-! ## Edges (R101, R121) -/

/-- In this cycle an edge bit is preloaded and reports no edge: the first cycle after a warm restart or STOP to RUN, and for an
edge bit new at a program switch (R101). -/
def State.preloads (s : State) (n : Nat) : Bool :=
  (s.square.first.warm && !s.square.first.cold) || (s.square.first.switch && s.square.newEdges.contains n)

/-- An edge instruction (R121, R132). -/
def State.issueEdge (s : State) (i : Instr) (o : EdgeOperand) (k : EdgeKind) (op : BitOp) : Out :=
  s.issue i 2
    (fun e _ s => allowed (s.takeBit e o.op) fun r =>
      let s := r.1
      let v := r.2
      let n := o.edge.toNat
      let old := match s.readBit e ⟨.E, o.edge, 0⟩ with | some y => y | none => (false, false)
      let hit := !s.preloads n && k.seen v.1 old.1
      .ok ((((s.modEngine e fun x => x.combine op hit (v.2 || old.2)).loadBit e o.op.area 2).writeEdge e n v.1 v.2).posted e))
    fun e s => s.bitTouch e o.op ++ s.storeTouch e .E (o.edge.toNat / 32) (o.edge.toNat % 32)

/-- ANDR (R121). -/
def execAndr (e : Fin 4) (o : EdgeOperand) (s : State) : Out := s.issueEdge (.andr e o) o .rising .and_

/-- ANDF (R121). -/
def execAndf (e : Fin 4) (o : EdgeOperand) (s : State) : Out := s.issueEdge (.andf e o) o .falling .and_

/-- ORR (R121). -/
def execOrr (e : Fin 4) (o : EdgeOperand) (s : State) : Out := s.issueEdge (.orr e o) o .rising .or_

/-- ORF (R121). -/
def execOrf (e : Fin 4) (o : EdgeOperand) (s : State) : Out := s.issueEdge (.orf e o) o .falling .or_

/-! ## Timers (R123) -/

/-- A timer instruction on timer `n`, which ends the chain: a poisoned input leaves the state and marks OUTPUT and ELAPSED
(R132); `p` says whether the input is poisoned. -/
def State.issueTimer (s : State) (i : Instr) (clk : Nat) (n : Nat) (p : Engine → Bool) (f : Engine → State → Timer → Timer) :
    Out :=
  s.issue i clk
    (fun e _ s =>
      if 4096 ≤ n then .error 7
      else
        let x := s.engine e
        .ok ((s.guardWrite e .T (4 * n) fun s =>
          s.modTimer n fun t => if p x then { t with poisoned := true, elapsedP := true } else f x s t).modEngine e Engine.chain))
    fun e s => if 4096 ≤ n || !s.storeLands e .T (4 * n) then [] else [{ addr := sqT + 16 * n, bytes := 16, write := true }]

/-- The input of TON, TOF and TP is poisoned: CB, or WA where it is the preset (R132). -/
def timerPoison (o : TimerOperand) (x : Engine) : Bool := x.cbP || (o.presetWa && x.waP)

/-- TON (R123). -/
def execTon (e : Fin 4) (o : TimerOperand) (s : State) : Out :=
  s.issueTimer (.ton e o) 2 o.timer.toNat (timerPoison o) fun x s t =>
    t.turned ((t.configure 1 o x.wa).ton x.cb s.freezeInstant s.square.current) s.freezeInstant

/-- TOF (R123). -/
def execTof (e : Fin 4) (o : TimerOperand) (s : State) : Out :=
  s.issueTimer (.tof e o) 2 o.timer.toNat (timerPoison o) fun x s t =>
    t.turned ((t.configure 2 o x.wa).tof x.cb s.freezeInstant s.square.current) s.freezeInstant

/-- TP (R123). -/
def execTp (e : Fin 4) (o : TimerOperand) (s : State) : Out :=
  s.issueTimer (.tp e o) 2 o.timer.toNat (timerPoison o) fun x s t =>
    t.turned ((t.configure 3 o x.wa).tp x.cb s.freezeInstant s.square.current) s.freezeInstant

/-- TCLR (R123). It has no extension word, so a poisoned WA holds it off in no case: CB alone does (R132; DEDUCED, log 135). -/
def execTclr (e : Fin 4) (n : BitVec 20) (s : State) : Out :=
  s.issueTimer (.tclr e n) 1 n.toNat (fun x => x.cbP) fun x _ t => { (if x.cb then t.clear else t) with poisoned := false, elapsedP := false }

/-! ## Counters (R126) -/

/-- A counter instruction on counter `n`, which ends the chain: a poisoned input leaves VALUE and the memories and marks VALUE
(R132). `f` answers the counter and whether a limit was met, which sets OVF and OVS. -/
def State.issueCounter (s : State) (i : Instr) (n : Nat) (p : Engine → Bool) (f : Engine → Counter → Counter × Bool) : Out :=
  s.issue i 1
    (fun e _ s =>
      if 4096 ≤ n then .error 7
      else
        let x := s.engine e
        .ok ((s.guardWrite e .C (2 * n) fun s =>
          if p x then s.modCounter n fun c => { c with poisoned := true }
          else
            let r := f x (s.counter n)
            (s.setCounter n r.1).modEngine e fun x => if r.2 then x.overflow else x).modEngine e Engine.chain))
    fun e s => if 4096 ≤ n || !s.storeLands e .C (2 * n) then [] else [{ addr := sqC + 8 * n, bytes := 8, write := true }]

/-- CUP: counts up on a rising CB (R126). -/
def execCup (e : Fin 4) (n : BitVec 20) (s : State) : Out :=
  s.issueCounter (.cup e n) n.toNat (fun x => x.cbP) fun x c =>
    let r := if x.cb && !c.upMem then c.count 1 else (c, false)
    ({ r.1 with upMem := x.cb }, r.2)

/-- CDN: counts down on a rising CB (R126). -/
def execCdn (e : Fin 4) (n : BitVec 20) (s : State) : Out :=
  s.issueCounter (.cdn e n) n.toNat (fun x => x.cbP) fun x c =>
    let r := if x.cb && !c.downMem then c.count (-1) else (c, false)
    ({ r.1 with downMem := x.cb }, r.2)

/-- CLD: with CB = 1, VALUE := WA and SATURATED clears (R114, R127, R132). -/
def execCld (e : Fin 4) (n : BitVec 20) (s : State) : Out :=
  s.issueCounter (.cld e n) n.toNat (fun x => x.cbP || (x.cb && x.waP)) fun x c =>
    (if x.cb then { c with value := x.wa, saturated := false, poisoned := false } else c, false)

/-- CCLR: with CB = 1, VALUE := 0 and SATURATED clears (R114, R127, R132). -/
def execCclr (e : Fin 4) (n : BitVec 20) (s : State) : Out :=
  s.issueCounter (.cclr e n) n.toNat (fun x => x.cbP) fun x c =>
    (if x.cb then { c with value := 0, saturated := false, poisoned := false } else c, false)

end Sys2Proof.Machine
end

