-- ==== Sys2Proof/Machine/FireConfig.lean ====
section
/-! DEFINITION. The Fire Lane configuration in force (R288, R291), by its words in the load order of R289, and what a tripped
function means for an output (R282, R285). -/

namespace Sys2Proof.Machine

open Sys2Proof

/-- The "when new" value of a configuration word in load order: RESET_SLOT is FFh, every other field 0 (R291). -/
def fireDefault (k : Nat) : Word := if 96 ≤ k && k < 144 && (k - 96) % 3 == 0 then 0x0000FF00 else 0

/-- One of the two copies of the configuration is sound (R288). -/
def Mram.fireValid (m : Mram) : Bool := !(m.fireVoid.get false 0 && m.fireVoid.get false 1)

/-- The set in force: what MRAM holds, but for a confirmed set whose boundary is still to come (R289). -/
def State.fireSet (s : State) : Tab Word := s.fire.before.getD s.mram.fire

/-- Word `k` of the set in force; with both copies void FIRE runs no function (R288). -/
def State.fireWord (s : State) (k : Nat) : Word := if s.mram.fireValid then s.fireSet.get (fireDefault k) k else fireDefault k

/-- Word `w` of input slot `i`, of function `f` and of output slot `o` (R289, R291). -/
def State.inWord (s : State) (i w : Nat) : Word := s.fireWord (3 * i + w)
def State.fnWord (s : State) (f w : Nat) : Word := s.fireWord (96 + 3 * f + w)
def State.outWord (s : State) (o w : Nat) : Word := s.fireWord (144 + 2 * o + w)

/-- KIND and REF of an input slot. -/
def State.inKind (s : State) (i : Nat) : Nat := bits (s.inWord i 0) 31 28
def State.inRef (s : State) (i : Nat) : Nat := bits (s.inWord i 0) 25 16

/-- KIND and REF of an output slot. -/
def State.outKind (s : State) (o : Nat) : Nat := bits (s.outWord o 0) 31 28
def State.outRef (s : State) (o : Nat) : Nat := bits (s.outWord o 0) 27 16

/-- ENABLE, LATCH, CUT, INPUT_MASK and OUTPUT_MASK of a function. -/
def State.fnEnabled (s : State) (f : Nat) : Bool := bit (s.fnWord f 0) 31
def State.fnLatch (s : State) (f : Nat) : Bool := bit (s.fnWord f 0) 28
def State.fnCut (s : State) (f : Nat) : Bool := bit (s.fnWord f 0) 27
def State.fnNames (s : State) (f i : Nat) : Bool := bit (s.fnWord f 1) i
def State.fnDrives (s : State) (f o : Nat) : Bool := bits (s.fnWord f 2) 23 0 / 2 ^ o % 2 == 1

/-- The output slot of a kind that names a channel (R282). -/
def State.outSlotOf (s : State) (kind n : Nat) : Option Nat :=
  (List.range 24).find? fun o => s.outKind o == kind && s.outRef o == n

/-- Some input slot of these kinds names a channel (R274). -/
def State.inSlotNames (s : State) (kinds : List Nat) (n : Nat) : Bool :=
  (List.range 32).any fun i => kinds.contains (s.inKind i) && s.inRef i == n

/-- An output slot is driven to its trip state: a tripped, enabled function names it (R282). -/
def State.outTripped (s : State) (o : Nat) : Bool :=
  (List.range 16).any fun f => s.fnEnabled f && (s.fireFn f).tripped && s.fnDrives f o

/-- TRIP_CUT is asserted on the cable: by the partner or by this module (R285). A simplex module has no line (R286). -/
def State.lineCut (s : State) : Bool := s.pairMode && (s.fire.cutIn || s.fire.cutOut)

/-- The module has left service because of FIRE (R35): FIRE holds no output tripped any more. -/
def State.fireFaulted (s : State) : Bool := (s.island 9).state == .faulted

/-- Fire Lane claims an output of kind `kind` (R186 order 1, R225 row 3): its slot is tripped or TRIP_CUT is asserted, and
the module drives its outputs or the output's hold is holding. With FIRE at fault the safe states of R35 apply in simplex. -/
def State.tripClaims (s : State) (kind n : Nat) (held : Bool) : Bool :=
  match s.outSlotOf kind n with
  | none => false
  | some o => ((s.outTripped o && !s.fireFaulted) || s.lineCut) && (s.drives || held)

/-- A message to FIRE over its Class 0 crossings (R274). -/
def State.toFire (s : State) (m : FireMsg) : State := { s with fire := { s.fire with inbox := s.fire.inbox ++ [m] } }

/-- Side-Street mode, and full service before its first apply (R209, R231). -/
def State.beforeFirstApply (s : State) : Bool :=
  s.service == .sideStreet || (s.service == .full && !s.square.committedOnce)

/-- The module has left service or halted: a simplex module's outputs are in their safe states (R35, R407). -/
def State.leftService (s : State) : Bool := s.service == .outOfService || s.service == .halted

/-- STOP with STOP_ACTION = 1 (R95). -/
def State.stopSafe (s : State) : Bool := s.square.prog == .stop && bit (s.cfg 0x101 2) 0

/-- The newest complete retained image (R103). -/
def State.newestRetained (s : State) : Option Retained :=
  let l := ((List.range 2).filterMap fun i => s.mram.retained.get none i).filter fun r => !r.void
  l.foldl (fun b r => match b with | some x => if x.seq < r.seq then some r else some x | none => some r) none

end Sys2Proof.Machine
end

