-- ==== Sys2Proof/Machine/Forward.lean ====
section
/-! DEFINITION. Changes that the active forwards to its standby (R305): the boundary at which both apply them, and what waits. -/

namespace Sys2Proof.Machine

open Sys2Proof

/-- The module is ACTIVE, so its partner is in STANDBY_SYNC and changes are forwarded (R297, R305). -/
def State.forwards (s : State) : Bool := s.pairMode && s.pair.state == .active

/-- The pair has a standby: the partner is in STANDBY_SYNC, or its heartbeats say that it takes the pair's state (R297). -/
def State.hasStandby (s : State) : Bool :=
  s.forwards || (s.pairMode && s.pair.state == .alone && match s.pair.partnerHb with | some h => h.state == 1 || h.state == 2 | none => false)

/-- A partner packet or heartbeat can come by a lane of the Causeway (R293). -/
def State.cableUp (s : State) : Bool := s.pair.cable && (s.pair.lane0 || s.pair.lane1) && !s.down 14

/-- The Causeway path is lost (R293, R296). -/
def State.causewayLost (s : State) : Bool := s.pair.cwSilent || !s.cableUp

/-- The first cycle boundary at least four cycles after now, as the number of the cycle it starts (R305). -/
def State.changeBoundary (s : State) : BitVec 32 := cyclePlus s.square.current (if s.square.phase == .idle then 4 else 5)

/-- Hands a message for the partner to the Causeway. -/
def State.tellPartner (s : State) (c : Change) (at_ : BitVec 32) : State :=
  { s with pair := { s.pair with forwarded := s.pair.forwarded ++ [(c, at_)] } }

/-- Forwards a change and keeps it for its boundary. -/
def State.queueChange (s : State) (c : Change) : State :=
  let b := s.changeBoundary
  { s.tellPartner c b with pair := { (s.tellPartner c b).pair with waitingChanges := s.pair.waitingChanges ++ [(c, b)] } }

/-- Forwards a change whose place in time it carries itself (a word or a close with its boundary, a coefficient change with its sample), or a staged
set, which takes effect at none (log 42). -/
def State.tellStandby (s : State) (c : Change) : State :=
  if s.forwards then s.tellPartner c s.changeBoundary else s

/-- A bank that a load which waits for its boundary will open (R305). -/
def State.loadWaits (s : State) (b : Bool) : Bool :=
  s.pair.waitingChanges.any fun (e : Change × BitVec 32) => match e.1 with | .programBegin o _ _ => o == b | _ => false

/-- The load that is open once the changes that wait for their boundary are in force: its bank and its words (R305). -/
def State.plannedLoad (s : State) : Option (Bool × Nat) :=
  s.pair.waitingChanges.foldl (fun (l : Option (Bool × Nat)) e => match e.1 with
    | .programBegin b n _ => some (b, n)
    | .programEnd => none
    | _ => l) (s.square.load.map fun b => (b, (s.bank (b2n b)).words))

/-- A command whose effect must be forwarded: with the Causeway path lost it is answered BUSY; in a synchronised pair both modules
apply it at a common boundary; else it acts by `now` (R305). -/
def State.forwardOr (s : State) (c : Ctx) (chg : Change) (now done : State → State) : State :=
  if !s.forwards then done (now s)
  else if s.causewayLost then s.replyBusy c true
  else done (s.queueChange chg)

end Sys2Proof.Machine
end

