-- ==== Sys2Proof/Machine/Digital.lean ====
section
/-! DEFINITION. Digital field inputs and outputs (chapter 08): the status words, the source of an output's state, protection and
holds, and the events of the field side. -/

namespace Sys2Proof.Machine

open Sys2Proof

/-! ## Configuration (R232, R234, R236) -/

/-- Configuration word 0 of DI n and of DO n. -/
def State.diCfg (s : State) (n : Nat) : Word := s.cfg (0x420 + n) 0
def State.doCfg (s : State) (n : Nat) : Word := s.cfg (0x460 + n) 0

/-- ENABLE, WIRE_BREAK_EN, SOE_RECORD and COUNT_EDGE of DI n. -/
def State.diEnable (s : State) (n : Nat) : Bool := bit (s.diCfg n) 31
def State.diWireEn (s : State) (n : Nat) : Bool := bit (s.diCfg n) 30
def State.diSoe (s : State) (n : Nat) : Bool := bit (s.diCfg n) 29
def State.diCountEdge (s : State) (n : Nat) : Nat := bits (s.diCfg n) 15 14
def State.diThreshold (s : State) (n : Nat) : Nat := bits (s.cfg (0x420 + n) 1) 23 0

/-- The filter time of DI n (R214), and that of its counting path (R218), in ns. -/
def State.filterNs (s : State) (n : Nat) : Nat := bits (s.diCfg n) 25 16 * 50000
def State.countFilterNs (s : State) (n : Nat) : Nat := bits (s.diCfg n) 13 7 * 500

/-- ENABLE, SAFE_STATE, RESTART = LATCH, OPEN_LOAD_EN, START_ACTION and START_STATE of DO n. -/
def State.doEnable (s : State) (n : Nat) : Bool := bit (s.doCfg n) 31
def State.doSafe (s : State) (n : Nat) : Bool := bit (s.doCfg n) 30
def State.doLatch (s : State) (n : Nat) : Bool := bit (s.doCfg n) 29
def State.doOpenEn (s : State) (n : Nat) : Bool := bit (s.doCfg n) 28
def State.doStartAction (s : State) (n : Nat) : Nat := bits (s.doCfg n) 27 26
def State.doStartState (s : State) (n : Nat) : Bool := bit (s.doCfg n) 25

/-! ## Status words (R233, R235, R236) -/

/-- STALE of every digital input: DSCAN restarts in place (R33, R233). -/
def State.diStale (s : State) : Bool := s.down 8

/-- UNASSURED of DI n (R233). -/
def State.diUnassured (s : State) (n : Nat) : Bool :=
  let g := s.diGroup (n / 8)
  (s.di n).wireBreak || g.low || g.lost || s.diStale

/-- The status word of DI n at time `t` (R233). A disabled input shows SIDE_STREET only (R232). -/
def State.diStatus (s : State) (n t : Nat) : Word :=
  let d := s.di n
  let g := s.diGroup (n / 8)
  if !s.diEnable n then mkWord [(24, 24, b2n s.beforeFirstApply)]
  else mkWord [(31, 31, b2n d.level), (30, 30, b2n (s.diUnassured n)), (29, 29, b2n d.wireBreak), (28, 28, b2n g.sag),
    (27, 27, b2n g.low), (26, 26, b2n g.lost), (25, 25, b2n s.diStale), (24, 24, b2n s.beforeFirstApply),
    (23, 20, min d.edges 15), (15, 0, if d.edged then satNat 16 ((t - d.lastEdge) / 1000) else 0xFFFF)]

/-- The filtered state and the unassured flag of DI n as area I shows them (R78, R232). -/
def State.diState (s : State) (n : Nat) : Bool := s.diEnable n && (s.di n).level
def State.diFlag (s : State) (n : Nat) : Bool := s.diEnable n && s.diUnassured n

/-- EXT_DRIVE of DO n (R230): with EXPECT_EXTERNAL_DRIVE = 1, while the module is standby or STALE; an incoming module is one of these
until its claim rises. -/
def State.extDrive (s : State) (n : Nat) : Bool := s.pairMode && s.standby && bit (s.cfg (0x460 + n / 8 * 8) 34) 0

/-- FAULT of DO n (R222). -/
def Do.fault (d : Do) : Bool := d.openLoad || d.short || d.overload || d.thermal

/-- CURRENT_MA of DO n: 0 while the output is off or blocks reverse current (R224), else what is measured, which no command
carries. -/
def State.doCurrent (s : State) (n : Nat) : Nat :=
  if (s.do_ n).driven && !(s.do_ n).reverse then (Config.outputCurrent n s.now).toNat else 0

/-- GROUP_CURRENT_MA of DO group g (R236): 0 while none of its outputs supplies current, else what is measured. -/
def State.doGroupCurrent (s : State) (g : Nat) : Nat :=
  if (List.range 8).any fun k => (s.do_ (8 * g + k)).driven && !(s.do_ (8 * g + k)).reverse then (Config.groupCurrent g s.now).toNat else 0

/-- LEVEL of DO n (R235): what is read at the terminal, which no command carries (log 62). -/
def State.doLevel (s : State) (n : Nat) : Bool := Config.terminalHigh n s.now

/-- TRIP_HELD of DO n (R225 row 3): the rows above do not apply. -/
def State.doTripHeld (s : State) (n : Nat) : Bool :=
  let d := s.do_ n
  !(s.doGroup (n / 8)).lost && !d.protectedOff && s.tripClaims 1 n d.held

/-- The status word of DO n (R235). -/
def State.doStatus (s : State) (n : Nat) : Word :=
  let d := s.do_ n
  let g := s.doGroup (n / 8)
  mkWord [(31, 31, b2n d.driven), (30, 30, b2n (s.doLevel n)), (29, 29, b2n d.fault), (28, 28, b2n d.openLoad), (27, 27, b2n d.short),
    (26, 26, b2n d.overload), (25, 25, b2n d.thermal), (24, 24, b2n g.low), (23, 23, b2n g.sag), (22, 22, b2n g.lost),
    (21, 21, b2n d.latchedOff), (20, 20, b2n d.held), (19, 19, b2n (s.doTripHeld n)), (18, 18, b2n d.poison),
    (17, 17, b2n d.reverse), (16, 16, b2n (s.extDrive n)), (11, 0, s.doCurrent n)]

/-- The group word, sub-index 32 (R236). -/
def DGroup.word (g : DGroup) (lplus : Nat) : Word :=
  mkWord [(31, 16, lplus), (15, 15, b2n g.sag), (14, 14, b2n g.low), (13, 13, b2n g.lost), (12, 12, b2n g.overcurrent)]

/-! ## The source of an output's state (R225) -/

/-- The start value of DO n (R231). -/
def State.doStart (s : State) (n : Nat) : Bool :=
  s.doEnable n && match s.doStartAction n with
  | 1 => match s.newestRetained with | some r => ((r.doOut.find? (·.1 == n)).map (·.2)).getD false | none => false
  | 2 => s.doStartState n
  | _ => false

/-- Rows 7 to 10 of R225: the state selected, and whether the committed Q bit is poisoned (row 9). While DSCAN restarts in place rows 8 to 10
hold the last applied state, and POISON stays as it is. -/
def State.doRows (s : State) (n : Nat) : Bool × Bool :=
  if (!s.pairMode && s.leftService) || s.stopSafe then (s.doSafe n, false)
  else if !s.runs 8 then ((s.do_ n).selected, (s.do_ n).poison)
  else match s.forceOn .Q 0 with
  | some f => (bit f.value n, false)
  | none =>
    let q := s.sqWord .done .Q 0
    if q.2 then ((s.do_ n).selected, true) else (bit q.1 n, false)

/-- Rows 6 to 10 of R225. -/
def State.doSelect (s : State) (n : Nat) : Bool × Bool := if s.standby || !s.doEnable n then (false, false) else s.doRows n

/-- Rows 1 to 5 of R225, and drivers that the pair has not enabled (R294): the state they give, if one applies. -/
def State.doForced (s : State) (n : Nat) : Option Bool :=
  let d := s.do_ n
  if (s.doGroup (n / 8)).lost then some false
  else if d.protectedOff then some false
  else if s.tripClaims 1 n d.held then some (s.doSafe n)
  else if d.held then some d.heldState
  else if d.latchedOff then some false
  else if !s.drives then some false
  else none

/-- Drives DO n (R225): rows 1 to 5 act at once; where none applies, the state last selected, or the present one until the
next apply. -/
def State.doRefresh (s : State) (n : Nat) : State :=
  let d := s.do_ n
  let v := (s.doForced n).getD (if d.await_ then d.driven else d.selected)
  s.setDo n { d with driven := v
                     onSince := if v then (if d.driven then d.onSince else some s.now) else none }

/-- Drives every output again. -/
def State.doRefreshAll (s : State) : State := s.each (List.range 32) State.doRefresh

/-- A retry that has fallen due is made (R221). -/
def Do.retry (d : Do) (now : Nat) : Do :=
  if d.protectedOff && !d.latchedOff && !d.hot && d.retryAt ≤ now then { d with protectedOff := false, retrying := true }
  else d

/-- The state selected for DO n under R225 with protection aside, given what rows 6 to 10 select. -/
def State.doWould (s : State) (n : Nat) (v : Bool) : Bool :=
  let d := s.do_ n
  if (s.doGroup (n / 8)).lost then false
  else if s.tripClaims 1 n d.held then s.doSafe n
  else if d.held then d.heldState
  else if d.latchedOff || !s.drives then false
  else v

/-- An output with LATCH whose group has recovered latches off when its committed state is on (R228); on a standby that is the state of its
shadow commit, so that both modules of a pair latch alike (R230). -/
def State.doLatches (s : State) (n : Nat) : Bool := (s.do_ n).recovered && s.doLatch n && s.doEnable n && (s.doRows n).1

/-- Apply for DO n (R225, R228, R221). POISON is set where row 9 is the first that applies (log 104). -/
def State.doApply (s : State) (n : Nat) : State :=
  let d := s.do_ n
  let (v, q) := s.doSelect n
  let latch := s.doLatches n
  let d' := { d with selected := v, await_ := false, recovered := false, latchedOff := d.latchedOff || latch }
  let d' := if s.doWould n v && !latch then d'.retry s.now else d'
  let s := s.setDo n d'
  let p := q && (s.doForced n).isNone
  let s := (s.setDo n { d' with poison := p }).doRefresh n
  if p && !d.poison then s.raise .doOutputPoisoned (mkWord [(4, 0, n)]) else s

/-! ## Inputs (R214 to R219) -/

/-- What DI n is before a change (R81). -/
def Di.seen (d : Di) (now : Nat) : DiSeen :=
  { until_ := now, level := d.level, wireBreak := d.wireBreak, lastEdge := d.lastEdge, edged := d.edged, edges := d.edges }

/-- Before a change of a digital input: what it was is kept where a freeze may still ask for it (R81). -/
def State.keepDi (s : State) (d : Di) : Di := { d with past := if s.looksBack then d.seen s.now :: d.past else [] }

/-- The same for the levels of a group. -/
def State.keepGroup (s : State) (x : DGroup) : DGroup :=
  { x with past := if s.looksBack then { until_ := s.now, sag := x.sag, low := x.low, lost := x.lost } :: x.past else [] }

/-- The digital input as it was at instant `f` (R81, R215): every change after `f` is taken back. -/
def Di.at (d : Di) (f : Nat) : Di :=
  match (d.past.filter fun p => decide (f < p.until_)).getLast? with
  | some p => { d with level := p.level, wireBreak := p.wireBreak, lastEdge := p.lastEdge, edged := p.edged, edges := p.edges }
  | none => d

/-- The digital input after the freeze at `f` (R215): EDGES counts anew from there. -/
def Di.frozen (d : Di) (f : Nat) : Di :=
  let n := (d.at f).edges
  { d with edges := d.edges - n
           past := (d.past.filter fun p => decide (f < p.until_)).map fun p => { p with edges := p.edges - n } }

/-- The levels of a group as they were at instant `f` (R81). -/
def DGroup.at (x : DGroup) (f : Nat) : DGroup :=
  match (x.past.filter fun p => decide (f < p.until_)).getLast? with
  | some p => { x with sag := p.sag, low := p.low, lost := p.lost }
  | none => x

/-- Sends the state of DI n to FIRE when a slot names it (R216). -/
def State.diToFire (s : State) (n : Nat) : State :=
  if s.inSlotNames [1, 7] n then
    let g := s.diGroup (n / 8)
    s.toFire (.di n (s.di n).level (s.di n).wireBreak (g.low || g.lost) s.diStale)
  else s

/-- Sends the states of a DI group after a change of UNASSURED (R216). -/
def State.diGroupToFire (s : State) (g : Nat) : State :=
  s.each ((List.range 8).map fun k => 8 * g + k) fun s n => if s.diEnable n then s.diToFire n else s

/-- The filter accepts a level that the input has shown since `first` (R214): the run is as long as FILTER asks, and began after the latest
restart of the filter run and after the latest acceptance. -/
def State.filterDone (s : State) (n first : Nat) : Bool :=
  (s.di n).filterFrom ≤ first && decide (first + s.filterNs n ≤ s.now)

/-- DI_CHANGE_ACCEPTED (R214, R215): a filtered state takes a new level. The first run that the filter completes after a commanded restart is told to FIRE
also where it shows the level that the state has (log 140). -/
def execDiChangeAccepted (n : Fin 48) (level : Bool) (firstSample : Nat) (s : State) : Out :=
  let d := s.di n
  if !s.diEnable n || !s.runs 8 || !s.filterDone n firstSample then .next s
  else if d.level == level then
    if d.untold then .next ((s.setDi n { d with untold := false }).diToFire n) else .next s
  else
    let t := firstSample - 3000
    let s := s.setDi n { s.keepDi d with level := level, lastEdge := t, edged := true, edgeCount := d.edgeCount + 1, edges := d.edges + 1
                                         filterFrom := s.now, untold := false }
    let e := bits (s.sourceCfg (64 + n)) 27 26
    let s := if (level && e % 2 == 1) || (!level && 2 ≤ e) then s.fireSourceAt (64 + n) t else s
    let s := if s.diSoe n then s.raiseFull 8 .diEdge (mkWord [(31, 31, b2n level), (5, 0, n)]) (some t) none else s
    .next (s.diToFire n)

/-- The counting path accepts a level whose run is complete at `t` (R218): it is not the level it holds, and the run is as long as
COUNT_FILTER asks after the latest acceptance or the start of the path. -/
def State.countDone (s : State) (n : Nat) (level : Bool) (t : Nat) : Bool :=
  (s.di n).countLevel != some level && decide ((s.di n).countFrom + s.countFilterNs n ≤ t)

/-- COUNT_EDGE selects the edge (R218). -/
def State.countSelects (s : State) (n : Nat) (rising : Bool) : Bool :=
  (rising && s.diCountEdge n % 2 == 1) || (!rising && 2 ≤ s.diCountEdge n)

/-- PULSE_EDGE_COUNTED (R218, R219): the counting path of DI n accepts the level of an edge, and counts it where COUNT_EDGE selects it. -/
def execPulseEdgeCounted (n : Fin 16) (rising : Bool) (t : Nat) (s : State) : Out :=
  let d := s.di n
  if !s.diEnable n || (s.diGroup (n / 8)).lost || !s.countDone n rising t then .next s
  else if !s.countSelects n rising then .next (s.setDi n { d with countLevel := some rising, countFrom := t })
  else
    let d := { d with raw := d.raw + 1, trail := d.trail ++ [t], countLevel := some rising, countFrom := t }
    let th := s.diThreshold n
    if th != 0 && th ≤ (d.raw - d.thresholdBase).toNat then
      .next ((s.setDi n { d with thresholdBase := d.raw }).fireSourceAt (112 + n) t)
    else .next (s.setDi n d)

/-- COUNT_STAGE_POWER_LOST (R219): L+ fell below 5 V and RAW_COUNT of the group restarts at 0. -/
def execCountStagePowerLost (g : Fin 6) (s : State) : Out :=
  let s := s.each ((List.range 8).map fun k => 8 * g.val + k) fun s n => s.modDi n fun d => { d with raw := 0, thresholdBase := 0, trail := [] }
  .next (s.modDiGroup g fun x => { x with stageReset := true })

/-- A fall of WIRE_BREAK (R217). -/
def State.clearWireBreak (s : State) (n : Nat) : State :=
  ((s.modDi n fun d => { s.keepDi d with wireBreak := false }).raise .wireBreakCleared (mkWord [(5, 0, n)])).diToFire n

/-- WIRE_BREAK (R217): the current has stayed below 0.5 mA for 10 ms. -/
def execWireBreak (n : Fin 48) (s : State) : Out :=
  if !s.diEnable n || !s.runs 8 || !s.diWireEn n || (s.di n).wireBreak || (s.diGroup (n / 8)).lost then .next s
  else .next (((s.modDi n fun d => { s.keepDi d with wireBreak := true }).raise .wireBreak (mkWord [(5, 0, n)])).diToFire n)

/-- WIRE_BREAK_CLEARED (R217): the current has stayed above 0.8 mA for 10 ms. -/
def execWireBreakCleared (n : Fin 48) (s : State) : Out :=
  if !(s.di n).wireBreak || !s.runs 8 || (s.diGroup (n / 8)).lost then .next s else .next (s.clearWireBreak n)

/-! ## Group supplies (R227, R228) -/

/-- The entry of a group of either kind, and its change. -/
def State.dGroup (s : State) (k : GroupKind) (g : Nat) : DGroup := match k with | .di => s.diGroup g | .do_ => s.doGroup g
def State.setDGroup (s : State) (k : GroupKind) (g : Nat) (x : DGroup) : State :=
  match k with | .di => s.setDiGroup g x | .do_ => s.setDoGroup g x

/-- Groups of a kind (R211). -/
def groupCount (k : GroupKind) : Nat := match k with | .di => 6 | .do_ => 4

/-- A record of a group supply: KIND, LPLUS_MV and group. -/
def State.raiseGroup (s : State) (r : RecKind) (k : GroupKind) (g : Nat) : State :=
  s.raise r (mkWord [(31, 31, if k == .do_ then 1 else 0), (23, 8, ((s.dGroup k g).lplus).getD 0), (2, 0, g)])

/-- Each counting path of a DI group drops its run and the level it held (R219): the next run is from the level then present. -/
def State.dropCounting (s : State) (g : Nat) : State :=
  s.each ((List.range 8).map fun k => 8 * g + k) fun s n => s.modDi n fun d => { d with countLevel := none, countFrom := s.now }

/-- Two consecutive samples below a threshold act (R227): the run of samples below, and whether the threshold acts now. -/
def below (mv limit run : Nat) : Nat := if mv < limit then min (run + 1) 2 else 0

/-- GROUP_SUPPLY_SAMPLE (R212, R227): the sample that DSCAN takes every 100 µs. The UVLO comparator of a DO group is in hardware and has an
event of its own. -/
def execGroupSupplySample (k : GroupKind) (g : Fin 6) (mv : Nat) (s : State) : Out :=
  if groupCount k ≤ g.val || !s.runs 8 then .next s
  else
    let x := s.dGroup k g
    let r := below mv 19200 x.below
    let rl := below mv 15000 x.belowLow
    let ro := below mv 12000 x.belowLost
    let sag := r == 2 && !x.sag
    let low := rl == 2 && !x.low
    let lost := k == .di && ro == 2 && !x.lost
    let y := if sag || low || lost then s.keepGroup x else x
    let s := s.setDGroup k g { y with lplus := some mv, below := r, belowLow := rl, belowLost := ro, sag := x.sag || sag,
                                      low := x.low || low, lost := x.lost || lost
                                      lostEvents := if lost then satInc x.lostEvents else x.lostEvents }
    let s := if sag then s.raiseGroup .groupSag k g else s
    let s := if low then s.raiseGroup .groupLow k g else s
    let s := if lost then (s.raiseGroup .groupUvlo k g).dropCounting g else s
    .next (if k == .di && (low || lost) then s.diGroupToFire g else s)

/-- The outputs of a DO group. -/
def groupOutputs (g : Nat) : List Nat := (List.range 8).map fun k => 8 * g + k

/-- An output of a group whose UVLO clears (R228): it waits for the next apply, or acts by its start value in Side-Street mode. -/
def State.uvloRecovered (s : State) (n : Nat) : State :=
  let d := s.do_ n
  if s.service == .sideStreet then (s.setDo n { d with latchedOff := d.latchedOff || (s.doLatch n && d.selected) }).doRefresh n
  else s.setDo n { d with await_ := true, recovered := true }

/-- DSCAN does the work of a level (R212, R407). The UVLO comparator of a DO group is in hardware and needs no island (R227). -/
def State.levelRuns (s : State) (k : GroupKind) (l : GroupLevel) : Bool := s.runs 8 || (k == .do_ && l == .lost)

/-- GROUP_LEVEL_CLEAR (R227, R228): a level has stayed above its clearing threshold for 20 ms. -/
def execGroupLevelClear (k : GroupKind) (g : Fin 6) (l : GroupLevel) (s : State) : Out :=
  if groupCount k ≤ g.val || !s.levelRuns k l then .next s
  else
    let x := s.keepGroup (s.dGroup k g)
    match l with
    | .sag => if x.sag then .next (s.setDGroup k g { x with sag := false, below := 0 }) else .next s
    | .low =>
      if x.low then
        let s := s.setDGroup k g { x with low := false, belowLow := 0 }
        .next (if k == .di then s.diGroupToFire g else s)
      else .next s
    | .lost =>
      if x.lost then
        let s := (s.setDGroup k g { x with lost := false, belowLost := 0 }).raiseGroup .groupRecovered k g
        .next (match k with
          | .di => (s.dropCounting g).diGroupToFire g
          | .do_ => s.each (groupOutputs g) State.uvloRecovered)
      else .next s

/-- GROUP_UVLO (R227, R229): L+ of a DO group fell below 12 V; drivers and hold latches go off. -/
def execGroupUvlo (g : Fin 4) (mv : Nat) (s : State) : Out :=
  let x := s.doGroup g
  if x.lost then .next s
  else
    let s := (s.setDoGroup g { x with lplus := some mv, lost := true, lostEvents := satInc x.lostEvents }).raiseGroup .groupUvlo .do_ g
    .next (s.each (groupOutputs g) fun s n => (s.modDo n fun d => { d with held := false }).doRefresh n)

/-- GROUP_OVERCURRENT (R220): the group current has exceeded 6.0 A for 1 s. -/
def execGroupOvercurrent (g : Fin 4) (ma : Nat) (s : State) : Out :=
  if (s.doGroup g).overcurrent || !s.runs 8 then .next s
  else .next ((s.modDoGroup g fun x => { x with overcurrent := true }).raise .groupOvercurrent
    (mkWord [(23, 8, ma), (2, 0, g)]))

/-- GROUP_OVERCURRENT_CLEARED (R220): the group current has stayed at 6.0 A or below for 1 s. -/
def execGroupOvercurrentCleared (g : Fin 4) (ma : Nat) (s : State) : Out :=
  if !(s.doGroup g).overcurrent || !s.runs 8 then .next s
  else .next ((s.modDoGroup g fun x => { x with overcurrent := false }).raise .groupOvercurrentCleared
    (mkWord [(23, 8, ma), (2, 0, g)]))

/-! ## Output protection (R221 to R224) -/

/-- A DO_FAULT or DO_FAULT_CLEARED record of a kind (1 OPEN_LOAD, 2 SHORT_TO_SUPPLY, 3 OVERLOAD, 4 THERMAL). -/
def State.raiseDo (s : State) (r : RecKind) (kind n : Nat) : State := s.raise r (mkWord [(31, 24, kind), (4, 0, n)])

/-- A rise of a fault of DO n: the source and the record. -/
def State.doFaultRise (s : State) (kind n : Nat) : State := (s.fireSource (224 + n)).raiseDo .doFault kind n

/-- DO n switches off under protection (R221). -/
def State.doProtect (s : State) (n : Nat) (thermal : Bool) : State :=
  let d := s.do_ n
  let tries := if d.retrying then (if d.lastThermal == thermal then d.retries + 1 else 1) else 0
  let d := { d with overload := d.overload || !thermal, thermal := d.thermal || thermal, protectedOff := true, hot := d.hot || thermal
                    retryAt := s.now + 1000000000, retries := tries, retrying := false, lastThermal := thermal, overloads := satInc d.overloads
                    latchedOff := d.latchedOff || s.doLatch n || decide (8 ≤ tries) }
  ((s.setDo n d).doRefresh n).doFaultRise (if thermal then 4 else 3) n

/-- DO_OVERLOAD (R221): in current limit for 10 ms after the inrush period. -/
def execDoOverload (n : Fin 32) (s : State) : Out := if (s.do_ n).driven then .next (s.doProtect n false) else .next s

/-- DO_THERMAL_SHUTDOWN (R221): the driver is above 150 °C. -/
def execDoThermalShutdown (n : Fin 32) (s : State) : Out := if (s.do_ n).driven then .next (s.doProtect n true) else .next s

/-- DO_RETRY_DUE (R221): a retry falls due; after a thermal shut-down once the driver has cooled. The retry itself is made at an
apply. -/
def execDoRetryDue (n : Fin 32) (cooled : Bool) (s : State) : Out :=
  let d := s.do_ n
  .next (s.setDo n { d with hot := d.hot && !cooled })

/-- DO_FAULT_CLEARED (R221): a retry or acknowledged restart has stayed on for 1 s. -/
def execDoFaultCleared (n : Fin 32) (s : State) : Out :=
  let d := s.do_ n
  match d.onSince with
  | some t =>
    if (d.overload || d.thermal) && s.runs 8 && d.driven && t + 1000000000 ≤ s.now then
      let s := s.setDo n { d with overload := false, thermal := false, retries := 0, retrying := false }
      let s := if d.overload then s.raiseDo .doFaultCleared 3 n else s
      .next (if d.thermal then s.raiseDo .doFaultCleared 4 n else s)
    else .next s
  | none => .next s

/-- OPEN_LOAD (R222): driven on with less than 3 mA for 100 ms. -/
def execOpenLoad (n : Fin 32) (s : State) : Out :=
  let d := s.do_ n
  if !s.doOpenEn n || !s.runs 8 || !d.driven || d.openLoad then .next s else .next ((s.setDo n { d with openLoad := true }).doFaultRise 1 n)

/-- A fall of OPEN_LOAD (R222). -/
def State.clearOpenLoad (s : State) (n : Nat) : State :=
  (s.modDo n fun d => { d with openLoad := false }).raiseDo .doFaultCleared 1 n

/-- OPEN_LOAD_CLEAR (R222): 5 mA or more for 100 ms. While the output is off the flag keeps its value. -/
def execOpenLoadClear (n : Fin 32) (s : State) : Out :=
  if (s.do_ n).openLoad && s.runs 8 && (s.do_ n).driven then .next (s.clearOpenLoad n) else .next s

/-- SHORT_TO_SUPPLY (R223): driven off and the terminal above 10 V for more than 5 ms. Under EXT_DRIVE it is not raised (R230). -/
def execShortToSupply (n : Fin 32) (s : State) : Out :=
  let d := s.do_ n
  if d.driven || !s.runs 8 || d.short || s.extDrive n then .next s
  else .next ((s.setDo n { d with short := true, shorts := satInc d.shorts }).doFaultRise 2 n)

/-- SHORT_TO_SUPPLY_CLEAR (R223): the terminal low for 20 ms while the output is off. -/
def execShortToSupplyClear (n : Fin 32) (s : State) : Out :=
  let d := s.do_ n
  if d.driven || !s.runs 8 || !d.short then .next s
  else .next ((s.setDo n { d with short := false }).raiseDo .doFaultCleared 2 n)

/-- REVERSE (R224): the terminal stands more than 0.5 V above L+, or no longer does. -/
def execReverse (n : Fin 32) (above : Bool) (s : State) : Out :=
  .next (s.modDo n fun d => { d with reverse := above })

/-! ## Commands and refresh -/

/-- OUTPUT_ACK (R68, R226). -/
def outputAckDesc : CmdDesc := { code := 0x0502, roles := [.operate], fits := exact 2, kind := .change }

/-- Acknowledges the outputs of a group (R226): a bit has effect on a LATCHED_OFF output whose group is not in UVLO and whose
driver has cooled. -/
def State.acknowledge (s : State) (g mask : Nat) : State :=
  s.each ((List.range 8).filter fun k => mask.testBit k) fun s k =>
    let n := 8 * g + k
    let d := s.do_ n
    if d.latchedOff && !(s.doGroup g).lost && !d.hot then
      (s.setDo n { d with latchedOff := false, protectedOff := false, retries := 0, retrying := false, await_ := true }).raise .outputAcknowledged
        (mkWord [(4, 0, n)])
    else s

/-- OUTPUT_ACK acknowledges outputs of a group above 3 as no group (BAD_OBJECT); in a synchronised pair at a common boundary
(R230). -/
def runOutputAck (c : Ctx) (b : List Byte) (s : State) : State :=
  let g := byteAt b 0
  let m := byteAt b 1
  if 3 < g then s.refuse c .badObject
  else s.forwardOr c (.ack (Fin.ofNat 4 g) (BitVec.ofNat 8 m)) (fun s => s.acknowledge g m) (fun s => s.ok c)

def execOutputAck (p : Packet) (s : State) : Out := s.command p outputAckDesc runOutputAck

/-- DSCAN offers the states and status words anew (R231). -/
def State.offerDigital (s : State) : State :=
  let s := s.each (List.range 48) fun s n =>
    let w := s.diStatus n s.now
    s.modDi n fun d => { d with offered := w }
  s.each (List.range 32) fun s n =>
    let w := s.doStatus n
    s.modDo n fun d => { d with offered := w }

/-- SIDE_STREET_REFRESH (R231): every 1 ms until the first apply of full service. -/
def execSideStreetRefresh (s : State) : Out :=
  if s.beforeFirstApply && s.dueEvery s.power.refreshedAt 1000000 then
    .next { s with power := { s.power with refreshedAt := some s.now } }.offerDigital
  else .next s

end Sys2Proof.Machine
end

