-- ==== Sys2Proof/Machine/Panel.lean ====
section
/-! DEFINITION. Mimic panel and trip plate (chapter 15): frames, power, plate updates and temperature bands. -/

namespace Sys2Proof.Machine

open Sys2Proof

/-! ## Frames (R366 to R372) -/

/-- ENABLE, SOURCE = program and FRAME_BASE of the panel. -/
def State.panelEnable (s : State) : Bool := bit (s.cfg 0xB00 0) 31
def State.panelProgram (s : State) : Bool := bit (s.cfg 0xB00 0) 27
def State.frameBase (s : State) : Nat := (s.cfg 0xB00 2).toNat

/-- The 4,096 bytes of a buffer. -/
def frameBytes (t : Tab Byte) : List Byte := (List.range 4096).map (t.get 0)

/-- Writes bytes into a buffer from an offset on. -/
def putFrame (t : Tab Byte) (at_ : Nat) : List Byte → Tab Byte
  | [] => t
  | b :: l => putFrame (t.set 0 at_ b) (at_ + 1) l

/-- PANEL_FRAME (R72, R370). -/
def panelFrameDesc : CmdDesc :=
  { code := 0x0900, roles := [.operate], cls := 3, fits := fun b => 4 ≤ b.length && b.length == 4 + be16 b 2, kind := .change }

/-- Writes bytes into the hidden buffer (R370); with SOURCE = program WRONG_STATE (R371). -/
def runPanelFrame (c : Ctx) (b : List Byte) (s : State) : State :=
  if s.panelProgram then s.refuse c .wrongState
  else if 4096 < be16 b 0 + be16 b 2 then s.refuse c .outOfRange
  else { s with panel := { s.panel with hidden := putFrame s.panel.hidden (be16 b 0) (b.drop 4) } }.ok c

def execPanelFrame (p : Packet) (s : State) : Out := s.command p panelFrameDesc runPanelFrame

/-- PANEL_SHOW (R72, R370). -/
def panelShowDesc : CmdDesc := { code := 0x0901, roles := [.operate], fits := exact 4, kind := .change }

/-- With a matching CRC the buffers swap at the next frame start, which answers (R370). -/
def runPanelShow (c : Ctx) (b : List Byte) (s : State) : State :=
  if s.panelProgram then s.refuse c .wrongState
  else if crc32c (frameBytes s.panel.hidden) != beWord b 0 then s.refuse c .checksumMismatch
  else { s with panel := { s.panel with swapDue := true, swapFor := s.panel.swapFor ++ [c] } }

def execPanelShow (p : Packet) (s : State) : Out := s.command p panelShowDesc runPanelShow

/-- The frame that the program commits (R371): shown when its SHOW word has changed and its CRC matches. PANEL reads none while it restarts (R33). -/
def State.panelCommit (s : State) : State :=
  if !s.panelEnable || !s.panelProgram || !s.runs 19 then s
  else
    let base := s.frameBase
    let show_ := (s.sqWord .done .D (base + 1025)).1
    if show_ == s.panel.lastShow then s
    else
      let l := (List.range 1026).map fun k => s.sqWord .done .D (base + k)
      let bytes := wordsBe ((l.take 1024).map (·.1))
      let s := { s with panel := { s.panel with lastShow := show_ } }
      if l.any (·.2) then s.raise .panelFrameRefused (mkWord [(31, 24, 2)])
      else if crc32c bytes != (l.getD 1024 (0, false)).1 then s.raise .panelFrameRefused (mkWord [(31, 24, 1)])
      else { s with panel := { s.panel with hidden := putFrame [] 0 bytes, swapDue := true } }

/-- The buffers swap when a swap is due; the new hidden buffer becomes a copy of the shown one (R370). -/
def State.panelSwap (s : State) : State :=
  if !s.panel.swapDue then s
  else
    let crc := crc32c (frameBytes s.panel.hidden)
    let waiting := s.panel.swapFor
    let s := { s with panel := { s.panel with shown := s.panel.hidden, shownCrc := crc, dark := false, corrupt := false
                                              darkNext := false, swapDue := false, swapFor := [] } }
    s.each waiting fun s c => s.ok c

/-! ## The columns (R366 to R369, R414) -/

/-- WIDTH, HEIGHT, REV_PATTERN and COL_CURRENT. -/
def State.panelWidth (s : State) : Nat := bits (s.cfg 0xB00 0) 15 8
def State.panelHeight (s : State) : Nat := bits (s.cfg 0xB00 0) 6 0
def State.revPattern (s : State) : Nat := bits (s.cfg 0xB00 0) 29 28
def State.colCurrent (s : State) : Nat := bits (s.cfg 0xB00 1) 31 26

/-- The column current, COL_CURRENT × 320 µA / 63, in 1/63 µA (R367). -/
def State.columnCurrent (s : State) : Nat := s.colCurrent * 320

/-- The length of a slice, (row time − 2.56 µs − REV_US) / 15, as a fraction of nanoseconds (R366). -/
def State.sliceNum (s : State) : Nat :=
  let rate := bits (s.cfg 0xB00 0) 23 16 * s.panelHeight
  1000000000 - rate * (2560 + 1000 * bits (s.cfg 0xB00 1) 25 21)
def State.sliceDen (s : State) : Nat := 15 * (bits (s.cfg 0xB00 0) 23 16 * s.panelHeight)

/-- The grey level of the pixel in row `r` and column `c` of the shown buffer: rows of 64 bytes, the left pixel of a byte in bits 7:4; level 0
while nothing is shown and in the frames of a power-down (R371 to R373). -/
def State.pixel (s : State) (r c : Nat) : Nat :=
  let b := (s.panel.shown.get 0 (64 * r + c / 2)).toNat
  if s.panel.dark || (s.panel.state == .poweringDown && s.panel.framesDown != 0) then 0 else if c % 2 = 0 then b / 16 else b % 16

/-- The levels of the last row of the frame under way. -/
def State.lastRow (s : State) : List Nat := (List.range s.panelWidth).map (s.pixel (s.panelHeight - 1))

/-- The overdrive time in 10 ns from one grey level to the next, of the band latched at the start of the frame (R369). -/
def State.precharge (s : State) (before next : Nat) : Nat :=
  bits (s.cfg (0xB10 + s.panel.latchedBand) (4 * before + next / 4)) (31 - 8 * (next % 4)) (24 - 8 * (next % 4))

/-- The reverse-bias polarity of a pixel in this frame (R368). -/
def State.reversed (s : State) (r c : Nat) : Bool :=
  Bool.xor s.panel.inverted (match s.revPattern with
    | 0 => false
    | 1 => r % 2 == 1
    | _ => (r + c) % 2 == 1)

/-- What a column does in the time of one row (R366): overdriven for `precharge` × 10 ns, `current` / 63 µA for `slices` of the 15 slices of
`sliceNum` / `sliceDen` ns each, then reverse bias of the polarity `reversed` for `revUs` µs. -/
structure ColumnDrive where
  precharge : Nat
  current : Nat
  slices : Nat
  sliceNum : Nat
  sliceDen : Nat
  revUs : Nat
  reversed : Bool
  deriving DecidableEq, Repr

/-- The drivers are enabled: in ON, from the first frame of a power-up on, and until a power-down is complete (R373, log 110). -/
def Panel.driven (q : Panel) : Bool := q.state == .on || (q.state == .poweringUp && q.scanned) || q.state == .poweringDown

/-- A power-down has shown its two frames at level 0 and alternates the reverse bias (R373). -/
def Panel.alternates (q : Panel) : Bool := q.state == .poweringDown && 2 < q.framesDown

/-- The drive of column `c` while row `r` is scanned: the same current for every column; none, so high-impedance, at and above WIDTH and while
the drivers are not enabled (R367, R373, R414, log 110). The row scanned before row 0 is the last one of the frame before (R369). In the
alternation of a power-down a row gets nothing but its reverse bias. -/
def State.columnDrive (s : State) (r c : Nat) : Option ColumnDrive :=
  if !s.panel.driven || s.panelWidth ≤ c || s.panelHeight ≤ r then none
  else
    let before := if r = 0 then s.panel.above.getD c 0 else s.pixel (r - 1) c
    some { precharge := if s.panel.alternates then 0 else s.precharge before (s.pixel r c), current := s.columnCurrent, slices := s.pixel r c
           sliceNum := s.sliceNum, sliceDen := s.sliceDen, revUs := bits (s.cfg 0xB00 1) 25 21, reversed := s.reversed r c }

/-! ## The row driver (R415) -/

/-- What a row of the panel is connected to. -/
inductive RowLevel where
  | ground | vrow
  deriving DecidableEq, Repr

/-- The select word that the module sends for row `r`: bits of rows at or above HEIGHT are 0. -/
def State.rowWord (s : State) (r : Nat) : BitVec 64 := if r < s.panelHeight then BitVec.ofNat 64 (2 ^ r) else 0

/-- The bits of a select word on ROW_DIN, row 63 first. -/
def rowBits (w : BitVec 64) : List Bool := (List.range 64).map fun k => w.getLsbD (63 - k)

/-- The level of a row under a select word. -/
def rowLevel (w : BitVec 64) (r : Fin 64) : RowLevel := if w.getLsbD r then .ground else .vrow

/-- The row whose select word is sent during the time of row `r`: the next one of the scan. -/
def State.rowAfter (s : State) (r : Nat) : Nat := if r + 1 < s.panelHeight then r + 1 else 0

/-- The phases of a row time (R366). -/
inductive RowPhase where
  | precharge | drive | reverse
  deriving DecidableEq, Repr

/-- The word that the row driver holds during the time of row `r`: the one sent in the row time before, which the rising edge of ROW_LE has applied at
the start of the precharge. Before the first row of a power-up none has been sent (log 13). -/
def State.rowApplied (s : State) (r : Nat) : BitVec 64 :=
  if r = 0 && s.panel.above == [] then Config.rowLatch (s.panel.frameAt.getD 0) else s.rowWord r

/-- The lines to the row driver in one phase of the time of row `r`: the bits of the next row's word on ROW_DIN, ROW_LE with its rising edge at the start
of the precharge, and ROW_REV, high for the reverse-bias phase. -/
structure RowLines where
  din : List Bool
  le : Bool
  rev : Bool
  deriving DecidableEq, Repr

def State.rowLines (s : State) (r : Nat) (p : RowPhase) : Option RowLines :=
  if s.panel.driven then some { din := rowBits (s.rowWord (s.rowAfter r)), le := p == .precharge, rev := p == .reverse } else none

/-- The level of row `x` during the time of row `r`, and whether its polarity relative to the columns is reversed. -/
def State.rowState (s : State) (r : Nat) (x : Fin 64) (p : RowPhase) : RowLevel × Bool :=
  (rowLevel (s.rowApplied r) x, p == .reverse && (s.rowApplied r).getLsbD x)

/-! ## A frame (R366, R368 to R370, R372, R373) -/

/-- VCOL and VROW are in range (R373). -/
def panelSupplyOk (vcol vrow : BitVec 16) : Bool := 8000 ≤ vcol.toNat && vcol.toNat ≤ 18000 && 10000 ≤ vrow.toNat && vrow.toNat ≤ 20000

/-- The panel supplies, where they have been measured, are in range. -/
def Panel.supplied (q : Panel) : Bool :=
  match q.vcol, q.vrow with
  | some c, some r => panelSupplyOk c r
  | _, _ => true

/-- The panel supplies have had their 10 ms, or the alternation of a power-down has (R373). -/
def State.panelWaited (s : State) : Bool := s.panel.since + 10000000 ≤ s.now

/-- The time of a frame in ns (R366). -/
def State.frameNs (s : State) : Nat := 1000000000 / max 1 (bits (s.cfg 0xB00 0) 23 16)

/-- The next frame scan may begin: at FRAME_HZ while the drivers are enabled; the first one of a power-up when the supplies have stayed in range for
10 ms (R366, R373). -/
def State.frameDue (s : State) : Bool :=
  let q := s.panel
  if q.driven then s.dueEvery q.frameAt s.frameNs else q.state == .poweringUp && s.panelWaited && q.supplied

/-- The panel at the start of a scan: the last row of the frame before, the band, the polarity, the frames of a power-down, and level 0 where the
frame before was found corrupt. -/
def State.panelNext (s : State) : Panel :=
  let q := s.panel
  let down := if q.state == .poweringDown then q.framesDown + 1 else 0
  { q with above := if q.scanned then s.lastRow else [], latchedBand := if s.runs 19 then q.band else q.latchedBand, inverted := !q.inverted
           scanned := true, framesDown := down, since := if q.state == .poweringDown && down ≤ 3 then s.now else q.since
           dark := q.dark || q.darkNext, darkNext := false, frameAt := some s.now }

/-- The scan recomputes the CRC of the shown buffer; a frame that fails it is dark from the next frame on (R372). -/
def State.panelCheck (s : State) : State :=
  let q := s.panel
  let crc := crc32c (frameBytes q.shown)
  if q.dark || crc == q.shownCrc then s
  else { s with panel := { q with darkNext := true, corrupt := true, crcFound := crc } }.raise .panelFrameCorrupt crc

/-- PANEL_FRAME_START (R366, R368 to R370, R372): a frame scan begins. While PANEL restarts in place, the last frame is scanned again (R33, R373). -/
def execPanelFrameStart (s : State) : Out :=
  if !s.frameDue then .next s
  else
    let s := { s with panel := s.panelNext }
    .next (if s.runs 19 then s.panelSwap.panelCheck else s)

/-! ## Panel power (R373) -/

/-- The panel begins to power up, or to power down. -/
def Panel.up (q : Panel) (now : Nat) : Panel :=
  { q with state := .poweringUp, onPending := false, wantOn := true, scanned := false, since := now }
def Panel.down (q : Panel) : Panel := { q with state := .poweringDown, framesDown := 0 }

/-- PANEL_POWER (R72). -/
def panelPowerDesc : CmdDesc := { code := 0x0903, roles := [.operate], fits := exact 4, kind := .change }

/-- Powers the panel up or down; a power-down is never aborted (R373, R52). -/
def runPanelPower (c : Ctx) (b : List Byte) (s : State) : State :=
  let q := s.panel
  if 1 < byteAt b 0 then s.refuse c .outOfRange
  else if byteAt b 0 = 1 then
    match q.state with
    | .off => { s with panel := q.up s.now }.ok c
    | .poweringDown => { s with panel := { q with onPending := true } }.reply c .acceptedDeferred []
    | _ => { s with panel := { q with wantOn := true } }.ok c
  else
    match q.state with
    | .on => { s with panel := { q.down with wantOn := false } }.ok c
    | _ => { s with panel := { q with wantOn := false, onPending := false } }.ok c

def execPanelPower (p : Packet) (s : State) : Out := s.command p panelPowerDesc runPanelPower

/-- PANEL_POWER_UP_COMPLETE (R373): the first frame is complete; an OFF given meanwhile follows now. -/
def execPanelPowerUpComplete (s : State) : Out :=
  if s.panel.state != .poweringUp || !s.panel.scanned || !s.dueEvery s.panel.frameAt s.frameNs then .next s
  else .next { s with panel := if s.panel.wantOn then { s.panel with state := .on } else s.panel.down }

/-- PANEL_POWER_DOWN_COMPLETE (R373): after two frames at level 0 and 10 ms of alternation. -/
def execPanelPowerDownComplete (s : State) : Out :=
  if !s.panel.alternates || !s.panelWaited then .next s
  else .next { s with panel := if s.panel.onPending then s.panel.up s.now else { s.panel with state := .off } }

/-- PANEL_SUPPLY_FAULT (R373). -/
def execPanelSupplyFault (vcol vrow : BitVec 16) (s : State) : Out :=
  let q := { s.panel with vcol := some vcol, vrow := some vrow }
  if q.state == .off || q.state == .supplyFault || panelSupplyOk vcol vrow then .next { s with panel := q }
  else .next ({ s with panel := { q with state := .supplyFault, wantOn := q.wantOn || q.onPending, onPending := false } }.raise
    .panelSupplyFault (mkWord [(31, 16, vcol.toNat), (15, 0, vrow.toNat)]))

/-- PANEL_SUPPLY_RECOVERED (R373). -/
def execPanelSupplyRecovered (vcol vrow : BitVec 16) (s : State) : Out :=
  let q := { s.panel with vcol := some vcol, vrow := some vrow }
  if q.state != .supplyFault || !panelSupplyOk vcol vrow then .next { s with panel := q }
  else .next { s with panel := if q.wantOn then q.up s.now else { q with state := .off } }

/-! ## The trip plate (R374 to R377) -/

/-- ENABLE of the plate and FL_LINK. -/
def State.plateEnable (s : State) : Bool := bit (s.cfg 0xB08 0) 31
def State.plateLinks (s : State) (f : Nat) : Bool := f < 16 && bit (s.cfg 0xB08 0) f

/-- The target of every segment (R375): bit n set is dark. -/
def State.plateTarget (s : State) : BitVec 47 :=
  BitVec.ofNat 47 ((List.range 47).foldl (fun a n =>
    a + b2n (if s.plateLinks n then (s.fireFn n).tripped || (s.fireFn n).latched else s.plate.segments.getLsbD n) * 2 ^ n) 0)

/-- What the drivers give a segment: 0 V, the waveform W, or its negation (R376). -/
inductive Wave where
  | zero | w | negW
  deriving DecidableEq, Repr

/-- W turns a segment dark, −W turns it light (chapter 15, The trip plate). -/
def Wave.toward (dark : Bool) : Wave := if dark then .w else .negW

/-- The drive of data segment `n` in the step of an update that is under way: towards its target where that differs from SHOWN; in a full refresh
towards the opposite of its target, then its target (R376). -/
def State.segmentWave (s : State) (n : Fin 47) : Wave :=
  let dark := s.plate.target.getLsbD n
  match s.plate.step with
  | .data => if dark == s.mram.shown.getLsbD n then .zero else .toward dark
  | .dataOpposite => .toward !dark
  | .dataTarget => .toward dark
  | .idle | .invalidDark | .invalidLight => .zero

/-- The drive of INVALID: W before the data segments change, −W after them (R376). -/
def State.invalidWave (s : State) : Wave :=
  match s.plate.step with
  | .invalidDark => .w
  | .invalidLight => .negW
  | .idle | .data | .dataOpposite | .dataTarget => .zero

/-- The phases of W for the band latched at the start of the update: the voltage in units of VPLATE, and the length in ms (R374). -/
def State.phases (s : State) : List (Int × Nat) :=
  (((List.range 8).map fun k => s.cfg (0xB20 + s.plate.latchedBand) k).takeWhile fun w => bits w 3 0 != 0).map fun w =>
    (match bits w 31 30 with | 1 => 1 | 2 => -1 | _ => 0, bits w 3 0)

/-- The voltage of each phase, in units of VPLATE, that a drive puts on its segment: −W is W with every polarity reversed. -/
def State.waveVolts (s : State) (d : Wave) : List (Int × Nat) :=
  s.phases.map fun e => (match d with | .zero => 0 | .w => e.1 | .negW => -e.1, e.2)

/-- The length of W in ns. -/
def State.waveNs (s : State) : Nat := (s.phases.map (·.2)).sum * 1000000

/-- An update starts (R376): TORN set, the band latched, INVALID driven dark first, so that the plate shows it until the update is done (R377).
With TORN set before it is a full refresh. -/
def State.plateStart (s : State) (c : Option Ctx) : State :=
  { s with plate := { s.plate with step := .invalidDark, refresh := s.mram.plateTorn, latchedBand := s.plate.band, invalidDark := true, stepAt := s.now
                                   target := s.plateTarget, reply := c, pending := false }
           mram := { s.mram with plateTorn := true } }

/-- PLATE_UPDATE (R72, R376). -/
def plateUpdateDesc : CmdDesc := { code := 0x0902, roles := [.operate], fits := exact 8, kind := .change }

/-- Starts an update toward SEGMENTS; BUSY while one runs (R377). SEGMENTS is bits 46:0 of its 6 bytes; the rule says nothing of bit 47, which is ignored
(R72; DESIGN CHOICE, log 163). -/
def runPlateUpdate (c : Ctx) (b : List Byte) (s : State) : State :=
  if s.plate.step != .idle then s.replyBusy c true
  else { s with plate := { s.plate with segments := BitVec.ofNat 47 (be16 b 0 * 2 ^ 32 + be32 b 2) } }.plateStart (some c)

def execPlateUpdate (p : Packet) (s : State) : Out := s.command p plateUpdateDesc runPlateUpdate

/-- A change of the state of a linked Fire Lane function (R375, R377). No update starts after the power-fail warning. -/
def State.plateLinked (s : State) (f : Nat) : State :=
  if !s.plateEnable || !s.plateLinks f then s
  else if s.plate.step != .idle then { s with plate := { s.plate with pending := true } }
  else if s.power.warning.isSome then s
  else s.plateStart none

/-- The last step of an update (R376): SHOWN written, TORN cleared, the reply sent; a linked update that waits starts. -/
def State.plateDone (s : State) : State :=
  let q := s.plate
  let s := { s with mram := { s.mram with shown := q.target, plateTorn := false }
                    plate := { q with step := .idle, invalidDark := false, updates := q.updates + 1, reply := none } }
  let s := match q.reply with | some c => s.ok c | none => s
  let s := if q.refresh then s.raise .plateRefreshed (mkWord [(2, 0, q.latchedBand)]) else s
  if q.pending && s.power.warning.isNone then s.plateStart none else s

/-- PLATE_WAVEFORM_COMPLETE (R376): the waveform has run its phases, and the update moves to its next step. -/
def execPlateWaveformComplete (s : State) : Out :=
  let q := s.plate
  let go (p : PlateStep) : Out := .next { s with plate := { q with step := p, stepAt := s.now } }
  if s.now < q.stepAt + s.waveNs then .next s
  else match q.step with
  | .idle => .next s
  | .invalidDark => go (if q.refresh then .dataOpposite else .data)
  | .dataOpposite => go .dataTarget
  | .data | .dataTarget => go .invalidLight
  | .invalidLight => .next s.plateDone

/-- VPLATE has fallen below 13.5 V in magnitude (R377). -/
def plateLow (vp vn : BitVec 16) : Bool := vp.toNat < 13500 || vn.toNat < 13500

/-- PLATE_TORN (R377): the update stops at once and TORN stays set; a linked update that waits starts, as a full refresh. -/
def execPlateTorn (vp vn : BitVec 16) (s : State) : Out :=
  let q := { s.plate with vp := some vp, vn := some vn }
  if q.step == .idle || !plateLow vp vn then .next { s with plate := q }
  else
    let s := { s with plate := { q with step := .idle, reply := none } }.raise .plateTorn (q.target.setWidth 32)
    let s := match q.reply with | some c => s.refuse c .wrongState | none => s
    .next (if q.pending && s.power.warning.isNone then s.plateStart none else s)

/-! ## Temperature bands (R378) -/

/-- A signed 16-bit field as a number. -/
def s16 (w : Word) (hi lo : Nat) : Int := (BitVec.ofNat 16 (bits w hi lo)).toInt

/-- PANEL_T1 to PANEL_T3 and PLATE_T1 to PLATE_T4, in 0.1 °C. -/
def State.panelThresholds (s : State) : List Int :=
  [s16 (s.cfg 0xB00 3) 31 16, s16 (s.cfg 0xB00 3) 15 0, s16 (s.cfg 0xB00 4) 31 16]
def State.plateThresholds (s : State) : List Int :=
  [s16 (s.cfg 0xB08 1) 31 16, s16 (s.cfg 0xB08 1) 15 0, s16 (s.cfg 0xB08 2) 31 16, s16 (s.cfg 0xB08 2) 15 0]

/-- Tenths of a degree from hundredths, toward zero (log 29). -/
def tenths (t : Int) : Int := t.tdiv 10

/-- The band after a temperature of `t` × 0.01 °C: up above its upper threshold, down 2 °C below its lower one. -/
def moveBand (t : Int) (th : List Int) : Nat → Nat → Nat
  | 0, b => b
  | n + 1, b =>
    if b < th.length && decide (th.getD b 0 * 10 < t) then moveBand t th n (b + 1)
    else if 0 < b && decide (t ≤ th.getD (b - 1) 0 * 10 - 200) then moveBand t th n (b - 1)
    else b

/-- VALUE of the thermal records. -/
def thermalValue (t : Int) : Word := mkWord [(15, 0, (BitVec.ofInt 16 (tenths t)).toNat)]

/-- One thermal flag: set above its limit, cleared 5.0 °C below it (R425). The limit is in 0.1 °C. -/
def thermalFlag (old : Bool) (limit t : Int) : Bool := if limit * 10 < t then true else if t ≤ limit * 10 - 500 then false else old

/-- Judges both thermal flags by the last HOTTEST, with their records (R425). -/
def State.judgeThermal (s : State) : State :=
  if s.power.sampledAt.isNone then s
  else
    let w := s.cfg 0xD20 0
    let old := s.power
    let warn := thermalFlag old.warnSet (s16 w 31 16) old.hottest
    let crit := thermalFlag old.critSet (s16 w 15 0) old.hottest
    let s := { s with power := { s.power with warnSet := warn, critSet := crit } }
    let v := thermalValue old.hottest
    let s := if warn && !old.warnSet then s.raiseFrom 18 .thermalWarning v else if !warn && old.warnSet then s.raiseFrom 18 .thermalNormal v else s
    if crit && !old.critSet then s.raiseFrom 18 .thermalCritical v else if !crit && old.critSet then s.raiseFrom 18 .thermalNormal v else s

/-- Judges both bands by the last band temperature; each change fires source 409 and writes TEMP_BAND_CHANGED. -/
def State.judgeBands (s : State) : State :=
  match s.power.bandTemp with
  | none => s
  | some t =>
    let a := moveBand t s.panelThresholds 3 s.panel.band
    let b := moveBand t s.plateThresholds 4 s.plate.band
    let s' := { s with panel := { s.panel with band := a }, plate := { s.plate with band := b } }
    let s' := if a != s.panel.band then (s'.fireSource 409).raise .tempBandChanged (mkWord [(2, 0, a)]) else s'
    if b != s.plate.band then (s'.fireSource 409).raise .tempBandChanged (mkWord [(31, 31, 1), (2, 0, b)]) else s'

end Sys2Proof.Machine
end

