-- ==== Sys2Proof/Machine/Sensors.lean ====
section
/-! DEFINITION. The relations that the manual takes from two standards (R183, R192, R193): resistance and temperature of a platinum element
by IEC 60751, EMF and temperature of a thermocouple by IEC 60584-1. Their coefficients are those of the standards (PRESUMED, log 11). Every
comparison is exact; only the last digit of a result, whose rounding no rule states, is free. -/

namespace Sys2Proof.Machine

open Sys2Proof

/-! ## Quotients and inverses -/

/-- A quotient of a positive divisor rounded to a whole number: exact where it is whole, else the whole number below or above it. Which of the
two the manual does not say: it is free. -/
def ratio (n d : Int) : Int := n / d + (if n % d = 0 ∨ !Config.roundsUp n d then 0 else 1)

/-- Halves the span `lo` to `lo + 2 ^ k` until the last number that `below` accepts is left; `below` accepts `lo`. -/
def lastBelow (below : Int → Bool) : Nat → Int → Int
  | 0, lo => lo
  | k + 1, lo => lastBelow below k (if below (lo + 2 ^ k) then lo + 2 ^ k else lo)

/-- The temperature in m°C from `lo` to `hi` at which a rising function `f` reaches `v`: beyond an end, one step outside it; between two
whole numbers, the lower or the upper one, which is free. -/
def inverseOf (f : Int → Int) (lo hi v : Int) : Int :=
  if v < f lo then lo - 1
  else if f hi < v then hi + 1
  else
    let t := lastBelow (fun x => decide (x ≤ hi ∧ f x ≤ v)) 21 lo
    if f t = v ∨ !Config.roundsUp v t then t else t + 1

/-! ## IEC 60751 (R192) -/

/-- The ratio of the resistance of a platinum element at `t` m°C to that at 0 °C, times 10²⁷: 1 + At + Bt², and below 0 °C also
C(t − 100 °C)t³, with A = 3.9083·10⁻³, B = −5.775·10⁻⁷ and C = −4.183·10⁻¹². -/
def platinum (t : Int) : Int :=
  10 ^ 27 + 39083 * t * 10 ^ 17 - 5775 * t ^ 2 * 10 ^ 11 - (if t < 0 then 4183 * (t - 100000) * t ^ 3 else 0)

/-- The resistance at 0 °C in mΩ of an ELEMENT (R188): Pt100, Pt500, Pt1000. -/
def nominalOhms (element : Nat) : Int :=
  match element with
  | 0 => 100000
  | 1 => 500000
  | _ => 1000000

/-- The measuring range of the RTD modes in m°C (R183, R192). -/
def rtdLow : Int := -200000
def rtdHigh : Int := 850000

/-- The temperature in m°C of an element of resistance `r` mΩ (R192). -/
def rtdTemp (element : Nat) (r : Int) : Int := inverseOf (fun t => nominalOhms element * platinum t) rtdLow rtdHigh (r * 10 ^ 27)

/-- The whole numbers of mΩ from the resistance at −200 °C to that at +850 °C (R183 with OHMS = 1). -/
def rtdRange (element : Nat) : Int × Int :=
  (-(-(nominalOhms element * platinum rtdLow) / 10 ^ 27), nominalOhms element * platinum rtdHigh / 10 ^ 27)

/-! ## IEC 60584-1 (R193) -/

/-! The coefficients of the parts of a reference function, from the constant one on: (m, e) stands for m × 10⁻ᵉ mV/°Cⁱ. -/

/-- Type J, part 1 of its reference function. -/
def tcJ1 : List (Int × Nat) := [(0, 0), (50381187815, 12), (3047583693, 14), (-8568106572, 17), (13228195295, 20), (-17052958337, 23),
  (20948090697, 26), (-12538395336, 29), (15631725697, 33)]

/-- Type J, part 2 of its reference function. -/
def tcJ2 : List (Int × Nat) := [(29645625681, 8), (-14976127786, 10), (31787103924, 13), (-31847686701, 16), (15720819004, 19), (-30691369056, 23)]

/-- Type K, part 1 of its reference function. -/
def tcK1 : List (Int × Nat) := [(0, 0), (39450128025, 12), (23622373598, 15), (-32858906784, 17), (-49904828777, 19), (-67509059173, 21),
  (-57410327428, 23), (-31088872894, 25), (-10451609365, 27), (-19889266878, 30), (-16322697486, 33)]

/-- Type K, part 2 of its reference function. -/
def tcK2 : List (Int × Nat) := [(-17600413686, 12), (38921204975, 12), (18558770032, 15), (-99457592874, 18), (31840945719, 20),
  (-56072844889, 23), (56075059059, 26), (-32020720003, 29), (97151147152, 33), (-12104721275, 36)]

/-- Type N, part 1 of its reference function. -/
def tcN1 : List (Int × Nat) := [(0, 0), (26159105962, 12), (10957484228, 15), (-93841111554, 18), (-46412039759, 21), (-26303357716, 22),
  (-22653438003, 24), (-76089300791, 27), (-93419667835, 30)]

/-- Type N, part 2 of its reference function. -/
def tcN2 : List (Int × Nat) := [(0, 0), (25929394601, 12), (1571014188, 14), (43825627237, 18), (-25261169794, 20), (64311819339, 23),
  (-10063471519, 25), (99745338992, 29), (-60863245607, 32), (20849229339, 35), (-30682196151, 39)]

/-- Type T, part 1 of its reference function. -/
def tcT1 : List (Int × Nat) := [(0, 0), (38748106364, 12), (44194434347, 15), (11844323105, 17), (20032973554, 18), (90138019559, 20),
  (22651156593, 21), (36071154205, 23), (38493939883, 25), (28213521925, 27), (14251594779, 29), (48768662286, 32), (1079553927, 33),
  (13945027062, 37), (79795153927, 41)]

/-- Type T, part 2 of its reference function. -/
def tcT2 : List (Int × Nat) := [(0, 0), (38748106364, 12), (3329222788, 14), (20618243404, 17), (-21882256846, 19), (10996880928, 21),
  (-30815758772, 24), (4547913529, 26), (-27512901673, 30)]

/-- Type E, part 1 of its reference function. -/
def tcE1 : List (Int × Nat) := [(0, 0), (58665508708, 12), (45410977124, 15), (-77998048686, 17), (-25800160843, 18), (-59452583057, 20),
  (-93214058667, 22), (-10287605534, 23), (-80370123621, 26), (-43979497391, 28), (-16414776355, 30), (-39673619516, 33), (-55827328721, 36),
  (-34657842013, 39)]

/-- Type E, part 2 of its reference function. -/
def tcE2 : List (Int × Nat) := [(0, 0), (5866550871, 11), (45032275582, 15), (28908407212, 18), (-33056896652, 20), (6502440327, 22),
  (-19197495504, 26), (-12536600497, 28), (21489217569, 31), (-14388041782, 34), (35960899481, 38)]

/-- Type R, part 1 of its reference function. -/
def tcR1 : List (Int × Nat) := [(0, 0), (528961729765, 14), (139166589782, 16), (-238855693017, 19), (356916001063, 22), (-462347666298, 25),
  (500777441034, 28), (-373105886191, 31), (157716482367, 34), (-281038625251, 38)]

/-- Type R, part 2 of its reference function. -/
def tcR2 : List (Int × Nat) := [(295157925316, 11), (-252061251332, 14), (159564501865, 16), (-764085947576, 20), (205305291024, 23),
  (-293359668173, 27)]

/-- Type R, part 3 of its reference function. -/
def tcR3 : List (Int × Nat) := [(152232118209, 9), (-268819888545, 12), (171280280471, 15), (-345895706453, 19), (-934633971046, 26)]

/-- Type S, part 1 of its reference function. -/
def tcS1 : List (Int × Nat) := [(0, 0), (540313308631, 14), (12593428974, 15), (-232477968689, 19), (322028823036, 22), (-331465196389, 25),
  (255744251786, 28), (-125068871393, 31), (271443176145, 35)]

/-- Type S, part 2 of its reference function. -/
def tcS2 : List (Int × Nat) := [(132900444085, 11), (334509311344, 14), (654805192818, 17), (-164856259209, 20), (129989605174, 25)]

/-- Type S, part 3 of its reference function. -/
def tcS3 : List (Int × Nat) := [(146628232636, 9), (-258430516752, 12), (163693574641, 15), (-330439046987, 19), (-943223690612, 26)]

/-- Type B, part 1 of its reference function. -/
def tcB1 : List (Int × Nat) := [(0, 0), (-24650818346, 14), (59040421171, 16), (-13257931636, 19), (15668291901, 22), (-1694452924, 24),
  (62990347094, 29)]

/-- Type B, part 2 of its reference function. -/
def tcB2 : List (Int × Nat) := [(-38938168621, 10), (2857174747, 11), (-84885104785, 15), (15785280164, 17), (-16835344864, 20),
  (11109794013, 23), (-44515431033, 27), (98975640821, 31), (-93791330289, 35)]

/-- A polynomial part at `t` m°C in units of 10⁻⁹⁰ nV; `i` is the power of its first coefficient. -/
def emfPoly (t : Int) : Nat → List (Int × Nat) → Int
  | _, [] => 0
  | i, (m, e) :: l => m * t ^ i * 10 ^ (96 - e - 3 * i) + emfPoly t (i + 1) l

/-- Terms of the series of exp(−x / 10⁴⁰) from the n-th on, in units of 10⁻⁴⁰. -/
def expTerms (x : Int) : Nat → Int → Int → Int
  | 0, _, _ => 0
  | k + 1, n, a => a + expTerms x k (n + 1) (-(a * x) / (10 ^ 40 * n))

/-- Squares a number of units of 10⁻⁴⁰ `k` times. -/
def squareTimes : Nat → Int → Int
  | 0, a => a
  | k + 1, a => squareTimes k (a * a / 10 ^ 40)

/-- The exponential term of type K above 0 °C, 0.1185976 mV × exp(−1.183432·10⁻⁴ (t − 126.9686 °C)²), in units of 10⁻⁹⁰ nV, to 10⁻³⁰ nV: the
exponent is divided by 2¹⁰, its series taken to 30 terms and the result squared ten times. -/
def emfExp (t : Int) : Int :=
  let d := 10 * t - 1269686
  let x := 1183432 * d ^ 2 * 10 ^ 22 / 1024
  1185976 * squareTimes 10 (expTerms x 30 1 (10 ^ 40)) * 10 ^ 49

/-- The measuring range of a TYPE in m°C (R183, R188): J, K, N, T, E, R, S, B. -/
def tcRange (type : Nat) : Int × Int :=
  match type with
  | 0 => (-210000, 1200000)
  | 1 => (-270000, 1372000)
  | 2 => (-270000, 1300000)
  | 3 => (-270000, 400000)
  | 4 => (-270000, 1000000)
  | 5 | 6 => (-50000, 1768100)
  | _ => (0, 1820000)

/-- The reference function of a TYPE at `t` m°C, in units of 10⁻⁹⁰ nV. -/
def tcEmf (type : Nat) (t : Int) : Int :=
  match type with
  | 0 => emfPoly t 0 (if t < 760000 then tcJ1 else tcJ2)
  | 1 => if t < 0 then emfPoly t 0 tcK1 else emfPoly t 0 tcK2 + emfExp t
  | 2 => emfPoly t 0 (if t < 0 then tcN1 else tcN2)
  | 3 => emfPoly t 0 (if t < 0 then tcT1 else tcT2)
  | 4 => emfPoly t 0 (if t < 0 then tcE1 else tcE2)
  | 5 => emfPoly t 0 (if t < 1064180 then tcR1 else if t < 1664500 then tcR2 else tcR3)
  | 6 => emfPoly t 0 (if t < 1064180 then tcS1 else if t < 1664500 then tcS2 else tcS3)
  | _ => emfPoly t 0 (if t < 630615 then tcB1 else tcB2)

/-- Where the reference function of type B has its least value, in m°C: it falls from 0 °C to there and rises from there on. -/
def tcLeastB : Int := 21020

/-- The temperature in m°C at which the reference function of a TYPE reaches `v`. An EMF of type B from its least value to 0 belongs to two
temperatures; which of them is shown is free. -/
def tcInverse (type : Nat) (v : Int) : Int :=
  let r := tcRange type
  if type < 7 then inverseOf (tcEmf type) r.1 r.2 v
  else if v < tcEmf type tcLeastB then r.1 - 1
  else if v ≤ tcEmf type r.1 ∧ Config.roundsUp v r.1 then tcLeastB - inverseOf (fun x => tcEmf type (tcLeastB - x)) 0 tcLeastB v
  else inverseOf (tcEmf type) tcLeastB r.2 v

/-- The temperature in m°C that a TYPE shows at `nv` nV with its cold junction at `cj` m°C: the EMF of the cold junction is added (R193). -/
def tcTemp (type : Nat) (nv cj : Int) : Int := tcInverse type (nv * 10 ^ 90 + tcEmf type cj)

/-- The whole numbers of nV from one end of the range of a TYPE to the other (R183 with MV = 1). -/
def tcVolts (type : Nat) : Int × Int :=
  (-(-(tcEmf type (tcRange type).1) / 10 ^ 90), tcEmf type (tcRange type).2 / 10 ^ 90)

end Sys2Proof.Machine
end

