-- ==== Sys2Proof/Machine/Uc.lean ====
section
/-! DEFINITION. Universal channels (chapter 07): ranges and values, conditions and the status word, the source of an output's value,
mode changes, HART, and the events of ANSEQ. -/

namespace Sys2Proof.Machine

open Sys2Proof

/-! ## Modes, rates and ranges (R182 to R188) -/

/-- The mode word of channel n (object 0400h + n, sub-index 0), and its fields. -/
def State.ucCfg (s : State) (n : Nat) : Word := s.cfg (0x400 + n) 0
def ucMode (w : Word) : Nat := bits w 31 24
def ucRate (w : Word) : Nat := bits w 23 20

/-- VOUT_10, IOUT and IOUT_HART. -/
def ucOutput (m : Nat) : Bool := m == 0x0B || m == 0x0C || m == 0x0D

/-- IIN_ACTIVE, IIN_PASSIVE and IIN_HART_MULTIDROP. -/
def ucCurrentIn (m : Nat) : Bool := m == 3 || m == 4 || m == 5

/-- RTD_2W, RTD_3W and RTD_4W. -/
def ucRtd (m : Nat) : Bool := m == 6 || m == 7 || m == 8

/-- HART is in use (R182, R200). -/
def ucHart (w : Word) : Bool :=
  ucMode w == 5 || ucMode w == 0x0D || ((ucMode w == 3 || ucMode w == 4) && bit w 0)

/-- EXPECTED: the devices a scan should find (R188, R203). -/
def ucExpected (w : Word) : Nat := if ucMode w == 5 then bits w 3 0 else 1

/-- Conversion period in ns (R184). -/
def periodNs (rate : Nat) : Nat :=
  match rate with
  | 0 => 100000000
  | 1 => 20000000
  | 2 => 10000000
  | 3 => 2000000
  | 4 => 1000000
  | 5 => 200000
  | _ => 50000

/-- Conversions up to the first settled one (R184: a single conversion up to 50 S/s, three periods above). -/
def settleCount (rate : Nat) : Nat := if rate ≤ 1 then 1 else 3

/-- The period of channel n: in Side-Street mode at most 100 S/s (R184, R209). -/
def State.ucPeriod (s : State) (n : Nat) : Nat :=
  let r := ucRate (s.ucCfg n)
  periodNs (if s.beforeFirstApply then min r 2 else r)

/-- The channel listens on a standby in place of RTD_4W and RES_4W (R206); before the first apply of full service RTD channels alone do (R209). -/
def State.ucStandbyListen (s : State) (n : Nat) : Bool :=
  s.pairMode && s.standby && (ucMode (s.ucCfg n) == 8 || (ucMode (s.ucCfg n) == 9 && !s.beforeFirstApply))

/-- The mode word by which the channel works: on a standby the LISTEN word that shadows its own (R206). -/
def State.ucWorks (s : State) (n : Nat) : Word :=
  let w := s.ucCfg n
  if s.ucStandbyListen n then
    mkWord [(31, 24, 0x0E), (23, 20, ucRate w), (12, 12, bits w 4 4), (11, 8, bits w 3 0), (7, 0, ucMode w)]
  else w

/-- The value of a resistance in mΩ: itself with OHMS = 1 or in RES_4W, else the temperature in m°C (R192). -/
def rtdValue (element : Nat) (ohms : Bool) (r : Int) : Int := if ohms then r else rtdTemp element r

/-- The nominal excitation of a shadowed mode, as the number of times it goes into 1 mA: that of the element, or 250 µA for RES_4W (R188). -/
def listenRatio (shadow element : Nat) : Int := if shadow == 9 then 4 else match element with | 0 => 1 | 1 => 4 | _ => 10

/-- The resistance in mΩ from a voltage in nV at the nominal excitation of a shadowed mode (R188, R205). -/
def listenOhms (shadow element : Nat) (nv : Int) : Int := ratio (nv * listenRatio shadow element) 1000

/-- The value of a conversion in the mode's unit, before clipping (R183, R192, R193, R205). -/
def ucValue (w : Word) (leadMohm : Int) (c : Conversion) : Int :=
  match ucMode w with
  | 6 => rtdValue (bits w 3 0) (bit w 4) (c.raw - leadMohm)
  | 7 => rtdValue (bits w 3 0) (bit w 4) (c.raw - 2 * c.lead)
  | 8 => rtdValue (bits w 3 0) (bit w 4) c.raw
  | 0x0A => if bit w 4 then c.raw else tcTemp (bits w 3 0) c.raw c.cjTemp
  | 0x0E =>
    match bits w 7 0 with
    | 8 => rtdValue (bits w 11 8) (bit w 12) (listenOhms 8 (bits w 11 8) c.raw)
    | 9 => listenOhms 9 0 c.raw
    | _ => c.raw
  | _ => c.raw

/-- The range of the RTD modes. -/
def rtdLimits (element : Nat) (ohms : Bool) : Int × Int := if ohms then rtdRange element else (-200000, 850000)

/-- The measuring or output range in the mode's unit (R183). -/
def ucRange (w : Word) : Int × Int :=
  match ucMode w with
  | 1 | 0x0B => (-10500000, 10500000)
  | 2 => (-105000000, 105000000)
  | 3 | 4 | 5 | 0x0C | 0x0D => (0, 24000000)
  | 6 | 7 | 8 => rtdLimits (bits w 3 0) (bit w 4)
  | 9 => (0, 4000000)
  | 0x0A => if bit w 4 then tcVolts (bits w 3 0) else tcRange (bits w 3 0)
  | 0x0E =>
    match bits w 7 0 with
    | 8 => rtdLimits (bits w 11 8) (bit w 12)
    | 9 => (0, 4000000)
    | _ => (-105000000, 105000000)
  | _ => (int32Min, int32Max)

/-! ## Conditions (R194, R199) -/

/-- One evaluation of a flag: `up` conversions in a row set it, `down` in a row clear it. -/
def Flag.step (f : Flag) (on off : Bool) (up down : Nat) : Flag :=
  let seen := if on then min (f.seen + 1) up else 0
  let clean := if off then min (f.clean + 1) down else 0
  { set_ := if f.set_ then !decide (down ≤ clean) else decide (up ≤ seen), seen := seen, clean := clean }

/-- A condition of R194: two conversions set it, four clear it. -/
def Flag.judge (f : Flag) (on : Bool) : Flag := f.step on (!on) 2 4

/-- The time that a current takes to change hands (R208). -/
def handNs : Nat := 2000000

/-- The value an output drives at an instant: a current that an incoming module takes over rises to it from 0 over 2 ms (R208). -/
def Uc.level (u : Uc) (now : Nat) : Int :=
  match u.rampAt with
  | some t => if now < t + handNs then u.driven * ((now - t : Nat) : Int) / (handNs : Int) else u.driven
  | none => u.driven

/-- What stands at the terminals of an output, none where its switch is open: an outgoing module's held current falls to 0 over 2 ms before
that (R206, R208). -/
def Uc.terminal (u : Uc) (now : Nat) : Option Int :=
  if u.drives then some (u.level now)
  else match u.leaving with
  | some (v, t) => if now < t + handNs then some (v * ((t + handNs - now : Nat) : Int) / (handNs : Int)) else none
  | none => none

/-- OPEN (R194, R193, R205), of a channel that commands the value `v`. -/
def ucOpenCond (w : Word) (u : Uc) (v : Int) (c : Conversion) : Bool :=
  match ucMode w with
  | 3 | 4 | 5 => decide (c.raw < 500000)
  | 6 | 7 | 8 | 9 => c.opened
  | 0x0A => bit w 5 && c.opened
  | 0x0C | 0x0D => u.drives && decide (2000000 ≤ v ∧ c.raw < 500000)
  | 0x0E =>
    match bits w 7 0 with
    | 8 => decide ((rtdRange (bits w 11 8)).2 * 11 < listenOhms 8 (bits w 11 8) c.raw * 10)
    | 9 => decide (4400000 < listenOhms 9 0 c.raw)
    | _ => decide (115500000 < c.raw ∨ c.raw < -115500000)
  | _ => false

/-- READBACK (R194), of a channel that drives the value `v`. -/
def ucReadbackCond (w : Word) (u : Uc) (v : Int) (c : Conversion) : Bool :=
  match ucMode w with
  | 0x0B => u.drives && c.inLimit && decide (100000 < (c.raw - v).natAbs)
  | 0x0C | 0x0D => u.drives && decide (1500 ≤ c.headroomMv ∧ 200000 < (c.raw - v).natAbs)
  | _ => false

/-- CJ_FAULT (R194). -/
def ucCjCond (w : Word) (c : Conversion) : Bool :=
  ucMode w == 0x0A && (c.cjOpen || decide (c.cjTemp < -40000 ∨ 100000 < c.cjTemp))

/-- The flag code of the lowest fault that stands (record 0501h); a FAILED channel has its calibration for a fault (R194). -/
def Uc.faultCode (u : Uc) : Option Nat :=
  if u.opened.set_ then some 1
  else if u.overRange.set_ then some 2
  else if u.underRange.set_ then some 3
  else if u.overload then some 4
  else if u.readback.set_ then some 5
  else if u.cj.set_ then some 6
  else if u.state == .failed then some Config.calFaultFlag.toNat
  else none

/-- FAULT (R194). -/
def Uc.fault (u : Uc) : Bool := u.faultCode.isSome

/-- Changes channel n and reports a rise or fall of its FAULT (R194). -/
def State.ucUpdate (s : State) (n : Nat) (x : Uc) : State :=
  let old := (s.uc n).faultCode
  let s := s.setUc n x
  match old, x.faultCode with
  | none, some k => (s.fireSource (192 + n)).raise .channelFault (mkWord [(31, 24, k), (4, 0, n)])
  | some k, none => s.raise .channelFaultCleared (mkWord [(31, 24, k), (4, 0, n)])
  | _, _ => s

/-! ## The status word (R195) -/

/-- STATE of channel n (R195): LISTEN where the channel only listens (R205, R206). -/
def State.ucStateCode (s : State) (n : Nat) : Nat :=
  match (s.uc n).state with
  | .off => 0
  | .starting => 1
  | .run => if ucMode (s.ucWorks n) == 0x0E then 6 else 2
  | .settling => 3
  | .shuttingDown => 4
  | .sideStreet => 5
  | .failed => 7

/-- STALE (R185): also while ANSEQ restarts in place. -/
def State.ucStale (s : State) (n : Nat) : Bool := (s.uc n).stale || s.down 7

/-- The value Fire Lane holds channel n at (R186 order 1): TRIP_VALUE of its output slot. -/
def State.ucTrip (s : State) (n : Nat) : Option Int :=
  if s.tripClaims 2 n (s.uc n).held.isSome then (s.outSlotOf 2 n).map fun o => sInt (s.outWord o 1) else none

/-- The status word of channel n at time `t`. -/
def State.ucStatus (s : State) (n t : Nat) : Word :=
  let u := s.uc n
  mkWord [(31, 29, s.ucStateCode n), (28, 28, b2n u.fault), (27, 27, b2n u.opened.set_),
    (26, 26, b2n (u.overRange.set_ || decide (0 < u.clipped))), (25, 25, b2n (u.underRange.set_ || decide (u.clipped < 0))),
    (24, 24, b2n u.overload), (23, 23, b2n u.compliance.set_), (22, 22, b2n u.readback.set_), (21, 21, b2n u.poison),
    (20, 20, b2n u.limitHi), (19, 19, b2n u.limitLo), (18, 18, b2n u.hartFault), (17, 17, b2n u.cj.set_), (16, 16, b2n u.uncal),
    (15, 15, b2n (u.tripHeld && (s.ucTrip n).isSome)), (14, 14, b2n (s.ucStale n)),
    (13, 0, match u.valueAt with | some v => satNat 14 ((t - v) / 20000) | none => 0x3FFF)]

/-- What a channel has of its last conversion, for a freeze that may lie before the next one (R81). -/
def Uc.seen (u : Uc) : List UcSeen :=
  match u.valueAt with
  | some t => [{ value := u.value, at_ := t, stale := u.stale, opened := u.opened, overRange := u.overRange, underRange := u.underRange
                 compliance := u.compliance, readback := u.readback, cj := u.cj }]
  | none => []

/-- The channel with the last conversion that completed before `f` (R81). -/
def Uc.at (u : Uc) (f : Nat) : Uc :=
  match u.valueAt with
  | none => u
  | some t =>
    if t ≤ f then u
    else match u.past.find? fun x => decide (x.at_ ≤ f) with
      | some x => { u with value := x.value, valueAt := some x.at_, stale := x.stale, opened := x.opened, overRange := x.overRange
                           underRange := x.underRange, compliance := x.compliance, readback := x.readback, cj := x.cj }
      | none => { u with value := 0, valueAt := none }

/-- The conversions that a freeze after the one at `f` may still take: those after `f` and the last one up to it. -/
def Uc.trimPast (u : Uc) (f : Nat) : Uc :=
  let late := fun (x : UcSeen) => decide (f < x.at_)
  { u with past := u.past.takeWhile late ++ (u.past.dropWhile late).take 1 }

/-- STALE as a freeze at time `t` finds it (R185): in every state of a channel, OFF, FAILED and SETTLING included. -/
def State.ucFreeze (s : State) (n t : Nat) : State :=
  let u := s.uc n
  let late := match u.valueAt with | some v => decide (v + 3 * s.ucPeriod n + 1000000 < t) | none => true
  if late && !u.stale then s.setUc n { u with stale := true } else s

/-! ## The source of an output's value (R186) -/

/-- Contexts of the loop engine in use: SECTIONS is not 0 (R150). -/
def State.usedContexts (s : State) : List Nat :=
  s.mram.obj.filterMap fun (e : Nat × Word) =>
    if 0x300 ≤ e.1 / 256 && e.1 / 256 ≤ 0x3FF && e.1 % 256 == 3 && bits e.2 31 28 != 0 then some (e.1 / 256 - 0x300) else none

/-- OUT_SINK and OUT_REF of a context. -/
def State.loopSink (s : State) (x : Nat) : Nat × Nat := (bits (s.cfg (0x300 + x) 0) 27 26, bits (s.cfg (0x300 + x) 1) 31 16)

/-- The context that names channel n as its sink (R154, R156). -/
def State.loopOfChannel (s : State) (n : Nat) : Option Nat := s.usedContexts.find? fun x => s.loopSink x == (1, n)

/-- SAFE_VALUE and START_VALUE of channel n (R187). -/
def State.ucSafe (s : State) (n : Nat) : Int := sInt (s.cfg (0x400 + n) 6)
def State.ucStartValue (s : State) (n : Nat) : Int := sInt (s.cfg (0x400 + n) 5)

/-- The start value of channel n: none is a high-impedance stage (R209). -/
def State.ucStart (s : State) (n : Nat) : Option Int :=
  match bits (s.cfg (0x400 + n) 4) 31 30 with
  | 1 => match s.newestRetained with | some r => (r.ucOut.find? (·.1 == n)).map (·.2) | none => none
  | 2 => some (s.ucStartValue n)
  | _ => none

/-- Orders 3 to 7 of R186: the value selected, and whether the committed Q word is poisoned. A loop sink keeps the engine's value. -/
def State.ucSelect (s : State) (n : Nat) : Int × Bool :=
  if s.leftService || s.stopSafe then (s.ucSafe n, false)
  else if (s.loopOfChannel n).isSome then ((s.uc n).selected, false)
  else match s.forceOn .Q (32 + n) with
  | some f => (sInt f.value, false)
  | none =>
    let q := s.sqWord .done .Q (32 + n)
    if q.2 then ((s.uc n).selected, true) else (sInt q.1, false)

/-- The stage of channel n may drive: an output mode past its start-up. Until the first apply of full service START_ACTION decides (R209), but
for a hold or a trip, and for what stands from one of them until the next apply (R281). -/
def State.ucDrivable (s : State) (n : Nat) : Bool :=
  ucOutput (ucMode (s.ucCfg n)) &&
    match (s.uc n).state with
    | .run | .settling | .sideStreet =>
      !s.beforeFirstApply || (s.ucStart n).isSome || (s.uc n).held.isSome || (s.ucTrip n).isSome || (s.uc n).await_
    | _ => false

/-- On which side a value lies outside the output range. -/
def clipSide (r : Int × Int) (v : Int) : Int := if r.2 < v then 1 else if v < r.1 then -1 else 0

/-- Drives channel n: orders 1 and 2 of R186 act at once, else the value last selected; clipped to the output range, with the flag of an output (R194). The series
switch is closed only where the module drives or its hold holds (R186, R206). -/
def State.ucRefresh (s : State) (n : Nat) : State :=
  let u := s.uc n
  let r := ucRange (s.ucCfg n)
  let trip := s.ucTrip n
  let v := match trip with
    | some t => t
    | none => u.held.getD (if u.await_ then u.driven else u.selected)
  s.setUc n { u with driven := clampInt r.1 r.2 v, drives := s.ucDrivable n && (s.drives || u.held.isSome), tripHeld := trip.isSome
                     clipped := if ucOutput (ucMode (s.ucCfg n)) then clipSide r v else 0 }

/-- Apply for channel n (R186): a poisoned Q word shows where its row is the first that applies, not under a trip or a hold. -/
def State.ucApply (s : State) (n : Nat) : State :=
  if !ucOutput (ucMode (s.ucCfg n)) then s
  else
    let u := s.uc n
    let (v, q) := s.ucSelect n
    let p := q && (s.ucTrip n).isNone && u.held.isNone
    let s := (s.setUc n { u with selected := v, poison := p, await_ := false }).ucRefresh n
    if p && !u.poison then s.raise .ucOutputPoisoned (mkWord [(4, 0, n)]) else s

/-! ## Mode changes (R189, R190) -/

/-- Whether a change of the mode word runs the full sequence: MODE, ELEMENT, HART_ENABLE or the LISTEN fields (R189). -/
def ucFullChange (old new : Word) : Bool :=
  ucMode old != ucMode new ||
    match ucMode new with
    | 3 | 4 => bit old 0 != bit new 0
    | 6 | 7 | 8 => bits old 3 0 != bits new 3 0
    | 0x0E => bits old 12 0 != bits new 12 0
    | _ => false

/-- Answers the HART transactions of channel n WRONG_STATE and forgets them (R190). -/
def State.dropHart (s : State) (n : Nat) : State :=
  let jobs := (s.uc n).jobs
  let s := s.modUc n fun u => { u with jobs := [], scanning := false }
  s.each jobs fun s j => s.refuse j.ctx .wrongState

/-- Step 1 of a full mode change (R189): the shut-down begins. -/
def State.ucShutDown (s : State) (n : Nat) (mode : Nat) : State :=
  let s := s.dropHart n
  let u := s.uc n
  let s := s.ucUpdate n { u with state := .shuttingDown, limitHi := false, limitLo := false, stale := true, driven := 0, drives := false }
  s.raise .modeChanged (mkWord [(15, 8, mode), (4, 0, n)])

/-- A mode word that changes a channel is accepted while it is STARTING or SETTLING: it begins a new shut-down at its boundary (R190). -/
def State.ucNote (s : State) (n : Nat) (w : Word) : State :=
  let x := (s.uc n).state
  if (x == .starting || x == .settling) && s.ucCfg n != w then s.modUc n fun u => { u with again := true } else s

/-- A mode word takes effect at a boundary (R189, R190). -/
def State.ucLandMode (s : State) (n : Nat) (old new : Word) : State :=
  let u := s.uc n
  let again := u.again
  let u := { u with again := false }
  let s := s.setUc n u
  if old == new then s
  else match u.state with
  | .shuttingDown => s
  | .off | .failed => if ucFullChange old new then s.ucShutDown n (ucMode new) else s
  | _ =>
    if ucFullChange old new || again then s.ucShutDown n (ucMode new)
    else s.setUc n { u with state := .settling, settleLeft := settleCount (ucRate new) }

/-- Writes a word of channel n's object in MRAM. RESCAN is written only (R187): nothing keeps it. -/
def State.putUcWord (s : State) (n sub : Nat) (w : Word) : State :=
  let w := if sub = 8 then setBit w 22 false else w
  { s with mram := { s.mram.wrote (0x400 + n) with obj := s.mram.obj.set (objDefault (okey (0x400 + n) sub)) (okey (0x400 + n) sub) w } }

/-- A front end switched to a mode starts with clear conditions; SUPPLY_OVERLOAD clears on the recovery of the store alone (R197). -/
def Uc.fresh (u : Uc) : Uc :=
  { u with opened := {}, overRange := {}, underRange := {}, compliance := {}, readback := {}, cj := {}, hartFault := false,
           poison := false, clipped := 0, headroom := 0 }

/-- UC_STARTUP_COMPLETE (R189 step 3): the channel enters SETTLING and an output drives its value. UNCAL of a channel that has left FAILED stays until
a restart calibrates it (DESIGN CHOICE, log 149). -/
def execUcStartupComplete (ch : Fin 32) (s : State) : Out :=
  if (s.uc ch).state != .starting then .next s
  else .next ((s.modUc ch fun u => { u with state := .settling, settleLeft := settleCount (ucRate (s.ucCfg ch)) }).ucApply ch)

/-! ## HART (R200 to R204) -/

/-- The HART master of channel n works: HART in use, the channel in RUN, full service from its first apply on, and not a standby (R200, R202, R206,
R209). -/
def State.hartReady (s : State) (n : Nat) : Bool :=
  ucHart (s.ucCfg n) && (s.uc n).state == .run && s.service == .full && !s.beforeFirstApply && !s.standby

/-- A scan is due on a channel in RUN with HART in use; while its HART master is silent, as before the first apply, it waits (R203, R209). -/
def State.startScan (s : State) (n : Nat) : State :=
  if ucHart (s.ucCfg n) && (s.uc n).state == .run then s.modUc n fun u => { u with scanning := true } else s

/-- RESCAN (R187, R203): a write of RESCAN = 1. -/
def execRescan (ch : Fin 32) (s : State) : Out := .next (s.startScan ch)

/-- HART_TRANSACT (R68, R201). -/
def hartTransactDesc : CmdDesc :=
  { code := 0x0503, roles := [.operate], fits := fun b => 9 ≤ b.length && b.length == 9 + byteAt b 8, kind := .change }

/-- The address a HART_TRANSACT means, or the status that refuses it (R201). -/
def State.hartAddress (s : State) (n poll : Nat) (b : List Byte) : Except Status (BitVec 8 × BitVec 32) :=
  if poll == 0xFF then .ok (BitVec.ofNat 8 (byteAt b 2), BitVec.ofNat 32 (be32 b 3))
  else if poll == 0 || 15 < poll then .error .outOfRange
  else if ucMode (s.ucCfg n) != 5 then .error .badObject
  else match (s.uc n).devices.find? fun e => e.2.present && e.2.poll.toNat == poll with
  | some e => .ok (e.2.longHi, e.2.longLo)
  | none => .error .badObject

/-- Queues a pass-through transaction: one runs and four wait (R202). -/
def runHartTransact (c : Ctx) (b : List Byte) (s : State) : State :=
  let n := byteAt b 0
  if 31 < n then s.refuse c .badObject
  else if !s.hartReady n then s.refuse c .wrongState
  else match s.hartAddress n (byteAt b 1) b with
  | .error st => s.refuse c st
  | .ok (hi, lo) =>
    if 5 ≤ (s.uc n).jobs.length then s.replyBusy c true
    else s.modUc n fun u => { u with jobs := u.jobs ++
      [{ ctx := c, longHi := hi, longLo := lo, command := BitVec.ofNat 8 (byteAt b 7), data := b.drop 9 }] }

def execHartTransact (p : Packet) (s : State) : Out := s.command p hartTransactDesc runHartTransact

/-- Changes the table entry of a device by its long address. -/
def modDevice (hi : BitVec 8) (lo : BitVec 32) (f : HartDevice → HartDevice) (t : Tab HartDevice) : Tab HartDevice :=
  t.map fun (e : Nat × HartDevice) => if e.2.present && e.2.longHi == hi && e.2.longLo == lo then (e.1, f e.2) else e

/-- The consecutive transactions that a device has not answered, one more or none (R203). -/
def Uc.silence (u : Uc) (hi : BitVec 8) (lo : BitVec 32) (answered : Bool) : List ((BitVec 8 × BitVec 32) × Nat) :=
  let rest := u.silences.filter fun e => e.1 != (hi, lo)
  if answered then rest else ((hi, lo), (match u.silences.find? fun e => e.1 == (hi, lo) with | some e => e.2 | none => 0) + 1) :: rest

/-- HART_TRANSACTION_COMPLETE (R201, R203): the running transaction ends with the device's reply, or without one after its retries. HART_TRANSACTIONS
counts the answered ones (R187; DESIGN CHOICE, log 147). -/
def execHartTransactionComplete (ch : Fin 32) (r : Option (BitVec 16 × List Byte)) (s : State) : Out :=
  let u := s.uc ch
  match u.jobs with
  | [] => .next s
  | j :: rest =>
    match r with
    | some (code, data) =>
      let s := s.setUc ch { u with jobs := rest, transactions := satInc u.transactions, silences := u.silence j.longHi j.longLo true }
      .next (s.reply j.ctx .ok (toBe 2 code.toNat ++ toBe 1 data.length ++ data))
    | none =>
      let l := u.silence j.longHi j.longLo false
      let s := s.setUc ch { u with jobs := rest, noResponse := satInc u.noResponse, silences := l
                                   hartFault := u.hartFault || l.any fun e => decide (3 ≤ e.2) }
      .next (s.refuse j.ctx .noResponse)

/-- Puts a found device in its place by polling address. -/
def insertFound (d : HartFound) : List HartFound → List HartFound
  | [] => [d]
  | x :: l => if d.poll < x.poll then d :: x :: l else x :: insertFound d l

/-- The device table of a scan: devices 0 to 5 in order of polling address (R203). Burst frames stored before go with the old table (DESIGN CHOICE,
log 148). -/
def scanTable (l : List HartFound) (n : Nat) : Tab HartDevice :=
  (((l.foldl (fun t d => insertFound d t) []).take n).zipIdx).map fun (e : HartFound × Nat) =>
    (e.2, { present := true, poll := e.1.poll, longHi := e.1.longHi, longLo := e.1.longLo })

/-- HART_SCAN_COMPLETE (R203). -/
def execHartScanComplete (ch : Fin 32) (found : List HartFound) (s : State) : Out :=
  let u := s.uc ch
  if !u.scanning || !s.hartReady ch then .next s
  else
    let w := s.ucCfg ch
    let many := decide (6 < found.length)
    let s := s.setUc ch { u with scanning := false, silences := [], hartFault := many || decide (found.length < ucExpected w)
                                 devices := scanTable found (if ucMode w == 5 then 6 else 1) }
    .next (if many then s.raise .hartOvercount (mkWord [(15, 8, found.length), (4, 0, ch)]) else s)

/-- HART_BURST_RECEIVED (R204): the latest burst of a device of the table is kept. -/
def execHartBurstReceived (ch : Fin 32) (hi : BitVec 8) (lo : BitVec 32) (frame : List Byte) (s : State) : Out :=
  let u := s.uc ch
  if !s.hartReady ch || !bit (s.cfg (0x400 + ch) 8) 28 then .next s
  else .next (s.setUc ch { u with devices := modDevice hi lo (fun d => { d with burst := some (frame, s.now) }) u.devices })

/-- HART_BURST_READ (R68, R204). -/
def hartBurstReadDesc : CmdDesc := { code := 0x0504, roles := [.observe], fits := exact 4, kind := .data }

/-- The latest burst frame with its age; with none stored the age reads FFFF_FFFFh and no frame follows. -/
def runHartBurstRead (c : Ctx) (b : List Byte) (s : State) : State :=
  let n := byteAt b 0
  let d := byteAt b 1
  if 31 < n || 5 < d then s.refuse c .badObject
  else if !(ucHart (s.ucCfg n) && (s.uc n).state == .run) then s.refuse c .wrongState
  else match ((s.uc n).devices.get {} d).burst with
  | some (frame, t) => s.reply c .ok (toBe 4 (satNat 32 ((s.now - t) / 1000000)) ++ frame)
  | none => s.reply c .ok (toBe 4 0xFFFFFFFF)

def execHartBurstRead (p : Packet) (s : State) : Out := s.command p hartBurstReadDesc runHartBurstRead

/-! ## Conversions (R185, R194 to R199) -/

/-- The limit comparator (R196): inactive in Side-Street mode (R209). -/
def State.ucLimits (s : State) (n : Nat) (v : Int) : State :=
  if s.beforeFirstApply then s
  else
    let u := s.uc n
    let hi := sInt (s.cfg (0x400 + n) 1)
    let lo := sInt (s.cfg (0x400 + n) 2)
    let w := s.cfg (0x400 + n) 3
    let hyst : Int := bits w 23 0
    let h := bit w 31 && (if u.limitHi then !decide (v < hi - hyst) else decide (hi < v))
    let l := bit w 30 && (if u.limitLo then !decide (lo + hyst < v) else decide (v < lo))
    let t := s.setUc n { u with limitHi := h, limitLo := l }
    let t := if h && !u.limitHi then t.fireSource (128 + 2 * n) else t
    if l && !u.limitLo then t.fireSource (129 + 2 * n) else t

/-- The channel reports OPEN, FAULT or FAILED (R274). -/
def Uc.bad (u : Uc) : Bool := u.opened.set_ || u.fault || u.state == .failed

/-- Hands the value of a conversion of channel n to FIRE when a slot names it (R196, R274). -/
def State.ucToFire (s : State) (n : Nat) : State :=
  if s.inSlotNames [2, 3] n then s.toFire (.uc n (some (s.uc n).value) (s.uc n).bad) else s

/-- Tells FIRE of a change of the conditions of channel n that no conversion brings (R274). -/
def State.ucBadToFire (s : State) (n : Nat) : State :=
  if s.inSlotNames [2, 3] n then s.toFire (.uc n none (s.uc n).bad) else s

/-- The live readings of a conversion (R187, R197, R199). -/
def Uc.readings (u : Uc) (w : Word) (c : Conversion) : Uc :=
  { u with store := some c.storeMv, load := some c.loadUa, headroom := if ucOutput (ucMode w) then c.headroomMv else 0
           cjTemp := if ucMode w == 0x0A then some c.cjTemp else u.cjTemp }

/-- A settled conversion delivers its value and its conditions (R185, R194, R199). -/
def State.ucDeliver (s : State) (n : Nat) (c : Conversion) : State :=
  let w := s.ucWorks n
  let u := (s.uc n).readings w c
  let x := ucValue w (bits (s.cfg (0x400 + n) 7) 31 0) c
  let r := ucRange w
  let out := ucOutput (ucMode w)
  let v := if out then sat32 x else clampInt r.1 r.2 x
  let isI := ucMode w == 0x0C || ucMode w == 0x0D
  let comp := if isI then u.compliance.step (decide (c.headroomMv < 1500)) (decide (2000 ≤ c.headroomMv)) 2 2 else u.compliance
  let past := if s.looksBack then u.seen ++ u.past else []
  let off := ucReadbackCond w u (u.level s.now) c
  let u' := { u with value := v, valueAt := some s.now, heldRead := if u.held.isSome then u.heldRead.map (· || off) else u.heldRead
                     stale := false, past := past
                     opened := u.opened.judge (ucOpenCond w u (u.level s.now) c)
                     overRange := u.overRange.judge (!out && decide (r.2 < x))
                     underRange := u.underRange.judge (!out && decide (x < r.1))
                     readback := u.readback.judge off
                     cj := u.cj.judge (ucCjCond w c)
                     compliance := comp }
  let s := s.ucUpdate n u'
  let s := if comp.set_ && !u.compliance.set_ then
      s.raise .compliance (mkWord [(31, 8, (c.raw / 1000).toNat), (4, 0, n)]) else s
  (s.ucLimits n v).ucToFire n

/-- UC_CONVERSION_COMPLETE (R185): a conversion before the first settled one delivers no value (R184, R189). -/
def execUcConversionComplete (ch : Fin 32) (c : Conversion) (s : State) : Out :=
  let u := s.uc ch
  if !s.runs 7 then .next s
  else match u.state with
  | .run | .sideStreet => .next (s.ucDeliver ch c)
  | .settling =>
    if 1 < u.settleLeft then .next (s.setUc ch ({ u with settleLeft := u.settleLeft - 1 }.readings (s.ucWorks ch) c))
    else .next (((s.setUc ch { u with state := .run, settleLeft := 0 }).ucDeliver ch c).startScan ch)
  | _ => .next s

/-- UC_STORE_LOW (R197): the store has stayed below 25.5 V for 1 ms. ANSEQ sees it, and nothing is seen while it does not run (R407). -/
def execUcStoreLow (ch : Fin 32) (mv : Nat) (s : State) : Out :=
  let u := s.uc ch
  if u.state == .off || !s.runs 7 || 25500 ≤ mv then .next s else .next ((s.ucUpdate ch { u with overload := true, store := some mv }).ucBadToFire ch)

/-- UC_STORE_RECOVERED (R197): the store has stayed above 27.0 V for 100 ms. -/
def execUcStoreRecovered (ch : Fin 32) (mv : Nat) (s : State) : Out :=
  let u := s.uc ch
  if u.overload && s.runs 7 && 27000 < mv then .next ((s.ucUpdate ch { u with overload := false, store := some mv }).ucBadToFire ch) else .next s

/-! ## Start-up and CHANNEL_STATUS -/

/-- A channel at the start of Side-Street mode (R209). -/
def State.ucSideStreet (s : State) (n : Nat) : State :=
  let off := ucMode (s.ucCfg n) == 0
  let sel := (s.ucStart n).getD 0
  (s.setUc n { (s.uc n) with state := if off then .off else .sideStreet, uncal := true, selected := sel }).ucRefresh n

/-- Self-calibration of channel n at entry to full service (R210, R194): UNCAL and SIDE_STREET stand until the first apply (R209). A channel in OFF runs
none, and its UNCAL clears with the others' (DESIGN CHOICE, log 151). -/
def State.ucCalibrate (s : State) (n : Nat) (failed : Bool) : State :=
  let u := s.uc n
  if ucMode (s.ucCfg n) == 0 then s.setUc n { u with calibrated := true }
  else if failed then ((s.ucUpdate n { u with state := .failed, driven := 0, drives := false }).raise .calFailed (mkWord [(4, 0, n)])).ucBadToFire n
  else s.setUc n { u with calibrated := true }

/-- At an apply a channel that has been calibrated leaves SIDE_STREET for SETTLING, and its UNCAL clears (R209, R210). -/
def State.ucCalibrated (s : State) (n : Nat) : State :=
  let u := s.uc n
  if !u.calibrated then s
  else
    let v := { u with uncal := false, calibrated := false }
    s.setUc n (if u.state == .sideStreet then { v with state := .settling, settleLeft := settleCount (ucRate (s.ucCfg n)) } else v)

/-- CHANNEL_STATUS (R68). -/
def channelStatusDesc : CmdDesc := { code := 0x0501, roles := [.observe], fits := exact 4, kind := .data }

/-- Channels of a KIND, and the word of area I at which its status words begin (R78). -/
def statusKind (k : Nat) : Option (Nat × Nat) :=
  match k with
  | 0 => some (32, 64)
  | 1 => some (48, 128)
  | 2 => some (32, 96)
  | _ => none

/-- A status word before the first apply of full service (R36, R231). -/
def State.statusNow (s : State) (kind n : Nat) : Word :=
  match kind with
  | 0 => s.ucStatus n s.now
  | 1 => (s.di n).offered
  | _ => (s.do_ n).offered

/-- Status words of one committed cycle (RS, R56), or as they are offered before the first apply of full service. -/
def channelStatusFrom (marks : List Nat) (c : Ctx) (b : List Byte) (s : State) : State :=
  let first := byteAt b 1
  let count := byteAt b 2
  match statusKind (byteAt b 0) with
  | none => s.refuse c .outOfRange
  | some (n, at_) =>
    if n ≤ first || n < first + count then s.refuse c .badObject
    else if count = 0 then s.refuse c .outOfRange
    else if s.offers then s.replyData c [] ((List.range count).map fun i => (s.statusNow (byteAt b 0) (first + i), false))
    else s.gateWords c b ((List.range count).map fun i => (.I, at_ + first + i)) marks fun l t => t.replyData c [] l

def runChannelStatus : Ctx → List Byte → State → State := channelStatusFrom []

def execChannelStatus (p : Packet) (s : State) : Out := s.command p channelStatusDesc runChannelStatus

end Sys2Proof.Machine
end

