-- ==== Sys2Proof/Machine/Fire.lean ====
section
/-! DEFINITION. The Fire Lane trip matrix (chapter 10): slots, votes, trips, clearing and resets, the outputs FIRE drives, and the
procedure by which its configuration changes. -/

namespace Sys2Proof.Machine

open Sys2Proof

/-! ## Slots (R274) -/

/-- FIRE works: it has logic supply and is not the island for which the module left service (R35, R286). -/
def State.fireRuns (s : State) : Bool := s.service != .off && s.runs 9

/-- THRESHOLD and HYST of an analog slot. -/
def State.inThreshold (s : State) (i : Nat) : Int := sInt (s.inWord i 1)
def State.inHyst (s : State) (i : Nat) : Int := (s.inWord i 2).toNat

/-- TIMEOUT_MS of a slot in ns. -/
def State.inTimeoutNs (s : State) (i : Nat) : Nat := bits (s.inWord i 0) 15 0 * 1000000

/-- UNASSURED of slot `i` (R274): frame slots without TIMEOUT_MS, unused slots and request slots before the first apply are
assured. -/
def State.inUnassured (s : State) (i : Nat) : Bool :=
  match s.inKind i with
  | 0 => false
  | 4 | 5 => bits (s.inWord i 0) 15 0 != 0 && (s.fireSlot i).unassured
  | 6 => (s.fireSlot i).lastAt.isSome && (s.fireSlot i).unassured
  | _ => (s.fireSlot i).unassured

/-- REASON of slot `i` (R291). -/
def State.inReason (s : State) (i : Nat) : Nat := if s.inUnassured i then (s.fireSlot i).reason else 0

/-- A slot counted as tripped (R274); unused and reset slots never count. -/
def State.inCounted (s : State) (i : Nat) : Bool :=
  match s.inKind i with
  | 0 | 7 => false
  | _ => (s.fireSlot i).condition || (s.inUnassured i && bit (s.inWord i 0) 27)

/-- Replaces a slot; a rise of UNASSURED writes FIRE_INPUT_UNASSURED. -/
def State.putSlot (s : State) (i : Nat) (x : FireSlot) : State :=
  let was := s.inUnassured i
  let s := s.setFireSlot i x
  if s.inUnassured i && !was then s.raise .fireInputUnassured (mkWord [(12, 8, x.reason), (4, 0, i)]) else s

/-- A delivery to slot `i`: the condition it gives, or none to leave it, and the reason for which it is unassured (0: assured). FIRE evaluates
what it is handed whether or not a reason holds (R274, log 34). -/
def State.deliverSlot (s : State) (i : Nat) (cond : Option Bool) (reason : Nat) : State :=
  s.putSlot i { (s.fireSlot i) with condition := cond.getD (s.fireSlot i).condition, unassured := reason != 0
                                    reason := reason, lastAt := some s.now }

/-! ## Votes (R276) -/

/-- The input slots of a function, N of them. -/
def State.fnSlots (s : State) (f : Nat) : List Nat := (List.range 32).filter (s.fnNames f)

/-- VOTES. -/
def State.votes (s : State) (f : Nat) : Nat := ((s.fnSlots f).filter s.inCounted).length

/-- The threshold K of a function by its VOTE. -/
def State.fnK (s : State) (f : Nat) : Nat :=
  match bits (s.fnWord f 0) 30 29 with
  | 0 => 1
  | 1 => (s.fnSlots f).length
  | _ => bits (s.fnWord f 0) 23 20

/-- The output slots of a function. -/
def State.fnOuts (s : State) (f : Nat) : List Nat := (List.range 24).filter (s.fnDrives f)

/-! ## Trip outputs (R278, R282) -/

/-- CODE of a ring slot. -/
def State.outCode (s : State) (o : Nat) : Nat := bits (s.outWord o 0) 23 16

/-- The STATES field of a trip frame: every code tripped on this module (R383). -/
def State.codeStates (s : State) : BitVec 256 :=
  BitVec.ofNat 256 (((List.range 24).filter fun o => s.outKind o == 3 && s.outTripped o).foldl
    (fun a o => a ||| 2 ^ s.outCode o) 0)

/-- Frame trip outputs are sent by a module that is simplex, ACTIVE or ACTIVE_ALONE (R282), or that is taking over (R307 step 3); the incoming module of a
planned handover sends none before it is ACTIVE (R311). -/
def State.sendsFrames (s : State) : Bool :=
  !s.pairMode || s.pair.state == .active || s.pair.state == .alone || (s.pair.incoming.isSome && !s.pair.planned)

/-- The lowest tripped function that names a slot. -/
def State.lowestFn (s : State) (o : Nat) : Nat :=
  ((List.range 16).find? fun f => s.fnEnabled f && (s.fireFn f).tripped && s.fnDrives f o).getD 0

/-- Sends the frame of a frame slot (R282): tripped or clear, with the time of its change. A module without an address sends no
station frame (R383). -/
def State.sendFrame (s : State) (o : Nat) : State :=
  let t := s.outTripped o
  if !s.sendsFrames then s
  else if s.outKind o == 3 then
    if !s.mram.addressed || !s.ringUp then s
    else (s.sendStation (.trip (BitVec.ofNat 8 (s.outCode o)) t (s.fireOut o).since s.codeStates)).modFireOut o fun x =>
      { x with complete := true, sentAt := s.now }
  else if s.outKind o == 4 then
    let w := s.outWord o 1
    let f : CanFrame := { xtd := bit w 31, fdf := false, brs := false, esi := false, rtr := false, id := BitVec.ofNat 29 (bits w 28 0)
                          data := if t then [1, BitVec.ofNat 8 (s.lowestFn o)] else [0], sof := 0 }
    (s.modCan (s.outRef o % 2) fun q => { q with emergency := q.emergency ++ [f] }).modFireOut o fun x => { x with sentAt := s.now }
  else s

/-- A DO output returns to its ordinary source from the next apply, where one runs (R281; log 105). -/
def State.returnDo (s : State) (n : Nat) : State :=
  if s.service == .full then s.modDo n fun d => { d with await_ := true } else s.doRefresh n

/-- A UC output returns to its ordinary source from the next apply; a loop's sink from the first tick after (R281, R163). -/
def State.returnUc (s : State) (n : Nat) : State :=
  let s := if s.service == .full then s.modUc n fun u => { u with await_ := true } else s
  let s := match s.loopOfChannel n with
    | some x => s.modLoopCtx x fun q => { q with sinkNew := true }
    | none => s
  s.ucRefresh n

/-- An output slot takes or leaves its trip state (R281, R282). -/
def State.moveOut (s : State) (o : Nat) : State :=
  let t := s.outTripped o
  let s := s.modFireOut o fun x => { x with complete := false, failed := false, since := s.now }
  match s.outKind o with
  | 1 => if t then s.doRefresh (s.outRef o) else s.returnDo (s.outRef o)
  | 2 => if t then s.ucRefresh (s.outRef o) else s.returnUc (s.outRef o)
  | 3 | 4 => s.sendFrame o
  | _ => s

/-- Every output that TRIP_CUT concerns takes its state anew: on assertion its trip state; a hold that has driven it keeps it
(R285, R229). -/
def State.cutOutputs (s : State) : State :=
  s.each (List.range 24) fun s o =>
    let n := s.outRef o
    match s.outKind o with
    | 1 =>
      if s.lineCut then
        let safe := s.doSafe n
        (s.modDo n fun d => if d.held then { d with heldState := safe } else d).doRefresh n
      else s.returnDo n
    | 2 =>
      if s.lineCut then
        let v := sInt (s.outWord o 1)
        (s.modUc n fun u => if u.held.isSome then { u with held := some v, heldTrip := true } else u).ucRefresh n
      else s.returnUc n
    | _ => s

/-- FIRE is at fault (R35, R286): the module asserts TRIP_CUT no more. -/
def State.fireGone (s : State) : State :=
  let was := s.lineCut
  let s := { s with fire := { s.fire with cutOut := false } }
  if s.lineCut == was then s else s.cutOutputs

/-- Asserts or releases TRIP_CUT: while a function with CUT = 1 is tripped (R285). A simplex module has no line (R286). -/
def State.judgeCut (s : State) (f : Nat) : State :=
  let cut := s.pairMode && (List.range 16).any fun g => s.fnEnabled g && s.fnCut g && (s.fireFn g).tripped
  if cut == s.fire.cutOut then s
  else
    let was := s.lineCut
    let s := { s with fire := { s.fire with cutOut := cut } }
    let s := if cut then s.raise .tripCutAsserted (mkWord [(3, 0, f)]) else s
    if s.lineCut == was then s else s.cutOutputs

/-- TRIP_CUT as the functions that are tripped now have it (R285): after a restart and with a new set. -/
def State.judgeCuts (s : State) : State :=
  s.judgeCut (((List.range 16).find? fun g => s.fnEnabled g && s.fnCut g && (s.fireFn g).tripped).getD 0)

/-- The digital outputs and universal channels that stand under a trip, as KIND and REF (R282, R285). -/
def State.underTrip (s : State) : List (Nat × Nat) :=
  (((List.range 24).filter fun o => (s.outKind o == 1 || s.outKind o == 2) && (s.outTripped o || s.lineCut)).map fun o => (s.outKind o, s.outRef o)).dedup

/-- The outputs under a new set: TRIP_CUT is judged anew, each slot that a tripped function names takes its trip state and sends, and what stood under a
trip before, `was`, and does no more returns to its source (R281, R282, R285). -/
def State.retakeOutputs (s : State) (was : List (Nat × Nat)) : State :=
  let s := s.judgeCuts
  let s := s.each (was.filter fun e => !s.underTrip.contains e) fun s e => if e.1 == 1 then s.returnDo e.2 else s.returnUc e.2
  let s := s.each ((List.range 24).filter s.outTripped) State.moveOut
  if s.lineCut then s.cutOutputs else s

/-- An output slot has reached its trip state (R278), or was given up. -/
def State.outReached (s : State) (o : Nat) : Bool :=
  (s.fireOut o).failed ||
    match s.outKind o with
    | 1 => (s.do_ (s.outRef o)).driven == s.doSafe (s.outRef o)
    | 2 =>
      let r := ucRange (s.ucCfg (s.outRef o))
      (s.uc (s.outRef o)).driven == clampInt r.1 r.2 (sInt (s.outWord o 1))
    | 3 | 4 => (s.fireOut o).complete
    | _ => true

/-! ## Trips and clearing (R277, R279 to R281) -/

/-- Function `f` trips (R277): its outputs, TRIP_CUT, the record with the trip time, and source 312 + f. -/
def State.tripFn (s : State) (f votes : Nat) : State :=
  let outs := (s.fnOuts f).filter fun o => !s.outTripped o
  let forced := (s.fnSlots f).any fun i => s.inCounted i && s.inUnassured i
  let x := s.fireFn f
  let s := s.setFireFn f { x with tripped := true, latched := s.fnLatch f, done := false, resetPending := false
                                  trips := satInc x.trips, tripAt := s.now }
  let s := s.each outs State.moveOut
  let s := s.judgeCut f
  let s := s.raiseFull 9 .fireTrip (mkWord [(12, 12, b2n forced), (11, 8, votes), (3, 0, f)]) (some s.now) none
  (s.fireSource (312 + f)).plateLinked f

/-- Function `f` clears (R279, R281): outputs that no other tripped function names return. -/
def State.clearFn (s : State) (f : Nat) : State :=
  let x := s.fireFn f
  let s := s.setFireFn f { x with tripped := false, latched := false, done := false, resetPending := false }
  let s := s.each ((s.fnOuts f).filter fun o => !s.outTripped o) State.moveOut
  ((s.judgeCut f).raise .fireCleared (mkWord [(3, 0, f)])).plateLinked f

/-- One evaluation of function `f` (R276, R279). -/
def State.evalFn (s : State) (f : Nat) : State :=
  if !s.fnEnabled f then s
  else
    let v := s.votes f
    let x := s.fireFn f
    if !x.tripped then (if s.fnK f ≤ v then s.tripFn f v else s)
    else if !s.fnLatch f && x.done && decide (v < s.fnK f) then s.clearFn f
    else s

/-- Evaluates every function. -/
def State.evalFns (s : State) : State := s.each (List.range 16) State.evalFn

/-- A reset request for the functions of a list (R280): the functions cleared at once and those deferred. -/
def State.resetFns (s : State) (l : List Nat) (byInput : Bool) : State × Nat × Bool :=
  let tripped := l.filter fun f => s.fnEnabled f && (s.fireFn f).tripped && (s.fireFn f).latched
  let refused := tripped.filter fun f => s.fnK f ≤ s.votes f
  let rest := tripped.filter fun f => s.votes f < s.fnK f
  let now := rest.filter fun f => (s.fireFn f).done
  let later := rest.filter fun f => !(s.fireFn f).done
  let s := s.each refused fun s f => s.raise .fireResetRefused (mkWord [(11, 8, s.votes f), (3, 0, f)])
  let mask := now.foldl (fun a f => a + 2 ^ f) 0
  let s := if now.isEmpty then s else s.raise .fireReset (mkWord [(16, 16, b2n byInput), (15, 0, mask)])
  let s := s.each now State.clearFn
  let s := s.each later fun s f => s.modFireFn f fun x => { x with resetPending := true, resetByInput := byInput }
  (s, mask, !later.isEmpty)

/-- The functions whose RESET_SLOT is slot `i`. -/
def State.resetBy (s : State) (i : Nat) : List Nat := (List.range 16).filter fun f => bits (s.fnWord f 0) 15 8 == i

/-! ## Messages (R274, R276) -/

/-- REASON of a digital input: supply before wire break before stale (R291). -/
def diReason (wireBreak supply stale : Bool) : Nat := if supply then 1 else if wireBreak then 2 else if stale then 3 else 0

/-- An analog comparison with hysteresis (R274): high for kind 2h, low for kind 3h. -/
def State.analogCondition (s : State) (i : Nat) (v : Int) : Bool :=
  let th := s.inThreshold i
  let was := (s.fireSlot i).condition
  if s.inKind i == 2 then (if was then decide (th - s.inHyst i ≤ v) else decide (th < v))
  else (if was then decide (v ≤ th + s.inHyst i) else decide (v < th))

/-- An emergency frame matches a slot of kind 5h (R274). -/
def State.canMatches (s : State) (i p : Nat) (xtd : Bool) (id : BitVec 29) : Bool :=
  let w := s.inWord i 1
  s.inKind i == 5 && bit w 31 == xtd && bits w 30 30 == p && bits w 28 0 == id.toNat

/-- A matching frame whose byte 0 is neither 00h nor 01h counts in BAD_FRAMES, once however many slots it matches (R274). -/
def State.countBadFrame (s : State) (m : FireMsg) : State :=
  match m with
  | .can p xtd id b0 =>
    if 1 < b0 && (List.range 32).any (fun i => s.canMatches i p xtd id) then { s with fire := { s.fire with badFrames := satInc s.fire.badFrames } } else s
  | _ => s

/-- A channel's conditions reach an evaluated slot without a conversion: the time since the last one runs on, and a timeout is the lower reason
(R274, R291). -/
def State.channelBad (s : State) (i : Nat) (bad : Bool) : State :=
  let x := s.fireSlot i
  if x.lastAt.isNone || (x.unassured && x.reason == 3) then s
  else s.putSlot i { x with unassured := bad, reason := if bad then 5 else 0 }

/-- A message for one slot. A reset slot resets its functions at a rising edge in an assured state (R280). -/
def State.slotMessage (m : FireMsg) (s : State) (i : Nat) : State :=
  match m, s.inKind i with
  | .di n level wb sup st, 1 =>
    if s.inRef i == n then s.deliverSlot i (some (level == bit (s.inWord i 0) 26)) (diReason wb sup st) else s
  | .di n level wb sup st, 7 =>
    if s.inRef i == n then
      let edge := (s.fireSlot i).lastAt.isSome && !s.fire.resetLevel.get false i && level && diReason wb sup st == 0
      let s := s.deliverSlot i (some false) (diReason wb sup st)
      let s := { s with fire := { s.fire with resetLevel := s.fire.resetLevel.set false i level } }
      if edge then (s.resetFns (s.resetBy i) true).1 else s
    else s
  | .uc n v bad, 2 | .uc n v bad, 3 =>
    if s.inRef i != n then s
    else match v with
    | some x => s.deliverSlot i (some (s.analogCondition i x)) (if bad then 5 else 0)
    | none => s.channelBad i bad
  | .ring a states, 4 =>
    if s.inRef i == a.toNat || (bit (s.inWord i 2) 31 && bits (s.inWord i 2) 25 16 == a.toNat) then
      s.deliverSlot i (some (states.getLsbD (bits (s.inWord i 1) 7 0))) 0
    else s
  | .can p xtd id b0, 5 => if b0 ≤ 1 && s.canMatches i p xtd id then s.deliverSlot i (some (b0 == 1)) 0 else s
  | .request b po, 6 =>
    if po.getLsbD (s.inRef i) then s.deliverSlot i none 4 else s.deliverSlot i (some (b.getLsbD (s.inRef i))) 0
  | _, _ => s

/-- FIRE_INPUT_DELIVERY (R276): the first waiting message reaches FIRE, which re-evaluates. -/
def execFireInputDelivery (s : State) : Out :=
  match s.fire.inbox with
  | [] => .next s
  | m :: rest =>
    if !s.fireRuns then .next s
    else .next ((({ s with fire := { s.fire with inbox := rest } }).countBadFrame m |>.each (List.range 32) (State.slotMessage m)).evalFns)

/-- The time without a delivery after which slot `i` is unassured (R274), if any. -/
def State.slotLimit (s : State) (i : Nat) : Option Nat :=
  match s.inKind i with
  | 2 | 3 => some (3 * s.ucPeriod (s.inRef i) + 1000000)
  | 4 | 5 => if bits (s.inWord i 0) 15 0 = 0 then none else some (s.inTimeoutNs i)
  | _ => none

/-- A slot that has waited too long becomes unassured with REASON 03h, unless a lower reason stands (R274, R291). -/
def State.slotTimeout (s : State) (i : Nat) : State :=
  match s.slotLimit i, (s.fireSlot i).lastAt with
  | some lim, some t =>
    if t + lim < s.now then
      let x := s.fireSlot i
      s.putSlot i { x with unassured := true, reason := if x.unassured && x.reason < 3 then x.reason else 3 }
    else s
  | _, _ => s

/-- FIRE_TIMEOUT_CHECK (R276): every 100 µs. -/
def execFireTimeoutCheck (s : State) : Out :=
  if !s.fireRuns then .next s else .next ((s.each (List.range 32) State.slotTimeout).evalFns)

/-- FIRE_ACTION_COMPLETE (R278 to R280): every output slot of a tripped function has reached its trip state; a pending reset
acts when VOTES < K still holds and is spent otherwise; a function with LATCH = 0 may clear. -/
def execFireActionComplete (f : Fin 16) (s : State) : Out :=
  let x := s.fireFn f
  if !s.fireRuns || !x.tripped || x.done || !(s.fnOuts f).all s.outReached then .next s
  else
    let s := s.setFireFn f { x with done := true, resetPending := false }
    if x.resetPending && decide (s.votes f < s.fnK f) then
      .next ((s.raise .fireReset (mkWord [(16, 16, b2n x.resetByInput), (15, 0, 2 ^ f.val)])).clearFn f)
    else .next (s.evalFn f)

/-- TRIP_OUTPUT_FAILED (R278): a slot not in its trip state 100 ms after the trip. -/
def execTripOutputFailed (o : Fin 24) (s : State) : Out :=
  let x := s.fireOut o
  if !s.fireRuns || !s.outTripped o || s.outReached o || s.now < x.since + 100000000 then .next s
  else .next ((s.setFireOut o { x with failed := true }).raise .tripOutputFailed (mkWord [(4, 0, o)]))

/-- FIRE_FRAME_REPEAT (R282): a tripped frame slot sends again every REPEAT_MS. -/
def execFireFrameRepeat (o : Fin 24) (s : State) : Out :=
  let ms := bits (s.outWord o 0) 15 0
  if s.outTripped o && (s.outKind o == 3 || s.outKind o == 4) && ms != 0 && (s.fireOut o).sentAt + ms * 1000000 ≤ s.now && s.fireRuns then
    .next (s.sendFrame o)
  else .next s

/-- TRIP_CUT_INPUT (R285): the partner's part of the line changes. -/
def execTripCutInput (asserted : Bool) (s : State) : Out :=
  let was := s.lineCut
  let s := { s with fire := { s.fire with cutIn := asserted } }
  if s.lineCut == was then .next s else .next s.cutOutputs

/-! ## Commands (R74, R280, R289) -/

/-- Functions as a mask. -/
def fnMask (p : Nat → Bool) : Nat := (List.range 16).foldl (fun a f => a + b2n (p f) * 2 ^ f) 0

/-- The staged set by load order: its object keys (R289, R291). -/
def stagedKey (k : Nat) : Nat :=
  if k < 96 then okey 0x880 (4 * (k / 3) + k % 3)
  else if k < 144 then okey 0x881 (4 * ((k - 96) / 3) + (k - 96) % 3)
  else okey 0x882 (k - 144)

/-- Word `k` of the staged set. -/
def State.stagedWord (s : State) (k : Nat) : Word := s.mram.obj.get (objDefault (stagedKey k)) (stagedKey k)

/-- The words of the staged set and of the set in force; CONFIG_CRC and STAGED_CRC (R288). -/
def State.stagedWords (s : State) : List Word := (List.range 192).map s.stagedWord
def State.fireWords (s : State) : List Word := (List.range 192).map fun k => s.fireSet.get (fireDefault k) k
def State.configCrc (s : State) : Word := crc32c (wordsBe s.fireWords)
def State.stagedCrc (s : State) : Word := crc32c (wordsBe s.stagedWords)

/-- FIRE_STATUS (R74). -/
def fireStatusDesc : CmdDesc := { code := 0x0C00, roles := [.observe], fits := exact 0, kind := .local_ }

def runFireStatus (c : Ctx) (_ : List Byte) (s : State) : State :=
  s.reply c .ok (toBe 2 (fnMask fun f => (s.fireFn f).tripped) ++ toBe 2 (fnMask fun f => (s.fireFn f).latched) ++
    toBe 1 (b2n s.fire.arm.isSome) ++ pad 3 ++ wordBe s.configCrc)

def execFireStatus (p : Packet) (s : State) : Out := s.command p fireStatusDesc runFireStatus

/-- FIRE_RESET (R74, R280). -/
def fireResetDesc : CmdDesc := { code := 0x0C01, roles := [.operate], fits := exact 4, kind := .change }

def runFireReset (c : Ctx) (b : List Byte) (s : State) : State :=
  let l := (List.range 16).filter fun f => (be16 b 0).testBit f
  let (s, mask, deferred) := s.resetFns l false
  s.reply c (if deferred then .acceptedDeferred else .ok) (toBe 2 mask ++ pad 2)

def execFireReset (p : Packet) (s : State) : Out := s.command p fireResetDesc runFireReset

/-- A staged write leaves no arm open (R289). -/
def State.disarm (s : State) : State := { s with fire := { s.fire with arm := none } }

/-- FIRE_LOAD (R74, R289): 192 words, multi-packet. -/
def fireLoadDesc : CmdDesc := { code := 0x0C02, roles := [.maintain], cls := 3, fits := exact 768, kind := .change }

/-- A word of the staged set passes the checks of R429 that concern it alone: no reserved bit, every field in its range (log 112). -/
def stagedOk (k : Nat) (w : Word) : Bool :=
  match specFireStaged (stagedKey k / 256) (stagedKey k % 256) with
  | some q => q.reservedClear w && q.inRange w
  | none => false

/-- Stages the set. A set with a word that breaks R14 or its range is refused whole (R429); how its words agree is for the arm to judge (R290). -/
def runFireLoad (c : Ctx) (b : List Byte) (s : State) : State :=
  let l := packWords 192 b
  if !l.zipIdx.all fun (e : Word × Nat) => stagedOk e.2 e.1 then s.refuse c .outOfRange
  else
  let s := s.each l.zipIdx fun s (e : Word × Nat) =>
    { s with mram := { s.mram.wrote (stagedKey e.2 / 256) with obj := s.mram.obj.set (objDefault (stagedKey e.2)) (stagedKey e.2) e.1 } }
  s.disarm.reply c .ok (wordBe s.stagedCrc)

def execFireLoad (p : Packet) (s : State) : Out := s.command p fireLoadDesc runFireLoad

/-- Reserved kinds, and fields that the KIND does not use, of an input slot (R290). -/
def inSlotSound (w0 w1 w2 : Word) : Bool :=
  let noRef := bits w0 25 16 == 0
  let noTime := bits w0 15 0 == 0
  match bits w0 31 28 with
  | 0 => bits w0 27 0 == 0 && w1 == 0 && w2 == 0
  | 1 => noTime && w1 == 0 && w2 == 0 && bits w0 25 16 < 48
  | 2 | 3 => noTime && !bit w0 26 && bits w0 25 16 < 32
  | 4 => !bit w0 26 && bits w1 31 8 == 0 && bits w2 30 26 == 0 && bits w2 15 0 == 0 && (bit w2 31 || bits w2 25 16 == 0)
  | 5 => !bit w0 26 && noRef && bits w1 29 29 == 0 && w2 == 0 && (bit w1 31 || bits w1 28 0 ≤ 0x7FF)
  | 6 => noTime && !bit w0 26 && w1 == 0 && w2 == 0 && bits w0 25 16 < 16
  | 7 => noTime && !bit w0 26 && !bit w0 27 && w1 == 0 && w2 == 0 && bits w0 25 16 < 48
  | _ => false

/-- The same of an output slot. -/
def outSlotSound (w0 w1 : Word) : Bool :=
  match bits w0 31 28 with
  | 0 => bits w0 27 0 == 0 && w1 == 0
  | 1 => bits w0 27 16 < 32 && bits w0 15 0 == 0 && w1 == 0
  | 2 => bits w0 27 16 < 32 && bits w0 15 0 == 0
  | 3 => bits w0 27 24 == 0 && w1 == 0
  | 4 => bits w0 27 17 == 0 && bits w1 30 29 == 0 && (bit w1 31 || bits w1 28 0 ≤ 0x7FF)
  | _ => false

/-- Bits set in a mask. -/
def popCount (w : Word) : Nat := (List.range 32).foldl (fun a i => a + b2n (bit w i)) 0

/-- A function of the staged set breaks no rule of R290. -/
def fnSound (g : Nat → Word) (f : Nat) : Bool :=
  let w0 := g (96 + 3 * f)
  let w1 := g (96 + 3 * f + 1)
  let n := popCount w1
  let kindOf := fun i => bits (g (3 * i)) 31 28
  let k := bits w0 23 20
  let reset := bits w0 15 8
  bits w0 26 24 == 0 && bits w0 19 16 == 0 && bits w0 7 0 == 0 && bits (g (96 + 3 * f + 2)) 31 24 == 0 &&
    (reset == 255 || (reset < 32 && kindOf reset == 7)) &&
    (match bits w0 30 29 with
      | 0 | 1 => !bit w0 31 || k == 0
      | 2 => !bit w0 31 || (1 ≤ k && k ≤ n)
      | _ => false) &&
    (!bit w0 31 || (1 ≤ n && n ≤ 8 && (List.range 32).all fun i => !bit w1 i || (kindOf i != 0 && kindOf i != 7))) &&
    (List.range 32).all fun i => !bit w1 i || kindOf i != 6 || bits (g (3 * i)) 25 16 == f

/-- The mode of a channel suits an analog input slot: neither OFF nor an output mode (R290). -/
def ucMayBeInput (mode : Nat) : Bool := mode != 0 && !ucOutput mode

/-- The slots of a set against the channels they name (R290, R191, R237). -/
def State.slotsSound (s : State) (g : Nat → Word) : Bool :=
  ((List.range 32).all fun i =>
    let r := bits (g (3 * i)) 25 16
    match bits (g (3 * i)) 31 28 with
    | 1 | 7 => s.diEnable r
    | 2 | 3 => ucMayBeInput (ucMode (s.ucCfg r))
    | _ => true) &&
  (List.range 24).all fun o =>
    let r := bits (g (144 + 2 * o)) 27 16
    match bits (g (144 + 2 * o)) 31 28 with
    | 1 => s.doEnable r
    | 2 => ucOutput (ucMode (s.ucCfg r))
    | _ => true

/-- No two output slots name the same channel (R290). -/
def outsDistinct (g : Nat → Word) : Bool :=
  (List.range 24).all fun o => (List.range o).all fun p =>
    let k := bits (g (144 + 2 * o)) 31 28
    !((k == 1 || k == 2) && bits (g (144 + 2 * p)) 31 28 == k && bits (g (144 + 2 * o)) 27 16 == bits (g (144 + 2 * p)) 27 16)

/-- The checks of R290 on a set of 192 words. -/
def State.fireSetSound (s : State) (g : Nat → Word) : Bool :=
  ((List.range 32).all fun i => inSlotSound (g (3 * i)) (g (3 * i + 1)) (g (3 * i + 2))) &&
    ((List.range 24).all fun o => outSlotSound (g (144 + 2 * o)) (g (144 + 2 * o + 1))) &&
    (List.range 16).all (fnSound g) && s.slotsSound g && outsDistinct g

/-- FIRE_ARM (R74, R289). -/
def fireArmDesc : CmdDesc := { code := 0x0C03, roles := [.maintain], fits := exact 4, kind := .change }

def runFireArm (c : Ctx) (b : List Byte) (s : State) : State :=
  if s.stagedCrc != beWord b 0 then s.refuse c .checksumMismatch
  else if !s.fireSetSound s.stagedWord then s.refuse c .configConflict
  else
    let token := Config.armToken s.freeCount
    ({ s.draw with fire := { s.fire with arm := some { token := token, crc := beWord b 0, origin := c.origin, keyslot := c.keyslot
                                                       at_ := s.now } } }).reply c .ok (toBe 2 token.toNat ++ pad 2)

def execFireArm (p : Packet) (s : State) : Out := s.command p fireArmDesc runFireArm

/-- The present states of the inputs that the set names go to FIRE (R216; DEDUCED, log 21). -/
def State.tellFire (s : State) : State :=
  s.each (List.range 48) fun s n => if s.diEnable n then s.diToFire n else s

/-- FIRE writes both MRAM copies of a confirmed set (R289). -/
def State.writeFire (s : State) (l : List Word) : State :=
  { s with mram := { s.mram with fire := l.zipIdx.foldl (fun t (e : Word × Nat) => t.set (fireDefault e.2) e.2 e.1) [], fireVoid := [] } }

/-- The confirmed set is in MRAM and waits for its boundary; the set before it stays in force. -/
def State.holdFire (s : State) (l : List Word) : State :=
  { s with fire := { s.fire with before := some (if s.mram.fireValid then s.fireSet else []) } }.writeFire l

/-- A confirmed set takes effect (R289): both copies written, slots unevaluated, and the outputs as the new set has them. -/
def State.takeFire (s : State) (l : List Word) : State :=
  let was := s.underTrip
  let s := { s with fire := { s.fire with slots := [], outs := [], inbox := [], resetLevel := [], before := none } }.writeFire l
  ((s.raise .fireConfigChanged s.configCrc).retakeOutputs was).tellFire

/-- A function of this module is tripped, latched or reset-pending; of a synchronised partner no message tells it, so that it is free (R289,
log 22). -/
def State.fireBusy (s : State) : Bool :=
  (List.range 16).any (fun f => (s.fireFn f).tripped || (s.fireFn f).latched || (s.fireFn f).resetPending) ||
    (s.forwards && Config.partnerTripped s.now)

/-- FIRE_ARM_EXPIRY (R289): 60 s after the arm. -/
def execFireArmExpiry (s : State) : Out :=
  match s.fire.arm with
  | some a => if a.at_ + 60000000000 ≤ s.now then .next s.disarm else .next s
  | none => .next s

/-- Apply for FIRE (R275): the program trip requests as applied. In STOP with nothing committed since the restart they stay
unevaluated. -/
def State.fireApply (s : State) : State :=
  let q := s.sqWord .done .Q 64
  s.toFire (.request (q.1.setWidth 16) (if q.2 then 0xFFFF else 0))

/-- FIRE over a commanded restart (R402): it goes on, with no arm and BAD_FRAMES at 0 (R16, R291). The program-request slots read
CONDITION = 0 and assured until an apply tells them anew (R275). -/
def State.requestsIdle (s : State) : Fire :=
  { s.fire with
    arm := none, badFrames := 0
    slots := s.fire.slots.filter fun (e : Nat × FireSlot) => s.inKind e.1 != 6
    inbox := s.fire.inbox.filter fun m => match m with | .request .. => false | _ => true }

end Sys2Proof.Machine
end

