-- ==== Sys2Proof/Machine/Domains.lean ====
section
/-! DEFINITION. Power domains and their gating (R18, R21, R22, R24): which domain each island is in, what needs it, and switching it on
and off. -/

namespace Sys2Proof.Machine

open Sys2Proof

/-- The power domain of an island (R18). -/
def islandDomain (n : Nat) : Nat :=
  match n with
  | 0 | 1 => 2
  | 2 | 3 => 3
  | 4 | 5 => 4
  | 6 => 5
  | 7 => 6
  | 8 => 7
  | 9 | 17 | 18 => 0
  | 10 | 11 => 8
  | 12 | 13 => 9
  | 14 => 10
  | 15 | 19 => 11
  | _ => 1

/-- The islands of a domain. -/
def domainIslands (d : Nat) : List Nat := (List.range 20).filter fun n => islandDomain n == d

/-- GATEABLE (R24). -/
def gateable (d : Nat) : Bool := d == 2 || d == 3 || d == 6 || d == 7 || d == 9 || d == 10 || d == 11

/-- The object words that wait in channels which shut down (R190), for a common boundary (R305) and for a commit (R337). -/
def State.waitingWords (s : State) : List (Nat × Word) :=
  ((List.range 32).flatMap fun n => (s.uc n).deferred.map fun (d : Nat × Word) => (okey (0x400 + n) d.1, d.2)) ++
    (s.pair.waitingChanges.filterMap fun (e : Change × BitVec 32) => match e.1 with
      | .object i k v => some (okey i k, v)
      | _ => none) ++
    s.totals.flatMap fun (e : Nat × Total) => e.2.close.flatMap fun q => q.config.map fun (d : Nat × Word) => (okey (0x700 + e.1) d.1, d.2)

/-- A word of the configuration in MRAM. -/
def State.putCfg (s : State) (key : Nat) (w : Word) : State :=
  { s with mram := { s.mram.wrote (key / 256) with obj := s.mram.obj.set (objDefault key) key w } }

/-- The state with every write that waits in place, a confirmed Fire Lane set included: what R22 and the configuration checks look
at. -/
def State.planned (s : State) : State :=
  let obj := (s.sup.objPending ++ s.waitingWords).foldl (fun (t : Tab Word) (e : Nat × Word) => t.set (objDefault e.1) e.1 e.2) s.mram.obj
  let ports := s.pair.waitingChanges.foldl (fun (t : Tab Bool) (e : Change × BitVec 32) => match e.1 with
    | .canEnable p on => t.set false p on
    | _ => t) s.mram.canEnable
  { s with mram := { s.mram with obj := obj, canEnable := ports }, fire := { s.fire with before := none } }

/-- A bank holds a complete image (R99). -/
def Bank.held (b : Bank) : Bool := b.state == .verified || b.state == .running

/-- Some bank, running or staged, assigns a block to one of these engines (R21). -/
def State.assigns (s : State) (l : List Nat) : Bool :=
  (List.range 2).any fun i => (s.bank i).held && (s.bank i).desc.blocks.any fun b => l.contains b.engine.val

/-- The domain is on and its islands are in RUN (R22). -/
def State.domainOn (s : State) (d : Nat) : Bool := (s.domain d).state == .on

/-- The Fire Lane configuration in force asks for a domain (R21): for the channels or the digital side that its slots name. -/
def State.fireAsks (s : State) (d : Nat) : Bool :=
  match d with
  | 6 => (List.range 32).any fun i => s.inKind i == 2 || s.inKind i == 3
  | 7 => (List.range 32).any (fun i => s.inKind i == 1 || s.inKind i == 7) || (List.range 24).any fun o => s.outKind o == 1
  | _ => false

/-- What R21 asks of a domain under one configuration. -/
def State.domainAsked (s : State) (d : Nat) : Bool :=
  match d with
  | 2 => (List.range 2).any fun i => (s.bank i).held
  | 3 => s.assigns [2, 3]
  | 6 => (List.range 32).any (fun n => ucMode (s.ucCfg n) != 0 || (s.uc n).state == .shuttingDown) || s.fireAsks 6
  | 7 => (List.range 48).any s.diEnable || (List.range 32).any s.doEnable || s.fireAsks 7
  | 9 => (List.range 2).any fun p => s.mram.canEnable.get false p || (s.can p).state != .disabled
  | 10 => s.pairMode
  | 11 => s.panelEnable || s.plateEnable || s.power.vbus
  | _ => true

/-- A domain is needed now or by a change that waits (R21, R22). -/
def State.domainNeeded (s : State) (d : Nat) : Bool := s.domainAsked d || s.planned.domainAsked d

/-- Puts the islands of a domain into a state; one that is FAULTED stays so (R20). -/
def State.setIslands (s : State) (d : Nat) (x : IslandState) : State :=
  s.each (domainIslands d) fun s n => s.modIsland n fun i => if i.state == .faulted then i else
    { i with state := x, left := if x == .off && (i.state == .run || i.state == .sleep) then some s.now else i.left }

/-- The arrays that stand in a domain (R338, R18). -/
def domainArrays (d : Nat) : List Nat :=
  match d with
  | 0 => [7]
  | 1 => [6]
  | 4 => [3]
  | 5 => [0, 1, 2]
  | 9 => [4, 5]
  | _ => []

/-- What is lost with the arrays of a domain that is switched off (R22): message RAM and frame buffers. The registers of a logic engine
are cleared at the next block start in any case (R106). The panel is dark, and a plate update stops where it stands. -/
def State.loseArrays (s : State) (d : Nat) : State :=
  let gone := domainArrays d
  let s := s.each gone fun s a => s.modArr a fun x => { x with sealed_ := false, commanded := false }
  let s := { s with locks := s.locks.filter fun k => !gone.contains k.array, upsets := s.upsets.filter fun u => !gone.contains u.array }
  match d with
  | 9 => s.each [0, 1] fun s p => s.modCan p fun c => { c with mailboxes := [], fifo := [], ramPoison := [], storing := [], past := [] }
  | 11 =>
    let s := match s.plate.reply with | some c => s.refuse c .wrongState | none => s
    { s with
      panel := { s.panel with state := .off, onPending := false, wantOn := false, dark := true, darkNext := false, shown := [], hidden := [] }
      plate := { s.plate with step := .idle, refresh := false, pending := false, reply := none } }
  | _ => s

/-- Switches a domain off. -/
def State.powerOff (s : State) (d : Nat) : State :=
  ((s.modDomain d fun x => { x with state := .off }).setIslands d .off).loseArrays d

/-- Switches one domain on or off as its need stands (R21, R24). After the final apply of a hold-up PD2 and PD3 stay off and every other domain stays on
(R423). -/
def State.judgeDomain (s : State) (d : Nat) : State :=
  let x := s.domain d
  let want := (s.domainNeeded d || x.holdOn) && !(s.square.finalDone && (d == 2 || d == 3))
  match x.state with
  | .off => if want then (s.modDomain d fun x => { x with state := .transition }).setIslands d .starting else s
  | .on => if want || s.square.finalDone then s else s.powerOff d
  | .transition | .fault => s

/-- The domains that the confirmed set needs are in RUN, so that it may take effect (R22). -/
def State.fireReady (s : State) : Bool := [6, 7].all fun d => !{ s with fire := { s.fire with before := none } }.fireAsks d || s.domainOn d

/-- Every gateable domain is switched as its need stands; none while the logic supply is being brought up or is lost. -/
def State.judgeDomains (s : State) : State :=
  if s.service == .off || s.service == .halted then s
  else s.each ((List.range 12).filter gateable) State.judgeDomain

/-- UC_SHUTDOWN_COMPLETE (R189, R190): deferred writes act in their order, the front end is switched, CHANNEL_MODE is answered. -/
def execUcShutdownComplete (ch : Fin 32) (s : State) : Out :=
  let u := s.uc ch
  if u.state != .shuttingDown then .next s
  else
    let s := s.each u.deferred fun s (d : Nat × Word) => s.putUcWord ch d.1 d.2
    let off := ucMode (s.ucCfg ch) == 0
    let s := s.ucUpdate ch { u.fresh with state := if off then .off else .starting, deferred := [], replyTo := []
                                          stale := true, valueAt := if off then none else u.valueAt }
    .next (s.each u.replyTo fun s c => s.ok c).judgeDomains

end Sys2Proof.Machine
end

