-- ==== Sys2Proof/Machine/CanConfig.lean ====
section
/-! DEFINITION. The configuration of the CAN ports (R240, R251, R254, R256, R261) and what follows from it: frame times (R258), the
frames of a station (R263), the windows of the schedule (R255 to R257). -/

namespace Sys2Proof.Machine

open Sys2Proof

/-! ## Fields -/

/-- Configuration word `k` of port `p`. -/
def State.canWord (s : State) (p k : Nat) : Word := s.cfg (0x500 + p) k

/-- FD, RX_MODE (list), ELEMENT, SCHEDULE, AUTO_RECOVER, rows and REF_ID. -/
def State.canFd (s : State) (p : Nat) : Bool := bit (s.canWord p 0) 30
def State.canList (s : State) (p : Nat) : Bool := bit (s.canWord p 0) 29
def State.canElement (s : State) (p : Nat) : Nat := bits (s.canWord p 0) 28 27
def State.canSchedule (s : State) (p : Nat) : Nat := bits (s.canWord p 0) 26 25
def State.canAuto (s : State) (p : Nat) : Bool := bit (s.canWord p 0) 23
def State.canRows (s : State) (p : Nat) : Nat := 2 ^ bits (s.canWord p 0) 22 20
def State.canRefId (s : State) (p : Nat) : Nat := bits (s.canWord p 0) 10 0
def State.canEnabled (s : State) (p : Nat) : Bool := s.mram.canEnable.get false p

/-- Cycle-linked (R255). -/
def State.canLinked (s : State) (p : Nat) : Bool := s.canSchedule p == 2

/-- Data bytes and words of a receive element (R249). -/
def elementBytes (e : Nat) : Nat := match e with | 0 => 8 | 1 => 24 | _ => 64
def elementWords (e : Nat) : Nat := 3 + elementBytes e / 4

/-- Mailboxes of a port (R247). -/
def mailboxCount (e : Nat) : Nat := if e = 2 then 427 else 512

/-- Word `w` of mailbox `m` and of filter element `e` (R251). -/
def State.mailboxWord (s : State) (p m w : Nat) : Word := s.cfg (0x520 + 8 * p + m / 64) (4 * (m % 64) + w)
def State.filterWord (s : State) (p e w : Nat) : Word := s.cfg (0x510 + 4 * p + e / 64) (4 * (e % 64) + w)

/-- Word `w` of transmit slot `t` (R254). -/
def State.slotWord (s : State) (p t w : Nat) : Word := s.cfg (0x570 + 4 * p + t / 128) (2 * (t % 128) + w)

/-- Word `w` of station `x` (R261). -/
def State.stWord (s : State) (p x w : Nat) : Word := s.cfg (0x560 + p) (4 * x + w)

/-- Column `c` and the cell of row `r`, column `c` (R256). -/
def State.columnWord (s : State) (p c : Nat) : Word := s.cfg (0x530 + p) c
def State.cellWord (s : State) (p r c : Nat) : Word := s.cfg (0x540 + 8 * p + r / 8) (32 * (r % 8) + c)

/-- START_US, BASE and LENGTH_US of a column. -/
def colStart (w : Word) : Nat := bits w 31 16
def colBase (w : Word) : Bool := bit w 15
def colLength (w : Word) : Nat := bits w 14 0

/-- KIND, CONTENT, RETRY, STATION, SLOT and frame number of a cell. -/
def cellKind (w : Word) : Nat := bits w 31 30
def cellContent (w : Word) : Nat := bits w 29 28
def cellRetry (w : Word) : Nat := bits w 27 24
def cellStation (w : Word) : Nat := bits w 13 9
def cellSlot (w : Word) : Nat := bits w 8 0
def cellFrame (w : Word) : Nat := bits w 2 0

/-! ## Bit and frame times (R241, R258) -/

/-- Nominal and data bit in periods of the 80 MHz clock. -/
def State.nomBit (s : State) (p : Nat) : Nat :=
  let w := s.canWord p 1
  (bits w 7 0 + 1) * (1 + (bits w 31 24 + 1) + (bits w 22 16 + 1))
def State.datBit (s : State) (p : Nat) : Nat :=
  let w := s.canWord p 2
  (bits w 7 0 + 1) * (1 + (bits w 28 24 + 1) + (bits w 19 16 + 1))

/-- FRAME_US of a frame with `n` data bytes (R258). -/
def State.frameUs (s : State) (p : Nat) (xtd fdf brs : Bool) (n : Nat) : Nat :=
  let t := s.nomBit p
  let periods :=
    if fdf then
      let d := 9 + 8 * n + (5 + 8 * n) / 4 + (if n ≤ 16 then 17 + 6 else 21 + 7)
      ((if xtd then 44 else 21) + 13) * t + d * (if brs then s.datBit p else t)
    else (47 + 8 * n + (33 + 8 * n) / 4 + (if xtd then 25 else 0)) * t
  (periods + 79) / 80

/-- FRAME_US of a given frame. -/
def State.frameUsOf (s : State) (p : Nat) (f : CanFrame) : Nat := s.frameUs p f.xtd f.fdf f.brs f.data.length

/-- FRAME_US of the reference frame: 8 bytes, FD with BRS when FD = 1 (R259). -/
def State.refUs (s : State) (p : Nat) : Nat := s.frameUs p false (s.canFd p) (s.canFd p) 8

/-! ## Stations (R261 to R263) -/

/-- Station `x` is configured: enabled on a cycle-linked port. -/
def State.stEnabled (s : State) (p x : Nat) : Bool := s.canLinked p && bit (s.stWord p x 0) 31

/-- Enabled stations of a port. -/
def State.stations (s : State) (p : Nat) : List Nat := (List.range 32).filter (s.stEnabled p)

/-- IN_BYTES, OUT_BYTES, IN_ID and OUT_ID. -/
def State.stIn (s : State) (p x : Nat) : Nat := bits (s.stWord p x 0) 15 8
def State.stOut (s : State) (p x : Nat) : Nat := bits (s.stWord p x 0) 7 0
def State.stInId (s : State) (p x : Nat) : Nat := bits (s.stWord p x 1) 28 0
def State.stOutId (s : State) (p x : Nat) : Nat := bits (s.stWord p x 2) 28 0
def State.stXtd (s : State) (p x : Nat) : Bool := bit (s.stWord p x 0) 28

/-- The columns of row `r` that hold a station's frames of a content (1 input, 2 output): column and frame number. -/
def State.stColumns (s : State) (p r x content : Nat) : List (Nat × Nat) :=
  (List.range 32).filterMap fun c =>
    let w := s.cellWord p r c
    if colLength (s.columnWord p c) ≠ 0 ∧ cellKind w = 1 ∧ cellContent w = content ∧ cellStation w = x then some (c, cellFrame w)
    else none

/-- Frames of a station: F_in for content 1, the output frames for content 2 (none with OUT_BYTES = 0). -/
def State.stFrames (s : State) (p x content : Nat) : Nat :=
  if content = 2 ∧ s.stOut p x = 0 then 0 else (s.stColumns p 0 x content).foldl (fun n e => max n (e.2 + 1)) 0

/-- Data words of a station's input or output image (R263). -/
def State.stWords (s : State) (p x content : Nat) : Nat :=
  let n := if content = 1 then s.stIn p x else s.stOut p x
  let f := s.stFrames p x content
  if f = 0 ∨ n < 4 then 0 else (n - 4) / 4 + (f - 1) * (n / 4)

/-- The first data word and the number of data words of frame `k` (R263). -/
def frameSpan (bytes k : Nat) : Nat × Nat := if k = 0 then (0, (bytes - 4) / 4) else ((bytes - 4) / 4 + (k - 1) * (bytes / 4), bytes / 4)

/-! ## Where words of area N stand (R252) -/

/-- Word 0 of a station's input image, of its output image, of the message RAM view and of a transmit slot. -/
def nIn (p x : Nat) : Nat := 256 * (32 * p + x)
def nOut (p x : Nat) : Nat := 32768 + 256 * (32 * p + x)
def nRam (p : Nat) : Nat := 16384 + 8192 * p
def nSlot (p t : Nat) : Nat := 49152 + 8192 * p + 16 * t

/-- A word of area N that a program or command may write: output data of a station, or a transmit slot (R252). -/
def State.nWritable (s : State) (w : Nat) : Bool :=
  if w < 32768 then false
  else if w < 49152 then
    let p := (w - 32768) / 8192
    let x := (w - 32768) / 256 % 32
    let k := w % 256
    s.stEnabled p x && 4 ≤ k && k < 4 + s.stWords p x 2
  else w < 65536

/-- The words of the message RAM view at which element `k` starts: a mailbox, or an entry of FIFO 0 (0 to 127) or FIFO 1 (128 to
255). -/
def elementAt (list : Bool) (e k : Nat) : Nat := if list then 832 + k * elementWords e else 64 + k * elementWords e

/-! ## Windows (R255 to R257) -/

/-- The instant a column's window of this basic cycle opens, from its reference instant. -/
def State.windowStart (s : State) (p c : Nat) : Option Nat :=
  let w := s.columnWord p c
  if colLength w = 0 then none
  else ((if colBase w then (s.can p).tOut else (s.can p).tIn).map fun t => t + colStart w * 1000)

/-- The instant it closes. -/
def State.windowEnd (s : State) (p c : Nat) : Option Nat := (s.windowStart p c).map fun t => t + colLength (s.columnWord p c) * 1000

/-- A window that keeps others off the bus: exclusive or arbitrating in the present row. -/
def State.keepsBus (s : State) (p c : Nat) : Bool :=
  let k := cellKind (s.cellWord p (s.can p).row c)
  k == 1 || k == 2

/-- A frame of `us` µs that starts now ends before the next exclusive or arbitrating window, and none is open (R257, R260). -/
def State.freeNow (s : State) (p us : Nat) : Bool :=
  (List.range 32).all fun c =>
    match s.windowStart p c, s.windowEnd p c with
    | some a, some b => !s.keepsBus p c || b ≤ s.now || s.now + us * 1000 ≤ a
    | _, _ => true

end Sys2Proof.Machine
end

