-- ==== Sys2Proof/Machine/Can.lean ====
section
/-! DEFINITION. The CAN ports at work (chapter 09): error states, reception and storage, the schedule, reference frames, remote stations
at freeze and commit, and the commands and events of the chapter. -/

namespace Sys2Proof.Machine

open Sys2Proof

/-! ## States (R240, R244) -/

/-- STATE in three bits (R240). A port that waits for bus integration reads as it did before it started (log 23). -/
def Can.code (c : Can) : Nat :=
  match c.state with
  | .disabled | .integrating => 0
  | .errorActive => 1
  | .errorPassive => 2
  | .busOff => 3
  | .recovering => 4
  | .shuttingDown => 5
  | .monitoring => 6

/-- The port status word (R240). -/
def Can.status (c : Can) : Word :=
  mkWord [(31, 29, c.code), (28, 28, b2n c.enablePending), (27, 19, c.tec), (18, 11, c.rec_), (10, 4, c.txDelay)]

/-- The port takes full part in the bus. -/
def Can.active (c : Can) : Bool := c.state == .errorActive || c.state == .errorPassive

/-- Island and domain of port `p` work (R33, R272). -/
def State.canRuns (s : State) (p : Nat) : Bool := s.runs (12 + p) && s.domainOn 9

/-- The CAN transmitters of port `p` are enabled (R294): with the module's claim, and from takeover cycle m on, whose IN_REF comes before that (R271; log
138). In the gap before cycle m nothing is sent. -/
def State.canDrives (s : State) (p : Nat) : Bool := !s.pairMode || s.pair.drivers || (s.pair.incoming.isSome && !(s.can p).gap)

/-- The port may start frames of its own. -/
def State.canSends (s : State) (p : Nat) : Bool := (s.can p).active && s.canRuns p && s.canDrives p

/-- A record of port `p` (Source 12 + p). -/
def State.raiseCan (s : State) (p : Nat) (k : RecKind) (v : Word) : State := s.raiseFrom (12 + p) k v

/-- VALUE of the station records. -/
def stationValue (p x : Nat) : Word := mkWord [(12, 8, x), (0, 0, p)]

/-! ## Frames given up, sets missed (R245, R257, R266) -/

/-- A frame is given up: TX_ABANDONED counts, source 274 + 4p fires and the record is written (R137, R257, R273, R245). -/
def State.abandonFrame (s : State) (p reason slot : Nat) : State :=
  ((s.modCan p fun c => { c with txAbandoned := c.txAbandoned + 1 }).fireSource (274 + 4 * p)).raiseCan p .txAbandoned
    (mkWord [(31, 24, reason), (16, 8, slot), (0, 0, p)])

/-- A window's frame is given up for a reason (R257, R267): a slot frame counts. -/
def State.giveUp (s : State) (p reason : Nat) (j : TxJob) : State :=
  match j with
  | .slot t _ _ _ => s.abandonFrame p reason t
  | _ => s

/-- The station entry and its change. -/
def State.station (s : State) (p x : Nat) : Station := (s.can p).stations.get {} x
def State.setStation (s : State) (p x : Nat) (y : Station) : State := s.modCan p fun c => { c with stations := c.stations.set {} x y }
def State.modStation (s : State) (p x : Nat) (f : Station → Station) : State := s.setStation p x (f (s.station p x))

/-- Every frame of the output set has been sent (R266). -/
def State.setSent (s : State) (p x : Nat) : Bool :=
  (List.range (s.stFrames p x 2)).all fun k => (s.station p x).sentOk.contains k

/-- Output sets that cannot be sent any more are missed at once (R266); MISSES follows at the freeze (R268). -/
def State.missDue (s : State) (p : Nat) : State :=
  s.each (s.stations p) fun s x =>
    if (s.station p x).due.isSome && !s.setSent p x then
      (s.modCan p fun c => { c with missed := c.missed + 1 }).modStation p x fun y =>
        { y with due := none, missedEarly := y.missedEarly + 1 }
    else s

/-- Schedule, reference frames and station outputs stop; the windows' frames that wait are given up for a reason (R244, R245, R273). -/
def State.stopSchedule (s : State) (p reason : Nat) : State :=
  let s := s.each (s.can p).winWait fun s (w : TxJob × CanFrame × Nat) => s.giveUp p reason w.1
  (s.modCan p fun c => { c with refWait := none, winWait := [] }).missDue p

/-- Queued CAN_SEND frames are discarded and counted (R245, R272); one that is on the bus is completed. -/
def State.dropQueue (s : State) (p : Nat) (keepHead : Bool) : State :=
  let c := s.can p
  let gone := if keepHead then c.queue.drop 1 else c.queue
  let s := s.each gone fun s _ => s.abandonFrame p 2 0
  s.modCan p fun c => { c with queue := if keepHead then c.queue.take 1 else [] }

/-! ## Error states (R244) -/

/-- The port enters BUS_OFF, and recovery starts where AUTO_RECOVER is set (R244, R245). -/
def State.enterBusOff (s : State) (p : Nat) : State :=
  let s := s.stopSchedule p 0
  let s := s.modCan p fun c => { c with state := if s.canAuto p then .recovering else .busOff, busOffs := satInc c.busOffs,
                                        tx := none }
  (s.fireSource (273 + 4 * p)).raiseCan p .canBusOff (mkWord [(0, 0, p)])

/-- Takes the state that TEC and REC give (R244). -/
def State.judgeCan (s : State) (p : Nat) : State :=
  let c := s.can p
  if !c.active then s
  else if 255 < c.tec then s.enterBusOff p
  else if 127 < c.tec || 127 < c.rec_ then
    if c.state == .errorPassive then s
    else
      let s := (s.setCan p { c with state := .errorPassive }).fireSource (272 + 4 * p)
      s.raiseCan p .canErrorPassive (mkWord [(23, 16, min c.tec 255), (15, 8, c.rec_), (0, 0, p)])
  else s.setCan p { c with state := .errorActive }

/-- REC after a reception without error (ISO 11898-1; R244). -/
def State.recGood (s : State) (p : Nat) : State :=
  let c := s.can p
  if !c.active || c.rec_ = 0 then s
  else if c.rec_ ≤ 127 then s.setCan p { c with rec_ := c.rec_ - 1 }
  else (s.setCan p { c with rec_ := 119 + (Config.recReset s.freeCount).val }).draw.judgeCan p

/-! ## Enabling and shutting down (R245, R269) -/

/-- The input image of a station that has just started, as full service begins on both pages: ABSENT and stale where it is configured
(R253, R269), no data. From then on only a freeze writes the image (R77). -/
def State.stationPage (s : State) (p x : Nat) : State :=
  s.each [0, kib 128] fun s page =>
    let a := sqNIn + page + 4 * nIn p x
    let q := s.square.clear a 1024
    if s.stEnabled p x then { s with square := (q.put a 0x60000000 false).put (a + 4) 0xFFFFFFFF false }
    else { s with square := q.put a 0xC0000000 false }

/-- A station's stored frames that no freeze will capture are lost (R250). -/
def State.loseArrived (s : State) (p x : Nat) : State :=
  let n := (s.station p x).arrived.length
  (s.modCan p fun c => { c with lost := c.lost + BitVec.ofNat 32 n }).modStation p x fun y => { y with arrived := [] }

/-- A station starts ABSENT (R269); an output set that was due is missed (R266), and its stored frames are lost (R250). -/
def State.stationStart (s : State) (p x : Nat) : State :=
  let due := (s.station p x).due.isSome
  ((s.loseArrived p x).modCan p fun c => { c with missed := if due then c.missed + 1 else c.missed }).setStation p x {}

/-- A port starts: counters, message RAM and stations anew; it waits for 11 recessive bits (R240, R245, R269). Frames that wait for
FIRE stay, and so does, before step 7 of the start-up, the stored poison of the seal (R351). -/
def State.canStart (s : State) (p : Nat) : State :=
  s.setCan p { state := .integrating, emergency := (s.can p).emergency, gap := (s.can p).gap
               ramPoison := if s.service == .full then [] else (s.can p).ramPoison }

/-- Ports that are enabled and stopped start once PD9 is in RUN: at a cycle boundary in full service, else at once (R22, R272). -/
def State.canJoin (s : State) : State :=
  if !s.domainOn 9 then s
  else s.each [0, 1] fun s p => if s.canEnabled p && (s.can p).state == .disabled then s.canStart p else s

/-- A shut-down starts (R245). -/
def State.canShutDown (s : State) (p : Nat) : State :=
  let onBus := match (s.can p).tx with | some (.queued, _) => true | _ => false
  let s := (s.modCan p fun c => { c with state := .shuttingDown, enablePending := false, disablePending := false }).dropQueue p onBus
  s.stopSchedule p 2

/-- Sets or clears ENABLE (R240). -/
def State.putCanEnable (s : State) (p : Nat) (b : Bool) : State :=
  { s with mram := { s.mram.wrote (0x500 + p) with canEnable := s.mram.canEnable.set false p b } }

/-- CAN_ENABLE for one port: the state after it and the status answered (R245, R52). While the port recovers, ENABLE = 0 waits for the end of that, and with
it ENABLE of the object; an enable after it waits too. Where PD9 is off the port starts at the boundary after
PD9 has reached RUN (R22). -/
def State.canEnable (s : State) (p : Nat) (on : Bool) : State × Status :=
  let c := s.can p
  if on then
    match c.state with
    | .disabled =>
      let s := s.putCanEnable p true
      (if s.domainOn 9 then s.canStart p else s.judgeDomains, .ok)
    | .shuttingDown | .recovering => (s.setCan p { c with enablePending := true }, .acceptedDeferred)
    | .errorActive | .errorPassive | .busOff | .monitoring | .integrating => (s, .ok)
  else
    match c.state with
    | .disabled => (s.putCanEnable p false, .ok)
    | .recovering => (s.setCan p { c with disablePending := true, enablePending := false }, .ok)
    | .shuttingDown => ((s.putCanEnable p false).setCan p { c with enablePending := false }, .ok)
    | .errorActive | .errorPassive | .busOff | .monitoring | .integrating => ((s.putCanEnable p false).canShutDown p, .ok)

/-- A disable that a recovery holds back takes effect without its end (R245). -/
def State.settleCan (s : State) (p : Nat) : State :=
  if (s.can p).disablePending && !(s.can p).enablePending then s.putCanEnable p false else s

/-- CAN_ENABLE (R69, R245): in a synchronised pair both modules take it at one boundary (R240, R305). -/
def canEnableDesc : CmdDesc := { code := 0x0600, roles := [.engineer], fits := exact 4, kind := .change }

def runCanEnable (c : Ctx) (b : List Byte) (s : State) : State :=
  let p := byteAt b 0
  if 1 < p then s.refuse c .badObject
  else if 1 < byteAt b 1 then s.refuse c .outOfRange
  else if s.forwards && s.causewayLost then s.replyBusy c true
  else
    let on := byteAt b 1 == 1
    let r := s.canEnable p on
    (if s.forwards then s.queueChange (.canEnable p on) else r.1).refuse c r.2

def execCanEnable (p : Packet) (s : State) : Out := s.command p canEnableDesc runCanEnable

/-- CAN_RECOVER (R69, R245). -/
def canRecoverDesc : CmdDesc := { code := 0x0601, roles := [.operate], fits := exact 4, kind := .change }

def runCanRecover (c : Ctx) (b : List Byte) (s : State) : State :=
  let p := byteAt b 0
  if 1 < p then s.refuse c .badObject
  else match (s.can p).state with
  | .busOff => (s.modCan p fun x => { x with state := .recovering }).ok c
  | .recovering => s.ok c
  | _ => s.refuse c .wrongState

def execCanRecover (p : Packet) (s : State) : Out := s.command p canRecoverDesc runCanRecover

/-- CAN_BUS_INTEGRATION (R245): 11 recessive bits seen. A standby's port monitors (R270). -/
def execCanBusIntegration (p : Fin 2) (s : State) : Out :=
  if (s.can p).state == .integrating && s.canRuns p then
    .next (s.modCan p fun c => { c with state := if s.standby then .monitoring else .errorActive, tec := 0, rec_ := 0 })
  else .next s

/-- CAN_RECOVERED (R244, R245): recovery completes; a disable given meanwhile takes effect, a pending enable simply clears. -/
def execCanRecovered (p : Fin 2) (s : State) : Out :=
  let c := s.can p
  if c.state == .recovering && s.canRuns p then
    let s := (s.setCan p { c with state := if s.standby then .monitoring else .errorActive, tec := 0, rec_ := 0,
                                  enablePending := false, disablePending := false }).raiseCan p .canRecovered (mkWord [(0, 0, p)])
    if c.disablePending then
      .next (((s.putCanEnable p false).canShutDown p).modCan p fun x => { x with enablePending := c.enablePending })
    else .next s
  else .next s

/-- CAN_SHUTDOWN_COMPLETE (R245): the frame on the bus is done; a deferred enable starts the port. -/
def execCanShutdownComplete (p : Fin 2) (s : State) : Out :=
  let c := s.can p
  if c.state == .shuttingDown && c.tx.isNone then
    if c.enablePending then .next (((s.putCanEnable p true).canStart p).judgeDomains)
    else .next (s.setCan p { c with state := .disabled }).judgeDomains
  else .next s

/-- The port of an island that restarts in place: off the bus, message RAM kept; a slot frame on the bus is given up, and stored station
frames that no freeze will take are lost (R272, R250). -/
def State.canIslandRestart (s : State) (p : Nat) : State :=
  if (s.can p).state == .disabled then s
  else
    let s := match (s.can p).tx with | some w => s.giveUp p 2 w.1 | none => s
    let s := ((s.dropQueue p false).stopSchedule p 2).each (s.stations p) fun s x => s.loseArrived p x
    s.modCan p fun c => { c with tx := none, tIn := none, tOut := none }

/-- It joins the bus again under R245; a shut-down that was under way is complete, and so is one that waited for the end of a recovery; a deferred enable then
starts the port. -/
def State.canIslandBack (s : State) (p : Nat) : State :=
  let c := s.can p
  match c.state with
  | .disabled => s
  | .shuttingDown => if c.enablePending then (s.putCanEnable p true).canStart p else s.setCan p { c with state := .disabled }
  | _ =>
    if c.disablePending then
      if c.enablePending then s.canStart p else (s.putCanEnable p false).setCan p { c with state := .disabled, disablePending := false }
    else s.setCan p { c with state := .integrating, enablePending := false }

/-! ## Starting a frame -/

/-- A frame starts on the bus; the ESI of an FD frame tells of an error-passive sender (ISO 11898-1, R238). -/
def State.startFrame (s : State) (p : Nat) (j : TxJob) (f : CanFrame) : State :=
  s.modCan p fun c => { c with tx := some (j, { f with sof := s.now, esi := f.fdf && c.state == .errorPassive }) }

/-- The reference frame of a kind (R259). -/
def State.refFrame (s : State) (p kind : Nat) : CanFrame :=
  let c := s.can p
  let side := if s.pairMode then (if s.mram.sideB then 2 else 1) else 0
  let n := match kind with | 1 => s.square.current.toNat | 2 => s.square.last.toNat | _ => c.basic.toNat
  { xtd := false, fdf := s.canFd p, brs := s.canFd p, esi := false, rtr := false, id := BitVec.ofNat 29 (s.canRefId p)
    data := toBe 1 kind ++ toBe 1 (c.basic.toNat % 64) ++ toBe 1 side ++ [0] ++ toBe 4 n, sof := s.now }

/-- Frames of stations that came before this IN_REF and that no freeze has taken are lost (R250): the set of a cycle is that of its own windows
(R265). On a standby the freeze of a token that waits may still take them (R270). -/
def State.newInputs (s : State) (p kind : Nat) : State :=
  if kind = 1 && s.pair.tokens == [] then s.each (s.stations p) fun s x => s.loseArrived p x else s

/-- A reference frame leaves, with a new basic cycle (R255, R259); it waits for a frame already on the bus. -/
def State.sendRef (s : State) (p kind : Nat) : State :=
  if (s.can p).tx.isSome then s.modCan p fun c => { c with refWait := some kind }
  else
    let f := s.refFrame p kind
    let rows := s.canRows p
    let s := s.modCan p fun c =>
      { c with refWait := none, refAttempts := 1, refFirstAt := s.now, row := c.basic.toNat % rows, basic := c.basic + 1
               served := if kind = 2 then c.served.filter (fun k => !colBase (s.columnWord p k))
                         else c.served.filter fun k => colBase (s.columnWord p k) && kind == 1
               tIn := if kind = 2 then c.tIn else none
               tOut := if kind = 2 then none else c.tOut
               inFailed := if kind = 2 then c.inFailed else false
               outFailed := if kind = 2 then false else c.outFailed }
    (s.newInputs p kind).startFrame p (.ref kind) f

/-- A window's frame starts if it can still end before its window does, at `z`; else it is given up (R257). -/
def State.startInWindow (s : State) (p : Nat) (j : TxJob) (f : CanFrame) (z : Nat) : State :=
  if s.now + s.frameUsOf p f * 1000 ≤ z then s.startFrame p j f else s.giveUp p 0 j

/-- Windows' frames in the order of their windows: the first that can still be sent starts, those before it are given up, those after it
wait for the next idle bus. -/
def State.serveWindows (s : State) (p : Nat) : List (TxJob × CanFrame × Nat) → State
  | [] => s.modCan p fun c => { c with winWait := [] }
  | w :: l =>
    let t := s.startInWindow p w.1 w.2.1 w.2.2
    if (t.can p).tx.isSome then t.modCan p fun c => { c with winWait := l } else t.serveWindows p l

/-- A window's frame: at once, or when the bus is idle, each judged by the end of its own window. -/
def State.offerFrame (s : State) (p : Nat) (j : TxJob) (f : CanFrame) (z : Nat) : State :=
  if (s.can p).tx.isSome then s.modCan p fun c => { c with winWait := c.winWait ++ [(j, f, z)] }
  else s.startInWindow p j f z

/-- The bus is idle again: a waiting reference frame goes first, then the waiting windows' frames. -/
def State.busIdle (s : State) (p : Nat) : State :=
  let c := s.can p
  if c.tx.isSome || !s.canSends p then s
  else match c.refWait with
  | some k => s.sendRef p k
  | none => s.serveWindows p c.winWait

/-- The bytes of words, cut to a length. -/
def cutBytes (n : Nat) (l : List Word) : List Byte := (wordsBe l).take n

/-- The data words of transmit slot `t` in the committed N. -/
def State.slotWords (s : State) (p t : Nat) : List Nat := (List.range ((bits (s.slotWord p t 1) 7 0 + 3) / 4)).map fun k => nSlot p t + k

/-- The byte addresses of committed words of N. -/
def State.nAddrs (s : State) (l : List Nat) : List Nat := l.filterMap (s.wordAddr .done .N)

/-- The frame of a window is built from the words at `at_`, in the window of a column that began at instant `from_`: the ones found uncorrectable come
with a mark, and while another one stands on a page under repair the frame waits within its window (R273, R343). -/
def State.frameGate (s : State) (p col from_ : Nat) (at_ : List Nat) : State × Option (List Nat) :=
  let held := match (s.can p).building with
    | some b => if b.1 = col && b.2.1 = from_ then b.2.2 else []
    | none => []
  let bad := held ++ s.badOf 2 at_
  let t := s.readWords 2 at_
  if at_.any fun w => t.locked 2 w && !bad.contains w then (t.modCan p fun c => { c with building := some (col, from_, bad) }, none)
  else (t.modCan p fun c => { c with building := none }, some bad)

/-- Word `w` of the committed N as a frame takes it that has found the words at `bad` uncorrectable. -/
def State.frameWord (s : State) (bad : List Nat) (w : Nat) : Word × Bool :=
  let r := s.sqWord .done .N w
  (r.1, r.2 || (s.nAddrs [w]).any bad.contains)

/-- The frame of transmit slot `t` with its data as committed, none when a word of it is poisoned (R254, R273). -/
def State.slotFrame (s : State) (p t : Nat) (bad : List Nat) : Option CanFrame :=
  let w := s.slotWord p t 0
  let n := bits (s.slotWord p t 1) 7 0
  let data := (s.slotWords p t).map (s.frameWord bad)
  if data.any (·.2) then none
  else some { xtd := bit w 31, fdf := bit w 30, brs := bit w 29, esi := false, rtr := false, id := BitVec.ofNat 29 (bits w 28 0)
              data := cutBytes n (data.map (·.1)), sof := s.now }

/-- The context whose sink is a word of the output half of N (R154, R156). -/
def State.loopOfWord (s : State) (w : Nat) : Option Nat := s.usedContexts.find? fun x => s.loopSink x == (2, w)

/-- The context whose output a frame takes in place of a word of N: it names the word and has sampled (R154, R179; log 107). -/
def State.loopDrives (s : State) (w : Nat) : Option Nat := (s.loopOfWord w).filter fun x => (s.loopCtx x).ran

/-- A word of a station's output image as a frame takes it: the latest output of a loop, else as committed. -/
def State.outputWord (s : State) (bad : List Nat) (w : Nat) : Word × Bool :=
  match s.loopDrives w with
  | some x => (ofI (s.loopCtx x).sink, false)
  | none => s.frameWord bad w

/-- The words of N that output frame `k` of station `x` reads. -/
def State.imageWords (s : State) (p x k : Nat) : List Nat :=
  let span := frameSpan (s.stOut p x) k
  ((List.range span.2).map fun j => nOut p x + 4 + span.1 + j).filter fun w => (s.loopDrives w).isNone

/-- The words of output frame `k` have gone out: they are the values last sent (R273). -/
def State.keepSent (s : State) (p x k : Nat) (f : CanFrame) : State :=
  let span := frameSpan (s.stOut p x) k
  let ws := packWords span.2 (if k = 0 then f.data.drop 4 else f.data)
  s.modStation p x fun y =>
    { y with lastSent := (List.range span.2).foldl (fun (t : Tab Word) j => t.set 0 (span.1 + j) (ws.getD j 0)) y.lastSent }

/-- Output frame `k` of station `x` as committed; in place of a poisoned word goes the value last sent (R263, R273). A classical station's
frame does not switch bit rate (R238). -/
def State.stationFrame (s : State) (p x k : Nat) (bad : List Nat) : State × CanFrame :=
  let span := frameSpan (s.stOut p x) k
  let y := s.station p x
  let read := (List.range span.2).map fun j => s.outputWord bad (nOut p x + 4 + span.1 + j)
  let marked := read.any (·.2)
  let words := (List.range span.2).map fun j =>
    let r := read.getD j (0, false)
    if r.2 then y.lastSent.get 0 (span.1 + j) else r.1
  let s := s.setStation p x { y with outPoison := y.outPoison || marked }
  let s := if marked && !y.outPoison then s.raiseCan p .rioOutputPoisoned (stationValue p x) else s
  let head := if k = 0 then toBe 1 (s.square.last.toNat % 256) ++ pad 3 else []
  let w := s.stWord p x 0
  (s, { xtd := bit w 28, fdf := bit w 30, brs := bit w 30 && bit w 29, esi := false, rtr := false, id := BitVec.ofNat 29 (s.stOutId p x + k)
        data := head ++ wordsBe words, sof := s.now })

/-! ## Windows and queued frames (R257, R260, R267) -/

/-- The windows of a row that are done with this one. -/
def State.serve (s : State) (p col : Nat) : State := s.modCan p fun c => { c with served := col :: c.served }

/-- CAN_WINDOW_START (R257): a schedule window opens. -/
def execCanWindowStart (p : Fin 2) (column : Fin 32) (s : State) : Out :=
  let c := s.can p
  match s.windowStart p column, s.windowEnd p column with
  | some a, some b =>
    if s.service != .full || !s.canSends p || s.canSchedule p = 0 || s.now < a || b ≤ s.now || c.served.contains column.val then .next s
    else
      let w := s.cellWord p c.row column
      match cellKind w, cellContent w with
      | 1, 0 | 2, 0 =>
        let t := cellSlot w
        match s.frameGate p column a (s.nAddrs (s.slotWords p t)) with
        | (s, none) => .next s
        | (s, some bad) =>
          let s := s.serve p column
          match s.slotFrame p t bad with
          | none => .next (s.abandonFrame p 1 t)
          | some f => .next (s.offerFrame p (.slot t (cellKind w == 2) (if cellKind w = 2 then cellRetry w else 0) b) f b)
      | 1, 2 =>
        let x := cellStation w
        if c.outFailed || (s.station p x).due.isNone then .next (s.serve p column)
        else match s.frameGate p column a (s.nAddrs (s.imageWords p x (cellFrame w))) with
        | (s, none) => .next s
        | (s, some bad) =>
          let r := (s.serve p column).stationFrame p x (cellFrame w) bad
          .next (r.1.offerFrame p (.station x (cellFrame w)) r.2 b)
      | _, _ => .next (s.serve p column)
  | _, _ => .next s

/-- CAN_QUEUED_FRAME_SEND (R257, R260, R272): the first emergency frame, else the first queued frame, goes in free time; without a
schedule, and in Side-Street mode, whenever the bus is idle. In Side-Street mode only emergency frames are sent. -/
def execCanQueuedFrameSend (p : Fin 2) (s : State) : Out :=
  let c := s.can p
  if !s.canSends p || c.tx.isSome || c.refWait.isSome || c.winWait != [] then .next s
  else
    let free := fun (f : CanFrame) => s.service != .full || s.canSchedule p = 0 || s.freeNow p (s.frameUsOf p f)
    match c.emergency, c.queue with
    | f :: _, _ => if free f then .next (s.startFrame p .emergency f) else .next s
    | [], f :: _ => if s.service == .full && free f then .next (s.startFrame p .queued f) else .next s
    | [], [] => .next s

/-- Data bytes of a DLC (ISO 11898-1). -/
def dlcBytes (d : Nat) : Nat :=
  match d with
  | 9 => 12
  | 10 => 16
  | 11 => 20
  | 12 => 24
  | 13 => 32
  | 14 => 48
  | 15 => 64
  | _ => d

/-- CAN_SEND (R69, R260). -/
def canSendDesc : CmdDesc :=
  { code := 0x0602, roles := [.operate], fits := fun b => 8 ≤ b.length && b.length ≤ 72, kind := .change }

/-- Queues a frame, 32 at most. A format that no frame of the port has is out of range; a port that is off the bus takes none. -/
def runCanSend (c : Ctx) (b : List Byte) (s : State) : State :=
  let p := byteAt b 0
  let fm := byteAt b 1
  let fd := fm % 2 == 1
  let brs := fm / 2 % 2 == 1
  let xtd := fm / 4 % 2 == 1
  let dlc := byteAt b 2
  let id := be32 b 4
  if 1 < p then s.refuse c .badObject
  else if 7 < fm || 15 < dlc || (!fd && 8 < dlc) || (brs && !fd) || (fd && !s.canFd p) || (if xtd then 2 ^ 29 ≤ id else 2 ^ 11 ≤ id) then
    s.refuse c .outOfRange
  else if b.length != 8 + dlcBytes dlc then s.refuse c .badLength
  else if (s.can p).state == .disabled || (s.can p).state == .shuttingDown then s.refuse c .wrongState
  else if 32 ≤ (s.can p).queue.length then s.replyBusy c true
  else (s.modCan p fun x => { x with queue := x.queue ++
    [{ xtd := xtd, fdf := fd, brs := brs, esi := false, rtr := false, id := BitVec.ofNat 29 id, data := b.drop 8, sof := 0 }] }).ok c

def execCanSend (p : Packet) (s : State) : Out := s.command p canSendDesc runCanSend

/-- CAN_COUNTERS (R69, R240). -/
def canCountersDesc : CmdDesc := { code := 0x0603, roles := [.observe], fits := exact 4, kind := .local_ }

def runCanCounters (c : Ctx) (b : List Byte) (s : State) : State :=
  if 1 < byteAt b 0 then s.refuse c .badObject
  else
    let x := s.can (byteAt b 0)
    s.reply c .ok (toBe 1 (min 255 x.tec) ++ toBe 1 x.rec_ ++ toBe 1 x.code ++ pad 1 ++ wordsBe [x.lost, x.rxFiltered, x.txAbandoned,
      x.missed])

def execCanCounters (p : Packet) (s : State) : Out := s.command p canCountersDesc runCanCounters

/-- STATION_STATUS (R69, R253): the status block of the committed snapshot. -/
def stationStatusDesc : CmdDesc := { code := 0x0604, roles := [.observe], fits := exact 4, kind := .data }

def stationStatusFrom (marks : List Nat) (c : Ctx) (b : List Byte) (s : State) : State :=
  let p := byteAt b 0
  let x := byteAt b 1
  if 1 < p || 31 < x then s.refuse c .badObject
  else
    s.gateWords c b [(.N, nIn p x), (.N, nIn p x + 1)] marks fun l t =>
      let w := l.getD 0 (0, false)
      t.replyData c [] [(mkWord [(31, 24, bits w.1 31 30), (23, 16, bits w.1 23 16)], w.2), l.getD 1 (0, false)]

def runStationStatus : Ctx → List Byte → State → State := stationStatusFrom []

def execStationStatus (p : Packet) (s : State) : Out := s.command p stationStatusDesc runStationStatus

/-! ## The end of a frame (R243, R244, R257, R259) -/

/-- A reference instant is known: that of the attempt that succeeded, or of the first when all three failed (R259). -/
def State.refDone (s : State) (p kind : Nat) (ok : Bool) (t : Nat) : State :=
  let s := s.modCan p fun c =>
    if kind = 2 then { c with tOut := some t, outFailed := !ok } else { c with tIn := some t, inFailed := !ok && kind == 1 }
  if ok then s
  else
    let s := (s.modCan p fun c => { c with refFailed := satInc c.refFailed }).raiseCan p .refFailed (mkWord [(15, 8, kind), (0, 0, p)])
    if kind = 2 then s.missDue p else s

/-- The output slot of FIRE that the emergency frame serves has its frame sent (R278, R282). -/
def State.emergencySent (s : State) (p : Nat) (f : CanFrame) : State :=
  s.each ((List.range 24).filter fun o => s.outKind o == 4 && s.outRef o % 2 == p && bits (s.outWord o 1) 28 0 == f.id.toNat &&
    bit (s.outWord o 1) 31 == f.xtd && (f.data.headD 0 == 1) == s.outTripped o) fun s o => s.modFireOut o fun x => { x with complete := true }

/-- What the end of a frame means for what it carried. It is tried again only while the transmitters are enabled (R294). -/
def State.jobDone (s : State) (p : Nat) (j : TxJob) (f : CanFrame) (ok : Bool) (t : Nat) : State :=
  let c := s.can p
  match j with
  | .ref k =>
    if ok then s.refDone p k true t
    else if c.refAttempts < 3 && s.canSends p then
      (s.setCan p { c with refAttempts := c.refAttempts + 1, refFirstAt := if c.refAttempts = 1 then t else c.refFirstAt }).startFrame p j f
    else s.refDone p k false (if c.refAttempts ≤ 1 then t else c.refFirstAt)
  | .slot n arb r z =>
    if ok then s
    else if arb && 0 < r && s.canSends p && s.now + s.frameUsOf p f * 1000 ≤ z then s.startFrame p (.slot n arb (r - 1) z) f
    else s.giveUp p (if c.state == .shuttingDown then 2 else 0) j
  | .station x k => if ok then (s.modStation p x fun y => { y with sentOk := k :: y.sentOk }).keepSent p x k f else s
  | .queued =>
    if ok then s.setCan p { c with queue := c.queue.drop 1 }
    else if c.state == .shuttingDown then s.dropQueue p false
    else s
  | .emergency => if ok then (s.setCan p { c with emergency := c.emergency.drop 1 }).emergencySent p f else s

/-- From the start of a nominal bit to its sample point, in ns (R241). -/
def State.samplePoint (s : State) (p : Nat) : Nat := (bits (s.canWord p 1) 31 24 + 2) * (bits (s.canWord p 1) 7 0 + 1) * 25 / 2

/-- CAN_RX_ERROR (R244): a monitoring port keeps its counters (R270). Each run of dominant bits after a flag adds 8 to TEC where the port is the
transmitter of the frame on the bus, else to REC (ISO 11898-1). A frame on the bus ends with the port's bus-off (R257, R259). -/
def State.recBad (s : State) (p : Nat) (k : CanRxError) : State :=
  let c := s.can p
  if !c.active then s
  else
    let s := (s.setCan p (match k, c.tx with
      | .plain, _ => { c with rec_ := min 255 (c.rec_ + 1) }
      | .dominantAfterFlag, none => { c with rec_ := min 255 (c.rec_ + 8) }
      | .dominantAfterFlag, some _ => { c with tec := min 511 (c.tec + 8), tecRose := true })).judgeCan p
    match c.tx with
    | some (j, f) => if (s.can p).active then s else s.jobDone p j f false (f.sof + s.samplePoint p)
    | none => s

def execCanRxError (p : Fin 2) (k : CanRxError) (s : State) : Out := if s.canRuns p then .next (s.recBad p k) else .next s

/-- CAN_TX_COMPLETE (R257): the frame on the bus ends. `t` is the sample point of its start-of-frame bit; `txDelay` is what the FDF edge measured,
0 where the frame ended before its data phase (R243). -/
def execCanTxComplete (p : Fin 2) (r : CanTxResult) (t txDelay : Nat) (s : State) : Out :=
  let c := s.can p
  match c.tx with
  | none => .next s
  | some (j, f) =>
    if !s.canRuns p then .next s
    else
      let ok := r == .ok
      let c := { c with tx := none, txDelay := if f.brs && txDelay != 0 then min 127 txDelay else c.txDelay }
      let c := match r with
        | .ok => { c with txFrames := c.txFrames + 1, tec := c.tec - 1, sent := some f, txOk := true }
        | .error => { c with tec := min 511 (c.tec + 8), tecRose := true }
        | .lost => c
      .next (((s.setCan p c).judgeCan p).jobDone p j f ok t |>.busIdle p)

/-- BASIC_CYCLE_START (R255): a periodic port sends REF every BASIC_US; none in the gap of a takeover (R271). -/
def execBasicCycleStart (p : Fin 2) (s : State) : Out :=
  let c := s.can p
  let busy := c.refWait.isSome || (match c.tx with | some (.ref _, _) => true | _ => false)
  let due := match c.tIn with | some t => decide (t + (s.canWord p 15).toNat * 1000 ≤ s.now) | none => true
  if s.service == .full && s.canSchedule p = 1 && s.canSends p && !c.gap && !busy && due then .next (s.sendRef p 3) else .next s

/-! ## Reception (R246 to R250) -/

/-- A receive element from a frame (R249). -/
def elementOf (f : CanFrame) (cap : Nat) (mailbox : Bool) (e : CanElement) : List Word :=
  [mkWord [(31, 31, b2n f.xtd), (30, 30, b2n f.fdf), (29, 29, b2n f.brs), (28, 0, f.id.toNat)],
   mkWord [(31, 24, f.data.length), (23, 23, b2n f.esi), (22, 22, b2n (mailbox && e.lost)), (21, 21, b2n (cap < f.data.length)),
           (15, 0, e.match_)], BitVec.ofNat 32 f.sof] ++ packWords (cap / 4) (f.data.take cap)

/-- A filtered frame. -/
def State.filterFrame (s : State) (p : Nat) : State := s.modCan p fun c => { c with rxFiltered := c.rxFiltered + 1 }

/-- A stored frame: its event where EVENT_EN is set (R250). -/
def State.storedFrame (s : State) (p : Nat) (cfg : Word) : State :=
  let s := s.modCan p fun c => { c with rxStored := c.rxStored + 1 }
  if bit cfg 31 then s.fireSource (256 + 8 * p + bits cfg 30 28) else s

/-- Message RAM as it stands before a store. -/
def Can.ram (c : Can) (t : Nat) (inFifo : Bool) (element match_ : Nat) (f : CanFrame) : CanSeen :=
  { until_ := t, mailboxes := c.mailboxes, fifo := c.fifo, put0 := c.put0, put1 := c.put1, lost := c.lost, lost0 := c.lost0, lost1 := c.lost1
    ramPoison := c.ramPoison, inFifo := inFifo, element := element, match_ := match_, frame := f }

/-- The store lost what stood in its element (R250). -/
def CanSeen.lossy (x : CanSeen) : Bool := if x.inFifo then (x.fifo.get {} x.element).fresh else (x.mailboxes.get {} x.element).fresh

/-- Message RAM as it stood before the stores of a list, the earliest first: LOST without what they have lost, and every mark that stood then or has come
since. -/
def Can.withRam (c : Can) (l : List CanSeen) : Can :=
  match l with
  | [] => c
  | x :: _ =>
    { c with mailboxes := x.mailboxes, fifo := x.fifo, put0 := x.put0, put1 := x.put1, lost0 := x.lost0, lost1 := x.lost1
             lost := c.lost - BitVec.ofNat 32 (l.filter CanSeen.lossy).length
             ramPoison := c.ramPoison.foldl (fun (t : Tab Bool) e => t.set false e.1 e.2) x.ramPoison }

/-- A frame takes mailbox `m`, or element `m` of the FIFOs, 128 of each (R247, R248): one that no freeze has captured is lost (R250). The marks of the
words of the element go with the write (R345). `size` are the words of an element, `at_` is its first one. -/
def Can.store (c : Can) (inFifo : Bool) (m match_ : Nat) (f : CanFrame) (at_ size : Nat) : Can :=
  let c := { c with ramPoison := c.ramPoison.clearRange at_ size }
  if inFifo then
    let one := decide (128 ≤ m)
    let gone := (c.fifo.get ({} : CanElement) m).fresh
    let c := { c with fifo := c.fifo.set {} m { used := true, frame := f, match_ := match_, fresh := true } }
    let c := if gone then { c with lost := c.lost + 1, lost0 := if one then c.lost0 else c.lost0 + 1, lost1 := if one then c.lost1 + 1 else c.lost1 } else c
    if one then { c with put1 := c.put1 + 1 } else { c with put0 := c.put0 + 1 }
  else
    let e := c.mailboxes.get ({} : CanElement) m
    { c with lost := if e.fresh then c.lost + 1 else c.lost
             mailboxes := c.mailboxes.set {} m
               { used := true, frame := f, lost := e.lost || e.fresh, match_ := (e.match_ + 1) % 65536, fresh := true } }

/-- A received frame goes into an element of message RAM. While a page that the element touches is under repair, and after a frame that waits so, it
waits in its turn (R343); an old byte that cannot be corrected starts the repair (R340). A frame that waits counts as stored (R250). -/
def State.ramStore (s : State) (p : Nat) (inFifo : Bool) (m match_ : Nat) (f : CanFrame) (cfg : Word) : State :=
  let at_ := elementAt inFifo (s.canElement p) m
  let size := elementWords (s.canElement p)
  let later := fun (s : State) => s.modCan p fun c => { c with rxStored := c.rxStored + 1, storing := c.storing ++ [f] }
  if (s.can p).storing != [] then later s
  else match s.writeWaits (4 + p) (4 * at_) (4 * size) with
  | some t => later t
  | none =>
    let s := s.overwrite (4 + p) (4 * at_) (4 * size)
    (s.modCan p fun c =>
      { c.store inFifo m match_ f at_ size with past := if s.looksBack then c.ram s.now inFifo m match_ f :: c.past else [] }).storedFrame p cfg

/-- Mailbox mode (R247). -/
def State.mailboxStore (s : State) (p : Nat) (f : CanFrame) : State :=
  let hit := (List.range (mailboxCount (s.canElement p))).find? fun m =>
    let w := s.mailboxWord p m 0
    bit w 31 && bit w 30 == f.xtd && bits w 28 0 == f.id.toNat
  match hit with
  | none => s.filterFrame p
  | some m => s.ramStore p false m 0 f (s.mailboxWord p m 1)

/-- A filter element matches a frame (R248). -/
def State.filterMatch (s : State) (p : Nat) (f : CanFrame) (e : Nat) : Bool :=
  let w := s.filterWord p e 0
  let v := s.filterWord p e 1
  let base := bits w 28 0
  let arg := bits v 28 0
  let id := f.id.toNat
  let mode := bits v 31 30
  let top := if f.xtd then 2 ^ 29 - 1 else 2 ^ 11 - 1
  (mode == 2 || (mode == 1) == f.xtd) &&
    (match bits w 31 30 with
     | 1 => base ≤ id && id ≤ min (base + arg) top
     | 2 => id == base || id == arg
     | 3 => Nat.land (Nat.xor id base) arg == 0
     | _ => false)

/-- List mode: the first matching element decides (R246, R248). -/
def State.listStore (s : State) (p : Nat) (f : CanFrame) : State :=
  match (List.range 256).find? (s.filterMatch p f) with
  | none => s.filterFrame p
  | some e =>
    let w := s.filterWord p e 2
    let one := bits w 27 26 == 1
    if bits w 27 26 = 2 then s.filterFrame p
    else
      let n := if one then (s.can p).put1 else (s.can p).put0
      s.ramStore p true (n.toNat % 128 + (if one then 128 else 0)) e f w

/-- A frame for message RAM (R246 orders 5 and 6). -/
def State.storeFrame (s : State) (p : Nat) (f : CanFrame) : State := if s.canList p then s.listStore p f else s.mailboxStore p f

/-- The frames that waited for a page of message RAM are stored, in their order (R343). -/
def State.storeWaiting (s : State) (p : Nat) : State :=
  match (s.can p).storing with
  | [] => s
  | l => (s.modCan p fun c => { c with rxStored := c.rxStored - BitVec.ofNat 32 l.length, storing := [] }).each l fun s f => s.storeFrame p f

/-- The station and input frame that an identifier names (R246 order 2). -/
def State.inputOf (s : State) (p : Nat) (f : CanFrame) (content : Nat) : Option (Nat × Nat) :=
  (s.stations p).findSome? fun x =>
    let base := if content = 1 then s.stInId p x else s.stOutId p x
    if s.stXtd p x == f.xtd && base ≤ f.id.toNat && f.id.toNat < base + s.stFrames p x content then some (x, f.id.toNat - base) else none

/-- A station's input frame: kept when its start of frame lies in its window, else late (R246 order 2). One that it replaces is lost (R250), on a standby when
its freeze has not taken it (R81, R270). A remote frame is none (R238). -/
def State.stationInput (s : State) (p x k : Nat) (f : CanFrame) : State :=
  let inWindow := match (s.stColumns p 0 x 1).find? (·.2 == k) with
    | some c =>
      (match s.windowStart p c.1, s.windowEnd p c.1 with
       | some a, some b => decide (a ≤ f.sof ∧ f.sof < b)
       | _, _ => false)
    | none => false
  if f.rtr then s.filterFrame p
  else if inWindow then
    let again := !s.looksBack && (s.station p x).arrived.any fun e => e.1 == k
    (s.modCan p fun c => { c with rxStored := c.rxStored + 1, lost := if again then c.lost + 1 else c.lost }).modStation p x fun y =>
      { y with arrived := (k, f.data, s.now) :: if s.looksBack then y.arrived else y.arrived.filter fun e => e.1 != k }
  else (s.filterFrame p).modCan p fun c => { c with lateFrames := c.lateFrames + 1 }

/-- What a standby observes of the active's reference frames (R270): the instants are sample points of the start-of-frame bit (R259). -/
def State.observeRef (s : State) (p : Nat) (f : CanFrame) : State :=
  let row := byteAt f.data 1 % s.canRows p
  let t := some (f.sof + s.samplePoint p)
  match byteAt f.data 0 with
  | 1 => (s.newInputs p 1).modCan p fun c => { c with tIn := t, inFailed := false, row := row }
  | 2 => s.modCan p fun c => { c with tOut := t, outFailed := false, row := row }
  | _ => s.modCan p fun c => { c with tIn := t, row := row }

/-- The disposition of a received frame, steps 2 to 6 (R246). What a standby observes of the active's output frames are the values last sent (R270, R273). A remote frame is no reference and no output frame (R259). -/
def State.dispose (s : State) (p : Nat) (f : CanFrame) : State :=
  let mon := (s.can p).state == .monitoring
  match s.inputOf p f 1, s.inputOf p f 2 with
  | some (x, k), _ => s.stationInput p x k f
  | none, some (x, k) =>
    if f.rtr then s.filterFrame p
    else if mon then ((s.modStation p x fun y => { y with sentOk := k :: y.sentOk }).keepSent p x k f).filterFrame p
    else s.storeFrame p f
  | none, none =>
    if f.rtr then s.filterFrame p
    else if mon && !f.xtd && f.id.toNat == s.canRefId p && s.canSchedule p != 0 then (s.observeRef p f).filterFrame p
    else s.storeFrame p f

/-- CAN_FRAME_RECEIVED (R238, R246): a frame received without error. For a classical node a frame with FDF is a form error. A matching frame
without data carries FIRE no byte 0 that it knows (log 109). -/
def execCanFrameReceived (p : Fin 2) (f : CanFrame) (s : State) : Out :=
  let c := s.can p
  if !s.canRuns p || !(c.active || c.state == .monitoring) then .next s
  else if f.fdf && !s.canFd p then .next (s.recBad p .plain)
  else
    let s := (s.modCan p fun c => { c with rxFrames := c.rxFrames + 1 }).recGood p
    let named := (List.range 32).any fun i =>
      let w := s.inWord i 1
      s.inKind i == 5 && bit w 31 == f.xtd && bits w 30 30 == p && bits w 28 0 == f.id.toNat
    let s := if named then s.toFire (.can p f.xtd f.id (match f.data with | [] => 256 | b :: _ => b.toNat)) else s
    .next (s.dispose p f)

/-! ## Cycle start, freeze and commit (R252, R253, R265, R266, R268, R269) -/

/-- IN_REF on every cycle-linked port at cycle start (R265). -/
def State.canCycleStart (s : State) : State :=
  s.each [0, 1] fun s p => if s.canLinked p && s.canSends p then s.sendRef p 1 else s

/-- The windows of a content on port `p` are over: no reference frame of the kind waits or is on the bus, and every window that its
instant opened has ended. Without an instant no window opened. A standby goes by the references it observes. -/
def State.canWindowsDone (s : State) (p kind : Nat) : Bool :=
  let c := s.can p
  let waits := c.refWait == some kind || (match c.tx with | some (.ref k, _) => k == kind | _ => false)
  !s.canLinked p || !s.canRuns p || !(c.active || c.state == .monitoring) ||
    (!waits && (s.stations p).all fun x => (s.stColumns p 0 x kind).all fun e =>
      match s.windowEnd p e.1 with | some t => decide (t ≤ s.now) | none => true)

/-- The last input window of the cycle has ended on both buses (R83, R265). -/
def State.canInputsDone (s : State) : Bool := [0, 1].all fun p => s.canWindowsDone p 1

/-- The last output window has ended on both buses (R265). After a failed OUT_REF nothing is sent. -/
def State.canOutputsDone (s : State) : Bool := [0, 1].all fun p => (s.can p).outFailed || s.canWindowsDone p 2

/-- Remote I/O is configured: the freeze waits 2 µs after the cycle start (R83). -/
def State.remoteCycle (s : State) : Bool := [0, 1].any fun p => s.canEnabled p && s.stations p != []

/-- OUT_REF and the output sets that fall due at the commit of cycle `c` (R265, R266). -/
def State.canCommit (s : State) (cy : BitVec 32) : State :=
  s.each ([0, 1].filter s.canLinked) fun s p =>
    let s := s.each (s.stations p) fun s x =>
      let y := s.station p x
      let y := { y with outPoison := false }
      s.setStation p x (if y.state != 1 && s.stFrames p x 2 != 0 then { y with due := some cy } else y)
    if s.canSends p then s.sendRef p 2
    else if (s.can p).state == .monitoring then s
    else s.missDue p

/-- The data words of a station's complete input (R263). -/
def State.stationWords (s : State) (p x : Nat) (y : Station) : Tab Word :=
  (List.range (s.stFrames p x 1)).foldl (fun (t : Tab Word) k =>
    let span := frameSpan (s.stIn p x) k
    let b := ((y.arrived.find? (·.1 == k)).map (·.2.1)).getD []
    let ws := packWords span.2 (if k = 0 then b.drop 4 else b)
    (List.range span.2).foldl (fun (t : Tab Word) j => t.set 0 (span.1 + j) (ws.getD j 0)) t) []

/-- One station at a freeze (R265, R266, R268): the output set that was due is confirmed or missed, the input words are taken when
every frame has arrived, and STATE, STALE and MISSES change. ECHO and STATION_WORD are those of the last input frame 0 that was not
excluded by a failed IN_REF (R253); frames of an incomplete set are lost (R250). Frames that ended after instant `t` are for the next freeze, those of a
standby being taken as the active's freeze found them (R81, R270). -/
def State.stationFreeze (s : State) (p x t : Nat) : State :=
  let c := s.can p
  let late := (s.station p x).arrived.filter fun e => decide (t < e.2.2)
  let y : Station := { s.station p x with arrived := (s.station p x).arrived.filter fun e => decide (e.2.2 ≤ t) }
  let n := s.stFrames p x 1
  let full := !c.inFailed && n != 0 && (List.range n).all fun k => y.arrived.any (·.1 == k)
  let first := y.arrived.find? (·.1 == 0)
  let head := (first.map (·.2.1)).getD []
  let good : Bool := match y.due with
    | some d => full && s.setSent p x && byteAt head 0 == d.toNat % 256
    | none => false
  let miss := y.due.isSome && !good
  let s := s.modCan p fun c => { c with confirmed := if good then c.confirmed + 1 else c.confirmed,
                                        missed := if miss then c.missed + 1 else c.missed,
                                        lost := c.lost + BitVec.ofNat 32 (y.arrived.length - if full then n else 0) }
  let misses := if good then 0 else BitVec.ofNat 8 (satNat 8 (y.misses.toNat + y.missedEarly + b2n miss))
  let y := if full then { y with words := s.stationWords p x y, stale := false, inFrames := n, sampledAt := c.tIn }
           else { y with stale := true, inFrames := 0 }
  let y := if first.isSome && !c.inFailed then { y with echo := BitVec.ofNat 8 (byteAt head 0), word := BitVec.ofNat 24 (be32 head 0) } else y
  let y := { y with arrived := late, due := none, sentOk := [], missedEarly := 0 }
  if y.state = 1 then
    if full then ((s.setStation p x { y with state := 2, misses := 0 }).fireSource (275 + 4 * p)).raiseCan p .stationRejoin
      (stationValue p x)
    else s.setStation p x y
  else if 3 ≤ misses.toNat then
    ((s.setStation p x { y with state := 1, misses := misses }).fireSource (275 + 4 * p)).raiseCan p .stationAbsent (stationValue p x)
  else s.setStation p x { y with state := 0, misses := misses }

/-- INPUT_AGE_US at time `t` (R253). -/
def Station.age (y : Station) (t : Nat) : Word :=
  match y.sampledAt with
  | some a => BitVec.ofNat 32 (satNat 32 ((t - a) / 1000))
  | none => 0xFFFFFFFF

/-- Writes a station's input image into the page of this freeze (R252, R253); words that it has no frame for read 0. -/
def State.stationImage (s : State) (p x t : Nat) : State :=
  let y := s.station p x
  let c := s.can p
  let s := match s.wordAddr .work .N (nIn p x) with
    | some a => { s with square := s.square.clear a 1024 }
    | none => s
  if !s.stEnabled p x then s.putWork .N (nIn p x) 0xC0000000 false
  else
  let w0 := mkWord [(31, 30, y.state.toNat), (29, 29, b2n y.stale), (28, 28, b2n y.outPoison), (27, 27, b2n c.inFailed),
                    (23, 16, y.misses.toNat), (15, 8, y.inFrames)]
  let w2 := mkWord [(31, 24, y.echo.toNat), (23, 0, y.word.toNat)]
  let s := ((s.putWork .N (nIn p x) w0 false).putWork .N (nIn p x + 1) (y.age t) false).putWork .N (nIn p x + 2) w2 false
  s.each (List.range (s.stWords p x 1)) fun s j => s.putWork .N (nIn p x + 4 + j) (y.words.get 0 j) false

/-- Writes words of the message RAM view (R252). -/
def State.putRam (s : State) (p at_ : Nat) (l : List Word) : State :=
  s.each (List.range l.length) fun s k => s.putWork .N (nRam p + at_ + k) (l.getD k 0) false

/-- The words of message RAM that read poisoned at this freeze show so in the view, those of unused elements too (R252, R273, R346): they hold the
stored-poison pattern, or the freeze finds them uncorrectable (R343). -/
def State.markRam (s : State) (p : Nat) : State :=
  let bad := (s.badWords (4 + p) 0 (kib 32)).map (· / 4)
  let marks := bad ++ ((s.can p).ramPoison.filter (·.2)).map (·.1)
  (s.readSpan (4 + p) 0 (kib 32)).each marks fun s k => s.putWork .N (nRam p + k) (s.sqWord .work .N (nRam p + k)).1 true

/-- What a freeze has captured of message RAM is no longer lost when a frame takes its place (R250). -/
def Can.captured (c : Can) : Can :=
  { c with mailboxes := c.mailboxes.map fun (k : Nat × CanElement) => (k.1, { k.2 with fresh := false, lost := false })
           fifo := c.fifo.map fun (k : Nat × CanElement) => (k.1, { k.2 with fresh := false }) }

/-- Message RAM as it stood at instant `t` (R81, R252), and the stores after it, the earliest first. -/
def Can.ramAt (c : Can) (t : Nat) : Can × List CanSeen :=
  let after := (c.past.filter fun x => decide (t < x.until_)).reverse
  (c.withRam after, after)

/-- Captures the message RAM into the page of this freeze (R250, R252), as it stood at instant `t`; what was stored after it is stored anew, and its marks are
as they were before. -/
def State.ramFreeze (s : State) (p t : Nat) : State :=
  let marks := (s.can p).ramPoison
  let x := (s.can p).ramAt t
  let c := x.1
  let e := s.canElement p
  let s := s.setCan p c
  let list := s.canList p
  let s := match s.wordAddr .work .N (nRam p) with
    | some a => { s with square := s.square.clear a (kib 32) }
    | none => s
  let s := s.putRam p 0 [mkWord [(31, 31, b2n list), (29, 28, e)], c.put0, c.lost0, c.put1, c.lost1]
  let s := if list then s.each (List.range 256) fun s k =>
      let ws := [s.filterWord p k 0, s.filterWord p k 1, s.filterWord p k 2]
      if ws.all (· == 0) then s else s.putRam p (64 + 3 * k) ws
    else s
  let s := s.each (if list then c.fifo else c.mailboxes) fun s (k : Nat × CanElement) =>
    s.putRam p (elementAt list e k.1) (elementOf k.2.frame (elementBytes e) (!list) k.2)
  (s.markRam p).modCan p fun c =>
    { x.2.foldl (fun (c : Can) y => { c.store y.inFifo y.element y.match_ y.frame (elementAt y.inFifo e y.element) (elementWords e) with
                                        past := c.ram y.until_ y.inFifo y.element y.match_ y.frame :: c.past }) { c.captured with past := [] } with
      ramPoison := marks }

/-- The freeze of area N at time `t` (R252, R265). With PD9 off there is no message RAM to show (R22). -/
def State.canFreeze (s : State) (t : Nat) : State :=
  s.each [0, 1] fun s p =>
    let s := s.each (s.stations p) fun s x => s.stationFreeze p x t
    let s := s.each (List.range 32) fun s x => s.stationImage p x t
    if s.domainOn 9 then s.ramFreeze p t
    else match s.wordAddr .work .N (nRam p) with
      | some a => { s with square := s.square.clear a (kib 32) }
      | none => s

/-- At entry to full service every station starts ABSENT (R269), and both pages show it. -/
def State.canFullService (s : State) : State :=
  s.each [0, 1] fun s p => s.each (List.range 32) fun s x => (s.stationStart p x).stationPage p x

/-- A takeover: the ports leave bus monitoring with TEC and REC at 0. With `gap` no cycle of the module's own has begun yet, and no reference
frame is sent (R271, R308). -/
def State.canTakeover (s : State) (gap : Bool) : State :=
  s.each [0, 1] fun s p => s.modCan p fun c =>
    let c := { c with gap := gap }
    if c.state == .monitoring then 
      { c with state := .errorActive, tec := 0, rec_ := 0, tIn := none, tOut := none, served := [], tecRose := false, txOk := false }
    else c

/-- A module that becomes a standby monitors on its enabled ports; frames queued on it are lost (R270, R271), and slot frames on the bus or waiting
for it are given up as at a shut-down (R257, log 127). A recovery ends with that, and a disable that waits for its end takes effect, unless an
enable follows it (R245). A port that waits for bus integration loses its frames too. -/
def State.canToStandby (s : State) : State :=
  s.each [0, 1] fun s p =>
    let c := s.can p
    if c.active || c.state == .recovering || c.state == .busOff then
      let on := !c.disablePending || c.enablePending
      let s := s.each (c.tx.toList.map (·.1) ++ c.winWait.map (·.1)) fun s j => s.giveUp p 2 j
      let c := s.can p
      let s := s.setCan p { c with state := if on then .monitoring else .disabled, enablePending := false, disablePending := false
                                   tx := none, refWait := none, winWait := [], queue := [], emergency := [] }
      if on then s else s.putCanEnable p false
    else if c.state == .integrating then s.setCan p { c with queue := [], emergency := [] }
    else s

end Sys2Proof.Machine
end

