-- ==== Sys2Proof/Machine/Totals.lean ====
section
/-! DEFINITION. Conserved totals (chapter 12): marks, increments and their commit, MRAM copies and restoring, closing an epoch, what a
standby keeps, reconciliation at a takeover, and the commands. -/

namespace Sys2Proof.Machine

open Sys2Proof

/-! ## Configuration (R320, R337) -/

/-- Word 0 of object 0700h + t, COEFF and STEP_LIMIT. -/
def State.totCfg (s : State) (t : Nat) : Word := s.cfg (0x700 + t) 0
def State.totCoeff (s : State) (t : Nat) : Int := sInt (s.cfg (0x700 + t) 1)
def State.stepLimit (s : State) (t : Nat) : Nat := (s.cfg (0x700 + t) 2).toNat

/-- The kinds of source (R320). -/
inductive TotKind where
  | program | pulse | integrator | product
  deriving DecidableEq, Repr

/-- SOURCE, RAW_SHIFT, REF_A and REF_B of a configuration word. -/
def totKind (w : Word) : TotKind :=
  match bits w 31 30 with
  | 0 => .program
  | 1 => .pulse
  | 2 => .integrator
  | _ => .product
def totShift (w : Word) : Nat := bits w 27 22
def totRefA (w : Word) : Nat := bits w 15 8
def totRefB (w : Word) : Nat := bits w 7 0

/-- Whether a value lies in the 64-bit signed range. -/
def inRange64 (v : Int) : Bool := decide (-(2 ^ 63) ≤ v ∧ v < 2 ^ 63)

/-- The modes an integrator may read: REF_A of a plain one, REF_A and REF_B of a product (R320). -/
def plainModes (m : Nat) : Bool := m == 1 || m == 2 || ucCurrentIn m
def productModesA (m : Nat) : Bool := m == 1 || m == 2
def productModesB (m : Nat) : Bool := m == 2 || ucCurrentIn m

/-- A total about which nothing is stored and nothing is configured. -/
def State.totIdle (s : State) (t : Nat) : Bool :=
  s.total t == {} && totKind (s.totCfg t) == .program && s.square.totIncr.get 0 t == 0 && s.mram.totals.get {} (2 * t) == {} &&
    s.mram.totals.get {} (2 * t + 1) == {}

/-! ## Integrators (R322, R327) -/

/-- The mode and value of a channel as an integrator finds it at a boundary, none where it adds no term (R327). -/
def State.ucMeter (s : State) (n : Nat) : Option (Nat × Int) :=
  let u := s.uc n
  if u.state == .run && u.valueAt.isSome && !s.ucStale n && !u.poison && !u.opened.set_ && !u.fault then some (ucMode (s.ucCfg n), u.value)
  else none

/-- The value of channel `n` among those of a boundary, in a mode that the total permits (R320). -/
def meterOf (l : List (Option (Nat × Int))) (n : Nat) (modes : Nat → Bool) : Option Int :=
  match l.getD n none with
  | some m => if modes m.1 then some m.2 else none
  | none => none

/-- The term of a boundary under a configuration: v × COEFF, or the exact product of two values × COEFF (R322). -/
def totTerm (w : Word) (coeff : Int) (l : List (Option (Nat × Int))) : Option Int :=
  match totKind w with
  | .integrator => (meterOf l (totRefA w) plainModes).map (· * coeff)
  | .product =>
    match meterOf l (totRefA w) productModesA, meterOf l (totRefB w) productModesB with
    | some a, some b => some (a * b * coeff)
    | _, _ => none
  | _ => none

/-- A 128-bit two's complement value (R320). -/
def wrap128 (x : Int) : Int := (BitVec.ofInt 128 x).toInt

/-- 10 µs more in a gap: GAP_S counts whole seconds, saturating (R327). -/
def Total.inGap (x : Total) : Total :=
  let ns := x.gapNs + 10000
  if ns < 1000000000 then { x with gap := true, gapNs := ns } else { x with gap := true, gapNs := ns - 1000000000, gapS := satInc x.gapS }

/-- One boundary for total t, `l` being what the channels give: an integrator adds its term or is in a gap; a pulse total is in a gap while its group
is LOST (R327). -/
def State.totBoundary (l : List (Option (Nat × Int))) (s : State) (t : Nat) : State :=
  let x := s.total t
  match totKind (s.totCfg t) with
  | .program => s
  | .pulse =>
    if (s.diGroup (totRefA (s.totCfg t) / 8)).lost then s.setTotal t x.inGap
    else if x.gap then s.setTotal t { x with gap := false } else s
  | _ =>
    match totTerm (s.totCfg t) (s.totCoeff t) l with
    | none => s.setTotal t x.inGap
    | some v => s.setTotal t { x with gap := false, acc := wrap128 (x.acc + v), trail := x.trail ++ [(s.now / 10000, v)] }

/-- INTEGRATOR_BOUNDARY (R322), once for each multiple of 10 µs of module time, from the start of Side-Street mode on. While ANSEQ is not in RUN its
values are STALE, so that the boundary lies in a gap (R327). -/
def execIntegratorBoundary (s : State) : Out :=
  if s.service == .off || s.service == .halted || s.now / 10000 ≤ s.square.boundaryNo then .next s
  else
    let l := (List.range 32).map s.ucMeter
    let s := { s with square := { s.square with boundaryNo := s.now / 10000, metered := s.square.metered ++ [(s.now / 10000, l)] } }
    .next (s.each (List.range 64) (State.totBoundary l))

/-! ## Marks (R321, R325) -/

/-- The counting stage of a group has lost its power: totals on its inputs count from 0 (R219, R333). -/
def State.resetMarks (s : State) (g : Nat) : State :=
  if !(s.diGroup g).stageReset then s
  else
    let s := s.modDiGroup g fun x => { x with stageReset := false }
    s.each (List.range 64) fun s t =>
      if totKind (s.totCfg t) == .pulse && totRefA (s.totCfg t) / 8 == g then s.modTotal t fun x => { x with mark := 0 } else s

/-- The raw marks of a freeze at instant `f`: edges and boundaries after it do not count (R325). -/
def State.takeMarks (s : State) (f : Nat) : State :=
  let s := s.each (List.range 6) State.resetMarks
  let s := { s with square := { s.square with metered := s.square.metered.filter fun (e : Nat × List (Option (Nat × Int))) => decide (f / 10000 < e.1) } }
  let s := s.each (List.range 16) fun s n =>
    s.modDi n fun d =>
      let later := d.trail.filter fun e => decide (f < e)
      { d with mark := d.raw - BitVec.ofNat 32 later.length, trail := later }
  s.each (List.range 64) fun s t =>
    match totKind (s.totCfg t) with
    | .program | .pulse => s
    | _ => s.modTotal t fun x =>
      let later := x.trail.filter fun (e : Nat × Int) => decide (f / 10000 < e.1)
      { x with frozenAcc := wrap128 (x.acc - (later.map (·.2)).sum), trail := later }

/-- The raw mark of total t at the latest freeze: RAW_COUNT of its input, or its accumulator. -/
def State.pulseMark (s : State) (t : Nat) : BitVec 32 := (s.di (totRefA (s.totCfg t))).mark

/-- The marks of freeze c are kept for the last four freezes (R329). -/
def State.totalsFreeze (s : State) (f : Nat) (c : BitVec 32) : State :=
  let s := s.takeMarks f
  s.each (List.range 64) fun s t =>
    if totKind (s.totCfg t) == .program then s
    else s.modTotal t fun x => { x with marks := (((c, s.pulseMark t, x.frozenAcc)) :: x.marks).take 4 }

/-! ## Increments (R321, R322, R328) -/

/-- Adds a hardware increment, or refuses it where the total would leave its range (R328). Answers whether it was refused. -/
def Total.add (x : Total) (inc : Int) : Total × Bool :=
  if inRange64 (x.value + inc) then ({ x with value := x.value + inc }, false)
  else ({ x with refused := x.refused + inc, saturated := true }, true)

/-- The increment of an integrator from its accumulator and residue: the whole part toward minus infinity, and the new residue (R322,
R329). -/
def wholePart (delta residue : Int) (shift : Nat) : Int × Int :=
  let q := delta * 2 ^ (64 - shift) + residue
  (q / 2 ^ 64, q % 2 ^ 64)

/-- The hardware increment of total t from its last marks to those of the latest freeze. Answers whether it was refused. -/
def State.hardIncr (s : State) (t : Nat) : Total × Bool :=
  let x := s.total t
  let w := s.totCfg t
  match totKind w with
  | .program => (x, false)
  | .pulse =>
    let m := s.pulseMark t
    { x with mark := m }.add (s.totCoeff t * ((m - x.mark).toNat : Int))
  | _ =>
    let r := wholePart (wrap128 (x.frozenAcc - x.accMark)) x.residue (totShift w)
    { x with accMark := x.frozenAcc, residue := r.2 }.add r.1

/-- A record of SQUARE about a total, with the cycle of its commit. -/
def State.raiseTotal (s : State) (k : RecKind) (v : Word) (c : BitVec 32) : State := s.raiseFull 6 k v none (some c)

/-- A total after an increment; a refused one is recorded (R328). -/
def State.putIncr (s : State) (t : Nat) (r : Total × Bool) (c : BitVec 32) : State :=
  let s := s.setTotal t r.1
  if r.2 then s.raiseTotal .totalSaturated (mkWord [(5, 0, t)]) c else s

/-! ## MRAM copies (R326) -/

/-- The older of the two copies of total t, a void one first. -/
def State.olderCopy (s : State) (t : Nat) : Nat :=
  let a := s.mram.totals.get {} (2 * t)
  let b := s.mram.totals.get {} (2 * t + 1)
  if !a.valid then 2 * t else if !b.valid then 2 * t + 1 else if b.seq < a.seq then 2 * t + 1 else 2 * t

/-- What KEEP stores of a total. -/
def Total.copy (x : Total) : TotalCopy :=
  { value := x.value, mark := x.mark, residue := x.residue, epoch := x.epoch, lastClosed := x.lastClosed, uncertain := x.uncertain
    saturated := x.saturated, gapS := x.gapS, uncLo := x.uncLo, uncHi := x.uncHi, refused := x.refused, seq := x.seq, accMark := x.accMark, valid := true }

/-- A copy that was void is rewritten from SQUARE (R326): TOTAL_RESTORED with reason 02h. A copy that was never written is not void. -/
def State.storeCopy (s : State) (t at_ : Nat) (c : BitVec 32) : State :=
  let old := s.mram.totals.get {} at_
  let s := { s with mram := { s.mram with totals := s.mram.totals.set {} at_ (s.total t).copy } }
  if !old.valid && old.seq != 0 then s.raiseTotal .totalRestored (mkWord [(9, 8, 2), (5, 0, t)]) c else s

/-- KEEP writes the older copy of a total at a commit (R326). -/
def State.keepTotal (s : State) (t : Nat) (c : BitVec 32) : State :=
  let s := s.modTotal t fun x => { x with seq := x.seq + 1 }
  s.storeCopy t (s.olderCopy t) c

/-- Both copies are written (R332, R333). -/
def State.keepBoth (s : State) (t : Nat) : State :=
  let s := s.modTotal t fun x => { x with seq := x.seq + 1 }
  (s.storeCopy t (2 * t) s.shownCycle).storeCopy t (2 * t + 1) s.shownCycle

/-- A total as a copy gives it. -/
def Total.ofCopy (x : Total) (y : TotalCopy) : Total :=
  { x with value := y.value, mark := y.mark, residue := y.residue, epoch := y.epoch, lastClosed := y.lastClosed
           uncertain := y.uncertain, saturated := y.saturated, gapS := y.gapS, uncLo := y.uncLo, uncHi := y.uncHi
           refused := y.refused, seq := y.seq }

/-- The newest valid copy of total t. -/
def State.newestCopy (s : State) (t : Nat) : Option TotalCopy :=
  let a := s.mram.totals.get {} (2 * t)
  let b := s.mram.totals.get {} (2 * t + 1)
  if a.valid && (!b.valid || b.seq < a.seq) then some a else if b.valid then some b else none

/-- A total from its older copy with the hardware increments from the copy's mark to the present one (R326). Answers whether they were refused. -/
def State.recomputed (s : State) (t : Nat) (y : TotalCopy) : Total × Bool :=
  let x := s.total t
  let w := s.totCfg t
  match totKind w with
  | .program => (x.ofCopy y, false)
  | .pulse => { x.ofCopy y with mark := x.mark }.add (s.totCoeff t * ((x.mark - y.mark).toNat : Int))
  | _ =>
    let r := wholePart (wrap128 (x.accMark - y.accMark)) y.residue (totShift w)
    { x.ofCopy y with residue := r.2 }.add r.1

/-- SQUARE's value or residue of total t is found poisoned (R326): the copy of the same commit gives it back; else the older copy with
the hardware increments recomputed from its mark. -/
def State.restoreTotal (s : State) (t : Nat) : State :=
  let x := s.total t
  match s.newestCopy t with
  | some y =>
    if y.seq == x.seq then
      (s.setTotal t { x.ofCopy y with seq := x.seq }).raiseTotal .totalRestored (mkWord [(9, 8, 1), (5, 0, t)]) s.shownCycle
    else
      let z := s.recomputed t y
      (s.putIncr t ({ z.1 with seq := x.seq }, z.2) s.shownCycle).raiseTotal .totalRestored (mkWord [(9, 8, 3), (5, 0, t)]) s.shownCycle
  | none => s

/-- A retained copy is void (R103, R346). -/
def State.voidRetained (s : State) (i : Nat) : State :=
  match s.mram.retained.get none i with
  | some r => { s with mram := { s.mram with retained := s.mram.retained.set none i (some { r with void := true }) } }
  | none => s

/-- A copy in MRAM is found void: SQUARE rewrites it at the next commit (R326). -/
def State.voidCopy (s : State) (at_ : Nat) : State :=
  let y := s.mram.totals.get {} at_
  if y.valid then { s with mram := { s.mram with totals := s.mram.totals.set {} at_ { y with valid := false } } } else s

/-! ## Closing an epoch (R334, R335) -/

/-- What a close leaves of a total: the residue stays. -/
def Total.closed (x : Total) : Total :=
  { x with value := 0, refused := 0, uncertain := false, uncLo := 0, uncHi := 0, saturated := false, gapNs := 0, gapS := 0
           epoch := x.epoch + 1, lastClosed := x.value }

/-- The two records and the new epoch of a close at commit c. -/
def State.closeTotal (s : State) (t : Nat) (c : BitVec 32) (who : Option Ctx) : State :=
  let v := BitVec.ofInt 64 (s.total t).value
  let old := (s.total t).value
  let s := s.modTotal t Total.closed
  let rec1 := s.mkRecord 6 (.totalClosedHi t) ((v >>> 32).truncate 32) none (some c)
  let hi : Raised := { rec_ := rec1, stamped := false, noteFor := none, closeFor := who.map fun x => (x, old, (s.total t).epoch) }
  (s.handRecord hi).raiseTotal (.totalClosedLo t) (v.truncate 32) c

/-- Writes a configuration word of total t. -/
def State.putTotWord (s : State) (t sub : Nat) (w : Word) : State :=
  { s with mram := { s.mram.wrote (0x700 + t) with obj := s.mram.obj.set (objDefault (okey (0x700 + t) sub)) (okey (0x700 + t) sub) w } }

/-- SOURCE, REF_A and REF_B: another one of them is another source, whose edges have an offset of their own (R330). -/
def totSource (w : Word) : Nat × Nat × Nat := (bits w 31 30, totRefA w, totRefB w)

/-- The new source of a total counts from the marks of commit c, those of freeze c (R335): the boundaries since then count under the new
configuration. A pulse total that goes on counting the same input keeps its marks and offset. -/
def State.rebaseTotal (s : State) (t : Nat) (c : BitVec 32) (same : Bool) : State :=
  let terms := s.square.metered.filterMap fun (e : Nat × List (Option (Nat × Int))) =>
    (totTerm (s.totCfg t) (s.totCoeff t) e.2).map fun v => (e.1, v)
  s.modTotal t fun x =>
    let x := { x with mark := s.pulseMark t, acc := wrap128 (terms.map fun (e : Nat × Int) => e.2).sum, frozenAcc := 0, accMark := 0, trail := terms }
    if same then { x with marks := x.marks.map fun (m : BitVec 32 × BitVec 32 × Int) => (m.1, m.2.1, if m.1 == c then 0 else m.2.2) }
    else { x with marks := [(c, s.pulseMark t, 0)], gap := false, settled := false, offset := 0, candidate := 0, candidateRun := 0 }

/-- The waiting entries of a total whose commit has come, and those that wait on (R334, R305). -/
def Total.dueCloses (x : Total) (c : BitVec 32) : List Close × List Close :=
  x.close.partition fun q => match q.boundary with | some b => !(c - b).msb | none => true

/-- An entry lands at commit c (R334, R335, R337). -/
def State.landEntry (t : Nat) (c : BitVec 32) (s : State) (q : Close) : State :=
  let before := (s.totCfg t, s.totCoeff t)
  let s' := s.each q.config fun s (e : Nat × Word) => s.putTotWord t e.1 e.2
  let changed := (s'.totCfg t, s'.totCoeff t) != before
  let s := if q.close || changed then s.closeTotal t c q.ctx else s
  let s := s.each q.config fun s (e : Nat × Word) => s.putTotWord t e.1 e.2
  if changed then s.rebaseTotal t c (totSource (s.totCfg t) == totSource before.1) else s

/-- What waits for a commit of total t lands at commit c, in its order. -/
def State.landClose (s : State) (t : Nat) (c : BitVec 32) : State :=
  let q := (s.total t).dueCloses c
  (s.modTotal t fun x => { x with close := q.2 }).each q.1 (State.landEntry t c)

/-! ## The commit (R324) -/

/-- One total at commit c: program increments, the hardware increment, the MRAM copy, then what lands. -/
def State.commitTotal (s : State) (c : BitVec 32) (t : Nat) : State :=
  if s.totIdle t then s
  else
    let s := s.modTotal t fun x => { x with value := x.value + s.square.totIncr.get 0 t }
    ((s.putIncr t (s.hardIncr t) c).landClose t c).keepTotal t c

/-- SQUARE commits the totals of cycle c (R324). -/
def State.commitTotals (s : State) (c : BitVec 32) : State :=
  let s := s.each (List.range 64) (State.commitTotal · c)
  { s with square := { s.square with totIncr := [] } }

/-- TOTALS_SIDE_STREET_COMMIT (R333): the hardware totals every 100 ms, under cycle 0 (R36). -/
def execTotalsSideStreetCommit (s : State) : Out :=
  if s.service != .sideStreet || !s.dueEvery s.power.totalsAt 100000000 then .next s
  else .next (({ s with power := { s.power with totalsAt := some s.now } }.takeMarks s.now).commitTotals 0)

/-- The last mark of every hardware total, stored in both copies (R333, R404 step 5). -/
def State.lastMarks (s : State) : State :=
  let s := s.takeMarks s.now
  s.each (List.range 64) fun s t => if s.totIdle t then s else (s.putIncr t (s.hardIncr t) s.shownCycle).keepBoth t

/-- The accumulators have restarted at 0: so have the marks that the copies of total t hold of them (R333). -/
def State.zeroMarks (s : State) (t : Nat) : State :=
  let zero := fun (m : Tab TotalCopy) (k : Nat) => if (m.get {} k).accMark = 0 then m else m.set {} k { m.get {} k with accMark := 0 }
  { s with mram := { s.mram with totals := zero (zero s.mram.totals (2 * t)) (2 * t + 1) } }

/-- Start-up: each total from the newer valid copy, its accumulator at 0 (R333). Program increments of a cycle cut short are lost with
it; with both copies void the total is as new and MRAM_ITEM_LOST names its object (R347). -/
def State.loadTotals (s : State) : State :=
  s.each (List.range 64) fun s t =>
    let lost := (s.mram.totals.get {} (2 * t)).seq != 0 && (s.newestCopy t).isNone
    let s := match s.newestCopy t with
      | some y => s.setTotal t (Total.ofCopy {} y)
      | none => s.setTotal t {}
    let s := s.zeroMarks t
    if lost then s.raiseStarting .mramItemLost (mkWord [(15, 0, 0x700 + t)]) else s

/-! ## The pair (R325, R329 to R332) -/

/-- The ledger's entry of total t: its mark field is M(c), the residue, or 0 (R325). -/
def State.ledgerTotal (s : State) (t : Nat) : LedgerTotal :=
  let x := s.total t
  { value := x.value, poisoned := false
    mark := match totKind (s.totCfg t) with
      | .program => 0
      | .pulse => x.mark.zeroExtend 64
      | _ => BitVec.ofInt 64 x.residue }

/-- The own marks of freeze c, if they are among the last four. -/
def Total.marksOf (x : Total) (c : BitVec 32) : Option (BitVec 32 × Int) := (x.marks.find? fun m => m.1 == c).map (·.2)

/-- The offset of a pulse total at an applied ledger (R330): a value held at four ledgers becomes the settled offset. Answers the change
of a settled offset. -/
def Total.offsetStep (x : Total) (o : BitVec 32) : Total × Option (BitVec 32) :=
  let run := if o == x.candidate && 0 < x.candidateRun then x.candidateRun + 1 else 1
  let y := { x with candidate := o, candidateRun := min run 4 }
  if run < 4 then (y, none)
  else if x.settled && x.offset == o then (y, none)
  else ({ y with settled := true, offset := o }, if x.settled then some (o - x.offset) else none)

/-- A standby applies the entry of total t of ledger c (R329, R330). A poisoned field leaves the entry of an earlier ledger (R346); one of a cycle before
a close that this module has landed is of the closed epoch. -/
def State.applyLedgerTotal (s : State) (c : BitVec 32) (t : Nat) (e : LedgerTotal) : State :=
  if e.poisoned || (match (s.total t).closedAt with | some b => (c - b).msb | none => false) then s
  else
    let x := s.total t
    let own := x.marksOf c
    let x := { x with value := e.value, ledgerValue := e.value, ledgerMark := e.mark, ledgerCycle := c
                      ledgerAcc := (own.map (·.2)).getD x.ledgerAcc
                      closedAt := none, shadowIncr := x.shadowIncr.filter fun (i : BitVec 32 × Int) => (c - i.1).msb }
    match totKind (s.totCfg t), own with
    | .pulse, some m =>
      let r := x.offsetStep (m.1 - e.mark.truncate 32)
      let s := s.setTotal t { r.1 with mark := m.1 }
      match r.2 with
      | some d => s.raiseTotal .totalMarkDrift (mkWord [(31, 16, d.toNat), (5, 0, t)]) c
      | none => s
    | .integrator, _ | .product, _ => s.setTotal t { x with residue := e.mark.toNat, accMark := x.ledgerAcc }
    | _, _ => s.setTotal t x

/-- The value of total t at the latest freeze from the last ledger and the module's own marks (R329, R331), before the increments of the
cycle, with the new residue. -/
def State.reconciled (s : State) (t : Nat) : Int × Int :=
  let x := s.total t
  let w := s.totCfg t
  match totKind w with
  | .program => (x.ledgerValue + (x.shadowIncr.map (·.2)).sum, x.residue)
  | .pulse =>
    let o := if x.settled then x.offset else x.candidate
    (x.ledgerValue + s.totCoeff t * ((s.pulseMark t - o - x.ledgerMark.truncate 32).toNat : Int), x.residue)
  | _ =>
    let r := wholePart (wrap128 (x.frozenAcc - x.ledgerAcc)) x.ledgerMark.toNat (totShift w)
    (x.ledgerValue + r.1, r.2)

/-- Cycles after k and before m, 0 never being used (R79, R331). -/
def cyclesBetween (k m : BitVec 32) : Nat :=
  let d := (m - k).toNat - 1
  if m < k then d - 1 else d

/-- The bounds of an uncertain program total (R331), held within the 64-bit range (DESIGN CHOICE, log 131). -/
def stepBounds (v : Int) (n limit : Nat) : Int × Int :=
  if limit = 0 then (-(2 ^ 63), 2 ^ 63 - 1)
  else (clampInt (-(2 ^ 63)) (2 ^ 63 - 1) (v - n * limit), clampInt (-(2 ^ 63)) (2 ^ 63 - 1) (v + n * limit))

/-- Total t at the latest freeze as the last ledger and the module's own marks make it. A value outside the 64-bit range keeps to V_k and refuses the rest
(R328). Answers whether it does. -/
def State.fromLedger (s : State) (t : Nat) : Total × Bool :=
  let x := s.total t
  let v := s.reconciled t
  ({ x with value := x.ledgerValue, residue := v.2, mark := s.pulseMark t, accMark := x.frozenAcc, shadowIncr := [] }).add (v.1 - x.ledgerValue)

/-- Total t at freeze m of a takeover (R329, R331). -/
def State.reconcileTotal (s : State) (m : BitVec 32) (t : Nat) : State :=
  let x := s.total t
  let y := s.fromLedger t
  match totKind (s.totCfg t) with
  | .program =>
    let n := cyclesBetween x.ledgerCycle m
    if n = 0 || bits (s.cfg 0x600 1) 15 0 ≤ s.pair.matched then s.setTotal t y.1
    else
      let b := stepBounds x.ledgerValue n (s.stepLimit t)
      (s.setTotal t { y.1 with uncertain := true, uncLo := b.1, uncHi := b.2 }).raiseTotal .reconcileUncertain
        (mkWord [(31, 16, satNat 16 n), (5, 0, t)]) m
  | .pulse =>
    let s := s.putIncr t y m
    let corr := x.candidate - x.offset
    if x.settled && corr != 0 then s.raiseTotal .totalBoundaryCorrected (mkWord [(31, 16, corr.toNat), (5, 0, t)]) m else s
  | _ => s.putIncr t y m

/-- Every total at freeze m of a takeover. -/
def State.reconcileTotals (s : State) (m : BitVec 32) : State := s.each (List.range 64) (State.reconcileTotal · m)

/-- The module's own total is the base of its next increment and of a takeover (R329): its value and marks at commit c, until a ledger of the pair
says more. -/
def State.ownBase (s : State) (c : BitVec 32) (t : Nat) : State :=
  let x := s.total t
  s.setTotal t { x with ledgerValue := x.value, ledgerMark := (s.ledgerTotal t).mark, ledgerCycle := c, ledgerAcc := x.accMark, shadowIncr := []
                        candidate := 0, candidateRun := 0, settled := false, offset := 0 }

/-- A close or a configuration that lands on a standby (R334, R335): the closed value is what its own marks make of the last ledger, what it
refuses included (R328), and the base of a takeover goes on from there. An offset that a pulse total has settled is that of its marks from then on too. -/
def State.shadowClose (s : State) (c : BitVec 32) (t : Nat) : State :=
  if ((s.total t).dueCloses c).1 == [] then s
  else
    let epoch := (s.total t).epoch
    let plain := s.landClose t c
    if (plain.total t).epoch == epoch then plain
    else
      let y := s.fromLedger t
      let s := (if totKind (s.totCfg t) == .program then s.setTotal t y.1 else s.putIncr t y c).landClose t c
      s.modTotal t fun x =>
        let o := if x.settled then x.offset else x.candidate
        { x with
          ledgerValue := 0, ledgerCycle := c, closedAt := some c, shadowIncr := [], ledgerAcc := x.accMark
          ledgerMark := if totKind (s.totCfg t) == .pulse then (s.pulseMark t - o).zeroExtend 64 else (s.ledgerTotal t).mark }

/-- A standby commits cycle c in shadow (R331): program increments are kept, hardware totals follow the ledger. -/
def State.shadowTotals (s : State) (c : BitVec 32) : State :=
  let s := s.each (List.range 64) fun s t =>
    if s.totIdle t then s
    else
      let i := s.square.totIncr.get 0 t
      let s := if i = 0 then s else s.modTotal t fun x => { x with shadowIncr := x.shadowIncr ++ [(c, i)] }
      (s.shadowClose c t).keepTotal t c
  { s with square := { s.square with totIncr := [] } }

/-- The totals of a snapshot of cycle c (R332): each is as the active has committed it, with its epoch, residue and flags; own marks of freeze c, of
instant `f`, are the base of the next increment, and both copies are written. What waited here for a commit is gone. -/
def State.adoptTotals (s : State) (c : BitVec 32) (f : Nat) (l : List SnapTotal) : State :=
  (s.takeMarks f).each (l.zipIdx) fun s (e : SnapTotal × Nat) =>
    let t := e.2
    let y := e.1
    let s := s.rebaseTotal t c false
    let x := { s.total t with value := y.value, residue := y.residue, epoch := y.epoch, lastClosed := y.lastClosed, uncertain := y.uncertain
                              saturated := y.saturated, gapS := y.gapS, uncLo := y.uncLo, uncHi := y.uncHi, refused := y.refused
                              close := [], closedAt := none }
    ((s.setTotal t x).ownBase c t).keepBoth t

/-- A module that waits for its snapshot notes the freezes of the active: one of them is that of the snapshot, whose marks it takes then (R325, R332).
Until then it keeps what it meters with its times. -/
def State.syncToken (s : State) (c : BitVec 32) (instant : Nat) : State :=
  { s with pair := { s.pair with syncTokens := (c, instant) :: s.pair.syncTokens } }

/-- The instant of freeze c as its token gave it; without one the present (DEDUCED, log 152). -/
def State.syncFreeze (s : State) (c : BitVec 32) : Nat :=
  match s.pair.syncTokens.find? fun e => e.1 == c with
  | some e => e.2
  | none => s.now

/-! ## Commands (R74) -/

def totalReadDesc : CmdDesc := { code := 0x0D00, roles := [.observe], fits := exact 4, kind := .data }

/-- TOTAL_READ: the committed values of a range of totals, whose words in Z it reads (R341, R431). Totals are never published poisoned: one that is found
uncorrectable is restored from its copies first (R326); `marks` are the words that it has been given with a mark (R343). -/
def totalReadFrom (marks : List Nat) (c : Ctx) (b : List Byte) (s : State) : State :=
  let first := byteAt b 0
  let count := byteAt b 1
  if count < 1 || 64 < count then s.refuse c .outOfRange
  else if 64 < first + count then s.refuse c .badObject
  else
    s.gateRead c b 2 ((List.range count).flatMap fun i => [sqZ + 8 * (first + i), sqZ + 8 * (first + i) + 4]) marks fun bad s =>
      let s := s.each (bad.map fun w => (w - sqZ) / 8).dedup State.restoreTotal
      s.reply c .ok ((List.range count).flatMap fun i =>
        let t := first + i
        toBe 8 (BitVec.ofInt 64 (s.total t).value).toNat ++ toBe 4 (s.total t).epoch.toNat ++ toBe 1 (bits (s.totCfg t) 29 28) ++ pad 3)

def runTotalRead : Ctx → List Byte → State → State := totalReadFrom []

def execTotalRead (p : Packet) (s : State) : Out := s.command p totalReadDesc runTotalRead

def totalCloseDesc : CmdDesc := { code := 0x0D01, roles := [.maintain], fits := exact 4, kind := .change }

/-- Adds a close or configuration words to what waits for the commit of total t (R334, R335); in a pair for the commit of cycle
`boundary`. What waits for one commit lands as one. -/
def State.queueClose (s : State) (t : Nat) (who : Option Ctx) (close : Bool) (config : List (Nat × Word))
    (boundary : Option (BitVec 32)) : State :=
  s.modTotal t fun x =>
    let same := fun (q : Close) => q.boundary == boundary
    if x.close.any same then
      { x with close := x.close.map fun q =>
        if same q then { q with ctx := who <|> q.ctx, close := q.close || close, config := q.config ++ config } else q }
    else { x with close := x.close ++ [{ ctx := who, close := close, config := config, boundary := boundary }] }

/-- What waits for a commit of total t lands with no commit of its own: what the source has brought until now belongs to the epoch that ends (R335,
R336). -/
def State.settleCloses (s : State) (t : Nat) : State :=
  if (s.total t).close == [] then s
  else
    let l := (s.total t).close
    let c := s.square.last
    let s := s.takeMarks s.now
    let s := s.putIncr t (s.hardIncr t) c
    ((s.modTotal t fun x => { x with close := [] }).each l (State.landEntry t c)).keepTotal t c

/-- Out of service no commit follows: what waits for one lands at once (R59; log 24). -/
def State.closeNow (s : State) (t : Nat) : State := if s.service == .outOfService then s.settleCloses t else s

/-- TOTAL_CLOSE (R334): lands at the next commit, in a synchronised pair at the same cycle on both modules (R305). -/
def runTotalClose (c : Ctx) (b : List Byte) (s : State) : State :=
  let t := byteAt b 0
  if 63 < t then s.refuse c .badObject
  else if (s.total t).close.any fun q => q.ctx.isSome then s.replyBusy c true
  else
    if !s.forwards then (s.queueClose t (some c) true [] none).closeNow t
    else if s.causewayLost then s.replyBusy c true
    else (s.tellStandby (.totalClose (Fin.ofNat 64 t))).queueClose t (some c) true [] (some s.changeBoundary)

def execTotalClose (p : Packet) (s : State) : Out := s.command p totalCloseDesc runTotalClose

end Sys2Proof.Machine
end

