-- ==== Sys2Proof/Machine/Vars.lean ====
section
/-! DEFINITION. Commands on process data: variable references (R63), coherent reads (R56, R94), writes that land at a commit (R50, R51,
R93), forces (R96, R97) and subscriptions (R57). -/

namespace Sys2Proof.Machine

open Sys2Proof

/-! ## References (R63) -/

/-- A variable reference. -/
structure VarRef where
  area : Area
  isBit : Bool
  count : Nat
  offset : Nat
  deriving DecidableEq, Repr

/-- Areas whose words a bit offset addresses, E included. -/
def bitKind (a : Area) : Bool :=
  match a with
  | .I | .Q | .M | .E | .S => true
  | _ => false

/-- Bits that a bit reference may name: the bits of a bit area, the outputs of timers and counters (R108). -/
def State.areaBits (s : State) (a : Area) : Nat :=
  match a with
  | .T | .C => 4096
  | _ => if bitKind a then 32 * s.areaWords a else 0

/-- A reference lies in its area; a word reference to a bit area starts at a multiple of 32, a bit reference names a bit area, a
timer or a counter (R108, R109). -/
def State.refFits (s : State) (r : VarRef) : Bool :=
  1 ≤ r.count && r.count ≤ 256 &&
    (if r.isBit then decide (r.offset + r.count ≤ s.areaBits r.area)
     else if bitKind r.area then r.offset % 32 == 0 && r.offset / 32 + r.count ≤ s.areaWords r.area
     else decide (r.offset + r.count ≤ s.areaWords r.area))

/-- The reference at byte `i`; none where it is no reference to the module's areas. -/
def State.parseRef (s : State) (b : List Byte) (i : Nat) : Option VarRef :=
  match areaOf (byteAt b i) with
  | none => none
  | some a =>
    if 1 < byteAt b (i + 1) then none
    else
      let r : VarRef := { area := a, isBit := byteAt b (i + 1) == 0, count := be16 b (i + 2), offset := be32 b (i + 4) }
      if s.refFits r then some r else none

/-- `n` references one after the other. -/
def State.parseRefs (s : State) : Nat → List Byte → Option (List VarRef)
  | 0, _ => some []
  | n + 1, b =>
    match s.parseRef b 0, s.parseRefs n (b.drop 8) with
    | some r, some l => some (r :: l)
    | _, _ => none

/-- The offset of item `k` of a reference: a bit, or a word. -/
def VarRef.item (r : VarRef) (k : Nat) : Nat := if r.isBit then r.offset + k else if bitKind r.area then r.offset / 32 + k else r.offset + k

/-- The items of a reference. -/
def VarRef.items (r : VarRef) : List (Area × Bool × Nat) := (List.range r.count).map fun k => (r.area, r.isBit, r.item k)

/-- A word of area I before the first apply of full service (R209, R231): the states and status words of the digital channels as they were last offered, those of
the universal channels as they stand. -/
def State.sideWord (s : State) (w : Nat) : Word :=
  let states := bitWords (fun n => n < 48 && bit (s.di n).offered 31) 2 ++ bitWords (fun n => n < 48 && bit (s.di n).offered 30) 2
  if w < 4 then states.getD w 0
  else if 32 ≤ w ∧ w < 64 then ofI (s.uc (w - 32)).value
  else if 64 ≤ w ∧ w < 96 then s.ucStatus (w - 64) s.now
  else if 96 ≤ w ∧ w < 128 then (s.do_ (w - 96)).offered
  else if 128 ≤ w ∧ w < 176 then (s.di (w - 128)).offered
  else 0

/-- A word as READ_VARS and subscriptions read it: of the committed snapshot, before the first apply of full service of what is offered (R36, R94, R231). -/
def State.readVar (s : State) (a : Area) (w : Nat) : Word × Bool :=
  if s.offers && a == .I then (s.sideWord w, false) else s.varWord a w

/-- One item as a command reads it: a bit travels as a word with the value in bit 0 (R63, R94). -/
def State.varItem (s : State) (x : Area × Bool × Nat) : Word × Bool :=
  if !x.2.1 then s.readVar x.1 x.2.2
  else match x.1 with
  | .T => (BitVec.ofNat 32 (b2n ((s.timer x.2.2).outputAt s.freezeInstant)), (s.timer x.2.2).poisoned)
  | .C => (BitVec.ofNat 32 (b2n (s.counter x.2.2).output), (s.counter x.2.2).poisoned || (s.counter x.2.2).presetP)
  | a => let w := s.readVar a (x.2.2 / 32); (BitVec.ofNat 32 (b2n (bit w.1 (x.2.2 % 32))), w.2)

/-- The byte address of the word of the Town Square that a reader of an item meets (R431): the end of the array for what does not stand there. -/
def State.itemAddr (s : State) (x : Area × Bool × Nat) : Nat :=
  let w := if x.2.1 then x.2.2 / 32 else x.2.2
  match x.1 with
  | .T => if x.2.1 then sqT + 16 * x.2.2 else sqT + 4 * w
  | .C => if x.2.1 then sqC + 8 * x.2.2 else sqC + 4 * w
  | .Z => sqZ + 4 * w
  | .I => if s.offers then sqEnd else (s.wordAddr .done .I w).getD sqEnd
  | a => (s.wordAddr .done a w).getD sqEnd

/-- The words of the Town Square that the items of a request or a subscription stand in. -/
def State.itemWords (s : State) (l : List (Area × Bool × Nat)) : List Nat := (l.map s.itemAddr).dedup

/-- The totals in the words of a list. -/
def totalsIn (l : List Nat) : List Nat := ((l.filter fun b => decide (sqZ ≤ b ∧ b < sqZ + 512)).map fun b => (b - sqZ) / 8).dedup

/-- The items as they are delivered, the words `bad` with a mark of their own (R343). A total found poisoned is restored from its copies, and never
delivered so (R326, R346). -/
def State.deliverItems (s : State) (l : List (Area × Bool × Nat)) (bad : List Nat) : State × List (Word × Bool) :=
  let t := s.each (totalsIn bad) State.restoreTotal
  (t, l.map fun x => let v := t.varItem x; (v.1, v.2 || (x.1 != .Z && bad.contains (s.itemAddr x))))

/-! ## READ_VARS (R66, R94) -/

/-- Items of totals that are the module's own stored ones (R315, R332). -/
def State.hidesTotals (s : State) (l : List (Area × Bool × Nat)) : Bool := s.totalsForeign && l.any fun x => x.1 == .Z

def readVarsDesc : CmdDesc :=
  { code := 0x0300, roles := [.observe], fits := fun b => b.length == 4 + 8 * be16 b 0 && 1 ≤ be16 b 0 && be16 b 0 ≤ 64, kind := .data }

/-- READ_VARS, with the words of the Town Square that it has been given with a mark (R343). -/
def readVarsFrom (marks : List Nat) (c : Ctx) (b : List Byte) (s : State) : State :=
  match s.parseRefs (be16 b 0) (b.drop 4) with
  | none => s.refuse c .outOfRange
  | some l =>
    let items := l.flatMap VarRef.items
    if s.hidesTotals items then s.refuse c .pairStale
    else
    s.gateRead c b 2 (s.itemWords items) marks fun bad t =>
      let r := t.deliverItems items bad
      r.1.replyData c (toBe 2 items.length ++ pad 2) r.2

def runReadVars : Ctx → List Byte → State → State := readVarsFrom []

def execReadVars (p : Packet) (s : State) : Out := s.command p readVarsDesc runReadVars

/-! ## Landings (R50, R51, R97) -/

/-- A landing joins those that wait for the next commit. -/
def State.postLanding (s : State) (x : Landing) : State :=
  { s with square := { s.square with landings := s.square.landings ++ [x] } }

/-- The word an item lies in. -/
def itemWord (x : Area × Bool × Nat) : VarWord := { area := x.1, word := if x.2.1 then x.2.2 / 32 else x.2.2 }

/-- The write of a value to an item. -/
def landItem (x : Area × Bool × Nat) (v : Word) : LandWord :=
  if x.2.1 then
    { at_ := itemWord x, mask := BitVec.ofNat 32 (2 ^ (x.2.2 % 32)), value := BitVec.ofNat 32 (b2n (bit v 0) * 2 ^ (x.2.2 % 32)) }
  else { at_ := itemWord x, mask := BitVec.allOnes 32, value := v }

/-- A word stands under a force. -/
def State.forcedWord (s : State) (v : VarWord) : Bool := (s.forceOn v.area v.word).isSome

/-- Lands one word in the working copy: packet data are clean (R345). -/
def State.landWord (s : State) (w : LandWord) : State :=
  if w.mask = BitVec.allOnes 32 then s.putWork w.at_.area w.at_.word w.value false
  else s.each ((List.range 32).filter (bit w.mask)) fun s b => s.putWorkBit w.at_.area w.at_.word b (bit w.value b) false

/-- Puts a force on a word; other identities on the same word hold the same value. -/
def setForce (l : List Force) (f : Force) : List Force :=
  let l := l.map fun g => if g.area == f.area && g.offset == f.offset then { g with value := f.value } else g
  if l.any fun g => g.hash == f.hash && g.isBit == f.isBit && g.area == f.area && g.offset == f.offset then l else l ++ [f]

/-- Words under a force. -/
def forcedWords (l : List Force) : List (Area × Nat) := (l.map fun f => (f.area, f.offset)).dedup

/-- Replaces the force table, whose change goes into the ledger (R98). -/
def State.putForces (s : State) (l : List Force) : State :=
  { s with mram := { s.mram.wrote 0x104 with forces := l }, square := { s.square with forcesChanged := s.square.forcesChanged || l != s.mram.forces } }

/-- What one landing turns out to be when forces and releases take effect in the order of acceptance. -/
inductive Landed where
  | write
  | conflict
  | forced
  | released (n : Nat)
  deriving DecidableEq, Repr

/-- A landing in its turn (R51, R93, R97). -/
def State.landOne (s : State) (x : Landing) : State × Landed :=
  match x.kind with
  | .writeVars | .silent => (s, if x.words.any fun w => s.forcedWord w.at_ then .conflict else .write)
  | .forceSet l => (s.putForces (l.foldl setForce s.mram.forces), .forced)
  | .forceRelease l all =>
    let keep := s.mram.forces.filter fun f => !(all || l.any fun v => v.area == f.area && v.word == f.offset)
    (s.putForces keep, .released ((forcedWords s.mram.forces).length - (forcedWords keep).length))

/-- All landings in order, each with what became of it. -/
def State.landAll (s : State) : List Landing → State × List (Landing × Landed)
  | [] => (s, [])
  | x :: l =>
    let r := s.landOne x
    let q := r.1.landAll l
    (q.1, (x, r.2) :: q.2)

/-- The words that the writes of a list touch. -/
def writtenWords (l : List (Landing × Landed)) : List VarWord :=
  (l.filter fun x => x.2 == .write).flatMap fun x => x.1.words.map (·.at_)

/-- Writes what lands: of several writes to one word only the last accepted takes effect (R51). -/
def State.landWrites (s : State) : List (Landing × Landed) → State
  | [] => s
  | x :: l =>
    let later := writtenWords l
    (if x.2 == .write then s.each (x.1.words.filter fun w => !later.contains w.at_) State.landWord else s).landWrites l

/-- The answers after the landing commit (R50, R51, R97). -/
def State.landReplies (s : State) : List (Landing × Landed) → State
  | [] => s
  | x :: l =>
    let later := writtenWords l
    let s := if x.1.forwarded then s else match x.2, x.1.kind with
      | _, .silent => s
      | .conflict, _ => s.refuse x.1.ctx .forceConflict
      | .write, _ => s.refuse x.1.ctx (if x.1.words.any fun w => later.contains w.at_ then .superseded else .ok)
      | .forced, _ => s.ok x.1.ctx
      | .released n, _ => s.reply x.1.ctx .ok (toBe 2 n)
    s.landReplies l

/-- Every forced word of the copied areas takes its value in the working copy (R97). -/
def State.forceWorking (s : State) : State :=
  s.each (s.mram.forces.filter fun f => copied f.area f.offset) fun s f => s.putWork f.area f.offset f.value false

/-- Every forced word of the copied areas takes its value in both copies, so that every read from now on gives it (R97). -/
def State.forceCopies (s : State) : State :=
  s.each (s.mram.forces.filter fun f => copied f.area f.offset) fun s f => s.putBoth f.area f.offset f.value false

/-- Every forced word of I and of the input half of N takes its value in the frozen page (R97). -/
def State.forceFrozen (s : State) : State :=
  s.each (s.mram.forces.filter fun f => !copied f.area f.offset) fun s f => s.putWork f.area f.offset f.value false

/-! ## WRITE_VARS (R66, R93) -/

/-- Parses `n` pairs of a reference and its words; none where the payload does not hold them. -/
def splitWrites : Nat → List Byte → Option (List (List Byte × List Word))
  | 0, b => if b.isEmpty then some [] else none
  | n + 1, b =>
    let k := be16 b 2
    if b.length < 8 + 4 * k then none
    else match splitWrites n (b.drop (8 + 4 * k)) with
    | some l => some ((b.take 8, packWords k ((b.drop 8).take (4 * k))) :: l)
    | none => none

def writeVarsDesc : CmdDesc :=
  { code := 0x0301, roles := [.operate], kind := .change
    fits := fun b => 4 ≤ b.length && 1 ≤ be16 b 0 && be16 b 0 ≤ 32 && (splitWrites (be16 b 0) (b.drop 4)).isSome }

/-- Whether a command may write an item, or the status that refuses it (R93, R63, R252). -/
def State.writeRefusal (s : State) (x : Area × Bool × Nat) : Option Status :=
  match x.1 with
  | .K | .S | .Z => some .readOnly
  | .I | .E | .T | .C => some .outOfRange
  | .Q | .M | .D => none
  | .L => if 4096 ≤ x.2.2 then none else some .outOfRange
  | .N => if s.nWritable x.2.2 then none else some .outOfRange

/-- The words to write, or the first refusal. -/
def State.planWrites (s : State) : List (List Byte × List Word) → Except Status (List LandWord)
  | [] => .ok []
  | x :: l =>
    match s.parseRef x.1 0 with
    | none => .error .outOfRange
    | some r =>
      match (r.items.filterMap s.writeRefusal).head? with
      | some st => .error st
      | none =>
        match s.planWrites l with
        | .error e => .error e
        | .ok m => .ok ((List.range r.count).map (fun k => landItem (r.area, r.isBit, r.item k) (x.2.getD k 0)) ++ m)

def runWriteVars (c : Ctx) (b : List Byte) (s : State) : State :=
  match s.planWrites ((splitWrites (be16 b 0) (b.drop 4)).getD []) with
  | .error st => s.refuse c st
  | .ok l => s.postLanding { ctx := c, kind := .writeVars, words := l }

def execWriteVars (p : Packet) (s : State) : Out := s.command p writeVarsDesc runWriteVars

/-! ## Forces (R65, R96, R97, R430) -/

/-- The first item of a symbol, a bit or a word; its offset counts as that of a reference does (R63). -/
def Symbol.start (y : Symbol) : Nat := if !y.isBit && bitKind y.area then y.offset / 32 else y.offset

/-- An item, a bit or a word, is one of the symbol's. -/
def Symbol.holds (y : Symbol) (k : Nat) : Bool := y.start ≤ k && k < y.start + y.count

/-- The symbol of an image that covers an item: a bit of a bit symbol or of a word symbol, or a word of a word symbol. -/
def Symbol.covers (y : Symbol) (x : Area × Bool × Nat) : Bool :=
  y.area == x.1 && (if x.2.1 then y.holds (if y.isBit then x.2.2 else x.2.2 / 32) else !y.isBit && y.holds x.2.2)

/-- The symbol of the running image for an item (R96). -/
def State.symbolOf (s : State) (x : Area × Bool × Nat) : Option Symbol := s.image.symbols.find? (·.covers x)

/-- Areas whose words may be forced (R96). -/
def mayForce (x : Area × Bool × Nat) : Bool :=
  match x.1 with
  | .I | .Q | .M | .D | .N => true
  | .L => 4096 ≤ x.2.2
  | _ => false

/-- The forces that stand and those that are accepted and have not landed (R96). A FORCE_RELEASE that has not landed takes none away (DESIGN CHOICE,
log 116). -/
def State.plannedForces (s : State) : List Force :=
  s.square.landings.foldl (fun l x => match x.kind with
    | .forceSet m => m.foldl setForce l
    | _ => l) s.mram.forces

/-- The force for an item: a bit force holds its whole word, the other bits as they stand, or as a force holds them that has been accepted (log 8). `l`
are the forces already made. -/
def State.forceItem (s : State) (l : List Force) (x : Area × Bool × Nat) (v : Word) : Option Force :=
  (s.symbolOf x).map fun y =>
    let w := (itemWord x).word
    let now := match (s.plannedForces.foldl setForce [] ++ l).reverse.find? fun f => f.area == x.1 && f.offset == w with
      | some f => f.value
      | none => (s.varWord x.1 w).1
    { hash := y.hash, isBit := y.isBit, area := x.1, offset := w
      value := if x.2.1 then setBit now (x.2.2 % 32) (bit v 0) else v }

/-- The forces of a request, none where an item has no symbol. -/
def State.planForces (s : State) (l : List Force) : List ((Area × Bool × Nat) × Word) → Option (List Force)
  | [] => some l
  | x :: m =>
    match s.forceItem l x.1 x.2 with
    | none => none
    | some f => s.planForces (l ++ [f]) m

/-- A force or a release is accepted: it lands at the next commit (R97), in a synchronised pair on both modules at the one before the common boundary
(R98, R305; log 102). -/
def State.postForce (s : State) (c : Ctx) (k : LandKind) (chg : Change) : State :=
  if s.forwards then
    let b := s.changeBoundary
    (s.tellPartner chg b).postLanding { ctx := c, kind := k, words := [], due := some b }
  else s.postLanding { ctx := c, kind := k, words := [] }

/-- An identity is missing from an image (R96, R430). -/
def ImageDesc.lacks (d : ImageDesc) (f : Force) : Bool :=
  !(d.symbols.any fun y => y.hash == f.hash && y.isBit == f.isBit && y.area == f.area)

/-- The staged bank (R99): the one that does not run. While none runs it is the verified one, the other than the last that ran first. -/
def State.stagedNo (s : State) : Nat :=
  if s.loaded || (s.bank (1 - s.runBankNo)).state == .verified then 1 - s.runBankNo else s.runBankNo

def forceSetDesc : CmdDesc :=
  { code := 0x0205, roles := [.engineer], fits := fun b => 8 ≤ b.length && b.length == 8 + 4 * be16 b 2, kind := .change }

def runForceSet (c : Ctx) (b : List Byte) (s : State) : State :=
  match s.parseRef b 0 with
  | none => s.refuse c .outOfRange
  | some r =>
    if r.items.any fun x => !mayForce x then s.refuse c .outOfRange
    else match s.planForces [] (r.items.zip (packWords r.count (b.drop 8))) with
    | none => s.refuse c .badObject
    | some l =>
      let refused := match s.square.switch with
        | some w => !w.releaseForces && l.any (s.bank (b2n w.bank)).desc.lacks
        | none => false
      if refused then s.refuse c .wrongState
      else if 256 < (forcedWords (l.foldl setForce s.plannedForces)).length || (s.forwards && s.causewayLost) then s.replyBusy c true
      else s.postForce c (.forceSet l) (.forceSet l)

def execForceSet (p : Packet) (s : State) : Out := s.command p forceSetDesc runForceSet

def forceReleaseDesc : CmdDesc :=
  { code := 0x0206, roles := [.engineer], fits := fun b => b.length == 0 || b.length == 8, kind := .change }

def runForceRelease (c : Ctx) (b : List Byte) (s : State) : State :=
  if s.forwards && s.causewayLost then s.replyBusy c true
  else if b.isEmpty then s.postForce c (.forceRelease [] true) (.forceRelease [] true)
  else match s.parseRef b 0 with
  | none => s.refuse c .outOfRange
  | some r =>
    let l := r.items.map itemWord
    s.postForce c (.forceRelease l false) (.forceRelease (l.map fun w => (w.area, w.word)) false)

def execForceRelease (p : Packet) (s : State) : Out := s.command p forceReleaseDesc runForceRelease

/-! ## Subscriptions (R57, R66) -/

/-- Replaces the entry of a subscription. -/
def State.setSub (s : State) (k : Nat) (x : Option Subscription) : State :=
  { s with sup := { s.sup with subs := s.sup.subs.set none k x } }

def subscribeDesc : CmdDesc :=
  { code := 0x0302, roles := [.observe], fits := fun b => 8 ≤ b.length && b.length == 8 + 8 * be16 b 6, kind := .data }

/-- Opens a subscription, or renews the named one. A renewal with the same references keeps what was delivered. One of another origin is
answered BUSY (log 114). -/
def runSubscribe (c : Ctx) (b : List Byte) (s : State) : State :=
  let id := byteAt b 0
  let dec := be16 b 2
  let lease := be16 b 4
  match s.parseRefs (be16 b 6) (b.drop 8) with
  | none => s.refuse c .outOfRange
  | some l =>
    let items := l.flatMap VarRef.items
    let free := (List.range 64).find? fun k => (s.sup.subs.get none k).isNone
    if 64 < id then s.refuse c .badObject
    else if s.hidesTotals items then s.refuse c .pairStale
    else if dec = 0 || lease = 0 || 3600 < lease || 256 < items.length || items.isEmpty then s.refuse c .outOfRange
    else
      let make := fun (k : Nat) (s : State) =>
        let fresh : Subscription :=
          { ctx := c, words := items, decimate := dec, leaseEnd := s.now + lease * 1000000000, counted := 0
            delivered := items.map fun _ => none, full := true, due := false, snap := [], snapCycle := 0, skipped := 0 }
        let x := match s.sup.subs.get none k with
          | some o => if o.words == items then { o with ctx := c, decimate := dec, leaseEnd := fresh.leaseEnd } else fresh
          | none => fresh
        (s.setSub k (some x)).reply c .ok (toBe 1 (k + 1) ++ pad 1)
      if id = 0 then
        match free with
        | some k => make k s
        | none => s.replyBusy c true
      else match s.sup.subs.get none (id - 1) with
        | none => s.refuse c .badObject
        | some o => if o.ctx.origin == c.origin then make (id - 1) s else s.replyBusy c true

def execSubscribe (p : Packet) (s : State) : Out := s.command p subscribeDesc runSubscribe

def unsubscribeDesc : CmdDesc := { code := 0x0303, roles := [.observe], fits := exact 4, kind := .local_ }

/-- Ends a subscription, whichever origin opened it (log 114). -/
def runUnsubscribe (c : Ctx) (b : List Byte) (s : State) : State :=
  let id := byteAt b 0
  if id = 0 || 64 < id || (s.sup.subs.get none (id - 1)).isNone then s.refuse c .badObject
  else (s.setSub (id - 1) none).ok c

def execUnsubscribe (p : Packet) (s : State) : Out := s.command p unsubscribeDesc runUnsubscribe

/-- SUBSCRIPTION_LEASE_EXPIRY (R57). -/
def execSubscriptionLeaseExpiry (k : Fin 64) (s : State) : Out :=
  match s.sup.subs.get none k with
  | some x => if x.leaseEnd ≤ s.now then .next (s.setSub k none) else .next s
  | none => .next s

/-- The items of a subscription that differ from what was last delivered, by index. -/
def Subscription.delta (x : Subscription) : List Nat :=
  (List.range x.words.length).filter fun i => x.delivered.getD i none != some (x.snap.getD i (0, false)).1

/-- A subscription takes the values of the last committed cycle (R57), once none of its words stands on a page under repair (R343). The take waits as a
command's read does, named by the opcode of its notification. -/
def State.subTake (s : State) (marks : List Nat) (k : Nat) : State :=
  match s.sup.subs.get none k with
  | none => s
  | some x =>
    s.gateRead { x.ctx with opcode := 0x0380 } [BitVec.ofNat 8 k] 2 (s.itemWords x.words) marks fun bad t =>
      let r := t.deliverItems x.words bad
      let y := { x with snap := r.2, snapCycle := s.square.last }
      let due := x.full || !y.delta.isEmpty
      r.1.setSub k (some { y with due := due, skipped := if x.due && due then x.skipped + 1 else x.skipped })

/-- A take that waits for a page gives way to that of a later commit. -/
def State.dropTake (s : State) (k : Nat) : State :=
  { s with sup := { s.sup with stalled := s.sup.stalled.filter fun x => !(x.ctx.opcode == 0x0380 && byteAt x.body 0 == k) } }

/-- After a commit (R57): each DECIMATE-th one takes the values of that cycle; a notification still unsent is folded into it. -/
def State.subCommit (s : State) : State :=
  s.each (List.range 64) fun s k =>
    match s.sup.subs.get none k with
    | none => s
    | some x =>
      if x.counted + 1 < x.decimate then s.setSub k (some { x with counted := x.counted + 1 })
      else ((s.setSub k (some { x with counted := 0 })).dropTake k).subTake [] k

/-- Words that fit one SUB_DELTA packet of 1,400 bytes. -/
def deltaWords : Nat := 174

/-- SUB_DELTA (R57, R66), once there is a path for it; a STALE module publishes nothing (R53, R315): sends what differs, as many words as a packet holds; the rest of the same cycle follows. -/
def execSubDelta (k : Fin 64) (s : State) : Out :=
  match s.sup.subs.get none k with
  | none => .next s
  | some x =>
    if !x.due || !s.supAnswers || s.pathDown x.ctx.port || s.pair.state == .stale || s.hidesTotals x.words then .next s
    else
      let now := x.delta.take deltaWords
      let more := decide (deltaWords < x.delta.length)
      let pois := now.any fun i => (x.snap.getD i (0, false)).2
      let body := toBe 1 (k.val + 1) ++ toBe 1 (b2n x.full + 2 * b2n pois) ++ toBe 2 (min x.skipped 65535) ++ toBe 2 now.length ++ pad 2 ++
        now.flatMap fun i => toBe 2 i ++ pad 2 ++ wordBe (x.snap.getD i (0, false)).1
      let y := { x with due := more, full := x.full && more, skipped := if more then x.skipped else 0
                        delivered := (List.range x.words.length).map fun i =>
                          if now.contains i then some (x.snap.getD i (0, false)).1 else x.delivered.getD i none }
      let s := (s.setSub k (some y)).draw
      let p := s.packet x.ctx.port 16 0x0380 0 (Config.deltaSeq s.freeCount) x.ctx.origin 2 x.ctx.keyslot x.ctx.tagged x.snapCycle body
      .next (s.send { p with peer := x.ctx.peer })

end Sys2Proof.Machine
end

