-- ==== Sys2Proof/Machine/Loop.lean ====
section
/-! DEFINITION. The loop engine (chapter 06): the sample of a context, its states, its coefficients and their changes, the commands and
the base tick. -/

namespace Sys2Proof.Machine

open Sys2Proof

/-! ## Configuration (R177) -/

/-- Word `k` of context `n`. -/
def State.lw (s : State) (n k : Nat) : Word := s.cfg (0x300 + n) k

/-- SECTIONS, LAW, INT_SECTION, DIVIDER and PHASE. -/
def State.loopSections (s : State) (n : Nat) : Nat := bits (s.lw n 3) 31 28
def State.loopLaw (s : State) (n : Nat) : Nat := bits (s.lw n 0) 18 16
def State.loopInt (s : State) (n : Nat) : Nat := bits (s.lw n 3) 27 24
def State.loopDivider (s : State) (n : Nat) : Nat := bits (s.lw n 2) 31 16
def State.loopPhase (s : State) (n : Nat) : Nat := bits (s.lw n 2) 15 0

/-- The outer context of an inner one (R171). -/
def State.loopOuter (s : State) (n : Nat) : Option Nat :=
  if bits (s.lw n 0) 29 28 = 1 then some (bits (s.lw n 0) 15 8) else none

/-- Context `n` has a sample instant at tick `t` (R150). -/
def State.loopDue (s : State) (t n : Nat) : Bool :=
  s.loopSections n != 0 && t % s.loopDivider n == s.loopPhase n % s.loopDivider n

/-- The cascade level of a context: 0 for an outermost one (R151, R171: at most 4 levels). -/
def State.loopLevel (s : State) : Nat → Nat → Nat
  | 0, _ => 0
  | f + 1, n => match s.loopOuter n with | some o => s.loopLevel f o + 1 | none => 0

/-- The contexts due at a tick, outermost first, lowest number first within a level (R151). -/
def State.loopOrder (s : State) (t : Nat) : List Nat :=
  let due := (List.range 256).filter (s.loopDue t)
  (List.range 4).flatMap fun l => due.filter fun n => s.loopLevel 4 n == l

/-! ## Coefficients (R160, R164, R165, R173, R177) -/

/-- The key of a word of the coefficient block in MRAM. -/
def coeffKey (n i c : Nat) : Nat := n * 256 + 32 + 8 * i + c

/-- Coefficient `c` of section `i`, and its shift. -/
def State.coeff (s : State) (n i c : Nat) : Int := sInt (s.mram.coeffs.get 0 (coeffKey n i c))
def State.shift (s : State) (n i c : Nat) : Nat := bits (s.mram.coeffs.get 0 (coeffKey n i 5)) (24 - 5 * c) (20 - 5 * c)

/-- Writes a word of the coefficient block with its mark; a clean write clears one that stands in context RAM (R340, R345). -/
def State.putCoeffWord (s : State) (n i c : Nat) (w : Word) (p : Bool := false) : State :=
  let s := s.writeSpan 3 (4 * coeffKey n i c) 4
  { s with mram := { s.mram.wrote (0x300 + n) with coeffs := s.mram.coeffs.set 0 (coeffKey n i c) w }
           loop := { s.loop with ramPoison := s.loop.ramPoison.set false (coeffKey n i c) p } }

/-- Puts a shift of five bits into a SHIFTS word. -/
def putShift (w : Word) (c v : Nat) : Word :=
  BitVec.ofNat 32 (w.toNat - bits w (24 - 5 * c) (20 - 5 * c) * 2 ^ (20 - 5 * c) + v % 32 * 2 ^ (20 - 5 * c))

/-- Writes one coefficient with its shift. -/
def State.putCoeff (s : State) (n i c : Nat) (v : Word) (sh : Nat) : State :=
  let w := s.mram.coeffs.get 0 (coeffKey n i 5)
  (s.putCoeffWord n i c v).putCoeffWord n i 5 (putShift w c sh)

/-- Takes a staged set: six words a section (R173). The words of `bad`, by 8 × section + word, are poisoned, and their mark goes with them (R345, R346). -/
def State.putSet (s : State) (n : Nat) (l : List (List Word)) (bad : List Nat) : State :=
  s.each (List.range l.length) fun s i => s.each (List.range 6) fun s c =>
    s.putCoeffWord n i c ((l.getD i []).getD c 0) (bad.contains (8 * i + c))

/-- Loop context RAM from sub-index `k` of context `n` on takes clean words, which clear their marks (R340, R345, R346). -/
def State.cleanLoopRam (s : State) (n k count : Nat) : State :=
  let s := s.writeSpan 3 (4 * (n * 256 + k)) (4 * count)
  { s with loop := { s.loop with ramPoison := s.loop.ramPoison.clearRange (n * 256 + k) count } }

/-- A set is staged, in the words from 96 on of the context (R67, R173). -/
def State.putStaged (s : State) (n : Nat) (l : List (List Word)) : State :=
  (s.modLoopCtx n fun x => { x with staged := l }).cleanLoopRam n 96 (8 * l.length)

/-- The staged words of context `n`, as byte addresses of array 3. -/
def State.loopStaged (s : State) (n : Nat) : List Nat :=
  (List.range (s.loopCtx n).staged.length).flatMap fun i => (List.range 6).map fun c => 4 * (n * 256 + 96 + 8 * i + c)

/-- The poisoned words of a staged set, by 8 × section + word: those that hold stored poison, and those of `bad`, which a read delivers with a mark. -/
def State.stagedMarks (s : State) (n : Nat) (bad : List Nat) : List Nat :=
  ((s.loopStaged n).filter fun b => s.loop.ramPoison.get false (b / 4) || bad.contains b).map fun b => b / 4 - (n * 256 + 96)

/-! ## The sections (R159 to R164) -/

/-- The limit of the 72-bit accumulator. -/
def accMax : Int := 2 ^ 71 - 1

/-- A term or a sum of the accumulator saturates (R160). The rule gives the limits of a term; a sum takes the same ones, −(2^71 − 1) below
(DESIGN CHOICE, log 123). -/
def accSat (x : Int) : Int := clampInt (-accMax) accMax x

/-- The term c·v·2^(31−s). -/
def accTerm (c v : Int) (sh : Nat) : Int := accSat (c * v * 2 ^ (31 - sh))

/-- One native section (R160) with coefficient `c k` and shift `sh k`. -/
def sectionOut (c : Nat → Int) (sh : Nat → Nat) (h : Hist) (x : Int) : Int :=
  let a := accTerm (c 0) x (sh 0)
  let a := accSat (a + accTerm (c 1) h.x1 (sh 1))
  let a := accSat (a + accTerm (c 2) h.x2 (sh 2))
  let a := accSat (a - accTerm (c 3) h.y1 (sh 3))
  let a := accSat (a - accTerm (c 4) h.y2 (sh 4))
  sat32 (roundShift a 31)

/-- The LC-40 compensator (R164): the extra terms are those of the three-pole form. -/
def legacyOut (c d : Nat → Int) (three : Bool) (sh : Nat) (h : Hist) (x : Int) : Int :=
  let a := c 0 * x + c 1 * h.x1 + c 2 * h.x2 + c 3 * h.y1 + c 4 * h.y2
  let a := if three then a + d 0 * h.x3 + d 3 * h.y3 else a
  sat32 (a / 2 ^ sh)

/-- The history after a sample (R160, R164). -/
def Hist.push (h : Hist) (x y : Int) : Hist := { x1 := x, x2 := h.x1, x3 := h.x2, y1 := y, y2 := h.y1, y3 := h.y2 }

/-- How the integrating section is held back at a sample (R162, R163). -/
structure Hold where
  trip : Bool
  hi : Bool
  lo : Bool
  sign : Bool

/-- The limited output of the integrating section. -/
def Hold.limit (q : Hold) (y1 y : Int) : Int :=
  if q.trip then y1
  else
    let y := if (q.hi && !q.sign) || (q.lo && q.sign) then min y y1 else y
    if (q.hi && q.sign) || (q.lo && !q.sign) then max y y1 else y

/-- The output of section `i`, clamped and held back where it is the integrating one, and whether the limit acted (R161 to R163). The clamp comes
first: a y[n−1] outside a narrowed range is what a held section keeps (DESIGN CHOICE, log 124). -/
def State.sectionStep (s : State) (n i : Nat) (q : Hold) (h : Hist) (x : Int) : Int × Bool :=
  let y := if s.loopLaw n = 0 then sectionOut (s.coeff n i) (s.shift n i) h x
    else legacyOut (s.coeff n 0) (s.coeff n 1) (s.loopLaw n == 2) (bits (s.lw n 3) 4 0) h x
  if s.loopInt n = i then
    let y := clampInt (sInt (s.lw n 6)) (sInt (s.lw n 7)) y
    let z := q.limit h.y1 y
    (z, q.trip || z != y)
  else (y, false)

/-- The sections from `i` on: the cascade's output, the histories, whether the integrating section was held back. -/
def State.cascade (s : State) (n : Nat) (q : Hold) : Nat → Nat → Int → Tab Hist → Bool → Int × Tab Hist × Bool
  | 0, _, x, t, f => (x, t, f)
  | k + 1, i, x, t, f =>
    let h := t.get {} i
    let r := s.sectionStep n i q h x
    s.cascade n q k (i + 1) r.1 (t.set {} i (h.push x r.1)) (f || r.2)

/-- Sections the cascade computes: a legacy law is one compensator (R164). -/
def State.loopStages (s : State) (n : Nat) : Nat := if s.loopLaw n = 0 then s.loopSections n else 1

/-! ## Status (R157, R158) -/

/-- STATE of a context as a code. -/
def LoopState.code : LoopState → Nat
  | .off => 0
  | .ramp => 1
  | .run => 2
  | .windDown => 3

/-- The context status word. -/
def Loop.status (x : Loop) (n : Nat) : Word :=
  mkWord [(31, 29, x.state.code), (28, 28, b2n x.enablePending), (27, 27, b2n x.satHi), (26, 26, b2n x.satLo),
          (25, 25, b2n x.compliance), (24, 24, b2n x.tripHeld), (23, 23, b2n x.pvBad), (22, 22, b2n x.dataBad),
          (21, 21, b2n x.deviation), (20, 20, b2n x.intFrozen), (19, 19, b2n x.mixed), (18, 18, b2n (!x.staged.isEmpty)),
          (15, 8, x.queue.length), (7, 0, n)]

/-- Output words 0 to 6 of area L (R157). -/
def State.loopWords (s : State) (n : Nat) : List Word :=
  let x := s.loopCtx n
  let y1 := if s.loopInt n = 15 then 0 else (x.hist.get {} (s.loopInt n)).y1
  [x.status n, ofI x.pv, ofI x.sp, ofI x.out, ofI x.err, x.sample, ofI y1]

/-- The freeze of the output half of L (R90, R157): the words that are not 0 go into the cleared page. -/
def State.loopFreeze (s : State) : State :=
  match s.wordAddr .work .L 0 with
  | none => s
  | some a =>
    let l := (List.range 256).flatMap fun n =>
      ((s.loopWords n).zipIdx.filter fun (w : Word × Nat) => w.1 != 0).map fun (w : Word × Nat) => (a + 64 * n + 4 * w.2, w.1)
    { s with square := l.foldr (fun e q => q.put e.1 e.2 false) (s.square.clear a (kib 16)) }

/-- Entries `a` to `a + n − 1` of a table, from 0 on. -/
def Tab.slice {α : Type} (t : Tab α) (a n : Nat) : Tab α :=
  (t.filter fun e => decide (a ≤ e.1 ∧ e.1 < a + n)).map fun e => (e.1 - a, e.2)

/-- Apply: the engine receives the whole committed set-point half of L (R80, R90, R151). From the first apply on it samples (R179). -/
def State.loopApply (s : State) : State :=
  { s with loop := { s.loop with
      live := true, applied := Tab.slice s.square.mem (sqLSet + kib 16) (kib 16)
      appliedPoison := Tab.slice s.square.poison (sqLSet + kib 16) (kib 16) } }

/-- Word `k` of the set-point half as context `n` has it, with its mark. -/
def State.loopIn (s : State) (n k : Nat) : Word × Bool :=
  let q : Square := { mem := s.loop.applied, poison := s.loop.appliedPoison }
  (q.word (64 * n + 4 * k), q.poisoned (64 * n + 4 * k))

/-! ## Sources and sinks (R154 to R156) -/

/-- A remote word as last received in its station's input frame, and whether it is poisoned or the station's data are stale (R154, R170). -/
def State.remoteWord (s : State) (w : Nat) : Word × Bool :=
  let p := w / 8192
  let x := w / 256 % 32
  if 16384 ≤ w then s.sqWord .work .N w
  else
    let y := s.station p x
    let page := s.sqWord .work .N w
    if w % 256 < 4 then page
    else
      let j := w % 256 - 4
      let here := (List.range (s.stFrames p x 1)).findSome? fun k =>
        let span := frameSpan (s.stIn p x) k
        if span.1 ≤ j && j < span.1 + span.2 then
          ((y.arrived.find? (·.1 == k)).map fun e => beWord e.2.1 ((if k = 0 then 4 else 0) + 4 * (j - span.1)))
        else none
      (here.getD (y.words.get 0 j), y.stale || (here.isNone && page.2))

/-- The raw process variable, and whether it is bad (R154, R170). -/
def State.loopRaw (s : State) (n : Nat) : Int × Bool :=
  let r := bits (s.lw n 1) 15 0
  match bits (s.lw n 0) 31 30 with
  | 0 => let w := s.loopIn n 1; (sInt w.1, w.2)
  | 1 => ((s.uc r).value, s.ucStale r || (s.uc r).fault || ucMode (s.ucCfg r) == 0)
  | _ => let w := s.remoteWord r; (sInt w.1, w.2)

/-- PV (R155). -/
def State.loopPv (s : State) (n : Nat) (raw : Int) : Int :=
  sat32 (roundShift (raw * sInt (s.lw n 13)) (bits (s.lw n 12) 9 5) + sInt (s.lw n 14))

/-- The value for the sink of an output (R155), saturated to the sink's range. -/
def State.loopScaled (s : State) (n : Nat) (out : Int) : Int :=
  let v := sat32 (roundShift (out * sInt (s.lw n 15)) (bits (s.lw n 12) 4 0) + sInt (s.lw n 16))
  let k := s.loopSink n
  if k.1 = 1 then let r := ucRange (s.ucCfg k.2); clampInt r.1 r.2 v else v

/-- The sink of a context is a channel that Fire Lane holds, or that reports COMPLIANCE; on a standby neither counts (R162, R163,
R178). -/
def State.sinkTrip (s : State) (n : Nat) : Bool := let k := s.loopSink n; k.1 == 1 && !s.standby && (s.ucTrip k.2).isSome
def State.sinkCompliance (s : State) (n : Nat) : Bool := let k := s.loopSink n; k.1 == 1 && !s.standby && (s.uc k.2).compliance.set_

/-- The output of the last tick reaches a channel that is a sink (R151, R156); on a standby only its DAC, whose switch is open
(R178, R186). In STOP with STOP_ACTION = 1
the safe value stands before the engine's, which waits (R186 orders 3 and 4). So does a value while ANSEQ restarts in place (R185). -/
def State.loopDeliver (s : State) (n : Nat) : State :=
  let x := s.loopCtx n
  let k := s.loopSink n
  if s.stopSafe || (k.1 == 1 && !s.runs 7) then s
  else
    let s := s.setLoopCtx n { x with sinkNew := false }
    if k.1 = 1 && x.ran && ucOutput (ucMode (s.ucCfg k.2)) then
      (s.modUc k.2 fun u => { u with selected := x.sink, poison := false, await_ := false }).ucRefresh k.2
    else s

/-! ## The sample of a context (R151, R166 to R173) -/

/-- A rise of a flag, or a change of STATE, of context `n`: its source, and its record (R180). -/
def State.loopEvent (s : State) (n : Nat) (rise : Bool) (k : Option RecKind) : State :=
  if !rise then s
  else
    let s := s.fireSource (280 + bits (s.lw n 0) 23 19)
    match k with
    | some r => s.raise r (mkWord [(15, 8, n)])
    | none => s

/-- A coefficient change that lands at sample `k` of context `n` (R172, R173): written to MRAM, recorded and answered. A set
staged after a LOOP_COMMIT stays staged at its landing, but one equal to the committed set is emptied with it (DESIGN CHOICE, log 146). -/
def State.loopLand (s : State) (n : Nat) (k : BitVec 32) : State :=
  let x := s.loopCtx n
  match x.queue with
  | [] => s
  | q :: rest =>
    if (k - q.sample).msb then s
    else
      let s := match q.set_ with
        | some l => s.putSet n l (q.marks ++ if q.set_ = some x.staged then s.stagedMarks n [] else [])
        | none => s.putCoeff n q.section_ q.coeff q.value q.shift
      let x := { x with queue := rest, staged := if q.set_ = some x.staged then [] else x.staged
                        mixed := if rest.isEmpty then false else q.set_.isNone || x.mixed
                        late := if q.reply.isNone && q.sample != k then satInc x.late else x.late }
      let s := (s.setLoopCtx n x).raise .loopCoeffChanged
        (mkWord [(15, 8, n), (7, 4, if q.set_.isSome then 0 else q.section_), (3, 0, if q.set_.isSome then 15 else q.coeff)])
      match q.reply with
      | some c => s.reply c .ok (toBe 4 k.toNat)
      | none => s

/-- SAMPLE of a mirrored context at tick `t`: that of the ledger with the sample instants since its tick, so that it goes on agreeing with the
active's (R150, R178; log 108). -/
def State.mirrorSample (s : State) (t n : Nat) (w : Word) : BitVec 32 :=
  let t0 := t - (BitVec.ofNat 32 t - s.loop.mirrorTick).toNat
  w + BitVec.ofNat 32 ((List.range (t - t0)).filter fun k => s.loopDue (t0 + 1 + k) n).length

/-- The words of the ledger that a standby writes into its context at a sample (R178). -/
def State.loopMirror (s : State) (t n : Nat) : State :=
  match s.loop.mirror.find? (·.ctx.val == n) with
  | none => s
  | some m =>
    let w := fun k => m.words.getD k 0
    let v := fun k => sInt (w k)
    let st : LoopState := match bits (w 0) 31 29 with | 1 => .ramp | 2 => .run | 3 => .windDown | _ => .off
    let h : Hist := if s.loopLaw n = 2 then { x1 := v 4, x2 := v 5, x3 := v 6, y1 := v 7, y2 := v 8, y3 := v 9 }
      else { x1 := v 4, x2 := v 5, y1 := v 6, y2 := v 7 }
    let s := { s with loop := { s.loop with mirror := s.loop.mirror.filter fun q => q.ctx.val != n } }
    let s := (if s.loopInt n = 15 then s else s.cleanLoopRam n (160 + 4 * s.loopInt n) 4).cleanLoopRam n 196 1
    let x := s.loopCtx n
    s.setLoopCtx n
      { x with sample := s.mirrorSample t n (w 1), state := st, enablePending := bit (w 0) 28, satHi := bit (w 0) 27, satLo := bit (w 0) 26, pvBad := bit (w 0) 23
               dataBad := bit (w 0) 22, deviation := bit (w 0) 21, intFrozen := bit (w 0) 20, sp := v 2, out := v 3
               devCount := (w 10).toNat, hist := if s.loopInt n = 15 then x.hist else x.hist.set {} (s.loopInt n) h }

/-- `x` moved toward `t` by at most `r`; by any amount when `free` (R168, R169). -/
def approach (x t : Int) (r : Nat) (free : Bool) : Int :=
  if free then t else if x < t then min t (sat32 (x + r)) else max t (sat32 (x - r))

/-- The histories on entry to RAMP (R167). The output that the sink held at entry is taken to be the context's OUT: 0 at a first sample after a start, and
not the trip value where Fire Lane holds the sink (DESIGN CHOICE, log 144). -/
def State.rampHist (s : State) (n : Nat) (out : Int) : Tab Hist :=
  if bit (s.lw n 3) 19 && s.loopInt n < s.loopStages n then
    let v := clampInt (sInt (s.lw n 6)) (sInt (s.lw n 7)) out
    (List.range (s.loopStages n)).foldl (fun (t : Tab Hist) i =>
      if s.loopInt n ≤ i then t.set {} i { y1 := v, y2 := v, y3 := if s.loopLaw n = 2 then v else 0 } else t) []
  else []

/-- The output in OFF (R169). -/
def State.offOut (s : State) (n : Nat) (out : Int) : Int :=
  let v := match bits (s.lw n 3) 22 21 with
    | 0 => sInt (s.lw n 10)
    | 1 => out
    | _ => let t := s.loopIn n 3; if t.2 then out else sInt t.1
  clampInt (sInt (s.lw n 4)) (sInt (s.lw n 5)) v

/-- ERROR of a set-point and a process variable (R159). -/
def State.loopError (s : State) (n : Nat) (sp pv : Int) : Int := sat32 (if bit (s.lw n 0) 25 then pv - sp else sp - pv)

/-- The cascade at a sample with set-point `sp` (R159 to R163). -/
def State.loopCompute (s : State) (n : Nat) (x : Loop) (sp pv : Int) (trip comp : Bool) : Loop :=
  let e := s.loopError n sp pv
  let q : Hold := { trip := trip, hi := x.satHi, lo := x.satLo, sign := bit (s.lw n 3) 23 }
  let r := s.cascade n q (s.loopStages n) 0 e x.hist false
  let lo := sInt (s.lw n 4)
  let hi := sInt (s.lw n 5)
  let g := sInt (s.lw n 15)
  let lim := (s.lw n 11).toNat
  let wide := x.state == .run && lim != 0 && lim < e.natAbs
  let cnt := if wide then min (x.devCount + 1) 65535 else 0
  { x with sp := sp, err := e, hist := r.2.1, intFrozen := r.2.2, out := min (max r.1 lo) hi
           satHi := hi < r.1 || (comp && 0 < g), satLo := r.1 < lo || (comp && g < 0)
           devCount := cnt, deviation := wide && bits (s.lw n 12) 31 16 ≤ cnt }

/-- A step of WIND_DOWN (R169). -/
def State.windStep (s : State) (n : Nat) (x : Loop) (entry : Bool) : Loop :=
  let x := { x with intFrozen := false, deviation := false, devCount := 0 }
  match bits (s.lw n 3) 22 21 with
  | 0 =>
    let goal := s.offOut n x.out
    let o := clampInt (sInt (s.lw n 4)) (sInt (s.lw n 5)) (approach x.out goal (s.lw n 9).toNat (s.lw n 9 == 0))
    { x with out := o, state := if o = goal then .off else .windDown }
  | _ => { x with out := s.offOut n x.out, state := if entry then .windDown else .off }

/-- Transitions and output of a context that does not hold (R166 to R169). With RAMP_RATE = 0 the entry sample is the first sample of R168: SP_EFF is the
target there, and RUN follows at the next sample (DESIGN CHOICE, log 145). -/
def State.loopAct (s : State) (n : Nat) (x : Loop) (pv target : Int) (trip comp : Bool) : Loop :=
  let rate := (s.lw n 8).toNat
  match x.state with
  | .off =>
    if x.enable then
      let sp := if rate = 0 then target else pv
      s.loopCompute n { x with state := .ramp, enablePending := false, hist := s.rampHist n x.out } sp pv trip comp
    else { x with enablePending := false, out := s.offOut n x.out }
  | .ramp =>
    if x.enable then
      let sp := approach x.sp target rate (rate == 0)
      s.loopCompute n { x with state := if sp = target then .run else .ramp } sp pv trip comp
    else s.windStep n { x with state := .windDown } true
  | .run =>
    if x.enable then
      let sp := if bit (s.lw n 3) 20 then approach x.sp target rate (rate == 0) else target
      s.loopCompute n x sp pv trip comp
    else s.windStep n { x with state := .windDown } true
  | .windDown => s.windStep n { x with enablePending := x.enable } false

/-- Poisoned words of loop context RAM among the sub-indices of a list. -/
def State.loopRamBad (s : State) (n : Nat) (l : List Nat) : Bool := l.any fun k => s.loop.ramPoison.get false (n * 256 + k)

/-- Sub-indices of the coefficients and histories of the sections in use. -/
def State.usedSubs (s : State) (n : Nat) : List Nat :=
  (List.range (s.loopSections n)).flatMap fun i => (List.range 6).map (fun c => 32 + 8 * i + c) ++ (List.range 4).map fun k => 160 + 4 * i + k

/-- A sample at which the cascade is not computed is saturated by COMPLIANCE alone, and holds no section back (R158, R162; logs 106 and 125). -/
def State.satIdle (s : State) (n : Nat) (comp : Bool) (x : Loop) : Loop :=
  let g := sInt (s.lw n 15)
  { x with satHi := comp && 0 < g, satLo := comp && g < 0, intFrozen := false }

/-- The cascade is computed at a sample that ends in this state (R169). -/
def LoopState.computes : LoopState → Bool
  | .ramp | .run => true
  | .off | .windDown => false

/-- One sample of context `n` at tick `t` (R151): the change that lands, the newest applied words, the transitions, the output. ERROR is that of
SP_EFF and PV as the sample leaves them (R157). While Fire Lane holds the sink, INT_FROZEN is set in every state (R163; DEDUCED, log 125). -/
def State.loopSample (s : State) (t n : Nat) : State :=
  let was := s.loopCtx n
  let s := (s.modLoopCtx n fun x => { x with sample := x.sample + 1 }).loopMirror t n
  let s := s.loopLand n (s.loopCtx n).sample
  let old := s.loopCtx n
  let raw := s.loopRaw n
  let pv := s.loopPv n raw.1
  let outer := s.loopOuter n
  let latch := match outer with | some o => s.loopDue t o | none => false
  let o := outer.getD 0
  let target := if outer.isSome then (if latch then (s.loopCtx o).out else old.target) else sInt (s.loopIn n 0).1
  let cmd := s.loopIn n 2
  let outBad := latch && s.loopRamBad o [196]
  let spBad := (outer.isNone && (s.loopIn n 0).2) || outBad || s.loopRamBad n (s.usedSubs n)
  let trackBad := old.state != .run && old.state != .ramp && bits (s.lw n 3) 22 21 == 2 && (s.loopIn n 3).2
  let trip := s.sinkTrip n
  let comp := s.sinkCompliance n
  let x := { old with pvBad := raw.2, dataBad := spBad || cmd.2 || trackBad, tripHeld := trip, compliance := comp
                      enable := if cmd.2 then old.enable else bit cmd.1 0 }
  let x := { x with pv := pv, target := if outBad then old.target else target }
  let x := if raw.2 || spBad then s.satIdle n comp x
    else
      let y := s.loopAct n x pv target trip comp
      if y.state.computes then y else s.satIdle n comp y
  let x := { x with sink := s.loopScaled n x.out, sinkNew := true, ran := true, err := s.loopError n x.sp x.pv, intFrozen := x.intFrozen || trip }
  let s := s.setLoopCtx n x
  let s := { s with loop := { s.loop with
    ramPoison := if raw.2 || spBad then s.loop.ramPoison else s.loop.ramPoison.set false (n * 256 + 196) false } }
  let s := s.loopEvent n (x.state != was.state) none
  let s := s.loopEvent n (x.pvBad && !was.pvBad) (some .loopPvBad)
  let s := s.loopEvent n (x.dataBad && !was.dataBad) (some .loopDataBad)
  let s := s.loopEvent n (x.deviation && !was.deviation) (some .loopDeviation)
  s.loopEvent n (x.tripHeld && !was.tripHeld) none

/-- A sample with what the engine's reads of loop context RAM find (R341, R343): a word found uncorrectable is poisoned to this sample, and its page
is repaired. Context n holds the n-th KiB of the array, by sub-index (log 65). -/
def State.loopRead (s : State) (t n : Nat) : State :=
  let bad := (s.badWords 3 (n * 1024) 1024).map (· / 4)
  let mark := fun (s : State) (p : Bool) => { s with loop := { s.loop with ramPoison := bad.foldl (fun (r : Tab Bool) k => r.set false k p) s.loop.ramPoison } }
  mark ((mark (s.readSpan 3 (n * 1024) 1024) true).loopSample t n) false

/-- A page of context RAM that context `n` reads is under repair (R343). -/
def State.loopHeld (s : State) (n : Nat) : Bool := s.spanLocked 3 (n * 1024) 1024

/-- Samples in their order. One that reads a page under repair waits for it, and those after it wait with it (R151, R343). -/
def State.loopRun (s : State) : List (Nat × Nat) → State
  | [] => { s with loop := { s.loop with waiting := [] } }
  | e :: l => if s.loopHeld e.2 then { s with loop := { s.loop with waiting := e :: l } } else (s.loopRead e.1 e.2).loopRun l

/-- A sample that a restart of LOOP does not run (R179). -/
def State.loopMiss (s : State) (n : Nat) : State :=
  s.modLoopCtx n fun x => { x with sample := x.sample + 1, missed := satInc x.missed }

/-- A sample instant of a standby whose engine does not sample yet: SAMPLE goes on agreeing with the active's (R150). -/
def State.loopCount (s : State) (n : Nat) : State := s.modLoopCtx n fun x => { x with sample := x.sample + 1 }

/-- The next base tick is due: 10 µs after the last one, or when module time has been set back (R150, R390). -/
def State.tickDue (s : State) : Bool := s.service == .full && s.dueEvery s.loop.tickAt 10000

/-- The base tick counter counts. Ticks stand at the multiples of 10 µs of module time, to which the start of full service aligns them (R150). -/
def State.beginTick (s : State) : State :=
  let at_ := match s.loop.tickAt with
    | some t => if t + 10000 ≤ s.now then t + 10000 else s.now / 10000 * 10000
    | none => s.now / 10000 * 10000
  { s with loop := { s.loop with tick := s.loop.tick + 1, tickAt := some at_ } }

/-- LOOP_BASE_TICK (R150, R151): outputs of the last tick reach their sinks, then every context that is due samples. -/
def execLoopBaseTick (s : State) : Out :=
  if !s.tickDue then .next s
  else
    let s := s.beginTick
    let t := s.loop.tick
    if !s.loop.live then .next (if s.standby && s.pair.snapshot then s.each (s.loopOrder t) State.loopCount else s)
    else if !s.runs 4 then .next (s.each (s.loopOrder t) State.loopMiss)
    else
      let s := s.each ((List.range 256).filter fun n => (s.loopCtx n).sinkNew) State.loopDeliver
      .next (s.loopRun (s.loop.waiting ++ (s.loopOrder t).map fun n => (t, n)))

/-- The start of full service: the tick counter aligned to module time, every context OFF and empty (R150, R177, R179). -/
def State.loopFullService (s : State) : State := { s with loop := { tick := s.now / 10000, tickAt := some (s.now / 10000 * 10000) } }

/-- An in-place restart of LOOP: samples that wait are missed, queued changes are discarded and answered BUSY (R179). -/
def State.loopIslandRestart (s : State) : State :=
  let s := { s with loop := { s.loop with waiting := [] } }.each (s.loop.waiting.map fun (e : Nat × Nat) => e.2) State.loopMiss
  s.each (List.range 256) fun s n =>
    let x := s.loopCtx n
    if x.queue.isEmpty then s
    else
      let s := s.each (x.queue.filterMap (·.reply)) fun s c => s.replyBusy c true
      s.setLoopCtx n { x with queue := [], mixed := false }

/-! ## Commands (R67) -/

/-- The number of the first sample at or after tick `t0 + 1` that can take a new change of context `n`; in an active module the tick begins
at least 100 µs after the present instant, which lies within its own (R172, R174). -/
def State.landingSample (s : State) (n : Nat) : BitVec 32 :=
  let t := s.loop.tick + 1
  let d := max 1 (s.loopDivider n)
  let first := t + (s.loopPhase n + d - t % d) % d
  let wait := if s.forwards then t + 10 - first else 0
  let k := (s.loopCtx n).sample + 1 + BitVec.ofNat 32 ((wait + d - 1) / d)
  match (s.loopCtx n).queue.getLast? with
  | some q => if (q.sample - k).msb then k else q.sample + 1
  | none => k

/-- Queues a change; a ninth is answered BUSY, and every one while LOOP restarts (R172, R179). -/
def State.queueLoop (s : State) (c : Ctx) (n : Nat) (q : LoopChange) (tell : BitVec 32 → Change) : State :=
  if 8 ≤ (s.loopCtx n).queue.length || s.down 4 || (s.forwards && s.causewayLost) then s.replyBusy c true
  else
    let k := s.landingSample n
    (s.modLoopCtx n fun x => { x with queue := x.queue ++ [{ q with sample := k, reply := some c }] }).tellStandby (tell k)

/-- The write of ENABLE of CMD by a command (R166). -/
def cmdWrite (n : Nat) (on : Bool) : LandWord :=
  { at_ := { area := .L, word := 4096 + 16 * n + 2 }, mask := 1, value := BitVec.ofNat 32 (b2n on) }

def loopEnableDesc : CmdDesc := { code := 0x0400, roles := [.operate], fits := exact 4, kind := .change }

/-- LOOP_ENABLE (R166, R52): in WIND_DOWN the enable waits, and no second reply follows. -/
def runLoopEnable (c : Ctx) (b : List Byte) (s : State) : State :=
  let n := be16 b 0
  if 255 < n then s.refuse c .badObject
  else if (s.loopCtx n).state == .windDown then
    if s.forcedWord (cmdWrite n true).at_ then s.refuse c .forceConflict
    else (s.refuse c .acceptedDeferred).postLanding { ctx := c, kind := .silent, words := [cmdWrite n true] }
  else s.postLanding { ctx := c, kind := .writeVars, words := [cmdWrite n true] }

def execLoopEnable (p : Packet) (s : State) : Out := s.command p loopEnableDesc runLoopEnable

def loopDisableDesc : CmdDesc := { code := 0x0401, roles := [.operate], fits := exact 4, kind := .change }

def runLoopDisable (c : Ctx) (b : List Byte) (s : State) : State :=
  let n := be16 b 0
  if 255 < n then s.refuse c .badObject else s.postLanding { ctx := c, kind := .writeVars, words := [cmdWrite n false] }

/-- LOOP_DISABLE (R166). -/
def execLoopDisable (p : Packet) (s : State) : Out := s.command p loopDisableDesc runLoopDisable

/-- A coefficient position that a law has (R165). -/
def legacyPosition (law i c : Nat) : Bool := i == 0 || (law == 2 && i == 1 && (c == 0 || c == 3))

def loopWriteCoeffDesc : CmdDesc := { code := 0x0402, roles := [.engineer], fits := exact 12, kind := .change }

/-- LOOP_WRITE_COEFF (R172, R165): answered at the landing with SAMPLE. -/
def runLoopWriteCoeff (c : Ctx) (b : List Byte) (s : State) : State :=
  let n := be16 b 0
  let i := byteAt b 2
  let k := byteAt b 3
  let v := beWord b 4
  let sh := byteAt b 8
  let law := s.loopLaw n
  if 255 < n || 7 < i || 4 < k || (law != 0 && !legacyPosition law i k) then s.refuse c .badObject
  else if 31 < sh || (law != 0 && sh != 0) then s.refuse c .outOfRange
  else s.queueLoop c n { set_ := none, section_ := i, coeff := k, value := v, shift := sh, sample := 0, reply := none } fun q =>
    .coeff (BitVec.ofNat 8 n).toFin (BitVec.ofNat 3 i).toFin (if k = 0 then 0 else if k = 1 then 1 else if k = 2 then 2 else if k = 3 then 3 else 4) v
      (BitVec.ofNat 5 sh) q

def execLoopWriteCoeff (p : Packet) (s : State) : Out := s.command p loopWriteCoeffDesc runLoopWriteCoeff

/-- One section of a staged set: five values, and the shifts as the SHIFTS word (R67, R177). -/
def stagedSection (b : List Byte) : List Word :=
  (List.range 5).map (fun k => beWord b (4 * k)) ++
    [mkWord [(24, 20, byteAt b 20), (19, 15, byteAt b 21), (14, 10, byteAt b 22), (9, 5, byteAt b 23), (4, 0, byteAt b 24)]]

def loopStageDesc : CmdDesc :=
  { code := 0x0403, roles := [.engineer], fits := fun b => 4 ≤ b.length && b.length == 4 + 28 * byteAt b 2, kind := .change }

/-- LOOP_STAGE (R173, R165). -/
def runLoopStage (c : Ctx) (b : List Byte) (s : State) : State :=
  let n := be16 b 0
  let k := byteAt b 2
  if 255 < n then s.refuse c .badObject
  else if k < 1 || 8 < k then s.refuse c .outOfRange
  else if s.loopLaw n != 0 then s.refuse c .wrongState
  else if s.loopSections n < k || (List.range k).any (fun i => (List.range 5).any fun j => 31 < byteAt b (4 + 28 * i + 20 + j)) then
    s.refuse c .outOfRange
  else if s.forwards && s.causewayLost then s.replyBusy c true
  else
    let l := (List.range k).map fun i => stagedSection ((b.drop (4 + 28 * i)).take 28)
    (((s.putStaged n l).tellStandby (.stage (BitVec.ofNat 8 n).toFin l))).ok c

def execLoopStage (p : Packet) (s : State) : Out := s.command p loopStageDesc runLoopStage

def loopCommitDesc : CmdDesc := { code := 0x0404, roles := [.engineer], fits := exact 4, kind := .change }

/-- LOOP_COMMIT (R173): answered at the landing with SAMPLE. It reads the staged words, whose marks the set takes along (R341, R345); `marks` are the
words that it has been given with a mark while others waited (R343). -/
def loopCommitFrom (marks : List Nat) (c : Ctx) (b : List Byte) (s : State) : State :=
  let n := be16 b 0
  let x := s.loopCtx n
  if 255 < n then s.refuse c .badObject
  else if s.loopLaw n != 0 || x.staged.isEmpty then s.refuse c .wrongState
  else s.gateRead c b 3 (s.loopStaged n) marks fun bad s =>
    s.queueLoop c n { set_ := some x.staged, section_ := 0, coeff := 0, value := 0, shift := 0, sample := 0, reply := none, marks := s.stagedMarks n bad } fun q =>
      .commit (BitVec.ofNat 8 n).toFin q

def runLoopCommit : Ctx → List Byte → State → State := loopCommitFrom []

def execLoopCommit (p : Packet) (s : State) : Out := s.command p loopCommitDesc runLoopCommit

def loopReadDesc : CmdDesc := { code := 0x0405, roles := [.observe], fits := exact 4, kind := .data }

/-- LOOP_READ (R67, R177): from L, consistent with one committed cycle; `marks` are the words that it has been given with a mark (R343). -/
def loopReadFrom (marks : List Nat) (c : Ctx) (b : List Byte) (s : State) : State :=
  let n := be16 b 0
  if 255 < n then s.refuse c .badObject
  else
    s.gateWords c b ((List.range 4).map fun k => (.L, 16 * n + k)) marks fun l t =>
      let w := fun k => l.getD k (0, false)
      t.replyData c [] [(mkWord [(31, 24, bits (w 0).1 31 29)], (w 0).2), w 1, w 2, w 3]

def runLoopRead : Ctx → List Byte → State → State := loopReadFrom []

def execLoopRead (p : Packet) (s : State) : Out := s.command p loopReadDesc runLoopRead

/-- A change that reached the standby (R174): queued for its SAMPLE, taken at the next sample when that has passed. -/
def State.loopForwarded (s : State) (n : Nat) (q : LoopChange) : State := s.modLoopCtx n fun x => { x with queue := x.queue ++ [q] }

end Sys2Proof.Machine
end

