-- ==== Sys2Proof/Machine/Pair.lean ====
section
/-! DEFINITION. The pair (chapter 11): the claim interlock and the holds, pair states, heartbeats, takeover and planned handover, the
mirror ledger, and rehearsal. -/

namespace Sys2Proof.Machine

open Sys2Proof

/-! ## States and epoch (R297, R298, R314) -/

/-- The code of a pair state (R297). -/
def PairState.code : PairState → Nat
  | .solo => 0
  | .syncing => 1
  | .sync => 2
  | .active => 3
  | .alone => 4
  | .stale => 5
  | .faulted => 6

/-- A change of pair state: the record and source 400 (R298). The totals of a module that goes STALE are its own again (R315). -/
def State.enterPair (s : State) (x : PairState) : State :=
  if s.pair.state == x then s
  else
    let old := s.pair.state
    ({ s with pair := { s.pair with state := x, adopted := s.pair.adopted && x != PairState.stale } }.fireSource 400).raise .pairStateChanged (mkWord [(15, 8, old.code), (7, 0, x.code)])

/-- The epoch takes a value; each change fires source 403 (R314). -/
def State.setEpoch (s : State) (e : BitVec 32) : State :=
  if s.mram.epoch == e then s else { s with mram := { s.mram.wrote 0x601 with epoch := e } }.fireSource 403

/-- The epoch is raised by one, at a takeover, a handover, a claim at start-up and a completed resynchronisation (R314). -/
def State.raiseEpoch (s : State) : State := s.setEpoch (s.mram.epoch + 1)

/-- LONE_START, AUTO_RESYNC, HOLD_MS, DISCOVERY_MS, DIV_ALARM, SYNC_HOLD_MS and SETTLE_CYCLES (R318). -/
def State.loneStart (s : State) : Bool := bit (s.cfg 0x600 0) 30
def State.autoResync (s : State) : Bool := bit (s.cfg 0x600 0) 29
def State.holdNs (s : State) : Nat := bits (s.cfg 0x600 0) 15 0 * 1000000
def State.discoveryNs (s : State) : Nat := bits (s.cfg 0x600 1) 31 16 * 1000000
def State.divAlarm (s : State) : Nat := bits (s.cfg 0x600 1) 15 0
def State.syncHoldNs (s : State) : Nat := bits (s.cfg 0x600 2) 31 16 * 1000000
def State.settleCycles (s : State) : Nat := bits (s.cfg 0x600 2) 15 0

/-! ## Holds and the claim (R186 order 2, R208, R229, R294) -/

/-- The universal channels in an output mode. -/
def State.ucOutputs (s : State) : List Nat := (List.range 32).filter fun n => ucOutput (ucMode (s.ucCfg n))

/-- Every output is driven anew by what now applies to it. -/
def State.outputsAnew (s : State) : State := s.doRefreshAll.each s.ucOutputs State.ucRefresh

/-- The claim of a module whose drivers were enabled falls: every output holds the state driven at that moment, a trip state under TRIP_CUT
until the partner's claim releases it (R229, R285, R307). -/
def State.holdOutputs (s : State) : State :=
  let cut := s.lineCut
  let s := s.each (List.range 32) fun s n =>
    if (s.doGroup (n / 8)).lost then s else s.modDo n fun d => { d with held := true, heldState := d.driven }
  s.each s.ucOutputs fun s n => s.modUc n fun u => if u.drives then
    { u with held := some (u.level s.now), heldTrip := cut && (s.outSlotOf 2 n).isSome
             heldRead := if u.readback.set_ || 0 < u.readback.seen then none else some false } else u

/-- IOUT and IOUT_HART: a current changes hands by ramps (R208). -/
def State.ucCurrentOut (s : State) (n : Nat) : Bool := ucMode (s.ucCfg n) == 0x0C || ucMode (s.ucCfg n) == 0x0D

/-- The held current of an outgoing module falls to 0 from the rise of the partner's claim on (R208, R308). -/
def State.rampDown (s : State) (n : Nat) : State :=
  if !(s.pair.claimPartner && s.ucCurrentOut n) then s
  else s.modUc n fun u => { u with leaving := u.held.map fun v => (v, s.now) }

/-- The current of an incoming module rises from 0 from the rise of its own claim on (R208, R308); one that its own hold still gives goes on. -/
def State.rampUp (s : State) (n : Nat) : State :=
  if s.ucCurrentOut n && (s.uc n).held.isNone then s.modUc n fun u => { u with rampAt := some s.now, leaving := none } else s

/-- The holds are released (R208, R229, R308): a held current ramps down, and each output is driven by what now applies to it. -/
def State.releaseHolds (s : State) : State :=
  let s := s.each (List.range 32) State.rampDown
  let s := { s with pair := { s.pair with holdUntil := none } }
  let s := s.each (List.range 32) fun s n => s.modDo n fun d => { d with held := false }
  (s.each (List.range 32) fun s n => s.modUc n fun u => { u with held := none, heldTrip := false }).outputsAnew

/-- The claim falls: the drivers are disabled and, where they were enabled, every output holds (R294, R307 step 1). -/
def State.dropClaim (s : State) : State :=
  if !s.pair.claimOwn then s
  else
    let was := s.pair.drivers
    let s := if was then s.holdOutputs else s
    let s := { s with pair := { s.pair with claimOwn := false, drivers := false, ownFellAt := some s.now, ownLineBad := false
                                            holdUntil := if was then some (s.now + s.holdNs) else s.pair.holdUntil } }
    s.outputsAnew

/-- The partner's claim has been sensed deasserted for 50 µs without a break (R294). -/
def State.claimFree (s : State) : Bool := !s.pair.claimPartner && decide (s.pair.partnerEdgeAt + 50000 ≤ s.now)

/-- A channel whose excitation an incoming module turns on: STALE until its first settled conversion (R208, R308). -/
def State.ucExcite (s : State) (n : Nat) : State :=
  let u := s.uc n
  if (ucMode (s.ucCfg n) == 8 || ucMode (s.ucCfg n) == 9) && (u.state == .run || u.state == .settling) then
    s.setUc n { u with state := .settling, settleLeft := settleCount (ucRate (s.ucCfg n)), stale := true }
  else s

/-- The module asserts its claim while it senses the partner's deasserted; the interlock enables the drivers when that has been so for
50 µs (R294). At this rise each function changes hands (R308): outputs are enabled at what the ledgers last gave them, currents ramp up, own holds give
way to the drivers, and each channel changes to its active column (R208); the scans and the CAN ports start with the role (R271). -/
def State.riseClaim (s : State) : State :=
  if s.pair.claimOwn || s.pair.claimPartner then s
  else
    let s := { s with pair := { s.pair with claimOwn := true, drivers := s.claimFree, ownRoseAt := s.now, ownFellAt := none, ownLineBad := false } }
    ((s.each (List.range 32) State.rampUp).releaseHolds).each (List.range 32) State.ucExcite

/-- The HART masters of a module that has become active start with their scans (R203, R208, R308). -/
def State.startScans (s : State) : State := s.each (List.range 32) State.startScan

/-- HOLD_WINDOW_EXPIRY (R229, R208, R309): a hold that nothing has released drives its safe state or value; one that has taken its trip
state keeps it (R285). -/
def execHoldWindowExpiry (s : State) : Out :=
  match s.pair.holdUntil with
  | some t =>
    if s.now < t then .next s
    else
      let s := { s with pair := { s.pair with holdUntil := none } }
      let s := s.each (List.range 32) fun s n =>
        let v := s.doSafe n
        s.modDo n fun d => if d.held then { d with heldState := v } else d
      let s := s.each (List.range 32) fun s n =>
        let v := s.ucSafe n
        s.modUc n fun u => if u.held.isSome && !u.heldTrip then { u with held := some v } else u
      .next s.outputsAnew
  | none => .next s

/-! ## The ledger (R302, R303) -/

/-- The words that a symbol covers. -/
def Symbol.words (y : Symbol) : List (Area × Nat) :=
  if y.isBit then ((List.range y.count).map fun k => (y.area, (y.offset + k) / 32)).dedup
  else (List.range y.count).map fun k => (y.area, y.start + k)

/-- The words of one mirrored context (R178). -/
def State.ledgerContext (s : State) (n : Nat) : List Word :=
  let x := s.loopCtx n
  let h := x.hist.get {} (s.loopInt n)
  let hs : List Int := if s.loopInt n = 15 then [] else
    if s.loopLaw n = 2 then [h.x1, h.x2, h.x3, h.y1, h.y2, h.y3] else [h.x1, h.x2, h.y1, h.y2]
  [x.status n, x.sample, ofI x.sp, ofI x.out] ++ ((List.range 6).map fun k => ofI (hs.getD k 0)) ++
    [BitVec.ofNat 32 x.devCount] ++ List.replicate 5 0

/-- Contexts with MIRRORED = 1, in number order, whether or not they have sections (R178, R302). -/
def State.mirroredContexts (s : State) : List Nat := (List.range 256).filter fun n => bit (s.lw n 0) 24

/-- A freeze keeps the tick count and the words of the mirrored contexts for the ledger of its cycle: both are those of the freeze (R178, R302; DEDUCED,
log 108). -/
def State.freezeContexts (s : State) : State :=
  let l := if s.pairMode then s.mirroredContexts.map fun n => { ctx := Fin.ofNat 256 n, words := s.ledgerContext n } else []
  { s with loop := { s.loop with frozenTick := s.loop.tick, frozen := l } }

/-- Bytes of the mirrored variables of an image. -/
def ImageDesc.mirroredBytes (d : ImageDesc) : Nat := 4 * ((d.symbols.filter (·.mirrored)).map fun y => y.words.length).sum

/-- The largest ledger that an image and the present MIRRORED flags can produce (R303). -/
def State.ledgerBytes (s : State) (d : ImageDesc) : Nat :=
  5188 + 64 * s.mirroredContexts.length + 16 * d.mirroredTimers.length + d.mirroredBytes

/-- The ledger of cycle c (R302): EPOCH is the one that an announced handover raises (R314). -/
def State.buildLedger (s : State) (c : BitVec 32) : Ledger :=
  let hand := match s.pair.handover with
    | some h => if nextCycle c == h then some h else none
    | none => none
  { cycle := c, fingerprint := s.square.fingerprint, epoch := if hand.isSome then s.mram.epoch + 1 else s.mram.epoch
    switchCycle := match s.square.switch with | some w => some w.cycle | none => s.square.announced
    handoverCycle := hand, tick := BitVec.ofNat 32 s.loop.frozenTick
    totals := (List.range 64).map s.ledgerTotal
    contexts := s.loop.frozen
    timers := s.image.mirroredTimers.map fun n => (n, (List.range 4).map fun k => (s.timer n).word s.freezeInstant k)
    vars := (s.image.symbols.filter (·.mirrored)).flatMap fun y => y.words.map fun (w : Area × Nat) =>
      let v := s.sqWord .done w.1 w.2
      { area := w.1, offset := w.2, value := v.1, poisoned := v.2 }
    forces := if s.square.forcesChanged then some s.mram.forces else none }

/-- Bytes of a ledger (R302). -/
def ledgerSize (l : Ledger) : Nat :=
  1092 + 64 * l.contexts.length + 16 * l.timers.length + 4 * l.vars.length + (if l.forces.isSome then 4096 else 0)

/-- An entry of the force table: name hash, area and type as in a variable reference (R63; log 128), word offset, value. -/
def forceBytes (f : Force) : List Byte :=
  toBe 4 f.hash.toNat ++ toBe 1 f.area.number ++ toBe 1 (b2n (!f.isBit)) ++ pad 2 ++ toBe 4 f.offset ++ toBe 4 f.value.toNat

/-- The bytes of a ledger before its CRC (R302). -/
def ledgerBody (l : Ledger) : List Byte :=
  toBe 4 l.cycle.toNat ++ toBe 4 l.fingerprint.toNat ++ toBe 4 l.epoch.toNat ++ toBe 4 (ledgerSize l) ++
    toBe 4 (b2n l.forces.isSome + 2 * b2n l.switchCycle.isSome + 4 * b2n l.handoverCycle.isSome) ++
    toBe 4 (l.switchCycle.getD 0).toNat ++ toBe 4 (l.handoverCycle.getD 0).toNat ++ toBe 4 l.tick.toNat ++ pad 32 ++
    (l.totals.flatMap fun t => toBe 8 (BitVec.ofInt 64 t.value).toNat ++ toBe 8 t.mark.toNat) ++
    (l.contexts.flatMap fun x => wordsBe x.words) ++ (l.timers.flatMap fun (t : Nat × List (Word × Bool)) => wordsBe (t.2.map (·.1))) ++
    wordsBe (l.vars.map (·.value)) ++
    (match l.forces with
     | some fs => (fs.flatMap forceBytes) ++ pad (16 * (256 - fs.length))
     | none => [])

/-- The ledger as it leaves for the Causeway (R302). -/
def ledgerWire (l : Ledger) : List Byte := ledgerBody l ++ wordBe (crc32c (ledgerBody l))

/-- A partner to which the ledger of `c` goes: that of an ACTIVE module is STANDBY_SYNC (R297), that of one ACTIVE_ALONE may report STANDBY_SYNCING, or it has
handed `c` over (R302, R311). -/
def State.ledgerDue (s : State) (c : BitVec 32) : Bool :=
  s.pairMode && ((s.pair.planned && s.pair.incoming == some c) || s.hasStandby)

/-- The active sends the ledger of the committed cycle (R302). -/
def State.sendLedger (s : State) (c : BitVec 32) : State :=
  if s.ledgerDue c then
    let l := s.buildLedger c
    { s with pair := { s.pair with ledgerSent := some l, ledgerTx := ledgerWire l }, square := { s.square with forcesChanged := false } }
  else s

/-- A timer as its words with their marks give it, at a freeze instant (R125, R132, R302). -/
def Timer.ofWords (l : List (Word × Bool)) (f : Nat) : Timer :=
  let x := fun k => l.getD k (0, false)
  let w := (x 0).1
  let res := BitVec.ofNat 2 (bits w 27 26)
  let el := (x 2).1
  { running := bit w 31, output := bit w 30 && !bit w 31, kind := BitVec.ofNat 2 (bits w 29 28), res := res, retain := bit w 25
    lastInput := bit w 24, preset := (x 1).1.truncate 16, elapsed := el
    start := (f : Int) - (el.toNat * resolutionNs res : Nat), startCycle := (x 3).1
    poisoned := (x 0).2, presetP := (x 1).2, elapsedP := (x 2).2, startP := (x 3).2 }

/-- The dwell of a rehearsal has ended. A handover without REHEARSE has none. -/
def State.dwellOver (s : State) (r : Rehearsal) : Bool :=
  match r.dwell with
  | some d => !(nextCycle s.square.current - cyclePlus r.handover d).msb
  | none => false

/-- A rehearsal ends: open checks are reported as not done, and a result without faults at the end of its dwell restarts REHEARSAL_AGE_H (R312); one that
is cut off before does not. A handover without REHEARSE has no result. -/
def State.endRehearsal (s : State) : State :=
  match s.pair.rehearsal with
  | none => s
  | some r =>
    let s := { s with pair := { s.pair with rehearsal := none } }
    if r.dwell.isNone then s
    else
      let open_ := (if r.incoming then 6 else 1) - r.passed.length - r.failed.length
      let s := s.raise .rehearseResult (mkWord [(23, 16, r.passed.length), (15, 8, r.failed.length), (7, 0, open_)])
      if r.took && r.failed == [] && s.dwellOver r then { s with mram := { s.mram with rehearsalAt := s.now } } else s

/-- A standby that loses sync starts again from a snapshot (R298, R304, R305); until it has one its totals are its own (R332). -/
def State.startSync (s : State) : State :=
  let s := { s with pair := { s.pair with applied := 0, snapshot := false, ledgers := [], tokens := [], received := []
                                          waitingChanges := [], resyncAsked := false, fingerprints := [], incoming := none, forceCycle := none
                                          judgeFrom := none, lastLedgerAt := s.now, adopted := false, syncTokens := [] }
                    square := { s.square with landings := s.square.landings.filter fun x => !x.forwarded } }
  s.endRehearsal.enterPair .syncing

/-- Sync is lost for a reason of record 090Ch. -/
def State.loseSync (s : State) (reason : Nat) : State :=
  if s.pair.state == .sync then (s.raise .syncLost (mkWord [(7, 0, reason)])).startSync else s

/-- A standby that has not switched at SWITCH_CYCLE resynchronises; one that is still taking the pair's state begins anew (R102). -/
def State.missSwitch (s : State) : State := if s.pair.state == .syncing then s.startSync else s.loseSync 3

/-- A shadow executes: STANDBY_SYNC, and STANDBY_SYNCING from the snapshot on (R300). -/
def State.shadows (s : State) : Bool := s.pairMode && (s.pair.state == .sync || (s.pair.state == .syncing && s.pair.snapshot))

/-- A switch that a ledger announces (R102): ahead of the standby it is taken over; one that lies behind it, and that the standby has not made,
costs the sync. `switchSeen` is the cycle up to which it knows of every switch. -/
def State.hearSwitch (s : State) (c : BitVec 32) : State :=
  if s.square.switch.isSome || !(s.pair.switchSeen - c).msb then s
  else if (c - s.square.current).msb || c == s.square.current then s.missSwitch
  else { s with square := { s.square with switch := some { cycle := c, bank := s.stagedNo == 1, releaseForces := true } } }

/-- The force table of a ledger, where no force that was forwarded has landed at its cycle or after it (R98). -/
def State.ledgerForces (s : State) (l : Ledger) : Option (List Force) :=
  match s.pair.forceCycle with
  | some c => if (c - l.cycle).msb then l.forces else none
  | none => l.forces

/-- The standby takes the mirrored items of a ledger into both copies at a freeze (R92, R302, R330). `f` is the instant of the freeze
before it. -/
def State.takeLedger (s : State) (f : Nat) (l : Ledger) : State :=
    let s := s.each l.vars fun s v => s.putBoth v.area v.offset v.value v.poisoned
    let s := s.each l.timers fun s (t : Nat × List (Word × Bool)) => s.setTimer t.1 (Timer.ofWords t.2 f)
    let s := s.each l.totals.zipIdx fun s (e : LedgerTotal × Nat) => s.applyLedgerTotal l.cycle e.2 e.1
    let s := match s.ledgerForces l with
      | some fs => { s with mram := { s.mram.wrote 0x104 with forces := fs } }.forceCopies
      | none => s
    let run := if s.pair.base == prevCycle l.cycle then s.pair.applied + 1 else 1
    let s := { s with loop := { s.loop with mirror := l.contexts, mirrorTick := l.tick }
                      pair := { s.pair with lastLedger := l.cycle, base := l.cycle, lastLedgerAt := s.now, applied := run } }
    let s := s.setEpoch l.epoch
    let s := match l.switchCycle with
      | some c => s.hearSwitch c
      | none => s
    { s with pair := { s.pair with switchSeen := if (s.pair.switchSeen - l.cycle).msb then l.cycle else s.pair.switchSeen } }

/-- At the freeze of cycle `c` the ledgers of earlier cycles are applied, the oldest first (R92); one of a cycle that this standby has still to
commit waits. -/
def State.applyLedger (s : State) (f : Nat) (c : BitVec 32) : State :=
  let l := s.pair.ledgers.filter fun x => (x.cycle - c).msb
  let left := s.pair.ledgers.filter fun x => !(x.cycle - c).msb
  { s with pair := { s.pair with ledgers := left } }.each l fun s x => s.takeLedger f x

/-- The force table of a ledger acts from the cycle after the ledger's own (R98): a standby that has committed that cycle takes it when it
comes, into the frozen page of the cycle in execute too; one that has not takes it at the freeze after that commit (log 102). -/
def State.hearForces (s : State) (l : Ledger) : State :=
  match s.ledgerForces l with
  | some fs =>
    if (s.square.last - l.cycle).msb then s
    else
      let s := { s with mram := { s.mram.wrote 0x104 with forces := fs } }.forceCopies
      if s.square.phase == .execute then s.forceFrozen else s
  | none => s

/-- The fingerprints are compared (R301). -/
def State.compareFingerprint (s : State) (l : Ledger) : State :=
  match s.pair.fingerprints.find? fun e => e.1 == l.cycle with
  | none => s
  | some e =>
    let p := s.pair
    if e.2 == l.fingerprint then { s with pair := { p with divRun := 0, matched := p.matched + 1 } }
    else
      let run := satInc p.divRun
      let first := if p.divRun = 0 then l.cycle else p.divFirst
      let s := { s with pair := { p with divRun := run, divFirst := first, matched := 0, divergences := p.divergences + 1
                                         lastDivergent := l.cycle } }
      if run.toNat == s.divAlarm && p.divRun != run then (s.fireSource 402).raise .pairDivergence first else s

/-- The last cycle that the module has frozen. -/
def State.frozenCycle (s : State) : BitVec 32 := if s.square.phase == .execute then s.square.current else prevCycle s.square.current

/-- LEDGER_RECEIVED (R301, R304, R311): the fingerprints are compared and the mirrored items wait for the next freeze. A ledger that
comes after the freeze of c + 2 has been counted late, and is discarded. -/
def execLedgerReceived (l : Ledger) (s : State) : Out :=
  if !s.shadows || s.pair.received.contains l.cycle || !(s.frozenCycle - nextCycle (nextCycle l.cycle)).msb then .next s
  else
    let s := { s with pair := { s.pair with received := (l.cycle :: s.pair.received).take 4 } }
    let s := (s.compareFingerprint l)
    let s := { s with pair := { s.pair with ledgers := s.pair.ledgers ++ [l] } }.hearForces l
    .next (match l.handoverCycle with
      | some h => { s with pair := { s.pair with incoming := some h, planned := true, reconciled := false } }
      | none => s)

/-- At the standby's freeze of cycle c + 2 the ledger of c must be there (R304), from the first cycle on that it froze as a standby. -/
def State.judgeLedgers (s : State) (c : BitVec 32) : State :=
  if !s.shadows then s
  else
    let first := s.pair.judgeFrom.getD c
    let s := { s with pair := { s.pair with judgeFrom := some first } }
    let due := prevCycle (prevCycle c)
    if s.pair.received.contains due || (due - first).msb then s
    else { s with pair := { s.pair with ledgersLate := satInc s.pair.ledgersLate, received := (due :: s.pair.received).take 4 } }.raise
      .ledgerLate due

/-- SYNC_HOLD_TIMEOUT (R304). -/
def execSyncHoldTimeout (s : State) : Out :=
  if s.pairMode && s.pair.state == .sync && s.pair.lastLedgerAt + s.syncHoldNs ≤ s.now then .next (s.loseSync 1) else .next s

/-- RESYNC_DONE (R316): SETTLE_CYCLES consecutive ledgers have been applied. The active then raises the epoch, which its next ledger brings. -/
def execResyncDone (s : State) : Out :=
  if s.pairMode && s.pair.state == .syncing && s.pair.snapshot && s.settleCycles ≤ s.pair.applied then
    .next ((s.enterPair .sync).raise .resyncDone (s.mram.epoch + 1))
  else .next s

/-! ## Takeover (R307) -/

/-- A shadow cycle in progress is abandoned; its number is used again (R307 step 2). -/
def State.dropShadowCycle (s : State) : State :=
  let s := s.abandonCycle
  { s with square := { s.square with phase := .idle }, pair := { s.pair with tokens := [] } }

/-- A takeover by the release path (kind 1) or the heartbeat path (kind 2): steps 2 and 3 of R307. The cycle m is the number of the
abandoned shadow cycle, or the one after the last shadow commit. -/
def State.takeOver (s : State) (kind : Nat) : State :=
  let s := s.dropShadowCycle
  let m := s.square.current
  let s := { s with pair := { s.pair with incoming := some m, planned := false, reconciled := false, takeovers := satInc s.pair.takeovers } }
  ((s.raise .takeover (mkWord [(31, 24, kind), (23, 0, m.toNat)])).raiseEpoch).canTakeover true

/-- The reconciliation that an incoming module makes at freeze m (R329, R331): once, a cycle m that is abandoned and repeated counts on from there
(R324). -/
def State.incomingFreeze (s : State) (c : BitVec 32) : State :=
  if s.pair.incoming == some c && !s.pair.reconciled then
    { s.reconcileTotals c with pair := { (s.reconcileTotals c).pair with reconciled := true } }
  else s

/-- The claim of an incoming module rises at apply m, and it takes its new state (R307 step 6, R311). A hand-back leaves the rehearsal that it ends as it
is; a handover without REHEARSE is checked, and not handed back, even where a rehearsal was to come (R310, R312; log 69). -/
def State.incomingApply (s : State) (c : BitVec 32) : State :=
  if s.pair.incoming != some c then s
  else
    let planned := s.pair.planned
    let s := { s with pair := { s.pair with incoming := none, planned := false } }
    let s := s.riseClaim
    if planned then
      let new : Rehearsal := { handover := c, dwell := none, handBack := false, incoming := true, took := false, passed := [], failed := [] }
      let own := s.pair.rehearsal.filter fun (r : Rehearsal) => r.took || r.handover == c
      let s := if own.isNone then s.endRehearsal else s
      let r : Rehearsal := own.getD new
      let s := { s with pair := { s.pair with takeovers := satInc s.pair.takeovers
                                              rehearsal := some (if r.took then r else { r with handover := c, incoming := true, took := true }) } }
      ((s.raise .takeover (mkWord [(31, 24, 3), (23, 0, c.toNat)])).enterPair .active).startScans
    else (s.enterPair .alone).startScans

/-- An incoming module waits with apply m until its claim may rise (R294, R311). -/
def State.incomingWaits (s : State) : Bool := s.pair.incoming == some s.square.current && !s.claimFree

/-- The active gives the claim away at apply h − 1 (R311). HART transactions that run or wait on it, and a scan under way, end on it as on an active
(DESIGN CHOICE, log 150). It checks its holds, whether or not the handover is a rehearsal (R312). -/
def State.giveClaim (s : State) (c : BitVec 32) : State :=
  match s.pair.handover with
  | none => s
  | some h =>
    if nextCycle c != h then s
    else
      let s := { s with pair := { s.pair with handover := none, lastLedgerAt := s.now, applied := s.settleCycles, snapshot := true
                                              received := [], ledgers := [], tokens := [], base := c, judgeFrom := some h, switchSeen := c
                                              rehearsal := match s.pair.rehearsal with
                                                | some r => some (if r.took then r else { r with took := true, handover := h })
                                                | none => some { handover := h, dwell := none, handBack := false, incoming := false, took := true, passed := [], failed := [] } } }
      let s := s.each (List.range 64) (State.ownBase · c)
      let s := (s.dropClaim.raiseEpoch).enterPair .sync
      (s.raise .takeover (mkWord [(31, 24, 3), (23, 0, h.toNat)])).canToStandby

/-- A planned handover `n` cycles after the last committed one, announced in the ledger of the cycle before it (R310, R311). -/
def State.planHandover (s : State) (n : Nat) : State :=
  { s with pair := { s.pair with handover := some (cyclePlus s.square.current (n - 1)) } }

/-! ## Roles at start-up, and conflicts (R299, R315) -/

/-- A STALE module claims: it raises the epoch and enters ACTIVE_ALONE (R299); its ports leave bus monitoring (R271). -/
def State.claimRole (s : State) : State :=
  if s.pair.claimPartner then s
  else
    let s := ((s.riseClaim.raiseEpoch).enterPair .alone).canTakeover true
    { s with pair := { s.pair with adopted := true } }.startScans

/-- The partner is active: its heartbeat says so, or its claim is sensed (R299). -/
def State.partnerActive (s : State) : Bool :=
  match s.pair.partnerHb with
  | some h => h.state == 3 || h.state == 4 || s.pair.claimPartner
  | none => false

/-- A STALE module in full service follows an active partner (R298, R315, R316, R399): with a lower epoch than its own it waits for RESYNC;
both need the same FW_MAJOR. -/
def State.followActive (s : State) : State :=
  match s.pair.partnerHb with
  | none => s
  | some h =>
    if s.pair.state != .stale || !s.partnerActive || s.pair.sideConflict then s
    else if h.epoch < s.mram.epoch && !s.pair.resyncAsked then
      if s.pair.epochConflict then s
      else { s with pair := { s.pair with epochConflict := true } }.raise .epochConflict h.epoch
    else if s.service == .full && h.fwMajor == 4 && (s.pair.resyncAsked || (s.autoResync && !s.pair.epochConflict)) then
      { s with pair := { s.pair with epochConflict := false } }.startSync
    else s

/-- A STALE module and a STALE partner: the higher epoch claims, or side A (R299). -/
def State.settleRole (s : State) (h : Heartbeat) : State :=
  if s.pair.state == .stale && h.state == 5 && !s.pair.sideConflict && !s.pair.claimPartner &&
      (h.epoch < s.mram.epoch || (h.epoch == s.mram.epoch && !s.mram.sideB)) then s.claimRole
  else s

/-- The module loses its partner while active, or its partner is not synchronised any more: no handover is left (R298), and a rehearsal ends
(R312). -/
def State.toAlone (s : State) : State :=
  ({ s.endRehearsal with pair := { s.endRehearsal.pair with handover := none } }).enterPair .alone

/-- Two modules ACTIVE_ALONE: the lower epoch, or side B, releases its claim and goes STALE; its holds release at once (R315). -/
def State.yieldRole (s : State) (h : Heartbeat) : State :=
  if s.pair.state == .alone && h.state == 4 && (s.mram.epoch < h.epoch || (s.mram.epoch == h.epoch && s.mram.sideB)) then
    let s := s.dropClaim.releaseHolds
    ((s.raise .epochConflict h.epoch).enterPair .stale).canToStandby
  else s

/-! ## Heartbeats (R295, R296) -/

/-- An island has refreshed its liveness word within the last 200 µs (R295): it runs, or has stopped since. -/
def State.live (s : State) (n : Nat) : Bool :=
  s.runs n || match (s.island n).left with | some t => decide (s.now ≤ t + 200000) | none => false

/-- SQUARE and SUP refresh their liveness words while they work (R295). -/
def State.alive (s : State) : Bool :=
  s.service != .off && s.service != .halted && s.live 6 && s.live 16 && s.power.supOk

/-- The heartbeat the interlock sends; it carries the epoch (R295, R314). -/
def State.ownHeartbeat (s : State) : Heartbeat :=
  { target := s.pair.partner.zeroExtend 16, address := s.mram.address, sideB := s.mram.sideB, state := BitVec.ofNat 8 s.pair.state.code, epoch := s.mram.epoch
    claim := s.pair.claimOwn, lastCycle := s.square.last, fwMajor := 4 }

/-- HEARTBEAT_GENERATE (R295): on the Causeway every 250 µs, with every fourth one on the ring (1 ms, R383). -/
def execHeartbeatGenerate (s : State) : Out :=
  if !s.pairMode || !s.alive || s.faultyInterlock || !s.dueEvery (if s.pair.hbSent.isSome then some s.pair.hbGenAt else none) 250000 then .next s
  else
    let n := s.pair.hbSeq + 1
    let h := s.ownHeartbeat
    let s := { s with pair := { s.pair with hbSeq := n, hbGenAt := s.now, hbSent := some h } }
    if n.toNat % 4 == 0 then
      .next (s.sendStation (.heartbeat h.target h.sideB h.state h.claim h.epoch h.lastCycle))
    else .next s

/-- CLAIM_WATCHDOG_EXPIRY (R294, R295). -/
def execClaimWatchdogExpiry (s : State) : Out :=
  if s.pairMode && s.pair.claimOwn && s.pair.hbGenAt + 1000000 ≤ s.now then .next s.dropClaim else .next s

/-- A path is silent: HEARTBEAT_PATH_LOST and source 401 (R296). -/
def State.pathAlarm (s : State) (path : Nat) : State := (s.fireSource 401).raise .heartbeatPathLost (mkWord [(0, 0, path)])

/-- A standby in STANDBY_SYNC that hears its partner on one path alone says so, once while the other is silent (R296). -/
def State.judgePaths (s : State) : State :=
  if s.pair.state != .sync then s
  else if s.pair.cwSilent && !s.pair.ringSilent && !s.pair.cwTold then { s with pair := { s.pair with cwTold := true } }.pathAlarm 0
  else if s.pair.ringSilent && !s.pair.cwSilent && !s.pair.ringTold then { s with pair := { s.pair with ringTold := true } }.pathAlarm 1
  else s

/-- A heartbeat can come by a path: the Causeway has a lane, or a ring port carries traffic (R293, R382). -/
def State.pathOpen (s : State) (path : HbPath) : Bool :=
  match path with
  | .causeway => s.cableUp
  | .ring => s.ringUp

/-- With both ring links down the ring heartbeat path is lost (R382). -/
def State.ringPathLost (s : State) : State :=
  if !s.pairMode || s.ringUp then s else { s with pair := { s.pair with ringSilent := true, ringHbOk := false } }.judgePaths

/-- A heartbeat of the partner says whether it claims: since when its heartbeats have disagreed with its line (R295). -/
def State.judgeLine (s : State) : State :=
  match s.pair.partnerHb with
  | none => s
  | some h =>
    let s := { s with pair := { s.pair with hbSeenAt := some s.now } }
    if h.claim == s.pair.claimPartner then { s with pair := { s.pair with claimOff := none, lineTold := false } }
    else { s with pair := { s.pair with claimOff := s.pair.claimOff <|> some s.now } }

/-- The partner's line changes: a disagreement counts from the first heartbeat after it (R295; log 139). -/
def State.lineEdge (s : State) : State := { s with pair := { s.pair with claimOff := none, lineTold := false } }

/-- The arrival of a heartbeat on a path; a path that comes back is recorded (R296). -/
def State.hearPath (s : State) (path : HbPath) : State :=
  match path with
  | .causeway =>
    let back := s.pair.cwSilent
    let s := { s with pair := { s.pair with hbCwAt := some s.now, cwHbOk := true, cwSilent := false, cwTold := false, claimTold := false } }
    (if back then s.raise .heartbeatPathRestored 0 else s).judgePaths
  | .ring =>
    let back := s.pair.ringSilent
    let s := { s with pair := { s.pair with hbRingAt := some s.now, ringHbOk := true, ringSilent := false, ringTold := false, claimTold := false } }
    (if back then s.raise .heartbeatPathRestored 1 else s).judgePaths

/-- A resynchronisation of the partner begins: it is to hold the banks that are held now (R102, R316; DEDUCED, log 49). -/
def State.snapshotBanks (s : State) : State :=
  s.each (List.range 2) fun s i => s.modBank i fun k => { k with partnerVerified := false, inSnapshot := k.held }

/-- What the partner's state means for this module's (R298, R316); `was` is what it was before. A partner that comes from STANDBY_SYNCING has
resynchronised: the epoch rises, and it holds the banks of the snapshot, those that were held when it began (R102, DEDUCED, log 49). -/
def State.seePartner (s : State) (was : Option Heartbeat) (h : Heartbeat) : State :=
  match s.pair.state with
  | .active => if h.state == 2 then s else (if h.state == 1 then s.snapshotBanks else s).toAlone
  | .alone =>
    if h.state == 2 then
      if !(match was with | some p => p.state == 1 | none => false) then s.enterPair .active
      else
      let s := s.raiseEpoch
      ((s.raise .resyncDone s.mram.epoch).enterPair .active).each (List.range 2) fun s i =>
        s.modBank i fun k => { k with partnerVerified := k.partnerVerified || k.inSnapshot }
    else
      let begins := h.state == 1 && !(match was with | some p => p.state == 1 | none => false)
      (if begins then s.snapshotBanks else s).yieldRole h
  | .stale => (s.settleRole h).followActive
  | _ => s

/-- A ring heartbeat is taken only by the module that it names (R383). -/
def State.takesHeartbeat (s : State) (path : HbPath) (h : Heartbeat) : Bool :=
  path == .causeway || (s.mram.addressed && h.target == s.mram.address.zeroExtend 16)

/-- HEARTBEAT_RECEIVED (R296, R292): the partner's view. A module that finds its own side in it says so once; one that is STALE stays so until a
heartbeat shows that one of the two has read a different side. -/
def execHeartbeatReceived (path : HbPath) (h : Heartbeat) (s : State) : Out :=
  if !s.pairMode || s.pair.state == .solo || !s.pathOpen path || !s.takesHeartbeat path h then .next s
  else
    let was := s.pair.partnerHb
    let same := h.sideB == s.mram.sideB
    let s := s.hearPath path
    let s := { s with pair := { s.pair with partnerHb := some h, partner := h.address } }.judgeLine
    let s := if same && !s.pair.sideConflict then s.raise .sideConflict 0 else s
    let s := { s with pair := { s.pair with sideConflict := same } }
    .next (if same && s.pair.state == .stale then s else s.seePartner was h)

/-- Silence of a path for a time. -/
def silent (last : Option Nat) (now ns : Nat) : Bool :=
  match last with
  | some t => decide (t + ns ≤ now)
  | none => true

/-- HEARTBEAT_SILENCE (R296). -/
def execHeartbeatSilence (s : State) : Out :=
  if !s.pairMode then .next s
  else
    let cw := silent s.pair.hbCwAt s.now 1000000
    let cw3 := silent s.pair.hbCwAt s.now 3000000
    let ring := silent s.pair.hbRingAt s.now 3000000
    let s := { s with pair := { s.pair with cwSilent := s.pair.cwSilent || cw, ringSilent := s.pair.ringSilent || ring
                                            cwHbOk := s.pair.cwHbOk && !cw, ringHbOk := s.pair.ringHbOk && !ring } }
    match s.pair.state with
    | .sync =>
      if cw && ring then
        if !s.pair.cable || s.pair.incoming.isSome then .next s
        else if !s.pair.claimPartner then .next (s.takeOver 2)
        else if s.pair.claimTold then .next s
        else .next ({ s with pair := { s.pair with claimTold := true } }.raise .heartbeatsLostClaimed 0)
      else .next s.judgePaths
    | .active => if cw3 && ring then .next s.toAlone else .next s
    | .syncing => if cw && ring then .next (s.enterPair .stale) else .next s
    | _ => .next s

/-! ## The lines (R292 to R294) -/

/-- PARTNER_CLAIM_FALL (R296, R307): the release path begins. Whether the fall is a release shows 10 µs later: one with the cable pulled within
10 µs of it, be it plugged again or not, is none (R293). -/
def execPartnerClaimFall (s : State) : Out :=
  if !s.pairMode || !s.pair.claimPartner then .next s
  else
    let s := { s with pair := { s.pair with claimPartner := false, partnerEdgeAt := s.now } }.lineEdge
    let pulled := match s.pair.cableFellAt with | some t => decide (s.now ≤ t + 10000) | none => false
    if s.pair.state == .sync && s.pair.cable && !pulled && s.pair.incoming.isNone then
      .next { s with pair := { s.pair with releaseAt := some s.now } }
    else .next s

/-- The release that a fall of the partner's claim began is seen once the 10 µs after it are over and neither the cable nor the claim has changed:
the standby takes over (R293, R296, R307). -/
def State.seeRelease (s : State) : State :=
  match s.pair.releaseAt with
  | none => s
  | some t =>
    if s.now ≤ t + 10000 then s
    else
      let s := { s with pair := { s.pair with releaseAt := none } }
      if s.pair.state == .sync && s.pair.incoming.isNone then s.takeOver 1 else s

/-- A failed check is counted and recorded with its item and its channel or port (R312). -/
def State.rehearseFault (s : State) (item n : Nat) : State :=
  { s with pair := { s.pair with rehearseFaults := satInc s.pair.rehearseFaults } }.raise .rehearseFault (mkWord [(31, 24, item), (7, 0, n)])

/-- Outputs whose readback has changed during their hold (R312): a conversion of it differs from what a channel holds (READBACK of R194, one conversion), a
digital output's terminal does not stand as it is held. -/
def State.badHolds (s : State) : List Nat :=
  ((List.range 32).filter fun n => (s.uc n).held.isSome && (s.uc n).heldRead == some true) ++
    (List.range 32).filter fun n => (s.do_ n).held && s.doLevel n != (s.do_ n).heldState

/-- The outgoing module's check of its holds when they end (R312, last row): its readback changed during the hold. After a fault it asks its partner
for the hand-back (log 69). That of a handover without REHEARSE ends with it. -/
def State.checkHolds (s : State) : State :=
  match s.pair.rehearsal with
  | none => s
  | some r =>
    if r.incoming || !r.took || r.passed.contains 7 || r.failed.contains 7 then s
    else
      let bad := s.badHolds
      let s := { s with pair := { s.pair with
        rehearsal := some (if bad == [] then { r with passed := r.passed ++ [7] } else { r with failed := r.failed ++ [7] }) } }
      let s := s.each bad fun s n => s.rehearseFault 7 n
      if r.dwell.isNone then { s with pair := { s.pair with rehearsal := none } }
      else if bad == [] then s else s.tellPartner .handBack (nextCycle s.square.current)

/-- What a module that claims sees of its partner's rise (R294): one within 50 µs of its own is a tie, in which side A's drivers are enabled; a later
one, while its drivers are enabled, is a fault of the partner's line. -/
def State.riseAgainst (s : State) : State :=
  if s.now ≤ s.pair.ownRoseAt + 50000 then
    if s.mram.sideB || s.pair.drivers then s else { s with pair := { s.pair with drivers := true } }.outputsAnew
  else if s.pair.drivers then s.raise .claimLineFault (mkWord [(0, 0, b2n (!s.mram.sideB))])
  else s

/-- PARTNER_CLAIM_RISE (R229, R294, R299): the holds of a module that has dropped its claim are released; a STALE module sees that its partner
has claimed. -/
def execPartnerClaimRise (s : State) : Out :=
  if !s.pairMode || s.pair.claimPartner then .next s
  else
    let s := { s with pair := { s.pair with claimPartner := true, partnerEdgeAt := s.now, releaseAt := none } }.lineEdge
    if s.pair.claimOwn then .next s.riseAgainst else .next (s.checkHolds.releaseHolds.followActive)

/-- TIE_WITHDRAWN (R294): both claims rose within 50 µs and this is side B. -/
def execTieWithdrawn (s : State) : Out :=
  let d := if s.pair.ownRoseAt ≤ s.pair.partnerEdgeAt then s.pair.partnerEdgeAt - s.pair.ownRoseAt else s.pair.ownRoseAt - s.pair.partnerEdgeAt
  if s.pairMode && s.mram.sideB && s.pair.claimOwn && s.pair.claimPartner && d ≤ 50000 then
    let s := { s with pair := { s.pair with claimOwn := false, drivers := false, ownFellAt := some s.now } }
    .next (((s.raise .tieWithdrawn 0).enterPair .stale).canToStandby.releaseHolds)
  else .next s

/-- The partner's heartbeats have disagreed with its line for 1 ms, and still do (R295). -/
def State.partnerLineBad (s : State) : Bool :=
  match s.pair.claimOff, s.pair.hbSeenAt with
  | some t, some h => decide (t + 1000000 ≤ s.now) && decide (s.now < h + 1000000) && !s.pair.lineTold
  | _, _ => false

/-- The module's own heartbeats have reported for 1 ms what its own line does not show (R295): its claim has stood, or has been down, for that long. -/
def State.ownLineOff (s : State) : Bool :=
  let since := if s.pair.claimOwn then s.pair.ownRoseAt else s.pair.ownFellAt.getD s.power.startFrom
  !s.pair.ownLineBad && (s.pair.hbSent.any fun h => h.claim == s.pair.claimOwn) && decide (since + 1000000 ≤ s.now)

/-- CLAIM_LINE_FAULT (R295): heartbeats and the line of one side have disagreed for 1 ms, recorded once by each module that sees it. What the module senses of its
own line no other row brings (log 139). A claim that rises while the drivers are enabled is seen as it rises (R294). -/
def execClaimLineFault (sideB : Bool) (s : State) : Out :=
  if !s.pairMode then .next s
  else if sideB == s.mram.sideB then
    if s.ownLineOff then .next ({ s with pair := { s.pair with ownLineBad := true } }.raise .claimLineFault (mkWord [(0, 0, b2n sideB)])) else .next s
  else if s.partnerLineBad then .next ({ s with pair := { s.pair with lineTold := true } }.raise .claimLineFault (mkWord [(0, 0, b2n sideB)]))
  else .next s

/-- LANE_LOST (R293): both lost, the Causeway heartbeat path is lost. -/
def execLaneLost (lane : Fin 2) (s : State) : Out :=
  let up := if lane = 0 then s.pair.lane0 else s.pair.lane1
  if !s.pairMode || !up then .next s
  else
    let s := if lane = 0 then { s with pair := { s.pair with lane0 := false } } else { s with pair := { s.pair with lane1 := false } }
    let s := s.raise .laneLost (mkWord [(0, 0, lane.val)])
    .next (if s.pair.lane0 || s.pair.lane1 then s else { s with pair := { s.pair with cwHbOk := false } })

/-- CABLE_PRESENT_CHANGE (R293, R296). The lanes work while the cable is there and CWAY runs. Which end is plugged in counts from the next entry to
Side-Street mode on (R292). -/
def execCablePresentChange (present : Bool) (s : State) : Out :=
  if s.pair.cable == present then .next s
  else if present then
    let up := s.pairMode && s.runs 14
    .next { s.draw with pair := { s.pair with cable := true, lane0 := up, lane1 := up, cableEnd := some (Config.cableEndB s.freeCount) } }
  else
    let s := { s with pair := { s.pair with cable := false, lane0 := false, lane1 := false, cwHbOk := false, cableFellAt := some s.now
                                            releaseAt := none, cableEnd := none } }
    .next (if s.pair.state == .sync then (s.fireSource 401).raise .cableAbsent 0 else s)

/-- DISCOVERY_TIMEOUT (R299): no partner found. -/
def execDiscoveryTimeout (s : State) : Out :=
  if s.pairMode && s.pair.state == .stale && s.pair.partnerHb.isNone && s.pair.discoveryEnd ≤ s.now && s.loneStart &&
      !s.pair.claimPartner && s.service != .off && s.service != .halted then
    let s := s.claimRole
    .next (s.raise .loneStart s.mram.epoch)
  else .next s

/-! ## Rehearsal (R311, R312) -/

/-- A rehearsal is running. -/
def State.rehearsing (s : State) : Bool := s.pair.rehearsal.any fun r => r.dwell.isSome

/-- A rehearsal with its terms begins: the active plans the handover (R311). -/
def State.openRehearsal (s : State) (h : BitVec 32) (dwell : Nat) (back : Bool) : State :=
  let active : Bool := s.pair.state == .active
  { s with pair := { s.pair with
    rehearsal := some { handover := h, dwell := some dwell, handBack := back, incoming := !active, took := false, passed := [], failed := [] }
    handover := if active then some h else none } }

/-- No conversion has begun a run of a condition that the next one may complete (R194). -/
def Flag.decided (f : Flag) : Bool := f.set_ || f.seen == 0

/-- An item of R312 on the incoming module: none while its check is not due, else the channels or ports that fail it. The CAN check falls due with IN_REF, and
on a port without a cycle link with the first frame that it has sent, or failed to. -/
def State.rehearseItem (s : State) (k : Nat) : Option (List Nat) :=
  let fresh := fun n => match (s.uc n).valueAt with | some t => decide (s.pair.ownRoseAt < t) | none => false
  let settled := fun n => (s.uc n).state == .run && fresh n
  let late := fun n => decide (s.pair.ownRoseAt + 25000000 + settleCount (ucRate (s.ucCfg n)) * s.ucPeriod n < s.now)
  let judged := fun (l : List Nat) (due bad : Nat → Bool) => if l.all due then some (l.filter bad) else none
  match k with
  | 1 => some ((List.range 32).filter fun n => s.doEnable n && bit (s.sqWord .done .Q 0).1 n && (s.doForced n).isNone &&
      (!s.doLevel n || (s.doOpenEn n && (s.do_ n).openLoad)))
  | 2 => judged s.ucOutputs (fun n => fresh n && (s.uc n).readback.decided) fun n => (s.uc n).readback.set_
  | 3 => some (if s.pair.claimOwn && s.pair.drivers && !s.pair.ownLineBad then [] else [0])
  | 4 => judged ([0, 1].filter s.canEnabled)
      (fun p => if s.canLinked p then (s.can p).inFailed || (match (s.can p).tIn with | some t => decide (s.pair.ownRoseAt < t) | none => false)
        else (s.can p).tecRose || (s.can p).txOk)
      (fun p => (s.canLinked p && (s.can p).inFailed) || (s.can p).tecRose)
  | 5 => judged ((List.range 32).filter fun n => ucHart (s.ucCfg n)) (fun n => (s.uc n).state == .run && !(s.uc n).scanning)
      (fun n => decide ((s.uc n).devices.length < ucExpected (s.ucCfg n)))
  | _ => judged ((List.range 32).filter fun n => ucMode (s.ucCfg n) == 8 || ucMode (s.ucCfg n) == 9)
      (fun n => (settled n && (s.uc n).opened.decided) || late n) (fun n => (s.uc n).opened.set_ || !settled n)

/-- One check, if it falls due and has not been made (R312). -/
def State.rehearseCheck (s : State) (k : Nat) : State :=
  match s.pair.rehearsal with
  | none => s
  | some r =>
    if r.passed.contains k || r.failed.contains k then s
    else match s.rehearseItem k with
    | none => s
    | some [] => { s with pair := { s.pair with rehearsal := some { r with passed := r.passed ++ [k] } } }
    | some bad =>
      let s := { s with pair := { s.pair with rehearsal := some { r with failed := r.failed ++ [k] } } }
      s.each bad fun s n => s.rehearseFault k n

/-- Every check of a handover without REHEARSE has been made. -/
def Rehearsal.spent (r : Rehearsal) : Bool := r.dwell.isNone && r.passed.length + r.failed.length == 6

/-- The incoming module makes the checks that have fallen due, at each commit after the one at which it claimed (R312). Those of a handover without
REHEARSE end when all are made. -/
def State.rehearseChecks (s : State) (c : BitVec 32) : State :=
  match s.pair.rehearsal with
  | some r =>
    if r.incoming && r.took && c != r.handover then
      let s := s.each [1, 2, 3, 4, 5, 6] State.rehearseCheck
      { s with pair := { s.pair with rehearsal := s.pair.rehearsal.filter fun r => !r.spent } }
    else s
  | none => s

/-- The handover runs in reverse from the cycle after the present one (R311, R312). -/
def State.beginHandBack (s : State) : State := { s with pair := { s.pair with handover := some (nextCycle s.square.current) } }

/-- HAND_BACK (R311, R312): at h + DWELL where HAND_BACK = 1, or after a fault, while the partner is STANDBY_SYNC. -/
def execHandBack (s : State) : Out :=
  match s.pair.rehearsal with
  | some r =>
    if r.incoming && r.took && s.pair.state == .active && s.pair.handover.isNone && r.dwell.isSome && ((r.handBack && s.dwellOver r) || r.failed != []) then
      .next s.beginHandBack
    else .next s
  | none => .next s

/-- REHEARSE_RESULT (R312): the end of the dwell. A hand-back that is due begins. -/
def execRehearseResult (s : State) : Out :=
  match s.pair.rehearsal with
  | some r =>
    if !r.took || !s.dwellOver r then .next s
    else
      let back := r.incoming && s.pair.state == .active && s.pair.handover.isNone && (r.handBack || r.failed != [])
      .next (if back then s.beginHandBack else s).endRehearsal
  | none => .next s

/-! ## Commands (R70) -/

def pairStatusDesc : CmdDesc := { code := 0x0700, roles := [.observe], fits := exact 0, kind := .local_ }

/-- PAIR_STATUS (R70). -/
def runPairStatus (c : Ctx) (_ : List Byte) (s : State) : State :=
  s.reply c .ok (toBe 1 s.pair.state.code ++ toBe 1 (b2n s.mram.sideB) ++ pad 2 ++ toBe 4 s.mram.epoch.toNat ++
    toBe 4 s.pair.divergences.toNat ++ toBe 2 s.pair.partner.toNat ++ pad 2)

def execPairStatus (p : Packet) (s : State) : Out := s.command p pairStatusDesc runPairStatus

def rehearseDesc : CmdDesc := { code := 0x0701, roles := [.maintain], fits := exact 4, kind := .local_ }

/-- REHEARSE (R311, R313): either module of an ACTIVE and STANDBY_SYNC pair accepts it and tells the other its terms (log 69); h is the active's last
committed cycle plus 8. Bit 0 of OPTIONS is HAND_BACK. The rule names no other bit, and the others are ignored (DESIGN CHOICE, log 163). -/
def runRehearse (c : Ctx) (b : List Byte) (s : State) : State :=
  let dwell := be16 b 2
  let st : PairState := s.pair.state
  if st == .alone then s.refuse c .standbyNotReady
  else if st != .active && st != .sync then s.refuse c .wrongState
  else if dwell = 0 then s.refuse c .outOfRange
  else if s.rehearsing || s.pair.handover.isSome || s.pair.incoming.isSome then s.replyBusy c true
  else
    let last := if st == .active then s.square.last else match s.pair.partnerHb with | some h => h.lastCycle | none => s.square.last
    let h := cyclePlus last 8
    let back := byteAt b 0 % 2 == 1
    ((s.openRehearsal h dwell back).tellPartner (.rehearse dwell back) h).reply c .ok (toBe 4 h.toNat)

def execRehearse (p : Packet) (s : State) : Out := s.command p rehearseDesc runRehearse

def resyncDesc : CmdDesc := { code := 0x0702, roles := [.maintain], fits := exact 0, kind := .local_ }

/-- RESYNC (R298, R313, R315): on a STANDBY_SYNC module a full resynchronisation starts; a STALE one follows its active partner. -/
def runResync (c : Ctx) (_ : List Byte) (s : State) : State :=
  match s.pair.state with
  | .sync => s.startSync.ok c
  | .stale => ({ s with pair := { s.pair with resyncAsked := true } }.followActive).ok c
  | _ => s.refuse c .wrongState

def execResync (p : Packet) (s : State) : Out := s.command p resyncDesc runResync

end Sys2Proof.Machine
end

