-- ==== Sys2Proof/Machine/Islands.lean ====
section
/-! DEFINITION. Islands, crossings and the Tollgate (chapter 01): credits, the audit, restarts in place, leaving service, the reference
clock and the power-up of a domain. -/

namespace Sys2Proof.Machine

open Sys2Proof

/-! ## Crossings and credits (R25 to R29) -/

/-- The place of a waiting message in the order of R28: a Class 3 message that has waited 1 ms goes before Class 2. -/
def Message.rank (m : Message) (now : Nat) : Nat :=
  if m.cls = 3 then (if m.since + 1000000 ≤ now then 3 else 5) else if m.cls = 2 then 4 else m.cls

/-- The message that is sent next, with the others in their order (R28): the first of the lowest rank. -/
def nextMessage (now : Nat) : List Message → Option (Message × List Message)
  | [] => none
  | m :: l =>
    match nextMessage now l with
    | none => some (m, [])
    | some (k, rest) => if k.rank now < m.rank now then some (k, m :: rest) else some (m, l)

/-- What a message brings to its receiver: a block part waits at the engine to which the running image assigns its block (R145), and a record reaches
KEEP (R356). -/
def State.receive (s : State) (m : Message) : State :=
  match m.cargo with
  | .blockPart n => s.placePart n
  | .record q => s.recordArrives q
  | .other => s

/-- The message that goes next of those waiting at a sender for one receiver, with the rest of them, where the credits pay for it. -/
def State.sendable (s : State) (sender receiver : Nat) : Option (Nat × Message × List Message) :=
  let x := s.crossing (crossingId sender receiver)
  match nextMessage s.now x.waiting with
  | some (m, rest) => if x.mayPay (crossingSize sender receiver) m then some (receiver, m, rest) else none
  | none => none

/-- The order of R28 among the messages that a sender could send to several receivers: by class, then as they were queued. -/
def soonest (now : Nat) : List (Nat × Message × List Message) → Option (Nat × Message × List Message)
  | [] => none
  | x :: l =>
    match soonest now l with
    | none => some x
    | some y =>
      if y.2.1.rank now < x.2.1.rank now || (y.2.1.rank now == x.2.1.rank now && y.2.1.order < x.2.1.order) then some y else some x

/-- The sender sends its next message, whatever its receiver (R28); a message that lacks credits holds back no other crossing (R29). -/
def State.sendNext (s : State) (sender : Nat) : State :=
  match soonest s.now ((List.range 21).filterMap (s.sendable sender)) with
  | none => s
  | some (r, m, rest) =>
    (s.modCrossing (crossingId sender r) fun x => { x with waiting := rest, queued := x.queued ++ [m] }).receive m

/-- The next message of a crossing is held where its credits do not pay for it; a Class 1 message of an island counts once (R29). -/
def State.holdNext (s : State) (sender receiver : Nat) : State :=
  let x := s.crossing (crossingId sender receiver)
  match nextMessage s.now x.waiting with
  | none => s
  | some (m, rest) =>
    if x.mayPay (crossingSize sender receiver) m || m.held then s
    else
      let s := s.setCrossing (crossingId sender receiver) { x with waiting := { m with held := true } :: rest }
      if m.cls = 1 && sender < 20 then s.modIsland sender fun i => { i with stalls := satInc i.stalls } else s

/-- CROSSING_MESSAGE_SEND (R25 to R29): the credits on the way back arrive, the receiver takes what is queued and returns its credits, a
message that the sender offers joins those waiting; then the sender's next message in the order of R28 is sent, and the next of each of its crossings that
lacks credits after that is held (R29, log 25). -/
def execCrossingMessageSend (sender receiver : Fin 21) (offer : Option (Fin 4 × Fin 16)) (s : State) : Out :=
  let size := crossingSize sender receiver
  if sender == receiver then .next s
  else
    let x := s.crossing (crossingId sender receiver)
    let new : List Message := match offer with
      | some (c, n) => if n.val + 1 + size.2 ≤ size.1 then [{ cls := c, slots := n.val + 1, since := s.now, order := s.nextSend, cargo := .other }] else []
      | none => []
    let s := s.setCrossing (crossingId sender receiver) { waiting := x.waiting ++ new, queued := [], returning := slotsOf x.queued }
    let s := { s with nextSend := s.nextSend + 1 }
    let s := s.sendNext sender
    .next (s.each (List.range 21) fun s r => s.holdNext sender r)

/-! ## Ring links (R382) -/

/-- The port from which Sync is taken: RING-A while its link is up, and RING-B otherwise (R389). -/
def State.syncPort (s : State) : Bool := !(s.ringPort 0).link

/-- Module time enters a state; leaving LOCKED and entering it are recorded (R390). FREE_RUN corrects nothing; HOLDOVER keeps the frequency correction. A
grandmaster is to announce itself anew after either of them (log 153), and each acquisition has its one step. -/
def State.enterTime (s : State) (x : TimeState) : State :=
  let old := s.ring.time
  let lost := x == .freeRun || x == .holdover
  let s := { s with ring := { s.ring with
    time := x, inLimit := 0, announced := s.ring.announced && !lost, stepped := s.ring.stepped && x != .acquiring
    ratePpb := if x == .freeRun then 0 else s.ring.ratePpb } }
  if old == x then s
  else match x with
  | .locked => s.raise .ptpLocked (ofI s.ring.offsetNs)
  | .holdover => if old == .locked then s.raise .ptpLost 3 else s
  | .freeRun => if old == .locked then s.raise .ptpLost 0 else s
  | .acquiring => s

/-- The PTP port follows the links; a change puts a disciplined clock into HOLDOVER (R390). -/
def State.judgePtpPort (s : State) : State :=
  let p := s.syncPort
  if p == s.ring.ptpPort then s
  else
    let s := { s with ring := { s.ring with ptpPort := p } }
    if s.ring.time == .acquiring || s.ring.time == .locked then s.enterTime .holdover else s

/-- The link of a port is down (R382). -/
def State.loseLink (s : State) (p : Nat) : State :=
  let s := s.modRingPort p fun x => { x with link := false, gigabit := false, degraded := false, queue := [] }
  (s.raiseFrom (10 + p) .ringLinkDown (BitVec.ofNat 32 p)).judgePtpPort.ringPathLost

/-! ## Restart in place (R33) -/

/-- The island may be restarted in place (R33). -/
def restartable (n : Nat) : Bool := n < 20 && n != 6 && n != 9 && n != 17 && n != 18

/-- Restarts of an island in the last 60 s. -/
def State.restarts60 (s : State) (n : Nat) : Nat := ((s.island n).restarts.filter fun t => decide (s.now < t + 60000000000)).length

/-- DSCAN's input states go to FIRE anew, as flagged by the restart of the island. An analog slot is unassured once no conversion has come for its
time (R274). -/
def State.inputsToFire (s : State) (n : Nat) : State := if n == 8 then s.tellFire else s

/-- The in-place restart of SUP: what waited in its queue is discarded unanswered, every window reopens at its full size, and H of every
pair is taken from MRAM plus 4,096 (R33, R47, R48). SUP writes its RAM afresh (log 120). -/
def State.supRestart (s : State) : State :=
  { s with sup := { s.sup with
    gen := s.sup.gen + 1, partials := [], replies := [], stalled := [], replay := [], bumped := BitVec.allOnes 8, ramPoison := []
    windows := s.sup.windows.map fun (w : Window) => { w with size := s.windowSize, used := 0, heldUntil := none } } }

/-- An island restarts in place, with what its row of R33 says. Its arrays keep their contents. -/
def State.restartIsland (s : State) (n : Nat) : State :=
  let s := s.modIsland n fun i =>
    { i with state := .restarting, left := some s.now, past := if s.looksBack then (s.now, i.state) :: i.past else []
             restarts := i.restarts.filter (fun t => decide (s.now < t + 60000000000)) ++ [s.now] }
  let s := (s.fireSource 410).raiseUnstated n .islandRestart
  if n ≤ 5 then (if n == 4 then s.loopIslandRestart else s).abandonCycle
  else if (n == 10 || n == 11) && (s.ringPort (n - 10)).link then s.loseLink (n - 10)
  else if n == 12 || n == 13 then s.canIslandRestart (n - 12)
  else if n == 14 then { s with pair := { s.pair with lane0 := false, lane1 := false } }
  else if n == 16 then s.supRestart
  else s.inputsToFire n

/-! ## Leaving service (R35) -/

/-- The module leaves service for a fault of island or endpoint n: the cycle stops with no further commit, a pair's claim falls, and in
simplex every output goes to its safe state. A further fault of a module already out of service has its own effect on FIRE and the outputs. -/
def State.leaveService (s : State) (n : Nat) : State :=
  let s := if n < 20 then s.modIsland n fun i => { i with state := .faulted, left := some s.now } else { s with faultyInterlock := true }
  let gone := s.inputsToFire n
  let gone := if n == 9 then gone.fireGone else gone
  let safe := fun (s : State) => if s.pairMode then s else (s.each (List.range 32) State.doApply).each s.ucOutputs State.ucApply
  if s.service == .outOfService then safe gone
  else
    let q : Square := if s.square.phase == .idle then s.square else { s.square.revert with phase := .idle, totIncr := [] }
    let s := { s with square := q, service := .outOfService, engines := s.engines.map fun (e : Nat × Engine) => (e.1, e.2.giveBack) }
    let s := s.raiseUnstated n .moduleOutOfService
    let s := s.each (List.range 64) State.closeNow
    let s := s.inputsToFire n
    let s := if n == 9 then s.fireGone else s
    safe (if s.pairMode then s.dropClaim.enterPair .faulted else s)

/-! ## The Tollgate (R30 to R33) -/

/-- A faulty endpoint of crossing `id` (R32, R33): its record, then its restart in place or the end of service. -/
def State.islandFault (s : State) (id : Nat) (discrepancy : Int) (n : Nat) : State :=
  let s := s.raiseFrom n .tollgateMismatch (mkWord [(25, 16, id), (15, 0, (BitVec.ofInt 16 discrepancy).toNat)])
  let x := (s.island n).state
  if n < 20 && x == .faulted then s
  else if restartable n && s.restarts60 n < 3 then s.restartIsland n
  else s.leaveService n

/-- A crossing found unbalanced: the sides at fault, both when the counters cannot tell them apart (R32). -/
def State.crossingFault (s : State) (f : CrossingFault) : State :=
  let id := crossingId f.sender f.receiver
  let both := !f.senderFaulty && !f.receiverFaulty
  let s := { s with mismatches := satInc s.mismatches }
  let s := if f.senderFaulty || both then s.islandFault id f.discrepancy f.sender else s
  if f.receiverFaulty || both then s.islandFault id f.discrepancy f.receiver else s

/-- A command window found unbalanced: the record names the origin, which is answered BUSY for 10 ms (R31). -/
def State.windowFault (s : State) (o : BitVec 16) : State :=
  if !s.sup.windows.any (·.origin == o) then s
  else
    let s := { s with windowMismatches := satInc s.windowMismatches, sup := { s.sup with windows := s.sup.windows.map fun (w : Window) =>
      if w.origin == o then { w with heldUntil := some (s.now + 10000000) } else w } }
    s.raise .windowMismatch (o.setWidth 32)

/-- KEEP runs. -/
def State.keepRuns (s : State) : Bool := s.service != .off && s.service != .halted && s.runs 17

/-- ROUND_PERIOD in ns (R30). -/
def State.roundPeriodNs (s : State) : Nat := bits (s.cfg 0x31 0) 15 0 * 100000

/-- A round of the Tollgate is over: KEEP runs, and ROUND_PERIOD has passed since the last round ended (R30). -/
def State.auditDue (s : State) : Bool := s.keepRuns && s.dueEvery (some s.auditAt) s.roundPeriodNs

/-- AUDIT_ROUND (R30): what the Tollgate found in one round. -/
def execAuditRound (faults : List CrossingFault) (windows : List (BitVec 16)) (s : State) : Out :=
  if !s.auditDue then .next s
  else
    let s := (s.each faults State.crossingFault).each windows State.windowFault
    .next { s with rounds := s.rounds + 1, auditAt := s.now }

/-- WINDOW_HOLD_EXPIRY (R31): 10 ms after the record the window reopens at its full size. -/
def execWindowHoldExpiry (origin : BitVec 16) (s : State) : Out :=
  .next { s with sup := { s.sup with windows := s.sup.windows.map fun (w : Window) =>
    match w.heldUntil with
    | some t => if w.origin == origin && decide (t ≤ s.now) then { w with heldUntil := none, size := s.windowSize, used := 0 } else w
    | none => w } }

/-- What an island reads when its restart has ended: RUN, or what its domain stands at (R20, R22). -/
def State.afterRestart (s : State) (n : Nat) : IslandState :=
  match (s.domain (islandDomain n)).state with
  | .on => .run
  | .transition => .starting
  | .off | .fault => .off

/-- ISLAND_RESTART_COMPLETE (R33): the island is back in RUN. -/
def execIslandRestartComplete (n : Fin 20) (s : State) : Out :=
  if (s.island n).state != .restarting then .next s
  else
    let s := s.modIsland n fun i => { i with state := s.afterRestart n, past := if s.looksBack then (s.now, i.state) :: i.past else [] }
    if n.val == 12 || n.val == 13 then .next (s.canIslandBack (n - 12))
    else if n.val == 14 then .next { s with pair := { s.pair with lane0 := s.pair.cable, lane1 := s.pair.cable } }
    else .next (s.inputsToFire n)

/-! ## The reference clock (R19) -/

/-- REF_CLOCK_LOST (R19): the PLLs switch to the local oscillator, one record is written. -/
def execRefClockLost (s : State) : Out :=
  if s.power.refLost || s.service == .off then .next s
  else
    let s := s.each refIslands fun s n => s.modIsland n fun i => { i with clksrc := true }
    .next (({ s with power := { s.power with refLost := true } }.fireSource 411).raiseUnstated 18 .refClockLost)

/-- REF_CLOCK_RESTORED (R19): every PLL switches back at its island's next idle point: at once where the island stands at one. -/
def execRefClockRestored (s : State) : Out :=
  if !s.power.refLost then .next s
  else .next ({ s with power := { s.power with refLost := false } }.refBack)

/-! ## Domains (R21, R22) -/

/-- The stored poison that the seal leaves in an array (R351). In full service the supervisor writes every declared word after it at once. -/
def State.sealMarks (s : State) (a : Nat) : Tab Bool := if s.service == .full then [] else Config.sealedPoison a s.now

/-- KEEP seals an SRAM array that was off (R351): what had gone wrong in it before is found by nothing any more, scrub passes begin, and nothing is written
yet: of the Town Square the contents are free (R352), of every array its stored poison, until step 7 of the start-up writes its declared words. -/
def State.sealArray (s : State) (a : Nat) : State :=
  let s := s.modArr a fun x => { x with sealed_ := true, scrubFrom := s.now, passFrom := s.now, scrubbed := 0, commanded := false }
  let s := if a = 7 then s else { s with upsets := s.upsets.filter fun u => u.array != a }
  match a with
  | 0 | 1 => if (s.bank a).held then s.modBank a fun k => { k with poison := s.sealMarks a } else s
  | 2 => { s with square := { s.square with mem := [], poison := [], scratch := [(0, sqEnd)], seals := s.square.seals + 1 } }
  | 3 => { s with loop := { s.loop with ramPoison := s.sealMarks a } }
  | 4 | 5 => s.modCan (a - 4) fun c => { c with ramPoison := s.sealMarks a }
  | 6 => { s with sup := { s.sup with ramPoison := Config.sealedPoison a s.now } }
  | _ => s

/-- KEEP seals the arrays of a domain that was off (R351). -/
def State.seal (s : State) (d : Nat) : State :=
  s.each (domainArrays d) fun s a => if (s.arr a).sealed_ then s else s.sealArray a

/-- A domain is powered and its islands are in RUN (R22). -/
def State.domainUp (s : State) (d : Nat) : State :=
  let s := (s.modDomain d fun x => { x with state := .on }).setIslands d .run
  let s := s.each (domainIslands d) fun s n => s.modIsland n fun i => { i with clksrc := s.power.refLost && n != 9 && n != 18 }
  s.seal d

/-- VBUS_CHANGE (R21): VBUS on X7 keeps PD11 on. -/
def execVbusChange (present : Bool) (s : State) : Out :=
  .next { s with power := { s.power with vbus := present } }.judgeDomains

end Sys2Proof.Machine
end

