-- ==== Sys2Proof/Machine/Recorder.lean ====
section
/-! DEFINITION. The event recorder (chapter 14): queueing, merging, displacing and numbering records, and reading them. -/

namespace Sys2Proof.Machine

open Sys2Proof

/-- Slots of the record region (R354). -/
def recordSlots : Nat := 65536

/-- Records KEEP holds waiting (R356). -/
def recordQueue : Nat := 64

/-- CLASS_MASK of a code (R359). -/
def classMask (code : Nat) : Word :=
  match code with
  | 0x0101 => 0x03FF0000
  | 0x0202 | 0x0205 => 0
  | 0x0503 | 0x0505 => 0x1F
  | 0x0606 | 0x0607 | 0x0608 | 0x0609 => 0x80000007
  | 0x060A | 0x060D => 7
  | 0x0701 => 1
  | 0x0801 => 0x100F
  | 0x0804 => 0xF
  | 0x090B | 0x0911 => 0
  | 0x0A03 | 0x0A04 | 0x0A05 => 0x3F
  | _ => 0xFFFFFFFF

/-- REPEAT_WINDOW_MS in ns (R365). -/
def State.repeatWindowNs (s : State) : Nat := bits (s.cfg 0xA00 0) 15 0 * 1000000

/-- The index after `i`: from FFFF_FFFFh to 1, 0 is never used (R355). -/
def nextIndex (i : BitVec 32) : BitVec 32 := if i = BitVec.allOnes 32 then 1 else i + 1

/-- The held record of an index. -/
def Mram.record (m : Mram) (i : BitVec 32) : Option Record := (m.records.find? (·.1 == i)).map (·.2)

/-- Whether a new record merges into a held one, all conditions of R358. -/
def Record.mergesInto (r h : Record) (windowNs : Nat) : Bool :=
  r.source == h.source && r.code == h.code &&
    (r.value &&& classMask r.code.toNat) == (h.value &&& classMask h.code.toNat) && !r.noMerge && !h.noMerge &&
    h.timestamp ≤ r.timestamp && r.timestamp - h.timestamp < windowNs && h.repeats.toNat < 65535

/-- The poisoned words of a merged record (R345): REPEAT_DELTA_US is computed anew from TIMESTAMP and CRC from every other word, so either is
poisoned only where what it is computed from is; REPEATS counts on from what it held. -/
def mergedPoison (l : List Nat) : List Nat :=
  let l := l.filter (· < 6) ++ (if l.contains 0 || l.contains 1 then [6] else [])
  if l.isEmpty then [] else l ++ [7]

/-- The held record after the merge of an occurrence (R358). -/
def Record.merge (h r : Record) : Record :=
  { h with repeats := h.repeats + 1, deltaUs := BitVec.ofNat 32 ((r.timestamp - h.timestamp) / 1000), poison := mergedPoison h.poison }

/-- What waits for a record's fate is answered: a note with its INDEX (R362), a close with its value, index and epoch
(R334). -/
def State.recordDone (s : State) (q : Raised) (i : BitVec 32) : State :=
  let s := match q.noteFor with
    | some c => s.reply c .ok (toBe 4 i.toNat)
    | none => s
  match q.closeFor with
  | some (c, v, ep) => s.owe c .ok q.rec_.cycle (toBe 8 (BitVec.ofInt 64 v).toNat ++ toBe 4 i.toNat ++ toBe 4 ep.toNat) true
  | none => s

/-- A record lost at its severity (R356, R357). -/
def State.recordLost (s : State) (q : Raised) : State :=
  (s.modSevCount q.rec_.severity.toNat fun c => { c with lost := c.lost + 1 }).recordDone q 0

/-- The record that KEEP takes next, with the others: in order of arrival, and of those of one instant the one of the lowest SOURCE (R356). -/
def nextRaised : List Raised → Option (Raised × List Raised)
  | [] => none
  | q :: l =>
    match nextRaised l with
    | none => some (q, l)
    | some (k, rest) => if k.arrived == q.arrived && k.rec_.source < q.rec_.source then some (k, q :: rest) else some (q, l)

/-- RECORD_RAISED (R356): KEEP takes a record that has reached it and queues it, or drops it as lost when 64 are waiting. -/
def execRecordRaised (s : State) : Out :=
  match nextRaised s.raised with
  | none => .next s
  | some (q, rest) =>
    let s := { s with raised := rest }
    if recordQueue ≤ s.recQueue.length then .next (s.recordLost q)
    else
      .next ({ s with recQueue := s.recQueue ++ [q] }.modSevCount q.rec_.severity.toNat fun c =>
        { c with waiting := c.waiting + 1 })

/-- Takes a held record away and counts it in OVERWRITTEN at its own severity (R355, R357). -/
def State.displace (s : State) (i : BitVec 32) : State :=
  match s.mram.record i with
  | none => s
  | some h =>
    { s with mram := { s.mram with records := s.mram.records.filter fun e => e.1 != i } }.writeSlots.modSevCount h.severity.toNat fun c =>
      { c with overwritten := c.overwritten + 1 }

/-- The lowest number from `k` on that a list does not hold; `n` bounds the search. -/
def lowestFree (used : List Nat) : Nat → Nat → Nat
  | 0, k => k
  | n + 1, k => if used.contains k then lowestFree used n (k + 1) else k

/-- The free slot that a new record takes: which of them is the model's choice (log 129). -/
def Mram.freeSlot (m : Mram) : Nat := lowestFree (m.records.map (·.2.slot)) m.records.length 0

/-- A new record finds its slot: that of a held record of its own index (R355), a free one, or that of the oldest held record
whose severity is no higher; else there is none (R357). -/
def State.roomFor (s : State) (r : Record) : Option (State × Nat) :=
  let i := nextIndex s.mram.newest
  match s.mram.record i with
  | some h => some (s.displace i, h.slot)
  | none =>
    if s.mram.records.length < recordSlots then some (s, s.mram.freeSlot)
    else (s.mram.records.find? fun e => decide (e.2.severity ≤ r.severity)).map fun e => (s.displace e.1, e.2.slot)

/-- A record stands in its slot under the next index, which the slot table says (R355). -/
def State.putRecord (s : State) (r : Record) (slot : Nat) : State :=
  let i := nextIndex s.mram.newest
  let s := (s.writeSlot slot).writeSlots
  { s with mram := { s.mram with records := s.mram.records ++ [(i, { r with slot := slot })], newest := i
                                 latest := s.mram.latest.put r.source.toNat i } }

/-- Writes a new record, or counts it lost (R357, R360). -/
def State.placeRecord (s : State) (q : Raised) : State :=
  match s.roomFor q.rec_ with
  | some (s, slot) =>
    let s := s.putRecord q.rec_ slot
    (s.modSevCount q.rec_.severity.toNat fun c => { c with written := c.written + 1 }).recordDone q s.mram.newest
  | none => s.recordLost q

/-- The held record that a new one merges into, if it does (R358). -/
def State.mergeTarget (s : State) (r : Record) : Option (BitVec 32 × Record) :=
  let i := s.mram.latest.get 0 r.source.toNat
  match s.mram.record i with
  | some h => if r.mergesInto h s.repeatWindowNs then some (i, h) else none
  | none => none

/-- A held record is rewritten in its slot. -/
def State.rewriteRecord (s : State) (i : BitVec 32) (r : Record) : State :=
  let s := s.writeSlot r.slot
  { s with mram := { s.mram with records := s.mram.records.map fun (e : BitVec 32 × Record) => if e.1 == i then (i, r) else e } }

/-- A record leaves KEEP's queue, and the number of those waiting with it (R356). -/
def State.leaveQueue (s : State) (q : Raised) (rest : List Raised) : State :=
  { s with recQueue := rest }.modSevCount q.rec_.severity.toNat fun c => { c with waiting := c.waiting - 1 }

/-- RECORD_WRITE (R357, R358): KEEP takes the first waiting record once MRAM is checked, and merges or writes it. -/
def execRecordWrite (s : State) : Out :=
  if !s.mramChecked then .next s
  else match s.recQueue with
  | [] => .next s
  | q :: rest =>
    let s := s.leaveQueue q rest
    match s.mergeTarget q.rec_ with
    | some (i, h) =>
      let s := s.rewriteRecord i (h.merge q.rec_)
      .next ((s.modSevCount q.rec_.severity.toNat fun c => { c with merged := c.merged + 1 }).recordDone q i)
    | none => .next (s.placeRecord q)

/-- The supply fails while KEEP writes the first waiting record (R361): a new record is torn in the slot of NEWEST; a merge has set its journal (1),
written the record into its slot (2) or updated MERGED (3). -/
def State.cutRecord (s : State) (how : Nat) : State :=
  if how = 0 || !s.mramChecked then s
  else match s.recQueue with
  | [] => s
  | q :: rest =>
    let v := q.rec_.severity.toNat
    let s := s.leaveQueue q rest
    match s.mergeTarget q.rec_ with
    | some (i, h) =>
      let j : Journal := { index := i, merged := h.merge q.rec_, count := (s.sevCount v).merged + 1 }
      let s := { s with mram := { s.mram with journal := some j } }
      let s := if 2 ≤ how then s.rewriteRecord i j.merged else s
      if 3 ≤ how then s.modSevCount v fun c => { c with merged := j.count } else s
    | none =>
      match s.roomFor q.rec_ with
      | some (s, slot) => let s := s.putRecord q.rec_ slot; { s with mram := { s.mram with torn := true } }
      | none => s.recordLost q

/-! ## Reading (R354, R363, R364) -/

/-- FLAGS of a record (R354). -/
def Record.flags (r : Record) : Nat :=
  b2n r.sideStreet * 16 + b2n r.unsynced * 8 + b2n r.noMerge * 4 + r.severity.toNat

/-- The 32 bytes of a record (R354). -/
def Record.bytes (r : Record) : List Byte :=
  let b := toBe 8 r.timestamp ++ toBe 2 r.source.toNat ++ toBe 2 r.code.toNat ++ toBe 4 r.value.toNat ++ toBe 4 r.cycle.toNat ++
    toBe 2 r.repeats.toNat ++ toBe 2 r.flags ++ toBe 4 r.deltaUs.toNat
  b ++ wordBe (crc32c b)

/-- How far index `b` comes after index `a` in the order of R355. -/
def indexAfter (a b : BitVec 32) : Nat := (b.toNat + (2 ^ 32 - 1) - a.toNat) % (2 ^ 32 - 1)

/-- FROM comes after NEWEST: one of the 2³¹ indices that follow it (R363). -/
def State.beyond (s : State) (i : BitVec 32) : Bool :=
  let d := indexAfter s.mram.newest i
  1 ≤ d && d ≤ 2 ^ 31

/-- N of R363: up to `n` entries from FROM on and never beyond NEWEST. -/
def State.entryCount (s : State) (i : BitVec 32) (n : Nat) : Nat :=
  if s.beyond i then 0 else min n (indexAfter i s.mram.newest + 1)

/-- One entry as words with their marks: the record as held, or a gap of 32 zero bytes (R363, R346). -/
def State.entry (s : State) (minSev : Nat) (i : BitVec 32) : List (Word × Bool) :=
  match s.mram.record i with
  | some r =>
    if minSev ≤ r.severity.toNat then (packWords 8 r.bytes).zipIdx.map fun (e : Word × Nat) => (e.1, r.poison.contains e.2)
    else List.replicate 8 (0, false)
  | none => List.replicate 8 (0, false)

/-- `n` entries from index `i` on. -/
def State.entries (s : State) (minSev : Nat) : Nat → BitVec 32 → List (Word × Bool)
  | 0, _ => []
  | n + 1, i => s.entry minSev i ++ s.entries minSev n (nextIndex i)

/-- Word `w` of the record in slot `n` holds stored poison (R346). -/
def State.poisonRecord (s : State) (n w : Nat) : State :=
  { s with mram := { s.mram with records := s.mram.records.map fun (e : BitVec 32 × Record) =>
    if e.2.slot == n && !e.2.poison.contains w then (e.1, { e.2 with poison := e.2.poison ++ [w] }) else e } }

/-- The slots of `n` entries from index `i` on. -/
def State.slotsFrom (s : State) : Nat → BitVec 32 → List Nat
  | 0, _ => []
  | n + 1, i => ((s.mram.record i).map (·.slot)).toList ++ s.slotsFrom n (nextIndex i)

/-- The words of MRAM that hold part of a record in one of these slots and in which an error stands, or whose page is under repair: those at which
a reader of the records meets either (R341, R343). -/
def State.recordWords (s : State) (slots : List Nat) : List Nat :=
  let errors := (s.upsets.filter fun u => u.array == 7 && u.byte < 512).map fun u => wordOf u.addr
  let pages := (s.locks.filter (·.array == 7)).flatMap fun k => (List.range 128).map fun j => k.page * 512 + 4 * j
  (errors ++ pages).dedup.filter fun b => match Config.mramItem b with
    | .record n _ => slots.contains n.toNat
    | _ => false

/-- The records as a reader gets them that finds the words `bad` of MRAM uncorrectable (R343, R346). -/
def State.markRecords (s : State) (bad : List Nat) : State :=
  s.each (bad.map Config.mramItem) fun s i => match i with
    | .record n w => s.poisonRecord n.toNat w.val
    | _ => s

/-- REC_QUERY (R71, R363). -/
def recQueryDesc : CmdDesc := { code := 0x0800, roles := [.observe], fits := exact 8, kind := .local_ }

/-- REC_QUERY, with the words of MRAM that it has been given with a mark (R343). -/
def recQueryFrom (marks : List Nat) (c : Ctx) (b : List Byte) (s : State) : State :=
  let from_ := beWord b 0
  let n := be16 b 4
  let m := byteAt b 6
  if from_ = 0 ∨ 3 < m ∨ n < 1 ∨ 43 < n then s.refuse c .outOfRange
  else
    let k := s.entryCount from_ n
    s.gateRead c b 7 (s.recordWords (s.slotsFrom k from_)) marks fun bad t =>
      t.replyData c (toBe 2 k ++ pad 2) ((t.markRecords bad).entries m k from_)

def runRecQuery : Ctx → List Byte → State → State := recQueryFrom []

def execRecQuery (p : Packet) (s : State) : Out := s.command p recQueryDesc runRecQuery

/-- REC_UPLOAD (R71, R364), whose packets are built as they are sent. -/
def recUploadDesc : CmdDesc := { code := 0x0801, roles := [.observe], cls := 3, fits := exact 8, kind := .local_ }

def runRecUpload (c : Ctx) (b : List Byte) (s : State) : State :=
  let from_ := beWord b 0
  let n := be32 b 4
  if from_ = 0 ∨ n < 1 ∨ 65536 < n then s.refuse c .outOfRange
  else if c.broadcast then s.freePlace c.origin
  else { s with sup := { s.sup with ready := s.sup.ready + 1, replies := s.sup.replies ++
    [{ ctx := c, status := Status.ok.code, cycle := s.shownCycle, body := [], sent := 0, counts := true, upload := some (from_, n)
       readyAt := s.now, order := s.sup.ready }] } }

def execRecUpload (p : Packet) (s : State) : Out := s.command p recUploadDesc runRecUpload

/-- REC_COUNTERS (R71, R364). -/
def recCountersDesc : CmdDesc := { code := 0x0802, roles := [.observe], fits := exact 0, kind := .local_ }

def runRecCounters (c : Ctx) (_ : List Byte) (s : State) : State :=
  s.reply c .ok (wordsBe [s.mram.newest, (s.sevCount 0).lost, (s.sevCount 1).lost, (s.sevCount 2).lost, (s.sevCount 3).lost])

def execRecCounters (p : Packet) (s : State) : Out := s.command p recCountersDesc runRecCounters

/-- REC_NOTE (R71, R362): answered when KEEP has written the note or counted it lost. R53 does not name it: it is no write, force, output or
configuration command, so a standby executes it (DEDUCED, log 91). -/
def recNoteDesc : CmdDesc := { code := 0x0803, roles := [.operate], fits := exact 8, kind := .local_ }

def runRecNote (c : Ctx) (b : List Byte) (s : State) : State :=
  let code := be16 b 0
  let sev := byteAt b 2
  if code < 0x8000 ∨ 1 < sev then s.refuse c .outOfRange
  else
    let src := if c.tagged then 0x100 + c.keyslot.toNat else 0x108
    s.handRecord { rec_ := s.mkRecord src (.note code sev) (beWord b 4) none none, stamped := false, noteFor := some c, closeFor := none }

def execRecNote (p : Packet) (s : State) : Out := s.command p recNoteDesc runRecNote

/-- OLDEST (R355): the earliest-written index still held. -/
def State.oldest (s : State) : BitVec 32 := match s.mram.records with | e :: _ => e.1 | [] => 0

/-- A merge whose journal entry is still set is carried into its slot, and counted where MERGED does not hold the entry's value yet (R361). -/
def State.finishMerge (s : State) : State :=
  match s.mram.journal with
  | none => s
  | some j =>
    let s := (s.rewriteRecord j.index j.merged).modSevCount j.merged.severity.toNat fun c => { c with merged := j.count }
    { s with mram := { s.mram with journal := none } }

/-- A torn record in the slot of NEWEST is freed and counted in LOST[3] (R361). -/
def State.freeTorn (s : State) : State :=
  if !s.mram.torn then s
  else
    let m := s.mram
    { s with mram := { m with records := m.records.filter (fun e => e.1 != m.newest), torn := false } }.modSevCount 3 fun c =>
      { c with lost := c.lost + 1 }

/-- KEEP at start-up (R361): a merge cut short is completed, a torn record freed, and what was still waiting counts as lost at its severity. -/
def State.recorderStart (s : State) : State :=
  let s := s.finishMerge.freeTorn
  { (s.each (List.range 4) fun s v => s.modSevCount v fun c =>
      { c with lost := c.lost + BitVec.ofNat 32 c.waiting, waiting := 0 }) with raised := [], recQueue := [] }

end Sys2Proof.Machine
end

