-- ==== Sys2Proof/WellFormed.lean ====
section
/-! DEFINITION. Well-formed commands: what the spec's own formats let a sender, the field, a bus or an engine put into a command. The
machine has a meaning for every command, well-formed or not. -/

namespace Sys2Proof

/-- The payload and tag fit an Ethernet frame with the header of R40. -/
def Packet.fitsFrame (p : Packet) : Bool := p.payload.length ≤ 1400 && p.auth.length ≤ 16

/-- A packet that carries the opcode of its row (R62 to R75). -/
def Packet.isFor (p : Packet) (opcode : BitVec 16) : Bool := p.fitsFrame && p.opcode == opcode

/-- A bit operand: BIT stands in an extension word for the wide areas only (R107, R109). -/
def Operand.bitOk (o : Operand) : Bool := wideArea o.area || o.bit == 0

/-- A word operand names no bit (R107). -/
def Operand.wordOk (o : Operand) : Bool := o.bit == 0

/-- The data lengths that a DLC can give (R246). -/
def canLength (fdf : Bool) (n : Nat) : Bool :=
  n ≤ 8 || (fdf && (n == 12 || n == 16 || n == 20 || n == 24 || n == 32 || n == 48 || n == 64))

/-- A CAN frame: its length, an identifier of its size, and the bits that FD frames alone carry (R238, R246). -/
def CanFrame.ok (f : CanFrame) : Bool :=
  canLength f.fdf f.data.length && (f.xtd || f.id.toNat ≤ 0x7FF) && (f.fdf || (!f.brs && !f.esi)) && !(f.fdf && f.rtr)

/-- Bytes of the protected arrays (R338). -/
def arrayBytes (a : Fin 8) : Nat :=
  match a.val with
  | 0 | 1 => 1048576
  | 2 => 6291456
  | 3 => 262144
  | 4 | 5 => 32768
  | 6 => 4194304
  | _ => 8388608

/-- Well-formed commands. -/
def Instr.wellFormed : Instr → Bool
  | .identify p => p.isFor 0x0100
  | .getStatus p => p.isFor 0x0101
  | .readObject p => p.isFor 0x0102
  | .writeObject p => p.isFor 0x0103
  | .restart p => p.isFor 0x0104
  | .enumerate p => p.isFor 0x0105
  | .confirmAddress p => p.isFor 0x0106
  | .programBegin p => p.isFor 0x0200
  | .programData p => p.isFor 0x0201
  | .programEnd p => p.isFor 0x0202
  | .programSwitch p => p.isFor 0x0203
  | .runStop p => p.isFor 0x0204
  | .forceSet p => p.isFor 0x0205
  | .forceRelease p => p.isFor 0x0206
  | .cycleStats p => p.isFor 0x0207
  | .readVars p => p.isFor 0x0300
  | .writeVars p => p.isFor 0x0301
  | .subscribe p => p.isFor 0x0302
  | .unsubscribe p => p.isFor 0x0303
  | .setPending p => p.isFor 0x0304
  | .eventSubscribe p => p.isFor 0x0305
  | .loopEnable p => p.isFor 0x0400
  | .loopDisable p => p.isFor 0x0401
  | .loopWriteCoeff p => p.isFor 0x0402
  | .loopStage p => p.isFor 0x0403
  | .loopCommit p => p.isFor 0x0404
  | .loopRead p => p.isFor 0x0405
  | .channelMode p => p.isFor 0x0500
  | .channelStatus p => p.isFor 0x0501
  | .outputAck p => p.isFor 0x0502
  | .hartTransact p => p.isFor 0x0503
  | .hartBurstRead p => p.isFor 0x0504
  | .canEnable p => p.isFor 0x0600
  | .canRecover p => p.isFor 0x0601
  | .canSend p => p.isFor 0x0602
  | .canCounters p => p.isFor 0x0603
  | .stationStatus p => p.isFor 0x0604
  | .pairStatus p => p.isFor 0x0700
  | .rehearse p => p.isFor 0x0701
  | .resync p => p.isFor 0x0702
  | .recQuery p => p.isFor 0x0800
  | .recUpload p => p.isFor 0x0801
  | .recCounters p => p.isFor 0x0802
  | .recNote p => p.isFor 0x0803
  | .panelFrame p => p.isFor 0x0900
  | .panelShow p => p.isFor 0x0901
  | .plateUpdate p => p.isFor 0x0902
  | .panelPower p => p.isFor 0x0903
  | .memStatus p => p.isFor 0x0A00
  | .scrubNow p => p.isFor 0x0A01
  | .remapRead p => p.isFor 0x0A02
  | .powerStatus p => p.isFor 0x0B00
  | .thermalStatus p => p.isFor 0x0B01
  | .fireStatus p => p.isFor 0x0C00
  | .fireReset p => p.isFor 0x0C01
  | .fireLoad p => p.isFor 0x0C02
  | .fireArm p => p.isFor 0x0C03
  | .fireConfirm p => p.isFor 0x0C04
  | .totalRead p => p.isFor 0x0D00
  | .totalClose p => p.isFor 0x0D01
  | .keyInstall p => p.isFor 0x0E00
  | .keyRevoke p => p.isFor 0x0E01
  | .keyStatus p => p.isFor 0x0E02
  | .fwBegin p => p.isFor 0x0E03
  | .fwData p => p.isFor 0x0E04
  | .fwActivate p => p.isFor 0x0E05
  | .unknownOpcode p => p.fitsFrame
  | .objectWrite _ _ _ _ => true
  | .totalConfigWrite _ _ _ _ => true
  | .rescan _ => true
  | .multiPacketTimeout _ _ => true
  | .replyPacketSend _ => true
  | .idleClose _ => true
  | .windowHoldExpiry _ => true
  | .subscriptionLeaseExpiry _ => true
  | .subDelta _ => true
  | .subscriberLeaseExpiry _ => true
  | .event _ => true
  | .crossingMessageSend a b _ => a != b
  | .auditRound l _ => l.all fun f => f.sender != f.receiver
  | .islandRestartComplete _ => true
  | .refClockLost => true
  | .refClockRestored => true
  | .domainPowerUpComplete _ => true
  | .vbusChange _ => true
  | .cycleStart => true
  | .freeze => true
  | .commit => true
  | .watchdogExpiry => true
  | .retainPeriod => true
  | .nop _ => true
  | .end_ _ => true
  | .ld _ o => o.bitOk
  | .ldn _ o => o.bitOk
  | .and_ _ o => o.bitOk
  | .andn _ o => o.bitOk
  | .or_ _ o => o.bitOk
  | .orn _ o => o.bitOk
  | .xor_ _ o => o.bitOk
  | .xorn _ o => o.bitOk
  | .out _ o => o.bitOk
  | .setb _ o => o.bitOk
  | .clrb _ o => o.bitOk
  | .inv _ => true
  | .cbset _ => true
  | .cbclr _ => true
  | .andOpen _ => true
  | .andnOpen _ => true
  | .orOpen _ => true
  | .ornOpen _ => true
  | .xorOpen _ => true
  | .xornOpen _ => true
  | .closeBracket _ => true
  | .andr _ o => o.op.bitOk
  | .andf _ o => o.op.bitOk
  | .orr _ o => o.op.bitOk
  | .orf _ o => o.op.bitOk
  | .ton _ _ => true
  | .tof _ _ => true
  | .tp _ _ => true
  | .tclr _ _ => true
  | .cup _ _ => true
  | .cdn _ _ => true
  | .cld _ _ => true
  | .cclr _ _ => true
  | .lw _ o _ => o.wordOk
  | .lwi _ _ => true
  | .sw _ o _ => o.wordOk
  | .move _ src dst => src.wordOk && dst.wordOk
  | .bmove _ src dst => src.wordOk && dst.wordOk
  | .swap _ => true
  | .add _ => true
  | .sub _ => true
  | .mul _ => true
  | .div _ => true
  | .rem _ => true
  | .neg _ => true
  | .eq_ _ => true
  | .ne_ _ => true
  | .gt_ _ => true
  | .ge_ _ => true
  | .lt_ _ => true
  | .le_ _ => true
  | .jmp _ _ => true
  | .jt _ _ => true
  | .jf _ _ => true
  | .jov _ _ => true
  | .jovs _ _ => true
  | .call _ _ => true
  | .callt _ _ => true
  | .ret _ => true
  | .tot _ _ => true
  | .sev _ _ => true
  | .eventFiring => true
  | .groupAgeExpiry _ => true
  | .taskComplete _ => true
  | .loopBaseTick => true
  | .ucConversionComplete _ _ => true
  | .ucShutdownComplete _ => true
  | .ucStartupComplete _ => true
  | .ucStoreLow _ _ => true
  | .ucStoreRecovered _ _ => true
  | .hartTransactionComplete _ r => match r with | some x => x.2.length ≤ 255 | none => true
  | .hartScanComplete _ l => l.length ≤ 15
  | .hartBurstReceived _ _ _ l => l.length ≤ 300
  | .diChangeAccepted _ _ _ => true
  | .pulseEdgeCounted _ _ _ => true
  | .countStagePowerLost _ => true
  | .wireBreak _ => true
  | .wireBreakCleared _ => true
  | .groupSupplySample k g _ => k == .di || g.val < 4
  | .groupLevelClear k g _ => k == .di || g.val < 4
  | .groupUvlo _ _ => true
  | .doOverload _ => true
  | .doThermalShutdown _ => true
  | .doRetryDue _ _ => true
  | .doFaultCleared _ => true
  | .openLoad _ => true
  | .openLoadClear _ => true
  | .shortToSupply _ => true
  | .shortToSupplyClear _ => true
  | .reverse _ _ => true
  | .groupOvercurrent _ _ => true
  | .groupOvercurrentCleared _ _ => true
  | .holdWindowExpiry => true
  | .sideStreetRefresh => true
  | .canFrameReceived _ f => f.ok
  | .canWindowStart _ _ => true
  | .canTxComplete _ _ _ d => d ≤ 127
  | .canQueuedFrameSend _ => true
  | .basicCycleStart _ => true
  | .canRecovered _ => true
  | .canShutdownComplete _ => true
  | .canBusIntegration _ => true
  | .fireInputDelivery => true
  | .fireTimeoutCheck => true
  | .fireActionComplete _ => true
  | .tripOutputFailed _ => true
  | .fireFrameRepeat _ => true
  | .fireArmExpiry => true
  | .tripCutInput _ => true
  | .heartbeatGenerate => true
  | .claimWatchdogExpiry => true
  | .heartbeatReceived _ _ => true
  | .heartbeatSilence => true
  | .partnerClaimFall => true
  | .tieWithdrawn => true
  | .claimLineFault _ => true
  | .laneLost _ => true
  | .cablePresentChange _ => true
  | .ledgerReceived l => l.totals.length == 64
  | .syncHoldTimeout => true
  | .forwardedChange _ _ => true
  | .discoveryTimeout => true
  | .resyncDone => true
  | .handBack => true
  | .rehearseResult => true
  | .integratorBoundary => true
  | .totalsSideStreetCommit => true
  | .pageRepairComplete a bad n hard => (bad ++ hard).all fun b => b < arrayBytes a && n ≤ 8
  | .bucketLeak _ => true
  | .scrubPassComplete _ => true
  | .recordRaised => true
  | .recordWrite => true
  | .panelFrameStart => true
  | .panelPowerUpComplete => true
  | .panelPowerDownComplete => true
  | .panelSupplyFault _ _ => true
  | .panelSupplyRecovered _ _ => true
  | .plateWaveformComplete => true
  | .plateTorn _ _ => true
  | .thermalSample _ _ _ => true
  | .ringLinkDown _ => true
  | .ringLinkUp _ _ => true
  | .hsrFrameReceived _ _ => true
  | .hsrSupervision => true
  | .ringTripFrameReceived _ _ => true
  | .announceSend => true
  | .announceReceived _ _ => true
  | .provisionalExpiry => true
  | .duplicateClear => true
  | .ptpSyncReceived _ _ => true
  | .ptpSyncTimeout => true
  | .moduleTimeStore => true
  | .supplyValid _ _ _ => true
  | .supplyFeedLost _ _ => true
  | .supplyFeedRestored _ _ => true
  | .supplyLowHold _ => true
  | .fullService _ _ _ l => l.all fun e => e.2 < arrayBytes e.1
  | .powerFailWarning _ => true
  | .holdupExecuteDeadline => true
  | .holdUpComplete _ => true
  | .logicSupplyLost => true
  | .canRxError _ _ => true
  | .partnerClaimRise => true
  | .cycleStartToken _ _ => true
  | .supFirmwareVerified => true
  | .resyncSnapshotReceived _ => true
  | .reservedOpcode _ => true
  | .scrubRead a addr _ _ => addr % 4 == 0 && addr < arrayBytes a

end Sys2Proof
end

