-- ==== Sys2Proof/Machine/Memory.lean ====
section
/-! DEFINITION. KEEP's rows of chapter 13: stored poison, the items of MRAM that a failed repair loses, the scrub, and the memory
commands. -/

namespace Sys2Proof.Machine

open Sys2Proof

/-! ## The bucket (R342) -/

/-- BUCKET_LEAK (R342): one unit leaks out LEAK_MS after the bucket rose from 0 or last leaked. -/
def execBucketLeak (a : Fin 8) (s : State) : Out :=
  let x := s.arr a
  let due := x.leakFrom + s.bucketLeakNs a
  if x.bucket = 0 || decide (s.now < due) then .next s else .next (s.setArr a { x with bucket := x.bucket - 1, leakFrom := due })

/-! ## Stored poison (R344 to R347) -/

/-- The stored-poison pattern lands in a byte of the Town Square: timers, counters and totals have their places of R431. A total is
restored from its copies (R326). -/
def State.poisonSquare (s : State) (b : Nat) : State :=
  let s := { s with square := (s.square.settleWord (wordOf b)).markByte b true }
  if sqT ≤ b && b < sqC then s.modTimer ((b - sqT) / 16) fun t =>
    match (b - sqT) / 4 % 4 with
    | 1 => { t with presetP := true }
    | 2 => { t with elapsedP := true }
    | 3 => { t with startP := true }
    | _ => { t with poisoned := true }
  else if sqC ≤ b && b < sqE then
    s.modCounter ((b - sqC) / 8) fun c => if (b - sqC) % 8 < 4 then { c with poisoned := true } else { c with presetP := true }
  else s

/-- The totals whose value stands in a page of the Town Square. -/
def pageTotals (page : Nat) : List Nat := (List.range 64).filter fun t => (sqZ + 8 * t) / 512 == page

/-- The object of an MRAM item both of whose copies are void takes its "when new" values (R347); a change of the epoch fires source 403 (R314). -/
def State.loseObject (s : State) (index : Nat) : State :=
  let m := s.mram
  let m := { m with obj := m.obj.filter (fun e => e.1 / 256 != index), objRestart := m.objRestart.filter fun e => e.1 / 256 != index }
  let m := if 0x300 ≤ index && index ≤ 0x3FF then { m with coeffs := m.coeffs.filter fun e => e.1 / 256 != index - 0x300 }
    else if index == 0x500 || index == 0x501 then { m with canEnable := m.canEnable.set false (index - 0x500) false }
    else if index == 0x104 then { m with forces := [] }
    else if 0x900 ≤ index && index ≤ 0x907 then { m with remap := m.remap.set [] (index - 0x900) [] }
    else if index == 0xC02 then { m with addressed := false, address := 0, candidateValid := false, candidate := 0 }
    else m
  let s := { s with mram := m }
  (if index == 0x601 then s.setEpoch 0 else s).raise .mramItemLost (mkWord [(15, 0, index)])

/-- Copy `k` of the Fire Lane configuration fails its check, or both do (R288). FIRE rewrites one that fails beside a sound one; while FIRE is at
fault the start-up check finds it. -/
def State.loseFire (s : State) (k : Nat) (both : Bool) : State :=
  let t := s.mram.fireVoid.set false k true
  let t := if both then t.set false (1 - k) true else t
  let lost := { s with mram := { s.mram with fireVoid := t } }
  if !lost.mram.fireValid then lost.raise .fireConfigInvalid 0
  else if s.fireRuns then s.raise .fireConfigRepaired (mkWord [(0, 0, k)])
  else lost

/-- Both copies of the recorder's slot table are void (R347, R355): no slot is occupied any more, and each record that it held counts in OVERWRITTEN
(R360; log 129). -/
def State.loseSlots (s : State) : State :=
  let s := s.mram.records.foldl (fun s (e : BitVec 32 × Record) =>
    s.modSevCount e.2.severity.toNat fun c => { c with overwritten := c.overwritten + 1 }) s
  { s with mram := { s.mram with records := [] } }.raise .mramItemLost (mkWord [(15, 0, 0xA01)])

/-- The other copy of an item that is held in two. -/
def MramItem.twin : MramItem → MramItem
  | .object k copy => .object k !copy
  | .key k copy => .key k !copy
  | .slotTable copy => .slotTable !copy
  | i => i

/-- A copy of an item is void until the item is written, or a start rewrites the copy from the other one; with that void as well `lose` gives the item
its "when new" value (R346, R347; log 59). -/
def State.voidItem (s : State) (i : MramItem) (lose : State → State) : State :=
  if s.mram.voidCopies.contains i.twin then
    lose { s with mram := { s.mram with voidCopies := s.mram.voidCopies.filter fun v => v != i.twin } }
  else if s.mram.voidCopies.contains i then s
  else { s with mram := { s.mram with voidCopies := s.mram.voidCopies ++ [i] } }

/-- What poisoned bytes of MRAM hit: a copy of an item is void, and both copies void lose the item (R346 to R348; R288, R326, R103). -/
def State.loseItem (s : State) (hit : List MramItem) (i : MramItem) : State :=
  match i with
  | .other => s
  | .object k _ => s.voidItem i fun s => s.loseObject k.toNat
  | .key k _ => s.voidItem i fun s => (s.setKey k {}).raise .mramItemLost (mkWord [(15, 0, 0)])
  | .fire copy =>
    let both := hit.contains (.fire !copy)
    if both && copy || !s.mram.fireValid then s
    else s.loseFire (b2n copy) both
  | .total t copy => s.voidCopy (2 * t + b2n copy)
  | .retained copy =>
    if (s.mram.retained.get none (b2n copy)).isSome then
      (s.voidRetained (b2n copy)).raise .retainedCopyVoid (if hit.contains (.retained !copy) then 2 else BitVec.ofNat 32 (b2n copy))
    else s
  | .bank b => { s with mram := { s.mram with bankVoid := s.mram.bankVoid.set false (b2n b) true } }
  | .slotTable _ => s.voidItem i State.loseSlots
  | .record n w => s.poisonRecord n.toNat w.val

/-- The stored-poison pattern lands in the bytes `l` of array `a` (R344). -/
def State.storePoison (s : State) (a : Nat) (l : List Nat) : State :=
  match a with
  | 0 | 1 => s.each l fun s b => s.modBank a fun k => { k with poison := k.poison.set false (b / 4) true }
  | 2 => (s.each l State.poisonSquare).each ((l.map (· / 512)).dedup.flatMap pageTotals) fun s t =>
      if l.any fun b => sqZ + 8 * t ≤ b && b < sqZ + 8 * t + 8 then s.restoreTotal t else s
  | 3 => { s with loop := { s.loop with ramPoison := l.foldl (fun (t : Tab Bool) b => t.set false (b / 4) true) s.loop.ramPoison } }
  | 4 | 5 => s.modCan (a - 4) fun c => { c with ramPoison := l.foldl (fun (t : Tab Bool) b => t.set false (b / 4) true) c.ramPoison }
  | 6 => { s with sup := { s.sup with ramPoison := l.foldl (fun (t : Tab Bool) b => t.set false b true) s.sup.ramPoison } }
  | _ => let hit := (l.map Config.mramItem).dedup; s.each hit fun s i => s.loseItem hit i

/-- SUP reads a poisoned word of its RAM: it restarts in place, or the module leaves service (R346, R33). -/
def State.supPoisoned (s : State) : State := if s.restarts60 16 < 3 then s.restartIsland 16 else s.leaveService 16

/-- The errors in supervisor RAM that SUP's reads of this instant meet: none on a page under repair (R343). -/
def State.supMeets (s : State) : List Upset :=
  s.upsets.filter fun u => u.array == 6 && u.byte < 512 && !s.locked 6 u.addr && Config.supReads s.now u.addr

/-- SUP's own reads of its RAM at an instant of module time (R341, R343, R346): one that finds poison restarts it. Which bytes it reads is free
(log 120). -/
def State.supTick (s : State) : State :=
  if (s.island 16).state != .run then s
  else
    let l := s.supMeets
    let bad := l.any (·.multi) || s.sup.ramPoison.any fun (e : Nat × Bool) => e.2 && Config.supReads s.now e.1
    let s := s.each (l.map fun u => wordOf u.addr).dedup fun s b => (s.judgeRead 6 b .clean).1
    if bad then s.supPoisoned else s

/-! ## Repair (R340, R343, R344) -/

/-- The page code repairs a page: `bad` are the stored bytes of the page whose byte code failed, two to a symbol, and `unlocated` the
symbols in error that no byte code located (R340). -/
def repairable (bad : List Nat) (unlocated : Nat) : Bool := 2 * unlocated + (bad.map (· / 2)).dedup.length ≤ 8

/-! ## Scrubbing (R349, R350) -/

/-- The scrub period of an array in ns (R338). -/
def scrubPeriodNs (a : Nat) : Nat := (match a with | 0 | 1 => 60 | 7 => 3600 | _ => 10) * 1000000000

/-- Stored bytes of an array: 528 to a page of 512 data bytes (R340). -/
def storedBytes (a : Fin 8) : Nat := arrayBytes a / 512 * 528

/-- The place of a data byte, and of an error, among the stored bytes of its array, which a pass reads in ascending order (R349). -/
def dataPlace (b : Nat) : Nat := b / 512 * 528 + b % 512
def Upset.place (u : Upset) : Nat := u.page * 528 + u.byte

/-- How long the pass under way takes: the scrub period, or for one that SCRUB_NOW asked for the fiftieth of it (R349, R350). -/
def State.passNs (s : State) (a : Nat) : Nat := scrubPeriodNs a / (if (s.arr a).commanded then 50 else 1)

/-- The instant at which the pass under way reaches a place (R349). -/
def State.passAt (s : State) (a : Fin 8) (place : Nat) : Nat := (s.arr a).passFrom + s.passNs a * place / storedBytes a

/-- The scrub can read in array `a`. -/
def State.scrubs (s : State) (a : Nat) : Bool := (s.arr a).sealed_ && s.keepRuns

/-- The scrub finds what the byte codes tell of a word: it delivers nothing and counts no POISONED (R349). -/
def State.judgeScrub (s : State) (a addr : Nat) (v : Verdict) : State :=
  match v with
  | .clean => s
  | .corrected n h => if h then (s.corrections a n).remapWord a (wordOf addr) else s.corrections a n
  | .uncorrectable n => (s.corrections a n).startRepair a addr

/-- The scrub meets an error that stands in a stored byte (R341, R343, R348, R349). -/
def State.scrubUpset (s : State) (a : Nat) (u : Upset) : State :=
  if s.locked a (u.page * 512) then s
  else if u.multi then s.startRepair a (u.page * 512)
  else ((s.dropUpsets [u]).judgeScrub a u.addr (.corrected 1 (u.hard && u.byte < 512))).leaveHard [u]

/-- The pass reads on up to a place: every stored byte on the way, check bytes included, in ascending order (R349). -/
def State.scrubTo (s : State) (a place : Nat) : State :=
  let x := s.arr a
  let l := s.upsets.filter fun u => u.array == a && x.scrubbed ≤ u.place && u.place < place
  (s.each (l.mergeSort fun u v => u.place ≤ v.place) fun s u => s.scrubUpset a u).modArr a fun x => { x with scrubbed := place }

/-- SCRUB_READ (R349): the pass under way reaches the word at `addr`, as its pace has it, and reads it; `hard` says that it fails the check after a
write-back (R348). A word that the pass has read already, or that it does not reach yet, is not read. -/
def execScrubRead (array : Fin 8) (addr : Nat) (v : Verdict) (hard : Bool) (s : State) : Out :=
  let a := array.val
  let place := dataPlace addr
  if !s.scrubs a || s.locked a addr || place < (s.arr a).scrubbed || s.now < s.passAt array place then .next s
  else
    let v := match v with | .corrected n h => .corrected n (h || hard) | v => v
    .next ((s.scrubTo a (place + 4)).judgeScrub a addr v)

/-- SCRUB_PASS_COMPLETE (R349, R350): the pass has read the array to its end; SCRUB_AGE_S returns to 0 and the background passes go on from
the lowest address. -/
def execScrubPassComplete (array : Fin 8) (s : State) : Out :=
  let a := array.val
  if !s.scrubs a || s.now < s.passAt array (storedBytes array) then .next s
  else .next ((s.scrubTo a (storedBytes array)).modArr a fun x =>
    { x with scrubFrom := s.now, passFrom := s.now, scrubbed := 0, commanded := false })

/-! ## Commands (R72) -/

/-- MEM_STATUS (R353). -/
def memStatusDesc : CmdDesc := { code := 0x0A00, roles := [.observe], fits := exact 4, kind := .local_ }

def runMemStatus (c : Ctx) (b : List Byte) (s : State) : State :=
  let a := byteAt b 0
  if 7 < a then s.refuse c .badObject
  else
    let x := s.arr a
    s.reply c .ok (wordsBe [x.corrected, x.poisoned, x.repaired] ++ toBe 1 (s.mram.remap.get [] a).length ++ pad 3)

def execMemStatus (p : Packet) (s : State) : Out := s.command p memStatusDesc runMemStatus

/-- SCRUB_NOW (R350): a pass from the lowest address takes the place of the one under way. An array whose domain is off has nothing to scrub (log 26). -/
def scrubNowDesc : CmdDesc := { code := 0x0A01, roles := [.maintain], fits := exact 4, kind := .local_ }

def runScrubNow (c : Ctx) (b : List Byte) (s : State) : State :=
  let a := byteAt b 0
  if 7 < a then s.refuse c .badObject
  else if !(s.arr a).sealed_ then s.refuse c .wrongState
  else if (s.arr a).commanded then s.replyBusy c true
  else (s.modArr a fun x => { x with commanded := true, passFrom := s.now, scrubbed := 0 }).ok c

def execScrubNow (p : Packet) (s : State) : Out := s.command p scrubNowDesc runScrubNow

/-- REMAP_READ (R353): the byte addresses of the remapped words, FFFF_FFFFh where an entry is unused. -/
def remapReadDesc : CmdDesc := { code := 0x0A02, roles := [.observe], fits := exact 4, kind := .local_ }

def runRemapRead (c : Ctx) (b : List Byte) (s : State) : State :=
  let a := byteAt b 0
  if 7 < a then s.refuse c .badObject
  else
    let l := s.mram.remap.get [] a
    s.reply c .ok (wordsBe ((List.range 16).map fun k => BitVec.ofNat 32 (l.getD k 0xFFFFFFFF)))

def execRemapRead (p : Packet) (s : State) : Out := s.command p remapReadDesc runRemapRead

end Sys2Proof.Machine
end

