-- ==== Sys2Proof/Machine/Shift.lean ====
section
/-! DEFINITION. What a step of module time (R390) does to the instants that the module keeps: what has passed since each of them, and what is
still to pass until it, stays the same. Times that were written down as such (timestamps of records and events, freeze instants, the time stored in MRAM)
stay as they are (log 154). -/

namespace Sys2Proof.Machine

open Sys2Proof

/-- An instant after a step of module time by −offset (R390). -/
def shiftBy (offset : Int) (t : Nat) : Nat := ((t : Int) - offset).toNat

/-- Changes every listed entry. -/
def mapTab {α : Type} (f : α → α) (t : Tab α) : Tab α := t.map fun e => (e.1, f e.2)

/-! ## SUP (R31, R48, R55, R57) -/

def Window.shifted (f : Nat → Nat) (w : Window) : Window := { w with lastAt := f w.lastAt, heldUntil := w.heldUntil.map f }
def Sup.shifted (f : Nat → Nat) (x : Sup) : Sup :=
  { x with
    windows := x.windows.map (Window.shifted f)
    partials := x.partials.map fun p => { p with firstAt := f p.firstAt }
    replies := x.replies.map fun r => { r with readyAt := f r.readyAt }
    subs := mapTab (fun o : Option Subscription => o.map fun b => { b with leaseEnd := f b.leaseEnd }) x.subs }

/-! ## Islands, crossings and the Roundabout (R29, R33, R142, R147) -/

def Island.shifted (f : Nat → Nat) (i : Island) : Island :=
  { i with restarts := i.restarts.map f, left := i.left.map f, past := i.past.map fun e => (f e.1, e.2) }
def Raised.shifted (f : Nat → Nat) (q : Raised) : Raised := { q with arrived := f q.arrived }
def Crossing.shifted (f : Nat → Nat) (x : Crossing) : Crossing :=
  { x with waiting := x.waiting.map fun m => { m with since := f m.since }, queued := x.queued.map fun m => { m with since := f m.since } }
def Round.shifted (f : Nat → Nat) (r : Round) : Round :=
  { r with
    groups := mapTab (fun g : Group => { g with ageFrom := g.ageFrom.map f }) r.groups
    slots := mapTab (fun k : Slot => { k with leaseEnd := f k.leaseEnd }) r.slots }

/-! ## The field (R185, R200, R208, R214, R218, R228, R322) -/

def Uc.shifted (f : Nat → Nat) (u : Uc) : Uc :=
  { u with
    valueAt := u.valueAt.map f, rampAt := u.rampAt.map f, leaving := u.leaving.map fun e => (e.1, f e.2)
    past := u.past.map fun p => { p with at_ := f p.at_ }
    devices := mapTab (fun d : HartDevice => { d with burst := d.burst.map fun b => (b.1, f b.2) }) u.devices }
def Di.shifted (f : Nat → Nat) (d : Di) : Di :=
  { d with
    lastEdge := f d.lastEdge, trail := d.trail.map f, filterFrom := f d.filterFrom, countFrom := f d.countFrom
    past := d.past.map fun p => { p with until_ := f p.until_, lastEdge := f p.lastEdge } }
def Do.shifted (f : Nat → Nat) (d : Do) : Do := { d with retryAt := f d.retryAt, onSince := d.onSince.map f }
def DGroup.shifted (f : Nat → Nat) (g : DGroup) : DGroup := { g with past := g.past.map fun p => { p with until_ := f p.until_ } }

/-- The 10 µs boundary that stands where boundary `n` did. -/
def shiftBoundary (f : Nat → Nat) (n : Nat) : Nat := f (n * 10000) / 10000
def Square.shifted (f : Nat → Nat) (q : Square) : Square :=
  { q with boundaryNo := shiftBoundary f q.boundaryNo, metered := q.metered.map fun e => (shiftBoundary f e.1, e.2) }
def Total.shifted (f : Nat → Nat) (t : Total) : Total := { t with trail := t.trail.map fun e => (shiftBoundary f e.1, e.2) }

/-! ## CAN and FIRE (R251, R257, R266, R274, R281, R282, R289) -/

def Can.shifted (f : Nat → Nat) (c : Can) : Can :=
  { c with
    stations := mapTab (fun k : Station => { k with sampledAt := k.sampledAt.map f }) c.stations
    refWait := c.refWait.map f, refFirstAt := f c.refFirstAt, winWait := c.winWait.map fun w => (w.1, w.2.1, f w.2.2)
    tIn := c.tIn.map f, tOut := c.tOut.map f, past := c.past.map fun p => { p with until_ := f p.until_ } }
def Fire.shifted (f : Nat → Nat) (x : Fire) : Fire :=
  { x with
    slots := mapTab (fun k : FireSlot => { k with lastAt := k.lastAt.map f }) x.slots
    fns := mapTab (fun n : FireFn => { n with tripAt := f n.tripAt }) x.fns
    outs := mapTab (fun o : FireOut => { o with since := f o.since, sentAt := f o.sentAt }) x.outs
    arm := x.arm.map fun a => { a with at_ := f a.at_ } }

/-! ## The pair (R292 to R299, R307) -/

def Pair.shifted (f : Nat → Nat) (p : Pair) : Pair :=
  { p with
    ownRoseAt := f p.ownRoseAt, ownFellAt := p.ownFellAt.map f, partnerEdgeAt := f p.partnerEdgeAt, cableFellAt := p.cableFellAt.map f
    releaseAt := p.releaseAt.map f, hbGenAt := f p.hbGenAt, hbCwAt := p.hbCwAt.map f, hbRingAt := p.hbRingAt.map f
    claimOff := p.claimOff.map f, hbSeenAt := p.hbSeenAt.map f, lastLedgerAt := f p.lastLedgerAt, holdUntil := p.holdUntil.map f
    discoveryEnd := f p.discoveryEnd }

/-! ## Memory, panel, plate, ring and power (R342, R349, R369, R376, R380, R388, R394, R403, R409) -/

def Arr.shifted (f : Nat → Nat) (a : Arr) : Arr := { a with leakFrom := f a.leakFrom, scrubFrom := f a.scrubFrom, passFrom := f a.passFrom }
def Panel.shifted (f : Nat → Nat) (x : Panel) : Panel := { x with since := f x.since, frameAt := x.frameAt.map f }
def RingPort.shifted (f : Nat → Nat) (x : RingPort) : RingPort := { x with busyUntil := f x.busyUntil }
def Ring.shifted (f : Nat → Nat) (r : Ring) : Ring :=
  { r with
    ports := mapTab (RingPort.shifted f) r.ports
    seen := r.seen.map fun e => (e.1, e.2.1, f e.2.2)
    provisional := r.provisional.map f, duplicateAt := r.duplicateAt.map f, lastSync := r.lastSync.map f
    supervisionAt := r.supervisionAt.map f, announceAt := r.announceAt.map f }
def Power.shifted (f : Nat → Nat) (x : Power) : Power :=
  { x with
    validAt := f x.validAt, store := x.store.map fun e => (f e.1, e.2), okFrom := x.okFrom.map f, startFrom := f x.startFrom, warning := x.warning.map f
    sampledAt := x.sampledAt.map f, refreshedAt := x.refreshedAt.map f, totalsAt := x.totalsAt.map f }

/-- Every instant that the module keeps, and module time itself, after a step of module time by −offset (R390). -/
def State.shiftTime (s : State) (offset : Int) : State :=
  let f := shiftBy offset
  { s with
    now := f s.now
    sup := s.sup.shifted f
    islands := mapTab (Island.shifted f) s.islands
    crossings := mapTab (Crossing.shifted f) s.crossings
    auditAt := f s.auditAt
    square := s.square.shifted f
    round := s.round.shifted f
    ucs := mapTab (Uc.shifted f) s.ucs
    dis := mapTab (Di.shifted f) s.dis
    dos := mapTab (Do.shifted f) s.dos
    diGroups := mapTab (DGroup.shifted f) s.diGroups
    doGroups := mapTab (DGroup.shifted f) s.doGroups
    cans := mapTab (Can.shifted f) s.cans
    fire := s.fire.shifted f
    pair := s.pair.shifted f
    totals := mapTab (Total.shifted f) s.totals
    upsets := s.upsets.map fun u => { u with rested := u.rested.map f }
    arrays := mapTab (Arr.shifted f) s.arrays
    raised := s.raised.map (Raised.shifted f)
    recQueue := s.recQueue.map (Raised.shifted f)
    panel := s.panel.shifted f
    plate := { s.plate with stepAt := f s.plate.stepAt }
    ring := s.ring.shifted f
    power := s.power.shifted f }

end Sys2Proof.Machine
end

