-- ==== Sys2Proof/Machine/Ring.lean ====
section
/-! DEFINITION. The station ring, the station address and module time (chapter 16), and the temperature samples (R425, R378). -/

namespace Sys2Proof.Machine

open Sys2Proof

/-! ## Links (R382) -/

/-- RING_LINK_DOWN (R382). -/
def execRingLinkDown (p : Fin 2) (s : State) : Out :=
  if (s.ringPort p).link then .next (s.loseLink p) else .next s

/-- RING_LINK_UP (R380, R382): a port linked at 100BASE-TX is degraded. -/
def execRingLinkUp (p : Fin 2) (gigabit : Bool) (s : State) : Out :=
  if (s.ringPort p).link || (s.island (10 + p)).state != .run then .next s
  else
    let s := s.modRingPort p fun x => { x with link := true, gigabit := gigabit, degraded := !gigabit }
    let s := if gigabit then s else s.raiseFrom (10 + p) .ringDegraded (BitVec.ofNat 32 p)
    .next s.judgePtpPort

/-! ## HSR (R380, R384) -/

/-- A copy of a frame has been taken within the time for which HSR remembers it, 400 ms (IEC 62439-3; PRESUMED, log 27). -/
def State.hsrSeen (s : State) (f : HsrFrame) : Bool :=
  s.ring.seen.any fun e => e.1 == f.source && e.2.1 == f.seq && decide (s.now < e.2.2 + 400000000)

/-- A station frame of a known kind and version (R383). -/
def stationKnown (l : List Byte) : Bool := 1 ≤ byteAt l 0 && byteAt l 0 ≤ 3 && byteAt l 1 == 1

/-- The bytes of a command packet carry the module's serial (R41). -/
def State.serialIn (s : State) (l : List Byte) : Bool :=
  byteAt l 3 / 8 % 2 == 1 && 8 ≤ be16 l 16 && be32 l 24 == (s.mram.serial >>> 32).toNat && be32 l 28 == (s.mram.serial.truncate 32).toNat

/-- A command packet passes check 2 of R42: by TARGET or by the module's serial; a module without an address takes IDENTIFY and CONFIRM_ADDRESS by its
serial only. ENUMERATE is for every module, which forwards it itself (R386). -/
def State.packetForMe (s : State) (l : List Byte) : Bool :=
  (be16 l 12 == 0xFFFF && be16 l 4 == opEnumerate.toNat) ||
    if s.mram.addressed then be16 l 12 == s.mram.address.toNat || s.serialIn l
    else s.serialIn l && (be16 l 4 == opIdentify.toNat || be16 l 4 == opConfirm.toNat)

/-- The module consumes a frame (R381): a command frame to its MAC or to the group that is for it (one with another TARGET the ring forwards, R42), and a
heartbeat that names it. It takes the other frames of the table too, but they go on to the other modules (log 130). -/
def State.consumes (s : State) (f : HsrFrame) : Bool :=
  (f.etherType == etCommand && (f.dest == s.mram.mac || f.dest == groupCommand) && s.packetForMe f.payload) ||
    (isStation f && byteAt f.payload 0 == 2 && s.mram.addressed && be16 f.payload 16 == s.mram.address.toNat)

/-- PTP_EN and PTP_DOMAIN (R391). -/
def State.ptpEn (s : State) : Bool := bit (s.cfg 0xC00 0) 31
def State.ptpDomain (s : State) : Nat := bits (s.cfg 0xC00 0) 7 0

/-- An ENUMERATE packet for every module: HSR duplicate discard does not apply to it, and the module forwards it itself (R386). -/
def isEnumerate (f : HsrFrame) : Bool := f.etherType == etCommand && be16 f.payload 12 == 0xFFFF && be16 f.payload 4 == opEnumerate.toNat

/-- A message of the PTP domain (R389, IEEE 1588-2019): its type, as it arrives. -/
def State.ptpType (s : State) (f : HsrFrame) : Option Nat :=
  if f.etherType == etPtp && f.dest == groupPtp && byteAt f.payload 4 == s.ptpDomain then some (byteAt f.payload 0 % 16) else none

/-- A message goes through the transparent clock (R389): the time that its Sync or Delay_Req stayed in the module is added to the correctionField of
a Follow_Up (8) and a Delay_Resp (9), in 2⁻¹⁶ ns. -/
def State.throughClock (s : State) (f : HsrFrame) : HsrFrame :=
  if s.ptpType f == some 8 || s.ptpType f == some 9 then
    let old := be32 f.payload 8 * 2 ^ 32 + be32 f.payload 12
    let new := (old + (Config.residence f.source.toNat (be16 f.payload 30)).toNat) % 2 ^ 64
    { f with payload := f.payload.take 8 ++ toBe 8 new ++ f.payload.drop 16 }
  else f

/-- HSR_FRAME_RECEIVED (R380, R381, R383): the first copy is taken and a duplicate discarded; a frame that is not consumed goes on by the other
port; a station frame of an unknown kind or version is discarded and counted. An Announce (11) of the domain lets time be acquired (R390). Of an ENUMERATE
frame the number in its HSR tag is kept until the packet is executed (R386). -/
def execHsrFrameReceived (p : Fin 2) (f : HsrFrame) (s : State) : Out :=
  if !s.ringPortUp p then .next s
  else
    let new := f.etherType == etSupervision && f.dest == groupSupervision
    let s := s.modRingPort p fun x =>
      { x with rxFrames := x.rxFrames + 1
               nodes := if new && !x.nodes.contains f.source && x.nodes.length < 256 then x.nodes ++ [f.source] else x.nodes }
    if isEnumerate f then .next { s with ring := { s.ring with enumTag := s.ring.enumTag.put p.val (f.payload, f.seq) } }
    else if f.source == s.mram.mac || s.hsrSeen f then .next (s.modRingPort p fun x => { x with duplicates := x.duplicates + 1 })
    else
      let keep := s.ring.seen.filter fun e => decide (s.now < e.2.2 + 400000000)
      let s := { s with ring := { s.ring with
        seen := keep ++ [(f.source, f.seq, s.now)], announced := s.ring.announced || (s.ptpEn && s.ptpType f == some 11) } }
      if isStation f && !stationKnown f.payload then .next (s.modRingPort p fun x => { x with badStation := satInc x.badStation })
      else if s.consumes f then .next s
      else .next (s.portTx (1 - p.val) (s.throughClock f))

/-- What the module says of itself in its n-th supervision frame: version 1 and the entry of an HSR node, type 23, with its MAC (IEC 62439-3; PRESUMED,
log 27). -/
def State.supervision (s : State) (n : Nat) : List Byte := toBe 2 1 ++ toBe 2 n ++ toBe 1 23 ++ toBe 1 6 ++ toBe 6 s.mram.mac.toNat ++ pad 2

/-- HSR_SUPERVISION (R380): a supervision frame on both ports, every 2,000 ms. -/
def execHsrSupervision (s : State) : Out :=
  if s.ringUp && s.dueEvery s.ring.supervisionAt 2000000000 then
    let n := s.ring.supervisions + 1
    .next ({ s with ring := { s.ring with supervisions := n, supervisionAt := some s.now } }.sendRing groupSupervision etSupervision (s.supervision n))
  else .next s

/-! ## Addresses (R385 to R388) -/

/-- A frame with the module's own final address from another serial (R388). -/
def State.judgeDuplicate (s : State) (address : BitVec 16) (serial : BitVec 64) : State :=
  if s.mram.addressed && s.ring.provisional.isNone && address == s.mram.address.zeroExtend 16 && serial != s.mram.serial then
    { s with ring := { s.ring with duplicateAt := some s.now } }.raise .addressDuplicate (mkWord [(9, 0, s.mram.address.toNat)])
  else s

/-- The first copy of a station frame has been taken within the time for which HSR remembers it (R380; PRESUMED, log 27): by KIND, SERIAL and SEQ, which
name one frame (R383). -/
def State.stationSeen (s : State) (kind : Nat) (serial : BitVec 64) (seq : BitVec 32) : Bool :=
  s.ring.stationSeen.any fun e => e.1 == kind && e.2.1 == serial && e.2.2.1 == seq && decide (s.now < e.2.2.2 + 400000000)

/-- The first copy of a station frame is taken (R380). -/
def State.noteStation (s : State) (kind : Nat) (serial : BitVec 64) (seq : BitVec 32) : State :=
  let keep := s.ring.stationSeen.filter fun e => decide (s.now < e.2.2.2 + 400000000)
  { s with ring := { s.ring with stationSeen := keep ++ [(kind, serial, seq, s.now)] } }

/-- RING_TRIP_FRAME_RECEIVED (R380, R383, R388): FIRE takes the states of the first copy; a module's own frame does not come back to it. -/
def execRingTripFrameReceived (p : Fin 2) (f : TripFrame) (s : State) : Out :=
  if !s.ringPortUp p || f.serial == s.mram.serial || s.stationSeen 1 f.serial f.seq then .next s
  else .next (((s.noteStation 1 f.serial f.seq).judgeDuplicate f.address f.serial).toFire (.ring f.address f.states))

/-- Sends an announce (R383). -/
def State.announce (s : State) : State :=
  let a := s.mram.address.toNat
  let s := s.sendStation (.announce (BitVec.ofNat 8 (a / 64)) (BitVec.ofNat 8 (a % 64)) s.ring.provisional.isSome)
  { s with ring := { s.ring with announceAt := some s.now } }

/-- ANNOUNCE_SEND (R383): every 1 s. -/
def execAnnounceSend (s : State) : Out :=
  if s.mram.addressed && s.ringUp && s.dueEvery s.ring.announceAt 1000000000 then .next s.announce else .next s

/-- What an announce of an address by a serial brings about (R387, R388): a provisional address that another serial holds is withdrawn; a final one is a
duplicate. -/
def State.takeAnnounce (s : State) (address : BitVec 16) (serial : BitVec 64) : State :=
  if s.mram.addressed && s.ring.provisional.isSome && address == s.mram.address.zeroExtend 16 && serial != s.mram.serial then
    { s with mram := { s.mram with addressed := false }, ring := { s.ring with provisional := none } }.raise .addressDuplicate
      (mkWord [(9, 0, s.mram.address.toNat)])
  else s.judgeDuplicate address serial

/-- ANNOUNCE_RECEIVED (R380, R387, R388): the first copy is taken and a duplicate discarded. -/
def execAnnounceReceived (address : BitVec 16) (sender : StationSender) (s : State) : Out :=
  if !s.ringUp || s.stationSeen 3 sender.serial sender.seq then .next s
  else .next ((s.noteStation 3 sender.serial sender.seq).takeAnnounce address sender.serial)

/-- PROVISIONAL_EXPIRY (R387): 3 s without such an announce make the address final. -/
def execProvisionalExpiry (s : State) : Out :=
  match s.ring.provisional with
  | some t =>
    if s.now < t + 3000000000 then .next s
    else .next ({ s with ring := { s.ring with provisional := none } }.raise .addressAssigned (mkWord [(9, 0, s.mram.address.toNat)]))
  | none => .next s

/-- DUPLICATE_CLEAR (R388): 10 s without such a frame. -/
def execDuplicateClear (s : State) : Out :=
  match s.ring.duplicateAt with
  | some t => if s.now < t + 10000000000 then .next s else .next { s with ring := { s.ring with duplicateAt := none } }
  | none => .next s

/-- The enumerated address acts on the module (R387). -/
def State.enumerated (s : State) (a : BitVec 10) : State :=
  if !s.mram.addressed then
    { s with mram := { s.mram with addressed := true, address := a }, ring := { s.ring with provisional := some s.now } }.announce
  else if a == s.mram.address then s
  else { s with mram := { s.mram.wrote 0xC02 with candidateValid := true, candidate := a } }.raise .addressMoved
    (mkWord [(25, 16, a.toNat), (9, 0, s.mram.address.toNat)])

/-- ENUMERATE (R64, R386): taken from every transport (R42), forwarded from a ring port on the other one; never answered. -/
def enumerateDesc : CmdDesc := { code := opEnumerate, roles := [], fits := exact 4, kind := .local_ }

/-- What goes on round the ring: the packet unchanged where no position is left, else with COUNT raised by one. -/
def enumerateOn (p : Packet) : Packet :=
  let count := byteAt p.body 1
  if 64 ≤ count then p
  else
    let body := [byteAt p.body 0, count + 1, byteAt p.body 2, byteAt p.body 3].map (BitVec.ofNat 8)
    { p with payload := if p.flag 3 then p.payload.take 8 ++ body else body }

/-- The number in the HSR tag of a received ENUMERATE packet (R386): that of the frame which brought it to its port; free where no such frame has come
(log 13). -/
def State.enumSeq (s : State) (p : Packet) (port : Nat) : BitVec 16 :=
  match s.ring.enumTag.find? fun e => e.1 == port && (p.header ++ p.payload).isPrefixOf e.2.1 with
  | some e => e.2.2
  | none => Config.enumSeq p.seq.toNat

/-- The received frame goes on by the other port only, with its source and the number of its HSR tag (R386). -/
def State.forwardEnumerate (s : State) (p : Packet) : State :=
  match p.port with
  | .ringA | .ringB =>
    let other : Port := match p.port with | .ringA => .ringB | _ => .ringA
    if s.portDown other then s
    else
      let q := enumerateOn p
      let f : HsrFrame := { source := p.peer, dest := groupCommand, seq := s.enumSeq p (portNo p.port), etherType := etCommand
                            payload := q.header ++ q.payload ++ q.auth }
      { s with ring := { s.ring with enumFwd := some { q with port := other } } }.portTx (portNo other) f
  | _ => s

def runEnumerate (p : Packet) (s : State) : State :=
  let ring := byteAt p.body 0 % 16
  let count := byteAt p.body 1
  let full := 64 ≤ count
  let s := s.forwardEnumerate p
  if full then s.raise .ringOverfull (mkWord [(3, 0, ring)]) else s.enumerated (BitVec.ofNat 10 (ring * 64 + count))

def execEnumerate (p : Packet) (s : State) : Out := s.command p enumerateDesc fun _ _ s => runEnumerate p s

/-- CONFIRM_ADDRESS (R64, R387), which a module takes by its serial only. -/
def confirmAddressDesc (p : Packet) : CmdDesc :=
  { code := opConfirm, roles := [.maintain], fits := fun l => p.flag 3 && l.isEmpty, kind := .local_ }

def runConfirmAddress (c : Ctx) (_ : List Byte) (s : State) : State :=
  let old := s.mram.address
  let s' :=
    if s.mram.candidateValid then
      let s := { s with mram := { s.mram.wrote 0xC02 with addressed := true, address := s.mram.candidate, candidateValid := false, candidate := 0 }
                        ring := { s.ring with provisional := none } }
      (s.raise .addressConfirmed (mkWord [(25, 16, old.toNat), (9, 0, s.mram.address.toNat)])).announce
    else s
  s'.reply c .ok (toBe 2 s'.mram.address.toNat)

def execConfirmAddress (p : Packet) (s : State) : Out := s.command p (confirmAddressDesc p) runConfirmAddress

/-! ## Module time (R389, R390) -/

def State.syncLimit (s : State) : Nat := (s.cfg 0xC00 1).toNat

/-- Module time takes one step to the measured offset, before full service and while it is acquired (R390). -/
def State.stepTime (s : State) (offset : Int) : State :=
  if s.ring.time == .acquiring && s.service == .sideStreet && !s.ring.stepped then
    let t := s.shiftTime offset
    { t with ring := { t.ring with stepped := true } }
  else s

/-- The frequency correction after a Sync (R390), in 10⁻⁹: at most 200 ppm. An offset beyond SYNC_LIMIT_NS is worked off at the full rate; a smaller one
is left to the servo, which is free (log 28). -/
def State.slewFor (s : State) (offset : Int) : Int :=
  if offset.natAbs ≤ s.syncLimit then ((Config.slewPpb s.freeCount).val : Int) - 200000
  else if 0 < offset then -200000 else 200000

/-- Module time after `ns` of the local oscillator, at the rate of the last correction (R389, R390). -/
def State.lapse (s : State) (ns : Nat) : State :=
  let x : Int := s.ring.rateAcc + ns * s.ring.ratePpb
  { s with now := ((s.now : Int) + ns + x / 1000000000).toNat, ring := { s.ring with rateAcc := (x % 1000000000).toNat } }

/-- The Delay_Req message number `n` of the module's clock (IEEE 1588-2019; PRESUMED, log 153): type 1, version 2.1, 44 bytes, the domain, the
identity of the clock made from its MAC, port 1, control 1, and zeros. -/
def State.delayReq (s : State) (n : BitVec 16) : List Byte :=
  let m := s.mram.mac.toNat
  toBe 1 1 ++ toBe 1 0x12 ++ toBe 2 44 ++ toBe 1 s.ptpDomain ++ pad 3 ++ pad 12 ++ toBe 3 (m / 2 ^ 24) ++ toBe 2 0xFFFE ++ toBe 3 m ++ toBe 2 1 ++
    toBe 2 n.toNat ++ toBe 1 1 ++ toBe 1 0x7F ++ pad 10

/-- The module asks for the path delay (R389), after each Sync that it takes (log 153). -/
def State.askDelay (s : State) : State :=
  let n := s.ring.ptpReq + 1
  { s with ring := { s.ring with ptpReq := n } }.sendRing groupPtp etPtp (s.delayReq n)

/-- PTP_SYNC_RECEIVED (R389, R390): the offset and path delay measured with a Sync of the domain on the PTP port. Once an Announce has come too, time is
acquired: before full service by one step, and then by slewing, which changes its rate only. After a write of PTP_DOMAIN a Sync corrects nothing before an
Announce of that domain has come (log 153). -/
def execPtpSyncReceived (f : PtpSync) (m : PtpMeasured) (s : State) : Out :=
  if !s.ptpEn || !s.ringPortUp f.port || f.port.val != b2n s.syncPort || f.domain.toNat != s.ptpDomain then .next s
  else
    let s := { s with ring := { s.ring with offsetNs := m.offset, pathDelay := m.delay, lastSync := some s.now } }.askDelay
    let s := if s.ring.announced && (s.ring.time == .freeRun || s.ring.time == .holdover) then s.enterTime .acquiring else s
    if s.ring.time == .freeRun || s.ring.time == .holdover || !s.ring.announced then .next s
    else
      let s := s.stepTime m.offset
      let s := { s with ring := { s.ring with ratePpb := s.slewFor m.offset } }.draw
      if s.ring.time != .acquiring then .next s
      else
        let n := if m.offset.natAbs ≤ s.syncLimit then s.ring.inLimit + 1 else 0
        if 16 ≤ n then .next (s.enterTime .locked) else .next { s with ring := { s.ring with inLimit := n } }

/-- PTP_SYNC_TIMEOUT (R390): no Sync for 3 s. -/
def execPtpSyncTimeout (s : State) : Out :=
  match s.ring.lastSync with
  | some t =>
    if (s.ring.time == .acquiring || s.ring.time == .locked) && decide (t + 3000000000 ≤ s.now) then .next (s.enterTime .holdover)
    else .next s
  | none => .next s

/-- A write of PTP_EN or PTP_DOMAIN (R390, R391), made at once. -/
def State.ptpWritten (s : State) (old new : Word) : State :=
  if !bit new 31 then s.enterTime .freeRun
  else if bits old 7 0 != bits new 7 0 then
    let s := { s with ring := { s.ring with announced := false } }
    if s.ring.time == .acquiring || s.ring.time == .locked then s.enterTime .acquiring else s
  else s

/-- MODULE_TIME_STORE (R389): every 1 s, and at once where a step has set module time back. -/
def execModuleTimeStore (s : State) : Out :=
  if s.keepRuns && s.dueEvery (some s.mram.time) 1000000000 then .next { s with mram := { s.mram with time := s.now } } else .next s

/-! ## Temperature (R425, R378) -/

/-- THERMAL_SAMPLE (R425, R378), by PWR every 100 ms, in 0.01 °C; a thermistor outside −40 to +125 °C counts as not fitted (R415). -/
def execThermalSample (board hottest : Int) (thermistor : Option Int) (s : State) : Out :=
  if s.service == .off || !s.runs 18 || !s.dueEvery s.power.sampledAt 100000000 then .next s
  else
    let fitted := thermistor.filter fun t => decide (-4000 ≤ t ∧ t ≤ 12500)
    let s := { s with
      power := { s.power with sampledAt := some s.now, board := board, hottest := hottest, bandTemp := some (fitted.getD board) }
      mram := { s.mram with peak := max s.mram.peak (tenths hottest) } }
    .next s.judgeThermal.judgeBands

/-- A signed value in 16 bits, saturating. -/
def sat16 (x : Int) : Nat := (BitVec.ofInt 16 (clampInt (-32768) 32767 x)).toNat

/-- THERMAL_STATUS (R73, R425, R378). -/
def thermalStatusDesc : CmdDesc := { code := 0x0B01, roles := [.observe], fits := exact 0, kind := .local_ }

def runThermalStatus (c : Ctx) (_ : List Byte) (s : State) : State :=
  s.reply c .ok (toBe 2 (sat16 s.power.board) ++ toBe 2 (sat16 s.power.hottest) ++ toBe 1 s.panel.band ++ toBe 1 s.plate.band ++ pad 2)

def execThermalStatus (p : Packet) (s : State) : Out := s.command p thermalStatusDesc runThermalStatus

end Sys2Proof.Machine
end

