-- ==== Sys2Proof/Machine/Loader.lean ====
section
/-! DEFINITION. The loader's checks of a program image (R76, R85, R113, R119 to R122, R134, R137, R156, R252, R303), and what it reads from
the code for the relocation list (R99, R100). -/

namespace Sys2Proof.Machine

open Sys2Proof

/-! ## Reading the code -/

/-- The instructions of a block from word `a` on, each with its address and its words; none where a word spells no instruction, a
reserved field is not 0 or the last extension word lies beyond the block (R134). -/
def scanBlock (e : Fin 4) (code : Tab Word) (last : Nat) : Nat → Nat → Option (List (Nat × Instr × Nat))
  | 0, _ => some []
  | n + 1, a =>
    if last < a then some []
    else
      let w := code.get 0 a
      let x := code.get 0 (a + 1)
      match (decodeEngine e w x).bind fun i => (encodeEngine i).map fun r => (i, r.2) with
      | none => none
      | some (i, ws) =>
        if ws != [w, x].take ws.length || last < a + ws.length - 1 then none
        else (scanBlock e code last n (a + ws.length)).map fun l => (a, i, ws.length) :: l

/-- The instructions of a block. -/
def Block.instrs (b : Block) (code : Tab Word) : Option (List (Nat × Instr × Nat)) :=
  scanBlock b.engine code (b.first + b.length - 1) b.length b.first

/-- Every instruction of an image, as far as it can be read. -/
def Bank.instrs (k : Bank) : List Instr := k.desc.blocks.flatMap fun b => ((b.instrs k.code).getD []).map fun x => x.2.1

/-- The edge bits that edge instructions name. -/
def edgesOf (l : List Instr) : List Nat :=
  l.filterMap fun i => match i with
    | .andr _ o | .andf _ o | .orr _ o | .orf _ o => some o.edge.toNat
    | _ => none

/-- A timer instruction: the timer, its kind and its extension word; TCLR names no kind (R122). -/
def timerUse : Instr → Option (Nat × Option (Nat × List Word))
  | .ton _ o => some (o.timer.toNat, some (0, (timerWords 0 o).drop 1))
  | .tof _ o => some (o.timer.toNat, some (1, (timerWords 0 o).drop 1))
  | .tp _ o => some (o.timer.toNat, some (2, (timerWords 0 o).drop 1))
  | .tclr _ n => some (n.toNat, none)
  | _ => none

/-- Kind and extension word of a timer in an image. -/
def timerKind (l : List Instr) (n : Nat) : Option (Nat × List Word) :=
  (l.filterMap timerUse).findSome? fun u => if u.1 = n then u.2 else none

/-! ## Areas and owners (R85, R108) -/

/-- Words of an area under an image. The loader counts the whole words of M (DESIGN CHOICE, log 164). -/
def ImageDesc.areaWords (d : ImageDesc) (a : Area) : Nat :=
  match a with
  | .I | .S => 16384
  | .Q => 1024
  | .M => d.mBytes / 4
  | .D => d.dSize
  | .E => 32768
  | .T => 16384
  | .C => 8192
  | .K | .N => 65536
  | .Z => 128
  | .L => 8192

/-- The engine of a word in an image's ownership table. -/
def ImageDesc.ownerOf (d : ImageDesc) (a : Area) (w : Nat) : Option (Fin 4) :=
  (d.owners.find? fun o => o.area == a && o.first ≤ w && w < o.first + o.count).map (·.engine)

/-- An engine owns every word of a timer, a counter or a total (R85, R323). -/
def ImageDesc.ownsUnit (d : ImageDesc) (e : Fin 4) (a : Area) (n : Nat) : Bool :=
  (List.range (unitWords a)).all fun i => d.ownerOf a (unitWords a * n + i) == some e

/-- Timers, counters and edge bits may be read by their owner only (R85). -/
def ownRead (a : Area) : Bool := a == .T || a == .C || a == .E

/-- A bit read is allowed (R108, R85). -/
def ImageDesc.bitReadOk (d : ImageDesc) (e : Fin 4) (o : Operand) : Bool :=
  match o.area with
  | .Z => false
  | .T | .C => o.offset.toNat < 4096 && d.ownsUnit e o.area o.offset.toNat
  | a =>
    let w := (Operand.place o).1
    w < d.areaWords a && (a != .E || d.ownerOf .E w == some e)

/-- The word number of a word operand, none where its offset is not allowed (R109). -/
def wordNo (a : Area) (off : Nat) : Option Nat := if bitArea a then (if off % 32 = 0 then some (off / 32) else none) else some off

/-- A word read is allowed. -/
def ImageDesc.wordReadOk (d : ImageDesc) (e : Fin 4) (a : Area) (off : Nat) : Bool :=
  match wordNo a off with
  | none => false
  | some w => a != .E && w < d.areaWords a && (!ownRead a || d.ownerOf a w == some e)

/-- A word of area N that the image writes is no reserved or station-status word (R252). -/
def State.nOk (s : State) (a : Area) (w : Nat) : Bool := a != .N || s.nWritable w

/-- A word write is allowed. -/
def State.wordWriteOk (s : State) (d : ImageDesc) (e : Fin 4) (a : Area) (off : Nat) : Bool :=
  match wordNo a off with
  | none => false
  | some w => mayWriteWord a off && w < d.areaWords a && d.ownerOf a w == some e && s.nOk a w

/-- A bit write is allowed. -/
def State.bitWriteOk (s : State) (d : ImageDesc) (e : Fin 4) (o : Operand) : Bool :=
  let w := (Operand.place o).1
  mayWriteBit o.area w && w < d.areaWords o.area && d.ownerOf o.area w == some e && s.nOk o.area w

/-- A timer or counter of the engine's own. -/
def ImageDesc.unitOk (d : ImageDesc) (e : Fin 4) (a : Area) (n : Nat) : Bool := n < 4096 && d.ownsUnit e a n

/-- A call is allowed: the block is on the same engine and no event block (R120). -/
def ImageDesc.callOk (d : ImageDesc) (e : Fin 4) (n : Nat) : Bool :=
  match d.blocks.find? (·.number == n) with
  | some b => b.engine == e && b.event.isNone
  | none => false

/-- One instruction of a block is allowed (R85, R108, R120, R134, R137). `starts` are the addresses of the block's instruction words. -/
def State.instrOk (s : State) (d : ImageDesc) (starts : List Nat) : Instr → Bool
  | .ld e o | .ldn e o | .and_ e o | .andn e o | .or_ e o | .orn e o | .xor_ e o | .xorn e o => d.bitReadOk e o
  | .out e o | .setb e o | .clrb e o => s.bitWriteOk d e o
  | .andr e o | .andf e o | .orr e o | .orf e o => d.bitReadOk e o.op && d.ownerOf .E (o.edge.toNat / 32) == some e
  | .ton e o | .tof e o | .tp e o => d.unitOk e .T o.timer.toNat
  | .tclr e n => d.unitOk e .T n.toNat
  | .cup e n | .cdn e n | .cld e n | .cclr e n => d.unitOk e .C n.toNat
  | .lw e o _ => d.wordReadOk e o.area o.offset.toNat
  | .sw e o _ => s.wordWriteOk d e o.area o.offset.toNat
  | .move e a b | .bmove e a b => d.wordReadOk e a.area a.offset.toNat && s.wordWriteOk d e b.area b.offset.toNat
  | .jmp _ t | .jt _ t | .jf _ t | .jov _ t | .jovs _ t => starts.contains t.toNat
  | .call e n | .callt e n => d.callOk e n.toNat
  | .tot e n => n.toNat < 64 && d.ownsUnit e .Z n.toNat && totKind (s.totCfg n.toNat) == .program
  | .sev _ n => n.toNat < 512 && !reservedSource n.toNat
  | _ => true

/-! ## Brackets and paths (R113, R134) -/

def isOpen : Instr → Bool
  | .andOpen _ | .andnOpen _ | .orOpen _ | .ornOpen _ | .xorOpen _ | .xornOpen _ => true
  | _ => false

def isClose : Instr → Bool
  | .closeBracket _ => true
  | _ => false

/-- What may stand inside a bracket (R113). LD and LDN load CB whatever stands open and are no combine instructions (R111). -/
def mayNest (i : Instr) : Bool :=
  isOpen i || isClose i ||
    match i with
    | .and_ .. | .andn .. | .or_ .. | .orn .. | .xor_ .. | .xorn .. | .inv _ | .cbset _ | .cbclr _
    | .andr .. | .andf .. | .orr .. | .orf .. | .lw .. | .lwi .. | .swap _ | .add _ | .sub _ | .mul _ | .div _ | .rem _ | .neg _
    | .eq_ _ | .ne_ _ | .gt_ _ | .ge_ _ | .lt_ _ | .le_ _ => true
    | _ => false

/-- The jump target of an instruction. -/
def jumpTo : Instr → Option Nat
  | .jmp _ t | .jt _ t | .jf _ t | .jov _ t | .jovs _ t => some t.toNat
  | _ => none

/-- Brackets balance, hold something, nest no deeper than 16 and hold only what may stand there. Since no jump may stand inside a
bracket, a target inside one is the only way into it. `inside` gathers the addresses inside brackets. -/
def bracketsOk : List (Nat × Instr × Nat) → Nat → Bool → List Nat → Option (List Nat)
  | [], depth, _, inside => if depth = 0 then some inside else none
  | (a, i, _) :: l, depth, opened, inside =>
    let inside := if depth = 0 then inside else a :: inside
    if 0 < depth && !mayNest i then none
    else if isOpen i then (if 16 ≤ depth then none else bracketsOk l (depth + 1) true inside)
    else if isClose i then (if depth = 0 || opened then none else bracketsOk l (depth - 1) false inside)
    else bracketsOk l depth false inside

/-- The addresses that follow an instruction in a path. -/
def nextOf (x : Nat × Instr × Nat) : List Nat :=
  match x.2.1 with
  | .end_ _ | .ret _ => []
  | .jmp _ t => [t.toNat]
  | i => (x.1 + x.2.2) :: (jumpTo i).toList

/-- The addresses reached from a list of addresses. -/
def reached (l : List (Nat × Instr × Nat)) : Nat → List Nat → List Nat
  | 0, s => s
  | n + 1, s => reached l n (s ++ ((l.filter fun x => s.contains x.1).flatMap nextOf).filter fun a => !s.contains a).dedup

/-- No path runs past the last word of the block (R134). -/
def pathsOk (b : Block) (l : List (Nat × Instr × Nat)) : Bool := (reached l l.length [b.first]).all fun a => l.any (·.1 == a)

/-- The depth of calls from a block, none when it passes 8 or comes back to itself (R120). -/
def ImageDesc.callDepth (d : ImageDesc) (code : Tab Word) : Nat → Nat → Option Nat
  | 0, _ => none
  | n + 1, b =>
    match d.blocks.find? (·.number == b) with
    | none => some 0
    | some k =>
      let calls := ((k.instrs code).getD []).filterMap fun x => match x.2.1 with | .call _ t | .callt _ t => some t.toNat | _ => none
      calls.foldl (fun m t => match m, d.callDepth code n t with | some x, some y => some (max x (y + 1)) | _, _ => none) (some 0)

/-- One block passes the loader. -/
def State.blockOk (s : State) (d : ImageDesc) (code : Tab Word) (words : Nat) (b : Block) : Bool :=
  1 ≤ b.length && b.first + b.length ≤ words && b.number < 1024 && (match b.event with | some v => v < 64 | none => true) &&
    match b.instrs code with
    | none => false
    | some l =>
      let starts := l.map (·.1)
      (l.all fun x => s.instrOk d starts x.2.1) && pathsOk b l && (d.callDepth code 9 b.number).isSome &&
        match bracketsOk l 0 false [] with
        | none => false
        | some inside => l.all fun x => match jumpTo x.2.1 with | some t => !inside.contains t | none => true

/-! ## The whole image -/

/-- Two entries of the ownership table name a common word. -/
def Owner.meets (a b : Owner) : Bool := a.area == b.area && a.first < b.first + b.count && b.first < a.first + a.count

/-- No word has two owners (R85). -/
def ownersOk : List Owner → Bool
  | [] => true
  | o :: l => !(l.any o.meets) && ownersOk l

/-- All timer instructions of one timer agree in kind and extension word (R122). -/
def timersOk (l : List Instr) : Bool :=
  let u := (l.filterMap timerUse).filterMap fun x => x.2.map fun k => (x.1, k)
  u.all fun x => u.all fun y => x.1 != y.1 || x.2 == y.2

/-- The word of Q or N that a loop context drives as its sink (R156). -/
def State.sinkWord (s : State) (x : Nat) : Option (Area × Nat) :=
  let k := s.loopSink x
  match k.1 with
  | 1 => some (.Q, 32 + k.2)
  | 2 => some (.N, k.2)
  | _ => none

/-- Words that a symbol declares, in bytes. -/
def ImageDesc.retainedBytes (d : ImageDesc) : Nat := 4 * ((d.symbols.filter (·.retained)).map fun y => y.words.length).sum

/-- Every check that the loader makes of a complete image. -/
def State.imageOk (s : State) (d : ImageDesc) (code : Tab Word) (words : Nat) : Bool :=
  let l := ({ code := code, desc := d } : Bank).instrs
  d.mBytes ≤ kib 128 && d.dWords ≤ d.dSize && 1 ≤ d.blocks.length && d.blocks.length ≤ 1024 &&
    decide (d.blocks.map (·.number)).Nodup && decide (d.blocks.filterMap (·.event)).Nodup &&
    ownersOk d.owners && (d.blocks.all (s.blockOk d code words)) &&
    decide (edgesOf l).Nodup && timersOk l &&
    (s.usedContexts.all fun x => match s.sinkWord x with | some w => (d.ownerOf w.1 w.2).isNone | none => true) &&
    d.retainedBytes ≤ kib 512 && d.consts.length ≤ 65536 && s.ledgerBytes d ≤ 65536

end Sys2Proof.Machine
end

