-- ==== Sys2Proof/Machine/Program.lean ====
section
/-! DEFINITION. Program banks and the retained image (chapter 03): loading an image, the switch at a cycle boundary with its carry-over,
run and stop, and what KEEP stores of a committed cycle. -/

namespace Sys2Proof.Machine

open Sys2Proof

/-! ## Loading (R65, R99, R102) -/

/-- A load of `words` words opens in a bank (R99): what the bank held goes, and an open load is abandoned. -/
def State.openLoad (s : State) (b : Bool) (words : Nat) (crc : Word) : State :=
  let s := match s.square.load with
    | some o => s.setBank (b2n o) {}
    | none => s
  let s := s.setBank (b2n b) { state := .loading, words := words, crc := crc }
  { s with square := { s.square with load := some b } }.judgeDomains

/-- Words of the open load (R340, R343, R345). -/
def State.loadWords (s : State) (b : Bool) (at_ : Nat) (l : List Word) : State :=
  (s.writeSpan (b2n b) (4 * at_) (4 * l.length)).modBank (b2n b) fun k =>
    { k with code := l.zipIdx.foldl (fun (t : Tab Word) (e : Word × Nat) => t.set 0 (at_ + e.2) e.1) k.code, poison := k.poison.clearRange at_ l.length }

/-- The words of a bank in their order; one that no PROGRAM_DATA brought reads 0 (DESIGN CHOICE, log 101). -/
def Bank.image (k : Bank) : List Word := (List.range k.words).map (k.code.get 0)

/-- Closes the load of a bank as empty. -/
def State.dropLoad (s : State) (b : Bool) : State :=
  { (s.setBank (b2n b) {}) with square := { s.square with load := none } }.judgeDomains

/-- The constants of a bank go into its copy of area K (R77). What stands there past them stays (R352). -/
def State.putConsts (s : State) (b : Nat) (l : List Word) : State :=
  let s := s.writeSpan 2 (sqK + b * kib 256) (4 * l.length)
  { s with square := s.square.putWords (sqK + b * kib 256) l }

/-- A word of a bank's image holds stored poison: no code gives it back, so that the image's CRC fails (R345; DEDUCED, log 158). -/
def Bank.broken (k : Bank) : Bool := k.poison.any fun e => e.2 && decide (e.1 < k.words)

/-- The loader judges a complete image (R99): its CRC, then what it declares. -/
def State.finishLoad (s : State) (b partner : Bool) : State × Status :=
  let k := s.bank (b2n b)
  let d := Config.imageOf k.image
  if k.broken || crcWords k.image != k.crc then (s.dropLoad b, .checksumMismatch)
  else if !s.imageOk d k.code k.words then (s.dropLoad b, .imageRejected)
  else
    let s := (s.setBank (b2n b) { k with state := .verified, desc := d, partnerVerified := partner }).writeItem (.bank b)
    let s := { s with mram := { s.mram with bankVoid := s.mram.bankVoid.set false (b2n b) false }, square := { s.square with load := none } }
    ((s.putConsts (b2n b) d.consts).judgeDomains, .ok)

def programBeginDesc : CmdDesc := { code := 0x0200, roles := [.engineer], fits := exact 12, kind := .change }

/-- PROGRAM_BEGIN (R99, R430, R102); in a synchronised pair the load opens at the common boundary (R305; log 42). -/
def runProgramBegin (c : Ctx) (b : List Byte) (s : State) : State :=
  let k := byteAt b 0
  let words := be32 b 4
  let staged := match s.square.switch with | some w => b2n w.bank == k | none => false
  if 1 < k || words < 1 || 262144 < words then s.refuse c .outOfRange
  else if (s.bank k).state == .running || staged then s.refuse c .wrongState
  else s.forwardOr c (.programBegin (k == 1) words (beWord b 8)) (fun s => s.openLoad (k == 1) words (beWord b 8)) fun s => s.ok c

def execProgramBegin (p : Packet) (s : State) : Out := s.command p programBeginDesc runProgramBegin

def programDataDesc : CmdDesc :=
  { code := 0x0201, roles := [.engineer], cls := 3, fits := fun b => 4 ≤ b.length && b.length % 4 == 0 && b.length ≤ 1400, kind := .change }

/-- PROGRAM_DATA (R99, R102), for the load that is open at its boundary (R305). -/
def runProgramData (c : Ctx) (b : List Byte) (s : State) : State :=
  let at_ := be32 b 0
  let l := packWords ((b.length - 4) / 4) (b.drop 4)
  match s.plannedLoad with
  | none => s.refuse c .wrongState
  | some k =>
    if k.2 < at_ + l.length then s.refuse c .outOfRange
    else s.forwardOr c (.programData at_ l) (fun s => s.loadWords k.1 at_ l) fun s => s.ok c

def execProgramData (p : Packet) (s : State) : Out := s.command p programDataDesc runProgramData

def programEndDesc : CmdDesc := { code := 0x0202, roles := [.engineer], fits := exact 0, kind := .change }

/-- A read that no command of this module waits for. -/
def unanswered : Ctx := { (default : Ctx) with opcode := 0x0202, broadcast := true }

/-- The load in bank `k` ends, and its PROGRAM_END is answered with the CRC found. Whether the standby verifies the same image is not to be seen from
here; a standby holds what its active has (R102). The check reads the bank (R341); while a page of it is under repair it waits, and judges what the
repair leaves (R343; DEDUCED, log 158). -/
def State.endLoad (s : State) (k : Bool) (c : Option Ctx) : State :=
  let n := 4 * (s.bank (b2n k)).words
  let s := s.readSpan (b2n k) 0 n
  if s.spanLocked (b2n k) 0 n then
    { s with sup := { s.sup with stalled := s.sup.stalled ++ [{ ctx := c.getD unanswered, body := toBe 1 (b2n k), marks := [] }] } }
  else
  let partner : Bool := if s.forwards then Config.partnerVerifies s.freeCount else s.standby
  let crc := crcWords (s.bank (b2n k)).image
  let r := (if s.forwards then s.draw else s).finishLoad k partner
  match c with
  | some c => r.1.reply c r.2 (wordBe crc)
  | none => r.1

/-- The end of a load that waited for a page goes on (R343), if the load is still open. -/
def State.resumeLoad (s : State) (c : Ctx) (b : List Byte) : State :=
  let k := byteAt b 0 == 1
  if s.square.load == some k then s.endLoad k (some c) else s.refuse c .wrongState

/-- PROGRAM_END (R99, R102): in a synchronised pair it is answered when the load ends at the common boundary (R305; log 42). -/
def runProgramEnd (c : Ctx) (_ : List Byte) (s : State) : State :=
  match s.plannedLoad with
  | none => s.refuse c .wrongState
  | some k =>
    if !s.forwards then s.endLoad k.1 (some c)
    else if s.causewayLost then s.replyBusy c true
    else { s.queueChange .programEnd with square := { s.square with loadFor := some c } }

def execProgramEnd (p : Packet) (s : State) : Out := s.command p programEndDesc runProgramEnd

/-! ## Switching (R99, R100, R102, R430) -/

def programSwitchDesc : CmdDesc := { code := 0x0203, roles := [.engineer], fits := exact 4, kind := .change }

/-- PROGRAM_SWITCH: SWITCH_CYCLE is the current cycle plus 2, in a pair plus 8. Between two cycles the current one is the next to start
(DESIGN CHOICE, log 117). -/
def runProgramSwitch (c : Ctx) (b : List Byte) (s : State) : State :=
  let n := s.stagedNo
  let release := be32 b 0 == 1
  if 1 < be32 b 0 then s.refuse c .outOfRange
  else if s.square.switch.isSome then s.replyBusy c true
  else if (s.bank n).state != .verified || s.loadWaits (n == 1) then s.refuse c .wrongState
  else if !release && s.plannedForces.any (s.bank n).desc.lacks then s.refuse c .forceConflict
  else if s.hasStandby && !((s.bank n).partnerVerified || (!s.forwards && (s.bank n).inSnapshot)) then s.refuse c .standbyNotReady
  else
    let at_ := cyclePlus s.square.current (if s.pairMode then 8 else 2)
    ({ s with square := { s.square with switch := some { cycle := at_, bank := n == 1, releaseForces := release } } }).reply c .ok
      (toBe 4 at_.toNat)

def execProgramSwitch (p : Packet) (s : State) : Out := s.command p programSwitchDesc runProgramSwitch

/-- Area D follows the size of M in both copies (R76). Words that come to exist have nothing in them. -/
def Square.moveD (q : Square) (m0 m1 : Nat) : Square :=
  if m0 = m1 then q
  else
    let n := kib 2048 - 4096 - max m0 m1
    [0, sqCommitted].foldl (fun (q : Square) h =>
      let r := q.copy (h + 4096 + m0) (h + 4096 + m1) n
      if m0 < m1 then r.clear (h + 4096 + m0) (m1 - m0) else r.clear (h + 4096 + m1 + n) (m0 - m1)) q

/-- Writes a bit of a copied area into both copies. -/
def State.putBothBit (s : State) (a : Area) (w b : Nat) (v p : Bool) : State :=
  let s := s.putWorkBit a w b v p
  match s.wordAddr .done a w with
  | some q => { s with square := s.square.putBit q b v p }
  | none => s

/-- Item `k` of a symbol as committed; a bit as a word. -/
def State.symbolItem (s : State) (y : Symbol) (k : Nat) : Word × Bool :=
  let i := y.start + k
  if y.isBit then let w := s.sqWord .done y.area (i / 32); (BitVec.ofNat 32 (b2n (bit w.1 (i % 32))), w.2) else s.sqWord .done y.area i

/-- Writes item `k` of a symbol into both copies. -/
def State.putItem (s : State) (y : Symbol) (k : Nat) (v : Word × Bool) : State :=
  let i := y.start + k
  if y.isBit then s.putBothBit y.area (i / 32) (i % 32) (bit v.1 0) v.2 else s.putBoth y.area i v.1 v.2

/-- The symbol is one of the variables that a switch carries and a restart initialises (R100, R104). -/
def Symbol.variable (y : Symbol) : Bool := copied y.area (if y.isBit then y.start / 32 else y.start)

/-- The symbol of an image with the identity of another (R96, R100). -/
def ImageDesc.same (d : ImageDesc) (y : Symbol) : Option Symbol :=
  d.symbols.find? fun x => x.hash == y.hash && x.isBit == y.isBit && x.area == y.area

/-- A variable of the new image: its committed value, or its initial one (R100). -/
def State.carryVar (old : State) (d0 : ImageDesc) (s : State) (y : Symbol) : State :=
  if !y.variable then s
  else s.each (List.range y.count) fun s k =>
    let first := (y.initial.getD k 0, false)
    s.putItem y k (match d0.same y with | some x => if k < x.count then old.symbolItem x k else first | none => first)

/-- The timers or counters that a symbol names. -/
def Symbol.units (y : Symbol) : List Nat :=
  let l := (List.range y.count).map (y.start + ·)
  if y.isBit then l else (l.map fun k => k / unitWords y.area).dedup

/-- The timers or counters of an image that its symbols name, with the symbol and the place in it. -/
def ImageDesc.namedUnits (d : ImageDesc) (a : Area) : List (Nat × Symbol × Nat) :=
  (d.symbols.filter (·.area == a)).flatMap fun y => y.units.zipIdx.map fun (e : Nat × Nat) => (e.1, y, e.2)

/-- The number of the old image from which timer or counter `n` of the new one takes its state, if it keeps its identity (R100). -/
def carriedFrom (d0 d1 : ImageDesc) (a : Area) (same : Nat → Bool) (n : Nat) : Option Nat :=
  match (d1.namedUnits a).find? (·.1 == n) with
  | some e => (d0.same e.2.1).bind fun x => x.units[e.2.2]?
  | none => if (d0.namedUnits a).any (·.1 == n) || (d0.ownerOf a (unitWords a * n)).isNone || !same n then none else some n

/-- The numbers of an area that an image gives an owner. -/
def ImageDesc.unitsOf (d : ImageDesc) (a : Area) : List Nat :=
  ((d.owners.filter (·.area == a)).flatMap fun o => (List.range o.count).map fun k => (o.first + k) / unitWords a).dedup.filter (· < 4096)

/-- A counter as an image starts it (R104, R126). -/
def ImageDesc.counterStart (d : ImageDesc) (n : Nat) : Counter :=
  match d.counters.find? (·.1 == n) with
  | some e => { value := e.2.1, preset := BitVec.ofNat 29 (bits e.2.2 28 0) }
  | none => {}

/-- Timers and counters at a switch. -/
def State.carryUnits (s : State) (k0 k1 : Bank) : State :=
  let i0 := k0.instrs
  let i1 := k1.instrs
  let d0 := k0.desc
  let d1 := k1.desc
  let t := (d1.unitsOf .T).foldl (fun (t : Tab Timer) n =>
    match carriedFrom d0 d1 .T (fun n => timerKind i0 n == timerKind i1 n) n with
    | some m => t.set {} n (s.timer m)
    | none => t) []
  let c := (d1.unitsOf .C).foldl (fun (t : Tab Counter) n =>
    match carriedFrom d0 d1 .C (fun _ => true) n with
    | some m => t.set {} n (s.counter m)
    | none => t.set {} n (d1.counterStart n)) []
  { s with timers := t, counters := c }

/-- A force on the new image: the same word of its variable. A bit force takes its bits along, to each word that holds one of them; the other bits of that
word are as the forces `acc`, which have found their place before, and else as the committed copy has them (R100, log 8). -/
def State.carryForce (s : State) (d0 d1 : ImageDesc) (acc : List Force) (f : Force) : List Force :=
  let y : Symbol := { hash := f.hash, isBit := f.isBit, area := f.area, offset := 0, count := 0, retained := false, mirrored := false, initial := [] }
  match d0.same y, d1.same y with
  | some x0, some x1 =>
    if !f.isBit then
      if x0.start ≤ f.offset && f.offset - x0.start < x1.count then [{ f with offset := x1.start + (f.offset - x0.start) }] else []
    else
      let own := (List.range (min x0.count x1.count)).filter fun k => (x0.start + k) / 32 == f.offset
      (own.map fun k => (x1.start + k) / 32).dedup.map fun w =>
        let base := match acc.find? fun g => g.area == f.area && g.offset == w with | some g => g.value | none => (s.sqWord .done f.area w).1
        { f with offset := w, value := own.foldl (fun v j =>
            if (x1.start + j) / 32 == w then setBit v ((x1.start + j) % 32) (bit f.value ((x0.start + j) % 32)) else v) base }
  | none, some x1 => if x1.holds (if f.isBit then f.offset * 32 else f.offset) then [f] else []
  | _, none => []

/-- Forces find their places in their order, after those of `acc`: all of them with those, and the places alone. -/
def State.placeForces (s : State) (d0 d1 : ImageDesc) (acc l : List Force) : List Force × List Force :=
  l.foldl (fun (r : List Force × List Force) f =>
    let g := s.carryForce d0 d1 r.1 f
    (g.foldl setForce r.1, r.2 ++ g)) (acc, [])

/-- The forces and releases that are accepted and have not landed at a switch (R100, R430): their forces go to the new image's words, after those of
`acc`; one whose identity is missing is released; a release follows the forces on its words (log 119). `l` are the forces that stand or wait. -/
def State.carryLandings (s : State) (d0 d1 : ImageDesc) (l : List Force) : List Force → List Landing → List Landing
  | _, [] => []
  | acc, x :: rest =>
    match x.kind with
    | .forceSet m =>
      let r := s.placeForces d0 d1 acc m
      { x with kind := .forceSet r.2 } :: s.carryLandings d0 d1 l r.1 rest
    | .forceRelease m all =>
      let moved := fun (v : VarWord) => ((l.filter fun f => f.area == v.area && f.offset == v.word).flatMap (s.carryForce d0 d1 [])).map fun f =>
        ({ area := f.area, word := f.offset } : VarWord)
      { x with kind := .forceRelease (m.flatMap moved) all } :: s.carryLandings d0 d1 l acc rest
    | _ => x :: s.carryLandings d0 d1 l acc rest

/-- Every force finds its place in the new image or is released (R100). -/
def State.carryForces (s : State) (d0 d1 : ImageDesc) : State :=
  let l := s.plannedForces
  let kept := (s.placeForces d0 d1 [] s.mram.forces).1
  let gone := l.filter fun f => (s.carryForce d0 d1 [] f).isEmpty
  let s := { s with square := { s.square with landings := s.carryLandings d0 d1 l kept s.square.landings } }
  let s := if s.mram.forces == [] then s else (s.putForces kept).forceCopies
  s.each gone fun s f => s.raise .forceReleased f.hash

/-- The committed words from which a switch to bank `n` takes the values of variables, by their place in the Town Square (R100). -/
def State.carriedWords (s : State) (n : Nat) : List Nat :=
  (((s.bank n).desc.symbols.filter Symbol.variable).flatMap fun y => match s.image.same y with
    | some x => (List.range (min x.count y.count)).filterMap fun k => s.wordAddr .done x.area (if x.isBit then (x.start + k) / 32 else x.start + k)
    | none => []).dedup

/-- The words of both copies that a switch writes, under the image that runs then. -/
def State.carryTargets (s : State) (d : ImageDesc) : List Nat :=
  ((d.symbols.filter Symbol.variable).flatMap Symbol.words).flatMap fun w => (s.wordAddr .work w.1 w.2).toList ++ (s.wordAddr .done w.1 w.2).toList

/-- Area D is read at its old place and written at its new one, in both copies (R340, R341). -/
def State.moveSpans (s : State) (m0 m1 : Nat) : State :=
  if m0 = m1 then s
  else
    let n := kib 2048 - 4096 - max m0 m1
    s.each [0, sqCommitted] fun s h => (s.readSpan 2 (h + 4096 + m0) n).writeSpan 2 (h + 4096 + m1) n

/-- The running bank changes and data are carried over (R100). A word that was read with a mark is carried with it (R343). The bank that ran before
is verified from now on (DESIGN CHOICE, log 159). -/
def State.carryOver (s : State) (n : Nat) : State :=
  let k0 := if s.loaded then s.bank s.runBankNo else {}
  let k1 := s.bank n
  let s := (s.readWords 2 (s.carriedWords n)).moveSpans k0.desc.mBytes k1.desc.mBytes
  let old := { s with square := s.square.markAll s.square.commitBad }
  let s := if s.loaded then s.modBank s.runBankNo fun k => { k with state := .verified } else s
  let s := s.modBank n fun k => { k with state := .running }
  let s := { s with mram := { s.mram with runBank := n == 1 }, square := { s.square with commitBad := [] }.moveD k0.desc.mBytes k1.desc.mBytes }
  let s := s.writeWords 2 (s.carryTargets k1.desc).dedup
  let s := k1.desc.symbols.foldl (State.carryVar old k0.desc) s
  let s := (s.carryUnits k0 k1).keepUnits
  let edges := edgesOf k1.instrs
  let before := edgesOf k0.instrs
  let s := s.carryForces k0.desc k1.desc
  let prog : ProgState := if s.square.prog != .none_ then s.square.prog else if s.mram.runStop then .run else .stop
  let at_ := s.square.switch.map (·.cycle)
  let s := { s with pair := { s.pair with switchSeen := at_.getD s.pair.switchSeen } }
  let s := { s with square := { s.square with switch := none, announced := at_, nextFirst := { s.square.nextFirst with switch := true }, prog := prog
                                              newEdges := edges.filter fun e => !before.contains e } }
  (s.raise .programSwitched k1.crc).judgeDomains

/-- The switch falls due at the start of cycle `c`. -/
def State.switchDue (s : State) (c : BitVec 32) : Option Nat :=
  match s.square.switch with
  | some w => if w.cycle == c then some (b2n w.bank) else none
  | none => none

/-- A switch waits (R340, R343): for the repair of a page on which a word stands that it carries; what it finds uncorrectable it is given with a mark. -/
def State.switchHeld (s : State) (c : BitVec 32) : Option State :=
  match s.switchDue c with
  | none => none
  | some n =>
    let at_ := s.carriedWords n
    let bad := s.badOf 2 at_
    if bad != [] then some { s.readWords 2 at_ with square := { s.square with commitBad := s.square.commitBad ++ bad } }
    else if at_.any (s.locked 2) then some s
    else none

/-- The switch at the start of its cycle. A standby that has not verified the bank loses sync (R102). -/
def State.landSwitch (s : State) (c : BitVec 32) : State :=
  match s.switchDue c with
  | none => s
  | some n =>
    if (s.bank n).state == .verified then s.carryOver n
    else { s with square := { s.square with switch := none } }.missSwitch

/-- The domains of the engines on which an image has blocks. -/
def ImageDesc.domains (d : ImageDesc) : List Nat :=
  (2 :: if d.blocks.any (fun b => 2 ≤ b.engine.val) then [3] else [])

/-- The domains that a switch at the start of this cycle needs are on (R22). -/
def State.switchPowered (s : State) : Bool :=
  match s.switchDue s.square.current with
  | some n => (s.bank n).desc.domains.all s.domainOn
  | none => true

/-! ## Run and stop, statistics (R65, R95) -/

def runStopDesc : CmdDesc := { code := 0x0204, roles := [.engineer], fits := exact 4, kind := .change }

/-- RUN_STOP (R95): it takes effect at the start of the next cycle; the one in execute runs on in its mode, also when it is abandoned and runs
again (R34). -/
def runRunStop (c : Ctx) (b : List Byte) (s : State) : State :=
  let m := byteAt b 0
  if m != 1 && m != 2 then s.refuse c .outOfRange
  else
    let at_ := if s.square.phase == .idle then s.square.current else nextCycle s.square.current
    ({ s with square := { s.square with runStop := some (m == 1, at_) } }).reply c .ok (toBe 4 at_.toNat)

def execRunStop (p : Packet) (s : State) : Out := s.command p runStopDesc runRunStop

/-- PACING_US and WATCHDOG_US (object 0101h). -/
def State.pacingUs (s : State) : Nat := (s.cfg 0x101 0).toNat
def State.watchdogUs (s : State) : Nat := (s.cfg 0x101 1).toNat

def cycleStatsDesc : CmdDesc := { code := 0x0207, roles := [.observe], fits := exact 0, kind := .local_ }

/-- CYCLE_STATS (R65). -/
def runCycleStats (c : Ctx) (_ : List Byte) (s : State) : State :=
  let q := s.square
  s.reply c .ok (toBe 4 (satNat 32 q.lastNs) ++ toBe 4 (satNat 32 q.minNs) ++ toBe 4 (satNat 32 q.maxNs) ++ toBe 4 (satNat 32 (s.pacingUs * 1000)))

def execCycleStats (p : Packet) (s : State) : Out := s.command p cycleStatsDesc runCycleStats

/-! ## The retained image (R103, R209, R231) -/

/-- What is stored of the module's outputs: the values that orders 3 to 7 of R186 and rows 7 to 10 of R225 selected at an apply; on a standby those
of its shadow commit (R209, R231). -/
def State.selectedUc (s : State) : List (Nat × Int) := s.ucOutputs.map fun n => (n, (s.uc n).selected)
def State.selectedDo (s : State) : List (Nat × Bool) :=
  ((List.range 32).filter s.doEnable).map fun n => (n, if s.standby then (s.doRows n).1 else (s.do_ n).selected)

/-- What the apply of a commit selected is kept for the retained image of that cycle (R209, R231). -/
def State.keepOutputs (s : State) : State := { s with square := { s.square with keptUc := s.selectedUc, keptDo := s.selectedDo } }

/-- The words of the retained variables of the running image (R103), and their places in the committed copy. -/
def State.retainedVars (s : State) : List (Area × Nat) := ((s.image.symbols.filter fun y => y.retained && y.variable).flatMap Symbol.words).dedup
def State.retainedAddrs (s : State) : List Nat := s.retainedVars.filterMap fun w => s.wordAddr .done w.1 w.2

/-- The retained image of the last committed cycle (R103): retained variables, retentive timers and all counters, each word with its mark. The words of
`bad` are those that the read of it delivers with one (R343). -/
def State.retainedNow (s : State) (bad : List Nat) : Retained :=
  { cycle := s.square.last, seq := (s.newestRetained.map fun r => r.seq + 1).getD 1, void := false
    words := s.retainedVars.map fun (w : Area × Nat) =>
      let v := s.sqWord .done w.1 w.2
      { area := w.1, offset := w.2, value := v.1, poisoned := v.2 || (s.wordAddr .done w.1 w.2).any bad.contains }
    timers := s.square.keptTimers, counters := s.square.keptCounters
    ucOut := s.square.keptUc, doOut := s.square.keptDo }

/-- The copy that a write of the retained image replaces: a void or missing one, else the older. -/
def State.olderRetained (s : State) : Nat :=
  let age := fun i => match s.mram.retained.get none i with | some r => if r.void then 0 else r.seq + 1 | none => 0
  if age 1 < age 0 then 1 else 0

/-- KEEP reads the words of the retained image (R341) and writes it, and with it the cycle number (R79, R103). Without a committed cycle there is none
to write. -/
def State.writeRetained (s : State) : State :=
  if !s.square.committedOnce then s
  else
    let r := s.retainedNow (s.badOf 2 s.retainedAddrs)
    let s := (s.readWords 2 s.retainedAddrs).writeItem (.retained (s.olderRetained == 1))
    { s with mram := { s.mram with retained := s.mram.retained.set none s.olderRetained (some r), cycle := s.square.last } }

/-- RETAIN_PERIOD (R103): every RETAIN_PERIOD_MS, between two commits. While a page of the retained words is under repair it waits (R343; DEDUCED,
log 158). -/
def execRetainPeriod (s : State) : Out :=
  if s.service == .full && s.square.phase != .execute && s.power.warning.isNone &&
      s.square.retainAt + (s.cfg 0x102 0).toNat * 1000000 ≤ s.now then
    if s.square.committedOnce && (s.readWords 2 s.retainedAddrs).retainedAddrs.any ((s.readWords 2 s.retainedAddrs).locked 2) then
      .next (s.readWords 2 s.retainedAddrs)
    else .next { s.writeRetained with square := { s.square with retainAt := s.now } }
  else .next s

end Sys2Proof.Machine
end

