-- ==== Sys2Proof/Machine/Configure.lean ====
section
/-! DEFINITION. Writes to the configuration (R59, R429): the conflicts that the chapters name, how an object word takes effect, what
takes effect at a boundary, and the commands WRITE_OBJECT, CHANNEL_MODE and FIRE_CONFIRM. -/

namespace Sys2Proof.Machine

open Sys2Proof

/-! ## Conflicts: loop contexts (R152, R156, R171, R176, R303) -/

/-- A context has sections. -/
def State.loopUsed (s : State) (n : Nat) : Bool := s.loopSections n != 0

/-- The sink, its channel's mode, or the owner of its word do not fit (R156, R176). -/
def State.sinkBad (s : State) (n : Nat) : Bool :=
  let k := s.loopSink n
  let wrong := match k.1 with
    | 1 => 31 < k.2 || !ucOutput (ucMode (s.ucCfg k.2))
    | 2 =>
      let w := k.2
      !(32768 ≤ w && w < 49152 && s.stEnabled ((w - 32768) / 8192) ((w - 32768) / 256 % 32) && s.nWritable w)
    | _ => false
  let owned := match s.sinkWord n with | some w => (s.owner w.1 w.2).isSome | none => false
  wrong || owned || (k.1 != 0 && s.usedContexts.any fun m => m != n && s.loopSink m == k)

/-- PV_SRC and PV_REF of a context. -/
def State.loopSource (s : State) (n : Nat) : Nat × Nat := (bits (s.lw n 0) 31 30, bits (s.lw n 1) 15 0)

/-- The source is a channel in OFF or no word of a configured station's input image (R176). -/
def State.sourceBad (s : State) (n : Nat) : Bool :=
  let k := s.loopSource n
  match k.1 with
  | 1 => 31 < k.2 || ucMode (s.ucCfg k.2) == 0
  | 2 => !(k.2 < 16384 && s.stEnabled (k.2 / 8192) (k.2 / 256 % 32) && k.2 % 256 < 4 + s.stWords (k.2 / 8192) (k.2 / 256 % 32) 1)
  | _ => false

/-- The cascade of a context breaks R171. -/
def State.cascadeBad (s : State) (n : Nat) : Bool :=
  match s.loopOuter n with
  | none => false
  | some o => !s.loopUsed o || o == n || s.loopDivider o % s.loopDivider n != 0 ||
      s.loopPhase o % s.loopDivider n != s.loopPhase n || 4 ≤ s.loopLevel 4 n

/-- Integrating section, sections of a legacy law, limits (R176). -/
def State.shapeBad (s : State) (n : Nat) : Bool :=
  let int := s.loopInt n
  let law := s.loopLaw n
  (if law = 0 then int != 15 && s.loopSections n ≤ int else int != 15 && int != 0) || (law = 1 && s.loopSections n != 1) ||
    (law = 2 && s.loopSections n != 2) || sInt (s.lw n 5) ≤ sInt (s.lw n 4) || sInt (s.lw n 7) ≤ sInt (s.lw n 6)

/-- The load check (R152), over the residues that some phase has. -/
def State.loadBad (s : State) : Bool :=
  let l := s.usedContexts
  let g := gcdList (l.map s.loopDivider)
  l.any fun n => 1200 < ((l.filter fun m => s.loopPhase m % g == s.loopPhase n % g).map s.loopSections).sum

/-- A context is in one of the states of R176, the load aside. -/
def State.contextBad (s : State) (n : Nat) : Bool := s.sinkBad n || s.sourceBad n || s.cascadeBad n || s.shapeBad n

/-- The contexts above a context in its cascade. -/
def State.outersOf (s : State) : Nat → Nat → List Nat
  | 0, _ => []
  | f + 1, n => match s.loopOuter n with | some o => o :: s.outersOf f o | none => []

/-- A ledger of the running or a staged image would not fit (R303). -/
def State.ledgerBad (s : State) : Bool :=
  65536 < s.ledgerBytes s.image || (List.range 2).any fun b => (s.bank b).held && decide (65536 < s.ledgerBytes (s.bank b).desc)

/-- The words of context n take part in a conflict. -/
def State.loopConflict (s : State) (n : Nat) : Bool :=
  (s.loopUsed n && s.loadBad) || (bit (s.lw n 0) 24 && s.ledgerBad) ||
    s.usedContexts.any fun m => s.contextBad m && (m == n || s.loopSink m == s.loopSink n || (s.outersOf 4 m).contains n)

/-! ## Conflicts: channels (R191, R207, R237, R320) -/

/-- Channel n stands in a mode that a loop context, a Fire Lane slot or the pair cannot use (R191, R207). -/
def State.ucConflict (s : State) (n : Nat) : Bool :=
  let m := ucMode (s.ucCfg n)
  (s.usedContexts.any fun x => s.contextBad x && (s.loopSink x == (1, n) || s.loopSource x == (1, n))) ||
    (s.inSlotNames [2, 3] n && !ucMayBeInput m) || ((s.outSlotOf 2 n).isSome && !ucOutput m) ||
    (s.pairMode && (m == 3 || m == 5 || m == 6 || m == 7))

/-- A pulse total counts input n. -/
def State.pulseTotal (s : State) (n : Nat) : Bool :=
  (List.range 64).any fun t => totKind (s.totCfg t) == .pulse && totRefA (s.totCfg t) == n

/-- ENABLE or COUNT_EDGE of input n is cleared, as against `old`, though a Fire Lane slot or a pulse total needs it (R237). -/
def State.diConflict (s old : State) (n : Nat) : Bool :=
  let off := old.diEnable n && !s.diEnable n
  (off && s.inSlotNames [1, 7] n) || ((off || (old.diCountEdge n != 0 && s.diCountEdge n == 0)) && s.pulseTotal n)

/-- ENABLE of output n is cleared, as against `old`, though a Fire Lane slot names it (R237). -/
def State.doConflict (s old : State) (n : Nat) : Bool := (s.outSlotOf 1 n).isSome && old.doEnable n && !s.doEnable n

/-- Total t names a channel outside the permitted set (R320). -/
def State.totConflict (s : State) (t : Nat) : Bool :=
  let w := s.totCfg t
  let mode := fun n => ucMode (s.ucCfg n)
  match totKind w with
  | .program => false
  | .pulse => !(totRefA w < 16 && s.diCountEdge (totRefA w) != 0)
  | .integrator => !(totRefA w < 32 && plainModes (mode (totRefA w)))
  | .product => !(totRefA w < 32 && totRefB w < 32 && productModesA (mode (totRefA w)) && productModesB (mode (totRefB w)))

/-! ## Conflicts: CAN (R239, R241, R247, R258, R262) -/

/-- The bit timing breaks R239 or R241. -/
def State.timingBad (s : State) (p : Nat) : Bool :=
  let a := s.canWord p 1
  let b := s.canWord p 2
  let n := s.nomBit p
  let d := s.datBit p
  8000 < n || n < 80 || d < 16 || n < d || bits a 22 16 < bits a 14 8 || bits b 19 16 < bits b 11 8 ||
    (s.canFd p && d < 80 && !bit (s.canWord p 3) 31)

/-- The enabled mailboxes of a port. -/
def State.mailboxesOn (s : State) (p : Nat) : List Nat := (List.range 512).filter fun m => bit (s.mailboxWord p m 0) 31

/-- A mailbox beyond their number, or two with one identifier (R247). -/
def State.mailboxBad (s : State) (p : Nat) : Bool :=
  let l := s.mailboxesOn p
  l.any (fun m => mailboxCount (s.canElement p) ≤ m) || !((l.map fun m => bits (s.mailboxWord p m 0) 30 0).dedup.length == l.length)

/-- A slot whose length or format the port cannot send (R258). -/
def State.slotBad (s : State) (p t : Nat) : Bool :=
  let w := s.slotWord p t 0
  (bit w 30 && !s.canFd p) || (bit w 29 && !bit w 30) || (!bit w 30 && 8 < bits (s.slotWord p t 1) 7 0)

/-- The used columns of a port. -/
def State.columns (s : State) (p : Nat) : List Nat := (List.range 32).filter fun c => colLength (s.columnWord p c) != 0

/-- FRAME_US of the frame that a cell sends or awaits, if it has one. -/
def State.cellUs (s : State) (p : Nat) (w : Word) : Option Nat :=
  if cellKind w = 1 ∨ cellKind w = 2 then
    let x := cellStation w
    let v := s.stWord p x 0
    match cellContent w with
    | 0 => let t := s.slotWord p (cellSlot w) 0; some (s.frameUs p (bit t 31) (bit t 30) (bit t 29) (bits (s.slotWord p (cellSlot w) 1) 7 0))
    | 1 => if s.stEnabled p x then some (s.frameUs p (bit v 28) (bit v 30) (bit v 29) (s.stIn p x)) else none
    | _ => if s.stEnabled p x then some (s.frameUs p (bit v 28) (bit v 30) (bit v 29) (s.stOut p x)) else none
  else none

/-- The rows and used columns with their cells. -/
def State.cells (s : State) (p : Nat) : List (Nat × Nat × Word) :=
  (List.range (s.canRows p)).flatMap fun r => (s.columns p).map fun c => (r, c, s.cellWord p r c)

/-- The windows break R258, which without a schedule are ignored (R255), or one is timed from OUT_REF on a port that is not cycle-linked
(R256). -/
def State.windowsBad (s : State) (p : Nat) : Bool :=
  let l := s.columns p
  let start := fun c => colStart (s.columnWord p c)
  let stop := fun c => colStart (s.columnWord p c) + colLength (s.columnWord p c)
  (!s.canLinked p && (List.range 32).any fun c => colBase (s.columnWord p c)) || s.canSchedule p != 0 &&
    ((l.any fun a => l.any fun b => decide (a < b) && colBase (s.columnWord p a) == colBase (s.columnWord p b) &&
        decide (start a < stop b ∧ start b < stop a)) ||
      (l.any fun c => start c < s.refUs p + 5 || (s.canSchedule p == 1 && decide ((s.canWord p 15).toNat < stop c))) ||
      (s.cells p).any fun e => match s.cellUs p e.2.2 with
        | some us => decide (colLength (s.columnWord p e.2.1) < us + 5)
        | none => false)

/-- The identifiers of a station's frames. -/
def State.stIds (s : State) (p x : Nat) : List (Bool × Nat) :=
  (List.range (s.stFrames p x 1)).map (fun k => (s.stXtd p x, s.stInId p x + k)) ++
    (List.range (s.stFrames p x 2)).map fun k => (s.stXtd p x, s.stOutId p x + k)

/-- The identifiers of the reference frames and of the transmit slots (R262, log 81). -/
def State.portIds (s : State) (p : Nat) : List (Bool × Nat) :=
  (false, s.canRefId p) :: (List.range 512).map fun t => (bit (s.slotWord p t 0) 31, bits (s.slotWord p t 0) 28 0)

/-- The columns of row r that hold frames of station x, with what they hold. -/
def State.stRow (s : State) (p r x : Nat) : List (Nat × Nat × Nat) :=
  (s.columns p).filterMap fun c =>
    let w := s.cellWord p r c
    if (cellKind w = 1 ∨ cellKind w = 2) ∧ (cellContent w = 1 ∨ cellContent w = 2) ∧ cellStation w = x then
      some (c, cellContent w, cellFrame w)
    else none

/-- The frame numbers of a content run from 0 on, each once. -/
def framesInRow (l : List Nat) : Bool := (List.range l.length).all fun k => (l.filter (· == k)).length == 1

/-- The configuration of station x breaks R262, or its frames are FD frames on a port that is a classical node (R238). -/
def State.stationBad (s : State) (p x : Nat) : Bool :=
  let row := s.stRow p 0 x
  let numbers := fun k => (row.filter fun e => e.2.1 == k).map (·.2.2)
  (bit (s.stWord p x 0) 30 && !s.canFd p) ||
    ((s.cells p).any fun e => cellKind e.2.2 == 2 && (cellContent e.2.2 == 1 || cellContent e.2.2 == 2) && cellStation e.2.2 == x) ||
    (row.any fun e => colBase (s.columnWord p e.1) == (e.2.1 == 1)) || ((List.range (s.canRows p)).any fun r => s.stRow p r x != row) ||
    !framesInRow (numbers 1) || !framesInRow (numbers 2) || numbers 1 == [] || 252 < s.stWords p x 1 || 252 < s.stWords p x 2 ||
    (s.stIds p x).any fun i => (s.portIds p).contains i || (s.stations p).any fun y => y != x && (s.stIds p y).contains i

/-- A station is enabled on a port that is not cycle-linked, or one breaks R262. -/
def State.stationsBad (s : State) (p : Nat) : Bool :=
  if s.canLinked p then (s.stations p).any (s.stationBad p) else (List.range 32).any fun x => bit (s.stWord p x 0) 31

/-- The configuration of port p has a conflict, or leaves a loop context without its remote word (R176). -/
def State.canConflict (s : State) (p : Nat) : Bool :=
  s.timingBad p || s.mailboxBad p || (List.range 512).any (s.slotBad p) || s.windowsBad p || s.stationsBad p ||
    s.usedContexts.any fun n => s.contextBad n && ((s.loopSource n).1 == 2 || (s.loopSink n).1 == 2)

/-! ## Conflicts: panel, plate, temperature (R366, R371, R374, R378, R425) -/

/-- The slice is too short, or the frame of a program lies outside declared D. -/
def State.panelBad (s : State) : Bool :=
  let w := s.cfg 0xB00 0
  let rate := bits w 23 16 * bits w 6 0
  100000000 < rate * (100 * (30 + bits (s.cfg 0xB00 1) 25 21) + 256) || (s.panelProgram && s.image.dWords < s.frameBase + 1026)

/-- Strictly ascending. -/
def ascending : List Int → Bool
  | a :: b :: l => decide (a < b) && ascending (b :: l)
  | _ => true

/-- The length of a waveform: its phases up to the first of 0 ms. -/
def State.waveMs (s : State) (b : Nat) : Nat :=
  (((List.range 8).map fun k => bits (s.cfg (0xB20 + b) k) 3 0).takeWhile (· != 0)).sum

/-- The word of an object takes part in a conflict of the configuration as it would stand after `old` (R429 check 7). -/
def State.keyConflict (s old : State) (key : Nat) : Bool :=
  let i := key / 256
  let k := key % 256
  if 0x300 ≤ i && i ≤ 0x3FF then s.loopConflict (i - 0x300)
  else if 0x400 ≤ i && i ≤ 0x41F then k == 0 && s.ucConflict (i - 0x400)
  else if 0x420 ≤ i && i ≤ 0x44F then k == 0 && s.diConflict old (i - 0x420)
  else if 0x460 ≤ i && i ≤ 0x47F then k == 0 && s.doConflict old (i - 0x460)
  else if i == 0x500 || i == 0x501 then s.canConflict (i - 0x500)
  else if 0x520 ≤ i && i ≤ 0x52F then s.canConflict ((i - 0x520) / 8)
  else if 0x530 ≤ i && i ≤ 0x531 then s.canConflict (i - 0x530)
  else if 0x540 ≤ i && i ≤ 0x54F then s.canConflict ((i - 0x540) / 8)
  else if 0x560 ≤ i && i ≤ 0x561 then s.canConflict (i - 0x560)
  else if 0x570 ≤ i && i ≤ 0x577 then s.canConflict ((i - 0x570) / 4)
  else if 0x700 ≤ i && i ≤ 0x73F then s.totConflict (i - 0x700)
  else if i == 0xB00 then (if k == 3 || k == 4 then !ascending s.panelThresholds else s.panelBad)
  else if i == 0xB08 then k != 0 && !ascending s.plateThresholds
  else if 0xB20 ≤ i && i ≤ 0xB24 then decide (12 < s.waveMs (i - 0xB20))
  else if i == 0xD20 then decide (s16 (s.cfg 0xD20 0) 15 0 ≤ s16 (s.cfg 0xD20 0) 31 16)
  else false

/-! ## A word takes effect -/

/-- The configuration of a source changes: an enable counts as one firing of its group (R141), and a pending source whose GROUP or GROUPED
changes is taken on its own (R149). -/
def State.landSource (s : State) (n : Nat) (old new : Word) : State :=
  if !(s.source n).p || !srcEnable new then s
  else
    let s := if srcEnable old then s else s.countFiring n s.now
    let x := s.source n
    if x.p && !x.active && (srcGrouped old != srcGrouped new || srcGroup old != srcGroup new) then s.take n else s

/-- N or T of a group changes (R149). -/
def State.landGroup (s : State) (g : Nat) : State :=
  let x := s.group g
  let aged := match x.ageFrom with | some t => decide (t + s.groupTNs g ≤ s.now) | none => false
  if aged || (x.count != 0 && s.groupN g ≤ x.count) then s.deliver g else s

/-- A change of a channel's mode word is in effect; what CHANNEL_MODE still owes is answered when no shut-down runs (R189). -/
def State.landUcMode (s : State) (n : Nat) (old new : Word) : State :=
  let s := s.ucLandMode n old new
  if (s.uc n).state == .shuttingDown then s
  else
    let who := (s.uc n).replyTo
    (s.modUc n fun u => { u with replyTo := [] }).each who fun s c => s.ok c

/-- A word that was accepted while channel n was shutting down waits for the end of that (R190). -/
def State.deferUc (s : State) (n k : Nat) (w : Word) : State := s.modUc n fun u => { u with deferred := u.deferred ++ [(k, w)] }

/-- A word of channel n takes effect at its boundary (R189); RESCAN = 1 starts a scan (R187, R203). -/
def State.landUc (s : State) (n k : Nat) (w : Word) : State :=
  let old := s.cfg (0x400 + n) k
  let s := s.putUcWord n k w
  if k = 0 then s.landUcMode n old w else if k = 8 && bit w 22 then s.startScan n else s

/-- A change of FILTER restarts the filter run (R232), and so does an input that is scanned again; the counting path of such an input takes its
run from the level then present (R219). -/
def State.restartFilter (s : State) (n : Nat) (old new : Word) : State :=
  if bits old 25 16 == bits new 25 16 && bit old 31 == bit new 31 then s
  else s.modDi n fun d => { d with filterFrom := s.now
                                   countLevel := if bit old 31 then d.countLevel else none
                                   countFrom := if bit old 31 then d.countFrom else s.now }

/-- A write of ENABLE = 0 or WIRE_BREAK_EN = 0 clears a set WIRE_BREAK; a disabled input writes no record (R217, R232). -/
def State.landWire (s : State) (n : Nat) (new : Word) : State :=
  if !(s.di n).wireBreak then s
  else if !bit new 31 then s.modDi n fun d => { d with wireBreak := false }
  else if !bit new 30 then s.clearWireBreak n
  else s

/-- What a change of an object word brings with it at once. Every write of a TIMER word of a source counts as a new binding, one of the same value too
(R149; DESIGN CHOICE, log 167). -/
def State.afterWrite (s : State) (i k : Nat) (old new : Word) : State :=
  if i == 0x200 || i == 0x201 then s.landSource ((i - 0x200) * 256 + k) old new
  else if i == 0x210 then s.landGroup k
  else if i == 0x213 then { s with round := { s.round with newBinding := s.round.newBinding.set false k true } }
  else if 0x420 ≤ i && i ≤ 0x44F then
    let n := i - 0x420
    if k = 1 then s.modDi n fun d => { d with thresholdBase := d.raw }
    else s.restartFilter n old new |>.landWire n new
  else if 0x460 ≤ i && i ≤ 0x47F then
    if k = 0 && !bit new 28 && (s.do_ (i - 0x460)).openLoad then s.clearOpenLoad (i - 0x460) else s
  else if i == 0x560 || i == 0x561 then
    if k % 4 = 0 && bit old 31 != bit new 31 then s.stationStart (i - 0x560) (k / 4) else s
  else if 0x880 ≤ i && i ≤ 0x882 then s.disarm
  else if i == 0xC00 && k = 0 then s.ptpWritten old new
  else s

/-- An object word takes effect (R59). HOLD_ON is no value of MRAM (R24). -/
def State.landWordAt (s : State) (key : Nat) (w : Word) : State :=
  let i := key / 256
  let k := key % 256
  if 0x400 ≤ i && i ≤ 0x41F then s.landUc (i - 0x400) k w
  else if i == 0xD00 then s.modDomain k fun d => { d with holdOn := bit w 24 }
  else s.putCfg key w |>.afterWrite i k (s.cfg i k) w

/-- The domain that a word needs before it may take effect (R22). -/
def neededDomain (key : Nat) (w : Word) : Option Nat :=
  let i := key / 256
  if key % 256 != 0 then none
  else if 0x400 ≤ i && i ≤ 0x41F then (if ucMode w = 0 then none else some 6)
  else if (0x420 ≤ i && i ≤ 0x44F) || (0x460 ≤ i && i ≤ 0x47F) then (if bit w 31 then some 7 else none)
  else if i == 0xB00 || i == 0xB08 then (if bit w 31 then some 11 else none)
  else none

/-- Words take effect in their order. One whose domain is not in RUN waits, and with it later ones of the same word (R22). -/
def State.landWords (s : State) : List (Nat × Word) → List (Nat × Word) → State × List (Nat × Word)
  | [], wait => (s, wait)
  | e :: l, wait =>
    let off := match neededDomain e.1 e.2 with | some d => !s.domainOn d | none => false
    if off || wait.any (fun (f : Nat × Word) => f.1 == e.1) then s.landWords l (wait ++ [e])
    else (s.landWordAt e.1 e.2).landWords l wait

/-- Fields that wait for the next restart or power-up (R318, R409) are kept in MRAM. -/
def State.putRestart (s : State) (key : Nat) (mask w : Word) : State :=
  if mask = 0 then s
  else { s with mram := { s.mram with objRestart := (s.mram.objRestart.filter fun e => e.1 != key) ++ [(key, mask, w &&& mask)] } }

/-- The value of a word with its writable fields replaced, those that wait for a restart left out. -/
def WordSpec.merge (q : WordSpec) (old w : Word) : Word :=
  let m := q.mask &&& ~~~q.restartMask
  (old &&& ~~~m) ||| (w &&& m)

/-- A word as it would stand, the writes that wait included. -/
def State.plannedWord (s : State) (i k : Nat) : Word :=
  if i == 0xD00 then mkWord [(24, 24, b2n ((s.domain k).holdOn || !gateable k))] else s.planned.cfg i k

/-- An accepted word on its way (R59): at once, for the next boundary, for the next commit of its total or for the next restart. Where no
cycle runs a boundary is now. `boundary` is the boundary that a pair agreed on (R305). -/
def State.takeWord (s : State) (i k : Nat) (w : Word) (boundary : Option (BitVec 32)) : State :=
  match objSpec i k with
  | none => s
  | some q =>
    let v := q.merge (s.plannedWord i k) w
    let s := s.putRestart (okey i k) q.restartMask w
    if q.mask &&& ~~~q.restartMask = 0 then s
    else match q.timing with
    | .restart => s
    | .atOnce => s.landWordAt (okey i k) v
    | .commit => (s.queueClose (i - 0x700) none false [(k, v)] boundary).closeNow (i - 0x700)
    | .boundary =>
      if 0x400 ≤ i && i ≤ 0x41F && (s.uc (i - 0x400)).state == .shuttingDown then s.deferUc (i - 0x400) k v
      else if s.service != .full then s.landWordAt (okey i k) v
      else { s with sup := { s.sup with objPending := s.sup.objPending ++ [(okey i k, v)] } }

/-- A word that a pair forwards (R305): one whose rule has it take effect at once, the words of the arrays, the recorder, the ring and the supply, is not
marked as forwarded (R353, R365, R391, R409; DEDUCED, log 42). -/
def crosses (i k : Nat) : Bool :=
  match objSpec i k with
  | some q => q.timing != .atOnce
  | none => false

/-- An accepted word in its pair (R305): in a synchronised one both modules take it at one boundary. -/
def State.acceptWord (s : State) (i k : Nat) (w : Word) : State :=
  let s := if 0x880 ≤ i && i ≤ 0x882 then s.disarm else if 0x400 ≤ i && i ≤ 0x41F && k = 0 then s.ucNote (i - 0x400) w else s
  if !s.forwards || !crosses i k then s.takeWord i k w none
  else match objSpec i k with
  | none => s
  | some q =>
    let full := (q.merge (s.plannedWord i k) w &&& ~~~q.restartMask) ||| (w &&& q.restartMask)
    if q.timing != .commit && !(0x400 ≤ i && i ≤ 0x41F && (s.uc (i - 0x400)).state == .shuttingDown) then s.queueChange (.object i k full)
    else (s.takeWord i k w (some s.changeBoundary)).tellStandby (.object i k full)

/-! ## WRITE_OBJECT (R64, R429) -/

/-- Check 6: the state of the object permits the write. Out of full service a word that needs ENGINEER is refused (R54). -/
def State.writeStateOk (s : State) (i k : Nat) (r : WRole) : Bool :=
  (r == .maintain || s.service == .full) &&
    (if 0x300 ≤ i && i ≤ 0x3FF && k ≤ 3 then (s.loopCtx (i - 0x300)).state == .off && !(s.loopCtx (i - 0x300)).enablePending
     else if (i == 0x500 || i == 0x501) && (k ≤ 3 || k == 15) then (s.can (i - 0x500)).code = 0 && !(s.can (i - 0x500)).enablePending
     else true)

/-- BASE of a filter element that takes standard identifiers only (R251). -/
def State.baseOk (s : State) (i k : Nat) (w : Word) : Bool :=
  !(0x510 ≤ i && i ≤ 0x517 && k % 4 == 0) || bits (s.cfg i (k + 1)) 31 30 != 0 || bits w 28 0 ≤ 0x7FF

/-- BYTES of a transmit slot (R254): more than 8 only for an FD frame. -/
def State.bytesOk (s : State) (i k : Nat) (w : Word) : Bool :=
  !(0x570 ≤ i && i ≤ 0x577 && k % 2 == 1) || bit (s.cfg i (k - 1)) 30 || bits w 7 0 ≤ 8

/-- The role of a word's caption is held. -/
def roleHeld (roles : BitVec 4) (r : WRole) : Bool :=
  roles.getLsbD (match r with | .engineer => Role.engineer.bit | .maintain => Role.maintain.bit)

/-- Checks 1 to 6 of one word; `pl` is the configuration as it would stand after all the words. -/
def State.checkWord (s : State) (roles : BitVec 4) (pl : State) (i k rest : Nat) (w : Word) : Option Status :=
  match objSpec i k with
  | none => some .badObject
  | some q =>
    if rest != 0 then some .badObject
    else if !roleHeld roles q.role then some .notAuthorised
    else if !q.hasWritable then some .readOnly
    else if !q.reservedClear w then some .outOfRange
    else if !q.inRange w || !pl.baseOk i k w || !pl.bytesOk i k w then some .outOfRange
    else if !s.writeStateOk i k q.role then some .wrongState
    else none

/-- The state with a word in its place, for the check of conflicts. -/
def State.withWord (s : State) (i k : Nat) (w : Word) : State :=
  match objSpec i k with
  | some q => s.putCfg (okey i k) (q.merge (s.cfg i k) w)
  | none => s

/-- One word of a write: index, sub-index, reserved byte, value. -/
structure ObjWrite where
  index : Nat
  sub : Nat
  rest : Nat
  value : Word
  deriving DecidableEq, Repr

/-- The checks of R429 over all the words: the number of the first word that fails and the status. -/
def State.checkWrites (s : State) (roles : BitVec 4) (l : List ObjWrite) : Option (Nat × Status) :=
  let pl := l.foldl (fun (t : State) x => t.withWord x.index x.sub x.value) s.planned
  match l.zipIdx.findSome? fun (e : ObjWrite × Nat) => (s.checkWord roles pl e.1.index e.1.sub e.1.rest e.1.value).map fun st => (e.2, st) with
  | some r => some r
  | none => (l.zipIdx.find? fun (e : ObjWrite × Nat) => pl.keyConflict s.planned (okey e.1.index e.1.sub)).map fun e => (e.2, .configConflict)

/-- A write with a word to forward, while the Causeway is lost: BUSY (R305). -/
def State.cannotForward (s : State) (l : List ObjWrite) : Bool := s.forwards && s.causewayLost && l.any fun x => crosses x.index x.sub

/-- All the words of an accepted write. Thermal limits and band thresholds that are in force with it are judged at once (R378, R425). -/
def State.acceptWrites (s : State) (l : List ObjWrite) : State :=
  (l.foldl (fun (t : State) x => t.acceptWord x.index x.sub x.value) s).judgeDomains.judgeThermal.judgeBands

/-- A word that waits for the shut-down of its channel (R190). -/
def State.deferredWrite (s : State) (x : ObjWrite) : Bool :=
  0x400 ≤ x.index && x.index ≤ 0x41F && (s.uc (x.index - 0x400)).state == .shuttingDown

/-- The words of a WRITE_OBJECT payload. -/
def objWrites (b : List Byte) : List ObjWrite :=
  (List.range (be16 b 0)).map fun j =>
    { index := be16 b (4 + 8 * j), sub := byteAt b (6 + 8 * j), rest := byteAt b (7 + 8 * j), value := beWord b (8 + 8 * j) }

def writeObjectDesc : CmdDesc :=
  { code := 0x0103, roles := [.engineer, .maintain], kind := .change
    fits := fun b => 4 ≤ b.length && 1 ≤ be16 b 0 && be16 b 0 ≤ 32 && b.length == 4 + 8 * be16 b 0 }

/-- WRITE_OBJECT (R429). -/
def runWriteObject (c : Ctx) (b : List Byte) (s : State) : State :=
  let l := objWrites b
  match s.checkWrites c.roles l with
  | some (n, st) => s.reply c st (toBe 2 n)
  | none =>
    if s.cannotForward l then s.replyBusy c true
    else (s.acceptWrites l).reply c (if l.any s.deferredWrite then .acceptedDeferred else .ok) (toBe 2 0xFFFF)

def execWriteObject (p : Packet) (s : State) : Out := s.command p writeObjectDesc runWriteObject

/-- OBJECT_WRITE (R59): a write of one word that holds the roles named; refused without a trace where a check of R429 fails. -/
def execObjectWrite (roles : BitVec 4) (index : BitVec 16) (sub : BitVec 8) (value : Word) (s : State) : Out :=
  let l : List ObjWrite := [{ index := index.toNat, sub := sub.toNat, rest := 0, value := value }]
  if !s.supAnswers || s.standby || s.power.warning.isSome || (s.checkWrites roles l).isSome || s.cannotForward l then .next s
  else .next (s.acceptWrites l)

/-- TOTAL_CONFIG_WRITE (R335): a write of a word of object 0700h + t. -/
def execTotalConfigWrite (roles : BitVec 4) (t : Fin 64) (sub : BitVec 8) (value : Word) (s : State) : Out :=
  let l : List ObjWrite := [{ index := 0x700 + t, sub := sub.toNat, rest := 0, value := value }]
  if !s.supAnswers || s.standby || s.power.warning.isSome || (s.checkWrites roles l).isSome || s.cannotForward l then .next s
  else .next (s.acceptWrites l)

/-! ## CHANNEL_MODE (R68, R189, R190) -/

def channelModeDesc : CmdDesc := { code := 0x0500, roles := [.engineer], fits := exact 8, kind := .change }

/-- The mode word of a CHANNEL_MODE. -/
def modeWord (b : List Byte) : Word := mkWord [(31, 24, byteAt b 1), (23, 20, byteAt b 4), (15, 0, be16 b 2)]

/-- CHANNEL_MODE: a full change is answered when its shut-down completes. -/
def runChannelMode (c : Ctx) (b : List Byte) (s : State) : State :=
  let n := byteAt b 0
  let l : List ObjWrite := [{ index := 0x400 + n, sub := 0, rest := 0, value := modeWord b }]
  if 31 < n then s.refuse c .badObject
  else if 15 < byteAt b 4 then s.refuse c .outOfRange
  else match s.checkWrites c.roles l with
  | some (_, st) => s.refuse c st
  | none =>
    if s.forwards && s.causewayLost then s.replyBusy c true
    else if (s.uc n).state == .shuttingDown then (s.acceptWrites l).refuse c .acceptedDeferred
    else
      let old := s.plannedWord (0x400 + n) 0
      let x := (s.uc n).state
      let again := (x == .starting || x == .settling) && old != modeWord b
      if ucFullChange old (modeWord b) || again then (s.modUc n fun u => { u with replyTo := u.replyTo ++ [c] }).acceptWrites l
      else (s.acceptWrites l).ok c

def execChannelMode (p : Packet) (s : State) : Out := s.command p channelModeDesc runChannelMode

/-! ## Boundaries (R22, R59, R289, R305) -/

/-- What waits in SUP takes effect at a boundary. -/
def State.landPending (s : State) : State :=
  let l := s.sup.objPending
  let r := { s with sup := { s.sup with objPending := [] } }.landWords l []
  { r.1 with sup := { r.1.sup with objPending := r.2 } }

/-- A confirmed set takes effect now; while a domain that it needs is not in RUN it waits for the first boundary after that (R22, R289). -/
def State.bringFire (s : State) (l : List Word) : State :=
  let t := s.holdFire l
  if t.fireReady then s.takeFire l else t

/-- A change that both modules of a pair take at a boundary (R305). What belongs to a total waits for the commit of its cycle, a
force for the one before the boundary (R97). -/
def State.landChange (s : State) (c : Change) (boundary : BitVec 32) : State :=
  match c with
  | .object i k w => s.takeWord i k w (some boundary)
  | .canEnable p on => (s.canEnable p on).1
  | .coeff n sec co v sh sample =>
    s.loopForwarded n { set_ := none, section_ := sec, coeff := co, value := v, shift := sh.toNat, sample := sample, reply := none }
  | .stage n l => s.putStaged n l
  | .commit n sample =>
    (s.readWords 3 (s.loopStaged n)).loopForwarded n
      { set_ := some (s.loopCtx n).staged, section_ := 0, coeff := 0, value := 0, shift := 0, sample := sample, reply := none
        marks := s.stagedMarks n (s.badOf 3 (s.loopStaged n)) }
  | .fireConfig l => s.bringFire l
  | .ack g mask => s.acknowledge g mask.toNat
  | .programBegin b n crc => s.openLoad b n crc
  | .programData at_ l => match s.square.load with | some b => s.loadWords b at_ l | none => s
  | .programEnd =>
    match s.square.load with
    | some b => { s with square := { s.square with loadFor := none } }.endLoad b s.square.loadFor
    | none => s
  | .forceSet l => s.postLanding { ctx := default, kind := .forceSet l, words := [], due := some boundary, forwarded := true }
  | .forceRelease l all =>
    s.postLanding { ctx := default, kind := .forceRelease (l.map fun w => { area := w.1, word := w.2 }) all, words := [], due := some boundary
                    forwarded := true }
  | .totalClose t => s.queueClose t none true [] (some boundary)
  | .rehearse .. | .handBack => s

/-- The changes whose boundary has come with the start of cycle `c`. -/
def State.landChanges (s : State) (c : BitVec 32) : State :=
  let due := s.pair.waitingChanges.filter fun (e : Change × BitVec 32) => !(c - e.2).msb
  let s := { s with pair := { s.pair with waitingChanges := s.pair.waitingChanges.filter fun (e : Change × BitVec 32) => (c - e.2).msb } }
  s.each due fun s e => s.landChange e.1 e.2

/-- A confirmed Fire Lane set takes effect at the next boundary, or at the one that a pair agreed on (R289), with the domains that it needs in RUN (R22). -/
def State.landFire (s : State) : State :=
  let agreed := s.pair.waitingChanges.any fun (e : Change × BitVec 32) => match e.1 with | .fireConfig _ => true | _ => false
  if s.fire.before.isNone || agreed || !s.fireReady then s
  else s.takeFire ((List.range 192).map fun k => s.mram.fire.get (fireDefault k) k)

/-- FIRE_CONFIRM (R74, R289). -/
def fireConfirmDesc : CmdDesc := { code := 0x0C04, roles := [.maintain], fits := exact 8, kind := .change }

def runFireConfirm (c : Ctx) (b : List Byte) (s : State) : State :=
  match s.fire.arm with
  | none => s.refuse c .notArmed
  | some a =>
    if a.crc != beWord b 0 || a.token.toNat != be16 b 4 || a.origin != c.origin || a.keyslot != c.keyslot ||
        decide (a.at_ + 60000000000 < s.now) then s.refuse c .notArmed
    else if s.fireBusy then s.refuse c .wrongState
    else if s.forwards && s.causewayLost then s.replyBusy c true
    else
      let l := s.stagedWords
      let s := s.disarm
      if s.forwards then ((s.queueChange (.fireConfig l)).holdFire l).ok c
      else if s.service == .full then (s.holdFire l).ok c
      else (s.bringFire l).judgeDomains.ok c

def execFireConfirm (p : Packet) (s : State) : Out := s.command p fireConfirmDesc runFireConfirm

/-- Everything that takes effect at the boundary before cycle `c`: forwarded changes, object words, ports whose domain has come up, a confirmed
Fire Lane set, the program switch, run and stop. -/
def State.boundary (s : State) (c : BitVec 32) : State :=
  let s := (((s.landChanges c).landPending.canJoin.landFire).landSwitch c)
  let s := match s.square.runStop with
    | some (run, at_) => if (c - at_).msb then s else s.setMode run
    | none => s
  s.judgeDomains.judgeThermal.judgeBands

end Sys2Proof.Machine
end

