-- ==== Sys2Proof/Machine/Cycle.lean ====
section
/-! DEFINITION. The cycle (chapter 03): start, freeze with its frozen pages, commit with apply, the execute watchdog, and the standby's
cycle under the active's tokens (R92, R300, R305). -/

namespace Sys2Proof.Machine

open Sys2Proof

/-! ## Who runs a cycle, and when it starts (R83, R297, R300, R307) -/

/-- The module runs cycles of its own accord: simplex, active, or incoming with its takeover cycle. -/
def State.ownCycle (s : State) : Bool :=
  !s.pairMode || s.pair.state == .active || s.pair.state == .alone || s.pair.incoming == some s.square.current

/-- The cycle-start token that the next freeze of a shadow uses: the oldest one that no freeze has used (R92, R300). -/
def State.token (s : State) : Option (BitVec 32 × Nat) := s.pair.tokens.head?

/-- The number of the next cycle: a shadow takes it from the active's token. -/
def State.startCycle (s : State) : BitVec 32 :=
  if s.ownCycle then s.square.current else match s.token with | some t => t.1 | none => s.square.current

/-- PACING_US has elapsed since the last cycle started. From the power-fail warning on it is ignored (R404). -/
def State.paced (s : State) : Bool :=
  s.power.warning.isSome || s.square.startAt == 0 || decide (s.square.startAt + s.pacingUs * 1000 ≤ s.now)

/-- A shadow may start a cycle: the active's token has come, and the domains of the image that the snapshot has brought are on (R22, R300). -/
def State.shadowDue (s : State) : Bool := s.shadows && s.token.isSome && s.image.domains.all s.domainOn

/-- The next cycle may start (R83). After the final commit of a hold-up only the cycles of a handover follow (R404). -/
def State.cycleDue (s : State) : Bool :=
  s.service == .full && s.square.phase == .idle && (s.power.warning.isNone || s.pair.handover.isSome) &&
    (s.ownCycle || s.shadowDue) && s.paced && s.canOutputsDone && s.switchPowered

/-- The statistics of CYCLE_STATS at a cycle start (R65). -/
def Square.started (q : Square) (now : Nat) (c : BitVec 32) : Square :=
  let d := now - q.startAt
  let first := q.startAt == 0
  { q with phase := .started, startAt := now, current := c, first := q.nextFirst, nextFirst := {}
           lastNs := if first then q.lastNs else d
           minNs := if first then q.minNs else if q.minNs = 0 then d else min q.minNs d
           maxNs := if first then q.maxNs else max q.maxNs d }

/-- CYCLE_START (R83): what waits for the boundary takes effect and IN_REF leaves (R265). SQUARE and the engines stand at an idle point here
(R19). An incoming module's ports leave bus monitoring with its first cycle (R271). A switch that is due waits for the pages it reads (R343). -/
def execCycleStart (s : State) : Out :=
  if !s.cycleDue then .next s
  else match s.switchHeld s.startCycle with
  | some t => .next t
  | none =>
    let c := s.startCycle
    let s := s.refBack
    let s := ({ s with square := { s.square with current := c } }).boundary c
    let s := { s with square := s.square.started s.now c }
    .next (if s.ownCycle then s.canTakeover false else s).canCycleStart

/-! ## Freeze (R77, R78, R80, R81, R110) -/

/-- The island as it was at instant `f` (R81). -/
def Island.at (i : Island) (f : Nat) : Island :=
  match (i.past.filter fun (p : Nat × IslandState) => decide (f < p.1)).getLast? with
  | some p => { i with state := p.2 }
  | none => i

/-- The inputs as they are latched at instant `f`, with the state of the islands that read them (R81). -/
def State.latched (s : State) (f : Nat) : State :=
  { s with dis := s.dis.map fun (e : Nat × Di) => (e.1, e.2.at f), ucs := s.ucs.map fun (e : Nat × Uc) => (e.1, e.2.at f)
           diGroups := s.diGroups.map fun (e : Nat × DGroup) => (e.1, e.2.at f)
           islands := s.islands.map fun (e : Nat × Island) => (e.1, e.2.at f) }

/-- What lies before instant `f` is not asked for any more; the digital inputs count their edges from there (R215). -/
def State.trimPast (s : State) (f : Nat) : State :=
  { s with dis := s.dis.map fun (e : Nat × Di) => (e.1, e.2.frozen f), ucs := s.ucs.map fun (e : Nat × Uc) => (e.1, e.2.trimPast f)
           diGroups := s.diGroups.map fun (e : Nat × DGroup) => (e.1, { e.2 with past := e.2.past.filter fun p => decide (f < p.until_) })
           islands := s.islands.map fun (e : Nat × Island) =>
             (e.1, { e.2 with past := e.2.past.filter fun (p : Nat × IslandState) => decide (f < p.1) }) }

/-- STALE of the channels at instant `f`: a channel with a conversion after it is judged in the latched state alone (R81, R185). -/
def State.staleFreeze (s : State) (f : Nat) : State :=
  s.each ((List.range 32).filter fun n => match (s.uc n).valueAt with | some t => decide (t ≤ f) | none => true) fun s n => s.ucFreeze n f

/-- The words of area I at freeze instant `f` of cycle `c` by their word number (R78). -/
def State.inputWords (s : State) (f : Nat) (c : BitVec 32) : List (Nat × List Word) :=
  [(0, bitWords (fun n => n < 48 && s.diState n) 2), (2, bitWords (fun n => n < 48 && s.diFlag n) 2),
   (32, (List.range 32).map fun n => ofI (s.uc n).value), (64, (List.range 32).map fun n => s.ucStatus n f),
   (96, (List.range 32).map s.doStatus), (128, (List.range 48).map fun n => s.diStatus n f),
   (192, [BitVec.ofNat 32 f, BitVec.ofNat 32 (f / 2 ^ 32), c])]

/-- Area I: the frozen page of on-board inputs. -/
def State.inputFreeze (s : State) (f : Nat) (c : BitVec 32) : State :=
  let s := s.staleFreeze f
  match s.wordAddr .work .I 0 with
  | none => s
  | some a =>
    let l := ((s.latched f).each (List.range 32) fun s n => s.ucFreeze n f).inputWords f c
    let q := l.foldl (fun (q : Square) (e : Nat × List Word) => q.putWords (a + 4 * e.1) e.2) (s.square.clear a (kib 64))
    { s with square := q }.trimPast f

/-- The words of area S (R110). -/
def State.statusWords (s : State) : List Word :=
  let first := s.square.first
  [mkWord [(15, 0, fnMask fun f => (s.fireFn f).tripped), (31, 16, fnMask fun f => (s.fireFn f).latched)],
   mkWord [(0, 0, b2n first.cold), (1, 1, b2n first.warm), (2, 2, b2n first.switch), (3, 3, b2n (!s.ownCycle)),
           (4, 4, b2n s.pairMode), (5, 5, b2n (s.mram.forces != [])), (6, 6, b2n (s.pairMode && s.mram.sideB))]]

/-- Area S. -/
def State.statusFreeze (s : State) : State :=
  match s.wordAddr .work .S 0 with
  | none => s
  | some a => { s with square := (s.square.clear a (kib 64)).putWords a s.statusWords }

/-- By elapsing the OUTPUT of a timer has changed since the freeze before (R149): a TON's has risen, a TOF's or TP's has fallen, in the execute
between the two or at freeze `f`, against what that execute left. -/
def Timer.elapsedBetween (t : Timer) (before f : Nat) : Bool :=
  t.lapsed == some before ||
    (t.running && t.reached f && (if t.kind = 1 then !t.outputAt before else t.kind != 0 && t.outputAt before))

/-- The timer that slot `j` is bound to. -/
def State.slotTimer (s : State) (j : Nat) : Timer := s.timer (bits (s.cfg 0x213 j) 11 0)

/-- New bindings of the timer slots are in force from this freeze on. -/
def State.markSlots (s : State) : State := { s with round := { s.round with newBinding := [] } }

/-- The timer slots at a freeze (R149): no source fires at the first freeze after a start, nor for a new binding. -/
def State.timerSlots (s : State) (before f : Nat) : State :=
  (s.each (List.range 64) fun s j =>
    if !s.round.newBinding.get false j && (s.slotTimer j).elapsedBetween before f then s.fireSourceAt (328 + j) f else s).markSlots

/-- At the first freeze a running timer of the retained image takes START := F − elapsed (R124). -/
def State.resumeTimers (s : State) (f : Nat) : State :=
  { s with timers := s.timers.map fun (e : Nat × Timer) => (e.1, if e.2.running then { e.2 with
             start := e.2.start + f, startCycle := Config.resumedStartCycle e.1 f } else e.2) }

/-- What acts on this cycle of the active is known to a shadow that is still taking its state (R98): the ledger of the cycle before, or the snapshot of it. With
the token of a further cycle waiting it goes on without (DEDUCED, log 161). -/
def State.forcesKnown (s : State) : Bool :=
  s.pair.state != .syncing || s.pair.base == prevCycle s.square.current || s.pair.received.contains (prevCycle s.square.current) ||
    decide (2 ≤ s.pair.tokens.length)

/-- The freeze may fall (R83, R92, R300): after the input windows, 2 µs after the start with remote I/O; a shadow's at the token's instant. -/
def State.freezeDue (s : State) : Bool :=
  s.service == .full && s.square.phase == .started && ((List.range 6).all fun n => (s.island n).state != .restarting) && s.canInputsDone &&
    (!s.remoteCycle || decide (s.square.startAt + 2000 ≤ s.now)) &&
    (s.ownCycle || (s.forcesKnown && match s.token with | some t => decide (t.2 ≤ s.now) | none => false))

/-- The instant of the freeze: now, or what the token carries. -/
def State.freezeTime (s : State) : Nat :=
  if s.ownCycle then s.now else match s.token with | some t => t.2 | none => s.now

/-- What a standby, or an incoming module, takes of the ledgers at its freeze (R92, R304, R307). -/
def State.ledgerFreeze (s : State) (before : Nat) (c : BitVec 32) : State :=
  if s.shadows || s.pair.incoming == some c then
    let s := s.applyLedger before c
    if s.ownCycle then s else s.judgeLedgers c
  else s

/-- The frozen pages that the next freeze writes, by address and length (R77, R431). -/
def State.freezeSpans (s : State) : List (Nat × Nat) :=
  let b := b2n (!s.square.committedB)
  [(sqI + b * kib 64, kib 64), (sqNIn + b * kib 128, kib 128), (sqLOut + b * kib 16, kib 16), (sqS + b * kib 64, kib 64)]

/-- A freeze waits while a page that it writes is under repair, or for the repair of an uncorrectable old byte there (R340, R343). -/
def State.freezeHeld (s : State) : Option State := s.freezeSpans.findSome? fun r => s.writeWaits 2 r.1 r.2

/-- The frozen pages of cycle `c` at instant `f` (R80). -/
def State.capture (s : State) (before f : Nat) (c : BitVec 32) : State :=
  let first := !s.square.frozenOnce
  let s := s.each s.freezeSpans fun s r => s.overwrite 2 r.1 r.2
  let s := { s with square := { s.square with frozenB := !s.square.committedB, freezeAt := f, phaseAt := s.now, frozenOnce := true } }.freezeContexts
  let s := (s.totalsFreeze f c).incomingFreeze c
  let s := ((((s.inputFreeze f c).canFreeze f).loopFreeze).statusFreeze).forceFrozen
  if first then (s.resumeTimers f).markSlots else s.timerSlots before f

/-- Execute begins on every engine; in STOP and without a program it is empty (R80, R95). -/
def State.enterExecute (s : State) : State :=
  let s := { s with square := { s.square with phase := .execute, commitBad := [] } }
  if s.square.prog == .run then s.rehome.each (List.range 4) State.beginExecute
  else s.each (List.range 4) fun s e => s.modEngine e fun x => { x with running := false, instructions := 0, clocks := 0 }

/-- FREEZE (R80, R81). A standby that loses sync over a ledger ends its cycle. -/
def execFreeze (s : State) : Out :=
  if !s.freezeDue then .next s
  else match s.freezeHeld with
  | some t => .next t
  | none =>
    let f := s.freezeTime
    let before := s.square.freezeAt
    let c := s.square.current
    let own := s.ownCycle
    let s := { s with pair := { s.pair with tokens := s.pair.tokens.tail } }
    let s := s.ledgerFreeze before c
    if own || s.shadows then .next (s.capture before f c).enterExecute
    else .next { s with square := { s.square with phase := .idle } }

/-! ## Commit and apply (R50, R80, R82, R97, R300) -/

/-- The bytes that the fingerprint covers (R82). -/
def Square.fingerBytes (q : Square) : List Byte :=
  let run := fun a n => (List.range n).map fun i => q.mem.get 0 (a + i)
  run sqCommitted 4096 ++ run (sqLSet + kib 16) (kib 16) ++ run (sqNOut + kib 128) (kib 128)

/-- The commit may fall: every engine has finished; an incoming module waits until its claim may rise (R307). -/
def State.commitDue (s : State) : Bool :=
  s.service == .full && s.square.phase == .execute && ((List.range 4).all fun e => !(s.engine e).running) && !s.incomingWaits

/-- A landing whose commit this is: the next one, or the one before its boundary (R50, R97, R305). -/
def State.landsNow (s : State) (x : Landing) : Bool :=
  match x.due with
  | some b => !(nextCycle s.square.current - b).msb
  | none => true

/-- A force that is forwarded lands at this commit. -/
def State.forcesLand (s : State) (l : List Landing) : Bool :=
  l.any fun x => x.due.isSome && match x.kind with | .forceSet _ | .forceRelease .. => true | _ => false

/-- The words of the working copy that landings and forces write at a commit. -/
def State.landAddrs (s : State) : List Nat :=
  ((s.square.landings.filter s.landsNow).flatMap fun x => x.words.filterMap fun w => s.wordAddr .work w.at_.area w.at_.word) ++
    (s.mram.forces.filter fun f => copied f.area f.offset).filterMap fun f => s.wordAddr .work f.area f.offset

/-- A commit waits while a page that it reads or writes is under repair, for the repair of an uncorrectable old byte where it writes, and where it
reads a word with a mark for the repair of that page (R340, R343). -/
def State.commitHeld (s : State) : Option State :=
  let bad := commitSpans.flatMap fun r => s.badWords 2 r.1 r.2.2
  s.landAddrs.findSome? (fun a => s.writeWaits 2 a 4) <|>
    (commitSpans.findSome? fun r => if s.spanLocked 2 r.1 r.2.2 then some s else s.writeWaits 2 r.2.1 r.2.2) <|>
    if bad == [] then none
    else some { s.each commitSpans fun s r => s.readSpan 2 r.1 r.2.2 with square := { s.square with commitBad := s.square.commitBad ++ bad } }

/-- The working copy becomes the committed copy (R80). A word that it has read with a mark is copied with it, but for one on which a command's write
or a force has landed (R343). -/
def State.copyCommitted (s : State) (landed : List Nat) : State :=
  let bad := s.square.commitBad.filter fun b => !landed.contains b
  let there := commitSpans.flatMap fun r => (bad.filter fun b => r.1 ≤ b && b < r.1 + r.2.2).map fun b => b - r.1 + r.2.1
  let s := s.each commitSpans fun s r => (s.readSpan 2 r.1 r.2.2).overwrite 2 r.2.1 r.2.2
  { s with square := { s.square.commitCopy with commitBad := [] }.markAll there }

/-- A total whose value is found uncorrectable at the commit is restored from its copies (R326, R346). -/
def State.readTotals (s : State) : State :=
  let bad := s.badWords 2 sqZ (kib 4)
  (s.readSpan 2 sqZ (kib 4)).each (bad.map fun b => (b - sqZ) / 8).dedup State.restoreTotal

/-- Command writes, forces and releases land (R50, R97), and the working copy becomes the committed copy (R80). -/
def State.landCommands (s : State) : State × List (Landing × Landed) :=
  let l := s.square.landings.filter s.landsNow
  let wait := s.square.landings.filter fun x => !s.landsNow x
  let at_ := s.landAddrs
  let cycle := if s.forcesLand l then some s.square.current else s.pair.forceCycle
  let s := s.each at_ fun s a => s.overwrite 2 a 4
  let r := { s with square := { s.square with landings := wait }, pair := { s.pair with forceCycle := cycle } }.landAll l
  (((r.1.landWrites r.2).forceWorking.copyCommitted at_).readTotals, r.2)

/-- Commits after which KEEP stores the cycle number (R79). -/
def storeEvery : Nat := 65536

/-- What the committed cycle shows of itself (RS). Every 65,536 commits KEEP stores its number (R79, log 95). -/
def State.showCycle (s : State) (c : BitVec 32) : State :=
  let s := s.keepUnits
  let n := s.freeCount
  let q := s.square
  let q : Square := { q with
    last := c, current := nextCycle c, committedB := q.frozenB, committedOnce := true, phase := .idle, newEdges := []
    fingerprint := crc32c q.fingerBytes, shownProg := q.prog, shownBank := s.mram.runBank, shownForced := (forcedWords s.mram.forces).length
    freezeUs := (Config.phaseUs n).toNat, executeUs := satNat 16 ((s.now - q.phaseAt) / 1000), commitUs := (Config.phaseUs (n + 1)).toNat
    applyUs := (Config.phaseUs (n + 2)).toNat, commits := (q.commits + 1) % storeEvery
    announced := q.announced.filter fun a => !(c - a).msb }
  { s with square := q, freeCount := n + 3
           engines := s.engines.map fun (e : Nat × Engine) => (e.1, { e.2 with rsInstructions := e.2.instructions, rsClocks := e.2.clocks })
           mram := if q.commits = 0 then { s.mram with cycle := c } else s.mram }

/-- A standby keeps its fingerprint until the ledger of the cycle tells the active's (R301). -/
def State.keepFingerprint (s : State) (c : BitVec 32) : State :=
  let s := { s with pair := { s.pair with fingerprints := ((c, s.square.fingerprint) :: s.pair.fingerprints).take 8 } }
  match s.pair.ledgers.find? fun l => l.cycle == c with
  | some l => s.compareFingerprint l
  | none => s

/-- HOLD_MARGIN (R306). -/
def State.holdMargin (s : State) : State :=
  let d := s.now - s.square.startAt
  if s.pairMode && decide (s.holdNs < d + 6000000) then s.raise .holdMargin (BitVec.ofNat 32 (satNat 32 (d / 1000))) else s

/-- The committed values go to the on-board outputs (R80, R186, R225). A loop sink takes its value from the engine, but for the safe value of
STOP_ACTION = 1. -/
def State.applyChannels (s : State) : State :=
  let s := (s.each (List.range 32) State.doApply).each (List.range 32) State.ucCalibrated
  (if s.runs 7 then s.each (s.ucOutputs.filter fun n => s.stopSafe || (s.loopOfChannel n).isNone) State.ucApply else s).keepOutputs

/-- Apply (R80, R90): the committed Q and the set-points go to the islands that run, the program's trip requests to FIRE. -/
def State.applyOutputs (s : State) : State := s.applyChannels.fireApply

/-- Commit of cycle `c` by a module that runs its own cycles, and its apply. -/
def State.commitOwn (s : State) (c : BitVec 32) : State :=
  let s := ((s.commitTotals c).sendLedger c).holdMargin
  let s := (((s.subCommit).panelCommit).canCommit c).incomingApply c
  let s := (s.applyOutputs).loopApply
  (s.giveClaim c).rehearseChecks c

/-- Commit of a shadow (R300): it drives no output, since its claim is down, but its converters and policies follow its own committed values
(R206, R209, R230), and so do the request slots of its FIRE (R275); its loop contexts take their set-points without driving a sink. -/
def State.commitShadow (s : State) (c : BitVec 32) : State :=
  let s := ((s.shadowTotals c).keepFingerprint c).holdMargin
  (((((s.subCommit).panelCommit).canCommit c).applyChannels).fireApply).loopApply

/-- Commit of the cycle in execute, with the apply that follows it (R80). -/
def State.commitCycle (s : State) : State :=
  let c := s.square.current
  let own := s.ownCycle
  let r := s.landCommands
  let s := r.1.showCycle c
  let s := if own then s.commitOwn c else s.commitShadow c
  s.landReplies r.2

/-! ## The watchdog (R84) -/

/-- The lowest-numbered engine that still executes. -/
def State.slowEngine (s : State) : Option Nat := (List.range 4).find? fun e => (s.engine e).running

/-- WATCHDOG_EXPIRY: the cycle is abandoned and the program goes to STOP. -/
def execWatchdogExpiry (s : State) : Out :=
  let d := s.now - s.square.phaseAt
  match s.slowEngine with
  | none => .next s
  | some e =>
    if s.square.phase != .execute || s.watchdogUs = 0 || d ≤ s.watchdogUs * 1000 then .next s
    else
      let s := { s with square := { s.square with overruns := satInc s.square.overruns } }
      let s := s.raiseFrom e .cycleOverrun (BitVec.ofNat 32 (satNat 32 (d / 1000)))
      .next (s.abandonCycle.setMode false)

/-! ## The standby's side (R92, R300, R305, R316) -/

/-- The token of cycle `c` joins those that wait: one that came before for the same cycle gives way, and the cycle already frozen needs none. -/
def State.addToken (s : State) (c : BitVec 32) (instant : Nat) : List (BitVec 32 × Nat) :=
  if s.square.phase == .execute && c == s.square.current then s.pair.tokens
  else if s.pair.tokens.any (·.1 == c) then s.pair.tokens.map fun t => if t.1 == c then (c, instant) else t
  else s.pair.tokens ++ [(c, instant)]

/-- CYCLE_START_TOKEN (R92, R300): cycle and freeze instant of the active; the standby starts and freezes by them. A token that comes before
the standby has finished the cycle before waits for it. Before the snapshot a standby notes the freezes alone (R332). -/
def execCycleStartToken (cycle : BitVec 32) (instant : Nat) (s : State) : Out :=
  if s.pair.state == .syncing && !s.pair.snapshot && !s.causewayLost then .next (s.syncToken cycle instant)
  else if s.shadows && !s.ownCycle && !s.causewayLost then .next { s with pair := { s.pair with tokens := s.addToken cycle instant } } else .next s

/-- A change whose place in time it carries itself: coefficients by their sample, with what is staged for them (R174). -/
def onArrival : Change → Bool
  | .coeff .. | .stage .. | .commit .. => true
  | .object .. | .programBegin .. | .programData .. | .programEnd | .totalClose _ | .fireConfig _ | .ack .. | .canEnable .. | .rehearse ..
  | .handBack | .forceSet _ | .forceRelease .. => false

/-- A change of a channel that is shutting down waits in the channel (R190). -/
def State.ucWaits (s : State) (c : Change) : Bool :=
  match c with
  | .object i _ _ => 0x400 ≤ i && i ≤ 0x41F && (s.uc (i - 0x400)).state == .shuttingDown
  | _ => false

/-- What the partner says of a rehearsal (R311, R312; log 69): its terms, or that it asks for the hand-back. -/
def State.hearRehearsal (s : State) (c : Change) (h : BitVec 32) : State :=
  match c with
  | .rehearse d back =>
    if !s.rehearsing && s.pair.handover.isNone && s.pair.incoming.isNone && (s.pair.state == .active || s.pair.state == .sync) then
      s.openRehearsal h d back
    else s
  | .handBack => if s.pair.state == .active && s.pair.handover.isNone then s.beginHandBack else s
  | _ => s

/-- A message about a rehearsal. -/
def ofRehearsal : Change → Bool
  | .rehearse .. | .handBack => true
  | _ => false

/-- The standby acknowledges a change (R305). -/
def State.acknowledged (s : State) (boundary : BitVec 32) : State :=
  { s with pair := { s.pair with acks := s.pair.acks ++ [boundary] } }

/-- A change of the force table, which lands at a commit (R97). -/
def ofForces : Change → Bool
  | .forceSet _ | .forceRelease .. => true
  | _ => false

/-- FORWARDED_CHANGE (R305): it is acknowledged and waits for its boundary. A change that comes after its boundary costs the sync, reason 02h. -/
def execForwardedChange (c : Change) (boundary : BitVec 32) (s : State) : Out :=
  if !s.pairMode || !s.cableUp then .next s
  else if ofRehearsal c then .next (s.hearRehearsal c boundary)
  else if !(s.shadows && !s.ownCycle) then .next s
  else if onArrival c || s.ucWaits c then .next ((s.acknowledged boundary).landChange c boundary)
  else if (boundary - s.square.current).msb || (boundary == s.square.current && s.square.phase != Phase.idle) then .next (s.loseSync 2)
  else
    let s := match c with
      | .object i 0 w => if 0x400 ≤ i && i ≤ 0x41F then s.ucNote (i - 0x400) w else s
      | _ => s
    let s := s.acknowledged boundary
    if ofForces c then .next (s.landChange c boundary)
    else .next { s with pair := { s.pair with waitingChanges := s.pair.waitingChanges ++ [(c, boundary)] } }

/-- The banks of a snapshot (R316): those that came replace the module's own; all are those of the active. Old bytes of a bank are decoded as it is
written (R340). -/
def State.takeBanks (s : State) (l : List (Nat × List (Nat × Word))) : State :=
  s.each l fun s (e : Nat × List (Nat × Word)) =>
    if 1 < e.1 then s
    else
      let words := (e.2.map (·.1)).foldl (fun m a => max m (a + 1)) 0
      let code := e.2.foldl (fun (t : Tab Word) x => t.set 0 x.1 x.2) []
      let image := (List.range words).map (code.get 0)
      let d := Config.imageOf image
      let s := ((s.writeSpan e.1 0 (4 * words)).writeItem (.bank (e.1 == 1))).setBank e.1
        { state := .verified, words := words, crc := crcWords image, code := code, desc := d, partnerVerified := true }
      { s with mram := { s.mram with bankVoid := s.mram.bankVoid.set false e.1 false } }.putConsts e.1 d.consts

/-- The standby runs the bank that its active runs, in the same mode, so that its shadow is that of the active (R92, R102; R316 names neither: DEDUCED, log
162). A switch that it had heard of is that of the ledgers to come. -/
def State.takeRunning (s : State) (runBank run : Bool) : State :=
  let s := s.each [0, 1] fun s i =>
    if (s.bank i).held then s.modBank i fun k => { k with state := if i == b2n runBank then .running else .verified } else s
  let s := { s with mram := { s.mram with runBank := runBank, runStop := run }, square := { s.square with switch := none, runStop := none } }
  { s with square := { s.square with prog := if !s.loaded then .none_ else if run then .run else .stop } }

/-- The configuration objects of a snapshot: coefficient words and ENABLE of the CAN ports have places of their own. Each word that differs brings
with it what a write of it does; a channel changes its mode (R189). A word that needs a domain which is off waits for the first boundary after that has
come into RUN (R22). -/
def State.takeObjects (s : State) (l : List (Nat × Word)) : State :=
  let coeff := fun (e : Nat × Word) => 0x30000 ≤ e.1 && e.1 < 0x40000 && 32 ≤ e.1 % 256
  let on := fun (p : Nat) => match l.find? (fun (e : Nat × Word) => e.1 == okey (0x500 + p) 0) with | some e => bit e.2 31 | none => false
  let clean := fun (e : Nat × Word) => if e.1 == okey 0x500 0 || e.1 == okey 0x501 0 then (e.1, setBit e.2 31 false) else e
  let wait := l.filter fun e => match neededDomain e.1 e.2 with | some d => !s.domainOn d | none => false
  let held := wait.map fun e => (e.1, s.mram.obj.get (objDefault e.1) e.1)
  let obj := ((l.filter fun e => !coeff e) ++ held).foldl (fun (t : Tab Word) e => t.set (objDefault e.1) e.1 (clean e).2) []
  let coeffs := (l.filter coeff).foldl (fun (t : Tab Word) (e : Nat × Word) => t.set 0 (e.1 - 0x30000) e.2) []
  let was := s
  let keys := ((was.mram.obj ++ obj).map (·.1)).dedup
  let s := { s with mram := { (keys.map (· / 256)).dedup.foldl Mram.wrote s.mram with
                      obj := obj, coeffs := coeffs, voidCopies := s.mram.voidCopies.filter fun v => !v.isObject }
                    sup := { s.sup with objPending := wait } }
  let s := s.each (keys.filter fun k => was.cfg (k / 256) (k % 256) != s.cfg (k / 256) (k % 256)) fun s k =>
    let old := was.cfg (k / 256) (k % 256)
    let new := s.cfg (k / 256) (k % 256)
    if 0x40000 ≤ k && k < 0x42000 then (if k % 256 = 0 then s.ucLandMode (k / 256 - 0x400) old new else s)
    else s.afterWrite (k / 256) (k % 256) old new
  s.each [0, 1] fun s p => if on p == s.canEnabled p then s else (s.canEnable p (on p)).1

/-- A counter as its words with their marks give it (R127, R132). -/
def counterOf (v q : Word × Bool) : Counter :=
  { value := v.1, upMem := bit q.1 31, downMem := bit q.1 30, saturated := bit q.1 29, preset := BitVec.ofNat 29 (bits q.1 28 0)
    poisoned := v.2, presetP := q.2 }

/-- The parts of the Town Square that a snapshot covers as bytes (R316, R431). -/
def snapSpans : List (Nat × Nat) := [(0, sqI), (sqNOut, sqLOut), (sqLSet, sqT), (sqE, sqZ)]

/-- The Town Square of a snapshot, by byte address, with the bytes that are poisoned in it (R316, R345, R431): T and C are timers and counters, which stand
as at the active's freeze `f` of the snapshot's cycle (R125). Old bytes are decoded as it is written (R340). -/
def State.takeSquare (s : State) (f : Nat) (l : List (Nat × Byte)) (marks : List Nat) : State :=
  let units := fun (a n size : Nat) => (((l.map (·.1) ++ marks).filter fun e => a ≤ e && e < a + n * size).map fun e => (e - a) / size).dedup
  let all : Square := { mem := l.foldl (fun (t : Tab Byte) (e : Nat × Byte) => t.set 0 e.1 e.2) [] }
  let word := fun a => (all.word a, marks.any fun b => a ≤ b && b < a + 4)
  let timers := (units sqT 4096 16).foldl (fun (t : Tab Timer) n =>
    t.set {} n (Timer.ofWords ((List.range 4).map fun k => word (sqT + 16 * n + 4 * k)) f)) []
  let counters := (units sqC 4096 8).foldl (fun (t : Tab Counter) n =>
    t.set {} n (counterOf (word (sqC + 8 * n)) (word (sqC + 8 * n + 4)))) []
  let covered := fun (a : Nat) => snapSpans.any fun r => r.1 ≤ a && a < r.2
  let own := s.square.mem.filter fun (e : Nat × Byte) => !covered e.1
  let held := l.filter fun (e : Nat × Byte) => covered e.1
  let s := s.each snapSpans fun s r => s.writeSpan 2 r.1 (r.2 - r.1)
  let s := { s with timers := timers, counters := counters, square := { s.square with freezeAt := f } }.keepUnits
  { s with square := { s.square with
      mem := held.foldl (fun (t : Tab Byte) (e : Nat × Byte) => t.set 0 e.1 e.2) own
      scratch := snapSpans.foldl (fun l r => cutRange l r.1 r.2) s.square.scratch
      poison := (marks.filter covered).foldl (fun (t : Tab Bool) b => t.set false b true) (s.square.poison.filter fun (e : Nat × Bool) => !covered e.1) } }

/-- RESYNC_SNAPSHOT_RECEIVED (R316): banks, objects, Fire Lane, forces, loop time, the Town Square, numbering and totals of the active; the
shadow executes from the next freeze, with the bank that the active runs. -/
def execResyncSnapshotReceived (x : Snapshot) (s : State) : Out :=
  if s.pair.state != .syncing || s.pair.snapshot || x.fwMajor != 4 || s.causewayLost then .next s
  else
    let f := s.syncFreeze x.cycle
    let s := (((s.takeBanks x.banks).takeRunning x.runBank x.run).takeObjects x.objects).takeSquare f x.square x.marks
    let fire := x.fireConfig.foldl (fun (t : Tab Word) (e : Nat × Word) => t.set (fireDefault e.1) e.1 e.2) ([] : Tab Word)
    let s := if fire == s.fireSet then s else s.bringFire ((List.range 192).map fun k => fire.get (fireDefault k) k)
    let s := { s with
      mram := { s.mram.wrote 0x104 with forces := x.forces, cycle := x.cycle }
      square := { s.square with last := x.cycle, current := nextCycle x.cycle, phase := .idle, committedOnce := true
                                landings := [], totIncr := [], forcesChanged := false }
      loop := { s.loop with tick := x.tick }
      pair := { s.pair with snapshot := true, base := x.cycle, adopted := true, received := [], ledgers := [], tokens := [], switchSeen := x.cycle } }
    let s := s.each x.samples fun s (e : Nat × BitVec 32) => s.modLoopCtx e.1 fun q => { q with sample := e.2 }
    let s := { s with pair := { s.pair with syncTokens := [] } }
    .next (s.adoptTotals x.cycle f x.totals).judgeDomains

end Sys2Proof.Machine
end

