-- ==== Sys2Proof/Machine/Power.lean ====
section
/-! DEFINITION. The logic supply and its failure (R392, R403 to R405, R422, R423): the two feeds, the warning, what accepted commands still do, the
stores of steps 4 and 5, and the deadline of a cycle in execute. -/

namespace Sys2Proof.Machine

open Sys2Proof

/-! ## Accepted commands that wait (R400, R404) -/

/-- Accepted object writes that still wait for a boundary, for a channel's shut-down, for the end of a port's recovery or for the commit of a total are in
force after the restart (log 32). -/
def State.settleWrites (s : State) : State :=
  let s := (s.each (List.range 64) State.settleCloses).each [0, 1] State.settleCan
  ((s.sup.objPending ++ s.waitingWords).filter fun (e : Nat × Word) => e.1 / 256 != 0xD00).foldl (fun s (e : Nat × Word) => s.putCfg e.1 e.2) s

/-- A confirmed Fire Lane set that still waits for its boundary is in force after the restart (R289). -/
def State.settleFire (s : State) : State :=
  if s.fire.before.isNone then s else s.takeFire ((List.range 192).map fun k => s.mram.fire.get (fireDefault k) k)

/-- Writes, forces and releases that wait for a commit land with no commit of a cycle, and are answered. -/
def State.settleLandings (s : State) : State :=
  if s.square.landings == [] then s
  else
    let s := { s with square := { s.square with landings := s.square.landings.map fun (x : Landing) => { x with due := none } } }
    let r := s.landCommands
    r.1.landReplies r.2

/-- The coefficient changes in the queue of context n land, each as at its sample (R172). -/
def State.settleLoop (s : State) (n : Nat) : State :=
  (s.loopCtx n).queue.foldl (fun (t : State) q => t.loopLand n q.sample) s

/-- Commands that were accepted complete after the final commit of a hold-up, although no boundary, commit or sample follows (R404 step 1): forwarded
changes, object words, what waits on totals, a Fire Lane set, RUN_STOP, landings and coefficients (DEDUCED, log 141). -/
def State.settleAccepted (s : State) : State :=
  let l := s.pair.waitingChanges
  let s := { s with pair := { s.pair with waitingChanges := [] } }
  let s := s.each l fun s e => s.landChange e.1 e.2
  let w := s.sup.objPending
  let s := { s with sup := { s.sup with objPending := [] } }
  let s := s.each w fun s e => s.landWordAt e.1 e.2
  let s := ((s.each (List.range 64) State.settleCloses).each [0, 1] State.settleCan).settleFire
  let s := match s.square.runStop with
    | some (run, _) => s.setMode run
    | none => s
  s.settleLandings.each (s.loop.ctxs.map (·.1)) State.settleLoop

/-! ## The hold-up sequence (R403 to R405, R423) -/

/-- No cycle runs any more and no handover is to follow, after a power-fail warning (R404, R405). -/
def State.finalApplied (s : State) : Bool := s.power.warning.isSome && s.square.phase == .idle && s.pair.handover.isNone

/-- After the final commit, once: what was accepted completes, and steps 4 and 5 of the hold-up sequence store the retained image with the cycle
number, the last mark of every hardware total and module time (R404). In full service PWR then switches off PD2, PD3 and PD4 (R423). Without a cycle
step 4 is omitted (R405). -/
def State.holdupStore (s : State) : State :=
  if !s.finalApplied || s.square.finalDone then s
  else
    let s := s.settleAccepted
    let s := (if s.service == .sideStreet then s else s.writeRetained).lastMarks
    let s := { s with square := { s.square with finalDone := true }, mram := { s.mram with time := s.now } }
    if s.service == .full then { s.each [2, 3, 4] State.powerOff with loop := { s.loop with live := false } } else s

/-- PF_THRESHOLD_MV and POWER_ON_KIND (R409). -/
def State.pfThreshold (s : State) : Nat := bits (s.cfg 0xD10 0) 31 16
def State.powerOnCold (s : State) : Bool := bit (s.cfg 0xD10 0) 15

/-- The first condition of R394: the supply that full service needs. -/
def State.serviceMv (s : State) : Nat := max 9000 (s.pfThreshold + 500)

/-- The module works: it has a valid supply and has not halted. -/
def State.working (s : State) : Bool := s.service != .off && s.service != .halted

/-- The panel at the warning: it powers down, or does so when its power-up is done (R373). -/
def Panel.warned (q : Panel) : Panel :=
  let q := { q with wantOn := false, onPending := false }
  if q.state == .on then q.down else q

/-- POWER_FAIL_WARNING (R403, R404, R310, R422): raised once, by the threshold only in full service, where a falling supply meets it before
4.3 V. The charger stops and the hold-up converter takes over. An active module with a synchronised partner plans the handover two cycles ahead. -/
def execPowerFailWarning (mv : Nat) (s : State) : Out :=
  if !s.working || s.power.warning.isSome || !(mv < 4300 || (s.service == .full && mv < s.pfThreshold)) then .next s
  else
    let s := { s with
      power := { s.power with warning := some s.now, restart := none, charging := false, converter := true }
      mram := { s.mram with warnings := satInc s.mram.warnings, holdupComplete := false }
      panel := s.panel.warned }
    let s := (s.fireSource 408).raiseFrom 18 .powerFailWarning (mkWord [(31, 31, if s.service == .full then 0 else 1), (15, 0, mv)])
    let s := if s.service == .full && s.pair.state == .active then
        s.endRehearsal.planHandover 2
      else s
    .next s.holdupStore

/-- HOLDUP_EXECUTE_DEADLINE (R405): 5 ms after the warning a cycle still in execute is abandoned. -/
def execHoldupExecuteDeadline (s : State) : Out :=
  match s.power.warning with
  | some t => if t + 5000000 ≤ s.now then .next s.abandonCycle.holdupStore else .next s
  | none => .next s

/-! ## The feeds (R392, R409) -/

/-- A record of a logic feed. -/
def feedValue (feed mv : Nat) : Word := mkWord [(31, 16, mv), (0, 0, feed)]

/-- A feed as last measured. -/
def Power.feed (p : Power) (feed : Fin 2) (mv : Nat) : Power :=
  if feed = 0 then { p with lp1Mv := mv, lp1Ok := decide (4500 ≤ mv) } else { p with lp2Mv := mv, lp2Ok := decide (4500 ≤ mv) }

/-- What a row tells of the ORed supply: since when it has stood where full service may begin (R394, log 156). -/
def Power.told (p : Power) (now : Nat) (ok : Bool) : Power := { p with okFrom := if ok then p.okFrom <|> some now else none }

/-- The ORed supply that a feed change leaves (R392, R394). -/
def State.feedTold (s : State) (feed : Fin 2) (mv : Nat) : State :=
  let p := s.power.feed feed mv
  { s with power := p.told s.now (decide (s.serviceMv ≤ max p.lp1Mv p.lp2Mv)) }

/-- SUPPLY_FEED_LOST (R392): a feed falls below 4.5 V, and its OK bit is 0; the record is written where the other feed stays valid. -/
def execSupplyFeedLost (feed : Fin 2) (mv : Nat) (s : State) : Out :=
  if s.service == .off || 4500 ≤ mv then .next s
  else
    let t := s.feedTold feed mv
    .next (if s.power.lp1Ok && s.power.lp2Ok then t.raiseFrom 18 .supplyFeedLost (feedValue feed mv) else t)

/-- SUPPLY_FEED_RESTORED (R392). -/
def execSupplyFeedRestored (feed : Fin 2) (mv : Nat) (s : State) : Out :=
  if s.service == .off || mv < 4500 then .next s else .next (s.feedTold feed mv)

/-- SUPPLY_LOW_HOLD (R394): once, 1 s after supply valid, when the supply is valid but below what full service needs. -/
def execSupplyLowHold (mv : Nat) (s : State) : Out :=
  if s.service != .sideStreet || s.power.lowHoldDone || s.now < s.power.validAt + 1000000000 || s.serviceMv ≤ mv || mv < 4500 then .next s
  else .next ({ s with power := { s.power with lowHoldDone := true, okFrom := none } }.raiseFrom 18 .supplyLowHold (mkWord [(15, 0, mv)]))

end Sys2Proof.Machine
end

