-- ==== Sys2Proof/Machine/Replies.lean ====
section
/-! DEFINITION. Replies on their way out (R55), the 100 ms of a multi-packet request, and the close of a command window (R48). -/

namespace Sys2Proof.Machine

open Sys2Proof

/-- A packet of a reply (R40, R41, R43): REPLY set, the header fields of the request copied back. -/
def State.replyPacket (s : State) (c : Ctx) (cycle : BitVec 32) (more : Bool) (payload : List Byte) : Packet :=
  { s.packet c.port (128 + b2n more * 32) c.opcode.toNat c.tag.toNat c.seq c.origin c.cls c.keyslot c.tagged cycle payload with peer := c.peer }

/-- A reply without fields that leaves at once, ahead of what its command then does: RESTART (R400) and KEY_REVOKE (R75). -/
def State.replyNow (s : State) (c : Ctx) : State :=
  (if c.broadcast then s else s.send (s.replyPacket c s.shownCycle false (toBe 2 Status.ok.code.toNat))).freePlace c.origin

/-- The next packet of an upload (R364): STATUS, N, records and, with a poisoned word among them, the bitmap, for which the packet takes one
record less (log 30). Answers the payload and what is left. -/
def State.uploadPacket (s : State) (from_ : BitVec 32) (n : Nat) : List Byte × Option (BitVec 32 × Nat) :=
  let left := s.entryCount from_ n
  let full := s.entries 0 (min 43 left) from_
  let k := if full.any (·.2) then min 42 left else min 43 left
  let l := full.take (8 * k)
  let marks := (List.range k).map fun j =>
    BitVec.ofNat 8 ((List.range 8).foldl (fun a b => a + b2n (l.getD (8 * j + b) (0, false)).2 * 2 ^ b) 0)
  let poisoned := l.any (·.2)
  let st := if poisoned then Status.poisoned else Status.ok
  let body := toBe 2 st.code.toNat ++ toBe 2 k ++ pad 2 ++ (l.flatMap fun (x : Word × Bool) => wordBe x.1) ++ if poisoned then marks else []
  (body, if k < left then some ((List.range k).foldl (fun i _ => nextIndex i) from_, n - k) else none)

/-- Bytes of payload in a packet (R40). -/
def packetBytes : Nat := 1400

/-- The next packet of a reply: its payload, and the reply as it stands after it, if more packets follow (R55). -/
def State.replyStep (s : State) (r : Reply) : List Byte × Option Reply :=
  match r.upload with
  | some u =>
    let x := s.uploadPacket u.1 u.2
    (x.1, x.2.map fun v => { r with sent := r.sent + 1, upload := some v })
  | none =>
    let rest := (toBe 2 r.status.toNat ++ r.body).drop (packetBytes * r.sent)
    (rest.take packetBytes, if rest.length ≤ packetBytes then none else some { r with sent := r.sent + 1 })

/-- The words of MRAM that the next packet of an upload meets an error or a repair at (R341, R343). -/
def State.uploadWords (s : State) (r : Reply) : List Nat :=
  match r.upload with
  | some u => s.recordWords (s.slotsFrom (min 43 (s.entryCount u.1 u.2)) u.1)
  | none => []

/-- A reply with packets still to come. Each further packet of a Class 3 reply waits anew for its 1 ms (R28). -/
def Reply.goesOn (now order : Nat) (r : Reply) : Reply :=
  let r := { r with marks := [] }
  if r.ctx.cls == 3 then { r with readyAt := now, order := order } else r

/-- REPLY_PACKET_SEND (R55): the next packet of the reply whose turn it is on a port leaves when there is a path for it (R28, R148); the last
one gives the place in the window back. An upload reads its next records (R341): the first word of a page that it finds uncorrectable is given with a mark,
and while other words stand on a page under repair the packet waits (R343). -/
def execReplyPacketSend (port : Port) (s : State) : Out :=
  if !s.supAnswers || s.pathDown port then .next s
  else
    match pickReply s.now port s.sup.replies with
    | none => .next s
    | some (first, r, rest) =>
      let at_ := s.uploadWords r
      let bad := r.marks ++ s.badOf 7 at_
      let t := s.readWords 7 at_
      if !s.replyTurn r then .next s
      else if at_.any fun w => t.locked 7 w && !bad.contains w then
        .next { t with sup := { t.sup with replies := first ++ [{ r with marks := bad }] ++ rest } }
      else
        let step := (s.markRecords bad).replyStep r
        let s := t
        let p := s.replyPacket r.ctx r.cycle step.2.isSome step.1
        let replies := first ++ (step.2.map (Reply.goesOn s.now s.sup.ready)).toList ++ rest
        let s := { s with sup := { s.sup with ready := s.sup.ready + 1, replies := replies } }.send p
        .next (if step.2.isNone && r.counts then s.freePlace r.ctx.origin else s)

/-- MULTI_PACKET_TIMEOUT (R55): a request still incomplete 100 ms after its first packet is discarded and answered BAD_LENGTH. -/
def execMultiPacketTimeout (origin tag : BitVec 16) (s : State) : Out :=
  if !s.supAnswers then .next s
  else
    let due := fun (q : Partial) => q.ctx.origin == origin && q.ctx.tag == tag && decide (q.firstAt + 100000000 ≤ s.now)
    let late := s.sup.partials.filter due
    let s := { s with sup := { s.sup with partials := s.sup.partials.filter fun q => !due q } }
    .next (s.each late fun s q => s.refuse q.ctx .badLength)

/-- IDLE_CLOSE (R48): a window with no command accepted for IDLE_CLOSE seconds and no reply owed closes. -/
def execIdleClose (origin : BitVec 16) (s : State) : Out :=
  .next { s with sup := { s.sup with windows := s.sup.windows.filter fun w =>
    !(w.origin == origin && w.used == 0 && decide (w.lastAt + w.idleClose * 1000000000 ≤ s.now)) } }

end Sys2Proof.Machine
end

