-- ==== Sys2Proof/Machine/Startup.lean ====
section
/-! DEFINITION. Start-up, restart and the end of a hold-up (chapter 17): Side-Street mode, full service, RESTART, the halt and the loss of
the logic supply. -/

namespace Sys2Proof.Machine

open Sys2Proof

/-! ## What a start finds in MRAM -/

/-- Object words that MRAM does not keep (R30, R61). -/
def volatileWords : List Nat := [okey 0x31 0, okey 0x40 0]

/-- Fields written for the next restart (R318) and, at a power-up, those for the next power-up (R409) are in force; a provisional address is
gone (R387); an activated firmware image runs (R75); a load left open left its bank empty (R395). -/
def State.startMram (s : State) (powerUp : Bool) : Mram :=
  let m := s.mram
  let due := m.objRestart.filter fun (e : Nat × Word × Word) => powerUp || e.1 != okey 0xD10 0
  let obj := due.foldl (fun (t : Tab Word) (e : Nat × Word × Word) =>
    t.set (objDefault e.1) e.1 ((t.get (objDefault e.1) e.1 &&& ~~~e.2.1) ||| e.2.2)) (m.obj.filter fun e => !volatileWords.contains e.1)
  let prov := s.ring.provisional.isSome
  { m with
    obj := obj, objRestart := m.objRestart.filter fun (e : Nat × Word × Word) => !(powerUp || e.1 != okey 0xD10 0)
    addressed := m.addressed && !prov, address := if prov then 0 else m.address
    banks := (m.banks.filter fun (e : Nat × Bank) => e.2.state != .loading).map fun (e : Nat × Bank) => (e.1, { e.2 with partnerVerified := false })
    fwRunning := m.fwActivated <|> m.fwRunning, fwActivated := none }

/-! ## What the field side keeps (R219, R229, R401) -/

/-- The counting stage keeps RAW_COUNT and its paths while its field power lasts (R219), its times as the module's time is at the start: module
time resumes from MRAM (R389). The filtered state and its flags begin at 0 (R16). Over a commanded restart FIRE goes on with what it has been told, until
DSCAN tells it anew (R402; log 140). -/
def Di.kept (d : Di) (commanded : Bool) (old new : Nat) : Di :=
  let at_ := fun (t : Nat) => t + new - old
  { raw := d.raw, trail := d.trail.map at_, thresholdBase := d.raw, countLevel := d.countLevel, countFrom := at_ d.countFrom, untold := commanded }

/-- A group keeps what its own comparators hold: LOST, and that its counting stage lost power. -/
def DGroup.kept (g : DGroup) : DGroup := { lost := g.lost, belowLost := g.belowLost, stageReset := g.stageReset }

/-- A field-side hold goes on through a restart (R229, R400). -/
def Do.kept (d : Do) : Do := { held := d.held, heldState := d.heldState, driven := d.held && d.heldState }
def Uc.kept (u : Uc) : Uc := { held := u.held, heldTrip := u.heldTrip }

/-- The field side as a start finds it. -/
def State.fieldOf (old : State) (commanded : Bool) (s : State) : State :=
  { s with
    dis := old.dis.map fun (e : Nat × Di) => (e.1, e.2.kept commanded old.now s.now)
    diGroups := old.diGroups.map fun (e : Nat × DGroup) => (e.1, e.2.kept)
    doGroups := old.doGroups.map fun (e : Nat × DGroup) => (e.1, e.2.kept)
    dos := old.dos.map fun (e : Nat × Do) => (e.1, e.2.kept) }

/-- The interlock as a start finds it while PD0 stays powered: what it senses, a hold window that still runs, and the pair state that the module
leaves (R298). -/
def Pair.kept (p : Pair) : Pair :=
  { state := p.state, cable := p.cable, cableEnd := p.cableEnd, claimPartner := p.claimPartner, partnerEdgeAt := p.partnerEdgeAt
    ownFellAt := p.ownFellAt, cableFellAt := p.cableFellAt, holdUntil := p.holdUntil }

/-- Arrays whose domain stays powered through a commanded restart (R400): their scrub goes on; the counts are those since the restart (R353). -/
def keptArrays : List Nat := [0, 1, 2, 7]

/-- The records on their way to KEEP: those it has received and those that still cross, which it takes now (R354, R356). -/
def State.raisedAll (s : State) : List Raised :=
  s.raised ++ s.crossings.flatMap fun (e : Nat × Crossing) => e.2.waiting.filterMap fun m => match m.cargo with
    | .record q => some (q.received s.now)
    | _ => none

/-- The parts that a commanded restart leaves alone beside MRAM and the field side (R400, R401): the Town Square's and PD0's arrays with their
repairs, FIRE, the records on their way to KEEP, module time and the supply. -/
def State.restartedOf (old : State) : State :=
  { (old.fieldOf true { pending := old.pending, now := old.now, freeCount := old.freeCount }) with
    mram := old.startMram false
    ucs := old.ucs.map fun (e : Nat × Uc) => (e.1, e.2.kept)
    fire := old.requestsIdle
    pair := old.pair.kept
    raised := old.raisedAll, recQueue := old.recQueue
    locks := old.locks.filter fun k => keptArrays.contains k.array
    upsets := old.upsets.filter fun u => keptArrays.contains u.array
    square := { mem := old.square.mem, poison := old.square.poison, scratch := old.square.scratch, seals := old.square.seals
                frozenB := old.square.frozenB, committedB := old.square.committedB, freezeAt := old.square.freezeAt }
    timers := old.timers, counters := old.counters
    arrays := (old.arrays.filter fun (e : Nat × Arr) => keptArrays.contains e.1).map fun (e : Nat × Arr) =>
      (e.1, { scrubFrom := e.2.scrubFrom, passFrom := e.2.passFrom, scrubbed := e.2.scrubbed, commanded := e.2.commanded, sealed_ := e.2.sealed_ })
    sup := { wire := old.sup.wire }
    ring := { ports := old.ring.ports.map fun (e : Nat × RingPort) =>
                (e.1, { queue := e.2.queue, onLink := e.2.onLink, busyUntil := e.2.busyUntil }), hsrSeq := old.ring.hsrSeq }
    power := { old.power with supOk := false, warning := none, restart := none } }

/-! ## Side-Street mode (R393 step 4, R397) -/

/-- Domains that are on from the start: all but the gateable ones that nothing needs (R21, R393). -/
def State.powerDomains (s : State) : State :=
  s.each (List.range 12) fun s d => if !gateable d || s.domainNeeded d then s.domainUp d else s

/-- FIRE's own clock and PWR's are the local oscillator (R18, R20). -/
def State.localClocks (s : State) : State := s.each [9, 18] fun s n => s.modIsland n fun i => { i with clksrc := true }

/-- SIDE is read from the cable end (R292). A pair module enters STALE and looks for its partner (R298, R299); without a cable it says so. -/
def State.startPair (s : State) : State :=
  let s := { s with mram := { s.mram with sideB := s.pair.cableEnd.getD s.mram.sideB } }
  if !s.pairMode then { s with pair := { s.pair with state := .solo } }
  else
    let up := s.pair.cable
    let s := { s with pair := { s.pair with discoveryEnd := s.now + s.discoveryNs, lane0 := up, lane1 := up, partnerEdgeAt := s.now } }
    let s := if up then s else s.raise .cableAbsent 0
    s.enterPair .stale

/-- Outputs at their start values, channels in Side-Street mode, ports, panel and, after a power-up, the states that FIRE needs (R209, R231, R272, R373,
R402). -/
def State.startField (s : State) : State :=
  let s := s.each (List.range 32) fun s n =>
    let v := s.doStart n
    (s.modDo n fun d => { d with selected := v }).doRefresh n
  let s := s.each (List.range 48) fun s n => s.modDi n fun d => { d with filterFrom := s.now }
  let s := s.each (List.range 32) State.ucSideStreet
  let s := s.canJoin.canFullService
  let s := { s with
    panel := if s.panelEnable && bit (s.cfg 0xB00 0) 30 then s.panel.up s.now else s.panel
    plate := { s.plate with segments := s.mram.shown, invalidDark := s.mram.plateTorn } }
  (if s.mram.lastStart.toNat < 2 then s.tellFire else s).offerDigital

/-- What object 0100h shows before the first commit: program, mode and forces as MRAM keeps them. -/
def State.storedProg (s : State) : ProgState := if !s.loaded then .none_ else if s.mram.runStop then .run else .stop
def State.showStored (s : State) : State :=
  { s with square := { s.square with
    shownProg := s.storedProg, shownBank := s.mram.runBank, shownForced := (forcedWords s.mram.forces).length } }

/-- A cold start clears the forces (R16, R104), before Side-Street mode shows their number (DEDUCED, log 137). -/
def State.clearForces (s : State) (cold : Bool) : State :=
  let n := s.mram.forces.length
  if cold && n != 0 then { s with mram := { s.mram.wrote 0x104 with forces := [] } }.raise .forcesCleared (BitVec.ofNat 32 n) else s

/-- Entry to Side-Street mode: START_UP with the kind of start, totals, domains, pair and field. -/
def State.enterSideStreet (s : State) (kind : BitVec 2) : State :=
  let s := { s with service := .sideStreet, mramChecked := true, mram := { s.mram with lastStart := kind, started := true }, auditAt := s.now
                    sup := { s.sup with bumped := if s.mram.started then BitVec.allOnes 8 else 0 } }
  let s := (s.powerDomains.localClocks).raiseStarting .startUp (mkWord [(31, 30, kind.toNat)])
  let s := (s.clearForces (kind.getLsbD 0)).showStored
  (s.loadTotals.startPair).startField.judgeCuts

/-- The kind of start in LAST_START (R409). -/
def startKind (commanded cold : Bool) : BitVec 2 := BitVec.ofNat 2 (2 * b2n commanded + b2n cold)

/-! ## Power-up (R393 steps 1 to 4) -/

/-- The module right after supply valid, before Side-Street mode: MRAM as found, module time resumed from it (R389). -/
def State.poweredOf (old : State) : State :=
  let m := old.startMram true
  let hold := old.pair.holdUntil.map fun t => m.time + (t - old.now)
  old.fieldOf false { pending := old.pending, now := m.time, freeCount := old.freeCount, mram := m, fire := { cutIn := old.fire.cutIn }
                      upsets := old.upsets.filter (·.array == 7), square := { seals := old.square.seals }, power := { vbus := old.power.vbus }
                      pair := { claimPartner := old.pair.claimPartner, holdUntil := hold } }

/-- KEEP reads all of MRAM (R341, R343, R347), before Side-Street mode begins: its records say so (R354). A copy that failed is rewritten from the other
one (R346). -/
def State.readMram (s : State) : State :=
  let t := s.readSpan 7 0 (kib 8192)
  let early := fun (q : Raised) => { q with rec_ := { q.rec_ with sideStreet := false, cycle := s.storedCycle } }
  { t with raised := t.raised.take s.raised.length ++ (t.raised.drop s.raised.length).map early, mram := { t.mram with voidCopies := [] } }

/-- What KEEP finds at a power-up (R288, R347, R361, R408). -/
def State.checkMram (s : State) : State :=
  let s := s.readMram
  let s := if s.mram.holdupComplete then s else s.raiseStarting .holdUpIncomplete 0
  if !s.mram.fireValid then s.raiseStarting .fireConfigInvalid 0
  else s.each ([0, 1].filter fun k => s.mram.fireVoid.get false k) fun s k =>
    { s with mram := { s.mram with fireVoid := s.mram.fireVoid.set false k false } }.raiseStarting .fireConfigRepaired (mkWord [(0, 0, k)])

/-- SUPPLY_VALID (R393 steps 1 to 4): the store begins to charge and the start-up runs to Side-Street mode. SIDE is what the cable end on X6 gives; without a cable the stored
side stands (R292). -/
def execSupplyValid (lp1 lp2 : Nat) (sideB : Option Bool) (s : State) : Out :=
  if s.service != .off || (lp1 < 4500 && lp2 < 4500) then .next s
  else
    let s := s.poweredOf.recorderStart
    let s := { s with
      service := .sideStreet
      pair := { s.pair with cable := sideB.isSome, cableEnd := sideB }
      power := { s.power with lp1Mv := lp1, lp2Mv := lp2, lp1Ok := 4500 ≤ lp1, lp2Ok := 4500 ≤ lp2, charging := true
                              validAt := s.now, startFrom := s.now, okFrom := if s.serviceMv ≤ max lp1 lp2 then some s.now else none } }
    .next (s.checkMram.enterSideStreet (startKind false s.powerOnCold))

/-- SUP_FIRMWARE_VERIFIED (R393 step 5): SUP answers commands from now on. -/
def execSupFirmwareVerified (s : State) : Out :=
  if s.working then .next { s with power := { s.power with supOk := true } } else .next s

/-- DOMAIN_POWER_UP_COMPLETE (R22): the islands of the domain are in RUN and its arrays sealed; where no cycle boundary follows, what waited for the
domain takes effect now. -/
def execDomainPowerUpComplete (d : Fin 12) (s : State) : Out :=
  if (s.domain d).state != .transition || !s.working then .next s
  else
    let s := s.domainUp d
    .next (if s.service == .full then s else s.landPending.canJoin.landFire)

/-! ## Commanded restart (R400 to R402) -/

/-- Steps 2 to 4 of R400: the retained image and the cycle number, the last marks of the hardware totals, so that the restart loses nothing of what they have
metered (R37, R336; DEDUCED, log 160), claim and cycle dropped, and Side-Street mode with the kind asked for. -/
def State.restartNow (s : State) (cold : Bool) : State :=
  let s := s.settleWrites.settleFire.writeRetained.lastMarks.dropClaim
  let s := if s.ring.time == .locked then s.raise .ptpLost 0 else s
  s.restartedOf.enterSideStreet (startKind true cold)

/-- A restart that waited for the handover is made once the module has become standby (R400). -/
def State.restartIfDue (s : State) : State :=
  match s.power.restart with
  | some cold => if s.pair.handover.isNone then s.restartNow cold else s
  | none => s

/-- The handover that a restart waited for will not come in a module that has left service, so it is made now (R35, R400; log 157). -/
def State.restartIfLeft (s : State) : State :=
  match s.power.restart with
  | some cold => if s.service == .outOfService then s.restartNow cold else s
  | none => s

def restartDesc : CmdDesc := { code := 0x0104, roles := [.maintain], fits := exact 4, kind := .local_ }

/-- RESTART (R64, R400): the reply leaves first. An active module with a synchronised partner hands over before it restarts. -/
def runRestart (c : Ctx) (b : List Byte) (s : State) : State :=
  let k := byteAt b 0
  if k != 1 && k != 2 then s.refuse c .outOfRange
  else
    let s := s.replyNow c
    let s := { s with power := { s.power with startFrom := s.now, restart := some (k == 2) } }
    if s.service == .full && s.pair.state == .active then
      (if s.pair.handover.isSome then s else s.planHandover 2)
    else s.restartNow (k == 2)

def execRestart (p : Packet) (s : State) : Out := s.command p restartDesc runRestart

/-- COMMIT (R80), with the apply that follows it, the stores of a hold-up and a restart that waited for its handover. -/
def execCommit (s : State) : Out :=
  if !s.commitDue then .next s
  else match s.commitHeld with
  | some t => .next t
  | none => .next s.commitCycle.holdupStore.restartIfDue

/-! ## Full service (R393 steps 7 and 8, R394 to R396) -/

/-- The start under way is a power-up (R409). -/
def State.poweringUp (s : State) : Bool := decide (s.mram.lastStart.toNat < 2)

/-- A bank's MRAM copy: the words in which an error stands, and whether a page under repair holds some of it. The manual gives no map of MRAM (log 59). -/
def State.mramErrors (s : State) (i : Nat) : List Nat :=
  ((s.upsets.filter fun u => u.array == 7 && u.byte < 512 && Config.mramItem u.addr == .bank (i == 1)).map fun u => wordOf u.addr).dedup
def State.mramWaits (s : State) (i : Nat) : Bool :=
  s.locks.any fun k => k.array == 7 && (List.range 512).any fun b => Config.mramItem (k.page * 512 + b) == .bank (i == 1)

/-- A bank whose SRAM copy step 7 takes from MRAM: every one at a power-up, else one that holds what no code corrects (R395, R401). -/
def State.fromMram (s : State) (i : Nat) : Bool := (s.bank i).held && (s.poweringUp || (s.bank i).poison != [])

/-- Step 7 reads the banks to check IMAGE_CRC: the SRAM copies at a commanded restart, the MRAM copies of those that are taken from there (R341, R395,
R401). -/
def State.bankReads (s : State) : State :=
  let s := if s.poweringUp then s else s.each ([0, 1].filter fun i => (s.bank i).held) fun s i => s.readSpan i 0 (4 * (s.bank i).words)
  s.each ([0, 1].filter s.fromMram) fun s i => s.readWords 7 (s.mramErrors i)

/-- A page that the check of IMAGE_CRC reads is under repair: the check waits for it, and judges what the repair leaves (R343; DEDUCED, log 158). -/
def State.bankWaits (s : State) : Bool :=
  [0, 1].any fun i => (!s.poweringUp && (s.bank i).held && s.spanLocked i 0 (4 * (s.bank i).words)) || (s.fromMram i && s.mramWaits i)

/-- A bank at step 7 (R395, R401): at a power-up its SRAM copy comes from MRAM; at a commanded restart only one that fails its CRC does. With
the MRAM copy bad as well it becomes empty. -/
def State.restoreBank (s : State) (i : Nat) : State :=
  let k := s.bank i
  if !s.fromMram i then s
  else if s.mram.bankVoid.get false i then (s.setBank i {}).raise .bankRestoreFailed (mkWord [(0, 0, i)])
  else s.setBank i { k with poison := [], partnerVerified := false }

/-- Item `k` of a symbol as a retained image holds it: by area and offset, whatever image wrote it (DESIGN CHOICE, log 100). -/
def Retained.item (r : Retained) (y : Symbol) (k : Nat) : Option (Word × Bool) :=
  let i := y.start + k
  (r.words.find? fun w => w.area == y.area && w.offset == (if y.isBit then i / 32 else i)).map fun w =>
    (if y.isBit then BitVec.ofNat 32 (b2n (bit w.value (i % 32))) else w.value, w.poisoned)

/-- The declared variables at step 7 (R104, R351): retained ones from the retained image at a warm start, every other one at its initial value. -/
def State.initVar (r : Option Retained) (s : State) (y : Symbol) : State :=
  if !y.variable then s
  else s.each (List.range y.count) fun s k =>
    let first := (y.initial.getD k 0, false)
    s.putItem y k (if y.retained then ((r.bind fun r => r.item y k).getD first) else first)

/-- Timers and counters at step 7 (R104, R124, R126), with their marks (R132): with a retained image every counter is as it says, else at its initial value.
Until the first freeze a resumed timer reads with the elapsed time it has from there (R125). -/
def State.initUnits (s : State) (r : Option Retained) : State :=
  let d := s.image
  let t := (r.map (·.timers)).getD []
  { s with
    square := { s.square with freezeAt := 0 }
    timers := t.foldl (fun (q : Tab Timer) (e : Nat × List (Word × Bool)) => q.set {} e.1 (Timer.ofWords e.2 0)) []
    counters := match r with
      | some r => r.counters.foldl (fun (q : Tab Counter) (e : Nat × (Word × Bool) × (Word × Bool)) => q.set {} e.1 (counterOf e.2.1 e.2.2)) []
      | none => (d.unitsOf .C).foldl (fun (q : Tab Counter) n => q.set {} n (d.counterStart n)) [] }

/-- The bytes of D that hold no declared variable, in one copy (R109). -/
def ImageDesc.scratch (d : ImageDesc) : List (Nat × Nat) :=
  let base := 4096 + d.mBytes
  ((d.symbols.flatMap Symbol.words).filter (·.1 == .D)).foldl (fun l (w : Area × Nat) => cutRange l (base + 4 * w.2) (base + 4 * w.2 + 4)) [(base, kib 2048)]

/-- The bytes of the Town Square that hold no declared word: the scratch of D in both copies, and what the constants of a bank leave of its K (R77,
R109, R352). -/
def State.undeclared (s : State) : List (Nat × Nat) :=
  let d := s.image.scratch
  d ++ (d.map fun (r : Nat × Nat) => (r.1 + sqCommitted, r.2 + sqCommitted)) ++ [0, 1].map fun i =>
    (sqK + i * kib 256 + (if (s.bank i).held then 4 * (s.bank i).desc.consts.length else 0), sqK + (i + 1) * kib 256)

/-- The parts of the Town Square that step 7 writes at a warm start, as first byte and number (R104, R351): both copies of the declared space and of the
halves of N and L that the program writes, timers, counters, edge memory and constants. -/
def State.declared (s : State) : List (Nat × Nat) :=
  let l := s.undeclared.foldl (fun (l : List (Nat × Nat)) r => cutRange l r.1 r.2) [(0, sqI), (sqNOut, sqLOut), (sqLSet, sqZ), (sqK, sqS)]
  l.map fun r => (r.1, r.2 - r.1)

/-- The frozen pages, which no start writes: they hold what stands there until the first freeze (R104, R352). -/
def frozenPages : List (Nat × Nat) := [(sqI, sqNOut), (sqLOut, sqLSet), (sqS, sqEnd)]

/-- The runs of bytes that step 7 writes, with their arrays: banks from MRAM at a power-up (R395), the memory test of a cold start (R396), the declared
words. -/
def State.startSpans (s : State) (cold : Bool) : List (Nat × Nat × Nat) :=
  ([0, 1].filter fun i => (s.bank i).held && s.poweringUp).map (fun i => (i, 0, 4 * (s.bank i).words)) ++
    (if cold then [(2, 0, sqEnd), (3, 0, kib 256), (4, 0, kib 32), (5, 0, kib 32)] else s.declared.map fun r => (2, r))

/-- The Town Square at step 7: declared words from the image and the retained image; a word that nothing declares, and a frozen page, keeps what stands
there, and after the test of a cold start it is free (R104, R351, R352, R396; log 31). -/
def State.initSquare (s : State) (cold : Bool) : State :=
  let r := if cold then none else s.newestRetained
  let free := s.undeclared ++ frozenPages
  let q := s.square.only free
  let s := { s with square := if cold then { q with mem := [], poison := [], scratch := free, seals := q.seals + 1 } else q }
  let s := s.each [0, 1] fun s i => if (s.bank i).held then s.putConsts i (s.bank i).desc.consts else s
  let s := s.image.symbols.foldl (State.initVar r) s
  s.initUnits r

/-- Both retained copies are void at a warm start (R347). -/
def State.retainedLost (s : State) : Bool :=
  (List.range 2).any (fun i => (s.mram.retained.get none i).isSome) && s.newestRetained.isNone

/-- The cycle as its first freeze finds it: numbering (R79), mode (R104) and the first cycle's kind (R101, R110). -/
def State.initCycle (s : State) (cold : Bool) : State :=
  let s := s.showStored
  { s with square := { s.square with
    last := s.storedCycle, current := if s.mram.fresh then 1 else cyclePlus s.mram.cycle 65536, prog := s.storedProg
    nextFirst := { cold := cold, warm := !cold }, retainAt := s.now, commits := 0 } }

/-- The memory test of a cold start (R396): every word of arrays 2 to 5 is written and read back. A word fails where a hard fault stands, which the row
names or which no access has met so far. -/
def State.memoryTest (s : State) (cold : Bool) (hard : List (Fin 8 × Nat)) : State :=
  if !cold then s
  else
    let tested := fun (a : Nat) => decide (2 ≤ a ∧ a ≤ 5)
    let met := s.upsets.filter fun u => tested u.array && u.hard && u.byte < 512
    let bad := (hard.filter fun e => tested e.1.val).map (fun e => (e.1.val, wordOf e.2)) ++ met.map fun u => (u.array, wordOf u.addr)
    let s := s.each bad.dedup fun s (e : Nat × Nat) => s.remapWord e.1 e.2
    { s with upsets := s.upsets.filter fun u => !met.contains u || !s.spared u }

/-- Step 7 writes the words of both message RAMs (R351). -/
def State.canRamWritten (s : State) : State := s.each [0, 1] fun s p => s.modCan p fun c => { c with ramPoison := [] }

/-- Entry to full service (R393 steps 7 and 8). -/
def State.enterFullService (s : State) (calFailed : List (Fin 32)) (hard : List (Fin 8 × Nat)) : State :=
  let cold := s.mram.lastStart.toNat % 2 == 1
  let s := s.each (s.startSpans cold) fun s r => s.overwrite r.1 r.2.1 r.2.2
  let s := s.each [0, 1] State.restoreBank
  let s := s.memoryTest cold hard
  let s := if !cold && s.retainedLost then s.raise .retainedCopyVoid 2 else s
  let s := (((s.initSquare cold).initCycle cold).forceCopies.keepUnits).loopFullService.canFullService.canRamWritten
  let ms := BitVec.ofNat 16 (satNat 16 ((s.now - s.power.startFrom) / 1000000))
  let s := { s with service := .full, mram := { s.mram with startMs := ms, fresh := false } }
  let s := s.raise .fullService (ms.zeroExtend 32)
  let s := s.each (List.range 32) fun s n => s.ucCalibrate n (calFailed.any fun f => f.val == n)
  s.followActive.judgeDomains

/-- Every row since 100 ms or longer has told a supply that full service may begin with (R394). -/
def State.supplyHeld (s : State) : Bool := s.power.okFrom.any fun t => decide (t + 100000000 ≤ s.now)

/-- FULL_SERVICE (R394): the supply for 100 ms, the store, SUP and a valid Fire Lane configuration (R288) are needed; the row tells the supply as it is. Where
step 7 would read a bank or write on a page under repair it waits for that (R340, R343). -/
def execFullService (supplyMv storeMv : Nat) (calFailed : List (Fin 32)) (hardFaults : List (Fin 8 × Nat)) (s : State) : Out :=
  if s.service != .sideStreet then .next s
  else
    let s := { s with power := s.power.told s.now (decide (s.serviceMv ≤ supplyMv)) }
    if s.power.warning.isSome || !s.supAnswers || !s.mram.fireValid || !s.supplyHeld || storeMv < 44000 then .next s
    else
      let s := { s with power := { s.power with store := some (s.now, storeMv) } }.bankReads
      if s.bankWaits then .next s
      else match s.spansWait (s.startSpans (s.mram.lastStart.toNat % 2 == 1)) with
      | some t => .next t
      | none => .next (s.enterFullService calFailed hardFaults)

/-! ## The end of a hold-up (R404 to R407) -/

/-- Steps 1 to 6 of R404 are done. -/
def State.holdupDone (s : State) : Bool :=
  s.square.finalDone && s.plate.step == .idle && (s.panel.state == .off || s.panel.state == .supplyFault) && s.raisedAll.isEmpty && s.recQueue.isEmpty

/-- The module halts (R407): the claim falls, a simplex module's outputs go to their safe states, and every island outside PD0 stops. -/
def State.halt (s : State) : State :=
  let s := { s with service := .halted }
  let s := if s.pairMode then s.dropClaim else (s.each (List.range 32) State.doApply).each s.ucOutputs State.ucApply
  s.each ((List.range 12).drop 1) State.powerOff

/-- The supply of a restart with PD0 powered: the charger runs again (R422). Where the feeds as last measured are both low, the ORed supply that has come
back stands on one of them or on both, which is free (R392, R406). -/
def Power.again (p : Power) (now mv : Nat) : Power :=
  let p := { p with supOk := false, warning := none, restart := none, lowHoldDone := false, charging := true, converter := false
                    validAt := now, startFrom := now, okFrom := some now }
  if p.lp1Ok || p.lp2Ok then p
  else match Config.feedsValid now with
  | 0 => p.feed 0 mv
  | 1 => p.feed 1 mv
  | 2 => (p.feed 0 mv).feed 1 mv

/-- A restart from step 2 of R393 with PD0 still powered (R406). Module time that was LOCKED is in FREE_RUN then, and says so (R390). -/
def State.restartPowered (s : State) (mv : Nat) : State :=
  let old := (if s.ring.time == .locked then s.raise .ptpLost 0 else s).dropClaim
  let s := { old.poweredOf with
    service := .sideStreet, pair := old.pair.kept, raised := old.raisedAll, recQueue := old.recQueue, ucs := old.ucs.map fun (e : Nat × Uc) => (e.1, e.2.kept)
    power := old.power.again old.now mv }
  s.checkMram.enterSideStreet (startKind false s.powerOnCold)

/-- HOLD_UP_COMPLETE (R404 step 7, R406, R407): the flag is set, and the module halts, or starts again if the supply has come back. -/
def execHoldUpComplete (supplyMv : Nat) (s : State) : Out :=
  match s.power.warning with
  | none => .next s
  | some t =>
    if !s.working || !s.holdupDone then .next s
    else
      let ms := BitVec.ofNat 16 (satNat 16 ((s.now - t) / 1000000))
      let s := { s with mram := { s.mram with holdupComplete := true, holdupMs := ms, time := s.now } }
      let s := s.raiseFrom 18 .holdUpComplete (ms.zeroExtend 32)
      .next (if s.serviceMv ≤ supplyMv then s.restartPowered supplyMv else s.halt)

/-- What a loss of the supply cuts short (R408): the record that KEEP writes (R361), the older retained copy (R103) and the older copies of totals
(R326). Which of them it meets is free (log 20). -/
def State.cutStores (s : State) : State :=
  let n := s.freeCount
  let s := s.draw.cutRecord (Config.storeCut n 0)
  let s := if s.working && s.square.committedOnce && Config.storeCut n 1 != 0 then s.voidRetained s.olderRetained else s
  s.each ((List.range 64).filter fun t => s.working && Config.storeCut n (2 + t) != 0) fun s t => s.voidCopy (s.olderCopy t)

/-- LOGIC_SUPPLY_LOST (R407): the claim falls, the couplers lose their drive, and everything outside MRAM and the field side is gone. A held latch
with group supply goes on holding (R229). -/
def execLogicSupplyLost (s : State) : Out :=
  if s.service == .off then .next s
  else
    let old := s.cutStores.dropClaim
    .next (old.fieldOf false { pending := old.pending, now := old.now, freeCount := old.freeCount, mram := old.mram, fire := { cutIn := old.fire.cutIn }
                               upsets := old.upsets.filter (·.array == 7), square := { seals := old.square.seals }
                               power := { vbus := old.power.vbus }, ring := { provisional := old.ring.provisional }, pair := { old.pair.kept with state := .solo } })

end Sys2Proof.Machine
end

