-- ==== Sys2Proof/Machine/Read.lean ====
section
/-! DEFINITION. Reading object words (R59): what every read-only word of the object dictionary shows, and READ_OBJECT, IDENTIFY, GET_STATUS and
POWER_STATUS. A word with writable fields only reads the configuration in force. -/

namespace Sys2Proof.Machine

open Sys2Proof

/-- Seconds from a time to now, or from now to a time, as a field of 16 bits. -/
def State.since (s : State) (t : Nat) : Nat := satNat 16 ((s.now - t) / 1000000000)
def State.left (s : State) (t : Nat) : Nat := satNat 16 ((t - s.now + 999999999) / 1000000000)

/-- Half of a value of 64 bits: the upper word for an even place. -/
def halfOf (x : BitVec 64) (upper : Bool) : Word := BitVec.ofNat 32 (if upper then x.toNat / 2 ^ 32 else x.toNat)
def halfInt (x : Int) (upper : Bool) : Word := halfOf (BitVec.ofInt 64 x) upper

/-! ## Chapters 01 and 02 -/

/-- Object 0000h (R60). -/
def State.identityWord (s : State) (k : Nat) : Word :=
  let m := s.mram
  match k with
  | 0 => halfOf m.serial true
  | 1 => halfOf m.serial false
  | 2 => mkWord [(31, 16, 0x0CB8), (15, 8, m.variant.toNat), (7, 0, 3)]
  | 3 => mkWord [(31, 24, 4), (23, 16, (Config.fwMinor m.fwRunning).toNat), (15, 0, (Config.fwBuild m.fwRunning).toNat)]
  | _ => mkWord [(15, 15, b2n m.addressed), (9, 0, m.address.toNat)]

/-- The plane of an island (R18). -/
def islandPlane (n : Nat) : Nat := if n ≤ 6 then 0 else if n ≤ 9 then 1 else if n ≤ 15 then 2 else if n ≤ 18 then 3 else 4

/-- STATE of an island (R20). A logic engine that has no block to run until the next freeze sleeps (R23). -/
def State.islandCode (s : State) (n : Nat) : Nat :=
  match (s.island n).state with
  | .off => 0
  | .starting => 1
  | .run => if n < 4 && !(s.square.phase == .execute && (s.engine n).running) then 3 else 2
  | .sleep => 3
  | .restarting => 4
  | .faulted => 5

/-- Object 0020h (R20). -/
def State.islandWord (s : State) (n : Nat) : Word :=
  let x := s.island n
  mkWord [(31, 27, n), (26, 24, islandPlane n), (23, 20, islandDomain n), (19, 17, s.islandCode n), (16, 16, b2n (s.clockLocal n)), (15, 15, b2n x.pll),
    (11, 8, min 15 (s.restarts60 n)), (7, 0, x.stalls.toNat)]

/-- Object 0030h (R30). -/
def State.auditWord (s : State) (k : Nat) : Word :=
  if k = 0 then s.rounds else mkWord [(31, 16, s.mismatches.toNat), (15, 0, s.windowMismatches.toNat)]

/-- Object 0040h, sub-indices 1 to 3 (R61). -/
def State.windowWord (s : State) (k : Nat) : Word :=
  let x := s.sup.counters
  match k with
  | 1 => mkWord [(31, 24, s.sup.windows.length), (23, 0, x.busy.toNat)]
  | 2 => x.authFails
  | _ => mkWord [(31, 16, x.formatDrops.toNat), (15, 0, x.replays.toNat)]

/-- STATE of a power domain (R24). -/
def DomainState.code : DomainState → Nat
  | .off => 0
  | .on => 1
  | .transition => 2
  | .fault => 3

/-- The most that each domain draws, in mW (R421). -/
def domainMaxMw : List Nat := [1300, 1600, 400, 400, 400, 2000, 2500, 1400, 3200, 1000, 2000, 600]

/-- The most that the conversion and the store charger draw, in mW (R421). -/
def lossMaxMw : Nat := 5200

/-- The share of domain d, in mW: a domain that is off draws nothing (R421). -/
def State.domainMw (s : State) (d : Nat) : Nat :=
  if (s.domain d).state == .off then 0 else min (domainMaxMw.getD d 0) (Config.powerMw d s.now).toNat

/-- LOGIC_MW: the shares of the domains and the losses, at most 12 W in Side-Street mode (R420, R421; log 13). -/
def State.logicMw (s : State) : Nat :=
  let mw := ((List.range 12).map s.domainMw).sum + min lossMaxMw (Config.lossMw s.now).toNat
  if s.service == .sideStreet then min 12000 mw else mw

/-- Object 0D00h (R24, R421). -/
def State.domainWord (s : State) (d : Nat) : Word :=
  let x := s.domain d
  mkWord [(31, 28, d), (27, 26, x.state.code), (25, 25, b2n (gateable d)), (24, 24, b2n (x.holdOn || !gateable d)), (15, 0, s.domainMw d)]

/-! ## Chapters 03 and 04 -/

/-- PROG_STATE (object 0100h) and STATE of a bank (object 0103h). -/
def ProgState.code : ProgState → Nat
  | .none_ => 0
  | .stop => 1
  | .run => 2
def BankState.code : BankState → Nat
  | .empty => 0
  | .loading => 1
  | .verified => 2
  | .running => 3

/-- Object 0100h. -/
def State.cycleWord (s : State) (k : Nat) : Word :=
  let q := s.square
  match k with
  | 0 => s.shownCycle
  | 1 => mkWord [(31, 30, q.shownProg.code), (29, 29, b2n q.shownBank), (28, 28, b2n (q.shownForced != 0)), (15, 0, q.ownershipFaults.toNat)]
  | 2 => q.fingerprint
  | 3 => mkWord [(31, 16, q.freezeUs), (15, 0, q.executeUs)]
  | 4 => mkWord [(31, 16, q.commitUs), (15, 0, q.applyUs)]
  | _ => mkWord [(31, 16, q.abandoned.toNat), (15, 0, q.overruns.toNat)]

/-- Object 0103h. -/
def State.bankWord (s : State) (k : Nat) : Word :=
  let x := s.bank (k % 2)
  if k < 2 then mkWord [(31, 30, x.state.code), (29, 29, b2n (s.pairMode && x.partnerVerified)), (18, 0, x.words)] else x.crc

/-- Object 0110h (R136). -/
def State.engineWord (s : State) (k : Nat) : Word :=
  let x := s.engine (k / 4)
  let own := s.image.blocks.filter fun b => b.engine.val == k / 4
  match k % 4 with
  | 0 => x.rsInstructions
  | 1 => x.rsClocks
  | 2 => mkWord [(31, 21, (own.filter fun b => b.event.isNone).length), (20, 14, (own.filter fun b => b.event.isSome).length)]
  | _ => mkWord [(31, 16, x.poisonConsumed.toNat), (15, 8, x.divZero.toNat), (7, 0, x.programFaults.toNat)]

/-! ## Chapter 05 -/

/-- Objects 0204h to 020Bh (R149): `k` is the word group, two indices each. -/
def State.sourceWord (s : State) (k n : Nat) : Word :=
  let x := s.source n
  match k with
  | 0 => mkWord [(31, 31, b2n x.p), (30, 30, b2n x.active)]
  | 1 => x.fc
  | 2 => x.sv
  | _ => x.co

/-- Object 0211h (R149). -/
def State.groupWord (s : State) (k : Nat) : Word :=
  let x := s.group (k / 2)
  if k % 2 = 1 then x.deliveries
  else mkWord [(25, 16, x.count), (15, 0, match x.ageFrom with | some t => satNat 16 ((s.now - t) / 10000) | none => 0)]

/-- Object 0212h (R149). -/
def State.subscriberWord (s : State) (k : Nat) : Word :=
  let x := s.slot (k / 2)
  if !x.inUse then 0
  else if k % 2 = 0 then mkWord [(31, 16, x.origin.toNat), (15, 15, 1), (14, 14, b2n x.auth), (13, 11, x.keyslot.toNat)]
  else mkWord [(31, 16, s.left x.leaseEnd), (15, 0, x.dropped.toNat)]

/-! ## Chapter 06 -/

/-- Words 96 to 159 of a context (R177): the staged set. -/
def Loop.stagedWord (x : Loop) (k : Nat) : Word := (x.staged.getD (k / 8) []).getD (k % 8) 0

/-- Words 160 to 191 of a context (R177): the history of a section. -/
def Loop.histWord (x : Loop) (k : Nat) : Word :=
  let h := x.hist.get {} (k / 4)
  ofI (match k % 4 with | 0 => h.x1 | 1 => h.x2 | 2 => h.y1 | _ => h.y2)

/-- Object 0300h + n, the words that configuration writes do not reach (R177), with their marks in loop context RAM. -/
def State.loopWord (s : State) (n k : Nat) : Word × Bool :=
  let x := s.loopCtx n
  let mark := s.loop.ramPoison.get false (n * 256 + k)
  if k < 96 then (s.mram.coeffs.get 0 (n * 256 + k), mark)
  else if k < 160 then (x.stagedWord (k - 96), mark)
  else if k < 192 then (x.histWord (k - 160), mark)
  else
    (match k with
    | 192 => x.status n
    | 193 => x.sample
    | 194 => ofI x.pv
    | 195 => ofI x.sp
    | 196 => ofI x.out
    | _ => mkWord [(31, 16, x.late.toNat), (15, 0, x.missed.toNat)], false)

/-! ## Chapters 07 and 08 -/

/-- The live readings that no command carries, by `Config.liveReading`. -/
def State.reading (s : State) (what n : Nat) : Nat := (Config.liveReading what n s.now).toNat

/-- The store voltage that no row tells. -/
def State.storeFree (s : State) : Nat := if s.service == .full then max 44000 (s.reading 7 0) else s.reading 7 0

/-- Object 0400h + n, sub-indices 8 to 27 (R187). RESCAN reads 0. -/
def State.ucWord (s : State) (n k : Nat) : Word :=
  let x := s.uc n
  let dev := x.devices.get {} ((k - 16) / 2)
  match k with
  | 8 => setBit (s.cfg (0x400 + n) 8) 22 false
  | 9 => s.ucStatus n s.now
  | 10 => mkWord [(31, 16, x.transactions.toNat), (15, 0, x.noResponse.toNat)]
  | 11 => mkWord [(31, 16, satNat 16 (x.store.getD (s.reading 0 n))), (15, 0, satNat 16 (x.load.getD (s.reading 1 n)))]
  | 12 => mkWord [(31, 16, if ucOutput (ucMode (s.ucCfg n)) then satNat 16 x.headroom else 0)]
  | 13 => (x.cjTemp.map ofI).getD (Config.undefinedCj n)
  | _ =>
    if k % 2 = 1 then dev.longLo
    else mkWord [(31, 31, b2n dev.present), (30, 30, b2n dev.burst.isSome), (27, 24, dev.poll.toNat), (7, 0, dev.longHi.toNat)]

/-- Object 0420h + n, sub-indices 2 to 33 (R232, R236). -/
def State.diWord (s : State) (n k : Nat) : Word :=
  let x := s.di n
  let g := s.diGroup (n / 8)
  match k with
  | 2 => s.diStatus n s.now
  | 3 => halfOf (BitVec.ofNat 64 x.lastEdge) true
  | 4 => halfOf (BitVec.ofNat 64 x.lastEdge) false
  | 5 => x.edgeCount
  | 6 => x.raw
  | 7 => mkWord [(31, 16, s.reading 2 n)]
  | 32 => g.word (satNat 16 (g.lplus.getD (s.reading 3 (n / 8))))
  | _ => mkWord [(15, 0, g.lostEvents.toNat)]

/-- Object 0460h + n, sub-indices 0 to 33 (R234, R236). -/
def State.doWord (s : State) (n k : Nat) : Word :=
  let x := s.do_ n
  let g := s.doGroup (n / 8)
  match k with
  | 0 => setBit (s.doCfg n) 24 (s.outSlotOf 1 n).isSome
  | 1 => s.doStatus n
  | 2 => mkWord [(31, 16, x.overloads.toNat), (15, 0, x.shorts.toNat)]
  | 32 => g.word (satNat 16 (g.lplus.getD (s.reading 4 (n / 8))))
  | _ => mkWord [(31, 16, s.doGroupCurrent (n / 8)), (15, 0, g.lostEvents.toNat)]

/-! ## Chapters 09 to 12 -/

/-- Object 0500h + p, sub-indices 0 and 4 to 14 (R240). -/
def State.canObj (s : State) (p k : Nat) : Word :=
  let x := s.can p
  match k with
  | 0 => setBit (s.canWord p 0) 31 (s.canEnabled p)
  | 4 => x.status
  | 5 => x.rxFrames
  | 6 => x.rxStored
  | 7 => x.rxFiltered
  | 8 => x.lost
  | 9 => x.txFrames
  | 10 => x.txAbandoned
  | 11 => x.confirmed
  | 12 => x.missed
  | 13 => mkWord [(31, 16, x.refFailed.toNat), (15, 0, x.busOffs.toNat)]
  | _ => x.lateFrames

/-- Object 0601h (R319). -/
def State.pairWord (s : State) (k : Nat) : Word :=
  let x := s.pair
  match k with
  | 0 => mkWord [(31, 24, x.state.code), (23, 23, b2n s.mram.sideB), (22, 22, b2n x.cable), (21, 21, b2n x.lane0), (20, 20, b2n x.lane1),
      (19, 19, b2n x.claimOwn), (18, 18, b2n x.claimPartner), (17, 17, b2n x.cwHbOk), (16, 16, b2n x.ringHbOk), (9, 0, x.partner.toNat)]
  | 1 => s.mram.epoch
  | 2 => x.divergences
  | 3 => x.lastDivergent
  | 4 => BitVec.ofNat 32 (if s.pairMode then s.ledgerBytes s.image else 0)
  | 5 => x.lastLedger
  | 6 => mkWord [(31, 16, x.takeovers.toNat), (15, 0, x.ledgersLate.toNat)]
  | 7 => mkWord [(31, 16, x.divRun.toNat), (15, 0, x.rehearseFaults.toNat)]
  | _ => BitVec.ofNat 32 (satNat 32 ((s.now - s.mram.rehearsalAt) / 3600000000000))

/-- Object 0700h + t, sub-indices 3 to 15 (R337). -/
def State.totWord (s : State) (t k : Nat) : Word :=
  let x := s.total t
  match k with
  | 3 => halfInt x.value true
  | 4 => halfInt x.value false
  | 5 => x.epoch
  | 6 => halfInt x.lastClosed true
  | 7 => halfInt x.lastClosed false
  | 8 => mkWord [(31, 31, b2n x.uncertain), (30, 30, b2n x.saturated), (29, 29, b2n x.gap), (28, 28, b2n x.settled), (15, 0, x.gapS.toNat)]
  | 9 => halfInt x.uncLo true
  | 10 => halfInt x.uncLo false
  | 11 => halfInt x.uncHi true
  | 12 => halfInt x.uncHi false
  | 13 => halfInt x.refused true
  | 14 => halfInt x.refused false
  | _ => x.offset

/-- Object 0800h, slot `i` (R291): the words in force and the status word; an unused slot shows no status (log 33). -/
def State.fireInWord (s : State) (i w : Nat) : Word :=
  if w < 3 then s.inWord i w
  else if s.inKind i = 0 then mkWord [(15, 0, 0xFFFF)]
  else
    let x := s.fireSlot i
    let age := match x.lastAt with | some t => satNat 16 ((s.now - t) / 1000000) | none => 0xFFFF
    mkWord [(31, 31, b2n (s.inCounted i)), (30, 30, b2n x.condition), (29, 29, b2n (s.inUnassured i)), (28, 24, s.inReason i), (15, 0, age)]

/-- Object 0801h, function `f` (R291). -/
def State.fireFnWord (s : State) (f w : Nat) : Word :=
  if w < 3 then s.fnWord f w
  else
    let x := s.fireFn f
    mkWord [(31, 31, b2n x.tripped), (30, 30, b2n x.latched), (29, 29, b2n x.done), (28, 28, b2n x.resetPending), (27, 24, s.votes f),
      (15, 0, x.trips.toNat)]

/-- Seconds of an open arm (R289), rounded up (log 33). -/
def State.armLeft (s : State) : Nat := match s.fire.arm with | some a => s.left (a.at_ + 60000000000) | none => 0

/-- Object 0803h (R291). -/
def State.fireStatusWord (s : State) (k : Nat) : Word :=
  match k with
  | 0 => s.configCrc
  | 1 => s.stagedCrc
  | 2 => mkWord [(31, 31, b2n s.fire.arm.isSome), (30, 30, b2n s.mram.fireValid), (29, 29, b2n s.fire.cutOut), (28, 28, b2n s.lineCut),
      (15, 0, s.armLeft)]
  | _ => s.fire.badFrames

/-! ## Chapters 13 to 18 -/

/-- Sizes of the protected arrays in KiB (R338). -/
def arraySizes : List Nat := [1024, 1024, 6144, 256, 32, 32, 4096, 8192]

/-- Object 0900h + a, sub-indices 1 to 6 (R353). -/
def State.arrayWord (s : State) (a k : Nat) : Word :=
  let x := s.arr a
  match k with
  | 1 => mkWord [(31, 24, x.bucket), (23, 16, (s.mram.remap.get [] a).length), (15, 0, if x.sealed_ then s.since x.scrubFrom else 0)]
  | 2 => x.corrected
  | 3 => x.poisoned
  | 4 => x.repaired
  | 5 => x.unrepairable
  | _ => BitVec.ofNat 32 (arraySizes.getD a 0)

/-- Object 0A01h (R365). -/
def State.recorderWord (s : State) (k : Nat) : Word :=
  let x := s.sevCount ((k - 8) / 4)
  match k with
  | 0 => s.mram.newest
  | 1 => s.oldest
  | 2 => BitVec.ofNat 32 s.mram.records.length
  | 3 => BitVec.ofNat 32 s.recQueue.length
  | _ => match k % 4 with
    | 0 => x.written
    | 1 => x.merged
    | 2 => x.lost
    | _ => x.overwritten

/-- STATE of the panel and of the plate. -/
def PanelState.code : PanelState → Nat
  | .off => 0
  | .poweringUp => 1
  | .on => 2
  | .poweringDown => 3
  | .supplyFault => 4
def Plate.code (q : Plate) : Nat := if q.step == .idle then 0 else if q.refresh then 2 else 1

/-- Two live readings in one word. -/
def State.readings2 (s : State) (a b : Option (BitVec 16)) (what : Nat) : Word :=
  mkWord [(31, 16, (a.map (·.toNat)).getD (s.reading what 0)), (15, 0, (b.map (·.toNat)).getD (s.reading what 1))]

/-- Object 0B01h. -/
def State.panelWord (s : State) (k : Nat) : Word :=
  let x := s.panel
  match k with
  | 0 => mkWord [(31, 29, x.state.code), (28, 28, b2n x.onPending), (27, 27, b2n x.corrupt), (26, 25, x.band)]
  | 1 => x.shownCrc
  | 2 => x.lastShow
  | _ => s.readings2 x.vcol x.vrow 5

/-- Object 0B09h. -/
def State.plateWord (s : State) (k : Nat) : Word :=
  let x := s.plate
  let seg := s.mram.shown.toNat
  match k with
  | 0 => mkWord [(31, 29, x.code), (28, 28, b2n s.mram.plateTorn), (27, 27, b2n x.pending), (26, 24, x.band), (14, 0, seg / 2 ^ 32)]
  | 1 => BitVec.ofNat 32 seg
  | 2 => x.updates
  | _ => s.readings2 x.vp x.vn 6

/-- Object 0C01h, port `p` (R391). -/
def State.portWord (s : State) (p w : Nat) : Word :=
  let x := s.ringPort p
  match w with
  | 0 => mkWord [(31, 31, b2n x.link), (30, 30, b2n x.gigabit), (29, 29, b2n x.degraded), (15, 0, x.nodes.length)]
  | 1 => x.rxFrames
  | 2 => x.duplicates
  | _ => x.badStation

/-- Object 0C02h (R391). -/
def State.addressWord (s : State) : Word :=
  mkWord [(31, 31, b2n s.mram.candidateValid), (30, 30, b2n s.ring.provisional.isSome), (29, 29, b2n s.ring.duplicateAt.isSome),
    (9, 0, s.mram.candidate.toNat)]

/-- STATE of module time (R390). -/
def TimeState.code : TimeState → Nat
  | .freeRun => 0
  | .acquiring => 1
  | .locked => 2
  | .holdover => 3

/-- Object 0C03h (R391). -/
def State.timeWord (s : State) (k : Nat) : Word :=
  let x := s.ring
  match k with
  | 0 => mkWord [(31, 30, x.time.code), (29, 29, b2n (x.time != .locked)), (28, 28, b2n x.ptpPort)]
  | 1 => ofI (sat32 x.offsetNs)
  | _ => ofI (sat32 x.pathDelay)

/-- Object 0D10h, sub-indices 1 and 2 (R409). -/
def State.startWord (s : State) (k : Nat) : Word :=
  let m := s.mram
  if k = 1 then mkWord [(31, 30, m.lastStart.toNat), (29, 29, b2n m.holdupComplete), (28, 28, b2n s.power.lp1Ok), (27, 27, b2n s.power.lp2Ok),
    (26, 26, b2n (s.service == .sideStreet)), (15, 0, m.startMs.toNat)]
  else mkWord [(31, 16, m.holdupMs.toNat), (15, 0, m.warnings.toNat)]

/-- Object 0D20h, sub-index 1 (R425). -/
def State.thermalWord (s : State) : Word :=
  mkWord [(31, 31, b2n s.power.warnSet), (30, 30, b2n s.power.critSet), (15, 0, sat16 s.mram.peak)]

/-! ## The dictionary -/

/-- A status word outside the objects that stand once for every channel, port, context or total. -/
def State.statusObj (s : State) (i k : Nat) : Word :=
  match i with
  | 0x000 => s.identityWord k
  | 0x020 => s.islandWord k
  | 0x030 => s.auditWord k
  | 0x040 => s.windowWord k
  | 0x100 => s.cycleWord k
  | 0x102 => ((s.newestRetained.map (·.cycle)).getD 0)
  | 0x103 => s.bankWord k
  | 0x104 => BitVec.ofNat 32 s.square.shownForced
  | 0x110 => s.engineWord k
  | 0x211 => s.groupWord k
  | 0x212 => s.subscriberWord k
  | 0x213 => s.round.blockMisses
  | 0x601 => s.pairWord k
  | 0x800 => s.fireInWord (k / 4) (k % 4)
  | 0x801 => s.fireFnWord (k / 4) (k % 4)
  | 0x802 => s.outWord (k / 2) (k % 2)
  | 0x803 => s.fireStatusWord k
  | 0xA01 => s.recorderWord k
  | 0xB01 => s.panelWord k
  | 0xB09 => s.plateWord k
  | 0xC01 => s.portWord (k / 4) (k % 4)
  | 0xC02 => s.addressWord
  | 0xC03 => s.timeWord k
  | 0xD00 => s.domainWord k
  | 0xD10 => s.startWord k
  | _ => s.thermalWord

/-- A word with a field that is not plain configuration: what stands in it, and its mark. -/
def State.liveWord (s : State) (i k : Nat) : Word × Bool :=
  if 0x204 ≤ i && i ≤ 0x20B then (s.sourceWord ((i - 0x204) / 2) (i % 2 * 256 + k), false)
  else if 0x300 ≤ i && i ≤ 0x3FF then s.loopWord (i - 0x300) k
  else if 0x400 ≤ i && i ≤ 0x41F then (s.ucWord (i - 0x400) k, false)
  else if 0x420 ≤ i && i ≤ 0x44F then (s.diWord (i - 0x420) k, false)
  else if 0x460 ≤ i && i ≤ 0x47F then (s.doWord (i - 0x460) k, false)
  else if 0x500 ≤ i && i ≤ 0x501 then (s.canObj (i - 0x500) k, false)
  else if 0x700 ≤ i && i ≤ 0x73F then (s.totWord (i - 0x700) k, false)
  else if 0x900 ≤ i && i ≤ 0x907 then (s.arrayWord (i - 0x900) k, false)
  else (s.statusObj i k, false)

/-- An object word as READ_OBJECT returns it: `none` for a word that no chapter defines. A word of configuration alone reads the value in
force. -/
def State.objWord (s : State) (i k : Nat) : Option (Word × Bool) :=
  (objSpec i k).map fun d =>
    if i == 0xD00 || !d.hasWritable || (d.fields.any fun f => !f.reserved && !f.writable) || (0x400 ≤ i && i ≤ 0x41F && k == 8) then s.liveWord i k
    else (s.cfg i k, false)

/-- A word of a total's state (R337). -/
def totalWord (i k : Nat) : Bool := 0x700 ≤ i && i ≤ 0x73F && 3 ≤ k

/-- A word that a STALE module does not publish (R53): a value of the process or of a total. -/
def processWord (i k : Nat) : Bool :=
  (0x300 ≤ i && i ≤ 0x3FF && 192 ≤ k && k ≤ 196) || (0x400 ≤ i && i ≤ 0x41F && k == 9) || (0x420 ≤ i && i ≤ 0x44F && 2 ≤ k && k ≤ 6) ||
    (0x460 ≤ i && i ≤ 0x47F && k == 1) || totalWord i k

/-- The OBJREFs of a READ_OBJECT: index, sub-index and the byte that must be 0 (R59). -/
def objRefs (b : List Byte) : List (Nat × Nat × Nat) :=
  (List.range (be16 b 0)).map fun j => (be16 b (4 + 4 * j), byteAt b (6 + 4 * j), byteAt b (7 + 4 * j))

/-- The objects that any role may read, as their rules say (R20, R60, R136, R177, R187, R232, R234, R240, R318, R319, R337, R353, R365, R391,
R409 and the captions of chapters 03, 05, 10 and 15). -/
def anyRole (i : Nat) : Bool :=
  [0x000, 0x020, 0x100, 0x103, 0x104, 0x110, 0x211, 0x212, 0x500, 0x501, 0x600, 0x601, 0x803, 0xA00, 0xA01, 0xB01, 0xB09, 0xD10].contains i ||
    [(0x204, 0x20B), (0x300, 0x3FF), (0x400, 0x41F), (0x420, 0x44F), (0x460, 0x47F), (0x700, 0x73F), (0x900, 0x907), (0xC00, 0xC03)].any
      fun (r : Nat × Nat) => r.1 ≤ i && i ≤ r.2

/-- READ_OBJECT (R64): any role lets it in, since it may name objects that any role may read; every other object needs OBSERVE (DEDUCED,
log 92). -/
def readObjectDesc : CmdDesc :=
  { code := 0x0102, roles := [.observe, .operate, .engineer, .maintain], kind := .local_
    fits := fun b => 4 ≤ b.length && 1 ≤ be16 b 0 && be16 b 0 ≤ 64 && b.length == 4 + 4 * be16 b 0 }

/-- The byte address in loop context RAM of an object word that stands there (R343): context by context, its first 192 words (log 84). -/
def loopAddr (i k : Nat) : Option Nat := if 0x300 ≤ i ∧ i ≤ 0x3FF ∧ 32 ≤ k ∧ k < 192 then some (1024 * (i - 0x300) + 4 * k) else none

/-- READ_OBJECT (R64, R59, R56), with the words of loop context RAM that it has been given with a mark (R343). -/
def readObjectFrom (marks : List Nat) (c : Ctx) (b : List Byte) (s : State) : State :=
  let l := objRefs b
  let words := l.map fun (r : Nat × Nat × Nat) => if r.2.2 = 0 then s.objWord r.1 r.2.1 else none
  if !c.roles.getLsbD Role.observe.bit && l.any (fun (r : Nat × Nat × Nat) => !anyRole r.1) then s.refuse c .notAuthorised
  else if words.any (·.isNone) then s.refuse c .badObject
  else if s.pair.state == .stale && l.any (fun (r : Nat × Nat × Nat) => processWord r.1 r.2.1) then s.refuse c .pairStale
  else if s.totalsForeign && l.any (fun (r : Nat × Nat × Nat) => totalWord r.1 r.2.1) then s.refuse c .pairStale
  else
    s.gateRead c b 3 ((l.filterMap fun (r : Nat × Nat × Nat) => loopAddr r.1 r.2.1).dedup) marks fun bad t =>
      let marked := fun (r : Nat × Nat × Nat) => match loopAddr r.1 r.2.1 with | some a => bad.contains a | none => false
      t.replyData c (toBe 2 (be16 b 0) ++ pad 2) ((l.zip words).filterMap fun e => e.2.map fun v => (v.1, v.2 || marked e.1))

def runReadObject : Ctx → List Byte → State → State := readObjectFrom []

def execReadObject (p : Packet) (s : State) : Out := s.command p readObjectDesc runReadObject

/-! ## IDENTIFY, GET_STATUS, POWER_STATUS (R64, R73) -/

def identifyDesc : CmdDesc := { code := opIdentify, roles := [], fits := exact 0, kind := .local_ }

def runIdentify (c : Ctx) (_ : List Byte) (s : State) : State := s.reply c .ok (wordsBe ((List.range 5).map s.identityWord))

def execIdentify (p : Packet) (s : State) : Out := s.command p identifyDesc runIdentify

/-- SERVICE of GET_STATUS. -/
def Service.code : Service → Nat
  | .off => 0
  | .sideStreet => 1
  | .full => 2
  | .outOfService => 3
  | .halted => 3

/-- Islands at fault, bit n for island n. -/
def State.faultedMask (s : State) : Nat := (List.range 20).foldl (fun a n => a + b2n ((s.island n).state == .faulted) * 2 ^ n) 0

def getStatusDesc : CmdDesc := { code := 0x0101, roles := [.observe], fits := exact 0, kind := .local_ }

def runGetStatus (c : Ctx) (_ : List Byte) (s : State) : State :=
  s.reply c .ok (toBe 1 s.service.code ++ toBe 1 s.pair.state.code ++ pad 2 ++ toBe 4 s.shownCycle.toNat ++ toBe 4 s.faultedMask)

def execGetStatus (p : Packet) (s : State) : Out := s.command p getStatusDesc runGetStatus

def powerStatusDesc : CmdDesc := { code := 0x0B00, roles := [.observe], fits := exact 0, kind := .local_ }

/-- STORE_MV: what this instant has measured, else a free reading, at 44 V or more in full service (R394, R422, R423; log 13). -/
def State.storeMv (s : State) : Nat :=
  match s.power.store with
  | some (t, mv) => if t = s.now then satNat 16 mv else s.storeFree
  | none => s.storeFree

def runPowerStatus (c : Ctx) (_ : List Byte) (s : State) : State :=
  s.reply c .ok (toBe 2 (satNat 16 s.power.lp1Mv) ++ toBe 2 (satNat 16 s.power.lp2Mv) ++ toBe 2 s.storeMv ++ pad 2 ++ toBe 4 s.logicMw)

def execPowerStatus (p : Packet) (s : State) : Out := s.command p powerStatusDesc runPowerStatus

end Sys2Proof.Machine
end

