-- ==== Sys2Proof/Machine/Repair.lean ====
section
/-! DEFINITION. The end of a page's repair (R340, R343, R344, R348), and the accesses that waited for it. -/

namespace Sys2Proof.Machine

open Sys2Proof

/-! ## What waited for the page (R343) -/

/-- A read that waited is made again. -/
def State.resumeRead (s : State) (x : Stalled) : State :=
  match x.ctx.opcode.toNat with
  | 0x0300 => readVarsFrom x.marks x.ctx x.body s
  | 0x0102 => readObjectFrom x.marks x.ctx x.body s
  | 0x0800 => recQueryFrom x.marks x.ctx x.body s
  | 0x0405 => loopReadFrom x.marks x.ctx x.body s
  | 0x0501 => channelStatusFrom x.marks x.ctx x.body s
  | 0x0604 => stationStatusFrom x.marks x.ctx x.body s
  | 0x0404 => loopCommitFrom x.marks x.ctx x.body s
  | 0x0D00 => totalReadFrom x.marks x.ctx x.body s
  | 0x0202 => s.resumeLoad x.ctx x.body
  | _ => s.subTake x.marks (byteAt x.body 0)

/-- The reads, the received frames and the samples that waited for a page go on; one that meets another page under repair waits again. -/
def State.resume (s : State) : State :=
  let l := s.sup.stalled
  let s := { s with sup := { s.sup with stalled := [] } }.each l State.resumeRead
  let s := s.each [0, 1] State.storeWaiting
  if s.runs 4 then s.loopRun s.loop.waiting else s

/-! ## The repair -/

/-- Bytes that fail the check after the write-back of the page at `page` of array `a`, and whose word no spare serves, go on failing: they are left to the two
codes, those of `bad` as bytes that their own code cannot correct (R348). No access of this instant meets them. -/
def State.restHard (s : State) (a page : Nat) (bad hard : List Nat) : State :=
  let u := fun (b : Nat) => ({ array := a, page := page, byte := b, multi := bad.contains b, hard := true, rested := some s.now } : Upset)
  { s with upsets := s.upsets ++ (hard.dedup.map u).filter fun x => !s.spared x }

/-- PAGE_REPAIR_COMPLETE (R343, R344, R348): the lock on the first page locked of the array is released. `hard` are the words of the page
that fail the check after the write-back, by their byte offset. The errors that stand in the page count with those the command names, and the
page is written back whole. Bytes that a write has replaced meanwhile hold what it wrote, whether or not the repair succeeds (R343). -/
def execPageRepairComplete (array : Fin 8) (bad : List Nat) (unlocated : Nat) (hard : List Nat) (s : State) : Out :=
  let a := array.val
  match s.locks.find? (·.array == a) with
  | none => .next s
  | some k =>
    let found := s.upsets.filter fun u => u.array == a && u.page == k.page
    let bad := (bad ++ (found.filter (·.multi)).map (·.byte)).dedup
    let hard := hard ++ (found.filter (·.hard)).map (·.byte)
    let s := ({ s with locks := s.locks.erase k }).dropUpsets found
    let v := pageValue a k.page
    let base := k.page * 512
    let spare (s : State) (l : List Nat) : State := s.each l.dedup fun s w => s.remapWord a (base + wordOf w)
    if repairable bad unlocated then
      let s := s.modArr a fun x => { x with repaired := satInc x.repaired }
      .next ((spare (s.raise .memPageRepaired v) (hard.filter (· < 512))).restHard a k.page bad hard).resume
    else
      let data := bad.filter (· < 512)
      let s := s.modArr a fun x => { x with unrepairable := satInc x.unrepairable }
      let s := (s.raise .memRepairFailed v).storePoison a ((data.map (base + ·)).filter fun b => !k.replaced b)
      .next ((spare s ((data.map wordOf) ++ hard.filter (· < 512))).restHard a k.page bad hard).resume

end Sys2Proof.Machine
end

