-- ==== Sys2Proof/Machine/Security.lean ====
section
/-! DEFINITION. Keys and firmware (R44 to R46, R75, R338), and the packets that acceptance turns away (R42). -/

namespace Sys2Proof.Machine

open Sys2Proof

/-! ## Keys (R75) -/

/-- CHECK: the first 4 bytes of the HMAC of 16 zero bytes. -/
def keyCheck (key : List Byte) : List Byte := (hmac key (pad 16)).take 4

/-- The replay memory of a slot is emptied: H is 0 for every origin (R47). -/
def State.clearReplay (s : State) (slot : Nat) : State :=
  { s with
    sup := { s.sup with replay := s.sup.replay.filter fun e => e.1 % 8 != slot
                        bumped := s.sup.bumped &&& ~~~((1 : BitVec 8) <<< slot) }
    mram := { s.mram with hStored := s.mram.hStored.filter fun e => e.1 % 8 != slot } }

def keyInstallDesc : CmdDesc := { code := opKeyInstall, roles := [.maintain], fits := exact 36, kind := .local_ }

/-- KEY_INSTALL (R46, R47, R75). Only bits 3:0 of ROLES name a role (R44). -/
def runKeyInstall (c : Ctx) (b : List Byte) (s : State) : State :=
  let n := byteAt b 0
  if 7 < n then s.refuse c .badObject
  else if 15 < byteAt b 1 then s.refuse c .outOfRange
  else
    let key := b.drop 4
    ((s.setKey n { installed := true, roles := BitVec.ofNat 4 (byteAt b 1), key := key }).clearReplay n).reply c .ok (keyCheck key)

def execKeyInstall (p : Packet) (s : State) : Out := s.command p keyInstallDesc runKeyInstall

def keyRevokeDesc : CmdDesc := { code := 0x0E01, roles := [.maintain], fits := exact 4, kind := .local_ }

/-- KEY_REVOKE (R47, R75): the reply leaves under the slot before it is emptied. -/
def runKeyRevoke (c : Ctx) (b : List Byte) (s : State) : State :=
  let n := byteAt b 0
  if 7 < n then s.refuse c .badObject else ((s.replyNow c).setKey n {}).clearReplay n

def execKeyRevoke (p : Packet) (s : State) : Out := s.command p keyRevokeDesc runKeyRevoke

def keyStatusDesc : CmdDesc := { code := 0x0E02, roles := [.observe], fits := exact 0, kind := .local_ }

/-- An entry of KEY_STATUS; an empty slot has neither roles nor CHECK. -/
def State.keyEntry (s : State) (n : Nat) : List Byte :=
  let k := s.key n
  toBe 1 k.roles.toNat ++ toBe 1 (b2n k.installed) ++ pad 2 ++ if k.installed then keyCheck k.key else pad 4

/-- KEY_STATUS (R75). -/
def runKeyStatus (c : Ctx) (_ : List Byte) (s : State) : State := s.reply c .ok ((List.range 8).flatMap s.keyEntry)

def execKeyStatus (p : Packet) (s : State) : Out := s.command p keyStatusDesc runKeyStatus

/-! ## Firmware (R75, R338) -/

/-- The size of the largest image. -/
def firmwareLimit : Nat := 8 * 1024 * 1024

def fwBeginDesc : CmdDesc := { code := 0x0E03, roles := [.maintain], fits := exact 4, kind := .local_ }

/-- FW_BEGIN: a new load replaces an older one. -/
def runFwBegin (c : Ctx) (b : List Byte) (s : State) : State :=
  if firmwareLimit < be32 b 0 then s.refuse c .outOfRange
  else { s with sup := { s.sup with fwBytes := some (be32 b 0), fwData := [] } }.ok c

def execFwBegin (p : Packet) (s : State) : Out := s.command p fwBeginDesc runFwBegin

/-- Places bytes of an image. -/
def putImage (t : Tab Byte) : Nat → List Byte → Tab Byte
  | _, [] => t
  | a, b :: l => putImage (t.set 0 a b) (a + 1) l

def fwDataDesc : CmdDesc := { code := 0x0E04, roles := [.maintain], cls := 3, fits := fun b => decide (4 ≤ b.length), kind := .local_ }

/-- FW_DATA. -/
def runFwData (c : Ctx) (b : List Byte) (s : State) : State :=
  match s.sup.fwBytes with
  | none => s.refuse c .wrongState
  | some n =>
    if n < be32 b 0 + (b.length - 4) then s.refuse c .outOfRange
    else { s with sup := { s.sup with fwData := putImage s.sup.fwData (be32 b 0) (b.drop 4) } }.ok c

def execFwData (p : Packet) (s : State) : Out := s.command p fwDataDesc runFwData

/-- The image loaded. -/
def Sup.image (x : Sup) (n : Nat) : List Byte := (List.range n).map (x.fwData.get 0)

def fwActivateDesc : CmdDesc := { code := 0x0E05, roles := [.maintain], fits := exact 0, kind := .local_ }

/-- FW_ACTIVATE (R338): an image whose signature holds runs from the next restart. -/
def runFwActivate (c : Ctx) (_ : List Byte) (s : State) : State :=
  match s.sup.fwBytes with
  | none => s.refuse c .wrongState
  | some n =>
    if Config.signatureValid (s.sup.image n) then { s with mram := { s.mram with fwActivated := some (s.sup.image n) } }.ok c
    else s.refuse c .signatureInvalid

def execFwActivate (p : Packet) (s : State) : Out := s.command p fwActivateDesc runFwActivate

/-! ## The opcode catalogue and what is turned away (R42, R62 to R75) -/

/-- Every opcode that takes a request. -/
def catalogue (p : Packet) : List CmdDesc :=
  [identifyDesc, getStatusDesc, readObjectDesc, writeObjectDesc, restartDesc, enumerateDesc, confirmAddressDesc p] ++
  [programBeginDesc, programDataDesc, programEndDesc, programSwitchDesc, runStopDesc, forceSetDesc, forceReleaseDesc, cycleStatsDesc] ++
  [readVarsDesc, writeVarsDesc, subscribeDesc, unsubscribeDesc, setPendingDesc, eventSubscribeDesc] ++
  [loopEnableDesc, loopDisableDesc, loopWriteCoeffDesc, loopStageDesc, loopCommitDesc, loopReadDesc] ++
  [channelModeDesc, channelStatusDesc, outputAckDesc, hartTransactDesc, hartBurstReadDesc] ++
  [canEnableDesc, canRecoverDesc, canSendDesc, canCountersDesc, stationStatusDesc, pairStatusDesc, rehearseDesc, resyncDesc] ++
  [recQueryDesc, recUploadDesc, recCountersDesc, recNoteDesc, panelFrameDesc, panelShowDesc, plateUpdateDesc, panelPowerDesc] ++
  [memStatusDesc, scrubNowDesc, remapReadDesc, powerStatusDesc, thermalStatusDesc] ++
  [fireStatusDesc, fireResetDesc, fireLoadDesc, fireArmDesc, fireConfirmDesc, totalReadDesc, totalCloseDesc] ++
  [keyInstallDesc, keyRevokeDesc, keyStatusDesc, fwBeginDesc, fwDataDesc, fwActivateDesc]

/-- The entry of a packet's opcode. -/
def packetRow (p : Packet) : Option CmdDesc := (catalogue p).find? (·.code == p.opcode)

/-- An unknown opcode goes through the checks that stand before it. -/
def unknownDesc (p : Packet) : CmdDesc := { code := p.opcode, roles := [], fits := fun _ => true, kind := .local_ }

/-- A packet with an unknown opcode, or one that fails acceptance: dropped, or answered with the status of the check (R42). A packet that passes
every check is the command of its own row. -/
def execUnknownOpcode (p : Packet) (s : State) : Out :=
  match packetRow p with
  | none => .next (s.accept p (unknownDesc p) false).1
  | some d => match s.accept p d true with
    | (t, none) => .next t
    | (_, some _) => .next s

end Sys2Proof.Machine
end

