-- ==== Sys2Proof/Machine/WordLogic.lean ====
section
/-! DEFINITION. Words, arithmetic, comparisons, moves, jumps, calls, totals and events (R114 to R120, R128 to R135): one meaning
for each instruction. -/

namespace Sys2Proof.Machine

open Sys2Proof

/-! ## Words -/

/-- A word operand as it is read: the state after the read, the word and its mark; `v` is what the byte codes find (R341, R343). A total found
poisoned is restored and delivered clean (R326). -/
def State.takeWordAt (s : State) (e : Nat) (a : Area) (off : Nat) (v : Verdict) : Option (State × Word × Bool) :=
  match s.readWord e a off with
  | none => none
  | some x =>
    let r := s.judgeRead 2 (s.operandAddr e a off) v
    if a == .Z && r.2 then
      let t := r.1.restoreTotal (off / 2)
      some (t, ((t.readWord e a off).getD x).1, false)
    else some (r.1, x.1, x.2 || r.2)

/-- The bytes of `n` words from a word operand on that an instruction reads. -/
def State.wordTouch (s : State) (e : Nat) (o : Operand) (n : Nat) : List Touch :=
  [{ addr := s.operandAddr e o.area o.offset.toNat, bytes := 4 * n, write := false }]

/-- LW (R114, R115): WB := WA; WA := operand with its mark. `v` is what the byte codes find (R341, R343). A locked page makes the
read wait (R343). -/
def execLw (e : Fin 4) (o : Operand) (v : Verdict) (s : State) : Out :=
  s.issue (.lw e o v) 1
    (fun n _ s => allowed (s.takeWordAt n o.area o.offset.toNat v) fun x =>
      .ok ((x.1.modEngine n fun y => y.loadWa x.2.1 x.2.2).load n))
    fun n s => s.wordTouch n o 1

/-- LWI (R114). -/
def execLwi (e : Fin 4) (imm : Word) (s : State) : Out := s.issueRegs (.lwi e imm) 2 fun x => x.loadWa imm false

/-- The step of an offset from one word to the next (R109). -/
def wordStep (a : Area) : Nat := if bitArea a then 32 else 1

/-- The bytes of `n` words from a word operand on that a store writes: those that land. -/
def State.wordStore (s : State) (e : Nat) (o : Operand) (n : Nat) : List Touch :=
  ((List.range n).filter fun k => mayWriteWord o.area (o.offset.toNat + k * wordStep o.area) && s.storeLands e o.area (o.offset.toNat + k * wordStep o.area)).map
    fun k => { addr := s.operandAddr e o.area (o.offset.toNat + k * wordStep o.area), bytes := 4, write := true }

/-- SW (R114): operand := WA with its mark. A write first reads the old bytes (R340): corrections count; an uncorrectable old
byte starts the repair of its page, and the store waits for it. -/
def execSw (e : Fin 4) (o : Operand) (v : Verdict) (s : State) : Out :=
  let off := o.offset.toNat
  let at_ := s.operandAddr e o.area off
  let lands := s.storeLands e o.area off && mayWriteWord o.area off
  if lands && badBytes v && s.atIssue e && s.spells e (.sw e o v) 1 && (s.holdIssue e 1 (s.wordStore e o 1)).isNone then
    .next ((s.startRepair 2 at_).waitPage e)
  else s.issue (.sw e o v) 1
    (fun n _ s =>
      let x := s.engine n
      allowed (s.writeWord n o.area off x.wa x.waP) fun t =>
        .ok ((if lands then t.corrections 2 (fixedBytes v) else t).posted n))
    fun n s => s.wordStore n o 1

/-- A range of `n` words lies inside its area (R128). -/
def State.rangeInside (s : State) (o : Operand) (n : Nat) : Bool :=
  o.offset.toNat / wordStep o.area + n ≤ s.areaWords o.area

/-- A word operand `k` words on. -/
def Operand.plus (o : Operand) (k : Nat) : Nat := o.offset.toNat + k * wordStep o.area

/-- The store of a word must wait for the page under repair on which it would land (R343). -/
def State.storeWaits (s : State) (e : Nat) (a : Area) (off : Nat) : Bool :=
  mayWriteWord a off && s.storeLands e a off && s.locked 2 (s.operandAddr e a off)

/-- Moves words one after the other in ascending order; a refused word is passed over (R128). `held` is the word already read. Where the next read
or store meets a page under repair the move waits there: the words moved and the word read are answered with the state (R343). -/
def State.moveWords (s : State) (e : Nat) (src dst : Operand) : Nat → Nat → Option (Word × Bool) →
    Except Nat (State × Option (Nat × Option (Word × Bool)))
  | 0, _, _ => .ok (s, none)
  | n + 1, k, held =>
    if held.isNone && s.locked 2 (s.operandAddr e src.area (Operand.plus src k)) then .ok (s, some (k, none))
    else match (match held with | some v => some (s, v) | none => s.takeWordAt e src.area (Operand.plus src k) .clean) with
    | none => .error 7
    | some x =>
      if x.1.storeWaits e dst.area (Operand.plus dst k) then .ok (x.1, some (k, some x.2))
      else match x.1.writeWord e dst.area (Operand.plus dst k) x.2.1 x.2.2 with
      | none => .error 7
      | some t => t.moveWords e src dst n (k + 1) none

/-- The words that a MOVE or BMOVE has moved before it had to wait, and the word it has read for the next one. -/
def Engine.movedTo (x : Engine) : Nat × Option (Word × Bool) := x.moved.getD (0, none)

/-- Moves `n` words, or what is left of them, by an instruction for which engine `e` stood as `x`. A move that must wait leaves the engine where it
stood, with what it has done; the instruction is issued again after the repair (R343, log 84). Words moved before one that R108 does not allow go with
the abandoned cycle (log 136). -/
def State.moveBlock (s : State) (e : Nat) (x : Engine) (src dst : Operand) (n : Nat) : Except Nat State :=
  match s.moveWords e src dst (n - x.movedTo.1) x.movedTo.1 x.movedTo.2 with
  | .error k => .error k
  | .ok (t, none) => .ok (t.modEngine e fun y => { y with moved := none })
  | .ok (t, some m) => .ok ((t.setEngine e { x with moved := some m }).waitPage e)

/-- The bytes that a move of `n` words has still to read and to write. -/
def State.moveTouch (s : State) (e : Nat) (src dst : Operand) (n : Nat) : List Touch :=
  let k := (s.engine e).movedTo.1
  { addr := s.operandAddr e src.area (Operand.plus src k), bytes := 4 * (n - k), write := false } ::
    (s.wordStore e dst n).filter fun t => s.operandAddr e dst.area (Operand.plus dst k) ≤ t.addr

/-- MOVE (R128, R115): one word with its mark. It takes as many clocks as the read takes to arrive, and two at least. -/
def execMove (e : Fin 4) (src dst : Operand) (s : State) : Out :=
  s.issue (.move e src dst) 2
    (fun n _ t => (((t.busy n (Config.readLatency t.freeCount - 2)).draw).posted n).moveBlock n (s.engine n) src dst 1)
    fun n s => s.moveTouch n src dst 1

/-- The areas BMOVE may read and write at all (R108). -/
def mayReadWords (a : Area) : Bool := a != .E
def mayWriteWords (a : Area) : Bool :=
  match a with
  | .Q | .M | .D | .C | .L | .N => true
  | _ => false

/-- The count and both ranges are such that BMOVE moves (R128). -/
def State.blockFits (s : State) (src dst : Operand) (k : Int) : Bool :=
  decide (1 ≤ k) && decide (k ≤ 4096) && s.rangeInside src k.toNat && s.rangeInside dst k.toNat

/-- BMOVE (R128, R132): n = WA words when 1 ≤ n ≤ 4,096 and both ranges lie inside their areas; else nothing moves and OVF and
OVS rise. A poisoned count moves nothing and is consumed. A move takes 1 + n clocks and the latency of a read (R115). -/
def execBmove (e : Fin 4) (src dst : Operand) (s : State) : Out :=
  let x0 := s.engine e
  s.issue (.bmove e src dst) 2
    (fun n a s =>
      let x := s.engine n
      let k := sInt x.wa
      if !mayReadWords src.area || !mayWriteWords dst.area then .error 7
      else if x.waP then .ok ((s.modEngine n Engine.overflow).consumePoison n a)
      else if !s.blockFits src dst k then .ok (s.modEngine n Engine.overflow)
      else ((s.busy n (k.toNat + Config.readLatency s.freeCount - 1)).draw.posted n).moveBlock n x0 src dst k.toNat)
    fun n s =>
      let x := s.engine n
      let k := sInt x.wa
      if x.waP || !s.blockFits src dst k then [] else s.moveTouch n src dst k.toNat

/-- SWAP (R114). -/
def execSwap (e : Fin 4) (s : State) : Out :=
  s.issueRegs (.swap e) 1 fun x => { x with wa := x.wb, waP := x.wbP, wb := x.wa, wbP := x.waP }

/-! ## Arithmetic and comparison (R116 to R118) -/

/-- ADD: WA := WB + WA. -/
def execAdd (e : Fin 4) (s : State) : Out := s.issueRegs (.add e) 1 fun x => x.binary fun b a => b + a

/-- SUB: WA := WB − WA. -/
def execSub (e : Fin 4) (s : State) : Out := s.issueRegs (.sub e) 1 fun x => x.binary fun b a => b - a

/-- MUL: WA := WB × WA. -/
def execMul (e : Fin 4) (s : State) : Out := s.issueRegs (.mul e) 2 fun x => x.binary fun b a => b * a

/-- DIV: WA := WB / WA, truncated toward zero. -/
def execDiv (e : Fin 4) (s : State) : Out := s.issueRegs (.div e) 18 Engine.div_

/-- REM: WA := remainder of WB / WA, with the sign of WB. -/
def execRem (e : Fin 4) (s : State) : Out := s.issueRegs (.rem e) 18 Engine.rem_

/-- NEG: WA := −WA. -/
def execNeg (e : Fin 4) (s : State) : Out := s.issueRegs (.neg e) 1 fun x => x.result (-sInt x.wa) x.waP

/-- EQ (R118). -/
def execEq (e : Fin 4) (s : State) : Out := s.issueRegs (.eq_ e) 1 fun x => x.compare_ fun b a => b == a

/-- NE (R118). -/
def execNe (e : Fin 4) (s : State) : Out := s.issueRegs (.ne_ e) 1 fun x => x.compare_ fun b a => b != a

/-- GT (R118). -/
def execGt (e : Fin 4) (s : State) : Out := s.issueRegs (.gt_ e) 1 fun x => x.compare_ fun b a => decide (a < b)

/-- GE (R118). -/
def execGe (e : Fin 4) (s : State) : Out := s.issueRegs (.ge_ e) 1 fun x => x.compare_ fun b a => decide (a ≤ b)

/-- LT (R118). -/
def execLt (e : Fin 4) (s : State) : Out := s.issueRegs (.lt_ e) 1 fun x => x.compare_ fun b a => decide (b < a)

/-- LE (R118). -/
def execLe (e : Fin 4) (s : State) : Out := s.issueRegs (.le_ e) 1 fun x => x.compare_ fun b a => decide (b ≤ a)

/-! ## Jumps and calls (R119, R120) -/

/-- Takes a jump: a target outside the block is a program fault (R135 kind 06h). The jump's second clock is counted here. -/
def State.jump (s : State) (e : Nat) (t : BitVec 20) : Except Nat State :=
  if s.inBlock e t.toNat then .ok (s.modEngine e fun x => { x with pc := t.truncate 18, clocks := x.clocks + 1 }) else .error 6

/-- JMP. -/
def execJmp (e : Fin 4) (t : BitVec 20) (s : State) : Out := s.issue (.jmp e t) 1 fun n _ s => s.jump n t

/-- A conditional jump on CB, which ends the chain; a poisoned CB does not jump and is consumed (R132). -/
def State.issueJump (s : State) (i : Instr) (t : BitVec 20) (want : Bool) : Out :=
  s.issue i 1 fun n a s =>
    let x := s.engine n
    let s := s.modEngine n Engine.chain
    if x.cbP then .ok (s.consumePoison n a) else if x.cb == want then s.jump n t else .ok s

/-- JT. -/
def execJt (e : Fin 4) (t : BitVec 20) (s : State) : Out := s.issueJump (.jt e t) t true

/-- JF. -/
def execJf (e : Fin 4) (t : BitVec 20) (s : State) : Out := s.issueJump (.jf e t) t false

/-- JOV: jumps when OVF = 1. -/
def execJov (e : Fin 4) (t : BitVec 20) (s : State) : Out :=
  s.issue (.jov e t) 1 fun n _ s => if (s.engine n).ovf then s.jump n t else .ok s

/-- JOVS: jumps when OVS = 1 and clears OVS. -/
def execJovs (e : Fin 4) (t : BitVec 20) (s : State) : Out :=
  s.issue (.jovs e t) 1 fun n _ s =>
    if (s.engine n).ovs then (s.modEngine n fun x => { x with ovs := false }).jump n t else .ok s

/-- Calls block `b` (R106, R120): a block that is missing, of another engine or an event block is KIND 08h, a call beyond depth 8
is KIND 05h (R135). Of a call to which both apply it is 08h (DESIGN CHOICE, log 165). The call's second and third clocks are counted here. -/
def State.call (s : State) (e : Nat) (b : BitVec 20) : Except Nat State :=
  match s.blockOf b.toNat with
  | none => .error 8
  | some k =>
    if k.engine.val != e || k.event.isSome then .error 8
    else if 8 ≤ (s.engine e).calls.length then .error 5
    else .ok (s.modEngine e fun x => { x with calls := (x.pc, x.block) :: x.calls, pc := BitVec.ofNat 18 k.first,
                                              block := k.number, chs := true, clocks := x.clocks + 2 })

/-- CALL. -/
def execCall (e : Fin 4) (b : BitVec 20) (s : State) : Out := s.issue (.call e b) 1 fun n _ s => s.call n b

/-- CALLT: calls when CB = 1; a poisoned CB does not call and is consumed (R132). -/
def execCallt (e : Fin 4) (b : BitVec 20) (s : State) : Out :=
  s.issue (.callt e b) 1 fun n a s =>
    let x := s.engine n
    let s := s.modEngine n Engine.chain
    if x.cbP then .ok (s.consumePoison n a) else if x.cb then s.call n b else .ok s

/-! ## Totals and events (R129, R130) -/

/-- VALUE of a TOT_REFUSED record. -/
def totRefusedValue (reason t : Nat) : Word := mkWord [(31, 24, reason), (5, 0, t)]

/-- TOT (R129, R132): with CB = 1 the signed WA is an increment of the total, committed with the cycle. -/
def execTot (e : Fin 4) (t : BitVec 20) (s : State) : Out :=
  s.issue (.tot e t) 2 fun n a s =>
    let x := s.engine n
    let k := t.toNat
    let s := s.modEngine n Engine.chain
    if 64 ≤ k then .error 7
    else if x.cbP || (x.cb && x.waP) then
      .ok ((s.raiseFrom n .totRefused (totRefusedValue 1 k)).consumePoison n a)
    else if !x.cb then .ok s
    else if (s.owner .Z (2 * k)).map (·.val) != some n then .ok (s.ownershipFault n .Z (2 * k))
    else
      let old := s.square.totIncr.get 0 k
      let v := sInt x.wa
      if inRange64 ((s.total k).value + old + v) then
        .ok { s with square := { s.square with totIncr := s.square.totIncr.set 0 k (old + v) } }
      else .ok ((s.raiseFrom n .totRefused (totRefusedValue 2 k)).modEngine n Engine.overflow)

/-- SEV (R130, R132): with CB = 1 the source fires; a poisoned CB fires it and is consumed. A reserved source never fires
(R137). A source number of 512 or more is an operand outside its range, KIND 07h (log 98). -/
def execSev (e : Fin 4) (src : BitVec 20) (s : State) : Out :=
  s.issue (.sev e src) 1 fun n a s =>
    let x := s.engine n
    let k := src.toNat
    let s := s.modEngine n Engine.chain
    if 512 ≤ k then .error 7
    else
      let t := if (x.cb || x.cbP) && !reservedSource k then s.fireNow k s.now else s
      .ok (if x.cbP then t.consumePoison n a else t)

/-! ## A word that spells no instruction (R114, R135) -/

/-- Whether an opcode value is one of the table (R114). -/
def knownOpcode (op : Nat) : Bool :=
  op ≤ 1 || (0x10 ≤ op && op ≤ 0x1D) || (0x20 ≤ op && op ≤ 0x26) || (0x28 ≤ op && op ≤ 0x2B) || (0x30 ≤ op && op ≤ 0x37) ||
    (0x40 ≤ op && op ≤ 0x45) || (0x50 ≤ op && op ≤ 0x55) || (0x58 ≤ op && op ≤ 0x5D) || (0x60 ≤ op && op ≤ 0x64) ||
    (0x68 ≤ op && op ≤ 0x6A) || op == 0x70 || op == 0x71

/-- The KIND of the program fault of a word that spells no instruction: a reserved opcode or a word that a failed repair left
poisoned (01h, R346), a reserved area code (02h), an extension word that would lie beyond the block (06h), or an area that the opcode does
not name (07h). -/
def State.badWordKind (s : State) (e a : Nat) : Nat :=
  let w := s.codeWord a
  if s.codePoison a || !knownOpcode (opcodeOf w) then 1
  else if (areaField w).isNone then 2
  else if needsExtension w && !s.inBlock e (a + 1) then 6
  else if (opcodeOf w == 0x43 || opcodeOf w == 0x44) && (areaOf (bits (s.codeWord (a + 1)) 23 20)).isNone then 2
  else if s.codePoison (a + 1) then 1
  else 7

/-- RESERVED_OPCODE (R114, R135): the word at the PC of the engine spells no instruction. -/
def execReservedOpcode (e : Fin 4) (s : State) : Out :=
  let a := s.pcOf e
  if !s.atIssue e then .next s
  else
    let two := match (decodeEngine e (s.codeWord a) (s.codeWord (a + 1))).bind encodeEngine with
      | some (_, ws) => decide (2 ≤ ws.length)
      | none => true
    let good := !s.codePoison a && (!two || !s.codePoison (a + 1)) &&
      (decodeEngine e (s.codeWord a) (s.codeWord (a + 1))).isSome
    if good then .next s
    else match s.holdIssue e (if two then 2 else 1) [] with
    | some t => .next t
    | none => .next (s.programFault e (s.badWordKind e a) a)

end Sys2Proof.Machine
end

