-- ==== Sys2Proof/Machine/Dispatch.lean ====
section
/-! DEFINITION. The dispatcher: every command of the table with the one meaning it calls. -/

namespace Sys2Proof.Machine

open Sys2Proof

def exec (i : Instr) (s : State) : Host.Outcome State Fault Refusal :=
  match i with
  | .identify p => Sys2Proof.Machine.execIdentify p s
  | .getStatus p => Sys2Proof.Machine.execGetStatus p s
  | .readObject p => Sys2Proof.Machine.execReadObject p s
  | .writeObject p => Sys2Proof.Machine.execWriteObject p s
  | .restart p => Sys2Proof.Machine.execRestart p s
  | .enumerate p => Sys2Proof.Machine.execEnumerate p s
  | .confirmAddress p => Sys2Proof.Machine.execConfirmAddress p s
  | .programBegin p => Sys2Proof.Machine.execProgramBegin p s
  | .programData p => Sys2Proof.Machine.execProgramData p s
  | .programEnd p => Sys2Proof.Machine.execProgramEnd p s
  | .programSwitch p => Sys2Proof.Machine.execProgramSwitch p s
  | .runStop p => Sys2Proof.Machine.execRunStop p s
  | .forceSet p => Sys2Proof.Machine.execForceSet p s
  | .forceRelease p => Sys2Proof.Machine.execForceRelease p s
  | .cycleStats p => Sys2Proof.Machine.execCycleStats p s
  | .readVars p => Sys2Proof.Machine.execReadVars p s
  | .writeVars p => Sys2Proof.Machine.execWriteVars p s
  | .subscribe p => Sys2Proof.Machine.execSubscribe p s
  | .unsubscribe p => Sys2Proof.Machine.execUnsubscribe p s
  | .setPending p => Sys2Proof.Machine.execSetPending p s
  | .eventSubscribe p => Sys2Proof.Machine.execEventSubscribe p s
  | .loopEnable p => Sys2Proof.Machine.execLoopEnable p s
  | .loopDisable p => Sys2Proof.Machine.execLoopDisable p s
  | .loopWriteCoeff p => Sys2Proof.Machine.execLoopWriteCoeff p s
  | .loopStage p => Sys2Proof.Machine.execLoopStage p s
  | .loopCommit p => Sys2Proof.Machine.execLoopCommit p s
  | .loopRead p => Sys2Proof.Machine.execLoopRead p s
  | .channelMode p => Sys2Proof.Machine.execChannelMode p s
  | .channelStatus p => Sys2Proof.Machine.execChannelStatus p s
  | .outputAck p => Sys2Proof.Machine.execOutputAck p s
  | .hartTransact p => Sys2Proof.Machine.execHartTransact p s
  | .hartBurstRead p => Sys2Proof.Machine.execHartBurstRead p s
  | .canEnable p => Sys2Proof.Machine.execCanEnable p s
  | .canRecover p => Sys2Proof.Machine.execCanRecover p s
  | .canSend p => Sys2Proof.Machine.execCanSend p s
  | .canCounters p => Sys2Proof.Machine.execCanCounters p s
  | .stationStatus p => Sys2Proof.Machine.execStationStatus p s
  | .pairStatus p => Sys2Proof.Machine.execPairStatus p s
  | .rehearse p => Sys2Proof.Machine.execRehearse p s
  | .resync p => Sys2Proof.Machine.execResync p s
  | .recQuery p => Sys2Proof.Machine.execRecQuery p s
  | .recUpload p => Sys2Proof.Machine.execRecUpload p s
  | .recCounters p => Sys2Proof.Machine.execRecCounters p s
  | .recNote p => Sys2Proof.Machine.execRecNote p s
  | .panelFrame p => Sys2Proof.Machine.execPanelFrame p s
  | .panelShow p => Sys2Proof.Machine.execPanelShow p s
  | .plateUpdate p => Sys2Proof.Machine.execPlateUpdate p s
  | .panelPower p => Sys2Proof.Machine.execPanelPower p s
  | .memStatus p => Sys2Proof.Machine.execMemStatus p s
  | .scrubNow p => Sys2Proof.Machine.execScrubNow p s
  | .remapRead p => Sys2Proof.Machine.execRemapRead p s
  | .powerStatus p => Sys2Proof.Machine.execPowerStatus p s
  | .thermalStatus p => Sys2Proof.Machine.execThermalStatus p s
  | .fireStatus p => Sys2Proof.Machine.execFireStatus p s
  | .fireReset p => Sys2Proof.Machine.execFireReset p s
  | .fireLoad p => Sys2Proof.Machine.execFireLoad p s
  | .fireArm p => Sys2Proof.Machine.execFireArm p s
  | .fireConfirm p => Sys2Proof.Machine.execFireConfirm p s
  | .totalRead p => Sys2Proof.Machine.execTotalRead p s
  | .totalClose p => Sys2Proof.Machine.execTotalClose p s
  | .keyInstall p => Sys2Proof.Machine.execKeyInstall p s
  | .keyRevoke p => Sys2Proof.Machine.execKeyRevoke p s
  | .keyStatus p => Sys2Proof.Machine.execKeyStatus p s
  | .fwBegin p => Sys2Proof.Machine.execFwBegin p s
  | .fwData p => Sys2Proof.Machine.execFwData p s
  | .fwActivate p => Sys2Proof.Machine.execFwActivate p s
  | .unknownOpcode p => Sys2Proof.Machine.execUnknownOpcode p s
  | .objectWrite roles index sub value => Sys2Proof.Machine.execObjectWrite roles index sub value s
  | .totalConfigWrite roles t sub value => Sys2Proof.Machine.execTotalConfigWrite roles t sub value s
  | .rescan ch => Sys2Proof.Machine.execRescan ch s
  | .multiPacketTimeout origin tag => Sys2Proof.Machine.execMultiPacketTimeout origin tag s
  | .replyPacketSend port => Sys2Proof.Machine.execReplyPacketSend port s
  | .idleClose origin => Sys2Proof.Machine.execIdleClose origin s
  | .windowHoldExpiry origin => Sys2Proof.Machine.execWindowHoldExpiry origin s
  | .subscriptionLeaseExpiry sub => Sys2Proof.Machine.execSubscriptionLeaseExpiry sub s
  | .subDelta sub => Sys2Proof.Machine.execSubDelta sub s
  | .subscriberLeaseExpiry slot => Sys2Proof.Machine.execSubscriberLeaseExpiry slot s
  | .event port => Sys2Proof.Machine.execEvent port s
  | .crossingMessageSend sender receiver offer => Sys2Proof.Machine.execCrossingMessageSend sender receiver offer s
  | .auditRound faults windows => Sys2Proof.Machine.execAuditRound faults windows s
  | .islandRestartComplete n => Sys2Proof.Machine.execIslandRestartComplete n s
  | .refClockLost => Sys2Proof.Machine.execRefClockLost s
  | .refClockRestored => Sys2Proof.Machine.execRefClockRestored s
  | .domainPowerUpComplete d => Sys2Proof.Machine.execDomainPowerUpComplete d s
  | .vbusChange present => Sys2Proof.Machine.execVbusChange present s
  | .cycleStart => Sys2Proof.Machine.execCycleStart s
  | .freeze => Sys2Proof.Machine.execFreeze s
  | .commit => Sys2Proof.Machine.execCommit s
  | .watchdogExpiry => Sys2Proof.Machine.execWatchdogExpiry s
  | .retainPeriod => Sys2Proof.Machine.execRetainPeriod s
  | .nop e => Sys2Proof.Machine.execNop e s
  | .end_ e => Sys2Proof.Machine.execEnd e s
  | .ld e o => Sys2Proof.Machine.execLd e o s
  | .ldn e o => Sys2Proof.Machine.execLdn e o s
  | .and_ e o => Sys2Proof.Machine.execAnd e o s
  | .andn e o => Sys2Proof.Machine.execAndn e o s
  | .or_ e o => Sys2Proof.Machine.execOr e o s
  | .orn e o => Sys2Proof.Machine.execOrn e o s
  | .xor_ e o => Sys2Proof.Machine.execXor e o s
  | .xorn e o => Sys2Proof.Machine.execXorn e o s
  | .out e o => Sys2Proof.Machine.execOut e o s
  | .setb e o => Sys2Proof.Machine.execSetb e o s
  | .clrb e o => Sys2Proof.Machine.execClrb e o s
  | .inv e => Sys2Proof.Machine.execInv e s
  | .cbset e => Sys2Proof.Machine.execCbset e s
  | .cbclr e => Sys2Proof.Machine.execCbclr e s
  | .andOpen e => Sys2Proof.Machine.execAndOpen e s
  | .andnOpen e => Sys2Proof.Machine.execAndnOpen e s
  | .orOpen e => Sys2Proof.Machine.execOrOpen e s
  | .ornOpen e => Sys2Proof.Machine.execOrnOpen e s
  | .xorOpen e => Sys2Proof.Machine.execXorOpen e s
  | .xornOpen e => Sys2Proof.Machine.execXornOpen e s
  | .closeBracket e => Sys2Proof.Machine.execCloseBracket e s
  | .andr e o => Sys2Proof.Machine.execAndr e o s
  | .andf e o => Sys2Proof.Machine.execAndf e o s
  | .orr e o => Sys2Proof.Machine.execOrr e o s
  | .orf e o => Sys2Proof.Machine.execOrf e o s
  | .ton e o => Sys2Proof.Machine.execTon e o s
  | .tof e o => Sys2Proof.Machine.execTof e o s
  | .tp e o => Sys2Proof.Machine.execTp e o s
  | .tclr e n => Sys2Proof.Machine.execTclr e n s
  | .cup e n => Sys2Proof.Machine.execCup e n s
  | .cdn e n => Sys2Proof.Machine.execCdn e n s
  | .cld e n => Sys2Proof.Machine.execCld e n s
  | .cclr e n => Sys2Proof.Machine.execCclr e n s
  | .lw e o v => Sys2Proof.Machine.execLw e o v s
  | .lwi e imm => Sys2Proof.Machine.execLwi e imm s
  | .sw e o v => Sys2Proof.Machine.execSw e o v s
  | .move e src dst => Sys2Proof.Machine.execMove e src dst s
  | .bmove e src dst => Sys2Proof.Machine.execBmove e src dst s
  | .swap e => Sys2Proof.Machine.execSwap e s
  | .add e => Sys2Proof.Machine.execAdd e s
  | .sub e => Sys2Proof.Machine.execSub e s
  | .mul e => Sys2Proof.Machine.execMul e s
  | .div e => Sys2Proof.Machine.execDiv e s
  | .rem e => Sys2Proof.Machine.execRem e s
  | .neg e => Sys2Proof.Machine.execNeg e s
  | .eq_ e => Sys2Proof.Machine.execEq e s
  | .ne_ e => Sys2Proof.Machine.execNe e s
  | .gt_ e => Sys2Proof.Machine.execGt e s
  | .ge_ e => Sys2Proof.Machine.execGe e s
  | .lt_ e => Sys2Proof.Machine.execLt e s
  | .le_ e => Sys2Proof.Machine.execLe e s
  | .jmp e target => Sys2Proof.Machine.execJmp e target s
  | .jt e target => Sys2Proof.Machine.execJt e target s
  | .jf e target => Sys2Proof.Machine.execJf e target s
  | .jov e target => Sys2Proof.Machine.execJov e target s
  | .jovs e target => Sys2Proof.Machine.execJovs e target s
  | .call e block => Sys2Proof.Machine.execCall e block s
  | .callt e block => Sys2Proof.Machine.execCallt e block s
  | .ret e => Sys2Proof.Machine.execRet e s
  | .tot e n => Sys2Proof.Machine.execTot e n s
  | .sev e n => Sys2Proof.Machine.execSev e n s
  | .eventFiring => Sys2Proof.Machine.execEventFiring s
  | .groupAgeExpiry g => Sys2Proof.Machine.execGroupAgeExpiry g s
  | .taskComplete n => Sys2Proof.Machine.execTaskComplete n s
  | .loopBaseTick => Sys2Proof.Machine.execLoopBaseTick s
  | .ucConversionComplete ch c => Sys2Proof.Machine.execUcConversionComplete ch c s
  | .ucShutdownComplete ch => Sys2Proof.Machine.execUcShutdownComplete ch s
  | .ucStartupComplete ch => Sys2Proof.Machine.execUcStartupComplete ch s
  | .ucStoreLow ch mv => Sys2Proof.Machine.execUcStoreLow ch mv s
  | .ucStoreRecovered ch mv => Sys2Proof.Machine.execUcStoreRecovered ch mv s
  | .hartTransactionComplete ch reply => Sys2Proof.Machine.execHartTransactionComplete ch reply s
  | .hartScanComplete ch found => Sys2Proof.Machine.execHartScanComplete ch found s
  | .hartBurstReceived ch longHi longLo frame => Sys2Proof.Machine.execHartBurstReceived ch longHi longLo frame s
  | .diChangeAccepted n level firstSample => Sys2Proof.Machine.execDiChangeAccepted n level firstSample s
  | .pulseEdgeCounted n rising at_ => Sys2Proof.Machine.execPulseEdgeCounted n rising at_ s
  | .countStagePowerLost g => Sys2Proof.Machine.execCountStagePowerLost g s
  | .wireBreak n => Sys2Proof.Machine.execWireBreak n s
  | .wireBreakCleared n => Sys2Proof.Machine.execWireBreakCleared n s
  | .groupSupplySample k g mv => Sys2Proof.Machine.execGroupSupplySample k g mv s
  | .groupLevelClear k g l => Sys2Proof.Machine.execGroupLevelClear k g l s
  | .groupUvlo g mv => Sys2Proof.Machine.execGroupUvlo g mv s
  | .doOverload n => Sys2Proof.Machine.execDoOverload n s
  | .doThermalShutdown n => Sys2Proof.Machine.execDoThermalShutdown n s
  | .doRetryDue n cooled => Sys2Proof.Machine.execDoRetryDue n cooled s
  | .doFaultCleared n => Sys2Proof.Machine.execDoFaultCleared n s
  | .openLoad n => Sys2Proof.Machine.execOpenLoad n s
  | .openLoadClear n => Sys2Proof.Machine.execOpenLoadClear n s
  | .shortToSupply n => Sys2Proof.Machine.execShortToSupply n s
  | .shortToSupplyClear n => Sys2Proof.Machine.execShortToSupplyClear n s
  | .reverse n above => Sys2Proof.Machine.execReverse n above s
  | .groupOvercurrent g ma => Sys2Proof.Machine.execGroupOvercurrent g ma s
  | .groupOvercurrentCleared g ma => Sys2Proof.Machine.execGroupOvercurrentCleared g ma s
  | .holdWindowExpiry => Sys2Proof.Machine.execHoldWindowExpiry s
  | .sideStreetRefresh => Sys2Proof.Machine.execSideStreetRefresh s
  | .canFrameReceived p f => Sys2Proof.Machine.execCanFrameReceived p f s
  | .canWindowStart p column => Sys2Proof.Machine.execCanWindowStart p column s
  | .canTxComplete p ok at_ txDelay => Sys2Proof.Machine.execCanTxComplete p ok at_ txDelay s
  | .canQueuedFrameSend p => Sys2Proof.Machine.execCanQueuedFrameSend p s
  | .basicCycleStart p => Sys2Proof.Machine.execBasicCycleStart p s
  | .canRecovered p => Sys2Proof.Machine.execCanRecovered p s
  | .canShutdownComplete p => Sys2Proof.Machine.execCanShutdownComplete p s
  | .canBusIntegration p => Sys2Proof.Machine.execCanBusIntegration p s
  | .fireInputDelivery => Sys2Proof.Machine.execFireInputDelivery s
  | .fireTimeoutCheck => Sys2Proof.Machine.execFireTimeoutCheck s
  | .fireActionComplete f => Sys2Proof.Machine.execFireActionComplete f s
  | .tripOutputFailed o => Sys2Proof.Machine.execTripOutputFailed o s
  | .fireFrameRepeat o => Sys2Proof.Machine.execFireFrameRepeat o s
  | .fireArmExpiry => Sys2Proof.Machine.execFireArmExpiry s
  | .tripCutInput asserted => Sys2Proof.Machine.execTripCutInput asserted s
  | .heartbeatGenerate => Sys2Proof.Machine.execHeartbeatGenerate s
  | .claimWatchdogExpiry => Sys2Proof.Machine.execClaimWatchdogExpiry s
  | .heartbeatReceived path h => Sys2Proof.Machine.execHeartbeatReceived path h s
  | .heartbeatSilence => Sys2Proof.Machine.execHeartbeatSilence s
  | .partnerClaimFall => Sys2Proof.Machine.execPartnerClaimFall s
  | .tieWithdrawn => Sys2Proof.Machine.execTieWithdrawn s
  | .claimLineFault sideB => Sys2Proof.Machine.execClaimLineFault sideB s
  | .laneLost lane => Sys2Proof.Machine.execLaneLost lane s
  | .cablePresentChange present => Sys2Proof.Machine.execCablePresentChange present s
  | .ledgerReceived l => Sys2Proof.Machine.execLedgerReceived l s
  | .syncHoldTimeout => Sys2Proof.Machine.execSyncHoldTimeout s
  | .forwardedChange c boundary => Sys2Proof.Machine.execForwardedChange c boundary s
  | .discoveryTimeout => Sys2Proof.Machine.execDiscoveryTimeout s
  | .resyncDone => Sys2Proof.Machine.execResyncDone s
  | .handBack => Sys2Proof.Machine.execHandBack s
  | .rehearseResult => Sys2Proof.Machine.execRehearseResult s
  | .integratorBoundary => Sys2Proof.Machine.execIntegratorBoundary s
  | .totalsSideStreetCommit => Sys2Proof.Machine.execTotalsSideStreetCommit s
  | .pageRepairComplete array bad unlocated hard => Sys2Proof.Machine.execPageRepairComplete array bad unlocated hard s
  | .bucketLeak array => Sys2Proof.Machine.execBucketLeak array s
  | .scrubPassComplete array => Sys2Proof.Machine.execScrubPassComplete array s
  | .recordRaised => Sys2Proof.Machine.execRecordRaised s
  | .recordWrite => Sys2Proof.Machine.execRecordWrite s
  | .panelFrameStart => Sys2Proof.Machine.execPanelFrameStart s
  | .panelPowerUpComplete => Sys2Proof.Machine.execPanelPowerUpComplete s
  | .panelPowerDownComplete => Sys2Proof.Machine.execPanelPowerDownComplete s
  | .panelSupplyFault vcol vrow => Sys2Proof.Machine.execPanelSupplyFault vcol vrow s
  | .panelSupplyRecovered vcol vrow => Sys2Proof.Machine.execPanelSupplyRecovered vcol vrow s
  | .plateWaveformComplete => Sys2Proof.Machine.execPlateWaveformComplete s
  | .plateTorn vp vn => Sys2Proof.Machine.execPlateTorn vp vn s
  | .thermalSample board hottest thermistor => Sys2Proof.Machine.execThermalSample board hottest thermistor s
  | .ringLinkDown p => Sys2Proof.Machine.execRingLinkDown p s
  | .ringLinkUp p gigabit => Sys2Proof.Machine.execRingLinkUp p gigabit s
  | .hsrFrameReceived p f => Sys2Proof.Machine.execHsrFrameReceived p f s
  | .hsrSupervision => Sys2Proof.Machine.execHsrSupervision s
  | .ringTripFrameReceived p f => Sys2Proof.Machine.execRingTripFrameReceived p f s
  | .announceSend => Sys2Proof.Machine.execAnnounceSend s
  | .announceReceived address sender => Sys2Proof.Machine.execAnnounceReceived address sender s
  | .provisionalExpiry => Sys2Proof.Machine.execProvisionalExpiry s
  | .duplicateClear => Sys2Proof.Machine.execDuplicateClear s
  | .ptpSyncReceived f m => Sys2Proof.Machine.execPtpSyncReceived f m s
  | .ptpSyncTimeout => Sys2Proof.Machine.execPtpSyncTimeout s
  | .moduleTimeStore => Sys2Proof.Machine.execModuleTimeStore s
  | .supplyValid lp1 lp2 sideB => Sys2Proof.Machine.execSupplyValid lp1 lp2 sideB s
  | .supplyFeedLost feed mv => Sys2Proof.Machine.execSupplyFeedLost feed mv s
  | .supplyFeedRestored feed mv => Sys2Proof.Machine.execSupplyFeedRestored feed mv s
  | .supplyLowHold mv => Sys2Proof.Machine.execSupplyLowHold mv s
  | .fullService supplyMv storeMv calFailed hardFaults => Sys2Proof.Machine.execFullService supplyMv storeMv calFailed hardFaults s
  | .powerFailWarning mv => Sys2Proof.Machine.execPowerFailWarning mv s
  | .holdupExecuteDeadline => Sys2Proof.Machine.execHoldupExecuteDeadline s
  | .holdUpComplete supplyMv => Sys2Proof.Machine.execHoldUpComplete supplyMv s
  | .logicSupplyLost => Sys2Proof.Machine.execLogicSupplyLost s
  | .canRxError p k => Sys2Proof.Machine.execCanRxError p k s
  | .partnerClaimRise => Sys2Proof.Machine.execPartnerClaimRise s
  | .cycleStartToken cycle instant => Sys2Proof.Machine.execCycleStartToken cycle instant s
  | .supFirmwareVerified => Sys2Proof.Machine.execSupFirmwareVerified s
  | .resyncSnapshotReceived x => Sys2Proof.Machine.execResyncSnapshotReceived x s
  | .reservedOpcode e => Sys2Proof.Machine.execReservedOpcode e s
  | .scrubRead array addr v hard => Sys2Proof.Machine.execScrubRead array addr v hard s

end Sys2Proof.Machine
end

