-- ==== Sys2Proof/Machine/Step.lean ====
section
/-! DEFINITION. One step of the module: the command at the front of the queue, or a microsecond of module time. -/

namespace Sys2Proof.Machine

open Sys2Proof

/-- The time an idle step lets pass: one arbitration tick of 1 µs (R49). DESIGN CHOICE, log 1. -/
def idleNs : Nat := 1000

/-- Takes the command at the front of the queue and runs it on the queue's rest; with no command waiting, module time
goes on by one arbitration tick of the local oscillator (R49, R389), slewed as R390 says, at which a release of the partner's claim may be seen (R296), an error may arise in a stored byte
and SUP may read one of its RAM (log 120). An accepted restart whose handover can no longer come is made (log 157). -/
def step (s : State) : Host.Outcome State Fault Refusal :=
  match s.pending with
  | [] => .next (s.lapse idleNs).seeRelease.upsetTick.supTick.restartIfLeft
  | c :: rest => exec c { s with pending := rest }

/-- The state with the command a table word spells at the front of its queue. -/
def State.withFetchWord (s : State) (nbits w : Nat) : State :=
  match decodeTableWord nbits w with
  | some c => { s with pending := c :: s.pending }
  | none => s

end Sys2Proof.Machine
end

