-- ==== Sys2Proof/Safety.lean ====
section
/-! DEFINITION. The conditions that claims are stated under: canonical memory, a command that passes its acceptance checks, an
instruction that stands at its engine's program counter. -/

namespace Sys2Proof.Machine

open Sys2Proof

/-- The canonical form of a byte store: addresses strictly rising, no entry that an unlisted address reads as. -/
def Memory.wf (m : List Host.Cell) : Bool := Tab.wf (0 : Byte) m

/-- The canonical form of the poison marks. -/
def Marks.wf (m : Tab Bool) : Bool := Tab.wf false m

/-- The bytes and the marks of the Town Square stand in their canonical form. -/
def State.squareWf (s : State) : Bool := Memory.wf s.square.mem && Marks.wf s.square.poison

/-- Every firing of every source has been served, waits or was coalesced (R37, R138), and the table of the sources stands in its canonical
form. -/
def State.accounted (s : State) : Prop :=
  Tab.wf ({} : Source) s.round.sources = true ∧
    ∀ n : Nat, (s.source n).fc = (s.source n).sv + BitVec.ofNat 32 (b2n (s.source n).p) + (s.source n).co

/-! ## Command packets (R42) -/

/-- The packet is the command `d`, and every acceptance check lets it through. -/
def State.admits (s : State) (p : Packet) (d : CmdDesc) : Bool := p.opcode == d.code && (s.accept p d true).2.isSome

/-- The state once the acceptance checks are made. -/
def State.admitted (s : State) (p : Packet) (d : CmdDesc) : State := (s.accept p d true).1

/-- What a reply to the packet needs. -/
def State.ctxOf (s : State) (p : Packet) (d : CmdDesc) : Ctx :=
  match (s.accept p d true).2 with
  | some q => q.ctx
  | none => p.ctx d.cls 0

/-- The payload of the complete request. -/
def State.payloadOf (s : State) (p : Packet) (d : CmdDesc) : List Byte :=
  match (s.accept p d true).2 with
  | some q => q.payload
  | none => []

/-! ## Instructions of the logic engines (R107, R135) -/

/-- The engine of the instruction runs a block in execute, the words at its PC spell the instruction and lie inside the block. -/
def State.stands (s : State) (i : Instr) : Bool :=
  match encodeEngine i with
  | some (e, ws) => s.atIssue e && s.spells e i ws.length && s.inBlock e (s.pcOf e + ws.length - 1)
  | none => false

/-- No page of a protected array is under repair, and no error stands in one that an access would find (R340, R343). -/
def State.quiet (s : State) : Bool := s.locks.isEmpty && s.upsets.isEmpty

/-- The instruction stands at its engine's PC and has nothing to wait for. -/
def State.issues (s : State) (i : Instr) : Bool := s.stands i && s.quiet

/-- The same, and the word after the instruction lies inside the block too. -/
def State.fallsThrough (s : State) (i : Instr) : Bool :=
  match encodeEngine i with
  | some (e, ws) => s.issues i && s.inBlock e ((s.engine e).pc + BitVec.ofNat 18 ws.length).toNat
  | none => false

/-- WA takes the value saturated to 32 bits; OVF says whether it had to be, and OVS remembers it (R116). -/
def saturated (x : Engine) (v : Int) (p : Bool) : Engine :=
  { x with wa := ofI (sat32 v), waP := p, ovf := decide (v ≠ sat32 v), ovs := x.ovs || decide (v ≠ sat32 v) }

/-- CB takes a value, with nothing left to wait for of the bit it held (R115), or is combined with it when a chain is open; no value masks poison
(R111, R131). -/
def combined (x : Engine) (op : Bool → Bool → Bool) (v p : Bool) : Engine :=
  { x with cb := if x.chs then v else op x.cb v, cbP := if x.chs then p else x.cbP || p, chs := false, bitAt := if x.chs then 0 else x.bitAt }

/-- The bit that an instruction of engine `e` writes stands at byte address `a` as bit `b` of its word, and the write lands: the area may
be written, the word is the engine's own and no force stands on it. -/
def State.bitLands (s : State) (e : Fin 4) (o : Operand) (a : Nat) : Prop :=
  mayWriteBit o.area (Operand.place o).1 = true ∧ s.wordAddr .work o.area (Operand.place o).1 = some a ∧
    s.forceOn o.area (Operand.place o).1 = none ∧ s.owner o.area (Operand.place o).1 = some e

/-- The state with another Town Square. -/
def State.withSquare (s : State) (q : Square) : State := { s with square := q }

/-- The word that an instruction of engine `e` writes stands at byte address `a`, and the write lands. -/
def State.wordLands (s : State) (e : Fin 4) (ar : Area) (off a : Nat) : Prop :=
  mayWriteWord ar off = true ∧ ar ≠ .C ∧ (bitArea ar = true → off % 32 = 0) ∧
    (let w := if bitArea ar then off / 32 else off
     s.wordAddr .work ar w = some a ∧ s.forceOn ar w = none ∧ s.owner ar w = some e)

/-- A ring transport: what leaves by one leaves by both ring ports (R380, R382). -/
def ringPath (p : Port) : Bool := p == .ringA || p == .ringB

/-- From `s` to `t` the packet `q` has left for a transport: it stands on the wire of every open port of that transport, and at least one is open; on
the ring its frame, to the requester's MAC, is on the link or waits in the port's queue (R380 to R384). -/
def State.sentBy (s t : State) (port : Port) (q : Packet) : Prop :=
  s.pathDown port = false ∧
    (∀ r : Port, r = port ∨ (ringPath port = true ∧ ringPath r = true) → s.portDown r = false → t.sup.wire.get none (portNo r) = some q) ∧
    (ringPath port = true → ∀ n < 2, s.ringPortUp n = true →
      ∃ f : HsrFrame, f.source = s.mram.mac ∧ f.dest = q.peer ∧ f.etherType = etCommand ∧ f.payload = q.header ++ q.payload ++ q.auth ∧
        ((t.ringPort n).onLink = some f ∨ f ∈ (t.ringPort n).queue))

/-- An instruction may store a word at an offset: its area and offset are ones that R108 lets it write (R109, R127). -/
def State.mayStore (s : State) (ar : Area) (off : Nat) : Bool :=
  mayWriteWord ar off && (if ar == .C then decide (off < 8192)
    else if bitArea ar then off % 32 == 0 && (s.wordAddr .work ar (off / 32)).isSome else (s.wordAddr .work ar off).isSome)

end Sys2Proof.Machine
end

