-- ==== Sys2Proof/Certificates/Slice0/Obligations.lean ====
section
/-! DEFINITION. What the prover is asked to show: the statements of the rules of the spec about the machine. Each docstring names the rules it states;
the conditions used here are those of Safety. -/

open Sys2Proof Sys2Proof.Machine

/-! ## The queue, reset, acceptance -/

/-- The command at the front of the queue runs on the queue's rest, and what it does is what the step does. Whatever the command, its operands and
the state, it completes: no meaning ends in a fault or a refusal (log 83). -/
def Obligations.StepRunsFront : Prop :=
  (∀ (c : Instr) (l : List Instr) (s : State), step { s with pending := c :: l } = exec c { s with pending := l }) ∧
    ∀ (c : Instr) (s : State), ∃ t, exec c s = .next t

/-- With no command waiting module time goes on, by 1 µs of the local oscillator (the model's choice, log 1) at the rate of the last frequency correction
(R390): in 10⁻⁹ ns, what does not make a whole nanosecond stays for the next step. An error may arise in a byte at that time (the free value
`Config.upset`, log 120); a second one in a byte makes it one that its code cannot correct (R339, log 120). SUP reads what it uses of its RAM (log 120). A
restart that waited for a handover which can no longer come is made in a module that has left service (log 157). Nothing else changes, but for a standby
that has seen the partner's claim released for more than 10 µs at that time (R293, R296; PairLineRows says what it does, log 111). -/
def Obligations.IdleStep : Prop :=
  ∀ s : State, s.pending = [] →
    let gained : Int := s.ring.rateAcc + 1000 * s.ring.ratePpb
    let now := ((s.now : Int) + 1000 + gained / 1000000000).toNat
    (∀ u, s.pair.releaseAt = some u → now ≤ u + 10000) →
    let t := { s with now := now, ring := { s.ring with rateAcc := (gained % 1000000000).toNat } }
    let u := match Config.upset t.now with
      | some x =>
        if t.upsets.any x.sameByte then
          { t with upsets := t.upsets.map fun v => if x.sameByte v then { v with multi := true, hard := v.hard || x.hard } else v }
        else { t with upsets := t.upsets ++ [{ x with rested := none }] }
      | none => t
    step s = .next u.supTick.restartIfLeft ∧ (u.upsets = [] → (∀ x ∈ u.sup.ramPoison, x.2 = false) → u.supTick = u) ∧
      (s.power.restart = none ∨ s.service ≠ .outOfService → u.supTick.restartIfLeft = u.supTick)

/-- R47, R79, R336, R393 to R395: a new module waits for its supply with nothing stored: no command waits, no cycle has been committed, no bank holds
an image, no slot a key, every total stands at 0, and the Town Square lists nothing and stands in its canonical form. That a module at reset has never
had a valid supply, with service off, is the model's choice (log 17), and so is that the Town Square's bytes and marks, where nothing is listed, read 0
and clean (log 7). -/
def Obligations.ResetState : Prop :=
  State.reset.pending = [] ∧ State.reset.service = .off ∧ State.reset.mram.fresh = true ∧ State.reset.square.last = 0 ∧
    (∀ b, (State.reset.bank b).state = .empty) ∧ State.reset.keysEmpty = true ∧ (∀ t, (State.reset.total t).value = 0) ∧
    State.reset.mram.forces = [] ∧ State.reset.square.mem = [] ∧ State.reset.square.poison = [] ∧ State.reset.squareWf = true

/-- R42, R43, R47, R58: the checks of acceptance change nothing but what SUP keeps of its origins and, in MRAM, the last accepted sequence numbers,
and a request that they turn away has no further effect; a packet whose format is wrong, that names another module, or whose HMAC does not hold is
dropped without an answer; one that passes the first checks with an opcode of no row is answered BAD_OPCODE; one of a known opcode that comes as UNKNOWN_OPCODE and that its row's
checks turn away is treated as its row says (the model's reading, log 35). SEQ counts as accepted once check 5 has passed, also where a later check
turns the packet away (the model's choice, log 88). -/
def Obligations.PacketsTurnedAway : Prop :=
  (∀ (s : State) (p : Packet) (d : CmdDesc) (known : Bool), ∃ (x : Sup) (h : Tab (BitVec 32)),
      (s.accept p d known).1 = { s with sup := x, mram := { s.mram with hStored := h } } ∧
        (∀ run, p.opcode = d.code → (s.accept p d true).2 = none → s.command p d run = .next (s.accept p d true).1)) ∧
  (∀ (s : State) (p : Packet) (d : CmdDesc),
      (s.supAnswers = true → s.portDown p.port = false →
        (p.formatOk = false → s.accept p d true = (s.countFormat, none)) ∧
        (p.formatOk = true → s.selected p = false → s.accept p d true = (s, none)) ∧
        (p.formatOk = true → s.selected p = true → p.lengthOk = true → s.authorise p = none → s.accept p d true = (s.countAuth, none))) ∧
      (∀ (q : Request) (t : State) (roles : BitVec 4), packetRow p = none → s.supAnswers = true → s.portDown p.port = false → p.formatOk = true →
        s.selected p = true → p.lengthOk = true → p.opcode ≠ opEnumerate → s.authorise p = some roles →
        (s.replayOf p.origin p.slot).admits p.seq = true → (s.acceptSeq p).collect p { p.ctx 2 roles with gen := s.sup.gen } = (t, some q) →
        exec (.unknownOpcode p) s = .next (t.refuse { p.ctx 2 roles with gen := s.sup.gen } .badOpcode)) ∧
      (packetRow p = some d → (s.accept p d true).2 = none → exec (.unknownOpcode p) s = .next (s.accept p d true).1))

/-- R47: a sequence number above the highest accepted one is admitted, and so is one at most 63 below it that has not been accepted before; of numbers
that come to a pair of ORIGIN and KEYSLOT without history in any order, each that is not 0 and not too low is admitted once. A sequence number that is 0,
was accepted before, or lies more than 63 below the highest accepted one is not admitted; acceptance raises H to the number where it is the highest, and
says nothing of any other number; a packet whose number is not admitted is answered REPLAY with H and has no other effect. -/
def Obligations.ReplayWindow : Prop :=
  (∀ (r : Replay) (q : BitVec 32),
    (r.admits 0 = false) ∧ (r.admits q = true → (r.accept q).admits q = false) ∧
    (q.toNat + 63 < r.h.toNat → r.admits q = false) ∧ (r.admits q = true → (r.accept q).h.toNat = max r.h.toNat q.toNat) ∧
    (r.h < q → r.admits q = true) ∧
    (∀ x : BitVec 32, r.admits q = true → x ≠ 0 → x ≠ q → r.h.toNat ≤ x.toNat + 63 → q.toNat ≤ x.toNat + 63 → (r.accept q).admits x = r.admits x)) ∧
  (∀ (l : List (BitVec 32)) (q : BitVec 32),
    let r := l.foldl (fun (r : Replay) x => if r.admits x then r.accept x else r) {}
    r.admits q = true ↔ q ≠ 0 ∧ q ∉ l ∧ ∀ x ∈ l, x.toNat ≤ q.toNat + 63) ∧
  (∀ (s : State) (p : Packet) (d : CmdDesc) (roles : BitVec 4),
    let r := s.replayOf p.origin p.slot
    s.supAnswers = true → s.portDown p.port = false → p.formatOk = true → s.selected p = true → p.lengthOk = true → s.authorise p = some roles →
    d.code ≠ opEnumerate → r.admits p.seq = false →
    s.accept p d true = (s.replyReplay { p.ctx d.cls roles with gen := s.sup.gen } r.h, none))

/-! ## Instructions of the logic engines -/

/-- R116, R117 (and R131 for the poison flags): ADD, SUB, MUL, NEG and DIV take the exact result, saturated, into WA, clear OVF or set it with OVS, and
leave WB as it is; REM never overflows; a division by zero gives the value of R117, sets OVF and OVS, counts in DIV_ZERO and still takes 18 clocks.
The clocks of each include its wait for the WA of a load (R115, log 14). -/
def Obligations.ArithmeticSaturates : Prop :=
  ∀ (s : State) (e : Fin 4),
    (s.fallsThrough (.add e) = true → exec (.add e) s = .next ((s.advance e 1 (s.clocksOf (.add e) e 1)).modEngine e fun x =>
      saturated x (sInt x.wb + sInt x.wa) (x.waP || x.wbP))) ∧
    (s.fallsThrough (.sub e) = true → exec (.sub e) s = .next ((s.advance e 1 (s.clocksOf (.sub e) e 1)).modEngine e fun x =>
      saturated x (sInt x.wb - sInt x.wa) (x.waP || x.wbP))) ∧
    (s.fallsThrough (.mul e) = true → exec (.mul e) s = .next ((s.advance e 1 (s.clocksOf (.mul e) e 2)).modEngine e fun x =>
      saturated x (sInt x.wb * sInt x.wa) (x.waP || x.wbP))) ∧
    (s.fallsThrough (.neg e) = true → exec (.neg e) s = .next ((s.advance e 1 (s.clocksOf (.neg e) e 1)).modEngine e fun x =>
      saturated x (-sInt x.wa) x.waP)) ∧
    (s.fallsThrough (.div e) = true → exec (.div e) s = .next ((s.advance e 1 (s.clocksOf (.div e) e 18)).modEngine e fun x =>
      if x.wa = 0 then
        { x with ovf := true, ovs := true, divZero := satInc x.divZero, waP := x.waP || x.wbP
                 wa := if sInt x.wb = 0 then 0 else if 0 < sInt x.wb then 0x7FFFFFFF else 0x80000000 }
      else saturated x (Int.tdiv (sInt x.wb) (sInt x.wa)) (x.waP || x.wbP))) ∧
    (s.fallsThrough (.rem e) = true → exec (.rem e) s = .next ((s.advance e 1 (s.clocksOf (.rem e) e 18)).modEngine e fun x =>
      if x.wa = 0 then
        { x with ovf := true, ovs := true, divZero := satInc x.divZero, waP := x.waP || x.wbP, wa := 0 }
      else saturated x (Int.tmod (sInt x.wb) (sInt x.wa)) (x.waP || x.wbP)))

/-- R118, R131: a comparison takes WB and WA as signed words and is combined into CB by AND. Its clocks include its wait for the WA of a load (R115,
log 14). -/
def Obligations.ComparisonResult : Prop :=
  ∀ (s : State) (e : Fin 4),
    (s.fallsThrough (.eq_ e) = true → exec (.eq_ e) s = .next ((s.advance e 1 (s.clocksOf (.eq_ e) e 1)).modEngine e fun x =>
      combined x and (decide (sInt x.wb = sInt x.wa)) (x.waP || x.wbP))) ∧
    (s.fallsThrough (.ne_ e) = true → exec (.ne_ e) s = .next ((s.advance e 1 (s.clocksOf (.ne_ e) e 1)).modEngine e fun x =>
      combined x and (decide (sInt x.wb ≠ sInt x.wa)) (x.waP || x.wbP))) ∧
    (s.fallsThrough (.gt_ e) = true → exec (.gt_ e) s = .next ((s.advance e 1 (s.clocksOf (.gt_ e) e 1)).modEngine e fun x =>
      combined x and (decide (sInt x.wa < sInt x.wb)) (x.waP || x.wbP))) ∧
    (s.fallsThrough (.ge_ e) = true → exec (.ge_ e) s = .next ((s.advance e 1 (s.clocksOf (.ge_ e) e 1)).modEngine e fun x =>
      combined x and (decide (sInt x.wa ≤ sInt x.wb)) (x.waP || x.wbP))) ∧
    (s.fallsThrough (.lt_ e) = true → exec (.lt_ e) s = .next ((s.advance e 1 (s.clocksOf (.lt_ e) e 1)).modEngine e fun x =>
      combined x and (decide (sInt x.wb < sInt x.wa)) (x.waP || x.wbP))) ∧
    (s.fallsThrough (.le_ e) = true → exec (.le_ e) s = .next ((s.advance e 1 (s.clocksOf (.le_ e) e 1)).modEngine e fun x =>
      combined x and (decide (sInt x.wb ≤ sInt x.wa)) (x.waP || x.wbP)))

/-- R111, R114, R131 (and R115 for the clocks: a bit under way to a CB that is loaded anew is not waited for): LD and LDN load CB; AND, OR and XOR and their negated forms load it in a new chain and combine in an open one; NOP does
nothing but pass; INV, CBSET and CBCLR set CB, and CBSET and CBCLR open a chain with a clean value. -/
def Obligations.BitLogicResult : Prop :=
  ∀ (s : State) (e : Fin 4),
    (∀ (o : Operand) (v p : Bool), s.readBit e o = some (v, p) →
      let read := fun (i : Instr) (f : Engine → Engine) =>
        ((s.advance e (bitClocks o) (s.clocksOf i e (bitClocks o))).modEngine e f).loadBit e o.area (bitClocks o)
      (s.fallsThrough (.ld e o) = true → exec (.ld e o) s = .next (read (.ld e o) fun x =>
        { x with cb := v, cbP := p, chs := false, bitAt := 0 })) ∧
      (s.fallsThrough (.ldn e o) = true → exec (.ldn e o) s = .next (read (.ldn e o) fun x =>
        { x with cb := !v, cbP := p, chs := false, bitAt := 0 })) ∧
      (s.fallsThrough (.and_ e o) = true → exec (.and_ e o) s = .next (read (.and_ e o) fun x =>
        combined x and v p)) ∧
      (s.fallsThrough (.andn e o) = true → exec (.andn e o) s = .next (read (.andn e o) fun x =>
        combined x and (!v) p)) ∧
      (s.fallsThrough (.or_ e o) = true → exec (.or_ e o) s = .next (read (.or_ e o) fun x =>
        combined x or v p)) ∧
      (s.fallsThrough (.orn e o) = true → exec (.orn e o) s = .next (read (.orn e o) fun x =>
        combined x or (!v) p)) ∧
      (s.fallsThrough (.xor_ e o) = true → exec (.xor_ e o) s = .next (read (.xor_ e o) fun x =>
        combined x Bool.xor v p)) ∧
      (s.fallsThrough (.xorn e o) = true → exec (.xorn e o) s = .next (read (.xorn e o) fun x =>
        combined x Bool.xor (!v) p))) ∧
    (s.fallsThrough (.nop e) = true → exec (.nop e) s = .next ((s.advance e 1 (s.clocksOf (.nop e) e 1)).modEngine e id)) ∧
    (s.fallsThrough (.inv e) = true → exec (.inv e) s = .next ((s.advance e 1 (s.clocksOf (.inv e) e 1)).modEngine e fun x => { x with cb := !x.cb })) ∧
    (s.fallsThrough (.cbset e) = true → exec (.cbset e) s = .next ((s.advance e 1 (s.clocksOf (.cbset e) e 1)).modEngine e fun x =>
      { x with cb := true, cbP := false, chs := false, bitAt := 0 })) ∧
    (s.fallsThrough (.cbclr e) = true → exec (.cbclr e) s = .next ((s.advance e 1 (s.clocksOf (.cbclr e) e 1)).modEngine e fun x =>
      { x with cb := false, cbP := false, chs := false, bitAt := 0 }))

/-- R111, R114, R131: OUT writes CB with its mark, SETB and CLRB write their value when CB = 1, into the one bit of the working copy that the
operand names; each ends the chain. R86, R97, R135: OUT, and SETB and CLRB with CB = 1 or poisoned, to a forced word are discarded; to a word of another
engine they are discarded, counted and recorded; in an area that they may not write all three are a program fault of KIND 07h. R28, R29, R115: a store
for which the engine holds the credits of its crossing, with no message of Class 0 or 1 waiting before it, adds no clocks; else it is counted and adds a
number that is free (log 14).
Nothing else of the module changes. -/
def Obligations.BitStoreResult : Prop :=
  (∀ (s : State) (e : Fin 4) (o : Operand) (a : Nat), s.bitLands e o a →
      let x := s.engine e
      let b := (Operand.place o).2
      let n := bitClocks o
      let done := fun (i : Instr) (q : Square) => ((s.advance e n (s.clocksOf i e n)).withSquare q).modEngine e fun x => { x with chs := true }
      (s.fallsThrough (.out e o) = true → exec (.out e o) s = .next ((done (.out e o) (s.square.putBit a b x.cb x.cbP)).posted e)) ∧
      (s.fallsThrough (.setb e o) = true → x.cbP = false →
        exec (.setb e o) s = .next (if x.cb then (done (.setb e o) (s.square.putBit a b true false)).posted e else done (.setb e o) s.square)) ∧
      (s.fallsThrough (.clrb e o) = true → x.cbP = false →
        exec (.clrb e o) s = .next (if x.cb then (done (.clrb e o) (s.square.putBit a b false false)).posted e else done (.clrb e o) s.square))) ∧
  (∀ (s : State) (e : Fin 4) (o : Operand) (i : Instr), i = .out e o ∨ i = .setb e o ∨ i = .clrb e o → s.fallsThrough i = true →
      let w := (Operand.place o).1
      let n := bitClocks o
      let t := s.advance e n (s.clocksOf i e n)
      let ended := fun (u : State) => u.modEngine e fun x => { x with chs := true }
      let stores := i = .out e o ∨ (s.engine e).cb = true ∨ (s.engine e).cbP = true
      ((mayWriteBit o.area w && (s.wordAddr .work o.area w).isSome) = false → exec i s = .next (s.programFault e 7 (s.pcOf e))) ∧
      ((mayWriteBit o.area w && (s.wordAddr .work o.area w).isSome) = true → (s.forceOn o.area w).isSome = true →
        (stores → exec i s = .next ((ended t).posted e)) ∧ (¬ stores → exec i s = .next (ended t))) ∧
      ((mayWriteBit o.area w && (s.wordAddr .work o.area w).isSome) = true → s.forceOn o.area w = none → s.owner o.area w ≠ some e →
        (stores → exec i s = .next ((ended (t.ownershipFault e o.area w)).posted e)) ∧ (¬ stores → exec i s = .next (ended t)))) ∧
  (∀ (s : State) (e : Fin 4), let x := s.crossing (crossingId e 6)
      let free := 32 - slotsOf x.queued - x.returning
      let before := ∃ m ∈ x.waiting, m.cls ≤ 1
      (3 ≤ free → ¬ before → s.posted e = s) ∧
      (free < 3 ∨ before → s.posted e = { (s.modEngine e fun x => { x with clocks := x.clocks + BitVec.ofNat 32 (Config.storeWait s.freeCount) }).modIsland e
        fun i => { i with stalls := satInc i.stalls } with freeCount := s.freeCount + 1 }))

/-- R112 (and R135 for the overflow): an opening bracket keeps CB and the pending operation, LOAD at the start of a chain; a closing one combines them with CB. An opening
one on a full stack is a program fault of KIND 03h, a closing one on an empty stack one of KIND 04h. -/
def Obligations.BracketResult : Prop :=
  ∀ (s : State) (e : Fin 4),
    let opened := fun (i : Instr) (op : NestOp) => (s.advance e 1 (s.clocksOf i e 1)).modEngine e fun x =>
      { x with nest := { cb := x.cb, cbP := x.cbP, op := if x.chs then .load else op } :: x.nest, chs := true }
    ((s.engine e).nest.length < 16 →
      (s.fallsThrough (.andOpen e) = true → exec (.andOpen e) s = .next (opened (.andOpen e) .and_)) ∧
      (s.fallsThrough (.andnOpen e) = true → exec (.andnOpen e) s = .next (opened (.andnOpen e) .andn)) ∧
      (s.fallsThrough (.orOpen e) = true → exec (.orOpen e) s = .next (opened (.orOpen e) .or_)) ∧
      (s.fallsThrough (.ornOpen e) = true → exec (.ornOpen e) s = .next (opened (.ornOpen e) .orn)) ∧
      (s.fallsThrough (.xorOpen e) = true → exec (.xorOpen e) s = .next (opened (.xorOpen e) .xor_)) ∧
      (s.fallsThrough (.xornOpen e) = true → exec (.xornOpen e) s = .next (opened (.xornOpen e) .xorn))) ∧
    (16 ≤ (s.engine e).nest.length → ∀ i : Instr, i = .andOpen e ∨ i = .andnOpen e ∨ i = .orOpen e ∨ i = .ornOpen e ∨ i = .xorOpen e ∨ i = .xornOpen e →
      s.fallsThrough i = true → exec i s = .next (s.programFault e 3 (s.pcOf e))) ∧
    ((s.engine e).nest = [] → s.fallsThrough (.closeBracket e) = true → exec (.closeBracket e) s = .next (s.programFault e 4 (s.pcOf e))) ∧
    (∀ (y : Nest) (l : List Nest), (s.engine e).nest = y :: l → s.fallsThrough (.closeBracket e) = true →
      exec (.closeBracket e) s = .next ((s.advance e 1 (s.clocksOf (.closeBracket e) e 1)).modEngine e fun x =>
        { x with nest := l, chs := false, cbP := if y.op = .load then x.cbP else y.cbP || x.cbP
                 cb := match y.op with
                   | .load => x.cb
                   | .and_ => y.cb && x.cb
                   | .andn => y.cb && !x.cb
                   | .or_ => y.cb || x.cb
                   | .orn => y.cb || !x.cb
                   | .xor_ => Bool.xor y.cb x.cb
                   | .xorn => Bool.xor y.cb (!x.cb) }))

/-- R121, R132: an edge instruction combines "the bit has risen" (or fallen) since the edge bit was last written into the chain, and writes
the bit to its edge bit, a word of the engine's own. In a cycle that preloads the edge bit no edge is seen (R101). -/
def Obligations.EdgeResult : Prop :=
  ∀ (s : State) (e : Fin 4) (o : EdgeOperand) (a : Nat) (v p old oldP : Bool), s.readBit e o.op = some (v, p) →
    s.readBit e ⟨.E, o.edge, 0⟩ = some (old, oldP) → s.wordAddr .work .E (o.edge.toNat / 32) = some a →
    s.forceOn .E (o.edge.toNat / 32) = none → s.owner .E (o.edge.toNat / 32) = some e →
    let n := o.edge.toNat
    let rise := !s.preloads n && (v && !old)
    let fall := !s.preloads n && (!v && old)
    let done := fun (i : Instr) (op : Bool → Bool → Bool) (hit : Bool) =>
      ((((s.advance e 2 (s.clocksOf i e 2)).modEngine e fun x => combined x op hit (p || oldP)).loadBit e o.op.area 2).withSquare
        (s.square.putBit a (n % 32) v p)).posted e
    (s.fallsThrough (.andr e o) = true → exec (.andr e o) s = .next (done (.andr e o) and rise)) ∧
    (s.fallsThrough (.andf e o) = true → exec (.andf e o) s = .next (done (.andf e o) and fall)) ∧
    (s.fallsThrough (.orr e o) = true → exec (.orr e o) s = .next (done (.orr e o) or rise)) ∧
    (s.fallsThrough (.orf e o) = true → exec (.orf e o) s = .next (done (.orf e o) or fall))

/-- R123, R107: TON, TOF and TP configure the timer from their extension word and evaluate it against the freeze instant; a change of OUTPUT that only
elapsing brings about, a rise of TON's and a fall of TOF's or TP's, is noted for the timer slots (R149); TCLR with CB = 1
clears it, and with a clean CB it acts so whatever the mark of WA (the model's reading of R132 for a timer that takes its preset from WA, log 135). Each ends the chain and touches no other timer; one that takes its preset from WA waits for the WA of a load (R115, log 14). -/
def Obligations.TimerResult : Prop :=
  ∀ (s : State) (e : Fin 4) (n : Nat), n < 4096 → s.forceOn .T (4 * n) = none → s.owner .T (4 * n) = some e → (s.engine e).cbP = false →
    let f := s.square.freezeAt
    let c := s.square.current
    let x := s.engine e
    let y := s.timer n
    let done := fun (i : Instr) (k : Nat) (t : Timer) => ((s.advance e k (s.clocksOf i e k)).setTimer n t).modEngine e fun x => { x with chs := true }
    (∀ o : TimerOperand, o.timer.toNat = n → (o.presetWa = true → x.waP = false) →
      let z := fun (kind : BitVec 2) => { y with kind := kind, res := o.res, retain := o.retain, poisoned := false, lastInput := x.cb
                                                 presetP := false, elapsedP := false, preset := if o.presetWa then x.wa.truncate 16 else o.preset }
      let reached := fun (kind : BitVec 2) => decide (((z kind).preset.toNat * resolutionNs o.res : Int) ≤ (f : Int) - y.start)
      let rises := fun (t : Timer) => if !y.outputAt f && t.outputAt f then { t with lapsed := some f } else t
      let falls := fun (t : Timer) => if y.outputAt f && !t.outputAt f then { t with lapsed := some f } else t
      (s.fallsThrough (.ton e o) = true → exec (.ton e o) s = .next (done (.ton e o) 2 (rises <|
        if !x.cb then { z 1 with running := false, output := false, elapsed := 0 }
        else if y.running then z 1
        else { z 1 with running := true, output := false, start := f, startCycle := c, startP := false }))) ∧
      (s.fallsThrough (.tof e o) = true → exec (.tof e o) s = .next (done (.tof e o) 2 (falls <|
        if x.cb then { z 2 with running := false, output := true, elapsed := 0 }
        else if y.running then
          (if reached 2 then { z 2 with running := false, output := false, elapsed := (z 2).elapsedAt f } else z 2)
        else if y.lastInput then { z 2 with running := true, output := false, start := f, startCycle := c, startP := false }
        else { z 2 with output := false }))) ∧
      (s.fallsThrough (.tp e o) = true → exec (.tp e o) s = .next (done (.tp e o) 2 (falls <|
        if y.running then
          (if reached 3 then { z 3 with running := false, output := false, elapsed := (z 3).elapsedAt f } else z 3)
        else if x.cb && !y.lastInput then { z 3 with running := true, output := false, start := f, startCycle := c, startP := false }
        else { z 3 with output := false })))) ∧
    (∀ k : BitVec 20, k.toNat = n → s.fallsThrough (.tclr e k) = true → exec (.tclr e k) s = .next (done (.tclr e k) 1 (
      if x.cb then { y with running := false, output := false, elapsed := 0, lastInput := false, poisoned := false, elapsedP := false }
      else { y with poisoned := false, elapsedP := false })))

/-- R126, R127: CUP and CDN count by one on a rising CB and stop at the limits of a signed word, which sets SATURATED, OVF and OVS; CLD and
CCLR with CB = 1 load WA or 0 and clear SATURATED. Each ends the chain and touches no other counter; CLD waits for the WA of a load (R115, log 14). -/
def Obligations.CounterResult : Prop :=
  ∀ (s : State) (e : Fin 4) (n : BitVec 20), n.toNat < 4096 → s.forceOn .C (2 * n.toNat) = none → s.owner .C (2 * n.toNat) = some e →
    (s.engine e).cbP = false →
    let x := s.engine e
    let y := s.counter n.toNat
    let step := fun (edge : Bool) (d : Int) =>
      if !edge then y
      else if sInt y.value + d < int32Min ∨ int32Max < sInt y.value + d then { y with saturated := true }
      else { y with value := ofI (sInt y.value + d) }
    let stop := fun (edge : Bool) (d : Int) => edge && decide (sInt y.value + d < int32Min ∨ int32Max < sInt y.value + d)
    let done := fun (i : Instr) (c : Counter) (o : Bool) => ((((s.advance e 1 (s.clocksOf i e 1)).setCounter n.toNat c).modEngine e fun x =>
      if o then { x with ovf := true, ovs := true } else x).modEngine e fun x => { x with chs := true })
    let up := x.cb && !y.upMem
    let down := x.cb && !y.downMem
    (s.fallsThrough (.cup e n) = true → exec (.cup e n) s = .next (done (.cup e n) { step up 1 with upMem := x.cb } (stop up 1))) ∧
    (s.fallsThrough (.cdn e n) = true → exec (.cdn e n) s = .next (done (.cdn e n) { step down (-1) with downMem := x.cb } (stop down (-1)))) ∧
    (s.fallsThrough (.cld e n) = true → (x.cb = true → x.waP = false) → exec (.cld e n) s = .next (done (.cld e n)
      (if x.cb then { y with value := x.wa, saturated := false, poisoned := false } else y) false)) ∧
    (s.fallsThrough (.cclr e n) = true → exec (.cclr e n) s = .next (done (.cclr e n)
      (if x.cb then { y with value := 0, saturated := false, poisoned := false } else y) false))

/-- R114, R115, R345: LW moves WA to WB and loads WA with the word and its mark, LWI loads the extension word, SWAP exchanges WA and WB. SW and
MOVE write one word of the working copy with its mark, and nothing else of the module changes; at odd offsets of area C they write a counter's PRESET
(R127). R86, R97, R108, R135: a store to a forced word is discarded, to a word of another engine it is discarded, counted and recorded, and to a word
that no instruction may write, or from one that none may read, it is a program fault of KIND 07h. What reads WA waits for a load, and MOVE takes the
larger of 2 and the latency of its read, which is free (log 14). R339, R341, R343: each single-bit error under LW is corrected
and counted, and a word that fails the check after its write-back is remapped (R348); an uncorrectable byte delivers the word with a mark, counts in
POISONED, fires source 392 + 2 and locks the page with a MEM_UNCORRECTABLE record. -/
def Obligations.WordAccessResult : Prop :=
  (∀ (s : State) (e : Fin 4),
      (∀ (o : Operand) (w : Word) (p : Bool), s.readWord e o.area o.offset.toNat = some (w, p) → s.fallsThrough (.lw e o .clean) = true →
        exec (.lw e o .clean) s = .next (((s.advance e 1 (s.clocksOf (.lw e o .clean) e 1)).modEngine e fun x => { x with wb := x.wa, wbP := x.waP, wa := w, waP := p }).load e)) ∧
      (∀ imm : Word, s.fallsThrough (.lwi e imm) = true →
        exec (.lwi e imm) s = .next ((s.advance e 2 (s.clocksOf (.lwi e imm) e 2)).modEngine e fun x => { x with wb := x.wa, wbP := x.waP, wa := imm, waP := false })) ∧
      (s.fallsThrough (.swap e) = true →
        exec (.swap e) s = .next ((s.advance e 1 (s.clocksOf (.swap e) e 1)).modEngine e fun x => { x with wa := x.wb, waP := x.wbP, wb := x.wa, wbP := x.waP })) ∧
      (∀ (o : Operand) (a : Nat), s.wordLands e o.area o.offset.toNat a → s.fallsThrough (.sw e o .clean) = true →
        exec (.sw e o .clean) s = .next (((s.advance e 1 (s.clocksOf (.sw e o .clean) e 1)).withSquare (s.square.put a (s.engine e).wa (s.engine e).waP)).posted e)) ∧
      (∀ (dst : Operand), let w := if bitArea dst.area then dst.offset.toNat / 32 else dst.offset.toNat
        let n := dst.offset.toNat
        let sw := s.advance e 1 (s.clocksOf (.sw e dst .clean) e 1)
        let x := s.engine e
        s.fallsThrough (.sw e dst .clean) = true →
        (s.mayStore dst.area n = false → exec (.sw e dst .clean) s = .next (s.programFault e 7 (s.pcOf e))) ∧
        (s.mayStore dst.area n = true → (s.forceOn dst.area w).isSome = true → exec (.sw e dst .clean) s = .next (sw.posted e)) ∧
        (s.mayStore dst.area n = true → s.forceOn dst.area w = none → s.owner dst.area w ≠ some e →
          exec (.sw e dst .clean) s = .next ((sw.ownershipFault e dst.area w).posted e)) ∧
        (s.mayStore dst.area n = true → dst.area = .C → s.forceOn .C n = none → s.owner .C n = some e →
          exec (.sw e dst .clean) s = .next ((sw.setCounter (n / 2) { s.counter (n / 2) with preset := x.wa.truncate 29, presetP := x.waP }).posted e))) ∧
      (∀ (src dst : Operand), (s.engine e).moved = none → s.fallsThrough (.move e src dst) = true →
        let w := if bitArea dst.area then dst.offset.toNat / 32 else dst.offset.toNat
        let n := dst.offset.toNat
        let t := (((s.advance e 2 (s.clocksOf (.move e src dst) e 2)).busy e (Config.readLatency s.freeCount - 2)).draw).posted e
        let done := fun (u : State) => exec (.move e src dst) s = .next (u.modEngine e fun x => { x with moved := none })
        (s.readWord e src.area src.offset.toNat = none → exec (.move e src dst) s = .next (s.programFault e 7 (s.pcOf e))) ∧
        (∀ (v : Word) (p : Bool), s.readWord e src.area src.offset.toNat = some (v, p) →
          (∀ a : Nat, s.wordLands e dst.area n a → done (t.withSquare (s.square.put a v p))) ∧
          (s.mayStore dst.area n = false → exec (.move e src dst) s = .next (s.programFault e 7 (s.pcOf e))) ∧
          (s.mayStore dst.area n = true → (s.forceOn dst.area w).isSome = true → done t) ∧
          (s.mayStore dst.area n = true → s.forceOn dst.area w = none → s.owner dst.area w ≠ some e → done (t.ownershipFault e dst.area w)) ∧
          (s.mayStore dst.area n = true → dst.area = .C → s.forceOn .C n = none → s.owner .C n = some e →
            done (t.setCounter (n / 2) { s.counter (n / 2) with preset := v.truncate 29, presetP := p }))))) ∧
  (∀ (s : State) (e : Fin 4) (o : Operand) (w : Word) (p : Bool), s.readWord e o.area o.offset.toNat = some (w, p) → o.area ≠ .Z →
      let at_ := s.operandAddr e o.area o.offset.toNat
      let load := fun (t : State) (q : Bool) => (t.modEngine e fun x => { x with wb := x.wa, wbP := x.waP, wa := w, waP := q }).load e
      let passed := fun (v : Verdict) => s.advance e 1 (s.clocksOf (.lw e o v) e 1)
      (∀ n h, s.fallsThrough (.lw e o (.corrected n h)) = true →
        let t := (passed (.corrected n h)).corrections 2 n
        exec (.lw e o (.corrected n h)) s = .next (load (if h then t.remapWord 2 (wordOf at_) else t) p)) ∧
      (∀ n, s.fallsThrough (.lw e o (.uncorrectable n)) = true →
        exec (.lw e o (.uncorrectable n)) s = .next (load (((((passed (.uncorrectable n)).corrections 2 n).modArr 2 fun x =>
          { x with poisoned := satInc x.poisoned }).fireSource 394).startRepair 2 at_) true)))

/-- R128 (and R86, R97 for each word): BMOVE moves WA words in ascending order when WA is 1 to 4,096 and both ranges lie inside their areas, in 1 + n
clocks and the latency of its read (R115, log 14); otherwise it moves nothing and sets OVF and OVS. Word i of the destination takes what word i of the
source holds with its mark, or, where that word has been written by the same move before, what stood there then; a forced word keeps its contents, and
a word of another engine keeps them with an ownership fault. Nothing else of the Town Square changes. -/
def Obligations.BlockMoveResult : Prop :=
  ∀ (s : State) (e : Fin 4) (src dst : Operand), s.fallsThrough (.bmove e src dst) = true → (s.engine e).waP = false →
    mayReadWords src.area = true → mayWriteWords dst.area = true →
    let k := sInt (s.engine e).wa
    let bad := k < 1 ∨ 4096 < k ∨ s.rangeInside src k.toNat = false ∨ s.rangeInside dst k.toNat = false
    (bad → exec (.bmove e src dst) s = .next ((s.advance e 2 (s.clocksOf (.bmove e src dst) e 2)).modEngine e fun x => { x with ovf := true, ovs := true })) ∧
    (¬ bad → (s.engine e).moved = none → ∀ (a : Nat → Nat) (v : Nat → Word × Bool),
      let word := fun (i : Nat) => if bitArea dst.area then Operand.plus dst i / 32 else Operand.plus dst i
      let from_ := fun (i : Nat) => s.operandAddr e src.area (Operand.plus src i)
      (∀ i < k.toNat, dst.area ≠ .C ∧ s.mayStore dst.area (Operand.plus dst i) = true ∧ s.wordAddr .work dst.area (word i) = some (a i)) →
      (∀ i < k.toNat, ∃ x, s.readWord e src.area (Operand.plus src i) = some x ∧ ((∀ j < i, from_ i ≠ a j) → v i = x)) →
      (∀ i < k.toNat, ∀ j < i, a j + 4 ≤ a i ∧ (from_ i + 4 ≤ a j ∨ a j + 4 ≤ from_ i ∨
        (from_ i = a j ∧ src.area = dst.area ∧ s.forceOn dst.area (word j) = none ∧ s.owner dst.area (word j) = some e ∧ v i = v j))) →
      let moved := fun (u : State) (i : Nat) =>
        if (s.forceOn dst.area (word i)).isSome then u
        else if s.owner dst.area (word i) = some e then u.withSquare (u.square.put (a i) (v i).1 (v i).2)
        else u.ownershipFault e dst.area (word i)
      let t := ((s.advance e 2 (s.clocksOf (.bmove e src dst) e 2)).busy e (k.toNat + Config.readLatency s.freeCount - 1)).draw.posted e
      exec (.bmove e src dst) s = .next (((List.range k.toNat).foldl moved t).modEngine e fun x => { x with moved := none }))

/-- R119, R135: a jump taken sets PC to its target inside the block and costs one more clock; JT, JF end the chain, JOVS clears OVS; a target
outside the block of a jump that is taken, of any of the five, is a program fault of KIND 06h. -/
def Obligations.JumpResult : Prop :=
  ∀ (s : State) (e : Fin 4) (t : BitVec 20),
    let x := s.engine e
    let a := s.pcOf e
    let go := fun (u : State) => u.modEngine e fun x => { x with pc := t.truncate 18, clocks := x.clocks + 1 }
    let one := fun (i : Instr) => s.advance e 1 (s.clocksOf i e 1)
    let ended := fun (i : Instr) => (one i).modEngine e fun x => { x with chs := true }
    (s.inBlock e t.toNat = true →
      (s.issues (.jmp e t) = true → exec (.jmp e t) s = .next (go (one (.jmp e t)))) ∧
      (s.issues (.jt e t) = true → x.cbP = false → x.cb = true → exec (.jt e t) s = .next (go (ended (.jt e t)))) ∧
      (s.issues (.jf e t) = true → x.cbP = false → x.cb = false → exec (.jf e t) s = .next (go (ended (.jf e t)))) ∧
      (s.issues (.jov e t) = true → x.ovf = true → exec (.jov e t) s = .next (go (one (.jov e t)))) ∧
      (s.issues (.jovs e t) = true → x.ovs = true →
        exec (.jovs e t) s = .next (go ((one (.jovs e t)).modEngine e fun x => { x with ovs := false })))) ∧
    (s.inBlock e t.toNat = false →
      let out := fun (i : Instr) => s.issues i = true → exec i s = .next (s.programFault e 6 a)
      out (.jmp e t) ∧ (x.cbP = false → x.cb = true → out (.jt e t)) ∧ (x.cbP = false → x.cb = false → out (.jf e t)) ∧
        (x.ovf = true → out (.jov e t)) ∧ (x.ovs = true → out (.jovs e t))) ∧
    (s.fallsThrough (.jt e t) = true → x.cbP = false → x.cb = false → exec (.jt e t) s = .next (ended (.jt e t))) ∧
    (s.fallsThrough (.jf e t) = true → x.cbP = false → x.cb = true → exec (.jf e t) s = .next (ended (.jf e t))) ∧
    (s.fallsThrough (.jov e t) = true → x.ovf = false → exec (.jov e t) s = .next (one (.jov e t))) ∧
    (s.fallsThrough (.jovs e t) = true → x.ovs = false → exec (.jovs e t) s = .next (one (.jovs e t)))

/-- R120, R135: CALL, and CALLT with CB = 1, keep the return address and the block and go to the called block with a new chain; END and RET of
a called block go back to their caller, which may be an event block, the same way; a call beyond depth 8 is a program fault of KIND 05h, and one of a
block that is missing, belongs to another engine or is an event block is one of KIND 08h, also beyond depth 8 (the model's choice, log 165). R89: END or RET of a block that was not called ends it;
when no event block and no cyclic block is left, the engine has done with this execute. -/
def Obligations.CallAndReturn : Prop :=
  (∀ (s : State) (e : Fin 4) (b : BitVec 20) (k : Block), s.blockOf b.toNat = some k → k.engine = e → k.event = none → 1 ≤ k.length →
      k.first + k.length ≤ 262144 → s.blockOf k.number = some k →
      let x := s.engine e
      let a := s.pcOf e
      let enter := fun (u : State) => u.modEngine e fun x =>
        { x with calls := (x.pc, x.block) :: x.calls, pc := BitVec.ofNat 18 k.first, block := k.number, chs := true, clocks := x.clocks + 2 }
      (x.calls.length < 8 → s.issues (.call e b) = true → exec (.call e b) s = .next (enter (s.advance e 1 (s.clocksOf (.call e b) e 1)))) ∧
      (8 ≤ x.calls.length → s.issues (.call e b) = true → exec (.call e b) s = .next (s.programFault e 5 a)) ∧
      (x.calls.length < 8 → x.cbP = false → x.cb = true → s.issues (.callt e b) = true →
        exec (.callt e b) s = .next (enter ((s.advance e 1 (s.clocksOf (.callt e b) e 1)).modEngine e fun x => { x with chs := true }))) ∧
      (x.cbP = false → x.cb = false → s.fallsThrough (.callt e b) = true →
        exec (.callt e b) s = .next ((s.advance e 1 (s.clocksOf (.callt e b) e 1)).modEngine e fun x => { x with chs := true }))) ∧
  (∀ (s : State) (e : Fin 4) (b : BitVec 20), (∀ k, s.blockOf b.toNat = some k → k.engine ≠ e ∨ k.event.isSome = true) →
      let bad := s.programFault e 8 (s.pcOf e)
      (s.issues (.call e b) = true → exec (.call e b) s = .next bad) ∧
      ((s.engine e).cbP = false → (s.engine e).cb = true → s.issues (.callt e b) = true → exec (.callt e b) s = .next bad)) ∧
  (∀ (s : State) (e : Fin 4) (pc : BitVec 18) (b : Nat) (k : Block) (rest : List (BitVec 18 × Nat)), (s.engine e).calls = (pc, b) :: rest →
      s.blockOf b = some k → k.holds pc.toNat = true →
      let back := fun (u : State) => u.modEngine e fun x => { x with pc := pc, block := b, calls := rest, chs := true }
      (s.issues (.ret e) = true → exec (.ret e) s = .next (back (s.advance e 1 (s.clocksOf (.ret e) e 2)))) ∧
      (s.issues (.end_ e) = true → exec (.end_ e) s = .next (back (s.advance e 1 (s.clocksOf (.end_ e) e 1))))) ∧
  (∀ (s : State) (e : Fin 4), (s.engine e).calls = [] → (s.engine e).serving = [] → (s.engine e).eventLeft = [] →
      (s.engine e).cyclicLeft = [] →
      let done := fun (u : State) => u.modEngine e fun x => { x with running := false, serving := [] }
      (s.issues (.end_ e) = true → ∃ t, exec (.end_ e) s = .next t ∧ t.engine e = (done (s.advance e 1 (s.clocksOf (.end_ e) e 1))).engine e ∧
        t.square = s.square ∧ t.round = s.round) ∧
      (s.issues (.ret e) = true → ∃ t, exec (.ret e) s = .next t ∧ t.engine e = (done (s.advance e 1 (s.clocksOf (.ret e) e 2))).engine e ∧
        t.square = s.square ∧ t.round = s.round))

/-- R129, R132: TOT with CB = 1 adds WA to the increment of a total that the program owns, to be committed with the cycle; beyond 64 bits it is
refused with a record of reason 2, OVF and OVS. -/
def Obligations.TotalIncrement : Prop :=
  ∀ (s : State) (e : Fin 4) (t : BitVec 20), t.toNat < 64 → (s.engine e).cbP = false → s.fallsThrough (.tot e t) = true →
    let x := s.engine e
    let k := t.toNat
    let old := s.square.totIncr.get 0 k
    let u := (s.advance e 1 (s.clocksOf (.tot e t) e 2)).modEngine e fun x => { x with chs := true }
    (x.cb = false → exec (.tot e t) s = .next u) ∧
    (x.cb = true → x.waP = false → s.owner .Z (2 * k) = some e → inRange64 ((s.total k).value + old + sInt x.wa) = true →
      exec (.tot e t) s = .next (u.withSquare { s.square with totIncr := s.square.totIncr.set 0 k (old + sInt x.wa) })) ∧
    (x.cb = true → x.waP = false → s.owner .Z (2 * k) = some e → inRange64 ((s.total k).value + old + sInt x.wa) = false →
      exec (.tot e t) s = .next ((u.raiseFrom e .totRefused (totRefusedValue 2 k)).modEngine e fun x => { x with ovf := true, ovs := true }))

/-- R130 (and R132, R133, R137): SEV with CB = 1 fires its source at once, as an occurrence would; with CB = 0 it does nothing; a poisoned CB fires it and
is consumed; a reserved source never fires. -/
def Obligations.SourceFiring : Prop :=
  ∀ (s : State) (e : Fin 4) (n : BitVec 20), n.toNat < 512 → s.fallsThrough (.sev e n) = true →
    let u := (s.advance e 1 (s.clocksOf (.sev e n) e 1)).modEngine e fun x => { x with chs := true }
    let fired := fun (t : State) => if reservedSource n.toNat then t else t.fireNow n.toNat s.now
    ((s.engine e).cbP = false → exec (.sev e n) s = .next (if (s.engine e).cb then fired u else u)) ∧
    ((s.engine e).cbP = true → exec (.sev e n) s = .next ((fired u).consumePoison e (s.pcOf e)))

/-- R114, R135: a reserved opcode in execute is a program fault of KIND 01h, and a reserved area code, in AREA of any opcode or in DAREA of MOVE and BMOVE,
one of KIND 02h. -/
def Obligations.ReservedWordFaults : Prop :=
  ∀ (s : State) (e : Fin 4), s.atIssue e = true → s.codePoison (s.pcOf e) = false → s.quiet = true →
    let w := s.codeWord (s.pcOf e)
    (knownOpcode (opcodeOf w) = false → exec (.reservedOpcode e) s = .next (s.programFault e 1 (s.pcOf e))) ∧
    (knownOpcode (opcodeOf w) = true → areaField w = none → exec (.reservedOpcode e) s = .next (s.programFault e 2 (s.pcOf e))) ∧
    (opcodeOf w = 0x43 ∨ opcodeOf w = 0x44 → (areaField w).isSome = true → s.inBlock e (s.pcOf e + 1) = true →
      areaOf (bits (s.codeWord (s.pcOf e + 1)) 23 20) = none → exec (.reservedOpcode e) s = .next (s.programFault e 2 (s.pcOf e)))

/-- R132, R133: with a poisoned CB, SETB and CLRB keep the bit and mark it; a timer or counter instruction marks its timer or counter and changes
nothing else of it; JT, JF and CALLT are not taken and TOT is not applied, each with a POISON_CONSUMED. With a clean CB and a poisoned WA the same holds
of a timer that takes its preset from WA, of CLD and TOT with CB = 1, and of BMOVE, which moves nothing and sets OVF and OVS. -/
def Obligations.PoisonedInputs : Prop :=
  ∀ (s : State) (e : Fin 4),
    let ended := fun (t : State) => t.modEngine e fun x => { x with chs := true }
    let used := fun (t : State) => t.consumePoison e (s.pcOf e)
    let timer := fun (i : Instr) (k n : Nat) => ended ((s.advance e k (s.clocksOf i e k)).setTimer n { s.timer n with poisoned := true, elapsedP := true })
    let counter := fun (i : Instr) (n : Nat) => ended ((s.advance e 1 (s.clocksOf i e 1)).setCounter n { s.counter n with poisoned := true })
    let refused := fun (t : BitVec 20) =>
      used ((ended (s.advance e 1 (s.clocksOf (.tot e t) e 2))).raiseFrom e .totRefused (totRefusedValue 1 t.toNat))
    let jump := fun (i : Instr) => used (ended (s.advance e 1 (s.clocksOf i e 1)))
    let ownT := fun (n : Nat) => n < 4096 ∧ s.forceOn .T (4 * n) = none ∧ s.owner .T (4 * n) = some e
    let ownC := fun (n : Nat) => n < 4096 ∧ s.forceOn .C (2 * n) = none ∧ s.owner .C (2 * n) = some e
    ((s.engine e).cbP = true →
      (∀ (o : Operand) (a : Nat) (v q : Bool), s.bitLands e o a → s.readBit e o = some (v, q) →
        let kept := fun (i : Instr) =>
          (ended ((s.advance e (bitClocks o) (s.clocksOf i e (bitClocks o))).withSquare (s.square.putBit a (Operand.place o).2 v true))).posted e
        (s.fallsThrough (.setb e o) = true → exec (.setb e o) s = .next (kept (.setb e o))) ∧
        (s.fallsThrough (.clrb e o) = true → exec (.clrb e o) s = .next (kept (.clrb e o)))) ∧
      (∀ o : TimerOperand, ownT o.timer.toNat →
        (s.fallsThrough (.ton e o) = true → exec (.ton e o) s = .next (timer (.ton e o) 2 o.timer.toNat)) ∧
        (s.fallsThrough (.tof e o) = true → exec (.tof e o) s = .next (timer (.tof e o) 2 o.timer.toNat)) ∧
        (s.fallsThrough (.tp e o) = true → exec (.tp e o) s = .next (timer (.tp e o) 2 o.timer.toNat))) ∧
      (∀ n : BitVec 20, ownT n.toNat → s.fallsThrough (.tclr e n) = true → exec (.tclr e n) s = .next (timer (.tclr e n) 1 n.toNat)) ∧
      (∀ n : BitVec 20, ownC n.toNat →
        (s.fallsThrough (.cup e n) = true → exec (.cup e n) s = .next (counter (.cup e n) n.toNat)) ∧
        (s.fallsThrough (.cdn e n) = true → exec (.cdn e n) s = .next (counter (.cdn e n) n.toNat)) ∧
        (s.fallsThrough (.cld e n) = true → exec (.cld e n) s = .next (counter (.cld e n) n.toNat)) ∧
        (s.fallsThrough (.cclr e n) = true → exec (.cclr e n) s = .next (counter (.cclr e n) n.toNat))) ∧
      (∀ t : BitVec 20,
        (s.fallsThrough (.jt e t) = true → exec (.jt e t) s = .next (jump (.jt e t))) ∧
        (s.fallsThrough (.jf e t) = true → exec (.jf e t) s = .next (jump (.jf e t))) ∧
        (s.fallsThrough (.callt e t) = true → exec (.callt e t) s = .next (jump (.callt e t))) ∧
        (t.toNat < 64 → s.fallsThrough (.tot e t) = true → exec (.tot e t) s = .next (refused t)))) ∧
    ((s.engine e).cbP = false → (s.engine e).waP = true →
      (∀ o : TimerOperand, o.presetWa = true → ownT o.timer.toNat →
        (s.fallsThrough (.ton e o) = true → exec (.ton e o) s = .next (timer (.ton e o) 2 o.timer.toNat)) ∧
        (s.fallsThrough (.tof e o) = true → exec (.tof e o) s = .next (timer (.tof e o) 2 o.timer.toNat)) ∧
        (s.fallsThrough (.tp e o) = true → exec (.tp e o) s = .next (timer (.tp e o) 2 o.timer.toNat))) ∧
      (∀ n : BitVec 20, (s.engine e).cb = true → ownC n.toNat → s.fallsThrough (.cld e n) = true →
        exec (.cld e n) s = .next (counter (.cld e n) n.toNat)) ∧
      (∀ t : BitVec 20, (s.engine e).cb = true → t.toNat < 64 → s.fallsThrough (.tot e t) = true → exec (.tot e t) s = .next (refused t)) ∧
      (∀ src dst : Operand, s.fallsThrough (.bmove e src dst) = true → mayReadWords src.area = true → mayWriteWords dst.area = true →
        exec (.bmove e src dst) s = .next (used ((s.advance e 2 (s.clocksOf (.bmove e src dst) e 2)).modEngine e fun x => { x with ovf := true, ovs := true }))))

/-! ## Commands that read -/

/-- R64, R65, R73, R75 (and R420, R421, R422): IDENTIFY, GET_STATUS, POWER_STATUS, THERMAL_STATUS, KEY_STATUS and CYCLE_STATS are answered OK with the fields
of their rows, and change nothing but that a reply is owed. LOGIC_MW is the sum of what the domains draw, none where they are off and within the table's
maxima else, and of the losses, at most 12 W in Side-Street mode; what is drawn and STORE_MV are free readings (log 13), STORE_MV at 44 V or more in full service. -/
def Obligations.ModuleReads : Prop :=
  ∀ (s : State) (p : Packet),
    let t := s.admitted p
    let c := s.ctxOf p
    (s.admits p identifyDesc = true → exec (.identify p) s = .next ((t identifyDesc).reply (c identifyDesc) .ok (wordsBe
      [BitVec.ofNat 32 (s.mram.serial.toNat / 2 ^ 32), BitVec.ofNat 32 s.mram.serial.toNat, mkWord [(31, 16, 0x0CB8), (15, 8, s.mram.variant.toNat), (7, 0, 3)],
       mkWord [(31, 24, 4), (23, 16, (Config.fwMinor s.mram.fwRunning).toNat), (15, 0, (Config.fwBuild s.mram.fwRunning).toNat)],
       mkWord [(15, 15, b2n s.mram.addressed), (9, 0, s.mram.address.toNat)]]))) ∧
    (s.admits p getStatusDesc = true → exec (.getStatus p) s = .next ((t getStatusDesc).reply (c getStatusDesc) .ok
      (toBe 1 s.service.code ++ toBe 1 s.pair.state.code ++ pad 2 ++ toBe 4 s.shownCycle.toNat ++ toBe 4 s.faultedMask))) ∧
    (s.admits p powerStatusDesc = true → exec (.powerStatus p) s = .next ((t powerStatusDesc).reply (c powerStatusDesc) .ok
      (let store := if s.service = .full then max 44000 (Config.liveReading 7 0 s.now).toNat else (Config.liveReading 7 0 s.now).toNat
       let share := fun (d : Nat) => if (s.domain d).state = .off then 0
         else min ([1300, 1600, 400, 400, 400, 2000, 2500, 1400, 3200, 1000, 2000, 600].getD d 0) (Config.powerMw d s.now).toNat
       toBe 2 (satNat 16 s.power.lp1Mv) ++ toBe 2 (satNat 16 s.power.lp2Mv) ++
         toBe 2 (match s.power.store with | some (u, mv) => if u = s.now then satNat 16 mv else store | none => store) ++ pad 2 ++
         toBe 4 (let mw := ((List.range 12).map share).sum + min 5200 (Config.lossMw s.now).toNat
           if s.service = .sideStreet then min 12000 mw else mw)))) ∧
    (s.admits p thermalStatusDesc = true → exec (.thermalStatus p) s = .next ((t thermalStatusDesc).reply (c thermalStatusDesc) .ok
      (toBe 2 (sat16 s.power.board) ++ toBe 2 (sat16 s.power.hottest) ++ toBe 1 s.panel.band ++ toBe 1 s.plate.band ++ pad 2))) ∧
    (s.admits p keyStatusDesc = true → exec (.keyStatus p) s = .next ((t keyStatusDesc).reply (c keyStatusDesc) .ok
      ((List.range 8).flatMap fun n => toBe 1 (s.key n).roles.toNat ++ toBe 1 (b2n (s.key n).installed) ++ pad 2 ++
        if (s.key n).installed then keyCheck (s.key n).key else pad 4))) ∧
    (s.admits p cycleStatsDesc = true → exec (.cycleStats p) s = .next ((t cycleStatsDesc).reply (c cycleStatsDesc) .ok
      (toBe 4 (satNat 32 s.square.lastNs) ++ toBe 4 (satNat 32 s.square.minNs) ++ toBe 4 (satNat 32 s.square.maxNs) ++
        toBe 4 (satNat 32 ((s.cfg 0x101 0).toNat * 1000)))))

/-- R59, R56 (and R20, R136 for the role): READ_OBJECT returns every word as the dictionary shows it, POISONED with a bitmap where one is marked; a word
that no chapter defines, or a reserved byte that is not 0, gives BAD_OBJECT. A key without OBSERVE reads the objects that any role may read, and none
else (log 92). No error stands in a byte of the module, and no page is under repair. -/
def Obligations.ObjectReads : Prop :=
  ∀ (s : State) (p : Packet), s.quiet = true → s.admits p readObjectDesc = true →
    let t := s.admitted p readObjectDesc
    let c := s.ctxOf p readObjectDesc
    let b := s.payloadOf p readObjectDesc
    (∀ l : List (Word × Bool), (objRefs b).map (fun (r : Nat × Nat × Nat) => if r.2.2 = 0 then t.objWord r.1 r.2.1 else none) = l.map some →
      (s.pair.state = .stale → ∀ r ∈ objRefs b, processWord r.1 r.2.1 = false) → (s.totalsForeign = true → ∀ r ∈ objRefs b, totalWord r.1 r.2.1 = false) →
      (c.roles.getLsbD Role.observe.bit = true ∨ ∀ r ∈ objRefs b, anyRole r.1 = true) →
      exec (.readObject p) s = .next (t.replyData c (toBe 2 (be16 b 0) ++ pad 2) l)) ∧
    (c.roles.getLsbD Role.observe.bit = false → (∃ r ∈ objRefs b, anyRole r.1 = false) → exec (.readObject p) s = .next (t.refuse c .notAuthorised)) ∧
    (c.roles.getLsbD Role.observe.bit = true → (∃ r ∈ objRefs b, r.2.2 ≠ 0 ∨ t.objWord r.1 r.2.1 = none) →
      exec (.readObject p) s = .next (t.refuse c .badObject))

/-- R63, R66, R67, R68, R69, R74 (and R209, R231): reads of process data and of totals come from the committed snapshot, CHANNEL_STATUS before the first
apply of full service from what the islands offer, and change nothing but that a reply is owed, where no error stands in a byte of the module and no page is under repair (WordAccessResult and MemoryRows say
what an error brings about). -/
def Obligations.ProcessReads : Prop :=
  ∀ (s : State) (p : Packet), s.quiet = true →
    let t := s.admitted p
    let c := s.ctxOf p
    let b := s.payloadOf p
    (∀ l : List VarRef, s.admits p readVarsDesc = true → s.parseRefs (be16 (b readVarsDesc) 0) ((b readVarsDesc).drop 4) = some l →
      s.hidesTotals (l.flatMap VarRef.items) = false →
      exec (.readVars p) s = .next ((t readVarsDesc).replyData (c readVarsDesc) (toBe 2 (l.flatMap VarRef.items).length ++ pad 2)
        ((l.flatMap VarRef.items).map s.varItem))) ∧
    (∀ n at_ : Nat, s.admits p channelStatusDesc = true → statusKind (byteAt (b channelStatusDesc) 0) = some (n, at_) →
      0 < byteAt (b channelStatusDesc) 2 → byteAt (b channelStatusDesc) 1 + byteAt (b channelStatusDesc) 2 ≤ n →
      exec (.channelStatus p) s = .next ((t channelStatusDesc).replyData (c channelStatusDesc) []
        ((List.range (byteAt (b channelStatusDesc) 2)).map fun i =>
          if s.offers then (s.statusNow (byteAt (b channelStatusDesc) 0) (byteAt (b channelStatusDesc) 1 + i), false)
          else s.sqWord .done .I (at_ + byteAt (b channelStatusDesc) 1 + i)))) ∧
    (s.admits p loopReadDesc = true → be16 (b loopReadDesc) 0 ≤ 255 →
      let w := fun k => s.sqWord .done .L (16 * be16 (b loopReadDesc) 0 + k)
      exec (.loopRead p) s = .next ((t loopReadDesc).replyData (c loopReadDesc) []
        [(mkWord [(31, 24, bits (w 0).1 31 29)], (w 0).2), w 1, w 2, w 3])) ∧
    (s.admits p stationStatusDesc = true → byteAt (b stationStatusDesc) 0 ≤ 1 → byteAt (b stationStatusDesc) 1 ≤ 31 →
      let w := fun k => s.sqWord .done .N (nIn (byteAt (b stationStatusDesc) 0) (byteAt (b stationStatusDesc) 1) + k)
      exec (.stationStatus p) s = .next ((t stationStatusDesc).replyData (c stationStatusDesc) []
        [(mkWord [(31, 24, bits (w 0).1 31 30), (23, 16, bits (w 0).1 23 16)], (w 0).2), w 1])) ∧
    (s.admits p totalReadDesc = true → 1 ≤ byteAt (b totalReadDesc) 1 → byteAt (b totalReadDesc) 0 + byteAt (b totalReadDesc) 1 ≤ 64 →
      exec (.totalRead p) s = .next ((t totalReadDesc).reply (c totalReadDesc) .ok ((List.range (byteAt (b totalReadDesc) 1)).flatMap fun i =>
        let n := byteAt (b totalReadDesc) 0 + i
        toBe 8 (BitVec.ofInt 64 (s.total n).value).toNat ++ toBe 4 (s.total n).epoch.toNat ++ toBe 1 (bits (s.totCfg n) 29 28) ++ pad 3))) ∧
    (∀ (f : List Byte) (at_ : Nat), s.admits p hartBurstReadDesc = true → byteAt (b hartBurstReadDesc) 0 ≤ 31 → byteAt (b hartBurstReadDesc) 1 ≤ 5 →
      ucHart (s.ucCfg (byteAt (b hartBurstReadDesc) 0)) = true → (s.uc (byteAt (b hartBurstReadDesc) 0)).state = .run →
      ((s.uc (byteAt (b hartBurstReadDesc) 0)).devices.get {} (byteAt (b hartBurstReadDesc) 1)).burst = some (f, at_) →
      exec (.hartBurstRead p) s = .next ((t hartBurstReadDesc).reply (c hartBurstReadDesc) .ok
        (toBe 4 (satNat 32 ((s.now - at_) / 1000000)) ++ f)))

/-- R69, R70, R71, R73, R74, R288, R353, R363, R364: the reads of counters, records, arrays, the pair and the Fire Lane; REC_QUERY where no error stands
in a byte of the module and no page is under repair. -/
def Obligations.CounterReads : Prop :=
  ∀ (s : State) (p : Packet),
    let t := s.admitted p
    let c := s.ctxOf p
    let b := s.payloadOf p
    (s.admits p canCountersDesc = true → byteAt (b canCountersDesc) 0 ≤ 1 →
      let x := s.can (byteAt (b canCountersDesc) 0)
      exec (.canCounters p) s = .next ((t canCountersDesc).reply (c canCountersDesc) .ok (toBe 1 (min 255 x.tec) ++ toBe 1 x.rec_ ++
        toBe 1 x.code ++ pad 1 ++ wordsBe [x.lost, x.rxFiltered, x.txAbandoned, x.missed]))) ∧
    (s.admits p pairStatusDesc = true → exec (.pairStatus p) s = .next ((t pairStatusDesc).reply (c pairStatusDesc) .ok
      (toBe 1 s.pair.state.code ++ toBe 1 (b2n s.mram.sideB) ++ pad 2 ++ toBe 4 s.mram.epoch.toNat ++ toBe 4 s.pair.divergences.toNat ++
        toBe 2 s.pair.partner.toNat ++ pad 2))) ∧
    (s.quiet = true → s.admits p recQueryDesc = true → beWord (b recQueryDesc) 0 ≠ 0 → 1 ≤ be16 (b recQueryDesc) 4 → be16 (b recQueryDesc) 4 ≤ 43 →
      byteAt (b recQueryDesc) 6 ≤ 3 →
      let n := if s.beyond (beWord (b recQueryDesc) 0) then 0
        else min (be16 (b recQueryDesc) 4) (indexAfter (beWord (b recQueryDesc) 0) s.mram.newest + 1)
      exec (.recQuery p) s = .next ((t recQueryDesc).replyData (c recQueryDesc) (toBe 2 n ++ pad 2)
        (s.entries (byteAt (b recQueryDesc) 6) n (beWord (b recQueryDesc) 0)))) ∧
    (s.admits p recUploadDesc = true → (c recUploadDesc).broadcast = false → beWord (b recUploadDesc) 0 ≠ 0 → 1 ≤ be32 (b recUploadDesc) 4 → be32 (b recUploadDesc) 4 ≤ 65536 →
      let u := t recUploadDesc
      let r : Reply := { ctx := c recUploadDesc, status := 0, cycle := u.shownCycle, body := [], sent := 0, counts := true
                         upload := some (beWord (b recUploadDesc) 0, be32 (b recUploadDesc) 4), readyAt := s.now, order := u.sup.ready }
      exec (.recUpload p) s = .next { u with sup := { u.sup with replies := u.sup.replies ++ [r], ready := u.sup.ready + 1 } }) ∧
    (s.admits p recCountersDesc = true → exec (.recCounters p) s = .next ((t recCountersDesc).reply (c recCountersDesc) .ok
      (wordsBe [s.mram.newest, (s.sevCount 0).lost, (s.sevCount 1).lost, (s.sevCount 2).lost, (s.sevCount 3).lost]))) ∧
    (s.admits p memStatusDesc = true → byteAt (b memStatusDesc) 0 ≤ 7 →
      let a := byteAt (b memStatusDesc) 0
      exec (.memStatus p) s = .next ((t memStatusDesc).reply (c memStatusDesc) .ok
        (wordsBe [(s.arr a).corrected, (s.arr a).poisoned, (s.arr a).repaired] ++ toBe 1 (s.mram.remap.get [] a).length ++ pad 3))) ∧
    (s.admits p remapReadDesc = true → byteAt (b remapReadDesc) 0 ≤ 7 →
      exec (.remapRead p) s = .next ((t remapReadDesc).reply (c remapReadDesc) .ok
        (wordsBe ((List.range 16).map fun k => BitVec.ofNat 32 ((s.mram.remap.get [] (byteAt (b remapReadDesc) 0)).getD k 0xFFFFFFFF))))) ∧
    (s.admits p fireStatusDesc = true → exec (.fireStatus p) s = .next ((t fireStatusDesc).reply (c fireStatusDesc) .ok
      (toBe 2 (fnMask fun f => (s.fireFn f).tripped) ++ toBe 2 (fnMask fun f => (s.fireFn f).latched) ++ toBe 1 (b2n s.fire.arm.isSome) ++
        pad 3 ++ wordBe (crc32c (wordsBe s.fireWords)))))

/-! ## Commands that change -/

/-- R99, R430: PROGRAM_BEGIN opens a load and throws away what the bank held; PROGRAM_DATA stores words; PROGRAM_END answers with the CRC
found; PROGRAM_SWITCH plans the switch two cycles ahead, in a pair eight; RUN_STOP waits for the start of the cycle that it names. R305: in a
synchronised pair what a load does is forwarded and waits for the common boundary, and PROGRAM_END is answered there (log 42). R102: a switch needs the
standby, where there is one, to hold the image. PROGRAM_END is answered at once where no error stands in a byte of the module and no page is under repair.
Between two cycles SWITCH_CYCLE counts from the next cycle to start (the model's choice, log 117). -/
def Obligations.ProgramCommands : Prop :=
  ∀ (s : State) (p : Packet), (s.forwards && s.causewayLost) = false →
    let t := s.admitted p
    let c := s.ctxOf p
    let b := s.payloadOf p
    (s.admits p programBeginDesc = true → byteAt (b programBeginDesc) 0 ≤ 1 → 1 ≤ be32 (b programBeginDesc) 4 →
      be32 (b programBeginDesc) 4 ≤ 262144 → (s.bank (byteAt (b programBeginDesc) 0)).state ≠ .running →
      (∀ w, s.square.switch = some w → b2n w.bank ≠ byteAt (b programBeginDesc) 0) →
      let k := byteAt (b programBeginDesc) 0 == 1
      let n := be32 (b programBeginDesc) 4
      let crc := beWord (b programBeginDesc) 8
      exec (.programBegin p) s = .next ((if s.forwards then (t programBeginDesc).queueChange (.programBegin k n crc)
        else (t programBeginDesc).openLoad k n crc).ok (c programBeginDesc))) ∧
    (∀ (k : Bool) (words : Nat), s.admits p programDataDesc = true → s.plannedLoad = some (k, words) →
      let a := be32 (b programDataDesc) 0
      let l := packWords (((b programDataDesc).length - 4) / 4) ((b programDataDesc).drop 4)
      a + l.length ≤ words →
      exec (.programData p) s = .next ((if s.forwards then (t programDataDesc).queueChange (.programData a l)
        else (t programDataDesc).loadWords k a l).ok (c programDataDesc))) ∧
    (∀ (k : Bool) (words : Nat), s.admits p programEndDesc = true → s.plannedLoad = some (k, words) → s.forwards = true →
      exec (.programEnd p) s = .next { (t programEndDesc).queueChange .programEnd with
        square := { s.square with loadFor := some (c programEndDesc) } }) ∧
    (∀ (k : Bool) (words : Nat), s.quiet = true → s.admits p programEndDesc = true → s.plannedLoad = some (k, words) → s.forwards = false →
      let r := (t programEndDesc).finishLoad k s.standby
      exec (.programEnd p) s = .next (r.1.reply (c programEndDesc) r.2 (wordBe (crcWords (s.bank (b2n k)).image))) ∧
      (crcWords (s.bank (b2n k)).image ≠ (s.bank (b2n k)).crc → r.2 = .checksumMismatch ∧ (r.1.bank (b2n k)).state = .empty)) ∧
    (s.admits p programSwitchDesc = true → be32 (b programSwitchDesc) 0 ≤ 1 → s.square.switch = none →
      (s.bank s.stagedNo).state = .verified → (be32 (b programSwitchDesc) 0 = 0 → ∀ f ∈ s.plannedForces, (s.bank s.stagedNo).desc.lacks f = false) →
      s.loadWaits (s.stagedNo == 1) = false →
      (s.hasStandby = true → (s.bank s.stagedNo).partnerVerified = true ∨ (s.forwards = false ∧ (s.bank s.stagedNo).inSnapshot = true)) →
      let at_ := cyclePlus s.square.current (if s.pairMode then 8 else 2)
      let q := { (t programSwitchDesc).square with
        switch := some { cycle := at_, bank := s.stagedNo == 1, releaseForces := be32 (b programSwitchDesc) 0 == 1 } }
      exec (.programSwitch p) s = .next (((t programSwitchDesc).withSquare q).reply (c programSwitchDesc) .ok (toBe 4 at_.toNat))) ∧
    (s.admits p runStopDesc = true → byteAt (b runStopDesc) 0 = 1 ∨ byteAt (b runStopDesc) 0 = 2 →
      let at_ := if s.square.phase = .idle then s.square.current else nextCycle s.square.current
      let q := { (t runStopDesc).square with runStop := some (byteAt (b runStopDesc) 0 == 1, at_) }
      exec (.runStop p) s = .next (((t runStopDesc).withSquare q).reply (c runStopDesc) .ok (toBe 4 at_.toNat)))

/-- R50, R93, R97, R166 (and R98, R305 for a pair): writes, forces, releases, enables and disables are not answered at once: each waits for the next
commit, in the order of acceptance, with the words it names. In a synchronised pair a force or a release is forwarded and waits for the commit before
the common boundary (log 102); where the Causeway path is lost it is answered BUSY. -/
def Obligations.LandingCommands : Prop :=
  ∀ (s : State) (p : Packet),
    let t := s.admitted p
    let c := s.ctxOf p
    let b := s.payloadOf p
    let at_ := cyclePlus s.square.current (if s.square.phase = .idle then 4 else 5)
    let posted := fun (d : CmdDesc) (k : LandKind) (g : Change) =>
      if s.forwards then ((t d).tellPartner g at_).postLanding { ctx := c d, kind := k, words := [], due := some at_ }
      else (t d).postLanding { ctx := c d, kind := k, words := [] }
    (∀ (l : List (List Byte × List Word)) (m : List LandWord), s.admits p writeVarsDesc = true →
      splitWrites (be16 (b writeVarsDesc) 0) ((b writeVarsDesc).drop 4) = some l → s.planWrites l = .ok m →
      exec (.writeVars p) s = .next ((t writeVarsDesc).postLanding { ctx := c writeVarsDesc, kind := .writeVars, words := m })) ∧
    (∀ (r : VarRef) (l : List Force), s.admits p forceSetDesc = true → s.parseRef (b forceSetDesc) 0 = some r →
      (∀ x ∈ r.items, mayForce x = true) → s.planForces [] (r.items.zip (packWords r.count ((b forceSetDesc).drop 8))) = some l →
      (∀ w, s.square.switch = some w → w.releaseForces = false → ∀ f ∈ l, (s.bank (b2n w.bank)).desc.lacks f = false) →
      (forcedWords (l.foldl setForce s.plannedForces)).length ≤ 256 → (s.forwards && s.causewayLost) = false →
      exec (.forceSet p) s = .next (posted forceSetDesc (.forceSet l) (.forceSet l))) ∧
    (s.forwards = true → s.causewayLost = true → s.admits p forceReleaseDesc = true →
      exec (.forceRelease p) s = .next ((t forceReleaseDesc).replyBusy (c forceReleaseDesc) true)) ∧
    (s.admits p forceReleaseDesc = true → (s.forwards && s.causewayLost) = false → b forceReleaseDesc = [] →
      exec (.forceRelease p) s = .next (posted forceReleaseDesc (.forceRelease [] true) (.forceRelease [] true))) ∧
    (∀ r : VarRef, s.admits p forceReleaseDesc = true → (s.forwards && s.causewayLost) = false → b forceReleaseDesc ≠ [] → s.parseRef (b forceReleaseDesc) 0 = some r →
      let l := r.items.map itemWord
      exec (.forceRelease p) s = .next (posted forceReleaseDesc (.forceRelease l false) (.forceRelease (l.map fun w => (w.area, w.word)) false))) ∧
    (s.admits p loopEnableDesc = true → be16 (b loopEnableDesc) 0 ≤ 255 → (s.loopCtx (be16 (b loopEnableDesc) 0)).state ≠ .windDown →
      exec (.loopEnable p) s = .next ((t loopEnableDesc).postLanding
        { ctx := c loopEnableDesc, kind := .writeVars, words := [cmdWrite (be16 (b loopEnableDesc) 0) true] })) ∧
    (s.admits p loopDisableDesc = true → be16 (b loopDisableDesc) 0 ≤ 255 →
      exec (.loopDisable p) s = .next ((t loopDisableDesc).postLanding
        { ctx := c loopDisableDesc, kind := .writeVars, words := [cmdWrite (be16 (b loopDisableDesc) 0) false] }))

/-- R57: SUBSCRIBE with id 0 takes the lowest free entry, or is answered BUSY where none is free; with the number of an entry of its origin it
renews it, and one of the same references keeps what was delivered; the answer is the entry's number. UNSUBSCRIBE frees it, whichever origin opened it
(the model's choice, log 114); its lease ends it; SUB_DELTA leaves as a packet of the transport that subscribed, with at most 174 words (log 76), and the
entry is due no more when the packet holds all. -/
def Obligations.SubscriptionRows : Prop :=
  ∀ (s : State) (p : Packet),
    (∀ l : List VarRef,
      let t := s.admitted p subscribeDesc
      let c := s.ctxOf p subscribeDesc
      let b := s.payloadOf p subscribeDesc
      let items := l.flatMap VarRef.items
      let fresh : Subscription :=
        { ctx := c, words := items, decimate := be16 b 2, leaseEnd := s.now + be16 b 4 * 1000000000, counted := 0
          delivered := items.map fun _ => none, full := true, due := false, snap := [], snapCycle := 0, skipped := 0 }
      let done := fun (k : Nat) (x : Subscription) => (t.setSub k (some x)).reply c .ok (toBe 1 (k + 1) ++ pad 1)
      s.admits p subscribeDesc = true → s.parseRefs (be16 b 6) (b.drop 8) = some l → 1 ≤ be16 b 2 → 1 ≤ be16 b 4 →
      be16 b 4 ≤ 3600 → 1 ≤ items.length → items.length ≤ 256 → s.hidesTotals items = false →
      (∀ k, byteAt b 0 = 0 → (List.range 64).find? (fun k => (s.sup.subs.get none k).isNone) = some k →
        exec (.subscribe p) s = .next (done k fresh)) ∧
      (byteAt b 0 = 0 → (∀ k < 64, (s.sup.subs.get none k).isSome = true) → exec (.subscribe p) s = .next (t.replyBusy c true)) ∧
      (∀ x : Subscription, 1 ≤ byteAt b 0 → byteAt b 0 ≤ 64 → s.sup.subs.get none (byteAt b 0 - 1) = some x → x.ctx.origin = c.origin →
        exec (.subscribe p) s = .next (done (byteAt b 0 - 1)
          (if x.words = items then { x with ctx := c, decimate := be16 b 2, leaseEnd := s.now + be16 b 4 * 1000000000 } else fresh)))) ∧
    (∀ x : Subscription,
      let b := s.payloadOf p unsubscribeDesc
      s.admits p unsubscribeDesc = true → 1 ≤ byteAt b 0 → byteAt b 0 ≤ 64 → s.sup.subs.get none (byteAt b 0 - 1) = some x →
      exec (.unsubscribe p) s = .next (((s.admitted p unsubscribeDesc).setSub (byteAt b 0 - 1) none).ok (s.ctxOf p unsubscribeDesc))) ∧
    (∀ (k : Fin 64) (x : Subscription), s.sup.subs.get none k = some x → x.leaseEnd ≤ s.now →
      exec (.subscriptionLeaseExpiry k) s = .next (s.setSub k none)) ∧
    (∀ (k : Fin 64) (x : Subscription), s.sup.subs.get none k = some x → x.due = true → s.supAnswers = true → s.pathDown x.ctx.port = false →
      s.pair.state ≠ .stale → s.hidesTotals x.words = false →
      ∃ t, exec (.subDelta k) s = .next t ∧
        t = { s with sup := { s.sup with subs := t.sup.subs, wire := t.sup.wire }, ring := t.ring, freeCount := s.freeCount + 1 } ∧
        (∃ q, s.sentBy t x.ctx.port q ∧ q.opcode = 0x0380 ∧ q.target = x.ctx.origin ∧ q.cycle = x.snapCycle) ∧
        (∀ m, m ≠ k.val → t.sup.subs.get none m = s.sup.subs.get none m) ∧
        (∃ y, t.sup.subs.get none k = some y ∧ y.due = decide (174 < x.delta.length) ∧ y.words = x.words ∧ y.leaseEnd = x.leaseEnd ∧
          ∀ i ∈ x.delta.take 174, y.delivered.getD i none = some (x.snap.getD i (0, false)).1))

/-- R137 to R149: SET_PENDING and a hardware firing fire the source; a group whose AGE reaches T is delivered; a task whose parts are done
completes; subscriber slots are bound and freed; in its turn an EVENT packet leaves by its port (the turn is the model's choice, log 115). FIRST_TIME of
a digital edge (R140), of a threshold (R219) or of a limit (R196) is the time that the firing brings, of every other source the time at which ROUND
registers it (R140). -/
def Obligations.EventRows : Prop :=
  ∀ (s : State) (p : Packet),
    (let n := be16 (s.payloadOf p setPendingDesc) 0
     let t := (s.admitted p setPendingDesc).fireNow n s.now
     s.admits p setPendingDesc = true → n ≤ 511 → reservedSource n = false →
     exec (.setPending p) s = .next (t.reply (s.ctxOf p setPendingDesc) .ok (toBe 4 (t.source n).fc.toNat))) ∧
    (let b := s.payloadOf p eventSubscribeDesc
     let c := s.ctxOf p eventSubscribeDesc
     s.admits p eventSubscribeDesc = true → byteAt b 0 ≤ 15 → 1 ≤ be16 b 2 → be16 b 2 ≤ 3600 → (s.slot (byteAt b 0)).inUse = false →
     exec (.eventSubscribe p) s = .next (((s.admitted p eventSubscribeDesc).setSlot (byteAt b 0)
       { inUse := true, origin := c.origin, auth := c.tagged, keyslot := c.keyslot, port := c.port, peer := c.peer
         leaseEnd := s.now + be16 b 2 * 1000000000 }).ok c)) ∧
    (∀ (f : Nat × Nat) (l : List (Nat × Nat)), s.round.firings = f :: l → s.runs 5 = true →
      exec .eventFiring s = .next ({ s with round := { s.round with firings := l } }.fireNow f.1 (if 64 ≤ f.1 ∧ f.1 < 192 then f.2 else s.now))) ∧
    (∀ (g : Fin 64) (t : Nat), (s.group g).ageFrom = some t → s.runs 5 = true → bits (s.cfg 0x210 g) 15 0 * 10000 ≤ s.now - t →
      exec (.groupAgeExpiry g) s = .next (s.deliver g)) ∧
    (∀ n : Fin 512, s.runs 5 = true → (s.source n).active = true → (s.source n).blockPart = none →
      exec (.taskComplete n) s = .next (s.completeTask n)) ∧
    (∀ k : Fin 16, (s.slot k).inUse = true → (s.slot k).leaseEnd ≤ s.now → exec (.subscriberLeaseExpiry k) s = .next (s.setSlot k {})) ∧
    (∀ (port : Port) (m : Notice), s.supAnswers = true → s.pathDown port = false → s.eventTurn port = true → firstNotice (s.eventsOn port) = some m →
      m.payload.length ≤ 1400 →
      ∃ t, exec (.event port) s = .next t ∧ t = { s with sup := t.sup, round := t.round, ring := t.ring } ∧
        (∃ q, s.sentBy t m.port q ∧ q.opcode = m.opcode ∧ q.payload = m.payload) ∧
        ∀ e ∈ t.round.slots, ∀ x ∈ e.2.queue, x.order ≠ m.order)

/-- R150, R165, R172 to R174, R179 (and R153, R155, R159 to R164 for a sample): a coefficient change and a commit of a staged set wait for their sample, and are answered BUSY while LOOP
restarts; LOOP_STAGE keeps a set beside the coefficients in use, and a commit takes the marks of its words along, where no error stands in a byte of the
module and no page is under repair; a base tick, due 10 µs after the last one, counts whether or not any context samples, and before that the row does
nothing. A sample of a context in RUN with clean data computes the error of its set-point and process variable and then each section in turn, exactly in
72 bits and saturated, the integrating one clamped and held back as the last sample's saturation and a trip tell, stores the histories and limits the
output; the two legacy laws compute one compensator, whose sum is shifted and truncated. That a sum saturates at −(2^71 − 1) below (log 123), and that
the clamp comes before the holding back (log 124), is the model's choice. -/
def Obligations.LoopRows : Prop :=
  ∀ (s : State) (p : Packet), (s.forwards && s.causewayLost) = false →
    (let b := s.payloadOf p loopWriteCoeffDesc
     let n := be16 b 0
     s.admits p loopWriteCoeffDesc = true → n ≤ 255 → byteAt b 2 ≤ 7 → byteAt b 3 ≤ 4 → byteAt b 8 ≤ 31 → s.loopLaw n = 0 →
     (s.loopCtx n).queue.length < 8 → s.down 4 = false →
     ∃ t, exec (.loopWriteCoeff p) s = .next t ∧ t = { s.admitted p loopWriteCoeffDesc with loop := t.loop, pair := t.pair } ∧ (t.loopCtx n).queue = (s.loopCtx n).queue ++
       [{ set_ := none, section_ := byteAt b 2, coeff := byteAt b 3, value := beWord b 4, shift := byteAt b 8, sample := s.landingSample n
          reply := some (s.ctxOf p loopWriteCoeffDesc) }] ∧ ∀ m, m ≠ n → t.loopCtx m = s.loopCtx m) ∧
    (let b := s.payloadOf p loopStageDesc
     let n := be16 b 0
     let k := byteAt b 2
     s.admits p loopStageDesc = true → n ≤ 255 → 1 ≤ k → k ≤ 8 → k ≤ s.loopSections n → s.loopLaw n = 0 →
     (∀ i < k, ∀ j < 5, byteAt b (4 + 28 * i + 20 + j) ≤ 31) → s.quiet = true →
     ∃ t, exec (.loopStage p) s = .next t ∧ t = { s.admitted p loopStageDesc with sup := t.sup, loop := t.loop, pair := t.pair } ∧
       (∀ m, m ≠ n → t.loopCtx m = s.loopCtx m) ∧ (t.loopCtx n).staged = (List.range k).map fun i => stagedSection ((b.drop (4 + 28 * i)).take 28)) ∧
    (let n := be16 (s.payloadOf p loopCommitDesc) 0
     s.admits p loopCommitDesc = true → n ≤ 255 → s.loopLaw n = 0 → (s.loopCtx n).staged ≠ [] → (s.loopCtx n).queue.length < 8 → s.down 4 = false →
     s.quiet = true →
     ∃ t, exec (.loopCommit p) s = .next t ∧ t = { s.admitted p loopCommitDesc with loop := t.loop, pair := t.pair } ∧ (t.loopCtx n).queue = (s.loopCtx n).queue ++
       [{ set_ := some (s.loopCtx n).staged, section_ := 0, coeff := 0, value := 0, shift := 0, sample := s.landingSample n
          reply := some (s.ctxOf p loopCommitDesc), marks := s.stagedMarks n [] }]) ∧
    (let b := s.payloadOf p loopWriteCoeffDesc
     let c := s.ctxOf p loopWriteCoeffDesc
     s.admits p loopWriteCoeffDesc = true → be16 b 0 ≤ 255 → byteAt b 2 ≤ 7 → byteAt b 3 ≤ 4 → byteAt b 8 ≤ 31 → s.loopLaw (be16 b 0) = 0 →
     s.down 4 = true → exec (.loopWriteCoeff p) s = .next ((s.admitted p loopWriteCoeffDesc).replyBusy c true)) ∧
    (∀ at_ : Nat, s.loop.tickAt = some at_ → at_ ≤ s.now → s.now < at_ + 10000 → exec .loopBaseTick s = .next s) ∧
    (∀ at_ : Nat, s.service = .full → s.loop.tickAt = some at_ → at_ + 10000 ≤ s.now →
      let t := { s with loop := { s.loop with tick := s.loop.tick + 1, tickAt := some (at_ + 10000) } }
      (s.loop.live = false → (s.standby && s.pair.snapshot) = false → exec .loopBaseTick s = .next t) ∧
      (s.loop.live = false → s.standby = true → s.pair.snapshot = true →
        exec .loopBaseTick s = .next (t.each (t.loopOrder t.loop.tick) fun s n => s.modLoopCtx n fun x => { x with sample := x.sample + 1 })) ∧
      (s.loop.live = true → s.runs 4 = false →
        exec .loopBaseTick s = .next (t.each (t.loopOrder t.loop.tick) fun s n =>
          s.modLoopCtx n fun x => { x with sample := x.sample + 1, missed := satInc x.missed })) ∧
      (∀ n : Nat, s.loop.live = true → s.runs 4 = true → t.loopOrder t.loop.tick = [n] → s.quiet = true → s.loop.waiting = [] →
        (∀ m < 256, (s.loopCtx m).sinkNew = false) →
        let u := t.loopSample t.loop.tick n
        exec .loopBaseTick s = .next { u with loop := { u.loop with waiting := [] } })) ∧
    (∀ (t n : Nat), n < 256 →
      let x := s.loopCtx n
      let y := (s.loopSample t n).loopCtx n
      let k := if s.loopLaw n = 0 then s.loopSections n else 1
      x.state = .run → x.queue = [] → s.loop.mirror = [] → s.loop.ramPoison = [] → s.loopOuter n = none → bit (s.lw n 3) 20 = false → 1 ≤ k →
      (s.loopRaw n).2 = false → (s.loopIn n 0).2 = false → (s.loopIn n 2).2 = false → bit (s.loopIn n 2).1 0 = true →
      let old := fun (i : Nat) => x.hist.get {} i
      let new := fun (i : Nat) => y.hist.get {} i
      let input := fun (i : Nat) => if i = 0 then y.err else (new (i - 1)).y1
      let c := fun (i : Nat) => s.coeff n i
      let sat := fun (a : Int) => clampInt (-(2 ^ 71 - 1)) (2 ^ 71 - 1) a
      let term := fun (i k : Nat) (v : Int) => sat (c i k * v * 2 ^ (31 - s.shift n i k))
      let native := fun (i : Nat) => sat32 (roundShift (sat (sat (sat (sat (term i 0 (input i) + term i 1 (old i).x1) + term i 2 (old i).x2) -
        term i 3 (old i).y1) - term i 4 (old i).y2)) 31)
      let sum := c 0 0 * y.err + c 0 1 * (old 0).x1 + c 0 2 * (old 0).x2 + c 0 3 * (old 0).y1 + c 0 4 * (old 0).y2
      let legacy := sat32 ((if s.loopLaw n = 2 then sum + c 1 0 * (old 0).x3 + c 1 3 * (old 0).y3 else sum) / 2 ^ bits (s.lw n 3) 4 0)
      let out := fun (i : Nat) => if s.loopLaw n = 0 then native i else legacy
      let sign := bit (s.lw n 3) 23
      let down := (x.satHi = true ∧ sign = false) ∨ (x.satLo = true ∧ sign = true)
      let up := (x.satHi = true ∧ sign = true) ∨ (x.satLo = true ∧ sign = false)
      let held := fun (v y1 : Int) => if s.sinkTrip n then y1
        else if up then max (if down then min v y1 else v) y1 else if down then min v y1 else v
      let stored := fun (i : Nat) => if s.loopInt n = i then held (clampInt (sInt (s.lw n 6)) (sInt (s.lw n 7)) (out i)) (old i).y1 else out i
      let last := (new (k - 1)).y1
      let gain := sInt (s.lw n 15)
      y.state = .run ∧ y.sample = x.sample + 1 ∧ y.sp = sInt (s.loopIn n 0).1 ∧
        y.pv = sat32 (roundShift ((s.loopRaw n).1 * sInt (s.lw n 13)) (bits (s.lw n 12) 9 5) + sInt (s.lw n 14)) ∧
        y.err = sat32 (if bit (s.lw n 0) 25 then y.pv - y.sp else y.sp - y.pv) ∧
        (∀ i < k, new i = { x1 := input i, x2 := (old i).x1, x3 := (old i).x2, y1 := stored i, y2 := (old i).y1, y3 := (old i).y2 }) ∧
        y.out = min (max last (sInt (s.lw n 4))) (sInt (s.lw n 5)) ∧
        (y.satHi = true ↔ sInt (s.lw n 5) < last ∨ (s.sinkCompliance n = true ∧ 0 < gain)) ∧
        (y.satLo = true ↔ last < sInt (s.lw n 4) ∨ (s.sinkCompliance n = true ∧ gain < 0)))

/-! ## Configuration, channels and CAN ports -/

/-- R59, R189, R429: a write in which no word fails a check takes effect as a whole and is answered FFFFh; a write in which one fails is
answered with its number, and no word takes effect. In full service a simplex module keeps a word for the next boundary; the domains that the
configuration needs, the thermal limits and the temperature bands are judged by the words in force (R22, R378, R425). The answer goes out at acceptance,
and for CHANNEL_MODE without a full change at once (the model's reading, log 41); in SHUTTING_DOWN it is ACCEPTED_DEFERRED (R190). -/
def Obligations.ConfigurationWrites : Prop :=
  ∀ (s : State) (p : Packet) (roles : BitVec 4), (s.forwards && s.causewayLost) = false →
    (let t := s.admitted p writeObjectDesc
     let c := s.ctxOf p writeObjectDesc
     let l := objWrites (s.payloadOf p writeObjectDesc)
     s.admits p writeObjectDesc = true →
     (t.checkWrites c.roles l = none → exec (.writeObject p) s = .next ((t.acceptWrites l).reply c
       (if l.any t.deferredWrite then .acceptedDeferred else .ok) (toBe 2 0xFFFF))) ∧
     ∀ n st, t.checkWrites c.roles l = some (n, st) → exec (.writeObject p) s = .next (t.reply c st (toBe 2 n))) ∧
    (∀ (i : BitVec 16) (k : BitVec 8) (w : Word) (q : WordSpec), s.supAnswers = true → s.standby = false → s.power.warning = none →
      s.checkWrites roles [{ index := i.toNat, sub := k.toNat, rest := 0, value := w }] = none → objSpec i.toNat k.toNat = some q →
      q.timing = .boundary → q.restartMask = 0 → q.mask ≠ 0 → s.forwards = false → s.service = .full →
      ¬ (0x400 ≤ i.toNat ∧ i.toNat ≤ 0x41F) → ¬ (0x880 ≤ i.toNat ∧ i.toNat ≤ 0x882) →
      exec (.objectWrite roles i k w) s = .next ({ s with sup := { s.sup with
        objPending := s.sup.objPending ++ [(okey i.toNat k.toNat, q.merge (s.plannedWord i.toNat k.toNat) w)] } }.judgeDomains.judgeThermal.judgeBands)) ∧
    (∀ (n : Fin 64) (k : BitVec 8) (w : Word), s.supAnswers = true → s.standby = false → s.power.warning = none →
      s.checkWrites roles [{ index := 0x700 + n, sub := k.toNat, rest := 0, value := w }] = none → s.forwards = false →
      s.service ≠ .outOfService →
      ∃ t, exec (.totalConfigWrite roles n k w) s = .next t ∧ t = ({ s with totals := t.totals }).judgeDomains.judgeThermal.judgeBands ∧ (∀ m, m ≠ n.val → t.total m = s.total m) ∧
        ∃ q, objSpec (0x700 + n) k.toNat = some q ∧
          let v := q.merge (s.plannedWord (0x700 + n) k.toNat) w
          ((s.total n).close = [] → (t.total n).close = [{ ctx := none, close := false, config := [(k.toNat, v)], boundary := none }]) ∧
          (∀ x : Close, (s.total n).close = [x] → x.boundary = none → (t.total n).close = [{ x with config := x.config ++ [(k.toNat, v)] }])) ∧
    (let b := s.payloadOf p channelModeDesc
     let c := s.ctxOf p channelModeDesc
     let n := byteAt b 0
     let t := s.admitted p channelModeDesc
     let l : List ObjWrite := [{ index := 0x400 + n, sub := 0, rest := 0, value := modeWord b }]
     s.admits p channelModeDesc = true → n ≤ 31 → byteAt b 4 ≤ 15 → t.checkWrites c.roles l = none →
     ((s.uc n).state = .run → ucFullChange (s.plannedWord (0x400 + n) 0) (modeWord b) = true →
       exec (.channelMode p) s = .next ((t.modUc n fun u => { u with replyTo := u.replyTo ++ [c] }).acceptWrites l)) ∧
     ((s.uc n).state = .run → ucFullChange (s.plannedWord (0x400 + n) 0) (modeWord b) = false →
       exec (.channelMode p) s = .next ((t.acceptWrites l).ok c)) ∧
     ((s.uc n).state = .shuttingDown → exec (.channelMode p) s = .next ((t.acceptWrites l).refuse c .acceptedDeferred)))

/-- R184, R185, R189, R197: a conversion before the settled one delivers nothing, a settled one delivers its value with age 0 and not STALE; the
shut-down and start-up of a mode change move the channel on; the store below 25.5 V sets OVERLOAD, above 27.0 V it clears it, and where ANSEQ does not run
nothing of it is seen. -/
def Obligations.ChannelRows : Prop :=
  ∀ (s : State) (ch : Fin 32),
    (∀ c : Conversion, s.runs 7 = true → (s.uc ch).state = .settling → 1 < (s.uc ch).settleLeft →
      exec (.ucConversionComplete ch c) s = .next (s.setUc ch
        ({ s.uc ch with settleLeft := (s.uc ch).settleLeft - 1 }.readings (s.ucWorks ch) c))) ∧
    (∀ c : Conversion, s.runs 7 = true → (s.uc ch).state = .run → ucOutput (ucMode (s.ucWorks ch)) = false →
      ∃ t, exec (.ucConversionComplete ch c) s = .next t ∧ t = { s with ucs := t.ucs, crossings := t.crossings, nextSend := t.nextSend, round := t.round, fire := t.fire } ∧
        (∀ m, m ≠ ch.val → t.uc m = s.uc m) ∧ (t.uc ch).valueAt = some s.now ∧ (t.uc ch).stale = false ∧
        (t.uc ch).value = clampInt (ucRange (s.ucWorks ch)).1 (ucRange (s.ucWorks ch)).2
          (ucValue (s.ucWorks ch) (bits (s.cfg (0x400 + ch) 7) 31 0) c)) ∧
    ((s.uc ch).state = .starting → exec (.ucStartupComplete ch) s = .next ((s.modUc ch fun u =>
      { u with state := .settling, settleLeft := settleCount (ucRate (s.ucCfg ch)) }).ucApply ch)) ∧
    ((s.uc ch).state = .shuttingDown → (s.uc ch).deferred = [] → exec (.ucShutdownComplete ch) s = .next
      (((s.ucUpdate ch { (s.uc ch).fresh with
          state := if ucMode (s.ucCfg ch) = 0 then .off else .starting, deferred := [], replyTo := [], stale := true
          valueAt := if ucMode (s.ucCfg ch) = 0 then none else (s.uc ch).valueAt }).each (s.uc ch).replyTo fun s c => s.ok c).judgeDomains)) ∧
    (∀ mv : Nat, s.runs 7 = true → (s.uc ch).state ≠ .off → mv < 25500 →
      exec (.ucStoreLow ch mv) s = .next ((s.ucUpdate ch { s.uc ch with overload := true, store := some mv }).ucBadToFire ch)) ∧
    (∀ mv : Nat, s.runs 7 = true → (s.uc ch).overload = true → 27000 < mv →
      exec (.ucStoreRecovered ch mv) s = .next ((s.ucUpdate ch { s.uc ch with overload := false, store := some mv }).ucBadToFire ch)) ∧
    (∀ mv : Nat, s.runs 7 = false → exec (.ucStoreLow ch mv) s = .next s ∧ exec (.ucStoreRecovered ch mv) s = .next s)

/-- R200 to R204: a pass-through transaction waits in the channel's queue of five; it ends with the device's reply, or without one, and a device that
has left three running without an answer sets HART_FAULT, also one that the table does not hold; HART_TRANSACTIONS counts the answered ones (the model's
choice, log 147). A scan fills the device table anew (with no burst frame, the model's choice, log 148), and it waits while the HART master is silent; the latest burst of
a known device is kept; RESCAN asks for a scan of a channel in RUN with HART in use. -/
def Obligations.HartRows : Prop :=
  ∀ (s : State) (p : Packet) (ch : Fin 32),
    (∀ (hi : BitVec 8) (lo : BitVec 32),
      let b := s.payloadOf p hartTransactDesc
      let n := byteAt b 0
      s.admits p hartTransactDesc = true → n ≤ 31 → s.hartReady n = true → s.hartAddress n (byteAt b 1) b = .ok (hi, lo) →
      (s.uc n).jobs.length < 5 →
      exec (.hartTransact p) s = .next ((s.admitted p hartTransactDesc).modUc n fun u => { u with jobs := u.jobs ++
        [{ ctx := s.ctxOf p hartTransactDesc, longHi := hi, longLo := lo, command := BitVec.ofNat 8 (byteAt b 7), data := b.drop 9 }] })) ∧
    (∀ (j : HartJob) (l : List HartJob), (s.uc ch).jobs = j :: l →
      (∀ (code : BitVec 16) (data : List Byte), exec (.hartTransactionComplete ch (some (code, data))) s =
        .next ((s.setUc ch { s.uc ch with jobs := l, transactions := satInc (s.uc ch).transactions
                                          silences := (s.uc ch).silences.filter fun e => e.1 != (j.longHi, j.longLo) }).reply
          j.ctx .ok (toBe 2 code.toNat ++ toBe 1 data.length ++ data))) ∧
      (∀ n : Nat, (match (s.uc ch).silences.find? (fun e => e.1 == (j.longHi, j.longLo)) with | some e => e.2 | none => 0) = n →
       let others := (s.uc ch).silences.filter fun e => e.1 != (j.longHi, j.longLo)
       exec (.hartTransactionComplete ch none) s = .next ((s.setUc ch { s.uc ch with
         jobs := l, noResponse := satInc (s.uc ch).noResponse, silences := ((j.longHi, j.longLo), n + 1) :: others
         hartFault := (s.uc ch).hartFault || (decide (3 ≤ n + 1) || others.any fun e => decide (3 ≤ e.2)) }).refuse j.ctx .noResponse))) ∧
    (∀ found : List HartFound, (s.uc ch).scanning = true → found.length ≤ 6 →
      (s.hartReady ch = true → exec (.hartScanComplete ch found) s =
        .next (s.setUc ch { s.uc ch with scanning := false, silences := [], hartFault := decide (found.length < ucExpected (s.ucCfg ch))
                                         devices := scanTable found (if ucMode (s.ucCfg ch) == 5 then 6 else 1) })) ∧
      (s.hartReady ch = false → exec (.hartScanComplete ch found) s = .next s)) ∧
    (∀ (hi : BitVec 8) (lo : BitVec 32) (f : List Byte), s.hartReady ch = true → bit (s.cfg (0x400 + ch) 8) 28 = true →
      exec (.hartBurstReceived ch hi lo f) s = .next (s.setUc ch { s.uc ch with
        devices := (s.uc ch).devices.map fun (e : Nat × HartDevice) =>
          if e.2.present && e.2.longHi == hi && e.2.longLo == lo then (e.1, { e.2 with burst := some (f, s.now) }) else e })) ∧
    (ucHart (s.ucCfg ch) = true → (s.uc ch).state = .run → exec (.rescan ch) s = .next (s.modUc ch fun u => { u with scanning := true }))

/-- R22, R244, R245, R260 (and R305 for a pair): a CAN port is enabled from DISABLED, in a synchronised pair at the boundary of both modules, and starts
where PD9 is on, else PD9 is judged first and the command is answered OK at once (the model's reading, log 93); it recovers from BUS_OFF,
queues up to 32 frames, counts its receive errors and the dominant bits after a flag of its own frame, and passes from waiting for the bus, from
recovery and from shut-down to the state that follows. A port that is disabled shuts down: its frame on the bus goes on, its queued frames and the slot frames
that wait are discarded and counted, and schedule and stations stop; while it recovers that waits for the end of the recovery. -/
def Obligations.CanPortRows : Prop :=
  ∀ (s : State) (p : Packet) (n : Fin 2),
    (let b := s.payloadOf p canEnableDesc
     let k := byteAt b 0
     s.admits p canEnableDesc = true → k ≤ 1 → byteAt b 1 = 1 → (s.can k).state = .disabled → (s.forwards && s.causewayLost) = false →
     let t := (s.admitted p canEnableDesc).putCanEnable k true
     exec (.canEnable p) s = .next ((if s.forwards then (s.admitted p canEnableDesc).queueChange (.canEnable k true)
       else if s.domainOn 9 then t.canStart k else t.judgeDomains).reply (s.ctxOf p canEnableDesc) .ok (s.ctxOf p canEnableDesc).refusalBody)) ∧
    (let b := s.payloadOf p canEnableDesc
     let k := byteAt b 0
     let c := s.ctxOf p canEnableDesc
     let t := s.admitted p canEnableDesc
     let x := s.can k
     s.admits p canEnableDesc = true → k ≤ 1 → byteAt b 1 = 0 → s.forwards = false →
     (x.state = .disabled → exec (.canEnable p) s = .next ((t.putCanEnable k false).refuse c .ok)) ∧
     (x.state = .shuttingDown → exec (.canEnable p) s = .next (((t.putCanEnable k false).setCan k { x with enablePending := false }).refuse c .ok)) ∧
     (x.state = .recovering →
       exec (.canEnable p) s = .next ((t.setCan k { x with disablePending := true, enablePending := false }).refuse c .ok)) ∧
     (x.state ≠ .disabled → x.state ≠ .shuttingDown → x.state ≠ .recovering →
       let onBus := match x.tx with | some (.queued, _) => true | _ => false
       let slots := (x.winWait.filter fun w => match w.1 with | .slot _ _ _ _ => true | _ => false).length
       let dropped := if onBus then x.queue.length - 1 else x.queue.length
       ∃ u : State, exec (.canEnable p) s = .next (u.refuse c .ok) ∧
         u = { t with cans := u.cans, mram := (t.putCanEnable k false).mram, round := u.round, crossings := u.crossings, nextSend := u.nextSend } ∧
         (u.can k).state = .shuttingDown ∧ (u.can k).tx = x.tx ∧ (u.can k).queue = (if onBus then x.queue.take 1 else []) ∧
         (u.can k).winWait = [] ∧ (u.can k).refWait = none ∧ (u.can k).txAbandoned = x.txAbandoned + BitVec.ofNat 32 (dropped + slots) ∧
         (∀ i ∈ s.stations k, (s.station k i).due.isSome = true → s.setSent k i = false → (u.station k i).due = none) ∧
         ∀ m, m ≠ k → u.can m = s.can m)) ∧
    (let k := byteAt (s.payloadOf p canRecoverDesc) 0
     s.admits p canRecoverDesc = true → k ≤ 1 → (s.can k).state = .busOff → exec (.canRecover p) s =
       .next (((s.admitted p canRecoverDesc).modCan k fun x => { x with state := .recovering }).ok (s.ctxOf p canRecoverDesc))) ∧
    (let b := s.payloadOf p canSendDesc
     let k := byteAt b 0
     s.admits p canSendDesc = true → k ≤ 1 → byteAt b 1 = 0 → byteAt b 2 ≤ 8 → be32 b 4 < 2 ^ 11 → b.length = 8 + byteAt b 2 →
     (s.can k).state ≠ .disabled → (s.can k).state ≠ .shuttingDown → (s.can k).queue.length < 32 → exec (.canSend p) s =
       .next (((s.admitted p canSendDesc).modCan k fun x => { x with queue := x.queue ++
         [{ xtd := false, fdf := false, brs := false, esi := false, rtr := false, id := BitVec.ofNat 29 (be32 b 4), data := b.drop 8
            sof := 0 }] }).ok (s.ctxOf p canSendDesc))) ∧
    (∀ k : CanRxError, s.canRuns n = true → (s.can n).active = true → (k = .plain ∧ (s.can n).tec ≤ 255) ∨ (s.can n).tx = none → exec (.canRxError n k) s =
      .next ((s.setCan n { s.can n with rec_ := min 255 ((s.can n).rec_ + match k with | .plain => 1 | .dominantAfterFlag => 8) }).judgeCan n)) ∧
    (∀ (j : TxJob) (f : CanFrame), s.canRuns n = true → (s.can n).active = true → (s.can n).tx = some (j, f) →
      let t := (s.setCan n { s.can n with tec := min 511 ((s.can n).tec + 8), tecRose := true }).judgeCan n
      exec (.canRxError n .dominantAfterFlag) s =
        .next (if (t.can n).active then t else t.jobDone n j f false (f.sof + s.samplePoint n))) ∧
    ((s.can n).state = .integrating → s.canRuns n = true → exec (.canBusIntegration n) s =
      .next (s.modCan n fun c => { c with state := if s.standby then .monitoring else .errorActive, tec := 0, rec_ := 0 })) ∧
    ((s.can n).state = .recovering → s.canRuns n = true → (s.can n).disablePending = false → exec (.canRecovered n) s =
      .next ((s.setCan n { s.can n with state := if s.standby then .monitoring else .errorActive, tec := 0, rec_ := 0
                                        enablePending := false, disablePending := false }).raiseCan n .canRecovered (mkWord [(0, 0, n)]))) ∧
    ((s.can n).state = .recovering → s.canRuns n = true → (s.can n).disablePending = true → ∃ t, exec (.canRecovered n) s = .next t ∧
      (t.can n).state = .shuttingDown ∧ (t.can n).enablePending = (s.can n).enablePending ∧ t.canEnabled n = false ∧ ∀ m, m ≠ n.val → t.can m = s.can m) ∧
    ((s.can n).state = .shuttingDown → (s.can n).tx = none → (s.can n).enablePending = false → exec (.canShutdownComplete n) s =
      .next (s.setCan n { s.can n with state := .disabled }).judgeDomains) ∧
    ((s.can n).state = .shuttingDown → (s.can n).tx = none → (s.can n).enablePending = true → exec (.canShutdownComplete n) s =
      .next ((s.putCanEnable n true).canStart n).judgeDomains)

/-- R246, R247, R248, R255, R257, R259: a received frame counts and goes to its mailbox or to its FIFO; a frame that ends without error lowers TEC
by 1 and counts; a window's slot frame starts if it still ends before its window does, waits while the bus is busy, and is not built
while a page with a word of it is under repair (R343); a queued frame starts when it may;
a periodic port sends its reference frame when it is due. -/
def Obligations.CanFrameRows : Prop :=
  ∀ (s : State) (n : Fin 2),
    (∀ f : CanFrame, s.canRuns n = true → (s.can n).active = true → (f.fdf = true → s.canFd n = true) → (s.can n).rec_ = 0 → f.rtr = false →
      s.inputOf n f 1 = none → s.inputOf n f 2 = none → (∀ i < 32, s.inKind i ≠ 5) →
      exec (.canFrameReceived n f) s = .next (if s.canList n then (s.modCan n fun c => { c with rxFrames := c.rxFrames + 1 }).listStore n f
        else (s.modCan n fun c => { c with rxFrames := c.rxFrames + 1 }).mailboxStore n f)) ∧
    (∀ (j : TxJob) (f : CanFrame) (at_ d : Nat), (s.can n).tx = some (j, f) → s.canRuns n = true → exec (.canTxComplete n .ok at_ d) s =
      .next ((((s.setCan n { s.can n with tx := none, txDelay := if f.brs ∧ d ≠ 0 then min 127 d else (s.can n).txDelay
                                          txFrames := (s.can n).txFrames + 1, tec := (s.can n).tec - 1, sent := some f, txOk := true }).judgeCan n).jobDone
        n j f true at_).busIdle n)) ∧
    (∀ (k : Fin 32) (a z : Nat) (f : CanFrame), s.windowStart n k = some a → s.windowEnd n k = some z → s.service = .full →
      s.canSends n = true → s.canSchedule n ≠ 0 → a ≤ s.now → s.now < z → (s.can n).served.contains k.val = false →
      cellKind (s.cellWord n (s.can n).row k) = 1 → cellContent (s.cellWord n (s.can n).row k) = 0 →
      s.quiet = true → (s.can n).building = none → s.slotFrame n (cellSlot (s.cellWord n (s.can n).row k)) [] = some f →
      exec (.canWindowStart n k) s = .next ((s.modCan n fun c => { c with served := k.val :: c.served }).offerFrame n
        (.slot (cellSlot (s.cellWord n (s.can n).row k)) false 0 z) f z)) ∧
    (∀ (k : Fin 32) (a z : Nat) (l : List Nat), s.windowStart n k = some a → s.windowEnd n k = some z → s.service = .full →
      s.canSends n = true → s.canSchedule n ≠ 0 → a ≤ s.now → s.now < z → (s.can n).served.contains k.val = false →
      cellKind (s.cellWord n (s.can n).row k) = 1 → cellContent (s.cellWord n (s.can n).row k) = 0 → s.upsets = [] → (s.can n).building = none →
      l = s.nAddrs (s.slotWords n (cellSlot (s.cellWord n (s.can n).row k))) → l.any (s.locked 2) = true →
      exec (.canWindowStart n k) s = .next (s.modCan n fun c => { c with building := some (k.val, a, []) })) ∧
    (∀ (j : TxJob) (f : CanFrame) (z : Nat),
      ((s.can n).tx.isSome = true → s.offerFrame n j f z = s.modCan n fun c => { c with winWait := c.winWait ++ [(j, f, z)] }) ∧
      ((s.can n).tx = none → s.now + s.frameUsOf n f * 1000 ≤ z →
        s.offerFrame n j f z = s.modCan n fun c => { c with tx := some (j, { f with sof := s.now, esi := f.fdf && c.state == .errorPassive }) })) ∧
    (∀ (f : CanFrame) (l : List CanFrame), s.canSends n = true → (s.can n).tx = none → (s.can n).refWait = none → (s.can n).winWait = [] →
      (s.can n).emergency = [] → (s.can n).queue = f :: l → s.service = .full → s.canSchedule n = 0 →
      exec (.canQueuedFrameSend n) s = .next (s.modCan n fun c => { c with tx := some (.queued, { f with sof := s.now, esi := f.fdf && c.state == .errorPassive }) })) ∧
    (s.service = .full → s.canSchedule n = 1 → s.canSends n = true → (s.can n).refWait = none → (s.can n).tx = none → (s.can n).tIn = none →
      (s.can n).gap = false → exec (.basicCycleStart n) s = .next (s.sendRef n 3))

/-! ## The digital field side -/

/-- R212, R214 to R220, R227 to R229: a change is accepted once its run is as long as FILTER asks, takes the level at the instant 3 µs before its
first sample and counts; the counting path accepts a level in the same way by COUNT_FILTER, and an edge that COUNT_EDGE selects raises RAW_COUNT; a
lost counting stage restarts it at 0, and a count that reaches THRESHOLD fires source 112 + n at the time of its edge; WIRE_BREAK rises and falls with its
record; a sample of a group supply is kept and two below a threshold set SAG, LOW and, for an input group, LOST, which counts and restarts the counting
paths; each level clears, and the outputs of a group whose UVLO clears wait for the next apply, or act by their start values in Side-Street mode; UVLO of an output group drops its drivers and holds; the group overcurrent flag follows its two events. Where DSCAN does not run nothing of this is seen, but for
the comparators of UVLO and of the counting path, which are in hardware (R407). After a commanded restart FIRE is told of a state when the filter completes a
run, also of one that shows the same level (log 140). -/
def Obligations.DigitalFieldRows : Prop :=
  (∀ (s : State) (n : Fin 48),
      (∀ (v : Bool) (a : Nat), s.diEnable n = true → (s.di n).level ≠ v → s.runs 8 = true → (s.di n).filterFrom ≤ a →
        a + s.filterNs n ≤ s.now → ∃ t, exec (.diChangeAccepted n v a) s = .next t ∧
          t = { s with dis := t.dis, round := t.round, crossings := t.crossings, nextSend := t.nextSend, fire := t.fire } ∧
          t.di n = { s.keepDi (s.di n) with level := v, lastEdge := a - 3000, edged := true, edgeCount := (s.di n).edgeCount + 1
                                            edges := (s.di n).edges + 1, filterFrom := s.now, untold := false } ∧
          (∀ m, m ≠ n.val → t.di m = s.di m)) ∧
      (∀ (v : Bool) (a : Nat), a < (s.di n).filterFrom ∨ s.now < a + s.filterNs n → exec (.diChangeAccepted n v a) s = .next s) ∧
      (∀ (v : Bool) (a : Nat), s.diEnable n = true → (s.di n).level = v → s.runs 8 = true → (s.di n).filterFrom ≤ a → a + s.filterNs n ≤ s.now →
        exec (.diChangeAccepted n v a) s = .next (if (s.di n).untold then (s.setDi n { s.di n with untold := false }).diToFire n else s)) ∧
      (s.runs 8 = false → (∀ (v : Bool) (a : Nat), exec (.diChangeAccepted n v a) s = .next s) ∧ exec (.wireBreak n) s = .next s ∧
        exec (.wireBreakCleared n) s = .next s) ∧
      (∀ (k : Fin 16) (r : Bool) (a : Nat), s.diEnable k = true → (s.diGroup (k / 8)).lost = false → (s.di k).countLevel ≠ some r →
        (s.di k).countFrom + s.countFilterNs k ≤ a →
        ((if r then s.diCountEdge k % 2 = 1 else 2 ≤ s.diCountEdge k) → s.diThreshold k = 0 → exec (.pulseEdgeCounted k r a) s =
          .next (s.setDi k { s.di k with raw := (s.di k).raw + 1, trail := (s.di k).trail ++ [a], countLevel := some r, countFrom := a })) ∧
        ((if r then s.diCountEdge k % 2 ≠ 1 else s.diCountEdge k < 2) → exec (.pulseEdgeCounted k r a) s =
          .next (s.setDi k { s.di k with countLevel := some r, countFrom := a })) ∧
        ((if r then s.diCountEdge k % 2 = 1 else 2 ≤ s.diCountEdge k) → s.diThreshold k ≠ 0 →
          let d := { s.di k with raw := (s.di k).raw + 1, trail := (s.di k).trail ++ [a], countLevel := some r, countFrom := a }
          exec (.pulseEdgeCounted k r a) s = .next (if s.diThreshold k ≤ ((s.di k).raw + 1 - (s.di k).thresholdBase).toNat then
            (s.setDi k { d with thresholdBase := (s.di k).raw + 1 }).fireSourceAt (112 + k) a else s.setDi k d))) ∧
      (∀ (k : Fin 16) (r : Bool) (a : Nat), (s.di k).countLevel = some r ∨ a < (s.di k).countFrom + s.countFilterNs k →
        exec (.pulseEdgeCounted k r a) s = .next s) ∧
      (∀ g : Fin 6, ∃ t, exec (.countStagePowerLost g) s = .next t ∧ t = { s with dis := t.dis, diGroups := t.diGroups } ∧
        (∀ h, t.diGroup h = if h = g.val then { s.diGroup h with stageReset := true } else s.diGroup h) ∧
        ∀ m, t.di m = if m / 8 = g then { s.di m with raw := 0, thresholdBase := 0, trail := [] } else s.di m) ∧
      (s.runs 8 = true → s.diEnable n = true → s.diWireEn n = true → (s.di n).wireBreak = false → (s.diGroup (n / 8)).lost = false → exec (.wireBreak n) s =
        .next (((s.modDi n fun d => { s.keepDi d with wireBreak := true }).raise .wireBreak (mkWord [(5, 0, n)])).diToFire n)) ∧
      (s.runs 8 = true → (s.di n).wireBreak = true → (s.diGroup (n / 8)).lost = false → exec (.wireBreakCleared n) s =
        .next (((s.modDi n fun d => { s.keepDi d with wireBreak := false }).raise .wireBreakCleared (mkWord [(5, 0, n)])).diToFire n))) ∧
  (∀ (s : State),
      (∀ (k : GroupKind) (g : Fin 6) (mv : Nat), s.runs 8 = true → g.val < groupCount k → 19200 ≤ mv → exec (.groupSupplySample k g mv) s =
        .next (s.setDGroup k g { s.dGroup k g with lplus := some mv, below := 0, belowLow := 0, belowLost := 0 })) ∧
      (∀ (k : GroupKind) (g : Fin 6) (mv : Nat), s.runs 8 = true → g.val < groupCount k → 15000 ≤ mv → mv < 19200 → 1 ≤ (s.dGroup k g).below →
        (s.dGroup k g).sag = false → exec (.groupSupplySample k g mv) s =
          .next ((s.setDGroup k g { s.keepGroup (s.dGroup k g) with lplus := some mv, below := 2, belowLow := 0, belowLost := 0, sag := true }).raiseGroup
            .groupSag k g)) ∧
      (∀ (k : GroupKind) (g : Fin 6) (mv : Nat), s.runs 8 = true → g.val < groupCount k → 12000 ≤ mv → mv < 15000 → 1 ≤ (s.dGroup k g).below →
        1 ≤ (s.dGroup k g).belowLow → (s.dGroup k g).low = false →
        let y := s.setDGroup k g { s.keepGroup (s.dGroup k g) with lplus := some mv, below := 2, belowLow := 2, belowLost := 0, sag := true, low := true }
        let z := (if (s.dGroup k g).sag = true then y else y.raiseGroup .groupSag k g).raiseGroup .groupLow k g
        exec (.groupSupplySample k g mv) s = .next (if k = .di then z.diGroupToFire g else z)) ∧
      (∀ (k : GroupKind) (g : Fin 6) (mv : Nat), s.runs 8 = true → g.val < groupCount k → mv < 12000 → 1 ≤ (s.dGroup k g).below → 1 ≤ (s.dGroup k g).belowLow →
        1 ≤ (s.dGroup k g).belowLost → (s.dGroup k g).sag = true → (s.dGroup k g).low = true → (s.dGroup k g).lost = false →
        let run := fun (x : DGroup) => { x with lplus := some mv, below := 2, belowLow := 2, belowLost := 2 }
        exec (.groupSupplySample k g mv) s = .next (match k with
          | .di => (((s.setDiGroup g { run (s.keepGroup (s.diGroup g)) with lost := true, lostEvents := satInc (s.diGroup g).lostEvents }).raiseGroup
              .groupUvlo .di g).dropCounting g).diGroupToFire g
          | .do_ => s.setDoGroup g (run (s.doGroup g)))) ∧
      (∀ (k : GroupKind) (g : Fin 6), g.val < groupCount k →
        let x := s.keepGroup (s.dGroup k g)
        (s.runs 8 = true → (s.dGroup k g).sag = true → exec (.groupLevelClear k g .sag) s = .next (s.setDGroup k g { x with sag := false, below := 0 })) ∧
        (s.runs 8 = true → (s.dGroup k g).low = true →
          let t := s.setDGroup k g { x with low := false, belowLow := 0 }
          exec (.groupLevelClear k g .low) s = .next (if k = .di then t.diGroupToFire g else t)) ∧
        (s.runs 8 = true ∨ k = .do_ → (s.dGroup k g).lost = true →
          let t := (s.setDGroup k g { x with lost := false, belowLost := 0 }).raiseGroup .groupRecovered k g
          exec (.groupLevelClear k g .lost) s = .next (match k with
            | .di => (t.dropCounting g).diGroupToFire g
            | .do_ => t.each ((List.range 8).map fun j => 8 * g.val + j) fun u n =>
                if s.service = .sideStreet then
                  (u.setDo n { u.do_ n with latchedOff := (u.do_ n).latchedOff || (u.doLatch n && (u.do_ n).selected) }).doRefresh n
                else u.setDo n { u.do_ n with await_ := true, recovered := true }))) ∧
      (∀ (g : Fin 4) (mv : Nat), (s.doGroup g).lost = false → ∃ t, exec (.groupUvlo g mv) s = .next t ∧
        t = { s with dos := t.dos, doGroups := t.doGroups, crossings := t.crossings, nextSend := t.nextSend } ∧
        (∀ h, t.doGroup h = if h = g.val then { s.doGroup h with lplus := some mv, lost := true, lostEvents := satInc (s.doGroup h).lostEvents }
          else s.doGroup h) ∧ (∀ m, m / 8 ≠ g → t.do_ m = s.do_ m) ∧ ∀ k < 8, (t.do_ (8 * g + k)).driven = false ∧ (t.do_ (8 * g + k)).held = false) ∧
      (∀ (g : Fin 4) (ma : Nat), s.runs 8 = true → (s.doGroup g).overcurrent = false → exec (.groupOvercurrent g ma) s =
        .next ((s.modDoGroup g fun x => { x with overcurrent := true }).raise .groupOvercurrent (mkWord [(23, 8, ma), (2, 0, g)]))) ∧
      (∀ (g : Fin 4) (ma : Nat), s.runs 8 = true → (s.doGroup g).overcurrent = true → exec (.groupOvercurrentCleared g ma) s =
        .next ((s.modDoGroup g fun x => { x with overcurrent := false }).raise .groupOvercurrentCleared
          (mkWord [(23, 8, ma), (2, 0, g)]))) ∧
      (s.runs 8 = false → (∀ (k : GroupKind) (g : Fin 6) (mv : Nat), exec (.groupSupplySample k g mv) s = .next s) ∧
        (∀ (k : GroupKind) (g : Fin 6) (l : GroupLevel), k = .di ∨ l ≠ .lost → exec (.groupLevelClear k g l) s = .next s) ∧
        ∀ (g : Fin 4) (ma : Nat), exec (.groupOvercurrent g ma) s = .next s ∧ exec (.groupOvercurrentCleared g ma) s = .next s))

/-- R221 to R224: overload and thermal shut-down switch the output off and count; a retry is made at an apply, which before its time leaves the output
off, and at or after it, with a driver that has cooled, switches on an output that R225 selects on; the flags fall after 1 s on;
OPEN_LOAD, SHORT_TO_SUPPLY and REVERSE follow their conditions; what DSCAN sees of them is seen while it runs (R407). Each fires source 224 + n and is recorded where it rises. -/
def Obligations.OutputProtectionRows : Prop :=
  ∀ (s : State) (n : Fin 32),
    ((s.do_ n).driven = true → ∃ t, exec (.doOverload n) s = .next t ∧ t = { s with dos := t.dos, crossings := t.crossings, nextSend := t.nextSend, round := t.round } ∧
      (∀ m, m ≠ n.val → t.do_ m = s.do_ m) ∧ (t.do_ n).overload = true ∧ (t.do_ n).driven = false ∧
      (t.do_ n).overloads = satInc (s.do_ n).overloads ∧ (t.do_ n).retryAt = s.now + 1000000000 ∧
      t.round = { s.round with firings := s.round.firings ++ [(224 + n.val, s.now)] }) ∧
    ((s.do_ n).driven = true → ∃ t, exec (.doThermalShutdown n) s = .next t ∧ t = { s with dos := t.dos, crossings := t.crossings, nextSend := t.nextSend, round := t.round } ∧
      (∀ m, m ≠ n.val → t.do_ m = s.do_ m) ∧ (t.do_ n).thermal = true ∧ (t.do_ n).driven = false ∧
      (t.do_ n).hot = true ∧ t.round = { s.round with firings := s.round.firings ++ [(224 + n.val, s.now)] }) ∧
    (∀ cooled : Bool, exec (.doRetryDue n cooled) s = .next (s.setDo n { s.do_ n with hot := (s.do_ n).hot && !cooled })) ∧
    ((s.do_ n).protectedOff = true → s.now < (s.do_ n).retryAt ∨ (s.do_ n).hot = true ∨ (s.do_ n).latchedOff = true →
      ((s.doApply n).do_ n).driven = false ∧ ((s.doApply n).do_ n).protectedOff = true) ∧
    ((s.do_ n).protectedOff = true → (s.do_ n).retryAt ≤ s.now → (s.do_ n).hot = false → (s.do_ n).latchedOff = false →
      s.doWould n (s.doSelect n).1 = true → s.doLatches n = false →
      ((s.doApply n).do_ n).driven = true ∧ ((s.doApply n).do_ n).protectedOff = false ∧ ((s.doApply n).do_ n).retrying = true) ∧
    (∀ t : Nat, s.runs 8 = true → (s.do_ n).onSince = some t → t + 1000000000 ≤ s.now → (s.do_ n).driven = true → (s.do_ n).overload = true → (s.do_ n).thermal = false →
      exec (.doFaultCleared n) s = .next ((s.setDo n { s.do_ n with overload := false, thermal := false, retries := 0, retrying := false }).raiseDo
        .doFaultCleared 3 n)) ∧
    (s.runs 8 = true → s.doOpenEn n = true → (s.do_ n).driven = true → (s.do_ n).openLoad = false →
      exec (.openLoad n) s = .next ((s.setDo n { s.do_ n with openLoad := true }).doFaultRise 1 n)) ∧
    (s.runs 8 = true → (s.do_ n).openLoad = true → (s.do_ n).driven = true →
      exec (.openLoadClear n) s = .next ((s.modDo n fun d => { d with openLoad := false }).raiseDo .doFaultCleared 1 n)) ∧
    (s.runs 8 = true → (s.do_ n).driven = false → (s.do_ n).short = false → s.extDrive n = false → exec (.shortToSupply n) s =
      .next ((s.setDo n { s.do_ n with short := true, shorts := satInc (s.do_ n).shorts }).doFaultRise 2 n)) ∧
    (s.extDrive n = true → exec (.shortToSupply n) s = .next s) ∧
    (s.runs 8 = true → (s.do_ n).driven = false → (s.do_ n).short = true → exec (.shortToSupplyClear n) s =
      .next ((s.setDo n { s.do_ n with short := false }).raiseDo .doFaultCleared 2 n)) ∧
    ((s.do_ n).short = false → exec (.shortToSupplyClear n) s = .next s) ∧
    (s.runs 8 = false → exec (.doFaultCleared n) s = .next s ∧ exec (.openLoad n) s = .next s ∧ exec (.openLoadClear n) s = .next s ∧
      exec (.shortToSupply n) s = .next s ∧ exec (.shortToSupplyClear n) s = .next s) ∧
    (∀ above : Bool, exec (.reverse n above) s = .next (s.setDo n { s.do_ n with reverse := above }))

/-- R226, R229, R231: an acknowledged output of a group that is not in UVLO, whose driver has cooled, leaves LATCHED_OFF and waits for the next apply, and no other output changes; the end of the hold window drives the safe state of
each held output; until the first apply of full service the offered words are renewed every 1 ms. -/
def Obligations.OutputHoldRows : Prop :=
  ∀ (s : State) (p : Packet),
    (let b := s.payloadOf p outputAckDesc
     let g := byteAt b 0
     s.admits p outputAckDesc = true → g ≤ 3 → s.forwards = false → exec (.outputAck p) s =
       .next (((s.admitted p outputAckDesc).acknowledge g (byteAt b 1)).ok (s.ctxOf p outputAckDesc))) ∧
    (∀ (g : Fin 4) (mask : BitVec 8) (m : Nat),
      let d := s.do_ m
      (s.acknowledge g mask.toNat).do_ m =
        if m / 8 = g.val ∧ mask.getLsbD (m % 8) = true ∧ d.latchedOff = true ∧ (s.doGroup g).lost = false ∧ d.hot = false then
          { d with latchedOff := false, protectedOff := false, retries := 0, retrying := false, await_ := true }
        else d) ∧
    (let b := s.payloadOf p outputAckDesc
     let g := byteAt b 0
     s.admits p outputAckDesc = true → g ≤ 3 → s.forwards = true → s.causewayLost = false → exec (.outputAck p) s =
       .next (((s.admitted p outputAckDesc).queueChange (.ack (Fin.ofNat 4 g) (BitVec.ofNat 8 (byteAt b 1)))).ok (s.ctxOf p outputAckDesc))) ∧
    (∀ (n : Fin 32) (u : Nat), s.pair.holdUntil = some u → u ≤ s.now → (s.do_ n).held = true →
      ∃ t, exec .holdWindowExpiry s = .next t ∧
        t = { s with pair := { s.pair with holdUntil := none }, dos := t.dos, ucs := t.ucs } ∧ (t.do_ n).heldState = s.doSafe n ∧ (t.do_ n).held = true) ∧
    (∀ n : Fin 48, s.beforeFirstApply = true → s.dueEvery s.power.refreshedAt 1000000 = true → ∃ t, exec .sideStreetRefresh s = .next t ∧
      t = { s with power := { s.power with refreshedAt := some s.now }, dis := t.dis, dos := t.dos } ∧ (t.di n).offered = s.diStatus n s.now ∧
      (t.di n).edges = (s.di n).edges) ∧
    (∀ n : Fin 32, s.beforeFirstApply = true → s.dueEvery s.power.refreshedAt 1000000 = true → ∃ t, exec .sideStreetRefresh s = .next t ∧
      (t.do_ n).offered = s.doStatus n ∧ (t.do_ n).driven = (s.do_ n).driven) ∧
    (s.dueEvery s.power.refreshedAt 1000000 = false → exec .sideStreetRefresh s = .next s)

/-! ## The Fire Lane -/

/-- R280, R288, R289 (and R14, R429): FIRE_RESET clears what it may and names it; FIRE_LOAD stores the staged set and leaves no arm, but refuses one with
a word out of its range (log 112); FIRE_ARM opens the arm for a
set that matches its CRC and breaks no rule; FIRE_CONFIRM writes it to MRAM and takes it, at once out of full service; in full service the set before
it stays in force until the next boundary; while a domain that the set needs is not in RUN the set waits for it (R22); the arm ends after 60 s. -/
def Obligations.FireCommands : Prop :=
  ∀ (s : State) (p : Packet),
    (let t := s.admitted p fireResetDesc
     let r := t.resetFns ((List.range 16).filter fun f => (be16 (s.payloadOf p fireResetDesc) 0).testBit f) false
     s.admits p fireResetDesc = true → exec (.fireReset p) s =
       .next (r.1.reply (s.ctxOf p fireResetDesc) (if r.2.2 then .acceptedDeferred else .ok) (toBe 2 r.2.1 ++ pad 2))) ∧
    (let q := s.admitted p fireLoadDesc
     s.admits p fireLoadDesc = true → (∀ k < 192, stagedOk k ((packWords 192 (s.payloadOf p fireLoadDesc)).getD k 0) = true) → ∃ t, exec (.fireLoad p) s = .next t ∧
      t = { q with sup := t.sup, mram := { q.mram with obj := t.mram.obj, voidCopies := t.mram.voidCopies, seqs := t.mram.seqs }, fire := { q.fire with arm := none } } ∧
      t.stagedWords = packWords 192 (s.payloadOf p fireLoadDesc) ∧ t.sup = (q.reply (s.ctxOf p fireLoadDesc) .ok (wordBe t.stagedCrc)).sup ∧
      ∀ i k, (∀ j < 192, stagedKey j ≠ okey i k) → t.cfg i k = s.cfg i k) ∧
    (s.admits p fireLoadDesc = true → (∃ k < 192, stagedOk k ((packWords 192 (s.payloadOf p fireLoadDesc)).getD k 0) = false) →
      exec (.fireLoad p) s = .next ((s.admitted p fireLoadDesc).refuse (s.ctxOf p fireLoadDesc) .outOfRange)) ∧
    (let crc := beWord (s.payloadOf p fireArmDesc) 0
     let c := s.ctxOf p fireArmDesc
     let token := Config.armToken s.freeCount
     s.admits p fireArmDesc = true → s.stagedCrc = crc → s.fireSetSound s.stagedWord = true → exec (.fireArm p) s =
       .next ({ (s.admitted p fireArmDesc).draw with fire := { s.fire with
         arm := some { token := token, crc := crc, origin := c.origin, keyslot := c.keyslot, at_ := s.now } } }.reply c .ok
           (toBe 2 token.toNat ++ pad 2))) ∧
    (∀ a : Arm,
      let b := s.payloadOf p fireConfirmDesc
      let c := s.ctxOf p fireConfirmDesc
      s.admits p fireConfirmDesc = true → s.fire.arm = some a → a.crc = beWord b 0 → a.token.toNat = be16 b 4 → a.origin = c.origin →
      a.keyslot = c.keyslot → s.now ≤ a.at_ + 60000000000 →
      (∀ f < 16, (s.fireFn f).tripped = false ∧ (s.fireFn f).latched = false ∧ (s.fireFn f).resetPending = false) → s.forwards = false →
      (s.service = .full →
        let u := ((s.admitted p fireConfirmDesc).disarm).holdFire s.stagedWords
        exec (.fireConfirm p) s = .next (u.ok c) ∧ (∀ k < 192, u.fireWord k = s.fireWord k ∧ u.mram.fire.get (fireDefault k) k = s.stagedWord k) ∧
          u.mram.fireValid = true ∧ u.fire = { s.fire with arm := none, before := u.fire.before }) ∧
      (s.service ≠ .full →
        let q := (s.admitted p fireConfirmDesc).disarm
        let u := q.holdFire s.stagedWords
        exec (.fireConfirm p) s = .next ((if u.fireReady then q.takeFire s.stagedWords else u).judgeDomains.ok c))) ∧
    (∀ a : Arm, s.fire.arm = some a → a.at_ + 60000000000 ≤ s.now →
      exec .fireArmExpiry s = .next { s with fire := { s.fire with arm := none } })

/-- R274, R276 to R279, R282, R285: a message reaches its slots and every function is judged; so does a check of the times. A slot takes its condition
from the message that names its source; it is counted by its condition, or while unassured with UNASSURED_TRIP; one that hears nothing for its time is unassured with REASON
03h, unless a lower reason stands. A function that is enabled trips when its VOTES reach K, latched by LATCH, and fires source 312 + f; it
clears, with LATCH = 0, when its outputs are done and VOTES are below K. A function whose outputs
all stand in their trip state is done; an output that does not reach it in 100 ms is recorded; a frame repeats; the line of the partner acts on the
outputs. -/
def Obligations.FireRows : Prop :=
  ∀ (s : State),
    (∀ (m : FireMsg) (l : List FireMsg), s.fire.inbox = m :: l → s.fireRuns = true → exec .fireInputDelivery s =
      .next ((List.range 16).foldl State.evalFn ((List.range 32).foldl (State.slotMessage m) ({ s with fire := { s.fire with inbox := l } }.countBadFrame m)))) ∧
    (∀ (k : Fin 2) (xtd : Bool) (i : BitVec 29) (b : Nat), s.countBadFrame (.can k xtd i b) = if 1 < b ∧ (List.range 32).any (fun j => s.canMatches j k xtd i) = true then
      { s with fire := { s.fire with badFrames := satInc s.fire.badFrames } } else s) ∧
    (∀ (i : Fin 32),
      let x := s.fireSlot i
      let heard := fun (m : FireMsg) (y : FireSlot) => (State.slotMessage m s i).fireSlot i = y ∧ ∀ j, j ≠ i.val → (State.slotMessage m s i).fireSlot j = s.fireSlot j
      (∀ (n : Nat) (level wb sup st : Bool), s.inKind i = 1 →
        (s.inRef i = n → heard (.di n level wb sup st) { condition := level == bit (s.inWord i 0) 26, unassured := sup || wb || st
                                                         reason := if sup then 1 else if wb then 2 else if st then 3 else 0, lastAt := some s.now }) ∧
        (s.inRef i ≠ n → State.slotMessage (.di n level wb sup st) s i = s)) ∧
      (∀ (n : Nat) (v : Int) (bad : Bool), s.inKind i = 2 ∨ s.inKind i = 3 →
        let th := sInt (s.inWord i 1)
        let hyst : Int := (s.inWord i 2).toNat
        (s.inRef i = n → heard (.uc n (some v) bad) { condition := decide (if s.inKind i = 2 then (if x.condition then th - hyst ≤ v else th < v)
                                                        else (if x.condition then v ≤ th + hyst else v < th))
                                                      unassured := bad, reason := if bad then 5 else 0, lastAt := some s.now }) ∧
        (s.inRef i ≠ n → State.slotMessage (.uc n (some v) bad) s i = s)) ∧
      (∀ (a : BitVec 16) (states : BitVec 256), s.inKind i = 4 →
        let named := s.inRef i = a.toNat ∨ (bit (s.inWord i 2) 31 = true ∧ bits (s.inWord i 2) 25 16 = a.toNat)
        (named → heard (.ring a states) { condition := states.getLsbD (bits (s.inWord i 1) 7 0), unassured := false, reason := 0, lastAt := some s.now }) ∧
        (¬ named → State.slotMessage (.ring a states) s i = s)) ∧
      (∀ (k : Nat) (xtd : Bool) (id : BitVec 29) (b : Nat), s.inKind i = 5 →
        (b ≤ 1 → s.canMatches i k xtd id = true → heard (.can k xtd id b) { condition := b == 1, unassured := false, reason := 0, lastAt := some s.now }) ∧
        (1 < b ∨ s.canMatches i k xtd id = false → State.slotMessage (.can k xtd id b) s i = s)) ∧
      (∀ b po : BitVec 16, s.inKind i = 6 → heard (.request b po) (if po.getLsbD (s.inRef i) then { x with unassured := true, reason := 4, lastAt := some s.now }
        else { condition := b.getLsbD (s.inRef i), unassured := false, reason := 0, lastAt := some s.now })) ∧
      (∀ t n : Nat, x.lastAt = some t →
        ((s.inKind i = 2 ∨ s.inKind i = 3) ∧ n = 3 * s.ucPeriod (s.inRef i) + 1000000 ∨
          (s.inKind i = 4 ∨ s.inKind i = 5) ∧ n = bits (s.inWord i 0) 15 0 * 1000000 ∧ n ≠ 0) →
        (t + n < s.now → (State.slotTimeout s i).fireSlot i =
          { x with unassured := true, reason := if x.unassured = true ∧ x.reason < 3 then x.reason else 3 }) ∧
        (s.now ≤ t + n → State.slotTimeout s i = s)) ∧
      (s.inKind i ≠ 0 → s.inKind i ≠ 7 → s.inCounted i = (x.condition || (s.inUnassured i && bit (s.inWord i 0) 27))) ∧
      (s.inKind i = 0 ∨ s.inKind i = 7 → s.inCounted i = false)) ∧
    (∀ f : Fin 16,
      let x := s.fireFn f
      let votes := ((List.range 32).filter fun i => bit (s.fnWord f 1) i && s.inCounted i).length
      let k := match bits (s.fnWord f 0) 30 29 with
        | 0 => 1
        | 1 => ((List.range 32).filter fun i => bit (s.fnWord f 1) i).length
        | _ => bits (s.fnWord f 0) 23 20
      (bit (s.fnWord f 0) 31 = true → x.tripped = false → k ≤ votes → ∃ t, State.evalFn s f = t ∧
        t.fireFn f = { x with tripped := true, latched := bit (s.fnWord f 0) 28, done := false, resetPending := false, trips := satInc x.trips, tripAt := s.now } ∧
        (∀ g, g ≠ f.val → t.fireFn g = s.fireFn g) ∧ (312 + f.val, s.now) ∈ t.round.firings) ∧
      (bit (s.fnWord f 0) 31 = true → x.tripped = true → bit (s.fnWord f 0) 28 = false → x.done = true → votes < k → ∃ t, State.evalFn s f = t ∧
        t.fireFn f = { x with tripped := false, latched := false, done := false, resetPending := false } ∧ ∀ g, g ≠ f.val → t.fireFn g = s.fireFn g) ∧
      (bit (s.fnWord f 0) 31 = false ∨ (x.tripped = false ∧ votes < k) ∨ (x.tripped = true ∧ (bit (s.fnWord f 0) 28 = true ∨ x.done = false ∨ k ≤ votes)) →
        State.evalFn s f = s)) ∧
    (s.fireRuns = true → exec .fireTimeoutCheck s =
      .next ((List.range 16).foldl State.evalFn ((List.range 32).foldl State.slotTimeout s))) ∧
    (∀ f : Fin 16, s.fireRuns = true → (s.fireFn f).tripped = true → (s.fireFn f).done = false → (∀ o ∈ s.fnOuts f, s.outReached o = true) →
      (s.fireFn f).resetPending = false → s.fnLatch f = true → exec (.fireActionComplete f) s =
        .next (s.setFireFn f { s.fireFn f with done := true, resetPending := false })) ∧
    (∀ o : Fin 24, s.fireRuns = true → s.outTripped o = true → s.outReached o = false → (s.fireOut o).since + 100000000 ≤ s.now →
      exec (.tripOutputFailed o) s = .next ((s.setFireOut o { s.fireOut o with failed := true }).raise .tripOutputFailed (mkWord [(4, 0, o)]))) ∧
    (∀ o : Fin 24, s.outTripped o = true → s.outKind o = 3 ∨ s.outKind o = 4 → 0 < bits (s.outWord o 0) 15 0 →
      (s.fireOut o).sentAt + bits (s.outWord o 0) 15 0 * 1000000 ≤ s.now → s.fireRuns = true →
      exec (.fireFrameRepeat o) s = .next (s.sendFrame o)) ∧
    (∀ v : Bool, let t := { s with fire := { s.fire with cutIn := v } }
      exec (.tripCutInput v) s = .next (if t.lineCut = s.lineCut then t else t.cutOutputs))

/-! ## Totals, memory, records, panel, keys, addresses -/

/-- R321, R322, R327, R333, R334: a close waits for the next commit of its total; at a boundary, once, an integrator adds its term, or is in a
gap, and a pulse total is in a gap while its group is LOST; in Side-Street mode the hardware totals are committed every 100 ms under cycle 0. -/
def Obligations.TotalRows : Prop :=
  ∀ (s : State) (p : Packet),
    (let n := byteAt (s.payloadOf p totalCloseDesc) 0
     let c := s.ctxOf p totalCloseDesc
     s.admits p totalCloseDesc = true → n ≤ 63 → (s.total n).close = [] → s.forwards = false → s.service ≠ .outOfService →
     exec (.totalClose p) s = .next ((s.admitted p totalCloseDesc).modTotal n fun x =>
       { x with close := [{ ctx := some c, close := true, config := [], boundary := none }] })) ∧
    (let n := byteAt (s.payloadOf p totalCloseDesc) 0
     let c := s.ctxOf p totalCloseDesc
     s.admits p totalCloseDesc = true → n ≤ 63 → (s.total n).close = [] → s.forwards = true → s.causewayLost = false →
     exec (.totalClose p) s = .next (((s.admitted p totalCloseDesc).tellStandby
       (.totalClose (Fin.ofNat 64 n))).modTotal n fun x =>
         { x with close := [{ ctx := some c, close := true, config := [], boundary := some s.changeBoundary }] })) ∧
    (s.service ≠ .off → s.service ≠ .halted → s.square.boundaryNo < s.now / 10000 →
      let l := (List.range 32).map s.ucMeter
      let term := fun k => totTerm (s.totCfg k) (s.totCoeff k) l
      ∃ t, exec .integratorBoundary s = .next t ∧ t = { s with totals := t.totals, square := { s.square with
        boundaryNo := s.now / 10000, metered := s.square.metered ++ [(s.now / 10000, l)] } } ∧
      (∀ k, 64 ≤ k → t.total k = s.total k) ∧ ∀ k < 64,
        (totKind (s.totCfg k) = .program → t.total k = s.total k) ∧
        (totKind (s.totCfg k) = .pulse → (s.diGroup (totRefA (s.totCfg k) / 8)).lost = true → t.total k = (s.total k).inGap) ∧
        (totKind (s.totCfg k) = .pulse → (s.diGroup (totRefA (s.totCfg k) / 8)).lost = false → t.total k = { s.total k with gap := false }) ∧
        (totKind (s.totCfg k) = .integrator ∨ totKind (s.totCfg k) = .product →
          (∀ v, term k = some v → t.total k = { s.total k with
            gap := false, acc := wrap128 ((s.total k).acc + v), trail := (s.total k).trail ++ [(s.now / 10000, v)] }) ∧
          (term k = none → t.total k = (s.total k).inGap))) ∧
    (s.now / 10000 ≤ s.square.boundaryNo → exec .integratorBoundary s = .next s) ∧
    (s.service = .sideStreet → s.dueEvery s.power.totalsAt 100000000 = true → exec .totalsSideStreetCommit s =
      .next (({ s with power := { s.power with totalsAt := some s.now } }.takeMarks s.now).commitTotals 0))

/-- R340, R342 to R344, R346, R348, R349, R350: a page within the reach of its code is repaired and counted; past it the arrays count it, and a byte that
fails the check after it with no spare left goes on failing, one that its own code could not correct as such; what waited for the page goes on; the bucket leaks one
unit when its time has come; a scrub read is made at the pace of its pass and in ascending order; it corrects, remaps where the check after that fails,
and starts the repair of the page of an uncorrectable word; a pass, which ends in its time, starts the age anew; SCRUB_NOW starts a pass of its own from
the lowest address. The pace of a commanded pass, its end, and that a scrub read or the end of a pass before its time does nothing, are the model's
choice (log 134). An engine waits for a locked page of its instruction. -/
def Obligations.MemoryRows : Prop :=
  ∀ (s : State) (p : Packet) (a : Fin 8),
    (∀ (k : PageLock) (bad : List Nat) (n : Nat), s.locks.find? (·.array == a.val) = some k → repairable bad n = true →
      (∀ u ∈ s.upsets, u.array ≠ a.val ∨ u.page ≠ k.page) →
      exec (.pageRepairComplete a bad n []) s = .next (({ s with locks := s.locks.erase k }.modArr a fun x =>
        { x with repaired := satInc x.repaired }).raise .memPageRepaired (pageValue a k.page)).resume) ∧
    (s.sup.stalled = [] → (∀ k < 2, (s.can k).storing = []) → s.loop.waiting = [] → s.resume = s) ∧
    (∀ (k : PageLock) (bad : List Nat) (n : Nat) (hard : List Nat), s.locks.find? (·.array == a.val) = some k → repairable bad n = false →
      k.written = [] → (∀ u ∈ s.upsets, u.array ≠ a.val ∨ u.page ≠ k.page) → a.val = 0 ∨ a.val = 1 → ∃ t : State, exec (.pageRepairComplete a bad n hard) s = .next t.resume ∧
        t = { s with locks := s.locks.erase k, arrays := t.arrays, raised := t.raised, upsets := t.upsets
                     mram := { s.mram with banks := t.mram.banks, remap := t.mram.remap, voidCopies := t.mram.voidCopies, seqs := t.mram.seqs } } ∧
        (∀ u ∈ t.upsets, u ∈ s.upsets ∨ (u.array = a.val ∧ u.page = k.page ∧ u.hard = true ∧ u.multi = bad.contains u.byte ∧ u.byte ∈ hard ∧ t.spared u = false)) ∧ (∀ b, b ≠ a.val → t.arr b = s.arr b) ∧ (t.arr a).unrepairable = satInc (s.arr a).unrepairable ∧ (t.arr a).repaired = (s.arr a).repaired ∧
        ∀ b ∈ bad, b < 512 → (t.bank a).poison.get false ((k.page * 512 + b) / 4) = true) ∧
    ((s.arr a).bucket ≠ 0 → (s.arr a).leakFrom + s.bucketLeakNs a ≤ s.now → exec (.bucketLeak a) s =
      .next (s.setArr a { s.arr a with bucket := (s.arr a).bucket - 1, leakFrom := (s.arr a).leakFrom + s.bucketLeakNs a })) ∧
    (∀ (d n : Nat) (h : Bool), s.scrubs a = true → s.locked a d = false → (s.arr a).scrubbed ≤ dataPlace d → s.passAt a (dataPlace d) ≤ s.now →
      s.upsets = [] →
      let t := s.modArr a fun x => { x with scrubbed := dataPlace d + 4 }
      exec (.scrubRead a d .clean h) s = .next t ∧ exec (.scrubRead a d (.corrected n false) false) s = .next (t.corrections a n) ∧
        exec (.scrubRead a d (.corrected n false) true) s = .next ((t.corrections a n).remapWord a (wordOf d)) ∧
        exec (.scrubRead a d (.uncorrectable n) h) s = .next ((t.corrections a n).startRepair a d)) ∧
    (∀ (d : Nat) (v : Verdict) (h : Bool), dataPlace d < (s.arr a).scrubbed ∨ s.now < s.passAt a (dataPlace d) → exec (.scrubRead a d v h) s = .next s) ∧
    (s.now < s.passAt a (storedBytes a) → exec (.scrubPassComplete a) s = .next s) ∧
    (s.scrubs a = true → s.passAt a (storedBytes a) ≤ s.now → s.upsets = [] → exec (.scrubPassComplete a) s =
      .next (s.modArr a fun x => { x with scrubbed := 0, scrubFrom := s.now, passFrom := s.now, commanded := false })) ∧
    (∀ (i : Instr) (e : Fin 4) (ws : List Word), encodeEngine i = some (e, ws) → s.stands i = true →
      s.spanLocked s.runBankNo (4 * s.pcOf e) (4 * ws.length) = true → exec i s = .next (s.waitPage e)) ∧
    (let n := byteAt (s.payloadOf p scrubNowDesc) 0
     s.admits p scrubNowDesc = true → n ≤ 7 → (s.arr n).sealed_ = true → (s.arr n).commanded = false → exec (.scrubNow p) s =
       .next (((s.admitted p scrubNowDesc).modArr n fun x => { x with commanded := true, passFrom := s.now, scrubbed := 0 }).ok
         (s.ctxOf p scrubNowDesc)))

/-- R354 to R359, R362: a record crosses to KEEP as a Class 2 message, KEEP's own at once, and takes the time of its arrival unless its chapter names one;
KEEP takes the first to arrive, of those of one instant the one of the lowest SOURCE, or counts it lost when 64 wait; a record that merges with none is written under the index after NEWEST, in a free slot or in that of the oldest held record whose severity is no
higher, and is lost where there is none; a note is raised with its SOURCE, and answered when it is written. Every record is counted at its severity, and one that gives up its slot as
overwritten at its own; a write of the slot table makes both of its copies good. That records of one instant of module time are taken by
ascending SOURCE, an instant standing for a clock of KEEP, and that the free slot is the lowest, are the model's choices (log 129). -/
def Obligations.RecorderRows : Prop :=
  ∀ (s : State) (p : Packet),
    (∀ (q : Raised) (src : Nat),
      let q' : Raised := { q with arrived := s.now, stamped := true, rec_ := if q.stamped then q.rec_ else { q.rec_ with timestamp := s.now } }
      (q.rec_.source = 17 → s.handRecord q = { s with raised := s.raised ++ [q'] }) ∧
      (src < 20 → src ≠ 17 → q.rec_.source.toNat = src → s.handRecord q = s.postMessage src 17 2 (.record q)) ∧
      (20 ≤ q.rec_.source.toNat → s.handRecord q = s.postMessage 16 17 2 (.record q))) ∧
    (∀ (q : Raised) (l : List Raised), s.raised = q :: l → (∀ x ∈ l, x.arrived = q.arrived → q.rec_.source ≤ x.rec_.source) →
      let v := q.rec_.severity.toNat
      (s.recQueue.length < 64 → exec .recordRaised s = .next ({ s with raised := l, recQueue := s.recQueue ++ [q] }.modSevCount v fun c =>
        { c with waiting := c.waiting + 1 })) ∧
      (64 ≤ s.recQueue.length → ∃ t, exec .recordRaised s = .next t ∧
        t = { s with raised := l, sup := t.sup, mram := { s.mram with sev := t.mram.sev } } ∧ (t.sevCount v).lost = (s.sevCount v).lost + 1 ∧
        (q.noteFor = none → q.closeFor = none → t.sup = s.sup))) ∧
    (∀ (q : Raised) (l : List Raised), s.mramChecked = true → s.recQueue = q :: l → s.mergeTarget q.rec_ = none →
      s.mram.record (nextIndex s.mram.newest) = none → s.quiet = true →
      let v := q.rec_.severity.toNat
      let n := nextIndex s.mram.newest
      let copies := s.mram.voidCopies.filter fun c => c != .slotTable false && c != .slotTable true
      (s.mram.records.length < 65536 → ∃ t, exec .recordWrite s = .next t ∧ t = { s with recQueue := l, sup := t.sup, mram := { s.mram with
        newest := n, records := s.mram.records ++ [(n, { q.rec_ with slot := s.mram.freeSlot })], latest := s.mram.latest.put q.rec_.source.toNat n, sev := t.mram.sev
        voidCopies := copies } } ∧
        t.sevCount v = { s.sevCount v with waiting := (s.sevCount v).waiting - 1, written := (s.sevCount v).written + 1 } ∧
        (q.noteFor = none → q.closeFor = none → t.sup = s.sup) ∧
        ∀ c, q.noteFor = some c → q.closeFor = none → t.sup = (s.reply c .ok (toBe 4 n.toNat)).sup) ∧
      (∀ e, 65536 ≤ s.mram.records.length → s.mram.records.find? (fun e => decide (e.2.severity ≤ q.rec_.severity)) = some e →
        s.mram.record e.1 = some e.2 → ∃ t, exec .recordWrite s = .next t ∧ t = { s with recQueue := l, sup := t.sup, mram := { s.mram with
          newest := n, records := (s.mram.records.filter fun x => x.1 != e.1) ++ [(n, { q.rec_ with slot := e.2.slot })]
          latest := s.mram.latest.put q.rec_.source.toNat n, sev := t.mram.sev, voidCopies := copies } } ∧
          ∀ u : Nat, t.sevCount u = { s.sevCount u with
            waiting := if u = v then (s.sevCount u).waiting - 1 else (s.sevCount u).waiting
            written := if u = v then (s.sevCount u).written + 1 else (s.sevCount u).written
            overwritten := if u = e.2.severity.toNat then (s.sevCount u).overwritten + 1 else (s.sevCount u).overwritten }) ∧
      (65536 ≤ s.mram.records.length → s.mram.records.find? (fun e => decide (e.2.severity ≤ q.rec_.severity)) = none →
        ∃ t, exec .recordWrite s = .next t ∧ t = { s with recQueue := l, sup := t.sup, mram := { s.mram with sev := t.mram.sev } } ∧
          (t.sevCount v).lost = (s.sevCount v).lost + 1)) ∧
    (∀ (q : Raised) (l : List Raised) (i : BitVec 32) (h : Record), s.mramChecked = true → s.recQueue = q :: l → s.mergeTarget q.rec_ = some (i, h) →
      s.quiet = true →
      ∃ t, exec .recordWrite s = .next t ∧ t = { s with recQueue := l, sup := t.sup, mram := { s.mram with
        sev := t.mram.sev, records := s.mram.records.map fun (e : BitVec 32 × Record) => if e.1 == i then (i, h.merge q.rec_) else e } } ∧
        let v := q.rec_.severity.toNat
        t.sevCount v = { s.sevCount v with waiting := (s.sevCount v).waiting - 1, merged := (s.sevCount v).merged + 1 }) ∧
    (let b := s.payloadOf p recNoteDesc
     let c := s.ctxOf p recNoteDesc
     let t := s.admitted p recNoteDesc
     s.admits p recNoteDesc = true → 0x8000 ≤ be16 b 0 → byteAt b 2 ≤ 1 → exec (.recNote p) s =
       .next (t.postMessage 16 17 2 (.record { noteFor := some c, closeFor := none, stamped := false
                                               rec_ := t.mkRecord (if c.tagged then 0x100 + c.keyslot.toNat else 0x108)
                                                 (.note (be16 b 0) (byteAt b 2)) (beWord b 4) none none })))

/-- R366 to R373: PANEL_FRAME writes the hidden buffer, PANEL_SHOW asks for the swap, which a frame start makes and answers, but not while PANEL restarts;
frames start at FRAME_HZ;
a frame that fails its CRC is dark from the next one on; PANEL_POWER and the power events move STATE, down in two frames and 10 ms; a supply out of its
range turns the panel off and remembers what it was to be. R366 to R368, R414: in a panel that is ON every column
below WIDTH carries the same current, COL_CURRENT × 320 µA / 63, for as many slices as its grey level; every other column is high-impedance (what a
row reads of rows and columns outside the panel is the model's, log 110). -/
def Obligations.PanelRows : Prop :=
  ∀ (s : State) (p : Packet),
    let frame := 1000000000 / max 1 (bits (s.cfg 0xB00 0) 23 16)
    let due := ∀ at_ : Nat, s.panel.frameAt = some at_ → at_ + frame ≤ s.now ∨ s.now < at_
    (∀ at_ : Nat, s.panel.state = .on → s.panel.frameAt = some at_ → at_ ≤ s.now → s.now < at_ + frame →
      exec .panelFrameStart s = .next s) ∧
    (let b := s.payloadOf p panelFrameDesc
     let t := s.admitted p panelFrameDesc
     s.admits p panelFrameDesc = true → s.panelProgram = false → be16 b 0 + be16 b 2 ≤ 4096 → exec (.panelFrame p) s =
       .next ({ t with panel := { t.panel with hidden := putFrame s.panel.hidden (be16 b 0) (b.drop 4) } }.ok (s.ctxOf p panelFrameDesc))) ∧
    (let t := s.admitted p panelShowDesc
     s.admits p panelShowDesc = true → s.panelProgram = false → crc32c (frameBytes s.panel.hidden) = beWord (s.payloadOf p panelShowDesc) 0 →
     exec (.panelShow p) s = .next { t with panel := { t.panel with swapDue := true, swapFor := t.panel.swapFor ++ [s.ctxOf p panelShowDesc] } }) ∧
    (s.panel.state = .on → due → s.panel.swapDue = true → s.runs 19 = true → ∃ t, exec .panelFrameStart s = .next t ∧ t = { s with panel := t.panel, sup := t.sup } ∧
      t.panel.shown = s.panel.hidden ∧
      t.panel.shownCrc = crc32c (frameBytes s.panel.hidden) ∧ t.panel.swapDue = false ∧ t.panel.inverted = !s.panel.inverted) ∧
    (s.panel.state = .on → due → s.runs 19 = false → ∃ t, exec .panelFrameStart s = .next t ∧ t = { s with panel := t.panel } ∧ t.panel.shown = s.panel.shown ∧
      t.panel.swapDue = s.panel.swapDue) ∧
    (s.panel.state = .on → due → s.panel.swapDue = false → s.runs 19 = true → s.panel.dark = false → s.panel.darkNext = false →
      crc32c (frameBytes s.panel.shown) ≠ s.panel.shownCrc → ∃ t, exec .panelFrameStart s = .next t ∧
      t = { s with panel := t.panel, crossings := t.crossings, nextSend := t.nextSend } ∧ t.panel.dark = false ∧ t.panel.darkNext = true ∧
      t.panel.corrupt = true ∧ t.panel.crcFound = crc32c (frameBytes s.panel.shown)) ∧
    (s.panel.state = .on → due → s.panel.swapDue = false → s.panel.darkNext = true → ∃ t, exec .panelFrameStart s = .next t ∧ t = { s with panel := t.panel } ∧
      t.panel.dark = true) ∧
    (let b := s.payloadOf p panelPowerDesc
     let c := s.ctxOf p panelPowerDesc
     s.admits p panelPowerDesc = true → byteAt b 0 = 1 →
     (s.panel.state = .off → exec (.panelPower p) s = .next ({ s.admitted p panelPowerDesc with panel := s.panel.up s.now }.ok c)) ∧
     (s.panel.state = .poweringDown → exec (.panelPower p) s =
       .next ({ s.admitted p panelPowerDesc with panel := { s.panel with onPending := true } }.reply c .acceptedDeferred []))) ∧
    (s.panel.state = .poweringUp → s.panel.scanned = true → due → s.panel.wantOn = true → exec .panelPowerUpComplete s = .next { s with panel := { s.panel with state := .on } }) ∧
    (∀ v r : BitVec 16, s.panel.state = .poweringUp → s.panel.scanned = false → s.panel.vcol = some v → s.panel.vrow = some r →
      panelSupplyOk v r = false ∨ s.now < s.panel.since + 10000000 → exec .panelFrameStart s = .next s) ∧
    (s.panel.state = .poweringDown → 2 < s.panel.framesDown → s.panel.since + 10000000 ≤ s.now → exec .panelPowerDownComplete s =
      .next { s with panel := if s.panel.onPending then s.panel.up s.now else { s.panel with state := .off } }) ∧
    (∀ a b : BitVec 16, panelSupplyOk a b = true ↔ 8000 ≤ a.toNat ∧ a.toNat ≤ 18000 ∧ 10000 ≤ b.toNat ∧ b.toNat ≤ 20000) ∧
    (∀ a b : BitVec 16, s.panel.state = .on → panelSupplyOk a b = false → exec (.panelSupplyFault a b) s =
      .next ({ s with panel := { s.panel with vcol := some a, vrow := some b, state := .supplyFault, onPending := false
                                              wantOn := s.panel.wantOn || s.panel.onPending } }.raise
        .panelSupplyFault (mkWord [(31, 16, a.toNat), (15, 0, b.toNat)]))) ∧
    (∀ a b : BitVec 16, s.panel.state = .supplyFault → panelSupplyOk a b = true → exec (.panelSupplyRecovered a b) s =
      let q := { s.panel with vcol := some a, vrow := some b }
      .next { s with panel := if q.wantOn then q.up s.now else { q with state := .off } }) ∧
    (∀ r c : Nat, s.panel.driven = false ∨ bits (s.cfg 0xB00 0) 15 8 ≤ c → s.columnDrive r c = none) ∧
    (∀ r c : Nat, s.panel.state = .on → c < bits (s.cfg 0xB00 0) 15 8 → r < bits (s.cfg 0xB00 0) 6 0 → ∃ d, s.columnDrive r c = some d ∧
      d.current = bits (s.cfg 0xB00 1) 31 26 * 320 ∧ d.slices = s.pixel r c ∧ d.revUs = bits (s.cfg 0xB00 1) 25 21 ∧
      (0 < r → d.precharge = s.precharge (s.pixel (r - 1) c) (s.pixel r c)) ∧
      (bits (s.cfg 0xB00 0) 29 28 = 0 → d.reversed = s.panel.inverted))

/-- R374 to R377: an update of the trip plate sets TORN, drives INVALID dark first and takes its segments; its waveforms, each in its time, move it on: W
turns a segment dark and its negation light, first the other way in a full refresh; at its end SHOWN is the target and TORN clears; a fall of VPLATE
below 13.5 V stops an update at once and TORN stays, and a linked update that waits starts then. Bit 47 of SEGMENTS is ignored, which is the model's choice (log 163). -/
def Obligations.PlateRows : Prop :=
  ∀ (s : State) (p : Packet),
    (let b := s.payloadOf p plateUpdateDesc
     s.admits p plateUpdateDesc = true → s.plate.step = .idle → ∃ t, exec (.plateUpdate p) s = .next t ∧
       t = { s.admitted p plateUpdateDesc with plate := t.plate, mram := { (s.admitted p plateUpdateDesc).mram with plateTorn := true } } ∧ t.plate.step = .invalidDark ∧
       t.plate.refresh = s.mram.plateTorn ∧ t.plate.reply = some (s.ctxOf p plateUpdateDesc) ∧
       t.plate.segments = BitVec.ofNat 47 (be16 b 0 * 2 ^ 32 + be32 b 2)) ∧
    (s.now < s.plate.stepAt + s.waveNs → exec .plateWaveformComplete s = .next s) ∧
    (s.plate.stepAt + s.waveNs ≤ s.now →
      (s.plate.step = .invalidDark → exec .plateWaveformComplete s = .next { s with plate := { s.plate with
        step := if s.plate.refresh then .dataOpposite else .data, stepAt := s.now } }) ∧
      (s.plate.step = .dataOpposite → exec .plateWaveformComplete s = .next { s with plate := { s.plate with step := .dataTarget, stepAt := s.now } }) ∧
      (s.plate.step = .data ∨ s.plate.step = .dataTarget →
        exec .plateWaveformComplete s = .next { s with plate := { s.plate with step := .invalidLight, stepAt := s.now } }) ∧
      (s.plate.step = .invalidLight → s.plate.pending = false → ∃ t, exec .plateWaveformComplete s = .next t ∧
        t = { s with plate := t.plate, sup := t.sup, crossings := t.crossings, nextSend := t.nextSend
                     mram := { s.mram with shown := s.plate.target, plateTorn := false } } ∧
        t.plate.step = .idle ∧ t.plate.invalidDark = false ∧ t.plate.updates = s.plate.updates + 1)) ∧
    (∀ n : Fin 47,
      (s.plate.step = .data → s.plate.target.getLsbD n = s.mram.shown.getLsbD n → s.segmentWave n = .zero) ∧
      (s.plate.step = .data → s.plate.target.getLsbD n ≠ s.mram.shown.getLsbD n →
        s.segmentWave n = if s.plate.target.getLsbD n then .w else .negW) ∧
      (s.plate.step = .dataOpposite → s.segmentWave n = if s.plate.target.getLsbD n then .negW else .w) ∧
      (s.plate.step = .dataTarget → s.segmentWave n = if s.plate.target.getLsbD n then .w else .negW)) ∧
    (s.plate.step = .invalidDark → s.invalidWave = .w) ∧ (s.plate.step = .invalidLight → s.invalidWave = .negW) ∧
    (∀ a b : BitVec 16, s.plate.step ≠ .idle → a.toNat < 13500 ∨ b.toNat < 13500 → s.plate.pending = false → ∃ t, exec (.plateTorn a b) s = .next t ∧
      t = { s with plate := { s.plate with vp := some a, vn := some b, step := .idle, reply := none }, sup := t.sup, crossings := t.crossings
                   nextSend := t.nextSend }) ∧
    (∀ a b : BitVec 16, s.plate.step ≠ .idle → a.toNat < 13500 ∨ b.toNat < 13500 → s.plate.pending = true → s.power.warning = none →
      s.mram.plateTorn = true → ∃ t, exec (.plateTorn a b) s = .next t ∧ t.plate.step = .invalidDark ∧ t.plate.refresh = true ∧ t.plate.pending = false) ∧
    (∀ a b : BitVec 16, 13500 ≤ a.toNat → 13500 ≤ b.toNat →
      exec (.plateTorn a b) s = .next { s with plate := { s.plate with vp := some a, vn := some b } })

/-- R44 to R47, R75, R338: KEY_INSTALL fills a slot, empties its replay memory and answers with CHECK; KEY_REVOKE empties it after its reply has
left; a firmware image is collected and, with a valid signature, kept for the next restart, else refused. -/
def Obligations.KeyAndFirmwareRows : Prop :=
  ∀ (s : State) (p : Packet),
    (let b := s.payloadOf p keyInstallDesc
     let n := byteAt b 0
     s.admits p keyInstallDesc = true → n ≤ 7 → byteAt b 1 ≤ 15 → exec (.keyInstall p) s = .next ((((s.admitted p keyInstallDesc).setKey n
       { installed := true, roles := BitVec.ofNat 4 (byteAt b 1), key := b.drop 4 }).clearReplay n).reply (s.ctxOf p keyInstallDesc) .ok
       ((hmac (b.drop 4) (pad 16)).take 4))) ∧
    (let n := byteAt (s.payloadOf p keyRevokeDesc) 0
     s.admits p keyRevokeDesc = true → n ≤ 7 → exec (.keyRevoke p) s =
       .next ((((s.admitted p keyRevokeDesc).replyNow (s.ctxOf p keyRevokeDesc)).setKey n {}).clearReplay n)) ∧
    (let n := be32 (s.payloadOf p fwBeginDesc) 0
     let t := s.admitted p fwBeginDesc
     s.admits p fwBeginDesc = true → n ≤ 8388608 → exec (.fwBegin p) s =
       .next ({ t with sup := { t.sup with fwBytes := some n, fwData := [] } }.ok (s.ctxOf p fwBeginDesc))) ∧
    (∀ n : Nat,
      let b := s.payloadOf p fwDataDesc
      s.admits p fwDataDesc = true → s.sup.fwBytes = some n → be32 b 0 + (b.length - 4) ≤ n → 
      let q := s.admitted p fwDataDesc
      let d := putImage s.sup.fwData (be32 b 0) (b.drop 4)
      exec (.fwData p) s = .next ({ q with sup := { q.sup with fwData := d } }.ok (s.ctxOf p fwDataDesc)) ∧
        ∀ k < b.length - 4, d.get 0 (be32 b 0 + k) = b.getD (4 + k) 0) ∧
    (∀ n : Nat, s.admits p fwActivateDesc = true → s.sup.fwBytes = some n →
      let q := s.admitted p fwActivateDesc
      exec (.fwActivate p) s = .next (if Config.signatureValid (s.sup.image n) = true
        then { q with mram := { q.mram with fwActivated := some (s.sup.image n) } }.ok (s.ctxOf p fwActivateDesc)
        else q.refuse (s.ctxOf p fwActivateDesc) .signatureInvalid))

/-- R380, R383, R385 to R388: ENUMERATE gives an unaddressed module its provisional address, from whatever transport it comes, and from a ring port goes
on by the other one with COUNT raised by one, while from SVC or the Causeway it is forwarded nowhere (the model's reading, log 71); in an addressed module the same
address changes nothing and another one is stored as the candidate; a COUNT of 64 or more goes on unchanged and assigns none; CONFIRM_ADDRESS makes the
candidate final; the announce goes out every second; another serial's announce withdraws a provisional address, once for its SERIAL and SEQ (by which copies
are known is presumed, log 27); after 3 s it is final, after 10 s a duplicate clears. -/
def Obligations.AddressRows : Prop :=
  ∀ (s : State) (p : Packet),
    (let other : Port := match p.port with | .ringA => .ringB | _ => .ringA
     let q := s.admitted p enumerateDesc
     let on : Packet := { p with port := other, payload := (if p.flag 3 = true then p.payload.take 8 else []) ++
       [byteAt p.body 0, byteAt p.body 1 + 1, byteAt p.body 2, byteAt p.body 3].map (BitVec.ofNat 8) }
     let a := BitVec.ofNat 10 (byteAt p.body 0 % 16 * 64 + byteAt p.body 1)
     s.admits p enumerateDesc = true → p.port = .ringA ∨ p.port = .ringB → s.portDown other = false →
     (byteAt p.body 1 ≤ 63 → s.mram.addressed = false → ∃ t, exec (.enumerate p) s = .next t ∧
       t = { q with ring := t.ring, mram := { q.mram with addressed := true, address := a } } ∧ t.ring.provisional = some s.now ∧
       t.ring.enumFwd = some on) ∧
     (byteAt p.body 1 ≤ 63 → s.mram.addressed = true → a = s.mram.address → ∃ t, exec (.enumerate p) s = .next t ∧
       t = { q with ring := t.ring } ∧ t.ring.provisional = s.ring.provisional ∧ t.ring.enumFwd = some on) ∧
     (byteAt p.body 1 ≤ 63 → s.mram.addressed = true → a ≠ s.mram.address → ∃ t : State, exec (.enumerate p) s =
         .next ({ t with mram := { q.mram.wrote 0xC02 with candidateValid := true, candidate := a } }.raise .addressMoved
           (mkWord [(25, 16, a.toNat), (9, 0, s.mram.address.toNat)])) ∧
       t = { q with ring := t.ring } ∧ t.ring.provisional = s.ring.provisional ∧ t.ring.enumFwd = some on) ∧
     (64 ≤ byteAt p.body 1 → ∃ t : State, exec (.enumerate p) s = .next (t.raise .ringOverfull (mkWord [(3, 0, byteAt p.body 0 % 16)])) ∧
       t = { q with ring := t.ring } ∧ t.ring.provisional = s.ring.provisional ∧ t.ring.enumFwd = some { p with port := other })) ∧
    (s.admits p enumerateDesc = true → p.port = .svc ∨ p.port = .causeway → s.mram.addressed = false → byteAt p.body 1 ≤ 63 →
      let q := s.admitted p enumerateDesc
      ∃ t, exec (.enumerate p) s = .next t ∧ t = { q with ring := t.ring, mram := { q.mram with
        addressed := true, address := BitVec.ofNat 10 (byteAt p.body 0 % 16 * 64 + byteAt p.body 1) } } ∧ t.ring.provisional = some s.now ∧
        t.ring.enumFwd = q.ring.enumFwd) ∧
    (s.admits p (confirmAddressDesc p) = true → s.mram.candidateValid = true → 
      let q := s.admitted p (confirmAddressDesc p)
      ∃ t, exec (.confirmAddress p) s = .next t ∧ t = { q with ring := t.ring, sup := t.sup, crossings := t.crossings, nextSend := t.nextSend, mram := { q.mram.wrote 0xC02 with
        addressed := true, address := s.mram.candidate, candidateValid := false, candidate := 0 } } ∧ t.ring.provisional = none) ∧
    (s.mram.addressed = true → s.ringUp = true → (∀ at_ : Nat, s.ring.announceAt = some at_ → at_ + 1000000000 ≤ s.now ∨ s.now < at_) →
      ∃ t, exec .announceSend s = .next t ∧
      t = { s with ring := t.ring } ∧ t.ring.annSeq = s.ring.annSeq + 1 ∧ t.ring.announceAt = some s.now ∧
      ∀ n < 2, s.ringPortUp n = true → ∃ f : HsrFrame, f.etherType = etStation ∧ f.dest = groupStation ∧ f.source = s.mram.mac ∧
        byteAt f.payload 0 = 3 ∧ be16 f.payload 2 = s.mram.address.toNat ∧ ((t.ringPort n).onLink = some f ∨ f ∈ (t.ringPort n).queue)) ∧
    (∀ at_ : Nat, s.ring.announceAt = some at_ → at_ ≤ s.now → s.now < at_ + 1000000000 → exec .announceSend s = .next s) ∧
    (∀ (a : BitVec 16) (q : StationSender), s.ringUp = true → s.mram.addressed = true → s.ring.provisional.isSome = true →
      a = s.mram.address.zeroExtend 16 → q.serial ≠ s.mram.serial → s.stationSeen 3 q.serial q.seq = false →
      let n := s.noteStation 3 q.serial q.seq
      exec (.announceReceived a q) s =
        .next ({ n with mram := { n.mram with addressed := false }, ring := { n.ring with provisional := none } }.raise .addressDuplicate
          (mkWord [(9, 0, s.mram.address.toNat)])) ∧ n.stationSeen 3 q.serial q.seq = true) ∧
    (∀ (a : BitVec 16) (q : StationSender), s.stationSeen 3 q.serial q.seq = true → exec (.announceReceived a q) s = .next s) ∧
    (∀ u : Nat, s.ring.provisional = some u → u + 3000000000 ≤ s.now → exec .provisionalExpiry s =
      .next ({ s with ring := { s.ring with provisional := none } }.raise .addressAssigned (mkWord [(9, 0, s.mram.address.toNat)]))) ∧
    (∀ u : Nat, s.ring.duplicateAt = some u → u + 10000000000 ≤ s.now → exec .duplicateClear s =
      .next { s with ring := { s.ring with duplicateAt := none } })

/-! ## Replies and windows, islands, the cycle -/

/-- R28, R31, R41, R48, R55, R364: a reply leaves in packets of 1,400 bytes of payload, each with MORE but the last, and its last one gives the place in the window back;
a further packet of a Class 3 reply takes its turn anew; an upload builds its next packet as it leaves, of the records as they stand when no page is under
repair; requests still incomplete after 100 ms are each answered BAD_LENGTH; a window of an origin closes when it has no place in use and its idle time is over, and no
other; a window held for 10 ms reopens at its full size. -/
def Obligations.ReplyRows : Prop :=
  ∀ (s : State),
    (∀ (port : Port) (r : Reply) (a b : List Reply), s.supAnswers = true → s.pathDown port = false →
      pickReply s.now port s.sup.replies = some (a, r, b) → s.replyTurn r = true →
      let leaves := fun (t : State) (pay : List Byte) (more : Bool) =>
        t = { s with sup := { s.sup with replies := t.sup.replies, wire := t.sup.wire, windows := t.sup.windows, ready := s.sup.ready + 1 }, ring := t.ring } ∧
        (∃ q, s.sentBy t port q ∧ q.payload = pay ∧ q.seq = r.ctx.seq ∧
          q.tag = r.ctx.tag ∧ q.cycle = r.cycle ∧ q.flag 7 = true ∧ q.flag 5 = more)
      let last := fun (t : State) => t.sup.replies = a ++ b ∧
        t.sup.windows = if r.counts then s.sup.windows.map fun w => if w.origin == r.ctx.origin then { w with used := w.used - 1, lastAt := s.now } else w
          else s.sup.windows
      let goesOn := fun (t : State) (u : Option (BitVec 32 × Nat)) => t.sup.windows = s.sup.windows ∧
        t.sup.replies = a ++ [{ r with sent := r.sent + 1, upload := u, marks := [], readyAt := if r.ctx.cls = 3 then s.now else r.readyAt
                                       order := if r.ctx.cls = 3 then s.sup.ready else r.order }] ++ b
      let rest := (toBe 2 r.status.toNat ++ r.body).drop (1400 * r.sent)
      (r.upload = none → rest.length ≤ 1400 → ∃ t, exec (.replyPacketSend port) s = .next t ∧ leaves t rest false ∧ last t) ∧
      (r.upload = none → 1400 < rest.length → ∃ t, exec (.replyPacketSend port) s = .next t ∧ leaves t (rest.take 1400) true ∧ goesOn t none) ∧
      (∀ u, r.upload = some u → s.quiet = true → r.marks = [] → (s.uploadPacket u.1 u.2).2 = none →
        ∃ t, exec (.replyPacketSend port) s = .next t ∧ leaves t (s.uploadPacket u.1 u.2).1 false ∧ last t) ∧
      (∀ u v, r.upload = some u → s.quiet = true → r.marks = [] → (s.uploadPacket u.1 u.2).2 = some v →
        ∃ t, exec (.replyPacketSend port) s = .next t ∧ leaves t (s.uploadPacket u.1 u.2).1 true ∧ goesOn t (some v))) ∧
    (∀ port : Port, s.supAnswers = false ∨ s.pathDown port = true ∨ pickReply s.now port s.sup.replies = none →
      exec (.replyPacketSend port) s = .next s) ∧
    (∀ (o tag : BitVec 16), s.supAnswers = true →
      let late := fun (q : Partial) => decide (q.ctx.origin = o ∧ q.ctx.tag = tag ∧ q.firstAt + 100000000 ≤ s.now)
      ∃ t, exec (.multiPacketTimeout o tag) s = .next t ∧
        t = { s with sup := { s.sup with partials := s.sup.partials.filter (fun q => !late q), replies := t.sup.replies, windows := t.sup.windows
                                         ready := t.sup.ready } } ∧
        t.sup.replies.map (·.ctx) = s.sup.replies.map (·.ctx) ++
          ((s.sup.partials.filter late).filter fun q => q.ctx.gen == s.sup.gen && !q.ctx.broadcast).map (·.ctx) ∧
        (∀ r ∈ t.sup.replies, r ∈ s.sup.replies ∨ (r.status = Status.badLength.code ∧ r.body = r.ctx.refusalBody ∧ r.sent = 0)) ∧
        ((∀ q ∈ s.sup.partials, late q = true → q.ctx.broadcast = false) → t.sup.windows = s.sup.windows)) ∧
    (∀ (o tag : BitVec 16), s.supAnswers = false → exec (.multiPacketTimeout o tag) s = .next s) ∧
    (∀ o : BitVec 16, ∃ t, exec (.idleClose o) s = .next t ∧ t = { s with sup := { s.sup with windows := t.sup.windows } } ∧
      (∀ w : Window, w ∈ t.sup.windows ↔ w ∈ s.sup.windows ∧ (w.origin ≠ o ∨ w.used ≠ 0 ∨ s.now < w.lastAt + w.idleClose * 1000000000)) ∧
      t.sup.windows.Sublist s.sup.windows) ∧
    (∀ o : BitVec 16, ∃ t, exec (.windowHoldExpiry o) s = .next t ∧ t = { s with sup := { s.sup with windows := t.sup.windows } } ∧
      t.sup.windows.length = s.sup.windows.length ∧ ∀ (k : Nat) (w : Window), s.sup.windows[k]? = some w →
        ((∃ u : Nat, w.origin = o ∧ w.heldUntil = some u ∧ u ≤ s.now) →
          t.sup.windows[k]? = some { w with heldUntil := none, size := bits (s.cfg 0x40 0) 7 0, used := 0 }) ∧
        ((∀ u : Nat, w.heldUntil = some u → w.origin ≠ o ∨ s.now < u) → t.sup.windows[k]? = some w))

/-- R19 to R33: once ROUND_PERIOD is over an audit round counts, and with no fault found changes nothing else; before that it does nothing; an island
comes back to RUN; the loss of the reference clock moves the PLLs of all islands but FIRE and PWR, and its return moves back those of the islands at an
idle point (log 86); a domain that has powered up runs; VBUS keeps PD11. -/
def Obligations.IslandRows : Prop :=
  ∀ (s : State),
    (s.keepRuns = true → s.auditAt + s.roundPeriodNs ≤ s.now ∨ s.now < s.auditAt →
      exec (.auditRound [] []) s = .next { s with rounds := s.rounds + 1, auditAt := s.now }) ∧
    (∀ (l : List CrossingFault) (w : List (BitVec 16)), s.auditAt ≤ s.now → s.now < s.auditAt + s.roundPeriodNs → exec (.auditRound l w) s = .next s) ∧
    (∀ f : CrossingFault, s.keepRuns = true → s.auditAt + s.roundPeriodNs ≤ s.now → f.senderFaulty = true → f.receiverFaulty = false → f.sender.val = 10 ∨ f.sender.val = 15 →
      (s.island f.sender).state = .run → s.restarts60 f.sender < 3 → ∃ t, exec (.auditRound [f] []) s = .next t ∧
      t = { s with freeCount := t.freeCount, islands := t.islands, rounds := t.rounds, mismatches := t.mismatches, auditAt := s.now, round := t.round
                   crossings := t.crossings, nextSend := t.nextSend, raised := t.raised, ring := t.ring, pair := t.pair } ∧
      t.rounds = s.rounds + 1 ∧
        t.mismatches = satInc s.mismatches ∧ (t.island f.sender).state = .restarting) ∧
    (∀ n : Fin 20, (s.island n).state = .restarting → (s.domain (islandDomain n)).state = .on → ∃ t, exec (.islandRestartComplete n) s = .next t ∧
      t = { s with mram := { s.mram with canEnable := t.mram.canEnable, voidCopies := t.mram.voidCopies, seqs := t.mram.seqs }, islands := t.islands, cans := t.cans, fire := t.fire, pair := t.pair } ∧ (t.island n).state = .run) ∧
    (s.power.refLost = false → s.service ≠ .off → ∃ t, exec .refClockLost s = .next t ∧
      t = { s with freeCount := t.freeCount, islands := t.islands, round := t.round, crossings := t.crossings, nextSend := t.nextSend, power := t.power } ∧
      t.power.refLost = true ∧
      ∀ n < 20, (t.island n).clksrc = (if n = 9 ∨ n = 18 then (s.island n).clksrc else true)) ∧
    (s.power.refLost = true → ∃ t, exec .refClockRestored s = .next t ∧
      t = { s with islands := t.islands, power := t.power } ∧ t.power.refLost = false ∧
      ∀ n < 20, (t.island n).clksrc = (if n = 9 ∨ n = 18 ∨ s.idlePoint n = false then (s.island n).clksrc else false)) ∧
    (∀ d : Fin 12, (s.domain d).state = .transition → s.working = true →
      (s.service = .full → exec (.domainPowerUpComplete d) s = .next (s.domainUp d)) ∧
      (s.service ≠ .full → exec (.domainPowerUpComplete d) s = .next (s.domainUp d).landPending.canJoin.landFire)) ∧
    (∀ v : Bool, exec (.vbusChange v) s = .next { s with power := { s.power with vbus := v } }.judgeDomains)

/-- R25 to R29 (that one row is one exchange, in which the receiver takes the whole queue, credits return and the offer is paid, is the model's choice, log 25): what the receiver took last time gives its credits back; where nothing else waits at the sender a message that fits, with the reserve
of its crossing kept where its class is not 0, is sent, and one that does not is held and counts as a stall where it is of Class 1. -/
def Obligations.CrossingRows : Prop :=
  ∀ (s : State) (a b : Fin 21) (cls : Fin 4) (n : Fin 16), a ≠ b →
    let size := crossingSize a b
    let x := s.crossing (crossingId a b)
    let m : Message := { cls := cls, slots := n.val + 1, since := s.now, order := s.nextSend, cargo := .other }
    let u := { s with nextSend := s.nextSend + 1 }
    n.val + 1 + size.2 ≤ size.1 → (∀ r < 21, (s.crossing (crossingId a r)).waiting = []) →
    ((if cls.val = 0 then n.val + 1 else n.val + 1 + size.2) ≤ size.1 - slotsOf x.queued →
      exec (.crossingMessageSend a b (some (cls, n))) s =
        .next (u.setCrossing (crossingId a b) { waiting := [], queued := [m], returning := slotsOf x.queued })) ∧
    (size.1 - slotsOf x.queued < (if cls.val = 0 then n.val + 1 else n.val + 1 + size.2) → cls.val ≠ 1 →
      exec (.crossingMessageSend a b (some (cls, n))) s =
        .next (u.setCrossing (crossingId a b) { waiting := [{ m with held := true }], queued := [], returning := slotsOf x.queued })) ∧
    (size.1 - slotsOf x.queued < n.val + 1 + size.2 → cls.val = 1 →
      let t := u.setCrossing (crossingId a b) { waiting := [{ m with held := true }], queued := [], returning := slotsOf x.queued }
      exec (.crossingMessageSend a b (some (cls, n))) s =
        .next (if a.val < 20 then t.modIsland a fun i => { i with stalls := satInc i.stalls } else t))

/-- R50, R51, R79, R80, R83, R84, R97, R103 (and R340, R343 for the waits): a cycle starts when it is due and takes its number; the freeze begins execute, once no page
that it writes waits for its repair; the commit ends it, its number becomes the
last committed one and the next follows; with it the committed copy takes the working copy, the last accepted write of a word lands in its place and a forced word
takes its force, where no error stands in a byte of the module; the set-points go to LOOP and the committed Q to the digital outputs that nothing
else selects; the watchdog stops the program; the retained image is written when its period has passed, and waits for a page of it under repair (its wait
is deduced, log 158), as a switch of the program that is due at a cycle start does. -/
def Obligations.CycleRows : Prop :=
  ∀ (s : State), s.pairMode = false → s.pair.incoming = none → s.pair.handover = none → s.pair.rehearsal = none →
    (∀ t, s.cycleDue = true → s.switchHeld s.startCycle = some t → exec .cycleStart s = .next t) ∧
    (s.cycleDue = true → s.switchHeld s.startCycle = none → ∃ t, exec .cycleStart s = .next t ∧
      t = { s with
        freeCount := t.freeCount, diGroups := t.diGroups,
        mram := { s.mram with rehearsalAt := t.mram.rehearsalAt, remap := t.mram.remap, obj := t.mram.obj, objRestart := t.mram.objRestart, canEnable := t.mram.canEnable, banks := t.mram.banks, bankVoid := t.mram.bankVoid, runBank := t.mram.runBank, runStop := t.mram.runStop, forces := t.mram.forces, fire := t.mram.fire, fireVoid := t.mram.fireVoid, totals := t.mram.totals, voidCopies := t.mram.voidCopies, seqs := t.mram.seqs },
        sup := t.sup, islands := t.islands, domains := t.domains, crossings := t.crossings, square := t.square, timers := t.timers,
        counters := t.counters, round := t.round, loop := t.loop, ucs := t.ucs, dis := t.dis, dos := t.dos, cans := t.cans, power := t.power,
        fire := t.fire, pair := t.pair, totals := t.totals, locks := t.locks, upsets := t.upsets, arrays := t.arrays, raised := t.raised, nextSend := t.nextSend,
        panel := t.panel, plate := t.plate, ring := t.ring } ∧ t.square.phase = .started ∧ t.square.current = s.square.current ∧
      t.square.startAt = t.now) ∧
    (s.freezeDue = true → s.freezeHeld = none → ∃ t, exec .freeze s = .next t ∧
      t = { s with islands := t.islands, square := t.square, engines := t.engines, timers := t.timers, round := t.round, loop := t.loop, ucs := t.ucs, dis := t.dis
                   diGroups := t.diGroups, cans := t.cans, pair := t.pair, totals := t.totals, crossings := t.crossings, nextSend := t.nextSend
                   raised := t.raised, arrays := t.arrays, upsets := t.upsets, locks := t.locks, mram := { s.mram with remap := t.mram.remap, voidCopies := t.mram.voidCopies, seqs := t.mram.seqs } } ∧ t.square.phase = .execute ∧
      (t.square.prog ≠ .run → ∀ e < 4, (t.engine e).running = false)) ∧
    (∀ t, s.freezeDue = true → s.freezeHeld = some t → exec .freeze s = .next t) ∧
    (s.commitDue = true → s.commitHeld = none → s.power.restart = none → s.power.warning = none → ∃ t, exec .commit s = .next t ∧
      t = { s with freeCount := t.freeCount
                   mram := { s.mram with obj := t.mram.obj, forces := t.mram.forces, cycle := t.mram.cycle, remap := t.mram.remap, totals := t.mram.totals, voidCopies := t.mram.voidCopies, seqs := t.mram.seqs }
                   sup := t.sup, square := t.square, engines := t.engines, round := t.round, loop := t.loop, ucs := t.ucs, dos := t.dos
                   cans := t.cans, fire := t.fire, pair := t.pair, totals := t.totals, raised := t.raised, crossings := t.crossings, nextSend := t.nextSend
                   arrays := t.arrays, upsets := t.upsets, locks := t.locks, panel := t.panel } ∧ t.square.phase = .idle ∧
      t.square.last = s.square.current ∧ t.square.current = nextCycle s.square.current) ∧
    (s.commitDue = true → s.power.restart = none → s.power.warning = none → s.quiet = true → s.squareWf = true → s.square.commitBad = [] →
      s.image.mBytes ≤ 131072 → (∀ y ∈ s.square.landings, s.landsNow y = true → y.kind = .writeVars ∨ y.kind = .silent) →
      let due := s.square.landings.filter s.landsNow
      let apart := fun (p : Nat) (a : Area) (w : Nat) => ∀ q : Nat, s.wordAddr .work a w = some q → q + 4 ≤ p ∨ p + 4 ≤ q
      ∃ t, exec .commit s = .next t ∧
        (∀ (a : Area) (w p : Nat), copied a w = true → s.wordAddr .work a w = some p → (∀ k < 4, s.square.fresh (p + k) = false) →
          (∀ y ∈ due, ∀ u ∈ y.words, apart p u.at_.area u.at_.word) → (∀ f ∈ s.mram.forces, apart p f.area f.offset) →
          t.sqWord .done a w = s.sqWord .work a w) ∧
        (∀ (x : Landing) (l r : List Landing) (v : LandWord) (b c : List LandWord) (p : Nat), due = l ++ x :: r → x.words = b ++ v :: c →
          v.mask = BitVec.allOnes 32 → copied v.at_.area v.at_.word = true → s.wordAddr .work v.at_.area v.at_.word = some p →
          (∀ u ∈ x.words, s.forceOn u.at_.area u.at_.word = none) → (∀ u ∈ c, apart p u.at_.area u.at_.word) →
          (∀ y ∈ r, ∀ u ∈ y.words, apart p u.at_.area u.at_.word) → (∀ f ∈ s.mram.forces, apart p f.area f.offset) →
          t.sqWord .done v.at_.area v.at_.word = (v.value, false)) ∧
        (∀ (f : Force) (b c : List Force) (p : Nat), s.mram.forces = b ++ f :: c → copied f.area f.offset = true →
          s.wordAddr .work f.area f.offset = some p → (∀ g ∈ c, apart p g.area g.offset) → t.sqWord .done f.area f.offset = (f.value, false)) ∧
        t.loop.applied = Tab.slice t.square.mem (sqLSet + 16384) 16384 ∧
        ∀ (n : Nat) (w : Word), n < 32 → s.standby = false → s.leftService = false → s.stopSafe = false → s.runs 8 = true → s.doEnable n = true →
          t.forceOn .Q 0 = none → t.sqWord .done .Q 0 = (w, false) → (t.do_ n).selected = bit w n) ∧
    (∀ e : Nat, s.slowEngine = some e → s.square.phase = .execute → s.square.prog = .run → s.watchdogUs ≠ 0 → s.watchdogUs * 1000 < s.now - s.square.phaseAt →
      ∃ t, exec .watchdogExpiry s = .next t ∧
      t = { s with freeCount := t.freeCount, square := t.square, engines := t.engines, arrays := t.arrays, locks := t.locks, upsets := t.upsets
                   mram := { s.mram with runStop := t.mram.runStop, remap := t.mram.remap, voidCopies := t.mram.voidCopies, seqs := t.mram.seqs }
                   raised := t.raised, round := t.round, crossings := t.crossings, nextSend := t.nextSend } ∧ t.square.prog = .stop ∧ t.square.overruns = satInc s.square.overruns ∧ t.square.last = s.square.last) ∧
    (s.service = .full → s.square.phase ≠ .execute → s.power.warning = none → s.square.retainAt + (s.cfg 0x102 0).toNat * 1000000 ≤ s.now →
      s.square.committedOnce = true → (s.readWords 2 s.retainedAddrs).retainedAddrs.any ((s.readWords 2 s.retainedAddrs).locked 2) = true →
      exec .retainPeriod s = .next (s.readWords 2 s.retainedAddrs)) ∧
    (s.service = .full → s.square.phase ≠ .execute → s.power.warning = none → s.square.retainAt + (s.cfg 0x102 0).toNat * 1000000 ≤ s.now →
      s.quiet = true → ∃ t, exec .retainPeriod s = .next t ∧
      t = { s with mram := { s.mram with retained := t.mram.retained, cycle := t.mram.cycle }, square := t.square } ∧ t.square.retainAt = s.now ∧ (s.square.committedOnce = true → t.mram.cycle = s.square.last))

/-! ## The pair -/

/-- R292 to R296, R307: heartbeats, one every 250 µs, count and refresh the watchdog, which drops the claim after 1 ms; a heard heartbeat is the partner's
view, on the ring only where it names this module; a partner that gives this module's own side is a conflict until a heartbeat gives the other one; silence of both paths in STANDBY_SYNC takes over where the
partner's claim is down; a fall of that claim begins the release path, and once 10 µs have passed with neither the cable pulled nor the claim back
the standby takes over (that an idle step sees it is the model's choice, log 111); its rise releases the holds; a tie is withdrawn by side B;
a rise while the own drivers are enabled, a line of either side that has disagreed with the heartbeats for 1 ms, and faults of lanes and cable are recorded
(what each module senses of the two lines is the model's choice, log 139). -/
def Obligations.PairLineRows : Prop :=
  ∀ (s : State), s.pairMode = true →
    (s.pair.hbSent.isSome = true → s.pair.hbGenAt ≤ s.now → s.now < s.pair.hbGenAt + 250000 → exec .heartbeatGenerate s = .next s) ∧
    (s.alive = true → s.faultyInterlock = false → s.pair.hbSent = none ∨ s.pair.hbGenAt + 250000 ≤ s.now ∨ s.now < s.pair.hbGenAt → ∃ t, exec .heartbeatGenerate s = .next t ∧
      t = { s with pair := t.pair, ring := t.ring } ∧ t.pair.hbSeq = s.pair.hbSeq + 1 ∧
      t.pair.hbGenAt = s.now ∧ t.pair.hbSent = some { target := s.pair.partner.zeroExtend 16, address := s.mram.address, sideB := s.mram.sideB, state := BitVec.ofNat 8 s.pair.state.code
                                                      epoch := s.mram.epoch, claim := s.pair.claimOwn, lastCycle := s.square.last, fwMajor := 4 }) ∧
    (s.pair.claimOwn = true → s.pair.hbGenAt + 1000000 ≤ s.now → ∃ t, exec .claimWatchdogExpiry s = .next t ∧
      t = { s with ucs := t.ucs, dos := t.dos, pair := t.pair } ∧ t.pair.claimOwn = false ∧
      t.pair.drivers = false) ∧
    (∀ h : Heartbeat, s.pair.state = .sync → s.cableUp = true → ∃ t, exec (.heartbeatReceived .causeway h) s = .next t ∧
      t = { s with pair := t.pair, round := t.round, crossings := t.crossings, nextSend := t.nextSend } ∧ t.pair.partnerHb = some h ∧
      t.pair.partner = h.address ∧ t.pair.hbCwAt = some s.now ∧ t.pair.cwHbOk = true) ∧
    (∀ h : Heartbeat, s.pair.state = .stale → s.ringUp = true → s.mram.addressed = true → h.target = s.mram.address.zeroExtend 16 →
      s.pair.ringSilent = false → h.sideB = s.mram.sideB → s.pair.sideConflict = false → ∃ t, exec (.heartbeatReceived .ring h) s = .next t ∧
      t = { s.raise .sideConflict 0 with pair := t.pair } ∧ t.pair.state = .stale ∧ t.pair.sideConflict = true ∧ t.pair.partnerHb = some h ∧
      t.pair.hbRingAt = some s.now) ∧
    (∀ h : Heartbeat, s.pair.state = .sync → s.ringUp = true → s.mram.addressed = true → h.target = s.mram.address.zeroExtend 16 →
      h.sideB ≠ s.mram.sideB → ∃ t, exec (.heartbeatReceived .ring h) s = .next t ∧
      t = { s with pair := t.pair, round := t.round, crossings := t.crossings, nextSend := t.nextSend } ∧ t.pair.sideConflict = false ∧
      t.pair.hbRingAt = some s.now) ∧
    (∀ h : Heartbeat, s.mram.addressed = false ∨ h.target ≠ s.mram.address.zeroExtend 16 → exec (.heartbeatReceived .ring h) s = .next s) ∧
    (s.pair.state = .sync → s.pair.hbCwAt = none → s.pair.hbRingAt = none → s.pair.cable = true → s.pair.incoming = none →
      s.pair.claimPartner = false → ∃ t, exec .heartbeatSilence s = .next t ∧
      t = { s with freeCount := t.freeCount, square := t.square, engines := t.engines
                   mram := { s.mram with epoch := t.mram.epoch, remap := t.mram.remap, voidCopies := t.mram.voidCopies, seqs := t.mram.seqs }
                   arrays := t.arrays, locks := t.locks, upsets := t.upsets, raised := t.raised
                   round := t.round, cans := t.cans, pair := t.pair, crossings := t.crossings, nextSend := t.nextSend } ∧
        t.pair.incoming = some s.square.current ∧ t.pair.takeovers = satInc s.pair.takeovers ∧ t.mram.epoch = s.mram.epoch + 1) ∧
    (s.pair.state = .sync → s.pair.claimPartner = true → s.pair.cable = true → s.pair.cableFellAt = none → s.pair.incoming = none →
      exec .partnerClaimFall s =
        .next { s with pair := { s.pair with claimPartner := false, partnerEdgeAt := s.now, releaseAt := some s.now, claimOff := none, lineTold := false } }) ∧
    (∀ u : Nat, s.pair.claimPartner = true → s.pair.cableFellAt = some u → s.now ≤ u + 10000 →
      exec .partnerClaimFall s = .next { s with pair := { s.pair with claimPartner := false, partnerEdgeAt := s.now, claimOff := none, lineTold := false } }) ∧
    (∀ u : Nat, s.pending = [] → s.pair.releaseAt = some u → u + 10000 < (s.lapse idleNs).now → s.pair.state = .sync → s.pair.incoming = none →
      ∃ t : State, step s = .next t.upsetTick.supTick.restartIfLeft ∧
      t = { s.lapse idleNs with freeCount := t.freeCount, square := t.square
                                mram := { s.mram with epoch := t.mram.epoch, remap := t.mram.remap, voidCopies := t.mram.voidCopies, seqs := t.mram.seqs }
                                arrays := t.arrays, locks := t.locks, upsets := t.upsets, raised := t.raised
                                engines := t.engines, round := t.round, cans := t.cans, pair := t.pair, crossings := t.crossings
                                nextSend := t.nextSend } ∧
        t.pair.incoming = some s.square.current ∧ t.pair.releaseAt = none ∧ t.pair.takeovers = satInc s.pair.takeovers ∧
        t.mram.epoch = s.mram.epoch + 1) ∧
    (∀ u : Nat, s.pending = [] → s.pair.releaseAt = some u → (s.lapse idleNs).now ≤ u + 10000 →
      step s = .next (s.lapse idleNs).upsetTick.supTick.restartIfLeft) ∧
    (s.pair.claimPartner = false → ∃ t, exec .partnerClaimRise s = .next t ∧
      t = { s with mram := { s.mram with rehearsalAt := t.mram.rehearsalAt }, round := t.round, ucs := t.ucs, dos := t.dos, pair := t.pair
                   square := { s.square with landings := t.square.landings }
                   crossings := t.crossings, nextSend := t.nextSend } ∧ t.pair.claimPartner = true ∧
      t.pair.releaseAt = none ∧
      (s.pair.claimOwn = false → t.pair.holdUntil = none)) ∧
    (s.pair.claimPartner = false → s.pair.claimOwn = true → s.pair.drivers = true → s.pair.ownRoseAt + 50000 < s.now →
      ∃ t, exec .partnerClaimRise s = .next t ∧ t = { s.raise .claimLineFault (mkWord [(0, 0, b2n (!s.mram.sideB))]) with pair := t.pair } ∧
        t.pair.claimOwn = true ∧ t.pair.drivers = true) ∧
    (s.mram.sideB = true → s.pair.claimOwn = true → s.pair.claimPartner = true → s.pair.ownRoseAt ≤ s.pair.partnerEdgeAt →
      s.pair.partnerEdgeAt ≤ s.pair.ownRoseAt + 50000 → ∃ t, exec .tieWithdrawn s = .next t ∧
      t = { s with mram := { s.mram with canEnable := t.mram.canEnable, voidCopies := t.mram.voidCopies, seqs := t.mram.seqs }, round := t.round, ucs := t.ucs, dos := t.dos, cans := t.cans, pair := t.pair
                   crossings := t.crossings, nextSend := t.nextSend } ∧ t.pair.claimOwn = false ∧ t.pair.drivers = false ∧
        t.pair.state = .stale ∧ t.pair.ownFellAt = some s.now) ∧
    (∀ u h : Nat, s.pair.claimOff = some u → u + 1000000 ≤ s.now → s.pair.hbSeenAt = some h → s.now < h + 1000000 → s.pair.lineTold = false →
      exec (.claimLineFault (!s.mram.sideB)) s =
        .next ({ s with pair := { s.pair with lineTold := true } }.raise .claimLineFault (mkWord [(0, 0, b2n (!s.mram.sideB))]))) ∧
    (s.pair.claimOff = none ∨ s.pair.lineTold = true ∨ (∃ u, s.pair.claimOff = some u ∧ s.now < u + 1000000) → exec (.claimLineFault (!s.mram.sideB)) s = .next s) ∧
    (∀ h : Heartbeat, s.pair.hbSent = some h → h.claim = s.pair.claimOwn →
      (if s.pair.claimOwn = true then s.pair.ownRoseAt else s.pair.ownFellAt.getD s.power.startFrom) + 1000000 ≤ s.now →
      exec (.claimLineFault s.mram.sideB) s = .next (if s.pair.ownLineBad = true then s else
        { s with pair := { s.pair with ownLineBad := true } }.raise .claimLineFault (mkWord [(0, 0, b2n s.mram.sideB)]))) ∧
    (s.pair.lane0 = true → ∃ t, exec (.laneLost 0) s = .next t ∧
      t = { s with pair := t.pair, crossings := t.crossings, nextSend := t.nextSend } ∧ t.pair.lane0 = false ∧ t.pair.lane1 = s.pair.lane1) ∧
    (s.pair.cable = true → ∃ t, exec (.cablePresentChange false) s = .next t ∧
      t = { s with round := t.round, pair := t.pair, crossings := t.crossings, nextSend := t.nextSend } ∧ t.pair.cable = false ∧ t.pair.lane0 = false ∧
      t.pair.lane1 = false ∧ t.pair.cableFellAt = some s.now ∧ t.pair.releaseAt = none)

/-- R299 to R305, R311 to R316, R332: what a standby takes from its active, how it gains and loses sync, how a pair finds its roles, and how a rehearsal is
begun, ended and reported. A ledger that comes after the standby has frozen the second cycle after its own is discarded. That the terms of a rehearsal cross as a
forwarded change is the model's reading (log 69); bits 7:1 of its OPTIONS are ignored, which is the model's choice (log 163). -/
def Obligations.PairSyncRows : Prop :=
  ∀ (s : State) (p : Packet), s.pairMode = true →
    (∀ l : Ledger, s.shadows = true → (s.frozenCycle - nextCycle (nextCycle l.cycle)).msb = false → exec (.ledgerReceived l) s = .next s) ∧
    (∀ l : Ledger, s.shadows = true → l.cycle ∉ s.pair.received → (s.frozenCycle - nextCycle (nextCycle l.cycle)).msb = true →
      ∃ t, exec (.ledgerReceived l) s = .next t ∧
      t = { s with mram := { s.mram with forces := t.mram.forces, voidCopies := t.mram.voidCopies, seqs := t.mram.seqs }, square := t.square, round := t.round, pair := t.pair, crossings := t.crossings
                   nextSend := t.nextSend } ∧ t.pair.ledgers = s.pair.ledgers ++ [l] ∧
      l.cycle ∈ t.pair.received) ∧
    (s.pair.state = .sync → s.pair.lastLedgerAt + s.syncHoldNs ≤ s.now → ∃ t, exec .syncHoldTimeout s = .next t ∧
      t = { s with mram := { s.mram with rehearsalAt := t.mram.rehearsalAt }, round := t.round, pair := t.pair, crossings := t.crossings
                   nextSend := t.nextSend, square := { s.square with landings := t.square.landings } } ∧ t.pair.state = .syncing ∧
      t.pair.snapshot = false) ∧
    (∀ (c : Change) (b : BitVec 32), s.cableUp = true → s.shadows = true → s.ownCycle = false → ofRehearsal c = false → onArrival c = false →
      ofForces c = false → s.ucWaits c = false → (b - s.square.current).msb = false → b ≠ s.square.current → ∃ t, exec (.forwardedChange c b) s = .next t ∧
        t = { s with ucs := t.ucs, pair := { s.pair with acks := s.pair.acks ++ [b], waitingChanges := s.pair.waitingChanges ++ [(c, b)] } } ∧
        ((∀ i w, c = .object i 0 w → ¬ (0x400 ≤ i ∧ i ≤ 0x41F)) → t.ucs = s.ucs)) ∧
    (∀ (c : Change) (b : BitVec 32), s.cableUp = true → s.shadows = true → s.ownCycle = false → ofRehearsal c = false → onArrival c = false →
      s.ucWaits c = false → (b - s.square.current).msb = true → exec (.forwardedChange c b) s = .next (s.loseSync 2)) ∧
    (∀ (l : List Force) (b : BitVec 32), s.cableUp = true → s.shadows = true → s.ownCycle = false → (b - s.square.current).msb = false →
      b ≠ s.square.current → exec (.forwardedChange (.forceSet l) b) s = .next { s with
        pair := { s.pair with acks := s.pair.acks ++ [b] }
        square := { s.square with landings := s.square.landings ++ [{ ctx := default, kind := .forceSet l, words := [], due := some b, forwarded := true }] } }) ∧
    (∀ (c : BitVec 32) (i : Nat), s.pair.state = .syncing → s.pair.snapshot = false → s.causewayLost = false →
      exec (.cycleStartToken c i) s = .next { s with pair := { s.pair with syncTokens := (c, i) :: s.pair.syncTokens } }) ∧
    (∀ (c : BitVec 32) (i : Nat), s.shadows = true → s.ownCycle = false → s.causewayLost = false →
      exec (.cycleStartToken c i) s = .next { s with pair := { s.pair with tokens := s.addToken c i } }) ∧
    (s.pair.state = .stale → s.pair.partnerHb = none → s.pair.discoveryEnd ≤ s.now → s.loneStart = true → s.pair.claimPartner = false →
      s.working = true → ∃ t, exec .discoveryTimeout s = .next t ∧
      t = { s with mram := { s.mram with epoch := t.mram.epoch, voidCopies := t.mram.voidCopies, seqs := t.mram.seqs }, round := t.round, ucs := t.ucs, dos := t.dos, cans := t.cans
                   pair := t.pair, crossings := t.crossings, nextSend := t.nextSend } ∧ t.pair.state = .alone ∧ t.mram.epoch = s.mram.epoch + 1) ∧
    (s.pair.state = .syncing → s.pair.snapshot = true → s.settleCycles ≤ s.pair.applied → ∃ t, exec .resyncDone s = .next t ∧
      t = { s with round := t.round, pair := t.pair, crossings := t.crossings, nextSend := t.nextSend } ∧ t.pair.state = .sync) ∧
    (∀ x : Snapshot, s.pair.state = .syncing → s.pair.snapshot = false → x.fwMajor = 4 → s.causewayLost = false →
      ∃ t, exec (.resyncSnapshotReceived x) s = .next t ∧
      t = { s with
        diGroups := t.diGroups
        mram := { s.mram with runBank := t.mram.runBank, runStop := t.mram.runStop, obj := t.mram.obj, canEnable := t.mram.canEnable, coeffs := t.mram.coeffs, banks := t.mram.banks, bankVoid := t.mram.bankVoid, forces := t.mram.forces, cycle := t.mram.cycle, fire := t.mram.fire, fireVoid := t.mram.fireVoid, totals := t.mram.totals, voidCopies := t.mram.voidCopies, seqs := t.mram.seqs },
        sup := t.sup, islands := t.islands, domains := t.domains, square := t.square, timers := t.timers, counters := t.counters,
        round := t.round, loop := t.loop, ucs := t.ucs, dis := t.dis, dos := t.dos, cans := t.cans, fire := t.fire, pair := t.pair, totals := t.totals,
        locks := t.locks, upsets := t.upsets, arrays := t.arrays, raised := t.raised, crossings := t.crossings, nextSend := t.nextSend, panel := t.panel,
        plate := t.plate, ring := t.ring } ∧ t.pair.snapshot = true ∧ t.square.last = x.cycle ∧ t.mram.forces = x.forces) ∧
    (let b := s.payloadOf p rehearseDesc
     let h := cyclePlus s.square.last 8
     s.admits p rehearseDesc = true → s.pair.state = .active → be16 b 2 ≠ 0 → s.pair.rehearsal = none → s.pair.handover = none →
     s.pair.incoming = none → exec (.rehearse p) s = .next ({ s.admitted p rehearseDesc with pair := { s.pair with
       handover := some h
       rehearsal := some { handover := h, dwell := some (be16 b 2), handBack := byteAt b 0 % 2 == 1, incoming := false, took := false
                           passed := [], failed := [] }
       forwarded := s.pair.forwarded ++ [(Change.rehearse (be16 b 2) (byteAt b 0 % 2 == 1), h)] } }.reply (s.ctxOf p rehearseDesc) .ok (toBe 4 h.toNat))) ∧
    (∀ (d : Nat) (back : Bool) (h : BitVec 32), s.cableUp = true → s.pair.state = .sync → s.pair.rehearsal = none → s.pair.handover = none →
      s.pair.incoming = none → exec (.forwardedChange (.rehearse d back) h) s = .next { s with pair := { s.pair with
        handover := none
        rehearsal := some { handover := h, dwell := some d, handBack := back, incoming := true, took := false, passed := [], failed := [] } } }) ∧
    (s.admits p resyncDesc = true → s.pair.state = .sync → exec (.resync p) s =
      .next ((s.admitted p resyncDesc).startSync.ok (s.ctxOf p resyncDesc))) ∧
    (∀ r : Rehearsal, s.pair.rehearsal = some r → r.incoming = true → r.took = true → s.pair.state = .active → s.pair.handover = none →
      r.dwell.isSome = true → (r.handBack = true ∧ s.dwellOver r = true) ∨ r.failed ≠ [] → exec .handBack s =
        .next { s with pair := { s.pair with handover := some (nextCycle s.square.current) } }) ∧
    (∀ r : Rehearsal, s.pair.rehearsal = some r → r.took = true → s.dwellOver r = true → ∃ t, exec .rehearseResult s = .next t ∧
      t = { s with mram := { s.mram with rehearsalAt := t.mram.rehearsalAt }, pair := t.pair, crossings := t.crossings, nextSend := t.nextSend } ∧
      t.pair.rehearsal = none ∧ t.mram.rehearsalAt = if r.failed = [] then s.now else s.mram.rehearsalAt)

/-! ## Ring, time, temperature, supply -/

/-- R380 to R384, R386, R389, R390, R425: links fall and rise; what the module sends on the ring leaves by every port that is up, with one sequence number, a station frame ahead of the
others that wait; the first copy of a frame is taken, goes on where it is not consumed, through the transparent clock, and a second one counts
as a duplicate, but for ENUMERATE; a station frame of an unknown kind or version is counted and goes no further (the model's reading, log 130);
no frame longer than 1,464 bytes is sent; of an ENUMERATE frame the number in its HSR tag is kept for its way on; supervision frames go out every 2 s; the trip states
of the first copy of a frame go to FIRE (by which copies are known is presumed, log 27);
Sync of the domain on the PTP port measures the offset, which slews module time by at most 200 ppm, the rate within SYNC_LIMIT being free (log 28), and before full service steps it once; three
seconds without it, and time is stored every second (that each Sync taken sends one Delay_Req, and that HOLDOVER asks for a new Announce, is presumed,
log 153); a sample of temperature, every 100 ms, sets the bands
and the peak, in tenths rounded toward zero (the model's reading, log 29). -/
def Obligations.RingRows : Prop :=
  ∀ (s : State) (p : Fin 2),
    ((s.ringPort p).link = true → ∃ t, exec (.ringLinkDown p) s = .next t ∧
      t = { s with ring := t.ring, pair := t.pair, round := t.round, crossings := t.crossings, nextSend := t.nextSend } ∧
      (t.ringPort p).link = false ∧ t.ringPort (1 - p.val) = s.ringPort (1 - p.val)) ∧
    (∀ g : Bool, (s.ringPort p).link = false → (s.island (10 + p)).state = .run → ∃ t, exec (.ringLinkUp p g) s = .next t ∧
      t = { s with ring := t.ring, crossings := t.crossings, nextSend := t.nextSend } ∧
      (t.ringPort p).link = true ∧ (t.ringPort p).gigabit = g ∧ (t.ringPort p).degraded = !g) ∧
    (∀ f : HsrFrame, s.ringPortUp p = true → isEnumerate f = true →
      let u := s.modRingPort p fun x => { x with rxFrames := x.rxFrames + 1 }
      exec (.hsrFrameReceived p f) s = .next { u with ring := { u.ring with enumTag := s.ring.enumTag.put p.val (f.payload, f.seq) } }) ∧
    (∀ f : HsrFrame, s.ringPortUp p = true → isEnumerate f = false → f.source = s.mram.mac ∨ s.hsrSeen f = true →
      ∃ t, exec (.hsrFrameReceived p f) s = .next t ∧
        t = { s with ring := t.ring } ∧
      (t.ringPort p).duplicates = (s.ringPort p).duplicates + 1 ∧ t.ringPort (1 - p.val) = s.ringPort (1 - p.val)) ∧
    (∀ f : HsrFrame, s.ringPortUp p = true → isEnumerate f = false → f.source ≠ s.mram.mac → s.hsrSeen f = false →
      ∃ t, exec (.hsrFrameReceived p f) s = .next t ∧
        t = { s with ring := t.ring } ∧ (t.ringPort p).rxFrames = (s.ringPort p).rxFrames + 1 ∧ t.hsrSeen f = true ∧
        if isStation f && !stationKnown f.payload then
          (t.ringPort p).badStation = satInc (s.ringPort p).badStation ∧ t.ringPort (1 - p.val) = s.ringPort (1 - p.val)
        else (t.ringPort p).badStation = (s.ringPort p).badStation ∧
          t.ringPort (1 - p.val) = if s.consumes f = false ∧ s.ringPortUp (1 - p.val) = true ∧ f.payload.length ≤ 1440
            then (s.ringPort (1 - p.val)).take (1 - p.val) s.now (s.throughClock f) else s.ringPort (1 - p.val)) ∧
    (∀ f : HsrFrame, f.etherType ≠ etPtp → s.throughClock f = f) ∧
    (∀ (x : RingPort) (f : HsrFrame),
      (x.queue = [] → x.busyUntil ≤ s.now → x.take p s.now f = { x with onLink := some f, busyUntil := s.now + x.frameNs p f }) ∧
      (s.now < x.busyUntil → isStation f = false → x.take p s.now f = { x with queue := x.queue ++ [f] }) ∧
      (∀ a b : List HsrFrame, s.now < x.busyUntil → isStation f = true → x.queue = a ++ b → (∀ g ∈ a, isStation g = true) → (∀ g ∈ b, isStation g = false) →
        x.take p s.now f = { x with queue := a ++ f :: b })) ∧
    (∀ (d : BitVec 48) (e : BitVec 16) (l : List Byte), let t := s.sendRing d e l
      t = { s with ring := t.ring } ∧ t.ring.hsrSeq = s.ring.hsrSeq + 1 ∧ ∀ n < 2, t.ringPort n = if s.ringPortUp n = true ∧ l.length ≤ 1440 then
        (s.ringPort n).take n s.now { source := s.mram.mac, dest := d, seq := s.ring.hsrSeq, etherType := e, payload := l } else s.ringPort n) ∧
    (s.ringUp = true → exec .hsrSupervision s = .next (if s.dueEvery s.ring.supervisionAt 2000000000 = true then
      { s with ring := { s.ring with supervisions := s.ring.supervisions + 1, supervisionAt := some s.now } }.sendRing groupSupervision etSupervision
        (s.supervision (s.ring.supervisions + 1)) else s)) ∧
    (∀ f : TripFrame, s.stationSeen 1 f.serial f.seq = true → exec (.ringTripFrameReceived p f) s = .next s) ∧
    (∀ f : TripFrame, s.ringPortUp p = true → f.serial ≠ s.mram.serial → s.stationSeen 1 f.serial f.seq = false →
      ∃ t, exec (.ringTripFrameReceived p f) s = .next t ∧
      t = { s with fire := t.fire, ring := t.ring, crossings := t.crossings, nextSend := t.nextSend } ∧
      FireMsg.ring f.address f.states ∈ t.fire.inbox ∧ t.stationSeen 1 f.serial f.seq = true) ∧
    (∀ (o d : Int) (k : BitVec 8), s.ptpEn = true → s.ringPortUp p = true → p.val = b2n s.syncPort → k.toNat = s.ptpDomain →
      (s.service = .full → ∃ t, exec (.ptpSyncReceived ⟨p, k⟩ ⟨o, d⟩) s = .next t ∧
        t = { s with freeCount := t.freeCount, ring := t.ring, crossings := t.crossings, nextSend := t.nextSend } ∧
        t.ring.offsetNs = o ∧ t.ring.pathDelay = d ∧ t.ring.lastSync = some s.now ∧ t.ring.ptpReq = s.ring.ptpReq + 1 ∧
        (s.ring.announced = true → s.ring.time = .acquiring ∨ s.ring.time = .locked → -200000 ≤ t.ring.ratePpb ∧ t.ring.ratePpb ≤ 200000 ∧
          (s.syncLimit < o.natAbs → t.ring.ratePpb = if 0 < o then -200000 else 200000))) ∧
      (s.service = .sideStreet → s.ring.announced = true → s.ring.time = .freeRun ∨ s.ring.time = .holdover →
        ∃ t, exec (.ptpSyncReceived ⟨p, k⟩ ⟨o, d⟩) s = .next t ∧ t.now = ((s.now : Int) - o).toNat ∧ t.ring.time = .acquiring ∧ t.ring.stepped = true)) ∧
    (∀ (o d : Int) (k : BitVec 8), s.ptpEn = false ∨ s.ringPortUp p = false ∨ p.val ≠ b2n s.syncPort ∨ k.toNat ≠ s.ptpDomain →
      exec (.ptpSyncReceived ⟨p, k⟩ ⟨o, d⟩) s = .next s) ∧
    (∀ u : Nat, s.ring.lastSync = some u → s.ring.time = .locked → u + 3000000000 ≤ s.now → exec .ptpSyncTimeout s =
      .next ({ s with ring := { s.ring with time := .holdover, inLimit := 0, announced := false } }.raise .ptpLost 3)) ∧
    (s.keepRuns = true → exec .moduleTimeStore s = .next (if s.dueEvery (some s.mram.time) 1000000000 = true then
      { s with mram := { s.mram with time := s.now } } else s)) ∧
    (∀ b h : Int, s.service ≠ .off → s.runs 18 = true → s.dueEvery s.power.sampledAt 100000000 = true → ∃ t, exec (.thermalSample b h none) s = .next t ∧
      t = { s with mram := { s.mram with peak := t.mram.peak }, round := t.round, crossings := t.crossings, nextSend := t.nextSend
                   panel := t.panel, plate := t.plate, power := t.power } ∧
      t.power.board = b ∧ t.power.hottest = h ∧ t.power.sampledAt = some s.now ∧
      t.power.bandTemp = some b ∧ t.mram.peak = max s.mram.peak (h.tdiv 10))

/-- R392 to R407, R422: the supply comes and starts the module, a feed is lost and comes back, a low supply is told once, full service is entered once the
supply has stood for 100 ms (as the rows told it, log 156) and nothing that it reads or writes waits for a repair, the
warning of a failing supply, by 4.3 V and in full service by PF_THRESHOLD_MV, is raised once and puts the module on its store, its deadline ends a cycle, its hold-up
completes and halts the module, or starts it again where the supply has come back, and the loss of the logic supply
takes all but MRAM and the field side. That SUPPLY_VALID takes the steps of a start from service off to Side-Street mode at once, and FULL_SERVICE those to full
service, is the model's choice (logs 17, 18). -/
def Obligations.SupplyRows : Prop :=
  ∀ (s : State) (p : Packet) (mv : Nat),
    (∀ lp2 : Nat, s.service = .off → 4500 ≤ mv → ∃ t, exec (.supplyValid mv lp2 none) s = .next t ∧
      t.pending = s.pending ∧ t.freeCount = s.freeCount ∧
      t.mram = { s.mram with addressed := t.mram.addressed, address := t.mram.address, obj := t.mram.obj, objRestart := t.mram.objRestart
                             banks := t.mram.banks, forces := t.mram.forces, voidCopies := t.mram.voidCopies, seqs := t.mram.seqs, sideB := t.mram.sideB, sev := t.mram.sev
                             lastStart := t.mram.lastStart, fwActivated := t.mram.fwActivated, fwRunning := t.mram.fwRunning
                             started := t.mram.started, fireVoid := t.mram.fireVoid, totals := t.mram.totals, remap := t.mram.remap
                             records := t.mram.records, torn := t.mram.torn, journal := t.mram.journal } ∧
      t.service = .sideStreet ∧ t.mram.torn = false ∧ t.mram.journal = none ∧
      t.now = s.mram.time ∧ t.power.lp1Ok = true ∧ t.power.supOk = false ∧ t.power.charging = true) ∧
    (s.working = true → exec .supFirmwareVerified s = .next { s with power := { s.power with supOk := true } }) ∧
    (s.service ≠ .off → mv < 4500 → s.power.lp1Ok = true → s.power.lp2Ok = true → ∃ t, exec (.supplyFeedLost 0 mv) s = .next t ∧
      t = { s with crossings := t.crossings, nextSend := t.nextSend, power := t.power } ∧
      t.power.lp1Ok = false ∧ t.power.lp1Mv = mv ∧ t.power.lp2Ok = true) ∧
    (s.service ≠ .off → mv < 4500 → s.power.lp2Ok = false →
      exec (.supplyFeedLost 0 mv) s = .next { s with power := { s.power with
        lp1Mv := mv, lp1Ok := false, okFrom := if s.serviceMv ≤ max mv s.power.lp2Mv then some (s.power.okFrom.getD s.now) else none } }) ∧
    (s.service ≠ .off → 4500 ≤ mv → exec (.supplyFeedRestored 1 mv) s =
      .next { s with power := { s.power with
        lp2Mv := mv, lp2Ok := true, okFrom := if s.serviceMv ≤ max s.power.lp1Mv mv then some (s.power.okFrom.getD s.now) else none } }) ∧
    (s.service = .sideStreet → s.power.lowHoldDone = false → s.power.validAt + 1000000000 ≤ s.now → mv < s.serviceMv → 4500 ≤ mv →
      exec (.supplyLowHold mv) s = .next ({ s with power := { s.power with lowHoldDone := true, okFrom := none } }.raiseFrom 18 .supplyLowHold (mkWord [(15, 0, mv)]))) ∧
    (∀ st : Nat, s.service ≠ .sideStreet → exec (.fullService mv st [] []) s = .next s) ∧
    (∀ st : Nat, s.service = .sideStreet → s.power.warning.isSome = true ∨ s.supAnswers = false ∨ s.mram.fireValid = false ∨ mv < s.serviceMv ∨
        (∀ u, s.power.okFrom = some u → s.now < u + 100000000) ∨ st < 44000 →
      exec (.fullService mv st [] []) s = .next { s with power := { s.power with
        okFrom := if s.serviceMv ≤ mv then some (s.power.okFrom.getD s.now) else none } }) ∧
    (∀ st u : Nat, s.service = .sideStreet → s.power.warning = none → s.supAnswers = true → s.mram.fireValid = true → s.serviceMv ≤ mv → 44000 ≤ st →
      s.power.okFrom = some u → u + 100000000 ≤ s.now →
      let r := { s with power := { s.power with store := some (s.now, st) } }.bankReads
      (r.bankWaits = true → exec (.fullService mv st [] []) s = .next r) ∧
      ∀ w, r.bankWaits = false → r.spansWait (r.startSpans (r.mram.lastStart.toNat % 2 == 1)) = some w → exec (.fullService mv st [] []) s = .next w) ∧
    (∀ st u : Nat, s.service = .sideStreet → s.power.warning = none → s.supAnswers = true → s.mram.fireValid = true → s.serviceMv ≤ mv → 44000 ≤ st →
      s.power.okFrom = some u → u + 100000000 ≤ s.now →
      let r := { s with power := { s.power with store := some (s.now, st) } }.bankReads
      r.bankWaits = false → r.spansWait (r.startSpans (r.mram.lastStart.toNat % 2 == 1)) = none →
      ∃ t, exec (.fullService mv st [] []) s = .next t ∧
      t = { s with service := t.service, power := { s.power with store := some (s.now, st) }
                   mram := { s.mram with banks := t.mram.banks, fresh := t.mram.fresh, startMs := t.mram.startMs
                                         rehearsalAt := t.mram.rehearsalAt, remap := t.mram.remap, voidCopies := t.mram.voidCopies, seqs := t.mram.seqs }
                   sup := t.sup, islands := t.islands, domains := t.domains, square := t.square, timers := t.timers, counters := t.counters
                   round := t.round, loop := t.loop, ucs := t.ucs, cans := t.cans, fire := t.fire, pair := t.pair, locks := t.locks
                   arrays := t.arrays, upsets := t.upsets, crossings := t.crossings, nextSend := t.nextSend
                   raised := t.raised, panel := t.panel, plate := t.plate } ∧ t.service = .full ∧ t.mram.fresh = false ∧
        t.square.current = if s.mram.fresh then 1 else cyclePlus s.mram.cycle 65536) ∧
    (s.power.warning.isSome = true ∨ (4300 ≤ mv ∧ (s.service ≠ .full ∨ bits (s.cfg 0xD10 0) 31 16 ≤ mv)) → exec (.powerFailWarning mv) s = .next s) ∧
    (s.working = true → s.power.warning = none → mv < 4300 ∨ (s.service = .full ∧ mv < bits (s.cfg 0xD10 0) 31 16) →
      ∃ t, exec (.powerFailWarning mv) s = .next t ∧
      t.power.warning = some s.now ∧ t.power.charging = false ∧ t.power.converter = true ∧
      t.mram.warnings = satInc s.mram.warnings ∧ t.mram.holdupComplete = false ∧ t.pending = s.pending ∧ t.now = s.now ∧ t.service = s.service ∧
      t.mram.keys = s.mram.keys ∧ t.mram.records = s.mram.records ∧
      (s.square.phase ≠ .idle ∨ s.square.finalDone = true → t = { s with
        mram := { s.mram with holdupComplete := false, warnings := t.mram.warnings, rehearsalAt := t.mram.rehearsalAt },
        round := t.round, pair := t.pair, crossings := t.crossings, nextSend := t.nextSend, panel := t.panel, power := t.power })) ∧
    (∀ u : Nat, s.power.warning = some u → u + 5000000 ≤ s.now → s.square.phase = .execute →
      (s.pair.handover.isSome = true → exec .holdupExecuteDeadline s = .next s.abandonCycle) ∧
      ∃ t, exec .holdupExecuteDeadline s = .next t ∧ t.square.phase ≠ .execute ∧ t.square.last = s.square.last ∧ t.pending = s.pending ∧
        t.now = s.now ∧ t.service = s.service ∧ t.mram.keys = s.mram.keys ∧ t.mram.records = s.mram.records) ∧
    (∀ u : Nat, s.power.warning = some u → s.working = true → s.holdupDone = true → mv < s.serviceMv → ∃ t, exec (.holdUpComplete mv) s = .next t ∧
      t = { s with service := t.service, ucs := t.ucs, dos := t.dos, pair := t.pair, crossings := t.crossings, nextSend := t.nextSend
                   islands := t.islands, domains := t.domains, cans := t.cans, sup := t.sup, panel := t.panel, plate := t.plate
                   arrays := t.arrays, locks := t.locks, upsets := t.upsets
                   mram := { s.mram with holdupComplete := t.mram.holdupComplete, holdupMs := t.mram.holdupMs, time := t.mram.time } } ∧
      t.service = .halted ∧ (∀ d, 1 ≤ d → d < 12 → (t.domain d).state = .off) ∧ t.mram.holdupComplete = true ∧ t.mram.time = s.now ∧ t.pair.claimOwn = (s.pair.claimOwn && !s.pairMode)) ∧
    (∀ u : Nat, s.power.warning = some u → s.working = true → s.holdupDone = true → s.serviceMv ≤ mv → ∃ t, exec (.holdUpComplete mv) s = .next t ∧
      t.service = .sideStreet ∧ t.pending = s.pending ∧ t.freeCount = s.freeCount ∧ t.now = s.now ∧ t.mram.keys = s.mram.keys ∧
      t.mram.records = s.mram.records ∧ t.mram.holdupComplete = true ∧ t.mram.holdupMs = BitVec.ofNat 16 (satNat 16 ((s.now - u) / 1000000)) ∧
      t.mram.lastStart.toNat < 2 ∧ t.power.warning = none ∧ t.power.charging = true ∧ t.power.converter = false ∧ t.power.supOk = false ∧
      t.pair.claimOwn = false) ∧
    (s.service ≠ .off → ∃ t, exec .logicSupplyLost s = .next t ∧ t.now = s.now ∧ t.freeCount = s.freeCount + 1 ∧ t.service = .off ∧
      t.mram = { s.mram with records := t.mram.records, newest := t.mram.newest, latest := t.mram.latest, journal := t.mram.journal
                             torn := t.mram.torn, sev := t.mram.sev, totals := t.mram.totals, retained := t.mram.retained
                             voidCopies := t.mram.voidCopies } ∧
      t.pending = s.pending ∧ t.engines = [] ∧ t.sup = State.reset.sup) ∧
    (let b := s.payloadOf p restartDesc
     s.admits p restartDesc = true → s.service = .full → s.pairMode = false → s.pair.state = .solo → byteAt b 0 = 1 ∨ byteAt b 0 = 2 →
     ∃ t, exec (.restart p) s = .next t ∧ t.pending = s.pending ∧ t.freeCount = s.freeCount ∧
       t.mram.keys = s.mram.keys ∧ t.mram.records = s.mram.records ∧ t.service = .sideStreet ∧ t.mram.lastStart = BitVec.ofNat 2 (byteAt b 0 + 1) ∧ t.now = s.now)

/-! ## Encodings, invariants and frames -/

/-- R107, R108: words written out from the encoding tables decode to the instructions they stand for; a reserved opcode or area decodes to none. -/
def Obligations.WorkedWords : Prop :=
  decodeEngine 0 0x10000005 0 = some (.ld 0 ⟨.I, 5, 0⟩) ∧
    decodeEngine 3 0x11300009 0x00000011 = some (.ldn 3 ⟨.D, 9, 17⟩) ∧
    decodeEngine 1 0x19200002 0 = some (.setb 1 ⟨.M, 2, 0⟩) ∧
    decodeEngine 0 0x26000000 0 = some (.closeBracket 0) ∧
    decodeEngine 2 0x2A100041 0x0000000C = some (.orr 2 ⟨⟨.Q, 65, 0⟩, 12⟩) ∧
    decodeEngine 0 0x30500007 0xA000012C = some (.ton 0 ⟨7, 2, true, false, 300⟩) ∧
    decodeEngine 0 0x34600FFF 0 = some (.cup 0 4095) ∧
    decodeEngine 0 0x41000000 0x80000001 = some (.lwi 0 0x80000001) ∧
    decodeEngine 0 0x43300003 0x00B08004 = some (.move 0 ⟨.D, 3, 0⟩ ⟨.N, 0x8004, 0⟩) ∧
    decodeEngine 2 0x50000000 0 = some (.add 2) ∧
    decodeEngine 0 0x60000100 0 = some (.jmp 0 256) ∧
    decodeEngine 0 0x7090003F 0 = some (.tot 0 63) ∧
    decodeEngine 0 0x02000000 0 = none ∧ decodeEngine 0 0x10C00000 0 = none

/-- R107, R114: the words of every well-formed instruction of the engines, whatever follows them, decode to that instruction with every operand; a word
read or write comes back with a clean verdict, which no word spells. -/
def Obligations.EncodingRoundTrip : Prop :=
  ∀ (i : Instr) (e : Fin 4) (ws : List Word) (x : Word), i.wellFormed = true → encodeEngine i = some (e, ws) →
    decodeEngine e (ws.getD 0 0) (ws.getD 1 x) = some (plain i)

/-- The bytes and the marks of the Town Square keep their canonical form over every step, whatever command it takes (the form of the memory is the
model's own; R85, R131, R345 say what is stored in it). That the memory after reset stands in it is a clause of ResetState. -/
def Obligations.SquareStaysCanonical : Prop :=
  ∀ (s t : State), s.squareWf = true → step s = .next t → t.squareWf = true

/-- R37, R138: whatever command a step takes, the fire count of every source of the Roundabout stays the sum of what was served, what is pending and
what was coalesced. -/
def Obligations.FiringsAccounted : Prop := ∀ (s t : State), s.accounted → step s = .next t → t.accounted

/-- R37, R85, R106, R135: no instruction of a logic engine reaches past the Town Square, its tables and what it raises: the Fire Lane, the pair, the
supervisor, the channels, digital inputs and outputs, CAN ports, the loop engine, the ring, panel and plate, module time, the mode of service, the queue
and, but for the run/stop mode and the words remapped, MRAM are as they were; an island does no more than count a store that is held for credits; the Town Square keeps its canonical
form. -/
def Obligations.EnginesAreConfined : Prop :=
  ∀ (s t : State) (i : Instr), (encodeEngine i).isSome = true → exec i s = .next t →
    t = { s with
      freeCount := t.freeCount, mram := { s.mram with runStop := t.mram.runStop, remap := t.mram.remap, voidCopies := t.mram.voidCopies, seqs := t.mram.seqs }
      islands := t.islands, crossings := t.crossings
      nextSend := t.nextSend, square := t.square, engines := t.engines, timers := t.timers, counters := t.counters, round := t.round
      totals := t.totals, locks := t.locks, upsets := t.upsets, arrays := t.arrays, raised := t.raised } ∧ (∀ n, t.island n = { s.island n with stalls := (t.island n).stalls }) ∧ (s.squareWf = true → t.squareWf = true)
end

