-- ==== Sys2Proof/Laws/Tab.lean ====
section
/-! SUPPORT. The laws of tables: a read after a write, and that writing keeps the canonical form. -/

namespace Sys2Proof.Tab

variable {α : Type}

theorem get_put_same (d : α) (t : Tab α) (k : Nat) (v : α) : get d (put t k v) k = v := by
  induction t with
  | nil => simp [put, get]
  | cons p t ih =>
    obtain ⟨j, w⟩ := p
    unfold put
    split
    · simp [get]
    · split
      · simp [get]
      · rename_i h1 h2
        simp [get, h2, ih]

theorem get_put_other (d : α) (t : Tab α) {k i : Nat} (v : α) (h : i ≠ k) : get d (put t k v) i = get d t i := by
  induction t with
  | nil => simp [put, get, Ne.symm h]
  | cons p t ih =>
    obtain ⟨j, w⟩ := p
    unfold put
    split
    · simp [get, Ne.symm h]
    · split
      · rename_i h1 h2
        subst h2
        simp [get, Ne.symm h]
      · simp [get, ih]

theorem get_del_other (d : α) (t : Tab α) {k i : Nat} (h : i ≠ k) : get d (del t k) i = get d t i := by
  induction t with
  | nil => rfl
  | cons p t ih =>
    obtain ⟨j, w⟩ := p
    by_cases hj : j = k
    · have : ¬ j = i := by omega
      simpa [del, get, hj, Ne.symm h] using ih
    · by_cases hi : j = i
      · simp [del, get, hi, h]
      · simpa [del, get, hj, hi] using ih

theorem get_of_above (d : α) (t : Tab α) (k : Nat) (h : above k t) : get d t k = d := by
  induction t with
  | nil => rfl
  | cons p t ih =>
    obtain ⟨j, w⟩ := p
    have hj : k < j := h (j, w) (by simp)
    have : ¬ j = k := by omega
    simp only [get, this, if_false]
    exact ih (fun q hq => h q (by simp [hq]))

theorem wf_above [DecidableEq α] {d : α} {j : Nat} {v : α} {t : Tab α} (h : wf d ((j, v) :: t) = true) : above j t := by
  simp only [wf, Bool.and_eq_true, List.all_eq_true, decide_eq_true_eq] at h
  exact h.1.2

theorem wf_tail [DecidableEq α] {d : α} {p : Nat × α} {t : Tab α} (h : wf d (p :: t) = true) : wf d t = true := by
  obtain ⟨j, v⟩ := p
  simp only [wf, Bool.and_eq_true] at h
  exact h.2

theorem wf_head [DecidableEq α] {d : α} {j : Nat} {v : α} {t : Tab α} (h : wf d ((j, v) :: t) = true) : v ≠ d := by
  simp only [wf, Bool.and_eq_true, decide_eq_true_eq] at h
  exact h.1.1

theorem wf_cons [DecidableEq α] {d : α} {j : Nat} {v : α} {t : Tab α} (h1 : v ≠ d) (h2 : above j t) (h3 : wf d t = true) :
    wf d ((j, v) :: t) = true := by
  simp only [wf, Bool.and_eq_true, List.all_eq_true, decide_eq_true_eq]
  exact ⟨⟨h1, h2⟩, h3⟩

theorem get_del_same (d : α) (t : Tab α) (k : Nat) : get d (del t k) k = d := by
  induction t with
  | nil => rfl
  | cons p t ih =>
    obtain ⟨j, w⟩ := p
    by_cases hj : j = k
    · simpa [del, hj] using ih
    · simpa [del, get, hj] using ih

theorem above_put {b : Nat} {t : Tab α} {k : Nat} {v : α} (hk : b < k) (h : above b t) : above b (put t k v) := by
  induction t with
  | nil => intro p hp; simp [put] at hp; subst hp; exact hk
  | cons q t ih =>
    obtain ⟨j, w⟩ := q
    have hj : b < j := h (j, w) (by simp)
    have ht : above b t := fun p hp => h p (by simp [hp])
    unfold put
    split
    · intro p hp
      simp only [List.mem_cons] at hp
      rcases hp with rfl | rfl | hp
      · exact hk
      · exact hj
      · exact ht p hp
    · split
      · intro p hp
        simp only [List.mem_cons] at hp
        rcases hp with rfl | hp
        · exact hk
        · exact ht p hp
      · intro p hp
        simp only [List.mem_cons] at hp
        rcases hp with rfl | hp
        · exact hj
        · exact ih ht p hp

theorem above_del {b : Nat} {t : Tab α} {k : Nat} (h : above b t) : above b (del t k) :=
  fun p hp => h p (List.mem_of_mem_filter hp)

theorem above_mono {a b : Nat} {t : Tab α} (hab : a ≤ b) (h : above b t) : above a t :=
  fun p hp => Nat.lt_of_le_of_lt hab (h p hp)

theorem wf_put [DecidableEq α] {d : α} {t : Tab α} {k : Nat} {v : α} (hv : v ≠ d) (h : wf d t = true) : wf d (put t k v) = true := by
  induction t with
  | nil => simp [put, wf, hv]
  | cons q t ih =>
    obtain ⟨j, w⟩ := q
    unfold put
    split
    · rename_i hkj
      refine wf_cons hv ?_ h
      intro p hp
      simp only [List.mem_cons] at hp
      rcases hp with rfl | hp
      · exact hkj
      · exact Nat.lt_trans hkj (wf_above h p hp)
    · split
      · rename_i h1 h2
        subst h2
        exact wf_cons hv (wf_above h) (wf_tail h)
      · rename_i h1 h2
        exact wf_cons (wf_head h) (above_put (by omega) (wf_above h)) (ih (wf_tail h))

theorem wf_del [DecidableEq α] {d : α} {t : Tab α} {k : Nat} (h : wf d t = true) : wf d (del t k) = true := by
  induction t with
  | nil => rfl
  | cons q t ih =>
    obtain ⟨j, w⟩ := q
    by_cases hj : j = k
    · simpa [del, hj] using ih (wf_tail h)
    · have : del ((j, w) :: t) k = (j, w) :: del t k := by simp [del, hj]
      rw [this]
      exact wf_cons (wf_head h) (above_del (wf_above h)) (ih (wf_tail h))

/-- Writing an entry keeps the canonical form. -/
theorem wf_set [DecidableEq α] {d : α} {t : Tab α} {k : Nat} {v : α} (h : wf d t = true) : wf d (set d t k v) = true := by
  unfold set
  split
  · exact wf_del h
  · rename_i hv; exact wf_put hv h

/-- A read of the entry just written gives the value written. -/
@[simp] theorem get_set_same [DecidableEq α] (d : α) (t : Tab α) (k : Nat) (v : α) : get d (set d t k v) k = v := by
  unfold set
  split
  · rename_i hv; rw [hv]; exact get_del_same d t k
  · exact get_put_same d t k v

/-- A write leaves every other entry alone. -/
theorem get_set_other [DecidableEq α] (d : α) (t : Tab α) {k i : Nat} (v : α) (h : i ≠ k) :
    get d (set d t k v) i = get d t i := by
  unfold set
  split
  · exact get_del_other d t h
  · exact get_put_other d t v h

@[simp] theorem get_nil (d : α) (k : Nat) : get d [] k = d := rfl

end Sys2Proof.Tab
end

