-- ==== Sys2Proof/Laws/State.lean ====
section
/-! SUPPORT. What the accessors of State read after each named update: the entry just written reads as written, and every other field
stays. No later proof unfolds a record update. -/

namespace Sys2Proof.Machine

open Sys2Proof

/-! ### `setEngine` -/

theorem State.modEngine_def (s : State) (i : Nat) (f : Engine → Engine) : s.modEngine i f = s.setEngine i (f (s.engine i)) := rfl
@[simp] theorem State.setEngine_same (s : State) (i : Nat) (x : Engine) : (s.setEngine i x).engine i = x := Tab.get_set_same _ _ _ _
theorem State.setEngine_other (s : State) {i j : Nat} (x : Engine) (h : j ≠ i) : (s.setEngine i x).engine j = s.engine j := Tab.get_set_other _ _ _ h
@[simp] theorem State.setEngine_pending (s : State) (i : Nat) (x : Engine) : (s.setEngine i x).pending = s.pending := rfl
@[simp] theorem State.setEngine_now (s : State) (i : Nat) (x : Engine) : (s.setEngine i x).now = s.now := rfl
@[simp] theorem State.setEngine_freeCount (s : State) (i : Nat) (x : Engine) : (s.setEngine i x).freeCount = s.freeCount := rfl
@[simp] theorem State.setEngine_service (s : State) (i : Nat) (x : Engine) : (s.setEngine i x).service = s.service := rfl
@[simp] theorem State.setEngine_mram (s : State) (i : Nat) (x : Engine) : (s.setEngine i x).mram = s.mram := rfl
@[simp] theorem State.setEngine_sup (s : State) (i : Nat) (x : Engine) : (s.setEngine i x).sup = s.sup := rfl
@[simp] theorem State.setEngine_islands (s : State) (i : Nat) (x : Engine) : (s.setEngine i x).islands = s.islands := rfl
@[simp] theorem State.setEngine_faultyInterlock (s : State) (i : Nat) (x : Engine) : (s.setEngine i x).faultyInterlock = s.faultyInterlock := rfl
@[simp] theorem State.setEngine_domains (s : State) (i : Nat) (x : Engine) : (s.setEngine i x).domains = s.domains := rfl
@[simp] theorem State.setEngine_crossings (s : State) (i : Nat) (x : Engine) : (s.setEngine i x).crossings = s.crossings := rfl
@[simp] theorem State.setEngine_rounds (s : State) (i : Nat) (x : Engine) : (s.setEngine i x).rounds = s.rounds := rfl
@[simp] theorem State.setEngine_nextSend (s : State) (i : Nat) (x : Engine) : (s.setEngine i x).nextSend = s.nextSend := rfl
@[simp] theorem State.setEngine_mismatches (s : State) (i : Nat) (x : Engine) : (s.setEngine i x).mismatches = s.mismatches := rfl
@[simp] theorem State.setEngine_windowMismatches (s : State) (i : Nat) (x : Engine) : (s.setEngine i x).windowMismatches = s.windowMismatches := rfl
@[simp] theorem State.setEngine_auditAt (s : State) (i : Nat) (x : Engine) : (s.setEngine i x).auditAt = s.auditAt := rfl
@[simp] theorem State.setEngine_square (s : State) (i : Nat) (x : Engine) : (s.setEngine i x).square = s.square := rfl
@[simp] theorem State.setEngine_timers (s : State) (i : Nat) (x : Engine) : (s.setEngine i x).timers = s.timers := rfl
@[simp] theorem State.setEngine_counters (s : State) (i : Nat) (x : Engine) : (s.setEngine i x).counters = s.counters := rfl
@[simp] theorem State.setEngine_round (s : State) (i : Nat) (x : Engine) : (s.setEngine i x).round = s.round := rfl
@[simp] theorem State.setEngine_loop (s : State) (i : Nat) (x : Engine) : (s.setEngine i x).loop = s.loop := rfl
@[simp] theorem State.setEngine_ucs (s : State) (i : Nat) (x : Engine) : (s.setEngine i x).ucs = s.ucs := rfl
@[simp] theorem State.setEngine_dis (s : State) (i : Nat) (x : Engine) : (s.setEngine i x).dis = s.dis := rfl
@[simp] theorem State.setEngine_dos (s : State) (i : Nat) (x : Engine) : (s.setEngine i x).dos = s.dos := rfl
@[simp] theorem State.setEngine_diGroups (s : State) (i : Nat) (x : Engine) : (s.setEngine i x).diGroups = s.diGroups := rfl
@[simp] theorem State.setEngine_doGroups (s : State) (i : Nat) (x : Engine) : (s.setEngine i x).doGroups = s.doGroups := rfl
@[simp] theorem State.setEngine_cans (s : State) (i : Nat) (x : Engine) : (s.setEngine i x).cans = s.cans := rfl
@[simp] theorem State.setEngine_fire (s : State) (i : Nat) (x : Engine) : (s.setEngine i x).fire = s.fire := rfl
@[simp] theorem State.setEngine_pair (s : State) (i : Nat) (x : Engine) : (s.setEngine i x).pair = s.pair := rfl
@[simp] theorem State.setEngine_totals (s : State) (i : Nat) (x : Engine) : (s.setEngine i x).totals = s.totals := rfl
@[simp] theorem State.setEngine_locks (s : State) (i : Nat) (x : Engine) : (s.setEngine i x).locks = s.locks := rfl
@[simp] theorem State.setEngine_arrays (s : State) (i : Nat) (x : Engine) : (s.setEngine i x).arrays = s.arrays := rfl
@[simp] theorem State.setEngine_raised (s : State) (i : Nat) (x : Engine) : (s.setEngine i x).raised = s.raised := rfl
@[simp] theorem State.setEngine_upsets (s : State) (i : Nat) (x : Engine) : (s.setEngine i x).upsets = s.upsets := rfl
@[simp] theorem State.setEngine_recQueue (s : State) (i : Nat) (x : Engine) : (s.setEngine i x).recQueue = s.recQueue := rfl
@[simp] theorem State.setEngine_mramChecked (s : State) (i : Nat) (x : Engine) : (s.setEngine i x).mramChecked = s.mramChecked := rfl
@[simp] theorem State.setEngine_panel (s : State) (i : Nat) (x : Engine) : (s.setEngine i x).panel = s.panel := rfl
@[simp] theorem State.setEngine_plate (s : State) (i : Nat) (x : Engine) : (s.setEngine i x).plate = s.plate := rfl
@[simp] theorem State.setEngine_ring (s : State) (i : Nat) (x : Engine) : (s.setEngine i x).ring = s.ring := rfl
@[simp] theorem State.setEngine_power (s : State) (i : Nat) (x : Engine) : (s.setEngine i x).power = s.power := rfl
@[simp] theorem State.modEngine_same (s : State) (i : Nat) (f : Engine → Engine) : (s.modEngine i f).engine i = f (s.engine i) := Tab.get_set_same _ _ _ _
theorem State.modEngine_other (s : State) {i j : Nat} (f : Engine → Engine) (h : j ≠ i) : (s.modEngine i f).engine j = s.engine j := Tab.get_set_other _ _ _ h
@[simp] theorem State.modEngine_pending (s : State) (i : Nat) (f : Engine → Engine) : (s.modEngine i f).pending = s.pending := rfl
@[simp] theorem State.modEngine_now (s : State) (i : Nat) (f : Engine → Engine) : (s.modEngine i f).now = s.now := rfl
@[simp] theorem State.modEngine_freeCount (s : State) (i : Nat) (f : Engine → Engine) : (s.modEngine i f).freeCount = s.freeCount := rfl
@[simp] theorem State.modEngine_service (s : State) (i : Nat) (f : Engine → Engine) : (s.modEngine i f).service = s.service := rfl
@[simp] theorem State.modEngine_mram (s : State) (i : Nat) (f : Engine → Engine) : (s.modEngine i f).mram = s.mram := rfl
@[simp] theorem State.modEngine_sup (s : State) (i : Nat) (f : Engine → Engine) : (s.modEngine i f).sup = s.sup := rfl
@[simp] theorem State.modEngine_islands (s : State) (i : Nat) (f : Engine → Engine) : (s.modEngine i f).islands = s.islands := rfl
@[simp] theorem State.modEngine_faultyInterlock (s : State) (i : Nat) (f : Engine → Engine) : (s.modEngine i f).faultyInterlock = s.faultyInterlock := rfl
@[simp] theorem State.modEngine_domains (s : State) (i : Nat) (f : Engine → Engine) : (s.modEngine i f).domains = s.domains := rfl
@[simp] theorem State.modEngine_crossings (s : State) (i : Nat) (f : Engine → Engine) : (s.modEngine i f).crossings = s.crossings := rfl
@[simp] theorem State.modEngine_rounds (s : State) (i : Nat) (f : Engine → Engine) : (s.modEngine i f).rounds = s.rounds := rfl
@[simp] theorem State.modEngine_nextSend (s : State) (i : Nat) (f : Engine → Engine) : (s.modEngine i f).nextSend = s.nextSend := rfl
@[simp] theorem State.modEngine_mismatches (s : State) (i : Nat) (f : Engine → Engine) : (s.modEngine i f).mismatches = s.mismatches := rfl
@[simp] theorem State.modEngine_windowMismatches (s : State) (i : Nat) (f : Engine → Engine) : (s.modEngine i f).windowMismatches = s.windowMismatches := rfl
@[simp] theorem State.modEngine_auditAt (s : State) (i : Nat) (f : Engine → Engine) : (s.modEngine i f).auditAt = s.auditAt := rfl
@[simp] theorem State.modEngine_square (s : State) (i : Nat) (f : Engine → Engine) : (s.modEngine i f).square = s.square := rfl
@[simp] theorem State.modEngine_timers (s : State) (i : Nat) (f : Engine → Engine) : (s.modEngine i f).timers = s.timers := rfl
@[simp] theorem State.modEngine_counters (s : State) (i : Nat) (f : Engine → Engine) : (s.modEngine i f).counters = s.counters := rfl
@[simp] theorem State.modEngine_round (s : State) (i : Nat) (f : Engine → Engine) : (s.modEngine i f).round = s.round := rfl
@[simp] theorem State.modEngine_loop (s : State) (i : Nat) (f : Engine → Engine) : (s.modEngine i f).loop = s.loop := rfl
@[simp] theorem State.modEngine_ucs (s : State) (i : Nat) (f : Engine → Engine) : (s.modEngine i f).ucs = s.ucs := rfl
@[simp] theorem State.modEngine_dis (s : State) (i : Nat) (f : Engine → Engine) : (s.modEngine i f).dis = s.dis := rfl
@[simp] theorem State.modEngine_dos (s : State) (i : Nat) (f : Engine → Engine) : (s.modEngine i f).dos = s.dos := rfl
@[simp] theorem State.modEngine_diGroups (s : State) (i : Nat) (f : Engine → Engine) : (s.modEngine i f).diGroups = s.diGroups := rfl
@[simp] theorem State.modEngine_doGroups (s : State) (i : Nat) (f : Engine → Engine) : (s.modEngine i f).doGroups = s.doGroups := rfl
@[simp] theorem State.modEngine_cans (s : State) (i : Nat) (f : Engine → Engine) : (s.modEngine i f).cans = s.cans := rfl
@[simp] theorem State.modEngine_fire (s : State) (i : Nat) (f : Engine → Engine) : (s.modEngine i f).fire = s.fire := rfl
@[simp] theorem State.modEngine_pair (s : State) (i : Nat) (f : Engine → Engine) : (s.modEngine i f).pair = s.pair := rfl
@[simp] theorem State.modEngine_totals (s : State) (i : Nat) (f : Engine → Engine) : (s.modEngine i f).totals = s.totals := rfl
@[simp] theorem State.modEngine_locks (s : State) (i : Nat) (f : Engine → Engine) : (s.modEngine i f).locks = s.locks := rfl
@[simp] theorem State.modEngine_arrays (s : State) (i : Nat) (f : Engine → Engine) : (s.modEngine i f).arrays = s.arrays := rfl
@[simp] theorem State.modEngine_raised (s : State) (i : Nat) (f : Engine → Engine) : (s.modEngine i f).raised = s.raised := rfl
@[simp] theorem State.modEngine_upsets (s : State) (i : Nat) (f : Engine → Engine) : (s.modEngine i f).upsets = s.upsets := rfl
@[simp] theorem State.modEngine_recQueue (s : State) (i : Nat) (f : Engine → Engine) : (s.modEngine i f).recQueue = s.recQueue := rfl
@[simp] theorem State.modEngine_mramChecked (s : State) (i : Nat) (f : Engine → Engine) : (s.modEngine i f).mramChecked = s.mramChecked := rfl
@[simp] theorem State.modEngine_panel (s : State) (i : Nat) (f : Engine → Engine) : (s.modEngine i f).panel = s.panel := rfl
@[simp] theorem State.modEngine_plate (s : State) (i : Nat) (f : Engine → Engine) : (s.modEngine i f).plate = s.plate := rfl
@[simp] theorem State.modEngine_ring (s : State) (i : Nat) (f : Engine → Engine) : (s.modEngine i f).ring = s.ring := rfl
@[simp] theorem State.modEngine_power (s : State) (i : Nat) (f : Engine → Engine) : (s.modEngine i f).power = s.power := rfl

/-! ### `setTimer` -/

theorem State.modTimer_def (s : State) (i : Nat) (f : Timer → Timer) : s.modTimer i f = s.setTimer i (f (s.timer i)) := rfl
@[simp] theorem State.setTimer_same (s : State) (i : Nat) (x : Timer) : (s.setTimer i x).timer i = x := Tab.get_set_same _ _ _ _
theorem State.setTimer_other (s : State) {i j : Nat} (x : Timer) (h : j ≠ i) : (s.setTimer i x).timer j = s.timer j := Tab.get_set_other _ _ _ h
@[simp] theorem State.setTimer_pending (s : State) (i : Nat) (x : Timer) : (s.setTimer i x).pending = s.pending := rfl
@[simp] theorem State.setTimer_now (s : State) (i : Nat) (x : Timer) : (s.setTimer i x).now = s.now := rfl
@[simp] theorem State.setTimer_freeCount (s : State) (i : Nat) (x : Timer) : (s.setTimer i x).freeCount = s.freeCount := rfl
@[simp] theorem State.setTimer_service (s : State) (i : Nat) (x : Timer) : (s.setTimer i x).service = s.service := rfl
@[simp] theorem State.setTimer_mram (s : State) (i : Nat) (x : Timer) : (s.setTimer i x).mram = s.mram := rfl
@[simp] theorem State.setTimer_sup (s : State) (i : Nat) (x : Timer) : (s.setTimer i x).sup = s.sup := rfl
@[simp] theorem State.setTimer_islands (s : State) (i : Nat) (x : Timer) : (s.setTimer i x).islands = s.islands := rfl
@[simp] theorem State.setTimer_faultyInterlock (s : State) (i : Nat) (x : Timer) : (s.setTimer i x).faultyInterlock = s.faultyInterlock := rfl
@[simp] theorem State.setTimer_domains (s : State) (i : Nat) (x : Timer) : (s.setTimer i x).domains = s.domains := rfl
@[simp] theorem State.setTimer_crossings (s : State) (i : Nat) (x : Timer) : (s.setTimer i x).crossings = s.crossings := rfl
@[simp] theorem State.setTimer_rounds (s : State) (i : Nat) (x : Timer) : (s.setTimer i x).rounds = s.rounds := rfl
@[simp] theorem State.setTimer_nextSend (s : State) (i : Nat) (x : Timer) : (s.setTimer i x).nextSend = s.nextSend := rfl
@[simp] theorem State.setTimer_mismatches (s : State) (i : Nat) (x : Timer) : (s.setTimer i x).mismatches = s.mismatches := rfl
@[simp] theorem State.setTimer_windowMismatches (s : State) (i : Nat) (x : Timer) : (s.setTimer i x).windowMismatches = s.windowMismatches := rfl
@[simp] theorem State.setTimer_auditAt (s : State) (i : Nat) (x : Timer) : (s.setTimer i x).auditAt = s.auditAt := rfl
@[simp] theorem State.setTimer_square (s : State) (i : Nat) (x : Timer) : (s.setTimer i x).square = s.square := rfl
@[simp] theorem State.setTimer_engines (s : State) (i : Nat) (x : Timer) : (s.setTimer i x).engines = s.engines := rfl
@[simp] theorem State.setTimer_counters (s : State) (i : Nat) (x : Timer) : (s.setTimer i x).counters = s.counters := rfl
@[simp] theorem State.setTimer_round (s : State) (i : Nat) (x : Timer) : (s.setTimer i x).round = s.round := rfl
@[simp] theorem State.setTimer_loop (s : State) (i : Nat) (x : Timer) : (s.setTimer i x).loop = s.loop := rfl
@[simp] theorem State.setTimer_ucs (s : State) (i : Nat) (x : Timer) : (s.setTimer i x).ucs = s.ucs := rfl
@[simp] theorem State.setTimer_dis (s : State) (i : Nat) (x : Timer) : (s.setTimer i x).dis = s.dis := rfl
@[simp] theorem State.setTimer_dos (s : State) (i : Nat) (x : Timer) : (s.setTimer i x).dos = s.dos := rfl
@[simp] theorem State.setTimer_diGroups (s : State) (i : Nat) (x : Timer) : (s.setTimer i x).diGroups = s.diGroups := rfl
@[simp] theorem State.setTimer_doGroups (s : State) (i : Nat) (x : Timer) : (s.setTimer i x).doGroups = s.doGroups := rfl
@[simp] theorem State.setTimer_cans (s : State) (i : Nat) (x : Timer) : (s.setTimer i x).cans = s.cans := rfl
@[simp] theorem State.setTimer_fire (s : State) (i : Nat) (x : Timer) : (s.setTimer i x).fire = s.fire := rfl
@[simp] theorem State.setTimer_pair (s : State) (i : Nat) (x : Timer) : (s.setTimer i x).pair = s.pair := rfl
@[simp] theorem State.setTimer_totals (s : State) (i : Nat) (x : Timer) : (s.setTimer i x).totals = s.totals := rfl
@[simp] theorem State.setTimer_locks (s : State) (i : Nat) (x : Timer) : (s.setTimer i x).locks = s.locks := rfl
@[simp] theorem State.setTimer_arrays (s : State) (i : Nat) (x : Timer) : (s.setTimer i x).arrays = s.arrays := rfl
@[simp] theorem State.setTimer_raised (s : State) (i : Nat) (x : Timer) : (s.setTimer i x).raised = s.raised := rfl
@[simp] theorem State.setTimer_upsets (s : State) (i : Nat) (x : Timer) : (s.setTimer i x).upsets = s.upsets := rfl
@[simp] theorem State.setTimer_recQueue (s : State) (i : Nat) (x : Timer) : (s.setTimer i x).recQueue = s.recQueue := rfl
@[simp] theorem State.setTimer_mramChecked (s : State) (i : Nat) (x : Timer) : (s.setTimer i x).mramChecked = s.mramChecked := rfl
@[simp] theorem State.setTimer_panel (s : State) (i : Nat) (x : Timer) : (s.setTimer i x).panel = s.panel := rfl
@[simp] theorem State.setTimer_plate (s : State) (i : Nat) (x : Timer) : (s.setTimer i x).plate = s.plate := rfl
@[simp] theorem State.setTimer_ring (s : State) (i : Nat) (x : Timer) : (s.setTimer i x).ring = s.ring := rfl
@[simp] theorem State.setTimer_power (s : State) (i : Nat) (x : Timer) : (s.setTimer i x).power = s.power := rfl
@[simp] theorem State.modTimer_same (s : State) (i : Nat) (f : Timer → Timer) : (s.modTimer i f).timer i = f (s.timer i) := Tab.get_set_same _ _ _ _
theorem State.modTimer_other (s : State) {i j : Nat} (f : Timer → Timer) (h : j ≠ i) : (s.modTimer i f).timer j = s.timer j := Tab.get_set_other _ _ _ h
@[simp] theorem State.modTimer_pending (s : State) (i : Nat) (f : Timer → Timer) : (s.modTimer i f).pending = s.pending := rfl
@[simp] theorem State.modTimer_now (s : State) (i : Nat) (f : Timer → Timer) : (s.modTimer i f).now = s.now := rfl
@[simp] theorem State.modTimer_freeCount (s : State) (i : Nat) (f : Timer → Timer) : (s.modTimer i f).freeCount = s.freeCount := rfl
@[simp] theorem State.modTimer_service (s : State) (i : Nat) (f : Timer → Timer) : (s.modTimer i f).service = s.service := rfl
@[simp] theorem State.modTimer_mram (s : State) (i : Nat) (f : Timer → Timer) : (s.modTimer i f).mram = s.mram := rfl
@[simp] theorem State.modTimer_sup (s : State) (i : Nat) (f : Timer → Timer) : (s.modTimer i f).sup = s.sup := rfl
@[simp] theorem State.modTimer_islands (s : State) (i : Nat) (f : Timer → Timer) : (s.modTimer i f).islands = s.islands := rfl
@[simp] theorem State.modTimer_faultyInterlock (s : State) (i : Nat) (f : Timer → Timer) : (s.modTimer i f).faultyInterlock = s.faultyInterlock := rfl
@[simp] theorem State.modTimer_domains (s : State) (i : Nat) (f : Timer → Timer) : (s.modTimer i f).domains = s.domains := rfl
@[simp] theorem State.modTimer_crossings (s : State) (i : Nat) (f : Timer → Timer) : (s.modTimer i f).crossings = s.crossings := rfl
@[simp] theorem State.modTimer_rounds (s : State) (i : Nat) (f : Timer → Timer) : (s.modTimer i f).rounds = s.rounds := rfl
@[simp] theorem State.modTimer_nextSend (s : State) (i : Nat) (f : Timer → Timer) : (s.modTimer i f).nextSend = s.nextSend := rfl
@[simp] theorem State.modTimer_mismatches (s : State) (i : Nat) (f : Timer → Timer) : (s.modTimer i f).mismatches = s.mismatches := rfl
@[simp] theorem State.modTimer_windowMismatches (s : State) (i : Nat) (f : Timer → Timer) : (s.modTimer i f).windowMismatches = s.windowMismatches := rfl
@[simp] theorem State.modTimer_auditAt (s : State) (i : Nat) (f : Timer → Timer) : (s.modTimer i f).auditAt = s.auditAt := rfl
@[simp] theorem State.modTimer_square (s : State) (i : Nat) (f : Timer → Timer) : (s.modTimer i f).square = s.square := rfl
@[simp] theorem State.modTimer_engines (s : State) (i : Nat) (f : Timer → Timer) : (s.modTimer i f).engines = s.engines := rfl
@[simp] theorem State.modTimer_counters (s : State) (i : Nat) (f : Timer → Timer) : (s.modTimer i f).counters = s.counters := rfl
@[simp] theorem State.modTimer_round (s : State) (i : Nat) (f : Timer → Timer) : (s.modTimer i f).round = s.round := rfl
@[simp] theorem State.modTimer_loop (s : State) (i : Nat) (f : Timer → Timer) : (s.modTimer i f).loop = s.loop := rfl
@[simp] theorem State.modTimer_ucs (s : State) (i : Nat) (f : Timer → Timer) : (s.modTimer i f).ucs = s.ucs := rfl
@[simp] theorem State.modTimer_dis (s : State) (i : Nat) (f : Timer → Timer) : (s.modTimer i f).dis = s.dis := rfl
@[simp] theorem State.modTimer_dos (s : State) (i : Nat) (f : Timer → Timer) : (s.modTimer i f).dos = s.dos := rfl
@[simp] theorem State.modTimer_diGroups (s : State) (i : Nat) (f : Timer → Timer) : (s.modTimer i f).diGroups = s.diGroups := rfl
@[simp] theorem State.modTimer_doGroups (s : State) (i : Nat) (f : Timer → Timer) : (s.modTimer i f).doGroups = s.doGroups := rfl
@[simp] theorem State.modTimer_cans (s : State) (i : Nat) (f : Timer → Timer) : (s.modTimer i f).cans = s.cans := rfl
@[simp] theorem State.modTimer_fire (s : State) (i : Nat) (f : Timer → Timer) : (s.modTimer i f).fire = s.fire := rfl
@[simp] theorem State.modTimer_pair (s : State) (i : Nat) (f : Timer → Timer) : (s.modTimer i f).pair = s.pair := rfl
@[simp] theorem State.modTimer_totals (s : State) (i : Nat) (f : Timer → Timer) : (s.modTimer i f).totals = s.totals := rfl
@[simp] theorem State.modTimer_locks (s : State) (i : Nat) (f : Timer → Timer) : (s.modTimer i f).locks = s.locks := rfl
@[simp] theorem State.modTimer_arrays (s : State) (i : Nat) (f : Timer → Timer) : (s.modTimer i f).arrays = s.arrays := rfl
@[simp] theorem State.modTimer_raised (s : State) (i : Nat) (f : Timer → Timer) : (s.modTimer i f).raised = s.raised := rfl
@[simp] theorem State.modTimer_upsets (s : State) (i : Nat) (f : Timer → Timer) : (s.modTimer i f).upsets = s.upsets := rfl
@[simp] theorem State.modTimer_recQueue (s : State) (i : Nat) (f : Timer → Timer) : (s.modTimer i f).recQueue = s.recQueue := rfl
@[simp] theorem State.modTimer_mramChecked (s : State) (i : Nat) (f : Timer → Timer) : (s.modTimer i f).mramChecked = s.mramChecked := rfl
@[simp] theorem State.modTimer_panel (s : State) (i : Nat) (f : Timer → Timer) : (s.modTimer i f).panel = s.panel := rfl
@[simp] theorem State.modTimer_plate (s : State) (i : Nat) (f : Timer → Timer) : (s.modTimer i f).plate = s.plate := rfl
@[simp] theorem State.modTimer_ring (s : State) (i : Nat) (f : Timer → Timer) : (s.modTimer i f).ring = s.ring := rfl
@[simp] theorem State.modTimer_power (s : State) (i : Nat) (f : Timer → Timer) : (s.modTimer i f).power = s.power := rfl

/-! ### `setCounter` -/

theorem State.modCounter_def (s : State) (i : Nat) (f : Counter → Counter) : s.modCounter i f = s.setCounter i (f (s.counter i)) := rfl
@[simp] theorem State.setCounter_same (s : State) (i : Nat) (x : Counter) : (s.setCounter i x).counter i = x := Tab.get_set_same _ _ _ _
theorem State.setCounter_other (s : State) {i j : Nat} (x : Counter) (h : j ≠ i) : (s.setCounter i x).counter j = s.counter j := Tab.get_set_other _ _ _ h
@[simp] theorem State.setCounter_pending (s : State) (i : Nat) (x : Counter) : (s.setCounter i x).pending = s.pending := rfl
@[simp] theorem State.setCounter_now (s : State) (i : Nat) (x : Counter) : (s.setCounter i x).now = s.now := rfl
@[simp] theorem State.setCounter_freeCount (s : State) (i : Nat) (x : Counter) : (s.setCounter i x).freeCount = s.freeCount := rfl
@[simp] theorem State.setCounter_service (s : State) (i : Nat) (x : Counter) : (s.setCounter i x).service = s.service := rfl
@[simp] theorem State.setCounter_mram (s : State) (i : Nat) (x : Counter) : (s.setCounter i x).mram = s.mram := rfl
@[simp] theorem State.setCounter_sup (s : State) (i : Nat) (x : Counter) : (s.setCounter i x).sup = s.sup := rfl
@[simp] theorem State.setCounter_islands (s : State) (i : Nat) (x : Counter) : (s.setCounter i x).islands = s.islands := rfl
@[simp] theorem State.setCounter_faultyInterlock (s : State) (i : Nat) (x : Counter) : (s.setCounter i x).faultyInterlock = s.faultyInterlock := rfl
@[simp] theorem State.setCounter_domains (s : State) (i : Nat) (x : Counter) : (s.setCounter i x).domains = s.domains := rfl
@[simp] theorem State.setCounter_crossings (s : State) (i : Nat) (x : Counter) : (s.setCounter i x).crossings = s.crossings := rfl
@[simp] theorem State.setCounter_rounds (s : State) (i : Nat) (x : Counter) : (s.setCounter i x).rounds = s.rounds := rfl
@[simp] theorem State.setCounter_nextSend (s : State) (i : Nat) (x : Counter) : (s.setCounter i x).nextSend = s.nextSend := rfl
@[simp] theorem State.setCounter_mismatches (s : State) (i : Nat) (x : Counter) : (s.setCounter i x).mismatches = s.mismatches := rfl
@[simp] theorem State.setCounter_windowMismatches (s : State) (i : Nat) (x : Counter) : (s.setCounter i x).windowMismatches = s.windowMismatches := rfl
@[simp] theorem State.setCounter_auditAt (s : State) (i : Nat) (x : Counter) : (s.setCounter i x).auditAt = s.auditAt := rfl
@[simp] theorem State.setCounter_square (s : State) (i : Nat) (x : Counter) : (s.setCounter i x).square = s.square := rfl
@[simp] theorem State.setCounter_engines (s : State) (i : Nat) (x : Counter) : (s.setCounter i x).engines = s.engines := rfl
@[simp] theorem State.setCounter_timers (s : State) (i : Nat) (x : Counter) : (s.setCounter i x).timers = s.timers := rfl
@[simp] theorem State.setCounter_round (s : State) (i : Nat) (x : Counter) : (s.setCounter i x).round = s.round := rfl
@[simp] theorem State.setCounter_loop (s : State) (i : Nat) (x : Counter) : (s.setCounter i x).loop = s.loop := rfl
@[simp] theorem State.setCounter_ucs (s : State) (i : Nat) (x : Counter) : (s.setCounter i x).ucs = s.ucs := rfl
@[simp] theorem State.setCounter_dis (s : State) (i : Nat) (x : Counter) : (s.setCounter i x).dis = s.dis := rfl
@[simp] theorem State.setCounter_dos (s : State) (i : Nat) (x : Counter) : (s.setCounter i x).dos = s.dos := rfl
@[simp] theorem State.setCounter_diGroups (s : State) (i : Nat) (x : Counter) : (s.setCounter i x).diGroups = s.diGroups := rfl
@[simp] theorem State.setCounter_doGroups (s : State) (i : Nat) (x : Counter) : (s.setCounter i x).doGroups = s.doGroups := rfl
@[simp] theorem State.setCounter_cans (s : State) (i : Nat) (x : Counter) : (s.setCounter i x).cans = s.cans := rfl
@[simp] theorem State.setCounter_fire (s : State) (i : Nat) (x : Counter) : (s.setCounter i x).fire = s.fire := rfl
@[simp] theorem State.setCounter_pair (s : State) (i : Nat) (x : Counter) : (s.setCounter i x).pair = s.pair := rfl
@[simp] theorem State.setCounter_totals (s : State) (i : Nat) (x : Counter) : (s.setCounter i x).totals = s.totals := rfl
@[simp] theorem State.setCounter_locks (s : State) (i : Nat) (x : Counter) : (s.setCounter i x).locks = s.locks := rfl
@[simp] theorem State.setCounter_arrays (s : State) (i : Nat) (x : Counter) : (s.setCounter i x).arrays = s.arrays := rfl
@[simp] theorem State.setCounter_raised (s : State) (i : Nat) (x : Counter) : (s.setCounter i x).raised = s.raised := rfl
@[simp] theorem State.setCounter_upsets (s : State) (i : Nat) (x : Counter) : (s.setCounter i x).upsets = s.upsets := rfl
@[simp] theorem State.setCounter_recQueue (s : State) (i : Nat) (x : Counter) : (s.setCounter i x).recQueue = s.recQueue := rfl
@[simp] theorem State.setCounter_mramChecked (s : State) (i : Nat) (x : Counter) : (s.setCounter i x).mramChecked = s.mramChecked := rfl
@[simp] theorem State.setCounter_panel (s : State) (i : Nat) (x : Counter) : (s.setCounter i x).panel = s.panel := rfl
@[simp] theorem State.setCounter_plate (s : State) (i : Nat) (x : Counter) : (s.setCounter i x).plate = s.plate := rfl
@[simp] theorem State.setCounter_ring (s : State) (i : Nat) (x : Counter) : (s.setCounter i x).ring = s.ring := rfl
@[simp] theorem State.setCounter_power (s : State) (i : Nat) (x : Counter) : (s.setCounter i x).power = s.power := rfl
@[simp] theorem State.modCounter_same (s : State) (i : Nat) (f : Counter → Counter) : (s.modCounter i f).counter i = f (s.counter i) := Tab.get_set_same _ _ _ _
theorem State.modCounter_other (s : State) {i j : Nat} (f : Counter → Counter) (h : j ≠ i) : (s.modCounter i f).counter j = s.counter j := Tab.get_set_other _ _ _ h
@[simp] theorem State.modCounter_pending (s : State) (i : Nat) (f : Counter → Counter) : (s.modCounter i f).pending = s.pending := rfl
@[simp] theorem State.modCounter_now (s : State) (i : Nat) (f : Counter → Counter) : (s.modCounter i f).now = s.now := rfl
@[simp] theorem State.modCounter_freeCount (s : State) (i : Nat) (f : Counter → Counter) : (s.modCounter i f).freeCount = s.freeCount := rfl
@[simp] theorem State.modCounter_service (s : State) (i : Nat) (f : Counter → Counter) : (s.modCounter i f).service = s.service := rfl
@[simp] theorem State.modCounter_mram (s : State) (i : Nat) (f : Counter → Counter) : (s.modCounter i f).mram = s.mram := rfl
@[simp] theorem State.modCounter_sup (s : State) (i : Nat) (f : Counter → Counter) : (s.modCounter i f).sup = s.sup := rfl
@[simp] theorem State.modCounter_islands (s : State) (i : Nat) (f : Counter → Counter) : (s.modCounter i f).islands = s.islands := rfl
@[simp] theorem State.modCounter_faultyInterlock (s : State) (i : Nat) (f : Counter → Counter) : (s.modCounter i f).faultyInterlock = s.faultyInterlock := rfl
@[simp] theorem State.modCounter_domains (s : State) (i : Nat) (f : Counter → Counter) : (s.modCounter i f).domains = s.domains := rfl
@[simp] theorem State.modCounter_crossings (s : State) (i : Nat) (f : Counter → Counter) : (s.modCounter i f).crossings = s.crossings := rfl
@[simp] theorem State.modCounter_rounds (s : State) (i : Nat) (f : Counter → Counter) : (s.modCounter i f).rounds = s.rounds := rfl
@[simp] theorem State.modCounter_nextSend (s : State) (i : Nat) (f : Counter → Counter) : (s.modCounter i f).nextSend = s.nextSend := rfl
@[simp] theorem State.modCounter_mismatches (s : State) (i : Nat) (f : Counter → Counter) : (s.modCounter i f).mismatches = s.mismatches := rfl
@[simp] theorem State.modCounter_windowMismatches (s : State) (i : Nat) (f : Counter → Counter) : (s.modCounter i f).windowMismatches = s.windowMismatches := rfl
@[simp] theorem State.modCounter_auditAt (s : State) (i : Nat) (f : Counter → Counter) : (s.modCounter i f).auditAt = s.auditAt := rfl
@[simp] theorem State.modCounter_square (s : State) (i : Nat) (f : Counter → Counter) : (s.modCounter i f).square = s.square := rfl
@[simp] theorem State.modCounter_engines (s : State) (i : Nat) (f : Counter → Counter) : (s.modCounter i f).engines = s.engines := rfl
@[simp] theorem State.modCounter_timers (s : State) (i : Nat) (f : Counter → Counter) : (s.modCounter i f).timers = s.timers := rfl
@[simp] theorem State.modCounter_round (s : State) (i : Nat) (f : Counter → Counter) : (s.modCounter i f).round = s.round := rfl
@[simp] theorem State.modCounter_loop (s : State) (i : Nat) (f : Counter → Counter) : (s.modCounter i f).loop = s.loop := rfl
@[simp] theorem State.modCounter_ucs (s : State) (i : Nat) (f : Counter → Counter) : (s.modCounter i f).ucs = s.ucs := rfl
@[simp] theorem State.modCounter_dis (s : State) (i : Nat) (f : Counter → Counter) : (s.modCounter i f).dis = s.dis := rfl
@[simp] theorem State.modCounter_dos (s : State) (i : Nat) (f : Counter → Counter) : (s.modCounter i f).dos = s.dos := rfl
@[simp] theorem State.modCounter_diGroups (s : State) (i : Nat) (f : Counter → Counter) : (s.modCounter i f).diGroups = s.diGroups := rfl
@[simp] theorem State.modCounter_doGroups (s : State) (i : Nat) (f : Counter → Counter) : (s.modCounter i f).doGroups = s.doGroups := rfl
@[simp] theorem State.modCounter_cans (s : State) (i : Nat) (f : Counter → Counter) : (s.modCounter i f).cans = s.cans := rfl
@[simp] theorem State.modCounter_fire (s : State) (i : Nat) (f : Counter → Counter) : (s.modCounter i f).fire = s.fire := rfl
@[simp] theorem State.modCounter_pair (s : State) (i : Nat) (f : Counter → Counter) : (s.modCounter i f).pair = s.pair := rfl
@[simp] theorem State.modCounter_totals (s : State) (i : Nat) (f : Counter → Counter) : (s.modCounter i f).totals = s.totals := rfl
@[simp] theorem State.modCounter_locks (s : State) (i : Nat) (f : Counter → Counter) : (s.modCounter i f).locks = s.locks := rfl
@[simp] theorem State.modCounter_arrays (s : State) (i : Nat) (f : Counter → Counter) : (s.modCounter i f).arrays = s.arrays := rfl
@[simp] theorem State.modCounter_raised (s : State) (i : Nat) (f : Counter → Counter) : (s.modCounter i f).raised = s.raised := rfl
@[simp] theorem State.modCounter_upsets (s : State) (i : Nat) (f : Counter → Counter) : (s.modCounter i f).upsets = s.upsets := rfl
@[simp] theorem State.modCounter_recQueue (s : State) (i : Nat) (f : Counter → Counter) : (s.modCounter i f).recQueue = s.recQueue := rfl
@[simp] theorem State.modCounter_mramChecked (s : State) (i : Nat) (f : Counter → Counter) : (s.modCounter i f).mramChecked = s.mramChecked := rfl
@[simp] theorem State.modCounter_panel (s : State) (i : Nat) (f : Counter → Counter) : (s.modCounter i f).panel = s.panel := rfl
@[simp] theorem State.modCounter_plate (s : State) (i : Nat) (f : Counter → Counter) : (s.modCounter i f).plate = s.plate := rfl
@[simp] theorem State.modCounter_ring (s : State) (i : Nat) (f : Counter → Counter) : (s.modCounter i f).ring = s.ring := rfl
@[simp] theorem State.modCounter_power (s : State) (i : Nat) (f : Counter → Counter) : (s.modCounter i f).power = s.power := rfl

/-! ### `setUc` -/

theorem State.modUc_def (s : State) (i : Nat) (f : Uc → Uc) : s.modUc i f = s.setUc i (f (s.uc i)) := rfl
@[simp] theorem State.setUc_same (s : State) (i : Nat) (x : Uc) : (s.setUc i x).uc i = x := Tab.get_set_same _ _ _ _
theorem State.setUc_other (s : State) {i j : Nat} (x : Uc) (h : j ≠ i) : (s.setUc i x).uc j = s.uc j := Tab.get_set_other _ _ _ h
@[simp] theorem State.setUc_pending (s : State) (i : Nat) (x : Uc) : (s.setUc i x).pending = s.pending := rfl
@[simp] theorem State.setUc_now (s : State) (i : Nat) (x : Uc) : (s.setUc i x).now = s.now := rfl
@[simp] theorem State.setUc_freeCount (s : State) (i : Nat) (x : Uc) : (s.setUc i x).freeCount = s.freeCount := rfl
@[simp] theorem State.setUc_service (s : State) (i : Nat) (x : Uc) : (s.setUc i x).service = s.service := rfl
@[simp] theorem State.setUc_mram (s : State) (i : Nat) (x : Uc) : (s.setUc i x).mram = s.mram := rfl
@[simp] theorem State.setUc_sup (s : State) (i : Nat) (x : Uc) : (s.setUc i x).sup = s.sup := rfl
@[simp] theorem State.setUc_islands (s : State) (i : Nat) (x : Uc) : (s.setUc i x).islands = s.islands := rfl
@[simp] theorem State.setUc_faultyInterlock (s : State) (i : Nat) (x : Uc) : (s.setUc i x).faultyInterlock = s.faultyInterlock := rfl
@[simp] theorem State.setUc_domains (s : State) (i : Nat) (x : Uc) : (s.setUc i x).domains = s.domains := rfl
@[simp] theorem State.setUc_crossings (s : State) (i : Nat) (x : Uc) : (s.setUc i x).crossings = s.crossings := rfl
@[simp] theorem State.setUc_rounds (s : State) (i : Nat) (x : Uc) : (s.setUc i x).rounds = s.rounds := rfl
@[simp] theorem State.setUc_nextSend (s : State) (i : Nat) (x : Uc) : (s.setUc i x).nextSend = s.nextSend := rfl
@[simp] theorem State.setUc_mismatches (s : State) (i : Nat) (x : Uc) : (s.setUc i x).mismatches = s.mismatches := rfl
@[simp] theorem State.setUc_windowMismatches (s : State) (i : Nat) (x : Uc) : (s.setUc i x).windowMismatches = s.windowMismatches := rfl
@[simp] theorem State.setUc_auditAt (s : State) (i : Nat) (x : Uc) : (s.setUc i x).auditAt = s.auditAt := rfl
@[simp] theorem State.setUc_square (s : State) (i : Nat) (x : Uc) : (s.setUc i x).square = s.square := rfl
@[simp] theorem State.setUc_engines (s : State) (i : Nat) (x : Uc) : (s.setUc i x).engines = s.engines := rfl
@[simp] theorem State.setUc_timers (s : State) (i : Nat) (x : Uc) : (s.setUc i x).timers = s.timers := rfl
@[simp] theorem State.setUc_counters (s : State) (i : Nat) (x : Uc) : (s.setUc i x).counters = s.counters := rfl
@[simp] theorem State.setUc_round (s : State) (i : Nat) (x : Uc) : (s.setUc i x).round = s.round := rfl
@[simp] theorem State.setUc_loop (s : State) (i : Nat) (x : Uc) : (s.setUc i x).loop = s.loop := rfl
@[simp] theorem State.setUc_dis (s : State) (i : Nat) (x : Uc) : (s.setUc i x).dis = s.dis := rfl
@[simp] theorem State.setUc_dos (s : State) (i : Nat) (x : Uc) : (s.setUc i x).dos = s.dos := rfl
@[simp] theorem State.setUc_diGroups (s : State) (i : Nat) (x : Uc) : (s.setUc i x).diGroups = s.diGroups := rfl
@[simp] theorem State.setUc_doGroups (s : State) (i : Nat) (x : Uc) : (s.setUc i x).doGroups = s.doGroups := rfl
@[simp] theorem State.setUc_cans (s : State) (i : Nat) (x : Uc) : (s.setUc i x).cans = s.cans := rfl
@[simp] theorem State.setUc_fire (s : State) (i : Nat) (x : Uc) : (s.setUc i x).fire = s.fire := rfl
@[simp] theorem State.setUc_pair (s : State) (i : Nat) (x : Uc) : (s.setUc i x).pair = s.pair := rfl
@[simp] theorem State.setUc_totals (s : State) (i : Nat) (x : Uc) : (s.setUc i x).totals = s.totals := rfl
@[simp] theorem State.setUc_locks (s : State) (i : Nat) (x : Uc) : (s.setUc i x).locks = s.locks := rfl
@[simp] theorem State.setUc_arrays (s : State) (i : Nat) (x : Uc) : (s.setUc i x).arrays = s.arrays := rfl
@[simp] theorem State.setUc_raised (s : State) (i : Nat) (x : Uc) : (s.setUc i x).raised = s.raised := rfl
@[simp] theorem State.setUc_upsets (s : State) (i : Nat) (x : Uc) : (s.setUc i x).upsets = s.upsets := rfl
@[simp] theorem State.setUc_recQueue (s : State) (i : Nat) (x : Uc) : (s.setUc i x).recQueue = s.recQueue := rfl
@[simp] theorem State.setUc_mramChecked (s : State) (i : Nat) (x : Uc) : (s.setUc i x).mramChecked = s.mramChecked := rfl
@[simp] theorem State.setUc_panel (s : State) (i : Nat) (x : Uc) : (s.setUc i x).panel = s.panel := rfl
@[simp] theorem State.setUc_plate (s : State) (i : Nat) (x : Uc) : (s.setUc i x).plate = s.plate := rfl
@[simp] theorem State.setUc_ring (s : State) (i : Nat) (x : Uc) : (s.setUc i x).ring = s.ring := rfl
@[simp] theorem State.setUc_power (s : State) (i : Nat) (x : Uc) : (s.setUc i x).power = s.power := rfl
@[simp] theorem State.modUc_same (s : State) (i : Nat) (f : Uc → Uc) : (s.modUc i f).uc i = f (s.uc i) := Tab.get_set_same _ _ _ _
theorem State.modUc_other (s : State) {i j : Nat} (f : Uc → Uc) (h : j ≠ i) : (s.modUc i f).uc j = s.uc j := Tab.get_set_other _ _ _ h
@[simp] theorem State.modUc_pending (s : State) (i : Nat) (f : Uc → Uc) : (s.modUc i f).pending = s.pending := rfl
@[simp] theorem State.modUc_now (s : State) (i : Nat) (f : Uc → Uc) : (s.modUc i f).now = s.now := rfl
@[simp] theorem State.modUc_freeCount (s : State) (i : Nat) (f : Uc → Uc) : (s.modUc i f).freeCount = s.freeCount := rfl
@[simp] theorem State.modUc_service (s : State) (i : Nat) (f : Uc → Uc) : (s.modUc i f).service = s.service := rfl
@[simp] theorem State.modUc_mram (s : State) (i : Nat) (f : Uc → Uc) : (s.modUc i f).mram = s.mram := rfl
@[simp] theorem State.modUc_sup (s : State) (i : Nat) (f : Uc → Uc) : (s.modUc i f).sup = s.sup := rfl
@[simp] theorem State.modUc_islands (s : State) (i : Nat) (f : Uc → Uc) : (s.modUc i f).islands = s.islands := rfl
@[simp] theorem State.modUc_faultyInterlock (s : State) (i : Nat) (f : Uc → Uc) : (s.modUc i f).faultyInterlock = s.faultyInterlock := rfl
@[simp] theorem State.modUc_domains (s : State) (i : Nat) (f : Uc → Uc) : (s.modUc i f).domains = s.domains := rfl
@[simp] theorem State.modUc_crossings (s : State) (i : Nat) (f : Uc → Uc) : (s.modUc i f).crossings = s.crossings := rfl
@[simp] theorem State.modUc_rounds (s : State) (i : Nat) (f : Uc → Uc) : (s.modUc i f).rounds = s.rounds := rfl
@[simp] theorem State.modUc_nextSend (s : State) (i : Nat) (f : Uc → Uc) : (s.modUc i f).nextSend = s.nextSend := rfl
@[simp] theorem State.modUc_mismatches (s : State) (i : Nat) (f : Uc → Uc) : (s.modUc i f).mismatches = s.mismatches := rfl
@[simp] theorem State.modUc_windowMismatches (s : State) (i : Nat) (f : Uc → Uc) : (s.modUc i f).windowMismatches = s.windowMismatches := rfl
@[simp] theorem State.modUc_auditAt (s : State) (i : Nat) (f : Uc → Uc) : (s.modUc i f).auditAt = s.auditAt := rfl
@[simp] theorem State.modUc_square (s : State) (i : Nat) (f : Uc → Uc) : (s.modUc i f).square = s.square := rfl
@[simp] theorem State.modUc_engines (s : State) (i : Nat) (f : Uc → Uc) : (s.modUc i f).engines = s.engines := rfl
@[simp] theorem State.modUc_timers (s : State) (i : Nat) (f : Uc → Uc) : (s.modUc i f).timers = s.timers := rfl
@[simp] theorem State.modUc_counters (s : State) (i : Nat) (f : Uc → Uc) : (s.modUc i f).counters = s.counters := rfl
@[simp] theorem State.modUc_round (s : State) (i : Nat) (f : Uc → Uc) : (s.modUc i f).round = s.round := rfl
@[simp] theorem State.modUc_loop (s : State) (i : Nat) (f : Uc → Uc) : (s.modUc i f).loop = s.loop := rfl
@[simp] theorem State.modUc_dis (s : State) (i : Nat) (f : Uc → Uc) : (s.modUc i f).dis = s.dis := rfl
@[simp] theorem State.modUc_dos (s : State) (i : Nat) (f : Uc → Uc) : (s.modUc i f).dos = s.dos := rfl
@[simp] theorem State.modUc_diGroups (s : State) (i : Nat) (f : Uc → Uc) : (s.modUc i f).diGroups = s.diGroups := rfl
@[simp] theorem State.modUc_doGroups (s : State) (i : Nat) (f : Uc → Uc) : (s.modUc i f).doGroups = s.doGroups := rfl
@[simp] theorem State.modUc_cans (s : State) (i : Nat) (f : Uc → Uc) : (s.modUc i f).cans = s.cans := rfl
@[simp] theorem State.modUc_fire (s : State) (i : Nat) (f : Uc → Uc) : (s.modUc i f).fire = s.fire := rfl
@[simp] theorem State.modUc_pair (s : State) (i : Nat) (f : Uc → Uc) : (s.modUc i f).pair = s.pair := rfl
@[simp] theorem State.modUc_totals (s : State) (i : Nat) (f : Uc → Uc) : (s.modUc i f).totals = s.totals := rfl
@[simp] theorem State.modUc_locks (s : State) (i : Nat) (f : Uc → Uc) : (s.modUc i f).locks = s.locks := rfl
@[simp] theorem State.modUc_arrays (s : State) (i : Nat) (f : Uc → Uc) : (s.modUc i f).arrays = s.arrays := rfl
@[simp] theorem State.modUc_raised (s : State) (i : Nat) (f : Uc → Uc) : (s.modUc i f).raised = s.raised := rfl
@[simp] theorem State.modUc_upsets (s : State) (i : Nat) (f : Uc → Uc) : (s.modUc i f).upsets = s.upsets := rfl
@[simp] theorem State.modUc_recQueue (s : State) (i : Nat) (f : Uc → Uc) : (s.modUc i f).recQueue = s.recQueue := rfl
@[simp] theorem State.modUc_mramChecked (s : State) (i : Nat) (f : Uc → Uc) : (s.modUc i f).mramChecked = s.mramChecked := rfl
@[simp] theorem State.modUc_panel (s : State) (i : Nat) (f : Uc → Uc) : (s.modUc i f).panel = s.panel := rfl
@[simp] theorem State.modUc_plate (s : State) (i : Nat) (f : Uc → Uc) : (s.modUc i f).plate = s.plate := rfl
@[simp] theorem State.modUc_ring (s : State) (i : Nat) (f : Uc → Uc) : (s.modUc i f).ring = s.ring := rfl
@[simp] theorem State.modUc_power (s : State) (i : Nat) (f : Uc → Uc) : (s.modUc i f).power = s.power := rfl

/-! ### `setDi` -/

theorem State.modDi_def (s : State) (i : Nat) (f : Di → Di) : s.modDi i f = s.setDi i (f (s.di i)) := rfl
@[simp] theorem State.setDi_same (s : State) (i : Nat) (x : Di) : (s.setDi i x).di i = x := Tab.get_set_same _ _ _ _
theorem State.setDi_other (s : State) {i j : Nat} (x : Di) (h : j ≠ i) : (s.setDi i x).di j = s.di j := Tab.get_set_other _ _ _ h
@[simp] theorem State.setDi_pending (s : State) (i : Nat) (x : Di) : (s.setDi i x).pending = s.pending := rfl
@[simp] theorem State.setDi_now (s : State) (i : Nat) (x : Di) : (s.setDi i x).now = s.now := rfl
@[simp] theorem State.setDi_freeCount (s : State) (i : Nat) (x : Di) : (s.setDi i x).freeCount = s.freeCount := rfl
@[simp] theorem State.setDi_service (s : State) (i : Nat) (x : Di) : (s.setDi i x).service = s.service := rfl
@[simp] theorem State.setDi_mram (s : State) (i : Nat) (x : Di) : (s.setDi i x).mram = s.mram := rfl
@[simp] theorem State.setDi_sup (s : State) (i : Nat) (x : Di) : (s.setDi i x).sup = s.sup := rfl
@[simp] theorem State.setDi_islands (s : State) (i : Nat) (x : Di) : (s.setDi i x).islands = s.islands := rfl
@[simp] theorem State.setDi_faultyInterlock (s : State) (i : Nat) (x : Di) : (s.setDi i x).faultyInterlock = s.faultyInterlock := rfl
@[simp] theorem State.setDi_domains (s : State) (i : Nat) (x : Di) : (s.setDi i x).domains = s.domains := rfl
@[simp] theorem State.setDi_crossings (s : State) (i : Nat) (x : Di) : (s.setDi i x).crossings = s.crossings := rfl
@[simp] theorem State.setDi_rounds (s : State) (i : Nat) (x : Di) : (s.setDi i x).rounds = s.rounds := rfl
@[simp] theorem State.setDi_nextSend (s : State) (i : Nat) (x : Di) : (s.setDi i x).nextSend = s.nextSend := rfl
@[simp] theorem State.setDi_mismatches (s : State) (i : Nat) (x : Di) : (s.setDi i x).mismatches = s.mismatches := rfl
@[simp] theorem State.setDi_windowMismatches (s : State) (i : Nat) (x : Di) : (s.setDi i x).windowMismatches = s.windowMismatches := rfl
@[simp] theorem State.setDi_auditAt (s : State) (i : Nat) (x : Di) : (s.setDi i x).auditAt = s.auditAt := rfl
@[simp] theorem State.setDi_square (s : State) (i : Nat) (x : Di) : (s.setDi i x).square = s.square := rfl
@[simp] theorem State.setDi_engines (s : State) (i : Nat) (x : Di) : (s.setDi i x).engines = s.engines := rfl
@[simp] theorem State.setDi_timers (s : State) (i : Nat) (x : Di) : (s.setDi i x).timers = s.timers := rfl
@[simp] theorem State.setDi_counters (s : State) (i : Nat) (x : Di) : (s.setDi i x).counters = s.counters := rfl
@[simp] theorem State.setDi_round (s : State) (i : Nat) (x : Di) : (s.setDi i x).round = s.round := rfl
@[simp] theorem State.setDi_loop (s : State) (i : Nat) (x : Di) : (s.setDi i x).loop = s.loop := rfl
@[simp] theorem State.setDi_ucs (s : State) (i : Nat) (x : Di) : (s.setDi i x).ucs = s.ucs := rfl
@[simp] theorem State.setDi_dos (s : State) (i : Nat) (x : Di) : (s.setDi i x).dos = s.dos := rfl
@[simp] theorem State.setDi_diGroups (s : State) (i : Nat) (x : Di) : (s.setDi i x).diGroups = s.diGroups := rfl
@[simp] theorem State.setDi_doGroups (s : State) (i : Nat) (x : Di) : (s.setDi i x).doGroups = s.doGroups := rfl
@[simp] theorem State.setDi_cans (s : State) (i : Nat) (x : Di) : (s.setDi i x).cans = s.cans := rfl
@[simp] theorem State.setDi_fire (s : State) (i : Nat) (x : Di) : (s.setDi i x).fire = s.fire := rfl
@[simp] theorem State.setDi_pair (s : State) (i : Nat) (x : Di) : (s.setDi i x).pair = s.pair := rfl
@[simp] theorem State.setDi_totals (s : State) (i : Nat) (x : Di) : (s.setDi i x).totals = s.totals := rfl
@[simp] theorem State.setDi_locks (s : State) (i : Nat) (x : Di) : (s.setDi i x).locks = s.locks := rfl
@[simp] theorem State.setDi_arrays (s : State) (i : Nat) (x : Di) : (s.setDi i x).arrays = s.arrays := rfl
@[simp] theorem State.setDi_raised (s : State) (i : Nat) (x : Di) : (s.setDi i x).raised = s.raised := rfl
@[simp] theorem State.setDi_upsets (s : State) (i : Nat) (x : Di) : (s.setDi i x).upsets = s.upsets := rfl
@[simp] theorem State.setDi_recQueue (s : State) (i : Nat) (x : Di) : (s.setDi i x).recQueue = s.recQueue := rfl
@[simp] theorem State.setDi_mramChecked (s : State) (i : Nat) (x : Di) : (s.setDi i x).mramChecked = s.mramChecked := rfl
@[simp] theorem State.setDi_panel (s : State) (i : Nat) (x : Di) : (s.setDi i x).panel = s.panel := rfl
@[simp] theorem State.setDi_plate (s : State) (i : Nat) (x : Di) : (s.setDi i x).plate = s.plate := rfl
@[simp] theorem State.setDi_ring (s : State) (i : Nat) (x : Di) : (s.setDi i x).ring = s.ring := rfl
@[simp] theorem State.setDi_power (s : State) (i : Nat) (x : Di) : (s.setDi i x).power = s.power := rfl
@[simp] theorem State.modDi_same (s : State) (i : Nat) (f : Di → Di) : (s.modDi i f).di i = f (s.di i) := Tab.get_set_same _ _ _ _
theorem State.modDi_other (s : State) {i j : Nat} (f : Di → Di) (h : j ≠ i) : (s.modDi i f).di j = s.di j := Tab.get_set_other _ _ _ h
@[simp] theorem State.modDi_pending (s : State) (i : Nat) (f : Di → Di) : (s.modDi i f).pending = s.pending := rfl
@[simp] theorem State.modDi_now (s : State) (i : Nat) (f : Di → Di) : (s.modDi i f).now = s.now := rfl
@[simp] theorem State.modDi_freeCount (s : State) (i : Nat) (f : Di → Di) : (s.modDi i f).freeCount = s.freeCount := rfl
@[simp] theorem State.modDi_service (s : State) (i : Nat) (f : Di → Di) : (s.modDi i f).service = s.service := rfl
@[simp] theorem State.modDi_mram (s : State) (i : Nat) (f : Di → Di) : (s.modDi i f).mram = s.mram := rfl
@[simp] theorem State.modDi_sup (s : State) (i : Nat) (f : Di → Di) : (s.modDi i f).sup = s.sup := rfl
@[simp] theorem State.modDi_islands (s : State) (i : Nat) (f : Di → Di) : (s.modDi i f).islands = s.islands := rfl
@[simp] theorem State.modDi_faultyInterlock (s : State) (i : Nat) (f : Di → Di) : (s.modDi i f).faultyInterlock = s.faultyInterlock := rfl
@[simp] theorem State.modDi_domains (s : State) (i : Nat) (f : Di → Di) : (s.modDi i f).domains = s.domains := rfl
@[simp] theorem State.modDi_crossings (s : State) (i : Nat) (f : Di → Di) : (s.modDi i f).crossings = s.crossings := rfl
@[simp] theorem State.modDi_rounds (s : State) (i : Nat) (f : Di → Di) : (s.modDi i f).rounds = s.rounds := rfl
@[simp] theorem State.modDi_nextSend (s : State) (i : Nat) (f : Di → Di) : (s.modDi i f).nextSend = s.nextSend := rfl
@[simp] theorem State.modDi_mismatches (s : State) (i : Nat) (f : Di → Di) : (s.modDi i f).mismatches = s.mismatches := rfl
@[simp] theorem State.modDi_windowMismatches (s : State) (i : Nat) (f : Di → Di) : (s.modDi i f).windowMismatches = s.windowMismatches := rfl
@[simp] theorem State.modDi_auditAt (s : State) (i : Nat) (f : Di → Di) : (s.modDi i f).auditAt = s.auditAt := rfl
@[simp] theorem State.modDi_square (s : State) (i : Nat) (f : Di → Di) : (s.modDi i f).square = s.square := rfl
@[simp] theorem State.modDi_engines (s : State) (i : Nat) (f : Di → Di) : (s.modDi i f).engines = s.engines := rfl
@[simp] theorem State.modDi_timers (s : State) (i : Nat) (f : Di → Di) : (s.modDi i f).timers = s.timers := rfl
@[simp] theorem State.modDi_counters (s : State) (i : Nat) (f : Di → Di) : (s.modDi i f).counters = s.counters := rfl
@[simp] theorem State.modDi_round (s : State) (i : Nat) (f : Di → Di) : (s.modDi i f).round = s.round := rfl
@[simp] theorem State.modDi_loop (s : State) (i : Nat) (f : Di → Di) : (s.modDi i f).loop = s.loop := rfl
@[simp] theorem State.modDi_ucs (s : State) (i : Nat) (f : Di → Di) : (s.modDi i f).ucs = s.ucs := rfl
@[simp] theorem State.modDi_dos (s : State) (i : Nat) (f : Di → Di) : (s.modDi i f).dos = s.dos := rfl
@[simp] theorem State.modDi_diGroups (s : State) (i : Nat) (f : Di → Di) : (s.modDi i f).diGroups = s.diGroups := rfl
@[simp] theorem State.modDi_doGroups (s : State) (i : Nat) (f : Di → Di) : (s.modDi i f).doGroups = s.doGroups := rfl
@[simp] theorem State.modDi_cans (s : State) (i : Nat) (f : Di → Di) : (s.modDi i f).cans = s.cans := rfl
@[simp] theorem State.modDi_fire (s : State) (i : Nat) (f : Di → Di) : (s.modDi i f).fire = s.fire := rfl
@[simp] theorem State.modDi_pair (s : State) (i : Nat) (f : Di → Di) : (s.modDi i f).pair = s.pair := rfl
@[simp] theorem State.modDi_totals (s : State) (i : Nat) (f : Di → Di) : (s.modDi i f).totals = s.totals := rfl
@[simp] theorem State.modDi_locks (s : State) (i : Nat) (f : Di → Di) : (s.modDi i f).locks = s.locks := rfl
@[simp] theorem State.modDi_arrays (s : State) (i : Nat) (f : Di → Di) : (s.modDi i f).arrays = s.arrays := rfl
@[simp] theorem State.modDi_raised (s : State) (i : Nat) (f : Di → Di) : (s.modDi i f).raised = s.raised := rfl
@[simp] theorem State.modDi_upsets (s : State) (i : Nat) (f : Di → Di) : (s.modDi i f).upsets = s.upsets := rfl
@[simp] theorem State.modDi_recQueue (s : State) (i : Nat) (f : Di → Di) : (s.modDi i f).recQueue = s.recQueue := rfl
@[simp] theorem State.modDi_mramChecked (s : State) (i : Nat) (f : Di → Di) : (s.modDi i f).mramChecked = s.mramChecked := rfl
@[simp] theorem State.modDi_panel (s : State) (i : Nat) (f : Di → Di) : (s.modDi i f).panel = s.panel := rfl
@[simp] theorem State.modDi_plate (s : State) (i : Nat) (f : Di → Di) : (s.modDi i f).plate = s.plate := rfl
@[simp] theorem State.modDi_ring (s : State) (i : Nat) (f : Di → Di) : (s.modDi i f).ring = s.ring := rfl
@[simp] theorem State.modDi_power (s : State) (i : Nat) (f : Di → Di) : (s.modDi i f).power = s.power := rfl

/-! ### `setDo` -/

theorem State.modDo_def (s : State) (i : Nat) (f : Do → Do) : s.modDo i f = s.setDo i (f (s.do_ i)) := rfl
@[simp] theorem State.setDo_same (s : State) (i : Nat) (x : Do) : (s.setDo i x).do_ i = x := Tab.get_set_same _ _ _ _
theorem State.setDo_other (s : State) {i j : Nat} (x : Do) (h : j ≠ i) : (s.setDo i x).do_ j = s.do_ j := Tab.get_set_other _ _ _ h
@[simp] theorem State.setDo_pending (s : State) (i : Nat) (x : Do) : (s.setDo i x).pending = s.pending := rfl
@[simp] theorem State.setDo_now (s : State) (i : Nat) (x : Do) : (s.setDo i x).now = s.now := rfl
@[simp] theorem State.setDo_freeCount (s : State) (i : Nat) (x : Do) : (s.setDo i x).freeCount = s.freeCount := rfl
@[simp] theorem State.setDo_service (s : State) (i : Nat) (x : Do) : (s.setDo i x).service = s.service := rfl
@[simp] theorem State.setDo_mram (s : State) (i : Nat) (x : Do) : (s.setDo i x).mram = s.mram := rfl
@[simp] theorem State.setDo_sup (s : State) (i : Nat) (x : Do) : (s.setDo i x).sup = s.sup := rfl
@[simp] theorem State.setDo_islands (s : State) (i : Nat) (x : Do) : (s.setDo i x).islands = s.islands := rfl
@[simp] theorem State.setDo_faultyInterlock (s : State) (i : Nat) (x : Do) : (s.setDo i x).faultyInterlock = s.faultyInterlock := rfl
@[simp] theorem State.setDo_domains (s : State) (i : Nat) (x : Do) : (s.setDo i x).domains = s.domains := rfl
@[simp] theorem State.setDo_crossings (s : State) (i : Nat) (x : Do) : (s.setDo i x).crossings = s.crossings := rfl
@[simp] theorem State.setDo_rounds (s : State) (i : Nat) (x : Do) : (s.setDo i x).rounds = s.rounds := rfl
@[simp] theorem State.setDo_nextSend (s : State) (i : Nat) (x : Do) : (s.setDo i x).nextSend = s.nextSend := rfl
@[simp] theorem State.setDo_mismatches (s : State) (i : Nat) (x : Do) : (s.setDo i x).mismatches = s.mismatches := rfl
@[simp] theorem State.setDo_windowMismatches (s : State) (i : Nat) (x : Do) : (s.setDo i x).windowMismatches = s.windowMismatches := rfl
@[simp] theorem State.setDo_auditAt (s : State) (i : Nat) (x : Do) : (s.setDo i x).auditAt = s.auditAt := rfl
@[simp] theorem State.setDo_square (s : State) (i : Nat) (x : Do) : (s.setDo i x).square = s.square := rfl
@[simp] theorem State.setDo_engines (s : State) (i : Nat) (x : Do) : (s.setDo i x).engines = s.engines := rfl
@[simp] theorem State.setDo_timers (s : State) (i : Nat) (x : Do) : (s.setDo i x).timers = s.timers := rfl
@[simp] theorem State.setDo_counters (s : State) (i : Nat) (x : Do) : (s.setDo i x).counters = s.counters := rfl
@[simp] theorem State.setDo_round (s : State) (i : Nat) (x : Do) : (s.setDo i x).round = s.round := rfl
@[simp] theorem State.setDo_loop (s : State) (i : Nat) (x : Do) : (s.setDo i x).loop = s.loop := rfl
@[simp] theorem State.setDo_ucs (s : State) (i : Nat) (x : Do) : (s.setDo i x).ucs = s.ucs := rfl
@[simp] theorem State.setDo_dis (s : State) (i : Nat) (x : Do) : (s.setDo i x).dis = s.dis := rfl
@[simp] theorem State.setDo_diGroups (s : State) (i : Nat) (x : Do) : (s.setDo i x).diGroups = s.diGroups := rfl
@[simp] theorem State.setDo_doGroups (s : State) (i : Nat) (x : Do) : (s.setDo i x).doGroups = s.doGroups := rfl
@[simp] theorem State.setDo_cans (s : State) (i : Nat) (x : Do) : (s.setDo i x).cans = s.cans := rfl
@[simp] theorem State.setDo_fire (s : State) (i : Nat) (x : Do) : (s.setDo i x).fire = s.fire := rfl
@[simp] theorem State.setDo_pair (s : State) (i : Nat) (x : Do) : (s.setDo i x).pair = s.pair := rfl
@[simp] theorem State.setDo_totals (s : State) (i : Nat) (x : Do) : (s.setDo i x).totals = s.totals := rfl
@[simp] theorem State.setDo_locks (s : State) (i : Nat) (x : Do) : (s.setDo i x).locks = s.locks := rfl
@[simp] theorem State.setDo_arrays (s : State) (i : Nat) (x : Do) : (s.setDo i x).arrays = s.arrays := rfl
@[simp] theorem State.setDo_raised (s : State) (i : Nat) (x : Do) : (s.setDo i x).raised = s.raised := rfl
@[simp] theorem State.setDo_upsets (s : State) (i : Nat) (x : Do) : (s.setDo i x).upsets = s.upsets := rfl
@[simp] theorem State.setDo_recQueue (s : State) (i : Nat) (x : Do) : (s.setDo i x).recQueue = s.recQueue := rfl
@[simp] theorem State.setDo_mramChecked (s : State) (i : Nat) (x : Do) : (s.setDo i x).mramChecked = s.mramChecked := rfl
@[simp] theorem State.setDo_panel (s : State) (i : Nat) (x : Do) : (s.setDo i x).panel = s.panel := rfl
@[simp] theorem State.setDo_plate (s : State) (i : Nat) (x : Do) : (s.setDo i x).plate = s.plate := rfl
@[simp] theorem State.setDo_ring (s : State) (i : Nat) (x : Do) : (s.setDo i x).ring = s.ring := rfl
@[simp] theorem State.setDo_power (s : State) (i : Nat) (x : Do) : (s.setDo i x).power = s.power := rfl
@[simp] theorem State.modDo_same (s : State) (i : Nat) (f : Do → Do) : (s.modDo i f).do_ i = f (s.do_ i) := Tab.get_set_same _ _ _ _
theorem State.modDo_other (s : State) {i j : Nat} (f : Do → Do) (h : j ≠ i) : (s.modDo i f).do_ j = s.do_ j := Tab.get_set_other _ _ _ h
@[simp] theorem State.modDo_pending (s : State) (i : Nat) (f : Do → Do) : (s.modDo i f).pending = s.pending := rfl
@[simp] theorem State.modDo_now (s : State) (i : Nat) (f : Do → Do) : (s.modDo i f).now = s.now := rfl
@[simp] theorem State.modDo_freeCount (s : State) (i : Nat) (f : Do → Do) : (s.modDo i f).freeCount = s.freeCount := rfl
@[simp] theorem State.modDo_service (s : State) (i : Nat) (f : Do → Do) : (s.modDo i f).service = s.service := rfl
@[simp] theorem State.modDo_mram (s : State) (i : Nat) (f : Do → Do) : (s.modDo i f).mram = s.mram := rfl
@[simp] theorem State.modDo_sup (s : State) (i : Nat) (f : Do → Do) : (s.modDo i f).sup = s.sup := rfl
@[simp] theorem State.modDo_islands (s : State) (i : Nat) (f : Do → Do) : (s.modDo i f).islands = s.islands := rfl
@[simp] theorem State.modDo_faultyInterlock (s : State) (i : Nat) (f : Do → Do) : (s.modDo i f).faultyInterlock = s.faultyInterlock := rfl
@[simp] theorem State.modDo_domains (s : State) (i : Nat) (f : Do → Do) : (s.modDo i f).domains = s.domains := rfl
@[simp] theorem State.modDo_crossings (s : State) (i : Nat) (f : Do → Do) : (s.modDo i f).crossings = s.crossings := rfl
@[simp] theorem State.modDo_rounds (s : State) (i : Nat) (f : Do → Do) : (s.modDo i f).rounds = s.rounds := rfl
@[simp] theorem State.modDo_nextSend (s : State) (i : Nat) (f : Do → Do) : (s.modDo i f).nextSend = s.nextSend := rfl
@[simp] theorem State.modDo_mismatches (s : State) (i : Nat) (f : Do → Do) : (s.modDo i f).mismatches = s.mismatches := rfl
@[simp] theorem State.modDo_windowMismatches (s : State) (i : Nat) (f : Do → Do) : (s.modDo i f).windowMismatches = s.windowMismatches := rfl
@[simp] theorem State.modDo_auditAt (s : State) (i : Nat) (f : Do → Do) : (s.modDo i f).auditAt = s.auditAt := rfl
@[simp] theorem State.modDo_square (s : State) (i : Nat) (f : Do → Do) : (s.modDo i f).square = s.square := rfl
@[simp] theorem State.modDo_engines (s : State) (i : Nat) (f : Do → Do) : (s.modDo i f).engines = s.engines := rfl
@[simp] theorem State.modDo_timers (s : State) (i : Nat) (f : Do → Do) : (s.modDo i f).timers = s.timers := rfl
@[simp] theorem State.modDo_counters (s : State) (i : Nat) (f : Do → Do) : (s.modDo i f).counters = s.counters := rfl
@[simp] theorem State.modDo_round (s : State) (i : Nat) (f : Do → Do) : (s.modDo i f).round = s.round := rfl
@[simp] theorem State.modDo_loop (s : State) (i : Nat) (f : Do → Do) : (s.modDo i f).loop = s.loop := rfl
@[simp] theorem State.modDo_ucs (s : State) (i : Nat) (f : Do → Do) : (s.modDo i f).ucs = s.ucs := rfl
@[simp] theorem State.modDo_dis (s : State) (i : Nat) (f : Do → Do) : (s.modDo i f).dis = s.dis := rfl
@[simp] theorem State.modDo_diGroups (s : State) (i : Nat) (f : Do → Do) : (s.modDo i f).diGroups = s.diGroups := rfl
@[simp] theorem State.modDo_doGroups (s : State) (i : Nat) (f : Do → Do) : (s.modDo i f).doGroups = s.doGroups := rfl
@[simp] theorem State.modDo_cans (s : State) (i : Nat) (f : Do → Do) : (s.modDo i f).cans = s.cans := rfl
@[simp] theorem State.modDo_fire (s : State) (i : Nat) (f : Do → Do) : (s.modDo i f).fire = s.fire := rfl
@[simp] theorem State.modDo_pair (s : State) (i : Nat) (f : Do → Do) : (s.modDo i f).pair = s.pair := rfl
@[simp] theorem State.modDo_totals (s : State) (i : Nat) (f : Do → Do) : (s.modDo i f).totals = s.totals := rfl
@[simp] theorem State.modDo_locks (s : State) (i : Nat) (f : Do → Do) : (s.modDo i f).locks = s.locks := rfl
@[simp] theorem State.modDo_arrays (s : State) (i : Nat) (f : Do → Do) : (s.modDo i f).arrays = s.arrays := rfl
@[simp] theorem State.modDo_raised (s : State) (i : Nat) (f : Do → Do) : (s.modDo i f).raised = s.raised := rfl
@[simp] theorem State.modDo_upsets (s : State) (i : Nat) (f : Do → Do) : (s.modDo i f).upsets = s.upsets := rfl
@[simp] theorem State.modDo_recQueue (s : State) (i : Nat) (f : Do → Do) : (s.modDo i f).recQueue = s.recQueue := rfl
@[simp] theorem State.modDo_mramChecked (s : State) (i : Nat) (f : Do → Do) : (s.modDo i f).mramChecked = s.mramChecked := rfl
@[simp] theorem State.modDo_panel (s : State) (i : Nat) (f : Do → Do) : (s.modDo i f).panel = s.panel := rfl
@[simp] theorem State.modDo_plate (s : State) (i : Nat) (f : Do → Do) : (s.modDo i f).plate = s.plate := rfl
@[simp] theorem State.modDo_ring (s : State) (i : Nat) (f : Do → Do) : (s.modDo i f).ring = s.ring := rfl
@[simp] theorem State.modDo_power (s : State) (i : Nat) (f : Do → Do) : (s.modDo i f).power = s.power := rfl

/-! ### `setDiGroup` -/

theorem State.modDiGroup_def (s : State) (i : Nat) (f : DGroup → DGroup) : s.modDiGroup i f = s.setDiGroup i (f (s.diGroup i)) := rfl
@[simp] theorem State.setDiGroup_same (s : State) (i : Nat) (x : DGroup) : (s.setDiGroup i x).diGroup i = x := Tab.get_set_same _ _ _ _
theorem State.setDiGroup_other (s : State) {i j : Nat} (x : DGroup) (h : j ≠ i) : (s.setDiGroup i x).diGroup j = s.diGroup j := Tab.get_set_other _ _ _ h
@[simp] theorem State.setDiGroup_pending (s : State) (i : Nat) (x : DGroup) : (s.setDiGroup i x).pending = s.pending := rfl
@[simp] theorem State.setDiGroup_now (s : State) (i : Nat) (x : DGroup) : (s.setDiGroup i x).now = s.now := rfl
@[simp] theorem State.setDiGroup_freeCount (s : State) (i : Nat) (x : DGroup) : (s.setDiGroup i x).freeCount = s.freeCount := rfl
@[simp] theorem State.setDiGroup_service (s : State) (i : Nat) (x : DGroup) : (s.setDiGroup i x).service = s.service := rfl
@[simp] theorem State.setDiGroup_mram (s : State) (i : Nat) (x : DGroup) : (s.setDiGroup i x).mram = s.mram := rfl
@[simp] theorem State.setDiGroup_sup (s : State) (i : Nat) (x : DGroup) : (s.setDiGroup i x).sup = s.sup := rfl
@[simp] theorem State.setDiGroup_islands (s : State) (i : Nat) (x : DGroup) : (s.setDiGroup i x).islands = s.islands := rfl
@[simp] theorem State.setDiGroup_faultyInterlock (s : State) (i : Nat) (x : DGroup) : (s.setDiGroup i x).faultyInterlock = s.faultyInterlock := rfl
@[simp] theorem State.setDiGroup_domains (s : State) (i : Nat) (x : DGroup) : (s.setDiGroup i x).domains = s.domains := rfl
@[simp] theorem State.setDiGroup_crossings (s : State) (i : Nat) (x : DGroup) : (s.setDiGroup i x).crossings = s.crossings := rfl
@[simp] theorem State.setDiGroup_rounds (s : State) (i : Nat) (x : DGroup) : (s.setDiGroup i x).rounds = s.rounds := rfl
@[simp] theorem State.setDiGroup_nextSend (s : State) (i : Nat) (x : DGroup) : (s.setDiGroup i x).nextSend = s.nextSend := rfl
@[simp] theorem State.setDiGroup_mismatches (s : State) (i : Nat) (x : DGroup) : (s.setDiGroup i x).mismatches = s.mismatches := rfl
@[simp] theorem State.setDiGroup_windowMismatches (s : State) (i : Nat) (x : DGroup) : (s.setDiGroup i x).windowMismatches = s.windowMismatches := rfl
@[simp] theorem State.setDiGroup_auditAt (s : State) (i : Nat) (x : DGroup) : (s.setDiGroup i x).auditAt = s.auditAt := rfl
@[simp] theorem State.setDiGroup_square (s : State) (i : Nat) (x : DGroup) : (s.setDiGroup i x).square = s.square := rfl
@[simp] theorem State.setDiGroup_engines (s : State) (i : Nat) (x : DGroup) : (s.setDiGroup i x).engines = s.engines := rfl
@[simp] theorem State.setDiGroup_timers (s : State) (i : Nat) (x : DGroup) : (s.setDiGroup i x).timers = s.timers := rfl
@[simp] theorem State.setDiGroup_counters (s : State) (i : Nat) (x : DGroup) : (s.setDiGroup i x).counters = s.counters := rfl
@[simp] theorem State.setDiGroup_round (s : State) (i : Nat) (x : DGroup) : (s.setDiGroup i x).round = s.round := rfl
@[simp] theorem State.setDiGroup_loop (s : State) (i : Nat) (x : DGroup) : (s.setDiGroup i x).loop = s.loop := rfl
@[simp] theorem State.setDiGroup_ucs (s : State) (i : Nat) (x : DGroup) : (s.setDiGroup i x).ucs = s.ucs := rfl
@[simp] theorem State.setDiGroup_dis (s : State) (i : Nat) (x : DGroup) : (s.setDiGroup i x).dis = s.dis := rfl
@[simp] theorem State.setDiGroup_dos (s : State) (i : Nat) (x : DGroup) : (s.setDiGroup i x).dos = s.dos := rfl
@[simp] theorem State.setDiGroup_doGroups (s : State) (i : Nat) (x : DGroup) : (s.setDiGroup i x).doGroups = s.doGroups := rfl
@[simp] theorem State.setDiGroup_cans (s : State) (i : Nat) (x : DGroup) : (s.setDiGroup i x).cans = s.cans := rfl
@[simp] theorem State.setDiGroup_fire (s : State) (i : Nat) (x : DGroup) : (s.setDiGroup i x).fire = s.fire := rfl
@[simp] theorem State.setDiGroup_pair (s : State) (i : Nat) (x : DGroup) : (s.setDiGroup i x).pair = s.pair := rfl
@[simp] theorem State.setDiGroup_totals (s : State) (i : Nat) (x : DGroup) : (s.setDiGroup i x).totals = s.totals := rfl
@[simp] theorem State.setDiGroup_locks (s : State) (i : Nat) (x : DGroup) : (s.setDiGroup i x).locks = s.locks := rfl
@[simp] theorem State.setDiGroup_arrays (s : State) (i : Nat) (x : DGroup) : (s.setDiGroup i x).arrays = s.arrays := rfl
@[simp] theorem State.setDiGroup_raised (s : State) (i : Nat) (x : DGroup) : (s.setDiGroup i x).raised = s.raised := rfl
@[simp] theorem State.setDiGroup_upsets (s : State) (i : Nat) (x : DGroup) : (s.setDiGroup i x).upsets = s.upsets := rfl
@[simp] theorem State.setDiGroup_recQueue (s : State) (i : Nat) (x : DGroup) : (s.setDiGroup i x).recQueue = s.recQueue := rfl
@[simp] theorem State.setDiGroup_mramChecked (s : State) (i : Nat) (x : DGroup) : (s.setDiGroup i x).mramChecked = s.mramChecked := rfl
@[simp] theorem State.setDiGroup_panel (s : State) (i : Nat) (x : DGroup) : (s.setDiGroup i x).panel = s.panel := rfl
@[simp] theorem State.setDiGroup_plate (s : State) (i : Nat) (x : DGroup) : (s.setDiGroup i x).plate = s.plate := rfl
@[simp] theorem State.setDiGroup_ring (s : State) (i : Nat) (x : DGroup) : (s.setDiGroup i x).ring = s.ring := rfl
@[simp] theorem State.setDiGroup_power (s : State) (i : Nat) (x : DGroup) : (s.setDiGroup i x).power = s.power := rfl
@[simp] theorem State.modDiGroup_same (s : State) (i : Nat) (f : DGroup → DGroup) : (s.modDiGroup i f).diGroup i = f (s.diGroup i) := Tab.get_set_same _ _ _ _
theorem State.modDiGroup_other (s : State) {i j : Nat} (f : DGroup → DGroup) (h : j ≠ i) : (s.modDiGroup i f).diGroup j = s.diGroup j := Tab.get_set_other _ _ _ h
@[simp] theorem State.modDiGroup_pending (s : State) (i : Nat) (f : DGroup → DGroup) : (s.modDiGroup i f).pending = s.pending := rfl
@[simp] theorem State.modDiGroup_now (s : State) (i : Nat) (f : DGroup → DGroup) : (s.modDiGroup i f).now = s.now := rfl
@[simp] theorem State.modDiGroup_freeCount (s : State) (i : Nat) (f : DGroup → DGroup) : (s.modDiGroup i f).freeCount = s.freeCount := rfl
@[simp] theorem State.modDiGroup_service (s : State) (i : Nat) (f : DGroup → DGroup) : (s.modDiGroup i f).service = s.service := rfl
@[simp] theorem State.modDiGroup_mram (s : State) (i : Nat) (f : DGroup → DGroup) : (s.modDiGroup i f).mram = s.mram := rfl
@[simp] theorem State.modDiGroup_sup (s : State) (i : Nat) (f : DGroup → DGroup) : (s.modDiGroup i f).sup = s.sup := rfl
@[simp] theorem State.modDiGroup_islands (s : State) (i : Nat) (f : DGroup → DGroup) : (s.modDiGroup i f).islands = s.islands := rfl
@[simp] theorem State.modDiGroup_faultyInterlock (s : State) (i : Nat) (f : DGroup → DGroup) : (s.modDiGroup i f).faultyInterlock = s.faultyInterlock := rfl
@[simp] theorem State.modDiGroup_domains (s : State) (i : Nat) (f : DGroup → DGroup) : (s.modDiGroup i f).domains = s.domains := rfl
@[simp] theorem State.modDiGroup_crossings (s : State) (i : Nat) (f : DGroup → DGroup) : (s.modDiGroup i f).crossings = s.crossings := rfl
@[simp] theorem State.modDiGroup_rounds (s : State) (i : Nat) (f : DGroup → DGroup) : (s.modDiGroup i f).rounds = s.rounds := rfl
@[simp] theorem State.modDiGroup_nextSend (s : State) (i : Nat) (f : DGroup → DGroup) : (s.modDiGroup i f).nextSend = s.nextSend := rfl
@[simp] theorem State.modDiGroup_mismatches (s : State) (i : Nat) (f : DGroup → DGroup) : (s.modDiGroup i f).mismatches = s.mismatches := rfl
@[simp] theorem State.modDiGroup_windowMismatches (s : State) (i : Nat) (f : DGroup → DGroup) : (s.modDiGroup i f).windowMismatches = s.windowMismatches := rfl
@[simp] theorem State.modDiGroup_auditAt (s : State) (i : Nat) (f : DGroup → DGroup) : (s.modDiGroup i f).auditAt = s.auditAt := rfl
@[simp] theorem State.modDiGroup_square (s : State) (i : Nat) (f : DGroup → DGroup) : (s.modDiGroup i f).square = s.square := rfl
@[simp] theorem State.modDiGroup_engines (s : State) (i : Nat) (f : DGroup → DGroup) : (s.modDiGroup i f).engines = s.engines := rfl
@[simp] theorem State.modDiGroup_timers (s : State) (i : Nat) (f : DGroup → DGroup) : (s.modDiGroup i f).timers = s.timers := rfl
@[simp] theorem State.modDiGroup_counters (s : State) (i : Nat) (f : DGroup → DGroup) : (s.modDiGroup i f).counters = s.counters := rfl
@[simp] theorem State.modDiGroup_round (s : State) (i : Nat) (f : DGroup → DGroup) : (s.modDiGroup i f).round = s.round := rfl
@[simp] theorem State.modDiGroup_loop (s : State) (i : Nat) (f : DGroup → DGroup) : (s.modDiGroup i f).loop = s.loop := rfl
@[simp] theorem State.modDiGroup_ucs (s : State) (i : Nat) (f : DGroup → DGroup) : (s.modDiGroup i f).ucs = s.ucs := rfl
@[simp] theorem State.modDiGroup_dis (s : State) (i : Nat) (f : DGroup → DGroup) : (s.modDiGroup i f).dis = s.dis := rfl
@[simp] theorem State.modDiGroup_dos (s : State) (i : Nat) (f : DGroup → DGroup) : (s.modDiGroup i f).dos = s.dos := rfl
@[simp] theorem State.modDiGroup_doGroups (s : State) (i : Nat) (f : DGroup → DGroup) : (s.modDiGroup i f).doGroups = s.doGroups := rfl
@[simp] theorem State.modDiGroup_cans (s : State) (i : Nat) (f : DGroup → DGroup) : (s.modDiGroup i f).cans = s.cans := rfl
@[simp] theorem State.modDiGroup_fire (s : State) (i : Nat) (f : DGroup → DGroup) : (s.modDiGroup i f).fire = s.fire := rfl
@[simp] theorem State.modDiGroup_pair (s : State) (i : Nat) (f : DGroup → DGroup) : (s.modDiGroup i f).pair = s.pair := rfl
@[simp] theorem State.modDiGroup_totals (s : State) (i : Nat) (f : DGroup → DGroup) : (s.modDiGroup i f).totals = s.totals := rfl
@[simp] theorem State.modDiGroup_locks (s : State) (i : Nat) (f : DGroup → DGroup) : (s.modDiGroup i f).locks = s.locks := rfl
@[simp] theorem State.modDiGroup_arrays (s : State) (i : Nat) (f : DGroup → DGroup) : (s.modDiGroup i f).arrays = s.arrays := rfl
@[simp] theorem State.modDiGroup_raised (s : State) (i : Nat) (f : DGroup → DGroup) : (s.modDiGroup i f).raised = s.raised := rfl
@[simp] theorem State.modDiGroup_upsets (s : State) (i : Nat) (f : DGroup → DGroup) : (s.modDiGroup i f).upsets = s.upsets := rfl
@[simp] theorem State.modDiGroup_recQueue (s : State) (i : Nat) (f : DGroup → DGroup) : (s.modDiGroup i f).recQueue = s.recQueue := rfl
@[simp] theorem State.modDiGroup_mramChecked (s : State) (i : Nat) (f : DGroup → DGroup) : (s.modDiGroup i f).mramChecked = s.mramChecked := rfl
@[simp] theorem State.modDiGroup_panel (s : State) (i : Nat) (f : DGroup → DGroup) : (s.modDiGroup i f).panel = s.panel := rfl
@[simp] theorem State.modDiGroup_plate (s : State) (i : Nat) (f : DGroup → DGroup) : (s.modDiGroup i f).plate = s.plate := rfl
@[simp] theorem State.modDiGroup_ring (s : State) (i : Nat) (f : DGroup → DGroup) : (s.modDiGroup i f).ring = s.ring := rfl
@[simp] theorem State.modDiGroup_power (s : State) (i : Nat) (f : DGroup → DGroup) : (s.modDiGroup i f).power = s.power := rfl

/-! ### `setDoGroup` -/

theorem State.modDoGroup_def (s : State) (i : Nat) (f : DGroup → DGroup) : s.modDoGroup i f = s.setDoGroup i (f (s.doGroup i)) := rfl
@[simp] theorem State.setDoGroup_same (s : State) (i : Nat) (x : DGroup) : (s.setDoGroup i x).doGroup i = x := Tab.get_set_same _ _ _ _
theorem State.setDoGroup_other (s : State) {i j : Nat} (x : DGroup) (h : j ≠ i) : (s.setDoGroup i x).doGroup j = s.doGroup j := Tab.get_set_other _ _ _ h
@[simp] theorem State.setDoGroup_pending (s : State) (i : Nat) (x : DGroup) : (s.setDoGroup i x).pending = s.pending := rfl
@[simp] theorem State.setDoGroup_now (s : State) (i : Nat) (x : DGroup) : (s.setDoGroup i x).now = s.now := rfl
@[simp] theorem State.setDoGroup_freeCount (s : State) (i : Nat) (x : DGroup) : (s.setDoGroup i x).freeCount = s.freeCount := rfl
@[simp] theorem State.setDoGroup_service (s : State) (i : Nat) (x : DGroup) : (s.setDoGroup i x).service = s.service := rfl
@[simp] theorem State.setDoGroup_mram (s : State) (i : Nat) (x : DGroup) : (s.setDoGroup i x).mram = s.mram := rfl
@[simp] theorem State.setDoGroup_sup (s : State) (i : Nat) (x : DGroup) : (s.setDoGroup i x).sup = s.sup := rfl
@[simp] theorem State.setDoGroup_islands (s : State) (i : Nat) (x : DGroup) : (s.setDoGroup i x).islands = s.islands := rfl
@[simp] theorem State.setDoGroup_faultyInterlock (s : State) (i : Nat) (x : DGroup) : (s.setDoGroup i x).faultyInterlock = s.faultyInterlock := rfl
@[simp] theorem State.setDoGroup_domains (s : State) (i : Nat) (x : DGroup) : (s.setDoGroup i x).domains = s.domains := rfl
@[simp] theorem State.setDoGroup_crossings (s : State) (i : Nat) (x : DGroup) : (s.setDoGroup i x).crossings = s.crossings := rfl
@[simp] theorem State.setDoGroup_rounds (s : State) (i : Nat) (x : DGroup) : (s.setDoGroup i x).rounds = s.rounds := rfl
@[simp] theorem State.setDoGroup_nextSend (s : State) (i : Nat) (x : DGroup) : (s.setDoGroup i x).nextSend = s.nextSend := rfl
@[simp] theorem State.setDoGroup_mismatches (s : State) (i : Nat) (x : DGroup) : (s.setDoGroup i x).mismatches = s.mismatches := rfl
@[simp] theorem State.setDoGroup_windowMismatches (s : State) (i : Nat) (x : DGroup) : (s.setDoGroup i x).windowMismatches = s.windowMismatches := rfl
@[simp] theorem State.setDoGroup_auditAt (s : State) (i : Nat) (x : DGroup) : (s.setDoGroup i x).auditAt = s.auditAt := rfl
@[simp] theorem State.setDoGroup_square (s : State) (i : Nat) (x : DGroup) : (s.setDoGroup i x).square = s.square := rfl
@[simp] theorem State.setDoGroup_engines (s : State) (i : Nat) (x : DGroup) : (s.setDoGroup i x).engines = s.engines := rfl
@[simp] theorem State.setDoGroup_timers (s : State) (i : Nat) (x : DGroup) : (s.setDoGroup i x).timers = s.timers := rfl
@[simp] theorem State.setDoGroup_counters (s : State) (i : Nat) (x : DGroup) : (s.setDoGroup i x).counters = s.counters := rfl
@[simp] theorem State.setDoGroup_round (s : State) (i : Nat) (x : DGroup) : (s.setDoGroup i x).round = s.round := rfl
@[simp] theorem State.setDoGroup_loop (s : State) (i : Nat) (x : DGroup) : (s.setDoGroup i x).loop = s.loop := rfl
@[simp] theorem State.setDoGroup_ucs (s : State) (i : Nat) (x : DGroup) : (s.setDoGroup i x).ucs = s.ucs := rfl
@[simp] theorem State.setDoGroup_dis (s : State) (i : Nat) (x : DGroup) : (s.setDoGroup i x).dis = s.dis := rfl
@[simp] theorem State.setDoGroup_dos (s : State) (i : Nat) (x : DGroup) : (s.setDoGroup i x).dos = s.dos := rfl
@[simp] theorem State.setDoGroup_diGroups (s : State) (i : Nat) (x : DGroup) : (s.setDoGroup i x).diGroups = s.diGroups := rfl
@[simp] theorem State.setDoGroup_cans (s : State) (i : Nat) (x : DGroup) : (s.setDoGroup i x).cans = s.cans := rfl
@[simp] theorem State.setDoGroup_fire (s : State) (i : Nat) (x : DGroup) : (s.setDoGroup i x).fire = s.fire := rfl
@[simp] theorem State.setDoGroup_pair (s : State) (i : Nat) (x : DGroup) : (s.setDoGroup i x).pair = s.pair := rfl
@[simp] theorem State.setDoGroup_totals (s : State) (i : Nat) (x : DGroup) : (s.setDoGroup i x).totals = s.totals := rfl
@[simp] theorem State.setDoGroup_locks (s : State) (i : Nat) (x : DGroup) : (s.setDoGroup i x).locks = s.locks := rfl
@[simp] theorem State.setDoGroup_arrays (s : State) (i : Nat) (x : DGroup) : (s.setDoGroup i x).arrays = s.arrays := rfl
@[simp] theorem State.setDoGroup_raised (s : State) (i : Nat) (x : DGroup) : (s.setDoGroup i x).raised = s.raised := rfl
@[simp] theorem State.setDoGroup_upsets (s : State) (i : Nat) (x : DGroup) : (s.setDoGroup i x).upsets = s.upsets := rfl
@[simp] theorem State.setDoGroup_recQueue (s : State) (i : Nat) (x : DGroup) : (s.setDoGroup i x).recQueue = s.recQueue := rfl
@[simp] theorem State.setDoGroup_mramChecked (s : State) (i : Nat) (x : DGroup) : (s.setDoGroup i x).mramChecked = s.mramChecked := rfl
@[simp] theorem State.setDoGroup_panel (s : State) (i : Nat) (x : DGroup) : (s.setDoGroup i x).panel = s.panel := rfl
@[simp] theorem State.setDoGroup_plate (s : State) (i : Nat) (x : DGroup) : (s.setDoGroup i x).plate = s.plate := rfl
@[simp] theorem State.setDoGroup_ring (s : State) (i : Nat) (x : DGroup) : (s.setDoGroup i x).ring = s.ring := rfl
@[simp] theorem State.setDoGroup_power (s : State) (i : Nat) (x : DGroup) : (s.setDoGroup i x).power = s.power := rfl
@[simp] theorem State.modDoGroup_same (s : State) (i : Nat) (f : DGroup → DGroup) : (s.modDoGroup i f).doGroup i = f (s.doGroup i) := Tab.get_set_same _ _ _ _
theorem State.modDoGroup_other (s : State) {i j : Nat} (f : DGroup → DGroup) (h : j ≠ i) : (s.modDoGroup i f).doGroup j = s.doGroup j := Tab.get_set_other _ _ _ h
@[simp] theorem State.modDoGroup_pending (s : State) (i : Nat) (f : DGroup → DGroup) : (s.modDoGroup i f).pending = s.pending := rfl
@[simp] theorem State.modDoGroup_now (s : State) (i : Nat) (f : DGroup → DGroup) : (s.modDoGroup i f).now = s.now := rfl
@[simp] theorem State.modDoGroup_freeCount (s : State) (i : Nat) (f : DGroup → DGroup) : (s.modDoGroup i f).freeCount = s.freeCount := rfl
@[simp] theorem State.modDoGroup_service (s : State) (i : Nat) (f : DGroup → DGroup) : (s.modDoGroup i f).service = s.service := rfl
@[simp] theorem State.modDoGroup_mram (s : State) (i : Nat) (f : DGroup → DGroup) : (s.modDoGroup i f).mram = s.mram := rfl
@[simp] theorem State.modDoGroup_sup (s : State) (i : Nat) (f : DGroup → DGroup) : (s.modDoGroup i f).sup = s.sup := rfl
@[simp] theorem State.modDoGroup_islands (s : State) (i : Nat) (f : DGroup → DGroup) : (s.modDoGroup i f).islands = s.islands := rfl
@[simp] theorem State.modDoGroup_faultyInterlock (s : State) (i : Nat) (f : DGroup → DGroup) : (s.modDoGroup i f).faultyInterlock = s.faultyInterlock := rfl
@[simp] theorem State.modDoGroup_domains (s : State) (i : Nat) (f : DGroup → DGroup) : (s.modDoGroup i f).domains = s.domains := rfl
@[simp] theorem State.modDoGroup_crossings (s : State) (i : Nat) (f : DGroup → DGroup) : (s.modDoGroup i f).crossings = s.crossings := rfl
@[simp] theorem State.modDoGroup_rounds (s : State) (i : Nat) (f : DGroup → DGroup) : (s.modDoGroup i f).rounds = s.rounds := rfl
@[simp] theorem State.modDoGroup_nextSend (s : State) (i : Nat) (f : DGroup → DGroup) : (s.modDoGroup i f).nextSend = s.nextSend := rfl
@[simp] theorem State.modDoGroup_mismatches (s : State) (i : Nat) (f : DGroup → DGroup) : (s.modDoGroup i f).mismatches = s.mismatches := rfl
@[simp] theorem State.modDoGroup_windowMismatches (s : State) (i : Nat) (f : DGroup → DGroup) : (s.modDoGroup i f).windowMismatches = s.windowMismatches := rfl
@[simp] theorem State.modDoGroup_auditAt (s : State) (i : Nat) (f : DGroup → DGroup) : (s.modDoGroup i f).auditAt = s.auditAt := rfl
@[simp] theorem State.modDoGroup_square (s : State) (i : Nat) (f : DGroup → DGroup) : (s.modDoGroup i f).square = s.square := rfl
@[simp] theorem State.modDoGroup_engines (s : State) (i : Nat) (f : DGroup → DGroup) : (s.modDoGroup i f).engines = s.engines := rfl
@[simp] theorem State.modDoGroup_timers (s : State) (i : Nat) (f : DGroup → DGroup) : (s.modDoGroup i f).timers = s.timers := rfl
@[simp] theorem State.modDoGroup_counters (s : State) (i : Nat) (f : DGroup → DGroup) : (s.modDoGroup i f).counters = s.counters := rfl
@[simp] theorem State.modDoGroup_round (s : State) (i : Nat) (f : DGroup → DGroup) : (s.modDoGroup i f).round = s.round := rfl
@[simp] theorem State.modDoGroup_loop (s : State) (i : Nat) (f : DGroup → DGroup) : (s.modDoGroup i f).loop = s.loop := rfl
@[simp] theorem State.modDoGroup_ucs (s : State) (i : Nat) (f : DGroup → DGroup) : (s.modDoGroup i f).ucs = s.ucs := rfl
@[simp] theorem State.modDoGroup_dis (s : State) (i : Nat) (f : DGroup → DGroup) : (s.modDoGroup i f).dis = s.dis := rfl
@[simp] theorem State.modDoGroup_dos (s : State) (i : Nat) (f : DGroup → DGroup) : (s.modDoGroup i f).dos = s.dos := rfl
@[simp] theorem State.modDoGroup_diGroups (s : State) (i : Nat) (f : DGroup → DGroup) : (s.modDoGroup i f).diGroups = s.diGroups := rfl
@[simp] theorem State.modDoGroup_cans (s : State) (i : Nat) (f : DGroup → DGroup) : (s.modDoGroup i f).cans = s.cans := rfl
@[simp] theorem State.modDoGroup_fire (s : State) (i : Nat) (f : DGroup → DGroup) : (s.modDoGroup i f).fire = s.fire := rfl
@[simp] theorem State.modDoGroup_pair (s : State) (i : Nat) (f : DGroup → DGroup) : (s.modDoGroup i f).pair = s.pair := rfl
@[simp] theorem State.modDoGroup_totals (s : State) (i : Nat) (f : DGroup → DGroup) : (s.modDoGroup i f).totals = s.totals := rfl
@[simp] theorem State.modDoGroup_locks (s : State) (i : Nat) (f : DGroup → DGroup) : (s.modDoGroup i f).locks = s.locks := rfl
@[simp] theorem State.modDoGroup_arrays (s : State) (i : Nat) (f : DGroup → DGroup) : (s.modDoGroup i f).arrays = s.arrays := rfl
@[simp] theorem State.modDoGroup_raised (s : State) (i : Nat) (f : DGroup → DGroup) : (s.modDoGroup i f).raised = s.raised := rfl
@[simp] theorem State.modDoGroup_upsets (s : State) (i : Nat) (f : DGroup → DGroup) : (s.modDoGroup i f).upsets = s.upsets := rfl
@[simp] theorem State.modDoGroup_recQueue (s : State) (i : Nat) (f : DGroup → DGroup) : (s.modDoGroup i f).recQueue = s.recQueue := rfl
@[simp] theorem State.modDoGroup_mramChecked (s : State) (i : Nat) (f : DGroup → DGroup) : (s.modDoGroup i f).mramChecked = s.mramChecked := rfl
@[simp] theorem State.modDoGroup_panel (s : State) (i : Nat) (f : DGroup → DGroup) : (s.modDoGroup i f).panel = s.panel := rfl
@[simp] theorem State.modDoGroup_plate (s : State) (i : Nat) (f : DGroup → DGroup) : (s.modDoGroup i f).plate = s.plate := rfl
@[simp] theorem State.modDoGroup_ring (s : State) (i : Nat) (f : DGroup → DGroup) : (s.modDoGroup i f).ring = s.ring := rfl
@[simp] theorem State.modDoGroup_power (s : State) (i : Nat) (f : DGroup → DGroup) : (s.modDoGroup i f).power = s.power := rfl

/-! ### `setCan` -/

theorem State.modCan_def (s : State) (i : Nat) (f : Can → Can) : s.modCan i f = s.setCan i (f (s.can i)) := rfl
@[simp] theorem State.setCan_same (s : State) (i : Nat) (x : Can) : (s.setCan i x).can i = x := Tab.get_set_same _ _ _ _
theorem State.setCan_other (s : State) {i j : Nat} (x : Can) (h : j ≠ i) : (s.setCan i x).can j = s.can j := Tab.get_set_other _ _ _ h
@[simp] theorem State.setCan_pending (s : State) (i : Nat) (x : Can) : (s.setCan i x).pending = s.pending := rfl
@[simp] theorem State.setCan_now (s : State) (i : Nat) (x : Can) : (s.setCan i x).now = s.now := rfl
@[simp] theorem State.setCan_freeCount (s : State) (i : Nat) (x : Can) : (s.setCan i x).freeCount = s.freeCount := rfl
@[simp] theorem State.setCan_service (s : State) (i : Nat) (x : Can) : (s.setCan i x).service = s.service := rfl
@[simp] theorem State.setCan_mram (s : State) (i : Nat) (x : Can) : (s.setCan i x).mram = s.mram := rfl
@[simp] theorem State.setCan_sup (s : State) (i : Nat) (x : Can) : (s.setCan i x).sup = s.sup := rfl
@[simp] theorem State.setCan_islands (s : State) (i : Nat) (x : Can) : (s.setCan i x).islands = s.islands := rfl
@[simp] theorem State.setCan_faultyInterlock (s : State) (i : Nat) (x : Can) : (s.setCan i x).faultyInterlock = s.faultyInterlock := rfl
@[simp] theorem State.setCan_domains (s : State) (i : Nat) (x : Can) : (s.setCan i x).domains = s.domains := rfl
@[simp] theorem State.setCan_crossings (s : State) (i : Nat) (x : Can) : (s.setCan i x).crossings = s.crossings := rfl
@[simp] theorem State.setCan_rounds (s : State) (i : Nat) (x : Can) : (s.setCan i x).rounds = s.rounds := rfl
@[simp] theorem State.setCan_nextSend (s : State) (i : Nat) (x : Can) : (s.setCan i x).nextSend = s.nextSend := rfl
@[simp] theorem State.setCan_mismatches (s : State) (i : Nat) (x : Can) : (s.setCan i x).mismatches = s.mismatches := rfl
@[simp] theorem State.setCan_windowMismatches (s : State) (i : Nat) (x : Can) : (s.setCan i x).windowMismatches = s.windowMismatches := rfl
@[simp] theorem State.setCan_auditAt (s : State) (i : Nat) (x : Can) : (s.setCan i x).auditAt = s.auditAt := rfl
@[simp] theorem State.setCan_square (s : State) (i : Nat) (x : Can) : (s.setCan i x).square = s.square := rfl
@[simp] theorem State.setCan_engines (s : State) (i : Nat) (x : Can) : (s.setCan i x).engines = s.engines := rfl
@[simp] theorem State.setCan_timers (s : State) (i : Nat) (x : Can) : (s.setCan i x).timers = s.timers := rfl
@[simp] theorem State.setCan_counters (s : State) (i : Nat) (x : Can) : (s.setCan i x).counters = s.counters := rfl
@[simp] theorem State.setCan_round (s : State) (i : Nat) (x : Can) : (s.setCan i x).round = s.round := rfl
@[simp] theorem State.setCan_loop (s : State) (i : Nat) (x : Can) : (s.setCan i x).loop = s.loop := rfl
@[simp] theorem State.setCan_ucs (s : State) (i : Nat) (x : Can) : (s.setCan i x).ucs = s.ucs := rfl
@[simp] theorem State.setCan_dis (s : State) (i : Nat) (x : Can) : (s.setCan i x).dis = s.dis := rfl
@[simp] theorem State.setCan_dos (s : State) (i : Nat) (x : Can) : (s.setCan i x).dos = s.dos := rfl
@[simp] theorem State.setCan_diGroups (s : State) (i : Nat) (x : Can) : (s.setCan i x).diGroups = s.diGroups := rfl
@[simp] theorem State.setCan_doGroups (s : State) (i : Nat) (x : Can) : (s.setCan i x).doGroups = s.doGroups := rfl
@[simp] theorem State.setCan_fire (s : State) (i : Nat) (x : Can) : (s.setCan i x).fire = s.fire := rfl
@[simp] theorem State.setCan_pair (s : State) (i : Nat) (x : Can) : (s.setCan i x).pair = s.pair := rfl
@[simp] theorem State.setCan_totals (s : State) (i : Nat) (x : Can) : (s.setCan i x).totals = s.totals := rfl
@[simp] theorem State.setCan_locks (s : State) (i : Nat) (x : Can) : (s.setCan i x).locks = s.locks := rfl
@[simp] theorem State.setCan_arrays (s : State) (i : Nat) (x : Can) : (s.setCan i x).arrays = s.arrays := rfl
@[simp] theorem State.setCan_raised (s : State) (i : Nat) (x : Can) : (s.setCan i x).raised = s.raised := rfl
@[simp] theorem State.setCan_upsets (s : State) (i : Nat) (x : Can) : (s.setCan i x).upsets = s.upsets := rfl
@[simp] theorem State.setCan_recQueue (s : State) (i : Nat) (x : Can) : (s.setCan i x).recQueue = s.recQueue := rfl
@[simp] theorem State.setCan_mramChecked (s : State) (i : Nat) (x : Can) : (s.setCan i x).mramChecked = s.mramChecked := rfl
@[simp] theorem State.setCan_panel (s : State) (i : Nat) (x : Can) : (s.setCan i x).panel = s.panel := rfl
@[simp] theorem State.setCan_plate (s : State) (i : Nat) (x : Can) : (s.setCan i x).plate = s.plate := rfl
@[simp] theorem State.setCan_ring (s : State) (i : Nat) (x : Can) : (s.setCan i x).ring = s.ring := rfl
@[simp] theorem State.setCan_power (s : State) (i : Nat) (x : Can) : (s.setCan i x).power = s.power := rfl
@[simp] theorem State.modCan_same (s : State) (i : Nat) (f : Can → Can) : (s.modCan i f).can i = f (s.can i) := Tab.get_set_same _ _ _ _
theorem State.modCan_other (s : State) {i j : Nat} (f : Can → Can) (h : j ≠ i) : (s.modCan i f).can j = s.can j := Tab.get_set_other _ _ _ h
@[simp] theorem State.modCan_pending (s : State) (i : Nat) (f : Can → Can) : (s.modCan i f).pending = s.pending := rfl
@[simp] theorem State.modCan_now (s : State) (i : Nat) (f : Can → Can) : (s.modCan i f).now = s.now := rfl
@[simp] theorem State.modCan_freeCount (s : State) (i : Nat) (f : Can → Can) : (s.modCan i f).freeCount = s.freeCount := rfl
@[simp] theorem State.modCan_service (s : State) (i : Nat) (f : Can → Can) : (s.modCan i f).service = s.service := rfl
@[simp] theorem State.modCan_mram (s : State) (i : Nat) (f : Can → Can) : (s.modCan i f).mram = s.mram := rfl
@[simp] theorem State.modCan_sup (s : State) (i : Nat) (f : Can → Can) : (s.modCan i f).sup = s.sup := rfl
@[simp] theorem State.modCan_islands (s : State) (i : Nat) (f : Can → Can) : (s.modCan i f).islands = s.islands := rfl
@[simp] theorem State.modCan_faultyInterlock (s : State) (i : Nat) (f : Can → Can) : (s.modCan i f).faultyInterlock = s.faultyInterlock := rfl
@[simp] theorem State.modCan_domains (s : State) (i : Nat) (f : Can → Can) : (s.modCan i f).domains = s.domains := rfl
@[simp] theorem State.modCan_crossings (s : State) (i : Nat) (f : Can → Can) : (s.modCan i f).crossings = s.crossings := rfl
@[simp] theorem State.modCan_rounds (s : State) (i : Nat) (f : Can → Can) : (s.modCan i f).rounds = s.rounds := rfl
@[simp] theorem State.modCan_nextSend (s : State) (i : Nat) (f : Can → Can) : (s.modCan i f).nextSend = s.nextSend := rfl
@[simp] theorem State.modCan_mismatches (s : State) (i : Nat) (f : Can → Can) : (s.modCan i f).mismatches = s.mismatches := rfl
@[simp] theorem State.modCan_windowMismatches (s : State) (i : Nat) (f : Can → Can) : (s.modCan i f).windowMismatches = s.windowMismatches := rfl
@[simp] theorem State.modCan_auditAt (s : State) (i : Nat) (f : Can → Can) : (s.modCan i f).auditAt = s.auditAt := rfl
@[simp] theorem State.modCan_square (s : State) (i : Nat) (f : Can → Can) : (s.modCan i f).square = s.square := rfl
@[simp] theorem State.modCan_engines (s : State) (i : Nat) (f : Can → Can) : (s.modCan i f).engines = s.engines := rfl
@[simp] theorem State.modCan_timers (s : State) (i : Nat) (f : Can → Can) : (s.modCan i f).timers = s.timers := rfl
@[simp] theorem State.modCan_counters (s : State) (i : Nat) (f : Can → Can) : (s.modCan i f).counters = s.counters := rfl
@[simp] theorem State.modCan_round (s : State) (i : Nat) (f : Can → Can) : (s.modCan i f).round = s.round := rfl
@[simp] theorem State.modCan_loop (s : State) (i : Nat) (f : Can → Can) : (s.modCan i f).loop = s.loop := rfl
@[simp] theorem State.modCan_ucs (s : State) (i : Nat) (f : Can → Can) : (s.modCan i f).ucs = s.ucs := rfl
@[simp] theorem State.modCan_dis (s : State) (i : Nat) (f : Can → Can) : (s.modCan i f).dis = s.dis := rfl
@[simp] theorem State.modCan_dos (s : State) (i : Nat) (f : Can → Can) : (s.modCan i f).dos = s.dos := rfl
@[simp] theorem State.modCan_diGroups (s : State) (i : Nat) (f : Can → Can) : (s.modCan i f).diGroups = s.diGroups := rfl
@[simp] theorem State.modCan_doGroups (s : State) (i : Nat) (f : Can → Can) : (s.modCan i f).doGroups = s.doGroups := rfl
@[simp] theorem State.modCan_fire (s : State) (i : Nat) (f : Can → Can) : (s.modCan i f).fire = s.fire := rfl
@[simp] theorem State.modCan_pair (s : State) (i : Nat) (f : Can → Can) : (s.modCan i f).pair = s.pair := rfl
@[simp] theorem State.modCan_totals (s : State) (i : Nat) (f : Can → Can) : (s.modCan i f).totals = s.totals := rfl
@[simp] theorem State.modCan_locks (s : State) (i : Nat) (f : Can → Can) : (s.modCan i f).locks = s.locks := rfl
@[simp] theorem State.modCan_arrays (s : State) (i : Nat) (f : Can → Can) : (s.modCan i f).arrays = s.arrays := rfl
@[simp] theorem State.modCan_raised (s : State) (i : Nat) (f : Can → Can) : (s.modCan i f).raised = s.raised := rfl
@[simp] theorem State.modCan_upsets (s : State) (i : Nat) (f : Can → Can) : (s.modCan i f).upsets = s.upsets := rfl
@[simp] theorem State.modCan_recQueue (s : State) (i : Nat) (f : Can → Can) : (s.modCan i f).recQueue = s.recQueue := rfl
@[simp] theorem State.modCan_mramChecked (s : State) (i : Nat) (f : Can → Can) : (s.modCan i f).mramChecked = s.mramChecked := rfl
@[simp] theorem State.modCan_panel (s : State) (i : Nat) (f : Can → Can) : (s.modCan i f).panel = s.panel := rfl
@[simp] theorem State.modCan_plate (s : State) (i : Nat) (f : Can → Can) : (s.modCan i f).plate = s.plate := rfl
@[simp] theorem State.modCan_ring (s : State) (i : Nat) (f : Can → Can) : (s.modCan i f).ring = s.ring := rfl
@[simp] theorem State.modCan_power (s : State) (i : Nat) (f : Can → Can) : (s.modCan i f).power = s.power := rfl

/-! ### `setTotal` -/

theorem State.modTotal_def (s : State) (i : Nat) (f : Total → Total) : s.modTotal i f = s.setTotal i (f (s.total i)) := rfl
@[simp] theorem State.setTotal_same (s : State) (i : Nat) (x : Total) : (s.setTotal i x).total i = x := Tab.get_set_same _ _ _ _
theorem State.setTotal_other (s : State) {i j : Nat} (x : Total) (h : j ≠ i) : (s.setTotal i x).total j = s.total j := Tab.get_set_other _ _ _ h
@[simp] theorem State.setTotal_pending (s : State) (i : Nat) (x : Total) : (s.setTotal i x).pending = s.pending := rfl
@[simp] theorem State.setTotal_now (s : State) (i : Nat) (x : Total) : (s.setTotal i x).now = s.now := rfl
@[simp] theorem State.setTotal_freeCount (s : State) (i : Nat) (x : Total) : (s.setTotal i x).freeCount = s.freeCount := rfl
@[simp] theorem State.setTotal_service (s : State) (i : Nat) (x : Total) : (s.setTotal i x).service = s.service := rfl
@[simp] theorem State.setTotal_mram (s : State) (i : Nat) (x : Total) : (s.setTotal i x).mram = s.mram := rfl
@[simp] theorem State.setTotal_sup (s : State) (i : Nat) (x : Total) : (s.setTotal i x).sup = s.sup := rfl
@[simp] theorem State.setTotal_islands (s : State) (i : Nat) (x : Total) : (s.setTotal i x).islands = s.islands := rfl
@[simp] theorem State.setTotal_faultyInterlock (s : State) (i : Nat) (x : Total) : (s.setTotal i x).faultyInterlock = s.faultyInterlock := rfl
@[simp] theorem State.setTotal_domains (s : State) (i : Nat) (x : Total) : (s.setTotal i x).domains = s.domains := rfl
@[simp] theorem State.setTotal_crossings (s : State) (i : Nat) (x : Total) : (s.setTotal i x).crossings = s.crossings := rfl
@[simp] theorem State.setTotal_rounds (s : State) (i : Nat) (x : Total) : (s.setTotal i x).rounds = s.rounds := rfl
@[simp] theorem State.setTotal_nextSend (s : State) (i : Nat) (x : Total) : (s.setTotal i x).nextSend = s.nextSend := rfl
@[simp] theorem State.setTotal_mismatches (s : State) (i : Nat) (x : Total) : (s.setTotal i x).mismatches = s.mismatches := rfl
@[simp] theorem State.setTotal_windowMismatches (s : State) (i : Nat) (x : Total) : (s.setTotal i x).windowMismatches = s.windowMismatches := rfl
@[simp] theorem State.setTotal_auditAt (s : State) (i : Nat) (x : Total) : (s.setTotal i x).auditAt = s.auditAt := rfl
@[simp] theorem State.setTotal_square (s : State) (i : Nat) (x : Total) : (s.setTotal i x).square = s.square := rfl
@[simp] theorem State.setTotal_engines (s : State) (i : Nat) (x : Total) : (s.setTotal i x).engines = s.engines := rfl
@[simp] theorem State.setTotal_timers (s : State) (i : Nat) (x : Total) : (s.setTotal i x).timers = s.timers := rfl
@[simp] theorem State.setTotal_counters (s : State) (i : Nat) (x : Total) : (s.setTotal i x).counters = s.counters := rfl
@[simp] theorem State.setTotal_round (s : State) (i : Nat) (x : Total) : (s.setTotal i x).round = s.round := rfl
@[simp] theorem State.setTotal_loop (s : State) (i : Nat) (x : Total) : (s.setTotal i x).loop = s.loop := rfl
@[simp] theorem State.setTotal_ucs (s : State) (i : Nat) (x : Total) : (s.setTotal i x).ucs = s.ucs := rfl
@[simp] theorem State.setTotal_dis (s : State) (i : Nat) (x : Total) : (s.setTotal i x).dis = s.dis := rfl
@[simp] theorem State.setTotal_dos (s : State) (i : Nat) (x : Total) : (s.setTotal i x).dos = s.dos := rfl
@[simp] theorem State.setTotal_diGroups (s : State) (i : Nat) (x : Total) : (s.setTotal i x).diGroups = s.diGroups := rfl
@[simp] theorem State.setTotal_doGroups (s : State) (i : Nat) (x : Total) : (s.setTotal i x).doGroups = s.doGroups := rfl
@[simp] theorem State.setTotal_cans (s : State) (i : Nat) (x : Total) : (s.setTotal i x).cans = s.cans := rfl
@[simp] theorem State.setTotal_fire (s : State) (i : Nat) (x : Total) : (s.setTotal i x).fire = s.fire := rfl
@[simp] theorem State.setTotal_pair (s : State) (i : Nat) (x : Total) : (s.setTotal i x).pair = s.pair := rfl
@[simp] theorem State.setTotal_locks (s : State) (i : Nat) (x : Total) : (s.setTotal i x).locks = s.locks := rfl
@[simp] theorem State.setTotal_arrays (s : State) (i : Nat) (x : Total) : (s.setTotal i x).arrays = s.arrays := rfl
@[simp] theorem State.setTotal_raised (s : State) (i : Nat) (x : Total) : (s.setTotal i x).raised = s.raised := rfl
@[simp] theorem State.setTotal_upsets (s : State) (i : Nat) (x : Total) : (s.setTotal i x).upsets = s.upsets := rfl
@[simp] theorem State.setTotal_recQueue (s : State) (i : Nat) (x : Total) : (s.setTotal i x).recQueue = s.recQueue := rfl
@[simp] theorem State.setTotal_mramChecked (s : State) (i : Nat) (x : Total) : (s.setTotal i x).mramChecked = s.mramChecked := rfl
@[simp] theorem State.setTotal_panel (s : State) (i : Nat) (x : Total) : (s.setTotal i x).panel = s.panel := rfl
@[simp] theorem State.setTotal_plate (s : State) (i : Nat) (x : Total) : (s.setTotal i x).plate = s.plate := rfl
@[simp] theorem State.setTotal_ring (s : State) (i : Nat) (x : Total) : (s.setTotal i x).ring = s.ring := rfl
@[simp] theorem State.setTotal_power (s : State) (i : Nat) (x : Total) : (s.setTotal i x).power = s.power := rfl
@[simp] theorem State.modTotal_same (s : State) (i : Nat) (f : Total → Total) : (s.modTotal i f).total i = f (s.total i) := Tab.get_set_same _ _ _ _
theorem State.modTotal_other (s : State) {i j : Nat} (f : Total → Total) (h : j ≠ i) : (s.modTotal i f).total j = s.total j := Tab.get_set_other _ _ _ h
@[simp] theorem State.modTotal_pending (s : State) (i : Nat) (f : Total → Total) : (s.modTotal i f).pending = s.pending := rfl
@[simp] theorem State.modTotal_now (s : State) (i : Nat) (f : Total → Total) : (s.modTotal i f).now = s.now := rfl
@[simp] theorem State.modTotal_freeCount (s : State) (i : Nat) (f : Total → Total) : (s.modTotal i f).freeCount = s.freeCount := rfl
@[simp] theorem State.modTotal_service (s : State) (i : Nat) (f : Total → Total) : (s.modTotal i f).service = s.service := rfl
@[simp] theorem State.modTotal_mram (s : State) (i : Nat) (f : Total → Total) : (s.modTotal i f).mram = s.mram := rfl
@[simp] theorem State.modTotal_sup (s : State) (i : Nat) (f : Total → Total) : (s.modTotal i f).sup = s.sup := rfl
@[simp] theorem State.modTotal_islands (s : State) (i : Nat) (f : Total → Total) : (s.modTotal i f).islands = s.islands := rfl
@[simp] theorem State.modTotal_faultyInterlock (s : State) (i : Nat) (f : Total → Total) : (s.modTotal i f).faultyInterlock = s.faultyInterlock := rfl
@[simp] theorem State.modTotal_domains (s : State) (i : Nat) (f : Total → Total) : (s.modTotal i f).domains = s.domains := rfl
@[simp] theorem State.modTotal_crossings (s : State) (i : Nat) (f : Total → Total) : (s.modTotal i f).crossings = s.crossings := rfl
@[simp] theorem State.modTotal_rounds (s : State) (i : Nat) (f : Total → Total) : (s.modTotal i f).rounds = s.rounds := rfl
@[simp] theorem State.modTotal_nextSend (s : State) (i : Nat) (f : Total → Total) : (s.modTotal i f).nextSend = s.nextSend := rfl
@[simp] theorem State.modTotal_mismatches (s : State) (i : Nat) (f : Total → Total) : (s.modTotal i f).mismatches = s.mismatches := rfl
@[simp] theorem State.modTotal_windowMismatches (s : State) (i : Nat) (f : Total → Total) : (s.modTotal i f).windowMismatches = s.windowMismatches := rfl
@[simp] theorem State.modTotal_auditAt (s : State) (i : Nat) (f : Total → Total) : (s.modTotal i f).auditAt = s.auditAt := rfl
@[simp] theorem State.modTotal_square (s : State) (i : Nat) (f : Total → Total) : (s.modTotal i f).square = s.square := rfl
@[simp] theorem State.modTotal_engines (s : State) (i : Nat) (f : Total → Total) : (s.modTotal i f).engines = s.engines := rfl
@[simp] theorem State.modTotal_timers (s : State) (i : Nat) (f : Total → Total) : (s.modTotal i f).timers = s.timers := rfl
@[simp] theorem State.modTotal_counters (s : State) (i : Nat) (f : Total → Total) : (s.modTotal i f).counters = s.counters := rfl
@[simp] theorem State.modTotal_round (s : State) (i : Nat) (f : Total → Total) : (s.modTotal i f).round = s.round := rfl
@[simp] theorem State.modTotal_loop (s : State) (i : Nat) (f : Total → Total) : (s.modTotal i f).loop = s.loop := rfl
@[simp] theorem State.modTotal_ucs (s : State) (i : Nat) (f : Total → Total) : (s.modTotal i f).ucs = s.ucs := rfl
@[simp] theorem State.modTotal_dis (s : State) (i : Nat) (f : Total → Total) : (s.modTotal i f).dis = s.dis := rfl
@[simp] theorem State.modTotal_dos (s : State) (i : Nat) (f : Total → Total) : (s.modTotal i f).dos = s.dos := rfl
@[simp] theorem State.modTotal_diGroups (s : State) (i : Nat) (f : Total → Total) : (s.modTotal i f).diGroups = s.diGroups := rfl
@[simp] theorem State.modTotal_doGroups (s : State) (i : Nat) (f : Total → Total) : (s.modTotal i f).doGroups = s.doGroups := rfl
@[simp] theorem State.modTotal_cans (s : State) (i : Nat) (f : Total → Total) : (s.modTotal i f).cans = s.cans := rfl
@[simp] theorem State.modTotal_fire (s : State) (i : Nat) (f : Total → Total) : (s.modTotal i f).fire = s.fire := rfl
@[simp] theorem State.modTotal_pair (s : State) (i : Nat) (f : Total → Total) : (s.modTotal i f).pair = s.pair := rfl
@[simp] theorem State.modTotal_locks (s : State) (i : Nat) (f : Total → Total) : (s.modTotal i f).locks = s.locks := rfl
@[simp] theorem State.modTotal_arrays (s : State) (i : Nat) (f : Total → Total) : (s.modTotal i f).arrays = s.arrays := rfl
@[simp] theorem State.modTotal_raised (s : State) (i : Nat) (f : Total → Total) : (s.modTotal i f).raised = s.raised := rfl
@[simp] theorem State.modTotal_upsets (s : State) (i : Nat) (f : Total → Total) : (s.modTotal i f).upsets = s.upsets := rfl
@[simp] theorem State.modTotal_recQueue (s : State) (i : Nat) (f : Total → Total) : (s.modTotal i f).recQueue = s.recQueue := rfl
@[simp] theorem State.modTotal_mramChecked (s : State) (i : Nat) (f : Total → Total) : (s.modTotal i f).mramChecked = s.mramChecked := rfl
@[simp] theorem State.modTotal_panel (s : State) (i : Nat) (f : Total → Total) : (s.modTotal i f).panel = s.panel := rfl
@[simp] theorem State.modTotal_plate (s : State) (i : Nat) (f : Total → Total) : (s.modTotal i f).plate = s.plate := rfl
@[simp] theorem State.modTotal_ring (s : State) (i : Nat) (f : Total → Total) : (s.modTotal i f).ring = s.ring := rfl
@[simp] theorem State.modTotal_power (s : State) (i : Nat) (f : Total → Total) : (s.modTotal i f).power = s.power := rfl

/-! ### `setArr` -/

theorem State.modArr_def (s : State) (i : Nat) (f : Arr → Arr) : s.modArr i f = s.setArr i (f (s.arr i)) := rfl
@[simp] theorem State.setArr_same (s : State) (i : Nat) (x : Arr) : (s.setArr i x).arr i = x := Tab.get_set_same _ _ _ _
theorem State.setArr_other (s : State) {i j : Nat} (x : Arr) (h : j ≠ i) : (s.setArr i x).arr j = s.arr j := Tab.get_set_other _ _ _ h
@[simp] theorem State.setArr_pending (s : State) (i : Nat) (x : Arr) : (s.setArr i x).pending = s.pending := rfl
@[simp] theorem State.setArr_now (s : State) (i : Nat) (x : Arr) : (s.setArr i x).now = s.now := rfl
@[simp] theorem State.setArr_freeCount (s : State) (i : Nat) (x : Arr) : (s.setArr i x).freeCount = s.freeCount := rfl
@[simp] theorem State.setArr_service (s : State) (i : Nat) (x : Arr) : (s.setArr i x).service = s.service := rfl
@[simp] theorem State.setArr_mram (s : State) (i : Nat) (x : Arr) : (s.setArr i x).mram = s.mram := rfl
@[simp] theorem State.setArr_sup (s : State) (i : Nat) (x : Arr) : (s.setArr i x).sup = s.sup := rfl
@[simp] theorem State.setArr_islands (s : State) (i : Nat) (x : Arr) : (s.setArr i x).islands = s.islands := rfl
@[simp] theorem State.setArr_faultyInterlock (s : State) (i : Nat) (x : Arr) : (s.setArr i x).faultyInterlock = s.faultyInterlock := rfl
@[simp] theorem State.setArr_domains (s : State) (i : Nat) (x : Arr) : (s.setArr i x).domains = s.domains := rfl
@[simp] theorem State.setArr_crossings (s : State) (i : Nat) (x : Arr) : (s.setArr i x).crossings = s.crossings := rfl
@[simp] theorem State.setArr_rounds (s : State) (i : Nat) (x : Arr) : (s.setArr i x).rounds = s.rounds := rfl
@[simp] theorem State.setArr_nextSend (s : State) (i : Nat) (x : Arr) : (s.setArr i x).nextSend = s.nextSend := rfl
@[simp] theorem State.setArr_mismatches (s : State) (i : Nat) (x : Arr) : (s.setArr i x).mismatches = s.mismatches := rfl
@[simp] theorem State.setArr_windowMismatches (s : State) (i : Nat) (x : Arr) : (s.setArr i x).windowMismatches = s.windowMismatches := rfl
@[simp] theorem State.setArr_auditAt (s : State) (i : Nat) (x : Arr) : (s.setArr i x).auditAt = s.auditAt := rfl
@[simp] theorem State.setArr_square (s : State) (i : Nat) (x : Arr) : (s.setArr i x).square = s.square := rfl
@[simp] theorem State.setArr_engines (s : State) (i : Nat) (x : Arr) : (s.setArr i x).engines = s.engines := rfl
@[simp] theorem State.setArr_timers (s : State) (i : Nat) (x : Arr) : (s.setArr i x).timers = s.timers := rfl
@[simp] theorem State.setArr_counters (s : State) (i : Nat) (x : Arr) : (s.setArr i x).counters = s.counters := rfl
@[simp] theorem State.setArr_round (s : State) (i : Nat) (x : Arr) : (s.setArr i x).round = s.round := rfl
@[simp] theorem State.setArr_loop (s : State) (i : Nat) (x : Arr) : (s.setArr i x).loop = s.loop := rfl
@[simp] theorem State.setArr_ucs (s : State) (i : Nat) (x : Arr) : (s.setArr i x).ucs = s.ucs := rfl
@[simp] theorem State.setArr_dis (s : State) (i : Nat) (x : Arr) : (s.setArr i x).dis = s.dis := rfl
@[simp] theorem State.setArr_dos (s : State) (i : Nat) (x : Arr) : (s.setArr i x).dos = s.dos := rfl
@[simp] theorem State.setArr_diGroups (s : State) (i : Nat) (x : Arr) : (s.setArr i x).diGroups = s.diGroups := rfl
@[simp] theorem State.setArr_doGroups (s : State) (i : Nat) (x : Arr) : (s.setArr i x).doGroups = s.doGroups := rfl
@[simp] theorem State.setArr_cans (s : State) (i : Nat) (x : Arr) : (s.setArr i x).cans = s.cans := rfl
@[simp] theorem State.setArr_fire (s : State) (i : Nat) (x : Arr) : (s.setArr i x).fire = s.fire := rfl
@[simp] theorem State.setArr_pair (s : State) (i : Nat) (x : Arr) : (s.setArr i x).pair = s.pair := rfl
@[simp] theorem State.setArr_totals (s : State) (i : Nat) (x : Arr) : (s.setArr i x).totals = s.totals := rfl
@[simp] theorem State.setArr_locks (s : State) (i : Nat) (x : Arr) : (s.setArr i x).locks = s.locks := rfl
@[simp] theorem State.setArr_raised (s : State) (i : Nat) (x : Arr) : (s.setArr i x).raised = s.raised := rfl
@[simp] theorem State.setArr_upsets (s : State) (i : Nat) (x : Arr) : (s.setArr i x).upsets = s.upsets := rfl
@[simp] theorem State.setArr_recQueue (s : State) (i : Nat) (x : Arr) : (s.setArr i x).recQueue = s.recQueue := rfl
@[simp] theorem State.setArr_mramChecked (s : State) (i : Nat) (x : Arr) : (s.setArr i x).mramChecked = s.mramChecked := rfl
@[simp] theorem State.setArr_panel (s : State) (i : Nat) (x : Arr) : (s.setArr i x).panel = s.panel := rfl
@[simp] theorem State.setArr_plate (s : State) (i : Nat) (x : Arr) : (s.setArr i x).plate = s.plate := rfl
@[simp] theorem State.setArr_ring (s : State) (i : Nat) (x : Arr) : (s.setArr i x).ring = s.ring := rfl
@[simp] theorem State.setArr_power (s : State) (i : Nat) (x : Arr) : (s.setArr i x).power = s.power := rfl
@[simp] theorem State.modArr_same (s : State) (i : Nat) (f : Arr → Arr) : (s.modArr i f).arr i = f (s.arr i) := Tab.get_set_same _ _ _ _
theorem State.modArr_other (s : State) {i j : Nat} (f : Arr → Arr) (h : j ≠ i) : (s.modArr i f).arr j = s.arr j := Tab.get_set_other _ _ _ h
@[simp] theorem State.modArr_pending (s : State) (i : Nat) (f : Arr → Arr) : (s.modArr i f).pending = s.pending := rfl
@[simp] theorem State.modArr_now (s : State) (i : Nat) (f : Arr → Arr) : (s.modArr i f).now = s.now := rfl
@[simp] theorem State.modArr_freeCount (s : State) (i : Nat) (f : Arr → Arr) : (s.modArr i f).freeCount = s.freeCount := rfl
@[simp] theorem State.modArr_service (s : State) (i : Nat) (f : Arr → Arr) : (s.modArr i f).service = s.service := rfl
@[simp] theorem State.modArr_mram (s : State) (i : Nat) (f : Arr → Arr) : (s.modArr i f).mram = s.mram := rfl
@[simp] theorem State.modArr_sup (s : State) (i : Nat) (f : Arr → Arr) : (s.modArr i f).sup = s.sup := rfl
@[simp] theorem State.modArr_islands (s : State) (i : Nat) (f : Arr → Arr) : (s.modArr i f).islands = s.islands := rfl
@[simp] theorem State.modArr_faultyInterlock (s : State) (i : Nat) (f : Arr → Arr) : (s.modArr i f).faultyInterlock = s.faultyInterlock := rfl
@[simp] theorem State.modArr_domains (s : State) (i : Nat) (f : Arr → Arr) : (s.modArr i f).domains = s.domains := rfl
@[simp] theorem State.modArr_crossings (s : State) (i : Nat) (f : Arr → Arr) : (s.modArr i f).crossings = s.crossings := rfl
@[simp] theorem State.modArr_rounds (s : State) (i : Nat) (f : Arr → Arr) : (s.modArr i f).rounds = s.rounds := rfl
@[simp] theorem State.modArr_nextSend (s : State) (i : Nat) (f : Arr → Arr) : (s.modArr i f).nextSend = s.nextSend := rfl
@[simp] theorem State.modArr_mismatches (s : State) (i : Nat) (f : Arr → Arr) : (s.modArr i f).mismatches = s.mismatches := rfl
@[simp] theorem State.modArr_windowMismatches (s : State) (i : Nat) (f : Arr → Arr) : (s.modArr i f).windowMismatches = s.windowMismatches := rfl
@[simp] theorem State.modArr_auditAt (s : State) (i : Nat) (f : Arr → Arr) : (s.modArr i f).auditAt = s.auditAt := rfl
@[simp] theorem State.modArr_square (s : State) (i : Nat) (f : Arr → Arr) : (s.modArr i f).square = s.square := rfl
@[simp] theorem State.modArr_engines (s : State) (i : Nat) (f : Arr → Arr) : (s.modArr i f).engines = s.engines := rfl
@[simp] theorem State.modArr_timers (s : State) (i : Nat) (f : Arr → Arr) : (s.modArr i f).timers = s.timers := rfl
@[simp] theorem State.modArr_counters (s : State) (i : Nat) (f : Arr → Arr) : (s.modArr i f).counters = s.counters := rfl
@[simp] theorem State.modArr_round (s : State) (i : Nat) (f : Arr → Arr) : (s.modArr i f).round = s.round := rfl
@[simp] theorem State.modArr_loop (s : State) (i : Nat) (f : Arr → Arr) : (s.modArr i f).loop = s.loop := rfl
@[simp] theorem State.modArr_ucs (s : State) (i : Nat) (f : Arr → Arr) : (s.modArr i f).ucs = s.ucs := rfl
@[simp] theorem State.modArr_dis (s : State) (i : Nat) (f : Arr → Arr) : (s.modArr i f).dis = s.dis := rfl
@[simp] theorem State.modArr_dos (s : State) (i : Nat) (f : Arr → Arr) : (s.modArr i f).dos = s.dos := rfl
@[simp] theorem State.modArr_diGroups (s : State) (i : Nat) (f : Arr → Arr) : (s.modArr i f).diGroups = s.diGroups := rfl
@[simp] theorem State.modArr_doGroups (s : State) (i : Nat) (f : Arr → Arr) : (s.modArr i f).doGroups = s.doGroups := rfl
@[simp] theorem State.modArr_cans (s : State) (i : Nat) (f : Arr → Arr) : (s.modArr i f).cans = s.cans := rfl
@[simp] theorem State.modArr_fire (s : State) (i : Nat) (f : Arr → Arr) : (s.modArr i f).fire = s.fire := rfl
@[simp] theorem State.modArr_pair (s : State) (i : Nat) (f : Arr → Arr) : (s.modArr i f).pair = s.pair := rfl
@[simp] theorem State.modArr_totals (s : State) (i : Nat) (f : Arr → Arr) : (s.modArr i f).totals = s.totals := rfl
@[simp] theorem State.modArr_locks (s : State) (i : Nat) (f : Arr → Arr) : (s.modArr i f).locks = s.locks := rfl
@[simp] theorem State.modArr_raised (s : State) (i : Nat) (f : Arr → Arr) : (s.modArr i f).raised = s.raised := rfl
@[simp] theorem State.modArr_upsets (s : State) (i : Nat) (f : Arr → Arr) : (s.modArr i f).upsets = s.upsets := rfl
@[simp] theorem State.modArr_recQueue (s : State) (i : Nat) (f : Arr → Arr) : (s.modArr i f).recQueue = s.recQueue := rfl
@[simp] theorem State.modArr_mramChecked (s : State) (i : Nat) (f : Arr → Arr) : (s.modArr i f).mramChecked = s.mramChecked := rfl
@[simp] theorem State.modArr_panel (s : State) (i : Nat) (f : Arr → Arr) : (s.modArr i f).panel = s.panel := rfl
@[simp] theorem State.modArr_plate (s : State) (i : Nat) (f : Arr → Arr) : (s.modArr i f).plate = s.plate := rfl
@[simp] theorem State.modArr_ring (s : State) (i : Nat) (f : Arr → Arr) : (s.modArr i f).ring = s.ring := rfl
@[simp] theorem State.modArr_power (s : State) (i : Nat) (f : Arr → Arr) : (s.modArr i f).power = s.power := rfl

/-! ### `setIsland` -/

theorem State.modIsland_def (s : State) (i : Nat) (f : Island → Island) : s.modIsland i f = s.setIsland i (f (s.island i)) := rfl
@[simp] theorem State.setIsland_same (s : State) (i : Nat) (x : Island) : (s.setIsland i x).island i = x := Tab.get_set_same _ _ _ _
theorem State.setIsland_other (s : State) {i j : Nat} (x : Island) (h : j ≠ i) : (s.setIsland i x).island j = s.island j := Tab.get_set_other _ _ _ h
@[simp] theorem State.setIsland_pending (s : State) (i : Nat) (x : Island) : (s.setIsland i x).pending = s.pending := rfl
@[simp] theorem State.setIsland_now (s : State) (i : Nat) (x : Island) : (s.setIsland i x).now = s.now := rfl
@[simp] theorem State.setIsland_freeCount (s : State) (i : Nat) (x : Island) : (s.setIsland i x).freeCount = s.freeCount := rfl
@[simp] theorem State.setIsland_service (s : State) (i : Nat) (x : Island) : (s.setIsland i x).service = s.service := rfl
@[simp] theorem State.setIsland_mram (s : State) (i : Nat) (x : Island) : (s.setIsland i x).mram = s.mram := rfl
@[simp] theorem State.setIsland_sup (s : State) (i : Nat) (x : Island) : (s.setIsland i x).sup = s.sup := rfl
@[simp] theorem State.setIsland_faultyInterlock (s : State) (i : Nat) (x : Island) : (s.setIsland i x).faultyInterlock = s.faultyInterlock := rfl
@[simp] theorem State.setIsland_domains (s : State) (i : Nat) (x : Island) : (s.setIsland i x).domains = s.domains := rfl
@[simp] theorem State.setIsland_crossings (s : State) (i : Nat) (x : Island) : (s.setIsland i x).crossings = s.crossings := rfl
@[simp] theorem State.setIsland_rounds (s : State) (i : Nat) (x : Island) : (s.setIsland i x).rounds = s.rounds := rfl
@[simp] theorem State.setIsland_nextSend (s : State) (i : Nat) (x : Island) : (s.setIsland i x).nextSend = s.nextSend := rfl
@[simp] theorem State.setIsland_mismatches (s : State) (i : Nat) (x : Island) : (s.setIsland i x).mismatches = s.mismatches := rfl
@[simp] theorem State.setIsland_windowMismatches (s : State) (i : Nat) (x : Island) : (s.setIsland i x).windowMismatches = s.windowMismatches := rfl
@[simp] theorem State.setIsland_auditAt (s : State) (i : Nat) (x : Island) : (s.setIsland i x).auditAt = s.auditAt := rfl
@[simp] theorem State.setIsland_square (s : State) (i : Nat) (x : Island) : (s.setIsland i x).square = s.square := rfl
@[simp] theorem State.setIsland_engines (s : State) (i : Nat) (x : Island) : (s.setIsland i x).engines = s.engines := rfl
@[simp] theorem State.setIsland_timers (s : State) (i : Nat) (x : Island) : (s.setIsland i x).timers = s.timers := rfl
@[simp] theorem State.setIsland_counters (s : State) (i : Nat) (x : Island) : (s.setIsland i x).counters = s.counters := rfl
@[simp] theorem State.setIsland_round (s : State) (i : Nat) (x : Island) : (s.setIsland i x).round = s.round := rfl
@[simp] theorem State.setIsland_loop (s : State) (i : Nat) (x : Island) : (s.setIsland i x).loop = s.loop := rfl
@[simp] theorem State.setIsland_ucs (s : State) (i : Nat) (x : Island) : (s.setIsland i x).ucs = s.ucs := rfl
@[simp] theorem State.setIsland_dis (s : State) (i : Nat) (x : Island) : (s.setIsland i x).dis = s.dis := rfl
@[simp] theorem State.setIsland_dos (s : State) (i : Nat) (x : Island) : (s.setIsland i x).dos = s.dos := rfl
@[simp] theorem State.setIsland_diGroups (s : State) (i : Nat) (x : Island) : (s.setIsland i x).diGroups = s.diGroups := rfl
@[simp] theorem State.setIsland_doGroups (s : State) (i : Nat) (x : Island) : (s.setIsland i x).doGroups = s.doGroups := rfl
@[simp] theorem State.setIsland_cans (s : State) (i : Nat) (x : Island) : (s.setIsland i x).cans = s.cans := rfl
@[simp] theorem State.setIsland_fire (s : State) (i : Nat) (x : Island) : (s.setIsland i x).fire = s.fire := rfl
@[simp] theorem State.setIsland_pair (s : State) (i : Nat) (x : Island) : (s.setIsland i x).pair = s.pair := rfl
@[simp] theorem State.setIsland_totals (s : State) (i : Nat) (x : Island) : (s.setIsland i x).totals = s.totals := rfl
@[simp] theorem State.setIsland_locks (s : State) (i : Nat) (x : Island) : (s.setIsland i x).locks = s.locks := rfl
@[simp] theorem State.setIsland_arrays (s : State) (i : Nat) (x : Island) : (s.setIsland i x).arrays = s.arrays := rfl
@[simp] theorem State.setIsland_raised (s : State) (i : Nat) (x : Island) : (s.setIsland i x).raised = s.raised := rfl
@[simp] theorem State.setIsland_upsets (s : State) (i : Nat) (x : Island) : (s.setIsland i x).upsets = s.upsets := rfl
@[simp] theorem State.setIsland_recQueue (s : State) (i : Nat) (x : Island) : (s.setIsland i x).recQueue = s.recQueue := rfl
@[simp] theorem State.setIsland_mramChecked (s : State) (i : Nat) (x : Island) : (s.setIsland i x).mramChecked = s.mramChecked := rfl
@[simp] theorem State.setIsland_panel (s : State) (i : Nat) (x : Island) : (s.setIsland i x).panel = s.panel := rfl
@[simp] theorem State.setIsland_plate (s : State) (i : Nat) (x : Island) : (s.setIsland i x).plate = s.plate := rfl
@[simp] theorem State.setIsland_ring (s : State) (i : Nat) (x : Island) : (s.setIsland i x).ring = s.ring := rfl
@[simp] theorem State.setIsland_power (s : State) (i : Nat) (x : Island) : (s.setIsland i x).power = s.power := rfl
@[simp] theorem State.modIsland_same (s : State) (i : Nat) (f : Island → Island) : (s.modIsland i f).island i = f (s.island i) := Tab.get_set_same _ _ _ _
theorem State.modIsland_other (s : State) {i j : Nat} (f : Island → Island) (h : j ≠ i) : (s.modIsland i f).island j = s.island j := Tab.get_set_other _ _ _ h
@[simp] theorem State.modIsland_pending (s : State) (i : Nat) (f : Island → Island) : (s.modIsland i f).pending = s.pending := rfl
@[simp] theorem State.modIsland_now (s : State) (i : Nat) (f : Island → Island) : (s.modIsland i f).now = s.now := rfl
@[simp] theorem State.modIsland_freeCount (s : State) (i : Nat) (f : Island → Island) : (s.modIsland i f).freeCount = s.freeCount := rfl
@[simp] theorem State.modIsland_service (s : State) (i : Nat) (f : Island → Island) : (s.modIsland i f).service = s.service := rfl
@[simp] theorem State.modIsland_mram (s : State) (i : Nat) (f : Island → Island) : (s.modIsland i f).mram = s.mram := rfl
@[simp] theorem State.modIsland_sup (s : State) (i : Nat) (f : Island → Island) : (s.modIsland i f).sup = s.sup := rfl
@[simp] theorem State.modIsland_faultyInterlock (s : State) (i : Nat) (f : Island → Island) : (s.modIsland i f).faultyInterlock = s.faultyInterlock := rfl
@[simp] theorem State.modIsland_domains (s : State) (i : Nat) (f : Island → Island) : (s.modIsland i f).domains = s.domains := rfl
@[simp] theorem State.modIsland_crossings (s : State) (i : Nat) (f : Island → Island) : (s.modIsland i f).crossings = s.crossings := rfl
@[simp] theorem State.modIsland_rounds (s : State) (i : Nat) (f : Island → Island) : (s.modIsland i f).rounds = s.rounds := rfl
@[simp] theorem State.modIsland_nextSend (s : State) (i : Nat) (f : Island → Island) : (s.modIsland i f).nextSend = s.nextSend := rfl
@[simp] theorem State.modIsland_mismatches (s : State) (i : Nat) (f : Island → Island) : (s.modIsland i f).mismatches = s.mismatches := rfl
@[simp] theorem State.modIsland_windowMismatches (s : State) (i : Nat) (f : Island → Island) : (s.modIsland i f).windowMismatches = s.windowMismatches := rfl
@[simp] theorem State.modIsland_auditAt (s : State) (i : Nat) (f : Island → Island) : (s.modIsland i f).auditAt = s.auditAt := rfl
@[simp] theorem State.modIsland_square (s : State) (i : Nat) (f : Island → Island) : (s.modIsland i f).square = s.square := rfl
@[simp] theorem State.modIsland_engines (s : State) (i : Nat) (f : Island → Island) : (s.modIsland i f).engines = s.engines := rfl
@[simp] theorem State.modIsland_timers (s : State) (i : Nat) (f : Island → Island) : (s.modIsland i f).timers = s.timers := rfl
@[simp] theorem State.modIsland_counters (s : State) (i : Nat) (f : Island → Island) : (s.modIsland i f).counters = s.counters := rfl
@[simp] theorem State.modIsland_round (s : State) (i : Nat) (f : Island → Island) : (s.modIsland i f).round = s.round := rfl
@[simp] theorem State.modIsland_loop (s : State) (i : Nat) (f : Island → Island) : (s.modIsland i f).loop = s.loop := rfl
@[simp] theorem State.modIsland_ucs (s : State) (i : Nat) (f : Island → Island) : (s.modIsland i f).ucs = s.ucs := rfl
@[simp] theorem State.modIsland_dis (s : State) (i : Nat) (f : Island → Island) : (s.modIsland i f).dis = s.dis := rfl
@[simp] theorem State.modIsland_dos (s : State) (i : Nat) (f : Island → Island) : (s.modIsland i f).dos = s.dos := rfl
@[simp] theorem State.modIsland_diGroups (s : State) (i : Nat) (f : Island → Island) : (s.modIsland i f).diGroups = s.diGroups := rfl
@[simp] theorem State.modIsland_doGroups (s : State) (i : Nat) (f : Island → Island) : (s.modIsland i f).doGroups = s.doGroups := rfl
@[simp] theorem State.modIsland_cans (s : State) (i : Nat) (f : Island → Island) : (s.modIsland i f).cans = s.cans := rfl
@[simp] theorem State.modIsland_fire (s : State) (i : Nat) (f : Island → Island) : (s.modIsland i f).fire = s.fire := rfl
@[simp] theorem State.modIsland_pair (s : State) (i : Nat) (f : Island → Island) : (s.modIsland i f).pair = s.pair := rfl
@[simp] theorem State.modIsland_totals (s : State) (i : Nat) (f : Island → Island) : (s.modIsland i f).totals = s.totals := rfl
@[simp] theorem State.modIsland_locks (s : State) (i : Nat) (f : Island → Island) : (s.modIsland i f).locks = s.locks := rfl
@[simp] theorem State.modIsland_arrays (s : State) (i : Nat) (f : Island → Island) : (s.modIsland i f).arrays = s.arrays := rfl
@[simp] theorem State.modIsland_raised (s : State) (i : Nat) (f : Island → Island) : (s.modIsland i f).raised = s.raised := rfl
@[simp] theorem State.modIsland_upsets (s : State) (i : Nat) (f : Island → Island) : (s.modIsland i f).upsets = s.upsets := rfl
@[simp] theorem State.modIsland_recQueue (s : State) (i : Nat) (f : Island → Island) : (s.modIsland i f).recQueue = s.recQueue := rfl
@[simp] theorem State.modIsland_mramChecked (s : State) (i : Nat) (f : Island → Island) : (s.modIsland i f).mramChecked = s.mramChecked := rfl
@[simp] theorem State.modIsland_panel (s : State) (i : Nat) (f : Island → Island) : (s.modIsland i f).panel = s.panel := rfl
@[simp] theorem State.modIsland_plate (s : State) (i : Nat) (f : Island → Island) : (s.modIsland i f).plate = s.plate := rfl
@[simp] theorem State.modIsland_ring (s : State) (i : Nat) (f : Island → Island) : (s.modIsland i f).ring = s.ring := rfl
@[simp] theorem State.modIsland_power (s : State) (i : Nat) (f : Island → Island) : (s.modIsland i f).power = s.power := rfl

/-! ### `setDomain` -/

theorem State.modDomain_def (s : State) (i : Nat) (f : Domain → Domain) : s.modDomain i f = s.setDomain i (f (s.domain i)) := rfl
@[simp] theorem State.setDomain_same (s : State) (i : Nat) (x : Domain) : (s.setDomain i x).domain i = x := Tab.get_set_same _ _ _ _
theorem State.setDomain_other (s : State) {i j : Nat} (x : Domain) (h : j ≠ i) : (s.setDomain i x).domain j = s.domain j := Tab.get_set_other _ _ _ h
@[simp] theorem State.setDomain_pending (s : State) (i : Nat) (x : Domain) : (s.setDomain i x).pending = s.pending := rfl
@[simp] theorem State.setDomain_now (s : State) (i : Nat) (x : Domain) : (s.setDomain i x).now = s.now := rfl
@[simp] theorem State.setDomain_freeCount (s : State) (i : Nat) (x : Domain) : (s.setDomain i x).freeCount = s.freeCount := rfl
@[simp] theorem State.setDomain_service (s : State) (i : Nat) (x : Domain) : (s.setDomain i x).service = s.service := rfl
@[simp] theorem State.setDomain_mram (s : State) (i : Nat) (x : Domain) : (s.setDomain i x).mram = s.mram := rfl
@[simp] theorem State.setDomain_sup (s : State) (i : Nat) (x : Domain) : (s.setDomain i x).sup = s.sup := rfl
@[simp] theorem State.setDomain_islands (s : State) (i : Nat) (x : Domain) : (s.setDomain i x).islands = s.islands := rfl
@[simp] theorem State.setDomain_faultyInterlock (s : State) (i : Nat) (x : Domain) : (s.setDomain i x).faultyInterlock = s.faultyInterlock := rfl
@[simp] theorem State.setDomain_crossings (s : State) (i : Nat) (x : Domain) : (s.setDomain i x).crossings = s.crossings := rfl
@[simp] theorem State.setDomain_rounds (s : State) (i : Nat) (x : Domain) : (s.setDomain i x).rounds = s.rounds := rfl
@[simp] theorem State.setDomain_nextSend (s : State) (i : Nat) (x : Domain) : (s.setDomain i x).nextSend = s.nextSend := rfl
@[simp] theorem State.setDomain_mismatches (s : State) (i : Nat) (x : Domain) : (s.setDomain i x).mismatches = s.mismatches := rfl
@[simp] theorem State.setDomain_windowMismatches (s : State) (i : Nat) (x : Domain) : (s.setDomain i x).windowMismatches = s.windowMismatches := rfl
@[simp] theorem State.setDomain_auditAt (s : State) (i : Nat) (x : Domain) : (s.setDomain i x).auditAt = s.auditAt := rfl
@[simp] theorem State.setDomain_square (s : State) (i : Nat) (x : Domain) : (s.setDomain i x).square = s.square := rfl
@[simp] theorem State.setDomain_engines (s : State) (i : Nat) (x : Domain) : (s.setDomain i x).engines = s.engines := rfl
@[simp] theorem State.setDomain_timers (s : State) (i : Nat) (x : Domain) : (s.setDomain i x).timers = s.timers := rfl
@[simp] theorem State.setDomain_counters (s : State) (i : Nat) (x : Domain) : (s.setDomain i x).counters = s.counters := rfl
@[simp] theorem State.setDomain_round (s : State) (i : Nat) (x : Domain) : (s.setDomain i x).round = s.round := rfl
@[simp] theorem State.setDomain_loop (s : State) (i : Nat) (x : Domain) : (s.setDomain i x).loop = s.loop := rfl
@[simp] theorem State.setDomain_ucs (s : State) (i : Nat) (x : Domain) : (s.setDomain i x).ucs = s.ucs := rfl
@[simp] theorem State.setDomain_dis (s : State) (i : Nat) (x : Domain) : (s.setDomain i x).dis = s.dis := rfl
@[simp] theorem State.setDomain_dos (s : State) (i : Nat) (x : Domain) : (s.setDomain i x).dos = s.dos := rfl
@[simp] theorem State.setDomain_diGroups (s : State) (i : Nat) (x : Domain) : (s.setDomain i x).diGroups = s.diGroups := rfl
@[simp] theorem State.setDomain_doGroups (s : State) (i : Nat) (x : Domain) : (s.setDomain i x).doGroups = s.doGroups := rfl
@[simp] theorem State.setDomain_cans (s : State) (i : Nat) (x : Domain) : (s.setDomain i x).cans = s.cans := rfl
@[simp] theorem State.setDomain_fire (s : State) (i : Nat) (x : Domain) : (s.setDomain i x).fire = s.fire := rfl
@[simp] theorem State.setDomain_pair (s : State) (i : Nat) (x : Domain) : (s.setDomain i x).pair = s.pair := rfl
@[simp] theorem State.setDomain_totals (s : State) (i : Nat) (x : Domain) : (s.setDomain i x).totals = s.totals := rfl
@[simp] theorem State.setDomain_locks (s : State) (i : Nat) (x : Domain) : (s.setDomain i x).locks = s.locks := rfl
@[simp] theorem State.setDomain_arrays (s : State) (i : Nat) (x : Domain) : (s.setDomain i x).arrays = s.arrays := rfl
@[simp] theorem State.setDomain_raised (s : State) (i : Nat) (x : Domain) : (s.setDomain i x).raised = s.raised := rfl
@[simp] theorem State.setDomain_upsets (s : State) (i : Nat) (x : Domain) : (s.setDomain i x).upsets = s.upsets := rfl
@[simp] theorem State.setDomain_recQueue (s : State) (i : Nat) (x : Domain) : (s.setDomain i x).recQueue = s.recQueue := rfl
@[simp] theorem State.setDomain_mramChecked (s : State) (i : Nat) (x : Domain) : (s.setDomain i x).mramChecked = s.mramChecked := rfl
@[simp] theorem State.setDomain_panel (s : State) (i : Nat) (x : Domain) : (s.setDomain i x).panel = s.panel := rfl
@[simp] theorem State.setDomain_plate (s : State) (i : Nat) (x : Domain) : (s.setDomain i x).plate = s.plate := rfl
@[simp] theorem State.setDomain_ring (s : State) (i : Nat) (x : Domain) : (s.setDomain i x).ring = s.ring := rfl
@[simp] theorem State.setDomain_power (s : State) (i : Nat) (x : Domain) : (s.setDomain i x).power = s.power := rfl
@[simp] theorem State.modDomain_same (s : State) (i : Nat) (f : Domain → Domain) : (s.modDomain i f).domain i = f (s.domain i) := Tab.get_set_same _ _ _ _
theorem State.modDomain_other (s : State) {i j : Nat} (f : Domain → Domain) (h : j ≠ i) : (s.modDomain i f).domain j = s.domain j := Tab.get_set_other _ _ _ h
@[simp] theorem State.modDomain_pending (s : State) (i : Nat) (f : Domain → Domain) : (s.modDomain i f).pending = s.pending := rfl
@[simp] theorem State.modDomain_now (s : State) (i : Nat) (f : Domain → Domain) : (s.modDomain i f).now = s.now := rfl
@[simp] theorem State.modDomain_freeCount (s : State) (i : Nat) (f : Domain → Domain) : (s.modDomain i f).freeCount = s.freeCount := rfl
@[simp] theorem State.modDomain_service (s : State) (i : Nat) (f : Domain → Domain) : (s.modDomain i f).service = s.service := rfl
@[simp] theorem State.modDomain_mram (s : State) (i : Nat) (f : Domain → Domain) : (s.modDomain i f).mram = s.mram := rfl
@[simp] theorem State.modDomain_sup (s : State) (i : Nat) (f : Domain → Domain) : (s.modDomain i f).sup = s.sup := rfl
@[simp] theorem State.modDomain_islands (s : State) (i : Nat) (f : Domain → Domain) : (s.modDomain i f).islands = s.islands := rfl
@[simp] theorem State.modDomain_faultyInterlock (s : State) (i : Nat) (f : Domain → Domain) : (s.modDomain i f).faultyInterlock = s.faultyInterlock := rfl
@[simp] theorem State.modDomain_crossings (s : State) (i : Nat) (f : Domain → Domain) : (s.modDomain i f).crossings = s.crossings := rfl
@[simp] theorem State.modDomain_rounds (s : State) (i : Nat) (f : Domain → Domain) : (s.modDomain i f).rounds = s.rounds := rfl
@[simp] theorem State.modDomain_nextSend (s : State) (i : Nat) (f : Domain → Domain) : (s.modDomain i f).nextSend = s.nextSend := rfl
@[simp] theorem State.modDomain_mismatches (s : State) (i : Nat) (f : Domain → Domain) : (s.modDomain i f).mismatches = s.mismatches := rfl
@[simp] theorem State.modDomain_windowMismatches (s : State) (i : Nat) (f : Domain → Domain) : (s.modDomain i f).windowMismatches = s.windowMismatches := rfl
@[simp] theorem State.modDomain_auditAt (s : State) (i : Nat) (f : Domain → Domain) : (s.modDomain i f).auditAt = s.auditAt := rfl
@[simp] theorem State.modDomain_square (s : State) (i : Nat) (f : Domain → Domain) : (s.modDomain i f).square = s.square := rfl
@[simp] theorem State.modDomain_engines (s : State) (i : Nat) (f : Domain → Domain) : (s.modDomain i f).engines = s.engines := rfl
@[simp] theorem State.modDomain_timers (s : State) (i : Nat) (f : Domain → Domain) : (s.modDomain i f).timers = s.timers := rfl
@[simp] theorem State.modDomain_counters (s : State) (i : Nat) (f : Domain → Domain) : (s.modDomain i f).counters = s.counters := rfl
@[simp] theorem State.modDomain_round (s : State) (i : Nat) (f : Domain → Domain) : (s.modDomain i f).round = s.round := rfl
@[simp] theorem State.modDomain_loop (s : State) (i : Nat) (f : Domain → Domain) : (s.modDomain i f).loop = s.loop := rfl
@[simp] theorem State.modDomain_ucs (s : State) (i : Nat) (f : Domain → Domain) : (s.modDomain i f).ucs = s.ucs := rfl
@[simp] theorem State.modDomain_dis (s : State) (i : Nat) (f : Domain → Domain) : (s.modDomain i f).dis = s.dis := rfl
@[simp] theorem State.modDomain_dos (s : State) (i : Nat) (f : Domain → Domain) : (s.modDomain i f).dos = s.dos := rfl
@[simp] theorem State.modDomain_diGroups (s : State) (i : Nat) (f : Domain → Domain) : (s.modDomain i f).diGroups = s.diGroups := rfl
@[simp] theorem State.modDomain_doGroups (s : State) (i : Nat) (f : Domain → Domain) : (s.modDomain i f).doGroups = s.doGroups := rfl
@[simp] theorem State.modDomain_cans (s : State) (i : Nat) (f : Domain → Domain) : (s.modDomain i f).cans = s.cans := rfl
@[simp] theorem State.modDomain_fire (s : State) (i : Nat) (f : Domain → Domain) : (s.modDomain i f).fire = s.fire := rfl
@[simp] theorem State.modDomain_pair (s : State) (i : Nat) (f : Domain → Domain) : (s.modDomain i f).pair = s.pair := rfl
@[simp] theorem State.modDomain_totals (s : State) (i : Nat) (f : Domain → Domain) : (s.modDomain i f).totals = s.totals := rfl
@[simp] theorem State.modDomain_locks (s : State) (i : Nat) (f : Domain → Domain) : (s.modDomain i f).locks = s.locks := rfl
@[simp] theorem State.modDomain_arrays (s : State) (i : Nat) (f : Domain → Domain) : (s.modDomain i f).arrays = s.arrays := rfl
@[simp] theorem State.modDomain_raised (s : State) (i : Nat) (f : Domain → Domain) : (s.modDomain i f).raised = s.raised := rfl
@[simp] theorem State.modDomain_upsets (s : State) (i : Nat) (f : Domain → Domain) : (s.modDomain i f).upsets = s.upsets := rfl
@[simp] theorem State.modDomain_recQueue (s : State) (i : Nat) (f : Domain → Domain) : (s.modDomain i f).recQueue = s.recQueue := rfl
@[simp] theorem State.modDomain_mramChecked (s : State) (i : Nat) (f : Domain → Domain) : (s.modDomain i f).mramChecked = s.mramChecked := rfl
@[simp] theorem State.modDomain_panel (s : State) (i : Nat) (f : Domain → Domain) : (s.modDomain i f).panel = s.panel := rfl
@[simp] theorem State.modDomain_plate (s : State) (i : Nat) (f : Domain → Domain) : (s.modDomain i f).plate = s.plate := rfl
@[simp] theorem State.modDomain_ring (s : State) (i : Nat) (f : Domain → Domain) : (s.modDomain i f).ring = s.ring := rfl
@[simp] theorem State.modDomain_power (s : State) (i : Nat) (f : Domain → Domain) : (s.modDomain i f).power = s.power := rfl

/-! ### `setCrossing` -/

theorem State.modCrossing_def (s : State) (i : Nat) (f : Crossing → Crossing) : s.modCrossing i f = s.setCrossing i (f (s.crossing i)) := rfl
@[simp] theorem State.setCrossing_same (s : State) (i : Nat) (x : Crossing) : (s.setCrossing i x).crossing i = x := Tab.get_set_same _ _ _ _
theorem State.setCrossing_other (s : State) {i j : Nat} (x : Crossing) (h : j ≠ i) : (s.setCrossing i x).crossing j = s.crossing j := Tab.get_set_other _ _ _ h
@[simp] theorem State.setCrossing_pending (s : State) (i : Nat) (x : Crossing) : (s.setCrossing i x).pending = s.pending := rfl
@[simp] theorem State.setCrossing_now (s : State) (i : Nat) (x : Crossing) : (s.setCrossing i x).now = s.now := rfl
@[simp] theorem State.setCrossing_freeCount (s : State) (i : Nat) (x : Crossing) : (s.setCrossing i x).freeCount = s.freeCount := rfl
@[simp] theorem State.setCrossing_service (s : State) (i : Nat) (x : Crossing) : (s.setCrossing i x).service = s.service := rfl
@[simp] theorem State.setCrossing_mram (s : State) (i : Nat) (x : Crossing) : (s.setCrossing i x).mram = s.mram := rfl
@[simp] theorem State.setCrossing_sup (s : State) (i : Nat) (x : Crossing) : (s.setCrossing i x).sup = s.sup := rfl
@[simp] theorem State.setCrossing_islands (s : State) (i : Nat) (x : Crossing) : (s.setCrossing i x).islands = s.islands := rfl
@[simp] theorem State.setCrossing_faultyInterlock (s : State) (i : Nat) (x : Crossing) : (s.setCrossing i x).faultyInterlock = s.faultyInterlock := rfl
@[simp] theorem State.setCrossing_domains (s : State) (i : Nat) (x : Crossing) : (s.setCrossing i x).domains = s.domains := rfl
@[simp] theorem State.setCrossing_rounds (s : State) (i : Nat) (x : Crossing) : (s.setCrossing i x).rounds = s.rounds := rfl
@[simp] theorem State.setCrossing_nextSend (s : State) (i : Nat) (x : Crossing) : (s.setCrossing i x).nextSend = s.nextSend := rfl
@[simp] theorem State.setCrossing_mismatches (s : State) (i : Nat) (x : Crossing) : (s.setCrossing i x).mismatches = s.mismatches := rfl
@[simp] theorem State.setCrossing_windowMismatches (s : State) (i : Nat) (x : Crossing) : (s.setCrossing i x).windowMismatches = s.windowMismatches := rfl
@[simp] theorem State.setCrossing_auditAt (s : State) (i : Nat) (x : Crossing) : (s.setCrossing i x).auditAt = s.auditAt := rfl
@[simp] theorem State.setCrossing_square (s : State) (i : Nat) (x : Crossing) : (s.setCrossing i x).square = s.square := rfl
@[simp] theorem State.setCrossing_engines (s : State) (i : Nat) (x : Crossing) : (s.setCrossing i x).engines = s.engines := rfl
@[simp] theorem State.setCrossing_timers (s : State) (i : Nat) (x : Crossing) : (s.setCrossing i x).timers = s.timers := rfl
@[simp] theorem State.setCrossing_counters (s : State) (i : Nat) (x : Crossing) : (s.setCrossing i x).counters = s.counters := rfl
@[simp] theorem State.setCrossing_round (s : State) (i : Nat) (x : Crossing) : (s.setCrossing i x).round = s.round := rfl
@[simp] theorem State.setCrossing_loop (s : State) (i : Nat) (x : Crossing) : (s.setCrossing i x).loop = s.loop := rfl
@[simp] theorem State.setCrossing_ucs (s : State) (i : Nat) (x : Crossing) : (s.setCrossing i x).ucs = s.ucs := rfl
@[simp] theorem State.setCrossing_dis (s : State) (i : Nat) (x : Crossing) : (s.setCrossing i x).dis = s.dis := rfl
@[simp] theorem State.setCrossing_dos (s : State) (i : Nat) (x : Crossing) : (s.setCrossing i x).dos = s.dos := rfl
@[simp] theorem State.setCrossing_diGroups (s : State) (i : Nat) (x : Crossing) : (s.setCrossing i x).diGroups = s.diGroups := rfl
@[simp] theorem State.setCrossing_doGroups (s : State) (i : Nat) (x : Crossing) : (s.setCrossing i x).doGroups = s.doGroups := rfl
@[simp] theorem State.setCrossing_cans (s : State) (i : Nat) (x : Crossing) : (s.setCrossing i x).cans = s.cans := rfl
@[simp] theorem State.setCrossing_fire (s : State) (i : Nat) (x : Crossing) : (s.setCrossing i x).fire = s.fire := rfl
@[simp] theorem State.setCrossing_pair (s : State) (i : Nat) (x : Crossing) : (s.setCrossing i x).pair = s.pair := rfl
@[simp] theorem State.setCrossing_totals (s : State) (i : Nat) (x : Crossing) : (s.setCrossing i x).totals = s.totals := rfl
@[simp] theorem State.setCrossing_locks (s : State) (i : Nat) (x : Crossing) : (s.setCrossing i x).locks = s.locks := rfl
@[simp] theorem State.setCrossing_arrays (s : State) (i : Nat) (x : Crossing) : (s.setCrossing i x).arrays = s.arrays := rfl
@[simp] theorem State.setCrossing_raised (s : State) (i : Nat) (x : Crossing) : (s.setCrossing i x).raised = s.raised := rfl
@[simp] theorem State.setCrossing_upsets (s : State) (i : Nat) (x : Crossing) : (s.setCrossing i x).upsets = s.upsets := rfl
@[simp] theorem State.setCrossing_recQueue (s : State) (i : Nat) (x : Crossing) : (s.setCrossing i x).recQueue = s.recQueue := rfl
@[simp] theorem State.setCrossing_mramChecked (s : State) (i : Nat) (x : Crossing) : (s.setCrossing i x).mramChecked = s.mramChecked := rfl
@[simp] theorem State.setCrossing_panel (s : State) (i : Nat) (x : Crossing) : (s.setCrossing i x).panel = s.panel := rfl
@[simp] theorem State.setCrossing_plate (s : State) (i : Nat) (x : Crossing) : (s.setCrossing i x).plate = s.plate := rfl
@[simp] theorem State.setCrossing_ring (s : State) (i : Nat) (x : Crossing) : (s.setCrossing i x).ring = s.ring := rfl
@[simp] theorem State.setCrossing_power (s : State) (i : Nat) (x : Crossing) : (s.setCrossing i x).power = s.power := rfl
@[simp] theorem State.modCrossing_same (s : State) (i : Nat) (f : Crossing → Crossing) : (s.modCrossing i f).crossing i = f (s.crossing i) := Tab.get_set_same _ _ _ _
theorem State.modCrossing_other (s : State) {i j : Nat} (f : Crossing → Crossing) (h : j ≠ i) : (s.modCrossing i f).crossing j = s.crossing j := Tab.get_set_other _ _ _ h
@[simp] theorem State.modCrossing_pending (s : State) (i : Nat) (f : Crossing → Crossing) : (s.modCrossing i f).pending = s.pending := rfl
@[simp] theorem State.modCrossing_now (s : State) (i : Nat) (f : Crossing → Crossing) : (s.modCrossing i f).now = s.now := rfl
@[simp] theorem State.modCrossing_freeCount (s : State) (i : Nat) (f : Crossing → Crossing) : (s.modCrossing i f).freeCount = s.freeCount := rfl
@[simp] theorem State.modCrossing_service (s : State) (i : Nat) (f : Crossing → Crossing) : (s.modCrossing i f).service = s.service := rfl
@[simp] theorem State.modCrossing_mram (s : State) (i : Nat) (f : Crossing → Crossing) : (s.modCrossing i f).mram = s.mram := rfl
@[simp] theorem State.modCrossing_sup (s : State) (i : Nat) (f : Crossing → Crossing) : (s.modCrossing i f).sup = s.sup := rfl
@[simp] theorem State.modCrossing_islands (s : State) (i : Nat) (f : Crossing → Crossing) : (s.modCrossing i f).islands = s.islands := rfl
@[simp] theorem State.modCrossing_faultyInterlock (s : State) (i : Nat) (f : Crossing → Crossing) : (s.modCrossing i f).faultyInterlock = s.faultyInterlock := rfl
@[simp] theorem State.modCrossing_domains (s : State) (i : Nat) (f : Crossing → Crossing) : (s.modCrossing i f).domains = s.domains := rfl
@[simp] theorem State.modCrossing_rounds (s : State) (i : Nat) (f : Crossing → Crossing) : (s.modCrossing i f).rounds = s.rounds := rfl
@[simp] theorem State.modCrossing_nextSend (s : State) (i : Nat) (f : Crossing → Crossing) : (s.modCrossing i f).nextSend = s.nextSend := rfl
@[simp] theorem State.modCrossing_mismatches (s : State) (i : Nat) (f : Crossing → Crossing) : (s.modCrossing i f).mismatches = s.mismatches := rfl
@[simp] theorem State.modCrossing_windowMismatches (s : State) (i : Nat) (f : Crossing → Crossing) : (s.modCrossing i f).windowMismatches = s.windowMismatches := rfl
@[simp] theorem State.modCrossing_auditAt (s : State) (i : Nat) (f : Crossing → Crossing) : (s.modCrossing i f).auditAt = s.auditAt := rfl
@[simp] theorem State.modCrossing_square (s : State) (i : Nat) (f : Crossing → Crossing) : (s.modCrossing i f).square = s.square := rfl
@[simp] theorem State.modCrossing_engines (s : State) (i : Nat) (f : Crossing → Crossing) : (s.modCrossing i f).engines = s.engines := rfl
@[simp] theorem State.modCrossing_timers (s : State) (i : Nat) (f : Crossing → Crossing) : (s.modCrossing i f).timers = s.timers := rfl
@[simp] theorem State.modCrossing_counters (s : State) (i : Nat) (f : Crossing → Crossing) : (s.modCrossing i f).counters = s.counters := rfl
@[simp] theorem State.modCrossing_round (s : State) (i : Nat) (f : Crossing → Crossing) : (s.modCrossing i f).round = s.round := rfl
@[simp] theorem State.modCrossing_loop (s : State) (i : Nat) (f : Crossing → Crossing) : (s.modCrossing i f).loop = s.loop := rfl
@[simp] theorem State.modCrossing_ucs (s : State) (i : Nat) (f : Crossing → Crossing) : (s.modCrossing i f).ucs = s.ucs := rfl
@[simp] theorem State.modCrossing_dis (s : State) (i : Nat) (f : Crossing → Crossing) : (s.modCrossing i f).dis = s.dis := rfl
@[simp] theorem State.modCrossing_dos (s : State) (i : Nat) (f : Crossing → Crossing) : (s.modCrossing i f).dos = s.dos := rfl
@[simp] theorem State.modCrossing_diGroups (s : State) (i : Nat) (f : Crossing → Crossing) : (s.modCrossing i f).diGroups = s.diGroups := rfl
@[simp] theorem State.modCrossing_doGroups (s : State) (i : Nat) (f : Crossing → Crossing) : (s.modCrossing i f).doGroups = s.doGroups := rfl
@[simp] theorem State.modCrossing_cans (s : State) (i : Nat) (f : Crossing → Crossing) : (s.modCrossing i f).cans = s.cans := rfl
@[simp] theorem State.modCrossing_fire (s : State) (i : Nat) (f : Crossing → Crossing) : (s.modCrossing i f).fire = s.fire := rfl
@[simp] theorem State.modCrossing_pair (s : State) (i : Nat) (f : Crossing → Crossing) : (s.modCrossing i f).pair = s.pair := rfl
@[simp] theorem State.modCrossing_totals (s : State) (i : Nat) (f : Crossing → Crossing) : (s.modCrossing i f).totals = s.totals := rfl
@[simp] theorem State.modCrossing_locks (s : State) (i : Nat) (f : Crossing → Crossing) : (s.modCrossing i f).locks = s.locks := rfl
@[simp] theorem State.modCrossing_arrays (s : State) (i : Nat) (f : Crossing → Crossing) : (s.modCrossing i f).arrays = s.arrays := rfl
@[simp] theorem State.modCrossing_raised (s : State) (i : Nat) (f : Crossing → Crossing) : (s.modCrossing i f).raised = s.raised := rfl
@[simp] theorem State.modCrossing_upsets (s : State) (i : Nat) (f : Crossing → Crossing) : (s.modCrossing i f).upsets = s.upsets := rfl
@[simp] theorem State.modCrossing_recQueue (s : State) (i : Nat) (f : Crossing → Crossing) : (s.modCrossing i f).recQueue = s.recQueue := rfl
@[simp] theorem State.modCrossing_mramChecked (s : State) (i : Nat) (f : Crossing → Crossing) : (s.modCrossing i f).mramChecked = s.mramChecked := rfl
@[simp] theorem State.modCrossing_panel (s : State) (i : Nat) (f : Crossing → Crossing) : (s.modCrossing i f).panel = s.panel := rfl
@[simp] theorem State.modCrossing_plate (s : State) (i : Nat) (f : Crossing → Crossing) : (s.modCrossing i f).plate = s.plate := rfl
@[simp] theorem State.modCrossing_ring (s : State) (i : Nat) (f : Crossing → Crossing) : (s.modCrossing i f).ring = s.ring := rfl
@[simp] theorem State.modCrossing_power (s : State) (i : Nat) (f : Crossing → Crossing) : (s.modCrossing i f).power = s.power := rfl

/-! ### `setSource` -/

theorem State.modSource_def (s : State) (i : Nat) (f : Source → Source) : s.modSource i f = s.setSource i (f (s.source i)) := rfl
@[simp] theorem State.setSource_same (s : State) (i : Nat) (x : Source) : (s.setSource i x).source i = x := Tab.get_set_same _ _ _ _
theorem State.setSource_other (s : State) {i j : Nat} (x : Source) (h : j ≠ i) : (s.setSource i x).source j = s.source j := Tab.get_set_other _ _ _ h
@[simp] theorem State.setSource_pending (s : State) (i : Nat) (x : Source) : (s.setSource i x).pending = s.pending := rfl
@[simp] theorem State.setSource_now (s : State) (i : Nat) (x : Source) : (s.setSource i x).now = s.now := rfl
@[simp] theorem State.setSource_freeCount (s : State) (i : Nat) (x : Source) : (s.setSource i x).freeCount = s.freeCount := rfl
@[simp] theorem State.setSource_service (s : State) (i : Nat) (x : Source) : (s.setSource i x).service = s.service := rfl
@[simp] theorem State.setSource_mram (s : State) (i : Nat) (x : Source) : (s.setSource i x).mram = s.mram := rfl
@[simp] theorem State.setSource_sup (s : State) (i : Nat) (x : Source) : (s.setSource i x).sup = s.sup := rfl
@[simp] theorem State.setSource_islands (s : State) (i : Nat) (x : Source) : (s.setSource i x).islands = s.islands := rfl
@[simp] theorem State.setSource_faultyInterlock (s : State) (i : Nat) (x : Source) : (s.setSource i x).faultyInterlock = s.faultyInterlock := rfl
@[simp] theorem State.setSource_domains (s : State) (i : Nat) (x : Source) : (s.setSource i x).domains = s.domains := rfl
@[simp] theorem State.setSource_crossings (s : State) (i : Nat) (x : Source) : (s.setSource i x).crossings = s.crossings := rfl
@[simp] theorem State.setSource_rounds (s : State) (i : Nat) (x : Source) : (s.setSource i x).rounds = s.rounds := rfl
@[simp] theorem State.setSource_nextSend (s : State) (i : Nat) (x : Source) : (s.setSource i x).nextSend = s.nextSend := rfl
@[simp] theorem State.setSource_mismatches (s : State) (i : Nat) (x : Source) : (s.setSource i x).mismatches = s.mismatches := rfl
@[simp] theorem State.setSource_windowMismatches (s : State) (i : Nat) (x : Source) : (s.setSource i x).windowMismatches = s.windowMismatches := rfl
@[simp] theorem State.setSource_auditAt (s : State) (i : Nat) (x : Source) : (s.setSource i x).auditAt = s.auditAt := rfl
@[simp] theorem State.setSource_square (s : State) (i : Nat) (x : Source) : (s.setSource i x).square = s.square := rfl
@[simp] theorem State.setSource_engines (s : State) (i : Nat) (x : Source) : (s.setSource i x).engines = s.engines := rfl
@[simp] theorem State.setSource_timers (s : State) (i : Nat) (x : Source) : (s.setSource i x).timers = s.timers := rfl
@[simp] theorem State.setSource_counters (s : State) (i : Nat) (x : Source) : (s.setSource i x).counters = s.counters := rfl
@[simp] theorem State.setSource_loop (s : State) (i : Nat) (x : Source) : (s.setSource i x).loop = s.loop := rfl
@[simp] theorem State.setSource_ucs (s : State) (i : Nat) (x : Source) : (s.setSource i x).ucs = s.ucs := rfl
@[simp] theorem State.setSource_dis (s : State) (i : Nat) (x : Source) : (s.setSource i x).dis = s.dis := rfl
@[simp] theorem State.setSource_dos (s : State) (i : Nat) (x : Source) : (s.setSource i x).dos = s.dos := rfl
@[simp] theorem State.setSource_diGroups (s : State) (i : Nat) (x : Source) : (s.setSource i x).diGroups = s.diGroups := rfl
@[simp] theorem State.setSource_doGroups (s : State) (i : Nat) (x : Source) : (s.setSource i x).doGroups = s.doGroups := rfl
@[simp] theorem State.setSource_cans (s : State) (i : Nat) (x : Source) : (s.setSource i x).cans = s.cans := rfl
@[simp] theorem State.setSource_fire (s : State) (i : Nat) (x : Source) : (s.setSource i x).fire = s.fire := rfl
@[simp] theorem State.setSource_pair (s : State) (i : Nat) (x : Source) : (s.setSource i x).pair = s.pair := rfl
@[simp] theorem State.setSource_totals (s : State) (i : Nat) (x : Source) : (s.setSource i x).totals = s.totals := rfl
@[simp] theorem State.setSource_locks (s : State) (i : Nat) (x : Source) : (s.setSource i x).locks = s.locks := rfl
@[simp] theorem State.setSource_arrays (s : State) (i : Nat) (x : Source) : (s.setSource i x).arrays = s.arrays := rfl
@[simp] theorem State.setSource_raised (s : State) (i : Nat) (x : Source) : (s.setSource i x).raised = s.raised := rfl
@[simp] theorem State.setSource_upsets (s : State) (i : Nat) (x : Source) : (s.setSource i x).upsets = s.upsets := rfl
@[simp] theorem State.setSource_recQueue (s : State) (i : Nat) (x : Source) : (s.setSource i x).recQueue = s.recQueue := rfl
@[simp] theorem State.setSource_mramChecked (s : State) (i : Nat) (x : Source) : (s.setSource i x).mramChecked = s.mramChecked := rfl
@[simp] theorem State.setSource_panel (s : State) (i : Nat) (x : Source) : (s.setSource i x).panel = s.panel := rfl
@[simp] theorem State.setSource_plate (s : State) (i : Nat) (x : Source) : (s.setSource i x).plate = s.plate := rfl
@[simp] theorem State.setSource_ring (s : State) (i : Nat) (x : Source) : (s.setSource i x).ring = s.ring := rfl
@[simp] theorem State.setSource_power (s : State) (i : Nat) (x : Source) : (s.setSource i x).power = s.power := rfl
@[simp] theorem State.setSource_round_groups (s : State) (i : Nat) (x : Source) : (s.setSource i x).round.groups = s.round.groups := rfl
@[simp] theorem State.setSource_round_slots (s : State) (i : Nat) (x : Source) : (s.setSource i x).round.slots = s.round.slots := rfl
@[simp] theorem State.setSource_round_firings (s : State) (i : Nat) (x : Source) : (s.setSource i x).round.firings = s.round.firings := rfl
@[simp] theorem State.setSource_round_newBinding (s : State) (i : Nat) (x : Source) : (s.setSource i x).round.newBinding = s.round.newBinding := rfl
@[simp] theorem State.setSource_round_parked (s : State) (i : Nat) (x : Source) : (s.setSource i x).round.parked = s.round.parked := rfl
@[simp] theorem State.setSource_round_blockMisses (s : State) (i : Nat) (x : Source) : (s.setSource i x).round.blockMisses = s.round.blockMisses := rfl
@[simp] theorem State.modSource_same (s : State) (i : Nat) (f : Source → Source) : (s.modSource i f).source i = f (s.source i) := Tab.get_set_same _ _ _ _
theorem State.modSource_other (s : State) {i j : Nat} (f : Source → Source) (h : j ≠ i) : (s.modSource i f).source j = s.source j := Tab.get_set_other _ _ _ h
@[simp] theorem State.modSource_pending (s : State) (i : Nat) (f : Source → Source) : (s.modSource i f).pending = s.pending := rfl
@[simp] theorem State.modSource_now (s : State) (i : Nat) (f : Source → Source) : (s.modSource i f).now = s.now := rfl
@[simp] theorem State.modSource_freeCount (s : State) (i : Nat) (f : Source → Source) : (s.modSource i f).freeCount = s.freeCount := rfl
@[simp] theorem State.modSource_service (s : State) (i : Nat) (f : Source → Source) : (s.modSource i f).service = s.service := rfl
@[simp] theorem State.modSource_mram (s : State) (i : Nat) (f : Source → Source) : (s.modSource i f).mram = s.mram := rfl
@[simp] theorem State.modSource_sup (s : State) (i : Nat) (f : Source → Source) : (s.modSource i f).sup = s.sup := rfl
@[simp] theorem State.modSource_islands (s : State) (i : Nat) (f : Source → Source) : (s.modSource i f).islands = s.islands := rfl
@[simp] theorem State.modSource_faultyInterlock (s : State) (i : Nat) (f : Source → Source) : (s.modSource i f).faultyInterlock = s.faultyInterlock := rfl
@[simp] theorem State.modSource_domains (s : State) (i : Nat) (f : Source → Source) : (s.modSource i f).domains = s.domains := rfl
@[simp] theorem State.modSource_crossings (s : State) (i : Nat) (f : Source → Source) : (s.modSource i f).crossings = s.crossings := rfl
@[simp] theorem State.modSource_rounds (s : State) (i : Nat) (f : Source → Source) : (s.modSource i f).rounds = s.rounds := rfl
@[simp] theorem State.modSource_nextSend (s : State) (i : Nat) (f : Source → Source) : (s.modSource i f).nextSend = s.nextSend := rfl
@[simp] theorem State.modSource_mismatches (s : State) (i : Nat) (f : Source → Source) : (s.modSource i f).mismatches = s.mismatches := rfl
@[simp] theorem State.modSource_windowMismatches (s : State) (i : Nat) (f : Source → Source) : (s.modSource i f).windowMismatches = s.windowMismatches := rfl
@[simp] theorem State.modSource_auditAt (s : State) (i : Nat) (f : Source → Source) : (s.modSource i f).auditAt = s.auditAt := rfl
@[simp] theorem State.modSource_square (s : State) (i : Nat) (f : Source → Source) : (s.modSource i f).square = s.square := rfl
@[simp] theorem State.modSource_engines (s : State) (i : Nat) (f : Source → Source) : (s.modSource i f).engines = s.engines := rfl
@[simp] theorem State.modSource_timers (s : State) (i : Nat) (f : Source → Source) : (s.modSource i f).timers = s.timers := rfl
@[simp] theorem State.modSource_counters (s : State) (i : Nat) (f : Source → Source) : (s.modSource i f).counters = s.counters := rfl
@[simp] theorem State.modSource_loop (s : State) (i : Nat) (f : Source → Source) : (s.modSource i f).loop = s.loop := rfl
@[simp] theorem State.modSource_ucs (s : State) (i : Nat) (f : Source → Source) : (s.modSource i f).ucs = s.ucs := rfl
@[simp] theorem State.modSource_dis (s : State) (i : Nat) (f : Source → Source) : (s.modSource i f).dis = s.dis := rfl
@[simp] theorem State.modSource_dos (s : State) (i : Nat) (f : Source → Source) : (s.modSource i f).dos = s.dos := rfl
@[simp] theorem State.modSource_diGroups (s : State) (i : Nat) (f : Source → Source) : (s.modSource i f).diGroups = s.diGroups := rfl
@[simp] theorem State.modSource_doGroups (s : State) (i : Nat) (f : Source → Source) : (s.modSource i f).doGroups = s.doGroups := rfl
@[simp] theorem State.modSource_cans (s : State) (i : Nat) (f : Source → Source) : (s.modSource i f).cans = s.cans := rfl
@[simp] theorem State.modSource_fire (s : State) (i : Nat) (f : Source → Source) : (s.modSource i f).fire = s.fire := rfl
@[simp] theorem State.modSource_pair (s : State) (i : Nat) (f : Source → Source) : (s.modSource i f).pair = s.pair := rfl
@[simp] theorem State.modSource_totals (s : State) (i : Nat) (f : Source → Source) : (s.modSource i f).totals = s.totals := rfl
@[simp] theorem State.modSource_locks (s : State) (i : Nat) (f : Source → Source) : (s.modSource i f).locks = s.locks := rfl
@[simp] theorem State.modSource_arrays (s : State) (i : Nat) (f : Source → Source) : (s.modSource i f).arrays = s.arrays := rfl
@[simp] theorem State.modSource_raised (s : State) (i : Nat) (f : Source → Source) : (s.modSource i f).raised = s.raised := rfl
@[simp] theorem State.modSource_upsets (s : State) (i : Nat) (f : Source → Source) : (s.modSource i f).upsets = s.upsets := rfl
@[simp] theorem State.modSource_recQueue (s : State) (i : Nat) (f : Source → Source) : (s.modSource i f).recQueue = s.recQueue := rfl
@[simp] theorem State.modSource_mramChecked (s : State) (i : Nat) (f : Source → Source) : (s.modSource i f).mramChecked = s.mramChecked := rfl
@[simp] theorem State.modSource_panel (s : State) (i : Nat) (f : Source → Source) : (s.modSource i f).panel = s.panel := rfl
@[simp] theorem State.modSource_plate (s : State) (i : Nat) (f : Source → Source) : (s.modSource i f).plate = s.plate := rfl
@[simp] theorem State.modSource_ring (s : State) (i : Nat) (f : Source → Source) : (s.modSource i f).ring = s.ring := rfl
@[simp] theorem State.modSource_power (s : State) (i : Nat) (f : Source → Source) : (s.modSource i f).power = s.power := rfl

/-! ### `setGroup` -/

theorem State.modGroup_def (s : State) (i : Nat) (f : Group → Group) : s.modGroup i f = s.setGroup i (f (s.group i)) := rfl
@[simp] theorem State.setGroup_same (s : State) (i : Nat) (x : Group) : (s.setGroup i x).group i = x := Tab.get_set_same _ _ _ _
theorem State.setGroup_other (s : State) {i j : Nat} (x : Group) (h : j ≠ i) : (s.setGroup i x).group j = s.group j := Tab.get_set_other _ _ _ h
@[simp] theorem State.setGroup_pending (s : State) (i : Nat) (x : Group) : (s.setGroup i x).pending = s.pending := rfl
@[simp] theorem State.setGroup_now (s : State) (i : Nat) (x : Group) : (s.setGroup i x).now = s.now := rfl
@[simp] theorem State.setGroup_freeCount (s : State) (i : Nat) (x : Group) : (s.setGroup i x).freeCount = s.freeCount := rfl
@[simp] theorem State.setGroup_service (s : State) (i : Nat) (x : Group) : (s.setGroup i x).service = s.service := rfl
@[simp] theorem State.setGroup_mram (s : State) (i : Nat) (x : Group) : (s.setGroup i x).mram = s.mram := rfl
@[simp] theorem State.setGroup_sup (s : State) (i : Nat) (x : Group) : (s.setGroup i x).sup = s.sup := rfl
@[simp] theorem State.setGroup_islands (s : State) (i : Nat) (x : Group) : (s.setGroup i x).islands = s.islands := rfl
@[simp] theorem State.setGroup_faultyInterlock (s : State) (i : Nat) (x : Group) : (s.setGroup i x).faultyInterlock = s.faultyInterlock := rfl
@[simp] theorem State.setGroup_domains (s : State) (i : Nat) (x : Group) : (s.setGroup i x).domains = s.domains := rfl
@[simp] theorem State.setGroup_crossings (s : State) (i : Nat) (x : Group) : (s.setGroup i x).crossings = s.crossings := rfl
@[simp] theorem State.setGroup_rounds (s : State) (i : Nat) (x : Group) : (s.setGroup i x).rounds = s.rounds := rfl
@[simp] theorem State.setGroup_nextSend (s : State) (i : Nat) (x : Group) : (s.setGroup i x).nextSend = s.nextSend := rfl
@[simp] theorem State.setGroup_mismatches (s : State) (i : Nat) (x : Group) : (s.setGroup i x).mismatches = s.mismatches := rfl
@[simp] theorem State.setGroup_windowMismatches (s : State) (i : Nat) (x : Group) : (s.setGroup i x).windowMismatches = s.windowMismatches := rfl
@[simp] theorem State.setGroup_auditAt (s : State) (i : Nat) (x : Group) : (s.setGroup i x).auditAt = s.auditAt := rfl
@[simp] theorem State.setGroup_square (s : State) (i : Nat) (x : Group) : (s.setGroup i x).square = s.square := rfl
@[simp] theorem State.setGroup_engines (s : State) (i : Nat) (x : Group) : (s.setGroup i x).engines = s.engines := rfl
@[simp] theorem State.setGroup_timers (s : State) (i : Nat) (x : Group) : (s.setGroup i x).timers = s.timers := rfl
@[simp] theorem State.setGroup_counters (s : State) (i : Nat) (x : Group) : (s.setGroup i x).counters = s.counters := rfl
@[simp] theorem State.setGroup_loop (s : State) (i : Nat) (x : Group) : (s.setGroup i x).loop = s.loop := rfl
@[simp] theorem State.setGroup_ucs (s : State) (i : Nat) (x : Group) : (s.setGroup i x).ucs = s.ucs := rfl
@[simp] theorem State.setGroup_dis (s : State) (i : Nat) (x : Group) : (s.setGroup i x).dis = s.dis := rfl
@[simp] theorem State.setGroup_dos (s : State) (i : Nat) (x : Group) : (s.setGroup i x).dos = s.dos := rfl
@[simp] theorem State.setGroup_diGroups (s : State) (i : Nat) (x : Group) : (s.setGroup i x).diGroups = s.diGroups := rfl
@[simp] theorem State.setGroup_doGroups (s : State) (i : Nat) (x : Group) : (s.setGroup i x).doGroups = s.doGroups := rfl
@[simp] theorem State.setGroup_cans (s : State) (i : Nat) (x : Group) : (s.setGroup i x).cans = s.cans := rfl
@[simp] theorem State.setGroup_fire (s : State) (i : Nat) (x : Group) : (s.setGroup i x).fire = s.fire := rfl
@[simp] theorem State.setGroup_pair (s : State) (i : Nat) (x : Group) : (s.setGroup i x).pair = s.pair := rfl
@[simp] theorem State.setGroup_totals (s : State) (i : Nat) (x : Group) : (s.setGroup i x).totals = s.totals := rfl
@[simp] theorem State.setGroup_locks (s : State) (i : Nat) (x : Group) : (s.setGroup i x).locks = s.locks := rfl
@[simp] theorem State.setGroup_arrays (s : State) (i : Nat) (x : Group) : (s.setGroup i x).arrays = s.arrays := rfl
@[simp] theorem State.setGroup_raised (s : State) (i : Nat) (x : Group) : (s.setGroup i x).raised = s.raised := rfl
@[simp] theorem State.setGroup_upsets (s : State) (i : Nat) (x : Group) : (s.setGroup i x).upsets = s.upsets := rfl
@[simp] theorem State.setGroup_recQueue (s : State) (i : Nat) (x : Group) : (s.setGroup i x).recQueue = s.recQueue := rfl
@[simp] theorem State.setGroup_mramChecked (s : State) (i : Nat) (x : Group) : (s.setGroup i x).mramChecked = s.mramChecked := rfl
@[simp] theorem State.setGroup_panel (s : State) (i : Nat) (x : Group) : (s.setGroup i x).panel = s.panel := rfl
@[simp] theorem State.setGroup_plate (s : State) (i : Nat) (x : Group) : (s.setGroup i x).plate = s.plate := rfl
@[simp] theorem State.setGroup_ring (s : State) (i : Nat) (x : Group) : (s.setGroup i x).ring = s.ring := rfl
@[simp] theorem State.setGroup_power (s : State) (i : Nat) (x : Group) : (s.setGroup i x).power = s.power := rfl
@[simp] theorem State.setGroup_round_sources (s : State) (i : Nat) (x : Group) : (s.setGroup i x).round.sources = s.round.sources := rfl
@[simp] theorem State.setGroup_round_slots (s : State) (i : Nat) (x : Group) : (s.setGroup i x).round.slots = s.round.slots := rfl
@[simp] theorem State.setGroup_round_firings (s : State) (i : Nat) (x : Group) : (s.setGroup i x).round.firings = s.round.firings := rfl
@[simp] theorem State.setGroup_round_newBinding (s : State) (i : Nat) (x : Group) : (s.setGroup i x).round.newBinding = s.round.newBinding := rfl
@[simp] theorem State.setGroup_round_parked (s : State) (i : Nat) (x : Group) : (s.setGroup i x).round.parked = s.round.parked := rfl
@[simp] theorem State.setGroup_round_blockMisses (s : State) (i : Nat) (x : Group) : (s.setGroup i x).round.blockMisses = s.round.blockMisses := rfl
@[simp] theorem State.modGroup_same (s : State) (i : Nat) (f : Group → Group) : (s.modGroup i f).group i = f (s.group i) := Tab.get_set_same _ _ _ _
theorem State.modGroup_other (s : State) {i j : Nat} (f : Group → Group) (h : j ≠ i) : (s.modGroup i f).group j = s.group j := Tab.get_set_other _ _ _ h
@[simp] theorem State.modGroup_pending (s : State) (i : Nat) (f : Group → Group) : (s.modGroup i f).pending = s.pending := rfl
@[simp] theorem State.modGroup_now (s : State) (i : Nat) (f : Group → Group) : (s.modGroup i f).now = s.now := rfl
@[simp] theorem State.modGroup_freeCount (s : State) (i : Nat) (f : Group → Group) : (s.modGroup i f).freeCount = s.freeCount := rfl
@[simp] theorem State.modGroup_service (s : State) (i : Nat) (f : Group → Group) : (s.modGroup i f).service = s.service := rfl
@[simp] theorem State.modGroup_mram (s : State) (i : Nat) (f : Group → Group) : (s.modGroup i f).mram = s.mram := rfl
@[simp] theorem State.modGroup_sup (s : State) (i : Nat) (f : Group → Group) : (s.modGroup i f).sup = s.sup := rfl
@[simp] theorem State.modGroup_islands (s : State) (i : Nat) (f : Group → Group) : (s.modGroup i f).islands = s.islands := rfl
@[simp] theorem State.modGroup_faultyInterlock (s : State) (i : Nat) (f : Group → Group) : (s.modGroup i f).faultyInterlock = s.faultyInterlock := rfl
@[simp] theorem State.modGroup_domains (s : State) (i : Nat) (f : Group → Group) : (s.modGroup i f).domains = s.domains := rfl
@[simp] theorem State.modGroup_crossings (s : State) (i : Nat) (f : Group → Group) : (s.modGroup i f).crossings = s.crossings := rfl
@[simp] theorem State.modGroup_rounds (s : State) (i : Nat) (f : Group → Group) : (s.modGroup i f).rounds = s.rounds := rfl
@[simp] theorem State.modGroup_nextSend (s : State) (i : Nat) (f : Group → Group) : (s.modGroup i f).nextSend = s.nextSend := rfl
@[simp] theorem State.modGroup_mismatches (s : State) (i : Nat) (f : Group → Group) : (s.modGroup i f).mismatches = s.mismatches := rfl
@[simp] theorem State.modGroup_windowMismatches (s : State) (i : Nat) (f : Group → Group) : (s.modGroup i f).windowMismatches = s.windowMismatches := rfl
@[simp] theorem State.modGroup_auditAt (s : State) (i : Nat) (f : Group → Group) : (s.modGroup i f).auditAt = s.auditAt := rfl
@[simp] theorem State.modGroup_square (s : State) (i : Nat) (f : Group → Group) : (s.modGroup i f).square = s.square := rfl
@[simp] theorem State.modGroup_engines (s : State) (i : Nat) (f : Group → Group) : (s.modGroup i f).engines = s.engines := rfl
@[simp] theorem State.modGroup_timers (s : State) (i : Nat) (f : Group → Group) : (s.modGroup i f).timers = s.timers := rfl
@[simp] theorem State.modGroup_counters (s : State) (i : Nat) (f : Group → Group) : (s.modGroup i f).counters = s.counters := rfl
@[simp] theorem State.modGroup_loop (s : State) (i : Nat) (f : Group → Group) : (s.modGroup i f).loop = s.loop := rfl
@[simp] theorem State.modGroup_ucs (s : State) (i : Nat) (f : Group → Group) : (s.modGroup i f).ucs = s.ucs := rfl
@[simp] theorem State.modGroup_dis (s : State) (i : Nat) (f : Group → Group) : (s.modGroup i f).dis = s.dis := rfl
@[simp] theorem State.modGroup_dos (s : State) (i : Nat) (f : Group → Group) : (s.modGroup i f).dos = s.dos := rfl
@[simp] theorem State.modGroup_diGroups (s : State) (i : Nat) (f : Group → Group) : (s.modGroup i f).diGroups = s.diGroups := rfl
@[simp] theorem State.modGroup_doGroups (s : State) (i : Nat) (f : Group → Group) : (s.modGroup i f).doGroups = s.doGroups := rfl
@[simp] theorem State.modGroup_cans (s : State) (i : Nat) (f : Group → Group) : (s.modGroup i f).cans = s.cans := rfl
@[simp] theorem State.modGroup_fire (s : State) (i : Nat) (f : Group → Group) : (s.modGroup i f).fire = s.fire := rfl
@[simp] theorem State.modGroup_pair (s : State) (i : Nat) (f : Group → Group) : (s.modGroup i f).pair = s.pair := rfl
@[simp] theorem State.modGroup_totals (s : State) (i : Nat) (f : Group → Group) : (s.modGroup i f).totals = s.totals := rfl
@[simp] theorem State.modGroup_locks (s : State) (i : Nat) (f : Group → Group) : (s.modGroup i f).locks = s.locks := rfl
@[simp] theorem State.modGroup_arrays (s : State) (i : Nat) (f : Group → Group) : (s.modGroup i f).arrays = s.arrays := rfl
@[simp] theorem State.modGroup_raised (s : State) (i : Nat) (f : Group → Group) : (s.modGroup i f).raised = s.raised := rfl
@[simp] theorem State.modGroup_upsets (s : State) (i : Nat) (f : Group → Group) : (s.modGroup i f).upsets = s.upsets := rfl
@[simp] theorem State.modGroup_recQueue (s : State) (i : Nat) (f : Group → Group) : (s.modGroup i f).recQueue = s.recQueue := rfl
@[simp] theorem State.modGroup_mramChecked (s : State) (i : Nat) (f : Group → Group) : (s.modGroup i f).mramChecked = s.mramChecked := rfl
@[simp] theorem State.modGroup_panel (s : State) (i : Nat) (f : Group → Group) : (s.modGroup i f).panel = s.panel := rfl
@[simp] theorem State.modGroup_plate (s : State) (i : Nat) (f : Group → Group) : (s.modGroup i f).plate = s.plate := rfl
@[simp] theorem State.modGroup_ring (s : State) (i : Nat) (f : Group → Group) : (s.modGroup i f).ring = s.ring := rfl
@[simp] theorem State.modGroup_power (s : State) (i : Nat) (f : Group → Group) : (s.modGroup i f).power = s.power := rfl

/-! ### `setSlot` -/

theorem State.modSlot_def (s : State) (i : Nat) (f : Slot → Slot) : s.modSlot i f = s.setSlot i (f (s.slot i)) := rfl
@[simp] theorem State.setSlot_same (s : State) (i : Nat) (x : Slot) : (s.setSlot i x).slot i = x := Tab.get_set_same _ _ _ _
theorem State.setSlot_other (s : State) {i j : Nat} (x : Slot) (h : j ≠ i) : (s.setSlot i x).slot j = s.slot j := Tab.get_set_other _ _ _ h
@[simp] theorem State.setSlot_pending (s : State) (i : Nat) (x : Slot) : (s.setSlot i x).pending = s.pending := rfl
@[simp] theorem State.setSlot_now (s : State) (i : Nat) (x : Slot) : (s.setSlot i x).now = s.now := rfl
@[simp] theorem State.setSlot_freeCount (s : State) (i : Nat) (x : Slot) : (s.setSlot i x).freeCount = s.freeCount := rfl
@[simp] theorem State.setSlot_service (s : State) (i : Nat) (x : Slot) : (s.setSlot i x).service = s.service := rfl
@[simp] theorem State.setSlot_mram (s : State) (i : Nat) (x : Slot) : (s.setSlot i x).mram = s.mram := rfl
@[simp] theorem State.setSlot_sup (s : State) (i : Nat) (x : Slot) : (s.setSlot i x).sup = s.sup := rfl
@[simp] theorem State.setSlot_islands (s : State) (i : Nat) (x : Slot) : (s.setSlot i x).islands = s.islands := rfl
@[simp] theorem State.setSlot_faultyInterlock (s : State) (i : Nat) (x : Slot) : (s.setSlot i x).faultyInterlock = s.faultyInterlock := rfl
@[simp] theorem State.setSlot_domains (s : State) (i : Nat) (x : Slot) : (s.setSlot i x).domains = s.domains := rfl
@[simp] theorem State.setSlot_crossings (s : State) (i : Nat) (x : Slot) : (s.setSlot i x).crossings = s.crossings := rfl
@[simp] theorem State.setSlot_rounds (s : State) (i : Nat) (x : Slot) : (s.setSlot i x).rounds = s.rounds := rfl
@[simp] theorem State.setSlot_nextSend (s : State) (i : Nat) (x : Slot) : (s.setSlot i x).nextSend = s.nextSend := rfl
@[simp] theorem State.setSlot_mismatches (s : State) (i : Nat) (x : Slot) : (s.setSlot i x).mismatches = s.mismatches := rfl
@[simp] theorem State.setSlot_windowMismatches (s : State) (i : Nat) (x : Slot) : (s.setSlot i x).windowMismatches = s.windowMismatches := rfl
@[simp] theorem State.setSlot_auditAt (s : State) (i : Nat) (x : Slot) : (s.setSlot i x).auditAt = s.auditAt := rfl
@[simp] theorem State.setSlot_square (s : State) (i : Nat) (x : Slot) : (s.setSlot i x).square = s.square := rfl
@[simp] theorem State.setSlot_engines (s : State) (i : Nat) (x : Slot) : (s.setSlot i x).engines = s.engines := rfl
@[simp] theorem State.setSlot_timers (s : State) (i : Nat) (x : Slot) : (s.setSlot i x).timers = s.timers := rfl
@[simp] theorem State.setSlot_counters (s : State) (i : Nat) (x : Slot) : (s.setSlot i x).counters = s.counters := rfl
@[simp] theorem State.setSlot_loop (s : State) (i : Nat) (x : Slot) : (s.setSlot i x).loop = s.loop := rfl
@[simp] theorem State.setSlot_ucs (s : State) (i : Nat) (x : Slot) : (s.setSlot i x).ucs = s.ucs := rfl
@[simp] theorem State.setSlot_dis (s : State) (i : Nat) (x : Slot) : (s.setSlot i x).dis = s.dis := rfl
@[simp] theorem State.setSlot_dos (s : State) (i : Nat) (x : Slot) : (s.setSlot i x).dos = s.dos := rfl
@[simp] theorem State.setSlot_diGroups (s : State) (i : Nat) (x : Slot) : (s.setSlot i x).diGroups = s.diGroups := rfl
@[simp] theorem State.setSlot_doGroups (s : State) (i : Nat) (x : Slot) : (s.setSlot i x).doGroups = s.doGroups := rfl
@[simp] theorem State.setSlot_cans (s : State) (i : Nat) (x : Slot) : (s.setSlot i x).cans = s.cans := rfl
@[simp] theorem State.setSlot_fire (s : State) (i : Nat) (x : Slot) : (s.setSlot i x).fire = s.fire := rfl
@[simp] theorem State.setSlot_pair (s : State) (i : Nat) (x : Slot) : (s.setSlot i x).pair = s.pair := rfl
@[simp] theorem State.setSlot_totals (s : State) (i : Nat) (x : Slot) : (s.setSlot i x).totals = s.totals := rfl
@[simp] theorem State.setSlot_locks (s : State) (i : Nat) (x : Slot) : (s.setSlot i x).locks = s.locks := rfl
@[simp] theorem State.setSlot_arrays (s : State) (i : Nat) (x : Slot) : (s.setSlot i x).arrays = s.arrays := rfl
@[simp] theorem State.setSlot_raised (s : State) (i : Nat) (x : Slot) : (s.setSlot i x).raised = s.raised := rfl
@[simp] theorem State.setSlot_upsets (s : State) (i : Nat) (x : Slot) : (s.setSlot i x).upsets = s.upsets := rfl
@[simp] theorem State.setSlot_recQueue (s : State) (i : Nat) (x : Slot) : (s.setSlot i x).recQueue = s.recQueue := rfl
@[simp] theorem State.setSlot_mramChecked (s : State) (i : Nat) (x : Slot) : (s.setSlot i x).mramChecked = s.mramChecked := rfl
@[simp] theorem State.setSlot_panel (s : State) (i : Nat) (x : Slot) : (s.setSlot i x).panel = s.panel := rfl
@[simp] theorem State.setSlot_plate (s : State) (i : Nat) (x : Slot) : (s.setSlot i x).plate = s.plate := rfl
@[simp] theorem State.setSlot_ring (s : State) (i : Nat) (x : Slot) : (s.setSlot i x).ring = s.ring := rfl
@[simp] theorem State.setSlot_power (s : State) (i : Nat) (x : Slot) : (s.setSlot i x).power = s.power := rfl
@[simp] theorem State.setSlot_round_sources (s : State) (i : Nat) (x : Slot) : (s.setSlot i x).round.sources = s.round.sources := rfl
@[simp] theorem State.setSlot_round_groups (s : State) (i : Nat) (x : Slot) : (s.setSlot i x).round.groups = s.round.groups := rfl
@[simp] theorem State.setSlot_round_firings (s : State) (i : Nat) (x : Slot) : (s.setSlot i x).round.firings = s.round.firings := rfl
@[simp] theorem State.setSlot_round_newBinding (s : State) (i : Nat) (x : Slot) : (s.setSlot i x).round.newBinding = s.round.newBinding := rfl
@[simp] theorem State.setSlot_round_parked (s : State) (i : Nat) (x : Slot) : (s.setSlot i x).round.parked = s.round.parked := rfl
@[simp] theorem State.setSlot_round_blockMisses (s : State) (i : Nat) (x : Slot) : (s.setSlot i x).round.blockMisses = s.round.blockMisses := rfl
@[simp] theorem State.modSlot_same (s : State) (i : Nat) (f : Slot → Slot) : (s.modSlot i f).slot i = f (s.slot i) := Tab.get_set_same _ _ _ _
theorem State.modSlot_other (s : State) {i j : Nat} (f : Slot → Slot) (h : j ≠ i) : (s.modSlot i f).slot j = s.slot j := Tab.get_set_other _ _ _ h
@[simp] theorem State.modSlot_pending (s : State) (i : Nat) (f : Slot → Slot) : (s.modSlot i f).pending = s.pending := rfl
@[simp] theorem State.modSlot_now (s : State) (i : Nat) (f : Slot → Slot) : (s.modSlot i f).now = s.now := rfl
@[simp] theorem State.modSlot_freeCount (s : State) (i : Nat) (f : Slot → Slot) : (s.modSlot i f).freeCount = s.freeCount := rfl
@[simp] theorem State.modSlot_service (s : State) (i : Nat) (f : Slot → Slot) : (s.modSlot i f).service = s.service := rfl
@[simp] theorem State.modSlot_mram (s : State) (i : Nat) (f : Slot → Slot) : (s.modSlot i f).mram = s.mram := rfl
@[simp] theorem State.modSlot_sup (s : State) (i : Nat) (f : Slot → Slot) : (s.modSlot i f).sup = s.sup := rfl
@[simp] theorem State.modSlot_islands (s : State) (i : Nat) (f : Slot → Slot) : (s.modSlot i f).islands = s.islands := rfl
@[simp] theorem State.modSlot_faultyInterlock (s : State) (i : Nat) (f : Slot → Slot) : (s.modSlot i f).faultyInterlock = s.faultyInterlock := rfl
@[simp] theorem State.modSlot_domains (s : State) (i : Nat) (f : Slot → Slot) : (s.modSlot i f).domains = s.domains := rfl
@[simp] theorem State.modSlot_crossings (s : State) (i : Nat) (f : Slot → Slot) : (s.modSlot i f).crossings = s.crossings := rfl
@[simp] theorem State.modSlot_rounds (s : State) (i : Nat) (f : Slot → Slot) : (s.modSlot i f).rounds = s.rounds := rfl
@[simp] theorem State.modSlot_nextSend (s : State) (i : Nat) (f : Slot → Slot) : (s.modSlot i f).nextSend = s.nextSend := rfl
@[simp] theorem State.modSlot_mismatches (s : State) (i : Nat) (f : Slot → Slot) : (s.modSlot i f).mismatches = s.mismatches := rfl
@[simp] theorem State.modSlot_windowMismatches (s : State) (i : Nat) (f : Slot → Slot) : (s.modSlot i f).windowMismatches = s.windowMismatches := rfl
@[simp] theorem State.modSlot_auditAt (s : State) (i : Nat) (f : Slot → Slot) : (s.modSlot i f).auditAt = s.auditAt := rfl
@[simp] theorem State.modSlot_square (s : State) (i : Nat) (f : Slot → Slot) : (s.modSlot i f).square = s.square := rfl
@[simp] theorem State.modSlot_engines (s : State) (i : Nat) (f : Slot → Slot) : (s.modSlot i f).engines = s.engines := rfl
@[simp] theorem State.modSlot_timers (s : State) (i : Nat) (f : Slot → Slot) : (s.modSlot i f).timers = s.timers := rfl
@[simp] theorem State.modSlot_counters (s : State) (i : Nat) (f : Slot → Slot) : (s.modSlot i f).counters = s.counters := rfl
@[simp] theorem State.modSlot_loop (s : State) (i : Nat) (f : Slot → Slot) : (s.modSlot i f).loop = s.loop := rfl
@[simp] theorem State.modSlot_ucs (s : State) (i : Nat) (f : Slot → Slot) : (s.modSlot i f).ucs = s.ucs := rfl
@[simp] theorem State.modSlot_dis (s : State) (i : Nat) (f : Slot → Slot) : (s.modSlot i f).dis = s.dis := rfl
@[simp] theorem State.modSlot_dos (s : State) (i : Nat) (f : Slot → Slot) : (s.modSlot i f).dos = s.dos := rfl
@[simp] theorem State.modSlot_diGroups (s : State) (i : Nat) (f : Slot → Slot) : (s.modSlot i f).diGroups = s.diGroups := rfl
@[simp] theorem State.modSlot_doGroups (s : State) (i : Nat) (f : Slot → Slot) : (s.modSlot i f).doGroups = s.doGroups := rfl
@[simp] theorem State.modSlot_cans (s : State) (i : Nat) (f : Slot → Slot) : (s.modSlot i f).cans = s.cans := rfl
@[simp] theorem State.modSlot_fire (s : State) (i : Nat) (f : Slot → Slot) : (s.modSlot i f).fire = s.fire := rfl
@[simp] theorem State.modSlot_pair (s : State) (i : Nat) (f : Slot → Slot) : (s.modSlot i f).pair = s.pair := rfl
@[simp] theorem State.modSlot_totals (s : State) (i : Nat) (f : Slot → Slot) : (s.modSlot i f).totals = s.totals := rfl
@[simp] theorem State.modSlot_locks (s : State) (i : Nat) (f : Slot → Slot) : (s.modSlot i f).locks = s.locks := rfl
@[simp] theorem State.modSlot_arrays (s : State) (i : Nat) (f : Slot → Slot) : (s.modSlot i f).arrays = s.arrays := rfl
@[simp] theorem State.modSlot_raised (s : State) (i : Nat) (f : Slot → Slot) : (s.modSlot i f).raised = s.raised := rfl
@[simp] theorem State.modSlot_upsets (s : State) (i : Nat) (f : Slot → Slot) : (s.modSlot i f).upsets = s.upsets := rfl
@[simp] theorem State.modSlot_recQueue (s : State) (i : Nat) (f : Slot → Slot) : (s.modSlot i f).recQueue = s.recQueue := rfl
@[simp] theorem State.modSlot_mramChecked (s : State) (i : Nat) (f : Slot → Slot) : (s.modSlot i f).mramChecked = s.mramChecked := rfl
@[simp] theorem State.modSlot_panel (s : State) (i : Nat) (f : Slot → Slot) : (s.modSlot i f).panel = s.panel := rfl
@[simp] theorem State.modSlot_plate (s : State) (i : Nat) (f : Slot → Slot) : (s.modSlot i f).plate = s.plate := rfl
@[simp] theorem State.modSlot_ring (s : State) (i : Nat) (f : Slot → Slot) : (s.modSlot i f).ring = s.ring := rfl
@[simp] theorem State.modSlot_power (s : State) (i : Nat) (f : Slot → Slot) : (s.modSlot i f).power = s.power := rfl

/-! ### `setLoopCtx` -/

theorem State.modLoopCtx_def (s : State) (i : Nat) (f : Loop → Loop) : s.modLoopCtx i f = s.setLoopCtx i (f (s.loopCtx i)) := rfl
@[simp] theorem State.setLoopCtx_same (s : State) (i : Nat) (x : Loop) : (s.setLoopCtx i x).loopCtx i = x := Tab.get_set_same _ _ _ _
theorem State.setLoopCtx_other (s : State) {i j : Nat} (x : Loop) (h : j ≠ i) : (s.setLoopCtx i x).loopCtx j = s.loopCtx j := Tab.get_set_other _ _ _ h
@[simp] theorem State.setLoopCtx_pending (s : State) (i : Nat) (x : Loop) : (s.setLoopCtx i x).pending = s.pending := rfl
@[simp] theorem State.setLoopCtx_now (s : State) (i : Nat) (x : Loop) : (s.setLoopCtx i x).now = s.now := rfl
@[simp] theorem State.setLoopCtx_freeCount (s : State) (i : Nat) (x : Loop) : (s.setLoopCtx i x).freeCount = s.freeCount := rfl
@[simp] theorem State.setLoopCtx_service (s : State) (i : Nat) (x : Loop) : (s.setLoopCtx i x).service = s.service := rfl
@[simp] theorem State.setLoopCtx_mram (s : State) (i : Nat) (x : Loop) : (s.setLoopCtx i x).mram = s.mram := rfl
@[simp] theorem State.setLoopCtx_sup (s : State) (i : Nat) (x : Loop) : (s.setLoopCtx i x).sup = s.sup := rfl
@[simp] theorem State.setLoopCtx_islands (s : State) (i : Nat) (x : Loop) : (s.setLoopCtx i x).islands = s.islands := rfl
@[simp] theorem State.setLoopCtx_faultyInterlock (s : State) (i : Nat) (x : Loop) : (s.setLoopCtx i x).faultyInterlock = s.faultyInterlock := rfl
@[simp] theorem State.setLoopCtx_domains (s : State) (i : Nat) (x : Loop) : (s.setLoopCtx i x).domains = s.domains := rfl
@[simp] theorem State.setLoopCtx_crossings (s : State) (i : Nat) (x : Loop) : (s.setLoopCtx i x).crossings = s.crossings := rfl
@[simp] theorem State.setLoopCtx_rounds (s : State) (i : Nat) (x : Loop) : (s.setLoopCtx i x).rounds = s.rounds := rfl
@[simp] theorem State.setLoopCtx_nextSend (s : State) (i : Nat) (x : Loop) : (s.setLoopCtx i x).nextSend = s.nextSend := rfl
@[simp] theorem State.setLoopCtx_mismatches (s : State) (i : Nat) (x : Loop) : (s.setLoopCtx i x).mismatches = s.mismatches := rfl
@[simp] theorem State.setLoopCtx_windowMismatches (s : State) (i : Nat) (x : Loop) : (s.setLoopCtx i x).windowMismatches = s.windowMismatches := rfl
@[simp] theorem State.setLoopCtx_auditAt (s : State) (i : Nat) (x : Loop) : (s.setLoopCtx i x).auditAt = s.auditAt := rfl
@[simp] theorem State.setLoopCtx_square (s : State) (i : Nat) (x : Loop) : (s.setLoopCtx i x).square = s.square := rfl
@[simp] theorem State.setLoopCtx_engines (s : State) (i : Nat) (x : Loop) : (s.setLoopCtx i x).engines = s.engines := rfl
@[simp] theorem State.setLoopCtx_timers (s : State) (i : Nat) (x : Loop) : (s.setLoopCtx i x).timers = s.timers := rfl
@[simp] theorem State.setLoopCtx_counters (s : State) (i : Nat) (x : Loop) : (s.setLoopCtx i x).counters = s.counters := rfl
@[simp] theorem State.setLoopCtx_round (s : State) (i : Nat) (x : Loop) : (s.setLoopCtx i x).round = s.round := rfl
@[simp] theorem State.setLoopCtx_ucs (s : State) (i : Nat) (x : Loop) : (s.setLoopCtx i x).ucs = s.ucs := rfl
@[simp] theorem State.setLoopCtx_dis (s : State) (i : Nat) (x : Loop) : (s.setLoopCtx i x).dis = s.dis := rfl
@[simp] theorem State.setLoopCtx_dos (s : State) (i : Nat) (x : Loop) : (s.setLoopCtx i x).dos = s.dos := rfl
@[simp] theorem State.setLoopCtx_diGroups (s : State) (i : Nat) (x : Loop) : (s.setLoopCtx i x).diGroups = s.diGroups := rfl
@[simp] theorem State.setLoopCtx_doGroups (s : State) (i : Nat) (x : Loop) : (s.setLoopCtx i x).doGroups = s.doGroups := rfl
@[simp] theorem State.setLoopCtx_cans (s : State) (i : Nat) (x : Loop) : (s.setLoopCtx i x).cans = s.cans := rfl
@[simp] theorem State.setLoopCtx_fire (s : State) (i : Nat) (x : Loop) : (s.setLoopCtx i x).fire = s.fire := rfl
@[simp] theorem State.setLoopCtx_pair (s : State) (i : Nat) (x : Loop) : (s.setLoopCtx i x).pair = s.pair := rfl
@[simp] theorem State.setLoopCtx_totals (s : State) (i : Nat) (x : Loop) : (s.setLoopCtx i x).totals = s.totals := rfl
@[simp] theorem State.setLoopCtx_locks (s : State) (i : Nat) (x : Loop) : (s.setLoopCtx i x).locks = s.locks := rfl
@[simp] theorem State.setLoopCtx_arrays (s : State) (i : Nat) (x : Loop) : (s.setLoopCtx i x).arrays = s.arrays := rfl
@[simp] theorem State.setLoopCtx_raised (s : State) (i : Nat) (x : Loop) : (s.setLoopCtx i x).raised = s.raised := rfl
@[simp] theorem State.setLoopCtx_upsets (s : State) (i : Nat) (x : Loop) : (s.setLoopCtx i x).upsets = s.upsets := rfl
@[simp] theorem State.setLoopCtx_recQueue (s : State) (i : Nat) (x : Loop) : (s.setLoopCtx i x).recQueue = s.recQueue := rfl
@[simp] theorem State.setLoopCtx_mramChecked (s : State) (i : Nat) (x : Loop) : (s.setLoopCtx i x).mramChecked = s.mramChecked := rfl
@[simp] theorem State.setLoopCtx_panel (s : State) (i : Nat) (x : Loop) : (s.setLoopCtx i x).panel = s.panel := rfl
@[simp] theorem State.setLoopCtx_plate (s : State) (i : Nat) (x : Loop) : (s.setLoopCtx i x).plate = s.plate := rfl
@[simp] theorem State.setLoopCtx_ring (s : State) (i : Nat) (x : Loop) : (s.setLoopCtx i x).ring = s.ring := rfl
@[simp] theorem State.setLoopCtx_power (s : State) (i : Nat) (x : Loop) : (s.setLoopCtx i x).power = s.power := rfl
@[simp] theorem State.setLoopCtx_loop_tick (s : State) (i : Nat) (x : Loop) : (s.setLoopCtx i x).loop.tick = s.loop.tick := rfl
@[simp] theorem State.setLoopCtx_loop_frozenTick (s : State) (i : Nat) (x : Loop) : (s.setLoopCtx i x).loop.frozenTick = s.loop.frozenTick := rfl
@[simp] theorem State.setLoopCtx_loop_live (s : State) (i : Nat) (x : Loop) : (s.setLoopCtx i x).loop.live = s.loop.live := rfl
@[simp] theorem State.setLoopCtx_loop_applied (s : State) (i : Nat) (x : Loop) : (s.setLoopCtx i x).loop.applied = s.loop.applied := rfl
@[simp] theorem State.setLoopCtx_loop_appliedPoison (s : State) (i : Nat) (x : Loop) : (s.setLoopCtx i x).loop.appliedPoison = s.loop.appliedPoison := rfl
@[simp] theorem State.setLoopCtx_loop_ramPoison (s : State) (i : Nat) (x : Loop) : (s.setLoopCtx i x).loop.ramPoison = s.loop.ramPoison := rfl
@[simp] theorem State.setLoopCtx_loop_mirror (s : State) (i : Nat) (x : Loop) : (s.setLoopCtx i x).loop.mirror = s.loop.mirror := rfl
@[simp] theorem State.setLoopCtx_loop_mirrorTick (s : State) (i : Nat) (x : Loop) : (s.setLoopCtx i x).loop.mirrorTick = s.loop.mirrorTick := rfl
@[simp] theorem State.setLoopCtx_loop_frozen (s : State) (i : Nat) (x : Loop) : (s.setLoopCtx i x).loop.frozen = s.loop.frozen := rfl
@[simp] theorem State.setLoopCtx_loop_tickAt (s : State) (i : Nat) (x : Loop) : (s.setLoopCtx i x).loop.tickAt = s.loop.tickAt := rfl
@[simp] theorem State.setLoopCtx_loop_waiting (s : State) (i : Nat) (x : Loop) : (s.setLoopCtx i x).loop.waiting = s.loop.waiting := rfl
@[simp] theorem State.modLoopCtx_same (s : State) (i : Nat) (f : Loop → Loop) : (s.modLoopCtx i f).loopCtx i = f (s.loopCtx i) := Tab.get_set_same _ _ _ _
theorem State.modLoopCtx_other (s : State) {i j : Nat} (f : Loop → Loop) (h : j ≠ i) : (s.modLoopCtx i f).loopCtx j = s.loopCtx j := Tab.get_set_other _ _ _ h
@[simp] theorem State.modLoopCtx_pending (s : State) (i : Nat) (f : Loop → Loop) : (s.modLoopCtx i f).pending = s.pending := rfl
@[simp] theorem State.modLoopCtx_now (s : State) (i : Nat) (f : Loop → Loop) : (s.modLoopCtx i f).now = s.now := rfl
@[simp] theorem State.modLoopCtx_freeCount (s : State) (i : Nat) (f : Loop → Loop) : (s.modLoopCtx i f).freeCount = s.freeCount := rfl
@[simp] theorem State.modLoopCtx_service (s : State) (i : Nat) (f : Loop → Loop) : (s.modLoopCtx i f).service = s.service := rfl
@[simp] theorem State.modLoopCtx_mram (s : State) (i : Nat) (f : Loop → Loop) : (s.modLoopCtx i f).mram = s.mram := rfl
@[simp] theorem State.modLoopCtx_sup (s : State) (i : Nat) (f : Loop → Loop) : (s.modLoopCtx i f).sup = s.sup := rfl
@[simp] theorem State.modLoopCtx_islands (s : State) (i : Nat) (f : Loop → Loop) : (s.modLoopCtx i f).islands = s.islands := rfl
@[simp] theorem State.modLoopCtx_faultyInterlock (s : State) (i : Nat) (f : Loop → Loop) : (s.modLoopCtx i f).faultyInterlock = s.faultyInterlock := rfl
@[simp] theorem State.modLoopCtx_domains (s : State) (i : Nat) (f : Loop → Loop) : (s.modLoopCtx i f).domains = s.domains := rfl
@[simp] theorem State.modLoopCtx_crossings (s : State) (i : Nat) (f : Loop → Loop) : (s.modLoopCtx i f).crossings = s.crossings := rfl
@[simp] theorem State.modLoopCtx_rounds (s : State) (i : Nat) (f : Loop → Loop) : (s.modLoopCtx i f).rounds = s.rounds := rfl
@[simp] theorem State.modLoopCtx_nextSend (s : State) (i : Nat) (f : Loop → Loop) : (s.modLoopCtx i f).nextSend = s.nextSend := rfl
@[simp] theorem State.modLoopCtx_mismatches (s : State) (i : Nat) (f : Loop → Loop) : (s.modLoopCtx i f).mismatches = s.mismatches := rfl
@[simp] theorem State.modLoopCtx_windowMismatches (s : State) (i : Nat) (f : Loop → Loop) : (s.modLoopCtx i f).windowMismatches = s.windowMismatches := rfl
@[simp] theorem State.modLoopCtx_auditAt (s : State) (i : Nat) (f : Loop → Loop) : (s.modLoopCtx i f).auditAt = s.auditAt := rfl
@[simp] theorem State.modLoopCtx_square (s : State) (i : Nat) (f : Loop → Loop) : (s.modLoopCtx i f).square = s.square := rfl
@[simp] theorem State.modLoopCtx_engines (s : State) (i : Nat) (f : Loop → Loop) : (s.modLoopCtx i f).engines = s.engines := rfl
@[simp] theorem State.modLoopCtx_timers (s : State) (i : Nat) (f : Loop → Loop) : (s.modLoopCtx i f).timers = s.timers := rfl
@[simp] theorem State.modLoopCtx_counters (s : State) (i : Nat) (f : Loop → Loop) : (s.modLoopCtx i f).counters = s.counters := rfl
@[simp] theorem State.modLoopCtx_round (s : State) (i : Nat) (f : Loop → Loop) : (s.modLoopCtx i f).round = s.round := rfl
@[simp] theorem State.modLoopCtx_ucs (s : State) (i : Nat) (f : Loop → Loop) : (s.modLoopCtx i f).ucs = s.ucs := rfl
@[simp] theorem State.modLoopCtx_dis (s : State) (i : Nat) (f : Loop → Loop) : (s.modLoopCtx i f).dis = s.dis := rfl
@[simp] theorem State.modLoopCtx_dos (s : State) (i : Nat) (f : Loop → Loop) : (s.modLoopCtx i f).dos = s.dos := rfl
@[simp] theorem State.modLoopCtx_diGroups (s : State) (i : Nat) (f : Loop → Loop) : (s.modLoopCtx i f).diGroups = s.diGroups := rfl
@[simp] theorem State.modLoopCtx_doGroups (s : State) (i : Nat) (f : Loop → Loop) : (s.modLoopCtx i f).doGroups = s.doGroups := rfl
@[simp] theorem State.modLoopCtx_cans (s : State) (i : Nat) (f : Loop → Loop) : (s.modLoopCtx i f).cans = s.cans := rfl
@[simp] theorem State.modLoopCtx_fire (s : State) (i : Nat) (f : Loop → Loop) : (s.modLoopCtx i f).fire = s.fire := rfl
@[simp] theorem State.modLoopCtx_pair (s : State) (i : Nat) (f : Loop → Loop) : (s.modLoopCtx i f).pair = s.pair := rfl
@[simp] theorem State.modLoopCtx_totals (s : State) (i : Nat) (f : Loop → Loop) : (s.modLoopCtx i f).totals = s.totals := rfl
@[simp] theorem State.modLoopCtx_locks (s : State) (i : Nat) (f : Loop → Loop) : (s.modLoopCtx i f).locks = s.locks := rfl
@[simp] theorem State.modLoopCtx_arrays (s : State) (i : Nat) (f : Loop → Loop) : (s.modLoopCtx i f).arrays = s.arrays := rfl
@[simp] theorem State.modLoopCtx_raised (s : State) (i : Nat) (f : Loop → Loop) : (s.modLoopCtx i f).raised = s.raised := rfl
@[simp] theorem State.modLoopCtx_upsets (s : State) (i : Nat) (f : Loop → Loop) : (s.modLoopCtx i f).upsets = s.upsets := rfl
@[simp] theorem State.modLoopCtx_recQueue (s : State) (i : Nat) (f : Loop → Loop) : (s.modLoopCtx i f).recQueue = s.recQueue := rfl
@[simp] theorem State.modLoopCtx_mramChecked (s : State) (i : Nat) (f : Loop → Loop) : (s.modLoopCtx i f).mramChecked = s.mramChecked := rfl
@[simp] theorem State.modLoopCtx_panel (s : State) (i : Nat) (f : Loop → Loop) : (s.modLoopCtx i f).panel = s.panel := rfl
@[simp] theorem State.modLoopCtx_plate (s : State) (i : Nat) (f : Loop → Loop) : (s.modLoopCtx i f).plate = s.plate := rfl
@[simp] theorem State.modLoopCtx_ring (s : State) (i : Nat) (f : Loop → Loop) : (s.modLoopCtx i f).ring = s.ring := rfl
@[simp] theorem State.modLoopCtx_power (s : State) (i : Nat) (f : Loop → Loop) : (s.modLoopCtx i f).power = s.power := rfl

/-! ### `setFireSlot` -/

theorem State.modFireSlot_def (s : State) (i : Nat) (f : FireSlot → FireSlot) : s.modFireSlot i f = s.setFireSlot i (f (s.fireSlot i)) := rfl
@[simp] theorem State.setFireSlot_same (s : State) (i : Nat) (x : FireSlot) : (s.setFireSlot i x).fireSlot i = x := Tab.get_set_same _ _ _ _
theorem State.setFireSlot_other (s : State) {i j : Nat} (x : FireSlot) (h : j ≠ i) : (s.setFireSlot i x).fireSlot j = s.fireSlot j := Tab.get_set_other _ _ _ h
@[simp] theorem State.setFireSlot_pending (s : State) (i : Nat) (x : FireSlot) : (s.setFireSlot i x).pending = s.pending := rfl
@[simp] theorem State.setFireSlot_now (s : State) (i : Nat) (x : FireSlot) : (s.setFireSlot i x).now = s.now := rfl
@[simp] theorem State.setFireSlot_freeCount (s : State) (i : Nat) (x : FireSlot) : (s.setFireSlot i x).freeCount = s.freeCount := rfl
@[simp] theorem State.setFireSlot_service (s : State) (i : Nat) (x : FireSlot) : (s.setFireSlot i x).service = s.service := rfl
@[simp] theorem State.setFireSlot_mram (s : State) (i : Nat) (x : FireSlot) : (s.setFireSlot i x).mram = s.mram := rfl
@[simp] theorem State.setFireSlot_sup (s : State) (i : Nat) (x : FireSlot) : (s.setFireSlot i x).sup = s.sup := rfl
@[simp] theorem State.setFireSlot_islands (s : State) (i : Nat) (x : FireSlot) : (s.setFireSlot i x).islands = s.islands := rfl
@[simp] theorem State.setFireSlot_faultyInterlock (s : State) (i : Nat) (x : FireSlot) : (s.setFireSlot i x).faultyInterlock = s.faultyInterlock := rfl
@[simp] theorem State.setFireSlot_domains (s : State) (i : Nat) (x : FireSlot) : (s.setFireSlot i x).domains = s.domains := rfl
@[simp] theorem State.setFireSlot_crossings (s : State) (i : Nat) (x : FireSlot) : (s.setFireSlot i x).crossings = s.crossings := rfl
@[simp] theorem State.setFireSlot_rounds (s : State) (i : Nat) (x : FireSlot) : (s.setFireSlot i x).rounds = s.rounds := rfl
@[simp] theorem State.setFireSlot_nextSend (s : State) (i : Nat) (x : FireSlot) : (s.setFireSlot i x).nextSend = s.nextSend := rfl
@[simp] theorem State.setFireSlot_mismatches (s : State) (i : Nat) (x : FireSlot) : (s.setFireSlot i x).mismatches = s.mismatches := rfl
@[simp] theorem State.setFireSlot_windowMismatches (s : State) (i : Nat) (x : FireSlot) : (s.setFireSlot i x).windowMismatches = s.windowMismatches := rfl
@[simp] theorem State.setFireSlot_auditAt (s : State) (i : Nat) (x : FireSlot) : (s.setFireSlot i x).auditAt = s.auditAt := rfl
@[simp] theorem State.setFireSlot_square (s : State) (i : Nat) (x : FireSlot) : (s.setFireSlot i x).square = s.square := rfl
@[simp] theorem State.setFireSlot_engines (s : State) (i : Nat) (x : FireSlot) : (s.setFireSlot i x).engines = s.engines := rfl
@[simp] theorem State.setFireSlot_timers (s : State) (i : Nat) (x : FireSlot) : (s.setFireSlot i x).timers = s.timers := rfl
@[simp] theorem State.setFireSlot_counters (s : State) (i : Nat) (x : FireSlot) : (s.setFireSlot i x).counters = s.counters := rfl
@[simp] theorem State.setFireSlot_round (s : State) (i : Nat) (x : FireSlot) : (s.setFireSlot i x).round = s.round := rfl
@[simp] theorem State.setFireSlot_loop (s : State) (i : Nat) (x : FireSlot) : (s.setFireSlot i x).loop = s.loop := rfl
@[simp] theorem State.setFireSlot_ucs (s : State) (i : Nat) (x : FireSlot) : (s.setFireSlot i x).ucs = s.ucs := rfl
@[simp] theorem State.setFireSlot_dis (s : State) (i : Nat) (x : FireSlot) : (s.setFireSlot i x).dis = s.dis := rfl
@[simp] theorem State.setFireSlot_dos (s : State) (i : Nat) (x : FireSlot) : (s.setFireSlot i x).dos = s.dos := rfl
@[simp] theorem State.setFireSlot_diGroups (s : State) (i : Nat) (x : FireSlot) : (s.setFireSlot i x).diGroups = s.diGroups := rfl
@[simp] theorem State.setFireSlot_doGroups (s : State) (i : Nat) (x : FireSlot) : (s.setFireSlot i x).doGroups = s.doGroups := rfl
@[simp] theorem State.setFireSlot_cans (s : State) (i : Nat) (x : FireSlot) : (s.setFireSlot i x).cans = s.cans := rfl
@[simp] theorem State.setFireSlot_pair (s : State) (i : Nat) (x : FireSlot) : (s.setFireSlot i x).pair = s.pair := rfl
@[simp] theorem State.setFireSlot_totals (s : State) (i : Nat) (x : FireSlot) : (s.setFireSlot i x).totals = s.totals := rfl
@[simp] theorem State.setFireSlot_locks (s : State) (i : Nat) (x : FireSlot) : (s.setFireSlot i x).locks = s.locks := rfl
@[simp] theorem State.setFireSlot_arrays (s : State) (i : Nat) (x : FireSlot) : (s.setFireSlot i x).arrays = s.arrays := rfl
@[simp] theorem State.setFireSlot_raised (s : State) (i : Nat) (x : FireSlot) : (s.setFireSlot i x).raised = s.raised := rfl
@[simp] theorem State.setFireSlot_upsets (s : State) (i : Nat) (x : FireSlot) : (s.setFireSlot i x).upsets = s.upsets := rfl
@[simp] theorem State.setFireSlot_recQueue (s : State) (i : Nat) (x : FireSlot) : (s.setFireSlot i x).recQueue = s.recQueue := rfl
@[simp] theorem State.setFireSlot_mramChecked (s : State) (i : Nat) (x : FireSlot) : (s.setFireSlot i x).mramChecked = s.mramChecked := rfl
@[simp] theorem State.setFireSlot_panel (s : State) (i : Nat) (x : FireSlot) : (s.setFireSlot i x).panel = s.panel := rfl
@[simp] theorem State.setFireSlot_plate (s : State) (i : Nat) (x : FireSlot) : (s.setFireSlot i x).plate = s.plate := rfl
@[simp] theorem State.setFireSlot_ring (s : State) (i : Nat) (x : FireSlot) : (s.setFireSlot i x).ring = s.ring := rfl
@[simp] theorem State.setFireSlot_power (s : State) (i : Nat) (x : FireSlot) : (s.setFireSlot i x).power = s.power := rfl
@[simp] theorem State.setFireSlot_fire_fns (s : State) (i : Nat) (x : FireSlot) : (s.setFireSlot i x).fire.fns = s.fire.fns := rfl
@[simp] theorem State.setFireSlot_fire_outs (s : State) (i : Nat) (x : FireSlot) : (s.setFireSlot i x).fire.outs = s.fire.outs := rfl
@[simp] theorem State.setFireSlot_fire_arm (s : State) (i : Nat) (x : FireSlot) : (s.setFireSlot i x).fire.arm = s.fire.arm := rfl
@[simp] theorem State.setFireSlot_fire_before (s : State) (i : Nat) (x : FireSlot) : (s.setFireSlot i x).fire.before = s.fire.before := rfl
@[simp] theorem State.setFireSlot_fire_cutOut (s : State) (i : Nat) (x : FireSlot) : (s.setFireSlot i x).fire.cutOut = s.fire.cutOut := rfl
@[simp] theorem State.setFireSlot_fire_cutIn (s : State) (i : Nat) (x : FireSlot) : (s.setFireSlot i x).fire.cutIn = s.fire.cutIn := rfl
@[simp] theorem State.setFireSlot_fire_badFrames (s : State) (i : Nat) (x : FireSlot) : (s.setFireSlot i x).fire.badFrames = s.fire.badFrames := rfl
@[simp] theorem State.setFireSlot_fire_inbox (s : State) (i : Nat) (x : FireSlot) : (s.setFireSlot i x).fire.inbox = s.fire.inbox := rfl
@[simp] theorem State.setFireSlot_fire_resetLevel (s : State) (i : Nat) (x : FireSlot) : (s.setFireSlot i x).fire.resetLevel = s.fire.resetLevel := rfl
@[simp] theorem State.modFireSlot_same (s : State) (i : Nat) (f : FireSlot → FireSlot) : (s.modFireSlot i f).fireSlot i = f (s.fireSlot i) := Tab.get_set_same _ _ _ _
theorem State.modFireSlot_other (s : State) {i j : Nat} (f : FireSlot → FireSlot) (h : j ≠ i) : (s.modFireSlot i f).fireSlot j = s.fireSlot j := Tab.get_set_other _ _ _ h
@[simp] theorem State.modFireSlot_pending (s : State) (i : Nat) (f : FireSlot → FireSlot) : (s.modFireSlot i f).pending = s.pending := rfl
@[simp] theorem State.modFireSlot_now (s : State) (i : Nat) (f : FireSlot → FireSlot) : (s.modFireSlot i f).now = s.now := rfl
@[simp] theorem State.modFireSlot_freeCount (s : State) (i : Nat) (f : FireSlot → FireSlot) : (s.modFireSlot i f).freeCount = s.freeCount := rfl
@[simp] theorem State.modFireSlot_service (s : State) (i : Nat) (f : FireSlot → FireSlot) : (s.modFireSlot i f).service = s.service := rfl
@[simp] theorem State.modFireSlot_mram (s : State) (i : Nat) (f : FireSlot → FireSlot) : (s.modFireSlot i f).mram = s.mram := rfl
@[simp] theorem State.modFireSlot_sup (s : State) (i : Nat) (f : FireSlot → FireSlot) : (s.modFireSlot i f).sup = s.sup := rfl
@[simp] theorem State.modFireSlot_islands (s : State) (i : Nat) (f : FireSlot → FireSlot) : (s.modFireSlot i f).islands = s.islands := rfl
@[simp] theorem State.modFireSlot_faultyInterlock (s : State) (i : Nat) (f : FireSlot → FireSlot) : (s.modFireSlot i f).faultyInterlock = s.faultyInterlock := rfl
@[simp] theorem State.modFireSlot_domains (s : State) (i : Nat) (f : FireSlot → FireSlot) : (s.modFireSlot i f).domains = s.domains := rfl
@[simp] theorem State.modFireSlot_crossings (s : State) (i : Nat) (f : FireSlot → FireSlot) : (s.modFireSlot i f).crossings = s.crossings := rfl
@[simp] theorem State.modFireSlot_rounds (s : State) (i : Nat) (f : FireSlot → FireSlot) : (s.modFireSlot i f).rounds = s.rounds := rfl
@[simp] theorem State.modFireSlot_nextSend (s : State) (i : Nat) (f : FireSlot → FireSlot) : (s.modFireSlot i f).nextSend = s.nextSend := rfl
@[simp] theorem State.modFireSlot_mismatches (s : State) (i : Nat) (f : FireSlot → FireSlot) : (s.modFireSlot i f).mismatches = s.mismatches := rfl
@[simp] theorem State.modFireSlot_windowMismatches (s : State) (i : Nat) (f : FireSlot → FireSlot) : (s.modFireSlot i f).windowMismatches = s.windowMismatches := rfl
@[simp] theorem State.modFireSlot_auditAt (s : State) (i : Nat) (f : FireSlot → FireSlot) : (s.modFireSlot i f).auditAt = s.auditAt := rfl
@[simp] theorem State.modFireSlot_square (s : State) (i : Nat) (f : FireSlot → FireSlot) : (s.modFireSlot i f).square = s.square := rfl
@[simp] theorem State.modFireSlot_engines (s : State) (i : Nat) (f : FireSlot → FireSlot) : (s.modFireSlot i f).engines = s.engines := rfl
@[simp] theorem State.modFireSlot_timers (s : State) (i : Nat) (f : FireSlot → FireSlot) : (s.modFireSlot i f).timers = s.timers := rfl
@[simp] theorem State.modFireSlot_counters (s : State) (i : Nat) (f : FireSlot → FireSlot) : (s.modFireSlot i f).counters = s.counters := rfl
@[simp] theorem State.modFireSlot_round (s : State) (i : Nat) (f : FireSlot → FireSlot) : (s.modFireSlot i f).round = s.round := rfl
@[simp] theorem State.modFireSlot_loop (s : State) (i : Nat) (f : FireSlot → FireSlot) : (s.modFireSlot i f).loop = s.loop := rfl
@[simp] theorem State.modFireSlot_ucs (s : State) (i : Nat) (f : FireSlot → FireSlot) : (s.modFireSlot i f).ucs = s.ucs := rfl
@[simp] theorem State.modFireSlot_dis (s : State) (i : Nat) (f : FireSlot → FireSlot) : (s.modFireSlot i f).dis = s.dis := rfl
@[simp] theorem State.modFireSlot_dos (s : State) (i : Nat) (f : FireSlot → FireSlot) : (s.modFireSlot i f).dos = s.dos := rfl
@[simp] theorem State.modFireSlot_diGroups (s : State) (i : Nat) (f : FireSlot → FireSlot) : (s.modFireSlot i f).diGroups = s.diGroups := rfl
@[simp] theorem State.modFireSlot_doGroups (s : State) (i : Nat) (f : FireSlot → FireSlot) : (s.modFireSlot i f).doGroups = s.doGroups := rfl
@[simp] theorem State.modFireSlot_cans (s : State) (i : Nat) (f : FireSlot → FireSlot) : (s.modFireSlot i f).cans = s.cans := rfl
@[simp] theorem State.modFireSlot_pair (s : State) (i : Nat) (f : FireSlot → FireSlot) : (s.modFireSlot i f).pair = s.pair := rfl
@[simp] theorem State.modFireSlot_totals (s : State) (i : Nat) (f : FireSlot → FireSlot) : (s.modFireSlot i f).totals = s.totals := rfl
@[simp] theorem State.modFireSlot_locks (s : State) (i : Nat) (f : FireSlot → FireSlot) : (s.modFireSlot i f).locks = s.locks := rfl
@[simp] theorem State.modFireSlot_arrays (s : State) (i : Nat) (f : FireSlot → FireSlot) : (s.modFireSlot i f).arrays = s.arrays := rfl
@[simp] theorem State.modFireSlot_raised (s : State) (i : Nat) (f : FireSlot → FireSlot) : (s.modFireSlot i f).raised = s.raised := rfl
@[simp] theorem State.modFireSlot_upsets (s : State) (i : Nat) (f : FireSlot → FireSlot) : (s.modFireSlot i f).upsets = s.upsets := rfl
@[simp] theorem State.modFireSlot_recQueue (s : State) (i : Nat) (f : FireSlot → FireSlot) : (s.modFireSlot i f).recQueue = s.recQueue := rfl
@[simp] theorem State.modFireSlot_mramChecked (s : State) (i : Nat) (f : FireSlot → FireSlot) : (s.modFireSlot i f).mramChecked = s.mramChecked := rfl
@[simp] theorem State.modFireSlot_panel (s : State) (i : Nat) (f : FireSlot → FireSlot) : (s.modFireSlot i f).panel = s.panel := rfl
@[simp] theorem State.modFireSlot_plate (s : State) (i : Nat) (f : FireSlot → FireSlot) : (s.modFireSlot i f).plate = s.plate := rfl
@[simp] theorem State.modFireSlot_ring (s : State) (i : Nat) (f : FireSlot → FireSlot) : (s.modFireSlot i f).ring = s.ring := rfl
@[simp] theorem State.modFireSlot_power (s : State) (i : Nat) (f : FireSlot → FireSlot) : (s.modFireSlot i f).power = s.power := rfl

/-! ### `setFireFn` -/

theorem State.modFireFn_def (s : State) (i : Nat) (f : FireFn → FireFn) : s.modFireFn i f = s.setFireFn i (f (s.fireFn i)) := rfl
@[simp] theorem State.setFireFn_same (s : State) (i : Nat) (x : FireFn) : (s.setFireFn i x).fireFn i = x := Tab.get_set_same _ _ _ _
theorem State.setFireFn_other (s : State) {i j : Nat} (x : FireFn) (h : j ≠ i) : (s.setFireFn i x).fireFn j = s.fireFn j := Tab.get_set_other _ _ _ h
@[simp] theorem State.setFireFn_pending (s : State) (i : Nat) (x : FireFn) : (s.setFireFn i x).pending = s.pending := rfl
@[simp] theorem State.setFireFn_now (s : State) (i : Nat) (x : FireFn) : (s.setFireFn i x).now = s.now := rfl
@[simp] theorem State.setFireFn_freeCount (s : State) (i : Nat) (x : FireFn) : (s.setFireFn i x).freeCount = s.freeCount := rfl
@[simp] theorem State.setFireFn_service (s : State) (i : Nat) (x : FireFn) : (s.setFireFn i x).service = s.service := rfl
@[simp] theorem State.setFireFn_mram (s : State) (i : Nat) (x : FireFn) : (s.setFireFn i x).mram = s.mram := rfl
@[simp] theorem State.setFireFn_sup (s : State) (i : Nat) (x : FireFn) : (s.setFireFn i x).sup = s.sup := rfl
@[simp] theorem State.setFireFn_islands (s : State) (i : Nat) (x : FireFn) : (s.setFireFn i x).islands = s.islands := rfl
@[simp] theorem State.setFireFn_faultyInterlock (s : State) (i : Nat) (x : FireFn) : (s.setFireFn i x).faultyInterlock = s.faultyInterlock := rfl
@[simp] theorem State.setFireFn_domains (s : State) (i : Nat) (x : FireFn) : (s.setFireFn i x).domains = s.domains := rfl
@[simp] theorem State.setFireFn_crossings (s : State) (i : Nat) (x : FireFn) : (s.setFireFn i x).crossings = s.crossings := rfl
@[simp] theorem State.setFireFn_rounds (s : State) (i : Nat) (x : FireFn) : (s.setFireFn i x).rounds = s.rounds := rfl
@[simp] theorem State.setFireFn_nextSend (s : State) (i : Nat) (x : FireFn) : (s.setFireFn i x).nextSend = s.nextSend := rfl
@[simp] theorem State.setFireFn_mismatches (s : State) (i : Nat) (x : FireFn) : (s.setFireFn i x).mismatches = s.mismatches := rfl
@[simp] theorem State.setFireFn_windowMismatches (s : State) (i : Nat) (x : FireFn) : (s.setFireFn i x).windowMismatches = s.windowMismatches := rfl
@[simp] theorem State.setFireFn_auditAt (s : State) (i : Nat) (x : FireFn) : (s.setFireFn i x).auditAt = s.auditAt := rfl
@[simp] theorem State.setFireFn_square (s : State) (i : Nat) (x : FireFn) : (s.setFireFn i x).square = s.square := rfl
@[simp] theorem State.setFireFn_engines (s : State) (i : Nat) (x : FireFn) : (s.setFireFn i x).engines = s.engines := rfl
@[simp] theorem State.setFireFn_timers (s : State) (i : Nat) (x : FireFn) : (s.setFireFn i x).timers = s.timers := rfl
@[simp] theorem State.setFireFn_counters (s : State) (i : Nat) (x : FireFn) : (s.setFireFn i x).counters = s.counters := rfl
@[simp] theorem State.setFireFn_round (s : State) (i : Nat) (x : FireFn) : (s.setFireFn i x).round = s.round := rfl
@[simp] theorem State.setFireFn_loop (s : State) (i : Nat) (x : FireFn) : (s.setFireFn i x).loop = s.loop := rfl
@[simp] theorem State.setFireFn_ucs (s : State) (i : Nat) (x : FireFn) : (s.setFireFn i x).ucs = s.ucs := rfl
@[simp] theorem State.setFireFn_dis (s : State) (i : Nat) (x : FireFn) : (s.setFireFn i x).dis = s.dis := rfl
@[simp] theorem State.setFireFn_dos (s : State) (i : Nat) (x : FireFn) : (s.setFireFn i x).dos = s.dos := rfl
@[simp] theorem State.setFireFn_diGroups (s : State) (i : Nat) (x : FireFn) : (s.setFireFn i x).diGroups = s.diGroups := rfl
@[simp] theorem State.setFireFn_doGroups (s : State) (i : Nat) (x : FireFn) : (s.setFireFn i x).doGroups = s.doGroups := rfl
@[simp] theorem State.setFireFn_cans (s : State) (i : Nat) (x : FireFn) : (s.setFireFn i x).cans = s.cans := rfl
@[simp] theorem State.setFireFn_pair (s : State) (i : Nat) (x : FireFn) : (s.setFireFn i x).pair = s.pair := rfl
@[simp] theorem State.setFireFn_totals (s : State) (i : Nat) (x : FireFn) : (s.setFireFn i x).totals = s.totals := rfl
@[simp] theorem State.setFireFn_locks (s : State) (i : Nat) (x : FireFn) : (s.setFireFn i x).locks = s.locks := rfl
@[simp] theorem State.setFireFn_arrays (s : State) (i : Nat) (x : FireFn) : (s.setFireFn i x).arrays = s.arrays := rfl
@[simp] theorem State.setFireFn_raised (s : State) (i : Nat) (x : FireFn) : (s.setFireFn i x).raised = s.raised := rfl
@[simp] theorem State.setFireFn_upsets (s : State) (i : Nat) (x : FireFn) : (s.setFireFn i x).upsets = s.upsets := rfl
@[simp] theorem State.setFireFn_recQueue (s : State) (i : Nat) (x : FireFn) : (s.setFireFn i x).recQueue = s.recQueue := rfl
@[simp] theorem State.setFireFn_mramChecked (s : State) (i : Nat) (x : FireFn) : (s.setFireFn i x).mramChecked = s.mramChecked := rfl
@[simp] theorem State.setFireFn_panel (s : State) (i : Nat) (x : FireFn) : (s.setFireFn i x).panel = s.panel := rfl
@[simp] theorem State.setFireFn_plate (s : State) (i : Nat) (x : FireFn) : (s.setFireFn i x).plate = s.plate := rfl
@[simp] theorem State.setFireFn_ring (s : State) (i : Nat) (x : FireFn) : (s.setFireFn i x).ring = s.ring := rfl
@[simp] theorem State.setFireFn_power (s : State) (i : Nat) (x : FireFn) : (s.setFireFn i x).power = s.power := rfl
@[simp] theorem State.setFireFn_fire_slots (s : State) (i : Nat) (x : FireFn) : (s.setFireFn i x).fire.slots = s.fire.slots := rfl
@[simp] theorem State.setFireFn_fire_outs (s : State) (i : Nat) (x : FireFn) : (s.setFireFn i x).fire.outs = s.fire.outs := rfl
@[simp] theorem State.setFireFn_fire_arm (s : State) (i : Nat) (x : FireFn) : (s.setFireFn i x).fire.arm = s.fire.arm := rfl
@[simp] theorem State.setFireFn_fire_before (s : State) (i : Nat) (x : FireFn) : (s.setFireFn i x).fire.before = s.fire.before := rfl
@[simp] theorem State.setFireFn_fire_cutOut (s : State) (i : Nat) (x : FireFn) : (s.setFireFn i x).fire.cutOut = s.fire.cutOut := rfl
@[simp] theorem State.setFireFn_fire_cutIn (s : State) (i : Nat) (x : FireFn) : (s.setFireFn i x).fire.cutIn = s.fire.cutIn := rfl
@[simp] theorem State.setFireFn_fire_badFrames (s : State) (i : Nat) (x : FireFn) : (s.setFireFn i x).fire.badFrames = s.fire.badFrames := rfl
@[simp] theorem State.setFireFn_fire_inbox (s : State) (i : Nat) (x : FireFn) : (s.setFireFn i x).fire.inbox = s.fire.inbox := rfl
@[simp] theorem State.setFireFn_fire_resetLevel (s : State) (i : Nat) (x : FireFn) : (s.setFireFn i x).fire.resetLevel = s.fire.resetLevel := rfl
@[simp] theorem State.modFireFn_same (s : State) (i : Nat) (f : FireFn → FireFn) : (s.modFireFn i f).fireFn i = f (s.fireFn i) := Tab.get_set_same _ _ _ _
theorem State.modFireFn_other (s : State) {i j : Nat} (f : FireFn → FireFn) (h : j ≠ i) : (s.modFireFn i f).fireFn j = s.fireFn j := Tab.get_set_other _ _ _ h
@[simp] theorem State.modFireFn_pending (s : State) (i : Nat) (f : FireFn → FireFn) : (s.modFireFn i f).pending = s.pending := rfl
@[simp] theorem State.modFireFn_now (s : State) (i : Nat) (f : FireFn → FireFn) : (s.modFireFn i f).now = s.now := rfl
@[simp] theorem State.modFireFn_freeCount (s : State) (i : Nat) (f : FireFn → FireFn) : (s.modFireFn i f).freeCount = s.freeCount := rfl
@[simp] theorem State.modFireFn_service (s : State) (i : Nat) (f : FireFn → FireFn) : (s.modFireFn i f).service = s.service := rfl
@[simp] theorem State.modFireFn_mram (s : State) (i : Nat) (f : FireFn → FireFn) : (s.modFireFn i f).mram = s.mram := rfl
@[simp] theorem State.modFireFn_sup (s : State) (i : Nat) (f : FireFn → FireFn) : (s.modFireFn i f).sup = s.sup := rfl
@[simp] theorem State.modFireFn_islands (s : State) (i : Nat) (f : FireFn → FireFn) : (s.modFireFn i f).islands = s.islands := rfl
@[simp] theorem State.modFireFn_faultyInterlock (s : State) (i : Nat) (f : FireFn → FireFn) : (s.modFireFn i f).faultyInterlock = s.faultyInterlock := rfl
@[simp] theorem State.modFireFn_domains (s : State) (i : Nat) (f : FireFn → FireFn) : (s.modFireFn i f).domains = s.domains := rfl
@[simp] theorem State.modFireFn_crossings (s : State) (i : Nat) (f : FireFn → FireFn) : (s.modFireFn i f).crossings = s.crossings := rfl
@[simp] theorem State.modFireFn_rounds (s : State) (i : Nat) (f : FireFn → FireFn) : (s.modFireFn i f).rounds = s.rounds := rfl
@[simp] theorem State.modFireFn_nextSend (s : State) (i : Nat) (f : FireFn → FireFn) : (s.modFireFn i f).nextSend = s.nextSend := rfl
@[simp] theorem State.modFireFn_mismatches (s : State) (i : Nat) (f : FireFn → FireFn) : (s.modFireFn i f).mismatches = s.mismatches := rfl
@[simp] theorem State.modFireFn_windowMismatches (s : State) (i : Nat) (f : FireFn → FireFn) : (s.modFireFn i f).windowMismatches = s.windowMismatches := rfl
@[simp] theorem State.modFireFn_auditAt (s : State) (i : Nat) (f : FireFn → FireFn) : (s.modFireFn i f).auditAt = s.auditAt := rfl
@[simp] theorem State.modFireFn_square (s : State) (i : Nat) (f : FireFn → FireFn) : (s.modFireFn i f).square = s.square := rfl
@[simp] theorem State.modFireFn_engines (s : State) (i : Nat) (f : FireFn → FireFn) : (s.modFireFn i f).engines = s.engines := rfl
@[simp] theorem State.modFireFn_timers (s : State) (i : Nat) (f : FireFn → FireFn) : (s.modFireFn i f).timers = s.timers := rfl
@[simp] theorem State.modFireFn_counters (s : State) (i : Nat) (f : FireFn → FireFn) : (s.modFireFn i f).counters = s.counters := rfl
@[simp] theorem State.modFireFn_round (s : State) (i : Nat) (f : FireFn → FireFn) : (s.modFireFn i f).round = s.round := rfl
@[simp] theorem State.modFireFn_loop (s : State) (i : Nat) (f : FireFn → FireFn) : (s.modFireFn i f).loop = s.loop := rfl
@[simp] theorem State.modFireFn_ucs (s : State) (i : Nat) (f : FireFn → FireFn) : (s.modFireFn i f).ucs = s.ucs := rfl
@[simp] theorem State.modFireFn_dis (s : State) (i : Nat) (f : FireFn → FireFn) : (s.modFireFn i f).dis = s.dis := rfl
@[simp] theorem State.modFireFn_dos (s : State) (i : Nat) (f : FireFn → FireFn) : (s.modFireFn i f).dos = s.dos := rfl
@[simp] theorem State.modFireFn_diGroups (s : State) (i : Nat) (f : FireFn → FireFn) : (s.modFireFn i f).diGroups = s.diGroups := rfl
@[simp] theorem State.modFireFn_doGroups (s : State) (i : Nat) (f : FireFn → FireFn) : (s.modFireFn i f).doGroups = s.doGroups := rfl
@[simp] theorem State.modFireFn_cans (s : State) (i : Nat) (f : FireFn → FireFn) : (s.modFireFn i f).cans = s.cans := rfl
@[simp] theorem State.modFireFn_pair (s : State) (i : Nat) (f : FireFn → FireFn) : (s.modFireFn i f).pair = s.pair := rfl
@[simp] theorem State.modFireFn_totals (s : State) (i : Nat) (f : FireFn → FireFn) : (s.modFireFn i f).totals = s.totals := rfl
@[simp] theorem State.modFireFn_locks (s : State) (i : Nat) (f : FireFn → FireFn) : (s.modFireFn i f).locks = s.locks := rfl
@[simp] theorem State.modFireFn_arrays (s : State) (i : Nat) (f : FireFn → FireFn) : (s.modFireFn i f).arrays = s.arrays := rfl
@[simp] theorem State.modFireFn_raised (s : State) (i : Nat) (f : FireFn → FireFn) : (s.modFireFn i f).raised = s.raised := rfl
@[simp] theorem State.modFireFn_upsets (s : State) (i : Nat) (f : FireFn → FireFn) : (s.modFireFn i f).upsets = s.upsets := rfl
@[simp] theorem State.modFireFn_recQueue (s : State) (i : Nat) (f : FireFn → FireFn) : (s.modFireFn i f).recQueue = s.recQueue := rfl
@[simp] theorem State.modFireFn_mramChecked (s : State) (i : Nat) (f : FireFn → FireFn) : (s.modFireFn i f).mramChecked = s.mramChecked := rfl
@[simp] theorem State.modFireFn_panel (s : State) (i : Nat) (f : FireFn → FireFn) : (s.modFireFn i f).panel = s.panel := rfl
@[simp] theorem State.modFireFn_plate (s : State) (i : Nat) (f : FireFn → FireFn) : (s.modFireFn i f).plate = s.plate := rfl
@[simp] theorem State.modFireFn_ring (s : State) (i : Nat) (f : FireFn → FireFn) : (s.modFireFn i f).ring = s.ring := rfl
@[simp] theorem State.modFireFn_power (s : State) (i : Nat) (f : FireFn → FireFn) : (s.modFireFn i f).power = s.power := rfl

/-! ### `setFireOut` -/

theorem State.modFireOut_def (s : State) (i : Nat) (f : FireOut → FireOut) : s.modFireOut i f = s.setFireOut i (f (s.fireOut i)) := rfl
@[simp] theorem State.setFireOut_same (s : State) (i : Nat) (x : FireOut) : (s.setFireOut i x).fireOut i = x := Tab.get_set_same _ _ _ _
theorem State.setFireOut_other (s : State) {i j : Nat} (x : FireOut) (h : j ≠ i) : (s.setFireOut i x).fireOut j = s.fireOut j := Tab.get_set_other _ _ _ h
@[simp] theorem State.setFireOut_pending (s : State) (i : Nat) (x : FireOut) : (s.setFireOut i x).pending = s.pending := rfl
@[simp] theorem State.setFireOut_now (s : State) (i : Nat) (x : FireOut) : (s.setFireOut i x).now = s.now := rfl
@[simp] theorem State.setFireOut_freeCount (s : State) (i : Nat) (x : FireOut) : (s.setFireOut i x).freeCount = s.freeCount := rfl
@[simp] theorem State.setFireOut_service (s : State) (i : Nat) (x : FireOut) : (s.setFireOut i x).service = s.service := rfl
@[simp] theorem State.setFireOut_mram (s : State) (i : Nat) (x : FireOut) : (s.setFireOut i x).mram = s.mram := rfl
@[simp] theorem State.setFireOut_sup (s : State) (i : Nat) (x : FireOut) : (s.setFireOut i x).sup = s.sup := rfl
@[simp] theorem State.setFireOut_islands (s : State) (i : Nat) (x : FireOut) : (s.setFireOut i x).islands = s.islands := rfl
@[simp] theorem State.setFireOut_faultyInterlock (s : State) (i : Nat) (x : FireOut) : (s.setFireOut i x).faultyInterlock = s.faultyInterlock := rfl
@[simp] theorem State.setFireOut_domains (s : State) (i : Nat) (x : FireOut) : (s.setFireOut i x).domains = s.domains := rfl
@[simp] theorem State.setFireOut_crossings (s : State) (i : Nat) (x : FireOut) : (s.setFireOut i x).crossings = s.crossings := rfl
@[simp] theorem State.setFireOut_rounds (s : State) (i : Nat) (x : FireOut) : (s.setFireOut i x).rounds = s.rounds := rfl
@[simp] theorem State.setFireOut_nextSend (s : State) (i : Nat) (x : FireOut) : (s.setFireOut i x).nextSend = s.nextSend := rfl
@[simp] theorem State.setFireOut_mismatches (s : State) (i : Nat) (x : FireOut) : (s.setFireOut i x).mismatches = s.mismatches := rfl
@[simp] theorem State.setFireOut_windowMismatches (s : State) (i : Nat) (x : FireOut) : (s.setFireOut i x).windowMismatches = s.windowMismatches := rfl
@[simp] theorem State.setFireOut_auditAt (s : State) (i : Nat) (x : FireOut) : (s.setFireOut i x).auditAt = s.auditAt := rfl
@[simp] theorem State.setFireOut_square (s : State) (i : Nat) (x : FireOut) : (s.setFireOut i x).square = s.square := rfl
@[simp] theorem State.setFireOut_engines (s : State) (i : Nat) (x : FireOut) : (s.setFireOut i x).engines = s.engines := rfl
@[simp] theorem State.setFireOut_timers (s : State) (i : Nat) (x : FireOut) : (s.setFireOut i x).timers = s.timers := rfl
@[simp] theorem State.setFireOut_counters (s : State) (i : Nat) (x : FireOut) : (s.setFireOut i x).counters = s.counters := rfl
@[simp] theorem State.setFireOut_round (s : State) (i : Nat) (x : FireOut) : (s.setFireOut i x).round = s.round := rfl
@[simp] theorem State.setFireOut_loop (s : State) (i : Nat) (x : FireOut) : (s.setFireOut i x).loop = s.loop := rfl
@[simp] theorem State.setFireOut_ucs (s : State) (i : Nat) (x : FireOut) : (s.setFireOut i x).ucs = s.ucs := rfl
@[simp] theorem State.setFireOut_dis (s : State) (i : Nat) (x : FireOut) : (s.setFireOut i x).dis = s.dis := rfl
@[simp] theorem State.setFireOut_dos (s : State) (i : Nat) (x : FireOut) : (s.setFireOut i x).dos = s.dos := rfl
@[simp] theorem State.setFireOut_diGroups (s : State) (i : Nat) (x : FireOut) : (s.setFireOut i x).diGroups = s.diGroups := rfl
@[simp] theorem State.setFireOut_doGroups (s : State) (i : Nat) (x : FireOut) : (s.setFireOut i x).doGroups = s.doGroups := rfl
@[simp] theorem State.setFireOut_cans (s : State) (i : Nat) (x : FireOut) : (s.setFireOut i x).cans = s.cans := rfl
@[simp] theorem State.setFireOut_pair (s : State) (i : Nat) (x : FireOut) : (s.setFireOut i x).pair = s.pair := rfl
@[simp] theorem State.setFireOut_totals (s : State) (i : Nat) (x : FireOut) : (s.setFireOut i x).totals = s.totals := rfl
@[simp] theorem State.setFireOut_locks (s : State) (i : Nat) (x : FireOut) : (s.setFireOut i x).locks = s.locks := rfl
@[simp] theorem State.setFireOut_arrays (s : State) (i : Nat) (x : FireOut) : (s.setFireOut i x).arrays = s.arrays := rfl
@[simp] theorem State.setFireOut_raised (s : State) (i : Nat) (x : FireOut) : (s.setFireOut i x).raised = s.raised := rfl
@[simp] theorem State.setFireOut_upsets (s : State) (i : Nat) (x : FireOut) : (s.setFireOut i x).upsets = s.upsets := rfl
@[simp] theorem State.setFireOut_recQueue (s : State) (i : Nat) (x : FireOut) : (s.setFireOut i x).recQueue = s.recQueue := rfl
@[simp] theorem State.setFireOut_mramChecked (s : State) (i : Nat) (x : FireOut) : (s.setFireOut i x).mramChecked = s.mramChecked := rfl
@[simp] theorem State.setFireOut_panel (s : State) (i : Nat) (x : FireOut) : (s.setFireOut i x).panel = s.panel := rfl
@[simp] theorem State.setFireOut_plate (s : State) (i : Nat) (x : FireOut) : (s.setFireOut i x).plate = s.plate := rfl
@[simp] theorem State.setFireOut_ring (s : State) (i : Nat) (x : FireOut) : (s.setFireOut i x).ring = s.ring := rfl
@[simp] theorem State.setFireOut_power (s : State) (i : Nat) (x : FireOut) : (s.setFireOut i x).power = s.power := rfl
@[simp] theorem State.setFireOut_fire_slots (s : State) (i : Nat) (x : FireOut) : (s.setFireOut i x).fire.slots = s.fire.slots := rfl
@[simp] theorem State.setFireOut_fire_fns (s : State) (i : Nat) (x : FireOut) : (s.setFireOut i x).fire.fns = s.fire.fns := rfl
@[simp] theorem State.setFireOut_fire_arm (s : State) (i : Nat) (x : FireOut) : (s.setFireOut i x).fire.arm = s.fire.arm := rfl
@[simp] theorem State.setFireOut_fire_before (s : State) (i : Nat) (x : FireOut) : (s.setFireOut i x).fire.before = s.fire.before := rfl
@[simp] theorem State.setFireOut_fire_cutOut (s : State) (i : Nat) (x : FireOut) : (s.setFireOut i x).fire.cutOut = s.fire.cutOut := rfl
@[simp] theorem State.setFireOut_fire_cutIn (s : State) (i : Nat) (x : FireOut) : (s.setFireOut i x).fire.cutIn = s.fire.cutIn := rfl
@[simp] theorem State.setFireOut_fire_badFrames (s : State) (i : Nat) (x : FireOut) : (s.setFireOut i x).fire.badFrames = s.fire.badFrames := rfl
@[simp] theorem State.setFireOut_fire_inbox (s : State) (i : Nat) (x : FireOut) : (s.setFireOut i x).fire.inbox = s.fire.inbox := rfl
@[simp] theorem State.setFireOut_fire_resetLevel (s : State) (i : Nat) (x : FireOut) : (s.setFireOut i x).fire.resetLevel = s.fire.resetLevel := rfl
@[simp] theorem State.modFireOut_same (s : State) (i : Nat) (f : FireOut → FireOut) : (s.modFireOut i f).fireOut i = f (s.fireOut i) := Tab.get_set_same _ _ _ _
theorem State.modFireOut_other (s : State) {i j : Nat} (f : FireOut → FireOut) (h : j ≠ i) : (s.modFireOut i f).fireOut j = s.fireOut j := Tab.get_set_other _ _ _ h
@[simp] theorem State.modFireOut_pending (s : State) (i : Nat) (f : FireOut → FireOut) : (s.modFireOut i f).pending = s.pending := rfl
@[simp] theorem State.modFireOut_now (s : State) (i : Nat) (f : FireOut → FireOut) : (s.modFireOut i f).now = s.now := rfl
@[simp] theorem State.modFireOut_freeCount (s : State) (i : Nat) (f : FireOut → FireOut) : (s.modFireOut i f).freeCount = s.freeCount := rfl
@[simp] theorem State.modFireOut_service (s : State) (i : Nat) (f : FireOut → FireOut) : (s.modFireOut i f).service = s.service := rfl
@[simp] theorem State.modFireOut_mram (s : State) (i : Nat) (f : FireOut → FireOut) : (s.modFireOut i f).mram = s.mram := rfl
@[simp] theorem State.modFireOut_sup (s : State) (i : Nat) (f : FireOut → FireOut) : (s.modFireOut i f).sup = s.sup := rfl
@[simp] theorem State.modFireOut_islands (s : State) (i : Nat) (f : FireOut → FireOut) : (s.modFireOut i f).islands = s.islands := rfl
@[simp] theorem State.modFireOut_faultyInterlock (s : State) (i : Nat) (f : FireOut → FireOut) : (s.modFireOut i f).faultyInterlock = s.faultyInterlock := rfl
@[simp] theorem State.modFireOut_domains (s : State) (i : Nat) (f : FireOut → FireOut) : (s.modFireOut i f).domains = s.domains := rfl
@[simp] theorem State.modFireOut_crossings (s : State) (i : Nat) (f : FireOut → FireOut) : (s.modFireOut i f).crossings = s.crossings := rfl
@[simp] theorem State.modFireOut_rounds (s : State) (i : Nat) (f : FireOut → FireOut) : (s.modFireOut i f).rounds = s.rounds := rfl
@[simp] theorem State.modFireOut_nextSend (s : State) (i : Nat) (f : FireOut → FireOut) : (s.modFireOut i f).nextSend = s.nextSend := rfl
@[simp] theorem State.modFireOut_mismatches (s : State) (i : Nat) (f : FireOut → FireOut) : (s.modFireOut i f).mismatches = s.mismatches := rfl
@[simp] theorem State.modFireOut_windowMismatches (s : State) (i : Nat) (f : FireOut → FireOut) : (s.modFireOut i f).windowMismatches = s.windowMismatches := rfl
@[simp] theorem State.modFireOut_auditAt (s : State) (i : Nat) (f : FireOut → FireOut) : (s.modFireOut i f).auditAt = s.auditAt := rfl
@[simp] theorem State.modFireOut_square (s : State) (i : Nat) (f : FireOut → FireOut) : (s.modFireOut i f).square = s.square := rfl
@[simp] theorem State.modFireOut_engines (s : State) (i : Nat) (f : FireOut → FireOut) : (s.modFireOut i f).engines = s.engines := rfl
@[simp] theorem State.modFireOut_timers (s : State) (i : Nat) (f : FireOut → FireOut) : (s.modFireOut i f).timers = s.timers := rfl
@[simp] theorem State.modFireOut_counters (s : State) (i : Nat) (f : FireOut → FireOut) : (s.modFireOut i f).counters = s.counters := rfl
@[simp] theorem State.modFireOut_round (s : State) (i : Nat) (f : FireOut → FireOut) : (s.modFireOut i f).round = s.round := rfl
@[simp] theorem State.modFireOut_loop (s : State) (i : Nat) (f : FireOut → FireOut) : (s.modFireOut i f).loop = s.loop := rfl
@[simp] theorem State.modFireOut_ucs (s : State) (i : Nat) (f : FireOut → FireOut) : (s.modFireOut i f).ucs = s.ucs := rfl
@[simp] theorem State.modFireOut_dis (s : State) (i : Nat) (f : FireOut → FireOut) : (s.modFireOut i f).dis = s.dis := rfl
@[simp] theorem State.modFireOut_dos (s : State) (i : Nat) (f : FireOut → FireOut) : (s.modFireOut i f).dos = s.dos := rfl
@[simp] theorem State.modFireOut_diGroups (s : State) (i : Nat) (f : FireOut → FireOut) : (s.modFireOut i f).diGroups = s.diGroups := rfl
@[simp] theorem State.modFireOut_doGroups (s : State) (i : Nat) (f : FireOut → FireOut) : (s.modFireOut i f).doGroups = s.doGroups := rfl
@[simp] theorem State.modFireOut_cans (s : State) (i : Nat) (f : FireOut → FireOut) : (s.modFireOut i f).cans = s.cans := rfl
@[simp] theorem State.modFireOut_pair (s : State) (i : Nat) (f : FireOut → FireOut) : (s.modFireOut i f).pair = s.pair := rfl
@[simp] theorem State.modFireOut_totals (s : State) (i : Nat) (f : FireOut → FireOut) : (s.modFireOut i f).totals = s.totals := rfl
@[simp] theorem State.modFireOut_locks (s : State) (i : Nat) (f : FireOut → FireOut) : (s.modFireOut i f).locks = s.locks := rfl
@[simp] theorem State.modFireOut_arrays (s : State) (i : Nat) (f : FireOut → FireOut) : (s.modFireOut i f).arrays = s.arrays := rfl
@[simp] theorem State.modFireOut_raised (s : State) (i : Nat) (f : FireOut → FireOut) : (s.modFireOut i f).raised = s.raised := rfl
@[simp] theorem State.modFireOut_upsets (s : State) (i : Nat) (f : FireOut → FireOut) : (s.modFireOut i f).upsets = s.upsets := rfl
@[simp] theorem State.modFireOut_recQueue (s : State) (i : Nat) (f : FireOut → FireOut) : (s.modFireOut i f).recQueue = s.recQueue := rfl
@[simp] theorem State.modFireOut_mramChecked (s : State) (i : Nat) (f : FireOut → FireOut) : (s.modFireOut i f).mramChecked = s.mramChecked := rfl
@[simp] theorem State.modFireOut_panel (s : State) (i : Nat) (f : FireOut → FireOut) : (s.modFireOut i f).panel = s.panel := rfl
@[simp] theorem State.modFireOut_plate (s : State) (i : Nat) (f : FireOut → FireOut) : (s.modFireOut i f).plate = s.plate := rfl
@[simp] theorem State.modFireOut_ring (s : State) (i : Nat) (f : FireOut → FireOut) : (s.modFireOut i f).ring = s.ring := rfl
@[simp] theorem State.modFireOut_power (s : State) (i : Nat) (f : FireOut → FireOut) : (s.modFireOut i f).power = s.power := rfl

/-! ### `setRingPort` -/

theorem State.modRingPort_def (s : State) (i : Nat) (f : RingPort → RingPort) : s.modRingPort i f = s.setRingPort i (f (s.ringPort i)) := rfl
@[simp] theorem State.setRingPort_same (s : State) (i : Nat) (x : RingPort) : (s.setRingPort i x).ringPort i = x := Tab.get_set_same _ _ _ _
theorem State.setRingPort_other (s : State) {i j : Nat} (x : RingPort) (h : j ≠ i) : (s.setRingPort i x).ringPort j = s.ringPort j := Tab.get_set_other _ _ _ h
@[simp] theorem State.setRingPort_pending (s : State) (i : Nat) (x : RingPort) : (s.setRingPort i x).pending = s.pending := rfl
@[simp] theorem State.setRingPort_now (s : State) (i : Nat) (x : RingPort) : (s.setRingPort i x).now = s.now := rfl
@[simp] theorem State.setRingPort_freeCount (s : State) (i : Nat) (x : RingPort) : (s.setRingPort i x).freeCount = s.freeCount := rfl
@[simp] theorem State.setRingPort_service (s : State) (i : Nat) (x : RingPort) : (s.setRingPort i x).service = s.service := rfl
@[simp] theorem State.setRingPort_mram (s : State) (i : Nat) (x : RingPort) : (s.setRingPort i x).mram = s.mram := rfl
@[simp] theorem State.setRingPort_sup (s : State) (i : Nat) (x : RingPort) : (s.setRingPort i x).sup = s.sup := rfl
@[simp] theorem State.setRingPort_islands (s : State) (i : Nat) (x : RingPort) : (s.setRingPort i x).islands = s.islands := rfl
@[simp] theorem State.setRingPort_faultyInterlock (s : State) (i : Nat) (x : RingPort) : (s.setRingPort i x).faultyInterlock = s.faultyInterlock := rfl
@[simp] theorem State.setRingPort_domains (s : State) (i : Nat) (x : RingPort) : (s.setRingPort i x).domains = s.domains := rfl
@[simp] theorem State.setRingPort_crossings (s : State) (i : Nat) (x : RingPort) : (s.setRingPort i x).crossings = s.crossings := rfl
@[simp] theorem State.setRingPort_rounds (s : State) (i : Nat) (x : RingPort) : (s.setRingPort i x).rounds = s.rounds := rfl
@[simp] theorem State.setRingPort_nextSend (s : State) (i : Nat) (x : RingPort) : (s.setRingPort i x).nextSend = s.nextSend := rfl
@[simp] theorem State.setRingPort_mismatches (s : State) (i : Nat) (x : RingPort) : (s.setRingPort i x).mismatches = s.mismatches := rfl
@[simp] theorem State.setRingPort_windowMismatches (s : State) (i : Nat) (x : RingPort) : (s.setRingPort i x).windowMismatches = s.windowMismatches := rfl
@[simp] theorem State.setRingPort_auditAt (s : State) (i : Nat) (x : RingPort) : (s.setRingPort i x).auditAt = s.auditAt := rfl
@[simp] theorem State.setRingPort_square (s : State) (i : Nat) (x : RingPort) : (s.setRingPort i x).square = s.square := rfl
@[simp] theorem State.setRingPort_engines (s : State) (i : Nat) (x : RingPort) : (s.setRingPort i x).engines = s.engines := rfl
@[simp] theorem State.setRingPort_timers (s : State) (i : Nat) (x : RingPort) : (s.setRingPort i x).timers = s.timers := rfl
@[simp] theorem State.setRingPort_counters (s : State) (i : Nat) (x : RingPort) : (s.setRingPort i x).counters = s.counters := rfl
@[simp] theorem State.setRingPort_round (s : State) (i : Nat) (x : RingPort) : (s.setRingPort i x).round = s.round := rfl
@[simp] theorem State.setRingPort_loop (s : State) (i : Nat) (x : RingPort) : (s.setRingPort i x).loop = s.loop := rfl
@[simp] theorem State.setRingPort_ucs (s : State) (i : Nat) (x : RingPort) : (s.setRingPort i x).ucs = s.ucs := rfl
@[simp] theorem State.setRingPort_dis (s : State) (i : Nat) (x : RingPort) : (s.setRingPort i x).dis = s.dis := rfl
@[simp] theorem State.setRingPort_dos (s : State) (i : Nat) (x : RingPort) : (s.setRingPort i x).dos = s.dos := rfl
@[simp] theorem State.setRingPort_diGroups (s : State) (i : Nat) (x : RingPort) : (s.setRingPort i x).diGroups = s.diGroups := rfl
@[simp] theorem State.setRingPort_doGroups (s : State) (i : Nat) (x : RingPort) : (s.setRingPort i x).doGroups = s.doGroups := rfl
@[simp] theorem State.setRingPort_cans (s : State) (i : Nat) (x : RingPort) : (s.setRingPort i x).cans = s.cans := rfl
@[simp] theorem State.setRingPort_fire (s : State) (i : Nat) (x : RingPort) : (s.setRingPort i x).fire = s.fire := rfl
@[simp] theorem State.setRingPort_pair (s : State) (i : Nat) (x : RingPort) : (s.setRingPort i x).pair = s.pair := rfl
@[simp] theorem State.setRingPort_totals (s : State) (i : Nat) (x : RingPort) : (s.setRingPort i x).totals = s.totals := rfl
@[simp] theorem State.setRingPort_locks (s : State) (i : Nat) (x : RingPort) : (s.setRingPort i x).locks = s.locks := rfl
@[simp] theorem State.setRingPort_arrays (s : State) (i : Nat) (x : RingPort) : (s.setRingPort i x).arrays = s.arrays := rfl
@[simp] theorem State.setRingPort_raised (s : State) (i : Nat) (x : RingPort) : (s.setRingPort i x).raised = s.raised := rfl
@[simp] theorem State.setRingPort_upsets (s : State) (i : Nat) (x : RingPort) : (s.setRingPort i x).upsets = s.upsets := rfl
@[simp] theorem State.setRingPort_recQueue (s : State) (i : Nat) (x : RingPort) : (s.setRingPort i x).recQueue = s.recQueue := rfl
@[simp] theorem State.setRingPort_mramChecked (s : State) (i : Nat) (x : RingPort) : (s.setRingPort i x).mramChecked = s.mramChecked := rfl
@[simp] theorem State.setRingPort_panel (s : State) (i : Nat) (x : RingPort) : (s.setRingPort i x).panel = s.panel := rfl
@[simp] theorem State.setRingPort_plate (s : State) (i : Nat) (x : RingPort) : (s.setRingPort i x).plate = s.plate := rfl
@[simp] theorem State.setRingPort_power (s : State) (i : Nat) (x : RingPort) : (s.setRingPort i x).power = s.power := rfl
@[simp] theorem State.setRingPort_ring_seen (s : State) (i : Nat) (x : RingPort) : (s.setRingPort i x).ring.seen = s.ring.seen := rfl
@[simp] theorem State.setRingPort_ring_hbSeq (s : State) (i : Nat) (x : RingPort) : (s.setRingPort i x).ring.hbSeq = s.ring.hbSeq := rfl
@[simp] theorem State.setRingPort_ring_supervisionAt (s : State) (i : Nat) (x : RingPort) : (s.setRingPort i x).ring.supervisionAt = s.ring.supervisionAt := rfl
@[simp] theorem State.setRingPort_ring_provisional (s : State) (i : Nat) (x : RingPort) : (s.setRingPort i x).ring.provisional = s.ring.provisional := rfl
@[simp] theorem State.setRingPort_ring_duplicateAt (s : State) (i : Nat) (x : RingPort) : (s.setRingPort i x).ring.duplicateAt = s.ring.duplicateAt := rfl
@[simp] theorem State.setRingPort_ring_annSeq (s : State) (i : Nat) (x : RingPort) : (s.setRingPort i x).ring.annSeq = s.ring.annSeq := rfl
@[simp] theorem State.setRingPort_ring_tripSeq (s : State) (i : Nat) (x : RingPort) : (s.setRingPort i x).ring.tripSeq = s.ring.tripSeq := rfl
@[simp] theorem State.setRingPort_ring_supervisions (s : State) (i : Nat) (x : RingPort) : (s.setRingPort i x).ring.supervisions = s.ring.supervisions := rfl
@[simp] theorem State.setRingPort_ring_enumFwd (s : State) (i : Nat) (x : RingPort) : (s.setRingPort i x).ring.enumFwd = s.ring.enumFwd := rfl
@[simp] theorem State.setRingPort_ring_time (s : State) (i : Nat) (x : RingPort) : (s.setRingPort i x).ring.time = s.ring.time := rfl
@[simp] theorem State.setRingPort_ring_ptpPort (s : State) (i : Nat) (x : RingPort) : (s.setRingPort i x).ring.ptpPort = s.ring.ptpPort := rfl
@[simp] theorem State.setRingPort_ring_offsetNs (s : State) (i : Nat) (x : RingPort) : (s.setRingPort i x).ring.offsetNs = s.ring.offsetNs := rfl
@[simp] theorem State.setRingPort_ring_hsrSeq (s : State) (i : Nat) (x : RingPort) : (s.setRingPort i x).ring.hsrSeq = s.ring.hsrSeq := rfl
@[simp] theorem State.setRingPort_ring_announced (s : State) (i : Nat) (x : RingPort) : (s.setRingPort i x).ring.announced = s.ring.announced := rfl
@[simp] theorem State.setRingPort_ring_ptpReq (s : State) (i : Nat) (x : RingPort) : (s.setRingPort i x).ring.ptpReq = s.ring.ptpReq := rfl
@[simp] theorem State.setRingPort_ring_ratePpb (s : State) (i : Nat) (x : RingPort) : (s.setRingPort i x).ring.ratePpb = s.ring.ratePpb := rfl
@[simp] theorem State.setRingPort_ring_rateAcc (s : State) (i : Nat) (x : RingPort) : (s.setRingPort i x).ring.rateAcc = s.ring.rateAcc := rfl
@[simp] theorem State.setRingPort_ring_pathDelay (s : State) (i : Nat) (x : RingPort) : (s.setRingPort i x).ring.pathDelay = s.ring.pathDelay := rfl
@[simp] theorem State.setRingPort_ring_inLimit (s : State) (i : Nat) (x : RingPort) : (s.setRingPort i x).ring.inLimit = s.ring.inLimit := rfl
@[simp] theorem State.setRingPort_ring_lastSync (s : State) (i : Nat) (x : RingPort) : (s.setRingPort i x).ring.lastSync = s.ring.lastSync := rfl
@[simp] theorem State.setRingPort_ring_stepped (s : State) (i : Nat) (x : RingPort) : (s.setRingPort i x).ring.stepped = s.ring.stepped := rfl
@[simp] theorem State.setRingPort_ring_announceAt (s : State) (i : Nat) (x : RingPort) : (s.setRingPort i x).ring.announceAt = s.ring.announceAt := rfl
@[simp] theorem State.setRingPort_ring_stationSeen (s : State) (i : Nat) (x : RingPort) : (s.setRingPort i x).ring.stationSeen = s.ring.stationSeen := rfl
@[simp] theorem State.setRingPort_ring_enumTag (s : State) (i : Nat) (x : RingPort) : (s.setRingPort i x).ring.enumTag = s.ring.enumTag := rfl
@[simp] theorem State.modRingPort_same (s : State) (i : Nat) (f : RingPort → RingPort) : (s.modRingPort i f).ringPort i = f (s.ringPort i) := Tab.get_set_same _ _ _ _
theorem State.modRingPort_other (s : State) {i j : Nat} (f : RingPort → RingPort) (h : j ≠ i) : (s.modRingPort i f).ringPort j = s.ringPort j := Tab.get_set_other _ _ _ h
@[simp] theorem State.modRingPort_pending (s : State) (i : Nat) (f : RingPort → RingPort) : (s.modRingPort i f).pending = s.pending := rfl
@[simp] theorem State.modRingPort_now (s : State) (i : Nat) (f : RingPort → RingPort) : (s.modRingPort i f).now = s.now := rfl
@[simp] theorem State.modRingPort_freeCount (s : State) (i : Nat) (f : RingPort → RingPort) : (s.modRingPort i f).freeCount = s.freeCount := rfl
@[simp] theorem State.modRingPort_service (s : State) (i : Nat) (f : RingPort → RingPort) : (s.modRingPort i f).service = s.service := rfl
@[simp] theorem State.modRingPort_mram (s : State) (i : Nat) (f : RingPort → RingPort) : (s.modRingPort i f).mram = s.mram := rfl
@[simp] theorem State.modRingPort_sup (s : State) (i : Nat) (f : RingPort → RingPort) : (s.modRingPort i f).sup = s.sup := rfl
@[simp] theorem State.modRingPort_islands (s : State) (i : Nat) (f : RingPort → RingPort) : (s.modRingPort i f).islands = s.islands := rfl
@[simp] theorem State.modRingPort_faultyInterlock (s : State) (i : Nat) (f : RingPort → RingPort) : (s.modRingPort i f).faultyInterlock = s.faultyInterlock := rfl
@[simp] theorem State.modRingPort_domains (s : State) (i : Nat) (f : RingPort → RingPort) : (s.modRingPort i f).domains = s.domains := rfl
@[simp] theorem State.modRingPort_crossings (s : State) (i : Nat) (f : RingPort → RingPort) : (s.modRingPort i f).crossings = s.crossings := rfl
@[simp] theorem State.modRingPort_rounds (s : State) (i : Nat) (f : RingPort → RingPort) : (s.modRingPort i f).rounds = s.rounds := rfl
@[simp] theorem State.modRingPort_nextSend (s : State) (i : Nat) (f : RingPort → RingPort) : (s.modRingPort i f).nextSend = s.nextSend := rfl
@[simp] theorem State.modRingPort_mismatches (s : State) (i : Nat) (f : RingPort → RingPort) : (s.modRingPort i f).mismatches = s.mismatches := rfl
@[simp] theorem State.modRingPort_windowMismatches (s : State) (i : Nat) (f : RingPort → RingPort) : (s.modRingPort i f).windowMismatches = s.windowMismatches := rfl
@[simp] theorem State.modRingPort_auditAt (s : State) (i : Nat) (f : RingPort → RingPort) : (s.modRingPort i f).auditAt = s.auditAt := rfl
@[simp] theorem State.modRingPort_square (s : State) (i : Nat) (f : RingPort → RingPort) : (s.modRingPort i f).square = s.square := rfl
@[simp] theorem State.modRingPort_engines (s : State) (i : Nat) (f : RingPort → RingPort) : (s.modRingPort i f).engines = s.engines := rfl
@[simp] theorem State.modRingPort_timers (s : State) (i : Nat) (f : RingPort → RingPort) : (s.modRingPort i f).timers = s.timers := rfl
@[simp] theorem State.modRingPort_counters (s : State) (i : Nat) (f : RingPort → RingPort) : (s.modRingPort i f).counters = s.counters := rfl
@[simp] theorem State.modRingPort_round (s : State) (i : Nat) (f : RingPort → RingPort) : (s.modRingPort i f).round = s.round := rfl
@[simp] theorem State.modRingPort_loop (s : State) (i : Nat) (f : RingPort → RingPort) : (s.modRingPort i f).loop = s.loop := rfl
@[simp] theorem State.modRingPort_ucs (s : State) (i : Nat) (f : RingPort → RingPort) : (s.modRingPort i f).ucs = s.ucs := rfl
@[simp] theorem State.modRingPort_dis (s : State) (i : Nat) (f : RingPort → RingPort) : (s.modRingPort i f).dis = s.dis := rfl
@[simp] theorem State.modRingPort_dos (s : State) (i : Nat) (f : RingPort → RingPort) : (s.modRingPort i f).dos = s.dos := rfl
@[simp] theorem State.modRingPort_diGroups (s : State) (i : Nat) (f : RingPort → RingPort) : (s.modRingPort i f).diGroups = s.diGroups := rfl
@[simp] theorem State.modRingPort_doGroups (s : State) (i : Nat) (f : RingPort → RingPort) : (s.modRingPort i f).doGroups = s.doGroups := rfl
@[simp] theorem State.modRingPort_cans (s : State) (i : Nat) (f : RingPort → RingPort) : (s.modRingPort i f).cans = s.cans := rfl
@[simp] theorem State.modRingPort_fire (s : State) (i : Nat) (f : RingPort → RingPort) : (s.modRingPort i f).fire = s.fire := rfl
@[simp] theorem State.modRingPort_pair (s : State) (i : Nat) (f : RingPort → RingPort) : (s.modRingPort i f).pair = s.pair := rfl
@[simp] theorem State.modRingPort_totals (s : State) (i : Nat) (f : RingPort → RingPort) : (s.modRingPort i f).totals = s.totals := rfl
@[simp] theorem State.modRingPort_locks (s : State) (i : Nat) (f : RingPort → RingPort) : (s.modRingPort i f).locks = s.locks := rfl
@[simp] theorem State.modRingPort_arrays (s : State) (i : Nat) (f : RingPort → RingPort) : (s.modRingPort i f).arrays = s.arrays := rfl
@[simp] theorem State.modRingPort_raised (s : State) (i : Nat) (f : RingPort → RingPort) : (s.modRingPort i f).raised = s.raised := rfl
@[simp] theorem State.modRingPort_upsets (s : State) (i : Nat) (f : RingPort → RingPort) : (s.modRingPort i f).upsets = s.upsets := rfl
@[simp] theorem State.modRingPort_recQueue (s : State) (i : Nat) (f : RingPort → RingPort) : (s.modRingPort i f).recQueue = s.recQueue := rfl
@[simp] theorem State.modRingPort_mramChecked (s : State) (i : Nat) (f : RingPort → RingPort) : (s.modRingPort i f).mramChecked = s.mramChecked := rfl
@[simp] theorem State.modRingPort_panel (s : State) (i : Nat) (f : RingPort → RingPort) : (s.modRingPort i f).panel = s.panel := rfl
@[simp] theorem State.modRingPort_plate (s : State) (i : Nat) (f : RingPort → RingPort) : (s.modRingPort i f).plate = s.plate := rfl
@[simp] theorem State.modRingPort_power (s : State) (i : Nat) (f : RingPort → RingPort) : (s.modRingPort i f).power = s.power := rfl

/-! ### `setKey` -/

theorem State.modKey_def (s : State) (i : Nat) (f : KeySlot → KeySlot) : s.modKey i f = s.setKey i (f (s.key i)) := rfl
@[simp] theorem State.setKey_same (s : State) (i : Nat) (x : KeySlot) : (s.setKey i x).key i = x := Tab.get_set_same _ _ _ _
theorem State.setKey_other (s : State) {i j : Nat} (x : KeySlot) (h : j ≠ i) : (s.setKey i x).key j = s.key j := Tab.get_set_other _ _ _ h
@[simp] theorem State.setKey_pending (s : State) (i : Nat) (x : KeySlot) : (s.setKey i x).pending = s.pending := rfl
@[simp] theorem State.setKey_now (s : State) (i : Nat) (x : KeySlot) : (s.setKey i x).now = s.now := rfl
@[simp] theorem State.setKey_freeCount (s : State) (i : Nat) (x : KeySlot) : (s.setKey i x).freeCount = s.freeCount := rfl
@[simp] theorem State.setKey_service (s : State) (i : Nat) (x : KeySlot) : (s.setKey i x).service = s.service := rfl
@[simp] theorem State.setKey_sup (s : State) (i : Nat) (x : KeySlot) : (s.setKey i x).sup = s.sup := rfl
@[simp] theorem State.setKey_islands (s : State) (i : Nat) (x : KeySlot) : (s.setKey i x).islands = s.islands := rfl
@[simp] theorem State.setKey_faultyInterlock (s : State) (i : Nat) (x : KeySlot) : (s.setKey i x).faultyInterlock = s.faultyInterlock := rfl
@[simp] theorem State.setKey_domains (s : State) (i : Nat) (x : KeySlot) : (s.setKey i x).domains = s.domains := rfl
@[simp] theorem State.setKey_crossings (s : State) (i : Nat) (x : KeySlot) : (s.setKey i x).crossings = s.crossings := rfl
@[simp] theorem State.setKey_rounds (s : State) (i : Nat) (x : KeySlot) : (s.setKey i x).rounds = s.rounds := rfl
@[simp] theorem State.setKey_nextSend (s : State) (i : Nat) (x : KeySlot) : (s.setKey i x).nextSend = s.nextSend := rfl
@[simp] theorem State.setKey_mismatches (s : State) (i : Nat) (x : KeySlot) : (s.setKey i x).mismatches = s.mismatches := rfl
@[simp] theorem State.setKey_windowMismatches (s : State) (i : Nat) (x : KeySlot) : (s.setKey i x).windowMismatches = s.windowMismatches := rfl
@[simp] theorem State.setKey_auditAt (s : State) (i : Nat) (x : KeySlot) : (s.setKey i x).auditAt = s.auditAt := rfl
@[simp] theorem State.setKey_square (s : State) (i : Nat) (x : KeySlot) : (s.setKey i x).square = s.square := rfl
@[simp] theorem State.setKey_engines (s : State) (i : Nat) (x : KeySlot) : (s.setKey i x).engines = s.engines := rfl
@[simp] theorem State.setKey_timers (s : State) (i : Nat) (x : KeySlot) : (s.setKey i x).timers = s.timers := rfl
@[simp] theorem State.setKey_counters (s : State) (i : Nat) (x : KeySlot) : (s.setKey i x).counters = s.counters := rfl
@[simp] theorem State.setKey_round (s : State) (i : Nat) (x : KeySlot) : (s.setKey i x).round = s.round := rfl
@[simp] theorem State.setKey_loop (s : State) (i : Nat) (x : KeySlot) : (s.setKey i x).loop = s.loop := rfl
@[simp] theorem State.setKey_ucs (s : State) (i : Nat) (x : KeySlot) : (s.setKey i x).ucs = s.ucs := rfl
@[simp] theorem State.setKey_dis (s : State) (i : Nat) (x : KeySlot) : (s.setKey i x).dis = s.dis := rfl
@[simp] theorem State.setKey_dos (s : State) (i : Nat) (x : KeySlot) : (s.setKey i x).dos = s.dos := rfl
@[simp] theorem State.setKey_diGroups (s : State) (i : Nat) (x : KeySlot) : (s.setKey i x).diGroups = s.diGroups := rfl
@[simp] theorem State.setKey_doGroups (s : State) (i : Nat) (x : KeySlot) : (s.setKey i x).doGroups = s.doGroups := rfl
@[simp] theorem State.setKey_cans (s : State) (i : Nat) (x : KeySlot) : (s.setKey i x).cans = s.cans := rfl
@[simp] theorem State.setKey_fire (s : State) (i : Nat) (x : KeySlot) : (s.setKey i x).fire = s.fire := rfl
@[simp] theorem State.setKey_pair (s : State) (i : Nat) (x : KeySlot) : (s.setKey i x).pair = s.pair := rfl
@[simp] theorem State.setKey_totals (s : State) (i : Nat) (x : KeySlot) : (s.setKey i x).totals = s.totals := rfl
@[simp] theorem State.setKey_locks (s : State) (i : Nat) (x : KeySlot) : (s.setKey i x).locks = s.locks := rfl
@[simp] theorem State.setKey_arrays (s : State) (i : Nat) (x : KeySlot) : (s.setKey i x).arrays = s.arrays := rfl
@[simp] theorem State.setKey_raised (s : State) (i : Nat) (x : KeySlot) : (s.setKey i x).raised = s.raised := rfl
@[simp] theorem State.setKey_upsets (s : State) (i : Nat) (x : KeySlot) : (s.setKey i x).upsets = s.upsets := rfl
@[simp] theorem State.setKey_recQueue (s : State) (i : Nat) (x : KeySlot) : (s.setKey i x).recQueue = s.recQueue := rfl
@[simp] theorem State.setKey_mramChecked (s : State) (i : Nat) (x : KeySlot) : (s.setKey i x).mramChecked = s.mramChecked := rfl
@[simp] theorem State.setKey_panel (s : State) (i : Nat) (x : KeySlot) : (s.setKey i x).panel = s.panel := rfl
@[simp] theorem State.setKey_plate (s : State) (i : Nat) (x : KeySlot) : (s.setKey i x).plate = s.plate := rfl
@[simp] theorem State.setKey_ring (s : State) (i : Nat) (x : KeySlot) : (s.setKey i x).ring = s.ring := rfl
@[simp] theorem State.setKey_power (s : State) (i : Nat) (x : KeySlot) : (s.setKey i x).power = s.power := rfl
@[simp] theorem State.setKey_mram_serial (s : State) (i : Nat) (x : KeySlot) : (s.setKey i x).mram.serial = s.mram.serial := rfl
@[simp] theorem State.setKey_mram_started (s : State) (i : Nat) (x : KeySlot) : (s.setKey i x).mram.started = s.mram.started := rfl
@[simp] theorem State.setKey_mram_torn (s : State) (i : Nat) (x : KeySlot) : (s.setKey i x).mram.torn = s.mram.torn := rfl
@[simp] theorem State.setKey_mram_journal (s : State) (i : Nat) (x : KeySlot) : (s.setKey i x).mram.journal = s.mram.journal := rfl
@[simp] theorem State.setKey_mram_variant (s : State) (i : Nat) (x : KeySlot) : (s.setKey i x).mram.variant = s.mram.variant := rfl
@[simp] theorem State.setKey_mram_mac (s : State) (i : Nat) (x : KeySlot) : (s.setKey i x).mram.mac = s.mram.mac := rfl
@[simp] theorem State.setKey_mram_addressed (s : State) (i : Nat) (x : KeySlot) : (s.setKey i x).mram.addressed = s.mram.addressed := rfl
@[simp] theorem State.setKey_mram_address (s : State) (i : Nat) (x : KeySlot) : (s.setKey i x).mram.address = s.mram.address := rfl
@[simp] theorem State.setKey_mram_candidateValid (s : State) (i : Nat) (x : KeySlot) : (s.setKey i x).mram.candidateValid = s.mram.candidateValid := rfl
@[simp] theorem State.setKey_mram_candidate (s : State) (i : Nat) (x : KeySlot) : (s.setKey i x).mram.candidate = s.mram.candidate := rfl
@[simp] theorem State.setKey_mram_hStored (s : State) (i : Nat) (x : KeySlot) : (s.setKey i x).mram.hStored = s.mram.hStored := rfl
@[simp] theorem State.setKey_mram_obj (s : State) (i : Nat) (x : KeySlot) : (s.setKey i x).mram.obj = s.mram.obj := rfl
@[simp] theorem State.setKey_mram_objRestart (s : State) (i : Nat) (x : KeySlot) : (s.setKey i x).mram.objRestart = s.mram.objRestart := rfl
@[simp] theorem State.setKey_mram_canEnable (s : State) (i : Nat) (x : KeySlot) : (s.setKey i x).mram.canEnable = s.mram.canEnable := rfl
@[simp] theorem State.setKey_mram_coeffs (s : State) (i : Nat) (x : KeySlot) : (s.setKey i x).mram.coeffs = s.mram.coeffs := rfl
@[simp] theorem State.setKey_mram_banks (s : State) (i : Nat) (x : KeySlot) : (s.setKey i x).mram.banks = s.mram.banks := rfl
@[simp] theorem State.setKey_mram_runBank (s : State) (i : Nat) (x : KeySlot) : (s.setKey i x).mram.runBank = s.mram.runBank := rfl
@[simp] theorem State.setKey_mram_runStop (s : State) (i : Nat) (x : KeySlot) : (s.setKey i x).mram.runStop = s.mram.runStop := rfl
@[simp] theorem State.setKey_mram_forces (s : State) (i : Nat) (x : KeySlot) : (s.setKey i x).mram.forces = s.mram.forces := rfl
@[simp] theorem State.setKey_mram_retained (s : State) (i : Nat) (x : KeySlot) : (s.setKey i x).mram.retained = s.mram.retained := rfl
@[simp] theorem State.setKey_mram_cycle (s : State) (i : Nat) (x : KeySlot) : (s.setKey i x).mram.cycle = s.mram.cycle := rfl
@[simp] theorem State.setKey_mram_fresh (s : State) (i : Nat) (x : KeySlot) : (s.setKey i x).mram.fresh = s.mram.fresh := rfl
@[simp] theorem State.setKey_mram_fire (s : State) (i : Nat) (x : KeySlot) : (s.setKey i x).mram.fire = s.mram.fire := rfl
@[simp] theorem State.setKey_mram_bankVoid (s : State) (i : Nat) (x : KeySlot) : (s.setKey i x).mram.bankVoid = s.mram.bankVoid := rfl
@[simp] theorem State.setKey_mram_fireVoid (s : State) (i : Nat) (x : KeySlot) : (s.setKey i x).mram.fireVoid = s.mram.fireVoid := rfl
@[simp] theorem State.setKey_mram_sideB (s : State) (i : Nat) (x : KeySlot) : (s.setKey i x).mram.sideB = s.mram.sideB := rfl
@[simp] theorem State.setKey_mram_epoch (s : State) (i : Nat) (x : KeySlot) : (s.setKey i x).mram.epoch = s.mram.epoch := rfl
@[simp] theorem State.setKey_mram_rehearsalAt (s : State) (i : Nat) (x : KeySlot) : (s.setKey i x).mram.rehearsalAt = s.mram.rehearsalAt := rfl
@[simp] theorem State.setKey_mram_totals (s : State) (i : Nat) (x : KeySlot) : (s.setKey i x).mram.totals = s.mram.totals := rfl
@[simp] theorem State.setKey_mram_remap (s : State) (i : Nat) (x : KeySlot) : (s.setKey i x).mram.remap = s.mram.remap := rfl
@[simp] theorem State.setKey_mram_records (s : State) (i : Nat) (x : KeySlot) : (s.setKey i x).mram.records = s.mram.records := rfl
@[simp] theorem State.setKey_mram_newest (s : State) (i : Nat) (x : KeySlot) : (s.setKey i x).mram.newest = s.mram.newest := rfl
@[simp] theorem State.setKey_mram_latest (s : State) (i : Nat) (x : KeySlot) : (s.setKey i x).mram.latest = s.mram.latest := rfl
@[simp] theorem State.setKey_mram_sev (s : State) (i : Nat) (x : KeySlot) : (s.setKey i x).mram.sev = s.mram.sev := rfl
@[simp] theorem State.setKey_mram_shown (s : State) (i : Nat) (x : KeySlot) : (s.setKey i x).mram.shown = s.mram.shown := rfl
@[simp] theorem State.setKey_mram_plateTorn (s : State) (i : Nat) (x : KeySlot) : (s.setKey i x).mram.plateTorn = s.mram.plateTorn := rfl
@[simp] theorem State.setKey_mram_time (s : State) (i : Nat) (x : KeySlot) : (s.setKey i x).mram.time = s.mram.time := rfl
@[simp] theorem State.setKey_mram_lastStart (s : State) (i : Nat) (x : KeySlot) : (s.setKey i x).mram.lastStart = s.mram.lastStart := rfl
@[simp] theorem State.setKey_mram_holdupComplete (s : State) (i : Nat) (x : KeySlot) : (s.setKey i x).mram.holdupComplete = s.mram.holdupComplete := rfl
@[simp] theorem State.setKey_mram_startMs (s : State) (i : Nat) (x : KeySlot) : (s.setKey i x).mram.startMs = s.mram.startMs := rfl
@[simp] theorem State.setKey_mram_holdupMs (s : State) (i : Nat) (x : KeySlot) : (s.setKey i x).mram.holdupMs = s.mram.holdupMs := rfl
@[simp] theorem State.setKey_mram_warnings (s : State) (i : Nat) (x : KeySlot) : (s.setKey i x).mram.warnings = s.mram.warnings := rfl
@[simp] theorem State.setKey_mram_peak (s : State) (i : Nat) (x : KeySlot) : (s.setKey i x).mram.peak = s.mram.peak := rfl
@[simp] theorem State.setKey_mram_fwActivated (s : State) (i : Nat) (x : KeySlot) : (s.setKey i x).mram.fwActivated = s.mram.fwActivated := rfl
@[simp] theorem State.setKey_mram_fwRunning (s : State) (i : Nat) (x : KeySlot) : (s.setKey i x).mram.fwRunning = s.mram.fwRunning := rfl
@[simp] theorem State.modKey_same (s : State) (i : Nat) (f : KeySlot → KeySlot) : (s.modKey i f).key i = f (s.key i) := Tab.get_set_same _ _ _ _
theorem State.modKey_other (s : State) {i j : Nat} (f : KeySlot → KeySlot) (h : j ≠ i) : (s.modKey i f).key j = s.key j := Tab.get_set_other _ _ _ h
@[simp] theorem State.modKey_pending (s : State) (i : Nat) (f : KeySlot → KeySlot) : (s.modKey i f).pending = s.pending := rfl
@[simp] theorem State.modKey_now (s : State) (i : Nat) (f : KeySlot → KeySlot) : (s.modKey i f).now = s.now := rfl
@[simp] theorem State.modKey_freeCount (s : State) (i : Nat) (f : KeySlot → KeySlot) : (s.modKey i f).freeCount = s.freeCount := rfl
@[simp] theorem State.modKey_service (s : State) (i : Nat) (f : KeySlot → KeySlot) : (s.modKey i f).service = s.service := rfl
@[simp] theorem State.modKey_sup (s : State) (i : Nat) (f : KeySlot → KeySlot) : (s.modKey i f).sup = s.sup := rfl
@[simp] theorem State.modKey_islands (s : State) (i : Nat) (f : KeySlot → KeySlot) : (s.modKey i f).islands = s.islands := rfl
@[simp] theorem State.modKey_faultyInterlock (s : State) (i : Nat) (f : KeySlot → KeySlot) : (s.modKey i f).faultyInterlock = s.faultyInterlock := rfl
@[simp] theorem State.modKey_domains (s : State) (i : Nat) (f : KeySlot → KeySlot) : (s.modKey i f).domains = s.domains := rfl
@[simp] theorem State.modKey_crossings (s : State) (i : Nat) (f : KeySlot → KeySlot) : (s.modKey i f).crossings = s.crossings := rfl
@[simp] theorem State.modKey_rounds (s : State) (i : Nat) (f : KeySlot → KeySlot) : (s.modKey i f).rounds = s.rounds := rfl
@[simp] theorem State.modKey_nextSend (s : State) (i : Nat) (f : KeySlot → KeySlot) : (s.modKey i f).nextSend = s.nextSend := rfl
@[simp] theorem State.modKey_mismatches (s : State) (i : Nat) (f : KeySlot → KeySlot) : (s.modKey i f).mismatches = s.mismatches := rfl
@[simp] theorem State.modKey_windowMismatches (s : State) (i : Nat) (f : KeySlot → KeySlot) : (s.modKey i f).windowMismatches = s.windowMismatches := rfl
@[simp] theorem State.modKey_auditAt (s : State) (i : Nat) (f : KeySlot → KeySlot) : (s.modKey i f).auditAt = s.auditAt := rfl
@[simp] theorem State.modKey_square (s : State) (i : Nat) (f : KeySlot → KeySlot) : (s.modKey i f).square = s.square := rfl
@[simp] theorem State.modKey_engines (s : State) (i : Nat) (f : KeySlot → KeySlot) : (s.modKey i f).engines = s.engines := rfl
@[simp] theorem State.modKey_timers (s : State) (i : Nat) (f : KeySlot → KeySlot) : (s.modKey i f).timers = s.timers := rfl
@[simp] theorem State.modKey_counters (s : State) (i : Nat) (f : KeySlot → KeySlot) : (s.modKey i f).counters = s.counters := rfl
@[simp] theorem State.modKey_round (s : State) (i : Nat) (f : KeySlot → KeySlot) : (s.modKey i f).round = s.round := rfl
@[simp] theorem State.modKey_loop (s : State) (i : Nat) (f : KeySlot → KeySlot) : (s.modKey i f).loop = s.loop := rfl
@[simp] theorem State.modKey_ucs (s : State) (i : Nat) (f : KeySlot → KeySlot) : (s.modKey i f).ucs = s.ucs := rfl
@[simp] theorem State.modKey_dis (s : State) (i : Nat) (f : KeySlot → KeySlot) : (s.modKey i f).dis = s.dis := rfl
@[simp] theorem State.modKey_dos (s : State) (i : Nat) (f : KeySlot → KeySlot) : (s.modKey i f).dos = s.dos := rfl
@[simp] theorem State.modKey_diGroups (s : State) (i : Nat) (f : KeySlot → KeySlot) : (s.modKey i f).diGroups = s.diGroups := rfl
@[simp] theorem State.modKey_doGroups (s : State) (i : Nat) (f : KeySlot → KeySlot) : (s.modKey i f).doGroups = s.doGroups := rfl
@[simp] theorem State.modKey_cans (s : State) (i : Nat) (f : KeySlot → KeySlot) : (s.modKey i f).cans = s.cans := rfl
@[simp] theorem State.modKey_fire (s : State) (i : Nat) (f : KeySlot → KeySlot) : (s.modKey i f).fire = s.fire := rfl
@[simp] theorem State.modKey_pair (s : State) (i : Nat) (f : KeySlot → KeySlot) : (s.modKey i f).pair = s.pair := rfl
@[simp] theorem State.modKey_totals (s : State) (i : Nat) (f : KeySlot → KeySlot) : (s.modKey i f).totals = s.totals := rfl
@[simp] theorem State.modKey_locks (s : State) (i : Nat) (f : KeySlot → KeySlot) : (s.modKey i f).locks = s.locks := rfl
@[simp] theorem State.modKey_arrays (s : State) (i : Nat) (f : KeySlot → KeySlot) : (s.modKey i f).arrays = s.arrays := rfl
@[simp] theorem State.modKey_raised (s : State) (i : Nat) (f : KeySlot → KeySlot) : (s.modKey i f).raised = s.raised := rfl
@[simp] theorem State.modKey_upsets (s : State) (i : Nat) (f : KeySlot → KeySlot) : (s.modKey i f).upsets = s.upsets := rfl
@[simp] theorem State.modKey_recQueue (s : State) (i : Nat) (f : KeySlot → KeySlot) : (s.modKey i f).recQueue = s.recQueue := rfl
@[simp] theorem State.modKey_mramChecked (s : State) (i : Nat) (f : KeySlot → KeySlot) : (s.modKey i f).mramChecked = s.mramChecked := rfl
@[simp] theorem State.modKey_panel (s : State) (i : Nat) (f : KeySlot → KeySlot) : (s.modKey i f).panel = s.panel := rfl
@[simp] theorem State.modKey_plate (s : State) (i : Nat) (f : KeySlot → KeySlot) : (s.modKey i f).plate = s.plate := rfl
@[simp] theorem State.modKey_ring (s : State) (i : Nat) (f : KeySlot → KeySlot) : (s.modKey i f).ring = s.ring := rfl
@[simp] theorem State.modKey_power (s : State) (i : Nat) (f : KeySlot → KeySlot) : (s.modKey i f).power = s.power := rfl

/-! ### `setBank` -/

theorem State.modBank_def (s : State) (i : Nat) (f : Bank → Bank) : s.modBank i f = s.setBank i (f (s.bank i)) := rfl
@[simp] theorem State.setBank_same (s : State) (i : Nat) (x : Bank) : (s.setBank i x).bank i = x := Tab.get_set_same _ _ _ _
theorem State.setBank_other (s : State) {i j : Nat} (x : Bank) (h : j ≠ i) : (s.setBank i x).bank j = s.bank j := Tab.get_set_other _ _ _ h
@[simp] theorem State.setBank_pending (s : State) (i : Nat) (x : Bank) : (s.setBank i x).pending = s.pending := rfl
@[simp] theorem State.setBank_now (s : State) (i : Nat) (x : Bank) : (s.setBank i x).now = s.now := rfl
@[simp] theorem State.setBank_freeCount (s : State) (i : Nat) (x : Bank) : (s.setBank i x).freeCount = s.freeCount := rfl
@[simp] theorem State.setBank_service (s : State) (i : Nat) (x : Bank) : (s.setBank i x).service = s.service := rfl
@[simp] theorem State.setBank_sup (s : State) (i : Nat) (x : Bank) : (s.setBank i x).sup = s.sup := rfl
@[simp] theorem State.setBank_islands (s : State) (i : Nat) (x : Bank) : (s.setBank i x).islands = s.islands := rfl
@[simp] theorem State.setBank_faultyInterlock (s : State) (i : Nat) (x : Bank) : (s.setBank i x).faultyInterlock = s.faultyInterlock := rfl
@[simp] theorem State.setBank_domains (s : State) (i : Nat) (x : Bank) : (s.setBank i x).domains = s.domains := rfl
@[simp] theorem State.setBank_crossings (s : State) (i : Nat) (x : Bank) : (s.setBank i x).crossings = s.crossings := rfl
@[simp] theorem State.setBank_rounds (s : State) (i : Nat) (x : Bank) : (s.setBank i x).rounds = s.rounds := rfl
@[simp] theorem State.setBank_nextSend (s : State) (i : Nat) (x : Bank) : (s.setBank i x).nextSend = s.nextSend := rfl
@[simp] theorem State.setBank_mismatches (s : State) (i : Nat) (x : Bank) : (s.setBank i x).mismatches = s.mismatches := rfl
@[simp] theorem State.setBank_windowMismatches (s : State) (i : Nat) (x : Bank) : (s.setBank i x).windowMismatches = s.windowMismatches := rfl
@[simp] theorem State.setBank_auditAt (s : State) (i : Nat) (x : Bank) : (s.setBank i x).auditAt = s.auditAt := rfl
@[simp] theorem State.setBank_square (s : State) (i : Nat) (x : Bank) : (s.setBank i x).square = s.square := rfl
@[simp] theorem State.setBank_engines (s : State) (i : Nat) (x : Bank) : (s.setBank i x).engines = s.engines := rfl
@[simp] theorem State.setBank_timers (s : State) (i : Nat) (x : Bank) : (s.setBank i x).timers = s.timers := rfl
@[simp] theorem State.setBank_counters (s : State) (i : Nat) (x : Bank) : (s.setBank i x).counters = s.counters := rfl
@[simp] theorem State.setBank_round (s : State) (i : Nat) (x : Bank) : (s.setBank i x).round = s.round := rfl
@[simp] theorem State.setBank_loop (s : State) (i : Nat) (x : Bank) : (s.setBank i x).loop = s.loop := rfl
@[simp] theorem State.setBank_ucs (s : State) (i : Nat) (x : Bank) : (s.setBank i x).ucs = s.ucs := rfl
@[simp] theorem State.setBank_dis (s : State) (i : Nat) (x : Bank) : (s.setBank i x).dis = s.dis := rfl
@[simp] theorem State.setBank_dos (s : State) (i : Nat) (x : Bank) : (s.setBank i x).dos = s.dos := rfl
@[simp] theorem State.setBank_diGroups (s : State) (i : Nat) (x : Bank) : (s.setBank i x).diGroups = s.diGroups := rfl
@[simp] theorem State.setBank_doGroups (s : State) (i : Nat) (x : Bank) : (s.setBank i x).doGroups = s.doGroups := rfl
@[simp] theorem State.setBank_cans (s : State) (i : Nat) (x : Bank) : (s.setBank i x).cans = s.cans := rfl
@[simp] theorem State.setBank_fire (s : State) (i : Nat) (x : Bank) : (s.setBank i x).fire = s.fire := rfl
@[simp] theorem State.setBank_pair (s : State) (i : Nat) (x : Bank) : (s.setBank i x).pair = s.pair := rfl
@[simp] theorem State.setBank_totals (s : State) (i : Nat) (x : Bank) : (s.setBank i x).totals = s.totals := rfl
@[simp] theorem State.setBank_locks (s : State) (i : Nat) (x : Bank) : (s.setBank i x).locks = s.locks := rfl
@[simp] theorem State.setBank_arrays (s : State) (i : Nat) (x : Bank) : (s.setBank i x).arrays = s.arrays := rfl
@[simp] theorem State.setBank_raised (s : State) (i : Nat) (x : Bank) : (s.setBank i x).raised = s.raised := rfl
@[simp] theorem State.setBank_upsets (s : State) (i : Nat) (x : Bank) : (s.setBank i x).upsets = s.upsets := rfl
@[simp] theorem State.setBank_recQueue (s : State) (i : Nat) (x : Bank) : (s.setBank i x).recQueue = s.recQueue := rfl
@[simp] theorem State.setBank_mramChecked (s : State) (i : Nat) (x : Bank) : (s.setBank i x).mramChecked = s.mramChecked := rfl
@[simp] theorem State.setBank_panel (s : State) (i : Nat) (x : Bank) : (s.setBank i x).panel = s.panel := rfl
@[simp] theorem State.setBank_plate (s : State) (i : Nat) (x : Bank) : (s.setBank i x).plate = s.plate := rfl
@[simp] theorem State.setBank_ring (s : State) (i : Nat) (x : Bank) : (s.setBank i x).ring = s.ring := rfl
@[simp] theorem State.setBank_power (s : State) (i : Nat) (x : Bank) : (s.setBank i x).power = s.power := rfl
@[simp] theorem State.setBank_mram_serial (s : State) (i : Nat) (x : Bank) : (s.setBank i x).mram.serial = s.mram.serial := rfl
@[simp] theorem State.setBank_mram_voidCopies (s : State) (i : Nat) (x : Bank) : (s.setBank i x).mram.voidCopies = s.mram.voidCopies := rfl
@[simp] theorem State.setBank_mram_started (s : State) (i : Nat) (x : Bank) : (s.setBank i x).mram.started = s.mram.started := rfl
@[simp] theorem State.setBank_mram_torn (s : State) (i : Nat) (x : Bank) : (s.setBank i x).mram.torn = s.mram.torn := rfl
@[simp] theorem State.setBank_mram_journal (s : State) (i : Nat) (x : Bank) : (s.setBank i x).mram.journal = s.mram.journal := rfl
@[simp] theorem State.setBank_mram_variant (s : State) (i : Nat) (x : Bank) : (s.setBank i x).mram.variant = s.mram.variant := rfl
@[simp] theorem State.setBank_mram_mac (s : State) (i : Nat) (x : Bank) : (s.setBank i x).mram.mac = s.mram.mac := rfl
@[simp] theorem State.setBank_mram_addressed (s : State) (i : Nat) (x : Bank) : (s.setBank i x).mram.addressed = s.mram.addressed := rfl
@[simp] theorem State.setBank_mram_address (s : State) (i : Nat) (x : Bank) : (s.setBank i x).mram.address = s.mram.address := rfl
@[simp] theorem State.setBank_mram_candidateValid (s : State) (i : Nat) (x : Bank) : (s.setBank i x).mram.candidateValid = s.mram.candidateValid := rfl
@[simp] theorem State.setBank_mram_candidate (s : State) (i : Nat) (x : Bank) : (s.setBank i x).mram.candidate = s.mram.candidate := rfl
@[simp] theorem State.setBank_mram_keys (s : State) (i : Nat) (x : Bank) : (s.setBank i x).mram.keys = s.mram.keys := rfl
@[simp] theorem State.setBank_mram_hStored (s : State) (i : Nat) (x : Bank) : (s.setBank i x).mram.hStored = s.mram.hStored := rfl
@[simp] theorem State.setBank_mram_obj (s : State) (i : Nat) (x : Bank) : (s.setBank i x).mram.obj = s.mram.obj := rfl
@[simp] theorem State.setBank_mram_objRestart (s : State) (i : Nat) (x : Bank) : (s.setBank i x).mram.objRestart = s.mram.objRestart := rfl
@[simp] theorem State.setBank_mram_canEnable (s : State) (i : Nat) (x : Bank) : (s.setBank i x).mram.canEnable = s.mram.canEnable := rfl
@[simp] theorem State.setBank_mram_coeffs (s : State) (i : Nat) (x : Bank) : (s.setBank i x).mram.coeffs = s.mram.coeffs := rfl
@[simp] theorem State.setBank_mram_runBank (s : State) (i : Nat) (x : Bank) : (s.setBank i x).mram.runBank = s.mram.runBank := rfl
@[simp] theorem State.setBank_mram_runStop (s : State) (i : Nat) (x : Bank) : (s.setBank i x).mram.runStop = s.mram.runStop := rfl
@[simp] theorem State.setBank_mram_forces (s : State) (i : Nat) (x : Bank) : (s.setBank i x).mram.forces = s.mram.forces := rfl
@[simp] theorem State.setBank_mram_retained (s : State) (i : Nat) (x : Bank) : (s.setBank i x).mram.retained = s.mram.retained := rfl
@[simp] theorem State.setBank_mram_cycle (s : State) (i : Nat) (x : Bank) : (s.setBank i x).mram.cycle = s.mram.cycle := rfl
@[simp] theorem State.setBank_mram_fresh (s : State) (i : Nat) (x : Bank) : (s.setBank i x).mram.fresh = s.mram.fresh := rfl
@[simp] theorem State.setBank_mram_fire (s : State) (i : Nat) (x : Bank) : (s.setBank i x).mram.fire = s.mram.fire := rfl
@[simp] theorem State.setBank_mram_bankVoid (s : State) (i : Nat) (x : Bank) : (s.setBank i x).mram.bankVoid = s.mram.bankVoid := rfl
@[simp] theorem State.setBank_mram_fireVoid (s : State) (i : Nat) (x : Bank) : (s.setBank i x).mram.fireVoid = s.mram.fireVoid := rfl
@[simp] theorem State.setBank_mram_sideB (s : State) (i : Nat) (x : Bank) : (s.setBank i x).mram.sideB = s.mram.sideB := rfl
@[simp] theorem State.setBank_mram_epoch (s : State) (i : Nat) (x : Bank) : (s.setBank i x).mram.epoch = s.mram.epoch := rfl
@[simp] theorem State.setBank_mram_seqs (s : State) (i : Nat) (x : Bank) : (s.setBank i x).mram.seqs = s.mram.seqs := rfl
@[simp] theorem State.setBank_mram_rehearsalAt (s : State) (i : Nat) (x : Bank) : (s.setBank i x).mram.rehearsalAt = s.mram.rehearsalAt := rfl
@[simp] theorem State.setBank_mram_totals (s : State) (i : Nat) (x : Bank) : (s.setBank i x).mram.totals = s.mram.totals := rfl
@[simp] theorem State.setBank_mram_remap (s : State) (i : Nat) (x : Bank) : (s.setBank i x).mram.remap = s.mram.remap := rfl
@[simp] theorem State.setBank_mram_records (s : State) (i : Nat) (x : Bank) : (s.setBank i x).mram.records = s.mram.records := rfl
@[simp] theorem State.setBank_mram_newest (s : State) (i : Nat) (x : Bank) : (s.setBank i x).mram.newest = s.mram.newest := rfl
@[simp] theorem State.setBank_mram_latest (s : State) (i : Nat) (x : Bank) : (s.setBank i x).mram.latest = s.mram.latest := rfl
@[simp] theorem State.setBank_mram_sev (s : State) (i : Nat) (x : Bank) : (s.setBank i x).mram.sev = s.mram.sev := rfl
@[simp] theorem State.setBank_mram_shown (s : State) (i : Nat) (x : Bank) : (s.setBank i x).mram.shown = s.mram.shown := rfl
@[simp] theorem State.setBank_mram_plateTorn (s : State) (i : Nat) (x : Bank) : (s.setBank i x).mram.plateTorn = s.mram.plateTorn := rfl
@[simp] theorem State.setBank_mram_time (s : State) (i : Nat) (x : Bank) : (s.setBank i x).mram.time = s.mram.time := rfl
@[simp] theorem State.setBank_mram_lastStart (s : State) (i : Nat) (x : Bank) : (s.setBank i x).mram.lastStart = s.mram.lastStart := rfl
@[simp] theorem State.setBank_mram_holdupComplete (s : State) (i : Nat) (x : Bank) : (s.setBank i x).mram.holdupComplete = s.mram.holdupComplete := rfl
@[simp] theorem State.setBank_mram_startMs (s : State) (i : Nat) (x : Bank) : (s.setBank i x).mram.startMs = s.mram.startMs := rfl
@[simp] theorem State.setBank_mram_holdupMs (s : State) (i : Nat) (x : Bank) : (s.setBank i x).mram.holdupMs = s.mram.holdupMs := rfl
@[simp] theorem State.setBank_mram_warnings (s : State) (i : Nat) (x : Bank) : (s.setBank i x).mram.warnings = s.mram.warnings := rfl
@[simp] theorem State.setBank_mram_peak (s : State) (i : Nat) (x : Bank) : (s.setBank i x).mram.peak = s.mram.peak := rfl
@[simp] theorem State.setBank_mram_fwActivated (s : State) (i : Nat) (x : Bank) : (s.setBank i x).mram.fwActivated = s.mram.fwActivated := rfl
@[simp] theorem State.setBank_mram_fwRunning (s : State) (i : Nat) (x : Bank) : (s.setBank i x).mram.fwRunning = s.mram.fwRunning := rfl
@[simp] theorem State.modBank_same (s : State) (i : Nat) (f : Bank → Bank) : (s.modBank i f).bank i = f (s.bank i) := Tab.get_set_same _ _ _ _
theorem State.modBank_other (s : State) {i j : Nat} (f : Bank → Bank) (h : j ≠ i) : (s.modBank i f).bank j = s.bank j := Tab.get_set_other _ _ _ h
@[simp] theorem State.modBank_pending (s : State) (i : Nat) (f : Bank → Bank) : (s.modBank i f).pending = s.pending := rfl
@[simp] theorem State.modBank_now (s : State) (i : Nat) (f : Bank → Bank) : (s.modBank i f).now = s.now := rfl
@[simp] theorem State.modBank_freeCount (s : State) (i : Nat) (f : Bank → Bank) : (s.modBank i f).freeCount = s.freeCount := rfl
@[simp] theorem State.modBank_service (s : State) (i : Nat) (f : Bank → Bank) : (s.modBank i f).service = s.service := rfl
@[simp] theorem State.modBank_sup (s : State) (i : Nat) (f : Bank → Bank) : (s.modBank i f).sup = s.sup := rfl
@[simp] theorem State.modBank_islands (s : State) (i : Nat) (f : Bank → Bank) : (s.modBank i f).islands = s.islands := rfl
@[simp] theorem State.modBank_faultyInterlock (s : State) (i : Nat) (f : Bank → Bank) : (s.modBank i f).faultyInterlock = s.faultyInterlock := rfl
@[simp] theorem State.modBank_domains (s : State) (i : Nat) (f : Bank → Bank) : (s.modBank i f).domains = s.domains := rfl
@[simp] theorem State.modBank_crossings (s : State) (i : Nat) (f : Bank → Bank) : (s.modBank i f).crossings = s.crossings := rfl
@[simp] theorem State.modBank_rounds (s : State) (i : Nat) (f : Bank → Bank) : (s.modBank i f).rounds = s.rounds := rfl
@[simp] theorem State.modBank_nextSend (s : State) (i : Nat) (f : Bank → Bank) : (s.modBank i f).nextSend = s.nextSend := rfl
@[simp] theorem State.modBank_mismatches (s : State) (i : Nat) (f : Bank → Bank) : (s.modBank i f).mismatches = s.mismatches := rfl
@[simp] theorem State.modBank_windowMismatches (s : State) (i : Nat) (f : Bank → Bank) : (s.modBank i f).windowMismatches = s.windowMismatches := rfl
@[simp] theorem State.modBank_auditAt (s : State) (i : Nat) (f : Bank → Bank) : (s.modBank i f).auditAt = s.auditAt := rfl
@[simp] theorem State.modBank_square (s : State) (i : Nat) (f : Bank → Bank) : (s.modBank i f).square = s.square := rfl
@[simp] theorem State.modBank_engines (s : State) (i : Nat) (f : Bank → Bank) : (s.modBank i f).engines = s.engines := rfl
@[simp] theorem State.modBank_timers (s : State) (i : Nat) (f : Bank → Bank) : (s.modBank i f).timers = s.timers := rfl
@[simp] theorem State.modBank_counters (s : State) (i : Nat) (f : Bank → Bank) : (s.modBank i f).counters = s.counters := rfl
@[simp] theorem State.modBank_round (s : State) (i : Nat) (f : Bank → Bank) : (s.modBank i f).round = s.round := rfl
@[simp] theorem State.modBank_loop (s : State) (i : Nat) (f : Bank → Bank) : (s.modBank i f).loop = s.loop := rfl
@[simp] theorem State.modBank_ucs (s : State) (i : Nat) (f : Bank → Bank) : (s.modBank i f).ucs = s.ucs := rfl
@[simp] theorem State.modBank_dis (s : State) (i : Nat) (f : Bank → Bank) : (s.modBank i f).dis = s.dis := rfl
@[simp] theorem State.modBank_dos (s : State) (i : Nat) (f : Bank → Bank) : (s.modBank i f).dos = s.dos := rfl
@[simp] theorem State.modBank_diGroups (s : State) (i : Nat) (f : Bank → Bank) : (s.modBank i f).diGroups = s.diGroups := rfl
@[simp] theorem State.modBank_doGroups (s : State) (i : Nat) (f : Bank → Bank) : (s.modBank i f).doGroups = s.doGroups := rfl
@[simp] theorem State.modBank_cans (s : State) (i : Nat) (f : Bank → Bank) : (s.modBank i f).cans = s.cans := rfl
@[simp] theorem State.modBank_fire (s : State) (i : Nat) (f : Bank → Bank) : (s.modBank i f).fire = s.fire := rfl
@[simp] theorem State.modBank_pair (s : State) (i : Nat) (f : Bank → Bank) : (s.modBank i f).pair = s.pair := rfl
@[simp] theorem State.modBank_totals (s : State) (i : Nat) (f : Bank → Bank) : (s.modBank i f).totals = s.totals := rfl
@[simp] theorem State.modBank_locks (s : State) (i : Nat) (f : Bank → Bank) : (s.modBank i f).locks = s.locks := rfl
@[simp] theorem State.modBank_arrays (s : State) (i : Nat) (f : Bank → Bank) : (s.modBank i f).arrays = s.arrays := rfl
@[simp] theorem State.modBank_raised (s : State) (i : Nat) (f : Bank → Bank) : (s.modBank i f).raised = s.raised := rfl
@[simp] theorem State.modBank_upsets (s : State) (i : Nat) (f : Bank → Bank) : (s.modBank i f).upsets = s.upsets := rfl
@[simp] theorem State.modBank_recQueue (s : State) (i : Nat) (f : Bank → Bank) : (s.modBank i f).recQueue = s.recQueue := rfl
@[simp] theorem State.modBank_mramChecked (s : State) (i : Nat) (f : Bank → Bank) : (s.modBank i f).mramChecked = s.mramChecked := rfl
@[simp] theorem State.modBank_panel (s : State) (i : Nat) (f : Bank → Bank) : (s.modBank i f).panel = s.panel := rfl
@[simp] theorem State.modBank_plate (s : State) (i : Nat) (f : Bank → Bank) : (s.modBank i f).plate = s.plate := rfl
@[simp] theorem State.modBank_ring (s : State) (i : Nat) (f : Bank → Bank) : (s.modBank i f).ring = s.ring := rfl
@[simp] theorem State.modBank_power (s : State) (i : Nat) (f : Bank → Bank) : (s.modBank i f).power = s.power := rfl

/-! ### `setSevCount` -/

theorem State.modSevCount_def (s : State) (i : Nat) (f : SevCount → SevCount) : s.modSevCount i f = s.setSevCount i (f (s.sevCount i)) := rfl
@[simp] theorem State.setSevCount_same (s : State) (i : Nat) (x : SevCount) : (s.setSevCount i x).sevCount i = x := Tab.get_set_same _ _ _ _
theorem State.setSevCount_other (s : State) {i j : Nat} (x : SevCount) (h : j ≠ i) : (s.setSevCount i x).sevCount j = s.sevCount j := Tab.get_set_other _ _ _ h
@[simp] theorem State.setSevCount_pending (s : State) (i : Nat) (x : SevCount) : (s.setSevCount i x).pending = s.pending := rfl
@[simp] theorem State.setSevCount_now (s : State) (i : Nat) (x : SevCount) : (s.setSevCount i x).now = s.now := rfl
@[simp] theorem State.setSevCount_freeCount (s : State) (i : Nat) (x : SevCount) : (s.setSevCount i x).freeCount = s.freeCount := rfl
@[simp] theorem State.setSevCount_service (s : State) (i : Nat) (x : SevCount) : (s.setSevCount i x).service = s.service := rfl
@[simp] theorem State.setSevCount_sup (s : State) (i : Nat) (x : SevCount) : (s.setSevCount i x).sup = s.sup := rfl
@[simp] theorem State.setSevCount_islands (s : State) (i : Nat) (x : SevCount) : (s.setSevCount i x).islands = s.islands := rfl
@[simp] theorem State.setSevCount_faultyInterlock (s : State) (i : Nat) (x : SevCount) : (s.setSevCount i x).faultyInterlock = s.faultyInterlock := rfl
@[simp] theorem State.setSevCount_domains (s : State) (i : Nat) (x : SevCount) : (s.setSevCount i x).domains = s.domains := rfl
@[simp] theorem State.setSevCount_crossings (s : State) (i : Nat) (x : SevCount) : (s.setSevCount i x).crossings = s.crossings := rfl
@[simp] theorem State.setSevCount_rounds (s : State) (i : Nat) (x : SevCount) : (s.setSevCount i x).rounds = s.rounds := rfl
@[simp] theorem State.setSevCount_nextSend (s : State) (i : Nat) (x : SevCount) : (s.setSevCount i x).nextSend = s.nextSend := rfl
@[simp] theorem State.setSevCount_mismatches (s : State) (i : Nat) (x : SevCount) : (s.setSevCount i x).mismatches = s.mismatches := rfl
@[simp] theorem State.setSevCount_windowMismatches (s : State) (i : Nat) (x : SevCount) : (s.setSevCount i x).windowMismatches = s.windowMismatches := rfl
@[simp] theorem State.setSevCount_auditAt (s : State) (i : Nat) (x : SevCount) : (s.setSevCount i x).auditAt = s.auditAt := rfl
@[simp] theorem State.setSevCount_square (s : State) (i : Nat) (x : SevCount) : (s.setSevCount i x).square = s.square := rfl
@[simp] theorem State.setSevCount_engines (s : State) (i : Nat) (x : SevCount) : (s.setSevCount i x).engines = s.engines := rfl
@[simp] theorem State.setSevCount_timers (s : State) (i : Nat) (x : SevCount) : (s.setSevCount i x).timers = s.timers := rfl
@[simp] theorem State.setSevCount_counters (s : State) (i : Nat) (x : SevCount) : (s.setSevCount i x).counters = s.counters := rfl
@[simp] theorem State.setSevCount_round (s : State) (i : Nat) (x : SevCount) : (s.setSevCount i x).round = s.round := rfl
@[simp] theorem State.setSevCount_loop (s : State) (i : Nat) (x : SevCount) : (s.setSevCount i x).loop = s.loop := rfl
@[simp] theorem State.setSevCount_ucs (s : State) (i : Nat) (x : SevCount) : (s.setSevCount i x).ucs = s.ucs := rfl
@[simp] theorem State.setSevCount_dis (s : State) (i : Nat) (x : SevCount) : (s.setSevCount i x).dis = s.dis := rfl
@[simp] theorem State.setSevCount_dos (s : State) (i : Nat) (x : SevCount) : (s.setSevCount i x).dos = s.dos := rfl
@[simp] theorem State.setSevCount_diGroups (s : State) (i : Nat) (x : SevCount) : (s.setSevCount i x).diGroups = s.diGroups := rfl
@[simp] theorem State.setSevCount_doGroups (s : State) (i : Nat) (x : SevCount) : (s.setSevCount i x).doGroups = s.doGroups := rfl
@[simp] theorem State.setSevCount_cans (s : State) (i : Nat) (x : SevCount) : (s.setSevCount i x).cans = s.cans := rfl
@[simp] theorem State.setSevCount_fire (s : State) (i : Nat) (x : SevCount) : (s.setSevCount i x).fire = s.fire := rfl
@[simp] theorem State.setSevCount_pair (s : State) (i : Nat) (x : SevCount) : (s.setSevCount i x).pair = s.pair := rfl
@[simp] theorem State.setSevCount_totals (s : State) (i : Nat) (x : SevCount) : (s.setSevCount i x).totals = s.totals := rfl
@[simp] theorem State.setSevCount_locks (s : State) (i : Nat) (x : SevCount) : (s.setSevCount i x).locks = s.locks := rfl
@[simp] theorem State.setSevCount_arrays (s : State) (i : Nat) (x : SevCount) : (s.setSevCount i x).arrays = s.arrays := rfl
@[simp] theorem State.setSevCount_raised (s : State) (i : Nat) (x : SevCount) : (s.setSevCount i x).raised = s.raised := rfl
@[simp] theorem State.setSevCount_upsets (s : State) (i : Nat) (x : SevCount) : (s.setSevCount i x).upsets = s.upsets := rfl
@[simp] theorem State.setSevCount_recQueue (s : State) (i : Nat) (x : SevCount) : (s.setSevCount i x).recQueue = s.recQueue := rfl
@[simp] theorem State.setSevCount_mramChecked (s : State) (i : Nat) (x : SevCount) : (s.setSevCount i x).mramChecked = s.mramChecked := rfl
@[simp] theorem State.setSevCount_panel (s : State) (i : Nat) (x : SevCount) : (s.setSevCount i x).panel = s.panel := rfl
@[simp] theorem State.setSevCount_plate (s : State) (i : Nat) (x : SevCount) : (s.setSevCount i x).plate = s.plate := rfl
@[simp] theorem State.setSevCount_ring (s : State) (i : Nat) (x : SevCount) : (s.setSevCount i x).ring = s.ring := rfl
@[simp] theorem State.setSevCount_power (s : State) (i : Nat) (x : SevCount) : (s.setSevCount i x).power = s.power := rfl
@[simp] theorem State.setSevCount_mram_serial (s : State) (i : Nat) (x : SevCount) : (s.setSevCount i x).mram.serial = s.mram.serial := rfl
@[simp] theorem State.setSevCount_mram_voidCopies (s : State) (i : Nat) (x : SevCount) : (s.setSevCount i x).mram.voidCopies = s.mram.voidCopies := rfl
@[simp] theorem State.setSevCount_mram_seqs (s : State) (i : Nat) (x : SevCount) : (s.setSevCount i x).mram.seqs = s.mram.seqs := rfl
@[simp] theorem State.setSevCount_mram_started (s : State) (i : Nat) (x : SevCount) : (s.setSevCount i x).mram.started = s.mram.started := rfl
@[simp] theorem State.setSevCount_mram_torn (s : State) (i : Nat) (x : SevCount) : (s.setSevCount i x).mram.torn = s.mram.torn := rfl
@[simp] theorem State.setSevCount_mram_journal (s : State) (i : Nat) (x : SevCount) : (s.setSevCount i x).mram.journal = s.mram.journal := rfl
@[simp] theorem State.setSevCount_mram_variant (s : State) (i : Nat) (x : SevCount) : (s.setSevCount i x).mram.variant = s.mram.variant := rfl
@[simp] theorem State.setSevCount_mram_mac (s : State) (i : Nat) (x : SevCount) : (s.setSevCount i x).mram.mac = s.mram.mac := rfl
@[simp] theorem State.setSevCount_mram_addressed (s : State) (i : Nat) (x : SevCount) : (s.setSevCount i x).mram.addressed = s.mram.addressed := rfl
@[simp] theorem State.setSevCount_mram_address (s : State) (i : Nat) (x : SevCount) : (s.setSevCount i x).mram.address = s.mram.address := rfl
@[simp] theorem State.setSevCount_mram_candidateValid (s : State) (i : Nat) (x : SevCount) : (s.setSevCount i x).mram.candidateValid = s.mram.candidateValid := rfl
@[simp] theorem State.setSevCount_mram_candidate (s : State) (i : Nat) (x : SevCount) : (s.setSevCount i x).mram.candidate = s.mram.candidate := rfl
@[simp] theorem State.setSevCount_mram_keys (s : State) (i : Nat) (x : SevCount) : (s.setSevCount i x).mram.keys = s.mram.keys := rfl
@[simp] theorem State.setSevCount_mram_hStored (s : State) (i : Nat) (x : SevCount) : (s.setSevCount i x).mram.hStored = s.mram.hStored := rfl
@[simp] theorem State.setSevCount_mram_obj (s : State) (i : Nat) (x : SevCount) : (s.setSevCount i x).mram.obj = s.mram.obj := rfl
@[simp] theorem State.setSevCount_mram_objRestart (s : State) (i : Nat) (x : SevCount) : (s.setSevCount i x).mram.objRestart = s.mram.objRestart := rfl
@[simp] theorem State.setSevCount_mram_canEnable (s : State) (i : Nat) (x : SevCount) : (s.setSevCount i x).mram.canEnable = s.mram.canEnable := rfl
@[simp] theorem State.setSevCount_mram_coeffs (s : State) (i : Nat) (x : SevCount) : (s.setSevCount i x).mram.coeffs = s.mram.coeffs := rfl
@[simp] theorem State.setSevCount_mram_banks (s : State) (i : Nat) (x : SevCount) : (s.setSevCount i x).mram.banks = s.mram.banks := rfl
@[simp] theorem State.setSevCount_mram_runBank (s : State) (i : Nat) (x : SevCount) : (s.setSevCount i x).mram.runBank = s.mram.runBank := rfl
@[simp] theorem State.setSevCount_mram_runStop (s : State) (i : Nat) (x : SevCount) : (s.setSevCount i x).mram.runStop = s.mram.runStop := rfl
@[simp] theorem State.setSevCount_mram_forces (s : State) (i : Nat) (x : SevCount) : (s.setSevCount i x).mram.forces = s.mram.forces := rfl
@[simp] theorem State.setSevCount_mram_retained (s : State) (i : Nat) (x : SevCount) : (s.setSevCount i x).mram.retained = s.mram.retained := rfl
@[simp] theorem State.setSevCount_mram_cycle (s : State) (i : Nat) (x : SevCount) : (s.setSevCount i x).mram.cycle = s.mram.cycle := rfl
@[simp] theorem State.setSevCount_mram_fresh (s : State) (i : Nat) (x : SevCount) : (s.setSevCount i x).mram.fresh = s.mram.fresh := rfl
@[simp] theorem State.setSevCount_mram_fire (s : State) (i : Nat) (x : SevCount) : (s.setSevCount i x).mram.fire = s.mram.fire := rfl
@[simp] theorem State.setSevCount_mram_bankVoid (s : State) (i : Nat) (x : SevCount) : (s.setSevCount i x).mram.bankVoid = s.mram.bankVoid := rfl
@[simp] theorem State.setSevCount_mram_fireVoid (s : State) (i : Nat) (x : SevCount) : (s.setSevCount i x).mram.fireVoid = s.mram.fireVoid := rfl
@[simp] theorem State.setSevCount_mram_sideB (s : State) (i : Nat) (x : SevCount) : (s.setSevCount i x).mram.sideB = s.mram.sideB := rfl
@[simp] theorem State.setSevCount_mram_epoch (s : State) (i : Nat) (x : SevCount) : (s.setSevCount i x).mram.epoch = s.mram.epoch := rfl
@[simp] theorem State.setSevCount_mram_rehearsalAt (s : State) (i : Nat) (x : SevCount) : (s.setSevCount i x).mram.rehearsalAt = s.mram.rehearsalAt := rfl
@[simp] theorem State.setSevCount_mram_totals (s : State) (i : Nat) (x : SevCount) : (s.setSevCount i x).mram.totals = s.mram.totals := rfl
@[simp] theorem State.setSevCount_mram_remap (s : State) (i : Nat) (x : SevCount) : (s.setSevCount i x).mram.remap = s.mram.remap := rfl
@[simp] theorem State.setSevCount_mram_records (s : State) (i : Nat) (x : SevCount) : (s.setSevCount i x).mram.records = s.mram.records := rfl
@[simp] theorem State.setSevCount_mram_newest (s : State) (i : Nat) (x : SevCount) : (s.setSevCount i x).mram.newest = s.mram.newest := rfl
@[simp] theorem State.setSevCount_mram_latest (s : State) (i : Nat) (x : SevCount) : (s.setSevCount i x).mram.latest = s.mram.latest := rfl
@[simp] theorem State.setSevCount_mram_shown (s : State) (i : Nat) (x : SevCount) : (s.setSevCount i x).mram.shown = s.mram.shown := rfl
@[simp] theorem State.setSevCount_mram_plateTorn (s : State) (i : Nat) (x : SevCount) : (s.setSevCount i x).mram.plateTorn = s.mram.plateTorn := rfl
@[simp] theorem State.setSevCount_mram_time (s : State) (i : Nat) (x : SevCount) : (s.setSevCount i x).mram.time = s.mram.time := rfl
@[simp] theorem State.setSevCount_mram_lastStart (s : State) (i : Nat) (x : SevCount) : (s.setSevCount i x).mram.lastStart = s.mram.lastStart := rfl
@[simp] theorem State.setSevCount_mram_holdupComplete (s : State) (i : Nat) (x : SevCount) : (s.setSevCount i x).mram.holdupComplete = s.mram.holdupComplete := rfl
@[simp] theorem State.setSevCount_mram_startMs (s : State) (i : Nat) (x : SevCount) : (s.setSevCount i x).mram.startMs = s.mram.startMs := rfl
@[simp] theorem State.setSevCount_mram_holdupMs (s : State) (i : Nat) (x : SevCount) : (s.setSevCount i x).mram.holdupMs = s.mram.holdupMs := rfl
@[simp] theorem State.setSevCount_mram_warnings (s : State) (i : Nat) (x : SevCount) : (s.setSevCount i x).mram.warnings = s.mram.warnings := rfl
@[simp] theorem State.setSevCount_mram_peak (s : State) (i : Nat) (x : SevCount) : (s.setSevCount i x).mram.peak = s.mram.peak := rfl
@[simp] theorem State.setSevCount_mram_fwActivated (s : State) (i : Nat) (x : SevCount) : (s.setSevCount i x).mram.fwActivated = s.mram.fwActivated := rfl
@[simp] theorem State.setSevCount_mram_fwRunning (s : State) (i : Nat) (x : SevCount) : (s.setSevCount i x).mram.fwRunning = s.mram.fwRunning := rfl
@[simp] theorem State.modSevCount_same (s : State) (i : Nat) (f : SevCount → SevCount) : (s.modSevCount i f).sevCount i = f (s.sevCount i) := Tab.get_set_same _ _ _ _
theorem State.modSevCount_other (s : State) {i j : Nat} (f : SevCount → SevCount) (h : j ≠ i) : (s.modSevCount i f).sevCount j = s.sevCount j := Tab.get_set_other _ _ _ h
@[simp] theorem State.modSevCount_pending (s : State) (i : Nat) (f : SevCount → SevCount) : (s.modSevCount i f).pending = s.pending := rfl
@[simp] theorem State.modSevCount_now (s : State) (i : Nat) (f : SevCount → SevCount) : (s.modSevCount i f).now = s.now := rfl
@[simp] theorem State.modSevCount_freeCount (s : State) (i : Nat) (f : SevCount → SevCount) : (s.modSevCount i f).freeCount = s.freeCount := rfl
@[simp] theorem State.modSevCount_service (s : State) (i : Nat) (f : SevCount → SevCount) : (s.modSevCount i f).service = s.service := rfl
@[simp] theorem State.modSevCount_sup (s : State) (i : Nat) (f : SevCount → SevCount) : (s.modSevCount i f).sup = s.sup := rfl
@[simp] theorem State.modSevCount_islands (s : State) (i : Nat) (f : SevCount → SevCount) : (s.modSevCount i f).islands = s.islands := rfl
@[simp] theorem State.modSevCount_faultyInterlock (s : State) (i : Nat) (f : SevCount → SevCount) : (s.modSevCount i f).faultyInterlock = s.faultyInterlock := rfl
@[simp] theorem State.modSevCount_domains (s : State) (i : Nat) (f : SevCount → SevCount) : (s.modSevCount i f).domains = s.domains := rfl
@[simp] theorem State.modSevCount_crossings (s : State) (i : Nat) (f : SevCount → SevCount) : (s.modSevCount i f).crossings = s.crossings := rfl
@[simp] theorem State.modSevCount_rounds (s : State) (i : Nat) (f : SevCount → SevCount) : (s.modSevCount i f).rounds = s.rounds := rfl
@[simp] theorem State.modSevCount_nextSend (s : State) (i : Nat) (f : SevCount → SevCount) : (s.modSevCount i f).nextSend = s.nextSend := rfl
@[simp] theorem State.modSevCount_mismatches (s : State) (i : Nat) (f : SevCount → SevCount) : (s.modSevCount i f).mismatches = s.mismatches := rfl
@[simp] theorem State.modSevCount_windowMismatches (s : State) (i : Nat) (f : SevCount → SevCount) : (s.modSevCount i f).windowMismatches = s.windowMismatches := rfl
@[simp] theorem State.modSevCount_auditAt (s : State) (i : Nat) (f : SevCount → SevCount) : (s.modSevCount i f).auditAt = s.auditAt := rfl
@[simp] theorem State.modSevCount_square (s : State) (i : Nat) (f : SevCount → SevCount) : (s.modSevCount i f).square = s.square := rfl
@[simp] theorem State.modSevCount_engines (s : State) (i : Nat) (f : SevCount → SevCount) : (s.modSevCount i f).engines = s.engines := rfl
@[simp] theorem State.modSevCount_timers (s : State) (i : Nat) (f : SevCount → SevCount) : (s.modSevCount i f).timers = s.timers := rfl
@[simp] theorem State.modSevCount_counters (s : State) (i : Nat) (f : SevCount → SevCount) : (s.modSevCount i f).counters = s.counters := rfl
@[simp] theorem State.modSevCount_round (s : State) (i : Nat) (f : SevCount → SevCount) : (s.modSevCount i f).round = s.round := rfl
@[simp] theorem State.modSevCount_loop (s : State) (i : Nat) (f : SevCount → SevCount) : (s.modSevCount i f).loop = s.loop := rfl
@[simp] theorem State.modSevCount_ucs (s : State) (i : Nat) (f : SevCount → SevCount) : (s.modSevCount i f).ucs = s.ucs := rfl
@[simp] theorem State.modSevCount_dis (s : State) (i : Nat) (f : SevCount → SevCount) : (s.modSevCount i f).dis = s.dis := rfl
@[simp] theorem State.modSevCount_dos (s : State) (i : Nat) (f : SevCount → SevCount) : (s.modSevCount i f).dos = s.dos := rfl
@[simp] theorem State.modSevCount_diGroups (s : State) (i : Nat) (f : SevCount → SevCount) : (s.modSevCount i f).diGroups = s.diGroups := rfl
@[simp] theorem State.modSevCount_doGroups (s : State) (i : Nat) (f : SevCount → SevCount) : (s.modSevCount i f).doGroups = s.doGroups := rfl
@[simp] theorem State.modSevCount_cans (s : State) (i : Nat) (f : SevCount → SevCount) : (s.modSevCount i f).cans = s.cans := rfl
@[simp] theorem State.modSevCount_fire (s : State) (i : Nat) (f : SevCount → SevCount) : (s.modSevCount i f).fire = s.fire := rfl
@[simp] theorem State.modSevCount_pair (s : State) (i : Nat) (f : SevCount → SevCount) : (s.modSevCount i f).pair = s.pair := rfl
@[simp] theorem State.modSevCount_totals (s : State) (i : Nat) (f : SevCount → SevCount) : (s.modSevCount i f).totals = s.totals := rfl
@[simp] theorem State.modSevCount_locks (s : State) (i : Nat) (f : SevCount → SevCount) : (s.modSevCount i f).locks = s.locks := rfl
@[simp] theorem State.modSevCount_arrays (s : State) (i : Nat) (f : SevCount → SevCount) : (s.modSevCount i f).arrays = s.arrays := rfl
@[simp] theorem State.modSevCount_raised (s : State) (i : Nat) (f : SevCount → SevCount) : (s.modSevCount i f).raised = s.raised := rfl
@[simp] theorem State.modSevCount_upsets (s : State) (i : Nat) (f : SevCount → SevCount) : (s.modSevCount i f).upsets = s.upsets := rfl
@[simp] theorem State.modSevCount_recQueue (s : State) (i : Nat) (f : SevCount → SevCount) : (s.modSevCount i f).recQueue = s.recQueue := rfl
@[simp] theorem State.modSevCount_mramChecked (s : State) (i : Nat) (f : SevCount → SevCount) : (s.modSevCount i f).mramChecked = s.mramChecked := rfl
@[simp] theorem State.modSevCount_panel (s : State) (i : Nat) (f : SevCount → SevCount) : (s.modSevCount i f).panel = s.panel := rfl
@[simp] theorem State.modSevCount_plate (s : State) (i : Nat) (f : SevCount → SevCount) : (s.modSevCount i f).plate = s.plate := rfl
@[simp] theorem State.modSevCount_ring (s : State) (i : Nat) (f : SevCount → SevCount) : (s.modSevCount i f).ring = s.ring := rfl
@[simp] theorem State.modSevCount_power (s : State) (i : Nat) (f : SevCount → SevCount) : (s.modSevCount i f).power = s.power := rfl

/-! ### `draw` -/

@[simp] theorem State.draw_pending (s : State) : s.draw.pending = s.pending := rfl
@[simp] theorem State.draw_now (s : State) : s.draw.now = s.now := rfl
@[simp] theorem State.draw_service (s : State) : s.draw.service = s.service := rfl
@[simp] theorem State.draw_mram (s : State) : s.draw.mram = s.mram := rfl
@[simp] theorem State.draw_sup (s : State) : s.draw.sup = s.sup := rfl
@[simp] theorem State.draw_islands (s : State) : s.draw.islands = s.islands := rfl
@[simp] theorem State.draw_faultyInterlock (s : State) : s.draw.faultyInterlock = s.faultyInterlock := rfl
@[simp] theorem State.draw_domains (s : State) : s.draw.domains = s.domains := rfl
@[simp] theorem State.draw_crossings (s : State) : s.draw.crossings = s.crossings := rfl
@[simp] theorem State.draw_rounds (s : State) : s.draw.rounds = s.rounds := rfl
@[simp] theorem State.draw_nextSend (s : State) : s.draw.nextSend = s.nextSend := rfl
@[simp] theorem State.draw_mismatches (s : State) : s.draw.mismatches = s.mismatches := rfl
@[simp] theorem State.draw_windowMismatches (s : State) : s.draw.windowMismatches = s.windowMismatches := rfl
@[simp] theorem State.draw_auditAt (s : State) : s.draw.auditAt = s.auditAt := rfl
@[simp] theorem State.draw_square (s : State) : s.draw.square = s.square := rfl
@[simp] theorem State.draw_engines (s : State) : s.draw.engines = s.engines := rfl
@[simp] theorem State.draw_timers (s : State) : s.draw.timers = s.timers := rfl
@[simp] theorem State.draw_counters (s : State) : s.draw.counters = s.counters := rfl
@[simp] theorem State.draw_round (s : State) : s.draw.round = s.round := rfl
@[simp] theorem State.draw_loop (s : State) : s.draw.loop = s.loop := rfl
@[simp] theorem State.draw_ucs (s : State) : s.draw.ucs = s.ucs := rfl
@[simp] theorem State.draw_dis (s : State) : s.draw.dis = s.dis := rfl
@[simp] theorem State.draw_dos (s : State) : s.draw.dos = s.dos := rfl
@[simp] theorem State.draw_diGroups (s : State) : s.draw.diGroups = s.diGroups := rfl
@[simp] theorem State.draw_doGroups (s : State) : s.draw.doGroups = s.doGroups := rfl
@[simp] theorem State.draw_cans (s : State) : s.draw.cans = s.cans := rfl
@[simp] theorem State.draw_fire (s : State) : s.draw.fire = s.fire := rfl
@[simp] theorem State.draw_pair (s : State) : s.draw.pair = s.pair := rfl
@[simp] theorem State.draw_totals (s : State) : s.draw.totals = s.totals := rfl
@[simp] theorem State.draw_locks (s : State) : s.draw.locks = s.locks := rfl
@[simp] theorem State.draw_arrays (s : State) : s.draw.arrays = s.arrays := rfl
@[simp] theorem State.draw_raised (s : State) : s.draw.raised = s.raised := rfl
@[simp] theorem State.draw_upsets (s : State) : s.draw.upsets = s.upsets := rfl
@[simp] theorem State.draw_recQueue (s : State) : s.draw.recQueue = s.recQueue := rfl
@[simp] theorem State.draw_mramChecked (s : State) : s.draw.mramChecked = s.mramChecked := rfl
@[simp] theorem State.draw_panel (s : State) : s.draw.panel = s.panel := rfl
@[simp] theorem State.draw_plate (s : State) : s.draw.plate = s.plate := rfl
@[simp] theorem State.draw_ring (s : State) : s.draw.ring = s.ring := rfl
@[simp] theorem State.draw_power (s : State) : s.draw.power = s.power := rfl

end Sys2Proof.Machine
end

