-- ==== Sys2Proof/Laws/Command.lean ====
section
/-! SUPPORT. What acceptance, replies, records and firings can do to the state: one lemma for each shared operation. -/

namespace Sys2Proof.Machine

open Sys2Proof

/-! ## Replies, records, firings: what they leave alone -/

@[simp] theorem State.owe_pending (s : State) (c : Ctx) (st : Status) (cycle : BitVec 32) (body : List Byte) (counts : Bool) : (s.owe c st cycle body counts).pending = s.pending := by unfold State.owe; (repeat' split) <;> rfl
@[simp] theorem State.owe_now (s : State) (c : Ctx) (st : Status) (cycle : BitVec 32) (body : List Byte) (counts : Bool) : (s.owe c st cycle body counts).now = s.now := by unfold State.owe; (repeat' split) <;> rfl
@[simp] theorem State.owe_freeCount (s : State) (c : Ctx) (st : Status) (cycle : BitVec 32) (body : List Byte) (counts : Bool) : (s.owe c st cycle body counts).freeCount = s.freeCount := by unfold State.owe; (repeat' split) <;> rfl
@[simp] theorem State.owe_service (s : State) (c : Ctx) (st : Status) (cycle : BitVec 32) (body : List Byte) (counts : Bool) : (s.owe c st cycle body counts).service = s.service := by unfold State.owe; (repeat' split) <;> rfl
@[simp] theorem State.owe_mram (s : State) (c : Ctx) (st : Status) (cycle : BitVec 32) (body : List Byte) (counts : Bool) : (s.owe c st cycle body counts).mram = s.mram := by unfold State.owe; (repeat' split) <;> rfl
@[simp] theorem State.owe_islands (s : State) (c : Ctx) (st : Status) (cycle : BitVec 32) (body : List Byte) (counts : Bool) : (s.owe c st cycle body counts).islands = s.islands := by unfold State.owe; (repeat' split) <;> rfl
@[simp] theorem State.owe_faultyInterlock (s : State) (c : Ctx) (st : Status) (cycle : BitVec 32) (body : List Byte) (counts : Bool) : (s.owe c st cycle body counts).faultyInterlock = s.faultyInterlock := by unfold State.owe; (repeat' split) <;> rfl
@[simp] theorem State.owe_domains (s : State) (c : Ctx) (st : Status) (cycle : BitVec 32) (body : List Byte) (counts : Bool) : (s.owe c st cycle body counts).domains = s.domains := by unfold State.owe; (repeat' split) <;> rfl
@[simp] theorem State.owe_crossings (s : State) (c : Ctx) (st : Status) (cycle : BitVec 32) (body : List Byte) (counts : Bool) : (s.owe c st cycle body counts).crossings = s.crossings := by unfold State.owe; (repeat' split) <;> rfl
@[simp] theorem State.owe_rounds (s : State) (c : Ctx) (st : Status) (cycle : BitVec 32) (body : List Byte) (counts : Bool) : (s.owe c st cycle body counts).rounds = s.rounds := by unfold State.owe; (repeat' split) <;> rfl
@[simp] theorem State.owe_nextSend (s : State) (c : Ctx) (st : Status) (cycle : BitVec 32) (body : List Byte) (counts : Bool) : (s.owe c st cycle body counts).nextSend = s.nextSend := by unfold State.owe; (repeat' split) <;> rfl
@[simp] theorem State.owe_mismatches (s : State) (c : Ctx) (st : Status) (cycle : BitVec 32) (body : List Byte) (counts : Bool) : (s.owe c st cycle body counts).mismatches = s.mismatches := by unfold State.owe; (repeat' split) <;> rfl
@[simp] theorem State.owe_windowMismatches (s : State) (c : Ctx) (st : Status) (cycle : BitVec 32) (body : List Byte) (counts : Bool) : (s.owe c st cycle body counts).windowMismatches = s.windowMismatches := by unfold State.owe; (repeat' split) <;> rfl
@[simp] theorem State.owe_auditAt (s : State) (c : Ctx) (st : Status) (cycle : BitVec 32) (body : List Byte) (counts : Bool) : (s.owe c st cycle body counts).auditAt = s.auditAt := by unfold State.owe; (repeat' split) <;> rfl
@[simp] theorem State.owe_square (s : State) (c : Ctx) (st : Status) (cycle : BitVec 32) (body : List Byte) (counts : Bool) : (s.owe c st cycle body counts).square = s.square := by unfold State.owe; (repeat' split) <;> rfl
@[simp] theorem State.owe_engines (s : State) (c : Ctx) (st : Status) (cycle : BitVec 32) (body : List Byte) (counts : Bool) : (s.owe c st cycle body counts).engines = s.engines := by unfold State.owe; (repeat' split) <;> rfl
@[simp] theorem State.owe_timers (s : State) (c : Ctx) (st : Status) (cycle : BitVec 32) (body : List Byte) (counts : Bool) : (s.owe c st cycle body counts).timers = s.timers := by unfold State.owe; (repeat' split) <;> rfl
@[simp] theorem State.owe_counters (s : State) (c : Ctx) (st : Status) (cycle : BitVec 32) (body : List Byte) (counts : Bool) : (s.owe c st cycle body counts).counters = s.counters := by unfold State.owe; (repeat' split) <;> rfl
@[simp] theorem State.owe_round (s : State) (c : Ctx) (st : Status) (cycle : BitVec 32) (body : List Byte) (counts : Bool) : (s.owe c st cycle body counts).round = s.round := by unfold State.owe; (repeat' split) <;> rfl
@[simp] theorem State.owe_loop (s : State) (c : Ctx) (st : Status) (cycle : BitVec 32) (body : List Byte) (counts : Bool) : (s.owe c st cycle body counts).loop = s.loop := by unfold State.owe; (repeat' split) <;> rfl
@[simp] theorem State.owe_ucs (s : State) (c : Ctx) (st : Status) (cycle : BitVec 32) (body : List Byte) (counts : Bool) : (s.owe c st cycle body counts).ucs = s.ucs := by unfold State.owe; (repeat' split) <;> rfl
@[simp] theorem State.owe_dis (s : State) (c : Ctx) (st : Status) (cycle : BitVec 32) (body : List Byte) (counts : Bool) : (s.owe c st cycle body counts).dis = s.dis := by unfold State.owe; (repeat' split) <;> rfl
@[simp] theorem State.owe_dos (s : State) (c : Ctx) (st : Status) (cycle : BitVec 32) (body : List Byte) (counts : Bool) : (s.owe c st cycle body counts).dos = s.dos := by unfold State.owe; (repeat' split) <;> rfl
@[simp] theorem State.owe_diGroups (s : State) (c : Ctx) (st : Status) (cycle : BitVec 32) (body : List Byte) (counts : Bool) : (s.owe c st cycle body counts).diGroups = s.diGroups := by unfold State.owe; (repeat' split) <;> rfl
@[simp] theorem State.owe_doGroups (s : State) (c : Ctx) (st : Status) (cycle : BitVec 32) (body : List Byte) (counts : Bool) : (s.owe c st cycle body counts).doGroups = s.doGroups := by unfold State.owe; (repeat' split) <;> rfl
@[simp] theorem State.owe_cans (s : State) (c : Ctx) (st : Status) (cycle : BitVec 32) (body : List Byte) (counts : Bool) : (s.owe c st cycle body counts).cans = s.cans := by unfold State.owe; (repeat' split) <;> rfl
@[simp] theorem State.owe_fire (s : State) (c : Ctx) (st : Status) (cycle : BitVec 32) (body : List Byte) (counts : Bool) : (s.owe c st cycle body counts).fire = s.fire := by unfold State.owe; (repeat' split) <;> rfl
@[simp] theorem State.owe_pair (s : State) (c : Ctx) (st : Status) (cycle : BitVec 32) (body : List Byte) (counts : Bool) : (s.owe c st cycle body counts).pair = s.pair := by unfold State.owe; (repeat' split) <;> rfl
@[simp] theorem State.owe_totals (s : State) (c : Ctx) (st : Status) (cycle : BitVec 32) (body : List Byte) (counts : Bool) : (s.owe c st cycle body counts).totals = s.totals := by unfold State.owe; (repeat' split) <;> rfl
@[simp] theorem State.owe_locks (s : State) (c : Ctx) (st : Status) (cycle : BitVec 32) (body : List Byte) (counts : Bool) : (s.owe c st cycle body counts).locks = s.locks := by unfold State.owe; (repeat' split) <;> rfl
@[simp] theorem State.owe_arrays (s : State) (c : Ctx) (st : Status) (cycle : BitVec 32) (body : List Byte) (counts : Bool) : (s.owe c st cycle body counts).arrays = s.arrays := by unfold State.owe; (repeat' split) <;> rfl
@[simp] theorem State.owe_raised (s : State) (c : Ctx) (st : Status) (cycle : BitVec 32) (body : List Byte) (counts : Bool) : (s.owe c st cycle body counts).raised = s.raised := by unfold State.owe; (repeat' split) <;> rfl
@[simp] theorem State.owe_upsets (s : State) (c : Ctx) (st : Status) (cycle : BitVec 32) (body : List Byte) (counts : Bool) : (s.owe c st cycle body counts).upsets = s.upsets := by unfold State.owe; (repeat' split) <;> rfl
@[simp] theorem State.owe_recQueue (s : State) (c : Ctx) (st : Status) (cycle : BitVec 32) (body : List Byte) (counts : Bool) : (s.owe c st cycle body counts).recQueue = s.recQueue := by unfold State.owe; (repeat' split) <;> rfl
@[simp] theorem State.owe_mramChecked (s : State) (c : Ctx) (st : Status) (cycle : BitVec 32) (body : List Byte) (counts : Bool) : (s.owe c st cycle body counts).mramChecked = s.mramChecked := by unfold State.owe; (repeat' split) <;> rfl
@[simp] theorem State.owe_panel (s : State) (c : Ctx) (st : Status) (cycle : BitVec 32) (body : List Byte) (counts : Bool) : (s.owe c st cycle body counts).panel = s.panel := by unfold State.owe; (repeat' split) <;> rfl
@[simp] theorem State.owe_plate (s : State) (c : Ctx) (st : Status) (cycle : BitVec 32) (body : List Byte) (counts : Bool) : (s.owe c st cycle body counts).plate = s.plate := by unfold State.owe; (repeat' split) <;> rfl
@[simp] theorem State.owe_ring (s : State) (c : Ctx) (st : Status) (cycle : BitVec 32) (body : List Byte) (counts : Bool) : (s.owe c st cycle body counts).ring = s.ring := by unfold State.owe; (repeat' split) <;> rfl
@[simp] theorem State.owe_power (s : State) (c : Ctx) (st : Status) (cycle : BitVec 32) (body : List Byte) (counts : Bool) : (s.owe c st cycle body counts).power = s.power := by unfold State.owe; (repeat' split) <;> rfl
@[simp] theorem State.reply_pending (s : State) (c : Ctx) (st : Status) (body : List Byte) : (s.reply c st body).pending = s.pending := State.owe_pending _ _ _ _ _ _
@[simp] theorem State.reply_now (s : State) (c : Ctx) (st : Status) (body : List Byte) : (s.reply c st body).now = s.now := State.owe_now _ _ _ _ _ _
@[simp] theorem State.reply_freeCount (s : State) (c : Ctx) (st : Status) (body : List Byte) : (s.reply c st body).freeCount = s.freeCount := State.owe_freeCount _ _ _ _ _ _
@[simp] theorem State.reply_service (s : State) (c : Ctx) (st : Status) (body : List Byte) : (s.reply c st body).service = s.service := State.owe_service _ _ _ _ _ _
@[simp] theorem State.reply_mram (s : State) (c : Ctx) (st : Status) (body : List Byte) : (s.reply c st body).mram = s.mram := State.owe_mram _ _ _ _ _ _
@[simp] theorem State.reply_islands (s : State) (c : Ctx) (st : Status) (body : List Byte) : (s.reply c st body).islands = s.islands := State.owe_islands _ _ _ _ _ _
@[simp] theorem State.reply_faultyInterlock (s : State) (c : Ctx) (st : Status) (body : List Byte) : (s.reply c st body).faultyInterlock = s.faultyInterlock := State.owe_faultyInterlock _ _ _ _ _ _
@[simp] theorem State.reply_domains (s : State) (c : Ctx) (st : Status) (body : List Byte) : (s.reply c st body).domains = s.domains := State.owe_domains _ _ _ _ _ _
@[simp] theorem State.reply_crossings (s : State) (c : Ctx) (st : Status) (body : List Byte) : (s.reply c st body).crossings = s.crossings := State.owe_crossings _ _ _ _ _ _
@[simp] theorem State.reply_rounds (s : State) (c : Ctx) (st : Status) (body : List Byte) : (s.reply c st body).rounds = s.rounds := State.owe_rounds _ _ _ _ _ _
@[simp] theorem State.reply_nextSend (s : State) (c : Ctx) (st : Status) (body : List Byte) : (s.reply c st body).nextSend = s.nextSend := State.owe_nextSend _ _ _ _ _ _
@[simp] theorem State.reply_mismatches (s : State) (c : Ctx) (st : Status) (body : List Byte) : (s.reply c st body).mismatches = s.mismatches := State.owe_mismatches _ _ _ _ _ _
@[simp] theorem State.reply_windowMismatches (s : State) (c : Ctx) (st : Status) (body : List Byte) : (s.reply c st body).windowMismatches = s.windowMismatches := State.owe_windowMismatches _ _ _ _ _ _
@[simp] theorem State.reply_auditAt (s : State) (c : Ctx) (st : Status) (body : List Byte) : (s.reply c st body).auditAt = s.auditAt := State.owe_auditAt _ _ _ _ _ _
@[simp] theorem State.reply_square (s : State) (c : Ctx) (st : Status) (body : List Byte) : (s.reply c st body).square = s.square := State.owe_square _ _ _ _ _ _
@[simp] theorem State.reply_engines (s : State) (c : Ctx) (st : Status) (body : List Byte) : (s.reply c st body).engines = s.engines := State.owe_engines _ _ _ _ _ _
@[simp] theorem State.reply_timers (s : State) (c : Ctx) (st : Status) (body : List Byte) : (s.reply c st body).timers = s.timers := State.owe_timers _ _ _ _ _ _
@[simp] theorem State.reply_counters (s : State) (c : Ctx) (st : Status) (body : List Byte) : (s.reply c st body).counters = s.counters := State.owe_counters _ _ _ _ _ _
@[simp] theorem State.reply_round (s : State) (c : Ctx) (st : Status) (body : List Byte) : (s.reply c st body).round = s.round := State.owe_round _ _ _ _ _ _
@[simp] theorem State.reply_loop (s : State) (c : Ctx) (st : Status) (body : List Byte) : (s.reply c st body).loop = s.loop := State.owe_loop _ _ _ _ _ _
@[simp] theorem State.reply_ucs (s : State) (c : Ctx) (st : Status) (body : List Byte) : (s.reply c st body).ucs = s.ucs := State.owe_ucs _ _ _ _ _ _
@[simp] theorem State.reply_dis (s : State) (c : Ctx) (st : Status) (body : List Byte) : (s.reply c st body).dis = s.dis := State.owe_dis _ _ _ _ _ _
@[simp] theorem State.reply_dos (s : State) (c : Ctx) (st : Status) (body : List Byte) : (s.reply c st body).dos = s.dos := State.owe_dos _ _ _ _ _ _
@[simp] theorem State.reply_diGroups (s : State) (c : Ctx) (st : Status) (body : List Byte) : (s.reply c st body).diGroups = s.diGroups := State.owe_diGroups _ _ _ _ _ _
@[simp] theorem State.reply_doGroups (s : State) (c : Ctx) (st : Status) (body : List Byte) : (s.reply c st body).doGroups = s.doGroups := State.owe_doGroups _ _ _ _ _ _
@[simp] theorem State.reply_cans (s : State) (c : Ctx) (st : Status) (body : List Byte) : (s.reply c st body).cans = s.cans := State.owe_cans _ _ _ _ _ _
@[simp] theorem State.reply_fire (s : State) (c : Ctx) (st : Status) (body : List Byte) : (s.reply c st body).fire = s.fire := State.owe_fire _ _ _ _ _ _
@[simp] theorem State.reply_pair (s : State) (c : Ctx) (st : Status) (body : List Byte) : (s.reply c st body).pair = s.pair := State.owe_pair _ _ _ _ _ _
@[simp] theorem State.reply_totals (s : State) (c : Ctx) (st : Status) (body : List Byte) : (s.reply c st body).totals = s.totals := State.owe_totals _ _ _ _ _ _
@[simp] theorem State.reply_locks (s : State) (c : Ctx) (st : Status) (body : List Byte) : (s.reply c st body).locks = s.locks := State.owe_locks _ _ _ _ _ _
@[simp] theorem State.reply_arrays (s : State) (c : Ctx) (st : Status) (body : List Byte) : (s.reply c st body).arrays = s.arrays := State.owe_arrays _ _ _ _ _ _
@[simp] theorem State.reply_raised (s : State) (c : Ctx) (st : Status) (body : List Byte) : (s.reply c st body).raised = s.raised := State.owe_raised _ _ _ _ _ _
@[simp] theorem State.reply_upsets (s : State) (c : Ctx) (st : Status) (body : List Byte) : (s.reply c st body).upsets = s.upsets := State.owe_upsets _ _ _ _ _ _
@[simp] theorem State.reply_recQueue (s : State) (c : Ctx) (st : Status) (body : List Byte) : (s.reply c st body).recQueue = s.recQueue := State.owe_recQueue _ _ _ _ _ _
@[simp] theorem State.reply_mramChecked (s : State) (c : Ctx) (st : Status) (body : List Byte) : (s.reply c st body).mramChecked = s.mramChecked := State.owe_mramChecked _ _ _ _ _ _
@[simp] theorem State.reply_panel (s : State) (c : Ctx) (st : Status) (body : List Byte) : (s.reply c st body).panel = s.panel := State.owe_panel _ _ _ _ _ _
@[simp] theorem State.reply_plate (s : State) (c : Ctx) (st : Status) (body : List Byte) : (s.reply c st body).plate = s.plate := State.owe_plate _ _ _ _ _ _
@[simp] theorem State.reply_ring (s : State) (c : Ctx) (st : Status) (body : List Byte) : (s.reply c st body).ring = s.ring := State.owe_ring _ _ _ _ _ _
@[simp] theorem State.reply_power (s : State) (c : Ctx) (st : Status) (body : List Byte) : (s.reply c st body).power = s.power := State.owe_power _ _ _ _ _ _
@[simp] theorem State.refuse_pending (s : State) (c : Ctx) (st : Status) : (s.refuse c st).pending = s.pending := State.owe_pending _ _ _ _ _ _
@[simp] theorem State.refuse_now (s : State) (c : Ctx) (st : Status) : (s.refuse c st).now = s.now := State.owe_now _ _ _ _ _ _
@[simp] theorem State.refuse_freeCount (s : State) (c : Ctx) (st : Status) : (s.refuse c st).freeCount = s.freeCount := State.owe_freeCount _ _ _ _ _ _
@[simp] theorem State.refuse_service (s : State) (c : Ctx) (st : Status) : (s.refuse c st).service = s.service := State.owe_service _ _ _ _ _ _
@[simp] theorem State.refuse_mram (s : State) (c : Ctx) (st : Status) : (s.refuse c st).mram = s.mram := State.owe_mram _ _ _ _ _ _
@[simp] theorem State.refuse_islands (s : State) (c : Ctx) (st : Status) : (s.refuse c st).islands = s.islands := State.owe_islands _ _ _ _ _ _
@[simp] theorem State.refuse_faultyInterlock (s : State) (c : Ctx) (st : Status) : (s.refuse c st).faultyInterlock = s.faultyInterlock := State.owe_faultyInterlock _ _ _ _ _ _
@[simp] theorem State.refuse_domains (s : State) (c : Ctx) (st : Status) : (s.refuse c st).domains = s.domains := State.owe_domains _ _ _ _ _ _
@[simp] theorem State.refuse_crossings (s : State) (c : Ctx) (st : Status) : (s.refuse c st).crossings = s.crossings := State.owe_crossings _ _ _ _ _ _
@[simp] theorem State.refuse_rounds (s : State) (c : Ctx) (st : Status) : (s.refuse c st).rounds = s.rounds := State.owe_rounds _ _ _ _ _ _
@[simp] theorem State.refuse_nextSend (s : State) (c : Ctx) (st : Status) : (s.refuse c st).nextSend = s.nextSend := State.owe_nextSend _ _ _ _ _ _
@[simp] theorem State.refuse_mismatches (s : State) (c : Ctx) (st : Status) : (s.refuse c st).mismatches = s.mismatches := State.owe_mismatches _ _ _ _ _ _
@[simp] theorem State.refuse_windowMismatches (s : State) (c : Ctx) (st : Status) : (s.refuse c st).windowMismatches = s.windowMismatches := State.owe_windowMismatches _ _ _ _ _ _
@[simp] theorem State.refuse_auditAt (s : State) (c : Ctx) (st : Status) : (s.refuse c st).auditAt = s.auditAt := State.owe_auditAt _ _ _ _ _ _
@[simp] theorem State.refuse_square (s : State) (c : Ctx) (st : Status) : (s.refuse c st).square = s.square := State.owe_square _ _ _ _ _ _
@[simp] theorem State.refuse_engines (s : State) (c : Ctx) (st : Status) : (s.refuse c st).engines = s.engines := State.owe_engines _ _ _ _ _ _
@[simp] theorem State.refuse_timers (s : State) (c : Ctx) (st : Status) : (s.refuse c st).timers = s.timers := State.owe_timers _ _ _ _ _ _
@[simp] theorem State.refuse_counters (s : State) (c : Ctx) (st : Status) : (s.refuse c st).counters = s.counters := State.owe_counters _ _ _ _ _ _
@[simp] theorem State.refuse_round (s : State) (c : Ctx) (st : Status) : (s.refuse c st).round = s.round := State.owe_round _ _ _ _ _ _
@[simp] theorem State.refuse_loop (s : State) (c : Ctx) (st : Status) : (s.refuse c st).loop = s.loop := State.owe_loop _ _ _ _ _ _
@[simp] theorem State.refuse_ucs (s : State) (c : Ctx) (st : Status) : (s.refuse c st).ucs = s.ucs := State.owe_ucs _ _ _ _ _ _
@[simp] theorem State.refuse_dis (s : State) (c : Ctx) (st : Status) : (s.refuse c st).dis = s.dis := State.owe_dis _ _ _ _ _ _
@[simp] theorem State.refuse_dos (s : State) (c : Ctx) (st : Status) : (s.refuse c st).dos = s.dos := State.owe_dos _ _ _ _ _ _
@[simp] theorem State.refuse_diGroups (s : State) (c : Ctx) (st : Status) : (s.refuse c st).diGroups = s.diGroups := State.owe_diGroups _ _ _ _ _ _
@[simp] theorem State.refuse_doGroups (s : State) (c : Ctx) (st : Status) : (s.refuse c st).doGroups = s.doGroups := State.owe_doGroups _ _ _ _ _ _
@[simp] theorem State.refuse_cans (s : State) (c : Ctx) (st : Status) : (s.refuse c st).cans = s.cans := State.owe_cans _ _ _ _ _ _
@[simp] theorem State.refuse_fire (s : State) (c : Ctx) (st : Status) : (s.refuse c st).fire = s.fire := State.owe_fire _ _ _ _ _ _
@[simp] theorem State.refuse_pair (s : State) (c : Ctx) (st : Status) : (s.refuse c st).pair = s.pair := State.owe_pair _ _ _ _ _ _
@[simp] theorem State.refuse_totals (s : State) (c : Ctx) (st : Status) : (s.refuse c st).totals = s.totals := State.owe_totals _ _ _ _ _ _
@[simp] theorem State.refuse_locks (s : State) (c : Ctx) (st : Status) : (s.refuse c st).locks = s.locks := State.owe_locks _ _ _ _ _ _
@[simp] theorem State.refuse_arrays (s : State) (c : Ctx) (st : Status) : (s.refuse c st).arrays = s.arrays := State.owe_arrays _ _ _ _ _ _
@[simp] theorem State.refuse_raised (s : State) (c : Ctx) (st : Status) : (s.refuse c st).raised = s.raised := State.owe_raised _ _ _ _ _ _
@[simp] theorem State.refuse_upsets (s : State) (c : Ctx) (st : Status) : (s.refuse c st).upsets = s.upsets := State.owe_upsets _ _ _ _ _ _
@[simp] theorem State.refuse_recQueue (s : State) (c : Ctx) (st : Status) : (s.refuse c st).recQueue = s.recQueue := State.owe_recQueue _ _ _ _ _ _
@[simp] theorem State.refuse_mramChecked (s : State) (c : Ctx) (st : Status) : (s.refuse c st).mramChecked = s.mramChecked := State.owe_mramChecked _ _ _ _ _ _
@[simp] theorem State.refuse_panel (s : State) (c : Ctx) (st : Status) : (s.refuse c st).panel = s.panel := State.owe_panel _ _ _ _ _ _
@[simp] theorem State.refuse_plate (s : State) (c : Ctx) (st : Status) : (s.refuse c st).plate = s.plate := State.owe_plate _ _ _ _ _ _
@[simp] theorem State.refuse_ring (s : State) (c : Ctx) (st : Status) : (s.refuse c st).ring = s.ring := State.owe_ring _ _ _ _ _ _
@[simp] theorem State.refuse_power (s : State) (c : Ctx) (st : Status) : (s.refuse c st).power = s.power := State.owe_power _ _ _ _ _ _
@[simp] theorem State.ok_pending (s : State) (c : Ctx) : (s.ok c).pending = s.pending := State.owe_pending _ _ _ _ _ _
@[simp] theorem State.ok_now (s : State) (c : Ctx) : (s.ok c).now = s.now := State.owe_now _ _ _ _ _ _
@[simp] theorem State.ok_freeCount (s : State) (c : Ctx) : (s.ok c).freeCount = s.freeCount := State.owe_freeCount _ _ _ _ _ _
@[simp] theorem State.ok_service (s : State) (c : Ctx) : (s.ok c).service = s.service := State.owe_service _ _ _ _ _ _
@[simp] theorem State.ok_mram (s : State) (c : Ctx) : (s.ok c).mram = s.mram := State.owe_mram _ _ _ _ _ _
@[simp] theorem State.ok_islands (s : State) (c : Ctx) : (s.ok c).islands = s.islands := State.owe_islands _ _ _ _ _ _
@[simp] theorem State.ok_faultyInterlock (s : State) (c : Ctx) : (s.ok c).faultyInterlock = s.faultyInterlock := State.owe_faultyInterlock _ _ _ _ _ _
@[simp] theorem State.ok_domains (s : State) (c : Ctx) : (s.ok c).domains = s.domains := State.owe_domains _ _ _ _ _ _
@[simp] theorem State.ok_crossings (s : State) (c : Ctx) : (s.ok c).crossings = s.crossings := State.owe_crossings _ _ _ _ _ _
@[simp] theorem State.ok_rounds (s : State) (c : Ctx) : (s.ok c).rounds = s.rounds := State.owe_rounds _ _ _ _ _ _
@[simp] theorem State.ok_nextSend (s : State) (c : Ctx) : (s.ok c).nextSend = s.nextSend := State.owe_nextSend _ _ _ _ _ _
@[simp] theorem State.ok_mismatches (s : State) (c : Ctx) : (s.ok c).mismatches = s.mismatches := State.owe_mismatches _ _ _ _ _ _
@[simp] theorem State.ok_windowMismatches (s : State) (c : Ctx) : (s.ok c).windowMismatches = s.windowMismatches := State.owe_windowMismatches _ _ _ _ _ _
@[simp] theorem State.ok_auditAt (s : State) (c : Ctx) : (s.ok c).auditAt = s.auditAt := State.owe_auditAt _ _ _ _ _ _
@[simp] theorem State.ok_square (s : State) (c : Ctx) : (s.ok c).square = s.square := State.owe_square _ _ _ _ _ _
@[simp] theorem State.ok_engines (s : State) (c : Ctx) : (s.ok c).engines = s.engines := State.owe_engines _ _ _ _ _ _
@[simp] theorem State.ok_timers (s : State) (c : Ctx) : (s.ok c).timers = s.timers := State.owe_timers _ _ _ _ _ _
@[simp] theorem State.ok_counters (s : State) (c : Ctx) : (s.ok c).counters = s.counters := State.owe_counters _ _ _ _ _ _
@[simp] theorem State.ok_round (s : State) (c : Ctx) : (s.ok c).round = s.round := State.owe_round _ _ _ _ _ _
@[simp] theorem State.ok_loop (s : State) (c : Ctx) : (s.ok c).loop = s.loop := State.owe_loop _ _ _ _ _ _
@[simp] theorem State.ok_ucs (s : State) (c : Ctx) : (s.ok c).ucs = s.ucs := State.owe_ucs _ _ _ _ _ _
@[simp] theorem State.ok_dis (s : State) (c : Ctx) : (s.ok c).dis = s.dis := State.owe_dis _ _ _ _ _ _
@[simp] theorem State.ok_dos (s : State) (c : Ctx) : (s.ok c).dos = s.dos := State.owe_dos _ _ _ _ _ _
@[simp] theorem State.ok_diGroups (s : State) (c : Ctx) : (s.ok c).diGroups = s.diGroups := State.owe_diGroups _ _ _ _ _ _
@[simp] theorem State.ok_doGroups (s : State) (c : Ctx) : (s.ok c).doGroups = s.doGroups := State.owe_doGroups _ _ _ _ _ _
@[simp] theorem State.ok_cans (s : State) (c : Ctx) : (s.ok c).cans = s.cans := State.owe_cans _ _ _ _ _ _
@[simp] theorem State.ok_fire (s : State) (c : Ctx) : (s.ok c).fire = s.fire := State.owe_fire _ _ _ _ _ _
@[simp] theorem State.ok_pair (s : State) (c : Ctx) : (s.ok c).pair = s.pair := State.owe_pair _ _ _ _ _ _
@[simp] theorem State.ok_totals (s : State) (c : Ctx) : (s.ok c).totals = s.totals := State.owe_totals _ _ _ _ _ _
@[simp] theorem State.ok_locks (s : State) (c : Ctx) : (s.ok c).locks = s.locks := State.owe_locks _ _ _ _ _ _
@[simp] theorem State.ok_arrays (s : State) (c : Ctx) : (s.ok c).arrays = s.arrays := State.owe_arrays _ _ _ _ _ _
@[simp] theorem State.ok_raised (s : State) (c : Ctx) : (s.ok c).raised = s.raised := State.owe_raised _ _ _ _ _ _
@[simp] theorem State.ok_upsets (s : State) (c : Ctx) : (s.ok c).upsets = s.upsets := State.owe_upsets _ _ _ _ _ _
@[simp] theorem State.ok_recQueue (s : State) (c : Ctx) : (s.ok c).recQueue = s.recQueue := State.owe_recQueue _ _ _ _ _ _
@[simp] theorem State.ok_mramChecked (s : State) (c : Ctx) : (s.ok c).mramChecked = s.mramChecked := State.owe_mramChecked _ _ _ _ _ _
@[simp] theorem State.ok_panel (s : State) (c : Ctx) : (s.ok c).panel = s.panel := State.owe_panel _ _ _ _ _ _
@[simp] theorem State.ok_plate (s : State) (c : Ctx) : (s.ok c).plate = s.plate := State.owe_plate _ _ _ _ _ _
@[simp] theorem State.ok_ring (s : State) (c : Ctx) : (s.ok c).ring = s.ring := State.owe_ring _ _ _ _ _ _
@[simp] theorem State.ok_power (s : State) (c : Ctx) : (s.ok c).power = s.power := State.owe_power _ _ _ _ _ _
@[simp] theorem State.handRecord_pending (s : State) (q : Raised) : (s.handRecord q).pending = s.pending := by unfold State.handRecord; dsimp only; split <;> rfl
@[simp] theorem State.handRecord_now (s : State) (q : Raised) : (s.handRecord q).now = s.now := by unfold State.handRecord; dsimp only; split <;> rfl
@[simp] theorem State.handRecord_freeCount (s : State) (q : Raised) : (s.handRecord q).freeCount = s.freeCount := by unfold State.handRecord; dsimp only; split <;> rfl
@[simp] theorem State.handRecord_service (s : State) (q : Raised) : (s.handRecord q).service = s.service := by unfold State.handRecord; dsimp only; split <;> rfl
@[simp] theorem State.handRecord_mram (s : State) (q : Raised) : (s.handRecord q).mram = s.mram := by unfold State.handRecord; dsimp only; split <;> rfl
@[simp] theorem State.handRecord_sup (s : State) (q : Raised) : (s.handRecord q).sup = s.sup := by unfold State.handRecord; dsimp only; split <;> rfl
@[simp] theorem State.handRecord_islands (s : State) (q : Raised) : (s.handRecord q).islands = s.islands := by unfold State.handRecord; dsimp only; split <;> rfl
@[simp] theorem State.handRecord_faultyInterlock (s : State) (q : Raised) : (s.handRecord q).faultyInterlock = s.faultyInterlock := by unfold State.handRecord; dsimp only; split <;> rfl
@[simp] theorem State.handRecord_domains (s : State) (q : Raised) : (s.handRecord q).domains = s.domains := by unfold State.handRecord; dsimp only; split <;> rfl
@[simp] theorem State.handRecord_rounds (s : State) (q : Raised) : (s.handRecord q).rounds = s.rounds := by unfold State.handRecord; dsimp only; split <;> rfl
@[simp] theorem State.handRecord_mismatches (s : State) (q : Raised) : (s.handRecord q).mismatches = s.mismatches := by unfold State.handRecord; dsimp only; split <;> rfl
@[simp] theorem State.handRecord_windowMismatches (s : State) (q : Raised) : (s.handRecord q).windowMismatches = s.windowMismatches := by unfold State.handRecord; dsimp only; split <;> rfl
@[simp] theorem State.handRecord_auditAt (s : State) (q : Raised) : (s.handRecord q).auditAt = s.auditAt := by unfold State.handRecord; dsimp only; split <;> rfl
@[simp] theorem State.handRecord_square (s : State) (q : Raised) : (s.handRecord q).square = s.square := by unfold State.handRecord; dsimp only; split <;> rfl
@[simp] theorem State.handRecord_engines (s : State) (q : Raised) : (s.handRecord q).engines = s.engines := by unfold State.handRecord; dsimp only; split <;> rfl
@[simp] theorem State.handRecord_timers (s : State) (q : Raised) : (s.handRecord q).timers = s.timers := by unfold State.handRecord; dsimp only; split <;> rfl
@[simp] theorem State.handRecord_counters (s : State) (q : Raised) : (s.handRecord q).counters = s.counters := by unfold State.handRecord; dsimp only; split <;> rfl
@[simp] theorem State.handRecord_round (s : State) (q : Raised) : (s.handRecord q).round = s.round := by unfold State.handRecord; dsimp only; split <;> rfl
@[simp] theorem State.handRecord_loop (s : State) (q : Raised) : (s.handRecord q).loop = s.loop := by unfold State.handRecord; dsimp only; split <;> rfl
@[simp] theorem State.handRecord_ucs (s : State) (q : Raised) : (s.handRecord q).ucs = s.ucs := by unfold State.handRecord; dsimp only; split <;> rfl
@[simp] theorem State.handRecord_dis (s : State) (q : Raised) : (s.handRecord q).dis = s.dis := by unfold State.handRecord; dsimp only; split <;> rfl
@[simp] theorem State.handRecord_dos (s : State) (q : Raised) : (s.handRecord q).dos = s.dos := by unfold State.handRecord; dsimp only; split <;> rfl
@[simp] theorem State.handRecord_diGroups (s : State) (q : Raised) : (s.handRecord q).diGroups = s.diGroups := by unfold State.handRecord; dsimp only; split <;> rfl
@[simp] theorem State.handRecord_doGroups (s : State) (q : Raised) : (s.handRecord q).doGroups = s.doGroups := by unfold State.handRecord; dsimp only; split <;> rfl
@[simp] theorem State.handRecord_cans (s : State) (q : Raised) : (s.handRecord q).cans = s.cans := by unfold State.handRecord; dsimp only; split <;> rfl
@[simp] theorem State.handRecord_fire (s : State) (q : Raised) : (s.handRecord q).fire = s.fire := by unfold State.handRecord; dsimp only; split <;> rfl
@[simp] theorem State.handRecord_pair (s : State) (q : Raised) : (s.handRecord q).pair = s.pair := by unfold State.handRecord; dsimp only; split <;> rfl
@[simp] theorem State.handRecord_totals (s : State) (q : Raised) : (s.handRecord q).totals = s.totals := by unfold State.handRecord; dsimp only; split <;> rfl
@[simp] theorem State.handRecord_locks (s : State) (q : Raised) : (s.handRecord q).locks = s.locks := by unfold State.handRecord; dsimp only; split <;> rfl
@[simp] theorem State.handRecord_arrays (s : State) (q : Raised) : (s.handRecord q).arrays = s.arrays := by unfold State.handRecord; dsimp only; split <;> rfl
@[simp] theorem State.handRecord_recQueue (s : State) (q : Raised) : (s.handRecord q).recQueue = s.recQueue := by unfold State.handRecord; dsimp only; split <;> rfl
@[simp] theorem State.handRecord_mramChecked (s : State) (q : Raised) : (s.handRecord q).mramChecked = s.mramChecked := by unfold State.handRecord; dsimp only; split <;> rfl
@[simp] theorem State.handRecord_panel (s : State) (q : Raised) : (s.handRecord q).panel = s.panel := by unfold State.handRecord; dsimp only; split <;> rfl
@[simp] theorem State.handRecord_plate (s : State) (q : Raised) : (s.handRecord q).plate = s.plate := by unfold State.handRecord; dsimp only; split <;> rfl
@[simp] theorem State.handRecord_ring (s : State) (q : Raised) : (s.handRecord q).ring = s.ring := by unfold State.handRecord; dsimp only; split <;> rfl
@[simp] theorem State.handRecord_power (s : State) (q : Raised) : (s.handRecord q).power = s.power := by unfold State.handRecord; dsimp only; split <;> rfl

@[simp] theorem State.raiseFull_pending (s : State) (src : Nat) (k : RecKind) (value : Word) (time : Option Nat) (cycle : Option (BitVec 32)) : (s.raiseFull src k value time cycle).pending = s.pending := by
  unfold State.raiseFull; split
  · rfl
  · exact State.handRecord_pending _ _
@[simp] theorem State.raiseFull_now (s : State) (src : Nat) (k : RecKind) (value : Word) (time : Option Nat) (cycle : Option (BitVec 32)) : (s.raiseFull src k value time cycle).now = s.now := by
  unfold State.raiseFull; split
  · rfl
  · exact State.handRecord_now _ _
@[simp] theorem State.raiseFull_freeCount (s : State) (src : Nat) (k : RecKind) (value : Word) (time : Option Nat) (cycle : Option (BitVec 32)) : (s.raiseFull src k value time cycle).freeCount = s.freeCount := by
  unfold State.raiseFull; split
  · rfl
  · exact State.handRecord_freeCount _ _
@[simp] theorem State.raiseFull_service (s : State) (src : Nat) (k : RecKind) (value : Word) (time : Option Nat) (cycle : Option (BitVec 32)) : (s.raiseFull src k value time cycle).service = s.service := by
  unfold State.raiseFull; split
  · rfl
  · exact State.handRecord_service _ _
@[simp] theorem State.raiseFull_mram (s : State) (src : Nat) (k : RecKind) (value : Word) (time : Option Nat) (cycle : Option (BitVec 32)) : (s.raiseFull src k value time cycle).mram = s.mram := by
  unfold State.raiseFull; split
  · rfl
  · exact State.handRecord_mram _ _
@[simp] theorem State.raiseFull_sup (s : State) (src : Nat) (k : RecKind) (value : Word) (time : Option Nat) (cycle : Option (BitVec 32)) : (s.raiseFull src k value time cycle).sup = s.sup := by
  unfold State.raiseFull; split
  · rfl
  · exact State.handRecord_sup _ _
@[simp] theorem State.raiseFull_islands (s : State) (src : Nat) (k : RecKind) (value : Word) (time : Option Nat) (cycle : Option (BitVec 32)) : (s.raiseFull src k value time cycle).islands = s.islands := by
  unfold State.raiseFull; split
  · rfl
  · exact State.handRecord_islands _ _
@[simp] theorem State.raiseFull_faultyInterlock (s : State) (src : Nat) (k : RecKind) (value : Word) (time : Option Nat) (cycle : Option (BitVec 32)) : (s.raiseFull src k value time cycle).faultyInterlock = s.faultyInterlock := by
  unfold State.raiseFull; split
  · rfl
  · exact State.handRecord_faultyInterlock _ _
@[simp] theorem State.raiseFull_domains (s : State) (src : Nat) (k : RecKind) (value : Word) (time : Option Nat) (cycle : Option (BitVec 32)) : (s.raiseFull src k value time cycle).domains = s.domains := by
  unfold State.raiseFull; split
  · rfl
  · exact State.handRecord_domains _ _
@[simp] theorem State.raiseFull_rounds (s : State) (src : Nat) (k : RecKind) (value : Word) (time : Option Nat) (cycle : Option (BitVec 32)) : (s.raiseFull src k value time cycle).rounds = s.rounds := by
  unfold State.raiseFull; split
  · rfl
  · exact State.handRecord_rounds _ _
@[simp] theorem State.raiseFull_mismatches (s : State) (src : Nat) (k : RecKind) (value : Word) (time : Option Nat) (cycle : Option (BitVec 32)) : (s.raiseFull src k value time cycle).mismatches = s.mismatches := by
  unfold State.raiseFull; split
  · rfl
  · exact State.handRecord_mismatches _ _
@[simp] theorem State.raiseFull_windowMismatches (s : State) (src : Nat) (k : RecKind) (value : Word) (time : Option Nat) (cycle : Option (BitVec 32)) : (s.raiseFull src k value time cycle).windowMismatches = s.windowMismatches := by
  unfold State.raiseFull; split
  · rfl
  · exact State.handRecord_windowMismatches _ _
@[simp] theorem State.raiseFull_auditAt (s : State) (src : Nat) (k : RecKind) (value : Word) (time : Option Nat) (cycle : Option (BitVec 32)) : (s.raiseFull src k value time cycle).auditAt = s.auditAt := by
  unfold State.raiseFull; split
  · rfl
  · exact State.handRecord_auditAt _ _
@[simp] theorem State.raiseFull_square (s : State) (src : Nat) (k : RecKind) (value : Word) (time : Option Nat) (cycle : Option (BitVec 32)) : (s.raiseFull src k value time cycle).square = s.square := by
  unfold State.raiseFull; split
  · rfl
  · exact State.handRecord_square _ _
@[simp] theorem State.raiseFull_engines (s : State) (src : Nat) (k : RecKind) (value : Word) (time : Option Nat) (cycle : Option (BitVec 32)) : (s.raiseFull src k value time cycle).engines = s.engines := by
  unfold State.raiseFull; split
  · rfl
  · exact State.handRecord_engines _ _
@[simp] theorem State.raiseFull_timers (s : State) (src : Nat) (k : RecKind) (value : Word) (time : Option Nat) (cycle : Option (BitVec 32)) : (s.raiseFull src k value time cycle).timers = s.timers := by
  unfold State.raiseFull; split
  · rfl
  · exact State.handRecord_timers _ _
@[simp] theorem State.raiseFull_counters (s : State) (src : Nat) (k : RecKind) (value : Word) (time : Option Nat) (cycle : Option (BitVec 32)) : (s.raiseFull src k value time cycle).counters = s.counters := by
  unfold State.raiseFull; split
  · rfl
  · exact State.handRecord_counters _ _
@[simp] theorem State.raiseFull_round (s : State) (src : Nat) (k : RecKind) (value : Word) (time : Option Nat) (cycle : Option (BitVec 32)) : (s.raiseFull src k value time cycle).round = s.round := by
  unfold State.raiseFull; split
  · rfl
  · exact State.handRecord_round _ _
@[simp] theorem State.raiseFull_loop (s : State) (src : Nat) (k : RecKind) (value : Word) (time : Option Nat) (cycle : Option (BitVec 32)) : (s.raiseFull src k value time cycle).loop = s.loop := by
  unfold State.raiseFull; split
  · rfl
  · exact State.handRecord_loop _ _
@[simp] theorem State.raiseFull_ucs (s : State) (src : Nat) (k : RecKind) (value : Word) (time : Option Nat) (cycle : Option (BitVec 32)) : (s.raiseFull src k value time cycle).ucs = s.ucs := by
  unfold State.raiseFull; split
  · rfl
  · exact State.handRecord_ucs _ _
@[simp] theorem State.raiseFull_dis (s : State) (src : Nat) (k : RecKind) (value : Word) (time : Option Nat) (cycle : Option (BitVec 32)) : (s.raiseFull src k value time cycle).dis = s.dis := by
  unfold State.raiseFull; split
  · rfl
  · exact State.handRecord_dis _ _
@[simp] theorem State.raiseFull_dos (s : State) (src : Nat) (k : RecKind) (value : Word) (time : Option Nat) (cycle : Option (BitVec 32)) : (s.raiseFull src k value time cycle).dos = s.dos := by
  unfold State.raiseFull; split
  · rfl
  · exact State.handRecord_dos _ _
@[simp] theorem State.raiseFull_diGroups (s : State) (src : Nat) (k : RecKind) (value : Word) (time : Option Nat) (cycle : Option (BitVec 32)) : (s.raiseFull src k value time cycle).diGroups = s.diGroups := by
  unfold State.raiseFull; split
  · rfl
  · exact State.handRecord_diGroups _ _
@[simp] theorem State.raiseFull_doGroups (s : State) (src : Nat) (k : RecKind) (value : Word) (time : Option Nat) (cycle : Option (BitVec 32)) : (s.raiseFull src k value time cycle).doGroups = s.doGroups := by
  unfold State.raiseFull; split
  · rfl
  · exact State.handRecord_doGroups _ _
@[simp] theorem State.raiseFull_cans (s : State) (src : Nat) (k : RecKind) (value : Word) (time : Option Nat) (cycle : Option (BitVec 32)) : (s.raiseFull src k value time cycle).cans = s.cans := by
  unfold State.raiseFull; split
  · rfl
  · exact State.handRecord_cans _ _
@[simp] theorem State.raiseFull_fire (s : State) (src : Nat) (k : RecKind) (value : Word) (time : Option Nat) (cycle : Option (BitVec 32)) : (s.raiseFull src k value time cycle).fire = s.fire := by
  unfold State.raiseFull; split
  · rfl
  · exact State.handRecord_fire _ _
@[simp] theorem State.raiseFull_pair (s : State) (src : Nat) (k : RecKind) (value : Word) (time : Option Nat) (cycle : Option (BitVec 32)) : (s.raiseFull src k value time cycle).pair = s.pair := by
  unfold State.raiseFull; split
  · rfl
  · exact State.handRecord_pair _ _
@[simp] theorem State.raiseFull_totals (s : State) (src : Nat) (k : RecKind) (value : Word) (time : Option Nat) (cycle : Option (BitVec 32)) : (s.raiseFull src k value time cycle).totals = s.totals := by
  unfold State.raiseFull; split
  · rfl
  · exact State.handRecord_totals _ _
@[simp] theorem State.raiseFull_locks (s : State) (src : Nat) (k : RecKind) (value : Word) (time : Option Nat) (cycle : Option (BitVec 32)) : (s.raiseFull src k value time cycle).locks = s.locks := by
  unfold State.raiseFull; split
  · rfl
  · exact State.handRecord_locks _ _
@[simp] theorem State.raiseFull_arrays (s : State) (src : Nat) (k : RecKind) (value : Word) (time : Option Nat) (cycle : Option (BitVec 32)) : (s.raiseFull src k value time cycle).arrays = s.arrays := by
  unfold State.raiseFull; split
  · rfl
  · exact State.handRecord_arrays _ _
@[simp] theorem State.raiseFull_recQueue (s : State) (src : Nat) (k : RecKind) (value : Word) (time : Option Nat) (cycle : Option (BitVec 32)) : (s.raiseFull src k value time cycle).recQueue = s.recQueue := by
  unfold State.raiseFull; split
  · rfl
  · exact State.handRecord_recQueue _ _
@[simp] theorem State.raiseFull_mramChecked (s : State) (src : Nat) (k : RecKind) (value : Word) (time : Option Nat) (cycle : Option (BitVec 32)) : (s.raiseFull src k value time cycle).mramChecked = s.mramChecked := by
  unfold State.raiseFull; split
  · rfl
  · exact State.handRecord_mramChecked _ _
@[simp] theorem State.raiseFull_panel (s : State) (src : Nat) (k : RecKind) (value : Word) (time : Option Nat) (cycle : Option (BitVec 32)) : (s.raiseFull src k value time cycle).panel = s.panel := by
  unfold State.raiseFull; split
  · rfl
  · exact State.handRecord_panel _ _
@[simp] theorem State.raiseFull_plate (s : State) (src : Nat) (k : RecKind) (value : Word) (time : Option Nat) (cycle : Option (BitVec 32)) : (s.raiseFull src k value time cycle).plate = s.plate := by
  unfold State.raiseFull; split
  · rfl
  · exact State.handRecord_plate _ _
@[simp] theorem State.raiseFull_ring (s : State) (src : Nat) (k : RecKind) (value : Word) (time : Option Nat) (cycle : Option (BitVec 32)) : (s.raiseFull src k value time cycle).ring = s.ring := by
  unfold State.raiseFull; split
  · rfl
  · exact State.handRecord_ring _ _
@[simp] theorem State.raiseFull_power (s : State) (src : Nat) (k : RecKind) (value : Word) (time : Option Nat) (cycle : Option (BitVec 32)) : (s.raiseFull src k value time cycle).power = s.power := by
  unfold State.raiseFull; split
  · rfl
  · exact State.handRecord_power _ _
@[simp] theorem State.raiseFrom_pending (s : State) (src : Nat) (k : RecKind) (value : Word) : (s.raiseFrom src k value).pending = s.pending := State.raiseFull_pending _ _ _ _ _ _
@[simp] theorem State.raiseFrom_now (s : State) (src : Nat) (k : RecKind) (value : Word) : (s.raiseFrom src k value).now = s.now := State.raiseFull_now _ _ _ _ _ _
@[simp] theorem State.raiseFrom_freeCount (s : State) (src : Nat) (k : RecKind) (value : Word) : (s.raiseFrom src k value).freeCount = s.freeCount := State.raiseFull_freeCount _ _ _ _ _ _
@[simp] theorem State.raiseFrom_service (s : State) (src : Nat) (k : RecKind) (value : Word) : (s.raiseFrom src k value).service = s.service := State.raiseFull_service _ _ _ _ _ _
@[simp] theorem State.raiseFrom_mram (s : State) (src : Nat) (k : RecKind) (value : Word) : (s.raiseFrom src k value).mram = s.mram := State.raiseFull_mram _ _ _ _ _ _
@[simp] theorem State.raiseFrom_sup (s : State) (src : Nat) (k : RecKind) (value : Word) : (s.raiseFrom src k value).sup = s.sup := State.raiseFull_sup _ _ _ _ _ _
@[simp] theorem State.raiseFrom_islands (s : State) (src : Nat) (k : RecKind) (value : Word) : (s.raiseFrom src k value).islands = s.islands := State.raiseFull_islands _ _ _ _ _ _
@[simp] theorem State.raiseFrom_faultyInterlock (s : State) (src : Nat) (k : RecKind) (value : Word) : (s.raiseFrom src k value).faultyInterlock = s.faultyInterlock := State.raiseFull_faultyInterlock _ _ _ _ _ _
@[simp] theorem State.raiseFrom_domains (s : State) (src : Nat) (k : RecKind) (value : Word) : (s.raiseFrom src k value).domains = s.domains := State.raiseFull_domains _ _ _ _ _ _
@[simp] theorem State.raiseFrom_rounds (s : State) (src : Nat) (k : RecKind) (value : Word) : (s.raiseFrom src k value).rounds = s.rounds := State.raiseFull_rounds _ _ _ _ _ _
@[simp] theorem State.raiseFrom_mismatches (s : State) (src : Nat) (k : RecKind) (value : Word) : (s.raiseFrom src k value).mismatches = s.mismatches := State.raiseFull_mismatches _ _ _ _ _ _
@[simp] theorem State.raiseFrom_windowMismatches (s : State) (src : Nat) (k : RecKind) (value : Word) : (s.raiseFrom src k value).windowMismatches = s.windowMismatches := State.raiseFull_windowMismatches _ _ _ _ _ _
@[simp] theorem State.raiseFrom_auditAt (s : State) (src : Nat) (k : RecKind) (value : Word) : (s.raiseFrom src k value).auditAt = s.auditAt := State.raiseFull_auditAt _ _ _ _ _ _
@[simp] theorem State.raiseFrom_square (s : State) (src : Nat) (k : RecKind) (value : Word) : (s.raiseFrom src k value).square = s.square := State.raiseFull_square _ _ _ _ _ _
@[simp] theorem State.raiseFrom_engines (s : State) (src : Nat) (k : RecKind) (value : Word) : (s.raiseFrom src k value).engines = s.engines := State.raiseFull_engines _ _ _ _ _ _
@[simp] theorem State.raiseFrom_timers (s : State) (src : Nat) (k : RecKind) (value : Word) : (s.raiseFrom src k value).timers = s.timers := State.raiseFull_timers _ _ _ _ _ _
@[simp] theorem State.raiseFrom_counters (s : State) (src : Nat) (k : RecKind) (value : Word) : (s.raiseFrom src k value).counters = s.counters := State.raiseFull_counters _ _ _ _ _ _
@[simp] theorem State.raiseFrom_round (s : State) (src : Nat) (k : RecKind) (value : Word) : (s.raiseFrom src k value).round = s.round := State.raiseFull_round _ _ _ _ _ _
@[simp] theorem State.raiseFrom_loop (s : State) (src : Nat) (k : RecKind) (value : Word) : (s.raiseFrom src k value).loop = s.loop := State.raiseFull_loop _ _ _ _ _ _
@[simp] theorem State.raiseFrom_ucs (s : State) (src : Nat) (k : RecKind) (value : Word) : (s.raiseFrom src k value).ucs = s.ucs := State.raiseFull_ucs _ _ _ _ _ _
@[simp] theorem State.raiseFrom_dis (s : State) (src : Nat) (k : RecKind) (value : Word) : (s.raiseFrom src k value).dis = s.dis := State.raiseFull_dis _ _ _ _ _ _
@[simp] theorem State.raiseFrom_dos (s : State) (src : Nat) (k : RecKind) (value : Word) : (s.raiseFrom src k value).dos = s.dos := State.raiseFull_dos _ _ _ _ _ _
@[simp] theorem State.raiseFrom_diGroups (s : State) (src : Nat) (k : RecKind) (value : Word) : (s.raiseFrom src k value).diGroups = s.diGroups := State.raiseFull_diGroups _ _ _ _ _ _
@[simp] theorem State.raiseFrom_doGroups (s : State) (src : Nat) (k : RecKind) (value : Word) : (s.raiseFrom src k value).doGroups = s.doGroups := State.raiseFull_doGroups _ _ _ _ _ _
@[simp] theorem State.raiseFrom_cans (s : State) (src : Nat) (k : RecKind) (value : Word) : (s.raiseFrom src k value).cans = s.cans := State.raiseFull_cans _ _ _ _ _ _
@[simp] theorem State.raiseFrom_fire (s : State) (src : Nat) (k : RecKind) (value : Word) : (s.raiseFrom src k value).fire = s.fire := State.raiseFull_fire _ _ _ _ _ _
@[simp] theorem State.raiseFrom_pair (s : State) (src : Nat) (k : RecKind) (value : Word) : (s.raiseFrom src k value).pair = s.pair := State.raiseFull_pair _ _ _ _ _ _
@[simp] theorem State.raiseFrom_totals (s : State) (src : Nat) (k : RecKind) (value : Word) : (s.raiseFrom src k value).totals = s.totals := State.raiseFull_totals _ _ _ _ _ _
@[simp] theorem State.raiseFrom_locks (s : State) (src : Nat) (k : RecKind) (value : Word) : (s.raiseFrom src k value).locks = s.locks := State.raiseFull_locks _ _ _ _ _ _
@[simp] theorem State.raiseFrom_arrays (s : State) (src : Nat) (k : RecKind) (value : Word) : (s.raiseFrom src k value).arrays = s.arrays := State.raiseFull_arrays _ _ _ _ _ _
@[simp] theorem State.raiseFrom_recQueue (s : State) (src : Nat) (k : RecKind) (value : Word) : (s.raiseFrom src k value).recQueue = s.recQueue := State.raiseFull_recQueue _ _ _ _ _ _
@[simp] theorem State.raiseFrom_mramChecked (s : State) (src : Nat) (k : RecKind) (value : Word) : (s.raiseFrom src k value).mramChecked = s.mramChecked := State.raiseFull_mramChecked _ _ _ _ _ _
@[simp] theorem State.raiseFrom_panel (s : State) (src : Nat) (k : RecKind) (value : Word) : (s.raiseFrom src k value).panel = s.panel := State.raiseFull_panel _ _ _ _ _ _
@[simp] theorem State.raiseFrom_plate (s : State) (src : Nat) (k : RecKind) (value : Word) : (s.raiseFrom src k value).plate = s.plate := State.raiseFull_plate _ _ _ _ _ _
@[simp] theorem State.raiseFrom_ring (s : State) (src : Nat) (k : RecKind) (value : Word) : (s.raiseFrom src k value).ring = s.ring := State.raiseFull_ring _ _ _ _ _ _
@[simp] theorem State.raiseFrom_power (s : State) (src : Nat) (k : RecKind) (value : Word) : (s.raiseFrom src k value).power = s.power := State.raiseFull_power _ _ _ _ _ _
@[simp] theorem State.raise_pending (s : State) (k : RecKind) (value : Word) : (s.raise k value).pending = s.pending := State.raiseFull_pending _ _ _ _ _ _
@[simp] theorem State.raise_now (s : State) (k : RecKind) (value : Word) : (s.raise k value).now = s.now := State.raiseFull_now _ _ _ _ _ _
@[simp] theorem State.raise_freeCount (s : State) (k : RecKind) (value : Word) : (s.raise k value).freeCount = s.freeCount := State.raiseFull_freeCount _ _ _ _ _ _
@[simp] theorem State.raise_service (s : State) (k : RecKind) (value : Word) : (s.raise k value).service = s.service := State.raiseFull_service _ _ _ _ _ _
@[simp] theorem State.raise_mram (s : State) (k : RecKind) (value : Word) : (s.raise k value).mram = s.mram := State.raiseFull_mram _ _ _ _ _ _
@[simp] theorem State.raise_sup (s : State) (k : RecKind) (value : Word) : (s.raise k value).sup = s.sup := State.raiseFull_sup _ _ _ _ _ _
@[simp] theorem State.raise_islands (s : State) (k : RecKind) (value : Word) : (s.raise k value).islands = s.islands := State.raiseFull_islands _ _ _ _ _ _
@[simp] theorem State.raise_faultyInterlock (s : State) (k : RecKind) (value : Word) : (s.raise k value).faultyInterlock = s.faultyInterlock := State.raiseFull_faultyInterlock _ _ _ _ _ _
@[simp] theorem State.raise_domains (s : State) (k : RecKind) (value : Word) : (s.raise k value).domains = s.domains := State.raiseFull_domains _ _ _ _ _ _
@[simp] theorem State.raise_rounds (s : State) (k : RecKind) (value : Word) : (s.raise k value).rounds = s.rounds := State.raiseFull_rounds _ _ _ _ _ _
@[simp] theorem State.raise_mismatches (s : State) (k : RecKind) (value : Word) : (s.raise k value).mismatches = s.mismatches := State.raiseFull_mismatches _ _ _ _ _ _
@[simp] theorem State.raise_windowMismatches (s : State) (k : RecKind) (value : Word) : (s.raise k value).windowMismatches = s.windowMismatches := State.raiseFull_windowMismatches _ _ _ _ _ _
@[simp] theorem State.raise_auditAt (s : State) (k : RecKind) (value : Word) : (s.raise k value).auditAt = s.auditAt := State.raiseFull_auditAt _ _ _ _ _ _
@[simp] theorem State.raise_square (s : State) (k : RecKind) (value : Word) : (s.raise k value).square = s.square := State.raiseFull_square _ _ _ _ _ _
@[simp] theorem State.raise_engines (s : State) (k : RecKind) (value : Word) : (s.raise k value).engines = s.engines := State.raiseFull_engines _ _ _ _ _ _
@[simp] theorem State.raise_timers (s : State) (k : RecKind) (value : Word) : (s.raise k value).timers = s.timers := State.raiseFull_timers _ _ _ _ _ _
@[simp] theorem State.raise_counters (s : State) (k : RecKind) (value : Word) : (s.raise k value).counters = s.counters := State.raiseFull_counters _ _ _ _ _ _
@[simp] theorem State.raise_round (s : State) (k : RecKind) (value : Word) : (s.raise k value).round = s.round := State.raiseFull_round _ _ _ _ _ _
@[simp] theorem State.raise_loop (s : State) (k : RecKind) (value : Word) : (s.raise k value).loop = s.loop := State.raiseFull_loop _ _ _ _ _ _
@[simp] theorem State.raise_ucs (s : State) (k : RecKind) (value : Word) : (s.raise k value).ucs = s.ucs := State.raiseFull_ucs _ _ _ _ _ _
@[simp] theorem State.raise_dis (s : State) (k : RecKind) (value : Word) : (s.raise k value).dis = s.dis := State.raiseFull_dis _ _ _ _ _ _
@[simp] theorem State.raise_dos (s : State) (k : RecKind) (value : Word) : (s.raise k value).dos = s.dos := State.raiseFull_dos _ _ _ _ _ _
@[simp] theorem State.raise_diGroups (s : State) (k : RecKind) (value : Word) : (s.raise k value).diGroups = s.diGroups := State.raiseFull_diGroups _ _ _ _ _ _
@[simp] theorem State.raise_doGroups (s : State) (k : RecKind) (value : Word) : (s.raise k value).doGroups = s.doGroups := State.raiseFull_doGroups _ _ _ _ _ _
@[simp] theorem State.raise_cans (s : State) (k : RecKind) (value : Word) : (s.raise k value).cans = s.cans := State.raiseFull_cans _ _ _ _ _ _
@[simp] theorem State.raise_fire (s : State) (k : RecKind) (value : Word) : (s.raise k value).fire = s.fire := State.raiseFull_fire _ _ _ _ _ _
@[simp] theorem State.raise_pair (s : State) (k : RecKind) (value : Word) : (s.raise k value).pair = s.pair := State.raiseFull_pair _ _ _ _ _ _
@[simp] theorem State.raise_totals (s : State) (k : RecKind) (value : Word) : (s.raise k value).totals = s.totals := State.raiseFull_totals _ _ _ _ _ _
@[simp] theorem State.raise_locks (s : State) (k : RecKind) (value : Word) : (s.raise k value).locks = s.locks := State.raiseFull_locks _ _ _ _ _ _
@[simp] theorem State.raise_arrays (s : State) (k : RecKind) (value : Word) : (s.raise k value).arrays = s.arrays := State.raiseFull_arrays _ _ _ _ _ _
@[simp] theorem State.raise_recQueue (s : State) (k : RecKind) (value : Word) : (s.raise k value).recQueue = s.recQueue := State.raiseFull_recQueue _ _ _ _ _ _
@[simp] theorem State.raise_mramChecked (s : State) (k : RecKind) (value : Word) : (s.raise k value).mramChecked = s.mramChecked := State.raiseFull_mramChecked _ _ _ _ _ _
@[simp] theorem State.raise_panel (s : State) (k : RecKind) (value : Word) : (s.raise k value).panel = s.panel := State.raiseFull_panel _ _ _ _ _ _
@[simp] theorem State.raise_plate (s : State) (k : RecKind) (value : Word) : (s.raise k value).plate = s.plate := State.raiseFull_plate _ _ _ _ _ _
@[simp] theorem State.raise_ring (s : State) (k : RecKind) (value : Word) : (s.raise k value).ring = s.ring := State.raiseFull_ring _ _ _ _ _ _
@[simp] theorem State.raise_power (s : State) (k : RecKind) (value : Word) : (s.raise k value).power = s.power := State.raiseFull_power _ _ _ _ _ _
@[simp] theorem State.fireSource_pending (s : State) (n : Nat) : (s.fireSource n).pending = s.pending := rfl
@[simp] theorem State.fireSource_now (s : State) (n : Nat) : (s.fireSource n).now = s.now := rfl
@[simp] theorem State.fireSource_freeCount (s : State) (n : Nat) : (s.fireSource n).freeCount = s.freeCount := rfl
@[simp] theorem State.fireSource_service (s : State) (n : Nat) : (s.fireSource n).service = s.service := rfl
@[simp] theorem State.fireSource_mram (s : State) (n : Nat) : (s.fireSource n).mram = s.mram := rfl
@[simp] theorem State.fireSource_sup (s : State) (n : Nat) : (s.fireSource n).sup = s.sup := rfl
@[simp] theorem State.fireSource_islands (s : State) (n : Nat) : (s.fireSource n).islands = s.islands := rfl
@[simp] theorem State.fireSource_faultyInterlock (s : State) (n : Nat) : (s.fireSource n).faultyInterlock = s.faultyInterlock := rfl
@[simp] theorem State.fireSource_domains (s : State) (n : Nat) : (s.fireSource n).domains = s.domains := rfl
@[simp] theorem State.fireSource_crossings (s : State) (n : Nat) : (s.fireSource n).crossings = s.crossings := rfl
@[simp] theorem State.fireSource_rounds (s : State) (n : Nat) : (s.fireSource n).rounds = s.rounds := rfl
@[simp] theorem State.fireSource_nextSend (s : State) (n : Nat) : (s.fireSource n).nextSend = s.nextSend := rfl
@[simp] theorem State.fireSource_mismatches (s : State) (n : Nat) : (s.fireSource n).mismatches = s.mismatches := rfl
@[simp] theorem State.fireSource_windowMismatches (s : State) (n : Nat) : (s.fireSource n).windowMismatches = s.windowMismatches := rfl
@[simp] theorem State.fireSource_auditAt (s : State) (n : Nat) : (s.fireSource n).auditAt = s.auditAt := rfl
@[simp] theorem State.fireSource_square (s : State) (n : Nat) : (s.fireSource n).square = s.square := rfl
@[simp] theorem State.fireSource_engines (s : State) (n : Nat) : (s.fireSource n).engines = s.engines := rfl
@[simp] theorem State.fireSource_timers (s : State) (n : Nat) : (s.fireSource n).timers = s.timers := rfl
@[simp] theorem State.fireSource_counters (s : State) (n : Nat) : (s.fireSource n).counters = s.counters := rfl
@[simp] theorem State.fireSource_loop (s : State) (n : Nat) : (s.fireSource n).loop = s.loop := rfl
@[simp] theorem State.fireSource_ucs (s : State) (n : Nat) : (s.fireSource n).ucs = s.ucs := rfl
@[simp] theorem State.fireSource_dis (s : State) (n : Nat) : (s.fireSource n).dis = s.dis := rfl
@[simp] theorem State.fireSource_dos (s : State) (n : Nat) : (s.fireSource n).dos = s.dos := rfl
@[simp] theorem State.fireSource_diGroups (s : State) (n : Nat) : (s.fireSource n).diGroups = s.diGroups := rfl
@[simp] theorem State.fireSource_doGroups (s : State) (n : Nat) : (s.fireSource n).doGroups = s.doGroups := rfl
@[simp] theorem State.fireSource_cans (s : State) (n : Nat) : (s.fireSource n).cans = s.cans := rfl
@[simp] theorem State.fireSource_fire (s : State) (n : Nat) : (s.fireSource n).fire = s.fire := rfl
@[simp] theorem State.fireSource_pair (s : State) (n : Nat) : (s.fireSource n).pair = s.pair := rfl
@[simp] theorem State.fireSource_totals (s : State) (n : Nat) : (s.fireSource n).totals = s.totals := rfl
@[simp] theorem State.fireSource_locks (s : State) (n : Nat) : (s.fireSource n).locks = s.locks := rfl
@[simp] theorem State.fireSource_arrays (s : State) (n : Nat) : (s.fireSource n).arrays = s.arrays := rfl
@[simp] theorem State.fireSource_raised (s : State) (n : Nat) : (s.fireSource n).raised = s.raised := rfl
@[simp] theorem State.fireSource_upsets (s : State) (n : Nat) : (s.fireSource n).upsets = s.upsets := rfl
@[simp] theorem State.fireSource_recQueue (s : State) (n : Nat) : (s.fireSource n).recQueue = s.recQueue := rfl
@[simp] theorem State.fireSource_mramChecked (s : State) (n : Nat) : (s.fireSource n).mramChecked = s.mramChecked := rfl
@[simp] theorem State.fireSource_panel (s : State) (n : Nat) : (s.fireSource n).panel = s.panel := rfl
@[simp] theorem State.fireSource_plate (s : State) (n : Nat) : (s.fireSource n).plate = s.plate := rfl
@[simp] theorem State.fireSource_ring (s : State) (n : Nat) : (s.fireSource n).ring = s.ring := rfl
@[simp] theorem State.fireSource_power (s : State) (n : Nat) : (s.fireSource n).power = s.power := rfl

/-- A reply owed to a request that SUP still knows, and that was no broadcast, stands at the end of its replies. -/
theorem State.owe_replies (s : State) (c : Ctx) (st : Status) (cycle : BitVec 32) (body : List Byte) (counts : Bool) (h : c.gen = s.sup.gen)
    (hb : c.broadcast = false) : (s.owe c st cycle body counts).sup.replies = s.sup.replies ++
      [{ ctx := c, status := st.code, cycle := cycle, body := body, sent := 0, counts := counts, readyAt := s.now, order := s.sup.ready }] := by
  simp [State.owe, h, hb]

/-- A record raised while the logic supply stands is handed to KEEP. -/
theorem State.raiseFull_eq (s : State) (src : Nat) (k : RecKind) (value : Word) (time : Option Nat) (cycle : Option (BitVec 32))
    (h : s.service ≠ .off) : s.raiseFull src k value time cycle =
      s.handRecord { rec_ := s.mkRecord src k value time cycle, stamped := time.isSome, noteFor := none, closeFor := none } := by
  have : (s.service == Service.off) = false := by simpa using h
  simp [State.raiseFull, this]

/-- A record of another island waits as a Class 2 message of one slot at the end of that island's crossing to KEEP (R356). -/
theorem State.handRecord_island (s : State) (q : Raised) (h : q.rec_.source.toNat < 20) (h' : q.rec_.source.toNat ≠ 17) :
    s.handRecord q = s.postMessage q.rec_.source.toNat 17 2 (.record q) := by
  simp [State.handRecord, h, h']

/-- KEEP's own record has arrived at once. -/
theorem State.handRecord_keep (s : State) (q : Raised) (h : q.rec_.source.toNat = 17) : s.handRecord q = s.recordArrives q := by
  simp [State.handRecord, h]

/-! ## Acceptance (R42, R47, R48, R55) -/

/-- The state differs at most in what SUP keeps of its origins and, in MRAM, in the stored sequence numbers. -/
def State.onlySup (s t : State) : Prop := ∃ (x : Sup) (h : Tab (BitVec 32)), t = { s with sup := x, mram := { s.mram with hStored := h } }

theorem State.onlySup_refl (s : State) : s.onlySup s := ⟨s.sup, s.mram.hStored, rfl⟩

theorem State.onlySup_trans {s t u : State} (h : s.onlySup t) (k : t.onlySup u) : s.onlySup u := by
  obtain ⟨x, a, rfl⟩ := h
  obtain ⟨y, b, rfl⟩ := k
  exact ⟨y, b, rfl⟩

theorem State.onlySup_sup (s : State) (x : Sup) : s.onlySup { s with sup := x } := ⟨x, s.mram.hStored, rfl⟩

theorem State.onlySup_owe (s : State) (c : Ctx) (st : Status) (cycle : BitVec 32) (body : List Byte) (counts : Bool) :
    s.onlySup (s.owe c st cycle body counts) := by
  unfold State.owe
  split; · exact s.onlySup_refl
  split
  · split
    · exact s.onlySup_sup _
    · exact s.onlySup_refl
  · exact s.onlySup_sup _

theorem State.onlySup_acceptSeq (s : State) (p : Packet) : s.onlySup (s.acceptSeq p) := by
  unfold State.acceptSeq
  dsimp only
  by_cases h : (s.mram.hStored.get 0 (p.origin.toNat * 8 + p.slot)).toNat + 4096 ≤ ((s.replayOf p.origin p.slot).accept p.seq).h.toNat
  · rw [if_pos h]; exact ⟨_, _, rfl⟩
  · rw [if_neg h]; exact ⟨_, s.mram.hStored, rfl⟩

theorem State.onlySup_takePlace {s t : State} {o : BitVec 16} (h : s.takePlace o = some t) : s.onlySup t := by
  unfold State.takePlace at h
  split at h
  · split at h
    · cases h
    · cases h; exact s.onlySup_sup _
  · split at h
    · cases h
    · cases h; exact s.onlySup_sup _

theorem State.onlySup_collect (s : State) (p : Packet) (c : Ctx) : s.onlySup (s.collect p c).1 := by
  unfold State.collect
  split
  · dsimp only
    split
    · split
      · exact State.onlySup_trans (s.onlySup_sup _) (State.onlySup_owe _ _ _ _ _ _)
      · exact s.onlySup_sup _
    · exact s.onlySup_sup _
  · split
    · exact State.onlySup_trans (s.onlySup_sup _) (State.onlySup_owe _ _ _ _ _ _)
    · rename_i t h
      split
      · exact State.onlySup_trans (State.onlySup_takePlace h) (t.onlySup_sup _)
      · exact State.onlySup_takePlace h

/-- The acceptance checks change nothing else. -/
theorem State.onlySup_accept (s : State) (p : Packet) (d : CmdDesc) (known : Bool) : s.onlySup (s.accept p d known).1 := by
  unfold State.accept
  split; · exact s.onlySup_refl
  split; · exact s.onlySup_sup _
  split; · exact s.onlySup_refl
  split; · exact s.onlySup_sup _
  split; · exact s.onlySup_sup _
  dsimp only
  split; · exact s.onlySup_refl
  split; · exact State.onlySup_trans (s.onlySup_sup _) (State.onlySup_owe _ _ _ _ _ _)
  have h := State.onlySup_trans (s.onlySup_acceptSeq p) (State.onlySup_collect (s.acceptSeq p) p { p.ctx d.cls (by assumption) with gen := s.sup.gen })
  split
  · rename_i t e
    rw [e] at h
    exact h
  · rename_i t q e
    rw [e] at h
    split; · exact State.onlySup_trans h (State.onlySup_owe _ _ _ _ _ _)
    split; · exact State.onlySup_trans h (State.onlySup_owe _ _ _ _ _ _)
    split; · exact State.onlySup_trans h (State.onlySup_owe _ _ _ _ _ _)
    split; · exact State.onlySup_trans h (State.onlySup_owe _ _ _ _ _ _)
    split
    · exact State.onlySup_trans h (State.onlySup_owe _ _ _ _ _ _)
    · exact h

theorem State.onlySup_admitted (s : State) (p : Packet) (d : CmdDesc) : s.onlySup (s.admitted p d) := s.onlySup_accept p d true

@[simp] theorem State.admitted_pending (s : State) (p : Packet) (d : CmdDesc) : (s.admitted p d).pending = s.pending := by
  obtain ⟨_, _, h⟩ := s.onlySup_admitted p d; rw [h]
@[simp] theorem State.admitted_now (s : State) (p : Packet) (d : CmdDesc) : (s.admitted p d).now = s.now := by
  obtain ⟨_, _, h⟩ := s.onlySup_admitted p d; rw [h]
@[simp] theorem State.admitted_freeCount (s : State) (p : Packet) (d : CmdDesc) : (s.admitted p d).freeCount = s.freeCount := by
  obtain ⟨_, _, h⟩ := s.onlySup_admitted p d; rw [h]
@[simp] theorem State.admitted_service (s : State) (p : Packet) (d : CmdDesc) : (s.admitted p d).service = s.service := by
  obtain ⟨_, _, h⟩ := s.onlySup_admitted p d; rw [h]
@[simp] theorem State.admitted_islands (s : State) (p : Packet) (d : CmdDesc) : (s.admitted p d).islands = s.islands := by
  obtain ⟨_, _, h⟩ := s.onlySup_admitted p d; rw [h]
@[simp] theorem State.admitted_faultyInterlock (s : State) (p : Packet) (d : CmdDesc) : (s.admitted p d).faultyInterlock = s.faultyInterlock := by
  obtain ⟨_, _, h⟩ := s.onlySup_admitted p d; rw [h]
@[simp] theorem State.admitted_domains (s : State) (p : Packet) (d : CmdDesc) : (s.admitted p d).domains = s.domains := by
  obtain ⟨_, _, h⟩ := s.onlySup_admitted p d; rw [h]
@[simp] theorem State.admitted_crossings (s : State) (p : Packet) (d : CmdDesc) : (s.admitted p d).crossings = s.crossings := by
  obtain ⟨_, _, h⟩ := s.onlySup_admitted p d; rw [h]
@[simp] theorem State.admitted_rounds (s : State) (p : Packet) (d : CmdDesc) : (s.admitted p d).rounds = s.rounds := by
  obtain ⟨_, _, h⟩ := s.onlySup_admitted p d; rw [h]
@[simp] theorem State.admitted_nextSend (s : State) (p : Packet) (d : CmdDesc) : (s.admitted p d).nextSend = s.nextSend := by
  obtain ⟨_, _, h⟩ := s.onlySup_admitted p d; rw [h]
@[simp] theorem State.admitted_mismatches (s : State) (p : Packet) (d : CmdDesc) : (s.admitted p d).mismatches = s.mismatches := by
  obtain ⟨_, _, h⟩ := s.onlySup_admitted p d; rw [h]
@[simp] theorem State.admitted_windowMismatches (s : State) (p : Packet) (d : CmdDesc) : (s.admitted p d).windowMismatches = s.windowMismatches := by
  obtain ⟨_, _, h⟩ := s.onlySup_admitted p d; rw [h]
@[simp] theorem State.admitted_auditAt (s : State) (p : Packet) (d : CmdDesc) : (s.admitted p d).auditAt = s.auditAt := by
  obtain ⟨_, _, h⟩ := s.onlySup_admitted p d; rw [h]
@[simp] theorem State.admitted_square (s : State) (p : Packet) (d : CmdDesc) : (s.admitted p d).square = s.square := by
  obtain ⟨_, _, h⟩ := s.onlySup_admitted p d; rw [h]
@[simp] theorem State.admitted_engines (s : State) (p : Packet) (d : CmdDesc) : (s.admitted p d).engines = s.engines := by
  obtain ⟨_, _, h⟩ := s.onlySup_admitted p d; rw [h]
@[simp] theorem State.admitted_timers (s : State) (p : Packet) (d : CmdDesc) : (s.admitted p d).timers = s.timers := by
  obtain ⟨_, _, h⟩ := s.onlySup_admitted p d; rw [h]
@[simp] theorem State.admitted_counters (s : State) (p : Packet) (d : CmdDesc) : (s.admitted p d).counters = s.counters := by
  obtain ⟨_, _, h⟩ := s.onlySup_admitted p d; rw [h]
@[simp] theorem State.admitted_round (s : State) (p : Packet) (d : CmdDesc) : (s.admitted p d).round = s.round := by
  obtain ⟨_, _, h⟩ := s.onlySup_admitted p d; rw [h]
@[simp] theorem State.admitted_loop (s : State) (p : Packet) (d : CmdDesc) : (s.admitted p d).loop = s.loop := by
  obtain ⟨_, _, h⟩ := s.onlySup_admitted p d; rw [h]
@[simp] theorem State.admitted_ucs (s : State) (p : Packet) (d : CmdDesc) : (s.admitted p d).ucs = s.ucs := by
  obtain ⟨_, _, h⟩ := s.onlySup_admitted p d; rw [h]
@[simp] theorem State.admitted_dis (s : State) (p : Packet) (d : CmdDesc) : (s.admitted p d).dis = s.dis := by
  obtain ⟨_, _, h⟩ := s.onlySup_admitted p d; rw [h]
@[simp] theorem State.admitted_dos (s : State) (p : Packet) (d : CmdDesc) : (s.admitted p d).dos = s.dos := by
  obtain ⟨_, _, h⟩ := s.onlySup_admitted p d; rw [h]
@[simp] theorem State.admitted_diGroups (s : State) (p : Packet) (d : CmdDesc) : (s.admitted p d).diGroups = s.diGroups := by
  obtain ⟨_, _, h⟩ := s.onlySup_admitted p d; rw [h]
@[simp] theorem State.admitted_doGroups (s : State) (p : Packet) (d : CmdDesc) : (s.admitted p d).doGroups = s.doGroups := by
  obtain ⟨_, _, h⟩ := s.onlySup_admitted p d; rw [h]
@[simp] theorem State.admitted_cans (s : State) (p : Packet) (d : CmdDesc) : (s.admitted p d).cans = s.cans := by
  obtain ⟨_, _, h⟩ := s.onlySup_admitted p d; rw [h]
@[simp] theorem State.admitted_fire (s : State) (p : Packet) (d : CmdDesc) : (s.admitted p d).fire = s.fire := by
  obtain ⟨_, _, h⟩ := s.onlySup_admitted p d; rw [h]
@[simp] theorem State.admitted_pair (s : State) (p : Packet) (d : CmdDesc) : (s.admitted p d).pair = s.pair := by
  obtain ⟨_, _, h⟩ := s.onlySup_admitted p d; rw [h]
@[simp] theorem State.admitted_totals (s : State) (p : Packet) (d : CmdDesc) : (s.admitted p d).totals = s.totals := by
  obtain ⟨_, _, h⟩ := s.onlySup_admitted p d; rw [h]
@[simp] theorem State.admitted_locks (s : State) (p : Packet) (d : CmdDesc) : (s.admitted p d).locks = s.locks := by
  obtain ⟨_, _, h⟩ := s.onlySup_admitted p d; rw [h]
@[simp] theorem State.admitted_arrays (s : State) (p : Packet) (d : CmdDesc) : (s.admitted p d).arrays = s.arrays := by
  obtain ⟨_, _, h⟩ := s.onlySup_admitted p d; rw [h]
@[simp] theorem State.admitted_raised (s : State) (p : Packet) (d : CmdDesc) : (s.admitted p d).raised = s.raised := by
  obtain ⟨_, _, h⟩ := s.onlySup_admitted p d; rw [h]
@[simp] theorem State.admitted_upsets (s : State) (p : Packet) (d : CmdDesc) : (s.admitted p d).upsets = s.upsets := by
  obtain ⟨_, _, h⟩ := s.onlySup_admitted p d; rw [h]
@[simp] theorem State.admitted_recQueue (s : State) (p : Packet) (d : CmdDesc) : (s.admitted p d).recQueue = s.recQueue := by
  obtain ⟨_, _, h⟩ := s.onlySup_admitted p d; rw [h]
@[simp] theorem State.admitted_mramChecked (s : State) (p : Packet) (d : CmdDesc) : (s.admitted p d).mramChecked = s.mramChecked := by
  obtain ⟨_, _, h⟩ := s.onlySup_admitted p d; rw [h]
@[simp] theorem State.admitted_panel (s : State) (p : Packet) (d : CmdDesc) : (s.admitted p d).panel = s.panel := by
  obtain ⟨_, _, h⟩ := s.onlySup_admitted p d; rw [h]
@[simp] theorem State.admitted_plate (s : State) (p : Packet) (d : CmdDesc) : (s.admitted p d).plate = s.plate := by
  obtain ⟨_, _, h⟩ := s.onlySup_admitted p d; rw [h]
@[simp] theorem State.admitted_ring (s : State) (p : Packet) (d : CmdDesc) : (s.admitted p d).ring = s.ring := by
  obtain ⟨_, _, h⟩ := s.onlySup_admitted p d; rw [h]
@[simp] theorem State.admitted_power (s : State) (p : Packet) (d : CmdDesc) : (s.admitted p d).power = s.power := by
  obtain ⟨_, _, h⟩ := s.onlySup_admitted p d; rw [h]

/-- A packet of its row that passes every check runs, on the state that acceptance left. -/
theorem State.command_next {s : State} {p : Packet} {d : CmdDesc} (run : Ctx → List Byte → State → State) (h : s.admits p d = true) :
    s.command p d run = .next (run (s.ctxOf p d) (s.payloadOf p d) (s.admitted p d)) := by
  simp only [State.admits, Bool.and_eq_true, beq_iff_eq] at h
  obtain ⟨q, hq⟩ := Option.isSome_iff_exists.mp h.2
  unfold State.command State.ctxOf State.payloadOf State.admitted
  rw [hq]
  simp only [h.1, bne_self_eq_false, Bool.false_eq_true, if_false]
  split
  · rename_i e; rw [e] at hq; cases hq
  · rename_i e; rw [e] at hq; cases hq; simp [e]

/-- A packet that the checks turn away leaves what acceptance left. -/
theorem State.command_turned {s : State} {p : Packet} {d : CmdDesc} (run : Ctx → List Byte → State → State) (h : p.opcode = d.code)
    (hn : (s.accept p d true).2 = none) : s.command p d run = .next (s.admitted p d) := by
  unfold State.command State.admitted
  simp only [h, bne_self_eq_false, Bool.false_eq_true, if_false]
  split
  · rename_i e; simp [e]
  · rename_i e; rw [e] at hn; cases hn

/-- A packet of another opcode is not this row's. -/
theorem State.command_other {s : State} {p : Packet} {d : CmdDesc} (run : Ctx → List Byte → State → State) (h : p.opcode ≠ d.code) :
    s.command p d run = .next s := by
  simp [State.command, h]

/-- A command packet always answers a next state. -/
theorem State.command_completes (s : State) (p : Packet) (d : CmdDesc) (run : Ctx → List Byte → State → State) :
    ∃ t, s.command p d run = .next t := by
  by_cases h : p.opcode = d.code
  · cases hn : (s.accept p d true).2 with
    | none => exact ⟨_, State.command_turned run h hn⟩
    | some q => exact ⟨_, State.command_next run (by simp [State.admits, h, hn])⟩
  · exact ⟨_, State.command_other run h⟩

/-! ## Frames on the ring -/

/-- A frame that a ring port takes changes the ring alone. -/
theorem State.portTx_eq (s : State) (p : Nat) (f : HsrFrame) : s.portTx p f = { s with ring := (s.portTx p f).ring } := by
  unfold State.portTx; split <;> rfl

/-- So does a frame that the module sends (R380). -/
theorem State.sendRing_eq (s : State) (d : BitVec 48) (e : BitVec 16) (l : List Byte) : s.sendRing d e l = { s with ring := (s.sendRing d e l).ring } := by
  unfold State.sendRing; rw [State.portTx_eq, State.portTx_eq]

end Sys2Proof.Machine
end

