-- ==== Sys2Proof/Laws/Execute.lean ====
section
/-! SUPPORT. What the issue of an instruction does: the one lemma over `State.issue`, and what `advance` and `settle` leave alone. -/

namespace Sys2Proof.Machine

open Sys2Proof

/-! ## `advance` -/

@[simp] theorem State.advance_square (s : State) (e n c : Nat) : (s.advance e n c).square = s.square := rfl
@[simp] theorem State.advance_mram (s : State) (e n c : Nat) : (s.advance e n c).mram = s.mram := rfl
@[simp] theorem State.advance_totals (s : State) (e n c : Nat) : (s.advance e n c).totals = s.totals := rfl
@[simp] theorem State.advance_timers (s : State) (e n c : Nat) : (s.advance e n c).timers = s.timers := rfl
@[simp] theorem State.advance_counters (s : State) (e n c : Nat) : (s.advance e n c).counters = s.counters := rfl

/-- The engine after its instruction has been issued. -/
@[simp] theorem State.advance_engine (s : State) (e n c : Nat) : (s.advance e n c).engine e =
    { (s.engine e) with pc := (s.engine e).pc + BitVec.ofNat 18 n, instructions := (s.engine e).instructions + 1,
                        clocks := (s.engine e).clocks + BitVec.ofNat 32 c, waitFrom := none } := by
  simp [State.advance]

/-! ## `loadBit` -/

@[simp] theorem State.loadBit_mram (s : State) (e : Nat) (a : Area) (n : Nat) : (s.loadBit e a n).mram = s.mram := by
  unfold State.loadBit; split <;> rfl

@[simp] theorem State.loadBit_square (s : State) (e : Nat) (a : Area) (n : Nat) : (s.loadBit e a n).square = s.square := by
  unfold State.loadBit; split <;> rfl

/-- Nothing of the engine but the time at which the bit is there. -/
theorem State.loadBit_engine (s : State) (e : Nat) (a : Area) (n : Nat) :
    ∃ t, ((s.loadBit e a n).engine e) = { s.engine e with bitAt := t } := by
  unfold State.loadBit
  split
  · exact ⟨(s.engine e).clocks.toNat - n + Config.readLatency s.freeCount, by
      show ((s.modEngine e fun x => { x with bitAt := _ }).engine e) = _
      rw [State.modEngine_same]⟩
  · exact ⟨(s.engine e).bitAt, rfl⟩

/-! ## A state without pages under repair and without errors (R340, R343) -/

theorem State.upsetsIn_quiet {s : State} (h : s.quiet = true) (a lo n : Nat) : s.upsetsIn a lo n = [] := by
  simp only [State.quiet, Bool.and_eq_true, List.isEmpty_iff] at h
  simp [State.upsetsIn, h.2]

theorem State.spanLocked_quiet {s : State} (h : s.quiet = true) (a lo n : Nat) : s.spanLocked a lo n = false := by
  simp only [State.quiet, Bool.and_eq_true, List.isEmpty_iff] at h
  simp [State.spanLocked, h.1]

theorem State.oldBad_quiet {s : State} (h : s.quiet = true) (a lo n : Nat) : s.oldBad a lo n = none := by
  simp [State.oldBad, State.upsetsIn_quiet h]

theorem State.readSpan_quiet {s : State} (h : s.quiet = true) (a lo n : Nat) : s.readSpan a lo n = s := by
  simp [State.readSpan, State.upsetsIn_quiet h, State.each]

theorem State.overwrite_quiet {s : State} (h : s.quiet = true) (a lo n : Nat) : s.overwrite a lo n = s := by
  simp [State.overwrite, State.upsetsIn_quiet h]

/-- A clean read of such a state finds nothing. -/
theorem State.judgeRead_quiet {s : State} (h : s.quiet = true) (a b : Nat) : s.judgeRead a b .clean = (s, false) := by
  simp [State.judgeRead, State.upsetsIn_quiet h, foundAt]

/-- In such a state no instruction waits, and its fetch and its stores find nothing. -/
theorem State.holdIssue_quiet {s : State} (h : s.quiet = true) (e n : Nat) (l : List Touch) : s.holdIssue e n l = none := by
  simp [State.holdIssue, State.spanLocked_quiet h, State.oldBad_quiet h]

theorem State.fetchIssue_quiet {s : State} (h : s.quiet = true) (e n : Nat) (l : List Touch) : s.fetchIssue e n l = s := by
  have : ∀ k : List Touch, s.each k (fun s t => s.overwrite 2 t.addr t.bytes) = s := by
    intro k
    induction k with
    | nil => rfl
    | cons t k ih => simpa [State.each, State.overwrite_quiet h] using ih
  simp [State.fetchIssue, State.readSpan_quiet h, this]

/-! ## What an instruction's place depends on -/

/-- Two states agree on what the running image is. -/
theorem State.blockOf_congr {s t : State} (h : t.mram = s.mram) (n : Nat) : t.blockOf n = s.blockOf n := by
  simp [State.blockOf, State.image, State.loaded, State.bank, State.runBankNo, h]

/-- An engine whose block and image stay is in its block where it was. -/
theorem State.inBlock_congr {s t : State} {e : Nat} (h : t.mram = s.mram) (hb : (t.engine e).block = (s.engine e).block) (a : Nat) :
    t.inBlock e a = s.inBlock e a := by
  simp [State.inBlock, hb, State.blockOf_congr h]

/-- `settle` does nothing while the PC stays inside the block. -/
theorem State.settle_inside {t : State} {e a : Nat} (h : t.inBlock e (t.pcOf e) = true) : t.settle e a = t := by
  simp [State.settle, h]

/-- `settle` does nothing for an engine that no longer runs. -/
theorem State.settle_done {t : State} {e a : Nat} (h : (t.engine e).running = false) : t.settle e a = t := by
  simp [State.settle, State.atIssue, h]

/-! ## The issue (R107, R135) -/

/-- An instruction that stands at its engine's PC runs: its state, or the KIND of its program fault. -/
theorem State.issue_of_issues {s : State} {i : Instr} {e : Fin 4} {ws : List Word} (clk : Nat) (run : Nat → Nat → State → Except Nat State)
    (touch : Nat → State → List Touch) (he : encodeEngine i = some (e, ws)) (h : s.issues i = true) :
    s.issue i clk run touch = match run e (s.pcOf e) (s.advance e ws.length (s.clocksOf i e clk)) with
      | .ok t => .next (t.settle e (s.pcOf e))
      | .error k => .next (s.programFault e k (s.pcOf e)) := by
  simp only [State.issues, State.stands, he, Bool.and_eq_true] at h
  simp only [State.issue, he, h.1.1.1, h.1.1.2, h.1.2, State.holdIssue_quiet h.2, State.fetchIssue_quiet h.2]
  rfl

/-- An instruction whose words or operands lie in a page under repair waits: nothing changes but the count of its clocks (R343). -/
theorem State.issue_waits {s : State} {i : Instr} {e : Fin 4} {ws : List Word} (clk : Nat) (run : Nat → Nat → State → Except Nat State)
    (touch : Nat → State → List Touch) (he : encodeEngine i = some (e, ws)) (h : s.stands i = true)
    (hl : s.spanLocked s.runBankNo (4 * s.pcOf e) (4 * ws.length) = true ∨ ((touch e s).any fun t => s.spanLocked 2 t.addr t.bytes) = true) :
    s.issue i clk run touch = .next (s.waitPage e) := by
  simp only [State.stands, he, Bool.and_eq_true] at h
  have : s.holdIssue e ws.length (touch e s) = some (s.waitPage e) := by
    rcases hl with hl | hl <;> simp [State.holdIssue, hl]
  simp [State.issue, he, h.1.1, h.1.2, h.2, this]

/-- An instruction that is not at its engine's PC does nothing. -/
theorem State.issue_elsewhere {s : State} {i : Instr} {e : Fin 4} {ws : List Word} (clk : Nat) (run : Nat → Nat → State → Except Nat State)
    (touch : Nat → State → List Touch) (he : encodeEngine i = some (e, ws)) (h : (s.atIssue e && s.spells e i ws.length) = false) :
    s.issue i clk run touch = .next s := by
  simp only [State.issue, he, h]
  simp

theorem State.issues_of_fallsThrough {s : State} {i : Instr} (h : s.fallsThrough i = true) : s.issues i = true := by
  unfold State.fallsThrough at h
  split at h
  · exact (Bool.and_eq_true _ _ ▸ h).1
  · cases h

/-- An instruction whose successor lies inside the block runs to the state its meaning gives, as long as that leaves the image and the
engine's block and PC alone. -/
theorem State.issue_next {s t : State} {i : Instr} {e : Fin 4} {ws : List Word} (clk : Nat) (run : Nat → Nat → State → Except Nat State)
    (touch : Nat → State → List Touch) (he : encodeEngine i = some (e, ws)) (h : s.fallsThrough i = true)
    (hr : run e (s.pcOf e) (s.advance e ws.length (s.clocksOf i e clk)) = .ok t) (hm : t.mram = s.mram)
    (hb : (t.engine e).block = (s.engine e).block) (hp : (t.engine e).pc = (s.engine e).pc + BitVec.ofNat 18 ws.length) :
    s.issue i clk run touch = .next t := by
  have hf := h
  simp only [State.fallsThrough, he, Bool.and_eq_true] at hf
  rw [State.issue_of_issues clk run touch he hf.1, hr]
  have : t.inBlock e (t.pcOf e) = true := by
    rw [State.inBlock_congr hm hb, State.pcOf, hp]; exact hf.2
  simp [State.settle_inside this]

/-- An instruction that only changes registers. -/
theorem State.issueRegs_next {s : State} {i : Instr} {e : Fin 4} {ws : List Word} (clk : Nat) (f : Engine → Engine)
    (he : encodeEngine i = some (e, ws)) (h : s.fallsThrough i = true)
    (hb : ∀ x : Engine, (f x).block = x.block) (hp : ∀ x : Engine, (f x).pc = x.pc) :
    s.issueRegs i clk f = .next ((s.advance e ws.length (s.clocksOf i e clk)).modEngine e f) := by
  unfold State.issueRegs
  refine State.issue_next (t := (s.advance e ws.length (s.clocksOf i e clk)).modEngine e f) clk _ _ he h rfl rfl ?_ ?_
  · simp [hb]
  · simp [hp]

/-! ## Registers (R111, R116) -/

theorem Engine.result_eq_saturated (x : Engine) (v : Int) (p : Bool) : x.result v p = saturated x v p := by
  unfold Engine.result saturated sat32 clampInt Engine.overflow
  by_cases h1 : v < int32Min
  · have h2 : ¬ (int32Min ≤ v ∧ v ≤ int32Max) := by omega
    have h3 : v ≠ int32Min := by omega
    simp [h1, h2, h3]
  · by_cases h4 : int32Max < v
    · have h2 : ¬ (int32Min ≤ v ∧ v ≤ int32Max) := by omega
      have h3 : v ≠ int32Max := by omega
      simp [h1, h2, h3, h4]
    · have h2 : (int32Min ≤ v ∧ v ≤ int32Max) := by omega
      simp [h1, h2, h4]

theorem Engine.combine_and (x : Engine) (v p : Bool) : x.combine .and_ v p = combined x and v p := by
  unfold Engine.combine combined Engine.load BitOp.run; split <;> simp [*]

theorem Engine.combine_or (x : Engine) (v p : Bool) : x.combine .or_ v p = combined x or v p := by
  unfold Engine.combine combined Engine.load BitOp.run; split <;> simp [*]

theorem Engine.combine_xor (x : Engine) (v p : Bool) : x.combine .xor_ v p = combined x Bool.xor v p := by
  unfold Engine.combine combined Engine.load BitOp.run; split <;> simp [*]

@[simp] theorem combined_block (x : Engine) (op : Bool → Bool → Bool) (v p : Bool) : (combined x op v p).block = x.block := rfl
@[simp] theorem combined_pc (x : Engine) (op : Bool → Bool → Bool) (v p : Bool) : (combined x op v p).pc = x.pc := rfl
@[simp] theorem saturated_block (x : Engine) (v : Int) (p : Bool) : (saturated x v p).block = x.block := rfl
@[simp] theorem saturated_pc (x : Engine) (v : Int) (p : Bool) : (saturated x v p).pc = x.pc := rfl

/-! ## Operands (R85, R108) -/

@[simp] theorem bitWords_length (op : Nat) (o : Operand) : (Sys2Proof.bitWords op o).length = bitClocks o := by
  unfold Sys2Proof.bitWords bitClocks; split <;> rfl

theorem State.image_congr {s t : State} (h : t.mram = s.mram) : t.image = s.image := by
  simp [State.image, State.loaded, State.bank, State.runBankNo, h]

theorem State.wordAddr_congr {s t : State} (h : t.mram = s.mram) (hq : t.square = s.square) (v : View) (a : Area) (w : Nat) :
    t.wordAddr v a w = s.wordAddr v a w := by
  simp [State.wordAddr, State.image_congr h, State.runBankNo, h, hq]

theorem State.owner_congr {s t : State} (h : t.mram = s.mram) (a : Area) (w : Nat) : t.owner a w = s.owner a w := by
  simp [State.owner, State.image_congr h]

theorem State.forceOn_congr {s t : State} (h : t.mram = s.mram) (a : Area) (w : Nat) : t.forceOn a w = s.forceOn a w := by
  simp [State.forceOn, h]

/-- A bit that lands is written to its address and changes nothing else. -/
theorem State.writeBit_lands {s : State} {e : Fin 4} {o : Operand} {a : Nat} (h : s.bitLands e o a) (v p : Bool) :
    s.writeBit e o v p = some { s with square := s.square.putBit a (Operand.place o).2 v p } := by
  obtain ⟨h1, h2, h3, h4⟩ := h
  simp [State.writeBit, State.guardWrite, State.putWorkBit, h1, h2, h3, h4]

theorem State.bitLands_congr {s t : State} (h : t.mram = s.mram) (hq : t.square = s.square) {e : Fin 4} {o : Operand} {a : Nat}
    (hl : s.bitLands e o a) : t.bitLands e o a := by
  simpa [State.bitLands, State.wordAddr_congr h hq, State.owner_congr h, State.forceOn_congr h] using hl

/-- What a bit operand reads depends on the image, the Town Square, the timers and the counters. -/
theorem State.readBit_congr {s t : State} (h : t.mram = s.mram) (hq : t.square = s.square) (ht : t.timers = s.timers)
    (hc : t.counters = s.counters) (e : Nat) (o : Operand) : t.readBit e o = s.readBit e o := by
  simp [State.readBit, State.wordAddr_congr h hq, State.sqWord, State.viewOf, State.owner_congr h, State.timer, State.counter, ht, hc, hq,
    State.freezeInstant]

/-- An instruction that reads a bit into the chain. -/
theorem State.issueBit_next {s : State} {i : Instr} {e : Fin 4} {op : Nat} {o : Operand} {v p : Bool} (f : Engine → Bool → Bool → Engine)
    (he : encodeEngine i = some (e, Sys2Proof.bitWords op o)) (hr : s.readBit e o = some (v, p)) (h : s.fallsThrough i = true)
    (hb : ∀ x : Engine, (f x v p).block = x.block) (hp : ∀ x : Engine, (f x v p).pc = x.pc) :
    s.issueBit i o f =
      .next (((s.advance e (bitClocks o) (s.clocksOf i e (bitClocks o))).modEngine e fun x => f x v p).loadBit e o.area (bitClocks o)) := by
  let n := bitClocks o
  let t := s.advance e n (s.clocksOf i e n)
  have hq : t.quiet = true := by
    have h := h
    simp only [State.fallsThrough, he, Bool.and_eq_true, State.issues] at h
    exact h.1.2
  obtain ⟨k, hk⟩ := (t.modEngine e fun x => f x v p).loadBit_engine e o.area n
  refine State.issue_next (t := (t.modEngine e fun x => f x v p).loadBit e o.area n) _ _ _ he h ?_ (by simp [t]) ?_ ?_
  · have ht : t.takeBit e o = some (t, v, p) := by
      simp only [State.takeBit, State.judgeRead_quiet hq, State.readBit_congr (s := s) (t := t) rfl rfl rfl rfl, hr, Option.map_some]
      split <;> simp
    rw [bitWords_length]
    show allowed (t.takeBit e o) _ = _
    rw [ht]
    rfl
  · rw [hk]; simp [hb, t]
  · rw [hk]; simp [hp, t, n]

end Sys2Proof.Machine
end

