-- ==== Sys2Proof/Laws/Memory.lean ====
section
/-! SUPPORT. What an access to a protected array does where no error stands and no page is under repair: it delivers, and changes nothing else. -/

namespace Sys2Proof.Machine

open Sys2Proof

/-- A run that repeats a step which changes nothing changes nothing. -/
theorem State.each_eq_self {α : Type} (s : State) (l : List α) (f : State → α → State) (h : ∀ x ∈ l, f s x = s) : s.each l f = s := by
  induction l with
  | nil => rfl
  | cons x l ih =>
    rw [State.each, List.foldl_cons, h x List.mem_cons_self]
    exact ih fun y hy => h y (List.mem_cons_of_mem x hy)

/-! ## No error stands -/

@[simp] theorem State.upsetsIn_clear {s : State} (h : s.upsets = []) (a lo n : Nat) : s.upsetsIn a lo n = [] := by simp [State.upsetsIn, h]

theorem State.readSpan_clear {s : State} (h : s.upsets = []) (a lo n : Nat) : s.readSpan a lo n = s := by
  simp [State.readSpan, h, State.each]

theorem State.readWords_clear {s : State} (h : s.upsets = []) (a : Nat) (l : List Nat) : s.readWords a l = s :=
  State.each_eq_self s l _ fun b _ => State.readSpan_clear h a b 4

theorem State.badWords_clear {s : State} (h : s.upsets = []) (a lo n : Nat) : s.badWords a lo n = [] := by simp [State.badWords, h]

theorem State.badOf_clear {s : State} (h : s.upsets = []) (a : Nat) (l : List Nat) : s.badOf a l = [] := by
  have : ∀ k : List Nat,
      l.foldl (fun (k : List Nat) b => if k.any (fun c => c / 512 == b / 512) then k else k ++ s.badWords a b 4) k = k := by
    induction l with
    | nil => intro k; rfl
    | cons b l ih => intro k; rw [List.foldl_cons, State.badWords_clear h, List.append_nil, ite_self]; exact ih k
  exact this []

theorem State.judgeRead_clear {s : State} (h : s.upsets = []) (a b : Nat) : s.judgeRead a b .clean = (s, false) := by
  simp [State.judgeRead, h, foundAt]

theorem State.overwrite_clear {s : State} (h : s.upsets = []) (a lo n : Nat) : s.overwrite a lo n = s := by simp [State.overwrite, h]

/-! ## No page is under repair either -/

theorem State.locked_clear {s : State} (h : s.locks = []) (a b : Nat) : s.locked a b = false := by simp [State.locked, h]

theorem State.spanLocked_clear {s : State} (h : s.locks = []) (a lo n : Nat) : s.spanLocked a lo n = false := by
  simp [State.spanLocked, h]

/-- A write that meets neither an error nor a repair does not wait (R340, R343). -/
theorem State.writeWaits_clear {s : State} (h : s.upsets = []) (k : s.locks = []) (a lo n : Nat) : s.writeWaits a lo n = none := by
  simp [State.writeWaits, State.spanLocked_clear k, State.oldBad, h]

theorem State.spansWait_clear {s : State} (h : s.upsets = []) (k : s.locks = []) (l : List (Nat × Nat × Nat)) : s.spansWait l = none := by
  simp [State.spansWait, State.spanLocked_clear k, State.oldBad, h]

/-- A read by a command that meets neither an error nor a repair is answered from the state as it stands (R341, R343). -/
theorem State.gateRead_clear {s : State} (h : s.upsets = []) (k : s.locks = []) (c : Ctx) (b : List Byte) (a : Nat) (at_ marks : List Nat)
    (f : List Nat → State → State) : s.gateRead c b a at_ marks f = f marks s := by
  simp [State.gateRead, State.readWords_clear h, State.badOf_clear h, State.locked_clear k]

end Sys2Proof.Machine
end

