-- ==== Sys2Proof/Laws/Square.lean ====
section
/-! SUPPORT. The Town Square keeps its canonical form under every operation on its bytes and marks, and a byte written reads as written. -/

namespace Sys2Proof.Tab

variable {α : Type}

theorem above_filter {b : Nat} {t : Tab α} (f : Nat × α → Bool) (h : above b t) : above b (t.filter f) :=
  fun p hp => h p (List.mem_of_mem_filter hp)

/-- Taking entries out keeps the canonical form. -/
theorem wf_filter [DecidableEq α] {d : α} {t : Tab α} (f : Nat × α → Bool) (h : wf d t = true) : wf d (t.filter f) = true := by
  induction t with
  | nil => rfl
  | cons q t ih =>
    obtain ⟨j, w⟩ := q
    by_cases hq : f (j, w) = true
    · rw [List.filter_cons_of_pos hq]
      exact wf_cons (wf_head h) (above_filter f (wf_above h)) (ih (wf_tail h))
    · rw [List.filter_cons_of_neg hq]
      exact ih (wf_tail h)

/-- Any run of writes keeps the canonical form. -/
theorem wf_foldl_set [DecidableEq α] {β : Type} {d : α} (key : β → Nat) (val : β → α) (l : List β) {t : Tab α} (h : wf d t = true) :
    wf d (l.foldl (fun u e => set d u (key e) (val e)) t) = true := by
  induction l generalizing t with
  | nil => exact h
  | cons e l ih => exact ih (wf_set h)

theorem wf_copyRange [DecidableEq α] {d : α} {t : Tab α} (src dst n : Nat) (h : wf d t = true) : wf d (copyRange d t src dst n) = true :=
  wf_foldl_set (fun e : Nat × α => e.1 - src + dst) (fun e : Nat × α => e.2) _ (wf_filter _ h)

theorem wf_clearRange [DecidableEq α] {d : α} {t : Tab α} (a n : Nat) (h : wf d t = true) : wf d (clearRange t a n) = true := wf_filter _ h

end Sys2Proof.Tab

namespace Sys2Proof.Machine

open Sys2Proof

/-- The canonical form of one square. -/
def Square.canonical (q : Square) : Prop := Memory.wf q.mem = true ∧ Marks.wf q.poison = true

theorem State.squareWf_iff (s : State) : s.squareWf = true ↔ s.square.canonical := by
  simp [State.squareWf, Square.canonical]

/-- After reset the Town Square stands in its canonical form. -/
theorem State.reset_squareWf : State.reset.squareWf = true := by decide

namespace SquareLaws

variable {q : Square}

theorem putByte (a : Nat) (b : Byte) (h : q.canonical) : (q.putByte a b).canonical := ⟨Tab.wf_set h.1, h.2⟩

theorem markByte (a : Nat) (p : Bool) (h : q.canonical) : (q.markByte a p).canonical := ⟨h.1, Tab.wf_set h.2⟩

theorem markWord (a : Nat) (p : Bool) (h : q.canonical) : (q.markWord a p).canonical :=
  markByte _ _ (markByte _ _ (markByte _ _ (markByte _ _ h)))

theorem putBytes (a : Nat) (w : Word) (h : q.canonical) : (q.putBytes a w).canonical :=
  putByte _ _ (putByte _ _ (putByte _ _ (putByte _ _ h)))

theorem put (a : Nat) (w : Word) (p : Bool) (h : q.canonical) : (q.put a w p).canonical := markWord _ _ (putBytes _ _ h)

theorem settleWord (a : Nat) (h : q.canonical) : (q.settleWord a).canonical := by
  unfold Square.settleWord
  split
  · exact h
  · exact ⟨Tab.wf_set (Tab.wf_set (Tab.wf_set (Tab.wf_set h.1))), Tab.wf_set (Tab.wf_set (Tab.wf_set (Tab.wf_set h.2)))⟩

theorem putBit (a b : Nat) (v p : Bool) (h : q.canonical) : (q.putBit a b v p).canonical := by
  unfold Square.putBit
  dsimp only
  split
  · exact markWord _ _ (putByte _ _ (settleWord a h))
  · exact markByte _ _ (putByte _ _ (settleWord a h))

theorem putWords (l : List Word) : ∀ {q : Square} (a : Nat), q.canonical → (q.putWords a l).canonical := by
  induction l with
  | nil => exact fun _ h => h
  | cons w l ih => exact fun a h => ih (a + 4) (put a w false h)

theorem copy (src dst n : Nat) (h : q.canonical) : (q.copy src dst n).canonical :=
  ⟨Tab.wf_copyRange src dst n h.1, Tab.wf_copyRange src dst n h.2⟩

theorem clear (a n : Nat) (h : q.canonical) : (q.clear a n).canonical := ⟨Tab.wf_clearRange a n h.1, Tab.wf_clearRange a n h.2⟩

theorem commitCopy (h : q.canonical) : q.commitCopy.canonical := copy _ _ _ (copy _ _ _ (copy _ _ _ h))

theorem revert (h : q.canonical) : q.revert.canonical := copy _ _ _ (copy _ _ _ (copy _ _ _ h))

/-- The bytes that a write covers are written, and nothing else is. -/
theorem fresh_wrote (lo hi i : Nat) (h : lo ≤ hi) : (q.wrote lo hi).fresh i = (q.fresh i && !(decide (lo ≤ i) && decide (i < hi))) := by
  simp only [Square.fresh, Square.wrote, cutRange]
  induction q.scratch with
  | nil => rfl
  | cons r l ih =>
    suffices key : ((([(r.1, min r.2 lo), (max r.1 hi, r.2)] : List (Nat × Nat)).filter fun r => decide (r.1 < r.2)).any fun r =>
        decide (r.1 ≤ i) && decide (i < r.2)) = ((decide (r.1 ≤ i) && decide (i < r.2)) && !(decide (lo ≤ i) && decide (i < hi))) by
      rw [List.flatMap_cons, List.any_append, ih, key, List.any_cons, Bool.and_or_distrib_right]
    rw [Bool.eq_iff_iff]
    simp only [List.any_eq_true, List.mem_filter, List.mem_cons, List.not_mem_nil, or_false, decide_eq_true_eq, Bool.and_eq_true,
      Bool.not_eq_true', Bool.and_eq_false_iff, decide_eq_false_iff_not]
    constructor
    · rintro ⟨x, ⟨rfl | rfl, hx⟩, h1⟩ <;> simp only at hx h1 <;> omega
    · intro h1
      by_cases hl : i < lo
      · exact ⟨_, ⟨Or.inl rfl, by simp only; omega⟩, by simp only; omega⟩
      · exact ⟨_, ⟨Or.inr rfl, by simp only; omega⟩, by simp only; omega⟩

theorem putByte_fresh (a : Nat) (b : Byte) (i : Nat) : (q.putByte a b).fresh i = q.fresh i := rfl

theorem markByte_fresh (a : Nat) (p : Bool) (i : Nat) : (q.markByte a p).fresh i = q.fresh i := rfl

/-- A word just written stands in written bytes. -/
theorem fresh_put (a i : Nat) (w : Word) (p : Bool) : (q.put a w p).fresh i = (q.fresh i && !(decide (a ≤ i) && decide (i < a + 4))) :=
  fresh_wrote a (a + 4) i (by omega)

theorem fresh_put_same {a i : Nat} (w : Word) (p : Bool) (h : a ≤ i) (h' : i < a + 4) : (q.put a w p).fresh i = false := by
  simp [fresh_put, h, h']

theorem fresh_put_other {a i : Nat} (w : Word) (p : Bool) (h : i < a ∨ a + 4 ≤ i) : (q.put a w p).fresh i = q.fresh i := by
  rw [fresh_put]
  have : (decide (a ≤ i) && decide (i < a + 4)) = false := by
    simp only [Bool.and_eq_false_iff, decide_eq_false_iff_not]
    omega
  rw [this]
  simp

/-- The memory and the marks that `put` leaves. -/
theorem put_mem (a : Nat) (w : Word) (p : Bool) : (q.put a w p).mem = (q.putBytes a w).mem := rfl

theorem put_poison (a : Nat) (w : Word) (p : Bool) : (q.put a w p).poison = (q.markWord a p).poison := rfl

/-- What `put` does to another byte: nothing. -/
theorem read_put_other {a i : Nat} (w : Word) (p : Bool) (h : i < a ∨ a + 4 ≤ i) : (q.put a w p).byte i = q.byte i := by
  have h0 : i ≠ a := by omega
  have h1 : i ≠ a + 1 := by omega
  have h2 : i ≠ a + 2 := by omega
  have h3 : i ≠ a + 3 := by omega
  have hm : (q.put a w p).mem.get 0 i = q.mem.get 0 i := by
    rw [put_mem]
    simp only [Square.putBytes, Square.putByte]
    rw [Tab.get_set_other 0 _ _ h3, Tab.get_set_other 0 _ _ h2, Tab.get_set_other 0 _ _ h1, Tab.get_set_other 0 _ _ h0]
  simp only [Square.byte, fresh_put_other w p h, hm]
  rfl

/-- What `put` does to the mark of another byte: nothing. -/
theorem mark_put_other {a i : Nat} (w : Word) (p : Bool) (h : i < a ∨ a + 4 ≤ i) : (q.put a w p).marked i = q.marked i := by
  have h0 : i ≠ a := by omega
  have h1 : i ≠ a + 1 := by omega
  have h2 : i ≠ a + 2 := by omega
  have h3 : i ≠ a + 3 := by omega
  have hm : (q.put a w p).poison.get false i = q.poison.get false i := by
    rw [put_poison]
    simp only [Square.markWord, Square.markByte]
    rw [Tab.get_set_other false _ _ h3, Tab.get_set_other false _ _ h2, Tab.get_set_other false _ _ h1, Tab.get_set_other false _ _ h0]
  simp only [Square.marked, fresh_put_other w p h, hm]
  rfl

/-- A word just written reads as written. -/
theorem read_put_same (a : Nat) (w : Word) (p : Bool) : (q.put a w p).word a = w := by
  have e3 : (q.put a w p).byte (a + 3) = BitVec.ofNat 8 (bits w 7 0) := by
    simp only [Square.byte, fresh_put_same w p (show a ≤ a + 3 by omega) (by omega), put_mem, Square.putBytes, Square.putByte]
    simp
  have e2 : (q.put a w p).byte (a + 2) = BitVec.ofNat 8 (bits w 15 8) := by
    simp only [Square.byte, fresh_put_same w p (show a ≤ a + 2 by omega) (by omega), put_mem, Square.putBytes, Square.putByte]
    rw [Tab.get_set_other 0 _ _ (by omega), Tab.get_set_same]
    simp
  have e1 : (q.put a w p).byte (a + 1) = BitVec.ofNat 8 (bits w 23 16) := by
    simp only [Square.byte, fresh_put_same w p (show a ≤ a + 1 by omega) (by omega), put_mem, Square.putBytes, Square.putByte]
    rw [Tab.get_set_other 0 _ _ (by omega), Tab.get_set_other 0 _ _ (by omega), Tab.get_set_same]
    simp
  have e0 : (q.put a w p).byte a = BitVec.ofNat 8 (bits w 31 24) := by
    simp only [Square.byte, fresh_put_same w p (Nat.le_refl a) (by omega), put_mem, Square.putBytes, Square.putByte]
    rw [Tab.get_set_other 0 _ _ (by omega), Tab.get_set_other 0 _ _ (by omega), Tab.get_set_other 0 _ _ (by omega), Tab.get_set_same]
    simp
  apply BitVec.eq_of_toNat_eq
  have hw := w.isLt
  simp only [Square.word, e0, e1, e2, e3, bits, BitVec.toNat_ofNat]
  omega

/-- A clean word just written is not poisoned, a poisoned one is. -/
theorem poisoned_put_same (a : Nat) (w : Word) (p : Bool) : (q.put a w p).poisoned a = p := by
  have m (i : Nat) (h : a ≤ i) (h' : i < a + 4) : (q.put a w p).marked i = p := by
    have hm : (q.put a w p).poison.get false i = p := by
      rw [put_poison]
      simp only [Square.markWord, Square.markByte]
      by_cases h3 : i = a + 3
      · rw [h3, Tab.get_set_same]
      · rw [Tab.get_set_other false _ _ h3]
        by_cases h2 : i = a + 2
        · rw [h2, Tab.get_set_same]
        · rw [Tab.get_set_other false _ _ h2]
          by_cases h1 : i = a + 1
          · rw [h1, Tab.get_set_same]
          · rw [Tab.get_set_other false _ _ h1, show i = a by omega, Tab.get_set_same]
    simp only [Square.marked, fresh_put_same w p h h', hm]
    simp
  simp [Square.poisoned, m a, m (a + 1), m (a + 2), m (a + 3)]

end SquareLaws

end Sys2Proof.Machine
end

