-- ==== Sys2Proof/Machine/Connectors.lean ====
section
/-! DEFINITION. The connectors of the module (R410 to R417): which signal stands on which pin or terminal. -/

namespace Sys2Proof.Machine

open Sys2Proof

/-- The signals of X1 (R410). -/
inductive PowerPin where
  | feed (n : Fin 2) (positive : Bool)
  | earth
  deriving DecidableEq, Repr

def x1 : List (Nat × PowerPin) := [(1, .feed 0 true), (2, .feed 0 false), (3, .feed 1 true), (4, .feed 1 false), (5, .earth)]

/-- The pairs of the ring sockets X2 and X3: pair A to D and its polarity (R411). Under 100BASE-TX only pairs A and B carry signals. -/
def ringPins : List (Nat × Char × Bool) :=
  [(1, 'A', true), (2, 'A', false), (3, 'B', true), (4, 'B', false), (5, 'D', true), (6, 'D', false), (7, 'C', false), (8, 'C', true)]

/-- A pin of a ring socket carries a signal at a speed (R411). -/
def ringPinUsed (gigabit : Bool) (pair : Char) : Bool := gigabit || pair == 'A' || pair == 'B'

/-- The signals of the CAN sockets X4 and X5 (R411); pin 2 is not connected. -/
inductive CanPin where
  | shield | ground | high | low
  deriving DecidableEq, Repr

def canPins : List (Nat × CanPin) := [(1, .shield), (3, .ground), (4, .high), (5, .low)]

/-- The signals of X6 (R412). -/
inductive CausewaySignal where
  | transmit (lane : Fin 2) (positive : Bool)
  | receive (lane : Fin 2) (positive : Bool)
  | screen
  | claim (sideB : Bool)
  | tripCut | common | sideKey | presentOut | presentIn
  deriving DecidableEq, Repr

/-- The signal on a pin of X6; pins 22 to 25 are not connected. -/
def x6 (pin : Nat) : Option CausewaySignal :=
  match pin with
  | 1 => some (.transmit 0 true)
  | 2 => some (.transmit 0 false)
  | 4 => some (.receive 0 true)
  | 5 => some (.receive 0 false)
  | 7 => some (.transmit 1 true)
  | 8 => some (.transmit 1 false)
  | 10 => some (.receive 1 true)
  | 11 => some (.receive 1 false)
  | 3 | 6 | 9 | 12 | 26 => some .screen
  | 13 => some (.claim false)
  | 14 => some (.claim true)
  | 15 | 16 => some .tripCut
  | 17 | 18 => some .common
  | 19 => some .sideKey
  | 20 => some .presentOut
  | 21 => some .presentIn
  | _ => none

/-- The interlock lines as they stand (R413): a line is asserted while some module pulls it down, and a broken conductor reads deasserted. -/
def lineAsserted (own partner broken : Bool) : Bool := own || (partner && !broken)

/-- The signals of the panel connectors (R414). -/
inductive PanelSignal where
  | column (c : Nat)
  | vcol | vrow | rowVdd | rowClk | rowDin | rowLe | rowRev | thermistor | thermistorReturn
  | segment (n : Nat)
  | invalid | plateCommon | vplate (positive : Bool)
  | ground
  deriving DecidableEq, Repr

/-- The signal on a pin of X8A. -/
def x8a (pin : Nat) : Option PanelSignal :=
  if 1 ≤ pin && pin ≤ 80 then some (.column (pin - 1))
  else match pin with
  | 81 | 82 => some .vcol
  | 83 | 84 => some .vrow
  | 85 => some .rowVdd
  | 86 => some .rowClk
  | 87 => some .rowDin
  | 88 => some .rowLe
  | 89 => some .rowRev
  | 90 => some .thermistor
  | 91 => some .thermistorReturn
  | n => if 92 ≤ n && n ≤ 100 then some .ground else none

/-- The signal on a pin of X8B. -/
def x8b (pin : Nat) : Option PanelSignal :=
  if 1 ≤ pin && pin ≤ 48 then some (.column (pin + 79))
  else if 49 ≤ pin && pin ≤ 95 then some (.segment (pin - 49))
  else match pin with
  | 96 => some .invalid
  | 97 => some .plateCommon
  | 98 => some (.vplate true)
  | 99 => some (.vplate false)
  | 100 => some .ground
  | _ => none

/-- What the module drives on a column pin while row `r` is scanned: nothing where it is high-impedance (R414). -/
def State.columnPin (s : State) (onB : Bool) (pin r : Nat) : Option ColumnDrive :=
  match (if onB then x8b pin else x8a pin) with
  | some (.column c) => s.columnDrive r c
  | _ => none

/-- Where a universal channel stands (R416): X9 or X10, the plug, and its terminals A to D. -/
def ucTerminals (n : Fin 32) : Nat × Nat × List Nat :=
  (if n.val < 16 then 9 else 10, n.val % 16 / 4 + 1, (List.range 4).map fun k => 4 * (n.val % 4) + 1 + k)

/-- Where a digital channel stands (R417): X11 for an input or X12 for an output, the plug of its group, and its terminal. -/
def diTerminal (n : Fin 48) : Nat × Nat × Nat := (11, n.val / 8 + 1, n.val % 8 + 1)
def doTerminal (n : Fin 32) : Nat × Nat × Nat := (12, n.val / 8 + 1, n.val % 8 + 1)

/-- The supply terminals of a plug of X11 or X12: L+ on 9 and 10, M on 11 and 12 (R417). -/
def groupSupply (terminal : Nat) : Option Bool :=
  if terminal = 9 ∨ terminal = 10 then some true else if terminal = 11 ∨ terminal = 12 then some false else none

end Sys2Proof.Machine
end

