-- ==== Sys2Proof/Tests/Slice0.lean ====
section
/-! SUPPORT. The author's own tests: commands that `wellFormed` refuses, worked examples of the spec, single steps, and for every statement with
hypotheses a concrete state and operands that meet them, for each of its clauses (`witness_<statement>_<n>`). -/

namespace Sys2Proof.Tests

open Sys2Proof Sys2Proof.Machine

set_option maxRecDepth 100000

/-! ### Small states and packets -/

/-- An image of one cyclic block of `n` words on engine 0, whose words engine 0 owns. -/
def oneBlock (n : Nat) : ImageDesc :=
  { mBytes := 128, dWords := 64, blocks := [{ number := 0, engine := 0, event := none, first := 0, length := n }]
    owners := [⟨.Q, 0, 32, 0⟩, ⟨.D, 0, 64, 0⟩, ⟨.M, 0, 32, 0⟩, ⟨.E, 0, 8, 0⟩, ⟨.T, 0, 32, 0⟩, ⟨.C, 0, 16, 0⟩, ⟨.Z, 0, 16, 0⟩] }

/-- A module in execute whose engine 0 stands at the first of `code`. -/
def running (code : List Word) (x : Engine) : State :=
  { service := .full, square := { phase := .execute, prog := .run, current := 9, freezeAt := 1000000 }
    mram := { banks := [(0, { state := .running, words := code.length, desc := oneBlock code.length
                              code := code.zipIdx.foldl (fun t (e : Word × Nat) => t.set 0 e.2 e.1) [] })] }
    engines := [(0, { x with running := true, block := 0 })] }

/-- The module about to issue `i`, with END after it. -/
def about (i : Instr) (x : Engine := {}) : State := running (((encodeEngine i).map (·.2)).getD [] ++ [0x01000000]) x

/-- A module in full service between two cycles, all islands and domains running. -/
def im : State :=
  { service := .full, mramChecked := true, now := 5000000000
    power := { supOk := true, lp1Ok := true, lp2Ok := true, lp1Mv := 24000, lp2Mv := 24000 }
    mram := { (running [0x01000000] {}).mram with addressed := true, address := 131 }
    square := { last := 7, current := 8, prog := .run }
    islands := (List.range 20).map fun n => (n, ({ state := .run } : Island))
    domains := (List.range 12).map fun n => (n, ({ state := .on } : Domain)) }

/-- A request to the module at the service port. -/
def pk (op : BitVec 16) (body : List Byte) : Packet :=
  { port := .svc, magic := 0x4E56, version := 1, flags := 0, opcode := op, tag := 1, seq := 1, target := 131, origin := 0x8000
    length := BitVec.ofNat 16 body.length, cls := 2, keyslot := 0, cycle := 0, payload := body, auth := [] }
def cm (d : CmdDesc) (body : List Byte) : Packet := pk d.code body

/-- A state with configuration words: index, sub-index, value. -/
def cfgd (s : State) (l : List (Nat × Nat × Nat)) : State :=
  { s with mram := { s.mram with obj := l.foldl (fun (t : Tab Word) x =>
      t.set (objDefault (okey x.1 x.2.1)) (okey x.1 x.2.1) (BitVec.ofNat 32 x.2.2)) s.mram.obj } }
/-- The four bytes of a word, read back. -/
theorem beWord_wordBe (w : Word) (l : List Byte) : beWord (wordBe w ++ l) 0 = w := by
  apply BitVec.eq_of_toNat_eq
  have h := w.isLt
  simp only [beWord, wordBe, be32, be16, byteAt, toBe, BitVec.toNat_ofNat]
  simp
  omega

def gs := pk 0x101 []
def w1 : Packet := {gs with version := 2}
def w2 : Packet := {gs with target := 5}
def w3 : Packet := {gs with port := .ringA}
def imr : State := {im with ring := {im.ring with ports := [(0,{link := true}),(1,{link := true})]}}
def bad := pk 0x7777 [1,2,3,4]
def s7 : State := { im with sup := { im.sup with replay := [(0x8000 * 8, { h := 100, seen := 1 })] } }
def w4 : Packet := {gs with seq := 100}
def badCtx : Ctx := { bad.ctx 2 15 with gen := im.sup.gen }
def badReq : Request := { ctx := badCtx, payload := [1,2,3,4], flags := 0 }
def badNext : State := ((im.acceptSeq bad).collect bad badCtx).1
def repl : Replay := { h := 100, seen := 1 }
def X : Engine := { wa := 5, wb := 7, chs := true, cb := true }
def w5 : Engine := {X with wa := 0x80000000}
def w6 : Engine := {X with wa := 0xFFFFFFFF, wb := 0x80000000}
def w7 : Engine := {X with wa := 0}
def w8 : Engine := {X with wa := 0xFFFFFFFE}
def w9 : Engine := {X with chs := false}
def qo : Operand := ⟨.Q, 3, 0⟩
def do_ : Operand := ⟨.D, 3, 5⟩
def ib3 : Operand := ⟨.I, 3, 0⟩
def qb1024 : Operand := ⟨.Q, 1024, 0⟩
def forcedS : State := let s := about (.out 0 qo) X; { s with mram := { s.mram with forces := [{ hash := 1, isBit := false, area := .Q, offset := 0, value := 1}] } }
def w10 : Engine := {X with nest := [{cb := true, cbP := true, op := .xorn}]}
def ed : EdgeOperand := ⟨do_, 40⟩
def tm (pw : Bool) : TimerOperand := ⟨3, 1, true, pw, 20⟩
def wt (i : Instr) (x : Engine) (t : Timer) : State := { about i x with timers := [(3, t)] }
def w11 : Engine := {X with cb := false}
def w12 : Engine := {X with cb := true}
def wc (i : Instr) (x : Engine) (t : Counter) : State := { about i x with counters := [(3, t)] }
def dw : Operand := ⟨.D, 3, 0⟩
def qw : Operand := ⟨.Q, 32, 0⟩
def w13 : Engine := {X with wa := 4097}
def w13b : Engine := {X with wa := 1}
def w14 : Engine := {X with ovf := true}
def w15 : Engine := {X with ovs := true}
def blk (n : Nat) : Block := { number := 0, engine := 0, event := none, first := 0, length := n }
def w16 : Engine := {X with calls := List.replicate 8 (0,0)}
def w17 : Engine := {X with calls := [(1,0)]}
def tots (i : Instr) (x : Engine) (v : Int) : State := { about i x with totals := [(3, {value := v})] }
def w18 : Engine := {X with cbP := true}
def w19 : Engine := {X with nest := List.replicate 16 {cb := true, cbP := true, op := .xorn}}
def P : Engine := { X with cbP := true, waP := true }
def PW : Engine := { X with waP := true }
def rdo := pk 0x102 (toBe 2 2 ++ toBe 2 0 ++ toBe 2 0x101 ++ toBe 2 0 ++ toBe 2 0 ++ toBe 2 0)
def rdAny : State := { imr with mram := { imr.mram with keys := [] } }
def rdb := pk 0x102 (toBe 2 1 ++ toBe 2 0 ++ toBe 2 0x7777 ++ toBe 2 0)
def rv := cm readVarsDesc (toBe 2 1 ++ toBe 2 0 ++ [3,1,0,2] ++ toBe 4 5)
def recs : State := { im with mram := { im.mram with newest := 2, records := [(1, default), (2, { (default : Record) with source := 16 })] } }
def burst : State := (cfgd im [(0x400, 0, 0x05000001)]).modUc 0 fun u => { u with state := .run, devices := [(2, {(default : HartDevice) with burst := some ([1,2,3], 5)})] }
def pb := cm programBeginDesc ([1,0,0,0] ++ toBe 4 2 ++ toBe 4 99)
def ld : State := im.openLoad true 2 99
def pd := cm programDataDesc (toBe 4 0 ++ toBe 4 7 ++ toBe 4 9)
def pe := cm programEndDesc []
def ver : State := { im with mram := { im.mram with banks := im.mram.banks ++ [(1, { state := .verified, words := 1, desc := oneBlock 1, code := [(0,0x01000000)] })] } }
def wv := cm writeVarsDesc (toBe 2 1 ++ toBe 2 0 ++ [3,1] ++ toBe 2 2 ++ toBe 4 5 ++ toBe 4 11 ++ toBe 4 12)
def wvParts : List (List Byte × List Word) := [([3,1] ++ toBe 2 2 ++ toBe 4 5, [11, 12])]
def wvWords : List LandWord := match im.planWrites wvParts with | .ok m => m | .error _ => []
def symIm : State := { im with mram := { im.mram with banks := [(0, { im.bank 0 with desc := { (im.bank 0).desc with symbols := [{ hash := 5, isBit := false, area := .D, offset := 5, count := 4, retained := false, mirrored := false, initial := [] }] } })] } }
def fs := cm forceSetDesc ([3,1] ++ toBe 2 2 ++ toBe 4 5 ++ toBe 4 11 ++ toBe 4 12)
def dRef : VarRef := ⟨.D, false, 2, 5⟩
def lostT : State := let q := cfgd im [(0x600,0,0x80000000)]; {q with pair := {q.pair with state := .active}}
def fsPlan : List Force := (symIm.planForces [] (dRef.items.zip (packWords 2 [0, 0, 0, 11, 0, 0, 0, 12]))).getD []
def sb := cm subscribeDesc ([0,0] ++ toBe 2 3 ++ toBe 2 60 ++ toBe 2 1 ++ [3,1] ++ toBe 2 2 ++ toBe 4 5)
def sub1 : Subscription := { (default : Subscription) with ctx := { (default : Ctx) with port := .svc, origin := 0x8000 }, words := [(.D, false, 5), (.D, false, 6)], decimate := 3, leaseEnd := 900000000000000, delivered := [none, none], full := true, due := true, snap := [(1,false),(2,false)], snapCycle := 7 }
def sbed : State := im.setSub 0 (some sub1)
def sb1 := cm subscribeDesc ([1,0] ++ toBe 2 3 ++ toBe 2 3600 ++ toBe 2 1 ++ [3,1] ++ toBe 2 2 ++ toBe 4 5)
def subFull : State := { im with sup := { im.sup with subs := (List.range 64).map fun k => (k, some sub1) } }
def w20 : State := {sbed with now := 900000000000000}
def w21 : State := {im with round := {im.round with firings := [(3,77)]}}
def m1 : State := im.modGroup 4 fun g => { g with ageFrom := some 0}
def m2 : State := im.modSource 7 fun g => { g with active := true}
def m3 : State := im.setSlot 2 {inUse := true}
def ntc : Notice := { (default : Notice) with order := 4, port := .svc, opcode := 0x390, payload := [1,2] }
def evs : State := im.setSlot 2 { inUse := true, port := .svc, queue := [ntc] }
def lc := cm loopWriteCoeffDesc (toBe 2 7 ++ [2,3] ++ toBe 4 999 ++ [20,0,0,0])
def lst := cm loopStageDesc (toBe 2 7 ++ [1,0] ++ (List.replicate 25 3) ++ [0,0,0])
def lv : State := {im with loop := {im.loop with live := true}}
def sec : State := cfgd im [(0x307, 3, 0x10000000)]
def stgd : State := sec.modLoopCtx 7 fun x => { x with staged := [[1,2,3,4,5,6]] }
def lvOff : State := lv.modIsland 4 fun i => { i with state := .restarting }
def lv7 : State := { sec with loop := { sec.loop with live := true } }
def wo (i k v : Nat) := cm writeObjectDesc (toBe 2 1 ++ toBe 2 0 ++ toBe 2 i ++ toBe 1 k ++ toBe 1 0 ++ toBe 4 v)
def ucIn (st : UcState) : State := (cfgd im [(0x400, 0, 0x01000000)]).setUc 0 { (default : Uc) with state := st, settleLeft := 3 }
def chm (l : List Byte) := cm channelModeDesc l
def cv : Conversion := { raw := 5000000, lead := 0, opened := false, cjTemp := 0, cjOpen := false, inLimit := false, headroomMv := 3000, storeMv := 28000, loadUa := 0 }
def ucOv : State := (ucIn .run).modUc 0 fun u => { u with overload := true }
def clsd : State := im.setTotal 5 { (im.total 5) with close := [{ ctx := none, close := true, config := [], boundary := none }] }
def w101 : WordSpec := { fields := [rwOk 31 0 fun v => v == 0 || decide (100 ≤ v) && decide (v ≤ 1000000)], dflt := 10000 }
def im1 : State := { im with square := { im.square with committedOnce := true } }
def hart : State := (cfgd im1 [(0x400, 0, 0x05000001), (0x400, 8, 0x52800000)]).modUc 0 fun u => { u with state := .run, scanning := true, devices := [(0, {(default : HartDevice) with present := true, longHi := 0x26, longLo := 5})], jobs := [default] }
def ht := cm hartTransactDesc ([0,0xFF,0x26,0,0,0,5,3,0])
def scan1 : List HartFound := [⟨1, 2, 3⟩]
def canIn (st : CanState) : State := im.modCan 0 fun x => { x with state := st }
def canCold : State := (canIn .disabled).modDomain 9 fun d => { d with state := .off }
def m4 : State := (canIn .shuttingDown).modCan 0 fun x => { x with enablePending := true}
def frame2 : CanFrame := { xtd := false, fdf := false, brs := false, esi := false, rtr := false, id := 0x100, data := [1,2], sof := 5}
def sending : State := (canIn .errorActive).modCan 0 fun x => { x with tx := some (.queued, frame2), tec := 4 }
def pairC : State := let q := cfgd (canIn .disabled) [(0x600,0,0x80000000)]; {q with pair := {q.pair with state := .active, cable := true, lane0 := true}}
def cw : State := (cfgd (canIn .errorActive) [(0x500,0,0x52800000), (0x540, 0, 0x40000000 + 3), (0x520, 3, 0x100), (0x530, 0, 0x00000000 + 500), (0x570, 6, 0x100), (0x570, 7, 2)]).modCan 0 fun x => {x with tIn := some 4999900000}
def m5 : State := (canIn .errorActive).modCan 0 fun x => { x with queue := [frame2]}
def w22 : CanFrame := {frame2 with sof := 5000000000, data := [0,0]}
def m6 : State := cw.modCan 0 fun x => { x with tIn := none}
def dig : State := cfgd im [(0x420,0,0xC0144100), (0x428,0,0x80140100),(0x460,0,0x80000000)]
def diRun : State := dig.modDi 0 fun x => { x with filterFrom := 10, countLevel := some true, countFrom := 10 }
def m7 : State := dig.modDi 0 fun x => { x with wireBreak := true}
def d1 : State := dig.modDoGroup 2 fun g => { g with below := 1 }
def d2 : State := dig.modDoGroup 2 fun g => { g with sag := true }
def extD : State := let q := cfgd dig [(0x600,0,0x80000000), (0x460, 34, 1)]; {q with pair := {q.pair with state := .sync}}
def m8 : State := dig.modDoGroup 2 fun g => { g with overcurrent := true}
def dn := (dig.modDo 5 fun x => {x with driven := true, onSince := some 5, overload := true})
def dol := cfgd dn [(0x465,0,0xFC000000)]
def m9 : State := dol.modDo 5 fun x => { x with openLoad := true}
def m10 : State := dig.modDo 5 fun x => { x with short := true}
def oa := cm outputAckDesc [1,0x80]
def prD : State := let q := cfgd dig [(0x600,0,0x80000000)]; {q with pair := {q.pair with state := .active, cable := true, lane0 := true}}
def fa := cm fireArmDesc (wordBe dig.stagedCrc)
def armed : Arm := { token := 7, crc := dig.stagedCrc, origin := 0x8000, keyslot := 0, at_ := 4000000000 }
def ar : State := { dig with fire := { dig.fire with arm := some armed } }
def fc := cm fireConfirmDesc (wordBe dig.stagedCrc ++ [0,7,0,0])
def w23 : State := {ar with service := .sideStreet}
def w24 : State := {ar with now := 900000000000}
def w25 : State := {dig with fire := {dig.fire with inbox := [.di 0 true false false false]}}
def w26 : State := {dig with pair := {dig.pair with holdUntil := some 5}}
def sideS : State := { im with service := .sideStreet }
def freshS : State := { sideS with power := { sideS.power with refreshedAt := some sideS.now } }
def heldS : State := { im with pair := { im.pair with holdUntil := some 5 }, dos := [(0, ({ held := true } : Do))] }
def fload := cm fireLoadDesc (List.replicate 768 0)
def floadBad := cm fireLoadDesc (List.replicate 768 255)
def tripped : State := { im with mram := { im.mram with fire := [(96, 0x90000000), (97, 1), (98, 1), (144, 0x10000000)] }, fire := { im.fire with fns := [(0, ({ tripped := true } : FireFn))] } }
def frameTrip : State := { tripped with mram := { tripped.mram with fire := [(96, 0x90000000), (97, 1), (98, 1), (144, 0x30010064)] } }
def lateTrip : State := { tripped with dos := [(0, ({ driven := true } : Do))] }
def tc := cm totalCloseDesc [5,0,0,0]
def pairT : State := let q := cfgd im [(0x600,0,0x80000000)]; {q with pair := {q.pair with state := .active, cable := true, lane0 := true, lane1 := true}}
def ti : State := (cfgd im [(0x700,0,0x80000000), (0x700,1,3),(0x701,0,0xC0000101), (0x400,0,0x01000000)]).setUc 0 {(default : Uc) with state := .run, valueAt := some 5, value := 77}
def metered : State := { ti with square := { ti.square with boundaryNo := ti.now / 10000 } }
def pulseT : State := cfgd im [(0x700,0,0x40000000)]
def pulseLost : State := pulseT.setDiGroup 0 { (pulseT.diGroup 0) with lost := true }
def w27 : State := {im with service := .sideStreet}
def lk : State := { im with locks := [{ (default : PageLock) with array := 1, page := 3 }] }
def bk : State := im.modArr 2 fun x => {x with bucket := 3, leakFrom := 5, sealed_ := true}
def psw : State := {im with panel := {im.panel with state := .on, swapDue := true}}
def pswOff : State := psw.modIsland 19 fun i => { i with state := .restarting }
def pcr : State := { im with panel := { im.panel with state := .on, dark := false, shownCrc := ~~~(crc32c (frameBytes im.panel.shown)) } }
def pdn : State := { im with panel := { im.panel with state := .on, darkNext := true } }
theorem ne_compl (x : Word) : x ≠ ~~~x := fun h => by have := congrArg (fun y => y.getLsbD 0) h; simp at this
def w28 : State := {im with panel := {im.panel with state := .off}}
def w29 : State := {im with panel := {im.panel with state := .poweringDown}}
def w30 : State := {im with panel := {im.panel with state := .poweringUp, wantOn := true, scanned := true}}
def w31 : State := {im with panel := {im.panel with state := .poweringDown, onPending := true, framesDown := 3}}
def w32 : State := {im with panel := {im.panel with state := .on, onPending := true}}
def w33 : State := {im with panel := {im.panel with state := .supplyFault, wantOn := true}}
def pu := cm plateUpdateDesc [0,0,0,0,0,7,0,0]
def pst (x : PlateStep) : State := {im with plate := {im.plate with step := x, target := 5}}
def pstLater : State := { cfgd (pst .invalidDark) [(0xB20, 0, 0x4000000A)] with plate := { (pst .invalidDark).plate with stepAt := im.now } }
def pstNext : State := let s := pst .data; { s with plate := { s.plate with pending := true }, mram := { s.mram with plateTorn := true } }
def fwb : State := { im with sup := { im.sup with fwBytes := some 10 } }
def en := {cm enumerateDesc [3,5,0,0] with port := .ringA, target := 0xFFFF}
def un : State := {im with ring := {im.ring with ports := [(0,{link := true}),(1,{link := true})]}, mram := {im.mram with addressed := false, candidateValid := true, candidate := 77}}
def cfa := {pk opConfirm (toBe 8 0) with flags := 8}
def rg : State := {un with mram := {un.mram with addressed := true}, ring := {un.ring with announceAt := some 5, provisional := some 5, duplicateAt := some 5}}
def rgDue : State := { rg with ring := { rg.ring with announceAt := some 4000000000 } }
def rgEarly : State := { rg with ring := { rg.ring with announceAt := some 4000000001 } }
def rgBack : State := { rg with ring := { rg.ring with announceAt := some 5000000001 } }
def w34 : State := {rg with now := 900000000000}
def rq : Raised := { rec_ := im.mkRecord 8 .wireBreak 5 none none, stamped := true, noteFor := none, closeFor := none, arrived := 5000000000 }
def rq17 : Raised := { rq with rec_ := { rq.rec_ with source := 17 } }
def rr : State := { im with raised := [rq, rq17] }
def rrFull : State := { rr with recQueue := List.replicate 64 rq }
def bkEarly : State := { bk with now := 0 }
def bkLate : State := { bk with now := 900000000000000 }
def fetchLk : State := let s := about (.nop 0) X; { s with locks := [{ (default : PageLock) with array := 0, page := 0 }] }
def rw1 : State := { im with recQueue := [rq] }
def rw2 : State := { rw1 with mram := { rw1.mram with records := [(3, rq.rec_)], newest := 3, latest := Tab.put rw1.mram.latest rq.rec_.source.toNat 3 } }
def note := cm recNoteDesc ([0x80,1,1,0] ++ toBe 4 9)
def psh : Packet := cm panelShowDesc (wordBe (crc32c (frameBytes im.panel.hidden)))
def rep : Reply := { ctx := { (default : Ctx) with port := .svc, origin := 0x8000, tag := 1, seq := 1 }, status := 0, cycle := 7, body := [1,2,3], sent := 0, counts := false }
def rs : State := { im with sup := { im.sup with replies := [rep] } }
def prt : Partial := { ctx := rep.ctx, packets := 1, payload := [], firstAt := 5 }
def w35 : State := {im with sup := {im.sup with partials := [prt]}}
def wn : Window := { origin := 0x8000, size := 16, used := 0, idleClose := 1, lastAt := 5, heldUntil := some 7 }
def ws : State := {im with sup := {im.sup with windows := [wn]}}
def cf : CrossingFault := { sender := 10, receiver := 16, discrepancy := 2, senderFaulty := true, receiverFaulty := false }
def audited : State := { im with auditAt := im.now }
def refL : State := { im with power := { im.power with refLost := true } }
def ir : State := im.modIsland 14 fun i => {i with state := .restarting}
def dt : State := im.modDomain 6 fun d => {d with state := .transition}
def dtSide : State := sideS.modDomain 9 fun d => {d with state := .transition}
def cfull : State := im.setCrossing (crossingId 5 0) { waiting := [], queued := [{ cls := 2, slots := 14, since := 5, cargo := .other }], returning := 0 }
def cs : State := {im with square := {im.square with phase := .idle, startAt := 4000000000, current := 8}}
def fz : State := { im with square := { im.square with phase := .started, startAt := 4000000000 } }
def fzHeld : State := { fz with locks := [{ (default : PageLock) with array := 2, page := (sqI + 65536) / 512 }] }
def exd : State := { im with square := { im.square with phase := .execute } }
def wd : State := { exd with engines := [(0, ({ running := true } : Engine))] }
def prb : State := let q := cfgd im [(0x600,0,0xC0000000)]; {q with pair := {q.pair with state := .active, cable := true, lane0 := true, lane1 := true}}
def syn : State := {prb with pair := {prb.pair with state := .sync}}
def hb : Heartbeat := { address := 5, sideB := true, state := 2, epoch := 0, claim := true, lastCycle := 7, fwMajor := 4 }
def hbNow : State := { prb with pair := { prb.pair with hbSent := some hb, hbGenAt := prb.now } }
def prbRing : State := { prb with ring := { prb.ring with ports := [(0,{link := true}),(1,{link := true})] } }
def cutS : State := { prb with pair := { prb.pair with claimPartner := true, cableFellAt := some prb.now } }
def offS : State := { prb with pair := { prb.pair with claimOff := some 5 } }
def hb131 : Heartbeat := { hb with target := 131 }
def clm : State := {prb with pair := {prb.pair with claimOwn := true, drivers := true, ownRoseAt := 5}}
def syn2 : State := {syn with pair := {syn.pair with claimPartner := true}}
def relS : State := {syn with pair := {syn.pair with releaseAt := some 5}}
def relN : State := {syn with pair := {syn.pair with releaseAt := some 4999991000}}
def synSnap : State := {syn with pair := {syn.pair with snapshot := true}}
def synRing : State := { syn with ring := prbRing.ring }
def tie : State := {clm with mram := {clm.mram with sideB := true}, pair := {clm.pair with claimPartner := true, partnerEdgeAt := 5}}
def lg : Ledger := { (default : Ledger) with cycle := 8 }
def dsc : State := {prb with pair := {prb.pair with state := .stale}}
def dscRing : State := { dsc with ring := prbRing.ring }
def rsy : State := {prb with pair := {prb.pair with state := .syncing, snapshot := true, applied := 10000}}
def rsn : State := {prb with pair := {prb.pair with state := .syncing}}
def snp : Snapshot := { (default : Snapshot) with cycle := 44, fwMajor := 4 }
def rh : Rehearsal := { handover := 1, dwell := some 2, handBack := true, incoming := true, took := true, passed := [], failed := [] }
def rhs : State := {prb with pair := {prb.pair with rehearsal := some rh}}
def rng : State := {im with ring := {im.ring with ports := [(0,{link := true}),(1,{link := true})], lastSync := some 5, time := .locked}}
def fr : HsrFrame := { source := 5, dest := groupCommand, seq := 7, etherType := etCommand, payload := [] }
def fr2 : HsrFrame := { fr with dest := groupStation, etherType := etStation, payload := [9, 1] }
def rngLate : State := { rng with ring := { rng.ring with supervisionAt := some (rng.now - 1999999999) } }
def rngDue : State := { rng with ring := { rng.ring with supervisionAt := some (rng.now - 2000000000) } }
def rngBack : State := { rng with ring := { rng.ring with supervisionAt := some (rng.now + 1) } }
def rngNew : State := { rng with mram := { rng.mram with time := rng.now } }
def tf : TripFrame := { address := 7, serial := 99, code := 1, tripped := true, tripNs := 5, states := 3 }
def off : State := {State.reset with mram := {im.mram with time := 77}}
def ssf : State := {im with service := .sideStreet}
def hux : State := {im with power := {im.power with warning := some 5}, square := {im.square with phase := .execute}}
def huc : State := {im with power := {im.power with warning := some 5}, square := {im.square with finalDone := true}}
def rsc := cm resyncDesc []
def fr0 : HsrFrame := { fr with source := 0 }
def rst := cm restartDesc [1,0,0,0]
theorem payload_psh : im.payloadOf psh panelShowDesc = wordBe (crc32c (frameBytes im.panel.hidden)) ++ [] := rfl
theorem payload_fa : dig.payloadOf fa fireArmDesc = wordBe dig.stagedCrc ++ [] := rfl
theorem payload_fc : ar.payloadOf fc fireConfirmDesc = wordBe dig.stagedCrc ++ [0, 7, 0, 0] := rfl
theorem payload_fc_side : w23.payloadOf fc fireConfirmDesc = wordBe dig.stagedCrc ++ [0, 7, 0, 0] := rfl

/-! ### `Obligations.PacketsTurnedAway`: states and operands that meet its hypotheses, clause by clause -/

theorem witness_PacketsTurnedAway_1 :
    im.supAnswers = true ∧ im.portDown w1.port = false ∧ w1.formatOk = false :=
  ⟨by decide, by decide, by decide⟩
theorem witness_PacketsTurnedAway_2 :
    im.supAnswers = true ∧ im.portDown w2.port = false ∧ w2.formatOk = true ∧ im.selected w2 = false :=
  ⟨by decide, by decide, by decide, by decide⟩
theorem witness_PacketsTurnedAway_3 :
    imr.supAnswers = true ∧ imr.portDown w3.port = false ∧ w3.formatOk = true ∧ imr.selected w3 = true ∧ w3.lengthOk = true ∧
    imr.authorise w3 = none :=
  ⟨by decide, by decide, by decide, by decide, by decide, by decide⟩
theorem witness_PacketsTurnedAway_4 :
    packetRow w1 = some getStatusDesc ∧ (im.accept w1 getStatusDesc true).2 = none :=
  ⟨rfl, by decide⟩
theorem witness_PacketsTurnedAway_5 : packetRow bad = none ∧ im.supAnswers = true ∧ im.portDown bad.port = false ∧ bad.formatOk = true ∧
    im.selected bad = true ∧ bad.lengthOk = true ∧ bad.opcode ≠ opEnumerate ∧ im.authorise bad = some 15 ∧
    (im.replayOf bad.origin bad.slot).admits bad.seq = true ∧
    (im.acceptSeq bad).collect bad { bad.ctx 2 15 with gen := im.sup.gen } = (badNext, some badReq) :=
  ⟨rfl, by decide, by decide, by decide, by decide, by decide, by decide, by decide, by decide, rfl⟩
theorem witness_PacketsTurnedAway_6 : w1.opcode = getStatusDesc.code ∧ (im.accept w1 getStatusDesc true).2 = none := ⟨rfl, rfl⟩

/-! ### `Obligations.ReplayWindow`: states and operands that meet its hypotheses, clause by clause -/

theorem witness_ReplayWindow_1 :
    s7.supAnswers = true ∧ s7.portDown w4.port = false ∧ w4.formatOk = true ∧ s7.selected w4 = true ∧ w4.lengthOk = true ∧ s7.authorise w4 = some 15 ∧
    getStatusDesc.code ≠ opEnumerate ∧ (s7.replayOf w4.origin w4.slot).admits w4.seq = false :=
  ⟨by decide, by decide, by decide, by decide, by decide, by decide, by decide, by decide⟩
theorem witness_ReplayWindow_2 :
    repl.admits 101 = true :=
  by decide
theorem witness_ReplayWindow_3 :
    36 + 63 < repl.h.toNat :=
  by decide

/-! ### `Obligations.ArithmeticSaturates`: states and operands that meet its hypotheses, clause by clause -/

theorem witness_ArithmeticSaturates_1 :
    (about (Instr.add 0) X).fallsThrough (Instr.add 0) = true :=
  by decide
theorem witness_ArithmeticSaturates_2 :
    (about (Instr.sub 0) w5).fallsThrough (Instr.sub 0) = true :=
  by decide
theorem witness_ArithmeticSaturates_3 :
    (about (Instr.mul 0) w5).fallsThrough (Instr.mul 0) = true :=
  by decide
theorem witness_ArithmeticSaturates_4 :
    (about (Instr.neg 0) w5).fallsThrough (Instr.neg 0) = true :=
  by decide
theorem witness_ArithmeticSaturates_5 :
    (about (Instr.div 0) w6).fallsThrough (Instr.div 0) = true :=
  by decide
theorem witness_ArithmeticSaturates_6 :
    (about (Instr.div 0) w7).fallsThrough (Instr.div 0) = true :=
  by decide
theorem witness_ArithmeticSaturates_7 :
    (about (Instr.rem 0) w8).fallsThrough (Instr.rem 0) = true :=
  by decide
theorem witness_ArithmeticSaturates_8 :
    (about (Instr.rem 0) w7).fallsThrough (Instr.rem 0) = true :=
  by decide

/-! ### `Obligations.ComparisonResult`: states and operands that meet its hypotheses, clause by clause -/

theorem witness_ComparisonResult_1 :
    (about (Instr.eq_ 0) X).fallsThrough (Instr.eq_ 0) = true :=
  by decide
theorem witness_ComparisonResult_2 :
    (about (Instr.ne_ 0) X).fallsThrough (Instr.ne_ 0) = true :=
  by decide
theorem witness_ComparisonResult_3 :
    (about (Instr.gt_ 0) w9).fallsThrough (Instr.gt_ 0) = true :=
  by decide
theorem witness_ComparisonResult_4 :
    (about (Instr.ge_ 0) X).fallsThrough (Instr.ge_ 0) = true :=
  by decide
theorem witness_ComparisonResult_5 :
    (about (Instr.lt_ 0) X).fallsThrough (Instr.lt_ 0) = true :=
  by decide
theorem witness_ComparisonResult_6 :
    (about (Instr.le_ 0) X).fallsThrough (Instr.le_ 0) = true :=
  by decide

/-! ### `Obligations.BitLogicResult`: states and operands that meet its hypotheses, clause by clause -/

theorem witness_BitLogicResult_1 :
    (about (Instr.ld 0 qo) X).readBit 0 qo = some (false, false) ∧ (about (Instr.ld 0 qo) X).fallsThrough (Instr.ld 0 qo) = true :=
  ⟨by decide, by decide⟩
theorem witness_BitLogicResult_2 :
    (about (Instr.ldn 0 do_) X).readBit 0 do_ = some (false, false) ∧ (about (Instr.ldn 0 do_) X).fallsThrough (Instr.ldn 0 do_) = true :=
  ⟨by decide, by decide⟩
theorem witness_BitLogicResult_3 :
    (about (Instr.and_ 0 do_) X).readBit 0 do_ = some (false, false) ∧ (about (Instr.and_ 0 do_) X).fallsThrough (Instr.and_ 0 do_) = true :=
  ⟨by decide, by decide⟩
theorem witness_BitLogicResult_4 :
    (about (Instr.andn 0 do_) w9).readBit 0 do_ = some (false, false) ∧ (about (Instr.andn 0 do_) w9).fallsThrough (Instr.andn 0 do_) = true :=
  ⟨by decide, by decide⟩
theorem witness_BitLogicResult_5 :
    (about (Instr.or_ 0 do_) w9).readBit 0 do_ = some (false, false) ∧ (about (Instr.or_ 0 do_) w9).fallsThrough (Instr.or_ 0 do_) = true :=
  ⟨by decide, by decide⟩
theorem witness_BitLogicResult_6 :
    (about (Instr.orn 0 do_) w9).readBit 0 do_ = some (false, false) ∧ (about (Instr.orn 0 do_) w9).fallsThrough (Instr.orn 0 do_) = true :=
  ⟨by decide, by decide⟩
theorem witness_BitLogicResult_7 :
    (about (Instr.xor_ 0 do_) w9).readBit 0 do_ = some (false, false) ∧ (about (Instr.xor_ 0 do_) w9).fallsThrough (Instr.xor_ 0 do_) = true :=
  ⟨by decide, by decide⟩
theorem witness_BitLogicResult_8 :
    (about (Instr.xorn 0 do_) w9).readBit 0 do_ = some (false, false) ∧ (about (Instr.xorn 0 do_) w9).fallsThrough (Instr.xorn 0 do_) = true :=
  ⟨by decide, by decide⟩
theorem witness_BitLogicResult_9 :
    (about (Instr.nop 0) X).fallsThrough (Instr.nop 0) = true :=
  by decide
theorem witness_BitLogicResult_10 :
    (about (Instr.inv 0) X).fallsThrough (Instr.inv 0) = true :=
  by decide
theorem witness_BitLogicResult_11 :
    (about (Instr.cbset 0) X).fallsThrough (Instr.cbset 0) = true :=
  by decide
theorem witness_BitLogicResult_12 :
    (about (Instr.cbclr 0) X).fallsThrough (Instr.cbclr 0) = true :=
  by decide

/-! ### `Obligations.BitStoreResult`: states and operands that meet its hypotheses, clause by clause -/

theorem witness_BitStoreResult_1 :
    (about (Instr.out 0 qo) X).bitLands 0 qo 0 ∧ (about (Instr.out 0 qo) X).fallsThrough (Instr.out 0 qo) = true :=
  ⟨by unfold State.bitLands; decide, by decide⟩
theorem witness_BitStoreResult_2 :
    (about (Instr.setb 0 do_) X).bitLands 0 do_ (4096 + 128 + 12) ∧ (about (Instr.setb 0 do_) X).fallsThrough (Instr.setb 0 do_) = true ∧
    ((about (Instr.setb 0 do_) X).engine 0).cbP = false :=
  ⟨by unfold State.bitLands; decide, by decide, by decide⟩
theorem witness_BitStoreResult_3 :
    (about (Instr.clrb 0 qo) X).bitLands 0 qo 0 ∧ (about (Instr.clrb 0 qo) X).fallsThrough (Instr.clrb 0 qo) = true ∧
    ((about (Instr.clrb 0 qo) X).engine 0).cbP = false :=
  ⟨by unfold State.bitLands; decide, by decide, by decide⟩
theorem witness_BitStoreResult_4 :
    (about (Instr.out 0 ib3) X).fallsThrough (Instr.out 0 ib3) = true ∧
    (mayWriteBit ib3.area (Operand.place ib3).1 && ((about (Instr.out 0 ib3) X).wordAddr View.work ib3.area (Operand.place ib3).1).isSome) = false :=
  ⟨by decide, by decide⟩
theorem witness_BitStoreResult_5 :
    forcedS.fallsThrough (Instr.out 0 qo) = true ∧
    (mayWriteBit qo.area (Operand.place qo).1 && (forcedS.wordAddr View.work qo.area (Operand.place qo).1).isSome) = true ∧
    (forcedS.forceOn qo.area (Operand.place qo).1).isSome = true :=
  ⟨by decide, by decide, by decide⟩
theorem witness_BitStoreResult_6 :
    (about (Instr.out 0 qb1024) X).fallsThrough (Instr.out 0 qb1024) = true ∧
    (mayWriteBit qb1024.area (Operand.place qb1024).1 && ((about (Instr.out 0 qb1024) X).wordAddr View.work qb1024.area (Operand.place qb1024).1).isSome) = true ∧
    (about (Instr.out 0 qb1024) X).forceOn qb1024.area (Operand.place qb1024).1 = none ∧
    (about (Instr.out 0 qb1024) X).owner qb1024.area (Operand.place qb1024).1 ≠ some 0 :=
  ⟨by decide, by decide, by decide, by decide⟩

/-! ### `Obligations.BracketResult`: states and operands that meet its hypotheses, clause by clause -/

theorem witness_BracketResult_1 :
    ((about (Instr.andOpen 0) X).engine 0).nest.length < 16 ∧ (about (Instr.andOpen 0) X).fallsThrough (Instr.andOpen 0) = true :=
  ⟨by decide, by decide⟩
theorem witness_BracketResult_2 :
    ((about (Instr.andnOpen 0) w9).engine 0).nest.length < 16 ∧ (about (Instr.andnOpen 0) w9).fallsThrough (Instr.andnOpen 0) = true :=
  ⟨by decide, by decide⟩
theorem witness_BracketResult_3 :
    ((about (Instr.orOpen 0) w9).engine 0).nest.length < 16 ∧ (about (Instr.orOpen 0) w9).fallsThrough (Instr.orOpen 0) = true :=
  ⟨by decide, by decide⟩
theorem witness_BracketResult_4 :
    ((about (Instr.ornOpen 0) w9).engine 0).nest.length < 16 ∧ (about (Instr.ornOpen 0) w9).fallsThrough (Instr.ornOpen 0) = true :=
  ⟨by decide, by decide⟩
theorem witness_BracketResult_5 :
    ((about (Instr.xorOpen 0) w9).engine 0).nest.length < 16 ∧ (about (Instr.xorOpen 0) w9).fallsThrough (Instr.xorOpen 0) = true :=
  ⟨by decide, by decide⟩
theorem witness_BracketResult_6 :
    ((about (Instr.xornOpen 0) w9).engine 0).nest.length < 16 ∧ (about (Instr.xornOpen 0) w9).fallsThrough (Instr.xornOpen 0) = true :=
  ⟨by decide, by decide⟩
theorem witness_BracketResult_7 :
    ((about (Instr.closeBracket 0) w10).engine 0).nest = [{ cb := true, cbP := true, op := NestOp.xorn }] ∧
    (about (Instr.closeBracket 0) w10).fallsThrough (Instr.closeBracket 0) = true :=
  ⟨by decide, by decide⟩
theorem witness_BracketResult_8 :
    16 ≤ ((about (Instr.andOpen 0) w19).engine 0).nest.length ∧ (about (Instr.andOpen 0) w19).fallsThrough (Instr.andOpen 0) = true :=
  ⟨by decide, by decide⟩
theorem witness_BracketResult_9 :
    ((about (Instr.closeBracket 0) X).engine 0).nest = [] ∧ (about (Instr.closeBracket 0) X).fallsThrough (Instr.closeBracket 0) = true :=
  ⟨by decide, by decide⟩

/-! ### `Obligations.EdgeResult`: states and operands that meet its hypotheses, clause by clause -/

theorem witness_EdgeResult_1 :
    (about (Instr.andr 0 ed) X).readBit 0 ed.op = some (false, false) ∧
    (about (Instr.andr 0 ed) X).readBit 0 { area := Area.E, offset := ed.edge, bit := 0 } = some (false, false) ∧
    (about (Instr.andr 0 ed) X).wordAddr View.work Area.E (ed.edge.toNat / 32) = some (sqE + 4) ∧
    (about (Instr.andr 0 ed) X).forceOn Area.E (ed.edge.toNat / 32) = none ∧ (about (Instr.andr 0 ed) X).owner Area.E (ed.edge.toNat / 32) = some 0 ∧
    (about (Instr.andr 0 ed) X).fallsThrough (Instr.andr 0 ed) = true :=
  ⟨by decide, by decide, by decide, by decide, by decide, by decide⟩
theorem witness_EdgeResult_2 :
    (about (Instr.andf 0 ed) X).readBit 0 ed.op = some (false, false) ∧
    (about (Instr.andf 0 ed) X).readBit 0 { area := Area.E, offset := ed.edge, bit := 0 } = some (false, false) ∧
    (about (Instr.andf 0 ed) X).wordAddr View.work Area.E (ed.edge.toNat / 32) = some (sqE + 4) ∧
    (about (Instr.andf 0 ed) X).forceOn Area.E (ed.edge.toNat / 32) = none ∧ (about (Instr.andf 0 ed) X).owner Area.E (ed.edge.toNat / 32) = some 0 ∧
    (about (Instr.andf 0 ed) X).fallsThrough (Instr.andf 0 ed) = true :=
  ⟨by decide, by decide, by decide, by decide, by decide, by decide⟩
theorem witness_EdgeResult_3 :
    (about (Instr.orr 0 ed) X).readBit 0 ed.op = some (false, false) ∧
    (about (Instr.orr 0 ed) X).readBit 0 { area := Area.E, offset := ed.edge, bit := 0 } = some (false, false) ∧
    (about (Instr.orr 0 ed) X).wordAddr View.work Area.E (ed.edge.toNat / 32) = some (sqE + 4) ∧
    (about (Instr.orr 0 ed) X).forceOn Area.E (ed.edge.toNat / 32) = none ∧ (about (Instr.orr 0 ed) X).owner Area.E (ed.edge.toNat / 32) = some 0 ∧
    (about (Instr.orr 0 ed) X).fallsThrough (Instr.orr 0 ed) = true :=
  ⟨by decide, by decide, by decide, by decide, by decide, by decide⟩
theorem witness_EdgeResult_4 :
    (about (Instr.orf 0 ed) X).readBit 0 ed.op = some (false, false) ∧
    (about (Instr.orf 0 ed) X).readBit 0 { area := Area.E, offset := ed.edge, bit := 0 } = some (false, false) ∧
    (about (Instr.orf 0 ed) X).wordAddr View.work Area.E (ed.edge.toNat / 32) = some (sqE + 4) ∧
    (about (Instr.orf 0 ed) X).forceOn Area.E (ed.edge.toNat / 32) = none ∧ (about (Instr.orf 0 ed) X).owner Area.E (ed.edge.toNat / 32) = some 0 ∧
    (about (Instr.orf 0 ed) X).fallsThrough (Instr.orf 0 ed) = true :=
  ⟨by decide, by decide, by decide, by decide, by decide, by decide⟩

/-! ### `Obligations.TimerResult`: states and operands that meet its hypotheses, clause by clause -/

theorem witness_TimerResult_1 :
    3 < 4096 ∧ (wt (Instr.ton 0 (tm true)) X { lastInput := true }).forceOn Area.T (4 * 3) = none ∧
    (wt (Instr.ton 0 (tm true)) X { lastInput := true }).owner Area.T (4 * 3) = some 0 ∧
    ((wt (Instr.ton 0 (tm true)) X { lastInput := true }).engine 0).cbP = false ∧ (tm true).timer.toNat = 3 ∧
    ((tm true).presetWa = true → ((wt (Instr.ton 0 (tm true)) X { lastInput := true }).engine 0).waP = false) ∧
    (wt (Instr.ton 0 (tm true)) X { lastInput := true }).fallsThrough (Instr.ton 0 (tm true)) = true :=
  ⟨by decide, by decide, by decide, by decide, by decide, by decide, by decide⟩
theorem witness_TimerResult_2 :
    3 < 4096 ∧ (wt (Instr.ton 0 (tm true)) w11 { lastInput := true }).forceOn Area.T (4 * 3) = none ∧
    (wt (Instr.ton 0 (tm true)) w11 { lastInput := true }).owner Area.T (4 * 3) = some 0 ∧
    ((wt (Instr.ton 0 (tm true)) w11 { lastInput := true }).engine 0).cbP = false ∧ (tm true).timer.toNat = 3 ∧
    ((tm true).presetWa = true → ((wt (Instr.ton 0 (tm true)) w11 { lastInput := true }).engine 0).waP = false) ∧
    (wt (Instr.ton 0 (tm true)) w11 { lastInput := true }).fallsThrough (Instr.ton 0 (tm true)) = true :=
  ⟨by decide, by decide, by decide, by decide, by decide, by decide, by decide⟩
theorem witness_TimerResult_3 :
    3 < 4096 ∧ (wt (Instr.tof 0 (tm false)) w11 { lastInput := true }).forceOn Area.T (4 * 3) = none ∧
    (wt (Instr.tof 0 (tm false)) w11 { lastInput := true }).owner Area.T (4 * 3) = some 0 ∧
    ((wt (Instr.tof 0 (tm false)) w11 { lastInput := true }).engine 0).cbP = false ∧ (tm false).timer.toNat = 3 ∧
    ((tm false).presetWa = true → ((wt (Instr.tof 0 (tm false)) w11 { lastInput := true }).engine 0).waP = false) ∧
    (wt (Instr.tof 0 (tm false)) w11 { lastInput := true }).fallsThrough (Instr.tof 0 (tm false)) = true :=
  ⟨by decide, by decide, by decide, by decide, by decide, by decide, by decide⟩
theorem witness_TimerResult_4 :
    3 < 4096 ∧ (wt (Instr.tof 0 (tm false)) w11 { running := true, start := -20000000 }).forceOn Area.T (4 * 3) = none ∧
    (wt (Instr.tof 0 (tm false)) w11 { running := true, start := -20000000 }).owner Area.T (4 * 3) = some 0 ∧
    ((wt (Instr.tof 0 (tm false)) w11 { running := true, start := -20000000 }).engine 0).cbP = false ∧ (tm false).timer.toNat = 3 ∧
    ((tm false).presetWa = true → ((wt (Instr.tof 0 (tm false)) w11 { running := true, start := -20000000 }).engine 0).waP = false) ∧
    (wt (Instr.tof 0 (tm false)) w11 { running := true, start := -20000000 }).fallsThrough (Instr.tof 0 (tm false)) = true :=
  ⟨by decide, by decide, by decide, by decide, by decide, by decide, by decide⟩
theorem witness_TimerResult_5 :
    3 < 4096 ∧ (wt (Instr.tof 0 (tm false)) w12 { running := true, start := -20000000 }).forceOn Area.T (4 * 3) = none ∧
    (wt (Instr.tof 0 (tm false)) w12 { running := true, start := -20000000 }).owner Area.T (4 * 3) = some 0 ∧
    ((wt (Instr.tof 0 (tm false)) w12 { running := true, start := -20000000 }).engine 0).cbP = false ∧ (tm false).timer.toNat = 3 ∧
    ((tm false).presetWa = true → ((wt (Instr.tof 0 (tm false)) w12 { running := true, start := -20000000 }).engine 0).waP = false) ∧
    (wt (Instr.tof 0 (tm false)) w12 { running := true, start := -20000000 }).fallsThrough (Instr.tof 0 (tm false)) = true :=
  ⟨by decide, by decide, by decide, by decide, by decide, by decide, by decide⟩
theorem witness_TimerResult_6 :
    3 < 4096 ∧ (wt (Instr.tp 0 (tm false)) X { }).forceOn Area.T (4 * 3) = none ∧ (wt (Instr.tp 0 (tm false)) X { }).owner Area.T (4 * 3) = some 0 ∧
    ((wt (Instr.tp 0 (tm false)) X { }).engine 0).cbP = false ∧ (tm false).timer.toNat = 3 ∧
    ((tm false).presetWa = true → ((wt (Instr.tp 0 (tm false)) X { }).engine 0).waP = false) ∧
    (wt (Instr.tp 0 (tm false)) X { }).fallsThrough (Instr.tp 0 (tm false)) = true :=
  ⟨by decide, by decide, by decide, by decide, by decide, by decide, by decide⟩
theorem witness_TimerResult_7 :
    3 < 4096 ∧ (wt (Instr.tp 0 (tm false)) X { running := true, start := -20000000 }).forceOn Area.T (4 * 3) = none ∧
    (wt (Instr.tp 0 (tm false)) X { running := true, start := -20000000 }).owner Area.T (4 * 3) = some 0 ∧
    ((wt (Instr.tp 0 (tm false)) X { running := true, start := -20000000 }).engine 0).cbP = false ∧ (tm false).timer.toNat = 3 ∧
    ((tm false).presetWa = true → ((wt (Instr.tp 0 (tm false)) X { running := true, start := -20000000 }).engine 0).waP = false) ∧
    (wt (Instr.tp 0 (tm false)) X { running := true, start := -20000000 }).fallsThrough (Instr.tp 0 (tm false)) = true :=
  ⟨by decide, by decide, by decide, by decide, by decide, by decide, by decide⟩
theorem witness_TimerResult_8 :
    3 < 4096 ∧ (wt (Instr.tclr 0 3) X { lastInput := true }).forceOn Area.T (4 * 3) = none ∧
    (wt (Instr.tclr 0 3) X { lastInput := true }).owner Area.T (4 * 3) = some 0 ∧
    ((wt (Instr.tclr 0 3) X { lastInput := true }).engine 0).cbP = false ∧ 3 = 3 ∧
    (wt (Instr.tclr 0 3) X { lastInput := true }).fallsThrough (Instr.tclr 0 3) = true :=
  ⟨by decide, by decide, by decide, by decide, by decide, by decide⟩

/-! ### `Obligations.CounterResult`: states and operands that meet its hypotheses, clause by clause -/

theorem witness_CounterResult_1 :
    3 < 4096 ∧ (wc (Instr.cup 0 3) X { value := 2147483647 }).forceOn Area.C (2 * 3) = none ∧
    (wc (Instr.cup 0 3) X { value := 2147483647 }).owner Area.C (2 * 3) = some 0 ∧
    ((wc (Instr.cup 0 3) X { value := 2147483647 }).engine 0).cbP = false ∧
    (wc (Instr.cup 0 3) X { value := 2147483647 }).fallsThrough (Instr.cup 0 3) = true :=
  ⟨by decide, by decide, by decide, by decide, by decide⟩
theorem witness_CounterResult_2 :
    3 < 4096 ∧ (wc (Instr.cup 0 3) X { value := 2147483646 }).forceOn Area.C (2 * 3) = none ∧
    (wc (Instr.cup 0 3) X { value := 2147483646 }).owner Area.C (2 * 3) = some 0 ∧
    ((wc (Instr.cup 0 3) X { value := 2147483646 }).engine 0).cbP = false ∧
    (wc (Instr.cup 0 3) X { value := 2147483646 }).fallsThrough (Instr.cup 0 3) = true :=
  ⟨by decide, by decide, by decide, by decide, by decide⟩
theorem witness_CounterResult_3 :
    3 < 4096 ∧ (wc (Instr.cdn 0 3) X { value := 2147483648 }).forceOn Area.C (2 * 3) = none ∧
    (wc (Instr.cdn 0 3) X { value := 2147483648 }).owner Area.C (2 * 3) = some 0 ∧
    ((wc (Instr.cdn 0 3) X { value := 2147483648 }).engine 0).cbP = false ∧
    (wc (Instr.cdn 0 3) X { value := 2147483648 }).fallsThrough (Instr.cdn 0 3) = true :=
  ⟨by decide, by decide, by decide, by decide, by decide⟩
theorem witness_CounterResult_4 :
    3 < 4096 ∧ (wc (Instr.cld 0 3) X { value := 2147483647 }).forceOn Area.C (2 * 3) = none ∧
    (wc (Instr.cld 0 3) X { value := 2147483647 }).owner Area.C (2 * 3) = some 0 ∧
    ((wc (Instr.cld 0 3) X { value := 2147483647 }).engine 0).cbP = false ∧
    (wc (Instr.cld 0 3) X { value := 2147483647 }).fallsThrough (Instr.cld 0 3) = true ∧
    (((wc (Instr.cld 0 3) X { value := 2147483647 }).engine 0).cb = true → ((wc (Instr.cld 0 3) X { value := 2147483647 }).engine 0).waP = false) :=
  ⟨by decide, by decide, by decide, by decide, by decide, by decide⟩
theorem witness_CounterResult_5 :
    3 < 4096 ∧ (wc (Instr.cclr 0 3) X { value := 2147483647 }).forceOn Area.C (2 * 3) = none ∧
    (wc (Instr.cclr 0 3) X { value := 2147483647 }).owner Area.C (2 * 3) = some 0 ∧
    ((wc (Instr.cclr 0 3) X { value := 2147483647 }).engine 0).cbP = false ∧
    (wc (Instr.cclr 0 3) X { value := 2147483647 }).fallsThrough (Instr.cclr 0 3) = true :=
  ⟨by decide, by decide, by decide, by decide, by decide⟩

/-! ### `Obligations.WordAccessResult`: states and operands that meet its hypotheses, clause by clause -/

theorem witness_WordAccessResult_1 :
    (about (Instr.lw 0 dw Verdict.clean) X).readWord 0 dw.area dw.offset.toNat = some (0, false) ∧
    (about (Instr.lw 0 dw Verdict.clean) X).fallsThrough (Instr.lw 0 dw Verdict.clean) = true :=
  ⟨by decide, by decide⟩
theorem witness_WordAccessResult_2 :
    (about (Instr.lwi 0 77) X).fallsThrough (Instr.lwi 0 77) = true :=
  by decide
theorem witness_WordAccessResult_3 :
    (about (Instr.swap 0) X).fallsThrough (Instr.swap 0) = true :=
  by decide
theorem witness_WordAccessResult_4 :
    (about (Instr.sw 0 dw Verdict.clean) X).wordLands 0 dw.area dw.offset.toNat (4096 + 128 + 12) ∧
    (about (Instr.sw 0 dw Verdict.clean) X).fallsThrough (Instr.sw 0 dw Verdict.clean) = true :=
  ⟨by unfold State.wordLands; decide, by decide⟩
theorem witness_WordAccessResult_5 :
    (about (Instr.move 0 dw qw) X).readWord 0 dw.area dw.offset.toNat = some (0, false) ∧
    (about (Instr.move 0 dw qw) X).wordLands 0 qw.area qw.offset.toNat 4 ∧ (about (Instr.move 0 dw qw) X).fallsThrough (Instr.move 0 dw qw) = true :=
  ⟨by decide, by unfold State.wordLands; decide, by decide⟩
theorem witness_WordAccessResult_6 :
    (about (Instr.lw 0 dw (Verdict.corrected 2 false)) X).readWord 0 dw.area dw.offset.toNat = some (0, false) ∧ dw.area ≠ Area.Z ∧
    (about (Instr.lw 0 dw (Verdict.corrected 2 false)) X).fallsThrough (Instr.lw 0 dw (Verdict.corrected 2 false)) = true :=
  ⟨by decide, by decide, by decide⟩
theorem witness_WordAccessResult_7 :
    (about (Instr.lw 0 dw (Verdict.uncorrectable 1)) X).readWord 0 dw.area dw.offset.toNat = some (0, false) ∧ dw.area ≠ Area.Z ∧
    (about (Instr.lw 0 dw (Verdict.uncorrectable 1)) X).fallsThrough (Instr.lw 0 dw (Verdict.uncorrectable 1)) = true :=
  ⟨by decide, by decide, by decide⟩
theorem witness_WordAccessResult_8 :
    (about (Instr.lw 0 dw (Verdict.corrected 1 true)) X).readWord 0 dw.area dw.offset.toNat = some (0, false) ∧ dw.area ≠ Area.Z ∧
    (about (Instr.lw 0 dw (Verdict.corrected 1 true)) X).fallsThrough (Instr.lw 0 dw (Verdict.corrected 1 true)) = true :=
  ⟨by decide, by decide, by decide⟩

/-! ### `Obligations.BlockMoveResult`: states and operands that meet its hypotheses, clause by clause -/

theorem witness_BlockMoveResult_1 :
    (about (Instr.bmove 0 dw qw) w13).fallsThrough (Instr.bmove 0 dw qw) = true ∧ ((about (Instr.bmove 0 dw qw) w13).engine 0).waP = false ∧
    mayReadWords dw.area = true ∧ mayWriteWords qw.area = true ∧
    (sInt ((about (Instr.bmove 0 dw qw) w13).engine 0).wa < 1 ∨ 4096 < sInt ((about (Instr.bmove 0 dw qw) w13).engine 0).wa ∨ (about (Instr.bmove 0 dw qw) w13).rangeInside dw (sInt ((about (Instr.bmove 0 dw qw) w13).engine 0).wa).toNat = false ∨ (about (Instr.bmove 0 dw qw) w13).rangeInside qw (sInt ((about (Instr.bmove 0 dw qw) w13).engine 0).wa).toNat = false) :=
  ⟨by decide, by decide, by decide, by decide, by decide⟩
theorem witness_BlockMoveResult_2 :
    (about (Instr.bmove 0 dw qw) w13b).fallsThrough (Instr.bmove 0 dw qw) = true ∧ ((about (Instr.bmove 0 dw qw) w13b).engine 0).waP = false ∧
    ¬ (sInt ((about (Instr.bmove 0 dw qw) w13b).engine 0).wa < 1 ∨ 4096 < sInt ((about (Instr.bmove 0 dw qw) w13b).engine 0).wa ∨ (about (Instr.bmove 0 dw qw) w13b).rangeInside dw (sInt ((about (Instr.bmove 0 dw qw) w13b).engine 0).wa).toNat = false ∨ (about (Instr.bmove 0 dw qw) w13b).rangeInside qw (sInt ((about (Instr.bmove 0 dw qw) w13b).engine 0).wa).toNat = false) ∧
    ((about (Instr.bmove 0 dw qw) w13b).engine 0).moved = none ∧
    (∀ i < 1, qw.area ≠ .C ∧ (about (Instr.bmove 0 dw qw) w13b).mayStore qw.area (Operand.plus qw i) = true ∧
      (about (Instr.bmove 0 dw qw) w13b).wordAddr .work qw.area (Operand.plus qw i / 32) = some (4 + 4 * i)) ∧
    (∀ i < 1, (about (Instr.bmove 0 dw qw) w13b).readWord 0 dw.area (Operand.plus dw i) = some (0, false)) :=
  ⟨by decide, by decide, by decide, by decide, by decide, by decide⟩

/-! ### `Obligations.JumpResult`: states and operands that meet its hypotheses, clause by clause -/

theorem witness_JumpResult_1 :
    (about (Instr.jmp 0 1) X).inBlock 0 (1) = true ∧ (about (Instr.jmp 0 1) X).issues (Instr.jmp 0 1) = true :=
  ⟨by decide, by decide⟩
theorem witness_JumpResult_2 :
    (about (Instr.jt 0 1) X).inBlock 0 (1) = true ∧ (about (Instr.jt 0 1) X).issues (Instr.jt 0 1) = true ∧
    ((about (Instr.jt 0 1) X).engine 0).cbP = false ∧ ((about (Instr.jt 0 1) X).engine 0).cb = true :=
  ⟨by decide, by decide, by decide, by decide⟩
theorem witness_JumpResult_3 :
    (about (Instr.jf 0 1) w11).inBlock 0 (1) = true ∧ (about (Instr.jf 0 1) w11).issues (Instr.jf 0 1) = true ∧
    ((about (Instr.jf 0 1) w11).engine 0).cbP = false ∧ ((about (Instr.jf 0 1) w11).engine 0).cb = false :=
  ⟨by decide, by decide, by decide, by decide⟩
theorem witness_JumpResult_4 :
    (about (Instr.jov 0 1) w14).inBlock 0 (1) = true ∧ (about (Instr.jov 0 1) w14).issues (Instr.jov 0 1) = true ∧
    ((about (Instr.jov 0 1) w14).engine 0).ovf = true :=
  ⟨by decide, by decide, by decide⟩
theorem witness_JumpResult_5 :
    (about (Instr.jovs 0 1) w15).inBlock 0 (1) = true ∧ (about (Instr.jovs 0 1) w15).issues (Instr.jovs 0 1) = true ∧
    ((about (Instr.jovs 0 1) w15).engine 0).ovs = true :=
  ⟨by decide, by decide, by decide⟩
theorem witness_JumpResult_6 :
    (about (Instr.jmp 0 100) X).inBlock 0 (100) = false ∧ (about (Instr.jmp 0 100) X).issues (Instr.jmp 0 100) = true :=
  ⟨by decide, by decide⟩
theorem witness_JumpResult_7 :
    (about (Instr.jt 0 100) w11).fallsThrough (Instr.jt 0 100) = true ∧ ((about (Instr.jt 0 100) w11).engine 0).cbP = false ∧
    ((about (Instr.jt 0 100) w11).engine 0).cb = false :=
  ⟨by decide, by decide, by decide⟩
theorem witness_JumpResult_8 :
    (about (Instr.jf 0 100) X).fallsThrough (Instr.jf 0 100) = true ∧ ((about (Instr.jf 0 100) X).engine 0).cbP = false ∧
    ((about (Instr.jf 0 100) X).engine 0).cb = true :=
  ⟨by decide, by decide, by decide⟩
theorem witness_JumpResult_9 :
    (about (Instr.jov 0 100) X).fallsThrough (Instr.jov 0 100) = true ∧ ((about (Instr.jov 0 100) X).engine 0).ovf = false :=
  ⟨by decide, by decide⟩
theorem witness_JumpResult_10 :
    (about (Instr.jovs 0 100) X).fallsThrough (Instr.jovs 0 100) = true ∧ ((about (Instr.jovs 0 100) X).engine 0).ovs = false :=
  ⟨by decide, by decide⟩

/-! ### `Obligations.CallAndReturn`: states and operands that meet its hypotheses, clause by clause -/

theorem witness_CallAndReturn_1 :
    (about (Instr.call 0 0) X).blockOf (0) = some (blk 2) ∧ (blk 2).engine = 0 ∧ (blk 2).event = none ∧ 1 ≤ (blk 2).length ∧
    (blk 2).first + (blk 2).length ≤ 262144 ∧ (about (Instr.call 0 0) X).blockOf (blk 2).number = some (blk 2) ∧
    ((about (Instr.call 0 0) X).engine 0).calls.length < 8 ∧ (about (Instr.call 0 0) X).issues (Instr.call 0 0) = true :=
  ⟨by decide, by decide, by decide, by decide, by decide, by decide, by decide, by decide⟩
theorem witness_CallAndReturn_2 :
    (about (Instr.call 0 0) w16).blockOf (0) = some (blk 2) ∧ (blk 2).engine = 0 ∧ (blk 2).event = none ∧ 1 ≤ (blk 2).length ∧
    (blk 2).first + (blk 2).length ≤ 262144 ∧ (about (Instr.call 0 0) w16).blockOf (blk 2).number = some (blk 2) ∧
    8 ≤ ((about (Instr.call 0 0) w16).engine 0).calls.length ∧ (about (Instr.call 0 0) w16).issues (Instr.call 0 0) = true :=
  ⟨by decide, by decide, by decide, by decide, by decide, by decide, by decide, by decide⟩
theorem witness_CallAndReturn_3 :
    (about (Instr.callt 0 0) X).blockOf (0) = some (blk 2) ∧ (blk 2).engine = 0 ∧ (blk 2).event = none ∧ 1 ≤ (blk 2).length ∧
    (blk 2).first + (blk 2).length ≤ 262144 ∧ (about (Instr.callt 0 0) X).blockOf (blk 2).number = some (blk 2) ∧
    ((about (Instr.callt 0 0) X).engine 0).calls.length < 8 ∧ ((about (Instr.callt 0 0) X).engine 0).cbP = false ∧
    ((about (Instr.callt 0 0) X).engine 0).cb = true ∧ (about (Instr.callt 0 0) X).issues (Instr.callt 0 0) = true :=
  ⟨by decide, by decide, by decide, by decide, by decide, by decide, by decide, by decide, by decide, by decide⟩
theorem witness_CallAndReturn_4 :
    (about (Instr.callt 0 0) w11).blockOf (0) = some (blk 2) ∧ (blk 2).engine = 0 ∧ (blk 2).event = none ∧ 1 ≤ (blk 2).length ∧
    (blk 2).first + (blk 2).length ≤ 262144 ∧ (about (Instr.callt 0 0) w11).blockOf (blk 2).number = some (blk 2) ∧
    ((about (Instr.callt 0 0) w11).engine 0).cbP = false ∧ ((about (Instr.callt 0 0) w11).engine 0).cb = false ∧
    (about (Instr.callt 0 0) w11).fallsThrough (Instr.callt 0 0) = true :=
  ⟨by decide, by decide, by decide, by decide, by decide, by decide, by decide, by decide, by decide⟩
theorem witness_CallAndReturn_5 :
    (about (Instr.ret 0) w17).blockOf (0) = some (blk 2) ∧ (blk 2).engine = 0 ∧ (blk 2).event = none ∧ 1 ≤ (blk 2).length ∧
    (blk 2).first + (blk 2).length ≤ 262144 ∧ (about (Instr.ret 0) w17).blockOf (blk 2).number = some (blk 2) ∧
    ((about (Instr.ret 0) w17).engine 0).calls = [(1, (blk 2).number)] ∧ (blk 2).holds (1) = true ∧
    (about (Instr.ret 0) w17).issues (Instr.ret 0) = true :=
  ⟨by decide, by decide, by decide, by decide, by decide, by decide, by decide, by decide, by decide⟩
theorem witness_CallAndReturn_6 :
    (about (Instr.end_ 0) w17).blockOf (0) = some (blk 2) ∧ (blk 2).engine = 0 ∧ (blk 2).event = none ∧ 1 ≤ (blk 2).length ∧
    (blk 2).first + (blk 2).length ≤ 262144 ∧ (about (Instr.end_ 0) w17).blockOf (blk 2).number = some (blk 2) ∧
    ((about (Instr.end_ 0) w17).engine 0).calls = [(1, (blk 2).number)] ∧ (blk 2).holds (1) = true ∧
    (about (Instr.end_ 0) w17).issues (Instr.end_ 0) = true :=
  ⟨by decide, by decide, by decide, by decide, by decide, by decide, by decide, by decide, by decide⟩
theorem witness_CallAndReturn_7 :
    ((about (Instr.end_ 0) X).engine 0).calls = [] ∧ ((about (Instr.end_ 0) X).engine 0).serving = [] ∧
    ((about (Instr.end_ 0) X).engine 0).eventLeft = [] ∧ ((about (Instr.end_ 0) X).engine 0).cyclicLeft = [] ∧
    (about (Instr.end_ 0) X).issues (Instr.end_ 0) = true :=
  ⟨by decide, by decide, by decide, by decide, by decide⟩
theorem witness_CallAndReturn_8 :
    ((about (Instr.ret 0) X).engine 0).calls = [] ∧ ((about (Instr.ret 0) X).engine 0).serving = [] ∧
    ((about (Instr.ret 0) X).engine 0).eventLeft = [] ∧ ((about (Instr.ret 0) X).engine 0).cyclicLeft = [] ∧
    (about (Instr.ret 0) X).issues (Instr.ret 0) = true :=
  ⟨by decide, by decide, by decide, by decide, by decide⟩

/-! ### `Obligations.TotalIncrement`: states and operands that meet its hypotheses, clause by clause -/

theorem witness_TotalIncrement_1 :
    3 < 64 ∧ ((tots (Instr.tot 0 3) w11 1).engine 0).cbP = false ∧ (tots (Instr.tot 0 3) w11 1).fallsThrough (Instr.tot 0 3) = true ∧
    ((tots (Instr.tot 0 3) w11 1).engine 0).cb = false :=
  ⟨by decide, by decide, by decide, by decide⟩
theorem witness_TotalIncrement_2 :
    3 < 64 ∧ ((tots (Instr.tot 0 3) X 1).engine 0).cbP = false ∧ (tots (Instr.tot 0 3) X 1).fallsThrough (Instr.tot 0 3) = true ∧
    ((tots (Instr.tot 0 3) X 1).engine 0).cb = true ∧ ((tots (Instr.tot 0 3) X 1).engine 0).waP = false ∧
    (tots (Instr.tot 0 3) X 1).owner Area.Z (2 * 3) = some 0 ∧
    inRange64 (((tots (Instr.tot 0 3) X 1).total (3)).value + Tab.get 0 (tots (Instr.tot 0 3) X 1).square.totIncr (3) + sInt ((tots (Instr.tot 0 3) X 1).engine 0).wa) = true :=
  ⟨by decide, by decide, by decide, by decide, by decide, by decide, by decide⟩
theorem witness_TotalIncrement_3 :
    3 < 64 ∧ ((tots (Instr.tot 0 3) X 9223372036854775806).engine 0).cbP = false ∧
    (tots (Instr.tot 0 3) X 9223372036854775806).fallsThrough (Instr.tot 0 3) = true ∧
    ((tots (Instr.tot 0 3) X 9223372036854775806).engine 0).cb = true ∧ ((tots (Instr.tot 0 3) X 9223372036854775806).engine 0).waP = false ∧
    (tots (Instr.tot 0 3) X 9223372036854775806).owner Area.Z (2 * 3) = some 0 ∧
    inRange64 (((tots (Instr.tot 0 3) X 9223372036854775806).total (3)).value + Tab.get 0 (tots (Instr.tot 0 3) X 9223372036854775806).square.totIncr (3) + sInt ((tots (Instr.tot 0 3) X 9223372036854775806).engine 0).wa) = false :=
  ⟨by decide, by decide, by decide, by decide, by decide, by decide, by decide⟩

/-! ### `Obligations.SourceFiring`: states and operands that meet its hypotheses, clause by clause -/

theorem witness_SourceFiring_1 :
    432 < 512 ∧ (about (Instr.sev 0 432) X).fallsThrough (Instr.sev 0 432) = true ∧ ((about (Instr.sev 0 432) X).engine 0).cbP = false :=
  ⟨by decide, by decide, by decide⟩
theorem witness_SourceFiring_2 :
    432 < 512 ∧ (about (Instr.sev 0 432) w11).fallsThrough (Instr.sev 0 432) = true ∧ ((about (Instr.sev 0 432) w11).engine 0).cbP = false :=
  ⟨by decide, by decide, by decide⟩
theorem witness_SourceFiring_3 :
    432 < 512 ∧ (about (Instr.sev 0 432) w18).fallsThrough (Instr.sev 0 432) = true ∧ ((about (Instr.sev 0 432) w18).engine 0).cbP = true :=
  ⟨by decide, by decide, by decide⟩

/-! ### `Obligations.ReservedWordFaults`: states and operands that meet its hypotheses, clause by clause -/

theorem witness_ReservedWordFaults_1 :
    (running [4278190080, 16777216] X).atIssue 0 = true ∧
    (running [4278190080, 16777216] X).codePoison ((running [4278190080, 16777216] X).pcOf 0) = false ∧ (running [4278190080, 16777216] X).quiet = true ∧
    knownOpcode (opcodeOf ((running [4278190080, 16777216] X).codeWord ((running [4278190080, 16777216] X).pcOf 0))) = false :=
  ⟨by decide, by decide, by decide, by decide⟩
theorem witness_ReservedWordFaults_2 :
    (running [284164096, 16777216] X).atIssue 0 = true ∧
    (running [284164096, 16777216] X).codePoison ((running [284164096, 16777216] X).pcOf 0) = false ∧ (running [284164096, 16777216] X).quiet = true ∧
    opcodeOf ((running [284164096, 16777216] X).codeWord ((running [284164096, 16777216] X).pcOf 0)) = 16 ∧
    areaField ((running [284164096, 16777216] X).codeWord ((running [284164096, 16777216] X).pcOf 0)) = none :=
  ⟨by decide, by decide, by decide, by decide, by decide⟩

/-! ### `Obligations.PoisonedInputs`: states and operands that meet its hypotheses, clause by clause -/

theorem witness_PoisonedInputs_1 :
    ((about (Instr.setb 0 do_) P).engine 0).cbP = true ∧ (about (Instr.setb 0 do_) P).bitLands 0 do_ (4096 + 128 + 12) ∧
    (about (Instr.setb 0 do_) P).readBit 0 do_ = some (false, false) ∧ (about (Instr.setb 0 do_) P).fallsThrough (Instr.setb 0 do_) = true :=
  ⟨by decide, by unfold State.bitLands; decide, by decide, by decide⟩
theorem witness_PoisonedInputs_2 :
    ((about (Instr.clrb 0 do_) P).engine 0).cbP = true ∧ (about (Instr.clrb 0 do_) P).bitLands 0 do_ (4096 + 128 + 12) ∧
    (about (Instr.clrb 0 do_) P).readBit 0 do_ = some (false, false) ∧ (about (Instr.clrb 0 do_) P).fallsThrough (Instr.clrb 0 do_) = true :=
  ⟨by decide, by unfold State.bitLands; decide, by decide, by decide⟩
theorem witness_PoisonedInputs_3 :
    ((about (Instr.ton 0 (tm false)) P).engine 0).cbP = true ∧ ((fun n => n < 4096 ∧
    (about (Instr.ton 0 (tm false)) P).forceOn Area.T (4 * n) = none ∧
    (about (Instr.ton 0 (tm false)) P).owner Area.T (4 * n) = some 0) (tm false).timer.toNat) ∧
    (about (Instr.ton 0 (tm false)) P).fallsThrough (Instr.ton 0 (tm false)) = true :=
  ⟨by decide, by decide, by decide⟩
theorem witness_PoisonedInputs_4 :
    ((about (Instr.tof 0 (tm false)) P).engine 0).cbP = true ∧ ((fun n => n < 4096 ∧
    (about (Instr.tof 0 (tm false)) P).forceOn Area.T (4 * n) = none ∧
    (about (Instr.tof 0 (tm false)) P).owner Area.T (4 * n) = some 0) (tm false).timer.toNat) ∧
    (about (Instr.tof 0 (tm false)) P).fallsThrough (Instr.tof 0 (tm false)) = true :=
  ⟨by decide, by decide, by decide⟩
theorem witness_PoisonedInputs_5 :
    ((about (Instr.tp 0 (tm false)) P).engine 0).cbP = true ∧ ((fun n => n < 4096 ∧ (about (Instr.tp 0 (tm false)) P).forceOn Area.T (4 * n) = none ∧
    (about (Instr.tp 0 (tm false)) P).owner Area.T (4 * n) = some 0) (tm false).timer.toNat) ∧
    (about (Instr.tp 0 (tm false)) P).fallsThrough (Instr.tp 0 (tm false)) = true :=
  ⟨by decide, by decide, by decide⟩
theorem witness_PoisonedInputs_6 :
    ((about (Instr.tclr 0 3) P).engine 0).cbP = true ∧ ((fun n => n < 4096 ∧ (about (Instr.tclr 0 3) P).forceOn Area.T (4 * n) = none ∧
    (about (Instr.tclr 0 3) P).owner Area.T (4 * n) = some 0) (3)) ∧ (about (Instr.tclr 0 3) P).fallsThrough (Instr.tclr 0 3) = true :=
  ⟨by decide, by decide, by decide⟩
theorem witness_PoisonedInputs_7 :
    ((about (Instr.cup 0 3) P).engine 0).cbP = true ∧ ((fun n => n < 4096 ∧ (about (Instr.cup 0 3) P).forceOn Area.C (2 * n) = none ∧
    (about (Instr.cup 0 3) P).owner Area.C (2 * n) = some 0) (3)) ∧ (about (Instr.cup 0 3) P).fallsThrough (Instr.cup 0 3) = true :=
  ⟨by decide, by decide, by decide⟩
theorem witness_PoisonedInputs_8 :
    ((about (Instr.cdn 0 3) P).engine 0).cbP = true ∧ ((fun n => n < 4096 ∧ (about (Instr.cdn 0 3) P).forceOn Area.C (2 * n) = none ∧
    (about (Instr.cdn 0 3) P).owner Area.C (2 * n) = some 0) (3)) ∧ (about (Instr.cdn 0 3) P).fallsThrough (Instr.cdn 0 3) = true :=
  ⟨by decide, by decide, by decide⟩
theorem witness_PoisonedInputs_9 :
    ((about (Instr.cld 0 3) P).engine 0).cbP = true ∧ ((fun n => n < 4096 ∧ (about (Instr.cld 0 3) P).forceOn Area.C (2 * n) = none ∧
    (about (Instr.cld 0 3) P).owner Area.C (2 * n) = some 0) (3)) ∧ (about (Instr.cld 0 3) P).fallsThrough (Instr.cld 0 3) = true :=
  ⟨by decide, by decide, by decide⟩
theorem witness_PoisonedInputs_10 :
    ((about (Instr.cclr 0 3) P).engine 0).cbP = true ∧ ((fun n => n < 4096 ∧ (about (Instr.cclr 0 3) P).forceOn Area.C (2 * n) = none ∧
    (about (Instr.cclr 0 3) P).owner Area.C (2 * n) = some 0) (3)) ∧ (about (Instr.cclr 0 3) P).fallsThrough (Instr.cclr 0 3) = true :=
  ⟨by decide, by decide, by decide⟩
theorem witness_PoisonedInputs_11 :
    ((about (Instr.jt 0 0) P).engine 0).cbP = true ∧ (about (Instr.jt 0 0) P).fallsThrough (Instr.jt 0 0) = true :=
  ⟨by decide, by decide⟩
theorem witness_PoisonedInputs_12 :
    ((about (Instr.jf 0 0) P).engine 0).cbP = true ∧ (about (Instr.jf 0 0) P).fallsThrough (Instr.jf 0 0) = true :=
  ⟨by decide, by decide⟩
theorem witness_PoisonedInputs_13 :
    ((about (Instr.callt 0 0) P).engine 0).cbP = true ∧ (about (Instr.callt 0 0) P).fallsThrough (Instr.callt 0 0) = true :=
  ⟨by decide, by decide⟩
theorem witness_PoisonedInputs_14 :
    ((about (Instr.tot 0 3) P).engine 0).cbP = true ∧ 3 < 64 ∧ (about (Instr.tot 0 3) P).fallsThrough (Instr.tot 0 3) = true :=
  ⟨by decide, by decide, by decide⟩
theorem witness_PoisonedInputs_15 :
    ((about (Instr.ton 0 (tm true)) PW).engine 0).cbP = false ∧ ((about (Instr.ton 0 (tm true)) PW).engine 0).waP = true ∧ (tm true).presetWa = true ∧
    ((fun n => n < 4096 ∧ (about (Instr.ton 0 (tm true)) PW).forceOn Area.T (4 * n) = none ∧
    (about (Instr.ton 0 (tm true)) PW).owner Area.T (4 * n) = some 0) (tm true).timer.toNat) ∧
    (about (Instr.ton 0 (tm true)) PW).fallsThrough (Instr.ton 0 (tm true)) = true :=
  ⟨by decide, by decide, by decide, by decide, by decide⟩
theorem witness_PoisonedInputs_16 :
    ((about (Instr.cld 0 3) PW).engine 0).cbP = false ∧ ((about (Instr.cld 0 3) PW).engine 0).waP = true ∧
    ((about (Instr.cld 0 3) PW).engine 0).cb = true ∧ ((fun n => n < 4096 ∧ (about (Instr.cld 0 3) PW).forceOn Area.C (2 * n) = none ∧
    (about (Instr.cld 0 3) PW).owner Area.C (2 * n) = some 0) (3)) ∧ (about (Instr.cld 0 3) PW).fallsThrough (Instr.cld 0 3) = true :=
  ⟨by decide, by decide, by decide, by decide, by decide⟩
theorem witness_PoisonedInputs_17 :
    ((about (Instr.tot 0 3) PW).engine 0).cbP = false ∧ ((about (Instr.tot 0 3) PW).engine 0).waP = true ∧
    ((about (Instr.tot 0 3) PW).engine 0).cb = true ∧ 3 < 64 ∧ (about (Instr.tot 0 3) PW).fallsThrough (Instr.tot 0 3) = true :=
  ⟨by decide, by decide, by decide, by decide, by decide⟩
theorem witness_PoisonedInputs_18 :
    ((about (Instr.bmove 0 dw qw) PW).engine 0).cbP = false ∧ ((about (Instr.bmove 0 dw qw) PW).engine 0).waP = true ∧
    (about (Instr.bmove 0 dw qw) PW).fallsThrough (Instr.bmove 0 dw qw) = true ∧ mayReadWords dw.area = true ∧ mayWriteWords qw.area = true :=
  ⟨by decide, by decide, by decide, by decide, by decide⟩

/-! ### `Obligations.ModuleReads`: states and operands that meet its hypotheses, clause by clause -/

theorem witness_ModuleReads_1 :
    im.admits (pk 256 []) identifyDesc = true :=
  by decide
theorem witness_ModuleReads_2 :
    im.admits (pk 257 []) getStatusDesc = true :=
  by decide
theorem witness_ModuleReads_3 :
    im.admits (pk 2816 []) powerStatusDesc = true :=
  by decide
theorem witness_ModuleReads_4 :
    im.admits (pk 2817 []) thermalStatusDesc = true :=
  by decide
theorem witness_ModuleReads_5 :
    im.admits (cm keyStatusDesc []) keyStatusDesc = true :=
  by decide
theorem witness_ModuleReads_6 :
    im.admits (cm cycleStatsDesc []) cycleStatsDesc = true :=
  by decide

/-! ### `Obligations.ObjectReads`: states and operands that meet its hypotheses, clause by clause -/

theorem witness_ObjectReads_1 :
    im.admits rdo readObjectDesc = true ∧
    (List.map (fun r => if r.2.2 = 0 then (im.admitted rdo readObjectDesc).objWord r.1 r.2.1 else none) (objRefs (im.payloadOf rdo readObjectDesc)) = List.map some [(0, false), (0, false)]) ∧
    (im.pair.state = PairState.stale → ∀ r ∈ objRefs (im.payloadOf rdo readObjectDesc), processWord r.1 r.2.1 = false) ∧
    (im.totalsForeign = true → ∀ r ∈ objRefs (im.payloadOf rdo readObjectDesc), totalWord r.1 r.2.1 = false) ∧
    ((im.ctxOf rdo readObjectDesc).roles.getLsbD Role.observe.bit = true ∨ ∀ r ∈ objRefs (im.payloadOf rdo readObjectDesc), anyRole r.1 = true) :=
  ⟨by decide, by decide, by decide, by decide, by decide⟩
theorem witness_ObjectReads_2 :
    im.admits rdb readObjectDesc = true ∧ (im.ctxOf rdb readObjectDesc).roles.getLsbD Role.observe.bit = true ∧
    (∃ r ∈ objRefs (im.payloadOf rdb readObjectDesc), r.2.2 ≠ 0 ∨ (im.admitted rdb readObjectDesc).objWord r.1 r.2.1 = none) :=
  ⟨by decide, by decide, by decide⟩

/-! ### `Obligations.ProcessReads`: states and operands that meet its hypotheses, clause by clause -/

theorem witness_ProcessReads_1 :
    im.quiet = true ∧ im.admits rv readVarsDesc = true ∧
    im.parseRefs (be16 (im.payloadOf rv readVarsDesc) 0) (List.drop 4 (im.payloadOf rv readVarsDesc)) = some [dRef] ∧ im.hidesTotals ([dRef].flatMap VarRef.items) = false :=
  ⟨by decide, by decide, by decide, by decide⟩
theorem witness_ProcessReads_2 :
    im.quiet = true ∧ im.admits (cm channelStatusDesc [0, 0, 2, 0]) channelStatusDesc = true ∧
    statusKind (byteAt (im.payloadOf (cm channelStatusDesc [0, 0, 2, 0]) channelStatusDesc) 0) = some ((statusKind 0).get!.1, (statusKind 0).get!.2) ∧
    0 < byteAt (im.payloadOf (cm channelStatusDesc [0, 0, 2, 0]) channelStatusDesc) 2 ∧
    byteAt (im.payloadOf (cm channelStatusDesc [0, 0, 2, 0]) channelStatusDesc) 1 + byteAt (im.payloadOf (cm channelStatusDesc [0, 0, 2, 0]) channelStatusDesc) 2 ≤ (statusKind 0).get!.1 :=
  ⟨by decide, by decide, by decide, by decide, by decide⟩
theorem witness_ProcessReads_3 :
    im.quiet = true ∧ im.admits (cm loopReadDesc (toBe 2 7 ++ toBe 2 0)) loopReadDesc = true ∧
    be16 (im.payloadOf (cm loopReadDesc (toBe 2 7 ++ toBe 2 0)) loopReadDesc) 0 ≤ 255 :=
  ⟨by decide, by decide, by decide⟩
theorem witness_ProcessReads_4 :
    im.quiet = true ∧ im.admits (cm stationStatusDesc [1, 31, 0, 0]) stationStatusDesc = true ∧
    byteAt (im.payloadOf (cm stationStatusDesc [1, 31, 0, 0]) stationStatusDesc) 0 ≤ 1 ∧
    byteAt (im.payloadOf (cm stationStatusDesc [1, 31, 0, 0]) stationStatusDesc) 1 ≤ 31 :=
  ⟨by decide, by decide, by decide, by decide⟩
theorem witness_ProcessReads_5 :
    im.quiet = true ∧ im.admits (cm totalReadDesc [60, 4, 0, 0]) totalReadDesc = true ∧ 1 ≤ byteAt (im.payloadOf (cm totalReadDesc [60, 4, 0, 0]) totalReadDesc) 1 ∧
    byteAt (im.payloadOf (cm totalReadDesc [60, 4, 0, 0]) totalReadDesc) 0 + byteAt (im.payloadOf (cm totalReadDesc [60, 4, 0, 0]) totalReadDesc) 1 ≤ 64 :=
  ⟨by decide, by decide, by decide, by decide⟩
theorem witness_ProcessReads_6 :
    burst.quiet = true ∧ burst.admits (cm hartBurstReadDesc [0, 2, 0, 0]) hartBurstReadDesc = true ∧
    byteAt (burst.payloadOf (cm hartBurstReadDesc [0, 2, 0, 0]) hartBurstReadDesc) 0 ≤ 31 ∧
    byteAt (burst.payloadOf (cm hartBurstReadDesc [0, 2, 0, 0]) hartBurstReadDesc) 1 ≤ 5 ∧
    ucHart (burst.ucCfg (byteAt (burst.payloadOf (cm hartBurstReadDesc [0, 2, 0, 0]) hartBurstReadDesc) 0)) = true ∧
    (burst.uc (byteAt (burst.payloadOf (cm hartBurstReadDesc [0, 2, 0, 0]) hartBurstReadDesc) 0)).state = UcState.run ∧
    (Tab.get { } (burst.uc (byteAt (burst.payloadOf (cm hartBurstReadDesc [0, 2, 0, 0]) hartBurstReadDesc) 0)).devices (byteAt (burst.payloadOf (cm hartBurstReadDesc [0, 2, 0, 0]) hartBurstReadDesc) 1)).burst = some ([1, 2, 3], 5) :=
  ⟨by decide, by decide, by decide, by decide, by decide, by decide, by decide⟩

/-! ### `Obligations.CounterReads`: states and operands that meet its hypotheses, clause by clause -/

theorem witness_CounterReads_1 :
    im.admits (cm canCountersDesc [1, 0, 0, 0]) canCountersDesc = true ∧
    byteAt (im.payloadOf (cm canCountersDesc [1, 0, 0, 0]) canCountersDesc) 0 ≤ 1 :=
  ⟨by decide, by decide⟩
theorem witness_CounterReads_2 :
    im.admits (cm pairStatusDesc []) pairStatusDesc = true :=
  by decide
theorem witness_CounterReads_3 :
    recs.admits (cm recQueryDesc (toBe 4 1 ++ toBe 2 5 ++ [0, 0])) recQueryDesc = true ∧
    beWord (recs.payloadOf (cm recQueryDesc (toBe 4 1 ++ toBe 2 5 ++ [0, 0])) recQueryDesc) 0 ≠ 0 ∧
    1 ≤ be16 (recs.payloadOf (cm recQueryDesc (toBe 4 1 ++ toBe 2 5 ++ [0, 0])) recQueryDesc) 4 ∧
    be16 (recs.payloadOf (cm recQueryDesc (toBe 4 1 ++ toBe 2 5 ++ [0, 0])) recQueryDesc) 4 ≤ 43 ∧
    byteAt (recs.payloadOf (cm recQueryDesc (toBe 4 1 ++ toBe 2 5 ++ [0, 0])) recQueryDesc) 6 ≤ 3 :=
  ⟨by decide, by decide, by decide, by decide, by decide⟩
theorem witness_CounterReads_4 :
    recs.admits (cm recUploadDesc (toBe 4 1 ++ toBe 4 5)) recUploadDesc = true ∧
    beWord (recs.payloadOf (cm recUploadDesc (toBe 4 1 ++ toBe 4 5)) recUploadDesc) 0 ≠ 0 ∧
    1 ≤ be32 (recs.payloadOf (cm recUploadDesc (toBe 4 1 ++ toBe 4 5)) recUploadDesc) 4 ∧
    be32 (recs.payloadOf (cm recUploadDesc (toBe 4 1 ++ toBe 4 5)) recUploadDesc) 4 ≤ 65536 :=
  ⟨by decide, by decide, by decide, by decide⟩
theorem witness_CounterReads_5 :
    recs.admits (cm recCountersDesc []) recCountersDesc = true :=
  by decide
theorem witness_CounterReads_6 :
    recs.admits (cm memStatusDesc [7, 0, 0, 0]) memStatusDesc = true ∧ byteAt (recs.payloadOf (cm memStatusDesc [7, 0, 0, 0]) memStatusDesc) 0 ≤ 7 :=
  ⟨by decide, by decide⟩
theorem witness_CounterReads_7 :
    recs.admits (cm remapReadDesc [7, 0, 0, 0]) remapReadDesc = true ∧ byteAt (recs.payloadOf (cm remapReadDesc [7, 0, 0, 0]) remapReadDesc) 0 ≤ 7 :=
  ⟨by decide, by decide⟩
theorem witness_CounterReads_8 :
    recs.admits (cm fireStatusDesc []) fireStatusDesc = true :=
  by decide

/-! ### `Obligations.ProgramCommands`: states and operands that meet its hypotheses, clause by clause -/

theorem witness_ProgramCommands_1 :
    (im.forwards && im.causewayLost) = false ∧ im.admits pb programBeginDesc = true ∧ byteAt (im.payloadOf pb programBeginDesc) 0 ≤ 1 ∧
    1 ≤ be32 (im.payloadOf pb programBeginDesc) 4 ∧ be32 (im.payloadOf pb programBeginDesc) 4 ≤ 262144 ∧
    (im.bank (byteAt (im.payloadOf pb programBeginDesc) 0)).state ≠ BankState.running ∧
    (∀ (w : Switch), im.square.switch = some w → b2n w.bank ≠ byteAt (im.payloadOf pb programBeginDesc) 0) :=
  ⟨by decide, by decide, by decide, by decide, by decide, by decide, by decide⟩
theorem witness_ProgramCommands_2 :
    (ld.forwards && ld.causewayLost) = false ∧ ld.admits pd programDataDesc = true ∧ ld.square.load = some true ∧
    be32 (ld.payloadOf pd programDataDesc) 0 + (packWords (((ld.payloadOf pd programDataDesc).length - 4) / 4) (List.drop 4 (ld.payloadOf pd programDataDesc))).length ≤ (ld.bank (b2n true)).words :=
  ⟨by decide, by decide, by decide, by decide⟩
theorem witness_ProgramCommands_3 :
    (ld.forwards && ld.causewayLost) = false ∧ ld.admits pe programEndDesc = true ∧ ld.plannedLoad = some (true, 2) ∧ ld.forwards = false :=
  ⟨by decide, by decide, by decide, by decide⟩
theorem witness_ProgramCommands_4 :
    (ld.forwards && ld.causewayLost) = false ∧ ld.admits pe programEndDesc = true ∧ ld.square.load = some true ∧
    crcWords (ld.bank (b2n true)).image ≠ (ld.bank (b2n true)).crc :=
  ⟨by decide, by decide, by decide, by decide⟩
theorem witness_ProgramCommands_5 :
    (ver.forwards && ver.causewayLost) = false ∧ ver.admits (cm programSwitchDesc (toBe 4 0)) programSwitchDesc = true ∧
    be32 (ver.payloadOf (cm programSwitchDesc (toBe 4 0)) programSwitchDesc) 0 ≤ 1 ∧ ver.square.switch = none ∧
    (ver.bank ver.stagedNo).state = BankState.verified ∧
    (be32 (ver.payloadOf (cm programSwitchDesc (toBe 4 0)) programSwitchDesc) 0 = 0 → ∀ f ∈ ver.plannedForces, (ver.bank ver.stagedNo).desc.lacks f = false) ∧
    (ver.forwards = true → (ver.bank ver.stagedNo).partnerVerified = true) :=
  ⟨by decide, by decide, by decide, by decide, by decide, by decide, by decide⟩
theorem witness_ProgramCommands_6 :
    (ver.forwards && ver.causewayLost) = false ∧ ver.admits (cm runStopDesc [2, 0, 0, 0]) runStopDesc = true ∧
    (byteAt (ver.payloadOf (cm runStopDesc [2, 0, 0, 0]) runStopDesc) 0 = 1 ∨ byteAt (ver.payloadOf (cm runStopDesc [2, 0, 0, 0]) runStopDesc) 0 = 2) :=
  ⟨by decide, by decide, by decide⟩

/-! ### `Obligations.LandingCommands`: states and operands that meet its hypotheses, clause by clause -/

theorem witness_LandingCommands_1 :
    im.admits wv writeVarsDesc = true ∧
    splitWrites (be16 (im.payloadOf wv writeVarsDesc) 0) (List.drop 4 (im.payloadOf wv writeVarsDesc)) = some wvParts ∧
    im.planWrites wvParts = Except.ok wvWords :=
  ⟨by decide, by decide, by decide⟩
theorem witness_LandingCommands_2 :
    symIm.admits fs forceSetDesc = true ∧ symIm.parseRef (symIm.payloadOf fs forceSetDesc) 0 = some dRef ∧ (∀ x ∈ dRef.items, mayForce x = true) ∧
    symIm.planForces [] (dRef.items.zip (packWords dRef.count (List.drop 8 (symIm.payloadOf fs forceSetDesc)))) = some fsPlan ∧
    (∀ (w : Switch), symIm.square.switch = some w → w.releaseForces = false → ∀ f ∈ fsPlan, (symIm.bank (b2n w.bank)).desc.lacks f = false) ∧
    (forcedWords (List.foldl setForce symIm.plannedForces fsPlan)).length ≤ 256 ∧ (symIm.forwards && symIm.causewayLost) = false :=
  ⟨by decide, by decide, by decide, by decide, by decide, by decide, by decide⟩
theorem witness_LandingCommands_3 :
    symIm.admits (cm forceReleaseDesc []) forceReleaseDesc = true ∧ (symIm.forwards && symIm.causewayLost) = false ∧
    symIm.payloadOf (cm forceReleaseDesc []) forceReleaseDesc = [] :=
  ⟨by decide, by decide, by decide⟩
theorem witness_LandingCommands_4 :
    symIm.admits (cm forceReleaseDesc (List.take 8 fs.payload)) forceReleaseDesc = true ∧ (symIm.forwards && symIm.causewayLost) = false ∧
    symIm.payloadOf (cm forceReleaseDesc (List.take 8 fs.payload)) forceReleaseDesc ≠ [] ∧
    symIm.parseRef (symIm.payloadOf (cm forceReleaseDesc (List.take 8 fs.payload)) forceReleaseDesc) 0 = some dRef :=
  ⟨by decide, by decide, by decide, by decide⟩
theorem witness_LandingCommands_5 :
    im.admits (cm loopEnableDesc [0, 7, 0, 0]) loopEnableDesc = true ∧ be16 (im.payloadOf (cm loopEnableDesc [0, 7, 0, 0]) loopEnableDesc) 0 ≤ 255 ∧
    (im.loopCtx (be16 (im.payloadOf (cm loopEnableDesc [0, 7, 0, 0]) loopEnableDesc) 0)).state ≠ LoopState.windDown :=
  ⟨by decide, by decide, by decide⟩
theorem witness_LandingCommands_6 :
    im.admits (cm loopDisableDesc [0, 7, 0, 0]) loopDisableDesc = true ∧
    be16 (im.payloadOf (cm loopDisableDesc [0, 7, 0, 0]) loopDisableDesc) 0 ≤ 255 :=
  ⟨by decide, by decide⟩
theorem witness_LandingCommands_7 :
    lostT.forwards = true ∧ lostT.causewayLost = true ∧ lostT.admits (cm forceReleaseDesc []) forceReleaseDesc = true :=
  ⟨by decide, by decide, by decide⟩

/-! ### `Obligations.SubscriptionRows`: states and operands that meet its hypotheses, clause by clause -/

theorem witness_SubscriptionRows_1 :
    sbed.admits (cm unsubscribeDesc [1, 0, 0, 0]) unsubscribeDesc = true ∧
    1 ≤ byteAt (sbed.payloadOf (cm unsubscribeDesc [1, 0, 0, 0]) unsubscribeDesc) 0 ∧
    byteAt (sbed.payloadOf (cm unsubscribeDesc [1, 0, 0, 0]) unsubscribeDesc) 0 ≤ 64 ∧
    Tab.get none sbed.sup.subs (byteAt (sbed.payloadOf (cm unsubscribeDesc [1, 0, 0, 0]) unsubscribeDesc) 0 - 1) = some sub1 :=
  ⟨by decide, by decide, by decide, by decide⟩
theorem witness_SubscriptionRows_2 :
    Tab.get none w20.sup.subs 0 = some sub1 ∧ sub1.leaseEnd ≤ w20.now :=
  ⟨by decide, by decide⟩
theorem witness_SubscriptionRows_3 :
    im.admits sb subscribeDesc = true ∧
    im.parseRefs (be16 (im.payloadOf sb subscribeDesc) 6) (List.drop 8 (im.payloadOf sb subscribeDesc)) = some [{ area := Area.D, isBit := false, count := 2, offset := 5 }] ∧
    byteAt (im.payloadOf sb subscribeDesc) 0 = 0 ∧ 1 ≤ be16 (im.payloadOf sb subscribeDesc) 2 ∧ 1 ≤ be16 (im.payloadOf sb subscribeDesc) 4 ∧
    be16 (im.payloadOf sb subscribeDesc) 4 ≤ 3600 ∧
    1 ≤ (List.flatMap VarRef.items [{ area := Area.D, isBit := false, count := 2, offset := 5 }]).length ∧
    (List.flatMap VarRef.items [{ area := Area.D, isBit := false, count := 2, offset := 5 }]).length ≤ 256 ∧
    (List.range 64).find? (fun k => (im.sup.subs.get none k).isNone) = some 0 ∧ im.hidesTotals ([dRef].flatMap VarRef.items) = false :=
  ⟨by decide, by decide, by decide, by decide, by decide, by decide, by decide, by decide, by decide, by decide⟩
theorem witness_SubscriptionRows_5 :
    subFull.admits sb subscribeDesc = true ∧
    subFull.parseRefs (be16 (subFull.payloadOf sb subscribeDesc) 6) (List.drop 8 (subFull.payloadOf sb subscribeDesc)) = some [dRef] ∧
    byteAt (subFull.payloadOf sb subscribeDesc) 0 = 0 ∧ ∀ k < 64, (subFull.sup.subs.get none k).isSome = true :=
  ⟨by decide, by decide, by decide, by decide⟩
theorem witness_SubscriptionRows_6 :
    sbed.admits sb1 subscribeDesc = true ∧
    sbed.parseRefs (be16 (sbed.payloadOf sb1 subscribeDesc) 6) (List.drop 8 (sbed.payloadOf sb1 subscribeDesc)) = some [dRef] ∧
    byteAt (sbed.payloadOf sb1 subscribeDesc) 0 = 1 ∧ 1 ≤ be16 (sbed.payloadOf sb1 subscribeDesc) 2 ∧ be16 (sbed.payloadOf sb1 subscribeDesc) 4 = 3600 ∧
    sbed.sup.subs.get none 0 = some sub1 ∧ sub1.ctx.origin = (sbed.ctxOf sb1 subscribeDesc).origin ∧ sub1.words = [dRef].flatMap VarRef.items ∧ sbed.hidesTotals ([dRef].flatMap VarRef.items) = false :=
  ⟨by decide, by decide, by decide, by decide, by decide, by decide, by decide, by decide, by decide⟩
theorem witness_SubscriptionRows_4 :
    Tab.get none sbed.sup.subs 0 = some sub1 ∧ sub1.due = true ∧ sbed.supAnswers = true ∧ sbed.pathDown sub1.ctx.port = false ∧ sbed.pair.state ≠ .stale ∧
    sbed.hidesTotals sub1.words = false :=
  ⟨by decide, by decide, by decide, by decide, by decide, by decide⟩

/-! ### `Obligations.EventRows`: states and operands that meet its hypotheses, clause by clause -/

theorem witness_EventRows_1 :
    im.admits (cm setPendingDesc [0, 64, 0, 0]) setPendingDesc = true ∧ be16 (im.payloadOf (cm setPendingDesc [0, 64, 0, 0]) setPendingDesc) 0 ≤ 511 ∧
    reservedSource (be16 (im.payloadOf (cm setPendingDesc [0, 64, 0, 0]) setPendingDesc) 0) = false :=
  ⟨by decide, by decide, by decide⟩
theorem witness_EventRows_2 :
    im.admits (cm eventSubscribeDesc [3, 0, 0, 60]) eventSubscribeDesc = true ∧
    byteAt (im.payloadOf (cm eventSubscribeDesc [3, 0, 0, 60]) eventSubscribeDesc) 0 ≤ 15 ∧
    1 ≤ be16 (im.payloadOf (cm eventSubscribeDesc [3, 0, 0, 60]) eventSubscribeDesc) 2 ∧
    be16 (im.payloadOf (cm eventSubscribeDesc [3, 0, 0, 60]) eventSubscribeDesc) 2 ≤ 3600 ∧
    (im.slot (byteAt (im.payloadOf (cm eventSubscribeDesc [3, 0, 0, 60]) eventSubscribeDesc) 0)).inUse = false :=
  ⟨by decide, by decide, by decide, by decide, by decide⟩
theorem witness_EventRows_3 :
    w21.round.firings = [(3, 77)] ∧ w21.runs 5 = true :=
  ⟨by decide, by decide⟩
theorem witness_EventRows_4 :
    (m1.group 4).ageFrom = some 0 ∧ m1.runs 5 = true ∧ bits (m1.cfg 528 4) 15 0 * 10000 ≤ m1.now - 0 :=
  ⟨by decide, by decide, by decide⟩
theorem witness_EventRows_5 :
    m2.runs 5 = true ∧ (m2.source 7).active = true ∧ (m2.source 7).blockPart = none :=
  ⟨by decide, by decide, by decide⟩
theorem witness_EventRows_6 :
    (m3.slot 2).inUse = true ∧ (m3.slot 2).leaseEnd ≤ m3.now :=
  ⟨by decide, by decide⟩
theorem witness_EventRows_7 :
    evs.supAnswers = true ∧ evs.pathDown Port.svc = false ∧ evs.eventTurn .svc = true ∧ firstNotice (evs.eventsOn .svc) = some ntc :=
  ⟨by decide, by decide, by decide, by decide⟩

/-! ### `Obligations.LoopRows`: states and operands that meet its hypotheses, clause by clause -/

theorem witness_LoopRows_1 :
    (im.forwards && im.causewayLost) = false ∧ im.service = Service.full ∧ im.loop.live = false ∧ (im.standby && im.pair.snapshot) = false :=
  ⟨by decide, by decide, by decide, by decide⟩
theorem witness_LoopRows_2 :
    (lv.forwards && lv.causewayLost) = false ∧ lv.service = Service.full ∧ lv.loop.live = true ∧ lv.runs 4 = true :=
  ⟨by decide, by decide, by decide, by decide⟩
theorem witness_LoopRows_3 :
    (im.forwards && im.causewayLost) = false ∧ im.admits lc loopWriteCoeffDesc = true ∧ be16 (im.payloadOf lc loopWriteCoeffDesc) 0 ≤ 255 ∧
    byteAt (im.payloadOf lc loopWriteCoeffDesc) 2 ≤ 7 ∧ byteAt (im.payloadOf lc loopWriteCoeffDesc) 3 ≤ 4 ∧
    byteAt (im.payloadOf lc loopWriteCoeffDesc) 8 ≤ 31 ∧ im.loopLaw (be16 (im.payloadOf lc loopWriteCoeffDesc) 0) = 0 ∧
    (im.loopCtx (be16 (im.payloadOf lc loopWriteCoeffDesc) 0)).queue.length < 8 ∧ im.down 4 = false :=
  ⟨by decide, by decide, by decide, by decide, by decide, by decide, by decide, by decide, by decide⟩
theorem witness_LoopRows_4 :
    (sec.forwards && sec.causewayLost) = false ∧ sec.admits lst loopStageDesc = true ∧ be16 (sec.payloadOf lst loopStageDesc) 0 ≤ 255 ∧
    1 ≤ byteAt (sec.payloadOf lst loopStageDesc) 2 ∧ byteAt (sec.payloadOf lst loopStageDesc) 2 ≤ 8 ∧
    byteAt (sec.payloadOf lst loopStageDesc) 2 ≤ sec.loopSections (be16 (sec.payloadOf lst loopStageDesc) 0) ∧
    sec.loopLaw (be16 (sec.payloadOf lst loopStageDesc) 0) = 0 ∧
    (∀ i < byteAt (sec.payloadOf lst loopStageDesc) 2, ∀ j < 5, byteAt (sec.payloadOf lst loopStageDesc) (4 + 28 * i + 20 + j) ≤ 31) :=
  ⟨by decide, by decide, by decide, by decide, by decide, by decide, by decide, by decide⟩
theorem witness_LoopRows_5 :
    (stgd.forwards && stgd.causewayLost) = false ∧ stgd.admits (cm loopCommitDesc [0, 7, 0, 0]) loopCommitDesc = true ∧
    be16 (stgd.payloadOf (cm loopCommitDesc [0, 7, 0, 0]) loopCommitDesc) 0 ≤ 255 ∧
    stgd.loopLaw (be16 (stgd.payloadOf (cm loopCommitDesc [0, 7, 0, 0]) loopCommitDesc) 0) = 0 ∧
    (stgd.loopCtx (be16 (stgd.payloadOf (cm loopCommitDesc [0, 7, 0, 0]) loopCommitDesc) 0)).staged ≠ [] ∧
    (stgd.loopCtx (be16 (stgd.payloadOf (cm loopCommitDesc [0, 7, 0, 0]) loopCommitDesc) 0)).queue.length < 8 ∧ stgd.down 4 = false :=
  ⟨by decide, by decide, by decide, by decide, by decide, by decide, by decide⟩
theorem witness_LoopRows_6 :
    (lvOff.forwards && lvOff.causewayLost) = false ∧ lvOff.service = Service.full ∧ lvOff.loop.live = true ∧ lvOff.runs 4 = false :=
  ⟨by decide, by decide, by decide, by decide⟩
theorem witness_LoopRows_7 :
    (lv7.forwards && lv7.causewayLost) = false ∧ lv7.service = Service.full ∧ lv7.loop.live = true ∧ lv7.runs 4 = true ∧
    lv7.loopOrder (lv7.loop.tick + 1) = [7] ∧ lv7.upsets = [] ∧ (∀ m < 256, (lv7.loopCtx m).sinkNew = false) :=
  ⟨by decide, by decide, by decide, by decide, by decide, by decide, by decide⟩
theorem witness_LoopRows_8 :
    (lvOff.forwards && lvOff.causewayLost) = false ∧ lvOff.admits lc loopWriteCoeffDesc = true ∧ be16 (lvOff.payloadOf lc loopWriteCoeffDesc) 0 ≤ 255 ∧
    byteAt (lvOff.payloadOf lc loopWriteCoeffDesc) 2 ≤ 7 ∧ byteAt (lvOff.payloadOf lc loopWriteCoeffDesc) 3 ≤ 4 ∧
    byteAt (lvOff.payloadOf lc loopWriteCoeffDesc) 8 ≤ 31 ∧ lvOff.loopLaw (be16 (lvOff.payloadOf lc loopWriteCoeffDesc) 0) = 0 ∧ lvOff.down 4 = true :=
  ⟨by decide, by decide, by decide, by decide, by decide, by decide, by decide, by decide⟩
theorem witness_LoopRows_9 :
    (synSnap.forwards && synSnap.causewayLost) = false ∧ synSnap.service = .full ∧ synSnap.loop.live = false ∧ synSnap.standby = true ∧
    synSnap.pair.snapshot = true :=
  ⟨by decide, by decide, by decide, by decide, by decide⟩

/-! ### `Obligations.ConfigurationWrites`: states and operands that meet its hypotheses, clause by clause -/

theorem witness_ConfigurationWrites_1 :
    (im.forwards && im.causewayLost) = false ∧ im.admits (wo 1024 0 16777216) writeObjectDesc = true ∧
    (im.admitted (wo 1024 0 16777216) writeObjectDesc).checkWrites (im.ctxOf (wo 1024 0 16777216) writeObjectDesc).roles (objWrites (im.payloadOf (wo 1024 0 16777216) writeObjectDesc)) = none :=
  ⟨by decide, by decide, by decide⟩
theorem witness_ConfigurationWrites_2 :
    (im.forwards && im.causewayLost) = false ∧ im.admits (wo 1024 4 300) writeObjectDesc = true ∧
    (im.admitted (wo 1024 4 300) writeObjectDesc).checkWrites (im.ctxOf (wo 1024 4 300) writeObjectDesc).roles (objWrites (im.payloadOf (wo 1024 4 300) writeObjectDesc)) = some (0, Status.outOfRange) :=
  ⟨by decide, by decide, by decide⟩
theorem witness_ConfigurationWrites_3 :
    (im.forwards && im.causewayLost) = false ∧ im.supAnswers = true ∧ im.standby = false ∧ im.power.warning = none ∧
    im.checkWrites 15 [{ index := 1792 + 5, sub := 1, rest := 0, value := 12 }] = none ∧ im.forwards = false ∧ im.service ≠ Service.outOfService ∧ (im.total 5).close = [] :=
  ⟨by decide, by decide, by decide, by decide, by decide, by decide, by decide, by decide⟩
theorem witness_ConfigurationWrites_4 :
    ((ucIn UcState.run).forwards && (ucIn UcState.run).causewayLost) = false ∧
    (ucIn UcState.run).admits (chm [0, 2, 0, 0, 1, 0, 0, 0]) channelModeDesc = true ∧
    byteAt ((ucIn UcState.run).payloadOf (chm [0, 2, 0, 0, 1, 0, 0, 0]) channelModeDesc) 0 ≤ 31 ∧
    byteAt ((ucIn UcState.run).payloadOf (chm [0, 2, 0, 0, 1, 0, 0, 0]) channelModeDesc) 4 ≤ 15 ∧
    ((ucIn UcState.run).admitted (chm [0, 2, 0, 0, 1, 0, 0, 0]) channelModeDesc).checkWrites ((ucIn UcState.run).ctxOf (chm [0, 2, 0, 0, 1, 0, 0, 0]) channelModeDesc).roles [{ index := 1024 + byteAt ((ucIn UcState.run).payloadOf (chm [0, 2, 0, 0, 1, 0, 0, 0]) channelModeDesc) 0, sub := 0, rest := 0, value := modeWord ((ucIn UcState.run).payloadOf (chm [0, 2, 0, 0, 1, 0, 0, 0]) channelModeDesc) }] = none ∧
    ((ucIn UcState.run).uc (byteAt ((ucIn UcState.run).payloadOf (chm [0, 2, 0, 0, 1, 0, 0, 0]) channelModeDesc) 0)).state = UcState.run ∧
    ucFullChange ((ucIn UcState.run).plannedWord (1024 + byteAt ((ucIn UcState.run).payloadOf (chm [0, 2, 0, 0, 1, 0, 0, 0]) channelModeDesc) 0) 0) (modeWord ((ucIn UcState.run).payloadOf (chm [0, 2, 0, 0, 1, 0, 0, 0]) channelModeDesc)) = true :=
  ⟨by decide, by decide, by decide, by decide, by decide, by decide, by decide⟩
theorem witness_ConfigurationWrites_5 :
    ((ucIn UcState.run).forwards && (ucIn UcState.run).causewayLost) = false ∧
    (ucIn UcState.run).admits (chm [0, 1, 0, 0, 1, 0, 0, 0]) channelModeDesc = true ∧
    byteAt ((ucIn UcState.run).payloadOf (chm [0, 1, 0, 0, 1, 0, 0, 0]) channelModeDesc) 0 ≤ 31 ∧
    byteAt ((ucIn UcState.run).payloadOf (chm [0, 1, 0, 0, 1, 0, 0, 0]) channelModeDesc) 4 ≤ 15 ∧
    ((ucIn UcState.run).admitted (chm [0, 1, 0, 0, 1, 0, 0, 0]) channelModeDesc).checkWrites ((ucIn UcState.run).ctxOf (chm [0, 1, 0, 0, 1, 0, 0, 0]) channelModeDesc).roles [{ index := 1024 + byteAt ((ucIn UcState.run).payloadOf (chm [0, 1, 0, 0, 1, 0, 0, 0]) channelModeDesc) 0, sub := 0, rest := 0, value := modeWord ((ucIn UcState.run).payloadOf (chm [0, 1, 0, 0, 1, 0, 0, 0]) channelModeDesc) }] = none ∧
    ((ucIn UcState.run).uc (byteAt ((ucIn UcState.run).payloadOf (chm [0, 1, 0, 0, 1, 0, 0, 0]) channelModeDesc) 0)).state = UcState.run ∧
    ucFullChange ((ucIn UcState.run).plannedWord (1024 + byteAt ((ucIn UcState.run).payloadOf (chm [0, 1, 0, 0, 1, 0, 0, 0]) channelModeDesc) 0) 0) (modeWord ((ucIn UcState.run).payloadOf (chm [0, 1, 0, 0, 1, 0, 0, 0]) channelModeDesc)) = false :=
  ⟨by decide, by decide, by decide, by decide, by decide, by decide, by decide⟩
theorem witness_ConfigurationWrites_6 :
    ((ucIn UcState.shuttingDown).forwards && (ucIn UcState.shuttingDown).causewayLost) = false ∧
    (ucIn UcState.shuttingDown).admits (chm [0, 1, 0, 0, 1, 0, 0, 0]) channelModeDesc = true ∧
    byteAt ((ucIn UcState.shuttingDown).payloadOf (chm [0, 1, 0, 0, 1, 0, 0, 0]) channelModeDesc) 0 ≤ 31 ∧
    byteAt ((ucIn UcState.shuttingDown).payloadOf (chm [0, 1, 0, 0, 1, 0, 0, 0]) channelModeDesc) 4 ≤ 15 ∧
    ((ucIn UcState.shuttingDown).admitted (chm [0, 1, 0, 0, 1, 0, 0, 0]) channelModeDesc).checkWrites ((ucIn UcState.shuttingDown).ctxOf (chm [0, 1, 0, 0, 1, 0, 0, 0]) channelModeDesc).roles [{ index := 1024 + byteAt ((ucIn UcState.shuttingDown).payloadOf (chm [0, 1, 0, 0, 1, 0, 0, 0]) channelModeDesc) 0, sub := 0, rest := 0, value := modeWord ((ucIn UcState.shuttingDown).payloadOf (chm [0, 1, 0, 0, 1, 0, 0, 0]) channelModeDesc) }] = none ∧
    ((ucIn UcState.shuttingDown).uc (byteAt ((ucIn UcState.shuttingDown).payloadOf (chm [0, 1, 0, 0, 1, 0, 0, 0]) channelModeDesc) 0)).state = UcState.shuttingDown :=
  ⟨by decide, by decide, by decide, by decide, by decide, by decide⟩
theorem witness_ConfigurationWrites_7 :
    (im.forwards && im.causewayLost) = false ∧ im.supAnswers = true ∧ im.standby = false ∧ im.power.warning = none ∧
    im.checkWrites 15 [{ index := 257, sub := 1, rest := 0, value := 300 }] = none ∧ objSpec (257) (1) = some w101 ∧ w101.timing = Timing.boundary ∧
    w101.restartMask = 0 ∧ w101.mask ≠ 0 ∧ im.forwards = false ∧ im.service = Service.full ∧ ¬(1024 ≤ 257 ∧ 257 ≤ 1055) ∧ ¬(2176 ≤ 257 ∧
    257 ≤ 2178) :=
  ⟨by decide, by decide, by decide, by decide, by decide, rfl, by decide, by decide, by decide, by decide, by decide, by decide, by decide⟩
theorem witness_ConfigurationWrites_8 :
    (clsd.forwards && clsd.causewayLost) = false ∧ clsd.supAnswers = true ∧ clsd.standby = false ∧ clsd.power.warning = none ∧
    clsd.checkWrites 15 [{ index := 1792 + 5, sub := 1, rest := 0, value := 12 }] = none ∧ clsd.forwards = false ∧
    clsd.service ≠ Service.outOfService ∧ (clsd.total 5).close = [{ ctx := none, close := true, config := [], boundary := none }] :=
  ⟨by decide, by decide, by decide, by decide, by decide, by decide, by decide, by decide⟩

/-! ### `Obligations.ChannelRows`: states and operands that meet its hypotheses, clause by clause -/

theorem witness_ChannelRows_1 :
    (ucIn UcState.settling).runs 7 = true ∧ ((ucIn UcState.settling).uc 0).state = UcState.settling ∧ 1 < ((ucIn UcState.settling).uc 0).settleLeft :=
  ⟨by decide, by decide, by decide⟩
theorem witness_ChannelRows_2 :
    (ucIn UcState.run).runs 7 = true ∧ ((ucIn UcState.run).uc 0).state = UcState.run ∧ ucOutput (ucMode ((ucIn UcState.run).ucWorks 0)) = false :=
  ⟨by decide, by decide, by decide⟩
theorem witness_ChannelRows_3 :
    ((ucIn UcState.starting).uc 0).state = UcState.starting :=
  by decide
theorem witness_ChannelRows_4 :
    ((ucIn UcState.shuttingDown).uc 0).state = UcState.shuttingDown ∧ ((ucIn UcState.shuttingDown).uc 0).deferred = [] :=
  ⟨by decide, by decide⟩
theorem witness_ChannelRows_5 :
    ((ucIn UcState.run).uc 0).state ≠ UcState.off ∧ 25499 < 25500 :=
  ⟨by decide, by decide⟩
theorem witness_ChannelRows_6 :
    (ucOv.uc 0).overload = true ∧ 27000 < 27001 :=
  ⟨by decide, by decide⟩

/-! ### `Obligations.HartRows`: states and operands that meet its hypotheses, clause by clause -/

theorem witness_HartRows_1 :
    hart.admits ht hartTransactDesc = true ∧ byteAt (hart.payloadOf ht hartTransactDesc) 0 ≤ 31 ∧
    hart.hartReady (byteAt (hart.payloadOf ht hartTransactDesc) 0) = true ∧
    hart.hartAddress (byteAt (hart.payloadOf ht hartTransactDesc) 0) (byteAt (hart.payloadOf ht hartTransactDesc) 1) (hart.payloadOf ht hartTransactDesc) = Except.ok (38, 5) ∧
    (hart.uc (byteAt (hart.payloadOf ht hartTransactDesc) 0)).jobs.length < 5 :=
  ⟨by decide, by decide, by decide, by decide, by decide⟩
theorem witness_HartRows_2 :
    (hart.uc 0).jobs = [default] :=
  by decide
theorem witness_HartRows_3 :
    (hart.uc 0).jobs = [default] :=
  by decide
theorem witness_HartRows_4 :
    (hart.uc 0).scanning = true ∧ scan1.length ≤ 6 :=
  ⟨by decide, by decide⟩
theorem witness_HartRows_5 :
    hart.hartReady 0 = true ∧ bit (hart.cfg (1024 + 0) 8) 28 = true :=
  ⟨by decide, by decide⟩
theorem witness_HartRows_6 :
    hart.hartReady 0 = true :=
  by decide

/-! ### `Obligations.CanPortRows`: states and operands that meet its hypotheses, clause by clause -/

theorem witness_CanPortRows_1 :
    (canIn CanState.disabled).admits (cm canEnableDesc [0, 1, 0, 0]) canEnableDesc = true ∧
    byteAt ((canIn CanState.disabled).payloadOf (cm canEnableDesc [0, 1, 0, 0]) canEnableDesc) 0 ≤ 1 ∧
    byteAt ((canIn CanState.disabled).payloadOf (cm canEnableDesc [0, 1, 0, 0]) canEnableDesc) 1 = 1 ∧
    ((canIn CanState.disabled).can (byteAt ((canIn CanState.disabled).payloadOf (cm canEnableDesc [0, 1, 0, 0]) canEnableDesc) 0)).state = CanState.disabled ∧
    ((canIn CanState.disabled).forwards && (canIn CanState.disabled).causewayLost) = false :=
  ⟨by decide, by decide, by decide, by decide, by decide⟩
theorem witness_CanPortRows_2 :
    (canIn CanState.busOff).admits (cm canRecoverDesc [0, 1, 0, 0]) canRecoverDesc = true ∧
    byteAt ((canIn CanState.busOff).payloadOf (cm canRecoverDesc [0, 1, 0, 0]) canRecoverDesc) 0 ≤ 1 ∧
    ((canIn CanState.busOff).can (byteAt ((canIn CanState.busOff).payloadOf (cm canRecoverDesc [0, 1, 0, 0]) canRecoverDesc) 0)).state = CanState.busOff :=
  ⟨by decide, by decide, by decide⟩
theorem witness_CanPortRows_3 :
    (canIn CanState.errorActive).admits (cm canSendDesc [0, 0, 2, 0, 0, 0, 1, 0, 9, 8]) canSendDesc = true ∧
    byteAt ((canIn CanState.errorActive).payloadOf (cm canSendDesc [0, 0, 2, 0, 0, 0, 1, 0, 9, 8]) canSendDesc) 0 ≤ 1 ∧
    byteAt ((canIn CanState.errorActive).payloadOf (cm canSendDesc [0, 0, 2, 0, 0, 0, 1, 0, 9, 8]) canSendDesc) 1 = 0 ∧
    byteAt ((canIn CanState.errorActive).payloadOf (cm canSendDesc [0, 0, 2, 0, 0, 0, 1, 0, 9, 8]) canSendDesc) 2 ≤ 8 ∧
    be32 ((canIn CanState.errorActive).payloadOf (cm canSendDesc [0, 0, 2, 0, 0, 0, 1, 0, 9, 8]) canSendDesc) 4 < 2 ^ 11 ∧
    ((canIn CanState.errorActive).payloadOf (cm canSendDesc [0, 0, 2, 0, 0, 0, 1, 0, 9, 8]) canSendDesc).length = 8 + byteAt ((canIn CanState.errorActive).payloadOf (cm canSendDesc [0, 0, 2, 0, 0, 0, 1, 0, 9, 8]) canSendDesc) 2 ∧
    ((canIn CanState.errorActive).can (byteAt ((canIn CanState.errorActive).payloadOf (cm canSendDesc [0, 0, 2, 0, 0, 0, 1, 0, 9, 8]) canSendDesc) 0)).state ≠ CanState.disabled ∧
    ((canIn CanState.errorActive).can (byteAt ((canIn CanState.errorActive).payloadOf (cm canSendDesc [0, 0, 2, 0, 0, 0, 1, 0, 9, 8]) canSendDesc) 0)).state ≠ CanState.shuttingDown ∧
    ((canIn CanState.errorActive).can (byteAt ((canIn CanState.errorActive).payloadOf (cm canSendDesc [0, 0, 2, 0, 0, 0, 1, 0, 9, 8]) canSendDesc) 0)).queue.length < 32 :=
  ⟨by decide, by decide, by decide, by decide, by decide, by decide, by decide, by decide, by decide⟩
theorem witness_CanPortRows_4 :
    (canIn CanState.errorActive).canRuns 0 = true ∧ ((canIn CanState.errorActive).can 0).active = true ∧
    ((CanRxError.plain = .plain ∧ ((canIn CanState.errorActive).can 0).tec ≤ 255) ∨ ((canIn CanState.errorActive).can 0).tx = none) :=
  ⟨by decide, by decide, by decide⟩
theorem witness_CanPortRows_5 :
    ((canIn CanState.integrating).can 0).state = CanState.integrating ∧ (canIn CanState.integrating).canRuns 0 = true :=
  ⟨by decide, by decide⟩
theorem witness_CanPortRows_6 :
    ((canIn CanState.recovering).can 0).state = CanState.recovering ∧ (canIn CanState.recovering).canRuns 0 = true ∧
    ((canIn CanState.recovering).can 0).disablePending = false :=
  ⟨by decide, by decide, by decide⟩
theorem witness_CanPortRows_7 :
    ((canIn CanState.shuttingDown).can 0).state = CanState.shuttingDown ∧ ((canIn CanState.shuttingDown).can 0).tx = none ∧
    ((canIn CanState.shuttingDown).can 0).enablePending = false :=
  ⟨by decide, by decide, by decide⟩
theorem witness_CanPortRows_8 :
    (m4.can 0).state = CanState.shuttingDown ∧ (m4.can 0).tx = none ∧ (m4.can 0).enablePending = true :=
  ⟨by decide, by decide, by decide⟩
theorem witness_CanPortRows_9 :
    sending.canRuns 0 = true ∧ (sending.can 0).active = true ∧ (sending.can 0).tx = some (.queued, frame2) :=
  ⟨by decide, by decide, by decide⟩
theorem witness_CanPortRows_10 :
    canCold.admits (cm canEnableDesc [0, 1, 0, 0]) canEnableDesc = true ∧ byteAt (canCold.payloadOf (cm canEnableDesc [0, 1, 0, 0]) canEnableDesc) 1 = 1 ∧
    (canCold.can 0).state = .disabled ∧ (canCold.forwards && canCold.causewayLost) = false ∧ canCold.domainOn 9 = false :=
  ⟨by decide, by decide, by decide, by decide, by decide⟩
theorem witness_CanPortRows_11 :
    pairC.admits (cm canEnableDesc [0, 1, 0, 0]) canEnableDesc = true ∧
    byteAt (pairC.payloadOf (cm canEnableDesc [0, 1, 0, 0]) canEnableDesc) 1 = 1 ∧ (pairC.can 0).state = .disabled ∧
    (pairC.forwards && pairC.causewayLost) = false ∧ pairC.forwards = true :=
  ⟨by decide, by decide, by decide, by decide, by decide⟩

/-! ### `Obligations.CanFrameRows`: states and operands that meet its hypotheses, clause by clause -/

theorem witness_CanFrameRows_1 :
    (canIn CanState.errorActive).canRuns 0 = true ∧ ((canIn CanState.errorActive).can 0).active = true ∧
    (frame2.fdf = true → (canIn CanState.errorActive).canFd 0 = true) ∧ ((canIn CanState.errorActive).can 0).rec_ = 0 ∧ frame2.rtr = false ∧
    (canIn CanState.errorActive).inputOf 0 frame2 1 = none ∧ (canIn CanState.errorActive).inputOf 0 frame2 2 = none ∧
    (∀ i < 32, (canIn CanState.errorActive).inKind i ≠ 5) :=
  ⟨by decide, by decide, by decide, by decide, by decide, by decide, by decide, by decide⟩
theorem witness_CanFrameRows_2 :
    (sending.can 0).tx = some (TxJob.queued, frame2) ∧ sending.canRuns 0 = true :=
  ⟨by decide, by decide⟩
theorem witness_CanFrameRows_3 :
    m5.canSends 0 = true ∧ (m5.can 0).tx = none ∧ (m5.can 0).refWait = none ∧ (m5.can 0).winWait = [] ∧ (m5.can 0).emergency = [] ∧
    (m5.can 0).queue = [frame2] ∧ m5.service = Service.full ∧ m5.canSchedule 0 = 0 :=
  ⟨by decide, by decide, by decide, by decide, by decide, by decide, by decide, by decide⟩
theorem witness_CanFrameRows_4 :
    cw.windowStart 0 0 = some 4999900000 ∧ cw.windowEnd 0 0 = some 5000400000 ∧ cw.service = Service.full ∧ cw.canSends 0 = true ∧
    cw.canSchedule 0 ≠ 0 ∧ 4999900000 ≤ cw.now ∧ cw.now < 5000400000 ∧ (cw.can 0).served.contains 0 = false ∧
    cellKind (cw.cellWord 0 (cw.can 0).row 0) = 1 ∧ cellContent (cw.cellWord 0 (cw.can 0).row 0) = 0 ∧
    cw.slotFrame 0 (cellSlot (cw.cellWord 0 (cw.can 0).row 0)) [] = some w22 ∧ cw.quiet = true ∧ (cw.can 0).building = none :=
  ⟨by decide, by decide, by decide, by decide, by decide, by decide, by decide, by decide, by decide, by decide, by decide, by decide, by decide⟩
theorem witness_CanFrameRows_5 :
    m6.service = Service.full ∧ m6.canSchedule 0 = 1 ∧ m6.canSends 0 = true ∧ (m6.can 0).refWait = none ∧ (m6.can 0).tx = none ∧
    (m6.can 0).tIn = none ∧ (m6.can 0).gap = false :=
  ⟨by decide, by decide, by decide, by decide, by decide, by decide, by decide⟩
theorem witness_CanFrameRows_6 : (sending.can 0).tx.isSome = true := by decide
theorem witness_CanFrameRows_7 : (cw.can 0).tx = none ∧ cw.now + cw.frameUsOf 0 w22 * 1000 ≤ 5000400000 := ⟨by decide, by decide⟩

/-! ### `Obligations.DigitalFieldRows`: states and operands that meet its hypotheses, clause by clause -/

theorem witness_DigitalFieldRows_1 :
    dig.diEnable 0 = true ∧ (dig.diGroup (0 / 8)).lost = false ∧ (dig.di 0).countLevel ≠ some true ∧
    (dig.di 0).countFrom + dig.countFilterNs 0 ≤ 4000000000 ∧ (if true = true then dig.diCountEdge 0 % 2 = 1 else 2 ≤ dig.diCountEdge 0) ∧
    dig.diThreshold 0 = 0 :=
  ⟨by decide, by decide, by decide, by decide, by decide, by decide⟩
theorem witness_DigitalFieldRows_2 :
    dig.diEnable 0 = true ∧ dig.diWireEn 0 = true ∧ (dig.di 0).wireBreak = false ∧ (dig.diGroup (0 / 8)).lost = false :=
  ⟨by decide, by decide, by decide, by decide⟩
theorem witness_DigitalFieldRows_3 :
    (m7.di 0).wireBreak = true ∧ (m7.diGroup (0 / 8)).lost = false :=
  ⟨by decide, by decide⟩
theorem witness_DigitalFieldRows_4 :
    2 < groupCount GroupKind.di ∧ 19200 ≤ 21000 :=
  ⟨by decide, by decide⟩
theorem witness_DigitalFieldRows_5 :
    2 < groupCount GroupKind.do_ ∧ 15000 ≤ 17500 ∧ 17500 < 19200 ∧ 1 ≤ (d1.dGroup GroupKind.do_ 2).below ∧ (d1.dGroup GroupKind.do_ 2).sag = false :=
  ⟨by decide, by decide, by decide, by decide, by decide⟩
theorem witness_DigitalFieldRows_6 :
    2 < groupCount GroupKind.do_ ∧ (d2.dGroup GroupKind.do_ 2).sag = true :=
  ⟨by decide, by decide⟩
theorem witness_DigitalFieldRows_7 :
    (dig.doGroup 2).overcurrent = false :=
  by decide
theorem witness_DigitalFieldRows_8 :
    (m8.doGroup 2).overcurrent = true :=
  by decide
theorem witness_DigitalFieldRows_9 :
    dig.diEnable 0 = true ∧ (dig.di 0).level ≠ true ∧ dig.runs 8 = true ∧ (dig.di 0).filterFrom ≤ 4000000000 ∧
    4000000000 + dig.filterNs 0 ≤ dig.now :=
  ⟨by decide, by decide, by decide, by decide, by decide⟩
theorem witness_DigitalFieldRows_10 :
    (dig.doGroup 2).lost = false :=
  by decide
theorem witness_DigitalFieldRows_11 : dig.now < 5000000000 + dig.filterNs 0 := by decide
theorem witness_DigitalFieldRows_12 : 9 < (diRun.di 0).filterFrom := by decide
theorem witness_DigitalFieldRows_13 :
    diRun.diEnable 0 = true ∧ (diRun.diGroup (0 / 8)).lost = false ∧ (diRun.di 0).countLevel ≠ some false ∧
    (diRun.di 0).countFrom + diRun.countFilterNs 0 ≤ 4000000000 ∧ (if false = true then diRun.diCountEdge 0 % 2 ≠ 1 else diRun.diCountEdge 0 < 2) :=
  ⟨by decide, by decide, by decide, by decide, by decide⟩
theorem witness_DigitalFieldRows_14 : (diRun.di 0).countLevel = some true := by decide
theorem witness_DigitalFieldRows_15 : 9 < (diRun.di 0).countFrom + diRun.countFilterNs 0 := by decide

/-! ### `Obligations.OutputProtectionRows`: states and operands that meet its hypotheses, clause by clause -/

theorem witness_OutputProtectionRows_1 :
    (dn.do_ 5).onSince = some 5 ∧ 5 + 1000000000 ≤ dn.now ∧ (dn.do_ 5).driven = true ∧ (dn.do_ 5).overload = true ∧ (dn.do_ 5).thermal = false :=
  ⟨by decide, by decide, by decide, by decide, by decide⟩
theorem witness_OutputProtectionRows_2 :
    dol.doOpenEn 5 = true ∧ (dol.do_ 5).driven = true ∧ (dol.do_ 5).openLoad = false :=
  ⟨by decide, by decide, by decide⟩
theorem witness_OutputProtectionRows_3 :
    (m9.do_ 5).openLoad = true ∧ (m9.do_ 5).driven = true :=
  ⟨by decide, by decide⟩
theorem witness_OutputProtectionRows_4 :
    (dig.do_ 5).driven = false ∧ (dig.do_ 5).short = false ∧ dig.extDrive 5 = false :=
  ⟨by decide, by decide, by decide⟩
theorem witness_OutputProtectionRows_5 :
    (m10.do_ 5).driven = false ∧ (m10.do_ 5).short = true :=
  ⟨by decide, by decide⟩
theorem witness_OutputProtectionRows_8 :
    extD.extDrive 5 = true :=
  by decide
theorem witness_OutputProtectionRows_6 :
    (dn.do_ 5).driven = true :=
  by decide
theorem witness_OutputProtectionRows_7 :
    (dn.do_ 5).driven = true :=
  by decide
theorem witness_OutputProtectionRows_9 :
    (dn.do_ 5).short = false :=
  by decide

/-! ### `Obligations.OutputHoldRows`: states and operands that meet its hypotheses, clause by clause -/

theorem witness_OutputHoldRows_1 :
    dig.admits oa outputAckDesc = true ∧ byteAt (dig.payloadOf oa outputAckDesc) 0 ≤ 3 ∧ dig.forwards = false :=
  ⟨by decide, by decide, by decide⟩
theorem witness_OutputHoldRows_2 :
    prD.admits oa outputAckDesc = true ∧ byteAt (prD.payloadOf oa outputAckDesc) 0 ≤ 3 ∧ prD.forwards = true ∧ prD.causewayLost = false :=
  ⟨by decide, by decide, by decide, by decide⟩
theorem witness_OutputHoldRows_3 :
    w26.pair.holdUntil = some 5 ∧ 5 ≤ w26.now :=
  ⟨by decide, by decide⟩
theorem witness_OutputHoldRows_4 :
    sideS.beforeFirstApply = true ∧ sideS.dueEvery sideS.power.refreshedAt 1000000 = true :=
  ⟨by decide, by decide⟩
theorem witness_OutputHoldRows_5 :
    heldS.pair.holdUntil = some 5 ∧ 5 ≤ heldS.now ∧ (heldS.do_ 0).held = true :=
  ⟨by decide, by decide, by decide⟩
theorem witness_OutputHoldRows_6 :
    im.beforeFirstApply = true ∧ im.dueEvery im.power.refreshedAt 1000000 = true :=
  ⟨by decide, by decide⟩
theorem witness_OutputHoldRows_7 :
    freshS.dueEvery freshS.power.refreshedAt 1000000 = false :=
  by decide

/-! ### `Obligations.FireCommands`: states and operands that meet its hypotheses, clause by clause -/

theorem witness_FireCommands_1 :
    dig.admits (cm fireResetDesc [0, 3, 0, 0]) fireResetDesc = true :=
  by decide
theorem witness_FireCommands_2 :
    dig.admits fa fireArmDesc = true ∧ dig.stagedCrc = beWord (dig.payloadOf fa fireArmDesc) 0 ∧ dig.fireSetSound dig.stagedWord = true :=
  ⟨by decide, by rw [payload_fa]; exact (beWord_wordBe _ _).symm, by decide⟩
theorem witness_FireCommands_3 :
    ar.admits fc fireConfirmDesc = true ∧ ar.fire.arm = some armed ∧ armed.crc = beWord (ar.payloadOf fc fireConfirmDesc) 0 ∧
    armed.token.toNat = be16 (ar.payloadOf fc fireConfirmDesc) 4 ∧ armed.origin = (ar.ctxOf fc fireConfirmDesc).origin ∧
    armed.keyslot = (ar.ctxOf fc fireConfirmDesc).keyslot ∧ ar.now ≤ armed.at_ + 60000000000 ∧ (∀ f < 16, (ar.fireFn f).tripped = false ∧
    (ar.fireFn f).latched = false ∧ (ar.fireFn f).resetPending = false) ∧ ar.forwards = false ∧ ar.service = Service.full :=
  ⟨by decide, rfl, by rw [payload_fc]; exact (beWord_wordBe _ _).symm, by decide, by decide, by decide, by decide, by decide, by decide, by decide⟩
theorem witness_FireCommands_4 :
    w23.admits fc fireConfirmDesc = true ∧ w23.fire.arm = some armed ∧ armed.crc = beWord (w23.payloadOf fc fireConfirmDesc) 0 ∧
    armed.token.toNat = be16 (w23.payloadOf fc fireConfirmDesc) 4 ∧ armed.origin = (w23.ctxOf fc fireConfirmDesc).origin ∧
    armed.keyslot = (w23.ctxOf fc fireConfirmDesc).keyslot ∧ w23.now ≤ armed.at_ + 60000000000 ∧ (∀ f < 16, (w23.fireFn f).tripped = false ∧
    (w23.fireFn f).latched = false ∧ (w23.fireFn f).resetPending = false) ∧ w23.forwards = false ∧ w23.service ≠ Service.full :=
  ⟨by decide, rfl, by rw [payload_fc_side]; exact (beWord_wordBe _ _).symm, by decide, by decide, by decide, by decide, by decide, by decide,
    by decide⟩
theorem witness_FireCommands_5 :
    w24.fire.arm = some armed ∧ armed.at_ + 60000000000 ≤ w24.now :=
  ⟨rfl, by decide⟩
theorem witness_FireCommands_6 :
    dig.admits fload fireLoadDesc = true ∧ ∀ k < 192, stagedOk k ((packWords 192 (dig.payloadOf fload fireLoadDesc)).getD k 0) = true :=
  ⟨by decide, by decide⟩
theorem witness_FireCommands_7 :
    dig.admits floadBad fireLoadDesc = true ∧ ∃ k < 192, stagedOk k ((packWords 192 (dig.payloadOf floadBad fireLoadDesc)).getD k 0) = false :=
  ⟨by decide, ⟨0, by decide, by decide⟩⟩

/-! ### `Obligations.FireRows`: states and operands that meet its hypotheses, clause by clause -/

theorem witness_FireRows_1 :
    w25.fire.inbox = [FireMsg.di 0 true false false false] ∧ w25.fireRuns = true :=
  ⟨by decide, by decide⟩
theorem witness_FireRows_2 :
    dig.fireRuns = true :=
  by decide
theorem witness_FireRows_3 :
    (tripped.fireFn 0).tripped = true ∧ (tripped.fireFn 0).done = false ∧ (∀ o ∈ tripped.fnOuts 0, tripped.outReached o = true) ∧
    (tripped.fireFn 0).resetPending = false ∧ tripped.fnLatch 0 = true ∧ tripped.fireRuns = true :=
  ⟨by decide, by decide, by decide, by decide, by decide, by decide⟩
theorem witness_FireRows_4 :
    lateTrip.fireRuns = true ∧ lateTrip.outTripped 0 = true ∧ lateTrip.outReached 0 = false ∧
    (lateTrip.fireOut 0).since + 100000000 ≤ lateTrip.now :=
  ⟨by decide, by decide, by decide, by decide⟩
theorem witness_FireRows_5 :
    frameTrip.outTripped 0 = true ∧ (frameTrip.outKind 0 = 3 ∨ frameTrip.outKind 0 = 4) ∧ 0 < bits (frameTrip.outWord 0 0) 15 0 ∧
    (frameTrip.fireOut 0).sentAt + bits (frameTrip.outWord 0 0) 15 0 * 1000000 ≤ frameTrip.now ∧ frameTrip.fireRuns = true :=
  ⟨by decide, by decide, by decide, by decide, by decide⟩

/-! ### `Obligations.TotalRows`: states and operands that meet its hypotheses, clause by clause -/

theorem witness_TotalRows_1 :
    im.admits tc totalCloseDesc = true ∧ byteAt (im.payloadOf tc totalCloseDesc) 0 ≤ 63 ∧
    (im.total (byteAt (im.payloadOf tc totalCloseDesc) 0)).close = [] ∧ im.forwards = false ∧ im.service ≠ Service.outOfService :=
  ⟨by decide, by decide, by decide, by decide, by decide⟩
theorem witness_TotalRows_2 :
    pairT.admits tc totalCloseDesc = true ∧ byteAt (pairT.payloadOf tc totalCloseDesc) 0 ≤ 63 ∧
    (pairT.total (byteAt (pairT.payloadOf tc totalCloseDesc) 0)).close = [] ∧ pairT.forwards = true ∧ pairT.causewayLost = false :=
  ⟨by decide, by decide, by decide, by decide, by decide⟩
theorem witness_TotalRows_3 :
    w27.service = Service.sideStreet ∧ w27.dueEvery w27.power.totalsAt 100000000 = true :=
  ⟨by decide, by decide⟩
theorem witness_TotalRows_4 :
    ti.service ≠ Service.off ∧ ti.service ≠ Service.halted ∧ ti.square.boundaryNo < ti.now / 10000 :=
  ⟨by decide, by decide, by decide⟩
theorem witness_TotalRows_5 :
    totKind (ti.totCfg 0) = .integrator ∧ totTerm (ti.totCfg 0) (ti.totCoeff 0) ((List.range 32).map ti.ucMeter) = some 231 ∧
    totKind (ti.totCfg 1) = .product ∧ totTerm (ti.totCfg 1) (ti.totCoeff 1) ((List.range 32).map ti.ucMeter) = none :=
  ⟨by decide, by decide, by decide, by decide⟩
theorem witness_TotalRows_6 :
    metered.now / 10000 ≤ metered.square.boundaryNo :=
  by decide
theorem witness_TotalRows_7 :
    totKind (pulseT.totCfg 0) = .pulse ∧ (pulseT.diGroup (totRefA (pulseT.totCfg 0) / 8)).lost = false ∧
    pulseT.square.boundaryNo < pulseT.now / 10000 :=
  ⟨by decide, by decide, by decide⟩
theorem witness_TotalRows_8 :
    totKind (pulseLost.totCfg 0) = .pulse ∧ (pulseLost.diGroup (totRefA (pulseLost.totCfg 0) / 8)).lost = true ∧
    pulseLost.square.boundaryNo < pulseLost.now / 10000 :=
  ⟨by decide, by decide, by decide⟩

/-! ### `Obligations.MemoryRows`: states and operands that meet its hypotheses, clause by clause -/

theorem witness_MemoryRows_1 :
    (List.find? (fun x => x.array == 1) lk.locks = some { array := 1, page := 3 }) ∧ repairable [5, 6] 1 = true ∧ (∀ u ∈ lk.upsets, u.array ≠ 1 ∨ u.page ≠ 3) :=
  ⟨by decide, by decide, by decide⟩
theorem witness_MemoryRows_2 :
    (bk.arr 2).bucket ≠ 0 ∧ (bk.arr 2).leakFrom + bk.bucketLeakNs 2 ≤ bk.now :=
  ⟨by decide, by decide⟩
theorem witness_MemoryRows_3 :
    bk.scrubs 2 = true ∧ bk.locked 2 512 = false ∧ (bk.arr 2).scrubbed ≤ dataPlace 512 ∧ bk.passAt 2 (dataPlace 512) ≤ bk.now ∧ bk.upsets = [] :=
  ⟨by decide, by decide, by decide, by decide, by decide⟩
theorem witness_MemoryRows_4 :
    bkLate.scrubs 2 = true ∧ bkLate.passAt 2 (storedBytes 2) ≤ bkLate.now ∧ bkLate.upsets = [] :=
  ⟨by decide, by decide, by decide⟩
theorem witness_MemoryRows_5 :
    bk.admits (cm scrubNowDesc [2, 0, 0, 0]) scrubNowDesc = true ∧ byteAt (bk.payloadOf (cm scrubNowDesc [2, 0, 0, 0]) scrubNowDesc) 0 ≤ 7 ∧
    (bk.arr (byteAt (bk.payloadOf (cm scrubNowDesc [2, 0, 0, 0]) scrubNowDesc) 0)).sealed_ = true ∧
    (bk.arr (byteAt (bk.payloadOf (cm scrubNowDesc [2, 0, 0, 0]) scrubNowDesc) 0)).commanded = false :=
  ⟨by decide, by decide, by decide, by decide⟩
theorem witness_MemoryRows_6 :
    (List.find? (fun x => x.array == 1) lk.locks = some { array := 1, page := 3 }) ∧ repairable [1, 3, 5, 7, 9, 11, 13, 15, 17] 0 = false ∧
    (∀ u ∈ lk.upsets, u.array ≠ 1 ∨ u.page ≠ 3) ∧ (1 = 0 ∨ 1 = 1) :=
  ⟨by decide, by decide, by decide, by decide⟩
theorem witness_MemoryRows_7 :
    bkEarly.now < bkEarly.passAt 2 (dataPlace 512) :=
  by decide
theorem witness_MemoryRows_8 :
    bkEarly.now < bkEarly.passAt 2 (storedBytes 2) :=
  by decide
theorem witness_MemoryRows_9 :
    encodeEngine (.nop 0) = some (0, [0]) ∧ fetchLk.stands (.nop 0) = true ∧ fetchLk.spanLocked fetchLk.runBankNo (4 * fetchLk.pcOf 0) 4 = true :=
  ⟨by decide, by decide, by decide⟩

/-! ### `Obligations.PanelRows`: states and operands that meet its hypotheses, clause by clause -/

theorem witness_PanelRows_1 :
    im.admits (cm panelFrameDesc [0, 5, 0, 2, 9, 8]) panelFrameDesc = true ∧ im.panelProgram = false ∧
    be16 (im.payloadOf (cm panelFrameDesc [0, 5, 0, 2, 9, 8]) panelFrameDesc) 0 + be16 (im.payloadOf (cm panelFrameDesc [0, 5, 0, 2, 9, 8]) panelFrameDesc) 2 ≤ 4096 :=
  ⟨by decide, by decide, by decide⟩
theorem witness_PanelRows_2 :
    w28.admits (cm panelPowerDesc [1, 0, 0, 0]) panelPowerDesc = true ∧ byteAt (w28.payloadOf (cm panelPowerDesc [1, 0, 0, 0]) panelPowerDesc) 0 = 1 ∧
    w28.panel.state = PanelState.off :=
  ⟨by decide, by decide, by decide⟩
theorem witness_PanelRows_3 :
    w29.admits (cm panelPowerDesc [1, 0, 0, 0]) panelPowerDesc = true ∧ byteAt (w29.payloadOf (cm panelPowerDesc [1, 0, 0, 0]) panelPowerDesc) 0 = 1 ∧
    w29.panel.state = PanelState.poweringDown :=
  ⟨by decide, by decide, by decide⟩
theorem witness_PanelRows_4 :
    w30.panel.state = PanelState.poweringUp ∧ w30.panel.scanned = true ∧ w30.panel.wantOn = true :=
  ⟨by decide, by decide, by decide⟩
theorem witness_PanelRows_5 :
    w31.panel.state = PanelState.poweringDown ∧ 2 < w31.panel.framesDown ∧ w31.panel.since + 10000000 ≤ w31.now :=
  ⟨by decide, by decide, by decide⟩
theorem witness_PanelRows_6 :
    w32.panel.state = PanelState.on ∧ panelSupplyOk 7999 15000 = false :=
  ⟨by decide, by decide⟩
theorem witness_PanelRows_7 :
    w33.panel.state = PanelState.supplyFault ∧ panelSupplyOk 8000 20000 = true :=
  ⟨by decide, by decide⟩
theorem witness_PanelRows_8 :
    im.admits psh panelShowDesc = true ∧ im.panelProgram = false ∧ crc32c (frameBytes im.panel.hidden) = beWord (im.payloadOf psh panelShowDesc) 0 :=
  ⟨by decide, by decide, by rw [payload_psh]; exact (beWord_wordBe _ _).symm⟩
theorem witness_PanelRows_9 :
    psw.panel.state = PanelState.on ∧ psw.panel.swapDue = true ∧ psw.runs 19 = true :=
  ⟨by decide, by decide, by decide⟩
theorem witness_PanelRows_10 :
    w28.panel.driven = false :=
  by decide
theorem witness_PanelRows_11 : psw.panel.state = .on ∧ bits (psw.cfg 0xB00 0) 15 8 ≤ 128 := ⟨by decide, by decide⟩
theorem witness_PanelRows_12 : psw.panel.state = .on ∧ 0 < bits (psw.cfg 0xB00 0) 15 8 ∧ 0 < bits (psw.cfg 0xB00 0) 6 0 ∧
    bits (psw.cfg 0xB00 0) 29 28 = 0 := ⟨by decide, by decide, by decide, by decide⟩
theorem witness_PanelRows_13 :
    pswOff.panel.state = .on ∧ pswOff.runs 19 = false :=
  ⟨by decide, by decide⟩
theorem witness_PanelRows_14 :
    pcr.panel.state = .on ∧ pcr.panel.swapDue = false ∧ pcr.runs 19 = true ∧ pcr.panel.dark = false ∧ pcr.panel.darkNext = false ∧
    crc32c (frameBytes pcr.panel.shown) ≠ pcr.panel.shownCrc :=
  ⟨rfl, rfl, by decide, rfl, rfl, ne_compl _⟩
theorem witness_PanelRows_15 :
    pdn.panel.state = .on ∧ pdn.panel.swapDue = false ∧ pdn.panel.darkNext = true :=
  ⟨by decide, by decide, by decide⟩

/-! ### `Obligations.PlateRows`: states and operands that meet its hypotheses, clause by clause -/

theorem witness_PlateRows_1 :
    (pst .invalidDark).plate.step = .invalidDark ∧ (pst .invalidDark).plate.stepAt + (pst .invalidDark).waveNs ≤ (pst .invalidDark).now :=
  ⟨by decide, by decide⟩
theorem witness_PlateRows_2 :
    ((pst .data).plate.step = .data ∨ (pst .data).plate.step = .dataTarget) ∧ (pst .data).plate.stepAt + (pst .data).waveNs ≤ (pst .data).now :=
  ⟨by decide, by decide⟩
theorem witness_PlateRows_3 :
    im.admits pu plateUpdateDesc = true ∧ im.plate.step = PlateStep.idle :=
  ⟨by decide, by decide⟩
theorem witness_PlateRows_4 :
    (pst .invalidLight).plate.step = .invalidLight ∧ (pst .invalidLight).plate.pending = false ∧
    (pst .invalidLight).plate.stepAt + (pst .invalidLight).waveNs ≤ (pst .invalidLight).now :=
  ⟨by decide, by decide, by decide⟩
theorem witness_PlateRows_5 :
    (pst .invalidLight).plate.step ≠ .idle ∧ (13499 : BitVec 16).toNat < 13500 ∧ (pst .invalidLight).plate.pending = false :=
  ⟨by decide, by decide, by decide⟩
theorem witness_PlateRows_6 :
    (pst .dataOpposite).plate.step = .dataOpposite ∧ (pst .dataOpposite).plate.stepAt + (pst .dataOpposite).waveNs ≤ (pst .dataOpposite).now :=
  ⟨by decide, by decide⟩
theorem witness_PlateRows_7 :
    pstLater.now < pstLater.plate.stepAt + pstLater.waveNs :=
  by decide
theorem witness_PlateRows_8 :
    pstNext.plate.step ≠ .idle ∧ (13499 : BitVec 16).toNat < 13500 ∧ pstNext.plate.pending = true ∧ pstNext.power.warning = none ∧
    pstNext.mram.plateTorn = true :=
  ⟨by decide, by decide, by decide, by decide, by decide⟩
theorem witness_PlateRows_9 :
    (pst .data).plate.target.getLsbD 1 = (pst .data).mram.shown.getLsbD 1 ∧ (pst .data).plate.target.getLsbD 0 ≠ (pst .data).mram.shown.getLsbD 0 ∧
    (pst .dataTarget).plate.step = .dataTarget :=
  ⟨by decide, by decide, by decide⟩
theorem witness_PlateRows_10 :
    13500 ≤ (13500 : BitVec 16).toNat :=
  by decide

/-! ### `Obligations.KeyAndFirmwareRows`: states and operands that meet its hypotheses, clause by clause -/

theorem witness_KeyAndFirmwareRows_1 :
    im.admits (cm keyInstallDesc ([3, 5, 0, 0] ++ List.replicate 32 7)) keyInstallDesc = true ∧
    byteAt (im.payloadOf (cm keyInstallDesc ([3, 5, 0, 0] ++ List.replicate 32 7)) keyInstallDesc) 0 ≤ 7 ∧
    byteAt (im.payloadOf (cm keyInstallDesc ([3, 5, 0, 0] ++ List.replicate 32 7)) keyInstallDesc) 1 ≤ 15 :=
  ⟨by decide, by decide, by decide⟩
theorem witness_KeyAndFirmwareRows_2 :
    im.admits (cm keyRevokeDesc [3, 5, 0, 0]) keyRevokeDesc = true ∧ byteAt (im.payloadOf (cm keyRevokeDesc [3, 5, 0, 0]) keyRevokeDesc) 0 ≤ 7 :=
  ⟨by decide, by decide⟩
theorem witness_KeyAndFirmwareRows_3 :
    im.admits (cm fwBeginDesc (toBe 4 10)) fwBeginDesc = true ∧ be32 (im.payloadOf (cm fwBeginDesc (toBe 4 10)) fwBeginDesc) 0 ≤ 8388608 :=
  ⟨by decide, by decide⟩
theorem witness_KeyAndFirmwareRows_4 :
    fwb.admits (cm fwDataDesc (toBe 4 3 ++ [5, 6, 7])) fwDataDesc = true ∧ fwb.sup.fwBytes = some 10 ∧
    be32 (fwb.payloadOf (cm fwDataDesc (toBe 4 3 ++ [5, 6, 7])) fwDataDesc) 0 + ((fwb.payloadOf (cm fwDataDesc (toBe 4 3 ++ [5, 6, 7])) fwDataDesc).length - 4) ≤ 10 :=
  ⟨by decide, by decide, by decide⟩
theorem witness_KeyAndFirmwareRows_5 :
    fwb.admits (cm fwActivateDesc []) fwActivateDesc = true ∧ fwb.sup.fwBytes = some 10 :=
  ⟨by decide, by decide⟩

/-! ### `Obligations.AddressRows`: states and operands that meet its hypotheses, clause by clause -/

theorem witness_AddressRows_1 :
    rg.ring.provisional = some 5 ∧ 5 + 3000000000 ≤ rg.now :=
  ⟨by decide, by decide⟩
theorem witness_AddressRows_2 :
    w34.ring.duplicateAt = some 5 ∧ 5 + 10000000000 ≤ w34.now :=
  ⟨by decide, by decide⟩
theorem witness_AddressRows_3 :
    un.admits en enumerateDesc = true ∧ en.port = Port.ringA ∧ un.portDown .ringB = false ∧ un.mram.addressed = false ∧ byteAt en.body 1 ≤ 63 :=
  ⟨by decide, by decide, by decide, by decide, by decide⟩
theorem witness_AddressRows_7 :
    un.admits { en with port := .svc } enumerateDesc = true ∧ un.mram.addressed = false ∧ byteAt en.body 1 ≤ 63 :=
  ⟨by decide, by decide, by decide⟩
theorem witness_AddressRows_8 : un.admits { en with port := .causeway } enumerateDesc = true := by decide
theorem witness_AddressRows_4 :
    un.admits cfa (confirmAddressDesc cfa) = true ∧ un.mram.candidateValid = true :=
  ⟨by decide, by decide⟩
theorem witness_AddressRows_5 :
    rgDue.mram.addressed = true ∧ rgDue.ringUp = true ∧ rgDue.ring.announceAt = some 4000000000 ∧ 4000000000 + 1000000000 ≤ rgDue.now ∧
    rgDue.ringPortUp 1 = true :=
  ⟨by decide, by decide, by decide, by decide, by decide⟩
theorem witness_AddressRows_9 :
    rgEarly.ring.announceAt = some 4000000001 ∧ 4000000001 ≤ rgEarly.now ∧ rgEarly.now < 4000000001 + 1000000000 :=
  ⟨by decide, by decide, by decide⟩
theorem witness_AddressRows_10 :
    rgBack.mram.addressed = true ∧ rgBack.ringUp = true ∧ rgBack.ring.announceAt = some 5000000001 ∧ rgBack.now < 5000000001 :=
  ⟨by decide, by decide, by decide, by decide⟩
theorem witness_AddressRows_6 :
    rg.ringUp = true ∧ rg.mram.addressed = true ∧ rg.ring.provisional.isSome = true ∧ 131 = BitVec.zeroExtend 16 rg.mram.address ∧
    99 ≠ rg.mram.serial :=
  ⟨by decide, by decide, by decide, by decide, by decide⟩

/-! ### `Obligations.RecorderRows`: states and operands that meet its hypotheses, clause by clause -/

theorem witness_RecorderRows_1 :
    rr.raised = [rq, rq17] ∧ (∀ x ∈ [rq17], x.arrived = rq.arrived → rq.rec_.source ≤ x.rec_.source) ∧ rr.recQueue.length < 64 :=
  ⟨by decide, by decide, by decide⟩
theorem witness_RecorderRows_2 :
    rrFull.raised = [rq, rq17] ∧ (∀ x ∈ [rq17], x.arrived = rq.arrived → rq.rec_.source ≤ x.rec_.source) ∧ 64 ≤ rrFull.recQueue.length :=
  ⟨by decide, by decide, by decide⟩
theorem witness_RecorderRows_3 :
    rw1.mramChecked = true ∧ rw1.recQueue = [rq] ∧ rw1.mergeTarget rq.rec_ = none ∧
    rw1.mram.record (nextIndex rw1.mram.newest) = none ∧ rw1.mram.records.length < 65536 :=
  ⟨by decide, by decide, by decide, by decide, by decide⟩
/-- A recorder with `n` records of index 5 and severity `v`. -/
def recFull (n : Nat) (v : BitVec 2) : State :=
  { rw1 with mram := { rw1.mram with records := List.replicate n (5, { rq.rec_ with severity := v, source := 99 }) } }
theorem recFull_record (n : Nat) (v : BitVec 2) (i : BitVec 32) (h : i ≠ 5) : (recFull n v).mram.record i = none := by
  have h' : ((5 : BitVec 32) == i) = false := by simpa using fun e => h e.symm
  simp only [Mram.record, recFull, List.find?_replicate, h', Option.map_eq_none_iff]
  split <;> rfl
theorem recFull_mergeTarget (n : Nat) (v : BitVec 2) : (recFull n v).mergeTarget rq.rec_ = none := by
  simp only [State.mergeTarget]
  rw [show (recFull n v).mram.latest.get 0 rq.rec_.source.toNat = 0 from rfl, recFull_record n v 0 (by decide)]
theorem witness_RecorderRows_6 (n : Nat) (h : n = 65536) : (recFull n 0).mramChecked = true ∧ (recFull n 0).recQueue = [rq] ∧
    (recFull n 0).mergeTarget rq.rec_ = none ∧ (recFull n 0).mram.record (nextIndex (recFull n 0).mram.newest) = none ∧
    65536 ≤ (recFull n 0).mram.records.length ∧
    ∃ e, (recFull n 0).mram.records.find? (fun e => decide (e.2.severity ≤ rq.rec_.severity)) = some e ∧ (recFull n 0).mram.record e.1 = some e.2 := by
  have h0 : n ≠ 0 := by omega
  refine ⟨rfl, rfl, recFull_mergeTarget n 0, recFull_record n 0 _ (by show nextIndex 0 ≠ 5; decide), ?_, (5, { rq.rec_ with severity := 0, source := 99 }), ?_, ?_⟩
  · simp only [recFull, List.length_replicate]; omega
  · simp only [recFull, List.find?_replicate, h0, if_false]; rfl
  · simp only [Mram.record, recFull, List.find?_replicate, h0, if_false]; rfl
theorem witness_RecorderRows_7 (n : Nat) (h : n = 65536) : (recFull n 3).mramChecked = true ∧ (recFull n 3).recQueue = [rq] ∧
    (recFull n 3).mergeTarget rq.rec_ = none ∧ (recFull n 3).mram.record (nextIndex (recFull n 3).mram.newest) = none ∧
    65536 ≤ (recFull n 3).mram.records.length ∧
    (recFull n 3).mram.records.find? (fun e => decide (e.2.severity ≤ rq.rec_.severity)) = none := by
  have h0 : n ≠ 0 := by omega
  refine ⟨rfl, rfl, recFull_mergeTarget n 3, recFull_record n 3 _ (by show nextIndex 0 ≠ 5; decide), ?_, ?_⟩
  · simp only [recFull, List.length_replicate]; omega
  · simp only [recFull, List.find?_replicate, h0, if_false]; rfl
theorem witness_RecorderRows_4 :
    rw2.mramChecked = true ∧ rw2.recQueue = [rq] ∧ rw2.mergeTarget rq.rec_ = some (3, rq.rec_) :=
  ⟨by decide, by decide, by decide⟩
theorem witness_RecorderRows_5 :
    im.admits note recNoteDesc = true ∧ 32768 ≤ be16 (im.payloadOf note recNoteDesc) 0 ∧ byteAt (im.payloadOf note recNoteDesc) 2 ≤ 1 :=
  ⟨by decide, by decide, by decide⟩
theorem witness_RecorderRows_8 :
    rq17.rec_.source = 17 :=
  by decide
theorem witness_RecorderRows_9 :
    8 < 20 ∧ 8 ≠ 17 ∧ rq.rec_.source.toNat = 8 :=
  ⟨by decide, by decide, by decide⟩
theorem witness_RecorderRows_10 :
    20 ≤ ({ rq with rec_ := { rq.rec_ with source := 0x108 } } : Raised).rec_.source.toNat :=
  by decide

/-! ### `Obligations.ReplyRows`: states and operands that meet its hypotheses, clause by clause -/

theorem witness_ReplyRows_1 :
    w35.supAnswers = true ∧ w35.sup.partials = [prt] ∧ prt.ctx.origin = 32768 ∧ prt.ctx.tag = 1 ∧ prt.firstAt + 100000000 ≤ w35.now :=
  ⟨by decide, by decide, by decide, by decide, by decide⟩
theorem witness_ReplyRows_2 : ws.sup.windows = [wn] ∧ wn.origin = 32768 ∧ wn.used = 0 ∧ wn.lastAt + wn.idleClose * 1000000000 ≤ ws.now ∧
    (∀ v ∈ ([] : List Window), v.origin ≠ 32768) :=
  ⟨by decide, by decide, by decide, by decide, by decide⟩
theorem witness_ReplyRows_3 :
    ws.sup.windows = [wn] ∧ wn.origin = 32768 ∧ wn.heldUntil = some 7 ∧ 7 ≤ ws.now :=
  ⟨by decide, by decide, by decide, by decide⟩
theorem witness_ReplyRows_4 :
    rs.supAnswers = true ∧ rs.pathDown Port.svc = false ∧ pickReply rs.now .svc rs.sup.replies = some ([], rep, []) ∧ rs.replyTurn rep = true ∧
    rep.upload = none ∧ rep.sent = 0 ∧ rep.body.length ≤ 1398 :=
  ⟨by decide, by decide, by decide, by decide, by decide, by decide, by decide⟩

/-! ### `Obligations.IslandRows`: states and operands that meet its hypotheses, clause by clause -/

theorem witness_IslandRows_1 :
    im.keepRuns = true ∧ im.auditAt + im.roundPeriodNs ≤ im.now :=
  ⟨by decide, by decide⟩
theorem witness_IslandRows_7 : audited.now < audited.auditAt + audited.roundPeriodNs := by decide
theorem witness_IslandRows_2 :
    (ir.island 14).state = IslandState.restarting ∧ (ir.domain (islandDomain 14)).state = DomainState.on :=
  ⟨by decide, by decide⟩
theorem witness_IslandRows_3 :
    im.power.refLost = false ∧ im.service ≠ Service.off :=
  ⟨by decide, by decide⟩
theorem witness_IslandRows_4 :
    refL.power.refLost = true :=
  by decide
theorem witness_IslandRows_5 :
    (dt.domain 6).state = DomainState.transition ∧ dt.working = true ∧ dt.service = Service.full :=
  ⟨by decide, by decide, by decide⟩
theorem witness_IslandRows_8 : (dtSide.domain 9).state = .transition ∧ dtSide.working = true ∧ dtSide.service ≠ .full :=
  ⟨by decide, by decide, by decide⟩
theorem witness_IslandRows_6 :
    im.keepRuns = true ∧ im.auditAt + im.roundPeriodNs ≤ im.now ∧ cf.senderFaulty = true ∧ cf.receiverFaulty = false ∧ (↑cf.sender = 10 ∨ ↑cf.sender = 15) ∧
    (im.island ↑cf.sender).state = IslandState.run ∧ im.restarts60 ↑cf.sender < 3 :=
  ⟨by decide, by decide, by decide, by decide, by decide, by decide, by decide⟩

/-! ### `Obligations.CrossingRows`: states and operands that meet its hypotheses, clause by clause -/

theorem witness_CrossingRows_1 :
    5 ≠ 0 ∧ 3 + 1 + (crossingSize 5 0).2 ≤ (crossingSize 5 0).1 ∧ (∀ r < 21, (im.crossing (crossingId 5 r)).waiting = []) ∧
    ((if 1 = 0 then 3 + 1 else 3 + 1 + (crossingSize 5 0).2) ≤ (crossingSize 5 0).1 - slotsOf (im.crossing (crossingId 5 0)).queued) :=
  ⟨by decide, by decide, by decide, by decide⟩
theorem witness_CrossingRows_2 :
    5 ≠ 0 ∧ 3 + 1 + (crossingSize 5 0).2 ≤ (crossingSize 5 0).1 ∧ (∀ r < 21, (cfull.crossing (crossingId 5 r)).waiting = []) ∧
    ((crossingSize 5 0).1 - slotsOf (cfull.crossing (crossingId 5 0)).queued < if 2 = 0 then 3 + 1 else 3 + 1 + (crossingSize 5 0).2) ∧ 2 ≠ 1 :=
  ⟨by decide, by decide, by decide, by decide, by decide⟩

theorem witness_CrossingRows_3 :
    5 ≠ 0 ∧ 3 + 1 + (crossingSize 5 0).2 ≤ (crossingSize 5 0).1 ∧ (∀ r < 21, (cfull.crossing (crossingId 5 r)).waiting = []) ∧
    (crossingSize 5 0).1 - slotsOf (cfull.crossing (crossingId 5 0)).queued < 3 + 1 + (crossingSize 5 0).2 ∧ (1 : Fin 4).val = 1 :=
  ⟨by decide, by decide, by decide, by decide, by decide⟩

/-! ### `Obligations.CycleRows`: states and operands that meet its hypotheses, clause by clause -/

theorem witness_CycleRows_1 :
    cs.pairMode = false ∧ cs.pair.incoming = none ∧ cs.pair.handover = none ∧ cs.pair.rehearsal = none ∧ cs.cycleDue = true :=
  ⟨by decide, by decide, by decide, by decide, by decide⟩
theorem witness_CycleRows_2 :
    im.pairMode = false ∧ im.pair.incoming = none ∧ im.pair.handover = none ∧ im.pair.rehearsal = none ∧ im.service = Service.full ∧
    im.square.phase ≠ Phase.execute ∧ im.power.warning = none ∧ im.square.retainAt + BitVec.toNat (im.cfg 258 0) * 1000000 ≤ im.now :=
  ⟨by decide, by decide, by decide, by decide, by decide, by decide, by decide, by decide⟩
theorem witness_CycleRows_3 :
    fz.pairMode = false ∧ fz.pair.incoming = none ∧ fz.pair.handover = none ∧ fz.pair.rehearsal = none ∧ fz.freezeDue = true ∧ fz.freezeHeld = none :=
  ⟨by decide, by decide, by decide, by decide, by decide, by decide⟩
theorem witness_CycleRows_4 :
    exd.pairMode = false ∧ exd.pair.incoming = none ∧ exd.pair.handover = none ∧ exd.pair.rehearsal = none ∧ exd.commitDue = true ∧ exd.commitHeld = none ∧
    exd.power.restart = none ∧ exd.power.warning = none :=
  ⟨by decide, by decide, by decide, by decide, by decide, by decide, by decide, by decide⟩
theorem witness_CycleRows_5 :
    wd.pairMode = false ∧ wd.pair.incoming = none ∧ wd.pair.handover = none ∧ wd.pair.rehearsal = none ∧ wd.slowEngine = some 0 ∧
    wd.square.phase = Phase.execute ∧ wd.square.prog = ProgState.run ∧ wd.watchdogUs ≠ 0 ∧ wd.watchdogUs * 1000 < wd.now - wd.square.phaseAt :=
  ⟨by decide, by decide, by decide, by decide, by decide, by decide, by decide, by decide, by decide⟩
theorem witness_CycleRows_6 :
    fzHeld.freezeDue = true ∧ (fzHeld.freezeHeld).isSome = true :=
  ⟨by decide, by decide⟩

/-! ### `Obligations.PairLineRows`: states and operands that meet its hypotheses, clause by clause -/

theorem witness_PairLineRows_1 :
    prb.pairMode = true :=
  by decide
theorem witness_PairLineRows_2 :
    prb.pairMode = true ∧ prb.alive = true ∧ prb.faultyInterlock = false ∧ (prb.pair.hbSent = none ∨ prb.pair.hbGenAt + 250000 ≤ prb.now) :=
  ⟨by decide, by decide, by decide, by decide⟩
theorem witness_PairLineRows_3 :
    clm.pairMode = true ∧ clm.pair.claimOwn = true ∧ clm.pair.hbGenAt + 1000000 ≤ clm.now :=
  ⟨by decide, by decide, by decide⟩
theorem witness_PairLineRows_4 :
    syn.pairMode = true ∧ syn.pair.state = PairState.sync ∧ syn.cableUp = true :=
  ⟨by decide, by decide, by decide⟩
theorem witness_PairLineRows_5 :
    syn.pairMode = true ∧ syn.pair.state = PairState.sync ∧ syn.pair.hbCwAt = none ∧ syn.pair.hbRingAt = none ∧ syn.pair.cable = true ∧
    syn.pair.incoming = none ∧ syn.pair.claimPartner = false :=
  ⟨by decide, by decide, by decide, by decide, by decide, by decide, by decide⟩
theorem witness_PairLineRows_6 :
    syn2.pairMode = true ∧ syn2.pair.state = PairState.sync ∧ syn2.pair.claimPartner = true ∧ syn2.pair.cable = true ∧ syn2.pair.cableFellAt = none ∧
    syn2.pair.incoming = none :=
  ⟨by decide, by decide, by decide, by decide, by decide, by decide⟩
theorem witness_PairLineRows_7 :
    syn.pairMode = true ∧ syn.pair.claimPartner = false :=
  ⟨by decide, by decide⟩
theorem witness_PairLineRows_8 :
    tie.pairMode = true ∧ tie.mram.sideB = true ∧ tie.pair.claimOwn = true ∧ tie.pair.claimPartner = true ∧
    tie.pair.ownRoseAt ≤ tie.pair.partnerEdgeAt ∧ tie.pair.partnerEdgeAt ≤ tie.pair.ownRoseAt + 50000 :=
  ⟨by decide, by decide, by decide, by decide, by decide, by decide⟩
theorem witness_PairLineRows_9 :
    prb.pairMode = true ∧ prb.pair.lane0 = true :=
  ⟨by decide, by decide⟩
theorem witness_PairLineRows_10 :
    prb.pairMode = true ∧ prb.pair.cable = true :=
  ⟨by decide, by decide⟩
theorem witness_PairLineRows_16 :
    hbNow.pairMode = true ∧ hbNow.pair.hbSent.isSome = true ∧ hbNow.now < hbNow.pair.hbGenAt + 250000 :=
  ⟨by decide, by decide, by decide⟩
theorem witness_PairLineRows_17 :
    cutS.pairMode = true ∧ cutS.pair.claimPartner = true ∧ cutS.pair.cableFellAt = some 5000000000 ∧ cutS.now ≤ 5000000000 + 10000 :=
  ⟨by decide, by decide, by decide, by decide⟩
theorem witness_PairLineRows_18 :
    clm.pairMode = true ∧ clm.pair.claimPartner = false ∧ clm.pair.claimOwn = true ∧ clm.pair.drivers = true ∧ clm.pair.ownRoseAt + 50000 < clm.now :=
  ⟨by decide, by decide, by decide, by decide, by decide⟩
theorem witness_PairLineRows_19 :
    offS.pairMode = true ∧ offS.pair.claimOff = some 5 ∧ 5 + 1000000 ≤ offS.now ∧ offS.pair.lineTold = false :=
  ⟨by decide, by decide, by decide, by decide⟩
theorem witness_PairLineRows_20 :
    prb.pairMode = true ∧ (prb.pair.claimOff = none ∨ prb.pair.lineTold = true) :=
  ⟨by decide, by decide⟩
theorem witness_PairLineRows_21 :
    prb.pairMode = true ∧ (prb.mram.addressed = false ∨ hb.target ≠ prb.mram.address.zeroExtend 16) :=
  ⟨by decide, by decide⟩
theorem witness_PairLineRows_14 :
    dscRing.pairMode = true ∧ dscRing.pair.state = .stale ∧ dscRing.ringUp = true ∧ dscRing.mram.addressed = true ∧
    hb131.target = dscRing.mram.address.zeroExtend 16 ∧ dscRing.pair.ringSilent = false ∧
    { hb131 with sideB := false }.sideB = dscRing.mram.sideB ∧ dscRing.pair.sideConflict = false :=
  ⟨by decide, by decide, by decide, by decide, by decide, by decide, by decide, by decide⟩
theorem witness_PairLineRows_15 :
    synRing.pairMode = true ∧ synRing.pair.state = .sync ∧ synRing.ringUp = true ∧ synRing.mram.addressed = true ∧
    hb131.target = synRing.mram.address.zeroExtend 16 ∧ hb131.sideB ≠ synRing.mram.sideB :=
  ⟨by decide, by decide, by decide, by decide, by decide, by decide⟩

/-! ### `Obligations.PairSyncRows`: states and operands that meet its hypotheses, clause by clause -/

theorem witness_PairSyncRows_1 :
    syn.pairMode = true ∧ syn.cableUp = true ∧ syn.shadows = true ∧ syn.ownCycle = false ∧ ofRehearsal (Change.object 257 1 300) = false ∧
    onArrival (Change.object 257 1 300) = false ∧ syn.ucWaits (Change.object 257 1 300) = false ∧ (20 - syn.square.current).msb = false ∧
    20 ≠ syn.square.current :=
  ⟨by decide, by decide, by decide, by decide, by decide, by decide, by decide, by decide, by decide⟩
theorem witness_PairSyncRows_2 :
    syn.pairMode = true ∧ syn.shadows = true ∧ syn.ownCycle = false ∧ syn.causewayLost = false :=
  ⟨by decide, by decide, by decide, by decide⟩
theorem witness_PairSyncRows_3 :
    prb.pairMode = true ∧ prb.admits (cm rehearseDesc [1, 0, 0, 9]) rehearseDesc = true ∧ prb.pair.state = PairState.active ∧
    be16 (prb.payloadOf (cm rehearseDesc [1, 0, 0, 9]) rehearseDesc) 2 ≠ 0 ∧ prb.pair.rehearsal = none ∧ prb.pair.handover = none ∧
    prb.pair.incoming = none :=
  ⟨by decide, by decide, by decide, by decide, by decide, by decide, by decide⟩
theorem witness_PairSyncRows_4 :
    syn.pairMode = true ∧ syn.admits (cm resyncDesc []) resyncDesc = true ∧ syn.pair.state = PairState.sync :=
  ⟨by decide, by decide, by decide⟩
theorem witness_PairSyncRows_5 :
    rhs.pairMode = true ∧ rhs.pair.rehearsal = some rh ∧ rh.incoming = true ∧ rh.took = true ∧ rhs.pair.state = PairState.active ∧
    rhs.pair.handover = none ∧ rh.dwell.isSome = true ∧ ((rh.handBack = true ∧ rhs.dwellOver rh = true) ∨ rh.failed ≠ []) :=
  ⟨by decide, by decide, by decide, by decide, by decide, by decide, by decide, by decide⟩
theorem witness_PairSyncRows_6 :
    syn.pairMode = true ∧ syn.shadows = true ∧ lg.cycle ∉ syn.pair.received :=
  ⟨by decide, by decide, by decide⟩
theorem witness_PairSyncRows_7 :
    syn.pairMode = true ∧ syn.pair.state = PairState.sync ∧ syn.pair.lastLedgerAt + syn.syncHoldNs ≤ syn.now :=
  ⟨by decide, by decide, by decide⟩
theorem witness_PairSyncRows_8 :
    dsc.pairMode = true ∧ dsc.pair.state = PairState.stale ∧ dsc.pair.partnerHb = none ∧ dsc.pair.discoveryEnd ≤ dsc.now ∧ dsc.loneStart = true ∧
    dsc.pair.claimPartner = false ∧ dsc.working = true :=
  ⟨by decide, by decide, by decide, by decide, by decide, by decide, by decide⟩
theorem witness_PairSyncRows_9 :
    rsy.pairMode = true ∧ rsy.pair.state = PairState.syncing ∧ rsy.pair.snapshot = true ∧ rsy.settleCycles ≤ rsy.pair.applied :=
  ⟨by decide, by decide, by decide, by decide⟩
theorem witness_PairSyncRows_10 :
    rsn.pairMode = true ∧ rsn.pair.state = PairState.syncing ∧ rsn.pair.snapshot = false ∧ snp.fwMajor = 4 ∧ rsn.causewayLost = false :=
  ⟨by decide, by decide, by decide, by decide, by decide⟩
theorem witness_PairSyncRows_11 :
    rhs.pairMode = true ∧ rhs.pair.rehearsal = some rh ∧ rh.took = true ∧ rhs.dwellOver rh = true :=
  ⟨by decide, by decide, by decide, by decide⟩
theorem witness_PairSyncRows_12 :
    syn.pairMode = true ∧ syn.cableUp = true ∧ syn.shadows = true ∧ syn.ownCycle = false ∧ ofRehearsal (Change.object 257 1 300) = false ∧
    onArrival (Change.object 257 1 300) = false ∧ syn.ucWaits (Change.object 257 1 300) = false ∧ (5 - syn.square.current).msb = true :=
  ⟨by decide, by decide, by decide, by decide, by decide, by decide, by decide, by decide⟩
theorem witness_PairSyncRows_13 :
    syn.pairMode = true ∧ syn.cableUp = true ∧ syn.pair.state = .sync ∧ syn.pair.rehearsal = none ∧ syn.pair.handover = none ∧
    syn.pair.incoming = none :=
  ⟨by decide, by decide, by decide, by decide, by decide, by decide⟩

/-! ### `Obligations.RingRows`: states and operands that meet its hypotheses, clause by clause -/

theorem witness_RingRows_1 :
    rngDue.ringUp = true ∧ rngDue.dueEvery rngDue.ring.supervisionAt 2000000000 = true ∧
    rngBack.ringUp = true ∧ rngBack.dueEvery rngBack.ring.supervisionAt 2000000000 = true :=
  ⟨by decide, by decide, by decide, by decide⟩
theorem witness_RingRows_2 :
    rng.ring.lastSync = some 5 ∧ rng.ring.time = TimeState.locked ∧ 5 + 3000000000 ≤ rng.now :=
  ⟨by decide, by decide, by decide⟩
theorem witness_RingRows_3 :
    rng.keepRuns = true ∧ rng.dueEvery (some rng.mram.time) 1000000000 = true :=
  ⟨by decide, by decide⟩
theorem witness_RingRows_4 :
    (rng.ringPort 0).link = true :=
  by decide
theorem witness_RingRows_5 :
    (im.ringPort 0).link = false ∧ (im.island (10 + 0)).state = IslandState.run :=
  ⟨by decide, by decide⟩
theorem witness_RingRows_6 :
    rng.ringPortUp 0 = true ∧ (fr0.source = rng.mram.mac ∨ rng.hsrSeen fr0 = true) :=
  ⟨by decide, by decide⟩
theorem witness_RingRows_7 :
    rng.ringPortUp 0 = true ∧ fr.source ≠ rng.mram.mac ∧ rng.hsrSeen fr = false ∧ (isStation fr && !stationKnown fr.payload) = false ∧
    rng.consumes fr = false ∧ rng.ringPortUp (1 - 0) = true :=
  ⟨by decide, by decide, by decide, by decide, by decide, by decide⟩
theorem witness_RingRows_8 :
    rng.ringPortUp 0 = true ∧ tf.serial ≠ rng.mram.serial :=
  ⟨by decide, by decide⟩
theorem witness_RingRows_9 :
    rng.ptpEn = true ∧ rng.ringPortUp (b2n rng.syncPort) = true ∧ rng.service = Service.full :=
  ⟨by decide, by decide, by decide⟩
theorem witness_RingRows_10 :
    rng.runs 18 = true ∧ rng.dueEvery rng.power.sampledAt 100000000 = true :=
  ⟨by decide, by decide⟩
theorem witness_RingRows_11 :
    rng.ringPortUp 0 = true ∧ fr2.source ≠ rng.mram.mac ∧ rng.hsrSeen fr2 = false ∧ (isStation fr2 && !stationKnown fr2.payload) = true :=
  ⟨by decide, by decide, by decide, by decide⟩
theorem witness_RingRows_12 :
    rngLate.ringUp = true ∧ rngLate.dueEvery rngLate.ring.supervisionAt 2000000000 = false :=
  ⟨by decide, by decide⟩
theorem witness_RingRows_13 :
    rngNew.keepRuns = true ∧ rngNew.dueEvery (some rngNew.mram.time) 1000000000 = false :=
  ⟨by decide, by decide⟩

/-! ### `Obligations.SupplyRows`: states and operands that meet its hypotheses, clause by clause -/

theorem witness_SupplyRows_1 :
    im.working = true :=
  by decide
theorem witness_SupplyRows_2 :
    im.service ≠ Service.off ∧ 4500 ≤ 5000 :=
  ⟨by decide, by decide⟩
theorem witness_SupplyRows_3 :
    ssf.service = Service.sideStreet ∧ ssf.power.lowHoldDone = false ∧ ssf.power.validAt + 1000000000 ≤ ssf.now ∧ 5000 < ssf.serviceMv ∧
    4500 ≤ 5000 :=
  ⟨by decide, by decide, by decide, by decide, by decide⟩
theorem witness_SupplyRows_4 :
    off.service = Service.off ∧ 4500 ≤ 24000 :=
  ⟨by decide, by decide⟩
theorem witness_SupplyRows_5 :
    im.service ≠ Service.off ∧ 4000 < 4500 ∧ im.power.lp1Ok = true ∧ im.power.lp2Ok = true :=
  ⟨by decide, by decide, by decide, by decide⟩
theorem witness_SupplyRows_6 :
    ssf.service = Service.sideStreet ∧ ssf.power.warning = none ∧ ssf.power.supOk = true ∧ ssf.mram.fireValid = true ∧ ssf.serviceMv ≤ 24000 ∧
    44000 ≤ 45000 :=
  ⟨by decide, by decide, by decide, by decide, by decide, by decide⟩
theorem witness_SupplyRows_7 :
    im.working = true ∧ im.power.warning = none ∧ 4000 < 4300 :=
  ⟨by decide, by decide, by decide⟩
theorem witness_SupplyRows_8 :
    hux.power.warning = some 5 ∧ 5 + 5000000 ≤ hux.now ∧ hux.square.phase = Phase.execute :=
  ⟨by decide, by decide, by decide⟩
theorem witness_SupplyRows_9 :
    huc.power.warning = some 5 ∧ huc.working = true ∧ huc.holdupDone = true ∧ 4000 < huc.serviceMv :=
  ⟨by decide, by decide, by decide, by decide⟩
theorem witness_SupplyRows_10 :
    im.service ≠ Service.off :=
  by decide
theorem witness_SupplyRows_11 :
    im.admits rst restartDesc = true ∧ im.service = Service.full ∧ im.pairMode = false ∧ im.pair.state = PairState.solo ∧
    (byteAt (im.payloadOf rst restartDesc) 0 = 1 ∨ byteAt (im.payloadOf rst restartDesc) 0 = 2) :=
  ⟨by decide, by decide, by decide, by decide, by decide⟩

/-! ### States and packets of the further clauses -/

/-- A state with one force, on word 0 of Q. -/
def forcedAt (i : Instr) (x : Engine) : State :=
  let s := about i x
  { s with mram := { s.mram with forces := [{ hash := 1, isBit := false, area := .Q, offset := 0, value := 1 }] } }
/-- The state with `n` credits of engine 0's crossing to SQUARE on the return path. -/
def owing (n : Nat) : State := (about (.out 0 qo) X).setCrossing (crossingId 0 6) { returning := n }
def kOnly : State := im.setKey 0 { installed := true, roles := 0b0010, key := [1, 2, 3] }
/-- A READ_OBJECT of a word that OBSERVE is needed for, tagged under a key that has not that role. -/
def rdk : Packet :=
  { cm readObjectDesc (toBe 2 1 ++ toBe 2 0 ++ toBe 2 0x800 ++ toBe 2 0) with
      flags := 0x40, auth := [14, 50, 243, 86, 236, 28, 37, 175, 24, 80, 88, 38, 255, 49, 69, 83] }
theorem tag_rdk : rdk.mac [1, 2, 3] = rdk.auth := by decide +kernel
theorem authorise_rdk : kOnly.authorise rdk = some 2 := by
  have h : (rdk.auth == rdk.mac [1, 2, 3]) = true := by rw [tag_rdk]; decide
  show (if rdk.tagged then _ else _) = _
  rw [if_pos (by decide), if_neg (by decide)]
  show (if (_ && (rdk.auth == rdk.mac [1, 2, 3])) = true then _ else _) = _
  rw [h]; decide

/-! ### Further clauses: stores that do not land, brackets, words, blocks, calls -/

theorem witness_BitStoreResult_7 :
    (about (.setb 0 ib3) X).fallsThrough (.setb 0 ib3) = true ∧ (about (.clrb 0 ib3) w11).fallsThrough (.clrb 0 ib3) = true ∧
    (mayWriteBit ib3.area (Operand.place ib3).1 && ((about (.setb 0 ib3) X).wordAddr .work ib3.area (Operand.place ib3).1).isSome) = false :=
  ⟨by decide, by decide, by decide⟩
theorem witness_BitStoreResult_8 :
    (forcedAt (.setb 0 qo) X).fallsThrough (.setb 0 qo) = true ∧ ((forcedAt (.setb 0 qo) X).forceOn qo.area (Operand.place qo).1).isSome = true ∧
    ((forcedAt (.setb 0 qo) X).engine 0).cb = true ∧
    (forcedAt (.clrb 0 qo) w11).fallsThrough (.clrb 0 qo) = true ∧ ((forcedAt (.clrb 0 qo) w11).forceOn qo.area (Operand.place qo).1).isSome = true ∧
    ((forcedAt (.clrb 0 qo) w11).engine 0).cb = false ∧ ((forcedAt (.clrb 0 qo) w11).engine 0).cbP = false :=
  ⟨by decide, by decide, by decide, by decide, by decide, by decide, by decide⟩
theorem witness_BitStoreResult_9 :
    (about (.clrb 0 qb1024) w18).fallsThrough (.clrb 0 qb1024) = true ∧ ((about (.clrb 0 qb1024) w18).engine 0).cbP = true ∧
    (about (.clrb 0 qb1024) w18).forceOn qb1024.area (Operand.place qb1024).1 = none ∧
    (about (.clrb 0 qb1024) w18).owner qb1024.area (Operand.place qb1024).1 ≠ some 0 ∧
    (about (.setb 0 qb1024) w11).fallsThrough (.setb 0 qb1024) = true ∧ ((about (.setb 0 qb1024) w11).engine 0).cb = false :=
  ⟨by decide, by decide, by decide, by decide, by decide, by decide⟩
theorem witness_BitStoreResult_10 :
    3 ≤ 32 - slotsOf ((owing 29).crossing (crossingId 0 6)).queued - ((owing 29).crossing (crossingId 0 6)).returning ∧
    32 - slotsOf ((owing 30).crossing (crossingId 0 6)).queued - ((owing 30).crossing (crossingId 0 6)).returning < 3 :=
  ⟨by decide, by decide⟩
theorem witness_BracketResult_10 :
    ([Instr.andOpen 0, .andnOpen 0, .orOpen 0, .ornOpen 0, .xorOpen 0, .xornOpen 0].all fun i => (about i w19).fallsThrough i) = true := by decide
theorem witness_WordAccessResult_9 :
    (about (.sw 0 ib3 .clean) X).fallsThrough (.sw 0 ib3 .clean) = true ∧ (about (.sw 0 ib3 .clean) X).mayStore .I 3 = false ∧
    (about (.sw 0 ⟨.Q, 31, 0⟩ .clean) X).fallsThrough (.sw 0 ⟨.Q, 31, 0⟩ .clean) = true ∧
    (about (.sw 0 ⟨.Q, 31, 0⟩ .clean) X).mayStore .Q 31 = false :=
  ⟨by decide, by decide, by decide, by decide⟩
def q0 : Operand := ⟨.Q, 0, 0⟩
def c3 : Operand := ⟨.C, 3, 0⟩
def d63 : Operand := ⟨.D, 63, 0⟩
theorem witness_WordAccessResult_10 :
    (forcedAt (.sw 0 q0 .clean) X).fallsThrough (.sw 0 q0 .clean) = true ∧ (forcedAt (.sw 0 q0 .clean) X).mayStore .Q 0 = true ∧
    ((forcedAt (.sw 0 q0 .clean) X).forceOn .Q 0).isSome = true :=
  ⟨by decide, by decide, by decide⟩
theorem witness_WordAccessResult_11 :
    (about (.sw 0 qb1024 .clean) X).fallsThrough (.sw 0 qb1024 .clean) = true ∧ (about (.sw 0 qb1024 .clean) X).mayStore .Q 1024 = true ∧
    (about (.sw 0 qb1024 .clean) X).forceOn .Q 32 = none ∧ (about (.sw 0 qb1024 .clean) X).owner .Q 32 ≠ some 0 :=
  ⟨by decide, by decide, by decide, by decide⟩
theorem witness_WordAccessResult_12 :
    (about (.sw 0 c3 .clean) X).fallsThrough (.sw 0 c3 .clean) = true ∧ (about (.sw 0 c3 .clean) X).mayStore .C 3 = true ∧
    (about (.sw 0 c3 .clean) X).forceOn .C 3 = none ∧ (about (.sw 0 c3 .clean) X).owner .C 3 = some 0 :=
  ⟨by decide, by decide, by decide, by decide⟩
theorem witness_WordAccessResult_13 :
    ((about (.move 0 ⟨.Z, 128, 0⟩ qw) X).engine 0).moved = none ∧ (about (.move 0 ⟨.Z, 128, 0⟩ qw) X).fallsThrough (.move 0 ⟨.Z, 128, 0⟩ qw) = true ∧
    (about (.move 0 ⟨.Z, 128, 0⟩ qw) X).readWord 0 .Z 128 = none :=
  ⟨by decide, by decide, by decide⟩
theorem witness_WordAccessResult_14 :
    (about (.move 0 d63 ib3) X).fallsThrough (.move 0 d63 ib3) = true ∧ (about (.move 0 d63 ib3) X).readWord 0 .D 63 = some (0, false) ∧
    (about (.move 0 d63 ib3) X).mayStore .I 3 = false ∧
    (forcedAt (.move 0 d63 q0) X).fallsThrough (.move 0 d63 q0) = true ∧ (forcedAt (.move 0 d63 q0) X).mayStore .Q 0 = true ∧
    ((forcedAt (.move 0 d63 q0) X).forceOn .Q 0).isSome = true :=
  ⟨by decide, by decide, by decide, by decide, by decide, by decide⟩
theorem witness_WordAccessResult_15 :
    (about (.move 0 d63 qb1024) X).fallsThrough (.move 0 d63 qb1024) = true ∧ (about (.move 0 d63 qb1024) X).mayStore .Q 1024 = true ∧
    (about (.move 0 d63 qb1024) X).forceOn .Q 32 = none ∧ (about (.move 0 d63 qb1024) X).owner .Q 32 ≠ some 0 ∧
    (about (.move 0 d63 c3) X).fallsThrough (.move 0 d63 c3) = true ∧ (about (.move 0 d63 c3) X).mayStore .C 3 = true ∧
    (about (.move 0 d63 c3) X).owner .C 3 = some 0 :=
  ⟨by decide, by decide, by decide, by decide, by decide, by decide, by decide⟩
/-- A block move of two words onto its own second word: the second word read has been written by the move. -/
def overlap : State := about (.bmove 0 dw ⟨.D, 4, 0⟩) { X with wa := 2 }
theorem witness_BlockMoveResult_3 :
    overlap.fallsThrough (.bmove 0 dw ⟨.D, 4, 0⟩) = true ∧ sInt (overlap.engine 0).wa = 2 ∧ (overlap.engine 0).moved = none ∧
    (∀ i < 2, overlap.mayStore .D (4 + i) = true ∧ overlap.wordAddr .work .D (4 + i) = some (4096 + 128 + 16 + 4 * i) ∧
      overlap.readWord 0 .D (3 + i) = some (0, false) ∧ overlap.forceOn .D (4 + i) = none ∧ overlap.owner .D (4 + i) = some 0) ∧
    overlap.operandAddr 0 .D 4 = 4096 + 128 + 16 :=
  ⟨by decide, by decide, by decide, by decide, by decide⟩
theorem witness_BlockMoveResult_4 :
    (about (.bmove 0 dw ⟨.Q, 992, 0⟩) { X with wa := 2 }).fallsThrough (.bmove 0 dw ⟨.Q, 992, 0⟩) = true ∧
    (about (.bmove 0 dw ⟨.Q, 992, 0⟩) { X with wa := 2 }).owner .Q 31 = some 0 ∧
    (about (.bmove 0 dw ⟨.Q, 992, 0⟩) { X with wa := 2 }).owner .Q 32 ≠ some 0 ∧
    Operand.plus ⟨.Q, 992, 0⟩ 1 / 32 = 32 :=
  ⟨by decide, by decide, by decide, by decide⟩
theorem witness_CallAndReturn_9 :
    (∀ k, (about (.call 0 5) X).blockOf 5 = some k → k.engine ≠ 0 ∨ k.event.isSome = true) ∧ (about (.call 0 5) X).issues (.call 0 5) = true ∧
    (about (.callt 0 5) X).issues (.callt 0 5) = true ∧ ((about (.callt 0 5) X).engine 0).cb = true ∧ ((about (.callt 0 5) X).engine 0).cbP = false :=
  ⟨nofun, by decide, by decide, by decide, by decide⟩
/-- Block 0 is an event block that has called block 1. -/
def fromEvent (i : Instr) : State :=
  let s := about i { X with pc := 0, calls := [(2, 0)] }
  let k : Block := { number := 0, engine := 0, event := some 3, first := 2, length := 1 }
  { s with
    mram := { s.mram with banks := [(0, { s.bank 0 with desc := { (s.bank 0).desc with blocks := [k, { blk 2 with number := 1 }] } })] }
    engines := [(0, { s.engine 0 with block := 1 })] }
theorem witness_CallAndReturn_10 :
    ((fromEvent (.ret 0)).engine 0).calls = [(2, 0)] ∧ (fromEvent (.ret 0)).issues (.ret 0) = true ∧ (fromEvent (.end_ 0)).issues (.end_ 0) = true ∧
    ∃ k, (fromEvent (.ret 0)).blockOf 0 = some k ∧ k.event = some 3 ∧ k.holds (2 : BitVec 18).toNat = true :=
  ⟨by decide, by decide, by decide, _, rfl, by decide, by decide⟩
theorem witness_CallAndReturn_11 :
    (∀ k, (fromEvent (.call 0 0)).blockOf 0 = some k → k.engine ≠ 0 ∨ k.event.isSome = true) ∧ (fromEvent (.call 0 0)).issues (.call 0 0) = true :=
  ⟨fun k h => by have h := Option.some.inj h; subst h; decide, by decide⟩

/-! ### Further clauses: reads, the program, landings, subscriptions, the loop engine -/

theorem witness_ObjectReads_3 : im.quiet = true ∧ kOnly.quiet = true ∧ kOnly.admits rdk readObjectDesc = true ∧
    (kOnly.ctxOf rdk readObjectDesc).roles.getLsbD Role.observe.bit = false ∧
    ∃ r ∈ objRefs (kOnly.payloadOf rdk readObjectDesc), anyRole r.1 = false := by
  refine ⟨by decide, by decide, ?_, ?_, ?_⟩
  · unfold State.admits State.accept; rw [authorise_rdk]; decide
  · unfold State.ctxOf State.accept; rw [authorise_rdk]; decide
  · unfold State.payloadOf State.accept; rw [authorise_rdk]; decide
theorem witness_ProcessReads_7 : im.quiet = true ∧ burst.quiet = true ∧ im.offers = true ∧ im1.offers = false := ⟨by decide, by decide, by decide, by decide⟩
theorem witness_CounterReads_9 :
    recs.quiet = true ∧ (recs.ctxOf (cm recUploadDesc (toBe 4 1 ++ toBe 4 65536)) recUploadDesc).broadcast = false ∧
    recs.admits (cm recUploadDesc (toBe 4 1 ++ toBe 4 65536)) recUploadDesc = true ∧
    recs.admits (cm recQueryDesc (toBe 4 1 ++ toBe 2 43 ++ [3, 0])) recQueryDesc = true :=
  ⟨by decide, by decide, by decide, by decide⟩
/-- A synchronised active module with a load open, and one whose standby has verified bank 1. -/
def ldPair : State := pairT.openLoad true 2 99
def verPair : State :=
  { pairT with mram := { pairT.mram with banks := im.mram.banks ++
      [(1, { state := .verified, words := 1, desc := oneBlock 1, code := [(0, 0x01000000)], partnerVerified := true })] } }
/-- A module alone whose partner resynchronises, with bank 1 in the snapshot. -/
def verAlone : State :=
  { verPair with
    pair := { verPair.pair with state := .alone, partnerHb := some { (default : Heartbeat) with state := 1 } }
    mram := { verPair.mram with banks := im.mram.banks ++
      [(1, { state := .verified, words := 1, desc := oneBlock 1, code := [(0, 0x01000000)], inSnapshot := true })] } }
theorem witness_ProgramCommands_7 :
    ld.plannedLoad = some (true, 2) ∧ ld.forwards = false ∧
    be32 (ld.payloadOf pd programDataDesc) 0 + (packWords (((ld.payloadOf pd programDataDesc).length - 4) / 4) ((ld.payloadOf pd programDataDesc).drop 4)).length ≤ 2 :=
  ⟨by decide, by decide, by decide⟩
theorem witness_ProgramCommands_8 :
    (ldPair.forwards && ldPair.causewayLost) = false ∧ ldPair.forwards = true ∧ ldPair.plannedLoad = some (true, 2) ∧
    ldPair.admits pd programDataDesc = true ∧ ldPair.admits pe programEndDesc = true ∧ pairT.admits pb programBeginDesc = true :=
  ⟨by decide, by decide, by decide, by decide, by decide, by decide⟩
theorem witness_ProgramCommands_9 :
    verPair.forwards = true ∧ (verPair.forwards && verPair.causewayLost) = false ∧ verPair.admits (cm programSwitchDesc (toBe 4 1)) programSwitchDesc = true ∧
    (verPair.bank verPair.stagedNo).state = .verified ∧ verPair.loadWaits (verPair.stagedNo == 1) = false ∧ verPair.hasStandby = true ∧
    (verPair.bank verPair.stagedNo).partnerVerified = true ∧ verPair.square.switch = none :=
  ⟨by decide, by decide, by decide, by decide, by decide, by decide, by decide, by decide⟩
theorem witness_ProgramCommands_10 :
    verAlone.forwards = false ∧ verAlone.hasStandby = true ∧ verAlone.admits (cm programSwitchDesc (toBe 4 1)) programSwitchDesc = true ∧
    (verAlone.bank verAlone.stagedNo).inSnapshot = true ∧ (verAlone.bank verAlone.stagedNo).state = .verified ∧
    verAlone.loadWaits (verAlone.stagedNo == 1) = false ∧ verAlone.square.switch = none ∧ ver.hasStandby = false ∧ ver.loadWaits true = false :=
  ⟨by decide, by decide, by decide, by decide, by decide, by decide, by decide, by decide, by decide⟩
def pairSym : State := { pairT with mram := { pairT.mram with banks := symIm.mram.banks } }
theorem witness_LandingCommands_8 :
    pairSym.forwards = true ∧ (pairSym.forwards && pairSym.causewayLost) = false ∧ pairSym.admits fs forceSetDesc = true ∧
    pairSym.parseRef (pairSym.payloadOf fs forceSetDesc) 0 = some dRef ∧
    (pairSym.planForces [] (dRef.items.zip (packWords dRef.count ((pairSym.payloadOf fs forceSetDesc).drop 8)))).isSome = true ∧
    pairSym.admits (cm forceReleaseDesc []) forceReleaseDesc = true ∧ pairSym.admits (cm forceReleaseDesc (fs.payload.take 8)) forceReleaseDesc = true :=
  ⟨by decide, by decide, by decide, by decide, by decide, by decide, by decide⟩
/-- The firing times of a threshold and of a limit at the ends of their ranges, and of the sources beside them. -/
theorem witness_EventRows_8 :
    (∀ f ∈ [(64, 77), (191, 77)], 64 ≤ f.1 ∧ f.1 < 192) ∧ (∀ f ∈ [(63, 77), (192, 77)], ¬ (64 ≤ f.1 ∧ f.1 < 192)) :=
  ⟨by decide, by decide⟩
/-- The module at `ns` after its last base tick. -/
def tickAfter (s : State) (ns : Nat) : State := { s with loop := { s.loop with tickAt := some (s.now - ns) } }
theorem witness_LoopRows_10 :
    (tickAfter im 9999).loop.tickAt = some 4999990001 ∧ 4999990001 ≤ (tickAfter im 9999).now ∧ (tickAfter im 9999).now < 4999990001 + 10000 ∧
    ((tickAfter im 9999).forwards && (tickAfter im 9999).causewayLost) = false :=
  ⟨by decide, by decide, by decide, by decide⟩
theorem witness_LoopRows_11 :
    (tickAfter im 10000).loop.tickAt = some 4999990000 ∧ 4999990000 + 10000 ≤ (tickAfter im 10000).now ∧ (tickAfter im 10000).service = .full ∧
    (tickAfter im 10000).loop.live = false ∧ ((tickAfter im 10000).standby && (tickAfter im 10000).pair.snapshot) = false :=
  ⟨by decide, by decide, by decide, by decide, by decide⟩
theorem witness_LoopRows_12 :
    (tickAfter synSnap 10000).loop.tickAt = some 4999990000 ∧ 4999990000 + 10000 ≤ (tickAfter synSnap 10000).now ∧
    (tickAfter synSnap 10000).service = .full ∧ (tickAfter synSnap 10000).loop.live = false ∧ (tickAfter synSnap 10000).standby = true ∧
    (tickAfter synSnap 10000).pair.snapshot = true :=
  ⟨by decide, by decide, by decide, by decide, by decide, by decide⟩
theorem witness_LoopRows_13 :
    (tickAfter lvOff 10000).loop.tickAt = some 4999990000 ∧ (tickAfter lvOff 10000).loop.live = true ∧ (tickAfter lvOff 10000).runs 4 = false ∧
    (tickAfter lvOff 10000).service = .full :=
  ⟨by decide, by decide, by decide, by decide⟩
theorem witness_LoopRows_14 :
    (tickAfter lv7 10000).loop.tickAt = some 4999990000 ∧ (tickAfter lv7 10000).service = .full ∧ (tickAfter lv7 10000).loop.live = true ∧
    (tickAfter lv7 10000).runs 4 = true ∧ (tickAfter lv7 10000).loopOrder ((tickAfter lv7 10000).loop.tick + 1) = [7] ∧
    (tickAfter lv7 10000).upsets = [] ∧ ∀ m < 256, ((tickAfter lv7 10000).loopCtx m).sinkNew = false :=
  ⟨by decide, by decide, by decide, by decide, by decide, by decide, by decide⟩
/-- The device of the channel's running transaction has left two unanswered, and another one three. -/
def hartQuiet : State := hart.modUc 0 fun u => { u with silences := [((0, 0), 2), ((9, 9), 3)] }
def hartSide : State := { hart with service := .sideStreet }
theorem witness_HartRows_7 :
    (hartQuiet.uc 0).jobs = [default] ∧
    (match (hartQuiet.uc 0).silences.find? (fun e => e.1 == ((default : HartJob).longHi, (default : HartJob).longLo)) with
      | some e => e.2 | none => 0) = 2 ∧
    (match (hart.uc 0).silences.find? (fun e => e.1 == ((default : HartJob).longHi, (default : HartJob).longLo)) with
      | some e => e.2 | none => 0) = 0 :=
  ⟨by decide, by decide, by decide⟩
theorem witness_HartRows_8 :
    (hart.uc 0).scanning = true ∧ hart.hartReady 0 = true ∧ (List.replicate 6 (⟨1, 2, 3⟩ : HartFound)).length ≤ 6 ∧
    (hartSide.uc 0).scanning = true ∧ hartSide.hartReady 0 = false ∧ ucHart (hart.ucCfg 0) = true ∧ (hart.uc 0).state = .run :=
  ⟨by decide, by decide, by decide, by decide, by decide, by decide, by decide⟩

/-! ### Further clauses: CAN windows, the digital field side, the Fire Lane -/

/-- The window's state with the page of its slot's first word under repair. -/
def cwLocked : State :=
  { cw with locks := [{ array := 2, page := ((cw.nAddrs (cw.slotWords 0 (cellSlot (cw.cellWord 0 (cw.can 0).row 0)))).getD 0 0) / 512 }] }
theorem witness_CanFrameRows_8 :
    cwLocked.windowStart 0 0 = some 4999900000 ∧ cwLocked.windowEnd 0 0 = some 5000400000 ∧ cwLocked.service = .full ∧ cwLocked.canSends 0 = true ∧
    cwLocked.canSchedule 0 ≠ 0 ∧ (cwLocked.can 0).served.contains 0 = false ∧
    cellKind (cwLocked.cellWord 0 (cwLocked.can 0).row 0) = 1 ∧ cellContent (cwLocked.cellWord 0 (cwLocked.can 0).row 0) = 0 ∧ cwLocked.upsets = [] ∧
    (cwLocked.can 0).building = none ∧
    (cwLocked.nAddrs (cwLocked.slotWords 0 (cellSlot (cwLocked.cellWord 0 (cwLocked.can 0).row 0)))).any (cwLocked.locked 2) = true :=
  ⟨by decide, by decide, by decide, by decide, by decide, by decide, by decide, by decide, by decide, by decide, by decide⟩
/-- Input 0 with a count threshold of 2, one edge counted before. -/
def thr (v : Nat) : State := (cfgd im [(0x420, 0, 0xC0144100), (0x420, 1, v), (0x428, 0, 0x80140100)]).modDi 0 fun x => { x with raw := 1 }
theorem witness_DigitalFieldRows_16 :
    (thr 2).diEnable 0 = true ∧ ((thr 2).diGroup 0).lost = false ∧ ((thr 2).di 0).countLevel ≠ some true ∧
    ((thr 2).di 0).countFrom + (thr 2).countFilterNs 0 ≤ 4000000000 ∧ (thr 2).diCountEdge 0 % 2 = 1 ∧ (thr 2).diThreshold 0 ≠ 0 ∧
    (thr 2).diThreshold 0 ≤ (((thr 2).di 0).raw + 1 - ((thr 2).di 0).thresholdBase).toNat ∧
    ¬ (thr 3).diThreshold 0 ≤ (((thr 3).di 0).raw + 1 - ((thr 3).di 0).thresholdBase).toNat ∧ (thr 3).diThreshold 0 ≠ 0 :=
  ⟨by decide, by decide, by decide, by decide, by decide, by decide, by decide, by decide, by decide⟩
/-- Group 2 of each kind with one sample below each level, and the higher levels in force. -/
def gBelow (k : GroupKind) (sag low lost : Bool) : State :=
  im.setDGroup k 2 { im.dGroup k 2 with below := 1, belowLow := 1, belowLost := 1, sag := sag, low := low, lost := lost }
theorem witness_DigitalFieldRows_17 :
    (∀ k ∈ [GroupKind.di, .do_], 2 < groupCount k ∧ 1 ≤ ((gBelow k false false false).dGroup k 2).below ∧
      ((gBelow k false false false).dGroup k 2).sag = false) ∧ (15000 ≤ 19199 ∧ 19199 < 19200) ∧ (15000 ≤ 15000 ∧ 15000 < 19200) ∧ 19200 ≤ 19200 :=
  ⟨by decide, by decide, by decide, by decide⟩
theorem witness_DigitalFieldRows_18 :
    (∀ k ∈ [GroupKind.di, .do_], ∀ sag ∈ [true, false], 1 ≤ ((gBelow k sag false false).dGroup k 2).below ∧
      1 ≤ ((gBelow k sag false false).dGroup k 2).belowLow ∧ ((gBelow k sag false false).dGroup k 2).low = false) ∧
    (12000 ≤ 14999 ∧ 14999 < 15000) ∧ (12000 ≤ 12000 ∧ 12000 < 15000) :=
  ⟨by decide, by decide, by decide⟩
theorem witness_DigitalFieldRows_19 :
    (∀ k ∈ [GroupKind.di, .do_], 1 ≤ ((gBelow k true true false).dGroup k 2).belowLost ∧ ((gBelow k true true false).dGroup k 2).sag = true ∧
      ((gBelow k true true false).dGroup k 2).low = true ∧ ((gBelow k true true false).dGroup k 2).lost = false) ∧ 11999 < 12000 :=
  ⟨by decide, by decide⟩
theorem witness_DigitalFieldRows_20 :
    (∀ k ∈ [GroupKind.di, .do_], ((gBelow k true true true).dGroup k 2).sag = true ∧ ((gBelow k true true true).dGroup k 2).low = true ∧
      ((gBelow k true true true).dGroup k 2).lost = true) ∧
    { gBelow .do_ true true true with service := .sideStreet }.service = .sideStreet ∧ (gBelow .do_ true true true).service ≠ .sideStreet :=
  ⟨by decide, by decide, by decide⟩
/-- Output 5, switched off by its protection, with a retry at `at_`. -/
def protOff (at_ : Nat) (hot latched : Bool) : State :=
  dig.modDo 5 fun d => { d with protectedOff := true, retryAt := at_, hot := hot, latchedOff := latched }
theorem witness_OutputProtectionRows_10 :
    ((protOff 5000000001 false false).do_ 5).protectedOff = true ∧ (protOff 5000000001 false false).now < ((protOff 5000000001 false false).do_ 5).retryAt ∧
    ((protOff 5 true false).do_ 5).hot = true ∧ ((protOff 5 false true).do_ 5).latchedOff = true :=
  ⟨by decide, by decide, by decide, by decide⟩
/-- The same with the bit of the committed Q on. -/
def protOn (at_ : Nat) : State :=
  let s := (cfgd im [(0x465, 0, 0xC0000000)]).modDo 5 fun d => { d with protectedOff := true, retryAt := at_ }
  { s with square := { s.square with mem := (List.range 4).map fun k => (sqCommitted + k, 255) } }
theorem witness_OutputProtectionRows_11 :
    ((protOn 5000000000).do_ 5).protectedOff = true ∧ ((protOn 5000000000).do_ 5).retryAt ≤ (protOn 5000000000).now ∧
    ((protOn 5000000000).do_ 5).hot = false ∧ ((protOn 5000000000).do_ 5).latchedOff = false ∧
    (protOn 5000000000).doWould 5 ((protOn 5000000000).doSelect 5).1 = true ∧ (protOn 5000000000).doLatches 5 = false :=
  ⟨by decide, by decide, by decide, by decide, by decide, by decide⟩
theorem witness_OutputHoldRows_8 :
    let s := dig.modDo 15 fun d => { d with latchedOff := true }
    15 / 8 = (1 : Fin 4).val ∧ (0x80 : BitVec 8).getLsbD (15 % 8) = true ∧ (s.do_ 15).latchedOff = true ∧ (s.doGroup 1).lost = false ∧ (s.do_ 15).hot = false := by
  decide

/-- A module in Side-Street mode whose staged set takes input 5, with the digital side off. -/
def coldSet : State := (cfgd { im with service := .sideStreet } [(0x880, 0, 0x14050000)]).modDomain 7 fun d => { d with state := .off }
def coldArm : Arm := { armed with crc := coldSet.stagedCrc }
def confirmCold : State := { coldSet with fire := { coldSet.fire with arm := some coldArm } }
def fcCold : Packet := cm fireConfirmDesc (wordBe coldSet.stagedCrc ++ [0, 7, 0, 0])
theorem payload_fc_cold : confirmCold.payloadOf fcCold fireConfirmDesc = wordBe coldSet.stagedCrc ++ [0, 7, 0, 0] := rfl
theorem witness_FireCommands_8 :
    confirmCold.service ≠ .full ∧ confirmCold.fire.arm = some coldArm ∧ coldArm.crc = beWord (confirmCold.payloadOf fcCold fireConfirmDesc) 0 ∧
    confirmCold.admits fcCold fireConfirmDesc = true ∧ confirmCold.forwards = false ∧
    coldArm.token.toNat = be16 (confirmCold.payloadOf fcCold fireConfirmDesc) 4 ∧ coldArm.origin = (confirmCold.ctxOf fcCold fireConfirmDesc).origin ∧
    (((confirmCold.admitted fcCold fireConfirmDesc).disarm).holdFire confirmCold.stagedWords).fireReady = false ∧
    (((w23.admitted fc fireConfirmDesc).disarm).holdFire w23.stagedWords).fireReady = true :=
  ⟨by decide, rfl, by rw [payload_fc_cold]; exact (beWord_wordBe _ _).symm, by decide, by decide, by decide, by decide, by decide, by decide⟩
/-- Slot 0 of a kind, with its words, as the set in force has it, last heard of at `at_`. -/
def slotS (w0 w1 w2 : Word) (x : FireSlot) : State :=
  { im with mram := { im.mram with fire := [(0, w0), (1, w1), (2, w2)] }, fire := { im.fire with slots := [(0, x)] } }
theorem witness_FireRows_6 :
    (slotS 0x14050000 0 0 {}).inKind 0 = 1 ∧ (slotS 0x14050000 0 0 {}).inRef 0 = 5 ∧ (slotS 0x14050000 0 0 {}).inRef 0 ≠ 6 ∧
    (slotS 0x20010000 100 10 {}).inKind 0 = 2 ∧ (slotS 0x30010000 100 10 {}).inKind 0 = 3 ∧ (slotS 0x20010000 100 10 {}).inRef 0 = 1 ∧
    (slotS 0x30010000 100 10 {}).inRef 0 ≠ 2 :=
  ⟨by decide, by decide, by decide, by decide, by decide, by decide, by decide⟩
theorem witness_FireRows_7 :
    (slotS 0x40070064 3 0x80090000 {}).inKind 0 = 4 ∧ (slotS 0x40070064 3 0x80090000 {}).inRef 0 = (7 : BitVec 16).toNat ∧
    (bit ((slotS 0x40070064 3 0x80090000 {}).inWord 0 2) 31 = true ∧ bits ((slotS 0x40070064 3 0x80090000 {}).inWord 0 2) 25 16 = (9 : BitVec 16).toNat) ∧
    (slotS 0x40070064 3 0x80090000 {}).inRef 0 ≠ (8 : BitVec 16).toNat ∧ bits ((slotS 0x40070064 3 0x80090000 {}).inWord 0 2) 25 16 ≠ (8 : BitVec 16).toNat :=
  ⟨by decide, by decide, by decide, by decide, by decide⟩
theorem witness_FireRows_8 :
    (slotS 0x50000064 0x40000123 0 {}).inKind 0 = 5 ∧ (slotS 0x50000064 0x40000123 0 {}).canMatches 0 1 false 0x123 = true ∧
    (slotS 0x50000064 0x40000123 0 {}).canMatches 0 0 false 0x123 = false ∧
    (List.range 32).any (fun j => (slotS 0x50000064 0x40000123 0 {}).canMatches j 1 false 0x123) = true ∧
    (List.range 32).any (fun j => (slotS 0x50000064 0x40000123 0 {}).canMatches j 1 false 0x124) = false ∧
    (slotS 0x60030000 0 0 {}).inKind 0 = 6 ∧ (0x0008 : BitVec 16).getLsbD ((slotS 0x60030000 0 0 {}).inRef 0) = true :=
  ⟨by decide, by decide, by decide, by decide, by decide, by decide, by decide⟩
/-- Slots of kinds 4 and 2 at the last instant of their time, and one nanosecond after it. -/
theorem witness_FireRows_9 :
    let ringAt := fun (t : Nat) => slotS 0x40070064 3 0 { unassured := false, reason := 0, lastAt := some t }
    let ucAt := fun (t : Nat) => slotS 0x20010000 100 10 { unassured := true, reason := 5, lastAt := some t }
    ((ringAt 4900000000).fireSlot 0).lastAt = some 4900000000 ∧ bits ((ringAt 4900000000).inWord 0 0) 15 0 * 1000000 = 100000000 ∧
    (ringAt 4900000000).now ≤ 4900000000 + 100000000 ∧ 4899999999 + 100000000 < (ringAt 4899999999).now ∧
    3 * (ucAt 0).ucPeriod ((ucAt 0).inRef 0) + 1000000 ≤ 5000000000 ∧
    (ucAt (5000000000 - (3 * (ucAt 0).ucPeriod 1 + 1000000))).now ≤
      5000000000 - (3 * (ucAt 0).ucPeriod 1 + 1000000) + (3 * (ucAt 0).ucPeriod 1 + 1000000) ∧
    4999999999 - (3 * (ucAt 0).ucPeriod 1 + 1000000) + (3 * (ucAt 0).ucPeriod 1 + 1000000) < (ucAt 0).now := by decide
theorem witness_FireRows_10 :
    (slotS 0x14050000 0 0 {}).inKind 0 ≠ 0 ∧ (slotS 0x14050000 0 0 {}).inKind 0 ≠ 7 ∧ (slotS 0 0 0 {}).inKind 0 = 0 ∧ (slotS 0x70050000 0 0 {}).inKind 0 = 7 :=
  ⟨by decide, by decide, by decide, by decide⟩
/-- Function 0 with slots 0 and 1 as its inputs, each counted by its condition as told. -/
def fnS (w : Word) (x : FireFn) (a b : Bool) : State :=
  { im with
    mram := { im.mram with fire := [(0, 0x14000000), (3, 0x14010000), (96, w), (97, 3)] }
    fire := { im.fire with fns := [(0, x)], slots := [(0, { condition := a, unassured := false, reason := 0 }), (1, { condition := b, unassured := false, reason := 0 })] } }
def votesOf (s : State) : Nat := ((List.range 32).filter fun i => bit (s.fnWord 0 1) i && s.inCounted i).length
def needOf (s : State) : Nat :=
  match bits (s.fnWord 0 0) 30 29 with
  | 0 => 1
  | 1 => ((List.range 32).filter fun i => bit (s.fnWord 0 1) i).length
  | _ => bits (s.fnWord 0 0) 23 20
theorem witness_FireRows_11 :
    needOf (fnS 0x80000000 {} true false) = 1 ∧ votesOf (fnS 0x80000000 {} true false) = 1 ∧ votesOf (fnS 0x80000000 {} false false) = 0 ∧
    needOf (fnS 0xA0000000 {} true true) = 2 ∧ votesOf (fnS 0xA0000000 {} true true) = 2 ∧ votesOf (fnS 0xA0000000 {} true false) = 1 ∧
    needOf (fnS 0xC0200000 {} true true) = 2 ∧ ((fnS 0xC0200000 {} true true).fireFn 0).tripped = false ∧
    bit ((fnS 0xC0200000 {} true true).fnWord 0 0) 31 = true :=
  ⟨by decide, by decide, by decide, by decide, by decide, by decide, by decide, by decide, by decide⟩
theorem witness_FireRows_12 :
    let s := fnS 0xA0000000 { tripped := true, done := true } true false
    bit (s.fnWord 0 0) 31 = true ∧ (s.fireFn 0).tripped = true ∧ bit (s.fnWord 0 0) 28 = false ∧ (s.fireFn 0).done = true ∧ votesOf s < needOf s ∧
    bit ((fnS 0x00000000 {} true true).fnWord 0 0) 31 = false ∧
    ((fnS 0xA0000000 { tripped := true } true false).fireFn 0).done = false ∧ bit ((fnS 0xB0000000 { tripped := true } true false).fnWord 0 0) 28 = true := by
  decide

/-! ### Further clauses: memory, panel, islands -/

/-- Array 1 with an error in another page, which a repair of page 3 leaves alone. -/
def lkOther : State := { lk with upsets := [{ array := 1, page := 4, byte := 0, multi := false, hard := false }] }
theorem witness_MemoryRows_11 :
    lkOther.locks.find? (·.array == 1) = some { array := 1, page := 3 } ∧ (∀ u ∈ lkOther.upsets, u.array ≠ 1 ∨ u.page ≠ 3) ∧
    repairable [1, 3, 5, 7, 9, 11, 13, 15, 17] 0 = false ∧ lk.sup.stalled = [] ∧ (∀ k < 2, (lk.can k).storing = []) :=
  ⟨by decide, by decide, by decide, by decide, by decide⟩
theorem witness_MemoryRows_12 : dataPlace 508 < ((bk.modArr 2 fun x => { x with scrubbed := dataPlace 512 }).arr 2).scrubbed := by decide
/-- The panel with its last frame `ns` ago; a frame takes 1/FRAME_HZ. -/
def frameAfter (s : State) (ns : Nat) : State := { s with panel := { s.panel with frameAt := some (s.now - ns) } }
def frameNs : Nat := 1000000000 / max 1 (bits (im.cfg 0xB00 0) 23 16)
theorem witness_PanelRows_16 :
    (frameAfter psw (frameNs - 1)).panel.state = .on ∧ (frameAfter psw (frameNs - 1)).panel.frameAt = some (5000000000 - (frameNs - 1)) ∧
    5000000000 - (frameNs - 1) ≤ (frameAfter psw (frameNs - 1)).now ∧ (frameAfter psw (frameNs - 1)).now < 5000000000 - (frameNs - 1) + frameNs :=
  ⟨by decide, by decide, by decide, by decide⟩
theorem witness_PanelRows_17 :
    (frameAfter psw frameNs).panel.frameAt = some (5000000000 - frameNs) ∧ 5000000000 - frameNs + frameNs ≤ (frameAfter psw frameNs).now ∧
    (frameAfter psw frameNs).panel.swapDue = true ∧ (frameAfter psw frameNs).runs 19 = true ∧ (frameAfter psw frameNs).panel.state = .on :=
  ⟨by decide, by decide, by decide, by decide, by decide⟩
/-- The panel powering up with its supplies measured. -/
def upWith (v r : BitVec 16) (since : Nat) : State :=
  { im with panel := { im.panel with state := .poweringUp, vcol := some v, vrow := some r, since := since, wantOn := true } }
theorem witness_PanelRows_18 :
    (upWith 7999 10000 5).panel.state = .poweringUp ∧ (upWith 7999 10000 5).panel.scanned = false ∧ panelSupplyOk 7999 10000 = false ∧
    panelSupplyOk 18000 20000 = true ∧ (upWith 8000 10000 4990000001).now < (upWith 8000 10000 4990000001).panel.since + 10000000 ∧
    panelSupplyOk 8000 20001 = false :=
  ⟨by decide, by decide, by decide, by decide, by decide, by decide⟩
theorem witness_PanelRows_19 : psw.panel.frameAt = none ∧ w30.panel.frameAt = none ∧ pcr.panel.frameAt = none := ⟨rfl, rfl, rfl⟩
def auditBack : State := { im with auditAt := im.now + 1 }
def auditNow (ns : Nat) : State := { im with auditAt := im.now - ns }
theorem witness_IslandRows_9 :
    auditBack.keepRuns = true ∧ auditBack.now < auditBack.auditAt ∧
    (auditNow im.roundPeriodNs).auditAt + (auditNow im.roundPeriodNs).roundPeriodNs ≤ (auditNow im.roundPeriodNs).now ∧
    (auditNow (im.roundPeriodNs - 1)).auditAt ≤ (auditNow (im.roundPeriodNs - 1)).now ∧
    (auditNow (im.roundPeriodNs - 1)).now < (auditNow (im.roundPeriodNs - 1)).auditAt + (auditNow (im.roundPeriodNs - 1)).roundPeriodNs :=
  ⟨by decide, by decide, by decide, by decide, by decide⟩

/-! ### Further clauses: the pair -/

theorem witness_PairLineRows_22 :
    let at_ := fun (u h : Nat) => { prb with pair := { prb.pair with claimOff := some u, hbSeenAt := some h } }
    (at_ 4999000000 4999000001).pairMode = true ∧ 4999000000 + 1000000 ≤ (at_ 4999000000 4999000001).now ∧
    (at_ 4999000000 4999000001).now < 4999000001 + 1000000 ∧ (at_ 4999000000 4999000001).pair.lineTold = false ∧
    (at_ 4999000001 4999000001).now < 4999000001 + 1000000 := by decide
/-- The module's own claim, raised or released at `t`, as its last heartbeat reported it. -/
def ownLine (claim : Bool) (t : Nat) (told : Bool) : State :=
  { prb with pair := { prb.pair with claimOwn := claim, ownRoseAt := t, ownFellAt := some t, hbSent := some { hb with claim := claim }, ownLineBad := told } }
theorem witness_PairLineRows_23 :
    (∀ c ∈ [true, false], ∀ b ∈ [true, false], (ownLine c 4999000000 b).pair.hbSent = some { hb with claim := c } ∧
      (ownLine c 4999000000 b).pair.claimOwn = c ∧ (ownLine c 4999000000 b).pair.ownLineBad = b ∧
      (if (ownLine c 4999000000 b).pair.claimOwn = true then (ownLine c 4999000000 b).pair.ownRoseAt
        else (ownLine c 4999000000 b).pair.ownFellAt.getD 0) + 1000000 ≤ (ownLine c 4999000000 b).now) ∧ prb.pairMode = true := by decide
theorem witness_PairLineRows_24 :
    prb.pairMode = true ∧ prb.faultyInterlock = false ∧
    { prb with pair := { prb.pair with hbSent := some hb, hbGenAt := 4999750000 } }.pair.hbGenAt + 250000 ≤ prb.now ∧
    prb.now < { prb with pair := { prb.pair with hbSent := some hb, hbGenAt := 4999750001 } }.pair.hbGenAt + 250000 ∧
    { clm with pair := { clm.pair with hbGenAt := 4999000000 } }.pair.hbGenAt + 1000000 ≤ clm.now := by decide
theorem witness_PairLineRows_25 :
    let s := { relS with pair := { relS.pair with releaseAt := some 4999991000 } }
    s.pairMode = true ∧ s.pending = [] ∧ (s.lapse idleNs).now ≤ 4999991000 + 10000 ∧
    4999990999 + 10000 < ({ relS with pair := { relS.pair with releaseAt := some 4999990999 } }.lapse idleNs).now ∧ relS.pair.state = .sync ∧
    relS.pair.incoming = none := by decide
theorem witness_PairSyncRows_14 :
    syn.pairMode = true ∧ syn.shadows = true ∧ (syn.frozenCycle - nextCycle (nextCycle (5 : BitVec 32))).msb = false ∧
    (syn.frozenCycle - nextCycle (nextCycle (6 : BitVec 32))).msb = true ∧ (6 : BitVec 32) ∉ syn.pair.received ∧
    (syn.frozenCycle - nextCycle (nextCycle lg.cycle)).msb = true :=
  ⟨by decide, by decide, by decide, by decide, by decide, by decide⟩
theorem witness_PairSyncRows_15 :
    syn.cableUp = true ∧ syn.shadows = true ∧ syn.ownCycle = false ∧ ((9 : BitVec 32) - syn.square.current).msb = false ∧ (9 : BitVec 32) ≠ syn.square.current ∧
    ((7 : BitVec 32) - syn.square.current).msb = true ∧ ofForces (Change.object 257 1 300) = false :=
  ⟨by decide, by decide, by decide, by decide, by decide, by decide, by decide⟩
theorem witness_PairSyncRows_16 : rsn.pairMode = true ∧ rsn.pair.state = .syncing ∧ rsn.pair.snapshot = false ∧ rsn.causewayLost = false :=
  ⟨by decide, by decide, by decide, by decide⟩
theorem witness_PairSyncRows_17 :
    rhs.pairMode = true ∧ ({ rh with handBack := false, failed := [3] } : Rehearsal).failed ≠ [] ∧
    { rhs with pair := { rhs.pair with rehearsal := some { rh with handBack := false, failed := [3] } } }.dwellOver { rh with handBack := false, failed := [3] } = true :=
  ⟨by decide, by decide, by decide⟩

/-! ### Further clauses: the ring, time and supply -/

/-- An ENUMERATE frame for every module. -/
def frEnum : HsrFrame :=
  { fr with payload := ({ en with peer := 5 } : Packet).header ++ en.payload }
theorem witness_RingRows_14 :
    rng.ringPortUp 0 = true ∧ isEnumerate frEnum = true ∧ isEnumerate fr0 = false ∧ isEnumerate fr = false ∧ isEnumerate fr2 = false :=
  ⟨by decide, by decide, by decide, by decide, by decide⟩
theorem witness_RingRows_15 :
    let x : RingPort := { busyUntil := 5000000000 }
    let y : RingPort := { busyUntil := 5000000001, queue := [fr2, fr] }
    (x.queue = [] ∧ x.busyUntil ≤ rng.now) ∧ (rng.now < y.busyUntil ∧ isStation fr = false) ∧
    (isStation fr2 = true ∧ y.queue = [fr2] ++ [fr] ∧ (∀ g ∈ [fr2], isStation g = true) ∧ ∀ g ∈ [fr], isStation g = false) := by decide
theorem witness_RingRows_16 : fr.etherType ≠ etPtp ∧ rng.ringPortUp 1 = true ∧ un.ringPortUp 0 = true ∧ im.ringPortUp 0 = false :=
  ⟨by decide, by decide, by decide, by decide⟩
/-- Module time with an Announce heard, in Side-Street mode or acquiring in full service. -/
def ptpSide : State := { rng with service := .sideStreet, ring := { rng.ring with time := .freeRun, announced := true } }
theorem witness_RingRows_17 :
    rng.ptpEn = true ∧ rng.ringPortUp 0 = true ∧ (0 : Fin 2).val = b2n rng.syncPort ∧ (0 : BitVec 8).toNat = rng.ptpDomain ∧ rng.service = .full ∧
    rng.ring.time = .locked ∧ rng.syncLimit < ((rng.syncLimit : Int) + 1).natAbs ∧ (0 : Int) < rng.syncLimit + 1 :=
  ⟨by decide, by decide, by decide, by decide, by decide, by decide, by decide, by decide⟩
theorem witness_RingRows_18 :
    ptpSide.ptpEn = true ∧ ptpSide.ringPortUp 0 = true ∧ (0 : Fin 2).val = b2n ptpSide.syncPort ∧ (0 : BitVec 8).toNat = ptpSide.ptpDomain ∧
    ptpSide.service = .sideStreet ∧ ptpSide.ring.announced = true ∧ (ptpSide.ring.time = .freeRun ∨ ptpSide.ring.time = .holdover) :=
  ⟨by decide, by decide, by decide, by decide, by decide, by decide, by decide⟩
theorem witness_RingRows_19 :
    (1 : Fin 2).val ≠ b2n rng.syncPort ∧ (1 : BitVec 8).toNat ≠ rng.ptpDomain ∧ im.ringPortUp 0 = false := ⟨by decide, by decide, by decide⟩
theorem witness_RingRows_20 :
    rng.service ≠ .off ∧ rng.runs 18 = true ∧
    { rng with power := { rng.power with sampledAt := some 4900000000 } }.dueEvery (some 4900000000) 100000000 = true ∧
    { rng with ring := { rng.ring with lastSync := some 2000000000 } }.ring.time = .locked ∧ 2000000000 + 3000000000 ≤ rng.now :=
  ⟨by decide, by decide, by decide, by decide, by decide⟩
theorem witness_SupplyRows_12 :
    let s := { im with power := { im.power with lp2Ok := false } }
    s.service ≠ .off ∧ 4499 < 4500 ∧ s.power.lp2Ok = false := by decide
/-- Full service that does not begin: for each condition one state or reading that lacks it. -/
theorem witness_SupplyRows_13 :
    im.service ≠ .sideStreet ∧ { ssf with power := { ssf.power with warning := some 5 } }.power.warning.isSome = true ∧
    (ssf.modIsland 16 fun i => { i with state := .restarting }).supAnswers = false ∧
    { ssf with mram := { ssf.mram with fireVoid := [(0, true), (1, true)] } }.mram.fireValid = false ∧ ssf.serviceMv - 1 < ssf.serviceMv ∧ 43999 < 44000 := by
  decide
theorem witness_SupplyRows_14 :
    ssf.service = .sideStreet ∧ ssf.supAnswers = true ∧ ssf.serviceMv ≤ ssf.serviceMv ∧ 44000 ≤ 44000 ∧
    ssf.spansWait (ssf.startSpans (ssf.mram.lastStart.toNat % 2 == 1)) = none :=
  ⟨by decide, by decide, by decide, by decide, by decide⟩
theorem witness_SupplyRows_15 :
    im.power.warning = none ∧ 4299 < 4300 ∧ exd.square.phase ≠ .idle ∧ exd.working = true ∧ im.square.phase = .idle ∧
    { hux with pair := { hux.pair with handover := some 20 } }.pair.handover.isSome = true ∧
    { hux with power := { hux.power with warning := some 4995000000 } }.now = 4995000000 + 5000000 ∧
    { ssf with power := { ssf.power with validAt := 4000000000 } }.power.validAt + 1000000000 ≤ ssf.now := by decide
theorem witness_ReplyRows_5 :
    { rep with body := List.replicate 1398 0 }.body.length ≤ 1398 ∧ w35.now = 4900000000 + 100000000 ∧ ws.now = 4000000000 + wn.idleClose * 1000000000 :=
  ⟨by decide, by decide, by decide⟩

/-! ### Further clauses: numbers admitted, forms of a jump, area codes, a load that ends, events, the loop engine -/

theorem witness_ReplayWindow_4 :
    repl.h < 101 ∧ repl.admits 60 = true ∧ (60 : BitVec 32) ≠ 0 ∧ (60 : BitVec 32) ≠ 101 ∧ repl.h.toNat ≤ (60 : BitVec 32).toNat + 63 ∧
    (101 : BitVec 32).toNat ≤ (60 : BitVec 32).toNat + 63 := by decide
theorem witness_ReplayWindow_5 :
    (7 : BitVec 32) ≠ 0 ∧ 7 ∉ ([70, 69, 8] : List (BitVec 32)) ∧
    (([70, 69, 8] : List (BitVec 32)).all fun x => decide (x.toNat ≤ (7 : BitVec 32).toNat + 63)) = true ∧
    (([70, 69, 8] : List (BitVec 32)).all fun x => decide (x.toNat ≤ (6 : BitVec 32).toNat + 63)) = false := by decide
theorem witness_BitStoreResult_11 :
    let s := (owing 0).setCrossing (crossingId 0 6) { waiting := [{ cls := 1, slots := 16, since := 5, cargo := .other }] }
    (∃ m ∈ (s.crossing (crossingId 0 6)).waiting, m.cls ≤ 1) ∧
    3 ≤ 32 - slotsOf (s.crossing (crossingId 0 6)).queued - (s.crossing (crossingId 0 6)).returning := ⟨⟨_, .head _, by decide⟩, by decide⟩
theorem witness_JumpResult_11 :
    (about (.jt 0 100) X).inBlock 0 100 = false ∧ (about (.jt 0 100) X).issues (.jt 0 100) = true ∧ ((about (.jt 0 100) X).engine 0).cbP = false ∧
    ((about (.jt 0 100) X).engine 0).cb = true ∧ (about (.jf 0 100) w11).issues (.jf 0 100) = true ∧ ((about (.jf 0 100) w11).engine 0).cb = false ∧
    (about (.jov 0 100) w14).issues (.jov 0 100) = true ∧ ((about (.jov 0 100) w14).engine 0).ovf = true ∧
    (about (.jovs 0 100) w15).issues (.jovs 0 100) = true ∧ ((about (.jovs 0 100) w15).engine 0).ovs = true := by decide
/-- The module about to issue `w`, with `x` and END after it. -/
def standing (w x : Word) : State := running [w, x, 0x01000000] X
/-- `w` stands at the PC of an engine in execute, in a module in which nothing is under repair, and no mark stands on it. -/
def fetched (w x : Word) : Bool :=
  let s := standing w x
  s.atIssue 0 && !s.codePoison (s.pcOf 0) && s.quiet && s.codeWord (s.pcOf 0) == w && s.codeWord (s.pcOf 0 + 1) == x && s.inBlock 0 (s.pcOf 0 + 1)
theorem witness_ReservedWordFaults_3 :
    (([0x18F00000, 0x42F00000, 0x43F00000] : List Word).all fun w => fetched w 0 && knownOpcode (opcodeOf w) && (areaField w).isNone) = true := by
  decide
theorem witness_ReservedWordFaults_4 :
    (([0x43300003, 0x44300003] : List Word).all fun w => fetched w 0x00F00000 && (opcodeOf w == 0x43 || opcodeOf w == 0x44) && (areaField w).isSome &&
      (areaOf (bits 0x00F00000 23 20)).isNone) = true := by decide
theorem witness_ProgramCommands_11 :
    ld.quiet = true ∧ ld.admits pe programEndDesc = true ∧ ld.plannedLoad = some (true, 2) ∧ ld.forwards = false := by decide
theorem witness_EventRows_9 : ntc.payload.length ≤ 1400 ∧ { ntc with payload := List.replicate 1400 0 }.payload.length ≤ 1400 := by decide
theorem witness_LoopRows_15 :
    sec.quiet = true ∧ stgd.quiet = true ∧ (tickAfter lv7 10000).quiet = true ∧ (tickAfter lv7 10000).loop.waiting = [] ∧
    (tickAfter lv7 10000).loopOrder ((tickAfter lv7 10000).loop.tick + 1) = [7] := by decide
/-- Context 7 in RUN with one section under LAW, with the enable bit set in its set-point words. -/
def sampled (law : Nat) : State :=
  let s := cfgd im [(0x307, 0, law * 65536), (0x307, 3, 0x10000000)]
  { s with loop := { s.loop with live := true, applied := [(459, 1)] } }.modLoopCtx 7 fun x => { x with state := .run }
theorem witness_LoopRows_16 :
    ∀ law ∈ [0, 1, 2], let s := sampled law
      (s.loopCtx 7).state = .run ∧ (s.loopCtx 7).queue = [] ∧ s.loop.mirror = [] ∧ s.loop.ramPoison = [] ∧ s.loopOuter 7 = none ∧
      bit (s.lw 7 3) 20 = false ∧ s.loopLaw 7 = law ∧ s.loopSections 7 = 1 ∧ (s.loopRaw 7).2 = false ∧ (s.loopIn 7 0).2 = false ∧
      (s.loopIn 7 2).2 = false ∧ bit (s.loopIn 7 2).1 0 = true := by decide

/-! ### Further clauses: channels, ports, the digital field side where its engine does or does not run -/

/-- The module with one island restarting. -/
def restarting (s : State) (n : Nat) : State := s.modIsland n fun i => { i with state := .restarting }
theorem witness_ChannelRows_7 :
    (ucIn .run).runs 7 = true ∧ ((ucIn .run).uc 0).state ≠ .off ∧ 25499 < 25500 ∧ ucOv.runs 7 = true ∧ (ucOv.uc 0).overload = true ∧ 27000 < 27001 ∧
    (restarting ucOv 7).runs 7 = false := by decide
def canOff : Packet := cm canEnableDesc [0, 0, 0, 0]
theorem witness_CanPortRows_12 :
    ∀ st ∈ [CanState.disabled, .shuttingDown, .recovering, .errorActive, .busOff, .integrating],
      (canIn st).admits canOff canEnableDesc = true ∧ byteAt ((canIn st).payloadOf canOff canEnableDesc) 0 = 0 ∧
      byteAt ((canIn st).payloadOf canOff canEnableDesc) 1 = 0 ∧ (canIn st).forwards = false ∧ ((canIn st).can 0).state = st := by decide
theorem witness_CanPortRows_13 :
    let s := (canIn .recovering).modCan 0 fun x => { x with disablePending := true }
    (s.can 0).state = .recovering ∧ s.canRuns 0 = true ∧ (s.can 0).disablePending = true := by decide
theorem witness_DigitalFieldRows_21 :
    dig.diEnable 0 = true ∧ (dig.di 0).level = false ∧ dig.runs 8 = true ∧ (dig.di 0).filterFrom ≤ 1 ∧ 1 + dig.filterNs 0 ≤ dig.now ∧
    dig.diWireEn 0 = true ∧ (dig.di 0).wireBreak = false ∧ (dig.diGroup 0).lost = false ∧ m7.runs 8 = true ∧ (m7.di 0).wireBreak = true ∧
    d1.runs 8 = true ∧ 1 ≤ (d1.dGroup .do_ 2).below ∧ d2.runs 8 = true ∧ (d2.dGroup .do_ 2).sag = true ∧ m8.runs 8 = true ∧
    (m8.doGroup 2).overcurrent = true ∧ (dig.doGroup 2).overcurrent = false ∧ (restarting dig 8).runs 8 = false := by decide
theorem witness_DigitalFieldRows_22 :
    let s := dig.modDi 0 fun x => { x with untold := true }
    (s.di 0).untold = true ∧ s.diEnable 0 = true ∧ (s.di 0).level = false ∧ s.runs 8 = true ∧ 1 + s.filterNs 0 ≤ s.now := by decide
theorem witness_OutputProtectionRows_12 :
    dn.runs 8 = true ∧ (dn.do_ 5).onSince = some 5 ∧ 5 + 1000000000 ≤ dn.now ∧ (dn.do_ 5).driven = true ∧ (dn.do_ 5).overload = true ∧
    (dn.do_ 5).thermal = false ∧ dol.runs 8 = true ∧ dol.doOpenEn 5 = true ∧ (dol.do_ 5).openLoad = false ∧ m9.runs 8 = true ∧
    (m9.do_ 5).openLoad = true ∧ dig.runs 8 = true ∧ (dig.do_ 5).driven = false ∧ (dig.do_ 5).short = false ∧ dig.extDrive 5 = false ∧
    m10.runs 8 = true ∧ (m10.do_ 5).short = true ∧ (m10.do_ 5).driven = false ∧ (restarting dig 8).runs 8 = false := by decide

/-! ### Further clauses: memory, records, addresses, replies -/

theorem witness_MemoryRows_13 :
    (lk.locks.map (·.written)) = [[]] ∧ lk.upsets = [] ∧ lk.sup.stalled = [] ∧ (∀ k < 2, (lk.can k).storing = []) ∧ lk.loop.waiting = [] := by decide
theorem witness_RecorderRows_11 : rw1.quiet = true ∧ rr.quiet = true ∧ ∀ n v, (recFull n v).quiet = true := ⟨by decide, by decide, fun _ _ => rfl⟩
/-- ENUMERATE of ring `r` with COUNT `n`, at a ring port. -/
def enumAt (port : Port) (r n : Nat) : Packet := { cm enumerateDesc (toBe 1 r ++ toBe 1 n ++ [0, 0]) with port := port, target := 0xFFFF }
theorem witness_AddressRows_11 :
    ∀ port ∈ [Port.ringA, .ringB], un.portDown port = false ∧ rg.portDown port = false ∧
      un.admits (enumAt port 2 3) enumerateDesc = true ∧ un.mram.addressed = false ∧ byteAt (enumAt port 2 3).body 1 ≤ 63 ∧
      rg.admits (enumAt port 2 3) enumerateDesc = true ∧ rg.mram.addressed = true ∧ BitVec.ofNat 10 (2 % 16 * 64 + 3) = rg.mram.address ∧
      rg.admits (enumAt port 2 4) enumerateDesc = true ∧ BitVec.ofNat 10 (2 % 16 * 64 + 4) ≠ rg.mram.address ∧
      rg.admits (enumAt port 2 64) enumerateDesc = true ∧ un.admits (enumAt port 2 64) enumerateDesc = true ∧
      64 ≤ byteAt (enumAt port 2 64).body 1 := by decide
theorem witness_AddressRows_12 :
    let q : StationSender := { serial := 99, seq := 7 }
    rg.ringUp = true ∧ rg.mram.addressed = true ∧ rg.ring.provisional.isSome = true ∧ q.serial ≠ rg.mram.serial ∧
    rg.stationSeen 3 q.serial q.seq = false ∧ (rg.noteStation 3 q.serial q.seq).stationSeen 3 q.serial q.seq = true := by decide
/-- The module with one reply ready. -/
def answering (s : State) (r : Reply) : State := { s with sup := { s.sup with replies := [r] } }
def repLong : Reply := { rep with body := List.replicate 1399 0, ctx := { rep.ctx with cls := 3 } }
theorem witness_ReplyRows_6 :
    rs.supAnswers = true ∧ rs.pathDown .svc = false ∧ pickReply rs.now .svc rs.sup.replies = some ([], rep, []) ∧ rs.replyTurn rep = true ∧
    rep.upload = none ∧ ((toBe 2 rep.status.toNat ++ rep.body).drop (1400 * rep.sent)).length ≤ 1400 ∧
    pickReply im.now .svc (answering im repLong).sup.replies = some ([], repLong, []) ∧ (answering im repLong).replyTurn repLong = true ∧
    1400 < ((toBe 2 repLong.status.toNat ++ repLong.body).drop (1400 * repLong.sent)).length := by decide
/-- Forty-four records, one more than a packet of an upload holds. -/
def many : State :=
  { im with mram := { im.mram with newest := 44, records := (List.range 44).map fun i => (BitVec.ofNat 32 (i + 1), default) } }
def repUp (from_ : BitVec 32) : Reply := { rep with upload := some (from_, 44), ctx := { rep.ctx with cls := 3 } }
theorem witness_ReplyRows_7 :
    many.quiet = true ∧ (repUp 1).marks = [] ∧ pickReply many.now .svc (answering many (repUp 1)).sup.replies = some ([], repUp 1, []) ∧
    (many.uploadPacket 1 44).2 = some (44, 1) ∧ (many.uploadPacket 44 1).2 = none := by decide
theorem witness_ReplyRows_8 :
    (restarting rs 16).supAnswers = false ∧ rs.pathDown .ringA = true ∧ pickReply im.now .svc im.sup.replies = none ∧
    (let q : Partial := prt
     w35.sup.partials = [q] ∧ q.ctx.broadcast = false ∧ (q.ctx.gen == w35.sup.gen) = true ∧ q.firstAt + 100000000 ≤ w35.now) ∧
    ([wn.origin, wn.origin + 1].all fun o => (o == wn.origin) == (decide (wn.origin = o) && wn.used == 0 && decide (wn.lastAt + wn.idleClose * 1000000000 ≤ ws.now))) = true ∧
    wn.heldUntil = some 7 ∧ 7 ≤ { ws with now := 7 }.now ∧ { ws with now := 6 }.now < 7 := by decide

/-! ### Further clauses: the cycle and the pair -/

/-- A cycle that is due, with a switch at it, on a module in which a page is under repair. -/
def swHeld : State :=
  { cs with
    mram := { cs.mram with banks := ver.mram.banks.map fun b => (b.1, { b.2 with desc := { b.2.desc with
      symbols := [{ hash := 5, isBit := false, area := .D, offset := 5, count := 1, retained := false, mirrored := false, initial := [] }] } }) }
    square := { cs.square with switch := some { cycle := 8, bank := true, releaseForces := false } }
    locks := [{ (default : PageLock) with array := 2, page := (sqCommitted + 4096 + 128 + 20) / 512 }] }
theorem witness_CycleRows_7 :
    cs.cycleDue = true ∧ cs.switchHeld cs.startCycle = none ∧ swHeld.cycleDue = true ∧ (swHeld.switchHeld swHeld.startCycle).isSome = true ∧
    swHeld.pairMode = false ∧ swHeld.pair.incoming = none ∧ swHeld.pair.handover = none ∧ swHeld.pair.rehearsal = none := by decide
/-- A word of D that a write replaces, and one of Q that a force replaces; the module's first digital output is enabled. -/
def wD5 : LandWord := { at_ := ⟨.D, 5⟩, mask := BitVec.allOnes 32, value := 11 }
def fQ1 : Force := { hash := 1, isBit := false, area := .Q, offset := 1, value := 12 }
def writes5 : Landing := { ctx := default, kind := .writeVars, words := [wD5] }
def cmt : State :=
  let s := cfgd exd [(0x460, 0, 0x80000000)]
  { s with square := { s.square with landings := [writes5] }, mram := { s.mram with forces := [fQ1] } }
theorem witness_CycleRows_8 :
    cmt.pairMode = false ∧ cmt.commitDue = true ∧ cmt.power.restart = none ∧ cmt.power.warning = none ∧ cmt.quiet = true ∧ cmt.squareWf = true ∧
    cmt.square.commitBad = [] ∧ cmt.image.mBytes ≤ 131072 ∧
    (∀ y ∈ cmt.square.landings, cmt.landsNow y = true ∧ y.kind = .writeVars) ∧ cmt.square.landings.filter cmt.landsNow = [] ++ writes5 :: [] ∧
    writes5.words = [] ++ wD5 :: [] ∧ wD5.mask = BitVec.allOnes 32 ∧ copied .D 5 = true ∧ cmt.wordAddr .work .D 5 = some (4096 + 128 + 20) ∧
    cmt.forceOn .D 5 = none ∧ cmt.mram.forces = [] ++ fQ1 :: [] ∧ copied .Q 1 = true ∧ cmt.wordAddr .work .Q 1 = some 4 ∧
    copied .M 7 = true ∧ cmt.wordAddr .work .M 7 = some (4096 + 28) ∧ (∀ k < 4, cmt.square.fresh (4096 + 28 + k) = false) ∧
    cmt.standby = false ∧ cmt.leftService = false ∧ cmt.stopSafe = false ∧ cmt.runs 8 = true ∧ cmt.doEnable 0 = true := by decide
/-- A module whose one retained word stands on a page under repair. -/
def keepHeld : State :=
  { im with
    mram := { im.mram with banks := [(0, { im.bank 0 with desc := { (im.bank 0).desc with
      symbols := [{ hash := 5, isBit := false, area := .D, offset := 5, count := 1, retained := true, mirrored := false, initial := [] }] } })] }
    square := { im.square with committedOnce := true }
    locks := [{ (default : PageLock) with array := 2, page := (sqCommitted + 4096 + 128 + 20) / 512 }] }
theorem witness_CycleRows_9 :
    keepHeld.pairMode = false ∧ keepHeld.service = .full ∧ keepHeld.square.phase ≠ .execute ∧ keepHeld.power.warning = none ∧
    keepHeld.square.retainAt + (keepHeld.cfg 0x102 0).toNat * 1000000 ≤ keepHeld.now ∧ keepHeld.square.committedOnce = true ∧
    (keepHeld.readWords 2 keepHeld.retainedAddrs).retainedAddrs.any ((keepHeld.readWords 2 keepHeld.retainedAddrs).locked 2) = true ∧
    im.quiet = true := by decide
theorem witness_PairLineRows_26 :
    let s := { prb with pair := { prb.pair with hbSent := some hb, hbGenAt := 5000000001 } }
    s.pairMode = true ∧ s.alive = true ∧ s.faultyInterlock = false ∧ s.now < s.pair.hbGenAt ∧
    (let q := { prb with pair := { prb.pair with hbSent := some hb, hbGenAt := 4999750001 } }
     q.pair.hbGenAt ≤ q.now ∧ q.now < q.pair.hbGenAt + 250000) := by decide
theorem witness_PairLineRows_27 :
    let s := { prb with power := { prb.power with startFrom := 4999000000 }, pair := { prb.pair with ownFellAt := none, hbSent := some { hb with claim := false } } }
    s.pairMode = true ∧ ({ hb with claim := false } : Heartbeat).claim = s.pair.claimOwn ∧ s.pair.claimOwn = false ∧
    s.pair.ownFellAt.getD s.power.startFrom + 1000000 ≤ s.now := by decide

/-! ### Further clauses: the ring and the supply -/

theorem witness_RingRows_21 :
    let s := rng.noteStation 1 tf.serial tf.seq
    s.stationSeen 1 tf.serial tf.seq = true ∧ rng.stationSeen 1 tf.serial tf.seq = false ∧ tf.serial ≠ rng.mram.serial ∧ rng.ringPortUp 0 = true := by decide
theorem witness_RingRows_22 :
    let s := { rng with ring := { rng.ring with announced := true } }
    s.ptpEn = true ∧ s.ringPortUp 0 = true ∧ (0 : Fin 2).val = b2n s.syncPort ∧ (0 : BitVec 8).toNat = s.ptpDomain ∧ s.service = .full ∧
    s.ring.time = .locked ∧ s.syncLimit < ((s.syncLimit : Int) + 1).natAbs ∧ s.ring.announced = true := by decide
/-- Side-Street mode whose supply has been good for as long as the rows tell. -/
def okS (u : Nat) : State := { ssf with power := { ssf.power with okFrom := some u } }
theorem witness_SupplyRows_16 :
    let s := okS 4900000000
    s.service = .sideStreet ∧ s.power.warning = none ∧ s.supAnswers = true ∧ s.mram.fireValid = true ∧ s.serviceMv ≤ 24000 ∧ 44000 ≤ 44000 ∧
    s.power.okFrom = some 4900000000 ∧ 4900000000 + 100000000 ≤ s.now ∧
    (let r := { s with power := { s.power with store := some (s.now, 44000) } }.bankReads
     r.bankWaits = false ∧ r.spansWait (r.startSpans (r.mram.lastStart.toNat % 2 == 1)) = none) := by decide
theorem witness_SupplyRows_17 :
    ssf.service = .sideStreet ∧ ssf.power.okFrom = none ∧ (∀ u, (okS 4900000001).power.okFrom = some u → (okS 4900000001).now < u + 100000000) ∧
    ssf.serviceMv - 1 < ssf.serviceMv := ⟨by decide, by decide, fun u h => by have h : 4900000001 = u := Option.some.inj h; subst h; decide, by decide⟩
/-- A bank's words, or a word that step 7 writes, on a page under repair. -/
def okLocked (array page : Nat) : State :=
  let s := okS 4900000000
  { s with locks := [{ (default : PageLock) with array := array, page := page }], mram := { s.mram with lastStart := 2 } }
theorem witness_SupplyRows_18 :
    (let r := { okLocked 0 0 with power := { (okLocked 0 0).power with store := some ((okLocked 0 0).now, 44000) } }.bankReads
     r.bankWaits = true) ∧
    (let r := { okLocked 2 0 with power := { (okLocked 2 0).power with store := some ((okLocked 2 0).now, 44000) } }.bankReads
     r.bankWaits = false ∧ (r.spansWait (r.startSpans (r.mram.lastStart.toNat % 2 == 1))).isSome = true) ∧
    (okLocked 2 0).supAnswers = true ∧ (okLocked 0 0).supAnswers = true := by decide
theorem witness_SupplyRows_19 :
    im.working = true ∧ im.power.warning = none ∧ im.service = .full ∧ 4300 < bits (im.cfg 0xD10 0) 31 16 ∧
    bits (im.cfg 0xD10 0) 31 16 - 1 < bits (im.cfg 0xD10 0) 31 16 ∧ ssf.service ≠ .full ∧ 4300 ≤ 4300 ∧
    huc.power.warning = some 5 ∧ huc.working = true ∧ huc.holdupDone = true ∧ huc.serviceMv ≤ huc.serviceMv := by decide

/-! ### Hypotheses of the remaining statements -/

/-- Module time after an idle step, as IdleStep writes it. -/
def idleNow (s : State) : Nat :=
  let gained : Int := s.ring.rateAcc + 1000 * s.ring.ratePpb
  ((s.now : Int) + 1000 + gained / 1000000000).toNat
theorem witness_IdleStep_1 : State.reset.pending = [] ∧ ∀ u, State.reset.pair.releaseAt = some u → idleNow State.reset ≤ u + 10000 := ⟨rfl, nofun⟩
theorem witness_IdleStep_2 : relN.pending = [] ∧ ∀ u, relN.pair.releaseAt = some u → idleNow relN ≤ u + 10000 :=
  ⟨rfl, fun u h => by have h : 4999991000 = u := Option.some.inj h; subst h; decide⟩
theorem witness_IdleStep_3 :
    { State.reset with ring := { State.reset.ring with ratePpb := -200000, rateAcc := 999900000 } }.pending = [] ∧
    idleNow { State.reset with ring := { State.reset.ring with ratePpb := -200000, rateAcc := 199999999 } } = 999 ∧
    idleNow { State.reset with ring := { State.reset.ring with ratePpb := -200000, rateAcc := 200000000 } } = 1000 := ⟨rfl, by decide, by decide⟩
theorem witness_EncodingRoundTrip_1 : (Instr.ldn 3 ⟨.D, 9, 17⟩).wellFormed = true ∧ encodeEngine (.ldn 3 ⟨.D, 9, 17⟩) = some (3, [0x11300009, 0x00000011]) :=
  ⟨by decide, by decide⟩
theorem witness_EncodingRoundTrip_2 : (Instr.ton 0 ⟨4095, 3, true, false, 0xFFFF⟩).wellFormed = true ∧
    encodeEngine (.ton 0 ⟨4095, 3, true, false, 0xFFFF⟩) = some (0, [0x30500FFF, 0xE000FFFF]) := ⟨by decide, by decide⟩
theorem witness_SquareStaysCanonical_1 : State.reset.squareWf = true ∧ ∃ t, step State.reset = .next t :=
  ⟨by decide, _, rfl⟩
theorem witness_FiringsAccounted_1 : State.reset.accounted ∧ ∃ t, step State.reset = .next t :=
  ⟨⟨by decide, fun _ => rfl⟩, _, rfl⟩
theorem witness_EnginesAreConfined_1 : (encodeEngine (.nop 0)).isSome = true ∧ ∃ t, exec (.nop 0) (about (.nop 0)) = .next t := ⟨by decide, _, rfl⟩
theorem witness_PairLineRows_12 : relS.pairMode = true ∧ relS.pending = [] ∧ relS.pair.releaseAt = some 5 ∧ 5 + 10000 < (relS.lapse idleNs).now ∧
    relS.pair.state = .sync ∧ relS.pair.incoming = none := ⟨by decide, by decide, by decide, by decide, by decide, by decide⟩
theorem witness_PairLineRows_13 : relN.pairMode = true ∧ relN.pending = [] ∧ relN.pair.releaseAt = some 4999991000 ∧
    (relN.lapse idleNs).now ≤ 4999991000 + 10000 := ⟨by decide, by decide, by decide, by decide⟩
theorem witness_PairLineRows_11 : syn.pair.claimOwn = false := by decide

/-! ### Ill-formed commands, which `wellFormed` refuses: one for each check -/

/-- The commands that are packets. -/
def packetCommands : List (Packet → Instr) :=
  [.identify, .getStatus, .readObject, .writeObject, .restart, .enumerate, .confirmAddress, .programBegin, .programData, .programEnd, .programSwitch,
    .runStop, .forceSet, .forceRelease, .cycleStats, .readVars, .writeVars, .subscribe, .unsubscribe, .setPending, .eventSubscribe, .loopEnable,
    .loopDisable, .loopWriteCoeff, .loopStage, .loopCommit, .loopRead, .channelMode, .channelStatus, .outputAck, .hartTransact, .hartBurstRead] ++
  [.canEnable, .canRecover, .canSend, .canCounters, .stationStatus, .pairStatus, .rehearse, .resync, .recQuery, .recUpload, .recCounters, .recNote,
    .panelFrame, .panelShow, .plateUpdate, .panelPower, .memStatus, .scrubNow, .remapRead, .powerStatus, .thermalStatus, .fireStatus, .fireReset,
    .fireLoad, .fireArm, .fireConfirm, .totalRead, .totalClose, .keyInstall, .keyRevoke, .keyStatus, .fwBegin, .fwData, .fwActivate]

/-- A wide bit operand's BIT in an operand without an extension word. -/
def badBit : Operand := ⟨.Q, 3, 1⟩
/-- A word operand that names a bit. -/
def badWord : Operand := ⟨.D, 3, 1⟩
def edgeOn (o : Operand) : EdgeOperand := ⟨o, 12⟩

theorem test_packet_of_another_opcode : (packetCommands.all fun c => !(c (pk 0x7777 [])).wellFormed) = true := by decide
theorem test_packet_too_long : (Instr.getStatus { gs with payload := List.replicate 1401 0 }).wellFormed = false := by decide
theorem test_packet_tag_too_long : (Instr.unknownOpcode { gs with auth := List.replicate 17 0 }).wellFormed = false := by decide
theorem test_bit_operand_refused : ([Instr.ld 0, .ldn 0, .and_ 0, .andn 0, .or_ 0, .orn 0, .xor_ 0, .xorn 0, .out 0, .setb 0, .clrb 0].all
    fun c => !(c badBit).wellFormed) = true := by decide
theorem test_edge_operand_refused : ([Instr.andr 0, .andf 0, .orr 0, .orf 0].all fun c => !(c (edgeOn badBit)).wellFormed) = true := by decide
theorem test_word_operand_refused : (Instr.lw 0 badWord .clean).wellFormed = false ∧ (Instr.sw 0 badWord .clean).wellFormed = false := by decide
theorem test_move_source_refused : (Instr.move 0 badWord ⟨.D, 4, 0⟩).wellFormed = false ∧ (Instr.bmove 0 badWord ⟨.D, 4, 0⟩).wellFormed = false := by decide
theorem test_move_target_refused : (Instr.move 0 ⟨.D, 4, 0⟩ badWord).wellFormed = false ∧ (Instr.bmove 0 ⟨.D, 4, 0⟩ badWord).wellFormed = false := by decide
theorem test_crossing_to_itself_refused : (Instr.crossingMessageSend 3 3 none).wellFormed = false := by decide
theorem test_crossing_fault_to_itself_refused : (Instr.auditRound [⟨3, 3, 0, true, false⟩] []).wellFormed = false := by decide
theorem test_hart_answer_too_long : (Instr.hartTransactionComplete 0 (some (0, List.replicate 256 0))).wellFormed = false := by decide
theorem test_hart_scan_too_long : (Instr.hartScanComplete 0 (List.replicate 16 ⟨0, 0, 0⟩)).wellFormed = false := by decide
theorem test_hart_burst_too_long : (Instr.hartBurstReceived 0 0 0 (List.replicate 301 0)).wellFormed = false := by decide
theorem test_group_refused : (Instr.groupSupplySample .do_ 4 0).wellFormed = false ∧ (Instr.groupLevelClear .do_ 4 .sag).wellFormed = false := by decide
theorem test_can_length_refused : (Instr.canFrameReceived 0 { frame2 with fdf := true, data := List.replicate 9 0 }).wellFormed = false := by decide
theorem test_can_identifier_refused : (Instr.canFrameReceived 0 { frame2 with xtd := false, id := 0x800 }).wellFormed = false := by decide
theorem test_can_brs_refused : (Instr.canFrameReceived 0 { frame2 with fdf := false, brs := true }).wellFormed = false := by decide
theorem test_can_remote_fd_refused : (Instr.canFrameReceived 0 { frame2 with fdf := true, rtr := true, data := [] }).wellFormed = false := by decide
theorem test_can_delay_refused : (Instr.canTxComplete 0 .ok 0 128).wellFormed = false := by decide
theorem test_ledger_totals_refused : (Instr.ledgerReceived { (default : Ledger) with totals := [] }).wellFormed = false := by decide
theorem test_repair_byte_refused : (Instr.pageRepairComplete 3 [262144] 0 []).wellFormed = false := by decide
theorem test_repair_count_refused : (Instr.pageRepairComplete 3 [0] 9 []).wellFormed = false := by decide
theorem test_full_service_byte_refused : (Instr.fullService 24000 28000 [] [(4, 32768)]).wellFormed = false := by decide
theorem test_scrub_alignment_refused : (Instr.scrubRead 3 2 .clean false).wellFormed = false := by decide
theorem test_scrub_address_refused : (Instr.scrubRead 3 262144 .clean false).wellFormed = false := by decide

/-! ### The spec's worked examples and single steps -/

/-- The words of the worked example of the battery string interlock (R107, R109, R123). -/
theorem test_interlock_words :
    decodeEngine 0 0x403000D2 0 = some (.lw 0 ⟨.D, 210, 0⟩ .clean) ∧ decodeEngine 0 0x1000000B 0 = some (.ld 0 ⟨.I, 11, 0⟩) ∧
    decodeEngine 0 0x30500005 0x40001388 = some (.ton 0 ⟨5, 1, false, false, 5000⟩) ∧ decodeEngine 0 0x41000000 0x1C2 = some (.lwi 0 450) ∧
    decodeEngine 0 0x5C000000 0 = some (.lt_ 0) ∧ decodeEngine 0 0x18200064 0 = some (.out 0 ⟨.M, 100, 0⟩) ∧
    decodeEngine 0 0x22000000 0 = some (.orOpen 0) ∧ decodeEngine 0 0x12500005 0 = some (.and_ 0 ⟨.T, 5, 0⟩) ∧
    decodeEngine 0 0x13800003 0 = some (.andn 0 ⟨.S, 3, 0⟩) ∧ decodeEngine 0 0x28000008 0x28 = some (.andr 0 ⟨⟨.I, 8, 0⟩, 40⟩) ∧
    decodeEngine 0 0x71000025 0 = some (.sev 0 37) ∧ decodeEngine 0 0x01000000 0 = some (.end_ 0) := by decide

/-- CROSSING_ID of LE2 to SQUARE, its depth and its reserve; with 5 credits left a Class 1 message of 4 slots waits and counts a stall, with 11 it goes
(the worked example of the crossing, R25 to R27). -/
theorem test_crossing_credits :
    crossingId 2 6 = 70 ∧ crossingSize 2 6 = (32, 2) ∧
    ({ queued := [{ cls := 1, slots := 21, since := 0, cargo := .other }], returning := 6 } : Crossing).credits 32 = 5 ∧
    ({ queued := [{ cls := 1, slots := 21, since := 0, cargo := .other }], returning := 6 } : Crossing).mayPay (32, 2)
      { cls := 1, slots := 4, since := 0, cargo := .other } = false ∧
    ({ queued := [{ cls := 1, slots := 21, since := 0, cargo := .other }], returning := 0 } : Crossing).mayPay (32, 2)
      { cls := 1, slots := 4, since := 0, cargo := .other } = true := by decide

/-- The thruster pitch PI of the loop engine's worked example: the first two samples of a constant error. -/
def pitchCoeff (c : Nat) : Int := [1720563899, -1717986918, 0, -1073741824, 0].getD c 0
def pitchShift (c : Nat) : Nat := [31, 31, 0, 30, 0].getD c 0
theorem test_pitch_first_sample : sectionOut pitchCoeff pitchShift {} 1000000 = 801200 := by decide
theorem test_pitch_second_sample : sectionOut pitchCoeff pitchShift { x1 := 1000000, y1 := 801200 } 1000000 = 802400 := by decide

/-- Engine 0 after it ran `i` from the registers `x`. -/
def after (i : Instr) (x : Engine) : Engine := match exec i (about i x) with | .next t => t.engine 0 | _ => default

theorem test_add_saturates : (after (.add 0) { wa := 0x7FFFFFFF, wb := 1 }).wa = 0x7FFFFFFF ∧ (after (.add 0) { wa := 0x7FFFFFFF, wb := 1 }).ovf = true := by
  decide
theorem test_sub_order : (after (.sub 0) { wa := 3, wb := 10 }).wa = 7 := by decide
theorem test_div_truncates : (after (.div 0) { wa := 2, wb := 0xFFFFFFF9 }).wa = 0xFFFFFFFD := by decide
theorem test_rem_sign : (after (.rem 0) { wa := 2, wb := 0xFFFFFFF9 }).wa = 0xFFFFFFFF := by decide
theorem test_neg_most_negative : (after (.neg 0) { wa := 0x80000000 }).wa = 0x7FFFFFFF := by decide
theorem test_lt_signed : (after (.lt_ 0) { wa := 450, wb := 412 }).cb = true ∧ (after (.lt_ 0) { wa := 412, wb := 450 }).cb = false ∧
    (after (.lt_ 0) { wa := 0, wb := 0xFFFFFFFF }).cb = true := by decide
theorem test_lwi_pushes : (after (.lwi 0 450) { wa := 412 }).wa = 450 ∧ (after (.lwi 0 450) { wa := 412 }).wb = 412 := by decide
theorem test_wrap128_adds : wrap128 (2 ^ 127) = -(2 ^ 127) := by decide
theorem test_crc32c_check_value : crc32c [0x31, 0x32, 0x33, 0x34, 0x35, 0x36, 0x37, 0x38, 0x39] = 0xE3069283 := by decide
theorem test_big_endian_words : be32 [1, 2, 3, 4] 0 = 0x01020304 := by decide

end Sys2Proof.Tests
end

/-! # The Fire Lane's commands

A set of words written key by key reads back word by word; a command that acceptance admits finds the configuration and the Fire Lane as they
were; from these follow what FIRE_RESET, FIRE_LOAD, FIRE_ARM, FIRE_CONFIRM and FIRE_ARM_EXPIRY do (R280, R288, R289). -/

section
/-! SUPPORT. A list of values written into a table, each under the key of its place. -/

namespace Sys2Proof.Tab

variable {α : Type} [DecidableEq α]

/-- A write leaves every other entry alone, whatever that entry reads as when it is not listed. -/
theorem get_set_other_default (d e : α) (t : Tab α) {k i : Nat} (v : α) (h : i ≠ k) : get d (set e t k v) i = get d t i := by
  unfold set
  split
  · exact get_del_other d t h
  · exact get_put_other d t v h

/-- The table after the values of a list are written, the value in place `k` under `key k` with the default `d k`. -/
def writeAll (d : Nat → α) (key : Nat → Nat) (t : Tab α) (l : List α) : Tab α :=
  l.zipIdx.foldl (fun t (e : α × Nat) => set (d e.2) t (key e.2) e.1) t

variable (d : Nat → α) (key : Nat → Nat) (t : Tab α)

theorem writeAll_concat (l : List α) (v : α) :
    writeAll d key t (l ++ [v]) = set (d l.length) (writeAll d key t l) (key l.length) v := by
  simp [writeAll, List.zipIdx_append]

/-- An entry under none of the keys stays. -/
theorem get_writeAll_other (e : α) (l : List α) {i : Nat} (h : ∀ k < l.length, key k ≠ i) :
    get e (writeAll d key t l) i = get e t i := by
  induction l using List.reverseRecOn with
  | nil => rfl
  | append_singleton l v ih =>
    have hi : i ≠ key l.length := (h l.length (by simp)).symm
    rw [writeAll_concat, get_set_other_default _ _ _ _ hi]
    exact ih fun k hk => h k (by simp; omega)

/-- Under keys that differ each value reads as written. -/
theorem get_writeAll_key (l : List α) (inj : ∀ j < l.length, ∀ k < l.length, key j = key k → j = k) {k : Nat} (h : k < l.length) :
    get (d k) (writeAll d key t l) (key k) = l[k] := by
  induction l using List.reverseRecOn with
  | nil => simp at h
  | append_singleton l v ih =>
    rw [writeAll_concat]
    by_cases hk : k < l.length
    · have hne : key k ≠ key l.length := fun e => by
        have hlast := inj k h l.length (by simp) e
        omega
      rw [get_set_other_default _ _ _ _ hne, List.getElem_append_left hk]
      exact ih (fun i hi j hj => inj i (by simp; omega) j (by simp; omega)) hk
    · have hk : k = l.length := by simp at h; omega
      subst hk
      simp

end Sys2Proof.Tab

namespace Sys2Proof.Machine

open Sys2Proof

@[simp] theorem packWords_length (n : Nat) (b : List Byte) : (packWords n b).length = n := by
  induction n generalizing b with
  | zero => rfl
  | succ n ih => simp [packWords, ih]

/-! ## What acceptance leaves of the configuration (R42) -/

@[simp] theorem State.admitted_obj (s : State) (p : Packet) (d : CmdDesc) : (s.admitted p d).mram.obj = s.mram.obj := by
  obtain ⟨_, _, h⟩ := s.onlySup_admitted p d; rw [h]
@[simp] theorem State.admitted_cfg (s : State) (p : Packet) (d : CmdDesc) (i k : Nat) : (s.admitted p d).cfg i k = s.cfg i k := by
  simp [State.cfg]
@[simp] theorem State.admitted_fireValid (s : State) (p : Packet) (d : CmdDesc) : (s.admitted p d).mram.fireValid = s.mram.fireValid := by
  obtain ⟨_, _, h⟩ := s.onlySup_admitted p d; rw [h]; rfl
@[simp] theorem State.admitted_fireSet (s : State) (p : Packet) (d : CmdDesc) : (s.admitted p d).fireSet = s.fireSet := by
  obtain ⟨_, _, h⟩ := s.onlySup_admitted p d; rw [h]; rfl
@[simp] theorem State.admitted_fireWord (s : State) (p : Packet) (d : CmdDesc) (k : Nat) : (s.admitted p d).fireWord k = s.fireWord k := by
  simp [State.fireWord]
@[simp] theorem State.admitted_fireFn (s : State) (p : Packet) (d : CmdDesc) (f : Nat) : (s.admitted p d).fireFn f = s.fireFn f := by
  obtain ⟨_, _, h⟩ := s.onlySup_admitted p d; rw [h]; rfl
@[simp] theorem State.admitted_forwards (s : State) (p : Packet) (d : CmdDesc) : (s.admitted p d).forwards = s.forwards := by
  obtain ⟨_, _, h⟩ := s.onlySup_admitted p d; rw [h]; rfl

/-! ## The staged set (R289, R429) -/

/-- Each word of the load order has an object word of its own (R291). -/
theorem stagedKey_inj : ∀ j < 192, ∀ k < 192, stagedKey j = stagedKey k → j = k := by
  intro j hj k hk h
  simp only [stagedKey, okey] at h
  split_ifs at h <;> omega

/-- The rules of R290 read the module's object words alone. -/
theorem State.fireSetSound_of_obj {s t : State} (h : t.mram.obj = s.mram.obj) (g : Nat → Word) : t.fireSetSound g = s.fireSetSound g := by
  simp only [State.fireSetSound, State.slotsSound, State.diEnable, State.diCfg, State.doEnable, State.doCfg, State.ucCfg, State.cfg, h]

theorem State.stagedWord_of_obj {s t : State} (h : t.mram.obj = s.mram.obj) : t.stagedWord = s.stagedWord := by
  funext k; simp only [State.stagedWord, h]
theorem State.stagedWords_of_obj {s t : State} (h : t.mram.obj = s.mram.obj) : t.stagedWords = s.stagedWords := by
  simp only [State.stagedWords, State.stagedWord_of_obj h]
theorem State.stagedCrc_of_obj {s t : State} (h : t.mram.obj = s.mram.obj) : t.stagedCrc = s.stagedCrc := by
  simp only [State.stagedCrc, State.stagedWords_of_obj h]

@[simp] theorem State.admitted_fireSetSound (s : State) (p : Packet) (d : CmdDesc) (g : Nat → Word) :
    (s.admitted p d).fireSetSound g = s.fireSetSound g := State.fireSetSound_of_obj (s.admitted_obj p d) g
@[simp] theorem State.admitted_stagedWord (s : State) (p : Packet) (d : CmdDesc) : (s.admitted p d).stagedWord = s.stagedWord :=
  State.stagedWord_of_obj (s.admitted_obj p d)
@[simp] theorem State.admitted_stagedWords (s : State) (p : Packet) (d : CmdDesc) : (s.admitted p d).stagedWords = s.stagedWords :=
  State.stagedWords_of_obj (s.admitted_obj p d)
@[simp] theorem State.admitted_stagedCrc (s : State) (p : Packet) (d : CmdDesc) : (s.admitted p d).stagedCrc = s.stagedCrc :=
  State.stagedCrc_of_obj (s.admitted_obj p d)

@[simp] theorem State.stagedWords_length (s : State) : s.stagedWords.length = 192 := by simp [State.stagedWords]

/-- FIRE_LOAD's writes: the set, word by word, each under the new sequence number of its object (R347). -/
def State.stage (s : State) (l : List Word) : State :=
  s.each l.zipIdx fun s (e : Word × Nat) =>
    { s with mram := { s.mram.wrote (stagedKey e.2 / 256) with obj := s.mram.obj.set (objDefault (stagedKey e.2)) (stagedKey e.2) e.1 } }

/-- FIRE_LOAD's end: no arm is open, and STAGED_CRC is answered. -/
def State.answerStaged (s : State) (c : Ctx) : State := s.disarm.reply c .ok (wordBe s.stagedCrc)

/-- Staging changes the object words, and which copies hold under which sequence number. -/
theorem State.stage_eq (s : State) (l : List Word) : s.stage l =
    { s with mram := { s.mram with obj := s.mram.obj.writeAll (fun k => objDefault (stagedKey k)) stagedKey l,
                                   voidCopies := (s.stage l).mram.voidCopies, seqs := (s.stage l).mram.seqs } } := by
  induction l using List.reverseRecOn with
  | nil => rfl
  | append_singleton l v ih =>
    have hstep : s.stage (l ++ [v]) = { s.stage l with mram := { (s.stage l).mram.wrote (stagedKey l.length / 256) with
        obj := (s.stage l).mram.obj.set (objDefault (stagedKey l.length)) (stagedKey l.length) v } } := by
      simp [State.stage, State.each, List.zipIdx_append]
    rw [hstep, ih, Tab.writeAll_concat]
    rfl

theorem State.stage_obj (s : State) (l : List Word) :
    (s.stage l).mram.obj = s.mram.obj.writeAll (fun k => objDefault (stagedKey k)) stagedKey l := by rw [State.stage_eq]

/-- A whole set reads as staged. -/
theorem State.stagedWords_stage (s : State) {l : List Word} (h : l.length = 192) : (s.stage l).stagedWords = l := by
  refine List.ext_getElem (by simp [h]) fun k _ hk => ?_
  have hread := Tab.get_writeAll_key (fun k => objDefault (stagedKey k)) stagedKey s.mram.obj l (by rw [h]; exact stagedKey_inj) hk
  simpa [State.stagedWords, State.stagedWord, State.stage_obj] using hread

/-- No other object word changes. -/
theorem State.cfg_stage (s : State) {l : List Word} {i k : Nat} (h : ∀ j < l.length, stagedKey j ≠ okey i k) :
    (s.stage l).cfg i k = s.cfg i k := by
  simp only [State.cfg, State.stage_obj]
  exact Tab.get_writeAll_other _ _ _ _ _ h

/-- The words of a set that are in their ranges, place by place (R429). -/
theorem stagedOk_all_iff (l : List Word) :
    (l.zipIdx.all fun (e : Word × Nat) => stagedOk e.2 e.1) = true ↔ ∀ k < l.length, stagedOk k (l.getD k 0) = true := by
  simp only [List.all_eq_true, Prod.forall, List.mk_mem_zipIdx_iff_getElem?]
  constructor
  · intro h k hk
    exact h _ k (by simp [hk])
  · intro h w k hw
    obtain ⟨hk, rfl⟩ := List.getElem?_eq_some_iff.mp hw
    simpa [hk] using h k hk

/-! ## A confirmed set (R288, R289) -/

/-- A set written to MRAM reads as written. -/
theorem State.writeFire_get (s : State) (l : List Word) {k : Nat} (h : k < l.length) :
    (s.writeFire l).mram.fire.get (fireDefault k) k = l[k] :=
  Tab.get_writeAll_key fireDefault (fun k => k) [] l (fun _ _ _ _ e => e) h

/-- Both its copies hold. -/
@[simp] theorem State.holdFire_fireValid (s : State) (l : List Word) : (s.holdFire l).mram.fireValid = true := rfl

/-- The set before it stays in force. -/
@[simp] theorem State.holdFire_fireWord (s : State) (l : List Word) (k : Nat) : (s.holdFire l).fireWord k = s.fireWord k := by
  have hset : (s.holdFire l).fireSet = if s.mram.fireValid then s.fireSet else [] := rfl
  simp only [State.fireWord, State.holdFire_fireValid, hset, if_true]
  split <;> rfl

theorem State.holdFire_get (s : State) (l : List Word) {k : Nat} (h : k < l.length) :
    (s.holdFire l).mram.fire.get (fireDefault k) k = l[k] := State.writeFire_get _ l h

theorem State.holdFire_fire (s : State) (l : List Word) : (s.holdFire l).fire = { s.fire with before := (s.holdFire l).fire.before } := rfl

@[simp] theorem State.disarm_fireWord (s : State) (k : Nat) : s.disarm.fireWord k = s.fireWord k := rfl

/-! ## Replies -/

/-- A reply is the same whatever MRAM and the Fire Lane hold, and leaves both. -/
theorem State.reply_of_mram_fire (s : State) (m : Mram) (f : Fire) (c : Ctx) (st : Status) (b : List Byte) :
    { s with mram := m, fire := f }.reply c st b = { s with mram := m, fire := f, sup := (s.reply c st b).sup } := by
  unfold State.reply State.owe
  split
  · rfl
  · split
    · rfl
    · rfl

end Sys2Proof.Machine
end

section
/-! PROOFS. The commands one by one, and `Obligations.FireCommands`. -/

namespace Sys2Proof.Machine

open Sys2Proof

theorem exec_fireReset (s : State) (p : Packet) : exec (.fireReset p) s = s.command p fireResetDesc runFireReset := rfl
theorem exec_fireLoad (s : State) (p : Packet) : exec (.fireLoad p) s = s.command p fireLoadDesc runFireLoad := rfl
theorem exec_fireArm (s : State) (p : Packet) : exec (.fireArm p) s = s.command p fireArmDesc runFireArm := rfl
theorem exec_fireConfirm (s : State) (p : Packet) : exec (.fireConfirm p) s = s.command p fireConfirmDesc runFireConfirm := rfl
theorem exec_fireArmExpiry (s : State) : exec .fireArmExpiry s = execFireArmExpiry s := rfl

theorem runFireLoad_eq (c : Ctx) (b : List Byte) (q : State) : runFireLoad c b q =
    if !(packWords 192 b).zipIdx.all fun (e : Word × Nat) => stagedOk e.2 e.1 then q.refuse c .outOfRange
    else (q.stage (packWords 192 b)).answerStaged c := rfl

/-- FIRE_LOAD with every word in its range stages the set. -/
theorem runFireLoad_staged (c : Ctx) (b : List Byte) (q : State) (h : ∀ k < 192, stagedOk k ((packWords 192 b).getD k 0) = true) :
    runFireLoad c b q = (q.stage (packWords 192 b)).answerStaged c := by
  have hall := (stagedOk_all_iff (packWords 192 b)).mpr (by simpa using h)
  rw [runFireLoad_eq, hall]
  rfl

/-- FIRE_LOAD with a word out of its range is refused whole (log 112). -/
theorem runFireLoad_refused (c : Ctx) (b : List Byte) (q : State) (h : ∃ k < 192, stagedOk k ((packWords 192 b).getD k 0) = false) :
    runFireLoad c b q = q.refuse c .outOfRange := by
  obtain ⟨k, hk, hbad⟩ := h
  have hall : ((packWords 192 b).zipIdx.all fun (e : Word × Nat) => stagedOk e.2 e.1) = false := by
    rw [Bool.eq_false_iff]
    intro hall
    have hgood := (stagedOk_all_iff _).mp hall k (by simpa using hk)
    rw [hbad] at hgood
    cases hgood
  rw [runFireLoad_eq, hall]
  rfl

/-- What the load of a whole set leaves: the set staged and no arm, STAGED_CRC answered, and nothing else changed but copies and sequence
numbers. -/
theorem State.answerStaged_stage (q : State) (c : Ctx) {l : List Word} (hl : l.length = 192) :
    let t := (q.stage l).answerStaged c
    t = { q with sup := t.sup, mram := { q.mram with obj := t.mram.obj, voidCopies := t.mram.voidCopies, seqs := t.mram.seqs },
                 fire := { q.fire with arm := none } } ∧
    t.stagedWords = l ∧ t.sup = (q.reply c .ok (wordBe t.stagedCrc)).sup ∧
    ∀ i k, (∀ j < 192, stagedKey j ≠ okey i k) → t.cfg i k = q.cfg i k := by
  intro t
  have hdisarm : (q.stage l).disarm = { q with mram := (q.stage l).mram, fire := { q.fire with arm := none } } := by
    rw [State.stage_eq]; rfl
  have ht : t = { q with mram := (q.stage l).mram, fire := { q.fire with arm := none },
                         sup := (q.reply c .ok (wordBe (q.stage l).stagedCrc)).sup } := by
    simp only [t, State.answerStaged]
    rw [hdisarm, State.reply_of_mram_fire]
  have hobj : t.mram.obj = (q.stage l).mram.obj := by rw [ht]
  refine ⟨?frame, ?words, ?sup, ?others⟩
  case frame => rw [ht, State.stage_eq]
  case words => rw [State.stagedWords_of_obj hobj, q.stagedWords_stage hl]
  case sup => rw [State.stagedCrc_of_obj hobj, ht]
  case others =>
    intro i k hk
    simpa only [State.cfg, hobj] using q.cfg_stage (l := l) (i := i) (k := k) (by simpa [hl] using hk)

/-- FIRE_ARM for a set that matches its CRC and breaks no rule opens the arm under a drawn token. -/
theorem runFireArm_armed (c : Ctx) (b : List Byte) (q : State) (hcrc : q.stagedCrc = beWord b 0) (hsound : q.fireSetSound q.stagedWord = true) :
    runFireArm c b q = ({ q.draw with fire := { q.fire with
      arm := some { token := Config.armToken q.freeCount, crc := beWord b 0, origin := c.origin, keyslot := c.keyslot, at_ := q.now } } }.reply c .ok
        (toBe 2 (Config.armToken q.freeCount).toNat ++ pad 2)) := by
  simp [runFireArm, hcrc, hsound]

/-- No function is busy when none of this module is and no synchronised partner is told (R289). -/
theorem State.fireBusy_eq_false {q : State}
    (hfree : ∀ f < 16, (q.fireFn f).tripped = false ∧ (q.fireFn f).latched = false ∧ (q.fireFn f).resetPending = false)
    (hf : q.forwards = false) : q.fireBusy = false := by
  simp only [State.fireBusy, hf, Bool.false_and, Bool.or_false, List.any_eq_false, List.mem_range]
  intro f hlt
  obtain ⟨htrip, hlatch, hreset⟩ := hfree f hlt
  simp [htrip, hlatch, hreset]

/-- The packet confirms the arm: its CRC and token, its origin and key slot, within 60 s (R289). -/
def Arm.confirmedBy (a : Arm) (c : Ctx) (b : List Byte) (now : Nat) : Prop :=
  a.crc = beWord b 0 ∧ a.token.toNat = be16 b 4 ∧ a.origin = c.origin ∧ a.keyslot = c.keyslot ∧ now ≤ a.at_ + 60000000000

/-- FIRE_CONFIRM of a module that forwards nothing, with no function busy: the set waits for its boundary in full service, and for its domains otherwise. -/
theorem runFireConfirm_confirmed {a : Arm} {c : Ctx} {b : List Byte} {q : State} (harm : q.fire.arm = some a) (ha : a.confirmedBy c b q.now)
    (hbusy : q.fireBusy = false) (hf : q.forwards = false) :
    runFireConfirm c b q = if q.service == .full then (q.disarm.holdFire q.stagedWords).ok c
      else (q.disarm.bringFire q.stagedWords).judgeDomains.ok c := by
  obtain ⟨hcrc, htoken, horigin, hslot, htime⟩ := ha
  have hd : q.disarm.forwards = false := hf
  have hs : q.disarm.service = q.service := rfl
  simp [runFireConfirm, harm, hcrc, htoken, horigin, hslot, htime, hbusy, hf, hd, hs]

/-- Settles O39, command by command: each is admitted, and runs on a state whose configuration and Fire Lane are those of `s`. -/
theorem fireCommands : Obligations.FireCommands := by
  unfold Obligations.FireCommands
  intro s p
  refine ⟨?reset, ?load, ?loadRefused, ?arm, ?confirm, ?expiry⟩
  case reset =>
    intro t r h
    rw [exec_fireReset, State.command_next runFireReset h]
    rfl
  case load =>
    intro q h hok
    obtain ⟨hframe, hwords, hsup, hcfg⟩ := q.answerStaged_stage (s.ctxOf p fireLoadDesc) (packWords_length 192 (s.payloadOf p fireLoadDesc))
    refine ⟨_, ?_, hframe, hwords, hsup, fun i k hk => ?_⟩
    · rw [exec_fireLoad, State.command_next runFireLoad h, runFireLoad_staged _ _ _ hok]
    · rw [hcfg i k hk, s.admitted_cfg]
  case loadRefused =>
    intro h hbad
    rw [exec_fireLoad, State.command_next runFireLoad h, runFireLoad_refused _ _ _ hbad]
  case arm =>
    intro crc c token h hcrc hsound
    rw [exec_fireArm, State.command_next runFireArm h, runFireArm_armed _ _ _ (by simpa using hcrc) (by simpa using hsound)]
    simp [crc, c, token]
  case confirm =>
    intro a b c h harm hcrc htoken horigin hslot htime hfree hf
    have hconfirm : exec (.fireConfirm p) s = .next (runFireConfirm c b (s.admitted p fireConfirmDesc)) := by
      rw [exec_fireConfirm, State.command_next runFireConfirm h]
    rw [runFireConfirm_confirmed (a := a) (by simpa using harm) ⟨hcrc, htoken, horigin, hslot, by simpa using htime⟩
      (State.fireBusy_eq_false (by simpa using hfree) (by simpa using hf)) (by simpa using hf)] at hconfirm
    constructor
    · intro hfull u
      have hwords : ∀ k < 192, u.mram.fire.get (fireDefault k) k = s.stagedWord k := fun k hk => by
        have hread := (s.admitted p fireConfirmDesc).disarm.holdFire_get s.stagedWords (k := k) (by simpa using hk)
        simpa [u, State.stagedWords] using hread
      refine ⟨by simpa [hfull] using hconfirm, fun k hk => ⟨?_, hwords k hk⟩, rfl, ?_⟩
      · simp [u]
      · rw [State.holdFire_fire]
        simp [State.disarm]
    · intro hside q u
      simpa [hside, State.bringFire, q, u] using hconfirm
  case expiry =>
    intro a ha hdue
    simp [exec_fireArmExpiry, execFireArmExpiry, ha, hdue, State.disarm]

end Sys2Proof.Machine
end

/-! # Functions of the model that leave the sources alone

Functions of the model that leave the Roundabout's sources as they were: for each one, the sources before and after (R37, R138). -/

section
namespace Sys2Proof.Machine
open Sys2Proof

/-- A run of steps that leave the sources leaves them. -/
@[simp] theorem State.each_sources {α : Type} (s : State) (l : List α) (f : State → α → State)
    (h : ∀ s x, (f s x).round.sources = s.round.sources) : (s.each l f).round.sources = s.round.sources := by
  induction l generalizing s with
  | nil => rfl
  | cons x l ih => rw [State.each, List.foldl_cons, ← h s x]; exact ih _

@[simp] theorem State.foldl_sources {α : Type} (s : State) (l : List α) (f : State → α → State)
    (h : ∀ s x, (f s x).round.sources = s.round.sources) : (l.foldl f s).round.sources = s.round.sources := State.each_sources s l f h

@[simp] theorem State.ite_sources (c : Prop) [Decidable c] (s t : State) :
    (if c then s else t).round.sources = if c then s.round.sources else t.round.sources := by split <;> rfl

@[simp] theorem State.setDo_sources (s : State) (i : Nat) (x : Do) : (s.setDo i x).round.sources = s.round.sources := rfl
@[simp] theorem State.modDo_sources (s : State) (i : Nat) (f : Do → Do) : (s.modDo i f).round.sources = s.round.sources := rfl
@[simp] theorem State.setUc_sources (s : State) (i : Nat) (x : Uc) : (s.setUc i x).round.sources = s.round.sources := rfl
@[simp] theorem State.modUc_sources (s : State) (i : Nat) (f : Uc → Uc) : (s.modUc i f).round.sources = s.round.sources := rfl

@[simp] theorem State.holdOutputs_sources (s : State) : (s.holdOutputs).round.sources = s.round.sources := by
  unfold State.holdOutputs
  rw [State.each_sources, State.each_sources] <;> intros
  · split <;> rfl
  · rfl

@[simp] theorem State.doRefresh_sources (s : State) (n : Nat) : (s.doRefresh n).round.sources = s.round.sources := rfl
@[simp] theorem State.doRefreshAll_sources (s : State) : (s.doRefreshAll).round.sources = s.round.sources := rfl
@[simp] theorem State.ucRefresh_sources (s : State) (n : Nat) : (s.ucRefresh n).round.sources = s.round.sources := rfl

@[simp] theorem State.outputsAnew_sources (s : State) : (s.outputsAnew).round.sources = s.round.sources := by
  unfold State.outputsAnew
  refine State.each_sources _ _ _ fun s x => ?_
  simp

@[simp] theorem State.dropClaim_sources (s : State) : (s.dropClaim).round.sources = s.round.sources := by simp [State.dropClaim]
@[simp] theorem State.setDiGroup_sources (s : State) (i : Nat) (x : DGroup) : (s.setDiGroup i x).round.sources = s.round.sources := rfl
@[simp] theorem State.modDiGroup_sources (s : State) (i : Nat) (f : DGroup → DGroup) : (s.modDiGroup i f).round.sources = s.round.sources := rfl
@[simp] theorem State.setTotal_sources (s : State) (i : Nat) (x : Total) : (s.setTotal i x).round.sources = s.round.sources := rfl
@[simp] theorem State.modTotal_sources (s : State) (i : Nat) (f : Total → Total) : (s.modTotal i f).round.sources = s.round.sources := rfl
@[simp] theorem State.resetMarks_sources (s : State) (g : Nat) : (s.resetMarks g).round.sources = s.round.sources := by simp [State.resetMarks]
@[simp] theorem State.setDi_sources (s : State) (i : Nat) (x : Di) : (s.setDi i x).round.sources = s.round.sources := rfl
@[simp] theorem State.modDi_sources (s : State) (i : Nat) (f : Di → Di) : (s.modDi i f).round.sources = s.round.sources := rfl

@[simp] theorem State.takeMarks_sources (s : State) (f : Nat) : (s.takeMarks f).round.sources = s.round.sources := by
  unfold State.takeMarks
  rw [State.each_sources, State.each_sources] <;> intros
  · simp
  · rfl
  · split <;> rfl

@[simp] theorem State.recordArrives_sources (s : State) (q : Raised) : (s.recordArrives q).round.sources = s.round.sources := rfl
@[simp] theorem State.setCrossing_sources (s : State) (i : Nat) (x : Crossing) : (s.setCrossing i x).round.sources = s.round.sources := rfl
@[simp] theorem State.modCrossing_sources (s : State) (i : Nat) (f : Crossing → Crossing) : (s.modCrossing i f).round.sources = s.round.sources := rfl

@[simp] theorem State.postMessage_sources (s : State) (sender : Nat) (receiver : Nat) (cls : Nat) (cargo : Cargo) :
    (s.postMessage sender receiver cls cargo).round.sources = s.round.sources :=
  rfl

@[simp] theorem State.raiseTotal_sources (s : State) (k : RecKind) (v : Word) (c : BitVec 32) : (s.raiseTotal k v c).round.sources = s.round.sources := by
  simp [State.raiseTotal]

@[simp] theorem State.storeCopy_sources (s : State) (t : Nat) (at_ : Nat) (c : BitVec 32) : (s.storeCopy t at_ c).round.sources = s.round.sources := by
  simp [State.storeCopy]

@[simp] theorem State.keepBoth_sources (s : State) (t : Nat) : (s.keepBoth t).round.sources = s.round.sources := by simp [State.keepBoth]

@[simp] theorem State.putIncr_sources (s : State) (t : Nat) (r : Total × Bool) (c : BitVec 32) : (s.putIncr t r c).round.sources = s.round.sources := by
  simp [State.putIncr]

@[simp] theorem State.lastMarks_sources (s : State) : (s.lastMarks).round.sources = s.round.sources := by simp [State.lastMarks]
@[simp] theorem State.noteWrite_sources (s : State) (a : Nat) (lo : Nat) (n : Nat) : (s.noteWrite a lo n).round.sources = s.round.sources := rfl
@[simp] theorem State.dropUpsets_sources (s : State) (l : List Upset) : (s.dropUpsets l).round.sources = s.round.sources := rfl

@[simp] theorem State.raiseFrom_sources (s : State) (src : Nat) (k : RecKind) (value : Word) : (s.raiseFrom src k value).round.sources = s.round.sources := by
  simp [State.raiseFrom]

@[simp] theorem State.raise_sources (s : State) (k : RecKind) (value : Word) : (s.raise k value).round.sources = s.round.sources := by simp [State.raise]
@[simp] theorem State.fireSourceAt_sources (s : State) (n : Nat) (t : Nat) : (s.fireSourceAt n t).round.sources = s.round.sources := rfl
@[simp] theorem State.fireSource_sources (s : State) (n : Nat) : (s.fireSource n).round.sources = s.round.sources := rfl
@[simp] theorem State.setArr_sources (s : State) (i : Nat) (x : Arr) : (s.setArr i x).round.sources = s.round.sources := rfl
@[simp] theorem State.correction_sources (s : State) (a : Nat) : (s.correction a).round.sources = s.round.sources := by simp [State.correction]
@[simp] theorem State.corrections_sources (s : State) (a : Nat) (n : Nat) : (s.corrections a n).round.sources = s.round.sources := by simp [State.corrections]

@[simp] theorem State.overwrite_sources (s : State) (a : Nat) (lo : Nat) (n : Nat) : (s.overwrite a lo n).round.sources = s.round.sources := by
  simp [State.overwrite]

@[simp] theorem State.startRepair_sources (s : State) (a : Nat) (b : Nat) : (s.startRepair a b).round.sources = s.round.sources := by simp [State.startRepair]

@[simp] theorem State.writeSpan_sources (s : State) (a : Nat) (lo : Nat) (n : Nat) : (s.writeSpan a lo n).round.sources = s.round.sources := by
  simp [State.writeSpan]

@[simp] theorem State.writeItem_sources (s : State) (i : MramItem) : (s.writeItem i).round.sources = s.round.sources := by simp [State.writeItem]
@[simp] theorem State.leaveHard_sources (s : State) (l : List Upset) : (s.leaveHard l).round.sources = s.round.sources := rfl
@[simp] theorem State.remapWord_sources (s : State) (a : Nat) (w : Nat) : (s.remapWord a w).round.sources = s.round.sources := by simp [State.remapWord]
@[simp] theorem State.modArr_sources (s : State) (i : Nat) (f : Arr → Arr) : (s.modArr i f).round.sources = s.round.sources := rfl

@[simp] theorem State.poisonedRead_sources (s : State) (a : Nat) (b : Nat) : (s.poisonedRead a b).round.sources = s.round.sources := by
  simp [State.poisonedRead]

@[simp] theorem State.judgeRead_sources (s : State) (a b : Nat) (v : Verdict) : (s.judgeRead a b v).1.round.sources = s.round.sources := by
  unfold State.judgeRead; dsimp only; split <;> simp

@[simp] theorem State.readSpan_sources (s : State) (a : Nat) (lo : Nat) (n : Nat) : (s.readSpan a lo n).round.sources = s.round.sources := by
  simp [State.readSpan]

@[simp] theorem State.readWords_sources (s : State) (a : Nat) (l : List Nat) : (s.readWords a l).round.sources = s.round.sources := by simp [State.readWords]
@[simp] theorem State.writeRetained_sources (s : State) : (s.writeRetained).round.sources = s.round.sources := by simp [State.writeRetained]
@[simp] theorem State.writeFire_sources (s : State) (l : List Word) : (s.writeFire l).round.sources = s.round.sources := rfl
@[simp] theorem State.toFire_sources (s : State) (m : FireMsg) : (s.toFire m).round.sources = s.round.sources := rfl
@[simp] theorem State.diToFire_sources (s : State) (n : Nat) : (s.diToFire n).round.sources = s.round.sources := by simp [State.diToFire]
@[simp] theorem State.tellFire_sources (s : State) : (s.tellFire).round.sources = s.round.sources := by simp [State.tellFire]
@[simp] theorem State.returnDo_sources (s : State) (n : Nat) : (s.returnDo n).round.sources = s.round.sources := by simp [State.returnDo]
@[simp] theorem State.setLoopCtx_sources (s : State) (i : Nat) (x : Loop) : (s.setLoopCtx i x).round.sources = s.round.sources := rfl
@[simp] theorem State.modLoopCtx_sources (s : State) (i : Nat) (f : Loop → Loop) : (s.modLoopCtx i f).round.sources = s.round.sources := rfl

@[simp] theorem State.returnUc_sources (s : State) (n : Nat) : (s.returnUc n).round.sources = s.round.sources := by
  unfold State.returnUc
  dsimp only
  (repeat' split) <;> simp

@[simp] theorem State.cutOutputs_sources (s : State) : (s.cutOutputs).round.sources = s.round.sources := by
  unfold State.cutOutputs
  refine State.each_sources _ _ _ fun s x => ?_
  (repeat' split) <;> simp

@[simp] theorem State.judgeCut_sources (s : State) (f : Nat) : (s.judgeCut f).round.sources = s.round.sources := by simp [State.judgeCut]
@[simp] theorem State.judgeCuts_sources (s : State) : (s.judgeCuts).round.sources = s.round.sources := by simp [State.judgeCuts]
@[simp] theorem State.setFireOut_sources (s : State) (i : Nat) (x : FireOut) : (s.setFireOut i x).round.sources = s.round.sources := rfl
@[simp] theorem State.modFireOut_sources (s : State) (i : Nat) (f : FireOut → FireOut) : (s.modFireOut i f).round.sources = s.round.sources := rfl
@[simp] theorem State.setRingPort_sources (s : State) (i : Nat) (x : RingPort) : (s.setRingPort i x).round.sources = s.round.sources := rfl
@[simp] theorem State.modRingPort_sources (s : State) (i : Nat) (f : RingPort → RingPort) : (s.modRingPort i f).round.sources = s.round.sources := rfl
@[simp] theorem State.portTx_sources (s : State) (p : Nat) (f : HsrFrame) : (s.portTx p f).round.sources = s.round.sources := by simp [State.portTx]

@[simp] theorem State.sendRing_sources (s : State) (dest : BitVec 48) (etherType : BitVec 16) (payload : List Byte) :
    (s.sendRing dest etherType payload).round.sources = s.round.sources := by
  simp [State.sendRing]

@[simp] theorem State.sendStation_sources (s : State) (body : StationBody) : (s.sendStation body).round.sources = s.round.sources := by simp [State.sendStation]
@[simp] theorem State.setCan_sources (s : State) (i : Nat) (x : Can) : (s.setCan i x).round.sources = s.round.sources := rfl
@[simp] theorem State.modCan_sources (s : State) (i : Nat) (f : Can → Can) : (s.modCan i f).round.sources = s.round.sources := rfl
@[simp] theorem State.sendFrame_sources (s : State) (o : Nat) : (s.sendFrame o).round.sources = s.round.sources := by simp [State.sendFrame]

@[simp] theorem State.moveOut_sources (s : State) (o : Nat) : (s.moveOut o).round.sources = s.round.sources := by
  unfold State.moveOut
  dsimp only
  (repeat' split) <;> simp

@[simp] theorem State.retakeOutputs_sources (s : State) (was : List (Nat × Nat)) : (s.retakeOutputs was).round.sources = s.round.sources := by
  simp [State.retakeOutputs]

@[simp] theorem State.takeFire_sources (s : State) (l : List Word) : (s.takeFire l).round.sources = s.round.sources := by simp [State.takeFire]
@[simp] theorem State.settleFire_sources (s : State) : (s.settleFire).round.sources = s.round.sources := by simp [State.settleFire]
@[simp] theorem State.keepTotal_sources (s : State) (t : Nat) (c : BitVec 32) : (s.keepTotal t c).round.sources = s.round.sources := by simp [State.keepTotal]
@[simp] theorem State.putTotWord_sources (s : State) (t : Nat) (sub : Nat) (w : Word) : (s.putTotWord t sub w).round.sources = s.round.sources := rfl

@[simp] theorem State.closeTotal_sources (s : State) (t : Nat) (c : BitVec 32) (who : Option Ctx) : (s.closeTotal t c who).round.sources = s.round.sources := by
  simp [State.closeTotal]

@[simp] theorem State.rebaseTotal_sources (s : State) (t : Nat) (c : BitVec 32) (same : Bool) : (s.rebaseTotal t c same).round.sources = s.round.sources := rfl

@[simp] theorem State.landEntry_sources (t : Nat) (c : BitVec 32) (s : State) (q : Close) :
    (State.landEntry t c s q).round.sources = s.round.sources := by
  unfold State.landEntry; simp -implicitDefEqProofs

@[simp] theorem State.settleCloses_sources (s : State) (t : Nat) : (s.settleCloses t).round.sources = s.round.sources := by simp [State.settleCloses]
@[simp] theorem State.putCanEnable_sources (s : State) (p : Nat) (b : Bool) : (s.putCanEnable p b).round.sources = s.round.sources := rfl
@[simp] theorem State.settleCan_sources (s : State) (p : Nat) : (s.settleCan p).round.sources = s.round.sources := by simp [State.settleCan]
@[simp] theorem State.putCfg_sources (s : State) (key : Nat) (w : Word) : (s.putCfg key w).round.sources = s.round.sources := rfl

@[simp] theorem State.settleWrites_sources (s : State) : s.settleWrites.round.sources = s.round.sources := by
  simp -implicitDefEqProofs [State.settleWrites]

@[simp] theorem State.raiseStarting_sources (s : State) (k : RecKind) (value : Word) : (s.raiseStarting k value).round.sources = s.round.sources := rfl
@[simp] theorem State.setIsland_sources (s : State) (i : Nat) (x : Island) : (s.setIsland i x).round.sources = s.round.sources := rfl
@[simp] theorem State.modIsland_sources (s : State) (i : Nat) (f : Island → Island) : (s.modIsland i f).round.sources = s.round.sources := rfl
@[simp] theorem State.localClocks_sources (s : State) : (s.localClocks).round.sources = s.round.sources := rfl
@[simp] theorem State.planned_sources (s : State) : (s.planned).round.sources = s.round.sources := rfl

@[simp] theorem State.setIslands_sources (s : State) (d : Nat) (x : IslandState) : (s.setIslands d x).round.sources = s.round.sources := by
  unfold State.setIslands
  refine State.each_sources _ _ _ fun s x => ?_
  simp

@[simp] theorem State.setDomain_sources (s : State) (i : Nat) (x : Domain) : (s.setDomain i x).round.sources = s.round.sources := rfl
@[simp] theorem State.modDomain_sources (s : State) (i : Nat) (f : Domain → Domain) : (s.modDomain i f).round.sources = s.round.sources := rfl
@[simp] theorem State.setBank_sources (s : State) (i : Nat) (x : Bank) : (s.setBank i x).round.sources = s.round.sources := rfl
@[simp] theorem State.modBank_sources (s : State) (i : Nat) (f : Bank → Bank) : (s.modBank i f).round.sources = s.round.sources := rfl

@[simp] theorem State.sealArray_sources (s : State) (a : Nat) : (s.sealArray a).round.sources = s.round.sources := by
  unfold State.sealArray
  dsimp only
  (repeat' split) <;> simp

@[simp] theorem State.seal_sources (s : State) (d : Nat) : (s.seal d).round.sources = s.round.sources := by simp [State.seal]

@[simp] theorem State.domainUp_sources (s : State) (d : Nat) : (s.domainUp d).round.sources = s.round.sources := by
  simp -implicitDefEqProofs [State.domainUp]

@[simp] theorem State.powerDomains_sources (s : State) : (s.powerDomains).round.sources = s.round.sources := by simp [State.powerDomains]
@[simp] theorem State.showStored_sources (s : State) : (s.showStored).round.sources = s.round.sources := rfl
@[simp] theorem State.clearForces_sources (s : State) (cold : Bool) : (s.clearForces cold).round.sources = s.round.sources := by simp [State.clearForces]
@[simp] theorem State.ucSideStreet_sources (s : State) (n : Nat) : (s.ucSideStreet n).round.sources = s.round.sources := rfl
@[simp] theorem State.stationPage_sources (s : State) (p : Nat) (x : Nat) : (s.stationPage p x).round.sources = s.round.sources := by simp [State.stationPage]
@[simp] theorem State.setStation_sources (s : State) (p : Nat) (x : Nat) (y : Station) : (s.setStation p x y).round.sources = s.round.sources := rfl
@[simp] theorem State.modStation_sources (s : State) (p : Nat) (x : Nat) (f : Station → Station) : (s.modStation p x f).round.sources = s.round.sources := rfl
@[simp] theorem State.loseArrived_sources (s : State) (p : Nat) (x : Nat) : (s.loseArrived p x).round.sources = s.round.sources := rfl
@[simp] theorem State.stationStart_sources (s : State) (p : Nat) (x : Nat) : (s.stationStart p x).round.sources = s.round.sources := rfl
@[simp] theorem State.canFullService_sources (s : State) : (s.canFullService).round.sources = s.round.sources := by simp [State.canFullService]
@[simp] theorem State.canStart_sources (s : State) (p : Nat) : (s.canStart p).round.sources = s.round.sources := rfl
@[simp] theorem State.canJoin_sources (s : State) : (s.canJoin).round.sources = s.round.sources := by simp [State.canJoin]
@[simp] theorem State.offerDigital_sources (s : State) : (s.offerDigital).round.sources = s.round.sources := rfl

@[simp] theorem State.startField_sources (s : State) : s.startField.round.sources = s.round.sources := by
  unfold State.startField; simp -implicitDefEqProofs

@[simp] theorem State.enterPair_sources (s : State) (x : PairState) : (s.enterPair x).round.sources = s.round.sources := by simp [State.enterPair]
@[simp] theorem State.startPair_sources (s : State) : (s.startPair).round.sources = s.round.sources := by simp [State.startPair]
@[simp] theorem State.zeroMarks_sources (s : State) (t : Nat) : (s.zeroMarks t).round.sources = s.round.sources := rfl

@[simp] theorem State.loadTotals_sources (s : State) : (s.loadTotals).round.sources = s.round.sources := by
  unfold State.loadTotals
  refine State.each_sources _ _ _ fun s x => ?_
  (repeat' split) <;> simp

@[simp] theorem State.enterSideStreet_sources (s : State) (kind : BitVec 2) : (s.enterSideStreet kind).round.sources = s.round.sources := by
  simp [State.enterSideStreet]

@[simp] theorem State.fieldOf_sources (old : State) (commanded : Bool) (s : State) : (old.fieldOf commanded s).round.sources = s.round.sources := rfl
@[simp] theorem State.draw_sources (s : State) : (s.draw).round.sources = s.round.sources := rfl

@[simp] theorem State.raiseUnstated_sources (s : State) (src : Nat) (k : RecKind) : (s.raiseUnstated src k).round.sources = s.round.sources := by
  simp [State.raiseUnstated]

@[simp] theorem State.revertWork_sources (s : State) : (s.revertWork).round.sources = s.round.sources := by simp [State.revertWork]
@[simp] theorem State.abandonCycle_sources (s : State) : (s.abandonCycle).round.sources = s.round.sources := by simp [State.abandonCycle]
@[simp] theorem State.loopMiss_sources (s : State) (n : Nat) : (s.loopMiss n).round.sources = s.round.sources := rfl
@[simp] theorem State.freePlace_sources (s : State) (origin : BitVec 16) : (s.freePlace origin).round.sources = s.round.sources := rfl

@[simp] theorem State.replyBusy_sources (s : State) (c : Ctx) (counts : Bool) : (s.replyBusy c counts).round.sources = s.round.sources := by
  simp [State.replyBusy]

@[simp] theorem State.loopIslandRestart_sources (s : State) : s.loopIslandRestart.round.sources = s.round.sources := by
  unfold State.loopIslandRestart
  rw [State.each_sources]
  · simp -implicitDefEqProofs
  · intro s n
    dsimp only
    split
    · rfl
    · simp -implicitDefEqProofs

@[simp] theorem State.pathAlarm_sources (s : State) (path : Nat) : (s.pathAlarm path).round.sources = s.round.sources := by simp [State.pathAlarm]
@[simp] theorem State.judgePaths_sources (s : State) : (s.judgePaths).round.sources = s.round.sources := by simp [State.judgePaths]
@[simp] theorem State.ringPathLost_sources (s : State) : (s.ringPathLost).round.sources = s.round.sources := by simp [State.ringPathLost]

@[simp] theorem State.enterTime_sources (s : State) (x : TimeState) : (s.enterTime x).round.sources = s.round.sources := by
  unfold State.enterTime
  (repeat' split) <;> simp

@[simp] theorem State.judgePtpPort_sources (s : State) : (s.judgePtpPort).round.sources = s.round.sources := by simp [State.judgePtpPort]
@[simp] theorem State.loseLink_sources (s : State) (p : Nat) : (s.loseLink p).round.sources = s.round.sources := by simp [State.loseLink]

@[simp] theorem State.raiseCan_sources (s : State) (p : Nat) (k : RecKind) (v : Word) : (s.raiseCan p k v).round.sources = s.round.sources := by
  simp [State.raiseCan]

@[simp] theorem State.abandonFrame_sources (s : State) (p : Nat) (reason : Nat) (slot : Nat) :
    (s.abandonFrame p reason slot).round.sources = s.round.sources := by
  simp [State.abandonFrame]

@[simp] theorem State.giveUp_sources (s : State) (p : Nat) (reason : Nat) (j : TxJob) : (s.giveUp p reason j).round.sources = s.round.sources := by
  unfold State.giveUp
  split <;> simp

@[simp] theorem State.missDue_sources (s : State) (p : Nat) : (s.missDue p).round.sources = s.round.sources := by simp [State.missDue]

@[simp] theorem State.stopSchedule_sources (s : State) (p : Nat) (reason : Nat) : (s.stopSchedule p reason).round.sources = s.round.sources := by
  simp [State.stopSchedule]

@[simp] theorem State.dropQueue_sources (s : State) (p : Nat) (keepHead : Bool) : (s.dropQueue p keepHead).round.sources = s.round.sources := by
  simp [State.dropQueue]

@[simp] theorem State.canIslandRestart_sources (s : State) (p : Nat) : (s.canIslandRestart p).round.sources = s.round.sources := by
  unfold State.canIslandRestart; split
  · rfl
  · dsimp only; split <;> simp -implicitDefEqProofs

@[simp] theorem State.supRestart_sources (s : State) : (s.supRestart).round.sources = s.round.sources := rfl
@[simp] theorem State.inputsToFire_sources (s : State) (n : Nat) : (s.inputsToFire n).round.sources = s.round.sources := by simp [State.inputsToFire]
@[simp] theorem State.restartIsland_sources (s : State) (n : Nat) : (s.restartIsland n).round.sources = s.round.sources := by simp [State.restartIsland]
@[simp] theorem State.fireGone_sources (s : State) : (s.fireGone).round.sources = s.round.sources := by simp [State.fireGone]
@[simp] theorem State.doApply_sources (s : State) (n : Nat) : (s.doApply n).round.sources = s.round.sources := by simp [State.doApply]
@[simp] theorem State.ucApply_sources (s : State) (n : Nat) : (s.ucApply n).round.sources = s.round.sources := by simp [State.ucApply]
@[simp] theorem State.closeNow_sources (s : State) (t : Nat) : (s.closeNow t).round.sources = s.round.sources := by simp [State.closeNow]
@[simp] theorem State.leaveService_sources (s : State) (n : Nat) : (s.leaveService n).round.sources = s.round.sources := by simp [State.leaveService]
@[simp] theorem State.supPoisoned_sources (s : State) : (s.supPoisoned).round.sources = s.round.sources := by simp [State.supPoisoned]

@[simp] theorem State.supTick_sources (s : State) : s.supTick.round.sources = s.round.sources := by
  unfold State.supTick; split <;> simp

@[simp] theorem State.addUpset_sources (s : State) (u : Upset) : (s.addUpset u).round.sources = s.round.sources := by simp [State.addUpset]
@[simp] theorem State.upsetTick_sources (s : State) : (s.upsetTick).round.sources = s.round.sources := by unfold State.upsetTick; split <;> simp
@[simp] theorem State.dropShadowCycle_sources (s : State) : (s.dropShadowCycle).round.sources = s.round.sources := by simp [State.dropShadowCycle]
@[simp] theorem State.canTakeover_sources (s : State) (gap : Bool) : (s.canTakeover gap).round.sources = s.round.sources := rfl
@[simp] theorem State.setEpoch_sources (s : State) (e : BitVec 32) : (s.setEpoch e).round.sources = s.round.sources := by simp [State.setEpoch]
@[simp] theorem State.raiseEpoch_sources (s : State) : (s.raiseEpoch).round.sources = s.round.sources := by simp [State.raiseEpoch]
@[simp] theorem State.takeOver_sources (s : State) (kind : Nat) : (s.takeOver kind).round.sources = s.round.sources := by simp [State.takeOver]
@[simp] theorem State.seeRelease_sources (s : State) : (s.seeRelease).round.sources = s.round.sources := by unfold State.seeRelease; split <;> simp
@[simp] theorem State.lapse_sources (s : State) (ns : Nat) : (s.lapse ns).round.sources = s.round.sources := rfl
@[simp] theorem State.countFormat_sources (s : State) : (s.countFormat).round.sources = s.round.sources := rfl
@[simp] theorem State.countAuth_sources (s : State) : (s.countAuth).round.sources = s.round.sources := rfl

@[simp] theorem State.reply_sources (s : State) (c : Ctx) (st : Status) (body : List Byte) : (s.reply c st body).round.sources = s.round.sources := by
  simp [State.reply]

@[simp] theorem State.refuse_sources (s : State) (c : Ctx) (st : Status) : (s.refuse c st).round.sources = s.round.sources := by simp [State.refuse]
@[simp] theorem State.acceptSeq_sources (s : State) (p : Packet) : (s.acceptSeq p).round.sources = s.round.sources := rfl

@[simp] theorem State.accept_sources (s : State) (p : Packet) (d : CmdDesc) (known : Bool) :
    (s.accept p d known).1.round.sources = s.round.sources := by
  obtain ⟨x, h, e⟩ := s.onlySup_accept p d known
  rw [e]

@[simp] theorem runIdentify_sources (c : Ctx) (a1 : List Byte) (s : State) : (runIdentify c a1 s).round.sources = s.round.sources := by simp [runIdentify]
@[simp] theorem runGetStatus_sources (c : Ctx) (a1 : List Byte) (s : State) : (runGetStatus c a1 s).round.sources = s.round.sources := by simp [runGetStatus]

@[simp] theorem State.gateRead_sources (s : State) (c : Ctx) (b : List Byte) (a : Nat) (at_ marks : List Nat) (k : List Nat → State → State)
    (h : ∀ l t, (k l t).round.sources = t.round.sources) : (s.gateRead c b a at_ marks k).round.sources = s.round.sources := by
  unfold State.gateRead; simp [h]

@[simp] theorem State.replyData_sources (s : State) (c : Ctx) (head : List Byte) (l : List (Word × Bool)) :
    (s.replyData c head l).round.sources = s.round.sources := by
  simp [State.replyData]

@[simp] theorem readObjectFrom_sources (marks : List Nat) (c : Ctx) (b : List Byte) (s : State) :
    (readObjectFrom marks c b s).round.sources = s.round.sources := by
  simp [readObjectFrom]

@[simp] theorem runReadObject_sources (a0 : Ctx) (a1 : List Byte) (a2 : State) : (runReadObject a0 a1 a2).round.sources = a2.round.sources := by
  simp [runReadObject]

@[simp] theorem State.judgeBands_sources (s : State) : (s.judgeBands).round.sources = s.round.sources := by unfold State.judgeBands; split <;> simp
@[simp] theorem State.judgeThermal_sources (s : State) : (s.judgeThermal).round.sources = s.round.sources := by simp [State.judgeThermal]

@[simp] theorem State.loseArrays_sources (s : State) (d : Nat) : (s.loseArrays d).round.sources = s.round.sources := by
  unfold State.loseArrays; dsimp only; split
  · rw [State.each_sources] <;> intros
    · simp -implicitDefEqProofs
    · rfl
  · split <;> simp -implicitDefEqProofs
  · simp -implicitDefEqProofs

@[simp] theorem State.powerOff_sources (s : State) (d : Nat) : (s.powerOff d).round.sources = s.round.sources := by simp [State.powerOff]

@[simp] theorem State.judgeDomain_sources (s : State) (d : Nat) : (s.judgeDomain d).round.sources = s.round.sources := by
  unfold State.judgeDomain
  dsimp only
  (repeat' split) <;> simp

@[simp] theorem State.judgeDomains_sources (s : State) : (s.judgeDomains).round.sources = s.round.sources := by simp [State.judgeDomains]
@[simp] theorem State.disarm_sources (s : State) : (s.disarm).round.sources = s.round.sources := rfl
@[simp] theorem State.ucNote_sources (s : State) (n : Nat) (w : Word) : (s.ucNote n w).round.sources = s.round.sources := by simp [State.ucNote]

@[simp] theorem State.putRestart_sources (s : State) (key : Nat) (mask : Word) (w : Word) : (s.putRestart key mask w).round.sources = s.round.sources := by
  simp [State.putRestart]

@[simp] theorem State.putUcWord_sources (s : State) (n : Nat) (sub : Nat) (w : Word) : (s.putUcWord n sub w).round.sources = s.round.sources := rfl
@[simp] theorem State.dropHart_sources (s : State) (n : Nat) : (s.dropHart n).round.sources = s.round.sources := by simp [State.dropHart]

@[simp] theorem State.ucUpdate_sources (s : State) (n : Nat) (x : Uc) : (s.ucUpdate n x).round.sources = s.round.sources := by
  unfold State.ucUpdate
  dsimp only
  (repeat' split) <;> simp

@[simp] theorem State.ucShutDown_sources (s : State) (n : Nat) (mode : Nat) : (s.ucShutDown n mode).round.sources = s.round.sources := by
  simp [State.ucShutDown]

@[simp] theorem State.ucLandMode_sources (s : State) (n : Nat) (old : Word) (new : Word) : (s.ucLandMode n old new).round.sources = s.round.sources := by
  unfold State.ucLandMode
  dsimp only
  (repeat' split) <;> simp

@[simp] theorem State.landUcMode_sources (s : State) (n : Nat) (old : Word) (new : Word) : (s.landUcMode n old new).round.sources = s.round.sources := by
  simp [State.landUcMode]

@[simp] theorem State.startScan_sources (s : State) (n : Nat) : (s.startScan n).round.sources = s.round.sources := by simp [State.startScan]
@[simp] theorem State.landUc_sources (s : State) (n : Nat) (k : Nat) (w : Word) : (s.landUc n k w).round.sources = s.round.sources := by simp [State.landUc]
@[simp] theorem State.setSlot_sources (s : State) (i : Nat) (x : Slot) : (s.setSlot i x).round.sources = s.round.sources := rfl
@[simp] theorem State.notify_sources (s : State) (n : Nat) (x : Source) (k : Nat) : (s.notify n x k).round.sources = s.round.sources := by simp [State.notify]
@[simp] theorem State.setGroup_sources (s : State) (i : Nat) (x : Group) : (s.setGroup i x).round.sources = s.round.sources := rfl
@[simp] theorem State.modGroup_sources (s : State) (i : Nat) (f : Group → Group) : (s.modGroup i f).round.sources = s.round.sources := rfl
@[simp] theorem State.clearWireBreak_sources (s : State) (n : Nat) : (s.clearWireBreak n).round.sources = s.round.sources := by simp [State.clearWireBreak]
@[simp] theorem State.landWire_sources (s : State) (n : Nat) (new : Word) : (s.landWire n new).round.sources = s.round.sources := by simp [State.landWire]

@[simp] theorem State.restartFilter_sources (s : State) (n : Nat) (old : Word) (new : Word) : (s.restartFilter n old new).round.sources = s.round.sources := by
  simp [State.restartFilter]

@[simp] theorem State.raiseDo_sources (s : State) (r : RecKind) (kind : Nat) (n : Nat) : (s.raiseDo r kind n).round.sources = s.round.sources := by
  simp [State.raiseDo]

@[simp] theorem State.clearOpenLoad_sources (s : State) (n : Nat) : (s.clearOpenLoad n).round.sources = s.round.sources := by simp [State.clearOpenLoad]

@[simp] theorem State.ptpWritten_sources (s : State) (old : Word) (new : Word) : (s.ptpWritten old new).round.sources = s.round.sources := by
  simp [State.ptpWritten]

@[simp] theorem State.queueClose_sources (s : State) (t : Nat) (who : Option Ctx) (close : Bool) (config : List (Nat × Word)) (boundary : Option (BitVec 32)) :
    (s.queueClose t who close config boundary).round.sources = s.round.sources :=
  rfl

@[simp] theorem State.deferUc_sources (s : State) (n : Nat) (k : Nat) (w : Word) : (s.deferUc n k w).round.sources = s.round.sources := rfl
@[simp] theorem State.tellPartner_sources (s : State) (c : Change) (at_ : BitVec 32) : (s.tellPartner c at_).round.sources = s.round.sources := rfl
@[simp] theorem State.queueChange_sources (s : State) (c : Change) : (s.queueChange c).round.sources = s.round.sources := rfl
@[simp] theorem State.tellStandby_sources (s : State) (c : Change) : (s.tellStandby c).round.sources = s.round.sources := by simp [State.tellStandby]
@[simp] theorem State.onWire_sources (s : State) (port : Port) (p : Packet) : (s.onWire port p).round.sources = s.round.sources := rfl
@[simp] theorem State.send_sources (s : State) (p : Packet) : (s.send p).round.sources = s.round.sources := by unfold State.send; split <;> simp
@[simp] theorem State.replyNow_sources (s : State) (c : Ctx) : (s.replyNow c).round.sources = s.round.sources := by simp [State.replyNow]
@[simp] theorem State.planHandover_sources (s : State) (n : Nat) : (s.planHandover n).round.sources = s.round.sources := rfl

@[simp] theorem State.forwardEnumerate_sources (s : State) (p : Packet) : (s.forwardEnumerate p).round.sources = s.round.sources := by
  unfold State.forwardEnumerate
  split <;> simp

@[simp] theorem State.announce_sources (s : State) : (s.announce).round.sources = s.round.sources := by simp [State.announce]
@[simp] theorem State.enumerated_sources (s : State) (a : BitVec 10) : (s.enumerated a).round.sources = s.round.sources := by simp [State.enumerated]
@[simp] theorem runEnumerate_sources (p : Packet) (s : State) : (runEnumerate p s).round.sources = s.round.sources := by simp [runEnumerate]

@[simp] theorem runConfirmAddress_sources (c : Ctx) (a1 : List Byte) (s : State) : (runConfirmAddress c a1 s).round.sources = s.round.sources := by
  simp [runConfirmAddress]

@[simp] theorem State.forwardOr_sources (s : State) (c : Ctx) (chg : Change) (now done : State → State)
    (h : ∀ t, (now t).round.sources = t.round.sources) (k : ∀ t, (done t).round.sources = t.round.sources) :
    (s.forwardOr c chg now done).round.sources = s.round.sources := by
  unfold State.forwardOr; simp [h, k]

@[simp] theorem State.openLoad_sources (s : State) (b : Bool) (words : Nat) (crc : Word) : (s.openLoad b words crc).round.sources = s.round.sources := by
  unfold State.openLoad
  split <;> simp

@[simp] theorem runProgramBegin_sources (c : Ctx) (b : List Byte) (s : State) : (runProgramBegin c b s).round.sources = s.round.sources := by
  simp [runProgramBegin]

@[simp] theorem State.loadWords_sources (s : State) (b : Bool) (at_ : Nat) (l : List Word) : (s.loadWords b at_ l).round.sources = s.round.sources := by
  simp [State.loadWords]

@[simp] theorem runProgramData_sources (c : Ctx) (b : List Byte) (s : State) : (runProgramData c b s).round.sources = s.round.sources := by
  unfold runProgramData
  split <;> simp

@[simp] theorem State.dropLoad_sources (s : State) (b : Bool) : (s.dropLoad b).round.sources = s.round.sources := by simp [State.dropLoad]
@[simp] theorem State.putConsts_sources (s : State) (b : Nat) (l : List Word) : (s.putConsts b l).round.sources = s.round.sources := by simp [State.putConsts]

@[simp] theorem State.finishLoad_sources (s : State) (b partner : Bool) : (s.finishLoad b partner).1.round.sources = s.round.sources := by
  unfold State.finishLoad; dsimp only; (repeat' split) <;> simp

@[simp] theorem State.endLoad_sources (s : State) (k : Bool) (c : Option Ctx) : (s.endLoad k c).round.sources = s.round.sources := by
  unfold State.endLoad; dsimp only; split
  · simp
  · cases c <;> simp

@[simp] theorem runProgramEnd_sources (c : Ctx) (a1 : List Byte) (s : State) : (runProgramEnd c a1 s).round.sources = s.round.sources := by
  unfold runProgramEnd
  split <;> simp

@[simp] theorem runProgramSwitch_sources (c : Ctx) (b : List Byte) (s : State) : (runProgramSwitch c b s).round.sources = s.round.sources := by
  simp [runProgramSwitch]

@[simp] theorem runRunStop_sources (c : Ctx) (b : List Byte) (s : State) : (runRunStop c b s).round.sources = s.round.sources := by simp [runRunStop]
@[simp] theorem State.postLanding_sources (s : State) (x : Landing) : (s.postLanding x).round.sources = s.round.sources := rfl

@[simp] theorem State.postForce_sources (s : State) (c : Ctx) (k : LandKind) (chg : Change) : (s.postForce c k chg).round.sources = s.round.sources := by
  simp [State.postForce]

@[simp] theorem runForceSet_sources (c : Ctx) (b : List Byte) (s : State) : (runForceSet c b s).round.sources = s.round.sources := by
  unfold runForceSet
  (repeat' split) <;> simp

@[simp] theorem runForceRelease_sources (c : Ctx) (b : List Byte) (s : State) : (runForceRelease c b s).round.sources = s.round.sources := by
  unfold runForceRelease
  (repeat' split) <;> simp

@[simp] theorem runCycleStats_sources (c : Ctx) (a1 : List Byte) (s : State) : (runCycleStats c a1 s).round.sources = s.round.sources := by simp [runCycleStats]

@[simp] theorem State.restoreTotal_sources (s : State) (t : Nat) : (s.restoreTotal t).round.sources = s.round.sources := by
  unfold State.restoreTotal
  split <;> simp

@[simp] theorem State.deliverItems_sources (s : State) (l : List (Area × Bool × Nat)) (bad : List Nat) :
    (s.deliverItems l bad).1.round.sources = s.round.sources := by
  unfold State.deliverItems; simp

@[simp] theorem readVarsFrom_sources (marks : List Nat) (c : Ctx) (b : List Byte) (s : State) : (readVarsFrom marks c b s).round.sources = s.round.sources := by
  unfold readVarsFrom
  split <;> simp

@[simp] theorem runReadVars_sources (a0 : Ctx) (a1 : List Byte) (a2 : State) : (runReadVars a0 a1 a2).round.sources = a2.round.sources := by simp [runReadVars]

@[simp] theorem runWriteVars_sources (c : Ctx) (b : List Byte) (s : State) : (runWriteVars c b s).round.sources = s.round.sources := by
  unfold runWriteVars
  split <;> simp

@[simp] theorem State.setSub_sources (s : State) (k : Nat) (x : Option Subscription) : (s.setSub k x).round.sources = s.round.sources := rfl

@[simp] theorem runSubscribe_sources (c : Ctx) (b : List Byte) (s : State) : (runSubscribe c b s).round.sources = s.round.sources := by
  unfold runSubscribe
  dsimp only
  (repeat' split) <;> simp

@[simp] theorem runUnsubscribe_sources (c : Ctx) (b : List Byte) (s : State) : (runUnsubscribe c b s).round.sources = s.round.sources := by
  simp [runUnsubscribe]

@[simp] theorem runEventSubscribe_sources (c : Ctx) (b : List Byte) (s : State) : (runEventSubscribe c b s).round.sources = s.round.sources := by
  simp [runEventSubscribe]

@[simp] theorem runLoopEnable_sources (c : Ctx) (b : List Byte) (s : State) : (runLoopEnable c b s).round.sources = s.round.sources := by simp [runLoopEnable]

@[simp] theorem runLoopDisable_sources (c : Ctx) (b : List Byte) (s : State) : (runLoopDisable c b s).round.sources = s.round.sources := by
  simp [runLoopDisable]

@[simp] theorem State.queueLoop_sources (s : State) (c : Ctx) (n : Nat) (q : LoopChange) (tell : BitVec 32 → Change) :
    (s.queueLoop c n q tell).round.sources = s.round.sources := by
  simp [State.queueLoop]

@[simp] theorem runLoopWriteCoeff_sources (c : Ctx) (b : List Byte) (s : State) : (runLoopWriteCoeff c b s).round.sources = s.round.sources := by
  simp [runLoopWriteCoeff]

@[simp] theorem State.cleanLoopRam_sources (s : State) (n : Nat) (k : Nat) (count : Nat) : (s.cleanLoopRam n k count).round.sources = s.round.sources := by
  simp [State.cleanLoopRam]

@[simp] theorem State.putStaged_sources (s : State) (n : Nat) (l : List (List Word)) : (s.putStaged n l).round.sources = s.round.sources := by
  simp [State.putStaged]

@[simp] theorem runLoopStage_sources (c : Ctx) (b : List Byte) (s : State) : (runLoopStage c b s).round.sources = s.round.sources := by simp [runLoopStage]

@[simp] theorem loopCommitFrom_sources (marks : List Nat) (c : Ctx) (b : List Byte) (s : State) :
    (loopCommitFrom marks c b s).round.sources = s.round.sources := by
  simp [loopCommitFrom]

@[simp] theorem runLoopCommit_sources (a0 : Ctx) (a1 : List Byte) (a2 : State) : (runLoopCommit a0 a1 a2).round.sources = a2.round.sources := by
  simp [runLoopCommit]

@[simp] theorem State.gateWords_sources (s : State) (c : Ctx) (b : List Byte) (l : List (Area × Nat)) (marks : List Nat)
    (k : List (Word × Bool) → State → State) (h : ∀ l t, (k l t).round.sources = t.round.sources) :
    (s.gateWords c b l marks k).round.sources = s.round.sources := by
  unfold State.gateWords; simp [h]

@[simp] theorem loopReadFrom_sources (marks : List Nat) (c : Ctx) (b : List Byte) (s : State) : (loopReadFrom marks c b s).round.sources = s.round.sources := by
  simp [loopReadFrom]

@[simp] theorem runLoopRead_sources (a0 : Ctx) (a1 : List Byte) (a2 : State) : (runLoopRead a0 a1 a2).round.sources = a2.round.sources := by simp [runLoopRead]

@[simp] theorem channelStatusFrom_sources (marks : List Nat) (c : Ctx) (b : List Byte) (s : State) :
    (channelStatusFrom marks c b s).round.sources = s.round.sources := by
  unfold channelStatusFrom
  split <;> simp

@[simp] theorem runChannelStatus_sources (a0 : Ctx) (a1 : List Byte) (a2 : State) : (runChannelStatus a0 a1 a2).round.sources = a2.round.sources := by
  simp [runChannelStatus]

@[simp] theorem State.acknowledge_sources (s : State) (g : Nat) (mask : Nat) : (s.acknowledge g mask).round.sources = s.round.sources := by
  simp [State.acknowledge]

@[simp] theorem runOutputAck_sources (c : Ctx) (b : List Byte) (s : State) : (runOutputAck c b s).round.sources = s.round.sources := by simp [runOutputAck]

@[simp] theorem runHartTransact_sources (c : Ctx) (b : List Byte) (s : State) : (runHartTransact c b s).round.sources = s.round.sources := by
  unfold runHartTransact
  dsimp only
  (repeat' split) <;> simp

@[simp] theorem runHartBurstRead_sources (c : Ctx) (b : List Byte) (s : State) : (runHartBurstRead c b s).round.sources = s.round.sources := by
  unfold runHartBurstRead
  dsimp only
  (repeat' split) <;> simp

@[simp] theorem State.canShutDown_sources (s : State) (p : Nat) : (s.canShutDown p).round.sources = s.round.sources := by simp [State.canShutDown]

@[simp] theorem State.canEnable_sources (s : State) (p : Nat) (on : Bool) : (s.canEnable p on).1.round.sources = s.round.sources := by
  unfold State.canEnable; dsimp only; (repeat' split) <;> simp

@[simp] theorem runCanEnable_sources (c : Ctx) (b : List Byte) (s : State) : (runCanEnable c b s).round.sources = s.round.sources := by
  unfold runCanEnable; dsimp only; (repeat' split) <;> simp

@[simp] theorem runCanRecover_sources (c : Ctx) (b : List Byte) (s : State) : (runCanRecover c b s).round.sources = s.round.sources := by
  unfold runCanRecover
  dsimp only
  (repeat' split) <;> simp

@[simp] theorem runCanSend_sources (c : Ctx) (b : List Byte) (s : State) : (runCanSend c b s).round.sources = s.round.sources := by simp [runCanSend]

@[simp] theorem runCanCounters_sources (c : Ctx) (b : List Byte) (s : State) : (runCanCounters c b s).round.sources = s.round.sources := by
  simp [runCanCounters]

@[simp] theorem stationStatusFrom_sources (marks : List Nat) (c : Ctx) (b : List Byte) (s : State) :
    (stationStatusFrom marks c b s).round.sources = s.round.sources := by
  simp [stationStatusFrom]

@[simp] theorem runStationStatus_sources (a0 : Ctx) (a1 : List Byte) (a2 : State) : (runStationStatus a0 a1 a2).round.sources = a2.round.sources := by
  simp [runStationStatus]

@[simp] theorem runPairStatus_sources (c : Ctx) (a1 : List Byte) (s : State) : (runPairStatus c a1 s).round.sources = s.round.sources := by simp [runPairStatus]

@[simp] theorem State.openRehearsal_sources (s : State) (h : BitVec 32) (dwell : Nat) (back : Bool) :
    (s.openRehearsal h dwell back).round.sources = s.round.sources :=
  rfl

@[simp] theorem runRehearse_sources (c : Ctx) (b : List Byte) (s : State) : (runRehearse c b s).round.sources = s.round.sources := by simp [runRehearse]
@[simp] theorem State.endRehearsal_sources (s : State) : (s.endRehearsal).round.sources = s.round.sources := by unfold State.endRehearsal; split <;> simp
@[simp] theorem State.startSync_sources (s : State) : (s.startSync).round.sources = s.round.sources := by simp [State.startSync]
@[simp] theorem State.followActive_sources (s : State) : (s.followActive).round.sources = s.round.sources := by unfold State.followActive; split <;> simp

@[simp] theorem runResync_sources (c : Ctx) (a1 : List Byte) (s : State) : (runResync c a1 s).round.sources = s.round.sources := by
  unfold runResync
  split <;> simp

@[simp] theorem State.poisonRecord_sources (s : State) (n : Nat) (w : Nat) : (s.poisonRecord n w).round.sources = s.round.sources := rfl

theorem gateRead_replyData_sources (s : State) (c : Ctx) (b : List Byte) (l marks : List Nat) (h : List Byte) (m k : Nat) (f : BitVec 32) :
    (s.gateRead c b 7 l marks fun bad t => t.replyData c h ((t.markRecords bad).entries m k f)).round.sources = s.round.sources :=
  State.gateRead_sources _ _ _ _ _ _ _ fun _ _ => State.replyData_sources _ _ _ _

@[simp] theorem recQueryFrom_sources (marks : List Nat) (c : Ctx) (b : List Byte) (s : State) :
    (recQueryFrom marks c b s).round.sources = s.round.sources := by
  unfold recQueryFrom; dsimp only
  split
  · exact State.refuse_sources _ _ _
  · exact gateRead_replyData_sources _ _ _ _ _ _ _ _ _

@[simp] theorem runRecQuery_sources (a0 : Ctx) (a1 : List Byte) (a2 : State) : (runRecQuery a0 a1 a2).round.sources = a2.round.sources := by simp [runRecQuery]
@[simp] theorem runRecUpload_sources (c : Ctx) (b : List Byte) (s : State) : (runRecUpload c b s).round.sources = s.round.sources := by simp [runRecUpload]

@[simp] theorem runRecCounters_sources (c : Ctx) (a1 : List Byte) (s : State) : (runRecCounters c a1 s).round.sources = s.round.sources := by
  simp [runRecCounters]

@[simp] theorem runRecNote_sources (c : Ctx) (b : List Byte) (s : State) : (runRecNote c b s).round.sources = s.round.sources := by simp [runRecNote]
@[simp] theorem runPanelFrame_sources (c : Ctx) (b : List Byte) (s : State) : (runPanelFrame c b s).round.sources = s.round.sources := by simp [runPanelFrame]
@[simp] theorem runPanelShow_sources (c : Ctx) (b : List Byte) (s : State) : (runPanelShow c b s).round.sources = s.round.sources := by simp [runPanelShow]
@[simp] theorem State.plateStart_sources (s : State) (c : Option Ctx) : (s.plateStart c).round.sources = s.round.sources := rfl

@[simp] theorem runPlateUpdate_sources (c : Ctx) (b : List Byte) (s : State) : (runPlateUpdate c b s).round.sources = s.round.sources := by
  simp [runPlateUpdate]

@[simp] theorem runPanelPower_sources (c : Ctx) (b : List Byte) (s : State) : (runPanelPower c b s).round.sources = s.round.sources := by
  unfold runPanelPower
  dsimp only
  (repeat' split) <;> simp

@[simp] theorem runMemStatus_sources (c : Ctx) (b : List Byte) (s : State) : (runMemStatus c b s).round.sources = s.round.sources := by simp [runMemStatus]
@[simp] theorem runScrubNow_sources (c : Ctx) (b : List Byte) (s : State) : (runScrubNow c b s).round.sources = s.round.sources := by simp [runScrubNow]
@[simp] theorem runRemapRead_sources (c : Ctx) (b : List Byte) (s : State) : (runRemapRead c b s).round.sources = s.round.sources := by simp [runRemapRead]

@[simp] theorem runPowerStatus_sources (c : Ctx) (a1 : List Byte) (s : State) : (runPowerStatus c a1 s).round.sources = s.round.sources := by
  simp [runPowerStatus]

@[simp] theorem runThermalStatus_sources (c : Ctx) (a1 : List Byte) (s : State) : (runThermalStatus c a1 s).round.sources = s.round.sources := by
  simp [runThermalStatus]

@[simp] theorem runFireStatus_sources (c : Ctx) (a1 : List Byte) (s : State) : (runFireStatus c a1 s).round.sources = s.round.sources := by simp [runFireStatus]
@[simp] theorem State.setFireFn_sources (s : State) (i : Nat) (x : FireFn) : (s.setFireFn i x).round.sources = s.round.sources := rfl
@[simp] theorem State.plateLinked_sources (s : State) (f : Nat) : (s.plateLinked f).round.sources = s.round.sources := by simp [State.plateLinked]
@[simp] theorem State.clearFn_sources (s : State) (f : Nat) : (s.clearFn f).round.sources = s.round.sources := by simp [State.clearFn]
@[simp] theorem State.modFireFn_sources (s : State) (i : Nat) (f : FireFn → FireFn) : (s.modFireFn i f).round.sources = s.round.sources := rfl

@[simp] theorem State.resetFns_sources (s : State) (l : List Nat) (byInput : Bool) : (s.resetFns l byInput).1.round.sources = s.round.sources := by
  unfold State.resetFns; dsimp only
  rw [State.each_sources, State.each_sources]
  · simp
  · simp
  · intros; rfl

@[simp] theorem runFireReset_sources (c : Ctx) (b : List Byte) (s : State) : (runFireReset c b s).round.sources = s.round.sources := by
  unfold runFireReset; simp

@[simp] theorem runFireLoad_sources (c : Ctx) (b : List Byte) (s : State) : (runFireLoad c b s).round.sources = s.round.sources := by
  rw [runFireLoad_eq]; split
  · simp
  · simp [State.answerStaged, State.stage, State.disarm]

@[simp] theorem runFireArm_sources (c : Ctx) (b : List Byte) (s : State) : (runFireArm c b s).round.sources = s.round.sources := by simp [runFireArm]
@[simp] theorem State.holdFire_sources (s : State) (l : List Word) : (s.holdFire l).round.sources = s.round.sources := rfl
@[simp] theorem State.bringFire_sources (s : State) (l : List Word) : (s.bringFire l).round.sources = s.round.sources := by simp [State.bringFire]

@[simp] theorem runFireConfirm_sources (c : Ctx) (b : List Byte) (s : State) : (runFireConfirm c b s).round.sources = s.round.sources := by
  unfold runFireConfirm
  split <;> simp

@[simp] theorem totalReadFrom_sources (marks : List Nat) (c : Ctx) (b : List Byte) (s : State) :
    (totalReadFrom marks c b s).round.sources = s.round.sources := by
  simp [totalReadFrom]

@[simp] theorem runTotalRead_sources (a0 : Ctx) (a1 : List Byte) (a2 : State) : (runTotalRead a0 a1 a2).round.sources = a2.round.sources := by
  simp [runTotalRead]

@[simp] theorem runTotalClose_sources (c : Ctx) (b : List Byte) (s : State) : (runTotalClose c b s).round.sources = s.round.sources := by simp [runTotalClose]
@[simp] theorem State.clearReplay_sources (s : State) (slot : Nat) : (s.clearReplay slot).round.sources = s.round.sources := rfl
@[simp] theorem State.setKey_sources (s : State) (i : Nat) (x : KeySlot) : (s.setKey i x).round.sources = s.round.sources := rfl
@[simp] theorem runKeyInstall_sources (c : Ctx) (b : List Byte) (s : State) : (runKeyInstall c b s).round.sources = s.round.sources := by simp [runKeyInstall]
@[simp] theorem runKeyRevoke_sources (c : Ctx) (b : List Byte) (s : State) : (runKeyRevoke c b s).round.sources = s.round.sources := by simp [runKeyRevoke]
@[simp] theorem runKeyStatus_sources (c : Ctx) (a1 : List Byte) (s : State) : (runKeyStatus c a1 s).round.sources = s.round.sources := by simp [runKeyStatus]
@[simp] theorem runFwBegin_sources (c : Ctx) (b : List Byte) (s : State) : (runFwBegin c b s).round.sources = s.round.sources := by simp [runFwBegin]

@[simp] theorem runFwData_sources (c : Ctx) (b : List Byte) (s : State) : (runFwData c b s).round.sources = s.round.sources := by
  unfold runFwData
  split <;> simp

@[simp] theorem runFwActivate_sources (c : Ctx) (a1 : List Byte) (s : State) : (runFwActivate c a1 s).round.sources = s.round.sources := by
  unfold runFwActivate
  split <;> simp

@[simp] theorem State.setEngine_sources (s : State) (i : Nat) (x : Engine) : (s.setEngine i x).round.sources = s.round.sources := rfl
@[simp] theorem State.modEngine_sources (s : State) (i : Nat) (f : Engine → Engine) : (s.modEngine i f).round.sources = s.round.sources := rfl

@[simp] theorem State.holdNext_sources (s : State) (sender : Nat) (receiver : Nat) : (s.holdNext sender receiver).round.sources = s.round.sources := by
  unfold State.holdNext
  dsimp only
  (repeat' split) <;> simp

@[simp] theorem State.islandFault_sources (s : State) (id : Nat) (discrepancy : ℤ) (n : Nat) :
    (s.islandFault id discrepancy n).round.sources = s.round.sources := by
  simp [State.islandFault]

@[simp] theorem State.crossingFault_sources (s : State) (f : CrossingFault) : (s.crossingFault f).round.sources = s.round.sources := by
  simp [State.crossingFault]

@[simp] theorem State.windowFault_sources (s : State) (o : BitVec 16) : (s.windowFault o).round.sources = s.round.sources := by simp [State.windowFault]

@[simp] theorem State.canIslandBack_sources (s : State) (p : Nat) : (s.canIslandBack p).round.sources = s.round.sources := by
  unfold State.canIslandBack
  dsimp only
  (repeat' split) <;> simp

@[simp] theorem State.refBack_sources (s : State) : s.refBack.round.sources = s.round.sources := by
  unfold State.refBack; split
  · rfl
  · rw [State.foldl_sources]; intros; rfl

@[simp] theorem State.landFire_sources (s : State) : (s.landFire).round.sources = s.round.sources := by simp [State.landFire]

theorem State.switchHeld_sources {s t : State} {c : BitVec 32} (h : s.switchHeld c = some t) : t.round.sources = s.round.sources := by
  unfold State.switchHeld at h
  dsimp only at h
  split at h
  · cases h
  · split at h
    · cases h; simp
    · split at h <;> cases h; rfl

@[simp] theorem State.moveSpans_sources (s : State) (m0 : Nat) (m1 : Nat) : (s.moveSpans m0 m1).round.sources = s.round.sources := by simp [State.moveSpans]
@[simp] theorem State.writeWords_sources (s : State) (a : Nat) (l : List Nat) : (s.writeWords a l).round.sources = s.round.sources := by simp [State.writeWords]

@[simp] theorem State.putWorkBit_sources (s : State) (a : Area) (w : Nat) (b : Nat) (v : Bool) (p : Bool) :
    (s.putWorkBit a w b v p).round.sources = s.round.sources := by
  unfold State.putWorkBit
  split <;> simp

@[simp] theorem State.putBothBit_sources (s : State) (a : Area) (w : Nat) (b : Nat) (v : Bool) (p : Bool) :
    (s.putBothBit a w b v p).round.sources = s.round.sources := by
  unfold State.putBothBit
  dsimp only
  (repeat' split) <;> simp

@[simp] theorem State.putWork_sources (s : State) (a : Area) (w : Nat) (x : Word) (p : Bool) : (s.putWork a w x p).round.sources = s.round.sources := by
  unfold State.putWork
  split <;> simp

@[simp] theorem State.putBoth_sources (s : State) (a : Area) (w : Nat) (x : Word) (p : Bool) : (s.putBoth a w x p).round.sources = s.round.sources := by
  unfold State.putBoth
  dsimp only
  (repeat' split) <;> simp

@[simp] theorem State.putItem_sources (s : State) (y : Symbol) (k : Nat) (v : Word × Bool) : (s.putItem y k v).round.sources = s.round.sources := by
  simp [State.putItem]

@[simp] theorem State.carryVar_sources (old : State) (d : ImageDesc) (s : State) (y : Symbol) :
    (State.carryVar old d s y).round.sources = s.round.sources := by
  unfold State.carryVar; split
  · rfl
  · simp

@[simp] theorem State.keepUnits_sources (s : State) : (s.keepUnits).round.sources = s.round.sources := rfl
@[simp] theorem State.carryUnits_sources (s : State) (k0 : Bank) (k1 : Bank) : (s.carryUnits k0 k1).round.sources = s.round.sources := rfl
@[simp] theorem State.forceCopies_sources (s : State) : (s.forceCopies).round.sources = s.round.sources := by simp [State.forceCopies]
@[simp] theorem State.putForces_sources (s : State) (l : List Force) : (s.putForces l).round.sources = s.round.sources := rfl

@[simp] theorem State.carryForces_sources (s : State) (d0 : ImageDesc) (d1 : ImageDesc) : (s.carryForces d0 d1).round.sources = s.round.sources := by
  simp [State.carryForces]

@[simp] theorem State.carryOver_sources (s : State) (n : Nat) : (s.carryOver n).round.sources = s.round.sources := by
  unfold State.carryOver; simp

@[simp] theorem State.loseSync_sources (s : State) (reason : Nat) : (s.loseSync reason).round.sources = s.round.sources := by simp [State.loseSync]
@[simp] theorem State.missSwitch_sources (s : State) : (s.missSwitch).round.sources = s.round.sources := by simp [State.missSwitch]

@[simp] theorem State.landSwitch_sources (s : State) (c : BitVec 32) : (s.landSwitch c).round.sources = s.round.sources := by
  unfold State.landSwitch
  split <;> simp

@[simp] theorem State.loopForwarded_sources (s : State) (n : Nat) (q : LoopChange) : (s.loopForwarded n q).round.sources = s.round.sources := rfl
@[simp] theorem State.setMode_sources (s : State) (run : Bool) : (s.setMode run).round.sources = s.round.sources := by simp [State.setMode]
@[simp] theorem State.startFrame_sources (s : State) (p : Nat) (j : TxJob) (f : CanFrame) : (s.startFrame p j f).round.sources = s.round.sources := rfl

@[simp] theorem State.newInputs_sources (s : State) (p kind : Nat) : (s.newInputs p kind).round.sources = s.round.sources := by
  unfold State.newInputs; split
  · rw [State.each_sources]; intros; simp
  · rfl

@[simp] theorem State.sendRef_sources (s : State) (p : Nat) (kind : Nat) : (s.sendRef p kind).round.sources = s.round.sources := by simp [State.sendRef]
@[simp] theorem State.canCycleStart_sources (s : State) : (s.canCycleStart).round.sources = s.round.sources := by simp [State.canCycleStart]

theorem State.writeWaits_sources {s t : State} {a lo n : Nat} (h : s.writeWaits a lo n = some t) : t.round.sources = s.round.sources := by
  unfold State.writeWaits at h
  split at h
  · cases h; rfl
  · obtain ⟨b, -, rfl⟩ := Option.map_eq_some_iff.mp h; simp

theorem State.freezeHeld_sources {s t : State} (h : s.freezeHeld = some t) : t.round.sources = s.round.sources := by
  obtain ⟨r, -, hr⟩ := List.exists_of_findSome?_eq_some h
  exact State.writeWaits_sources hr

@[simp] theorem State.setTimer_sources (s : State) (i : Nat) (x : Timer) : (s.setTimer i x).round.sources = s.round.sources := rfl

@[simp] theorem State.applyLedgerTotal_sources (s : State) (c : BitVec 32) (t : Nat) (e : LedgerTotal) :
    (s.applyLedgerTotal c t e).round.sources = s.round.sources := by
  unfold State.applyLedgerTotal
  dsimp only
  (repeat' split) <;> simp

@[simp] theorem State.hearSwitch_sources (s : State) (c : BitVec 32) : (s.hearSwitch c).round.sources = s.round.sources := by simp [State.hearSwitch]

@[simp] theorem State.takeLedger_sources (s : State) (f : Nat) (l : Ledger) : (s.takeLedger f l).round.sources = s.round.sources := by
  unfold State.takeLedger; simp only []
  split <;> split <;> simp -implicitDefEqProofs

@[simp] theorem State.applyLedger_sources (s : State) (f : Nat) (c : BitVec 32) : (s.applyLedger f c).round.sources = s.round.sources := by
  simp [State.applyLedger]

@[simp] theorem State.judgeLedgers_sources (s : State) (c : BitVec 32) : (s.judgeLedgers c).round.sources = s.round.sources := by simp [State.judgeLedgers]

@[simp] theorem State.ledgerFreeze_sources (s : State) (before : Nat) (c : BitVec 32) : (s.ledgerFreeze before c).round.sources = s.round.sources := by
  simp [State.ledgerFreeze]

@[simp] theorem State.startBlock_sources (s : State) (e : Nat) (b : Block) (serving : List Nat) :
    (s.startBlock e b serving).round.sources = s.round.sources :=
  rfl

@[simp] theorem State.nextBlock_sources (s : State) (e : Nat) : (s.nextBlock e).round.sources = s.round.sources := by
  unfold State.nextBlock
  dsimp only
  (repeat' split) <;> simp

@[simp] theorem State.point_sources (s : State) (e : Nat) : (s.point e).round.sources = s.round.sources := rfl
@[simp] theorem State.beginExecute_sources (s : State) (e : Nat) : (s.beginExecute e).round.sources = s.round.sources := by simp [State.beginExecute]
@[simp] theorem State.freezeContexts_sources (s : State) : (s.freezeContexts).round.sources = s.round.sources := rfl

@[simp] theorem State.reconcileTotal_sources (s : State) (m : BitVec 32) (t : Nat) : (s.reconcileTotal m t).round.sources = s.round.sources := by
  unfold State.reconcileTotal
  split <;> simp

@[simp] theorem State.reconcileTotals_sources (s : State) (m : BitVec 32) : (s.reconcileTotals m).round.sources = s.round.sources := by
  simp [State.reconcileTotals]

@[simp] theorem State.incomingFreeze_sources (s : State) (c : BitVec 32) : (s.incomingFreeze c).round.sources = s.round.sources := by
  simp [State.incomingFreeze]

@[simp] theorem State.totalsFreeze_sources (s : State) (f : Nat) (c : BitVec 32) : (s.totalsFreeze f c).round.sources = s.round.sources := by
  simp [State.totalsFreeze]

@[simp] theorem State.forceFrozen_sources (s : State) : (s.forceFrozen).round.sources = s.round.sources := by simp [State.forceFrozen]
@[simp] theorem State.statusFreeze_sources (s : State) : (s.statusFreeze).round.sources = s.round.sources := rfl

@[simp] theorem State.loopFreeze_sources (s : State) : s.loopFreeze.round.sources = s.round.sources := by
  unfold State.loopFreeze; split <;> rfl

@[simp] theorem State.stationFreeze_sources (s : State) (p : Nat) (x : Nat) (t : Nat) : (s.stationFreeze p x t).round.sources = s.round.sources := by
  simp [State.stationFreeze]

@[simp] theorem State.stationImage_sources (s : State) (p : Nat) (x : Nat) (t : Nat) : (s.stationImage p x t).round.sources = s.round.sources := by
  unfold State.stationImage
  split <;> simp

@[simp] theorem State.putRam_sources (s : State) (p : Nat) (at_ : Nat) (l : List Word) : (s.putRam p at_ l).round.sources = s.round.sources := by
  simp [State.putRam]

@[simp] theorem State.markRam_sources (s : State) (p : Nat) : (s.markRam p).round.sources = s.round.sources := by simp [State.markRam]

@[simp] theorem State.ramFreeze_sources (s : State) (p : Nat) (t : Nat) : (s.ramFreeze p t).round.sources = s.round.sources := by
  unfold State.ramFreeze
  dsimp only
  (repeat' split) <;> simp

@[simp] theorem State.canFreeze_sources (s : State) (t : Nat) : (s.canFreeze t).round.sources = s.round.sources := by
  unfold State.canFreeze
  rw [State.each_sources]
  intro s p
  dsimp only
  split
  · simp
  · split <;> simp

@[simp] theorem State.ucFreeze_sources (s : State) (n : Nat) (t : Nat) : (s.ucFreeze n t).round.sources = s.round.sources := by simp [State.ucFreeze]
@[simp] theorem State.staleFreeze_sources (s : State) (f : Nat) : (s.staleFreeze f).round.sources = s.round.sources := by simp [State.staleFreeze]
@[simp] theorem State.latched_sources (s : State) (f : Nat) : (s.latched f).round.sources = s.round.sources := rfl
@[simp] theorem State.trimPast_sources (s : State) (f : Nat) : (s.trimPast f).round.sources = s.round.sources := rfl

@[simp] theorem State.inputFreeze_sources (s : State) (f : Nat) (c : BitVec 32) : (s.inputFreeze f c).round.sources = s.round.sources := by
  unfold State.inputFreeze
  dsimp only
  (repeat' split) <;> simp

@[simp] theorem State.markSlots_sources (s : State) : (s.markSlots).round.sources = s.round.sources := rfl
@[simp] theorem State.resumeTimers_sources (s : State) (f : Nat) : (s.resumeTimers f).round.sources = s.round.sources := rfl

@[simp] theorem State.timerSlots_sources (s : State) (before : Nat) (f : Nat) : (s.timerSlots before f).round.sources = s.round.sources := by
  simp [State.timerSlots]

@[simp] theorem State.capture_sources (s : State) (before f : Nat) (c : BitVec 32) : (s.capture before f c).round.sources = s.round.sources := by
  unfold State.capture; simp only []
  rw [State.ite_sources]
  simp -implicitDefEqProofs

theorem State.commitHeld_sources {s t : State} (h : s.commitHeld = some t) : t.round.sources = s.round.sources := by
  unfold State.commitHeld at h
  simp only [Option.orElse_eq_orElse, Option.orElse_eq_or, Option.or_eq_some_iff] at h
  obtain h | ⟨-, h | ⟨-, h⟩⟩ := h
  · obtain ⟨r, -, hr⟩ := List.exists_of_findSome?_eq_some h
    exact State.writeWaits_sources hr
  · obtain ⟨r, -, hr⟩ := List.exists_of_findSome?_eq_some h
    split at hr
    · cases hr; rfl
    · exact State.writeWaits_sources hr
  · split at h
    · cases h
    · cases h; simp -implicitDefEqProofs

@[simp] theorem State.landOne_sources (s : State) (x : Landing) : (s.landOne x).1.round.sources = s.round.sources := by
  unfold State.landOne; split <;> simp

@[simp] theorem State.landAll_sources (s : State) (l : List Landing) : (s.landAll l).1.round.sources = s.round.sources := by
  induction l generalizing s with
  | nil => rfl
  | cons x l ih => simp [State.landAll, ih]

@[simp] theorem State.readTotals_sources (s : State) : (s.readTotals).round.sources = s.round.sources := by simp [State.readTotals]

@[simp] theorem State.copyCommitted_sources (s : State) (landed : List Nat) : (s.copyCommitted landed).round.sources = s.round.sources := by
  simp [State.copyCommitted]

@[simp] theorem State.forceWorking_sources (s : State) : (s.forceWorking).round.sources = s.round.sources := by simp [State.forceWorking]
@[simp] theorem State.landWord_sources (s : State) (w : LandWord) : (s.landWord w).round.sources = s.round.sources := by simp [State.landWord]

@[simp] theorem State.landWrites_sources (s : State) (l : List (Landing × Landed)) : (s.landWrites l).round.sources = s.round.sources := by
  induction l generalizing s with
  | nil => rfl
  | cons x l ih => simp [State.landWrites, ih]

@[simp] theorem State.landCommands_sources (s : State) : s.landCommands.1.round.sources = s.round.sources := by
  unfold State.landCommands; simp

@[simp] theorem State.landReplies_sources (s : State) (l : List (Landing × Landed)) : (s.landReplies l).round.sources = s.round.sources := by
  induction l generalizing s with
  | nil => rfl
  | cons x l ih => unfold State.landReplies; rw [ih]; (repeat' split) <;> simp

@[simp] theorem State.settleLandings_sources (s : State) : s.settleLandings.round.sources = s.round.sources := by
  unfold State.settleLandings; split <;> simp

@[simp] theorem State.putCoeffWord_sources (s : State) (n : Nat) (i : Nat) (c : Nat) (w : Word) (p : optParam Bool false) :
    (s.putCoeffWord n i c w p).round.sources = s.round.sources := by
  simp [State.putCoeffWord]

@[simp] theorem State.putSet_sources (s : State) (n : Nat) (l : List (List Word)) (bad : List Nat) : (s.putSet n l bad).round.sources = s.round.sources := by
  simp [State.putSet]

@[simp] theorem State.putCoeff_sources (s : State) (n : Nat) (i : Nat) (c : Nat) (v : Word) (sh : Nat) :
    (s.putCoeff n i c v sh).round.sources = s.round.sources := by
  simp [State.putCoeff]

@[simp] theorem State.loopLand_sources (s : State) (n : Nat) (k : BitVec 32) : (s.loopLand n k).round.sources = s.round.sources := by
  unfold State.loopLand
  dsimp only
  (repeat' split) <;> simp

@[simp] theorem State.settleLoop_sources (s : State) (n : Nat) : (s.settleLoop n).round.sources = s.round.sources := by simp [State.settleLoop]
@[simp] theorem State.showCycle_sources (s : State) (c : BitVec 32) : (s.showCycle c).round.sources = s.round.sources := rfl
@[simp] theorem State.holdMargin_sources (s : State) : (s.holdMargin).round.sources = s.round.sources := by simp [State.holdMargin]
@[simp] theorem State.sendLedger_sources (s : State) (c : BitVec 32) : (s.sendLedger c).round.sources = s.round.sources := by simp [State.sendLedger]
@[simp] theorem State.landClose_sources (s : State) (t : Nat) (c : BitVec 32) : (s.landClose t c).round.sources = s.round.sources := by simp [State.landClose]

@[simp] theorem State.commitTotal_sources (s : State) (c : BitVec 32) (t : Nat) : (s.commitTotal c t).round.sources = s.round.sources := by
  simp [State.commitTotal]

@[simp] theorem State.commitTotals_sources (s : State) (c : BitVec 32) : (s.commitTotals c).round.sources = s.round.sources := by simp [State.commitTotals]
@[simp] theorem State.rampDown_sources (s : State) (n : Nat) : (s.rampDown n).round.sources = s.round.sources := by simp [State.rampDown]

@[simp] theorem State.releaseHolds_sources (s : State) : s.releaseHolds.round.sources = s.round.sources := by
  unfold State.releaseHolds; simp -implicitDefEqProofs

@[simp] theorem State.rampUp_sources (s : State) (n : Nat) : (s.rampUp n).round.sources = s.round.sources := by simp [State.rampUp]
@[simp] theorem State.ucExcite_sources (s : State) (n : Nat) : (s.ucExcite n).round.sources = s.round.sources := by simp [State.ucExcite]
@[simp] theorem State.riseClaim_sources (s : State) : (s.riseClaim).round.sources = s.round.sources := by simp [State.riseClaim]
@[simp] theorem State.startScans_sources (s : State) : (s.startScans).round.sources = s.round.sources := by simp [State.startScans]
@[simp] theorem State.incomingApply_sources (s : State) (c : BitVec 32) : (s.incomingApply c).round.sources = s.round.sources := by simp [State.incomingApply]

@[simp] theorem State.canCommit_sources (s : State) (cy : BitVec 32) : (s.canCommit cy).round.sources = s.round.sources := by
  unfold State.canCommit
  rw [State.each_sources]
  intro s p
  simp -implicitDefEqProofs

@[simp] theorem State.panelCommit_sources (s : State) : (s.panelCommit).round.sources = s.round.sources := by simp [State.panelCommit]

@[simp] theorem State.subTake_sources (s : State) (marks : List Nat) (k : Nat) : (s.subTake marks k).round.sources = s.round.sources := by
  unfold State.subTake
  split <;> simp

@[simp] theorem State.dropTake_sources (s : State) (k : Nat) : (s.dropTake k).round.sources = s.round.sources := rfl

@[simp] theorem State.subCommit_sources (s : State) : (s.subCommit).round.sources = s.round.sources := by
  unfold State.subCommit
  refine State.each_sources _ _ _ fun s x => ?_
  (repeat' split) <;> simp

@[simp] theorem State.loopApply_sources (s : State) : (s.loopApply).round.sources = s.round.sources := rfl
@[simp] theorem State.fireApply_sources (s : State) : (s.fireApply).round.sources = s.round.sources := rfl
@[simp] theorem State.ucCalibrated_sources (s : State) (n : Nat) : (s.ucCalibrated n).round.sources = s.round.sources := by simp [State.ucCalibrated]
@[simp] theorem State.keepOutputs_sources (s : State) : (s.keepOutputs).round.sources = s.round.sources := rfl
@[simp] theorem State.applyChannels_sources (s : State) : (s.applyChannels).round.sources = s.round.sources := by simp [State.applyChannels]
@[simp] theorem State.applyOutputs_sources (s : State) : (s.applyOutputs).round.sources = s.round.sources := by simp [State.applyOutputs]

@[simp] theorem State.rehearseFault_sources (s : State) (item : Nat) (n : Nat) : (s.rehearseFault item n).round.sources = s.round.sources := by
  simp [State.rehearseFault]

@[simp] theorem State.rehearseCheck_sources (s : State) (k : Nat) : (s.rehearseCheck k).round.sources = s.round.sources := by
  unfold State.rehearseCheck
  (repeat' split) <;> simp

@[simp] theorem State.rehearseChecks_sources (s : State) (c : BitVec 32) : (s.rehearseChecks c).round.sources = s.round.sources := by
  unfold State.rehearseChecks
  split <;> simp

@[simp] theorem State.ownBase_sources (s : State) (c : BitVec 32) (t : Nat) : (s.ownBase c t).round.sources = s.round.sources := rfl
@[simp] theorem State.canToStandby_sources (s : State) : (s.canToStandby).round.sources = s.round.sources := by simp [State.canToStandby]

@[simp] theorem State.giveClaim_sources (s : State) (c : BitVec 32) : (s.giveClaim c).round.sources = s.round.sources := by
  unfold State.giveClaim; split
  · rfl
  · split
    · rfl
    · simp -implicitDefEqProofs

@[simp] theorem State.commitOwn_sources (s : State) (c : BitVec 32) : (s.commitOwn c).round.sources = s.round.sources := by simp [State.commitOwn]

@[simp] theorem State.compareFingerprint_sources (s : State) (l : Ledger) : (s.compareFingerprint l).round.sources = s.round.sources := by
  unfold State.compareFingerprint
  split <;> simp

@[simp] theorem State.keepFingerprint_sources (s : State) (c : BitVec 32) : (s.keepFingerprint c).round.sources = s.round.sources := by
  unfold State.keepFingerprint
  dsimp only
  (repeat' split) <;> simp

@[simp] theorem State.shadowClose_sources (s : State) (c : BitVec 32) (t : Nat) : (s.shadowClose c t).round.sources = s.round.sources := by
  simp [State.shadowClose]

@[simp] theorem State.shadowTotals_sources (s : State) (c : BitVec 32) : (s.shadowTotals c).round.sources = s.round.sources := by simp [State.shadowTotals]
@[simp] theorem State.commitShadow_sources (s : State) (c : BitVec 32) : (s.commitShadow c).round.sources = s.round.sources := by simp [State.commitShadow]

@[simp] theorem State.commitCycle_sources (s : State) : s.commitCycle.round.sources = s.round.sources := by
  unfold State.commitCycle; simp

@[simp] theorem State.programFault_sources (s : State) (e : Nat) (kind : Nat) (a : Nat) : (s.programFault e kind a).round.sources = s.round.sources := by
  simp [State.programFault]

@[simp] theorem State.waitPage_sources (s : State) (e : Nat) : (s.waitPage e).round.sources = s.round.sources := rfl

theorem State.holdIssue_sources {s t : State} {e n : Nat} {l : List Touch} (h : s.holdIssue e n l = some t) :
    t.round.sources = s.round.sources := by
  unfold State.holdIssue at h
  dsimp only at h
  split at h
  · cases h; simp
  · split at h
    · cases h; simp
    · obtain ⟨b, -, rfl⟩ := Option.map_eq_some_iff.mp h; simp

@[simp] theorem State.fetchIssue_sources (s : State) (e : Nat) (n : Nat) (l : List Touch) : (s.fetchIssue e n l).round.sources = s.round.sources := by
  simp [State.fetchIssue]

@[simp] theorem State.advance_sources (s : State) (e : Nat) (words : Nat) (clocks : Nat) : (s.advance e words clocks).round.sources = s.round.sources := rfl
@[simp] theorem State.settle_sources (s : State) (e : Nat) (a : Nat) : (s.settle e a).round.sources = s.round.sources := by simp [State.settle]

theorem State.takeBit_sources {s t : State} {e : Nat} {o : Operand} {v : Bool × Bool} (h : s.takeBit e o = some (t, v)) :
    t.round.sources = s.round.sources := by
  unfold State.takeBit at h
  obtain ⟨b, -, hb⟩ := Option.map_eq_some_iff.mp h
  split at hb <;> cases hb <;> simp

@[simp] theorem State.loadBit_sources (s : State) (e : Nat) (a : Area) (n : Nat) : (s.loadBit e a n).round.sources = s.round.sources := by simp [State.loadBit]

@[simp] theorem State.ownershipFault_sources (s : State) (e : Nat) (a : Area) (w : Nat) : (s.ownershipFault e a w).round.sources = s.round.sources := by
  simp [State.ownershipFault]

@[simp] theorem State.guardWrite_sources (s : State) (e : Nat) (a : Area) (w : Nat) (f : State → State)
    (h : (f s).round.sources = s.round.sources) : (s.guardWrite e a w f).round.sources = s.round.sources := by
  unfold State.guardWrite; simp [h]

theorem State.writeBit_sources {s t : State} {e : Nat} {o : Operand} {v p : Bool} (h : s.writeBit e o v p = some t) :
    t.round.sources = s.round.sources := by
  unfold State.writeBit at h
  dsimp only at h
  split at h <;> cases h
  simp

@[simp] theorem State.busy_sources (s : State) (e : Nat) (n : Nat) : (s.busy e n).round.sources = s.round.sources := rfl
@[simp] theorem State.posted_sources (s : State) (e : Nat) : (s.posted e).round.sources = s.round.sources := by simp [State.posted]

@[simp] theorem State.writeEdge_sources (s : State) (e : Nat) (n : Nat) (v : Bool) (p : Bool) : (s.writeEdge e n v p).round.sources = s.round.sources := by
  simp [State.writeEdge]

@[simp] theorem State.modTimer_sources (s : State) (i : Nat) (f : Timer → Timer) : (s.modTimer i f).round.sources = s.round.sources := rfl
@[simp] theorem State.setCounter_sources (s : State) (i : Nat) (x : Counter) : (s.setCounter i x).round.sources = s.round.sources := rfl
@[simp] theorem State.modCounter_sources (s : State) (i : Nat) (f : Counter → Counter) : (s.modCounter i f).round.sources = s.round.sources := rfl

theorem State.takeWordAt_sources {s : State} {e : Nat} {a : Area} {off : Nat} {v : Verdict} {x : State × Word × Bool}
    (h : s.takeWordAt e a off v = some x) : x.1.round.sources = s.round.sources := by
  unfold State.takeWordAt at h
  dsimp only at h
  split at h
  · cases h
  · split at h <;> cases h <;> simp

@[simp] theorem State.load_sources (s : State) (e : Nat) : (s.load e).round.sources = s.round.sources := rfl

theorem State.writeWord_sources {s t : State} {e : Nat} {a : Area} {off : Nat} {x : Word} {p : Bool} (h : s.writeWord e a off x p = some t) :
    t.round.sources = s.round.sources := by
  unfold State.writeWord at h
  split at h
  · cases h
  · split at h <;> split at h <;> cases h <;> exact State.guardWrite_sources _ _ _ _ _ (by simp)

theorem State.moveWords_sources {s : State} {e : Nat} {src dst : Operand} {n k : Nat} {held : Option (Word × Bool)}
    {r : State × Option (Nat × Option (Word × Bool))} (h : s.moveWords e src dst n k held = .ok r) : r.1.round.sources = s.round.sources := by
  induction n generalizing s k held with
  | zero => cases h; rfl
  | succ n ih =>
    unfold State.moveWords at h
    split at h
    · cases h; rfl
    · split at h
      · cases h
      · next x hx =>
        have hs : x.1.round.sources = s.round.sources := by
          split at hx
          · cases hx; rfl
          · exact State.takeWordAt_sources hx
        split at h
        · cases h; exact hs
        · split at h
          · cases h
          · next t ht => rw [ih h, State.writeWord_sources ht, hs]

theorem State.moveBlock_sources {s t : State} {e : Nat} {x : Engine} {src dst : Operand} {n : Nat} (h : s.moveBlock e x src dst n = .ok t) :
    t.round.sources = s.round.sources := by
  unfold State.moveBlock at h
  split at h
  · cases h
  · next hm => cases h; simpa using State.moveWords_sources hm
  · next hm => cases h; simpa using State.moveWords_sources hm

@[simp] theorem State.consumePoison_sources (s : State) (e : Nat) (a : Nat) : (s.consumePoison e a).round.sources = s.round.sources := by
  simp [State.consumePoison]

theorem State.jump_sources {s t : State} {e : Nat} {b : BitVec 20} (h : s.jump e b = .ok t) : t.round.sources = s.round.sources := by
  unfold State.jump at h
  split at h <;> cases h
  rfl

theorem State.call_sources {s t : State} {e : Nat} {b : BitVec 20} (h : s.call e b = .ok t) : t.round.sources = s.round.sources := by
  unfold State.call at h
  split at h
  · cases h
  · split at h
    · cases h
    · split at h <;> cases h
      rfl

@[simp] theorem State.beginTick_sources (s : State) : (s.beginTick).round.sources = s.round.sources := rfl
@[simp] theorem State.loopCount_sources (s : State) (n : Nat) : (s.loopCount n).round.sources = s.round.sources := rfl
@[simp] theorem State.loopDeliver_sources (s : State) (n : Nat) : (s.loopDeliver n).round.sources = s.round.sources := by simp [State.loopDeliver]

@[simp] theorem State.loopMirror_sources (s : State) (t : Nat) (n : Nat) : (s.loopMirror t n).round.sources = s.round.sources := by
  unfold State.loopMirror
  split <;> simp

@[simp] theorem State.loopEvent_sources (s : State) (n : Nat) (rise : Bool) (k : Option RecKind) : (s.loopEvent n rise k).round.sources = s.round.sources := by
  unfold State.loopEvent
  (repeat' split) <;> simp

@[simp] theorem State.loopSample_sources (s : State) (t : Nat) (n : Nat) : (s.loopSample t n).round.sources = s.round.sources := by simp [State.loopSample]
@[simp] theorem State.loopRead_sources (s : State) (t : Nat) (n : Nat) : (s.loopRead t n).round.sources = s.round.sources := by simp [State.loopRead]

@[simp] theorem State.loopRun_sources (s : State) (l : List (Nat × Nat)) : (s.loopRun l).round.sources = s.round.sources := by
  induction l generalizing s with
  | nil => rfl
  | cons e l ih => simp [State.loopRun, ih]

@[simp] theorem State.ucToFire_sources (s : State) (n : Nat) : (s.ucToFire n).round.sources = s.round.sources := by simp [State.ucToFire]
@[simp] theorem State.ucLimits_sources (s : State) (n : Nat) (v : ℤ) : (s.ucLimits n v).round.sources = s.round.sources := by simp [State.ucLimits]
@[simp] theorem State.ucDeliver_sources (s : State) (n : Nat) (c : Conversion) : (s.ucDeliver n c).round.sources = s.round.sources := by simp [State.ucDeliver]
@[simp] theorem State.ucBadToFire_sources (s : State) (n : Nat) : (s.ucBadToFire n).round.sources = s.round.sources := by simp [State.ucBadToFire]
@[simp] theorem State.setDoGroup_sources (s : State) (i : Nat) (x : DGroup) : (s.setDoGroup i x).round.sources = s.round.sources := rfl

@[simp] theorem State.setDGroup_sources (s : State) (k : GroupKind) (g : Nat) (x : DGroup) : (s.setDGroup k g x).round.sources = s.round.sources := by
  unfold State.setDGroup
  split <;> simp

@[simp] theorem State.raiseGroup_sources (s : State) (r : RecKind) (k : GroupKind) (g : Nat) : (s.raiseGroup r k g).round.sources = s.round.sources := by
  simp [State.raiseGroup]

@[simp] theorem State.dropCounting_sources (s : State) (g : Nat) : (s.dropCounting g).round.sources = s.round.sources := rfl
@[simp] theorem State.diGroupToFire_sources (s : State) (g : Nat) : (s.diGroupToFire g).round.sources = s.round.sources := by simp [State.diGroupToFire]
@[simp] theorem State.uvloRecovered_sources (s : State) (n : Nat) : (s.uvloRecovered n).round.sources = s.round.sources := by simp [State.uvloRecovered]

@[simp] theorem State.doFaultRise_sources (s : State) (kind : Nat) (n : Nat) : (s.doFaultRise kind n).round.sources = s.round.sources := by
  simp [State.doFaultRise]

@[simp] theorem State.doProtect_sources (s : State) (n : Nat) (thermal : Bool) : (s.doProtect n thermal).round.sources = s.round.sources := by
  simp [State.doProtect]

@[simp] theorem State.modDoGroup_sources (s : State) (i : Nat) (f : DGroup → DGroup) : (s.modDoGroup i f).round.sources = s.round.sources := rfl
@[simp] theorem State.enterBusOff_sources (s : State) (p : Nat) : (s.enterBusOff p).round.sources = s.round.sources := by simp [State.enterBusOff]
@[simp] theorem State.judgeCan_sources (s : State) (p : Nat) : (s.judgeCan p).round.sources = s.round.sources := by simp [State.judgeCan]

@[simp] theorem State.refDone_sources (s : State) (p : Nat) (kind : Nat) (ok : Bool) (t : Nat) : (s.refDone p kind ok t).round.sources = s.round.sources := by
  simp [State.refDone]

@[simp] theorem State.keepSent_sources (s : State) (p : Nat) (x : Nat) (k : Nat) (f : CanFrame) : (s.keepSent p x k f).round.sources = s.round.sources := rfl

@[simp] theorem State.emergencySent_sources (s : State) (p : Nat) (f : CanFrame) : (s.emergencySent p f).round.sources = s.round.sources := by
  unfold State.emergencySent
  refine State.each_sources _ _ _ fun s x => ?_
  simp

@[simp] theorem State.jobDone_sources (s : State) (p : Nat) (j : TxJob) (f : CanFrame) (ok : Bool) (t : Nat) :
    (s.jobDone p j f ok t).round.sources = s.round.sources := by
  unfold State.jobDone
  split <;> simp

@[simp] theorem State.recBad_sources (s : State) (p : Nat) (k : CanRxError) : (s.recBad p k).round.sources = s.round.sources := by
  unfold State.recBad
  dsimp only
  (repeat' split) <;> simp

@[simp] theorem State.recGood_sources (s : State) (p : Nat) : (s.recGood p).round.sources = s.round.sources := by simp [State.recGood]
@[simp] theorem State.filterFrame_sources (s : State) (p : Nat) : (s.filterFrame p).round.sources = s.round.sources := rfl

@[simp] theorem State.stationInput_sources (s : State) (p : Nat) (x : Nat) (k : Nat) (f : CanFrame) :
    (s.stationInput p x k f).round.sources = s.round.sources := by
  simp [State.stationInput]

@[simp] theorem State.storedFrame_sources (s : State) (p : Nat) (cfg : Word) : (s.storedFrame p cfg).round.sources = s.round.sources := by
  simp [State.storedFrame]

@[simp] theorem State.ramStore_sources (s : State) (p : Nat) (inFifo : Bool) (m match_ : Nat) (f : CanFrame) (cfg : Word) :
    (s.ramStore p inFifo m match_ f cfg).round.sources = s.round.sources := by
  unfold State.ramStore; dsimp only; split
  · rfl
  · split
    · next h => simp [State.writeWaits_sources h]
    · simp

@[simp] theorem State.listStore_sources (s : State) (p : Nat) (f : CanFrame) : (s.listStore p f).round.sources = s.round.sources := by
  unfold State.listStore
  split <;> simp

@[simp] theorem State.mailboxStore_sources (s : State) (p : Nat) (f : CanFrame) : (s.mailboxStore p f).round.sources = s.round.sources := by
  unfold State.mailboxStore
  dsimp only
  (repeat' split) <;> simp

@[simp] theorem State.storeFrame_sources (s : State) (p : Nat) (f : CanFrame) : (s.storeFrame p f).round.sources = s.round.sources := by simp [State.storeFrame]

@[simp] theorem State.observeRef_sources (s : State) (p : Nat) (f : CanFrame) : (s.observeRef p f).round.sources = s.round.sources := by
  unfold State.observeRef
  split <;> simp

@[simp] theorem State.dispose_sources (s : State) (p : Nat) (f : CanFrame) : (s.dispose p f).round.sources = s.round.sources := by
  unfold State.dispose
  split <;> simp

@[simp] theorem State.frameGate_sources (s : State) (p col from_ : Nat) (at_ : List Nat) :
    (s.frameGate p col from_ at_).1.round.sources = s.round.sources := by
  unfold State.frameGate
  simp only [apply_ite Prod.fst, State.ite_sources]
  simp

@[simp] theorem State.serve_sources (s : State) (p : Nat) (col : Nat) : (s.serve p col).round.sources = s.round.sources := rfl

@[simp] theorem State.startInWindow_sources (s : State) (p : Nat) (j : TxJob) (f : CanFrame) (z : Nat) :
    (s.startInWindow p j f z).round.sources = s.round.sources := by
  simp [State.startInWindow]

@[simp] theorem State.offerFrame_sources (s : State) (p : Nat) (j : TxJob) (f : CanFrame) (z : Nat) :
    (s.offerFrame p j f z).round.sources = s.round.sources := by
  simp [State.offerFrame]

@[simp] theorem State.stationFrame_sources (s : State) (p x k : Nat) (bad : List Nat) :
    (s.stationFrame p x k bad).1.round.sources = s.round.sources := by
  unfold State.stationFrame; simp

@[simp] theorem State.serveWindows_sources (s : State) (p : Nat) (l : List (TxJob × CanFrame × Nat)) :
    (s.serveWindows p l).round.sources = s.round.sources := by
  induction l generalizing s with
  | nil => rfl
  | cons w l ih => simp [State.serveWindows, ih]

@[simp] theorem State.busIdle_sources (s : State) (p : Nat) : (s.busIdle p).round.sources = s.round.sources := by
  unfold State.busIdle
  dsimp only
  (repeat' split) <;> simp

@[simp] theorem State.tripFn_sources (s : State) (f : Nat) (votes : Nat) : (s.tripFn f votes).round.sources = s.round.sources := by simp [State.tripFn]
@[simp] theorem State.evalFn_sources (s : State) (f : Nat) : (s.evalFn f).round.sources = s.round.sources := by simp [State.evalFn]
@[simp] theorem State.evalFns_sources (s : State) : (s.evalFns).round.sources = s.round.sources := by simp [State.evalFns]

@[simp] theorem State.countBadFrame_sources (s : State) (m : FireMsg) : (s.countBadFrame m).round.sources = s.round.sources := by
  unfold State.countBadFrame
  split <;> simp

@[simp] theorem State.setFireSlot_sources (s : State) (i : Nat) (x : FireSlot) : (s.setFireSlot i x).round.sources = s.round.sources := rfl
@[simp] theorem State.putSlot_sources (s : State) (i : Nat) (x : FireSlot) : (s.putSlot i x).round.sources = s.round.sources := by simp [State.putSlot]

@[simp] theorem State.deliverSlot_sources (s : State) (i : Nat) (cond : Option Bool) (reason : Nat) :
    (s.deliverSlot i cond reason).round.sources = s.round.sources := by
  simp [State.deliverSlot]

@[simp] theorem State.channelBad_sources (s : State) (i : Nat) (bad : Bool) : (s.channelBad i bad).round.sources = s.round.sources := by simp [State.channelBad]

@[simp] theorem State.slotMessage_sources (m : FireMsg) (s : State) (i : Nat) : (State.slotMessage m s i).round.sources = s.round.sources := by
  unfold State.slotMessage; split <;> (repeat' split) <;> simp

@[simp] theorem State.slotTimeout_sources (s : State) (i : Nat) : (s.slotTimeout i).round.sources = s.round.sources := by
  unfold State.slotTimeout
  split <;> simp

@[simp] theorem State.hearPath_sources (s : State) (path : HbPath) : (s.hearPath path).round.sources = s.round.sources := by
  unfold State.hearPath
  split <;> simp

@[simp] theorem State.judgeLine_sources (s : State) : (s.judgeLine).round.sources = s.round.sources := by unfold State.judgeLine; split <;> simp
@[simp] theorem State.toAlone_sources (s : State) : (s.toAlone).round.sources = s.round.sources := by simp [State.toAlone]
@[simp] theorem State.snapshotBanks_sources (s : State) : (s.snapshotBanks).round.sources = s.round.sources := rfl
@[simp] theorem State.yieldRole_sources (s : State) (h : Heartbeat) : (s.yieldRole h).round.sources = s.round.sources := by simp [State.yieldRole]
@[simp] theorem State.claimRole_sources (s : State) : (s.claimRole).round.sources = s.round.sources := by simp [State.claimRole]
@[simp] theorem State.settleRole_sources (s : State) (h : Heartbeat) : (s.settleRole h).round.sources = s.round.sources := by simp [State.settleRole]

@[simp] theorem State.seePartner_sources (s : State) (was : Option Heartbeat) (h : Heartbeat) :
    (s.seePartner was h).round.sources = s.round.sources := by
  unfold State.seePartner
  split
  · simp
  · simp only []
    split <;> split <;> simp -implicitDefEqProofs
  · simp
  · rfl

@[simp] theorem State.lineEdge_sources (s : State) : (s.lineEdge).round.sources = s.round.sources := rfl

@[simp] theorem State.hearForces_sources (s : State) (l : Ledger) : (s.hearForces l).round.sources = s.round.sources := by
  unfold State.hearForces
  split <;> simp

@[simp] theorem State.beginHandBack_sources (s : State) : (s.beginHandBack).round.sources = s.round.sources := rfl

@[simp] theorem State.hearRehearsal_sources (s : State) (c : Change) (h : BitVec 32) : (s.hearRehearsal c h).round.sources = s.round.sources := by
  unfold State.hearRehearsal
  split <;> simp

@[simp] theorem State.acknowledged_sources (s : State) (boundary : BitVec 32) : (s.acknowledged boundary).round.sources = s.round.sources := rfl

@[simp] theorem State.totBoundary_sources (l : List (Option (Nat × ℤ))) (s : State) (t : Nat) : (State.totBoundary l s t).round.sources = s.round.sources := by
  unfold State.totBoundary
  (repeat' split) <;> simp

@[simp] theorem State.resumeLoad_sources (s : State) (c : Ctx) (b : List Byte) : (s.resumeLoad c b).round.sources = s.round.sources := by
  simp [State.resumeLoad]

@[simp] theorem State.resumeRead_sources (s : State) (x : Stalled) : (s.resumeRead x).round.sources = s.round.sources := by
  unfold State.resumeRead
  split <;> simp

@[simp] theorem State.storeWaiting_sources (s : State) (p : Nat) : (s.storeWaiting p).round.sources = s.round.sources := by
  unfold State.storeWaiting
  split <;> simp

@[simp] theorem State.resume_sources (s : State) : (s.resume).round.sources = s.round.sources := by simp [State.resume]

@[simp] theorem State.restHard_sources (s : State) (a : Nat) (page : Nat) (bad : List Nat) (hard : List Nat) :
    (s.restHard a page bad hard).round.sources = s.round.sources :=
  rfl

@[simp] theorem State.poisonSquare_sources (s : State) (b : Nat) : (s.poisonSquare b).round.sources = s.round.sources := by simp [State.poisonSquare]

@[simp] theorem State.voidItem_sources (s : State) (i : MramItem) (lose : State → State)
    (h : ∀ t, (lose t).round.sources = t.round.sources) : (s.voidItem i lose).round.sources = s.round.sources := by
  unfold State.voidItem; simp [h]

@[simp] theorem State.loseObject_sources (s : State) (index : Nat) : (s.loseObject index).round.sources = s.round.sources := by simp [State.loseObject]
@[simp] theorem State.loseFire_sources (s : State) (k : Nat) (both : Bool) : (s.loseFire k both).round.sources = s.round.sources := by simp [State.loseFire]
@[simp] theorem State.voidCopy_sources (s : State) (at_ : Nat) : (s.voidCopy at_).round.sources = s.round.sources := by simp [State.voidCopy]

@[simp] theorem State.voidRetained_sources (s : State) (i : Nat) : (s.voidRetained i).round.sources = s.round.sources := by
  unfold State.voidRetained
  split <;> simp

@[simp] theorem State.setSevCount_sources (s : State) (i : Nat) (x : SevCount) : (s.setSevCount i x).round.sources = s.round.sources := rfl
@[simp] theorem State.modSevCount_sources (s : State) (i : Nat) (f : SevCount → SevCount) : (s.modSevCount i f).round.sources = s.round.sources := rfl

@[simp] theorem State.loseSlots_sources (s : State) : s.loseSlots.round.sources = s.round.sources := by
  simp -implicitDefEqProofs [State.loseSlots]

@[simp] theorem State.loseItem_sources (s : State) (hit : List MramItem) (i : MramItem) : (s.loseItem hit i).round.sources = s.round.sources := by
  unfold State.loseItem
  split <;> simp

@[simp] theorem State.storePoison_sources (s : State) (a : Nat) (l : List Nat) : (s.storePoison a l).round.sources = s.round.sources := by
  unfold State.storePoison
  split
  case h_3 => rw [State.each_sources, State.each_sources] <;> intros <;> (try split) <;> simp
  all_goals simp -implicitDefEqProofs

@[simp] theorem State.judgeScrub_sources (s : State) (a : Nat) (addr : Nat) (v : Verdict) : (s.judgeScrub a addr v).round.sources = s.round.sources := by
  unfold State.judgeScrub
  split <;> simp

@[simp] theorem State.scrubUpset_sources (s : State) (a : Nat) (u : Upset) : (s.scrubUpset a u).round.sources = s.round.sources := by simp [State.scrubUpset]
@[simp] theorem State.scrubTo_sources (s : State) (a : Nat) (place : Nat) : (s.scrubTo a place).round.sources = s.round.sources := by simp [State.scrubTo]

@[simp] theorem State.recordDone_sources (s : State) (q : Raised) (i : BitVec 32) : (s.recordDone q i).round.sources = s.round.sources := by
  unfold State.recordDone
  (repeat' split) <;> simp

@[simp] theorem State.recordLost_sources (s : State) (q : Raised) : (s.recordLost q).round.sources = s.round.sources := by simp [State.recordLost]
@[simp] theorem State.leaveQueue_sources (s : State) (q : Raised) (rest : List Raised) : (s.leaveQueue q rest).round.sources = s.round.sources := rfl
@[simp] theorem State.writeSlot_sources (s : State) (slot : Nat) : (s.writeSlot slot).round.sources = s.round.sources := by simp [State.writeSlot]

@[simp] theorem State.rewriteRecord_sources (s : State) (i : BitVec 32) (r : Record) : (s.rewriteRecord i r).round.sources = s.round.sources := by
  simp [State.rewriteRecord]

@[simp] theorem State.writeSlots_sources (s : State) : (s.writeSlots).round.sources = s.round.sources := by simp [State.writeSlots]
@[simp] theorem State.displace_sources (s : State) (i : BitVec 32) : (s.displace i).round.sources = s.round.sources := by unfold State.displace; split <;> simp

theorem State.roomFor_sources {s t : State} {r : Record} {n : Nat} (h : s.roomFor r = some (t, n)) : t.round.sources = s.round.sources := by
  unfold State.roomFor at h
  dsimp only at h
  split at h
  · cases h; simp
  · split at h
    · cases h; rfl
    · obtain ⟨e, -, he⟩ := Option.map_eq_some_iff.mp h; cases he; simp

@[simp] theorem State.putRecord_sources (s : State) (r : Record) (slot : Nat) : (s.putRecord r slot).round.sources = s.round.sources := by
  simp [State.putRecord]

@[simp] theorem State.placeRecord_sources (s : State) (q : Raised) : (s.placeRecord q).round.sources = s.round.sources := by
  unfold State.placeRecord; split
  · next h => simp [State.roomFor_sources h]
  · simp

@[simp] theorem State.panelCheck_sources (s : State) : (s.panelCheck).round.sources = s.round.sources := by simp [State.panelCheck]
@[simp] theorem State.panelSwap_sources (s : State) : (s.panelSwap).round.sources = s.round.sources := by simp [State.panelSwap]

@[simp] theorem State.plateDone_sources (s : State) : (s.plateDone).round.sources = s.round.sources := by
  unfold State.plateDone
  dsimp only
  (repeat' split) <;> simp

@[simp] theorem State.judgeDuplicate_sources (s : State) (address : BitVec 16) (serial : BitVec 64) :
    (s.judgeDuplicate address serial).round.sources = s.round.sources := by
  simp [State.judgeDuplicate]

@[simp] theorem State.noteStation_sources (s : State) (kind : Nat) (serial : BitVec 64) (seq : BitVec 32) :
    (s.noteStation kind serial seq).round.sources = s.round.sources :=
  rfl

@[simp] theorem State.takeAnnounce_sources (s : State) (address : BitVec 16) (serial : BitVec 64) :
    (s.takeAnnounce address serial).round.sources = s.round.sources := by
  simp [State.takeAnnounce]

@[simp] theorem State.askDelay_sources (s : State) : (s.askDelay).round.sources = s.round.sources := by simp [State.askDelay]
@[simp] theorem State.shiftTime_sources (s : State) (offset : ℤ) : (s.shiftTime offset).round.sources = s.round.sources := rfl
@[simp] theorem State.stepTime_sources (s : State) (offset : ℤ) : (s.stepTime offset).round.sources = s.round.sources := by simp [State.stepTime]
@[simp] theorem State.freeTorn_sources (s : State) : (s.freeTorn).round.sources = s.round.sources := by simp [State.freeTorn]
@[simp] theorem State.finishMerge_sources (s : State) : (s.finishMerge).round.sources = s.round.sources := by unfold State.finishMerge; split <;> simp

@[simp] theorem State.recorderStart_sources (s : State) : s.recorderStart.round.sources = s.round.sources := by
  simp -implicitDefEqProofs [State.recorderStart]

@[simp] theorem State.readMram_sources (s : State) : (s.readMram).round.sources = s.round.sources := by simp [State.readMram]

@[simp] theorem State.checkMram_sources (s : State) : s.checkMram.round.sources = s.round.sources := by
  unfold State.checkMram; simp -implicitDefEqProofs

@[simp] theorem State.feedTold_sources (s : State) (feed : Fin 2) (mv : Nat) : (s.feedTold feed mv).round.sources = s.round.sources := rfl
@[simp] theorem State.bankReads_sources (s : State) : (s.bankReads).round.sources = s.round.sources := by simp [State.bankReads]

theorem State.spansWait_sources {s t : State} {l : List (Nat × Nat × Nat)} (h : s.spansWait l = some t) : t.round.sources = s.round.sources := by
  unfold State.spansWait at h
  split at h
  · cases h; rfl
  · split at h <;> cases h
    simp

@[simp] theorem State.restoreBank_sources (s : State) (i : Nat) : (s.restoreBank i).round.sources = s.round.sources := by simp [State.restoreBank]

@[simp] theorem State.memoryTest_sources (s : State) (cold : Bool) (hard : List (Fin 8 × Nat)) : (s.memoryTest cold hard).round.sources = s.round.sources := by
  simp [State.memoryTest]

@[simp] theorem State.canRamWritten_sources (s : State) : (s.canRamWritten).round.sources = s.round.sources := rfl
@[simp] theorem State.loopFullService_sources (s : State) : (s.loopFullService).round.sources = s.round.sources := rfl
@[simp] theorem State.initCycle_sources (s : State) (cold : Bool) : (s.initCycle cold).round.sources = s.round.sources := rfl

@[simp] theorem State.initVar_sources (r : Option Retained) (s : State) (y : Symbol) : (State.initVar r s y).round.sources = s.round.sources := by
  simp [State.initVar]

@[simp] theorem State.initUnits_sources (s : State) (r : Option Retained) : (s.initUnits r).round.sources = s.round.sources := rfl
@[simp] theorem State.initSquare_sources (s : State) (cold : Bool) : (s.initSquare cold).round.sources = s.round.sources := by simp [State.initSquare]

@[simp] theorem State.ucCalibrate_sources (s : State) (n : Nat) (failed : Bool) : (s.ucCalibrate n failed).round.sources = s.round.sources := by
  simp [State.ucCalibrate]

@[simp] theorem State.enterFullService_sources (s : State) (calFailed : List (Fin 32)) (hard : List (Fin 8 × Nat)) :
    (s.enterFullService calFailed hard).round.sources = s.round.sources := by
  simp [State.enterFullService]

@[simp] theorem State.halt_sources (s : State) : (s.halt).round.sources = s.round.sources := by simp [State.halt]
@[simp] theorem State.riseAgainst_sources (s : State) : (s.riseAgainst).round.sources = s.round.sources := by simp [State.riseAgainst]
@[simp] theorem State.checkHolds_sources (s : State) : (s.checkHolds).round.sources = s.round.sources := by unfold State.checkHolds; split <;> simp
@[simp] theorem State.syncToken_sources (s : State) (c : BitVec 32) (instant : Nat) : (s.syncToken c instant).round.sources = s.round.sources := rfl

@[simp] theorem State.takeSquare_sources (s : State) (f : Nat) (l : List (Nat × Byte)) (marks : List Nat) :
    (s.takeSquare f l marks).round.sources = s.round.sources := by
  simp [State.takeSquare]

@[simp] theorem State.takeRunning_sources (s : State) (runBank : Bool) (run : Bool) : (s.takeRunning runBank run).round.sources = s.round.sources := by
  simp [State.takeRunning]

@[simp] theorem State.takeBanks_sources (s : State) (l : List (Nat × List (Nat × Word))) : (s.takeBanks l).round.sources = s.round.sources := by
  simp [State.takeBanks]

@[simp] theorem State.adoptTotals_sources (s : State) (c : BitVec 32) (f : Nat) (l : List SnapTotal) :
    (s.adoptTotals c f l).round.sources = s.round.sources := by
  simp [State.adoptTotals]

end Sys2Proof.Machine
end

/-! # Commands that leave the sources alone

Commands that leave the Roundabout's sources as they were, as rows of `State.keepsTo`: every next state that they answer has the same sources. -/

section
namespace Sys2Proof.Machine
open Sys2Proof

/-- Every next state of an outcome has the sources of `s`. -/
def State.keepsTo (s : State) (o : Out) : Prop := ∀ t, o = .next t → t.round.sources = s.round.sources

@[simp] theorem State.keepsTo_next (s t : State) : s.keepsTo (.next t) ↔ t.round.sources = s.round.sources := by
  simp [State.keepsTo]

@[simp] theorem State.keepsTo_ite (s : State) (c : Prop) [Decidable c] (a b : Out) :
    s.keepsTo (if c then a else b) ↔ if c then s.keepsTo a else s.keepsTo b := by split <;> rfl

/-- A command packet leaves the sources as what it runs does. -/
theorem State.keepsTo_of_ite {s : State} {c : Prop} [Decidable c] {a b : Out} (ha : s.keepsTo a) (hb : s.keepsTo b) :
    s.keepsTo (if c then a else b) := by split <;> assumption

theorem State.command_keeps (s : State) (p : Packet) (d : CmdDesc) {run : Ctx → List Byte → State → State}
    (h : ∀ c b q, (run c b q).round.sources = q.round.sources) : s.keepsTo (s.command p d run) := by
  have hq := s.accept_sources p d true
  unfold State.command
  split
  · simp
  · split <;> next e => simp_all

theorem allowed_ok {α : Type} {x : Option α} {f : α → Except Nat State} {t : State} (h : allowed x f = .ok t) : ∃ v, x = some v ∧ f v = .ok t := by
  cases x with
  | none => cases h
  | some v => exact ⟨v, rfl, h⟩

/-- What an instruction's issue comes to: the sources stay, or they are those that its meaning leaves. -/
theorem State.issue_sources {s t : State} {i : Instr} {clk : Nat} {run : Nat → Nat → State → Except Nat State} {touch : Nat → State → List Touch}
    (h : s.issue i clk run touch = .next t) : t.round.sources = s.round.sources ∨
      ∃ e a q u, q.round.sources = s.round.sources ∧ run e a q = .ok u ∧ t.round.sources = u.round.sources := by
  unfold State.issue at h
  split at h
  · cases h; exact .inl rfl
  · dsimp only at h
    split at h
    · cases h; exact .inl rfl
    · split at h
      · cases h; exact .inl (by simp)
      · split at h
        · next hi => cases h; exact .inl (State.holdIssue_sources hi)
        · split at h
          · next u hr => cases h; exact .inr ⟨_, _, _, u, by simp, hr, by simp⟩
          · cases h; exact .inl (by simp)

/-- An instruction whose meaning leaves the sources leaves them. -/
theorem State.issue_keeps (s : State) (i : Instr) (clk : Nat) {run : Nat → Nat → State → Except Nat State} (touch : Nat → State → List Touch)
    (h : ∀ e a q t, run e a q = .ok t → t.round.sources = q.round.sources) : s.keepsTo (s.issue i clk run touch) := by
  intro t ht
  obtain hs | ⟨e, a, q, u, hq, hr, hu⟩ := State.issue_sources ht
  · exact hs
  · rw [hu, h e a q u hr, hq]

theorem execIdentify_keeps (p : Packet) (s : State) : s.keepsTo (execIdentify p s) := s.command_keeps p _ fun _ _ _ => runIdentify_sources _ _ _
theorem execGetStatus_keeps (p : Packet) (s : State) : s.keepsTo (execGetStatus p s) := s.command_keeps p _ fun _ _ _ => runGetStatus_sources _ _ _
theorem execReadObject_keeps (p : Packet) (s : State) : s.keepsTo (execReadObject p s) := s.command_keeps p _ fun _ _ _ => runReadObject_sources _ _ _

theorem execEnumerate_keeps (p : Packet) (s : State) : s.keepsTo (execEnumerate p s) :=
  s.command_keeps p _ fun _ _ _ => runEnumerate_sources _ _

theorem execConfirmAddress_keeps (p : Packet) (s : State) : s.keepsTo (execConfirmAddress p s) :=
  s.command_keeps p _ fun _ _ _ => runConfirmAddress_sources _ _ _

theorem execProgramBegin_keeps (p : Packet) (s : State) : s.keepsTo (execProgramBegin p s) := s.command_keeps p _ fun _ _ _ => runProgramBegin_sources _ _ _
theorem execProgramData_keeps (p : Packet) (s : State) : s.keepsTo (execProgramData p s) := s.command_keeps p _ fun _ _ _ => runProgramData_sources _ _ _
theorem execProgramEnd_keeps (p : Packet) (s : State) : s.keepsTo (execProgramEnd p s) := s.command_keeps p _ fun _ _ _ => runProgramEnd_sources _ _ _
theorem execProgramSwitch_keeps (p : Packet) (s : State) : s.keepsTo (execProgramSwitch p s) := s.command_keeps p _ fun _ _ _ => runProgramSwitch_sources _ _ _
theorem execRunStop_keeps (p : Packet) (s : State) : s.keepsTo (execRunStop p s) := s.command_keeps p _ fun _ _ _ => runRunStop_sources _ _ _
theorem execForceSet_keeps (p : Packet) (s : State) : s.keepsTo (execForceSet p s) := s.command_keeps p _ fun _ _ _ => runForceSet_sources _ _ _
theorem execForceRelease_keeps (p : Packet) (s : State) : s.keepsTo (execForceRelease p s) := s.command_keeps p _ fun _ _ _ => runForceRelease_sources _ _ _
theorem execCycleStats_keeps (p : Packet) (s : State) : s.keepsTo (execCycleStats p s) := s.command_keeps p _ fun _ _ _ => runCycleStats_sources _ _ _
theorem execReadVars_keeps (p : Packet) (s : State) : s.keepsTo (execReadVars p s) := s.command_keeps p _ fun _ _ _ => runReadVars_sources _ _ _
theorem execWriteVars_keeps (p : Packet) (s : State) : s.keepsTo (execWriteVars p s) := s.command_keeps p _ fun _ _ _ => runWriteVars_sources _ _ _
theorem execSubscribe_keeps (p : Packet) (s : State) : s.keepsTo (execSubscribe p s) := s.command_keeps p _ fun _ _ _ => runSubscribe_sources _ _ _
theorem execUnsubscribe_keeps (p : Packet) (s : State) : s.keepsTo (execUnsubscribe p s) := s.command_keeps p _ fun _ _ _ => runUnsubscribe_sources _ _ _

theorem execEventSubscribe_keeps (p : Packet) (s : State) : s.keepsTo (execEventSubscribe p s) :=
  s.command_keeps p _ fun _ _ _ => runEventSubscribe_sources _ _ _

theorem execLoopEnable_keeps (p : Packet) (s : State) : s.keepsTo (execLoopEnable p s) := s.command_keeps p _ fun _ _ _ => runLoopEnable_sources _ _ _
theorem execLoopDisable_keeps (p : Packet) (s : State) : s.keepsTo (execLoopDisable p s) := s.command_keeps p _ fun _ _ _ => runLoopDisable_sources _ _ _

theorem execLoopWriteCoeff_keeps (p : Packet) (s : State) : s.keepsTo (execLoopWriteCoeff p s) :=
  s.command_keeps p _ fun _ _ _ => runLoopWriteCoeff_sources _ _ _

theorem execLoopStage_keeps (p : Packet) (s : State) : s.keepsTo (execLoopStage p s) := s.command_keeps p _ fun _ _ _ => runLoopStage_sources _ _ _
theorem execLoopCommit_keeps (p : Packet) (s : State) : s.keepsTo (execLoopCommit p s) := s.command_keeps p _ fun _ _ _ => runLoopCommit_sources _ _ _
theorem execLoopRead_keeps (p : Packet) (s : State) : s.keepsTo (execLoopRead p s) := s.command_keeps p _ fun _ _ _ => runLoopRead_sources _ _ _
theorem execChannelStatus_keeps (p : Packet) (s : State) : s.keepsTo (execChannelStatus p s) := s.command_keeps p _ fun _ _ _ => runChannelStatus_sources _ _ _
theorem execOutputAck_keeps (p : Packet) (s : State) : s.keepsTo (execOutputAck p s) := s.command_keeps p _ fun _ _ _ => runOutputAck_sources _ _ _
theorem execHartTransact_keeps (p : Packet) (s : State) : s.keepsTo (execHartTransact p s) := s.command_keeps p _ fun _ _ _ => runHartTransact_sources _ _ _
theorem execHartBurstRead_keeps (p : Packet) (s : State) : s.keepsTo (execHartBurstRead p s) := s.command_keeps p _ fun _ _ _ => runHartBurstRead_sources _ _ _
theorem execCanEnable_keeps (p : Packet) (s : State) : s.keepsTo (execCanEnable p s) := s.command_keeps p _ fun _ _ _ => runCanEnable_sources _ _ _
theorem execCanRecover_keeps (p : Packet) (s : State) : s.keepsTo (execCanRecover p s) := s.command_keeps p _ fun _ _ _ => runCanRecover_sources _ _ _
theorem execCanSend_keeps (p : Packet) (s : State) : s.keepsTo (execCanSend p s) := s.command_keeps p _ fun _ _ _ => runCanSend_sources _ _ _
theorem execCanCounters_keeps (p : Packet) (s : State) : s.keepsTo (execCanCounters p s) := s.command_keeps p _ fun _ _ _ => runCanCounters_sources _ _ _
theorem execStationStatus_keeps (p : Packet) (s : State) : s.keepsTo (execStationStatus p s) := s.command_keeps p _ fun _ _ _ => runStationStatus_sources _ _ _
theorem execPairStatus_keeps (p : Packet) (s : State) : s.keepsTo (execPairStatus p s) := s.command_keeps p _ fun _ _ _ => runPairStatus_sources _ _ _
theorem execRehearse_keeps (p : Packet) (s : State) : s.keepsTo (execRehearse p s) := s.command_keeps p _ fun _ _ _ => runRehearse_sources _ _ _
theorem execResync_keeps (p : Packet) (s : State) : s.keepsTo (execResync p s) := s.command_keeps p _ fun _ _ _ => runResync_sources _ _ _
theorem execRecQuery_keeps (p : Packet) (s : State) : s.keepsTo (execRecQuery p s) := s.command_keeps p _ fun _ _ _ => runRecQuery_sources _ _ _
theorem execRecUpload_keeps (p : Packet) (s : State) : s.keepsTo (execRecUpload p s) := s.command_keeps p _ fun _ _ _ => runRecUpload_sources _ _ _
theorem execRecCounters_keeps (p : Packet) (s : State) : s.keepsTo (execRecCounters p s) := s.command_keeps p _ fun _ _ _ => runRecCounters_sources _ _ _
theorem execRecNote_keeps (p : Packet) (s : State) : s.keepsTo (execRecNote p s) := s.command_keeps p _ fun _ _ _ => runRecNote_sources _ _ _
theorem execPanelFrame_keeps (p : Packet) (s : State) : s.keepsTo (execPanelFrame p s) := s.command_keeps p _ fun _ _ _ => runPanelFrame_sources _ _ _
theorem execPanelShow_keeps (p : Packet) (s : State) : s.keepsTo (execPanelShow p s) := s.command_keeps p _ fun _ _ _ => runPanelShow_sources _ _ _
theorem execPlateUpdate_keeps (p : Packet) (s : State) : s.keepsTo (execPlateUpdate p s) := s.command_keeps p _ fun _ _ _ => runPlateUpdate_sources _ _ _
theorem execPanelPower_keeps (p : Packet) (s : State) : s.keepsTo (execPanelPower p s) := s.command_keeps p _ fun _ _ _ => runPanelPower_sources _ _ _
theorem execMemStatus_keeps (p : Packet) (s : State) : s.keepsTo (execMemStatus p s) := s.command_keeps p _ fun _ _ _ => runMemStatus_sources _ _ _
theorem execScrubNow_keeps (p : Packet) (s : State) : s.keepsTo (execScrubNow p s) := s.command_keeps p _ fun _ _ _ => runScrubNow_sources _ _ _
theorem execRemapRead_keeps (p : Packet) (s : State) : s.keepsTo (execRemapRead p s) := s.command_keeps p _ fun _ _ _ => runRemapRead_sources _ _ _
theorem execPowerStatus_keeps (p : Packet) (s : State) : s.keepsTo (execPowerStatus p s) := s.command_keeps p _ fun _ _ _ => runPowerStatus_sources _ _ _
theorem execThermalStatus_keeps (p : Packet) (s : State) : s.keepsTo (execThermalStatus p s) := s.command_keeps p _ fun _ _ _ => runThermalStatus_sources _ _ _
theorem execFireStatus_keeps (p : Packet) (s : State) : s.keepsTo (execFireStatus p s) := s.command_keeps p _ fun _ _ _ => runFireStatus_sources _ _ _
theorem execFireReset_keeps (p : Packet) (s : State) : s.keepsTo (execFireReset p s) := s.command_keeps p _ fun _ _ _ => runFireReset_sources _ _ _
theorem execFireLoad_keeps (p : Packet) (s : State) : s.keepsTo (execFireLoad p s) := s.command_keeps p _ fun _ _ _ => runFireLoad_sources _ _ _
theorem execFireArm_keeps (p : Packet) (s : State) : s.keepsTo (execFireArm p s) := s.command_keeps p _ fun _ _ _ => runFireArm_sources _ _ _
theorem execFireConfirm_keeps (p : Packet) (s : State) : s.keepsTo (execFireConfirm p s) := s.command_keeps p _ fun _ _ _ => runFireConfirm_sources _ _ _
theorem execTotalRead_keeps (p : Packet) (s : State) : s.keepsTo (execTotalRead p s) := s.command_keeps p _ fun _ _ _ => runTotalRead_sources _ _ _
theorem execTotalClose_keeps (p : Packet) (s : State) : s.keepsTo (execTotalClose p s) := s.command_keeps p _ fun _ _ _ => runTotalClose_sources _ _ _
theorem execKeyInstall_keeps (p : Packet) (s : State) : s.keepsTo (execKeyInstall p s) := s.command_keeps p _ fun _ _ _ => runKeyInstall_sources _ _ _
theorem execKeyRevoke_keeps (p : Packet) (s : State) : s.keepsTo (execKeyRevoke p s) := s.command_keeps p _ fun _ _ _ => runKeyRevoke_sources _ _ _
theorem execKeyStatus_keeps (p : Packet) (s : State) : s.keepsTo (execKeyStatus p s) := s.command_keeps p _ fun _ _ _ => runKeyStatus_sources _ _ _
theorem execFwBegin_keeps (p : Packet) (s : State) : s.keepsTo (execFwBegin p s) := s.command_keeps p _ fun _ _ _ => runFwBegin_sources _ _ _
theorem execFwData_keeps (p : Packet) (s : State) : s.keepsTo (execFwData p s) := s.command_keeps p _ fun _ _ _ => runFwData_sources _ _ _
theorem execFwActivate_keeps (p : Packet) (s : State) : s.keepsTo (execFwActivate p s) := s.command_keeps p _ fun _ _ _ => runFwActivate_sources _ _ _

theorem execUnknownOpcode_keeps (p : Packet) (s : State) : s.keepsTo (execUnknownOpcode p s) := by
  unfold execUnknownOpcode
  split
  · simp
  · next d _ =>
    have hq := s.accept_sources p d true
    split <;> next e => simp_all

theorem execRescan_keeps (ch : Fin 32) (s : State) : s.keepsTo (execRescan ch s) := by simp [execRescan]

theorem execMultiPacketTimeout_keeps (origin : BitVec 16) (tag : BitVec 16) (s : State) : s.keepsTo (execMultiPacketTimeout origin tag s) := by
  simp [execMultiPacketTimeout]

theorem execReplyPacketSend_keeps (port : Port) (s : State) : s.keepsTo (execReplyPacketSend port s) := by unfold execReplyPacketSend; (repeat' split) <;> simp
theorem execIdleClose_keeps (origin : BitVec 16) (s : State) : s.keepsTo (execIdleClose origin s) := by simp [execIdleClose]
theorem execWindowHoldExpiry_keeps (origin : BitVec 16) (s : State) : s.keepsTo (execWindowHoldExpiry origin s) := by simp [execWindowHoldExpiry]

theorem execSubscriptionLeaseExpiry_keeps (k : Fin 64) (s : State) : s.keepsTo (execSubscriptionLeaseExpiry k s) := by
  unfold execSubscriptionLeaseExpiry
  split <;> simp

theorem execSubDelta_keeps (k : Fin 64) (s : State) : s.keepsTo (execSubDelta k s) := by unfold execSubDelta; split <;> simp
theorem execSubscriberLeaseExpiry_keeps (k : Fin 16) (s : State) : s.keepsTo (execSubscriberLeaseExpiry k s) := by simp [execSubscriberLeaseExpiry]
theorem execEvent_keeps (port : Port) (s : State) : s.keepsTo (execEvent port s) := by unfold execEvent; (repeat' split) <;> simp

theorem execAuditRound_keeps (faults : List CrossingFault) (windows : List (BitVec 16)) (s : State) : s.keepsTo (execAuditRound faults windows s) := by
  simp [execAuditRound]

theorem execIslandRestartComplete_keeps (n : Fin 20) (s : State) : s.keepsTo (execIslandRestartComplete n s) := by simp [execIslandRestartComplete]
theorem execRefClockLost_keeps (s : State) : s.keepsTo (execRefClockLost s) := by unfold execRefClockLost; (repeat' split) <;> simp -implicitDefEqProofs
theorem execRefClockRestored_keeps (s : State) : s.keepsTo (execRefClockRestored s) := by simp [execRefClockRestored]
theorem execVbusChange_keeps (present : Bool) (s : State) : s.keepsTo (execVbusChange present s) := by simp [execVbusChange]
theorem execWatchdogExpiry_keeps (s : State) : s.keepsTo (execWatchdogExpiry s) := by unfold execWatchdogExpiry; split <;> simp
theorem execRetainPeriod_keeps (s : State) : s.keepsTo (execRetainPeriod s) := by simp [execRetainPeriod]

@[simp] theorem State.issueRegs_keeps (s : State) (i : Instr) (clk : Nat) (f : Engine → Engine) : s.keepsTo (s.issueRegs i clk f) := by
  unfold State.issueRegs
  refine s.issue_keeps _ _ _ fun e _ q t h => ?_
  cases h; rfl

theorem execNop_keeps (e : Fin 4) (s : State) : s.keepsTo (execNop e s) := by simp [execNop]

@[simp] theorem State.issueBit_keeps (s : State) (i : Instr) (o : Operand) (f : Engine → Bool → Bool → Engine) : s.keepsTo (s.issueBit i o f) := by
  unfold State.issueBit
  refine s.issue_keeps _ _ _ fun e _ q t h => ?_
  obtain ⟨v, hv, h⟩ := allowed_ok h
  cases h
  simpa using State.takeBit_sources hv

theorem execLd_keeps (e : Fin 4) (o : Operand) (s : State) : s.keepsTo (execLd e o s) := by simp [execLd]
theorem execLdn_keeps (e : Fin 4) (o : Operand) (s : State) : s.keepsTo (execLdn e o s) := by simp [execLdn]
theorem execAnd_keeps (e : Fin 4) (o : Operand) (s : State) : s.keepsTo (execAnd e o s) := by simp [execAnd]
theorem execAndn_keeps (e : Fin 4) (o : Operand) (s : State) : s.keepsTo (execAndn e o s) := by simp [execAndn]
theorem execOr_keeps (e : Fin 4) (o : Operand) (s : State) : s.keepsTo (execOr e o s) := by simp [execOr]
theorem execOrn_keeps (e : Fin 4) (o : Operand) (s : State) : s.keepsTo (execOrn e o s) := by simp [execOrn]
theorem execXor_keeps (e : Fin 4) (o : Operand) (s : State) : s.keepsTo (execXor e o s) := by simp [execXor]
theorem execXorn_keeps (e : Fin 4) (o : Operand) (s : State) : s.keepsTo (execXorn e o s) := by simp [execXorn]

theorem execOut_keeps (e : Fin 4) (o : Operand) (s : State) : s.keepsTo (execOut e o s) := by
  unfold execOut
  refine s.issue_keeps _ _ _ fun n _ q t h => ?_
  obtain ⟨v, hv, h⟩ := allowed_ok h
  cases h
  simpa using State.writeBit_sources hv

@[simp] theorem State.setClear_keeps (s : State) (i : Instr) (o : Operand) (v : Bool) : s.keepsTo (s.setClear i o v) := by
  unfold State.setClear
  refine s.issue_keeps _ _ _ fun n _ q t h => ?_
  obtain ⟨u, hu, h⟩ := allowed_ok h
  cases h
  split
  · simpa using State.writeBit_sources hu
  · rfl

theorem execSetb_keeps (e : Fin 4) (o : Operand) (s : State) : s.keepsTo (execSetb e o s) := by simp [execSetb]
theorem execClrb_keeps (e : Fin 4) (o : Operand) (s : State) : s.keepsTo (execClrb e o s) := by simp [execClrb]
theorem execInv_keeps (e : Fin 4) (s : State) : s.keepsTo (execInv e s) := by simp [execInv]
theorem execCbset_keeps (e : Fin 4) (s : State) : s.keepsTo (execCbset e s) := by simp [execCbset]
theorem execCbclr_keeps (e : Fin 4) (s : State) : s.keepsTo (execCbclr e s) := by simp [execCbclr]

@[simp] theorem State.issueOpen_keeps (s : State) (i : Instr) (op : NestOp) : s.keepsTo (s.issueOpen i op) := by
  unfold State.issueOpen
  refine s.issue_keeps _ _ _ fun n _ q t h => ?_
  split at h <;> cases h
  rfl

theorem execAndOpen_keeps (e : Fin 4) (s : State) : s.keepsTo (execAndOpen e s) := by simp [execAndOpen]
theorem execAndnOpen_keeps (e : Fin 4) (s : State) : s.keepsTo (execAndnOpen e s) := by simp [execAndnOpen]
theorem execOrOpen_keeps (e : Fin 4) (s : State) : s.keepsTo (execOrOpen e s) := by simp [execOrOpen]
theorem execOrnOpen_keeps (e : Fin 4) (s : State) : s.keepsTo (execOrnOpen e s) := by simp [execOrnOpen]
theorem execXorOpen_keeps (e : Fin 4) (s : State) : s.keepsTo (execXorOpen e s) := by simp [execXorOpen]
theorem execXornOpen_keeps (e : Fin 4) (s : State) : s.keepsTo (execXornOpen e s) := by simp [execXornOpen]

theorem execCloseBracket_keeps (e : Fin 4) (s : State) : s.keepsTo (execCloseBracket e s) := by
  unfold execCloseBracket
  refine s.issue_keeps _ _ _ fun n _ q t h => ?_
  split at h <;> cases h
  rfl

@[simp] theorem State.issueEdge_keeps (s : State) (i : Instr) (o : EdgeOperand) (k : EdgeKind) (op : BitOp) : s.keepsTo (s.issueEdge i o k op) := by
  unfold State.issueEdge
  refine s.issue_keeps _ _ _ fun e _ q t h => ?_
  obtain ⟨r, hr, h⟩ := allowed_ok h
  cases h
  simpa using State.takeBit_sources hr

theorem execAndr_keeps (e : Fin 4) (o : EdgeOperand) (s : State) : s.keepsTo (execAndr e o s) := by simp [execAndr]
theorem execAndf_keeps (e : Fin 4) (o : EdgeOperand) (s : State) : s.keepsTo (execAndf e o s) := by simp [execAndf]
theorem execOrr_keeps (e : Fin 4) (o : EdgeOperand) (s : State) : s.keepsTo (execOrr e o s) := by simp [execOrr]
theorem execOrf_keeps (e : Fin 4) (o : EdgeOperand) (s : State) : s.keepsTo (execOrf e o s) := by simp [execOrf]

@[simp] theorem State.issueTimer_keeps (s : State) (i : Instr) (clk n : Nat) (p : Engine → Bool) (f : Engine → State → Timer → Timer) :
    s.keepsTo (s.issueTimer i clk n p f) := by
  unfold State.issueTimer
  refine s.issue_keeps _ _ _ fun e _ q t h => ?_
  dsimp only at h
  split at h <;> cases h
  rw [State.modEngine_round]
  exact State.guardWrite_sources _ _ _ _ _ rfl

theorem execTon_keeps (e : Fin 4) (o : TimerOperand) (s : State) : s.keepsTo (execTon e o s) := by simp [execTon]
theorem execTof_keeps (e : Fin 4) (o : TimerOperand) (s : State) : s.keepsTo (execTof e o s) := by simp [execTof]
theorem execTp_keeps (e : Fin 4) (o : TimerOperand) (s : State) : s.keepsTo (execTp e o s) := by simp [execTp]
theorem execTclr_keeps (e : Fin 4) (n : BitVec 20) (s : State) : s.keepsTo (execTclr e n s) := by simp [execTclr]

@[simp] theorem State.issueCounter_keeps (s : State) (i : Instr) (n : Nat) (p : Engine → Bool) (f : Engine → Counter → Counter × Bool) :
    s.keepsTo (s.issueCounter i n p f) := by
  unfold State.issueCounter
  refine s.issue_keeps _ _ _ fun e _ q t h => ?_
  dsimp only at h
  split at h <;> cases h
  rw [State.modEngine_round]
  refine State.guardWrite_sources _ _ _ _ _ ?_
  split <;> rfl

theorem execCup_keeps (e : Fin 4) (n : BitVec 20) (s : State) : s.keepsTo (execCup e n s) := by simp [execCup]
theorem execCdn_keeps (e : Fin 4) (n : BitVec 20) (s : State) : s.keepsTo (execCdn e n s) := by simp [execCdn]
theorem execCld_keeps (e : Fin 4) (n : BitVec 20) (s : State) : s.keepsTo (execCld e n s) := by simp [execCld]
theorem execCclr_keeps (e : Fin 4) (n : BitVec 20) (s : State) : s.keepsTo (execCclr e n s) := by simp [execCclr]

theorem execLw_keeps (e : Fin 4) (o : Operand) (v : Verdict) (s : State) : s.keepsTo (execLw e o v s) := by
  unfold execLw
  refine s.issue_keeps _ _ _ fun n _ q t h => ?_
  obtain ⟨x, hx, h⟩ := allowed_ok h
  cases h
  simpa using State.takeWordAt_sources hx

theorem execLwi_keeps (e : Fin 4) (imm : Word) (s : State) : s.keepsTo (execLwi e imm s) := by simp [execLwi]

theorem execSw_keeps (e : Fin 4) (o : Operand) (v : Verdict) (s : State) : s.keepsTo (execSw e o v s) := by
  unfold execSw
  dsimp only
  split
  · simp
  · refine s.issue_keeps _ _ _ fun n _ q t h => ?_
    obtain ⟨x, hx, h⟩ := allowed_ok h
    cases h
    split <;> simpa using State.writeWord_sources hx

theorem execMove_keeps (e : Fin 4) (src dst : Operand) (s : State) : s.keepsTo (execMove e src dst s) := by
  unfold execMove
  refine s.issue_keeps _ _ _ fun n _ q t h => ?_
  simpa using State.moveBlock_sources h

theorem execBmove_keeps (e : Fin 4) (src dst : Operand) (s : State) : s.keepsTo (execBmove e src dst s) := by
  unfold execBmove
  refine s.issue_keeps _ _ _ fun n a q t h => ?_
  dsimp only at h
  split at h
  · cases h
  · split at h
    · cases h; simp
    · split at h
      · cases h; rfl
      · simpa using State.moveBlock_sources h

theorem execSwap_keeps (e : Fin 4) (s : State) : s.keepsTo (execSwap e s) := by simp [execSwap]
theorem execAdd_keeps (e : Fin 4) (s : State) : s.keepsTo (execAdd e s) := by simp [execAdd]
theorem execSub_keeps (e : Fin 4) (s : State) : s.keepsTo (execSub e s) := by simp [execSub]
theorem execMul_keeps (e : Fin 4) (s : State) : s.keepsTo (execMul e s) := by simp [execMul]
theorem execDiv_keeps (e : Fin 4) (s : State) : s.keepsTo (execDiv e s) := by simp [execDiv]
theorem execRem_keeps (e : Fin 4) (s : State) : s.keepsTo (execRem e s) := by simp [execRem]
theorem execNeg_keeps (e : Fin 4) (s : State) : s.keepsTo (execNeg e s) := by simp [execNeg]
theorem execEq_keeps (e : Fin 4) (s : State) : s.keepsTo (execEq e s) := by simp [execEq]
theorem execNe_keeps (e : Fin 4) (s : State) : s.keepsTo (execNe e s) := by simp [execNe]
theorem execGt_keeps (e : Fin 4) (s : State) : s.keepsTo (execGt e s) := by simp [execGt]
theorem execGe_keeps (e : Fin 4) (s : State) : s.keepsTo (execGe e s) := by simp [execGe]
theorem execLt_keeps (e : Fin 4) (s : State) : s.keepsTo (execLt e s) := by simp [execLt]
theorem execLe_keeps (e : Fin 4) (s : State) : s.keepsTo (execLe e s) := by simp [execLe]

theorem execJmp_keeps (e : Fin 4) (b : BitVec 20) (s : State) : s.keepsTo (execJmp e b s) := by
  unfold execJmp
  refine s.issue_keeps _ _ _ fun _ _ _ _ h => ?_
  exact State.jump_sources h

@[simp] theorem State.issueJump_keeps (s : State) (i : Instr) (b : BitVec 20) (want : Bool) : s.keepsTo (s.issueJump i b want) := by
  unfold State.issueJump
  refine s.issue_keeps _ _ _ fun e a q t h => ?_
  dsimp only at h
  split at h
  · cases h; simp
  · split at h
    · simpa using State.jump_sources h
    · cases h; rfl

theorem execJt_keeps (e : Fin 4) (t : BitVec 20) (s : State) : s.keepsTo (execJt e t s) := by simp [execJt]
theorem execJf_keeps (e : Fin 4) (t : BitVec 20) (s : State) : s.keepsTo (execJf e t s) := by simp [execJf]

theorem execJov_keeps (e : Fin 4) (b : BitVec 20) (s : State) : s.keepsTo (execJov e b s) := by
  unfold execJov
  refine s.issue_keeps _ _ _ fun n _ q t h => ?_
  split at h
  · exact State.jump_sources h
  · cases h; rfl

theorem execJovs_keeps (e : Fin 4) (b : BitVec 20) (s : State) : s.keepsTo (execJovs e b s) := by
  unfold execJovs
  refine s.issue_keeps _ _ _ fun n _ q t h => ?_
  split at h
  · simpa using State.jump_sources h
  · cases h; rfl

theorem execCall_keeps (e : Fin 4) (b : BitVec 20) (s : State) : s.keepsTo (execCall e b s) := by
  unfold execCall
  refine s.issue_keeps _ _ _ fun _ _ _ _ h => ?_
  exact State.call_sources h

theorem execCallt_keeps (e : Fin 4) (b : BitVec 20) (s : State) : s.keepsTo (execCallt e b s) := by
  unfold execCallt
  refine s.issue_keeps _ _ _ fun n a q t h => ?_
  dsimp only at h
  split at h
  · cases h; simp
  · split at h
    · simpa using State.call_sources h
    · cases h; rfl

theorem execTot_keeps (e : Fin 4) (n : BitVec 20) (s : State) : s.keepsTo (execTot e n s) := by
  unfold execTot
  refine s.issue_keeps _ _ _ fun m a q t h => ?_
  dsimp only at h
  (repeat' split at h) <;> cases h <;> simp

theorem execLoopBaseTick_keeps (s : State) : s.keepsTo (execLoopBaseTick s) := by unfold execLoopBaseTick; (repeat' split) <;> simp -implicitDefEqProofs

theorem execUcConversionComplete_keeps (ch : Fin 32) (c : Conversion) (s : State) : s.keepsTo (execUcConversionComplete ch c s) := by
  unfold execUcConversionComplete
  dsimp only
  (repeat' split) <;> simp

theorem execUcShutdownComplete_keeps (ch : Fin 32) (s : State) : s.keepsTo (execUcShutdownComplete ch s) := by
  unfold execUcShutdownComplete
  simp -implicitDefEqProofs

theorem execUcStartupComplete_keeps (ch : Fin 32) (s : State) : s.keepsTo (execUcStartupComplete ch s) := by simp [execUcStartupComplete]
theorem execUcStoreLow_keeps (ch : Fin 32) (mv : Nat) (s : State) : s.keepsTo (execUcStoreLow ch mv s) := by simp [execUcStoreLow]
theorem execUcStoreRecovered_keeps (ch : Fin 32) (mv : Nat) (s : State) : s.keepsTo (execUcStoreRecovered ch mv s) := by simp [execUcStoreRecovered]

theorem execHartTransactionComplete_keeps (ch : Fin 32) (r : Option (BitVec 16 × List Byte)) (s : State) : s.keepsTo (execHartTransactionComplete ch r s) := by
  unfold execHartTransactionComplete
  dsimp only
  (repeat' split) <;> simp

theorem execHartScanComplete_keeps (ch : Fin 32) (found : List HartFound) (s : State) : s.keepsTo (execHartScanComplete ch found s) := by
  simp [execHartScanComplete]

theorem execHartBurstReceived_keeps (ch : Fin 32) (hi : BitVec 8) (lo : BitVec 32) (frame : List Byte) (s : State) :
    s.keepsTo (execHartBurstReceived ch hi lo frame s) := by
  simp [execHartBurstReceived]

theorem execDiChangeAccepted_keeps (n : Fin 48) (level : Bool) (firstSample : Nat) (s : State) : s.keepsTo (execDiChangeAccepted n level firstSample s) := by
  simp [execDiChangeAccepted]

theorem execPulseEdgeCounted_keeps (n : Fin 16) (rising : Bool) (t : Nat) (s : State) : s.keepsTo (execPulseEdgeCounted n rising t s) := by
  simp [execPulseEdgeCounted]

theorem execCountStagePowerLost_keeps (g : Fin 6) (s : State) : s.keepsTo (execCountStagePowerLost g s) := by
  unfold execCountStagePowerLost
  simp -implicitDefEqProofs

theorem execWireBreak_keeps (n : Fin 48) (s : State) : s.keepsTo (execWireBreak n s) := by simp [execWireBreak]
theorem execWireBreakCleared_keeps (n : Fin 48) (s : State) : s.keepsTo (execWireBreakCleared n s) := by simp [execWireBreakCleared]

theorem execGroupSupplySample_keeps (k : GroupKind) (g : Fin 6) (mv : Nat) (s : State) : s.keepsTo (execGroupSupplySample k g mv s) := by
  simp [execGroupSupplySample]

theorem execGroupLevelClear_keeps (k : GroupKind) (g : Fin 6) (l : GroupLevel) (s : State) : s.keepsTo (execGroupLevelClear k g l s) := by
  unfold execGroupLevelClear
  (repeat' split) <;> simp

theorem execGroupUvlo_keeps (g : Fin 4) (mv : Nat) (s : State) : s.keepsTo (execGroupUvlo g mv s) := by
  unfold execGroupUvlo
  simp -implicitDefEqProofs

theorem execDoOverload_keeps (n : Fin 32) (s : State) : s.keepsTo (execDoOverload n s) := by simp [execDoOverload]
theorem execDoThermalShutdown_keeps (n : Fin 32) (s : State) : s.keepsTo (execDoThermalShutdown n s) := by simp [execDoThermalShutdown]
theorem execDoRetryDue_keeps (n : Fin 32) (cooled : Bool) (s : State) : s.keepsTo (execDoRetryDue n cooled s) := by simp [execDoRetryDue]

theorem execDoFaultCleared_keeps (n : Fin 32) (s : State) : s.keepsTo (execDoFaultCleared n s) := by
  unfold execDoFaultCleared
  dsimp only
  (repeat' split) <;> simp

theorem execOpenLoad_keeps (n : Fin 32) (s : State) : s.keepsTo (execOpenLoad n s) := by simp [execOpenLoad]
theorem execOpenLoadClear_keeps (n : Fin 32) (s : State) : s.keepsTo (execOpenLoadClear n s) := by simp [execOpenLoadClear]
theorem execShortToSupply_keeps (n : Fin 32) (s : State) : s.keepsTo (execShortToSupply n s) := by simp [execShortToSupply]
theorem execShortToSupplyClear_keeps (n : Fin 32) (s : State) : s.keepsTo (execShortToSupplyClear n s) := by simp [execShortToSupplyClear]
theorem execReverse_keeps (n : Fin 32) (above : Bool) (s : State) : s.keepsTo (execReverse n above s) := by simp [execReverse]
theorem execGroupOvercurrent_keeps (g : Fin 4) (ma : Nat) (s : State) : s.keepsTo (execGroupOvercurrent g ma s) := by simp [execGroupOvercurrent]

theorem execGroupOvercurrentCleared_keeps (g : Fin 4) (ma : Nat) (s : State) : s.keepsTo (execGroupOvercurrentCleared g ma s) := by
  simp [execGroupOvercurrentCleared]

theorem execHoldWindowExpiry_keeps (s : State) : s.keepsTo (execHoldWindowExpiry s) := by
  unfold execHoldWindowExpiry
  (repeat' split) <;> simp -implicitDefEqProofs

theorem execSideStreetRefresh_keeps (s : State) : s.keepsTo (execSideStreetRefresh s) := by simp [execSideStreetRefresh]
theorem execCanFrameReceived_keeps (p : Fin 2) (f : CanFrame) (s : State) : s.keepsTo (execCanFrameReceived p f s) := by simp [execCanFrameReceived]

theorem execCanWindowStart_keeps (p : Fin 2) (column : Fin 32) (s : State) : s.keepsTo (execCanWindowStart p column s) := by
  unfold execCanWindowStart
  dsimp only
  have hg : ∀ {a l t o}, s.frameGate p column a l = (t, o) → t.round.sources = s.round.sources := fun {a l t o} e => by
    rw [← s.frameGate_sources p column a l, e]
  split
  · split
    · simp
    · split
      iterate 2
        split
        · next e => simpa using hg e
        · next e => split <;> simpa using hg e
      · split
        · simp
        · split <;> next e => simpa using hg e
      · simp
  · simp

theorem execCanTxComplete_keeps (p : Fin 2) (r : CanTxResult) (t : Nat) (txDelay : Nat) (s : State) : s.keepsTo (execCanTxComplete p r t txDelay s) := by
  unfold execCanTxComplete
  dsimp only
  (repeat' split) <;> simp

theorem execCanQueuedFrameSend_keeps (p : Fin 2) (s : State) : s.keepsTo (execCanQueuedFrameSend p s) := by
  unfold execCanQueuedFrameSend
  dsimp only
  (repeat' split) <;> simp

theorem execBasicCycleStart_keeps (p : Fin 2) (s : State) : s.keepsTo (execBasicCycleStart p s) := by simp [execBasicCycleStart]
theorem execCanRecovered_keeps (p : Fin 2) (s : State) : s.keepsTo (execCanRecovered p s) := by simp [execCanRecovered]
theorem execCanShutdownComplete_keeps (p : Fin 2) (s : State) : s.keepsTo (execCanShutdownComplete p s) := by simp [execCanShutdownComplete]
theorem execCanBusIntegration_keeps (p : Fin 2) (s : State) : s.keepsTo (execCanBusIntegration p s) := by simp [execCanBusIntegration]
theorem execFireInputDelivery_keeps (s : State) : s.keepsTo (execFireInputDelivery s) := by unfold execFireInputDelivery; split <;> simp
theorem execFireTimeoutCheck_keeps (s : State) : s.keepsTo (execFireTimeoutCheck s) := by simp [execFireTimeoutCheck]
theorem execFireActionComplete_keeps (f : Fin 16) (s : State) : s.keepsTo (execFireActionComplete f s) := by simp [execFireActionComplete]
theorem execTripOutputFailed_keeps (o : Fin 24) (s : State) : s.keepsTo (execTripOutputFailed o s) := by simp [execTripOutputFailed]
theorem execFireFrameRepeat_keeps (o : Fin 24) (s : State) : s.keepsTo (execFireFrameRepeat o s) := by simp [execFireFrameRepeat]
theorem execFireArmExpiry_keeps (s : State) : s.keepsTo (execFireArmExpiry s) := by unfold execFireArmExpiry; split <;> simp
theorem execTripCutInput_keeps (asserted : Bool) (s : State) : s.keepsTo (execTripCutInput asserted s) := by simp [execTripCutInput]
theorem execHeartbeatGenerate_keeps (s : State) : s.keepsTo (execHeartbeatGenerate s) := by simp [execHeartbeatGenerate]
theorem execClaimWatchdogExpiry_keeps (s : State) : s.keepsTo (execClaimWatchdogExpiry s) := by simp [execClaimWatchdogExpiry]
theorem execHeartbeatReceived_keeps (path : HbPath) (h : Heartbeat) (s : State) : s.keepsTo (execHeartbeatReceived path h s) := by simp [execHeartbeatReceived]
theorem execHeartbeatSilence_keeps (s : State) : s.keepsTo (execHeartbeatSilence s) := by unfold execHeartbeatSilence; dsimp only; (repeat' split) <;> simp
theorem execPartnerClaimFall_keeps (s : State) : s.keepsTo (execPartnerClaimFall s) := by simp [execPartnerClaimFall]
theorem execTieWithdrawn_keeps (s : State) : s.keepsTo (execTieWithdrawn s) := by simp [execTieWithdrawn]
theorem execClaimLineFault_keeps (sideB : Bool) (s : State) : s.keepsTo (execClaimLineFault sideB s) := by simp [execClaimLineFault]
theorem execLaneLost_keeps (lane : Fin 2) (s : State) : s.keepsTo (execLaneLost lane s) := by simp [execLaneLost]
theorem execCablePresentChange_keeps (present : Bool) (s : State) : s.keepsTo (execCablePresentChange present s) := by simp [execCablePresentChange]
theorem execLedgerReceived_keeps (l : Ledger) (s : State) : s.keepsTo (execLedgerReceived l s) := by unfold execLedgerReceived; (repeat' split) <;> simp
theorem execSyncHoldTimeout_keeps (s : State) : s.keepsTo (execSyncHoldTimeout s) := by simp [execSyncHoldTimeout]
theorem execDiscoveryTimeout_keeps (s : State) : s.keepsTo (execDiscoveryTimeout s) := by simp [execDiscoveryTimeout]
theorem execResyncDone_keeps (s : State) : s.keepsTo (execResyncDone s) := by simp [execResyncDone]
theorem execHandBack_keeps (s : State) : s.keepsTo (execHandBack s) := by unfold execHandBack; split <;> simp
theorem execRehearseResult_keeps (s : State) : s.keepsTo (execRehearseResult s) := by unfold execRehearseResult; split <;> simp
theorem execIntegratorBoundary_keeps (s : State) : s.keepsTo (execIntegratorBoundary s) := by simp [execIntegratorBoundary]
theorem execTotalsSideStreetCommit_keeps (s : State) : s.keepsTo (execTotalsSideStreetCommit s) := by simp [execTotalsSideStreetCommit]

theorem execPageRepairComplete_keeps (array : Fin 8) (bad : List Nat) (unlocated : Nat) (hard : List Nat) (s : State) :
    s.keepsTo (execPageRepairComplete array bad unlocated hard s) := by
  unfold execPageRepairComplete
  dsimp only
  (repeat' split) <;> simp

theorem execBucketLeak_keeps (a : Fin 8) (s : State) : s.keepsTo (execBucketLeak a s) := by simp [execBucketLeak]
theorem execScrubPassComplete_keeps (array : Fin 8) (s : State) : s.keepsTo (execScrubPassComplete array s) := by simp [execScrubPassComplete]
theorem execRecordRaised_keeps (s : State) : s.keepsTo (execRecordRaised s) := by unfold execRecordRaised; split <;> simp
theorem execRecordWrite_keeps (s : State) : s.keepsTo (execRecordWrite s) := by unfold execRecordWrite; dsimp only; (repeat' split) <;> simp
theorem execPanelFrameStart_keeps (s : State) : s.keepsTo (execPanelFrameStart s) := by simp [execPanelFrameStart]
theorem execPanelPowerUpComplete_keeps (s : State) : s.keepsTo (execPanelPowerUpComplete s) := by simp [execPanelPowerUpComplete]
theorem execPanelPowerDownComplete_keeps (s : State) : s.keepsTo (execPanelPowerDownComplete s) := by simp [execPanelPowerDownComplete]

theorem execPanelSupplyFault_keeps (vcol : BitVec 16) (vrow : BitVec 16) (s : State) : s.keepsTo (execPanelSupplyFault vcol vrow s) := by
  simp [execPanelSupplyFault]

theorem execPanelSupplyRecovered_keeps (vcol : BitVec 16) (vrow : BitVec 16) (s : State) : s.keepsTo (execPanelSupplyRecovered vcol vrow s) := by
  simp [execPanelSupplyRecovered]

theorem execPlateWaveformComplete_keeps (s : State) : s.keepsTo (execPlateWaveformComplete s) := by
  unfold execPlateWaveformComplete
  dsimp only
  (repeat' split) <;> simp

theorem execPlateTorn_keeps (vp : BitVec 16) (vn : BitVec 16) (s : State) : s.keepsTo (execPlateTorn vp vn s) := by
  unfold execPlateTorn
  dsimp only
  (repeat' split) <;> simp

theorem execThermalSample_keeps (board : ℤ) (hottest : ℤ) (thermistor : Option ℤ) (s : State) : s.keepsTo (execThermalSample board hottest thermistor s) := by
  simp [execThermalSample]

theorem execRingLinkDown_keeps (p : Fin 2) (s : State) : s.keepsTo (execRingLinkDown p s) := by simp [execRingLinkDown]
theorem execRingLinkUp_keeps (p : Fin 2) (gigabit : Bool) (s : State) : s.keepsTo (execRingLinkUp p gigabit s) := by simp [execRingLinkUp]
theorem execHsrFrameReceived_keeps (p : Fin 2) (f : HsrFrame) (s : State) : s.keepsTo (execHsrFrameReceived p f s) := by simp [execHsrFrameReceived]
theorem execHsrSupervision_keeps (s : State) : s.keepsTo (execHsrSupervision s) := by simp [execHsrSupervision]

theorem execRingTripFrameReceived_keeps (p : Fin 2) (f : TripFrame) (s : State) : s.keepsTo (execRingTripFrameReceived p f s) := by
  simp [execRingTripFrameReceived]

theorem execAnnounceSend_keeps (s : State) : s.keepsTo (execAnnounceSend s) := by simp [execAnnounceSend]

theorem execAnnounceReceived_keeps (address : BitVec 16) (sender : StationSender) (s : State) : s.keepsTo (execAnnounceReceived address sender s) := by
  simp [execAnnounceReceived]

theorem execProvisionalExpiry_keeps (s : State) : s.keepsTo (execProvisionalExpiry s) := by unfold execProvisionalExpiry; split <;> simp
theorem execDuplicateClear_keeps (s : State) : s.keepsTo (execDuplicateClear s) := by unfold execDuplicateClear; split <;> simp
theorem execPtpSyncReceived_keeps (f : PtpSync) (m : PtpMeasured) (s : State) : s.keepsTo (execPtpSyncReceived f m s) := by simp [execPtpSyncReceived]
theorem execPtpSyncTimeout_keeps (s : State) : s.keepsTo (execPtpSyncTimeout s) := by unfold execPtpSyncTimeout; split <;> simp
theorem execModuleTimeStore_keeps (s : State) : s.keepsTo (execModuleTimeStore s) := by simp [execModuleTimeStore]
theorem execSupplyFeedLost_keeps (feed : Fin 2) (mv : Nat) (s : State) : s.keepsTo (execSupplyFeedLost feed mv s) := by simp [execSupplyFeedLost]
theorem execSupplyFeedRestored_keeps (feed : Fin 2) (mv : Nat) (s : State) : s.keepsTo (execSupplyFeedRestored feed mv s) := by simp [execSupplyFeedRestored]
theorem execSupplyLowHold_keeps (mv : Nat) (s : State) : s.keepsTo (execSupplyLowHold mv s) := by simp [execSupplyLowHold]

theorem execFullService_keeps (supplyMv storeMv : Nat) (calFailed : List (Fin 32)) (hardFaults : List (Fin 8 × Nat)) (s : State) :
    s.keepsTo (execFullService supplyMv storeMv calFailed hardFaults s) := by
  unfold execFullService
  dsimp only
  split
  · simp
  · split
    · simp
    · split
      · simp
      · split
        · next h => simp [State.spansWait_sources h]
        · simp

theorem execCanRxError_keeps (p : Fin 2) (k : CanRxError) (s : State) : s.keepsTo (execCanRxError p k s) := by simp [execCanRxError]
theorem execPartnerClaimRise_keeps (s : State) : s.keepsTo (execPartnerClaimRise s) := by simp [execPartnerClaimRise]

theorem execCycleStartToken_keeps (cycle : BitVec 32) (instant : Nat) (s : State) : s.keepsTo (execCycleStartToken cycle instant s) := by
  simp [execCycleStartToken]

theorem execSupFirmwareVerified_keeps (s : State) : s.keepsTo (execSupFirmwareVerified s) := by simp [execSupFirmwareVerified]

theorem execReservedOpcode_keeps (e : Fin 4) (s : State) : s.keepsTo (execReservedOpcode e s) := by
  unfold execReservedOpcode
  refine State.keepsTo_of_ite (by simp) (State.keepsTo_of_ite (by simp) ?_)
  generalize hi : s.holdIssue _ _ _ = w
  cases w with
  | none => simp
  | some u => simpa using State.holdIssue_sources hi

theorem execScrubRead_keeps (array : Fin 8) (addr : Nat) (v : Verdict) (hard : Bool) (s : State) : s.keepsTo (execScrubRead array addr v hard s) := by
  simp [execScrubRead]

end Sys2Proof.Machine
end

/-! # Every source keeps its counts balanced

The fire count of every source is the sum of what was served, what is pending and what was coalesced (R37, R138): each function that changes a
source keeps its counts balanced, and so does every command (O59). -/

section
namespace Sys2Proof.Tab
variable {α : Type}

/-- In the canonical form an entry of the list is what its key reads. -/
theorem get_of_mem [DecidableEq α] {d : α} {t : Tab α} {k : Nat} {v : α} (h : wf d t = true) (hm : (k, v) ∈ t) : get d t k = v := by
  induction t with
  | nil => cases hm
  | cons p t ih =>
    obtain ⟨j, w⟩ := p
    obtain hp | hm := List.mem_cons.mp hm
    · cases hp; simp [get]
    · have hj : j < k := wf_above h _ hm
      have hne : ¬ j = k := by omega
      simpa [get, hne] using ih (wf_tail h) hm

/-- In the canonical form no key is listed twice. -/
theorem keys_nodup [DecidableEq α] {d : α} {t : Tab α} (h : wf d t = true) : (t.map (·.1)).Nodup := by
  induction t with
  | nil => exact List.nodup_nil
  | cons p t ih =>
    refine List.nodup_cons.mpr ⟨fun hp => ?_, ih (wf_tail h)⟩
    obtain ⟨q, hq, he⟩ := List.mem_map.mp hp
    have hlt : p.1 < q.1 := wf_above h q hq
    dsimp only at he
    omega

end Sys2Proof.Tab

namespace Sys2Proof.Machine
open Sys2Proof

/-- Every firing of one source has been served, waits or was coalesced (R138). -/
def Source.balanced (x : Source) : Prop := x.fc = x.sv + BitVec.ofNat 32 (b2n x.p) + x.co

/-- A state with the same sources is accounted for as well. -/
theorem State.accounted.of_sources {s t : State} (h : s.accounted) (e : t.round.sources = s.round.sources) : t.accounted := by
  simpa only [State.accounted, State.source, e] using h

/-- No source has fired yet. -/
theorem State.accounted_of_nil {s : State} (e : s.round.sources = []) : s.accounted := by
  have h : State.reset.accounted := ⟨rfl, fun _ => rfl⟩
  exact h.of_sources e

theorem State.accounted.each {α : Type} {s : State} {f : State → α → State} (h : s.accounted) (l : List α)
    (hf : ∀ s x, s.accounted → (f s x).accounted) : (s.each l f).accounted := by
  induction l generalizing s with
  | nil => exact h
  | cons x l ih => exact ih (hf s x h)

/-- A source that is written balanced leaves the others balanced. -/
theorem State.accounted.setSource {s : State} (h : s.accounted) {n : Nat} {x : Source} (hx : x.balanced) : (s.setSource n x).accounted := by
  refine ⟨Tab.wf_set h.1, fun m => ?_⟩
  by_cases hm : m = n
  · subst hm; rw [State.setSource_same]; exact hx
  · rw [State.setSource_other s x hm]; exact h.2 m

theorem State.accounted.partDone {s : State} (h : s.accounted) (n : Nat) : (s.partDone n).accounted := h.setSource (h.2 n)

/-! ## Taking and delivering (R139, R142, R144) -/

theorem State.accounted.takeBlock {s : State} (h : s.accounted) (n : Nat) (w : Word) : (s.takeBlock n w).accounted := by
  have hpart : ∀ b, (s.modSource n fun x => { x with blockPart := b }).accounted := fun _ => h.setSource (h.2 n)
  unfold State.takeBlock
  split
  · exact h
  · split
    · exact (hpart _).of_sources rfl
    · split
      · exact h.of_sources rfl
      · exact (hpart _).of_sources rfl

/-- A take serves the pending firing (R139). -/
theorem State.accounted.take {s : State} (h : s.accounted) {n : Nat} (hp : (s.source n).p = true) : (s.take n).accounted := by
  have hn : (s.source n).balanced := h.2 n
  unfold State.take
  extract_lets w x subs u v
  have hu : u.accounted := h.setSource (by
    simp only [Source.balanced, x, hp, b2n] at hn ⊢
    rw [hn]
    simp)
  exact (hu.takeBlock n w).of_sources (State.each_sources _ _ _ fun s k => State.notify_sources s n x k)

theorem State.takeBlock_source_other (s : State) {n m : Nat} (w : Word) (h : m ≠ n) : (s.takeBlock n w).source m = s.source m := by
  unfold State.takeBlock
  split
  · rfl
  · split
    · exact State.setSource_other s _ h
    · split
      · rfl
      · exact State.setSource_other s _ h

/-- A take leaves the other sources. -/
theorem State.take_source_other (s : State) {n m : Nat} (h : m ≠ n) : (s.take n).source m = s.source m := by
  unfold State.take
  rw [State.source, State.each_sources _ _ _ fun s k => State.notify_sources s _ _ k]
  exact (State.takeBlock_source_other _ _ h).trans (State.setSource_other s _ h)

theorem State.accounted.takeAll {s : State} (h : s.accounted) {l : List Nat} (hl : l.Nodup) (hp : ∀ n ∈ l, (s.source n).p = true) :
    (s.each l State.take).accounted := by
  induction l generalizing s with
  | nil => exact h
  | cons n l ih =>
    obtain ⟨hn, hl⟩ := List.nodup_cons.mp hl
    refine ih (h.take (hp n List.mem_cons_self)) hl fun m hm => ?_
    rw [s.take_source_other fun (e : m = n) => hn (e ▸ hm)]
    exact hp m (List.mem_cons_of_mem n hm)

/-- A delivery serves the pending firings of its members (R142). -/
theorem State.accounted.deliver {s : State} (h : s.accounted) (g : Nat) : (s.deliver g).accounted := by
  unfold State.deliver
  extract_lets members u
  refine State.accounted.takeAll (s := u) (h.of_sources rfl) ?_ fun n hn => ?_
  · exact (Tab.keys_nodup h.1).sublist (List.filter_sublist.map _)
  · obtain ⟨e, he, rfl⟩ := List.mem_map.mp hn
    obtain ⟨hm, hf⟩ := List.mem_filter.mp he
    simp only [Bool.and_eq_true] at hf
    obtain ⟨⟨-, hp⟩, -⟩ := hf
    have hget : s.source e.1 = e.2 := Tab.get_of_mem h.1 hm
    rw [show u.source e.1 = s.source e.1 from rfl, hget]
    exact hp

theorem State.accounted.countFiring {s : State} (h : s.accounted) (n t : Nat) : (s.countFiring n t).accounted := by
  unfold State.countFiring
  extract_lets w g u
  have hu : u.accounted := h.of_sources rfl
  split
  · exact h
  · split
    · split
      · next hp =>
        rw [Bool.and_eq_true] at hp
        exact h.take hp.1
      · exact h
    · split
      · exact hu.deliver g
      · exact hu

/-- A firing counts, and waits or is coalesced (R138). -/
theorem State.accounted.fireNow {s : State} (h : s.accounted) (n t : Nat) : (s.fireNow n t).accounted := by
  have hn := h.2 n
  refine State.accounted.countFiring (h.setSource ?_) n t
  split
  · simp only [Source.balanced, hn]; ac_nf
  · next hp => simp only [Source.balanced, hn, hp, b2n]; simp; ac_nf

theorem State.accounted.completeTask {s : State} (h : s.accounted) (n : Nat) : (s.completeTask n).accounted := by
  have hs : (s.modSource n fun x => { x with active := false }).accounted := h.setSource (h.2 n)
  unfold State.completeTask
  dsimp only
  split
  · next hp =>
    rw [Bool.and_eq_true] at hp
    split
    · exact hs.deliver _
    · exact hs.take hp.1
  · exact hs

/-! ## Writes of the configuration that fire (R141, R149) -/

theorem State.accounted.landSource {s : State} (h : s.accounted) (n : Nat) (old new : Word) : (s.landSource n old new).accounted := by
  unfold State.landSource
  extract_lets u x
  have hu : u.accounted := by
    simp only [u]
    split
    · exact h
    · exact h.countFiring n s.now
  split
  · exact h
  · split
    · next hx =>
      simp only [Bool.and_eq_true] at hx
      exact hu.take hx.1.1
    · exact hu

theorem State.accounted.landGroup {s : State} (h : s.accounted) (g : Nat) : (s.landGroup g).accounted := by
  unfold State.landGroup
  extract_lets x aged
  split
  · exact h.deliver g
  · exact h

theorem State.accounted.afterWrite {s : State} (h : s.accounted) (i k : Nat) (old new : Word) : (s.afterWrite i k old new).accounted := by
  unfold State.afterWrite
  split
  · exact h.landSource _ _ _
  · split
    · exact h.landGroup k
    · refine h.of_sources ?_
      simp

theorem State.accounted.landWordAt {s : State} (h : s.accounted) (key : Nat) (w : Word) : (s.landWordAt key w).accounted := by
  unfold State.landWordAt
  dsimp only
  split
  · exact h.of_sources (by simp)
  · split
    · exact h.of_sources (by simp)
    · exact State.accounted.afterWrite (h.of_sources (by simp)) _ _ _ _

theorem State.accounted.takeWord {s : State} (h : s.accounted) (i k : Nat) (w : Word) (b : Option (BitVec 32)) : (s.takeWord i k w b).accounted := by
  unfold State.takeWord
  split
  · exact h
  · next q _ =>
    have hr : (s.putRestart (okey i k) q.restartMask w).accounted := h.of_sources (by simp)
    dsimp only
    split
    · exact hr
    · split
      · exact hr
      · exact hr.landWordAt _ _
      · exact hr.of_sources (by simp)
      · split
        · exact hr.of_sources (by simp)
        · split
          · exact hr.landWordAt _ _
          · exact hr

theorem State.accounted.acceptWord {s : State} (h : s.accounted) (i k : Nat) (w : Word) : (s.acceptWord i k w).accounted := by
  unfold State.acceptWord
  extract_lets u
  have hu : u.accounted := h.of_sources (by simp [u])
  split
  · exact hu.takeWord _ _ _ _
  · split
    · exact hu
    · dsimp only
      split
      · exact hu.of_sources (State.queueChange_sources _ _)
      · exact (hu.takeWord _ _ _ _).of_sources (State.tellStandby_sources _ _)

theorem State.accounted.acceptWrites {s : State} (h : s.accounted) (l : List ObjWrite) : (s.acceptWrites l).accounted := by
  unfold State.acceptWrites
  refine State.accounted.of_sources (s := s.each l fun t x => t.acceptWord x.index x.sub x.value) ?_ (by simp; rfl)
  exact h.each l fun t x ht => ht.acceptWord _ _ _

theorem State.accounted.landWords {s : State} (h : s.accounted) (l wait : List (Nat × Word)) : (s.landWords l wait).1.accounted := by
  induction l generalizing s wait with
  | nil => exact h
  | cons e l ih =>
    unfold State.landWords
    extract_lets off
    split
    · exact ih h _
    · exact ih (h.landWordAt e.1 e.2) wait

theorem State.accounted.landPending {s : State} (h : s.accounted) : s.landPending.accounted := by
  unfold State.landPending
  have hr := State.accounted.landWords (s := { s with sup := { s.sup with objPending := [] } }) (h.of_sources rfl) s.sup.objPending []
  exact hr.of_sources rfl

theorem State.accounted.landChange {s : State} (h : s.accounted) (c : Change) (b : BitVec 32) : (s.landChange c b).accounted := by
  unfold State.landChange
  split
  · exact h.takeWord _ _ _ _
  all_goals refine h.of_sources ?_
  case h_9 => split <;> simp
  case h_10 => split <;> simp
  all_goals simp

theorem State.accounted.landChanges {s : State} (h : s.accounted) (c : BitVec 32) : (s.landChanges c).accounted := by
  unfold State.landChanges
  dsimp only
  refine State.accounted.each ?_ _ fun t e ht => ht.landChange e.1 e.2
  exact h.of_sources rfl

theorem State.accounted.boundary {s : State} (h : s.accounted) (c : BitVec 32) : (s.boundary c).accounted := by
  unfold State.boundary
  refine (h.landChanges c).landPending.of_sources ?_
  dsimp only
  split <;> simp

theorem State.accounted.takeObjects {s : State} (h : s.accounted) (l : List (Nat × Word)) : (s.takeObjects l).accounted := by
  unfold State.takeObjects
  extract_lets coeff on clean wait held obj coeffs was keys mram sup u v
  have hu : u.accounted := h.of_sources rfl
  have hv : v.accounted := by
    refine hu.each _ fun t k ht => ?_
    split
    · exact ht.of_sources (by split <;> simp)
    · exact ht.afterWrite _ _ _ _
  refine State.accounted.each hv _ fun t p ht => ht.of_sources ?_
  split
  · rfl
  · exact State.canEnable_sources _ _ _

/-! ## Block parts (R144 to R146) -/

theorem State.accounted.placePart {s : State} (h : s.accounted) (n : Nat) : (s.placePart n).accounted := by
  unfold State.placePart
  split
  · exact h.of_sources rfl
  · split
    · exact h.of_sources rfl
    · exact (h.partDone n).of_sources rfl

theorem State.accounted.receive {s : State} (h : s.accounted) (m : Message) : (s.receive m).accounted := by
  unfold State.receive
  split
  · exact h.placePart _
  · exact h.of_sources (by simp)
  · exact h

theorem State.accounted.sendNext {s : State} (h : s.accounted) (a : Nat) : (s.sendNext a).accounted := by
  unfold State.sendNext
  split
  · exact h
  · refine State.accounted.receive ?_ _
    exact h.of_sources rfl

theorem State.accounted.rehome {s : State} (h : s.accounted) : s.rehome.accounted := by
  unfold State.rehome
  exact State.accounted.each (h.of_sources (by simp -implicitDefEqProofs)) _ fun t n ht => ht.placePart n

theorem State.accounted.enterExecute {s : State} (h : s.accounted) : s.enterExecute.accounted := by
  have hu : State.accounted { s with square := { s.square with phase := .execute, commitBad := [] } } := h.of_sources rfl
  unfold State.enterExecute
  dsimp only
  split
  · exact hu.rehome.of_sources (by simp)
  · exact h.of_sources (by simp -implicitDefEqProofs)

theorem State.accounted.endBlock {s : State} (h : s.accounted) (e : Nat) : (s.endBlock e).accounted := by
  have hp := h.each (s.engine e).serving fun t n ht => ht.partDone n
  unfold State.endBlock
  dsimp only
  split
  all_goals
    split
    · exact hp.of_sources (by simp)
    · exact hp.of_sources (by simp)

theorem State.accounted.returnOrEnd {s : State} (h : s.accounted) (e : Nat) : (s.returnOrEnd e).accounted := by
  unfold State.returnOrEnd
  split
  · exact h.endBlock e
  · exact h.of_sources rfl

/-! ## Starts (R393 to R395): a start clears the Roundabout -/

@[simp] theorem State.restartedOf_sources (s : State) : s.restartedOf.round.sources = [] := rfl
@[simp] theorem State.poweredOf_sources (s : State) : s.poweredOf.round.sources = [] := rfl

theorem State.restartNow_accounted (s : State) (cold : Bool) : (s.restartNow cold).accounted :=
  State.accounted_of_nil (by unfold State.restartNow; simp)

theorem State.restartPowered_accounted (s : State) (mv : Nat) : (s.restartPowered mv).accounted :=
  State.accounted_of_nil (by unfold State.restartPowered; simp)

theorem State.accounted.restartIfLeft {s : State} (h : s.accounted) : s.restartIfLeft.accounted := by
  unfold State.restartIfLeft
  split
  · split
    · exact s.restartNow_accounted _
    · exact h
  · exact h

theorem State.accounted.restartIfDue {s : State} (h : s.accounted) : s.restartIfDue.accounted := by
  unfold State.restartIfDue
  split
  · split
    · exact s.restartNow_accounted _
    · exact h
  · exact h

/-! ## Hold-up (R399 to R407) -/

theorem State.accounted.settleAccepted {s : State} (h : s.accounted) : s.settleAccepted.accounted := by
  have hc : (State.each { s with pair := { s.pair with waitingChanges := [] } } s.pair.waitingChanges fun t e => t.landChange e.1 e.2).accounted := by
    refine State.accounted.each ?_ _ fun t e ht => ht.landChange e.1 e.2
    exact h.of_sources rfl
  unfold State.settleAccepted
  dsimp only
  generalize State.each _ s.pair.waitingChanges _ = c at hc ⊢
  have hw : (State.each { c with sup := { c.sup with objPending := [] } } c.sup.objPending fun t e => t.landWordAt e.1 e.2).accounted := by
    refine State.accounted.each ?_ _ fun t e ht => ht.landWordAt e.1 e.2
    exact hc.of_sources rfl
  generalize State.each _ c.sup.objPending _ = w at hw ⊢
  refine hw.of_sources ?_
  rw [State.each_sources _ _ _ fun _ _ => State.settleLoop_sources _ _]
  split <;> simp

theorem State.accounted.holdupStore {s : State} (h : s.accounted) : s.holdupStore.accounted := by
  unfold State.holdupStore
  split
  · exact h
  · exact h.settleAccepted.of_sources (by simp)

/-! ## The rows that fire, take or start -/

/-- Every next state of an outcome is accounted for. -/
def accountedAfter (o : Out) : Prop := ∀ t, o = .next t → t.accounted

@[simp] theorem accountedAfter_next (t : State) : accountedAfter (.next t) ↔ t.accounted := by simp [accountedAfter]

theorem State.keepsTo.accounted {s : State} {o : Out} (k : s.keepsTo o) (h : s.accounted) : accountedAfter o :=
  fun t ht => h.of_sources (k t ht)

theorem State.accounted.command {s : State} (h : s.accounted) (p : Packet) (d : CmdDesc) {run : Ctx → List Byte → State → State}
    (hr : ∀ c b q, q.accounted → (run c b q).accounted) : accountedAfter (s.command p d run) := by
  have hq := h.of_sources (s.accept_sources p d true)
  unfold State.command
  split
  · simpa using h
  · split
    · next e => rw [e] at hq; simpa using hq
    · next e => rw [e] at hq; simpa using hr _ _ _ hq

theorem State.accounted.issue {s : State} (h : s.accounted) (i : Instr) (clk : Nat) {run : Nat → Nat → State → Except Nat State}
    (touch : Nat → State → List Touch) (hr : ∀ e a q t, q.accounted → run e a q = .ok t → t.accounted) : accountedAfter (s.issue i clk run touch) := by
  intro t ht
  obtain hs | ⟨e, a, q, u, hq, hu, hs⟩ := State.issue_sources ht
  · exact h.of_sources hs
  · exact (hr e a q u (h.of_sources hq) hu).of_sources hs

theorem State.accounted.execWriteObject {s : State} (h : s.accounted) (p : Packet) : accountedAfter (execWriteObject p s) := by
  refine h.command p _ fun c b q hq => ?_
  unfold runWriteObject
  dsimp only
  split
  · exact hq.of_sources (by simp)
  · split
    · exact hq.of_sources (by simp)
    · exact (hq.acceptWrites (objWrites b)).of_sources (by simp)

theorem State.accounted.execChannelMode {s : State} (h : s.accounted) (p : Packet) : accountedAfter (execChannelMode p s) := by
  refine h.command p _ fun c b q hq => ?_
  unfold runChannelMode
  dsimp only
  split; · exact hq.of_sources (by simp)
  split; · exact hq.of_sources (by simp)
  split; · exact hq.of_sources (by simp)
  split; · exact hq.of_sources (by simp)
  split; · exact (hq.acceptWrites [{ index := 0x400 + byteAt b 0, sub := 0, rest := 0, value := modeWord b }]).of_sources (by simp)
  split
  · exact State.accounted.acceptWrites (hq.of_sources (by simp)) _
  · exact (hq.acceptWrites [{ index := 0x400 + byteAt b 0, sub := 0, rest := 0, value := modeWord b }]).of_sources (by simp)

theorem State.accounted.execObjectWrite {s : State} (h : s.accounted) (roles : BitVec 4) (index : BitVec 16) (sub : BitVec 8) (v : Word) :
    accountedAfter (execObjectWrite roles index sub v s) := by
  unfold Machine.execObjectWrite
  dsimp only
  split
  · simpa using h
  · simpa using h.acceptWrites _

theorem State.accounted.execTotalConfigWrite {s : State} (h : s.accounted) (roles : BitVec 4) (t : Fin 64) (sub : BitVec 8) (v : Word) :
    accountedAfter (execTotalConfigWrite roles t sub v s) := by
  unfold Machine.execTotalConfigWrite
  dsimp only
  split
  · simpa using h
  · simpa using h.acceptWrites _

theorem State.accounted.execRestart {s : State} (h : s.accounted) (p : Packet) : accountedAfter (execRestart p s) := by
  refine h.command p _ fun c b q hq => ?_
  unfold runRestart
  dsimp only
  split; · exact hq.of_sources (by simp)
  split
  · exact hq.of_sources (by simp)
  · exact State.restartNow_accounted _ _

theorem State.accounted.execSetPending {s : State} (h : s.accounted) (p : Packet) : accountedAfter (execSetPending p s) := by
  refine h.command p _ fun c b q hq => ?_
  unfold runSetPending
  dsimp only
  split
  · exact hq.of_sources (by simp)
  · exact (hq.fireNow (be16 b 0) q.now).of_sources (by simp)

theorem State.accounted.exchange {s : State} (h : s.accounted) (a : Nat) (l : List Nat) :
    ((s.sendNext a).each l fun s r => s.holdNext a r).accounted :=
  (h.sendNext a).each _ fun _ _ ht => ht.of_sources (State.holdNext_sources _ _ _)

/-- The crossing from `a` to `b` after the receiver took the queue and the offer `o` joined what waits (R25 to R27). -/
def State.offered (s : State) (a b : Fin 21) (o : Option (Fin 4 × Fin 16)) : State :=
  let size := crossingSize a b
  let x := s.crossing (crossingId a b)
  let new : List Message := match o with
    | some (c, n) => if n.val + 1 + size.2 ≤ size.1 then [{ cls := c, slots := n.val + 1, since := s.now, order := s.nextSend, cargo := .other }] else []
    | none => []
  { s.setCrossing (crossingId a b) { waiting := x.waiting ++ new, queued := [], returning := slotsOf x.queued } with nextSend := s.nextSend + 1 }

theorem State.offered_sources (s : State) (a b : Fin 21) (o : Option (Fin 4 × Fin 16)) : (s.offered a b o).round.sources = s.round.sources := rfl

theorem execCrossingMessageSend_ne {a b : Fin 21} (h : (a == b) = false) (o : Option (Fin 4 × Fin 16)) (s : State) :
    Machine.execCrossingMessageSend a b o s = .next (((s.offered a b o).sendNext a).each (List.range 21) fun s r => s.holdNext a r) := by
  unfold Machine.execCrossingMessageSend
  exact if_neg (by simp [h])

theorem State.accounted.execCrossingMessageSend {s : State} (h : s.accounted) (a b : Fin 21) (o : Option (Fin 4 × Fin 16)) :
    accountedAfter (execCrossingMessageSend a b o s) := by
  cases hab : a == b with
  | true => simpa [Machine.execCrossingMessageSend, hab] using h
  | false =>
    rw [execCrossingMessageSend_ne hab, accountedAfter_next]
    exact State.accounted.exchange (h.of_sources (State.offered_sources s a b o)) _ _

theorem State.accounted.execDomainPowerUpComplete {s : State} (h : s.accounted) (d : Fin 12) : accountedAfter (execDomainPowerUpComplete d s) := by
  have hu : (s.domainUp d).accounted := h.of_sources (by simp)
  unfold Machine.execDomainPowerUpComplete
  split
  · simpa using h
  · rw [accountedAfter_next]
    split
    · exact hu
    · exact hu.landPending.of_sources (by simp)

theorem State.accounted.execCycleStart {s : State} (h : s.accounted) : accountedAfter (execCycleStart s) := by
  unfold Machine.execCycleStart
  split
  · simpa using h
  · split
    · next hs => simpa using h.of_sources (State.switchHeld_sources hs)
    · rw [accountedAfter_next]
      refine State.accounted.of_sources (State.accounted.boundary (s := { s.refBack with square := { s.refBack.square with current := s.startCycle } })
        (h.of_sources (by simp)) s.startCycle) ?_
      simp

theorem State.accounted.execFreeze {s : State} (h : s.accounted) : accountedAfter (execFreeze s) := by
  unfold Machine.execFreeze
  split
  · simpa using h
  · split
    · next hs => simpa using h.of_sources (State.freezeHeld_sources hs)
    · dsimp only
      split
      · rw [accountedAfter_next]
        exact State.accounted.enterExecute (h.of_sources (by simp))
      · rw [accountedAfter_next]
        exact h.of_sources (by simp)

theorem State.accounted.execCommit {s : State} (h : s.accounted) : accountedAfter (execCommit s) := by
  unfold Machine.execCommit
  split
  · simpa using h
  · split
    · next hs => simpa using h.of_sources (State.commitHeld_sources hs)
    · rw [accountedAfter_next]
      exact State.accounted.restartIfDue (State.accounted.holdupStore (h.of_sources (by simp)))

theorem State.accounted.execForwardedChange {s : State} (h : s.accounted) (c : Change) (b : BitVec 32) :
    accountedAfter (execForwardedChange c b s) := by
  unfold Machine.execForwardedChange
  split; · simpa using h
  split; · rw [accountedAfter_next]; exact h.of_sources (by simp)
  split; · simpa using h
  split; · rw [accountedAfter_next]; exact State.accounted.landChange (h.of_sources (by simp)) _ _
  split; · rw [accountedAfter_next]; exact h.of_sources (by simp)
  extract_lets u v
  have hv : v.accounted := by
    refine h.of_sources ?_
    simp only [v, State.acknowledged_sources, u]
    split <;> simp
  split
  · rw [accountedAfter_next]; exact hv.landChange _ _
  · rw [accountedAfter_next]; exact hv

theorem State.accounted.execEventFiring {s : State} (h : s.accounted) : accountedAfter (execEventFiring s) := by
  unfold Machine.execEventFiring
  split
  · simpa using h
  · split
    · simpa using h
    · next f rest _ _ =>
      rw [accountedAfter_next]
      have hu : State.accounted { s with round := { s.round with firings := rest } } := h.of_sources rfl
      exact hu.fireNow _ _

theorem State.accounted.execGroupAgeExpiry {s : State} (h : s.accounted) (g : Fin 64) : accountedAfter (execGroupAgeExpiry g s) := by
  unfold Machine.execGroupAgeExpiry
  split
  · split
    · simpa using h.deliver g
    · simpa using h
  · simpa using h

theorem State.accounted.execTaskComplete {s : State} (h : s.accounted) (n : Fin 512) : accountedAfter (execTaskComplete n s) := by
  unfold Machine.execTaskComplete
  dsimp only
  split
  · simpa using h.completeTask n
  · simpa using h

theorem State.accounted.execEnd {s : State} (h : s.accounted) (e : Fin 4) : accountedAfter (execEnd e s) :=
  h.issue _ _ _ fun n _ q t hq ht => by cases ht; exact hq.returnOrEnd n

theorem State.accounted.execRet {s : State} (h : s.accounted) (e : Fin 4) : accountedAfter (execRet e s) :=
  h.issue _ _ _ fun n _ q t hq ht => by cases ht; exact hq.returnOrEnd n

theorem State.accounted.execSev {s : State} (h : s.accounted) (e : Fin 4) (n : BitVec 20) : accountedAfter (execSev e n s) := by
  unfold Machine.execSev
  refine h.issue _ _ _ fun m a q t hq ht => ?_
  have hc : (q.modEngine m Engine.chain).accounted := hq.of_sources rfl
  dsimp only at ht
  split at ht
  · cases ht
  · cases ht
    have hf : (if ((q.engine m).cb || (q.engine m).cbP) && !reservedSource n.toNat then
        (q.modEngine m Engine.chain).fireNow n.toNat (q.modEngine m Engine.chain).now else q.modEngine m Engine.chain).accounted := by
      split
      · exact hc.fireNow _ _
      · exact hc
    split
    · exact hf.of_sources (by simp)
    · exact hf

theorem State.accounted.execPowerFailWarning {s : State} (h : s.accounted) (mv : Nat) : accountedAfter (execPowerFailWarning mv s) := by
  unfold Machine.execPowerFailWarning
  split
  · simpa using h
  · rw [accountedAfter_next]
    exact State.accounted.holdupStore (h.of_sources (by simp))

theorem State.accounted.execHoldupExecuteDeadline {s : State} (h : s.accounted) : accountedAfter (execHoldupExecuteDeadline s) := by
  unfold Machine.execHoldupExecuteDeadline
  split
  · split
    · rw [accountedAfter_next]; exact State.accounted.holdupStore (h.of_sources (by simp))
    · simpa using h
  · simpa using h

theorem State.accounted.execSupplyValid {s : State} (h : s.accounted) (lp1 lp2 : Nat) (b : Option Bool) :
    accountedAfter (execSupplyValid lp1 lp2 b s) := by
  unfold Machine.execSupplyValid
  split
  · simpa using h
  · rw [accountedAfter_next]
    exact State.accounted.of_sources (State.accounted_of_nil (s := s.poweredOf) rfl) (by simp)

theorem State.accounted.execHoldUpComplete {s : State} (h : s.accounted) (mv : Nat) : accountedAfter (execHoldUpComplete mv s) := by
  unfold Machine.execHoldUpComplete
  split
  · simpa using h
  · split
    · simpa using h
    · rw [accountedAfter_next]
      split
      · exact State.restartPowered_accounted _ mv
      · exact h.of_sources (by simp)

theorem State.accounted.execLogicSupplyLost {s : State} (h : s.accounted) : accountedAfter (execLogicSupplyLost s) := by
  unfold Machine.execLogicSupplyLost
  split
  · simpa using h
  · rw [accountedAfter_next]; exact State.accounted_of_nil rfl

theorem State.accounted.execResyncSnapshotReceived {s : State} (h : s.accounted) (x : Snapshot) : accountedAfter (execResyncSnapshotReceived x s) := by
  unfold Machine.execResyncSnapshotReceived
  split
  · simpa using h
  · rw [accountedAfter_next]
    refine State.accounted.of_sources (State.accounted.takeObjects (s := (s.takeBanks x.banks).takeRunning x.runBank x.run)
      (h.of_sources (by simp)) x.objects) ?_
    simp -implicitDefEqProofs

/-- Every command of the model keeps each source accounted for. -/
theorem exec_accounted (i : Instr) {s : State} (hs : s.accounted) : accountedAfter (exec i s) := by
  cases i with
  | identify p => exact (execIdentify_keeps _ _).accounted hs
  | getStatus p => exact (execGetStatus_keeps _ _).accounted hs
  | readObject p => exact (execReadObject_keeps _ _).accounted hs
  | writeObject p => exact hs.execWriteObject p
  | restart p => exact hs.execRestart p
  | enumerate p => exact (execEnumerate_keeps _ _).accounted hs
  | confirmAddress p => exact (execConfirmAddress_keeps _ _).accounted hs
  | programBegin p => exact (execProgramBegin_keeps _ _).accounted hs
  | programData p => exact (execProgramData_keeps _ _).accounted hs
  | programEnd p => exact (execProgramEnd_keeps _ _).accounted hs
  | programSwitch p => exact (execProgramSwitch_keeps _ _).accounted hs
  | runStop p => exact (execRunStop_keeps _ _).accounted hs
  | forceSet p => exact (execForceSet_keeps _ _).accounted hs
  | forceRelease p => exact (execForceRelease_keeps _ _).accounted hs
  | cycleStats p => exact (execCycleStats_keeps _ _).accounted hs
  | readVars p => exact (execReadVars_keeps _ _).accounted hs
  | writeVars p => exact (execWriteVars_keeps _ _).accounted hs
  | subscribe p => exact (execSubscribe_keeps _ _).accounted hs
  | unsubscribe p => exact (execUnsubscribe_keeps _ _).accounted hs
  | setPending p => exact hs.execSetPending p
  | eventSubscribe p => exact (execEventSubscribe_keeps _ _).accounted hs
  | loopEnable p => exact (execLoopEnable_keeps _ _).accounted hs
  | loopDisable p => exact (execLoopDisable_keeps _ _).accounted hs
  | loopWriteCoeff p => exact (execLoopWriteCoeff_keeps _ _).accounted hs
  | loopStage p => exact (execLoopStage_keeps _ _).accounted hs
  | loopCommit p => exact (execLoopCommit_keeps _ _).accounted hs
  | loopRead p => exact (execLoopRead_keeps _ _).accounted hs
  | channelMode p => exact hs.execChannelMode p
  | channelStatus p => exact (execChannelStatus_keeps _ _).accounted hs
  | outputAck p => exact (execOutputAck_keeps _ _).accounted hs
  | hartTransact p => exact (execHartTransact_keeps _ _).accounted hs
  | hartBurstRead p => exact (execHartBurstRead_keeps _ _).accounted hs
  | canEnable p => exact (execCanEnable_keeps _ _).accounted hs
  | canRecover p => exact (execCanRecover_keeps _ _).accounted hs
  | canSend p => exact (execCanSend_keeps _ _).accounted hs
  | canCounters p => exact (execCanCounters_keeps _ _).accounted hs
  | stationStatus p => exact (execStationStatus_keeps _ _).accounted hs
  | pairStatus p => exact (execPairStatus_keeps _ _).accounted hs
  | rehearse p => exact (execRehearse_keeps _ _).accounted hs
  | resync p => exact (execResync_keeps _ _).accounted hs
  | recQuery p => exact (execRecQuery_keeps _ _).accounted hs
  | recUpload p => exact (execRecUpload_keeps _ _).accounted hs
  | recCounters p => exact (execRecCounters_keeps _ _).accounted hs
  | recNote p => exact (execRecNote_keeps _ _).accounted hs
  | panelFrame p => exact (execPanelFrame_keeps _ _).accounted hs
  | panelShow p => exact (execPanelShow_keeps _ _).accounted hs
  | plateUpdate p => exact (execPlateUpdate_keeps _ _).accounted hs
  | panelPower p => exact (execPanelPower_keeps _ _).accounted hs
  | memStatus p => exact (execMemStatus_keeps _ _).accounted hs
  | scrubNow p => exact (execScrubNow_keeps _ _).accounted hs
  | remapRead p => exact (execRemapRead_keeps _ _).accounted hs
  | powerStatus p => exact (execPowerStatus_keeps _ _).accounted hs
  | thermalStatus p => exact (execThermalStatus_keeps _ _).accounted hs
  | fireStatus p => exact (execFireStatus_keeps _ _).accounted hs
  | fireReset p => exact (execFireReset_keeps _ _).accounted hs
  | fireLoad p => exact (execFireLoad_keeps _ _).accounted hs
  | fireArm p => exact (execFireArm_keeps _ _).accounted hs
  | fireConfirm p => exact (execFireConfirm_keeps _ _).accounted hs
  | totalRead p => exact (execTotalRead_keeps _ _).accounted hs
  | totalClose p => exact (execTotalClose_keeps _ _).accounted hs
  | keyInstall p => exact (execKeyInstall_keeps _ _).accounted hs
  | keyRevoke p => exact (execKeyRevoke_keeps _ _).accounted hs
  | keyStatus p => exact (execKeyStatus_keeps _ _).accounted hs
  | fwBegin p => exact (execFwBegin_keeps _ _).accounted hs
  | fwData p => exact (execFwData_keeps _ _).accounted hs
  | fwActivate p => exact (execFwActivate_keeps _ _).accounted hs
  | unknownOpcode p => exact (execUnknownOpcode_keeps _ _).accounted hs
  | objectWrite roles index sub value => exact hs.execObjectWrite roles index sub value
  | totalConfigWrite roles t sub value => exact hs.execTotalConfigWrite roles t sub value
  | rescan ch => exact (execRescan_keeps _ _).accounted hs
  | multiPacketTimeout origin tag => exact (execMultiPacketTimeout_keeps _ _ _).accounted hs
  | replyPacketSend port => exact (execReplyPacketSend_keeps _ _).accounted hs
  | idleClose origin => exact (execIdleClose_keeps _ _).accounted hs
  | windowHoldExpiry origin => exact (execWindowHoldExpiry_keeps _ _).accounted hs
  | subscriptionLeaseExpiry sub => exact (execSubscriptionLeaseExpiry_keeps _ _).accounted hs
  | subDelta sub => exact (execSubDelta_keeps _ _).accounted hs
  | subscriberLeaseExpiry slot => exact (execSubscriberLeaseExpiry_keeps _ _).accounted hs
  | event port => exact (execEvent_keeps _ _).accounted hs
  | crossingMessageSend sender receiver offer => exact hs.execCrossingMessageSend sender receiver offer
  | auditRound faults windows => exact (execAuditRound_keeps _ _ _).accounted hs
  | islandRestartComplete n => exact (execIslandRestartComplete_keeps _ _).accounted hs
  | refClockLost => exact (execRefClockLost_keeps _).accounted hs
  | refClockRestored => exact (execRefClockRestored_keeps _).accounted hs
  | domainPowerUpComplete d => exact hs.execDomainPowerUpComplete d
  | vbusChange present => exact (execVbusChange_keeps _ _).accounted hs
  | cycleStart => exact hs.execCycleStart
  | freeze => exact hs.execFreeze
  | commit => exact hs.execCommit
  | watchdogExpiry => exact (execWatchdogExpiry_keeps _).accounted hs
  | retainPeriod => exact (execRetainPeriod_keeps _).accounted hs
  | nop e => exact (execNop_keeps _ _).accounted hs
  | end_ e => exact hs.execEnd e
  | ld e o => exact (execLd_keeps _ _ _).accounted hs
  | ldn e o => exact (execLdn_keeps _ _ _).accounted hs
  | and_ e o => exact (execAnd_keeps _ _ _).accounted hs
  | andn e o => exact (execAndn_keeps _ _ _).accounted hs
  | or_ e o => exact (execOr_keeps _ _ _).accounted hs
  | orn e o => exact (execOrn_keeps _ _ _).accounted hs
  | xor_ e o => exact (execXor_keeps _ _ _).accounted hs
  | xorn e o => exact (execXorn_keeps _ _ _).accounted hs
  | out e o => exact (execOut_keeps _ _ _).accounted hs
  | setb e o => exact (execSetb_keeps _ _ _).accounted hs
  | clrb e o => exact (execClrb_keeps _ _ _).accounted hs
  | inv e => exact (execInv_keeps _ _).accounted hs
  | cbset e => exact (execCbset_keeps _ _).accounted hs
  | cbclr e => exact (execCbclr_keeps _ _).accounted hs
  | andOpen e => exact (execAndOpen_keeps _ _).accounted hs
  | andnOpen e => exact (execAndnOpen_keeps _ _).accounted hs
  | orOpen e => exact (execOrOpen_keeps _ _).accounted hs
  | ornOpen e => exact (execOrnOpen_keeps _ _).accounted hs
  | xorOpen e => exact (execXorOpen_keeps _ _).accounted hs
  | xornOpen e => exact (execXornOpen_keeps _ _).accounted hs
  | closeBracket e => exact (execCloseBracket_keeps _ _).accounted hs
  | andr e o => exact (execAndr_keeps _ _ _).accounted hs
  | andf e o => exact (execAndf_keeps _ _ _).accounted hs
  | orr e o => exact (execOrr_keeps _ _ _).accounted hs
  | orf e o => exact (execOrf_keeps _ _ _).accounted hs
  | ton e o => exact (execTon_keeps _ _ _).accounted hs
  | tof e o => exact (execTof_keeps _ _ _).accounted hs
  | tp e o => exact (execTp_keeps _ _ _).accounted hs
  | tclr e n => exact (execTclr_keeps _ _ _).accounted hs
  | cup e n => exact (execCup_keeps _ _ _).accounted hs
  | cdn e n => exact (execCdn_keeps _ _ _).accounted hs
  | cld e n => exact (execCld_keeps _ _ _).accounted hs
  | cclr e n => exact (execCclr_keeps _ _ _).accounted hs
  | lw e o v => exact (execLw_keeps _ _ _ _).accounted hs
  | lwi e imm => exact (execLwi_keeps _ _ _).accounted hs
  | sw e o v => exact (execSw_keeps _ _ _ _).accounted hs
  | move e src dst => exact (execMove_keeps _ _ _ _).accounted hs
  | bmove e src dst => exact (execBmove_keeps _ _ _ _).accounted hs
  | swap e => exact (execSwap_keeps _ _).accounted hs
  | add e => exact (execAdd_keeps _ _).accounted hs
  | sub e => exact (execSub_keeps _ _).accounted hs
  | mul e => exact (execMul_keeps _ _).accounted hs
  | div e => exact (execDiv_keeps _ _).accounted hs
  | rem e => exact (execRem_keeps _ _).accounted hs
  | neg e => exact (execNeg_keeps _ _).accounted hs
  | eq_ e => exact (execEq_keeps _ _).accounted hs
  | ne_ e => exact (execNe_keeps _ _).accounted hs
  | gt_ e => exact (execGt_keeps _ _).accounted hs
  | ge_ e => exact (execGe_keeps _ _).accounted hs
  | lt_ e => exact (execLt_keeps _ _).accounted hs
  | le_ e => exact (execLe_keeps _ _).accounted hs
  | jmp e target => exact (execJmp_keeps _ _ _).accounted hs
  | jt e target => exact (execJt_keeps _ _ _).accounted hs
  | jf e target => exact (execJf_keeps _ _ _).accounted hs
  | jov e target => exact (execJov_keeps _ _ _).accounted hs
  | jovs e target => exact (execJovs_keeps _ _ _).accounted hs
  | call e block => exact (execCall_keeps _ _ _).accounted hs
  | callt e block => exact (execCallt_keeps _ _ _).accounted hs
  | ret e => exact hs.execRet e
  | tot e n => exact (execTot_keeps _ _ _).accounted hs
  | sev e n => exact hs.execSev e n
  | eventFiring => exact hs.execEventFiring
  | groupAgeExpiry g => exact hs.execGroupAgeExpiry g
  | taskComplete n => exact hs.execTaskComplete n
  | loopBaseTick => exact (execLoopBaseTick_keeps _).accounted hs
  | ucConversionComplete ch c => exact (execUcConversionComplete_keeps _ _ _).accounted hs
  | ucShutdownComplete ch => exact (execUcShutdownComplete_keeps _ _).accounted hs
  | ucStartupComplete ch => exact (execUcStartupComplete_keeps _ _).accounted hs
  | ucStoreLow ch mv => exact (execUcStoreLow_keeps _ _ _).accounted hs
  | ucStoreRecovered ch mv => exact (execUcStoreRecovered_keeps _ _ _).accounted hs
  | hartTransactionComplete ch reply => exact (execHartTransactionComplete_keeps _ _ _).accounted hs
  | hartScanComplete ch found => exact (execHartScanComplete_keeps _ _ _).accounted hs
  | hartBurstReceived ch longHi longLo frame => exact (execHartBurstReceived_keeps _ _ _ _ _).accounted hs
  | diChangeAccepted n level firstSample => exact (execDiChangeAccepted_keeps _ _ _ _).accounted hs
  | pulseEdgeCounted n rising at_ => exact (execPulseEdgeCounted_keeps _ _ _ _).accounted hs
  | countStagePowerLost g => exact (execCountStagePowerLost_keeps _ _).accounted hs
  | wireBreak n => exact (execWireBreak_keeps _ _).accounted hs
  | wireBreakCleared n => exact (execWireBreakCleared_keeps _ _).accounted hs
  | groupSupplySample k g mv => exact (execGroupSupplySample_keeps _ _ _ _).accounted hs
  | groupLevelClear k g l => exact (execGroupLevelClear_keeps _ _ _ _).accounted hs
  | groupUvlo g mv => exact (execGroupUvlo_keeps _ _ _).accounted hs
  | doOverload n => exact (execDoOverload_keeps _ _).accounted hs
  | doThermalShutdown n => exact (execDoThermalShutdown_keeps _ _).accounted hs
  | doRetryDue n cooled => exact (execDoRetryDue_keeps _ _ _).accounted hs
  | doFaultCleared n => exact (execDoFaultCleared_keeps _ _).accounted hs
  | openLoad n => exact (execOpenLoad_keeps _ _).accounted hs
  | openLoadClear n => exact (execOpenLoadClear_keeps _ _).accounted hs
  | shortToSupply n => exact (execShortToSupply_keeps _ _).accounted hs
  | shortToSupplyClear n => exact (execShortToSupplyClear_keeps _ _).accounted hs
  | reverse n above => exact (execReverse_keeps _ _ _).accounted hs
  | groupOvercurrent g ma => exact (execGroupOvercurrent_keeps _ _ _).accounted hs
  | groupOvercurrentCleared g ma => exact (execGroupOvercurrentCleared_keeps _ _ _).accounted hs
  | holdWindowExpiry => exact (execHoldWindowExpiry_keeps _).accounted hs
  | sideStreetRefresh => exact (execSideStreetRefresh_keeps _).accounted hs
  | canFrameReceived p f => exact (execCanFrameReceived_keeps _ _ _).accounted hs
  | canWindowStart p column => exact (execCanWindowStart_keeps _ _ _).accounted hs
  | canTxComplete p result at_ txDelay => exact (execCanTxComplete_keeps _ _ _ _ _).accounted hs
  | canQueuedFrameSend p => exact (execCanQueuedFrameSend_keeps _ _).accounted hs
  | basicCycleStart p => exact (execBasicCycleStart_keeps _ _).accounted hs
  | canRecovered p => exact (execCanRecovered_keeps _ _).accounted hs
  | canShutdownComplete p => exact (execCanShutdownComplete_keeps _ _).accounted hs
  | canBusIntegration p => exact (execCanBusIntegration_keeps _ _).accounted hs
  | fireInputDelivery => exact (execFireInputDelivery_keeps _).accounted hs
  | fireTimeoutCheck => exact (execFireTimeoutCheck_keeps _).accounted hs
  | fireActionComplete f => exact (execFireActionComplete_keeps _ _).accounted hs
  | tripOutputFailed o => exact (execTripOutputFailed_keeps _ _).accounted hs
  | fireFrameRepeat o => exact (execFireFrameRepeat_keeps _ _).accounted hs
  | fireArmExpiry => exact (execFireArmExpiry_keeps _).accounted hs
  | tripCutInput asserted => exact (execTripCutInput_keeps _ _).accounted hs
  | heartbeatGenerate => exact (execHeartbeatGenerate_keeps _).accounted hs
  | claimWatchdogExpiry => exact (execClaimWatchdogExpiry_keeps _).accounted hs
  | heartbeatReceived path h => exact (execHeartbeatReceived_keeps _ _ _).accounted hs
  | heartbeatSilence => exact (execHeartbeatSilence_keeps _).accounted hs
  | partnerClaimFall => exact (execPartnerClaimFall_keeps _).accounted hs
  | tieWithdrawn => exact (execTieWithdrawn_keeps _).accounted hs
  | claimLineFault sideB => exact (execClaimLineFault_keeps _ _).accounted hs
  | laneLost lane => exact (execLaneLost_keeps _ _).accounted hs
  | cablePresentChange present => exact (execCablePresentChange_keeps _ _).accounted hs
  | ledgerReceived l => exact (execLedgerReceived_keeps _ _).accounted hs
  | syncHoldTimeout => exact (execSyncHoldTimeout_keeps _).accounted hs
  | forwardedChange c boundary => exact hs.execForwardedChange c boundary
  | discoveryTimeout => exact (execDiscoveryTimeout_keeps _).accounted hs
  | resyncDone => exact (execResyncDone_keeps _).accounted hs
  | handBack => exact (execHandBack_keeps _).accounted hs
  | rehearseResult => exact (execRehearseResult_keeps _).accounted hs
  | integratorBoundary => exact (execIntegratorBoundary_keeps _).accounted hs
  | totalsSideStreetCommit => exact (execTotalsSideStreetCommit_keeps _).accounted hs
  | pageRepairComplete array bad unlocated hard => exact (execPageRepairComplete_keeps _ _ _ _ _).accounted hs
  | bucketLeak array => exact (execBucketLeak_keeps _ _).accounted hs
  | scrubPassComplete array => exact (execScrubPassComplete_keeps _ _).accounted hs
  | recordRaised => exact (execRecordRaised_keeps _).accounted hs
  | recordWrite => exact (execRecordWrite_keeps _).accounted hs
  | panelFrameStart => exact (execPanelFrameStart_keeps _).accounted hs
  | panelPowerUpComplete => exact (execPanelPowerUpComplete_keeps _).accounted hs
  | panelPowerDownComplete => exact (execPanelPowerDownComplete_keeps _).accounted hs
  | panelSupplyFault vcol vrow => exact (execPanelSupplyFault_keeps _ _ _).accounted hs
  | panelSupplyRecovered vcol vrow => exact (execPanelSupplyRecovered_keeps _ _ _).accounted hs
  | plateWaveformComplete => exact (execPlateWaveformComplete_keeps _).accounted hs
  | plateTorn vp vn => exact (execPlateTorn_keeps _ _ _).accounted hs
  | thermalSample board hottest thermistor => exact (execThermalSample_keeps _ _ _ _).accounted hs
  | ringLinkDown p => exact (execRingLinkDown_keeps _ _).accounted hs
  | ringLinkUp p gigabit => exact (execRingLinkUp_keeps _ _ _).accounted hs
  | hsrFrameReceived p f => exact (execHsrFrameReceived_keeps _ _ _).accounted hs
  | hsrSupervision => exact (execHsrSupervision_keeps _).accounted hs
  | ringTripFrameReceived p f => exact (execRingTripFrameReceived_keeps _ _ _).accounted hs
  | announceSend => exact (execAnnounceSend_keeps _).accounted hs
  | announceReceived address sender => exact (execAnnounceReceived_keeps _ _ _).accounted hs
  | provisionalExpiry => exact (execProvisionalExpiry_keeps _).accounted hs
  | duplicateClear => exact (execDuplicateClear_keeps _).accounted hs
  | ptpSyncReceived f m => exact (execPtpSyncReceived_keeps _ _ _).accounted hs
  | ptpSyncTimeout => exact (execPtpSyncTimeout_keeps _).accounted hs
  | moduleTimeStore => exact (execModuleTimeStore_keeps _).accounted hs
  | supplyValid lp1 lp2 sideB => exact hs.execSupplyValid lp1 lp2 sideB
  | supplyFeedLost feed mv => exact (execSupplyFeedLost_keeps _ _ _).accounted hs
  | supplyFeedRestored feed mv => exact (execSupplyFeedRestored_keeps _ _ _).accounted hs
  | supplyLowHold mv => exact (execSupplyLowHold_keeps _ _).accounted hs
  | fullService supplyMv storeMv calFailed hardFaults => exact (execFullService_keeps _ _ _ _ _).accounted hs
  | powerFailWarning mv => exact hs.execPowerFailWarning mv
  | holdupExecuteDeadline => exact hs.execHoldupExecuteDeadline
  | holdUpComplete supplyMv => exact hs.execHoldUpComplete supplyMv
  | canRxError p k => exact (execCanRxError_keeps _ _ _).accounted hs
  | partnerClaimRise => exact (execPartnerClaimRise_keeps _).accounted hs
  | cycleStartToken cycle instant => exact (execCycleStartToken_keeps _ _ _).accounted hs
  | supFirmwareVerified => exact (execSupFirmwareVerified_keeps _).accounted hs
  | resyncSnapshotReceived x => exact hs.execResyncSnapshotReceived x
  | reservedOpcode e => exact (execReservedOpcode_keeps _ _).accounted hs
  | scrubRead array addr v hard => exact (execScrubRead_keeps _ _ _ _ _).accounted hs
  | logicSupplyLost => exact hs.execLogicSupplyLost

theorem stepAccounted {s : State} (h : s.accounted) : accountedAfter (step s) := by
  unfold step
  split
  · exact (accountedAfter_next _).2 (State.accounted.restartIfLeft (h.of_sources (by simp)))
  · next i rest _ =>
    have hq : State.accounted { s with pending := rest } := h.of_sources rfl
    exact exec_accounted i hq

/-- Settles O59: only the firings, the deliveries, the tasks' ends and the landings touch the sources, and each of them keeps every source's counts
balanced; every other command leaves the sources as they were. -/
theorem firingsAccounted : Obligations.FiringsAccounted := fun _ t h ht => stepAccounted h t ht

end Sys2Proof.Machine
end

/-! # SEV reaches the supervisor

A source that is served at once (R138, R139) queues a notification for each subscriber, and each notification counts in the supervisor's order of
replies: the SEV that fired the source has changed the supervisor, which the statement leaves as it was. -/

section
namespace Sys2Proof.Machine
open Sys2Proof

/-- A module in execute whose engine 0, with CB = 1, stands at SEV with END after it; source 5 is enabled and not grouped, and slot 0 subscribes to it. -/
def beforeSev : State :=
  { service := .full, square := { phase := .execute, prog := .run, current := 9, freezeAt := 1000000 }
    mram := { obj := [(okey 0x200 5, 0x80000000), (okey 0x202 5, 1)]
              banks := [(0, { state := .running, words := 2, code := [(0, 0x71000005), (1, 0x01000000)]
                              desc := { blocks := [{ number := 0, engine := 0, event := none, first := 0, length := 2 }] } })] }
    round := { slots := [(0, { inUse := true })] }
    engines := [(0, { running := true, block := 0, chs := true, cb := true })] }

set_option maxRecDepth 100000 in
theorem exec_sev_ready : ∃ t, exec (.sev 0 5) beforeSev = .next t ∧ t.sup.ready = 1 := ⟨_, rfl, by decide⟩

theorem encodeEngine_sev : (encodeEngine (.sev 0 5)).isSome = true := by decide

/-- Refutes O60: a SEV whose source has a subscriber hands the supervisor a notification, and the supervisor's count of what is ready goes from 0 to 1. -/
theorem not_enginesAreConfined : ¬ Obligations.EnginesAreConfined := by
  unfold Obligations.EnginesAreConfined
  intro h
  obtain ⟨t, ht, hready⟩ := exec_sev_ready
  obtain ⟨hframe, -, -⟩ := h beforeSev t (.sev 0 5) encodeEngine_sev ht
  have hsup : t.sup.ready = 0 := by rw [hframe]; rfl
  omega

end Sys2Proof.Machine
end

/-! # One exchange over a crossing

A crossing that is written twice holds what was written last; a sender with one message waiting sends that message or none, and holds it where its
credits do not pay for it (R25 to R29). -/

section
namespace Sys2Proof.Tab

variable {α : Type}

/-- The later of two entries put in one place stays. -/
theorem put_put (t : Tab α) (k : Nat) (v w : α) : put (put t k v) k w = put t k w := by
  induction t with
  | nil => simp [put]
  | cons p t ih =>
    obtain ⟨j, x⟩ := p
    rcases lt_trichotomy k j with h | h | h
    · simp [put, h]
    · simp [put, h]
    · simp [put, Nat.not_lt_of_gt h, h.ne, ih]

end Sys2Proof.Tab

namespace Sys2Proof.Machine
open Sys2Proof

theorem State.setCrossing_setCrossing (s : State) (i : Nat) {x y : Crossing} (hx : x ≠ {}) (hy : y ≠ {}) :
    (s.setCrossing i x).setCrossing i y = s.setCrossing i y := by
  simp [State.setCrossing, Tab.set, hx, hy, Tab.put_put]

/-- A sweep in which one number alone finds something to do does that. -/
theorem State.each_of_one {s t : State} {l : List Nat} {f : State → Nat → State} {b : Nat} (hb : b ∈ l) (hl : l.Nodup) (hf : f s b = t)
    (hs : ∀ r ∈ l, r ≠ b → f s r = s) (ht : ∀ r ∈ l, r ≠ b → f t r = t) : s.each l f = t := by
  obtain ⟨k, m, rfl⟩ := List.append_of_mem hb
  obtain ⟨-, hbm, hkm⟩ := List.nodup_append.mp hl
  have hk : s.each k f = s := s.each_eq_self k f fun r hr => hs r (by simp [hr]) (hkm r hr b (by simp))
  have hm : t.each m f = t := t.each_eq_self m f fun r hr => ht r (by simp [hr]) fun h => (List.nodup_cons.mp hbm).1 (h ▸ hr)
  unfold State.each at *
  rw [List.foldl_append, hk, List.foldl_cons, hf, hm]

/-! ## Sending and holding -/

theorem State.sendable_idle {s : State} {a r : Nat} (h : (s.crossing (crossingId a r)).waiting = []) : s.sendable a r = none := by
  simp [State.sendable, h, nextMessage]

theorem State.sendable_one {s : State} {a r : Nat} {m : Message} (h : (s.crossing (crossingId a r)).waiting = [m]) :
    s.sendable a r = if (s.crossing (crossingId a r)).mayPay (crossingSize a r) m then some (r, m, []) else none := by
  simp [State.sendable, h, nextMessage]

theorem State.sendNext_of_none {s : State} {a : Nat} (h : ∀ r < 21, s.sendable a r = none) : s.sendNext a = s := by
  have hl : (List.range 21).filterMap (s.sendable a) = [] := by simpa [List.filterMap_eq_nil_iff] using h
  simp only [State.sendNext, hl, soonest]

/-- Where one receiver alone can be sent to, its message goes. -/
theorem State.sendNext_of_one {s : State} {a b : Nat} {m : Message} {rest : List Message} (hb : b < 21) (h : s.sendable a b = some (b, m, rest))
    (hr : ∀ r < 21, r ≠ b → s.sendable a r = none) :
    s.sendNext a = (s.modCrossing (crossingId a b) fun x => { x with waiting := rest, queued := x.queued ++ [m] }).receive m := by
  have hl : (List.range 21).filterMap (s.sendable a) = [(b, m, rest)] := by
    obtain ⟨k, l, hkl⟩ := List.append_of_mem (List.mem_range.mpr hb)
    obtain ⟨-, hbl, hd⟩ := List.nodup_append.mp (hkl ▸ List.nodup_range (n := 21))
    have hlt : ∀ r, r ∈ k ∨ r = b ∨ r ∈ l → r < 21 := fun r hr => by
      rw [← List.mem_range, hkl]; simpa using hr
    have hk : k.filterMap (s.sendable a) = [] :=
      List.filterMap_eq_nil_iff.mpr fun r hm => hr r (hlt r (Or.inl hm)) (hd r hm b (by simp))
    have hm : l.filterMap (s.sendable a) = [] :=
      List.filterMap_eq_nil_iff.mpr fun r hm => hr r (hlt r (Or.inr (Or.inr hm))) fun e => (List.nodup_cons.mp hbl).1 (e ▸ hm)
    rw [hkl, List.filterMap_append, List.filterMap_cons, h, hk, hm]
    rfl
  simp only [State.sendNext, hl, soonest]

theorem State.holdNext_idle {s : State} {a r : Nat} (h : (s.crossing (crossingId a r)).waiting = []) : s.holdNext a r = s := by
  simp [State.holdNext, h, nextMessage]

theorem State.holdNext_unpaid {s : State} {a r : Nat} {m : Message} (h : (s.crossing (crossingId a r)).waiting = [m])
    (hp : (s.crossing (crossingId a r)).mayPay (crossingSize a r) m = false) (hm : m.held = false) :
    s.holdNext a r =
      let t := s.setCrossing (crossingId a r) { s.crossing (crossingId a r) with waiting := [{ m with held := true }] }
      if m.cls = 1 && a < 20 then t.modIsland a fun i => { i with stalls := satInc i.stalls } else t := by
  simp [State.holdNext, h, nextMessage, hp, hm]

/-! ## The exchange of a sender for which one crossing alone has a message -/

section

variable {u : State} {a b : Nat} {y : Crossing} {m : Message}

theorem crossingId_ne {a b r : Nat} (h : r ≠ b) : crossingId a r ≠ crossingId a b := by
  unfold crossingId
  omega

/-- Nothing waits on another crossing of the sender, whatever the one for `b` holds. -/
theorem State.setCrossing_idle (hidle : ∀ r < 21, (u.crossing (crossingId a r)).waiting = []) (y : Crossing) {r : Nat} (hr : r < 21) (hne : r ≠ b) :
    ((u.setCrossing (crossingId a b) y).crossing (crossingId a r)).waiting = [] := by
  rw [State.setCrossing_other _ _ (crossingId_ne hne)]
  exact hidle r hr

theorem State.exchange_paid (hb : b < 21) (hidle : ∀ r < 21, (u.crossing (crossingId a r)).waiting = []) (hy : y.waiting = [m])
    (hpay : y.mayPay (crossingSize a b) m = true) (hm : m.cargo = .other) :
    (((u.setCrossing (crossingId a b) y).sendNext a).each (List.range 21) fun s r => s.holdNext a r) =
      u.setCrossing (crossingId a b) { y with waiting := [], queued := y.queued ++ [m] } := by
  have hsent : (u.setCrossing (crossingId a b) y).sendNext a = u.setCrossing (crossingId a b) { y with waiting := [], queued := y.queued ++ [m] } := by
    have hyes : (u.setCrossing (crossingId a b) y).sendable a b = some (b, m, []) := by
      rw [State.sendable_one (m := m) (by simp [hy]), State.setCrossing_same, if_pos hpay]
    rw [State.sendNext_of_one hb hyes fun r hr hne => State.sendable_idle (State.setCrossing_idle hidle y hr hne), State.modCrossing_def,
      State.setCrossing_same, State.setCrossing_setCrossing _ _ (fun h => by simp [h] at hy) (by simp), State.receive, hm]
  rw [hsent]
  refine State.each_eq_self _ _ _ fun r hr => State.holdNext_idle ?_
  by_cases hrb : r = b
  · rw [hrb, State.setCrossing_same]
  · exact State.setCrossing_idle hidle _ (List.mem_range.mp hr) hrb

theorem State.exchange_unpaid (hb : b < 21) (hidle : ∀ r < 21, (u.crossing (crossingId a r)).waiting = []) (hy : y.waiting = [m])
    (hpay : y.mayPay (crossingSize a b) m = false) (hm : m.held = false) :
    (((u.setCrossing (crossingId a b) y).sendNext a).each (List.range 21) fun s r => s.holdNext a r) =
      let t := u.setCrossing (crossingId a b) { y with waiting := [{ m with held := true }] }
      if m.cls = 1 && a < 20 then t.modIsland a fun i => { i with stalls := satInc i.stalls } else t := by
  have hnone : (u.setCrossing (crossingId a b) y).sendNext a = u.setCrossing (crossingId a b) y := State.sendNext_of_none fun r hr => by
    by_cases hrb : r = b
    · rw [hrb, State.sendable_one (m := m) (by simp [hy]), State.setCrossing_same, hpay, if_neg (by simp)]
    · exact State.sendable_idle (State.setCrossing_idle hidle y hr hrb)
  have hhold := State.holdNext_unpaid (s := u.setCrossing (crossingId a b) y) (a := a) (r := b) (m := m) (by simp [hy]) (by simpa using hpay) hm
  rw [State.setCrossing_same, State.setCrossing_setCrossing _ _ (fun h => by simp [h] at hy) (by simp)] at hhold
  rw [hnone]
  refine State.each_of_one (List.mem_range.mpr hb) List.nodup_range hhold (fun r hr hne => ?_) fun r hr hne => State.holdNext_idle ?_
  · exact State.holdNext_idle (State.setCrossing_idle hidle y (List.mem_range.mp hr) hne)
  · rw [apply_ite (fun t : State => (t.crossing (crossingId a r)).waiting)]
    have hset := State.setCrossing_idle hidle { y with waiting := [{ m with held := true }] } (List.mem_range.mp hr) hne
    split
    · exact hset
    · exact hset

end

/-! ## The offer -/

/-- The message that an offer of class `cls` and `n` + 1 slots queues. -/
def State.offer (s : State) (cls : Fin 4) (n : Fin 16) : Message :=
  { cls := cls, slots := n.val + 1, since := s.now, order := s.nextSend, cargo := .other }

/-- An offer that the crossing can hold waits alone where nothing waited before it. -/
theorem State.offered_idle {s : State} {a b : Fin 21} {cls : Fin 4} {n : Fin 16} (hn : n.val + 1 + (crossingSize a b).2 ≤ (crossingSize a b).1)
    (hw : (s.crossing (crossingId a b)).waiting = []) :
    s.offered a b (some (cls, n)) = State.setCrossing { s with nextSend := s.nextSend + 1 } (crossingId a b)
      { waiting := [s.offer cls n], queued := [], returning := slotsOf (s.crossing (crossingId a b)).queued } := by
  simp only [State.offered, hn, hw, if_true, List.nil_append]
  rfl

theorem exec_crossingMessageSend (a b : Fin 21) (o : Option (Fin 4 × Fin 16)) (s : State) :
    exec (.crossingMessageSend a b o) s = execCrossingMessageSend a b o s := rfl

theorem offer_mayPay (s : State) (cls : Fin 4) (n : Fin 16) (size : Nat × Nat) (r : Nat) :
    Crossing.mayPay { waiting := [s.offer cls n], queued := [], returning := r } size (s.offer cls n) =
      decide ((if cls.val = 0 then n.val + 1 else n.val + 1 + size.2) ≤ size.1 - r) := by
  simp only [Crossing.mayPay, Crossing.credits, State.offer, slotsOf, List.map_nil, List.sum_nil, Nat.sub_zero]
  split <;> rfl

/-- Settles O50: with one message waiting at the sender, the exchange sends it where the credits pay, and else holds it. -/
theorem crossingRows : Obligations.CrossingRows := by
  unfold Obligations.CrossingRows
  intro s a b cls n hab size x m u hn hw
  have hexec := execCrossingMessageSend_ne (beq_eq_false_iff_ne.mpr hab) (some (cls, n)) s
  rw [State.offered_idle hn (hw b b.isLt), ← exec_crossingMessageSend] at hexec
  have hpay := offer_mayPay s cls n size (slotsOf x.queued)
  have hidle : ∀ r < 21, (u.crossing (crossingId a r)).waiting = [] := hw
  refine ⟨fun hp => ?_, fun hp hcls => ?_, fun hp hcls => ?_⟩
  · rw [hexec, State.exchange_paid (u := u) b.isLt hidle rfl (hpay.trans (decide_eq_true hp)) rfl]
    rfl
  · rw [hexec, State.exchange_unpaid (u := u) b.isLt hidle rfl (hpay.trans (decide_eq_false (Nat.not_le_of_gt hp))) rfl]
    simp [State.offer, hcls, m, x]
  · rw [hexec, State.exchange_unpaid (u := u) b.isLt hidle rfl (hpay.trans (decide_eq_false (by simpa [hcls] using hp))) rfl]
    simp [State.offer, hcls, m, x]

end Sys2Proof.Machine
end

/-! # Bit stores

OUT, SETB and CLRB are one operation with a value, a mark and a condition: the bit is written where the write lands, the chain ends, and the store is
posted where it is made (R111, R114, R115). What the write itself may do is one of four cases: refused, forced, another engine's, landed. -/

section
namespace Sys2Proof.Machine
open Sys2Proof

/-! ## The write of a bit (R86, R97, R108) -/

section

variable {s : State} {e : Fin 4} {o : Operand}

theorem State.writeBit_refused (h : (mayWriteBit o.area (Operand.place o).1 && (s.wordAddr .work o.area (Operand.place o).1).isSome) = false) (v p : Bool) :
    s.writeBit e o v p = none := by
  simp [State.writeBit, h]

theorem State.writeBit_forced (h : (mayWriteBit o.area (Operand.place o).1 && (s.wordAddr .work o.area (Operand.place o).1).isSome) = true)
    (hf : (s.forceOn o.area (Operand.place o).1).isSome = true) (v p : Bool) : s.writeBit e o v p = some s := by
  simp only [State.writeBit, h, State.guardWrite, hf, if_true]

theorem State.writeBit_foreign (h : (mayWriteBit o.area (Operand.place o).1 && (s.wordAddr .work o.area (Operand.place o).1).isSome) = true)
    (hf : s.forceOn o.area (Operand.place o).1 = none) (ho : s.owner o.area (Operand.place o).1 ≠ some e) (v p : Bool) :
    s.writeBit e o v p = some (s.ownershipFault e o.area (Operand.place o).1) := by
  have hval : ¬ (s.owner o.area (Operand.place o).1).map (·.val) = some e.val := fun hm => by
    obtain ⟨f, hf, he⟩ := Option.map_eq_some_iff.mp hm
    exact ho (hf.trans (congrArg some (Fin.ext he)))
  simp only [State.writeBit, h, State.guardWrite, hf, hval, if_true, if_false, Option.isSome_none, Bool.false_eq_true]

@[simp] theorem State.ownershipFault_mram (s : State) (e : Nat) (a : Area) (w : Nat) : (s.ownershipFault e a w).mram = s.mram := by
  simp [State.ownershipFault, State.raiseFrom]

@[simp] theorem State.ownershipFault_engines (s : State) (e : Nat) (a : Area) (w : Nat) : (s.ownershipFault e a w).engines = s.engines := by
  simp [State.ownershipFault, State.raiseFrom]

theorem State.putWorkBit_mram (s : State) (a : Area) (w b : Nat) (v p : Bool) : (s.putWorkBit a w b v p).mram = s.mram := by
  unfold State.putWorkBit
  split <;> rfl

theorem State.putWorkBit_engines (s : State) (a : Area) (w b : Nat) (v p : Bool) : (s.putWorkBit a w b v p).engines = s.engines := by
  unfold State.putWorkBit
  split <;> rfl

/-- Whatever becomes of the write, the image and the engines stay. -/
theorem State.writeBit_keeps {u : State} {v p : Bool} (h : s.writeBit e o v p = some u) : u.mram = s.mram ∧ u.engines = s.engines := by
  unfold State.writeBit at h
  dsimp only at h
  split at h
  · cases h
    unfold State.guardWrite
    split
    · exact ⟨rfl, rfl⟩
    · split
      · exact ⟨State.putWorkBit_mram .., State.putWorkBit_engines ..⟩
      · exact ⟨State.ownershipFault_mram .., State.ownershipFault_engines ..⟩
  · cases h

end

/-! ## The store on its way (R28, R29, R115) -/

/-- The store of `e` goes at once: its credits pay for it, and no message waits before it. -/
def State.storeGoes (s : State) (e : Nat) : Bool :=
  (s.crossing (crossingId e 6)).mayPay (crossingSize e 6) storeMessage && !(s.crossing (crossingId e 6)).ahead

theorem State.posted_goes {s : State} {e : Nat} (h : s.storeGoes e = true) : s.posted e = s := if_pos h

theorem State.posted_held {s : State} {e : Nat} (h : s.storeGoes e = false) :
    s.posted e = ((s.busy e (Config.storeWait s.freeCount)).modIsland e fun i => { i with stalls := satInc i.stalls }).draw :=
  if_neg (by simpa [State.storeGoes] using h)

theorem crossingSize_store (e : Fin 4) : crossingSize e 6 = (32, 2) := by
  revert e
  decide

theorem State.storeGoes_iff (s : State) (e : Fin 4) : s.storeGoes e = true ↔
    3 ≤ 32 - slotsOf (s.crossing (crossingId e 6)).queued - (s.crossing (crossingId e 6)).returning ∧
      ¬ ∃ m ∈ (s.crossing (crossingId e 6)).waiting, m.cls ≤ 1 := by
  simp [State.storeGoes, Crossing.mayPay, Crossing.credits, Crossing.ahead, storeMessage, crossingSize_store]

@[simp] theorem State.posted_mram (s : State) (e : Nat) : (s.posted e).mram = s.mram := by
  unfold State.posted
  dsimp only
  split <;> rfl

/-- A held store costs its engine clocks and nothing else. -/
theorem State.posted_engine (s : State) (e : Nat) : ∃ c, (s.posted e).engine e = { s.engine e with clocks := c } := by
  cases h : s.storeGoes e
  · rw [State.posted_held h]
    exact ⟨_, State.modEngine_same s e fun x => { x with clocks := x.clocks + BitVec.ofNat 32 (Config.storeWait s.freeCount) }⟩
  · rw [State.posted_goes h]
    exact ⟨_, rfl⟩

/-! ## One meaning for the three instructions -/

/-- The module once the words of the bit store `i` have been fetched. -/
def State.fetched (s : State) (i : Instr) (e : Fin 4) (o : Operand) : State := s.advance e (bitClocks o) (s.clocksOf i e (bitClocks o))

theorem State.fetched_bitLands {s : State} {e : Fin 4} {o : Operand} {a : Nat} (h : s.bitLands e o a) (i : Instr) : (s.fetched i e o).bitLands e o a :=
  State.bitLands_congr (s := s) (t := s.fetched i e o) rfl rfl h

theorem State.fetched_wordAddr (s : State) (i : Instr) (e : Fin 4) (o : Operand) (a : Area) (w : Nat) :
    (s.fetched i e o).wordAddr .work a w = s.wordAddr .work a w :=
  State.wordAddr_congr (s := s) (t := s.fetched i e o) rfl rfl ..

theorem State.fetched_forceOn (s : State) (i : Instr) (e : Fin 4) (o : Operand) (a : Area) (w : Nat) :
    (s.fetched i e o).forceOn a w = s.forceOn a w :=
  State.forceOn_congr (s := s) (t := s.fetched i e o) rfl ..

theorem State.fetched_owner (s : State) (i : Instr) (e : Fin 4) (o : Operand) (a : Area) (w : Nat) :
    (s.fetched i e o).owner a w = s.owner a w :=
  State.owner_congr (s := s) (t := s.fetched i e o) rfl ..

/-- What a bit store `i` of engine `e` leaves: `v` with the mark `p` goes to the operand, and the store is posted where it is made. -/
def State.bitStored (s : State) (i : Instr) (e : Fin 4) (o : Operand) (v p stores : Bool) : Out :=
  match (s.fetched i e o).writeBit e o v p with
  | none => .next (s.programFault e 7 (s.pcOf e))
  | some u => .next (if stores then (u.modEngine e Engine.chain).posted e else (s.fetched i e o).modEngine e Engine.chain)

/-- Ending the chain, and posting the store, leave the image, the block and the PC. -/
theorem State.stored_place {t u : State} {e : Fin 4} (stores : Bool) (hm : u.mram = t.mram) (hu : u.engines = t.engines) :
    let z := if stores then (u.modEngine e Engine.chain).posted e else t.modEngine e Engine.chain
    z.mram = t.mram ∧ (z.engine e).block = (t.engine e).block ∧ (z.engine e).pc = (t.engine e).pc := by
  have hue : u.engine e = t.engine e := by rw [State.engine, State.engine, hu]
  obtain ⟨c, hc⟩ := (u.modEngine e Engine.chain).posted_engine e
  cases stores
  · simp [Engine.chain]
  · simp [hc, hm, hue, Engine.chain]

/-- A bit store that falls through runs to what `State.bitStored` says. -/
theorem State.issue_bitStore {s : State} {i : Instr} {e : Fin 4} {op : Nat} {o : Operand} {v p stores : Bool}
    {run : Nat → Nat → State → Except Nat State} (touch : Nat → State → List Touch)
    (he : encodeEngine i = some (e, Sys2Proof.bitWords op o)) (h : s.fallsThrough i = true)
    (hrun : run e (s.pcOf e) (s.fetched i e o) = allowed ((s.fetched i e o).writeBit e o v p) fun u =>
      .ok (if stores then (u.modEngine e Engine.chain).posted e else (s.fetched i e o).modEngine e Engine.chain)) :
    s.issue i (bitClocks o) run touch = s.bitStored i e o v p stores := by
  have hlen := bitWords_length op o
  unfold State.bitStored
  cases hw : (s.fetched i e o).writeBit e o v p with
  | none =>
    rw [hw] at hrun
    rw [State.issue_of_issues _ _ _ he (State.issues_of_fallsThrough h), hlen, ← State.fetched, hrun]
    rfl
  | some u =>
    obtain ⟨hm, hu⟩ := State.writeBit_keeps hw
    obtain ⟨hmram, hblock, hpc⟩ := State.stored_place (e := e) stores hm hu
    rw [hw] at hrun
    refine State.issue_next _ _ _ he h (by rw [hlen]; exact hrun) hmram (hblock.trans ?_) (hpc.trans ?_)
    · simp [State.fetched]
    · simp [State.fetched, hlen]

theorem exec_out_bitStored {s : State} {e : Fin 4} {o : Operand} (h : s.fallsThrough (.out e o) = true) :
    exec (.out e o) s = s.bitStored (.out e o) e o (s.engine e).cb (s.engine e).cbP true := by
  show execOut e o s = _
  unfold execOut
  exact State.issue_bitStore _ rfl h (by simp [State.fetched])

/-- The value that SETB (`v` true) or CLRB writes: a poisoned CB leaves what stood there (R132). -/
def State.setClearValue (s : State) (i : Instr) (e : Fin 4) (o : Operand) (v : Bool) : Bool :=
  if (s.engine e).cbP then (match (s.fetched i e o).readBit e o with | some y => y.1 | none => false) else v

theorem State.setClearValue_clean {s : State} {e : Fin 4} (h : (s.engine e).cbP = false) (i : Instr) (o : Operand) (v : Bool) :
    s.setClearValue i e o v = v :=
  if_neg (by simp [h])

theorem State.setClear_bitStored {s : State} {i : Instr} {e : Fin 4} {op : Nat} {o : Operand} (he : encodeEngine i = some (e, Sys2Proof.bitWords op o))
    (h : s.fallsThrough i = true) (v : Bool) :
    s.setClear i o v = s.bitStored i e o (s.setClearValue i e o v) (s.engine e).cbP ((s.engine e).cbP || (s.engine e).cb) := by
  have hcb : ((s.fetched i e o).engine e).cb = (s.engine e).cb := by simp [State.fetched]
  have hcbP : ((s.fetched i e o).engine e).cbP = (s.engine e).cbP := by simp [State.fetched]
  unfold State.setClear
  refine State.issue_bitStore _ he h ?_
  dsimp only
  rw [hcb, hcbP]
  rfl

theorem exec_setb_bitStored {s : State} {e : Fin 4} {o : Operand} (h : s.fallsThrough (.setb e o) = true) :
    exec (.setb e o) s = s.bitStored (.setb e o) e o (s.setClearValue (.setb e o) e o true) (s.engine e).cbP ((s.engine e).cbP || (s.engine e).cb) :=
  State.setClear_bitStored rfl h true

theorem exec_clrb_bitStored {s : State} {e : Fin 4} {o : Operand} (h : s.fallsThrough (.clrb e o) = true) :
    exec (.clrb e o) s = s.bitStored (.clrb e o) e o (s.setClearValue (.clrb e o) e o false) (s.engine e).cbP ((s.engine e).cbP || (s.engine e).cb) :=
  State.setClear_bitStored rfl h false

/-- Each of the three is `State.bitStored`, with a store made where the instruction is OUT or CB is 1 or poisoned. -/
theorem exec_bitStored {s : State} {e : Fin 4} {o : Operand} {i : Instr} (hi : i = .out e o ∨ i = .setb e o ∨ i = .clrb e o)
    (h : s.fallsThrough i = true) : ∃ v p stores, exec i s = s.bitStored i e o v p stores ∧
      (stores = true ↔ i = .out e o ∨ (s.engine e).cb = true ∨ (s.engine e).cbP = true) := by
  obtain rfl | rfl | rfl := hi
  · exact ⟨_, _, _, exec_out_bitStored h, by simp⟩
  · exact ⟨_, _, _, exec_setb_bitStored h, by simp [or_comm]⟩
  · exact ⟨_, _, _, exec_clrb_bitStored h, by simp [or_comm]⟩

section

variable {s : State} {e : Fin 4} {o : Operand} {i : Instr} {v p stores : Bool}

theorem State.bitStored_refused (h : (mayWriteBit o.area (Operand.place o).1 && (s.wordAddr .work o.area (Operand.place o).1).isSome) = false) :
    s.bitStored i e o v p stores = .next (s.programFault e 7 (s.pcOf e)) := by
  have hw : (s.fetched i e o).writeBit e o v p = none :=
    State.writeBit_refused (by rwa [State.fetched_wordAddr]) v p
  simp only [State.bitStored, hw]

theorem State.bitStored_of_write {u : State} (hw : (s.fetched i e o).writeBit e o v p = some u) :
    s.bitStored i e o v p stores = .next (if stores then (u.modEngine e Engine.chain).posted e else (s.fetched i e o).modEngine e Engine.chain) := by
  simp only [State.bitStored, hw]

/-- With a clean CB the value is written where the store is made. -/
theorem State.bitStored_lands {a : Nat} (hl : s.bitLands e o a) (hp : p = false) :
    s.bitStored i e o v p (p || stores) = .next (if stores
      then (((s.fetched i e o).withSquare (s.square.putBit a (Operand.place o).2 v false)).modEngine e Engine.chain).posted e
      else ((s.fetched i e o).withSquare s.square).modEngine e Engine.chain) := by
  subst hp
  rw [State.bitStored_of_write (State.writeBit_lands (State.fetched_bitLands hl i) v false)]
  rfl

end

/-- Settles O9: the three instructions are `State.bitStored`, whose write lands, is discarded, or faults; and a store is posted as its credits say. -/
theorem bitStoreResult : Obligations.BitStoreResult := by
  unfold Obligations.BitStoreResult
  refine ⟨?lands, ?other, ?posting⟩
  case lands =>
    intro s e o a hl x b n done
    refine ⟨fun h => ?_, fun h hp => ?_, fun h hp => ?_⟩
    · rw [exec_out_bitStored h, State.bitStored_of_write (State.writeBit_lands (State.fetched_bitLands hl _) _ _)]
      rfl
    · rw [exec_setb_bitStored h, State.setClearValue_clean hp, State.bitStored_lands hl hp]
      rfl
    · rw [exec_clrb_bitStored h, State.setClearValue_clean hp, State.bitStored_lands hl hp]
      rfl
  case other =>
    intro s e o i hi h w n t ended stores
    obtain ⟨v, p, st, hexec, hst⟩ := exec_bitStored hi h
    have hdone : ∀ u : State, (stores → (if st then (u.modEngine e Engine.chain).posted e else t.modEngine e Engine.chain) = (ended u).posted e) ∧
        (¬ stores → (if st then (u.modEngine e Engine.chain).posted e else t.modEngine e Engine.chain) = ended t) := fun u =>
      ⟨fun hs => if_pos (hst.mpr hs), fun hs => if_neg fun h => hs (hst.mp h)⟩
    refine ⟨fun hw => ?_, fun hw hf => ?_, fun hw hf ho => ?_⟩
    · rw [hexec, State.bitStored_refused hw]
    · rw [hexec, State.bitStored_of_write (State.writeBit_forced (s := s.fetched i e o) (by rwa [State.fetched_wordAddr]) (by rwa [State.fetched_forceOn]) _ _)]
      exact ⟨fun hs => congrArg _ ((hdone _).1 hs), fun hs => congrArg _ ((hdone _).2 hs)⟩
    · rw [hexec, State.bitStored_of_write (State.writeBit_foreign (s := s.fetched i e o) (by rwa [State.fetched_wordAddr]) (by rwa [State.fetched_forceOn])
        (by rwa [State.fetched_owner]) _ _)]
      exact ⟨fun hs => congrArg _ ((hdone _).1 hs), fun hs => congrArg _ ((hdone _).2 hs)⟩
  case posting =>
    intro s e x free before
    refine ⟨fun hfree hbefore => State.posted_goes ((s.storeGoes_iff e).mpr ⟨hfree, hbefore⟩), fun h => ?_⟩
    have hno : s.storeGoes e = false := by
      rw [Bool.eq_false_iff, Ne, State.storeGoes_iff]
      rintro ⟨hfree, hbefore⟩
      exact h.elim (fun hlt => Nat.not_lt_of_ge hfree hlt) hbefore
    rw [State.posted_held hno]
    rfl

end Sys2Proof.Machine
end

/-! # READ_OBJECT

The command's four checks in their order, each with what it takes to pass or to answer by it (R56, R59, R136). -/

section
namespace Sys2Proof.Machine
open Sys2Proof

theorem State.quiet_iff (s : State) : s.quiet = true ↔ s.locks = [] ∧ s.upsets = [] := by
  simp [State.quiet]

/-- Items whose words are all there give their words, where nothing is added to them. -/
theorem zip_filterMap_of_map_some {α β : Type} {f : α → Option β} {g : α × Option β → β → β} (hg : ∀ e v, g e v = v) {l : List α} {m : List β}
    (h : l.map f = m.map some) : ((l.zip (l.map f)).filterMap fun e => e.2.map (g e)) = m := by
  have hlen : l.length = m.length := by simpa using congrArg List.length h
  have hid : ∀ e : α × Option β, e.2.map (g e) = e.2 := fun e => by cases e.2 <;> simp [hg]
  calc
    ((l.zip (l.map f)).filterMap fun e => e.2.map (g e)) = ((l.zip (m.map some)).map Prod.snd).filterMap id := by
      rw [h, List.filterMap_map]
      exact List.filterMap_congr fun e _ => hid e
    _ = m := by
      rw [List.map_snd_zip (by simp [hlen])]
      simp

section

variable {c : Ctx} {b : List Byte} {s : State}

/-- A word of the dictionary as a reference names it, if one is defined there. -/
def State.refWord (s : State) (r : Nat × Nat × Nat) : Option (Word × Bool) := if r.2.2 = 0 then s.objWord r.1 r.2.1 else none

theorem State.refWord_eq_none {r : Nat × Nat × Nat} : s.refWord r = none ↔ r.2.2 ≠ 0 ∨ s.objWord r.1 r.2.1 = none := by
  unfold State.refWord
  split <;> simp [*]

/-- A key without OBSERVE is refused a reference to an object that not every role may read (log 92). -/
theorem runReadObject_notAuthorised (ho : c.roles.getLsbD Role.observe.bit = false) (h : ∃ r ∈ objRefs b, anyRole r.1 = false) :
    runReadObject c b s = s.refuse c .notAuthorised := by
  have hany : (objRefs b).any (fun r => !anyRole r.1) = true := by simpa using h
  unfold runReadObject readObjectFrom
  exact if_pos (by rw [ho, hany]; rfl)

/-- The role check passes (R20, log 92). -/
def mayRead (c : Ctx) (b : List Byte) : Prop := c.roles.getLsbD Role.observe.bit = true ∨ ∀ r ∈ objRefs b, anyRole r.1 = true

theorem mayRead_check (h : mayRead c b) : (!c.roles.getLsbD Role.observe.bit && (objRefs b).any fun r => !anyRole r.1) = false := by
  obtain h | h := h
  · rw [h]; rfl
  · have hany : (objRefs b).any (fun r => !anyRole r.1) = false := by simpa using h
    rw [hany, Bool.and_false]

theorem runReadObject_badObject (hr : mayRead c b) (h : ∃ r ∈ objRefs b, s.refWord r = none) :
    runReadObject c b s = s.refuse c .badObject := by
  have hany : ((objRefs b).map s.refWord).any (·.isNone) = true := by simpa using h
  unfold runReadObject readObjectFrom
  dsimp only
  rw [mayRead_check hr, if_neg (by simp)]
  exact if_pos hany

theorem runReadObject_data {l : List (Word × Bool)} (hr : mayRead c b) (hl : (objRefs b).map s.refWord = l.map some)
    (hstale : s.pair.state = .stale → ∀ r ∈ objRefs b, processWord r.1 r.2.1 = false)
    (hforeign : s.totalsForeign = true → ∀ r ∈ objRefs b, totalWord r.1 r.2.1 = false) (hq : s.quiet = true) :
    runReadObject c b s = s.replyData c (toBe 2 (be16 b 0) ++ pad 2) l := by
  obtain ⟨hlocks, hupsets⟩ := s.quiet_iff.mp hq
  have hnone : ((objRefs b).map s.refWord).any (·.isNone) = false := by rw [hl]; simp
  have hstale : (s.pair.state == .stale && (objRefs b).any fun r => processWord r.1 r.2.1) = false := by simpa using hstale
  have hforeign : (s.totalsForeign && (objRefs b).any fun r => totalWord r.1 r.2.1) = false := by simpa using hforeign
  unfold runReadObject readObjectFrom
  dsimp only
  rw [mayRead_check hr, hstale, hforeign, if_neg (by simp), if_neg (by simpa [State.refWord] using hnone), if_neg (by simp), if_neg (by simp),
    State.gateRead_clear hupsets hlocks]
  refine congrArg (s.replyData c _) (zip_filterMap_of_map_some (f := s.refWord) (fun e v => ?_) hl)
  cases loopAddr e.1.1 e.1.2.1 <;> simp

end

/-- Settles O23: the checks of READ_OBJECT, with the state that acceptance left. -/
theorem objectReads : Obligations.ObjectReads := by
  unfold Obligations.ObjectReads
  intro s p hquiet hadmits t c b
  have hexec : exec (.readObject p) s = .next (runReadObject c b t) := State.command_next runReadObject hadmits
  refine ⟨fun l hl hstale hforeign hrole => ?_, fun ho hr => ?_, fun ho hr => ?_⟩
  · rw [hexec, runReadObject_data hrole hl]
    · simpa [t] using hstale
    · simpa [t, State.totalsForeign] using hforeign
    · simpa [t, State.quiet] using hquiet
  · rw [hexec, runReadObject_notAuthorised ho hr]
  · rw [hexec, runReadObject_badObject (Or.inl ho)]
    obtain ⟨r, hm, h⟩ := hr
    exact ⟨r, hm, State.refWord_eq_none.mpr h⟩

end Sys2Proof.Machine
end

/-! # The CAN ports' shut-down

A shut-down gives up the queued frames and the slot frames that wait, and misses the output sets that are not sent yet (R245, R257, R266). Each of its
parts leaves everything but the ports, the firings and the crossings as it was, and of the ports changes the one that shuts down. -/

section
namespace Sys2Proof.Machine
open Sys2Proof

/-! ## What the parts leave alone -/

/-- `t` differs from `s` in the ports, the Roundabout and the messages of the crossings at most. -/
def State.onlyCan (s t : State) : Prop := t = { s with cans := t.cans, round := t.round, crossings := t.crossings, nextSend := t.nextSend }

theorem State.onlyCan_refl (s : State) : s.onlyCan s := rfl

theorem State.onlyCan.trans {s t u : State} (h : s.onlyCan t) (k : t.onlyCan u) : s.onlyCan u := by
  unfold State.onlyCan at *
  rw [k, h]

theorem State.onlyCan_setCan (s : State) (p : Nat) (x : Can) : s.onlyCan (s.setCan p x) := rfl

theorem State.onlyCan_modCan (s : State) (p : Nat) (f : Can → Can) : s.onlyCan (s.modCan p f) := rfl

theorem State.onlyCan.mram {s t : State} (h : s.onlyCan t) : t.mram = s.mram := by
  unfold State.onlyCan at h
  rw [h]

/-- A record of a port is a message to KEEP. -/
theorem State.onlyCan_raiseCan (s : State) {p : Nat} (hp : p ≤ 1) (k : RecKind) (v : Word) : s.onlyCan (s.raiseCan p k v) := by
  have hsrc : (BitVec.ofNat 16 (12 + p)).toNat ≠ 17 := by
    rw [BitVec.toNat_ofNat]
    omega
  unfold State.raiseCan State.raiseFrom State.raiseFull
  split
  · exact s.onlyCan_refl
  · unfold State.handRecord
    dsimp only [State.mkRecord]
    split
    · exact absurd ‹_› hsrc
    · rfl

@[simp] theorem State.raiseCan_can (s : State) (p : Nat) (k : RecKind) (v : Word) (m : Nat) : (s.raiseCan p k v).can m = s.can m := by
  simp [State.can, State.raiseCan, State.raiseFrom]

@[simp] theorem State.fireSource_can (s : State) (n m : Nat) : (s.fireSource n).can m = s.can m := rfl

/-! ## Frames given up (R257) -/

/-- From `s` to `t` port `p` gives `n` frames up, which counts, and no other port changes. -/
structure State.abandons (p n : Nat) (s t : State) : Prop where
  frame : s.onlyCan t
  own : t.can p = { s.can p with txAbandoned := (s.can p).txAbandoned + BitVec.ofNat 32 n }
  others : ∀ m, m ≠ p → t.can m = s.can m

theorem State.abandons_zero (p : Nat) (s : State) : State.abandons p 0 s s :=
  ⟨s.onlyCan_refl, by simp, fun _ _ => rfl⟩

theorem State.abandons.trans {p n m : Nat} {s t u : State} (h : State.abandons p n s t) (k : State.abandons p m t u) : State.abandons p (n + m) s u where
  frame := h.frame.trans k.frame
  own := by rw [k.own, h.own, BitVec.ofNat_add, BitVec.add_assoc]
  others i hi := (k.others i hi).trans (h.others i hi)

theorem State.abandonFrame_abandons (s : State) {p : Nat} (hp : p ≤ 1) (reason slot : Nat) : State.abandons p 1 s (s.abandonFrame p reason slot) where
  frame := (s.onlyCan_modCan p _).trans (State.onlyCan.trans (t := State.fireSource _ _) rfl (State.onlyCan_raiseCan _ hp _ _))
  own := by
    rw [State.abandonFrame, State.raiseCan_can, State.fireSource_can, State.modCan_same]
    rfl
  others m hm := by
    rw [State.abandonFrame, State.raiseCan_can, State.fireSource_can, State.modCan_other s _ hm]

/-- A slot's frame, of the jobs that wait for a window. -/
def TxJob.isSlot : TxJob → Bool
  | .slot _ _ _ _ => true
  | _ => false

theorem State.giveUp_abandons (s : State) {p : Nat} (hp : p ≤ 1) (reason : Nat) (j : TxJob) :
    State.abandons p (b2n j.isSlot) s (s.giveUp p reason j) := by
  cases j with
  | slot t a r z => exact s.abandonFrame_abandons hp reason t
  | _ => exact State.abandons_zero p s

theorem State.each_abandons {α : Type} {p : Nat} {f : State → α → State} (count : α → Nat) (hf : ∀ s x, State.abandons p (count x) s (f s x)) (s : State)
    (l : List α) : State.abandons p (l.map count).sum s (s.each l f) := by
  induction l generalizing s with
  | nil => exact State.abandons_zero p s
  | cons x l ih => exact (hf s x).trans (ih (f s x))

/-! ## Output sets missed (R266) -/

/-- What `missDue` does at one station. -/
def State.missAt (p : Nat) (s : State) (x : Nat) : State :=
  if (s.station p x).due.isSome && !s.setSent p x then
    (s.modCan p fun c => { c with missed := c.missed + 1 }).modStation p x fun y => { y with due := none, missedEarly := y.missedEarly + 1 }
  else s

theorem State.modStation_can (s : State) (p x : Nat) (f : Station → Station) :
    (s.modStation p x f).can p = { s.can p with stations := (s.can p).stations.set {} x (f (s.station p x)) } :=
  State.modCan_same ..

theorem State.modStation_station (s : State) (p x : Nat) (f : Station → Station) (i : Nat) :
    (s.modStation p x f).station p i = if i = x then f (s.station p x) else s.station p i := by
  rw [State.station, State.modStation_can]
  split
  · subst i; exact Tab.get_set_same _ _ _ _
  · exact Tab.get_set_other _ _ _ ‹_›

/-- From `s` to `t` port `p` misses output sets: a set is due as before or no longer, and no other port changes. -/
structure State.misses (p : Nat) (s t : State) : Prop where
  frame : s.onlyCan t
  own : ∃ n l, t.can p = { s.can p with missed := n, stations := l }
  others : ∀ m, m ≠ p → t.can m = s.can m
  due : ∀ i, (t.station p i).due = none ∨ (t.station p i).due = (s.station p i).due
  sent : ∀ i, (t.station p i).sentOk = (s.station p i).sentOk

theorem State.misses_refl (p : Nat) (s : State) : State.misses p s s :=
  ⟨s.onlyCan_refl, ⟨_, _, rfl⟩, fun _ _ => rfl, fun _ => Or.inr rfl, fun _ => rfl⟩

theorem State.misses.trans {p : Nat} {s t u : State} (h : State.misses p s t) (k : State.misses p t u) : State.misses p s u where
  frame := h.frame.trans k.frame
  own := by
    obtain ⟨n, l, hn⟩ := h.own
    obtain ⟨m, j, hm⟩ := k.own
    exact ⟨m, j, by rw [hm, hn]⟩
  others i hi := (k.others i hi).trans (h.others i hi)
  due i := (k.due i).elim Or.inl fun e => e ▸ h.due i
  sent i := (k.sent i).trans (h.sent i)

/-- Whether a set has been sent is a matter of the configuration and of the station's frames that were sent. -/
theorem State.setSent_congr {s t : State} {p i : Nat} (hm : t.mram.obj = s.mram.obj) (hs : (t.station p i).sentOk = (s.station p i).sentOk) :
    t.setSent p i = s.setSent p i := by
  simp [State.setSent, State.stFrames, State.stOut, State.stWord, State.stColumns, State.columnWord, State.cellWord, State.cfg, hm, hs]

theorem State.missAt_misses (p : Nat) (s : State) (x : Nat) : State.misses p s (State.missAt p s x) := by
  unfold State.missAt
  split
  · have hst : ∀ i, (s.modCan p fun c => { c with missed := c.missed + 1 }).station p i = s.station p i := fun i => by
      rw [State.station, State.modCan_same]
      rfl
    refine ⟨rfl, ⟨_, _, by rw [State.modStation_can, State.modCan_same]⟩, fun m hm => ?_, fun i => ?_, fun i => ?_⟩
    · exact (State.modCan_other _ _ hm).trans (State.modCan_other s _ hm)
    · rw [State.modStation_station]
      split
      · exact Or.inl rfl
      · exact Or.inr (congrArg Station.due (hst i))
    · rw [State.modStation_station]
      split
      · subst i
        have hx := congrArg Station.sentOk (hst x)
        exact hx
      · exact congrArg Station.sentOk (hst i)
  · exact State.misses_refl p s

theorem State.missAt_due {p : Nat} {s : State} {x : Nat} (hd : (s.station p x).due.isSome = true) (hs : s.setSent p x = false) :
    ((State.missAt p s x).station p x).due = none := by
  rw [State.missAt, if_pos (by simp [hd, hs]), State.modStation_station, if_pos rfl]

theorem State.each_misses (p : Nat) (s : State) (l : List Nat) : State.misses p s (s.each l (State.missAt p)) := by
  induction l generalizing s with
  | nil => exact State.misses_refl p s
  | cons x l ih => exact (State.missAt_misses p s x).trans (ih _)

theorem State.each_missAt_due {p : Nat} {l : List Nat} {i : Nat} (hi : i ∈ l) (s : State) (hd : (s.station p i).due.isSome = true)
    (hs : s.setSent p i = false) : ((s.each l (State.missAt p)).station p i).due = none := by
  induction l generalizing s with
  | nil => cases hi
  | cons x l ih =>
    have hrest := State.each_misses p (State.missAt p s x) l
    have hstep := State.missAt_misses p s x
    -- a set that is no longer due stays so
    have hgone : ((State.missAt p s x).station p i).due = none → ((s.each (x :: l) (State.missAt p)).station p i).due = none :=
      fun h => (hrest.due i).elim id fun e => e.trans h
    by_cases hx : i = x
    · exact hgone (hx ▸ State.missAt_due (hx ▸ hd) (hx ▸ hs))
    · obtain h | h := hstep.due i
      · exact hgone h
      · exact ih ((List.mem_cons.mp hi).resolve_left hx) _ (h ▸ hd) (by rwa [State.setSent_congr (congrArg Mram.obj hstep.frame.mram) (hstep.sent i)])

/-! ## The shut-down (R245) -/

/-- A queued frame of port `p` is on the bus. -/
def State.queuedOnBus (s : State) (p : Nat) : Bool := match (s.can p).tx with | some (.queued, _) => true | _ => false

/-- Frames that a shut-down of port `p` gives up: those queued, but for one on the bus, and the slot frames that wait. -/
def State.abandonedBy (s : State) (p : Nat) : Nat :=
  (if s.queuedOnBus p then (s.can p).queue.length - 1 else (s.can p).queue.length) + ((s.can p).winWait.map fun w => b2n w.1.isSlot).sum

/-- The state of port `p` as a shut-down leaves it, but for the output sets that are missed. -/
def State.shutPort (s : State) (p : Nat) : Can :=
  { s.can p with
    state := .shuttingDown, enablePending := false, disablePending := false, refWait := none, winWait := []
    queue := if s.queuedOnBus p then (s.can p).queue.take 1 else []
    txAbandoned := (s.can p).txAbandoned + BitVec.ofNat 32 (s.abandonedBy p) }

/-- Port `p` from `s` to `t` shuts down. -/
structure State.shutsDown (p : Nat) (s t : State) : Prop where
  frame : s.onlyCan t
  own : ∃ n l, t.can p = { s.shutPort p with missed := n, stations := l }
  others : ∀ m, m ≠ p → t.can m = s.can m
  due : ∀ i ∈ s.stations p, (s.station p i).due.isSome = true → s.setSent p i = false → (t.station p i).due = none

theorem State.dropQueue_eq (s : State) (p : Nat) (keep : Bool) : s.dropQueue p keep =
    (s.each (if keep then (s.can p).queue.drop 1 else (s.can p).queue) fun s _ => s.abandonFrame p 2 0).modCan p fun c =>
      { c with queue := if keep then c.queue.take 1 else [] } := rfl

theorem State.stopSchedule_eq (s : State) (p reason : Nat) : s.stopSchedule p reason =
    let t := (s.each (s.can p).winWait fun s (w : TxJob × CanFrame × Nat) => s.giveUp p reason w.1).modCan p fun c => { c with refWait := none, winWait := [] }
    t.each (t.stations p) (State.missAt p) := rfl

theorem State.stations_congr {s t : State} {p : Nat} (hm : t.mram.obj = s.mram.obj) : t.stations p = s.stations p := by
  have hx : ∀ x, t.stEnabled p x = s.stEnabled p x := fun x => by simp [State.stEnabled, State.canLinked, State.canSchedule, State.canWord, State.stWord, State.cfg, hm]
  simp only [State.stations, funext hx]

theorem State.each_abandonFrame (s : State) {p : Nat} (hp : p ≤ 1) (reason slot : Nat) {α : Type} (l : List α) :
    State.abandons p l.length s (s.each l fun s _ => s.abandonFrame p reason slot) := by
  simpa using State.each_abandons (fun _ => 1) (fun t _ => t.abandonFrame_abandons hp reason slot) s l

section

variable (s : State) {p : Nat} (hp : p ≤ 1)
include hp

theorem State.dropQueue_frame (keep : Bool) : s.onlyCan (s.dropQueue p keep) := by
  rw [State.dropQueue_eq]
  exact (s.each_abandonFrame hp 2 0 _).frame.trans (State.onlyCan_modCan _ p _)

theorem State.dropQueue_own (keep : Bool) : (s.dropQueue p keep).can p = { s.can p with
    queue := if keep then (s.can p).queue.take 1 else []
    txAbandoned := (s.can p).txAbandoned + BitVec.ofNat 32 (if keep then (s.can p).queue.length - 1 else (s.can p).queue.length) } := by
  rw [State.dropQueue_eq, State.modCan_same, (s.each_abandonFrame hp 2 0 _).own]
  cases keep <;> simp

theorem State.dropQueue_others (keep : Bool) {m : Nat} (hm : m ≠ p) : (s.dropQueue p keep).can m = s.can m := by
  rw [State.dropQueue_eq, State.modCan_other _ _ hm]
  exact (s.each_abandonFrame hp 2 0 _).others m hm

theorem State.each_giveUp (reason : Nat) (l : List (TxJob × CanFrame × Nat)) :
    State.abandons p (l.map fun w => b2n w.1.isSlot).sum s (s.each l fun s w => s.giveUp p reason w.1) :=
  State.each_abandons (fun w => b2n w.1.isSlot) (fun t w => t.giveUp_abandons hp reason w.1) s l

theorem State.stopSchedule_frame (reason : Nat) : s.onlyCan (s.stopSchedule p reason) := by
  rw [State.stopSchedule_eq]
  exact ((s.each_giveUp hp reason _).frame.trans (State.onlyCan_modCan _ p _)).trans (State.each_misses p _ _).frame

theorem State.stopSchedule_own (reason : Nat) : ∃ n l, (s.stopSchedule p reason).can p = { s.can p with
    refWait := none, winWait := [], missed := n, stations := l
    txAbandoned := (s.can p).txAbandoned + BitVec.ofNat 32 ((s.can p).winWait.map fun w => b2n w.1.isSlot).sum } := by
  rw [State.stopSchedule_eq]
  extract_lets t
  obtain ⟨n, l, h⟩ := (State.each_misses p t (t.stations p)).own
  have ht : t.can p = _ := State.modCan_same ..
  rw [(s.each_giveUp hp reason _).own] at ht
  exact ⟨n, l, by rw [h, ht]⟩

theorem State.stopSchedule_others (reason : Nat) {m : Nat} (hm : m ≠ p) : (s.stopSchedule p reason).can m = s.can m := by
  rw [State.stopSchedule_eq]
  exact ((State.each_misses p _ _).others m hm).trans ((State.modCan_other _ _ hm).trans ((s.each_giveUp hp reason _).others m hm))

theorem State.stopSchedule_due (reason : Nat) {i : Nat} (hi : i ∈ s.stations p) (hd : (s.station p i).due.isSome = true)
    (hs : s.setSent p i = false) : ((s.stopSchedule p reason).station p i).due = none := by
  rw [State.stopSchedule_eq]
  extract_lets t
  have hobj : t.mram.obj = s.mram.obj := congrArg Mram.obj ((s.each_giveUp hp reason _).frame.trans (State.onlyCan_modCan _ p _)).mram
  have hst : t.station p i = s.station p i := by
    have ht : t.can p = _ := State.modCan_same ..
    rw [(s.each_giveUp hp reason _).own] at ht
    rw [State.station, ht]
    rfl
  refine State.each_missAt_due ?_ t (by rwa [hst]) (by rwa [State.setSent_congr hobj (congrArg Station.sentOk hst)])
  rwa [State.stations_congr hobj]

theorem State.canShutDown_shutsDown : State.shutsDown p s (s.canShutDown p) := by
  let u := s.modCan p fun c => { c with state := .shuttingDown, enablePending := false, disablePending := false }
  have hu : u.can p = { s.can p with state := .shuttingDown, enablePending := false, disablePending := false } := State.modCan_same ..
  let v := u.dropQueue p (s.queuedOnBus p)
  have hv := u.dropQueue_own hp (s.queuedOnBus p)
  have hvf : s.onlyCan v := (s.onlyCan_modCan p _).trans (u.dropQueue_frame hp _)
  rw [hu] at hv
  have heq : s.canShutDown p = v.stopSchedule p 2 := rfl
  rw [heq]
  have hst : ∀ i, v.station p i = s.station p i := fun i => by rw [State.station, hv]; rfl
  have hobj : v.mram.obj = s.mram.obj := congrArg Mram.obj hvf.mram
  refine ⟨hvf.trans (v.stopSchedule_frame hp 2), ?_, fun m hm => ?_, fun i hi hd hs => ?_⟩
  · obtain ⟨n, l, h⟩ := v.stopSchedule_own hp 2
    refine ⟨n, l, ?_⟩
    rw [h, hv]
    simp only [State.shutPort, State.abandonedBy, BitVec.ofNat_add, BitVec.add_assoc]
  · exact (v.stopSchedule_others hp 2 hm).trans ((u.dropQueue_others hp _ hm).trans (State.modCan_other _ _ hm))
  · refine v.stopSchedule_due hp 2 (by rwa [State.stations_congr hobj]) (by rwa [hst]) ?_
    rwa [State.setSent_congr hobj (congrArg Station.sentOk (hst i))]

end

end Sys2Proof.Machine
end

/-! # The rows of a CAN port

CAN_ENABLE by the state of its port, CAN_SEND of a classical frame, the error counters, and the ends of recovery and of a shut-down (R244, R245). -/

section
namespace Sys2Proof.Machine
open Sys2Proof

@[simp] theorem State.admitted_can (s : State) (p : Packet) (d : CmdDesc) (k : Nat) : (s.admitted p d).can k = s.can k := by
  simp [State.can]

@[simp] theorem State.admitted_causewayLost (s : State) (p : Packet) (d : CmdDesc) : (s.admitted p d).causewayLost = s.causewayLost := by
  obtain ⟨_, _, h⟩ := s.onlySup_admitted p d; rw [h]; rfl

@[simp] theorem State.admitted_domainOn (s : State) (p : Packet) (d : CmdDesc) (n : Nat) : (s.admitted p d).domainOn n = s.domainOn n := by
  simp [State.domainOn, State.domain]

@[simp] theorem State.putCanEnable_can (s : State) (p : Nat) (b : Bool) (m : Nat) : (s.putCanEnable p b).can m = s.can m := rfl

@[simp] theorem State.putCanEnable_domainOn (s : State) (p : Nat) (b : Bool) (n : Nat) : (s.putCanEnable p b).domainOn n = s.domainOn n := rfl

theorem State.putCanEnable_obj (s : State) (p : Nat) (b : Bool) : (s.putCanEnable p b).mram.obj = s.mram.obj := rfl

/-! ## CAN_ENABLE (R22, R245) -/

section

variable {c : Ctx} {b : List Byte} {s : State} {p : Nat}

theorem runCanEnable_eq (hp : byteAt b 0 ≤ 1) (hb : byteAt b 1 ≤ 1) (hlost : (s.forwards && s.causewayLost) = false) :
    runCanEnable c b s = (if s.forwards then s.queueChange (.canEnable (byteAt b 0) (byteAt b 1 == 1))
      else (s.canEnable (byteAt b 0) (byteAt b 1 == 1)).1).refuse c (s.canEnable (byteAt b 0) (byteAt b 1 == 1)).2 := by
  unfold runCanEnable
  dsimp only
  rw [if_neg (Nat.not_lt_of_le hp), if_neg (Nat.not_lt_of_le hb), if_neg (by simp [hlost])]

theorem State.canEnable_on (h : (s.can p).state = .disabled) : s.canEnable p true =
    (if s.domainOn 9 then (s.putCanEnable p true).canStart p else (s.putCanEnable p true).judgeDomains, .ok) := by
  simp only [State.canEnable, h, if_true]
  rfl

theorem State.canEnable_off_disabled (h : (s.can p).state = .disabled) : s.canEnable p false = (s.putCanEnable p false, .ok) := by
  simp [State.canEnable, h]

theorem State.canEnable_off_shuttingDown (h : (s.can p).state = .shuttingDown) :
    s.canEnable p false = ((s.putCanEnable p false).setCan p { s.can p with enablePending := false }, .ok) := by
  simp [State.canEnable, h]

theorem State.canEnable_off_recovering (h : (s.can p).state = .recovering) :
    s.canEnable p false = (s.setCan p { s.can p with disablePending := true, enablePending := false }, .ok) := by
  simp [State.canEnable, h]

/-- In every other state the port shuts down. -/
theorem State.canEnable_off_running (hd : (s.can p).state ≠ .disabled) (hs : (s.can p).state ≠ .shuttingDown) (hr : (s.can p).state ≠ .recovering) :
    s.canEnable p false = ((s.putCanEnable p false).canShutDown p, .ok) := by
  unfold State.canEnable
  cases h : (s.can p).state <;> simp_all

end

/-! ## Waiting slot frames -/

/-- Items counted one by one are those that a filter keeps. -/
theorem sum_b2n {α : Type} (f : α → Bool) (l : List α) : (l.map fun x => b2n (f x)).sum = (l.filter f).length := by
  induction l with
  | nil => rfl
  | cons x l ih => cases h : f x <;> simp [b2n, h, ← ih, Nat.add_comm]

/-! ## CAN_SEND (R245) -/

theorem dlcBytes_classical {n : Nat} (h : n ≤ 8) : dlcBytes n = n := by
  unfold dlcBytes
  split <;> omega

theorem runCanSend_classical {c : Ctx} {b : List Byte} {s : State} (hp : byteAt b 0 ≤ 1) (hf : byteAt b 1 = 0) (hn : byteAt b 2 ≤ 8)
    (hid : be32 b 4 < 2 ^ 11) (hlen : b.length = 8 + byteAt b 2) (hd : (s.can (byteAt b 0)).state ≠ .disabled)
    (hs : (s.can (byteAt b 0)).state ≠ .shuttingDown) (hq : (s.can (byteAt b 0)).queue.length < 32) :
    runCanSend c b s = (s.modCan (byteAt b 0) fun x => { x with queue := x.queue ++
      [{ xtd := false, fdf := false, brs := false, esi := false, rtr := false, id := BitVec.ofNat 29 (be32 b 4), data := b.drop 8, sof := 0 }] }).ok c := by
  have hdlc := dlcBytes_classical hn
  have hformat : (7 < 0 || 15 < byteAt b 2 || (!(0 % 2 == 1) && 8 < byteAt b 2) || (0 / 2 % 2 == 1 && !(0 % 2 == 1)) ||
      (0 % 2 == 1 && !s.canFd (byteAt b 0)) || if 0 / 4 % 2 == 1 then 2 ^ 29 ≤ be32 b 4 else 2 ^ 11 ≤ be32 b 4 : Bool) = false := by
    have : be32 b 4 < 2048 := hid
    have : ¬ 15 < byteAt b 2 := by omega
    have : ¬ 8 < byteAt b 2 := by omega
    simp [*]
  unfold runCanSend
  dsimp only
  rw [hf, if_neg (Nat.not_lt_of_le hp), if_neg (by rw [hformat]; simp), if_neg (by rw [hdlc, hlen]; simp), if_neg (by simp [hd, hs]),
    if_neg (Nat.not_le_of_lt hq)]
  rfl

/-! ## Error counters (R244) -/

theorem State.recBad_receiver {s : State} {n : Nat} {k : CanRxError} (ha : (s.can n).active = true) (ht : (s.can n).tx = none) :
    s.recBad n k = (s.setCan n { s.can n with rec_ := min 255 ((s.can n).rec_ + match k with | .plain => 1 | .dominantAfterFlag => 8) }).judgeCan n := by
  unfold State.recBad
  dsimp only
  rw [if_neg (by simp [ha]), ht]
  cases k <;> rfl

theorem State.onlyCan_enterBusOff (s : State) {n : Nat} (hn : n ≤ 1) : s.onlyCan (s.enterBusOff n) :=
  (s.stopSchedule_frame hn 0).trans ((State.onlyCan_modCan _ n _).trans
    (State.onlyCan.trans (t := State.fireSource _ (273 + 4 * n)) rfl (State.onlyCan_raiseCan _ hn _ _)))

theorem State.onlyCan_judgeCan (s : State) {n : Nat} (hn : n ≤ 1) : s.onlyCan (s.judgeCan n) := by
  unfold State.judgeCan
  dsimp only
  split
  · exact s.onlyCan_refl
  split
  · exact s.onlyCan_enterBusOff hn
  split
  · split
    · exact s.onlyCan_refl
    · exact State.onlyCan.trans (t := (s.setCan n _).fireSource (272 + 4 * n)) rfl (State.onlyCan_raiseCan _ hn _ _)
  · exact s.onlyCan_setCan n _

theorem State.samplePoint_congr {s t : State} (h : t.mram = s.mram) (n : Nat) : t.samplePoint n = s.samplePoint n := by
  simp [State.samplePoint, State.canWord, State.cfg, h]

/-- The errors of a transmitter count in TEC; a frame on the bus ends with the port's bus-off (R257, R259). -/
theorem State.recBad_transmitter {s : State} {n : Nat} (hn : n ≤ 1) {j : TxJob} {f : CanFrame} (ha : (s.can n).active = true) (ht : (s.can n).tx = some (j, f)) :
    s.recBad n .dominantAfterFlag =
      let t := (s.setCan n { s.can n with tec := min 511 ((s.can n).tec + 8), tecRose := true }).judgeCan n
      if (t.can n).active then t else t.jobDone n j f false (f.sof + s.samplePoint n) := by
  unfold State.recBad
  dsimp only
  rw [if_neg (by simp [ha]), ht]
  dsimp only
  rw [State.samplePoint_congr (((s.onlyCan_setCan n _).trans (State.onlyCan_judgeCan _ hn)).mram)]

/-- A port whose TEC does not reach bus-off stays on the bus. -/
theorem State.judgeCan_active {s : State} {n : Nat} (ha : (s.can n).active = true) (ht : (s.can n).tec ≤ 255) :
    ((s.judgeCan n).can n).active = true := by
  unfold State.judgeCan
  dsimp only
  rw [if_neg (by simp [ha]), if_neg (Nat.not_lt_of_le ht)]
  split
  · split
    · exact ha
    · simp [Can.active]
  · simp [Can.active]

theorem State.recBad_plain {s : State} {n : Nat} (ha : (s.can n).active = true) (ht : (s.can n).tec ≤ 255) :
    s.recBad n .plain = (s.setCan n { s.can n with rec_ := min 255 ((s.can n).rec_ + 1) }).judgeCan n := by
  have hon : (((s.setCan n { s.can n with rec_ := min 255 ((s.can n).rec_ + 1) }).judgeCan n).can n).active = true :=
    State.judgeCan_active (by simpa [Can.active] using ha) (by simpa using ht)
  unfold State.recBad
  dsimp only
  rw [if_neg (by simp [ha])]
  split
  · exact if_pos hon
  · rfl

/-! ## The disable (R245) -/

/-- A disable in a state that is neither disabled, shutting down nor recovering: the port shuts down. -/
theorem State.canDisable_rows {s t : State} {k : Nat} (hk : k ≤ 1) (hobj : t.mram.obj = s.mram.obj) (hcan : ∀ m, t.can m = s.can m) :
    let x := s.can k
    let onBus := match x.tx with | some (.queued, _) => true | _ => false
    let slots := (x.winWait.filter fun w => match w.1 with | .slot _ _ _ _ => true | _ => false).length
    let dropped := if onBus then x.queue.length - 1 else x.queue.length
    let u := (t.putCanEnable k false).canShutDown k
    u = { t with cans := u.cans, mram := (t.putCanEnable k false).mram, round := u.round, crossings := u.crossings, nextSend := u.nextSend } ∧
      (u.can k).state = .shuttingDown ∧ (u.can k).tx = x.tx ∧ (u.can k).queue = (if onBus then x.queue.take 1 else []) ∧
      (u.can k).winWait = [] ∧ (u.can k).refWait = none ∧ (u.can k).txAbandoned = x.txAbandoned + BitVec.ofNat 32 (dropped + slots) ∧
      (∀ i ∈ s.stations k, (s.station k i).due.isSome = true → s.setSent k i = false → (u.station k i).due = none) ∧
      ∀ m, m ≠ k → u.can m = s.can m := by
  intro x onBus slots dropped u
  have h := (t.putCanEnable k false).canShutDown_shutsDown hk
  have hx : (t.putCanEnable k false).can k = x := hcan k
  have hbus : (t.putCanEnable k false).queuedOnBus k = onBus := by rw [State.queuedOnBus, hx]
  have hcount : (t.putCanEnable k false).abandonedBy k = dropped + slots := by
    rw [State.abandonedBy, hx, hbus, sum_b2n]
    rfl
  have hst : ∀ i, (t.putCanEnable k false).station k i = s.station k i := fun i => by rw [State.station, hx]; rfl
  obtain ⟨n, l, hu⟩ := h.own
  rw [State.shutPort, hx, hbus, hcount] at hu
  refine ⟨h.frame, ?_, ?_, ?_, ?_, ?_, ?_, fun i hi hd hs => h.due i ?_ (by rwa [hst]) ?_, fun m hm => (h.others m hm).trans (hcan m)⟩
  · exact (congrArg Can.state hu).trans rfl
  · exact (congrArg Can.tx hu).trans rfl
  · exact (congrArg Can.queue hu).trans rfl
  · exact (congrArg Can.winWait hu).trans rfl
  · exact (congrArg Can.refWait hu).trans rfl
  · exact (congrArg Can.txAbandoned hu).trans rfl
  · rwa [State.stations_congr (s := s) (t := t.putCanEnable k false) hobj]
  · rwa [State.setSent_congr (s := s) (t := t.putCanEnable k false) hobj (congrArg Station.sentOk (hst i))]

/-- Settles O34: CAN_ENABLE by the state of its port, and the ends of what a port waits for. -/
theorem canPortRows : Obligations.CanPortRows := by
  unfold Obligations.CanPortRows
  intro s p n
  refine ⟨?enable, ?disable, ?recover, ?send, ?rxError, ?txError, ?integrated, ?recovered, ?recoveredOff, ?shutDown, ?restarted⟩
  case enable =>
    intro b k hadm hk hone hdis hlost t
    have hexec : exec (.canEnable p) s = .next (runCanEnable (s.ctxOf p canEnableDesc) b (s.admitted p canEnableDesc)) := State.command_next runCanEnable hadm
    have hon : (byteAt b 1 == 1) = true := by rw [hone]; rfl
    rw [hexec, runCanEnable_eq hk (by rw [hone]) (by simpa using hlost), hon, State.canEnable_on (by simpa using hdis)]
    simp only [State.admitted_forwards, State.admitted_domainOn]
    rfl
  case disable =>
    intro b k c t x hadm hk hzero hfwd
    have hexec : exec (.canEnable p) s = .next ((t.canEnable k false).1.refuse c (t.canEnable k false).2) := by
      have hrun : exec (.canEnable p) s = .next (runCanEnable c b t) := State.command_next runCanEnable hadm
      have hfwd : t.forwards = false := by simpa [t] using hfwd
      rw [hrun, runCanEnable_eq hk (by rw [hzero]; decide) (by rw [hfwd]; rfl), hfwd, hzero]
      rfl
    have hx : t.can k = x := State.admitted_can ..
    refine ⟨fun hd => ?_, fun hs => ?_, fun hr => ?_, fun hd hs hr => ?_⟩
    · rw [hexec, State.canEnable_off_disabled (by rwa [hx])]
    · rw [hexec, State.canEnable_off_shuttingDown (by rwa [hx]), hx]
    · rw [hexec, State.canEnable_off_recovering (by rwa [hx]), hx]
    · intro onBus slots dropped
      refine ⟨(t.putCanEnable k false).canShutDown k, ?_, State.canDisable_rows hk (State.admitted_obj ..) fun m => State.admitted_can ..⟩
      rw [hexec, State.canEnable_off_running (by rwa [hx]) (by rwa [hx]) (by rwa [hx])]
  case recover =>
    intro k hadm hk hoff
    have hexec : exec (.canRecover p) s = .next (runCanRecover (s.ctxOf p canRecoverDesc) (s.payloadOf p canRecoverDesc) (s.admitted p canRecoverDesc)) :=
      State.command_next runCanRecover hadm
    rw [hexec]
    unfold runCanRecover
    dsimp only
    rw [if_neg (Nat.not_lt_of_le hk), State.admitted_can, hoff]
  case send =>
    intro b k hadm hk hformat hn hid hlen hd hs hq
    have hexec : exec (.canSend p) s = .next (runCanSend (s.ctxOf p canSendDesc) b (s.admitted p canSendDesc)) := State.command_next runCanSend hadm
    rw [hexec, runCanSend_classical hk hformat hn hid hlen (by rwa [State.admitted_can]) (by rwa [State.admitted_can]) (by rwa [State.admitted_can])]
  case rxError =>
    intro k hruns hactive hkind
    have hexec : exec (.canRxError n k) s = .next (s.recBad n k) := if_pos hruns
    rw [hexec]
    obtain ⟨rfl, htec⟩ | htx := hkind
    · rw [State.recBad_plain hactive htec]
    · exact congrArg Host.Outcome.next ((State.recBad_receiver hactive htx).trans (by cases k <;> rfl))
  case txError =>
    intro j f hruns hactive htx
    have hexec : exec (.canRxError n .dominantAfterFlag) s = .next (s.recBad n .dominantAfterFlag) := if_pos hruns
    rw [hexec, State.recBad_transmitter (Nat.le_of_lt_succ n.isLt) hactive htx]
  case integrated =>
    intro hst hruns
    exact if_pos (by simp [hst, hruns])
  case recovered =>
    intro hst hruns hno
    have hexec : exec (.canRecovered n) s = execCanRecovered n s := rfl
    rw [hexec]
    unfold execCanRecovered
    dsimp only
    rw [if_pos (by simp [hst, hruns]), if_neg (by simp [hno])]
  case recoveredOff =>
    intro hst hruns hyes
    have hexec : exec (.canRecovered n) s = execCanRecovered n s := rfl
    rw [hexec]
    unfold execCanRecovered
    extract_lets c u
    rw [if_pos (by simp [c, hst, hruns]), if_pos hyes]
    have hu : ∀ m, m ≠ n.val → u.can m = s.can m := fun m hm => (State.raiseCan_can ..).trans (State.setCan_other s _ hm)
    have h := (u.putCanEnable n false).canShutDown_shutsDown (Nat.le_of_lt_succ n.isLt)
    obtain ⟨i, l, hown⟩ := h.own
    refine ⟨_, rfl, ?_, ?_, ?_, fun m hm => ?_⟩
    · rw [State.modCan_same, hown]
      rfl
    · rw [State.modCan_same]
    · rw [State.canEnabled, State.modCan_mram, h.frame.mram]
      exact Tab.get_set_same false u.mram.canEnable n false
    · rw [State.modCan_other _ _ hm, h.others m hm]
      exact hu m hm
  case shutDown =>
    intro hst htx hno
    have hexec : exec (.canShutdownComplete n) s = execCanShutdownComplete n s := rfl
    rw [hexec]
    unfold execCanShutdownComplete
    dsimp only
    rw [if_pos (by simp [hst, htx]), if_neg (by simp [hno])]
  case restarted =>
    intro hst htx hyes
    have hexec : exec (.canShutdownComplete n) s = execCanShutdownComplete n s := rfl
    rw [hexec]
    unfold execCanShutdownComplete
    dsimp only
    rw [if_pos (by simp [hst, htx]), if_pos hyes]

end Sys2Proof.Machine
end

/-! # Islands, the reference clock and the domains

A record of an island that is not KEEP is a message, and nothing else; the restart of GE-A or of an island without outputs changes islands, firings,
messages and what hangs on the ring link (R19, R22, R33). -/

section
namespace Sys2Proof.Machine
open Sys2Proof

/-! ## Records (R356) -/

/-- `t` differs from `s` in the messages of the crossings at most. -/
def State.onlyPosts (s t : State) : Prop := t = { s with crossings := t.crossings, nextSend := t.nextSend }

theorem State.onlyPosts_refl (s : State) : s.onlyPosts s := rfl

theorem State.raiseFrom_onlyPosts (s : State) {src : Nat} (h : (BitVec.ofNat 16 src).toNat ≠ 17) (k : RecKind) (v : Word) :
    s.onlyPosts (s.raiseFrom src k v) := by
  unfold State.raiseFrom State.raiseFull
  split
  · exact s.onlyPosts_refl
  · unfold State.handRecord
    dsimp only [State.mkRecord]
    split
    · exact absurd ‹_› h
    · rfl

/-- A record with a value that is not stated draws it. -/
theorem State.raiseUnstated_eq (s : State) {src : Nat} (h : (BitVec.ofNat 16 src).toNat ≠ 17) (k : RecKind) : s.raiseUnstated src k =
    { s with freeCount := s.freeCount + 1, crossings := (s.raiseUnstated src k).crossings, nextSend := (s.raiseUnstated src k).nextSend } := by
  have hr := s.raiseFrom_onlyPosts h k (Config.unstatedValue k.info.1 s.freeCount)
  unfold State.onlyPosts at hr
  unfold State.raiseUnstated
  rw [hr]
  rfl

/-! ## The audit (R30 to R33) -/

theorem State.auditDue_iff (s : State) : s.auditDue = true ↔
    s.keepRuns = true ∧ (s.auditAt + s.roundPeriodNs ≤ s.now ∨ s.now < s.auditAt) := by
  simp [State.auditDue, State.dueEvery]

theorem execAuditRound_due {s : State} (h : s.auditDue = true) (faults : List CrossingFault) (windows : List (BitVec 16)) :
    execAuditRound faults windows s =
      .next { (s.each faults State.crossingFault).each windows State.windowFault with
        rounds := ((s.each faults State.crossingFault).each windows State.windowFault).rounds + 1
        auditAt := ((s.each faults State.crossingFault).each windows State.windowFault).now } :=
  if_neg (by simp [h])

/-- `t` differs from `s` in what a lost ring link touches at most. -/
def State.onlyRing (s t : State) : Prop :=
  t = { s with round := t.round, crossings := t.crossings, nextSend := t.nextSend, ring := t.ring, pair := t.pair }

theorem State.onlyRing_refl (s : State) : s.onlyRing s := rfl

theorem State.onlyRing.trans {s t u : State} (h : s.onlyRing t) (k : t.onlyRing u) : s.onlyRing u := by
  unfold State.onlyRing at *
  rw [k, h]

theorem State.onlyPosts.onlyRing {s t : State} (h : s.onlyPosts t) : s.onlyRing t := by
  unfold State.onlyPosts at h
  rw [h]
  rfl

theorem State.raise_onlyRing (s : State) {k : RecKind} (h : (BitVec.ofNat 16 k.source).toNat ≠ 17) (v : Word) : s.onlyRing (s.raise k v) :=
  (s.raiseFrom_onlyPosts h k v).onlyRing

theorem State.enterTime_holdover_onlyRing (s : State) : s.onlyRing (s.enterTime .holdover) := by
  unfold State.enterTime
  dsimp only
  split
  · rfl
  · split
    · exact State.onlyRing.trans (t := { s with ring := _ }) rfl (State.raise_onlyRing _ (by decide) _)
    · rfl

theorem State.judgePtpPort_onlyRing (s : State) : s.onlyRing s.judgePtpPort := by
  unfold State.judgePtpPort
  dsimp only
  split
  · exact s.onlyRing_refl
  · split
    · exact State.onlyRing.trans (t := { s with ring := _ }) rfl (State.enterTime_holdover_onlyRing _)
    · rfl

theorem State.pathAlarm_onlyRing (s : State) (path : Nat) : s.onlyRing (s.pathAlarm path) :=
  State.onlyRing.trans (t := s.fireSource 401) rfl (State.raise_onlyRing _ (by decide) _)

theorem State.judgePaths_onlyRing (s : State) : s.onlyRing s.judgePaths := by
  unfold State.judgePaths
  split
  · exact s.onlyRing_refl
  split
  · exact State.onlyRing.trans (t := { s with pair := _ }) rfl (State.pathAlarm_onlyRing _ _)
  split
  · exact State.onlyRing.trans (t := { s with pair := _ }) rfl (State.pathAlarm_onlyRing _ _)
  · exact s.onlyRing_refl

theorem State.ringPathLost_onlyRing (s : State) : s.onlyRing s.ringPathLost := by
  unfold State.ringPathLost
  split
  · exact s.onlyRing_refl
  · exact State.onlyRing.trans (t := { s with pair := _ }) rfl (State.judgePaths_onlyRing _)

theorem State.loseLink_onlyRing (s : State) {p : Nat} (hp : p ≤ 1) : s.onlyRing (s.loseLink p) := by
  have hsrc : (BitVec.ofNat 16 (10 + p)).toNat ≠ 17 := by
    rw [BitVec.toNat_ofNat]
    omega
  unfold State.loseLink
  exact ((State.onlyRing.trans (t := s.modRingPort p _) rfl (State.raiseFrom_onlyPosts _ hsrc _ _).onlyRing).trans
    (State.judgePtpPort_onlyRing _)).trans (State.ringPathLost_onlyRing _)

/-! ## A restart in place (R33) -/

/-- The island stands still, for the first time or again, and source 410 fires. -/
def State.islandStops (s : State) (n : Nat) : State :=
  (s.modIsland n fun i =>
    { i with state := .restarting, left := some s.now, past := if s.looksBack then (s.now, i.state) :: i.past else []
             restarts := i.restarts.filter (fun t => decide (s.now < t + 60000000000)) ++ [s.now] }).fireSource 410

/-- The island restarts: its state, its restarts, source 410 and the record. -/
def State.islandDown (s : State) (n : Nat) : State := (s.islandStops n).raiseUnstated n .islandRestart

/-- The restart of GE-A takes its link down; that of the island of the counting inputs has no effect of its own. -/
theorem State.restartIsland_eq (s : State) {n : Nat} (h : n = 10 ∨ n = 15) : s.restartIsland n =
    if n = 10 ∧ ((s.islandDown n).ringPort 0).link = true then (s.islandDown n).loseLink 0 else s.islandDown n := by
  obtain rfl | rfl := h <;> simp [State.restartIsland, State.islandDown, State.islandStops, State.inputsToFire]

/-- `t` differs from `s` in what the restart of an island without field outputs touches at most. -/
def State.onlyRestart (s t : State) : Prop :=
  t = { s with freeCount := t.freeCount, islands := t.islands, round := t.round, crossings := t.crossings, nextSend := t.nextSend, ring := t.ring
               pair := t.pair }

theorem State.onlyRestart.trans {s t u : State} (h : s.onlyRestart t) (k : t.onlyRestart u) : s.onlyRestart u := by
  unfold State.onlyRestart at *
  rw [k, h]

theorem State.onlyRing.onlyRestart {s t : State} (h : s.onlyRing t) : s.onlyRestart t := by
  unfold State.onlyRing at h
  rw [h]
  rfl

theorem State.onlyRing.islands {s t : State} (h : s.onlyRing t) : t.islands = s.islands := by
  unfold State.onlyRing at h
  rw [h]

theorem State.onlyPosts.islands {s t : State} (h : s.onlyPosts t) : t.islands = s.islands := h.onlyRing.islands

theorem State.islandDown_onlyRestart (s : State) {n : Nat} (h : (BitVec.ofNat 16 n).toNat ≠ 17) : s.onlyRestart (s.islandDown n) := by
  rw [State.islandDown, State.raiseUnstated_eq _ h]
  rfl

theorem State.islandDown_island (s : State) {n : Nat} (h : (BitVec.ofNat 16 n).toNat ≠ 17) : ((s.islandDown n).island n).state = .restarting := by
  have hstops : ((s.islandStops n).island n).state = .restarting := by
    rw [State.islandStops, State.island, State.fireSource_islands, ← State.island, State.modIsland_same]
  rw [State.islandDown, State.raiseUnstated_eq _ h]
  exact hstops

theorem State.restartIsland_rows (s : State) {n : Nat} (h : n = 10 ∨ n = 15) :
    s.onlyRestart (s.restartIsland n) ∧ ((s.restartIsland n).island n).state = .restarting := by
  have hn : (BitVec.ofNat 16 n).toNat ≠ 17 := by obtain rfl | rfl := h <;> decide
  have hdown := s.islandDown_onlyRestart hn
  have hstate := s.islandDown_island hn
  rw [State.restartIsland_eq s h]
  split
  · have hlink := (s.islandDown n).loseLink_onlyRing (p := 0) (by decide)
    exact ⟨hdown.trans hlink.onlyRestart, by rwa [State.island, hlink.islands]⟩
  · exact ⟨hdown, hstate⟩

theorem State.crossingFault_sender (s : State) {f : CrossingFault} (hs : f.senderFaulty = true) (hr : f.receiverFaulty = false) :
    s.crossingFault f = State.islandFault { s with mismatches := satInc s.mismatches } (crossingId f.sender f.receiver) f.discrepancy f.sender := by
  simp [State.crossingFault, hs, hr]

theorem State.restarts60_congr {s t : State} (hi : t.islands = s.islands) (hn : t.now = s.now) (n : Nat) : t.restarts60 n = s.restarts60 n := by
  simp [State.restarts60, State.island, hi, hn]

theorem State.islandFault_restarts {s : State} {n : Nat} (id : Nat) (d : Int) (h17 : (BitVec.ofNat 16 n).toNat ≠ 17)
    (hres : restartable n = true) (hrun : (s.island n).state = .run) (h60 : s.restarts60 n < 3) :
    s.islandFault id d n = (s.raiseFrom n .tollgateMismatch (mkWord [(25, 16, id), (15, 0, (BitVec.ofInt 16 d).toNat)])).restartIsland n := by
  have hr := s.raiseFrom_onlyPosts h17 .tollgateMismatch (mkWord [(25, 16, id), (15, 0, (BitVec.ofInt 16 d).toNat)])
  have hnow : (s.raiseFrom n .tollgateMismatch (mkWord [(25, 16, id), (15, 0, (BitVec.ofInt 16 d).toNat)])).now = s.now := by
    unfold State.onlyPosts at hr
    rw [hr]
  have hfew := State.restarts60_congr hr.islands hnow n ▸ h60
  unfold State.islandFault
  dsimp only
  rw [State.island, hr.islands, ← State.island, hrun, if_neg (by simp), if_pos (by rw [hres, decide_eq_true hfew]; rfl)]

/-! ## The end of a restart (R33) -/

theorem State.each_field {α β : Type} (g : State → β) {f : State → α → State} (hf : ∀ s x, g (f s x) = g s) (s : State) (l : List α) :
    g (s.each l f) = g s := by
  induction l generalizing s with
  | nil => rfl
  | cons x l ih => exact (ih (f s x)).trans (hf s x)

/-- `t` differs from `s` in FIRE at most. -/
def State.onlyFire (s t : State) : Prop := t = { s with fire := t.fire }

theorem State.tellFire_onlyFire (s : State) : s.onlyFire s.tellFire := by
  have hstep : ∀ (t : State) (n : Nat), s.onlyFire t → s.onlyFire (if t.diEnable n then t.diToFire n else t) := fun t n h => by
    unfold State.onlyFire at *
    split
    · unfold State.diToFire
      split
      · rw [h]; rfl
      · exact h
    · exact h
  have hall : ∀ (l : List Nat) (t : State), s.onlyFire t → s.onlyFire (t.each l fun s n => if s.diEnable n then s.diToFire n else s) := by
    intro l
    induction l with
    | nil => exact fun _ h => h
    | cons n l ih => exact fun t h => ih _ (hstep t n h)
  exact hall _ s rfl

/-- `t` differs from `s` in what the return of a CAN island touches at most. -/
def State.onlyPort (s t : State) : Prop :=
  t = { s with mram := { s.mram with canEnable := t.mram.canEnable, voidCopies := t.mram.voidCopies, seqs := t.mram.seqs }, cans := t.cans }

theorem State.canIslandBack_onlyPort (s : State) (p : Nat) : s.onlyPort (s.canIslandBack p) := by
  unfold State.canIslandBack
  dsimp only
  split
  · rfl
  · split <;> rfl
  · split
    · split <;> rfl
    · rfl

/-! ## A domain that has powered up (R22) -/

theorem State.sealArray_service (s : State) (a : Nat) : (s.sealArray a).service = s.service := by
  unfold State.sealArray
  dsimp only
  (repeat' split) <;> rfl

theorem State.modIslands_service (s : State) (l : List Nat) (f : State → Nat → Island → Island) :
    (s.each l fun s n => s.modIsland n (f s n)).service = s.service := by
  refine State.each_field State.service ?_ s l
  intro t n
  rfl

theorem State.seal_service (s : State) (d : Nat) : (s.seal d).service = s.service := by
  refine State.each_field State.service (fun t a => ?_) s _
  split
  · rfl
  · exact t.sealArray_service a

theorem State.domainUp_service (s : State) (d : Nat) : (s.domainUp d).service = s.service := by
  unfold State.domainUp State.setIslands
  rw [State.seal_service, State.modIslands_service, State.modIslands_service]
  rfl

/-! ## The reference clock (R19) -/

/-- A sweep over islands changes each of them once, and nothing else. -/
theorem State.each_modIsland (f : Island → Island) (s : State) {l : List Nat} (hl : l.Nodup) :
    (s.each l fun s n => s.modIsland n f) = { s with islands := (s.each l fun s n => s.modIsland n f).islands } ∧
      ∀ m, (s.each l fun s n => s.modIsland n f).island m = if m ∈ l then f (s.island m) else s.island m := by
  induction l generalizing s with
  | nil => exact ⟨rfl, fun _ => rfl⟩
  | cons n l ih =>
    obtain ⟨hn, hl⟩ := List.nodup_cons.mp hl
    obtain ⟨hframe, hisland⟩ := ih (s.modIsland n f) hl
    refine ⟨hframe, fun m => (hisland m).trans ?_⟩
    by_cases hm : m = n
    · subst hm
      simp [hn]
    · simp [hm, State.modIsland_other]

theorem refIslands_nodup : refIslands.Nodup := List.nodup_range.filter _

theorem mem_refIslands (n : Nat) : n ∈ refIslands ↔ n < 20 ∧ n ≠ 9 ∧ n ≠ 18 := by simp [refIslands]

/-- Settles O49: an audit round restarts the island at fault, a restart ends in RUN, and the clock and the domains follow their events. -/
theorem islandRows : Obligations.IslandRows := by
  unfold Obligations.IslandRows
  intro s
  refine ⟨?clean, ?early, ?fault, ?back, ?clockLost, ?clockBack, ?domain, fun v => rfl⟩
  case clean =>
    intro hk hdue
    have hexec : exec (.auditRound [] []) s = execAuditRound [] [] s := rfl
    rw [hexec, execAuditRound_due (s.auditDue_iff.mpr ⟨hk, hdue⟩)]
    rfl
  case early =>
    intro l w hfrom hto
    have hno : s.auditDue = false := by
      rw [Bool.eq_false_iff, Ne, State.auditDue_iff]
      omega
    exact if_pos (by simp [hno])
  case fault =>
    intro f hk hdue hs hr hn hrun h60
    have h17 : (BitVec.ofNat 16 f.sender.val).toNat ≠ 17 := by obtain h | h := hn <;> rw [h] <;> decide
    have hres : restartable f.sender = true := by obtain h | h := hn <;> rw [h] <;> decide
    have hexec : exec (.auditRound [f] []) s = execAuditRound [f] [] s := rfl
    let u := State.raiseFrom { s with mismatches := satInc s.mismatches } f.sender .tollgateMismatch
      (mkWord [(25, 16, crossingId f.sender f.receiver), (15, 0, (BitVec.ofInt 16 f.discrepancy).toNat)])
    have hu := State.raiseFrom_onlyPosts { s with mismatches := satInc s.mismatches } h17 .tollgateMismatch
      (mkWord [(25, 16, crossingId f.sender f.receiver), (15, 0, (BitVec.ofInt 16 f.discrepancy).toNat)])
    have hfault : s.crossingFault f = u.restartIsland f.sender := by
      rw [State.crossingFault_sender s hs hr]
      exact State.islandFault_restarts _ _ h17 hres hrun h60
    obtain ⟨hframe, hstate⟩ := u.restartIsland_rows hn
    have hall := hu.onlyRing.onlyRestart.trans hframe
    rw [hexec, execAuditRound_due (s.auditDue_iff.mpr ⟨hk, Or.inl hdue⟩)]
    have hround : (s.each [f] State.crossingFault).each [] State.windowFault = u.restartIsland f.sender := hfault
    rw [hround]
    unfold State.onlyRestart at hall
    refine ⟨_, rfl, ?_, ?_, ?_, hstate⟩
    · dsimp only
      rw [hall]
    · dsimp only
      rw [hall]
    · dsimp only
      rw [hall]
  case back =>
    intro n hst hon
    have hexec : exec (.islandRestartComplete n) s = execIslandRestartComplete n s := rfl
    rw [hexec]
    unfold execIslandRestartComplete
    extract_lets u
    have hu : (u.island n).state = .run := by
      rw [State.modIsland_same]
      simp only [State.afterRestart, hon]
    rw [if_neg (by simp [hst])]
    split
    · have h := u.canIslandBack_onlyPort (n - 12)
      unfold State.onlyPort at h
      refine ⟨_, rfl, ?_, ?_⟩
      · rw [h]; rfl
      · rw [h]; exact hu
    split
    · exact ⟨_, rfl, rfl, hu⟩
    · unfold State.inputsToFire
      split
      · have h := u.tellFire_onlyFire
        unfold State.onlyFire at h
        refine ⟨_, rfl, ?_, ?_⟩
        · rw [h]; rfl
        · rw [h]; exact hu
      · exact ⟨_, rfl, rfl, hu⟩
  case clockLost =>
    intro hno hservice
    have hexec : exec .refClockLost s = execRefClockLost s := rfl
    obtain ⟨hframe, hisland⟩ := s.each_modIsland (fun i => { i with clksrc := true }) refIslands_nodup
    rw [hexec]
    unfold execRefClockLost
    dsimp only
    rw [if_neg (by simp [hno, hservice])]
    generalize s.each refIslands (fun s n => s.modIsland n fun i => { i with clksrc := true }) = u at hframe hisland
    have hlast := State.raiseUnstated_eq (State.fireSource { u with power := { u.power with refLost := true } } 411) (src := 18) (by decide) .refClockLost
    generalize State.raiseUnstated (State.fireSource { u with power := { u.power with refLost := true } } 411) 18 .refClockLost = v at hlast ⊢
    refine ⟨v, rfl, ?_, ?_, fun n hn => ?_⟩
    · rw [hlast, hframe]
      rfl
    · rw [hlast]
      rfl
    · have hv : v.island n = u.island n := by rw [hlast]; rfl
      rw [hv, hisland]
      by_cases h : n = 9 ∨ n = 18
      · rw [if_neg fun hm => by have := (mem_refIslands n).mp hm; omega, if_pos h]
      · rw [if_pos ((mem_refIslands n).mpr (by omega)), if_neg h]
  case clockBack =>
    intro hlost
    have hexec : exec .refClockRestored s = execRefClockRestored s := rfl
    rw [hexec]
    unfold execRefClockRestored State.refBack
    rw [if_neg (by simp [hlost])]
    dsimp only
    rw [if_neg (by simp)]
    let u : State := { s with power := { s.power with refLost := false } }
    let back := refIslands.filter fun n => (u.island n).clksrc && u.idlePoint n
    have hmem : ∀ n, n ∈ back ↔ (n < 20 ∧ n ≠ 9 ∧ n ≠ 18) ∧ (s.island n).clksrc = true ∧ s.idlePoint n = true := fun n => by
      rw [List.mem_filter, mem_refIslands, Bool.and_eq_true]
      rfl
    obtain ⟨hframe, hisland⟩ := u.each_modIsland (fun i => { i with clksrc := false }) (l := back) (refIslands_nodup.filter _)
    refine ⟨u.each back fun s n => s.modIsland n fun i => { i with clksrc := false }, rfl, ?_⟩
    generalize (u.each back fun s n => s.modIsland n fun i => { i with clksrc := false }) = v at hframe hisland ⊢
    refine ⟨?_, ?_, fun n hn => ?_⟩
    · rw [hframe]
    · rw [hframe]
    · rw [hisland]
      by_cases h : n = 9 ∨ n = 18 ∨ s.idlePoint n = false
      · rw [if_pos h, if_neg fun hm => ?_]
        · rfl
        · obtain ⟨⟨-, h9, h18⟩, -, hidle⟩ := (hmem n).mp hm
          simp [h9, h18, hidle] at h
      · rw [if_neg h]
        obtain ⟨h9, h18, hidle⟩ : n ≠ 9 ∧ n ≠ 18 ∧ s.idlePoint n = true := by simpa using h
        split
        · rfl
        · next hm =>
          have hclear : ¬ (s.island n).clksrc = true := fun hc => hm ((hmem n).mpr ⟨⟨hn, h9, h18⟩, hc, hidle⟩)
          exact Bool.eq_false_iff.mpr hclear
  case domain =>
    intro d hd hw
    have hexec : exec (.domainPowerUpComplete d) s = execDomainPowerUpComplete d s := rfl
    have hup : (s.domainUp d).service = s.service := s.domainUp_service d
    unfold execDomainPowerUpComplete at hexec
    rw [if_neg (by simp [hd, hw])] at hexec
    dsimp only at hexec
    rw [hup] at hexec
    exact ⟨fun h => by rw [hexec, h]; rfl, fun h => by rw [hexec, if_neg (by simpa using h)]⟩

end Sys2Proof.Machine
end

/-! # Replies and windows

A packet that is no longer than the ring carries stands on the wire of every open port of its transport and in the ring ports' hands (R380 to R384). A reply's
next packet is such a packet (R40, R55); what it leaves of the reply is `replyLeft`. -/

section
namespace Sys2Proof.Machine
open Sys2Proof

/-! ## Lengths (R40, R43, R364) -/

@[simp] theorem length_toBe (n v : Nat) : (toBe n v).length = n := by
  induction n with
  | zero => rfl
  | succ n ih => simp [toBe, ih]

@[simp] theorem Packet.length_header (p : Packet) : p.header.length = 24 := by simp [Packet.header]

theorem Packet.length_mac (p : Packet) (key : List Byte) : (p.mac key).length ≤ 16 := List.length_take_le _ _

@[simp] theorem State.length_entry (s : State) (m : Nat) (i : BitVec 32) : (s.entry m i).length = 8 := by
  unfold State.entry
  repeat' split
  all_goals simp

@[simp] theorem State.length_entries (s : State) (m n : Nat) (i : BitVec 32) : (s.entries m n i).length = 8 * n := by
  induction n generalizing i with
  | zero => rfl
  | succ n ih =>
    rw [State.entries, List.length_append, State.length_entry, ih]
    omega

theorem length_wordBes (l : List (Word × Bool)) : (l.flatMap fun x => wordBe x.1).length = 4 * l.length := by
  simp [List.length_flatMap, wordBe, Nat.mul_comm]

/-- A packet of an upload holds 43 records, or 42 and the bitmap of their marks (log 30). -/
theorem State.length_uploadPacket (s : State) (i : BitVec 32) (n : Nat) : (s.uploadPacket i n).1.length ≤ 1400 := by
  unfold State.uploadPacket
  extract_lets left full k l marks poisoned st body
  have hfull : full.length = 8 * min 43 left := s.length_entries 0 _ i
  have hl : l.length ≤ 8 * k := List.length_take_le _ _
  have hk43 : k ≤ 43 := by unfold k; split <;> omega
  have hk42 : poisoned = true → k ≤ 42 := by
    intro h
    have hmarked : full.any (·.2) = true := by
      obtain ⟨x, hx, hx2⟩ := List.any_eq_true.mp h
      exact List.any_eq_true.mpr ⟨x, List.mem_of_mem_take hx, hx2⟩
    unfold k
    rw [if_pos hmarked]
    omega
  have hmarks : (if poisoned then marks else []).length ≤ 1394 - 32 * k := by
    split
    · next h =>
      have := hk42 h
      simp only [marks, List.length_map, List.length_range]
      omega
    · simp
  simp only [body, List.length_append, length_toBe, pad, List.length_replicate, length_wordBes]
  omega

/-! ## A frame in the hands of a ring port (R384) -/

/-- A ring port has a frame: on its link, or among those that wait. -/
def RingPort.has (x : RingPort) (f : HsrFrame) : Prop := x.onLink = some f ∨ f ∈ x.queue

theorem mem_placeFrame (f : HsrFrame) (l : List HsrFrame) : f ∈ placeFrame f l := by
  induction l with
  | nil => simp [placeFrame]
  | cons g l ih =>
    unfold placeFrame
    split
    · simp
    · exact List.mem_cons_of_mem _ ih

@[simp] theorem RingPort.sentBy_link (x : RingPort) (p now : Nat) (l : List HsrFrame) : (x.sentBy p now l).link = x.link := by
  induction l generalizing x with
  | nil => rfl
  | cons f l ih =>
    unfold RingPort.sentBy
    split
    · rw [ih]
    · rfl

@[simp] theorem RingPort.take_link (x : RingPort) (p now : Nat) (f : HsrFrame) : (x.take p now f).link = x.link := by
  unfold RingPort.take
  dsimp only
  split <;> exact x.sentBy_link p now x.queue

theorem RingPort.take_has (x : RingPort) (p now : Nat) (f : HsrFrame) : (x.take p now f).has f := by
  unfold RingPort.take
  dsimp only
  split
  · exact .inl rfl
  · exact .inr (mem_placeFrame f _)

theorem State.portTx_ringPort_other (s : State) {p n : Nat} (f : HsrFrame) (h : n ≠ p) : (s.portTx p f).ringPort n = s.ringPort n := by
  unfold State.portTx
  split
  · exact s.modRingPort_other _ h
  · rfl

theorem State.portTx_has {s : State} {p : Nat} {f : HsrFrame} (hup : s.ringPortUp p = true) (hfit : ringFits f.payload = true) :
    ((s.portTx p f).ringPort p).has f := by
  unfold State.portTx
  rw [if_pos (by simp [hup, hfit]), State.modRingPort_same]
  exact RingPort.take_has _ _ _ _

theorem State.portTx_ringPort_link (s : State) (p n : Nat) (f : HsrFrame) : ((s.portTx p f).ringPort n).link = (s.ringPort n).link := by
  by_cases h : n = p
  · subst h
    unfold State.portTx
    split
    · rw [State.modRingPort_same, RingPort.take_link]
    · rfl
  · rw [s.portTx_ringPort_other f h]

@[simp] theorem State.portTx_ringPortUp (s : State) (p n : Nat) (f : HsrFrame) : (s.portTx p f).ringPortUp n = s.ringPortUp n := by
  have hisl : (s.portTx p f).island (10 + n) = s.island (10 + n) := by rw [s.portTx_eq p f]; rfl
  unfold State.ringPortUp
  rw [s.portTx_ringPort_link, hisl]

@[simp] theorem State.sendRing_ringPortUp (s : State) (d : BitVec 48) (e : BitVec 16) (l : List Byte) (n : Nat) :
    (s.sendRing d e l).ringPortUp n = s.ringPortUp n := by
  unfold State.sendRing
  rw [State.portTx_ringPortUp, State.portTx_ringPortUp]
  rfl

/-- The frame of a command packet or a reply as the module sends it (R380, R381). -/
def State.commandFrame (s : State) (p : Packet) : HsrFrame :=
  { source := s.mram.mac, dest := p.peer, seq := s.ring.hsrSeq, etherType := etCommand, payload := p.header ++ p.payload ++ p.auth }

theorem State.sendRing_has {s : State} {p : Packet} (hfit : ringFits (p.header ++ p.payload ++ p.auth) = true) {n : Nat} (hn : n < 2)
    (hup : s.ringPortUp n = true) : ((s.sendRing p.peer etCommand (p.header ++ p.payload ++ p.auth)).ringPort n).has (s.commandFrame p) := by
  unfold State.sendRing
  obtain rfl | rfl : n = 0 ∨ n = 1 := by omega
  · rw [State.portTx_ringPort_other _ _ (by decide)]
    exact State.portTx_has hup hfit
  · exact State.portTx_has ((State.portTx_ringPortUp _ 0 1 _).trans hup) hfit

/-! ## A packet leaves (R380 to R382) -/

@[simp] theorem State.onWire_ringPort (s : State) (port : Port) (p : Packet) (n : Nat) : (s.onWire port p).ringPort n = s.ringPort n := rfl
@[simp] theorem State.onWire_ringPortUp (s : State) (port : Port) (p : Packet) (n : Nat) : (s.onWire port p).ringPortUp n = s.ringPortUp n := rfl
@[simp] theorem State.onWire_get_same (s : State) (port : Port) (p : Packet) : (s.onWire port p).sup.wire.get none (portNo port) = some p :=
  Tab.get_set_same none s.sup.wire (portNo port) (some p)
theorem State.onWire_get_other (s : State) {port r : Port} (p : Packet) (h : portNo r ≠ portNo port) :
    (s.onWire port p).sup.wire.get none (portNo r) = s.sup.wire.get none (portNo r) :=
  Tab.get_set_other none s.sup.wire (some p) h

/-- A packet leaves by both ports of the ring. -/
def State.sendOnRing (s : State) (p : Packet) : State :=
  let s := s.sendRing p.peer etCommand (p.header ++ p.payload ++ p.auth)
  let s := if s.ringPortUp 0 then s.onWire .ringA p else s
  if s.ringPortUp 1 then s.onWire .ringB p else s

theorem State.send_eq (s : State) (p : Packet) : s.send p = if ringPath p.port then s.sendOnRing p else s.onWire p.port p := by
  unfold State.send
  cases p.port <;> rfl

/-- Only the wire and the ring change. -/
theorem State.send_frame (s : State) (p : Packet) :
    s.send p = { s with sup := { s.sup with wire := (s.send p).sup.wire }, ring := (s.send p).ring } := by
  rw [s.send_eq]
  split
  · unfold State.sendOnRing
    rw [s.sendRing_eq]
    dsimp only
    repeat' split
    all_goals rfl
  · rfl

theorem State.sendOnRing_ringPort (s : State) (p : Packet) (n : Nat) :
    (s.sendOnRing p).ringPort n = (s.sendRing p.peer etCommand (p.header ++ p.payload ++ p.auth)).ringPort n := by
  unfold State.sendOnRing
  dsimp only
  repeat' split
  all_goals rfl

/-- The packet stands on the wire of each ring port that is up. -/
theorem State.sendOnRing_get {s : State} {p : Packet} {r : Port} (hr : ringPath r = true) (hopen : s.portDown r = false) :
    (s.sendOnRing p).sup.wire.get none (portNo r) = some p := by
  unfold State.sendOnRing
  dsimp only
  cases r with
  | causeway => cases hr
  | svc => cases hr
  | ringA =>
    have hup : s.ringPortUp 0 = true := by simpa [State.portDown] using hopen
    rw [if_pos (show (s.sendRing _ _ _).ringPortUp 0 = true from (s.sendRing_ringPortUp _ _ _ 0).trans hup)]
    split
    · rw [State.onWire_get_other _ _ (by decide)]
      exact State.onWire_get_same _ _ _
    · exact State.onWire_get_same _ _ _
  | ringB =>
    have hup : s.ringPortUp 1 = true := by simpa [State.portDown] using hopen
    rw [if_pos]
    · exact State.onWire_get_same _ _ _
    · split <;> exact (s.sendRing_ringPortUp _ _ _ 1).trans hup

/-- A packet that a ring frame can hold leaves by the open ports of its transport. -/
theorem State.send_sentBy {s : State} {p : Packet} (hpath : s.pathDown p.port = false)
    (hfit : ringFits (p.header ++ p.payload ++ p.auth) = true) : s.sentBy (s.send p) p.port p := by
  refine ⟨hpath, ?_, ?_⟩
  · intro r hr hopen
    rw [s.send_eq]
    cases hring : ringPath p.port with
    | true =>
      rw [if_pos rfl]
      have hrr : ringPath r = true := by
        obtain rfl | ⟨_, h⟩ := hr
        · exact hring
        · exact h
      exact State.sendOnRing_get hrr hopen
    | false =>
      obtain rfl : r = p.port := by
        obtain h | ⟨h, _⟩ := hr
        · exact h
        · rw [hring] at h; cases h
      rw [if_neg (by simp)]
      exact s.onWire_get_same _ _
  · intro hring n hn hup
    refine ⟨s.commandFrame p, rfl, rfl, rfl, rfl, ?_⟩
    rw [s.send_eq, if_pos hring, s.sendOnRing_ringPort]
    exact State.sendRing_has hfit hn hup

/-! ## A packet of a reply (R40, R41, R43) -/

section
variable (s : State) (c : Ctx) (cycle : BitVec 32) (more : Bool) (pay : List Byte)

@[simp] theorem State.replyPacket_port : (s.replyPacket c cycle more pay).port = c.port := by
  unfold State.replyPacket State.packet
  dsimp only
  split <;> rfl

@[simp] theorem State.replyPacket_payload : (s.replyPacket c cycle more pay).payload = pay := by
  unfold State.replyPacket State.packet
  dsimp only
  split <;> rfl

@[simp] theorem State.replyPacket_seq : (s.replyPacket c cycle more pay).seq = c.seq := by
  unfold State.replyPacket State.packet
  dsimp only
  split <;> rfl

@[simp] theorem State.replyPacket_cycle : (s.replyPacket c cycle more pay).cycle = cycle := by
  unfold State.replyPacket State.packet
  dsimp only
  split <;> rfl

@[simp] theorem State.replyPacket_tag : (s.replyPacket c cycle more pay).tag = c.tag := by
  unfold State.replyPacket State.packet
  dsimp only
  split <;> simp

/-- FLAGS of a reply (R41): REPLY, AUTH where it is tagged, MORE. -/
theorem State.replyPacket_flags : ∃ tagged : Bool, (s.replyPacket c cycle more pay).flags = BitVec.ofNat 8 (128 + b2n more * 32 + if tagged then 64 else 0) := by
  refine ⟨c.tagged && (s.key c.keyslot.toNat).installed, ?_⟩
  unfold State.replyPacket State.packet
  dsimp only
  split <;> rfl

@[simp] theorem State.replyPacket_reply : (s.replyPacket c cycle more pay).flag 7 = true := by
  obtain ⟨tagged, h⟩ := s.replyPacket_flags c cycle more pay
  rw [Packet.flag, h]
  cases more <;> cases tagged <;> rfl

@[simp] theorem State.replyPacket_more : (s.replyPacket c cycle more pay).flag 5 = more := by
  obtain ⟨tagged, h⟩ := s.replyPacket_flags c cycle more pay
  rw [Packet.flag, h]
  cases more <;> cases tagged <;> rfl

theorem State.length_replyPacket_auth : (s.replyPacket c cycle more pay).auth.length ≤ 16 := by
  unfold State.replyPacket State.packet
  dsimp only
  split
  · exact Packet.length_mac _ _
  · simp

variable {pay} in
theorem State.replyPacket_fits (h : pay.length ≤ 1400) :
    ringFits ((s.replyPacket c cycle more pay).header ++ (s.replyPacket c cycle more pay).payload ++ (s.replyPacket c cycle more pay).auth) = true := by
  have hauth := s.length_replyPacket_auth c cycle more pay
  simp only [ringFits, List.length_append, Packet.length_header, State.replyPacket_payload, decide_eq_true_eq]
  omega

end

/-! ## The reply whose turn it is -/

/-- What SUP keeps when a packet leaves: the replies that are still to send, and the next place in their order. -/
def State.withReplies (s : State) (l : List Reply) : State := { s with sup := { s.sup with ready := s.sup.ready + 1, replies := l } }

/-- What is left of a reply when a packet of it has left. -/
def State.replyLeft (s : State) (o : Option Reply) : List Reply := (o.map (Reply.goesOn s.now s.sup.ready)).toList

/-- What the packet of a reply leaves behind: its place in the window, if it was the last. -/
def State.replySent (s : State) (r : Reply) (a b : List Reply) (step : List Byte × Option Reply) : State :=
  let t := (s.withReplies (a ++ s.replyLeft step.2 ++ b)).send (s.replyPacket r.ctx r.cycle step.2.isSome step.1)
  if step.2.isNone && r.counts then t.freePlace r.ctx.origin else t

theorem pickReply_port {now : Nat} {port : Port} {l a b : List Reply} {r : Reply} (h : pickReply now port l = some (a, r, b)) : r.ctx.port = port := by
  induction l generalizing a r b with
  | nil => cases h
  | cons x l ih =>
    unfold pickReply at h
    split at h
    · split at h
      · next hx => cases h; simpa using hx
      · cases h
    · next a' y b' hl =>
      split at h
      · next hx =>
        cases h
        simp only [Bool.and_eq_true, beq_iff_eq] at hx
        exact hx.1
      · cases h
        exact ih hl

theorem execReplyPacketSend_idle {s : State} {port : Port}
    (h : s.supAnswers = false ∨ s.pathDown port = true ∨ pickReply s.now port s.sup.replies = none) : execReplyPacketSend port s = .next s := by
  unfold execReplyPacketSend
  split
  · rfl
  · next hgo =>
    simp only [Bool.or_eq_true, Bool.not_eq_true', not_or, Bool.not_eq_false, Bool.not_eq_true] at hgo
    obtain ⟨hsup, hpath⟩ := hgo
    obtain h | h | h := h
    · rw [hsup] at h; cases h
    · rw [hpath] at h; cases h
    · rw [h]

section
variable {s : State} {port : Port} {r : Reply} {a b : List Reply}

/-- A reply whose packet meets no error and no page under repair leaves in its turn. -/
theorem execReplyPacketSend_sends (hsup : s.supAnswers = true) (hpath : s.pathDown port = false)
    (hpick : pickReply s.now port s.sup.replies = some (a, r, b)) (hturn : s.replyTurn r = true) {step : List Byte × Option Reply}
    (hread : s.readWords 7 (s.uploadWords r) = s) (hlock : ∀ w ∈ s.uploadWords r, s.locked 7 w = false)
    (hstep : (s.markRecords (r.marks ++ s.badOf 7 (s.uploadWords r))).replyStep r = step) :
    execReplyPacketSend port s = .next (s.replySent r a b step) := by
  have hfree : ((s.uploadWords r).any fun w => s.locked 7 w && !(r.marks ++ s.badOf 7 (s.uploadWords r)).contains w) = false := by
    rw [List.any_eq_false]
    intro w hw
    simp [hlock w hw]
  unfold execReplyPacketSend
  rw [if_neg (by simp [hsup, hpath]), hpick]
  dsimp only
  rw [hread, if_neg (by simp [hturn]), hfree, hstep]
  rfl

theorem State.uploadWords_none (h : r.upload = none) : s.uploadWords r = [] := by simp [State.uploadWords, h]

theorem State.replyStep_none (h : r.upload = none) : s.replyStep r =
    (((toBe 2 r.status.toNat ++ r.body).drop (1400 * r.sent)).take 1400,
      if ((toBe 2 r.status.toNat ++ r.body).drop (1400 * r.sent)).length ≤ 1400 then none else some { r with sent := r.sent + 1 }) := by
  unfold State.replyStep
  rw [h]
  rfl

theorem State.replyStep_some {u : BitVec 32 × Nat} (h : r.upload = some u) : s.replyStep r =
    ((s.uploadPacket u.1 u.2).1, (s.uploadPacket u.1 u.2).2.map fun v => { r with sent := r.sent + 1, upload := some v }) := by
  unfold State.replyStep
  rw [h]

theorem execReplyPacketSend_body (hsup : s.supAnswers = true) (hpath : s.pathDown port = false)
    (hpick : pickReply s.now port s.sup.replies = some (a, r, b)) (hturn : s.replyTurn r = true) (hup : r.upload = none) :
    execReplyPacketSend port s = .next (s.replySent r a b (s.replyStep r)) := by
  refine execReplyPacketSend_sends hsup hpath hpick hturn ?_ ?_ ?_
  · rw [s.uploadWords_none hup]; rfl
  · rw [s.uploadWords_none hup]; simp
  · rw [State.replyStep_none hup, State.replyStep_none hup]

theorem execReplyPacketSend_upload (hsup : s.supAnswers = true) (hpath : s.pathDown port = false)
    (hpick : pickReply s.now port s.sup.replies = some (a, r, b)) (hturn : s.replyTurn r = true) (hquiet : s.quiet = true) (hmarks : r.marks = []) :
    execReplyPacketSend port s = .next (s.replySent r a b (s.replyStep r)) := by
  obtain ⟨hlocks, hupsets⟩ := s.quiet_iff.mp hquiet
  refine execReplyPacketSend_sends hsup hpath hpick hturn (State.readWords_clear hupsets _ _) (fun w _ => State.locked_clear hlocks _ w) ?_
  rw [hmarks, State.badOf_clear hupsets]
  rfl

end

/-! ## What a packet of a reply leaves behind -/

section
variable {s : State} {r : Reply} {a b : List Reply}

theorem State.replySent_frame (s : State) (r : Reply) (a b : List Reply) (step : List Byte × Option Reply) :
    let t := s.replySent r a b step
    t = { s with sup := { s.sup with replies := t.sup.replies, wire := t.sup.wire, windows := t.sup.windows, ready := s.sup.ready + 1 }, ring := t.ring } := by
  unfold State.replySent
  dsimp only
  rw [State.send_frame]
  split <;> rfl

theorem State.replySent_replies (s : State) (r : Reply) (a b : List Reply) (step : List Byte × Option Reply) :
    (s.replySent r a b step).sup.replies = a ++ s.replyLeft step.2 ++ b := by
  unfold State.replySent
  dsimp only
  rw [State.send_frame]
  split <;> rfl

theorem State.replySent_windows_some (s : State) (r x : Reply) (a b : List Reply) (pay : List Byte) :
    (s.replySent r a b (pay, some x)).sup.windows = s.sup.windows := by
  unfold State.replySent
  dsimp only
  rw [State.send_frame]
  rfl

theorem State.replySent_windows_none (s : State) (r : Reply) (a b : List Reply) (pay : List Byte) :
    (s.replySent r a b (pay, none)).sup.windows = if r.counts
      then s.sup.windows.map fun w => if w.origin == r.ctx.origin then { w with used := w.used - 1, lastAt := s.now } else w
      else s.sup.windows := by
  unfold State.replySent
  dsimp only
  rw [State.send_frame]
  cases r.counts <;> rfl

theorem State.sentBy_freePlace {s t : State} {port : Port} {q : Packet} (o : BitVec 16) (h : s.sentBy t port q) : s.sentBy (t.freePlace o) port q := h

theorem State.sentBy_of_withReplies {s t : State} {port : Port} {q : Packet} {l : List Reply} (h : (s.withReplies l).sentBy t port q) :
    s.sentBy t port q := h

theorem State.replySent_sentBy {step : List Byte × Option Reply} (hpath : s.pathDown r.ctx.port = false) (hfit : step.1.length ≤ 1400) :
    s.sentBy (s.replySent r a b step) r.ctx.port (s.replyPacket r.ctx r.cycle step.2.isSome step.1) := by
  have hsent : s.sentBy ((s.withReplies (a ++ s.replyLeft step.2 ++ b)).send (s.replyPacket r.ctx r.cycle step.2.isSome step.1)) r.ctx.port
      (s.replyPacket r.ctx r.cycle step.2.isSome step.1) := by
    have h := State.send_sentBy (s := s.withReplies (a ++ s.replyLeft step.2 ++ b)) (p := s.replyPacket r.ctx r.cycle step.2.isSome step.1)
      (by rw [s.replyPacket_port]; exact hpath) (s.replyPacket_fits _ _ _ hfit)
    rw [s.replyPacket_port] at h
    exact State.sentBy_of_withReplies h
  unfold State.replySent
  dsimp only
  split
  · exact State.sentBy_freePlace _ hsent
  · exact hsent

/-- The packet that has left, with the fields of its request. -/
theorem State.replySent_packet {step : List Byte × Option Reply} (hpath : s.pathDown r.ctx.port = false) (hfit : step.1.length ≤ 1400) :
    ∃ q, s.sentBy (s.replySent r a b step) r.ctx.port q ∧ q.payload = step.1 ∧ q.seq = r.ctx.seq ∧ q.tag = r.ctx.tag ∧ q.cycle = r.cycle ∧
      q.flag 7 = true ∧ q.flag 5 = step.2.isSome :=
  ⟨_, State.replySent_sentBy hpath hfit, by simp, by simp, by simp, by simp, by simp, by simp⟩

/-- Each further packet of a Class 3 reply takes its turn anew (R28). -/
theorem State.replyLeft_some (s : State) (r : Reply) : s.replyLeft (some r) =
    [{ r with marks := [], readyAt := if r.ctx.cls = 3 then s.now else r.readyAt, order := if r.ctx.cls = 3 then s.sup.ready else r.order }] := by
  by_cases h : r.ctx.cls = 3
  · simp only [State.replyLeft, Option.map_some, Option.toList_some, Reply.goesOn, beq_iff_eq, if_pos h]
  · simp only [State.replyLeft, Option.map_some, Option.toList_some, Reply.goesOn, beq_iff_eq, if_neg h]

end

/-! ## Requests that are late (R55) -/

/-- From `s` to `t` the requests `l` have been answered BAD_LENGTH. -/
structure State.refusedTo (s t : State) (l : List Partial) : Prop where
  frame : t = { s with sup := { s.sup with replies := t.sup.replies, windows := t.sup.windows, ready := t.sup.ready } }
  ctxs : t.sup.replies.map (·.ctx) = s.sup.replies.map (·.ctx) ++ (l.filter fun q => q.ctx.gen == s.sup.gen && !q.ctx.broadcast).map (·.ctx)
  added : ∀ r ∈ t.sup.replies, r ∈ s.sup.replies ∨ (r.status = Status.badLength.code ∧ r.body = r.ctx.refusalBody ∧ r.sent = 0)
  windows : (∀ q ∈ l, q.ctx.broadcast = false) → t.sup.windows = s.sup.windows

theorem State.refusedTo_nil (s : State) : s.refusedTo s [] := ⟨rfl, by simp, fun _ h => .inl h, fun _ => rfl⟩

/-- One request answered BAD_LENGTH. -/
theorem State.refusedTo_refuse (s : State) (q : Partial) : s.refusedTo (s.refuse q.ctx .badLength) [q] := by
  unfold State.refuse State.reply State.owe
  split
  · next hgen =>
    have hold : (q.ctx.gen == s.sup.gen) = false := by simpa using hgen
    exact ⟨rfl, by simp [hold], fun _ h => .inl h, fun _ => rfl⟩
  · next hgen =>
    have hnow : (q.ctx.gen == s.sup.gen) = true := by simpa using hgen
    rw [if_pos rfl]
    split
    · next hb => exact ⟨rfl, by simp [hb, State.freePlace], fun _ h => .inl h, fun h => by simp [hb] at h⟩
    · next hb =>
      refine ⟨rfl, by simp [hnow, hb], ?_, fun _ => rfl⟩
      intro r hr
      obtain h | h := List.mem_append.mp hr
      · exact .inl h
      · rw [List.mem_singleton.mp h]
        exact .inr ⟨rfl, rfl, rfl⟩

theorem State.refusedTo.gen {s t : State} {l : List Partial} (h : s.refusedTo t l) : t.sup.gen = s.sup.gen := by rw [h.frame]

theorem State.refusedTo.trans {s t u : State} {k l : List Partial} (h : s.refusedTo t k) (h' : t.refusedTo u l) : s.refusedTo u (k ++ l) where
  frame := by
    rw [h'.frame, h.frame]
  ctxs := by rw [h'.ctxs, h.ctxs, h.gen, List.filter_append, List.map_append, List.append_assoc]
  added := fun r hr => by
    obtain hr | hr := h'.added r hr
    · exact h.added r hr
    · exact .inr hr
  windows := fun hb => by
    rw [h'.windows fun q hq => hb q (List.mem_append_right _ hq), h.windows fun q hq => hb q (List.mem_append_left _ hq)]

theorem State.refusedTo_each (s : State) (l : List Partial) : s.refusedTo (s.each l fun s q => s.refuse q.ctx .badLength) l := by
  induction l generalizing s with
  | nil => exact s.refusedTo_nil
  | cons q l ih => exact (s.refusedTo_refuse q).trans (ih _)

/-- A request of an origin under a tag is still incomplete 100 ms after its first packet. -/
def State.lateRequest (s : State) (o tag : BitVec 16) (q : Partial) : Bool :=
  decide (q.ctx.origin = o ∧ q.ctx.tag = tag ∧ q.firstAt + 100000000 ≤ s.now)

theorem execMultiPacketTimeout_eq {s : State} (h : s.supAnswers = true) (o tag : BitVec 16) :
    execMultiPacketTimeout o tag s = .next
      (({ s with sup := { s.sup with partials := s.sup.partials.filter fun q => !s.lateRequest o tag q } } : State).each
        (s.sup.partials.filter (s.lateRequest o tag)) fun s q => s.refuse q.ctx .badLength) := by
  have hdue : (fun (q : Partial) => q.ctx.origin == o && q.ctx.tag == tag && decide (q.firstAt + 100000000 ≤ s.now)) = s.lateRequest o tag := by
    funext q
    rw [Bool.eq_iff_iff]
    simp [State.lateRequest, and_assoc]
  unfold execMultiPacketTimeout
  rw [if_neg (by simp [h]), hdue]

theorem execMultiPacketTimeout_silent {s : State} (h : s.supAnswers = false) (o tag : BitVec 16) : execMultiPacketTimeout o tag s = .next s :=
  if_pos (by simp [h])

/-! ## Windows (R31, R48) -/

/-- What the end of a hold makes of a window. -/
def State.reopened (s : State) (o : BitVec 16) (w : Window) : Window :=
  match w.heldUntil with
  | some t => if w.origin == o && decide (t ≤ s.now) then { w with heldUntil := none, size := s.windowSize, used := 0 } else w
  | none => w

theorem execWindowHoldExpiry_eq (s : State) (o : BitVec 16) :
    execWindowHoldExpiry o s = .next { s with sup := { s.sup with windows := s.sup.windows.map (s.reopened o) } } := rfl

theorem State.reopened_due {s : State} {w : Window} {u : Nat} (hheld : w.heldUntil = some u) (hdue : u ≤ s.now) :
    s.reopened w.origin w = { w with heldUntil := none, size := s.windowSize, used := 0 } := by
  unfold State.reopened
  rw [hheld]
  exact if_pos (by simpa using hdue)

theorem State.reopened_not_due {s : State} {o : BitVec 16} {w : Window} (h : ∀ u : Nat, w.heldUntil = some u → w.origin ≠ o ∨ s.now < u) :
    s.reopened o w = w := by
  unfold State.reopened
  split
  · next u hheld =>
    refine if_neg ?_
    obtain h | h := h u hheld
    · simp [h]
    · simp [Nat.not_le.mpr h]
  · rfl

/-- Settles O48: a packet of a reply leaves by `State.send_sentBy`, and late requests are answered one by one (`State.refusedTo_each`). -/
theorem replyRows : Obligations.ReplyRows := by
  intro s
  refine ⟨?_, ?_, ?_, ?_, ?_, ?_⟩
  · intro port r a b hsup hpath hpick hturn
    obtain rfl := pickReply_port hpick
    refine ⟨?_, ?_, ?_, ?_⟩
    · intro hup hlen
      have hstep : s.replyStep r = ((toBe 2 r.status.toNat ++ r.body).drop (1400 * r.sent), none) := by
        rw [State.replyStep_none hup, if_pos hlen, List.take_of_length_le hlen]
      refine ⟨_, (execReplyPacketSend_body hsup hpath hpick hturn hup).trans (by rw [hstep]), ⟨State.replySent_frame _ _ _ _ _, ?_⟩, ?_, ?_⟩
      · exact State.replySent_packet hpath hlen
      · simp [State.replySent_replies, State.replyLeft]
      · exact State.replySent_windows_none _ _ _ _ _
    · intro hup hlen
      have hstep : s.replyStep r = (((toBe 2 r.status.toNat ++ r.body).drop (1400 * r.sent)).take 1400, some { r with sent := r.sent + 1 }) := by
        rw [State.replyStep_none hup, if_neg (by omega)]
      refine ⟨_, (execReplyPacketSend_body hsup hpath hpick hturn hup).trans (by rw [hstep]), ⟨State.replySent_frame _ _ _ _ _, ?_⟩, ?_, ?_⟩
      · exact State.replySent_packet hpath (List.length_take_le _ _)
      · exact State.replySent_windows_some _ _ _ _ _ _
      · rw [State.replySent_replies, State.replyLeft_some, ← hup]
    · intro u hup hquiet hmarks hlast
      have hstep : s.replyStep r = ((s.uploadPacket u.1 u.2).1, none) := by
        rw [State.replyStep_some hup, hlast]
        rfl
      refine ⟨_, (execReplyPacketSend_upload hsup hpath hpick hturn hquiet hmarks).trans (by rw [hstep]), ⟨State.replySent_frame _ _ _ _ _, ?_⟩, ?_, ?_⟩
      · exact State.replySent_packet hpath (s.length_uploadPacket _ _)
      · simp [State.replySent_replies, State.replyLeft]
      · exact State.replySent_windows_none _ _ _ _ _
    · intro u v hup hquiet hmarks hmore
      have hstep : s.replyStep r = ((s.uploadPacket u.1 u.2).1, some { r with sent := r.sent + 1, upload := some v }) := by
        rw [State.replyStep_some hup, hmore]
        rfl
      refine ⟨_, (execReplyPacketSend_upload hsup hpath hpick hturn hquiet hmarks).trans (by rw [hstep]), ⟨State.replySent_frame _ _ _ _ _, ?_⟩, ?_, ?_⟩
      · exact State.replySent_packet hpath (s.length_uploadPacket _ _)
      · exact State.replySent_windows_some _ _ _ _ _ _
      · rw [State.replySent_replies, State.replyLeft_some]
  · exact fun port h => execReplyPacketSend_idle h
  · intro o tag hsup
    have hrefused := ({ s with sup := { s.sup with partials := s.sup.partials.filter fun q => !s.lateRequest o tag q } } : State).refusedTo_each
      (s.sup.partials.filter (s.lateRequest o tag))
    refine ⟨_, execMultiPacketTimeout_eq hsup o tag, hrefused.frame, hrefused.ctxs, hrefused.added, ?_⟩
    intro hb
    refine hrefused.windows fun q hq => ?_
    obtain ⟨hmem, hlate⟩ := List.mem_filter.mp hq
    exact hb q hmem hlate
  · exact fun o tag h => execMultiPacketTimeout_silent h o tag
  · intro o
    refine ⟨_, rfl, rfl, ?_, List.filter_sublist⟩
    intro w
    simp only [List.mem_filter, Bool.not_eq_true', Bool.and_eq_false_iff, beq_eq_false_iff_ne, decide_eq_false_iff_not, Nat.not_le, or_assoc, ne_eq]
  · intro o
    refine ⟨_, execWindowHoldExpiry_eq s o, rfl, List.length_map _, ?_⟩
    intro k w hw
    refine ⟨?_, ?_⟩
    · rintro ⟨u, rfl, hheld, hdue⟩
      rw [List.getElem?_map, hw]
      exact congrArg some (State.reopened_due hheld hdue)
    · intro h
      rw [List.getElem?_map, hw]
      exact congrArg some (State.reopened_not_due h)

end Sys2Proof.Machine
end

/-! # Acceptance

The replay window of a pair of ORIGIN and KEYSLOT, what the first checks of acceptance answer, and what stands at reset (R42, R43, R47). -/

section
namespace Sys2Proof.Machine
open Sys2Proof

/-! ## The replay window (R47) -/

theorem Replay.admits_iff (r : Replay) (q : BitVec 32) : r.admits q = true ↔
    q ≠ 0 ∧ (r.h.toNat < q.toNat ∨ (r.h.toNat ≤ q.toNat + 63 ∧ r.seen.getLsbD (r.h.toNat - q.toNat) = false)) := by
  simp only [Replay.admits, Bool.and_eq_true, Bool.or_eq_true, bne_iff_ne, decide_eq_true_eq, Bool.not_eq_true', BitVec.lt_def]
  refine and_congr_right fun _ => or_congr_right (and_congr_left fun _ => ?_)
  omega

/-- H is raised to the number where it is the highest. -/
theorem Replay.accept_h (r : Replay) (q : BitVec 32) : (r.accept q).h.toNat = max r.h.toNat q.toNat := by
  unfold Replay.accept
  split
  · next h => rw [BitVec.lt_def] at h; exact (Nat.max_eq_right h.le).symm
  · next h => rw [BitVec.lt_def] at h; exact (Nat.max_eq_left (not_lt.mp h)).symm

/-- A place of the window after a number is accepted: the number's own, or what stood there before. -/
theorem Replay.accept_seen (r : Replay) {q : BitVec 32} {x : Nat} (hx : x ≤ (r.accept q).h.toNat) (hw : (r.accept q).h.toNat ≤ x + 63) :
    (r.accept q).seen.getLsbD ((r.accept q).h.toNat - x) = (decide (x = q.toNat) || (decide (x ≤ r.h.toNat) && r.seen.getLsbD (r.h.toNat - x))) := by
  rw [r.accept_h] at hx hw ⊢
  by_cases h : r.h.toNat < q.toNat
  · have hacc : r.accept q = { h := q, seen := (r.seen <<< (q.toNat - r.h.toNat)) ||| 1 } := if_pos (BitVec.lt_def.mpr h)
    rw [Nat.max_eq_right h.le] at hx hw ⊢
    have hone : ((1 : BitVec 64).getLsbD (q.toNat - x)) = decide (x = q.toNat) := by
      rw [show (1 : BitVec 64) = 1#64 from rfl, BitVec.getLsbD_one]
      simp only [Nat.zero_lt_succ, decide_true, Bool.true_and, decide_eq_decide]
      omega
    rw [hacc, BitVec.getLsbD_or, BitVec.getLsbD_shiftLeft, hone, Bool.or_comm]
    congr 1
    by_cases hlow : x ≤ r.h.toNat
    · simp [hlow, show q.toNat - x < 64 by omega, show ¬ q.toNat - x < q.toNat - r.h.toNat by omega,
        show q.toNat - x - (q.toNat - r.h.toNat) = r.h.toNat - x by omega]
    · simp [hlow, show q.toNat - x < q.toNat - r.h.toNat by omega]
  · have hacc : r.accept q = { r with seen := r.seen ||| ((1 : BitVec 64) <<< (r.h.toNat - q.toNat)) } := if_neg (mt BitVec.lt_def.mp h)
    rw [Nat.max_eq_left (not_lt.mp h)] at hx hw ⊢
    have hone : ((1 : BitVec 64) <<< (r.h.toNat - q.toNat)).getLsbD (r.h.toNat - x) = decide (x = q.toNat) := by
      rw [BitVec.getLsbD_shiftLeft, show (1 : BitVec 64) = 1#64 from rfl, BitVec.getLsbD_one]
      simp only [show r.h.toNat - x < 64 by omega, Nat.zero_lt_succ, decide_true, Bool.true_and]
      rw [Bool.eq_iff_iff]
      simp only [Bool.and_eq_true, Bool.not_eq_true', decide_eq_true_eq, decide_eq_false_iff_not]
      omega
    rw [hacc, BitVec.getLsbD_or, hone, Bool.or_comm]
    simp [hx]

theorem Replay.admits_zero (r : Replay) : r.admits 0 = false := by simp [Replay.admits]

theorem Replay.admits_low {r : Replay} {q : BitVec 32} (h : q.toNat + 63 < r.h.toNat) : r.admits q = false := by
  rw [Bool.eq_false_iff, Ne, Replay.admits_iff]
  omega

theorem Replay.admits_accept_self (r : Replay) (q : BitVec 32) : (r.accept q).admits q = false := by
  rw [Bool.eq_false_iff, Ne, Replay.admits_iff]
  rintro ⟨_, h | ⟨hw, hseen⟩⟩
  · rw [r.accept_h] at h
    omega
  · rw [r.accept_seen (by rw [r.accept_h]; omega) hw] at hseen
    simp at hseen

/-- Acceptance of a number says nothing of another one inside the window. -/
theorem Replay.admits_accept_other {r : Replay} {q x : BitVec 32} (hne : x ≠ q) (hh : r.h.toNat ≤ x.toNat + 63)
    (hq : q.toNat ≤ x.toNat + 63) : (r.accept q).admits x = r.admits x := by
  have hne' : x.toNat ≠ q.toNat := fun e => hne (BitVec.eq_of_toNat_eq e)
  have hw : (r.accept q).h.toNat ≤ x.toNat + 63 := by rw [r.accept_h]; omega
  rw [Bool.eq_iff_iff, Replay.admits_iff, Replay.admits_iff]
  refine and_congr_right fun _ => ?_
  by_cases hlow : x.toNat ≤ (r.accept q).h.toNat
  · rw [r.accept_seen hlow hw]
    simp only [hne', decide_false, Bool.false_or, Bool.and_eq_false_iff, decide_eq_false_iff_not]
    rw [r.accept_h] at hlow hw ⊢
    by_cases hold : x.toNat ≤ r.h.toNat
    · simp [hold, hh, hw, show ¬ r.h.toNat < x.toNat by omega]
    · simp [hold, hw, show r.h.toNat < x.toNat by omega]
  · rw [r.accept_h] at hlow
    exact iff_of_true (.inl (by rw [r.accept_h]; omega)) (.inl (by omega))

/-- What a pair without history keeps of the numbers that came to it: H is the highest of those it admitted, and a number is admitted unless it is 0, came
before or has become too low. -/
structure Replay.remembers (r : Replay) (l : List (BitVec 32)) : Prop where
  highest : ∀ n : Nat, r.h.toNat ≤ n ↔ ∀ x ∈ l, x.toNat ≤ n
  admits : ∀ q, r.admits q = true ↔ q ≠ 0 ∧ q ∉ l ∧ ∀ x ∈ l, x.toNat ≤ q.toNat + 63

theorem Replay.remembers_nil : Replay.remembers {} [] where
  highest := fun n => by simp
  admits := fun q => by
    rw [Replay.admits_iff]
    simp

theorem Replay.remembers.accepted {r : Replay} {l : List (BitVec 32)} (h : r.remembers l) (x : BitVec 32) : (r.accept x).remembers (l ++ [x]) where
  highest := fun n => by
    rw [r.accept_h, Nat.max_le, h.highest]
    simp [or_imp, forall_and]
  admits := fun q => by
    have hwin : (∀ y ∈ l ++ [x], y.toNat ≤ q.toNat + 63) ↔ r.h.toNat ≤ q.toNat + 63 ∧ x.toNat ≤ q.toNat + 63 := by
      rw [h.highest]
      simp [or_imp, forall_and]
    rw [hwin]
    by_cases hz : q = 0
    · subst hz
      rw [Replay.admits_zero]
      simp
    by_cases hx : q = x
    · simp [hx, r.admits_accept_self]
    by_cases hlow : r.h.toNat ≤ q.toNat + 63 ∧ x.toNat ≤ q.toNat + 63
    · rw [Replay.admits_accept_other hx hlow.1 hlow.2, h.admits, ← h.highest]
      simp [hx, hlow]
    · have : (r.accept x).admits q = false := Replay.admits_low (by rw [r.accept_h]; omega)
      simp [this, hlow]

theorem Replay.remembers.refused {r : Replay} {l : List (BitVec 32)} (h : r.remembers l) {x : BitVec 32} (hx : r.admits x = false) : r.remembers (l ++ [x]) := by
  have hno : x = 0 ∨ x ∈ l ∨ ¬ r.h.toNat ≤ x.toNat + 63 := by
    rw [Bool.eq_false_iff, Ne, h.admits, ← h.highest] at hx
    tauto
  have hle : x.toNat ≤ r.h.toNat := by
    obtain rfl | hmem | hlow := hno
    · exact Nat.zero_le _
    · exact (h.highest _).mp le_rfl x hmem
    · omega
  refine ⟨fun n => ?_, fun q => ?_⟩
  · rw [h.highest]
    simp only [List.mem_append, List.mem_singleton, or_imp, forall_and, forall_eq]
    exact ⟨fun hn => ⟨hn, hle.trans ((h.highest n).mpr hn)⟩, And.left⟩
  · rw [h.admits]
    simp only [List.mem_append, List.mem_singleton, or_imp, forall_and, forall_eq, not_or, ← h.highest]
    refine ⟨fun ⟨hz, hl, hw⟩ => ⟨hz, ⟨hl, ?_⟩, hw, hle.trans hw⟩, fun ⟨hz, hl, hw⟩ => ⟨hz, hl.1, hw.1⟩⟩
    rintro rfl
    tauto

theorem Replay.remembers_foldl (l : List (BitVec 32)) : (l.foldl (fun (r : Replay) x => if r.admits x then r.accept x else r) {}).remembers l := by
  induction l using List.reverseRecOn with
  | nil => exact Replay.remembers_nil
  | append_singleton l x ih =>
    rw [List.foldl_append, List.foldl_cons, List.foldl_nil]
    split
    · exact ih.accepted x
    · next hx => exact ih.refused (Bool.eq_false_iff.mpr hx)

/-- A packet that passes checks 1 to 4, whose number is not new to its pair, is answered REPLAY. -/
theorem State.accept_replay {s : State} {p : Packet} {d : CmdDesc} {known : Bool} {roles : BitVec 4} (hsup : s.supAnswers = true)
    (hport : s.portDown p.port = false) (hfmt : p.formatOk = true) (hsel : s.selected p = true) (hlen : p.lengthOk = true)
    (hauth : s.authorise p = some roles) (hop : d.code ≠ opEnumerate) (hseq : (s.replayOf p.origin p.slot).admits p.seq = false) :
    s.accept p d known = (s.replyReplay { p.ctx d.cls roles with gen := s.sup.gen } (s.replayOf p.origin p.slot).h, none) := by
  simp [State.accept, hsup, hport, hfmt, hsel, hlen, hauth, hop, hseq]

/-! ## The first checks (R42, R43) -/

theorem State.accept_format {s : State} {p : Packet} {d : CmdDesc} {known : Bool} (hsup : s.supAnswers = true) (hport : s.portDown p.port = false)
    (hfmt : p.formatOk = false) : s.accept p d known = (s.countFormat, none) := by
  simp [State.accept, hsup, hport, hfmt]

theorem State.accept_foreign {s : State} {p : Packet} {d : CmdDesc} {known : Bool} (hsup : s.supAnswers = true) (hport : s.portDown p.port = false)
    (hfmt : p.formatOk = true) (hsel : s.selected p = false) : s.accept p d known = (s, none) := by
  simp [State.accept, hsup, hport, hfmt, hsel]

theorem State.accept_unauthorised {s : State} {p : Packet} {d : CmdDesc} {known : Bool} (hsup : s.supAnswers = true)
    (hport : s.portDown p.port = false) (hfmt : p.formatOk = true) (hsel : s.selected p = true) (hlen : p.lengthOk = true)
    (hauth : s.authorise p = none) : s.accept p d known = (s.countAuth, none) := by
  simp [State.accept, hsup, hport, hfmt, hsel, hlen, hauth]

/-- A request that is complete after check 6 and whose opcode has no row is answered BAD_OPCODE. -/
theorem State.accept_badOpcode {s t : State} {p : Packet} {d : CmdDesc} {roles : BitVec 4} {q : Request} (hsup : s.supAnswers = true)
    (hport : s.portDown p.port = false) (hfmt : p.formatOk = true) (hsel : s.selected p = true) (hlen : p.lengthOk = true)
    (hauth : s.authorise p = some roles) (hop : d.code ≠ opEnumerate) (hseq : (s.replayOf p.origin p.slot).admits p.seq = true)
    (hall : (s.acceptSeq p).collect p { p.ctx d.cls roles with gen := s.sup.gen } = (t, some q)) :
    s.accept p d false = (t.refuse { p.ctx d.cls roles with gen := s.sup.gen } .badOpcode, none) := by
  simp [State.accept, hsup, hport, hfmt, hsel, hlen, hauth, hop, hseq, hall]

theorem execUnknownOpcode_unknown {p : Packet} (h : packetRow p = none) (s : State) :
    execUnknownOpcode p s = .next (s.accept p (unknownDesc p) false).1 := by
  simp [execUnknownOpcode, h]

theorem execUnknownOpcode_turned {s : State} {p : Packet} {d : CmdDesc} (h : packetRow p = some d) (hn : (s.accept p d true).2 = none) :
    execUnknownOpcode p s = .next (s.accept p d true).1 := by
  unfold execUnknownOpcode
  rw [h]
  dsimp only
  split
  · next e => rw [e]
  · next e => rw [e] at hn; cases hn

/-- Settles O4: `State.onlySup` bounds what acceptance changes, and each of the first checks has its own answer. -/
theorem packetsTurnedAway : Obligations.PacketsTurnedAway := by
  refine ⟨fun s p d known => ?_, fun s p d => ⟨fun hsup hport => ⟨State.accept_format hsup hport, State.accept_foreign hsup hport,
    State.accept_unauthorised hsup hport⟩, ?_, execUnknownOpcode_turned⟩⟩
  · obtain ⟨x, h, hx⟩ := s.onlySup_accept p d known
    exact ⟨x, h, hx, fun run => State.command_turned run⟩
  · intro q t roles hrow hsup hport hfmt hsel hlen hop hauth hseq hall
    exact (execUnknownOpcode_unknown hrow s).trans
      (by rw [State.accept_badOpcode (d := unknownDesc p) hsup hport hfmt hsel hlen hauth hop hseq hall]; rfl)

/-- Settles O5: what a run of numbers leaves is `Replay.remembers`, by induction on the run from its end. -/
theorem replayWindow : Obligations.ReplayWindow := by
  refine ⟨fun r q => ⟨r.admits_zero, fun _ => r.admits_accept_self q, Replay.admits_low, fun _ => r.accept_h q, fun h => ?_,
    fun x _ _ hne hh hq => Replay.admits_accept_other hne hh hq⟩, fun l q => (Replay.remembers_foldl l).admits q,
    fun s p d roles hsup hport hfmt hsel hlen hauth hop hseq => State.accept_replay hsup hport hfmt hsel hlen hauth hop hseq⟩
  have hlt := BitVec.lt_def.mp h
  exact (r.admits_iff q).mpr ⟨fun e => by simp [e] at hlt, .inl hlt⟩

/-- Settles O3: every field of a new module stands at its "when new" value. -/
theorem resetState : Obligations.ResetState :=
  ⟨rfl, rfl, rfl, rfl, fun _ => rfl, rfl, fun _ => rfl, rfl, rfl, rfl, State.reset_squareWf⟩

end Sys2Proof.Machine
end

/-! # Every command completes

A step runs the front of the queue, and no row of the opcode table ends in a fault or a refusal (R42, log 83). -/

section
namespace Sys2Proof.Machine
open Sys2Proof

/-- The outcome is a next state: no fault, no refusal. -/
def completes (o : Out) : Prop := ∃ t, o = .next t

theorem completes_next (t : State) : completes (.next t) := ⟨t, rfl⟩

theorem completes_ite {c : Prop} [Decidable c] {a b : Out} (ha : completes a) (hb : completes b) : completes (if c then a else b) := by
  split
  · exact ha
  · exact hb

/-! ## The shapes that instructions share -/

theorem State.issue_completes (s : State) (i : Instr) (clk : Nat) (run : Nat → Nat → State → Except Nat State) (touch : Nat → State → List Touch) :
    completes (s.issue i clk run touch) := by
  unfold State.issue
  dsimp only
  (repeat' split) <;> exact completes_next _

theorem State.issueRegs_completes (s : State) (i : Instr) (clk : Nat) (f : Engine → Engine) : completes (s.issueRegs i clk f) := by
  unfold State.issueRegs
  exact s.issue_completes _ _ _ _

theorem State.issueBit_completes (s : State) (i : Instr) (o : Operand) (f : Engine → Bool → Bool → Engine) : completes (s.issueBit i o f) := by
  unfold State.issueBit
  exact s.issue_completes _ _ _ _

theorem State.setClear_completes (s : State) (i : Instr) (o : Operand) (v : Bool) : completes (s.setClear i o v) := by
  unfold State.setClear
  exact s.issue_completes _ _ _ _

theorem State.issueOpen_completes (s : State) (i : Instr) (op : NestOp) : completes (s.issueOpen i op) := by
  unfold State.issueOpen
  exact s.issue_completes _ _ _ _

theorem State.issueEdge_completes (s : State) (i : Instr) (o : EdgeOperand) (k : EdgeKind) (op : BitOp) : completes (s.issueEdge i o k op) := by
  unfold State.issueEdge
  exact s.issue_completes _ _ _ _

theorem State.issueTimer_completes (s : State) (i : Instr) (clk n : Nat) (p : Engine → Bool) (f : Engine → State → Timer → Timer) :
    completes (s.issueTimer i clk n p f) := by
  unfold State.issueTimer
  exact s.issue_completes _ _ _ _

theorem State.issueCounter_completes (s : State) (i : Instr) (n : Nat) (p : Engine → Bool) (f : Engine → Counter → Counter × Bool) :
    completes (s.issueCounter i n p f) := by
  unfold State.issueCounter
  exact s.issue_completes _ _ _ _

theorem State.issueJump_completes (s : State) (i : Instr) (t : BitVec 20) (want : Bool) : completes (s.issueJump i t want) := by
  unfold State.issueJump
  exact s.issue_completes _ _ _ _

/-! ## Rows with cases of their own -/

theorem execUnknownOpcode_completes (p : Packet) (s : State) : completes (execUnknownOpcode p s) := by
  unfold execUnknownOpcode
  (repeat' split) <;> exact completes_next _

theorem execReplyPacketSend_completes (port : Port) (s : State) : completes (execReplyPacketSend port s) := by
  unfold execReplyPacketSend
  dsimp only
  (repeat' split) <;> exact completes_next _

theorem execSubscriptionLeaseExpiry_completes (k : Fin 64) (s : State) : completes (execSubscriptionLeaseExpiry k s) := by
  unfold execSubscriptionLeaseExpiry
  (repeat' split) <;> exact completes_next _

theorem execSubDelta_completes (k : Fin 64) (s : State) : completes (execSubDelta k s) := by
  unfold execSubDelta
  (repeat' split) <;> exact completes_next _

theorem execEvent_completes (port : Port) (s : State) : completes (execEvent port s) := by
  unfold execEvent
  (repeat' split) <;> exact completes_next _

theorem execCrossingMessageSend_completes (sender receiver : Fin 21) (offer : Option (Fin 4 × Fin 16)) (s : State) :
    completes (execCrossingMessageSend sender receiver offer s) := by
  unfold execCrossingMessageSend
  (repeat' split) <;> exact completes_next _

theorem execIslandRestartComplete_completes (n : Fin 20) (s : State) : completes (execIslandRestartComplete n s) := by
  unfold execIslandRestartComplete
  (repeat' split) <;> exact completes_next _

theorem execDomainPowerUpComplete_completes (d : Fin 12) (s : State) : completes (execDomainPowerUpComplete d s) := by
  unfold execDomainPowerUpComplete
  (repeat' split) <;> exact completes_next _

theorem execCycleStart_completes (s : State) : completes (execCycleStart s) := by
  unfold execCycleStart
  (repeat' split) <;> exact completes_next _

theorem execFreeze_completes (s : State) : completes (execFreeze s) := by
  unfold execFreeze
  dsimp only
  (repeat' split) <;> exact completes_next _

theorem execCommit_completes (s : State) : completes (execCommit s) := by
  unfold execCommit
  (repeat' split) <;> exact completes_next _

theorem execWatchdogExpiry_completes (s : State) : completes (execWatchdogExpiry s) := by
  unfold execWatchdogExpiry
  dsimp only
  (repeat' split) <;> exact completes_next _

theorem execRetainPeriod_completes (s : State) : completes (execRetainPeriod s) := by
  unfold execRetainPeriod
  (repeat' split) <;> exact completes_next _

theorem execSw_completes (e : Fin 4) (o : Operand) (v : Verdict) (s : State) : completes (execSw e o v s) := by
  unfold execSw
  dsimp only
  split
  · exact completes_next _
  · exact s.issue_completes _ _ _ _

theorem execBmove_completes (e : Fin 4) (src dst : Operand) (s : State) : completes (execBmove e src dst s) := by
  unfold execBmove
  exact s.issue_completes _ _ _ _

theorem execEventFiring_completes (s : State) : completes (execEventFiring s) := by
  unfold execEventFiring
  (repeat' split) <;> exact completes_next _

theorem execGroupAgeExpiry_completes (g : Fin 64) (s : State) : completes (execGroupAgeExpiry g s) := by
  unfold execGroupAgeExpiry
  (repeat' split) <;> exact completes_next _

theorem execLoopBaseTick_completes (s : State) : completes (execLoopBaseTick s) := by
  unfold execLoopBaseTick
  dsimp only
  (repeat' split) <;> exact completes_next _

theorem execUcConversionComplete_completes (ch : Fin 32) (c : Conversion) (s : State) : completes (execUcConversionComplete ch c s) := by
  unfold execUcConversionComplete
  dsimp only
  (repeat' split) <;> exact completes_next _

theorem execUcShutdownComplete_completes (ch : Fin 32) (s : State) : completes (execUcShutdownComplete ch s) := by
  unfold execUcShutdownComplete
  dsimp only
  (repeat' split) <;> exact completes_next _

theorem execHartTransactionComplete_completes (ch : Fin 32) (r : Option (BitVec 16 × List Byte)) (s : State) :
    completes (execHartTransactionComplete ch r s) := by
  unfold execHartTransactionComplete
  dsimp only
  (repeat' split) <;> exact completes_next _

theorem execHartScanComplete_completes (ch : Fin 32) (found : List HartFound) (s : State) : completes (execHartScanComplete ch found s) := by
  unfold execHartScanComplete
  dsimp only
  (repeat' split) <;> exact completes_next _

theorem execDiChangeAccepted_completes (n : Fin 48) (level : Bool) (firstSample : Nat) (s : State) :
    completes (execDiChangeAccepted n level firstSample s) := by
  unfold execDiChangeAccepted
  dsimp only
  (repeat' split) <;> exact completes_next _

theorem execPulseEdgeCounted_completes (n : Fin 16) (rising : Bool) (t : Nat) (s : State) : completes (execPulseEdgeCounted n rising t s) := by
  unfold execPulseEdgeCounted
  dsimp only
  (repeat' split) <;> exact completes_next _

theorem execCountStagePowerLost_completes (g : Fin 6) (s : State) : completes (execCountStagePowerLost g s) := by
  unfold execCountStagePowerLost
  exact completes_next _

theorem execGroupSupplySample_completes (k : GroupKind) (g : Fin 6) (mv : Nat) (s : State) : completes (execGroupSupplySample k g mv s) := by
  unfold execGroupSupplySample
  (repeat' split) <;> exact completes_next _

theorem execGroupLevelClear_completes (k : GroupKind) (g : Fin 6) (l : GroupLevel) (s : State) : completes (execGroupLevelClear k g l s) := by
  unfold execGroupLevelClear
  dsimp only
  (repeat' split) <;> exact completes_next _

theorem execDoRetryDue_completes (n : Fin 32) (cooled : Bool) (s : State) : completes (execDoRetryDue n cooled s) := by
  unfold execDoRetryDue
  exact completes_next _

theorem execDoFaultCleared_completes (n : Fin 32) (s : State) : completes (execDoFaultCleared n s) := by
  unfold execDoFaultCleared
  dsimp only
  (repeat' split) <;> exact completes_next _

theorem execHoldWindowExpiry_completes (s : State) : completes (execHoldWindowExpiry s) := by
  unfold execHoldWindowExpiry
  (repeat' split) <;> exact completes_next _

theorem execCanFrameReceived_completes (p : Fin 2) (f : CanFrame) (s : State) : completes (execCanFrameReceived p f s) := by
  unfold execCanFrameReceived
  dsimp only
  (repeat' split) <;> exact completes_next _

theorem execCanWindowStart_completes (p : Fin 2) (column : Fin 32) (s : State) : completes (execCanWindowStart p column s) := by
  unfold execCanWindowStart
  dsimp only
  (repeat' split) <;> exact completes_next _

theorem execCanTxComplete_completes (p : Fin 2) (r : CanTxResult) (t txDelay : Nat) (s : State) : completes (execCanTxComplete p r t txDelay s) := by
  unfold execCanTxComplete
  dsimp only
  (repeat' split) <;> exact completes_next _

theorem execCanQueuedFrameSend_completes (p : Fin 2) (s : State) : completes (execCanQueuedFrameSend p s) := by
  unfold execCanQueuedFrameSend
  dsimp only
  (repeat' split) <;> exact completes_next _

theorem execBasicCycleStart_completes (p : Fin 2) (s : State) : completes (execBasicCycleStart p s) := by
  unfold execBasicCycleStart
  dsimp only
  (repeat' split) <;> exact completes_next _

theorem execCanRecovered_completes (p : Fin 2) (s : State) : completes (execCanRecovered p s) := by
  unfold execCanRecovered
  dsimp only
  (repeat' split) <;> exact completes_next _

theorem execCanShutdownComplete_completes (p : Fin 2) (s : State) : completes (execCanShutdownComplete p s) := by
  unfold execCanShutdownComplete
  dsimp only
  (repeat' split) <;> exact completes_next _

theorem execCanBusIntegration_completes (p : Fin 2) (s : State) : completes (execCanBusIntegration p s) := by
  unfold execCanBusIntegration
  (repeat' split) <;> exact completes_next _

theorem execFireInputDelivery_completes (s : State) : completes (execFireInputDelivery s) := by
  unfold execFireInputDelivery
  (repeat' split) <;> exact completes_next _

theorem execFireActionComplete_completes (f : Fin 16) (s : State) : completes (execFireActionComplete f s) := by
  unfold execFireActionComplete
  dsimp only
  (repeat' split) <;> exact completes_next _

theorem execFireArmExpiry_completes (s : State) : completes (execFireArmExpiry s) := by
  unfold execFireArmExpiry
  (repeat' split) <;> exact completes_next _

theorem execHeartbeatGenerate_completes (s : State) : completes (execHeartbeatGenerate s) := by
  unfold execHeartbeatGenerate
  dsimp only
  (repeat' split) <;> exact completes_next _

theorem execHeartbeatReceived_completes (path : HbPath) (h : Heartbeat) (s : State) : completes (execHeartbeatReceived path h s) := by
  unfold execHeartbeatReceived
  (repeat' split) <;> exact completes_next _

theorem execHeartbeatSilence_completes (s : State) : completes (execHeartbeatSilence s) := by
  unfold execHeartbeatSilence
  dsimp only
  (repeat' split) <;> exact completes_next _

theorem execPartnerClaimFall_completes (s : State) : completes (execPartnerClaimFall s) := by
  unfold execPartnerClaimFall
  dsimp only
  (repeat' split) <;> exact completes_next _

theorem execTieWithdrawn_completes (s : State) : completes (execTieWithdrawn s) := by
  unfold execTieWithdrawn
  dsimp only
  (repeat' split) <;> exact completes_next _

theorem execClaimLineFault_completes (sideB : Bool) (s : State) : completes (execClaimLineFault sideB s) := by
  unfold execClaimLineFault
  (repeat' split) <;> exact completes_next _

theorem execLaneLost_completes (lane : Fin 2) (s : State) : completes (execLaneLost lane s) := by
  unfold execLaneLost
  dsimp only
  (repeat' split) <;> exact completes_next _

theorem execCablePresentChange_completes (present : Bool) (s : State) : completes (execCablePresentChange present s) := by
  unfold execCablePresentChange
  (repeat' split) <;> exact completes_next _

theorem execLedgerReceived_completes (l : Ledger) (s : State) : completes (execLedgerReceived l s) := by
  unfold execLedgerReceived
  (repeat' split) <;> exact completes_next _

theorem execForwardedChange_completes (c : Change) (boundary : BitVec 32) (s : State) : completes (execForwardedChange c boundary s) := by
  unfold execForwardedChange
  (repeat' split) <;> exact completes_next _

theorem execHandBack_completes (s : State) : completes (execHandBack s) := by
  unfold execHandBack
  (repeat' split) <;> exact completes_next _

theorem execRehearseResult_completes (s : State) : completes (execRehearseResult s) := by
  unfold execRehearseResult
  (repeat' split) <;> exact completes_next _

theorem execPageRepairComplete_completes (array : Fin 8) (bad : List Nat) (unlocated : Nat) (hard : List Nat) (s : State) :
    completes (execPageRepairComplete array bad unlocated hard s) := by
  unfold execPageRepairComplete
  dsimp only
  (repeat' split) <;> exact completes_next _

theorem execRecordRaised_completes (s : State) : completes (execRecordRaised s) := by
  unfold execRecordRaised
  dsimp only
  (repeat' split) <;> exact completes_next _

theorem execRecordWrite_completes (s : State) : completes (execRecordWrite s) := by
  unfold execRecordWrite
  dsimp only
  (repeat' split) <;> exact completes_next _

theorem execPanelFrameStart_completes (s : State) : completes (execPanelFrameStart s) := by
  unfold execPanelFrameStart
  (repeat' split) <;> exact completes_next _

theorem execPanelPowerUpComplete_completes (s : State) : completes (execPanelPowerUpComplete s) := by
  unfold execPanelPowerUpComplete
  (repeat' split) <;> exact completes_next _

theorem execPanelPowerDownComplete_completes (s : State) : completes (execPanelPowerDownComplete s) := by
  unfold execPanelPowerDownComplete
  (repeat' split) <;> exact completes_next _

theorem execPanelSupplyRecovered_completes (vcol vrow : BitVec 16) (s : State) : completes (execPanelSupplyRecovered vcol vrow s) := by
  unfold execPanelSupplyRecovered
  dsimp only
  (repeat' split) <;> exact completes_next _

theorem execPlateWaveformComplete_completes (s : State) : completes (execPlateWaveformComplete s) := by
  unfold execPlateWaveformComplete
  dsimp only
  (repeat' split) <;> exact completes_next _

theorem execPlateTorn_completes (vp vn : BitVec 16) (s : State) : completes (execPlateTorn vp vn s) := by
  unfold execPlateTorn
  dsimp only
  (repeat' split) <;> exact completes_next _

theorem execRingLinkUp_completes (p : Fin 2) (gigabit : Bool) (s : State) : completes (execRingLinkUp p gigabit s) := by
  unfold execRingLinkUp
  (repeat' split) <;> exact completes_next _

theorem execHsrFrameReceived_completes (p : Fin 2) (f : HsrFrame) (s : State) : completes (execHsrFrameReceived p f s) := by
  unfold execHsrFrameReceived
  dsimp only
  (repeat' split) <;> exact completes_next _

theorem execProvisionalExpiry_completes (s : State) : completes (execProvisionalExpiry s) := by
  unfold execProvisionalExpiry
  (repeat' split) <;> exact completes_next _

theorem execDuplicateClear_completes (s : State) : completes (execDuplicateClear s) := by
  unfold execDuplicateClear
  (repeat' split) <;> exact completes_next _

theorem execPtpSyncReceived_completes (f : PtpSync) (m : PtpMeasured) (s : State) : completes (execPtpSyncReceived f m s) := by
  unfold execPtpSyncReceived
  dsimp only
  (repeat' split) <;> exact completes_next _

theorem execPtpSyncTimeout_completes (s : State) : completes (execPtpSyncTimeout s) := by
  unfold execPtpSyncTimeout
  (repeat' split) <;> exact completes_next _

theorem execSupplyValid_completes (lp1 lp2 : Nat) (sideB : Option Bool) (s : State) : completes (execSupplyValid lp1 lp2 sideB s) := by
  unfold execSupplyValid
  (repeat' split) <;> exact completes_next _

theorem execSupplyFeedLost_completes (feed : Fin 2) (mv : Nat) (s : State) : completes (execSupplyFeedLost feed mv s) := by
  unfold execSupplyFeedLost
  (repeat' split) <;> exact completes_next _

theorem execFullService_completes (supplyMv storeMv : Nat) (calFailed : List (Fin 32)) (hardFaults : List (Fin 8 × Nat)) (s : State) :
    completes (execFullService supplyMv storeMv calFailed hardFaults s) := by
  unfold execFullService
  dsimp only
  (repeat' split) <;> exact completes_next _

theorem execPowerFailWarning_completes (mv : Nat) (s : State) : completes (execPowerFailWarning mv s) := by
  unfold execPowerFailWarning
  (repeat' split) <;> exact completes_next _

theorem execHoldupExecuteDeadline_completes (s : State) : completes (execHoldupExecuteDeadline s) := by
  unfold execHoldupExecuteDeadline
  (repeat' split) <;> exact completes_next _

theorem execHoldUpComplete_completes (supplyMv : Nat) (s : State) : completes (execHoldUpComplete supplyMv s) := by
  unfold execHoldUpComplete
  (repeat' split) <;> exact completes_next _

theorem execPartnerClaimRise_completes (s : State) : completes (execPartnerClaimRise s) := by
  unfold execPartnerClaimRise
  dsimp only
  (repeat' split) <;> exact completes_next _

theorem execCycleStartToken_completes (cycle : BitVec 32) (instant : Nat) (s : State) : completes (execCycleStartToken cycle instant s) := by
  unfold execCycleStartToken
  (repeat' split) <;> exact completes_next _

theorem execResyncSnapshotReceived_completes (x : Snapshot) (s : State) : completes (execResyncSnapshotReceived x s) := by
  unfold execResyncSnapshotReceived
  (repeat' split) <;> exact completes_next _

theorem execReservedOpcode_completes (e : Fin 4) (s : State) : completes (execReservedOpcode e s) := by
  unfold execReservedOpcode
  dsimp only
  (repeat' split) <;> exact completes_next _

theorem execScrubRead_completes (array : Fin 8) (addr : Nat) (v : Verdict) (hard : Bool) (s : State) :
    completes (execScrubRead array addr v hard s) := by
  unfold execScrubRead
  dsimp only
  (repeat' split) <;> exact completes_next _

/-- Every row is a command packet, an instruction's issue, an event under one condition, or one of the rows above. -/
theorem exec_completes (c : Instr) (s : State) : completes (exec c s) := by
  cases c
  case identify | getStatus | readObject | writeObject | restart | enumerate | confirmAddress | programBegin | programData | programEnd |
    programSwitch | runStop | forceSet | forceRelease | cycleStats | readVars | writeVars | subscribe | unsubscribe | setPending |
    eventSubscribe | loopEnable | loopDisable | loopWriteCoeff | loopStage | loopCommit | loopRead | channelMode | channelStatus | outputAck
    | hartTransact | hartBurstRead | canEnable | canRecover | canSend | canCounters | stationStatus | pairStatus | rehearse | resync |
    recQuery | recUpload | recCounters | recNote | panelFrame | panelShow | plateUpdate | panelPower | memStatus | scrubNow | remapRead |
    powerStatus | thermalStatus | fireStatus | fireReset | fireLoad | fireArm | fireConfirm | totalRead | totalClose | keyInstall |
    keyRevoke | keyStatus | fwBegin | fwData | fwActivate =>
    unfold exec
    exact s.command_completes _ _ _
  case nop | inv | cbset | cbclr | lwi | swap | add | sub | mul | div | rem | neg | eq_ | ne_ | gt_ | ge_ | lt_ | le_ =>
    unfold exec
    exact s.issueRegs_completes _ _ _
  case end_ | out | closeBracket | lw | move | jmp | jov | jovs | call | callt | ret | tot | sev =>
    unfold exec
    exact s.issue_completes _ _ _ _
  case ld | ldn | and_ | andn | or_ | orn | xor_ | xorn =>
    unfold exec
    exact s.issueBit_completes _ _ _
  case setb | clrb =>
    unfold exec
    exact s.setClear_completes _ _ _
  case andOpen | andnOpen | orOpen | ornOpen | xorOpen | xornOpen =>
    unfold exec
    exact s.issueOpen_completes _ _
  case andr | andf | orr | orf =>
    unfold exec
    exact s.issueEdge_completes _ _ _ _
  case ton | tof | tp | tclr =>
    unfold exec
    exact s.issueTimer_completes _ _ _ _ _
  case cup | cdn | cld | cclr =>
    unfold exec
    exact s.issueCounter_completes _ _ _ _
  case jt | jf =>
    unfold exec
    exact s.issueJump_completes _ _ _
  case rescan | idleClose | windowHoldExpiry | vbusChange | reverse =>
    unfold exec
    exact completes_next _
  case objectWrite | totalConfigWrite | multiPacketTimeout | subscriberLeaseExpiry | auditRound | refClockLost | refClockRestored |
    taskComplete | ucStartupComplete | ucStoreLow | ucStoreRecovered | hartBurstReceived | wireBreak | wireBreakCleared | groupUvlo |
    doOverload | doThermalShutdown | openLoad | openLoadClear | shortToSupply | shortToSupplyClear | groupOvercurrent |
    groupOvercurrentCleared | sideStreetRefresh | fireTimeoutCheck | tripOutputFailed | fireFrameRepeat | tripCutInput | claimWatchdogExpiry
    | syncHoldTimeout | discoveryTimeout | resyncDone | integratorBoundary | totalsSideStreetCommit | bucketLeak | scrubPassComplete |
    panelSupplyFault | thermalSample | ringLinkDown | hsrSupervision | ringTripFrameReceived | announceSend | announceReceived |
    moduleTimeStore | supplyFeedRestored | supplyLowHold | logicSupplyLost | canRxError | supFirmwareVerified =>
    unfold exec
    exact completes_ite (completes_next _) (completes_next _)
  case unknownOpcode => exact execUnknownOpcode_completes _ _
  case replyPacketSend => exact execReplyPacketSend_completes _ _
  case subscriptionLeaseExpiry => exact execSubscriptionLeaseExpiry_completes _ _
  case subDelta => exact execSubDelta_completes _ _
  case event => exact execEvent_completes _ _
  case crossingMessageSend => exact execCrossingMessageSend_completes _ _ _ _
  case islandRestartComplete => exact execIslandRestartComplete_completes _ _
  case domainPowerUpComplete => exact execDomainPowerUpComplete_completes _ _
  case cycleStart => exact execCycleStart_completes _
  case freeze => exact execFreeze_completes _
  case commit => exact execCommit_completes _
  case watchdogExpiry => exact execWatchdogExpiry_completes _
  case retainPeriod => exact execRetainPeriod_completes _
  case sw => exact execSw_completes _ _ _ _
  case bmove => exact execBmove_completes _ _ _ _
  case eventFiring => exact execEventFiring_completes _
  case groupAgeExpiry => exact execGroupAgeExpiry_completes _ _
  case loopBaseTick => exact execLoopBaseTick_completes _
  case ucConversionComplete => exact execUcConversionComplete_completes _ _ _
  case ucShutdownComplete => exact execUcShutdownComplete_completes _ _
  case hartTransactionComplete => exact execHartTransactionComplete_completes _ _ _
  case hartScanComplete => exact execHartScanComplete_completes _ _ _
  case diChangeAccepted => exact execDiChangeAccepted_completes _ _ _ _
  case pulseEdgeCounted => exact execPulseEdgeCounted_completes _ _ _ _
  case countStagePowerLost => exact execCountStagePowerLost_completes _ _
  case groupSupplySample => exact execGroupSupplySample_completes _ _ _ _
  case groupLevelClear => exact execGroupLevelClear_completes _ _ _ _
  case doRetryDue => exact execDoRetryDue_completes _ _ _
  case doFaultCleared => exact execDoFaultCleared_completes _ _
  case holdWindowExpiry => exact execHoldWindowExpiry_completes _
  case canFrameReceived => exact execCanFrameReceived_completes _ _ _
  case canWindowStart => exact execCanWindowStart_completes _ _ _
  case canTxComplete => exact execCanTxComplete_completes _ _ _ _ _
  case canQueuedFrameSend => exact execCanQueuedFrameSend_completes _ _
  case basicCycleStart => exact execBasicCycleStart_completes _ _
  case canRecovered => exact execCanRecovered_completes _ _
  case canShutdownComplete => exact execCanShutdownComplete_completes _ _
  case canBusIntegration => exact execCanBusIntegration_completes _ _
  case fireInputDelivery => exact execFireInputDelivery_completes _
  case fireActionComplete => exact execFireActionComplete_completes _ _
  case fireArmExpiry => exact execFireArmExpiry_completes _
  case heartbeatGenerate => exact execHeartbeatGenerate_completes _
  case heartbeatReceived => exact execHeartbeatReceived_completes _ _ _
  case heartbeatSilence => exact execHeartbeatSilence_completes _
  case partnerClaimFall => exact execPartnerClaimFall_completes _
  case tieWithdrawn => exact execTieWithdrawn_completes _
  case claimLineFault => exact execClaimLineFault_completes _ _
  case laneLost => exact execLaneLost_completes _ _
  case cablePresentChange => exact execCablePresentChange_completes _ _
  case ledgerReceived => exact execLedgerReceived_completes _ _
  case forwardedChange => exact execForwardedChange_completes _ _ _
  case handBack => exact execHandBack_completes _
  case rehearseResult => exact execRehearseResult_completes _
  case pageRepairComplete => exact execPageRepairComplete_completes _ _ _ _ _
  case recordRaised => exact execRecordRaised_completes _
  case recordWrite => exact execRecordWrite_completes _
  case panelFrameStart => exact execPanelFrameStart_completes _
  case panelPowerUpComplete => exact execPanelPowerUpComplete_completes _
  case panelPowerDownComplete => exact execPanelPowerDownComplete_completes _
  case panelSupplyRecovered => exact execPanelSupplyRecovered_completes _ _ _
  case plateWaveformComplete => exact execPlateWaveformComplete_completes _
  case plateTorn => exact execPlateTorn_completes _ _ _
  case ringLinkUp => exact execRingLinkUp_completes _ _ _
  case hsrFrameReceived => exact execHsrFrameReceived_completes _ _ _
  case provisionalExpiry => exact execProvisionalExpiry_completes _
  case duplicateClear => exact execDuplicateClear_completes _
  case ptpSyncReceived => exact execPtpSyncReceived_completes _ _ _
  case ptpSyncTimeout => exact execPtpSyncTimeout_completes _
  case supplyValid => exact execSupplyValid_completes _ _ _ _
  case supplyFeedLost => exact execSupplyFeedLost_completes _ _ _
  case fullService => exact execFullService_completes _ _ _ _ _
  case powerFailWarning => exact execPowerFailWarning_completes _ _
  case holdupExecuteDeadline => exact execHoldupExecuteDeadline_completes _
  case holdUpComplete => exact execHoldUpComplete_completes _ _
  case partnerClaimRise => exact execPartnerClaimRise_completes _
  case cycleStartToken => exact execCycleStartToken_completes _ _ _
  case resyncSnapshotReceived => exact execResyncSnapshotReceived_completes _ _
  case reservedOpcode => exact execReservedOpcode_completes _ _
  case scrubRead => exact execScrubRead_completes _ _ _ _ _

/-- Settles O1: a step runs the front of the queue by its definition, and `exec_completes` says that no row ends otherwise. -/
theorem stepRunsFront : Obligations.StepRunsFront := ⟨fun _ _ _ => rfl, exec_completes⟩

end Sys2Proof.Machine
end

/-! # Reads

Acceptance leaves what a read shows: the rows of the module as a whole, of process data, and of counters, records and arrays answer with the state
that the request found (R63 to R75). -/

section
namespace Sys2Proof.Machine
open Sys2Proof

/-! ## What acceptance leaves of the process data (R42) -/

/-- What does not ask for SUP's queues and stored numbers reads the same before and after acceptance. -/
theorem State.admitted_congr {α : Type} (f : State → α) (s : State) (p : Packet) (d : CmdDesc)
    (hf : ∀ (x : Sup) (k : Tab (BitVec 32)), f { s with sup := x, mram := { s.mram with hStored := k } } = f s) : f (s.admitted p d) = f s := by
  obtain ⟨x, k, h⟩ := s.onlySup_admitted p d
  rw [h, hf]

@[simp] theorem State.admitted_quiet (s : State) (p : Packet) (d : CmdDesc) : (s.admitted p d).quiet = s.quiet :=
  State.admitted_congr State.quiet s p d fun _ _ => rfl

@[simp] theorem State.admitted_refFits (s : State) (p : Packet) (d : CmdDesc) : (s.admitted p d).refFits = s.refFits :=
  State.admitted_congr State.refFits s p d fun _ _ => rfl

@[simp] theorem State.admitted_parseRef (s : State) (p : Packet) (d : CmdDesc) : (s.admitted p d).parseRef = s.parseRef := by
  funext b i
  simp only [State.parseRef, State.admitted_refFits]

@[simp] theorem State.admitted_parseRefs (s : State) (p : Packet) (d : CmdDesc) (n : Nat) (b : List Byte) :
    (s.admitted p d).parseRefs n b = s.parseRefs n b := by
  induction n generalizing b with
  | zero => rfl
  | succ n ih => simp only [State.parseRefs, State.admitted_parseRef, ih]

@[simp] theorem State.admitted_hidesTotals (s : State) (p : Packet) (d : CmdDesc) : (s.admitted p d).hidesTotals = s.hidesTotals :=
  State.admitted_congr State.hidesTotals s p d fun _ _ => rfl

@[simp] theorem State.admitted_varItem (s : State) (p : Packet) (d : CmdDesc) : (s.admitted p d).varItem = s.varItem :=
  State.admitted_congr State.varItem s p d fun _ _ => rfl

@[simp] theorem State.admitted_sqWord (s : State) (p : Packet) (d : CmdDesc) (v : View) (a : Area) (w : Nat) :
    (s.admitted p d).sqWord v a w = s.sqWord v a w :=
  State.admitted_congr (State.sqWord · v a w) s p d fun _ _ => rfl

@[simp] theorem State.admitted_offers (s : State) (p : Packet) (d : CmdDesc) : (s.admitted p d).offers = s.offers :=
  State.admitted_congr State.offers s p d fun _ _ => rfl

@[simp] theorem State.admitted_statusNow (s : State) (p : Packet) (d : CmdDesc) (k n : Nat) : (s.admitted p d).statusNow k n = s.statusNow k n :=
  State.admitted_congr (State.statusNow · k n) s p d fun _ _ => rfl

@[simp] theorem State.admitted_total (s : State) (p : Packet) (d : CmdDesc) (n : Nat) : (s.admitted p d).total n = s.total n :=
  State.admitted_congr (State.total · n) s p d fun _ _ => rfl

@[simp] theorem State.admitted_totCfg (s : State) (p : Packet) (d : CmdDesc) (n : Nat) : (s.admitted p d).totCfg n = s.totCfg n :=
  State.admitted_congr (State.totCfg · n) s p d fun _ _ => rfl

@[simp] theorem State.admitted_uc (s : State) (p : Packet) (d : CmdDesc) (n : Nat) : (s.admitted p d).uc n = s.uc n :=
  State.admitted_congr (State.uc · n) s p d fun _ _ => rfl

@[simp] theorem State.admitted_ucCfg (s : State) (p : Packet) (d : CmdDesc) (n : Nat) : (s.admitted p d).ucCfg n = s.ucCfg n :=
  State.admitted_congr (State.ucCfg · n) s p d fun _ _ => rfl

/-! ## The module as a whole (R64, R65, R73, R75) -/

@[simp] theorem State.admitted_storeMv (s : State) (p : Packet) (d : CmdDesc) : (s.admitted p d).storeMv = s.storeMv :=
  State.admitted_congr State.storeMv s p d fun _ _ => rfl

@[simp] theorem State.admitted_logicMw (s : State) (p : Packet) (d : CmdDesc) : (s.admitted p d).logicMw = s.logicMw :=
  State.admitted_congr State.logicMw s p d fun _ _ => rfl

theorem State.storeMv_eq (s : State) : s.storeMv =
    (let store := if s.service = .full then max 44000 (Config.liveReading 7 0 s.now).toNat else (Config.liveReading 7 0 s.now).toNat
     match s.power.store with | some (u, mv) => if u = s.now then satNat 16 mv else store | none => store) := by
  simp only [State.storeMv, State.storeFree, beq_iff_eq]
  rfl

theorem State.domainMw_eq (s : State) : s.domainMw = fun d => if (s.domain d).state = .off then 0
    else min ([1300, 1600, 400, 400, 400, 2000, 2500, 1400, 3200, 1000, 2000, 600].getD d 0) (Config.powerMw d s.now).toNat := by
  funext d
  simp only [State.domainMw, domainMaxMw, beq_iff_eq]

theorem State.logicMw_eq (s : State) : s.logicMw =
    (let mw := ((List.range 12).map s.domainMw).sum + min 5200 (Config.lossMw s.now).toNat
     if s.service = .sideStreet then min 12000 mw else mw) := by
  simp only [State.logicMw, lossMaxMw, beq_iff_eq]

/-- Settles O22: acceptance touches nothing that the rows show, so each row's fields are those of `s`. -/
theorem moduleReads : Obligations.ModuleReads := by
  intro s p
  dsimp only
  have hsup := s.onlySup_admitted p
  refine ⟨fun h => ?identify, fun h => ?status, fun h => ?power, fun h => ?thermal, fun h => ?keys, fun h => ?cycle⟩
  case identify =>
    obtain ⟨x, k, ht⟩ := hsup identifyDesc
    exact (State.command_next runIdentify h).trans (by rw [ht]; rfl)
  case status =>
    obtain ⟨x, k, ht⟩ := hsup getStatusDesc
    exact (State.command_next runGetStatus h).trans (by rw [ht]; rfl)
  case power =>
    refine (State.command_next runPowerStatus h).trans ?_
    unfold runPowerStatus
    rw [State.admitted_power, State.admitted_storeMv, State.admitted_logicMw, State.storeMv_eq, State.logicMw_eq, State.domainMw_eq] <;>
      rfl
  case thermal =>
    obtain ⟨x, k, ht⟩ := hsup thermalStatusDesc
    exact (State.command_next runThermalStatus h).trans (by rw [ht]; rfl)
  case keys =>
    obtain ⟨x, k, ht⟩ := hsup keyStatusDesc
    exact (State.command_next runKeyStatus h).trans (by rw [ht]; rfl)
  case cycle =>
    obtain ⟨x, k, ht⟩ := hsup cycleStatsDesc
    exact (State.command_next runCycleStats h).trans (by rw [ht]; rfl)

/-! ## The reads, in a state without errors and repairs (R56, R341, R343) -/

section

variable {s : State} {c : Ctx} {b : List Byte}

theorem State.gateRead_quiet (h : s.quiet = true) (a : Nat) (at_ marks : List Nat) (f : List Nat → State → State) :
    s.gateRead c b a at_ marks f = f marks s := by
  obtain ⟨hlocks, hupsets⟩ := s.quiet_iff.mp h
  exact State.gateRead_clear hupsets hlocks c b a at_ marks f

/-- A read of words of the snapshot delivers them as they stand. -/
theorem State.gateWords_quiet (h : s.quiet = true) (l : List (Area × Nat)) (f : List (Word × Bool) → State → State) :
    s.gateWords c b l [] f = f (l.map fun x => s.sqWord .done x.1 x.2) s := by
  unfold State.gateWords
  rw [State.gateRead_quiet h]
  refine congrArg (f · s) (List.map_congr_left fun x _ => ?_)
  cases s.wordAddr .done x.1 x.2 <;> simp

theorem runReadVars_data {l : List VarRef} (h : s.quiet = true) (hl : s.parseRefs (be16 b 0) (b.drop 4) = some l)
    (ht : s.hidesTotals (l.flatMap VarRef.items) = false) :
    runReadVars c b s = s.replyData c (toBe 2 (l.flatMap VarRef.items).length ++ pad 2) ((l.flatMap VarRef.items).map s.varItem) := by
  unfold runReadVars readVarsFrom
  rw [hl]
  dsimp only
  rw [ht, if_neg (by simp), State.gateRead_quiet h]
  simp [State.deliverItems, totalsIn, State.each]

theorem runChannelStatus_data {n at_ : Nat} (h : s.quiet = true) (hk : statusKind (byteAt b 0) = some (n, at_)) (hpos : 0 < byteAt b 2)
    (hfit : byteAt b 1 + byteAt b 2 ≤ n) :
    runChannelStatus c b s = s.replyData c [] ((List.range (byteAt b 2)).map fun i =>
      if s.offers then (s.statusNow (byteAt b 0) (byteAt b 1 + i), false) else s.sqWord .done .I (at_ + byteAt b 1 + i)) := by
  unfold runChannelStatus channelStatusFrom
  dsimp only
  rw [hk]
  dsimp only
  rw [if_neg (by simp; omega), if_neg hpos.ne']
  split
  · rfl
  · rw [State.gateWords_quiet h, List.map_map]
    rfl

theorem runLoopRead_data (h : s.quiet = true) (hn : be16 b 0 ≤ 255) :
    runLoopRead c b s = s.replyData c [] [(mkWord [(31, 24, bits (s.sqWord .done .L (16 * be16 b 0)).1 31 29)], (s.sqWord .done .L (16 * be16 b 0)).2),
      s.sqWord .done .L (16 * be16 b 0 + 1), s.sqWord .done .L (16 * be16 b 0 + 2), s.sqWord .done .L (16 * be16 b 0 + 3)] := by
  unfold runLoopRead loopReadFrom
  dsimp only
  rw [if_neg (by omega), State.gateWords_quiet h]
  rfl

theorem runStationStatus_data (h : s.quiet = true) (hp : byteAt b 0 ≤ 1) (hx : byteAt b 1 ≤ 31) :
    runStationStatus c b s = s.replyData c []
      [(mkWord [(31, 24, bits (s.sqWord .done .N (nIn (byteAt b 0) (byteAt b 1))).1 31 30),
          (23, 16, bits (s.sqWord .done .N (nIn (byteAt b 0) (byteAt b 1))).1 23 16)], (s.sqWord .done .N (nIn (byteAt b 0) (byteAt b 1))).2),
       s.sqWord .done .N (nIn (byteAt b 0) (byteAt b 1) + 1)] := by
  unfold runStationStatus stationStatusFrom
  dsimp only
  rw [if_neg (by simp; omega), State.gateWords_quiet h]
  rfl

theorem runTotalRead_data (h : s.quiet = true) (hpos : 1 ≤ byteAt b 1) (hfit : byteAt b 0 + byteAt b 1 ≤ 64) :
    runTotalRead c b s = s.reply c .ok ((List.range (byteAt b 1)).flatMap fun i =>
      toBe 8 (BitVec.ofInt 64 (s.total (byteAt b 0 + i)).value).toNat ++ toBe 4 (s.total (byteAt b 0 + i)).epoch.toNat ++
        toBe 1 (bits (s.totCfg (byteAt b 0 + i)) 29 28) ++ pad 3) := by
  unfold runTotalRead totalReadFrom
  dsimp only
  rw [if_neg (by simp; omega), if_neg (by omega), State.gateRead_quiet h]
  rfl

theorem runHartBurstRead_data {f : List Byte} {at_ : Nat} (hn : byteAt b 0 ≤ 31) (hd : byteAt b 1 ≤ 5) (hc : ucHart (s.ucCfg (byteAt b 0)) = true)
    (hr : (s.uc (byteAt b 0)).state = .run) (hf : ((s.uc (byteAt b 0)).devices.get {} (byteAt b 1)).burst = some (f, at_)) :
    runHartBurstRead c b s = s.reply c .ok (toBe 4 (satNat 32 ((s.now - at_) / 1000000)) ++ f) := by
  unfold runHartBurstRead
  dsimp only
  rw [if_neg (by simp; omega), if_neg (by simp [hc, hr]), hf]

end

/-- Settles O24: each read is answered by the state that acceptance left, whose process data are those of `s`. -/
theorem processReads : Obligations.ProcessReads := by
  intro s p hq
  dsimp only
  have hquiet : ∀ d, (s.admitted p d).quiet = true := fun d => by simpa using hq
  refine ⟨fun l h hl ht => ?vars, fun n at_ h hk hpos hfit => ?channel, fun h hn => ?loop, fun h hp hx => ?station, fun h hpos hfit => ?total,
    fun f at_ h hn hd hc hr hf => ?burst⟩
  case vars =>
    refine (State.command_next runReadVars h).trans ?_
    rw [runReadVars_data (hquiet _) (by simpa using hl) (by simpa using ht), State.admitted_varItem]
  case channel =>
    refine (State.command_next runChannelStatus h).trans ?_
    rw [runChannelStatus_data (hquiet _) hk hpos hfit]
    simp only [State.admitted_offers, State.admitted_statusNow, State.admitted_sqWord]
  case loop =>
    refine (State.command_next runLoopRead h).trans ?_
    rw [runLoopRead_data (hquiet _) hn]
    simp only [State.admitted_sqWord, Nat.add_zero]
  case station =>
    refine (State.command_next runStationStatus h).trans ?_
    rw [runStationStatus_data (hquiet _) hp hx]
    simp only [State.admitted_sqWord, Nat.add_zero]
  case total =>
    refine (State.command_next runTotalRead h).trans ?_
    rw [runTotalRead_data (hquiet _) hpos hfit]
    simp only [State.admitted_total, State.admitted_totCfg]
  case burst =>
    refine (State.command_next runHartBurstRead h).trans ?_
    rw [runHartBurstRead_data hn hd (by simpa using hc) (by simpa using hr) (by simpa using hf), State.admitted_now]

/-! ## The reads of counters, records and arrays -/

@[simp] theorem State.admitted_entries (s : State) (p : Packet) (d : CmdDesc) (m n : Nat) (i : BitVec 32) :
    (s.admitted p d).entries m n i = s.entries m n i := by
  have hentry : (s.admitted p d).entry = s.entry := State.admitted_congr State.entry s p d fun _ _ => rfl
  induction n generalizing i with
  | zero => rfl
  | succ n ih => simp only [State.entries, hentry, ih]

@[simp] theorem State.admitted_entryCount (s : State) (p : Packet) (d : CmdDesc) (i : BitVec 32) (n : Nat) :
    (s.admitted p d).entryCount i n = s.entryCount i n :=
  State.admitted_congr (State.entryCount · i n) s p d fun _ _ => rfl

section

variable {s : State} {c : Ctx} {b : List Byte}

/-- Without an error no record of the answer is marked anew. -/
theorem State.markRecords_nil (s : State) : s.markRecords [] = s := by
  simp [State.markRecords, State.each]

theorem runRecQuery_data (h : s.quiet = true) (hfrom : beWord b 0 ≠ 0) (hpos : 1 ≤ be16 b 4) (hmax : be16 b 4 ≤ 43) (hsev : byteAt b 6 ≤ 3) :
    runRecQuery c b s = s.replyData c (toBe 2 (s.entryCount (beWord b 0) (be16 b 4)) ++ pad 2)
      (s.entries (byteAt b 6) (s.entryCount (beWord b 0) (be16 b 4)) (beWord b 0)) := by
  unfold runRecQuery recQueryFrom
  dsimp only
  rw [if_neg (not_or.mpr ⟨hfrom, by omega⟩), State.gateRead_quiet h, State.markRecords_nil]

theorem runRecUpload_opens (hc : c.broadcast = false) (hfrom : beWord b 0 ≠ 0) (hpos : 1 ≤ be32 b 4) (hmax : be32 b 4 ≤ 65536) :
    runRecUpload c b s = { s with sup := { s.sup with ready := s.sup.ready + 1, replies := s.sup.replies ++
      [{ ctx := c, status := 0, cycle := s.shownCycle, body := [], sent := 0, counts := true, upload := some (beWord b 0, be32 b 4)
         readyAt := s.now, order := s.sup.ready }] } } := by
  unfold runRecUpload
  dsimp only
  rw [if_neg (not_or.mpr ⟨hfrom, by omega⟩), if_neg (by simp [hc])]
  rfl

end

/-- Settles O25: as `moduleReads`, with the ranges of the operands. -/
theorem counterReads : Obligations.CounterReads := by
  intro s p
  dsimp only
  have hsup := s.onlySup_admitted p
  refine ⟨fun h hn => ?can, fun h => ?pair, fun hq h hfrom hpos hmax hsev => ?query, fun h hc hfrom hpos hmax => ?upload, fun h => ?recCounters,
    fun h hn => ?memory, fun h hn => ?remap, fun h => ?fire⟩
  case can =>
    obtain ⟨x, k, ht⟩ := hsup canCountersDesc
    exact (State.command_next runCanCounters h).trans (by rw [runCanCounters, if_neg (by omega), ht]; rfl)
  case pair =>
    obtain ⟨x, k, ht⟩ := hsup pairStatusDesc
    exact (State.command_next runPairStatus h).trans (by rw [ht]; rfl)
  case query =>
    refine (State.command_next runRecQuery h).trans ?_
    rw [runRecQuery_data (by simpa using hq) hfrom hpos hmax hsev, State.admitted_entryCount, State.admitted_entries]
    rfl
  case upload =>
    refine (State.command_next runRecUpload h).trans ?_
    rw [runRecUpload_opens hc hfrom hpos hmax, State.admitted_now]
  case recCounters =>
    obtain ⟨x, k, ht⟩ := hsup recCountersDesc
    exact (State.command_next runRecCounters h).trans (by rw [ht]; rfl)
  case memory =>
    obtain ⟨x, k, ht⟩ := hsup memStatusDesc
    exact (State.command_next runMemStatus h).trans (by rw [runMemStatus, if_neg (by omega), ht]; rfl)
  case remap =>
    obtain ⟨x, k, ht⟩ := hsup remapReadDesc
    exact (State.command_next runRemapRead h).trans (by rw [runRemapRead, if_neg (by omega), ht])
  case fire =>
    obtain ⟨x, k, ht⟩ := hsup fireStatusDesc
    exact (State.command_next runFireStatus h).trans (by rw [ht]; rfl)

end Sys2Proof.Machine
end

/-! # Commands that change

Acceptance leaves SUP's own work alone; keys and firmware change at once, while writes, forces and enables wait for their commit in the order of
acceptance (R44 to R47, R50, R93, R97, R166, R338). -/

section
namespace Sys2Proof.Machine
open Sys2Proof

/-! ## Acceptance keeps SUP's own work (R42) -/

/-- From `x` to `y` at most what SUP keeps of its origins differs: replay memories, windows, requests under way, replies owed, counters. -/
def Sup.keepsWork (x y : Sup) : Prop :=
  y = { x with ready := y.ready, replay := y.replay, windows := y.windows, partials := y.partials, replies := y.replies, counters := y.counters }

theorem Sup.keepsWork.trans {x y z : Sup} (h : x.keepsWork y) (k : y.keepsWork z) : x.keepsWork z := by
  unfold Sup.keepsWork at *
  rw [k, h]

theorem State.owe_keepsWork (s : State) (c : Ctx) (st : Status) (cycle : BitVec 32) (body : List Byte) (counts : Bool) :
    s.sup.keepsWork (s.owe c st cycle body counts).sup := by
  unfold State.owe
  (repeat' split) <;> rfl

theorem State.acceptSeq_keepsWork (s : State) (p : Packet) : s.sup.keepsWork (s.acceptSeq p).sup := rfl

theorem State.takePlace_keepsWork {s t : State} {o : BitVec 16} (h : s.takePlace o = some t) : s.sup.keepsWork t.sup := by
  unfold State.takePlace at h
  split at h <;> split at h <;> cases h <;> rfl

theorem State.collect_keepsWork (s : State) (p : Packet) (c : Ctx) : s.sup.keepsWork (s.collect p c).1.sup := by
  unfold State.collect
  split
  · dsimp only
    split
    · split
      · refine Sup.keepsWork.trans ?_ (State.owe_keepsWork _ _ _ _ _ _)
        rfl
      · rfl
    · rfl
  · split
    · refine Sup.keepsWork.trans ?_ (State.owe_keepsWork _ _ _ _ _ _)
      rfl
    · next t h =>
      have ht := State.takePlace_keepsWork h
      split
      · exact ht.trans rfl
      · exact ht

theorem State.accept_keepsWork (s : State) (p : Packet) (d : CmdDesc) (known : Bool) : s.sup.keepsWork (s.accept p d known).1.sup := by
  unfold State.accept
  split; · rfl
  split; · rfl
  split; · rfl
  split; · rfl
  split; · rfl
  next roles _ =>
  dsimp only
  split; · rfl
  split; · refine Sup.keepsWork.trans ?_ (State.owe_keepsWork _ _ _ _ _ _)
           rfl
  have h := (s.acceptSeq_keepsWork p).trans (State.collect_keepsWork (s.acceptSeq p) p { p.ctx d.cls roles with gen := s.sup.gen })
  split
  · next e => rw [e] at h; exact h
  · next t q e =>
    rw [e] at h
    have howe : ∀ c st cycle body counts, s.sup.keepsWork (t.owe c st cycle body counts).sup := fun _ _ _ _ _ => h.trans (t.owe_keepsWork _ _ _ _ _)
    split; · exact howe _ _ _ _ _
    split; · exact howe _ _ _ _ _
    split; · exact howe _ _ _ _ _
    split; · exact howe _ _ _ _ _
    split
    · exact howe _ _ _ _ _
    · exact h

theorem State.admitted_keepsWork (s : State) (p : Packet) (d : CmdDesc) : s.sup.keepsWork (s.admitted p d).sup := s.accept_keepsWork p d true

@[simp] theorem State.admitted_fwBytes (s : State) (p : Packet) (d : CmdDesc) : (s.admitted p d).sup.fwBytes = s.sup.fwBytes := by
  rw [s.admitted_keepsWork p d]

@[simp] theorem State.admitted_fwData (s : State) (p : Packet) (d : CmdDesc) : (s.admitted p d).sup.fwData = s.sup.fwData := by
  rw [s.admitted_keepsWork p d]

@[simp] theorem State.admitted_subs (s : State) (p : Packet) (d : CmdDesc) : (s.admitted p d).sup.subs = s.sup.subs := by
  rw [s.admitted_keepsWork p d]

@[simp] theorem State.admitted_objPending (s : State) (p : Packet) (d : CmdDesc) : (s.admitted p d).sup.objPending = s.sup.objPending := by
  rw [s.admitted_keepsWork p d]

/-! ## Keys and firmware (R44 to R47, R338) -/

theorem get_putImage_before (t : Tab Byte) (a : Nat) (l : List Byte) {i : Nat} (h : i < a) : (putImage t a l).get 0 i = t.get 0 i := by
  induction l generalizing t a with
  | nil => rfl
  | cons b l ih => rw [putImage, ih _ _ (by omega), Tab.get_set_other _ _ _ (by omega)]

/-- The bytes of a firmware image that came read as they came. -/
theorem get_putImage (t : Tab Byte) (a : Nat) (l : List Byte) {k : Nat} (h : k < l.length) : (putImage t a l).get 0 (a + k) = l.getD k 0 := by
  induction l generalizing t a k with
  | nil => cases h
  | cons b l ih =>
    cases k with
    | zero => exact (get_putImage_before _ _ _ (Nat.lt_succ_self a)).trans (Tab.get_set_same _ _ _ _)
    | succ k =>
      rw [putImage, show a + (k + 1) = a + 1 + k by omega, ih _ _ (by simpa using h)]
      rfl

/-- Settles O46: each command runs on what acceptance left of SUP's work. -/
theorem keyAndFirmwareRows : Obligations.KeyAndFirmwareRows := by
  intro s p
  refine ⟨fun h hn hr => ?install, fun h hn => ?revoke, fun h hn => ?begin, fun n => fun h hf hfit => ⟨?data, fun k hk => ?bytes⟩, fun n h hf => ?activate⟩
  case install =>
    refine (State.command_next runKeyInstall h).trans ?_
    rw [runKeyInstall, if_neg (by omega), if_neg (by omega)]
    rfl
  case revoke =>
    refine (State.command_next runKeyRevoke h).trans ?_
    rw [runKeyRevoke, if_neg (by omega)]
  case begin =>
    refine (State.command_next runFwBegin h).trans ?_
    rw [runFwBegin, if_neg (by simpa [firmwareLimit] using hn)]
  case data =>
    refine (State.command_next runFwData h).trans ?_
    rw [runFwData, State.admitted_fwBytes, hf]
    dsimp only
    rw [if_neg (by omega), State.admitted_fwData]
  case bytes =>
    rw [get_putImage _ _ _ (by simpa using hk)]
    simp
  case activate =>
    have himage : (s.admitted p fwActivateDesc).sup.image n = s.sup.image n := by simp only [Sup.image, State.admitted_fwData]
    refine (State.command_next runFwActivate h).trans ?_
    rw [runFwActivate, State.admitted_fwBytes, hf]
    dsimp only
    rw [himage]

/-! ## Landings (R50, R93, R97, R166) -/

@[simp] theorem State.admitted_writeRefusal (s : State) (p : Packet) (d : CmdDesc) : (s.admitted p d).writeRefusal = s.writeRefusal :=
  State.admitted_congr State.writeRefusal s p d fun _ _ => rfl

@[simp] theorem State.admitted_planWrites (s : State) (p : Packet) (d : CmdDesc) (l : List (List Byte × List Word)) :
    (s.admitted p d).planWrites l = s.planWrites l := by
  induction l with
  | nil => rfl
  | cons x l ih => simp only [State.planWrites, State.admitted_parseRef, State.admitted_writeRefusal, ih]

@[simp] theorem State.admitted_forceItem (s : State) (p : Packet) (d : CmdDesc) : (s.admitted p d).forceItem = s.forceItem :=
  State.admitted_congr State.forceItem s p d fun _ _ => rfl

@[simp] theorem State.admitted_planForces (s : State) (p : Packet) (d : CmdDesc) (l : List Force) (m : List ((Area × Bool × Nat) × Word)) :
    (s.admitted p d).planForces l m = s.planForces l m := by
  induction m generalizing l with
  | nil => rfl
  | cons x m ih => simp only [State.planForces, State.admitted_forceItem, ih]

@[simp] theorem State.admitted_plannedForces (s : State) (p : Packet) (d : CmdDesc) : (s.admitted p d).plannedForces = s.plannedForces :=
  State.admitted_congr State.plannedForces s p d fun _ _ => rfl

@[simp] theorem State.admitted_bank (s : State) (p : Packet) (d : CmdDesc) (n : Nat) : (s.admitted p d).bank n = s.bank n :=
  State.admitted_congr (State.bank · n) s p d fun _ _ => rfl

@[simp] theorem State.admitted_loopCtx (s : State) (p : Packet) (d : CmdDesc) (n : Nat) : (s.admitted p d).loopCtx n = s.loopCtx n :=
  State.admitted_congr (State.loopCtx · n) s p d fun _ _ => rfl

theorem State.changeBoundary_eq (s : State) : s.changeBoundary = cyclePlus s.square.current (if s.square.phase = .idle then 4 else 5) := by
  simp only [State.changeBoundary, beq_iff_eq]

/-- A force or release waits for its commit: the next one, or in a synchronised pair the one before the common boundary (R98, R305, log 102). -/
theorem State.admitted_postForce (s : State) (p : Packet) (d : CmdDesc) (c : Ctx) (k : LandKind) (g : Change) :
    (s.admitted p d).postForce c k g =
      if s.forwards then ((s.admitted p d).tellPartner g (cyclePlus s.square.current (if s.square.phase = .idle then 4 else 5))).postLanding
        { ctx := c, kind := k, words := [], due := some (cyclePlus s.square.current (if s.square.phase = .idle then 4 else 5)) }
      else (s.admitted p d).postLanding { ctx := c, kind := k, words := [] } := by
  simp only [State.postForce, State.admitted_forwards, State.changeBoundary_eq, State.admitted_square]

section

variable {c : Ctx} {b : List Byte} {s : State}

/-- The bank that a planned switch brings in, without RELEASE_FORCES, has a symbol for every force of the list. -/
def State.switchKeeps (s : State) (l : List Force) : Prop :=
  ∀ w, s.square.switch = some w → w.releaseForces = false → ∀ f ∈ l, (s.bank (b2n w.bank)).desc.lacks f = false

theorem State.switchKeeps.check {l : List Force} (h : s.switchKeeps l) {w : Switch} (hw : s.square.switch = some w) :
    (!w.releaseForces && l.any (s.bank (b2n w.bank)).desc.lacks) = false := by
  cases hr : w.releaseForces with
  | true => rfl
  | false => simpa using h w hw hr

theorem runForceSet_posts {r : VarRef} {l : List Force} (hr : s.parseRef b 0 = some r) (hmay : ∀ x ∈ r.items, mayForce x = true)
    (hl : s.planForces [] (r.items.zip (packWords r.count (b.drop 8))) = some l) (hsw : s.switchKeeps l)
    (hfit : (forcedWords (l.foldl setForce s.plannedForces)).length ≤ 256) (hlost : (s.forwards && s.causewayLost) = false) :
    runForceSet c b s = s.postForce c (.forceSet l) (.forceSet l) := by
  have hall : (r.items.any fun x => !mayForce x) = false := by simpa using hmay
  unfold runForceSet
  rw [hr]
  dsimp only
  rw [hall, if_neg (by simp), hl]
  dsimp only
  refine (if_neg ?_).trans (if_neg (by simp [hlost]; omega))
  split
  · next w hw => simp [hsw.check hw]
  · simp

theorem runForceRelease_all (hlost : (s.forwards && s.causewayLost) = false) (hb : b = []) :
    runForceRelease c b s = s.postForce c (.forceRelease [] true) (.forceRelease [] true) := by
  rw [runForceRelease, hlost, if_neg (by simp), if_pos (by simp [hb])]

theorem runForceRelease_some {r : VarRef} (hlost : (s.forwards && s.causewayLost) = false) (hb : b ≠ []) (hr : s.parseRef b 0 = some r) :
    runForceRelease c b s = s.postForce c (.forceRelease (r.items.map itemWord) false)
      (.forceRelease ((r.items.map itemWord).map fun w => (w.area, w.word)) false) := by
  rw [runForceRelease, hlost, if_neg (by simp), if_neg (by simpa using hb), hr]

end

/-- Settles O27: the commands post their landings in the state that acceptance left. -/
theorem landingCommands : Obligations.LandingCommands := by
  intro s p
  dsimp only
  refine ⟨fun l m h hl hm => ?writes, fun r l h hr hmay hl hsw hfit hlost => ?set, fun hf hl h => ?lost, fun h hlost hb => ?all,
    fun r h hlost hb hr => ?some, fun h hn hw => ?enable, fun h hn => ?disable⟩
  case writes =>
    refine (State.command_next runWriteVars h).trans ?_
    rw [runWriteVars, hl, Option.getD_some, State.admitted_planWrites, hm]
  case set =>
    refine (State.command_next runForceSet h).trans ?_
    rw [runForceSet_posts (by simpa using hr) hmay (by simpa using hl) (by simpa [State.switchKeeps] using hsw) (by simpa using hfit)
      (by simpa using hlost), State.admitted_postForce]
  case lost =>
    refine (State.command_next runForceRelease h).trans ?_
    rw [runForceRelease, State.admitted_forwards, State.admitted_causewayLost, hf, hl]
    rfl
  case all =>
    refine (State.command_next runForceRelease h).trans ?_
    rw [runForceRelease_all (by simpa using hlost) hb, State.admitted_postForce]
  case some =>
    refine (State.command_next runForceRelease h).trans ?_
    rw [runForceRelease_some (by simpa using hlost) hb (by simpa using hr), State.admitted_postForce]
  case enable =>
    refine (State.command_next runLoopEnable h).trans ?_
    rw [runLoopEnable, if_neg (by omega), if_neg (by simpa using hw)]
  case disable =>
    refine (State.command_next runLoopDisable h).trans ?_
    rw [runLoopDisable, if_neg (by omega)]

end Sys2Proof.Machine
end

/-! # Subscriptions

SUBSCRIBE by its number and the entries that stand, UNSUBSCRIBE, the lease, and the packet of a SUB_DELTA with what it leaves of its subscription (R57). -/

section
namespace Sys2Proof.Machine
open Sys2Proof

/-! ## SUBSCRIBE and UNSUBSCRIBE -/

/-- A subscription as a SUBSCRIBE opens it. -/
def Subscription.opened (c : Ctx) (b : List Byte) (items : List (Area × Bool × Nat)) (now : Nat) : Subscription :=
  { ctx := c, words := items, decimate := be16 b 2, leaseEnd := now + be16 b 4 * 1000000000, counted := 0
    delivered := items.map fun _ => none, full := true, due := false, snap := [], snapCycle := 0, skipped := 0 }

/-- What a SUBSCRIBE makes of the entry of its number: one of the same words keeps what was delivered. -/
def Subscription.renewed (o : Option Subscription) (c : Ctx) (b : List Byte) (items : List (Area × Bool × Nat)) (now : Nat) : Subscription :=
  match o with
  | some x => if x.words = items then { x with ctx := c, decimate := be16 b 2, leaseEnd := now + be16 b 4 * 1000000000 } else .opened c b items now
  | none => .opened c b items now

/-- Entry `k` takes a subscription, and the request is answered with its number. -/
def State.subscribed (s : State) (c : Ctx) (k : Nat) (x : Subscription) : State := (s.setSub k (some x)).reply c .ok (toBe 1 (k + 1) ++ pad 1)

section

variable {c : Ctx} {b : List Byte} {s : State} {l : List VarRef}

/-- The operands of a SUBSCRIBE are in their ranges, and its words are shown. -/
structure State.maySubscribe (s : State) (b : List Byte) (l : List VarRef) : Prop where
  refs : s.parseRefs (be16 b 6) (b.drop 8) = some l
  decimate : 1 ≤ be16 b 2
  lease : 1 ≤ be16 b 4
  leaseMax : be16 b 4 ≤ 3600
  some : 1 ≤ (l.flatMap VarRef.items).length
  fits : (l.flatMap VarRef.items).length ≤ 256
  shown : s.hidesTotals (l.flatMap VarRef.items) = false

/-- A SUBSCRIBE in its ranges takes the lowest free entry for number 0, else the entry of its number where it is its origin's. -/
theorem runSubscribe_eq (h : s.maySubscribe b l) (hid : byteAt b 0 ≤ 64) : runSubscribe c b s =
    if byteAt b 0 = 0 then
      match (List.range 64).find? fun k => (s.sup.subs.get none k).isNone with
      | some k => s.subscribed c k (.renewed (s.sup.subs.get none k) c b (l.flatMap VarRef.items) s.now)
      | none => s.replyBusy c true
    else match s.sup.subs.get none (byteAt b 0 - 1) with
      | none => s.refuse c .badObject
      | some o => if o.ctx.origin = c.origin
          then s.subscribed c (byteAt b 0 - 1) (.renewed (s.sup.subs.get none (byteAt b 0 - 1)) c b (l.flatMap VarRef.items) s.now)
          else s.replyBusy c true := by
  have hrange : (decide (be16 b 2 = 0) || decide (be16 b 4 = 0) || decide (3600 < be16 b 4) || decide (256 < (l.flatMap VarRef.items).length) ||
      (l.flatMap VarRef.items).isEmpty) = false := by
    obtain ⟨_, hd, h0, hmax, hne, hfit, _⟩ := h
    have hempty : (l.flatMap VarRef.items).isEmpty = false := by
      rw [List.isEmpty_eq_false_iff_exists_mem]
      exact List.exists_mem_of_length_pos hne
    simp only [hempty, Bool.or_eq_false_iff, decide_eq_false_iff_not, and_true]
    omega
  unfold runSubscribe
  rw [h.refs]
  dsimp only
  rw [if_neg (by omega), h.shown, if_neg (by simp), hrange, if_neg (by simp)]
  simp only [beq_iff_eq]
  rfl

end

theorem runUnsubscribe_frees {c : Ctx} {b : List Byte} {s : State} {x : Subscription} (hpos : 1 ≤ byteAt b 0) (hmax : byteAt b 0 ≤ 64)
    (hx : s.sup.subs.get none (byteAt b 0 - 1) = some x) : runUnsubscribe c b s = (s.setSub (byteAt b 0 - 1) none).ok c := by
  unfold runUnsubscribe
  dsimp only
  rw [hx, if_neg]
  simp only [Option.isNone_some, Bool.or_false, Bool.or_eq_true, decide_eq_true_eq]
  omega

/-! ## SUB_DELTA -/

section

variable (s : State) (port : Port) (flags opcode tag : Nat) (seq : BitVec 32) (target : BitVec 16) (cls keyslot : BitVec 8) (tagged : Bool)
  (cycle : BitVec 32) (pay : List Byte)

/-- A packet of the module carries what it is built of. -/
theorem State.packet_fields : let q := s.packet port flags opcode tag seq target cls keyslot tagged cycle pay
    q.port = port ∧ q.opcode = BitVec.ofNat 16 opcode ∧ q.target = target ∧ q.cycle = cycle ∧ q.payload = pay ∧ q.auth.length ≤ 16 := by
  unfold State.packet
  dsimp only
  split
  · exact ⟨rfl, rfl, rfl, rfl, rfl, Packet.length_mac _ _⟩
  · exact ⟨rfl, rfl, rfl, rfl, rfl, Nat.zero_le _⟩

end

/-- The data of a SUB_DELTA. -/
def Subscription.deltaBytes (x : Subscription) (k : Nat) : List Byte :=
  let now := x.delta.take deltaWords
  let pois := now.any fun i => (x.snap.getD i (0, false)).2
  toBe 1 (k + 1) ++ toBe 1 (b2n x.full + 2 * b2n pois) ++ toBe 2 (min x.skipped 65535) ++ toBe 2 now.length ++ pad 2 ++
    now.flatMap fun i => toBe 2 i ++ pad 2 ++ wordBe (x.snap.getD i (0, false)).1

/-- What a SUB_DELTA leaves of its subscription. -/
def Subscription.told (x : Subscription) : Subscription :=
  let now := x.delta.take deltaWords
  let more := decide (deltaWords < x.delta.length)
  { x with due := more, full := x.full && more, skipped := if more then x.skipped else 0
           delivered := (List.range x.words.length).map fun i => if now.contains i then some (x.snap.getD i (0, false)).1 else x.delivered.getD i none }

/-- The packet of a SUB_DELTA. -/
def State.deltaPacket (s : State) (k : Nat) (x : Subscription) : Packet :=
  { s.packet x.ctx.port 16 0x0380 0 (Config.deltaSeq s.freeCount) x.ctx.origin 2 x.ctx.keyslot x.ctx.tagged x.snapCycle (x.deltaBytes k) with
    peer := x.ctx.peer }

theorem execSubDelta_sends {s : State} {k : Fin 64} {x : Subscription} (hx : s.sup.subs.get none k = some x) (hdue : x.due = true)
    (hsup : s.supAnswers = true) (hpath : s.pathDown x.ctx.port = false) (hpair : s.pair.state ≠ .stale) (hshown : s.hidesTotals x.words = false) :
    execSubDelta k s = .next ((s.setSub k (some x.told)).draw.send ((s.setSub k (some x.told)).draw.deltaPacket k x)) := by
  unfold execSubDelta
  rw [hx]
  dsimp only
  rw [if_neg (by simp [hdue, hsup, hpath, hpair, hshown])]
  rfl

@[simp] theorem length_pad (n : Nat) : (pad n).length = n := List.length_replicate

theorem Subscription.length_deltaBytes (x : Subscription) (k : Nat) : (x.deltaBytes k).length ≤ 1400 := by
  have hwords : ∀ l : List Nat, (l.flatMap fun i => toBe 2 i ++ pad 2 ++ wordBe (x.snap.getD i (0, false)).1).length = 8 * l.length := by
    intro l
    induction l with
    | nil => rfl
    | cons i l ih =>
      rw [List.flatMap_cons, List.length_append, ih]
      simp [wordBe]
      omega
  have htake : (x.delta.take deltaWords).length ≤ 174 := List.length_take_le _ _
  simp only [Subscription.deltaBytes, List.length_append, hwords, length_toBe, length_pad]
  omega

/-- A word that the packet takes has been delivered as it stood. -/
theorem Subscription.told_delivered (x : Subscription) {i : Nat} (h : i ∈ x.delta.take 174) :
    x.told.delivered.getD i none = some (x.snap.getD i (0, false)).1 := by
  have hlt : i < x.words.length := by
    have hmem := List.mem_of_mem_take h
    simp only [Subscription.delta, List.mem_filter, List.mem_range] at hmem
    exact hmem.1
  simp [Subscription.told, hlt, h, deltaWords]

theorem State.deltaPacket_fields (s : State) (k : Nat) (x : Subscription) :
    (s.deltaPacket k x).port = x.ctx.port ∧ (s.deltaPacket k x).opcode = 0x0380 ∧ (s.deltaPacket k x).target = x.ctx.origin ∧
      (s.deltaPacket k x).cycle = x.snapCycle ∧
      ringFits ((s.deltaPacket k x).header ++ (s.deltaPacket k x).payload ++ (s.deltaPacket k x).auth) = true := by
  obtain ⟨hport, hop, htarget, hcycle, hpay, hauth⟩ := s.packet_fields x.ctx.port 16 0x0380 0 (Config.deltaSeq s.freeCount) x.ctx.origin 2
    x.ctx.keyslot x.ctx.tagged x.snapCycle (x.deltaBytes k)
  refine ⟨hport, hop, htarget, hcycle, ?_⟩
  have hlen := x.length_deltaBytes k
  have hpay' : (s.deltaPacket k x).payload = x.deltaBytes k := hpay
  have hauth' : (s.deltaPacket k x).auth.length ≤ 16 := hauth
  simp only [ringFits, List.length_append, Packet.length_header, hpay', decide_eq_true_eq]
  omega

/-- Settles O28: SUBSCRIBE by `runSubscribe_eq`, SUB_DELTA by `execSubDelta_sends` and what `Subscription.told` keeps. -/
theorem subscriptionRows : Obligations.SubscriptionRows := by
  intro s p
  refine ⟨fun l => ?subscribe, fun x => ?unsubscribe, fun k x hx hend => ?lease, fun k x hx hdue hsup hpath hpair hshown => ?delta⟩
  case subscribe =>
    intro t c b items fresh done h hrefs hdec hlease hmax hsome hfits hshown
    have hmay : t.maySubscribe b l := ⟨by simpa [t] using hrefs, hdec, hlease, hmax, hsome, hfits, by simpa [t] using hshown⟩
    have hexec : exec (.subscribe p) s = .next (runSubscribe c b t) := State.command_next runSubscribe h
    have hsubs : t.sup.subs = s.sup.subs := s.admitted_subs p _
    have hnow : t.now = s.now := s.admitted_now p _
    refine ⟨fun k hid hfree => ?_, fun hid hfull => ?_, fun x hpos hmax hx horigin => ?_⟩
    · have hnone : s.sup.subs.get none k = none := by simpa using List.find?_some hfree
      rw [hexec, runSubscribe_eq hmay (by omega), if_pos hid, hsubs, hfree, hnow]
      dsimp only
      rw [hnone]
      rfl
    · have hnone : (List.range 64).find? (fun k => (s.sup.subs.get none k).isNone) = none := by
        rw [List.find?_eq_none]
        intro k hk
        simpa [Option.isSome_iff_ne_none] using hfull k (List.mem_range.mp hk)
      rw [hexec, runSubscribe_eq hmay (by omega), if_pos hid, hsubs, hnone]
    · rw [hexec, runSubscribe_eq hmay hmax, if_neg (by omega), hsubs, hx, hnow]
      dsimp only
      rw [if_pos horigin]
      rfl
  case unsubscribe =>
    intro b h hpos hmax hx
    refine (State.command_next runUnsubscribe h).trans ?_
    rw [runUnsubscribe_frees (x := x) hpos hmax (by simpa using hx)]
  case lease =>
    have hexec : exec (.subscriptionLeaseExpiry k) s = execSubscriptionLeaseExpiry k s := rfl
    rw [hexec, execSubscriptionLeaseExpiry, hx]
    exact if_pos hend
  case delta =>
    let u := (s.setSub k (some x.told)).draw
    obtain ⟨hport, hop, htarget, hcycle, hfit⟩ := u.deltaPacket_fields k x
    have hframe := u.send_frame (u.deltaPacket k x)
    have hsubs : (u.send (u.deltaPacket k x)).sup.subs = s.sup.subs.set none k (some x.told) := by rw [hframe]; rfl
    have hsent := State.send_sentBy (s := u) (p := u.deltaPacket k x) (by rw [hport]; exact hpath) hfit
    rw [hport] at hsent
    refine ⟨_, execSubDelta_sends hx hdue hsup hpath hpair hshown, ?_, ⟨u.deltaPacket k x, hsent, hop, htarget, hcycle⟩, fun m hm => ?_,
      ⟨x.told, ?_, rfl, rfl, rfl, fun i hi => x.told_delivered hi⟩⟩
    · change u.send (u.deltaPacket k x) = _
      rw [hframe]
      rfl
    · exact (congrArg (Tab.get none · m) hsubs).trans (Tab.get_set_other _ _ _ hm)
    · exact (congrArg (Tab.get none · k.val) hsubs).trans (Tab.get_set_same _ _ _ _)

end Sys2Proof.Machine
end

/-! # Writes of configuration

A write is checked as a whole and then taken word by word: at a boundary, at a commit, or by the channel whose mode it changes (R59, R189, R190, R429). -/

section
namespace Sys2Proof.Machine
open Sys2Proof

/-! ## What the judgements leave alone (R22, R378, R425) -/

@[simp] theorem State.setIslands_totals (s : State) (d : Nat) (x : IslandState) : (s.setIslands d x).totals = s.totals := by
  unfold State.setIslands
  refine State.each_field State.totals ?_ _ _
  intro _ _
  rfl

theorem State.loseArrays_totals (s : State) (d : Nat) : (s.loseArrays d).totals = s.totals := by
  have hgone : (s.each (domainArrays d) fun s a => s.modArr a fun x => { x with sealed_ := false, commanded := false }).totals = s.totals := by
    refine State.each_field State.totals ?_ _ _
    intro _ _
    rfl
  unfold State.loseArrays
  dsimp only
  split
  · refine Eq.trans (State.each_field State.totals ?_ _ _) hgone
    intro _ _
    rfl
  · split
    · exact (State.refuse_totals _ _ _).trans hgone
    · exact hgone
  · exact hgone

theorem State.judgeDomain_totals (s : State) (d : Nat) : (s.judgeDomain d).totals = s.totals := by
  unfold State.judgeDomain
  dsimp only
  (repeat' split) <;> simp [State.powerOff, State.loseArrays_totals]

theorem State.judgeDomains_totals (s : State) : s.judgeDomains.totals = s.totals := by
  unfold State.judgeDomains
  split
  · rfl
  · exact State.each_field State.totals State.judgeDomain_totals s _

theorem State.judgeThermal_totals (s : State) : s.judgeThermal.totals = s.totals := by
  unfold State.judgeThermal
  dsimp only
  (repeat' split) <;> simp

theorem State.judgeBands_totals (s : State) : s.judgeBands.totals = s.totals := by
  unfold State.judgeBands
  split
  · rfl
  · dsimp only
    (repeat' split) <;> simp

/-- What is judged after every write: domains, thermal limits, temperature bands. -/
theorem State.judged_totals (s : State) : s.judgeDomains.judgeThermal.judgeBands.totals = s.totals := by
  rw [State.judgeBands_totals, State.judgeThermal_totals, State.judgeDomains_totals]

/-! ## A word that is taken (R59) -/

theorem State.acceptWrites_one (s : State) (x : ObjWrite) :
    s.acceptWrites [x] = (s.acceptWord x.index x.sub x.value).judgeDomains.judgeThermal.judgeBands := rfl

/-- Outside a synchronised pair a word that is no channel's and not staged for the Fire Lane is taken by its timing alone. -/
theorem State.acceptWord_simplex {s : State} {i k : Nat} (w : Word) (hf : s.forwards = false) (huc : ¬ (0x400 ≤ i ∧ i ≤ 0x41F))
    (hfire : ¬ (0x880 ≤ i ∧ i ≤ 0x882)) : s.acceptWord i k w = s.takeWord i k w none := by
  have hstaged : (decide (0x880 ≤ i) && decide (i ≤ 0x882)) = false := by simpa using hfire
  have hchannel : (decide (0x400 ≤ i) && decide (i ≤ 0x41F)) = false := by simpa using huc
  unfold State.acceptWord
  rw [hstaged, hchannel]
  simp [hf]

theorem State.putRestart_zero (s : State) (key : Nat) (w : Word) : s.putRestart key 0 w = s := if_pos rfl

theorem State.takeWord_boundary {s : State} {i k : Nat} {q : WordSpec} (w : Word) (hq : objSpec i k = some q) (ht : q.timing = .boundary)
    (hr : q.restartMask = 0) (hm : q.mask ≠ 0) (hfull : s.service = .full) (huc : ¬ (0x400 ≤ i ∧ i ≤ 0x41F)) :
    s.takeWord i k w none = { s with sup := { s.sup with objPending := s.sup.objPending ++ [(okey i k, q.merge (s.plannedWord i k) w)] } } := by
  have hchannel : (decide (0x400 ≤ i) && decide (i ≤ 0x41F)) = false := by simpa using huc
  unfold State.takeWord
  rw [hq]
  dsimp only
  rw [hr, State.putRestart_zero, show q.mask &&& ~~~0 = q.mask from BitVec.and_allOnes, if_neg hm, ht, hchannel]
  simp [hfull]

theorem State.takeWord_commit {s : State} {n k : Nat} {q : WordSpec} (w : Word) (hq : objSpec (0x700 + n) k = some q) (ht : q.timing = .commit)
    (hr : q.restartMask = 0) (hm : q.mask ≠ 0) (hin : s.service ≠ .outOfService) :
    s.takeWord (0x700 + n) k w none = s.queueClose n none false [(k, q.merge (s.plannedWord (0x700 + n) k) w)] none := by
  unfold State.takeWord
  rw [hq]
  dsimp only
  rw [hr, State.putRestart_zero, show q.mask &&& ~~~0 = q.mask from BitVec.and_allOnes, if_neg hm, ht]
  simp [State.closeNow, State.queueClose, hin]

/-! ## A write of one word that passes the checks -/

/-- A word that passes the checks is defined, and some field of it may be written. -/
theorem State.checkWrites_one {s : State} {roles : BitVec 4} {x : ObjWrite} (h : s.checkWrites roles [x] = none) :
    ∃ q, objSpec x.index x.sub = some q ∧ q.hasWritable = true := by
  have hword : s.checkWord roles (s.planned.withWord x.index x.sub x.value) x.index x.sub x.rest x.value = none := by
    unfold State.checkWrites at h
    dsimp only [List.foldl_cons, List.foldl_nil, List.zipIdx_cons, List.zipIdx_nil] at h
    split at h
    · cases h
    · next hnone => simpa using hnone
  unfold State.checkWord at hword
  cases hq : objSpec x.index x.sub with
  | none => rw [hq] at hword; cases hword
  | some q =>
    refine ⟨q, rfl, ?_⟩
    by_contra hw
    rw [hq] at hword
    simp only [hw, Bool.not_false, if_true] at hword
    split at hword
    · cases hword
    · split at hword <;> cases hword

theorem objSpec_total {n : Nat} (h : n < 64) (k : Nat) : objSpec (0x700 + n) k = specTotal k := by
  unfold objSpec
  rw [if_neg (by simp; omega), if_neg (by simp; omega), if_neg (by simp; omega), if_neg (by simp; omega), if_neg (by simp; omega),
    if_neg (by simp; omega), if_pos (by simp; omega)]

/-- Every word of a total that may be written takes effect at the total's commit. -/
theorem specTotal_commit {k : Nat} {q : WordSpec} (h : specTotal k = some q) (hw : q.hasWritable = true) :
    q.timing = .commit ∧ q.restartMask = 0 ∧ q.mask ≠ 0 := by
  unfold specTotal at h
  split at h
  · cases h; exact ⟨rfl, rfl, by decide⟩
  · cases h; exact ⟨rfl, rfl, by decide⟩
  · cases h; exact ⟨rfl, rfl, by decide⟩
  · split at h
    · cases h; cases hw
    · cases h

theorem execObjectWrite_passes {s : State} {roles : BitVec 4} {i : BitVec 16} {k : BitVec 8} {w : Word} (hsup : s.supAnswers = true)
    (hstandby : s.standby = false) (hwarn : s.power.warning = none)
    (hcheck : s.checkWrites roles [{ index := i.toNat, sub := k.toNat, rest := 0, value := w }] = none) (hf : s.forwards = false) :
    execObjectWrite roles i k w s = .next (s.acceptWrites [{ index := i.toNat, sub := k.toNat, rest := 0, value := w }]) := by
  unfold execObjectWrite
  dsimp only
  rw [if_neg (by simp [hsup, hstandby, hwarn, hcheck, State.cannotForward, hf])]

theorem execTotalConfigWrite_passes {s : State} {roles : BitVec 4} {n : Fin 64} {k : BitVec 8} {w : Word} (hsup : s.supAnswers = true)
    (hstandby : s.standby = false) (hwarn : s.power.warning = none)
    (hcheck : s.checkWrites roles [{ index := 0x700 + n, sub := k.toNat, rest := 0, value := w }] = none) (hf : s.forwards = false) :
    execTotalConfigWrite roles n k w s = .next (s.acceptWrites [{ index := 0x700 + n, sub := k.toNat, rest := 0, value := w }]) := by
  unfold execTotalConfigWrite
  dsimp only
  rw [if_neg (by simp [hsup, hstandby, hwarn, hcheck, State.cannotForward, hf])]

/-! ## WRITE_OBJECT and CHANNEL_MODE -/

section

variable {s : State} {c : Ctx} {b : List Byte}

theorem runWriteObject_takes (hlost : (s.forwards && s.causewayLost) = false) (h : s.checkWrites c.roles (objWrites b) = none) :
    runWriteObject c b s = (s.acceptWrites (objWrites b)).reply c (if (objWrites b).any s.deferredWrite then .acceptedDeferred else .ok) (toBe 2 0xFFFF) := by
  unfold runWriteObject
  dsimp only
  rw [h]
  dsimp only
  rw [State.cannotForward, hlost, Bool.false_and, if_neg (by simp)]

theorem runWriteObject_fails {n : Nat} {st : Status} (h : s.checkWrites c.roles (objWrites b) = some (n, st)) :
    runWriteObject c b s = s.reply c st (toBe 2 n) := by
  unfold runWriteObject
  dsimp only
  rw [h]

/-- The write of a channel's mode word that CHANNEL_MODE stands for. -/
def modeWrite (b : List Byte) : List ObjWrite := [{ index := 0x400 + byteAt b 0, sub := 0, rest := 0, value := modeWord b }]

theorem runChannelMode_deferred (hlost : (s.forwards && s.causewayLost) = false) (hn : byteAt b 0 ≤ 31) (h4 : byteAt b 4 ≤ 15)
    (h : s.checkWrites c.roles (modeWrite b) = none) (hst : (s.uc (byteAt b 0)).state = .shuttingDown) :
    runChannelMode c b s = (s.acceptWrites (modeWrite b)).refuse c .acceptedDeferred := by
  unfold runChannelMode
  dsimp only
  rw [if_neg (by omega), if_neg (by omega)]
  unfold modeWrite at h ⊢
  rw [h]
  dsimp only
  rw [hlost, if_neg (by simp), hst]
  rfl

theorem runChannelMode_run (hlost : (s.forwards && s.causewayLost) = false) (hn : byteAt b 0 ≤ 31) (h4 : byteAt b 4 ≤ 15)
    (h : s.checkWrites c.roles (modeWrite b) = none) (hst : (s.uc (byteAt b 0)).state = .run) :
    runChannelMode c b s = if ucFullChange (s.plannedWord (0x400 + byteAt b 0) 0) (modeWord b) = true
      then (s.modUc (byteAt b 0) fun u => { u with replyTo := u.replyTo ++ [c] }).acceptWrites (modeWrite b)
      else (s.acceptWrites (modeWrite b)).ok c := by
  unfold runChannelMode
  dsimp only
  rw [if_neg (by omega), if_neg (by omega)]
  unfold modeWrite at h ⊢
  rw [h]
  dsimp only
  rw [hlost, if_neg (by simp), hst]
  simp

end

@[simp] theorem State.admitted_plannedWord (s : State) (p : Packet) (d : CmdDesc) (i k : Nat) : (s.admitted p d).plannedWord i k = s.plannedWord i k := by
  have hpending := s.admitted_objPending p d
  obtain ⟨x, h, ht⟩ := s.onlySup_admitted p d
  have hx : x.objPending = s.sup.objPending := by rw [ht] at hpending; exact hpending
  rw [ht]
  simp only [State.plannedWord, State.planned, hx]
  rfl

/-- A configuration write of a total joins what waits for its commit, or is the first to wait (R322). -/
theorem State.queueClose_total (s : State) (n : Nat) (k : Nat) (v : Word) :
    ((s.total n).close = [] → ((s.queueClose n none false [(k, v)] none).total n).close =
      [{ ctx := none, close := false, config := [(k, v)], boundary := none }]) ∧
    ∀ x : Close, (s.total n).close = [x] → x.boundary = none → ((s.queueClose n none false [(k, v)] none).total n).close =
      [{ x with config := x.config ++ [(k, v)] }] := by
  unfold State.queueClose
  rw [State.modTotal_same]
  refine ⟨fun h => by simp [h], fun x h hb => ?_⟩
  simp [h, hb]

/-- Settles O31: WRITE_OBJECT and CHANNEL_MODE by what the checks answer, single writes by the timing of their word. -/
theorem configurationWrites : Obligations.ConfigurationWrites := by
  intro s p roles hlost
  have hlost' : ∀ d, ((s.admitted p d).forwards && (s.admitted p d).causewayLost) = false := fun d => by simpa using hlost
  refine ⟨?write, fun i k w q hsup hstandby hwarn hcheck hq ht hr hm hf hfull huc hfire => ?object,
    fun n k w hsup hstandby hwarn hcheck hf hin => ?total, ?mode⟩
  case write =>
    intro t c l h
    have hexec : exec (.writeObject p) s = .next (runWriteObject c (s.payloadOf p writeObjectDesc) t) := State.command_next runWriteObject h
    refine ⟨fun hnone => ?_, fun n st hfail => ?_⟩
    · rw [hexec, runWriteObject_takes (hlost' _) hnone]
    · rw [hexec, runWriteObject_fails hfail]
  case object =>
    refine (execObjectWrite_passes hsup hstandby hwarn hcheck hf).trans ?_
    rw [State.acceptWrites_one, State.acceptWord_simplex w hf huc hfire, State.takeWord_boundary w hq ht hr hm hfull huc]
  case total =>
    obtain ⟨q, hq, hw⟩ := State.checkWrites_one hcheck
    obtain ⟨ht, hr, hm⟩ := specTotal_commit ((objSpec_total n.isLt k.toNat).symm.trans hq) hw
    have hi := n.isLt
    let v := q.merge (s.plannedWord (0x700 + n) k.toNat) w
    have htake : s.acceptWord (0x700 + n) k.toNat w = s.queueClose n none false [(k.toNat, v)] none := by
      rw [State.acceptWord_simplex w hf (by omega) (by omega), State.takeWord_commit w hq ht hr hm hin]
    have hexec := execTotalConfigWrite_passes hsup hstandby hwarn hcheck hf
    rw [State.acceptWrites_one, htake] at hexec
    have htotals := (s.queueClose n none false [(k.toNat, v)] none).judged_totals
    have htotal : ∀ m, ((s.queueClose n none false [(k.toNat, v)] none).judgeDomains.judgeThermal.judgeBands).total m =
        (s.queueClose n none false [(k.toNat, v)] none).total m := fun m => by unfold State.total; rw [htotals]
    refine ⟨_, hexec, ?_, fun m hne => ?_, q, hq, ?_⟩
    · rw [htotals]
      rfl
    · rw [htotal]
      exact State.modTotal_other s _ hne
    · rw [htotal]
      exact s.queueClose_total n k.toNat v
  case mode =>
    intro b c n t l h hn h4 hcheck
    have hexec : exec (.channelMode p) s = .next (runChannelMode c b t) := State.command_next runChannelMode h
    refine ⟨fun hst hfull => ?_, fun hst hpart => ?_, fun hst => ?_⟩
    · rw [hexec, runChannelMode_run (hlost' _) hn h4 hcheck (by simpa [t] using hst), State.admitted_plannedWord, if_pos hfull]
      rfl
    · rw [hexec, runChannelMode_run (hlost' _) hn h4 hcheck (by simpa [t] using hst), State.admitted_plannedWord, if_neg (by simpa using hpart)]
      rfl
    · rw [hexec, runChannelMode_deferred (hlost' _) hn h4 hcheck (by simpa [t] using hst)]
      rfl

end Sys2Proof.Machine
end

/-! # Addresses

An ENUMERATE packet goes on round the ring and gives an address or a candidate; the announce of an address is a station frame of the ring (R380, R383, R385 to R388). -/

section
namespace Sys2Proof.Machine
open Sys2Proof

/-! ## Frames, and what they leave of the ring -/

/-- `t` differs from `s` in the frames of the ring and their HSR number at most. -/
def State.onlyFrames (s t : State) : Prop := t = { s with ring := { s.ring with ports := t.ring.ports, hsrSeq := t.ring.hsrSeq } }

theorem State.portTx_onlyFrames (s : State) (p : Nat) (f : HsrFrame) : s.onlyFrames (s.portTx p f) := by
  unfold State.onlyFrames State.portTx
  split <;> rfl

theorem State.sendRing_onlyFrames (s : State) (d : BitVec 48) (e : BitVec 16) (l : List Byte) : s.onlyFrames (s.sendRing d e l) := by
  unfold State.onlyFrames State.sendRing
  rw [State.portTx_onlyFrames _ 1, State.portTx_onlyFrames _ 0]

/-- The frame of any type as the module sends it (R380). -/
def State.ownFrame (s : State) (d : BitVec 48) (e : BitVec 16) (l : List Byte) : HsrFrame :=
  { source := s.mram.mac, dest := d, seq := s.ring.hsrSeq, etherType := e, payload := l }

theorem State.sendRing_ownFrame {s : State} {d : BitVec 48} {e : BitVec 16} {l : List Byte} (hfit : ringFits l = true) {n : Nat} (hn : n < 2)
    (hup : s.ringPortUp n = true) : ((s.sendRing d e l).ringPort n).has (s.ownFrame d e l) := by
  unfold State.sendRing
  obtain rfl | rfl : n = 0 ∨ n = 1 := by omega
  · rw [State.portTx_ringPort_other _ _ (by decide)]
    exact State.portTx_has hup hfit
  · exact State.portTx_has ((State.portTx_ringPortUp _ 0 1 _).trans hup) hfit

/-! ## The announce (R387) -/

/-- The body of the announce of the address in force. -/
def State.announceBody (s : State) : StationBody :=
  .announce (BitVec.ofNat 8 (s.mram.address.toNat / 64)) (BitVec.ofNat 8 (s.mram.address.toNat % 64)) s.ring.provisional.isSome

/-- The bytes of the next announce. -/
def State.announceBytes (s : State) : List Byte :=
  stationFrameBytes { address := s.mram.address.zeroExtend 16, serial := s.mram.serial, seq := s.ring.annSeq + 1, body := s.announceBody }

theorem State.sendStation_announceBody {s : State} (ha : s.mram.addressed = true) (hup : s.ringUp = true) : s.sendStation s.announceBody =
    { s with ring := { s.ring with annSeq := s.ring.annSeq + 1 } }.sendRing groupStation etStation s.announceBytes := by
  unfold State.sendStation
  rw [if_neg (by simp [ha, hup])]
  rfl

theorem State.announce_eq (s : State) :
    s.announce = { s.sendStation s.announceBody with ring := { (s.sendStation s.announceBody).ring with announceAt := some s.now } } := by
  have hnow : (s.sendStation s.announceBody).now = s.now := by
    unfold State.sendStation
    split
    · rfl
    · dsimp only
      rw [State.sendRing_onlyFrames]
  conv => rhs; rw [← hnow]
  rfl

theorem State.announce_frame (s : State) : s.announce = { s with ring := s.announce.ring } ∧
    s.announce.ring.provisional = s.ring.provisional ∧ s.announce.ring.enumFwd = s.ring.enumFwd := by
  have h : s.sendStation s.announceBody = { s with ring := (s.sendStation s.announceBody).ring } ∧
      (s.sendStation s.announceBody).ring.provisional = s.ring.provisional ∧
      (s.sendStation s.announceBody).ring.enumFwd = s.ring.enumFwd := by
    unfold State.sendStation
    split
    · exact ⟨rfl, rfl, rfl⟩
    · dsimp only
      rw [State.sendRing_onlyFrames]
      exact ⟨rfl, rfl, rfl⟩
  obtain ⟨hframe, hprov, hfwd⟩ := h
  rw [s.announce_eq]
  refine ⟨?_, hprov, hfwd⟩
  rw [hframe]

theorem length_announceBytes (s : State) : s.announceBytes.length = 20 := by
  simp [State.announceBytes, stationFrameBytes, stationBody, State.announceBody, length_pad]

theorem announceBytes_kind (s : State) : byteAt s.announceBytes 0 = 3 := by
  have hbyte : byteAt s.announceBytes 0 = (BitVec.ofNat 8 (3 / 256 ^ 0)).toNat := rfl
  exact hbyte.trans (by decide)

theorem announceBytes_address (s : State) : be16 s.announceBytes 2 = s.mram.address.toNat := by
  have hlt := s.mram.address.isLt
  have hwide : (s.mram.address.zeroExtend 16).toNat = s.mram.address.toNat := by simp; omega
  have hbytes : be16 s.announceBytes 2 =
      (s.mram.address.zeroExtend 16).toNat / 256 ^ 1 % 256 * 256 + (s.mram.address.zeroExtend 16).toNat / 256 ^ 0 % 256 := rfl
  rw [hbytes, hwide]
  omega

/-- The announce as a frame of the ring (R387). -/
def State.announceFrame (s : State) : HsrFrame := s.ownFrame groupStation etStation s.announceBytes

theorem State.announce_counts {s : State} (ha : s.mram.addressed = true) (hup : s.ringUp = true) :
    s.announce.ring.annSeq = s.ring.annSeq + 1 ∧ s.announce.ring.announceAt = some s.now := by
  rw [State.announce_eq, State.sendStation_announceBody ha hup, State.sendRing_onlyFrames]
  exact ⟨rfl, rfl⟩

theorem State.announce_has {s : State} (ha : s.mram.addressed = true) (hup : s.ringUp = true) {n : Nat} (hn : n < 2)
    (hport : s.ringPortUp n = true) : (s.announce.ringPort n).has s.announceFrame := by
  have hports : s.announce.ringPort n = (s.sendStation s.announceBody).ringPort n := by rw [State.announce_eq]; rfl
  rw [hports, State.sendStation_announceBody ha hup]
  exact State.sendRing_ownFrame (by simp [ringFits, length_announceBytes]) hn hport

theorem execAnnounceSend_due {s : State} (ha : s.mram.addressed = true) (hup : s.ringUp = true)
    (hdue : ∀ at_ : Nat, s.ring.announceAt = some at_ → at_ + 1000000000 ≤ s.now ∨ s.now < at_) : execAnnounceSend s = .next s.announce := by
  unfold execAnnounceSend
  have h : s.dueEvery s.ring.announceAt 1000000000 = true := by
    unfold State.dueEvery
    split
    · next at_ hat => simpa using hdue at_ hat
    · rfl
  rw [if_pos (by simp [ha, hup, h])]

theorem execAnnounceSend_early {s : State} {at_ : Nat} (hat : s.ring.announceAt = some at_) (hle : at_ ≤ s.now)
    (hlt : s.now < at_ + 1000000000) : execAnnounceSend s = .next s := by
  unfold execAnnounceSend
  rw [if_neg]
  simp [State.dueEvery, hat, hlt, hle]

theorem State.noteStation_seen (s : State) (k : Nat) (serial : BitVec 64) (seq : BitVec 32) :
    (s.noteStation k serial seq).stationSeen k serial seq = true := by
  simp [State.noteStation, State.stationSeen]

/-! ## ENUMERATE (R386) -/

/-- ENUMERATE has no replay memory: once admitted, acceptance leaves the state as it is (R386). -/
theorem State.admitted_enumerate {s : State} {p : Packet} (h : s.admits p enumerateDesc = true) : s.admitted p enumerateDesc = s := by
  have haccept : (s.accept p enumerateDesc true).2.isSome = true := (Bool.and_eq_true_iff.1 h).2
  have hcode : (enumerateDesc.code == opEnumerate) = true := rfl
  revert haccept
  unfold State.admitted State.accept
  simp only [hcode, if_true]
  (repeat' split) <;> simp

/-- The ring port by which a frame that came in by a ring port goes on. -/
def otherRing : Port → Port
  | .ringA => .ringB
  | _ => .ringA

section

variable {p : Packet}

theorem State.forwardEnumerate_onward {s : State} (hring : p.port = .ringA ∨ p.port = .ringB) (hup : s.portDown (otherRing p.port) = false) : s.forwardEnumerate p = { s with ring := (s.forwardEnumerate p).ring } ∧
      (s.forwardEnumerate p).ring.provisional = s.ring.provisional ∧
      (s.forwardEnumerate p).ring.enumFwd = some { enumerateOn p with port := otherRing p.port } := by
  unfold State.forwardEnumerate
  obtain hp | hp := hring
  all_goals
    rw [hp] at hup ⊢
    dsimp only [otherRing] at hup ⊢
    rw [hup, if_neg (by simp), State.portTx_onlyFrames]
    exact ⟨rfl, rfl, rfl⟩

theorem State.forwardEnumerate_stays {s : State} (h : p.port = .svc ∨ p.port = .causeway) : s.forwardEnumerate p = s := by
  unfold State.forwardEnumerate
  obtain h | h := h <;> rw [h]

/-- An address that ENUMERATE gives an unaddressed module is provisional and announced (R386, R387). -/
theorem State.enumerated_new {s : State} (h : s.mram.addressed = false) (a : BitVec 10) :
    s.enumerated a = { s with ring := (s.enumerated a).ring, mram := { s.mram with addressed := true, address := a } } ∧
      (s.enumerated a).ring.provisional = some s.now ∧ (s.enumerated a).ring.enumFwd = s.ring.enumFwd := by
  unfold State.enumerated
  rw [h]
  obtain ⟨hframe, hprov, hfwd⟩ :=
    State.announce_frame { s with mram := { s.mram with addressed := true, address := a }, ring := { s.ring with provisional := some s.now } }
  refine ⟨?_, hprov, hfwd⟩
  conv => lhs; rw [if_pos (by rfl), hframe]
  rfl

theorem State.enumerated_same {s : State} (h : s.mram.addressed = true) : s.enumerated s.mram.address = s := by
  unfold State.enumerated
  simp [h]

theorem State.enumerated_moved {s : State} {a : BitVec 10} (h : s.mram.addressed = true) (ha : a ≠ s.mram.address) :
    s.enumerated a = { s with mram := { s.mram.wrote 0xC02 with candidateValid := true, candidate := a } }.raise .addressMoved
      (mkWord [(25, 16, a.toNat), (9, 0, s.mram.address.toNat)]) := by
  unfold State.enumerated
  simp [h, ha]

/-- The address that ENUMERATE carries (R386). -/
def enumeratedAddress (p : Packet) : BitVec 10 := BitVec.ofNat 10 (byteAt p.body 0 % 16 * 64 + byteAt p.body 1)

theorem runEnumerate_position {s : State} (h : byteAt p.body 1 ≤ 63) :
    runEnumerate p s = (s.forwardEnumerate p).enumerated (enumeratedAddress p) := if_neg (by omega)

theorem runEnumerate_overfull {s : State} (h : 64 ≤ byteAt p.body 1) :
    runEnumerate p s = (s.forwardEnumerate p).raise .ringOverfull (mkWord [(3, 0, byteAt p.body 0 % 16)]) := if_pos h

theorem enumerateOn_position (h : byteAt p.body 1 ≤ 63) :
    enumerateOn p = { p with payload := (if p.flag 3 = true then p.payload.take 8 else []) ++
      [byteAt p.body 0, byteAt p.body 1 + 1, byteAt p.body 2, byteAt p.body 3].map (BitVec.ofNat 8) } := by
  unfold enumerateOn
  dsimp only
  rw [if_neg (by omega)]
  cases p.flag 3 <;> rfl

theorem enumerateOn_overfull (h : 64 ≤ byteAt p.body 1) : enumerateOn p = p := if_pos h

end

/-! ## CONFIRM_ADDRESS (R386) -/

theorem State.admitted_candidate {s : State} {p : Packet} {d : CmdDesc} :
    (s.admitted p d).mram.candidateValid = s.mram.candidateValid ∧ (s.admitted p d).mram.candidate = s.mram.candidate := by
  obtain ⟨_, _, h⟩ := s.onlySup_admitted p d
  rw [h]
  exact ⟨rfl, rfl⟩

theorem State.reply_onlySup (s : State) (c : Ctx) (st : Status) (b : List Byte) : s.reply c st b = { s with sup := (s.reply c st b).sup } := by
  unfold State.reply State.owe
  split
  · rfl
  · split
    · split <;> rfl
    · rfl

/-- The candidate is the address, final (R386). -/
def State.confirmed (s : State) : State :=
  { s with mram := { s.mram.wrote 0xC02 with addressed := true, address := s.mram.candidate, candidateValid := false, candidate := 0 }
           ring := { s.ring with provisional := none } }

theorem runConfirmAddress_confirms {s : State} (h : s.mram.candidateValid = true) (c : Ctx) (b : List Byte) :
    ∃ t, runConfirmAddress c b s = t ∧
      t = { s.confirmed with ring := t.ring, sup := t.sup, crossings := t.crossings, nextSend := t.nextSend } ∧ t.ring.provisional = none := by
  let v := mkWord [(25, 16, s.mram.address.toNat), (9, 0, s.mram.candidate.toNat)]
  have hrun : runConfirmAddress c b s = (s.confirmed.raise .addressConfirmed v).announce.reply c .ok
      (toBe 2 (s.confirmed.raise .addressConfirmed v).announce.mram.address.toNat) := by
    unfold runConfirmAddress
    rw [h]
    rfl
  have hposts := s.confirmed.raiseFrom_onlyPosts (src := RecKind.addressConfirmed.source) (by decide) .addressConfirmed v
  obtain ⟨hframe, hprov, -⟩ := (s.confirmed.raise .addressConfirmed v).announce_frame
  refine ⟨_, hrun, ?_, ?_⟩
  · rw [State.reply_onlySup, hframe, State.raise, hposts]
  · rw [State.reply_ring, hprov, State.raise_ring]
    rfl

/-! ## The clock of an address (R387, R388) -/

/-- Settles O47: the answer of each row by whether the module has an address, and by its clock. -/
theorem addressRows : Obligations.AddressRows := by
  intro s p
  have henumerate : s.admits p enumerateDesc = true → exec (.enumerate p) s = .next (runEnumerate p s) := fun hadm => by
    conv => rhs; rw [← State.admitted_enumerate hadm]
    exact State.command_next (fun _ _ s => runEnumerate p s) hadm
  refine ⟨fun hadm hport hup => ?ring, fun hadm hport hnew hpos => ?direct, fun hadm hvalid => ?confirm, fun ha hring hdue => ?announce, fun at_ hat hle hlt => ?early,
    fun a q hring ha hprov haddr hserial hseen => ?withdraw, fun a q hseen => ?copy, fun u hu hover => ?final, fun u hu hover => ?clear⟩
  case ring =>
    obtain ⟨hframe, hprov, hfwd⟩ := State.forwardEnumerate_onward hport hup
    have hmram : (s.forwardEnumerate p).mram = s.mram := by rw [hframe]
    have hexec := henumerate hadm
    rw [State.admitted_enumerate hadm]
    refine ⟨fun hpos hnew => ?new, fun hpos hold ha => ?same, fun hpos hold ha => ?moved, fun hfull => ?overfull⟩
    case new =>
      obtain ⟨hgiven, hsince, hkept⟩ := State.enumerated_new (by rw [hmram]; exact hnew) (enumeratedAddress p)
      rw [runEnumerate_position hpos] at hexec
      refine ⟨_, hexec, hgiven.trans (by rw [hframe]; rfl), hsince.trans (by rw [hframe]), (hkept.trans hfwd).trans ?_⟩
      rw [enumerateOn_position hpos]
      rfl
    case same =>
      rw [runEnumerate_position hpos, show enumeratedAddress p = (s.forwardEnumerate p).mram.address from ha.trans (by rw [hmram]),
        State.enumerated_same (by rw [hmram]; exact hold)] at hexec
      refine ⟨_, hexec, hframe, hprov, hfwd.trans ?_⟩
      rw [enumerateOn_position hpos]
      rfl
    case moved =>
      rw [runEnumerate_position hpos, State.enumerated_moved (by rw [hmram]; exact hold) (by rw [hmram]; exact ha), hmram] at hexec
      refine ⟨_, hexec, hframe, hprov, hfwd.trans ?_⟩
      rw [enumerateOn_position hpos]
      rfl
    case overfull =>
      rw [runEnumerate_overfull hfull] at hexec
      refine ⟨_, hexec, hframe, hprov, hfwd.trans ?_⟩
      rw [enumerateOn_overfull hfull]
      rfl
  case direct =>
    have hexec := henumerate hadm
    rw [State.admitted_enumerate hadm]
    rw [runEnumerate_position hpos, State.forwardEnumerate_stays hport] at hexec
    obtain ⟨hframe, hprov, hfwd⟩ := State.enumerated_new hnew (enumeratedAddress p)
    exact ⟨_, hexec, hframe, hprov, hfwd⟩
  case confirm =>
    have hexec : exec (.confirmAddress p) s = .next (runConfirmAddress _ _ _) := State.command_next runConfirmAddress hadm
    obtain ⟨t, hrun, hframe, hprov⟩ := runConfirmAddress_confirms 
      (s := s.admitted p (confirmAddressDesc p)) (by rw [State.admitted_candidate.1, hvalid]) _ _
    refine ⟨t, hexec.trans (by rw [hrun]), hframe.trans ?_, hprov⟩
    unfold State.confirmed
    rw [State.admitted_candidate.2]
  case announce =>
    have hexec : exec .announceSend s = .next s.announce := execAnnounceSend_due ha hring hdue
    obtain ⟨hframe, -, -⟩ := s.announce_frame
    obtain ⟨hseq, hat⟩ := State.announce_counts ha hring
    exact ⟨s.announce, hexec, hframe, hseq, hat, fun n hn hup =>
      ⟨s.announceFrame, rfl, rfl, rfl, announceBytes_kind s, announceBytes_address s, State.announce_has ha hring hn hup⟩⟩
  case early => exact execAnnounceSend_early hat hle hlt
  case withdraw =>
    refine ⟨?_, s.noteStation_seen 3 q.serial q.seq⟩
    refine (if_neg (by simp [hring, hseen])).trans ?_
    unfold State.takeAnnounce
    rw [if_pos]
    · rfl
    · simp [State.noteStation, ha, hprov, haddr, hserial]
  case copy => exact if_pos (by simp [hseen])
  case final =>
    change execProvisionalExpiry s = _
    unfold execProvisionalExpiry
    rw [hu]
    exact if_neg (by omega)
  case clear =>
    change execDuplicateClear s = _
    unfold execDuplicateClear
    rw [hu]
    exact if_neg (by omega)
end Sys2Proof.Machine
end

/-! # What a cycle leaves alone

The parts of the state that a step of the cycle may change are named once, as a scope; what stands outside of it is the state's rest. -/

section
namespace Sys2Proof.Machine
open Sys2Proof

/-- The parts of the state that a function may change. Records, firings, locks, upsets and what a repair keeps in MRAM belong to every scope. -/
structure Scope where
  draws : Bool := false
  square : Bool := false
  engines : Bool := false
  work : Bool := false
  pair : Bool := false
  forces : Bool := false
  inputs : Bool := false
  outputs : Bool := false
  dos : Bool := false
  obj : Bool := false
  cycle : Bool := false
  mode : Bool := false
  config : Bool := false

/-- MRAM outside of a scope. -/
def Mram.rest (k : Scope) (m : Mram) : Mram :=
  { m with
    remap := default, voidCopies := default, seqs := default
    obj := cond k.obj default m.obj, forces := cond k.forces default m.forces, totals := cond k.outputs default m.totals
    cycle := cond k.cycle default m.cycle, runStop := cond k.mode default m.runStop
    rehearsalAt := cond k.config default m.rehearsalAt, objRestart := cond k.config default m.objRestart
    canEnable := cond k.config default m.canEnable, banks := cond k.config default m.banks, bankVoid := cond k.config default m.bankVoid
    runBank := cond k.config default m.runBank, fire := cond k.config default m.fire, fireVoid := cond k.config default m.fireVoid }

/-- The state outside of a scope. -/
def State.rest (k : Scope) (s : State) : State :=
  { s with
    round := default, crossings := default, nextSend := default, raised := default, arrays := default, upsets := default, locks := default
    mram := s.mram.rest k
    freeCount := cond k.draws default s.freeCount, square := cond k.square default s.square, engines := cond k.engines default s.engines
    loop := cond k.work default s.loop, ucs := cond k.work default s.ucs, cans := cond k.work default s.cans, pair := cond k.pair default s.pair
    totals := cond k.work default s.totals
    islands := cond k.inputs default s.islands, timers := cond k.inputs default s.timers, dis := cond k.inputs default s.dis
    diGroups := cond k.inputs default s.diGroups
    sup := cond k.outputs default s.sup, fire := cond k.outputs default s.fire, panel := cond k.outputs default s.panel
    dos := cond k.dos default s.dos
    domains := cond k.config default s.domains, counters := cond k.config default s.counters, power := cond k.config default s.power
    plate := cond k.config default s.plate, ring := cond k.config default s.ring }

theorem cond_eq_of_or {α : Type} {b : Bool} {x y d : α} (h : b = true ∨ x = y) : cond b d x = cond b d y := by
  obtain rfl | rfl := h <;> rfl

/-- A change inside of the scope leaves the rest of MRAM. -/
@[simp] theorem Mram.rest_mk {k : Scope} {m : Mram} {obj objRestart canEnable banks runBank runStop forces cycle fire bankVoid fireVoid voidCopies
    seqs rehearsalAt totals remap} (hobj : k.obj = true ∨ obj = m.obj) (hforces : k.forces = true ∨ forces = m.forces)
    (htotals : k.outputs = true ∨ totals = m.totals) (hcycle : k.cycle = true ∨ cycle = m.cycle) (hmode : k.mode = true ∨ runStop = m.runStop)
    (hrehearsal : k.config = true ∨ rehearsalAt = m.rehearsalAt) (hrestart : k.config = true ∨ objRestart = m.objRestart)
    (hcan : k.config = true ∨ canEnable = m.canEnable) (hbanks : k.config = true ∨ banks = m.banks) (hvoid : k.config = true ∨ bankVoid = m.bankVoid)
    (hbank : k.config = true ∨ runBank = m.runBank) (hfire : k.config = true ∨ fire = m.fire) (hfireVoid : k.config = true ∨ fireVoid = m.fireVoid) :
    Mram.rest k { m with
      obj := obj, objRestart := objRestart, canEnable := canEnable, banks := banks, runBank := runBank, runStop := runStop, forces := forces
      cycle := cycle, fire := fire, bankVoid := bankVoid, fireVoid := fireVoid, voidCopies := voidCopies, seqs := seqs, rehearsalAt := rehearsalAt
      totals := totals, remap := remap } = m.rest k := by
  unfold Mram.rest
  dsimp only
  rw [cond_eq_of_or hobj, cond_eq_of_or hforces, cond_eq_of_or htotals, cond_eq_of_or hcycle, cond_eq_of_or hmode, cond_eq_of_or hrehearsal,
    cond_eq_of_or hrestart, cond_eq_of_or hcan, cond_eq_of_or hbanks, cond_eq_of_or hvoid, cond_eq_of_or hbank, cond_eq_of_or hfire,
    cond_eq_of_or hfireVoid]

/-- A change inside of the scope leaves the state's rest. -/
@[simp] theorem State.rest_mk {k : Scope} {s : State} {freeCount mram sup islands domains crossings nextSend square engines timers counters round loop ucs
    dis dos diGroups cans fire pair totals locks upsets arrays raised panel plate ring power}
    (hdraws : k.draws = true ∨ freeCount = s.freeCount) (hmram : mram.rest k = s.mram.rest k) (hsup : k.outputs = true ∨ sup = s.sup)
    (hislands : k.inputs = true ∨ islands = s.islands) (hdomains : k.config = true ∨ domains = s.domains)
    (hsquare : k.square = true ∨ square = s.square) (hengines : k.engines = true ∨ engines = s.engines)
    (htimers : k.inputs = true ∨ timers = s.timers) (hcounters : k.config = true ∨ counters = s.counters)
    (hloop : k.work = true ∨ loop = s.loop) (hucs : k.work = true ∨ ucs = s.ucs) (hdis : k.inputs = true ∨ dis = s.dis)
    (hdos : k.dos = true ∨ dos = s.dos) (hgroups : k.inputs = true ∨ diGroups = s.diGroups) (hcans : k.work = true ∨ cans = s.cans)
    (hfire : k.outputs = true ∨ fire = s.fire) (hpair : k.pair = true ∨ pair = s.pair) (htotals : k.work = true ∨ totals = s.totals)
    (hpanel : k.outputs = true ∨ panel = s.panel) (hplate : k.config = true ∨ plate = s.plate) (hring : k.config = true ∨ ring = s.ring)
    (hpower : k.config = true ∨ power = s.power) :
    State.rest k { s with
      freeCount := freeCount, mram := mram, sup := sup, islands := islands, domains := domains, crossings := crossings, nextSend := nextSend
      square := square, engines := engines, timers := timers, counters := counters, round := round, loop := loop, ucs := ucs, dis := dis, dos := dos
      diGroups := diGroups, cans := cans, fire := fire, pair := pair, totals := totals, locks := locks, upsets := upsets, arrays := arrays
      raised := raised, panel := panel, plate := plate, ring := ring, power := power } = s.rest k := by
  unfold State.rest
  dsimp only
  rw [hmram, cond_eq_of_or hdraws, cond_eq_of_or hsup, cond_eq_of_or hislands, cond_eq_of_or hdomains, cond_eq_of_or hsquare,
    cond_eq_of_or hengines, cond_eq_of_or htimers, cond_eq_of_or hcounters, cond_eq_of_or hloop, cond_eq_of_or hucs, cond_eq_of_or hdis,
    cond_eq_of_or hdos, cond_eq_of_or hgroups, cond_eq_of_or hcans, cond_eq_of_or hfire, cond_eq_of_or hpair, cond_eq_of_or htotals,
    cond_eq_of_or hpanel, cond_eq_of_or hplate, cond_eq_of_or hring, cond_eq_of_or hpower]

@[simp] theorem State.each_rest {α : Type} {k : Scope} {f : State → α → State} (h : ∀ s x, (f s x).rest k = s.rest k) (s : State) (l : List α) :
    (s.each l f).rest k = s.rest k := State.each_field (State.rest k) h s l

@[simp] theorem State.ite_rest (k : Scope) (c : Prop) [Decidable c] (s t : State) :
    (if c then s else t).rest k = if c then s.rest k else t.rest k := by split <;> rfl

@[simp] theorem State.foldl_rest {α : Type} {k : Scope} {f : State → α → State} (h : ∀ s x, (f s x).rest k = s.rest k) (s : State) (l : List α) :
    (l.foldl f s).rest k = s.rest k := State.each_rest h s l

variable {sc : Scope}

/-! ## Functions of every scope, and functions that several steps of the cycle share -/

@[simp] theorem Mram.wrote_rest (m : Mram) (i : Nat) : (m.wrote i).rest sc = m.rest sc := by simp [Mram.wrote, Mram.nextSeq]

@[simp] theorem State.draw_rest (hd : sc.draws = true) (s : State) : (s.draw).rest sc = s.rest sc := by simp [State.draw, hd]
@[simp] theorem State.setCrossing_rest (s : State) (i : Nat) (x : Crossing) : (s.setCrossing i x).rest sc = s.rest sc := by simp [State.setCrossing]
@[simp] theorem State.modCrossing_rest (s : State) (i : Nat) (f : Crossing → Crossing) : (s.modCrossing i f).rest sc = s.rest sc := by
  simp [State.modCrossing]
@[simp] theorem State.postMessage_rest (s : State) (sender receiver cls : Nat) (cargo : Cargo) :
    (s.postMessage sender receiver cls cargo).rest sc = s.rest sc := by
  simp [State.postMessage]
@[simp] theorem State.recordArrives_rest (s : State) (q : Raised) : (s.recordArrives q).rest sc = s.rest sc := by simp [State.recordArrives]
@[simp] theorem State.handRecord_rest (s : State) (q : Raised) : (s.handRecord q).rest sc = s.rest sc := by simp [State.handRecord]
@[simp] theorem State.raiseFull_rest (s : State) (src : Nat) (k : RecKind) (value : Word) (time : Option Nat) (cycle : Option (BitVec 32)) :
    (s.raiseFull src k value time cycle).rest sc = s.rest sc := by
  simp [State.raiseFull]
@[simp] theorem State.raiseFrom_rest (s : State) (src : Nat) (k : RecKind) (value : Word) : (s.raiseFrom src k value).rest sc = s.rest sc := by
  simp [State.raiseFrom]
@[simp] theorem State.raiseUnstated_rest (hd : sc.draws = true) (s : State) (src : Nat) (k : RecKind) :
    (s.raiseUnstated src k).rest sc = s.rest sc := by
  simp [State.raiseUnstated, hd]
@[simp] theorem State.fireSourceAt_rest (s : State) (n : Nat) (t : Nat) : (s.fireSourceAt n t).rest sc = s.rest sc := by simp [State.fireSourceAt]
@[simp] theorem State.fireSource_rest (s : State) (n : Nat) : (s.fireSource n).rest sc = s.rest sc := by simp [State.fireSource]
@[simp] theorem State.raise_rest (s : State) (k : RecKind) (value : Word) : (s.raise k value).rest sc = s.rest sc := by simp [State.raise]
@[simp] theorem State.setArr_rest (s : State) (i : Nat) (x : Arr) : (s.setArr i x).rest sc = s.rest sc := by simp [State.setArr]
@[simp] theorem State.correction_rest (s : State) (a : Nat) : (s.correction a).rest sc = s.rest sc := by simp [State.correction]
@[simp] theorem State.corrections_rest (s : State) (a n : Nat) : (s.corrections a n).rest sc = s.rest sc := by simp [State.corrections]
@[simp] theorem State.dropUpsets_rest (s : State) (l : List Upset) : (s.dropUpsets l).rest sc = s.rest sc := by simp [State.dropUpsets]
@[simp] theorem State.leaveHard_rest (s : State) (l : List Upset) : (s.leaveHard l).rest sc = s.rest sc := by simp [State.leaveHard]
@[simp] theorem State.modArr_rest (s : State) (i : Nat) (f : Arr → Arr) : (s.modArr i f).rest sc = s.rest sc := by simp [State.modArr]
@[simp] theorem State.startRepair_rest (s : State) (a b : Nat) : (s.startRepair a b).rest sc = s.rest sc := by simp [State.startRepair]
@[simp] theorem State.poisonedRead_rest (s : State) (a b : Nat) : (s.poisonedRead a b).rest sc = s.rest sc := by simp [State.poisonedRead]
@[simp] theorem State.remapWord_rest (s : State) (a w : Nat) : (s.remapWord a w).rest sc = s.rest sc := by
  unfold State.remapWord
  dsimp only
  (repeat' split) <;> simp
@[simp] theorem State.judgeRead_rest (s : State) (a b : Nat) (v : Verdict) : (s.judgeRead a b v).1.rest sc = s.rest sc := by
  unfold State.judgeRead
  dsimp only
  (repeat' split) <;> simp
@[simp] theorem State.readSpan_rest (s : State) (a lo n : Nat) : (s.readSpan a lo n).rest sc = s.rest sc := by simp [State.readSpan]
@[simp] theorem State.noteWrite_rest (s : State) (a lo n : Nat) : (s.noteWrite a lo n).rest sc = s.rest sc := by simp [State.noteWrite]
@[simp] theorem State.overwrite_rest (s : State) (a lo n : Nat) : (s.overwrite a lo n).rest sc = s.rest sc := by simp [State.overwrite]
@[simp] theorem State.writeSpan_rest (s : State) (a lo n : Nat) : (s.writeSpan a lo n).rest sc = s.rest sc := by simp [State.writeSpan]
@[simp] theorem State.revertWork_rest (hq : sc.square = true) (s : State) : (s.revertWork).rest sc = s.rest sc := by simp [State.revertWork, hq]
@[simp] theorem State.abandonCycle_rest (hd : sc.draws = true) (hq : sc.square = true) (he : sc.engines = true) (s : State) :
    (s.abandonCycle).rest sc = s.rest sc := by
  simp [State.abandonCycle, hd, hq, he]
@[simp] theorem State.setDo_rest (hs : sc.dos = true) (s : State) (i : Nat) (x : Do) : (s.setDo i x).rest sc = s.rest sc := by simp [State.setDo, hs]
@[simp] theorem State.doRefresh_rest (hs : sc.dos = true) (s : State) (n : Nat) : (s.doRefresh n).rest sc = s.rest sc := by simp [State.doRefresh, hs]
@[simp] theorem State.doApply_rest (hs : sc.dos = true) (s : State) (n : Nat) : (s.doApply n).rest sc = s.rest sc := by simp [State.doApply, hs]
@[simp] theorem State.keepOutputs_rest (hq : sc.square = true) (s : State) : (s.keepOutputs).rest sc = s.rest sc := by simp [State.keepOutputs, hq]
@[simp] theorem State.setUc_rest (hw : sc.work = true) (s : State) (i : Nat) (x : Uc) : (s.setUc i x).rest sc = s.rest sc := by simp [State.setUc, hw]
@[simp] theorem State.ucRefresh_rest (hw : sc.work = true) (s : State) (n : Nat) : (s.ucRefresh n).rest sc = s.rest sc := by
  simp [State.ucRefresh, hw]
@[simp] theorem State.ucApply_rest (hw : sc.work = true) (s : State) (n : Nat) : (s.ucApply n).rest sc = s.rest sc := by simp [State.ucApply, hw]
@[simp] theorem State.ucCalibrated_rest (hw : sc.work = true) (s : State) (n : Nat) : (s.ucCalibrated n).rest sc = s.rest sc := by
  simp [State.ucCalibrated, hw]
@[simp] theorem State.applyChannels_rest (hq : sc.square = true) (hw : sc.work = true) (hs : sc.dos = true) (s : State) :
    (s.applyChannels).rest sc = s.rest sc := by
  simp [State.applyChannels, hq, hw, hs]
@[simp] theorem State.toFire_rest (ho : sc.outputs = true) (s : State) (m : FireMsg) : (s.toFire m).rest sc = s.rest sc := by simp [State.toFire, ho]
@[simp] theorem State.fireApply_rest (ho : sc.outputs = true) (s : State) : (s.fireApply).rest sc = s.rest sc := by simp [State.fireApply, ho]
@[simp] theorem State.applyOutputs_rest (hq : sc.square = true) (hw : sc.work = true) (ho : sc.outputs = true) (hs : sc.dos = true) (s : State) :
    (s.applyOutputs).rest sc = s.rest sc := by
  simp [State.applyOutputs, hq, hw, ho, hs]
@[simp] theorem State.setEngine_rest (he : sc.engines = true) (s : State) (i : Nat) (x : Engine) : (s.setEngine i x).rest sc = s.rest sc := by
  simp [State.setEngine, he]
@[simp] theorem State.modEngine_rest (he : sc.engines = true) (s : State) (i : Nat) (f : Engine → Engine) :
    (s.modEngine i f).rest sc = s.rest sc := by
  simp [State.modEngine, he]
@[simp] theorem State.startBlock_rest (he : sc.engines = true) (s : State) (e : Nat) (b : Block) (serving : List Nat) :
    (s.startBlock e b serving).rest sc = s.rest sc := by
  simp [State.startBlock, he]
@[simp] theorem State.nextBlock_rest (he : sc.engines = true) (s : State) (e : Nat) : (s.nextBlock e).rest sc = s.rest sc := by
  unfold State.nextBlock
  dsimp only
  (repeat' split) <;> simp [he]
@[simp] theorem State.point_rest (he : sc.engines = true) (s : State) (e : Nat) : (s.point e).rest sc = s.rest sc := by simp [State.point, he]
@[simp] theorem State.beginExecute_rest (he : sc.engines = true) (s : State) (e : Nat) : (s.beginExecute e).rest sc = s.rest sc := by
  simp [State.beginExecute, he]
@[simp] theorem State.setCan_rest (hw : sc.work = true) (s : State) (i : Nat) (x : Can) : (s.setCan i x).rest sc = s.rest sc := by
  simp [State.setCan, hw]
@[simp] theorem State.modCan_rest (hw : sc.work = true) (s : State) (i : Nat) (f : Can → Can) : (s.modCan i f).rest sc = s.rest sc := by
  simp [State.modCan, hw]
@[simp] theorem State.setStation_rest (hw : sc.work = true) (s : State) (p x : Nat) (y : Station) : (s.setStation p x y).rest sc = s.rest sc := by
  simp [State.setStation, hw]
@[simp] theorem State.modStation_rest (hw : sc.work = true) (s : State) (p x : Nat) (f : Station → Station) :
    (s.modStation p x f).rest sc = s.rest sc := by
  simp [State.modStation, hw]
@[simp] theorem State.missDue_rest (hw : sc.work = true) (s : State) (p : Nat) : (s.missDue p).rest sc = s.rest sc := by simp [State.missDue, hw]
@[simp] theorem State.loseArrived_rest (hw : sc.work = true) (s : State) (p x : Nat) : (s.loseArrived p x).rest sc = s.rest sc := by
  simp [State.loseArrived, hw]
@[simp] theorem State.newInputs_rest (hw : sc.work = true) (s : State) (p kind : Nat) : (s.newInputs p kind).rest sc = s.rest sc := by
  simp [State.newInputs, hw]
@[simp] theorem State.startFrame_rest (hw : sc.work = true) (s : State) (p : Nat) (j : TxJob) (f : CanFrame) :
    (s.startFrame p j f).rest sc = s.rest sc := by
  simp [State.startFrame, hw]
@[simp] theorem State.sendRef_rest (hw : sc.work = true) (s : State) (p kind : Nat) : (s.sendRef p kind).rest sc = s.rest sc := by
  simp [State.sendRef, hw]
@[simp] theorem State.canCommit_rest (hw : sc.work = true) (s : State) (cy : BitVec 32) : (s.canCommit cy).rest sc = s.rest sc := by
  unfold State.canCommit
  refine State.each_rest (fun s x => ?_) _ _
  simp [hw]
@[simp] theorem State.putWork_rest (hq : sc.square = true) (s : State) (a : Area) (w : Nat) (x : Word) (p : Bool) :
    (s.putWork a w x p).rest sc = s.rest sc := by
  unfold State.putWork
  (repeat' split) <;> simp [hq]
@[simp] theorem State.markRam_rest (hq : sc.square = true) (s : State) (p : Nat) : (s.markRam p).rest sc = s.rest sc := by simp [State.markRam, hq]
@[simp] theorem State.putRam_rest (hq : sc.square = true) (s : State) (p at_ : Nat) (l : List Word) : (s.putRam p at_ l).rest sc = s.rest sc := by
  simp [State.putRam, hq]
@[simp] theorem State.ramFreeze_rest (hq : sc.square = true) (hw : sc.work = true) (s : State) (p t : Nat) :
    (s.ramFreeze p t).rest sc = s.rest sc := by
  unfold State.ramFreeze
  dsimp only
  (repeat' split) <;> simp [hq, hw]
@[simp] theorem State.raiseCan_rest (s : State) (p : Nat) (k : RecKind) (v : Word) : (s.raiseCan p k v).rest sc = s.rest sc := by
  simp [State.raiseCan]
@[simp] theorem State.stationFreeze_rest (hw : sc.work = true) (s : State) (p x t : Nat) : (s.stationFreeze p x t).rest sc = s.rest sc := by
  simp [State.stationFreeze, hw]
@[simp] theorem State.stationImage_rest (hq : sc.square = true) (s : State) (p x t : Nat) : (s.stationImage p x t).rest sc = s.rest sc := by
  unfold State.stationImage
  dsimp only
  (repeat' split) <;> simp [hq]
@[simp] theorem State.canFreeze_rest (hq : sc.square = true) (hw : sc.work = true) (s : State) (t : Nat) : (s.canFreeze t).rest sc = s.rest sc := by
  unfold State.canFreeze
  refine State.each_rest (fun s p => ?_) _ _
  dsimp only
  (repeat' split) <;> simp [hq, hw]
@[simp] theorem State.forceFrozen_rest (hq : sc.square = true) (s : State) : (s.forceFrozen).rest sc = s.rest sc := by simp [State.forceFrozen, hq]
@[simp] theorem State.freezeContexts_rest (hw : sc.work = true) (s : State) : (s.freezeContexts).rest sc = s.rest sc := by
  simp [State.freezeContexts, hw]
@[simp] theorem State.latched_rest (hw : sc.work = true) (hi : sc.inputs = true) (s : State) (f : Nat) : (s.latched f).rest sc = s.rest sc := by
  simp [State.latched, hw, hi]
@[simp] theorem State.ucFreeze_rest (hw : sc.work = true) (s : State) (n t : Nat) : (s.ucFreeze n t).rest sc = s.rest sc := by
  simp [State.ucFreeze, hw]
@[simp] theorem State.staleFreeze_rest (hw : sc.work = true) (s : State) (f : Nat) : (s.staleFreeze f).rest sc = s.rest sc := by
  simp [State.staleFreeze, hw]
@[simp] theorem State.trimPast_rest (hw : sc.work = true) (hi : sc.inputs = true) (s : State) (f : Nat) : (s.trimPast f).rest sc = s.rest sc := by
  simp [State.trimPast, hw, hi]
@[simp] theorem State.inputFreeze_rest (hq : sc.square = true) (hw : sc.work = true) (hi : sc.inputs = true) (s : State) (f : Nat) (c : BitVec 32) :
    (s.inputFreeze f c).rest sc = s.rest sc := by
  unfold State.inputFreeze
  dsimp only
  (repeat' split) <;> simp [hq, hw, hi]
@[simp] theorem State.loopFreeze_rest (hq : sc.square = true) (s : State) : (s.loopFreeze).rest sc = s.rest sc := by
  unfold State.loopFreeze
  (repeat' split) <;> simp [hq]
@[simp] theorem State.markSlots_rest (s : State) : (s.markSlots).rest sc = s.rest sc := by simp [State.markSlots]
@[simp] theorem State.resumeTimers_rest (hi : sc.inputs = true) (s : State) (f : Nat) : (s.resumeTimers f).rest sc = s.rest sc := by
  simp [State.resumeTimers, hi]
@[simp] theorem State.statusFreeze_rest (hq : sc.square = true) (s : State) : (s.statusFreeze).rest sc = s.rest sc := by
  unfold State.statusFreeze
  (repeat' split) <;> simp [hq]
@[simp] theorem State.timerSlots_rest (s : State) (before f : Nat) : (s.timerSlots before f).rest sc = s.rest sc := by simp [State.timerSlots]
@[simp] theorem State.setTotal_rest (hw : sc.work = true) (s : State) (i : Nat) (x : Total) : (s.setTotal i x).rest sc = s.rest sc := by
  simp [State.setTotal, hw]
@[simp] theorem State.modTotal_rest (hw : sc.work = true) (s : State) (i : Nat) (f : Total → Total) : (s.modTotal i f).rest sc = s.rest sc := by
  simp [State.modTotal, hw]
@[simp] theorem State.setSlot_rest (s : State) (i : Nat) (x : Slot) : (s.setSlot i x).rest sc = s.rest sc := by simp [State.setSlot]
@[simp] theorem State.notify_rest (ho : sc.outputs = true) (s : State) (n : Nat) (x : Source) (k : Nat) : (s.notify n x k).rest sc = s.rest sc := by
  simp [State.notify, ho]
@[simp] theorem State.setSource_rest (s : State) (i : Nat) (x : Source) : (s.setSource i x).rest sc = s.rest sc := by simp [State.setSource]
@[simp] theorem State.modSource_rest (s : State) (i : Nat) (f : Source → Source) : (s.modSource i f).rest sc = s.rest sc := by simp [State.modSource]
@[simp] theorem State.takeBlock_rest (s : State) (n : Nat) (w : Word) : (s.takeBlock n w).rest sc = s.rest sc := by
  unfold State.takeBlock
  dsimp only
  (repeat' split) <;> simp
@[simp] theorem State.take_rest (ho : sc.outputs = true) (s : State) (n : Nat) : (s.take n).rest sc = s.rest sc := by simp [State.take, ho]
@[simp] theorem State.setDi_rest (hi : sc.inputs = true) (s : State) (i : Nat) (x : Di) : (s.setDi i x).rest sc = s.rest sc := by
  simp [State.setDi, hi]
@[simp] theorem State.modDi_rest (hi : sc.inputs = true) (s : State) (i : Nat) (f : Di → Di) : (s.modDi i f).rest sc = s.rest sc := by
  simp [State.modDi, hi]
@[simp] theorem State.setDiGroup_rest (hi : sc.inputs = true) (s : State) (i : Nat) (x : DGroup) : (s.setDiGroup i x).rest sc = s.rest sc := by
  simp [State.setDiGroup, hi]
@[simp] theorem State.modDiGroup_rest (hi : sc.inputs = true) (s : State) (i : Nat) (f : DGroup → DGroup) :
    (s.modDiGroup i f).rest sc = s.rest sc := by
  simp [State.modDiGroup, hi]
@[simp] theorem State.resetMarks_rest (hw : sc.work = true) (hi : sc.inputs = true) (s : State) (g : Nat) : (s.resetMarks g).rest sc = s.rest sc := by
  simp [State.resetMarks, hw, hi]
@[simp] theorem State.takeMarks_rest (hq : sc.square = true) (hw : sc.work = true) (hi : sc.inputs = true) (s : State) (f : Nat) :
    (s.takeMarks f).rest sc = s.rest sc := by
  unfold State.takeMarks
  dsimp only
  rw [State.each_rest]
  · simp [hq, hw, hi]
  · intro s t
    split <;> simp [hw]
@[simp] theorem State.totalsFreeze_rest (hq : sc.square = true) (hw : sc.work = true) (hi : sc.inputs = true) (s : State) (f : Nat) (c : BitVec 32) :
    (s.totalsFreeze f c).rest sc = s.rest sc := by
  simp [State.totalsFreeze, hq, hw, hi]
@[simp] theorem State.raiseTotal_rest (s : State) (k : RecKind) (v : Word) (c : BitVec 32) : (s.raiseTotal k v c).rest sc = s.rest sc := by
  simp [State.raiseTotal]
@[simp] theorem State.closeTotal_rest (hw : sc.work = true) (s : State) (t : Nat) (c : BitVec 32) (who : Option Ctx) :
    (s.closeTotal t c who).rest sc = s.rest sc := by
  simp [State.closeTotal, hw]
@[simp] theorem State.storeCopy_rest (ho : sc.outputs = true) (s : State) (t at_ : Nat) (c : BitVec 32) :
    (s.storeCopy t at_ c).rest sc = s.rest sc := by
  simp [State.storeCopy, ho]
@[simp] theorem State.keepTotal_rest (hw : sc.work = true) (ho : sc.outputs = true) (s : State) (t : Nat) (c : BitVec 32) :
    (s.keepTotal t c).rest sc = s.rest sc := by
  simp [State.keepTotal, hw, ho]
@[simp] theorem State.putTotWord_rest (hb : sc.obj = true) (s : State) (t sub : Nat) (w : Word) : (s.putTotWord t sub w).rest sc = s.rest sc := by
  simp [State.putTotWord, hb]
@[simp] theorem State.rebaseTotal_rest (hw : sc.work = true) (s : State) (t : Nat) (c : BitVec 32) (same : Bool) :
    (s.rebaseTotal t c same).rest sc = s.rest sc := by
  simp [State.rebaseTotal, hw]
@[simp] theorem State.landEntry_rest (hw : sc.work = true) (hb : sc.obj = true) (t : Nat) (c : BitVec 32) (s : State) (q : Close) :
    (State.landEntry t c s q).rest sc = s.rest sc := by
  simp [State.landEntry, hw, hb]
@[simp] theorem State.landClose_rest (hw : sc.work = true) (hb : sc.obj = true) (s : State) (t : Nat) (c : BitVec 32) :
    (s.landClose t c).rest sc = s.rest sc := by
  simp [State.landClose, hw, hb]
@[simp] theorem State.putIncr_rest (hw : sc.work = true) (s : State) (t : Nat) (r : Total × Bool) (c : BitVec 32) :
    (s.putIncr t r c).rest sc = s.rest sc := by
  simp [State.putIncr, hw]
@[simp] theorem State.commitTotal_rest (hw : sc.work = true) (ho : sc.outputs = true) (hb : sc.obj = true) (s : State) (c : BitVec 32) (t : Nat) :
    (s.commitTotal c t).rest sc = s.rest sc := by
  simp [State.commitTotal, hw, ho, hb]
@[simp] theorem State.commitTotals_rest (hq : sc.square = true) (hw : sc.work = true) (ho : sc.outputs = true) (hb : sc.obj = true)
    (s : State) (c : BitVec 32) : (s.commitTotals c).rest sc = s.rest sc := by
  simp [State.commitTotals, hq, hw, ho, hb]
@[simp] theorem State.holdMargin_rest (s : State) : (s.holdMargin).rest sc = s.rest sc := by simp [State.holdMargin]
@[simp] theorem State.loopApply_rest (hw : sc.work = true) (s : State) : (s.loopApply).rest sc = s.rest sc := by simp [State.loopApply, hw]
@[simp] theorem State.panelCommit_rest (ho : sc.outputs = true) (s : State) : (s.panelCommit).rest sc = s.rest sc := by simp [State.panelCommit, ho]
@[simp] theorem State.dropTake_rest (ho : sc.outputs = true) (s : State) (k : Nat) : (s.dropTake k).rest sc = s.rest sc := by
  simp [State.dropTake, ho]
@[simp] theorem State.setSub_rest (ho : sc.outputs = true) (s : State) (k : Nat) (x : Option Subscription) : (s.setSub k x).rest sc = s.rest sc := by
  simp [State.setSub, ho]
@[simp] theorem State.restoreTotal_rest (hw : sc.work = true) (s : State) (t : Nat) : (s.restoreTotal t).rest sc = s.rest sc := by
  unfold State.restoreTotal
  dsimp only
  (repeat' split) <;> simp [hw]
@[simp] theorem State.deliverItems_rest (hw : sc.work = true) (s : State) (l : List (Area × Bool × Nat)) (bad : List Nat) :
    (s.deliverItems l bad).1.rest sc = s.rest sc := by
  simp [State.deliverItems, hw]
@[simp] theorem State.readWords_rest (s : State) (a : Nat) (l : List Nat) : (s.readWords a l).rest sc = s.rest sc := by simp [State.readWords]
theorem State.gateRead_rest (ho : sc.outputs = true) {f : List Nat → State → State} (hf : ∀ m t, (f m t).rest sc = t.rest sc) (s : State) (c : Ctx)
    (b : List Byte) (a : Nat) (at_ marks : List Nat) : (s.gateRead c b a at_ marks f).rest sc = s.rest sc := by
  simp [State.gateRead, ho, hf]
@[simp] theorem State.subTake_rest (hw : sc.work = true) (ho : sc.outputs = true) (s : State) (marks : List Nat) (k : Nat) :
    (s.subTake marks k).rest sc = s.rest sc := by
  unfold State.subTake
  split
  · rfl
  · exact State.gateRead_rest ho (fun m t => by simp [hw, ho]) _ _ _ _ _ _
@[simp] theorem State.subCommit_rest (hw : sc.work = true) (ho : sc.outputs = true) (s : State) : (s.subCommit).rest sc = s.rest sc := by
  unfold State.subCommit
  refine State.each_rest (fun s x => ?_) _ _
  (repeat' split) <;> simp [hw, ho]
@[simp] theorem State.forceWorking_rest (hq : sc.square = true) (s : State) : (s.forceWorking).rest sc = s.rest sc := by simp [State.forceWorking, hq]
@[simp] theorem State.readTotals_rest (hw : sc.work = true) (s : State) : (s.readTotals).rest sc = s.rest sc := by simp [State.readTotals, hw]
@[simp] theorem State.keepUnits_rest (hq : sc.square = true) (s : State) : (s.keepUnits).rest sc = s.rest sc := by simp [State.keepUnits, hq]
@[simp] theorem State.partDone_rest (s : State) (n : Nat) : (s.partDone n).rest sc = s.rest sc := by simp [State.partDone]
@[simp] theorem State.placePart_rest (he : sc.engines = true) (s : State) (n : Nat) : (s.placePart n).rest sc = s.rest sc := by
  unfold State.placePart
  dsimp only
  (repeat' split) <;> simp [he]
@[simp] theorem State.rehome_rest (he : sc.engines = true) (s : State) : (s.rehome).rest sc = s.rest sc := by simp [State.rehome, he]
@[simp] theorem State.freePlace_rest (ho : sc.outputs = true) (s : State) (origin : BitVec 16) : (s.freePlace origin).rest sc = s.rest sc := by
  simp [State.freePlace, ho]
@[simp] theorem State.modDo_rest (hs : sc.dos = true) (s : State) (i : Nat) (f : Do → Do) : (s.modDo i f).rest sc = s.rest sc := by
  simp [State.modDo, hs]
@[simp] theorem State.modUc_rest (hw : sc.work = true) (s : State) (i : Nat) (f : Uc → Uc) : (s.modUc i f).rest sc = s.rest sc := by
  simp [State.modUc, hw]
@[simp] theorem State.owe_rest (ho : sc.outputs = true) (s : State) (c : Ctx) (st : Status) (cycle : BitVec 32) (body : List Byte) (counts : Bool) :
    (s.owe c st cycle body counts).rest sc = s.rest sc := by
  simp [State.owe, ho]
@[simp] theorem State.reply_rest (ho : sc.outputs = true) (s : State) (c : Ctx) (st : Status) (body : List Byte) :
    (s.reply c st body).rest sc = s.rest sc := by
  simp [State.reply, ho]
@[simp] theorem State.ok_rest (ho : sc.outputs = true) (s : State) (c : Ctx) : (s.ok c).rest sc = s.rest sc := by simp [State.ok, ho]
@[simp] theorem State.putForces_rest (hq : sc.square = true) (hf : sc.forces = true) (s : State) (l : List Force) : (s.putForces l).rest sc = s.rest sc := by
  simp [State.putForces, hq, hf]
@[simp] theorem State.putWorkBit_rest (hq : sc.square = true) (s : State) (a : Area) (w b : Nat) (v p : Bool) :
    (s.putWorkBit a w b v p).rest sc = s.rest sc := by
  unfold State.putWorkBit
  (repeat' split) <;> simp [hq]
@[simp] theorem State.refuse_rest (ho : sc.outputs = true) (s : State) (c : Ctx) (st : Status) : (s.refuse c st).rest sc = s.rest sc := by
  simp [State.refuse, ho]
@[simp] theorem State.setMode_rest (hq : sc.square = true) (hm : sc.mode = true) (s : State) (run : Bool) : (s.setMode run).rest sc = s.rest sc := by
  simp [State.setMode, hq, hm]

end Sys2Proof.Machine
end

/-! # What the start of a cycle leaves alone

All that waits for a boundary lands at the start of a cycle (R22, R59, R83, R97, R289, R305): each function that takes part stays inside of one scope. -/

section
namespace Sys2Proof.Machine
open Sys2Proof

/-- What the start of a cycle may change (R83). -/
abbrev Scope.start : Scope :=
  { draws := true, square := true, work := true, pair := true, forces := true, inputs := true, outputs := true, dos := true
    obj := true, mode := true, config := true }

@[simp] theorem State.abandonFrame_rest (s : State) (p reason slot : Nat) : (s.abandonFrame p reason slot).rest Scope.start = s.rest Scope.start := by
  simp [State.abandonFrame]
@[simp] theorem State.acknowledge_rest (s : State) (g mask : Nat) : (s.acknowledge g mask).rest Scope.start = s.rest Scope.start := by
  simp [State.acknowledge]
@[simp] theorem State.setDomain_rest (s : State) (i : Nat) (x : Domain) : (s.setDomain i x).rest Scope.start = s.rest Scope.start := by
  simp [State.setDomain]
@[simp] theorem State.modDomain_rest (s : State) (i : Nat) (f : Domain → Domain) : (s.modDomain i f).rest Scope.start = s.rest Scope.start := by
  simp [State.modDomain]
@[simp] theorem State.loseArrays_rest (s : State) (d : Nat) : (s.loseArrays d).rest Scope.start = s.rest Scope.start := by
  unfold State.loseArrays
  dsimp only
  (repeat' split) <;> simp
@[simp] theorem State.setIsland_rest (s : State) (i : Nat) (x : Island) : (s.setIsland i x).rest Scope.start = s.rest Scope.start := by
  simp [State.setIsland]
@[simp] theorem State.modIsland_rest (s : State) (i : Nat) (f : Island → Island) : (s.modIsland i f).rest Scope.start = s.rest Scope.start := by
  simp [State.modIsland]
@[simp] theorem State.setIslands_rest (s : State) (d : Nat) (x : IslandState) : (s.setIslands d x).rest Scope.start = s.rest Scope.start := by
  simp [State.setIslands]
@[simp] theorem State.powerOff_rest (s : State) (d : Nat) : (s.powerOff d).rest Scope.start = s.rest Scope.start := by simp [State.powerOff]
@[simp] theorem State.judgeDomain_rest (s : State) (d : Nat) : (s.judgeDomain d).rest Scope.start = s.rest Scope.start := by
  unfold State.judgeDomain
  dsimp only
  (repeat' split) <;> simp
@[simp] theorem State.judgeDomains_rest (s : State) : (s.judgeDomains).rest Scope.start = s.rest Scope.start := by simp [State.judgeDomains]
@[simp] theorem State.setBank_rest (s : State) (i : Nat) (x : Bank) : (s.setBank i x).rest Scope.start = s.rest Scope.start := by simp [State.setBank]
@[simp] theorem State.setBank_mram_rest (s : State) (i : Nat) (x : Bank) : (s.setBank i x).mram.rest Scope.start = s.mram.rest Scope.start := by
  simp [State.setBank]
@[simp] theorem State.modBank_mram_rest (s : State) (i : Nat) (f : Bank → Bank) :
    (s.modBank i f).mram.rest Scope.start = s.mram.rest Scope.start := by
  simp [State.modBank]
@[simp] theorem State.openLoad_rest (s : State) (b : Bool) (words : Nat) (crc : Word) :
    (s.openLoad b words crc).rest Scope.start = s.rest Scope.start := by
  unfold State.openLoad
  (repeat' split) <;> simp
@[simp] theorem State.raiseDo_rest (s : State) (r : RecKind) (kind n : Nat) : (s.raiseDo r kind n).rest Scope.start = s.rest Scope.start := by
  simp [State.raiseDo]
@[simp] theorem State.clearOpenLoad_rest (s : State) (n : Nat) : (s.clearOpenLoad n).rest Scope.start = s.rest Scope.start := by
  simp [State.clearOpenLoad]
@[simp] theorem State.disarm_rest (s : State) : (s.disarm).rest Scope.start = s.rest Scope.start := by simp [State.disarm]
@[simp] theorem State.setGroup_rest (s : State) (i : Nat) (x : Group) : (s.setGroup i x).rest Scope.start = s.rest Scope.start := by
  simp [State.setGroup]
@[simp] theorem State.modGroup_rest (s : State) (i : Nat) (f : Group → Group) : (s.modGroup i f).rest Scope.start = s.rest Scope.start := by
  simp [State.modGroup]
@[simp] theorem State.deliver_rest (s : State) (g : Nat) : (s.deliver g).rest Scope.start = s.rest Scope.start := by
  simp [State.deliver]
@[simp] theorem State.landGroup_rest (s : State) (g : Nat) : (s.landGroup g).rest Scope.start = s.rest Scope.start := by simp [State.landGroup]
@[simp] theorem State.countFiring_rest (s : State) (n t : Nat) : (s.countFiring n t).rest Scope.start = s.rest Scope.start := by
  unfold State.countFiring
  dsimp only
  (repeat' split) <;> simp
@[simp] theorem State.landSource_rest (s : State) (n : Nat) (old new : Word) : (s.landSource n old new).rest Scope.start = s.rest Scope.start := by
  unfold State.landSource
  dsimp only
  (repeat' split) <;> simp
@[simp] theorem State.diToFire_rest (s : State) (n : Nat) : (s.diToFire n).rest Scope.start = s.rest Scope.start := by
  unfold State.diToFire
  dsimp only
  (repeat' split) <;> simp
@[simp] theorem State.clearWireBreak_rest (s : State) (n : Nat) : (s.clearWireBreak n).rest Scope.start = s.rest Scope.start := by
  simp [State.clearWireBreak]
@[simp] theorem State.landWire_rest (s : State) (n : Nat) (new : Word) : (s.landWire n new).rest Scope.start = s.rest Scope.start := by
  unfold State.landWire
  (repeat' split) <;> simp
@[simp] theorem State.enterTime_rest (s : State) (x : TimeState) : (s.enterTime x).rest Scope.start = s.rest Scope.start := by
  unfold State.enterTime
  dsimp only
  (repeat' split) <;> simp
@[simp] theorem State.ptpWritten_rest (s : State) (old new : Word) : (s.ptpWritten old new).rest Scope.start = s.rest Scope.start := by
  simp [State.ptpWritten]
@[simp] theorem State.restartFilter_rest (s : State) (n : Nat) (old new : Word) :
    (s.restartFilter n old new).rest Scope.start = s.rest Scope.start := by
  unfold State.restartFilter
  (repeat' split) <;> simp
@[simp] theorem State.stationStart_rest (s : State) (p x : Nat) : (s.stationStart p x).rest Scope.start = s.rest Scope.start := by
  unfold State.stationStart
  dsimp only
  (repeat' split) <;> simp
@[simp] theorem State.afterWrite_rest (s : State) (i k : Nat) (old new : Word) :
    (s.afterWrite i k old new).rest Scope.start = s.rest Scope.start := by
  unfold State.afterWrite
  dsimp only
  (repeat' split) <;> simp
@[simp] theorem State.canStart_rest (s : State) (p : Nat) : (s.canStart p).rest Scope.start = s.rest Scope.start := by
  simp [State.canStart]
@[simp] theorem State.canJoin_rest (s : State) : (s.canJoin).rest Scope.start = s.rest Scope.start := by simp [State.canJoin]
@[simp] theorem State.judgeBands_rest (s : State) : (s.judgeBands).rest Scope.start = s.rest Scope.start := by
  unfold State.judgeBands
  dsimp only
  (repeat' split) <;> simp
@[simp] theorem State.judgeThermal_rest (s : State) : (s.judgeThermal).rest Scope.start = s.rest Scope.start := by simp [State.judgeThermal]
@[simp] theorem State.writeFire_rest (s : State) (l : List Word) : (s.writeFire l).rest Scope.start = s.rest Scope.start := by simp [State.writeFire]
@[simp] theorem State.holdFire_rest (s : State) (l : List Word) : (s.holdFire l).rest Scope.start = s.rest Scope.start := by simp [State.holdFire]
@[simp] theorem State.returnDo_rest (s : State) (n : Nat) : (s.returnDo n).rest Scope.start = s.rest Scope.start := by
  unfold State.returnDo
  (repeat' split) <;> simp
@[simp] theorem State.setLoopCtx_rest (s : State) (i : Nat) (x : Loop) : (s.setLoopCtx i x).rest Scope.start = s.rest Scope.start := by
  simp [State.setLoopCtx]
@[simp] theorem State.modLoopCtx_rest (s : State) (i : Nat) (f : Loop → Loop) : (s.modLoopCtx i f).rest Scope.start = s.rest Scope.start := by
  simp [State.modLoopCtx]
@[simp] theorem State.returnUc_rest (s : State) (n : Nat) : (s.returnUc n).rest Scope.start = s.rest Scope.start := by
  unfold State.returnUc
  dsimp only
  (repeat' split) <;> simp
@[simp] theorem State.cutOutputs_rest (s : State) : (s.cutOutputs).rest Scope.start = s.rest Scope.start := by
  unfold State.cutOutputs
  refine State.each_rest (fun s x => ?_) _ _
  (repeat' split) <;> simp
@[simp] theorem State.judgeCut_rest (s : State) (f : Nat) : (s.judgeCut f).rest Scope.start = s.rest Scope.start := by simp [State.judgeCut]
@[simp] theorem State.judgeCuts_rest (s : State) : (s.judgeCuts).rest Scope.start = s.rest Scope.start := by simp [State.judgeCuts]
@[simp] theorem State.setFireOut_rest (s : State) (i : Nat) (x : FireOut) : (s.setFireOut i x).rest Scope.start = s.rest Scope.start := by
  simp [State.setFireOut]
@[simp] theorem State.modFireOut_rest (s : State) (i : Nat) (f : FireOut → FireOut) : (s.modFireOut i f).rest Scope.start = s.rest Scope.start := by
  simp [State.modFireOut]
@[simp] theorem State.setRingPort_rest (s : State) (i : Nat) (x : RingPort) : (s.setRingPort i x).rest Scope.start = s.rest Scope.start := by
  simp [State.setRingPort]
@[simp] theorem State.modRingPort_rest (s : State) (i : Nat) (f : RingPort → RingPort) :
    (s.modRingPort i f).rest Scope.start = s.rest Scope.start := by
  simp [State.modRingPort]
@[simp] theorem State.portTx_rest (s : State) (p : Nat) (f : HsrFrame) : (s.portTx p f).rest Scope.start = s.rest Scope.start := by
  simp [State.portTx]
@[simp] theorem State.sendRing_rest (s : State) (dest : BitVec 48) (etherType : BitVec 16) (payload : List Byte) :
    (s.sendRing dest etherType payload).rest Scope.start = s.rest Scope.start := by
  simp [State.sendRing]
@[simp] theorem State.sendStation_rest (s : State) (body : StationBody) : (s.sendStation body).rest Scope.start = s.rest Scope.start := by
  simp [State.sendStation]
@[simp] theorem State.sendFrame_rest (s : State) (o : Nat) : (s.sendFrame o).rest Scope.start = s.rest Scope.start := by
  unfold State.sendFrame
  dsimp only
  (repeat' split) <;> simp
@[simp] theorem State.moveOut_rest (s : State) (o : Nat) : (s.moveOut o).rest Scope.start = s.rest Scope.start := by
  unfold State.moveOut
  dsimp only
  (repeat' split) <;> simp
@[simp] theorem State.retakeOutputs_rest (s : State) (was : List (Nat × Nat)) : (s.retakeOutputs was).rest Scope.start = s.rest Scope.start := by
  simp [State.retakeOutputs]
@[simp] theorem State.tellFire_rest (s : State) : (s.tellFire).rest Scope.start = s.rest Scope.start := by simp [State.tellFire]
@[simp] theorem State.takeFire_rest (s : State) (l : List Word) : (s.takeFire l).rest Scope.start = s.rest Scope.start := by simp [State.takeFire]
@[simp] theorem State.bringFire_rest (s : State) (l : List Word) : (s.bringFire l).rest Scope.start = s.rest Scope.start := by simp [State.bringFire]
@[simp] theorem State.dropQueue_rest (s : State) (p : Nat) (keepHead : Bool) : (s.dropQueue p keepHead).rest Scope.start = s.rest Scope.start := by
  unfold State.dropQueue
  dsimp only
  (repeat' split) <;> simp
@[simp] theorem State.giveUp_rest (s : State) (p reason : Nat) (j : TxJob) : (s.giveUp p reason j).rest Scope.start = s.rest Scope.start := by
  unfold State.giveUp
  (repeat' split) <;> simp
@[simp] theorem State.stopSchedule_rest (s : State) (p reason : Nat) : (s.stopSchedule p reason).rest Scope.start = s.rest Scope.start := by
  simp [State.stopSchedule]
@[simp] theorem State.canShutDown_rest (s : State) (p : Nat) : (s.canShutDown p).rest Scope.start = s.rest Scope.start := by
  unfold State.canShutDown
  dsimp only
  (repeat' split) <;> simp
@[simp] theorem State.putCanEnable_rest (s : State) (p : Nat) (b : Bool) : (s.putCanEnable p b).rest Scope.start = s.rest Scope.start := by
  simp [State.putCanEnable]
@[simp] theorem State.canEnable_rest (s : State) (p : Nat) (on : Bool) : (s.canEnable p on).1.rest Scope.start = s.rest Scope.start := by
  unfold State.canEnable
  dsimp only
  (repeat' split) <;> simp
@[simp] theorem State.dropLoad_rest (s : State) (b : Bool) : (s.dropLoad b).rest Scope.start = s.rest Scope.start := by
  simp [State.dropLoad]
@[simp] theorem State.putConsts_rest (s : State) (b : Nat) (l : List Word) : (s.putConsts b l).rest Scope.start = s.rest Scope.start := by
  simp [State.putConsts]
@[simp] theorem State.writeItem_rest (s : State) (i : MramItem) : (s.writeItem i).rest Scope.start = s.rest Scope.start := by simp [State.writeItem]
@[simp] theorem State.finishLoad_rest (s : State) (b partner : Bool) : (s.finishLoad b partner).1.rest Scope.start = s.rest Scope.start := by
  unfold State.finishLoad
  dsimp only
  (repeat' split) <;> simp
@[simp] theorem State.endLoad_rest (s : State) (k : Bool) (c : Option Ctx) : (s.endLoad k c).rest Scope.start = s.rest Scope.start := by
  unfold State.endLoad
  dsimp only
  (repeat' split) <;> simp
@[simp] theorem State.modBank_rest (s : State) (i : Nat) (f : Bank → Bank) : (s.modBank i f).rest Scope.start = s.rest Scope.start := by
  simp [State.modBank]
@[simp] theorem State.loadWords_rest (s : State) (b : Bool) (at_ : Nat) (l : List Word) :
    (s.loadWords b at_ l).rest Scope.start = s.rest Scope.start := by
  simp [State.loadWords]
@[simp] theorem State.loopForwarded_rest (s : State) (n : Nat) (q : LoopChange) : (s.loopForwarded n q).rest Scope.start = s.rest Scope.start := by
  simp [State.loopForwarded]
@[simp] theorem State.postLanding_rest (s : State) (x : Landing) : (s.postLanding x).rest Scope.start = s.rest Scope.start := by
  simp [State.postLanding]
@[simp] theorem State.cleanLoopRam_rest (s : State) (n k count : Nat) : (s.cleanLoopRam n k count).rest Scope.start = s.rest Scope.start := by
  simp [State.cleanLoopRam]
@[simp] theorem State.putStaged_rest (s : State) (n : Nat) (l : List (List Word)) : (s.putStaged n l).rest Scope.start = s.rest Scope.start := by
  simp [State.putStaged]
@[simp] theorem State.queueClose_rest (s : State) (t : Nat) (who : Option Ctx) (close : Bool) (config : List (Nat × Word)) (boundary : Option (BitVec 32)) :
    (s.queueClose t who close config boundary).rest Scope.start = s.rest Scope.start := by
  simp [State.queueClose]
@[simp] theorem State.settleCloses_rest (s : State) (t : Nat) : (s.settleCloses t).rest Scope.start = s.rest Scope.start := by
  simp [State.settleCloses]
@[simp] theorem State.closeNow_rest (s : State) (t : Nat) : (s.closeNow t).rest Scope.start = s.rest Scope.start := by simp [State.closeNow]
@[simp] theorem State.deferUc_rest (s : State) (n k : Nat) (w : Word) : (s.deferUc n k w).rest Scope.start = s.rest Scope.start := by
  simp [State.deferUc]
@[simp] theorem State.dropHart_rest (s : State) (n : Nat) : (s.dropHart n).rest Scope.start = s.rest Scope.start := by simp [State.dropHart]
@[simp] theorem State.ucUpdate_rest (s : State) (n : Nat) (x : Uc) : (s.ucUpdate n x).rest Scope.start = s.rest Scope.start := by
  unfold State.ucUpdate
  dsimp only
  (repeat' split) <;> simp
@[simp] theorem State.ucShutDown_rest (s : State) (n : Nat) (mode : Nat) : (s.ucShutDown n mode).rest Scope.start = s.rest Scope.start := by
  simp [State.ucShutDown]
@[simp] theorem State.ucLandMode_rest (s : State) (n : Nat) (old new : Word) : (s.ucLandMode n old new).rest Scope.start = s.rest Scope.start := by
  unfold State.ucLandMode
  dsimp only
  (repeat' split) <;> simp
@[simp] theorem State.landUcMode_rest (s : State) (n : Nat) (old new : Word) : (s.landUcMode n old new).rest Scope.start = s.rest Scope.start := by
  simp [State.landUcMode]
@[simp] theorem State.putUcWord_rest (s : State) (n sub : Nat) (w : Word) : (s.putUcWord n sub w).rest Scope.start = s.rest Scope.start := by
  simp [State.putUcWord]
@[simp] theorem State.startScan_rest (s : State) (n : Nat) : (s.startScan n).rest Scope.start = s.rest Scope.start := by simp [State.startScan]
@[simp] theorem State.landUc_rest (s : State) (n k : Nat) (w : Word) : (s.landUc n k w).rest Scope.start = s.rest Scope.start := by
  simp [State.landUc]
@[simp] theorem State.putCfg_rest (s : State) (key : Nat) (w : Word) : (s.putCfg key w).rest Scope.start = s.rest Scope.start := by
  simp [State.putCfg]
@[simp] theorem State.landWordAt_rest (s : State) (key : Nat) (w : Word) : (s.landWordAt key w).rest Scope.start = s.rest Scope.start := by
  simp [State.landWordAt]
@[simp] theorem State.putRestart_rest (s : State) (key : Nat) (mask w : Word) : (s.putRestart key mask w).rest Scope.start = s.rest Scope.start := by
  simp [State.putRestart]
@[simp] theorem State.takeWord_rest (s : State) (i k : Nat) (w : Word) (boundary : Option (BitVec 32)) :
    (s.takeWord i k w boundary).rest Scope.start = s.rest Scope.start := by
  unfold State.takeWord
  (repeat' split) <;> simp
@[simp] theorem State.landChange_rest (s : State) (c : Change) (boundary : BitVec 32) :
    (s.landChange c boundary).rest Scope.start = s.rest Scope.start := by
  unfold State.landChange
  (repeat' split) <;> simp
@[simp] theorem State.landChanges_rest (s : State) (c : BitVec 32) : (s.landChanges c).rest Scope.start = s.rest Scope.start := by
  simp [State.landChanges]
@[simp] theorem State.landFire_rest (s : State) : (s.landFire).rest Scope.start = s.rest Scope.start := by simp [State.landFire]

theorem State.landWords_rest (s : State) (l wait : List (Nat × Word)) : (s.landWords l wait).1.rest Scope.start = s.rest Scope.start := by
  induction l generalizing s wait with
  | nil => rw [State.landWords]
  | cons e l ih =>
    unfold State.landWords
    dsimp only
    rw [apply_ite Prod.fst, State.ite_rest, ih, ih, State.landWordAt_rest, ite_self]

@[simp] theorem State.landPending_rest (s : State) : (s.landPending).rest Scope.start = s.rest Scope.start := by
  simp [State.landPending, State.landWords_rest]
@[simp] theorem State.putBoth_rest (s : State) (a : Area) (w : Nat) (x : Word) (p : Bool) :
    (s.putBoth a w x p).rest Scope.start = s.rest Scope.start := by
  unfold State.putBoth
  dsimp only
  (repeat' split) <;> simp
@[simp] theorem State.forceCopies_rest (s : State) : (s.forceCopies).rest Scope.start = s.rest Scope.start := by simp [State.forceCopies]
@[simp] theorem State.carryForces_rest (s : State) (d0 d1 : ImageDesc) : (s.carryForces d0 d1).rest Scope.start = s.rest Scope.start := by
  simp [State.carryForces]
@[simp] theorem State.carryUnits_rest (s : State) (k0 k1 : Bank) : (s.carryUnits k0 k1).rest Scope.start = s.rest Scope.start := by
  simp [State.carryUnits]
@[simp] theorem State.putBothBit_rest (s : State) (a : Area) (w b : Nat) (v p : Bool) :
    (s.putBothBit a w b v p).rest Scope.start = s.rest Scope.start := by
  unfold State.putBothBit
  dsimp only
  (repeat' split) <;> simp
@[simp] theorem State.putItem_rest (s : State) (y : Symbol) (k : Nat) (v : Word × Bool) :
    (s.putItem y k v).rest Scope.start = s.rest Scope.start := by
  simp [State.putItem]
@[simp] theorem State.carryVar_rest (old : State) (d0 : ImageDesc) (s : State) (y : Symbol) :
    (State.carryVar old d0 s y).rest Scope.start = s.rest Scope.start := by
  simp [State.carryVar]
@[simp] theorem State.moveSpans_rest (s : State) (m0 m1 : Nat) : (s.moveSpans m0 m1).rest Scope.start = s.rest Scope.start := by
  simp [State.moveSpans]
@[simp] theorem State.writeWords_rest (s : State) (a : Nat) (l : List Nat) : (s.writeWords a l).rest Scope.start = s.rest Scope.start := by
  simp [State.writeWords]
@[simp] theorem State.carryOver_rest (s : State) (n : Nat) : (s.carryOver n).rest Scope.start = s.rest Scope.start := by simp [State.carryOver]
@[simp] theorem State.endRehearsal_rest (s : State) : (s.endRehearsal).rest Scope.start = s.rest Scope.start := by
  unfold State.endRehearsal
  (repeat' split) <;> simp
@[simp] theorem State.enterPair_rest (s : State) (x : PairState) : (s.enterPair x).rest Scope.start = s.rest Scope.start := by simp [State.enterPair]
@[simp] theorem State.startSync_rest (s : State) : (s.startSync).rest Scope.start = s.rest Scope.start := by simp [State.startSync]
@[simp] theorem State.loseSync_rest (s : State) (reason : Nat) : (s.loseSync reason).rest Scope.start = s.rest Scope.start := by simp [State.loseSync]
@[simp] theorem State.missSwitch_rest (s : State) : (s.missSwitch).rest Scope.start = s.rest Scope.start := by simp [State.missSwitch]
@[simp] theorem State.landSwitch_rest (s : State) (c : BitVec 32) : (s.landSwitch c).rest Scope.start = s.rest Scope.start := by
  unfold State.landSwitch
  (repeat' split) <;> simp
@[simp] theorem State.canCycleStart_rest {sc : Scope} (hw : sc.work = true) (s : State) : s.canCycleStart.rest sc = s.rest sc := by
  simp [State.canCycleStart, hw]
@[simp] theorem State.canTakeover_rest {sc : Scope} (hw : sc.work = true) (s : State) (gap : Bool) : (s.canTakeover gap).rest sc = s.rest sc := by
  simp [State.canTakeover, hw]
@[simp] theorem State.refBack_rest (s : State) : (s.refBack).rest Scope.start = s.rest Scope.start := by simp [State.refBack]

end Sys2Proof.Machine
end

/-! # The rows of the cycle

Each row of the cycle stays inside of its scope; what its frame says of the state follows from the state's rest (R79, R80, R83, R84, R103). -/

section
namespace Sys2Proof.Machine
open Sys2Proof

/-! ## What the rest of the state says -/

/-- MRAM `m` with the parts of a scope as in `n`. -/
def Mram.graft (k : Scope) (m n : Mram) : Mram :=
  { m with
    remap := n.remap, voidCopies := n.voidCopies, seqs := n.seqs
    obj := cond k.obj n.obj m.obj, forces := cond k.forces n.forces m.forces, totals := cond k.outputs n.totals m.totals
    cycle := cond k.cycle n.cycle m.cycle, runStop := cond k.mode n.runStop m.runStop
    rehearsalAt := cond k.config n.rehearsalAt m.rehearsalAt, objRestart := cond k.config n.objRestart m.objRestart
    canEnable := cond k.config n.canEnable m.canEnable, banks := cond k.config n.banks m.banks, bankVoid := cond k.config n.bankVoid m.bankVoid
    runBank := cond k.config n.runBank m.runBank, fire := cond k.config n.fire m.fire, fireVoid := cond k.config n.fireVoid m.fireVoid }

/-- State `s` with the parts of a scope as in `t`. -/
def State.graft (k : Scope) (s t : State) : State :=
  { s with
    round := t.round, crossings := t.crossings, nextSend := t.nextSend, raised := t.raised, arrays := t.arrays, upsets := t.upsets
    locks := t.locks, mram := s.mram.graft k t.mram
    freeCount := cond k.draws t.freeCount s.freeCount, square := cond k.square t.square s.square
    engines := cond k.engines t.engines s.engines, loop := cond k.work t.loop s.loop, ucs := cond k.work t.ucs s.ucs
    cans := cond k.work t.cans s.cans, pair := cond k.pair t.pair s.pair, totals := cond k.work t.totals s.totals
    islands := cond k.inputs t.islands s.islands, timers := cond k.inputs t.timers s.timers, dis := cond k.inputs t.dis s.dis
    diGroups := cond k.inputs t.diGroups s.diGroups, sup := cond k.outputs t.sup s.sup, fire := cond k.outputs t.fire s.fire
    panel := cond k.outputs t.panel s.panel, dos := cond k.dos t.dos s.dos, domains := cond k.config t.domains s.domains
    counters := cond k.config t.counters s.counters, power := cond k.config t.power s.power, plate := cond k.config t.plate s.plate
    ring := cond k.config t.ring s.ring }

theorem cond_cond_right {α : Type} (b : Bool) (x d y : α) : cond b x (cond b d y) = cond b x y := by cases b <;> rfl

theorem State.graft_rest (k : Scope) (s t : State) : (s.rest k).graft k t = s.graft k t := by
  simp only [State.graft, State.rest, Mram.graft, Mram.rest, cond_cond_right]

theorem State.graft_self (k : Scope) (t : State) : t.graft k t = t := by
  simp only [State.graft, Mram.graft, Bool.cond_self]

/-- What has the rest of `s` differs from `s` inside of the scope alone. -/
theorem State.eq_graft {k : Scope} {s t : State} (h : t.rest k = s.rest k) : t = s.graft k t :=
  calc t = (t.rest k).graft k t := by rw [State.graft_rest, State.graft_self]
    _ = (s.rest k).graft k t := by rw [h]
    _ = s.graft k t := State.graft_rest k s t

section

variable {sc : Scope} {s t : State}

theorem State.square_of_rest (h : t.rest sc = s.rest sc) (hq : sc.square = false) : t.square = s.square := by
  have hcond := congrArg State.square h
  simpa only [State.rest, hq, cond_false] using hcond

theorem State.now_of_rest (h : t.rest sc = s.rest sc) : t.now = s.now := by
  simpa only [State.rest] using congrArg State.now h

theorem State.pair_of_rest (h : t.rest sc = s.rest sc) (hp : sc.pair = false) : t.pair = s.pair := by
  have hcond := congrArg State.pair h
  simpa only [State.rest, hp, cond_false] using hcond

end

/-! ## The start of a cycle (R83) -/

theorem State.frame_start {s t : State} (h : t.rest .start = s.rest .start) :
    t = { s with
      freeCount := t.freeCount, diGroups := t.diGroups
      mram := { s.mram with
        rehearsalAt := t.mram.rehearsalAt, remap := t.mram.remap, obj := t.mram.obj, objRestart := t.mram.objRestart
        canEnable := t.mram.canEnable, banks := t.mram.banks, bankVoid := t.mram.bankVoid, runBank := t.mram.runBank
        runStop := t.mram.runStop, forces := t.mram.forces, fire := t.mram.fire, fireVoid := t.mram.fireVoid, totals := t.mram.totals
        voidCopies := t.mram.voidCopies, seqs := t.mram.seqs }
      sup := t.sup, islands := t.islands, domains := t.domains, crossings := t.crossings, square := t.square, timers := t.timers
      counters := t.counters, round := t.round, loop := t.loop, ucs := t.ucs, dis := t.dis, dos := t.dos, cans := t.cans, power := t.power
      fire := t.fire, pair := t.pair, totals := t.totals, locks := t.locks, upsets := t.upsets, arrays := t.arrays, raised := t.raised
      nextSend := t.nextSend, panel := t.panel, plate := t.plate, ring := t.ring } :=
  State.eq_graft h

theorem State.boundary_rest (s : State) (c : BitVec 32) : (s.boundary c).rest .start = s.rest .start := by
  unfold State.boundary
  dsimp only
  (repeat' split) <;> simp

/-- What is set up once the boundary has been passed. -/
def State.begun (s : State) (c : BitVec 32) : State :=
  let t := ({ s.refBack with square := { s.refBack.square with current := c } }).boundary c
  { t with square := t.square.started t.now c }

theorem State.begun_rest (s : State) (c : BitVec 32) : (s.begun c).rest .start = s.rest .start := by
  simp [State.begun, State.boundary_rest]

theorem execCycleStart_due {s : State} (h : s.cycleDue = true) (hsw : s.switchHeld s.startCycle = none) : execCycleStart s =
    .next (if (s.begun s.startCycle).ownCycle then (s.begun s.startCycle).canTakeover false else s.begun s.startCycle).canCycleStart := by
  unfold execCycleStart
  rw [if_neg (by simp [h]), hsw]
  rfl

theorem State.startCycle_simplex {s : State} (h : s.pairMode = false) : s.startCycle = s.square.current := by
  simp [State.startCycle, State.ownCycle, h]

/-- What leaves with a started cycle: the claim of a bus and the reference frames. -/
def State.announced (s : State) : State := (if s.ownCycle then s.canTakeover false else s).canCycleStart

theorem State.announced_rest {sc : Scope} (hw : sc.work = true) (s : State) : s.announced.rest sc = s.rest sc := by
  simp [State.announced, hw]

theorem State.cycleStart_row {s : State} (hsimplex : s.pairMode = false) (h : s.cycleDue = true) (hsw : s.switchHeld s.startCycle = none) :
    ∃ t, execCycleStart s = .next t ∧ t.rest .start = s.rest .start ∧ t.square.phase = .started ∧ t.square.current = s.square.current ∧
      t.square.startAt = t.now := by
  have hlater : (s.begun s.startCycle).announced.rest { work := true } = (s.begun s.startCycle).rest { work := true } :=
    State.announced_rest rfl _
  have hsquare := State.square_of_rest hlater rfl
  refine ⟨_, execCycleStart_due h hsw, ?_, ?_, ?_, ?_⟩
  · exact (State.announced_rest rfl _).trans (s.begun_rest _)
  · exact congrArg Square.phase hsquare
  · exact (congrArg Square.current hsquare).trans (State.startCycle_simplex hsimplex)
  · exact (congrArg Square.startAt hsquare).trans (State.now_of_rest hlater).symm

/-! ## The freeze (R80) -/

/-- What the freeze may change. -/
abbrev Scope.freeze : Scope := { square := true, engines := true, work := true, pair := true, inputs := true }

theorem State.frame_freeze {s t : State} (h : t.rest .freeze = s.rest .freeze) :
    t = { s with
      islands := t.islands, square := t.square, engines := t.engines, timers := t.timers, round := t.round, loop := t.loop, ucs := t.ucs
      dis := t.dis, diGroups := t.diGroups, cans := t.cans, pair := t.pair, totals := t.totals, crossings := t.crossings
      nextSend := t.nextSend, raised := t.raised, arrays := t.arrays, upsets := t.upsets, locks := t.locks
      mram := { s.mram with remap := t.mram.remap, voidCopies := t.mram.voidCopies, seqs := t.mram.seqs } } :=
  State.eq_graft h

theorem State.enterExecute_rest (s : State) : s.enterExecute.rest .freeze = s.rest .freeze := by
  unfold State.enterExecute
  dsimp only
  split <;> simp

/-- A module without a partner's takeover has nothing to reconcile at the freeze. -/
theorem State.incomingFreeze_none {s : State} (h : s.pair.incoming = none) (c : BitVec 32) : s.incomingFreeze c = s :=
  if_neg (by simp [h])

theorem State.capture_rest {s : State} (h : s.pair.incoming = none) (before f : Nat) (c : BitVec 32) :
    (s.capture before f c).rest .freeze = s.rest .freeze := by
  unfold State.capture
  dsimp only
  rw [State.incomingFreeze_none]
  · split <;> simp
  · rw [State.pair_of_rest (sc := { square := true, work := true, inputs := true }) (s := s) (by simp) rfl]
    exact h

/-- A step that halts the engine it is for, and leaves the others, leaves a halted engine halted. -/
theorem State.each_stays_halted {f : Engine → Engine} (hf : ∀ x, (f x).running = false) {s : State} {e : Nat}
    (h : (s.engine e).running = false) (l : List Nat) : ((s.each l fun s e => s.modEngine e f).engine e).running = false := by
  induction l generalizing s with
  | nil => exact h
  | cons a l ih =>
    refine ih (s := s.modEngine a f) ?_
    by_cases hea : e = a
    · rw [hea, State.modEngine_same, hf]
    · rw [State.modEngine_other s f hea, h]

theorem State.each_halts {f : Engine → Engine} (hf : ∀ x, (f x).running = false) {e : Nat} {l : List Nat} (he : e ∈ l) (s : State) :
    ((s.each l fun s e => s.modEngine e f).engine e).running = false := by
  induction l generalizing s with
  | nil => cases he
  | cons a l ih =>
    cases he with
    | head => exact State.each_stays_halted hf (by rw [State.modEngine_same, hf]) l
    | tail _ he => exact ih he (s.modEngine a f)

theorem State.enterExecute_phase (s : State) : s.enterExecute.square.phase = .execute ∧
    (s.enterExecute.square.prog ≠ .run → ∀ e < 4, (s.enterExecute.engine e).running = false) := by
  let t : State := { s with square := { s.square with phase := .execute, commitBad := [] } }
  have hsquare : s.enterExecute.square = t.square := by
    refine State.square_of_rest (sc := { engines := true }) ?_ rfl
    unfold State.enterExecute
    dsimp only
    split <;> simp [t]
  rw [hsquare]
  refine ⟨rfl, fun hprog e he => ?_⟩
  have hrun : (s.square.prog == .run) = false := by simpa [t] using hprog
  unfold State.enterExecute
  dsimp only
  rw [hrun, if_neg (by simp)]
  exact State.each_halts (fun _ => rfl) (List.mem_range.2 he) t

theorem State.shadows_simplex {s : State} (h : s.pairMode = false) : s.shadows = false := by simp [State.shadows, h]

theorem State.ownCycle_simplex {s : State} (h : s.pairMode = false) : s.ownCycle = true := by simp [State.ownCycle, h]

/-- The state in which a simplex module captures: the oldest token of a partner is used up. -/
def State.tokenUsed (s : State) : State := { s with pair := { s.pair with tokens := s.pair.tokens.tail } }

theorem execFreeze_simplex {s : State} (hsimplex : s.pairMode = false) (hincoming : s.pair.incoming = none) (h : s.freezeDue = true)
    (hheld : s.freezeHeld = none) : execFreeze s =
      .next (s.tokenUsed.capture s.square.freezeAt s.freezeTime s.square.current).enterExecute := by
  have hshadows : s.tokenUsed.shadows = false := State.shadows_simplex hsimplex
  have hnone : s.tokenUsed.pair.incoming = none := hincoming
  have hledger : s.tokenUsed.ledgerFreeze s.square.freezeAt s.square.current = s.tokenUsed := if_neg (by simp [hshadows, hnone])
  unfold execFreeze
  rw [if_neg (by simp [h]), hheld]
  dsimp only
  rw [show State.ledgerFreeze { s with pair := { s.pair with tokens := s.pair.tokens.tail } } s.square.freezeAt s.square.current = s.tokenUsed from hledger,
    State.ownCycle_simplex hsimplex]
  rfl

theorem State.freeze_row {s : State} (hsimplex : s.pairMode = false) (hincoming : s.pair.incoming = none) (h : s.freezeDue = true)
    (hheld : s.freezeHeld = none) : ∃ t, execFreeze s = .next t ∧ t.rest .freeze = s.rest .freeze ∧ t.square.phase = .execute ∧
      (t.square.prog ≠ .run → ∀ e < 4, (t.engine e).running = false) := by
  refine ⟨_, execFreeze_simplex hsimplex hincoming h hheld, ?_, State.enterExecute_phase _⟩
  rw [State.enterExecute_rest, State.capture_rest (by exact hincoming)]
  simp [State.tokenUsed]

/-! ## The bytes of the Town Square -/

/-- `r` differs from `q` in bytes, marks and what is unwritten at most. -/
def Square.onlyBytes (q r : Square) : Prop := r = { q with mem := r.mem, poison := r.poison, scratch := r.scratch }

theorem Square.onlyBytes.trans {q r u : Square} (h : q.onlyBytes r) (k : r.onlyBytes u) : q.onlyBytes u := by
  unfold Square.onlyBytes at *
  rw [k, h]

theorem Square.onlyBytes_settleWord (q : Square) (a : Nat) : q.onlyBytes (q.settleWord a) := by
  unfold Square.settleWord
  split <;> rfl

theorem Square.onlyBytes_markWord (q : Square) (a : Nat) (p : Bool) : q.onlyBytes (q.markWord a p) := rfl

theorem Square.onlyBytes_markAll (q : Square) (l : List Nat) : q.onlyBytes (q.markAll l) := by
  unfold Square.markAll
  induction l generalizing q with
  | nil => rfl
  | cons b l ih => exact
    ((q.onlyBytes_settleWord b).trans (Square.onlyBytes_markWord _ b true)).trans (ih ((q.settleWord b).markWord b true))

theorem Square.onlyBytes_commitCopy (q : Square) : q.onlyBytes q.commitCopy := rfl

theorem Square.onlyBytes_revert (q : Square) : q.onlyBytes q.revert := rfl

/-! ## The execute watchdog (R84) -/

/-- What the watchdog may change. -/
abbrev Scope.watchdog : Scope := { draws := true, square := true, engines := true, mode := true }

theorem State.frame_watchdog {s t : State} (h : t.rest .watchdog = s.rest .watchdog) :
    t = { s with
      freeCount := t.freeCount, square := t.square, engines := t.engines, arrays := t.arrays, locks := t.locks, upsets := t.upsets
      mram := { s.mram with runStop := t.mram.runStop, remap := t.mram.remap, voidCopies := t.mram.voidCopies, seqs := t.mram.seqs }
      raised := t.raised, round := t.round, crossings := t.crossings, nextSend := t.nextSend } :=
  State.eq_graft h

theorem State.revertWork_square (s : State) : s.square.onlyBytes s.revertWork.square := by
  have hspans : (s.each commitSpans fun s r => (s.readSpan 2 r.2.1 r.2.2).writeSpan 2 r.1 r.2.2).square = s.square :=
    State.square_of_rest (sc := {}) (by simp) rfl
  unfold State.revertWork
  dsimp only
  rw [hspans]
  exact (Square.onlyBytes_revert _).trans (Square.onlyBytes_markAll _ _)

/-- An abandoned cycle keeps the program's state, the overruns and the last committed number. -/
theorem State.abandonCycle_square (s : State) : s.abandonCycle.square.prog = s.square.prog ∧ s.abandonCycle.square.overruns = s.square.overruns ∧
    s.abandonCycle.square.last = s.square.last := by
  unfold State.abandonCycle
  split
  · exact ⟨rfl, rfl, rfl⟩
  · dsimp only
    rw [State.square_of_rest (sc := { draws := true }) (State.raiseUnstated_rest rfl _ 6 .cycleAbandoned) rfl, s.revertWork_square]
    exact ⟨rfl, rfl, rfl⟩

theorem State.setMode_stops {s : State} (h : s.square.prog = .run) : (s.setMode false).square.prog = .stop ∧
    (s.setMode false).square.overruns = s.square.overruns ∧ (s.setMode false).square.last = s.square.last := by
  unfold State.setMode
  dsimp only
  rw [h, if_neg (by decide), State.raise_square]
  exact ⟨rfl, rfl, rfl⟩

/-- An overrun, counted and recorded. -/
def State.overran (s : State) (e : Nat) : State :=
  { s with square := { s.square with overruns := satInc s.square.overruns } }.raiseFrom e .cycleOverrun
    (BitVec.ofNat 32 (satNat 32 ((s.now - s.square.phaseAt) / 1000)))

theorem execWatchdogExpiry_late {s : State} {e : Nat} (he : s.slowEngine = some e) (hphase : s.square.phase = .execute) (hon : s.watchdogUs ≠ 0)
    (hlate : s.watchdogUs * 1000 < s.now - s.square.phaseAt) : execWatchdogExpiry s = .next ((s.overran e).abandonCycle.setMode false) := by
  have hover : s.watchdogUs * 1000 + s.square.phaseAt < s.now := Nat.add_lt_of_lt_sub hlate
  unfold execWatchdogExpiry
  dsimp only
  rw [he]
  dsimp only
  rw [if_neg (by simp [hphase, hon, hover])]
  rfl

theorem State.watchdog_row {s : State} {e : Nat} (he : s.slowEngine = some e) (hphase : s.square.phase = .execute) (hrun : s.square.prog = .run)
    (hon : s.watchdogUs ≠ 0) (hlate : s.watchdogUs * 1000 < s.now - s.square.phaseAt) :
    ∃ t, execWatchdogExpiry s = .next t ∧ t.rest .watchdog = s.rest .watchdog ∧ t.square.prog = .stop ∧
      t.square.overruns = satInc s.square.overruns ∧ t.square.last = s.square.last := by
  have hover : (s.overran e).square = { s.square with overruns := satInc s.square.overruns } := State.raiseFrom_square _ _ _ _
  obtain ⟨hprog, hoverruns, hlast⟩ := (s.overran e).abandonCycle_square
  rw [hover] at hprog hoverruns hlast
  obtain ⟨hstop, hsame, hkept⟩ := State.setMode_stops (s := (s.overran e).abandonCycle) (hprog.trans hrun)
  exact ⟨_, execWatchdogExpiry_late he hphase hon hlate, by simp [State.overran], hstop, hsame.trans hoverruns, hkept.trans hlast⟩

/-! ## The retained image (R103) -/

theorem State.writeItem_quiet {s : State} (h : s.quiet = true) (i : MramItem) : s.writeItem i = s := by
  obtain ⟨hlocks, hupsets⟩ := s.quiet_iff.1 h
  cases s
  dsimp only at hlocks hupsets
  subst hlocks hupsets
  rfl

theorem State.writeRetained_quiet {s : State} (h : s.quiet = true) (hcommitted : s.square.committedOnce = true) :
    ∃ x, s.writeRetained = { s with mram := { s.mram with retained := x, cycle := s.square.last } } := by
  obtain ⟨hlocks, hupsets⟩ := s.quiet_iff.1 h
  unfold State.writeRetained
  rw [if_neg (by simp [hcommitted])]
  dsimp only
  rw [State.readWords_clear hupsets, State.writeItem_quiet h]
  exact ⟨_, rfl⟩

section

variable {s : State} (hfull : s.service = .full) (hphase : s.square.phase ≠ .execute) (hwarn : s.power.warning = none)
  (hpast : s.square.retainAt + (s.cfg 0x102 0).toNat * 1000000 ≤ s.now)

include hfull hphase hwarn hpast

theorem execRetainPeriod_due : execRetainPeriod s =
    if s.square.committedOnce && (s.readWords 2 s.retainedAddrs).retainedAddrs.any ((s.readWords 2 s.retainedAddrs).locked 2) then
      .next (s.readWords 2 s.retainedAddrs)
    else .next { s.writeRetained with square := { s.square with retainAt := s.now } } :=
  if_pos (by simp [hfull, hphase, hwarn, hpast])

theorem State.retain_row (h : s.quiet = true) : ∃ t, execRetainPeriod s = .next t ∧
    t = { s with mram := { s.mram with retained := t.mram.retained, cycle := t.mram.cycle }, square := t.square } ∧
    t.square.retainAt = s.now ∧ (s.square.committedOnce = true → t.mram.cycle = s.square.last) := by
  obtain ⟨hlocks, hupsets⟩ := s.quiet_iff.1 h
  have hfree : (s.retainedAddrs.any (s.locked 2)) = false := by simp [State.locked_clear hlocks]
  have hexec := execRetainPeriod_due hfull hphase hwarn hpast
  rw [State.readWords_clear hupsets, hfree, Bool.and_false, if_neg (by simp)] at hexec
  refine ⟨_, hexec, ?_, rfl, fun hcommitted => ?_⟩
  · by_cases hcommitted : s.square.committedOnce = true
    · obtain ⟨x, hx⟩ := State.writeRetained_quiet h hcommitted
      rw [hx]
    · rw [show s.writeRetained = s from if_pos (by simpa using hcommitted)]
  · obtain ⟨x, hx⟩ := State.writeRetained_quiet h hcommitted
    rw [hx]

end

end Sys2Proof.Machine
end

/-! # What a commit copies

A copied byte reads in the copy as in the original, where it has been written;
a word of a copied area stands at its place of the committed copy (R77, R80). -/

section
namespace Sys2Proof.Tab

variable {α : Type} {d : α}

/-- A table without some keys reads its default there, and as before elsewhere. -/
theorem get_filter_key (f : Nat → Bool) (t : Tab α) (i : Nat) : get d (t.filter fun e => f e.1) i = if f i then get d t i else d := by
  induction t with
  | nil => simp [get]
  | cons p t ih =>
    obtain ⟨j, v⟩ := p
    by_cases hj : j = i
    · subst hj
      cases hf : f j <;> simp [hf, get, ih]
    · cases hf : f j <;> simp [hf, get, hj, ih]

variable [DecidableEq α] {src dst n : Nat}

/-- The entries of `l` written over `u`, moved from `src` to `dst`. -/
def moveOnto (d : α) (src dst : Nat) (u l : Tab α) : Tab α := l.foldl (fun u e => set d u (e.1 - src + dst) e.2) u

theorem get_moveOnto_other {u l : Tab α} {i : Nat} (h : ∀ e ∈ l, i ≠ e.1 - src + dst) : get d (moveOnto d src dst u l) i = get d u i := by
  induction l generalizing u with
  | nil => rfl
  | cons e l ih =>
    refine (ih fun x hx => h x (List.mem_cons_of_mem _ hx)).trans ?_
    exact get_set_other d u e.2 (h e List.mem_cons_self)

theorem get_moveOnto {u l : Tab α} {k : Nat} (hwf : wf d l = true) (hsrc : ∀ e ∈ l, src ≤ e.1) (hu : get d u (dst + k) = d) :
    get d (moveOnto d src dst u l) (dst + k) = get d l (src + k) := by
  induction l generalizing u with
  | nil => exact hu
  | cons e l ih =>
    obtain ⟨j, v⟩ := e
    have hj : src ≤ j := hsrc _ List.mem_cons_self
    have hrest : ∀ x ∈ l, src ≤ x.1 := fun x hx => hsrc x (List.mem_cons_of_mem _ hx)
    by_cases hjk : j = src + k
    · have hnot : ∀ x ∈ l, dst + k ≠ x.1 - src + dst := fun x hx => by
        have hlt : j < x.1 := wf_above hwf x hx
        omega
      refine (get_moveOnto_other hnot).trans ?_
      have hplace : j - src + dst = dst + k := by omega
      dsimp only
      rw [hplace, get_set_same]
      simp [get, hjk]
    · refine (ih (wf_tail hwf) hrest ((get_set_other d u v ?_).trans hu)).trans ?_
      · omega
      · simp [get, hjk]

theorem get_copyRange_in {t : Tab α} (hwf : wf d t = true) {k : Nat} (hk : k < n) : get d (copyRange d t src dst n) (dst + k) = get d t (src + k) := by
  refine (get_moveOnto (wf_filter _ hwf) (fun e he => ?_) ?_).trans ?_
  · have hin := (List.mem_filter.1 he).2
    simp only [decide_eq_true_eq] at hin
    exact hin.1
  · rw [get_filter_key fun i => !decide (dst ≤ i ∧ i < dst + n)]
    simp [hk]
  · rw [get_filter_key fun i => decide (src ≤ i ∧ i < src + n)]
    simp [hk]

theorem get_copyRange_out (t : Tab α) {i : Nat} (hi : i < dst ∨ dst + n ≤ i) : get d (copyRange d t src dst n) i = get d t i := by
  refine (get_moveOnto_other fun e he => ?_).trans ?_
  · have hin := (List.mem_filter.1 he).2
    simp only [decide_eq_true_eq] at hin
    omega
  · rw [get_filter_key fun i => !decide (dst ≤ i ∧ i < dst + n)]
    have hnot : ¬(dst ≤ i ∧ i < dst + n) := by omega
    simp [hnot]

end Sys2Proof.Tab

namespace Sys2Proof.Machine
open Sys2Proof

namespace SquareLaws

variable {q : Square} {src dst n : Nat}

/-- What is unwritten after a copy: what was, outside of the destination, and what comes with the copied bytes (R352). -/
theorem fresh_copy_iff (i : Nat) : (q.copy src dst n).fresh i = true ↔
    (q.fresh i = true ∧ ¬(dst ≤ i ∧ i < dst + n)) ∨ ∃ r ∈ q.scratch, dst ≤ i ∧ i < dst + n ∧ r.1 ≤ i - dst + src ∧ i - dst + src < r.2 := by
  have hwrote := fresh_wrote (q := q) dst (dst + n) i (by omega)
  have hsplit : (q.copy src dst n).fresh i = ((q.wrote dst (dst + n)).fresh i ||
      (q.scratchFrom src dst n).any fun r => decide (r.1 ≤ i) && decide (i < r.2)) := List.any_append
  rw [hsplit, hwrote]
  simp only [Square.scratchFrom, List.any_filter, List.any_map, Bool.or_eq_true, Bool.and_eq_true, Bool.not_eq_true', List.any_eq_true,
    Function.comp, decide_eq_true_eq, Bool.and_eq_false_iff, decide_eq_false_iff_not]
  refine or_congr (and_congr_right fun _ => by omega) (exists_congr fun r => and_congr_right fun _ => ?_)
  omega

theorem fresh_copy_in {k : Nat} (hk : k < n) : (q.copy src dst n).fresh (dst + k) = q.fresh (src + k) := by
  rw [Bool.eq_iff_iff, fresh_copy_iff]
  simp only [Square.fresh, List.any_eq_true, Bool.and_eq_true, decide_eq_true_eq]
  constructor
  · rintro (⟨_, hout⟩ | ⟨r, hr, _, _, hlo, hhi⟩)
    · omega
    · exact ⟨r, hr, by omega⟩
  · rintro ⟨r, hr, hlo, hhi⟩
    exact .inr ⟨r, hr, by omega⟩

theorem fresh_copy_out {i : Nat} (hi : i < dst ∨ dst + n ≤ i) : (q.copy src dst n).fresh i = q.fresh i := by
  rw [Bool.eq_iff_iff, fresh_copy_iff]
  constructor
  · rintro (⟨hfresh, _⟩ | ⟨r, hr, hin⟩)
    · exact hfresh
    · omega
  · exact fun hfresh => .inl ⟨hfresh, by omega⟩

/-! ## Bytes and marks of a copy -/

/-- Two squares show the same in the four bytes of a word: bytes, marks and what is unwritten. -/
def agree (q r : Square) (p p' : Nat) : Prop := ∀ k < 4, r.byte (p' + k) = q.byte (p + k) ∧ r.marked (p' + k) = q.marked (p + k) ∧
  r.fresh (p' + k) = q.fresh (p + k)

theorem agree.trans {r u : Square} {p p' p'' : Nat} (h : agree q r p p') (h' : agree r u p' p'') : agree q u p p'' := fun k hk => by
  obtain ⟨hb, hm, hf⟩ := h k hk
  obtain ⟨hb', hm', hf'⟩ := h' k hk
  exact ⟨hb'.trans hb, hm'.trans hm, hf'.trans hf⟩

theorem agree.word {r : Square} {p p' : Nat} (h : agree q r p p') : r.word p' = q.word p ∧ r.poisoned p' = q.poisoned p := by
  obtain ⟨hb0, hm0, -⟩ := h 0 (by omega)
  obtain ⟨hb1, hm1, -⟩ := h 1 (by omega)
  obtain ⟨hb2, hm2, -⟩ := h 2 (by omega)
  obtain ⟨hb3, hm3, -⟩ := h 3 (by omega)
  rw [Nat.add_zero, Nat.add_zero] at hb0 hm0
  simp only [Square.word, Square.poisoned, hb0, hb1, hb2, hb3, hm0, hm1, hm2, hm3, and_self]

theorem agree_copy_out {p : Nat} (hp : p + 4 ≤ dst ∨ dst + n ≤ p) : agree q (q.copy src dst n) p p := fun k hk => by
  have hi : p + k < dst ∨ dst + n ≤ p + k := by omega
  have hfresh := fresh_copy_out (q := q) (src := src) hi
  have hmem : (q.copy src dst n).mem.get 0 (p + k) = q.mem.get 0 (p + k) := Tab.get_copyRange_out _ hi
  have hpoison : (q.copy src dst n).poison.get false (p + k) = q.poison.get false (p + k) := Tab.get_copyRange_out _ hi
  refine ⟨?_, ?_, hfresh⟩
  · rw [Square.byte, hfresh, hmem]
    rfl
  · rw [Square.marked, hfresh, hpoison]
    rfl

/-- A written word inside of the source reads the same at its place of the destination. -/
theorem agree_copy_in (hq : q.canonical) {p : Nat} (hlo : src ≤ p) (hhi : p + 4 ≤ src + n) (hw : ∀ k < 4, q.fresh (p + k) = false) :
    agree q (q.copy src dst n) p (p - src + dst) := fun k hk => by
  obtain ⟨j, rfl⟩ := Nat.exists_eq_add_of_le hlo
  have hj : j + k < n := by omega
  have hat : src + j - src + dst + k = dst + (j + k) := by omega
  have hfrom : src + j + k = src + (j + k) := by omega
  have hwritten := hw k hk
  rw [hat]
  rw [hfrom] at hwritten ⊢
  have hfresh := fresh_copy_in (q := q) (src := src) (dst := dst) hj
  have hmem : (q.copy src dst n).mem.get 0 (dst + (j + k)) = q.mem.get 0 (src + (j + k)) := Tab.get_copyRange_in hq.1 hj
  have hpoison : (q.copy src dst n).poison.get false (dst + (j + k)) = q.poison.get false (src + (j + k)) := Tab.get_copyRange_in hq.2 hj
  refine ⟨?_, ?_, hfresh⟩
  · rw [Square.byte, Square.byte, hfresh, hwritten, hmem]
    rfl
  · rw [Square.marked, Square.marked, hfresh, hwritten, hpoison]
    rfl

theorem agree.written {r : Square} {p p' : Nat} (h : agree q r p p') (hw : ∀ k < 4, q.fresh (p + k) = false) : ∀ k < 4, r.fresh (p' + k) = false :=
  fun k hk => (h k hk).2.2.trans (hw k hk)

/-- A written word of a part that a commit copies reads the same at its place of the committed copy (R80). -/
theorem agree_commitCopy (hq : q.canonical) {r : Nat × Nat × Nat} (hr : r ∈ commitSpans) {p : Nat} (hlo : r.1 ≤ p) (hhi : p + 4 ≤ r.1 + r.2.2)
    (hw : ∀ k < 4, q.fresh (p + k) = false) : agree q q.commitCopy p (p - r.1 + r.2.1) := by
  let q1 := q.copy 0 sqCommitted sqCommitted
  let q2 := q1.copy sqNOut (sqNOut + kib 128) (kib 128)
  have hq1 : q1.canonical := copy _ _ _ hq
  have hq2 : q2.canonical := copy _ _ _ hq1
  have hspans : r = (0, 2097152, 2097152) ∨ r = (4587520, 4718592, 131072) ∨ r = (4882432, 4898816, 16384) := by
    simpa [commitSpans, sqCommitted, sqNOut, sqLSet, kib] using hr
  have hc : sqCommitted = 2097152 := rfl
  have hn : sqNOut = 4587520 := rfl
  have hl : sqLSet = 4882432 := rfl
  have hk128 : kib 128 = 131072 := rfl
  have hk16 : kib 16 = 16384 := rfl
  obtain rfl | rfl | rfl := hspans
  · dsimp only at hlo hhi ⊢
    have h1 : agree q q1 p (p - 0 + 2097152) := agree_copy_in hq (by omega) (by omega) hw
    have h2 : agree q1 q2 (p - 0 + 2097152) (p - 0 + 2097152) := agree_copy_out (by omega)
    exact (h1.trans h2).trans (agree_copy_out (by omega))
  · dsimp only at hlo hhi ⊢
    have h1 : agree q q1 p p := agree_copy_out (by omega)
    have h2 : agree q1 q2 p (p - 4587520 + 4718592) := agree_copy_in hq1 hlo hhi (h1.written hw)
    exact (h1.trans h2).trans (agree_copy_out (by omega))
  · dsimp only at hlo hhi ⊢
    have h1 : agree q q1 p p := agree_copy_out (by omega)
    have h2 : agree q1 q2 p p := agree_copy_out (by omega)
    exact (h1.trans h2).trans (agree_copy_in hq2 hlo hhi ((h1.trans h2).written hw))

/-! ## A word that something else is written beside -/

theorem agree_refl (p : Nat) : agree q q p p := fun _ _ => ⟨rfl, rfl, rfl⟩

theorem agree_put {a p : Nat} (w : Word) (b : Bool) (h : a + 4 ≤ p ∨ p + 4 ≤ a) : agree q (q.put a w b) p p := fun k hk =>
  ⟨read_put_other w b (by omega), mark_put_other w b (by omega), fresh_put_other w b (by omega)⟩

theorem agree_of_get {r : Square} {p : Nat} (hseals : r.seals = q.seals) (h : ∀ k < 4, r.mem.get 0 (p + k) = q.mem.get 0 (p + k) ∧
    r.poison.get false (p + k) = q.poison.get false (p + k) ∧ r.fresh (p + k) = q.fresh (p + k)) : agree q r p p := fun k hk => by
  obtain ⟨hmem, hpoison, hfresh⟩ := h k hk
  refine ⟨?_, ?_, hfresh⟩
  · rw [Square.byte, hfresh, hmem, hseals]
    rfl
  · rw [Square.marked, hfresh, hpoison, hseals]
    rfl

theorem agree_putByte {a p : Nat} (b : Byte) (h : a < p ∨ p + 4 ≤ a) : agree q (q.putByte a b) p p :=
  agree_of_get rfl fun k hk => ⟨Tab.get_set_other 0 _ _ (by omega), rfl, rfl⟩

theorem agree_markByte {a p : Nat} (b : Bool) (h : a < p ∨ p + 4 ≤ a) : agree q (q.markByte a b) p p :=
  agree_of_get rfl fun k hk => ⟨rfl, Tab.get_set_other false _ _ (by omega), rfl⟩

theorem agree_markWord {a p : Nat} (b : Bool) (h : a + 4 ≤ p ∨ p + 4 ≤ a) : agree q (q.markWord a b) p p :=
  ((agree_markByte b (by omega)).trans (agree_markByte b (by omega))).trans
    ((agree_markByte b (by omega)).trans (agree_markByte b (by omega)))

theorem agree_wrote {a p : Nat} (h : a + 4 ≤ p ∨ p + 4 ≤ a) : agree q (q.wrote a (a + 4)) p p :=
  agree_of_get rfl fun k hk => ⟨rfl, rfl, by
    rw [fresh_wrote a (a + 4) (p + k) (by omega)]
    have hout : (decide (a ≤ p + k) && decide (p + k < a + 4)) = false := by
      simp only [Bool.and_eq_false_iff, decide_eq_false_iff_not]
      omega
    rw [hout, Bool.not_false, Bool.and_true]⟩

/-- One byte and its mark written beside a word. -/
theorem agree_setBoth {a p : Nat} (b : Byte) (m : Bool) (h : a < p ∨ p + 4 ≤ a) :
    agree q { q with mem := q.mem.set 0 a b, poison := q.poison.set false a m } p p :=
  (agree_putByte b h).trans (agree_markByte m h)

theorem agree_settleWord {a p : Nat} (h : a + 4 ≤ p ∨ p + 4 ≤ a) : agree q (q.settleWord a) p p := by
  unfold Square.settleWord
  split
  · exact agree_refl p
  · refine agree.trans ?_ (agree_wrote h)
    exact ((agree_setBoth _ _ (by omega)).trans (agree_setBoth _ _ (by omega))).trans
      ((agree_setBoth _ _ (by omega)).trans (agree_setBoth _ _ (by omega)))

theorem agree_putBit {a p n : Nat} (v b : Bool) (hn : n < 32) (h : a + 4 ≤ p ∨ p + 4 ≤ a) : agree q (q.putBit a n v b) p p := by
  unfold Square.putBit
  dsimp only
  have hbyte := (agree_settleWord (q := q) h).trans (agree_putByte (q := q.settleWord a) (a := a + 3 - n / 8)
    (BitVec.ofNat 8 (bits (setBit ((q.settleWord a).word a) n v) (n / 8 * 8 + 7) (n / 8 * 8))) (by omega))
  split
  · exact hbyte.trans (agree_markWord true h)
  · exact hbyte.trans (agree_markByte false (by omega))

end SquareLaws

end Sys2Proof.Machine
end

/-! # Landings, forces and the committed copy

What lands at a commit is written into the working copy word by word, then the forces, and then the working copy is committed (R50, R80, R97). -/

section
namespace Sys2Proof.Machine
open Sys2Proof SquareLaws

/-! ## Writing into the working copy -/

/-- `t` is `s` but for bytes of the Town Square, which keeps its canonical form. -/
structure State.writes (s t : State) : Prop where
  frame : t = { s with square := { s.square with mem := t.square.mem, poison := t.square.poison, scratch := t.square.scratch } }
  canonical : s.square.canonical → t.square.canonical

theorem State.writes_refl (s : State) : s.writes s := ⟨rfl, id⟩

theorem State.writes.trans {s t u : State} (h : s.writes t) (k : t.writes u) : s.writes u where
  frame := by
    refine k.frame.trans ?_
    conv => lhs; rw [h.frame]
  canonical hs := k.canonical (h.canonical hs)

theorem State.writes.wordAddr {s t : State} (h : s.writes t) (v : View) (a : Area) (w : Nat) : t.wordAddr v a w = s.wordAddr v a w := by
  rw [h.frame]
  rfl

/-- Word `w` of an area stands beside the four bytes from `p` on. -/
def State.apart (s : State) (p : Nat) (a : Area) (w : Nat) : Prop := ∀ q : Nat, s.wordAddr .work a w = some q → q + 4 ≤ p ∨ p + 4 ≤ q

theorem State.writes.apart {s t : State} (h : s.writes t) {p : Nat} {a : Area} {w : Nat} (hp : s.apart p a w) : t.apart p a w :=
  fun q hq => hp q ((h.wordAddr .work a w).symm.trans hq)

/-- What is written into `s` leaves the four bytes from `p` on as they are. -/
structure State.beside (p : Nat) (s t : State) : Prop where
  writes : s.writes t
  same : agree s.square t.square p p

theorem State.beside_refl (p : Nat) (s : State) : State.beside p s s := ⟨s.writes_refl, agree_refl p⟩

theorem State.beside.trans {p : Nat} {s t u : State} (h : State.beside p s t) (k : State.beside p t u) : State.beside p s u :=
  ⟨h.writes.trans k.writes, h.same.trans k.same⟩

/-- The word at `p` has been written, and is clean. -/
structure State.stores (s : State) (p : Nat) (w : Word) : Prop where
  word : s.square.word p = w
  clean : s.square.poisoned p = false
  written : ∀ k < 4, s.square.fresh (p + k) = false

theorem State.stores.beside {s t : State} {p : Nat} {w : Word} (h : s.stores p w) (hb : State.beside p s t) : t.stores p w :=
  ⟨hb.same.word.1.trans h.word, hb.same.word.2.trans h.clean, hb.same.written h.written⟩

section

variable {α : Type} {f : State → α → State}

theorem State.each_writes (hf : ∀ (t : State) (x : α), t.writes (f t x)) (s : State) (l : List α) : s.writes (s.each l f) := by
  induction l generalizing s with
  | nil => exact s.writes_refl
  | cons x l ih => exact (hf s x).trans (ih (f s x))

/-- Steps that each write beside a word write beside it together. -/
theorem State.each_beside {p : Nat} {P : State → α → Prop} (hP : ∀ {s t : State} {x : α}, s.writes t → P s x → P t x)
    (hf : ∀ t x, P t x → State.beside p t (f t x)) {s : State} {l : List α} (h : ∀ x ∈ l, P s x) : State.beside p s (s.each l f) := by
  induction l generalizing s with
  | nil => exact s.beside_refl p
  | cons x l ih =>
    have hx := hf s x (h x List.mem_cons_self)
    exact hx.trans (ih fun y hy => hP hx.writes (h y (List.mem_cons_of_mem _ hy)))

end

theorem Square.onlyBytes_putByte_mark (q : Square) (a i : Nat) (x : Byte) (p : Bool) :
    q.onlyBytes (if p then (q.putByte i x).markWord a true else (q.putByte i x).markByte i false) := by
  split <;> rfl

theorem Square.onlyBytes_putBit (q : Square) (a b : Nat) (v p : Bool) : q.onlyBytes (q.putBit a b v p) :=
  (q.onlyBytes_settleWord a).trans (Square.onlyBytes_putByte_mark _ a _ _ p)

theorem State.writes_square {s : State} {r : Square} (h : s.square.onlyBytes r) (hc : s.square.canonical → r.canonical) :
    s.writes { s with square := r } := ⟨congrArg (fun q => { s with square := q }) h, hc⟩

theorem State.putWork_writes (s : State) (a : Area) (w : Nat) (x : Word) (b : Bool) : s.writes (s.putWork a w x b) := by
  unfold State.putWork
  split
  · exact ⟨rfl, SquareLaws.put _ _ _⟩
  · exact s.writes_refl

theorem State.putWork_beside {s : State} {p : Nat} {a : Area} {w : Nat} (h : s.apart p a w) (x : Word) (b : Bool) :
    State.beside p s (s.putWork a w x b) := by
  refine ⟨s.putWork_writes a w x b, ?_⟩
  unfold State.putWork
  split
  · next q hq => exact agree_put x b (h q hq)
  · exact agree_refl p

theorem State.putWork_stores {s : State} {p : Nat} {a : Area} {w : Nat} (h : s.wordAddr .work a w = some p) (x : Word) :
    (s.putWork a w x false).stores p x := by
  unfold State.putWork
  rw [h]
  exact ⟨read_put_same p x false, poisoned_put_same p x false, fun k hk => fresh_put_same x false (by omega) (by omega)⟩

theorem State.putWorkBit_writes (s : State) (a : Area) (w b : Nat) (v p : Bool) : s.writes (s.putWorkBit a w b v p) := by
  unfold State.putWorkBit
  split
  · exact State.writes_square (Square.onlyBytes_putBit _ _ _ _ _) (SquareLaws.putBit _ _ _ _)
  · exact s.writes_refl

theorem State.putWorkBit_beside {s : State} {p : Nat} {a : Area} {w b : Nat} (h : s.apart p a w) (hb : b < 32) (v m : Bool) :
    State.beside p s (s.putWorkBit a w b v m) := by
  refine ⟨s.putWorkBit_writes a w b v m, ?_⟩
  unfold State.putWorkBit
  split
  · next q hq => exact agree_putBit v m hb (h q hq)
  · exact agree_refl p

/-! ## Landings (R50) -/

theorem State.landWord_writes (s : State) (u : LandWord) : s.writes (s.landWord u) := by
  unfold State.landWord
  split
  · exact s.putWork_writes _ _ _ _
  · exact State.each_writes (fun t b => t.putWorkBit_writes _ _ _ _ _) s _

theorem State.landWord_beside {s : State} {p : Nat} {u : LandWord} (h : s.apart p u.at_.area u.at_.word) : State.beside p s (s.landWord u) := by
  unfold State.landWord
  split
  · exact State.putWork_beside h _ _
  · refine State.each_beside (P := fun t b => t.apart p u.at_.area u.at_.word ∧ b < 32) (fun hw hx => ⟨hw.apart hx.1, hx.2⟩)
      (fun t b hx => State.putWorkBit_beside hx.1 hx.2 _ _) fun b hb => ⟨h, ?_⟩
    exact List.mem_range.1 (List.mem_filter.1 hb).1

theorem State.landWord_stores {s : State} {p : Nat} {u : LandWord} (h : s.wordAddr .work u.at_.area u.at_.word = some p)
    (hmask : u.mask = BitVec.allOnes 32) : (s.landWord u).stores p u.value := by
  unfold State.landWord
  rw [if_pos hmask]
  exact State.putWork_stores h u.value

/-- The words of one landing that no later one writes. -/
def State.landOwn (s : State) (later : List VarWord) (l : List LandWord) : State := s.each (l.filter fun w => !later.contains w.at_) State.landWord

theorem State.landOwn_writes (s : State) (later : List VarWord) (l : List LandWord) : s.writes (s.landOwn later l) :=
  State.each_writes State.landWord_writes s _

theorem State.landOwn_beside {s : State} {p : Nat} (later : List VarWord) {l : List LandWord} (h : ∀ u ∈ l, s.apart p u.at_.area u.at_.word) :
    State.beside p s (s.landOwn later l) :=
  State.each_beside (P := fun t (u : LandWord) => t.apart p u.at_.area u.at_.word) (fun hw hx => hw.apart hx) (fun _ _ hx => State.landWord_beside hx)
    fun u hu => h u (List.mem_of_mem_filter hu)

theorem State.landOwn_stores {s : State} {p : Nat} {later : List VarWord} {b c : List LandWord} {v : LandWord} (hlater : v.at_ ∉ later)
    (hmask : v.mask = BitVec.allOnes 32) (hp : s.wordAddr .work v.at_.area v.at_.word = some p) (hc : ∀ u ∈ c, s.apart p u.at_.area u.at_.word) :
    (s.landOwn later (b ++ v :: c)).stores p v.value := by
  have hsplit : s.landOwn later (b ++ v :: c) = ((s.landOwn later b).landWord v).landOwn later c := by
    unfold State.landOwn
    rw [List.filter_append, List.filter_cons_of_pos (by simpa using hlater)]
    exact List.foldl_append
  have hb := s.landOwn_writes later b
  have hv := (s.landOwn later b).landWord_writes v
  rw [hsplit]
  exact (State.landWord_stores ((hb.wordAddr _ _ _).trans hp) hmask).beside
    (State.landOwn_beside later fun u hu => (hb.trans hv).apart (hc u hu))

theorem State.landWrites_cons (s : State) (y : Landing × Landed) (l : List (Landing × Landed)) :
    s.landWrites (y :: l) = (if y.2 == .write then s.landOwn (writtenWords l) y.1.words else s).landWrites l := rfl

theorem State.landStep_writes (s : State) (y : Landing × Landed) (later : List VarWord) :
    s.writes (if y.2 == .write then s.landOwn later y.1.words else s) := by
  split
  · exact s.landOwn_writes later _
  · exact s.writes_refl

theorem State.landWrites_writes (s : State) (l : List (Landing × Landed)) : s.writes (s.landWrites l) := by
  induction l generalizing s with
  | nil => exact s.writes_refl
  | cons y l ih => exact (s.landStep_writes y (writtenWords l)).trans (ih _)

theorem State.landWrites_beside {s : State} {p : Nat} {l : List (Landing × Landed)}
    (h : ∀ y ∈ l, ∀ u ∈ y.1.words, s.apart p u.at_.area u.at_.word) : State.beside p s (s.landWrites l) := by
  induction l generalizing s with
  | nil => exact s.beside_refl p
  | cons y l ih =>
    have hstep : State.beside p s (if y.2 == .write then s.landOwn (writtenWords l) y.1.words else s) := by
      split
      · exact State.landOwn_beside _ (h y List.mem_cons_self)
      · exact s.beside_refl p
    exact hstep.trans (ih fun z hz u hu => hstep.writes.apart (h z (List.mem_cons_of_mem _ hz) u hu))

/-- The last landing of a word lands: none of those after it writes there. -/
theorem State.landWrites_stores {s : State} {p : Nat} {l r : List (Landing × Landed)} {x : Landing} {b c : List LandWord} {v : LandWord}
    (hx : x.words = b ++ v :: c) (hmask : v.mask = BitVec.allOnes 32) (hp : s.wordAddr .work v.at_.area v.at_.word = some p)
    (hc : ∀ u ∈ c, s.apart p u.at_.area u.at_.word) (hr : ∀ y ∈ r, ∀ u ∈ y.1.words, s.apart p u.at_.area u.at_.word) :
    (s.landWrites (l ++ (x, .write) :: r)).stores p v.value := by
  induction l generalizing s with
  | nil =>
    have hlater : v.at_ ∉ writtenWords r := fun hmem => by
      obtain ⟨y, hy, u, hu, hat⟩ : ∃ y ∈ r, ∃ u ∈ y.1.words, u.at_ = v.at_ := by
        simp only [writtenWords, List.mem_flatMap, List.mem_filter, List.mem_map] at hmem
        obtain ⟨y, ⟨hy, _⟩, u, hu, hat⟩ := hmem
        exact ⟨y, hy, u, hu, hat⟩
      have hfar := hr y hy u hu p (by rw [hat]; exact hp)
      omega
    have hw := s.landOwn_writes (writtenWords r) x.words
    rw [List.nil_append, State.landWrites_cons, if_pos (by rfl)]
    refine State.stores.beside ?_ (State.landWrites_beside fun y hy u hu => hw.apart (hr y hy u hu))
    rw [hx]
    exact State.landOwn_stores hlater hmask hp hc
  | cons y l ih =>
    have hw := s.landStep_writes y (writtenWords (l ++ (x, .write) :: r))
    rw [List.cons_append, State.landWrites_cons]
    exact ih ((hw.wordAddr _ _ _).trans hp) (fun u hu => hw.apart (hc u hu)) fun z hz u hu => hw.apart (hr z hz u hu)

/-- What a landing of words comes to: refused as a whole where a word of it is forced (R97). -/
def State.landsAs (s : State) (x : Landing) : Landed := if x.words.any fun w => s.forcedWord w.at_ then .conflict else .write

theorem State.landAll_words {s : State} {l : List Landing} (h : ∀ x ∈ l, x.kind = .writeVars ∨ x.kind = .silent) :
    s.landAll l = (s, l.map fun x => (x, s.landsAs x)) := by
  induction l with
  | nil => rfl
  | cons x l ih =>
    have hone : s.landOne x = (s, s.landsAs x) := by
      unfold State.landOne
      obtain hk | hk := h x List.mem_cons_self <;> rw [hk] <;> rfl
    unfold State.landAll
    dsimp only
    rw [hone, ih fun y hy => h y (List.mem_cons_of_mem _ hy)]
    rfl

/-! ## Forces (R97) -/

/-- A force into the working copy. -/
def State.forceInto (s : State) (f : Force) : State := s.putWork f.area f.offset f.value false

theorem State.forceWorking_eq (s : State) : s.forceWorking = s.each (s.mram.forces.filter fun f => copied f.area f.offset) State.forceInto := rfl

theorem State.forceWorking_writes (s : State) : s.writes s.forceWorking := State.each_writes (fun t _ => t.putWork_writes _ _ _ _) s _

theorem State.forceInto_each_beside {s : State} {p : Nat} {l : List Force} (h : ∀ f ∈ l, s.apart p f.area f.offset) :
    State.beside p s (s.each l State.forceInto) :=
  State.each_beside (P := fun t (f : Force) => t.apart p f.area f.offset) (fun hw hx => hw.apart hx)
    (fun _ _ hx => State.putWork_beside hx _ _) h

theorem State.forceWorking_beside {s : State} {p : Nat} (h : ∀ f ∈ s.mram.forces, s.apart p f.area f.offset) : State.beside p s s.forceWorking :=
  State.forceInto_each_beside fun f hf => h f (List.mem_of_mem_filter hf)

theorem State.forceWorking_stores {s : State} {p : Nat} {b c : List Force} {f : Force} (hforces : s.mram.forces = b ++ f :: c)
    (hcopied : copied f.area f.offset = true) (hp : s.wordAddr .work f.area f.offset = some p) (hc : ∀ g ∈ c, s.apart p g.area g.offset) :
    s.forceWorking.stores p f.value := by
  let keep := fun f : Force => copied f.area f.offset
  have hsplit : s.forceWorking = ((s.each (b.filter keep) State.forceInto).forceInto f).each (c.filter keep) State.forceInto := by
    rw [State.forceWorking_eq, hforces, List.filter_append, List.filter_cons_of_pos (p := keep) hcopied]
    exact List.foldl_append
  have hb : s.writes (s.each (b.filter keep) State.forceInto) := State.each_writes (fun t _ => t.putWork_writes _ _ _ _) s _
  have hf : (s.each (b.filter keep) State.forceInto).writes _ := State.putWork_writes _ f.area f.offset f.value false
  rw [hsplit]
  exact (State.putWork_stores ((hb.wordAddr _ _ _).trans hp) f.value).beside
    (State.forceInto_each_beside fun g hg => (hb.trans hf).apart (hc g (List.mem_of_mem_filter hg)))

end Sys2Proof.Machine
end

/-! # The commit

A commit lands what waits, copies the working copy, shows the cycle, closes totals and applies what has been committed (R80, R83, R97). -/

section
namespace Sys2Proof.Machine
open Sys2Proof SquareLaws

/-! ## Where the committed copy stands (R77) -/

/-- A word of a copied area stands in a part that a commit copies, and in the committed copy at the matching place. -/
theorem State.copied_place {s : State} {a : Area} {w p : Nat} (hcopied : copied a w = true) (hp : s.wordAddr .work a w = some p)
    (hm : s.image.mBytes ≤ 131072) : ∃ r ∈ commitSpans, r.1 ≤ p ∧ p + 4 ≤ r.1 + r.2.2 ∧
      ∀ t : State, t.image = s.image → t.wordAddr .done a w = some (p - r.1 + r.2.1) := by
  have hc : sqCommitted = 2097152 := rfl
  have hn : sqNOut = 4587520 := rfl
  have hl : sqLSet = 4882432 := rfl
  have hk : kib 2048 = 2097152 := rfl
  have hk128 : kib 128 = 131072 := rfl
  have hk16 : kib 16 = 16384 := rfl
  have hfirst : (0, sqCommitted, sqCommitted) ∈ commitSpans := by simp [commitSpans]
  cases a with
  | Q =>
    obtain ⟨hw, rfl⟩ : w < 1024 ∧ 4 * w = p := by simpa [State.wordAddr] using hp
    refine ⟨_, hfirst, Nat.zero_le _, by dsimp only; omega, fun t _ => ?_⟩
    simp only [State.wordAddr, if_pos hw, beq_self_eq_true, if_true]
    exact congrArg some (by omega)
  | M =>
    obtain ⟨hw, rfl⟩ : 4 * w < s.image.mBytes ∧ 4096 + 4 * w = p := by simpa [State.wordAddr] using hp
    refine ⟨_, hfirst, Nat.zero_le _, by dsimp only; omega, fun t ht => ?_⟩
    simp only [State.wordAddr, ht, if_pos hw, beq_self_eq_true, if_true]
    exact congrArg some (by omega)
  | D =>
    obtain ⟨hw, rfl⟩ : w < s.image.dSize ∧ 4096 + s.image.mBytes + 4 * w = p := by simpa [State.wordAddr] using hp
    have hsize : s.image.dSize = (kib 2048 - 4096 - s.image.mBytes) / 4 := rfl
    refine ⟨_, hfirst, Nat.zero_le _, by dsimp only; omega, fun t ht => ?_⟩
    simp only [State.wordAddr, ht, if_pos hw, beq_self_eq_true, if_true]
    exact congrArg some (by omega)
  | N =>
    have hlo : ¬w < 32768 := by simpa [copied] using hcopied
    obtain ⟨hw, rfl⟩ : w < 65536 ∧ sqNOut + 4 * (w - 32768) = p := by simpa [State.wordAddr, hlo] using hp
    refine ⟨(sqNOut, sqNOut + kib 128, kib 128), by simp [commitSpans], by dsimp only; omega, by dsimp only; omega, fun t _ => ?_⟩
    simp only [State.wordAddr, if_neg hlo, if_pos hw, beq_self_eq_true, if_true]
    exact congrArg some (by omega)
  | L =>
    have hlo : ¬w < 4096 := by simpa [copied] using hcopied
    obtain ⟨hw, rfl⟩ : w < 8192 ∧ sqLSet + 4 * (w - 4096) = p := by simpa [State.wordAddr, hlo] using hp
    refine ⟨(sqLSet, sqLSet + kib 16, kib 16), by simp [commitSpans], by dsimp only; omega, by dsimp only; omega, fun t _ => ?_⟩
    simp only [State.wordAddr, if_neg hlo, if_pos hw, beq_self_eq_true, if_true]
    exact congrArg some (by omega)
  | I | E | K | S | T | C | Z => cases hcopied

/-! ## What the stages of a commit leave alone -/

section

variable {sc : Scope}

theorem State.landOne_rest (hq : sc.square = true) (hf : sc.forces = true) (s : State) (x : Landing) : (s.landOne x).1.rest sc = s.rest sc := by
  unfold State.landOne
  split <;> simp [hq, hf]

theorem State.landAll_rest (hq : sc.square = true) (hf : sc.forces = true) (s : State) (l : List Landing) :
    (s.landAll l).1.rest sc = s.rest sc := by
  induction l generalizing s with
  | nil => rfl
  | cons x l ih => exact (ih (s.landOne x).1).trans (s.landOne_rest hq hf x)

theorem State.rest_of_writes {s t : State} (hq : sc.square = true) (h : s.writes t) : t.rest sc = s.rest sc := by
  rw [h.frame]
  simp [hq]

theorem State.copyCommitted_rest (hq : sc.square = true) (s : State) (l : List Nat) : (s.copyCommitted l).rest sc = s.rest sc := by
  simp [State.copyCommitted, hq]

/-- What waits for this commit. -/
def State.dueNow (s : State) : List Landing := s.square.landings.filter s.landsNow

/-- The state in which the landings of this commit are judged: what lands is overwritten, the others go on waiting. -/
def State.readied (s : State) : State :=
  let t := s.each s.landAddrs fun s a => s.overwrite 2 a 4
  { t with square := { t.square with landings := s.square.landings.filter fun x => !s.landsNow x }
           pair := { t.pair with forceCycle := if s.forcesLand s.dueNow then some s.square.current else s.pair.forceCycle } }

/-- The working copy with all that lands and every force. -/
def State.landedWords (s : State) : State :=
  ((s.readied.landAll s.dueNow).1.landWrites (s.readied.landAll s.dueNow).2).forceWorking

theorem State.landCommands_eq (s : State) :
    s.landCommands = ((s.landedWords.copyCommitted s.landAddrs).readTotals, (s.readied.landAll s.dueNow).2) := rfl

theorem State.readied_rest (hq : sc.square = true) (hp : sc.pair = true) (s : State) : s.readied.rest sc = s.rest sc := by
  simp [State.readied, hq, hp]

theorem State.landCommands_rest_readied (hq : sc.square = true) (hw : sc.work = true) (hf : sc.forces = true) (s : State) :
    s.landCommands.1.rest sc = s.readied.rest sc := by
  rw [State.landCommands_eq]
  dsimp only
  rw [State.readTotals_rest hw, State.copyCommitted_rest hq, State.landedWords, State.rest_of_writes hq (State.forceWorking_writes _),
    State.rest_of_writes hq (State.landWrites_writes _ _), State.landAll_rest hq hf]

theorem State.landCommands_rest (hq : sc.square = true) (hw : sc.work = true) (hp : sc.pair = true) (hf : sc.forces = true) (s : State) :
    s.landCommands.1.rest sc = s.rest sc := by
  rw [State.landCommands_rest_readied hq hw hf, State.readied_rest hq hp]

theorem State.landReplies_rest (ho : sc.outputs = true) (s : State) (l : List (Landing × Landed)) : (s.landReplies l).rest sc = s.rest sc := by
  induction l generalizing s with
  | nil => rfl
  | cons x l ih =>
    unfold State.landReplies
    dsimp only
    rw [ih]
    (repeat' split) <;> simp [ho]

theorem State.showCycle_rest (hd : sc.draws = true) (hq : sc.square = true) (he : sc.engines = true) (hc : sc.cycle = true) (s : State)
    (c : BitVec 32) : (s.showCycle c).rest sc = s.rest sc := by
  unfold State.showCycle State.keepUnits
  dsimp only
  split <;> simp [hd, hq, he, hc]

end

/-! ## The committed words of totals (R322) -/

theorem State.obj_of_rest {sc : Scope} {s t : State} (h : t.rest sc = s.rest sc) (ho : sc.obj = false) : t.mram.obj = s.mram.obj := by
  have hcond := congrArg (fun x : State => x.mram.obj) h
  simpa only [State.rest, Mram.rest, ho, cond_false] using hcond

/-- The words of a total stand above every other word that a cycle reads. -/
def totalKeys : Nat := okey 0x700 0

theorem State.putTotWord_obj (s : State) (t sub : Nat) (w : Word) {key : Nat} (hkey : key < totalKeys) (d : Word) :
    (s.putTotWord t sub w).mram.obj.get d key = s.mram.obj.get d key := by
  refine Tab.get_set_other_default d _ _ w ?_
  unfold totalKeys at hkey
  unfold okey at *
  omega

theorem State.landEntry_obj (t : Nat) (c : BitVec 32) (s : State) (q : Close) {key : Nat} (hkey : key < totalKeys) (d : Word) :
    (State.landEntry t c s q).mram.obj.get d key = s.mram.obj.get d key := by
  have hput : ∀ s : State, (s.each q.config fun s (e : Nat × Word) => s.putTotWord t e.1 e.2).mram.obj.get d key = s.mram.obj.get d key := fun s =>
    State.each_field (fun s : State => s.mram.obj.get d key) (fun s (e : Nat × Word) => s.putTotWord_obj t e.1 e.2 hkey d) s q.config
  have hclose : (s.closeTotal t c q.ctx).mram.obj = s.mram.obj := State.obj_of_rest (sc := { work := true }) (State.closeTotal_rest rfl s t c q.ctx) rfl
  have hland : ∀ b : Bool, ((if b then s.closeTotal t c q.ctx else s).each q.config fun s (e : Nat × Word) =>
      s.putTotWord t e.1 e.2).mram.obj.get d key = s.mram.obj.get d key := fun b => by
    rw [hput]
    cases b
    · rfl
    · rw [if_pos rfl, hclose]
  unfold State.landEntry
  dsimp only
  split <;> exact hland _

theorem State.commitTotal_obj (s : State) (c : BitVec 32) (t : Nat) {key : Nat} (hkey : key < totalKeys) (d : Word) :
    (s.commitTotal c t).mram.obj.get d key = s.mram.obj.get d key := by
  have hkeep : ∀ s : State, (s.keepTotal t c).mram.obj = s.mram.obj := fun s =>
    State.obj_of_rest (sc := { work := true, outputs := true }) (State.keepTotal_rest rfl rfl s t c) rfl
  have hincr : ∀ (s : State) (r : Total × Bool), (s.putIncr t r c).mram.obj = s.mram.obj := fun s r =>
    State.obj_of_rest (sc := { work := true }) (State.putIncr_rest rfl s t r c) rfl
  have hclose : ∀ s : State, (s.landClose t c).mram.obj.get d key = s.mram.obj.get d key := fun s =>
    State.each_field (fun s : State => s.mram.obj.get d key) (fun s q => State.landEntry_obj t c s q hkey d) _ _
  unfold State.commitTotal
  split
  · rfl
  · dsimp only
    rw [hkeep, hclose, hincr]
    rfl

theorem State.commitTotals_obj (s : State) (c : BitVec 32) {key : Nat} (hkey : key < totalKeys) (d : Word) :
    (s.commitTotals c).mram.obj.get d key = s.mram.obj.get d key := by
  unfold State.commitTotals
  dsimp only
  exact State.each_field (fun s : State => s.mram.obj.get d key) (fun s t => s.commitTotal_obj c t hkey d) s (List.range 64)

theorem State.commitTotals_cfg (s : State) (c : BitVec 32) {i k : Nat} (h : okey i k < totalKeys) : (s.commitTotals c).cfg i k = s.cfg i k :=
  s.commitTotals_obj c h _

/-! ## The commit of a simplex module -/

/-- A committed cycle as it is published: totals, subscriptions, the panel, the buses. -/
def State.published (s : State) (c : BitVec 32) : State := ((s.commitTotals c).holdMargin.subCommit.panelCommit).canCommit c

/-- A committed cycle as it is published and applied. -/
def State.appliedOut (s : State) (c : BitVec 32) : State := (s.published c).applyOutputs.loopApply

section

variable {sc : Scope}

theorem State.published_rest (hq : sc.square = true) (hw : sc.work = true) (ho : sc.outputs = true) (hb : sc.obj = true) (s : State) (c : BitVec 32) :
    (s.published c).rest sc = s.rest sc := by
  simp [State.published, hq, hw, ho, hb]

theorem State.appliedOut_rest (hq : sc.square = true) (hw : sc.work = true) (ho : sc.outputs = true) (hs : sc.dos = true) (hb : sc.obj = true)
    (s : State) (c : BitVec 32) : (s.appliedOut c).rest sc = s.rest sc := by
  simp [State.appliedOut, hq, hw, ho, hs, State.published_rest hq hw ho hb]

end

theorem State.pairMode_of_cfg {s t : State} (h : t.cfg 0x600 0 = s.cfg 0x600 0) : t.pairMode = s.pairMode := by
  unfold State.pairMode
  rw [h]

/-- A module outside of a pair that follows no handover and rehearses none commits on its own. -/
structure State.alone (s : State) : Prop where
  simplex : s.pairMode = false
  incoming : s.pair.incoming = none
  handover : s.pair.handover = none
  rehearsal : s.pair.rehearsal = none

theorem State.commitOwn_alone {s : State} (h : s.alone) (c : BitVec 32) : s.commitOwn c = s.appliedOut c := by
  have hmode : (s.commitTotals c).pairMode = false := (State.pairMode_of_cfg (s.commitTotals_cfg c (by decide))).trans h.simplex
  have hledger : (s.commitTotals c).sendLedger c = s.commitTotals c := if_neg (by simp [State.ledgerDue, hmode])
  have hpublished : (s.published c).pair = s.pair :=
    State.pair_of_rest (sc := { square := true, work := true, outputs := true, obj := true }) (State.published_rest rfl rfl rfl rfl s c) rfl
  have happlied : (s.appliedOut c).pair = s.pair :=
    State.pair_of_rest (sc := { square := true, work := true, outputs := true, dos := true, obj := true })
      (State.appliedOut_rest rfl rfl rfl rfl rfl s c) rfl
  have hincoming : (s.published c).incomingApply c = s.published c := if_pos (by rw [hpublished, h.incoming]; rfl)
  have hclaim : (s.appliedOut c).giveClaim c = s.appliedOut c := by
    unfold State.giveClaim
    rw [happlied, h.handover]
  have hrehearse : (s.appliedOut c).rehearseChecks c = s.appliedOut c := by
    unfold State.rehearseChecks
    rw [happlied, h.rehearsal]
  unfold State.commitOwn
  dsimp only
  rw [hledger]
  change (((s.published c).incomingApply c).applyOutputs.loopApply.giveClaim c).rehearseChecks c = s.appliedOut c
  rw [hincoming]
  change ((s.appliedOut c).giveClaim c).rehearseChecks c = s.appliedOut c
  rw [hclaim, hrehearse]

/-- A commit: what lands, shown, published and applied, with the answers to what has landed. -/
def State.committed (s : State) : State :=
  ((s.landCommands.1.showCycle s.square.current).appliedOut s.square.current).landReplies s.landCommands.2

/-- What a commit may change. -/
abbrev Scope.commit : Scope :=
  { draws := true, square := true, engines := true, work := true, pair := true, forces := true, outputs := true, dos := true, obj := true
    cycle := true }

theorem State.frame_commit {s t : State} (h : t.rest .commit = s.rest .commit) :
    t = { s with
      freeCount := t.freeCount
      mram := { s.mram with
        obj := t.mram.obj, forces := t.mram.forces, cycle := t.mram.cycle, remap := t.mram.remap, totals := t.mram.totals
        voidCopies := t.mram.voidCopies, seqs := t.mram.seqs }
      sup := t.sup, square := t.square, engines := t.engines, round := t.round, loop := t.loop, ucs := t.ucs, dos := t.dos
      cans := t.cans, fire := t.fire, pair := t.pair, totals := t.totals, raised := t.raised, crossings := t.crossings
      nextSend := t.nextSend, arrays := t.arrays, upsets := t.upsets, locks := t.locks, panel := t.panel } :=
  State.eq_graft h

theorem State.committed_rest (s : State) : s.committed.rest .commit = s.rest .commit := by
  unfold State.committed
  rw [State.landReplies_rest rfl, State.appliedOut_rest rfl rfl rfl rfl rfl, State.showCycle_rest rfl rfl rfl rfl,
    State.landCommands_rest rfl rfl rfl rfl]

theorem State.landCommands_pair (s : State) : ∃ x, s.landCommands.1.pair = { s.pair with forceCycle := x } := by
  have hover : (s.each s.landAddrs fun s a => s.overwrite 2 a 4).pair = s.pair := State.pair_of_rest (sc := {}) (by simp) rfl
  have hland : s.landCommands.1.pair = s.readied.pair :=
    State.pair_of_rest (sc := { square := true, work := true, forces := true }) (State.landCommands_rest_readied rfl rfl rfl s) rfl
  rw [hland]
  unfold State.readied
  dsimp only
  rw [hover]
  exact ⟨_, rfl⟩

theorem State.landCommands_obj (s : State) : s.landCommands.1.mram.obj = s.mram.obj :=
  State.obj_of_rest (sc := { square := true, work := true, pair := true, forces := true }) (State.landCommands_rest rfl rfl rfl rfl s) rfl

/-- What a shown cycle changes. -/
abbrev Scope.shown : Scope := { draws := true, square := true, engines := true, cycle := true }

/-- What lands leaves the module outside of a pair. -/
theorem State.alone.shown {s : State} (h : s.alone) (c : BitVec 32) : (s.landCommands.1.showCycle c).alone := by
  have hrest : (s.landCommands.1.showCycle c).rest .shown = s.landCommands.1.rest .shown := State.showCycle_rest rfl rfl rfl rfl _ c
  obtain ⟨x, hx⟩ := s.landCommands_pair
  have hpair : (s.landCommands.1.showCycle c).pair = { s.pair with forceCycle := x } := (State.pair_of_rest hrest rfl).trans hx
  have hobj : (s.landCommands.1.showCycle c).mram.obj = s.mram.obj := (State.obj_of_rest hrest rfl).trans s.landCommands_obj
  refine ⟨?_, ?_, ?_, ?_⟩
  · exact (State.pairMode_of_cfg (by unfold State.cfg; rw [hobj])).trans h.simplex
  · rw [hpair]; exact h.incoming
  · rw [hpair]; exact h.handover
  · rw [hpair]; exact h.rehearsal

theorem State.commitCycle_alone {s : State} (h : s.alone) : s.commitCycle = s.committed := by
  unfold State.commitCycle
  dsimp only
  rw [State.ownCycle_simplex h.simplex, if_pos rfl, State.commitOwn_alone (h.shown _)]
  rfl

theorem State.power_of_rest {sc : Scope} {s t : State} (h : t.rest sc = s.rest sc) (hc : sc.config = false) : t.power = s.power := by
  have hcond := congrArg State.power h
  simpa only [State.rest, hc, cond_false] using hcond

theorem execCommit_alone {s : State} (h : s.alone) (hdue : s.commitDue = true) (hheld : s.commitHeld = none) (hrestart : s.power.restart = none)
    (hwarn : s.power.warning = none) : execCommit s = .next s.committed := by
  have hpower : s.committed.power = s.power := State.power_of_rest s.committed_rest rfl
  have hstore : s.committed.holdupStore = s.committed := if_pos (by simp [State.finalApplied, hpower, hwarn])
  have hstay : s.committed.restartIfDue = s.committed := by
    unfold State.restartIfDue
    rw [hpower, hrestart]
  unfold execCommit
  rw [if_neg (by simp [hdue]), hheld]
  dsimp only
  rw [State.commitCycle_alone h, hstore, hstay]

/-! ## The Town Square after a commit -/

theorem State.published_square (s : State) (c : BitVec 32) : (s.published c).square = { s.square with totIncr := [] } := by
  have htotals : (s.each (List.range 64) (State.commitTotal · c)).square = s.square :=
    State.square_of_rest (sc := { work := true, outputs := true, obj := true }) (by simp) rfl
  have hlater : (s.published c).square = (s.commitTotals c).square :=
    State.square_of_rest (sc := { work := true, outputs := true }) (by simp [State.published]) rfl
  rw [hlater, State.commitTotals]
  dsimp only
  rw [htotals]

theorem State.applyChannels_square (s : State) :
    s.applyChannels.square = { s.square with keptUc := s.applyChannels.square.keptUc, keptDo := s.applyChannels.square.keptDo } := by
  let t := (s.each (List.range 32) State.doApply).each (List.range 32) State.ucCalibrated
  let u := if t.runs 7 then t.each (t.ucOutputs.filter fun n => t.stopSafe || (t.loopOfChannel n).isNone) State.ucApply else t
  have hu : u.square = s.square := State.square_of_rest (sc := { work := true, dos := true }) (by simp [u, t]) rfl
  change u.keepOutputs.square = { s.square with keptUc := u.keepOutputs.square.keptUc, keptDo := u.keepOutputs.square.keptDo }
  rw [← hu]
  rfl

theorem State.appliedOut_square (s : State) (c : BitVec 32) : (s.appliedOut c).square =
    { s.square with totIncr := [], keptUc := (s.appliedOut c).square.keptUc, keptDo := (s.appliedOut c).square.keptDo } := by
  have hlater : (s.appliedOut c).square = (s.published c).applyChannels.square :=
    State.square_of_rest (sc := { work := true, outputs := true }) (by simp [State.appliedOut, State.applyOutputs]) rfl
  rw [hlater, State.applyChannels_square, State.published_square]

/-- What a commit leaves in the Town Square, in terms of the square with the committed copy (R80). -/
theorem State.committed_square (s : State) : s.committed.square =
    { (s.landCommands.1.showCycle s.square.current).square with
      totIncr := [], keptUc := s.committed.square.keptUc, keptDo := s.committed.square.keptDo } := by
  have hreplies : s.committed.square = ((s.landCommands.1.showCycle s.square.current).appliedOut s.square.current).square :=
    State.square_of_rest (sc := { outputs := true }) (State.landReplies_rest rfl _ _) rfl
  rw [hreplies, State.appliedOut_square]

/-- The cycle's number is the last one committed, and the next follows (R83). -/
theorem State.committed_cycle (s : State) : s.committed.square.phase = .idle ∧ s.committed.square.last = s.square.current ∧
    s.committed.square.current = nextCycle s.square.current := by
  rw [State.committed_square]
  exact ⟨rfl, rfl, rfl⟩

theorem State.showCycle_bytes (s : State) (c : BitVec 32) : (s.showCycle c).square.mem = s.square.mem ∧
    (s.showCycle c).square.poison = s.square.poison ∧ (s.showCycle c).square.scratch = s.square.scratch ∧
    (s.showCycle c).square.seals = s.square.seals ∧ (s.showCycle c).square.prog = s.square.prog :=
  ⟨rfl, rfl, rfl, rfl, rfl⟩

theorem Square.bytes_of_kept {q r : Square} {a b c} (h : q = { r with totIncr := a, keptUc := b, keptDo := c }) :
    q.mem = r.mem ∧ q.poison = r.poison ∧ q.scratch = r.scratch ∧ q.seals = r.seals ∧ q.prog = r.prog := by
  subst h
  exact ⟨rfl, rfl, rfl, rfl, rfl⟩

/-- The bytes and marks of the square are those that what has landed left. -/
theorem State.committed_bytes (s : State) : s.committed.square.mem = s.landCommands.1.square.mem ∧
    s.committed.square.poison = s.landCommands.1.square.poison ∧ s.committed.square.scratch = s.landCommands.1.square.scratch ∧
    s.committed.square.seals = s.landCommands.1.square.seals ∧ s.committed.square.prog = s.landCommands.1.square.prog := by
  obtain ⟨hmem, hpoison, hscratch, hseals, hprog⟩ := s.landCommands.1.showCycle_bytes s.square.current
  obtain ⟨hmem', hpoison', hscratch', hseals', hprog'⟩ := Square.bytes_of_kept s.committed_square
  exact ⟨hmem'.trans hmem, hpoison'.trans hpoison, hscratch'.trans hscratch, hseals'.trans hseals, hprog'.trans hprog⟩

theorem Square.word_of_bytes {q r : Square} (hmem : r.mem = q.mem) (hpoison : r.poison = q.poison) (hscratch : r.scratch = q.scratch)
    (hseals : r.seals = q.seals) (p : Nat) : r.word p = q.word p ∧ r.poisoned p = q.poisoned p := by
  refine agree.word (agree_of_get hseals fun k _ => ⟨by rw [hmem], by rw [hpoison], ?_⟩)
  unfold Square.fresh
  rw [hscratch]

theorem State.image_of_rest {sc : Scope} {s t : State} (h : t.rest sc = s.rest sc) (hc : sc.config = false) : t.image = s.image := by
  have hbanks := congrArg (fun x : State => x.mram.banks) h
  have hbank := congrArg (fun x : State => x.mram.runBank) h
  simp only [State.rest, Mram.rest, hc, cond_false] at hbanks hbank
  unfold State.image State.loaded State.bank State.runBankNo
  rw [hbanks, hbank]

/-! ## What stands in the committed copy -/

section

variable {s : State} (hquiet : s.quiet = true) (hwf : s.squareWf = true) (hbad : s.square.commitBad = [])
  (hkinds : ∀ y ∈ s.square.landings, s.landsNow y = true → y.kind = .writeVars ∨ y.kind = .silent)

include hquiet

theorem State.commitHeld_quiet : s.commitHeld = none := by
  obtain ⟨hlocks, hupsets⟩ := s.quiet_iff.1 hquiet
  have hland : s.landAddrs.findSome? (fun a => s.writeWaits 2 a 4) = none := by simp [State.writeWaits_clear hupsets hlocks]
  have hspans : (commitSpans.findSome? fun r => if s.spanLocked 2 r.1 r.2.2 then some s else s.writeWaits 2 r.2.1 r.2.2) = none := by
    simp [State.writeWaits_clear hupsets hlocks, State.spanLocked_clear hlocks]
  have hwords : (commitSpans.flatMap fun r => s.badWords 2 r.1 r.2.2) = [] := by simp [State.badWords_clear hupsets]
  unfold State.commitHeld
  dsimp only
  rw [hland, hspans, hwords]
  rfl

/-- Without an error nothing but the list of landings and the mark of a partner's force cycle is set before what is due lands. -/
theorem State.readied_quiet : ∃ x, s.readied = { s with square := { s.square with landings := s.square.landings.filter fun y => !s.landsNow y }
                                                        pair := { s.pair with forceCycle := x } } := by
  obtain ⟨hlocks, hupsets⟩ := s.quiet_iff.1 hquiet
  have hover : (s.each s.landAddrs fun s a => s.overwrite 2 a 4) = s := State.each_eq_self s _ _ fun a _ => State.overwrite_clear hupsets 2 a 4
  unfold State.readied
  dsimp only
  rw [hover]
  exact ⟨_, rfl⟩

omit hquiet

include hkinds

/-- What lands, in the order of acceptance, with what comes of it. -/
theorem State.landedWords_eq : s.landedWords = (s.readied.landWrites (s.dueNow.map fun x => (x, s.readied.landsAs x))).forceWorking := by
  have hwords : ∀ x ∈ s.dueNow, x.kind = .writeVars ∨ x.kind = .silent := fun x hx => by
    obtain ⟨hmem, hnow⟩ := List.mem_filter.1 hx
    exact hkinds x hmem hnow
  rw [State.landedWords, State.landAll_words hwords]

end

end Sys2Proof.Machine
end

/-! # What a commit commits

The committed copy takes the working copy, with the landings and the forces of this commit; LOOP takes the set-points and the digital outputs their
bits of Q (R50, R80, R97). -/

section
namespace Sys2Proof.Machine
open Sys2Proof SquareLaws

/-! ## The committed copy -/

theorem State.readTotals_square (s : State) : s.readTotals.square = s.square :=
  State.square_of_rest (sc := { work := true }) (State.readTotals_rest rfl s) rfl

/-- With nothing found bad the commit copies, and marks nothing. -/
theorem State.copyCommitted_square {s : State} (hbad : s.square.commitBad = []) (l : List Nat) :
    (s.copyCommitted l).square = { s.square.commitCopy with commitBad := [] } := by
  have hspans : (s.each commitSpans fun s r => (s.readSpan 2 r.1 r.2.2).overwrite 2 r.2.1 r.2.2).square = s.square :=
    State.square_of_rest (sc := {}) (by simp) rfl
  unfold State.copyCommitted
  dsimp only
  rw [hspans, hbad]
  simp [Square.markAll, commitSpans]

theorem Square.bytes_of_commitBad {q r : Square} {l : List Nat} (h : r = { q with commitBad := l }) :
    r.mem = q.mem ∧ r.poison = q.poison ∧ r.scratch = q.scratch ∧ r.seals = q.seals := by
  subst h
  exact ⟨rfl, rfl, rfl, rfl⟩

section

variable {s : State} (hquiet : s.quiet = true) (hwf : s.squareWf = true) (hbad : s.square.commitBad = []) (hm : s.image.mBytes ≤ 131072)
  (hkinds : ∀ y ∈ s.square.landings, s.landsNow y = true → y.kind = .writeVars ∨ y.kind = .silent)

include hquiet in
theorem State.readied_beside (p : Nat) : s.readied.wordAddr .work = s.wordAddr .work ∧ agree s.square s.readied.square p p ∧
    (s.squareWf = true → s.readied.square.canonical) ∧ s.readied.mram = s.mram ∧ s.readied.locks = s.locks ∧ s.readied.upsets = s.upsets ∧
    s.readied.square.commitBad = s.square.commitBad := by
  obtain ⟨x, hx⟩ := State.readied_quiet hquiet
  rw [hx]
  exact ⟨rfl, agree_refl p, (State.squareWf_iff s).1, rfl, rfl, rfl, rfl⟩

include hkinds in
theorem State.landedWords_writes : s.readied.writes s.landedWords := by
  rw [State.landedWords_eq hkinds]
  exact (State.landWrites_writes _ _).trans (State.forceWorking_writes _)

include hquiet hwf hbad hkinds in
/-- Without an error the committed parts take what stands in the working parts, and nothing else changes (R80). -/
theorem State.landCommands_square : s.landedWords.square.canonical ∧
    s.landCommands.1.square = { s.landedWords.square.commitCopy with commitBad := [] } := by
  obtain ⟨-, -, hcanonical, -, -, -, hnone⟩ := State.readied_beside hquiet 0
  have hwrites := State.landedWords_writes hkinds
  have hbad' : s.landedWords.square.commitBad = [] := by
    rw [hwrites.frame]
    exact hnone.trans hbad
  refine ⟨hwrites.canonical (hcanonical hwf), ?_⟩
  rw [State.landCommands_eq]
  exact (State.readTotals_square _).trans (State.copyCommitted_square hbad' _)

include hquiet hwf hbad hm hkinds in
/-- A written word of a copied area reads in the committed copy as the working copy has it once all has landed. -/
theorem State.committed_word {a : Area} {w p : Nat} (hcopied : copied a w = true) (hp : s.wordAddr .work a w = some p)
    (hwritten : ∀ k < 4, s.landedWords.square.fresh (p + k) = false) :
    s.committed.sqWord .done a w = (s.landedWords.square.word p, s.landedWords.square.poisoned p) := by
  obtain ⟨r, hr, hlo, hhi, hdone⟩ := State.copied_place hcopied hp hm
  obtain ⟨hcanonical, hsquare⟩ := State.landCommands_square hquiet hwf hbad hkinds
  obtain ⟨hmem, hpoison, hscratch, hseals, -⟩ := s.committed_bytes
  obtain ⟨hmem', hpoison', hscratch', hseals'⟩ := Square.bytes_of_commitBad hsquare
  obtain ⟨hword, hmark⟩ := (agree_commitCopy hcanonical hr hlo hhi hwritten).word
  obtain ⟨hword', hmark'⟩ := Square.word_of_bytes (hmem.trans hmem') (hpoison.trans hpoison') (hscratch.trans hscratch')
    (hseals.trans hseals') (p - r.1 + r.2.1)
  have hplace := hdone s.committed (State.image_of_rest s.committed_rest rfl)
  unfold State.sqWord
  rw [hplace]
  dsimp only
  rw [hword', hmark', hword, hmark]

include hquiet in
theorem State.readied_apart {p : Nat} {a : Area} {w : Nat} (h : s.apart p a w) : s.readied.apart p a w := fun q hq =>
  h q (by rw [← (State.readied_beside hquiet p).1]; exact hq)

/-- The landings with what comes of them. -/
def State.judgedLandings (s : State) (l : List Landing) : List (Landing × Landed) := l.map fun x => (x, s.readied.landsAs x)

theorem State.landWrites_forces (s : State) (l : List (Landing × Landed)) : (s.landWrites l).mram.forces = s.mram.forces := by
  rw [(s.landWrites_writes l).frame]

theorem State.mem_judgedLandings {s : State} {P : Landing → Prop} {l : List Landing} (h : ∀ x ∈ l, P x) :
    ∀ y ∈ s.judgedLandings l, P y.1 := fun y hy => by
  obtain ⟨x, hx, rfl⟩ := List.mem_map.1 hy
  exact h x hx

include hquiet hkinds in
/-- What lands beside a word and what is forced beside it leave the word. -/
theorem State.landedWords_beside {p : Nat} (hland : ∀ y ∈ s.dueNow, ∀ u ∈ y.words, s.apart p u.at_.area u.at_.word)
    (hforce : ∀ f ∈ s.mram.forces, s.apart p f.area f.offset) : agree s.square s.landedWords.square p p := by
  obtain ⟨-, hsame, -, hmram, -⟩ := State.readied_beside hquiet p
  have hwrites : State.beside p s.readied (s.readied.landWrites (s.judgedLandings s.dueNow)) :=
    State.landWrites_beside (State.mem_judgedLandings (P := fun y => ∀ u ∈ y.words, s.readied.apart p u.at_.area u.at_.word) fun y hy u hu =>
      State.readied_apart hquiet (hland y hy u hu))
  have hforces : State.beside p (s.readied.landWrites (s.judgedLandings s.dueNow)) _ := State.forceWorking_beside fun f hf => by
    rw [State.landWrites_forces, hmram] at hf
    exact hwrites.writes.apart (State.readied_apart hquiet (hforce f hf))
  rw [State.landedWords_eq hkinds]
  exact hsame.trans (hwrites.trans hforces).same

include hquiet hkinds in
/-- The last landing of a word that is not forced stands in the working copy. -/
theorem State.landedWords_lands {x : Landing} {l r : List Landing} {v : LandWord} {b c : List LandWord} {p : Nat} (hdue : s.dueNow = l ++ x :: r)
    (hwords : x.words = b ++ v :: c) (hmask : v.mask = BitVec.allOnes 32) (hp : s.wordAddr .work v.at_.area v.at_.word = some p)
    (hfree : ∀ u ∈ x.words, s.forceOn u.at_.area u.at_.word = none) (hc : ∀ u ∈ c, s.apart p u.at_.area u.at_.word)
    (hr : ∀ y ∈ r, ∀ u ∈ y.words, s.apart p u.at_.area u.at_.word) (hforce : ∀ f ∈ s.mram.forces, s.apart p f.area f.offset) :
    s.landedWords.stores p v.value := by
  obtain ⟨haddr, -, -, hmram, -⟩ := State.readied_beside hquiet p
  have hjudged : s.judgedLandings s.dueNow = s.judgedLandings l ++ (x, .write) :: s.judgedLandings r := by
    have hwrite : s.readied.landsAs x = .write := by
      refine if_neg ?_
      simp only [List.any_eq_true, not_exists, not_and]
      intro u hu
      rw [State.forcedWord, State.forceOn_congr hmram, hfree u hu]
      decide
    rw [hdue, State.judgedLandings, List.map_append, List.map_cons, hwrite]
    rfl
  have hland : (s.readied.landWrites (s.judgedLandings s.dueNow)).stores p v.value := by
    rw [hjudged]
    refine State.landWrites_stores hwords hmask (by rw [haddr]; exact hp) (fun u hu => State.readied_apart hquiet (hc u hu)) ?_
    exact State.mem_judgedLandings (P := fun y => ∀ u ∈ y.words, s.readied.apart p u.at_.area u.at_.word) fun y hy u hu =>
      State.readied_apart hquiet (hr y hy u hu)
  rw [State.landedWords_eq hkinds]
  refine hland.beside (State.forceWorking_beside fun f hf => ?_)
  have hmem : f ∈ s.mram.forces := by rw [← hmram, ← State.landWrites_forces]; exact hf
  exact (State.landWrites_writes _ _).apart (State.readied_apart hquiet (hforce f hmem))

include hquiet hkinds in
/-- The last force of a word stands in the working copy. -/
theorem State.landedWords_forced {f : Force} {b c : List Force} {p : Nat} (hforces : s.mram.forces = b ++ f :: c)
    (hcopied : copied f.area f.offset = true) (hp : s.wordAddr .work f.area f.offset = some p) (hc : ∀ g ∈ c, s.apart p g.area g.offset) :
    s.landedWords.stores p f.value := by
  obtain ⟨haddr, -, -, hmram, -⟩ := State.readied_beside hquiet p
  have hw := s.readied.landWrites_writes (s.judgedLandings s.dueNow)
  rw [State.landedWords_eq hkinds]
  refine State.forceWorking_stores (b := b) (c := c) ?_ hcopied ?_ fun g hg => ?_
  · rw [State.landWrites_forces, hmram, hforces]
  · rw [State.writes.wordAddr (State.landWrites_writes _ _), haddr]
    exact hp
  · exact (State.landWrites_writes _ _).apart (State.readied_apart hquiet (hc g hg))

end

/-! ## What LOOP and the digital outputs take (R80) -/

theorem State.loop_of_rest {sc : Scope} {s t : State} (h : t.rest sc = s.rest sc) (hw : sc.work = false) : t.loop = s.loop := by
  have hcond := congrArg State.loop h
  simpa only [State.rest, hw, cond_false] using hcond

theorem State.dos_of_rest {sc : Scope} {s t : State} (h : t.rest sc = s.rest sc) (hs : sc.dos = false) : t.dos = s.dos := by
  have hcond := congrArg State.dos h
  simpa only [State.rest, hs, cond_false] using hcond

theorem State.islands_of_rest {sc : Scope} {s t : State} (h : t.rest sc = s.rest sc) (hi : sc.inputs = false) : t.islands = s.islands := by
  have hcond := congrArg State.islands h
  simpa only [State.rest, hi, cond_false] using hcond

theorem State.service_of_rest {sc : Scope} {s t : State} (h : t.rest sc = s.rest sc) : t.service = s.service := by
  have hcond := congrArg State.service h
  simpa only [State.rest] using hcond

theorem State.forces_of_rest {sc : Scope} {s t : State} (h : t.rest sc = s.rest sc) (hf : sc.forces = false) :
    t.mram.forces = s.mram.forces := by
  have hcond := congrArg (fun x : State => x.mram.forces) h
  simpa only [State.rest, Mram.rest, hf, cond_false] using hcond

/-- A committed cycle as it is published, before the outputs take it. -/
def State.commitPublished (s : State) : State := (s.landCommands.1.showCycle s.square.current).published s.square.current

theorem State.committed_eq (s : State) : s.committed = s.commitPublished.applyOutputs.loopApply.landReplies s.landCommands.2 := rfl

theorem State.loopApply_applied (s : State) : s.loopApply.loop.applied = Tab.slice s.loopApply.square.mem (sqLSet + 16384) 16384 := rfl

theorem State.committed_applied (s : State) : s.committed.loop.applied = Tab.slice s.committed.square.mem (sqLSet + 16384) 16384 := by
  have hreplies : s.committed.rest { outputs := true } = s.commitPublished.applyOutputs.loopApply.rest { outputs := true } := State.landReplies_rest rfl _ _
  rw [State.loop_of_rest hreplies rfl, State.square_of_rest hreplies rfl]
  exact s.commitPublished.applyOutputs.loopApply_applied

/-! ### One output -/

/-- A record leaves the outputs. -/
theorem State.do_ite_raise (c : Bool) (s : State) (k : RecKind) (v : Word) (n : Nat) : (if c then s.raise k v else s).do_ n = s.do_ n := by
  cases c
  · rfl
  · exact congrArg (fun d : Tab Do => d.get {} n) (State.raise_dos s k v)

theorem State.doRefresh_other (s : State) {m n : Nat} (h : n ≠ m) : (s.doRefresh m).do_ n = s.do_ n := State.setDo_other _ _ h

theorem State.doRefresh_selected (s : State) (n : Nat) : ((s.doRefresh n).do_ n).selected = (s.do_ n).selected := by simp [State.doRefresh]

theorem State.doApply_other (s : State) {m n : Nat} (h : n ≠ m) : (s.doApply m).do_ n = s.do_ n := by
  unfold State.doApply
  dsimp only
  rw [State.do_ite_raise, State.doRefresh_other _ h, State.setDo_other _ _ h, State.setDo_other _ _ h]

/-- A retry of an output is no new selection. -/
theorem Do.selected_ite_retry (c : Bool) (d : Do) (now : Nat) : (if c then d.retry now else d).selected = d.selected := by
  cases c
  · rfl
  · rw [if_pos rfl, Do.retry]
    split <;> rfl

theorem State.doApply_selected (s : State) (n : Nat) : ((s.doApply n).do_ n).selected = (s.doSelect n).1 := by
  unfold State.doApply
  dsimp only
  rw [State.do_ite_raise, State.doRefresh_selected, State.setDo_same]
  exact Do.selected_ite_retry _ _ _

theorem State.each_doApply_other {l : List Nat} {n : Nat} (h : n ∉ l) (s : State) : (s.each l State.doApply).do_ n = s.do_ n := by
  induction l generalizing s with
  | nil => rfl
  | cons m l ih =>
    obtain ⟨hne, hl⟩ := List.ne_and_not_mem_of_not_mem_cons h
    exact (ih hl (s.doApply m)).trans (s.doApply_other hne)

/-- Where an output's row gives the same state however the others stand, that state is selected. -/
theorem State.each_doApply_selected {l : List Nat} {n : Nat} (hn : n ∈ l) {s : State} {b : Bool}
    (h : ∀ t : State, (∀ sc : Scope, sc.dos = true → t.rest sc = s.rest sc) → (t.doSelect n).1 = b) :
    ((s.each l State.doApply).do_ n).selected = b := by
  induction l generalizing s with
  | nil => cases hn
  | cons m l ih =>
    by_cases hl : n ∈ l
    · exact ih hl (s := s.doApply m) fun t ht => h t fun sc hs => (ht sc hs).trans (State.doApply_rest hs s m)
    · obtain rfl : n = m := (List.mem_cons.1 hn).resolve_right hl
      exact (congrArg Do.selected (State.each_doApply_other hl (s.doApply n))).trans ((s.doApply_selected n).trans (h s fun _ _ => rfl))

/-- An enabled output that nothing else selects takes its bit of the committed Q (R237). -/
theorem State.doSelect_committed {t : State} {n : Nat} {w : Word} (hstandby : t.standby = false) (hleft : t.leftService = false)
    (hstop : t.stopSafe = false) (hruns : t.runs 8 = true) (henable : t.doEnable n = true) (hfree : t.forceOn .Q 0 = none)
    (hword : t.sqWord .done .Q 0 = (w, false)) : t.doSelect n = (bit w n, false) := by
  unfold State.doSelect State.doRows
  rw [if_neg (by simp [hstandby, henable]), if_neg (by simp [hleft, hstop]), if_neg (by simp [hruns]), hfree]
  dsimp only
  rw [hword]
  rfl

/-! ### The state in which the outputs are selected -/

theorem State.commitPublished_cfg (s : State) {i k : Nat} (h : okey i k < totalKeys) : s.commitPublished.cfg i k = s.cfg i k := by
  have hpublished : s.commitPublished.mram.obj = ((s.landCommands.1.showCycle s.square.current).commitTotals s.square.current).mram.obj :=
    State.obj_of_rest (sc := { square := true, work := true, outputs := true }) (by simp [State.commitPublished, State.published]) rfl
  have hshown : (s.landCommands.1.showCycle s.square.current).mram.obj = s.mram.obj :=
    (State.obj_of_rest (sc := .shown) (State.showCycle_rest rfl rfl rfl rfl _ _) rfl).trans s.landCommands_obj
  calc s.commitPublished.cfg i k
      _ = ((s.landCommands.1.showCycle s.square.current).commitTotals s.square.current).cfg i k := by unfold State.cfg; rw [hpublished]
      _ = (s.landCommands.1.showCycle s.square.current).cfg i k := State.commitTotals_cfg _ _ h
      _ = s.cfg i k := by unfold State.cfg; rw [hshown]

theorem State.commitPublished_pair (s : State) : ∃ x, s.commitPublished.pair = { s.pair with forceCycle := x } := by
  have hrest : s.commitPublished.pair = s.landCommands.1.pair :=
    State.pair_of_rest (sc := { draws := true, square := true, engines := true, work := true, outputs := true, obj := true, cycle := true })
      ((State.published_rest rfl rfl rfl rfl _ _).trans (State.showCycle_rest rfl rfl rfl rfl _ _)) rfl
  rw [hrest]
  exact s.landCommands_pair

theorem State.commitPublished_rest (s : State) : s.commitPublished.rest .commit = s.rest .commit := by
  unfold State.commitPublished
  rw [State.published_rest rfl rfl rfl rfl, State.showCycle_rest rfl rfl rfl rfl, State.landCommands_rest rfl rfl rfl rfl]

theorem State.commitPublished_square (s : State) : s.commitPublished.square.mem = s.committed.square.mem ∧
    s.commitPublished.square.poison = s.committed.square.poison ∧ s.commitPublished.square.scratch = s.committed.square.scratch ∧
    s.commitPublished.square.seals = s.committed.square.seals ∧ s.commitPublished.square.prog = s.committed.square.prog := by
  have hsquare : s.commitPublished.square = { (s.landCommands.1.showCycle s.square.current).square with totIncr := [] } :=
    State.published_square _ _
  rw [hsquare, s.committed_square]
  exact ⟨rfl, rfl, rfl, rfl, rfl⟩

theorem State.committed_rest_published (s : State) : s.committed.rest { square := true, work := true, outputs := true, dos := true } =
    s.commitPublished.rest { square := true, work := true, outputs := true, dos := true } := by
  rw [State.committed_eq, State.landReplies_rest rfl]
  simp [State.applyOutputs, State.commitPublished]

theorem State.committed_do (s : State) (n : Nat) : s.committed.do_ n = (s.commitPublished.each (List.range 32) State.doApply).do_ n := by
  refine congrArg (fun d : Tab Do => d.get {} n) ?_
  refine State.dos_of_rest (sc := { square := true, work := true, outputs := true }) ?_ rfl
  rw [State.committed_eq, State.landReplies_rest rfl]
  simp only [State.applyOutputs, State.applyChannels, State.loopApply_rest, State.fireApply_rest, State.keepOutputs_rest]
  split <;> simp

section

variable {s : State} (hquiet : s.quiet = true) (hwf : s.squareWf = true) (hbad : s.square.commitBad = [])
  (hkinds : ∀ y ∈ s.square.landings, s.landsNow y = true → y.kind = .writeVars ∨ y.kind = .silent)

include hquiet hwf hbad hkinds

theorem State.committed_prog : s.committed.square.prog = s.square.prog := by
  obtain ⟨-, -, -, -, hprog⟩ := s.committed_bytes
  obtain ⟨x, hx⟩ := State.readied_quiet hquiet
  rw [hprog, (State.landCommands_square hquiet hwf hbad hkinds).2]
  change s.landedWords.square.prog = s.square.prog
  rw [(State.landedWords_writes hkinds).frame, hx]

/-- A digital output that nothing else selects takes its bit of the committed Q. -/
theorem State.committed_selected {n : Nat} {w : Word} (hn : n < 32) (hstandby : s.standby = false) (hleft : s.leftService = false)
    (hstop : s.stopSafe = false) (hruns : s.runs 8 = true) (henable : s.doEnable n = true) (hfree : s.committed.forceOn .Q 0 = none)
    (hword : s.committed.sqWord .done .Q 0 = (w, false)) : (s.committed.do_ n).selected = bit w n := by
  obtain ⟨x, hpair⟩ := s.commitPublished_pair
  obtain ⟨hmem, hpoison, hscratch, hseals, hprog⟩ := s.commitPublished_square
  rw [State.committed_do]
  refine State.each_doApply_selected (List.mem_range.2 hn) fun t ht => congrArg Prod.fst (State.doSelect_committed ?_ ?_ ?_ ?_ ?_ ?_ ?_)
  all_goals
    have hself := ht { dos := true } rfl
    have hcommit : t.rest .commit = s.rest .commit := (ht .commit rfl).trans s.commitPublished_rest
    have hcfg : ∀ {i k : Nat}, okey i k < totalKeys → t.cfg i k = s.cfg i k := fun {i k} h => by
      rw [← s.commitPublished_cfg h]
      unfold State.cfg
      rw [State.obj_of_rest hself rfl]
  · rw [← hstandby]
    unfold State.standby
    rw [State.pair_of_rest hself rfl, hpair]
  · rw [← hleft]
    unfold State.leftService
    rw [State.service_of_rest hcommit]
  · rw [← hstop]
    unfold State.stopSafe
    rw [State.square_of_rest hself rfl, hprog, State.committed_prog hquiet hwf hbad hkinds, hcfg (by decide)]
  · rw [← hruns]
    unfold State.runs State.island
    rw [State.islands_of_rest hcommit rfl]
  · rw [← henable]
    unfold State.doEnable State.doCfg
    rw [hcfg (by simp only [okey, totalKeys]; omega)]
  · rw [← hfree]
    unfold State.forceOn
    rw [State.forces_of_rest ((ht _ rfl).trans s.committed_rest_published.symm) rfl]
  · rw [← hword]
    obtain ⟨hval, hmark⟩ := Square.word_of_bytes hmem hpoison hscratch hseals sqCommitted
    have hplace : ∀ u : State, u.sqWord .done .Q 0 = (u.square.word sqCommitted, u.square.poisoned sqCommitted) := fun _ => rfl
    rw [hplace, hplace, State.square_of_rest hself rfl, hval, hmark]

end

end Sys2Proof.Machine
end

/-! # The rows of a cycle

Start, freeze, commit, watchdog and retained image of a simplex module (R79 to R84, R103), assembled from the facts about each. -/

section
namespace Sys2Proof.Machine
open Sys2Proof SquareLaws

theorem execCycleStart_held {s t : State} (h : s.cycleDue = true) (hsw : s.switchHeld s.startCycle = some t) : execCycleStart s = .next t := by
  unfold execCycleStart
  rw [if_neg (by simp [h]), hsw]

theorem execFreeze_held {s t : State} (h : s.freezeDue = true) (hheld : s.freezeHeld = some t) : execFreeze s = .next t := by
  unfold execFreeze
  rw [if_neg (by simp [h]), hheld]

/-! ## A commit while no byte carries an error -/

section

variable {s : State} (hquiet : s.quiet = true) (hwf : s.squareWf = true) (hbad : s.square.commitBad = []) (hm : s.image.mBytes ≤ 131072)
  (hkinds : ∀ y ∈ s.square.landings, s.landsNow y = true → y.kind = .writeVars ∨ y.kind = .silent)

include hquiet hwf hbad hm hkinds

/-- A word that nothing lands on and nothing forces is committed as it stands in the working copy. -/
theorem State.committed_working {a : Area} {w p : Nat} (hcopied : copied a w = true) (hp : s.wordAddr .work a w = some p)
    (hwritten : ∀ k < 4, s.square.fresh (p + k) = false) (hland : ∀ y ∈ s.dueNow, ∀ u ∈ y.words, s.apart p u.at_.area u.at_.word)
    (hforce : ∀ f ∈ s.mram.forces, s.apart p f.area f.offset) : s.committed.sqWord .done a w = s.sqWord .work a w := by
  have hsame := State.landedWords_beside hquiet hkinds hland hforce
  obtain ⟨hword, hmark⟩ := hsame.word
  rw [State.committed_word hquiet hwf hbad hm hkinds hcopied hp (hsame.written hwritten), hword, hmark]
  unfold State.sqWord
  rw [hp]

theorem State.committed_stored {a : Area} {w p : Nat} {v : Word} (hcopied : copied a w = true) (hp : s.wordAddr .work a w = some p)
    (h : s.landedWords.stores p v) : s.committed.sqWord .done a w = (v, false) := by
  rw [State.committed_word hquiet hwf hbad hm hkinds hcopied hp h.written, h.word, h.clean]

end

/-- Settles O51: each clause is a fact about one stage of the cycle, and what a stage may change is the scope of its steps. -/
theorem cycleRows : Obligations.CycleRows := by
  unfold Obligations.CycleRows
  intro s hsimplex hincoming hhandover hrehearsal
  have halone : s.alone := ⟨hsimplex, hincoming, hhandover, hrehearsal⟩
  refine ⟨fun t hdue hsw => execCycleStart_held hdue hsw, fun hdue hsw => ?start, fun hdue hheld => ?freeze,
    fun t hdue hheld => execFreeze_held hdue hheld, fun hdue hheld hrestart hwarn => ?commit,
    fun hdue hrestart hwarn hquiet hwf hbad hm hkinds => ?contents, fun e he hphase hrun hon hlate => ?watchdog,
    fun hfull hphase hwarn hpast hcommitted hlocked => ?held, fun hfull hphase hwarn hpast hquiet => State.retain_row hfull hphase hwarn hpast hquiet⟩
  case start =>
    obtain ⟨t, hexec, hrest, hkept⟩ := State.cycleStart_row hsimplex hdue hsw
    exact ⟨t, hexec, State.frame_start hrest, hkept⟩
  case freeze =>
    obtain ⟨t, hexec, hrest, hkept⟩ := State.freeze_row hsimplex hincoming hdue hheld
    exact ⟨t, hexec, State.frame_freeze hrest, hkept⟩
  case commit => exact ⟨s.committed, execCommit_alone halone hdue hheld hrestart hwarn, State.frame_commit s.committed_rest, s.committed_cycle⟩
  case contents =>
    refine ⟨s.committed, execCommit_alone halone hdue (State.commitHeld_quiet hquiet) hrestart hwarn, ?_, ?_, ?_, s.committed_applied, ?_⟩
    · intro a w p hcopied hp hwritten hland hforce
      exact State.committed_working hquiet hwf hbad hm hkinds hcopied hp hwritten hland hforce
    · intro x l r v b c p hlast hwords hmask hcopied hp hfree hc hr hforce
      exact State.committed_stored hquiet hwf hbad hm hkinds hcopied hp
        (State.landedWords_lands hquiet hkinds hlast hwords hmask hp hfree hc hr hforce)
    · intro f b c p hforces hcopied hp hc
      exact State.committed_stored hquiet hwf hbad hm hkinds hcopied hp (State.landedWords_forced hquiet hkinds hforces hcopied hp hc)
    · intro n w hn hstandby hleft hstop hruns henable hfree hword
      exact State.committed_selected hquiet hwf hbad hkinds hn hstandby hleft hstop hruns henable hfree hword
  case watchdog =>
    obtain ⟨t, hexec, hrest, hkept⟩ := State.watchdog_row he hphase hrun hon hlate
    exact ⟨t, hexec, State.frame_watchdog hrest, hkept⟩
  case held =>
    refine (execRetainPeriod_due hfull hphase hwarn hpast).trans (if_pos ?_)
    rw [hcommitted, hlocked]
    rfl

end Sys2Proof.Machine
end

/-! # Functions that leave the bytes of the Town Square

Functions of the model that do not write the Town Square: after each one its bytes and marks stand in the canonical form exactly if they stood in it
before (R85, R131, R345). -/

section
namespace Sys2Proof.Machine
open Sys2Proof

/-- The form concerns the bytes and their marks alone. -/
@[simp] theorem Square.canonical_mk {q : Square} {scratch seals frozenB committedB last current phase startAt freezeAt phaseAt freezeUs executeUs commitUs
    applyUs lastNs minNs maxNs fingerprint shownProg shownBank shownForced ownershipFaults abandoned overruns landings prog runStop switch first nextFirst
    newEdges committedOnce load loadFor totIncr boundaryNo metered retainAt finalDone forcesChanged frozenOnce commits announced keptTimers keptCounters
    keptUc keptDo commitBad} :
    Square.canonical (Square.mk q.mem q.poison scratch seals frozenB committedB last current phase startAt freezeAt phaseAt freezeUs executeUs commitUs
      applyUs lastNs minNs maxNs fingerprint shownProg shownBank shownForced ownershipFaults abandoned overruns landings prog runStop switch first
      nextFirst newEdges committedOnce load loadFor totIncr boundaryNo metered retainAt finalDone forcesChanged frozenOnce commits announced keptTimers
      keptCounters keptUc keptDo commitBad) ↔ q.canonical := Iff.rfl

@[simp] theorem Square.ite_canonical (c : Prop) [Decidable c] (q r : Square) :
    (if c then q else r).canonical ↔ if c then q.canonical else r.canonical := by split <;> rfl

@[simp] theorem State.ite_square (c : Prop) [Decidable c] (s t : State) : (if c then s else t).square = if c then s.square else t.square := by
  split <;> rfl

@[simp] theorem State.each_canonical {α : Type} (s : State) (l : List α) (f : State → α → State)
    (h : ∀ s x, (f s x).square.canonical ↔ s.square.canonical) : (s.each l f).square.canonical ↔ s.square.canonical := by
  induction l generalizing s with
  | nil => rfl
  | cons x l ih => rw [State.each, List.foldl_cons, ← h s x]; exact ih _

@[simp] theorem State.foldl_canonical {α : Type} (s : State) (l : List α) (f : State → α → State)
    (h : ∀ s x, (f s x).square.canonical ↔ s.square.canonical) : (l.foldl f s).square.canonical ↔ s.square.canonical := State.each_canonical s l f h

/-! ## Outputs, totals, memory and firings -/

@[simp] theorem State.holdOutputs_canonical (s : State) : (s.holdOutputs).square.canonical ↔ s.square.canonical := by
  unfold State.holdOutputs
  rw [State.each_canonical, State.each_canonical] <;> intros
  · split <;> rfl
  · rfl

@[simp] theorem State.doRefresh_canonical (s : State) (n : Nat) : (s.doRefresh n).square.canonical ↔ s.square.canonical := Iff.rfl
@[simp] theorem State.doRefreshAll_canonical (s : State) : (s.doRefreshAll).square.canonical ↔ s.square.canonical := by simp [State.doRefreshAll]
@[simp] theorem State.ucRefresh_canonical (s : State) (n : Nat) : (s.ucRefresh n).square.canonical ↔ s.square.canonical := Iff.rfl

@[simp] theorem State.outputsAnew_canonical (s : State) : (s.outputsAnew).square.canonical ↔ s.square.canonical := by
  unfold State.outputsAnew
  rw [State.each_canonical _ _ _ State.ucRefresh_canonical, State.doRefreshAll_canonical]

@[simp] theorem State.dropClaim_canonical (s : State) : (s.dropClaim).square.canonical ↔ s.square.canonical := by simp [State.dropClaim]

@[simp] theorem State.resetMarks_canonical (s : State) (g : Nat) : (s.resetMarks g).square.canonical ↔ s.square.canonical := by
  simp [State.resetMarks]

@[simp] theorem State.takeMarks_canonical (s : State) (f : Nat) : (s.takeMarks f).square.canonical ↔ s.square.canonical := by
  unfold State.takeMarks
  rw [State.each_canonical, State.each_canonical] <;> intros
  · simp
  · rfl
  · split <;> rfl

@[simp] theorem State.recordArrives_canonical (s : State) (q : Raised) : (s.recordArrives q).square.canonical ↔ s.square.canonical := Iff.rfl

@[simp] theorem State.postMessage_canonical (s : State) (sender : Nat) (receiver : Nat) (cls : Nat) (cargo : Cargo) :
    (s.postMessage sender receiver cls cargo).square.canonical ↔ s.square.canonical :=
  Iff.rfl

@[simp] theorem State.raiseTotal_canonical (s : State) (k : RecKind) (v : Word) (c : BitVec 32) :
    (s.raiseTotal k v c).square.canonical ↔ s.square.canonical := by
  simp [State.raiseTotal]

@[simp] theorem State.storeCopy_canonical (s : State) (t : Nat) (at_ : Nat) (c : BitVec 32) :
    (s.storeCopy t at_ c).square.canonical ↔ s.square.canonical := by
  simp [State.storeCopy]

@[simp] theorem State.keepBoth_canonical (s : State) (t : Nat) : (s.keepBoth t).square.canonical ↔ s.square.canonical := by simp [State.keepBoth]

@[simp] theorem State.putIncr_canonical (s : State) (t : Nat) (r : Total × Bool) (c : BitVec 32) :
    (s.putIncr t r c).square.canonical ↔ s.square.canonical := by
  simp [State.putIncr]

@[simp] theorem State.lastMarks_canonical (s : State) : (s.lastMarks).square.canonical ↔ s.square.canonical := by simp [State.lastMarks]

@[simp] theorem State.noteWrite_canonical (s : State) (a : Nat) (lo : Nat) (n : Nat) :
    (s.noteWrite a lo n).square.canonical ↔ s.square.canonical := Iff.rfl

@[simp] theorem State.dropUpsets_canonical (s : State) (l : List Upset) : (s.dropUpsets l).square.canonical ↔ s.square.canonical := Iff.rfl
@[simp] theorem State.fireSourceAt_canonical (s : State) (n : Nat) (t : Nat) : (s.fireSourceAt n t).square.canonical ↔ s.square.canonical := Iff.rfl

@[simp] theorem State.correction_canonical (s : State) (a : Nat) : (s.correction a).square.canonical ↔ s.square.canonical := by
  simp [State.correction]

@[simp] theorem State.corrections_canonical (s : State) (a : Nat) (n : Nat) : (s.corrections a n).square.canonical ↔ s.square.canonical := by
  simp [State.corrections]

@[simp] theorem State.overwrite_canonical (s : State) (a : Nat) (lo : Nat) (n : Nat) :
    (s.overwrite a lo n).square.canonical ↔ s.square.canonical := by
  simp [State.overwrite]

@[simp] theorem State.startRepair_canonical (s : State) (a : Nat) (b : Nat) : (s.startRepair a b).square.canonical ↔ s.square.canonical := by
  simp [State.startRepair]

@[simp] theorem State.writeSpan_canonical (s : State) (a : Nat) (lo : Nat) (n : Nat) :
    (s.writeSpan a lo n).square.canonical ↔ s.square.canonical := by
  simp [State.writeSpan]

@[simp] theorem State.writeItem_canonical (s : State) (i : MramItem) : (s.writeItem i).square.canonical ↔ s.square.canonical := by
  simp [State.writeItem]

@[simp] theorem State.leaveHard_canonical (s : State) (l : List Upset) : (s.leaveHard l).square.canonical ↔ s.square.canonical := Iff.rfl

@[simp] theorem State.remapWord_canonical (s : State) (a : Nat) (w : Nat) : (s.remapWord a w).square.canonical ↔ s.square.canonical := by
  simp [State.remapWord]

@[simp] theorem State.poisonedRead_canonical (s : State) (a : Nat) (b : Nat) : (s.poisonedRead a b).square.canonical ↔ s.square.canonical := by
  simp [State.poisonedRead]

@[simp] theorem State.judgeRead_canonical (s : State) (a b : Nat) (v : Verdict) : (s.judgeRead a b v).1.square.canonical ↔ s.square.canonical := by
  unfold State.judgeRead; dsimp only; split <;> simp

@[simp] theorem State.readSpan_canonical (s : State) (a : Nat) (lo : Nat) (n : Nat) : (s.readSpan a lo n).square.canonical ↔ s.square.canonical := by
  simp [State.readSpan]

@[simp] theorem State.readWords_canonical (s : State) (a : Nat) (l : List Nat) : (s.readWords a l).square.canonical ↔ s.square.canonical := by
  simp [State.readWords]

@[simp] theorem State.writeRetained_canonical (s : State) : (s.writeRetained).square.canonical ↔ s.square.canonical := by simp [State.writeRetained]
@[simp] theorem State.writeFire_canonical (s : State) (l : List Word) : (s.writeFire l).square.canonical ↔ s.square.canonical := Iff.rfl
@[simp] theorem State.toFire_canonical (s : State) (m : FireMsg) : (s.toFire m).square.canonical ↔ s.square.canonical := Iff.rfl
@[simp] theorem State.diToFire_canonical (s : State) (n : Nat) : (s.diToFire n).square.canonical ↔ s.square.canonical := by simp [State.diToFire]
@[simp] theorem State.tellFire_canonical (s : State) : (s.tellFire).square.canonical ↔ s.square.canonical := by simp [State.tellFire]
@[simp] theorem State.returnDo_canonical (s : State) (n : Nat) : (s.returnDo n).square.canonical ↔ s.square.canonical := by simp [State.returnDo]

@[simp] theorem State.returnUc_canonical (s : State) (n : Nat) : (s.returnUc n).square.canonical ↔ s.square.canonical := by
  unfold State.returnUc
  dsimp only
  (repeat' split) <;> simp

@[simp] theorem State.cutOutputs_canonical (s : State) : (s.cutOutputs).square.canonical ↔ s.square.canonical := by
  unfold State.cutOutputs
  refine State.each_canonical _ _ _ fun s x => ?_
  (repeat' split) <;> simp

@[simp] theorem State.judgeCut_canonical (s : State) (f : Nat) : (s.judgeCut f).square.canonical ↔ s.square.canonical := by simp [State.judgeCut]
@[simp] theorem State.judgeCuts_canonical (s : State) : (s.judgeCuts).square.canonical ↔ s.square.canonical := by simp [State.judgeCuts]

@[simp] theorem State.portTx_canonical (s : State) (p : Nat) (f : HsrFrame) : (s.portTx p f).square.canonical ↔ s.square.canonical := by
  simp [State.portTx]

@[simp] theorem State.sendRing_canonical (s : State) (dest : BitVec 48) (etherType : BitVec 16) (payload : List Byte) :
    (s.sendRing dest etherType payload).square.canonical ↔ s.square.canonical := by
  simp [State.sendRing]

@[simp] theorem State.sendStation_canonical (s : State) (body : StationBody) : (s.sendStation body).square.canonical ↔ s.square.canonical := by
  simp [State.sendStation]

@[simp] theorem State.sendFrame_canonical (s : State) (o : Nat) : (s.sendFrame o).square.canonical ↔ s.square.canonical := by simp [State.sendFrame]

@[simp] theorem State.moveOut_canonical (s : State) (o : Nat) : (s.moveOut o).square.canonical ↔ s.square.canonical := by
  unfold State.moveOut
  dsimp only
  (repeat' split) <;> simp

@[simp] theorem State.retakeOutputs_canonical (s : State) (was : List (Nat × Nat)) : (s.retakeOutputs was).square.canonical ↔ s.square.canonical := by
  simp [State.retakeOutputs]

@[simp] theorem State.takeFire_canonical (s : State) (l : List Word) : (s.takeFire l).square.canonical ↔ s.square.canonical := by
  simp [State.takeFire]

@[simp] theorem State.settleFire_canonical (s : State) : (s.settleFire).square.canonical ↔ s.square.canonical := by simp [State.settleFire]

@[simp] theorem State.keepTotal_canonical (s : State) (t : Nat) (c : BitVec 32) : (s.keepTotal t c).square.canonical ↔ s.square.canonical := by
  simp [State.keepTotal]

@[simp] theorem State.putTotWord_canonical (s : State) (t : Nat) (sub : Nat) (w : Word) :
    (s.putTotWord t sub w).square.canonical ↔ s.square.canonical := Iff.rfl

@[simp] theorem State.closeTotal_canonical (s : State) (t : Nat) (c : BitVec 32) (who : Option Ctx) :
    (s.closeTotal t c who).square.canonical ↔ s.square.canonical := by
  simp [State.closeTotal]

@[simp] theorem State.rebaseTotal_canonical (s : State) (t : Nat) (c : BitVec 32) (same : Bool) :
    (s.rebaseTotal t c same).square.canonical ↔ s.square.canonical := Iff.rfl

@[simp] theorem State.landEntry_canonical (t : Nat) (c : BitVec 32) (s : State) (q : Close) :
    (State.landEntry t c s q).square.canonical ↔ s.square.canonical := by
  unfold State.landEntry; simp -implicitDefEqProofs

@[simp] theorem State.settleCloses_canonical (s : State) (t : Nat) : (s.settleCloses t).square.canonical ↔ s.square.canonical := by
  simp [State.settleCloses]

@[simp] theorem State.putCanEnable_canonical (s : State) (p : Nat) (b : Bool) : (s.putCanEnable p b).square.canonical ↔ s.square.canonical := Iff.rfl
@[simp] theorem State.settleCan_canonical (s : State) (p : Nat) : (s.settleCan p).square.canonical ↔ s.square.canonical := by simp [State.settleCan]
@[simp] theorem State.putCfg_canonical (s : State) (key : Nat) (w : Word) : (s.putCfg key w).square.canonical ↔ s.square.canonical := Iff.rfl

@[simp] theorem State.settleWrites_canonical (s : State) : s.settleWrites.square.canonical ↔ s.square.canonical := by
  simp -implicitDefEqProofs [State.settleWrites]

/-! ## Starts, islands, ring and CAN ports -/

@[simp] theorem State.raiseStarting_canonical (s : State) (k : RecKind) (value : Word) :
    (s.raiseStarting k value).square.canonical ↔ s.square.canonical := Iff.rfl

@[simp] theorem State.localClocks_canonical (s : State) : (s.localClocks).square.canonical ↔ s.square.canonical := Iff.rfl

@[simp] theorem State.setIslands_canonical (s : State) (d : Nat) (x : IslandState) : (s.setIslands d x).square.canonical ↔ s.square.canonical := by
  unfold State.setIslands
  refine State.each_canonical _ _ _ fun s x => ?_
  simp

@[simp] theorem State.showStored_canonical (s : State) : (s.showStored).square.canonical ↔ s.square.canonical := Iff.rfl

@[simp] theorem State.clearForces_canonical (s : State) (cold : Bool) : (s.clearForces cold).square.canonical ↔ s.square.canonical := by
  simp [State.clearForces]

@[simp] theorem State.ucSideStreet_canonical (s : State) (n : Nat) : (s.ucSideStreet n).square.canonical ↔ s.square.canonical := Iff.rfl

@[simp] theorem State.setStation_canonical (s : State) (p : Nat) (x : Nat) (y : Station) :
    (s.setStation p x y).square.canonical ↔ s.square.canonical := Iff.rfl

@[simp] theorem State.modStation_canonical (s : State) (p : Nat) (x : Nat) (f : Station → Station) :
    (s.modStation p x f).square.canonical ↔ s.square.canonical := Iff.rfl

@[simp] theorem State.loseArrived_canonical (s : State) (p : Nat) (x : Nat) : (s.loseArrived p x).square.canonical ↔ s.square.canonical := Iff.rfl

@[simp] theorem State.stationStart_canonical (s : State) (p : Nat) (x : Nat) : (s.stationStart p x).square.canonical ↔ s.square.canonical := by
  simp [State.stationStart]

@[simp] theorem State.canStart_canonical (s : State) (p : Nat) : (s.canStart p).square.canonical ↔ s.square.canonical := Iff.rfl
@[simp] theorem State.canJoin_canonical (s : State) : (s.canJoin).square.canonical ↔ s.square.canonical := by simp [State.canJoin]

@[simp] theorem State.offerDigital_canonical (s : State) : (s.offerDigital).square.canonical ↔ s.square.canonical := by
  unfold State.offerDigital
  rw [State.each_canonical, State.each_canonical] <;> intros <;> rfl

@[simp] theorem State.enterPair_canonical (s : State) (x : PairState) : (s.enterPair x).square.canonical ↔ s.square.canonical := by
  simp [State.enterPair]

@[simp] theorem State.startPair_canonical (s : State) : (s.startPair).square.canonical ↔ s.square.canonical := by simp [State.startPair]
@[simp] theorem State.zeroMarks_canonical (s : State) (t : Nat) : (s.zeroMarks t).square.canonical ↔ s.square.canonical := Iff.rfl

@[simp] theorem State.loadTotals_canonical (s : State) : (s.loadTotals).square.canonical ↔ s.square.canonical := by
  unfold State.loadTotals
  refine State.each_canonical _ _ _ fun s x => ?_
  (repeat' split) <;> simp

@[simp] theorem State.raiseUnstated_canonical (s : State) (src : Nat) (k : RecKind) :
    (s.raiseUnstated src k).square.canonical ↔ s.square.canonical := by
  simp [State.raiseUnstated]

@[simp] theorem State.loopMiss_canonical (s : State) (n : Nat) : (s.loopMiss n).square.canonical ↔ s.square.canonical := Iff.rfl
@[simp] theorem State.freePlace_canonical (s : State) (origin : BitVec 16) : (s.freePlace origin).square.canonical ↔ s.square.canonical := Iff.rfl

@[simp] theorem State.replyBusy_canonical (s : State) (c : Ctx) (counts : Bool) : (s.replyBusy c counts).square.canonical ↔ s.square.canonical := by
  simp [State.replyBusy]

@[simp] theorem State.loopIslandRestart_canonical (s : State) : s.loopIslandRestart.square.canonical ↔ s.square.canonical := by
  unfold State.loopIslandRestart
  rw [State.each_canonical]
  · simp -implicitDefEqProofs
  · intro s n
    dsimp only
    split
    · rfl
    · simp -implicitDefEqProofs

@[simp] theorem State.pathAlarm_canonical (s : State) (path : Nat) : (s.pathAlarm path).square.canonical ↔ s.square.canonical := by
  simp [State.pathAlarm]

@[simp] theorem State.judgePaths_canonical (s : State) : (s.judgePaths).square.canonical ↔ s.square.canonical := by simp [State.judgePaths]
@[simp] theorem State.ringPathLost_canonical (s : State) : (s.ringPathLost).square.canonical ↔ s.square.canonical := by simp [State.ringPathLost]

@[simp] theorem State.enterTime_canonical (s : State) (x : TimeState) : (s.enterTime x).square.canonical ↔ s.square.canonical := by
  unfold State.enterTime
  (repeat' split) <;> simp

@[simp] theorem State.judgePtpPort_canonical (s : State) : (s.judgePtpPort).square.canonical ↔ s.square.canonical := by simp [State.judgePtpPort]
@[simp] theorem State.loseLink_canonical (s : State) (p : Nat) : (s.loseLink p).square.canonical ↔ s.square.canonical := by simp [State.loseLink]

@[simp] theorem State.raiseCan_canonical (s : State) (p : Nat) (k : RecKind) (v : Word) :
    (s.raiseCan p k v).square.canonical ↔ s.square.canonical := by
  simp [State.raiseCan]

@[simp] theorem State.abandonFrame_canonical (s : State) (p : Nat) (reason : Nat) (slot : Nat) :
    (s.abandonFrame p reason slot).square.canonical ↔ s.square.canonical := by
  simp [State.abandonFrame]

@[simp] theorem State.giveUp_canonical (s : State) (p : Nat) (reason : Nat) (j : TxJob) :
    (s.giveUp p reason j).square.canonical ↔ s.square.canonical := by
  unfold State.giveUp
  split <;> simp

@[simp] theorem State.missDue_canonical (s : State) (p : Nat) : (s.missDue p).square.canonical ↔ s.square.canonical := by simp [State.missDue]

@[simp] theorem State.stopSchedule_canonical (s : State) (p : Nat) (reason : Nat) :
    (s.stopSchedule p reason).square.canonical ↔ s.square.canonical := by
  simp [State.stopSchedule]

@[simp] theorem State.dropQueue_canonical (s : State) (p : Nat) (keepHead : Bool) :
    (s.dropQueue p keepHead).square.canonical ↔ s.square.canonical := by
  simp [State.dropQueue]

@[simp] theorem State.canIslandRestart_canonical (s : State) (p : Nat) : (s.canIslandRestart p).square.canonical ↔ s.square.canonical := by
  unfold State.canIslandRestart; split
  · rfl
  · dsimp only; split <;> simp -implicitDefEqProofs

@[simp] theorem State.supRestart_canonical (s : State) : (s.supRestart).square.canonical ↔ s.square.canonical := Iff.rfl

@[simp] theorem State.inputsToFire_canonical (s : State) (n : Nat) : (s.inputsToFire n).square.canonical ↔ s.square.canonical := by
  simp [State.inputsToFire]

@[simp] theorem State.fireGone_canonical (s : State) : (s.fireGone).square.canonical ↔ s.square.canonical := by simp [State.fireGone]
@[simp] theorem State.doApply_canonical (s : State) (n : Nat) : (s.doApply n).square.canonical ↔ s.square.canonical := by simp [State.doApply]
@[simp] theorem State.ucApply_canonical (s : State) (n : Nat) : (s.ucApply n).square.canonical ↔ s.square.canonical := by simp [State.ucApply]
@[simp] theorem State.closeNow_canonical (s : State) (t : Nat) : (s.closeNow t).square.canonical ↔ s.square.canonical := by simp [State.closeNow]
@[simp] theorem State.addUpset_canonical (s : State) (u : Upset) : (s.addUpset u).square.canonical ↔ s.square.canonical := by simp [State.addUpset]

@[simp] theorem State.upsetTick_canonical (s : State) : (s.upsetTick).square.canonical ↔ s.square.canonical := by
  unfold State.upsetTick
  split <;> simp

@[simp] theorem State.canTakeover_canonical (s : State) (gap : Bool) : (s.canTakeover gap).square.canonical ↔ s.square.canonical := by
  unfold State.canTakeover
  simp -implicitDefEqProofs

@[simp] theorem State.setEpoch_canonical (s : State) (e : BitVec 32) : (s.setEpoch e).square.canonical ↔ s.square.canonical := by
  simp [State.setEpoch]

@[simp] theorem State.raiseEpoch_canonical (s : State) : (s.raiseEpoch).square.canonical ↔ s.square.canonical := by simp [State.raiseEpoch]
@[simp] theorem State.lapse_canonical (s : State) (ns : Nat) : (s.lapse ns).square.canonical ↔ s.square.canonical := Iff.rfl

/-! ## Acceptance and command packets -/

@[simp] theorem State.accept_canonical (s : State) (p : Packet) (d : CmdDesc) (known : Bool) :
    (s.accept p d known).1.square.canonical ↔ s.square.canonical := by
  obtain ⟨x, h, e⟩ := s.onlySup_accept p d known
  rw [e]

@[simp] theorem runIdentify_canonical (c : Ctx) (a1 : List Byte) (s : State) : (runIdentify c a1 s).square.canonical ↔ s.square.canonical := by
  simp [runIdentify]

@[simp] theorem runGetStatus_canonical (c : Ctx) (a1 : List Byte) (s : State) : (runGetStatus c a1 s).square.canonical ↔ s.square.canonical := by
  simp [runGetStatus]

@[simp] theorem State.gateRead_canonical (s : State) (c : Ctx) (b : List Byte) (a : Nat) (at_ marks : List Nat) (k : List Nat → State → State)
    (h : ∀ l t, (k l t).square.canonical ↔ t.square.canonical) : (s.gateRead c b a at_ marks k).square.canonical ↔ s.square.canonical := by
  unfold State.gateRead; simp [h]

@[simp] theorem State.replyData_canonical (s : State) (c : Ctx) (head : List Byte) (l : List (Word × Bool)) :
    (s.replyData c head l).square.canonical ↔ s.square.canonical := by
  simp [State.replyData]

@[simp] theorem readObjectFrom_canonical (marks : List Nat) (c : Ctx) (b : List Byte) (s : State) :
    (readObjectFrom marks c b s).square.canonical ↔ s.square.canonical := by
  simp [readObjectFrom]

@[simp] theorem runReadObject_canonical (a0 : Ctx) (a1 : List Byte) (a2 : State) :
    (runReadObject a0 a1 a2).square.canonical ↔ a2.square.canonical := by
  simp [runReadObject]

@[simp] theorem State.judgeBands_canonical (s : State) : (s.judgeBands).square.canonical ↔ s.square.canonical := by
  unfold State.judgeBands
  split <;> simp

@[simp] theorem State.judgeThermal_canonical (s : State) : (s.judgeThermal).square.canonical ↔ s.square.canonical := by simp [State.judgeThermal]

@[simp] theorem State.loseArrays_canonical (s : State) (d : Nat) : (s.loseArrays d).square.canonical ↔ s.square.canonical := by
  unfold State.loseArrays; dsimp only; split
  · rw [State.each_canonical] <;> intros
    · simp -implicitDefEqProofs
    · rfl
  · split <;> simp -implicitDefEqProofs
  · simp -implicitDefEqProofs

@[simp] theorem State.powerOff_canonical (s : State) (d : Nat) : (s.powerOff d).square.canonical ↔ s.square.canonical := by simp [State.powerOff]

@[simp] theorem State.judgeDomain_canonical (s : State) (d : Nat) : (s.judgeDomain d).square.canonical ↔ s.square.canonical := by
  unfold State.judgeDomain
  dsimp only
  (repeat' split) <;> simp

@[simp] theorem State.judgeDomains_canonical (s : State) : (s.judgeDomains).square.canonical ↔ s.square.canonical := by simp [State.judgeDomains]
@[simp] theorem State.disarm_canonical (s : State) : (s.disarm).square.canonical ↔ s.square.canonical := Iff.rfl

@[simp] theorem State.ucNote_canonical (s : State) (n : Nat) (w : Word) : (s.ucNote n w).square.canonical ↔ s.square.canonical := by
  simp [State.ucNote]

@[simp] theorem State.putRestart_canonical (s : State) (key : Nat) (mask : Word) (w : Word) :
    (s.putRestart key mask w).square.canonical ↔ s.square.canonical := by
  simp [State.putRestart]

@[simp] theorem State.putUcWord_canonical (s : State) (n : Nat) (sub : Nat) (w : Word) :
    (s.putUcWord n sub w).square.canonical ↔ s.square.canonical := Iff.rfl

@[simp] theorem State.dropHart_canonical (s : State) (n : Nat) : (s.dropHart n).square.canonical ↔ s.square.canonical := by simp [State.dropHart]

@[simp] theorem State.ucUpdate_canonical (s : State) (n : Nat) (x : Uc) : (s.ucUpdate n x).square.canonical ↔ s.square.canonical := by
  unfold State.ucUpdate
  dsimp only
  (repeat' split) <;> simp

@[simp] theorem State.ucShutDown_canonical (s : State) (n : Nat) (mode : Nat) : (s.ucShutDown n mode).square.canonical ↔ s.square.canonical := by
  simp [State.ucShutDown]

@[simp] theorem State.ucLandMode_canonical (s : State) (n : Nat) (old : Word) (new : Word) :
    (s.ucLandMode n old new).square.canonical ↔ s.square.canonical := by
  unfold State.ucLandMode
  dsimp only
  (repeat' split) <;> simp

@[simp] theorem State.landUcMode_canonical (s : State) (n : Nat) (old : Word) (new : Word) :
    (s.landUcMode n old new).square.canonical ↔ s.square.canonical := by
  simp [State.landUcMode]

@[simp] theorem State.startScan_canonical (s : State) (n : Nat) : (s.startScan n).square.canonical ↔ s.square.canonical := by simp [State.startScan]

@[simp] theorem State.landUc_canonical (s : State) (n : Nat) (k : Nat) (w : Word) : (s.landUc n k w).square.canonical ↔ s.square.canonical := by
  simp [State.landUc]

@[simp] theorem State.notify_canonical (s : State) (n : Nat) (x : Source) (k : Nat) : (s.notify n x k).square.canonical ↔ s.square.canonical := by
  simp [State.notify]

@[simp] theorem State.clearWireBreak_canonical (s : State) (n : Nat) : (s.clearWireBreak n).square.canonical ↔ s.square.canonical := by
  simp [State.clearWireBreak]

@[simp] theorem State.landWire_canonical (s : State) (n : Nat) (new : Word) : (s.landWire n new).square.canonical ↔ s.square.canonical := by
  simp [State.landWire]

@[simp] theorem State.restartFilter_canonical (s : State) (n : Nat) (old : Word) (new : Word) :
    (s.restartFilter n old new).square.canonical ↔ s.square.canonical := by
  simp [State.restartFilter]

@[simp] theorem State.raiseDo_canonical (s : State) (r : RecKind) (kind : Nat) (n : Nat) :
    (s.raiseDo r kind n).square.canonical ↔ s.square.canonical := by
  simp [State.raiseDo]

@[simp] theorem State.clearOpenLoad_canonical (s : State) (n : Nat) : (s.clearOpenLoad n).square.canonical ↔ s.square.canonical := by
  simp [State.clearOpenLoad]

@[simp] theorem State.ptpWritten_canonical (s : State) (old : Word) (new : Word) : (s.ptpWritten old new).square.canonical ↔ s.square.canonical := by
  simp [State.ptpWritten]

@[simp] theorem State.queueClose_canonical (s : State) (t : Nat) (who : Option Ctx) (close : Bool) (config : List (Nat × Word)) (boundary : Option (BitVec 32)) :
    (s.queueClose t who close config boundary).square.canonical ↔ s.square.canonical :=
  Iff.rfl

@[simp] theorem State.deferUc_canonical (s : State) (n : Nat) (k : Nat) (w : Word) :
    (s.deferUc n k w).square.canonical ↔ s.square.canonical := Iff.rfl

@[simp] theorem State.tellPartner_canonical (s : State) (c : Change) (at_ : BitVec 32) :
    (s.tellPartner c at_).square.canonical ↔ s.square.canonical := Iff.rfl

@[simp] theorem State.queueChange_canonical (s : State) (c : Change) : (s.queueChange c).square.canonical ↔ s.square.canonical := Iff.rfl

@[simp] theorem State.tellStandby_canonical (s : State) (c : Change) : (s.tellStandby c).square.canonical ↔ s.square.canonical := by
  simp [State.tellStandby]

@[simp] theorem State.onWire_canonical (s : State) (port : Port) (p : Packet) : (s.onWire port p).square.canonical ↔ s.square.canonical := Iff.rfl

@[simp] theorem State.send_canonical (s : State) (p : Packet) : (s.send p).square.canonical ↔ s.square.canonical := by
  unfold State.send
  split <;> simp

@[simp] theorem State.replyNow_canonical (s : State) (c : Ctx) : (s.replyNow c).square.canonical ↔ s.square.canonical := by simp [State.replyNow]
@[simp] theorem State.planHandover_canonical (s : State) (n : Nat) : (s.planHandover n).square.canonical ↔ s.square.canonical := Iff.rfl

@[simp] theorem State.forwardEnumerate_canonical (s : State) (p : Packet) : (s.forwardEnumerate p).square.canonical ↔ s.square.canonical := by
  unfold State.forwardEnumerate
  split <;> simp

@[simp] theorem State.announce_canonical (s : State) : (s.announce).square.canonical ↔ s.square.canonical := by simp [State.announce]

@[simp] theorem State.enumerated_canonical (s : State) (a : BitVec 10) : (s.enumerated a).square.canonical ↔ s.square.canonical := by
  simp [State.enumerated]

@[simp] theorem runEnumerate_canonical (p : Packet) (s : State) : (runEnumerate p s).square.canonical ↔ s.square.canonical := by simp [runEnumerate]

@[simp] theorem runConfirmAddress_canonical (c : Ctx) (a1 : List Byte) (s : State) :
    (runConfirmAddress c a1 s).square.canonical ↔ s.square.canonical := by
  simp [runConfirmAddress]

@[simp] theorem State.forwardOr_canonical (s : State) (c : Ctx) (chg : Change) (now done : State → State)
    (h : ∀ t, (now t).square.canonical ↔ t.square.canonical) (k : ∀ t, (done t).square.canonical ↔ t.square.canonical) :
    (s.forwardOr c chg now done).square.canonical ↔ s.square.canonical := by
  unfold State.forwardOr; simp [h, k]

@[simp] theorem State.openLoad_canonical (s : State) (b : Bool) (words : Nat) (crc : Word) :
    (s.openLoad b words crc).square.canonical ↔ s.square.canonical := by
  unfold State.openLoad
  split <;> simp

@[simp] theorem runProgramBegin_canonical (c : Ctx) (b : List Byte) (s : State) : (runProgramBegin c b s).square.canonical ↔ s.square.canonical := by
  simp [runProgramBegin]

@[simp] theorem State.loadWords_canonical (s : State) (b : Bool) (at_ : Nat) (l : List Word) :
    (s.loadWords b at_ l).square.canonical ↔ s.square.canonical := by
  simp [State.loadWords]

@[simp] theorem runProgramData_canonical (c : Ctx) (b : List Byte) (s : State) : (runProgramData c b s).square.canonical ↔ s.square.canonical := by
  unfold runProgramData
  split <;> simp

@[simp] theorem State.dropLoad_canonical (s : State) (b : Bool) : (s.dropLoad b).square.canonical ↔ s.square.canonical := by simp [State.dropLoad]

@[simp] theorem runProgramSwitch_canonical (c : Ctx) (b : List Byte) (s : State) :
    (runProgramSwitch c b s).square.canonical ↔ s.square.canonical := by
  simp [runProgramSwitch]

@[simp] theorem runRunStop_canonical (c : Ctx) (b : List Byte) (s : State) : (runRunStop c b s).square.canonical ↔ s.square.canonical := by
  simp [runRunStop]

@[simp] theorem State.postLanding_canonical (s : State) (x : Landing) : (s.postLanding x).square.canonical ↔ s.square.canonical := Iff.rfl

@[simp] theorem State.postForce_canonical (s : State) (c : Ctx) (k : LandKind) (chg : Change) :
    (s.postForce c k chg).square.canonical ↔ s.square.canonical := by
  simp [State.postForce]

@[simp] theorem runForceSet_canonical (c : Ctx) (b : List Byte) (s : State) : (runForceSet c b s).square.canonical ↔ s.square.canonical := by
  unfold runForceSet
  (repeat' split) <;> simp

@[simp] theorem runForceRelease_canonical (c : Ctx) (b : List Byte) (s : State) : (runForceRelease c b s).square.canonical ↔ s.square.canonical := by
  unfold runForceRelease
  (repeat' split) <;> simp

@[simp] theorem runCycleStats_canonical (c : Ctx) (a1 : List Byte) (s : State) : (runCycleStats c a1 s).square.canonical ↔ s.square.canonical := by
  simp [runCycleStats]

@[simp] theorem State.restoreTotal_canonical (s : State) (t : Nat) : (s.restoreTotal t).square.canonical ↔ s.square.canonical := by
  unfold State.restoreTotal
  split <;> simp

@[simp] theorem State.deliverItems_canonical (s : State) (l : List (Area × Bool × Nat)) (bad : List Nat) :
    (s.deliverItems l bad).1.square.canonical ↔ s.square.canonical := by
  unfold State.deliverItems; simp

@[simp] theorem readVarsFrom_canonical (marks : List Nat) (c : Ctx) (b : List Byte) (s : State) :
    (readVarsFrom marks c b s).square.canonical ↔ s.square.canonical := by
  unfold readVarsFrom
  split <;> simp

@[simp] theorem runReadVars_canonical (a0 : Ctx) (a1 : List Byte) (a2 : State) : (runReadVars a0 a1 a2).square.canonical ↔ a2.square.canonical := by
  simp [runReadVars]

@[simp] theorem runWriteVars_canonical (c : Ctx) (b : List Byte) (s : State) : (runWriteVars c b s).square.canonical ↔ s.square.canonical := by
  unfold runWriteVars
  split <;> simp

@[simp] theorem State.setSub_canonical (s : State) (k : Nat) (x : Option Subscription) :
    (s.setSub k x).square.canonical ↔ s.square.canonical := Iff.rfl

@[simp] theorem runSubscribe_canonical (c : Ctx) (b : List Byte) (s : State) : (runSubscribe c b s).square.canonical ↔ s.square.canonical := by
  unfold runSubscribe
  dsimp only
  (repeat' split) <;> simp

@[simp] theorem runUnsubscribe_canonical (c : Ctx) (b : List Byte) (s : State) : (runUnsubscribe c b s).square.canonical ↔ s.square.canonical := by
  simp [runUnsubscribe]

@[simp] theorem runEventSubscribe_canonical (c : Ctx) (b : List Byte) (s : State) :
    (runEventSubscribe c b s).square.canonical ↔ s.square.canonical := by
  simp [runEventSubscribe]

@[simp] theorem runLoopEnable_canonical (c : Ctx) (b : List Byte) (s : State) : (runLoopEnable c b s).square.canonical ↔ s.square.canonical := by
  simp [runLoopEnable]

@[simp] theorem runLoopDisable_canonical (c : Ctx) (b : List Byte) (s : State) : (runLoopDisable c b s).square.canonical ↔ s.square.canonical := by
  simp [runLoopDisable]

@[simp] theorem State.queueLoop_canonical (s : State) (c : Ctx) (n : Nat) (q : LoopChange) (tell : BitVec 32 → Change) :
    (s.queueLoop c n q tell).square.canonical ↔ s.square.canonical := by
  simp [State.queueLoop]

@[simp] theorem runLoopWriteCoeff_canonical (c : Ctx) (b : List Byte) (s : State) :
    (runLoopWriteCoeff c b s).square.canonical ↔ s.square.canonical := by
  simp [runLoopWriteCoeff]

@[simp] theorem State.cleanLoopRam_canonical (s : State) (n : Nat) (k : Nat) (count : Nat) :
    (s.cleanLoopRam n k count).square.canonical ↔ s.square.canonical := by
  simp [State.cleanLoopRam]

@[simp] theorem State.putStaged_canonical (s : State) (n : Nat) (l : List (List Word)) : (s.putStaged n l).square.canonical ↔ s.square.canonical := by
  simp [State.putStaged]

@[simp] theorem runLoopStage_canonical (c : Ctx) (b : List Byte) (s : State) : (runLoopStage c b s).square.canonical ↔ s.square.canonical := by
  simp [runLoopStage]

@[simp] theorem loopCommitFrom_canonical (marks : List Nat) (c : Ctx) (b : List Byte) (s : State) :
    (loopCommitFrom marks c b s).square.canonical ↔ s.square.canonical := by
  simp [loopCommitFrom]

@[simp] theorem runLoopCommit_canonical (a0 : Ctx) (a1 : List Byte) (a2 : State) :
    (runLoopCommit a0 a1 a2).square.canonical ↔ a2.square.canonical := by
  simp [runLoopCommit]

@[simp] theorem State.gateWords_canonical (s : State) (c : Ctx) (b : List Byte) (l : List (Area × Nat)) (marks : List Nat)
    (k : List (Word × Bool) → State → State) (h : ∀ l t, (k l t).square.canonical ↔ t.square.canonical) :
    (s.gateWords c b l marks k).square.canonical ↔ s.square.canonical := by
  unfold State.gateWords; simp [h]

@[simp] theorem loopReadFrom_canonical (marks : List Nat) (c : Ctx) (b : List Byte) (s : State) :
    (loopReadFrom marks c b s).square.canonical ↔ s.square.canonical := by
  simp [loopReadFrom]

@[simp] theorem runLoopRead_canonical (a0 : Ctx) (a1 : List Byte) (a2 : State) : (runLoopRead a0 a1 a2).square.canonical ↔ a2.square.canonical := by
  simp [runLoopRead]

@[simp] theorem channelStatusFrom_canonical (marks : List Nat) (c : Ctx) (b : List Byte) (s : State) :
    (channelStatusFrom marks c b s).square.canonical ↔ s.square.canonical := by
  unfold channelStatusFrom
  split <;> simp

@[simp] theorem runChannelStatus_canonical (a0 : Ctx) (a1 : List Byte) (a2 : State) :
    (runChannelStatus a0 a1 a2).square.canonical ↔ a2.square.canonical := by
  simp [runChannelStatus]

@[simp] theorem State.acknowledge_canonical (s : State) (g : Nat) (mask : Nat) : (s.acknowledge g mask).square.canonical ↔ s.square.canonical := by
  simp [State.acknowledge]

@[simp] theorem runOutputAck_canonical (c : Ctx) (b : List Byte) (s : State) : (runOutputAck c b s).square.canonical ↔ s.square.canonical := by
  simp [runOutputAck]

@[simp] theorem runHartTransact_canonical (c : Ctx) (b : List Byte) (s : State) : (runHartTransact c b s).square.canonical ↔ s.square.canonical := by
  unfold runHartTransact
  dsimp only
  (repeat' split) <;> simp

@[simp] theorem runHartBurstRead_canonical (c : Ctx) (b : List Byte) (s : State) :
    (runHartBurstRead c b s).square.canonical ↔ s.square.canonical := by
  unfold runHartBurstRead
  dsimp only
  (repeat' split) <;> simp

@[simp] theorem State.canShutDown_canonical (s : State) (p : Nat) : (s.canShutDown p).square.canonical ↔ s.square.canonical := by
  simp [State.canShutDown]

@[simp] theorem State.canEnable_canonical (s : State) (p : Nat) (on : Bool) : (s.canEnable p on).1.square.canonical ↔ s.square.canonical := by
  unfold State.canEnable; dsimp only; (repeat' split) <;> simp

@[simp] theorem runCanEnable_canonical (c : Ctx) (b : List Byte) (s : State) : (runCanEnable c b s).square.canonical ↔ s.square.canonical := by
  unfold runCanEnable; dsimp only; (repeat' split) <;> simp

@[simp] theorem runCanRecover_canonical (c : Ctx) (b : List Byte) (s : State) : (runCanRecover c b s).square.canonical ↔ s.square.canonical := by
  unfold runCanRecover
  dsimp only
  (repeat' split) <;> simp

@[simp] theorem runCanSend_canonical (c : Ctx) (b : List Byte) (s : State) : (runCanSend c b s).square.canonical ↔ s.square.canonical := by
  simp [runCanSend]

@[simp] theorem runCanCounters_canonical (c : Ctx) (b : List Byte) (s : State) : (runCanCounters c b s).square.canonical ↔ s.square.canonical := by
  simp [runCanCounters]

@[simp] theorem stationStatusFrom_canonical (marks : List Nat) (c : Ctx) (b : List Byte) (s : State) :
    (stationStatusFrom marks c b s).square.canonical ↔ s.square.canonical := by
  simp [stationStatusFrom]

@[simp] theorem runStationStatus_canonical (a0 : Ctx) (a1 : List Byte) (a2 : State) :
    (runStationStatus a0 a1 a2).square.canonical ↔ a2.square.canonical := by
  simp [runStationStatus]

@[simp] theorem runPairStatus_canonical (c : Ctx) (a1 : List Byte) (s : State) : (runPairStatus c a1 s).square.canonical ↔ s.square.canonical := by
  simp [runPairStatus]

@[simp] theorem State.openRehearsal_canonical (s : State) (h : BitVec 32) (dwell : Nat) (back : Bool) :
    (s.openRehearsal h dwell back).square.canonical ↔ s.square.canonical :=
  Iff.rfl

@[simp] theorem runRehearse_canonical (c : Ctx) (b : List Byte) (s : State) : (runRehearse c b s).square.canonical ↔ s.square.canonical := by
  simp [runRehearse]

@[simp] theorem State.endRehearsal_canonical (s : State) : (s.endRehearsal).square.canonical ↔ s.square.canonical := by
  unfold State.endRehearsal
  split <;> simp

@[simp] theorem State.startSync_canonical (s : State) : (s.startSync).square.canonical ↔ s.square.canonical := by simp [State.startSync]

@[simp] theorem State.followActive_canonical (s : State) : (s.followActive).square.canonical ↔ s.square.canonical := by
  unfold State.followActive
  split <;> simp

@[simp] theorem runResync_canonical (c : Ctx) (a1 : List Byte) (s : State) : (runResync c a1 s).square.canonical ↔ s.square.canonical := by
  unfold runResync
  split <;> simp

@[simp] theorem State.poisonRecord_canonical (s : State) (n : Nat) (w : Nat) : (s.poisonRecord n w).square.canonical ↔ s.square.canonical := Iff.rfl

theorem gateRead_replyData_canonical (s : State) (c : Ctx) (b : List Byte) (l marks : List Nat) (h : List Byte) (m k : Nat) (f : BitVec 32) :
    (s.gateRead c b 7 l marks fun bad t => t.replyData c h ((t.markRecords bad).entries m k f)).square.canonical ↔ s.square.canonical :=
  State.gateRead_canonical _ _ _ _ _ _ _ fun _ _ => State.replyData_canonical _ _ _ _

@[simp] theorem recQueryFrom_canonical (marks : List Nat) (c : Ctx) (b : List Byte) (s : State) :
    (recQueryFrom marks c b s).square.canonical ↔ s.square.canonical := by
  unfold recQueryFrom; dsimp only
  split
  · simp
  · exact gateRead_replyData_canonical _ _ _ _ _ _ _ _ _

@[simp] theorem runRecQuery_canonical (a0 : Ctx) (a1 : List Byte) (a2 : State) : (runRecQuery a0 a1 a2).square.canonical ↔ a2.square.canonical := by
  simp [runRecQuery]

@[simp] theorem runRecUpload_canonical (c : Ctx) (b : List Byte) (s : State) : (runRecUpload c b s).square.canonical ↔ s.square.canonical := by
  simp [runRecUpload]

@[simp] theorem runRecCounters_canonical (c : Ctx) (a1 : List Byte) (s : State) : (runRecCounters c a1 s).square.canonical ↔ s.square.canonical := by
  simp [runRecCounters]

@[simp] theorem runRecNote_canonical (c : Ctx) (b : List Byte) (s : State) : (runRecNote c b s).square.canonical ↔ s.square.canonical := by
  simp [runRecNote]

@[simp] theorem runPanelFrame_canonical (c : Ctx) (b : List Byte) (s : State) : (runPanelFrame c b s).square.canonical ↔ s.square.canonical := by
  simp [runPanelFrame]

@[simp] theorem runPanelShow_canonical (c : Ctx) (b : List Byte) (s : State) : (runPanelShow c b s).square.canonical ↔ s.square.canonical := by
  simp [runPanelShow]

@[simp] theorem State.plateStart_canonical (s : State) (c : Option Ctx) : (s.plateStart c).square.canonical ↔ s.square.canonical := Iff.rfl

@[simp] theorem runPlateUpdate_canonical (c : Ctx) (b : List Byte) (s : State) : (runPlateUpdate c b s).square.canonical ↔ s.square.canonical := by
  simp [runPlateUpdate]

@[simp] theorem runPanelPower_canonical (c : Ctx) (b : List Byte) (s : State) : (runPanelPower c b s).square.canonical ↔ s.square.canonical := by
  unfold runPanelPower
  dsimp only
  (repeat' split) <;> simp

@[simp] theorem runMemStatus_canonical (c : Ctx) (b : List Byte) (s : State) : (runMemStatus c b s).square.canonical ↔ s.square.canonical := by
  simp [runMemStatus]

@[simp] theorem runScrubNow_canonical (c : Ctx) (b : List Byte) (s : State) : (runScrubNow c b s).square.canonical ↔ s.square.canonical := by
  simp [runScrubNow]

@[simp] theorem runRemapRead_canonical (c : Ctx) (b : List Byte) (s : State) : (runRemapRead c b s).square.canonical ↔ s.square.canonical := by
  simp [runRemapRead]

@[simp] theorem runPowerStatus_canonical (c : Ctx) (a1 : List Byte) (s : State) : (runPowerStatus c a1 s).square.canonical ↔ s.square.canonical := by
  simp [runPowerStatus]

@[simp] theorem runThermalStatus_canonical (c : Ctx) (a1 : List Byte) (s : State) :
    (runThermalStatus c a1 s).square.canonical ↔ s.square.canonical := by
  simp [runThermalStatus]

@[simp] theorem runFireStatus_canonical (c : Ctx) (a1 : List Byte) (s : State) : (runFireStatus c a1 s).square.canonical ↔ s.square.canonical := by
  simp [runFireStatus]

@[simp] theorem State.plateLinked_canonical (s : State) (f : Nat) : (s.plateLinked f).square.canonical ↔ s.square.canonical := by
  simp [State.plateLinked]

@[simp] theorem State.clearFn_canonical (s : State) (f : Nat) : (s.clearFn f).square.canonical ↔ s.square.canonical := by simp [State.clearFn]

@[simp] theorem State.resetFns_canonical (s : State) (l : List Nat) (byInput : Bool) :
    (s.resetFns l byInput).1.square.canonical ↔ s.square.canonical := by
  unfold State.resetFns; dsimp only
  rw [State.each_canonical, State.each_canonical]
  · simp
  · simp
  · intros; rfl

@[simp] theorem runFireReset_canonical (c : Ctx) (b : List Byte) (s : State) : (runFireReset c b s).square.canonical ↔ s.square.canonical := by
  unfold runFireReset; simp

@[simp] theorem runFireLoad_canonical (c : Ctx) (b : List Byte) (s : State) : (runFireLoad c b s).square.canonical ↔ s.square.canonical := by
  rw [runFireLoad_eq]; split
  · simp
  · simp [State.answerStaged, State.stage, State.disarm]

@[simp] theorem runFireArm_canonical (c : Ctx) (b : List Byte) (s : State) : (runFireArm c b s).square.canonical ↔ s.square.canonical := by
  simp [runFireArm]

@[simp] theorem State.holdFire_canonical (s : State) (l : List Word) : (s.holdFire l).square.canonical ↔ s.square.canonical := Iff.rfl

@[simp] theorem State.bringFire_canonical (s : State) (l : List Word) : (s.bringFire l).square.canonical ↔ s.square.canonical := by
  simp [State.bringFire]

@[simp] theorem runFireConfirm_canonical (c : Ctx) (b : List Byte) (s : State) : (runFireConfirm c b s).square.canonical ↔ s.square.canonical := by
  unfold runFireConfirm
  split <;> simp

@[simp] theorem totalReadFrom_canonical (marks : List Nat) (c : Ctx) (b : List Byte) (s : State) :
    (totalReadFrom marks c b s).square.canonical ↔ s.square.canonical := by
  simp [totalReadFrom]

@[simp] theorem runTotalRead_canonical (a0 : Ctx) (a1 : List Byte) (a2 : State) : (runTotalRead a0 a1 a2).square.canonical ↔ a2.square.canonical := by
  simp [runTotalRead]

@[simp] theorem runTotalClose_canonical (c : Ctx) (b : List Byte) (s : State) : (runTotalClose c b s).square.canonical ↔ s.square.canonical := by
  simp [runTotalClose]

@[simp] theorem State.clearReplay_canonical (s : State) (slot : Nat) : (s.clearReplay slot).square.canonical ↔ s.square.canonical := Iff.rfl

@[simp] theorem runKeyInstall_canonical (c : Ctx) (b : List Byte) (s : State) : (runKeyInstall c b s).square.canonical ↔ s.square.canonical := by
  simp [runKeyInstall]

@[simp] theorem runKeyRevoke_canonical (c : Ctx) (b : List Byte) (s : State) : (runKeyRevoke c b s).square.canonical ↔ s.square.canonical := by
  simp [runKeyRevoke]

@[simp] theorem runKeyStatus_canonical (c : Ctx) (a1 : List Byte) (s : State) : (runKeyStatus c a1 s).square.canonical ↔ s.square.canonical := by
  simp [runKeyStatus]

@[simp] theorem runFwBegin_canonical (c : Ctx) (b : List Byte) (s : State) : (runFwBegin c b s).square.canonical ↔ s.square.canonical := by
  simp [runFwBegin]

@[simp] theorem runFwData_canonical (c : Ctx) (b : List Byte) (s : State) : (runFwData c b s).square.canonical ↔ s.square.canonical := by
  unfold runFwData
  split <;> simp

@[simp] theorem runFwActivate_canonical (c : Ctx) (a1 : List Byte) (s : State) : (runFwActivate c a1 s).square.canonical ↔ s.square.canonical := by
  unfold runFwActivate
  split <;> simp

/-! ## The cycle: start, freeze and commit -/

@[simp] theorem State.holdNext_canonical (s : State) (sender : Nat) (receiver : Nat) :
    (s.holdNext sender receiver).square.canonical ↔ s.square.canonical := by
  unfold State.holdNext
  dsimp only
  (repeat' split) <;> simp

@[simp] theorem State.windowFault_canonical (s : State) (o : BitVec 16) : (s.windowFault o).square.canonical ↔ s.square.canonical := by
  simp [State.windowFault]

@[simp] theorem State.canIslandBack_canonical (s : State) (p : Nat) : (s.canIslandBack p).square.canonical ↔ s.square.canonical := by
  unfold State.canIslandBack
  dsimp only
  (repeat' split) <;> simp

@[simp] theorem State.refBack_canonical (s : State) : s.refBack.square.canonical ↔ s.square.canonical := by
  unfold State.refBack; split
  · rfl
  · rw [State.foldl_canonical]; intros; rfl

@[simp] theorem State.landFire_canonical (s : State) : (s.landFire).square.canonical ↔ s.square.canonical := by simp [State.landFire]

theorem State.switchHeld_canonical {s t : State} {c : BitVec 32} (h : s.switchHeld c = some t) : t.square.canonical ↔ s.square.canonical := by
  unfold State.switchHeld at h
  dsimp only at h
  split at h
  · cases h
  · split at h
    · cases h; simp
    · split at h <;> cases h; rfl

@[simp] theorem State.moveSpans_canonical (s : State) (m0 : Nat) (m1 : Nat) : (s.moveSpans m0 m1).square.canonical ↔ s.square.canonical := by
  simp [State.moveSpans]

@[simp] theorem State.writeWords_canonical (s : State) (a : Nat) (l : List Nat) : (s.writeWords a l).square.canonical ↔ s.square.canonical := by
  simp [State.writeWords]

@[simp] theorem State.keepUnits_canonical (s : State) : (s.keepUnits).square.canonical ↔ s.square.canonical := Iff.rfl
@[simp] theorem State.carryUnits_canonical (s : State) (k0 : Bank) (k1 : Bank) : (s.carryUnits k0 k1).square.canonical ↔ s.square.canonical := Iff.rfl
@[simp] theorem State.putForces_canonical (s : State) (l : List Force) : (s.putForces l).square.canonical ↔ s.square.canonical := Iff.rfl

@[simp] theorem State.loseSync_canonical (s : State) (reason : Nat) : (s.loseSync reason).square.canonical ↔ s.square.canonical := by
  simp [State.loseSync]

@[simp] theorem State.missSwitch_canonical (s : State) : (s.missSwitch).square.canonical ↔ s.square.canonical := by simp [State.missSwitch]

@[simp] theorem State.loopForwarded_canonical (s : State) (n : Nat) (q : LoopChange) :
    (s.loopForwarded n q).square.canonical ↔ s.square.canonical := Iff.rfl

@[simp] theorem State.setMode_canonical (s : State) (run : Bool) : (s.setMode run).square.canonical ↔ s.square.canonical := by simp [State.setMode]

@[simp] theorem State.startFrame_canonical (s : State) (p : Nat) (j : TxJob) (f : CanFrame) :
    (s.startFrame p j f).square.canonical ↔ s.square.canonical := Iff.rfl

@[simp] theorem State.newInputs_canonical (s : State) (p kind : Nat) : (s.newInputs p kind).square.canonical ↔ s.square.canonical := by
  unfold State.newInputs; split
  · rw [State.each_canonical]; intros; simp
  · rfl

@[simp] theorem State.sendRef_canonical (s : State) (p : Nat) (kind : Nat) : (s.sendRef p kind).square.canonical ↔ s.square.canonical := by
  simp [State.sendRef]

@[simp] theorem State.canCycleStart_canonical (s : State) : (s.canCycleStart).square.canonical ↔ s.square.canonical := by simp [State.canCycleStart]

theorem State.writeWaits_canonical {s t : State} {a lo n : Nat} (h : s.writeWaits a lo n = some t) : t.square.canonical ↔ s.square.canonical := by
  unfold State.writeWaits at h
  split at h
  · cases h; rfl
  · obtain ⟨b, -, rfl⟩ := Option.map_eq_some_iff.mp h; simp

theorem State.freezeHeld_canonical {s t : State} (h : s.freezeHeld = some t) : t.square.canonical ↔ s.square.canonical := by
  obtain ⟨r, -, hr⟩ := List.exists_of_findSome?_eq_some h
  exact State.writeWaits_canonical hr

@[simp] theorem State.applyLedgerTotal_canonical (s : State) (c : BitVec 32) (t : Nat) (e : LedgerTotal) :
    (s.applyLedgerTotal c t e).square.canonical ↔ s.square.canonical := by
  unfold State.applyLedgerTotal
  dsimp only
  (repeat' split) <;> simp

@[simp] theorem State.hearSwitch_canonical (s : State) (c : BitVec 32) : (s.hearSwitch c).square.canonical ↔ s.square.canonical := by
  simp [State.hearSwitch]

@[simp] theorem State.judgeLedgers_canonical (s : State) (c : BitVec 32) : (s.judgeLedgers c).square.canonical ↔ s.square.canonical := by
  simp [State.judgeLedgers]

@[simp] theorem State.startBlock_canonical (s : State) (e : Nat) (b : Block) (serving : List Nat) :
    (s.startBlock e b serving).square.canonical ↔ s.square.canonical :=
  Iff.rfl

@[simp] theorem State.nextBlock_canonical (s : State) (e : Nat) : (s.nextBlock e).square.canonical ↔ s.square.canonical := by
  unfold State.nextBlock
  dsimp only
  (repeat' split) <;> simp

@[simp] theorem State.point_canonical (s : State) (e : Nat) : (s.point e).square.canonical ↔ s.square.canonical := Iff.rfl

@[simp] theorem State.beginExecute_canonical (s : State) (e : Nat) : (s.beginExecute e).square.canonical ↔ s.square.canonical := by
  simp [State.beginExecute]

@[simp] theorem State.freezeContexts_canonical (s : State) : (s.freezeContexts).square.canonical ↔ s.square.canonical := Iff.rfl

@[simp] theorem State.reconcileTotal_canonical (s : State) (m : BitVec 32) (t : Nat) :
    (s.reconcileTotal m t).square.canonical ↔ s.square.canonical := by
  unfold State.reconcileTotal
  split <;> simp

@[simp] theorem State.reconcileTotals_canonical (s : State) (m : BitVec 32) : (s.reconcileTotals m).square.canonical ↔ s.square.canonical := by
  simp [State.reconcileTotals]

@[simp] theorem State.incomingFreeze_canonical (s : State) (c : BitVec 32) : (s.incomingFreeze c).square.canonical ↔ s.square.canonical := by
  simp [State.incomingFreeze]

@[simp] theorem State.totalsFreeze_canonical (s : State) (f : Nat) (c : BitVec 32) : (s.totalsFreeze f c).square.canonical ↔ s.square.canonical := by
  simp [State.totalsFreeze]

@[simp] theorem State.stationFreeze_canonical (s : State) (p : Nat) (x : Nat) (t : Nat) :
    (s.stationFreeze p x t).square.canonical ↔ s.square.canonical := by
  simp [State.stationFreeze]

@[simp] theorem State.ucFreeze_canonical (s : State) (n : Nat) (t : Nat) : (s.ucFreeze n t).square.canonical ↔ s.square.canonical := by
  simp [State.ucFreeze]

@[simp] theorem State.staleFreeze_canonical (s : State) (f : Nat) : (s.staleFreeze f).square.canonical ↔ s.square.canonical := by
  simp [State.staleFreeze]

@[simp] theorem State.trimPast_canonical (s : State) (f : Nat) : (s.trimPast f).square.canonical ↔ s.square.canonical := Iff.rfl
@[simp] theorem State.markSlots_canonical (s : State) : (s.markSlots).square.canonical ↔ s.square.canonical := Iff.rfl
@[simp] theorem State.resumeTimers_canonical (s : State) (f : Nat) : (s.resumeTimers f).square.canonical ↔ s.square.canonical := Iff.rfl

@[simp] theorem State.timerSlots_canonical (s : State) (before : Nat) (f : Nat) : (s.timerSlots before f).square.canonical ↔ s.square.canonical := by
  simp [State.timerSlots]

theorem State.commitHeld_canonical {s t : State} (h : s.commitHeld = some t) : t.square.canonical ↔ s.square.canonical := by
  unfold State.commitHeld at h
  simp only [Option.orElse_eq_orElse, Option.orElse_eq_or, Option.or_eq_some_iff] at h
  obtain h | ⟨-, h | ⟨-, h⟩⟩ := h
  · obtain ⟨r, -, hr⟩ := List.exists_of_findSome?_eq_some h
    exact State.writeWaits_canonical hr
  · obtain ⟨r, -, hr⟩ := List.exists_of_findSome?_eq_some h
    split at hr
    · cases hr; rfl
    · exact State.writeWaits_canonical hr
  · split at h
    · cases h
    · cases h; simp -implicitDefEqProofs

@[simp] theorem State.landOne_canonical (s : State) (x : Landing) : (s.landOne x).1.square.canonical ↔ s.square.canonical := by
  unfold State.landOne; split <;> simp

@[simp] theorem State.landAll_canonical (s : State) (l : List Landing) : (s.landAll l).1.square.canonical ↔ s.square.canonical := by
  induction l generalizing s with
  | nil => rfl
  | cons x l ih => simp [State.landAll, ih]

@[simp] theorem State.readTotals_canonical (s : State) : (s.readTotals).square.canonical ↔ s.square.canonical := by simp [State.readTotals]

@[simp] theorem State.landReplies_canonical (s : State) (l : List (Landing × Landed)) : (s.landReplies l).square.canonical ↔ s.square.canonical := by
  induction l generalizing s with
  | nil => rfl
  | cons x l ih => unfold State.landReplies; rw [ih]; (repeat' split) <;> simp

@[simp] theorem State.putCoeffWord_canonical (s : State) (n : Nat) (i : Nat) (c : Nat) (w : Word) (p : optParam Bool false) :
    (s.putCoeffWord n i c w p).square.canonical ↔ s.square.canonical := by
  simp [State.putCoeffWord]

@[simp] theorem State.putSet_canonical (s : State) (n : Nat) (l : List (List Word)) (bad : List Nat) :
    (s.putSet n l bad).square.canonical ↔ s.square.canonical := by
  simp [State.putSet]

@[simp] theorem State.putCoeff_canonical (s : State) (n : Nat) (i : Nat) (c : Nat) (v : Word) (sh : Nat) :
    (s.putCoeff n i c v sh).square.canonical ↔ s.square.canonical := by
  simp [State.putCoeff]

@[simp] theorem State.loopLand_canonical (s : State) (n : Nat) (k : BitVec 32) : (s.loopLand n k).square.canonical ↔ s.square.canonical := by
  unfold State.loopLand
  dsimp only
  (repeat' split) <;> simp

@[simp] theorem State.settleLoop_canonical (s : State) (n : Nat) : (s.settleLoop n).square.canonical ↔ s.square.canonical := by
  simp [State.settleLoop]

@[simp] theorem State.showCycle_canonical (s : State) (c : BitVec 32) : (s.showCycle c).square.canonical ↔ s.square.canonical := Iff.rfl
@[simp] theorem State.holdMargin_canonical (s : State) : (s.holdMargin).square.canonical ↔ s.square.canonical := by simp [State.holdMargin]

@[simp] theorem State.sendLedger_canonical (s : State) (c : BitVec 32) : (s.sendLedger c).square.canonical ↔ s.square.canonical := by
  simp [State.sendLedger]

@[simp] theorem State.landClose_canonical (s : State) (t : Nat) (c : BitVec 32) : (s.landClose t c).square.canonical ↔ s.square.canonical := by
  simp [State.landClose]

@[simp] theorem State.commitTotal_canonical (s : State) (c : BitVec 32) (t : Nat) : (s.commitTotal c t).square.canonical ↔ s.square.canonical := by
  simp [State.commitTotal]

@[simp] theorem State.commitTotals_canonical (s : State) (c : BitVec 32) : (s.commitTotals c).square.canonical ↔ s.square.canonical := by
  simp [State.commitTotals]

@[simp] theorem State.rampDown_canonical (s : State) (n : Nat) : (s.rampDown n).square.canonical ↔ s.square.canonical := by simp [State.rampDown]

@[simp] theorem State.releaseHolds_canonical (s : State) : s.releaseHolds.square.canonical ↔ s.square.canonical := by
  unfold State.releaseHolds; simp -implicitDefEqProofs

@[simp] theorem State.rampUp_canonical (s : State) (n : Nat) : (s.rampUp n).square.canonical ↔ s.square.canonical := by simp [State.rampUp]
@[simp] theorem State.ucExcite_canonical (s : State) (n : Nat) : (s.ucExcite n).square.canonical ↔ s.square.canonical := by simp [State.ucExcite]
@[simp] theorem State.riseClaim_canonical (s : State) : (s.riseClaim).square.canonical ↔ s.square.canonical := by simp [State.riseClaim]
@[simp] theorem State.startScans_canonical (s : State) : (s.startScans).square.canonical ↔ s.square.canonical := by simp [State.startScans]

@[simp] theorem State.incomingApply_canonical (s : State) (c : BitVec 32) : (s.incomingApply c).square.canonical ↔ s.square.canonical := by
  simp [State.incomingApply]

@[simp] theorem State.canCommit_canonical (s : State) (cy : BitVec 32) : (s.canCommit cy).square.canonical ↔ s.square.canonical := by
  unfold State.canCommit
  rw [State.each_canonical]
  intro s p
  simp -implicitDefEqProofs

@[simp] theorem State.panelCommit_canonical (s : State) : (s.panelCommit).square.canonical ↔ s.square.canonical := by simp [State.panelCommit]

@[simp] theorem State.subTake_canonical (s : State) (marks : List Nat) (k : Nat) : (s.subTake marks k).square.canonical ↔ s.square.canonical := by
  unfold State.subTake
  split <;> simp

@[simp] theorem State.dropTake_canonical (s : State) (k : Nat) : (s.dropTake k).square.canonical ↔ s.square.canonical := Iff.rfl

@[simp] theorem State.subCommit_canonical (s : State) : (s.subCommit).square.canonical ↔ s.square.canonical := by
  unfold State.subCommit
  refine State.each_canonical _ _ _ fun s x => ?_
  (repeat' split) <;> simp

@[simp] theorem State.loopApply_canonical (s : State) : (s.loopApply).square.canonical ↔ s.square.canonical := Iff.rfl
@[simp] theorem State.fireApply_canonical (s : State) : (s.fireApply).square.canonical ↔ s.square.canonical := Iff.rfl

@[simp] theorem State.ucCalibrated_canonical (s : State) (n : Nat) : (s.ucCalibrated n).square.canonical ↔ s.square.canonical := by
  simp [State.ucCalibrated]

@[simp] theorem State.keepOutputs_canonical (s : State) : (s.keepOutputs).square.canonical ↔ s.square.canonical := Iff.rfl
@[simp] theorem State.applyChannels_canonical (s : State) : (s.applyChannels).square.canonical ↔ s.square.canonical := by simp [State.applyChannels]
@[simp] theorem State.applyOutputs_canonical (s : State) : (s.applyOutputs).square.canonical ↔ s.square.canonical := by simp [State.applyOutputs]

@[simp] theorem State.rehearseFault_canonical (s : State) (item : Nat) (n : Nat) :
    (s.rehearseFault item n).square.canonical ↔ s.square.canonical := by
  simp [State.rehearseFault]

@[simp] theorem State.rehearseCheck_canonical (s : State) (k : Nat) : (s.rehearseCheck k).square.canonical ↔ s.square.canonical := by
  unfold State.rehearseCheck
  (repeat' split) <;> simp

@[simp] theorem State.rehearseChecks_canonical (s : State) (c : BitVec 32) : (s.rehearseChecks c).square.canonical ↔ s.square.canonical := by
  unfold State.rehearseChecks
  split <;> simp

@[simp] theorem State.ownBase_canonical (s : State) (c : BitVec 32) (t : Nat) : (s.ownBase c t).square.canonical ↔ s.square.canonical := Iff.rfl
@[simp] theorem State.canToStandby_canonical (s : State) : (s.canToStandby).square.canonical ↔ s.square.canonical := by simp [State.canToStandby]

@[simp] theorem State.giveClaim_canonical (s : State) (c : BitVec 32) : (s.giveClaim c).square.canonical ↔ s.square.canonical := by
  unfold State.giveClaim; split
  · rfl
  · split
    · rfl
    · simp -implicitDefEqProofs

@[simp] theorem State.commitOwn_canonical (s : State) (c : BitVec 32) : (s.commitOwn c).square.canonical ↔ s.square.canonical := by
  simp [State.commitOwn]

@[simp] theorem State.compareFingerprint_canonical (s : State) (l : Ledger) : (s.compareFingerprint l).square.canonical ↔ s.square.canonical := by
  unfold State.compareFingerprint
  split <;> simp

@[simp] theorem State.keepFingerprint_canonical (s : State) (c : BitVec 32) : (s.keepFingerprint c).square.canonical ↔ s.square.canonical := by
  unfold State.keepFingerprint
  dsimp only
  (repeat' split) <;> simp

@[simp] theorem State.shadowClose_canonical (s : State) (c : BitVec 32) (t : Nat) : (s.shadowClose c t).square.canonical ↔ s.square.canonical := by
  simp [State.shadowClose]

@[simp] theorem State.shadowTotals_canonical (s : State) (c : BitVec 32) : (s.shadowTotals c).square.canonical ↔ s.square.canonical := by
  simp [State.shadowTotals]

@[simp] theorem State.commitShadow_canonical (s : State) (c : BitVec 32) : (s.commitShadow c).square.canonical ↔ s.square.canonical := by
  simp [State.commitShadow]

/-! ## The parts of an instruction -/

@[simp] theorem State.waitPage_canonical (s : State) (e : Nat) : (s.waitPage e).square.canonical ↔ s.square.canonical := Iff.rfl

theorem State.holdIssue_canonical {s t : State} {e n : Nat} {l : List Touch} (h : s.holdIssue e n l = some t) :
    t.square.canonical ↔ s.square.canonical := by
  unfold State.holdIssue at h
  dsimp only at h
  split at h
  · cases h; simp
  · split at h
    · cases h; simp
    · obtain ⟨b, -, rfl⟩ := Option.map_eq_some_iff.mp h; simp

@[simp] theorem State.fetchIssue_canonical (s : State) (e : Nat) (n : Nat) (l : List Touch) :
    (s.fetchIssue e n l).square.canonical ↔ s.square.canonical := by
  simp [State.fetchIssue]

theorem State.takeBit_canonical {s t : State} {e : Nat} {o : Operand} {v : Bool × Bool} (h : s.takeBit e o = some (t, v)) :
    t.square.canonical ↔ s.square.canonical := by
  unfold State.takeBit at h
  obtain ⟨b, -, hb⟩ := Option.map_eq_some_iff.mp h
  split at hb <;> cases hb <;> simp

@[simp] theorem State.ownershipFault_canonical (s : State) (e : Nat) (a : Area) (w : Nat) :
    (s.ownershipFault e a w).square.canonical ↔ s.square.canonical := by
  simp [State.ownershipFault]

@[simp] theorem State.busy_canonical (s : State) (e : Nat) (n : Nat) : (s.busy e n).square.canonical ↔ s.square.canonical := Iff.rfl
@[simp] theorem State.posted_canonical (s : State) (e : Nat) : (s.posted e).square.canonical ↔ s.square.canonical := by simp [State.posted]

theorem State.takeWordAt_canonical {s : State} {e : Nat} {a : Area} {off : Nat} {v : Verdict} {x : State × Word × Bool}
    (h : s.takeWordAt e a off v = some x) : x.1.square.canonical ↔ s.square.canonical := by
  unfold State.takeWordAt at h
  dsimp only at h
  split at h
  · cases h
  · split at h <;> cases h <;> simp

@[simp] theorem State.load_canonical (s : State) (e : Nat) : (s.load e).square.canonical ↔ s.square.canonical := Iff.rfl

@[simp] theorem State.consumePoison_canonical (s : State) (e : Nat) (a : Nat) : (s.consumePoison e a).square.canonical ↔ s.square.canonical := by
  simp [State.consumePoison]

theorem State.jump_canonical {s t : State} {e : Nat} {b : BitVec 20} (h : s.jump e b = .ok t) : t.square.canonical ↔ s.square.canonical := by
  unfold State.jump at h
  split at h <;> cases h
  rfl

theorem State.call_canonical {s t : State} {e : Nat} {b : BitVec 20} (h : s.call e b = .ok t) : t.square.canonical ↔ s.square.canonical := by
  unfold State.call at h
  split at h
  · cases h
  · split at h
    · cases h
    · split at h <;> cases h
      rfl

/-! ## The loop engine, channels, digital inputs and outputs -/

@[simp] theorem State.beginTick_canonical (s : State) : (s.beginTick).square.canonical ↔ s.square.canonical := Iff.rfl
@[simp] theorem State.loopCount_canonical (s : State) (n : Nat) : (s.loopCount n).square.canonical ↔ s.square.canonical := Iff.rfl

@[simp] theorem State.loopDeliver_canonical (s : State) (n : Nat) : (s.loopDeliver n).square.canonical ↔ s.square.canonical := by
  simp [State.loopDeliver]

@[simp] theorem State.loopMirror_canonical (s : State) (t : Nat) (n : Nat) : (s.loopMirror t n).square.canonical ↔ s.square.canonical := by
  unfold State.loopMirror
  split <;> simp

@[simp] theorem State.loopEvent_canonical (s : State) (n : Nat) (rise : Bool) (k : Option RecKind) :
    (s.loopEvent n rise k).square.canonical ↔ s.square.canonical := by
  unfold State.loopEvent
  (repeat' split) <;> simp

@[simp] theorem State.ucToFire_canonical (s : State) (n : Nat) : (s.ucToFire n).square.canonical ↔ s.square.canonical := by simp [State.ucToFire]

@[simp] theorem State.ucLimits_canonical (s : State) (n : Nat) (v : ℤ) : (s.ucLimits n v).square.canonical ↔ s.square.canonical := by
  simp [State.ucLimits]

@[simp] theorem State.ucDeliver_canonical (s : State) (n : Nat) (c : Conversion) : (s.ucDeliver n c).square.canonical ↔ s.square.canonical := by
  simp [State.ucDeliver]

@[simp] theorem State.ucBadToFire_canonical (s : State) (n : Nat) : (s.ucBadToFire n).square.canonical ↔ s.square.canonical := by
  simp [State.ucBadToFire]

@[simp] theorem State.setDGroup_canonical (s : State) (k : GroupKind) (g : Nat) (x : DGroup) :
    (s.setDGroup k g x).square.canonical ↔ s.square.canonical := by
  unfold State.setDGroup
  split <;> simp

@[simp] theorem State.raiseGroup_canonical (s : State) (r : RecKind) (k : GroupKind) (g : Nat) :
    (s.raiseGroup r k g).square.canonical ↔ s.square.canonical := by
  simp [State.raiseGroup]

@[simp] theorem State.dropCounting_canonical (s : State) (g : Nat) :
    (s.dropCounting g).square.canonical ↔ s.square.canonical := State.each_canonical _ _ _ fun _ _ => Iff.rfl

@[simp] theorem State.diGroupToFire_canonical (s : State) (g : Nat) : (s.diGroupToFire g).square.canonical ↔ s.square.canonical := by
  simp [State.diGroupToFire]

@[simp] theorem State.uvloRecovered_canonical (s : State) (n : Nat) : (s.uvloRecovered n).square.canonical ↔ s.square.canonical := by
  simp [State.uvloRecovered]

@[simp] theorem State.doFaultRise_canonical (s : State) (kind : Nat) (n : Nat) : (s.doFaultRise kind n).square.canonical ↔ s.square.canonical := by
  simp [State.doFaultRise]

@[simp] theorem State.doProtect_canonical (s : State) (n : Nat) (thermal : Bool) : (s.doProtect n thermal).square.canonical ↔ s.square.canonical := by
  simp [State.doProtect]

/-! ## CAN ports -/

@[simp] theorem State.enterBusOff_canonical (s : State) (p : Nat) : (s.enterBusOff p).square.canonical ↔ s.square.canonical := by
  simp [State.enterBusOff]

@[simp] theorem State.judgeCan_canonical (s : State) (p : Nat) : (s.judgeCan p).square.canonical ↔ s.square.canonical := by simp [State.judgeCan]

@[simp] theorem State.refDone_canonical (s : State) (p : Nat) (kind : Nat) (ok : Bool) (t : Nat) :
    (s.refDone p kind ok t).square.canonical ↔ s.square.canonical := by
  simp [State.refDone]

@[simp] theorem State.keepSent_canonical (s : State) (p : Nat) (x : Nat) (k : Nat) (f : CanFrame) :
    (s.keepSent p x k f).square.canonical ↔ s.square.canonical := Iff.rfl

@[simp] theorem State.emergencySent_canonical (s : State) (p : Nat) (f : CanFrame) : (s.emergencySent p f).square.canonical ↔ s.square.canonical := by
  unfold State.emergencySent
  refine State.each_canonical _ _ _ fun s x => ?_
  simp

@[simp] theorem State.jobDone_canonical (s : State) (p : Nat) (j : TxJob) (f : CanFrame) (ok : Bool) (t : Nat) :
    (s.jobDone p j f ok t).square.canonical ↔ s.square.canonical := by
  unfold State.jobDone
  split <;> simp

@[simp] theorem State.recBad_canonical (s : State) (p : Nat) (k : CanRxError) : (s.recBad p k).square.canonical ↔ s.square.canonical := by
  unfold State.recBad
  dsimp only
  (repeat' split) <;> simp

@[simp] theorem State.recGood_canonical (s : State) (p : Nat) : (s.recGood p).square.canonical ↔ s.square.canonical := by simp [State.recGood]
@[simp] theorem State.filterFrame_canonical (s : State) (p : Nat) : (s.filterFrame p).square.canonical ↔ s.square.canonical := Iff.rfl

@[simp] theorem State.stationInput_canonical (s : State) (p : Nat) (x : Nat) (k : Nat) (f : CanFrame) :
    (s.stationInput p x k f).square.canonical ↔ s.square.canonical := by
  simp [State.stationInput]

@[simp] theorem State.storedFrame_canonical (s : State) (p : Nat) (cfg : Word) : (s.storedFrame p cfg).square.canonical ↔ s.square.canonical := by
  simp [State.storedFrame]

@[simp] theorem State.ramStore_canonical (s : State) (p : Nat) (inFifo : Bool) (m match_ : Nat) (f : CanFrame) (cfg : Word) :
    (s.ramStore p inFifo m match_ f cfg).square.canonical ↔ s.square.canonical := by
  unfold State.ramStore; dsimp only; split
  · rfl
  · split
    · next h => simp [State.writeWaits_canonical h]
    · simp

@[simp] theorem State.listStore_canonical (s : State) (p : Nat) (f : CanFrame) : (s.listStore p f).square.canonical ↔ s.square.canonical := by
  unfold State.listStore
  split <;> simp

@[simp] theorem State.mailboxStore_canonical (s : State) (p : Nat) (f : CanFrame) : (s.mailboxStore p f).square.canonical ↔ s.square.canonical := by
  unfold State.mailboxStore
  dsimp only
  (repeat' split) <;> simp

@[simp] theorem State.storeFrame_canonical (s : State) (p : Nat) (f : CanFrame) : (s.storeFrame p f).square.canonical ↔ s.square.canonical := by
  simp [State.storeFrame]

@[simp] theorem State.observeRef_canonical (s : State) (p : Nat) (f : CanFrame) : (s.observeRef p f).square.canonical ↔ s.square.canonical := by
  unfold State.observeRef
  split <;> simp

@[simp] theorem State.dispose_canonical (s : State) (p : Nat) (f : CanFrame) : (s.dispose p f).square.canonical ↔ s.square.canonical := by
  unfold State.dispose
  split <;> simp

@[simp] theorem State.frameGate_canonical (s : State) (p col from_ : Nat) (at_ : List Nat) :
    (s.frameGate p col from_ at_).1.square.canonical ↔ s.square.canonical := by
  unfold State.frameGate
  simp only [apply_ite Prod.fst, State.ite_square, Square.ite_canonical]
  simp

@[simp] theorem State.serve_canonical (s : State) (p : Nat) (col : Nat) : (s.serve p col).square.canonical ↔ s.square.canonical := Iff.rfl

@[simp] theorem State.startInWindow_canonical (s : State) (p : Nat) (j : TxJob) (f : CanFrame) (z : Nat) :
    (s.startInWindow p j f z).square.canonical ↔ s.square.canonical := by
  simp [State.startInWindow]

@[simp] theorem State.offerFrame_canonical (s : State) (p : Nat) (j : TxJob) (f : CanFrame) (z : Nat) :
    (s.offerFrame p j f z).square.canonical ↔ s.square.canonical := by
  simp [State.offerFrame]

@[simp] theorem State.stationFrame_canonical (s : State) (p x k : Nat) (bad : List Nat) :
    (s.stationFrame p x k bad).1.square.canonical ↔ s.square.canonical := by
  unfold State.stationFrame; simp

@[simp] theorem State.serveWindows_canonical (s : State) (p : Nat) (l : List (TxJob × CanFrame × Nat)) :
    (s.serveWindows p l).square.canonical ↔ s.square.canonical := by
  induction l generalizing s with
  | nil => rfl
  | cons w l ih => simp [State.serveWindows, ih]

@[simp] theorem State.busIdle_canonical (s : State) (p : Nat) : (s.busIdle p).square.canonical ↔ s.square.canonical := by
  unfold State.busIdle
  dsimp only
  (repeat' split) <;> simp

/-! ## Fire Lane and pair -/

@[simp] theorem State.tripFn_canonical (s : State) (f : Nat) (votes : Nat) : (s.tripFn f votes).square.canonical ↔ s.square.canonical := by
  simp [State.tripFn]

@[simp] theorem State.evalFn_canonical (s : State) (f : Nat) : (s.evalFn f).square.canonical ↔ s.square.canonical := by simp [State.evalFn]
@[simp] theorem State.evalFns_canonical (s : State) : (s.evalFns).square.canonical ↔ s.square.canonical := by simp [State.evalFns]

@[simp] theorem State.countBadFrame_canonical (s : State) (m : FireMsg) : (s.countBadFrame m).square.canonical ↔ s.square.canonical := by
  unfold State.countBadFrame
  split <;> simp

@[simp] theorem State.putSlot_canonical (s : State) (i : Nat) (x : FireSlot) : (s.putSlot i x).square.canonical ↔ s.square.canonical := by
  simp [State.putSlot]

@[simp] theorem State.deliverSlot_canonical (s : State) (i : Nat) (cond : Option Bool) (reason : Nat) :
    (s.deliverSlot i cond reason).square.canonical ↔ s.square.canonical := by
  simp [State.deliverSlot]

@[simp] theorem State.channelBad_canonical (s : State) (i : Nat) (bad : Bool) : (s.channelBad i bad).square.canonical ↔ s.square.canonical := by
  simp [State.channelBad]

@[simp] theorem State.slotMessage_canonical (m : FireMsg) (s : State) (i : Nat) :
    (State.slotMessage m s i).square.canonical ↔ s.square.canonical := by
  unfold State.slotMessage; split <;> (repeat' split) <;> simp

@[simp] theorem State.slotTimeout_canonical (s : State) (i : Nat) : (s.slotTimeout i).square.canonical ↔ s.square.canonical := by
  unfold State.slotTimeout
  split <;> simp

@[simp] theorem State.hearPath_canonical (s : State) (path : HbPath) : (s.hearPath path).square.canonical ↔ s.square.canonical := by
  unfold State.hearPath
  split <;> simp

@[simp] theorem State.judgeLine_canonical (s : State) : (s.judgeLine).square.canonical ↔ s.square.canonical := by
  unfold State.judgeLine
  split <;> simp

@[simp] theorem State.toAlone_canonical (s : State) : (s.toAlone).square.canonical ↔ s.square.canonical := by simp [State.toAlone]
@[simp] theorem State.snapshotBanks_canonical (s : State) : (s.snapshotBanks).square.canonical ↔ s.square.canonical := Iff.rfl

@[simp] theorem State.yieldRole_canonical (s : State) (h : Heartbeat) : (s.yieldRole h).square.canonical ↔ s.square.canonical := by
  simp [State.yieldRole]

@[simp] theorem State.claimRole_canonical (s : State) : (s.claimRole).square.canonical ↔ s.square.canonical := by simp [State.claimRole]

@[simp] theorem State.settleRole_canonical (s : State) (h : Heartbeat) : (s.settleRole h).square.canonical ↔ s.square.canonical := by
  simp [State.settleRole]

@[simp] theorem State.seePartner_canonical (s : State) (was : Option Heartbeat) (h : Heartbeat) :
    (s.seePartner was h).square.canonical ↔ s.square.canonical := by
  unfold State.seePartner
  split
  · simp
  · simp only []
    split <;> split <;> simp -implicitDefEqProofs
  · simp
  · rfl

@[simp] theorem State.lineEdge_canonical (s : State) : (s.lineEdge).square.canonical ↔ s.square.canonical := Iff.rfl
@[simp] theorem State.beginHandBack_canonical (s : State) : (s.beginHandBack).square.canonical ↔ s.square.canonical := Iff.rfl

@[simp] theorem State.hearRehearsal_canonical (s : State) (c : Change) (h : BitVec 32) :
    (s.hearRehearsal c h).square.canonical ↔ s.square.canonical := by
  unfold State.hearRehearsal
  split <;> simp

@[simp] theorem State.acknowledged_canonical (s : State) (boundary : BitVec 32) :
    (s.acknowledged boundary).square.canonical ↔ s.square.canonical := Iff.rfl

@[simp] theorem State.totBoundary_canonical (l : List (Option (Nat × ℤ))) (s : State) (t : Nat) :
    (State.totBoundary l s t).square.canonical ↔ s.square.canonical := by
  unfold State.totBoundary
  (repeat' split) <;> simp

/-! ## Repair, recorder, panel, ring and power -/

@[simp] theorem State.storeWaiting_canonical (s : State) (p : Nat) : (s.storeWaiting p).square.canonical ↔ s.square.canonical := by
  unfold State.storeWaiting
  split <;> simp

@[simp] theorem State.restHard_canonical (s : State) (a : Nat) (page : Nat) (bad : List Nat) (hard : List Nat) :
    (s.restHard a page bad hard).square.canonical ↔ s.square.canonical :=
  Iff.rfl

@[simp] theorem State.voidItem_canonical (s : State) (i : MramItem) (lose : State → State)
    (h : ∀ t, (lose t).square.canonical ↔ t.square.canonical) : (s.voidItem i lose).square.canonical ↔ s.square.canonical := by
  unfold State.voidItem; simp [h]

@[simp] theorem State.loseObject_canonical (s : State) (index : Nat) : (s.loseObject index).square.canonical ↔ s.square.canonical := by
  simp [State.loseObject]

@[simp] theorem State.loseFire_canonical (s : State) (k : Nat) (both : Bool) : (s.loseFire k both).square.canonical ↔ s.square.canonical := by
  simp [State.loseFire]

@[simp] theorem State.voidCopy_canonical (s : State) (at_ : Nat) : (s.voidCopy at_).square.canonical ↔ s.square.canonical := by simp [State.voidCopy]

@[simp] theorem State.voidRetained_canonical (s : State) (i : Nat) : (s.voidRetained i).square.canonical ↔ s.square.canonical := by
  unfold State.voidRetained
  split <;> simp

@[simp] theorem State.loseSlots_canonical (s : State) : s.loseSlots.square.canonical ↔ s.square.canonical := by
  simp -implicitDefEqProofs [State.loseSlots]

@[simp] theorem State.loseItem_canonical (s : State) (hit : List MramItem) (i : MramItem) :
    (s.loseItem hit i).square.canonical ↔ s.square.canonical := by
  unfold State.loseItem
  split <;> simp

@[simp] theorem State.judgeScrub_canonical (s : State) (a : Nat) (addr : Nat) (v : Verdict) :
    (s.judgeScrub a addr v).square.canonical ↔ s.square.canonical := by
  unfold State.judgeScrub
  split <;> simp

@[simp] theorem State.scrubUpset_canonical (s : State) (a : Nat) (u : Upset) : (s.scrubUpset a u).square.canonical ↔ s.square.canonical := by
  simp [State.scrubUpset]

@[simp] theorem State.scrubTo_canonical (s : State) (a : Nat) (place : Nat) : (s.scrubTo a place).square.canonical ↔ s.square.canonical := by
  simp [State.scrubTo]

@[simp] theorem State.recordDone_canonical (s : State) (q : Raised) (i : BitVec 32) : (s.recordDone q i).square.canonical ↔ s.square.canonical := by
  unfold State.recordDone
  (repeat' split) <;> simp

@[simp] theorem State.recordLost_canonical (s : State) (q : Raised) : (s.recordLost q).square.canonical ↔ s.square.canonical := by
  simp [State.recordLost]

@[simp] theorem State.leaveQueue_canonical (s : State) (q : Raised) (rest : List Raised) :
    (s.leaveQueue q rest).square.canonical ↔ s.square.canonical := Iff.rfl

@[simp] theorem State.writeSlot_canonical (s : State) (slot : Nat) : (s.writeSlot slot).square.canonical ↔ s.square.canonical := by
  simp [State.writeSlot]

@[simp] theorem State.rewriteRecord_canonical (s : State) (i : BitVec 32) (r : Record) :
    (s.rewriteRecord i r).square.canonical ↔ s.square.canonical := by
  simp [State.rewriteRecord]

@[simp] theorem State.writeSlots_canonical (s : State) : (s.writeSlots).square.canonical ↔ s.square.canonical := by simp [State.writeSlots]

@[simp] theorem State.displace_canonical (s : State) (i : BitVec 32) : (s.displace i).square.canonical ↔ s.square.canonical := by
  unfold State.displace
  split <;> simp

theorem State.roomFor_canonical {s t : State} {r : Record} {n : Nat} (h : s.roomFor r = some (t, n)) : t.square.canonical ↔ s.square.canonical := by
  unfold State.roomFor at h
  dsimp only at h
  split at h
  · cases h; simp
  · split at h
    · cases h; rfl
    · obtain ⟨e, -, he⟩ := Option.map_eq_some_iff.mp h; cases he; simp

@[simp] theorem State.putRecord_canonical (s : State) (r : Record) (slot : Nat) : (s.putRecord r slot).square.canonical ↔ s.square.canonical := by
  simp [State.putRecord]

@[simp] theorem State.placeRecord_canonical (s : State) (q : Raised) : (s.placeRecord q).square.canonical ↔ s.square.canonical := by
  unfold State.placeRecord; split
  · next h => simp [State.roomFor_canonical h]
  · simp

@[simp] theorem State.panelCheck_canonical (s : State) : (s.panelCheck).square.canonical ↔ s.square.canonical := by simp [State.panelCheck]
@[simp] theorem State.panelSwap_canonical (s : State) : (s.panelSwap).square.canonical ↔ s.square.canonical := by simp [State.panelSwap]

@[simp] theorem State.plateDone_canonical (s : State) : (s.plateDone).square.canonical ↔ s.square.canonical := by
  unfold State.plateDone
  dsimp only
  (repeat' split) <;> simp

@[simp] theorem State.judgeDuplicate_canonical (s : State) (address : BitVec 16) (serial : BitVec 64) :
    (s.judgeDuplicate address serial).square.canonical ↔ s.square.canonical := by
  simp [State.judgeDuplicate]

@[simp] theorem State.noteStation_canonical (s : State) (kind : Nat) (serial : BitVec 64) (seq : BitVec 32) :
    (s.noteStation kind serial seq).square.canonical ↔ s.square.canonical :=
  Iff.rfl

@[simp] theorem State.takeAnnounce_canonical (s : State) (address : BitVec 16) (serial : BitVec 64) :
    (s.takeAnnounce address serial).square.canonical ↔ s.square.canonical := by
  simp [State.takeAnnounce]

@[simp] theorem State.askDelay_canonical (s : State) : (s.askDelay).square.canonical ↔ s.square.canonical := by simp [State.askDelay]
@[simp] theorem State.shiftTime_canonical (s : State) (offset : ℤ) : (s.shiftTime offset).square.canonical ↔ s.square.canonical := Iff.rfl

@[simp] theorem State.stepTime_canonical (s : State) (offset : ℤ) : (s.stepTime offset).square.canonical ↔ s.square.canonical := by
  simp [State.stepTime]

@[simp] theorem State.freeTorn_canonical (s : State) : (s.freeTorn).square.canonical ↔ s.square.canonical := by simp [State.freeTorn]

@[simp] theorem State.finishMerge_canonical (s : State) : (s.finishMerge).square.canonical ↔ s.square.canonical := by
  unfold State.finishMerge
  split <;> simp

@[simp] theorem State.recorderStart_canonical (s : State) : s.recorderStart.square.canonical ↔ s.square.canonical := by
  simp -implicitDefEqProofs [State.recorderStart]

@[simp] theorem State.readMram_canonical (s : State) : (s.readMram).square.canonical ↔ s.square.canonical := by simp [State.readMram]

@[simp] theorem State.checkMram_canonical (s : State) : s.checkMram.square.canonical ↔ s.square.canonical := by
  unfold State.checkMram; simp -implicitDefEqProofs

@[simp] theorem State.feedTold_canonical (s : State) (feed : Fin 2) (mv : Nat) : (s.feedTold feed mv).square.canonical ↔ s.square.canonical := Iff.rfl
@[simp] theorem State.bankReads_canonical (s : State) : (s.bankReads).square.canonical ↔ s.square.canonical := by simp [State.bankReads]

theorem State.spansWait_canonical {s t : State} {l : List (Nat × Nat × Nat)} (h : s.spansWait l = some t) :
    t.square.canonical ↔ s.square.canonical := by
  unfold State.spansWait at h
  split at h
  · cases h; rfl
  · split at h <;> cases h
    simp

@[simp] theorem State.restoreBank_canonical (s : State) (i : Nat) : (s.restoreBank i).square.canonical ↔ s.square.canonical := by
  simp [State.restoreBank]

@[simp] theorem State.memoryTest_canonical (s : State) (cold : Bool) (hard : List (Fin 8 × Nat)) :
    (s.memoryTest cold hard).square.canonical ↔ s.square.canonical := by
  simp [State.memoryTest]

@[simp] theorem State.canRamWritten_canonical (s : State) : (s.canRamWritten).square.canonical ↔ s.square.canonical := Iff.rfl
@[simp] theorem State.loopFullService_canonical (s : State) : (s.loopFullService).square.canonical ↔ s.square.canonical := Iff.rfl
@[simp] theorem State.initCycle_canonical (s : State) (cold : Bool) : (s.initCycle cold).square.canonical ↔ s.square.canonical := Iff.rfl
@[simp] theorem State.initUnits_canonical (s : State) (r : Option Retained) : (s.initUnits r).square.canonical ↔ s.square.canonical := Iff.rfl

@[simp] theorem State.ucCalibrate_canonical (s : State) (n : Nat) (failed : Bool) :
    (s.ucCalibrate n failed).square.canonical ↔ s.square.canonical := by
  simp [State.ucCalibrate]

@[simp] theorem State.halt_canonical (s : State) : (s.halt).square.canonical ↔ s.square.canonical := by simp [State.halt]
@[simp] theorem State.riseAgainst_canonical (s : State) : (s.riseAgainst).square.canonical ↔ s.square.canonical := by simp [State.riseAgainst]

@[simp] theorem State.checkHolds_canonical (s : State) : (s.checkHolds).square.canonical ↔ s.square.canonical := by
  unfold State.checkHolds
  split <;> simp

@[simp] theorem State.syncToken_canonical (s : State) (c : BitVec 32) (instant : Nat) :
    (s.syncToken c instant).square.canonical ↔ s.square.canonical := Iff.rfl

@[simp] theorem State.takeRunning_canonical (s : State) (runBank : Bool) (run : Bool) :
    (s.takeRunning runBank run).square.canonical ↔ s.square.canonical := by
  simp [State.takeRunning]

@[simp] theorem State.adoptTotals_canonical (s : State) (c : BitVec 32) (f : Nat) (l : List SnapTotal) :
    (s.adoptTotals c f l).square.canonical ↔ s.square.canonical := by
  simp [State.adoptTotals]

/-! ## The Roundabout and the writes of configuration that fire (R138 to R149) -/

@[simp] theorem State.partDone_canonical (s : State) (n : Nat) : (s.partDone n).square.canonical ↔ s.square.canonical := Iff.rfl

@[simp] theorem State.takeBlock_canonical (s : State) (n : Nat) (w : Word) : (s.takeBlock n w).square.canonical ↔ s.square.canonical := by
  unfold State.takeBlock
  (repeat' split) <;> simp

@[simp] theorem State.take_canonical (s : State) (n : Nat) : (s.take n).square.canonical ↔ s.square.canonical := by simp [State.take]
@[simp] theorem State.deliver_canonical (s : State) (g : Nat) : (s.deliver g).square.canonical ↔ s.square.canonical := by simp [State.deliver]

@[simp] theorem State.countFiring_canonical (s : State) (n t : Nat) : (s.countFiring n t).square.canonical ↔ s.square.canonical := by
  simp [State.countFiring]

@[simp] theorem State.fireNow_canonical (s : State) (n t : Nat) : (s.fireNow n t).square.canonical ↔ s.square.canonical := by simp [State.fireNow]
@[simp] theorem State.completeTask_canonical (s : State) (n : Nat) : (s.completeTask n).square.canonical ↔ s.square.canonical := by
  simp [State.completeTask]

@[simp] theorem State.landSource_canonical (s : State) (n : Nat) (old new : Word) :
    (s.landSource n old new).square.canonical ↔ s.square.canonical := by
  simp [State.landSource]

@[simp] theorem State.landGroup_canonical (s : State) (g : Nat) : (s.landGroup g).square.canonical ↔ s.square.canonical := by simp [State.landGroup]

@[simp] theorem State.afterWrite_canonical (s : State) (i k : Nat) (old new : Word) :
    (s.afterWrite i k old new).square.canonical ↔ s.square.canonical := by
  simp [State.afterWrite]

@[simp] theorem State.landWordAt_canonical (s : State) (key : Nat) (w : Word) : (s.landWordAt key w).square.canonical ↔ s.square.canonical := by
  simp [State.landWordAt]

@[simp] theorem State.landWords_canonical (l wait : List (Nat × Word)) (s : State) :
    (s.landWords l wait).1.square.canonical ↔ s.square.canonical := by
  induction l generalizing s wait with
  | nil => rfl
  | cons e l ih =>
    unfold State.landWords
    dsimp only
    simp only [apply_ite Prod.fst, State.ite_square, Square.ite_canonical, ih, State.landWordAt_canonical, ite_self]

@[simp] theorem State.landPending_canonical (s : State) : (s.landPending).square.canonical ↔ s.square.canonical := by simp [State.landPending]

@[simp] theorem State.takeWord_canonical (s : State) (i k : Nat) (w : Word) (b : Option (BitVec 32)) :
    (s.takeWord i k w b).square.canonical ↔ s.square.canonical := by
  unfold State.takeWord
  dsimp only
  (repeat' split) <;> simp

@[simp] theorem State.acceptWord_canonical (s : State) (i k : Nat) (w : Word) : (s.acceptWord i k w).square.canonical ↔ s.square.canonical := by
  unfold State.acceptWord
  dsimp only
  (repeat' split) <;> simp

@[simp] theorem State.acceptWrites_canonical (s : State) (l : List ObjWrite) : (s.acceptWrites l).square.canonical ↔ s.square.canonical := by
  simp [State.acceptWrites]

@[simp] theorem State.takeObjects_canonical (s : State) (l : List (Nat × Word)) : (s.takeObjects l).square.canonical ↔ s.square.canonical := by
  unfold State.takeObjects
  dsimp only
  rw [State.each_canonical, State.each_canonical]
  · intro t k
    (repeat' split) <;> simp
  · intro t p
    split <;> simp

@[simp] theorem State.placePart_canonical (s : State) (n : Nat) : (s.placePart n).square.canonical ↔ s.square.canonical := by
  unfold State.placePart
  dsimp only
  (repeat' split) <;> simp

@[simp] theorem State.receive_canonical (s : State) (m : Message) : (s.receive m).square.canonical ↔ s.square.canonical := by
  unfold State.receive
  split <;> simp

@[simp] theorem State.sendNext_canonical (s : State) (a : Nat) : (s.sendNext a).square.canonical ↔ s.square.canonical := by
  unfold State.sendNext
  split <;> simp

@[simp] theorem State.rehome_canonical (s : State) : (s.rehome).square.canonical ↔ s.square.canonical := by
  simp -implicitDefEqProofs [State.rehome]
@[simp] theorem State.enterExecute_canonical (s : State) : (s.enterExecute).square.canonical ↔ s.square.canonical := by
  simp -implicitDefEqProofs [State.enterExecute]

@[simp] theorem State.endBlock_canonical (s : State) (e : Nat) : (s.endBlock e).square.canonical ↔ s.square.canonical := by
  unfold State.endBlock
  dsimp only
  split <;> split <;> simp

@[simp] theorem State.returnOrEnd_canonical (s : State) (e : Nat) : (s.returnOrEnd e).square.canonical ↔ s.square.canonical := by
  unfold State.returnOrEnd
  split <;> simp


@[simp] theorem runWriteObject_canonical (c : Ctx) (b : List Byte) (s : State) : (runWriteObject c b s).square.canonical ↔ s.square.canonical := by
  unfold runWriteObject
  dsimp only
  (repeat' split) <;> simp

@[simp] theorem runChannelMode_canonical (c : Ctx) (b : List Byte) (s : State) : (runChannelMode c b s).square.canonical ↔ s.square.canonical := by
  unfold runChannelMode
  dsimp only
  (repeat' split) <;> simp

@[simp] theorem runSetPending_canonical (c : Ctx) (b : List Byte) (s : State) : (runSetPending c b s).square.canonical ↔ s.square.canonical := by
  simp [runSetPending]

end Sys2Proof.Machine
end

/-! # Functions that write the Town Square

Functions that write bytes or marks of the Town Square, or clear or copy them: each one keeps the canonical form. -/

section
namespace Sys2Proof.Machine
open Sys2Proof

/-! ## Writing into the Town Square -/

theorem State.canonical_each {α : Type} {s : State} {f : State → α → State} (h : s.square.canonical) (l : List α)
    (hf : ∀ t x, t.square.canonical → (f t x).square.canonical) : (s.each l f).square.canonical := by
  induction l generalizing s with
  | nil => exact h
  | cons x l ih => exact ih (hf s x h)

theorem State.foldl_canonical_of {α : Type} {s : State} {f : State → α → State} (h : s.square.canonical) (l : List α)
    (hf : ∀ t x, t.square.canonical → (f t x).square.canonical) : (l.foldl f s).square.canonical := State.canonical_each h l hf

theorem Square.canonical.foldl {α : Type} {q : Square} {f : Square → α → Square} (h : q.canonical) (l : List α)
    (hf : ∀ r x, r.canonical → (f r x).canonical) : (l.foldl f q).canonical := by
  induction l generalizing q with
  | nil => exact h
  | cons x l ih => exact ih (hf q x h)

theorem Square.canonical.markAll {q : Square} (h : q.canonical) (l : List Nat) : (q.markAll l).canonical :=
  h.foldl l fun _ b hr => SquareLaws.markWord b true (SquareLaws.settleWord b hr)

theorem Square.canonical.only {q : Square} (h : q.canonical) (l : List (Nat × Nat)) : (q.only l).canonical :=
  ⟨Tab.wf_filter _ h.1, Tab.wf_filter _ h.2⟩

theorem Square.canonical.moveD {q : Square} (h : q.canonical) (m0 m1 : Nat) : (q.moveD m0 m1).canonical := by
  unfold Square.moveD
  split
  · exact h
  · refine h.foldl _ fun r x hr => ?_
    dsimp only
    split
    · exact SquareLaws.clear _ _ (SquareLaws.copy _ _ _ hr)
    · exact SquareLaws.clear _ _ (SquareLaws.copy _ _ _ hr)

theorem Square.canonical.moveClean {q : Square} (h : q.canonical) (m0 m1 : Nat) : (Square.moveD { q with commitBad := [] } m0 m1).canonical :=
  Square.canonical.moveD (q := { q with commitBad := [] }) ⟨h.1, h.2⟩ m0 m1

section
variable {s : State} (h : s.square.canonical)
include h

theorem State.putWork_canonical (a : Area) (w : Nat) (x : Word) (p : Bool) :
    (s.putWork a w x p).square.canonical := (s.putWork_writes a w x p).canonical h

theorem State.putWorkBit_canonical (a : Area) (w b : Nat) (v p : Bool) : (s.putWorkBit a w b v p).square.canonical :=
  (s.putWorkBit_writes a w b v p).canonical h

theorem State.putBoth_canonical (a : Area) (w : Nat) (x : Word) (p : Bool) : (s.putBoth a w x p).square.canonical := by
  unfold State.putBoth
  dsimp only
  split
  · exact SquareLaws.put _ _ _ (putWork_canonical h a w x p)
  · exact putWork_canonical h a w x p

theorem State.putBothBit_canonical (a : Area) (w b : Nat) (v p : Bool) : (s.putBothBit a w b v p).square.canonical := by
  unfold State.putBothBit
  dsimp only
  split
  · exact SquareLaws.putBit _ _ _ _ (putWorkBit_canonical h a w b v p)
  · exact putWorkBit_canonical h a w b v p

theorem State.putItem_canonical (y : Symbol) (k : Nat) (v : Word × Bool) : (s.putItem y k v).square.canonical := by
  unfold State.putItem
  dsimp only
  split
  · exact putBothBit_canonical h _ _ _ _ _
  · exact putBoth_canonical h _ _ _ _

theorem State.putConsts_canonical (b : Nat) (l : List Word) : (s.putConsts b l).square.canonical :=
  SquareLaws.putWords _ _ ((State.writeSpan_canonical _ _ _ _).2 h)

theorem State.putRam_canonical (p at_ : Nat) (l : List Word) : (s.putRam p at_ l).square.canonical :=
  canonical_each h _ fun _ _ ht => putWork_canonical ht _ _ _ _

theorem State.markRam_canonical (p : Nat) : (s.markRam p).square.canonical :=
  canonical_each ((State.readSpan_canonical _ _ _ _).2 h) _ fun _ _ ht => putWork_canonical ht _ _ _ _

theorem State.forceCopies_canonical : s.forceCopies.square.canonical := canonical_each h _ fun _ _ ht => putBoth_canonical ht _ _ _ _

theorem State.forceFrozen_canonical : s.forceFrozen.square.canonical := canonical_each h _ fun _ _ ht => putWork_canonical ht _ _ _ _

theorem State.poisonSquare_canonical (b : Nat) : (s.poisonSquare b).square.canonical := by
  have hmark : ((s.square.settleWord (wordOf b)).markByte b true).canonical := SquareLaws.markByte b true (SquareLaws.settleWord _ h)
  unfold State.poisonSquare
  dsimp only
  (repeat' split) <;> exact hmark

theorem State.storePoison_canonical (a : Nat) (l : List Nat) : (s.storePoison a l).square.canonical := by
  unfold State.storePoison
  split
  case h_3 =>
    refine (State.each_canonical _ _ _ fun t k => ?_).2 (canonical_each h l fun _ b ht => poisonSquare_canonical ht b)
    split <;> simp
  all_goals simpa -implicitDefEqProofs using h

/-! ## The cycle: abandoned, left, committed (R80, R89, R90) -/

theorem State.revertWork_canonical : s.revertWork.square.canonical :=
  (SquareLaws.revert ((State.each_canonical s _ _ fun t r => by simp).2 h)).markAll _

theorem State.abandonCycle_canonical : s.abandonCycle.square.canonical := by
  unfold State.abandonCycle
  split
  · exact h
  · simpa using revertWork_canonical h

theorem State.programFault_canonical (e kind a : Nat) : (s.programFault e kind a).square.canonical := by
  unfold State.programFault
  dsimp only
  rw [State.setMode_canonical]
  exact abandonCycle_canonical (by simpa using h)

theorem State.dropShadowCycle_canonical : s.dropShadowCycle.square.canonical := abandonCycle_canonical h

theorem State.takeOver_canonical (kind : Nat) : (s.takeOver kind).square.canonical := by
  simpa [State.takeOver] using dropShadowCycle_canonical h

theorem State.seeRelease_canonical : s.seeRelease.square.canonical := by
  unfold State.seeRelease
  split
  · exact h
  · simp [h, takeOver_canonical]

theorem State.restartIsland_canonical (n : Nat) : (s.restartIsland n).square.canonical := by
  unfold State.restartIsland
  dsimp only
  split
  · refine abandonCycle_canonical ?_
    split <;> simpa using h
  · (repeat' split) <;> simpa using h

theorem State.leaveService_canonical (n : Nat) : (s.leaveService n).square.canonical := by
  simp [State.leaveService, h, SquareLaws.revert h]

theorem State.supPoisoned_canonical : s.supPoisoned.square.canonical := by
  unfold State.supPoisoned
  split
  · exact restartIsland_canonical h 16
  · exact leaveService_canonical h 16

theorem State.supTick_canonical : s.supTick.square.canonical := by
  have hread (l : List Nat) : (s.each l fun s b => (s.judgeRead 6 b .clean).1).square.canonical := by simpa using h
  unfold State.supTick
  dsimp only
  split
  · exact h
  · split
    · exact supPoisoned_canonical (hread _)
    · exact hread _

theorem State.islandFault_canonical (id : Nat) (d : Int) (n : Nat) : (s.islandFault id d n).square.canonical := by
  unfold State.islandFault
  dsimp only
  split
  · simpa using h
  · split
    · exact restartIsland_canonical (by simpa using h) n
    · exact leaveService_canonical (by simpa using h) n

theorem State.crossingFault_canonical (f : CrossingFault) : (s.crossingFault f).square.canonical := by
  simp [State.crossingFault, h, islandFault_canonical]

theorem State.copyCommitted_canonical (landed : List Nat) : (s.copyCommitted landed).square.canonical := by
  unfold State.copyCommitted
  refine (Square.canonical_mk.2 (SquareLaws.commitCopy ?_)).markAll _
  simpa using h

theorem State.landCommands_canonical : s.landCommands.1.square.canonical := by
  unfold State.landCommands
  dsimp only
  rw [State.readTotals_canonical]
  refine copyCommitted_canonical ((State.forceWorking_writes _).canonical ((State.landWrites_writes _ _).canonical ?_)) _
  simpa using h

theorem State.settleLandings_canonical : s.settleLandings.square.canonical := by
  unfold State.settleLandings
  split
  · exact h
  · simp [h, landCommands_canonical]

theorem State.commitCycle_canonical : s.commitCycle.square.canonical := by
  have hland := landCommands_canonical h
  unfold State.commitCycle
  dsimp only
  split <;> simpa using hland

/-! ## The freeze (R80) -/

theorem State.statusFreeze_canonical : s.statusFreeze.square.canonical := by
  unfold State.statusFreeze
  split
  · exact h
  · exact SquareLaws.putWords _ _ (SquareLaws.clear _ _ h)

theorem State.loopFreeze_canonical : s.loopFreeze.square.canonical := by
  unfold State.loopFreeze
  split
  · exact h
  · have hput (l : List (Nat × Word)) {q : Square} (hq : q.canonical) : (l.foldr (fun e q => q.put e.1 e.2 false) q).canonical := by
      induction l with
      | nil => exact hq
      | cons e l ih => exact SquareLaws.put _ _ _ ih
    exact hput _ (SquareLaws.clear _ _ h)

theorem State.stationImage_canonical (p x t : Nat) : (s.stationImage p x t).square.canonical := by
  unfold State.stationImage
  extract_lets y c u
  have hu : u.square.canonical := by
    dsimp only [u]
    split
    · exact SquareLaws.clear _ _ h
    · exact h
  split
  · exact putWork_canonical hu _ _ _ _
  · exact canonical_each (putWork_canonical (putWork_canonical (putWork_canonical hu _ _ _ _) _ _ _ _) _ _ _ _) _ fun _ _ ht =>
      putWork_canonical ht _ _ _ _

theorem State.ramFreeze_canonical (p t : Nat) : (s.ramFreeze p t).square.canonical := by
  unfold State.ramFreeze
  extract_lets marks x c e u list v w z
  have hv : v.square.canonical := by
    have hu : u.square.canonical := h
    dsimp only [v]
    split
    · exact SquareLaws.clear _ _ hu
    · exact hu
  have hz : z.square.canonical := by
    have hw : w.square.canonical := putRam_canonical hv _ _ _
    dsimp only [z]
    split
    · refine canonical_each hw _ fun t k ht => ?_
      split
      · exact ht
      · exact putRam_canonical ht _ _ _
    · exact hw
  exact markRam_canonical (canonical_each hz _ fun _ _ ht => putRam_canonical ht _ _ _) p

theorem State.canFreeze_canonical (t : Nat) : (s.canFreeze t).square.canonical := by
  unfold State.canFreeze
  refine canonical_each h _ fun u p hu => ?_
  dsimp only
  have himages := canonical_each (s := u.each (u.stations p) fun s x => s.stationFreeze p x t) (by simpa using hu) (List.range 32)
    fun _ x hv => stationImage_canonical hv p x t
  split
  · exact ramFreeze_canonical himages p t
  · split
    · exact SquareLaws.clear _ _ himages
    · exact himages

theorem State.inputFreeze_canonical (f : Nat) (c : BitVec 32) : (s.inputFreeze f c).square.canonical := by
  unfold State.inputFreeze
  dsimp only
  split
  · simpa using h
  · rw [State.trimPast_canonical]
    refine Square.canonical.foldl (SquareLaws.clear _ _ ?_) _ fun _ _ hr => SquareLaws.putWords _ _ hr
    simpa using h

theorem State.capture_canonical (before f : Nat) (c : BitVec 32) : (s.capture before f c).square.canonical := by
  unfold State.capture
  dsimp only
  rw [State.ite_square, Square.ite_canonical]
  simp only [State.markSlots_canonical, State.resumeTimers_canonical, State.timerSlots_canonical, ite_self]
  refine forceFrozen_canonical (statusFreeze_canonical (loopFreeze_canonical (canFreeze_canonical (inputFreeze_canonical ?_ _ _) _)))
  simpa using h

end

/-! ## Starts, seals and domains (R104, R351, R391 to R395) -/

@[simp] theorem State.loopSample_canonical (s : State) (t n : Nat) : (s.loopSample t n).square.canonical ↔ s.square.canonical := by
  simp [State.loopSample]
@[simp] theorem State.loopRead_canonical (s : State) (t n : Nat) : (s.loopRead t n).square.canonical ↔ s.square.canonical := by
  simp [State.loopRead]
@[simp] theorem State.loopRun_canonical (l : List (Nat × Nat)) (s : State) : (s.loopRun l).square.canonical ↔ s.square.canonical := by
  induction l generalizing s with
  | nil => rfl
  | cons e l ih => simp [State.loopRun, ih]

theorem Square.canonical_empty {q : Square} (hmem : q.mem = []) (hpoison : q.poison = []) : q.canonical := by
  rw [Square.canonical, hmem, hpoison]
  decide

theorem State.poweredOf_canonical (s : State) : s.poweredOf.square.canonical := Square.canonical_empty rfl rfl

section
variable {s : State} (h : s.square.canonical)
include h

theorem State.restartedOf_canonical : s.restartedOf.square.canonical := h

theorem State.sealArray_canonical (a : Nat) : (s.sealArray a).square.canonical := by
  unfold State.sealArray
  dsimp only
  split
  case h_3 => exact Square.canonical_empty rfl rfl
  all_goals simpa -implicitDefEqProofs using h

theorem State.seal_canonical (d : Nat) : (s.seal d).square.canonical := by
  refine canonical_each h _ fun t a ht => ?_
  split
  · exact ht
  · exact sealArray_canonical ht a

theorem State.domainUp_canonical (d : Nat) : (s.domainUp d).square.canonical := by
  unfold State.domainUp
  refine seal_canonical ?_ d
  simpa -implicitDefEqProofs using h

theorem State.powerDomains_canonical : s.powerDomains.square.canonical := by
  refine canonical_each h _ fun t d ht => ?_
  split
  · exact domainUp_canonical ht d
  · exact ht

theorem State.stationPage_canonical (p x : Nat) : (s.stationPage p x).square.canonical := by
  refine canonical_each h _ fun t page ht => ?_
  dsimp only
  split
  · exact SquareLaws.put _ _ _ (SquareLaws.put _ _ _ (SquareLaws.clear _ _ ht))
  · exact SquareLaws.put _ _ _ (SquareLaws.clear _ _ ht)

theorem State.canFullService_canonical : s.canFullService.square.canonical :=
  canonical_each h _ fun _ p ht => canonical_each ht _ fun _ x hu => stationPage_canonical (by simpa using hu) p x

theorem State.startField_canonical : s.startField.square.canonical := by
  unfold State.startField
  simp -implicitDefEqProofs [h, canFullService_canonical]

theorem State.enterSideStreet_canonical (kind : BitVec 2) : (s.enterSideStreet kind).square.canonical := by
  have hpower := powerDomains_canonical (s := { s with
    service := .sideStreet, mramChecked := true, mram := { s.mram with lastStart := kind, started := true }, auditAt := s.now
    sup := { s.sup with bumped := if s.mram.started then BitVec.allOnes 8 else 0 } }) h
  unfold State.enterSideStreet
  rw [State.judgeCuts_canonical]
  refine startField_canonical ?_
  simpa using hpower

theorem State.restartNow_canonical (cold : Bool) : (s.restartNow cold).square.canonical := by
  unfold State.restartNow
  refine enterSideStreet_canonical (restartedOf_canonical ?_) _
  simpa using h

theorem State.restartIfLeft_canonical : s.restartIfLeft.square.canonical := by
  unfold State.restartIfLeft
  split
  · simp [h, restartNow_canonical]
  · exact h

theorem State.restartIfDue_canonical : s.restartIfDue.square.canonical := by
  unfold State.restartIfDue
  split
  · simp [h, restartNow_canonical]
  · exact h

end

theorem State.restartPowered_canonical (s : State) (mv : Nat) : (s.restartPowered mv).square.canonical := by
  unfold State.restartPowered
  refine enterSideStreet_canonical ?_ _
  simpa using State.poweredOf_canonical _

/-! ## Loads, landings and the switch (R99, R100) -/

section
variable {s : State} (h : s.square.canonical)
include h

theorem State.finishLoad_canonical (b partner : Bool) : (s.finishLoad b partner).1.square.canonical := by
  unfold State.finishLoad
  dsimp only
  split
  · simpa using h
  · split
    · simpa using h
    · rw [State.judgeDomains_canonical]
      refine putConsts_canonical ?_ _ _
      simpa using h

theorem State.endLoad_canonical (k : Bool) (c : Option Ctx) : (s.endLoad k c).square.canonical := by
  unfold State.endLoad
  dsimp only
  split
  · simpa using h
  · cases c <;> simp [h, finishLoad_canonical]

theorem State.resumeLoad_canonical (c : Ctx) (b : List Byte) : (s.resumeLoad c b).square.canonical := by
  simp [State.resumeLoad, h, endLoad_canonical]

theorem State.resumeRead_canonical (x : Stalled) : (s.resumeRead x).square.canonical := by
  unfold State.resumeRead
  split
  case h_9 => exact resumeLoad_canonical h _ _
  all_goals simpa using h

theorem State.resume_canonical : s.resume.square.canonical := by
  have hreads := canonical_each (s := { s with sup := { s.sup with stalled := [] } }) h s.sup.stalled fun _ x ht => resumeRead_canonical ht x
  unfold State.resume
  simp [hreads]

theorem State.landChange_canonical (c : Change) (b : BitVec 32) : (s.landChange c b).square.canonical := by
  unfold State.landChange
  split
  case h_9 => split <;> simpa using h
  case h_10 =>
    split
    · exact endLoad_canonical (s := { s with square := { s.square with loadFor := none } }) h _ _
    · exact h
  all_goals simpa using h

theorem State.landChanges_canonical (c : BitVec 32) : (s.landChanges c).square.canonical :=
  canonical_each (by exact h) _ fun _ e ht => landChange_canonical ht e.1 e.2

theorem State.carryVar_canonical (old : State) (d : ImageDesc) (y : Symbol) : (State.carryVar old d s y).square.canonical := by
  unfold State.carryVar
  split
  · exact h
  · exact canonical_each h _ fun _ k ht => putItem_canonical ht y k _

theorem State.carryForces_canonical (d0 d1 : ImageDesc) : (s.carryForces d0 d1).square.canonical := by
  simp [State.carryForces, h, forceCopies_canonical]

theorem State.carryOver_canonical (n : Nat) : (s.carryOver n).square.canonical := by
  have hread (l : List Nat) (m0 m1 : Nat) : ((s.readWords 2 l).moveSpans m0 m1).square.canonical := by simpa using h
  unfold State.carryOver
  extract_lets k0 k1 s1 old s2 s3 _ q3 s4 s5 s6 s7 _ _ s8
  have h1 : s1.square.canonical := hread _ _ _
  have h3 : s3.square.canonical := by simpa [s3, s2] using h1
  have h4 : s4.square.canonical := by
    have hq : q3.canonical := h3
    exact hq.moveClean _ _
  have h5 : s5.square.canonical := by simpa [s5] using h4
  have h6 : s6.square.canonical := foldl_canonical_of h5 _ fun _ y ht => carryVar_canonical ht _ _ y
  have h8 : s8.square.canonical := carryForces_canonical (by simpa [s7] using h6) _ _
  rw [State.judgeDomains_canonical, State.raise_square]
  exact ⟨h8.1, h8.2⟩

theorem State.landSwitch_canonical (c : BitVec 32) : (s.landSwitch c).square.canonical := by
  unfold State.landSwitch
  split
  · exact h
  · simp [h, carryOver_canonical]

theorem State.boundary_canonical (c : BitVec 32) : (s.boundary c).square.canonical := by
  have hland : ((s.landChanges c).landPending.canJoin.landFire.landSwitch c).square.canonical :=
    landSwitch_canonical (by simpa using landChanges_canonical h c) c
  unfold State.boundary
  simp only [State.judgeDomains_canonical, State.judgeThermal_canonical, State.judgeBands_canonical]
  split
  · simpa using hland
  · exact hland

theorem State.settleAccepted_canonical : s.settleAccepted.square.canonical := by
  unfold State.settleAccepted
  extract_lets l _ s1 s2 w _ s3 s4 s5 s6
  have h2 : s2.square.canonical := canonical_each (s := s1) h _ fun _ e ht => landChange_canonical ht e.1 e.2
  have h5 : s5.square.canonical := by simpa -implicitDefEqProofs [s5, s4, s3] using h2
  have h6 : s6.square.canonical := by
    dsimp only [s6]
    split
    · simpa using h5
    · exact h5
  simpa using settleLandings_canonical h6

theorem State.holdupStore_canonical : s.holdupStore.square.canonical := by
  unfold State.holdupStore
  simp [h, settleAccepted_canonical]

theorem State.initVar_canonical (r : Option Retained) (y : Symbol) : (State.initVar r s y).square.canonical := by
  unfold State.initVar
  split
  · exact h
  · exact canonical_each h _ fun _ k ht => putItem_canonical ht y k _

theorem State.initSquare_canonical (cold : Bool) : (s.initSquare cold).square.canonical := by
  unfold State.initSquare
  extract_lets r free q s1 s2 s3
  have h1 : s1.square.canonical := by
    dsimp only [s1]
    split
    · exact Square.canonical_empty rfl rfl
    · exact h.only free
  have h2 : s2.square.canonical := canonical_each h1 _ fun t i ht => by
    split
    · exact putConsts_canonical ht _ _
    · exact ht
  have h3 : s3.square.canonical := foldl_canonical_of h2 _ fun _ y ht => initVar_canonical ht _ y
  simpa using h3

theorem State.enterFullService_canonical (calFailed : List (Fin 32)) (hard : List (Fin 8 × Nat)) :
    (s.enterFullService calFailed hard).square.canonical := by
  unfold State.enterFullService
  extract_lets cold s1 s2 s3 s4 s5 ms _ s6 s7 s8
  have h4 : s4.square.canonical := by simpa [s4, s3, s2, s1] using h
  have h5 : s5.square.canonical := by
    dsimp only [s5]
    rw [State.canRamWritten_canonical]
    refine canFullService_canonical ?_
    simpa using forceCopies_canonical ((State.initCycle_canonical _ _).2 (initSquare_canonical h4 cold))
  simpa [s8, s7, s6] using h5

/-! ## Ledgers and the snapshot (R301, R316) -/

theorem State.takeLedger_canonical (f : Nat) (l : Ledger) : (s.takeLedger f l).square.canonical := by
  unfold State.takeLedger
  extract_lets s1 s2 s3 _ s4 _ _ _ s5 s6 s7
  have h1 : s1.square.canonical := canonical_each h _ fun _ v ht => putBoth_canonical ht _ _ _ _
  have h3 : s3.square.canonical := by simpa -implicitDefEqProofs [s3, s2] using h1
  have h4 : s4.square.canonical := by
    dsimp only [s4]
    split
    · exact forceCopies_canonical (by exact h3)
    · exact h3
  have h6 : s6.square.canonical := by simpa [s6, s5] using h4
  have h7 : s7.square.canonical := by
    dsimp only [s7]
    split
    · simpa using h6
    · exact h6
  exact h7

theorem State.applyLedger_canonical (f : Nat) (c : BitVec 32) : (s.applyLedger f c).square.canonical :=
  canonical_each (by exact h) _ fun _ l ht => takeLedger_canonical ht f l

theorem State.ledgerFreeze_canonical (before : Nat) (c : BitVec 32) : (s.ledgerFreeze before c).square.canonical := by
  simp [State.ledgerFreeze, h, applyLedger_canonical]

theorem State.hearForces_canonical (l : Ledger) : (s.hearForces l).square.canonical := by
  unfold State.hearForces
  split
  · simp [h, forceCopies_canonical, forceFrozen_canonical]
  · exact h

theorem State.takeBanks_canonical (l : List (Nat × List (Nat × Word))) : (s.takeBanks l).square.canonical := by
  refine canonical_each h _ fun t e ht => ?_
  split
  · exact ht
  · refine putConsts_canonical ?_ _ _
    simpa using ht

theorem State.takeSquare_canonical (f : Nat) (l : List (Nat × Byte)) (marks : List Nat) : (s.takeSquare f l marks).square.canonical := by
  unfold State.takeSquare
  extract_lets units all word timers counters covered own held s1 _ s2
  have h1 : s1.square.canonical := by simpa [s1] using h
  clear_value timers counters s1
  have h2 : s2.square.canonical := by simpa [s2] using h1
  clear_value s2
  exact ⟨Tab.wf_foldl_set (fun e : Nat × Byte => e.1) (fun e => e.2) _ (Tab.wf_filter _ h.1),
    Tab.wf_foldl_set (fun b : Nat => b) (fun _ => true) _ (Tab.wf_filter _ h2.2)⟩

end

end Sys2Proof.Machine
end

/-! # Every command keeps the form of the Town Square

What an instruction's issue and a command packet keep, row by row, and the step (O58). -/

section
namespace Sys2Proof.Machine
open Sys2Proof

/-! ## The instructions of an engine -/

section
variable {s : State} (h : s.square.canonical)
include h

theorem State.guardWrite_canonical (e : Nat) (a : Area) (w : Nat) {f : State → State} (hf : (f s).square.canonical) :
    (s.guardWrite e a w f).square.canonical := by
  unfold State.guardWrite
  split
  · exact h
  · split
    · exact hf
    · simpa using h

theorem State.writeBit_canonical {t : State} {e : Nat} {o : Operand} {v p : Bool} (hw : s.writeBit e o v p = some t) : t.square.canonical := by
  unfold State.writeBit at hw
  dsimp only at hw
  split at hw <;> cases hw
  exact guardWrite_canonical h _ _ _ (putWorkBit_canonical h _ _ _ _ _)

theorem State.writeEdge_canonical (e n : Nat) (v p : Bool) : (s.writeEdge e n v p).square.canonical :=
  guardWrite_canonical h _ _ _ (putWorkBit_canonical h _ _ _ _ _)

theorem State.writeWord_canonical {t : State} {e : Nat} {a : Area} {off : Nat} {x : Word} {p : Bool} (hw : s.writeWord e a off x p = some t) :
    t.square.canonical := by
  unfold State.writeWord at hw
  split at hw
  · cases hw
  · split at hw <;> split at hw <;> cases hw <;> refine guardWrite_canonical h _ _ _ ?_
    · exact h
    all_goals exact putWork_canonical h _ _ _ _

theorem State.moveWords_canonical {e : Nat} {src dst : Operand} {n k : Nat} {held : Option (Word × Bool)}
    {r : State × Option (Nat × Option (Word × Bool))} (hr : s.moveWords e src dst n k held = .ok r) : r.1.square.canonical := by
  induction n generalizing s k held with
  | zero => cases hr; exact h
  | succ n ih =>
    unfold State.moveWords at hr
    split at hr
    · cases hr; exact h
    · split at hr
      · cases hr
      · next x hx =>
        have hread : x.1.square.canonical := by
          split at hx
          · cases hx; exact h
          · exact (takeWordAt_canonical hx).2 h
        split at hr
        · cases hr; exact hread
        · split at hr
          · cases hr
          · next t ht => exact ih (writeWord_canonical hread ht) hr

theorem State.moveBlock_canonical {t : State} {e : Nat} {x : Engine} {src dst : Operand} {n : Nat} (hm : s.moveBlock e x src dst n = .ok t) :
    t.square.canonical := by
  unfold State.moveBlock at hm
  split at hm
  · cases hm
  all_goals
    next hr =>
      cases hm
      simpa using moveWords_canonical h hr

theorem State.settle_canonical (e a : Nat) : (s.settle e a).square.canonical := by
  unfold State.settle
  split
  · exact programFault_canonical h _ _ _
  · exact h

end

/-- Every next state of an outcome keeps the form in which the Town Square of `s` stands. -/
def State.keepsForm (s : State) (o : Out) : Prop := ∀ t, o = .next t → s.square.canonical → t.square.canonical

@[simp] theorem State.keepsForm_next (s t : State) : s.keepsForm (.next t) ↔ (s.square.canonical → t.square.canonical) := by
  simp [State.keepsForm]

@[simp] theorem State.keepsForm_ite (s : State) (c : Prop) [Decidable c] (a b : Out) :
    s.keepsForm (if c then a else b) ↔ if c then s.keepsForm a else s.keepsForm b := by split <;> rfl

theorem State.keepsForm_of_ite {s : State} {c : Prop} [Decidable c] {a b : Out} (ha : s.keepsForm a) (hb : s.keepsForm b) :
    s.keepsForm (if c then a else b) := by split <;> assumption

theorem State.command_keepsForm (s : State) (p : Packet) (d : CmdDesc) {run : Ctx → List Byte → State → State}
    (hrun : ∀ c b q, q.square.canonical → (run c b q).square.canonical) : s.keepsForm (s.command p d run) := by
  have hq := s.accept_canonical p d true
  unfold State.command
  split
  · simp
  · split
    all_goals
      next e =>
        rw [e] at hq
        simp_all

theorem State.issue_keepsForm (s : State) (i : Instr) (clk : Nat) {run : Nat → Nat → State → Except Nat State} (touch : Nat → State → List Touch)
    (hrun : ∀ e a q t, q.square.canonical → run e a q = .ok t → t.square.canonical) : s.keepsForm (s.issue i clk run touch) := by
  intro t ht h
  unfold State.issue at ht
  split at ht
  · cases ht; exact h
  · dsimp only at ht
    split at ht
    · cases ht; exact h
    · split at ht
      · cases ht; exact programFault_canonical h _ _ _
      · split at ht
        · next hi => cases ht; exact (holdIssue_canonical hi).2 h
        · split at ht
          · next u hu =>
            cases ht
            exact settle_canonical (hrun _ _ _ _ (by simpa using h) hu) _ _
          · cases ht
            exact programFault_canonical (by simpa using h) _ _ _

theorem State.issueRegs_keepsForm (s : State) (i : Instr) (clk : Nat) (f : Engine → Engine) : s.keepsForm (s.issueRegs i clk f) :=
  s.issue_keepsForm i clk _ fun _ _ _ _ h ht => by cases ht; exact h

theorem State.issueBit_keepsForm (s : State) (i : Instr) (o : Operand) (f : Engine → Bool → Bool → Engine) : s.keepsForm (s.issueBit i o f) := by
  refine s.issue_keepsForm i _ _ fun _ _ _ _ h ht => ?_
  obtain ⟨v, hv, ht⟩ := allowed_ok ht
  cases ht
  simpa using (State.takeBit_canonical hv).2 h

theorem State.issueOpen_keepsForm (s : State) (i : Instr) (op : NestOp) : s.keepsForm (s.issueOpen i op) := by
  refine s.issue_keepsForm i _ _ fun _ _ _ _ h ht => ?_
  split at ht <;> cases ht
  exact h

theorem State.issueEdge_keepsForm (s : State) (i : Instr) (o : EdgeOperand) (k : EdgeKind) (op : BitOp) : s.keepsForm (s.issueEdge i o k op) := by
  refine s.issue_keepsForm i _ _ fun _ _ _ _ h ht => ?_
  obtain ⟨r, hr, ht⟩ := allowed_ok ht
  cases ht
  rw [State.posted_canonical]
  refine writeEdge_canonical ?_ _ _ _ _
  simpa using (State.takeBit_canonical hr).2 h

theorem State.issueTimer_keepsForm (s : State) (i : Instr) (clk n : Nat) (p : Engine → Bool) (f : Engine → State → Timer → Timer) :
    s.keepsForm (s.issueTimer i clk n p f) := by
  refine s.issue_keepsForm i _ _ fun _ _ _ _ h ht => ?_
  dsimp only at ht
  split at ht <;> cases ht
  exact guardWrite_canonical h _ _ _ h

theorem State.issueCounter_keepsForm (s : State) (i : Instr) (n : Nat) (p : Engine → Bool) (f : Engine → Counter → Counter × Bool) :
    s.keepsForm (s.issueCounter i n p f) := by
  refine s.issue_keepsForm i _ _ fun _ _ _ _ h ht => ?_
  dsimp only at ht
  split at ht <;> cases ht
  refine guardWrite_canonical h _ _ _ ?_
  split <;> exact h

theorem State.issueJump_keepsForm (s : State) (i : Instr) (b : BitVec 20) (want : Bool) : s.keepsForm (s.issueJump i b want) := by
  refine s.issue_keepsForm i _ _ fun _ _ _ _ h ht => ?_
  dsimp only at ht
  split at ht
  · cases ht; simpa using h
  · split at ht
    · exact (State.jump_canonical ht).2 h
    · cases ht; exact h

theorem State.setClear_keepsForm (s : State) (i : Instr) (o : Operand) (v : Bool) : s.keepsForm (s.setClear i o v) := by
  refine s.issue_keepsForm i _ _ fun _ _ _ _ h ht => ?_
  obtain ⟨u, hu, ht⟩ := allowed_ok ht
  cases ht
  split
  · simpa using writeBit_canonical h hu
  · exact h

/-! ## Rows with cases of their own -/

theorem execUnknownOpcode_keepsForm (p : Packet) (s : State) : s.keepsForm (execUnknownOpcode p s) := by
  unfold execUnknownOpcode
  split
  · simp
  · next d _ =>
    have hq := s.accept_canonical p d true
    split <;> next e => simp_all

theorem execReplyPacketSend_keepsForm (port : Port) (s : State) : s.keepsForm (execReplyPacketSend port s) := by
  unfold execReplyPacketSend
  (repeat' split) <;> simp

theorem execSubscriptionLeaseExpiry_keepsForm (k : Fin 64) (s : State) : s.keepsForm (execSubscriptionLeaseExpiry k s) := by
  unfold execSubscriptionLeaseExpiry
  split <;> simp

theorem execSubDelta_keepsForm (k : Fin 64) (s : State) : s.keepsForm (execSubDelta k s) := by unfold execSubDelta; split <;> simp

theorem execEvent_keepsForm (port : Port) (s : State) : s.keepsForm (execEvent port s) := by unfold execEvent; (repeat' split) <;> simp

theorem execRefClockLost_keepsForm (s : State) : s.keepsForm (execRefClockLost s) := by
  unfold execRefClockLost
  (repeat' split) <;> simp -implicitDefEqProofs

theorem execUcConversionComplete_keepsForm (ch : Fin 32) (c : Conversion) (s : State) : s.keepsForm (execUcConversionComplete ch c s) := by
  unfold execUcConversionComplete
  dsimp only
  (repeat' split) <;> simp

theorem execUcShutdownComplete_keepsForm (ch : Fin 32) (s : State) : s.keepsForm (execUcShutdownComplete ch s) := by
  unfold execUcShutdownComplete
  simp -implicitDefEqProofs

theorem execHartTransactionComplete_keepsForm (ch : Fin 32) (r : Option (BitVec 16 × List Byte)) (s : State) :
    s.keepsForm (execHartTransactionComplete ch r s) := by
  unfold execHartTransactionComplete
  dsimp only
  (repeat' split) <;> simp

theorem execCountStagePowerLost_keepsForm (g : Fin 6) (s : State) : s.keepsForm (execCountStagePowerLost g s) := by
  unfold execCountStagePowerLost
  simp -implicitDefEqProofs

theorem execGroupLevelClear_keepsForm (k : GroupKind) (g : Fin 6) (l : GroupLevel) (s : State) : s.keepsForm (execGroupLevelClear k g l s) := by
  unfold execGroupLevelClear
  (repeat' split) <;> simp

theorem execGroupUvlo_keepsForm (g : Fin 4) (mv : Nat) (s : State) : s.keepsForm (execGroupUvlo g mv s) := by
  unfold execGroupUvlo
  simp -implicitDefEqProofs

theorem execDoFaultCleared_keepsForm (n : Fin 32) (s : State) : s.keepsForm (execDoFaultCleared n s) := by
  unfold execDoFaultCleared
  dsimp only
  (repeat' split) <;> simp

theorem execHoldWindowExpiry_keepsForm (s : State) : s.keepsForm (execHoldWindowExpiry s) := by
  unfold execHoldWindowExpiry
  (repeat' split) <;> simp -implicitDefEqProofs

theorem execCanWindowStart_keepsForm (p : Fin 2) (column : Fin 32) (s : State) : s.keepsForm (execCanWindowStart p column s) := by
  unfold execCanWindowStart
  dsimp only
  have hg {a l t o} (e : s.frameGate p column a l = (t, o)) : s.square.canonical → t.square.canonical := by
    have hgate := s.frameGate_canonical p column a l
    rw [e] at hgate
    exact hgate.2
  split
  · split
    · simp
    · split
      iterate 2
        split
        · next e => simpa using hg e
        · next e => split <;> simpa using hg e
      · split
        · simp
        · split <;> next e => simpa using hg e
      · simp
  · simp

theorem execCanTxComplete_keepsForm (p : Fin 2) (r : CanTxResult) (t : Nat) (txDelay : Nat) (s : State) :
    s.keepsForm (execCanTxComplete p r t txDelay s) := by
  unfold execCanTxComplete
  dsimp only
  (repeat' split) <;> simp

theorem execCanQueuedFrameSend_keepsForm (p : Fin 2) (s : State) : s.keepsForm (execCanQueuedFrameSend p s) := by
  unfold execCanQueuedFrameSend
  dsimp only
  (repeat' split) <;> simp

theorem execFireInputDelivery_keepsForm (s : State) : s.keepsForm (execFireInputDelivery s) := by unfold execFireInputDelivery; split <;> simp

theorem execFireArmExpiry_keepsForm (s : State) : s.keepsForm (execFireArmExpiry s) := by unfold execFireArmExpiry; split <;> simp

theorem execHandBack_keepsForm (s : State) : s.keepsForm (execHandBack s) := by unfold execHandBack; split <;> simp

theorem execRehearseResult_keepsForm (s : State) : s.keepsForm (execRehearseResult s) := by unfold execRehearseResult; split <;> simp

theorem execRecordRaised_keepsForm (s : State) : s.keepsForm (execRecordRaised s) := by unfold execRecordRaised; split <;> simp

theorem execRecordWrite_keepsForm (s : State) : s.keepsForm (execRecordWrite s) := by unfold execRecordWrite; dsimp only; (repeat' split) <;> simp

theorem execPlateWaveformComplete_keepsForm (s : State) : s.keepsForm (execPlateWaveformComplete s) := by
  unfold execPlateWaveformComplete
  dsimp only
  (repeat' split) <;> simp

theorem execPlateTorn_keepsForm (vp : BitVec 16) (vn : BitVec 16) (s : State) : s.keepsForm (execPlateTorn vp vn s) := by
  unfold execPlateTorn
  dsimp only
  (repeat' split) <;> simp

theorem execProvisionalExpiry_keepsForm (s : State) : s.keepsForm (execProvisionalExpiry s) := by unfold execProvisionalExpiry; split <;> simp

theorem execDuplicateClear_keepsForm (s : State) : s.keepsForm (execDuplicateClear s) := by unfold execDuplicateClear; split <;> simp

theorem execPtpSyncTimeout_keepsForm (s : State) : s.keepsForm (execPtpSyncTimeout s) := by unfold execPtpSyncTimeout; split <;> simp

theorem execObjectWrite_keepsForm (roles : BitVec 4) (index : BitVec 16) (sub : BitVec 8) (v : Word) (s : State) :
    s.keepsForm (execObjectWrite roles index sub v s) := by
  simp [execObjectWrite]

theorem execTotalConfigWrite_keepsForm (roles : BitVec 4) (t : Fin 64) (sub : BitVec 8) (v : Word) (s : State) :
    s.keepsForm (execTotalConfigWrite roles t sub v s) := by
  simp [execTotalConfigWrite]

theorem execCrossingMessageSend_keepsForm (a b : Fin 21) (o : Option (Fin 4 × Fin 16)) (s : State) :
    s.keepsForm (execCrossingMessageSend a b o s) := by
  cases hab : a == b with
  | true => simp [execCrossingMessageSend, hab]
  | false => simp [execCrossingMessageSend_ne hab, State.offered]

theorem execEventFiring_keepsForm (s : State) : s.keepsForm (execEventFiring s) := by
  unfold execEventFiring
  split
  · simp
  · split <;> simp

theorem execGroupAgeExpiry_keepsForm (g : Fin 64) (s : State) : s.keepsForm (execGroupAgeExpiry g s) := by
  unfold execGroupAgeExpiry
  split <;> simp

theorem execTaskComplete_keepsForm (n : Fin 512) (s : State) : s.keepsForm (execTaskComplete n s) := by
  simp [execTaskComplete]

theorem execRestart_keepsForm (p : Packet) (s : State) : s.keepsForm (execRestart p s) := by
  refine s.command_keepsForm p _ fun c b q h => ?_
  unfold runRestart
  simp [h, State.restartNow_canonical]

theorem execProgramEnd_keepsForm (p : Packet) (s : State) : s.keepsForm (execProgramEnd p s) := by
  refine s.command_keepsForm p _ fun c b q h => ?_
  unfold runProgramEnd
  split
  · simpa using h
  · simp [h, State.endLoad_canonical]

theorem execAuditRound_keepsForm (faults : List CrossingFault) (windows : List (BitVec 16)) (s : State) :
    s.keepsForm (execAuditRound faults windows s) := by
  intro t ht h
  have hfaults := State.canonical_each h faults fun _ f hu => State.crossingFault_canonical hu f
  unfold execAuditRound at ht
  split at ht <;> cases ht
  · exact h
  · simpa using hfaults

theorem execDomainPowerUpComplete_keepsForm (d : Fin 12) (s : State) : s.keepsForm (execDomainPowerUpComplete d s) := by
  simp +contextual [execDomainPowerUpComplete, State.domainUp_canonical]

theorem execCycleStart_keepsForm (s : State) : s.keepsForm (execCycleStart s) := by
  unfold execCycleStart
  split
  · simp
  · split
    · next hs => simp [State.switchHeld_canonical hs]
    · rw [State.keepsForm_next]
      intro h
      have hboundary := State.boundary_canonical (s := { s.refBack with square := { s.refBack.square with current := s.startCycle } })
        (by simpa using h) s.startCycle
      simpa [Square.started] using hboundary

theorem execFreeze_keepsForm (s : State) : s.keepsForm (execFreeze s) := by
  unfold execFreeze
  split
  · simp
  · split
    · next hs => simp [State.freezeHeld_canonical hs]
    · simp +contextual [State.ledgerFreeze_canonical, State.capture_canonical]

theorem execCommit_keepsForm (s : State) : s.keepsForm (execCommit s) := by
  unfold execCommit
  split
  · simp
  · split
    · next hs => simp [State.commitHeld_canonical hs]
    · rw [State.keepsForm_next]
      exact fun h => State.restartIfDue_canonical (State.holdupStore_canonical (State.commitCycle_canonical h))

theorem execWatchdogExpiry_keepsForm (s : State) : s.keepsForm (execWatchdogExpiry s) := by
  unfold execWatchdogExpiry
  split
  · simp
  · simp +contextual [State.abandonCycle_canonical]

theorem execLoopBaseTick_keepsForm (s : State) : s.keepsForm (execLoopBaseTick s) := by
  unfold execLoopBaseTick
  (repeat' split) <;> simp -implicitDefEqProofs

theorem execHeartbeatSilence_keepsForm (s : State) : s.keepsForm (execHeartbeatSilence s) := by
  unfold execHeartbeatSilence
  dsimp only
  (repeat' split) <;> simp +contextual [State.takeOver_canonical]

theorem execLedgerReceived_keepsForm (l : Ledger) (s : State) : s.keepsForm (execLedgerReceived l s) := by
  unfold execLedgerReceived
  split
  · simp
  · dsimp only
    split <;> simp +contextual [State.hearForces_canonical]

theorem execForwardedChange_keepsForm (c : Change) (b : BitVec 32) (s : State) : s.keepsForm (execForwardedChange c b s) := by
  unfold execForwardedChange
  split; · simp
  split; · simp
  split; · simp
  split; · simp +contextual [State.landChange_canonical]
  split; · simp
  extract_lets u v
  intro t ht h
  have hv : v.square.canonical := by
    simp only [v, State.acknowledged_canonical, u]
    split <;> simpa using h
  split at ht <;> cases ht
  · exact State.landChange_canonical hv _ _
  · exact hv

theorem execPageRepairComplete_keepsForm (array : Fin 8) (bad : List Nat) (unlocated : Nat) (hard : List Nat) (s : State) :
    s.keepsForm (execPageRepairComplete array bad unlocated hard s) := by
  unfold execPageRepairComplete
  dsimp only
  split
  · simp
  · split <;> rw [State.keepsForm_next] <;> intro h <;> refine State.resume_canonical ?_
    · simpa using h
    · simp [h, State.storePoison_canonical]

theorem execSupplyValid_keepsForm (lp1 lp2 : Nat) (side : Option Bool) (s : State) : s.keepsForm (execSupplyValid lp1 lp2 side s) := by
  have hpowered := s.poweredOf_canonical
  unfold execSupplyValid
  simp [hpowered, State.enterSideStreet_canonical]

theorem execFullService_keepsForm (supplyMv storeMv : Nat) (calFailed : List (Fin 32)) (hardFaults : List (Fin 8 × Nat)) (s : State) :
    s.keepsForm (execFullService supplyMv storeMv calFailed hardFaults s) := by
  unfold execFullService
  dsimp only
  split
  · simp
  · split
    · simp
    · split
      · simp
      · split
        · next hs => simp [State.spansWait_canonical hs]
        · simp +contextual [State.enterFullService_canonical]

theorem execPowerFailWarning_keepsForm (mv : Nat) (s : State) : s.keepsForm (execPowerFailWarning mv s) := by
  unfold execPowerFailWarning
  split
  · simp
  · rw [State.keepsForm_next]
    intro h
    refine State.holdupStore_canonical ?_
    simpa using h

theorem execHoldupExecuteDeadline_keepsForm (s : State) : s.keepsForm (execHoldupExecuteDeadline s) := by
  unfold execHoldupExecuteDeadline
  split
  · simp +contextual [State.abandonCycle_canonical, State.holdupStore_canonical]
  · simp

theorem execHoldUpComplete_keepsForm (mv : Nat) (s : State) : s.keepsForm (execHoldUpComplete mv s) := by
  unfold execHoldUpComplete
  split
  · simp
  · simp +contextual [State.restartPowered_canonical]

theorem execResyncSnapshotReceived_keepsForm (x : Snapshot) (s : State) : s.keepsForm (execResyncSnapshotReceived x s) := by
  unfold execResyncSnapshotReceived
  split
  · simp
  · simp -implicitDefEqProofs +contextual [State.takeSquare_canonical, State.takeBanks_canonical]

theorem execLogicSupplyLost_keepsForm (s : State) : s.keepsForm (execLogicSupplyLost s) := by
  unfold execLogicSupplyLost
  split
  · simp
  · rw [State.keepsForm_next]
    exact fun _ => Square.canonical_empty rfl rfl

/-! ### Instructions -/

theorem execReservedOpcode_keepsForm (e : Fin 4) (s : State) : s.keepsForm (execReservedOpcode e s) := by
  unfold execReservedOpcode
  refine State.keepsForm_of_ite (by simp) (State.keepsForm_of_ite (by simp) ?_)
  split
  · next hi => simp [State.holdIssue_canonical hi]
  · rw [State.keepsForm_next]
    exact fun h => State.programFault_canonical h _ _ _

theorem execEnd_keepsForm (e : Fin 4) (s : State) : s.keepsForm (execEnd e s) :=
  s.issue_keepsForm _ _ _ fun _ _ _ _ h ht => by cases ht; simpa using h

theorem execRet_keepsForm (e : Fin 4) (s : State) : s.keepsForm (execRet e s) :=
  s.issue_keepsForm _ _ _ fun _ _ _ _ h ht => by cases ht; simpa using h

theorem execOut_keepsForm (e : Fin 4) (o : Operand) (s : State) : s.keepsForm (execOut e o s) := by
  refine s.issue_keepsForm _ _ _ fun _ _ _ _ h ht => ?_
  obtain ⟨u, hu, ht⟩ := allowed_ok ht
  cases ht
  simpa using State.writeBit_canonical h hu

theorem execCloseBracket_keepsForm (e : Fin 4) (s : State) : s.keepsForm (execCloseBracket e s) := by
  refine s.issue_keepsForm _ _ _ fun _ _ _ _ h ht => ?_
  split at ht <;> cases ht
  exact h

theorem execLw_keepsForm (e : Fin 4) (o : Operand) (v : Verdict) (s : State) : s.keepsForm (execLw e o v s) := by
  refine s.issue_keepsForm _ _ _ fun _ _ _ _ h ht => ?_
  obtain ⟨x, hx, ht⟩ := allowed_ok ht
  cases ht
  simpa using (State.takeWordAt_canonical hx).2 h

theorem execSw_keepsForm (e : Fin 4) (o : Operand) (v : Verdict) (s : State) : s.keepsForm (execSw e o v s) := by
  unfold execSw
  dsimp only
  split
  · simp
  · refine s.issue_keepsForm _ _ _ fun _ _ _ _ h ht => ?_
    obtain ⟨u, hu, ht⟩ := allowed_ok ht
    cases ht
    have hword := State.writeWord_canonical h hu
    split <;> simpa using hword

theorem execMove_keepsForm (e : Fin 4) (src dst : Operand) (s : State) : s.keepsForm (execMove e src dst s) :=
  s.issue_keepsForm _ _ _ fun _ _ _ _ h ht => State.moveBlock_canonical (by simpa using h) ht

theorem execBmove_keepsForm (e : Fin 4) (src dst : Operand) (s : State) : s.keepsForm (execBmove e src dst s) := by
  unfold execBmove
  refine s.issue_keepsForm _ _ _ fun _ _ _ _ h ht => ?_
  dsimp only at ht
  split at ht
  · cases ht
  · split at ht
    · cases ht; simpa using h
    · split at ht
      · cases ht; exact h
      · exact State.moveBlock_canonical (by simpa using h) ht

theorem execJmp_keepsForm (e : Fin 4) (b : BitVec 20) (s : State) : s.keepsForm (execJmp e b s) :=
  s.issue_keepsForm _ _ _ fun _ _ _ _ h ht => (State.jump_canonical ht).2 h

theorem execJov_keepsForm (e : Fin 4) (b : BitVec 20) (s : State) : s.keepsForm (execJov e b s) := by
  refine s.issue_keepsForm _ _ _ fun _ _ _ _ h ht => ?_
  split at ht
  · exact (State.jump_canonical ht).2 h
  · cases ht; exact h

theorem execJovs_keepsForm (e : Fin 4) (b : BitVec 20) (s : State) : s.keepsForm (execJovs e b s) := by
  refine s.issue_keepsForm _ _ _ fun _ _ _ _ h ht => ?_
  split at ht
  · exact (State.jump_canonical ht).2 h
  · cases ht; exact h

theorem execCall_keepsForm (e : Fin 4) (b : BitVec 20) (s : State) : s.keepsForm (execCall e b s) :=
  s.issue_keepsForm _ _ _ fun _ _ _ _ h ht => (State.call_canonical ht).2 h

theorem execCallt_keepsForm (e : Fin 4) (b : BitVec 20) (s : State) : s.keepsForm (execCallt e b s) := by
  refine s.issue_keepsForm _ _ _ fun _ _ _ _ h ht => ?_
  dsimp only at ht
  split at ht
  · cases ht; simpa using h
  · split at ht
    · exact (State.call_canonical ht).2 h
    · cases ht; exact h

theorem execTot_keepsForm (e : Fin 4) (n : BitVec 20) (s : State) : s.keepsForm (execTot e n s) := by
  refine s.issue_keepsForm _ _ _ fun _ _ _ _ h ht => ?_
  dsimp only at ht
  (repeat' split at ht) <;> cases ht <;> simpa using h

theorem execSev_keepsForm (e : Fin 4) (n : BitVec 20) (s : State) : s.keepsForm (execSev e n s) := by
  refine s.issue_keepsForm _ _ _ fun _ _ _ _ h ht => ?_
  dsimp only at ht
  split at ht <;> cases ht
  (repeat' split) <;> simpa using h

theorem exec_keepsForm (i : Instr) (s : State) : s.keepsForm (exec i s) := by
  cases i with
  | identify p | getStatus p | readObject p | writeObject p | confirmAddress p | programBegin p | programData p | programSwitch p
  | runStop p | forceSet p | forceRelease p | cycleStats p | readVars p | writeVars p | subscribe p | unsubscribe p | setPending p
  | eventSubscribe p | loopEnable p | loopDisable p | loopWriteCoeff p | loopStage p | loopCommit p | loopRead p | channelMode p
  | channelStatus p | outputAck p | hartTransact p | hartBurstRead p | canEnable p | canRecover p | canSend p | canCounters p | stationStatus p
  | pairStatus p | rehearse p | resync p | recQuery p | recUpload p | recCounters p | recNote p | panelFrame p | panelShow p | plateUpdate p
  | panelPower p | memStatus p | scrubNow p | remapRead p | powerStatus p | thermalStatus p | fireStatus p | fireReset p | fireLoad p | fireArm p
  | fireConfirm p | totalRead p | totalClose p | keyInstall p | keyRevoke p | keyStatus p | fwBegin p | fwData p | fwActivate p =>
    exact s.command_keepsForm p _ fun _ _ _ => by simp
  | enumerate p => exact s.command_keepsForm p _ fun _ _ _ => (runEnumerate_canonical _ _).2
  | nop e | inv e | cbset e | cbclr e | lwi e imm | swap e | add e | sub e | mul e | div e | rem e | neg e | eq_ e | ne_ e | gt_ e | ge_ e
  | lt_ e | le_ e =>
    unfold exec
    exact s.issueRegs_keepsForm _ _ _
  | ld e o | ldn e o | and_ e o | andn e o | or_ e o | orn e o | xor_ e o | xorn e o =>
    unfold exec
    exact s.issueBit_keepsForm _ _ _
  | andOpen e | andnOpen e | orOpen e | ornOpen e | xorOpen e | xornOpen e =>
    unfold exec
    exact s.issueOpen_keepsForm _ _
  | andr e o | andf e o | orr e o | orf e o =>
    unfold exec
    exact s.issueEdge_keepsForm _ _ _ _
  | ton e o | tof e o | tp e o | tclr e n =>
    unfold exec
    exact s.issueTimer_keepsForm _ _ _ _ _
  | cup e n | cdn e n | cld e n | cclr e n =>
    unfold exec
    exact s.issueCounter_keepsForm _ _ _ _
  | jt e b | jf e b =>
    unfold exec
    exact s.issueJump_keepsForm _ _ _
  | setb e o | clrb e o =>
    unfold exec
    exact s.setClear_keepsForm _ _ _
  | rescan ch => exact (by simp [execRescan] : s.keepsForm (execRescan ch s))
  | multiPacketTimeout origin tag => exact (by simp [execMultiPacketTimeout] : s.keepsForm (execMultiPacketTimeout origin tag s))
  | idleClose origin => exact (by simp [execIdleClose] : s.keepsForm (execIdleClose origin s))
  | windowHoldExpiry origin => exact (by simp [execWindowHoldExpiry] : s.keepsForm (execWindowHoldExpiry origin s))
  | subscriberLeaseExpiry slot => exact (by simp [execSubscriberLeaseExpiry] : s.keepsForm (execSubscriberLeaseExpiry slot s))
  | islandRestartComplete n => exact (by simp [execIslandRestartComplete] : s.keepsForm (execIslandRestartComplete n s))
  | refClockRestored => exact (by simp [execRefClockRestored] : s.keepsForm (execRefClockRestored s))
  | vbusChange present => exact (by simp [execVbusChange] : s.keepsForm (execVbusChange present s))
  | retainPeriod => exact (by simp [execRetainPeriod] : s.keepsForm (execRetainPeriod s))
  | ucStartupComplete ch => exact (by simp [execUcStartupComplete] : s.keepsForm (execUcStartupComplete ch s))
  | ucStoreLow ch mv => exact (by simp [execUcStoreLow] : s.keepsForm (execUcStoreLow ch mv s))
  | ucStoreRecovered ch mv => exact (by simp [execUcStoreRecovered] : s.keepsForm (execUcStoreRecovered ch mv s))
  | hartScanComplete ch found => exact (by simp [execHartScanComplete] : s.keepsForm (execHartScanComplete ch found s))
  | hartBurstReceived ch longHi longLo frame => exact (by simp [execHartBurstReceived] : s.keepsForm (execHartBurstReceived ch longHi longLo frame s))
  | diChangeAccepted n level firstSample => exact (by simp [execDiChangeAccepted] : s.keepsForm (execDiChangeAccepted n level firstSample s))
  | pulseEdgeCounted n rising at_ => exact (by simp [execPulseEdgeCounted] : s.keepsForm (execPulseEdgeCounted n rising at_ s))
  | wireBreak n => exact (by simp [execWireBreak] : s.keepsForm (execWireBreak n s))
  | wireBreakCleared n => exact (by simp [execWireBreakCleared] : s.keepsForm (execWireBreakCleared n s))
  | groupSupplySample k g mv => exact (by simp [execGroupSupplySample] : s.keepsForm (execGroupSupplySample k g mv s))
  | doOverload n => exact (by simp [execDoOverload] : s.keepsForm (execDoOverload n s))
  | doThermalShutdown n => exact (by simp [execDoThermalShutdown] : s.keepsForm (execDoThermalShutdown n s))
  | doRetryDue n cooled => exact (by simp [execDoRetryDue] : s.keepsForm (execDoRetryDue n cooled s))
  | openLoad n => exact (by simp [execOpenLoad] : s.keepsForm (execOpenLoad n s))
  | openLoadClear n => exact (by simp [execOpenLoadClear] : s.keepsForm (execOpenLoadClear n s))
  | shortToSupply n => exact (by simp [execShortToSupply] : s.keepsForm (execShortToSupply n s))
  | shortToSupplyClear n => exact (by simp [execShortToSupplyClear] : s.keepsForm (execShortToSupplyClear n s))
  | reverse n above => exact (by simp [execReverse] : s.keepsForm (execReverse n above s))
  | groupOvercurrent g ma => exact (by simp [execGroupOvercurrent] : s.keepsForm (execGroupOvercurrent g ma s))
  | groupOvercurrentCleared g ma => exact (by simp [execGroupOvercurrentCleared] : s.keepsForm (execGroupOvercurrentCleared g ma s))
  | sideStreetRefresh => exact (by simp [execSideStreetRefresh] : s.keepsForm (execSideStreetRefresh s))
  | canFrameReceived p f => exact (by simp [execCanFrameReceived] : s.keepsForm (execCanFrameReceived p f s))
  | basicCycleStart p => exact (by simp [execBasicCycleStart] : s.keepsForm (execBasicCycleStart p s))
  | canRecovered p => exact (by simp [execCanRecovered] : s.keepsForm (execCanRecovered p s))
  | canShutdownComplete p => exact (by simp [execCanShutdownComplete] : s.keepsForm (execCanShutdownComplete p s))
  | canBusIntegration p => exact (by simp [execCanBusIntegration] : s.keepsForm (execCanBusIntegration p s))
  | fireTimeoutCheck => exact (by simp [execFireTimeoutCheck] : s.keepsForm (execFireTimeoutCheck s))
  | fireActionComplete f => exact (by simp [execFireActionComplete] : s.keepsForm (execFireActionComplete f s))
  | tripOutputFailed o => exact (by simp [execTripOutputFailed] : s.keepsForm (execTripOutputFailed o s))
  | fireFrameRepeat o => exact (by simp [execFireFrameRepeat] : s.keepsForm (execFireFrameRepeat o s))
  | tripCutInput asserted => exact (by simp [execTripCutInput] : s.keepsForm (execTripCutInput asserted s))
  | heartbeatGenerate => exact (by simp [execHeartbeatGenerate] : s.keepsForm (execHeartbeatGenerate s))
  | claimWatchdogExpiry => exact (by simp [execClaimWatchdogExpiry] : s.keepsForm (execClaimWatchdogExpiry s))
  | heartbeatReceived path h => exact (by simp [execHeartbeatReceived] : s.keepsForm (execHeartbeatReceived path h s))
  | partnerClaimFall => exact (by simp [execPartnerClaimFall] : s.keepsForm (execPartnerClaimFall s))
  | tieWithdrawn => exact (by simp [execTieWithdrawn] : s.keepsForm (execTieWithdrawn s))
  | claimLineFault sideB => exact (by simp [execClaimLineFault] : s.keepsForm (execClaimLineFault sideB s))
  | laneLost lane => exact (by simp [execLaneLost] : s.keepsForm (execLaneLost lane s))
  | cablePresentChange present => exact (by simp [execCablePresentChange] : s.keepsForm (execCablePresentChange present s))
  | syncHoldTimeout => exact (by simp [execSyncHoldTimeout] : s.keepsForm (execSyncHoldTimeout s))
  | discoveryTimeout => exact (by simp [execDiscoveryTimeout] : s.keepsForm (execDiscoveryTimeout s))
  | resyncDone => exact (by simp [execResyncDone] : s.keepsForm (execResyncDone s))
  | integratorBoundary => exact (by simp [execIntegratorBoundary] : s.keepsForm (execIntegratorBoundary s))
  | totalsSideStreetCommit => exact (by simp [execTotalsSideStreetCommit] : s.keepsForm (execTotalsSideStreetCommit s))
  | bucketLeak array => exact (by simp [execBucketLeak] : s.keepsForm (execBucketLeak array s))
  | scrubPassComplete array => exact (by simp [execScrubPassComplete] : s.keepsForm (execScrubPassComplete array s))
  | panelFrameStart => exact (by simp [execPanelFrameStart] : s.keepsForm (execPanelFrameStart s))
  | panelPowerUpComplete => exact (by simp [execPanelPowerUpComplete] : s.keepsForm (execPanelPowerUpComplete s))
  | panelPowerDownComplete => exact (by simp [execPanelPowerDownComplete] : s.keepsForm (execPanelPowerDownComplete s))
  | panelSupplyFault vcol vrow => exact (by simp [execPanelSupplyFault] : s.keepsForm (execPanelSupplyFault vcol vrow s))
  | panelSupplyRecovered vcol vrow => exact (by simp [execPanelSupplyRecovered] : s.keepsForm (execPanelSupplyRecovered vcol vrow s))
  | thermalSample board hottest thermistor => exact (by simp [execThermalSample] : s.keepsForm (execThermalSample board hottest thermistor s))
  | ringLinkDown p => exact (by simp [execRingLinkDown] : s.keepsForm (execRingLinkDown p s))
  | ringLinkUp p gigabit => exact (by simp [execRingLinkUp] : s.keepsForm (execRingLinkUp p gigabit s))
  | hsrFrameReceived p f => exact (by simp [execHsrFrameReceived] : s.keepsForm (execHsrFrameReceived p f s))
  | hsrSupervision => exact (by simp [execHsrSupervision] : s.keepsForm (execHsrSupervision s))
  | ringTripFrameReceived p f => exact (by simp [execRingTripFrameReceived] : s.keepsForm (execRingTripFrameReceived p f s))
  | announceSend => exact (by simp [execAnnounceSend] : s.keepsForm (execAnnounceSend s))
  | announceReceived address sender => exact (by simp [execAnnounceReceived] : s.keepsForm (execAnnounceReceived address sender s))
  | ptpSyncReceived f m => exact (by simp [execPtpSyncReceived] : s.keepsForm (execPtpSyncReceived f m s))
  | moduleTimeStore => exact (by simp [execModuleTimeStore] : s.keepsForm (execModuleTimeStore s))
  | supplyFeedLost feed mv => exact (by simp [execSupplyFeedLost] : s.keepsForm (execSupplyFeedLost feed mv s))
  | supplyFeedRestored feed mv => exact (by simp [execSupplyFeedRestored] : s.keepsForm (execSupplyFeedRestored feed mv s))
  | supplyLowHold mv => exact (by simp [execSupplyLowHold] : s.keepsForm (execSupplyLowHold mv s))
  | canRxError p k => exact (by simp [execCanRxError] : s.keepsForm (execCanRxError p k s))
  | partnerClaimRise => exact (by simp [execPartnerClaimRise] : s.keepsForm (execPartnerClaimRise s))
  | cycleStartToken cycle instant => exact (by simp [execCycleStartToken] : s.keepsForm (execCycleStartToken cycle instant s))
  | supFirmwareVerified => exact (by simp [execSupFirmwareVerified] : s.keepsForm (execSupFirmwareVerified s))
  | scrubRead array addr v hard => exact (by simp [execScrubRead] : s.keepsForm (execScrubRead array addr v hard s))
  | restart p => exact execRestart_keepsForm p s
  | programEnd p => exact execProgramEnd_keepsForm p s
  | unknownOpcode p => exact execUnknownOpcode_keepsForm p s
  | objectWrite roles index sub value => exact execObjectWrite_keepsForm roles index sub value s
  | totalConfigWrite roles t sub value => exact execTotalConfigWrite_keepsForm roles t sub value s
  | replyPacketSend port => exact execReplyPacketSend_keepsForm port s
  | subscriptionLeaseExpiry sub => exact execSubscriptionLeaseExpiry_keepsForm sub s
  | subDelta sub => exact execSubDelta_keepsForm sub s
  | event port => exact execEvent_keepsForm port s
  | crossingMessageSend sender receiver offer => exact execCrossingMessageSend_keepsForm sender receiver offer s
  | auditRound faults windows => exact execAuditRound_keepsForm faults windows s
  | refClockLost => exact execRefClockLost_keepsForm s
  | domainPowerUpComplete d => exact execDomainPowerUpComplete_keepsForm d s
  | cycleStart => exact execCycleStart_keepsForm s
  | freeze => exact execFreeze_keepsForm s
  | commit => exact execCommit_keepsForm s
  | watchdogExpiry => exact execWatchdogExpiry_keepsForm s
  | end_ e => exact execEnd_keepsForm e s
  | out e o => exact execOut_keepsForm e o s
  | closeBracket e => exact execCloseBracket_keepsForm e s
  | lw e o v => exact execLw_keepsForm e o v s
  | sw e o v => exact execSw_keepsForm e o v s
  | move e src dst => exact execMove_keepsForm e src dst s
  | bmove e src dst => exact execBmove_keepsForm e src dst s
  | jmp e target => exact execJmp_keepsForm e target s
  | jov e target => exact execJov_keepsForm e target s
  | jovs e target => exact execJovs_keepsForm e target s
  | call e block => exact execCall_keepsForm e block s
  | callt e block => exact execCallt_keepsForm e block s
  | ret e => exact execRet_keepsForm e s
  | tot e n => exact execTot_keepsForm e n s
  | sev e n => exact execSev_keepsForm e n s
  | eventFiring => exact execEventFiring_keepsForm s
  | groupAgeExpiry g => exact execGroupAgeExpiry_keepsForm g s
  | taskComplete n => exact execTaskComplete_keepsForm n s
  | loopBaseTick => exact execLoopBaseTick_keepsForm s
  | ucConversionComplete ch c => exact execUcConversionComplete_keepsForm ch c s
  | ucShutdownComplete ch => exact execUcShutdownComplete_keepsForm ch s
  | hartTransactionComplete ch reply => exact execHartTransactionComplete_keepsForm ch reply s
  | countStagePowerLost g => exact execCountStagePowerLost_keepsForm g s
  | groupLevelClear k g l => exact execGroupLevelClear_keepsForm k g l s
  | groupUvlo g mv => exact execGroupUvlo_keepsForm g mv s
  | doFaultCleared n => exact execDoFaultCleared_keepsForm n s
  | holdWindowExpiry => exact execHoldWindowExpiry_keepsForm s
  | canWindowStart p column => exact execCanWindowStart_keepsForm p column s
  | canTxComplete p result at_ txDelay => exact execCanTxComplete_keepsForm p result at_ txDelay s
  | canQueuedFrameSend p => exact execCanQueuedFrameSend_keepsForm p s
  | fireInputDelivery => exact execFireInputDelivery_keepsForm s
  | fireArmExpiry => exact execFireArmExpiry_keepsForm s
  | heartbeatSilence => exact execHeartbeatSilence_keepsForm s
  | ledgerReceived l => exact execLedgerReceived_keepsForm l s
  | forwardedChange c boundary => exact execForwardedChange_keepsForm c boundary s
  | handBack => exact execHandBack_keepsForm s
  | rehearseResult => exact execRehearseResult_keepsForm s
  | pageRepairComplete array bad unlocated hard => exact execPageRepairComplete_keepsForm array bad unlocated hard s
  | recordRaised => exact execRecordRaised_keepsForm s
  | recordWrite => exact execRecordWrite_keepsForm s
  | plateWaveformComplete => exact execPlateWaveformComplete_keepsForm s
  | plateTorn vp vn => exact execPlateTorn_keepsForm vp vn s
  | provisionalExpiry => exact execProvisionalExpiry_keepsForm s
  | duplicateClear => exact execDuplicateClear_keepsForm s
  | ptpSyncTimeout => exact execPtpSyncTimeout_keepsForm s
  | supplyValid lp1 lp2 sideB => exact execSupplyValid_keepsForm lp1 lp2 sideB s
  | fullService supplyMv storeMv calFailed hardFaults => exact execFullService_keepsForm supplyMv storeMv calFailed hardFaults s
  | powerFailWarning mv => exact execPowerFailWarning_keepsForm mv s
  | holdupExecuteDeadline => exact execHoldupExecuteDeadline_keepsForm s
  | holdUpComplete supplyMv => exact execHoldUpComplete_keepsForm supplyMv s
  | resyncSnapshotReceived x => exact execResyncSnapshotReceived_keepsForm x s
  | reservedOpcode e => exact execReservedOpcode_keepsForm e s
  | logicSupplyLost => exact execLogicSupplyLost_keepsForm s
theorem step_keepsForm (s : State) : s.keepsForm (step s) := by
  unfold step
  split
  · rw [State.keepsForm_next]
    intro h
    refine State.restartIfLeft_canonical (State.supTick_canonical ((State.upsetTick_canonical _).2 (State.seeRelease_canonical ?_)))
    simpa using h
  · exact exec_keepsForm _ _

/-- Settles O58: every function that writes the Town Square keeps its form, and every other one leaves its bytes and marks as they were. -/
theorem squareStaysCanonical : Obligations.SquareStaysCanonical := by
  intro s t hwf ht
  rw [State.squareWf_iff] at hwf ⊢
  exact step_keepsForm s t ht hwf

end Sys2Proof.Machine
end

/-! # Calls and returns

A call and a return only say where the engine goes on (R120); when that lies inside a block, the instruction's end leaves the state alone. A RET or END
of a block that was not called, with nothing left to run, stops the engine (R89). -/

section
namespace Sys2Proof.Machine
open Sys2Proof

/-! ## Where an instruction goes -/

/-- An instruction that ends at a place inside its engine's block runs to the state its meaning gives. -/
theorem State.issue_arrives {s t : State} {i : Instr} {e : Fin 4} {ws : List Word} {clk : Nat} {run : Nat → Nat → State → Except Nat State}
    {touch : Nat → State → List Touch} (he : encodeEngine i = some (e, ws)) (h : s.issues i = true)
    (hr : run e (s.pcOf e) (s.advance e ws.length (s.clocksOf i e clk)) = .ok t) (hin : t.inBlock e (t.pcOf e) = true) :
    s.issue i clk run touch = .next t := by
  rw [State.issue_of_issues clk run touch he h, hr]
  exact congrArg Host.Outcome.next (State.settle_inside hin)

/-- An instruction that faults leaves its fault, at its own address. -/
theorem State.issue_faults {s : State} {i : Instr} {e : Fin 4} {ws : List Word} {clk k : Nat} {run : Nat → Nat → State → Except Nat State}
    {touch : Nat → State → List Touch} (he : encodeEngine i = some (e, ws)) (h : s.issues i = true)
    (hr : run e (s.pcOf e) (s.advance e ws.length (s.clocksOf i e clk)) = .error k) :
    s.issue i clk run touch = .next (s.programFault e k (s.pcOf e)) := by
  rw [State.issue_of_issues clk run touch he h, hr]

/-- An engine set down at an address that its new block holds is inside that block. -/
theorem State.inBlock_modEngine {s : State} {e : Nat} {f : Engine → Engine} {k : Block} (hb : s.blockOf (f (s.engine e)).block = some k)
    (hk : k.holds (f (s.engine e)).pc.toNat = true) : (s.modEngine e f).inBlock e ((s.modEngine e f).pcOf e) = true := by
  have hblock : (s.modEngine e f).blockOf (f (s.engine e)).block = some k := (State.blockOf_congr rfl _).trans hb
  simp only [State.inBlock, State.pcOf, State.modEngine_same, hblock, hk]

/-! ## Calls (R120, R135) -/

/-- The module after a call of block `k`: the return address and the calling block are kept, and the chain is new. -/
def State.entered (s : State) (e : Nat) (k : Block) : State :=
  s.modEngine e fun x => { x with calls := (x.pc, x.block) :: x.calls, pc := BitVec.ofNat 18 k.first, block := k.number, chs := true,
                                  clocks := x.clocks + 2 }

section

variable {s : State} {e : Fin 4} {b : BitVec 20} {k : Block}

theorem State.call_entered (hb : s.blockOf b.toNat = some k) (he : k.engine = e) (hv : k.event = none) (hd : (s.engine e).calls.length < 8) :
    s.call e b = .ok (s.entered e k) := by
  simp [State.call, hb, he, hv, Nat.not_le_of_gt hd, State.entered]

theorem State.call_tooDeep (hb : s.blockOf b.toNat = some k) (he : k.engine = e) (hv : k.event = none) (hd : 8 ≤ (s.engine e).calls.length) :
    s.call e b = .error 5 := by
  simp [State.call, hb, he, hv, hd]

theorem State.call_invalid (h : ∀ k, s.blockOf b.toNat = some k → k.engine ≠ e ∨ k.event.isSome = true) : s.call e b = .error 8 := by
  unfold State.call
  split
  · rfl
  next k hk =>
    refine if_pos ?_
    rcases h k hk with he | hv
    · simp [Fin.val_inj, he]
    · simp [hv]

/-- A block that fits the program memory holds its first word. -/
theorem Block.holds_first (hl : 1 ≤ k.length) (hf : k.first + k.length ≤ 262144) : k.holds (BitVec.ofNat 18 k.first).toNat = true := by
  have hfirst : (BitVec.ofNat 18 k.first).toNat = k.first := Nat.mod_eq_of_lt (by omega)
  simp only [Block.holds, hfirst, Bool.and_eq_true, decide_eq_true_eq]
  omega

theorem State.entered_inBlock (hl : 1 ≤ k.length) (hf : k.first + k.length ≤ 262144) (hk : s.blockOf k.number = some k) :
    (s.entered e k).inBlock e ((s.entered e k).pcOf e) = true :=
  State.inBlock_modEngine hk (Block.holds_first hl hf)

end

/-! ## Returns (R89, R120) -/

/-- The module after a return to `pc` of block `b`. -/
def State.returned (s : State) (e : Nat) (pc : BitVec 18) (b : Nat) (rest : List (BitVec 18 × Nat)) : State :=
  s.modEngine e fun x => { x with pc := pc, block := b, calls := rest, chs := true }

/-- The module once an engine has nothing left to run. -/
def State.idled (s : State) (e : Nat) : State := s.modEngine e fun x => { x with running := false, serving := [] }

section

variable {s : State} {e : Fin 4}

theorem State.returnOrEnd_returned {pc : BitVec 18} {b : Nat} {rest : List (BitVec 18 × Nat)} (h : (s.engine e).calls = (pc, b) :: rest) :
    s.returnOrEnd e = s.returned e pc b rest := by
  simp only [State.returnOrEnd, h, State.returned]

theorem State.nextBlock_none (hv : (s.engine e).eventLeft = []) (hy : (s.engine e).cyclicLeft = []) : s.nextBlock e = s.idled e := by
  simp only [State.nextBlock, hv, hy]
  exact congrArg (s.setEngine e) (by simp [hv, hy])

/-- The end of a block that was not called stops an engine with nothing left to run. -/
theorem State.returnOrEnd_last (hc : (s.engine e).calls = []) (hs : (s.engine e).serving = []) (hv : (s.engine e).eventLeft = [])
    (hy : (s.engine e).cyclicLeft = []) :
    (s.returnOrEnd e).engine e = (s.idled e).engine e ∧ (s.returnOrEnd e).square = s.square ∧ (s.returnOrEnd e).round = s.round := by
  have hlast : s.returnOrEnd e = (s.modEngine e fun x => { x with serving := [] }).idled e := by
    rw [← State.nextBlock_none (by simpa using hv) (by simpa using hy)]
    simp [State.returnOrEnd, hc, State.endBlock, hs, hy, State.each]
  rw [hlast]
  refine ⟨?_, rfl, rfl⟩
  simp [State.idled]

/-- RET and END go back to their caller. -/
theorem State.issue_returns {i : Instr} {w : Word} {clk : Nat} {pc : BitVec 18} {b : Nat} {k : Block} {rest : List (BitVec 18 × Nat)}
    (he : encodeEngine i = some (e, [w])) (h : s.issues i = true) (hc : (s.engine e).calls = (pc, b) :: rest)
    (hb : s.blockOf b = some k) (hk : k.holds pc.toNat = true) :
    (s.issue i clk fun n _ s => .ok (s.returnOrEnd n)) = .next ((s.advance e 1 (s.clocksOf i e clk)).returned e pc b rest) := by
  have hback : (s.advance e 1 (s.clocksOf i e clk)).returnOrEnd e = (s.advance e 1 (s.clocksOf i e clk)).returned e pc b rest :=
    State.returnOrEnd_returned (by simpa using hc)
  refine State.issue_arrives he h (congrArg Except.ok hback) (State.inBlock_modEngine (k := k) ?_ hk)
  exact (State.blockOf_congr rfl b).trans hb

/-- RET and END of the last block leave the engine stopped. -/
theorem State.issue_ends {i : Instr} {w : Word} {clk : Nat} (he : encodeEngine i = some (e, [w])) (h : s.issues i = true)
    (hc : (s.engine e).calls = []) (hs : (s.engine e).serving = []) (hv : (s.engine e).eventLeft = []) (hy : (s.engine e).cyclicLeft = []) :
    ∃ t, (s.issue i clk fun n _ s => .ok (s.returnOrEnd n)) = .next t ∧ t.engine e = ((s.advance e 1 (s.clocksOf i e clk)).idled e).engine e ∧
      t.square = s.square ∧ t.round = s.round := by
  obtain ⟨hengine, hsquare, hround⟩ := State.returnOrEnd_last (s := s.advance e 1 (s.clocksOf i e clk)) (e := e)
    (by simpa using hc) (by simpa using hs) (by simpa using hv) (by simpa using hy)
  refine ⟨(s.advance e 1 (s.clocksOf i e clk)).returnOrEnd e, ?_, hengine, hsquare, hround⟩
  rw [State.issue_of_issues clk _ _ he h]
  refine congrArg Host.Outcome.next (State.settle_done ?_)
  exact (congrArg Engine.running hengine).trans (by simp [State.idled])

end

/-! ## The four instructions -/

section

variable {s : State} {e : Fin 4} {b : BitVec 20}

theorem exec_call_eq : exec (.call e b) s = s.issue (.call e b) 1 fun n _ s => s.call n b := rfl

/-- CALLT with CB = 1 calls after it has ended the chain. -/
def State.calledIf (s : State) (e : Nat) (b : BitVec 20) (a : Nat) : Except Nat State :=
  let t := s.modEngine e Engine.chain
  if (s.engine e).cbP then .ok (t.consumePoison e a) else if (s.engine e).cb then t.call e b else .ok t

theorem exec_callt_eq : exec (.callt e b) s = s.issue (.callt e b) 1 fun n a s => s.calledIf n b a := rfl

theorem State.calledIf_taken {a : Nat} (hp : (s.engine e).cbP = false) (hc : (s.engine e).cb = true) :
    s.calledIf e b a = (s.modEngine e Engine.chain).call e b := by
  simp only [State.calledIf, hp, hc, if_true, Bool.false_eq_true, if_false]

theorem State.calledIf_skipped {a : Nat} (hp : (s.engine e).cbP = false) (hc : (s.engine e).cb = false) :
    s.calledIf e b a = .ok (s.modEngine e Engine.chain) := by
  simp only [State.calledIf, hp, hc, Bool.false_eq_true, if_false]

end

/-- Settles O17: a call enters the block it names or faults with its KIND, and a return goes to its caller or ends the last block. -/
theorem callAndReturn : Obligations.CallAndReturn := by
  unfold Obligations.CallAndReturn
  refine ⟨?enters, ?invalid, ?returns, ?ends⟩
  case enters =>
    intro s e b k hb he hv hl hf hk x a enter
    have hin : ∀ u : State, u.mram = s.mram → (u.entered e k).inBlock e ((u.entered e k).pcOf e) = true := fun u hm =>
      State.entered_inBlock hl hf ((State.blockOf_congr hm _).trans hk)
    have hblock : ∀ u : State, u.mram = s.mram → u.blockOf b.toNat = some k := fun u hm => (State.blockOf_congr hm _).trans hb
    refine ⟨fun hd h => ?_, fun hd h => ?_, fun hd hp hc h => ?_, fun hp hc h => ?_⟩
    · rw [exec_call_eq]
      exact State.issue_arrives rfl h (State.call_entered (hblock _ rfl) he hv (by simpa using hd)) (hin _ rfl)
    · rw [exec_call_eq]
      exact State.issue_faults rfl h (State.call_tooDeep (hblock _ rfl) he hv (by simpa using hd))
    · rw [exec_callt_eq]
      refine State.issue_arrives rfl h ?_ (hin _ rfl)
      rw [State.calledIf_taken (by simpa using hp) (by simpa using hc)]
      exact State.call_entered (hblock _ rfl) he hv (by simpa [Engine.chain] using hd)
    · rw [exec_callt_eq]
      refine State.issue_next _ _ _ rfl h (State.calledIf_skipped (by simpa using hp) (by simpa using hc)) rfl ?_ ?_
      · simp
      · simp
  case invalid =>
    intro s e b hno bad
    refine ⟨fun h => ?_, fun hp hc h => ?_⟩
    · rw [exec_call_eq]
      exact State.issue_faults rfl h (State.call_invalid fun k hk => hno k ((State.blockOf_congr rfl _).symm.trans hk))
    · rw [exec_callt_eq]
      refine State.issue_faults rfl h ?_
      rw [State.calledIf_taken (by simpa using hp) (by simpa using hc)]
      exact State.call_invalid fun k hk => hno k ((State.blockOf_congr rfl _).symm.trans hk)
  case returns =>
    intro s e pc b k rest hc hb hk back
    exact ⟨fun h => State.issue_returns rfl h hc hb hk, fun h => State.issue_returns rfl h hc hb hk⟩
  case ends =>
    intro s e hc hs hv hy done
    exact ⟨fun h => State.issue_ends rfl h hc hs hv hy, fun h => State.issue_ends rfl h hc hs hv hy⟩

end Sys2Proof.Machine
end

/-! # Loading and switching the program

A load opens, takes its words and ends, each time at once or forwarded to the partner (R99, R305); a switch is planned ahead (R102, R430), and a mode
waits for the start of a cycle. Acceptance leaves everything alone that these commands ask for. -/

section
namespace Sys2Proof.Machine
open Sys2Proof

/-! ## What acceptance leaves of the program (R42) -/

@[simp] theorem State.admitted_plannedLoad (s : State) (p : Packet) (d : CmdDesc) : (s.admitted p d).plannedLoad = s.plannedLoad :=
  State.admitted_congr State.plannedLoad s p d fun _ _ => rfl

@[simp] theorem State.admitted_stagedNo (s : State) (p : Packet) (d : CmdDesc) : (s.admitted p d).stagedNo = s.stagedNo :=
  State.admitted_congr State.stagedNo s p d fun _ _ => rfl

@[simp] theorem State.admitted_loadWaits (s : State) (p : Packet) (d : CmdDesc) (b : Bool) : (s.admitted p d).loadWaits b = s.loadWaits b :=
  State.admitted_congr (State.loadWaits · b) s p d fun _ _ => rfl

@[simp] theorem State.admitted_hasStandby (s : State) (p : Packet) (d : CmdDesc) : (s.admitted p d).hasStandby = s.hasStandby :=
  State.admitted_congr State.hasStandby s p d fun _ _ => rfl

@[simp] theorem State.admitted_standby (s : State) (p : Packet) (d : CmdDesc) : (s.admitted p d).standby = s.standby :=
  State.admitted_congr State.standby s p d fun _ _ => rfl

@[simp] theorem State.admitted_pairMode (s : State) (p : Packet) (d : CmdDesc) : (s.admitted p d).pairMode = s.pairMode :=
  State.admitted_congr State.pairMode s p d fun _ _ => rfl

/-! ## A load (R99, R134, R305) -/

section

variable {s : State} {c : Ctx} {b : List Byte}

/-- With a path to the partner, a change is forwarded in a synchronised pair and made at once outside of one. -/
theorem State.forwardOr_reaches (h : (s.forwards && s.causewayLost) = false) (g : Change) (now done : State → State) :
    s.forwardOr c g now done = done (if s.forwards then s.queueChange g else now s) := by
  unfold State.forwardOr
  cases hf : s.forwards with
  | false => rfl
  | true => simp_all

theorem runProgramBegin_opens (hk : byteAt b 0 ≤ 1) (hlo : 1 ≤ be32 b 4) (hhi : be32 b 4 ≤ 262144) (hrun : (s.bank (byteAt b 0)).state ≠ .running)
    (hsw : ∀ w, s.square.switch = some w → b2n w.bank ≠ byteAt b 0) :
    runProgramBegin c b s = s.forwardOr c (.programBegin (byteAt b 0 == 1) (be32 b 4) (beWord b 8))
      (fun s => s.openLoad (byteAt b 0 == 1) (be32 b 4) (beWord b 8)) fun s => s.ok c := by
  unfold runProgramBegin
  dsimp only
  rw [if_neg (by simp; omega)]
  refine if_neg ?_
  simp only [Bool.or_eq_true, beq_iff_eq, hrun, false_or]
  split
  · next w hw => simpa using hsw w hw
  · simp

theorem runProgramData_stores {k : Bool} {words : Nat} (hl : s.plannedLoad = some (k, words))
    (hfit : be32 b 0 + (packWords ((b.length - 4) / 4) (b.drop 4)).length ≤ words) :
    runProgramData c b s = s.forwardOr c (.programData (be32 b 0) (packWords ((b.length - 4) / 4) (b.drop 4)))
      (fun s => s.loadWords k (be32 b 0) (packWords ((b.length - 4) / 4) (b.drop 4))) fun s => s.ok c := by
  unfold runProgramData
  rw [hl]
  exact if_neg (Nat.not_lt_of_ge hfit)

theorem runProgramEnd_forwards {k : Bool} {words : Nat} (hl : s.plannedLoad = some (k, words)) (hf : s.forwards = true) (hc : s.causewayLost = false) :
    runProgramEnd c b s = { s.queueChange .programEnd with square := { s.square with loadFor := some c } } := by
  simp only [runProgramEnd, hl, hf, hc]
  rfl

/-- Outside of a pair, and with nothing in the module's memory to correct, a load ends at once. -/
theorem runProgramEnd_ends {k : Bool} {words : Nat} (hl : s.plannedLoad = some (k, words)) (hf : s.forwards = false) (hq : s.quiet = true) :
    runProgramEnd c b s = (s.finishLoad k s.standby).1.reply c (s.finishLoad k s.standby).2 (wordBe (crcWords (s.bank (b2n k)).image)) := by
  simp only [runProgramEnd, hl, hf, State.endLoad, State.readSpan_quiet hq, State.spanLocked_quiet hq]
  rfl

end

/-! ## Judging the domains leaves MRAM (R22) -/

@[simp] theorem State.setIslands_mram (s : State) (d : Nat) (x : IslandState) : (s.setIslands d x).mram = s.mram := by
  unfold State.setIslands
  exact State.each_field State.mram (by intros; rfl) s _

@[simp] theorem State.loseArrays_mram (s : State) (d : Nat) : (s.loseArrays d).mram = s.mram := by
  have hgone : (s.each (domainArrays d) fun s a => s.modArr a fun x => { x with sealed_ := false, commanded := false }).mram = s.mram := by
    exact State.each_field State.mram (by intros; rfl) s _
  unfold State.loseArrays
  dsimp only
  split
  · exact Eq.trans (State.each_field State.mram (by intros; rfl) _ _) hgone
  · split
    · exact (State.refuse_mram _ _ _).trans hgone
    · exact hgone
  · exact hgone

theorem State.judgeDomain_mram (s : State) (d : Nat) : (s.judgeDomain d).mram = s.mram := by
  unfold State.judgeDomain State.powerOff
  dsimp only
  (repeat' split) <;> simp

@[simp] theorem State.judgeDomains_mram (s : State) : s.judgeDomains.mram = s.mram := by
  unfold State.judgeDomains
  split
  · rfl
  · exact State.each_field State.mram State.judgeDomain_mram s _

/-! ## A load that is thrown away (R99) -/

/-- A bank whose load is thrown away is empty. -/
theorem State.dropLoad_bank (s : State) (k : Bool) : ((s.dropLoad k).bank (b2n k)).state = .empty := by
  simp [State.dropLoad, State.bank, State.setBank]

/-- An image that does not have the CRC it was announced with is thrown away. -/
theorem State.finishLoad_mismatch {s : State} {k : Bool} (h : crcWords (s.bank (b2n k)).image ≠ (s.bank (b2n k)).crc) (partner : Bool) :
    s.finishLoad k partner = (s.dropLoad k, .checksumMismatch) := by
  unfold State.finishLoad
  exact if_pos (by simp [h])

/-! ## The switch (R99, R102, R430) -/

section

variable {s : State} {c : Ctx} {b : List Byte}

theorem runProgramSwitch_plans (hb : be32 b 0 ≤ 1) (hsw : s.square.switch = none) (hv : (s.bank s.stagedNo).state = .verified)
    (hforce : be32 b 0 = 0 → ∀ f ∈ s.plannedForces, (s.bank s.stagedNo).desc.lacks f = false) (hwait : s.loadWaits (s.stagedNo == 1) = false)
    (hstandby : s.hasStandby = true → (s.bank s.stagedNo).partnerVerified = true ∨ (s.forwards = false ∧ (s.bank s.stagedNo).inSnapshot = true)) :
    runProgramSwitch c b s = (s.withSquare { s.square with
      switch := some { cycle := cyclePlus s.square.current (if s.pairMode then 8 else 2), bank := s.stagedNo == 1, releaseForces := be32 b 0 == 1 } }).reply
        c .ok (toBe 4 (cyclePlus s.square.current (if s.pairMode then 8 else 2)).toNat) := by
  have hfits : (!(be32 b 0 == 1) && s.plannedForces.any (s.bank s.stagedNo).desc.lacks) = false := by
    rcases (show be32 b 0 = 0 ∨ be32 b 0 = 1 by omega) with h0 | h1
    · simpa [h0] using hforce h0
    · simp [h1]
  have hholds : (s.hasStandby && !((s.bank s.stagedNo).partnerVerified || (!s.forwards && (s.bank s.stagedNo).inSnapshot))) = false := by
    cases hs : s.hasStandby with
    | false => rfl
    | true => rcases hstandby hs with h | ⟨hf, hi⟩ <;> simp [*]
  unfold runProgramSwitch
  dsimp only
  rw [if_neg (by omega), hsw, if_neg (by simp), hv, hwait, if_neg (by decide), hfits, if_neg (by simp), hholds, if_neg (by simp)]
  rfl

/-- RUN_STOP waits for the start of the next cycle; between two cycles that is the current number's (log 117). -/
theorem runRunStop_waits (hb : byteAt b 0 = 1 ∨ byteAt b 0 = 2) :
    runRunStop c b s = (s.withSquare { s.square with
      runStop := some (byteAt b 0 == 1, if s.square.phase = .idle then s.square.current else nextCycle s.square.current) }).reply
        c .ok (toBe 4 (if s.square.phase = .idle then s.square.current else nextCycle s.square.current).toNat) := by
  unfold runRunStop
  dsimp only
  rw [if_neg (by rcases hb with h | h <;> simp [h])]
  simp only [beq_iff_eq]
  rfl

end

/-- Settles O26: each command runs on what acceptance left, of which it asks nothing that acceptance changes. -/
theorem programCommands : Obligations.ProgramCommands := by
  intro s p hreach t c b
  refine ⟨?opens, ?stores, ?forwards, ?ends, ?switches, ?mode⟩
  case opens =>
    intro h hk hlo hhi hrun hsw k n crc
    refine (State.command_next runProgramBegin h).trans ?_
    rw [runProgramBegin_opens hk hlo hhi (by simpa using hrun) (by simpa using hsw), State.forwardOr_reaches (by simpa using hreach), State.admitted_forwards]
  case stores =>
    intro k words h hl a l hfit
    refine (State.command_next runProgramData h).trans ?_
    rw [runProgramData_stores (by simpa using hl) hfit, State.forwardOr_reaches (by simpa using hreach), State.admitted_forwards]
  case forwards =>
    intro k words h hl hf
    refine (State.command_next runProgramEnd h).trans ?_
    rw [runProgramEnd_forwards (by simpa using hl) (by simpa using hf) (by simpa [hf] using hreach), State.admitted_square]
  case ends =>
    intro k words hq h hl hf r
    constructor
    · refine (State.command_next runProgramEnd h).trans ?_
      rw [runProgramEnd_ends (by simpa using hl) (by simpa using hf) (by simpa using hq), State.admitted_standby, State.admitted_bank]
    · intro hcrc
      have hdrop : r = ((t programEndDesc).dropLoad k, .checksumMismatch) := State.finishLoad_mismatch (by simpa [t] using hcrc) _
      rw [hdrop]
      exact ⟨rfl, State.dropLoad_bank _ _⟩
  case switches =>
    intro h hb hsw hv hforce hwait hstandby at_ q
    refine (State.command_next runProgramSwitch h).trans ?_
    rw [runProgramSwitch_plans hb (by simpa using hsw) (by simpa using hv) (by simpa using hforce) (by simpa using hwait) (by simpa using hstandby)]
    simp only [State.admitted_square, State.admitted_pairMode, State.admitted_stagedNo, q, at_, t, c, b]
  case mode =>
    intro h hb at_ q
    refine (State.command_next runRunStop h).trans ?_
    rw [runRunStop_waits hb]
    simp only [State.admitted_square, q, at_, t, c, b]

end Sys2Proof.Machine
end

/-! # Words of the Town Square

What a word operand reads depends on where the area stands and on the bytes there; what becomes of a word that is written is one of four cases:
refused, forced, another engine's, landed (R85, R86, R97, R108, R127). Neither depends on the registers of the engines. -/

section
namespace Sys2Proof.Machine
open Sys2Proof SquareLaws

/-! ## Where a word stands -/

/-- `t` has its operands where `s` has them, with the same timers, counters and totals, and the same errors and repairs stand in it. -/
structure State.placedAs (s t : State) : Prop where
  mram : t.mram = s.mram
  square : t.square = { s.square with mem := t.square.mem, poison := t.square.poison, scratch := t.square.scratch,
                                      ownershipFaults := t.square.ownershipFaults }
  timers : t.timers = s.timers
  counters : t.counters = s.counters
  totals : t.totals = s.totals
  locks : t.locks = s.locks
  upsets : t.upsets = s.upsets

theorem State.placedAs_refl (s : State) : s.placedAs s := ⟨rfl, rfl, rfl, rfl, rfl, rfl, rfl⟩

theorem State.placedAs.trans {s t u : State} (h : s.placedAs t) (k : t.placedAs u) : s.placedAs u where
  mram := k.mram.trans h.mram
  square := by
    refine k.square.trans ?_
    conv => lhs; rw [h.square]
  timers := k.timers.trans h.timers
  counters := k.counters.trans h.counters
  totals := k.totals.trans h.totals
  locks := k.locks.trans h.locks
  upsets := k.upsets.trans h.upsets

section

variable {s t : State} (h : s.placedAs t)
include h

theorem State.placedAs.quiet : t.quiet = s.quiet := by rw [State.quiet, h.locks, h.upsets, State.quiet]

theorem State.placedAs.owner (a : Area) (w : Nat) : t.owner a w = s.owner a w := State.owner_congr h.mram a w

theorem State.placedAs.forceOn (a : Area) (w : Nat) : t.forceOn a w = s.forceOn a w := State.forceOn_congr h.mram a w

theorem State.placedAs.wordAddr (v : View) (a : Area) (w : Nat) : t.wordAddr v a w = s.wordAddr v a w := by
  simp only [State.wordAddr, State.image_congr h.mram, State.runBankNo, h.mram]
  rw [h.square]

theorem State.placedAs.viewOf (e : Nat) (a : Area) (w : Nat) : t.viewOf e a w = s.viewOf e a w := by
  simp only [State.viewOf, h.owner]

theorem State.placedAs.operandAddr (e : Nat) (a : Area) (off : Nat) : t.operandAddr e a off = s.operandAddr e a off := by
  cases a <;> simp only [State.operandAddr, h.wordAddr, h.viewOf]

theorem State.placedAs.mayStore (a : Area) (off : Nat) : t.mayStore a off = s.mayStore a off := by
  simp only [State.mayStore, h.wordAddr]

theorem State.placedAs.freezeInstant : t.freezeInstant = s.freezeInstant := by
  rw [State.freezeInstant, h.square, State.freezeInstant]

theorem State.placedAs.counter (n : Nat) : t.counter n = s.counter n := by rw [State.counter, h.counters, State.counter]

theorem State.placedAs.totalSeen (e n : Nat) : t.totalSeen e n = s.totalSeen e n := by
  simp only [State.totalSeen, State.total, h.totals, h.owner]
  rw [h.square]

end

/-! ## What a word operand reads (R85, R108) -/

/-- The word of the Town Square at an address, with its mark. -/
def Square.wordAt (q : Square) (a : Nat) : Word × Bool := (q.word a, q.poisoned a)

theorem State.sqWord_eq {s : State} {v : View} {a : Area} {w p : Nat} (h : s.wordAddr v a w = some p) : s.sqWord v a w = s.square.wordAt p := by
  simp only [State.sqWord, h, Square.wordAt]

/-- An area whose words stand in both copies has them at the same numbers in both. -/
theorem State.wordAddr_isSome (s : State) (v : View) (a : Area) (w : Nat) : (s.wordAddr v a w).isSome = (s.wordAddr .work a w).isSome := by
  cases a <;> simp only [State.wordAddr, apply_ite Option.isSome, Option.isSome_some, Option.isSome_none]

/-- The areas whose words are bytes of the Town Square: not E, which no word access reads, and not T, C and Z, which are read as numbers. -/
def inSquare (a : Area) : Bool :=
  match a with
  | .I | .Q | .M | .S | .D | .K | .L | .N => true
  | .E | .T | .C | .Z => false

/-- A word operand of the Town Square reads the word at its address. -/
theorem State.readWord_square {s : State} {e : Nat} {a : Area} {off : Nat} {x : Word × Bool} (ha : inSquare a = true) (h : s.readWord e a off = some x) :
    x = s.square.wordAt (s.operandAddr e a off) := by
  have hword : ∀ (v : View) (w : Nat), (s.wordAddr .work a w).isSome = true → s.sqWord v a w = s.square.wordAt ((s.wordAddr v a w).getD 0) := by
    intro v w hw
    obtain ⟨p, hp⟩ := Option.isSome_iff_exists.mp ((s.wordAddr_isSome v a w).trans hw)
    rw [State.sqWord_eq hp, hp, Option.getD_some]
  cases a <;> simp only [State.readWord, Option.ite_none_right_eq_some, Option.some.injEq, Bool.and_eq_true] at h
  case I | Q | M | S => exact h.2.symm.trans (hword _ _ h.1.2)
  case D | K | L | N => exact h.2.symm.trans (hword _ _ h.1)
  case E | T | C | Z => cases ha

/-- What `s` reads as a number, `t` reads the same. -/
theorem State.placedAs.readWord_number {s t : State} (h : s.placedAs t) {e : Nat} {a : Area} (off : Nat) (ha : inSquare a = false) :
    t.readWord e a off = s.readWord e a off := by
  cases a <;> simp only [State.readWord, h.freezeInstant, h.totalSeen, State.timer, h.timers, State.counter, h.counters]
  all_goals cases ha

/-- Whether an operand is one that an instruction may read does not depend on the words. -/
theorem State.placedAs.readWord_isSome {s t : State} (h : s.placedAs t) (e : Nat) (a : Area) (off : Nat) :
    (t.readWord e a off).isSome = (s.readWord e a off).isSome := by
  cases a <;> simp only [State.readWord, h.wordAddr, apply_ite Option.isSome, Option.isSome_some, Option.isSome_none]

/-- An operand of the Town Square reads, in `t`, the word at the address that it has in `s`. -/
theorem State.placedAs.readWord_square {s t : State} (h : s.placedAs t) {e : Nat} {a : Area} {off : Nat} {x : Word × Bool} (ha : inSquare a = true)
    (hx : s.readWord e a off = some x) : t.readWord e a off = some (t.square.wordAt (s.operandAddr e a off)) := by
  have hsome : (t.readWord e a off).isSome = true := by rw [h.readWord_isSome, hx]; rfl
  obtain ⟨y, hy⟩ := Option.isSome_iff_exists.mp hsome
  rw [hy, State.readWord_square ha hy, h.operandAddr]

/-- An operand reads the same where the four bytes at its address are the same. -/
theorem State.placedAs.readWord_agree {s t : State} (h : s.placedAs t) {e : Nat} {a : Area} {off : Nat} {x : Word × Bool}
    (hx : s.readWord e a off = some x) (hag : agree s.square t.square (s.operandAddr e a off) (s.operandAddr e a off)) :
    t.readWord e a off = some x := by
  cases ha : inSquare a with
  | false => rw [h.readWord_number off ha, hx]
  | true =>
    obtain ⟨hword, hmark⟩ := hag.word
    rw [h.readWord_square ha hx, State.readWord_square ha hx, Square.wordAt, Square.wordAt, hword, hmark]

/-- With the bytes of `s` as well, every operand reads the same. -/
theorem State.placedAs.readWord {s t : State} (h : s.placedAs t) (hq : t.square = s.square) (e : Nat) (a : Area) (off : Nat) :
    t.readWord e a off = s.readWord e a off := by
  cases hx : s.readWord e a off with
  | none => simpa [hx] using h.readWord_isSome e a off
  | some x => exact h.readWord_agree hx (by rw [hq]; exact agree_refl _)

/-- Where no error stands, a word is delivered as it reads (R339). -/
theorem State.takeWordAt_quiet {s : State} (hq : s.quiet = true) (e : Nat) (a : Area) (off : Nat) :
    s.takeWordAt e a off .clean = (s.readWord e a off).map fun x => (s, x) := by
  unfold State.takeWordAt
  simp only [State.judgeRead_quiet hq]
  split
  · next h => simp [h]
  · next x h => simp [h]

/-! ## What becomes of a word that is written (R86, R97, R108, R127) -/

/-- The number, in its area, of the word at an offset. -/
def wordIndex (a : Area) (off : Nat) : Nat := if bitArea a then off / 32 else off

section

variable {s : State} {e : Fin 4} {a : Area} {w off : Nat} {f : State → State} {x : Word} {p : Bool}

theorem State.guardWrite_forced (hf : (s.forceOn a w).isSome = true) : s.guardWrite e a w f = s := if_pos hf

theorem State.guardWrite_own (hf : s.forceOn a w = none) (ho : s.owner a w = some e) : s.guardWrite e a w f = f s := by
  simp only [State.guardWrite, hf, ho, Option.isSome_none, Bool.false_eq_true, if_false, Option.map_some, if_true]

theorem State.guardWrite_foreign (hf : s.forceOn a w = none) (ho : s.owner a w ≠ some e) : s.guardWrite e a w f = s.ownershipFault e a w := by
  have hval : ¬ (s.owner a w).map (·.val) = some e.val := fun hm => by
    obtain ⟨g, hg, he⟩ := Option.map_eq_some_iff.mp hm
    exact ho (hg.trans (congrArg some (Fin.ext he)))
  simp only [State.guardWrite, hf, hval, Option.isSome_none, Bool.false_eq_true, if_false]

/-- A word that no instruction may write is not written. -/
theorem State.writeWord_refused (h : s.mayStore a off = false) : s.writeWord e a off x p = none := by
  unfold State.writeWord
  cases hm : mayWriteWord a off with
  | false => rfl
  | true =>
    cases a <;> simp [mayWriteWord] at hm <;> simp [State.mayStore, mayWriteWord, bitArea, hm] at h ⊢
    case C => omega
    all_goals exact h

/-- A counter takes its PRESET. -/
theorem State.writeWord_preset (h : s.mayStore .C off = true) :
    s.writeWord e .C off x p = some (s.guardWrite e .C off fun s => s.modCounter (off / 2) fun c => c.writePreset x p) := by
  simp only [State.mayStore, Bool.and_eq_true, beq_self_eq_true, if_true, decide_eq_true_eq] at h
  simp only [State.writeWord, h.1, h.2, Bool.not_true, Bool.false_eq_true, if_false, if_true]

/-- Every other word is a word of the working copy. -/
theorem State.writeWord_work (h : s.mayStore a off = true) (ha : a ≠ .C) :
    s.writeWord e a off x p = some (s.guardWrite e a (wordIndex a off) fun s => s.putWork a (wordIndex a off) x p) := by
  obtain ⟨hm, hplace⟩ : mayWriteWord a off = true ∧ _ := Bool.and_eq_true_iff.mp h
  cases a <;> simp [bitArea] at hplace ha <;> simp [State.writeWord, hm, hplace, wordIndex, bitArea]
  all_goals cases hm

theorem State.putWork_at {q : Nat} (h : s.wordAddr .work a w = some q) : s.putWork a w x p = s.withSquare (s.square.put q x p) := by
  simp only [State.putWork, h, State.withSquare]

/-- A store that lands may be made. -/
theorem State.wordLands.mayStore {q : Nat} (h : s.wordLands e a off q) : s.mayStore a off = true := by
  obtain ⟨hm, hC, hbit, haddr, -, -⟩ := h
  unfold State.mayStore
  rw [hm, Bool.true_and, if_neg (by simpa using hC)]
  split
  · next hb =>
    rw [if_pos hb] at haddr
    simp [hbit hb, haddr]
  · next hb =>
    rw [if_neg hb] at haddr
    simp [haddr]

/-- A store that lands writes its word and its mark. -/
theorem State.writeWord_lands {q : Nat} (h : s.wordLands e a off q) : s.writeWord e a off x p = some (s.withSquare (s.square.put q x p)) := by
  have hmay := h.mayStore
  obtain ⟨-, hC, -, haddr, hf, ho⟩ := h
  rw [State.writeWord_work hmay hC]
  exact congrArg some ((State.guardWrite_own hf ho).trans (State.putWork_at haddr))

/-- A store to a forced word is discarded (R97). -/
theorem State.writeWord_forced (h : s.mayStore a off = true) (hf : (s.forceOn a (wordIndex a off)).isSome = true) : s.writeWord e a off x p = some s := by
  by_cases ha : a = .C
  · subst ha
    rw [State.writeWord_preset h]
    exact congrArg some (State.guardWrite_forced hf)
  · rw [State.writeWord_work h ha, State.guardWrite_forced hf]

/-- A store to a word of another engine is discarded, counted and recorded (R86). -/
theorem State.writeWord_foreign (h : s.mayStore a off = true) (hf : s.forceOn a (wordIndex a off) = none)
    (ho : s.owner a (wordIndex a off) ≠ some e) : s.writeWord e a off x p = some (s.ownershipFault e a (wordIndex a off)) := by
  by_cases ha : a = .C
  · subst ha
    rw [State.writeWord_preset h]
    exact congrArg some (State.guardWrite_foreign hf ho)
  · rw [State.writeWord_work h ha, State.guardWrite_foreign hf ho]

/-- The PRESET of a counter that the engine owns is set. -/
theorem State.writeWord_counter (h : s.mayStore .C off = true) (hf : s.forceOn .C off = none) (ho : s.owner .C off = some e) :
    s.writeWord e .C off x p = some (s.setCounter (off / 2) { s.counter (off / 2) with preset := x.truncate 29, presetP := p }) := by
  rw [State.writeWord_preset h, State.guardWrite_own hf ho]
  rfl

/-- Whatever becomes of the word, the image and the engines stay. -/
theorem State.writeWord_keeps {u : State} (h : s.writeWord e a off x p = some u) : u.mram = s.mram ∧ u.engines = s.engines := by
  have hguard : ∀ (w : Nat) (f : State → State), (f s).mram = s.mram ∧ (f s).engines = s.engines →
      (s.guardWrite e a w f).mram = s.mram ∧ (s.guardWrite e a w f).engines = s.engines := by
    intro w f hf
    unfold State.guardWrite
    split
    · exact ⟨rfl, rfl⟩
    · split
      · exact hf
      · exact ⟨State.ownershipFault_mram .., State.ownershipFault_engines ..⟩
  cases hmay : s.mayStore a off with
  | false => rw [State.writeWord_refused hmay] at h; cases h
  | true =>
    by_cases ha : a = .C
    · subst ha
      rw [State.writeWord_preset hmay] at h
      cases h
      exact hguard _ _ ⟨rfl, rfl⟩
    · rw [State.writeWord_work hmay ha] at h
      cases h
      have hframe := (s.putWork_writes a (wordIndex a off) x p).frame
      exact hguard _ _ ⟨by rw [hframe], by rw [hframe]⟩

theorem State.placedAs.wordLands {t : State} (h : s.placedAs t) {q : Nat} (hl : s.wordLands e a off q) : t.wordLands e a off q := by
  simpa only [State.wordLands, h.wordAddr, h.forceOn, h.owner] using hl

end

/-! ## An engine's own work leaves the operands where they are -/

theorem State.placedAs_modEngine (s : State) (e : Nat) (f : Engine → Engine) : s.placedAs (s.modEngine e f) := ⟨rfl, rfl, rfl, rfl, rfl, rfl, rfl⟩

theorem State.placedAs_advance (s : State) (e n c : Nat) : s.placedAs (s.advance e n c) := ⟨rfl, rfl, rfl, rfl, rfl, rfl, rfl⟩

@[simp] theorem State.posted_square (s : State) (e : Nat) : (s.posted e).square = s.square := by
  unfold State.posted
  dsimp only
  split <;> rfl

theorem State.placedAs_posted (s : State) (e : Nat) : s.placedAs (s.posted e) := by
  unfold State.posted
  dsimp only
  split <;> exact ⟨rfl, rfl, rfl, rfl, rfl, rfl, rfl⟩

theorem State.placedAs_withSquare_put (s : State) (a : Nat) (x : Word) (p : Bool) : s.placedAs (s.withSquare (s.square.put a x p)) :=
  ⟨rfl, rfl, rfl, rfl, rfl, rfl, rfl⟩

theorem State.ownershipFault_square (s : State) (e : Nat) (a : Area) (w : Nat) :
    (s.ownershipFault e a w).square = { s.square with ownershipFaults := satInc s.square.ownershipFaults } := by
  simp [State.ownershipFault]

@[simp] theorem State.raiseFull_upsets (s : State) (src : Nat) (k : RecKind) (value : Word) (time : Option Nat) (cycle : Option (BitVec 32)) :
    (s.raiseFull src k value time cycle).upsets = s.upsets := by
  unfold State.raiseFull State.handRecord
  dsimp only
  (repeat' split) <;> rfl

theorem State.placedAs_ownershipFault (s : State) (e : Nat) (a : Area) (w : Nat) : s.placedAs (s.ownershipFault e a w) where
  mram := State.ownershipFault_mram ..
  square := by rw [State.ownershipFault_square]
  timers := State.raiseFrom_timers ..
  counters := State.raiseFrom_counters ..
  totals := State.raiseFrom_totals ..
  locks := State.raiseFrom_locks ..
  upsets := State.raiseFull_upsets ..

end Sys2Proof.Machine
end

/-! # Word accesses

LW, LWI, SW, MOVE and SWAP (R114, R115). A load takes what its read finds, errors included (R339, R341, R343); a store leaves what becomes of its word,
or faults; MOVE is a read and a write, in the state in which its engine has been charged for both. -/

section
namespace Sys2Proof.Machine
open Sys2Proof SquareLaws

/-! ## What an instruction leaves of the place of its engine -/

theorem State.quiet_of_fallsThrough {s : State} {i : Instr} (h : s.fallsThrough i = true) : s.quiet = true :=
  (Bool.and_eq_true_iff.mp (State.issues_of_fallsThrough h)).2

theorem State.inBlock_of_fallsThrough {s : State} {i : Instr} {e : Fin 4} {ws : List Word} (he : encodeEngine i = some (e, ws))
    (h : s.fallsThrough i = true) : s.inBlock e ((s.engine e).pc + BitVec.ofNat 18 ws.length).toNat = true := by
  simp only [State.fallsThrough, he, Bool.and_eq_true] at h
  exact h.2

theorem State.inBlock_advanced {s : State} {i : Instr} {e : Fin 4} {ws : List Word} {n : Nat} (he : encodeEngine i = some (e, ws))
    (h : s.fallsThrough i = true) (hn : ws.length = n) (c : Nat) : (s.advance e n c).inBlock e ((s.advance e n c).pcOf e) = true := by
  subst hn
  rw [State.inBlock_congr (t := s.advance e ws.length c) (s := s) rfl (by simp), State.pcOf, State.advance_engine]
  exact State.inBlock_of_fallsThrough he h

theorem State.inBlock_of_place {s t : State} {e : Nat} (hm : t.mram = s.mram) (hb : (t.engine e).block = (s.engine e).block)
    (hp : (t.engine e).pc = (s.engine e).pc) : t.inBlock e (t.pcOf e) = s.inBlock e (s.pcOf e) := by
  rw [State.inBlock_congr hm hb, State.pcOf, State.pcOf, hp]

theorem State.inBlock_registers {s : State} {e : Nat} {f : Engine → Engine} (hb : (f (s.engine e)).block = (s.engine e).block)
    (hp : (f (s.engine e)).pc = (s.engine e).pc) : (s.modEngine e f).inBlock e ((s.modEngine e f).pcOf e) = s.inBlock e (s.pcOf e) :=
  State.inBlock_of_place rfl (by simpa using hb) (by simpa using hp)

/-- A posted store leaves its engine where it was. -/
theorem State.inBlock_posted (s : State) (e : Fin 4) : (s.posted e).inBlock e ((s.posted e).pcOf e) = s.inBlock e (s.pcOf e) := by
  obtain ⟨c, hc⟩ := s.posted_engine e
  exact State.inBlock_of_place (s.posted_mram e) (by rw [hc]) (by rw [hc])

/-- Errors, records and firings leave the place of an engine. -/
theorem State.inBlock_of_rest {s t : State} (h : t.rest {} = s.rest {}) (e : Nat) : t.inBlock e (t.pcOf e) = s.inBlock e (s.pcOf e) :=
  (congrArg (fun u : State => u.inBlock e (u.pcOf e)) h :)

/-! ## Loads (R114, R339, R341, R343) -/

@[simp] theorem State.load_mram (s : State) (e : Nat) : (s.load e).mram = s.mram := rfl

theorem State.load_engine (s : State) (e : Nat) :
    (s.load e).engine e = { s.engine e with loadAt := (s.engine e).clocks.toNat - 1 + Config.readLatency s.freeCount } :=
  State.modEngine_same s e fun x => { x with loadAt := x.clocks.toNat - 1 + Config.readLatency s.freeCount }

@[simp] theorem State.load_block (s : State) (e : Nat) : ((s.load e).engine e).block = (s.engine e).block := by rw [State.load_engine]

@[simp] theorem State.load_pc (s : State) (e : Nat) : ((s.load e).engine e).pc = (s.engine e).pc := by rw [State.load_engine]

section

variable {s : State} {e : Fin 4} {o : Operand}

/-- The word that a read delivers carries a mark where the read found an uncorrectable byte (R341, R345). -/
theorem State.takeWordAt_reads {a : Area} {off : Nat} {v : Verdict} {x : Word × Bool} {r : State × Bool} (hx : s.readWord e a off = some x)
    (hr : s.judgeRead 2 (s.operandAddr e a off) v = r) (hz : (a == .Z && r.2) = false) :
    s.takeWordAt e a off v = some (r.1, x.1, x.2 || r.2) := by
  simp only [State.takeWordAt, hx, hr, hz, Bool.false_eq_true, if_false]

/-- LW loads what its read delivers, in the state that the read leaves. -/
theorem exec_lw_reads {v : Verdict} {x : Word × Bool} (hx : s.readWord e o.area o.offset.toNat = some x) (h : s.fallsThrough (.lw e o v) = true)
    {r : State × Bool} (hr : (s.advance e 1 (s.clocksOf (.lw e o v) e 1)).judgeRead 2 (s.operandAddr e o.area o.offset.toNat) v = r)
    (hz : (o.area == .Z && r.2) = false) :
    exec (.lw e o v) s = .next ((r.1.modEngine e fun y => y.loadWa x.1 (x.2 || r.2)).load e) := by
  let t := s.advance e 1 (s.clocksOf (.lw e o v) e 1)
  have hplace : s.placedAs t := State.placedAs_advance ..
  have htake : t.takeWordAt e o.area o.offset.toNat v = some (r.1, x.1, x.2 || r.2) :=
    State.takeWordAt_reads ((hplace.readWord rfl _ _ _).trans hx) (by rw [hplace.operandAddr, hr]) hz
  have hrest : r.1.rest {} = t.rest {} := by rw [← hr]; exact State.judgeRead_rest ..
  have hin : t.inBlock e (t.pcOf e) = true := State.inBlock_advanced (i := .lw e o v) rfl h rfl _
  have hstays := State.inBlock_of_place (s := r.1) (t := (r.1.modEngine e fun y => y.loadWa x.1 (x.2 || r.2)).load e) (e := e) rfl
    (by simp [Engine.loadWa]) (by simp [Engine.loadWa])
  show execLw e o v s = _
  unfold execLw
  refine State.issue_arrives (t := (r.1.modEngine e fun y => y.loadWa x.1 (x.2 || r.2)).load e) rfl (State.issues_of_fallsThrough h) ?_ ?_
  · show allowed (t.takeWordAt e o.area o.offset.toNat v) _ = _
    rw [htake]
    rfl
  · rw [hstays, State.inBlock_of_rest hrest]
    exact hin

end

section

variable {s : State} (hq : s.quiet = true)
include hq

/-- Where no error stands, what a read finds is what it is told (R341). -/
theorem State.judgeRead_corrected (a b n : Nat) (hard : Bool) : s.judgeRead a b (.corrected n hard) =
    (if hard then (s.corrections a n).remapWord a (wordOf b) else s.corrections a n, false) := by
  simp [State.judgeRead, State.upsetsIn_quiet hq, foundAt, State.leaveHard]

theorem State.judgeRead_uncorrectable (a b n : Nat) : s.judgeRead a b (.uncorrectable n) = ((s.corrections a n).poisonedRead a b, true) := by
  simp [State.judgeRead, State.upsetsIn_quiet hq, foundAt, State.leaveHard]

end

/-! ## Stores (R86, R97, R108) -/

section

variable {s : State} {e : Fin 4} {o : Operand}

/-- The module once the word of SW has been fetched. -/
def State.swFetched (s : State) (e : Fin 4) (o : Operand) : State := s.advance e 1 (s.clocksOf (.sw e o .clean) e 1)

theorem State.placedAs_swFetched (s : State) (e : Fin 4) (o : Operand) : s.placedAs (s.swFetched e o) := State.placedAs_advance ..

theorem exec_sw_eq : exec (.sw e o .clean) s = s.issue (.sw e o .clean) 1
    (fun n _ t => allowed (t.writeWord n o.area o.offset.toNat (t.engine n).wa (t.engine n).waP) fun u => .ok (u.posted n))
    fun n t => t.wordStore n o 1 := by
  have hsame : ∀ (b : Bool) (u : State), (if b then u.corrections 2 (fixedBytes .clean) else u) = u := fun b u => by cases b <;> rfl
  show execSw e o .clean s = _
  unfold execSw
  simp only [badBytes, Bool.and_false, Bool.false_and, Bool.false_eq_true, if_false, hsame]

theorem exec_sw_faults (h : s.fallsThrough (.sw e o .clean) = true) (hmay : s.mayStore o.area o.offset.toNat = false) :
    exec (.sw e o .clean) s = .next (s.programFault e 7 (s.pcOf e)) := by
  have hw : (s.swFetched e o).writeWord e o.area o.offset.toNat ((s.swFetched e o).engine e).wa ((s.swFetched e o).engine e).waP = none :=
    State.writeWord_refused (by rwa [(s.placedAs_swFetched e o).mayStore])
  rw [exec_sw_eq]
  refine State.issue_faults rfl (State.issues_of_fallsThrough h) ?_
  show allowed ((s.swFetched e o).writeWord e o.area o.offset.toNat ((s.swFetched e o).engine e).wa ((s.swFetched e o).engine e).waP) _ = _
  rw [hw]
  rfl

theorem exec_sw_stores (h : s.fallsThrough (.sw e o .clean) = true) {u : State}
    (hw : (s.swFetched e o).writeWord e o.area o.offset.toNat (s.engine e).wa (s.engine e).waP = some u) :
    exec (.sw e o .clean) s = .next (u.posted e) := by
  obtain ⟨hm, hu⟩ := State.writeWord_keeps hw
  have hengine : u.engine e = (s.swFetched e o).engine e := by rw [State.engine, State.engine, hu]
  have hin : (s.swFetched e o).inBlock e ((s.swFetched e o).pcOf e) = true := State.inBlock_advanced (i := .sw e o .clean) rfl h rfl _
  have hwa : ((s.swFetched e o).engine e).wa = (s.engine e).wa := by simp [State.swFetched]
  have hwaP : ((s.swFetched e o).engine e).waP = (s.engine e).waP := by simp [State.swFetched]
  rw [exec_sw_eq]
  refine State.issue_arrives (t := u.posted e) rfl (State.issues_of_fallsThrough h) ?_ ?_
  · show allowed ((s.swFetched e o).writeWord e o.area o.offset.toNat ((s.swFetched e o).engine e).wa ((s.swFetched e o).engine e).waP) _ = _
    rw [hwa, hwaP, hw]
    rfl
  · rw [State.inBlock_posted, State.inBlock_of_place hm (by rw [hengine]) (by rw [hengine])]
    exact hin

end

/-! ## Moves, word by word (R114, R128) -/

section

variable {s : State} {e : Fin 4} {src dst : Operand} {n k : Nat} {x : Word × Bool}

/-- A word that can be read and stored is moved, and the next one follows. -/
theorem State.moveWords_step {u : State} (hq : s.quiet = true) (hx : s.readWord e src.area (Operand.plus src k) = some x)
    (hw : s.writeWord e dst.area (Operand.plus dst k) x.1 x.2 = some u) :
    s.moveWords e src dst (n + 1) k none = u.moveWords e src dst n (k + 1) none := by
  have hfree : ∀ a b, s.locked a b = false := State.locked_clear (List.isEmpty_iff.mp (Bool.and_eq_true_iff.mp hq).1)
  have hwaits : ∀ a off, s.storeWaits e a off = false := fun a off => by simp [State.storeWaits, hfree]
  rw [State.moveWords]
  simp only [State.takeWordAt_quiet hq, hx, hfree, hwaits, hw, Option.map_some, Bool.and_false, Bool.false_eq_true, if_false]

/-- A word that no instruction may read stops the move. -/
theorem State.moveWords_unread (hq : s.quiet = true) (hx : s.readWord e src.area (Operand.plus src k) = none) :
    s.moveWords e src dst (n + 1) k none = .error 7 := by
  have hfree : ∀ a b, s.locked a b = false := State.locked_clear (List.isEmpty_iff.mp (Bool.and_eq_true_iff.mp hq).1)
  rw [State.moveWords]
  simp only [State.takeWordAt_quiet hq, hx, hfree, Option.map_none, Bool.and_false, Bool.false_eq_true, if_false]

/-- A word that no instruction may write stops it too. -/
theorem State.moveWords_unwritten (hq : s.quiet = true) (hx : s.readWord e src.area (Operand.plus src k) = some x)
    (hw : s.writeWord e dst.area (Operand.plus dst k) x.1 x.2 = none) : s.moveWords e src dst (n + 1) k none = .error 7 := by
  have hfree : ∀ a b, s.locked a b = false := State.locked_clear (List.isEmpty_iff.mp (Bool.and_eq_true_iff.mp hq).1)
  have hwaits : ∀ a off, s.storeWaits e a off = false := fun a off => by simp [State.storeWaits, hfree]
  rw [State.moveWords]
  simp only [State.takeWordAt_quiet hq, hx, hfree, hwaits, hw, Option.map_some, Bool.and_false, Bool.false_eq_true, if_false]

/-- The module once the instruction `i` has been charged for its two words, `n` clocks and its store (R115). -/
def State.charged (s : State) (i : Instr) (e : Fin 4) (n : Nat) : State := (((s.advance e 2 (s.clocksOf i e 2)).busy e n).draw).posted e

theorem State.placedAs_charged (s : State) (i : Instr) (e : Fin 4) (n : Nat) : s.placedAs (s.charged i e n) :=
  State.placedAs.trans (t := ((s.advance e 2 (s.clocksOf i e 2)).busy e n).draw) ⟨rfl, rfl, rfl, rfl, rfl, rfl, rfl⟩ (State.placedAs_posted ..)

@[simp] theorem State.charged_square (s : State) (i : Instr) (e : Fin 4) (n : Nat) : (s.charged i e n).square = s.square := State.posted_square ..

theorem State.inBlock_charged (s : State) (i : Instr) (e : Fin 4) (n : Nat) : (s.charged i e n).inBlock e ((s.charged i e n).pcOf e) =
    (s.advance e 2 (s.clocksOf i e 2)).inBlock e ((s.advance e 2 (s.clocksOf i e 2)).pcOf e) :=
  (State.inBlock_posted ..).trans (State.inBlock_registers (s := s.advance e 2 (s.clocksOf i e 2))
    (f := fun x => { x with clocks := x.clocks + BitVec.ofNat 32 n }) rfl rfl)

/-- A move that starts fresh and is not held up ends with nothing moved half. -/
theorem State.moveBlock_done {y : Engine} (hy : y.moved = none) {u : State} (h : s.moveWords e src dst n 0 none = .ok (u, none)) :
    s.moveBlock e y src dst n = .ok (u.modEngine e fun y => { y with moved := none }) := by
  simp only [State.moveBlock, Engine.movedTo, hy, Option.getD_none, Nat.sub_zero, h]

theorem State.moveBlock_faults {y : Engine} (hy : y.moved = none) (h : s.moveWords e src dst n 0 none = .error k) :
    s.moveBlock e y src dst n = .error k := by
  simp only [State.moveBlock, Engine.movedTo, hy, Option.getD_none, Nat.sub_zero, h]

/-- A move that reads, stores and leaves no more than words of the Town Square and ownership faults falls through. -/
theorem State.issue_moves {i : Instr} {w w' : Word} {c : Nat} {run : Nat → Nat → State → Except Nat State} {touch : Nat → State → List Touch}
    (he : encodeEngine i = some (e, [w, w'])) (h : s.fallsThrough i = true) (hm : (s.engine e).moved = none)
    (hrun : run e (s.pcOf e) (s.advance e 2 (s.clocksOf i e 2)) = (s.charged i e c).moveBlock e (s.engine e) src dst n) {u : State}
    (hu : (s.charged i e c).moveWords e src dst n 0 none = .ok (u, none)) (hmram : u.mram = (s.charged i e c).mram)
    (hengines : u.engines = (s.charged i e c).engines) :
    s.issue i 2 run touch = .next (u.modEngine e fun x => { x with moved := none }) := by
  have hengine : u.engine e = (s.charged i e c).engine e := by rw [State.engine, State.engine, hengines]
  refine State.issue_arrives (t := u.modEngine e fun x => { x with moved := none }) he (State.issues_of_fallsThrough h)
    (hrun.trans (State.moveBlock_done hm hu)) ?_
  rw [State.inBlock_registers (s := u) (f := fun x => { x with moved := none }) rfl rfl,
    State.inBlock_of_place hmram (by rw [hengine]) (by rw [hengine]), State.inBlock_charged]
  exact State.inBlock_advanced he h rfl _

@[simp] theorem Operand.plus_zero (o : Operand) : Operand.plus o 0 = o.offset.toNat := by simp [Operand.plus]

end

/-! ## MOVE (R114, R115) -/

section

variable {s : State} {e : Fin 4} {src dst : Operand}

/-- The module once MOVE has been charged for its read and its store (R115; log 14). -/
def State.moveFetched (s : State) (e : Fin 4) (src dst : Operand) : State :=
  s.charged (.move e src dst) e (Config.readLatency s.freeCount - 2)

theorem exec_move_eq : exec (.move e src dst) s = s.issue (.move e src dst) 2
    (fun n _ t => (((t.busy n (Config.readLatency t.freeCount - 2)).draw).posted n).moveBlock n (s.engine n) src dst 1)
    fun n t => t.moveTouch n src dst 1 := rfl

theorem State.placedAs_moveFetched (s : State) (e : Fin 4) (src dst : Operand) : s.placedAs (s.moveFetched e src dst) := State.placedAs_charged ..

theorem State.moveFetched_quiet (h : s.fallsThrough (.move e src dst) = true) : (s.moveFetched e src dst).quiet = true :=
  (s.placedAs_moveFetched e src dst).quiet.trans (State.quiet_of_fallsThrough h)

theorem State.moveFetched_readWord (s : State) (e : Fin 4) (src dst : Operand) :
    (s.moveFetched e src dst).readWord e src.area (Operand.plus src 0) = s.readWord e src.area src.offset.toNat := by
  rw [Operand.plus_zero, (s.placedAs_moveFetched e src dst).readWord (State.charged_square ..)]

/-- MOVE faults where its word can be neither read nor written. -/
theorem exec_move_faults (h : s.fallsThrough (.move e src dst) = true) (hm : (s.engine e).moved = none)
    (hw : (s.moveFetched e src dst).moveWords e src dst 1 0 none = .error 7) :
    exec (.move e src dst) s = .next (s.programFault e 7 (s.pcOf e)) := by
  rw [exec_move_eq]
  exact State.issue_faults rfl (State.issues_of_fallsThrough h) (State.moveBlock_faults (s := s.moveFetched e src dst) hm hw)

theorem exec_move_stores (h : s.fallsThrough (.move e src dst) = true) (hm : (s.engine e).moved = none) {v : Word × Bool}
    (hv : s.readWord e src.area src.offset.toNat = some v) {u : State}
    (hw : (s.moveFetched e src dst).writeWord e dst.area dst.offset.toNat v.1 v.2 = some u) :
    exec (.move e src dst) s = .next (u.modEngine e fun x => { x with moved := none }) := by
  have hwords : (s.moveFetched e src dst).moveWords e src dst 1 0 none = .ok (u, none) := by
    rw [State.moveWords_step (State.moveFetched_quiet h) ((s.moveFetched_readWord e src dst).trans hv) (by rwa [Operand.plus_zero]), State.moveWords]
  obtain ⟨hmram, hengines⟩ := State.writeWord_keeps hw
  rw [exec_move_eq]
  exact State.issue_moves rfl h hm rfl hwords hmram hengines

end

/-! ## The clauses -/

section

variable {s : State} {e : Fin 4}

theorem exec_lwi_loads {imm : Word} (h : s.fallsThrough (.lwi e imm) = true) :
    exec (.lwi e imm) s = .next ((s.advance e 2 (s.clocksOf (.lwi e imm) e 2)).modEngine e fun x => x.loadWa imm false) :=
  State.issueRegs_next (ws := [insnWord 0x41 0 0, imm]) 2 (fun x => x.loadWa imm false) rfl h (fun _ => rfl) fun _ => rfl

theorem exec_swap_swaps (h : s.fallsThrough (.swap e) = true) : exec (.swap e) s =
    .next ((s.advance e 1 (s.clocksOf (.swap e) e 1)).modEngine e fun x => { x with wa := x.wb, waP := x.wbP, wb := x.wa, wbP := x.waP }) :=
  State.issueRegs_next (ws := [insnWord 0x45 0 0]) 1 (fun x => { x with wa := x.wb, waP := x.wbP, wb := x.wa, wbP := x.waP }) rfl h
    (fun _ => rfl) fun _ => rfl

end

/-- Settles O14: a load by what its read finds, a store and a MOVE by what becomes of the word that they write. -/
theorem wordAccessResult : Obligations.WordAccessResult := by
  unfold Obligations.WordAccessResult
  refine ⟨fun s e => ⟨?load, ?literal, ?swap, ?lands, ?stores, ?moves⟩, ?errors⟩
  case load =>
    intro o w p hx h
    have hq : (s.advance e 1 (s.clocksOf (.lw e o .clean) e 1)).quiet = true := State.quiet_of_fallsThrough (s := s) h
    rw [exec_lw_reads hx h (State.judgeRead_quiet hq _ _) (Bool.and_false _), Bool.or_false]
    rfl
  case literal => exact fun imm h => exec_lwi_loads h
  case swap => exact exec_swap_swaps
  case lands =>
    intro o a hl h
    exact exec_sw_stores h (State.writeWord_lands ((s.placedAs_swFetched e o).wordLands hl))
  case stores =>
    intro dst w n sw x h
    have hplace := s.placedAs_swFetched e dst
    refine ⟨fun hmay => exec_sw_faults h hmay, fun hmay hf => ?_, fun hmay hf ho => ?_, fun hmay hC hf ho => ?_⟩
    · exact exec_sw_stores h (State.writeWord_forced (by rwa [hplace.mayStore]) (by rwa [hplace.forceOn]))
    · exact exec_sw_stores h (State.writeWord_foreign (by rwa [hplace.mayStore]) (by rwa [hplace.forceOn]) (by rwa [hplace.owner]))
    · refine exec_sw_stores h ?_
      rw [hC] at hmay ⊢
      exact State.writeWord_counter (by rwa [hplace.mayStore]) (by rwa [hplace.forceOn]) (by rwa [hplace.owner])
  case moves =>
    intro src dst hm h w n t done
    have hplace := s.placedAs_moveFetched e src dst
    have hquiet := State.moveFetched_quiet h
    have hread := s.moveFetched_readWord e src dst
    refine ⟨fun hx => exec_move_faults h hm (State.moveWords_unread hquiet (hread.trans hx)), fun v p hx => ⟨fun a hl => ?_, fun hmay => ?_,
      fun hmay hf => ?_, fun hmay hf ho => ?_, fun hmay hC hf ho => ?_⟩⟩
    · have hw := State.writeWord_lands (x := v) (p := p) (hplace.wordLands hl)
      rw [State.moveFetched, State.charged_square] at hw
      exact exec_move_stores h hm hx hw
    · refine exec_move_faults h hm (State.moveWords_unwritten hquiet (hread.trans hx) (State.writeWord_refused ?_))
      rwa [hplace.mayStore, Operand.plus_zero]
    · exact exec_move_stores h hm hx (State.writeWord_forced (by rwa [hplace.mayStore]) (by rwa [hplace.forceOn]))
    · exact exec_move_stores h hm hx (State.writeWord_foreign (by rwa [hplace.mayStore]) (by rwa [hplace.forceOn]) (by rwa [hplace.owner]))
    · refine exec_move_stores h hm hx ?_
      rw [hC] at hmay ⊢
      have hw := State.writeWord_counter (x := v) (p := p) ((hplace.mayStore .C n).trans hmay) (by rwa [hplace.forceOn]) (by rwa [hplace.owner])
      rw [hplace.counter] at hw
      exact hw
  case errors =>
    intro s e o w p hx hZ at_ load passed
    have hz : ∀ q, (o.area == .Z && q) = false := fun q => by simp [hZ]
    refine ⟨fun n hard h => ?_, fun n h => ?_⟩
    · have hq : (passed (.corrected n hard)).quiet = true := State.quiet_of_fallsThrough (s := s) h
      intro t
      rw [exec_lw_reads hx h (State.judgeRead_corrected hq _ _ _ _) (hz _), Bool.or_false]
      rfl
    · have hq : (passed (.uncorrectable n)).quiet = true := State.quiet_of_fallsThrough (s := s) h
      rw [exec_lw_reads hx h (State.judgeRead_uncorrectable hq _ _ _) (hz _), Bool.or_true]
      rfl

end Sys2Proof.Machine
end

/-! # Block moves

BMOVE moves its words one after another, and the source of a later word may be the destination of an earlier one (R128). What the Town Square holds at
a word's turn is told by the words moved before: each stands where it landed, and every other word of `s` is as it was. -/

section
namespace Sys2Proof.Machine
open Sys2Proof SquareLaws

/-! ## The words of a move -/

/-- What the move of word `i` leaves: nothing of a forced word, an ownership fault of another engine's, else the word where it lands. -/
def State.wordMoved (s : State) (e : Fin 4) (dst : Operand) (a : Nat → Nat) (v : Nat → Word × Bool) (u : State) (i : Nat) : State :=
  if (s.forceOn dst.area (wordIndex dst.area (Operand.plus dst i))).isSome then u
  else if s.owner dst.area (wordIndex dst.area (Operand.plus dst i)) = some e then u.withSquare (u.square.put (a i) (v i).1 (v i).2)
  else u.ownershipFault e dst.area (wordIndex dst.area (Operand.plus dst i))

/-- What the first `n` words leave. -/
def State.wordsMoved (s : State) (e : Fin 4) (dst : Operand) (a : Nat → Nat) (v : Nat → Word × Bool) (t : State) (n : Nat) : State :=
  (List.range n).foldl (s.wordMoved e dst a v) t

/-- The addresses `a` and the words `v` of a move of `n` words from `src` to `dst`: each word may be read and stored, goes behind the ones before it,
and comes from beside them or from exactly one of them that landed. -/
structure State.movePlan (s : State) (e : Fin 4) (src dst : Operand) (a : Nat → Nat) (v : Nat → Word × Bool) (n : Nat) : Prop where
  stores : ∀ i < n, dst.area ≠ .C ∧ s.mayStore dst.area (Operand.plus dst i) = true ∧
    s.wordAddr .work dst.area (wordIndex dst.area (Operand.plus dst i)) = some (a i)
  reads : ∀ i < n, ∃ x, s.readWord e src.area (Operand.plus src i) = some x ∧
    ((∀ j < i, s.operandAddr e src.area (Operand.plus src i) ≠ a j) → v i = x)
  apart : ∀ i < n, ∀ j < i, a j + 4 ≤ a i ∧ (s.operandAddr e src.area (Operand.plus src i) + 4 ≤ a j ∨
    a j + 4 ≤ s.operandAddr e src.area (Operand.plus src i) ∨
    (s.operandAddr e src.area (Operand.plus src i) = a j ∧ src.area = dst.area ∧
      s.forceOn dst.area (wordIndex dst.area (Operand.plus dst j)) = none ∧
      s.owner dst.area (wordIndex dst.area (Operand.plus dst j)) = some e ∧ v i = v j))

section

variable {s t : State} {e : Fin 4} {src dst : Operand} {a : Nat → Nat} {v : Nat → Word × Bool} {n k : Nat}

theorem State.wordsMoved_succ : s.wordsMoved e dst a v t (k + 1) = s.wordMoved e dst a v (s.wordsMoved e dst a v t k) k := by
  simp only [State.wordsMoved, List.range_succ, List.foldl_append, List.foldl_cons, List.foldl_nil]

theorem State.placedAs_wordMoved (s u : State) (e : Fin 4) (dst : Operand) (a : Nat → Nat) (v : Nat → Word × Bool) (i : Nat) :
    u.placedAs (s.wordMoved e dst a v u i) := by
  unfold State.wordMoved
  split
  · exact u.placedAs_refl
  · split
    · exact u.placedAs_withSquare_put _ _ _
    · exact u.placedAs_ownershipFault _ _ _

theorem State.wordMoved_engines (s u : State) (e : Fin 4) (dst : Operand) (a : Nat → Nat) (v : Nat → Word × Bool) (i : Nat) :
    (s.wordMoved e dst a v u i).engines = u.engines := by
  unfold State.wordMoved
  split
  · rfl
  · split
    · rfl
    · exact State.ownershipFault_engines ..

/-- A moved word leaves the words beside its place. -/
theorem State.wordMoved_agree (s u : State) (e : Fin 4) (dst : Operand) (v : Nat → Word × Bool) {i p : Nat} (hp : a i + 4 ≤ p ∨ p + 4 ≤ a i) :
    agree u.square (s.wordMoved e dst a v u i).square p p := by
  unfold State.wordMoved
  split
  · exact agree_refl p
  · split
    · exact agree_put _ _ hp
    · rw [State.ownershipFault_square]
      exact agree_refl p

theorem State.wordMoved_lands (u : State) {i : Nat} (hf : s.forceOn dst.area (wordIndex dst.area (Operand.plus dst i)) = none)
    (ho : s.owner dst.area (wordIndex dst.area (Operand.plus dst i)) = some e) : (s.wordMoved e dst a v u i).square.wordAt (a i) = v i := by
  unfold State.wordMoved
  rw [hf, if_neg (by simp), if_pos ho]
  exact Prod.ext (read_put_same ..) (poisoned_put_same ..)

/-- A word that may be stored is moved as `State.wordMoved` says. -/
theorem State.writeWord_wordMoved {u : State} (hplace : s.placedAs u) {i : Nat} (hC : dst.area ≠ .C)
    (hmay : s.mayStore dst.area (Operand.plus dst i) = true)
    (ha : s.wordAddr .work dst.area (wordIndex dst.area (Operand.plus dst i)) = some (a i)) :
    u.writeWord e dst.area (Operand.plus dst i) (v i).1 (v i).2 = some (s.wordMoved e dst a v u i) := by
  rw [State.writeWord_work ((hplace.mayStore _ _).trans hmay) hC]
  refine congrArg some ?_
  unfold State.wordMoved
  split
  · next hf => exact State.guardWrite_forced (by rwa [hplace.forceOn])
  · next hf =>
    have hnone : u.forceOn dst.area (wordIndex dst.area (Operand.plus dst i)) = none := by
      rw [hplace.forceOn]
      exact Option.not_isSome_iff_eq_none.mp hf
    split
    · next ho => rw [State.guardWrite_own hnone (by rwa [hplace.owner]), State.putWork_at ((hplace.wordAddr _ _ _).trans ha)]
    · next ho => exact State.guardWrite_foreign hnone (by rwa [hplace.owner])

/-! ## After the first words -/

theorem State.wordsMoved_engines : (s.wordsMoved e dst a v t k).engines = t.engines := by
  induction k with
  | zero => rfl
  | succ k ih => rw [State.wordsMoved_succ, State.wordMoved_engines, ih]

theorem State.placedAs_wordsMoved (h : s.placedAs t) : s.placedAs (s.wordsMoved e dst a v t k) := by
  induction k with
  | zero => exact h
  | succ k ih =>
    rw [State.wordsMoved_succ]
    exact ih.trans (State.placedAs_wordMoved ..)

/-- The words beside all that have been moved are as they were. -/
theorem State.wordsMoved_agree {p : Nat} (hp : ∀ j < k, a j + 4 ≤ p ∨ p + 4 ≤ a j) : agree t.square (s.wordsMoved e dst a v t k).square p p := by
  induction k with
  | zero => exact agree_refl p
  | succ k ih =>
    rw [State.wordsMoved_succ]
    exact (ih fun j hj => hp j (by omega)).trans (State.wordMoved_agree _ _ _ _ _ (hp k (by omega)))

/-- A word that landed stands where it landed, whatever is moved behind it. -/
theorem State.wordsMoved_stands {j : Nat} (hj : j < k) (hbehind : ∀ i < k, j < i → a j + 4 ≤ a i)
    (hf : s.forceOn dst.area (wordIndex dst.area (Operand.plus dst j)) = none)
    (ho : s.owner dst.area (wordIndex dst.area (Operand.plus dst j)) = some e) : (s.wordsMoved e dst a v t k).square.wordAt (a j) = v j := by
  induction k with
  | zero => cases hj
  | succ k ih =>
    rw [State.wordsMoved_succ]
    rcases Nat.lt_succ_iff_lt_or_eq.mp hj with hlt | rfl
    · obtain ⟨hword, hmark⟩ := (State.wordMoved_agree s (s.wordsMoved e dst a v t k) e dst v (a := a) (i := k) (p := a j)
        (.inr (hbehind k (by omega) hlt))).word
      rw [Square.wordAt, hword, hmark]
      exact ih hlt fun i hi => hbehind i (by omega)
    · exact State.wordMoved_lands _ hf ho

/-- At its turn, word `k` reads as the plan says. -/
theorem State.movePlan.readWord (h : s.movePlan e src dst a v n) (hplace : s.placedAs t) (hq : t.square = s.square) (hk : k < n) :
    (s.wordsMoved e dst a v t k).readWord e src.area (Operand.plus src k) = some (v k) := by
  have hat : s.placedAs (s.wordsMoved e dst a v t k) := State.placedAs_wordsMoved hplace
  obtain ⟨x, hx, hfirst⟩ := h.reads k hk
  by_cases hfrom : ∃ j < k, s.operandAddr e src.area (Operand.plus src k) = a j
  · obtain ⟨j, hj, heq⟩ := hfrom
    obtain ⟨-, hlow | hhigh | ⟨-, harea, hf, ho, hv⟩⟩ := h.apart k hk j hj
    · omega
    · omega
    · obtain ⟨hC, hmay, -⟩ := h.stores k hk
      have hin : inSquare src.area = true := by
        rw [harea]
        have hw : mayWriteWord dst.area (Operand.plus dst k) = true := (Bool.and_eq_true_iff.mp hmay).1
        revert hw hC
        cases dst.area <;> simp [inSquare, mayWriteWord]
      rw [hat.readWord_square hin hx, heq, hv]
      exact congrArg some (State.wordsMoved_stands hj (fun i hi hji => (h.apart i (by omega) j hji).1) hf ho)
  · have hne : ∀ j < k, s.operandAddr e src.area (Operand.plus src k) ≠ a j := fun j hj heq => hfrom ⟨j, hj, heq⟩
    rw [hfirst hne]
    refine hat.readWord_agree hx ?_
    rw [← hq]
    refine State.wordsMoved_agree fun j hj => ?_
    obtain ⟨-, hlow | hhigh | ⟨heq, -⟩⟩ := h.apart k hk j hj
    · exact .inr hlow
    · exact .inl hhigh
    · exact absurd heq (hne j hj)

/-- The words of the plan are moved one after another, and none stops the move. -/
theorem State.movePlan.moveWords (h : s.movePlan e src dst a v n) (hplace : s.placedAs t) (hq : t.square = s.square) (hquiet : s.quiet = true) {m : Nat} :
    m + k = n → (s.wordsMoved e dst a v t k).moveWords e src dst m k none = .ok (s.wordsMoved e dst a v t n, none) := by
  induction m generalizing k with
  | zero =>
    intro hmk
    rw [Nat.zero_add] at hmk
    rw [hmk, State.moveWords]
  | succ m ih =>
    intro hmk
    have hk : k < n := by omega
    have hat : s.placedAs (s.wordsMoved e dst a v t k) := State.placedAs_wordsMoved hplace
    obtain ⟨hC, hmay, ha⟩ := h.stores k hk
    rw [State.moveWords_step (hat.quiet.trans hquiet) (h.readWord hplace hq hk) (State.writeWord_wordMoved hat hC hmay ha), ← State.wordsMoved_succ]
    exact ih (by omega)

end

/-! ## BMOVE (R115, R128) -/

section

variable {s : State} {e : Fin 4} {src dst : Operand}

theorem State.blockFits_iff {k : Int} : s.blockFits src dst k = true ↔
    ¬ (k < 1 ∨ 4096 < k ∨ s.rangeInside src k.toNat = false ∨ s.rangeInside dst k.toNat = false) := by
  simp only [State.blockFits, Bool.and_eq_true, decide_eq_true_eq, not_or, Int.not_lt, Bool.not_eq_false, and_assoc]

/-- The module once BMOVE has been charged for its `n` words (R115; log 14). -/
def State.blockFetched (s : State) (e : Fin 4) (src dst : Operand) (n : Nat) : State :=
  s.charged (.bmove e src dst) e (n + Config.readLatency s.freeCount - 1)

theorem State.advance_blockFits (s : State) (e n c : Nat) (src dst : Operand) (k : Int) : (s.advance e n c).blockFits src dst k = s.blockFits src dst k :=
  rfl

section

variable (h : s.fallsThrough (.bmove e src dst) = true) (hp : (s.engine e).waP = false) (hr : mayReadWords src.area = true)
  (hw : mayWriteWords dst.area = true)
include h hp hr hw

/-- A count or a range that does not fit moves nothing. -/
theorem exec_bmove_overflows (hfits : s.blockFits src dst (sInt (s.engine e).wa) = false) :
    exec (.bmove e src dst) s = .next ((s.advance e 2 (s.clocksOf (.bmove e src dst) e 2)).modEngine e Engine.overflow) := by
  show execBmove e src dst s = _
  unfold execBmove
  refine State.issue_next _ _ _ rfl h ?_ rfl ?_ ?_
  · simp [hr, hw, hp, State.advance_blockFits, hfits]
    rfl
  · simp [Engine.overflow]
  · simp [Engine.overflow]
    rfl

/-- A move whose words all go through is the words' move. -/
theorem exec_bmove_moves (hm : (s.engine e).moved = none) (hfits : s.blockFits src dst (sInt (s.engine e).wa) = true) {u : State}
    (hu : (s.blockFetched e src dst (sInt (s.engine e).wa).toNat).moveWords e src dst (sInt (s.engine e).wa).toNat 0 none = .ok (u, none))
    (hmram : u.mram = s.mram) (hengines : u.engines = (s.blockFetched e src dst (sInt (s.engine e).wa).toNat).engines) :
    exec (.bmove e src dst) s = .next (u.modEngine e fun x => { x with moved := none }) := by
  show execBmove e src dst s = _
  unfold execBmove
  refine State.issue_moves rfl h hm ?_ hu (hmram.trans (State.placedAs_charged ..).mram.symm) hengines
  simp [hr, hw, hp, State.advance_blockFits, hfits]
  rfl

end

end

/-- Settles O15: a move that does not fit sets OVF and OVS; one that does is the words' move, by `State.movePlan.moveWords`. -/
theorem blockMoveResult : Obligations.BlockMoveResult := by
  intro s e src dst h hp hr hw k bad
  constructor
  · intro hbad
    exact exec_bmove_overflows h hp hr hw (Bool.eq_false_iff.mpr fun hfits => State.blockFits_iff.mp hfits hbad)
  · intro hbad hm a v word from_ hstores hreads hapart moved t
    have hplan : s.movePlan e src dst a v k.toNat := ⟨hstores, hreads, hapart⟩
    have hplace : s.placedAs (s.blockFetched e src dst k.toNat) := State.placedAs_charged ..
    have hwords := hplan.moveWords (k := 0) hplace (State.charged_square ..) (State.quiet_of_fallsThrough h) (Nat.add_zero _)
    exact exec_bmove_moves h hp hr hw hm (State.blockFits_iff.mpr hbad) hwords (State.placedAs_wordsMoved hplace).mram State.wordsMoved_engines

end Sys2Proof.Machine
end

/-! # What words spell

An instruction word keeps its opcode, its area and its offset in fields of their own, so each operand is read back from the words that it was put
into (R107, R108, R114). -/

section
namespace Sys2Proof.Machine
open Sys2Proof

/-- Settles O56: each word is decoded as it stands. -/
theorem workedWords : Obligations.WorkedWords := by
  unfold Obligations.WorkedWords
  decide

/-! ## The fields of a word (R12, R107) -/

section

variable {op area : Nat} {off : BitVec 20}

theorem insnWord_toNat (hop : op < 256) (harea : area < 16) : (insnWord op area off).toNat = op * 2 ^ 24 + area * 2 ^ 20 + off.toNat := by
  have hoff := off.isLt
  rw [insnWord, BitVec.toNat_ofNat, Nat.mod_eq_of_lt (by omega)]

theorem opcodeOf_insnWord (hop : op < 256) (harea : area < 16) : opcodeOf (insnWord op area off) = op := by
  have hoff := off.isLt
  rw [opcodeOf, bits, insnWord_toNat hop harea]
  omega

theorem areaField_insnWord (hop : op < 256) (harea : area < 16) : areaField (insnWord op area off) = areaOf area := by
  have hoff := off.isLt
  rw [areaField, bits, insnWord_toNat hop harea]
  congr 1
  omega

theorem offsetOf_insnWord (hop : op < 256) (harea : area < 16) : offsetOf (insnWord op area off) = off := by
  have hoff := off.isLt
  apply BitVec.eq_of_toNat_eq
  rw [offsetOf, bits, insnWord_toNat hop harea, BitVec.toNat_ofNat]
  omega

end

theorem areaNumber_lt (a : Area) : a.number < 16 := by cases a <;> decide

/-- The code of an area is read back as the area (R108). -/
@[simp] theorem areaOf_number (a : Area) : areaOf a.number = some a := by cases a <;> rfl

theorem bits_ofNat {n hi lo : Nat} (hn : n < 2 ^ 32) : bits (BitVec.ofNat 32 n) hi lo = n / 2 ^ lo % 2 ^ (hi + 1 - lo) := by
  rw [bits, BitVec.toNat_ofNat, Nat.mod_eq_of_lt hn]

/-- A field that is put at `lo` into the low bits of a word is read back. -/
theorem ofNat_bits {k n hi lo : Nat} {v : BitVec k} (hn : n < 2 ^ 32) (h : n / 2 ^ lo % 2 ^ (hi + 1 - lo) = v.toNat) :
    BitVec.ofNat k (bits (BitVec.ofNat 32 n) hi lo) = v := by
  rw [bits_ofNat hn, h, BitVec.ofNat_toNat, BitVec.setWidth_eq]

/-- MOVE and BMOVE name their two areas (R107). -/
theorem moveOperands_eq {w x : Word} {a b : Area} (ha : areaField w = some a) (hb : areaOf (bits x 23 20) = some b) :
    moveOperands w x = some (⟨a, offsetOf w, 0⟩, ⟨b, BitVec.ofNat 20 (bits x 19 0), 0⟩) := by
  simp only [moveOperands, ha, hb]

theorem moveOperands_reserved {w x : Word} (hb : areaOf (bits x 23 20) = none) : moveOperands w x = none := by
  cases ha : areaField w <;> simp only [moveOperands, ha, hb]

theorem bit_ofNat {n k : Nat} {b : Bool} (hn : n < 2 ^ 32) (h : n / 2 ^ k % 2 = b2n b) : bit (BitVec.ofNat 32 n) k = b := by
  rw [bit, BitVec.toNat_ofNat, Nat.mod_eq_of_lt hn, h]
  cases b <;> rfl

/-! ## Operands (R107, R109) -/

section

variable {op : Nat} (hop : op < 256)
include hop

theorem bitOperand_bitWords {o : Operand} (ho : o.bitOk = true) (x : Word) :
    bitOperand ((Sys2Proof.bitWords op o).getD 0 0) ((Sys2Proof.bitWords op o).getD 1 x) = some o := by
  obtain ⟨a, off, b⟩ := o
  have hb := b.isLt
  cases hw : wideArea a
  · obtain rfl : b = 0 := by simpa [Operand.bitOk, hw] using ho
    simp [Sys2Proof.bitWords, bitOperand, hw, areaField_insnWord hop (areaNumber_lt a), offsetOf_insnWord hop (areaNumber_lt a)]
  · have hbit : BitVec.ofNat 5 (bits (BitVec.ofNat 32 b.toNat) 4 0) = b := ofNat_bits (by omega) (by omega)
    simp only [Sys2Proof.bitWords, bitOperand, hw, if_true, List.getD_cons_zero, List.getD_cons_succ, areaField_insnWord hop (areaNumber_lt a),
      areaOf_number, offsetOf_insnWord hop (areaNumber_lt a), hbit, Option.map_some]

theorem wordOperand_insnWord {o : Operand} (ho : o.wordOk = true) : wordOperand (insnWord op o.area.number o.offset) = some o := by
  obtain ⟨a, off, b⟩ := o
  obtain rfl : b = 0 := by simpa [Operand.wordOk] using ho
  simp [wordOperand, areaField_insnWord hop (areaNumber_lt a), offsetOf_insnWord hop (areaNumber_lt a)]

theorem edgeOperand_edgeWords {o : EdgeOperand} (ho : o.op.bitOk = true) (x : Word) :
    edgeOperand ((edgeWords op o).getD 0 0) ((edgeWords op o).getD 1 x) = some o := by
  obtain ⟨⟨a, off, b⟩, edge⟩ := o
  have hb := b.isLt
  have hedge := edge.isLt
  have hedgeField : BitVec.ofNat 20 (bits (BitVec.ofNat 32 (b.toNat * 2 ^ 24 + edge.toNat)) 19 0) = edge := ofNat_bits (by omega) (by omega)
  have hbit : BitVec.ofNat 5 (bits (BitVec.ofNat 32 (b.toNat * 2 ^ 24 + edge.toNat)) 28 24) = b := ofNat_bits (by omega) (by omega)
  have hplain : wideArea a = false → b = 0 := fun hw => by simpa [Operand.bitOk, hw] using ho
  simp only [edgeWords, List.getD_cons_zero, List.getD_cons_succ, edgeOperand, areaField_insnWord hop (areaNumber_lt a), areaOf_number,
    offsetOf_insnWord hop (areaNumber_lt a), hedgeField, hbit, Option.map_some]
  cases hw : wideArea a
  · simp [hplain hw]
  · simp

theorem timerOperand_timerWords (o : TimerOperand) (x : Word) :
    timerOperand ((timerWords op o).getD 0 0) ((timerWords op o).getD 1 x) = some o := by
  obtain ⟨timer, res, retain, presetWa, preset⟩ := o
  have hres := res.isLt
  have hpreset := preset.isLt
  have hretain : b2n retain < 2 := by cases retain <;> decide
  have hpresetWa : b2n presetWa < 2 := by cases presetWa <;> decide
  simp only [timerWords, List.getD_cons_zero, List.getD_cons_succ, timerOperand, areaField_insnWord hop (areaNumber_lt .T), areaOf_number, if_true,
    offsetOf_insnWord hop (areaNumber_lt .T)]
  rw [ofNat_bits (v := res) (by omega) (by omega), ofNat_bits (v := preset) (by omega) (by omega), bit_ofNat (b := retain) (by omega) (by omega),
    bit_ofNat (b := presetWa) (by omega) (by omega)]

theorem moveOperands_moveWords {src dst : Operand} (hs : src.wordOk = true) (hd : dst.wordOk = true) (x : Word) :
    moveOperands ((moveWords op src dst).getD 0 0) ((moveWords op src dst).getD 1 x) = some (src, dst) := by
  obtain ⟨a, off, b⟩ := src
  obtain ⟨a', off', b'⟩ := dst
  obtain rfl : b = 0 := by simpa [Operand.wordOk] using hs
  obtain rfl : b' = 0 := by simpa [Operand.wordOk] using hd
  have ha' := areaNumber_lt a'
  have hoff' := off'.isLt
  have harea : areaOf (bits (BitVec.ofNat 32 (a'.number * 2 ^ 20 + off'.toNat)) 23 20) = some a' := by
    rw [bits_ofNat (by omega), ← areaOf_number a']
    exact congrArg areaOf (by omega)
  have hdst : BitVec.ofNat 20 (bits (BitVec.ofNat 32 (a'.number * 2 ^ 20 + off'.toNat)) 19 0) = off' := ofNat_bits (by omega) (by omega)
  have hsrc : offsetOf (insnWord op a.number off) = off := offsetOf_insnWord hop (areaNumber_lt a)
  refine (moveOperands_eq ((areaField_insnWord hop (areaNumber_lt a)).trans (areaOf_number a)) harea).trans (congrArg some ?_)
  exact Prod.ext (congrArg (Operand.mk a · 0) hsrc) (congrArg (Operand.mk a' · 0) hdst)

theorem numberOperand_insnWord (a : Area) (n : BitVec 20) : numberOperand a (insnWord op a.number n) = some n := by
  simp [numberOperand, areaField_insnWord hop (areaNumber_lt a), offsetOf_insnWord hop (areaNumber_lt a)]

theorem offset_insnWord (n : BitVec 20) : some (offsetOf (insnWord op Area.I.number n)) = some n := by
  rw [offsetOf_insnWord hop (areaNumber_lt .I)]

/-- An instruction whose opcode takes its operand by `g` comes back with the operand that its words hold. -/
theorem decodeEngine_operand {α : Type} {e : Fin 4} {x : Word} {a : Area} {off : BitVec 20} {f : α → Instr} {g : Word → Word → Option α} {v : α}
    (hg : g (insnWord op a.number off) x = some v)
    (hd : ∀ w : Word, opcodeOf w = op → decodeOpcode e w x = (g w x).map f) : decodeEngine e (insnWord op a.number off) x = some (f v) := by
  rw [decodeEngine, areaField_insnWord hop (areaNumber_lt a), areaOf_number, if_pos (Option.isSome_some),
    hd _ (opcodeOf_insnWord hop (areaNumber_lt a)), hg, Option.map_some]

end

/-- Settles O57: each operand is read back from the fields that it was put into; words without an operand are decoded as they stand. -/
theorem encodingRoundTrip : Obligations.EncodingRoundTrip := by
  intro i e ws x hi h
  cases i
  case nop | end_ | inv | cbset | cbclr | andOpen | andnOpen | orOpen | ornOpen | xorOpen | xornOpen | closeBracket | swap | add | sub | mul
      | div | rem | neg | eq_ | ne_ | gt_ | ge_ | lt_ | le_ | ret =>
    cases h
    rfl
  case ld | ldn | and_ | andn | or_ | orn | xor_ | xorn | out | setb | clrb =>
    cases h
    dsimp only [plain]
    exact decodeEngine_operand (g := bitOperand) (by decide) (bitOperand_bitWords (by decide) hi x) fun w hw => by rw [decodeOpcode, hw]; rfl
  case andr | andf | orr | orf =>
    cases h
    dsimp only [plain]
    exact decodeEngine_operand (g := edgeOperand) (by decide) (edgeOperand_edgeWords (by decide) hi x) fun w hw => by rw [decodeOpcode, hw]; rfl
  case ton | tof | tp =>
    cases h
    dsimp only [plain]
    exact decodeEngine_operand (g := timerOperand) (by decide) (timerOperand_timerWords (by decide) _ x) fun w hw => by rw [decodeOpcode, hw]; rfl
  case tclr | cup | cdn | cld | cclr | tot =>
    cases h
    dsimp only [plain]
    exact decodeEngine_operand (g := fun w _ => numberOperand _ w) (by decide) (numberOperand_insnWord (by decide) _ _) fun w hw => by
      rw [decodeOpcode, hw]; rfl
  case lw =>
    cases h
    exact decodeEngine_operand (f := fun o => .lw e o .clean) (g := fun w _ => wordOperand w) (by decide) (wordOperand_insnWord (by decide) hi)
      fun w hw => by rw [decodeOpcode, hw]; rfl
  case sw =>
    cases h
    exact decodeEngine_operand (f := fun o => .sw e o .clean) (g := fun w _ => wordOperand w) (by decide) (wordOperand_insnWord (by decide) hi)
      fun w hw => by rw [decodeOpcode, hw]; rfl
  case move _ src dst =>
    cases h
    obtain ⟨hs, hd⟩ := Bool.and_eq_true_iff.mp hi
    exact decodeEngine_operand (op := 0x43) (f := fun p => .move e p.1 p.2) (g := moveOperands) (v := (src, dst)) (by decide) (moveOperands_moveWords (by decide) hs hd x)
      fun w hw => by rw [decodeOpcode, hw]; rfl
  case bmove _ src dst =>
    cases h
    obtain ⟨hs, hd⟩ := Bool.and_eq_true_iff.mp hi
    exact decodeEngine_operand (op := 0x44) (f := fun p => .bmove e p.1 p.2) (g := moveOperands) (v := (src, dst)) (by decide) (moveOperands_moveWords (by decide) hs hd x)
      fun w hw => by rw [decodeOpcode, hw]; rfl
  case lwi =>
    cases h
    exact decodeEngine_operand (a := .I) (g := fun _ y => some y) (by decide) rfl fun w hw => by rw [decodeOpcode, hw]; rfl
  case jmp | jt | jf | jov | jovs | call | callt | sev =>
    cases h
    dsimp only [plain]
    exact decodeEngine_operand (a := .I) (g := fun w _ => some (offsetOf w)) (by decide) (offset_insnWord (by decide) _) fun w hw => by
      rw [decodeOpcode, hw]; rfl
  all_goals cases h

end Sys2Proof.Machine
end

/-! # Arithmetic, comparisons, bit logic and brackets

These instructions work on the registers of their engine, and a bit load on a bit that it reads besides (R111 to R118). Each is an operation on registers
that leaves the engine's block and PC alone, so it runs on to the next word. -/

section
namespace Sys2Proof.Machine
open Sys2Proof

/-! ## Operations on registers -/

/-- The operation leaves the place of its engine. -/
def keepsPlace (f : Engine → Engine) : Prop := ∀ x, (f x).block = x.block ∧ (f x).pc = x.pc

theorem keepsPlace_saturated (v : Engine → Int) (p : Engine → Bool) : keepsPlace fun x => saturated x (v x) (p x) := fun _ => ⟨rfl, rfl⟩

theorem keepsPlace_combined (op : Bool → Bool → Bool) (v p : Engine → Bool) : keepsPlace fun x => combined x op (v x) (p x) := fun _ => ⟨rfl, rfl⟩

theorem keepsPlace_ite {c : Engine → Prop} [DecidablePred c] {f g : Engine → Engine} (hf : keepsPlace f) (hg : keepsPlace g) :
    keepsPlace fun x => if c x then f x else g x := fun x => by
  dsimp only
  split
  · exact hf x
  · exact hg x

section

variable {s : State} {e : Fin 4} {i : Instr}

/-- An instruction of one word whose operation on the registers is `g`. -/
theorem State.issueRegs_operates {w : Word} {clk : Nat} {f : Engine → Engine} (g : Engine → Engine) (he : encodeEngine i = some (e, [w]))
    (h : s.fallsThrough i = true) (hfg : ∀ x, f x = g x) (hg : keepsPlace g) :
    s.issueRegs i clk f = .next ((s.advance e 1 (s.clocksOf i e clk)).modEngine e g) := by
  obtain rfl : f = g := funext hfg
  exact State.issueRegs_next (ws := [w]) clk f he h (fun x => (hg x).1) fun x => (hg x).2

/-- The module once the instruction `i` has read the bit `o` and worked with it on its engine's registers as `g` says (R115). -/
def State.bitRead (s : State) (i : Instr) (e : Fin 4) (o : Operand) (g : Engine → Engine) : State :=
  ((s.advance e (bitClocks o) (s.clocksOf i e (bitClocks o))).modEngine e g).loadBit e o.area (bitClocks o)

/-- A bit load whose operation on the registers, with the bit it reads, is `g`. -/
theorem exec_bitRead {op : Nat} {o : Operand} {v p : Bool} (f : Engine → Bool → Bool → Engine) {g : Engine → Engine}
    (hx : exec i s = s.issueBit i o f) (he : encodeEngine i = some (e, Sys2Proof.bitWords op o)) (hr : s.readBit e o = some (v, p))
    (h : s.fallsThrough i = true) (hfg : ∀ x, f x v p = g x) (hg : keepsPlace g) : exec i s = .next (s.bitRead i e o g) := by
  obtain rfl : (fun x => f x v p) = g := funext hfg
  exact hx.trans (State.issueBit_next f he hr h (fun x => (hg x).1) fun x => (hg x).2)

end

/-! ## Arithmetic (R116, R117) -/

/-- A value of the range is not saturated. -/
theorem sat32_of_mem {v : Int} (hlo : int32Min ≤ v) (hhi : v ≤ int32Max) : sat32 v = v := by
  rw [sat32, clampInt, if_neg (by omega), if_neg (by omega)]

theorem sInt_mem (w : Word) : int32Min ≤ sInt w ∧ sInt w ≤ int32Max := by
  have hlo := BitVec.le_toInt w
  have hhi := BitVec.toInt_lt (x := w)
  simp only [sInt, int32Min, int32Max]
  omega

/-- A remainder is no larger than the dividend, so that it never overflows. -/
theorem sat32_tmod (a b : Word) : sat32 (Int.tmod (sInt a) (sInt b)) = Int.tmod (sInt a) (sInt b) := by
  have ha := sInt_mem a
  have habs : (Int.tmod (sInt a) (sInt b)).natAbs ≤ (sInt a).natAbs := by
    rw [Int.natAbs_tmod]
    exact Nat.mod_le _ _
  rcases Int.le_total 0 (sInt a) with h | h
  · have := Int.tmod_nonneg (sInt b) h
    exact sat32_of_mem (by simp only [int32Min, int32Max] at *; omega) (by omega)
  · have := Int.tmod_nonneg (sInt b) (Int.neg_nonneg_of_nonpos h)
    rw [Int.neg_tmod] at this
    exact sat32_of_mem (by omega) (by simp only [int32Min, int32Max] at *; omega)

theorem Engine.binary_saturated (x : Engine) (f : Int → Int → Int) : x.binary f = saturated x (f (sInt x.wb) (sInt x.wa)) (x.waP || x.wbP) :=
  Engine.result_eq_saturated x _ _

theorem Engine.div_saturated (x : Engine) : x.div_ = if x.wa = 0 then
      x.divZero_ (if sInt x.wb = 0 then 0 else if 0 < sInt x.wb then 0x7FFFFFFF else 0x80000000)
    else saturated x (Int.tdiv (sInt x.wb) (sInt x.wa)) (x.waP || x.wbP) := by
  rw [Engine.div_, Engine.binary_saturated]

theorem Engine.rem_saturated (x : Engine) : x.rem_ = if x.wa = 0 then x.divZero_ 0
    else saturated x (Int.tmod (sInt x.wb) (sInt x.wa)) (x.waP || x.wbP) := by
  simp [Engine.rem_, saturated, sat32_tmod]

/-- Settles O6: each operation is the exact result, saturated, but for a division by zero. -/
theorem arithmeticSaturates : Obligations.ArithmeticSaturates := by
  intro s e
  refine ⟨fun h => ?add, fun h => ?sub, fun h => ?mul, fun h => ?neg, fun h => ?div, fun h => ?rem⟩
  case add => exact State.issueRegs_operates _ rfl h (fun x => x.binary_saturated _) (keepsPlace_saturated _ _)
  case sub => exact State.issueRegs_operates _ rfl h (fun x => x.binary_saturated _) (keepsPlace_saturated _ _)
  case mul => exact State.issueRegs_operates _ rfl h (fun x => x.binary_saturated _) (keepsPlace_saturated _ _)
  case neg => exact State.issueRegs_operates _ rfl h (fun x => x.result_eq_saturated _ _) (keepsPlace_saturated _ _)
  case div => exact State.issueRegs_operates _ rfl h Engine.div_saturated (keepsPlace_ite (fun _ => ⟨rfl, rfl⟩) (keepsPlace_saturated _ _))
  case rem => exact State.issueRegs_operates _ rfl h Engine.rem_saturated (keepsPlace_ite (fun _ => ⟨rfl, rfl⟩) (keepsPlace_saturated _ _))

/-! ## Comparisons (R118) -/

theorem Engine.compare_combined (x : Engine) (f : Int → Int → Bool) :
    x.compare_ f = combined x and (f (sInt x.wb) (sInt x.wa)) (x.waP || x.wbP) := x.combine_and _ _

/-- Settles O7: each comparison combines its truth into CB. -/
theorem comparisonResult : Obligations.ComparisonResult := by
  intro s e
  refine ⟨fun h => ?eq, fun h => ?ne, fun h => ?gt, fun h => ?ge, fun h => ?lt, fun h => ?le⟩
  case ne =>
    refine State.issueRegs_operates _ rfl h (fun x => ?_) (keepsPlace_combined _ _ _)
    rw [Engine.compare_combined, decide_not]
    rfl
  all_goals exact State.issueRegs_operates _ rfl h (fun x => x.compare_combined _) (keepsPlace_combined _ _ _)

/-! ## Bit logic (R111, R114) -/

/-- Settles O8: a bit is loaded, or combined with CB in an open chain; the others work on CB alone. -/
theorem bitLogicResult : Obligations.BitLogicResult := by
  intro s e
  refine ⟨?bits, fun h => ?nop, fun h => ?inv, fun h => ?set, fun h => ?clear⟩
  case bits =>
    intro o v p hr read
    refine ⟨fun h => ?ld, fun h => ?ldn, fun h => ?and, fun h => ?andn, fun h => ?or, fun h => ?orn, fun h => ?xor, fun h => ?xorn⟩
    case ld => exact exec_bitRead (fun x v p => x.load v p) rfl rfl hr h (fun _ => rfl) fun _ => ⟨rfl, rfl⟩
    case ldn => exact exec_bitRead (fun x v p => x.load (!v) p) rfl rfl hr h (fun _ => rfl) fun _ => ⟨rfl, rfl⟩
    case and => exact exec_bitRead (fun x v p => x.combine .and_ v p) rfl rfl hr h (fun x => x.combine_and _ _) (keepsPlace_combined _ _ _)
    case andn => exact exec_bitRead (fun x v p => x.combine .and_ (!v) p) rfl rfl hr h (fun x => x.combine_and _ _) (keepsPlace_combined _ _ _)
    case or => exact exec_bitRead (fun x v p => x.combine .or_ v p) rfl rfl hr h (fun x => x.combine_or _ _) (keepsPlace_combined _ _ _)
    case orn => exact exec_bitRead (fun x v p => x.combine .or_ (!v) p) rfl rfl hr h (fun x => x.combine_or _ _) (keepsPlace_combined _ _ _)
    case xor => exact exec_bitRead (fun x v p => x.combine .xor_ v p) rfl rfl hr h (fun x => x.combine_xor _ _) (keepsPlace_combined _ _ _)
    case xorn => exact exec_bitRead (fun x v p => x.combine .xor_ (!v) p) rfl rfl hr h (fun x => x.combine_xor _ _) (keepsPlace_combined _ _ _)
  case nop | inv | set | clear => exact State.issueRegs_operates _ rfl h (fun _ => rfl) fun _ => ⟨rfl, rfl⟩

/-! ## Brackets (R112, R135) -/

section

variable {s : State} {e : Fin 4} {i : Instr} {w : Word}

theorem State.issueOpen_pushes {op : NestOp} (he : encodeEngine i = some (e, [w])) (h : s.fallsThrough i = true)
    (hd : (s.engine e).nest.length < 16) :
    s.issueOpen i op = .next ((s.advance e 1 (s.clocksOf i e 1)).modEngine e fun x => x.openBracket op) := by
  unfold State.issueOpen
  refine State.issue_next _ _ _ he h ?_ rfl ?_ ?_
  · exact if_neg (by simpa using hd)
  · simp [Engine.openBracket]
  · simp [Engine.openBracket]

theorem State.issueOpen_overflows {op : NestOp} (he : encodeEngine i = some (e, [w])) (h : s.fallsThrough i = true)
    (hd : 16 ≤ (s.engine e).nest.length) : s.issueOpen i op = .next (s.programFault e 3 (s.pcOf e)) := by
  unfold State.issueOpen
  exact State.issue_faults he (State.issues_of_fallsThrough h) (if_pos (by simpa using hd))

theorem exec_closeBracket_underflows (h : s.fallsThrough (.closeBracket e) = true) (hn : (s.engine e).nest = []) :
    exec (.closeBracket e) s = .next (s.programFault e 4 (s.pcOf e)) := by
  show execCloseBracket e s = _
  unfold execCloseBracket
  refine State.issue_faults rfl (State.issues_of_fallsThrough h) ?_
  simp [hn]

theorem exec_closeBracket_pops {y : Nest} {l : List Nest} (h : s.fallsThrough (.closeBracket e) = true) (hn : (s.engine e).nest = y :: l) :
    exec (.closeBracket e) s =
      .next ((s.advance e 1 (s.clocksOf (.closeBracket e) e 1)).modEngine e fun x => x.closeBracket y l) := by
  show execCloseBracket e s = _
  unfold execCloseBracket
  refine State.issue_next (t := (s.advance e 1 (s.clocksOf (.closeBracket e) e 1)).modEngine e fun x => x.closeBracket y l) _ _ _ rfl h ?_ rfl ?_ ?_
  · simp [hn]
  · simp [Engine.closeBracket]
  · simp [Engine.closeBracket]

end

/-- Settles O10: a bracket is pushed or popped, or the stack is too full or empty. -/
theorem bracketResult : Obligations.BracketResult := by
  intro s e opened
  refine ⟨fun hd => ⟨fun h => ?_, fun h => ?_, fun h => ?_, fun h => ?_, fun h => ?_, fun h => ?_⟩, ?overflow, fun hn h => ?underflow,
    fun y l hn h => ?closed⟩
  case overflow =>
    intro hd i hi h
    obtain rfl | rfl | rfl | rfl | rfl | rfl := hi <;> exact State.issueOpen_overflows rfl h hd
  case underflow => exact exec_closeBracket_underflows h hn
  case closed =>
    rw [exec_closeBracket_pops h hn]
    obtain ⟨cb, cbP, op⟩ := y
    cases op <;> rfl
  all_goals exact State.issueOpen_pushes rfl h hd

end Sys2Proof.Machine
end

/-! # Edges

An edge instruction reads two bits, its operand and its edge bit, and writes one, the edge bit, which is a word of its engine's own (R101, R121). -/

section
namespace Sys2Proof.Machine
open Sys2Proof

section

variable {s : State} {e : Fin 4}

/-- Where no error stands, a bit is taken as it reads (R341). -/
theorem State.takeBit_quiet {o : Operand} {v p : Bool} (hq : s.quiet = true) (hr : s.readBit e o = some (v, p)) : s.takeBit e o = some (s, v, p) := by
  simp only [State.takeBit, State.judgeRead_quiet hq, hr, Option.map_some, Bool.or_false, ite_self]

/-- An edge bit of the engine's own, on which no force stands, is written (R85, R97). -/
theorem State.writeEdge_lands {n a : Nat} (ha : s.wordAddr .work .E (n / 32) = some a) (hf : s.forceOn .E (n / 32) = none)
    (ho : s.owner .E (n / 32) = some e) (v p : Bool) : s.writeEdge e n v p = s.withSquare (s.square.putBit a (n % 32) v p) := by
  rw [State.writeEdge, State.guardWrite_own hf ho]
  simp only [State.putWorkBit, ha, State.withSquare]

/-- An instruction that posts its store at last is where its engine was before. -/
theorem State.inBlock_stored {t u : State} (hm : u.mram = t.mram) (hb : (u.engine e).block = (t.engine e).block) (hp : (u.engine e).pc = (t.engine e).pc)
    (ht : t.inBlock e (t.pcOf e) = true) : (u.posted e).inBlock e ((u.posted e).pcOf e) = true := by
  rw [State.inBlock_posted, State.inBlock_of_place hm hb hp, ht]

/-- The operand of an edge instruction reads as `v` with its mark `p`, and its edge bit as `old` with `oldP`; the edge bit stands in the word at `a`,
which is the engine's own and bears no force. -/
structure State.edgeStands (s : State) (e : Fin 4) (o : EdgeOperand) (a : Nat) (v p old oldP : Bool) : Prop where
  reads : s.readBit e o.op = some (v, p)
  held : s.readBit e ⟨.E, o.edge, 0⟩ = some (old, oldP)
  addr : s.wordAddr .work .E (o.edge.toNat / 32) = some a
  free : s.forceOn .E (o.edge.toNat / 32) = none
  own : s.owner .E (o.edge.toNat / 32) = some e

/-- The module once an edge instruction has read its bits and worked with them on its engine's registers as `g` says. -/
def State.edgeRead (s : State) (i : Instr) (e : Fin 4) (o : EdgeOperand) (g : Engine → Engine) : State :=
  ((s.advance e 2 (s.clocksOf i e 2)).modEngine e g).loadBit e o.op.area 2

theorem State.edgeRead_place {i : Instr} {o : EdgeOperand} {g : Engine → Engine} (hg : keepsPlace g) :
    ((s.edgeRead i e o g).engine e).block = ((s.advance e 2 (s.clocksOf i e 2)).engine e).block ∧
      ((s.edgeRead i e o g).engine e).pc = ((s.advance e 2 (s.clocksOf i e 2)).engine e).pc := by
  obtain ⟨b, hb⟩ := ((s.advance e 2 (s.clocksOf i e 2)).modEngine e g).loadBit_engine e o.op.area 2
  rw [State.edgeRead, hb, State.modEngine_same]
  exact hg _

variable {i : Instr} {o : EdgeOperand} {a : Nat} {v p old oldP : Bool}

/-- The edge bit of `s` is written in the state in which the bits have been read. -/
theorem State.edgeStands.writeEdge (hs : s.edgeStands e o a v p old oldP) (g : Engine → Engine) :
    (s.edgeRead i e o g).writeEdge e o.edge.toNat v p = (s.edgeRead i e o g).withSquare (s.square.putBit a (o.edge.toNat % 32) v p) := by
  have hm : (s.edgeRead i e o g).mram = s.mram := State.loadBit_mram ..
  have hq : (s.edgeRead i e o g).square = s.square := State.loadBit_square ..
  rw [State.writeEdge_lands (by rw [State.wordAddr_congr hm hq, hs.addr]) (by rw [State.forceOn_congr hm, hs.free])
    (by rw [State.owner_congr hm, hs.own]), hq]

/-- An edge instruction combines the edge that it sees, but for a cycle that preloads its edge bit, and writes the bit to its edge bit. -/
theorem exec_edge (k : EdgeKind) (op : BitOp) {c : Nat} {g : Engine → Engine} (hx : exec i s = s.issueEdge i o k op)
    (he : encodeEngine i = some (e, edgeWords c o)) (hs : s.edgeStands e o a v p old oldP) (h : s.fallsThrough i = true)
    (hfg : ∀ x : Engine, x.combine op (!s.preloads o.edge.toNat && k.seen v old) (p || oldP) = g x) (hg : keepsPlace g) :
    exec i s = .next (((s.edgeRead i e o g).withSquare (s.square.putBit a (o.edge.toNat % 32) v p)).posted e) := by
  obtain rfl : (fun x : Engine => x.combine op (!s.preloads o.edge.toNat && k.seen v old) (p || oldP)) = g := funext hfg
  let t := s.advance e 2 (s.clocksOf i e 2)
  have htake : t.takeBit e o.op = some (t, v, p) :=
    State.takeBit_quiet (State.quiet_of_fallsThrough (s := s) h) ((State.readBit_congr (s := s) rfl rfl rfl rfl _ _).trans hs.reads)
  have hheld : t.readBit e ⟨.E, o.edge, 0⟩ = some (old, oldP) := (State.readBit_congr (s := s) rfl rfl rfl rfl _ _).trans hs.held
  obtain ⟨hblock, hpc⟩ := State.edgeRead_place (s := s) (e := e) (i := i) (o := o) hg
  rw [← hs.writeEdge]
  refine hx.trans (State.issue_arrives he (State.issues_of_fallsThrough h) ?_ ?_)
  · show allowed (t.takeBit e o.op) _ = _
    simp only [htake, allowed, hheld]
    rfl
  · rw [hs.writeEdge]
    exact State.inBlock_stored (t := t) (State.loadBit_mram ..) hblock hpc (State.inBlock_advanced he h rfl _)

end

/-- Settles O11: each of the four sees its edge and combines it. -/
theorem edgeResult : Obligations.EdgeResult := by
  intro s e o a v p old oldP hr hold ha hf ho n rise fall done
  have hs : s.edgeStands e o a v p old oldP := ⟨hr, hold, ha, hf, ho⟩
  refine ⟨fun h => ?_, fun h => ?_, fun h => ?_, fun h => ?_⟩
  · exact exec_edge .rising .and_ rfl rfl hs h (fun x => x.combine_and _ _) (keepsPlace_combined _ _ _)
  · exact exec_edge .falling .and_ rfl rfl hs h (fun x => x.combine_and _ _) (keepsPlace_combined _ _ _)
  · exact exec_edge .rising .or_ rfl rfl hs h (fun x => x.combine_or _ _) (keepsPlace_combined _ _ _)
  · exact exec_edge .falling .or_ rfl rfl hs h (fun x => x.combine_or _ _) (keepsPlace_combined _ _ _)

end Sys2Proof.Machine
end

/-! # Timers and counters

A timer or counter instruction works on one unit of its engine's own, or only marks it where its input is poisoned, and ends the chain (R123, R126,
R132). -/

section
namespace Sys2Proof.Machine
open Sys2Proof

/-- An instruction that leaves its engine where the fetch has put it runs to the state its meaning gives. -/
theorem State.issue_stays {s t : State} {i : Instr} {e : Fin 4} {ws : List Word} {clk k : Nat} {run : Nat → Nat → State → Except Nat State}
    {touch : Nat → State → List Touch} (he : encodeEngine i = some (e, ws)) (hk : ws.length = k) (h : s.fallsThrough i = true)
    (hr : run e (s.pcOf e) (s.advance e k (s.clocksOf i e clk)) = .ok t)
    (hin : t.inBlock e (t.pcOf e) = (s.advance e k (s.clocksOf i e clk)).inBlock e ((s.advance e k (s.clocksOf i e clk)).pcOf e)) :
    s.issue i clk run touch = .next t := by
  subst hk
  exact State.issue_arrives he (State.issues_of_fallsThrough h) hr (hin.trans (State.inBlock_advanced he h rfl _))

/-! ## Timers (R123) -/

section

variable {s : State} {e : Fin 4} {n : Nat}

/-- What a timer instruction leaves: another timer, and a chain that has ended. -/
def State.timerSet (s : State) (i : Instr) (e : Fin 4) (k n : Nat) (y : Timer) : State :=
  ((s.advance e k (s.clocksOf i e k)).setTimer n y).modEngine e Engine.chain

/-- Timer `n` is the engine's own, and no force stands on it. -/
def State.ownsTimer (s : State) (e : Fin 4) (n : Nat) : Prop := n < 4096 ∧ s.forceOn .T (4 * n) = none ∧ s.owner .T (4 * n) = some e

variable {i : Instr} {ws : List Word} {k : Nat} (p : Engine → Bool) (f : Engine → State → Timer → Timer)

/-- A timer instruction of `k` words and clocks leaves what `State.issueTimer` makes of its timer. -/
theorem exec_timer (hx : exec i s = s.issueTimer i k n p f) (he : encodeEngine i = some (e, ws)) (hk : ws.length = k) (hown : s.ownsTimer e n)
    (h : s.fallsThrough i = true) :
    let t := s.advance e k (s.clocksOf i e k)
    exec i s = .next (s.timerSet i e k n
      (if p (t.engine e) then { s.timer n with poisoned := true, elapsedP := true } else f (t.engine e) t (s.timer n))) := by
  intro t
  obtain ⟨hn, hf, ho⟩ := hown
  have hguard := State.guardWrite_own (s := t) (a := .T) (w := 4 * n) (f := fun s => s.modTimer n fun y =>
    if p (t.engine e) then { y with poisoned := true, elapsedP := true } else f (t.engine e) s y) hf ho
  refine hx.trans (State.issue_stays he hk h ?_ (State.inBlock_registers (f := Engine.chain) rfl rfl))
  rw [if_neg (Nat.not_le_of_gt hn)]
  exact congrArg (fun u : State => Except.ok (u.modEngine e Engine.chain)) hguard

/-- With a clean input the timer is worked on. -/
theorem exec_timer_clean {y : Timer} (hx : exec i s = s.issueTimer i k n p f) (he : encodeEngine i = some (e, ws)) (hk : ws.length = k)
    (hown : s.ownsTimer e n) (h : s.fallsThrough i = true) (hp : p ((s.advance e k (s.clocksOf i e k)).engine e) = false)
    (hy : f ((s.advance e k (s.clocksOf i e k)).engine e) (s.advance e k (s.clocksOf i e k)) (s.timer n) = y) :
    exec i s = .next (s.timerSet i e k n y) := by
  rw [exec_timer p f hx he hk hown h, hp, if_neg Bool.false_ne_true, hy]

/-- With a poisoned input it is marked and nothing else (R132). -/
theorem exec_timer_poisoned (hx : exec i s = s.issueTimer i k n p f) (he : encodeEngine i = some (e, ws)) (hk : ws.length = k)
    (hown : s.ownsTimer e n) (h : s.fallsThrough i = true) (hp : p ((s.advance e k (s.clocksOf i e k)).engine e) = true) :
    exec i s = .next (s.timerSet i e k n { s.timer n with poisoned := true, elapsedP := true }) := by
  rw [exec_timer p f hx he hk hown h, hp, if_pos rfl]

end

/-- An instruction on TON's kind may make OUTPUT rise, and no other change counts as elapsing (R149). -/
theorem Timer.turned_rises {old new : Timer} (hk : new.kind = 1) (f : Nat) :
    old.turned new f = if !old.outputAt f && new.outputAt f then { new with lapsed := some f } else new := by
  rw [Timer.turned, if_pos hk]

theorem Timer.turned_falls {old new : Timer} (hk : new.kind ≠ 1) (f : Nat) :
    old.turned new f = if old.outputAt f && !new.outputAt f then { new with lapsed := some f } else new := by
  rw [Timer.turned, if_neg hk]

theorem Timer.ton_kind (y : Timer) (x : Bool) (f : Nat) (c : BitVec 32) : (y.ton x f c).kind = y.kind := by
  unfold Timer.ton
  dsimp only
  (repeat' split) <;> rfl

theorem Timer.tof_kind (y : Timer) (x : Bool) (f : Nat) (c : BitVec 32) : (y.tof x f c).kind = y.kind := by
  unfold Timer.tof
  dsimp only
  (repeat' split) <;> rfl

theorem Timer.tp_kind (y : Timer) (x : Bool) (f : Nat) (c : BitVec 32) : (y.tp x f c).kind = y.kind := by
  unfold Timer.tp
  dsimp only
  (repeat' split) <;> rfl

section

variable {s : State} {e : Fin 4} {o : TimerOperand}

@[simp] theorem timerPoison_advance (s : State) (e k c : Nat) (o : TimerOperand) :
    timerPoison o ((s.advance e k c).engine e) = timerPoison o (s.engine e) := by
  rw [State.advance_engine]
  rfl

/-- What TON makes of its timer (R123). -/
def tonTurns (o : TimerOperand) (x : Engine) (s : State) (t : Timer) : Timer :=
  t.turned ((t.configure 1 o x.wa).ton x.cb s.freezeInstant s.square.current) s.freezeInstant
/-- What TOF makes of its timer (R123). -/
def tofTurns (o : TimerOperand) (x : Engine) (s : State) (t : Timer) : Timer :=
  t.turned ((t.configure 2 o x.wa).tof x.cb s.freezeInstant s.square.current) s.freezeInstant
/-- What TP makes of its timer (R123). -/
def tpTurns (o : TimerOperand) (x : Engine) (s : State) (t : Timer) : Timer :=
  t.turned ((t.configure 3 o x.wa).tp x.cb s.freezeInstant s.square.current) s.freezeInstant

theorem exec_ton_eq : exec (.ton e o) s = s.issueTimer (.ton e o) 2 o.timer.toNat (timerPoison o) (tonTurns o) := rfl
theorem exec_tof_eq : exec (.tof e o) s = s.issueTimer (.tof e o) 2 o.timer.toNat (timerPoison o) (tofTurns o) := rfl
theorem exec_tp_eq : exec (.tp e o) s = s.issueTimer (.tp e o) 2 o.timer.toNat (timerPoison o) (tpTurns o) := rfl

theorem exec_tclr_eq {n : BitVec 20} : exec (.tclr e n) s = s.issueTimer (.tclr e n) 1 n.toNat (fun x => x.cbP) fun x _ t =>
  { (if x.cb then t.clear else t) with poisoned := false, elapsedP := false } := rfl

end

/-- Settles O12: the timer is configured and turned, or cleared. -/
theorem timerResult : Obligations.TimerResult := by
  intro s e n hn hf ho hp f c x y done
  have hown : s.ownsTimer e n := ⟨hn, hf, ho⟩
  refine ⟨fun o hon hw => ?sets, fun k hkn h => ?clears⟩
  case sets =>
    have hclean : timerPoison o (s.engine e) = false := by
      cases hpw : o.presetWa
      · simp [timerPoison, hp, hpw]
      · simpa [timerPoison, hp, hpw] using hw hpw
    subst hon
    intro z reached rises falls
    refine ⟨fun h => ?ton, fun h => ?tof, fun h => ?tp⟩
    case ton =>
      refine exec_timer_clean _ _ exec_ton_eq rfl rfl hown h (by rw [timerPoison_advance, hclean]) ?_
      rw [State.advance_engine, tonTurns, Timer.turned_rises (Timer.ton_kind _ _ _ _)]
      rfl
    case tof =>
      refine exec_timer_clean _ _ exec_tof_eq rfl rfl hown h (by rw [timerPoison_advance, hclean]) ?_
      rw [State.advance_engine, tofTurns, Timer.turned_falls (by rw [Timer.tof_kind]; exact (by decide : (2 : BitVec 2) ≠ 1))]
      rfl
    case tp =>
      refine exec_timer_clean _ _ exec_tp_eq rfl rfl hown h (by rw [timerPoison_advance, hclean]) ?_
      rw [State.advance_engine, tpTurns, Timer.turned_falls (by rw [Timer.tp_kind]; exact (by decide : (3 : BitVec 2) ≠ 1))]
      rfl
  case clears =>
    subst hkn
    refine exec_timer_clean _ _ exec_tclr_eq rfl rfl hown h (by rw [State.advance_engine, hp]) ?_
    rw [State.advance_engine]
    dsimp only [x, y]
    split <;> rfl

/-! ## Counters (R126, R127) -/

section

variable {s : State} {e : Fin 4} {n : Nat}

/-- What a counter instruction leaves: another counter, OVF and OVS where it has met a limit, and a chain that has ended. -/
def State.counterSet (s : State) (i : Instr) (e : Fin 4) (n : Nat) (c : Counter) (limit : Bool) : State :=
  (((s.advance e 1 (s.clocksOf i e 1)).setCounter n c).modEngine e fun x => if limit then x.overflow else x).modEngine e Engine.chain

/-- Counter `n` is the engine's own, and no force stands on it. -/
def State.ownsCounter (s : State) (e : Fin 4) (n : Nat) : Prop := n < 4096 ∧ s.forceOn .C (2 * n) = none ∧ s.owner .C (2 * n) = some e

variable {i : Instr} {w : Word} (p : Engine → Bool) (f : Engine → Counter → Counter × Bool)

/-- With a clean input the counter is worked on. -/
theorem exec_counter_clean {c : Counter} {limit : Bool} (hx : exec i s = s.issueCounter i n p f) (he : encodeEngine i = some (e, [w]))
    (hown : s.ownsCounter e n) (h : s.fallsThrough i = true) (hp : p ((s.advance e 1 (s.clocksOf i e 1)).engine e) = false)
    (hc : f ((s.advance e 1 (s.clocksOf i e 1)).engine e) (s.counter n) = (c, limit)) :
    exec i s = .next (s.counterSet i e n c limit) := by
  obtain ⟨hn, hf, ho⟩ := hown
  let t := s.advance e 1 (s.clocksOf i e 1)
  have hplace : (s.counterSet i e n c limit).inBlock e ((s.counterSet i e n c limit).pcOf e) = t.inBlock e (t.pcOf e) :=
    (State.inBlock_registers (f := Engine.chain) rfl rfl).trans
      (State.inBlock_registers (f := fun x => if limit then x.overflow else x) (by cases limit <;> rfl) (by cases limit <;> rfl))
  refine hx.trans (State.issue_stays (k := 1) he rfl h ?_ hplace)
  rw [if_neg (Nat.not_le_of_gt hn)]
  refine congrArg (fun u : State => Except.ok (u.modEngine e Engine.chain)) ((State.guardWrite_own (s := t) hf ho).trans ?_)
  rw [hp, if_neg Bool.false_ne_true]
  exact congrArg (fun r : Counter × Bool => (t.setCounter n r.1).modEngine e fun x => if r.2 then x.overflow else x) hc

/-- With a poisoned input it is marked and nothing else (R132). -/
theorem exec_counter_poisoned (hx : exec i s = s.issueCounter i n p f) (he : encodeEngine i = some (e, [w])) (hown : s.ownsCounter e n)
    (h : s.fallsThrough i = true) (hp : p ((s.advance e 1 (s.clocksOf i e 1)).engine e) = true) :
    exec i s = .next (((s.advance e 1 (s.clocksOf i e 1)).setCounter n { s.counter n with poisoned := true }).modEngine e Engine.chain) := by
  obtain ⟨hn, hf, ho⟩ := hown
  let t := s.advance e 1 (s.clocksOf i e 1)
  refine hx.trans (State.issue_stays (k := 1) he rfl h ?_ (State.inBlock_registers (f := Engine.chain) rfl rfl))
  rw [if_neg (Nat.not_le_of_gt hn)]
  refine congrArg (fun u : State => Except.ok (u.modEngine e Engine.chain)) ((State.guardWrite_own (s := t) hf ho).trans ?_)
  exact if_pos hp

end

/-- A count on an edge stops at the limits of a signed word (R126). -/
theorem Counter.count_onEdge (c : Counter) (edge : Bool) (d : Int) : (if edge then c.count d else (c, false)) =
    (if !edge then c else if sInt c.value + d < int32Min ∨ int32Max < sInt c.value + d then { c with saturated := true }
      else { c with value := ofI (sInt c.value + d) },
    edge && decide (sInt c.value + d < int32Min ∨ int32Max < sInt c.value + d)) := by
  cases edge
  · rfl
  · by_cases h : sInt c.value + d < int32Min ∨ int32Max < sInt c.value + d <;> simp [Counter.count, h]

section

variable {s : State} {e : Fin 4} {n : BitVec 20}

/-- What CUP makes of its counter, and whether that met a limit (R126). -/
def cupCounts (x : Engine) (c : Counter) : Counter × Bool :=
  let r := if x.cb && !c.upMem then c.count 1 else (c, false)
  ({ r.1 with upMem := x.cb }, r.2)
/-- What CDN makes of its counter, and whether that met a limit (R126). -/
def cdnCounts (x : Engine) (c : Counter) : Counter × Bool :=
  let r := if x.cb && !c.downMem then c.count (-1) else (c, false)
  ({ r.1 with downMem := x.cb }, r.2)
/-- What CLD makes of its counter (R127). -/
def cldCounts (x : Engine) (c : Counter) : Counter × Bool :=
  (if x.cb then { c with value := x.wa, saturated := false, poisoned := false } else c, false)
/-- What CCLR makes of its counter (R127). -/
def cclrCounts (x : Engine) (c : Counter) : Counter × Bool :=
  (if x.cb then { c with value := 0, saturated := false, poisoned := false } else c, false)

theorem exec_cup_eq : exec (.cup e n) s = s.issueCounter (.cup e n) n.toNat (fun x => x.cbP) cupCounts := rfl
theorem exec_cdn_eq : exec (.cdn e n) s = s.issueCounter (.cdn e n) n.toNat (fun x => x.cbP) cdnCounts := rfl
theorem exec_cld_eq : exec (.cld e n) s = s.issueCounter (.cld e n) n.toNat (fun x => x.cbP || (x.cb && x.waP)) cldCounts := rfl
theorem exec_cclr_eq : exec (.cclr e n) s = s.issueCounter (.cclr e n) n.toNat (fun x => x.cbP) cclrCounts := rfl

end

/-- Settles O13: the counter counts on an edge, or is loaded or cleared. -/
theorem counterResult : Obligations.CounterResult := by
  intro s e n hn hf ho hp x y step stop done up down
  have hown : s.ownsCounter e n.toNat := ⟨hn, hf, ho⟩
  refine ⟨fun h => ?up, fun h => ?down, fun h hw => ?load, fun h => ?clear⟩
  case up =>
    refine exec_counter_clean _ _ exec_cup_eq rfl hown h (by rw [State.advance_engine, hp]) ?_
    rw [State.advance_engine, cupCounts, Counter.count_onEdge]
  case down =>
    refine exec_counter_clean _ _ exec_cdn_eq rfl hown h (by rw [State.advance_engine, hp]) ?_
    rw [State.advance_engine, cdnCounts, Counter.count_onEdge]
  case load =>
    refine exec_counter_clean _ _ exec_cld_eq rfl hown h ?_ (by rw [State.advance_engine]; rfl)
    have hload : (x.cbP || (x.cb && x.waP)) = false := by
      cases hcb : x.cb
      · simpa using hp
      · simpa [hw hcb] using hp
    rw [State.advance_engine]
    exact hload
  case clear =>
    exact exec_counter_clean _ _ exec_cclr_eq rfl hown h (by rw [State.advance_engine, hp]) (by rw [State.advance_engine]; rfl)

end Sys2Proof.Machine
end

/-! # A jump past the program memory

A block may be as long as its image says, and one that begins behind address 0 and is 2^18 words long holds the address 2^18. A jump to it lies inside
the block, and still the PC, which has 18 bits, goes to address 0 and leaves the block, which is a program fault. -/

section
namespace Sys2Proof.Machine
open Sys2Proof

/-- A module in execute whose engine 0 stands at JMP 2^18, the first word of a block of 2^18 words from address 5 on. -/
def beforeLongJump : State :=
  { service := .full, square := { phase := .execute, prog := .run, current := 9, freezeAt := 1000000 }
    mram := { banks := [(0, { state := .running, words := 262144, code := [(5, 0x60040000)]
                              desc := { blocks := [{ number := 0, engine := 0, event := none, first := 5, length := 262144 }] } })] }
    engines := [(0, { running := true, block := 0, pc := 5 })] }

set_option maxRecDepth 100000 in
theorem beforeLongJump_issues : beforeLongJump.inBlock 0 (0x40000 : BitVec 20).toNat = true ∧ beforeLongJump.issues (.jmp 0 0x40000) = true := by decide

set_option maxRecDepth 100000 in
theorem exec_longJump_faults : ∃ t, exec (.jmp 0 0x40000) beforeLongJump = .next t ∧ (t.engine 0).programFaults = 1 := ⟨_, rfl, by decide⟩

/-- Refutes O16: JMP to the address 2^18, which the block holds, goes to address 0, which it does not. -/
theorem not_jumpResult : ¬ Obligations.JumpResult := by
  unfold Obligations.JumpResult
  intro h
  obtain ⟨hin, hissues⟩ := beforeLongJump_issues
  obtain ⟨t, ht, hfault⟩ := exec_longJump_faults
  obtain ⟨hinside, -⟩ := h beforeLongJump 0 0x40000
  obtain ⟨hjmp, -⟩ := hinside hin
  have hgo := Host.Outcome.next.inj (ht.symm.trans (hjmp hissues))
  have hclean : (t.engine 0).programFaults = 0 := by
    rw [hgo]
    rfl
  simp [hfault] at hclean

end Sys2Proof.Machine
end

/-! # Totals, sources and reserved words

TOT and SEV end the chain and then work, with CB = 1, on what the program shares with the module: an increment that commits with the cycle (R129), a
firing of the Roundabout (R130). A word that spells no instruction is a program fault of its KIND (R114, R135). -/

section
namespace Sys2Proof.Machine
open Sys2Proof

/-- The module once the instruction `i` of one word has been fetched and has ended its chain. -/
def State.chained (s : State) (i : Instr) (e : Fin 4) (clk : Nat) : State := (s.advance e 1 (s.clocksOf i e clk)).modEngine e Engine.chain

theorem State.inBlock_chained (s : State) (i : Instr) (e : Fin 4) (clk : Nat) : (s.chained i e clk).inBlock e ((s.chained i e clk).pcOf e) =
    (s.advance e 1 (s.clocksOf i e clk)).inBlock e ((s.advance e 1 (s.clocksOf i e clk)).pcOf e) := State.inBlock_registers rfl rfl

theorem State.inBlock_consumePoison (s : State) (e a : Nat) : (s.consumePoison e a).inBlock e ((s.consumePoison e a).pcOf e) = s.inBlock e (s.pcOf e) := by
  rw [State.consumePoison, State.inBlock_of_rest (State.raiseFrom_rest ..)]
  exact State.inBlock_registers rfl rfl

/-! ## Totals (R129, R132) -/

/-- A word of the engine's own is no other engine's. -/
theorem State.owner_own {s : State} {e : Fin 4} {a : Area} {w : Nat} (ho : s.owner a w = some e) :
    ¬ ((s.owner a w).map (·.val) != some e.val) = true := by
  simp [ho]

section

variable {s : State} {e : Fin 4} {t : BitVec 20} (ht : t.toNat < 64) (h : s.fallsThrough (.tot e t) = true)
include ht h

/-- With CB = 0 TOT ends the chain and no more. -/
theorem exec_tot_skips (hp : (s.engine e).cbP = false) (hcb : (s.engine e).cb = false) :
    exec (.tot e t) s = .next (s.chained (.tot e t) e 2) := by
  show execTot e t s = _
  unfold execTot
  refine State.issue_stays (k := 1) rfl rfl h ?_ (State.inBlock_chained ..)
  simp [Nat.not_le_of_gt ht, hp, hcb, State.chained]

/-- A poisoned input is not added (R132). -/
theorem exec_tot_poisoned (hq : ((s.engine e).cbP || ((s.engine e).cb && (s.engine e).waP)) = true) :
    exec (.tot e t) s = .next (((s.chained (.tot e t) e 2).raiseFrom e .totRefused (totRefusedValue 1 t.toNat)).consumePoison e (s.pcOf e)) := by
  show execTot e t s = _
  unfold execTot
  refine State.issue_stays (k := 1) rfl rfl h ?_ ?_
  · dsimp only
    rw [if_neg (Nat.not_le_of_gt ht), if_pos (by simpa using hq)]
    rfl
  · rw [State.inBlock_consumePoison, State.inBlock_of_rest (State.raiseFrom_rest ..), State.inBlock_chained]

section

variable (hp : (s.engine e).cbP = false) (hcb : (s.engine e).cb = true) (hwa : (s.engine e).waP = false)
  (ho : s.owner .Z (2 * t.toNat) = some e)
include hp hcb hwa ho

/-- An increment that the total can take is added to what the cycle has counted so far. -/
theorem exec_tot_adds
    (hr : inRange64 ((s.total t.toNat).value + s.square.totIncr.get 0 t.toNat + sInt (s.engine e).wa) = true) :
    exec (.tot e t) s = .next ((s.chained (.tot e t) e 2).withSquare { s.square with
      totIncr := s.square.totIncr.set 0 t.toNat (s.square.totIncr.get 0 t.toNat + sInt (s.engine e).wa) }) := by
  show execTot e t s = _
  unfold execTot
  refine State.issue_stays (k := 1) rfl rfl h ?_ (State.inBlock_chained s (.tot e t) e 2)
  have hforeign := State.owner_own (s := s.chained (.tot e t) e 2) ho
  dsimp only
  rw [if_neg (Nat.not_le_of_gt ht), if_neg (by simp [hp, hwa]), if_neg (by simp [hcb])]
  refine (if_neg hforeign).trans ?_
  rw [State.advance_engine]
  exact if_pos hr

/-- Beyond 64 bits it is refused. -/
theorem exec_tot_overflows
    (hr : inRange64 ((s.total t.toNat).value + s.square.totIncr.get 0 t.toNat + sInt (s.engine e).wa) = false) :
    exec (.tot e t) s = .next (((s.chained (.tot e t) e 2).raiseFrom e .totRefused (totRefusedValue 2 t.toNat)).modEngine e Engine.overflow) := by
  show execTot e t s = _
  unfold execTot
  have hforeign := State.owner_own (s := s.chained (.tot e t) e 2) ho
  refine State.issue_stays (k := 1) rfl rfl h ?_ ?_
  · dsimp only
    rw [if_neg (Nat.not_le_of_gt ht), if_neg (by simp [hp, hwa]), if_neg (by simp [hcb])]
    refine (if_neg hforeign).trans ?_
    rw [State.advance_engine]
    exact if_neg (Bool.eq_false_iff.mp hr)
  · rw [State.inBlock_registers rfl rfl, State.inBlock_of_rest (State.raiseFrom_rest ..), State.inBlock_chained]

end

end

/-- Settles O18: TOT is skipped, added or refused. -/
theorem totalIncrement : Obligations.TotalIncrement := by
  intro s e t ht hp h x k old u
  exact ⟨exec_tot_skips ht h hp, fun hcb hwa ho hr => exec_tot_adds ht h hp hcb hwa ho hr,
    fun hcb hwa ho hr => exec_tot_overflows ht h hp hcb hwa ho hr⟩

/-! ## Sources (R130, R137) -/

/-- What a firing may change besides the Roundabout and the crossings: SUP is handed the notifications (R147). -/
abbrev Scope.firing : Scope := { outputs := true }

theorem State.modGroup_outside (s : State) (g : Nat) (f : Group → Group) : (s.modGroup g f).rest Scope.firing = s.rest Scope.firing := by
  simp [State.modGroup, State.setGroup]

theorem State.countFiring_outside (s : State) (n t : Nat) : (s.countFiring n t).rest Scope.firing = s.rest Scope.firing := by
  unfold State.countFiring State.deliver
  dsimp only
  (repeat' split) <;> simp [State.modGroup_outside]

theorem State.fireNow_outside (s : State) (n t : Nat) : (s.fireNow n t).rest Scope.firing = s.rest Scope.firing := by
  rw [State.fireNow, State.countFiring_outside, State.setSource_rest]

/-- A firing leaves every engine in its block. -/
theorem State.inBlock_fireNow (s : State) (n t e : Nat) : (s.fireNow n t).inBlock e ((s.fireNow n t).pcOf e) = s.inBlock e (s.pcOf e) :=
  (congrArg (fun u : State => u.inBlock e (u.pcOf e)) (s.fireNow_outside n t) :)

section

variable {s : State} {e : Fin 4} {n : BitVec 20}

/-- The source fires, where it is one that may. -/
def State.fired (s : State) (n t : Nat) : State := if reservedSource n then s else s.fireNow n t

theorem State.fired_iff (s : State) (c : Bool) (n t : Nat) :
    (if (c && !reservedSource n) = true then s.fireNow n t else s) = if c then s.fired n t else s := by
  unfold State.fired
  cases c <;> cases reservedSource n <;> rfl

theorem State.inBlock_fired (s : State) (n t e : Nat) : (s.fired n t).inBlock e ((s.fired n t).pcOf e) = s.inBlock e (s.pcOf e) := by
  unfold State.fired
  split
  · rfl
  · exact s.inBlock_fireNow n t e

variable (hn : n.toNat < 512) (h : s.fallsThrough (.sev e n) = true)
include hn h

theorem exec_sev_clean (hp : (s.engine e).cbP = false) :
    exec (.sev e n) s = .next (if (s.engine e).cb then (s.chained (.sev e n) e 1).fired n.toNat s.now else s.chained (.sev e n) e 1) := by
  show execSev e n s = _
  unfold execSev
  refine State.issue_stays (k := 1) rfl rfl h ?_ ?_
  · dsimp only
    rw [if_neg (Nat.not_le_of_gt hn), State.advance_engine]
    dsimp only
    rw [State.fired_iff, hp, Bool.or_false]
    rfl
  · split
    · rw [State.inBlock_fired, State.inBlock_chained]
    · exact State.inBlock_chained ..

theorem exec_sev_poisoned (hp : (s.engine e).cbP = true) :
    exec (.sev e n) s = .next (((s.chained (.sev e n) e 1).fired n.toNat s.now).consumePoison e (s.pcOf e)) := by
  show execSev e n s = _
  unfold execSev
  refine State.issue_stays (k := 1) rfl rfl h ?_ ?_
  · dsimp only
    rw [if_neg (Nat.not_le_of_gt hn), State.advance_engine]
    dsimp only
    rw [State.fired_iff, hp, Bool.or_true]
    rfl
  · rw [State.inBlock_consumePoison, State.inBlock_fired, State.inBlock_chained]

end

/-- Settles O19: SEV fires its source with CB = 1 or with a poisoned CB, which it consumes. -/
theorem sourceFiring : Obligations.SourceFiring := by
  intro s e n hn h u fired
  exact ⟨exec_sev_clean hn h, exec_sev_poisoned hn h⟩

/-! ## Words that spell no instruction (R114, R135) -/

/-- Each opcode that has a case of the decoder is one of the table. -/
theorem decodeOpcode_reserved {e : Fin 4} {w x : Word} (h : knownOpcode (opcodeOf w) = false) : decodeOpcode e w x = none := by
  unfold decodeOpcode
  split
  case h_64 => rfl
  all_goals
    next hop =>
      rw [hop] at h
      exact absurd h (by decide)

theorem decodeEngine_reservedOpcode {e : Fin 4} {w x : Word} (h : knownOpcode (opcodeOf w) = false) : decodeEngine e w x = none := by
  rw [decodeEngine, decodeOpcode_reserved h, ite_self]

theorem decodeEngine_reservedArea {e : Fin 4} {w x : Word} (h : areaField w = none) : decodeEngine e w x = none := by
  rw [decodeEngine, h]
  rfl

theorem decodeEngine_reservedDest {e : Fin 4} {w x : Word} (hop : opcodeOf w = 0x43 ∨ opcodeOf w = 0x44) (h : areaOf (bits x 23 20) = none) :
    decodeEngine e w x = none := by
  have hnone : decodeOpcode e w x = none := by
    rcases hop with hop | hop
    all_goals
      rw [decodeOpcode, hop]
      show (moveOperands w x).map _ = none
      rw [moveOperands_reserved h, Option.map_none]
  rw [decodeEngine, hnone, ite_self]

section

variable {s : State} {e : Fin 4}

/-- A word that is no instruction is a program fault, of the KIND of the word. -/
theorem exec_reservedOpcode_faults (hat : s.atIssue e = true) (hq : s.quiet = true)
    (hd : decodeEngine e (s.codeWord (s.pcOf e)) (s.codeWord (s.pcOf e + 1)) = none) :
    exec (.reservedOpcode e) s = .next (s.programFault e (s.badWordKind e (s.pcOf e)) (s.pcOf e)) := by
  show execReservedOpcode e s = _
  unfold execReservedOpcode
  simp [hat, hd, State.holdIssue_quiet hq]

theorem State.badWordKind_opcode {a : Nat} (h : knownOpcode (opcodeOf (s.codeWord a)) = false) : s.badWordKind e a = 1 := by
  simp [State.badWordKind, h]

variable {a : Nat} (hp : s.codePoison a = false)
include hp

theorem State.badWordKind_area (h : knownOpcode (opcodeOf (s.codeWord a)) = true) (ha : areaField (s.codeWord a) = none) : s.badWordKind e a = 2 := by
  simp [State.badWordKind, hp, h, ha]

theorem State.badWordKind_dest (hop : opcodeOf (s.codeWord a) = 0x43 ∨ opcodeOf (s.codeWord a) = 0x44)
    (ha : (areaField (s.codeWord a)).isSome = true) (hin : s.inBlock e (a + 1) = true) (hd : areaOf (bits (s.codeWord (a + 1)) 23 20) = none) :
    s.badWordKind e a = 2 := by
  have hmoves : knownOpcode 0x43 = true ∧ knownOpcode 0x44 = true := by decide
  have hnone : areaField (s.codeWord a) ≠ none := Option.isSome_iff_ne_none.mp ha
  rcases hop with hop | hop <;> simp [State.badWordKind, hp, hmoves, hnone, hin, hop, hd]

end

/-- Settles O20: no such word decodes, and its KIND says why. -/
theorem reservedWordFaults : Obligations.ReservedWordFaults := by
  intro s e hat hp hq w
  refine ⟨fun hop => ?opcode, fun hop ha => ?area, fun hop ha hin hd => ?dest⟩
  case opcode => rw [exec_reservedOpcode_faults hat hq (decodeEngine_reservedOpcode hop), State.badWordKind_opcode hop]
  case area => rw [exec_reservedOpcode_faults hat hq (decodeEngine_reservedArea ha), State.badWordKind_area hp hop ha]
  case dest => rw [exec_reservedOpcode_faults hat hq (decodeEngine_reservedDest hop hd), State.badWordKind_dest hp hop ha hin hd]

end Sys2Proof.Machine
end

/-! # Poisoned inputs

What takes its input from a poisoned CB or WA works on nothing: a bit keeps its value under a mark, a timer or counter is marked, and a decision is not
taken, or a count or increment not used, which is recorded (R132, R133). -/

section
namespace Sys2Proof.Machine
open Sys2Proof

section

variable {s : State} {e : Fin 4}

/-! ## Bits -/

/-- A poisoned SETB or CLRB writes the bit as it reads, with a mark. -/
theorem State.bitStored_poisoned {i : Instr} {o : Operand} {a : Nat} {v q : Bool} (hl : s.bitLands e o a) (hr : s.readBit e o = some (v, q))
    (hp : (s.engine e).cbP = true) (b : Bool) :
    s.bitStored i e o (s.setClearValue i e o b) (s.engine e).cbP ((s.engine e).cbP || (s.engine e).cb) =
      .next ((((s.fetched i e o).withSquare (s.square.putBit a (Operand.place o).2 v true)).modEngine e Engine.chain).posted e) := by
  have hread : (s.fetched i e o).readBit e o = some (v, q) := (State.readBit_congr (s := s) rfl rfl rfl rfl _ _).trans hr
  have hv : s.setClearValue i e o b = v := by
    simp only [State.setClearValue, hp, hread, if_true]
  rw [hv, hp, Bool.true_or, State.bitStored_of_write (State.writeBit_lands (State.fetched_bitLands hl i) v true), if_pos rfl]
  rfl

/-! ## Timers and counters -/

/-- TON, TOF and TP with a poisoned input mark their timer. -/
theorem exec_timers_poisoned {o : TimerOperand} (hown : s.ownsTimer e o.timer.toNat) (hq : timerPoison o (s.engine e) = true) :
    let marked := fun i => Host.Outcome.next (s.timerSet i e 2 o.timer.toNat { s.timer o.timer.toNat with poisoned := true, elapsedP := true })
    (s.fallsThrough (.ton e o) = true → exec (.ton e o) s = marked (.ton e o)) ∧
      (s.fallsThrough (.tof e o) = true → exec (.tof e o) s = marked (.tof e o)) ∧
      (s.fallsThrough (.tp e o) = true → exec (.tp e o) s = marked (.tp e o)) :=
  ⟨fun h => exec_timer_poisoned _ _ exec_ton_eq rfl rfl hown h ((timerPoison_advance ..).trans hq),
    fun h => exec_timer_poisoned _ _ exec_tof_eq rfl rfl hown h ((timerPoison_advance ..).trans hq),
    fun h => exec_timer_poisoned _ _ exec_tp_eq rfl rfl hown h ((timerPoison_advance ..).trans hq)⟩

/-! ## Decisions (R119, R120) -/

/-- The module once the instruction `i` of one word has consumed a poisoned input. -/
def State.consumed (s : State) (i : Instr) (e : Fin 4) : State := (s.chained i e 1).consumePoison e (s.pcOf e)

theorem State.inBlock_consumed (s : State) (i : Instr) (e : Fin 4) : (s.consumed i e).inBlock e ((s.consumed i e).pcOf e) =
    (s.advance e 1 (s.clocksOf i e 1)).inBlock e ((s.advance e 1 (s.clocksOf i e 1)).pcOf e) := by
  rw [State.consumed, State.inBlock_consumePoison, State.inBlock_chained]

/-- A poisoned CB does not jump. -/
theorem State.issueJump_poisoned {i : Instr} {w : Word} {t : BitVec 20} {want : Bool} (he : encodeEngine i = some (e, [w]))
    (h : s.fallsThrough i = true) (hp : (s.engine e).cbP = true) : s.issueJump i t want = .next (s.consumed i e) := by
  unfold State.issueJump
  refine State.issue_stays (k := 1) he rfl h ?_ (s.inBlock_consumed i e)
  exact if_pos (by simpa using hp)

theorem exec_callt_poisoned {t : BitVec 20} (h : s.fallsThrough (.callt e t) = true) (hp : (s.engine e).cbP = true) :
    exec (.callt e t) s = .next (s.consumed (.callt e t) e) := by
  rw [exec_callt_eq]
  refine State.issue_stays (k := 1) rfl rfl h ?_ (s.inBlock_consumed (.callt e t) e)
  exact if_pos (by simpa using hp)

/-! ## Block moves (R128) -/

/-- A poisoned count moves nothing and sets OVF and OVS. -/
theorem exec_bmove_poisoned {src dst : Operand} (h : s.fallsThrough (.bmove e src dst) = true) (hp : (s.engine e).waP = true)
    (hr : mayReadWords src.area = true) (hw : mayWriteWords dst.area = true) : exec (.bmove e src dst) s =
      .next (((s.advance e 2 (s.clocksOf (.bmove e src dst) e 2)).modEngine e Engine.overflow).consumePoison e (s.pcOf e)) := by
  show execBmove e src dst s = _
  unfold execBmove
  refine State.issue_stays (k := 2) rfl rfl h ?_ ?_
  · simp [hr, hw, hp]
  · rw [State.inBlock_consumePoison, State.inBlock_registers rfl rfl]

end

/-- Settles O21: with a poisoned CB, and with a clean one and a poisoned WA. -/
theorem poisonedInputs : Obligations.PoisonedInputs := by
  intro s e ended used timer counter refused jump ownT ownC
  refine ⟨fun hp => ⟨?bits, ?timers, ?clear, ?counters, ?decisions⟩, fun hp hw => ⟨?presets, ?load, ?total, ?moves⟩⟩
  case bits =>
    intro o a v q hl hr kept
    exact ⟨fun h => (exec_setb_bitStored h).trans (State.bitStored_poisoned hl hr hp true),
      fun h => (exec_clrb_bitStored h).trans (State.bitStored_poisoned hl hr hp false)⟩
  case timers => exact fun o hown => exec_timers_poisoned hown (by simp [timerPoison, hp])
  case clear => exact fun n hown h => exec_timer_poisoned _ _ exec_tclr_eq rfl rfl hown h (by rw [State.advance_engine, hp])
  case counters =>
    intro n hown
    have hcb : ∀ c, ((s.advance e 1 c).engine e).cbP = true := fun c => by rw [State.advance_engine, hp]
    refine ⟨fun h => ?_, fun h => ?_, fun h => ?_, fun h => ?_⟩
    · exact exec_counter_poisoned _ _ exec_cup_eq rfl hown h (hcb _)
    · exact exec_counter_poisoned _ _ exec_cdn_eq rfl hown h (hcb _)
    · exact exec_counter_poisoned _ _ exec_cld_eq rfl hown h (Bool.or_eq_true_iff.mpr (.inl (hcb _)))
    · exact exec_counter_poisoned _ _ exec_cclr_eq rfl hown h (hcb _)
  case decisions =>
    intro t
    refine ⟨fun h => ?_, fun h => ?_, fun h => ?_, fun ht h => ?_⟩
    · exact State.issueJump_poisoned rfl h hp
    · exact State.issueJump_poisoned rfl h hp
    · exact exec_callt_poisoned h hp
    · exact exec_tot_poisoned ht h (by simp [hp])
  case presets => exact fun o hpw hown => exec_timers_poisoned hown (by simp [timerPoison, hpw, hw])
  case load => exact fun n hcb hown h => exec_counter_poisoned _ _ exec_cld_eq rfl hown h (by simp [hcb, hw])
  case total =>
    intro t hcb ht h
    exact exec_tot_poisoned ht h (by simp [hcb, hw])
  case moves =>
    intro src dst h hr hw'
    exact exec_bmove_poisoned h hw hr hw'

end Sys2Proof.Machine
end

/-! # Events of the Roundabout

A row of the Roundabout does its work where its condition holds, on what acceptance left or on the state itself; an EVENT packet leaves in its turn
with what its notice holds, and the notice is gone from every slot (R137 to R149). -/

section
namespace Sys2Proof.Machine
open Sys2Proof

/-! ## Commands (R66, R137, R147) -/

@[simp] theorem State.admitted_slot (s : State) (p : Packet) (d : CmdDesc) (k : Nat) : (s.admitted p d).slot k = s.slot k :=
  State.admitted_congr (State.slot · k) s p d fun _ _ => rfl

section

variable {c : Ctx} {b : List Byte} {s : State}

/-- SET_PENDING of a source that may be set fires it, and answers its count (R137, R138). -/
theorem runSetPending_fires (hn : be16 b 0 ≤ 511) (hr : reservedSource (be16 b 0) = false) :
    runSetPending c b s =
      (s.fireNow (be16 b 0) s.now).reply c .ok (toBe 4 ((s.fireNow (be16 b 0) s.now).source (be16 b 0)).fc.toNat) := by
  rw [runSetPending, hr, Bool.or_false, if_neg (by simpa using hn)]

/-- EVENT_SUBSCRIBE binds a slot that is free (R147). -/
theorem runEventSubscribe_binds (hk : byteAt b 0 ≤ 15) (hmin : 1 ≤ be16 b 2) (hmax : be16 b 2 ≤ 3600)
    (hfree : (s.slot (byteAt b 0)).inUse = false) :
    runEventSubscribe c b s = (s.setSlot (byteAt b 0)
      { inUse := true, origin := c.origin, auth := c.tagged, keyslot := c.keyslot, port := c.port, peer := c.peer
        leaseEnd := s.now + be16 b 2 * 1000000000 }).ok c := by
  have hlease : ¬ (decide (be16 b 2 = 0) || decide (3600 < be16 b 2)) = true := by
    simp only [Bool.or_eq_true, decide_eq_true_eq]
    omega
  rw [runEventSubscribe]
  dsimp only
  rw [if_neg (by omega), if_neg hlease, hfree, if_neg (by simp), if_neg (by simp)]

end

/-! ## Rows whose condition holds (R138, R140, R142 to R144, R147) -/

/-- The time that a firing brings counts for the edges, thresholds and limits, and the time of its registering for every other source (R140). -/
theorem firingTime_eq (n t now : Nat) : firingTime n t now = if 64 ≤ n ∧ n < 192 then t else now := by
  simp [firingTime, ownTime]

section

variable {s : State}

theorem execEventFiring_fires {f : Nat × Nat} {l : List (Nat × Nat)} (hf : s.round.firings = f :: l) (hrun : s.runs 5 = true) :
    execEventFiring s =
      .next ({ s with round := { s.round with firings := l } }.fireNow f.1 (if 64 ≤ f.1 ∧ f.1 < 192 then f.2 else s.now)) := by
  rw [execEventFiring, hf]
  dsimp only
  rw [hrun, if_neg (by simp), firingTime_eq]

theorem execGroupAgeExpiry_delivers {g : Fin 64} {t : Nat} (ht : (s.group g).ageFrom = some t) (hrun : s.runs 5 = true)
    (hage : s.groupTNs g ≤ s.now - t) : execGroupAgeExpiry g s = .next (s.deliver g) := by
  rw [execGroupAgeExpiry, ht]
  exact if_pos (by simp [hrun, hage])

theorem execTaskComplete_completes {n : Fin 512} (hrun : s.runs 5 = true) (hactive : (s.source n).active = true)
    (hblock : (s.source n).blockPart = none) : execTaskComplete n s = .next (s.completeTask n) :=
  if_pos (by simp [hrun, hactive, hblock])

theorem execSubscriberLeaseExpiry_frees {k : Fin 16} (huse : (s.slot k).inUse = true) (hend : (s.slot k).leaseEnd ≤ s.now) :
    execSubscriberLeaseExpiry k s = .next (s.setSlot k {}) :=
  if_pos (by simp [huse, hend])

end

/-! ## EVENT (R148) -/

/-- The notice that leaves next is one of the list. -/
theorem firstNotice_mem {l : List Notice} {m : Notice} (h : firstNotice l = some m) : m ∈ l := by
  induction l generalizing m with
  | nil => cases h
  | cons x l ih =>
    unfold firstNotice at h
    split at h
    · cases h; exact List.mem_cons_self
    · next k hk =>
      split at h
      · cases h; exact List.mem_cons_of_mem _ (ih hk)
      · cases h; exact List.mem_cons_self

theorem State.eventsOn_port {s : State} {port : Port} {m : Notice} (h : m ∈ s.eventsOn port) : m.port = port := by
  simpa using (List.mem_filter.mp h).2

/-- The state without a notice in the slots' queues. -/
def State.dropNotice (s : State) (m : Notice) : State :=
  { s with round := { s.round with slots := s.round.slots.map fun (e : Nat × Slot) =>
      (e.1, { e.2 with queue := e.2.queue.filter fun x => !(x.order == m.order) }) } }

theorem State.dropNotice_order {s : State} {m : Notice} {e : Nat × Slot} (he : e ∈ (s.dropNotice m).round.slots) {x : Notice}
    (hx : x ∈ e.2.queue) : x.order ≠ m.order := by
  obtain ⟨_, _, rfl⟩ := List.mem_map.mp he
  simpa using (List.mem_filter.mp hx).2

/-- The EVENT packet of a notice. -/
def State.noticePacket (s : State) (m : Notice) : Packet :=
  { s.packet m.port 16 m.opcode.toNat 0 m.seq m.target 2 m.keyslot m.tagged m.cycle m.payload with peer := m.peer }

theorem State.noticePacket_fields (s : State) (m : Notice) :
    (s.noticePacket m).port = m.port ∧ (s.noticePacket m).opcode = m.opcode ∧ (s.noticePacket m).payload = m.payload ∧
      (s.noticePacket m).auth.length ≤ 16 := by
  obtain ⟨hport, hop, _, _, hpay, hauth⟩ :=
    s.packet_fields m.port 16 m.opcode.toNat 0 m.seq m.target 2 m.keyslot m.tagged m.cycle m.payload
  exact ⟨hport, hop.trans (by rw [BitVec.ofNat_toNat, BitVec.setWidth_eq]), hpay, hauth⟩

/-- A ring frame holds the packet of a notice. -/
theorem State.noticePacket_fits (s : State) {m : Notice} (h : m.payload.length ≤ 1400) :
    ringFits ((s.noticePacket m).header ++ (s.noticePacket m).payload ++ (s.noticePacket m).auth) = true := by
  obtain ⟨_, _, hpay, hauth⟩ := s.noticePacket_fields m
  simp only [ringFits, List.length_append, Packet.length_header, hpay, decide_eq_true_eq]
  omega

theorem execEvent_sends {s : State} {port : Port} {m : Notice} (hsup : s.supAnswers = true) (hpath : s.pathDown port = false)
    (hturn : s.eventTurn port = true) (hm : firstNotice (s.eventsOn port) = some m) :
    execEvent port s = .next ((s.dropNotice m).send ((s.dropNotice m).noticePacket m)) := by
  rw [execEvent, if_neg (by simp [hsup, hpath, hturn]), hm]
  rfl

/-- Settles O29: each row by its work under its condition, and EVENT by `execEvent_sends`, whose packet leaves by `State.send_sentBy`. -/
theorem eventRows : Obligations.EventRows := by
  intro s p
  refine ⟨?pending, ?subscribe, fun f l hf hrun => execEventFiring_fires hf hrun, fun g t ht hrun hage => execGroupAgeExpiry_delivers ht hrun hage,
    fun n hrun hactive hblock => execTaskComplete_completes hrun hactive hblock, fun k huse hend => execSubscriberLeaseExpiry_frees huse hend,
    fun port m hsup hpath hturn hm hlen => ?event⟩
  case pending =>
    intro n t h hn hr
    refine (State.command_next runSetPending h).trans ?_
    rw [runSetPending_fires hn hr, State.admitted_now]
  case subscribe =>
    intro b c h hk hmin hmax hfree
    refine (State.command_next runEventSubscribe h).trans ?_
    rw [runEventSubscribe_binds hk hmin hmax (by simpa using hfree), State.admitted_now]
  case event =>
    let u := s.dropNotice m
    have hport : m.port = port := State.eventsOn_port (firstNotice_mem hm)
    obtain ⟨hto, hop, hpay, _⟩ := u.noticePacket_fields m
    have hframe := u.send_frame (u.noticePacket m)
    have hround : (u.send (u.noticePacket m)).round = u.round := by rw [hframe]
    have hsent : u.sentBy (u.send (u.noticePacket m)) m.port (u.noticePacket m) := by
      rw [← hto]
      exact State.send_sentBy (by rw [hto, hport]; exact hpath) (u.noticePacket_fits hlen)
    refine ⟨_, execEvent_sends hsup hpath hturn hm, ?_, ⟨_, hsent, hop, hpay⟩, fun e he x hx => ?_⟩
    · change u.send (u.noticePacket m) = _
      rw [hframe]
      rfl
    · exact State.dropNotice_order (hround ▸ he) hx

end Sys2Proof.Machine
end

/-! # The loop engine

Changes of coefficients wait for their sample, and a base tick counts before anything samples; a sample of a context in RUN with clean data runs the
cascade, whose sections each push their input and their stored output (R150, R159 to R164, R172 to R174, R179). -/

section
namespace Sys2Proof.Machine
open Sys2Proof

/-! ## What acceptance leaves of the loop engine (R42) -/

@[simp] theorem State.admitted_loopLaw (s : State) (p : Packet) (d : CmdDesc) (n : Nat) : (s.admitted p d).loopLaw n = s.loopLaw n :=
  State.admitted_congr (State.loopLaw · n) s p d fun _ _ => rfl

@[simp] theorem State.admitted_loopSections (s : State) (p : Packet) (d : CmdDesc) (n : Nat) : (s.admitted p d).loopSections n = s.loopSections n :=
  State.admitted_congr (State.loopSections · n) s p d fun _ _ => rfl

@[simp] theorem State.admitted_down (s : State) (p : Packet) (d : CmdDesc) (i : Nat) : (s.admitted p d).down i = s.down i :=
  State.admitted_congr (State.down · i) s p d fun _ _ => rfl

@[simp] theorem State.admitted_landingSample (s : State) (p : Packet) (d : CmdDesc) (n : Nat) :
    (s.admitted p d).landingSample n = s.landingSample n :=
  State.admitted_congr (State.landingSample · n) s p d fun _ _ => rfl

@[simp] theorem State.admitted_stagedMarks (s : State) (p : Packet) (d : CmdDesc) (n : Nat) (bad : List Nat) :
    (s.admitted p d).stagedMarks n bad = s.stagedMarks n bad :=
  State.admitted_congr (State.stagedMarks · n bad) s p d fun _ _ => rfl

/-! ## Changes that wait for their sample (R172 to R174, R179) -/

theorem State.tellStandby_onlyPair (s : State) (c : Change) : s.tellStandby c = { s with pair := (s.tellStandby c).pair } := by
  unfold State.tellStandby
  split <;> rfl

@[simp] theorem State.tellStandby_loop (s : State) (c : Change) : (s.tellStandby c).loop = s.loop := by rw [State.tellStandby_onlyPair]

@[simp] theorem State.tellStandby_loopCtx (s : State) (c : Change) (n : Nat) : (s.tellStandby c).loopCtx n = s.loopCtx n := by
  simp only [State.loopCtx, State.tellStandby_loop]

section

variable {s : State} {c : Ctx} {b : List Byte} {n : Nat} {q : LoopChange} {tell : BitVec 32 → Change}

/-- No change waits while LOOP restarts (R179). -/
theorem State.queueLoop_busy (hdown : s.down 4 = true) : s.queueLoop c n q tell = s.replyBusy c true :=
  if_pos (by simp [hdown])

/-- A change that finds a place waits at the end of its context's queue, for the sample at which it lands; nothing but LOOP and what is told to the
standby differs. -/
theorem State.queueLoop_waits (hfull : (s.loopCtx n).queue.length < 8) (hdown : s.down 4 = false) (hlost : (s.forwards && s.causewayLost) = false) :
    (s.queueLoop c n q tell = { s with loop := (s.queueLoop c n q tell).loop, pair := (s.queueLoop c n q tell).pair }) ∧
      ((s.queueLoop c n q tell).loopCtx n).queue = (s.loopCtx n).queue ++ [{ q with sample := s.landingSample n, reply := some c }] ∧
      ∀ m, m ≠ n → (s.queueLoop c n q tell).loopCtx m = s.loopCtx m := by
  have hq : s.queueLoop c n q tell =
      (s.modLoopCtx n fun x => { x with queue := x.queue ++ [{ q with sample := s.landingSample n, reply := some c }] }).tellStandby
        (tell (s.landingSample n)) :=
    if_neg (by simpa [hdown, hfull] using hlost)
  rw [hq]
  refine ⟨?_, by simp, fun m hm => ?_⟩
  · rw [State.tellStandby_onlyPair]
    rfl
  · rw [State.tellStandby_loopCtx, State.modLoopCtx_other _ _ hm]

/-- A command that queues a change on what acceptance left: the change waits, and nothing else differs from what acceptance left. -/
theorem State.command_queues {p : Packet} {d : CmdDesc} {run : Ctx → List Byte → State → State} (h : s.admits p d = true)
    (hrun : run (s.ctxOf p d) (s.payloadOf p d) (s.admitted p d) = (s.admitted p d).queueLoop c n q tell)
    (hfull : (s.loopCtx n).queue.length < 8) (hdown : s.down 4 = false) (hlost : (s.forwards && s.causewayLost) = false) :
    ∃ t, s.command p d run = .next t ∧ t = { s.admitted p d with loop := t.loop, pair := t.pair } ∧
      (t.loopCtx n).queue = (s.loopCtx n).queue ++ [{ q with sample := s.landingSample n, reply := some c }] ∧ ∀ m, m ≠ n → t.loopCtx m = s.loopCtx m := by
  obtain ⟨hframe, hqueue, hothers⟩ := State.queueLoop_waits (s := s.admitted p d) (c := c) (n := n) (q := q) (tell := tell) (by simpa using hfull)
    (by simpa using hdown) (by simpa using hlost)
  simp only [State.admitted_loopCtx, State.admitted_landingSample] at hqueue hothers
  exact ⟨_, (State.command_next run h).trans (congrArg Host.Outcome.next hrun), hframe, hqueue, hothers⟩

theorem runLoopWriteCoeff_queues (hn : be16 b 0 ≤ 255) (hi : byteAt b 2 ≤ 7) (hk : byteAt b 3 ≤ 4) (hsh : byteAt b 8 ≤ 31)
    (hlaw : s.loopLaw (be16 b 0) = 0) :
    ∃ tell, runLoopWriteCoeff c b s = s.queueLoop c (be16 b 0)
      { set_ := none, section_ := byteAt b 2, coeff := byteAt b 3, value := beWord b 4, shift := byteAt b 8, sample := 0, reply := none } tell := by
  unfold runLoopWriteCoeff
  dsimp only
  rw [hlaw, if_neg (by simp; omega), if_neg (by simp; omega)]
  exact ⟨_, rfl⟩

theorem runLoopCommit_queues (hq : s.quiet = true) (hn : be16 b 0 ≤ 255) (hlaw : s.loopLaw (be16 b 0) = 0) (hst : (s.loopCtx (be16 b 0)).staged ≠ []) :
    ∃ tell, runLoopCommit c b s = s.queueLoop c (be16 b 0)
      { set_ := some (s.loopCtx (be16 b 0)).staged, section_ := 0, coeff := 0, value := 0, shift := 0, sample := 0, reply := none
        marks := s.stagedMarks (be16 b 0) [] } tell := by
  unfold runLoopCommit loopCommitFrom
  dsimp only
  rw [hlaw, if_neg (by omega), if_neg (by simpa using hst), State.gateRead_quiet hq]
  exact ⟨_, rfl⟩

/-! ## A set kept beside the coefficients in use (R67, R173) -/

/-- A write that meets neither an error nor a repair brings about nothing in KEEP (R340, R343). -/
theorem State.writeSpan_quiet (h : s.quiet = true) (a lo k : Nat) : s.writeSpan a lo k = s := by
  obtain ⟨hlocks, hupsets⟩ := s.quiet_iff.mp h
  rw [State.writeSpan, State.badWords_clear hupsets, List.foldl_nil, State.overwrite_clear hupsets, State.noteWrite, hlocks, List.map_nil, ← hlocks]

theorem State.putStaged_quiet (h : s.quiet = true) (l : List (List Word)) :
    (s.putStaged n l = { s with loop := (s.putStaged n l).loop }) ∧ (s.putStaged n l).loop.ctxs = (s.modLoopCtx n fun x => { x with staged := l }).loop.ctxs := by
  have hspan : (s.modLoopCtx n fun x => { x with staged := l }).quiet = true := h
  unfold State.putStaged State.cleanLoopRam
  rw [State.writeSpan_quiet hspan]
  exact ⟨rfl, rfl⟩

/-- What LOOP_STAGE leaves: the set beside the coefficients, what is told to the standby, and the reply. -/
theorem State.putStaged_told (h : s.quiet = true) (l : List (List Word)) (g : Change) :
    let t := ((s.putStaged n l).tellStandby g).ok c
    t = { s with sup := t.sup, loop := t.loop, pair := t.pair } ∧ (∀ m, m ≠ n → t.loopCtx m = s.loopCtx m) ∧ (t.loopCtx n).staged = l := by
  obtain ⟨hframe, hctxs⟩ := State.putStaged_quiet (n := n) h l
  have hloop : ∀ m, (((s.putStaged n l).tellStandby g).ok c).loopCtx m = (s.modLoopCtx n fun x => { x with staged := l }).loopCtx m := fun m => by
    simp only [State.loopCtx, State.ok_loop, State.tellStandby_loop, hctxs]
  refine ⟨?_, fun m hm => (hloop m).trans (State.modLoopCtx_other _ _ hm), by rw [hloop n, State.modLoopCtx_same]⟩
  rw [State.ok, State.reply_onlySup, State.tellStandby_onlyPair, hframe]

theorem runLoopStage_keeps (hn : be16 b 0 ≤ 255) (hmin : 1 ≤ byteAt b 2) (hmax : byteAt b 2 ≤ 8) (hfit : byteAt b 2 ≤ s.loopSections (be16 b 0))
    (hlaw : s.loopLaw (be16 b 0) = 0) (hsh : ∀ i < byteAt b 2, ∀ j < 5, byteAt b (4 + 28 * i + 20 + j) ≤ 31)
    (hlost : (s.forwards && s.causewayLost) = false) :
    ∃ g, runLoopStage c b s =
      ((s.putStaged (be16 b 0) ((List.range (byteAt b 2)).map fun i => stagedSection ((b.drop (4 + 28 * i)).take 28))).tellStandby g).ok c := by
  have hshifts : ((List.range (byteAt b 2)).any fun i => (List.range 5).any fun j => decide (31 < byteAt b (4 + 28 * i + 20 + j))) = false := by
    simpa using hsh
  unfold runLoopStage
  dsimp only
  rw [hlaw, hshifts, hlost, if_neg (by omega), if_neg (by simp; omega), if_neg (by simp), if_neg (by simp; omega), if_neg (by simp)]
  exact ⟨_, rfl⟩

end

/-! ## The base tick (R150, R151, R179) -/

section

variable {s : State} {at_ : Nat}

/-- The state in which the tick that is due at `at_ + 10000` ns has been counted. -/
def State.ticked (s : State) (at_ : Nat) : State :=
  { s with loop := { s.loop with tick := s.loop.tick + 1, tickAt := some (at_ + 10000) } }

/-- Before its 10 µs are over the row does nothing. -/
theorem execLoopBaseTick_early (ht : s.loop.tickAt = some at_) (hpast : at_ ≤ s.now) (hearly : s.now < at_ + 10000) :
    execLoopBaseTick s = .next s := by
  have hdue : s.tickDue = false := by
    simp only [State.tickDue, State.dueEvery, ht]
    simp [hpast, hearly]
  rw [execLoopBaseTick, hdue]
  rfl

/-- A tick that is due counts first; what follows depends on whether the engine samples and runs. -/
theorem execLoopBaseTick_due (hfull : s.service = .full) (ht : s.loop.tickAt = some at_) (hdue : at_ + 10000 ≤ s.now) :
    execLoopBaseTick s =
      (let t := s.ticked at_
       if !t.loop.live then .next (if t.standby && t.pair.snapshot then t.each (t.loopOrder t.loop.tick) State.loopCount else t)
       else if !t.runs 4 then .next (t.each (t.loopOrder t.loop.tick) State.loopMiss)
       else
         let u := t.each ((List.range 256).filter fun n => (t.loopCtx n).sinkNew) State.loopDeliver
         .next (u.loopRun (u.loop.waiting ++ (u.loopOrder t.loop.tick).map fun n => (t.loop.tick, n)))) := by
  have hd : s.tickDue = true := by
    simp only [State.tickDue, State.dueEvery, ht]
    simp [hfull, hdue]
  have hb : s.beginTick = s.ticked at_ := by
    rw [State.beginTick, ht]
    dsimp only
    rw [if_pos hdue]
    rfl
  rw [execLoopBaseTick, hd, hb]
  rfl

/-- A sample whose reads of context RAM meet neither an error nor a repair is the sample alone (R341, R343). -/
theorem State.loopRead_quiet (h : s.quiet = true) (t n : Nat) : s.loopRead t n = s.loopSample t n := by
  obtain ⟨-, hupsets⟩ := s.quiet_iff.mp h
  rw [State.loopRead, State.badWords_clear hupsets, State.readSpan_clear hupsets]
  rfl

theorem State.loopRun_single (h : s.quiet = true) (t n : Nat) :
    s.loopRun [(t, n)] = { s.loopSample t n with loop := { (s.loopSample t n).loop with waiting := [] } } := by
  have hheld : s.loopHeld n = false := State.spanLocked_clear (s.quiet_iff.mp h).1 _ _ _
  rw [State.loopRun, hheld, if_neg (by simp), State.loopRead_quiet h, State.loopRun]

/-- A tick with no output on its way and one context due is the sample of that context. -/
theorem execLoopBaseTick_samples (hfull : s.service = .full) (ht : s.loop.tickAt = some at_) (hdue : at_ + 10000 ≤ s.now) {n : Nat}
    (hlive : s.loop.live = true) (hruns : s.runs 4 = true) (horder : (s.ticked at_).loopOrder (s.ticked at_).loop.tick = [n])
    (hwait : s.loop.waiting = []) (hsink : ∀ m < 256, (s.loopCtx m).sinkNew = false) :
    execLoopBaseTick s = .next ((s.ticked at_).loopRun [((s.ticked at_).loop.tick, n)]) := by
  have hl : (s.ticked at_).loop.live = true := hlive
  have hr : (s.ticked at_).runs 4 = true := hruns
  have hw : (s.ticked at_).loop.waiting = [] := hwait
  have hnone : ((List.range 256).filter fun m => ((s.ticked at_).loopCtx m).sinkNew) = [] :=
    List.filter_eq_nil_iff.mpr fun m hm => by
      rw [show ((s.ticked at_).loopCtx m).sinkNew = false from hsink m (List.mem_range.mp hm)]
      simp
  rw [execLoopBaseTick_due hfull ht hdue]
  dsimp only
  rw [hl, hr, hnone, if_neg (by simp), if_neg (by simp), State.each, List.foldl_nil, hw, horder]
  rfl

end

/-! ## The sections (R159 to R164) -/

/-- What a section forms before the clamp and the holding back. -/
def State.lawOut (s : State) (n i : Nat) (h : Hist) (x : Int) : Int :=
  if s.loopLaw n = 0 then sectionOut (s.coeff n i) (s.shift n i) h x
  else legacyOut (s.coeff n 0) (s.coeff n 1) (s.loopLaw n == 2) (bits (s.lw n 3) 4 0) h x

theorem State.sectionStep_out (s : State) (n i : Nat) (q : Hold) (h : Hist) (x : Int) : (s.sectionStep n i q h x).1 =
    if s.loopInt n = i then q.limit h.y1 (clampInt (sInt (s.lw n 6)) (sInt (s.lw n 7)) (s.lawOut n i h x)) else s.lawOut n i h x := by
  unfold State.sectionStep State.lawOut
  dsimp only
  by_cases hi : s.loopInt n = i <;> simp [hi]

section

variable {s : State} {n : Nat} {q : Hold}

/-- The cascade from section `i` on leaves the sections before it alone. -/
theorem State.cascade_before {k i j : Nat} (hj : j < i) (x : Int) (t : Tab Hist) (f : Bool) :
    (s.cascade n q k i x t f).2.1.get {} j = t.get {} j := by
  induction k generalizing i x t f with
  | zero => rfl
  | succ k ih =>
    rw [State.cascade, ih (by omega), Tab.get_set_other _ _ _ (by omega)]

/-- Each section takes the stored output of the one before it, the first the input of the cascade, and pushes input and output (R159, R160). -/
theorem State.cascade_hist {k i j : Nat} (hi : i ≤ j) (hj : j < i + k) (x : Int) (t : Tab Hist) (f : Bool) :
    let r := (s.cascade n q k i x t f).2.1
    let v := if j = i then x else (r.get {} (j - 1)).y1
    r.get {} j = (t.get {} j).push v (s.sectionStep n j q (t.get {} j) v).1 := by
  induction k generalizing i x t f with
  | zero => omega
  | succ k ih =>
    dsimp only
    rw [State.cascade]
    by_cases h : j = i
    · subst h
      rw [State.cascade_before (Nat.lt_succ_self j), Tab.get_set_same, if_pos rfl]
    · have hstep := ih (i := i + 1) (by omega) (by omega) (s.sectionStep n i q (t.get {} i) x).1
        (t.set {} i ((t.get {} i).push x (s.sectionStep n i q (t.get {} i) x).1)) (f || (s.sectionStep n i q (t.get {} i) x).2)
      dsimp only at hstep
      rw [Tab.get_set_other _ _ _ h] at hstep
      rw [if_neg h]
      by_cases hn : j = i + 1
      · subst hn
        rw [if_pos rfl] at hstep
        rw [Nat.add_sub_cancel, State.cascade_before (Nat.lt_succ_self i), Tab.get_set_same]
        exact hstep
      · rw [if_neg hn] at hstep
        exact hstep

/-- The output of the cascade is the stored output of its last section. -/
theorem State.cascade_out {k i : Nat} (hk : 1 ≤ k) (x : Int) (t : Tab Hist) (f : Bool) :
    (s.cascade n q k i x t f).1 = ((s.cascade n q k i x t f).2.1.get {} (i + k - 1)).y1 := by
  induction k generalizing i x t f with
  | zero => omega
  | succ k ih =>
    rw [State.cascade]
    cases k with
    | zero =>
      rw [State.cascade, Nat.zero_add, Nat.add_sub_cancel, Tab.get_set_same]
      rfl
    | succ k => rw [ih (by omega), show i + 1 + (k + 1) - 1 = i + (k + 1 + 1) - 1 by omega]

end

section

variable {s : State} {n : Nat} {x : Loop} {sp pv : Int} {trip comp : Bool}

/-- How the last sample's saturation and a trip hold the integrating section back (R162, R163). -/
def State.holdOf (s : State) (n : Nat) (x : Loop) (trip : Bool) : Hold := { trip := trip, hi := x.satHi, lo := x.satLo, sign := bit (s.lw n 3) 23 }

theorem State.loopCompute_hist {i : Nat} (hi : i < s.loopStages n) :
    let y := s.loopCompute n x sp pv trip comp
    let v := if i = 0 then y.err else (y.hist.get {} (i - 1)).y1
    y.hist.get {} i = (x.hist.get {} i).push v (s.sectionStep n i (s.holdOf n x trip) (x.hist.get {} i) v).1 :=
  State.cascade_hist (Nat.zero_le i) (by omega) _ _ _

/-- The last section's stored output is limited to give the output, and beyond the limits the sample is saturated (R159, R162). -/
theorem State.loopCompute_limits (hk : 1 ≤ s.loopStages n) :
    let y := s.loopCompute n x sp pv trip comp
    let last := (y.hist.get {} (s.loopStages n - 1)).y1
    y.out = min (max last (sInt (s.lw n 4))) (sInt (s.lw n 5)) ∧
      (y.satHi = true ↔ sInt (s.lw n 5) < last ∨ (comp = true ∧ 0 < sInt (s.lw n 15))) ∧
      (y.satLo = true ↔ last < sInt (s.lw n 4) ∨ (comp = true ∧ sInt (s.lw n 15) < 0)) := by
  have hout := State.cascade_out (s := s) (n := n) (q := s.holdOf n x trip) (i := 0) hk (s.loopError n sp pv) x.hist false
  rw [Nat.zero_add] at hout
  dsimp only
  rw [show (((s.loopCompute n x sp pv trip comp).hist.get {} (s.loopStages n - 1)).y1 = _) from hout.symm]
  refine ⟨rfl, ?_, ?_⟩ <;> simp [State.loopCompute, State.holdOf]

end

/-! ## A sample in RUN with clean data (R151, R166, R168) -/

theorem State.loopMirror_nil {s : State} (h : s.loop.mirror = []) (t n : Nat) : s.loopMirror t n = s := by
  rw [State.loopMirror, h]
  rfl

theorem State.loopLand_nil {s : State} {n : Nat} (h : (s.loopCtx n).queue = []) (k : BitVec 32) : s.loopLand n k = s := by
  rw [State.loopLand, h]

@[simp] theorem State.loopEvent_loop (s : State) (n : Nat) (rise : Bool) (k : Option RecKind) : (s.loopEvent n rise k).loop = s.loop := by
  unfold State.loopEvent
  split
  · rfl
  · cases k <;> simp

@[simp] theorem State.loopEvent_loopCtx (s : State) (n m : Nat) (rise : Bool) (k : Option RecKind) : (s.loopEvent n rise k).loopCtx m = s.loopCtx m := by
  simp only [State.loopCtx, State.loopEvent_loop]

/-- Context `n` is in RUN, is enabled, takes its set-point from the Town Square at once, and neither a mark nor a change waits for its sample. -/
structure State.CleanRun (s : State) (n : Nat) : Prop where
  run : (s.loopCtx n).state = .run
  queue : (s.loopCtx n).queue = []
  mirror : s.loop.mirror = []
  ram : s.loop.ramPoison = []
  outer : s.loopOuter n = none
  noRamp : bit (s.lw n 3) 20 = false
  raw : (s.loopRaw n).2 = false
  sp : (s.loopIn n 0).2 = false
  cmd : (s.loopIn n 2).2 = false
  enable : bit (s.loopIn n 2).1 0 = true

/-- The context with what its sample takes. -/
def State.runTaken (s : State) (n : Nat) : Loop :=
  { s.loopCtx n with
    sample := (s.loopCtx n).sample + 1, pvBad := false, dataBad := false, tripHeld := s.sinkTrip n, compliance := s.sinkCompliance n, enable := true
    pv := s.loopPv n (s.loopRaw n).1, target := sInt (s.loopIn n 0).1 }

/-- The context once its sections are computed. -/
def State.runComputed (s : State) (n : Nat) : Loop :=
  s.loopCompute n (s.runTaken n) (sInt (s.loopIn n 0).1) (s.loopPv n (s.loopRaw n).1) (s.sinkTrip n) (s.sinkCompliance n)

/-! ### The count of a sample changes nothing that the sample reads -/

section

variable (s : State) (m n : Nat)

@[simp] theorem State.loopCount_loop_ramPoison : (s.loopCount m).loop.ramPoison = s.loop.ramPoison := rfl
@[simp] theorem State.loopCount_loopCtx : (s.loopCount n).loopCtx n = { s.loopCtx n with sample := (s.loopCtx n).sample + 1 } :=
  State.modLoopCtx_same _ _ _
@[simp] theorem State.loopCount_lw (k : Nat) : (s.loopCount m).lw n k = s.lw n k := rfl
@[simp] theorem State.loopCount_loopIn (k : Nat) : (s.loopCount m).loopIn n k = s.loopIn n k := rfl
@[simp] theorem State.loopCount_loopRaw : (s.loopCount m).loopRaw n = s.loopRaw n := rfl
@[simp] theorem State.loopCount_loopOuter : (s.loopCount m).loopOuter n = s.loopOuter n := rfl
@[simp] theorem State.loopCount_loopPv : (s.loopCount m).loopPv n = s.loopPv n := rfl
@[simp] theorem State.loopCount_loopScaled : (s.loopCount m).loopScaled n = s.loopScaled n := rfl
@[simp] theorem State.loopCount_loopError : (s.loopCount m).loopError n = s.loopError n := rfl
@[simp] theorem State.loopCount_sinkTrip : (s.loopCount m).sinkTrip n = s.sinkTrip n := rfl
@[simp] theorem State.loopCount_sinkCompliance : (s.loopCount m).sinkCompliance n = s.sinkCompliance n := rfl
@[simp] theorem State.loopCount_sectionStep : (s.loopCount m).sectionStep n = s.sectionStep n := rfl

@[simp] theorem State.loopCount_cascade (q : Hold) (k i : Nat) (x : Int) (t : Tab Hist) (f : Bool) :
    (s.loopCount m).cascade n q k i x t f = s.cascade n q k i x t f := by
  induction k generalizing i x t f with
  | zero => rfl
  | succ k ih => simp only [State.cascade, State.loopCount_sectionStep, ih]

@[simp] theorem State.loopCount_loopCompute (x : Loop) (sp pv : Int) (trip comp : Bool) :
    (s.loopCount m).loopCompute n x sp pv trip comp = s.loopCompute n x sp pv trip comp := by
  simp only [State.loopCompute, State.loopCount_cascade, State.loopCount_loopError, State.loopCount_lw]
  rfl

end

theorem State.CleanRun.loopAct_runTaken {s : State} {n : Nat} (h : s.CleanRun n) :
    (s.loopCount n).loopAct n (s.runTaken n) (s.loopPv n (s.loopRaw n).1) (sInt (s.loopIn n 0).1) (s.sinkTrip n) (s.sinkCompliance n) =
      s.runComputed n := by
  have hrun : (s.runTaken n).state = .run := h.run
  rw [State.loopAct, hrun]
  dsimp only
  rw [show (s.runTaken n).enable = true from rfl, if_pos rfl, State.loopCount_lw, h.noRamp, if_neg (by simp), State.loopCount_loopCompute]
  rfl

/-- The context after the sample: computed, with its output on the way to its sink. -/
theorem State.CleanRun.loopSample_loopCtx {s : State} {n : Nat} (h : s.CleanRun n) (t : Nat) :
    (s.loopSample t n).loopCtx n =
      { s.runComputed n with
        sink := s.loopScaled n (s.runComputed n).out, sinkNew := true, ran := true, intFrozen := (s.runComputed n).intFrozen || s.sinkTrip n } := by
  unfold State.loopSample
  extract_lets was s1 s2 old raw pv outer latch o target cmd outBad spBad trackBad trip comp x1 x2 x3 x4 x5 s3 l s4 s5 s6 s7 s8
  have hs1 : s1 = s.loopCount n := State.loopMirror_nil (s := s.loopCount n) h.mirror t n
  have hs2 : s2 = s.loopCount n := by
    rw [show s2 = s1.loopLand n (s1.loopCtx n).sample from rfl, hs1, State.loopLand_nil (by simpa using h.queue)]
  have hold : old = { s.loopCtx n with sample := (s.loopCtx n).sample + 1 } := by simp only [old, hs2, State.loopCount_loopCtx]
  have hraw : raw = s.loopRaw n := by simp only [raw, hs2, State.loopCount_loopRaw]
  have hcmd : cmd = s.loopIn n 2 := by simp only [cmd, hs2, State.loopCount_loopIn]
  have htrip : trip = s.sinkTrip n := by simp only [trip, hs2, State.loopCount_sinkTrip]
  have hcomp : comp = s.sinkCompliance n := by simp only [comp, hs2, State.loopCount_sinkCompliance]
  have hpv : pv = s.loopPv n (s.loopRaw n).1 := by simp only [pv, hs2, hraw, State.loopCount_loopPv]
  have houter : outer = none := by simp only [outer, hs2, State.loopCount_loopOuter, h.outer]
  have hlatch : latch = false := by simp only [latch, houter]
  have htarget : target = sInt (s.loopIn n 0).1 := by simp [target, houter, hs2]
  have houtBad : outBad = false := by simp only [outBad, hlatch, Bool.false_and]
  have hsp : spBad = false := by simp [spBad, houtBad, hs2, h.sp, State.loopRamBad, h.ram]
  have htrack : trackBad = false := by simp [trackBad, hold, h.run]
  have hbad : (raw.2 || spBad) = false := by simp [hraw, h.raw, hsp]
  have hx2 : x2 = s.runTaken n := by
    simp [x2, x1, hold, hsp, htrack, houtBad, hraw, hcmd, h.raw, h.cmd, h.enable, htarget, htrip, hcomp, hpv, State.runTaken]
  have hx3 : x3 = s.runComputed n := by
    simp only [x3, hx2, htarget, htrip, hcomp, hpv, hs2]
    exact h.loopAct_runTaken
  have hx4 : x4 = s.runComputed n := by
    have hcomputes : (s.runComputed n).state.computes = true := congrArg LoopState.computes h.run
    simp [x4, hbad, hx3, hcomputes]
  have hs8 : s8.loopCtx n = x5 := by
    simp only [s8, s7, s6, s5, State.loopEvent_loopCtx]
    exact State.setLoopCtx_same _ _ _
  rw [State.loopEvent_loopCtx, hs8]
  simp only [x5, hx4, htrip, hs2, State.loopCount_loopScaled, State.loopCount_loopError]
  rfl

/-- A computed context pushes the histories of the context as it was. -/
theorem State.runComputed_hist {s : State} {n i : Nat} (hi : i < s.loopStages n) :
    let v := if i = 0 then (s.runComputed n).err else ((s.runComputed n).hist.get {} (i - 1)).y1
    (s.runComputed n).hist.get {} i = ((s.loopCtx n).hist.get {} i).push v
      (s.sectionStep n i (s.holdOf n (s.loopCtx n) (s.sinkTrip n)) ((s.loopCtx n).hist.get {} i) v).1 :=
  State.loopCompute_hist hi

/-! ## The obligation -/

/-- The limits of the integrating section, with its conditions as propositions (R162, R163). -/
theorem Hold.limit_eq (q : Hold) (y1 v : Int) : q.limit y1 v =
    (let down := (q.hi = true ∧ q.sign = false) ∨ (q.lo = true ∧ q.sign = true)
     let up := (q.hi = true ∧ q.sign = true) ∨ (q.lo = true ∧ q.sign = false)
     if q.trip then y1 else if up then max (if down then min v y1 else v) y1 else if down then min v y1 else v) := by
  simp [Hold.limit]

theorem State.lawOut_native {s : State} {n : Nat} (h : s.loopLaw n = 0) (i : Nat) (o : Hist) (x : Int) :
    s.lawOut n i o x = sectionOut (s.coeff n i) (s.shift n i) o x := if_pos h

theorem State.lawOut_legacy {s : State} {n : Nat} (h : s.loopLaw n ≠ 0) (i : Nat) (o : Hist) (x : Int) :
    s.lawOut n i o x = legacyOut (s.coeff n 0) (s.coeff n 1) (s.loopLaw n == 2) (bits (s.lw n 3) 4 0) o x := if_neg h

/-- Settles O30: the commands by what they leave waiting (`State.command_queues`, `State.putStaged_told`), the tick by the branch of `execLoopBaseTick_due`
it takes, and the sample by `State.CleanRun.loopSample_loopCtx`, whose sections are those of `State.cascade_hist`: native ones by `sectionOut`, and of a legacy
law the one compensator. -/
theorem loopRows : Obligations.LoopRows := by
  intro s p hlost
  refine ⟨fun h hn hi hk hsh hlaw hfull hdown => ?write, fun h hn hmin hmax hfit hlaw hsh hq => ?stage, fun h hn hlaw hst hfull hdown hq => ?commit,
    fun h hn hi hk hsh hlaw hdown => ?busy, fun at_ ht hpast hearly => execLoopBaseTick_early ht hpast hearly,
    fun at_ hserv ht hdue => ⟨fun hlive hsnap => ?idle, fun hlive hst hsnap => ?standby, fun hlive hruns => ?missed,
      fun n hlive hruns horder hq hwait hsink => ?tick⟩,
    fun t n _ => fun hrun hqueue hmirror hram houter hramp hk hraw hsp hcmd hen => ?sample⟩
  case write =>
    obtain ⟨tell, hrun⟩ := runLoopWriteCoeff_queues (s := s.admitted p loopWriteCoeffDesc) (c := s.ctxOf p loopWriteCoeffDesc) hn hi hk hsh
      (by simpa using hlaw)
    exact State.command_queues h hrun hfull hdown hlost
  case stage =>
    obtain ⟨g, hrun⟩ := runLoopStage_keeps (s := s.admitted p loopStageDesc) (c := s.ctxOf p loopStageDesc) hn hmin hmax (by simpa using hfit)
      (by simpa using hlaw) hsh (by simpa using hlost)
    obtain ⟨hframe, hothers, hstaged⟩ := State.putStaged_told (s := s.admitted p loopStageDesc) (n := be16 (s.payloadOf p loopStageDesc) 0)
      (c := s.ctxOf p loopStageDesc) (by simpa using hq) _ g
    exact ⟨_, (State.command_next runLoopStage h).trans (congrArg Host.Outcome.next hrun), hframe,
      fun m hm => (hothers m hm).trans (State.admitted_loopCtx _ _ _ _), hstaged⟩
  case commit =>
    obtain ⟨tell, hrun⟩ := runLoopCommit_queues (s := s.admitted p loopCommitDesc) (c := s.ctxOf p loopCommitDesc) (by simpa using hq) hn
      (by simpa using hlaw) (by simpa using hst)
    simp only [State.admitted_loopCtx, State.admitted_stagedMarks] at hrun
    obtain ⟨t, hnext, hframe, hqueue, -⟩ := State.command_queues h hrun hfull hdown hlost
    exact ⟨t, hnext, hframe, hqueue⟩
  case busy =>
    obtain ⟨tell, hrun⟩ := runLoopWriteCoeff_queues (s := s.admitted p loopWriteCoeffDesc) (c := s.ctxOf p loopWriteCoeffDesc) hn hi hk hsh
      (by simpa using hlaw)
    refine (State.command_next runLoopWriteCoeff h).trans ?_
    rw [hrun, State.queueLoop_busy (by simpa using hdown)]
  case idle =>
    refine (execLoopBaseTick_due hserv ht hdue).trans ?_
    have hl : (s.ticked at_).loop.live = false := hlive
    have hs : ((s.ticked at_).standby && (s.ticked at_).pair.snapshot) = false := hsnap
    simp only [hl, hs]
    rfl
  case standby =>
    refine (execLoopBaseTick_due hserv ht hdue).trans ?_
    have hl : (s.ticked at_).loop.live = false := hlive
    have hs : ((s.ticked at_).standby && (s.ticked at_).pair.snapshot) = true := Bool.and_eq_true_iff.mpr ⟨hst, hsnap⟩
    simp only [hl, hs]
    rfl
  case missed =>
    refine (execLoopBaseTick_due hserv ht hdue).trans ?_
    have hl : (s.ticked at_).loop.live = true := hlive
    have hr : (s.ticked at_).runs 4 = false := hruns
    simp only [hl, hr]
    rfl
  case tick =>
    have hquiet : (s.ticked at_).quiet = true := hq
    refine (execLoopBaseTick_samples hserv ht hdue hlive hruns horder hwait hsink).trans ?_
    rw [State.loopRun_single hquiet]
    rfl
  case sample =>
    have hclean : s.CleanRun n := ⟨hrun, hqueue, hmirror, hram, houter, hramp, hraw, hsp, hcmd, hen⟩
    rw [hclean.loopSample_loopCtx t]
    obtain ⟨hout, hhi, hlo⟩ : _ ∧ _ ∧ _ := State.loopCompute_limits (s := s) (n := n) (x := s.runTaken n) (sp := sInt (s.loopIn n 0).1)
      (pv := s.loopPv n (s.loopRaw n).1) (trip := s.sinkTrip n) (comp := s.sinkCompliance n) hk
    refine ⟨hrun, rfl, rfl, rfl, rfl, fun i hi => ?_, hout, hhi, hlo⟩
    refine (State.runComputed_hist hi).trans ?_
    rw [State.sectionStep_out, Hold.limit_eq]
    by_cases hlaw : s.loopLaw n = 0
    · simp only [State.lawOut_native hlaw, if_pos hlaw]
      rfl
    · have hi0 : i = 0 := by
        rw [if_neg hlaw] at hi
        omega
      subst hi0
      simp only [State.lawOut_legacy hlaw, if_neg hlaw, legacyOut, beq_iff_eq]
      rfl

end Sys2Proof.Machine
end

/-! # Universal channels

A settled conversion writes its channel and reports; what it reports leaves every channel as it was (R185, R194 to R196). A mode change moves its channel
on, and the two thresholds of the store set and clear OVERLOAD (R189, R197). -/

section
namespace Sys2Proof.Machine
open Sys2Proof

/-! ## Reports of a channel (R194, R196) -/

/-- `t` differs from `s` in the messages of the crossings, the firings and what waits for FIRE at most. -/
def State.onlyReports (s t : State) : Prop := t = { s with crossings := t.crossings, nextSend := t.nextSend, round := t.round, fire := t.fire }

theorem State.onlyReports_refl (s : State) : s.onlyReports s := rfl

theorem State.onlyReports.trans {s t u : State} (h : s.onlyReports t) (k : t.onlyReports u) : s.onlyReports u := by
  unfold State.onlyReports at *
  rw [k, h]

theorem State.onlyReports.uc {s t : State} (h : s.onlyReports t) (n : Nat) : t.uc n = s.uc n := by
  rw [h]
  rfl

theorem State.onlyPosts.onlyReports {s t : State} (h : s.onlyPosts t) : s.onlyReports t := by
  unfold State.onlyPosts at h
  rw [h]
  rfl

theorem State.raise_onlyReports (s : State) {k : RecKind} (h : (BitVec.ofNat 16 k.source).toNat ≠ 17) (v : Word) : s.onlyReports (s.raise k v) :=
  (s.raiseFrom_onlyPosts h k v).onlyReports

theorem State.fireSource_onlyReports (s : State) (n : Nat) : s.onlyReports (s.fireSource n) := rfl

theorem State.ucToFire_onlyReports (s : State) (n : Nat) : s.onlyReports (s.ucToFire n) := by
  unfold State.ucToFire
  split <;> rfl

/-! ## What becomes of one channel -/

/-- From `s` to `t` channel `n` becomes `x`; beyond that only reports are made. -/
structure State.channelTo (n : Nat) (x : Uc) (s t : State) : Prop where
  frame : t = { s with ucs := t.ucs, crossings := t.crossings, nextSend := t.nextSend, round := t.round, fire := t.fire }
  own : t.uc n = x
  others : ∀ m, m ≠ n → t.uc m = s.uc m

theorem State.channelTo.trans {n : Nat} {x y : Uc} {s t u : State} (h : State.channelTo n x s t) (k : State.channelTo n y t u) :
    State.channelTo n y s u where
  frame := by rw [k.frame, h.frame]
  own := k.own
  others m hm := (k.others m hm).trans (h.others m hm)

theorem State.setUc_channelTo (s : State) (n : Nat) (x : Uc) : State.channelTo n x s (s.setUc n x) :=
  ⟨rfl, s.setUc_same n x, fun _ hm => s.setUc_other x hm⟩

theorem State.channelTo.reports {n : Nat} {x : Uc} {s t u : State} (h : State.channelTo n x s t) (k : t.onlyReports u) : State.channelTo n x s u where
  frame := by
    unfold State.onlyReports at k
    rw [k, h.frame]
  own := (k.uc n).trans h.own
  others m hm := (k.uc m).trans (h.others m hm)

theorem State.onlyReports.channelTo {s t : State} (h : s.onlyReports t) (n : Nat) : State.channelTo n (s.uc n) s t :=
  State.channelTo.reports ⟨rfl, rfl, fun _ _ => rfl⟩ h

/-- A rise of FAULT fires a source and makes a record, a fall makes a record (R194). -/
theorem State.ucUpdate_channelTo (s : State) (n : Nat) (x : Uc) : State.channelTo n x s (s.ucUpdate n x) := by
  refine (s.setUc_channelTo n x).reports ?_
  unfold State.ucUpdate
  dsimp only
  split
  · exact (State.fireSource_onlyReports _ _).trans (State.raise_onlyReports _ (by decide) _)
  · exact State.raise_onlyReports _ (by decide) _
  · exact State.onlyReports_refl _

/-- The comparator writes its two limits and fires a source for each that rises (R196). -/
theorem State.ucLimits_channelTo (s : State) (n : Nat) (v : Int) :
    ∃ hi lo, State.channelTo n { s.uc n with limitHi := hi, limitLo := lo } s (s.ucLimits n v) := by
  unfold State.ucLimits
  split
  · exact ⟨(s.uc n).limitHi, (s.uc n).limitLo, s.onlyReports_refl.channelTo n⟩
  · extract_lets u high low w hyst hi lo t t'
    refine ⟨hi, lo, (s.setUc_channelTo n _).reports (State.onlyReports.trans (t := t') ?_ ?_)⟩
    · unfold t'
      split <;> rfl
    · split <;> rfl

/-! ## A settled conversion (R185) -/

/-- What a conversion of channel `n` delivers: an output shows what it measures, an input what its range leaves of it (R183, R194). -/
def State.ucReading (s : State) (n : Nat) (c : Conversion) : Int :=
  let w := s.ucWorks n
  let x := ucValue w (bits (s.cfg (0x400 + n) 7) 31 0) c
  if ucOutput (ucMode w) then sat32 x else clampInt (ucRange w).1 (ucRange w).2 x

/-- A settled conversion leaves its channel with the reading, new and not STALE. -/
theorem State.ucDeliver_channelTo (s : State) (n : Nat) (c : Conversion) :
    ∃ x : Uc, State.channelTo n x s (s.ucDeliver n c) ∧ x.value = s.ucReading n c ∧ x.valueAt = some s.now ∧ x.stale = false := by
  unfold State.ucDeliver
  extract_lets w u x r out v isI comp past off u' s1 s2
  have hupdate : State.channelTo n u' s s2 := by
    refine (s.ucUpdate_channelTo n u').reports ?_
    unfold s2
    split
    · exact State.raise_onlyReports _ (by decide) _
    · exact State.onlyReports_refl _
  obtain ⟨hi, lo, hlimits⟩ := s2.ucLimits_channelTo n v
  rw [hupdate.own] at hlimits
  exact ⟨_, (hupdate.trans hlimits).reports (State.ucToFire_onlyReports _ _), rfl, rfl, rfl⟩

section

variable {s : State} {ch : Fin 32}

/-- A conversion before the settled one leaves its readings alone (R184). -/
theorem execUcConversionComplete_settling (hruns : s.runs 7 = true) (hst : (s.uc ch).state = .settling) (hleft : 1 < (s.uc ch).settleLeft)
    (c : Conversion) : execUcConversionComplete ch c s =
      .next (s.setUc ch ({ s.uc ch with settleLeft := (s.uc ch).settleLeft - 1 }.readings (s.ucWorks ch) c)) := by
  unfold execUcConversionComplete
  dsimp only
  rw [if_neg (by simp [hruns]), hst]
  exact if_pos hleft

theorem execUcConversionComplete_run (hruns : s.runs 7 = true) (hst : (s.uc ch).state = .run) (c : Conversion) :
    execUcConversionComplete ch c s = .next (s.ucDeliver ch c) := by
  unfold execUcConversionComplete
  dsimp only
  rw [if_neg (by simp [hruns]), hst]

/-! ## Mode changes and the store (R189, R197) -/

theorem execUcStartupComplete_starting (hst : (s.uc ch).state = .starting) : execUcStartupComplete ch s =
    .next ((s.modUc ch fun u => { u with state := .settling, settleLeft := settleCount (ucRate (s.ucCfg ch)) }).ucApply ch) :=
  if_neg (by simp [hst])

/-- Where no write was deferred, the front end is switched to the mode word in force. -/
theorem execUcShutdownComplete_shuttingDown (hst : (s.uc ch).state = .shuttingDown) (hdef : (s.uc ch).deferred = []) :
    execUcShutdownComplete ch s = .next
      (((s.ucUpdate ch { (s.uc ch).fresh with
          state := if ucMode (s.ucCfg ch) = 0 then .off else .starting, deferred := [], replyTo := [], stale := true
          valueAt := if ucMode (s.ucCfg ch) = 0 then none else (s.uc ch).valueAt }).each (s.uc ch).replyTo fun s c => s.ok c).judgeDomains) := by
  unfold execUcShutdownComplete
  dsimp only
  rw [if_neg (by simp [hst]), hdef]
  simp only [State.each, List.foldl_nil, beq_iff_eq]

theorem execUcStoreLow_below {mv : Nat} (hruns : s.runs 7 = true) (hst : (s.uc ch).state ≠ .off) (hmv : mv < 25500) :
    execUcStoreLow ch mv s = .next ((s.ucUpdate ch { s.uc ch with overload := true, store := some mv }).ucBadToFire ch) :=
  if_neg (by simp [hruns, hst, hmv])

theorem execUcStoreRecovered_above {mv : Nat} (hruns : s.runs 7 = true) (hover : (s.uc ch).overload = true) (hmv : 27000 < mv) :
    execUcStoreRecovered ch mv s = .next ((s.ucUpdate ch { s.uc ch with overload := false, store := some mv }).ucBadToFire ch) :=
  if_pos (by simp [hruns, hover, hmv])

theorem execUcStoreLow_unseen (hruns : s.runs 7 = false) (mv : Nat) : execUcStoreLow ch mv s = .next s :=
  if_pos (by simp [hruns])

theorem execUcStoreRecovered_unseen (hruns : s.runs 7 = false) (mv : Nat) : execUcStoreRecovered ch mv s = .next s :=
  if_neg (by simp [hruns])

end

/-- Settles O32: a settled conversion is `State.ucDeliver_channelTo`, and the other rows are their events in the state of the channel. -/
theorem channelRows : Obligations.ChannelRows := by
  intro s ch
  refine ⟨fun c hruns hst hleft => execUcConversionComplete_settling hruns hst hleft c, fun c hruns hst hin => ?settled,
    fun hst => execUcStartupComplete_starting hst, fun hst hdef => execUcShutdownComplete_shuttingDown hst hdef,
    fun mv hruns hst hmv => execUcStoreLow_below hruns hst hmv, fun mv hruns hover hmv => execUcStoreRecovered_above hruns hover hmv,
    fun mv hruns => ⟨execUcStoreLow_unseen hruns mv, execUcStoreRecovered_unseen hruns mv⟩⟩
  obtain ⟨x, hto, hvalue, hat, hstale⟩ := s.ucDeliver_channelTo ch c
  refine ⟨s.ucDeliver ch c, execUcConversionComplete_run hruns hst c, hto.frame, hto.others, ?_, ?_, ?_⟩
  · rw [hto.own, hat]
  · rw [hto.own, hstale]
  · rw [hto.own, hvalue, State.ucReading, hin]
    rfl

end Sys2Proof.Machine
end

/-! # HART

The master of a channel works through its queue, keeps account of who is silent, and fills the device table by scans and bursts (R200 to R204). -/

section
namespace Sys2Proof.Machine
open Sys2Proof

/-! ## What acceptance leaves of HART (R42) -/

@[simp] theorem State.admitted_hartReady (s : State) (p : Packet) (d : CmdDesc) (n : Nat) : (s.admitted p d).hartReady n = s.hartReady n :=
  State.admitted_congr (State.hartReady · n) s p d fun _ _ => rfl

@[simp] theorem State.admitted_hartAddress (s : State) (p : Packet) (d : CmdDesc) (n poll : Nat) (b : List Byte) :
    (s.admitted p d).hartAddress n poll b = s.hartAddress n poll b :=
  State.admitted_congr (State.hartAddress · n poll b) s p d fun _ _ => rfl

/-! ## Transactions (R201 to R203) -/

theorem runHartTransact_queues {s : State} {c : Ctx} {b : List Byte} {hi : BitVec 8} {lo : BitVec 32} (hn : byteAt b 0 ≤ 31)
    (hready : s.hartReady (byteAt b 0) = true) (haddr : s.hartAddress (byteAt b 0) (byteAt b 1) b = .ok (hi, lo))
    (hroom : (s.uc (byteAt b 0)).jobs.length < 5) :
    runHartTransact c b s = s.modUc (byteAt b 0) fun u => { u with jobs := u.jobs ++
      [{ ctx := c, longHi := hi, longLo := lo, command := BitVec.ofNat 8 (byteAt b 7), data := b.drop 9 }] } := by
  unfold runHartTransact
  dsimp only
  rw [if_neg (Nat.not_lt_of_le hn), if_neg (by simp [hready]), haddr]
  exact if_neg (Nat.not_le_of_lt hroom)

/-- How many transactions in a row the device has left without an answer (R203). -/
def Uc.silentFor (u : Uc) (hi : BitVec 8) (lo : BitVec 32) : Nat :=
  match u.silences.find? fun e => e.1 == (hi, lo) with | some e => e.2 | none => 0

theorem Uc.silence_answered (u : Uc) (hi : BitVec 8) (lo : BitVec 32) : u.silence hi lo true = u.silences.filter fun e => e.1 != (hi, lo) := rfl

theorem Uc.silence_unanswered (u : Uc) (hi : BitVec 8) (lo : BitVec 32) :
    u.silence hi lo false = ((hi, lo), u.silentFor hi lo + 1) :: u.silences.filter fun e => e.1 != (hi, lo) := rfl

section

variable {s : State} {ch : Fin 32} {j : HartJob} {l : List HartJob}

theorem execHartTransactionComplete_answered (hjobs : (s.uc ch).jobs = j :: l) (code : BitVec 16) (data : List Byte) :
    execHartTransactionComplete ch (some (code, data)) s =
      .next ((s.setUc ch { s.uc ch with jobs := l, transactions := satInc (s.uc ch).transactions
                                        silences := (s.uc ch).silences.filter fun e => e.1 != (j.longHi, j.longLo) }).reply
        j.ctx .ok (toBe 2 code.toNat ++ toBe 1 data.length ++ data)) := by
  unfold execHartTransactionComplete
  dsimp only
  rw [hjobs]
  simp only [Uc.silence_answered]

theorem execHartTransactionComplete_silent (hjobs : (s.uc ch).jobs = j :: l) :
    let n := (s.uc ch).silentFor j.longHi j.longLo
    let others := (s.uc ch).silences.filter fun e => e.1 != (j.longHi, j.longLo)
    execHartTransactionComplete ch none s = .next ((s.setUc ch { s.uc ch with
      jobs := l, noResponse := satInc (s.uc ch).noResponse, silences := ((j.longHi, j.longLo), n + 1) :: others
      hartFault := (s.uc ch).hartFault || (decide (3 ≤ n + 1) || others.any fun e => decide (3 ≤ e.2)) }).refuse j.ctx .noResponse) := by
  unfold execHartTransactionComplete
  dsimp only
  rw [hjobs]
  simp only [Uc.silence_unanswered, List.any_cons]

/-! ## Scans and bursts (R203, R204) -/

/-- A scan that finds no more than the table holds: too few devices are the only fault. -/
theorem execHartScanComplete_ready {found : List HartFound} (hscan : (s.uc ch).scanning = true) (hfew : found.length ≤ 6) (hready : s.hartReady ch = true) :
    execHartScanComplete ch found s = .next (s.setUc ch { s.uc ch with
      scanning := false, silences := [], hartFault := decide (found.length < ucExpected (s.ucCfg ch))
      devices := scanTable found (if ucMode (s.ucCfg ch) == 5 then 6 else 1) }) := by
  have hmany : decide (6 < found.length) = false := decide_eq_false (Nat.not_lt_of_le hfew)
  unfold execHartScanComplete
  dsimp only
  rw [if_neg (by simp [hscan, hready]), hmany, Bool.false_or]
  rfl

theorem execHartScanComplete_waits (hready : s.hartReady ch = false) (found : List HartFound) : execHartScanComplete ch found s = .next s :=
  if_pos (by simp [hready])

theorem execHartBurstReceived_kept (hready : s.hartReady ch = true) (hon : bit (s.cfg (0x400 + ch) 8) 28 = true) (hi : BitVec 8) (lo : BitVec 32)
    (f : List Byte) : execHartBurstReceived ch hi lo f s =
      .next (s.setUc ch { s.uc ch with devices := modDevice hi lo (fun d => { d with burst := some (f, s.now) }) (s.uc ch).devices }) :=
  if_neg (by simp [hready, hon])

theorem execRescan_asks (huse : ucHart (s.ucCfg ch) = true) (hst : (s.uc ch).state = .run) :
    execRescan ch s = .next (s.modUc ch fun u => { u with scanning := true }) :=
  congrArg Host.Outcome.next (if_pos (by simp [huse, hst]))

end

/-- Settles O33: HART_TRANSACT queues in the state that acceptance left, and each event is the branch that the channel's master takes. -/
theorem hartRows : Obligations.HartRows := by
  intro s p ch
  refine ⟨fun hi lo hadm hn hready haddr hroom => ?transact,
    fun j l hjobs => ⟨fun code data => execHartTransactionComplete_answered hjobs code data, fun n hn => ?silent⟩,
    fun found hscan hfew => ⟨fun hready => execHartScanComplete_ready hscan hfew hready, fun hready => execHartScanComplete_waits hready found⟩,
    fun hi lo f hready hon => execHartBurstReceived_kept hready hon hi lo f, fun huse hst => execRescan_asks huse hst⟩
  case transact =>
    refine (State.command_next runHartTransact hadm).trans ?_
    rw [runHartTransact_queues hn (by simpa using hready) (by simpa using haddr) (by simpa using hroom)]
  case silent =>
    subst hn
    exact execHartTransactionComplete_silent hjobs

end Sys2Proof.Machine
end

/-! # Digital outputs

A fold over the entries of a table writes each entry once; what drives an output is a function of its own entry (R225). From these follow protection,
retry and diagnosis (R221 to R224), acknowledgement, holds and refresh of the outputs (R226, R229, R231). -/

section
namespace Sys2Proof.Machine
open Sys2Proof

/-! ## Folds -/

theorem State.each_keeps {α : Type} {P : State → Prop} {f : State → α → State} (hf : ∀ t x, P t → P (f t x)) {s : State} (hs : P s)
    (l : List α) : P (s.each l f) := by
  induction l generalizing s with
  | nil => exact hs
  | cons x l ih => exact ih (hf s x hs)

/-- Two steps that agree wherever the fold can come to give the same fold. -/
theorem State.each_congr {α : Type} {P : State → Prop} {f g : State → α → State} (hf : ∀ t x, P t → P (f t x))
    (hfg : ∀ t x, P t → f t x = g t x) {s : State} (hs : P s) (l : List α) : s.each l f = s.each l g := by
  induction l generalizing s with
  | nil => rfl
  | cons x l ih =>
    change (f s x).each l f = (g s x).each l g
    rw [ih (hf s x hs), hfg s x hs]

/-- A fold whose steps each write the one entry that they name makes every named entry what its step makes of it. -/
theorem State.each_rows {β : Type} {row : State → Nat → β} {P : State → Prop} {f : State → Nat → State} {g : Nat → β} {l : List Nat}
    (hl : l.Nodup) {s : State} (hs : P s) (hkeep : ∀ t, ∀ n ∈ l, P t → P (f t n))
    (hother : ∀ t n m, m ≠ n → row (f t n) m = row t m) (hown : ∀ t, ∀ n ∈ l, P t → row t n = row s n → row (f t n) n = g n) :
    P (s.each l f) ∧ ∀ m, row (s.each l f) m = if m ∈ l then g m else row s m := by
  induction l generalizing s with
  | nil => exact ⟨hs, fun m => (if_neg List.not_mem_nil).symm⟩
  | cons n l ih =>
    obtain ⟨hn, hl⟩ := List.nodup_cons.1 hl
    have hrow : ∀ m ∈ l, row (f s n) m = row s m := fun m hm => hother s n m fun h => hn (h ▸ hm)
    obtain ⟨hP, hrows⟩ := ih hl (hkeep s n List.mem_cons_self hs) (fun t m hm => hkeep t m (List.mem_cons_of_mem n hm))
      fun t m hm ht h => hown t m (List.mem_cons_of_mem n hm) ht (h.trans (hrow m hm))
    refine ⟨hP, fun m => (hrows m).trans ?_⟩
    by_cases hm : m ∈ l
    · rw [if_pos hm, if_pos (List.mem_cons_of_mem n hm)]
    · rw [if_neg hm]
      by_cases hmn : m = n
      · rw [hmn, if_pos List.mem_cons_self]
        exact hown s n List.mem_cons_self hs rfl
      · rw [if_neg (by simp [hm, hmn])]
        exact hother s n m hmn

/-- The entries of a group of eight, of those that a list of places selects. -/
theorem mem_groupMembers {g m : Nat} {l : List Nat} (hl : ∀ k ∈ l, k < 8) : (m ∈ l.map fun k => 8 * g + k) ↔ m / 8 = g ∧ m % 8 ∈ l := by
  rw [List.mem_map]
  constructor
  · rintro ⟨k, hk, rfl⟩
    have hmod : (8 * g + k) % 8 = k := by
      have := hl k hk
      omega
    exact ⟨by have := hl k hk; omega, hmod.symm ▸ hk⟩
  · rintro ⟨rfl, hm⟩
    exact ⟨m % 8, hm, by omega⟩

theorem groupMembers_nodup (g : Nat) {l : List Nat} (hl : l.Nodup) : (l.map fun k => 8 * g + k).Nodup :=
  hl.map fun a b h => by simpa using h

theorem mem_groupOutputs {g m : Nat} : m ∈ groupOutputs g ↔ m / 8 = g := by
  rw [groupOutputs, mem_groupMembers fun k hk => List.mem_range.1 hk, List.mem_range]
  exact and_iff_left (Nat.mod_lt m (by decide))

theorem groupOutputs_nodup (g : Nat) : (groupOutputs g).Nodup := groupMembers_nodup g List.nodup_range

/-! ## What is left alone -/

/-- `t` differs from `s` in the digital inputs at most. -/
def State.onlyDis (s t : State) : Prop := t = { s with dis := t.dis }

/-- `t` differs from `s` in the digital outputs at most. -/
def State.onlyDos (s t : State) : Prop := t = { s with dos := t.dos }

/-- `t` differs from `s` in what the outputs of the field side are driven to at most. -/
def State.onlyDriven (s t : State) : Prop := t = { s with dos := t.dos, ucs := t.ucs }

theorem State.onlyDis_refl (s : State) : s.onlyDis s := rfl

theorem State.onlyDos_refl (s : State) : s.onlyDos s := rfl

theorem State.onlyDis.modDi {s t : State} (h : s.onlyDis t) (n : Nat) (f : Di → Di) : s.onlyDis (t.modDi n f) := by
  unfold State.onlyDis at h
  rw [h]
  rfl

theorem State.onlyDos.trans {s t u : State} (h : s.onlyDos t) (k : t.onlyDos u) : s.onlyDos u := by
  unfold State.onlyDos at *
  rw [k, h]

theorem State.onlyDos.modDo {s t : State} (h : s.onlyDos t) (n : Nat) (f : Do → Do) : s.onlyDos (t.modDo n f) := h.trans rfl

theorem State.onlyDos.doRefresh {s t : State} (h : s.onlyDos t) (n : Nat) : s.onlyDos (t.doRefresh n) := h.trans rfl

theorem State.onlyDriven_refl (s : State) : s.onlyDriven s := rfl

theorem State.onlyDriven.trans {s t u : State} (h : s.onlyDriven t) (k : t.onlyDriven u) : s.onlyDriven u := by
  unfold State.onlyDriven at *
  rw [k, h]

theorem State.onlyDos.onlyDriven {s t : State} (h : s.onlyDos t) : s.onlyDriven t := by
  unfold State.onlyDos at h
  rw [h]
  rfl

theorem State.onlyDriven_each {f : State → Nat → State} (hf : ∀ t n, State.onlyDriven t (f t n)) (s : State) (l : List Nat) :
    s.onlyDriven (s.each l f) :=
  State.each_keeps (P := s.onlyDriven) (fun t n h => h.trans (hf t n)) s.onlyDriven_refl l

theorem State.do_raise (s : State) (k : RecKind) (v : Word) (n : Nat) : (s.raise k v).do_ n = s.do_ n :=
  State.do_ite_raise true s k v n

/-! ## What drives an output (R225) -/

/-- Rows 1 to 5 of R225 for DO n with the entry `d`. -/
def State.forcedOf (s : State) (n : Nat) (d : Do) : Option Bool :=
  if (s.doGroup (n / 8)).lost then some false
  else if d.protectedOff then some false
  else if s.tripClaims 1 n d.held then some (s.doSafe n)
  else if d.held then some d.heldState
  else if d.latchedOff then some false
  else if !s.drives then some false
  else none

/-- What DO n with the entry `d` is driven to. -/
def State.drivenOf (s : State) (n : Nat) (d : Do) : Bool := (s.forcedOf n d).getD (if d.await_ then d.driven else d.selected)

/-- The entry of DO n once it is driven. -/
def State.refreshed (s : State) (n : Nat) (d : Do) : Do :=
  { d with driven := s.drivenOf n d
           onSince := if s.drivenOf n d then (if d.driven then d.onSince else some s.now) else none }

theorem State.doForced_setDo (s : State) (n : Nat) (d : Do) : (s.setDo n d).doForced n = s.forcedOf n d := by
  unfold State.doForced
  rw [State.setDo_same]
  rfl

theorem State.doRefresh_own (s : State) (n : Nat) : (s.doRefresh n).do_ n = s.refreshed n (s.do_ n) := State.setDo_same _ _ _

theorem State.doRefresh_setDo (s : State) (n : Nat) (d : Do) : ((s.setDo n d).doRefresh n).do_ n = s.refreshed n d := by
  rw [State.doRefresh_own, State.setDo_same]
  rfl

theorem State.drivenOf_lost {s : State} {n : Nat} (h : (s.doGroup (n / 8)).lost = true) (d : Do) : s.drivenOf n d = false := by
  unfold State.drivenOf State.forcedOf
  rw [if_pos h]
  rfl

theorem State.drivenOf_protected (s : State) (n : Nat) {d : Do} (h : d.protectedOff = true) : s.drivenOf n d = false := by
  unfold State.drivenOf State.forcedOf
  rw [if_pos h, ite_self]
  rfl

/-- Protection aside, an output is driven to what R225 selects. -/
theorem State.drivenOf_eq_doWould (s : State) (n : Nat) {d : Do} (hp : d.protectedOff = false) (hwait : d.await_ = false)
    (hheld : d.held = (s.do_ n).held) (hstate : d.heldState = (s.do_ n).heldState) (hoff : d.latchedOff = (s.do_ n).latchedOff) :
    s.drivenOf n d = s.doWould n d.selected := by
  unfold State.drivenOf State.forcedOf State.doWould
  rw [hp, hwait, hheld, hstate, hoff]
  simp only [apply_ite (Option.getD · d.selected), Option.getD_some, Option.getD_none, Bool.false_eq_true, if_false, Bool.or_eq_true, ite_or]

/-! ## Apply and retry (R221, R225, R228) -/

/-- The entry of DO n with what an apply selects, before a retry. -/
def State.selectedEntry (s : State) (n : Nat) : Do :=
  { s.do_ n with selected := (s.doSelect n).1, await_ := false, recovered := false, latchedOff := (s.do_ n).latchedOff || s.doLatches n }

/-- The entry of DO n with what an apply selects and with the retry that the apply makes. -/
def State.appliedEntry (s : State) (n : Nat) : Do :=
  if s.doWould n (s.doSelect n).1 && !s.doLatches n then (s.selectedEntry n).retry s.now else s.selectedEntry n

/-- An apply drives the output by the entry with selection and retry; POISON plays no part in that. -/
theorem State.doApply_own (s : State) (n : Nat) : ∃ p, (s.doApply n).do_ n = s.refreshed n { s.appliedEntry n with poison := p } := by
  unfold State.doApply
  dsimp only
  rw [State.do_ite_raise, State.doRefresh_setDo]
  exact ⟨_, rfl⟩

theorem Do.retry_waits {d : Do} {now : Nat} (h : now < d.retryAt ∨ d.hot = true ∨ d.latchedOff = true) : d.retry now = d := by
  apply if_neg
  rcases h with h | h | h
  · simp [Nat.not_le.2 h]
  · simp [h]
  · simp [h]

theorem Do.retry_due {d : Do} {now : Nat} (hp : d.protectedOff = true) (hat : d.retryAt ≤ now) (hhot : d.hot = false)
    (hoff : d.latchedOff = false) : d.retry now = { d with protectedOff := false, retrying := true } :=
  if_pos (by simp [hp, hat, hhot, hoff])

/-- A retry that is not due leaves the output off under protection. -/
theorem State.doApply_stays_off {s : State} {n : Nat} (hp : (s.do_ n).protectedOff = true)
    (h : s.now < (s.do_ n).retryAt ∨ (s.do_ n).hot = true ∨ (s.do_ n).latchedOff = true) :
    ((s.doApply n).do_ n).driven = false ∧ ((s.doApply n).do_ n).protectedOff = true := by
  have hwait : s.now < (s.selectedEntry n).retryAt ∨ (s.selectedEntry n).hot = true ∨ (s.selectedEntry n).latchedOff = true :=
    h.imp_right (Or.imp_right fun hoff => by simp [State.selectedEntry, hoff])
  have hentry : s.appliedEntry n = s.selectedEntry n := by rw [State.appliedEntry, Do.retry_waits hwait, ite_self]
  obtain ⟨p, happ⟩ := s.doApply_own n
  rw [happ, hentry]
  exact ⟨s.drivenOf_protected n hp, hp⟩

/-- A retry that is due switches an output on that R225 selects on. -/
theorem State.doApply_retries {s : State} {n : Nat} (hp : (s.do_ n).protectedOff = true) (hat : (s.do_ n).retryAt ≤ s.now)
    (hhot : (s.do_ n).hot = false) (hoff : (s.do_ n).latchedOff = false) (hon : s.doWould n (s.doSelect n).1 = true)
    (hlatch : s.doLatches n = false) :
    ((s.doApply n).do_ n).driven = true ∧ ((s.doApply n).do_ n).protectedOff = false ∧ ((s.doApply n).do_ n).retrying = true := by
  have hstays : (s.selectedEntry n).latchedOff = false := by simp [State.selectedEntry, hoff, hlatch]
  have hentry : s.appliedEntry n = { s.selectedEntry n with protectedOff := false, retrying := true } := by
    rw [State.appliedEntry, hon, hlatch, if_pos (by rfl), Do.retry_due (d := s.selectedEntry n) hp hat hhot hstays]
  obtain ⟨p, happ⟩ := s.doApply_own n
  rw [happ, hentry]
  have hdriven := s.drivenOf_eq_doWould n (d := { s.selectedEntry n with protectedOff := false, retrying := true, poison := p })
    rfl rfl rfl rfl (hstays.trans hoff.symm)
  exact ⟨hdriven.trans hon, rfl, rfl⟩

/-! ## Protection (R221) -/

theorem doFault_source : (BitVec.ofNat 16 RecKind.doFault.source).toNat ≠ 17 := by decide

/-- A fault of an output that rises fires its source and is a message to KEEP. -/
theorem State.doFaultRise_eq (s : State) (kind n : Nat) : s.doFaultRise kind n =
    { s with crossings := (s.doFaultRise kind n).crossings, nextSend := (s.doFaultRise kind n).nextSend
             round := { s.round with firings := s.round.firings ++ [(224 + n, s.now)] } } :=
  (s.fireSource (224 + n)).raiseFrom_onlyPosts doFault_source _ _

/-- The entry of DO n as protection leaves it (R221). -/
def State.protectedEntry (s : State) (n : Nat) (thermal : Bool) : Do :=
  let d := s.do_ n
  let tries := if d.retrying then (if d.lastThermal == thermal then d.retries + 1 else 1) else 0
  { d with overload := d.overload || !thermal, thermal := d.thermal || thermal, protectedOff := true, hot := d.hot || thermal
           retryAt := s.now + 1000000000, retries := tries, retrying := false, lastThermal := thermal, overloads := satInc d.overloads
           latchedOff := d.latchedOff || s.doLatch n || decide (8 ≤ tries) }

/-- Protection writes the output, which goes off, fires its source and reports; nothing else changes. -/
theorem State.doProtect_eq (s : State) (n : Nat) (thermal : Bool) :
    let t := s.doProtect n thermal
    t = { s with dos := t.dos, crossings := t.crossings, nextSend := t.nextSend, round := t.round } ∧ (∀ m, m ≠ n → t.do_ m = s.do_ m) ∧
      t.do_ n = s.refreshed n (s.protectedEntry n thermal) ∧ t.round = { s.round with firings := s.round.firings ++ [(224 + n, s.now)] } := by
  intro t
  have hrise := ((s.setDo n (s.protectedEntry n thermal)).doRefresh n).doFaultRise_eq (if thermal then 4 else 3) n
  change t = _ at hrise
  refine ⟨?_, fun m hm => ?_, ?_, ?_⟩
  · rw [hrise]
    rfl
  · rw [hrise]
    exact (State.doRefresh_other _ hm).trans (s.setDo_other _ hm)
  · rw [hrise]
    exact s.doRefresh_setDo n _
  · rw [hrise]
    rfl

/-! ## The end of a fault (R221) -/

theorem execDoFaultCleared_overload {s : State} {n : Fin 32} {t : Nat} (hrun : s.runs 8 = true) (hsince : (s.do_ n).onSince = some t)
    (hlong : t + 1000000000 ≤ s.now) (hdr : (s.do_ n).driven = true) (hov : (s.do_ n).overload = true) (hth : (s.do_ n).thermal = false) :
    execDoFaultCleared n s =
      .next ((s.setDo n { s.do_ n with overload := false, thermal := false, retries := 0, retrying := false }).raiseDo .doFaultCleared 3 n) := by
  unfold execDoFaultCleared
  dsimp only
  rw [hsince]
  simp [hrun, hlong, hdr, hov, hth]

theorem execDoFaultCleared_asleep {s : State} (h : s.runs 8 = false) (n : Fin 32) : execDoFaultCleared n s = .next s := by
  unfold execDoFaultCleared
  dsimp only
  split
  · exact if_neg (by simp [h])
  · rfl

/-- Settles O37: protection and the retry at an apply by what drives an output, and each event by the branch of its conditions. -/
theorem outputProtectionRows : Obligations.OutputProtectionRows := by
  intro s n
  refine ⟨fun hdr => ?overload, fun hdr => ?thermal, fun _ => rfl, fun hp h => State.doApply_stays_off hp h,
    fun hp hat hhot hoff hon hlatch => State.doApply_retries hp hat hhot hoff hon hlatch,
    fun t hrun hsince hlong hdr hov hth => execDoFaultCleared_overload hrun hsince hlong hdr hov hth,
    fun hrun hen hdr hno => if_neg (by simp [hrun, hen, hdr, hno]), fun hrun hopen hdr => if_pos (by simp [hrun, hopen, hdr]),
    fun hrun hdr hno hext => if_neg (by simp [hrun, hdr, hno, hext]), fun hext => if_pos (by simp [hext]),
    fun hrun hdr hshort => if_neg (by simp [hrun, hdr, hshort]), fun hno => if_pos (by simp [hno]),
    fun hrun => ⟨execDoFaultCleared_asleep hrun n, if_pos (by simp [hrun]), if_neg (by simp [hrun]), if_pos (by simp [hrun]),
      if_pos (by simp [hrun])⟩,
    fun _ => rfl⟩
  case overload =>
    obtain ⟨hframe, hothers, hown, hround⟩ := s.doProtect_eq n false
    refine ⟨s.doProtect n false, if_pos hdr, hframe, hothers, ?_, ?_, ?_, ?_, hround⟩ <;> rw [hown]
    · exact Bool.or_true _
    · exact s.drivenOf_protected n rfl
    · rfl
    · rfl
  case thermal =>
    obtain ⟨hframe, hothers, hown, hround⟩ := s.doProtect_eq n true
    refine ⟨s.doProtect n true, if_pos hdr, hframe, hothers, ?_, ?_, ?_, hround⟩ <;> rw [hown]
    · exact Bool.or_true _
    · exact s.drivenOf_protected n rfl
    · exact Bool.or_true _

/-! ## Acknowledgement (R226) -/

/-- OUTPUT_ACK has effect on DO n: it is LATCHED_OFF, its group is not in UVLO and its driver has cooled. -/
def State.ackable (s : State) (n : Nat) : Bool := (s.do_ n).latchedOff && !(s.doGroup (n / 8)).lost && !(s.do_ n).hot

/-- The entry of an output that leaves LATCHED_OFF. -/
def Do.acknowledged (d : Do) : Do := { d with latchedOff := false, protectedOff := false, retries := 0, retrying := false, await_ := true }

/-- Acknowledges one output. -/
def State.acknowledgeOne (s : State) (n : Nat) : State :=
  if s.ackable n then (s.setDo n (s.do_ n).acknowledged).raise .outputAcknowledged (mkWord [(4, 0, n)]) else s

theorem State.acknowledgeOne_doGroups (s : State) (n : Nat) : (s.acknowledgeOne n).doGroups = s.doGroups := by
  unfold State.acknowledgeOne
  split
  · exact State.raise_doGroups _ _ _
  · rfl

theorem State.acknowledgeOne_other (s : State) {n m : Nat} (h : m ≠ n) : (s.acknowledgeOne n).do_ m = s.do_ m := by
  unfold State.acknowledgeOne
  split
  · rw [State.do_raise, State.setDo_other _ _ h]
  · rfl

theorem State.acknowledgeOne_own (s : State) (n : Nat) :
    (s.acknowledgeOne n).do_ n = if s.ackable n then (s.do_ n).acknowledged else s.do_ n := by
  unfold State.acknowledgeOne
  split
  · rw [State.do_raise, State.setDo_same]
  · rfl

/-- The outputs of group `g` that an acknowledgement's mask names. -/
def ackOutputs (g mask : Nat) : List Nat := ((List.range 8).filter fun k => mask.testBit k).map fun k => 8 * g + k

theorem mem_ackOutputs {g mask m : Nat} : m ∈ ackOutputs g mask ↔ m / 8 = g ∧ mask.testBit (m % 8) = true := by
  rw [ackOutputs, mem_groupMembers fun k hk => List.mem_range.1 (List.mem_filter.1 hk).1, List.mem_filter, List.mem_range]
  exact and_congr_right fun _ => and_iff_right (Nat.mod_lt m (by decide))

theorem ackOutputs_nodup (g mask : Nat) : (ackOutputs g mask).Nodup := groupMembers_nodup g (List.nodup_range.filter _)

theorem State.acknowledge_eq (s : State) (g mask : Nat) : s.acknowledge g mask = s.each (ackOutputs g mask) State.acknowledgeOne := by
  unfold State.each ackOutputs
  rw [List.foldl_map]
  refine List.foldl_ext _ _ s fun t k hk => ?_
  have hgroup : (8 * g + k) / 8 = g := by
    have := List.mem_range.1 (List.mem_filter.1 hk).1
    omega
  unfold State.acknowledgeOne State.ackable
  rw [hgroup]
  rfl

theorem State.ackable_congr {s t : State} {n : Nat} (hgroups : t.doGroups = s.doGroups) (h : t.do_ n = s.do_ n) : t.ackable n = s.ackable n := by
  unfold State.ackable State.doGroup
  rw [h, hgroups]

/-- An acknowledgement reaches the outputs of its group that its mask names, and no other. -/
theorem State.acknowledge_do (s : State) (g mask m : Nat) : (s.acknowledge g mask).do_ m =
    if (m / 8 = g ∧ mask.testBit (m % 8) = true) ∧ s.ackable m = true then (s.do_ m).acknowledged else s.do_ m := by
  have hrow := (State.each_rows (row := State.do_) (P := fun t => t.doGroups = s.doGroups) (f := State.acknowledgeOne)
    (g := fun n => if s.ackable n then (s.do_ n).acknowledged else s.do_ n) (ackOutputs_nodup g mask) rfl
    (fun t n _ ht => (t.acknowledgeOne_doGroups n).trans ht) (fun t n m h => t.acknowledgeOne_other h)
    (fun t n _ ht h => (t.acknowledgeOne_own n).trans (by rw [State.ackable_congr ht h, h]))).2 m
  rw [State.acknowledge_eq, hrow]
  simp only [mem_ackOutputs, ite_and]

theorem runOutputAck_group {b : List Byte} (h : byteAt b 0 ≤ 3) (c : Ctx) (s : State) : runOutputAck c b s =
    s.forwardOr c (.ack (Fin.ofNat 4 (byteAt b 0)) (BitVec.ofNat 8 (byteAt b 1))) (fun s => s.acknowledge (byteAt b 0) (byteAt b 1))
      fun s => s.ok c :=
  if_neg (Nat.not_lt.2 h)
/-! ## The hold window (R229) -/

/-- What the hold latch of an output holds. -/
def Do.hold (d : Do) : Bool × Bool := (d.held, d.heldState)

theorem State.doRefresh_hold (s : State) (m n : Nat) : ((s.doRefresh m).do_ n).hold = (s.do_ n).hold := by
  by_cases h : n = m
  · rw [h, State.doRefresh_own]
    rfl
  · rw [State.doRefresh_other s h]

/-- Driving every output anew leaves the hold latches. -/
theorem State.outputsAnew_hold (s : State) (n : Nat) : (s.outputsAnew.do_ n).hold = (s.do_ n).hold :=
  (State.each_field (fun t => (t.do_ n).hold) (f := State.ucRefresh) (fun _ _ => rfl) s.doRefreshAll s.ucOutputs).trans
    (State.each_field (fun t => (t.do_ n).hold) (fun t m => t.doRefresh_hold m n) s (List.range 32))

theorem State.outputsAnew_onlyDriven (s : State) : s.onlyDriven s.outputsAnew :=
  (State.onlyDriven_each (f := State.doRefresh) (fun _ _ => rfl) s (List.range 32)).trans
    (State.onlyDriven_each (f := State.ucRefresh) (fun _ _ => rfl) s.doRefreshAll s.ucOutputs)

/-- The hold latch of each held output holds its safe state. -/
def State.holdsSafe (s : State) : State :=
  s.each (List.range 32) fun s n =>
    let v := s.doSafe n
    s.modDo n fun d => if d.held then { d with heldState := v } else d

/-- A channel that its hold holds, and no trip, holds its safe value. -/
def State.ucHoldSafe (s : State) (n : Nat) : State :=
  let v := s.ucSafe n
  s.modUc n fun u => if u.held.isSome && !u.heldTrip then { u with held := some v } else u

def State.ucHoldsSafe (s : State) : State := s.each (List.range 32) State.ucHoldSafe

theorem State.ucHoldsSafe_onlyDriven (s : State) : s.onlyDriven s.ucHoldsSafe :=
  State.onlyDriven_each (f := State.ucHoldSafe) (fun _ _ => rfl) s (List.range 32)

theorem State.ucHoldsSafe_do (s : State) (n : Nat) : s.ucHoldsSafe.do_ n = s.do_ n :=
  State.each_field (fun t => t.do_ n) (f := State.ucHoldSafe) (fun _ _ => rfl) s (List.range 32)

theorem State.holdsSafe_rows (s : State) : s.onlyDos s.holdsSafe ∧ ∀ m, s.holdsSafe.do_ m =
    if m ∈ List.range 32 then (if (s.do_ m).held then { s.do_ m with heldState := s.doSafe m } else s.do_ m) else s.do_ m := by
  refine State.each_rows (row := State.do_) (P := s.onlyDos)
    (g := fun n => if (s.do_ n).held then { s.do_ n with heldState := s.doSafe n } else s.do_ n)
    List.nodup_range s.onlyDos_refl (fun t n _ ht => ht.modDo n _) (fun t n m h => State.modDo_other t _ h) fun t n _ ht h => ?_
  have hsafe : t.doSafe n = s.doSafe n := by
    rw [ht]
    rfl
  dsimp only
  rw [State.modDo_same, h, hsafe]

/-- A held output holds its safe state. -/
theorem State.holdsSafe_hold {s : State} {n : Fin 32} (h : (s.do_ n).held = true) : (s.holdsSafe.do_ n).hold = (true, s.doSafe n) := by
  rw [s.holdsSafe_rows.2, if_pos (List.mem_range.2 n.isLt), if_pos h]
  exact congrArg (fun b => (b, s.doSafe n)) h

/-- The hold window is over. -/
def State.windowEnds (s : State) : State := { s with pair := { s.pair with holdUntil := none } }

theorem execHoldWindowExpiry_due {s : State} {u : Nat} (hu : s.pair.holdUntil = some u) (hdue : u ≤ s.now) :
    execHoldWindowExpiry s = .next s.windowEnds.holdsSafe.ucHoldsSafe.outputsAnew := by
  unfold execHoldWindowExpiry
  rw [hu]
  exact if_neg (Nat.not_lt.2 hdue)

/-! ## The refresh of the offered words (R231) -/

/-- The status word of an input depends on its own entry alone among the inputs. -/
theorem State.diStatus_of_entry {s t : State} (h : s.onlyDis t) {n : Nat} (hn : t.di n = s.di n) (at_ : Nat) :
    t.diStatus n at_ = s.diStatus n at_ := by
  unfold State.diStatus State.diUnassured
  rw [hn, h]
  rfl

/-- The status word of an output depends on its own entry alone among the outputs. -/
theorem State.doStatus_of_entry {s t : State} (h : s.onlyDos t) {n : Nat} (hn : t.do_ n = s.do_ n) : t.doStatus n = s.doStatus n := by
  unfold State.doStatus State.doTripHeld State.doCurrent
  rw [hn, h]
  rfl

/-- DSCAN offers the status words of the inputs. -/
def State.offerInputs (s : State) : State :=
  s.each (List.range 48) fun s n =>
    let w := s.diStatus n s.now
    s.modDi n fun d => { d with offered := w }

/-- DSCAN offers the status words of the outputs. -/
def State.offerOutputs (s : State) : State :=
  s.each (List.range 32) fun s n =>
    let w := s.doStatus n
    s.modDo n fun d => { d with offered := w }

/-- What an input's offer leaves of the outputs. -/
theorem State.onlyDis.outputs {s t : State} (h : s.onlyDis t) (n : Nat) : t.do_ n = s.do_ n ∧ t.doStatus n = s.doStatus n := by
  unfold State.onlyDis at h
  rw [h]
  exact ⟨rfl, rfl⟩

theorem State.onlyDos.di {s t : State} (h : s.onlyDos t) (n : Nat) : t.di n = s.di n := by
  unfold State.onlyDos at h
  rw [h]
  rfl

theorem State.onlyDis.onlyDos {s t u : State} (h : s.onlyDis t) (k : t.onlyDos u) : u = { s with dis := u.dis, dos := u.dos } := by
  unfold State.onlyDis at h
  unfold State.onlyDos at k
  rw [k, h]

theorem State.offerInputs_rows (s : State) : s.onlyDis s.offerInputs ∧
    ∀ m, s.offerInputs.di m = if m ∈ List.range 48 then { s.di m with offered := s.diStatus m s.now } else s.di m := by
  refine State.each_rows (row := State.di) (P := s.onlyDis) (g := fun n => { s.di n with offered := s.diStatus n s.now })
    List.nodup_range s.onlyDis_refl (fun t n _ ht => ht.modDi n _) (fun t n m h => State.modDi_other t _ h) fun t n _ ht h => ?_
  have hnow : t.now = s.now := by rw [ht]
  dsimp only
  rw [State.modDi_same, State.diStatus_of_entry ht h, h, hnow]

theorem State.offerOutputs_rows (s : State) : s.onlyDos s.offerOutputs ∧
    ∀ m, s.offerOutputs.do_ m = if m ∈ List.range 32 then { s.do_ m with offered := s.doStatus m } else s.do_ m := by
  refine State.each_rows (row := State.do_) (P := s.onlyDos) (g := fun n => { s.do_ n with offered := s.doStatus n })
    List.nodup_range s.onlyDos_refl (fun t n _ ht => ht.modDo n _) (fun t n m h => State.modDo_other t _ h) fun t n _ ht h => ?_
  dsimp only
  rw [State.modDo_same, State.doStatus_of_entry ht h, h]

theorem State.offerDigital_eq (s : State) : s.offerDigital = s.offerInputs.offerOutputs := rfl

theorem State.offerDigital_frame (s : State) : s.offerDigital = { s with dis := s.offerDigital.dis, dos := s.offerDigital.dos } :=
  s.offerInputs_rows.1.onlyDos s.offerInputs.offerOutputs_rows.1

theorem State.offerDigital_di (s : State) (n : Fin 48) : s.offerDigital.di n = { s.di n with offered := s.diStatus n s.now } := by
  rw [State.offerDigital_eq, s.offerInputs.offerOutputs_rows.1.di, s.offerInputs_rows.2, if_pos (List.mem_range.2 n.isLt)]

theorem State.offerDigital_do (s : State) (n : Fin 32) : s.offerDigital.do_ n = { s.do_ n with offered := s.doStatus n } := by
  obtain ⟨hentry, hword⟩ := s.offerInputs_rows.1.outputs n
  rw [State.offerDigital_eq, s.offerInputs.offerOutputs_rows.2, if_pos (List.mem_range.2 n.isLt), hentry, hword]

/-- The state whose words a refresh offers. -/
def State.refreshing (s : State) : State := { s with power := { s.power with refreshedAt := some s.now } }

theorem execSideStreetRefresh_due {s : State} (hfirst : s.beforeFirstApply = true) (hdue : s.dueEvery s.power.refreshedAt 1000000 = true) :
    execSideStreetRefresh s = .next s.refreshing.offerDigital :=
  if_pos (by rw [hfirst, hdue]; rfl)

/-- Settles O38: an acknowledgement writes the outputs it names; the hold window's end and the refresh write each entry from the state before. -/
theorem outputHoldRows : Obligations.OutputHoldRows := by
  intro s p
  refine ⟨fun hadm hg hfwd => ?ack, fun g mask m => ?entry, fun hadm hg hfwd hlane => ?forward, fun n u hu hdue hheld => ?window,
    fun n hfirst hdue => ?inputs, fun n hfirst hdue => ?outputs, fun hdue => if_neg (by simp [hdue])⟩
  case ack =>
    refine (State.command_next runOutputAck hadm).trans ?_
    rw [runOutputAck_group hg, State.forwardOr_reaches (by simp [hfwd]), State.admitted_forwards, hfwd]
    rfl
  case entry =>
    dsimp only
    rw [State.acknowledge_do]
    by_cases hg : m / 8 = g.val
    · simp only [State.ackable, Do.acknowledged, hg, BitVec.testBit_toNat, Bool.and_eq_true, Bool.not_eq_true', true_and, and_assoc]
    · rw [if_neg fun h => hg h.1.1, if_neg fun h => hg h.1]
  case forward =>
    refine (State.command_next runOutputAck hadm).trans ?_
    rw [runOutputAck_group hg, State.forwardOr_reaches (by simp [hlane]), State.admitted_forwards, hfwd]
    rfl
  case window =>
    have hhold := (State.outputsAnew_hold s.windowEnds.holdsSafe.ucHoldsSafe n).trans
      ((congrArg Do.hold (State.ucHoldsSafe_do s.windowEnds.holdsSafe n)).trans (State.holdsSafe_hold (s := s.windowEnds) hheld))
    exact ⟨_, execHoldWindowExpiry_due hu hdue,
      ((State.holdsSafe_rows _).1.onlyDriven.trans (State.ucHoldsSafe_onlyDriven _)).trans (State.outputsAnew_onlyDriven _),
      congrArg Prod.snd hhold, congrArg Prod.fst hhold⟩
  case inputs =>
    have hdi := s.refreshing.offerDigital_di n
    exact ⟨_, execSideStreetRefresh_due hfirst hdue, s.refreshing.offerDigital_frame, (congrArg Di.offered hdi :), (congrArg Di.edges hdi :)⟩
  case outputs =>
    have hdo := s.refreshing.offerDigital_do n
    exact ⟨_, execSideStreetRefresh_due hfirst hdue, (congrArg Do.offered hdo :), (congrArg Do.driven hdo :)⟩

end Sys2Proof.Machine
end

/-! # Digital inputs and group supplies

A change of an input writes its entry and makes reports (R214 to R217); the counting path writes its entry alone (R218, R219). A sample of a group
supply sets the levels that it is the second below (R227), and what a cleared level does hangs on the kind of the group (R228). -/

section
namespace Sys2Proof.Machine
open Sys2Proof

/-! ## Reports of an input (R214, R216) -/

theorem State.raiseFull_onlyPosts (s : State) {src : Nat} (h : (BitVec.ofNat 16 src).toNat ≠ 17) (k : RecKind) (v : Word) (time : Option Nat)
    (cycle : Option (BitVec 32)) : s.onlyPosts (s.raiseFull src k v time cycle) := by
  unfold State.raiseFull
  split
  · exact s.onlyPosts_refl
  · unfold State.handRecord
    dsimp only [State.mkRecord]
    rw [if_neg h]
    rfl

theorem State.onlyReports_ite {s t : State} (c : Prop) [Decidable c] (h : s.onlyReports t) : s.onlyReports (if c then t else s) := by
  split
  · exact h
  · exact s.onlyReports_refl

theorem State.diToFire_onlyReports (s : State) (n : Nat) : s.onlyReports (s.diToFire n) := State.onlyReports_ite _ rfl

/-- An edge of an input fires its source where EDGE selects it. -/
def State.fireChange (s : State) (n : Nat) (v : Bool) (t : Nat) : State :=
  let e := bits (s.sourceCfg (64 + n)) 27 26
  if (v && e % 2 == 1) || (!v && 2 ≤ e) then s.fireSourceAt (64 + n) t else s

/-- An edge of an input is recorded where SOE_RECORD asks for it. -/
def State.recordChange (s : State) (n : Nat) (v : Bool) (t : Nat) : State :=
  if s.diSoe n then s.raiseFull 8 .diEdge (mkWord [(31, 31, b2n v), (5, 0, n)]) (some t) none else s

/-- What a change of an input reports: its source, its record, and its state to FIRE. -/
def State.reportChange (s : State) (n : Nat) (v : Bool) (t : Nat) : State := ((s.fireChange n v t).recordChange n v t).diToFire n

theorem State.reportChange_onlyReports (s : State) (n : Nat) (v : Bool) (t : Nat) : s.onlyReports (s.reportChange n v t) := by
  have hfire : s.onlyReports (s.fireChange n v t) := State.onlyReports_ite _ rfl
  have hrecord : (s.fireChange n v t).onlyReports ((s.fireChange n v t).recordChange n v t) :=
    State.onlyReports_ite _ (State.raiseFull_onlyPosts _ (by decide) _ _ _ _).onlyReports
  exact (hfire.trans hrecord).trans (State.diToFire_onlyReports _ n)

/-- From `s` to `t` input `n` becomes `x`; beyond that only reports are made. -/
structure State.inputTo (n : Nat) (x : Di) (s t : State) : Prop where
  frame : t = { s with dis := t.dis, round := t.round, crossings := t.crossings, nextSend := t.nextSend, fire := t.fire }
  own : t.di n = x
  others : ∀ m, m ≠ n → t.di m = s.di m

theorem State.onlyReports.inputTo {s t : State} {n : Nat} {x : Di} (h : (s.setDi n x).onlyReports t) : State.inputTo n x s t where
  frame := by
    rw [h]
    rfl
  own := by
    rw [h]
    exact s.setDi_same n x
  others m hm := by
    rw [h]
    exact s.setDi_other x hm

/-! ## The filter (R214, R215) -/

section

variable {s : State} {n : Fin 48} {v : Bool} {a : Nat}

theorem State.filterDone_iff : s.filterDone n a = true ↔ (s.di n).filterFrom ≤ a ∧ a + s.filterNs n ≤ s.now := by
  simp [State.filterDone]

theorem State.filterDone_eq_false_iff : s.filterDone n a = false ↔ a < (s.di n).filterFrom ∨ s.now < a + s.filterNs n := by
  rw [← Bool.not_eq_true, State.filterDone_iff, not_and_or, Nat.not_le, Nat.not_le]

/-- The entry of an input whose filter accepts the level `v`, shown since `a`. -/
def State.acceptedEntry (s : State) (n : Nat) (v : Bool) (a : Nat) : Di :=
  { s.keepDi (s.di n) with level := v, lastEdge := a - 3000, edged := true, edgeCount := (s.di n).edgeCount + 1
                           edges := (s.di n).edges + 1, filterFrom := s.now, untold := false }

theorem execDiChangeAccepted_changes (hen : s.diEnable n = true) (hlevel : (s.di n).level ≠ v) (hrun : s.runs 8 = true)
    (hdone : s.filterDone n a = true) :
    execDiChangeAccepted n v a s = .next ((s.setDi n (s.acceptedEntry n v a)).reportChange n v (a - 3000)) :=
  (if_neg (by simp [hen, hrun, hdone])).trans (if_neg (by simpa using hlevel))

theorem execDiChangeAccepted_same (hen : s.diEnable n = true) (hlevel : (s.di n).level = v) (hrun : s.runs 8 = true)
    (hdone : s.filterDone n a = true) :
    execDiChangeAccepted n v a s = .next (if (s.di n).untold then (s.setDi n { s.di n with untold := false }).diToFire n else s) := by
  unfold execDiChangeAccepted
  dsimp only
  rw [if_neg (by simp [hen, hrun, hdone]), if_pos (by simpa using hlevel), apply_ite Host.Outcome.next]

theorem execDiChangeAccepted_waits (h : s.filterDone n a = false) : execDiChangeAccepted n v a s = .next s := if_pos (by simp [h])

theorem execDiChangeAccepted_asleep (h : s.runs 8 = false) : execDiChangeAccepted n v a s = .next s := if_pos (by simp [h])

end

/-! ## The counting path (R218, R219) -/

section

variable {s : State} {k : Fin 16} {r : Bool} {a : Nat}

/-- COUNT_EDGE selects rising edges, falling edges or both. -/
theorem State.countSelects_iff : s.countSelects k r = true ↔ if r then s.diCountEdge k % 2 = 1 else 2 ≤ s.diCountEdge k := by
  cases r <;> simp [State.countSelects]

theorem State.countSelects_eq_false_iff : s.countSelects k r = false ↔ if r then s.diCountEdge k % 2 ≠ 1 else s.diCountEdge k < 2 := by
  cases r <;> simp [State.countSelects]

theorem State.countDone_iff : s.countDone k r a = true ↔ (s.di k).countLevel ≠ some r ∧ (s.di k).countFrom + s.countFilterNs k ≤ a := by
  simp [State.countDone]

theorem State.countDone_eq_false_iff : s.countDone k r a = false ↔ (s.di k).countLevel = some r ∨ a < (s.di k).countFrom + s.countFilterNs k := by
  rw [← Bool.not_eq_true, State.countDone_iff, not_and_or, not_not, Nat.not_le]

/-- The entry of an input whose counting path counts an edge to the level `r` at `a`. -/
def State.countedEntry (s : State) (k : Nat) (r : Bool) (a : Nat) : Di :=
  { s.di k with raw := (s.di k).raw + 1, trail := (s.di k).trail ++ [a], countLevel := some r, countFrom := a }

theorem execPulseEdgeCounted_waits (h : s.countDone k r a = false) : execPulseEdgeCounted k r a s = .next s := if_pos (by simp [h])

theorem execPulseEdgeCounted_skips (hen : s.diEnable k = true) (hlost : (s.diGroup (k / 8)).lost = false) (hdone : s.countDone k r a = true)
    (hsel : s.countSelects k r = false) : execPulseEdgeCounted k r a s = .next (s.setDi k { s.di k with countLevel := some r, countFrom := a }) :=
  (if_neg (by simp [hen, hlost, hdone])).trans (if_pos (by simp [hsel]))

theorem execPulseEdgeCounted_counts (hen : s.diEnable k = true) (hlost : (s.diGroup (k / 8)).lost = false) (hdone : s.countDone k r a = true)
    (hsel : s.countSelects k r = true) : execPulseEdgeCounted k r a s =
      .next (if s.diThreshold k ≠ 0 ∧ s.diThreshold k ≤ ((s.di k).raw + 1 - (s.di k).thresholdBase).toNat then
        (s.setDi k { s.countedEntry k r a with thresholdBase := (s.di k).raw + 1 }).fireSourceAt (112 + k) a
      else s.setDi k (s.countedEntry k r a)) := by
  unfold execPulseEdgeCounted
  dsimp only
  rw [if_neg (by simp [hen, hlost, hdone]), if_neg (by simp [hsel]), apply_ite Host.Outcome.next]
  simp only [Bool.and_eq_true, bne_iff_ne, decide_eq_true_eq]
  rfl

end

/-- The counts of an input restart at 0. -/
def State.restartCount (s : State) (n : Nat) : State := s.modDi n fun d => { d with raw := 0, thresholdBase := 0, trail := [] }

theorem State.each_restartCount (s : State) (g : Nat) : s.onlyDis (s.each (groupOutputs g) State.restartCount) ∧
    ∀ m, (s.each (groupOutputs g) State.restartCount).di m =
      if m ∈ groupOutputs g then { s.di m with raw := 0, thresholdBase := 0, trail := [] } else s.di m :=
  State.each_rows (row := State.di) (P := s.onlyDis) (groupOutputs_nodup g) s.onlyDis_refl (fun t n _ ht => ht.modDi n _)
    (fun t n m h => t.modDi_other _ h) fun t n _ _ h => by rw [State.restartCount, State.modDi_same, h]

theorem execCountStagePowerLost_eq (s : State) (g : Fin 6) : execCountStagePowerLost g s =
    .next ((s.each (groupOutputs g) State.restartCount).modDiGroup g fun x => { x with stageReset := true }) := rfl

/-- A lost counting stage restarts the counts of its group and of no other. -/
theorem execCountStagePowerLost_rows (s : State) (g : Fin 6) : ∃ t, execCountStagePowerLost g s = .next t ∧
    t = { s with dis := t.dis, diGroups := t.diGroups } ∧
    (∀ h, t.diGroup h = if h = g.val then { s.diGroup h with stageReset := true } else s.diGroup h) ∧
    ∀ m, t.di m = if m / 8 = g then { s.di m with raw := 0, thresholdBase := 0, trail := [] } else s.di m := by
  obtain ⟨hframe, hrows⟩ := s.each_restartCount g
  rw [execCountStagePowerLost_eq]
  generalize s.each (groupOutputs g) State.restartCount = t at hframe hrows ⊢
  refine ⟨_, rfl, ?_, fun h => ?_, fun m => ?_⟩
  · rw [hframe]
    rfl
  · rw [hframe]
    split
    · subst h
      exact State.modDiGroup_same _ _ _
    · exact State.modDiGroup_other _ _ ‹_›
  · exact (hrows m).trans (if_congr mem_groupOutputs rfl rfl)

/-! ## Samples of a group supply (R227) -/

theorem below_of_le {mv limit : Nat} (h : limit ≤ mv) (run : Nat) : below mv limit run = 0 := if_neg (Nat.not_lt.2 h)

theorem below_again {mv limit run : Nat} (h : mv < limit) (hrun : 1 ≤ run) : below mv limit run = 2 := by
  rw [below, if_pos h]
  omega

section

variable {s : State} {k : GroupKind} {g : Fin 6} {mv : Nat}

theorem execGroupSupplySample_fine (hrun : s.runs 8 = true) (hg : g.val < groupCount k) (h : 19200 ≤ mv) : execGroupSupplySample k g mv s =
    .next (s.setDGroup k g { s.dGroup k g with lplus := some mv, below := 0, belowLow := 0, belowLost := 0 }) := by
  unfold execGroupSupplySample
  rw [if_neg (by simp [hrun, hg])]
  dsimp only
  rw [below_of_le h, below_of_le (by omega), below_of_le (by omega)]
  simp

theorem execGroupSupplySample_sag (hrun : s.runs 8 = true) (hg : g.val < groupCount k) (hle : 15000 ≤ mv) (hlt : mv < 19200)
    (hb : 1 ≤ (s.dGroup k g).below) (hsag : (s.dGroup k g).sag = false) : execGroupSupplySample k g mv s =
      .next ((s.setDGroup k g { s.keepGroup (s.dGroup k g) with lplus := some mv, below := 2, belowLow := 0, belowLost := 0, sag := true }).raiseGroup
        .groupSag k g) := by
  unfold execGroupSupplySample
  rw [if_neg (by simp [hrun, hg])]
  dsimp only
  rw [below_again hlt hb, below_of_le hle, below_of_le (by omega), hsag]
  simp [State.keepGroup]

theorem execGroupSupplySample_low (hrun : s.runs 8 = true) (hg : g.val < groupCount k) (hle : 12000 ≤ mv) (hlt : mv < 15000)
    (hb : 1 ≤ (s.dGroup k g).below) (hbl : 1 ≤ (s.dGroup k g).belowLow) (hlow : (s.dGroup k g).low = false) :
    let y := s.setDGroup k g { s.keepGroup (s.dGroup k g) with lplus := some mv, below := 2, belowLow := 2, belowLost := 0, sag := true, low := true }
    let z := (if (s.dGroup k g).sag = true then y else y.raiseGroup .groupSag k g).raiseGroup .groupLow k g
    execGroupSupplySample k g mv s = .next (if k = .di then z.diGroupToFire g else z) := by
  unfold execGroupSupplySample
  rw [if_neg (by simp [hrun, hg])]
  dsimp only
  rw [below_again (by omega) hb, below_again hlt hbl, below_of_le hle, hlow]
  cases hsag : (s.dGroup k g).sag <;> simp [State.keepGroup, hsag]

theorem execGroupSupplySample_lost (hrun : s.runs 8 = true) (hg : g.val < groupCount .di) (hlt : mv < 12000) (hb : 1 ≤ (s.diGroup g).below)
    (hbl : 1 ≤ (s.diGroup g).belowLow) (hbo : 1 ≤ (s.diGroup g).belowLost) (hsag : (s.diGroup g).sag = true)
    (hlow : (s.diGroup g).low = true) (hlost : (s.diGroup g).lost = false) :
    execGroupSupplySample .di g mv s = .next (((s.setDiGroup g { s.keepGroup (s.diGroup g) with
      lplus := some mv, below := 2, belowLow := 2, belowLost := 2, lost := true, lostEvents := satInc (s.diGroup g).lostEvents }).raiseGroup
        .groupUvlo .di g).dropCounting g |>.diGroupToFire g) := by
  unfold execGroupSupplySample
  rw [if_neg (by simp [hrun, hg])]
  dsimp only [State.dGroup]
  rw [below_again (by omega) hb, below_again (by omega) hbl, below_again hlt hbo]
  simp [hsag, hlow, hlost, State.keepGroup, State.setDGroup]

/-- The UVLO comparator of an output group is in hardware: a sample counts its run below and does no more. -/
theorem execGroupSupplySample_outputs (hrun : s.runs 8 = true) (hg : g.val < groupCount .do_) (hlt : mv < 12000) (hb : 1 ≤ (s.doGroup g).below)
    (hbl : 1 ≤ (s.doGroup g).belowLow) (hbo : 1 ≤ (s.doGroup g).belowLost) (hsag : (s.doGroup g).sag = true) (hlow : (s.doGroup g).low = true) :
    execGroupSupplySample .do_ g mv s =
      .next (s.setDoGroup g { s.doGroup g with lplus := some mv, below := 2, belowLow := 2, belowLost := 2 }) := by
  unfold execGroupSupplySample
  rw [if_neg (by simp [hrun, hg])]
  dsimp only [State.dGroup]
  rw [below_again (by omega) hb, below_again (by omega) hbl, below_again hlt hbo]
  have hkind : (GroupKind.do_ == GroupKind.di) = false := rfl
  simp [hkind, hsag, hlow, State.setDGroup]

/-! ## Levels that clear (R227, R228) -/

theorem execGroupLevelClear_sag (hrun : s.runs 8 = true) (hg : g.val < groupCount k) (hsag : (s.dGroup k g).sag = true) :
    execGroupLevelClear k g .sag s = .next (s.setDGroup k g { s.keepGroup (s.dGroup k g) with sag := false, below := 0 }) :=
  (if_neg (by simp [State.levelRuns, hrun, hg])).trans (if_pos hsag)

theorem execGroupLevelClear_low (hrun : s.runs 8 = true) (hg : g.val < groupCount k) (hlow : (s.dGroup k g).low = true) :
    let t := s.setDGroup k g { s.keepGroup (s.dGroup k g) with low := false, belowLow := 0 }
    execGroupLevelClear k g .low s = .next (if k = .di then t.diGroupToFire g else t) := by
  refine ((if_neg (by simp [State.levelRuns, hrun, hg])).trans (if_pos hlow)).trans ?_
  cases k <;> rfl

theorem State.uvloRecovered_service (s : State) (n : Nat) : (s.uvloRecovered n).service = s.service := by
  unfold State.uvloRecovered
  split <;> rfl

/-- The service stays as it is while the outputs of a group recover, so one service decides for all of them. -/
theorem State.each_uvloRecovered {t : State} (ht : t.service = s.service) (l : List Nat) : t.each l State.uvloRecovered = t.each l fun u n =>
    if s.service = .sideStreet then
      (u.setDo n { u.do_ n with latchedOff := (u.do_ n).latchedOff || (u.doLatch n && (u.do_ n).selected) }).doRefresh n
    else u.setDo n { u.do_ n with await_ := true, recovered := true } := by
  refine State.each_congr (P := fun t => t.service = s.service) (fun t n h => (t.uvloRecovered_service n).trans h) (fun t n h => ?_) ht l
  unfold State.uvloRecovered
  simp only [h, beq_iff_eq]

theorem execGroupLevelClear_inputs (hrun : s.runs 8 = true) (hg : g.val < groupCount .di) (hlost : (s.diGroup g).lost = true) :
    execGroupLevelClear .di g .lost s = .next ((((s.setDiGroup g { s.keepGroup (s.diGroup g) with lost := false, belowLost := 0 }).raiseGroup
      .groupRecovered .di g).dropCounting g).diGroupToFire g) :=
  (if_neg (by simp [State.levelRuns, hrun, hg])).trans (if_pos hlost)

theorem execGroupLevelClear_outputs (hg : g.val < groupCount .do_) (hlost : (s.doGroup g).lost = true) :
    execGroupLevelClear .do_ g .lost s = .next (((s.setDoGroup g { s.keepGroup (s.doGroup g) with lost := false, belowLost := 0 }).raiseGroup
      .groupRecovered .do_ g).each (groupOutputs g) State.uvloRecovered) :=
  (if_neg (by simp [State.levelRuns, hg])).trans (if_pos hlost)

theorem execGroupLevelClear_asleep {l : GroupLevel} (hrun : s.runs 8 = false) (h : k = .di ∨ l ≠ .lost) : execGroupLevelClear k g l s = .next s :=
  if_pos (by rcases h with rfl | h <;> simp [State.levelRuns, *])

end

/-! ## UVLO of an output group (R227, R229) -/

theorem groupUvlo_source : (BitVec.ofNat 16 RecKind.groupUvlo.source).toNat ≠ 17 := by decide

theorem State.refreshed_off {s : State} {n : Nat} {d : Do} (h : s.drivenOf n d = false) :
    s.refreshed n d = { d with driven := false, onSince := none } := by
  unfold State.refreshed
  rw [h]
  rfl

theorem State.onlyPosts.onlyDos {s t u : State} (h : s.onlyPosts t) (k : t.onlyDos u) :
    u = { s with dos := u.dos, crossings := u.crossings, nextSend := u.nextSend } := by
  unfold State.onlyPosts at h
  unfold State.onlyDos at k
  rw [k, h]

/-- The entry of an output group with its UVLO known. -/
def State.uvloEntry (s : State) (g mv : Nat) : DGroup :=
  { s.doGroup g with lplus := some mv, lost := true, lostEvents := satInc (s.doGroup g).lostEvents }

/-- The state in which a UVLO of group `g` is known and reported, before its outputs go off. -/
def State.uvloRaised (s : State) (g mv : Nat) : State := (s.setDoGroup g (s.uvloEntry g mv)).raiseGroup .groupUvlo .do_ g

theorem State.uvloRaised_onlyPosts (s : State) (g mv : Nat) : (s.setDoGroup g (s.uvloEntry g mv)).onlyPosts (s.uvloRaised g mv) :=
  State.raiseFrom_onlyPosts _ groupUvlo_source _ _

theorem State.uvloRaised_own (s : State) (g mv : Nat) : (s.uvloRaised g mv).doGroup g = s.uvloEntry g mv := by
  have h := s.uvloRaised_onlyPosts g mv
  generalize s.uvloRaised g mv = t at h ⊢
  rw [h]
  exact s.setDoGroup_same g (s.uvloEntry g mv)

/-- An output whose group has lost its supply drops its hold and goes off. -/
def State.uvloDrops (s : State) (n : Nat) : State := (s.modDo n fun d => { d with held := false }).doRefresh n

theorem execGroupUvlo_drops {s : State} {g : Fin 4} (h : (s.doGroup g).lost = false) (mv : Nat) :
    execGroupUvlo g mv s = .next ((s.uvloRaised g mv).each (groupOutputs g) State.uvloDrops) :=
  if_neg (by simp [h])

/-- Outputs of a group whose supply is lost go off, drop their holds, and no other output changes. -/
theorem State.each_uvloDrops {s : State} {g : Nat} (hlost : (s.doGroup g).lost = true) :
    s.onlyDos (s.each (groupOutputs g) State.uvloDrops) ∧ ∀ m, (s.each (groupOutputs g) State.uvloDrops).do_ m =
      if m ∈ groupOutputs g then { s.do_ m with held := false, driven := false, onSince := none } else s.do_ m := by
  refine State.each_rows (row := State.do_) (P := s.onlyDos) (g := fun m => { s.do_ m with held := false, driven := false, onSince := none })
    (groupOutputs_nodup g) s.onlyDos_refl (fun t n _ ht => (ht.modDo n _).doRefresh n) (fun t n m h => ?_) fun t n hn ht h => ?_
  · exact (State.doRefresh_other _ h).trans (t.modDo_other _ h)
  · have hdown : (t.doGroup (n / 8)).lost = true := by
      rw [ht, mem_groupOutputs.1 hn]
      exact hlost
    unfold State.uvloDrops
    rw [State.modDo_def, State.doRefresh_setDo, State.refreshed_off (t.drivenOf_lost hdown _), h]

theorem execGroupUvlo_rows {s : State} {g : Fin 4} (h : (s.doGroup g).lost = false) (mv : Nat) : ∃ t, execGroupUvlo g mv s = .next t ∧
    t = { s with dos := t.dos, doGroups := t.doGroups, crossings := t.crossings, nextSend := t.nextSend } ∧
    (∀ h, t.doGroup h = if h = g.val then { s.doGroup h with lplus := some mv, lost := true, lostEvents := satInc (s.doGroup h).lostEvents }
      else s.doGroup h) ∧
    (∀ m : Nat, m / 8 ≠ g.val → t.do_ m = s.do_ m) ∧ ∀ k < 8, (t.do_ (8 * g + k)).driven = false ∧ (t.do_ (8 * g + k)).held = false := by
  obtain ⟨hdos, hrows⟩ := State.each_uvloDrops (congrArg DGroup.lost (s.uvloRaised_own g mv))
  have hframe := (s.uvloRaised_onlyPosts g mv).onlyDos hdos
  rw [execGroupUvlo_drops h]
  generalize (s.uvloRaised g mv).each (groupOutputs g) State.uvloDrops = t at hframe hrows ⊢
  refine ⟨_, rfl, ?_, fun h => ?_, fun m hm => ?_, fun k hk => ?_⟩
  · rw [hframe]
    rfl
  · rw [hframe]
    split
    · subst h
      exact s.setDoGroup_same g (s.uvloEntry g mv)
    · exact s.setDoGroup_other (s.uvloEntry g mv) ‹_›
  · rw [hrows, if_neg (mt mem_groupOutputs.1 hm)]
    exact State.do_raise _ _ _ m
  · rw [hrows, if_pos (mem_groupOutputs.2 (by omega))]
    exact ⟨rfl, rfl⟩

/-- The statement's places `m` are of the type of `g`, so they are the outputs 0 to 3, all of group 0, and `m / 8` is 0 there too. -/
theorem uvloGroup_ne : ∀ g m : Fin 4, m / 8 ≠ g → m.val / 8 ≠ g.val := by decide

/-- Settles O36: each event is the branch of its conditions; what a lost stage or a UVLO does to a group is said of each of its members. -/
theorem digitalFieldRows : Obligations.DigitalFieldRows := by
  refine ⟨fun s n => ⟨fun v a hen hlevel hrun hfrom hlong => ?change, fun v a h => execDiChangeAccepted_waits (State.filterDone_eq_false_iff.2 h),
      fun v a hen hlevel hrun hfrom hlong => execDiChangeAccepted_same hen hlevel hrun (State.filterDone_iff.2 ⟨hfrom, hlong⟩),
      fun hrun => ⟨fun v a => execDiChangeAccepted_asleep hrun, if_pos (by simp [hrun]), if_pos (by simp [hrun])⟩,
      fun k r a hen hlost hlevel hlong => ?edge, fun k r a h => execPulseEdgeCounted_waits (State.countDone_eq_false_iff.2 h),
      execCountStagePowerLost_rows s, fun hrun hen hwire hno hlost => if_neg (by simp [hrun, hen, hwire, hno, hlost]),
      fun hrun hwire hlost => if_neg (by simp [hrun, hwire, hlost])⟩,
    fun s => ⟨fun k g mv hrun hg h => execGroupSupplySample_fine hrun hg h,
      fun k g mv hrun hg hle hlt hb hsag => execGroupSupplySample_sag hrun hg hle hlt hb hsag,
      fun k g mv hrun hg hle hlt hb hbl hlow => execGroupSupplySample_low hrun hg hle hlt hb hbl hlow,
      fun k g mv hrun hg hlt hb hbl hbo hsag hlow hlost => ?sample, fun k g hg => ?clear, fun g mv hlost => ?uvlo,
      fun g ma hrun hno => if_neg (by simp [hrun, hno]), fun g ma hrun hover => if_neg (by simp [hrun, hover]),
      fun hrun => ⟨fun k g mv => if_pos (by simp [hrun]), fun k g l h => execGroupLevelClear_asleep hrun h,
        fun g ma => ⟨if_pos (by simp [hrun]), if_pos (by simp [hrun])⟩⟩⟩⟩
  case change =>
    obtain ⟨hframe, hown, hothers⟩ := ((s.setDi n (s.acceptedEntry n v a)).reportChange_onlyReports n v (a - 3000)).inputTo
    exact ⟨_, execDiChangeAccepted_changes hen hlevel hrun (State.filterDone_iff.2 ⟨hfrom, hlong⟩), hframe, hown, hothers⟩
  case edge =>
    have hdone := State.countDone_iff.2 ⟨hlevel, hlong⟩
    refine ⟨fun hsel hth => ?_, fun hsel => execPulseEdgeCounted_skips hen hlost hdone (State.countSelects_eq_false_iff.2 hsel),
      fun hsel hth => ?_⟩
    · refine (execPulseEdgeCounted_counts hen hlost hdone (State.countSelects_iff.2 hsel)).trans ?_
      rw [if_neg fun h => h.1 hth]
      rfl
    · refine (execPulseEdgeCounted_counts hen hlost hdone (State.countSelects_iff.2 hsel)).trans ?_
      simp only [ne_eq, hth, not_false_eq_true, true_and]
      rfl
  case sample =>
    cases k with
    | di => exact execGroupSupplySample_lost hrun hg hlt hb hbl hbo hsag hlow hlost
    | do_ => exact execGroupSupplySample_outputs hrun hg hlt hb hbl hbo hsag hlow
  case clear =>
    refine ⟨fun hrun hsag => execGroupLevelClear_sag hrun hg hsag, fun hrun hlow => execGroupLevelClear_low hrun hg hlow, fun hruns hlost => ?_⟩
    cases k with
    | di => exact execGroupLevelClear_inputs (hruns.resolve_right (by decide)) hg hlost
    | do_ => exact (execGroupLevelClear_outputs hg hlost).trans (congrArg Host.Outcome.next (State.each_uvloRecovered (State.raise_service _ _ _) _))
  case uvlo =>
    obtain ⟨t, ht, hframe, hgroups, hothers, hmembers⟩ := execGroupUvlo_rows hlost mv
    exact ⟨t, ht, hframe, hgroups, fun m hm => hothers m (uvloGroup_ne g m hm), hmembers⟩

end Sys2Proof.Machine
end

/-! # Frames of the CAN ports

Each event of a frame is one branch of its function. A received frame that no station names goes to message RAM (R246); a window whose words are neither
poisoned nor under repair offers its slot's frame (R257, R343), and a frame starts on the bus where nothing goes before it (R260). -/

section
namespace Sys2Proof.Machine
open Sys2Proof

/-! ## The entry of a port on the bus -/

theorem Can.active_ne_new {c : Can} (h : c.active = true) : c ≠ {} := by
  rintro rfl
  exact absurd h (by decide)

theorem Can.active_not_monitoring {c : Can} (h : c.active = true) : (c.state == .monitoring) = false := by
  obtain h | h : c.state = .errorActive ∨ c.state = .errorPassive := by simpa [Can.active] using h
  all_goals rw [h]; rfl

/-- Of two writes of a port that is on the bus the later stays. -/
theorem State.setCan_setCan (s : State) (i : Nat) {x y : Can} (hx : x.active = true) (hy : y.active = true) :
    (s.setCan i x).setCan i y = s.setCan i y := by
  simp only [State.setCan, Tab.set, if_neg (Can.active_ne_new hx), if_neg (Can.active_ne_new hy), Tab.put_put]

theorem State.active_of_canSends {s : State} {n : Nat} (h : s.canSends n = true) : (s.can n).active = true := by
  simp only [State.canSends, Bool.and_eq_true] at h
  obtain ⟨⟨hactive, -⟩, -⟩ := h
  exact hactive

/-! ## What hangs on the configuration and the committed words alone -/

theorem State.modCan_inputOf (s : State) (i : Nat) (g : Can → Can) (p : Nat) (f : CanFrame) (k : Nat) :
    (s.modCan i g).inputOf p f k = s.inputOf p f k := rfl

theorem State.modCan_inKind (s : State) (i : Nat) (g : Can → Can) (k : Nat) : (s.modCan i g).inKind k = s.inKind k := rfl

theorem State.modCan_slotFrame (s : State) (i : Nat) (g : Can → Can) (p t : Nat) (bad : List Nat) :
    (s.modCan i g).slotFrame p t bad = s.slotFrame p t bad := rfl

/-! ## Received frames (R246) -/

theorem State.recGood_zero {s : State} {p : Nat} (h : (s.can p).rec_ = 0) : s.recGood p = s := if_pos (by simp [h])

/-- A data frame that names no frame of a station goes to message RAM. -/
theorem State.dispose_stores {s : State} {p : Nat} {f : CanFrame} (hactive : (s.can p).active = true) (hdata : f.rtr = false)
    (hin : s.inputOf p f 1 = none) (hout : s.inputOf p f 2 = none) : s.dispose p f = s.storeFrame p f := by
  unfold State.dispose
  simp [hin, hout, hdata, Can.active_not_monitoring hactive]

/-- With REC at 0 and no input of FIRE on CAN frames, a received frame counts and is disposed of. -/
theorem execCanFrameReceived_disposes {s : State} {p : Fin 2} {f : CanFrame} (hruns : s.canRuns p = true) (hactive : (s.can p).active = true)
    (hfd : f.fdf = true → s.canFd p = true) (hrec : (s.can p).rec_ = 0) (hfire : ∀ i < 32, s.inKind i ≠ 5) :
    execCanFrameReceived p f s = .next ((s.modCan p fun c => { c with rxFrames := c.rxFrames + 1 }).dispose p f) := by
  unfold execCanFrameReceived
  extract_lets c t named u
  have hform : (f.fdf && !s.canFd p) = false := by simpa using hfd
  have ht : t = s.modCan p fun c => { c with rxFrames := c.rxFrames + 1 } := State.recGood_zero (by simpa using hrec)
  have hnamed : named = false := by
    simp only [named, ht, State.modCan_inKind, List.any_eq_false, List.mem_range]
    intro i hi
    simp [hfire i hi]
  have hu : u = t := if_neg (by simp [hnamed])
  rw [if_neg (by simp [c, hruns, hactive]), if_neg (by simp [hform]), hu, ht]

/-! ## Frames that end (R244, R257) -/

theorem execCanTxComplete_ok {s : State} {p : Fin 2} {j : TxJob} {f : CanFrame} (htx : (s.can p).tx = some (j, f)) (hruns : s.canRuns p = true)
    (at_ d : Nat) : execCanTxComplete p .ok at_ d s =
      .next ((((s.setCan p { s.can p with tx := none, txDelay := if f.brs ∧ d ≠ 0 then min 127 d else (s.can p).txDelay
                                          txFrames := (s.can p).txFrames + 1, tec := (s.can p).tec - 1, sent := some f, txOk := true }).judgeCan p).jobDone
        p j f true at_).busIdle p) := by
  unfold execCanTxComplete
  dsimp only
  rw [htx]
  simp [hruns]

/-! ## Windows (R257, R343) -/

/-- A change that leaves the port's entry as it is leaves no trace once the window is served. -/
theorem State.serve_modCan {s : State} {p : Nat} (hactive : (s.can p).active = true) {g : Can → Can} (hg : g (s.can p) = s.can p) (col : Nat) :
    (s.modCan p g).serve p col = s.serve p col := by
  unfold State.serve
  rw [State.modCan_def, State.modCan_same, State.modCan_def s p g, hg]
  exact State.setCan_setCan s p hactive hactive

/-- Where no error stands the words of a frame wait for a repair alone. -/
theorem State.frameGate_clear {s : State} {p : Nat} (hclear : s.upsets = []) (hno : (s.can p).building = none) (col from_ : Nat) (at_ : List Nat) :
    s.frameGate p col from_ at_ =
      if at_.any (s.locked 2) then (s.modCan p fun c => { c with building := some (col, from_, []) }, none)
      else (s.modCan p fun c => { c with building := none }, some []) := by
  unfold State.frameGate
  simp [hno, State.badOf_clear hclear, State.readWords_clear hclear]

/-- A window for a transmit slot that has opened and is not served yet: the slot's frame is built, waits, or is given up. -/
theorem execCanWindowStart_slot {s : State} {p : Fin 2} {k : Fin 32} {a z : Nat} (hstart : s.windowStart p k = some a) (hend : s.windowEnd p k = some z)
    (hfull : s.service = .full) (hsends : s.canSends p = true) (hsched : s.canSchedule p ≠ 0) (hopen : a ≤ s.now) (hclose : s.now < z)
    (hserved : (s.can p).served.contains k.val = false) (hkind : cellKind (s.cellWord p (s.can p).row k) = 1)
    (hcontent : cellContent (s.cellWord p (s.can p).row k) = 0) :
    let t := cellSlot (s.cellWord p (s.can p).row k)
    execCanWindowStart p k s = match s.frameGate p k a (s.nAddrs (s.slotWords p t)) with
      | (s, none) => .next s
      | (s, some bad) => match (s.serve p k).slotFrame p t bad with
        | none => .next ((s.serve p k).abandonFrame p 1 t)
        | some f => .next ((s.serve p k).offerFrame p (.slot t false 0 z) f z) := by
  intro t
  unfold execCanWindowStart
  dsimp only
  rw [hstart, hend]
  dsimp only
  rw [if_neg (by simpa [hfull, hsends, hsched, Nat.not_lt_of_le hopen, Nat.not_le_of_lt hclose] using hserved), hkind, hcontent]
  rfl

/-! ## Frames that start (R255, R257, R260) -/

theorem State.offerFrame_busy {s : State} {p : Nat} (hbusy : (s.can p).tx.isSome = true) (j : TxJob) (f : CanFrame) (z : Nat) :
    s.offerFrame p j f z = s.modCan p fun c => { c with winWait := c.winWait ++ [(j, f, z)] } := if_pos hbusy

theorem State.offerFrame_starts {s : State} {p : Nat} (hidle : (s.can p).tx = none) (j : TxJob) {f : CanFrame} {z : Nat}
    (hfits : s.now + s.frameUsOf p f * 1000 ≤ z) : s.offerFrame p j f z = s.startFrame p j f := by
  unfold State.offerFrame
  rw [if_neg (by simp [hidle])]
  exact if_pos hfits

/-- Without a schedule and with nothing before it, the first queued frame starts. -/
theorem execCanQueuedFrameSend_starts {s : State} {p : Fin 2} {f : CanFrame} {l : List CanFrame} (hsends : s.canSends p = true)
    (hidle : (s.can p).tx = none) (href : (s.can p).refWait = none) (hwin : (s.can p).winWait = []) (hem : (s.can p).emergency = [])
    (hqueue : (s.can p).queue = f :: l) (hfull : s.service = .full) (hsched : s.canSchedule p = 0) :
    execCanQueuedFrameSend p s = .next (s.startFrame p .queued f) := by
  unfold execCanQueuedFrameSend
  dsimp only
  rw [if_neg (by simp [hsends, hidle, href, hwin]), hem, hqueue]
  exact if_pos (by simp [hfull, hsched])

theorem execBasicCycleStart_sends {s : State} {p : Fin 2} (hfull : s.service = .full) (hsched : s.canSchedule p = 1) (hsends : s.canSends p = true)
    (href : (s.can p).refWait = none) (hidle : (s.can p).tx = none) (hin : (s.can p).tIn = none) (hgap : (s.can p).gap = false) :
    execBasicCycleStart p s = .next (s.sendRef p 3) := by
  unfold execBasicCycleStart
  dsimp only
  rw [if_pos (by simp [hfull, hsched, hsends, href, hidle, hin, hgap])]

/-- Settles O35: each event is the branch of its conditions, and a slot's window by what `State.frameGate` finds of the words of its slot. -/
theorem canFrameRows : Obligations.CanFrameRows := by
  unfold Obligations.CanFrameRows
  intro s n
  refine ⟨?received, fun j f at_ d htx hruns => execCanTxComplete_ok htx hruns at_ d, ?offered, ?waits,
    fun j f z => ⟨fun hbusy => State.offerFrame_busy hbusy j f z, fun hidle hfits => State.offerFrame_starts hidle j hfits⟩,
    fun f l hsends hidle href hwin hem hqueue hfull hsched => execCanQueuedFrameSend_starts hsends hidle href hwin hem hqueue hfull hsched,
    fun hfull hsched hsends href hidle hin hgap => execBasicCycleStart_sends hfull hsched hsends href hidle hin hgap⟩
  case received =>
    intro f hruns hactive hfd hrec hdata hin hout hfire
    refine (execCanFrameReceived_disposes hruns hactive hfd hrec hfire).trans (congrArg Host.Outcome.next ?_)
    have hcounted : ((s.modCan n fun c => { c with rxFrames := c.rxFrames + 1 }).can n).active = true := by rwa [State.modCan_same]
    exact State.dispose_stores hcounted hdata ((State.modCan_inputOf ..).trans hin) ((State.modCan_inputOf ..).trans hout)
  case offered =>
    intro k a z f hstart hend hfull hsends hsched hopen hclose hserved hkind hcontent hquiet hno hframe
    obtain ⟨hlocks, hupsets⟩ := (State.quiet_iff s).1 hquiet
    have hactive := State.active_of_canSends hsends
    have hfree : ∀ l : List Nat, l.any (s.locked 2) = false := fun l => by simp [State.locked_clear hlocks]
    have hserve : (s.modCan n fun c => { c with building := none }).serve n k = s.serve n k := State.serve_modCan hactive (by rw [← hno]) k
    have hslot : (s.serve n k).slotFrame n (cellSlot (s.cellWord n (s.can n).row k)) [] = some f :=
      (State.modCan_slotFrame ..).trans hframe
    refine (execCanWindowStart_slot hstart hend hfull hsends hsched hopen hclose hserved hkind hcontent).trans ?_
    rw [State.frameGate_clear hupsets hno, hfree, if_neg Bool.false_ne_true]
    dsimp only
    rw [hserve, hslot]
    rfl
  case waits =>
    intro k a z l hstart hend hfull hsends hsched hopen hclose hserved hkind hcontent hupsets hno hl hlocked
    refine (execCanWindowStart_slot hstart hend hfull hsends hsched hopen hclose hserved hkind hcontent).trans ?_
    rw [State.frameGate_clear hupsets hno, ← hl, hlocked]
    rfl

end Sys2Proof.Machine
end

/-! # The Fire Lane judges (R274, R276 to R279, R282, R285)

A delivery writes one slot, an evaluation the functions. What a trip moves (outputs, the line, the plate) touches neither the functions' entries nor
the time, which is said once, of the two read together. -/

section
namespace Sys2Proof.Machine
open Sys2Proof

theorem exec_fireInputDelivery (s : State) : exec .fireInputDelivery s = execFireInputDelivery s := rfl
theorem exec_fireTimeoutCheck (s : State) : exec .fireTimeoutCheck s = execFireTimeoutCheck s := rfl
theorem exec_fireActionComplete (s : State) (f : Fin 16) : exec (.fireActionComplete f) s = execFireActionComplete f s := rfl
theorem exec_tripOutputFailed (s : State) (o : Fin 24) : exec (.tripOutputFailed o) s = execTripOutputFailed o s := rfl
theorem exec_fireFrameRepeat (s : State) (o : Fin 24) : exec (.fireFrameRepeat o) s = execFireFrameRepeat o s := rfl
theorem exec_tripCutInput (s : State) (v : Bool) : exec (.tripCutInput v) s = execTripCutInput v s := rfl

/-! ## Slots (R274) -/

/-- The record of a rise of UNASSURED leaves FIRE as the slot was written. -/
theorem State.putSlot_fire (s : State) (i : Nat) (x : FireSlot) : (s.putSlot i x).fire = (s.setFireSlot i x).fire := by
  unfold State.putSlot
  dsimp only
  split
  · exact State.raise_fire _ _ _
  · rfl

@[simp] theorem State.putSlot_same (s : State) (i : Nat) (x : FireSlot) : (s.putSlot i x).fireSlot i = x := by
  rw [State.fireSlot, State.putSlot_fire]
  exact s.setFireSlot_same i x

theorem State.putSlot_other (s : State) {i j : Nat} (x : FireSlot) (h : j ≠ i) : (s.putSlot i x).fireSlot j = s.fireSlot j := by
  rw [State.fireSlot, State.putSlot_fire]
  exact s.setFireSlot_other x h

/-- A delivery writes its slot and no other. -/
theorem State.deliverSlot_slots (s : State) (i : Nat) (cond : Option Bool) (reason : Nat) :
    (s.deliverSlot i cond reason).fireSlot i = { condition := cond.getD (s.fireSlot i).condition, unassured := reason != 0
                                                 reason := reason, lastAt := some s.now } ∧
      ∀ j, j ≠ i → (s.deliverSlot i cond reason).fireSlot j = s.fireSlot j :=
  ⟨s.putSlot_same i _, fun _ h => s.putSlot_other _ h⟩

/-- A delivery that gives a condition; the slot is unassured where a reason stands. -/
theorem State.deliverSlot_some (s : State) (i : Nat) (cond : Bool) {reason : Nat} {bad : Bool} (hbad : (reason != 0) = bad) :
    (s.deliverSlot i (some cond) reason).fireSlot i = { condition := cond, unassured := bad, reason := reason, lastAt := some s.now } ∧
      ∀ j, j ≠ i → (s.deliverSlot i (some cond) reason).fireSlot j = s.fireSlot j :=
  hbad ▸ s.deliverSlot_slots i (some cond) reason

/-- A slot with a reason among those of R291 is unassured. -/
theorem diReason_ne_zero (wb sup st : Bool) : (diReason wb sup st != 0) = (sup || wb || st) := by
  cases sup <;> cases wb <;> cases st <;> rfl

section
variable {s : State} {i : Nat}

theorem State.slotMessage_di (h : s.inKind i = 1) (n : Nat) (level wb sup st : Bool) : State.slotMessage (.di n level wb sup st) s i =
    if s.inRef i == n then s.deliverSlot i (some (level == bit (s.inWord i 0) 26)) (diReason wb sup st) else s := by
  unfold State.slotMessage
  rw [h]
  rfl

theorem State.slotMessage_uc (h : s.inKind i = 2 ∨ s.inKind i = 3) (n : Nat) (v : Int) (bad : Bool) : State.slotMessage (.uc n (some v) bad) s i =
    if s.inRef i != n then s else s.deliverSlot i (some (s.analogCondition i v)) (if bad then 5 else 0) := by
  unfold State.slotMessage
  obtain h | h := h <;> rw [h] <;> rfl

theorem State.slotMessage_ring (h : s.inKind i = 4) (a : BitVec 16) (states : BitVec 256) : State.slotMessage (.ring a states) s i =
    if s.inRef i == a.toNat || (bit (s.inWord i 2) 31 && bits (s.inWord i 2) 25 16 == a.toNat) then
      s.deliverSlot i (some (states.getLsbD (bits (s.inWord i 1) 7 0))) 0
    else s := by
  unfold State.slotMessage
  rw [h]
  rfl

theorem State.slotMessage_can (h : s.inKind i = 5) (k : Nat) (xtd : Bool) (id : BitVec 29) (b : Nat) : State.slotMessage (.can k xtd id b) s i =
    if b ≤ 1 && s.canMatches i k xtd id then s.deliverSlot i (some (b == 1)) 0 else s := by
  unfold State.slotMessage
  rw [h]
  rfl

theorem State.slotMessage_request (h : s.inKind i = 6) (b po : BitVec 16) : State.slotMessage (.request b po) s i =
    if po.getLsbD (s.inRef i) then s.deliverSlot i none 4 else s.deliverSlot i (some (b.getLsbD (s.inRef i))) 0 := by
  unfold State.slotMessage
  rw [h]
  rfl

/-- The comparison of an analog slot, with THRESHOLD and HYST as its words hold them. -/
theorem State.analogCondition_eq (s : State) (i : Nat) (v : Int) : s.analogCondition i v =
    decide (if s.inKind i = 2 then (if (s.fireSlot i).condition then sInt (s.inWord i 1) - ((s.inWord i 2).toNat : Int) ≤ v else sInt (s.inWord i 1) < v)
      else (if (s.fireSlot i).condition then v ≤ sInt (s.inWord i 1) + ((s.inWord i 2).toNat : Int) else v < sInt (s.inWord i 1))) := by
  unfold State.analogCondition State.inThreshold State.inHyst
  by_cases hk : s.inKind i = 2 <;> cases (s.fireSlot i).condition <;> simp [hk]

/-! ## The times of the slots (R274, R276) -/

theorem State.slotLimit_uc (h : s.inKind i = 2 ∨ s.inKind i = 3) : s.slotLimit i = some (3 * s.ucPeriod (s.inRef i) + 1000000) := by
  unfold State.slotLimit
  obtain h | h := h <;> rw [h] <;> rfl

theorem State.slotLimit_frame (h : s.inKind i = 4 ∨ s.inKind i = 5) (hn : s.inTimeoutNs i ≠ 0) : s.slotLimit i = some (s.inTimeoutNs i) := by
  have hms : bits (s.inWord i 0) 15 0 ≠ 0 := fun h0 => hn (by rw [State.inTimeoutNs, h0])
  unfold State.slotLimit
  obtain h | h := h <;> rw [h] <;> exact if_neg hms

theorem State.slotTimeout_eq {lim t : Nat} (hlim : s.slotLimit i = some lim) (ht : (s.fireSlot i).lastAt = some t) : s.slotTimeout i =
    if t + lim < s.now then
      s.putSlot i { s.fireSlot i with unassured := true
                                      reason := if (s.fireSlot i).unassured && (s.fireSlot i).reason < 3 then (s.fireSlot i).reason else 3 }
    else s := by
  unfold State.slotTimeout
  rw [hlim, ht]

/-! ## What is counted (R274) -/

theorem State.inCounted_used (h0 : s.inKind i ≠ 0) (h7 : s.inKind i ≠ 7) :
    s.inCounted i = ((s.fireSlot i).condition || (s.inUnassured i && bit (s.inWord i 0) 27)) := by
  unfold State.inCounted
  split
  · contradiction
  · contradiction
  · rfl

theorem State.inCounted_unused (h : s.inKind i = 0 ∨ s.inKind i = 7) : s.inCounted i = false := by
  unfold State.inCounted
  obtain h | h := h <;> rw [h] <;> rfl

end

/-- The input slots that are counted are those of the mask that count (R276). -/
theorem State.votes_eq (s : State) (f : Nat) : s.votes f = ((List.range 32).filter fun i => bit (s.fnWord f 1) i && s.inCounted i).length := by
  rw [State.votes, State.fnSlots, List.filter_filter]
  exact congrArg (fun q => ((List.range 32).filter q).length) (funext fun i => Bool.and_comm ..)

/-! ## What a trip moves leaves the functions and the time -/

/-- The entries of the functions, and the time. -/
def State.fnsNow (s : State) : Tab FireFn × Nat := (s.fire.fns, s.now)

theorem State.fireFn_of_fnsNow {s t : State} (h : t.fnsNow = s.fnsNow) (g : Nat) : t.fireFn g = s.fireFn g :=
  congrArg (fun p : Tab FireFn × Nat => Tab.get ({} : FireFn) p.1 g) h

theorem State.now_of_fnsNow {s t : State} (h : t.fnsNow = s.fnsNow) : t.now = s.now := congrArg Prod.snd h

@[simp] theorem State.raiseFull_fnsNow (s : State) (src : Nat) (k : RecKind) (v : Word) (time : Option Nat) (cycle : Option (BitVec 32)) :
    (s.raiseFull src k v time cycle).fnsNow = s.fnsNow := by simp [State.fnsNow]
@[simp] theorem State.raise_fnsNow (s : State) (k : RecKind) (v : Word) : (s.raise k v).fnsNow = s.fnsNow := by simp [State.fnsNow]
@[simp] theorem State.fireSource_fnsNow (s : State) (n : Nat) : (s.fireSource n).fnsNow = s.fnsNow := rfl
@[simp] theorem State.modFireOut_fnsNow (s : State) (o : Nat) (g : FireOut → FireOut) : (s.modFireOut o g).fnsNow = s.fnsNow := rfl
@[simp] theorem State.modDo_fnsNow (s : State) (n : Nat) (g : Do → Do) : (s.modDo n g).fnsNow = s.fnsNow := rfl
@[simp] theorem State.modUc_fnsNow (s : State) (n : Nat) (g : Uc → Uc) : (s.modUc n g).fnsNow = s.fnsNow := rfl
@[simp] theorem State.modCan_fnsNow (s : State) (n : Nat) (g : Can → Can) : (s.modCan n g).fnsNow = s.fnsNow := rfl
@[simp] theorem State.modLoopCtx_fnsNow (s : State) (n : Nat) (g : Loop → Loop) : (s.modLoopCtx n g).fnsNow = s.fnsNow := rfl
@[simp] theorem State.doRefresh_fnsNow (s : State) (n : Nat) : (s.doRefresh n).fnsNow = s.fnsNow := rfl
@[simp] theorem State.ucRefresh_fnsNow (s : State) (n : Nat) : (s.ucRefresh n).fnsNow = s.fnsNow := rfl

@[simp] theorem State.returnDo_fnsNow (s : State) (n : Nat) : (s.returnDo n).fnsNow = s.fnsNow := by
  unfold State.returnDo
  split <;> rfl

@[simp] theorem State.returnUc_fnsNow (s : State) (n : Nat) : (s.returnUc n).fnsNow = s.fnsNow := by
  unfold State.returnUc
  dsimp only
  rw [State.ucRefresh_fnsNow]
  split <;> split <;> rfl

@[simp] theorem State.sendRing_fnsNow (s : State) (d : BitVec 48) (e : BitVec 16) (l : List Byte) : (s.sendRing d e l).fnsNow = s.fnsNow := by
  rw [State.sendRing_eq]
  rfl

@[simp] theorem State.sendStation_fnsNow (s : State) (b : StationBody) : (s.sendStation b).fnsNow = s.fnsNow := by
  unfold State.sendStation
  split
  · rfl
  · exact State.sendRing_fnsNow _ _ _ _

@[simp] theorem State.sendFrame_fnsNow (s : State) (o : Nat) : (s.sendFrame o).fnsNow = s.fnsNow := by
  unfold State.sendFrame
  dsimp only
  (repeat' split) <;> simp

@[simp] theorem State.moveOut_fnsNow (s : State) (o : Nat) : (s.moveOut o).fnsNow = s.fnsNow := by
  unfold State.moveOut
  dsimp only
  (repeat' split) <;> simp

@[simp] theorem State.cutOutputs_fnsNow (s : State) : s.cutOutputs.fnsNow = s.fnsNow := by
  unfold State.cutOutputs
  refine State.each_field State.fnsNow (fun s o => ?_) _ _
  (repeat' split) <;> simp

/-- The line's own state is not the functions'. -/
@[simp] theorem State.judgeCut_fnsNow (s : State) (f : Nat) : (s.judgeCut f).fnsNow = s.fnsNow := by
  have hline : ∀ cut : Bool, State.fnsNow { s with fire := { s.fire with cutOut := cut } } = s.fnsNow := fun _ => rfl
  unfold State.judgeCut
  dsimp only
  (repeat' split) <;> simp [hline]

@[simp] theorem State.plateLinked_fnsNow (s : State) (f : Nat) : (s.plateLinked f).fnsNow = s.fnsNow := by
  unfold State.plateLinked
  (repeat' split) <;> rfl

@[simp] theorem State.plateLinked_round (s : State) (f : Nat) : (s.plateLinked f).round = s.round := by
  unfold State.plateLinked
  (repeat' split) <;> rfl

/-! ## Trips and clearing (R276 to R279) -/

/-- A trip writes the entry of its function alone. -/
theorem State.tripFn_fnsNow (s : State) (f v : Nat) : (s.tripFn f v).fnsNow = (s.setFireFn f { s.fireFn f with
    tripped := true, latched := s.fnLatch f, done := false, resetPending := false, trips := satInc (s.fireFn f).trips, tripAt := s.now }).fnsNow := by
  simp [State.tripFn, State.each_field State.fnsNow State.moveOut_fnsNow]

theorem State.clearFn_fnsNow (s : State) (f : Nat) : (s.clearFn f).fnsNow =
    (s.setFireFn f { s.fireFn f with tripped := false, latched := false, done := false, resetPending := false }).fnsNow := by
  simp [State.clearFn, State.each_field State.fnsNow State.moveOut_fnsNow]

/-- What holds of the functions where one entry was written. -/
theorem State.fireFn_of_set {s t : State} {f : Nat} {x : FireFn} (h : t.fnsNow = (s.setFireFn f x).fnsNow) :
    t.fireFn f = x ∧ ∀ g, g ≠ f → t.fireFn g = s.fireFn g :=
  ⟨(State.fireFn_of_fnsNow h f).trans (s.setFireFn_same f x), fun g hg => (State.fireFn_of_fnsNow h g).trans (s.setFireFn_other x hg)⟩

/-- A firing is dated with the time at which it is made, and is the newest. -/
theorem State.fireSource_mem (s : State) (n : Nat) : (n, s.now) ∈ (s.fireSource n).round.firings :=
  List.mem_append_right _ (List.mem_singleton_self _)

/-- A trip fires source 312 + f at its time, whatever it moved before (R277). -/
theorem State.tripFn_fires (s : State) (f v : Nat) : (312 + f, s.now) ∈ (s.tripFn f v).round.firings := by
  have hnow : (s.tripFn f v).now = s.now := State.now_of_fnsNow (s := s.setFireFn f _) (s.tripFn_fnsNow f v)
  have hmem : ∀ t : State, (312 + f, ((t.fireSource (312 + f)).plateLinked f).now) ∈ ((t.fireSource (312 + f)).plateLinked f).round.firings := fun t => by
    rw [State.plateLinked_round, State.now_of_fnsNow (State.plateLinked_fnsNow ..)]
    exact t.fireSource_mem _
  rw [← hnow]
  exact hmem _

section
variable {s : State} {f : Nat}

theorem State.evalFn_trips (hon : s.fnEnabled f = true) (hclear : (s.fireFn f).tripped = false) (hk : s.fnK f ≤ s.votes f) :
    s.evalFn f = s.tripFn f (s.votes f) := by
  simp [State.evalFn, hon, hclear, hk]

theorem State.evalFn_clears (hon : s.fnEnabled f = true) (htripped : (s.fireFn f).tripped = true) (hlatch : s.fnLatch f = false)
    (hdone : (s.fireFn f).done = true) (hk : s.votes f < s.fnK f) : s.evalFn f = s.clearFn f := by
  simp [State.evalFn, hon, htripped, hlatch, hdone, hk]

theorem State.evalFn_rests (h : s.fnEnabled f = false ∨ ((s.fireFn f).tripped = false ∧ s.votes f < s.fnK f) ∨
    ((s.fireFn f).tripped = true ∧ (s.fnLatch f = true ∨ (s.fireFn f).done = false ∨ s.fnK f ≤ s.votes f))) : s.evalFn f = s := by
  obtain hoff | ⟨hclear, hk⟩ | ⟨htripped, hlatch | hdone | hk⟩ := h
  · simp [State.evalFn, hoff]
  · simp [State.evalFn, hclear, Nat.not_le.2 hk]
  · simp [State.evalFn, htripped, hlatch]
  · simp [State.evalFn, htripped, hdone]
  · simp [State.evalFn, htripped, Nat.not_lt.2 hk]

end

/-! ## Events of the Fire Lane (R276, R278, R282, R285) -/

theorem execFireInputDelivery_judges {s : State} {m : FireMsg} {l : List FireMsg} (hin : s.fire.inbox = m :: l) (hruns : s.fireRuns = true) :
    execFireInputDelivery s = .next ((List.range 16).foldl State.evalFn
      ((List.range 32).foldl (State.slotMessage m) ({ s with fire := { s.fire with inbox := l } }.countBadFrame m))) := by
  unfold execFireInputDelivery
  rw [hin]
  simp [hruns, State.evalFns, State.each]

theorem execFireTimeoutCheck_judges {s : State} (hruns : s.fireRuns = true) :
    execFireTimeoutCheck s = .next ((List.range 16).foldl State.evalFn ((List.range 32).foldl State.slotTimeout s)) := by
  simp [execFireTimeoutCheck, hruns, State.evalFns, State.each]

/-- A latched function that is done stays tripped: only a reset clears it (R280). -/
theorem execFireActionComplete_latched {s : State} {f : Fin 16} (hruns : s.fireRuns = true) (htripped : (s.fireFn f).tripped = true)
    (hdone : (s.fireFn f).done = false) (houts : ∀ o ∈ s.fnOuts f, s.outReached o = true) (hreset : (s.fireFn f).resetPending = false)
    (hlatch : s.fnLatch f = true) :
    execFireActionComplete f s = .next (s.setFireFn f { s.fireFn f with done := true, resetPending := false }) := by
  have hall : (s.fnOuts f).all s.outReached = true := List.all_eq_true.2 houts
  unfold execFireActionComplete
  dsimp only
  rw [if_neg (by simp [hruns, htripped, hdone, hall]), if_neg (by simp [hreset])]
  exact congrArg Host.Outcome.next (State.evalFn_rests (.inr (.inr ⟨by rw [State.setFireFn_same]; exact htripped, .inl hlatch⟩)))

theorem execTripOutputFailed_records {s : State} {o : Fin 24} (hruns : s.fireRuns = true) (htripped : s.outTripped o = true)
    (hreached : s.outReached o = false) (hdue : (s.fireOut o).since + 100000000 ≤ s.now) :
    execTripOutputFailed o s = .next ((s.setFireOut o { s.fireOut o with failed := true }).raise .tripOutputFailed (mkWord [(4, 0, o)])) := by
  simp [execTripOutputFailed, hruns, htripped, hreached, Nat.not_lt.2 hdue]

theorem execFireFrameRepeat_sends {s : State} {o : Fin 24} (htripped : s.outTripped o = true) (hkind : s.outKind o = 3 ∨ s.outKind o = 4)
    (hms : 0 < bits (s.outWord o 0) 15 0) (hdue : (s.fireOut o).sentAt + bits (s.outWord o 0) 15 0 * 1000000 ≤ s.now) (hruns : s.fireRuns = true) :
    execFireFrameRepeat o s = .next (s.sendFrame o) := by
  simp [execFireFrameRepeat, htripped, hkind, Nat.pos_iff_ne_zero.1 hms, hdue, hruns]

theorem execTripCutInput_eq (s : State) (v : Bool) :
    let t : State := { s with fire := { s.fire with cutIn := v } }
    execTripCutInput v s = .next (if t.lineCut = s.lineCut then t else t.cutOutputs) := by
  unfold execTripCutInput
  simp only [beq_iff_eq]
  split <;> rfl

/-- Settles O40: a message by the kind of its slot, a function by the branch of its evaluation, each event by the branch of its conditions. -/
theorem fireRows : Obligations.FireRows := by
  unfold Obligations.FireRows
  intro s
  refine ⟨fun m l hin hruns => (exec_fireInputDelivery s).trans (execFireInputDelivery_judges hin hruns), ?frames, ?slots, ?functions,
    fun hruns => (exec_fireTimeoutCheck s).trans (execFireTimeoutCheck_judges hruns),
    fun f hruns htripped hdone houts hreset hlatch =>
      (exec_fireActionComplete s f).trans (execFireActionComplete_latched hruns htripped hdone houts hreset hlatch),
    fun o hruns htripped hreached hdue => (exec_tripOutputFailed s o).trans (execTripOutputFailed_records hruns htripped hreached hdue),
    fun o htripped hkind hms hdue hruns => (exec_fireFrameRepeat s o).trans (execFireFrameRepeat_sends htripped hkind hms hdue hruns),
    fun v => (exec_tripCutInput s v).trans (execTripCutInput_eq s v)⟩
  case frames =>
    intro k xtd i b
    simp [State.countBadFrame]
  case slots =>
    intro i x heard
    refine ⟨?di, ?uc, ?ring, ?can, ?request, ?time, State.inCounted_used, State.inCounted_unused⟩
    case di =>
      intro n level wb sup st hkind
      refine ⟨fun href => ?_, fun href => ?_⟩
      · simp only [heard, State.slotMessage_di hkind]
        rw [if_pos (by simp [href])]
        exact s.deliverSlot_some i _ (diReason_ne_zero wb sup st)
      · simp [State.slotMessage_di hkind, href]
    case uc =>
      intro n v bad hkind th hyst
      refine ⟨fun href => ?_, fun href => ?_⟩
      · simp only [heard, State.slotMessage_uc hkind]
        rw [if_neg (by simp [href]), s.analogCondition_eq]
        exact s.deliverSlot_some i _ (by cases bad <;> rfl)
      · simp [State.slotMessage_uc hkind, href]
    case ring =>
      intro a states hkind named
      refine ⟨fun h => ?_, fun h => ?_⟩
      · simp only [heard, State.slotMessage_ring hkind]
        rw [if_pos (by simpa [named] using h)]
        exact s.deliverSlot_some i _ rfl
      · rw [State.slotMessage_ring hkind, if_neg (by simpa [named] using h)]
    case can =>
      intro k xtd id b hkind
      refine ⟨fun hb hm => ?_, fun h => ?_⟩
      · simp only [heard, State.slotMessage_can hkind]
        rw [if_pos (by simp [hb, hm])]
        exact s.deliverSlot_some i _ rfl
      · rw [State.slotMessage_can hkind, if_neg (by simpa [Nat.not_le, or_iff_not_imp_left] using h)]
    case request =>
      intro b po hkind
      simp only [heard, State.slotMessage_request hkind]
      split
      · exact s.deliverSlot_slots i none 4
      · exact s.deliverSlot_some i _ rfl
    case time =>
      intro t n ht hn
      have hlim : s.slotLimit i = some n := by
        obtain ⟨hkind, rfl⟩ | ⟨hkind, rfl, hn⟩ := hn
        · exact State.slotLimit_uc hkind
        · exact State.slotLimit_frame hkind hn
      rw [State.slotTimeout_eq hlim ht]
      refine ⟨fun hlate => ?_, fun hsoon => if_neg (Nat.not_lt.2 hsoon)⟩
      rw [if_pos hlate, State.putSlot_same]
      simp [x]
  case functions =>
    intro f x votes k
    have hvotes : votes = s.votes f := (s.votes_eq f).symm
    have hk : k = s.fnK f := rfl
    rw [hvotes, hk]
    refine ⟨fun hon hclear hle => ⟨_, State.evalFn_trips hon hclear hle, ?_⟩,
      fun hon htripped hlatch hdone hlt => ⟨_, State.evalFn_clears hon htripped hlatch hdone hlt, ?_⟩, State.evalFn_rests⟩
    · obtain ⟨hsame, hother⟩ := State.fireFn_of_set (s.tripFn_fnsNow f (s.votes f))
      exact ⟨hsame, hother, s.tripFn_fires f _⟩
    · exact State.fireFn_of_set (s.clearFn_fnsNow f)

end Sys2Proof.Machine
end

/-! # Totals

A boundary writes the entry of each total once (R322, R327); a close of a total with nothing waiting stands alone until its commit (R334). -/

section
namespace Sys2Proof.Machine
open Sys2Proof

/-! ## A boundary -/

/-- What a boundary makes of total k, `l` being what the channels give. -/
def State.totAtBoundary (s : State) (l : List (Option (Nat × Int))) (k : Nat) : Total :=
  let x := s.total k
  match totKind (s.totCfg k) with
  | .program => x
  | .pulse => if (s.diGroup (totRefA (s.totCfg k) / 8)).lost then x.inGap else { x with gap := false }
  | _ =>
    match totTerm (s.totCfg k) (s.totCoeff k) l with
    | none => x.inGap
    | some v => { x with gap := false, acc := wrap128 (x.acc + v), trail := x.trail ++ [(s.now / 10000, v)] }

/-- A boundary writes at most the entry of its total. -/
theorem State.totBoundary_sets (l : List (Option (Nat × Int))) (s : State) (k : Nat) :
    s.totBoundary l k = s ∨ ∃ x, s.totBoundary l k = s.setTotal k x := by
  unfold State.totBoundary
  dsimp only
  split
  · exact .inl rfl
  · split
    · exact .inr ⟨_, rfl⟩
    · split
      · exact .inr ⟨_, rfl⟩
      · exact .inl rfl
  · split <;> exact .inr ⟨_, rfl⟩

theorem State.totBoundary_frame (l : List (Option (Nat × Int))) (s : State) (k : Nat) :
    s.totBoundary l k = { s with totals := (s.totBoundary l k).totals } := by
  obtain h | ⟨x, h⟩ := s.totBoundary_sets l k <;> rw [h] <;> rfl

theorem State.totBoundary_other (l : List (Option (Nat × Int))) (s : State) {k m : Nat} (hm : m ≠ k) :
    (s.totBoundary l k).total m = s.total m := by
  obtain h | ⟨x, h⟩ := s.totBoundary_sets l k <;> rw [h]
  exact State.setTotal_other s x hm

theorem State.totBoundary_own (l : List (Option (Nat × Int))) (s : State) (k : Nat) : (s.totBoundary l k).total k = s.totAtBoundary l k := by
  unfold State.totBoundary State.totAtBoundary
  dsimp only
  cases totKind (s.totCfg k) with
  | program => rfl
  | pulse =>
    dsimp only
    split
    · exact State.setTotal_same ..
    · split
      · exact State.setTotal_same ..
      · next hgap => rw [← Bool.eq_false_iff.2 hgap]
  | integrator => dsimp only; cases totTerm (s.totCfg k) (s.totCoeff k) l <;> exact State.setTotal_same ..
  | product => dsimp only; cases totTerm (s.totCfg k) (s.totCoeff k) l <;> exact State.setTotal_same ..

/-- A total's boundary depends on its own entry, on the configuration, the groups and the time. -/
theorem State.totAtBoundary_congr {s t : State} (ht : t = { s with totals := t.totals }) {k : Nat} (hk : t.total k = s.total k)
    (l : List (Option (Nat × Int))) : t.totAtBoundary l k = s.totAtBoundary l k := by
  have hcfg : t.totCfg k = s.totCfg k := by rw [ht]; rfl
  have hcoeff : t.totCoeff k = s.totCoeff k := by rw [ht]; rfl
  have hgroup : ∀ g, t.diGroup g = s.diGroup g := by rw [ht]; exact fun _ => rfl
  have hnow : t.now = s.now := by rw [ht]
  unfold State.totAtBoundary
  rw [hcfg, hcoeff, hgroup, hnow, hk]

section
variable {s : State} {l : List (Option (Nat × Int))} {k : Nat}

theorem State.totAtBoundary_program (hk : totKind (s.totCfg k) = .program) : s.totAtBoundary l k = s.total k := by
  simp [State.totAtBoundary, hk]

theorem State.totAtBoundary_lost (hk : totKind (s.totCfg k) = .pulse) (hlost : (s.diGroup (totRefA (s.totCfg k) / 8)).lost = true) :
    s.totAtBoundary l k = (s.total k).inGap := by
  simp [State.totAtBoundary, hk, hlost]

theorem State.totAtBoundary_counting (hk : totKind (s.totCfg k) = .pulse) (hlost : (s.diGroup (totRefA (s.totCfg k) / 8)).lost = false) :
    s.totAtBoundary l k = { s.total k with gap := false } := by
  simp [State.totAtBoundary, hk, hlost]

theorem State.totAtBoundary_term (hk : totKind (s.totCfg k) = .integrator ∨ totKind (s.totCfg k) = .product) {v : Int}
    (hv : totTerm (s.totCfg k) (s.totCoeff k) l = some v) : s.totAtBoundary l k = { s.total k with
      gap := false, acc := wrap128 ((s.total k).acc + v), trail := (s.total k).trail ++ [(s.now / 10000, v)] } := by
  obtain hk | hk := hk <;> simp [State.totAtBoundary, hk, hv]

theorem State.totAtBoundary_gap (hk : totKind (s.totCfg k) = .integrator ∨ totKind (s.totCfg k) = .product)
    (hv : totTerm (s.totCfg k) (s.totCoeff k) l = none) : s.totAtBoundary l k = (s.total k).inGap := by
  obtain hk | hk := hk <;> simp [State.totAtBoundary, hk, hv]

end

/-- A boundary makes of each of the 64 totals what it makes of it alone. -/
theorem State.each_totBoundary (l : List (Option (Nat × Int))) (s : State) :
    (s.each (List.range 64) (State.totBoundary l) = { s with totals := (s.each (List.range 64) (State.totBoundary l)).totals }) ∧
      ∀ m, (s.each (List.range 64) (State.totBoundary l)).total m = if m ∈ List.range 64 then s.totAtBoundary l m else s.total m := by
  refine State.each_rows (row := State.total) (P := fun t => t = { s with totals := t.totals }) (g := s.totAtBoundary l) (l := List.range 64)
    List.nodup_range (s := s) rfl (fun t n _ ht => ?_) (fun t n m hm => t.totBoundary_other l hm) fun t n _ ht hn => ?_
  · rw [t.totBoundary_frame l n, ht]
  · rw [t.totBoundary_own, State.totAtBoundary_congr ht hn]

/-- ANSEQ meets a boundary, at which the channels give `l`. -/
def State.metBoundary (s : State) (l : List (Option (Nat × Int))) : State :=
  { s with square := { s.square with boundaryNo := s.now / 10000, metered := s.square.metered ++ [(s.now / 10000, l)] } }

theorem execIntegratorBoundary_due {s : State} (hoff : s.service ≠ .off) (hhalted : s.service ≠ .halted) (hdue : s.square.boundaryNo < s.now / 10000) :
    execIntegratorBoundary s = .next
      ((s.metBoundary ((List.range 32).map s.ucMeter)).each (List.range 64) (State.totBoundary ((List.range 32).map s.ucMeter))) := by
  unfold execIntegratorBoundary
  rw [if_neg (by simp [hoff, hhalted, hdue])]
  rfl

theorem execIntegratorBoundary_met {s : State} (hmet : s.now / 10000 ≤ s.square.boundaryNo) : execIntegratorBoundary s = .next s := by
  unfold execIntegratorBoundary
  rw [if_pos (by simp [hmet])]

/-! ## A close -/

/-- A close that is the first to wait for its total waits alone. -/
theorem State.queueClose_first {s : State} {n : Nat} (h : (s.total n).close = []) (who : Option Ctx) (close : Bool) (config : List (Nat × Word))
    (boundary : Option (BitVec 32)) : s.queueClose n who close config boundary =
      s.modTotal n fun x => { x with close := [{ ctx := who, close := close, config := config, boundary := boundary }] } := by
  simp [State.queueClose, State.modTotal, h]

theorem State.closeNow_inService {s : State} (h : s.service ≠ .outOfService) (n : Nat) : s.closeNow n = s := by
  simp [State.closeNow, h]

section
variable {s : State} {c : Ctx} {b : List Byte} (hn : byteAt b 0 ≤ 63) (hclose : (s.total (byteAt b 0)).close = [])
include hn hclose

theorem runTotalClose_alone (hf : s.forwards = false) (hs : s.service ≠ .outOfService) : runTotalClose c b s =
    s.modTotal (byteAt b 0) fun x => { x with close := [{ ctx := some c, close := true, config := [], boundary := none }] } := by
  unfold runTotalClose
  dsimp only
  rw [if_neg (Nat.not_lt.2 hn), if_neg (by simp [hclose]), if_pos (by simp [hf]), State.queueClose_first hclose]
  exact State.closeNow_inService (by simpa using hs) _

theorem runTotalClose_forwarded (hf : s.forwards = true) (hl : s.causewayLost = false) : runTotalClose c b s =
    (s.tellStandby (.totalClose (Fin.ofNat 64 (byteAt b 0)))).modTotal (byteAt b 0) fun x =>
      { x with close := [{ ctx := some c, close := true, config := [], boundary := some s.changeBoundary }] } := by
  have htotal : ((s.tellStandby (.totalClose (Fin.ofNat 64 (byteAt b 0)))).total (byteAt b 0)).close = [] := by
    simpa [State.tellStandby, hf, State.tellPartner, State.total] using hclose
  unfold runTotalClose
  dsimp only
  rw [if_neg (Nat.not_lt.2 hn), if_neg (by simp [hclose]), if_neg (by simp [hf]), if_neg (by simp [hl]), State.queueClose_first htotal]

end

/-- Settles O41: a close waits alone, a boundary writes each total once, and the commit of Side-Street mode is made when it is due. -/
theorem totalRows : Obligations.TotalRows := by
  unfold Obligations.TotalRows
  intro s p
  refine ⟨fun hadm hn hclose hf hs => ?alone, fun hadm hn hclose hf hl => ?forwarded, ?boundary,
    fun hmet => execIntegratorBoundary_met hmet, fun hs hdue => by simp [execTotalsSideStreetCommit, exec, hs, hdue]⟩
  case alone =>
    exact (State.command_next runTotalClose hadm).trans (congrArg _ (runTotalClose_alone hn (by simpa using hclose) (by simpa using hf) (by simpa using hs)))
  case forwarded =>
    refine (State.command_next runTotalClose hadm).trans (congrArg _ ((runTotalClose_forwarded hn (by simpa using hclose) (by simpa using hf)
      (by simpa using hl)).trans ?_))
    simp [State.changeBoundary]
  case boundary =>
    intro hoff hhalted hdue l term
    obtain ⟨hframe, hrow⟩ := State.each_totBoundary l (s.metBoundary l)
    refine ⟨_, execIntegratorBoundary_due hoff hhalted hdue, hframe, fun k hk => ?_, fun k hk => ?_⟩
    · exact (hrow k).trans (if_neg (by simpa using hk))
    · rw [hrow k, if_pos (List.mem_range.2 hk)]
      exact ⟨State.totAtBoundary_program, State.totAtBoundary_lost, State.totAtBoundary_counting,
        fun hkind => ⟨fun v => State.totAtBoundary_term hkind, State.totAtBoundary_gap hkind⟩⟩
end Sys2Proof.Machine
end

/-! # The trip plate

An update moves from waveform to waveform (R376); at its end, and where VPLATE falls, it answers its request and reports (R376, R377). -/

section
namespace Sys2Proof.Machine
open Sys2Proof

/-! ## Answers and records -/

/-- `t` differs from `s` in SUP's replies and the messages of the crossings at most. -/
def State.onlyAnswers (s t : State) : Prop := t = { s with sup := t.sup, crossings := t.crossings, nextSend := t.nextSend }

theorem State.onlyAnswers_refl (s : State) : s.onlyAnswers s := rfl

theorem State.onlyAnswers.trans {s t u : State} (h : s.onlyAnswers t) (k : t.onlyAnswers u) : s.onlyAnswers u := by
  unfold State.onlyAnswers at *
  rw [k, h]

theorem State.onlyPosts.onlyAnswers {s t : State} (h : s.onlyPosts t) : s.onlyAnswers t := by
  unfold State.onlyPosts at h
  rw [h]
  rfl

theorem State.reply_onlyAnswers (s : State) (c : Ctx) (st : Status) (b : List Byte) : s.onlyAnswers (s.reply c st b) := by
  rw [State.reply_onlySup]
  rfl

/-! ## Waveforms (R374, R376) -/

theorem execPlateWaveformComplete_early {s : State} (h : s.now < s.plate.stepAt + s.waveNs) : execPlateWaveformComplete s = .next s := if_pos h

/-- A waveform that is not the last gives way to the next one. -/
theorem execPlateWaveformComplete_moves {s : State} (h : s.plate.stepAt + s.waveNs ≤ s.now) :
    (s.plate.step = .invalidDark → execPlateWaveformComplete s = .next { s with plate := { s.plate with
      step := if s.plate.refresh then .dataOpposite else .data, stepAt := s.now } }) ∧
    (s.plate.step = .dataOpposite → execPlateWaveformComplete s = .next { s with plate := { s.plate with step := .dataTarget, stepAt := s.now } }) ∧
    (s.plate.step = .data ∨ s.plate.step = .dataTarget →
      execPlateWaveformComplete s = .next { s with plate := { s.plate with step := .invalidLight, stepAt := s.now } }) := by
  have hdue : ¬s.now < s.plate.stepAt + s.waveNs := Nat.not_lt.2 h
  refine ⟨fun hs => ?_, fun hs => ?_, fun hs => ?_⟩
  · simp [execPlateWaveformComplete, hdue, hs]
  · simp [execPlateWaveformComplete, hdue, hs]
  · obtain hs | hs := hs <;> simp [execPlateWaveformComplete, hdue, hs]

/-- The plate shows its target, and nothing of the update waits. -/
def State.plateShown (s : State) : State :=
  { s with mram := { s.mram with shown := s.plate.target, plateTorn := false }
           plate := { s.plate with step := .idle, invalidDark := false, updates := s.plate.updates + 1, reply := none } }

/-- With no linked update waiting, the end of an update answers and reports. -/
theorem State.plateDone_ends {s : State} (h : s.plate.pending = false) : s.plateShown.onlyAnswers s.plateDone := by
  unfold State.plateDone
  dsimp only
  rw [if_neg (by simp [h])]
  change s.plateShown.onlyAnswers (if s.plate.refresh = true then
    (match s.plate.reply with | some c => s.plateShown.ok c | none => s.plateShown).raise _ _ else
    (match s.plate.reply with | some c => s.plateShown.ok c | none => s.plateShown))
  have hreply : s.plateShown.onlyAnswers (match s.plate.reply with | some c => s.plateShown.ok c | none => s.plateShown) := by
    split
    · exact s.plateShown.reply_onlyAnswers _ _ _
    · exact s.plateShown.onlyAnswers_refl
  split
  · exact hreply.trans (State.raiseFrom_onlyPosts _ (by decide) _ _).onlyAnswers
  · exact hreply

theorem execPlateWaveformComplete_last {s : State} (h : s.plate.stepAt + s.waveNs ≤ s.now) (hs : s.plate.step = .invalidLight) :
    execPlateWaveformComplete s = .next s.plateDone := by
  simp [execPlateWaveformComplete, Nat.not_lt.2 h, hs]

theorem runPlateUpdate_idle {s : State} {c : Ctx} {b : List Byte} (h : s.plate.step = .idle) : runPlateUpdate c b s =
    ({ s with plate := { s.plate with segments := BitVec.ofNat 47 (be16 b 0 * 2 ^ 32 + be32 b 2) } } : State).plateStart (some c) := by
  simp [runPlateUpdate, h]

/-! ## VPLATE (R377) -/

theorem execPlateTorn_high {s : State} {a b : BitVec 16} (ha : 13500 ≤ a.toNat) (hb : 13500 ≤ b.toNat) :
    execPlateTorn a b s = .next { s with plate := { s.plate with vp := some a, vn := some b } } := by
  simp [execPlateTorn, plateLow, Nat.not_lt.2 ha, Nat.not_lt.2 hb]

/-- The update has stopped. -/
def State.plateStopped (s : State) (a b : BitVec 16) : State :=
  { s with plate := { s.plate with vp := some a, vn := some b, step := .idle, reply := none } }

/-- A fall of VPLATE stops the update and reports; a linked update that waits starts, where no power-fail warning stands. -/
theorem execPlateTorn_stops {s : State} {a b : BitVec 16} (hs : s.plate.step ≠ .idle) (hlow : a.toNat < 13500 ∨ b.toNat < 13500) :
    ∃ u, (s.plateStopped a b).onlyAnswers u ∧
      execPlateTorn a b s = .next (if s.plate.pending && u.power.warning.isNone then u.plateStart none else u) := by
  have hrun : ¬((s.plate.step == .idle || !plateLow a b) = true) := by simpa [plateLow, hs, or_iff_not_imp_left] using hlow
  unfold execPlateTorn
  dsimp only
  rw [if_neg hrun]
  refine ⟨_, ?_, rfl⟩
  have hraise := (State.raiseFrom_onlyPosts (s.plateStopped a b) (src := RecKind.source .plateTorn) (by decide) .plateTorn
    (s.plate.target.setWidth 32)).onlyAnswers
  split
  · exact hraise.trans (State.reply_onlyAnswers _ _ _ _)
  · exact hraise

/-- Settles O45: an update starts with INVALID dark, moves with its waveforms, and ends or is stopped. -/
theorem plateRows : Obligations.PlateRows := by
  unfold Obligations.PlateRows
  intro s p
  refine ⟨fun hadm hidle => ?update, execPlateWaveformComplete_early, fun hdue => ?moves, fun n => ?waves, ?dark, ?light,
    fun a b hs hlow hpending => ?stops, fun a b hs hlow hpending hwarn htorn => ?restarts, fun a b => execPlateTorn_high⟩
  case update =>
    have htorn : (s.admitted p plateUpdateDesc).mram.plateTorn = s.mram.plateTorn :=
      State.admitted_congr (fun t => t.mram.plateTorn) s p plateUpdateDesc fun _ _ => rfl
    exact ⟨_, (State.command_next runPlateUpdate hadm).trans (congrArg _ (runPlateUpdate_idle (by simpa using hidle))), rfl, rfl, htorn, rfl, rfl⟩
  case moves =>
    obtain ⟨hdark, hopposite, hdata⟩ := execPlateWaveformComplete_moves hdue
    refine ⟨hdark, hopposite, hdata, fun hs hpending => ⟨_, execPlateWaveformComplete_last hdue hs, ?_⟩⟩
    have hends := State.plateDone_ends hpending
    unfold State.onlyAnswers at hends
    rw [hends]
    exact ⟨rfl, rfl, rfl, rfl⟩
  case waves =>
    unfold State.segmentWave
    dsimp only
    refine ⟨fun hs heq => ?_, fun hs hne => ?_, fun hs => ?_, fun hs => ?_⟩ <;> rw [hs]
    · exact if_pos (by simpa using heq)
    · exact if_neg (by simpa using hne)
    · cases s.plate.target.getLsbD n <;> rfl
    · rfl
  case dark => exact fun hs => by simp [State.invalidWave, hs]
  case light => exact fun hs => by simp [State.invalidWave, hs]
  case stops =>
    obtain ⟨u, hu, hexec⟩ := execPlateTorn_stops hs hlow
    refine ⟨u, hexec.trans (by rw [if_neg (by simp [hpending])]), ?_⟩
    exact hu
  case restarts =>
    obtain ⟨u, hu, hexec⟩ := execPlateTorn_stops hs hlow
    unfold State.onlyAnswers at hu
    have hstart : (s.plate.pending && u.power.warning.isNone) = true := by
      rw [hu]
      simp [State.plateStopped, hpending, hwarn]
    refine ⟨_, hexec.trans (by rw [if_pos hstart]), rfl, ?_, rfl⟩
    change u.mram.plateTorn = true
    rw [hu]
    exact htorn
end Sys2Proof.Machine
end

/-! # The mimic panel

A frame starts when it is due, swaps the buffers where a swap is due and checks the shown one (R366, R370, R372); the power commands and events move
STATE (R373). -/

section
namespace Sys2Proof.Machine
open Sys2Proof

/-! ## Frames (R366, R370, R372) -/

theorem State.dueEvery_iff (s : State) (last : Option Nat) (ns : Nat) :
    s.dueEvery last ns = true ↔ ∀ t, last = some t → t + ns ≤ s.now ∨ s.now < t := by
  cases last <;> simp [State.dueEvery]

section
variable {s : State}

theorem Panel.driven_on {q : Panel} (h : q.state = .on) : q.driven = true := by simp [Panel.driven, h]

theorem State.frameDue_on (hon : s.panel.state = .on) : s.frameDue = s.dueEvery s.panel.frameAt s.frameNs := by
  simp [State.frameDue, Panel.driven_on hon]

theorem State.frameDue_waits (hup : s.panel.state = .poweringUp) (hfirst : s.panel.scanned = false) {v r : BitVec 16} (hv : s.panel.vcol = some v)
    (hr : s.panel.vrow = some r) (h : panelSupplyOk v r = false ∨ s.now < s.panel.since + 10000000) : s.frameDue = false := by
  have hdriven : s.panel.driven = false := by simp [Panel.driven, hup, hfirst]
  obtain h | h := h
  · simp [State.frameDue, hdriven, Panel.supplied, hv, hr, h]
  · simp [State.frameDue, hdriven, State.panelWaited, Nat.not_le.2 h]

theorem execPanelFrameStart_early (h : s.frameDue = false) : execPanelFrameStart s = .next s := by
  simp [execPanelFrameStart, h]

/-- The scan of a frame has begun. -/
def State.panelScans (s : State) : State := { s with panel := s.panelNext }

theorem execPanelFrameStart_runs (hdue : s.frameDue = true) (hr : s.runs 19 = true) :
    execPanelFrameStart s = .next s.panelScans.panelSwap.panelCheck := by
  have hr' : ({ s with panel := s.panelNext } : State).runs 19 = true := hr
  simp [execPanelFrameStart, hdue, hr', State.panelScans]

theorem execPanelFrameStart_restarting (hdue : s.frameDue = true) (hr : s.runs 19 = false) :
    execPanelFrameStart s = .next s.panelScans := by
  have hr' : ({ s with panel := s.panelNext } : State).runs 19 = false := hr
  simp [execPanelFrameStart, hdue, hr', State.panelScans]

theorem State.panelSwap_none (h : s.panel.swapDue = false) : s.panelSwap = s := by simp [State.panelSwap, h]

/-- The hidden buffer is shown. -/
def State.panelSwapped (s : State) : State :=
  { s with panel := { s.panel with shown := s.panel.hidden, shownCrc := crc32c (frameBytes s.panel.hidden), dark := false, corrupt := false
                                   darkNext := false, swapDue := false, swapFor := [] } }

/-- A swap shows the hidden buffer and answers those who asked for it. -/
theorem State.panelSwap_due (h : s.panel.swapDue = true) : ∃ x : Sup, s.panelSwap = { s.panelSwapped with sup := x } := by
  have hanswers : ∀ (l : List Ctx) (t : State), t.each l (fun s c => s.ok c) = { t with sup := (t.each l fun s c => s.ok c).sup } := fun l t =>
    State.each_keeps (P := fun u => u = { t with sup := u.sup }) (fun u c hu => by rw [State.ok, State.reply_onlySup, hu]) rfl l
  have hswap : s.panelSwap = s.panelSwapped.each s.panel.swapFor fun s c => s.ok c := if_neg (by simp [h])
  exact ⟨_, hswap.trans (hanswers _ _)⟩

theorem State.panelCheck_passes (h : s.panel.dark = true ∨ crc32c (frameBytes s.panel.shown) = s.panel.shownCrc) : s.panelCheck = s :=
  if_pos (by simpa using h)

theorem State.panelCheck_fails (hdark : s.panel.dark = false) (hcrc : crc32c (frameBytes s.panel.shown) ≠ s.panel.shownCrc) :
    ({ s with panel := { s.panel with darkNext := true, corrupt := true, crcFound := crc32c (frameBytes s.panel.shown) } } : State).onlyPosts s.panelCheck := by
  unfold State.panelCheck
  dsimp only
  rw [if_neg (by simp [hdark, hcrc])]
  exact State.raiseFrom_onlyPosts _ (by decide) _ _

/-! ## Commands (R72, R370, R373) -/

theorem runPanelFrame_writes {c : Ctx} {b : List Byte} (hsrc : s.panelProgram = false) (hfit : be16 b 0 + be16 b 2 ≤ 4096) : runPanelFrame c b s =
    ({ s with panel := { s.panel with hidden := putFrame s.panel.hidden (be16 b 0) (b.drop 4) } } : State).ok c := by
  simp [runPanelFrame, hsrc, Nat.not_lt.2 hfit]

theorem runPanelShow_asks {c : Ctx} {b : List Byte} (hsrc : s.panelProgram = false) (hcrc : crc32c (frameBytes s.panel.hidden) = beWord b 0) :
    runPanelShow c b s = { s with panel := { s.panel with swapDue := true, swapFor := s.panel.swapFor ++ [c] } } := by
  simp [runPanelShow, hsrc, hcrc]

theorem runPanelPower_off {c : Ctx} {b : List Byte} (hb : byteAt b 0 = 1) (h : s.panel.state = .off) :
    runPanelPower c b s = ({ s with panel := s.panel.up s.now } : State).ok c := by
  simp [runPanelPower, hb, h]

theorem runPanelPower_poweringDown {c : Ctx} {b : List Byte} (hb : byteAt b 0 = 1) (h : s.panel.state = .poweringDown) :
    runPanelPower c b s = ({ s with panel := { s.panel with onPending := true } } : State).reply c .acceptedDeferred [] := by
  simp [runPanelPower, hb, h]

/-! ## Columns (R366 to R368, R414) -/

theorem State.columnDrive_none {r c : Nat} (h : s.panel.driven = false ∨ s.panelWidth ≤ c) : s.columnDrive r c = none :=
  if_pos (by obtain h | h := h <;> simp [h])

theorem State.columnDrive_driven {r c : Nat} (hd : s.panel.driven = true) (hc : c < s.panelWidth) (hr : r < s.panelHeight) :
    ∃ d, s.columnDrive r c = some d ∧ d.current = s.columnCurrent ∧ d.slices = s.pixel r c ∧ d.revUs = bits (s.cfg 0xB00 1) 25 21 ∧
      d.precharge = (if s.panel.alternates then 0 else
        s.precharge (if r = 0 then s.panel.above.getD c 0 else s.pixel (r - 1) c) (s.pixel r c)) ∧ d.reversed = s.reversed r c :=
  ⟨_, if_neg (by simp [hd, hc, hr]), rfl, rfl, rfl, rfl, rfl⟩

end

/-- Settles O44: a frame by what is due at its start, a command by what it finds, a column by the state of the panel. -/
theorem panelRows : Obligations.PanelRows := by
  unfold Obligations.PanelRows
  intro s p frame due
  have hframe : ∀ h : due, s.panel.state = .on → s.frameDue = true := fun h hon =>
    (State.frameDue_on hon).trans ((s.dueEvery_iff _ _).2 h)
  refine ⟨fun at_ hon hat hle hlt => ?early, ?frame, ?show_, fun hon hdue hswap hr => ?swap, fun hon hdue hr => ?restarting,
    fun hon hdue hswap hr hdark hnext hcrc => ?corrupt, fun hon hdue hswap hnext => ?darkens, ?power, fun hup hscan hdue hwant => ?poweredUp,
    fun v r hup hscan hv hr h => execPanelFrameStart_early (State.frameDue_waits hup hscan hv hr h), fun hdown hframes hwait => ?poweredDown, ?range,
    fun a b hon hbad => ?fault, fun a b hfault hok => ?recovered, fun r c => State.columnDrive_none, fun r c hon hc hr => ?column⟩
  case early =>
    refine execPanelFrameStart_early ((State.frameDue_on hon).trans (Bool.eq_false_iff.2 fun h => ?_))
    have := (s.dueEvery_iff _ _).1 h at_ hat
    change at_ + s.frameNs ≤ s.now ∨ _ at this
    change s.now < at_ + s.frameNs at hlt
    omega
  case frame =>
    intro b t hadm hsrc hfit
    refine (State.command_next runPanelFrame hadm).trans (congrArg _ ?_)
    rw [runPanelFrame_writes (by simpa [State.panelProgram] using hsrc) hfit]
    simp [t, b]
  case show_ =>
    intro t hadm hsrc hcrc
    exact (State.command_next runPanelShow hadm).trans
      (congrArg _ (runPanelShow_asks (by simpa [State.panelProgram] using hsrc) (by simpa using hcrc)))
  case swap =>
    obtain ⟨x, hx⟩ := State.panelSwap_due (s := s.panelScans) hswap
    refine ⟨_, execPanelFrameStart_runs (hframe hdue hon) hr, ?_⟩
    rw [hx, State.panelCheck_passes (.inr rfl)]
    exact ⟨rfl, rfl, rfl, rfl, rfl⟩
  case restarting => exact ⟨_, execPanelFrameStart_restarting (hframe hdue hon) hr, rfl, rfl, rfl⟩
  case corrupt =>
    refine ⟨_, execPanelFrameStart_runs (hframe hdue hon) hr, ?_⟩
    rw [State.panelSwap_none (s := s.panelScans) hswap]
    have hdark' : s.panelScans.panel.dark = false := by simp [State.panelScans, State.panelNext, hdark, hnext]
    have hposts := State.panelCheck_fails hdark' hcrc
    unfold State.onlyPosts at hposts
    rw [hposts]
    exact ⟨rfl, hdark', rfl, rfl, rfl⟩
  case darkens =>
    have hdark' : s.panelScans.panel.dark = true := by simp [State.panelScans, State.panelNext, hnext]
    cases hr : s.runs 19 with
    | false => exact ⟨_, execPanelFrameStart_restarting (hframe hdue hon) hr, rfl, hdark'⟩
    | true =>
      refine ⟨_, execPanelFrameStart_runs (hframe hdue hon) hr, ?_⟩
      rw [State.panelSwap_none (s := s.panelScans) hswap, State.panelCheck_passes (.inl hdark')]
      exact ⟨rfl, hdark'⟩
  case power =>
    intro b c hadm hb
    refine ⟨fun hoff => ?_, fun hdown => ?_⟩
    · refine (State.command_next runPanelPower hadm).trans (congrArg _ ((runPanelPower_off hb (by simpa using hoff)).trans ?_))
      simp [c]
    · refine (State.command_next runPanelPower hadm).trans (congrArg _ ((runPanelPower_poweringDown hb (by simpa using hdown)).trans ?_))
      simp [c]
  case poweredUp =>
    have hend : s.dueEvery s.panel.frameAt s.frameNs = true := (s.dueEvery_iff _ _).2 hdue
    change execPanelPowerUpComplete s = _
    simp [execPanelPowerUpComplete, hup, hscan, hend, hwant]
  case poweredDown =>
    change execPanelPowerDownComplete s = _
    simp [execPanelPowerDownComplete, Panel.alternates, State.panelWaited, hdown, hframes, hwait]
  case range => exact fun a b => by simp [panelSupplyOk, and_assoc]
  case fault =>
    change execPanelSupplyFault a b s = _
    simp [execPanelSupplyFault, hon, hbad]
  case recovered =>
    change execPanelSupplyRecovered a b s = _
    simp [execPanelSupplyRecovered, hfault, hok]
  case column =>
    obtain ⟨d, hd, hcurrent, hslices, hrev, hpre, hreversed⟩ := State.columnDrive_driven (Panel.driven_on hon) hc hr
    refine ⟨d, hd, hcurrent, hslices, hrev, fun h0 => hpre.trans ?_, fun hpat => hreversed.trans ?_⟩
    · rw [if_neg (by simp [Panel.alternates, hon]), if_neg (Nat.pos_iff_ne_zero.1 h0)]
    · simp [State.reversed, State.revPattern, hpat]
end Sys2Proof.Machine
end

/-! # The recorder

KEEP takes what has reached it in order (R356), and merges, writes, displaces or loses what waits first (R357, R358). -/

section
namespace Sys2Proof.Machine
open Sys2Proof

/-! ## Counts and writes -/

theorem State.modSevCount_sevCount (s : State) (v u : Nat) (f : SevCount → SevCount) :
    (s.modSevCount v f).sevCount u = if u = v then f (s.sevCount u) else s.sevCount u := by
  split
  · next h => rw [h, State.modSevCount_same]
  · next h => exact s.modSevCount_other f h

/-- A change of one count is a new table of the counts. -/
theorem State.modSevCount_eq (s : State) (v : Nat) (f : SevCount → SevCount) : ∃ k : Tab SevCount,
    s.modSevCount v f = { s with mram := { s.mram with sev := k } } ∧ ∀ u, k.get {} u = if u = v then f (s.sevCount u) else s.sevCount u :=
  ⟨_, rfl, fun u => s.modSevCount_sevCount v u f⟩

theorem State.leaveQueue_eq (s : State) (q : Raised) (l : List Raised) :
    ∃ k : Tab SevCount, s.leaveQueue q l = { s with recQueue := l, mram := { s.mram with sev := k } } := ⟨_, rfl⟩

theorem State.leaveQueue_sevCount (s : State) (q : Raised) (l : List Raised) (u : Nat) : (s.leaveQueue q l).sevCount u =
    if u = q.rec_.severity.toNat then { s.sevCount u with waiting := (s.sevCount u).waiting - 1 } else s.sevCount u :=
  State.modSevCount_sevCount { s with recQueue := l } _ _ _

theorem State.writeSlot_quiet {s : State} (h : s.quiet = true) (n : Nat) : s.writeSlot n = s :=
  State.each_eq_self _ _ _ fun _ _ => State.writeItem_quiet h _

/-- The copies that fail, without those of the slot table (R347, R355). -/
def Mram.soundSlots (m : Mram) : List MramItem := m.voidCopies.filter fun c => c != .slotTable false && c != .slotTable true

theorem Mram.soundSlots_again {m k : Mram} (h : m.voidCopies = k.soundSlots) : m.soundSlots = k.soundSlots := by
  unfold Mram.soundSlots at *
  rw [h, List.filter_filter]
  simp only [Bool.and_self]

theorem State.writeSlots_quiet {s : State} (h : s.quiet = true) : s.writeSlots = { s with mram := { s.mram with voidCopies := s.mram.soundSlots } } := by
  unfold State.writeSlots
  rw [State.each_eq_self _ _ _ fun _ _ => State.writeItem_quiet h _]
  rfl

/-! ## What waits for a record (R334, R362) -/

theorem State.owe_onlySup (s : State) (c : Ctx) (st : Status) (cycle : BitVec 32) (b : List Byte) (counts : Bool) :
    s.owe c st cycle b counts = { s with sup := (s.owe c st cycle b counts).sup } := by
  unfold State.owe
  split
  · rfl
  · split
    · split <;> rfl
    · rfl

theorem State.recordDone_onlySup (s : State) (q : Raised) (i : BitVec 32) : s.recordDone q i = { s with sup := (s.recordDone q i).sup } := by
  unfold State.recordDone
  cases q.noteFor <;> cases q.closeFor
  · rfl
  · exact State.owe_onlySup ..
  · exact State.reply_onlySup ..
  · dsimp only
    rw [State.owe_onlySup, State.reply_onlySup]

theorem State.recordDone_silent (s : State) {q : Raised} (hn : q.noteFor = none) (hc : q.closeFor = none) (i : BitVec 32) : s.recordDone q i = s := by
  simp [State.recordDone, hn, hc]

theorem State.recordDone_note (s : State) {q : Raised} {c : Ctx} (hn : q.noteFor = some c) (hc : q.closeFor = none) (i : BitVec 32) :
    s.recordDone q i = s.reply c .ok (toBe 4 i.toNat) := by
  simp [State.recordDone, hn, hc]

/-- A reply depends on SUP, the time and the cycle that is shown. -/
theorem State.reply_sup_congr {s t : State} (hsup : t.sup = s.sup) (hnow : t.now = s.now) (hcycle : t.shownCycle = s.shownCycle) (c : Ctx) (st : Status)
    (b : List Byte) : (t.reply c st b).sup = (s.reply c st b).sup := by
  simp only [State.reply, State.owe, hsup, hnow, hcycle, State.freePlace, apply_ite State.sup]

/-- A note of a user or of a key slot crosses to KEEP from SUP (R362). -/
theorem runRecNote_posts {s : State} {c : Ctx} {b : List Byte} (hcode : 0x8000 ≤ be16 b 0) (hsev : byteAt b 2 ≤ 1) : runRecNote c b s =
    s.postMessage 16 17 2 (.record { noteFor := some c, closeFor := none, stamped := false
                                     rec_ := s.mkRecord (if c.tagged then 0x100 + c.keyslot.toNat else 0x108) (.note (be16 b 0) (byteAt b 2))
                                       (beWord b 4) none none }) := by
  have hsrc : 20 ≤ (BitVec.ofNat 16 (if c.tagged then 0x100 + c.keyslot.toNat else 0x108)).toNat := by
    have := c.keyslot.isLt
    rw [BitVec.toNat_ofNat]
    split <;> omega
  unfold runRecNote
  dsimp only
  rw [if_neg (by omega)]
  unfold State.handRecord
  dsimp only [State.mkRecord]
  rw [if_neg (by omega), if_neg (by omega)]

/-! ## KEEP takes a record (R356) -/

theorem nextRaised_mem {l k : List Raised} {q : Raised} (h : nextRaised l = some (q, k)) : q ∈ l := by
  induction l generalizing q k with
  | nil => cases h
  | cons x l ih =>
    unfold nextRaised at h
    split at h
    · cases h
      exact List.mem_cons_self
    · next hl =>
      split at h <;> cases h
      · exact List.mem_cons_of_mem _ (ih hl)
      · exact List.mem_cons_self

/-- The first is taken where none of its instant comes from a lower SOURCE. -/
theorem nextRaised_first {q : Raised} {l : List Raised} (h : ∀ x ∈ l, x.arrived = q.arrived → q.rec_.source ≤ x.rec_.source) :
    nextRaised (q :: l) = some (q, l) := by
  unfold nextRaised
  split
  · next hl =>
    cases l with
    | nil => rfl
    | cons x l =>
      unfold nextRaised at hl
      split at hl
      · cases hl
      · split at hl <;> cases hl
  · next k rest hl =>
    refine if_neg fun hk => ?_
    simp only [Bool.and_eq_true, beq_iff_eq, decide_eq_true_eq] at hk
    exact absurd hk.2 (BitVec.not_lt.2 (h k (nextRaised_mem hl) hk.1))

section
variable {s : State} {q : Raised} {l : List Raised}

theorem State.recordLost_onlyCounts (s : State) (q : Raised) :
    s.recordLost q = { s with sup := (s.recordLost q).sup, mram := { s.mram with sev := (s.recordLost q).mram.sev } } := by
  unfold State.recordLost
  rw [State.recordDone_onlySup]
  rfl

theorem State.recordLost_counts (s : State) (q : Raised) :
    ((s.recordLost q).sevCount q.rec_.severity.toNat).lost = (s.sevCount q.rec_.severity.toNat).lost + 1 := by
  unfold State.recordLost
  rw [State.recordDone_onlySup]
  exact congrArg SevCount.lost (State.modSevCount_same s q.rec_.severity.toNat fun c => { c with lost := c.lost + 1 })

theorem State.recordLost_silent (s : State) {q : Raised} (hn : q.noteFor = none) (hc : q.closeFor = none) : (s.recordLost q).sup = s.sup := by
  unfold State.recordLost
  rw [State.recordDone_silent _ hn hc]
  rfl

section
variable (hr : s.raised = q :: l) (hl : ∀ x ∈ l, x.arrived = q.arrived → q.rec_.source ≤ x.rec_.source)
include hr hl

theorem execRecordRaised_queues (hroom : s.recQueue.length < 64) : execRecordRaised s =
    .next (({ s with raised := l, recQueue := s.recQueue ++ [q] } : State).modSevCount q.rec_.severity.toNat fun c =>
      { c with waiting := c.waiting + 1 }) := by
  simp [execRecordRaised, hr, nextRaised_first hl, recordQueue, Nat.not_le.2 hroom]

theorem execRecordRaised_loses (hfull : 64 ≤ s.recQueue.length) : execRecordRaised s = .next (({ s with raised := l } : State).recordLost q) := by
  simp [execRecordRaised, hr, nextRaised_first hl, recordQueue, hfull]

end

/-! ## KEEP writes a record (R355, R357, R358) -/

theorem execRecordWrite_places (hm : s.mramChecked = true) (hq : s.recQueue = q :: l) (hmerge : s.mergeTarget q.rec_ = none) :
    execRecordWrite s = .next ((s.leaveQueue q l).placeRecord q) := by
  have hmerge' : (s.leaveQueue q l).mergeTarget q.rec_ = none := hmerge
  simp [execRecordWrite, hm, hq, hmerge']

theorem execRecordWrite_merges (hm : s.mramChecked = true) (hq : s.recQueue = q :: l) {i : BitVec 32} {h : Record}
    (hmerge : s.mergeTarget q.rec_ = some (i, h)) : execRecordWrite s =
      .next ((((s.leaveQueue q l).rewriteRecord i (h.merge q.rec_)).modSevCount q.rec_.severity.toNat fun c =>
        { c with merged := c.merged + 1 }).recordDone q i) := by
  have hmerge' : (s.leaveQueue q l).mergeTarget q.rec_ = some (i, h) := hmerge
  simp [execRecordWrite, hm, hq, hmerge']

/-- The record stands in its slot under the index after NEWEST, in a state that is quiet. -/
theorem State.putRecord_quiet (h : s.quiet = true) (r : Record) (n : Nat) : s.putRecord r n = { s with mram := { s.mram with
    records := s.mram.records ++ [(nextIndex s.mram.newest, { r with slot := n })], newest := nextIndex s.mram.newest
    latest := s.mram.latest.put r.source.toNat (nextIndex s.mram.newest), voidCopies := s.mram.soundSlots } } := by
  unfold State.putRecord
  rw [State.writeSlot_quiet h, State.writeSlots_quiet h]

section
variable (h : s.quiet = true) {i : BitVec 32} {r : Record} (hr : s.mram.record i = some r)
include h hr

/-- The held record of an index gives up its slot, and is counted at its own severity. -/
theorem State.displace_held : s.displace i =
    ({ s with mram := { s.mram with records := s.mram.records.filter fun e => e.1 != i, voidCopies := s.mram.soundSlots } } : State).modSevCount
      r.severity.toNat fun c => { c with overwritten := c.overwritten + 1 } := by
  unfold State.displace
  rw [hr]
  dsimp only
  rw [State.writeSlots_quiet]
  · rfl
  · exact h

theorem State.displace_eq : ∃ k : Tab SevCount, s.displace i = { s with mram := { s.mram with
    records := s.mram.records.filter fun e => e.1 != i, voidCopies := s.mram.soundSlots, sev := k } } :=
  ⟨_, State.displace_held h hr⟩

theorem State.displace_sevCount (u : Nat) : (s.displace i).sevCount u =
    if u = r.severity.toNat then { s.sevCount u with overwritten := (s.sevCount u).overwritten + 1 } else s.sevCount u := by
  rw [State.displace_held h hr]
  exact State.modSevCount_sevCount _ _ _ _

end

/-- A record that finds its slot in `t` is written there and counted. -/
theorem State.placeRecord_room {t : State} {n : Nat} (h : s.roomFor q.rec_ = some (t, n)) (ht : t.quiet = true) : ∃ (x : Sup) (k : Tab SevCount),
    s.placeRecord q = { t with
      sup := x
      mram := { t.mram with
        records := t.mram.records ++ [(nextIndex t.mram.newest, { q.rec_ with slot := n })], newest := nextIndex t.mram.newest
        latest := t.mram.latest.put q.rec_.source.toNat (nextIndex t.mram.newest), voidCopies := t.mram.soundSlots, sev := k } } ∧
      (∀ u, k.get {} u =
        if u = q.rec_.severity.toNat then { t.sevCount u with written := (t.sevCount u).written + 1 } else t.sevCount u) ∧
      (q.noteFor = none → q.closeFor = none → x = t.sup) ∧
      ∀ c, q.noteFor = some c → q.closeFor = none → x = (t.reply c .ok (toBe 4 (nextIndex t.mram.newest).toNat)).sup := by
  unfold State.placeRecord
  rw [h]
  dsimp only
  rw [State.putRecord_quiet ht]
  obtain ⟨k, hk, hcount⟩ := State.modSevCount_eq { t with mram := { t.mram with
    records := t.mram.records ++ [(nextIndex t.mram.newest, { q.rec_ with slot := n })], newest := nextIndex t.mram.newest
    latest := t.mram.latest.put q.rec_.source.toNat (nextIndex t.mram.newest), voidCopies := t.mram.soundSlots } } q.rec_.severity.toNat
    fun c => { c with written := c.written + 1 }
  rw [hk]
  refine ⟨_, k, State.recordDone_onlySup .., hcount, fun hn hc => ?_, fun c hn hc => ?_⟩
  · rw [State.recordDone_silent _ hn hc]
  · rw [State.recordDone_note _ hn hc]
    apply State.reply_sup_congr <;> rfl

theorem State.placeRecord_none (h : s.roomFor q.rec_ = none) : s.placeRecord q = s.recordLost q := by
  unfold State.placeRecord
  rw [h]

theorem State.rewriteRecord_quiet (h : s.quiet = true) (i : BitVec 32) (r : Record) : s.rewriteRecord i r = { s with mram := { s.mram with
    records := s.mram.records.map fun (e : BitVec 32 × Record) => if e.1 == i then (i, r) else e } } := by
  unfold State.rewriteRecord
  rw [State.writeSlot_quiet h]

theorem State.rewriteRecord_sevCount (h : s.quiet = true) (i : BitVec 32) (r : Record) (u : Nat) :
    (s.rewriteRecord i r).sevCount u = s.sevCount u := by
  rw [State.rewriteRecord_quiet h]
  rfl

theorem State.roomFor_free (hnext : s.mram.record (nextIndex s.mram.newest) = none) (hfree : s.mram.records.length < 65536) (r : Record) :
    s.roomFor r = some (s, s.mram.freeSlot) := by
  simp [State.roomFor, hnext, recordSlots, hfree]

theorem State.roomFor_full (hnext : s.mram.record (nextIndex s.mram.newest) = none) (hfull : 65536 ≤ s.mram.records.length) (r : Record) :
    s.roomFor r = (s.mram.records.find? fun e => decide (e.2.severity ≤ r.severity)).map fun e => (s.displace e.1, e.2.slot) := by
  simp [State.roomFor, hnext, recordSlots, Nat.not_lt.2 hfull]

end

/-- Settles O43: a record by where it comes from, KEEP's queue by its room, a write by what it merges with or the slot it finds. -/
theorem recorderRows : Obligations.RecorderRows := by
  unfold Obligations.RecorderRows
  intro s p
  refine ⟨fun q src => ⟨fun hkeep => ?keep, fun hlt hne hsrc => ?island, fun hge => ?above⟩, fun q l hr hl => ?raised,
    fun q l hm hq hmerge hnext hquiet => ?places, fun q l i h hm hq hmerge hquiet => ?merges, ?note⟩
  case keep => exact State.handRecord_keep s q (by rw [hkeep]; rfl)
  case island => exact hsrc ▸ State.handRecord_island s q (hsrc ▸ hlt) (hsrc ▸ hne)
  case above =>
    unfold State.handRecord
    dsimp only
    rw [if_neg (by omega), if_neg (by omega)]
  case raised =>
    refine ⟨fun hroom => execRecordRaised_queues hr hl hroom, fun hfull => ⟨_, execRecordRaised_loses hr hl hfull, ?_, ?_, fun hn hc => ?_⟩⟩
    · exact State.recordLost_onlyCounts _ q
    · exact State.recordLost_counts _ q
    · exact State.recordLost_silent _ hn hc
  case places =>
    obtain ⟨k, hleave⟩ := s.leaveQueue_eq q l
    have hexec := execRecordWrite_places hm hq hmerge
    refine ⟨fun hfree => ?_, fun e hfull hfind hheld => ?_, fun hfull hfind => ?_⟩
    · obtain ⟨x, j, hplace, hcount, hsilent, hnote⟩ := State.placeRecord_room (State.roomFor_free (s := s.leaveQueue q l) hnext hfree q.rec_) hquiet
      refine ⟨_, hexec.trans (congrArg _ hplace), ?_, (hcount _).trans ?_, hsilent,
        fun c hn hc => (hnote c hn hc).trans (by apply State.reply_sup_congr <;> rfl)⟩
      · rw [hleave]
        rfl
      · rw [if_pos rfl, State.leaveQueue_sevCount, if_pos rfl]
    · obtain ⟨i, hdisplace⟩ := State.displace_eq (s := s.leaveQueue q l) hquiet hheld
      have hroom : (s.leaveQueue q l).roomFor q.rec_ = some ((s.leaveQueue q l).displace e.1, e.2.slot) :=
        (State.roomFor_full (s := s.leaveQueue q l) hnext hfull q.rec_).trans (congrArg (Option.map _) hfind)
      have hsound : ((s.leaveQueue q l).displace e.1).mram.soundSlots = s.mram.soundSlots :=
        Mram.soundSlots_again (by rw [hdisplace]; rfl)
      obtain ⟨x, j, hplace, hcount, -, -⟩ := State.placeRecord_room hroom (by rw [hdisplace]; exact hquiet)
      rw [hsound] at hplace
      refine ⟨_, hexec.trans (congrArg _ hplace), ?_, fun u => (hcount u).trans ?_⟩
      · rw [hdisplace, hleave]
        rfl
      · rw [State.displace_sevCount (s := s.leaveQueue q l) hquiet hheld, State.leaveQueue_sevCount]
        split_ifs <;> rfl
    · have hroom : (s.leaveQueue q l).roomFor q.rec_ = none :=
        (State.roomFor_full (s := s.leaveQueue q l) hnext hfull q.rec_).trans (congrArg (Option.map _) hfind)
      rw [State.placeRecord_none hroom, State.recordLost_onlyCounts] at hexec
      refine ⟨_, hexec, ?_, ((s.leaveQueue q l).recordLost_counts q).trans ?_⟩
      · rw [hleave]
      · rw [State.leaveQueue_sevCount, if_pos rfl]
  case merges =>
    obtain ⟨k, hleave⟩ := s.leaveQueue_eq q l
    obtain ⟨j, hmerged, hcount⟩ := State.modSevCount_eq ((s.leaveQueue q l).rewriteRecord i (h.merge q.rec_)) q.rec_.severity.toNat
      fun c => { c with merged := c.merged + 1 }
    have hrewrite := State.rewriteRecord_quiet (s := s.leaveQueue q l) hquiet i (h.merge q.rec_)
    have hexec := execRecordWrite_merges hm hq hmerge
    rw [hmerged, State.recordDone_onlySup] at hexec
    refine ⟨_, hexec, ?_, (hcount _).trans ?_⟩
    · rw [hrewrite, hleave]
    · rw [if_pos rfl, State.rewriteRecord_sevCount (s := s.leaveQueue q l) hquiet, State.leaveQueue_sevCount, if_pos rfl]
  case note =>
    intro b c t hadm hcode hsev
    exact (State.command_next runRecNote hadm).trans (congrArg _ (runRecNote_posts hcode hsev))
end Sys2Proof.Machine
end

/-! # Memory integrity

The end of a page's repair (R343, R344, R348), the bucket (R342), the scrub (R349, R350), and instructions that wait for a page (R343). -/

section
namespace Sys2Proof.Tab

variable {α : Type}

theorem del_put (t : Tab α) (k : Nat) (v : α) : del (put t k v) k = del t k := by
  induction t with
  | nil => simp [put, del]
  | cons p t ih =>
    obtain ⟨j, x⟩ := p
    unfold del at *
    unfold put
    split
    · simp
    · split
      · next hjk => simp [hjk]
      · simp only [List.filter_cons, ih]

/-- An entry that is not the default gives way to the next one written under its key. -/
theorem set_set [DecidableEq α] {d : α} (t : Tab α) (k : Nat) {v : α} (hv : v ≠ d) (w : α) : set d (set d t k v) k w = set d t k w := by
  unfold set
  rw [if_neg hv, put_put, del_put]

end Sys2Proof.Tab

namespace Sys2Proof.Machine
open Sys2Proof

/-! ## Runs over a list -/

/-- What the step for one element brings about, and every step keeps, holds after the run. -/
theorem State.each_reaches {α : Type} {P : State → Prop} {f : State → α → State} {x : α} (hx : ∀ t, P (f t x)) (hf : ∀ t y, P t → P (f t y))
    {l : List α} (hl : x ∈ l) (s : State) : P (s.each l f) := by
  induction l generalizing s with
  | nil => cases hl
  | cons y l ih =>
    obtain rfl | hl := List.mem_cons.1 hl
    · exact State.each_keeps hf (hx s) l
    · exact ih hl (f s y)

/-! ## Records of KEEP (R356) -/

/-- A record of KEEP has arrived at once: nothing else is touched. -/
theorem State.raise_keep (s : State) {k : RecKind} (h : (BitVec.ofNat 16 k.source).toNat = 17) (v : Word) :
    s.raise k v = { s with raised := (s.raise k v).raised } := by
  unfold State.raise State.raiseFrom State.raiseFull
  split
  · rfl
  · rw [State.handRecord_keep _ _ h]
    rfl

/-! ## What a repair touches (R343, R344, R348) -/

/-- `t` differs from `s` in the records that KEEP has received, the errors that stand and what MRAM keeps of banks and spares at most. -/
def State.onlyRepairs (s t : State) : Prop :=
  t = { s with raised := t.raised, upsets := t.upsets
               mram := { s.mram with banks := t.mram.banks, remap := t.mram.remap, voidCopies := t.mram.voidCopies, seqs := t.mram.seqs } }

theorem State.onlyRepairs_refl (s : State) : s.onlyRepairs s := rfl

theorem State.onlyRepairs.trans {s t u : State} (h : s.onlyRepairs t) (k : t.onlyRepairs u) : s.onlyRepairs u := by
  unfold State.onlyRepairs at *
  rw [k, h]

theorem State.onlyRepairs_each {α : Type} {f : State → α → State} (hf : ∀ (t : State) x, t.onlyRepairs (f t x)) (s : State) (l : List α) :
    s.onlyRepairs (s.each l f) :=
  State.each_keeps (P := s.onlyRepairs) (fun t x ht => ht.trans (hf t x)) s.onlyRepairs_refl l

theorem State.raise_onlyRepairs (s : State) {k : RecKind} (h : (BitVec.ofNat 16 k.source).toNat = 17) (v : Word) : s.onlyRepairs (s.raise k v) := by
  rw [s.raise_keep h v]
  rfl

theorem State.remapWord_onlyRepairs (s : State) (a w : Nat) : s.onlyRepairs (s.remapWord a w) := by
  unfold State.remapWord
  dsimp only
  split
  · rfl
  · split
    · exact s.raise_onlyRepairs (by decide) _
    · rw [State.raise_keep _ (by decide)]
      rfl

@[simp] theorem State.remapWord_banks (s : State) (a w : Nat) : (s.remapWord a w).mram.banks = s.mram.banks := by
  unfold State.remapWord
  dsimp only
  split
  · rfl
  · split <;> simp [Mram.wrote, Mram.nextSeq]

@[simp] theorem State.remapWord_upsets (s : State) (a w : Nat) : (s.remapWord a w).upsets = s.upsets := by
  unfold State.remapWord
  dsimp only
  split
  · rfl
  · split <;> simp [State.raise, State.raiseFrom]

/-! ## Poison in a program bank (R344) -/

/-- The word of byte b of program bank a holds the stored-poison pattern. -/
def State.poisonBank (a : Nat) (s : State) (b : Nat) : State := s.modBank a fun k => { k with poison := k.poison.set false (b / 4) true }

theorem State.poisonBank_get (a : Nat) (s : State) (b j : Nat) :
    ((s.poisonBank a b).bank a).poison.get false j = if j = b / 4 then true else (s.bank a).poison.get false j := by
  unfold State.poisonBank
  rw [State.modBank_same]
  dsimp only
  split
  · next hj => rw [hj, Tab.get_set_same]
  · next hj => rw [Tab.get_set_other _ _ _ hj]

section
variable {a : Nat} (ha : a = 0 ∨ a = 1) (s : State) (l : List Nat)
include ha

theorem State.storePoison_bank : s.storePoison a l = s.each l (State.poisonBank a) := by
  obtain rfl | rfl := ha <;> rfl

/-- The words of the bytes are marked. -/
theorem State.storePoison_marks {b : Nat} (hb : b ∈ l) : ((s.storePoison a l).bank a).poison.get false (b / 4) = true := by
  rw [State.storePoison_bank ha]
  refine State.each_reaches (P := fun t => (t.bank a).poison.get false (b / 4) = true) (fun t => ?_) (fun t c ht => ?_) hb s
  · rw [State.poisonBank_get, if_pos rfl]
  · rw [State.poisonBank_get, ht, ite_self]

theorem State.storePoison_onlyRepairs : s.onlyRepairs (s.storePoison a l) := by
  rw [State.storePoison_bank ha]
  exact State.onlyRepairs_each (f := State.poisonBank a) (fun _ _ => rfl) s l

theorem State.storePoison_upsets : (s.storePoison a l).upsets = s.upsets := by
  rw [State.storePoison_bank ha]
  exact State.each_field State.upsets (f := State.poisonBank a) (fun _ _ => rfl) s l

end

/-! ## The end of a repair (R340, R343) -/

theorem repairable_dedup (bad : List Nat) (n : Nat) : repairable bad.dedup n = repairable bad n := by
  have hlen : ((bad.dedup).map (· / 2)).dedup.length = (bad.map (· / 2)).dedup.length := by
    rw [← List.card_toFinset, ← List.card_toFinset]
    congr 1
    ext x
    simp
  unfold repairable
  rw [hlen]

theorem State.dropUpsets_nil (s : State) : s.dropUpsets [] = s := by
  simp [State.dropUpsets]

theorem State.restHard_nil (s : State) (a page : Nat) (bad : List Nat) : s.restHard a page bad [] = s := by
  simp [State.restHard]

/-- The remaps at the end of a repair of page `page` of array `a`. -/
def State.remapWords (s : State) (a page : Nat) (l : List Nat) : State := s.each l.dedup fun s w => s.remapWord a (page * 512 + wordOf w)

theorem State.remapWords_onlyRepairs (s : State) (a page : Nat) (l : List Nat) : s.onlyRepairs (s.remapWords a page l) :=
  State.onlyRepairs_each (fun t _ => t.remapWord_onlyRepairs _ _) s _

section
variable {s : State} {a : Fin 8} {k : PageLock} {bad : List Nat} {n : Nat} 

theorem State.upsets_page_nil (hclear : ∀ u ∈ s.upsets, u.array ≠ a.val ∨ u.page ≠ k.page) :
    (s.upsets.filter fun u => u.array == a.val && u.page == k.page) = [] :=
  List.filter_eq_nil_iff.2 fun u hu => by simpa [imp_iff_not_or] using hclear u hu

variable (hk : s.locks.find? (·.array == a.val) = some k) (hclear : ∀ u ∈ s.upsets, u.array ≠ a.val ∨ u.page ≠ k.page)
include hk hclear

theorem execPageRepairComplete_repairs (hr : repairable bad n = true) : execPageRepairComplete a bad n [] s =
    .next (({ s with locks := s.locks.erase k }.modArr a fun x => { x with repaired := satInc x.repaired }).raise .memPageRepaired
      (pageValue a k.page)).resume := by
  unfold execPageRepairComplete
  simp only [hk, State.upsets_page_nil hclear, List.filter_nil, List.map_nil, List.append_nil, repairable_dedup, hr, State.dropUpsets_nil,
    State.restHard_nil, if_true, List.dedup_nil, State.each, List.foldl_nil]

/-- The state in which a page that its code cannot repair has been counted, marked and remapped, before its hard bytes are left to the codes. -/
def State.unrepaired (s : State) (a : Fin 8) (k : PageLock) (bad hard : List Nat) : State :=
  let t := ({ s with locks := s.locks.erase k }.modArr a fun x => { x with unrepairable := satInc x.unrepairable }).raise .memRepairFailed
    (pageValue a k.page)
  (t.storePoison a (((bad.dedup.filter (· < 512)).map (k.page * 512 + ·)).filter fun b => !k.replaced b)).remapWords a k.page
    ((bad.dedup.filter (· < 512)).map wordOf ++ hard.filter (· < 512))

theorem execPageRepairComplete_fails {hard : List Nat} (hr : repairable bad n = false) : execPageRepairComplete a bad n hard s =
    .next ((s.unrepaired a k bad hard).restHard a k.page bad.dedup hard).resume := by
  unfold execPageRepairComplete
  simp only [hk, State.upsets_page_nil hclear, List.filter_nil, List.map_nil, List.append_nil, repairable_dedup, hr, State.dropUpsets_nil]
  rfl

end

section
variable (s : State) {a : Fin 8} (ha : a.val = 0 ∨ a.val = 1) (k : PageLock) (bad hard : List Nat)
include ha

theorem State.unrepaired_onlyRepairs : State.onlyRepairs
    ({ s with locks := s.locks.erase k }.modArr a fun x => { x with unrepairable := satInc x.unrepairable }) (s.unrepaired a k bad hard) :=
  ((State.raise_onlyRepairs _ (by decide) _).trans (State.storePoison_onlyRepairs ha _ _)).trans (State.remapWords_onlyRepairs _ _ _ _)

theorem State.unrepaired_upsets : (s.unrepaired a k bad hard).upsets = s.upsets := by
  unfold State.unrepaired State.remapWords
  rw [State.each_field State.upsets (fun t w => t.remapWord_upsets _ _), State.storePoison_upsets ha, State.raise, State.raiseFrom,
    State.raiseFull_upsets]
  rfl

theorem State.unrepaired_marks (hk : k.array = a.val) (hw : k.written = []) {b : Nat} (hb : b ∈ bad) (hlt : b < 512) :
    ((s.unrepaired a k bad hard).bank a).poison.get false ((k.page * 512 + b) / 4) = true := by
  have hbanks : ∀ (t : State) (l : List Nat), (t.remapWords a k.page l).bank a = t.bank a := fun t l =>
    congrArg (Tab.get ({} : Bank) · a.val) (State.each_field (fun u : State => u.mram.banks)
      (f := fun u w => u.remapWord a (k.page * 512 + wordOf w)) (fun u w => u.remapWord_banks _ _) t _)
  have hreplaced : k.replaced (k.page * 512 + b) = false := by
    have : k.array ≠ 7 := by omega
    simp [PageLock.replaced, hw, this]
  unfold State.unrepaired
  rw [hbanks]
  exact State.storePoison_marks ha _ _ (List.mem_filter.2 ⟨List.mem_map.2 ⟨b, by simp [hb, hlt], rfl⟩, by simp [hreplaced]⟩)

end

theorem State.onlyRepairs.arrays {s t : State} (h : s.onlyRepairs t) : t.arrays = s.arrays := by
  rw [h]

theorem State.onlyRepairs.arr {s t : State} (h : s.onlyRepairs t) (n : Nat) : t.arr n = s.arr n := congrArg (Tab.get ({} : Arr) · n) h.arrays

/-- A state in which one array has been counted after a lock has gone, and that differs from it by repairs at most. -/
theorem State.onlyRepairs.of_counted {s t : State} {l : List PageLock} {a : Nat} {f : Arr → Arr} (h : State.onlyRepairs ({ s with locks := l }.modArr a f) t) :
    t = { s with locks := l, arrays := t.arrays, raised := t.raised, upsets := t.upsets
                 mram := { s.mram with banks := t.mram.banks, remap := t.mram.remap, voidCopies := t.mram.voidCopies, seqs := t.mram.seqs } } := by
  rw [h.arrays]
  exact h

/-- The bytes that go on failing were hard at the check after the repair, and have no spare. -/
theorem State.restHard_upsets {s : State} {a page : Nat} {bad hard : List Nat} {u : Upset} (hu : u ∈ (s.restHard a page bad.dedup hard).upsets) :
    u ∈ s.upsets ∨ (u.array = a ∧ u.page = page ∧ u.hard = true ∧ u.multi = bad.contains u.byte ∧ u.byte ∈ hard ∧ s.spared u = false) := by
  obtain hu | hu := List.mem_append.1 hu
  · exact .inl hu
  · obtain ⟨hmem, hspared⟩ := List.mem_filter.1 hu
    obtain ⟨b, hb, rfl⟩ := List.mem_map.1 hmem
    exact .inr ⟨rfl, rfl, rfl, by simp [List.contains_eq_mem], List.mem_dedup.1 hb, by simpa using hspared⟩

/-! ## What waited for a page (R343) -/

theorem State.storeWaiting_none {s : State} {p : Nat} (h : (s.can p).storing = []) : s.storeWaiting p = s := by
  simp [State.storeWaiting, h]

/-- Where nothing waits, nothing goes on. -/
theorem State.resume_idle {s : State} (hread : s.sup.stalled = []) (hstore : ∀ k < 2, (s.can k).storing = []) (hloop : s.loop.waiting = []) :
    s.resume = s := by
  have hsup : ({ s with sup := { s.sup with stalled := [] } } : State) = s := by rw [← hread]
  have hrun : s.loopRun [] = s := by rw [State.loopRun, ← hloop]
  have hcans : s.each [0, 1] State.storeWaiting = s := State.each_eq_self _ _ _ fun k hk =>
    State.storeWaiting_none (hstore k (by simp only [List.mem_cons, List.not_mem_nil, or_false] at hk; omega))
  have hreads : s.each [] resumeRead = s := rfl
  unfold State.resume
  dsimp only
  rw [hsup, hread, hreads, hcans, hloop, hrun, ite_self]

/-- SW waits for the page of its word before it reads what it would write over. -/
theorem execSw_waitsPage {s : State} {e : Fin 4} {o : Operand} (v : Verdict) (hs : s.stands (.sw e o v) = true)
    (hl : s.spanLocked s.runBankNo (4 * s.pcOf e) 4 = true) : execSw e o v s = .next (s.waitPage e) := by
  have hhold : s.holdIssue e 1 (s.wordStore e o 1) = some (s.waitPage e) := by simp [State.holdIssue, hl]
  simp only [execSw, hhold, Option.isNone_some, Bool.and_false, Bool.false_eq_true, if_false]
  exact State.issue_waits _ _ _ rfl hs (.inl hl)

/-- Every instruction of an engine is issued by it, and so waits for the page of its words. -/
theorem exec_waitsPage {s : State} {i : Instr} {e : Fin 4} {ws : List Word} (he : encodeEngine i = some (e, ws)) (hs : s.stands i = true)
    (hl : s.spanLocked s.runBankNo (4 * s.pcOf e) (4 * ws.length) = true) : exec i s = .next (s.waitPage e) := by
  have hwaits := fun clk run touch => State.issue_waits (s := s) clk run touch he hs (.inl hl)
  cases i
  case sw => cases he; exact execSw_waitsPage _ hs hl
  all_goals first
    | (cases he; done)
    | simp only [exec, execNop, execEnd, execRet, execLd, execLdn, execAnd, execAndn, execOr, execOrn, execXor, execXorn, execOut, execSetb, execClrb,
        execInv, execCbset, execCbclr, execAndOpen, execAndnOpen, execOrOpen, execOrnOpen, execXorOpen, execXornOpen, execCloseBracket, execAndr,
        execAndf, execOrr, execOrf, execTon, execTof, execTp, execTclr, execCup, execCdn, execCld, execCclr, execLw, execLwi, execMove, execBmove,
        execSwap, execAdd, execSub, execMul, execDiv, execRem, execNeg, execEq, execNe, execGt, execGe, execLt, execLe, execJmp, execJt, execJf,
        execJov, execJovs, execCall, execCallt, execTot, execSev, State.issueRegs, State.issueBit, State.setClear, State.issueOpen, State.issueEdge,
        State.issueTimer, State.issueCounter, State.issueJump, hwaits]

/-! ## The bucket and the scrub (R342, R349, R350) -/

section
variable {s : State} {a : Fin 8}

theorem execBucketLeak_due (hfull : (s.arr a).bucket ≠ 0) (hdue : (s.arr a).leakFrom + s.bucketLeakNs a ≤ s.now) : execBucketLeak a s =
    .next (s.setArr a { s.arr a with bucket := (s.arr a).bucket - 1, leakFrom := (s.arr a).leakFrom + s.bucketLeakNs a }) := by
  simp [execBucketLeak, hfull, hdue]

theorem State.scrubTo_clear (h : s.upsets = []) (place : Nat) : s.scrubTo a place = s.modArr a fun x => { x with scrubbed := place } := by
  simp [State.scrubTo, h, State.each]

section
variable {d : Nat}

/-- What a scrub read finds where the word's check after the correction fails or not. -/
def Verdict.rechecked (h : Bool) : Verdict → Verdict
  | .corrected n k => .corrected n (k || h)
  | v => v

theorem execScrubRead_reaches (hon : s.scrubs a = true) (hlock : s.locked a d = false) (hplace : (s.arr a).scrubbed ≤ dataPlace d)
    (hdue : s.passAt a (dataPlace d) ≤ s.now) (hup : s.upsets = []) (v : Verdict) (h : Bool) : execScrubRead a d v h s =
      .next ((s.modArr a fun x => { x with scrubbed := dataPlace d + 4 }).judgeScrub a d
        (Verdict.rechecked h v)) := by
  unfold execScrubRead
  dsimp only
  rw [if_neg (by simp [hon, hlock, Nat.not_lt.2 hplace, Nat.not_lt.2 hdue]), State.scrubTo_clear hup]
  rfl

theorem execScrubRead_elsewhere (h : dataPlace d < (s.arr a).scrubbed ∨ s.now < s.passAt a (dataPlace d)) (v : Verdict) (k : Bool) :
    execScrubRead a d v k s = .next s :=
  if_pos (by obtain h | h := h <;> simp [h])

end

theorem execScrubPassComplete_early (h : s.now < s.passAt a (storedBytes a)) : execScrubPassComplete a s = .next s :=
  if_pos (by simp [h])

theorem storedBytes_ne_zero (a : Fin 8) : storedBytes a ≠ 0 := by revert a; decide

theorem State.modArr_modArr {f g : Arr → Arr} (hf : f (s.arr a) ≠ {}) : (s.modArr a f).modArr a g = s.modArr a fun x => g (f x) := by
  unfold State.modArr
  rw [State.setArr_same]
  unfold State.setArr
  dsimp only
  rw [Tab.set_set _ _ hf]

theorem execScrubPassComplete_ends (hon : s.scrubs a = true) (hdue : s.passAt a (storedBytes a) ≤ s.now) (hup : s.upsets = []) :
    execScrubPassComplete a s = .next (s.modArr a fun x => { x with scrubbed := 0, scrubFrom := s.now, passFrom := s.now, commanded := false }) := by
  unfold execScrubPassComplete
  dsimp only
  rw [if_neg (by simp [hon, Nat.not_lt.2 hdue]), State.scrubTo_clear hup]
  exact congrArg _ (State.modArr_modArr fun h => storedBytes_ne_zero a (congrArg Arr.scrubbed h))

end

theorem runScrubNow_starts {s : State} {c : Ctx} {b : List Byte} (hn : byteAt b 0 ≤ 7) (hon : (s.arr (byteAt b 0)).sealed_ = true)
    (hfree : (s.arr (byteAt b 0)).commanded = false) : runScrubNow c b s =
      (s.modArr (byteAt b 0) fun x => { x with commanded := true, passFrom := s.now, scrubbed := 0 }).ok c := by
  simp [runScrubNow, Nat.not_lt.2 hn, hon, hfree]

/-- Settles O42: a repair that fails is the count, the marks, the remaps and what is left to the codes, in that order; the others are the rows' own guards. -/
theorem memoryRows : Obligations.MemoryRows := by
  intro s p a
  refine ⟨fun k bad n hk hr hclear => execPageRepairComplete_repairs hk hclear hr, State.resume_idle, ?fails, execBucketLeak_due, ?reads,
    fun d v h helse => execScrubRead_elsewhere helse v h, execScrubPassComplete_early, execScrubPassComplete_ends, fun i e ws => exec_waitsPage, ?now⟩
  case fails =>
    intro k bad n hard hk hr hw hclear ha
    have harray : k.array = a.val := by simpa using List.find?_some hk
    have honly := s.unrepaired_onlyRepairs ha k bad hard
    have hupsets := s.unrepaired_upsets ha k bad hard
    have hmarks := fun b => s.unrepaired_marks ha k bad hard harray hw (b := b)
    have hexec := execPageRepairComplete_fails hk hclear (hard := hard) hr
    generalize s.unrepaired a k bad hard = u at honly hupsets hmarks hexec
    have hrest : State.onlyRepairs _ (u.restHard a k.page bad.dedup hard) := honly.trans rfl
    refine ⟨u.restHard a k.page bad.dedup hard, hexec, hrest.of_counted, fun x hx => ?_, fun b hb => ?_, ?_, ?_, hmarks⟩
    · exact (State.restHard_upsets hx).imp_left (hupsets ▸ ·)
    · rw [hrest.arr, State.modArr_other _ _ hb]
      rfl
    · rw [hrest.arr, State.modArr_same]
      rfl
    · rw [hrest.arr, State.modArr_same]
      rfl
  case reads =>
    intro d n h hon hlock hplace hdue hup
    have hreach := execScrubRead_reaches hon hlock hplace hdue hup
    exact ⟨hreach .clean h, hreach (.corrected n false) false, hreach (.corrected n false) true, hreach (.uncorrectable n) h⟩
  case now =>
    intro n hadm hn hon hfree
    have harr : (s.admitted p scrubNowDesc).arr n = s.arr n := s.admitted_congr (State.arr · n) p _ (fun _ _ => rfl)
    refine (State.command_next runScrubNow hadm).trans (congrArg _ ?_)
    rw [runScrubNow_starts hn (by rw [harr, hon]) (by rw [harr, hfree]), State.admitted_now]

end Sys2Proof.Machine
end

/-! # The ring and module time

Links, frames and station frames (R380 to R384), what a Sync does (R389, R390), and temperature (R425). -/

section
namespace Sys2Proof.Machine
open Sys2Proof

/-! ## Frames of the ring and what was posted -/

/-- `t` differs from `s` in the ring and in what has crossed at most. -/
def State.onlyLinks (s t : State) : Prop := t = { s with ring := t.ring, crossings := t.crossings, nextSend := t.nextSend }

theorem State.onlyLinks.trans {s t u : State} (h : s.onlyLinks t) (k : t.onlyLinks u) : s.onlyLinks u := by
  unfold State.onlyLinks at *
  rw [k, h]

theorem State.onlyPosts.trans {s t u : State} (h : s.onlyPosts t) (k : t.onlyPosts u) : s.onlyPosts u := by
  unfold State.onlyPosts at *
  rw [k, h]

theorem State.onlyPosts.onlyLinks {s t : State} (h : s.onlyPosts t) : s.onlyLinks t := by
  unfold State.onlyPosts at h
  rw [h]
  rfl

theorem State.raise_onlyLinks (s : State) {k : RecKind} (h : (BitVec.ofNat 16 k.source).toNat ≠ 17) (v : Word) : s.onlyLinks (s.raise k v) :=
  (s.raiseFrom_onlyPosts h k v).onlyLinks

/-! ## The state of module time (R390) -/

/-- The ring when time has entered a state. -/
def Ring.entered (r : Ring) (x : TimeState) : Ring :=
  { r with
    time := x, inLimit := 0, announced := r.announced && !(x == .freeRun || x == .holdover), stepped := r.stepped && x != .acquiring
    ratePpb := if x == .freeRun then 0 else r.ratePpb }

@[simp] theorem State.enterTime_ring (s : State) (x : TimeState) : (s.enterTime x).ring = s.ring.entered x := by
  unfold State.enterTime
  dsimp only
  split
  · rfl
  · cases x with
    | freeRun | holdover => dsimp only; split <;> simp [Ring.entered]
    | acquiring => rfl
    | locked => simp [Ring.entered]

theorem State.enterTime_onlyLinks (s : State) (x : TimeState) : s.onlyLinks (s.enterTime x) := by
  have hlinks : s.onlyLinks { s with ring := s.ring.entered x } := rfl
  unfold State.enterTime
  dsimp only
  split
  · exact hlinks
  · cases x with
    | freeRun | holdover =>
      dsimp only
      split
      · exact hlinks.trans (State.raise_onlyLinks _ (by decide) _)
      · exact hlinks
    | acquiring => exact hlinks
    | locked => exact hlinks.trans (State.raise_onlyLinks _ (by decide) _)

/-- Leaving LOCKED for HOLDOVER is recorded. -/
theorem State.enterTime_holdover {s : State} (h : s.ring.time = .locked) : s.enterTime .holdover =
    { s with ring := { s.ring with time := .holdover, inLimit := 0, announced := false } }.raise .ptpLost 3 := by
  have hkept : (TimeState.holdover != TimeState.acquiring) = true := rfl
  simp [State.enterTime, h, hkept]

/-! ## Links (R380, R382) -/

theorem State.judgePtpPort_onlyLinks (s : State) : s.onlyLinks s.judgePtpPort := by
  unfold State.judgePtpPort
  dsimp only
  split
  · rfl
  split
  · exact State.onlyLinks.trans (t := { s with ring := { s.ring with ptpPort := s.syncPort } }) rfl (State.enterTime_onlyLinks _ _)
  · rfl

@[simp] theorem State.judgePtpPort_ports (s : State) : s.judgePtpPort.ring.ports = s.ring.ports := by
  unfold State.judgePtpPort
  dsimp only
  split
  · rfl
  split
  · rw [State.enterTime_ring]
    rfl
  · rfl

@[simp] theorem State.pathAlarm_ring (s : State) (path : Nat) : (s.pathAlarm path).ring = s.ring := State.raise_ring _ _ _

@[simp] theorem State.ringPathLost_ring (s : State) : s.ringPathLost.ring = s.ring := by
  unfold State.ringPathLost State.judgePaths
  repeat' split
  all_goals simp

theorem State.ringPort_congr {s t : State} (h : t.ring.ports = s.ring.ports) (n : Nat) : t.ringPort n = s.ringPort n :=
  congrArg (Tab.get ({} : RingPort) · n) h

/-- A port has lost its link. -/
def RingPort.unlinked (x : RingPort) : RingPort := { x with link := false, gigabit := false, degraded := false, queue := [] }

theorem State.loseLink_ringPort (s : State) (p n : Nat) : (s.loseLink p).ringPort n = (s.modRingPort p RingPort.unlinked).ringPort n :=
  State.ringPort_congr (by simp [State.loseLink]; rfl) n

section
variable {s : State} {p : Fin 2}

theorem execRingLinkUp_links (hdown : (s.ringPort p).link = false) (hrun : (s.island (10 + p)).state = .run) (g : Bool) :
    ∃ t, execRingLinkUp p g s = .next t ∧ s.onlyLinks t ∧
      t.ringPort p = { s.ringPort p with link := true, gigabit := g, degraded := !g } := by
  have hsrc : (BitVec.ofNat 16 (10 + p.val)).toNat ≠ 17 := by
    rw [BitVec.toNat_ofNat]
    omega
  have hmod : s.onlyLinks (s.modRingPort p fun x => { x with link := true, gigabit := g, degraded := !g }) := rfl
  have hport := s.modRingPort_same p fun x => { x with link := true, gigabit := g, degraded := !g }
  unfold execRingLinkUp
  dsimp only
  rw [if_neg (by simp [hdown, hrun])]
  generalize s.modRingPort p _ = u at hmod hport
  refine ⟨_, rfl, ?_, ?_⟩
  · refine State.onlyLinks.trans ?_ (State.judgePtpPort_onlyLinks _)
    split
    · exact hmod
    · exact hmod.trans (State.raiseFrom_onlyPosts _ hsrc _ _).onlyLinks
  · rw [← hport]
    refine State.ringPort_congr ?_ _
    rw [State.judgePtpPort_ports]
    split <;> simp

end

/-! ## A port takes a frame (R384) -/

section
variable {x : RingPort} {p now : Nat} {f : HsrFrame}

theorem RingPort.sentBy_busy (h : now < x.busyUntil) : x.sentBy p now x.queue = x := by
  obtain ⟨q, hq⟩ : ∃ q, q = x.queue := ⟨_, rfl⟩
  cases q with
  | nil => rw [← hq]; unfold RingPort.sentBy; rw [hq]
  | cons g l => rw [← hq]; unfold RingPort.sentBy; rw [if_neg (Nat.not_le.2 h), hq]

theorem RingPort.take_idle (hq : x.queue = []) (h : x.busyUntil ≤ now) :
    x.take p now f = { x with onLink := some f, busyUntil := now + x.frameNs p f } := by
  have hsent : x.sentBy p now [] = x := by unfold RingPort.sentBy; rw [← hq]
  unfold RingPort.take
  rw [hq, hsent]
  simp [hq, h]

theorem RingPort.take_busy (h : now < x.busyUntil) : x.take p now f = { x with queue := placeFrame f x.queue } := by
  unfold RingPort.take
  rw [RingPort.sentBy_busy h]
  simp [Nat.not_le.2 h]

end

theorem placeFrame_other {f : HsrFrame} (h : isStation f = false) (l : List HsrFrame) : placeFrame f l = l ++ [f] := by
  induction l with
  | nil => rfl
  | cons g l ih => simp [placeFrame, h, ih]

theorem placeFrame_station {f : HsrFrame} (h : isStation f = true) {a b : List HsrFrame} (ha : ∀ g ∈ a, isStation g = true)
    (hb : ∀ g ∈ b, isStation g = false) : placeFrame f (a ++ b) = a ++ f :: b := by
  induction a with
  | nil =>
    cases b with
    | nil => rfl
    | cons g b => simp [placeFrame, h, hb g]
  | cons g a ih =>
    rw [List.cons_append, placeFrame, ha g (by simp), ih fun x hx => ha x (by simp [hx])]
    simp

theorem ringFits_iff (l : List Byte) : ringFits l = true ↔ l.length ≤ 1440 := by
  simp only [ringFits, decide_eq_true_eq]
  omega

theorem State.portTx_ringPort_same (s : State) (p : Nat) (f : HsrFrame) : (s.portTx p f).ringPort p =
    if s.ringPortUp p = true ∧ f.payload.length ≤ 1440 then (s.ringPort p).take p s.now f else s.ringPort p := by
  unfold State.portTx
  simp only [Bool.and_eq_true, ringFits_iff]
  split
  · exact s.modRingPort_same p _
  · rfl

theorem State.sendRing_ringPort (s : State) (d : BitVec 48) (e : BitVec 16) (l : List Byte) {n : Nat} (hn : n < 2) : (s.sendRing d e l).ringPort n =
    if s.ringPortUp n = true ∧ l.length ≤ 1440 then (s.ringPort n).take n s.now (s.ownFrame d e l) else s.ringPort n := by
  unfold State.sendRing
  dsimp only
  obtain rfl | rfl : n = 0 ∨ n = 1 := by omega
  · rw [State.portTx_ringPort_other _ _ (by decide), State.portTx_ringPort_same]
    rfl
  · rw [State.portTx_ringPort_same, State.portTx_ringPortUp, State.portTx_ringPort_other _ _ (by decide), State.portTx_eq]
    rfl

theorem State.sendRing_hsrSeq (s : State) (d : BitVec 48) (e : BitVec 16) (l : List Byte) : (s.sendRing d e l).ring.hsrSeq = s.ring.hsrSeq + 1 := by
  have hkeep : ∀ (t : State) p f, (t.portTx p f).ring.hsrSeq = t.ring.hsrSeq := fun t p f => by
    unfold State.portTx
    split <;> rfl
  unfold State.sendRing
  rw [hkeep, hkeep]

/-! ## A frame arrives (R380, R381, R383) -/

/-- The port has counted a frame and keeps the node that a supervision frame names. -/
def RingPort.heard (x : RingPort) (f : HsrFrame) : RingPort :=
  { x with rxFrames := x.rxFrames + 1
           nodes := if (f.etherType == etSupervision && f.dest == groupSupervision) && !x.nodes.contains f.source && x.nodes.length < 256
             then x.nodes ++ [f.source] else x.nodes }

/-- The first copy of a frame is remembered; an Announce lets time be acquired. -/
def State.remembers (s : State) (f : HsrFrame) : State :=
  { s with ring := { s.ring with
    seen := (s.ring.seen.filter fun e => decide (s.now < e.2.2 + 400000000)) ++ [(f.source, f.seq, s.now)]
    announced := s.ring.announced || (s.ptpEn && s.ptpType f == some 11) } }

theorem State.remembers_hsrSeen (s : State) (f : HsrFrame) : (s.remembers f).hsrSeen f = true := by
  simp [State.remembers, State.hsrSeen]

@[simp] theorem State.portTx_hsrSeen (s : State) (p : Nat) (f g : HsrFrame) : (s.portTx p f).hsrSeen g = s.hsrSeen g := by
  rw [State.portTx_onlyFrames s p f]
  rfl

section
variable {s : State} {p : Fin 2} {f : HsrFrame}

theorem Fin.other_ne (p : Fin 2) : 1 - p.val ≠ p.val := by omega

/-- What a port does with a frame that goes on leaves the other one. -/
theorem State.modRingPort_across (s : State) (p : Fin 2) (g : RingPort → RingPort) : (s.modRingPort p g).ringPort (1 - p.val) = s.ringPort (1 - p.val) :=
  s.modRingPort_other g (Fin.other_ne p)

section
variable (hup : s.ringPortUp p = true)
include hup

theorem execHsrFrameReceived_enumerate (hf : isEnumerate f = true) : execHsrFrameReceived p f s = .next
    { s.modRingPort p (·.heard f) with ring := { (s.modRingPort p (·.heard f)).ring with enumTag := s.ring.enumTag.put p.val (f.payload, f.seq) } } := by
  simp only [execHsrFrameReceived, hup, hf, Bool.not_true, Bool.false_eq_true, if_false, if_true]
  rfl

variable (hf : isEnumerate f = false)
include hf

theorem execHsrFrameReceived_again (hcopy : f.source = s.mram.mac ∨ s.hsrSeen f = true) :
    execHsrFrameReceived p f s = .next ((s.modRingPort p (·.heard f)).modRingPort p fun x => { x with duplicates := x.duplicates + 1 }) := by
  have hold : (f.source == s.mram.mac || s.hsrSeen f) = true := by simpa using hcopy
  unfold execHsrFrameReceived
  rw [if_neg (by simp [hup]), if_neg (by simp [hf])]
  exact if_pos hold

theorem execHsrFrameReceived_first (hown : f.source ≠ s.mram.mac) (hnew : s.hsrSeen f = false) : execHsrFrameReceived p f s = .next
    (let t := (s.modRingPort p (·.heard f)).remembers f
     if isStation f && !stationKnown f.payload then t.modRingPort p fun x => { x with badStation := satInc x.badStation }
     else if s.consumes f then t else t.portTx (1 - p.val) (s.throughClock f)) := by
  have hold : ¬(f.source == s.mram.mac || s.hsrSeen f) = true := by simpa using ⟨hown, hnew⟩
  unfold execHsrFrameReceived
  rw [if_neg (by simp [hup]), if_neg (by simp [hf])]
  refine (if_neg hold).trans ?_
  dsimp only
  split
  · rfl
  · exact (apply_ite Host.Outcome.next (s.consumes f = true) _ _).symm

end

theorem State.throughClock_fits (s : State) (f : HsrFrame) : (s.throughClock f).payload.length ≤ 1440 ↔ f.payload.length ≤ 1440 := by
  unfold State.throughClock
  split
  · simp only [List.length_append, List.length_take, List.length_drop, length_toBe]
    omega
  · rfl

theorem State.throughClock_other (s : State) (h : f.etherType ≠ etPtp) : s.throughClock f = f := by
  simp [State.throughClock, State.ptpType, h]

/-- The copy that goes on leaves by the other port, where that is up and the frame fits. -/
theorem State.forwarded_ringPort (s : State) (p : Fin 2) (f : HsrFrame) (t : State) (ht : t = (s.modRingPort p (·.heard f)).remembers f) :
    (t.portTx (1 - p.val) (s.throughClock f)).ringPort (1 - p.val) =
      if s.ringPortUp (1 - p.val) = true ∧ f.payload.length ≤ 1440 then (s.ringPort (1 - p.val)).take (1 - p.val) s.now (s.throughClock f)
      else s.ringPort (1 - p.val) := by
  have hport : t.ringPort (1 - p.val) = s.ringPort (1 - p.val) := by
    rw [ht]
    exact (State.ringPort_congr rfl _).trans (s.modRingPort_across p (·.heard f))
  have hup : t.ringPortUp (1 - p.val) = s.ringPortUp (1 - p.val) := by
    unfold State.ringPortUp
    rw [hport, ht]
    rfl
  have hnow : t.now = s.now := by rw [ht]; rfl
  simp only [State.portTx_ringPort_same, State.throughClock_fits, hport, hup, hnow]

end

/-- A port counts a station frame of an unknown kind or version. -/
def RingPort.badStationHeard (x : RingPort) : RingPort := { x with badStation := satInc x.badStation }

/-- What the first copy of a frame comes to: an unknown station frame counts, one that is consumed stays, and any other goes on. -/
theorem State.firstCopy_reaches (s : State) (p : Fin 2) (f : HsrFrame) (t : State) (ht : t = (let u := (s.modRingPort p (·.heard f)).remembers f
      if isStation f && !stationKnown f.payload then u.modRingPort p fun x => { x with badStation := satInc x.badStation }
      else if s.consumes f then u else u.portTx (1 - p.val) (s.throughClock f))) :
    t = { s with ring := t.ring } ∧ (t.ringPort p).rxFrames = (s.ringPort p).rxFrames + 1 ∧ t.hsrSeen f = true ∧
      if isStation f && !stationKnown f.payload then
        (t.ringPort p).badStation = satInc (s.ringPort p).badStation ∧ t.ringPort (1 - p.val) = s.ringPort (1 - p.val)
      else (t.ringPort p).badStation = (s.ringPort p).badStation ∧
        t.ringPort (1 - p.val) = if s.consumes f = false ∧ s.ringPortUp (1 - p.val) = true ∧ f.payload.length ≤ 1440
          then (s.ringPort (1 - p.val)).take (1 - p.val) s.now (s.throughClock f) else s.ringPort (1 - p.val) := by
  have hforward := s.forwarded_ringPort p f _ rfl
  have hheard : ((s.modRingPort p (·.heard f)).remembers f).ringPort p = (s.ringPort p).heard f := s.modRingPort_same p (·.heard f)
  have hother : ((s.modRingPort p (·.heard f)).remembers f).ringPort (1 - p.val) = s.ringPort (1 - p.val) := s.modRingPort_across p (·.heard f)
  have hseen := (s.modRingPort p (·.heard f)).remembers_hsrSeen f
  have honly : (s.modRingPort p (·.heard f)).remembers f = { s with ring := ((s.modRingPort p (·.heard f)).remembers f).ring } := rfl
  dsimp only at ht
  generalize (s.modRingPort p (·.heard f)).remembers f = u at ht hforward hheard hother hseen honly
  by_cases hbad : (isStation f && !stationKnown f.payload) = true
  · rw [if_pos hbad] at ht ⊢
    have hsame : t.ringPort p = ((s.ringPort p).heard f).badStationHeard := by
      rw [ht, ← hheard]
      exact u.modRingPort_same p _
    refine ⟨?_, by rw [hsame]; rfl, ?_, by rw [hsame]; rfl, ?_⟩
    · rw [ht, honly]
      rfl
    · rw [ht]
      exact hseen
    · rw [ht, State.modRingPort_across, hother]
  · rw [if_neg hbad] at ht ⊢
    by_cases hconsumed : s.consumes f = true
    · rw [if_pos hconsumed] at ht
      subst ht
      exact ⟨honly, by rw [hheard]; rfl, hseen, by rw [hheard]; rfl, by rw [hother, if_neg (by simp [hconsumed])]⟩
    · rw [if_neg hconsumed] at ht
      have hsame : t.ringPort p = (s.ringPort p).heard f := by rw [ht, State.portTx_ringPort_other _ _ (Fin.other_ne p).symm, hheard]
      refine ⟨?_, by rw [hsame]; rfl, ?_, by rw [hsame]; rfl, ?_⟩
      · rw [ht, State.portTx_eq, honly]
      · rw [ht, State.portTx_hsrSeen, hseen]
      · rw [ht, hforward]
        simp [hconsumed]

/-! ## Trip frames (R380, R383, R388) -/

section
variable {s : State} {p : Fin 2} {f : TripFrame}

@[simp] theorem State.judgeDuplicate_stationSeen (s : State) (a : BitVec 16) (n : BitVec 64) (k : Nat) (m : BitVec 64) (q : BitVec 32) :
    (s.judgeDuplicate a n).stationSeen k m q = s.stationSeen k m q := by
  unfold State.judgeDuplicate
  split
  · simp [State.stationSeen]
  · rfl

theorem State.judgeDuplicate_onlyLinks (s : State) (a : BitVec 16) (n : BitVec 64) : s.onlyLinks (s.judgeDuplicate a n) := by
  unfold State.judgeDuplicate
  split
  · exact State.onlyLinks.trans (t := { s with ring := { s.ring with duplicateAt := some s.now } }) rfl (State.raise_onlyLinks _ (by decide) _)
  · rfl

theorem State.noteStation_stationSeen (s : State) (k : Nat) (m : BitVec 64) (q : BitVec 32) : (s.noteStation k m q).stationSeen k m q = true := by
  simp [State.noteStation, State.stationSeen]

theorem execRingTripFrameReceived_again (h : s.stationSeen 1 f.serial f.seq = true) : execRingTripFrameReceived p f s = .next s :=
  if_pos (by simp [h])

/-- The states of the first copy of a trip frame go to FIRE. -/
def State.tripTaken (s : State) (f : TripFrame) : State := (s.noteStation 1 f.serial f.seq).judgeDuplicate f.address f.serial

theorem execRingTripFrameReceived_first (hup : s.ringPortUp p = true) (hown : f.serial ≠ s.mram.serial) (hnew : s.stationSeen 1 f.serial f.seq = false) :
    execRingTripFrameReceived p f s = .next ((s.tripTaken f).toFire (.ring f.address f.states)) :=
  if_neg (by simp [hup, hown, hnew])

theorem State.tripTaken_onlyLinks (s : State) (f : TripFrame) : s.onlyLinks (s.tripTaken f) :=
  State.onlyLinks.trans (t := s.noteStation 1 f.serial f.seq) rfl (State.judgeDuplicate_onlyLinks _ _ _)

theorem State.tripTaken_stationSeen (s : State) (f : TripFrame) : (s.tripTaken f).stationSeen 1 f.serial f.seq = true :=
  (State.judgeDuplicate_stationSeen _ _ _ _ _ _).trans (State.noteStation_stationSeen _ _ _ _)

end

/-! ## A Sync (R389, R390) -/

/-- What a Sync measures, and the requests that followed. -/
def Ring.measured (r : Ring) : Int × Int × Option Nat × BitVec 16 := (r.offsetNs, r.pathDelay, r.lastSync, r.ptpReq)

/-- The Sync has been noted and the path delay asked for. -/
def State.syncNoted (s : State) (o d : Int) : State :=
  { s with ring := { s.ring with offsetNs := o, pathDelay := d, lastSync := some s.now } }.askDelay

/-- The announced grandmaster takes a clock that runs free or holds over. -/
def State.acquires (s : State) : State := if s.ring.time == .freeRun || s.ring.time == .holdover then s.enterTime .acquiring else s

/-- The rate is corrected. -/
def State.slewed (s : State) (o : Int) : State := { s with ring := { s.ring with ratePpb := s.slewFor o } }.draw

/-- Offsets within the limit are counted while time is acquired, and lock it. -/
def State.countsSync (s : State) (o : Int) : State :=
  if s.ring.time != .acquiring then s
  else
    let n := if o.natAbs ≤ s.syncLimit then s.ring.inLimit + 1 else 0
    if 16 ≤ n then s.enterTime .locked else { s with ring := { s.ring with inLimit := n } }

@[simp] theorem Ring.entered_measured (r : Ring) (x : TimeState) : (r.entered x).measured = r.measured := rfl

theorem State.askDelay_ring (s : State) : s.askDelay.ring =
    { s.ring with ptpReq := s.ring.ptpReq + 1, ports := s.askDelay.ring.ports, hsrSeq := s.askDelay.ring.hsrSeq } :=
  congrArg State.ring (State.sendRing_onlyFrames _ _ _ _)

theorem State.askDelay_eq (s : State) : s.askDelay = { s with ring := s.askDelay.ring } := by
  unfold State.askDelay
  exact State.sendRing_eq _ _ _ _

/-- What a Sync leaves of the clock's state, its limit count, its rate and its announcement. -/
theorem State.syncNoted_ring (s : State) (o d : Int) : (s.syncNoted o d).ring =
    { s.ring with offsetNs := o, pathDelay := d, lastSync := some s.now, ptpReq := s.ring.ptpReq + 1
                  ports := (s.syncNoted o d).ring.ports, hsrSeq := (s.syncNoted o d).ring.hsrSeq } := State.askDelay_ring _

theorem State.syncNoted_eq (s : State) (o d : Int) : s.syncNoted o d = { s with ring := (s.syncNoted o d).ring } := State.askDelay_eq _

theorem State.acquires_onlyLinks (s : State) : s.onlyLinks s.acquires := by
  unfold State.acquires
  split
  · exact s.enterTime_onlyLinks _
  · rfl

@[simp] theorem State.acquires_measured (s : State) : s.acquires.ring.measured = s.ring.measured := by
  unfold State.acquires
  split <;> simp

/-- `t` differs from `s` in the ring, in what has crossed and in the free readings taken at most. -/
def State.onlySync (s t : State) : Prop := t = { s with freeCount := t.freeCount, ring := t.ring, crossings := t.crossings, nextSend := t.nextSend }

theorem State.onlySync.trans {s t u : State} (h : s.onlySync t) (k : t.onlySync u) : s.onlySync u := by
  unfold State.onlySync at *
  rw [k, h]

theorem State.onlyLinks.onlySync {s t : State} (h : s.onlyLinks t) : s.onlySync t := by
  unfold State.onlyLinks at h
  rw [h]
  rfl

theorem State.countsSync_onlySync (s : State) (o : Int) : s.onlySync (s.countsSync o) := by
  unfold State.countsSync
  dsimp only
  split
  · rfl
  · generalize (if o.natAbs ≤ s.syncLimit then s.ring.inLimit + 1 else 0) = n
    split
    · exact (s.enterTime_onlyLinks _).onlySync
    · rfl

@[simp] theorem State.countsSync_measured (s : State) (o : Int) : (s.countsSync o).ring.measured = s.ring.measured := by
  unfold State.countsSync
  dsimp only
  repeat' split
  all_goals simp [Ring.measured, Ring.entered]

@[simp] theorem State.countsSync_ratePpb (s : State) (o : Int) : (s.countsSync o).ring.ratePpb = s.ring.ratePpb := by
  unfold State.countsSync
  dsimp only
  repeat' split
  all_goals simp [Ring.entered]

/-- The first Sync after time is acquired does not lock it. -/
theorem State.countsSync_starts {s : State} (htime : s.ring.time = .acquiring) (hlimit : s.ring.inLimit = 0) (o : Int) :
    ∃ n, s.countsSync o = { s with ring := { s.ring with inLimit := n } } := by
  unfold State.countsSync
  rw [if_neg (by simp [htime]), hlimit]
  refine ⟨if o.natAbs ≤ s.syncLimit then 0 + 1 else 0, if_neg ?_⟩
  split <;> decide

theorem State.slewFor_bounds (s : State) (o : Int) : -200000 ≤ s.slewFor o ∧ s.slewFor o ≤ 200000 := by
  have := (Config.slewPpb s.freeCount).isLt
  unfold State.slewFor
  repeat' split
  all_goals omega

theorem State.slewFor_beyond {s : State} {o : Int} (h : s.syncLimit < o.natAbs) : s.slewFor o = if 0 < o then -200000 else 200000 := by
  unfold State.slewFor
  rw [if_neg (by omega)]

/-- What the module does once the Sync has been noted: it acquires an announced grandmaster, and then corrects time. -/
def State.followsSync (s : State) (o : Int) : Out :=
  let s := if s.ring.announced && (s.ring.time == .freeRun || s.ring.time == .holdover) then s.enterTime .acquiring else s
  if s.ring.time == .freeRun || s.ring.time == .holdover || !s.ring.announced then .next s
  else .next (((s.stepTime o).slewed o).countsSync o)

theorem State.followsSync_unannounced {s : State} (h : s.ring.announced = false) (o : Int) : s.followsSync o = .next s := by
  simp [State.followsSync, h]

theorem State.followsSync_announced {s : State} (h : s.ring.announced = true) (o : Int) :
    s.followsSync o = .next (((s.acquires.stepTime o).slewed o).countsSync o) := by
  unfold State.followsSync State.acquires
  rw [h, Bool.true_and]
  split
  · exact if_neg (by simp [Ring.entered, h])
  · next htime => exact if_neg (by simpa [h] using htime)

section
variable {s : State} {p : Fin 2} {o d : Int} {k : BitVec 8}

theorem execPtpSyncReceived_elsewhere (h : s.ptpEn = false ∨ s.ringPortUp p = false ∨ p.val ≠ b2n s.syncPort ∨ k.toNat ≠ s.ptpDomain) :
    execPtpSyncReceived ⟨p, k⟩ ⟨o, d⟩ s = .next s := by
  refine if_pos ?_
  obtain h | h | h | h := h <;> simp [h]

theorem execPtpSyncReceived_taken (hen : s.ptpEn = true) (hup : s.ringPortUp p = true) (hport : p.val = b2n s.syncPort) (hdom : k.toNat = s.ptpDomain) :
    execPtpSyncReceived ⟨p, k⟩ ⟨o, d⟩ s = (s.syncNoted o d).followsSync o := by
  have hhere : ¬(!s.ptpEn || !s.ringPortUp p || p.val != b2n s.syncPort || k.toNat != s.ptpDomain) = true := by
    rw [hen, hup, ← hport, hdom]
    simp
  refine (if_neg hhere).trans ?_
  generalize hu : s.syncNoted o d = u
  have hnoted : { s with ring := { s.ring with offsetNs := o, pathDelay := d, lastSync := some s.now } }.askDelay = u := hu
  dsimp only
  rw [hnoted]
  unfold State.followsSync State.countsSync
  dsimp only
  generalize (if (u.ring.announced && (u.ring.time == .freeRun || u.ring.time == .holdover)) = true then u.enterTime .acquiring else u) = v
  split
  · rfl
  · rw [apply_ite Host.Outcome.next, apply_ite Host.Outcome.next]
    rfl

end

theorem State.syncNoted_measured (s : State) (o d : Int) : (s.syncNoted o d).ring.measured = (o, d, some s.now, s.ring.ptpReq + 1) := by
  rw [State.syncNoted_ring]
  rfl

theorem State.syncNoted_onlyLinks (s : State) (o d : Int) : s.onlyLinks (s.syncNoted o d) := by
  unfold State.onlyLinks
  rw [State.syncNoted_eq]

theorem State.stepTime_elsewhere {s : State} (h : s.service ≠ .sideStreet) (o : Int) : s.stepTime o = s := by
  simp [State.stepTime, h]

/-- The one step of a time that is being acquired, before full service. -/
theorem State.stepTime_steps {s : State} (h : s.service = .sideStreet) (htime : s.ring.time = .acquiring) (hnew : s.ring.stepped = false) (o : Int) :
    s.stepTime o = { s.shiftTime o with ring := { (s.shiftTime o).ring with stepped := true } } := by
  simp [State.stepTime, h, htime, hnew]

section
variable {s : State} (o d : Int)

/-- A Sync in full service, with the clock announced: nothing jumps, and the rate is corrected. -/
theorem State.followsSync_slews (hfull : s.service = .full) (hann : s.ring.announced = true) :
    ∃ t, (s.syncNoted o d).followsSync o = .next t ∧ s.onlySync t ∧ t.ring.measured = (o, d, some s.now, s.ring.ptpReq + 1) ∧
      ∃ v, v.syncLimit = s.syncLimit ∧ t.ring.ratePpb = State.slewFor v o := by
  have hlinks : s.onlyLinks (s.syncNoted o d).acquires := (s.syncNoted_onlyLinks o d).trans (State.acquires_onlyLinks _)
  have hmeasured : (s.syncNoted o d).acquires.ring.measured = (o, d, some s.now, s.ring.ptpReq + 1) :=
    (State.acquires_measured _).trans (s.syncNoted_measured o d)
  have hsame : (s.syncNoted o d).ring.announced = true := by rw [State.syncNoted_ring]; exact hann
  have hexec := State.followsSync_announced hsame o
  generalize (s.syncNoted o d).acquires = v at hlinks hmeasured hexec
  have hservice : v.service ≠ .sideStreet := by
    rw [hlinks]
    simp [hfull]
  rw [State.stepTime_elsewhere hservice] at hexec
  have hslew : v.onlySync (v.slewed o) := rfl
  refine ⟨_, hexec, (hlinks.onlySync.trans hslew).trans (State.countsSync_onlySync _ o), ?_, v, ?_, State.countsSync_ratePpb _ o⟩
  · exact (State.countsSync_measured _ o).trans hmeasured
  · rw [hlinks]
    rfl

/-- A Sync in full service touches the ring alone, and the rate where the clock is announced. -/
theorem State.followsSync_full (hfull : s.service = .full) :
    ∃ t, (s.syncNoted o d).followsSync o = .next t ∧ s.onlySync t ∧ t.ring.measured = (o, d, some s.now, s.ring.ptpReq + 1) ∧
      (s.ring.announced = true → ∃ v, v.syncLimit = s.syncLimit ∧ t.ring.ratePpb = State.slewFor v o) := by
  cases hann : s.ring.announced with
  | true =>
    obtain ⟨t, hexec, honly, hmeasured, hrate⟩ := State.followsSync_slews o d hfull hann
    exact ⟨t, hexec, honly, hmeasured, fun _ => hrate⟩
  | false =>
    have hsame : (s.syncNoted o d).ring.announced = false := by rw [State.syncNoted_ring]; exact hann
    exact ⟨_, State.followsSync_unannounced hsame o, (s.syncNoted_onlyLinks o d).onlySync, s.syncNoted_measured o d, by simp⟩

/-- A Sync before full service acquires a clock that ran free or held over, and steps it. -/
theorem State.followsSync_steps (hside : s.service = .sideStreet) (hann : s.ring.announced = true) (htime : s.ring.time = .freeRun ∨ s.ring.time = .holdover) :
    ∃ t, (s.syncNoted o d).followsSync o = .next t ∧ t.now = ((s.now : Int) - o).toNat ∧ t.ring.time = .acquiring ∧ t.ring.stepped = true := by
  have hring := s.syncNoted_ring o d
  have hlinks := (s.syncNoted_onlyLinks o d).trans (State.enterTime_onlyLinks _ .acquiring)
  have hexec := State.followsSync_announced (s := s.syncNoted o d) (by rw [hring]; exact hann) o
  have hacquires : (s.syncNoted o d).acquires = (s.syncNoted o d).enterTime .acquiring := if_pos (by rw [hring]; simpa using htime)
  have hentered := State.enterTime_ring (s.syncNoted o d) .acquiring
  rw [hacquires] at hexec
  generalize (s.syncNoted o d).enterTime .acquiring = v at hlinks hexec hentered
  have hservice : v.service = .sideStreet := by rw [hlinks]; exact hside
  have hnow : v.now = s.now := by rw [hlinks]
  rw [State.stepTime_steps hservice (by rw [hentered]; rfl) (by rw [hentered]; simp [Ring.entered])] at hexec
  have hstep : v.ring.time = .acquiring ∧ v.ring.inLimit = 0 := by rw [hentered]; exact ⟨rfl, rfl⟩
  obtain ⟨n, hn⟩ := State.countsSync_starts (s := State.slewed { v.shiftTime o with ring := { (v.shiftTime o).ring with stepped := true } } o) hstep.1 hstep.2 o
  rw [hn] at hexec
  exact ⟨_, hexec, hnow ▸ rfl, hstep.1, rfl⟩

end

/-! ## Temperature (R425) -/

/-- `t` differs from `s` in the flags, the bands and what they post at most. -/
def State.onlyBands (s t : State) : Prop :=
  t = { s with round := t.round, crossings := t.crossings, nextSend := t.nextSend, panel := t.panel, plate := t.plate, power := t.power }

theorem State.onlyBands.trans {s t u : State} (h : s.onlyBands t) (k : t.onlyBands u) : s.onlyBands u := by
  unfold State.onlyBands at *
  rw [k, h]

theorem State.onlyPosts.onlyBands {s t : State} (h : s.onlyPosts t) : s.onlyBands t := by
  unfold State.onlyPosts at h
  rw [h]
  rfl

theorem State.bandRecord_onlyBands (s : State) (v : Word) : s.onlyBands ((s.fireSource 409).raise .tempBandChanged v) :=
  State.onlyBands.trans (t := s.fireSource 409) rfl (State.raiseFrom_onlyPosts _ (by decide) _ _).onlyBands

theorem State.judgeBands_onlyBands (s : State) : s.onlyBands s.judgeBands := by
  unfold State.judgeBands
  split
  · rfl
  · next x _ =>
    dsimp only
    generalize moveBand x s.panelThresholds 3 s.panel.band = a
    generalize moveBand x s.plateThresholds 4 s.plate.band = b
    have hbands : s.onlyBands { s with panel := { s.panel with band := a }, plate := { s.plate with band := b } } := rfl
    have hpanel := hbands.trans (State.bandRecord_onlyBands _ (mkWord [(2, 0, a)]))
    repeat' split
    · exact hpanel.trans (State.bandRecord_onlyBands _ _)
    · exact hbands.trans (State.bandRecord_onlyBands _ _)
    · exact hpanel
    · exact hbands

/-- What a sample has measured. -/
def Power.sample (x : Power) : Int × Int × Option Nat × Option Int := (x.board, x.hottest, x.sampledAt, x.bandTemp)

@[simp] theorem State.judgeBands_power (s : State) : s.judgeBands.power = s.power := by
  have hrecord : ∀ (t : State) v, ((t.fireSource 409).raise .tempBandChanged v).power = t.power := fun t v => State.raiseFull_power _ _ _ _ _ _
  unfold State.judgeBands
  split
  · rfl
  · dsimp only
    split <;> split <;> simp only [hrecord]

/-- A flag that rises or falls is recorded. -/
def State.flagRecord (s : State) (now_ old : Bool) (up : RecKind) (v : Word) : State :=
  if now_ && !old then s.raiseFrom 18 up v else if !now_ && old then s.raiseFrom 18 .thermalNormal v else s

theorem State.flagRecord_onlyPosts (s : State) (now_ old : Bool) (up : RecKind) (v : Word) : s.onlyPosts (s.flagRecord now_ old up v) := by
  unfold State.flagRecord
  repeat' split
  · exact State.raiseFrom_onlyPosts _ (by decide) _ _
  · exact State.raiseFrom_onlyPosts _ (by decide) _ _
  · rfl

theorem State.judgeThermal_reaches (s : State) : ∃ warn crit : Bool,
    State.onlyPosts { s with power := { s.power with warnSet := warn, critSet := crit } } s.judgeThermal := by
  by_cases hnone : s.power.sampledAt.isNone = true
  · have hsame : s.judgeThermal = s := if_pos hnone
    rw [hsame]
    exact ⟨s.power.warnSet, s.power.critSet, rfl⟩
  · let w := s.cfg 0xD20 0
    let warn := thermalFlag s.power.warnSet (s16 w 31 16) s.power.hottest
    let crit := thermalFlag s.power.critSet (s16 w 15 0) s.power.hottest
    let v := thermalValue s.power.hottest
    have hjudged : s.judgeThermal = ({ s with power := { s.power with warnSet := warn, critSet := crit } }.flagRecord warn s.power.warnSet .thermalWarning v).flagRecord
        crit s.power.critSet .thermalCritical v := if_neg hnone
    rw [hjudged]
    exact ⟨warn, crit, (State.flagRecord_onlyPosts _ _ _ _ _).trans (State.flagRecord_onlyPosts _ _ _ _ _)⟩

theorem State.judgeThermal_onlyBands (s : State) : s.onlyBands s.judgeThermal := by
  obtain ⟨warn, crit, h⟩ := s.judgeThermal_reaches
  exact State.onlyBands.trans (t := { s with power := { s.power with warnSet := warn, critSet := crit } }) rfl h.onlyBands

theorem State.judgeThermal_sample (s : State) : s.judgeThermal.power.sample = s.power.sample := by
  obtain ⟨warn, crit, h⟩ := s.judgeThermal_reaches
  rw [h]
  rfl

/-- A sample of the board and the hottest sensor, with no thermistor fitted. -/
def State.sampled (s : State) (b h : Int) : State :=
  { s with power := { s.power with sampledAt := some s.now, board := b, hottest := h, bandTemp := some b }
           mram := { s.mram with peak := max s.mram.peak (tenths h) } }

theorem execThermalSample_due {s : State} (b h : Int) (hon : s.service ≠ .off) (hrun : s.runs 18 = true)
    (hdue : s.dueEvery s.power.sampledAt 100000000 = true) : execThermalSample b h none s = .next (s.sampled b h).judgeThermal.judgeBands :=
  if_neg (by simp [hon, hrun, hdue])

theorem State.sampled_reaches (s : State) (b h : Int) :
    (s.sampled b h).onlyBands (s.sampled b h).judgeThermal.judgeBands ∧ (s.sampled b h).judgeThermal.judgeBands.power.sample = (b, h, some s.now, some b) := by
  refine ⟨(State.judgeThermal_onlyBands _).trans (State.judgeBands_onlyBands _), ?_⟩
  rw [State.judgeBands_power, State.judgeThermal_sample]
  rfl

/-! ## The rows -/

/-- Settles O54: links and time states by what each leaves of the ring, frames by the port that takes them, a Sync by what it measures. -/
theorem ringRows : Obligations.RingRows := by
  intro s p
  refine ⟨?down, ?up, fun f hup hf => ?enumerate, fun f hup hf hcopy => ?again, fun f hup hf hown hnew => ?first, fun f h => s.throughClock_other h, fun x f => ?takes,
    fun d e l => ?sends, fun hup => ?supervision, fun f => execRingTripFrameReceived_again, fun f hup hown hnew => ?trip, fun o d k hen hup hport hdom => ?sync,
    fun o d k => execPtpSyncReceived_elsewhere, fun u hlast htime hdue => ?timeout, fun hkeep => ?store, fun b h hon hrun hdue => ?sample⟩
  case down =>
    intro hlink
    refine ⟨_, if_pos hlink, s.loseLink_onlyRing (by omega), ?_, ?_⟩
    · rw [State.loseLink_ringPort, State.modRingPort_same]
      rfl
    · rw [State.loseLink_ringPort, State.modRingPort_across]
  case up =>
    intro g hdown hrun
    obtain ⟨t, hexec, hlinks, hport⟩ := execRingLinkUp_links hdown hrun g
    exact ⟨t, hexec, hlinks, by rw [hport], by rw [hport], by rw [hport]⟩
  case enumerate =>
    have hheard : s.modRingPort p (·.heard f) = s.modRingPort p fun x => { x with rxFrames := x.rxFrames + 1 } := by
      have hother : (f.etherType == etSupervision) = false := by
        simp only [isEnumerate, Bool.and_eq_true, beq_iff_eq] at hf
        rw [hf.1.1]
        decide
      simp [RingPort.heard, hother]
    exact (execHsrFrameReceived_enumerate hup hf).trans (by rw [hheard])
  case again =>
    refine ⟨_, execHsrFrameReceived_again hup hf hcopy, rfl, ?_, ?_⟩
    · rw [State.modRingPort_same, State.modRingPort_same]
      rfl
    · rw [State.modRingPort_across, State.modRingPort_across]
  case first =>
    exact ⟨_, execHsrFrameReceived_first hup hf hown hnew, s.firstCopy_reaches p f _ rfl⟩
  case takes =>
    refine ⟨RingPort.take_idle, fun hbusy hf => ?_, fun a b hbusy hf hq ha hb => ?_⟩
    · rw [RingPort.take_busy hbusy, placeFrame_other hf]
    · rw [RingPort.take_busy hbusy, hq, placeFrame_station hf ha hb]
  case sends =>
    exact ⟨s.sendRing_eq d e l, s.sendRing_hsrSeq d e l, fun n hn => s.sendRing_ringPort d e l hn⟩
  case supervision =>
    by_cases hdue : s.dueEvery s.ring.supervisionAt 2000000000 = true
    · exact (if_pos (by simp [hup, hdue])).trans (by rw [if_pos hdue])
    · exact (if_neg (by simp [hdue])).trans (by rw [if_neg hdue])
  case trip =>
    have hlinks := s.tripTaken_onlyLinks f
    have hseen := s.tripTaken_stationSeen f
    refine ⟨_, execRingTripFrameReceived_first hup hown hnew, ?_, List.mem_append_right _ (List.mem_singleton_self _), hseen⟩
    generalize s.tripTaken f = t at hlinks
    unfold State.onlyLinks at hlinks
    rw [hlinks]
    rfl
  case sync =>
    rw [show exec (.ptpSyncReceived ⟨p, k⟩ ⟨o, d⟩) s = (s.syncNoted o d).followsSync o from execPtpSyncReceived_taken hen hup hport hdom]
    refine ⟨fun hfull => ?_, fun hside hann htime => State.followsSync_steps o d hside hann htime⟩
    obtain ⟨t, hexec, honly, hmeasured, hrate⟩ := s.followsSync_full o d hfull
    obtain ⟨ho, hd, hlast, hreq⟩ : t.ring.offsetNs = o ∧ t.ring.pathDelay = d ∧ t.ring.lastSync = some s.now ∧ t.ring.ptpReq = s.ring.ptpReq + 1 := by
      simpa [Ring.measured] using hmeasured
    refine ⟨t, hexec, honly, ho, hd, hlast, hreq, fun hann _ => ?_⟩
    obtain ⟨v, hlimit, hslew⟩ := hrate hann
    rw [hslew]
    exact ⟨(v.slewFor_bounds o).1, (v.slewFor_bounds o).2, fun hbeyond => State.slewFor_beyond (hlimit ▸ hbeyond)⟩
  case timeout =>
    have hexec : exec .ptpSyncTimeout s = .next (s.enterTime .holdover) := by
      change execPtpSyncTimeout s = _
      simp [execPtpSyncTimeout, hlast, htime, hdue]
    rw [hexec, State.enterTime_holdover htime]
  case store =>
    by_cases hdue : s.dueEvery (some s.mram.time) 1000000000 = true
    · exact (if_pos (by simp [hkeep, hdue])).trans (by rw [if_pos hdue])
    · exact (if_neg (by simp [hdue])).trans (by rw [if_neg hdue])
  case sample =>
    have hexec := execThermalSample_due b h hon hrun hdue
    obtain ⟨honly, hsample⟩ := s.sampled_reaches b h
    generalize (s.sampled b h).judgeThermal.judgeBands = t at hexec honly hsample
    obtain ⟨hboard, hhottest, hat, hband⟩ : t.power.board = b ∧ t.power.hottest = h ∧ t.power.sampledAt = some s.now ∧ t.power.bandTemp = some b := by
      simpa [Power.sample] using hsample
    have hpeak : t.mram = { s.mram with peak := max s.mram.peak (h.tdiv 10) } := by
      rw [honly]
      rfl
    refine ⟨t, hexec, ?_, hboard, hhottest, hat, hband, by rw [hpeak]⟩
    rw [hpeak]
    exact honly

end Sys2Proof.Machine
end

/-! # What the rows of a pair touch

What an operation on the claim, the role or the sync of a pair may change is named as a scope; a state stays in the scope where it differs from another one in no
other part (R292 to R316). -/

section
namespace Sys2Proof.Machine
open Sys2Proof

/-! ## Scopes of the pair -/

/-- The parts, next to those of the pair itself, that an operation of the pair may change: firings, what has crossed, outputs, ports, the epoch and the enables
in MRAM with what a write of either renews, the age of the last rehearsal and what lands at a commit. -/
structure PairScope where
  fires : Bool := false
  posts : Bool := false
  driven : Bool := false
  cans : Bool := false
  epoch : Bool := false
  enables : Bool := false
  writes : Bool := false
  rehearsal : Bool := false
  landings : Bool := false

/-- State `s` with the pair and the parts of a scope as in `t`. -/
def State.pairGraft (k : PairScope) (s t : State) : State :=
  { s with
    pair := t.pair
    round := cond k.fires t.round s.round
    crossings := cond k.posts t.crossings s.crossings, nextSend := cond k.posts t.nextSend s.nextSend
    ucs := cond k.driven t.ucs s.ucs, dos := cond k.driven t.dos s.dos
    cans := cond k.cans t.cans s.cans
    square := { s.square with landings := cond k.landings t.square.landings s.square.landings }
    mram := { s.mram with
      epoch := cond k.epoch t.mram.epoch s.mram.epoch, canEnable := cond k.enables t.mram.canEnable s.mram.canEnable
      voidCopies := cond k.writes t.mram.voidCopies s.mram.voidCopies, seqs := cond k.writes t.mram.seqs s.mram.seqs
      rehearsalAt := cond k.rehearsal t.mram.rehearsalAt s.mram.rehearsalAt } }

/-- `t` differs from `s` in the pair and in the parts of a scope at most. -/
def State.staysIn (k : PairScope) (s t : State) : Prop := t = s.pairGraft k t

variable {k : PairScope} {s t u : State}

theorem State.pairGraft_pairGraft (s t u : State) : (s.pairGraft k t).pairGraft k u = s.pairGraft k u := by
  simp only [State.pairGraft, cond_cond_right]

theorem State.staysIn_refl (s : State) : s.staysIn k s := by
  simp only [State.staysIn, State.pairGraft, Bool.cond_self]

theorem State.staysIn.trans (h : s.staysIn k t) (j : t.staysIn k u) : s.staysIn k u := by
  unfold State.staysIn at *
  calc u = t.pairGraft k u := j
    _ = (s.pairGraft k t).pairGraft k u := by rw [← h]
    _ = s.pairGraft k u := State.pairGraft_pairGraft s t u

theorem State.staysIn_each {α : Type} {f : State → α → State} (hf : ∀ (t : State) x, t.staysIn k (f t x)) (s : State) (l : List α) :
    s.staysIn k (s.each l f) :=
  State.each_keeps (P := s.staysIn k) (fun t x ht => ht.trans (hf t x)) s.staysIn_refl l

theorem State.staysIn_pair (s : State) (x : Pair) : s.staysIn k { s with pair := x } := by
  simp only [State.staysIn, State.pairGraft, Bool.cond_self]

theorem State.onlyPosts.staysIn (hp : k.posts = true) (h : s.onlyPosts t) : s.staysIn k t := by
  unfold State.onlyPosts at h
  rw [h]
  simp only [State.staysIn, State.pairGraft, Bool.cond_self, hp, cond_true]

theorem State.onlyDriven.staysIn (hd : k.driven = true) (h : s.onlyDriven t) : s.staysIn k t := by
  unfold State.onlyDriven at h
  rw [h]
  simp only [State.staysIn, State.pairGraft, Bool.cond_self, hd, cond_true]

theorem State.fireSource_staysIn (hf : k.fires = true) (s : State) (n : Nat) : s.staysIn k (s.fireSource n) := by
  simp only [State.staysIn, State.pairGraft, State.fireSource, State.fireSourceAt, Bool.cond_self, hf, cond_true]

theorem State.raise_staysIn (hp : k.posts = true) (s : State) {r : RecKind} (h : (BitVec.ofNat 16 r.source).toNat ≠ 17) (v : Word) :
    s.staysIn k (s.raise r v) := (s.raiseFrom_onlyPosts h r v).staysIn hp

/-! ## The state, the epoch and the paths of the pair (R296, R298, R314) -/

theorem State.enterPair_staysIn (hf : k.fires = true) (hp : k.posts = true) (s : State) (x : PairState) : s.staysIn k (s.enterPair x) := by
  unfold State.enterPair
  split
  · exact s.staysIn_refl
  · exact ((s.staysIn_pair _).trans (State.fireSource_staysIn hf _ _)).trans (State.raise_staysIn hp _ (by decide) _)

@[simp] theorem State.enterPair_pair (s : State) (x : PairState) : (s.enterPair x).pair =
    { s.pair with state := x, adopted := if s.pair.state = x then s.pair.adopted else s.pair.adopted && x != .stale } := by
  unfold State.enterPair
  split
  · next h =>
    rw [if_pos (by simpa using h)]
    have : s.pair.state = x := by simpa using h
    rw [← this]
  · next h =>
    rw [if_neg (by simpa using h)]
    exact State.raise_pair _ _ _

theorem State.setEpoch_staysIn (hf : k.fires = true) (he : k.epoch = true) (hw : k.writes = true) (s : State) (e : BitVec 32) :
    s.staysIn k (s.setEpoch e) := by
  unfold State.setEpoch
  split
  · exact s.staysIn_refl
  · refine State.staysIn.trans ?_ (State.fireSource_staysIn hf _ _)
    simp only [State.staysIn, State.pairGraft, Mram.wrote, Mram.nextSeq, Bool.cond_self, he, hw, cond_true]

@[simp] theorem State.setEpoch_pair (s : State) (e : BitVec 32) : (s.setEpoch e).pair = s.pair := by
  unfold State.setEpoch
  split <;> rfl

@[simp] theorem State.setEpoch_epoch (s : State) (e : BitVec 32) : (s.setEpoch e).mram.epoch = e := by
  unfold State.setEpoch
  split
  · next h => simpa using h
  · rfl

theorem State.pathAlarm_staysIn (hf : k.fires = true) (hp : k.posts = true) (s : State) (path : Nat) : s.staysIn k (s.pathAlarm path) :=
  (State.fireSource_staysIn hf _ _).trans (State.raise_staysIn hp _ (by decide) _)

theorem State.judgePaths_staysIn (hf : k.fires = true) (hp : k.posts = true) (s : State) : s.staysIn k s.judgePaths := by
  unfold State.judgePaths
  repeat' split
  · exact s.staysIn_refl
  · exact (s.staysIn_pair _).trans (State.pathAlarm_staysIn hf hp _ _)
  · exact (s.staysIn_pair _).trans (State.pathAlarm_staysIn hf hp _ _)
  · exact s.staysIn_refl

/-! ## The claim and the holds (R208, R229, R294) -/

theorem State.outputsAnew_staysIn (hd : k.driven = true) (s : State) : s.staysIn k s.outputsAnew := s.outputsAnew_onlyDriven.staysIn hd

theorem State.rampDown_onlyDriven (s : State) (n : Nat) : s.onlyDriven (s.rampDown n) := by
  unfold State.rampDown
  split <;> rfl

theorem State.rampUp_onlyDriven (s : State) (n : Nat) : s.onlyDriven (s.rampUp n) := by
  unfold State.rampUp
  split <;> rfl

theorem State.ucExcite_onlyDriven (s : State) (n : Nat) : s.onlyDriven (s.ucExcite n) := by
  unfold State.ucExcite
  dsimp only
  split <;> rfl

theorem State.startScan_onlyDriven (s : State) (n : Nat) : s.onlyDriven (s.startScan n) := by
  unfold State.startScan
  split <;> rfl

theorem State.startScans_onlyDriven (s : State) : s.onlyDriven s.startScans := State.onlyDriven_each State.startScan_onlyDriven _ _

/-- An output holds what it is driven to, where its group is there. -/
def State.holdDo (s : State) (n : Nat) : State := if (s.doGroup (n / 8)).lost then s else s.modDo n fun d => { d with held := true, heldState := d.driven }

/-- A channel that drives holds its level; `cut` says that the trip line is cut. -/
def State.holdUc (cut : Bool) (s : State) (n : Nat) : State :=
  s.modUc n fun u => if u.drives then
    { u with held := some (u.level s.now), heldTrip := cut && (s.outSlotOf 2 n).isSome
             heldRead := if u.readback.set_ || 0 < u.readback.seen then none else some false } else u

theorem State.holdOutputs_onlyDriven (s : State) : s.onlyDriven s.holdOutputs := by
  have hdo : s.onlyDriven (s.each (List.range 32) State.holdDo) := State.onlyDriven_each (fun t n => by unfold State.holdDo; split <;> rfl) _ _
  unfold State.holdOutputs
  exact hdo.trans (State.onlyDriven_each (f := State.holdUc s.lineCut) (fun t n => rfl) _ _)

theorem State.releaseHolds_reaches (s : State) : ∃ v, s.onlyDriven v ∧ State.onlyDriven { v with pair := { v.pair with holdUntil := none } } s.releaseHolds := by
  refine ⟨s.each (List.range 32) State.rampDown, State.onlyDriven_each State.rampDown_onlyDriven _ _, ?_⟩
  unfold State.releaseHolds
  exact ((State.onlyDriven_each (f := fun s n => s.modDo n fun d => { d with held := false }) (fun t n => rfl) _ _).trans
    (State.onlyDriven_each (f := fun s n => s.modUc n fun u => { u with held := none, heldTrip := false }) (fun t n => rfl) _ _)).trans
    (State.outputsAnew_onlyDriven _)

theorem State.onlyDriven.pair (h : s.onlyDriven t) : t.pair = s.pair := by rw [h]

theorem State.releaseHolds_staysIn (hd : k.driven = true) (s : State) : s.staysIn k s.releaseHolds := by
  obtain ⟨v, hv, h⟩ := s.releaseHolds_reaches
  exact ((hv.staysIn hd).trans (State.staysIn_pair _ _)).trans (h.staysIn hd)

@[simp] theorem State.releaseHolds_pair (s : State) : s.releaseHolds.pair = { s.pair with holdUntil := none } := by
  obtain ⟨v, hv, h⟩ := s.releaseHolds_reaches
  rw [h.pair, ← hv.pair]

theorem State.dropClaim_staysIn (hd : k.driven = true) (s : State) : s.staysIn k s.dropClaim := by
  unfold State.dropClaim
  split
  · exact s.staysIn_refl
  · refine State.staysIn.trans ?_ (State.outputsAnew_staysIn hd _)
    dsimp only
    split
    · exact (s.holdOutputs_onlyDriven.staysIn hd).trans (State.staysIn_pair _ _)
    · exact s.staysIn_pair _

/-- A claim that has fallen, with its drivers. -/
theorem State.dropClaim_pair (h : s.pair.claimOwn = true) : s.dropClaim.pair.claimOwn = false ∧ s.dropClaim.pair.drivers = false := by
  unfold State.dropClaim
  rw [if_neg (by simp [h])]
  dsimp only
  rw [(State.outputsAnew_onlyDriven _).pair]
  exact ⟨rfl, rfl⟩

/-- The claim is asserted; the drivers follow where the partner's claim has been down for 50 µs. -/
def State.claims (s : State) : State :=
  { s with pair := { s.pair with claimOwn := true, drivers := s.claimFree, ownRoseAt := s.now, ownFellAt := none, ownLineBad := false } }

theorem State.riseClaim_eq (s : State) : s.riseClaim = if s.pair.claimOwn || s.pair.claimPartner then s
    else ((s.claims.each (List.range 32) State.rampUp).releaseHolds).each (List.range 32) State.ucExcite := rfl

theorem State.riseClaim_staysIn (hd : k.driven = true) (s : State) : s.staysIn k s.riseClaim := by
  rw [State.riseClaim_eq]
  split
  · exact s.staysIn_refl
  · have hups := (State.onlyDriven_each State.rampUp_onlyDriven s.claims (List.range 32)).staysIn hd
    have hreleased := State.releaseHolds_staysIn hd (s.claims.each (List.range 32) State.rampUp)
    exact (((s.staysIn_pair _).trans hups).trans hreleased).trans ((State.onlyDriven_each State.ucExcite_onlyDriven _ _).staysIn hd)

/-! ## The ports (R257, R270, R271) -/

theorem State.modCan_staysIn (hc : k.cans = true) (s : State) (p : Nat) (f : Can → Can) : s.staysIn k (s.modCan p f) := by
  simp only [State.staysIn, State.pairGraft, State.modCan, State.setCan, Bool.cond_self, hc, cond_true]

theorem State.canTakeover_staysIn (hc : k.cans = true) (s : State) (gap : Bool) : s.staysIn k (s.canTakeover gap) :=
  State.staysIn_each (fun t p => State.modCan_staysIn hc t p _) _ _

@[simp] theorem State.canTakeover_pair (s : State) (gap : Bool) : (s.canTakeover gap).pair = s.pair :=
  State.each_field State.pair (fun _ _ => rfl) s [0, 1]

theorem State.putCanEnable_staysIn (he : k.enables = true) (hw : k.writes = true) (s : State) (p : Nat) (b : Bool) : s.staysIn k (s.putCanEnable p b) := by
  simp only [State.staysIn, State.pairGraft, State.putCanEnable, Mram.wrote, Mram.nextSeq, Bool.cond_self, he, hw, cond_true]

/-- One port of a module that becomes a standby. -/
def State.portToStandby (s : State) (p : Nat) : State :=
  let c := s.can p
  if c.active || c.state == .recovering || c.state == .busOff then
    let on := !c.disablePending || c.enablePending
    let s := s.each (c.tx.toList.map (·.1) ++ c.winWait.map (·.1)) fun s j => s.giveUp p 2 j
    let c := s.can p
    let s := s.setCan p { c with state := if on then .monitoring else .disabled, enablePending := false, disablePending := false
                                 tx := none, refWait := none, winWait := [], queue := [], emergency := [] }
    if on then s else s.putCanEnable p false
  else if c.state == .integrating then s.setCan p { c with queue := [], emergency := [] }
  else s

theorem State.canToStandby_eq (s : State) : s.canToStandby = s.each [0, 1] State.portToStandby := rfl

theorem State.giveUp_pair (s : State) (p reason : Nat) (j : TxJob) : (s.giveUp p reason j).pair = s.pair := by
  unfold State.giveUp
  split
  · exact State.raiseFull_pair _ _ _ _ _ _
  · rfl

@[simp] theorem State.canToStandby_pair (s : State) : s.canToStandby.pair = s.pair := by
  refine (congrArg State.pair s.canToStandby_eq).trans (State.each_field State.pair (fun t p => ?_) s [0, 1])
  have hgive := State.each_field State.pair (f := fun s j => s.giveUp p 2 j) (fun u j => u.giveUp_pair p 2 j) t
  unfold State.portToStandby
  dsimp only
  split
  · split
    · exact hgive _
    · exact hgive _
  split <;> rfl

section
variable (hf : k.fires = true) (hp : k.posts = true) (hc : k.cans = true)
include hf hp hc

theorem State.giveUp_staysIn (s : State) {p : Nat} (hport : p = 0 ∨ p = 1) (reason : Nat) (j : TxJob) : s.staysIn k (s.giveUp p reason j) := by
  have hsrc : (BitVec.ofNat 16 (12 + p)).toNat ≠ 17 := by obtain rfl | rfl := hport <;> decide
  unfold State.giveUp
  split
  · exact ((State.modCan_staysIn hc _ _ _).trans (State.fireSource_staysIn hf _ _)).trans ((State.raiseFrom_onlyPosts _ hsrc _ _).staysIn hp)
  · exact s.staysIn_refl

variable (he : k.enables = true) (hw : k.writes = true)
include he hw

theorem State.portToStandby_staysIn (s : State) {p : Nat} (hport : p = 0 ∨ p = 1) : s.staysIn k (s.portToStandby p) := by
  have hset : ∀ (t : State) x, t.staysIn k (t.setCan p x) := fun t x => State.modCan_staysIn hc t p fun _ => x
  have hgive : ∀ l, s.staysIn k (s.each l fun s j => s.giveUp p 2 j) := fun l =>
    State.staysIn_each (fun t j => State.giveUp_staysIn hf hp hc t hport 2 j) s l
  unfold State.portToStandby
  dsimp only
  split
  · split
    · exact (hgive _).trans (hset _ _)
    · exact ((hgive _).trans (hset _ _)).trans (State.putCanEnable_staysIn he hw _ _ _)
  split
  · exact hset _ _
  · exact s.staysIn_refl

theorem State.canToStandby_staysIn (s : State) : s.staysIn k s.canToStandby := by
  rw [State.canToStandby_eq]
  exact (State.portToStandby_staysIn hf hp hc he hw s (.inl rfl)).trans (State.portToStandby_staysIn hf hp hc he hw _ (.inr rfl))

end

/-! ## The end of a rehearsal, and the loss of sync (R298, R304, R312) -/

/-- What a pair's line shows, and what waits for it. -/
def Pair.line (x : Pair) : Bool × Option Nat × Option Nat := (x.claimPartner, x.releaseAt, x.holdUntil)

/-- The rehearsal `r` is over and its result is posted, with the checks that are still open. -/
def State.rehearsalTold (s : State) (r : Rehearsal) : State :=
  let open_ := (if r.incoming then 6 else 1) - r.passed.length - r.failed.length
  { s with pair := { s.pair with rehearsal := none } }.raise .rehearseResult (mkWord [(23, 16, r.passed.length), (15, 8, r.failed.length), (7, 0, open_)])

theorem State.rehearsalTold_onlyPosts (s : State) (r : Rehearsal) :
    State.onlyPosts { s with pair := { s.pair with rehearsal := none } } (s.rehearsalTold r) := State.raiseFrom_onlyPosts _ (by decide) _ _

/-- A result without faults starts the age of the rehearsals anew. -/
theorem State.endRehearsal_some {r : Rehearsal} (h : s.pair.rehearsal = some r) : s.endRehearsal =
    if r.dwell.isNone then { s with pair := { s.pair with rehearsal := none } }
    else if r.took && r.failed == [] && s.dwellOver r then { s.rehearsalTold r with mram := { (s.rehearsalTold r).mram with rehearsalAt := s.now } }
    else s.rehearsalTold r := by
  have hposts := s.rehearsalTold_onlyPosts r
  have hover : (s.rehearsalTold r).dwellOver r = s.dwellOver r := by
    unfold State.onlyPosts at hposts
    rw [hposts]
    rfl
  have hnow : (s.rehearsalTold r).now = s.now := by rw [hposts]
  unfold State.endRehearsal
  rw [h]
  dsimp only
  split
  · rfl
  · change (let t := s.rehearsalTold r
      if r.took && r.failed == [] && t.dwellOver r then { t with mram := { t.mram with rehearsalAt := t.now } } else t) = _
    dsimp only
    rw [hover, hnow]

theorem State.endRehearsal_reaches (s : State) : ∃ v, State.onlyPosts { s with pair := { s.pair with rehearsal := none } } v ∧
    (s.endRehearsal = v ∨ s.endRehearsal = { v with mram := { v.mram with rehearsalAt := s.now } }) := by
  cases h : s.pair.rehearsal with
  | none =>
    have hsame : ({ s with pair := { s.pair with rehearsal := none } } : State) = s := by rw [← h]
    exact ⟨s, by rw [hsame]; exact s.onlyPosts_refl, .inl (by simp [State.endRehearsal, h])⟩
  | some r =>
    rw [State.endRehearsal_some h]
    split
    · exact ⟨_, State.onlyPosts_refl _, .inl rfl⟩
    split
    · exact ⟨_, s.rehearsalTold_onlyPosts r, .inr rfl⟩
    · exact ⟨_, s.rehearsalTold_onlyPosts r, .inl rfl⟩

theorem State.onlyPosts.pair (h : s.onlyPosts t) : t.pair = s.pair := by
  unfold State.onlyPosts at h
  rw [h]

theorem State.endRehearsal_staysIn (hp : k.posts = true) (hr : k.rehearsal = true) (s : State) : s.staysIn k s.endRehearsal := by
  obtain ⟨v, hv, h⟩ := s.endRehearsal_reaches
  have hposted := (s.staysIn_pair _).trans (hv.staysIn hp)
  obtain h | h := h <;> rw [h]
  · exact hposted
  · refine hposted.trans ?_
    simp only [State.staysIn, State.pairGraft, Bool.cond_self, hr, cond_true]

@[simp] theorem State.endRehearsal_pair (s : State) : s.endRehearsal.pair = { s.pair with rehearsal := none } := by
  obtain ⟨v, hv, h⟩ := s.endRehearsal_reaches
  obtain h | h := h <;> rw [h] <;> exact hv.pair

/-- The standby has nothing of its active any more, and what was forwarded for a commit is gone. -/
def State.unsynced (s : State) : State :=
  { s with pair := { s.pair with applied := 0, snapshot := false, ledgers := [], tokens := [], received := []
                                 waitingChanges := [], resyncAsked := false, fingerprints := [], incoming := none, forceCycle := none
                                 judgeFrom := none, lastLedgerAt := s.now, adopted := false, syncTokens := [] }
           square := { s.square with landings := s.square.landings.filter fun x => !x.forwarded } }

theorem State.startSync_eq (s : State) : s.startSync = s.unsynced.endRehearsal.enterPair .syncing := rfl

section
variable (hf : k.fires = true) (hp : k.posts = true) (hr : k.rehearsal = true) (hl : k.landings = true)
include hf hp hr hl

theorem State.startSync_staysIn (s : State) : s.staysIn k s.startSync := by
  have hunsynced : s.staysIn k s.unsynced := by
    simp only [State.staysIn, State.pairGraft, State.unsynced, Bool.cond_self, hl, cond_true]
  rw [State.startSync_eq]
  exact (hunsynced.trans (State.endRehearsal_staysIn hp hr _)).trans (State.enterPair_staysIn hf hp _ _)

theorem State.followActive_staysIn (s : State) : s.staysIn k s.followActive := by
  unfold State.followActive
  repeat' split
  · exact s.staysIn_refl
  · exact s.staysIn_refl
  · exact s.staysIn_refl
  · exact (s.staysIn_pair _).trans (State.raise_staysIn hp _ (by decide) _)
  · exact (s.staysIn_pair _).trans (State.startSync_staysIn hf hp hr hl _)
  · exact s.staysIn_refl

end

@[simp] theorem State.startSync_line (s : State) : s.startSync.pair.line = s.pair.line := by
  rw [State.startSync_eq, State.enterPair_pair, State.endRehearsal_pair]
  rfl

@[simp] theorem State.followActive_line (s : State) : s.followActive.pair.line = s.pair.line := by
  unfold State.followActive
  repeat' split
  · rfl
  · rfl
  · rfl
  · rw [State.raise_pair]
    rfl
  · rw [State.startSync_line]
    rfl
  · rfl

/-! ## The check of the holds (R312) -/

theorem State.rehearseFault_staysIn (hp : k.posts = true) (s : State) (item n : Nat) : s.staysIn k (s.rehearseFault item n) :=
  (s.staysIn_pair _).trans (State.raise_staysIn hp _ (by decide) _)

@[simp] theorem State.rehearseFault_line (s : State) (item n : Nat) : (s.rehearseFault item n).pair.line = s.pair.line := by
  unfold State.rehearseFault
  rw [State.raise_pair]
  rfl

theorem State.checkHolds_staysIn (hp : k.posts = true) (s : State) : s.staysIn k s.checkHolds := by
  have hchecked : ∀ x : Pair, s.staysIn k ({ s with pair := x }.each s.badHolds fun s n => s.rehearseFault 7 n) := fun x =>
    (s.staysIn_pair x).trans (State.staysIn_each (fun t n => State.rehearseFault_staysIn hp t 7 n) _ _)
  unfold State.checkHolds
  split
  · exact s.staysIn_refl
  split
  · exact s.staysIn_refl
  dsimp only
  split
  · exact (hchecked _).trans (State.staysIn_pair _ _)
  split
  · exact hchecked _
  · exact (hchecked _).trans (State.staysIn_pair _ _)

@[simp] theorem State.checkHolds_line (s : State) : s.checkHolds.pair.line = s.pair.line := by
  have hchecked : ∀ x : Pair, ({ s with pair := x }.each s.badHolds fun s n => s.rehearseFault 7 n).pair.line = x.line := fun x =>
    State.each_field (fun t => t.pair.line) (f := fun s n => s.rehearseFault 7 n) (fun t n => t.rehearseFault_line 7 n) _ _
  unfold State.checkHolds
  split
  · rfl
  split
  · rfl
  dsimp only
  split
  · exact hchecked _
  split <;> exact hchecked _

end Sys2Proof.Machine
end

/-! # Takeover

What a standby does when it sees the claim of its active released, or hears it no more (R296, R307). -/

section
namespace Sys2Proof.Machine
open Sys2Proof

/-- What a takeover may change next to ports and epoch. -/
abbrev Scope.takeover : Scope := { draws := true, square := true, engines := true, pair := true }

/-- `t` differs from `s` in what a takeover touches at most. -/
def State.onlyTakeover (s t : State) : Prop :=
  t = { s with freeCount := t.freeCount, square := t.square, engines := t.engines
               mram := { s.mram with epoch := t.mram.epoch, remap := t.mram.remap, voidCopies := t.mram.voidCopies, seqs := t.mram.seqs }
               arrays := t.arrays, locks := t.locks, upsets := t.upsets, raised := t.raised
               round := t.round, cans := t.cans, pair := t.pair, crossings := t.crossings, nextSend := t.nextSend }

theorem State.onlyTakeover.trans {s t u : State} (h : s.onlyTakeover t) (j : t.onlyTakeover u) : s.onlyTakeover u := by
  unfold State.onlyTakeover at *
  rw [j, h]

theorem State.onlyTakeover_of_rest {s t : State} (h : t.rest Scope.takeover = s.rest Scope.takeover) : s.onlyTakeover t := by
  have hgraft := State.eq_graft h
  unfold State.onlyTakeover
  rw [hgraft]
  rfl

theorem State.onlyTakeover_of_staysIn {s t : State}
    (h : s.staysIn { fires := true, posts := true, cans := true, epoch := true, writes := true } t) : s.onlyTakeover t := by
  unfold State.onlyTakeover
  rw [h]
  rfl

theorem State.dropShadowCycle_onlyTakeover (s : State) : s.onlyTakeover s.dropShadowCycle :=
  State.onlyTakeover_of_rest (by simp [State.dropShadowCycle])

theorem State.dropShadowCycle_pair (s : State) : s.dropShadowCycle.pair = { s.pair with tokens := [] } := by
  have hpair : s.abandonCycle.pair = s.pair :=
    State.pair_of_rest (sc := { draws := true, square := true, engines := true }) (State.abandonCycle_rest rfl rfl rfl s) rfl
  unfold State.dropShadowCycle
  dsimp only
  rw [hpair]

/-- The number of an abandoned cycle is used again (R34). -/
theorem State.dropShadowCycle_current (s : State) : s.dropShadowCycle.square.current = s.square.current := by
  change s.abandonCycle.square.current = s.square.current
  unfold State.abandonCycle
  split
  · rfl
  · dsimp only
    rw [State.square_of_rest (sc := { draws := true }) (State.raiseUnstated_rest rfl _ 6 .cycleAbandoned) rfl, s.revertWork_square]

theorem State.dropShadowCycle_epoch (s : State) : s.dropShadowCycle.mram.epoch = s.mram.epoch := by
  have hrest : s.dropShadowCycle.rest Scope.takeover = s.rest Scope.takeover := by simp [State.dropShadowCycle]
  have hepoch := congrArg (fun u : State => u.mram.epoch) hrest
  exact hepoch

/-- The standby is to be active from the cycle `m` on. -/
def State.takesOver (s : State) (m : BitVec 32) : State :=
  { s with pair := { s.pair with incoming := some m, planned := false, reconciled := false, takeovers := satInc s.pair.takeovers } }

/-- The takeover is recorded, with its kind and its cycle. -/
def State.takeoverTold (s : State) (kind : Nat) : State :=
  (s.takesOver s.square.current).raise .takeover (mkWord [(31, 24, kind), (23, 0, s.square.current.toNat)])

theorem State.takeOver_eq (s : State) (kind : Nat) : s.takeOver kind = ((s.dropShadowCycle.takeoverTold kind).raiseEpoch).canTakeover true := rfl

theorem State.takeoverTold_staysIn {k : PairScope} (hp : k.posts = true) (s : State) (kind : Nat) : s.staysIn k (s.takeoverTold kind) :=
  (s.staysIn_pair _).trans (State.raise_staysIn hp _ (by decide) _)

@[simp] theorem State.takeoverTold_pair (s : State) (kind : Nat) : (s.takeoverTold kind).pair = (s.takesOver s.square.current).pair :=
  State.raise_pair _ _ _

@[simp] theorem State.takeoverTold_epoch (s : State) (kind : Nat) : (s.takeoverTold kind).mram.epoch = s.mram.epoch :=
  congrArg Mram.epoch (State.raise_mram _ _ _)

@[simp] theorem State.canTakeover_epoch (s : State) (gap : Bool) : (s.canTakeover gap).mram.epoch = s.mram.epoch :=
  State.each_field (fun t => t.mram.epoch) (fun _ _ => rfl) s [0, 1]

theorem State.takeOver_onlyTakeover (s : State) (kind : Nat) : s.onlyTakeover (s.takeOver kind) := by
  rw [State.takeOver_eq]
  refine s.dropShadowCycle_onlyTakeover.trans (State.onlyTakeover_of_staysIn ?_)
  exact ((State.takeoverTold_staysIn rfl _ _).trans (State.setEpoch_staysIn rfl rfl rfl _ _)).trans (State.canTakeover_staysIn rfl _ _)

theorem State.takeOver_pair (s : State) (kind : Nat) : (s.takeOver kind).pair =
    { s.pair with tokens := [], incoming := some s.square.current, planned := false, reconciled := false, takeovers := satInc s.pair.takeovers } := by
  rw [State.takeOver_eq, State.canTakeover_pair, State.raiseEpoch, State.setEpoch_pair, State.takeoverTold_pair, State.takesOver,
    State.dropShadowCycle_pair, State.dropShadowCycle_current]

theorem State.takeOver_epoch (s : State) (kind : Nat) : (s.takeOver kind).mram.epoch = s.mram.epoch + 1 := by
  rw [State.takeOver_eq, State.canTakeover_epoch, State.raiseEpoch, State.setEpoch_epoch, State.takeoverTold_epoch, State.dropShadowCycle_epoch]

/-! ## The release path (R293, R296) -/

/-- A release that the cable or the partner took back, or that is not 10 µs old, is not seen. -/
theorem State.seeRelease_early {s : State} (h : ∀ u, s.pair.releaseAt = some u → s.now ≤ u + 10000) : s.seeRelease = s := by
  unfold State.seeRelease
  split
  · rfl
  · next u hu => exact if_pos (h u hu)

/-- A release is no longer awaited. -/
def State.released (s : State) : State := { s with pair := { s.pair with releaseAt := none } }

theorem State.seeRelease_takes {s : State} {u : Nat} (hat : s.pair.releaseAt = some u) (hlate : u + 10000 < s.now) (hsync : s.pair.state = .sync)
    (hin : s.pair.incoming = none) : s.seeRelease = s.released.takeOver 1 := by
  have htakes : (s.released.pair.state == .sync && s.released.pair.incoming.isNone) = true := by simp [State.released, hsync, hin]
  unfold State.seeRelease
  rw [hat]
  exact (if_neg (Nat.not_le.2 hlate)).trans (if_pos htakes)

theorem step_idle {s : State} (h : s.pending = []) : step s = .next (s.lapse idleNs).seeRelease.upsetTick.supTick.restartIfLeft := by
  simp [step, h]

/-! ## The heartbeat path (R296) -/

/-- The paths that have been silent for their time. -/
def State.silenced (s : State) : State :=
  let cw := silent s.pair.hbCwAt s.now 1000000
  let ring := silent s.pair.hbRingAt s.now 3000000
  { s with pair := { s.pair with cwSilent := s.pair.cwSilent || cw, ringSilent := s.pair.ringSilent || ring
                                 cwHbOk := s.pair.cwHbOk && !cw, ringHbOk := s.pair.ringHbOk && !ring } }

/-- What silence means in each state: `cw` and `ring` say which paths have been silent for their time, `cw3` that the Causeway has been so for 3 ms. -/
def State.judgeSilence (s : State) (cw cw3 ring : Bool) : Out :=
  match s.pair.state with
  | .sync =>
    if cw && ring then
      if !s.pair.cable || s.pair.incoming.isSome then .next s
      else if !s.pair.claimPartner then .next (s.takeOver 2)
      else if s.pair.claimTold then .next s
      else .next ({ s with pair := { s.pair with claimTold := true } }.raise .heartbeatsLostClaimed 0)
    else .next s.judgePaths
  | .active => if cw3 && ring then .next s.toAlone else .next s
  | .syncing => if cw && ring then .next (s.enterPair .stale) else .next s
  | _ => .next s

theorem execHeartbeatSilence_eq {s : State} (hmode : s.pairMode = true) : execHeartbeatSilence s =
    s.silenced.judgeSilence (silent s.pair.hbCwAt s.now 1000000) (silent s.pair.hbCwAt s.now 3000000) (silent s.pair.hbRingAt s.now 3000000) :=
  if_neg (by simp [hmode])

theorem State.judgeSilence_takes {s : State} (hsync : s.pair.state = .sync) (hcable : s.pair.cable = true) (hin : s.pair.incoming = none)
    (hclaim : s.pair.claimPartner = false) (cw3 : Bool) : s.judgeSilence true cw3 true = .next (s.takeOver 2) := by
  simp [State.judgeSilence, hsync, hcable, hin, hclaim]

theorem execHeartbeatSilence_takes {s : State} (hmode : s.pairMode = true) (hsync : s.pair.state = .sync) (hcw : s.pair.hbCwAt = none)
    (hring : s.pair.hbRingAt = none) (hcable : s.pair.cable = true) (hin : s.pair.incoming = none) (hclaim : s.pair.claimPartner = false) :
    execHeartbeatSilence s = .next (s.silenced.takeOver 2) := by
  rw [execHeartbeatSilence_eq hmode, hcw, hring]
  exact State.judgeSilence_takes (s := s.silenced) hsync hcable hin hclaim true

end Sys2Proof.Machine
end

/-! # Heartbeats and lines

What a heartbeat shows, and what the two lines of a pair bring about (R292 to R296, R307). -/

section
namespace Sys2Proof.Machine
open Sys2Proof

/-! ## Heartbeats that are sent (R295) -/

/-- A station frame changes the ring alone. -/
theorem State.sendStation_ring (s : State) (body : StationBody) : s.sendStation body = { s with ring := (s.sendStation body).ring } := by
  unfold State.sendStation
  split
  · rfl
  · exact State.sendRing_eq _ _ _ _

/-- The next heartbeat stands. -/
def State.heartbeatMade (s : State) : State :=
  { s with pair := { s.pair with hbSeq := s.pair.hbSeq + 1, hbGenAt := s.now, hbSent := some s.ownHeartbeat } }

theorem execHeartbeatGenerate_due {s : State} (hmode : s.pairMode = true) (halive : s.alive = true) (hlock : s.faultyInterlock = false)
    (hdue : s.pair.hbSent = none ∨ s.pair.hbGenAt + 250000 ≤ s.now ∨ s.now < s.pair.hbGenAt) : ∃ r, execHeartbeatGenerate s =
      .next { s.heartbeatMade with ring := r } := by
  have hevery : s.dueEvery (if s.pair.hbSent.isSome then some s.pair.hbGenAt else none) 250000 = true := by
    rw [State.dueEvery_iff]
    obtain h | h := hdue
    · simp [h]
    · intro t ht
      split at ht <;> cases ht
      exact h
  unfold execHeartbeatGenerate
  rw [if_neg (by simp [hmode, halive, hlock, hevery])]
  dsimp only
  split
  · exact ⟨_, congrArg _ (s.heartbeatMade.sendStation_ring _)⟩
  · exact ⟨s.ring, rfl⟩

theorem execHeartbeatGenerate_early {s : State} (hsent : s.pair.hbSent.isSome = true) (hle : s.pair.hbGenAt ≤ s.now) (hlt : s.now < s.pair.hbGenAt + 250000) :
    execHeartbeatGenerate s = .next s := by
  refine if_pos ?_
  simp [hsent, State.dueEvery, Nat.not_lt.2 hle, Nat.not_le.2 hlt]

/-! ## Heartbeats that are heard (R292, R296) -/

/-- A path has brought a heartbeat. -/
def Pair.heardBy (x : Pair) (path : HbPath) (now : Nat) : Pair :=
  match path with
  | .causeway => { x with hbCwAt := some now, cwHbOk := true, cwSilent := false, cwTold := false, claimTold := false }
  | .ring => { x with hbRingAt := some now, ringHbOk := true, ringSilent := false, ringTold := false, claimTold := false }

/-- The path was silent. -/
def Pair.wasSilent (x : Pair) : HbPath → Bool
  | .causeway => x.cwSilent
  | .ring => x.ringSilent

/-- VALUE of the record of a path that comes back. -/
def hbPathNo : HbPath → Word
  | .causeway => 0
  | .ring => 1

/-- A path that comes back is recorded. -/
def State.pathBack (s : State) (path : HbPath) : State :=
  let u := { s with pair := s.pair.heardBy path s.now }
  if s.pair.wasSilent path then u.raise .heartbeatPathRestored (hbPathNo path) else u

theorem State.hearPath_eq (s : State) (path : HbPath) : s.hearPath path = (s.pathBack path).judgePaths := by
  cases path <;> rfl

theorem State.pathBack_pair (s : State) (path : HbPath) : (s.pathBack path).pair = s.pair.heardBy path s.now := by
  unfold State.pathBack
  dsimp only
  split
  · exact State.raise_pair _ _ _
  · rfl

theorem State.judgePaths_pair (s : State) : ∃ a b, s.judgePaths.pair = { s.pair with cwTold := a, ringTold := b } := by
  have halarm : ∀ (t : State) n, (t.pathAlarm n).pair = t.pair := fun t n => State.raise_pair _ _ _
  unfold State.judgePaths
  repeat' split
  · exact ⟨_, _, rfl⟩
  · exact ⟨_, _, halarm _ _⟩
  · exact ⟨_, _, halarm _ _⟩
  · exact ⟨_, _, rfl⟩

theorem State.hearPath_staysIn {k : PairScope} (hf : k.fires = true) (hp : k.posts = true) (s : State) (path : HbPath) : s.staysIn k (s.hearPath path) := by
  rw [State.hearPath_eq]
  refine State.staysIn.trans ?_ (State.judgePaths_staysIn hf hp _)
  unfold State.pathBack
  dsimp only
  split
  · exact (s.staysIn_pair _).trans (State.raise_staysIn hp _ (by decide) _)
  · exact s.staysIn_pair _

theorem State.judgeLine_reaches (s : State) : ∃ a b c, s.judgeLine = { s with pair := { s.pair with hbSeenAt := a, claimOff := b, lineTold := c } } := by
  unfold State.judgeLine
  split
  · exact ⟨_, _, _, rfl⟩
  · dsimp only
    split <;> exact ⟨_, _, _, rfl⟩

/-- The module has taken a heartbeat that came by a path. -/
def State.takesHb (s : State) (path : HbPath) (h : Heartbeat) : State :=
  { s.hearPath path with pair := { (s.hearPath path).pair with partnerHb := some h, partner := h.address } }.judgeLine

/-- What a heartbeat leaves as it was, next to what it brings. -/
theorem State.takesHb_pair (s : State) (path : HbPath) (h : Heartbeat) : ∃ a b c d e, (s.takesHb path h).pair =
    { s.pair.heardBy path s.now with
      cwTold := a, ringTold := b, partnerHb := some h, partner := h.address, hbSeenAt := c, claimOff := d, lineTold := e } := by
  obtain ⟨a, b, hpaths⟩ := (s.pathBack path).judgePaths_pair
  obtain ⟨c, d, e, hline⟩ := State.judgeLine_reaches
    { s.hearPath path with pair := { (s.hearPath path).pair with partnerHb := some h, partner := h.address } }
  refine ⟨a, b, c, d, e, ?_⟩
  unfold State.takesHb
  rw [hline]
  dsimp only
  rw [State.hearPath_eq, hpaths, State.pathBack_pair]

theorem State.takesHb_staysIn {k : PairScope} (hf : k.fires = true) (hp : k.posts = true) (s : State) (path : HbPath) (h : Heartbeat) :
    s.staysIn k (s.takesHb path h) := by
  obtain ⟨a, b, c, hline⟩ := State.judgeLine_reaches
    { s.hearPath path with pair := { (s.hearPath path).pair with partnerHb := some h, partner := h.address } }
  unfold State.takesHb
  rw [hline]
  exact ((State.hearPath_staysIn hf hp s path).trans (State.staysIn_pair _ _)).trans (State.staysIn_pair _ _)

/-- A module that finds its own side in a heartbeat says so once. -/
def State.judgeSide (s : State) (same : Bool) : State :=
  let t := if same && !s.pair.sideConflict then s.raise .sideConflict 0 else s
  { t with pair := { t.pair with sideConflict := same } }

theorem State.judgeSide_pair (s : State) (same : Bool) : (s.judgeSide same).pair = { s.pair with sideConflict := same } := by
  unfold State.judgeSide
  dsimp only
  split
  · rw [State.raise_pair]
  · rfl

theorem State.judgeSide_staysIn {k : PairScope} (hp : k.posts = true) (s : State) (same : Bool) : s.staysIn k (s.judgeSide same) := by
  unfold State.judgeSide
  dsimp only
  split
  · exact (State.raise_staysIn hp _ (by decide) _).trans (State.staysIn_pair _ _)
  · exact s.staysIn_pair _

theorem execHeartbeatReceived_taken {s : State} {path : HbPath} {h : Heartbeat} (hmode : s.pairMode = true) (hstate : s.pair.state ≠ .solo)
    (hopen : s.pathOpen path = true) (htakes : s.takesHeartbeat path h = true) : execHeartbeatReceived path h s =
      .next (let u := (s.takesHb path h).judgeSide (h.sideB == s.mram.sideB)
        if h.sideB == s.mram.sideB && u.pair.state == .stale then u else u.seePartner s.pair.partnerHb h) :=
  if_neg (by simp [hmode, hstate, hopen, htakes])

/-- A standby in sync notes a heartbeat, and no more. -/
theorem execHeartbeatReceived_sync {s : State} {path : HbPath} {h : Heartbeat} (hmode : s.pairMode = true) (hsync : s.pair.state = .sync)
    (hopen : s.pathOpen path = true) (htakes : s.takesHeartbeat path h = true) :
    execHeartbeatReceived path h s = .next ((s.takesHb path h).judgeSide (h.sideB == s.mram.sideB)) := by
  have hstate : ((s.takesHb path h).judgeSide (h.sideB == s.mram.sideB)).pair.state = .sync := by
    obtain ⟨a, b, c, d, e, hpair⟩ := s.takesHb_pair path h
    rw [State.judgeSide_pair, hpair]
    cases path <;> exact hsync
  refine (execHeartbeatReceived_taken hmode (by simp [hsync]) hopen htakes).trans ?_
  generalize (s.takesHb path h).judgeSide (h.sideB == s.mram.sideB) = u at hstate
  simp [hstate, State.seePartner]

/-- A record does not read the pair. -/
theorem State.raise_withPair (s : State) (x : Pair) {r : RecKind} (h : (BitVec.ofNat 16 r.source).toNat ≠ 17) (v : Word) :
    { s with pair := x }.raise r v = { s.raise r v with pair := x } := by
  unfold State.raise State.raiseFrom State.raiseFull
  split
  · rfl
  · unfold State.handRecord
    dsimp only [State.mkRecord]
    rw [if_neg h, if_neg h]
    rfl

/-! ## The partner's line rises and falls (R229, R293, R294) -/

section
variable {s : State}

/-- The partner's claim has risen. -/
def State.partnerRose (s : State) : State :=
  { s with pair := { s.pair with claimPartner := true, partnerEdgeAt := s.now, releaseAt := none, claimOff := none, lineTold := false } }

theorem execPartnerClaimRise_eq (hmode : s.pairMode = true) (hdown : s.pair.claimPartner = false) : execPartnerClaimRise s =
    .next (if s.pair.claimOwn then s.partnerRose.riseAgainst else s.partnerRose.checkHolds.releaseHolds.followActive) := by
  unfold execPartnerClaimRise
  rw [if_neg (by simp [hmode, hdown])]
  exact (apply_ite Host.Outcome.next (s.pair.claimOwn = true) _ _).symm

theorem State.riseAgainst_staysIn {k : PairScope} (hp : k.posts = true) (hd : k.driven = true) (s : State) : s.staysIn k s.riseAgainst := by
  unfold State.riseAgainst
  repeat' split
  · exact s.staysIn_refl
  · exact (s.staysIn_pair _).trans (State.outputsAnew_staysIn hd _)
  · exact State.raise_staysIn hp _ (by decide) _
  · exact s.staysIn_refl

@[simp] theorem State.riseAgainst_line (s : State) : s.riseAgainst.pair.line = s.pair.line := by
  unfold State.riseAgainst
  repeat' split
  · rfl
  · rw [(State.outputsAnew_onlyDriven _).pair]
    rfl
  · rw [State.raise_pair]
  · rfl

/-- A rise against a claim whose drivers are enabled, past the time of a tie, is a fault of the partner's line. -/
theorem State.riseAgainst_late (hdrivers : s.pair.drivers = true) (hlate : s.pair.ownRoseAt + 50000 < s.now) :
    s.riseAgainst = s.raise .claimLineFault (mkWord [(0, 0, b2n (!s.mram.sideB))]) := by
  unfold State.riseAgainst
  rw [if_neg (Nat.not_le.2 hlate), if_pos hdrivers]

theorem execPartnerClaimRise_reaches (hmode : s.pairMode = true) (hdown : s.pair.claimPartner = false) : ∃ t, execPartnerClaimRise s = .next t ∧
    s.staysIn { fires := true, posts := true, driven := true, rehearsal := true, landings := true } t ∧ t.pair.claimPartner = true ∧
    t.pair.releaseAt = none ∧ (s.pair.claimOwn = false → t.pair.holdUntil = none) := by
  have hrose : s.staysIn { fires := true, posts := true, driven := true, rehearsal := true, landings := true } s.partnerRose := s.staysIn_pair _
  cases hown : s.pair.claimOwn with
  | true =>
    have hline : s.partnerRose.riseAgainst.pair.line = (true, none, s.pair.holdUntil) := State.riseAgainst_line _
    obtain ⟨hclaim, hrelease, -⟩ := Prod.mk.inj hline |>.imp_right Prod.mk.inj
    refine ⟨_, (execPartnerClaimRise_eq hmode hdown).trans (by rw [if_pos hown]), hrose.trans (State.riseAgainst_staysIn rfl rfl _), hclaim, hrelease, by simp⟩
  | false =>
    have hline : s.partnerRose.checkHolds.releaseHolds.followActive.pair.line = (true, none, none) := by
      have hchecked : s.partnerRose.checkHolds.pair.line = (true, none, s.pair.holdUntil) := State.checkHolds_line _
      obtain ⟨hclaim, hrelease, -⟩ := Prod.mk.inj hchecked |>.imp_right Prod.mk.inj
      rw [State.followActive_line, State.releaseHolds_pair, ← hclaim, ← hrelease]
      rfl
    obtain ⟨hclaim, hrelease, hhold⟩ := Prod.mk.inj hline |>.imp_right Prod.mk.inj
    refine ⟨_, (execPartnerClaimRise_eq hmode hdown).trans (by rw [hown]; rfl), ?_, hclaim, hrelease, fun _ => hhold⟩
    exact ((hrose.trans (State.checkHolds_staysIn rfl _)).trans (State.releaseHolds_staysIn rfl _)).trans (State.followActive_staysIn rfl rfl rfl rfl _)

/-! ## The tie (R294) -/

/-- Side B has withdrawn its claim. -/
def State.withdrawn (s : State) : State := { s with pair := { s.pair with claimOwn := false, drivers := false, ownFellAt := some s.now } }

theorem execTieWithdrawn_yields (hmode : s.pairMode = true) (hside : s.mram.sideB = true) (hown : s.pair.claimOwn = true)
    (hpartner : s.pair.claimPartner = true) (hle : s.pair.ownRoseAt ≤ s.pair.partnerEdgeAt) (htie : s.pair.partnerEdgeAt ≤ s.pair.ownRoseAt + 50000) :
    execTieWithdrawn s = .next (((s.withdrawn.raise .tieWithdrawn 0).enterPair .stale).canToStandby.releaseHolds) := by
  have hnear : s.pair.partnerEdgeAt - s.pair.ownRoseAt ≤ 50000 := by omega
  unfold execTieWithdrawn
  dsimp only
  rw [if_pos (by simp [hmode, hside, hown, hpartner, hle, hnear])]
  rfl

theorem State.yielded_staysIn (s : State) : s.staysIn { fires := true, posts := true, driven := true, cans := true, enables := true, writes := true }
    ((s.withdrawn.raise .tieWithdrawn 0).enterPair .stale).canToStandby.releaseHolds := by
  have hraised : s.staysIn { fires := true, posts := true, driven := true, cans := true, enables := true, writes := true }
      (s.withdrawn.raise .tieWithdrawn 0) := (s.staysIn_pair _).trans (State.raise_staysIn rfl _ (by decide) _)
  exact ((hraised.trans (State.enterPair_staysIn rfl rfl _ _)).trans (State.canToStandby_staysIn rfl rfl rfl rfl rfl _)).trans
    (State.releaseHolds_staysIn rfl _)

theorem State.yielded_pair (s : State) : ∃ a, ((s.withdrawn.raise .tieWithdrawn 0).enterPair .stale).canToStandby.releaseHolds.pair =
    { s.pair with claimOwn := false, drivers := false, ownFellAt := some s.now, state := .stale, adopted := a, holdUntil := none } := by
  rw [State.releaseHolds_pair, State.canToStandby_pair, State.enterPair_pair, State.raise_pair]
  exact ⟨_, rfl⟩

/-! ## Faults of the lines (R295) -/

theorem execClaimLineFault_partner (hmode : s.pairMode = true) : execClaimLineFault (!s.mram.sideB) s = .next (if s.partnerLineBad then
    { s with pair := { s.pair with lineTold := true } }.raise .claimLineFault (mkWord [(0, 0, b2n (!s.mram.sideB))]) else s) := by
  unfold execClaimLineFault
  rw [if_neg (by simp [hmode]), if_neg (by simp)]
  exact (apply_ite Host.Outcome.next (s.partnerLineBad = true) _ _).symm

theorem execClaimLineFault_own (hmode : s.pairMode = true) : execClaimLineFault s.mram.sideB s = .next (if s.ownLineOff then
    { s with pair := { s.pair with ownLineBad := true } }.raise .claimLineFault (mkWord [(0, 0, b2n s.mram.sideB)]) else s) := by
  unfold execClaimLineFault
  rw [if_neg (by simp [hmode]), if_pos (by simp)]
  exact (apply_ite Host.Outcome.next (s.ownLineOff = true) _ _).symm

theorem State.partnerLineBad_of_stands {u h : Nat} (hoff : s.pair.claimOff = some u) (hold : u + 1000000 ≤ s.now) (hseen : s.pair.hbSeenAt = some h)
    (hnew : s.now < h + 1000000) (htold : s.pair.lineTold = false) : s.partnerLineBad = true := by
  simp [State.partnerLineBad, hoff, hseen, hold, hnew, htold]

theorem State.partnerLineBad_not (h : s.pair.claimOff = none ∨ s.pair.lineTold = true ∨ ∃ u, s.pair.claimOff = some u ∧ s.now < u + 1000000) :
    s.partnerLineBad = false := by
  unfold State.partnerLineBad
  split
  · next u v hoff hseen =>
    obtain h | h | ⟨w, hw, hlt⟩ := h
    · simp [hoff] at h
    · simp [h]
    · cases hoff.symm.trans hw
      simp [Nat.not_le.2 hlt]
  · rfl

theorem State.ownLineOff_of_stands {h : Heartbeat} (hsent : s.pair.hbSent = some h) (hclaim : h.claim = s.pair.claimOwn)
    (hold : (if s.pair.claimOwn = true then s.pair.ownRoseAt else s.pair.ownFellAt.getD s.power.startFrom) + 1000000 ≤ s.now) :
    s.ownLineOff = !s.pair.ownLineBad := by
  simp [State.ownLineOff, hsent, hclaim, hold]

end

/-! ## Lanes and cable (R293, R296) -/

section
variable {s : State}

theorem execLaneLost_first (hmode : s.pairMode = true) (hup : s.pair.lane0 = true) : ∃ t, execLaneLost 0 s = .next t ∧
    s.staysIn { posts := true } t ∧ t.pair.lane0 = false ∧ t.pair.lane1 = s.pair.lane1 := by
  let u := { s with pair := { s.pair with lane0 := false } }.raise .laneLost (mkWord [(0, 0, 0)])
  have hpair : u.pair = { s.pair with lane0 := false } := State.raise_pair _ _ _
  have honly : s.staysIn { posts := true } u := (s.staysIn_pair _).trans (State.raise_staysIn rfl _ (by decide) _)
  have hexec : execLaneLost 0 s = .next (if u.pair.lane0 || u.pair.lane1 then u else { u with pair := { u.pair with cwHbOk := false } }) :=
    if_neg (by simp [hmode, hup])
  refine ⟨_, hexec, ?_, ?_, ?_⟩
  · split
    · exact honly
    · exact honly.trans (State.staysIn_pair _ _)
  · split <;> simp only [hpair]
  · split <;> simp only [hpair]

/-- The cable is gone. -/
def State.cablePulled (s : State) : State :=
  { s with pair := { s.pair with
    cable := false, lane0 := false, lane1 := false, cwHbOk := false, cableFellAt := some s.now, releaseAt := none, cableEnd := none } }

theorem execCablePresentChange_pulls (hthere : s.pair.cable = true) : ∃ t, execCablePresentChange false s = .next t ∧
    s.staysIn { fires := true, posts := true } t ∧ t.pair = s.cablePulled.pair := by
  have hexec : execCablePresentChange false s =
      .next (if s.cablePulled.pair.state == .sync then (s.cablePulled.fireSource 401).raise .cableAbsent 0 else s.cablePulled) :=
    if_neg (by simp [hthere])
  refine ⟨_, hexec, ?_, ?_⟩
  · split
    · exact ((s.staysIn_pair _).trans (State.fireSource_staysIn rfl _ _)).trans (State.raise_staysIn rfl _ (by decide) _)
    · exact s.staysIn_pair _
  · split
    · exact State.raise_pair _ _ _
    · rfl

end

/-! ## The rows -/

theorem State.pathOpen_causeway (s : State) : s.pathOpen .causeway = s.cableUp := rfl
theorem State.pathOpen_ring (s : State) : s.pathOpen .ring = s.ringUp := rfl

theorem State.takesHeartbeat_ring {s : State} {h : Heartbeat} (ha : s.mram.addressed = true) (htarget : h.target = s.mram.address.zeroExtend 16) :
    s.takesHeartbeat .ring h = true := by
  simp [State.takesHeartbeat, ha, htarget]

/-- A standby in sync that hears a heartbeat stays what it was, but for the paths, the partner's view and the conflict of the sides. -/
theorem State.syncHears {s : State} {path : HbPath} {h : Heartbeat} (hmode : s.pairMode = true) (hsync : s.pair.state = .sync)
    (hopen : s.pathOpen path = true) (htakes : s.takesHeartbeat path h = true) : ∃ t, execHeartbeatReceived path h s = .next t ∧
      s.staysIn { fires := true, posts := true } t ∧ ∃ a b c d e, t.pair = { s.pair.heardBy path s.now with
        cwTold := a, ringTold := b, partnerHb := some h, partner := h.address, hbSeenAt := c, claimOff := d, lineTold := e
        sideConflict := h.sideB == s.mram.sideB } := by
  obtain ⟨a, b, c, d, e, hpair⟩ := s.takesHb_pair path h
  refine ⟨_, execHeartbeatReceived_sync hmode hsync hopen htakes, ?_, a, b, c, d, e, ?_⟩
  · exact (s.takesHb_staysIn rfl rfl path h).trans (State.judgeSide_staysIn rfl _ _)
  · rw [State.judgeSide_pair, hpair]

/-- A STALE module that finds its own side in a heartbeat of the ring says so, and stays STALE. -/
theorem State.staleHears {s : State} {h : Heartbeat} (hmode : s.pairMode = true) (hstale : s.pair.state = .stale) (hup : s.ringUp = true)
    (htakes : s.takesHeartbeat .ring h = true) (hheard : s.pair.ringSilent = false) (hside : h.sideB = s.mram.sideB) (hnew : s.pair.sideConflict = false) :
    ∃ t, execHeartbeatReceived .ring h s = .next t ∧ t = { s.raise .sideConflict 0 with pair := t.pair } ∧
      t.pair.state = .stale ∧ t.pair.sideConflict = true ∧ t.pair.partnerHb = some h ∧ t.pair.hbRingAt = some s.now := by
  have hsame : (h.sideB == s.mram.sideB) = true := by simp [hside]
  obtain ⟨a, b, c, d, e, hpair⟩ := s.takesHb_pair .ring h
  have honly : ∃ x, s.takesHb .ring h = { s with pair := x } := by
    have hback : s.hearPath .ring = { s with pair := s.pair.heardBy .ring s.now } := by
      have hquiet : s.pathBack .ring = { s with pair := s.pair.heardBy .ring s.now } := if_neg (by simp [Pair.wasSilent, hheard])
      rw [State.hearPath_eq, hquiet]
      exact if_pos (by simp [Pair.heardBy, hstale])
    obtain ⟨f, g, i, hline⟩ := State.judgeLine_reaches
      { s.hearPath .ring with pair := { (s.hearPath .ring).pair with partnerHb := some h, partner := h.address } }
    unfold State.takesHb
    rw [hline, hback]
    exact ⟨_, rfl⟩
  obtain ⟨x, hx⟩ := honly
  have hconflict : (s.takesHb .ring h).pair.sideConflict = false := by rw [hpair]; exact hnew
  have hjudged : (s.takesHb .ring h).judgeSide true = { (s.takesHb .ring h).raise .sideConflict 0 with
      pair := { (s.takesHb .ring h).pair with sideConflict := true } } := by
    unfold State.judgeSide
    rw [hconflict, ← State.raise_pair (s.takesHb .ring h) .sideConflict 0]
    rfl
  have hstate : ((s.takesHb .ring h).judgeSide true).pair.state = .stale := by
    rw [State.judgeSide_pair, hpair]
    exact hstale
  refine ⟨(s.takesHb .ring h).judgeSide true, ?_, ?_, hstate, ?_, ?_, ?_⟩
  · refine (execHeartbeatReceived_taken hmode (by simp [hstale]) (s.pathOpen_ring.trans hup) htakes).trans ?_
    rw [hsame]
    dsimp only
    rw [hstate]
    rfl
  · rw [hjudged, hx, State.raise_withPair s x (by decide)]
  · rw [State.judgeSide_pair]
  · rw [State.judgeSide_pair, hpair]
  · rw [State.judgeSide_pair, hpair]
    rfl

/-- Settles O52: heartbeats by what each path shows, the release path by the takeover that it leads to, the lines by what they tell. -/
theorem pairLineRows : Obligations.PairLineRows := by
  intro s hmode
  refine ⟨execHeartbeatGenerate_early, ?generate, ?watchdog, ?cway, fun h hstale hup ha ht hheard hside hnew =>
      State.staleHears hmode hstale hup (State.takesHeartbeat_ring ha ht) hheard hside hnew, ?ring, ?foreign, ?silence, ?falls, ?pulled, ?release, ?early,
    fun hdown => execPartnerClaimRise_reaches hmode hdown, ?against, ?tie, ?partnerLine, ?partnerFine, ?ownLine, ?lane, ?cable⟩
  case generate =>
    intro halive hlock hdue
    obtain ⟨r, hexec⟩ := execHeartbeatGenerate_due hmode halive hlock hdue
    exact ⟨_, hexec, rfl, rfl, rfl, rfl⟩
  case watchdog =>
    intro hown hlate
    obtain ⟨hclaim, hdrivers⟩ := State.dropClaim_pair hown
    exact ⟨_, if_pos (by simp [hmode, hown, hlate]), State.dropClaim_staysIn (k := { driven := true }) rfl s, hclaim, hdrivers⟩
  case cway =>
    intro h hsync hup
    obtain ⟨t, hexec, honly, a, b, c, d, e, hpair⟩ := State.syncHears hmode hsync (s.pathOpen_causeway.trans hup) (h := h) rfl
    exact ⟨t, hexec, honly, by rw [hpair], by rw [hpair], by rw [hpair]; rfl, by rw [hpair]; rfl⟩
  case ring =>
    intro h hsync hup ha ht hside
    obtain ⟨t, hexec, honly, a, b, c, d, e, hpair⟩ := State.syncHears hmode hsync (s.pathOpen_ring.trans hup) (State.takesHeartbeat_ring ha ht)
    exact ⟨t, hexec, honly, by rw [hpair]; simp [hside], by rw [hpair]; rfl⟩
  case foreign =>
    intro h hforeign
    refine if_pos ?_
    obtain hforeign | hforeign := hforeign <;> simp [State.takesHeartbeat, hforeign]
  case silence =>
    intro hsync hcw hring hcable hin hclaim
    refine ⟨_, execHeartbeatSilence_takes hmode hsync hcw hring hcable hin hclaim, ?_, ?_, ?_, ?_⟩
    · exact State.onlyTakeover.trans (t := s.silenced) rfl (State.takeOver_onlyTakeover _ _)
    · rw [State.takeOver_pair]
      rfl
    · rw [State.takeOver_pair]
      rfl
    · rw [State.takeOver_epoch]
      rfl
  case falls =>
    intro hsync hclaim hcable hfell hin
    refine (if_neg (by simp [hmode, hclaim])).trans (if_pos ?_)
    simp [State.lineEdge, hsync, hcable, hfell, hin]
  case pulled =>
    intro u hclaim hfell hsoon
    refine (if_neg (by simp [hmode, hclaim])).trans (if_neg ?_)
    simp [State.lineEdge, hfell, hsoon]
  case release =>
    intro u hidle hat hlate hsync hin
    have htakes := State.seeRelease_takes (s := s.lapse idleNs) hat hlate hsync hin
    refine ⟨_, (step_idle hidle).trans (by rw [htakes]), ?_, ?_, ?_, ?_, ?_⟩
    · exact State.onlyTakeover.trans (t := (s.lapse idleNs).released) rfl (State.takeOver_onlyTakeover _ _)
    · rw [State.takeOver_pair]
      rfl
    · rw [State.takeOver_pair]
      rfl
    · rw [State.takeOver_pair]
      rfl
    · rw [State.takeOver_epoch]
      rfl
  case early =>
    intro u hidle hat hsoon
    have hearly : (s.lapse idleNs).seeRelease = s.lapse idleNs := State.seeRelease_early fun v hv => by
      cases hat.symm.trans hv
      exact hsoon
    exact (step_idle hidle).trans (by rw [hearly])
  case against =>
    intro hdown hown hdrivers hlate
    have hraised := State.riseAgainst_late (s := s.partnerRose) hdrivers hlate
    have hpair := State.raise_pair s.partnerRose .claimLineFault (mkWord [(0, 0, b2n (!s.mram.sideB))])
    refine ⟨s.partnerRose.raise .claimLineFault (mkWord [(0, 0, b2n (!s.mram.sideB))]), ?_, ?_, by rw [hpair]; exact hown, by rw [hpair]; exact hdrivers⟩
    · exact (execPartnerClaimRise_eq hmode hdown).trans (by rw [if_pos hown, hraised]; rfl)
    · rw [hpair]
      exact State.raise_withPair s _ (by decide) _
  case tie =>
    intro hside hown hpartner hle htie
    obtain ⟨a, hpair⟩ := s.yielded_pair
    exact ⟨_, execTieWithdrawn_yields hmode hside hown hpartner hle htie, s.yielded_staysIn, by rw [hpair], by rw [hpair], by rw [hpair], by rw [hpair]⟩
  case partnerLine =>
    intro u h hoff hold hseen hnew htold
    exact (execClaimLineFault_partner hmode).trans (by rw [if_pos (State.partnerLineBad_of_stands hoff hold hseen hnew htold)])
  case partnerFine =>
    intro hfine
    exact (execClaimLineFault_partner hmode).trans (by rw [State.partnerLineBad_not hfine]; rfl)
  case ownLine =>
    intro h hsent hclaim hold
    refine (execClaimLineFault_own hmode).trans ?_
    rw [State.ownLineOff_of_stands hsent hclaim hold]
    cases s.pair.ownLineBad <;> rfl
  case lane =>
    intro hup
    obtain ⟨t, hexec, honly, hpair⟩ := execLaneLost_first hmode hup
    exact ⟨t, hexec, honly, hpair⟩
  case cable =>
    intro hthere
    obtain ⟨t, hexec, honly, hpair⟩ := execCablePresentChange_pulls hthere
    exact ⟨t, hexec, honly, by rw [hpair]; rfl, by rw [hpair]; rfl, by rw [hpair]; rfl, by rw [hpair]; rfl, by rw [hpair]; rfl⟩

end Sys2Proof.Machine
end

/-! # What a snapshot leaves alone

A snapshot brings banks, objects, Fire Lane, forces, loop time, the Town Square and totals, with what a write of each brings about (R316). What stands beside all
that is named once, and each function that takes part leaves it as it is. -/

section
namespace Sys2Proof.Machine
open Sys2Proof

/-- MRAM beside what a snapshot brings. -/
def Mram.unbrought (m : Mram) : Mram :=
  { m with
    runBank := default, runStop := default, obj := default, canEnable := default, coeffs := default, banks := default, bankVoid := default
    forces := default, cycle := default, fire := default, fireVoid := default, totals := default, voidCopies := default, seqs := default }

/-- The state beside what a snapshot brings. -/
def State.unbrought (s : State) : State :=
  { s with
    diGroups := default, mram := s.mram.unbrought, sup := default, islands := default, domains := default, square := default, timers := default
    counters := default, round := default, loop := default, ucs := default, dis := default, dos := default, cans := default, fire := default
    pair := default, totals := default, locks := default, upsets := default, arrays := default, raised := default, crossings := default
    nextSend := default, panel := default, plate := default, ring := default }

@[simp] theorem Mram.unbrought_mk {m : Mram} {runBank runStop obj canEnable coeffs banks bankVoid forces cycle fire fireVoid totals voidCopies seqs} :
    Mram.unbrought { m with
      runBank := runBank, runStop := runStop, obj := obj, canEnable := canEnable, coeffs := coeffs, banks := banks, bankVoid := bankVoid
      forces := forces, cycle := cycle, fire := fire, fireVoid := fireVoid, totals := totals, voidCopies := voidCopies, seqs := seqs } = m.unbrought := rfl

@[simp] theorem State.unbrought_mk {s : State} {diGroups mram sup islands domains square timers counters round loop ucs dis dos cans fire pair totals locks upsets
    arrays raised crossings nextSend panel plate ring} (h : Mram.unbrought mram = s.mram.unbrought) :
    State.unbrought { s with
      diGroups := diGroups, mram := mram, sup := sup, islands := islands, domains := domains, square := square, timers := timers, counters := counters
      round := round, loop := loop, ucs := ucs, dis := dis, dos := dos, cans := cans, fire := fire, pair := pair, totals := totals, locks := locks
      upsets := upsets, arrays := arrays, raised := raised, crossings := crossings, nextSend := nextSend, panel := panel, plate := plate
      ring := ring } = s.unbrought := by
  simp only [State.unbrought, h]

@[simp] theorem State.each_unbrought {α : Type} {f : State → α → State} (h : ∀ s x, (f s x).unbrought = s.unbrought) (s : State) (l : List α) :
    (s.each l f).unbrought = s.unbrought := State.each_field State.unbrought h s l

@[simp] theorem State.foldl_unbrought {α : Type} {f : State → α → State} (h : ∀ s x, (f s x).unbrought = s.unbrought) (s : State) (l : List α) :
    (l.foldl f s).unbrought = s.unbrought := State.each_unbrought h s l

@[simp] theorem State.ite_unbrought (c : Prop) [Decidable c] (s t : State) :
    (if c then s else t).unbrought = if c then s.unbrought else t.unbrought := by split <;> rfl

@[simp] theorem Mram.wrote_unbrought (m : Mram) (i : Nat) : (m.wrote i).unbrought = m.unbrought := by simp [Mram.wrote, Mram.nextSeq]

/-! ## Records, messages and arrays -/

@[simp] theorem State.noteWrite_unbrought (s : State) (a lo n : Nat) : (s.noteWrite a lo n).unbrought = s.unbrought := by simp [State.noteWrite]
@[simp] theorem State.fireSourceAt_unbrought (s : State) (n : Nat) (t : Nat) : (s.fireSourceAt n t).unbrought = s.unbrought := by simp [State.fireSourceAt]
@[simp] theorem State.fireSource_unbrought (s : State) (n : Nat) : (s.fireSource n).unbrought = s.unbrought := by simp [State.fireSource]
@[simp] theorem State.setCrossing_unbrought (s : State) (i : Nat) (x : Crossing) : (s.setCrossing i x).unbrought = s.unbrought := by simp [State.setCrossing]
@[simp] theorem State.modCrossing_unbrought (s : State) (i : Nat) (f : Crossing → Crossing) : (s.modCrossing i f).unbrought = s.unbrought := by
  simp [State.modCrossing]
@[simp] theorem State.postMessage_unbrought (s : State) (sender receiver cls : Nat) (cargo : Cargo) :
    (s.postMessage sender receiver cls cargo).unbrought = s.unbrought := by
  simp [State.postMessage]
@[simp] theorem State.recordArrives_unbrought (s : State) (q : Raised) : (s.recordArrives q).unbrought = s.unbrought := by simp [State.recordArrives]
@[simp] theorem State.handRecord_unbrought (s : State) (q : Raised) : (s.handRecord q).unbrought = s.unbrought := by simp [State.handRecord]
@[simp] theorem State.raiseFull_unbrought (s : State) (src : Nat) (k : RecKind) (value : Word) (time : Option Nat) (cycle : Option (BitVec 32)) :
    (s.raiseFull src k value time cycle).unbrought = s.unbrought := by
  simp [State.raiseFull]
@[simp] theorem State.raiseFrom_unbrought (s : State) (src : Nat) (k : RecKind) (value : Word) : (s.raiseFrom src k value).unbrought = s.unbrought := by
  simp [State.raiseFrom]
@[simp] theorem State.raise_unbrought (s : State) (k : RecKind) (value : Word) : (s.raise k value).unbrought = s.unbrought := by simp [State.raise]
@[simp] theorem State.setArr_unbrought (s : State) (i : Nat) (x : Arr) : (s.setArr i x).unbrought = s.unbrought := by simp [State.setArr]
@[simp] theorem State.correction_unbrought (s : State) (a : Nat) : (s.correction a).unbrought = s.unbrought := by simp [State.correction]
@[simp] theorem State.corrections_unbrought (s : State) (a n : Nat) : (s.corrections a n).unbrought = s.unbrought := by simp [State.corrections]
@[simp] theorem State.dropUpsets_unbrought (s : State) (l : List Upset) : (s.dropUpsets l).unbrought = s.unbrought := by simp [State.dropUpsets]
@[simp] theorem State.overwrite_unbrought (s : State) (a lo n : Nat) : (s.overwrite a lo n).unbrought = s.unbrought := by simp [State.overwrite]
@[simp] theorem State.startRepair_unbrought (s : State) (a b : Nat) : (s.startRepair a b).unbrought = s.unbrought := by simp [State.startRepair]
@[simp] theorem State.writeSpan_unbrought (s : State) (a lo n : Nat) : (s.writeSpan a lo n).unbrought = s.unbrought := by simp [State.writeSpan]
@[simp] theorem State.putConsts_unbrought (s : State) (b : Nat) (l : List Word) : (s.putConsts b l).unbrought = s.unbrought := by
  simp [State.putConsts]
@[simp] theorem State.setBank_unbrought (s : State) (i : Nat) (x : Bank) : (s.setBank i x).unbrought = s.unbrought := State.unbrought_mk rfl
@[simp] theorem State.writeItem_unbrought (s : State) (i : MramItem) : (s.writeItem i).unbrought = s.unbrought := by simp [State.writeItem]
@[simp] theorem State.modBank_unbrought (s : State) (i : Nat) (f : Bank → Bank) : (s.modBank i f).unbrought = s.unbrought := by
  simp [State.modBank]
@[simp] theorem State.setDo_unbrought (s : State) (i : Nat) (x : Do) : (s.setDo i x).unbrought = s.unbrought := by simp [State.setDo]
@[simp] theorem State.modDo_unbrought (s : State) (i : Nat) (f : Do → Do) : (s.modDo i f).unbrought = s.unbrought := by
  simp [State.modDo]
@[simp] theorem State.raiseDo_unbrought (s : State) (r : RecKind) (kind n : Nat) : (s.raiseDo r kind n).unbrought = s.unbrought := by
  simp [State.raiseDo]
@[simp] theorem State.clearOpenLoad_unbrought (s : State) (n : Nat) : (s.clearOpenLoad n).unbrought = s.unbrought := by
  simp [State.clearOpenLoad]
@[simp] theorem State.disarm_unbrought (s : State) : (s.disarm).unbrought = s.unbrought := by simp [State.disarm]
@[simp] theorem State.setGroup_unbrought (s : State) (i : Nat) (x : Group) : (s.setGroup i x).unbrought = s.unbrought := by
  simp [State.setGroup]
@[simp] theorem State.modGroup_unbrought (s : State) (i : Nat) (f : Group → Group) : (s.modGroup i f).unbrought = s.unbrought := by
  simp [State.modGroup]
@[simp] theorem State.setSlot_unbrought (s : State) (i : Nat) (x : Slot) : (s.setSlot i x).unbrought = s.unbrought := by simp [State.setSlot]
@[simp] theorem State.notify_unbrought (s : State) (n : Nat) (x : Source) (k : Nat) : (s.notify n x k).unbrought = s.unbrought := by
  simp [State.notify]
@[simp] theorem State.setSource_unbrought (s : State) (i : Nat) (x : Source) : (s.setSource i x).unbrought = s.unbrought := by simp [State.setSource]
@[simp] theorem State.modSource_unbrought (s : State) (i : Nat) (f : Source → Source) : (s.modSource i f).unbrought = s.unbrought := by simp [State.modSource]
@[simp] theorem State.takeBlock_unbrought (s : State) (n : Nat) (w : Word) : (s.takeBlock n w).unbrought = s.unbrought := by
  unfold State.takeBlock
  dsimp only
  (repeat' split) <;> simp
@[simp] theorem State.take_unbrought (s : State) (n : Nat) : (s.take n).unbrought = s.unbrought := by simp [State.take]
@[simp] theorem State.deliver_unbrought (s : State) (g : Nat) : (s.deliver g).unbrought = s.unbrought := by
  simp [State.deliver]
@[simp] theorem State.landGroup_unbrought (s : State) (g : Nat) : (s.landGroup g).unbrought = s.unbrought := by simp [State.landGroup]
@[simp] theorem State.countFiring_unbrought (s : State) (n t : Nat) : (s.countFiring n t).unbrought = s.unbrought := by
  unfold State.countFiring
  dsimp only
  (repeat' split) <;> simp
@[simp] theorem State.landSource_unbrought (s : State) (n : Nat) (old new : Word) : (s.landSource n old new).unbrought = s.unbrought := by
  unfold State.landSource
  dsimp only
  (repeat' split) <;> simp
@[simp] theorem State.toFire_unbrought (s : State) (m : FireMsg) : (s.toFire m).unbrought = s.unbrought := by simp [State.toFire]
@[simp] theorem State.diToFire_unbrought (s : State) (n : Nat) : (s.diToFire n).unbrought = s.unbrought := by
  unfold State.diToFire
  dsimp only
  (repeat' split) <;> simp
@[simp] theorem State.setDi_unbrought (s : State) (i : Nat) (x : Di) : (s.setDi i x).unbrought = s.unbrought := by
  simp [State.setDi]
@[simp] theorem State.modDi_unbrought (s : State) (i : Nat) (f : Di → Di) : (s.modDi i f).unbrought = s.unbrought := by
  simp [State.modDi]
@[simp] theorem State.clearWireBreak_unbrought (s : State) (n : Nat) : (s.clearWireBreak n).unbrought = s.unbrought := by
  simp [State.clearWireBreak]
@[simp] theorem State.landWire_unbrought (s : State) (n : Nat) (new : Word) : (s.landWire n new).unbrought = s.unbrought := by
  unfold State.landWire
  (repeat' split) <;> simp
@[simp] theorem State.setCan_unbrought (s : State) (i : Nat) (x : Can) : (s.setCan i x).unbrought = s.unbrought := by
  simp [State.setCan]
@[simp] theorem State.modCan_unbrought (s : State) (i : Nat) (f : Can → Can) : (s.modCan i f).unbrought = s.unbrought := by
  simp [State.modCan]
@[simp] theorem State.raiseCan_unbrought (s : State) (p : Nat) (k : RecKind) (v : Word) : (s.raiseCan p k v).unbrought = s.unbrought := by
  simp [State.raiseCan]
@[simp] theorem State.abandonFrame_unbrought (s : State) (p reason slot : Nat) : (s.abandonFrame p reason slot).unbrought = s.unbrought := by
  simp [State.abandonFrame]
@[simp] theorem State.dropQueue_unbrought (s : State) (p : Nat) (keepHead : Bool) : (s.dropQueue p keepHead).unbrought = s.unbrought := by
  unfold State.dropQueue
  dsimp only
  (repeat' split) <;> simp
@[simp] theorem State.giveUp_unbrought (s : State) (p reason : Nat) (j : TxJob) : (s.giveUp p reason j).unbrought = s.unbrought := by
  unfold State.giveUp
  (repeat' split) <;> simp
@[simp] theorem State.setStation_unbrought (s : State) (p x : Nat) (y : Station) : (s.setStation p x y).unbrought = s.unbrought := by
  simp [State.setStation]
@[simp] theorem State.modStation_unbrought (s : State) (p x : Nat) (f : Station → Station) :
    (s.modStation p x f).unbrought = s.unbrought := by
  simp [State.modStation]
@[simp] theorem State.missDue_unbrought (s : State) (p : Nat) : (s.missDue p).unbrought = s.unbrought := by simp [State.missDue]
@[simp] theorem State.stopSchedule_unbrought (s : State) (p reason : Nat) : (s.stopSchedule p reason).unbrought = s.unbrought := by
  simp [State.stopSchedule]
@[simp] theorem State.canShutDown_unbrought (s : State) (p : Nat) : (s.canShutDown p).unbrought = s.unbrought := by
  unfold State.canShutDown
  dsimp only
  (repeat' split) <;> simp
@[simp] theorem State.canStart_unbrought (s : State) (p : Nat) : (s.canStart p).unbrought = s.unbrought := by
  simp [State.canStart]
@[simp] theorem State.freePlace_unbrought (s : State) (origin : BitVec 16) : (s.freePlace origin).unbrought = s.unbrought := by
  simp [State.freePlace]
@[simp] theorem State.owe_unbrought (s : State) (c : Ctx) (st : Status) (cycle : BitVec 32) (body : List Byte) (counts : Bool) :
    (s.owe c st cycle body counts).unbrought = s.unbrought := by
  simp [State.owe]
@[simp] theorem State.reply_unbrought (s : State) (c : Ctx) (st : Status) (body : List Byte) :
    (s.reply c st body).unbrought = s.unbrought := by
  simp [State.reply]
@[simp] theorem State.ok_unbrought (s : State) (c : Ctx) : (s.ok c).unbrought = s.unbrought := by simp [State.ok]
@[simp] theorem State.putCanEnable_unbrought (s : State) (p : Nat) (b : Bool) : (s.putCanEnable p b).unbrought = s.unbrought := by
  simp [State.putCanEnable]
@[simp] theorem State.setDomain_unbrought (s : State) (i : Nat) (x : Domain) : (s.setDomain i x).unbrought = s.unbrought := by
  simp [State.setDomain]
@[simp] theorem State.modDomain_unbrought (s : State) (i : Nat) (f : Domain → Domain) : (s.modDomain i f).unbrought = s.unbrought := by
  simp [State.modDomain]
@[simp] theorem State.modArr_unbrought (s : State) (i : Nat) (f : Arr → Arr) : (s.modArr i f).unbrought = s.unbrought := by simp [State.modArr]
@[simp] theorem State.refuse_unbrought (s : State) (c : Ctx) (st : Status) : (s.refuse c st).unbrought = s.unbrought := by
  simp [State.refuse]
@[simp] theorem State.loseArrays_unbrought (s : State) (d : Nat) : (s.loseArrays d).unbrought = s.unbrought := by
  unfold State.loseArrays
  dsimp only
  (repeat' split) <;> simp
@[simp] theorem State.setIsland_unbrought (s : State) (i : Nat) (x : Island) : (s.setIsland i x).unbrought = s.unbrought := by
  simp [State.setIsland]
@[simp] theorem State.modIsland_unbrought (s : State) (i : Nat) (f : Island → Island) : (s.modIsland i f).unbrought = s.unbrought := by
  simp [State.modIsland]
@[simp] theorem State.setIslands_unbrought (s : State) (d : Nat) (x : IslandState) : (s.setIslands d x).unbrought = s.unbrought := by
  simp [State.setIslands]
@[simp] theorem State.powerOff_unbrought (s : State) (d : Nat) : (s.powerOff d).unbrought = s.unbrought := by simp [State.powerOff]
@[simp] theorem State.judgeDomain_unbrought (s : State) (d : Nat) : (s.judgeDomain d).unbrought = s.unbrought := by
  unfold State.judgeDomain
  dsimp only
  (repeat' split) <;> simp
@[simp] theorem State.judgeDomains_unbrought (s : State) : (s.judgeDomains).unbrought = s.unbrought := by simp [State.judgeDomains]
@[simp] theorem State.canEnable_unbrought (s : State) (p : Nat) (on : Bool) : (s.canEnable p on).1.unbrought = s.unbrought := by
  unfold State.canEnable
  dsimp only
  (repeat' split) <;> simp
@[simp] theorem State.enterTime_unbrought (s : State) (x : TimeState) : (s.enterTime x).unbrought = s.unbrought := by
  unfold State.enterTime
  dsimp only
  (repeat' split) <;> simp
@[simp] theorem State.ptpWritten_unbrought (s : State) (old new : Word) : (s.ptpWritten old new).unbrought = s.unbrought := by
  simp [State.ptpWritten]
@[simp] theorem State.restartFilter_unbrought (s : State) (n : Nat) (old new : Word) :
    (s.restartFilter n old new).unbrought = s.unbrought := by
  unfold State.restartFilter
  (repeat' split) <;> simp
@[simp] theorem State.loseArrived_unbrought (s : State) (p x : Nat) : (s.loseArrived p x).unbrought = s.unbrought := by
  simp [State.loseArrived]
@[simp] theorem State.stationStart_unbrought (s : State) (p x : Nat) : (s.stationStart p x).unbrought = s.unbrought := by
  unfold State.stationStart
  dsimp only
  (repeat' split) <;> simp
@[simp] theorem State.afterWrite_unbrought (s : State) (i k : Nat) (old new : Word) :
    (s.afterWrite i k old new).unbrought = s.unbrought := by
  unfold State.afterWrite
  dsimp only
  (repeat' split) <;> simp
@[simp] theorem State.setUc_unbrought (s : State) (i : Nat) (x : Uc) : (s.setUc i x).unbrought = s.unbrought := by simp [State.setUc]
@[simp] theorem State.modUc_unbrought (s : State) (i : Nat) (f : Uc → Uc) : (s.modUc i f).unbrought = s.unbrought := by
  simp [State.modUc]
@[simp] theorem State.dropHart_unbrought (s : State) (n : Nat) : (s.dropHart n).unbrought = s.unbrought := by simp [State.dropHart]
@[simp] theorem State.ucUpdate_unbrought (s : State) (n : Nat) (x : Uc) : (s.ucUpdate n x).unbrought = s.unbrought := by
  unfold State.ucUpdate
  dsimp only
  (repeat' split) <;> simp
@[simp] theorem State.ucShutDown_unbrought (s : State) (n : Nat) (mode : Nat) : (s.ucShutDown n mode).unbrought = s.unbrought := by
  simp [State.ucShutDown]
@[simp] theorem State.ucLandMode_unbrought (s : State) (n : Nat) (old new : Word) : (s.ucLandMode n old new).unbrought = s.unbrought := by
  unfold State.ucLandMode
  dsimp only
  (repeat' split) <;> simp
@[simp] theorem State.keepUnits_unbrought (s : State) : (s.keepUnits).unbrought = s.unbrought := by simp [State.keepUnits]
@[simp] theorem State.writeFire_unbrought (s : State) (l : List Word) : (s.writeFire l).unbrought = s.unbrought := State.unbrought_mk rfl
@[simp] theorem State.holdFire_unbrought (s : State) (l : List Word) : (s.holdFire l).unbrought = s.unbrought := by simp [State.holdFire]
@[simp] theorem State.doRefresh_unbrought (s : State) (n : Nat) : (s.doRefresh n).unbrought = s.unbrought := by simp [State.doRefresh]
@[simp] theorem State.returnDo_unbrought (s : State) (n : Nat) : (s.returnDo n).unbrought = s.unbrought := by
  unfold State.returnDo
  (repeat' split) <;> simp
@[simp] theorem State.setLoopCtx_unbrought (s : State) (i : Nat) (x : Loop) : (s.setLoopCtx i x).unbrought = s.unbrought := by
  simp [State.setLoopCtx]
@[simp] theorem State.modLoopCtx_unbrought (s : State) (i : Nat) (f : Loop → Loop) : (s.modLoopCtx i f).unbrought = s.unbrought := by
  simp [State.modLoopCtx]
@[simp] theorem State.ucRefresh_unbrought (s : State) (n : Nat) : (s.ucRefresh n).unbrought = s.unbrought := by
  simp [State.ucRefresh]
@[simp] theorem State.returnUc_unbrought (s : State) (n : Nat) : (s.returnUc n).unbrought = s.unbrought := by
  unfold State.returnUc
  dsimp only
  (repeat' split) <;> simp
@[simp] theorem State.cutOutputs_unbrought (s : State) : (s.cutOutputs).unbrought = s.unbrought := by
  unfold State.cutOutputs
  refine State.each_unbrought (fun s x => ?_) _ _
  (repeat' split) <;> simp
@[simp] theorem State.judgeCut_unbrought (s : State) (f : Nat) : (s.judgeCut f).unbrought = s.unbrought := by simp [State.judgeCut]
@[simp] theorem State.judgeCuts_unbrought (s : State) : (s.judgeCuts).unbrought = s.unbrought := by simp [State.judgeCuts]
@[simp] theorem State.setFireOut_unbrought (s : State) (i : Nat) (x : FireOut) : (s.setFireOut i x).unbrought = s.unbrought := by
  simp [State.setFireOut]
@[simp] theorem State.modFireOut_unbrought (s : State) (i : Nat) (f : FireOut → FireOut) : (s.modFireOut i f).unbrought = s.unbrought := by
  simp [State.modFireOut]
@[simp] theorem State.setRingPort_unbrought (s : State) (i : Nat) (x : RingPort) : (s.setRingPort i x).unbrought = s.unbrought := by
  simp [State.setRingPort]
@[simp] theorem State.modRingPort_unbrought (s : State) (i : Nat) (f : RingPort → RingPort) :
    (s.modRingPort i f).unbrought = s.unbrought := by
  simp [State.modRingPort]
@[simp] theorem State.portTx_unbrought (s : State) (p : Nat) (f : HsrFrame) : (s.portTx p f).unbrought = s.unbrought := by
  simp [State.portTx]
@[simp] theorem State.sendRing_unbrought (s : State) (dest : BitVec 48) (etherType : BitVec 16) (payload : List Byte) :
    (s.sendRing dest etherType payload).unbrought = s.unbrought := by
  simp [State.sendRing]
@[simp] theorem State.sendStation_unbrought (s : State) (body : StationBody) : (s.sendStation body).unbrought = s.unbrought := by
  simp [State.sendStation]
@[simp] theorem State.sendFrame_unbrought (s : State) (o : Nat) : (s.sendFrame o).unbrought = s.unbrought := by
  unfold State.sendFrame
  dsimp only
  (repeat' split) <;> simp
@[simp] theorem State.moveOut_unbrought (s : State) (o : Nat) : (s.moveOut o).unbrought = s.unbrought := by
  unfold State.moveOut
  dsimp only
  (repeat' split) <;> simp
@[simp] theorem State.retakeOutputs_unbrought (s : State) (was : List (Nat × Nat)) : (s.retakeOutputs was).unbrought = s.unbrought := by
  simp [State.retakeOutputs]
@[simp] theorem State.tellFire_unbrought (s : State) : (s.tellFire).unbrought = s.unbrought := by simp [State.tellFire]
@[simp] theorem State.takeFire_unbrought (s : State) (l : List Word) : (s.takeFire l).unbrought = s.unbrought := by simp [State.takeFire]
@[simp] theorem State.bringFire_unbrought (s : State) (l : List Word) : (s.bringFire l).unbrought = s.unbrought := by simp [State.bringFire]
@[simp] theorem State.setTotal_unbrought (s : State) (i : Nat) (x : Total) : (s.setTotal i x).unbrought = s.unbrought := by
  simp [State.setTotal]
@[simp] theorem State.modTotal_unbrought (s : State) (i : Nat) (f : Total → Total) : (s.modTotal i f).unbrought = s.unbrought := by
  simp [State.modTotal]
@[simp] theorem State.raiseTotal_unbrought (s : State) (k : RecKind) (v : Word) (c : BitVec 32) : (s.raiseTotal k v c).unbrought = s.unbrought := by
  simp [State.raiseTotal]
@[simp] theorem State.storeCopy_unbrought (s : State) (t at_ : Nat) (c : BitVec 32) :
    (s.storeCopy t at_ c).unbrought = s.unbrought := by
  unfold State.storeCopy
  dsimp only
  split
  · exact (State.raiseTotal_unbrought _ _ _ _).trans (State.unbrought_mk rfl)
  · exact State.unbrought_mk rfl
@[simp] theorem State.rebaseTotal_unbrought (s : State) (t : Nat) (c : BitVec 32) (same : Bool) :
    (s.rebaseTotal t c same).unbrought = s.unbrought := by
  simp [State.rebaseTotal]
@[simp] theorem State.setDiGroup_unbrought (s : State) (i : Nat) (x : DGroup) : (s.setDiGroup i x).unbrought = s.unbrought := by
  simp [State.setDiGroup]
@[simp] theorem State.modDiGroup_unbrought (s : State) (i : Nat) (f : DGroup → DGroup) :
    (s.modDiGroup i f).unbrought = s.unbrought := by
  simp [State.modDiGroup]
@[simp] theorem State.resetMarks_unbrought (s : State) (g : Nat) : (s.resetMarks g).unbrought = s.unbrought := by
  simp [State.resetMarks]
@[simp] theorem State.takeMarks_unbrought (s : State) (f : Nat) :
    (s.takeMarks f).unbrought = s.unbrought := by
  unfold State.takeMarks
  dsimp only
  rw [State.each_unbrought]
  · simp
  · intro s t
    split <;> simp
@[simp] theorem State.keepBoth_unbrought (s : State) (t : Nat) : (s.keepBoth t).unbrought = s.unbrought := by simp [State.keepBoth]
@[simp] theorem State.ownBase_unbrought (s : State) (c : BitVec 32) (t : Nat) : (s.ownBase c t).unbrought = s.unbrought := by simp [State.ownBase]
@[simp] theorem State.adoptTotals_unbrought (s : State) (c : BitVec 32) (f : Nat) (l : List SnapTotal) :
    (s.adoptTotals c f l).unbrought = s.unbrought := by
  simp [State.adoptTotals]

/-! ## The parts of a snapshot -/

theorem Mram.foldl_wrote_unbrought (l : List Nat) (m : Mram) : (l.foldl Mram.wrote m).unbrought = m.unbrought := by
  induction l generalizing m with
  | nil => rfl
  | cons i l ih => exact (ih (m.wrote i)).trans (Mram.wrote_unbrought m i)

@[simp] theorem State.takeBanks_unbrought (s : State) (l : List (Nat × List (Nat × Word))) : (s.takeBanks l).unbrought = s.unbrought := by
  unfold State.takeBanks
  have hvoid : ∀ (t : State) (v : Tab Bool), State.unbrought { t with mram := { t.mram with bankVoid := v } } = t.unbrought :=
    fun _ _ => State.unbrought_mk rfl
  refine State.each_unbrought (fun s e => ?_) s l
  by_cases he : 1 < e.1
  · rw [if_pos he]
  · rw [if_neg he]
    exact (State.putConsts_unbrought _ _ _).trans ((hvoid _ _).trans (by simp))

@[simp] theorem State.takeRunning_unbrought (s : State) (runBank run : Bool) : (s.takeRunning runBank run).unbrought = s.unbrought := by
  unfold State.takeRunning
  have hrun : ∀ (t : State) (b r : Bool) (q : Square),
      State.unbrought { t with mram := { t.mram with runBank := b, runStop := r }, square := q } = t.unbrought :=
    fun _ _ _ _ => State.unbrought_mk rfl
  refine (hrun _ _ _ _).trans (State.each_unbrought (fun s i => ?_) s _)
  split <;> simp

@[simp] theorem State.takeObjects_unbrought (s : State) (l : List (Nat × Word)) : (s.takeObjects l).unbrought = s.unbrought := by
  unfold State.takeObjects
  dsimp only
  rw [State.each_unbrought, State.each_unbrought]
  · exact State.unbrought_mk (Mram.unbrought_mk.trans (Mram.foldl_wrote_unbrought _ _))
  · intro s k
    (repeat' split) <;> simp
  · intro s k
    split <;> simp

@[simp] theorem State.takeSquare_unbrought (s : State) (f : Nat) (l : List (Nat × Byte)) (marks : List Nat) :
    (s.takeSquare f l marks).unbrought = s.unbrought := by
  unfold State.takeSquare
  dsimp only
  refine (State.unbrought_mk rfl).trans ((State.keepUnits_unbrought _).trans ((State.unbrought_mk rfl).trans ?_))
  exact State.each_unbrought (fun s r => State.writeSpan_unbrought s _ _ _) s _

/-! ## The snapshot as a whole -/

/-- State `s` with what a snapshot brings as in `t`. -/
def State.bring (s t : State) : State :=
  { s with
    diGroups := t.diGroups
    mram := { s.mram with
      runBank := t.mram.runBank, runStop := t.mram.runStop, obj := t.mram.obj, canEnable := t.mram.canEnable, coeffs := t.mram.coeffs
      banks := t.mram.banks, bankVoid := t.mram.bankVoid, forces := t.mram.forces, cycle := t.mram.cycle, fire := t.mram.fire
      fireVoid := t.mram.fireVoid, totals := t.mram.totals, voidCopies := t.mram.voidCopies, seqs := t.mram.seqs }
    sup := t.sup, islands := t.islands, domains := t.domains, square := t.square, timers := t.timers, counters := t.counters
    round := t.round, loop := t.loop, ucs := t.ucs, dis := t.dis, dos := t.dos, cans := t.cans, fire := t.fire, pair := t.pair
    totals := t.totals, locks := t.locks, upsets := t.upsets, arrays := t.arrays, raised := t.raised, crossings := t.crossings
    nextSend := t.nextSend, panel := t.panel, plate := t.plate, ring := t.ring }

/-- What is `s` beside what a snapshot brings differs from `s` in what it brings alone. -/
theorem State.eq_bring {s t : State} (h : t.unbrought = s.unbrought) : t = s.bring t :=
  calc t = t.unbrought.bring t := rfl
    _ = s.unbrought.bring t := by rw [h]
    _ = s.bring t := rfl

/-- What the end of a snapshot leaves: the pair, the last cycle and the forces. -/
def State.numbered (s : State) : Pair × BitVec 32 × List Force := (s.pair, s.square.last, s.mram.forces)

theorem State.numbered_of {s t : State} (hp : t.pair = s.pair) (hq : t.square = s.square) (hm : t.mram = s.mram) : t.numbered = s.numbered := by
  rw [State.numbered, hp, hq, hm, State.numbered]

theorem State.each_numbered {α : Type} {f : State → α → State} (h : ∀ s x, (f s x).numbered = s.numbered) (s : State) (l : List α) :
    (s.each l f).numbered = s.numbered := State.each_field State.numbered h s l

theorem State.modTotal_numbered (s : State) (t : Nat) (f : Total → Total) : (s.modTotal t f).numbered = s.numbered := rfl
theorem State.rebaseTotal_numbered (s : State) (t : Nat) (c : BitVec 32) (same : Bool) : (s.rebaseTotal t c same).numbered = s.numbered := rfl

theorem State.raiseTotal_numbered (s : State) (k : RecKind) (v : Word) (c : BitVec 32) : (s.raiseTotal k v c).numbered = s.numbered :=
  State.numbered_of (State.raiseFull_pair _ _ _ _ _ _) (State.raiseFull_square _ _ _ _ _ _) (State.raiseFull_mram _ _ _ _ _ _)

theorem State.storeCopy_numbered (s : State) (t at_ : Nat) (c : BitVec 32) : (s.storeCopy t at_ c).numbered = s.numbered := by
  unfold State.storeCopy
  dsimp only
  split
  · exact (State.raiseTotal_numbered _ _ _ _).trans rfl
  · rfl

theorem State.keepBoth_numbered (s : State) (t : Nat) : (s.keepBoth t).numbered = s.numbered :=
  (State.storeCopy_numbered _ _ _ _).trans (State.storeCopy_numbered _ _ _ _)

theorem State.resetMarks_numbered (s : State) (g : Nat) : (s.resetMarks g).numbered = s.numbered := by
  unfold State.resetMarks
  split
  · rfl
  · refine State.each_numbered (fun s t => ?_) _ _
    split <;> rfl

theorem State.takeMarks_numbered (s : State) (f : Nat) : (s.takeMarks f).numbered = s.numbered := by
  have hmetered : ∀ (t : State) (m : List (Nat × List (Option (Nat × Int)))),
      State.numbered { t with square := { t.square with metered := m } } = t.numbered := fun _ _ => rfl
  unfold State.takeMarks
  refine Eq.trans (State.each_numbered (fun s t => ?_) _ _) (Eq.trans (State.each_numbered (fun s n => ?_) _ _) ?_)
  · split <;> rfl
  · rfl
  · exact (hmetered _ _).trans (State.each_numbered State.resetMarks_numbered s (List.range 6))

theorem State.adoptTotals_numbered (s : State) (c : BitVec 32) (f : Nat) (l : List SnapTotal) : (s.adoptTotals c f l).numbered = s.numbered := by
  unfold State.adoptTotals
  refine Eq.trans (State.each_numbered (fun s e => ?_) _ _) (State.takeMarks_numbered s f)
  exact State.keepBoth_numbered _ _

theorem State.setIslands_numbered (s : State) (d : Nat) (x : IslandState) : (s.setIslands d x).numbered = s.numbered := by
  unfold State.setIslands
  exact State.each_numbered (by intros; rfl) s _

theorem State.loseArrays_numbered (s : State) (d : Nat) : (s.loseArrays d).numbered = s.numbered := by
  have hgone : (s.each (domainArrays d) fun s a => s.modArr a fun x => { x with sealed_ := false, commanded := false }).numbered = s.numbered := by
    exact State.each_numbered (by intros; rfl) s _
  unfold State.loseArrays
  dsimp only
  split
  · exact Eq.trans (State.each_numbered (by intros; rfl) _ _) hgone
  · split
    · exact (State.numbered_of (State.refuse_pair _ _ _) (State.refuse_square _ _ _) (State.refuse_mram _ _ _)).trans hgone
    · exact hgone
  · exact hgone

theorem State.judgeDomain_numbered (s : State) (d : Nat) : (s.judgeDomain d).numbered = s.numbered := by
  unfold State.judgeDomain
  dsimp only
  split
  · split
    · exact State.setIslands_numbered _ _ _
    · rfl
  · split
    · rfl
    · exact (State.loseArrays_numbered _ _).trans (State.setIslands_numbered _ _ _)
  · rfl
  · rfl

theorem State.judgeDomains_numbered (s : State) : s.judgeDomains.numbered = s.numbered := by
  unfold State.judgeDomains
  split
  · rfl
  · exact State.each_numbered State.judgeDomain_numbered s _

/-- What a snapshot brings before its numbering: banks, objects, the Town Square and, where it differs, Fire Lane (R316). -/
def State.takenFrom (s : State) (x : Snapshot) : State :=
  let s := (((s.takeBanks x.banks).takeRunning x.runBank x.run).takeObjects x.objects).takeSquare (s.syncFreeze x.cycle) x.square x.marks
  let fire := x.fireConfig.foldl (fun (t : Tab Word) (e : Nat × Word) => t.set (fireDefault e.1) e.1 e.2) ([] : Tab Word)
  if fire == s.fireSet then s else s.bringFire ((List.range 192).map fun k => fire.get (fireDefault k) k)

theorem State.takenFrom_unbrought (s : State) (x : Snapshot) : (s.takenFrom x).unbrought = s.unbrought := by
  unfold State.takenFrom
  dsimp only
  split <;> simp

/-- The forces, the numbering and the loop time of a snapshot. -/
def State.numberedBy (s : State) (x : Snapshot) : State :=
  { s with
    mram := { s.mram.wrote 0x104 with forces := x.forces, cycle := x.cycle }
    square := { s.square with last := x.cycle, current := nextCycle x.cycle, phase := .idle, committedOnce := true
                              landings := [], totIncr := [], forcesChanged := false }
    loop := { s.loop with tick := x.tick }
    pair := { s.pair with snapshot := true, base := x.cycle, adopted := true, received := [], ledgers := [], tokens := [], switchSeen := x.cycle } }

theorem State.numberedBy_unbrought (s : State) (x : Snapshot) : (s.numberedBy x).unbrought = s.unbrought :=
  State.unbrought_mk (Mram.unbrought_mk.trans (Mram.wrote_unbrought _ _))

/-- The loop samples of a snapshot; the tokens that were noted for it are gone. -/
def State.loopSamples (s : State) (x : Snapshot) : State :=
  let s := s.each x.samples fun s (e : Nat × BitVec 32) => s.modLoopCtx e.1 fun q => { q with sample := e.2 }
  { s with pair := { s.pair with syncTokens := [] } }

theorem State.loopSamples_unbrought (s : State) (x : Snapshot) : (s.loopSamples x).unbrought = s.unbrought :=
  (State.unbrought_mk rfl).trans (State.each_unbrought (fun s _ => State.modLoopCtx_unbrought s _ _) s _)

theorem State.loopSamples_numbered (s : State) (x : Snapshot) :
    (s.loopSamples x).numbered = ({ s.pair with syncTokens := [] }, s.square.last, s.mram.forces) := by
  have h := State.each_numbered (f := fun s (e : Nat × BitVec 32) => s.modLoopCtx e.1 fun q => { q with sample := e.2 }) (fun _ _ => rfl) s x.samples
  exact congrArg (fun (n : Pair × BitVec 32 × List Force) => (({ n.1 with syncTokens := [] } : Pair), n.2)) h

/-- The state after a snapshot. -/
def State.resynced (s : State) (x : Snapshot) : State :=
  (((((s.takenFrom x).numberedBy x).loopSamples x).adoptTotals x.cycle (s.syncFreeze x.cycle) x.totals)).judgeDomains

theorem execResyncSnapshotReceived_next {s : State} {x : Snapshot} (hs : s.pair.state = .syncing) (hn : s.pair.snapshot = false)
    (hf : x.fwMajor = 4) (hc : s.causewayLost = false) : execResyncSnapshotReceived x s = .next (s.resynced x) :=
  if_neg (by simp [hs, hn, hf, hc])

theorem State.resynced_unbrought (s : State) (x : Snapshot) : (s.resynced x).unbrought = s.unbrought :=
  calc (s.resynced x).unbrought
    _ = (((s.takenFrom x).numberedBy x).loopSamples x).unbrought := (State.judgeDomains_unbrought _).trans (State.adoptTotals_unbrought _ _ _ _)
    _ = ((s.takenFrom x).numberedBy x).unbrought := State.loopSamples_unbrought _ x
    _ = (s.takenFrom x).unbrought := State.numberedBy_unbrought _ x
    _ = s.unbrought := State.takenFrom_unbrought s x

theorem State.resynced_numbered (s : State) (x : Snapshot) :
    (s.resynced x).pair.snapshot = true ∧ (s.resynced x).square.last = x.cycle ∧ (s.resynced x).mram.forces = x.forces := by
  have h : (s.resynced x).numbered = ({ ((s.takenFrom x).numberedBy x).pair with syncTokens := [] }, x.cycle, x.forces) :=
    ((State.judgeDomains_numbered _).trans (State.adoptTotals_numbered _ _ _ _)).trans (State.loopSamples_numbered _ x)
  exact ⟨congrArg (fun n => Pair.snapshot (Prod.fst n)) h, congrArg (fun n => Prod.fst (Prod.snd n)) h, congrArg (fun n => Prod.snd (Prod.snd n)) h⟩

end Sys2Proof.Machine
end

/-! # Sync, discovery and rehearsal of a pair

What a standby takes from its active, how a pair finds its roles, and how a rehearsal goes (R298 to R305, R311 to R316, R332). -/

section
namespace Sys2Proof.Machine
open Sys2Proof

/-! ## Ledgers (R98, R301, R304) -/

/-- `t` differs from `s` in what a ledger brings before the next freeze at most. -/
def State.onlyLedger (s t : State) : Prop :=
  t = { s with mram := { s.mram with forces := t.mram.forces, voidCopies := t.mram.voidCopies, seqs := t.mram.seqs }
               square := t.square, round := t.round, pair := t.pair, crossings := t.crossings, nextSend := t.nextSend }

theorem State.onlyLedger.trans {s t u : State} (h : s.onlyLedger t) (j : t.onlyLedger u) : s.onlyLedger u := by
  unfold State.onlyLedger at *
  rw [j, h]

theorem State.onlyLedger_pair (s : State) (x : Pair) : s.onlyLedger { s with pair := x } := rfl

theorem State.onlyLedger_of_staysIn {s t : State} (h : s.staysIn { fires := true, posts := true } t) : s.onlyLedger t := by
  unfold State.onlyLedger
  rw [h]
  rfl

theorem State.onlyLedger_of_writes {s t : State} (h : s.writes t) : s.onlyLedger t := by
  unfold State.onlyLedger
  rw [h.frame]

theorem State.writes.pair {s t : State} (h : s.writes t) : t.pair = s.pair := by rw [h.frame]

theorem State.putBoth_writes (s : State) (a : Area) (w : Nat) (x : Word) (b : Bool) : s.writes (s.putBoth a w x b) := by
  unfold State.putBoth
  dsimp only
  split
  · exact (s.putWork_writes a w x b).trans ⟨rfl, SquareLaws.put _ _ _⟩
  · exact s.putWork_writes a w x b

theorem State.forceCopies_writes (s : State) : s.writes s.forceCopies := State.each_writes (fun t _ => t.putBoth_writes _ _ _ _) s _

theorem State.forceFrozen_writes (s : State) : s.writes s.forceFrozen := State.each_writes (fun t _ => t.putWork_writes _ _ _ _) s _

/-- The force table is that of a ledger. -/
def State.forcedBy (s : State) (l : List Force) : State := { s with mram := { s.mram.wrote 0x104 with forces := l } }

theorem State.forcedBy_onlyLedger (s : State) (l : List Force) : s.onlyLedger (s.forcedBy l) := rfl

theorem State.hearForces_reaches (s : State) (l : Ledger) : s.hearForces l = s ∨ ∃ fs, (s.forcedBy fs).writes (s.hearForces l) := by
  cases hfs : s.ledgerForces l with
  | none => exact .inl (by simp [State.hearForces, hfs])
  | some fs =>
    have hheard : s.hearForces l = if (s.square.last - l.cycle).msb then s
        else if (s.forcedBy fs).forceCopies.square.phase == .execute then (s.forcedBy fs).forceCopies.forceFrozen else (s.forcedBy fs).forceCopies := by
      unfold State.hearForces
      rw [hfs]
      rfl
    rw [hheard]
    split
    · exact .inl rfl
    · refine .inr ⟨fs, ?_⟩
      split
      · exact (s.forcedBy fs).forceCopies_writes.trans (State.forceFrozen_writes _)
      · exact (s.forcedBy fs).forceCopies_writes

theorem State.hearForces_onlyLedger (s : State) (l : Ledger) : s.onlyLedger (s.hearForces l) := by
  obtain h | ⟨fs, h⟩ := s.hearForces_reaches l
  · rw [h]
    exact rfl
  · exact (s.forcedBy_onlyLedger fs).trans (State.onlyLedger_of_writes h)

@[simp] theorem State.hearForces_pair (s : State) (l : Ledger) : (s.hearForces l).pair = s.pair := by
  obtain h | ⟨fs, h⟩ := s.hearForces_reaches l
  · rw [h]
  · exact h.pair

/-- A divergence is counted. -/
def State.diverged (s : State) (l : Ledger) : State :=
  { s with pair := { s.pair with
    divRun := satInc s.pair.divRun, divFirst := if s.pair.divRun = 0 then l.cycle else s.pair.divFirst, matched := 0
    divergences := s.pair.divergences + 1, lastDivergent := l.cycle } }

theorem State.compareFingerprint_differs {s : State} {l : Ledger} {e : BitVec 32 × Word}
    (hfound : (s.pair.fingerprints.find? fun e => e.1 == l.cycle) = some e) (hdiff : ¬(e.2 == l.fingerprint) = true) : s.compareFingerprint l =
      if (satInc s.pair.divRun).toNat == s.divAlarm && s.pair.divRun != satInc s.pair.divRun then
        ((s.diverged l).fireSource 402).raise .pairDivergence (if s.pair.divRun = 0 then l.cycle else s.pair.divFirst)
      else s.diverged l := by
  unfold State.compareFingerprint
  rw [hfound]
  exact if_neg hdiff

theorem State.compareFingerprint_reaches (s : State) (l : Ledger) : s.staysIn { fires := true, posts := true } (s.compareFingerprint l) ∧
    (s.compareFingerprint l).pair.ledgers = s.pair.ledgers ∧ (s.compareFingerprint l).pair.received = s.pair.received := by
  cases hfound : s.pair.fingerprints.find? fun e => e.1 == l.cycle with
  | none =>
    have hsame : s.compareFingerprint l = s := by
      unfold State.compareFingerprint
      rw [hfound]
    rw [hsame]
    exact ⟨s.staysIn_refl, rfl, rfl⟩
  | some e =>
    by_cases hmatch : (e.2 == l.fingerprint) = true
    · have hmatched : s.compareFingerprint l = { s with pair := { s.pair with divRun := 0, matched := s.pair.matched + 1 } } := by
        unfold State.compareFingerprint
        rw [hfound]
        exact if_pos hmatch
      rw [hmatched]
      exact ⟨s.staysIn_pair _, rfl, rfl⟩
    · rw [State.compareFingerprint_differs hfound hmatch]
      split
      · refine ⟨((s.staysIn_pair (s.diverged l).pair).trans (State.fireSource_staysIn rfl (s.diverged l) _)).trans
          (State.raise_staysIn rfl _ (by decide) _), ?_, ?_⟩
        · rw [State.raise_pair]
          rfl
        · rw [State.raise_pair]
          rfl
      · exact ⟨s.staysIn_pair _, rfl, rfl⟩

/-- A ledger is noted as received, and its fingerprint compared. -/
def State.ledgerNoted (s : State) (l : Ledger) : State :=
  State.compareFingerprint { s with pair := { s.pair with received := (l.cycle :: s.pair.received).take 4 } } l

/-- The mirrored items of a ledger wait for the next freeze, and its forces act. -/
def State.ledgerTaken (s : State) (l : Ledger) : State := State.hearForces { s with pair := { s.pair with ledgers := s.pair.ledgers ++ [l] } } l

/-- A handover that a ledger announces. -/
def State.hearHandover (s : State) (h : Option (BitVec 32)) : State :=
  match h with
  | some h => { s with pair := { s.pair with incoming := some h, planned := true, reconciled := false } }
  | none => s

theorem execLedgerReceived_taken {s : State} {l : Ledger} (hs : s.shadows = true) (hn : l.cycle ∉ s.pair.received)
    (hdue : (s.frozenCycle - nextCycle (nextCycle l.cycle)).msb = true) :
    execLedgerReceived l s = .next (((s.ledgerNoted l).ledgerTaken l).hearHandover l.handoverCycle) :=
  if_neg (by simp [hs, hn, hdue])

theorem State.hearHandover_reaches (s : State) (h : Option (BitVec 32)) : s.onlyLedger (s.hearHandover h) ∧
    (s.hearHandover h).pair.ledgers = s.pair.ledgers ∧ (s.hearHandover h).pair.received = s.pair.received := by
  cases h <;> exact ⟨rfl, rfl, rfl⟩

theorem State.ledgerNoted_reaches (s : State) (l : Ledger) : s.onlyLedger (s.ledgerNoted l) ∧
    (s.ledgerNoted l).pair.ledgers = s.pair.ledgers ∧ l.cycle ∈ (s.ledgerNoted l).pair.received := by
  obtain ⟨honly, hledgers, hreceived⟩ := State.compareFingerprint_reaches { s with pair := { s.pair with received := (l.cycle :: s.pair.received).take 4 } } l
  refine ⟨(s.onlyLedger_pair _).trans (State.onlyLedger_of_staysIn honly), hledgers, ?_⟩
  unfold State.ledgerNoted
  rw [hreceived]
  simp

theorem State.ledgerTaken_onlyLedger (s : State) (l : Ledger) : s.onlyLedger (s.ledgerTaken l) := (s.onlyLedger_pair _).trans (State.hearForces_onlyLedger _ l)

@[simp] theorem State.ledgerTaken_pair (s : State) (l : Ledger) : (s.ledgerTaken l).pair = { s.pair with ledgers := s.pair.ledgers ++ [l] } :=
  State.hearForces_pair _ l

theorem execLedgerReceived_brings {s : State} {l : Ledger} (hs : s.shadows = true) (hn : l.cycle ∉ s.pair.received)
    (hdue : (s.frozenCycle - nextCycle (nextCycle l.cycle)).msb = true) : ∃ t, execLedgerReceived l s = .next t ∧ s.onlyLedger t ∧
      t.pair.ledgers = s.pair.ledgers ++ [l] ∧ l.cycle ∈ t.pair.received := by
  obtain ⟨hnoted, hledgers, hreceived⟩ := s.ledgerNoted_reaches l
  obtain ⟨htold, hkept, hseen⟩ := ((s.ledgerNoted l).ledgerTaken l).hearHandover_reaches l.handoverCycle
  refine ⟨_, execLedgerReceived_taken hs hn hdue, (hnoted.trans (State.ledgerTaken_onlyLedger _ l)).trans htold, ?_, ?_⟩
  · rw [hkept, State.ledgerTaken_pair, hledgers]
  · rw [hseen, State.ledgerTaken_pair]
    exact hreceived

/-! ## The loss of sync (R304) -/

theorem State.startSync_pair (s : State) : s.startSync.pair.state = .syncing ∧ s.startSync.pair.snapshot = false := by
  rw [State.startSync_eq, State.enterPair_pair, State.endRehearsal_pair]
  exact ⟨rfl, rfl⟩

theorem State.loseSync_reaches {s : State} (hsync : s.pair.state = .sync) (reason : Nat) :
    s.staysIn { fires := true, posts := true, rehearsal := true, landings := true } (s.loseSync reason) ∧ (s.loseSync reason).pair.state = .syncing ∧
      (s.loseSync reason).pair.snapshot = false := by
  have hlost : s.loseSync reason = (s.raise .syncLost (mkWord [(7, 0, reason)])).startSync := if_pos (by simp [hsync])
  rw [hlost]
  exact ⟨(State.raise_staysIn rfl s (by decide) _).trans (State.startSync_staysIn rfl rfl rfl rfl _), State.startSync_pair _⟩

/-! ## Changes and tokens of the active (R92, R300, R305) -/

section
variable {s : State}

/-- A word for a channel that is starting is noted. -/
def State.changeNoted (s : State) (c : Change) : State :=
  match c with
  | .object i 0 w => if 0x400 ≤ i && i ≤ 0x41F then s.ucNote (i - 0x400) w else s
  | _ => s

theorem State.ucNote_onlyUcs (s : State) (n : Nat) (w : Word) : s.ucNote n w = { s with ucs := (s.ucNote n w).ucs } := by
  unfold State.ucNote
  dsimp only
  split <;> rfl

theorem State.changeNoted_onlyUcs (s : State) (c : Change) : s.changeNoted c = { s with ucs := (s.changeNoted c).ucs } := by
  unfold State.changeNoted
  split
  · split
    · exact s.ucNote_onlyUcs _ _
    · rfl
  · rfl

theorem State.changeNoted_beside {c : Change} (h : ∀ i w, c = .object i 0 w → ¬(0x400 ≤ i ∧ i ≤ 0x41F)) : s.changeNoted c = s := by
  unfold State.changeNoted
  split
  · next i w =>
    have hi := h i w rfl
    exact if_neg (by simpa using hi)
  · rfl

section
variable {c : Change} {b : BitVec 32} (hmode : s.pairMode = true) (hup : s.cableUp = true) (hs : s.shadows = true) (hown : s.ownCycle = false)
include hmode hup hs hown

theorem execForwardedChange_late (hr : ofRehearsal c = false) (ha : onArrival c = false) (hw : s.ucWaits c = false)
    (hlate : (b - s.square.current).msb = true) : execForwardedChange c b s = .next (s.loseSync 2) := by
  simp [execForwardedChange, hmode, hup, hs, hown, hr, ha, hw, hlate]

theorem execForwardedChange_early (hr : ofRehearsal c = false) (ha : onArrival c = false) (hw : s.ucWaits c = false)
    (hahead : (b - s.square.current).msb = false) (hne : b ≠ s.square.current) : execForwardedChange c b s =
      if ofForces c then .next (((s.changeNoted c).acknowledged b).landChange c b)
      else .next { (s.changeNoted c).acknowledged b with
        pair := { ((s.changeNoted c).acknowledged b).pair with waitingChanges := ((s.changeNoted c).acknowledged b).pair.waitingChanges ++ [(c, b)] } } := by
  unfold execForwardedChange
  rw [if_neg (by simp [hmode, hup]), if_neg (by simp [hr]), if_neg (by simp [hs, hown]), if_neg (by simp [ha, hw]), if_neg (by simp [hahead, hne])]
  rfl

end

theorem execCycleStartToken_noted {c : BitVec 32} {i : Nat} (hsyncing : s.pair.state = .syncing) (hn : s.pair.snapshot = false)
    (hc : s.causewayLost = false) : execCycleStartToken c i s = .next (s.syncToken c i) :=
  if_pos (by simp [hsyncing, hn, hc])

theorem execCycleStartToken_added {c : BitVec 32} {i : Nat} (hs : s.shadows = true) (hown : s.ownCycle = false) (hc : s.causewayLost = false) :
    execCycleStartToken c i s = .next { s with pair := { s.pair with tokens := s.addToken c i } } := by
  have hready : ¬(s.pair.state == .syncing && !s.pair.snapshot && !s.causewayLost) = true := by
    intro h
    have hstate : s.shadows = false := by
      simp only [Bool.and_eq_true, beq_iff_eq, Bool.not_eq_true'] at h
      simp [State.shadows, h.1.1, h.1.2]
    simp [hstate] at hs
  exact (if_neg hready).trans (if_pos (by simp [hs, hown, hc]))

end

/-! ## Roles (R299, R316) -/

section
variable {s : State}

/-- A STALE module has taken the role of an active alone. -/
def State.aloneClaimed (s : State) : State := ((s.riseClaim.raiseEpoch).enterPair .alone).canTakeover true

theorem State.claimRole_free (h : s.pair.claimPartner = false) :
    s.claimRole = State.startScans { s.aloneClaimed with pair := { s.aloneClaimed.pair with adopted := true } } :=
  if_neg (by simp [h])

theorem State.claimRole_reaches (h : s.pair.claimPartner = false) :
    s.staysIn { fires := true, posts := true, driven := true, cans := true, epoch := true, writes := true } s.claimRole ∧
      s.claimRole.pair.state = .alone ∧ s.claimRole.mram.epoch = s.mram.epoch + 1 := by
  have hclaimed : s.staysIn { fires := true, posts := true, driven := true, cans := true, epoch := true, writes := true } s.aloneClaimed :=
    (((State.riseClaim_staysIn rfl s).trans (State.setEpoch_staysIn rfl rfl rfl _ _)).trans (State.enterPair_staysIn rfl rfl _ _)).trans
      (State.canTakeover_staysIn rfl _ _)
  have hstate : s.aloneClaimed.pair.state = .alone := by
    unfold State.aloneClaimed
    rw [State.canTakeover_pair, State.enterPair_pair]
  have hrisen : s.riseClaim.mram.epoch = s.mram.epoch := by
    rw [State.riseClaim_staysIn (k := { driven := true }) rfl s]
    rfl
  have hepoch : s.aloneClaimed.mram.epoch = s.mram.epoch + 1 := by
    unfold State.aloneClaimed
    rw [State.canTakeover_epoch, State.enterPair_staysIn (k := { fires := true, posts := true }) rfl rfl s.riseClaim.raiseEpoch .alone]
    exact (State.setEpoch_epoch _ _).trans (by rw [hrisen])
  have hscans := State.startScans_onlyDriven { s.aloneClaimed with pair := { s.aloneClaimed.pair with adopted := true } }
  rw [State.claimRole_free h]
  refine ⟨(hclaimed.trans (State.staysIn_pair _ _)).trans (hscans.staysIn rfl), ?_, ?_⟩
  · rw [hscans.pair]
    exact hstate
  · rw [hscans]
    exact hepoch

theorem execDiscoveryTimeout_claims (hmode : s.pairMode = true) (hstale : s.pair.state = .stale) (hnone : s.pair.partnerHb = none)
    (hend : s.pair.discoveryEnd ≤ s.now) (hlone : s.loneStart = true) (hclaim : s.pair.claimPartner = false) (hworks : s.working = true) :
    execDiscoveryTimeout s = .next (s.claimRole.raise .loneStart s.claimRole.mram.epoch) := by
  refine if_pos ?_
  have hworks' : (s.service != .off && s.service != .halted) = true := hworks
  rw [Bool.and_assoc, hworks']
  simp [hmode, hstale, hnone, hend, hlone, hclaim]

theorem execResyncDone_syncs (hmode : s.pairMode = true) (hsyncing : s.pair.state = .syncing) (hs : s.pair.snapshot = true)
    (happlied : s.settleCycles ≤ s.pair.applied) : ∃ t, execResyncDone s = .next t ∧ s.staysIn { fires := true, posts := true } t ∧ t.pair.state = .sync := by
  refine ⟨_, if_pos (by simp [hmode, hsyncing, hs, happlied]),
    (State.enterPair_staysIn rfl rfl s .sync).trans (State.raise_staysIn rfl _ (by decide) _), ?_⟩
  rw [State.raise_pair, State.enterPair_pair]

end

/-! ## Rehearsals (R311 to R313) -/

section
variable {s : State}

/-- A rehearsal with its terms, before the handover. -/
def Rehearsal.opened (h : BitVec 32) (dwell : Nat) (back incoming : Bool) : Rehearsal :=
  { handover := h, dwell := some dwell, handBack := back, incoming := incoming, took := false, passed := [], failed := [] }

theorem runRehearse_active {c : Ctx} {b : List Byte} {x : Pair} {last : BitVec 32} (hpair : s.pair = x) (hlast : s.square.last = last)
    (hactive : x.state = .active) (hd : be16 b 2 ≠ 0) (hr : x.rehearsal = none) (hh : x.handover = none) (hi : x.incoming = none) :
    runRehearse c b s = ({ s with pair := { x with
      handover := some (cyclePlus last 8)
      rehearsal := some (Rehearsal.opened (cyclePlus last 8) (be16 b 2) (byteAt b 0 % 2 == 1) false)
      forwarded := x.forwarded ++ [(Change.rehearse (be16 b 2) (byteAt b 0 % 2 == 1), cyclePlus last 8)] } }).reply c .ok
        (toBe 4 (cyclePlus last 8).toNat) := by
  subst hpair hlast
  have hidle : (s.rehearsing || s.pair.handover.isSome || s.pair.incoming.isSome) = false := by simp [State.rehearsing, hr, hh, hi]
  unfold runRehearse
  dsimp only
  rw [if_neg (by simp [hactive]), if_neg (by simp [hactive]), if_neg hd, if_neg (by simp [hidle]), if_pos (by simp [hactive])]
  unfold State.tellPartner State.openRehearsal
  simp [hactive, Rehearsal.opened]

theorem State.hearRehearsal_sync {d : Nat} {back : Bool} {h : BitVec 32} (hsync : s.pair.state = .sync) (hr : s.pair.rehearsal = none)
    (hh : s.pair.handover = none) (hi : s.pair.incoming = none) : s.hearRehearsal (.rehearse d back) h =
      { s with pair := { s.pair with handover := none, rehearsal := some (Rehearsal.opened h d back true) } } := by
  have hfree : (!s.rehearsing && s.pair.handover.isNone && s.pair.incoming.isNone && (s.pair.state == .active || s.pair.state == .sync)) = true := by
    simp [State.rehearsing, hr, hh, hi, hsync]
  refine (if_pos hfree).trans ?_
  simp [State.openRehearsal, hsync, Rehearsal.opened]

theorem execForwardedChange_rehearse {d : Nat} {back : Bool} {h : BitVec 32} (hmode : s.pairMode = true) (hup : s.cableUp = true) :
    execForwardedChange (.rehearse d back) h s = .next (s.hearRehearsal (.rehearse d back) h) :=
  (if_neg (by simp [hmode, hup])).trans (if_pos rfl)

theorem runResync_sync {c : Ctx} {b : List Byte} (hsync : s.pair.state = .sync) : runResync c b s = s.startSync.ok c := by
  simp [runResync, hsync]

theorem execHandBack_begins {r : Rehearsal} (hr : s.pair.rehearsal = some r) (hin : r.incoming = true) (htook : r.took = true)
    (hactive : s.pair.state = .active) (hh : s.pair.handover = none) (hdwell : r.dwell.isSome = true)
    (hdue : (r.handBack = true ∧ s.dwellOver r = true) ∨ r.failed ≠ []) : execHandBack s = .next s.beginHandBack := by
  have hback : ((r.handBack && s.dwellOver r) || r.failed != []) = true := by simpa using hdue
  simp only [execHandBack, hr, hin, htook, hactive, hh, hdwell, hback]
  rfl

/-- A hand-back that is due at the end of the dwell has begun. -/
def State.dwellEnded (s : State) (r : Rehearsal) : State :=
  if r.incoming && s.pair.state == .active && s.pair.handover.isNone && (r.handBack || r.failed != []) then s.beginHandBack else s

theorem execRehearseResult_ends {r : Rehearsal} (hr : s.pair.rehearsal = some r) (htook : r.took = true) (hover : s.dwellOver r = true) :
    execRehearseResult s = .next (s.dwellEnded r).endRehearsal := by
  unfold execRehearseResult
  rw [hr]
  exact if_neg (by simp [htook, hover])

theorem State.dwellEnded_pair (s : State) (r : Rehearsal) : ∃ h, s.dwellEnded r = { s with pair := { s.pair with handover := h } } := by
  unfold State.dwellEnded
  split
  · exact ⟨_, rfl⟩
  · exact ⟨_, rfl⟩

theorem State.dwellOver_some {r : Rehearsal} (h : s.dwellOver r = true) : r.dwell.isNone = false := by
  cases hd : r.dwell with
  | none => simp [State.dwellOver, hd] at h
  | some d => rfl

theorem State.endRehearsal_over {r : Rehearsal} (hr : s.pair.rehearsal = some r) (htook : r.took = true) (hover : s.dwellOver r = true) :
    s.endRehearsal.mram.rehearsalAt = if r.failed = [] then s.now else s.mram.rehearsalAt := by
  have hkept : (s.rehearsalTold r).mram.rehearsalAt = s.mram.rehearsalAt := congrArg Mram.rehearsalAt (State.raise_mram _ _ _)
  rw [State.endRehearsal_some hr, if_neg (by simp [State.dwellOver_some hover]), htook, hover]
  by_cases hf : r.failed = []
  · rw [if_pos (by simp [hf]), if_pos hf]
  · rw [if_neg (by simp [hf]), if_neg hf, hkept]

theorem execRehearseResult_reaches {r : Rehearsal} (hr : s.pair.rehearsal = some r) (htook : r.took = true) (hover : s.dwellOver r = true) :
    ∃ t, execRehearseResult s = .next t ∧ s.staysIn { posts := true, rehearsal := true } t ∧ t.pair.rehearsal = none ∧
      t.mram.rehearsalAt = if r.failed = [] then s.now else s.mram.rehearsalAt := by
  obtain ⟨h, hended⟩ := s.dwellEnded_pair r
  refine ⟨_, execRehearseResult_ends hr htook hover, ?_, ?_, ?_⟩
  · rw [hended]
    exact (s.staysIn_pair _).trans (State.endRehearsal_staysIn rfl rfl _)
  · rw [State.endRehearsal_pair]
  · rw [hended]
    exact State.endRehearsal_over (s := { s with pair := { s.pair with handover := h } }) hr htook hover

end

/-! ## The rows -/

/-- Settles O53: ledgers and changes by what each waits for, the snapshot by what stands beside it, roles and rehearsals by the steps they take. -/
theorem pairSyncRows : Obligations.PairSyncRows := by
  intro s p hmode
  refine ⟨fun l hs hlate => if_pos (by simp [hlate]), fun l hs hn hdue => execLedgerReceived_brings hs hn hdue, ?hold, ?change, ?late, ?forces, ?noted,
    ?token, ?discovery, ?done, ?snapshot, ?rehearse, ?heard, ?resync, ?handBack, ?result⟩
  case hold =>
    intro hsync hdue
    obtain ⟨honly, hpair⟩ := State.loseSync_reaches hsync 1
    exact ⟨_, if_pos (by simp [hmode, hsync, hdue]), honly, hpair⟩
  case change =>
    intro c b hup hs hown hr ha hf hw hahead hne
    have hexec := execForwardedChange_early hmode hup hs hown hr ha hw hahead hne
    rw [hf, s.changeNoted_onlyUcs c] at hexec
    refine ⟨_, hexec, rfl, fun h => ?_⟩
    have hkept : s.changeNoted c = s := State.changeNoted_beside h
    have hucs : (s.changeNoted c).ucs = s.ucs := congrArg State.ucs hkept
    exact hucs
  case late =>
    intro c b hup hs hown hr ha hw hlate
    exact execForwardedChange_late hmode hup hs hown hr ha hw hlate
  case forces =>
    intro l b hup hs hown hahead hne
    exact execForwardedChange_early hmode hup hs hown rfl rfl rfl hahead hne
  case noted => exact fun c i hsyncing hn hc => execCycleStartToken_noted hsyncing hn hc
  case token => exact fun c i hs hown hc => execCycleStartToken_added hs hown hc
  case discovery =>
    intro hstale hnone hend hlone hclaim hworks
    obtain ⟨honly, hstate, hepoch⟩ := State.claimRole_reaches hclaim
    refine ⟨_, execDiscoveryTimeout_claims hmode hstale hnone hend hlone hclaim hworks, honly.trans (State.raise_staysIn rfl _ (by decide) _), ?_, ?_⟩
    · rw [State.raise_pair, hstate]
    · rw [State.raise_mram, hepoch]
  case done => exact fun hsyncing hs happlied => execResyncDone_syncs hmode hsyncing hs happlied
  case snapshot =>
    intro x hsyncing hn hf hc
    exact ⟨_, execResyncSnapshotReceived_next hsyncing hn hf hc, State.eq_bring (s.resynced_unbrought x), s.resynced_numbered x⟩
  case rehearse =>
    intro b h hadm hactive hd hr hh hi
    exact (State.command_next runRehearse hadm).trans (congrArg _
      (runRehearse_active (State.admitted_pair s p _) (congrArg Square.last (State.admitted_square s p _)) hactive hd hr hh hi))
  case heard =>
    intro d back h hup hsync hr hh hi
    exact (execForwardedChange_rehearse hmode hup).trans (congrArg _ (State.hearRehearsal_sync hsync hr hh hi))
  case resync =>
    intro hadm hsync
    exact (State.command_next runResync hadm).trans (congrArg _ (runResync_sync (by simpa using hsync)))
  case handBack => exact fun r hr hin htook hactive hh hdwell hdue => execHandBack_begins hr hin htook hactive hh hdwell hdue
  case result =>
    intro r hr htook hover
    obtain ⟨t, hexec, honly, hpair⟩ := execRehearseResult_reaches hr htook hover
    exact ⟨t, hexec, honly, hpair⟩

end Sys2Proof.Machine
end
